-- ==== Sys2Proof/Word.lean ====
section
/-! DEFINITION. The plain data every file shares: bytes, 64-byte submission entries, the place of a register field,
two's complement on a given width, and little-endian bytes (R5, R7). -/

namespace Sys2Proof

/-- One byte. -/
abbrev Byte := BitVec 8

/-- One 64-byte submission entry, byte 0 in bits [7:0] (R5, R349). -/
abbrev Entry := BitVec 512

/-- The place of a register field: the BAR0 offset of the 64-bit quad that holds it, its lowest bit there, its width. -/
structure Fld where
  addr : Nat
  lo : Nat
  width : Nat
  deriving DecidableEq, Repr

/-- The value of `n`, read as a two's-complement number of `w` bits (R7). -/
def toSigned (w n : Nat) : Int :=
  if n % 2 ^ w < 2 ^ (w - 1) then ((n % 2 ^ w : Nat) : Int) else ((n % 2 ^ w : Nat) : Int) - ((2 ^ w : Nat) : Int)

/-- The two's-complement code of `i` on `w` bits (R7). -/
def ofSigned (w : Nat) (i : Int) : Nat := (i % ((2 ^ w : Nat) : Int)).toNat

/-- Little-endian value of a list of bytes (R5). -/
def leNat : List Byte → Nat
  | [] => 0
  | b :: bs => b.toNat + 256 * leNat bs

/-- The `len` little-endian bytes of `n` (R5). -/
def leBytes (n : Nat) : Nat → List Byte
  | 0 => []
  | len + 1 => BitVec.ofNat 8 n :: leBytes (n / 256) len

/-- Bits [lo + w - 1 : lo] of `n`. -/
def bitsOf (n lo w : Nat) : Nat := n / 2 ^ lo % 2 ^ w

/-- Bit `k` of `n`. -/
def bitOf (n k : Nat) : Bool := decide (n / 2 ^ k % 2 = 1)

/-- A Bool as 0 or 1. -/
def b2n (b : Bool) : Nat := if b then 1 else 0

/-- The numbers below `k` whose bit is set in `n`, in ascending order. -/
def setBits (n k : Nat) : List Nat := (List.range k).filter (fun i => bitOf n i)

/-- The number whose set bits are the members of the list. -/
def ofBits (l : List Nat) : Nat := l.foldl (fun n i => if bitOf n i then n else n + 2 ^ i) 0

/-- Bytes [off + len - 1 : off] of a submission entry, little-endian (R5, R349). -/
def Entry.field (e : Entry) (off len : Nat) : Nat := bitsOf e.toNat (8 * off) (8 * len)

/-- OPCODE of a submission entry (R349). -/
def Entry.opcode (e : Entry) : Nat := Entry.field e 0 1

end Sys2Proof
end

