-- ==== Sys2Proof/Syntax.lean ====
section
/-! DEFINITION. The commands of the block: one constructor per row of spec/opcode_table.json, in its order.

A host command carries the number of its submission queue and its whole 64-byte submission entry (R349). An event
carries the unit it happens to and the data its surroundings supply. -/

namespace Sys2Proof

/-- The conversions a pin's running measurement had completed when it was cut short: the pin, their number, and the sum
of their codes, the cell time of the first, and whether the PPMU met its limit during one of them (R64, R67, R69, R172). -/
structure PartialConv where
  pin : Fin 1024
  count : BitVec 9
  sum : BitVec 26
  start : BitVec 64
  clamped : Bool
  deriving DecidableEq, Repr

/-- The play that an AWG fetches for: the current one, the next in sequence order, or that of a jump's target (R218). -/
inductive AwgPart where
  | now
  | next
  | target
  deriving DecidableEq, Repr

/-- What a fetch of an AWG brings: a sequence entry, or a 64-byte block of samples (R218). -/
inductive AwgFetch where
  | entry (p : AwgPart)
  | block (p : AwgPart) (k : BitVec 27)
  deriving DecidableEq, Repr


/-- A translation returned by an ATS completion: the first of its 4 KiB pages within the page of the request, their
number, the translated address of the first, and its R, W and U bits (R309). -/
structure AtsRange where
  first : Fin 512
  count : BitVec 10
  target : BitVec 64
  canRead : Bool
  canWrite : Bool
  untranslated : Bool
  deriving DecidableEq, Repr

/-- An ATS Translation Completion: the ranges translated, or UR or CA (R309, R315). -/
inductive AtsAnswer where
  | ranges (l : List AtsRange)
  | refused
  deriving DecidableEq, Repr

/-- The response to a Page Request Group (R311). -/
inductive PrgResponse where
  | success
  | invalid
  | failure
  deriving DecidableEq, Repr

/-- A host read completion for a 64-byte block: its data, clean or with EP set, or UR or CA (R298, R315). -/
inductive HostRead where
  | data (d : BitVec 512) (ep : Bool)
  | refused
  deriving DecidableEq, Repr

/-- What a 64-byte read of the host's queue memory brings: its data; or UR, CA or EP (R346, R351). -/
inductive LineRead where
  | data (d : BitVec 512)
  | failed
  deriving DecidableEq, Repr

/-- A moderated queue: a completion queue or a host event queue (R354, R446). -/
inductive ModQueue where
  | cq (q : Fin 256)
  | heq (k : Fin 4)
  deriving DecidableEq, Repr

/-- A read or request that gets no completion (R315, R346, R351): an ATS request of a DTT entry, a host block, a doorbell
line, the next entry of a submission queue. -/
inductive LateRead where
  | ats (entry : BitVec 17)
  | block (block : BitVec 58)
  | doorbell (k : Fin 64)
  | entry (q : Fin 256)
  deriving DecidableEq, Repr

/-- A host write to configuration space, or to a vector of the MSI-X table in BAR2 (R310, R339, R340, R355). -/
inductive ConfigWrite where
  | busMaster (on : Bool)
  | msixEnable (on : Bool)
  | functionMask (on : Bool)
  | vectorMask (v : Fin 2048)
  | vectorTable (v : Fin 2048) (addr : BitVec 64) (data : BitVec 32)
  | atsEnable (on : Bool)
  | priEnable (on : Bool)
  | priAllocation (groups : BitVec 32)
  | pmeEnable (on : Bool)
  | pmeStatusClear
  deriving DecidableEq, Repr

/-- Link rates 2.5 to 32.0 GT/s and widths of 1 to 8 lanes (R341, R359). -/
inductive LinkRate where
  | gt2 | gt5 | gt8 | gt16 | gt32
  deriving DecidableEq, Repr
inductive LinkWidth where
  | x1 | x2 | x4 | x8
  deriving DecidableEq, Repr

/-- What pulls a cell event line low for a set time: the controller, a DPS trip, an AWG marker (R217, R264, R447). -/
inductive LineDriver where
  | controller
  | dps (n : Fin 64)
  | awg (c : Fin 32)
  deriving DecidableEq, Repr

/-- Which part of a 64-bit register a host access covers (R509). -/
inductive RegPart where
  | whole | low | high
  deriving DecidableEq, Repr

/-- A cell frame as received (R397, R398, R401): its words, the edges counted, and the places of the reply whose word the
controller clocked while CP_READY was low. -/
structure CellFrame where
  header : BitVec 16
  addr : BitVec 16
  data : List (BitVec 16)
  crc : BitVec 16
  edges : BitVec 16
  repeats : List (BitVec 8)
  deriving DecidableEq, Repr

/-- A calibration record as measured (R410): its KIND, UNIT and words, 32 bits each, timing terms in the low 16. -/
structure CalRecord where
  kind : Fin 7
  unit : BitVec 16
  words : List (BitVec 32)
  deriving DecidableEq, Repr

/-- What a CAL_RUN measures (R60, R265, R417): new constants; the channels that fail the clamp check, the reference
channel bit 32; the DPS channels of the cluster that fail level 1. -/
structure CalOutcome where
  records : List CalRecord
  clamps : BitVec 33
  level1 : BitVec 2
  deriving DecidableEq, Repr

/-- One constant that a tracking cycle measures: the KIND, the index of its word, its value (R411). -/
structure TrackWord where
  kind : Fin 7
  index : BitVec 6
  value : BitVec 32
  deriving DecidableEq, Repr

/-- What a tracking cycle measures (R411, R413): constants of the reference channel; Felt path delays by port; whether
both ratios hold; the residuals at REF_MID and LOOP. -/
structure Tracking where
  words : List TrackWord
  felt : List (Fin 4 × BitVec 32 × BitVec 32)
  ratios : Bool
  residUv : BitVec 32
  residPs : BitVec 16
  deriving DecidableEq, Repr

/-- What the start of a unit brings (R475 to R477): whether it becomes usable in its time; of the memory stack, the pairs
that train; of a cluster, its checks with the DPS channels that fail level 2, the calibration made where the store held none, and its
first tracking cycle. -/
structure BringUp where
  ok : Bool
  pairs : BitVec 16
  cal : CalOutcome
  level2 : BitVec 2
  track : Tracking
  deriving DecidableEq, Repr

/-- A command (a row of spec/opcode_table.json). -/
inductive Instr where
  /-- REGISTER_WRITE (R8): A host write to a BAR0 register that has no row of its own sets its fields, subject to reserved-field, protection-map and held-write rules. -/
  | registerWrite (addr : BitVec 20) (wide : Bool) (v : BitVec 64)
  /-- BAD_SIZE_ACCESS (R10): A BAR0 access of an unsupported size or alignment is discarded or reads all ones, and raises the register-access-error event. -/
  | badSizeAccess (addr : BitVec 20) (size : BitVec 8)
  /-- SITE_ENABLE (R39): Waits for any running program, checks the group configuration, captures it and applies the enable and disable masks, reopening closed Deckles where allowed. -/
  | siteEnable (q : BitVec 8) (e : Entry)
  /-- CONTACT_CHECK (R40): Checks its fields, waits for any running program, then forces the given current on every assigned pin of the masked open sites. -/
  | contactCheck (q : BitVec 8) (e : Entry)
  /-- CONTACT_CHECK_END (R40): After settling and one conversion, each pin is judged against the window, contact records are written, and failing sites close their Deckle with cause 2. -/
  | contactCheckEnd (b : Fin 64) (start : BitVec 64) (readings : List (BitVec 18 × Bool))
  /-- DECKLE_CLOSE (R37): Host command that asserts cause 3 for the masked enabled positions. -/
  | deckleClose (q : BitVec 8) (e : Entry)
  /-- SITE_REG_LOAD (R38): Waits for no program on the group, reads a 64-byte table and loads the masked site registers at once. -/
  | siteRegLoad (q : BitVec 8) (e : Entry)
  /-- DECKLE_CLOSURE (R42): Within 1 us of a cause the site's pins go to the safe state, its DPS channels ramp down, its mask bit clears, pending results get 0x40, and a Deckle record and event follow. -/
  | deckleClosure (b : Fin 64) (p : Fin 8) (cut : List PartialConv)
  /-- CLAMP_MONITOR_TRIP (R59): Clamp current above THRESHOLD for the filter time sets CLAMP_TRIP and CLAMP_LIVE, and asserts cause 1 or raises the clamp-trip event. -/
  | clampMonitorTrip (p : Fin 1024)
  /-- CLAMP_LIVE_CLEAR (R59): Clamp current falling below THRESHOLD clears CLAMP_LIVE and releases cause 1. -/
  | clampLiveClear (p : Fin 1024)
  /-- CLAMP_SELF_CHECK (R60): The 30 us injection and read-back check of a cluster's clamp monitors completes and sets SC_DONE or SC_FAIL. -/
  | clampSelfCheck (c : Fin 32) (passed : BitVec 33)
  /-- PPMU_MEASURE (R66): Host command that waits for the owning programs, then connects, settles and measures the masked pins and restores them. -/
  | ppmuMeasure (q : BitVec 8) (e : Entry)
  /-- PPMU_READING (R68): The last conversion of a PPMU measurement ends and the averaged, corrected reading is formed and sent to its destinations. -/
  | ppmuReading (p : Fin 1024) (sum : BitVec 26) (clamped : Bool) (start : BitVec 64)
  /-- CLK_PLAN_WRITE (R75): A FREQ write is checked and either held while a program runs or applied, starting a relock. -/
  | clkPlanWrite (c : Fin 32) (part : RegPart) (v : BitVec 64)
  /-- RELOCK_END (R75): The cluster PLL relock ends, aligning the timing phase to cell time and setting UNIT_READY again. -/
  | relockEnd (c : Fin 32)
  /-- PLL_LOCK_LOSS (R76): The cluster PLL loses lock; both sequencers' programs stop with 0x50, LOCK_LOST sets and a relock starts. -/
  | pllLockLoss (c : Fin 32)
  /-- TIMING_SET_WRITE (R80): A write to a timing-set entry is checked against the whole written content and applied or left pending with TS_ERR set. -/
  | timingSetWrite (c : Fin 32) (r : Fin 7) (part : RegPart) (v : BitVec 64)
  /-- CTRL (R98): A micro-word of class CTRL issues no vectors and performs its counter, mask, flag, event, trap and next-address operations. -/
  | ctrl (b : Fin 64) (holds : BitVec 32)
  /-- VEC (R98): A micro-word of class VEC issues its block R + 1 times and performs its other operations. -/
  | vec (b : Fin 64) (holds : BitVec 32)
  /-- VEC_EACH (R98): A micro-word of class VEC_EACH issues each vector of its block R + 1 times before the next. -/
  | vecEach (b : Fin 64) (holds : BitVec 32)
  /-- VEC_SEQ (R98): A micro-word of class VEC_SEQ issues blocks ref to ref + R of the current segment once each. -/
  | vecSeq (b : Fin 64) (holds : BitVec 32)
  /-- VEC_HOLD (R98): A micro-word of class VEC_HOLD issues the program's hold vector R + 1 times. -/
  | vecHold (b : Fin 64) (holds : BitVec 32)
  /-- SEGMENT (R100): A micro-word of class SEGMENT makes the segment named in aux the current vector segment. -/
  | segment (b : Fin 64) (holds : BitVec 32)
  /-- WAIT_TIMEOUT (R102): A WAIT's timeout expires and the next address becomes the branch target. -/
  | waitTimeout (b : Fin 64)
  /-- CONDITION_WAIT_END (R105): A waiting condition source becomes complete for every active site and the held word proceeds from step 3. -/
  | conditionWaitEnd (b : Fin 64) (holds : BitVec 32)
  /-- SYNC_RELEASE (R101): Every result and reading of earlier words has returned and a SYNC word proceeds to pc + 1. -/
  | syncRelease (b : Fin 64)
  /-- COMPARE_RESULT (R86): A compare window's result returns to the sequencer, setting fail flags and producing FAIL records under the capture control. -/
  | compareResult (b : Fin 64) (atE3 : BitVec 256) (steady : BitVec 128)
  /-- PPMU_TRIGGER (R112): A measurement trigger of KIND 0x1 fires as the word's first vector starts and starts PPMU measurements of the active sites. -/
  | ppmuTrigger (b : Fin 64)
  /-- TMU_TRIGGER (R112): A measurement trigger of KIND 0x2 fires and arms the sequencer's TMU for its site. -/
  | tmuTrigger (b : Fin 64)
  /-- DIGITIZER_ARM_TRIGGER (R234): A measurement trigger of KIND 0x3 fires and arms the cluster's digitizer if from the owner group. -/
  | digitizerArmTrigger (b : Fin 64)
  /-- DPS_READ_TRIGGER (R261): A measurement trigger of KIND 0x4 fires and starts voltage and current readings of the active sites' DPS channels. -/
  | dpsReadTrigger (b : Fin 64)
  /-- PPMU_CONNECT (R113): Analog control connects the PPMU of each assigned pin whose mode is not 0 at the next vector-period boundary. -/
  | ppmuConnect (b : Fin 64) (cut : List PartialConv)
  /-- PPMU_DISCONNECT (R113): Analog control disconnects those PPMUs. -/
  | ppmuDisconnect (b : Fin 64) (cut : List PartialConv)
  /-- LEVEL_SET_0 (R54): Analog control switches the active sites' pins to level set 0. -/
  | levelSet0 (b : Fin 64)
  /-- LEVEL_SET_1 (R54): Analog control switches the active sites' pins to level set 1. -/
  | levelSet1 (b : Fin 64)
  /-- AWG_START (R214): Analog control starts the cluster's AWG at its START_ENTRY, or is refused if it runs. -/
  | awgStart (b : Fin 64)
  /-- AWG_STOP (R216): Analog control requests a stop of the AWG at a segment boundary. -/
  | awgStop (b : Fin 64)
  /-- AWG_JUMP (R216): Analog control requests a jump of the AWG to sequence entry aux. -/
  | awgJump (b : Fin 64)
  /-- DPS_ON (R257): Analog control requests a ramp up of each DPS channel of the active sites. -/
  | dpsOn (b : Fin 64)
  /-- DPS_OFF (R257): Analog control requests a ramp down of each DPS channel of the active sites. -/
  | dpsOff (b : Fin 64)
  /-- CAL_FREEZE (R415): Analog control takes calibration freeze on every cluster the group drives. -/
  | calFreeze (b : Fin 64)
  /-- CAL_THAW (R415): Analog control releases the freeze taken by CAL_FREEZE. -/
  | calThaw (b : Fin 64)
  /-- CS_DEMAND_FILL (R122): A control-store demand fill completes, the frame holds the page and the blocked word may issue. -/
  | csDemandFill (b : Fin 64)
  /-- CS_SPEC_FILL (R123): A speculative control-store prefetch fill completes or is dropped. -/
  | csSpecFill (b : Fin 64) (page : BitVec 16)
  /-- PROGRAM_START (R129): Queues behind a running program, makes the pre-start checks and reads, and admits or refuses the program. -/
  | programStart (q : BitVec 8) (e : Entry)
  /-- PROGRAM_ADMIT (R129): A waiting program start is admitted once its power fits or the earlier program has ended, invalidates frames and fills resident pages. -/
  | programAdmit (b : Fin 64)
  /-- PROGRAM_PREEMPT (R139): Requests that the group block at its next stall-safe word and save a pre-emption frame. -/
  | programPreempt (q : BitVec 8) (e : Entry)
  /-- PREEMPT_TIME_LIMIT (R139): A pre-empt command's time limit expires before a stall-safe word and it completes with 0x60. -/
  | preemptTimeLimit (b : Fin 64) (k : Nat)
  /-- PREEMPT_FRAME_WRITE (R139): The pre-emption frame reaches memory and the program completes with 0x30. -/
  | preemptFrameWrite (b : Fin 64)
  /-- PROGRAM_RESUME (R139): Reads and checks a pre-emption frame and restarts its image at RESUME_PC with the micro-state restored. -/
  | programResume (q : BitVec 8) (e : Entry)
  /-- TRAP_REQUEST (R141): Host command that raises a host-request micro-trap before the next word issues. -/
  | trapRequest (q : BitVec 8) (e : Entry)
  /-- TRAP_FRAME_WRITE (R142): The 512-byte trap frame reaches memory and a TRAP_REQUEST completes. -/
  | trapFrameWrite (b : Fin 64)
  /-- PROGRAM_TIME_LIMIT (R130): A program's time limit expires; the group stops and every open site completes with 0x60. -/
  | programTimeLimit (b : Fin 64)
  /-- PROGRAM_END (R20): Once every issued vector is applied and its data has landed, the program completes and its pins apply the hold vector. -/
  | programEnd (b : Fin 64)
  /-- UNSAFE_STALL (R137): The vector queue empties at a blocked word that is not stall-safe, and the program replays or ends with 0x31 or 0x32. -/
  | unsafeStall (b : Fin 64)
  /-- STREAM_BLOCK_ARRIVAL (R158): A decoded vector block arrives in a stream buffer or ring, releasing a shortfall or departing lagging members. -/
  | streamBlockArrival (n : Fin 64)
  /-- HB_CLR_COUNTS (R169): Writing CLR_COUNTS of HB_CTRL clears the Headbox counters. -/
  | hbClrCounts
  /-- CS_CLR_COUNTS (R127): Writing CLR_COUNTS of CS_CTRL clears the fill counters. -/
  | csClrCounts (n : Fin 64)
  /-- EXEC_CLR_COUNTS (R147): Writing CLR_COUNTS of EXEC_CTRL clears the execution counters. -/
  | execClrCounts (n : Fin 64)
  /-- RECORD_COMMIT (R174): The Ream writer commits a record from the elastic buffer into its queue ring once room exists. -/
  | recordCommit (n : Fin 64)
  /-- CROSSED_CLEAR (R179): Writing 1 to CROSSED clears CROSSED and COUNT. -/
  | crossedClear (n : Fin 64) (q : Fin 8)
  /-- QUEUE_CONFIG_WRITE (R174): A QBASE or QCFG write is checked and, where it changes BASE or SIZE or enables the queue, applies the configuration and zeroes the positions. -/
  | queueConfigWrite (n : Fin 64) (q : Fin 8) (cfg : Bool) (part : RegPart) (v : BitVec 64)
  /-- REAM_MARK (R180): Sets MARK to READ. -/
  | reamMark (q : BitVec 8) (e : Entry)
  /-- REAM_REWIND (R181): Sets READ back to a valid mark or reports the mark lost. -/
  | reamRewind (q : BitVec 8) (e : Entry)
  /-- REAM_RELEASE (R180): Advances READ to the given position after range checks. -/
  | reamRelease (q : BitVec 8) (e : Entry)
  /-- REAM_RESET (R180): Waits for no program, discards buffered records and applies the queue configuration. -/
  | reamReset (q : BitVec 8) (e : Entry)
  /-- TMU_ARM (R202): Host command that waits for no program on SEQn and arms the TMU, completing when the measurement ends. -/
  | tmuArm (q : BitVec 8) (e : Entry)
  /-- TMU_CALIBRATED (R195): The TMU's arming calibration ends and the TMU is armed or fails with CAL_ERR. -/
  | tmuCalibrated (n : Fin 64) (k1 k2 : BitVec 16) (startIn stopIn : Bool)
  /-- TMU_EDGE (R196): A TMU input counts an edge, possibly completing its mode. -/
  | tmuEdge (n : Fin 64) (stop falling : Bool) (ref : BitVec 40) (code : BitVec 12) (time : BitVec 64)
  /-- TMU_GATE_CLOSE (R194): A TIMED or EXTERNAL gate closes and the measurement ends. -/
  | tmuGateClose (n : Fin 64)
  /-- TMU_TIMEOUT (R194): TIMEOUT passes from the arm, or the coarse counter reaches its end, and the measurement ends. -/
  | tmuTimeout (n : Fin 64)
  /-- TMU_RESULT (R201): The TMU result is computed and sent to records, the population engine and conditions. -/
  | tmuResult (n : Fin 64)
  /-- AWG_RUN_START (R225): AWG_RUN with ACTION 0 starts the AWG at once or at a named cell time. -/
  | awgRunStart (q : BitVec 8) (e : Entry)
  /-- AWG_RUN_STOP (R225): AWG_RUN with ACTION 1 requests a stop of the AWG. -/
  | awgRunStop (q : BitVec 8) (e : Entry)
  /-- AWG_RUN_JUMP (R225): AWG_RUN with ACTION 2 requests a jump of the AWG. -/
  | awgRunJump (q : BitVec 8) (e : Entry)
  /-- AWG_TIMED_START (R225): The cell time named by AWG_RUN arrives and the AWG starts. -/
  | awgTimedStart (c : Fin 32)
  /-- AWG_REQUEST_REGISTER (R215): A jump or stop request is registered at a sample of the AWG timeline. -/
  | awgRequestRegister (c : Fin 32) (n : BitVec 64)
  /-- AWG_BOUNDARY (R216): A play boundary passes; the next play, entry, jump or stop takes effect. -/
  | awgBoundary (c : Fin 32)
  /-- AWG_FETCH_DONE (R218): A fetch of entry or samples completes, ending an underrun or raising a poison or fault gap. -/
  | awgFetchDone (c : Fin 32) (what : AwgFetch)
  /-- AWG_UNDERRUN (R219): A due sample is not in the buffer and SAFE_CODE is substituted. -/
  | awgUnderrun (c : Fin 32)
  /-- ACQ_ARM (R248): ACQ_CTRL ACTION 0 waits for the owner group and arms the digitizer. -/
  | acqArm (q : BitVec 8) (e : Entry)
  /-- ACQ_FORCE (R248): ACQ_CTRL ACTION 1 makes the next sample a trigger. -/
  | acqForce (q : BitVec 8) (e : Entry)
  /-- ACQ_STOP (R248): ACQ_CTRL ACTION 2 ends the measurement. -/
  | acqStop (q : BitVec 8) (e : Entry)
  /-- ACQ_RELEASE (R248): ACQ_CTRL ACTION 3 advances RELEASE of the data ring. -/
  | acqRelease (q : BitVec 8) (e : Entry)
  /-- TRIGGER_FIRE (R236): An enabled trigger condition is true on a sample while waiting; the record opens and its pre part is copied. -/
  | triggerFire (c : Fin 32)
  /-- POST_CAPTURE_END (R241): The last post interval of a record completes and the engine enters re-arm. -/
  | postCaptureEnd (c : Fin 32)
  /-- REARM_END (R241): Re-arm samples elapse; the engine waits again or the measurement ends. -/
  | rearmEnd (c : Fin 32)
  /-- ACQ_TIMEOUT (R242): The digitizer's TIMEOUT passes and the measurement ends. -/
  | acqTimeout (c : Fin 32)
  /-- DPS_RUN_ON (R266): DPS_RUN ACTION 0 ramps the channel up, completing in state 2. -/
  | dpsRunOn (q : BitVec 8) (e : Entry)
  /-- DPS_RUN_OFF (R266): DPS_RUN ACTION 1 ramps the channel down, completing in state 0. -/
  | dpsRunOff (q : BitVec 8) (e : Entry)
  /-- DPS_RUN_MEASURE (R266): DPS_RUN ACTION 2 takes a voltage and current reading of the channel. -/
  | dpsRunMeasure (q : BitVec 8) (e : Entry)
  /-- DPS_SWITCHING_CYCLE (R252): A switching cycle starts: ramp step, sense conversions and outer-loop update, with state changes at ramp ends. -/
  | dpsSwitchingCycle (n : Fin 64) (v i : BitVec 20)
  /-- DPS_READING (R261): The last conversion of a DPS reading ends and the reading is formed and sent. -/
  | dpsReading (n : Fin 64)
  /-- DPS_WINDOW_TRIP (R264): An armed bound stays outside for FILTER and the channel trips. -/
  | dpsWindowTrip (n : Fin 64) (bounds : BitVec 4)
  /-- DPS_BOUND_INSIDE (R263): Every armed bound returns inside and TRIP_LIVE clears, releasing cause 0. -/
  | dpsBoundInside (n : Fin 64)
  /-- BLANK_EXPIRY (R263): BLANK us in state 2 pass and the voltage bounds arm. -/
  | blankExpiry (n : Fin 64)
  /-- DPS_DISAGREE (R263): A window comparator disagrees for over 1 us, setting DISAGREE and raising the event. -/
  | dpsDisagree (n : Fin 64) (bound : BitVec 4)
  /-- DPS_SELF_CHECK (R265): A window-monitor self-check completes, setting SC_DONE or SC_FAIL. -/
  | dpsSelfCheck (n : Fin 64) (second passed : Bool)
  /-- POP_DEFINE (R273): Defines a population test and captures its expected set. -/
  | popDefine (q : BitVec 8) (e : Entry)
  /-- POP_FINALISE (R274): Finalises the test at the root or closes the local contribution elsewhere. -/
  | popFinalise (q : BitVec 8) (e : Entry)
  /-- POP_READ (R274): Returns the test's limits, state and flags. -/
  | popRead (q : BitVec 8) (e : Entry)
  /-- POP_RELEASE (R274): Frees the test slot and resolves waiting conditions to NONE. -/
  | popRelease (q : BitVec 8) (e : Entry)
  /-- POP_READING (R270): The engine takes a reading from its input queue, records and bins it or marks it late, duplicate or undefined. -/
  | popReading
  /-- FORWARD_DEADLINE (R279): The forward deadline passes and the node sends its report. -/
  | forwardDeadline (k : Fin 1024)
  /-- DEADLINE (R280): DEADLINE passes at the root and the test finalises. -/
  | deadline (k : Fin 1024)
  /-- POP_DOMAIN_WRITE (R293): A POP_DOMAIN write is applied only with no test defined and DEVICES in range, else sets CFG_ERR. -/
  | popDomainWrite (part : RegPart) (v : BitVec 64)
  /-- POP_CLR_COUNTS (R293): Writing CLR_COUNTS of POP_CTRL clears the population counters. -/
  | popClrCounts
  /-- MAP_SET (R306): Checks and applies up to six DTT entries. -/
  | mapSet (q : BitVec 8) (e : Entry)
  /-- MAP_LOAD (R306): Reads a table and applies its DTT entries in ascending index. -/
  | mapLoad (q : BitVec 8) (e : Entry)
  /-- MAP_CLEAR (R306): Clears a range of DTT entries, pinned ones only with FORCE. -/
  | mapClear (q : BitVec 8) (e : Entry)
  /-- MAP_READ (R305): Returns one DTT entry and its translation state. -/
  | mapRead (q : BitVec 8) (e : Entry)
  /-- REGION_WRITE (R302): A region descriptor write is applied only if its range is valid and non-overlapping, else sets CFG_ERR. -/
  | regionWrite (r : Fin 64) (part : RegPart) (v : BitVec 64)
  /-- MMU_CLR_COUNTS (R319): Writing CLR_COUNTS of MMU_CTRL clears the memory manager counters. -/
  | mmuClrCounts
  /-- PATROL_SCRUB (R300): The patrol scrubber reads and decodes the next block of usable memory. -/
  | patrolScrub (errors : List (Fin 68 × BitVec 8)) (elsewhere : List (BitVec 28 × List (Fin 68 × BitVec 8)))
  /-- HOST_READ_COMPLETION (R298): A host read completion arrives and its data is delivered, poisoned if EP is set, or faults. -/
  | hostReadCompletion (block : BitVec 58) (r : HostRead)
  /-- ATS_COMPLETION (R309): An ATS Translation Completion arrives and fills the translation cache or leads to a page request. -/
  | atsCompletion (entry : BitVec 17) (r : AtsAnswer)
  /-- PAGE_REQUEST_RESPONSE (R311): A PRG response arrives and decides the waiting accesses. -/
  | pageRequestResponse (index : Fin 512) (r : PrgResponse)
  /-- PR_TIMEOUT (R311): No PRG response within PR_TIMEOUT; the waiting accesses fault. -/
  | prTimeout (index : Fin 512)
  /-- ATS_INVALIDATE (R312): An ATS Invalidate Request drops the covered cached ranges and re-translates pinned entries. -/
  | atsInvalidate (itag : Fin 32) (base : BitVec 52) (pages : BitVec 52)
  /-- INVALIDATION_COMPLETION (R312): Once accesses using dropped ranges are done, the Invalidation Completion is sent. -/
  | invalidationCompletion (itag : Fin 32)
  /-- DMA_COPY (R322): Copies data between two device virtual addresses in chunks. -/
  | dmaCopy (q : BitVec 8) (e : Entry)
  /-- DMA_RING (R323): Drains a Ream queue or digitizer ring to a destination, releasing the ring per chunk. -/
  | dmaRing (q : BitVec 8) (e : Entry)
  /-- DMA_FILL (R322): Fills a destination with an 8-byte pattern. -/
  | dmaFill (q : BitVec 8) (e : Entry)
  /-- DMA_RESUME (R328): Restarts a suspended transfer at chunk DONE / 4,096. -/
  | dmaResume (q : BitVec 8) (e : Entry)
  /-- DMA_ABORT (R329): Frees a suspension slot or stops a held transfer by queue and tag. -/
  | dmaAbort (q : BitVec 8) (e : Entry)
  /-- DMA_CHUNK_COMPLETE (R322): A chunk completes; DONE advances, ring positions move, and the engine may pre-empt or complete. -/
  | dmaChunkComplete (e : Fin 8) (begun : Fin 8) (landed : List (Fin 7))
  /-- DESCRIPTOR_AGEING (R331): A waiting descriptor's AGE_LIMIT passes and its effective class rises. -/
  | descriptorAgeing (e : Fin 8) (k : Fin 32)
  /-- DMA_TIME_LIMIT (R330): A transfer's time limit expires and it stops with 0x60. -/
  | dmaTimeLimit (e : Fin 8) (slot : Bool) (k : Fin 32)
  /-- DMA_CLR_COUNTS (R337): Writing CLR_COUNTS of DMA_COMMON clears every DMA engine counter. -/
  | dmaClrCounts
  /-- POLL_ROUND (R346): A poll round starts and reads the doorbell lines of enabled queues. -/
  | pollRound
  /-- DOORBELL_LINE_READ (R346): A doorbell line read completes and new tails and heads are taken, or DB_ERR sets. -/
  | doorbellLineRead (k : Fin 64) (r : LineRead)
  /-- ENTRY_FETCH (R347): A submission entry read completes and the entry is checked and dispatched to its target. -/
  | entryFetch (q : Fin 256) (r : LineRead)
  /-- NOP (R350): Opcode 0x00 completes with 0x00 once earlier entries of its queue are dispatched. -/
  | nop (q : BitVec 8) (e : Entry)
  /-- COMPLETION_WRITE (R353): A completion entry leaves the buffer into its queue once room exists and moderation counts it. -/
  | completionWrite
  /-- MODERATION_TIMER (R354): A completion or event queue's moderation timer expires and its vector is made pending. -/
  | moderationTimer (m : ModQueue)
  /-- MSIX_UNMASK (R355): A vector or function is unmasked and a still-pending message is sent once. -/
  | msixUnmask (v : Option (Fin 2048))
  /-- L1_EXIT (R355): The link reaches L0 after an L1 exit and deferred messages are sent. -/
  | l1Exit
  /-- D3HOT_ENTRY (R355): The function enters D3hot; polling stops and deliveries are held or signalled by PME. -/
  | d3hotEntry
  /-- D0_RETURN (R356): The function returns to D0 with Bus Master Enable, and held entries and deferred vectors are written. -/
  | d0Return (busMaster : Bool)
  /-- HOT_RESET (R342): A hot reset or link-down resets the host interface and disables all queues. -/
  | hotReset (linkDown : Bool)
  /-- SQ_CONFIG_WRITE (R344): A submission queue register write is checked and, on enable, applies BASE and SIZE and zeroes head and tail. -/
  | sqConfigWrite (q : Fin 256) (part : RegPart) (v : BitVec 64)
  /-- CQ_CONFIG_WRITE (R344): A completion queue register write is checked and, on enable, applies BASE and SIZE and sets phase 1. -/
  | cqConfigWrite (q : Fin 256) (part : RegPart) (v : BitVec 64)
  /-- POLL_INTERVAL_WRITE (R346): A POLL_NS or IDLE_POLL_NS write is checked against the other and, if applied, sends an LTR message. -/
  | pollIntervalWrite (idle : Bool) (v : BitVec 32)
  /-- HI_CLR_COUNTS (R359): Writing CLR_COUNTS of HI_CTRL clears the host interface counters. -/
  | hiClrCounts
  /-- PARTNER_DETECT (R362): The partner's training pattern is seen and the port enters EQUALISE. -/
  | partnerDetect (p : Fin 4)
  /-- EQUALISE_END (R362): Equalisation ends and the port enters HANDSHAKE or returns to DETECT. -/
  | equaliseEnd (p : Fin 4) (ok : Bool)
  /-- MISMATCH_RETRY (R362): Every 10 ms in MISMATCH the port handshakes again. -/
  | mismatchRetry (p : Fin 4)
  /-- BLOCK_LOCK_LOSS (R360): Block lock is lost and the port starts a retrain. -/
  | blockLockLoss (p : Fin 4)
  /-- RETRAIN (R386): Writing RETRAIN in UP starts a retrain. -/
  | retrain (p : Fin 4)
  /-- RETRAIN_TIMEOUT (R362): A retrain not UP within 100 ms sends the port to DOWN, discarding its buffers. -/
  | retrainTimeout (p : Fin 4)
  /-- DOWN_TIMEOUT (R362): One second in DOWN returns the port to DETECT. -/
  | downTimeout (p : Fin 4)
  /-- ID0 (R363): An ID0 control block gives the neighbour's node, port, extents and version. -/
  | id0 (p : Fin 4) (content : BitVec 48) (crc : BitVec 8)
  /-- ID1 (R362): An ID1 control block completes the handshake, sending the port UP or to MISMATCH. -/
  | id1 (p : Fin 4) (content : BitVec 48) (crc : BitVec 8)
  /-- CREDIT (R365): A CREDIT control block returns cumulative credits per virtual channel. -/
  | credit (p : Fin 4) (content : BitVec 48) (crc : BitVec 8)
  /-- ACK (R366): An ACK releases acknowledged packets from the replay buffer. -/
  | ack (p : Fin 4) (content : BitVec 48) (crc : BitVec 8)
  /-- NAK (R367): A NAK makes the transmitter resend from the expected SEQ. -/
  | nak (p : Fin 4) (content : BitVec 48) (crc : BitVec 8)
  /-- SYNC_REQ (R379): A SYNC_REQ is stamped and answered with SYNC_RSP. -/
  | syncReq (p : Fin 4) (content : BitVec 48) (crc : BitVec 8) (t2 t3 : BitVec 64)
  /-- SYNC_RSP (R379): A SYNC_RSP completes a hop-delay exchange and updates HOP_DELAY. -/
  | syncRsp (p : Fin 4) (content : BitVec 48) (crc : BitVec 8) (t4 : BitVec 64)
  /-- SYNC_PULSE (R380): A SYNC_PULSE from the sync parent gives an offset that steers ADJ and the sync state. -/
  | syncPulse (p : Fin 4) (content : BitVec 48) (crc : BitVec 8) (ta : BitVec 64)
  /-- SYNC_INFO (R378): A SYNC_INFO gives a neighbour's sync depth and state for parent choice. -/
  | syncInfo (p : Fin 4) (content : BitVec 48) (crc : BitVec 8)
  /-- TIME_HI (R380): A TIME_HI gives the high bits and epoch of the sender's cell time. -/
  | timeHi (p : Fin 4) (content : BitVec 48) (crc : BitVec 8)
  /-- PACKET_RECEIVE (R366): A packet is received, checked for CRC and sequence, and accepted, forwarded or discarded with NAK. -/
  | packetReceive (p : Fin 4) (flits : List (BitVec 64))
  /-- REPLAY_TIMEOUT (R367): 4 us without ACK progress makes the transmitter resend from the oldest unacknowledged packet. -/
  | replayTimeout (p : Fin 4)
  /-- CREDIT_TIMER (R365): The 100 ns credit interval passes and a CREDIT block is sent. -/
  | creditTimer (p : Fin 4)
  /-- ACK_TIMER (R366): The ACK interval passes and an ACK is sent. -/
  | ackTimer (p : Fin 4)
  /-- SYNC_EXCHANGE_TIMER (R379): Every 10 us a hop-delay exchange is started on each UP link. -/
  | syncExchangeTimer (p : Fin 4) (t1 : BitVec 64)
  /-- SYNC_PULSE_TIMER (R380): Every 10 us the sync parent sends SYNC_PULSE, every 100 us TIME_HI, and every device SYNC_INFO. -/
  | syncPulseTimer (t : BitVec 64) (hi : Bool)
  /-- HOLDOVER_TIMEOUT (R380): No pulse for 100 us sends a LOCKED device to HOLDOVER. -/
  | holdoverTimeout
  /-- WRITE_REQ (R374): A remote write request is translated at the target and answered with WRITE_RSP. -/
  | writeReq (p : Fin 4)
  /-- READ_REQ (R374): A remote read request is translated at the target and answered with READ_RSP. -/
  | readReq (p : Fin 4)
  /-- WRITE_RSP (R376): A write response completes part of a FELT_COPY or ends it on a fault. -/
  | writeRsp (p : Fin 4)
  /-- READ_RSP (R376): A read response delivers data for a FELT_COPY or ends it on a fault. -/
  | readRsp (p : Fin 4)
  /-- REDUCE (R373): A reduction part is reassembled and, once complete, the report, limits or failure is handed to the population engine. -/
  | reduce (p : Fin 4)
  /-- REASSEMBLY_TIMEOUT (R373): A body whose parts do not all arrive within 1 ms is discarded. -/
  | reassemblyTimeout (k : Fin 8)
  /-- START (R382): A START message arms a scheduled start in a slot and is answered with START_ACK. -/
  | start (p : Fin 4)
  /-- START_ACK (R382): A START_ACK counts toward the FELT_SCHEDULE completion. -/
  | startAck (p : Fin 4)
  /-- CANCEL (R384): A CANCEL message frees the start slot unless T is under 10 us ahead. -/
  | cancel (p : Fin 4)
  /-- LINK_STATE (R371): A LINK_STATE message of higher version updates the link-state map. -/
  | linkState (p : Fin 4)
  /-- FELT_COPY (R376): Copies data between local and remote memory in messages of at most 256 bytes. -/
  | feltCopy (q : BitVec 8) (e : Entry)
  /-- FELT_SCHEDULE (R382): Broadcasts START and arms a scheduled start locally. -/
  | feltSchedule (q : BitVec 8) (e : Entry)
  /-- FELT_CANCEL (R384): Broadcasts CANCEL for a scheduled start. -/
  | feltCancel (q : BitVec 8) (e : Entry)
  /-- FELT_TIME_SET (R381): Sets cell time and EPOCH on the root device. -/
  | feltTimeSet (q : BitVec 8) (e : Entry)
  /-- SCHEDULE_TIMEOUT (R382): 1 ms after the broadcast a FELT_SCHEDULE or FELT_CANCEL completes with the answers received. -/
  | scheduleTimeout (k : Fin 16)
  /-- RSP_TIMEOUT (R376): A remote response is missing after RSP_TIMEOUT and the FELT_COPY ends with 0x60. -/
  | rspTimeout (tid : BitVec 12)
  /-- START_FILL_DEADLINE (R383): At T - 2 us a bound program whose fills are incomplete completes with 0x60. -/
  | startFillDeadline (k : Fin 8)
  /-- START_ALIGN (R383): At T - 5 us idle locked clusters align their timing phase to cell time. -/
  | startAlign (k : Fin 8)
  /-- SCHEDULED_START (R383): At T bound programs begin vector 0 at the ball and the slot frees. -/
  | scheduledStart (k : Fin 8)
  /-- FELT_CFG_WRITE (R386): A FELT_CFG write is applied only with every port DISABLED and valid extents, else sets CFG_ERR. -/
  | feltCfgWrite (part : RegPart) (v : BitVec 64)
  /-- FELT_CLR_COUNTS (R386): Writing CLR_COUNTS of FELT_CTRL clears the Felt counters. -/
  | feltClrCounts
  /-- FLASH_FETCH (R391): A firmware fetch misses the read buffer and starts a flash read frame. -/
  | flashFetch (line : BitVec 26)
  /-- FLASH_READ_DONE (R391): The requested flash line arrives and crosses to the management processors. -/
  | flashReadDone
  /-- DQS_TIMEOUT (R405): No FL_DQS transitions within 1 us end the frame, with retry and fallback. -/
  | dqsTimeout
  /-- STORE_WRITE (R396): A store write request starts a write to the inactive bank or is marked pending. -/
  | storeWrite
  /-- FLASH_STATUS_READ (R392): Every 10 us after a program or erase the status is read, continuing the store write when ready. -/
  | flashStatusRead (ready good : Bool)
  /-- FLASH_BUSY_TIMEOUT (R392): A program or erase busy after 2 s fails the store write. -/
  | flashBusyTimeout
  /-- CELL_NOP (R398): A cell frame with OP NOP, or a refused or invalid frame, is checked and reported in the next STATUS. -/
  | cellNop (f : CellFrame)
  /-- CELL_READ (R402): A cell READ frame returns words of the cell register space. -/
  | cellRead (f : CellFrame)
  /-- CELL_WRITE (R402): A cell WRITE frame takes effect when CP_SEL_N rises, such as DECKLE_REQ closures. -/
  | cellWrite (f : CellFrame)
  /-- ALIVE_LOSS (R400): ALIVE_TIMEOUT passes without a valid frame; a loss is declared and cause 5 asserted. -/
  | aliveLoss
  /-- CP_CTRL_WRITE (R400): A CP_CTRL write sets ENABLE and ALIVE_TIMEOUT, ending a loss when written 0. -/
  | cpCtrlWrite (v : BitVec 32)
  /-- CAL_RUN (R417): Runs the requested calibration kinds on a cluster, holding or waiting for programs. -/
  | calRun (q : BitVec 8) (e : Entry) (m : CalOutcome)
  /-- CAL_RUN_TIME_LIMIT (R417): CAL_RUN's time limit expires; held groups are released and it completes with 0x60. -/
  | calRunTimeLimit (c : Fin 32)
  /-- CAL_STORE (R418): Writes the calibration section to the store. -/
  | calStore (q : BitVec 8) (e : Entry)
  /-- CAL_LOAD (R418): Checks and loads a calibration section body and writes the store. -/
  | calLoad (q : BitVec 8) (e : Entry)
  /-- TRACKING_CYCLE (R411): Every 20 ms a tracking cycle measures drift on the reference channel and sets new targets or a fault. -/
  | trackingCycle (c : Fin 32) (m : Tracking)
  /-- CALENDER_STEP (R414): The Calender moves a working value one step toward its target at a boundary. -/
  | calenderStep (kind : Fin 7) (unit : BitVec 16) (j : Fin 23)
  /-- CAL_STALE (R413): No tracking cycle completes for 1 s and QUALITY becomes STALE. -/
  | calStale (c : Fin 32)
  /-- NEXT_EVENT (R427): Replaces the host's next known event for idle-state choice. -/
  | nextEvent (q : BitVec 8) (e : Entry)
  /-- WAKE (R427): Returns the device to P0. -/
  | wake (q : BitVec 8) (e : Entry)
  /-- USAGE_READ (R427): Writes the live usage log body and optionally the store. -/
  | usageRead (q : BitVec 8) (e : Entry)
  /-- IDLE_CHOICE (R424): After IDLE_DELAY quiet, the device chooses the deepest idle state that fits and starts entry. -/
  | idleChoice
  /-- IDLE_ENTRY_END (R421): Entry into an idle state completes. -/
  | idleEntryEnd
  /-- IDLE_EXIT (R426): A scheduled exit time, command, Felt message or event line starts the return to P0. -/
  | idleExit
  /-- IDLE_EXIT_END (R421): Exit completes, the device is in P0 and UNIT_READY bits set again. -/
  | idleExitEnd
  /-- THERMAL_SAMPLE (R428): Every 10 ms each sensor is sampled, cross-checked and the temperatures updated. -/
  | thermalSample (temps : List (BitVec 16))
  /-- THROTTLE_UPDATE (R431): Every 100 ms each cluster's throttle count rises, falls or holds. -/
  | throttleUpdate
  /-- SENSOR_READMIT (R429): Writing 1 to a SUSPECT bit re-admits the sensor. -/
  | sensorReadmit (k : Fin 104)
  /-- SUPPLY_WARNING (R434): A rail falls below its warning level and the supply-suspect interval begins. -/
  | supplyWarning (rail : Fin 8)
  /-- SUPPLY_RECOVERY (R434): A rail recovers above its warning level; the brown-out is logged and the event raised. -/
  | supplyRecovery (rail : Fin 8)
  /-- SUPPLY_RESET (R434): A rail below its reset level for 1 us resets the device as PERST# does. -/
  | supplyReset (rail : Fin 8)
  /-- AGEING_MEASURE (R435): Every hour each cluster's ageing drift is measured into AGE_PPM. -/
  | ageingMeasure (c : Fin 32) (ppm : BitVec 32)
  /-- USAGE_LOG_WRITE (R436): Every hour of operation the usage log is written to the store. -/
  | usageLogWrite
  /-- EVENT_DELIVERY (R443): The controller selects the lowest source with a count and delivers its record to its destinations. -/
  | eventDelivery (late : Option (Fin 64))
  /-- EV_ASSERT (R441): An external assertion of a cell event line raises EV_IN and feeds its other users. -/
  | evAssert (k : Fin 8)
  /-- EV_PULSE_END (R447): A controller pulse on a cell event line ends and the line is released. -/
  | evPulseEnd (k : Fin 8) (who : LineDriver)
  /-- HEQ_CONFIG_WRITE (R445): Enabling a host event queue applies BASE and SIZE and zeroes its slot and SEQ. -/
  | heqConfigWrite (k : Fin 4) (part : RegPart) (v : BitVec 64)
  /-- EVC_CLR_COUNTS (R450): Writing CLR_COUNTS of EVC_CTRL clears DELIVERED and HEQ_DROPS. -/
  | evcClrCounts
  /-- ATTEST (R463): Writes a signed attestation report, optionally with the certificate. -/
  | attest (q : BitVec 8) (e : Entry)
  /-- SUMMARY_SIGN (R465): Writes the signed touchdown summary and starts a new period. -/
  | summarySign (q : BitVec 8) (e : Entry)
  /-- IMAGE_MEASURE (R462): Measures a program image into the image log. -/
  | imageMeasure (q : BitVec 8) (e : Entry)
  /-- FW_UPDATE (R458): Checks and installs a firmware image into the other image area and rewrites the directory. -/
  | fwUpdate (q : BitVec 8) (e : Entry)
  /-- OEM_PROVISION (R452): Burns the OEM fuse bank from a provisioning block and seals it. -/
  | oemProvision (q : BitVec 8) (e : Entry)
  /-- OEM_CONFIG (R468): Checks and stores the signed OEM configuration section. -/
  | oemConfig (q : BitVec 8) (e : Entry)
  /-- BOOT (R456): The boot ROM reads fuses and directory, verifies the firmware and certificate and sets BOOTED. -/
  | boot
  /-- EXTEST (R469): JTAG EXTEST drives and captures boundary cells once no program runs and DPS is off. -/
  | extest (shift balls : List Bool)
  /-- IDCODE (R469): JTAG IDCODE selects the identification register. -/
  | idcode
  /-- SAMPLE_PRELOAD (R469): JTAG SAMPLE/PRELOAD samples or preloads the boundary register. -/
  | samplePreload (shift balls : List Bool)
  /-- CLAMP (R469): JTAG CLAMP holds boundary outputs while bypassing, when permitted. -/
  | clamp (shift : List Bool)
  /-- HIGHZ (R469): JTAG HIGHZ places outputs at high impedance, when permitted. -/
  | highz (shift : List Bool)
  /-- DEBUG_ACCESS (R469): JTAG DEBUG_ACCESS performs one BAR0 access when debug is open and sets DEBUG_USED. -/
  | debugAccess (d : BitVec 96)
  /-- DEBUG_STATUS (R469): JTAG DEBUG_STATUS reports whether debug is open and used. -/
  | debugStatus
  /-- BYPASS (R469): JTAG BYPASS, or any reserved instruction, selects the bypass register. -/
  | bypass (code : BitVec 8) (shift : List Bool)
  /-- PERST (R474): Release of PERST# resets the whole device and starts boot. -/
  | perst (xref : Bool)
  /-- UNIT_BRINGUP (R475): The firmware starts the next present unit of the bring-up order and sets its ready bit or FAILED. -/
  | unitBringup (u : Fin 112) (r : BringUp)
  /-- UNIT_RESET (R478): Resets the named units, completing their work with 0x20, and restarts them. -/
  | unitReset (q : BitVec 8) (e : Entry)
  /-- UNIT_POWER_DOWN (R478): UNIT_POWER with action 0 powers the named units down. -/
  | unitPowerDown (q : BitVec 8) (e : Entry)
  /-- UNIT_POWER_UP (R479): UNIT_POWER with action 1 powers the named units up with their bring-up. -/
  | unitPowerUp (q : BitVec 8) (e : Entry)
  /-- UNIT_RESTART (R479): A reset unit finishes restarting, its ready bit sets and UNIT_STATE code 1 is raised. -/
  | unitRestart (u : Fin 112) (r : BringUp)
  /-- UNIT_RETIRE (R482): Records retirements of units, pairs or lanes in the store and retires the units. -/
  | unitRetire (q : BitVec 8) (e : Entry)
  /-- UNIT_UNRETIRE (R482): Clears retirement records, taking effect at the next bring-up. -/
  | unitUnretire (q : BitVec 8) (e : Entry)
  /-- REFERENCE_LOSS (R494): The selected clock reference stops for 1 us and the device resets until it has run 1 ms. -/
  | referenceLoss
  /-- SAFE_WAIT (R137): The vector queue empties at a blocked word that is stall-safe, or whose stall-safe bit still awaits its fill. The hold vector is applied, and SAFE_WAITS counts the wait or STATE reads 8. A pending pre-emption then writes its frame. -/
  | safeWait (b : Fin 64)
  /-- DIGITIZER_SAMPLE (R236): At each digitizer sample instant the value is converted, corrected and evaluated. Intervals and words are formed, slope and pattern state update, missed triggers count, and storage gaps begin or end. -/
  | digitizerSample (g : Fin 8) (c0 c1 c2 c3 : BitVec 18)
  /-- TMU_INPUT_SETTLED (R189): An unsettled TMU input's signal is first seen outside its band, so it becomes settled and START_UNSETTLED or STOP_UNSETTLED clears, without counting an edge. -/
  | tmuInputSettled (n : Fin 64) (stop : Bool)
  /-- COMPLETION_TIMEOUT (R315): A PCIe read or ATS request gets no completion within the completion timeout. This raises HOST_ERROR, DB_ERR or a queue stop with error 2, or drops a speculative read. -/
  | completionTimeout (what : LateRead)
  /-- CONFIG_SPACE_WRITE (R355): A host configuration write changes Bus Master Enable, MSI-X Enable or a mask, ATS Enable, PRI Enable or PME_En. Polling stops or resumes, pending vectors are sent or discarded, and PR_UNAVAILABLE clears. -/
  | configSpaceWrite (w : ConfigWrite)
  /-- PCIE_LINK_UP (R341): The PCIe link finishes training at its negotiated rate and width, and LINK shows them. -/
  | pcieLinkUp (rate : LinkRate) (width : LinkWidth)
  /-- L1_ENTRY (R355): Host ASPM moves the link into L1 or a substate, IN_L1 sets, and later deliveries need an L1 exit first. -/
  | l1Entry
  /-- EV_LINE_RELEASE (R104): An external driver releases a cell event line. ASSERTED clears, EV conditions read false, and a WAIT on an inverted EV condition is released. -/
  | evLineRelease (k : Fin 8)
  /-- PERST_ASSERT (R474): PERST# is asserted and the whole device is held in reset, stopping all work until release. -/
  | perstAssert
  /-- INTERNAL_RESET_RELEASE (R505): Every rail has stayed above its reset level and the reference has run for 1 ms, so the device ends its internal reset and boot begins. -/
  | internalResetRelease
  deriving DecidableEq, Repr

end Sys2Proof
end

