-- ==== Sys2Proof/Machine/Ecc.lean ====
section
/-! DEFINITION. The symbol code of a device-memory block: RS(68,64) over GF(2^8) (R296). -/

namespace Sys2Proof.Machine

/-- Product by α = 0x02 in GF(2^8) over x^8 + x^4 + x^3 + x^2 + 1. -/
def gfDouble (a : BitVec 8) : BitVec 8 := if a.getLsbD 7 then (a <<< 1) ^^^ 0x1D#8 else a <<< 1

/-- Product by α^k. -/
def gfShift : Nat → BitVec 8 → BitVec 8
  | 0, a => a
  | k + 1, a => gfDouble (gfShift k a)

/-- Syndrome i of an error pattern: the error polynomial at α^i, symbol j the coefficient of x^(67 − j). -/
def syndrome (errors : List (Fin 68 × BitVec 8)) (i : Nat) : BitVec 8 :=
  errors.foldl (fun a e => a ^^^ gfShift (i * (67 - e.1.val)) e.2) 0

/-- What decoding a block finds (R297). -/
inductive Decoded where
  | clean
  | symbol (j : Nat) (v : BitVec 8)
  | uncorrectable
  deriving DecidableEq, Repr

/-- The decoding of a block with an error pattern: the corrected symbol is the one whose error of value S0 gives every
syndrome. -/
def eccDecode (errors : List (Fin 68 × BitVec 8)) : Decoded :=
  let s0 := syndrome errors 0
  if (List.range 4).all (fun i => decide (syndrome errors i = 0)) then .clean
  else
    match (List.range 68).find? (fun j => decide (s0 ≠ 0) && (List.range 4).all (fun i =>
      decide (gfShift (i * (67 - j)) s0 = syndrome errors i))) with
    | some j => .symbol j s0
    | none => .uncorrectable

/-- The errors left on a block as a read delivers it: those of a block that decodes to one symbol are corrected (R297). -/
def deliveredErrors (errors : List (Fin 68 × BitVec 8)) : List (Fin 68 × BitVec 8) :=
  match eccDecode errors with
  | .symbol j v => if h : j < 68 then errors ++ [(⟨j, h⟩, v)] else errors
  | _ => errors

/-- Byte k of a block's data differs by the errors on it. -/
def errorOn (errors : List (Fin 68 × BitVec 8)) (k : Nat) : BitVec 8 :=
  errors.foldl (fun a e => if e.1.val = k then a ^^^ e.2 else a) 0

end Sys2Proof.Machine
end

