-- ==== Sys2Proof/Config.lean ====
section
/-! DEFINITION. What an implementation fixes and the spec gives no value for: constants without a body, so that no
proof can see a value of them. Each is named in the assumption log. -/

namespace Sys2Proof.Config

open Sys2Proof

/-- VENDOR_ID of the vendor fuse bank: burned at manufacture, no value given (R451). Log entry 10. -/
opaque vendorId : BitVec 16

/-- REVISION of the vendor fuse bank: no value given (R451). Log entry 10. -/
opaque revision : BitVec 8

/-- SERIAL of the vendor fuse bank: no value given (R451). Log entry 10. -/
opaque serial : BitVec 64

/-- MFR_ID of the vendor fuse bank: bits [11:1] of IDCODE, no value given (R451, R469). Log entry 10. -/
opaque mfrId : BitVec 11

/-- VENDOR_KEY_DIGEST of the vendor fuse bank: no value given (R451). Log entry 10. -/
opaque vendorKeyDigest : BitVec 512

/-- DEVICE_SECRET of the vendor fuse bank: no value given (R451). Log entry 10. -/
opaque deviceSecret : BitVec 256

/-- TRIM coefficients of the vendor fuse bank, by index: no value given (R451, R408, R411, R428). Log entry 10. -/
opaque trim : Nat → Int

/-- Byte of host memory that neither the device nor a command has written: the host's, not the spec's. Log entry 11. -/
opaque hostByte : Nat → Byte

/-- Byte of the flash devices that nothing has written since the part shipped (device 0 first). Log entry 12. -/
opaque flashByte : Nat → Byte

/-- The first bytes of the SHAKE256 output of a message, as a little-endian number: FIPS 202, left uninterpreted. Log entry
13. -/
opaque shakeValue : List Byte → Nat → Nat

/-- SHAKE256 of a message, the first `len` bytes of output. -/
def shake256 (m : List Byte) (len : Nat) : List Byte := leBytes (shakeValue m len) len

/-- The ML-DSA-65 public key of a 32-byte seed, as a little-endian number: FIPS 204, left uninterpreted (R460). Log entry
13. -/
opaque publicKeyValue : List Byte → Nat

/-- The 1,952-byte ML-DSA-65 public key of a seed (R460). -/
def mldsaPublicKey (seed : List Byte) : List Byte := leBytes (publicKeyValue seed) 1952

/-- ML-DSA-65 verification: public key, message, signature; empty context: FIPS 204, left uninterpreted. Log entry 13. -/
opaque mldsaVerify : List Byte → List Byte → List Byte → Bool

/-- A hedged ML-DSA-65 signature as a little-endian number: seed, message, count of signatures made before (R463). Log
entry 13. -/
opaque signatureValue : List Byte → List Byte → Nat → Nat

/-- A hedged ML-DSA-65 signature, 3,309 bytes (R463). -/
def mldsaSign (seed m : List Byte) (count : Nat) : List Byte := leBytes (signatureValue seed m count) 3309

/-- The subject public key of an X.509 version 3 certificate in DER; none where it cannot be read (R461): X.509, left
uninterpreted. Log entry 13. -/
opaque certKey : List Byte → Option (List Byte)

/-- The change that a tracking cycle gives word `i` of every record of a modelled KIND: the drift of the matching reference
quantity times the fused coefficient, of which the spec gives neither (R407, R411). Log entry 15. -/
opaque modelledDrift : Nat → Nat → List (Nat × Int) → Int

/-- A value the spec leaves open, one for each draw number. Log entry 14. -/
opaque freeValue : Nat → Nat

end Sys2Proof.Config
end

