-- ==== Sys2Proof/Machine/RegMap.lean ====
section
/-! DEFINITION. The register map of BAR0: where every register and field lies, its access type and its reset
value, as the register tables of spec/02 to spec/23 and the map of spec/25 (R506 to R510) give them.

A register is held in 64-bit quads: quad a holds the bytes a to a + 7 of BAR0, a a multiple of 8 (so a 32-bit
register at an offset of the form 8k + 4 is the upper half of its quad). A field is a run of bits of one quad. -/

namespace Sys2Proof.Machine.Reg

open Sys2Proof

/-- Window base of cluster c (R506). -/
def clB (c : Nat) : Nat := 0x10000 + 0x2000 * c
/-- Window base of sequencer n (R506). -/
def seqB (n : Nat) : Nat := 0x50000 + 0x800 * n
/-- Block base of pin p = 32 c + i (R4, R73); p = 1,024 + c names the reference channel of cluster c (R70). -/
def pinB (p : Nat) : Nat := if p < 1024 then clB (p / 32) + 0x800 + 0x80 * (p % 32) else clB (p - 1024) + 0x1800
/-- Block base of TMU n (R205). -/
def tmuB (n : Nat) : Nat := 0x70000 + 0x100 * n
/-- Block base of AWG c (R228). -/
def awgB (c : Nat) : Nat := 0x74000 + 0x100 * c
/-- Block base of digitizer c (R250). -/
def dgB (c : Nat) : Nat := 0x76000 + 0x100 * c
/-- Block base of DPS channel n (R268). -/
def dpsB (n : Nat) : Nat := 0x78000 + 0x100 * n
/-- Block base of DMA engine e (R337). -/
def dmaB (e : Nat) : Nat := 0x2800 + 0x80 * e
/-- Block base of Felt port p (R386). -/
def portB (p : Nat) : Nat := 0x6100 + 0x40 * p
/-- Block base of broadcast group g (R169). -/
def bgB (g : Nat) : Nat := 0xA100 + 0x40 * g
/-- Block base of Ream queue q of sequencer n (R186). -/
def queueB (n q : Nat) : Nat := seqB n + 0x400 + 0x40 * q


/-! ### Sites and Deckle (spec/02) -/

/-- SIZE of SITE_GROUP: [3:0], RW, reset 0x1 (R36). -/
def SITE_GROUP_SIZE (n : Nat) : Fld := ⟨seqB n + 0x100, 0, 4⟩
/-- LEADER of SITE_GROUP: [13:8], RO, reset own number (R36). -/
def SITE_GROUP_LEADER (n : Nat) : Fld := ⟨seqB n + 0x100, 8, 6⟩
/-- ENABLED of DECKLE_STATE: [7:0], RO, reset 0 (R36). -/
def DECKLE_STATE_ENABLED (n : Nat) : Fld := ⟨seqB n + 0x110, 0, 8⟩
/-- CLOSED of DECKLE_STATE: [15:8], RO, reset 0 (R36). -/
def DECKLE_STATE_CLOSED (n : Nat) : Fld := ⟨seqB n + 0x110, 8, 8⟩
/-- CONTACT_FAIL of DECKLE_STATE: [23:16], RO, reset 0 (R36). -/
def DECKLE_STATE_CONTACT_FAIL (n : Nat) : Fld := ⟨seqB n + 0x110, 16, 8⟩
/-- SITE_NUMBER of SITE_ENTRY: [8:0], RW, reset 0 (R36). -/
def SITE_ENTRY_SITE_NUMBER (n : Nat) (p : Nat) : Fld := ⟨seqB n + 0x140 + 0x8 * p, 0, 9⟩
/-- DEFINED of SITE_ENTRY: [9], RW, reset 0 (R36). -/
def SITE_ENTRY_DEFINED (n : Nat) (p : Nat) : Fld := ⟨seqB n + 0x140 + 0x8 * p, 9, 1⟩
/-- SAFE_STATE of SITE_ENTRY: [10], RW, reset 0 (R36). -/
def SITE_ENTRY_SAFE_STATE (n : Nat) (p : Nat) : Fld := ⟨seqB n + 0x140 + 0x8 * p, 10, 1⟩
/-- ALIVE_EN of SITE_ENTRY: [11], RW, reset 0 (R36). -/
def SITE_ENTRY_ALIVE_EN (n : Nat) (p : Nat) : Fld := ⟨seqB n + 0x140 + 0x8 * p, 11, 1⟩
/-- CAUSE of SITE_ENTRY: [21:16], RO, reset 0 (R36). -/
def SITE_ENTRY_CAUSE (n : Nat) (p : Nat) : Fld := ⟨seqB n + 0x140 + 0x8 * p, 16, 6⟩
/-- PRIMARY of SITE_ENTRY: [25:22], RO, reset 0xF (R36). -/
def SITE_ENTRY_PRIMARY (n : Nat) (p : Nat) : Fld := ⟨seqB n + 0x140 + 0x8 * p, 22, 4⟩
/-- VALUE of SITE_REG: [63:0], RO, reset 0 (R36). -/
def SITE_REG (n : Nat) (p : Nat) : Fld := ⟨seqB n + 0x1C0 + 0x8 * p, 0, 64⟩
/-- ASSIGNED_i of PIN_SITE: [4i+3], RW, reset 0 (R36). -/
def PIN_SITE_ASSIGNED (n i : Nat) : Fld := ⟨seqB n + 0x108, 4 * i + 3, 1⟩
/-- POSITION_i of PIN_SITE: [4i+2:4i], RW, reset 0 (R36). -/
def PIN_SITE_POSITION (n i : Nat) : Fld := ⟨seqB n + 0x108, 4 * i, 3⟩
/-- CHANNEL_i of SITE_DPSp: [8i+5:8i], RW, reset 0 (R36). -/
def SITE_DPS_CHANNEL (n p i : Nat) : Fld := ⟨seqB n + 0x180 + 8 * p, 8 * i, 6⟩
/-- VALID_i of SITE_DPSp: [8i+7], RW, reset 0 (R36). -/
def SITE_DPS_VALID (n p i : Nat) : Fld := ⟨seqB n + 0x180 + 8 * p, 8 * i + 7, 1⟩

/-! ### Pin channels (spec/03) -/

/-- DRV_EN of PIN_CTRL: [0], RW, reset 0 (R73). -/
def PIN_CTRL_DRV_EN (p : Nat) : Fld := ⟨pinB p + 0x0, 0, 1⟩
/-- CMP_EN of PIN_CTRL: [1], RW, reset 0 (R73). -/
def PIN_CTRL_CMP_EN (p : Nat) : Fld := ⟨pinB p + 0x0, 1, 1⟩
/-- LOAD_ON_COMPARE of PIN_CTRL: [2], RW, reset 0 (R73). -/
def PIN_CTRL_LOAD_ON_COMPARE (p : Nat) : Fld := ⟨pinB p + 0x0, 2, 1⟩
/-- MON_EN of PIN_CTRL: [3], RW, reset 1 (R73). -/
def PIN_CTRL_MON_EN (p : Nat) : Fld := ⟨pinB p + 0x0, 3, 1⟩
/-- MON_FILTER of PIN_CTRL: [5:4], RW, reset 0 (R73). -/
def PIN_CTRL_MON_FILTER (p : Nat) : Fld := ⟨pinB p + 0x0, 4, 2⟩
/-- LS_DEFAULT of PIN_CTRL: [6], RW, reset 0 (R73). -/
def PIN_CTRL_LS_DEFAULT (p : Nat) : Fld := ⟨pinB p + 0x0, 6, 1⟩
/-- LS0_ERR of PIN_STATUS: [0], RO, reset 0 (R73). -/
def PIN_STATUS_LS0_ERR (p : Nat) : Fld := ⟨pinB p + 0x0, 32, 1⟩
/-- LS1_ERR of PIN_STATUS: [1], RO, reset 0 (R73). -/
def PIN_STATUS_LS1_ERR (p : Nat) : Fld := ⟨pinB p + 0x0, 33, 1⟩
/-- PPMU_ERR of PIN_STATUS: [2], RO, reset 0 (R73). -/
def PIN_STATUS_PPMU_ERR (p : Nat) : Fld := ⟨pinB p + 0x0, 34, 1⟩
/-- CEILING of PIN_STATUS: [3], RO, reset 0 (R73). -/
def PIN_STATUS_CEILING (p : Nat) : Fld := ⟨pinB p + 0x0, 35, 1⟩
/-- PENDING of PIN_STATUS: [4], RO, reset 0 (R73). -/
def PIN_STATUS_PENDING (p : Nat) : Fld := ⟨pinB p + 0x0, 36, 1⟩
/-- CLAMP_TRIP of PIN_STATUS: [5], W1C, reset 0 (R73). -/
def PIN_STATUS_CLAMP_TRIP (p : Nat) : Fld := ⟨pinB p + 0x0, 37, 1⟩
/-- CLAMP_LIVE of PIN_STATUS: [6], RO, reset 0 (R73). -/
def PIN_STATUS_CLAMP_LIVE (p : Nat) : Fld := ⟨pinB p + 0x0, 38, 1⟩
/-- SC_DONE of PIN_STATUS: [7], RO, reset 0 (R73). -/
def PIN_STATUS_SC_DONE (p : Nat) : Fld := ⟨pinB p + 0x0, 39, 1⟩
/-- SC_FAIL of PIN_STATUS: [8], RO, reset 0 (R73). -/
def PIN_STATUS_SC_FAIL (p : Nat) : Fld := ⟨pinB p + 0x0, 40, 1⟩
/-- PPMU_CLAMPED of PIN_STATUS: [9], W1C, reset 0 (R73). -/
def PIN_STATUS_PPMU_CLAMPED (p : Nat) : Fld := ⟨pinB p + 0x0, 41, 1⟩
/-- MEAS_OVERRUN of PIN_STATUS: [10], W1C, reset 0 (R73). -/
def PIN_STATUS_MEAS_OVERRUN (p : Nat) : Fld := ⟨pinB p + 0x0, 42, 1⟩
/-- CLAMP_ERR of PIN_STATUS: [11], RO, reset 0 (R73). -/
def PIN_STATUS_CLAMP_ERR (p : Nat) : Fld := ⟨pinB p + 0x0, 43, 1⟩
/-- THR_ERR of PIN_STATUS: [12], RO, reset 0 (R73). -/
def PIN_STATUS_THR_ERR (p : Nat) : Fld := ⟨pinB p + 0x0, 44, 1⟩
/-- CLAMP_HI of CLAMP_HI: [31:0], RW, reset fuse (R73). -/
def CLAMP_HI (p : Nat) : Fld := ⟨pinB p + 0x8, 0, 32⟩
/-- CLAMP_LO of CLAMP_LO: [31:0], RW, reset −1,500,000 µV (R73). -/
def CLAMP_LO (p : Nat) : Fld := ⟨pinB p + 0x8, 32, 32⟩
/-- THRESHOLD of CLAMP_TRIP: [39:0], RW, reset 60,000,000,000 pA (R73). -/
def CLAMP_TRIP_THRESHOLD (p : Nat) : Fld := ⟨pinB p + 0x10, 0, 40⟩
/-- VIH of LS_VIH: [31:0], RW, reset 0 (R73). -/
def LS_VIH (p : Nat) (s : Nat) : Fld := ⟨pinB p + 0x18 + 0x28 * s, 0, 32⟩
/-- VIL of LS_VIL: [31:0], RW, reset 0 (R73). -/
def LS_VIL (p : Nat) (s : Nat) : Fld := ⟨pinB p + 0x18 + 0x28 * s, 32, 32⟩
/-- VTT of LS_VTT: [31:0], RW, reset 0 (R73). -/
def LS_VTT (p : Nat) (s : Nat) : Fld := ⟨pinB p + 0x20 + 0x28 * s, 0, 32⟩
/-- VOH of LS_VOH: [31:0], RW, reset 0 (R73). -/
def LS_VOH (p : Nat) (s : Nat) : Fld := ⟨pinB p + 0x20 + 0x28 * s, 32, 32⟩
/-- VOL of LS_VOL: [31:0], RW, reset 0 (R73). -/
def LS_VOL (p : Nat) (s : Nat) : Fld := ⟨pinB p + 0x28 + 0x28 * s, 0, 32⟩
/-- VCOM of LS_VCOM: [31:0], RW, reset 0 (R73). -/
def LS_VCOM (p : Nat) (s : Nat) : Fld := ⟨pinB p + 0x28 + 0x28 * s, 32, 32⟩
/-- ISRC of LS_ISRC: [39:0], RW, reset 0 (R73). -/
def LS_ISRC (p : Nat) (s : Nat) : Fld := ⟨pinB p + 0x30 + 0x28 * s, 0, 40⟩
/-- ISNK of LS_ISNK: [39:0], RW, reset 0 (R73). -/
def LS_ISNK (p : Nat) (s : Nat) : Fld := ⟨pinB p + 0x38 + 0x28 * s, 0, 40⟩
/-- MODE of PPMU_CTRL: [2:0], RW, reset 0 (R73). -/
def PPMU_CTRL_MODE (p : Nat) : Fld := ⟨pinB p + 0x68, 0, 3⟩
/-- RANGE of PPMU_CTRL: [5:3], RW, reset 0 (R73). -/
def PPMU_CTRL_RANGE (p : Nat) : Fld := ⟨pinB p + 0x68, 3, 3⟩
/-- CONNECT of PPMU_CTRL: [6], RW, reset 0 (R73). -/
def PPMU_CTRL_CONNECT (p : Nat) : Fld := ⟨pinB p + 0x68, 6, 1⟩
/-- AVG_LOG2 of PPMU_CTRL: [11:8], RW, reset 0 (R73). -/
def PPMU_CTRL_AVG_LOG2 (p : Nat) : Fld := ⟨pinB p + 0x68, 8, 4⟩
/-- FORCE_V of FORCE_V: [31:0], RW, reset 0 (R73). -/
def FORCE_V (p : Nat) : Fld := ⟨pinB p + 0x68, 32, 32⟩
/-- FORCE_I of FORCE_I: [39:0], RW, reset 0 (R73). -/
def FORCE_I (p : Nat) : Fld := ⟨pinB p + 0x70, 0, 40⟩
/-- VCLAMP_HI of VCLAMP_HI: [31:0], RW, reset fuse (R73). -/
def VCLAMP_HI (p : Nat) : Fld := ⟨pinB p + 0x78, 0, 32⟩
/-- VCLAMP_LO of VCLAMP_LO: [31:0], RW, reset −1,500,000 µV (R73). -/
def VCLAMP_LO (p : Nat) : Fld := ⟨pinB p + 0x78, 32, 32⟩

/-! ### Edge timing (spec/04) -/

/-- FREQ of CLK_PLAN: [31:0], RW, reset 0x3000_0000 (R93). -/
def CLK_PLAN_FREQ (c : Nat) : Fld := ⟨clB c + 0x0, 0, 32⟩
/-- LOCKED of CLK_STATUS: [0], RO, reset 0 (R93). -/
def CLK_STATUS_LOCKED (c : Nat) : Fld := ⟨clB c + 0x8, 0, 1⟩
/-- RELOCKING of CLK_STATUS: [1], RO, reset 0 (R93). -/
def CLK_STATUS_RELOCKING (c : Nat) : Fld := ⟨clB c + 0x8, 1, 1⟩
/-- LOCK_LOST of CLK_STATUS: [2], W1C, reset 0 (R93). -/
def CLK_STATUS_LOCK_LOST (c : Nat) : Fld := ⟨clB c + 0x8, 2, 1⟩
/-- PLAN_PENDING of CLK_STATUS: [3], RO, reset 0 (R93). -/
def CLK_STATUS_PLAN_PENDING (c : Nat) : Fld := ⟨clB c + 0x8, 3, 1⟩
/-- PLAN_ERR of CLK_STATUS: [4], RO, reset 0 (R93). -/
def CLK_STATUS_PLAN_ERR (c : Nat) : Fld := ⟨clB c + 0x8, 4, 1⟩
/-- PERIOD_PENDING of CLK_STATUS: [5], RO, reset 0 (R93). -/
def CLK_STATUS_PERIOD_PENDING (c : Nat) : Fld := ⟨clB c + 0x8, 5, 1⟩
/-- TS_ERR of TS_ERR: [63:0], RO, reset 0 (R93). -/
def TS_ERR (c : Nat) : Fld := ⟨clB c + 0x10, 0, 64⟩
/-- DSK_ERR of DSK_ERR: [31:0], RO, reset 0 (R93). -/
def DSK_ERR (c : Nat) : Fld := ⟨clB c + 0x18, 0, 32⟩
/-- SET of TS_SEL: [5:0], RW, reset 0 (R93). -/
def TS_SEL_SET (c : Nat) : Fld := ⟨clB c + 0x100, 0, 6⟩
/-- PIN of TS_SEL: [12:8], RW, reset 0 (R93). -/
def TS_SEL_PIN (c : Nat) : Fld := ⟨clB c + 0x100, 8, 5⟩
/-- VALUE of TS_PERIOD: [39:0], RW, reset 100,000 (R93). -/
def TS_PERIOD (c : Nat) : Fld := ⟨clB c + 0x108, 0, 40⟩
/-- MODE of TS_PERIOD: [40], RW, reset 0 (R93). -/
def TS_PERIOD_MODE (c : Nat) : Fld := ⟨clB c + 0x108, 40, 1⟩
/-- FORMAT of TS_FORMAT: [1:0], RW, reset 0 (R93). -/
def TS_FORMAT (c : Nat) : Fld := ⟨clB c + 0x110, 0, 2⟩
/-- OFFSET of TS_E: [39:0], RW, reset 200 for E2, 0 otherwise (R93). -/
def TS_E_OFFSET (c : Nat) (k : Nat) : Fld := ⟨clB c + 0x118 + 0x8 * k, 0, 40⟩
/-- USER_DRV of DESKEW: [15:0], RW, reset 0 (R93). -/
def DESKEW_USER_DRV (c : Nat) (i : Nat) : Fld := ⟨clB c + 0x200 + 0x8 * i, 0, 16⟩
/-- USER_CMP of DESKEW: [31:16], RW, reset 0 (R93). -/
def DESKEW_USER_CMP (c : Nat) (i : Nat) : Fld := ⟨clB c + 0x200 + 0x8 * i, 16, 16⟩
/-- CAL_DRV of DESKEW: [47:32], RO, reset store (R93). -/
def DESKEW_CAL_DRV (c : Nat) (i : Nat) : Fld := ⟨clB c + 0x200 + 0x8 * i, 32, 16⟩
/-- CAL_CMP of DESKEW: [63:48], RO, reset store (R93). -/
def DESKEW_CAL_CMP (c : Nat) (i : Nat) : Fld := ⟨clB c + 0x200 + 0x8 * i, 48, 16⟩

/-! ### Control store (spec/05) -/

/-- PREFETCH_EN of CS_CTRL: [0], RW, reset 1 (R127). -/
def CS_CTRL_PREFETCH_EN (n : Nat) : Fld := ⟨seqB n + 0x0, 0, 1⟩
/-- CLR_COUNTS of CS_CTRL: [1], WO, reset 0 (R127). -/
def CS_CTRL_CLR_COUNTS (n : Nat) : Fld := ⟨seqB n + 0x0, 1, 1⟩
/-- FRAMES_VALID of CS_STATUS: [6:0], RO, reset 0 (R127). -/
def CS_STATUS_FRAMES_VALID (n : Nat) : Fld := ⟨seqB n + 0x8, 0, 7⟩
/-- FRAMES_PINNED of CS_STATUS: [13:7], RO, reset 0 (R127). -/
def CS_STATUS_FRAMES_PINNED (n : Nat) : Fld := ⟨seqB n + 0x8, 7, 7⟩
/-- FRAMES_RETIRED of CS_STATUS: [20:14], RO, reset 0 (R127). -/
def CS_STATUS_FRAMES_RETIRED (n : Nat) : Fld := ⟨seqB n + 0x8, 14, 7⟩
/-- MCHK of CS_STATUS: [21], W1C, reset 0 (R127). -/
def CS_STATUS_MCHK (n : Nat) : Fld := ⟨seqB n + 0x8, 21, 1⟩
/-- ADDRESS of CS_ERR: [23:0], RO, reset 0 (R127). -/
def CS_ERR_ADDRESS (n : Nat) : Fld := ⟨seqB n + 0x10, 0, 24⟩
/-- FRAME of CS_ERR: [29:24], RO, reset 0 (R127). -/
def CS_ERR_FRAME (n : Nat) : Fld := ⟨seqB n + 0x10, 24, 6⟩
/-- FAILED of CS_ERR: [33:30], RO, reset 0 (R127). -/
def CS_ERR_FAILED (n : Nat) : Fld := ⟨seqB n + 0x10, 30, 4⟩
/-- VALID of CS_ERR: [34], W1C, reset 0 (R127). -/
def CS_ERR_VALID (n : Nat) : Fld := ⟨seqB n + 0x10, 34, 1⟩
/-- DEMAND_FILLS of DEMAND_FILLS: [63:0], RO, reset 0 (R127). -/
def DEMAND_FILLS (n : Nat) : Fld := ⟨seqB n + 0x18, 0, 64⟩
/-- SPEC_FILLS of SPEC_FILLS: [63:0], RO, reset 0 (R127). -/
def SPEC_FILLS (n : Nat) : Fld := ⟨seqB n + 0x20, 0, 64⟩
/-- SPEC_UNUSED of SPEC_UNUSED: [63:0], RO, reset 0 (R127). -/
def SPEC_UNUSED (n : Nat) : Fld := ⟨seqB n + 0x28, 0, 64⟩
/-- MEAS_LIM_LOk of MEAS_LIM_LO: [63:0], RW, reset 0 (R127). -/
def MEAS_LIM_LO (n : Nat) (k : Nat) : Fld := ⟨seqB n + 0x40 + 0x10 * k, 0, 64⟩
/-- MEAS_LIM_HIk of MEAS_LIM_HI: [63:0], RW, reset 0 (R127). -/
def MEAS_LIM_HI (n : Nat) (k : Nat) : Fld := ⟨seqB n + 0x48 + 0x10 * k, 0, 64⟩

/-! ### Sequencer execution (spec/06) -/

/-- STATE of EXEC_STATUS: [3:0], RO, reset 0 (R147). -/
def EXEC_STATUS_STATE (n : Nat) : Fld := ⟨seqB n + 0x80, 0, 4⟩
/-- SLOTS of EXEC_STATUS: [7:4], RO, reset 0 (R147). -/
def EXEC_STATUS_SLOTS (n : Nat) : Fld := ⟨seqB n + 0x80, 4, 4⟩
/-- RUNNING_SLOT of EXEC_STATUS: [10:8], RO, reset 0 (R147). -/
def EXEC_STATUS_RUNNING_SLOT (n : Nat) : Fld := ⟨seqB n + 0x80, 8, 3⟩
/-- PRIVATE of EXEC_STATUS: [11], RO, reset 0 (R147). -/
def EXEC_STATUS_PRIVATE (n : Nat) : Fld := ⟨seqB n + 0x80, 11, 1⟩
/-- EXEC_PC of EXEC_PC: [23:0], RO, reset 0 (R147). -/
def EXEC_PC (n : Nat) : Fld := ⟨seqB n + 0x80, 32, 24⟩
/-- STALLS_ABSORBED of STALLS_ABSORBED: [63:0], RO, reset 0 (R147). -/
def STALLS_ABSORBED (n : Nat) : Fld := ⟨seqB n + 0x88, 0, 64⟩
/-- SAFE_WAITS of SAFE_WAITS: [63:0], RO, reset 0 (R147). -/
def SAFE_WAITS (n : Nat) : Fld := ⟨seqB n + 0x90, 0, 64⟩
/-- UNSAFE_STALLS of UNSAFE_STALLS: [63:0], RO, reset 0 (R147). -/
def UNSAFE_STALLS (n : Nat) : Fld := ⟨seqB n + 0x98, 0, 64⟩
/-- REPLAYS of REPLAYS: [63:0], RO, reset 0 (R147). -/
def REPLAYS (n : Nat) : Fld := ⟨seqB n + 0xA0, 0, 64⟩
/-- TRAPS of TRAPS: [63:0], RO, reset 0 (R147). -/
def TRAPS (n : Nat) : Fld := ⟨seqB n + 0xA8, 0, 64⟩
/-- SPLITS of SPLITS: [63:0], RO, reset 0 (R147). -/
def SPLITS (n : Nat) : Fld := ⟨seqB n + 0xB0, 0, 64⟩
/-- SLOT_SWITCHES of SLOT_SWITCHES: [63:0], RO, reset 0 (R147). -/
def SLOT_SWITCHES (n : Nat) : Fld := ⟨seqB n + 0xB8, 0, 64⟩
/-- CLR_COUNTS of EXEC_CTRL: [0], WO, reset 0 (R147). -/
def EXEC_CTRL_CLR_COUNTS (n : Nat) : Fld := ⟨seqB n + 0xC0, 0, 1⟩
/-- MISS of STALL_CAUSE: [0], W1C, reset 0 (R147). -/
def STALL_CAUSE_MISS (n : Nat) : Fld := ⟨seqB n + 0xC8, 0, 1⟩
/-- SHORTFALL of STALL_CAUSE: [1], W1C, reset 0 (R147). -/
def STALL_CAUSE_SHORTFALL (n : Nat) : Fld := ⟨seqB n + 0xC8, 1, 1⟩
/-- REAM of STALL_CAUSE: [2], W1C, reset 0 (R147). -/
def STALL_CAUSE_REAM (n : Nat) : Fld := ⟨seqB n + 0xC8, 2, 1⟩
/-- PREEMPT of STALL_CAUSE: [3], W1C, reset 0 (R147). -/
def STALL_CAUSE_PREEMPT (n : Nat) : Fld := ⟨seqB n + 0xC8, 3, 1⟩
/-- PAGE_WAIT of STALL_CAUSE: [4], W1C, reset 0 (R147). -/
def STALL_CAUSE_PAGE_WAIT (n : Nat) : Fld := ⟨seqB n + 0xC8, 4, 1⟩

/-! ### Headbox and streams (spec/07) -/

/-- SPEC_EN of HB_CTRL: [0], RW, reset 1 (R169). -/
def HB_CTRL_SPEC_EN : Fld := ⟨0xA000 + 0x0, 0, 1⟩
/-- CLR_COUNTS of HB_CTRL: [1], WO, reset 0 (R169). -/
def HB_CTRL_CLR_COUNTS : Fld := ⟨0xA000 + 0x0, 1, 1⟩
/-- BG_ACTIVE of HB_STATUS: [15:0], RO, reset 0 (R169). -/
def HB_STATUS_BG_ACTIVE : Fld := ⟨0xA000 + 0x8, 0, 16⟩
/-- HB_BYTES_READ of HB_BYTES_READ: [63:0], RO, reset 0 (R169). -/
def HB_BYTES_READ : Fld := ⟨0xA000 + 0x10, 0, 64⟩
/-- HB_BYTES_DECODED of HB_BYTES_DECODED: [63:0], RO, reset 0 (R169). -/
def HB_BYTES_DECODED : Fld := ⟨0xA000 + 0x18, 0, 64⟩
/-- HB_CAP_WAITS of HB_CAP_WAITS: [63:0], RO, reset 0 (R169). -/
def HB_CAP_WAITS : Fld := ⟨0xA000 + 0x20, 0, 64⟩
/-- RING_FILL of BG_RING: [6:0], RO, reset 0 (R169). -/
def BG_RING_RING_FILL (g : Nat) : Fld := ⟨bgB g + 0x0, 0, 7⟩
/-- PILOT of BG_RING: [12:7], RO, reset 0 (R169). -/
def BG_RING_PILOT (g : Nat) : Fld := ⟨bgB g + 0x0, 7, 6⟩
/-- BG_MEMBERS of BG_MEMBERS: [63:0], RO, reset 0 (R169). -/
def BG_MEMBERS (g : Nat) : Fld := ⟨bgB g + 0x8, 0, 64⟩
/-- BG_BLOCKS_READ of BG_BLOCKS_READ: [63:0], RO, reset 0 (R169). -/
def BG_BLOCKS_READ (g : Nat) : Fld := ⟨bgB g + 0x10, 0, 64⟩
/-- BG_DELIVERIES of BG_DELIVERIES: [63:0], RO, reset 0 (R169). -/
def BG_DELIVERIES (g : Nat) : Fld := ⟨bgB g + 0x18, 0, 64⟩
/-- BG_JOINS of BG_JOINS: [63:0], RO, reset 0 (R169). -/
def BG_JOINS (g : Nat) : Fld := ⟨bgB g + 0x20, 0, 64⟩
/-- BG_JOIN_MISSES of BG_JOIN_MISSES: [63:0], RO, reset 0 (R169). -/
def BG_JOIN_MISSES (g : Nat) : Fld := ⟨bgB g + 0x28, 0, 64⟩
/-- BG_DEPARTURES of BG_DEPARTURES: [63:0], RO, reset 0 (R169). -/
def BG_DEPARTURES (g : Nat) : Fld := ⟨bgB g + 0x30, 0, 64⟩
/-- BG_LAG_DEPARTURES of BG_LAG_DEPARTURES: [63:0], RO, reset 0 (R169). -/
def BG_LAG_DEPARTURES (g : Nat) : Fld := ⟨bgB g + 0x38, 0, 64⟩
/-- MODE of STREAM: [1:0], RO, reset 0 (R169). -/
def STREAM_MODE (n : Nat) : Fld := ⟨seqB n + 0x200, 0, 2⟩
/-- BG of STREAM: [5:2], RO, reset 0 (R169). -/
def STREAM_BG (n : Nat) : Fld := ⟨seqB n + 0x200, 2, 4⟩
/-- BUF_FILL of STREAM: [9:6], RO, reset 0 (R169). -/
def STREAM_BUF_FILL (n : Nat) : Fld := ⟨seqB n + 0x200, 6, 4⟩
/-- MALFORMED of STREAM: [10], W1C, reset 0 (R169). -/
def STREAM_MALFORMED (n : Nat) : Fld := ⟨seqB n + 0x200, 10, 1⟩
/-- PRIV_BLOCKS of PRIV_BLOCKS: [63:0], RO, reset 0 (R169). -/
def PRIV_BLOCKS (n : Nat) : Fld := ⟨seqB n + 0x208, 0, 64⟩
/-- SHORTFALLS of SHORTFALLS: [63:0], RO, reset 0 (R169). -/
def SHORTFALLS (n : Nat) : Fld := ⟨seqB n + 0x210, 0, 64⟩
/-- SPEC_BLOCKS of SPEC_BLOCKS: [63:0], RO, reset 0 (R169). -/
def SPEC_BLOCKS (n : Nat) : Fld := ⟨seqB n + 0x218, 0, 64⟩
/-- SPEC_DISCARDED of SPEC_DISCARDED: [63:0], RO, reset 0 (R169). -/
def SPEC_DISCARDED (n : Nat) : Fld := ⟨seqB n + 0x220, 0, 64⟩
/-- STREAM_SEQ of STREAM_SEQ: [63:0], RO, reset 0 (R169). -/
def STREAM_SEQ (n : Nat) : Fld := ⟨seqB n + 0x228, 0, 64⟩

/-! ### Ream (spec/08) -/

/-- EB_FILL of EB_STATUS: [14:0], RO, reset 0 (R186). -/
def EB_STATUS_EB_FILL (n : Nat) : Fld := ⟨seqB n + 0x240, 0, 15⟩
/-- BACKPRESSURE of EB_STATUS: [15], RO, reset 0 (R186). -/
def EB_STATUS_BACKPRESSURE (n : Nat) : Fld := ⟨seqB n + 0x240, 15, 1⟩
/-- OVERFLOW of EB_STATUS: [16], W1C, reset 0 (R186). -/
def EB_STATUS_OVERFLOW (n : Nat) : Fld := ⟨seqB n + 0x240, 16, 1⟩
/-- LOST_RECORDS of LOST_RECORDS: [63:0], RO, reset 0 (R186). -/
def LOST_RECORDS (n : Nat) : Fld := ⟨seqB n + 0x248, 0, 64⟩
/-- DISCARDED of SEQ_DISCARDED: [63:0], RO, reset 0 (R186). -/
def SEQ_DISCARDED (n : Nat) : Fld := ⟨seqB n + 0x250, 0, 64⟩
/-- BASE of QBASE: [47:0], RW, reset 0 (R186). -/
def QBASE_BASE (n q : Nat) : Fld := ⟨queueB n q + 0x0, 0, 48⟩
/-- SIZE_LOG2 of QCFG: [4:0], RW, reset 12 (R186). -/
def QCFG_SIZE_LOG2 (n q : Nat) : Fld := ⟨queueB n q + 0x8, 0, 5⟩
/-- ENABLE of QCFG: [8], RW, reset 0 (R186). -/
def QCFG_ENABLE (n q : Nat) : Fld := ⟨queueB n q + 0x8, 8, 1⟩
/-- WM_LEVEL of QWM: [30:0], RW, reset 0 (R186). -/
def QWM_WM_LEVEL (n q : Nat) : Fld := ⟨queueB n q + 0x8, 32, 31⟩
/-- COMMIT of Q_COMMIT: [63:0], RO, reset 0 (R186). -/
def Q_COMMIT (n q : Nat) : Fld := ⟨queueB n q + 0x10, 0, 64⟩
/-- READ of Q_READ: [63:0], RO, reset 0 (R186). -/
def Q_READ (n q : Nat) : Fld := ⟨queueB n q + 0x18, 0, 64⟩
/-- MARK of Q_MARK: [63:0], RO, reset 0 (R186). -/
def Q_MARK (n q : Nat) : Fld := ⟨queueB n q + 0x20, 0, 64⟩
/-- MARK_VALID of QSTATUS: [0], RO, reset 0 (R186). -/
def QSTATUS_MARK_VALID (n q : Nat) : Fld := ⟨queueB n q + 0x28, 0, 1⟩
/-- MARK_LOST of QSTATUS: [1], W1C, reset 0 (R186). -/
def QSTATUS_MARK_LOST (n q : Nat) : Fld := ⟨queueB n q + 0x28, 1, 1⟩
/-- LEVEL of QSTATUS: [2], RO, reset 0 (R186). -/
def QSTATUS_LEVEL (n q : Nat) : Fld := ⟨queueB n q + 0x28, 2, 1⟩
/-- CROSSED of QSTATUS: [3], W1C, reset 0 (R186). -/
def QSTATUS_CROSSED (n q : Nat) : Fld := ⟨queueB n q + 0x28, 3, 1⟩
/-- COUNT of QSTATUS: [11:4], RO, reset 0 (R186). -/
def QSTATUS_COUNT (n q : Nat) : Fld := ⟨queueB n q + 0x28, 4, 8⟩
/-- FAULT of QSTATUS: [12], RO, reset 0 (R186). -/
def QSTATUS_FAULT (n q : Nat) : Fld := ⟨queueB n q + 0x28, 12, 1⟩
/-- CFG_ERR of QSTATUS: [13], RO, reset 0 (R186). -/
def QSTATUS_CFG_ERR (n q : Nat) : Fld := ⟨queueB n q + 0x28, 13, 1⟩
/-- RECORDS of Q_RECORDS: [63:0], RO, reset 0 (R186). -/
def Q_RECORDS (n q : Nat) : Fld := ⟨queueB n q + 0x30, 0, 64⟩

/-! ### TMU (spec/09) -/

/-- MODE of TMU_CTRL: [2:0], RW, reset 0 (R205). -/
def TMU_CTRL_MODE (n : Nat) : Fld := ⟨tmuB n + 0x0, 0, 3⟩
/-- ARM_SRC of TMU_CTRL: [3], RW, reset 0 (R205). -/
def TMU_CTRL_ARM_SRC (n : Nat) : Fld := ⟨tmuB n + 0x0, 3, 1⟩
/-- GATE of TMU_CTRL: [5:4], RW, reset 0 (R205). -/
def TMU_CTRL_GATE (n : Nat) : Fld := ⟨tmuB n + 0x0, 4, 2⟩
/-- EV_SEL of TMU_CTRL: [8:6], RW, reset 0 (R205). -/
def TMU_CTRL_EV_SEL (n : Nat) : Fld := ⟨tmuB n + 0x0, 6, 3⟩
/-- COUNT_N of TMU_CTRL: [24:9], RW, reset 1 (R205). -/
def TMU_CTRL_COUNT_N (n : Nat) : Fld := ⟨tmuB n + 0x0, 9, 16⟩
/-- TEST_OFFSET of TMU_CTRL: [31:25], RW, reset 0 (R205). -/
def TMU_CTRL_TEST_OFFSET (n : Nat) : Fld := ⟨tmuB n + 0x0, 25, 7⟩
/-- STATE of TMU_STATUS: [2:0], RO, reset 0 (R205). -/
def TMU_STATUS_STATE (n : Nat) : Fld := ⟨tmuB n + 0x0, 32, 3⟩
/-- START_UNSETTLED of TMU_STATUS: [3], RO, reset 1 (R205). -/
def TMU_STATUS_START_UNSETTLED (n : Nat) : Fld := ⟨tmuB n + 0x0, 35, 1⟩
/-- STOP_UNSETTLED of TMU_STATUS: [4], RO, reset 1 (R205). -/
def TMU_STATUS_STOP_UNSETTLED (n : Nat) : Fld := ⟨tmuB n + 0x0, 36, 1⟩
/-- CFG_ERR of TMU_STATUS: [5], RO, reset 0 (R205). -/
def TMU_STATUS_CFG_ERR (n : Nat) : Fld := ⟨tmuB n + 0x0, 37, 1⟩
/-- CAL_ERR of TMU_STATUS: [6], W1C, reset 0 (R205). -/
def TMU_STATUS_CAL_ERR (n : Nat) : Fld := ⟨tmuB n + 0x0, 38, 1⟩
/-- ARM_OVERRUN of TMU_STATUS: [7], W1C, reset 0 (R205). -/
def TMU_STATUS_ARM_OVERRUN (n : Nat) : Fld := ⟨tmuB n + 0x0, 39, 1⟩
/-- PENDING of TMU_STATUS: [8], RO, reset 0 (R205). -/
def TMU_STATUS_PENDING (n : Nat) : Fld := ⟨tmuB n + 0x0, 40, 1⟩
/-- SRC of TMU_IN: [5:0], RW, reset 0 (R205). -/
def TMU_IN_SRC (n : Nat) (i : Nat) : Fld := ⟨tmuB n + 0x8 + 0x8 * i, 0, 6⟩
/-- SLOPE of TMU_IN: [7:6], RW, reset 0 (R205). -/
def TMU_IN_SLOPE (n : Nat) (i : Nat) : Fld := ⟨tmuB n + 0x8 + 0x8 * i, 6, 2⟩
/-- H of TMU_IN: [15:8], RW, reset 10 (R205). -/
def TMU_IN_H (n : Nat) (i : Nat) : Fld := ⟨tmuB n + 0x8 + 0x8 * i, 8, 8⟩
/-- HOLDOFF of TMU_IN: [25:16], RW, reset 0 (R205). -/
def TMU_IN_HOLDOFF (n : Nat) (i : Nat) : Fld := ⟨tmuB n + 0x8 + 0x8 * i, 16, 10⟩
/-- VTH of TMU_IN: [63:32], RW, reset 0 (R205). -/
def TMU_IN_VTH (n : Nat) (i : Nat) : Fld := ⟨tmuB n + 0x8 + 0x8 * i, 32, 32⟩
/-- START_SKEW of TMU_SKEW: [15:0], RW, reset 0 (R205). -/
def TMU_SKEW_START_SKEW (n : Nat) : Fld := ⟨tmuB n + 0x18, 0, 16⟩
/-- STOP_SKEW of TMU_SKEW: [31:16], RW, reset 0 (R205). -/
def TMU_SKEW_STOP_SKEW (n : Nat) : Fld := ⟨tmuB n + 0x18, 16, 16⟩
/-- GATE_LEN of TMU_GATE_LEN: [63:0], RW, reset 0 (R205). -/
def TMU_GATE_LEN (n : Nat) : Fld := ⟨tmuB n + 0x20, 0, 64⟩
/-- TIMEOUT of TMU_TIMEOUT: [63:0], RW, reset 0 (R205). -/
def TMU_TIMEOUT (n : Nat) : Fld := ⟨tmuB n + 0x28, 0, 64⟩
/-- K1 of TMU_CAL: [15:0], RO, reset 0 (R205). -/
def TMU_CAL_K1 (n : Nat) : Fld := ⟨tmuB n + 0x30, 0, 16⟩
/-- K2 of TMU_CAL: [31:16], RO, reset 0 (R205). -/
def TMU_CAL_K2 (n : Nat) : Fld := ⟨tmuB n + 0x30, 16, 16⟩
/-- LAST_VALUE of TMU_LAST_VALUE: [63:0], RO, reset 0 (R205). -/
def TMU_LAST_VALUE (n : Nat) : Fld := ⟨tmuB n + 0x38, 0, 64⟩
/-- MEASUREMENTS of TMU_MEASUREMENTS: [63:0], RO, reset 0 (R205). -/
def TMU_MEASUREMENTS (n : Nat) : Fld := ⟨tmuB n + 0x40, 0, 64⟩

/-! ### AWG (spec/10) -/

/-- SPAN of AWG_CTRL: [2:0], RW, reset 2 (R228). -/
def AWG_CTRL_SPAN (c : Nat) : Fld := ⟨awgB c + 0x0, 0, 3⟩
/-- PHASE_MODE of AWG_CTRL: [3], RW, reset 0 (R228). -/
def AWG_CTRL_PHASE_MODE (c : Nat) : Fld := ⟨awgB c + 0x0, 3, 1⟩
/-- BUS_EN of AWG_CTRL: [4], RW, reset 0 (R228). -/
def AWG_CTRL_BUS_EN (c : Nat) : Fld := ⟨awgB c + 0x0, 4, 1⟩
/-- BUS_PIN of AWG_CTRL: [9:5], RW, reset 0 (R228). -/
def AWG_CTRL_BUS_PIN (c : Nat) : Fld := ⟨awgB c + 0x0, 5, 5⟩
/-- MTH_EN of AWG_CTRL: [10], RW, reset 1 (R228). -/
def AWG_CTRL_MTH_EN (c : Nat) : Fld := ⟨awgB c + 0x0, 10, 1⟩
/-- MTH_TIME of AWG_CTRL: [12:11], RW, reset 1 (R228). -/
def AWG_CTRL_MTH_TIME (c : Nat) : Fld := ⟨awgB c + 0x0, 11, 2⟩
/-- OWNER of AWG_CTRL: [13], RW, reset 0 (R228). -/
def AWG_CTRL_OWNER (c : Nat) : Fld := ⟨awgB c + 0x0, 13, 1⟩
/-- GAP_QUEUE of AWG_CTRL: [16:14], RW, reset 7 (R228). -/
def AWG_CTRL_GAP_QUEUE (c : Nat) : Fld := ⟨awgB c + 0x0, 14, 3⟩
/-- MARK_ROUTE of AWG_CTRL: [19:17], RW, reset 0 (R228). -/
def AWG_CTRL_MARK_ROUTE (c : Nat) : Fld := ⟨awgB c + 0x0, 17, 3⟩
/-- MARK_EV of AWG_CTRL: [22:20], RW, reset 0 (R228). -/
def AWG_CTRL_MARK_EV (c : Nat) : Fld := ⟨awgB c + 0x0, 20, 3⟩
/-- STATE of AWG_STATUS: [1:0], RO, reset 0 (R228). -/
def AWG_STATUS_STATE (c : Nat) : Fld := ⟨awgB c + 0x0, 32, 2⟩
/-- CFG_ERR of AWG_STATUS: [2], RO, reset 0 (R228). -/
def AWG_STATUS_CFG_ERR (c : Nat) : Fld := ⟨awgB c + 0x0, 34, 1⟩
/-- UNDERRUN of AWG_STATUS: [3], W1C, reset 0 (R228). -/
def AWG_STATUS_UNDERRUN (c : Nat) : Fld := ⟨awgB c + 0x0, 35, 1⟩
/-- POISON of AWG_STATUS: [4], W1C, reset 0 (R228). -/
def AWG_STATUS_POISON (c : Nat) : Fld := ⟨awgB c + 0x0, 36, 1⟩
/-- FAULT of AWG_STATUS: [5], RO, reset 0 (R228). -/
def AWG_STATUS_FAULT (c : Nat) : Fld := ⟨awgB c + 0x0, 37, 1⟩
/-- ENTRY_ERR of AWG_STATUS: [6], W1C, reset 0 (R228). -/
def AWG_STATUS_ENTRY_ERR (c : Nat) : Fld := ⟨awgB c + 0x0, 38, 1⟩
/-- JUMP_ERR of AWG_STATUS: [7], W1C, reset 0 (R228). -/
def AWG_STATUS_JUMP_ERR (c : Nat) : Fld := ⟨awgB c + 0x0, 39, 1⟩
/-- START_OVERRUN of AWG_STATUS: [8], W1C, reset 0 (R228). -/
def AWG_STATUS_START_OVERRUN (c : Nat) : Fld := ⟨awgB c + 0x0, 40, 1⟩
/-- IGNORED of AWG_STATUS: [9], W1C, reset 0 (R228). -/
def AWG_STATUS_IGNORED (c : Nat) : Fld := ⟨awgB c + 0x0, 41, 1⟩
/-- CLIP of AWG_STATUS: [10], W1C, reset 0 (R228). -/
def AWG_STATUS_CLIP (c : Nat) : Fld := ⟨awgB c + 0x0, 42, 1⟩
/-- PENDING of AWG_STATUS: [11], RO, reset 0 (R228). -/
def AWG_STATUS_PENDING (c : Nat) : Fld := ⟨awgB c + 0x0, 43, 1⟩
/-- SEQ_BASE of AWG_SEQ_BASE: [47:0], RW, reset 0 (R228). -/
def AWG_SEQ_BASE (c : Nat) : Fld := ⟨awgB c + 0x8, 0, 48⟩
/-- SEQ_COUNT of AWG_SEQ_CFG: [16:0], RW, reset 1 (R228). -/
def AWG_SEQ_CFG_SEQ_COUNT (c : Nat) : Fld := ⟨awgB c + 0x10, 0, 17⟩
/-- START_ENTRY of AWG_SEQ_CFG: [47:32], RW, reset 0 (R228). -/
def AWG_SEQ_CFG_START_ENTRY (c : Nat) : Fld := ⟨awgB c + 0x10, 32, 16⟩
/-- SAFE_CODE of AWG_SAFE_SLEW: [15:0], RW, reset 0 (R228). -/
def AWG_SAFE_SLEW_SAFE_CODE (c : Nat) : Fld := ⟨awgB c + 0x18, 0, 16⟩
/-- SLEW_MAX of AWG_SAFE_SLEW: [31:16], RW, reset 0 (R228). -/
def AWG_SAFE_SLEW_SLEW_MAX (c : Nat) : Fld := ⟨awgB c + 0x18, 16, 16⟩
/-- USER_SKEW of AWG_SKEW: [15:0], RW, reset 0 (R228). -/
def AWG_SKEW_USER_SKEW (c : Nat) : Fld := ⟨awgB c + 0x18, 32, 16⟩
/-- CAL_BALL of AWG_CAL: [15:0], RO, reset store (R228). -/
def AWG_CAL_CAL_BALL (c : Nat) : Fld := ⟨awgB c + 0x20, 0, 16⟩
/-- CAL_BUS of AWG_CAL: [31:16], RO, reset store (R228). -/
def AWG_CAL_CAL_BUS (c : Nat) : Fld := ⟨awgB c + 0x20, 16, 16⟩
/-- TIMELINE of AWG_TIMELINE: [63:0], RO, reset 0 (R228). -/
def AWG_TIMELINE (c : Nat) : Fld := ⟨awgB c + 0x28, 0, 64⟩
/-- ENTRY of AWG_POSITION: [15:0], RO, reset 0 (R228). -/
def AWG_POSITION_ENTRY (c : Nat) : Fld := ⟨awgB c + 0x30, 0, 16⟩
/-- PLAY of AWG_POSITION: [31:16], RO, reset 0 (R228). -/
def AWG_POSITION_PLAY (c : Nat) : Fld := ⟨awgB c + 0x30, 16, 16⟩
/-- GAP_SAMPLES of AWG_GAP_SAMPLES: [63:0], RO, reset 0 (R228). -/
def AWG_GAP_SAMPLES (c : Nat) : Fld := ⟨awgB c + 0x38, 0, 64⟩
/-- SLEWED_SAMPLES of AWG_SLEWED_SAMPLES: [63:0], RO, reset 0 (R228). -/
def AWG_SLEWED_SAMPLES (c : Nat) : Fld := ⟨awgB c + 0x40, 0, 64⟩
/-- MARKS of AWG_MARKS: [63:0], RO, reset 0 (R228). -/
def AWG_MARKS (c : Nat) : Fld := ⟨awgB c + 0x48, 0, 64⟩

/-! ### Digitizer (spec/11) -/

/-- SRC of DG_CTRL: [2:0], RW, reset 0 (R250). -/
def DG_CTRL_SRC (c : Nat) : Fld := ⟨dgB c + 0x0, 0, 3⟩
/-- RANGE of DG_CTRL: [5:3], RW, reset 1 (R250). -/
def DG_CTRL_RANGE (c : Nat) : Fld := ⟨dgB c + 0x0, 3, 3⟩
/-- BUS_PIN of DG_CTRL: [10:6], RW, reset 0 (R250). -/
def DG_CTRL_BUS_PIN (c : Nat) : Fld := ⟨dgB c + 0x0, 6, 5⟩
/-- OWNER of DG_CTRL: [11], RW, reset 0 (R250). -/
def DG_CTRL_OWNER (c : Nat) : Fld := ⟨dgB c + 0x0, 11, 1⟩
/-- TAG_EN of DG_CTRL: [12], RW, reset 0 (R250). -/
def DG_CTRL_TAG_EN (c : Nat) : Fld := ⟨dgB c + 0x0, 12, 1⟩
/-- TAG_POS of DG_CTRL: [15:13], RW, reset 0 (R250). -/
def DG_CTRL_TAG_POS (c : Nat) : Fld := ⟨dgB c + 0x0, 13, 3⟩
/-- TERM of DG_CTRL: [16], RW, reset 0 (R250). -/
def DG_CTRL_TERM (c : Nat) : Fld := ⟨dgB c + 0x0, 16, 1⟩
/-- SUMMARY of DG_CTRL: [18:17], RW, reset 0 (R250). -/
def DG_CTRL_SUMMARY (c : Nat) : Fld := ⟨dgB c + 0x0, 17, 2⟩
/-- TEST_OFFSET of DG_CTRL: [25:19], RW, reset 0 (R250). -/
def DG_CTRL_TEST_OFFSET (c : Nat) : Fld := ⟨dgB c + 0x0, 19, 7⟩
/-- STATE of DG_STATUS: [2:0], RO, reset 0 (R250). -/
def DG_STATUS_STATE (c : Nat) : Fld := ⟨dgB c + 0x0, 32, 3⟩
/-- CFG_ERR of DG_STATUS: [3], RO, reset 0 (R250). -/
def DG_STATUS_CFG_ERR (c : Nat) : Fld := ⟨dgB c + 0x0, 35, 1⟩
/-- GAP of DG_STATUS: [4], W1C, reset 0 (R250). -/
def DG_STATUS_GAP (c : Nat) : Fld := ⟨dgB c + 0x0, 36, 1⟩
/-- FAULT of DG_STATUS: [5], RO, reset 0 (R250). -/
def DG_STATUS_FAULT (c : Nat) : Fld := ⟨dgB c + 0x0, 37, 1⟩
/-- BUS_OPEN of DG_STATUS: [6], W1C, reset 0 (R250). -/
def DG_STATUS_BUS_OPEN (c : Nat) : Fld := ⟨dgB c + 0x0, 38, 1⟩
/-- BUS_SHARED of DG_STATUS: [7], RO, reset 0 (R250). -/
def DG_STATUS_BUS_SHARED (c : Nat) : Fld := ⟨dgB c + 0x0, 39, 1⟩
/-- OVER_RANGE of DG_STATUS: [8], W1C, reset 0 (R250). -/
def DG_STATUS_OVER_RANGE (c : Nat) : Fld := ⟨dgB c + 0x0, 40, 1⟩
/-- ARM_OVERRUN of DG_STATUS: [9], W1C, reset 0 (R250). -/
def DG_STATUS_ARM_OVERRUN (c : Nat) : Fld := ⟨dgB c + 0x0, 41, 1⟩
/-- PENDING of DG_STATUS: [10], RO, reset 0 (R250). -/
def DG_STATUS_PENDING (c : Nat) : Fld := ⟨dgB c + 0x0, 42, 1⟩
/-- SLOPE_UNSETTLED of DG_STATUS: [11], RO, reset 0 (R250). -/
def DG_STATUS_SLOPE_UNSETTLED (c : Nat) : Fld := ⟨dgB c + 0x0, 43, 1⟩
/-- IGNORED of DG_STATUS: [12], W1C, reset 0 (R250). -/
def DG_STATUS_IGNORED (c : Nat) : Fld := ⟨dgB c + 0x0, 44, 1⟩
/-- REDUCE of ACQ_CFG: [1:0], RW, reset 0 (R250). -/
def ACQ_CFG_REDUCE (c : Nat) : Fld := ⟨dgB c + 0x8, 0, 2⟩
/-- INTERVAL of ACQ_CFG: [17:2], RW, reset 0 (R250). -/
def ACQ_CFG_INTERVAL (c : Nat) : Fld := ⟨dgB c + 0x8, 2, 16⟩
/-- PRE of ACQ_CFG: [31:18], RW, reset 0 (R250). -/
def ACQ_CFG_PRE (c : Nat) : Fld := ⟨dgB c + 0x8, 18, 14⟩
/-- POST of ACQ_CFG: [47:32], RW, reset 1 (R250). -/
def ACQ_CFG_POST (c : Nat) : Fld := ⟨dgB c + 0x8, 32, 16⟩
/-- RECORDS_MAX of ACQ_CFG: [55:48], RW, reset 1 (R250). -/
def ACQ_CFG_RECORDS_MAX (c : Nat) : Fld := ⟨dgB c + 0x8, 48, 8⟩
/-- REARM_HOLD of ACQ_CFG: [63:56], RW, reset 0 (R250). -/
def ACQ_CFG_REARM_HOLD (c : Nat) : Fld := ⟨dgB c + 0x8, 56, 8⟩
/-- TYPE of TRIG_COND: [3:0], RW, reset 0 (R250). -/
def TRIG_COND_TYPE (c : Nat) (k : Nat) : Fld := ⟨dgB c + 0x10 + 0x10 * k, 0, 4⟩
/-- LEVEL of TRIG_COND: [63:32], RW, reset 0 (R250). -/
def TRIG_COND_LEVEL (c : Nat) (k : Nat) : Fld := ⟨dgB c + 0x10 + 0x10 * k, 32, 32⟩
/-- PAT_VALUE of TRIG_COND: [79:64], RW, reset 0 (R250). -/
def TRIG_COND_PAT_VALUE (c : Nat) (k : Nat) : Fld := ⟨dgB c + 0x18 + 0x10 * k, 0, 16⟩
/-- PAT_CARE of TRIG_COND: [95:80], RW, reset 0 (R250). -/
def TRIG_COND_PAT_CARE (c : Nat) (k : Nat) : Fld := ⟨dgB c + 0x18 + 0x10 * k, 16, 16⟩
/-- HYST of TRIG_COND: [127:96], RW, reset 0 (R250). -/
def TRIG_COND_HYST (c : Nat) (k : Nat) : Fld := ⟨dgB c + 0x18 + 0x10 * k, 32, 32⟩
/-- PAT_LEVEL of PAT: [31:0], RW, reset 0 (R250). -/
def PAT_PAT_LEVEL (c : Nat) : Fld := ⟨dgB c + 0x50, 0, 32⟩
/-- PAT_HYST of PAT: [63:32], RW, reset 0 (R250). -/
def PAT_PAT_HYST (c : Nat) : Fld := ⟨dgB c + 0x50, 32, 32⟩
/-- DATA_BASE of DATA_RING: [47:0], RW, reset 0 (R250). -/
def DATA_RING_DATA_BASE (c : Nat) : Fld := ⟨dgB c + 0x58, 0, 48⟩
/-- DATA_LOG2 of DATA_RING: [52:48], RW, reset 12 (R250). -/
def DATA_RING_DATA_LOG2 (c : Nat) : Fld := ⟨dgB c + 0x58, 48, 5⟩
/-- WRITE of DG_WRITE: [63:0], RO, reset 0 (R250). -/
def DG_WRITE (c : Nat) : Fld := ⟨dgB c + 0x60, 0, 64⟩
/-- RELEASE of DG_RELEASE: [63:0], RO, reset 0 (R250). -/
def DG_RELEASE (c : Nat) : Fld := ⟨dgB c + 0x68, 0, 64⟩
/-- TIMEOUT of DG_TIMEOUT: [63:0], RW, reset 0 (R250). -/
def DG_TIMEOUT (c : Nat) : Fld := ⟨dgB c + 0x70, 0, 64⟩
/-- MISSED of DG_MISSED: [63:0], RO, reset 0 (R250). -/
def DG_MISSED (c : Nat) : Fld := ⟨dgB c + 0x78, 0, 64⟩
/-- GAP_SAMPLES of DG_GAP_SAMPLES: [63:0], RO, reset 0 (R250). -/
def DG_GAP_SAMPLES (c : Nat) : Fld := ⟨dgB c + 0x80, 0, 64⟩
/-- LAST_VALUE of DG_LAST_VALUE: [63:0], RO, reset 0 (R250). -/
def DG_LAST_VALUE (c : Nat) : Fld := ⟨dgB c + 0x88, 0, 64⟩
/-- RECORDS of DG_RECORDS: [63:0], RO, reset 0 (R250). -/
def DG_RECORDS (c : Nat) : Fld := ⟨dgB c + 0x90, 0, 64⟩
/-- GAIN of DG_CAL: [31:0], RO, reset store (R250). -/
def DG_CAL_GAIN (c : Nat) : Fld := ⟨dgB c + 0x98, 0, 32⟩
/-- OFFSET of DG_CAL: [63:32], RO, reset store (R250). -/
def DG_CAL_OFFSET (c : Nat) : Fld := ⟨dgB c + 0x98, 32, 32⟩

/-! ### DPS (spec/12) -/

/-- GANG_LEADER of DPS_CTRL: [5:0], RW, reset own number (R268). -/
def DPS_CTRL_GANG_LEADER (n : Nat) : Fld := ⟨dpsB n + 0x0, 0, 6⟩
/-- MEAS_QTY of DPS_CTRL: [7:6], RW, reset 0 (R268). -/
def DPS_CTRL_MEAS_QTY (n : Nat) : Fld := ⟨dpsB n + 0x0, 6, 2⟩
/-- AVG_LOG2 of DPS_CTRL: [11:8], RW, reset 0 (R268). -/
def DPS_CTRL_AVG_LOG2 (n : Nat) : Fld := ⟨dpsB n + 0x0, 8, 4⟩
/-- STATE of DPS_STATUS: [2:0], RO, reset 0 (R268). -/
def DPS_STATUS_STATE (n : Nat) : Fld := ⟨dpsB n + 0x0, 32, 3⟩
/-- CFG_ERR of DPS_STATUS: [3], RO, reset 0 (R268). -/
def DPS_STATUS_CFG_ERR (n : Nat) : Fld := ⟨dpsB n + 0x0, 35, 1⟩
/-- ILIMIT of DPS_STATUS: [4], RO, reset 0 (R268). -/
def DPS_STATUS_ILIMIT (n : Nat) : Fld := ⟨dpsB n + 0x0, 36, 1⟩
/-- TRIP of DPS_STATUS: [5], W1C, reset 0 (R268). -/
def DPS_STATUS_TRIP (n : Nat) : Fld := ⟨dpsB n + 0x0, 37, 1⟩
/-- TRIP_LIVE of DPS_STATUS: [6], RO, reset 0 (R268). -/
def DPS_STATUS_TRIP_LIVE (n : Nat) : Fld := ⟨dpsB n + 0x0, 38, 1⟩
/-- TRIP_KIND of DPS_STATUS: [10:7], RO, reset 0 (R268). -/
def DPS_STATUS_TRIP_KIND (n : Nat) : Fld := ⟨dpsB n + 0x0, 39, 4⟩
/-- DISAGREE of DPS_STATUS: [11], W1C, reset 0 (R268). -/
def DPS_STATUS_DISAGREE (n : Nat) : Fld := ⟨dpsB n + 0x0, 43, 1⟩
/-- SC_DONE of DPS_STATUS: [12], RO, reset 0 (R268). -/
def DPS_STATUS_SC_DONE (n : Nat) : Fld := ⟨dpsB n + 0x0, 44, 1⟩
/-- SC_FAIL of DPS_STATUS: [13], RO, reset 0 (R268). -/
def DPS_STATUS_SC_FAIL (n : Nat) : Fld := ⟨dpsB n + 0x0, 45, 1⟩
/-- PENDING of DPS_STATUS: [14], RO, reset 0 (R268). -/
def DPS_STATUS_PENDING (n : Nat) : Fld := ⟨dpsB n + 0x0, 46, 1⟩
/-- CEILING of DPS_STATUS: [15], RO, reset 0 (R268). -/
def DPS_STATUS_CEILING (n : Nat) : Fld := ⟨dpsB n + 0x0, 47, 1⟩
/-- VSET of VSET: [31:0], RW, reset 0 (R268). -/
def VSET (n : Nat) : Fld := ⟨dpsB n + 0x8, 0, 32⟩
/-- R_SHUNT of STAGE: [19:0], RW, reset 10,000 (R268). -/
def STAGE_R_SHUNT (n : Nat) : Fld := ⟨dpsB n + 0x8, 32, 20⟩
/-- DEAD_TIME of STAGE: [26:20], RW, reset 20 (R268). -/
def STAGE_DEAD_TIME (n : Nat) : Fld := ⟨dpsB n + 0x8, 52, 7⟩
/-- RAMP_UP of RAMP: [31:0], RW, reset 1,000 (R268). -/
def RAMP_RAMP_UP (n : Nat) : Fld := ⟨dpsB n + 0x10, 0, 32⟩
/-- RAMP_DOWN of RAMP: [63:32], RW, reset 1,000 (R268). -/
def RAMP_RAMP_DOWN (n : Nat) : Fld := ⟨dpsB n + 0x10, 32, 32⟩
/-- I_SRC_LIM of ILIM: [31:0], RW, reset 1,000,000 (R268). -/
def ILIM_I_SRC_LIM (n : Nat) : Fld := ⟨dpsB n + 0x18, 0, 32⟩
/-- I_SNK_LIM of ILIM: [63:32], RW, reset −100,000 (R268). -/
def ILIM_I_SNK_LIM (n : Nat) : Fld := ⟨dpsB n + 0x18, 32, 32⟩
/-- B0 of LOOP: [15:0], RW, reset 1,024 (R268). -/
def LOOP_B0 (n : Nat) : Fld := ⟨dpsB n + 0x20, 0, 16⟩
/-- B1 of LOOP: [31:16], RW, reset −960 (R268). -/
def LOOP_B1 (n : Nat) : Fld := ⟨dpsB n + 0x20, 16, 16⟩
/-- SLOPE of LOOP: [47:32], RW, reset 0 (R268). -/
def LOOP_SLOPE (n : Nat) : Fld := ⟨dpsB n + 0x20, 32, 16⟩
/-- VWIN_LO of VWIN: [31:0], RW, reset 0 (R268). -/
def VWIN_VWIN_LO (n : Nat) : Fld := ⟨dpsB n + 0x28, 0, 32⟩
/-- VWIN_HI of VWIN: [63:32], RW, reset 6,500,000 (R268). -/
def VWIN_VWIN_HI (n : Nat) : Fld := ⟨dpsB n + 0x28, 32, 32⟩
/-- IWIN_LO of IWIN: [31:0], RW, reset −100,000 (R268). -/
def IWIN_IWIN_LO (n : Nat) : Fld := ⟨dpsB n + 0x30, 0, 32⟩
/-- IWIN_HI of IWIN: [63:32], RW, reset 1,000,000 (R268). -/
def IWIN_IWIN_HI (n : Nat) : Fld := ⟨dpsB n + 0x30, 32, 32⟩
/-- FILTER of MON: [1:0], RW, reset 1 (R268). -/
def MON_FILTER (n : Nat) : Fld := ⟨dpsB n + 0x38, 0, 2⟩
/-- V_EN of MON: [2], RW, reset 1 (R268). -/
def MON_V_EN (n : Nat) : Fld := ⟨dpsB n + 0x38, 2, 1⟩
/-- I_EN of MON: [3], RW, reset 1 (R268). -/
def MON_I_EN (n : Nat) : Fld := ⟨dpsB n + 0x38, 3, 1⟩
/-- BLANK of MON: [15:4], RW, reset 100 (R268). -/
def MON_BLANK (n : Nat) : Fld := ⟨dpsB n + 0x38, 4, 12⟩
/-- ACTION of MON: [16], RW, reset 1 (R268). -/
def MON_ACTION (n : Nat) : Fld := ⟨dpsB n + 0x38, 16, 1⟩
/-- EV_EN of MON: [17], RW, reset 0 (R268). -/
def MON_EV_EN (n : Nat) : Fld := ⟨dpsB n + 0x38, 17, 1⟩
/-- EV_SEL of MON: [20:18], RW, reset 0 (R268). -/
def MON_EV_SEL (n : Nat) : Fld := ⟨dpsB n + 0x38, 18, 3⟩
/-- BG_CHECK of MON: [21], RW, reset 1 (R268). -/
def MON_BG_CHECK (n : Nat) : Fld := ⟨dpsB n + 0x38, 21, 1⟩
/-- LAST_V of DPS_LAST_V: [63:0], RO, reset 0 (R268). -/
def DPS_LAST_V (n : Nat) : Fld := ⟨dpsB n + 0x40, 0, 64⟩
/-- LAST_I of DPS_LAST_I: [63:0], RO, reset 0 (R268). -/
def DPS_LAST_I (n : Nat) : Fld := ⟨dpsB n + 0x48, 0, 64⟩
/-- TRIPS of DPS_TRIPS: [63:0], RO, reset 0 (R268). -/
def DPS_TRIPS (n : Nat) : Fld := ⟨dpsB n + 0x50, 0, 64⟩
/-- V_OFFSET of DPS_CAL: [31:0], RO, reset store (R268). -/
def DPS_CAL_V_OFFSET (n : Nat) : Fld := ⟨dpsB n + 0x58, 0, 32⟩
/-- I_GAIN of DPS_CAL: [63:32], RO, reset store (R268). -/
def DPS_CAL_I_GAIN (n : Nat) : Fld := ⟨dpsB n + 0x58, 32, 32⟩
/-- FSW of SWG: [21:0], RW, reset 1,000,000 (R268). -/
def SWG_FSW  (g : Nat) : Fld := ⟨0x7C000 + 0x0 + 0x8 * g, 0, 22⟩
/-- PHASE of SWG: [39:32], RW, reset 128 in SWG1; reserved, 0, in SWG0 (R268). -/
def SWG_PHASE  (g : Nat) : Fld := ⟨0x7C000 + 0x0 + 0x8 * g, 32, 8⟩
/-- PENDING of SWG: [40], RO, reset 0 (R268). -/
def SWG_PENDING  (g : Nat) : Fld := ⟨0x7C000 + 0x0 + 0x8 * g, 40, 1⟩

/-! ### Population engine (spec/13) -/

/-- CLR_COUNTS of POP_CTRL: [0], WO, reset 0 (R293). -/
def POP_CTRL_CLR_COUNTS : Fld := ⟨0x9000 + 0x0, 0, 1⟩
/-- ROOT of POP_DOMAIN: [15:0], RW, reset 0 (R293). -/
def POP_DOMAIN_ROOT : Fld := ⟨0x9000 + 0x8, 0, 16⟩
/-- DEVICES of POP_DOMAIN: [32:16], RW, reset 1 (R293). -/
def POP_DOMAIN_DEVICES : Fld := ⟨0x9000 + 0x8, 16, 17⟩
/-- TESTS_DEFINED of POP_STATUS: [10:0], RO, reset 0 (R293). -/
def POP_STATUS_TESTS_DEFINED : Fld := ⟨0x9000 + 0x10, 0, 11⟩
/-- IN_FILL of POP_STATUS: [23:11], RO, reset 0 (R293). -/
def POP_STATUS_IN_FILL : Fld := ⟨0x9000 + 0x10, 11, 13⟩
/-- CFG_ERR of POP_STATUS: [24], RO, reset 0 (R293). -/
def POP_STATUS_CFG_ERR : Fld := ⟨0x9000 + 0x10, 24, 1⟩
/-- DROP of POP_STATUS: [25], W1C, reset 0 (R293). -/
def POP_STATUS_DROP : Fld := ⟨0x9000 + 0x10, 25, 1⟩
/-- PARENT of POP_TREE: [15:0], RO, reset 0 (R293). -/
def POP_TREE_PARENT : Fld := ⟨0x9000 + 0x18, 0, 16⟩
/-- DEPTH of POP_TREE: [24:16], RO, reset 0 (R293). -/
def POP_TREE_DEPTH : Fld := ⟨0x9000 + 0x18, 16, 9⟩
/-- CHILDREN of POP_TREE: [27:25], RO, reset 0 (R293). -/
def POP_TREE_CHILDREN : Fld := ⟨0x9000 + 0x18, 25, 3⟩
/-- MAX_DEPTH of POP_TREE: [40:32], RO, reset 0 (R293). -/
def POP_TREE_MAX_DEPTH : Fld := ⟨0x9000 + 0x18, 32, 9⟩
/-- ACCEPTED of POP_ACCEPTED: [63:0], RO, reset 0 (R293). -/
def POP_ACCEPTED : Fld := ⟨0x9000 + 0x20, 0, 64⟩
/-- DROPPED of POP_DROPPED: [63:0], RO, reset 0 (R293). -/
def POP_DROPPED : Fld := ⟨0x9000 + 0x28, 0, 64⟩
/-- UNDEFINED of POP_UNDEFINED: [63:0], RO, reset 0 (R293). -/
def POP_UNDEFINED : Fld := ⟨0x9000 + 0x30, 0, 64⟩
/-- LATE_READINGS of POP_LATE_READINGS: [63:0], RO, reset 0 (R293). -/
def POP_LATE_READINGS : Fld := ⟨0x9000 + 0x38, 0, 64⟩
/-- WITHDRAWN of POP_WITHDRAWN: [63:0], RO, reset 0 (R293). -/
def POP_WITHDRAWN : Fld := ⟨0x9000 + 0x40, 0, 64⟩
/-- STALE_REPORTS of POP_STALE_REPORTS: [63:0], RO, reset 0 (R293). -/
def POP_STALE_REPORTS : Fld := ⟨0x9000 + 0x48, 0, 64⟩
/-- MISMATCH_REPORTS of POP_MISMATCH_REPORTS: [63:0], RO, reset 0 (R293). -/
def POP_MISMATCH_REPORTS : Fld := ⟨0x9000 + 0x50, 0, 64⟩
/-- LATE_REPORTS of POP_LATE_REPORTS: [63:0], RO, reset 0 (R293). -/
def POP_LATE_REPORTS : Fld := ⟨0x9000 + 0x58, 0, 64⟩
/-- DUPLICATES of POP_DUPLICATES: [63:0], RO, reset 0 (R293). -/
def POP_DUPLICATES : Fld := ⟨0x9000 + 0x60, 0, 64⟩

/-! ### Memory manager (spec/14) -/

/-- PAIRS_PRESENT of MEM_DESC: [15:0], RO, reset store (R319). -/
def MEM_DESC_PAIRS_PRESENT : Fld := ⟨0x3000 + 0x0, 0, 16⟩
/-- PAIRS of MEM_DESC: [20:16], RO, reset store (R319). -/
def MEM_DESC_PAIRS : Fld := ⟨0x3000 + 0x0, 16, 5⟩
/-- PR_TIMEOUT of MMU_CTRL: [15:0], RW, reset 100 (R319). -/
def MMU_CTRL_PR_TIMEOUT : Fld := ⟨0x3000 + 0x8, 0, 16⟩
/-- CLR_COUNTS of MMU_CTRL: [16], WO, reset 0 (R319). -/
def MMU_CTRL_CLR_COUNTS : Fld := ⟨0x3000 + 0x8, 16, 1⟩
/-- PR_OUTSTANDING of MMU_STATUS: [9:0], RO, reset 0 (R319). -/
def MMU_STATUS_PR_OUTSTANDING : Fld := ⟨0x3000 + 0x8, 32, 10⟩
/-- ATS_ENABLED of MMU_STATUS: [10], RO, reset 0 (R319). -/
def MMU_STATUS_ATS_ENABLED : Fld := ⟨0x3000 + 0x8, 42, 1⟩
/-- PRI_ENABLED of MMU_STATUS: [11], RO, reset 0 (R319). -/
def MMU_STATUS_PRI_ENABLED : Fld := ⟨0x3000 + 0x8, 43, 1⟩
/-- CFG_ERR of MMU_STATUS: [12], RO, reset 0 (R319). -/
def MMU_STATUS_CFG_ERR : Fld := ⟨0x3000 + 0x8, 44, 1⟩
/-- FAULT_OVERFLOW of MMU_STATUS: [13], W1C, reset 0 (R319). -/
def MMU_STATUS_FAULT_OVERFLOW : Fld := ⟨0x3000 + 0x8, 45, 1⟩
/-- PINNED_ATC of MMU_STATUS: [26:14], RO, reset 0 (R319). -/
def MMU_STATUS_PINNED_ATC : Fld := ⟨0x3000 + 0x8, 46, 13⟩
/-- SCRUB_EN of SCRUB_CTRL: [0], RW, reset 1 (R319). -/
def SCRUB_CTRL_SCRUB_EN : Fld := ⟨0x3000 + 0x10, 0, 1⟩
/-- SCRUB_PERIOD of SCRUB_CTRL: [15:8], RW, reset 24 (R319). -/
def SCRUB_CTRL_SCRUB_PERIOD : Fld := ⟨0x3000 + 0x10, 8, 8⟩
/-- DPA of ECC_LOG: [33:0], RO, reset 0 (R319). -/
def ECC_LOG_DPA : Fld := ⟨0x3000 + 0x18, 0, 34⟩
/-- SOURCE of ECC_LOG: [35:34], RO, reset 0 (R319). -/
def ECC_LOG_SOURCE : Fld := ⟨0x3000 + 0x18, 34, 2⟩
/-- VALID of ECC_LOG: [36], W1C, reset 0 (R319). -/
def ECC_LOG_VALID : Fld := ⟨0x3000 + 0x18, 36, 1⟩
/-- CORRECTED of MMU_CORRECTED: [63:0], RO, reset 0 (R319). -/
def MMU_CORRECTED : Fld := ⟨0x3000 + 0x20, 0, 64⟩
/-- UNCORRECTABLE of MMU_UNCORRECTABLE: [63:0], RO, reset 0 (R319). -/
def MMU_UNCORRECTABLE : Fld := ⟨0x3000 + 0x28, 0, 64⟩
/-- POISON_READS of MMU_POISON_READS: [63:0], RO, reset 0 (R319). -/
def MMU_POISON_READS : Fld := ⟨0x3000 + 0x30, 0, 64⟩
/-- TRANS_FAULTS of MMU_TRANS_FAULTS: [63:0], RO, reset 0 (R319). -/
def MMU_TRANS_FAULTS : Fld := ⟨0x3000 + 0x38, 0, 64⟩
/-- PERM_FAULTS of MMU_PERM_FAULTS: [63:0], RO, reset 0 (R319). -/
def MMU_PERM_FAULTS : Fld := ⟨0x3000 + 0x40, 0, 64⟩
/-- PAGE_REQUESTS of MMU_PAGE_REQUESTS: [63:0], RO, reset 0 (R319). -/
def MMU_PAGE_REQUESTS : Fld := ⟨0x3000 + 0x48, 0, 64⟩
/-- ATS_REQUESTS of MMU_ATS_REQUESTS: [63:0], RO, reset 0 (R319). -/
def MMU_ATS_REQUESTS : Fld := ⟨0x3000 + 0x50, 0, 64⟩
/-- INVALIDATIONS of MMU_INVALIDATIONS: [63:0], RO, reset 0 (R319). -/
def MMU_INVALIDATIONS : Fld := ⟨0x3000 + 0x58, 0, 64⟩
/-- SPEC_DROPS of MMU_SPEC_DROPS: [63:0], RO, reset 0 (R319). -/
def MMU_SPEC_DROPS : Fld := ⟨0x3000 + 0x60, 0, 64⟩
/-- PR_TIMEOUTS of MMU_PR_TIMEOUTS: [63:0], RO, reset 0 (R319). -/
def MMU_PR_TIMEOUTS : Fld := ⟨0x3000 + 0x68, 0, 64⟩
/-- NEXT of FAULT_HEAD: [3:0], RO, reset 0 (R319). -/
def FAULT_HEAD_NEXT : Fld := ⟨0x3000 + 0x100, 0, 4⟩
/-- ENTRY_BASE of REGION: [16:0], RW, reset 0 (R319). -/
def REGION_ENTRY_BASE  (r : Nat) : Fld := ⟨0x3000 + 0x200 + 0x8 * r, 0, 17⟩
/-- ENTRY_COUNT of REGION: [34:17], RW, reset 0 (R319). -/
def REGION_ENTRY_COUNT  (r : Nat) : Fld := ⟨0x3000 + 0x200 + 0x8 * r, 17, 18⟩
/-- PAGE of REGION: [35], RW, reset 0 (R319). -/
def REGION_PAGE  (r : Nat) : Fld := ⟨0x3000 + 0x200 + 0x8 * r, 35, 1⟩
/-- ENABLE of REGION: [36], RW, reset 0 (R319). -/
def REGION_ENABLE  (r : Nat) : Fld := ⟨0x3000 + 0x200 + 0x8 * r, 36, 1⟩
/-- VA of FLOG_VA: [47:0], RO, reset 0 (R319). -/
def FLOG_VA  (k : Nat) : Fld := ⟨0x3000 + 0x400 + 0x20 * k, 0, 48⟩
/-- STATUS of FLOG: [7:0], RO, reset 0 (R319). -/
def FLOG_STATUS  (k : Nat) : Fld := ⟨0x3000 + 0x408 + 0x20 * k, 0, 8⟩
/-- KIND of FLOG: [15:8], RO, reset 0 (R319). -/
def FLOG_KIND  (k : Nat) : Fld := ⟨0x3000 + 0x408 + 0x20 * k, 8, 8⟩
/-- ENGINE of FLOG: [19:16], RO, reset 0 (R319). -/
def FLOG_ENGINE  (k : Nat) : Fld := ⟨0x3000 + 0x408 + 0x20 * k, 16, 4⟩
/-- UNIT of FLOG: [25:20], RO, reset 0 (R319). -/
def FLOG_UNIT  (k : Nat) : Fld := ⟨0x3000 + 0x408 + 0x20 * k, 20, 6⟩
/-- WRITE of FLOG: [26], RO, reset 0 (R319). -/
def FLOG_WRITE  (k : Nat) : Fld := ⟨0x3000 + 0x408 + 0x20 * k, 26, 1⟩
/-- VALID of FLOG: [27], W1C, reset 0 (R319). -/
def FLOG_VALID  (k : Nat) : Fld := ⟨0x3000 + 0x408 + 0x20 * k, 27, 1⟩
/-- CELL_TIME of FLOG_CELL_TIME: [63:0], RO, reset 0 (R319). -/
def FLOG_CELL_TIME  (k : Nat) : Fld := ⟨0x3000 + 0x410 + 0x20 * k, 0, 64⟩
/-- ENTRY of FLOG_ENTRY: [16:0], RO, reset 0 (R319). -/
def FLOG_ENTRY  (k : Nat) : Fld := ⟨0x3000 + 0x418 + 0x20 * k, 0, 17⟩
/-- ENTRY_VALID of FLOG_ENTRY: [17], RO, reset 0 (R319). -/
def FLOG_ENTRY_ENTRY_VALID  (k : Nat) : Fld := ⟨0x3000 + 0x418 + 0x20 * k, 17, 1⟩

/-! ### DMA (spec/15) -/

/-- HELD of DMA_STATUS: [5:0], RO, reset 0 (R337). -/
def DMA_STATUS_HELD (e : Nat) : Fld := ⟨dmaB e + 0x0, 0, 6⟩
/-- CLASS of DMA_STATUS: [7:6], RO, reset 0 (R337). -/
def DMA_STATUS_CLASS (e : Nat) : Fld := ⟨dmaB e + 0x0, 6, 2⟩
/-- RUNNING of DMA_STATUS: [8], RO, reset 0 (R337). -/
def DMA_STATUS_RUNNING (e : Nat) : Fld := ⟨dmaB e + 0x0, 8, 1⟩
/-- SLOTS of DMA_STATUS: [25:10], RO, reset 0 (R337). -/
def DMA_STATUS_SLOTS (e : Nat) : Fld := ⟨dmaB e + 0x0, 10, 16⟩
/-- BYTES_READ of DMA_BYTES_READ: [63:0], RO, reset 0 (R337). -/
def DMA_BYTES_READ (e : Nat) : Fld := ⟨dmaB e + 0x8, 0, 64⟩
/-- BYTES_WRITTEN of DMA_BYTES_WRITTEN: [63:0], RO, reset 0 (R337). -/
def DMA_BYTES_WRITTEN (e : Nat) : Fld := ⟨dmaB e + 0x10, 0, 64⟩
/-- CHUNKS of DMA_CHUNKS: [63:0], RO, reset 0 (R337). -/
def DMA_CHUNKS (e : Nat) : Fld := ⟨dmaB e + 0x18, 0, 64⟩
/-- PREEMPTIONS of DMA_PREEMPTIONS: [63:0], RO, reset 0 (R337). -/
def DMA_PREEMPTIONS (e : Nat) : Fld := ⟨dmaB e + 0x20, 0, 64⟩
/-- SUSPENSIONS of DMA_SUSPENSIONS: [63:0], RO, reset 0 (R337). -/
def DMA_SUSPENSIONS (e : Nat) : Fld := ⟨dmaB e + 0x28, 0, 64⟩
/-- PAGE_WAITS of DMA_PAGE_WAITS: [63:0], RO, reset 0 (R337). -/
def DMA_PAGE_WAITS (e : Nat) : Fld := ⟨dmaB e + 0x30, 0, 64⟩
/-- AGE_LIMIT of DMA_COMMON: [15:0], RW, reset 100 (R337). -/
def DMA_COMMON_AGE_LIMIT : Fld := ⟨0x2C00, 0, 16⟩
/-- CLR_COUNTS of DMA_COMMON: [16], WO, reset 0 (R337). -/
def DMA_COMMON_CLR_COUNTS : Fld := ⟨0x2C00, 16, 1⟩
/-- PREEMPTS of POP_PREEMPTS: [63:0], RO, reset 0 (R337). -/
def POP_PREEMPTS : Fld := ⟨0x9068, 0, 64⟩

/-! ### Host interface (spec/16) -/

/-- POLL_EN of HI_CTRL: [0], RW, reset 0 (R359). -/
def HI_CTRL_POLL_EN : Fld := ⟨0x1000 + 0x0, 0, 1⟩
/-- CLR_COUNTS of HI_CTRL: [1], WO, reset 0 (R359). -/
def HI_CTRL_CLR_COUNTS : Fld := ⟨0x1000 + 0x0, 1, 1⟩
/-- POLLING of HI_STATUS: [0], RO, reset 0 (R359). -/
def HI_STATUS_POLLING : Fld := ⟨0x1000 + 0x0, 32, 1⟩
/-- CFG_ERR of HI_STATUS: [1], RO, reset 0 (R359). -/
def HI_STATUS_CFG_ERR : Fld := ⟨0x1000 + 0x0, 33, 1⟩
/-- BUF_FULL of HI_STATUS: [2], RO, reset 0 (R359). -/
def HI_STATUS_BUF_FULL : Fld := ⟨0x1000 + 0x0, 34, 1⟩
/-- LINK_RESET of HI_STATUS: [3], W1C, reset 0 (R359). -/
def HI_STATUS_LINK_RESET : Fld := ⟨0x1000 + 0x0, 35, 1⟩
/-- DB_ERR of HI_STATUS: [4], W1C, reset 0 (R359). -/
def HI_STATUS_DB_ERR : Fld := ⟨0x1000 + 0x0, 36, 1⟩
/-- POLL_NS of POLL: [19:0], RW, reset 1,000 (R359). -/
def POLL_POLL_NS : Fld := ⟨0x1000 + 0x8, 0, 20⟩
/-- IDLE_POLL_NS of IDLE_POLL: [19:0], RW, reset 100,000 (R359). -/
def IDLE_POLL_IDLE_POLL_NS : Fld := ⟨0x1000 + 0x8, 32, 20⟩
/-- DB_PAGE of DB_PAGE: [63:12], RW, reset 0 (R359). -/
def DB_PAGE : Fld := ⟨0x1000 + 0x10, 12, 52⟩
/-- STATUS_PAGE of STATUS_PAGE: [63:12], RW, reset 0 (R359). -/
def STATUS_PAGE : Fld := ⟨0x1000 + 0x18, 12, 52⟩
/-- RATE of LINK: [3:0], RO, reset 0 (R359). -/
def LINK_RATE : Fld := ⟨0x1000 + 0x20, 0, 4⟩
/-- WIDTH of LINK: [9:4], RO, reset 0 (R359). -/
def LINK_WIDTH : Fld := ⟨0x1000 + 0x20, 4, 6⟩
/-- IN_L1 of LINK: [10], RO, reset 0 (R359). -/
def LINK_IN_L1 : Fld := ⟨0x1000 + 0x20, 10, 1⟩
/-- POLL_ROUNDS of HI_POLL_ROUNDS: [63:0], RO, reset 0 (R359). -/
def HI_POLL_ROUNDS : Fld := ⟨0x1000 + 0x40, 0, 64⟩
/-- FETCHED of HI_FETCHED: [63:0], RO, reset 0 (R359). -/
def HI_FETCHED : Fld := ⟨0x1000 + 0x48, 0, 64⟩
/-- COMPLETIONS of HI_COMPLETIONS: [63:0], RO, reset 0 (R359). -/
def HI_COMPLETIONS : Fld := ⟨0x1000 + 0x50, 0, 64⟩
/-- MSIX_SENT of HI_MSIX_SENT: [63:0], RO, reset 0 (R359). -/
def HI_MSIX_SENT : Fld := ⟨0x1000 + 0x58, 0, 64⟩
/-- PME_SENT of HI_PME_SENT: [63:0], RO, reset 0 (R359). -/
def HI_PME_SENT : Fld := ⟨0x1000 + 0x60, 0, 64⟩
/-- CQ_FULL_WAITS of HI_CQ_FULL_WAITS: [63:0], RO, reset 0 (R359). -/
def HI_CQ_FULL_WAITS : Fld := ⟨0x1000 + 0x68, 0, 64⟩
/-- DISCARDED of HI_DISCARDED: [63:0], RO, reset 0 (R359). -/
def HI_DISCARDED : Fld := ⟨0x1000 + 0x70, 0, 64⟩
/-- MALFORMED of HI_MALFORMED: [63:0], RO, reset 0 (R359). -/
def HI_MALFORMED : Fld := ⟨0x1000 + 0x78, 0, 64⟩
/-- SQ_ERR of SQ_ERR: [255:0], W1C, reset 0 (R359). -/
def SQ_ERR (u : Nat) : Fld := ⟨0x1000 + 0x80 + 8 * (u / 64), u % 64, 1⟩
/-- CQ_ERR of CQ_ERR: [255:0], W1C, reset 0 (R359). -/
def CQ_ERR (u : Nat) : Fld := ⟨0x1000 + 0xA0 + 8 * (u / 64), u % 64, 1⟩
/-- SIZE_LOG2 of SQ: [3:0], RW, reset 2 (R359). -/
def SQ_SIZE_LOG2  (q : Nat) : Fld := ⟨0x1000 + 0x400 + 0x10 * q, 0, 4⟩
/-- CLASS of SQ: [6:4], RW, reset 0 (R359). -/
def SQ_CLASS  (q : Nat) : Fld := ⟨0x1000 + 0x400 + 0x10 * q, 4, 3⟩
/-- ENABLE of SQ: [7], RW, reset 0 (R359). -/
def SQ_ENABLE  (q : Nat) : Fld := ⟨0x1000 + 0x400 + 0x10 * q, 7, 1⟩
/-- BASE of SQ: [63:12], RW, reset 0 (R359). -/
def SQ_BASE  (q : Nat) : Fld := ⟨0x1000 + 0x400 + 0x10 * q, 12, 52⟩
/-- SIZE_LOG2 of CQ: [3:0], RW, reset 2 (R359). -/
def CQ_SIZE_LOG2  (q : Nat) : Fld := ⟨0x1000 + 0x408 + 0x10 * q, 0, 4⟩
/-- ENABLE of CQ: [4], RW, reset 0 (R359). -/
def CQ_ENABLE  (q : Nat) : Fld := ⟨0x1000 + 0x408 + 0x10 * q, 4, 1⟩
/-- BASE of CQ: [63:12], RW, reset 0 (R359). -/
def CQ_BASE  (q : Nat) : Fld := ⟨0x1000 + 0x408 + 0x10 * q, 12, 52⟩
/-- VECTOR of CQ_IRQ: [10:0], RW, reset 0 (R359). -/
def CQ_IRQ_VECTOR  (q : Nat) : Fld := ⟨0x1000 + 0x1400 + 8 * (q / 2), 0 + 32 * (q % 2), 11⟩
/-- IRQ_EN of CQ_IRQ: [11], RW, reset 0 (R359). -/
def CQ_IRQ_IRQ_EN  (q : Nat) : Fld := ⟨0x1000 + 0x1400 + 8 * (q / 2), 11 + 32 * (q % 2), 1⟩
/-- COUNT of CQ_IRQ: [19:12], RW, reset 1 (R359). -/
def CQ_IRQ_COUNT  (q : Nat) : Fld := ⟨0x1000 + 0x1400 + 8 * (q / 2), 12 + 32 * (q % 2), 8⟩
/-- TIME of CQ_IRQ: [31:20], RW, reset 0 (R359). -/
def CQ_IRQ_TIME  (q : Nat) : Fld := ⟨0x1000 + 0x1400 + 8 * (q / 2), 20 + 32 * (q % 2), 12⟩

/-! ### Felt (spec/17) -/

/-- NODE of FELT_CFG: [15:0], RW, reset 0 (R386). -/
def FELT_CFG_NODE : Fld := ⟨0x6000 + 0x0, 0, 16⟩
/-- X of FELT_CFG: [24:16], RW, reset 1 (R386). -/
def FELT_CFG_X : Fld := ⟨0x6000 + 0x0, 16, 9⟩
/-- Y of FELT_CFG: [33:25], RW, reset 1 (R386). -/
def FELT_CFG_Y : Fld := ⟨0x6000 + 0x0, 25, 9⟩
/-- TIME_ROOT of FELT_CFG: [49:34], RW, reset 0 (R386). -/
def FELT_CFG_TIME_ROOT : Fld := ⟨0x6000 + 0x0, 34, 16⟩
/-- CLR_COUNTS of FELT_CTRL: [0], WO, reset 0 (R386). -/
def FELT_CTRL_CLR_COUNTS : Fld := ⟨0x6000 + 0x8, 0, 1⟩
/-- RSP_TIMEOUT of RSP_TIMEOUT: [19:0], RW, reset 1,000 (R386). -/
def RSP_TIMEOUT : Fld := ⟨0x6000 + 0x8, 32, 20⟩
/-- FELT_REGIONS of FELT_REGIONS: [63:0], RW, reset 0 (R386). -/
def FELT_REGIONS : Fld := ⟨0x6000 + 0x10, 0, 64⟩
/-- SYNC_STATE of FELT_STATUS: [2:0], RO, reset 0 (R386). -/
def FELT_STATUS_SYNC_STATE : Fld := ⟨0x6000 + 0x18, 0, 3⟩
/-- SYNC_PORT of FELT_STATUS: [4:3], RO, reset 0 (R386). -/
def FELT_STATUS_SYNC_PORT : Fld := ⟨0x6000 + 0x18, 3, 2⟩
/-- SYNC_DEPTH of FELT_STATUS: [13:5], RO, reset 0 (R386). -/
def FELT_STATUS_SYNC_DEPTH : Fld := ⟨0x6000 + 0x18, 5, 9⟩
/-- STARTS_ARMED of FELT_STATUS: [17:14], RO, reset 0 (R386). -/
def FELT_STATUS_STARTS_ARMED : Fld := ⟨0x6000 + 0x18, 14, 4⟩
/-- CFG_ERR of FELT_STATUS: [18], RO, reset 0 (R386). -/
def FELT_STATUS_CFG_ERR : Fld := ⟨0x6000 + 0x18, 18, 1⟩
/-- TIME_SUSPECT of FELT_STATUS: [19], W1C, reset 0 (R386). -/
def FELT_STATUS_TIME_SUSPECT : Fld := ⟨0x6000 + 0x18, 19, 1⟩
/-- CELL_TIME of CELL_TIME: [63:0], RO, reset 0 (R386). -/
def CELL_TIME : Fld := ⟨0x6000 + 0x20, 0, 64⟩
/-- EPOCH of EPOCH: [31:0], RO, reset 0 (R386). -/
def EPOCH : Fld := ⟨0x6000 + 0x28, 0, 32⟩
/-- OFFSET of OFFSET: [63:0], RO, reset 0 (R386). -/
def OFFSET : Fld := ⟨0x6000 + 0x30, 0, 64⟩
/-- DISCARDED_PKTS of FELT_DISCARDED_PKTS: [63:0], RO, reset 0 (R386). -/
def FELT_DISCARDED_PKTS : Fld := ⟨0x6000 + 0x40, 0, 64⟩
/-- UNREACHABLE of FELT_UNREACHABLE: [63:0], RO, reset 0 (R386). -/
def FELT_UNREACHABLE : Fld := ⟨0x6000 + 0x48, 0, 64⟩
/-- RSP_TIMEOUTS of FELT_RSP_TIMEOUTS: [63:0], RO, reset 0 (R386). -/
def FELT_RSP_TIMEOUTS : Fld := ⟨0x6000 + 0x50, 0, 64⟩
/-- REASM_DROPS of FELT_REASM_DROPS: [63:0], RO, reset 0 (R386). -/
def FELT_REASM_DROPS : Fld := ⟨0x6000 + 0x58, 0, 64⟩
/-- LATE_STARTS of FELT_LATE_STARTS: [63:0], RO, reset 0 (R386). -/
def FELT_LATE_STARTS : Fld := ⟨0x6000 + 0x60, 0, 64⟩
/-- ENABLE of PORT_CTRL: [0], RW, reset 0 (R386). -/
def PORT_CTRL_ENABLE (p : Nat) : Fld := ⟨portB p + 0x0, 0, 1⟩
/-- RETRAIN of PORT_CTRL: [1], WO, reset 0 (R386). -/
def PORT_CTRL_RETRAIN (p : Nat) : Fld := ⟨portB p + 0x0, 1, 1⟩
/-- STATE of PORT_STATUS: [3:0], RO, reset 0 (R386). -/
def PORT_STATUS_STATE (p : Nat) : Fld := ⟨portB p + 0x0, 32, 4⟩
/-- NEIGHBOUR of PORT_STATUS: [19:4], RO, reset 0 (R386). -/
def PORT_STATUS_NEIGHBOUR (p : Nat) : Fld := ⟨portB p + 0x0, 36, 16⟩
/-- HOP_VALID of PORT_STATUS: [20], RO, reset 0 (R386). -/
def PORT_STATUS_HOP_VALID (p : Nat) : Fld := ⟨portB p + 0x0, 52, 1⟩
/-- STATE_CHANGE of PORT_STATUS: [21], W1C, reset 0 (R386). -/
def PORT_STATUS_STATE_CHANGE (p : Nat) : Fld := ⟨portB p + 0x0, 53, 1⟩
/-- MISMATCH of PORT_STATUS: [23:22], RO, reset 0 (R386). -/
def PORT_STATUS_MISMATCH (p : Nat) : Fld := ⟨portB p + 0x0, 54, 2⟩
/-- HOP_DELAY of HOP_DELAY: [63:0], RO, reset 0 (R386). -/
def HOP_DELAY (p : Nat) : Fld := ⟨portB p + 0x8, 0, 64⟩
/-- CRC_ERRORS of PORT_CRC_ERRORS: [63:0], RO, reset 0 (R386). -/
def PORT_CRC_ERRORS (p : Nat) : Fld := ⟨portB p + 0x10, 0, 64⟩
/-- REPLAYS of PORT_REPLAYS: [63:0], RO, reset 0 (R386). -/
def PORT_REPLAYS (p : Nat) : Fld := ⟨portB p + 0x18, 0, 64⟩
/-- RETRAINS of PORT_RETRAINS: [63:0], RO, reset 0 (R386). -/
def PORT_RETRAINS (p : Nat) : Fld := ⟨portB p + 0x20, 0, 64⟩
/-- FLITS_TX of PORT_FLITS_TX: [63:0], RO, reset 0 (R386). -/
def PORT_FLITS_TX (p : Nat) : Fld := ⟨portB p + 0x28, 0, 64⟩
/-- FLITS_RX of PORT_FLITS_RX: [63:0], RO, reset 0 (R386). -/
def PORT_FLITS_RX (p : Nat) : Fld := ⟨portB p + 0x30, 0, 64⟩

/-! ### Serial ports (spec/18) -/

/-- PROFILE_OK of FL_STATUS: [0], RO, reset 0 (R406). -/
def FL_STATUS_PROFILE_OK : Fld := ⟨0x7000 + 0x0, 0, 1⟩
/-- FALLBACK of FL_STATUS: [1], RO, reset 0 (R406). -/
def FL_STATUS_FALLBACK : Fld := ⟨0x7000 + 0x0, 1, 1⟩
/-- DIR_COPY of FL_STATUS: [2], RO, reset 0 (R406). -/
def FL_STATUS_DIR_COPY : Fld := ⟨0x7000 + 0x0, 2, 1⟩
/-- DUAL of FL_STATUS: [3], RO, reset 0 (R406). -/
def FL_STATUS_DUAL : Fld := ⟨0x7000 + 0x0, 3, 1⟩
/-- CONT_ACTIVE of FL_STATUS: [4], RO, reset 0 (R406). -/
def FL_STATUS_CONT_ACTIVE : Fld := ⟨0x7000 + 0x0, 4, 1⟩
/-- FL_LINE_READS of FL_LINE_READS: [63:0], RO, reset 0 (R406). -/
def FL_LINE_READS : Fld := ⟨0x7000 + 0x8, 0, 64⟩
/-- FL_BUFFER_HITS of FL_BUFFER_HITS: [63:0], RO, reset 0 (R406). -/
def FL_BUFFER_HITS : Fld := ⟨0x7000 + 0x10, 0, 64⟩
/-- ACTIVE of STORE_STATUS: [1:0], RO, reset store (R406). -/
def STORE_STATUS_ACTIVE : Fld := ⟨0x7000 + 0x20, 0, 2⟩
/-- AMBIG of STORE_STATUS: [2], RO, reset store (R406). -/
def STORE_STATUS_AMBIG : Fld := ⟨0x7000 + 0x20, 2, 1⟩
/-- WRITING of STORE_STATUS: [3], RO, reset 0 (R406). -/
def STORE_STATUS_WRITING : Fld := ⟨0x7000 + 0x20, 3, 1⟩
/-- WRITE_FAIL of STORE_STATUS: [4], W1C, reset 0 (R406). -/
def STORE_STATUS_WRITE_FAIL : Fld := ⟨0x7000 + 0x20, 4, 1⟩
/-- LAYOUT_ERR of STORE_STATUS: [5], RO, reset 0 (R406). -/
def STORE_STATUS_LAYOUT_ERR : Fld := ⟨0x7000 + 0x20, 5, 1⟩
/-- SECTION_ERR of STORE_STATUS: [6], RO, reset store (R406). -/
def STORE_STATUS_SECTION_ERR : Fld := ⟨0x7000 + 0x20, 6, 1⟩
/-- SEQ of STORE_STATUS: [63:32], RO, reset store (R406). -/
def STORE_STATUS_SEQ : Fld := ⟨0x7000 + 0x20, 32, 32⟩
/-- LENGTH of STORE_LENGTH: [31:0], RO, reset store (R406). -/
def STORE_LENGTH : Fld := ⟨0x7000 + 0x28, 0, 32⟩
/-- STORE_WRITES of STORE_WRITES: [63:0], RO, reset 0 (R406). -/
def STORE_WRITES : Fld := ⟨0x7000 + 0x30, 0, 64⟩
/-- STORE_LAST_TIME of STORE_LAST_TIME: [63:0], RO, reset 0 (R406). -/
def STORE_LAST_TIME : Fld := ⟨0x7000 + 0x38, 0, 64⟩
/-- ENABLE of CP_CTRL: [0], RW, reset 1 (R406). -/
def CP_CTRL_ENABLE : Fld := ⟨0x7000 + 0x100, 0, 1⟩
/-- ALIVE_TIMEOUT of CP_CTRL: [31:16], RW, reset 0 (R406). -/
def CP_CTRL_ALIVE_TIMEOUT : Fld := ⟨0x7000 + 0x100, 16, 16⟩
/-- NEXT_ALIVE of CP_STATUS: [3:0], RO, reset 0 (R406). -/
def CP_STATUS_NEXT_ALIVE : Fld := ⟨0x7000 + 0x100, 32, 4⟩
/-- LOST of CP_STATUS: [4], RO, reset 0 (R406). -/
def CP_STATUS_LOST : Fld := ⟨0x7000 + 0x100, 36, 1⟩
/-- LOSS_SEEN of CP_STATUS: [5], W1C, reset 0 (R406). -/
def CP_STATUS_LOSS_SEEN : Fld := ⟨0x7000 + 0x100, 37, 1⟩
/-- FRAME_ERR of CP_STATUS: [6], W1C, reset 0 (R406). -/
def CP_STATUS_FRAME_ERR : Fld := ⟨0x7000 + 0x100, 38, 1⟩
/-- CP_ACCEPTED of CP_ACCEPTED: [63:0], RO, reset 0 (R406). -/
def CP_ACCEPTED : Fld := ⟨0x7000 + 0x108, 0, 64⟩
/-- CP_IGNORED of CP_IGNORED: [63:0], RO, reset 0 (R406). -/
def CP_IGNORED : Fld := ⟨0x7000 + 0x110, 0, 64⟩
/-- CP_LOSSES of CP_LOSSES: [63:0], RO, reset 0 (R406). -/
def CP_LOSSES : Fld := ⟨0x7000 + 0x118, 0, 64⟩
/-- CP_UNDERRUNS of CP_UNDERRUNS: [63:0], RO, reset 0 (R406). -/
def CP_UNDERRUNS : Fld := ⟨0x7000 + 0x120, 0, 64⟩

/-! ### Calibration (spec/19) -/

/-- TRACK_EN of CAL_CTRL: [0], RW, reset 1 (R420). -/
def CAL_CTRL_TRACK_EN (c : Nat) : Fld := ⟨clB c + 0x1C00, 0, 1⟩
/-- QUALITY of CAL_STATUS: [1:0], RO, reset 3 (R420). -/
def CAL_STATUS_QUALITY (c : Nat) : Fld := ⟨clB c + 0x1C00, 32, 2⟩
/-- REF_FAULT of CAL_STATUS: [2], W1C, reset 0 (R420). -/
def CAL_STATUS_REF_FAULT (c : Nat) : Fld := ⟨clB c + 0x1C00, 34, 1⟩
/-- FROZEN of CAL_STATUS: [3], RO, reset 0 (R420). -/
def CAL_STATUS_FROZEN (c : Nat) : Fld := ⟨clB c + 0x1C00, 35, 1⟩
/-- CAL_ACTIVE of CAL_STATUS: [4], RO, reset 0 (R420). -/
def CAL_STATUS_CAL_ACTIVE (c : Nat) : Fld := ⟨clB c + 0x1C00, 36, 1⟩
/-- PENDING of CAL_STATUS: [12:5], RO, reset 0 (R420). -/
def CAL_STATUS_PENDING (c : Nat) : Fld := ⟨clB c + 0x1C00, 37, 8⟩
/-- RESID_UV of RESID: [31:0], RO, reset 0 (R420). -/
def RESID_RESID_UV (c : Nat) : Fld := ⟨clB c + 0x1C08, 0, 32⟩
/-- RESID_PS of RESID: [47:32], RO, reset 0 (R420). -/
def RESID_RESID_PS (c : Nat) : Fld := ⟨clB c + 0x1C08, 32, 16⟩
/-- CAL_PIN_FAIL of CAL_PIN_FAIL: [31:0], W1C, reset 0 (R420). -/
def CAL_PIN_FAIL (c : Nat) : Fld := ⟨clB c + 0x1C10, 0, 32⟩
/-- TRACK_CYCLES of TRACK_CYCLES: [63:0], RO, reset 0 (R420). -/
def TRACK_CYCLES (c : Nat) : Fld := ⟨clB c + 0x1C18, 0, 64⟩
/-- LAST_TRACK of LAST_TRACK: [63:0], RO, reset 0 (R420). -/
def LAST_TRACK (c : Nat) : Fld := ⟨clB c + 0x1C20, 0, 64⟩

/-! ### Power and thermal (spec/20) -/

/-- MAX_STATE of PWR_CTRL: [2:0], RW, reset 4 (R438). -/
def PWR_CTRL_MAX_STATE : Fld := ⟨0x5000 + 0x0, 0, 3⟩
/-- DPS_HOLD of PWR_CTRL: [3], RW, reset 1 (R438). -/
def PWR_CTRL_DPS_HOLD : Fld := ⟨0x5000 + 0x0, 3, 1⟩
/-- IDLE_DELAY of PWR_CTRL: [19:4], RW, reset 10 (R438). -/
def PWR_CTRL_IDLE_DELAY : Fld := ⟨0x5000 + 0x0, 4, 16⟩
/-- WAKE_EV of PWR_CTRL: [27:20], RW, reset 0 (R438). -/
def PWR_CTRL_WAKE_EV : Fld := ⟨0x5000 + 0x0, 20, 8⟩
/-- STATE of PWR_STATUS: [2:0], RO, reset 0 (R438). -/
def PWR_STATUS_STATE : Fld := ⟨0x5000 + 0x0, 32, 3⟩
/-- ENTERING of PWR_STATUS: [3], RO, reset 0 (R438). -/
def PWR_STATUS_ENTERING : Fld := ⟨0x5000 + 0x0, 35, 1⟩
/-- EXITING of PWR_STATUS: [4], RO, reset 0 (R438). -/
def PWR_STATUS_EXITING : Fld := ⟨0x5000 + 0x0, 36, 1⟩
/-- EVENT_KNOWN of PWR_STATUS: [5], RO, reset 0 (R438). -/
def PWR_STATUS_EVENT_KNOWN : Fld := ⟨0x5000 + 0x0, 37, 1⟩
/-- CFG_ERR of PWR_STATUS: [6], RO, reset 0 (R438). -/
def PWR_STATUS_CFG_ERR : Fld := ⟨0x5000 + 0x0, 38, 1⟩
/-- START_LEAD of START_LEAD_REG: [19:0], RW, reset 200 (R438). -/
def START_LEAD : Fld := ⟨0x5000 + 0x8, 0, 20⟩
/-- NEXT_EVENT of NEXT_EVENT: [63:0], RO, reset 0 (R438). -/
def NEXT_EVENT : Fld := ⟨0x5000 + 0x10, 0, 64⟩
/-- THROTTLE_T of THERM_CTRL: [7:0], RW, reset 100 (R438). -/
def THERM_CTRL_THROTTLE_T : Fld := ⟨0x5000 + 0x18, 0, 8⟩
/-- HYST of THERM_CTRL: [11:8], RW, reset 5 (R438). -/
def THERM_CTRL_HYST : Fld := ⟨0x5000 + 0x18, 8, 4⟩
/-- JUNCTION of THERM_STATUS: [15:0], RO, reset 0 (R438). -/
def THERM_STATUS_JUNCTION : Fld := ⟨0x5000 + 0x18, 32, 16⟩
/-- PEAK of THERM_STATUS: [31:16], RO, reset store (R438). -/
def THERM_STATUS_PEAK : Fld := ⟨0x5000 + 0x18, 48, 16⟩
/-- SUSPECT of SUSPECT: [103:0], W1C, reset 0 (R438). -/
def SUSPECT (u : Nat) : Fld := ⟨0x5000 + 0x20 + 8 * (u / 64), u % 64, 1⟩
/-- WARN_PCT of SUPPLY_CTRL: [3:0], RW, reset 5 (R438). -/
def SUPPLY_CTRL_WARN_PCT : Fld := ⟨0x5000 + 0x50, 0, 4⟩
/-- BELOW_WARN of SUPPLY_STATUS: [7:0], RO, reset 0 (R438). -/
def SUPPLY_STATUS_BELOW_WARN : Fld := ⟨0x5000 + 0x50, 32, 8⟩
/-- BROWNOUT of SUPPLY_STATUS: [15:8], W1C, reset 0 (R438). -/
def SUPPLY_STATUS_BROWNOUT : Fld := ⟨0x5000 + 0x50, 40, 8⟩
/-- LOG_OVERFLOW of SUPPLY_STATUS: [16], W1C, reset 0 (R438). -/
def SUPPLY_STATUS_LOG_OVERFLOW : Fld := ⟨0x5000 + 0x50, 48, 1⟩
/-- PERST of RESET_CAUSE: [0], RO, reset 1 (R438). -/
def RESET_CAUSE_PERST : Fld := ⟨0x5000 + 0x58, 0, 1⟩
/-- SUPPLY of RESET_CAUSE: [1], RO, reset 0 (R438). -/
def RESET_CAUSE_SUPPLY : Fld := ⟨0x5000 + 0x58, 1, 1⟩
/-- THERMAL of RESET_CAUSE: [2], RO, reset 0 (R438). -/
def RESET_CAUSE_THERMAL : Fld := ⟨0x5000 + 0x58, 2, 1⟩
/-- RAIL of BROWNOUT_LOG: [2:0], RO, reset 0 (R438). -/
def BROWNOUT_LOG_RAIL  (k : Nat) : Fld := ⟨0x5000 + 0x80 + 0x10 * k, 0, 3⟩
/-- VALID of BROWNOUT_LOG: [3], W1C, reset 0 (R438). -/
def BROWNOUT_LOG_VALID  (k : Nat) : Fld := ⟨0x5000 + 0x80 + 0x10 * k, 3, 1⟩
/-- DURATION of BROWNOUT_LOG: [63:32], RO, reset 0 (R438). -/
def BROWNOUT_LOG_DURATION  (k : Nat) : Fld := ⟨0x5000 + 0x80 + 0x10 * k, 32, 32⟩
/-- CELL_TIME of BROWNOUT_TIME: [63:0], RO, reset 0 (R438). -/
def BROWNOUT_TIME_CELL_TIME  (k : Nat) : Fld := ⟨0x5000 + 0x88 + 0x10 * k, 0, 64⟩
/-- AGE_WARN of AGE_WARN: [31:0], RW, reset 16,000 (R438). -/
def AGE_WARN : Fld := ⟨0x5000 + 0x180, 0, 32⟩
/-- THROTTLE_c of THROTTLE: [4c+3:4c], RO, reset 0 (R438). -/
def THROTTLE_n (c : Nat) : Fld := ⟨0x5040 + 8 * (c / 16), 4 * (c % 16), 4⟩
/-- BROWNOUTS: RO, reset 0 (R434, R438). -/
def BROWNOUTS : Fld := ⟨0x5060, 0, 64⟩
/-- LATE_WAKES: RO, reset 0 (R426, R438). -/
def LATE_WAKES : Fld := ⟨0x5068, 0, 64⟩
/-- THROTTLE_STEPS: RO, reset 0 (R431, R438). -/
def THROTTLE_STEPS : Fld := ⟨0x5070, 0, 64⟩
/-- SUSPECT_EVENTS: RO, reset 0 (R429, R438). -/
def SUSPECT_EVENTS : Fld := ⟨0x5078, 0, 64⟩
/-- AGE_PPMc: RO, reset store, signed ppm (R435, R438). -/
def AGE_PPM (c : Nat) : Fld := ⟨0x5100 + 8 * (c / 2), 32 * (c % 2), 32⟩
/-- TEMPs: RO, reset 0, signed 1/16 °C (R438, R509). -/
def TEMP (s : Nat) : Fld := ⟨0x5200 + 8 * (s / 4), 16 * (s % 4), 16⟩

/-! ### Event controller (spec/21) -/

/-- CLR_COUNTS of EVC_CTRL: [0], WO, reset 0 (R450). -/
def EVC_CTRL_CLR_COUNTS : Fld := ⟨0x4000 + 0x0, 0, 1⟩
/-- LAST_SOURCE of EVC_STATUS: [5:0], RO, reset 0 (R450). -/
def EVC_STATUS_LAST_SOURCE : Fld := ⟨0x4000 + 0x0, 32, 6⟩
/-- BUSY of EVC_STATUS: [6], RO, reset 0 (R450). -/
def EVC_STATUS_BUSY : Fld := ⟨0x4000 + 0x0, 38, 1⟩
/-- CFG_ERR of EVC_STATUS: [7], RO, reset 0 (R450). -/
def EVC_STATUS_CFG_ERR : Fld := ⟨0x4000 + 0x0, 39, 1⟩
/-- DELIVERED of EV_DELIVERED: [63:0], RO, reset 0 (R450). -/
def EV_DELIVERED : Fld := ⟨0x4000 + 0x8, 0, 64⟩
/-- HEQ_DROPS of HEQ_DROPS: [63:0], RO, reset 0 (R450). -/
def HEQ_DROPS : Fld := ⟨0x4000 + 0x10, 0, 64⟩
/-- SIZE_LOG2 of HEQ_BASE: [3:0], RW, reset 4 (R450). -/
def HEQ_BASE_SIZE_LOG2  (k : Nat) : Fld := ⟨0x4000 + 0x40 + 0x20 * k, 0, 4⟩
/-- ENABLE of HEQ_BASE: [4], RW, reset 0 (R450). -/
def HEQ_BASE_ENABLE  (k : Nat) : Fld := ⟨0x4000 + 0x40 + 0x20 * k, 4, 1⟩
/-- BASE of HEQ_BASE: [63:12], RW, reset 0 (R450). -/
def HEQ_BASE  (k : Nat) : Fld := ⟨0x4000 + 0x40 + 0x20 * k, 12, 52⟩
/-- VECTOR of HEQ_IRQ: [10:0], RW, reset 0 (R450). -/
def HEQ_IRQ_VECTOR  (k : Nat) : Fld := ⟨0x4000 + 0x48 + 0x20 * k, 0, 11⟩
/-- IRQ_EN of HEQ_IRQ: [11], RW, reset 0 (R450). -/
def HEQ_IRQ_IRQ_EN  (k : Nat) : Fld := ⟨0x4000 + 0x48 + 0x20 * k, 11, 1⟩
/-- COUNT of HEQ_IRQ: [19:12], RW, reset 1 (R450). -/
def HEQ_IRQ_COUNT  (k : Nat) : Fld := ⟨0x4000 + 0x48 + 0x20 * k, 12, 8⟩
/-- TIME of HEQ_IRQ: [31:20], RW, reset 0 (R450). -/
def HEQ_IRQ_TIME  (k : Nat) : Fld := ⟨0x4000 + 0x48 + 0x20 * k, 20, 12⟩
/-- SEQ of HEQ_SEQ: [31:0], RO, reset 0 (R450). -/
def HEQ_SEQ  (k : Nat) : Fld := ⟨0x4000 + 0x48 + 0x20 * k, 32, 32⟩
/-- OUT_EN of EV_LINE: [0], RW, reset 0 (R450). -/
def EV_LINE_OUT_EN  (k : Nat) : Fld := ⟨0x4000 + 0xC0 + 8 * (k / 2), 0 + 32 * (k % 2), 1⟩
/-- PULSE of EV_LINE: [17:1], RW, reset 100 (R450). -/
def EV_LINE_PULSE  (k : Nat) : Fld := ⟨0x4000 + 0xC0 + 8 * (k / 2), 1 + 32 * (k % 2), 17⟩
/-- ASSERTED of EV_LINE: [18], RO, reset 0 (R450). -/
def EV_LINE_ASSERTED  (k : Nat) : Fld := ⟨0x4000 + 0xC0 + 8 * (k / 2), 18 + 32 * (k % 2), 1⟩
/-- OWN_DRIVE of EV_LINE: [19], RO, reset 0 (R450). -/
def EV_LINE_OWN_DRIVE  (k : Nat) : Fld := ⟨0x4000 + 0xC0 + 8 * (k / 2), 19 + 32 * (k % 2), 1⟩
/-- HOST_EN of SRC_CFG: [0], RW, reset 0 (R450). -/
def SRC_CFG_HOST_EN  (n : Nat) : Fld := ⟨0x4000 + 0x100 + 8 * (n / 2), 0 + 32 * (n % 2), 1⟩
/-- HEQ of SRC_CFG: [2:1], RW, reset 0 (R450). -/
def SRC_CFG_HEQ  (n : Nat) : Fld := ⟨0x4000 + 0x100 + 8 * (n / 2), 1 + 32 * (n % 2), 2⟩
/-- EV_EN of SRC_CFG: [3], RW, reset 0 (R450). -/
def SRC_CFG_EV_EN  (n : Nat) : Fld := ⟨0x4000 + 0x100 + 8 * (n / 2), 3 + 32 * (n % 2), 1⟩
/-- EV_LINE of SRC_CFG: [6:4], RW, reset 0 (R450). -/
def SRC_CFG_EV_LINE  (n : Nat) : Fld := ⟨0x4000 + 0x100 + 8 * (n / 2), 4 + 32 * (n % 2), 3⟩
/-- F of SRC_CFG: [7], RO, reset fuse (R450). -/
def SRC_CFG_F  (n : Nat) : Fld := ⟨0x4000 + 0x100 + 8 * (n / 2), 7 + 32 * (n % 2), 1⟩
/-- COUNT of SRC_STAT: [7:0], RO, reset 0 (R450). -/
def SRC_STAT_COUNT  (n : Nat) : Fld := ⟨0x4000 + 0x200 + 8 * (n / 2), 0 + 32 * (n % 2), 8⟩
/-- SAT of SRC_STAT: [8], W1C, reset 0 (R450). -/
def SRC_STAT_SAT  (n : Nat) : Fld := ⟨0x4000 + 0x200 + 8 * (n / 2), 8 + 32 * (n % 2), 1⟩

/-! ### Fuses and security (spec/22) -/

/-- VARIANT of FUSE_WORD: [1:0], RO, reset fuse (R472). -/
def FUSE_WORD_VARIANT : Fld := ⟨0x0 + 0x100, 0, 2⟩
/-- REVISION of FUSE_WORD: [15:8], RO, reset fuse (R472). -/
def FUSE_WORD_REVISION : Fld := ⟨0x0 + 0x100, 8, 8⟩
/-- DEVICE_ID of FUSE_WORD: [31:16], RO, reset fuse (R472). -/
def FUSE_WORD_DEVICE_ID : Fld := ⟨0x0 + 0x100, 16, 16⟩
/-- VENDOR_ID of FUSE_WORD: [47:32], RO, reset fuse (R472). -/
def FUSE_WORD_VENDOR_ID : Fld := ⟨0x0 + 0x100, 32, 16⟩
/-- SERIAL of SERIAL: [63:0], RO, reset fuse (R472). -/
def SERIAL : Fld := ⟨0x0 + 0x108, 0, 64⟩
/-- SEALED of SEAL_WORD: [0], RO, reset fuse (R472). -/
def SEAL_WORD_SEALED : Fld := ⟨0x0 + 0x110, 0, 1⟩
/-- COSIGN_REQ of SEAL_WORD: [1], RO, reset fuse (R472). -/
def SEAL_WORD_COSIGN_REQ : Fld := ⟨0x0 + 0x110, 1, 1⟩
/-- SUBSYS_VID of SEAL_WORD: [31:16], RO, reset fuse (R472). -/
def SEAL_WORD_SUBSYS_VID : Fld := ⟨0x0 + 0x110, 16, 16⟩
/-- SUBSYS_ID of SEAL_WORD: [47:32], RO, reset fuse (R472). -/
def SEAL_WORD_SUBSYS_ID : Fld := ⟨0x0 + 0x110, 32, 16⟩
/-- PROT_MAP of PROT_MAP: [63:0], RO, reset fuse (R472). -/
def PROT_MAP : Fld := ⟨0x0 + 0x118, 0, 64⟩
/-- VENDOR_KEY_DIGEST of VENDOR_KEY_DIGEST: [511:0], RO, reset fuse (R472). -/
def VENDOR_KEY_DIGEST (u : Nat) : Fld := ⟨0x0 + 0x140 + 8 * (u / 64), u % 64, 1⟩
/-- OEM_KEY_DIGEST of OEM_KEY_DIGEST: [511:0], RO, reset fuse (R472). -/
def OEM_KEY_DIGEST (u : Nat) : Fld := ⟨0x0 + 0x180 + 8 * (u / 64), u % 64, 1⟩
/-- BOOT_RESULT of SEC_STATUS: [2:0], RO, reset 0 (R472). -/
def SEC_STATUS_BOOT_RESULT : Fld := ⟨0x8000 + 0x0, 0, 3⟩
/-- BOOTED of SEC_STATUS: [3], RO, reset 0 (R472). -/
def SEC_STATUS_BOOTED : Fld := ⟨0x8000 + 0x0, 3, 1⟩
/-- DIR_COPY of SEC_STATUS: [4], RO, reset 0 (R472). -/
def SEC_STATUS_DIR_COPY : Fld := ⟨0x8000 + 0x0, 4, 1⟩
/-- CERT_OK of SEC_STATUS: [5], RO, reset 0 (R472). -/
def SEC_STATUS_CERT_OK : Fld := ⟨0x8000 + 0x0, 5, 1⟩
/-- DEBUG_USED of SEC_STATUS: [6], RO, reset 0 (R472). -/
def SEC_STATUS_DEBUG_USED : Fld := ⟨0x8000 + 0x0, 6, 1⟩
/-- CAL_DIRTY of SEC_STATUS: [7], RO, reset 0 (R472). -/
def SEC_STATUS_CAL_DIRTY : Fld := ⟨0x8000 + 0x0, 7, 1⟩
/-- UPDATING of SEC_STATUS: [8], RO, reset 0 (R472). -/
def SEC_STATUS_UPDATING : Fld := ⟨0x8000 + 0x0, 8, 1⟩
/-- RUNNING_SVN of RUNNING_SVN: [31:0], RO, reset 0 (R472). -/
def RUNNING_SVN : Fld := ⟨0x8000 + 0x8, 0, 32⟩
/-- IMAGE_LOG of IMAGE_LOG: [63:0], RO, reset 0 (R472). -/
def IMAGE_LOG : Fld := ⟨0x8000 + 0x10, 0, 64⟩
/-- SIGNATURES of SIGNATURES: [63:0], RO, reset 0 (R472). -/
def SIGNATURES : Fld := ⟨0x8000 + 0x18, 0, 64⟩
/-- FW_MEAS of FW_MEAS: [511:0], RO, reset 0 (R472). -/
def FW_MEAS (u : Nat) : Fld := ⟨0x8000 + 0x40 + 8 * (u / 64), u % 64, 1⟩

/-! ### Units (spec/23) -/

/-- ALL_READY of BRINGUP: [0], RO, reset 0 (R487). -/
def BRINGUP_ALL_READY : Fld := ⟨0x0 + 0x0, 0, 1⟩
/-- FULL_CAL of BRINGUP: [1], RO, reset 0 (R487). -/
def BRINGUP_FULL_CAL : Fld := ⟨0x0 + 0x0, 1, 1⟩
/-- READY_MS of BRINGUP: [31:16], RO, reset 0 (R487). -/
def BRINGUP_READY_MS : Fld := ⟨0x0 + 0x0, 16, 16⟩
/-- RESETS of RESETS: [63:0], RO, reset 0 (R487). -/
def RESETS : Fld := ⟨0x0 + 0x8, 0, 64⟩
/-- UNIT_FUSED of UNIT_FUSED: [127:0], RO, reset fuse (R487). -/
def UNIT_FUSED (u : Nat) : Fld := ⟨0x0 + 0x10 + 8 * (u / 64), u % 64, 1⟩
/-- UNIT_RETIRED of UNIT_RETIRED: [127:0], RO, reset store (R487). -/
def UNIT_RETIRED (u : Nat) : Fld := ⟨0x0 + 0x20 + 8 * (u / 64), u % 64, 1⟩
/-- UNIT_PRESENT of UNIT_PRESENT: [127:0], RO, reset fuse, store (R487). -/
def UNIT_PRESENT (u : Nat) : Fld := ⟨0x0 + 0x30 + 8 * (u / 64), u % 64, 1⟩
/-- UNIT_READY of UNIT_READY: [127:0], RO, reset 0 (R487). -/
def UNIT_READY (u : Nat) : Fld := ⟨0x0 + 0x40 + 8 * (u / 64), u % 64, 1⟩
/-- UNIT_FAILED of UNIT_FAILED: [127:0], RO, reset 0 (R487). -/
def UNIT_FAILED (u : Nat) : Fld := ⟨0x0 + 0x50 + 8 * (u / 64), u % 64, 1⟩
/-- UNIT_OFF of UNIT_OFF: [127:0], RO, reset 0 (R487). -/
def UNIT_OFF (u : Nat) : Fld := ⟨0x0 + 0x60 + 8 * (u / 64), u % 64, 1⟩
/-- PAIRS_RETIRED of DEGRADED: [15:0], RO, reset store (R487). -/
def DEGRADED_PAIRS_RETIRED : Fld := ⟨0x0 + 0x70, 0, 16⟩
/-- LANES_RETIRED of DEGRADED: [23:16], RO, reset store (R487). -/
def DEGRADED_LANES_RETIRED : Fld := ⟨0x0 + 0x70, 16, 8⟩
/-- PENDING of DEGRADED: [24], RO, reset 0 (R487). -/
def DEGRADED_PENDING : Fld := ⟨0x0 + 0x70, 24, 1⟩

/-! ### The quads: access masks and reset values (R8, R12)

`rw`, `w1c` and `wo` are the bits of the quad whose access type is RW, W1C or WO; every other bit is RO or reserved.
`reset` is the literal Reset column; the entries "fuse", "store" and "own number" are in `quadReset`. -/

/-- A row of the register map: `count` quads, the first at offset `off` of the block and the others `stride` apart. -/
structure QuadRow where
  off : Nat
  count : Nat
  stride : Nat
  rw : Nat
  w1c : Nat
  wo : Nat
  reset : Nat
  deriving DecidableEq, Repr

/-- Rows of the identity and fuse view window 0x0_0000. -/
def idRows : List QuadRow := [
  ⟨0x0, 1, 8, 0x0, 0x0, 0x0, 0x0⟩,
  ⟨0x8, 1, 8, 0x0, 0x0, 0x0, 0x0⟩,
  ⟨0x10, 1, 8, 0x0, 0x0, 0x0, 0x0⟩,
  ⟨0x18, 1, 8, 0x0, 0x0, 0x0, 0x0⟩,
  ⟨0x20, 1, 8, 0x0, 0x0, 0x0, 0x0⟩,
  ⟨0x28, 1, 8, 0x0, 0x0, 0x0, 0x0⟩,
  ⟨0x30, 1, 8, 0x0, 0x0, 0x0, 0x0⟩,
  ⟨0x38, 1, 8, 0x0, 0x0, 0x0, 0x0⟩,
  ⟨0x40, 1, 8, 0x0, 0x0, 0x0, 0x0⟩,
  ⟨0x48, 1, 8, 0x0, 0x0, 0x0, 0x0⟩,
  ⟨0x50, 1, 8, 0x0, 0x0, 0x0, 0x0⟩,
  ⟨0x58, 1, 8, 0x0, 0x0, 0x0, 0x0⟩,
  ⟨0x60, 1, 8, 0x0, 0x0, 0x0, 0x0⟩,
  ⟨0x68, 1, 8, 0x0, 0x0, 0x0, 0x0⟩,
  ⟨0x70, 1, 8, 0x0, 0x0, 0x0, 0x0⟩,
  ⟨0x100, 1, 8, 0x0, 0x0, 0x0, 0x0⟩,
  ⟨0x108, 1, 8, 0x0, 0x0, 0x0, 0x0⟩,
  ⟨0x110, 1, 8, 0x0, 0x0, 0x0, 0x0⟩,
  ⟨0x118, 1, 8, 0x0, 0x0, 0x0, 0x0⟩,
  ⟨0x140, 1, 8, 0x0, 0x0, 0x0, 0x0⟩,
  ⟨0x148, 1, 8, 0x0, 0x0, 0x0, 0x0⟩,
  ⟨0x150, 1, 8, 0x0, 0x0, 0x0, 0x0⟩,
  ⟨0x158, 1, 8, 0x0, 0x0, 0x0, 0x0⟩,
  ⟨0x160, 1, 8, 0x0, 0x0, 0x0, 0x0⟩,
  ⟨0x168, 1, 8, 0x0, 0x0, 0x0, 0x0⟩,
  ⟨0x170, 1, 8, 0x0, 0x0, 0x0, 0x0⟩,
  ⟨0x178, 1, 8, 0x0, 0x0, 0x0, 0x0⟩,
  ⟨0x180, 1, 8, 0x0, 0x0, 0x0, 0x0⟩,
  ⟨0x188, 1, 8, 0x0, 0x0, 0x0, 0x0⟩,
  ⟨0x190, 1, 8, 0x0, 0x0, 0x0, 0x0⟩,
  ⟨0x198, 1, 8, 0x0, 0x0, 0x0, 0x0⟩,
  ⟨0x1A0, 1, 8, 0x0, 0x0, 0x0, 0x0⟩,
  ⟨0x1A8, 1, 8, 0x0, 0x0, 0x0, 0x0⟩,
  ⟨0x1B0, 1, 8, 0x0, 0x0, 0x0, 0x0⟩,
  ⟨0x1B8, 1, 8, 0x0, 0x0, 0x0, 0x0⟩]

/-- Rows of the Watermark and security window 0x0_8000. -/
def secRows : List QuadRow := [
  ⟨0x0, 1, 8, 0x0, 0x0, 0x0, 0x0⟩,
  ⟨0x8, 1, 8, 0x0, 0x0, 0x0, 0x0⟩,
  ⟨0x10, 1, 8, 0x0, 0x0, 0x0, 0x0⟩,
  ⟨0x18, 1, 8, 0x0, 0x0, 0x0, 0x0⟩,
  ⟨0x40, 1, 8, 0x0, 0x0, 0x0, 0x0⟩,
  ⟨0x48, 1, 8, 0x0, 0x0, 0x0, 0x0⟩,
  ⟨0x50, 1, 8, 0x0, 0x0, 0x0, 0x0⟩,
  ⟨0x58, 1, 8, 0x0, 0x0, 0x0, 0x0⟩,
  ⟨0x60, 1, 8, 0x0, 0x0, 0x0, 0x0⟩,
  ⟨0x68, 1, 8, 0x0, 0x0, 0x0, 0x0⟩,
  ⟨0x70, 1, 8, 0x0, 0x0, 0x0, 0x0⟩,
  ⟨0x78, 1, 8, 0x0, 0x0, 0x0, 0x0⟩]

/-- Rows of the host interface window 0x0_1000. -/
def hiRows : List QuadRow := [
  ⟨0x0, 1, 8, 0x1, 0x1800000000, 0x2, 0x0⟩,
  ⟨0x8, 1, 8, 0xFFFFF000FFFFF, 0x0, 0x0, 0x186A0000003E8⟩,
  ⟨0x10, 1, 8, 0xFFFFFFFFFFFFF000, 0x0, 0x0, 0x0⟩,
  ⟨0x18, 1, 8, 0xFFFFFFFFFFFFF000, 0x0, 0x0, 0x0⟩,
  ⟨0x20, 1, 8, 0x0, 0x0, 0x0, 0x0⟩,
  ⟨0x40, 1, 8, 0x0, 0x0, 0x0, 0x0⟩,
  ⟨0x48, 1, 8, 0x0, 0x0, 0x0, 0x0⟩,
  ⟨0x50, 1, 8, 0x0, 0x0, 0x0, 0x0⟩,
  ⟨0x58, 1, 8, 0x0, 0x0, 0x0, 0x0⟩,
  ⟨0x60, 1, 8, 0x0, 0x0, 0x0, 0x0⟩,
  ⟨0x68, 1, 8, 0x0, 0x0, 0x0, 0x0⟩,
  ⟨0x70, 1, 8, 0x0, 0x0, 0x0, 0x0⟩,
  ⟨0x78, 1, 8, 0x0, 0x0, 0x0, 0x0⟩,
  ⟨0x80, 1, 8, 0x0, 0xFFFFFFFFFFFFFFFF, 0x0, 0x0⟩,
  ⟨0x88, 1, 8, 0x0, 0xFFFFFFFFFFFFFFFF, 0x0, 0x0⟩,
  ⟨0x90, 1, 8, 0x0, 0xFFFFFFFFFFFFFFFF, 0x0, 0x0⟩,
  ⟨0x98, 1, 8, 0x0, 0xFFFFFFFFFFFFFFFF, 0x0, 0x0⟩,
  ⟨0xA0, 1, 8, 0x0, 0xFFFFFFFFFFFFFFFF, 0x0, 0x0⟩,
  ⟨0xA8, 1, 8, 0x0, 0xFFFFFFFFFFFFFFFF, 0x0, 0x0⟩,
  ⟨0xB0, 1, 8, 0x0, 0xFFFFFFFFFFFFFFFF, 0x0, 0x0⟩,
  ⟨0xB8, 1, 8, 0x0, 0xFFFFFFFFFFFFFFFF, 0x0, 0x0⟩,
  ⟨0x400, 256, 16, 0xFFFFFFFFFFFFF0FF, 0x0, 0x0, 0x2⟩,
  ⟨0x408, 256, 16, 0xFFFFFFFFFFFFF01F, 0x0, 0x0, 0x2⟩,
  ⟨0x1400, 128, 8, 0xFFFFFFFFFFFFFFFF, 0x0, 0x0, 0x100000001000⟩]

/-- Rows of the DMA engine block. -/
def dmaRows : List QuadRow := [
  ⟨0x0, 1, 8, 0x0, 0x0, 0x0, 0x0⟩,
  ⟨0x8, 1, 8, 0x0, 0x0, 0x0, 0x0⟩,
  ⟨0x10, 1, 8, 0x0, 0x0, 0x0, 0x0⟩,
  ⟨0x18, 1, 8, 0x0, 0x0, 0x0, 0x0⟩,
  ⟨0x20, 1, 8, 0x0, 0x0, 0x0, 0x0⟩,
  ⟨0x28, 1, 8, 0x0, 0x0, 0x0, 0x0⟩,
  ⟨0x30, 1, 8, 0x0, 0x0, 0x0, 0x0⟩]

/-- Rows of the DMA_COMMON (0x0_2C00) and PREEMPTS (0x0_9068), absolute offsets. -/
def mixRows : List QuadRow := [
  ⟨0x2C00, 1, 8, 0xFFFF, 0x0, 0x10000, 0x64⟩,
  ⟨0x9068, 1, 8, 0x0, 0x0, 0x0, 0x0⟩]

/-- Rows of the memory manager window 0x0_3000. -/
def mmuRows : List QuadRow := [
  ⟨0x0, 1, 8, 0x0, 0x0, 0x0, 0x0⟩,
  ⟨0x8, 1, 8, 0xFFFF, 0x200000000000, 0x10000, 0x64⟩,
  ⟨0x10, 1, 8, 0xFF01, 0x0, 0x0, 0x1801⟩,
  ⟨0x18, 1, 8, 0x0, 0x1000000000, 0x0, 0x0⟩,
  ⟨0x20, 1, 8, 0x0, 0x0, 0x0, 0x0⟩,
  ⟨0x28, 1, 8, 0x0, 0x0, 0x0, 0x0⟩,
  ⟨0x30, 1, 8, 0x0, 0x0, 0x0, 0x0⟩,
  ⟨0x38, 1, 8, 0x0, 0x0, 0x0, 0x0⟩,
  ⟨0x40, 1, 8, 0x0, 0x0, 0x0, 0x0⟩,
  ⟨0x48, 1, 8, 0x0, 0x0, 0x0, 0x0⟩,
  ⟨0x50, 1, 8, 0x0, 0x0, 0x0, 0x0⟩,
  ⟨0x58, 1, 8, 0x0, 0x0, 0x0, 0x0⟩,
  ⟨0x60, 1, 8, 0x0, 0x0, 0x0, 0x0⟩,
  ⟨0x68, 1, 8, 0x0, 0x0, 0x0, 0x0⟩,
  ⟨0x100, 1, 8, 0x0, 0x0, 0x0, 0x0⟩,
  ⟨0x200, 64, 8, 0x1FFFFFFFFF, 0x0, 0x0, 0x0⟩,
  ⟨0x400, 16, 32, 0x0, 0x0, 0x0, 0x0⟩,
  ⟨0x408, 16, 32, 0x0, 0x8000000, 0x0, 0x0⟩,
  ⟨0x410, 16, 32, 0x0, 0x0, 0x0, 0x0⟩,
  ⟨0x418, 16, 32, 0x0, 0x0, 0x0, 0x0⟩]

/-- Rows of the event controller window 0x0_4000. -/
def evRows : List QuadRow := [
  ⟨0x0, 1, 8, 0x0, 0x0, 0x1, 0x0⟩,
  ⟨0x8, 1, 8, 0x0, 0x0, 0x0, 0x0⟩,
  ⟨0x10, 1, 8, 0x0, 0x0, 0x0, 0x0⟩,
  ⟨0x40, 4, 32, 0xFFFFFFFFFFFFF01F, 0x0, 0x0, 0x4⟩,
  ⟨0x48, 4, 32, 0xFFFFFFFF, 0x0, 0x0, 0x1000⟩,
  ⟨0xC0, 4, 8, 0x3FFFF0003FFFF, 0x0, 0x0, 0xC8000000C8⟩,
  ⟨0x100, 32, 8, 0x7F0000007F, 0x0, 0x0, 0x0⟩,
  ⟨0x200, 32, 8, 0x0, 0x10000000100, 0x0, 0x0⟩]

/-- Rows of the power and thermal window 0x0_5000. -/
def pwrRows : List QuadRow := [
  ⟨0x0, 1, 8, 0xFFFFFFF, 0x0, 0x0, 0xAC⟩,
  ⟨0x8, 1, 8, 0xFFFFF, 0x0, 0x0, 0xC8⟩,
  ⟨0x10, 1, 8, 0x0, 0x0, 0x0, 0x0⟩,
  ⟨0x18, 1, 8, 0xFFF, 0x0, 0x0, 0x564⟩,
  ⟨0x20, 1, 8, 0x0, 0xFFFFFFFFFFFFFFFF, 0x0, 0x0⟩,
  ⟨0x28, 1, 8, 0x0, 0xFFFFFFFFFF, 0x0, 0x0⟩,
  ⟨0x40, 2, 8, 0x0, 0x0, 0x0, 0x0⟩,
  ⟨0x50, 1, 8, 0xF, 0x1FF0000000000, 0x0, 0x5⟩,
  ⟨0x58, 1, 8, 0x0, 0x0, 0x0, 0x1⟩,
  ⟨0x60, 4, 8, 0x0, 0x0, 0x0, 0x0⟩,
  ⟨0x80, 4, 16, 0x0, 0x8, 0x0, 0x0⟩,
  ⟨0x88, 4, 16, 0x0, 0x0, 0x0, 0x0⟩,
  ⟨0x100, 16, 8, 0x0, 0x0, 0x0, 0x0⟩,
  ⟨0x180, 1, 8, 0xFFFFFFFF, 0x0, 0x0, 0x3E80⟩,
  ⟨0x200, 26, 8, 0x0, 0x0, 0x0, 0x0⟩]

/-- Rows of the Felt window 0x0_6000. -/
def feltRows : List QuadRow := [
  ⟨0x0, 1, 8, 0x3FFFFFFFFFFFF, 0x0, 0x0, 0x2010000⟩,
  ⟨0x8, 1, 8, 0xFFFFF00000000, 0x0, 0x1, 0x3E800000000⟩,
  ⟨0x10, 1, 8, 0xFFFFFFFFFFFFFFFF, 0x0, 0x0, 0x0⟩,
  ⟨0x18, 1, 8, 0x0, 0x80000, 0x0, 0x0⟩,
  ⟨0x20, 1, 8, 0x0, 0x0, 0x0, 0x0⟩,
  ⟨0x28, 1, 8, 0x0, 0x0, 0x0, 0x0⟩,
  ⟨0x30, 1, 8, 0x0, 0x0, 0x0, 0x0⟩,
  ⟨0x40, 1, 8, 0x0, 0x0, 0x0, 0x0⟩,
  ⟨0x48, 1, 8, 0x0, 0x0, 0x0, 0x0⟩,
  ⟨0x50, 1, 8, 0x0, 0x0, 0x0, 0x0⟩,
  ⟨0x58, 1, 8, 0x0, 0x0, 0x0, 0x0⟩,
  ⟨0x60, 1, 8, 0x0, 0x0, 0x0, 0x0⟩]

/-- Rows of the Felt port block. -/
def portRows : List QuadRow := [
  ⟨0x0, 1, 8, 0x1, 0x20000000000000, 0x2, 0x0⟩,
  ⟨0x8, 1, 8, 0x0, 0x0, 0x0, 0x0⟩,
  ⟨0x10, 1, 8, 0x0, 0x0, 0x0, 0x0⟩,
  ⟨0x18, 1, 8, 0x0, 0x0, 0x0, 0x0⟩,
  ⟨0x20, 1, 8, 0x0, 0x0, 0x0, 0x0⟩,
  ⟨0x28, 1, 8, 0x0, 0x0, 0x0, 0x0⟩,
  ⟨0x30, 1, 8, 0x0, 0x0, 0x0, 0x0⟩]

/-- Rows of the serial port window 0x0_7000. -/
def serRows : List QuadRow := [
  ⟨0x0, 1, 8, 0x0, 0x0, 0x0, 0x0⟩,
  ⟨0x8, 1, 8, 0x0, 0x0, 0x0, 0x0⟩,
  ⟨0x10, 1, 8, 0x0, 0x0, 0x0, 0x0⟩,
  ⟨0x20, 1, 8, 0x0, 0x10, 0x0, 0x0⟩,
  ⟨0x28, 1, 8, 0x0, 0x0, 0x0, 0x0⟩,
  ⟨0x30, 1, 8, 0x0, 0x0, 0x0, 0x0⟩,
  ⟨0x38, 1, 8, 0x0, 0x0, 0x0, 0x0⟩,
  ⟨0x100, 1, 8, 0xFFFF0001, 0x6000000000, 0x0, 0x1⟩,
  ⟨0x108, 1, 8, 0x0, 0x0, 0x0, 0x0⟩,
  ⟨0x110, 1, 8, 0x0, 0x0, 0x0, 0x0⟩,
  ⟨0x118, 1, 8, 0x0, 0x0, 0x0, 0x0⟩,
  ⟨0x120, 1, 8, 0x0, 0x0, 0x0, 0x0⟩]

/-- Rows of the population window 0x0_9000. -/
def popRows : List QuadRow := [
  ⟨0x0, 1, 8, 0x0, 0x0, 0x1, 0x0⟩,
  ⟨0x8, 1, 8, 0x1FFFFFFFF, 0x0, 0x0, 0x10000⟩,
  ⟨0x10, 1, 8, 0x0, 0x2000000, 0x0, 0x0⟩,
  ⟨0x18, 1, 8, 0x0, 0x0, 0x0, 0x0⟩,
  ⟨0x20, 1, 8, 0x0, 0x0, 0x0, 0x0⟩,
  ⟨0x28, 1, 8, 0x0, 0x0, 0x0, 0x0⟩,
  ⟨0x30, 1, 8, 0x0, 0x0, 0x0, 0x0⟩,
  ⟨0x38, 1, 8, 0x0, 0x0, 0x0, 0x0⟩,
  ⟨0x40, 1, 8, 0x0, 0x0, 0x0, 0x0⟩,
  ⟨0x48, 1, 8, 0x0, 0x0, 0x0, 0x0⟩,
  ⟨0x50, 1, 8, 0x0, 0x0, 0x0, 0x0⟩,
  ⟨0x58, 1, 8, 0x0, 0x0, 0x0, 0x0⟩,
  ⟨0x60, 1, 8, 0x0, 0x0, 0x0, 0x0⟩]

/-- Rows of the Headbox window 0x0_A000. -/
def hbRows : List QuadRow := [
  ⟨0x0, 1, 8, 0x1, 0x0, 0x2, 0x1⟩,
  ⟨0x8, 1, 8, 0x0, 0x0, 0x0, 0x0⟩,
  ⟨0x10, 1, 8, 0x0, 0x0, 0x0, 0x0⟩,
  ⟨0x18, 1, 8, 0x0, 0x0, 0x0, 0x0⟩,
  ⟨0x20, 1, 8, 0x0, 0x0, 0x0, 0x0⟩]

/-- Rows of the broadcast group block. -/
def bgRows : List QuadRow := [
  ⟨0x0, 1, 8, 0x0, 0x0, 0x0, 0x0⟩,
  ⟨0x8, 1, 8, 0x0, 0x0, 0x0, 0x0⟩,
  ⟨0x10, 1, 8, 0x0, 0x0, 0x0, 0x0⟩,
  ⟨0x18, 1, 8, 0x0, 0x0, 0x0, 0x0⟩,
  ⟨0x20, 1, 8, 0x0, 0x0, 0x0, 0x0⟩,
  ⟨0x28, 1, 8, 0x0, 0x0, 0x0, 0x0⟩,
  ⟨0x30, 1, 8, 0x0, 0x0, 0x0, 0x0⟩,
  ⟨0x38, 1, 8, 0x0, 0x0, 0x0, 0x0⟩]

/-- Rows of the cluster window, outside the pin blocks. -/
def clRows : List QuadRow := [
  ⟨0x0, 1, 8, 0xFFFFFFFF, 0x0, 0x0, 0x30000000⟩,
  ⟨0x8, 1, 8, 0x0, 0x4, 0x0, 0x0⟩,
  ⟨0x10, 1, 8, 0x0, 0x0, 0x0, 0x0⟩,
  ⟨0x18, 1, 8, 0x0, 0x0, 0x0, 0x0⟩,
  ⟨0x100, 1, 8, 0x1F3F, 0x0, 0x0, 0x0⟩,
  ⟨0x108, 1, 8, 0x1FFFFFFFFFF, 0x0, 0x0, 0x186A0⟩,
  ⟨0x110, 1, 8, 0x3, 0x0, 0x0, 0x0⟩,
  ⟨0x118, 5, 8, 0xFFFFFFFFFF, 0x0, 0x0, 0x0⟩,
  ⟨0x200, 32, 8, 0xFFFFFFFF, 0x0, 0x0, 0x0⟩,
  ⟨0x1C00, 1, 8, 0x1, 0x400000000, 0x0, 0x300000001⟩,
  ⟨0x1C08, 1, 8, 0x0, 0x0, 0x0, 0x0⟩,
  ⟨0x1C10, 1, 8, 0x0, 0xFFFFFFFF, 0x0, 0x0⟩,
  ⟨0x1C18, 1, 8, 0x0, 0x0, 0x0, 0x0⟩,
  ⟨0x1C20, 1, 8, 0x0, 0x0, 0x0, 0x0⟩]

/-- Rows of the pin block. -/
def pinRows : List QuadRow := [
  ⟨0x0, 1, 8, 0x7F, 0x62000000000, 0x0, 0x8⟩,
  ⟨0x8, 1, 8, 0xFFFFFFFFFFFFFFFF, 0x0, 0x0, 0xFFE91CA000000000⟩,
  ⟨0x10, 1, 8, 0xFFFFFFFFFF, 0x0, 0x0, 0xDF8475800⟩,
  ⟨0x18, 2, 40, 0xFFFFFFFFFFFFFFFF, 0x0, 0x0, 0x0⟩,
  ⟨0x20, 2, 40, 0xFFFFFFFFFFFFFFFF, 0x0, 0x0, 0x0⟩,
  ⟨0x28, 2, 40, 0xFFFFFFFFFFFFFFFF, 0x0, 0x0, 0x0⟩,
  ⟨0x30, 2, 40, 0xFFFFFFFFFF, 0x0, 0x0, 0x0⟩,
  ⟨0x38, 2, 40, 0xFFFFFFFFFF, 0x0, 0x0, 0x0⟩,
  ⟨0x68, 1, 8, 0xFFFFFFFF00000F7F, 0x0, 0x0, 0x0⟩,
  ⟨0x70, 1, 8, 0xFFFFFFFFFF, 0x0, 0x0, 0x0⟩,
  ⟨0x78, 1, 8, 0xFFFFFFFFFFFFFFFF, 0x0, 0x0, 0xFFE91CA000000000⟩]

/-- Rows of the sequencer window, outside the queue blocks. -/
def seqRows : List QuadRow := [
  ⟨0x0, 1, 8, 0x1, 0x0, 0x2, 0x1⟩,
  ⟨0x8, 1, 8, 0x0, 0x200000, 0x0, 0x0⟩,
  ⟨0x10, 1, 8, 0x0, 0x400000000, 0x0, 0x0⟩,
  ⟨0x18, 1, 8, 0x0, 0x0, 0x0, 0x0⟩,
  ⟨0x20, 1, 8, 0x0, 0x0, 0x0, 0x0⟩,
  ⟨0x28, 1, 8, 0x0, 0x0, 0x0, 0x0⟩,
  ⟨0x40, 4, 16, 0xFFFFFFFFFFFFFFFF, 0x0, 0x0, 0x0⟩,
  ⟨0x48, 4, 16, 0xFFFFFFFFFFFFFFFF, 0x0, 0x0, 0x0⟩,
  ⟨0x80, 1, 8, 0x0, 0x0, 0x0, 0x0⟩,
  ⟨0x88, 1, 8, 0x0, 0x0, 0x0, 0x0⟩,
  ⟨0x90, 1, 8, 0x0, 0x0, 0x0, 0x0⟩,
  ⟨0x98, 1, 8, 0x0, 0x0, 0x0, 0x0⟩,
  ⟨0xA0, 1, 8, 0x0, 0x0, 0x0, 0x0⟩,
  ⟨0xA8, 1, 8, 0x0, 0x0, 0x0, 0x0⟩,
  ⟨0xB0, 1, 8, 0x0, 0x0, 0x0, 0x0⟩,
  ⟨0xB8, 1, 8, 0x0, 0x0, 0x0, 0x0⟩,
  ⟨0xC0, 1, 8, 0x0, 0x0, 0x1, 0x0⟩,
  ⟨0xC8, 1, 8, 0x0, 0x1F, 0x0, 0x0⟩,
  ⟨0x100, 1, 8, 0xF, 0x0, 0x0, 0x1⟩,
  ⟨0x108, 1, 8, 0xFFFFFFFFFFFFFFFF, 0x0, 0x0, 0x0⟩,
  ⟨0x110, 1, 8, 0x0, 0x0, 0x0, 0x0⟩,
  ⟨0x140, 8, 8, 0xFFF, 0x0, 0x0, 0x3C00000⟩,
  ⟨0x180, 8, 8, 0xBFBFBFBFBFBFBFBF, 0x0, 0x0, 0x0⟩,
  ⟨0x1C0, 8, 8, 0x0, 0x0, 0x0, 0x0⟩,
  ⟨0x200, 1, 8, 0x0, 0x400, 0x0, 0x0⟩,
  ⟨0x208, 1, 8, 0x0, 0x0, 0x0, 0x0⟩,
  ⟨0x210, 1, 8, 0x0, 0x0, 0x0, 0x0⟩,
  ⟨0x218, 1, 8, 0x0, 0x0, 0x0, 0x0⟩,
  ⟨0x220, 1, 8, 0x0, 0x0, 0x0, 0x0⟩,
  ⟨0x228, 1, 8, 0x0, 0x0, 0x0, 0x0⟩,
  ⟨0x240, 1, 8, 0x0, 0x10000, 0x0, 0x0⟩,
  ⟨0x248, 1, 8, 0x0, 0x0, 0x0, 0x0⟩,
  ⟨0x250, 1, 8, 0x0, 0x0, 0x0, 0x0⟩]

/-- Rows of the Ream queue block. -/
def rqRows : List QuadRow := [
  ⟨0x0, 1, 8, 0xFFFFFFFFFFFF, 0x0, 0x0, 0x0⟩,
  ⟨0x8, 1, 8, 0x7FFFFFFF0000011F, 0x0, 0x0, 0xC⟩,
  ⟨0x10, 1, 8, 0x0, 0x0, 0x0, 0x0⟩,
  ⟨0x18, 1, 8, 0x0, 0x0, 0x0, 0x0⟩,
  ⟨0x20, 1, 8, 0x0, 0x0, 0x0, 0x0⟩,
  ⟨0x28, 1, 8, 0x0, 0xA, 0x0, 0x0⟩,
  ⟨0x30, 1, 8, 0x0, 0x0, 0x0, 0x0⟩]

/-- Rows of the TMU block. -/
def tmuRows : List QuadRow := [
  ⟨0x0, 1, 8, 0xFFFFFFFF, 0xC000000000, 0x0, 0x1800000200⟩,
  ⟨0x8, 2, 8, 0xFFFFFFFF03FFFFFF, 0x0, 0x0, 0xA00⟩,
  ⟨0x18, 1, 8, 0xFFFFFFFF, 0x0, 0x0, 0x0⟩,
  ⟨0x20, 1, 8, 0xFFFFFFFFFFFFFFFF, 0x0, 0x0, 0x0⟩,
  ⟨0x28, 1, 8, 0xFFFFFFFFFFFFFFFF, 0x0, 0x0, 0x0⟩,
  ⟨0x30, 1, 8, 0x0, 0x0, 0x0, 0x0⟩,
  ⟨0x38, 1, 8, 0x0, 0x0, 0x0, 0x0⟩,
  ⟨0x40, 1, 8, 0x0, 0x0, 0x0, 0x0⟩]

/-- Rows of the AWG block. -/
def awgRows : List QuadRow := [
  ⟨0x0, 1, 8, 0x7FFFFF, 0x7D800000000, 0x0, 0x1CC02⟩,
  ⟨0x8, 1, 8, 0xFFFFFFFFFFFF, 0x0, 0x0, 0x0⟩,
  ⟨0x10, 1, 8, 0xFFFF0001FFFF, 0x0, 0x0, 0x1⟩,
  ⟨0x18, 1, 8, 0xFFFFFFFFFFFF, 0x0, 0x0, 0x0⟩,
  ⟨0x20, 1, 8, 0x0, 0x0, 0x0, 0x0⟩,
  ⟨0x28, 1, 8, 0x0, 0x0, 0x0, 0x0⟩,
  ⟨0x30, 1, 8, 0x0, 0x0, 0x0, 0x0⟩,
  ⟨0x38, 1, 8, 0x0, 0x0, 0x0, 0x0⟩,
  ⟨0x40, 1, 8, 0x0, 0x0, 0x0, 0x0⟩,
  ⟨0x48, 1, 8, 0x0, 0x0, 0x0, 0x0⟩]

/-- Rows of the digitizer block. -/
def dgRows : List QuadRow := [
  ⟨0x0, 1, 8, 0x3FFFFFF, 0x135000000000, 0x0, 0x8⟩,
  ⟨0x8, 1, 8, 0xFFFFFFFFFFFFFFFF, 0x0, 0x0, 0x1000100000000⟩,
  ⟨0x10, 4, 16, 0xFFFFFFFF0000000F, 0x0, 0x0, 0x0⟩,
  ⟨0x18, 4, 16, 0xFFFFFFFFFFFFFFFF, 0x0, 0x0, 0x0⟩,
  ⟨0x50, 1, 8, 0xFFFFFFFFFFFFFFFF, 0x0, 0x0, 0x0⟩,
  ⟨0x58, 1, 8, 0x1FFFFFFFFFFFFF, 0x0, 0x0, 0xC000000000000⟩,
  ⟨0x60, 1, 8, 0x0, 0x0, 0x0, 0x0⟩,
  ⟨0x68, 1, 8, 0x0, 0x0, 0x0, 0x0⟩,
  ⟨0x70, 1, 8, 0xFFFFFFFFFFFFFFFF, 0x0, 0x0, 0x0⟩,
  ⟨0x78, 1, 8, 0x0, 0x0, 0x0, 0x0⟩,
  ⟨0x80, 1, 8, 0x0, 0x0, 0x0, 0x0⟩,
  ⟨0x88, 1, 8, 0x0, 0x0, 0x0, 0x0⟩,
  ⟨0x90, 1, 8, 0x0, 0x0, 0x0, 0x0⟩,
  ⟨0x98, 1, 8, 0x0, 0x0, 0x0, 0x0⟩]

/-- Rows of the DPS block. -/
def dpsRows : List QuadRow := [
  ⟨0x0, 1, 8, 0xFFF, 0x82000000000, 0x0, 0x0⟩,
  ⟨0x8, 1, 8, 0x7FFFFFFFFFFFFFF, 0x0, 0x0, 0x140271000000000⟩,
  ⟨0x10, 1, 8, 0xFFFFFFFFFFFFFFFF, 0x0, 0x0, 0x3E8000003E8⟩,
  ⟨0x18, 1, 8, 0xFFFFFFFFFFFFFFFF, 0x0, 0x0, 0xFFFE7960000F4240⟩,
  ⟨0x20, 1, 8, 0xFFFFFFFFFFFF, 0x0, 0x0, 0xFC400400⟩,
  ⟨0x28, 1, 8, 0xFFFFFFFFFFFFFFFF, 0x0, 0x0, 0x632EA000000000⟩,
  ⟨0x30, 1, 8, 0xFFFFFFFFFFFFFFFF, 0x0, 0x0, 0xF4240FFFE7960⟩,
  ⟨0x38, 1, 8, 0x3FFFFF, 0x0, 0x0, 0x21064D⟩,
  ⟨0x40, 1, 8, 0x0, 0x0, 0x0, 0x0⟩,
  ⟨0x48, 1, 8, 0x0, 0x0, 0x0, 0x0⟩,
  ⟨0x50, 1, 8, 0x0, 0x0, 0x0, 0x0⟩,
  ⟨0x58, 1, 8, 0x0, 0x0, 0x0, 0x0⟩]

/-- Rows of the switching-group registers 0x7_C000. -/
def swgRows : List QuadRow := [
  ⟨0x0, 1, 8, 0x3FFFFF, 0x0, 0x0, 0xF4240⟩,
  ⟨0x8, 1, 8, 0xFF003FFFFF, 0x0, 0x0, 0xF4240⟩]

/-- The row of a block that holds the quad at offset `off`. -/
def findRow (rows : List QuadRow) (off : Nat) : Option QuadRow :=
  rows.find? (fun r => decide (r.off ≤ off) && decide ((off - r.off) % r.stride = 0) && decide ((off - r.off) / r.stride < r.count))

/-- The row of the quad at BAR0 offset `a` (a multiple of 8): the windows of R506. None for a reserved offset (R507). -/
def rowOf (a : Nat) : Option QuadRow :=
  if a < 0x1000 then findRow idRows a
  else if a < 0x3000 then
    if a = 0x2C00 then findRow mixRows a
    else if 0x2800 ≤ a ∧ a < 0x2C00 then findRow dmaRows ((a - 0x2800) % 0x80)
    else findRow hiRows (a - 0x1000)
  else if a < 0x4000 then findRow mmuRows (a - 0x3000)
  else if a < 0x5000 then findRow evRows (a - 0x4000)
  else if a < 0x6000 then findRow pwrRows (a - 0x5000)
  else if a < 0x7000 then
    if 0x6100 ≤ a ∧ a < 0x6200 then findRow portRows ((a - 0x6100) % 0x40) else findRow feltRows (a - 0x6000)
  else if a < 0x8000 then findRow serRows (a - 0x7000)
  else if a < 0x9000 then findRow secRows (a - 0x8000)
  else if a < 0xA000 then (if a = 0x9068 then findRow mixRows a else findRow popRows (a - 0x9000))
  else if a < 0xB000 then
    if 0xA100 ≤ a ∧ a < 0xA500 then findRow bgRows ((a - 0xA100) % 0x40) else findRow hbRows (a - 0xA000)
  else if a < 0x10000 then none
  else if a < 0x50000 then
    let o := (a - 0x10000) % 0x2000
    if 0x800 ≤ o ∧ o < 0x1880 then findRow pinRows ((o - 0x800) % 0x80) else findRow clRows o
  else if a < 0x70000 then
    let o := (a - 0x50000) % 0x800
    if 0x400 ≤ o ∧ o < 0x600 then findRow rqRows ((o - 0x400) % 0x40) else findRow seqRows o
  else if a < 0x74000 then findRow tmuRows ((a - 0x70000) % 0x100)
  else if a < 0x76000 then findRow awgRows ((a - 0x74000) % 0x100)
  else if a < 0x78000 then findRow dgRows ((a - 0x76000) % 0x100)
  else if a < 0x7C000 then findRow dpsRows ((a - 0x78000) % 0x100)
  else if a < 0x7C010 then findRow swgRows (a - 0x7C000)
  else none

end Sys2Proof.Machine.Reg
end

