-- ==== Sys2Proof/Machine/Sparse.lean ====
section
/-! DEFINITION. Sparse tables: a list of (key, value) pairs, keys strictly rising. Two kinds of use: tables of
records (an unlisted key holds the record's reset value), and tables in canonical form (registers, memory), in which
no listed value equals what an unlisted key reads as. -/

namespace Sys2Proof.Machine

open Sys2Proof

/-- A sparse table from numbers to values, keys strictly rising. -/
abbrev SMap (β : Type) := List (Nat × β)

/-- The listed value at key `k`, if any. -/
def SMap.find {β : Type} : SMap β → Nat → Option β
  | [], _ => none
  | (k', v) :: m, k => if k = k' then some v else SMap.find m k

/-- The value at key `k`, `d` where the key is not listed. -/
def SMap.get {β : Type} (d : β) (m : SMap β) (k : Nat) : β := (SMap.find m k).getD d

/-- The table with value `v` listed at key `k`. -/
def SMap.put {β : Type} : SMap β → Nat → β → SMap β
  | [], k, v => [(k, v)]
  | (k', v') :: m, k, v =>
    if k < k' then (k, v) :: (k', v') :: m
    else if k = k' then (k, v) :: m
    else (k', v') :: SMap.put m k v

/-- The table with key `k` not listed. -/
def SMap.del {β : Type} : SMap β → Nat → SMap β
  | [], _ => []
  | (k', v') :: m, k => if k = k' then SMap.del m k else (k', v') :: SMap.del m k

/-- Canonical write: lists `v` at `k`, or unlists `k` where `v` is what an unlisted `k` reads as. -/
def SMap.set {β : Type} [DecidableEq β] (d : β) (m : SMap β) (k : Nat) (v : β) : SMap β :=
  if v = d then SMap.del m k else SMap.put m k v

/-- The keys rise strictly and every key is at least `lo`. -/
def SMap.sortedFrom {β : Type} : Nat → SMap β → Bool
  | _, [] => true
  | lo, (k, _) :: m => decide (lo ≤ k) && SMap.sortedFrom (k + 1) m

/-- The keys rise strictly. -/
def SMap.sorted {β : Type} (m : SMap β) : Bool := SMap.sortedFrom 0 m

/-- Canonical form: strictly rising keys, no value equal to what its unlisted key reads as. -/
def SMap.canonical {β : Type} [DecidableEq β] (d : Nat → β) (m : SMap β) : Bool :=
  SMap.sorted m && m.all (fun kv => decide (kv.2 ≠ d kv.1))

end Sys2Proof.Machine
end

