-- ==== Sys2Proof/Machine/Types1.lean ====
section
/-! DEFINITION. Records of the device-wide groups of State: fuses, host interface, event controller, memory manager.
Field defaults are the values at reset. -/

namespace Sys2Proof.Machine

open Sys2Proof

/-- The OEM fuse bank (R451). Unburned fuses are 0 (R453). -/
structure OemBank where
  keyDigest : Nat := 0
  cosignReq : Bool := false
  subsysVid : Nat := 0
  subsysId : Nat := 0
  protMap : Nat := 0
  isSealed : Bool := false
  deriving DecidableEq, Repr

/-- What was loaded from the fuse banks at the last release of PERST# (R12, R452, R456 step 1). -/
structure FuseView where
  /-- VARIANT: 0 EVZ32-FC, 1 EVZ24-FC, 2 EVZ16-FC (R451). -/
  variant : Nat := 0
  oem : OemBank := {}
  deriving DecidableEq, Repr

/-- A host command as fetched: its submission queue, its 64-byte entry (R349), and how many hot resets came before its
fetch: what an earlier one completes with is discarded (R342). -/
structure Cmd where
  queue : Nat
  entry : Entry
  epoch : Nat := 0
  deriving DecidableEq, Repr

/-- A completion entry before it is written to its queue (R352). `counted`: moderation has counted it (R356). -/
structure Completion where
  cq : Nat
  cmd : Cmd
  status : Nat
  result : Nat
  cellTime : Nat
  counted : Bool := false
  waited : Bool := false
  deriving DecidableEq, Repr

/-- Moderation of one completion or event queue: entries not yet signalled, and whether the timer runs (R354, R446). -/
structure Moderation where
  unsignalled : Nat := 0
  timer : Bool := false
  deriving DecidableEq, Repr

/-- One submission queue: positions, the SQ_TAIL last taken, entries fetched and not yet dispatched (R344 to R351). -/
structure SubQueue where
  head : Nat := 0
  tail : Nat := 0
  /-- STATE of the status record: 0 disabled, 1 running, 2 stopped by error. -/
  state : Nat := 0
  error : Nat := 0
  deriving DecidableEq, Repr

/-- One completion queue: slot written next, CQ_HEAD last taken, phase written, moderation (R344, R345, R352, R354). -/
structure ComQueue where
  tail : Nat := 0
  head : Nat := 0
  phase : Nat := 1
  modr : Moderation := {}
  deriving DecidableEq, Repr

/-- The host interface outside its register window (R338 to R358). -/
structure HostIf where
  sq : SMap SubQueue := []
  cq : SMap ComQueue := []
  /-- The completion buffer of 1,024 entries, oldest first (R353). -/
  buffer : List Completion := []
  /-- Completions that units hold while the buffer is full (R353). -/
  unitHeld : List Completion := []
  /-- Entries checked and accepted by their target unit, not yet acted on (R347). -/
  dispatched : List Cmd := []
  /-- Commands that a unit has accepted and that have not completed, by `unitNumber` (R347). -/
  accepted : SMap Nat := []
  /-- The round-robin of fetches (R347): the queue served first in the last round and in this one, the queue whose turn it
  is with the entries it has taken, and the queues whose next entry has found its target full in this round. -/
  lastFirst : Option Nat := none
  thisFirst : Option Nat := none
  turn : Option (Nat × Nat) := none
  blocked : List Nat := []
  /-- Queues whose status record has changed since it was last written (R348). -/
  statusDue : List Nat := []
  /-- Hot resets so far: a command fetched before one has its completion discarded (R342). -/
  epoch : Nat := 0
  busMaster : Bool := false
  msixEnable : Bool := false
  functionMask : Bool := false
  atsEnable : Bool := false
  priEnable : Bool := false
  /-- Page request groups the host allocated in the PRI capability (R310). -/
  priAllocation : Nat := 0
  pmeEnable : Bool := false
  pmeStatus : Bool := false
  d3hot : Bool := false
  /-- Vectors whose vector mask is clear. -/
  unmasked : List Nat := []
  /-- The MSI-X table: address, data (R340), by vector. -/
  msixTable : SMap (Nat × Nat) := []
  /-- The pending-bit array (R340, R355): vectors pending and masked. -/
  pba : List Nat := []
  /-- Vectors pending for D0, for Bus Master Enable or for L0 (R355). -/
  deferred : List Nat := []
  /-- An L1 exit the device has asked for is under way (R355). -/
  l1Exit : Bool := false
  /-- Latency of the last LTR message, ns; 0: none sent (R346). -/
  ltr : Nat := 0
  /-- A poll round is under way: its lines not yet read (R346). -/
  roundLines : List Nat := []
  deriving DecidableEq, Repr

/-- First occurrence of an event source since its last delivery (R442). -/
structure Occurrence where
  unit : Nat
  info : Nat
  cellTime : Nat
  deriving DecidableEq, Repr

/-- One host event queue: base and size in force, next slot, phase, moderation (R445, R446). -/
structure EventQueue where
  slot : Nat := 0
  phase : Nat := 1
  modr : Moderation := {}
  /-- Records committed and not yet written, oldest first, each with whether moderation has counted it (R446). -/
  heldRecords : List (List Byte × Bool) := []
  deriving DecidableEq, Repr

/-- The drivers of one cell event line (R447). -/
structure EvLine where
  /-- The controller's pulse holds the line. -/
  pulse : Bool := false
  /-- A thermal shutdown holds the line until PERST#. -/
  shutdown : Bool := false
  /-- DPS channels whose trip holds the line (R264). -/
  trips : List Nat := []
  /-- AWGs whose marker holds the line (R217). -/
  markers : List Nat := []
  /-- An external driver holds the line low. -/
  outside : Bool := false
  deriving DecidableEq, Repr

/-- The event controller outside its register window (R439 to R448). -/
structure Events where
  latch : SMap Occurrence := []
  queues : SMap EventQueue := []
  lines : SMap EvLine := []
  /-- Deliveries to the management processors, by source, not cleared (R439 column F). -/
  toFirmware : SMap Nat := []
  /-- Counts kept in cluster retention registers, by cluster: (source, unit) occurrences (R448). -/
  retained : List Nat := []
  deriving DecidableEq, Repr

/-- One access that waits: the engine and unit of R319, the 4 KiB untranslated pages it needs, first the one it waits
for, its direction, and the groups sent for it and answered Success (R310, R311). -/
structure Waiter where
  engine : Nat
  unit : Nat
  va : Nat
  pages : List Nat
  write : Bool
  rounds : Nat := 0
  deriving DecidableEq, Repr

/-- One ATS Translation Request awaiting its completion (R309): the DTT entry, the untranslated address of its page's
first byte, whether it is a re-translation of a pinned entry (R313), and the accesses that wait on it. -/
structure AtsRequest where
  entry : Nat
  base : Nat
  pinned : Bool
  waiters : List Waiter
  deriving DecidableEq, Repr

/-- One cached translation range (R309). -/
structure AtcRange where
  entry : Nat
  base : Nat
  length : Nat
  target : Nat
  canRead : Bool
  canWrite : Bool
  /-- U bit: use untranslated TLPs for the range. -/
  untranslated : Bool
  deriving DecidableEq, Repr

/-- One outstanding Page Request Group: its index, DTT entry, page address, 4 KiB pages and waiting accesses (R310). -/
structure PageGroup where
  index : Nat
  entry : Nat
  base : Nat
  pages : List Nat
  waiters : List Waiter
  deriving DecidableEq, Repr

/-- An access that waits for a free group (R310). -/
structure PageNeed where
  entry : Nat
  base : Nat
  waiter : Waiter
  deriving DecidableEq, Repr

/-- The memory manager and the memory it reaches (spec/14). -/
structure Memory where
  /-- Device memory by DPA; an unlisted byte reads 0 (R475 step 1). -/
  cells : SMap Byte := []
  /-- Block numbers (DPA / 64) whose poison bit is set (R296). -/
  poison : SMap Bool := []
  /-- Errors on blocks that no read has decoded yet, by symbol; `cells` hold such a block as a read will deliver it (R297). -/
  latent : SMap (List (Fin 68 × BitVec 8)) := []
  /-- Next block of the patrol scrubber (R300). -/
  scrubBlock : Nat := 0
  /-- The device translation table; an unlisted entry reads 0 (R302). -/
  dtt : SMap (BitVec 64) := []
  /-- Entries whose PIN_LOST is set (R313). -/
  pinLost : List Nat := []
  /-- The translation cache, most recently used first (R309). -/
  atc : List AtcRange := []
  atsRequests : List AtsRequest := []
  groups : List PageGroup := []
  /-- Accesses waiting for a free group (R310). -/
  noGroup : List PageNeed := []
  /-- A Response Failure holds until PRI Enable is cleared and set (R311). -/
  priUnavailable : Bool := false
  /-- Faults raised for waiting accesses and not yet seen by their engine (R311). -/
  decided : List (Waiter × Nat) := []
  /-- ITags of the invalidations whose completion is not yet sent (R312). -/
  invalidations : List Nat := []
  /-- Host memory as the device last wrote or read it; an unlisted byte is `Config.hostByte`. -/
  host : SMap Byte := []
  /-- Host 64-byte blocks whose last read completion carried EP (R298). -/
  hostPoison : SMap Bool := []
  /-- Host 64-byte blocks whose reads end with UR, CA or a completion timeout (R315). -/
  hostError : SMap Bool := []
  deriving DecidableEq, Repr

/-- Why a command that was accepted has not started, or a page it waits for. -/
inductive WaitOn where
  /-- A program on any of these sequencers runs. -/
  | program (seqs : List Nat)
  /-- A host page's translation (R310). -/
  | page
  /-- The device is in, or moving to or from, an idle state (R426). -/
  | wake
  /-- The named unit's own work (a measurement, a run) is under way. -/
  | busy (what : Nat)
  /-- Earlier commands of its queue that must have completed (R320). -/
  | fence (earlier : List Cmd)
  deriving DecidableEq, Repr

/-- A command that was accepted and waits to start. -/
structure Held where
  cmd : Cmd
  wait : WaitOn
  deriving DecidableEq, Repr

end Sys2Proof.Machine
end

