-- ==== Sys2Proof/Machine/Types2.lean ====
section
/-! DEFINITION. Records of the pins, the site groups, the sequencers and the Headbox. Field defaults are the values at
reset. -/

namespace Sys2Proof.Machine

open Sys2Proof

/-- What a pin's driver does (R55): off, or on at VIH, VIL or VTT of the level set in force. -/
inductive Drive where
  | off
  | vih
  | vil
  | vtt
  deriving DecidableEq, Repr

/-- The safe state of a pin whose site's Deckle has closed (R42, R56): high impedance, or driving a frozen VIL, µV. -/
inductive SafeState where
  | highZ
  | drive (vil : Int)
  deriving DecidableEq, Repr

/-- Where a measurement came from: a trigger of a program on a group leader, a PPMU_MEASURE or a CONTACT_CHECK. -/
inductive MeasOrigin where
  | trigger (leader serial : Nat)
  | measure (cmd : Cmd)
  | contact (cmd : Cmd) (leader : Nat)
  deriving DecidableEq, Repr

/-- A PPMU measurement in progress on one pin (R64, R65). -/
structure PinMeas where
  origin : MeasOrigin
  leader : Nat
  position : Nat
  site : Nat
  test : Nat
  toPop : Bool
  toRecord : Bool
  /-- Ream queue and word of its record (R170, R173). -/
  queue : Nat
  word : Nat
  mode : Nat
  range : Nat
  avgLog2 : Nat
  /-- Connection of the PPMU before a PPMU_MEASURE or CONTACT_CHECK, restored afterwards (R66). -/
  wasConnected : Bool
  /-- Cell time of the trigger. -/
  start : Nat
  /-- A dip overlapped the measurement (R67, R434). -/
  suspect : Bool
  deriving DecidableEq, Repr

/-- One pin channel outside its register block (spec/03); keys 1,024 + c are the reference channels (R70). -/
structure Pin where
  drive : Drive := .off
  load : Bool := false
  /-- The symbol of the previous vector with 0x9, 0xA and 0xC resolved; 0x2 in the first vector of a program (R55). -/
  lastSymbol : Nat := 2
  /-- No vector of the program has been applied: 0x7 means driver and load off (R55). -/
  fresh : Bool := true
  levelSet : Nat := 0
  connected : Bool := false
  /-- Parked from power-up until the first program on its sequencer (R71). -/
  parked : Bool := true
  safe : Option SafeState := none
  meas : Option PinMeas := none
  /-- Register writes are held until the running program completes (R53). -/
  held : Bool := false
  /-- The clamp pair last put in force was written with a bound above the voltage ceiling (R52, R58). -/
  clampOver : Bool := false
  deriving DecidableEq, Repr

/-- A PPMU_MEASURE in progress on a cluster (R66): local pins not yet read; bitmaps of pins measured, masked and not
measured, flagged. -/
structure PpmuRun where
  cmd : Cmd
  left : List Nat
  measured : Nat
  missed : Nat
  flagged : Nat
  deriving DecidableEq, Repr

/-- A CONTACT_CHECK in progress (R40): positions under test, positions masked and not tested. -/
structure ContactRun where
  cmd : Cmd
  positions : Nat
  untested : Nat
  deriving DecidableEq, Repr

/-- One defined site position as captured by SITE_ENABLE (R36, R39): pins ascending by number. -/
structure SitePos where
  position : Nat
  site : Nat
  safeState : Bool
  aliveEn : Bool
  pins : List Nat
  dps : List Nat
  deriving DecidableEq, Repr

/-- The configuration of one site group as captured by the last SITE_ENABLE, by leader (R36). -/
structure Group where
  size : Nat := 1
  positions : List SitePos := []
  contact : Option ContactRun := none
  deriving DecidableEq, Repr

/-- One divergence slot (R131, R145): positions, address, state 0 free, 1 ready, 2 running, 3 waiting. -/
structure Slot where
  sites : Nat := 0
  addr : Nat := 0
  state : Nat := 0
  deriving DecidableEq, Repr

/-- The micro-state of a group: the trap frame from byte 16 to byte 271, CELL_TIME apart (R138, R145). -/
structure Micro where
  pc : Nat := 0
  wordPc : Nat := 0
  repeatLeft : Nat := 0
  segment : Nat := 0
  lastSafe : Nat := 0
  lc : List Nat := [0, 0, 0, 0]
  stack : List Nat := []
  mask : Nat := 0
  fail : Nat := 0
  failLast : Nat := 0
  matchBits : Nat := 0
  retired : Nat := 0
  flags : List Nat := [0, 0, 0, 0]
  runningSlot : Nat := 0
  slots : List Slot := []
  siteRegs : List Nat := [0, 0, 0, 0, 0, 0, 0, 0]
  streamBlock : Nat := 0
  streamVector : Nat := 0
  streamSeq : Nat := 0
  deriving DecidableEq, Repr

/-- The program header and segment table as read at the start (R117). -/
structure Header where
  flags : Nat
  wordCount : Nat
  entry : Nat
  trapHandler : Nat
  codeOffset : Nat
  segTable : Nat
  segCount : Nat
  initialSeg : Nat
  holdBlock : Nat
  holdIndex : Nat
  holdSeg : Nat
  replayLimit : Nat
  residentPages : Nat
  powerMw : List Nat
  /-- Address and block count of each segment. -/
  segments : List (Nat × Nat)
  deriving DecidableEq, Repr

/-- A decoded vector block in a stream buffer or a ring (R150, R156, R162). `status`: 0 clean, 0x12 poisoned, 0x7F
malformed, else the status of the fault met on its demand read. -/
structure Block where
  segment : Nat
  ref : Nat
  consumer : Nat
  vectors : List Nat
  srBase : Nat
  srStep : Nat
  status : Nat
  spec : Bool
  /-- Lane of the group whose vectors it holds (R162). -/
  lane : Nat := 0
  deriving DecidableEq, Repr

/-- One vector-issuing word whose compare results have not all returned (R104, R105, R111). -/
structure IssuedWord where
  pc : Nat
  cls : Nat
  repeats : Nat
  capture : Nat
  slot : Nat
  /-- Positions whose pins took part (the running slot's open sites), and those of them whose mask bit was 1. -/
  sites : Nat
  mask : Nat
  /-- Site registers as they stood before the word (R97, R108). -/
  siteRegs : List Nat
  /-- By lane, the symbol of every pin's previous vector, 4 bits a pin (R55). -/
  prev : List Nat
  /-- By block position, the block of every lane. -/
  blocks : List (List Block)
  /-- Index of the first vector whose results have not returned. -/
  next : Nat := 0
  /-- Sites with a failing compare; sites with a vector all of whose compares passed; sites recorded in MODE 3. -/
  failed : Nat := 0
  matched : Nat := 0
  recorded : Nat := 0
  /-- Vectors issued before this word since program start. -/
  firstVector : Nat
  /-- Timing set of its vectors; by block position, the start of the first vector after program time zero, in units of
  1 ÷ FREQ ps (R83, R99). -/
  set : Nat := 0
  starts : List Nat := []
  /-- Every block position of the word has been issued. -/
  whole : Bool := true
  /-- Sites whose sticky fail flag clears before the word's first vector (R111). -/
  clear : Nat := 0
  deriving DecidableEq, Repr

/-- One reading returned to the MEAS conditions (R104): position, value, status, flags. -/
structure CondReading where
  position : Nat
  value : Int
  status : Nat
  flags : Nat
  /-- Serial number of its trigger. -/
  serial : Nat := 0
  deriving DecidableEq, Repr

/-- A measurement trigger of a program (R112): its serial number, its word and QUEUE, and the active sites. -/
structure Trigger where
  serial : Nat
  kind : Nat
  limit : Nat
  toPop : Bool
  toRecord : Bool
  base : Nat
  sites : Nat
  word : Nat
  queue : Nat
  deriving DecidableEq, Repr

/-- Why the next word cannot issue (R136): 0 none, 1 demand miss, 2 shortfall, 3 Ream back-pressure, 4 pre-emption. -/
abbrev Blocked := Nat

/-- Trap mode: the micro-state of the interrupted path, its pc at RESUME_PC, and the sites of the routine (R141 to
R143). -/
structure TrapMode where
  saved : Micro
  cause : Nat
  sites : Nat
  /-- What the trapping word still does once the path resumes: 0 nothing, 1 SLOT_END, 2 SLOT_RETIRE, 3 END. -/
  after : Nat := 0
  deriving DecidableEq, Repr

/-- A trap frame on its way to memory, with the TRAP_REQUEST that completes once it is there (R142). -/
structure FrameWrite where
  frame : List Byte
  request : Option Cmd
  deriving DecidableEq, Repr

/-- A program on a site group, by leader (spec/06). -/
structure Program where
  cmd : Cmd
  image : Nat
  header : Header
  timeLimit : Nat
  frameAddr : Nat
  /-- Its first word waits for a scheduled start (R383). -/
  scheduled : Bool
  bgBase : Nat
  /-- The scheduled start, by slot, that a SCHEDULED program is bound to (R383). -/
  bound : Option Nat := none
  /-- Positions taking part. -/
  part : Nat
  /-- Positions whose work in the program has completed, and the status each has or will complete with: the first
  in the order of R16 of those noted. -/
  done : Nat := 0
  status : List Nat := [0, 0, 0, 0, 0, 0, 0, 0]
  micro : Micro
  /-- Micro-state and trap mode at the last stall-safe word issued (R138, R146). -/
  snapshot : Option (Micro × Option TrapMode) := none
  trap : Option TrapMode := none
  frameWrites : List FrameWrite := []
  /-- The running slot has been released at its reconvergence word, which executes (R132). -/
  released : Bool := false
  /-- The last word issued, once one has been. -/
  lastWord : Option Nat := none
  replays : Nat := 0
  traps : Nat := 0
  /-- 0 none, 1 condition wait (R105), 2 WAIT (R102), 3 SYNC (R101). -/
  wait : Nat := 0
  blocked : Blocked := 0
  /-- 0 the queue has not emptied, 1 safe wait, 2 stall-safety pending, 3 saving a pre-emption frame, 4 stopped by an unsafe
  stall. -/
  stall : Nat := 0
  /-- Block positions of the VEC_SEQ being issued that have been issued (R156). -/
  seqDone : Nat := 0
  outstanding : List IssuedWord := []
  vectorsIssued : Nat := 0
  /-- Program time zero, the cell time of vector 0's start at the ball, once it is known; start of the next vector after
  it, in units of 1 ÷ FREQ ps; timing set of the last vector (R83, R91, R99). -/
  zero : Option Nat := none
  clock : Nat := 0
  set : Nat := 0
  /-- The vector queue: for each entry the end of its last vector, in those units (R23, R99). -/
  queue : List Nat := []
  /-- Stream-buffer entries of each lane that words use whose vectors are still to be applied: the end of the last vector
  that takes from each (R156). -/
  taken : List Nat := []
  /-- Vectors issued before the word now executing (R101). -/
  wordVector : Nat := 0
  /-- Positions whose mask bits clear at the end of the word now executing (R126). -/
  failDrop : Nat := 0
  /-- The pins hold their last levels: no hold vector follows (R76, R480). -/
  halted : Bool := false
  /-- Triggers and analog operations attached to issued words and not yet fired (R112, R113). -/
  triggers : List Trigger := []
  analog : List (Nat × Nat × Nat) := []
  /-- A trigger of a word without vectors waits for the next vector (R112). -/
  carried : List Trigger := []
  serial : Nat := 0
  lastTrigger : Option Trigger := none
  readings : List CondReading := []
  /-- Readings of fired triggers not yet returned: serial number of the trigger, and whether they go to the population
  engine. -/
  pendingReadings : List (Nat × Bool) := []
  /-- Value read at step 3 by the word whose blocks are being issued; vectors issued and triggers numbered before the
  SYNC that waits; C of a WAIT or SYNC that traps once it ends (R97, R101, R102, R114). -/
  cond : Nat := 0
  syncVector : Nat := 0
  syncSerial : Nat := 0
  dueTrap : Option Nat := none
  /-- Vectors issued, and triggers numbered, at the last snapshot (R138, R204). -/
  snapVectors : Nat := 0
  snapTriggers : Nat := 0
  /-- The latest trigger at the last snapshot (R104, R138). -/
  snapTrigger : Option Trigger := none
  /-- Host-request traps taken since the last snapshot, and those that a replay has undone and that are raised again when
  their word is reached: address and CAUSE_INFO (R146). -/
  hostTraps : List (Nat × Nat) := []
  trapsAgain : List (Nat × Nat) := []
  /-- Test and site of each reading sent to the population engine since the snapshot (R290). -/
  sent : List (Nat × Nat) := []
  preempts : List (Cmd) := []
  trapRequests : List Cmd := []
  /-- A VEC_HOLD of this many repetitions was the last word issued (R140). -/
  lastHold : Nat := 0
  /-- Freeze held by the header flag, and by CAL_FREEZE (R113, R415). -/
  freezeHeader : Bool := false
  freezeOp : Bool := false
  /-- The first word has issued: the time limit counts (R130). -/
  begun : Bool := false
  /-- Fills of resident pages still due before the first word (R121). -/
  fillsDue : List Nat := []
  /-- The group has stopped issuing; the program completes once its vectors are applied and its data has landed. -/
  ended : Bool := false
  /-- The image's hold vector, by lane. -/
  holdVectors : List Nat := []
  /-- SR_BASE and SR_STEP of each lane's hold block (R149). -/
  holdSr : List (Nat × Nat) := []
  /-- CAL_RUN asks for, and holds the group in, a safe wait at a stall-safe word (R140, R417). -/
  calWant : Bool := false
  calHeld : Bool := false
  deriving DecidableEq, Repr

/-- One frame of a control store (R120): its page and the page's 256 stored words; marks of R122 to R125. -/
structure Frame where
  page : Nat
  /-- The stored 32-byte words of the page, as numbers, in ascending offset. -/
  words : List Nat
  pinned : Bool := false
  spec : Bool := false
  executed : Bool := false
  /-- 64-byte blocks of the page that were poisoned when read. -/
  poisoned : List Nat := []
  /-- Least recently used order: the larger, the later used. -/
  used : Nat := 0
  deriving DecidableEq, Repr

/-- One result record before it is written (R171): its serial number in its sequencer, queue, TYPE, STATUS, SITE word,
TEST, CELL_TIME and payload from byte 16. -/
structure Rec where
  serial : Nat := 0
  queue : Nat
  typ : Nat
  status : Nat
  site : Nat
  test : Nat
  cellTime : Nat
  payload : List Byte
  /-- Cell time of its handover (R172). -/
  handed : Nat := 0
  deriving DecidableEq, Repr

/-- A run of lost records of one queue (R177, R184). -/
structure Loss where
  queue : Nat
  count : Nat
  positions : Nat
  cause : Nat
  cellTime : Nat
  deriving DecidableEq, Repr

/-- One sequencer outside its register window: control store, stream buffer, elastic buffer (spec/05, 07, 08). -/
structure Seq where
  frames : SMap Frame := []
  /-- Fills that showed a parity error, by frame; frames retired (R125). -/
  parityHits : SMap Nat := []
  retired : List Nat := []
  useClock : Nat := 0
  buffer : List Block := []
  /-- Position in its broadcast ring: the index of the entry taken next (R164). -/
  ringNext : Nat := 0
  /-- Records waiting for their queue, oldest first (R177). -/
  elastic : List Rec := []
  /-- DECKLE records that met a full buffer and wait for room in it (R185). -/
  deckles : List Rec := []
  /-- Runs of lost records that no LOSS record covers yet (R177, R184). -/
  losses : List Loss := []
  /-- Serial number of the next record handed over. -/
  nextSerial : Nat := 0
  /-- Serial number at the last snapshot; by queue, position and count of the records committed since (R183). -/
  snapSerial : Nat := 0
  sinceFirst : SMap Nat := []
  sinceCount : SMap Nat := []
  /-- Status of the fault that set FAULT, by queue (R178). -/
  faultStatus : SMap Nat := []
  /-- Queues whose mark has been overtaken since their last REAM_MARK (R181). -/
  overtaken : List Nat := []
  /-- Queues whose configuration writes are held, and whether writes to MEAS_LIM are (R53, R127, R185). -/
  heldQueues : List Nat := []
  heldLims : Bool := false
  /-- Queues whose zero LENGTH at offset 0 waits for a host page (R174, R178). -/
  zeroDue : List Nat := []
  /-- Watermark chain values by queue, and records chained (R464). -/
  chains : SMap (List Byte × Nat) := []
  deriving DecidableEq, Repr

/-- A recorded join tag of a ring: image, lane, segment, address, and the index of the entry it points at (R164). -/
structure RingTag where
  image : Nat
  lane : Nat
  segment : Nat
  addr : Nat
  entry : Nat
  deriving DecidableEq, Repr

/-- One broadcast ring (R162 to R165): entries from index `first`, oldest first. -/
structure Ring where
  first : Nat := 0
  entries : List Block := []
  tags : List RingTag := []
  deriving DecidableEq, Repr

/-- One cluster outside its registers (spec/04, 19, 20). -/
structure Cluster where
  /-- The FREQ value of a held write (R75). -/
  heldFreq : Option Nat := none
  /-- The cluster was ready when its relock started (R75). -/
  wasReady : Bool := false
  /-- Timing-set entries whose writes are held, by `tsKey` (R81). -/
  heldTiming : List Nat := []
  ppmuRuns : List PpmuRun := []
  /-- Cell time, epoch included, at which the timing phase was last aligned to cell time (R22). -/
  aligned : Nat := 0
  deriving DecidableEq, Repr

end Sys2Proof.Machine
end

