-- ==== Sys2Proof/Machine/Types3.lean ====
section
/-! DEFINITION. Records of the measurement units and the shared engines. Field defaults are the values at reset. -/

namespace Sys2Proof.Machine

open Sys2Proof

/-- A reading on its way to the population engine (R269, R270): site, test number, signed value, status, the flags
over-range [0], clamped [1], supply-suspect [2], cell time, the device's group leader and position. -/
structure PopReading where
  site : Nat
  test : Nat
  value : Int
  status : Nat
  flags : Nat
  cellTime : Nat
  leader : Nat
  position : Nat
  deriving DecidableEq, Repr

/-- A Felt packet without its link trailer (R364): payload flits as 64-bit numbers. -/
structure Packet where
  dest : Nat
  src : Nat
  vc : Nat
  typ : Nat
  tid : Nat
  poison : Nat
  flits : List Nat
  deriving DecidableEq, Repr

/-- Work of the population engine on one test, which a wait on a Page Request suspends with all that comes after it (R291): the work
area of a new test; a reading; a site that leaves the expected set; local closure; the node's report; a report received: its node,
COVERED, late mark, U, O, bins; finality, decided at a cell time; limits and a failure received; verdicts; the summary; a reading of
a site to be withdrawn; the answer of a POP_FINALISE (R274, R276, R277, R279, R280, R286, R290). -/
inductive PopOp where
  | define
  | reading (r : PopReading)
  | leave (site : Nat)
  | close
  | send
  | report (src covered : Nat) (late : Bool) (u o : Nat) (bins : List Nat)
  | finalise (time : Nat)
  | limits (body : List Byte)
  | failure
  | resolve
  | summary
  | withdraw (site : Nat)
  | answer (c : Cmd)
  deriving DecidableEq, Repr

/-- One defined population test (spec/13), by slot. The bins and site entries are in its work area (R275). -/
structure PopTest where
  test : Nat
  binsLog2 : Nat
  method : Nat
  sides : Nat
  verdictOnly : Bool
  isLocal : Bool
  kmul : Nat
  refTest : Nat
  lo : Int
  width : Nat
  work : Nat
  /-- DEADLINE as epoch and counter value in one number; none: 0 was given (R281). -/
  deadline : Option Nat
  round : Nat
  qlo : Nat
  qhi : Nat
  minCount : Nat
  check : Nat
  /-- Site numbers of the expected set as captured, and those still expected, ascending (R276, R290). -/
  captured : List Nat
  expected : List Nat
  /-- STATE and FLAGS of the summary (R275). -/
  state : Nat := 0
  isPartial : Bool := false
  noLimits : Bool := false
  outOfRange : Bool := false
  poisoned : Bool := false
  /-- The local contribution has closed; the node's report has been sent; a fault or poison failed the test here. -/
  closed : Bool := false
  reported : Bool := false
  failedHere : Bool := false
  failStatus : Nat := 0
  covered : Nat := 0
  lateDevices : Nat := 0
  limitLo : Int := -(2 ^ 63)
  limitHi : Int := 2 ^ 63 - 1
  countN : Nat := 0
  countU : Nat := 0
  countO : Nat := 0
  q1 : Int := 0
  median : Int := 0
  q3 : Int := 0
  finalTime : Nat := 0
  accepted : Nat := 0
  flagged : Nat := 0
  late : Nat := 0
  outliers : Nat := 0
  localU : Nat := 0
  localO : Nat := 0
  /-- Underflow, overflow of the merged region, and the nodes whose reports are in (R279). -/
  mergedU : Nat := 0
  mergedO : Nat := 0
  reporters : List Nat := []
  /-- The children's reports alone, summed on die: bins, U, O and COVERED, which a failed node reports (R291). -/
  buffer : List Nat := []
  childU : Nat := 0
  childO : Nat := 0
  childCovered : Nat := 0
  /-- Sites whose reading the test holds (R271). -/
  holds : List Nat := []
  /-- Work still to be done, oldest first; not empty only while its oldest waits on a Page Request (R291). -/
  todo : List PopOp := []
  deriving DecidableEq, Repr

/-- A packet in an input buffer, or of this node's own: whether it is still to be delivered here, and, of a broadcast, the
ports it is still to be copied to (R369). -/
structure InPacket where
  pkt : Packet
  here : Bool
  outs : List Nat := []
  deriving DecidableEq, Repr

/-- A packet sent and not yet acknowledged (R366, R367). -/
structure SentPacket where
  seq : Nat
  pkt : Packet
  deriving DecidableEq, Repr

/-- One Felt port outside its registers (R362 to R367, R378 to R380). -/
structure FeltPort where
  /-- It trains from DETECT: the next UP starts sequence and credits anew; it retrains (R362, R365). -/
  fresh : Bool := true
  retraining : Bool := false
  txSeq : Nat := 0
  rxSeq : Nat := 0
  replay : List SentPacket := []
  /-- Resend episodes without progress; a NAK has been sent for the gap; an ACK is due (R366, R367). -/
  episodes : Nat := 0
  nak : Bool := false
  ackDue : Bool := false
  /-- Credits by VC, modulo 4,096: consumed, returned by the neighbour, returned to it; a CREDIT is due (R365). -/
  used : List Nat := [0, 0, 0, 0]
  given : List Nat := [0, 0, 0, 0]
  freed : List Nat := [0, 0, 0, 0]
  creditDue : Bool := false
  /-- The input buffer, oldest first; the source served last on this port (R365, R370). -/
  inBuf : List InPacket := []
  lastIn : Nat := 0
  /-- Content of the ID0 received in this handshake. -/
  id0 : Option Nat := none
  /-- Control blocks to be sent at the next cycle: type and content (R363). -/
  due : List (Nat × Nat) := []
  /-- The hop-delay exchange: its number and t1; the delays of the last 64 (R379). -/
  exchange : Nat := 0
  t1 : Option Nat := none
  delays : List Int := []
  /-- Depth and SYNC_STATE of the neighbour; the content of its last TIME_HI (R378, R380). -/
  info : Option (Nat × Nat) := none
  timeHi : Option Nat := none
  deriving DecidableEq, Repr

/-- A scheduled start: its START_ID and T with its epoch as one number (R382). -/
structure Start where
  id : Nat
  time : Nat
  deriving DecidableEq, Repr

/-- A FELT_SCHEDULE or FELT_CANCEL that waits for its answers: nodes that have answered; devices that armed or cancelled,
and that refused (R382, R384). -/
structure StartAsk where
  cmd : Cmd
  id : Nat
  cancels : Bool
  answered : List Nat
  yes : Nat
  no : Nat
  deriving DecidableEq, Repr

/-- A message of a FELT_COPY chunk: its TID, its bytes' offset in the transfer and their number, the answer's data and
poison (R376). -/
structure CopyMsg where
  tid : Nat
  off : Nat
  size : Nat
  answered : Bool := false
  data : List Byte := []
  poison : Nat := 0
  deriving DecidableEq, Repr

/-- A held FELT_COPY (R376). -/
structure FeltCopy where
  cmd : Cmd
  toRemote : Bool
  node : Nat
  near : Nat
  far : Nat
  length : Nat
  limit : Nat
  cls : Nat
  running : Bool := false
  /-- Cell time, epoch included, of its first chunk. -/
  started : Option Nat := none
  done : Nat := 0
  poisoned : Nat := 0
  preemptions : Nat := 0
  /-- Messages of the chunk in flight; its outcome so far: status, FAULT_VA, FAULT_KIND, FAULT_SIDE. -/
  flight : List CopyMsg := []
  outcome : Option (Nat × Nat × Nat × Nat) := none
  deriving DecidableEq, Repr

/-- A REDUCE body being reassembled: source, TEST, ROUND, KIND, definition check, number of parts, parts in (R373). -/
structure Reassembly where
  src : Nat
  test : Nat
  round : Nat
  kind : Nat
  check : Nat
  parts : Nat
  got : SMap (List Nat)
  deriving DecidableEq, Repr

/-- The Felt fabric outside its registers (spec/17). -/
structure Felt where
  /-- The link-state map (R369, R371), by 4 × node + port: version and whether UP. -/
  links : SMap (Nat × Bool) := []
  /-- Messages of this node not yet given to a port, oldest first. -/
  inject : List InPacket := []
  ports : SMap FeltPort := []
  /-- The next transaction number (R364). -/
  tid : Nat := 0
  /-- The start slots, and the commands that wait for answers (R382, R384). -/
  starts : SMap Start := []
  asks : List StartAsk := []
  copies : List FeltCopy := []
  reassembly : List Reassembly := []
  /-- ADJ in units of 2^-32 ps, and the fraction of the counter (R377). -/
  adj : Int := 0
  frac : Nat := 0
  /-- Consecutive pulses within ±10 ps, and beyond ±100 ps; the counter has stepped in this ACQUIRING (R380). -/
  near : Nat := 0
  far : Nat := 0
  stepped : Bool := false
  deriving DecidableEq, Repr

/-- One entry of the image log (R462): image base, HOST, digest, the order of its measurement, the physical runs of bytes
it measured (host, first byte, length) and the DTT entries that map them. -/
structure ImageEntry where
  base : Nat
  host : Bool
  digest : List Byte
  age : Nat
  runs : List (Bool × Nat × Nat)
  dtt : List Nat
  deriving DecidableEq, Repr

/-- What a summary period holds of one site (R464, R465): last completion status, UNMEASURED, programs run, images. -/
structure SiteRun where
  last : Nat := 0
  unmeasured : Bool := false
  runs : Nat := 0
  images : Nat := 0
  deriving DecidableEq, Repr

/-- A firmware image as its header gives it (R455): its flash offset, SVN, digest, and the other area. -/
structure FwImage where
  offset : Nat
  length : Nat
  svn : Nat
  digest : List Byte
  altOffset : Nat
  areaSize : Nat
  deriving DecidableEq, Repr

/-- The Watermark and the security state outside the registers (spec/22). -/
structure Sec where
  /-- Valid entries of the 64-entry image log, and measurements made (R462). -/
  log : SMap ImageEntry := []
  measured : Nat := 0
  /-- The summary period: its start, its image table (base, HOST, digest), PARTIAL, and its sites (R464). -/
  periodStart : Nat := 0
  images : List (Nat × Bool × List Byte) := []
  isPartial : Bool := false
  sites : SMap SiteRun := []
  /-- The firmware image that runs (R456). -/
  running : Option FwImage := none
  /-- Signatures made (R463, R465). -/
  signatures : Nat := 0
  deriving DecidableEq, Repr

/-- What one channel of a gang has gathered for a reading (R261): conversions, sums of codes, code at an end of its span,
in current limit, and the constants in force at its first conversion. -/
structure DpsSum where
  count : Nat := 0
  sumV : Int := 0
  sumI : Int := 0
  overV : Bool := false
  overI : Bool := false
  gainV : Int := 0
  offV : Int := 0
  gainI : Int := 0
  offI : Int := 0
  deriving DecidableEq, Repr

/-- A reading in progress on a gang leader or single channel (R261). -/
structure DpsMeas where
  origin : MeasOrigin
  leader : Nat
  position : Nat
  /-- Site number; none for a channel of no site. -/
  site : Option Nat
  test : Nat
  toPop : Bool
  toRecord : Bool
  queue : Nat
  word : Nat
  qty : Nat
  avgLog2 : Nat
  /-- Cell time of the trigger, then of the first conversion. -/
  start : Nat
  clamped : Bool := false
  suspect : Bool
  deriving DecidableEq, Repr

/-- One DPS channel outside its registers (spec/12). -/
structure Dps where
  /-- V_REF in units of 1/FSW µV (R257). -/
  vref : Nat := 0
  /-- e[k-1] and i[k-1] of the outer loop (R252). -/
  e1 : Int := 0
  i1 : Int := 0
  /-- BLANK has passed in state 2: the voltage bounds may be armed (R263). -/
  blanked : Bool := false
  /-- Bounds outside: bit 0 VWIN_HI, 1 VWIN_LO, 2 IWIN_HI, 3 IWIN_LO (R263, R268). -/
  outside : Nat := 0
  /-- The last check of level 1, of level 2 failed (R265); a level-2 check runs. -/
  fail1 : Bool := false
  fail2 : Bool := false
  level2 : Bool := false
  held : Bool := false
  /-- DPS_RUN commands that wait for state 2 or 0 (R266). -/
  runs : List Cmd := []
  meas : Option DpsMeas := none
  sums : DpsSum := {}
  deriving DecidableEq, Repr

/-- An edge that a TMU counted: reference edge N, code, cell time (R196). -/
structure TmuEdge where
  n : Nat
  code : Nat
  time : Nat
  deriving DecidableEq, Repr

/-- What a TMU input watches: SRC, SLOPE and HOLDOFF (R188 to R190). -/
structure TmuInput where
  src : Nat
  slope : Nat
  holdoff : Nat
  deriving DecidableEq, Repr

/-- A TMU measurement: who armed it, its site, its destinations, and the settings in force at the arm (R192, R193, R200). -/
structure TmuArm where
  origin : MeasOrigin
  /-- Group leader, position and number of its site; none for a TMU with no assigned source pin. -/
  site : Option (Nat × Nat × Nat)
  test : Nat
  toPop : Bool
  toRecord : Bool
  queue : Nat
  word : Nat
  mode : Nat
  gate : Nat
  evSel : Nat
  countN : Nat
  startIn : TmuInput
  stopIn : TmuInput
  startSkew : Int
  stopSkew : Int
  timeout : Nat
  /-- In the supply-suspect interval (R434). -/
  suspect : Bool
  /-- Cell time of the arm, then of the armed instant (R187). -/
  start : Nat
  deriving DecidableEq, Repr

/-- A TMU outside its registers (spec/09). -/
structure Tmu where
  arm : Option TmuArm := none
  gateOpen : Bool := false
  /-- Cell time at which the gate opened (R201). -/
  gateTime : Nat := 0
  /-- Edges counted on START and on STOP; the first and the last START edge, the STOP edge used. -/
  starts : Nat := 0
  stops : Nat := 0
  first : Option TmuEdge := none
  last : Option TmuEdge := none
  stop : Option TmuEdge := none
  /-- Mode 0: a STOP edge was counted before any START edge (R198). -/
  early : Bool := false
  firstTime : Option Nat := none
  /-- Cell time of the last edge counted on START and on STOP, from which the hold-off runs (R190). -/
  startSeen : Option Nat := none
  stopSeen : Option Nat := none
  /-- Mode 5: edges whose results are not yet sent, oldest first; results sent; VALUE_FINE of the first. -/
  train : List TmuEdge := []
  sent : Nat := 0
  firstValue : Option Int := none
  /-- The measurement has ended, and its result is to be computed; a status it ends with whatever its mode (R195). -/
  ended : Bool := false
  forced : Nat := 0
  /-- Register writes are held (R204). -/
  held : Bool := false
  deriving DecidableEq, Repr

/-- A sequence entry as read (R209). -/
structure AwgEntry where
  source : Nat
  length : Nat
  repeats : Nat
  next : Nat
  kind : Nat
  flags : Nat
  amp : Nat
  dc : Int
  pow : Nat
  deriving DecidableEq, Repr

/-- A play: its entry's index, the entry once read, whether it is malformed, the 64-byte blocks of samples read, and the
blocks that were poisoned (R209 to R211, R218, R219). -/
structure AwgPlay where
  index : Nat
  entry : Option AwgEntry := none
  bad : Bool := false
  blocks : SMap (List Int) := []
  poisoned : List Nat := []
  deriving DecidableEq, Repr

/-- A jump to an entry, or a stop, with the AWG_RUN that asked for it, and the cell time at which it acted (R215, R216, R225). -/
structure AwgReq where
  jump : Option Nat
  cmd : Option Cmd
  since : Nat
  deriving DecidableEq, Repr

/-- An AWG outside its registers (spec/10). -/
structure Awg where
  /-- Group leader whose program started it; none for AWG_RUN (R224, R225). -/
  program : Option Nat := none
  /-- An AWG_RUN with ACTION 0 that waits for its start cell time, and that time. -/
  startCmd : Option Cmd := none
  startAt : Nat := 0
  /-- T_s (R211). -/
  start : Nat := 0
  /-- Timeline index of the first sample of the current play; number of the play. -/
  n0 : Nat := 0
  play : Nat := 0
  cur : AwgPlay := { index := 0 }
  /-- What is fetched of the play next in sequence order, and of the play that a registered jump leads to (R218). -/
  nxt : Option AwgPlay := none
  target : Option AwgPlay := none
  /-- Index of the sample now output; ps for which it has been (R211). -/
  pos : Nat := 0
  phase : Int := 0
  /-- The play is the SAFE_CODE that fills one play length before a jump (R227). -/
  filler : Bool := false
  /-- Phase accumulator and FTW in force (R212); output of the slew limiter (R221). -/
  acc : Nat := 0
  ftw : Nat := 0
  y : Int := 0
  /-- Codes of the converter's last update and of the one before it (R222). -/
  code : Option Int := none
  prior : Option Int := none
  /-- Requests not yet registered, oldest first; the request registered, and the sample at which it was (R215, R216). -/
  asked : List AwgReq := []
  due : Option (AwgReq × Nat) := none
  /-- Fetching has moved from the current play to the jump's target (R227). -/
  moved : Bool := false
  /-- The gap that is open: its cause and first sample (R219). -/
  gap : Option (Nat × Nat) := none
  /-- Markers that have not reached the ball: ball time, and timeline index (R217). -/
  marks : List (Nat × Nat) := []
  held : Bool := false
  deriving DecidableEq, Repr

/-- What samples have given: how many, their sum, least and greatest, and their flags over-range, bus open, suspect. -/
structure DgAcc where
  count : Nat := 0
  sum : Int := 0
  lo : Int := 0
  hi : Int := 0
  flags : Nat := 0
  deriving DecidableEq, Repr

/-- A complete interval: its number and what its samples gave (R239). -/
structure DgInterval where
  j : Nat
  acc : DgAcc
  deriving DecidableEq, Repr

/-- A measurement of a digitizer: who armed it, its site, its destinations, its constants (R233 to R235, R245, R247). -/
structure DgArm where
  origin : MeasOrigin
  site : Option (Nat × Nat × Nat)
  base : Nat
  toPop : Bool
  toRecord : Bool
  queue : Nat
  word : Nat
  gain : Int
  offset : Int
  deriving DecidableEq, Repr

/-- An interval in a digitizer's on-die queue: the measurement and the record that it is of, the cell time of that measurement's
sample 0, the interval's first sample, its flags, and its words that are not yet in the ring (R244, R245). -/
structure DgQueued where
  arm : DgArm
  record : Nat
  start : Nat
  first : Nat
  flags : Nat
  words : List Nat
  deriving DecidableEq, Repr

/-- A digitizer outside its registers (spec/11). -/
structure Dg where
  arm : Option DgArm := none
  /-- Cell time of the arm, then of sample 0; index of the next sample. -/
  start : Nat := 0
  n : Nat := 0
  /-- Slope state by condition: 0 unsettled, 1 last seen below the band, 2 above (R236). -/
  slope : List Nat := [0, 0, 0, 0]
  /-- Pattern matched, and some condition was true, on the previous sample, by condition and in all. -/
  matched : Nat := 0
  anyTrue : Bool := false
  /-- State bit of the pattern, and a marker of the AWG not yet seen by a sample (R237). -/
  above : Bool := false
  mark : Bool := false
  force : Bool := false
  /-- A trigger decided on the last sample and not yet acted on: conditions true with the forced bit, and the flags of the
  sample. -/
  fire : Option (Nat × Nat) := none
  /-- The last post interval is in. -/
  postDone : Bool := false
  /-- Samples of the interval in progress; an interval completed on a triggering sample. -/
  acc : DgAcc := {}
  fresh : Option DgInterval := none
  /-- The pre-trigger memory, oldest first. -/
  pre : List DgInterval := []
  /-- Post intervals in, and the samples of the post part. -/
  postCount : Nat := 0
  post : DgAcc := {}
  rearm : Nat := 0
  missed : Nat := 0
  /-- Readings of complete records: VALUE, flags, cell time. -/
  readings : List (Int × Nat × Nat) := []
  /-- Cell time of the trigger of the open record. -/
  trigTime : Nat := 0
  /-- Open extent: first sample, ring position, words, flags. -/
  extent : Option (Nat × Nat × Nat × Nat) := none
  /-- Open gap: record in which it began, first sample, samples lost, flags. -/
  gap : Option (Nat × Nat × Nat × Nat) := none
  /-- Intervals in the on-die queue, oldest first (R244). -/
  queue : List DgQueued := []
  held : Bool := false
  /-- DATA_RING has been written and its content is not in force yet (R243). -/
  heldRing : Bool := false
  deriving DecidableEq, Repr

end Sys2Proof.Machine
end

