-- ==== Sys2Proof/Machine/Types4.lean ====
section
/-! DEFINITION. Records of the DMA engines. Field defaults are the values at reset. -/

namespace Sys2Proof.Machine

open Sys2Proof

/-- What a DMA transfer reads: a device virtual address, a Ream queue of a sequencer, a digitizer's data ring, or a
pattern (R320). -/
inductive DmaSource where
  | copy (va : Nat)
  | ream (seq queue : Nat)
  | digitizer (c : Nat)
  | fill (pattern : Nat)
  deriving DecidableEq, Repr

/-- A DMA transfer, held by an engine or in a suspension slot (R322 to R332). -/
structure Transfer where
  /-- The command whose completion it will write. -/
  cmd : Cmd
  /-- Order of its fetch, over all engines. -/
  order : Nat
  source : DmaSource
  dest : Nat
  /-- Length; of a DMA_RING, the maximum until it is captured (R323). -/
  length : Nat
  cls : Nat
  poisonStop : Bool
  limit : Nat
  /-- Earlier commands of its queue that it waits for (FENCE). -/
  fence : List Cmd := []
  /-- Its first chunk has started; ring position of its first byte. -/
  started : Bool := false
  origin : Nat := 0
  running : Bool := false
  /-- Class steps gained by waiting (R331). -/
  age : Nat := 0
  /-- Bytes done; blocks delivered poisoned; times pre-empted (R321). -/
  done : Nat := 0
  poisoned : Nat := 0
  preemptions : Nat := 0
  /-- Parked on this access: its address and whether it is a write (R326). -/
  parked : Option (Nat × Bool) := none
  expired : Bool := false
  aborted : Bool := false
  deriving DecidableEq, Repr

/-- One DMA engine: held transfers in the order fetched, suspension slots, slots emptied by a reset and not yet asked
for (R327, R331, R336). -/
structure DmaEngine where
  held : List Transfer := []
  slots : SMap Transfer := []
  emptied : List Nat := []
  deriving DecidableEq, Repr

/-- The DMA engines, and the transfers fetched so far. -/
structure DmaUnits where
  engines : SMap DmaEngine := []
  fetched : Nat := 0
  deriving DecidableEq, Repr

end Sys2Proof.Machine
end

