-- ==== Sys2Proof/Machine/Types5.lean ====
section
/-! DEFINITION. Records of the serial ports, the store, calibration, power, the units and JTAG. Field defaults are the
values at reset. -/

namespace Sys2Proof.Machine

open Sys2Proof

/-- The flash directory in use (R388): the profile's flags, the image, the certificate and the banks. -/
structure Directory where
  /-- Bytes 0 to 95. -/
  bytes : List Byte
  fwOffset : Nat
  fwLength : Nat
  certOffset : Nat
  certLength : Nat
  bankA : Nat
  bankB : Nat
  bankSize : Nat
  sectorLog2 : Nat
  pageLog2 : Nat
  dual : Bool
  /-- MODE_EN and CONTINUOUS are both 1 (R391). -/
  continuous : Bool
  /-- DATA_PHASE samples read data on FL_DQS. -/
  onDqs : Bool
  deriving DecidableEq, Repr

/-- A section of the two-bank store (R394). -/
structure Section where
  typ : Nat
  version : Nat
  body : List Byte
  deriving DecidableEq, Repr

/-- A program or erase frame of the flash port (R390, R392); `check`: a read-back and comparison follow it (R396, R458). -/
structure FlashFrame where
  addr : Nat
  /-- Bytes of an erased sector; 0 for a program frame. -/
  erase : Nat
  data : List Byte
  check : Bool
  deriving DecidableEq, Repr

/-- What a sequence of flash frames is for: a write of the store to a bank (1 A, 2 B) with SEQ and LENGTH, or an update
to an image (R396, R458). -/
inductive FlashAim where
  | store (bank seq length : Nat)
  | update (svn offset : Nat)
  deriving DecidableEq, Repr

/-- A command that completes when its store write ends: with a status and result where the write succeeds, with 0x50 and
the result where it fails (R396, R418, R427, R468, R482). -/
structure StoreAsk where
  cmd : Cmd
  status : Nat
  result : Nat
  deriving DecidableEq, Repr

/-- A store write or an update, in the order of request (R396, R459). `frames` is empty until it starts; `bad`: a comparison
of the present attempt has failed. -/
structure FlashJob where
  aim : FlashAim
  started : Bool := false
  /-- Frames of one attempt; those still to end, the first in progress; the attempt (R396). -/
  plan : List FlashFrame := []
  frames : List FlashFrame := []
  attempt : Nat := 1
  bad : Bool := false
  asks : List StoreAsk := []
  deriving DecidableEq, Repr

/-- The flash port, the two-bank store and the cell port outside their registers (spec/18). -/
structure Serial where
  /-- Bytes of the flash devices that were written, by flash address; an unlisted byte is `Config.flashByte`. -/
  flash : SMap Byte := []
  dir : Option Directory := none
  /-- The read buffer: line numbers, most recently used first; lines of the read frame still to arrive; a line whose frame
  waits; the device in continuous read; a frame is being retried (R391, R405). -/
  lines : List Nat := []
  reading : List Nat := []
  wanted : Option Nat := none
  cont : Option Nat := none
  retried : Bool := false
  /-- Sections read from the active bank, in order (R394). -/
  sections : List Section := []
  jobs : List FlashJob := []
  /-- The cell port accepts any ALIVE; its alive timer runs (R400). -/
  anyAlive : Bool := true
  timed : Bool := false
  /-- Flags [7:0] of the STATUS word for the previous frame, and the reply words as last sent (R399, R401). -/
  flags : Nat := 0
  reply : List Nat := []
  /-- Deckle closures since reset (R402). -/
  closures : Nat := 0
  deriving DecidableEq, Repr

/-- The live usage log (R436), times in units of 10 ms; PEAK_TEMP and AGE_PPM are in their registers. -/
structure Usage where
  operating : Nat := 0
  inState : List Nat := [0, 0, 0, 0, 0]
  bands : List Nat := [0, 0, 0, 0, 0, 0, 0, 0, 0, 0, 0, 0, 0, 0]
  brownouts : Nat := 0
  supplyResets : Nat := 0
  shutdowns : Nat := 0
  throttles : Nat := 0
  suspects : Nat := 0
  boots : Nat := 0
  deriving DecidableEq, Repr

/-- Power, temperature and supply outside the registers (spec/20). -/
structure Power where
  /-- Cell time at which the supply-suspect interval ends; in it from the warning crossing on (R434). -/
  suspectEnd : Nat := 0
  /-- Cell time of the warning crossing, by rail (R434). -/
  dips : SMap Nat := []
  /-- The next BROWNOUT_LOG entry (R434). -/
  logNext : Nat := 0
  /-- The host event, its epoch and time in one number (R424, R427). -/
  hostEvent : Option Nat := none
  /-- The state being entered; the state left by the last exit; the event an exit must meet (R424, R426). -/
  target : Nat := 0
  left : Nat := 0
  due : Option Nat := none
  /-- Units whose UNIT_READY the idle state cleared (R422). -/
  asleep : List Nat := []
  /-- Cell time from which the device has been quiet without a break (R423). -/
  quietSince : Option Nat := none
  /-- Clusters whose tracking cycle has completed since the exit from I4 began (R419). -/
  tracked : List Nat := []
  /-- Sensors that counted in the last sample (R430, R437). -/
  counted : List Nat := []
  /-- Consecutive samples apart from the median, by sensor; the last sample's junction temperature was at 125 °C or above
  (R429, R432). -/
  apart : SMap Nat := []
  hot : Bool := false
  /-- A thermal shutdown holds until PERST# (R432). -/
  shutdown : Bool := false
  /-- Clusters above AGE_WARN at their last measurement (R435). -/
  aged : List Nat := []
  usage : Usage := {}
  deriving DecidableEq, Repr

/-- What a calibration has measured (R407, R410, R417): by record, its KIND, UNIT and words; the pins that fail their
clamp check, the reference channel bit 32 (R60); channels of the cluster that fail level 1 (R265). `checking`: level 2 runs
on the channels in state 0. -/
structure CalRun where
  cmd : Cmd
  cluster : Nat
  records : List (Nat × Nat × List Nat)
  clamps : Nat
  level1 : Nat
  checking : Bool := false
  preempt : Bool
  store : Bool
  /-- Kinds still to run, completed, failed or skipped; local pins, and DPS channels, that failed. -/
  left : List Nat
  done : Nat := 0
  failed : Nat := 0
  pins : Nat := 0
  dps : Nat := 0
  deriving DecidableEq, Repr

/-- A CAL_LOAD whose body is sound: its records by KIND, UNIT and words, and the rest of the section (R410, R418). -/
structure CalLoad where
  cmd : Cmd
  records : List (Nat × Nat × List Nat)
  temp : Nat
  time : Nat
  extra : List Byte
  extraCount : Nat
  deriving DecidableEq, Repr

/-- Calibration outside its registers: by `calKey`, the calibrated constants, their targets and those in force; c_base of the
reference channels, where it is another than their calibrated constant (R411, R417); CAL_RUNs
in order of arrival, and those that the idle device has not taken yet (R426); CAL_LOADs that wait for programs to end; the section's header: temperature and time of the calibration (R409, R410, R414, R417, R418). -/
structure Cals where
  base : SMap Nat := []
  target : SMap Nat := []
  work : SMap Nat := []
  refs : SMap Nat := []
  runs : List CalRun := []
  waiting : List CalRun := []
  loads : List CalLoad := []
  temp : Nat := 0
  time : Nat := 0
  /-- The calibration section has been written or read: there is one (R410). -/
  stored : Bool := false
  /-- Records of reserved KINDs, kept as they were read (R410). -/
  extra : List Byte := []
  extraCount : Nat := 0
  deriving DecidableEq, Repr

/-- A UNIT_RESET or power-up that waits for its units (R484). -/
structure UnitAsk where
  cmd : Cmd
  units : List Nat
  deriving DecidableEq, Repr

/-- Units outside their maps (spec/23): units that restart after a reset; waiting commands; recorded retirements of units,
pairs and lanes, and their log: cell time, kind, number; a bring-up calibration waits to be stored (R418, R476). -/
structure Units where
  restarting : List Nat := []
  asks : List UnitAsk := []
  retired : Nat := 0
  pairs : Nat := 0
  lanes : Nat := 0
  calDue : Bool := false
  log : List (Nat × Nat × Nat) := []
  deriving DecidableEq, Repr

/-- The JTAG port (R469, R503): the instruction in force, the boundary register's update latches, and the bits shifted
out by the last scan of a data register. -/
structure Jtag where
  ir : Nat := 0xFF
  latches : List Bool := []
  out : List Bool := []
  /-- Data and DONE captured by the next scan of DEBUG_ACCESS. -/
  data : Nat := 0
  deriving DecidableEq, Repr

end Sys2Proof.Machine
end

