-- ==== Sys2Proof/Machine/State.lean ====
section
/-! DEFINITION. The state of the block: everything the spec gives it, as plain data, and its value right after reset.
Registers are in `regs` (Sys2Proof/Machine/RegMap.lean says where each lies and what an unlisted one holds). -/

namespace Sys2Proof.Machine

open Sys2Proof

/-- Why a step can stop with a fault. -/
inductive Fault where
  /-- Raised by the meaning of a host command whose submission entry does not spell that command (WellFormed fails):
  the term is no command of the spec. Safe: the model stops where there is no command to run. -/
  | illFormed
  deriving DecidableEq, Repr

/-- Why a step can refuse. -/
inductive Refusal where
  /-- The command has no meaning in this model yet: raised by its arm of `exec`. Safe. -/
  | notModelled (mnemonic : String)
  deriving DecidableEq, Repr

/-- The machine. -/
structure State where
  /-- Commands that wait, first in first out. -/
  pending : List Instr := []
  /-- Register quads by BAR0 offset, in canonical form: an unlisted quad holds its reset value (R12). -/
  regs : SMap (BitVec 64) := []
  /-- The settings in force of the registers whose writes are checked or held (R51, R53, R58, R63, R75, R80, R88,
  R205, R228, R250, R268): the same quads as `regs`. -/
  applied : SMap (BitVec 64) := []
  /-- Timing sets as their registers read, and as applied (R77, R80), by `tsKey`. -/
  timing : SMap Nat := []
  timingApplied : SMap Nat := []
  fuse : FuseView := {}
  /-- The OEM fuse bank as burned; in effect from the next release of PERST# (R452). -/
  burned : OemBank := {}
  /-- PERST# is asserted; an internal reset is held, by a supply dip or a lost reference (R474, R494, R505). -/
  perst : Bool := false
  internalReset : Bool := false
  /-- The reference in use: XREF, or the crystal; chosen at the release of PERST# (R492). -/
  xref : Bool := false
  hi : HostIf := {}
  ev : Events := {}
  mem : Memory := {}
  /-- Commands accepted and waiting, oldest first. -/
  held : List Held := []
  pins : SMap Pin := []
  groups : SMap Group := []
  programs : SMap Program := []
  /-- Program starts and resumes that wait for an earlier program or for power, oldest first (R129). -/
  starts : List Cmd := []
  seqs : SMap Seq := []
  rings : SMap Ring := []
  clusters : SMap Cluster := []
  tmus : SMap Tmu := []
  awgs : SMap Awg := []
  dgs : SMap Dg := []
  dps : SMap Dps := []
  /-- Switching groups whose writes are held (R253). -/
  swgHeld : List Nat := []
  /-- Population tests defined, by slot (R272). -/
  popTests : SMap PopTest := []
  dma : DmaUnits := {}
  felt : Felt := {}
  power : Power := {}
  sec : Sec := {}
  cals : Cals := {}
  ser : Serial := {}
  units : Units := {}
  jtag : Jtag := {}
  /-- Deckle causes asserted and not yet acted on: bitmap and time zero, by 8 × leader + position (R41, R43). -/
  causes : SMap (Nat × Nat) := []
  /-- The population engine's input queue of 4,096 readings, oldest first (R270). -/
  popInput : List PopReading := []
  /-- The model's own: how many free values have been drawn. -/
  draws : Nat := 0
  deriving DecidableEq, Repr

/-- The machine right after the release of PERST#: every register at its reset value (R12), nothing running. -/
def State.reset : State := {}

end Sys2Proof.Machine
end

