-- ==== Sys2Proof/Machine/Ops.lean ====
section
/-! DEFINITION. The named operations over registers, units, completions, vectors, events and memory that every meaning
shares. -/

namespace Sys2Proof.Machine

open Sys2Proof

/-! ### Registers (R8, R12) -/

/-- The voltage ceiling, µV: 6,500,000 − 100 × CEILING_CODE, codes above 65,000 acting as 65,000 (R52, R453). -/
def FuseView.ceiling (z : FuseView) : Nat := 6500000 - 100 * min (bitsOf z.oem.protMap 32 16) 65000

/-- Clusters present in the variant (R1, R2). -/
def FuseView.clusters (z : FuseView) : Nat := if z.variant = 1 then 24 else if z.variant = 2 then 16 else 32

/-- DEVICE_ID of the variant (R339). -/
def FuseView.deviceId (z : FuseView) : Nat := if z.variant = 1 then 0x0E24 else if z.variant = 2 then 0x0E16 else 0x0E32

/-- UNIT_FUSED: bit u set when unit u is fused absent in the variant (R2, R473, R487). -/
def FuseView.unitFused (z : FuseView) (u : Nat) : Bool :=
  (decide (u < 32) && decide (z.clusters ≤ u)) ||
  (decide (32 ≤ u) && decide (u < 96) && decide (z.clusters ≤ (u - 32) / 2))

/-- The units that exist: 0 to 111 (R473). -/
def unitCount : Nat := 112

/-- UNIT_PRESENT as fused, before any retirement is loaded (R487). -/
def FuseView.unitExists (z : FuseView) (u : Nat) : Bool := decide (u < unitCount) && !z.unitFused u

/-- Sources that always go to the management processors: column F of R439. -/
def sourceF (n : Nat) : Bool := [0, 1, 2, 3, 7, 8, 12, 13, 18, 20, 21, 22, 23, 24, 44, 45].contains n

/-- The entries "fuse", "store" and "own number" of the Reset columns (R12): what the reset value of a quad holds
beside the literal values of its row; "store" is the value with an empty store (R409). -/
def specialReset (z : FuseView) (a : Nat) : Nat :=
  if a = 0x10 then ofBits ((List.range 64).filter z.unitFused)
  else if a = 0x18 then ofBits ((List.range 64).filter (fun u => z.unitFused (u + 64)))
  else if a = 0x30 then ofBits ((List.range 64).filter z.unitExists)
  else if a = 0x38 then ofBits ((List.range 64).filter (fun u => z.unitExists (u + 64)))
  else if a = 0x100 then z.variant + 256 * Config.revision.toNat + 2 ^ 16 * z.deviceId + 2 ^ 32 * Config.vendorId.toNat
  else if a = 0x108 then Config.serial.toNat
  else if a = 0x110 then b2n z.oem.isSealed + 2 * b2n z.oem.cosignReq + 2 ^ 16 * z.oem.subsysVid + 2 ^ 32 * z.oem.subsysId
  else if a = 0x118 then z.oem.protMap
  else if 0x140 ≤ a ∧ a < 0x180 then bitsOf Config.vendorKeyDigest.toNat (8 * (a - 0x140)) 64
  else if 0x180 ≤ a ∧ a < 0x1C0 then bitsOf z.oem.keyDigest (8 * (a - 0x180)) 64
  else if 0x4100 ≤ a ∧ a < 0x4200 then
    128 * b2n (sourceF ((a - 0x4100) / 4)) + 2 ^ 32 * (128 * b2n (sourceF ((a - 0x4100) / 4 + 1)))
  else if 0x10000 ≤ a ∧ a < 0x50000 then
    let o := (a - 0x10000) % 0x2000
    if 0x800 ≤ o ∧ o < 0x1880 ∧ ((o - 0x800) % 0x80 = 8 ∨ (o - 0x800) % 0x80 = 0x78) then z.ceiling else 0
  else if 0x50000 ≤ a ∧ a < 0x70000 ∧ (a - 0x50000) % 0x800 = 0x100 then 256 * ((a - 0x50000) / 0x800)
  else if 0x78000 ≤ a ∧ a < 0x7C000 ∧ (a - 0x78000) % 0x100 = 0 then (a - 0x78000) / 0x100
  else if a = 0x7C008 then 128 * 2 ^ 32
  else if 0x76000 ≤ a ∧ a < 0x78000 ∧ (a - 0x76000) % 0x100 = 0x98 then 0x40000000
  else if 0x78000 ≤ a ∧ a < 0x7C000 ∧ (a - 0x78000) % 0x100 = 0x58 then 0x40000000 * 2 ^ 32
  else 0

/-- The reset value of the quad at BAR0 offset `a` (R12). -/
def quadReset (z : FuseView) (a : Nat) : BitVec 64 :=
  BitVec.ofNat 64 ((match Reg.rowOf a with | some r => r.reset | none => 0) + specialReset z a)

/-- The quad at `a`. -/
def State.quad (s : State) (a : Nat) : BitVec 64 := SMap.get (quadReset s.fuse a) s.regs a

/-- The state with the quad at `a` holding `v`. -/
def State.setQuad (s : State) (a : Nat) (v : BitVec 64) : State :=
  { s with regs := SMap.set (quadReset s.fuse a) s.regs a v }

/-- The number `q` with bits [lo + w - 1 : lo] replaced by `v`. -/
def putBits (q lo w v : Nat) : Nat := q - bitsOf q lo w * 2 ^ lo + v % 2 ^ w * 2 ^ lo

/-- The value of a register field. -/
def State.fld (s : State) (f : Fld) : Nat := bitsOf (s.quad f.addr).toNat f.lo f.width

/-- The value of a register field, read as two's complement (R7). -/
def State.sfld (s : State) (f : Fld) : Int := toSigned f.width (s.fld f)

/-- A one-bit field as a Bool. -/
def State.flag (s : State) (f : Fld) : Bool := decide (s.fld f ≠ 0)

/-- The state with a register field holding `v` (modulo its width). -/
def State.setFld (s : State) (f : Fld) (v : Nat) : State :=
  s.setQuad f.addr (BitVec.ofNat 64 (putBits (s.quad f.addr).toNat f.lo f.width v))

/-- The state with a one-bit field set or cleared. -/
def State.setFlag (s : State) (f : Fld) (b : Bool) : State := s.setFld f (b2n b)

/-- A counter field advanced by `k`, wrapping at its width. -/
def State.bump (s : State) (f : Fld) (k : Nat) : State := s.setFld f (s.fld f + k)

/-- The quad at `a` of the settings in force. -/
def State.appliedQuad (s : State) (a : Nat) : BitVec 64 := SMap.get (quadReset s.fuse a) s.applied a

/-- The value in force of a register field. -/
def State.afld (s : State) (f : Fld) : Nat := bitsOf (s.appliedQuad f.addr).toNat f.lo f.width

/-- The value in force of a register field, as two's complement. -/
def State.asfld (s : State) (f : Fld) : Int := toSigned f.width (s.afld f)

/-- A register field put in force with the value `v`. -/
def State.applyVal (s : State) (f : Fld) (v : Nat) : State :=
  let q := BitVec.ofNat 64 (putBits (s.appliedQuad f.addr).toNat f.lo f.width v)
  { s with applied := SMap.set (quadReset s.fuse f.addr) s.applied f.addr q }

/-- A register field put in force with the value its register holds. -/
def State.applyFld (s : State) (f : Fld) : State :=
  s.applyVal f (s.fld f)

/-- Every field of a list put in force. -/
def State.applyFlds (s : State) (l : List Fld) : State := l.foldl State.applyFld s

/-! ### Cell time (R24, R377) -/

/-- The cell time, ps. -/
def State.now (s : State) : Nat := s.fld Reg.CELL_TIME

/-! ### Units (R473, R487) -/

/-- Unit `u` is present: neither fused absent nor retired. -/
def State.present (s : State) (u : Nat) : Bool := s.flag (Reg.UNIT_PRESENT u)

/-- Unit `u` is ready. -/
def State.ready (s : State) (u : Nat) : Bool := s.flag (Reg.UNIT_READY u)

/-- Unit number of sequencer n (R473). -/
def seqUnit (n : Nat) : Nat := 32 + n
def memUnit : Nat := 96
def headboxUnit : Nat := 97
/-- Unit number of Felt port p. -/
def portUnit (p : Nat) : Nat := 98 + p
def popUnit : Nat := 102
/-- Unit number of DMA engine e. -/
def dmaUnit (e : Nat) : Nat := 103 + e
def watermarkUnit : Nat := 111

/-- The unit whose presence and power the register block at BAR0 offset `a` follows (R508): a cluster for its windows
and analog units, a sequencer, a DMA engine, a Felt port. -/
def blockUnit (a : Nat) : Option Nat :=
  if 0x2800 ≤ a ∧ a < 0x2C00 then some (dmaUnit ((a - 0x2800) / 0x80))
  else if 0x6100 ≤ a ∧ a < 0x6200 then some (portUnit ((a - 0x6100) / 0x40))
  else if 0x10000 ≤ a ∧ a < 0x50000 then some ((a - 0x10000) / 0x2000)
  else if 0x50000 ≤ a ∧ a < 0x70000 then some (seqUnit ((a - 0x50000) / 0x800))
  else if 0x70000 ≤ a ∧ a < 0x74000 then some ((a - 0x70000) / 0x200)
  else if 0x74000 ≤ a ∧ a < 0x76000 then some ((a - 0x74000) / 0x100)
  else if 0x76000 ≤ a ∧ a < 0x78000 then some ((a - 0x76000) / 0x100)
  else if 0x78000 ≤ a ∧ a < 0x7C000 then some ((a - 0x78000) / 0x200)
  else none

/-- The block at `a` reads zero and discards writes: its unit is absent or powered down (R508). A sequencer follows its
cluster as well. -/
def State.blockOff (s : State) (a : Nat) : Bool :=
  match blockUnit a with
  | none => false
  | some u =>
    !s.present u || s.flag (Reg.UNIT_OFF u) ||
    (decide (32 ≤ u) && decide (u < 96) && (!s.present ((u - 32) / 2) || s.flag (Reg.UNIT_OFF ((u - 32) / 2))))

/-! ### Events (R439 to R442) -/

/-- An occurrence of event source `n` at unit `unit` with INFO `info`, at cell time `t` (R442). -/
def State.raiseAt (s : State) (n unit info t : Nat) : State :=
  let s1 := if (SMap.find s.ev.latch n).isSome then s
    else { s with ev := { s.ev with latch := SMap.put s.ev.latch n ⟨unit, info, t⟩ } }
  if s.fld (Reg.SRC_STAT_COUNT n) = 255 then s1.setFlag (Reg.SRC_STAT_SAT n) true
  else s1.bump (Reg.SRC_STAT_COUNT n) 1

/-- An occurrence of event source `n` at the present cell time. -/
def State.raise (s : State) (n unit info : Nat) : State := s.raiseAt n unit info s.now

/-! ### Vectors (R355) -/

/-- The list with `x` in it once. -/
def addOnce (x : Nat) (l : List Nat) : List Nat := if l.contains x then l else l ++ [x]

/-- The MSI-X message of a vector is sent (R355). -/
def State.sendMsix (s : State) (_v : Nat) : State := s.bump Reg.HI_MSIX_SENT 1

/-- A pending vector is delivered, or held, according to the host state (R355). -/
def State.deliverVector (s : State) (v : Nat) : State :=
  if s.hi.d3hot then
    let s1 := { s with hi := { s.hi with deferred := addOnce v s.hi.deferred } }
    if s.hi.pmeEnable && !s.hi.deferred.contains v then
      ({ s1 with hi := { s1.hi with pmeStatus := true } } : State).bump Reg.HI_PME_SENT 1
    else s1
  else if !s.hi.msixEnable then s
  else if !s.hi.busMaster then { s with hi := { s.hi with deferred := addOnce v s.hi.deferred } }
  else if s.hi.functionMask || !s.hi.unmasked.contains v then { s with hi := { s.hi with pba := addOnce v s.hi.pba } }
  else if s.flag Reg.LINK_IN_L1 then
    { s with hi := { s.hi with deferred := addOnce v s.hi.deferred, l1Exit := true } }
  else s.sendMsix v

/-- The device can write host memory: D0 with Bus Master Enable 1 (R356). -/
def State.hostWritable (s : State) : Bool := !s.hi.d3hot && s.hi.busMaster

/-- One more entry of a moderated queue: the new moderation, and whether the queue signals (R354). -/
def Moderation.count (m : Moderation) (irqEn : Bool) (count time : Nat) : Moderation × Bool :=
  if irqEn then
    let u := m.unsignalled + 1
    let t := m.timer || (decide (u = 1) && decide (time ≠ 0))
    if count ≤ u then ({ unsignalled := 0, timer := false }, true) else ({ unsignalled := u, timer := t }, false)
  else (m, false)

/-- Moderation of completion queue `q` counts one entry (R354). -/
def State.moderateCq (s : State) (q : Nat) : State :=
  let c := SMap.get {} s.hi.cq q
  let r := c.modr.count (s.flag (Reg.CQ_IRQ_IRQ_EN q)) (s.fld (Reg.CQ_IRQ_COUNT q)) (s.fld (Reg.CQ_IRQ_TIME q))
  let s1 := { s with hi := { s.hi with cq := SMap.put s.hi.cq q { c with modr := r.1 } } }
  if r.2 then s1.deliverVector (s.fld (Reg.CQ_IRQ_VECTOR q)) else s1

/-! ### Fields of an entry (R349) -/

/-- CQ of a command's entry (R349). -/
def Cmd.cq (c : Cmd) : Nat := Entry.field c.entry 5 1
/-- TARGET of a command's entry (R349). -/
def Cmd.target (c : Cmd) : Nat := Entry.field c.entry 2 2
/-- TAG of a command's entry (R349). -/
def Cmd.tag (c : Cmd) : Nat := Entry.field c.entry 6 2
/-- OPCODE of a command's entry (R349). -/
def Cmd.opcode (c : Cmd) : Nat := Entry.field c.entry 0 1
/-- FLAGS of a command's entry (R349). -/
def Cmd.flags (c : Cmd) : Nat := Entry.field c.entry 1 1
/-- PRIORITY of a command's entry (R349). -/
def Cmd.priority (c : Cmd) : Nat := Entry.field c.entry 4 1
/-- Bytes [off + len - 1 : off] of a command's entry. -/
def Cmd.field (c : Cmd) (off len : Nat) : Nat := Entry.field c.entry off len

/-- Target classes by opcode (R350); none for NOP and for an opcode that no class lists. -/
def opcodeClass (op : Nat) : Option Nat :=
  if (0x10 ≤ op ∧ op ≤ 0x13) ∨ (0x20 ≤ op ∧ op ≤ 0x23) ∨ (0x40 ≤ op ∧ op ≤ 0x43) then some 0
  else if 0x70 ≤ op ∧ op ≤ 0x74 then some 1
  else if 0x50 ≤ op ∧ op ≤ 0x53 then some 2
  else if 0x80 ≤ op ∧ op ≤ 0x8F then some 3
  else if 0x90 ≤ op ∧ op ≤ 0x9F then some 4
  else if 0x30 ≤ op ∧ op ≤ 0x34 then some 5
  else if 0x60 ≤ op ∧ op ≤ 0x63 then some 6
  else if 0xA0 ≤ op ∧ op ≤ 0xAF then some 7
  else none

/-- The target unit of a command: its class, and the unit named where the class has several. -/
def Cmd.unitKey (c : Cmd) : Option (Nat × Nat) :=
  (opcodeClass c.opcode).map (fun k =>
    if k = 5 then (c.opcode, c.target) else (k, if k = 0 ∨ k = 1 ∨ k = 3 then c.target else 0))

/-- The same as one number. -/
def Cmd.unitNumber (c : Cmd) : Option Nat := c.unitKey.map (fun k => 65536 * k.1 + k.2)

/-! ### Completions (R352, R353, R356) -/

/-- The completion buffer's depth (R353). -/
def bufferDepth : Nat := 1024

/-- Command `c` has completed: its unit holds one command fewer (R347). -/
def State.released (s : State) (c : Cmd) : State :=
  match c.unitNumber with
  | none => s
  | some k => { s with hi := { s.hi with accepted := SMap.set 0 s.hi.accepted k (SMap.get 0 s.hi.accepted k - 1) } }

/-- Command `c` completes with status `st` and RESULT `res` (R352): into the buffer, or held by its unit while the
buffer is full (R353). Where the device cannot write host memory, the commitment counts for moderation (R356). -/
def State.completeTo (s : State) (cq : Nat) (c : Cmd) (st res : Nat) : State :=
  let e : Completion := { cq := cq, cmd := c, status := st, result := res % 2 ^ 192, cellTime := s.now }
  let s := s.released c
  if c.epoch ≠ s.hi.epoch then s.bump Reg.HI_DISCARDED 1
  else if bufferDepth ≤ s.hi.buffer.length then { s with hi := { s.hi with unitHeld := s.hi.unitHeld ++ [e] } }
  else
    let held := !s.hostWritable
    let s1 := { s with hi := { s.hi with buffer := s.hi.buffer ++ [{ e with counted := held }] } }
    let s2 := s1.setFlag Reg.HI_STATUS_BUF_FULL (decide (bufferDepth ≤ s1.hi.buffer.length))
    if held then s2.moderateCq cq else s2

/-- Command `c` completes in the completion queue it named. -/
def State.complete (s : State) (c : Cmd) (st res : Nat) : State := s.completeTo c.cq c st res

/-- The first status of R15, in its order, whose check fails; none where every check holds. -/
def firstFailing (checks : List (Bool × Nat)) : Option Nat :=
  (checks.find? (fun k => k.1)).map (fun k => k.2)

/-- Command `c` makes its pre-start checks, in the order given (R15); where none fails it goes on with `k`. -/
def State.checked (s : State) (c : Cmd) (checks : List (Bool × Nat)) (k : State → State) : State :=
  match firstFailing checks with
  | some st => s.complete c st 0
  | none => k s

/-- Some byte of the entry outside the listed runs (offset, length) and bytes 0, 2 to 7 is not zero: reserved bytes
must be zero (R37, R66, R128 and the like). FLAGS is reserved where a command defines none (R349). -/
def Cmd.reservedSet (c : Cmd) (used : List (Nat × Nat)) : Bool :=
  let clear := fun (n : Nat) (r : Nat × Nat) => n - bitsOf n (8 * r.1) (8 * r.2) * 2 ^ (8 * r.1)
  decide (([(0, 1), (2, 6)] ++ used).foldl clear c.entry.toNat ≠ 0)

/-- Command `c` waits (its start is delayed, or a page is awaited). -/
def State.hold (s : State) (c : Cmd) (w : WaitOn) : State := { s with held := s.held ++ [⟨c, w⟩] }

/-- After a thermal shutdown a command that depends on no unit completes with 0x22 too (R432, DEDUCED: "commands complete with
0x22" is read of every command). Log entry 43. -/
def State.shutChecks (s : State) : List (Bool × Nat) := [(s.power.shutdown, 0x22)]

/-- Checks of R15 on the units a command depends on (R473): absent 0x21, then not ready 0x22. -/
def State.unitChecks (s : State) (us : List Nat) : List (Bool × Nat) :=
  [(us.any (fun u => !s.present u), 0x21), (us.any (fun u => !s.ready u), 0x22)]

/-- A free value of `w` bits (the spec states no value); the draw counter advances. -/
def State.draw (s : State) (w : Nat) : Nat × State :=
  (Config.freeValue s.draws % 2 ^ w, { s with draws := s.draws + 1 })

end Sys2Proof.Machine
end

