-- ==== Sys2Proof/Machine/Mem.lean ====
section
/-! DEFINITION. Device memory, host memory and the translation between device virtual addresses and both (spec/14).
Every engine's access goes through `memRead` and `memWrite` (R18). -/

namespace Sys2Proof.Machine

open Sys2Proof

/-! ### Bytes at physical and bus addresses -/

/-- USABLE: bytes of device memory (R294). -/
def State.usable (s : State) : Nat := s.fld Reg.MEM_DESC_PAIRS * 2 ^ 30

/-- The `n` bytes of device memory from DPA `a`. -/
def State.readDpa (s : State) (a n : Nat) : List Byte := (List.range n).map (fun i => SMap.get 0 s.mem.cells (a + i))

/-- The byte of host memory at bus address `a`: as last written or read, else the host's own. -/
def State.hostByteAt (s : State) (a : Nat) : Byte := SMap.get (Config.hostByte a) s.mem.host a

/-- The `n` bytes of host memory from bus address `a`. -/
def State.readHost (s : State) (a n : Nat) : List Byte := (List.range n).map (fun i => s.hostByteAt (a + i))

/-- A table of bytes with `data` stored from `a`, in canonical form over `d`. -/
def storeCells (d : Nat → Byte) : SMap Byte → Nat → List Byte → SMap Byte
  | m, _, [] => m
  | m, a, b :: bs => storeCells d (SMap.set (d a) m a b) (a + 1) bs

/-- The 64-byte blocks that the `n` bytes from `a` touch. -/
def blocksOf (a n : Nat) : List Nat :=
  if n = 0 then [] else (List.range ((a + n - 1) / 64 - a / 64 + 1)).map (fun i => a / 64 + i)

/-- A poison map after `n` bytes are written from `a`: poisoned data marks every block it covers (R298); clean data
clears the blocks it covers whole and leaves the others as they were (R299). -/
def poisonAfter (m : SMap Bool) (a n : Nat) (poison : Bool) : SMap Bool :=
  (blocksOf a n).foldl
    (fun m b =>
      if poison then SMap.put m b true
      else if a ≤ 64 * b ∧ 64 * b + 64 ≤ a + n then SMap.del m b
      else m) m

/-- Bytes written to device memory from DPA `a`; a block written whole has new check bytes (R298, R299). -/
def State.writeDpa (s : State) (a : Nat) (data : List Byte) (poison : Bool) : State :=
  let whole := fun (x : Nat × List (Fin 68 × BitVec 8)) => decide (a ≤ 64 * x.1) && decide (64 * x.1 + 64 ≤ a + data.length)
  { s with mem := { s.mem with
      cells := storeCells (fun _ => 0) s.mem.cells a data
      latent := s.mem.latent.filter (fun x => !whole x)
      poison := poisonAfter s.mem.poison a data.length poison } }

/-- Bytes written to host memory from bus address `a`; poisoned data leaves with EP set (R298). -/
def State.writeHost (s : State) (a : Nat) (data : List Byte) (poison : Bool) : State :=
  { s with mem := { s.mem with
      host := storeCells Config.hostByte s.mem.host a data
      hostPoison := poisonAfter s.mem.hostPoison a data.length poison } }

/-! ### Decoding of device blocks (R296, R297, R299) -/

/-- The data bytes of a block, changed by errors. -/
def State.damage (s : State) (block : Nat) (errors : List (Fin 68 × BitVec 8)) : State :=
  let d := (List.range 64).map (fun k => SMap.get 0 s.mem.cells (64 * block + k) ^^^ errorOn errors k)
  { s with mem := { s.mem with cells := storeCells (fun _ => 0) s.mem.cells (64 * block) d } }

/-- Errors strike a block, on top of those that no read has met. -/
def State.strike (s : State) (block : Nat) (errors : List (Fin 68 × BitVec 8)) : State :=
  if errors.isEmpty then s
  else
    let old := SMap.get [] s.mem.latent block
    let s1 := s.damage block (deliveredErrors old ++ deliveredErrors (old ++ errors))
    { s1 with mem := { s1.mem with latent := SMap.put s1.mem.latent block (old ++ errors) } }

/-- A read of the block delivers it poisoned: its poison bit is set, or its errors are more than the code corrects (R297). -/
def State.badBlock (s : State) (block : Nat) : Bool :=
  SMap.get false s.mem.poison block || decide (eccDecode (SMap.get [] s.mem.latent block) = .uncorrectable)

/-- The first detection of an uncorrectable block: its poison bit is set, it is counted and logged (R297). -/
def State.uncorrectable (s : State) (block source : Nat) : State :=
  let s1 := ({ s with mem := { s.mem with poison := SMap.put s.mem.poison block true } } : State).bump Reg.MMU_UNCORRECTABLE 1
  if s1.flag Reg.ECC_LOG_VALID then s1
  else ((s1.setFld Reg.ECC_LOG_DPA (64 * block)).setFld Reg.ECC_LOG_SOURCE source).setFlag Reg.ECC_LOG_VALID true

/-- A read decodes the block: one symbol in error is corrected and written back, more are detected (R297). SOURCE: 0 a demand read,
1 the scrubber, 2 a read-modify-write. -/
def State.eccBlock (source : Nat) (s : State) (block : Nat) : State :=
  match SMap.find s.mem.latent block with
  | none => s
  | some errors =>
    let s1 := { s with mem := { s.mem with latent := SMap.del s.mem.latent block } }
    if SMap.get false s.mem.poison block then s1
    else
      match eccDecode errors with
      | .clean => s1
      | .symbol _ _ => s1.bump Reg.MMU_CORRECTED 1
      | .uncorrectable => s1.uncorrectable block source

/-- The blocks that a write of `n` bytes from DPA `a` covers in part are read, and merged: one that is uncorrectable or poisoned
stays poisoned, and raises the memory-poison event (R297, R299). -/
def State.mergeBlocks (s : State) (a n : Nat) : State :=
  ((blocksOf a n).filter (fun b => decide (64 * b < a) || decide (a + n < 64 * b + 64))).foldl
    (fun s b => if s.badBlock b then (s.eccBlock 2 b).raise 8 0 (64 * b) else s.eccBlock 2 b) s

/-! ### Faults (R315, R317) -/

/-- Who makes an access: ENGINE and UNIT of the fault log (R319); whether it is speculative (R314), and whether poison
it reads is consumed and logged (R317). -/
structure MemCtx where
  engine : Nat
  unit : Nat
  spec : Bool := false
  consumes : Bool := true
  deriving DecidableEq, Repr

/-- Status of a fault kind (R315). -/
def kindStatus (k : Nat) : Nat := if k = 2 then 0x11 else if k = 7 ∨ k = 8 then 0x12 else 0x10

/-- A fault of kind `k` is logged at NEXT, counted and raised (R317). -/
def State.logFault (s : State) (x : MemCtx) (va k : Nat) (entry : Option Nat) (write : Bool) : State :=
  let n := s.fld Reg.FAULT_HEAD_NEXT
  let s1 := if s.flag (Reg.FLOG_VALID n) then s.setFlag Reg.MMU_STATUS_FAULT_OVERFLOW true else s
  let s2 := (((((s1.setFld (Reg.FLOG_VA n) va).setFld (Reg.FLOG_STATUS n) (if k = 9 then 0 else kindStatus k)).setFld
    (Reg.FLOG_KIND n) k).setFld (Reg.FLOG_ENGINE n) x.engine).setFld (Reg.FLOG_UNIT n) x.unit).setFlag
    (Reg.FLOG_WRITE n) write
  let s3 := (((s2.setFlag (Reg.FLOG_VALID n) true).setFld (Reg.FLOG_CELL_TIME n) s.now).setFld (Reg.FLOG_ENTRY n)
    (entry.getD 0)).setFlag (Reg.FLOG_ENTRY_ENTRY_VALID n) entry.isSome
  let s4 := s3.setFld Reg.FAULT_HEAD_NEXT ((n + 1) % 16)
  let s5 := if k = 0 ∨ k = 1 ∨ (3 ≤ k ∧ k ≤ 6) then s4.bump Reg.MMU_TRANS_FAULTS 1
    else if k = 2 then s4.bump Reg.MMU_PERM_FAULTS 1 else s4
  let s6 := if k = 4 then s5.bump Reg.MMU_PR_TIMEOUTS 1 else s5
  s6.raise 9 n va

/-! ### Translation (R301) -/

/-- The outcome of a lookup: a device physical address, an untranslated host address, or a fault kind. -/
inductive Lookup where
  | dpa (a entry : Nat)
  | host (a entry : Nat)
  | fault (kind : Nat) (entry : Option Nat)
  deriving DecidableEq, Repr

/-- DTT entry `i` as a number (R303). -/
def State.dttEntry (s : State) (i : Nat) : Nat := (SMap.get 0 s.mem.dtt i).toNat

/-- ADDRESS of a DTT entry, in place (R303). -/
def entryAddress (e : Nat) : Nat := bitsOf e 16 48 * 2 ^ 16

/-- Translation of device virtual address `va` (R301). -/
def State.translate (s : State) (va : Nat) (write : Bool) : Lookup :=
  let r := bitsOf va 42 6
  let o := bitsOf va 0 42
  let sh := if s.flag (Reg.REGION_PAGE r) then 21 else 16
  if !s.flag (Reg.REGION_ENABLE r) || decide (s.fld (Reg.REGION_ENTRY_COUNT r) ≤ o / 2 ^ sh) then .fault 0 none
  else
    let i := s.fld (Reg.REGION_ENTRY_BASE r) + o / 2 ^ sh
    let e := s.dttEntry i
    if !bitOf e 0 then .fault 1 (some i)
    else if (!write && !bitOf e 1) || (write && !bitOf e 2) then .fault 2 (some i)
    else if bitOf e 3 then .host (entryAddress e + o % 2 ^ sh) i
    else .dpa (entryAddress e + o % 2 ^ sh) i

/-- A device virtual address has a valid translation, which a missing permission does not take from it: R13 tells a
translation fault from a permission fault by it (R129, R274, R467). -/
def State.hasTranslation (s : State) (va : Nat) : Bool :=
  match s.translate va false with
  | .fault k _ => decide (k = 2)
  | _ => true

/-! ### Host pages (R308 to R311) -/

/-- The cached range that serves an access at untranslated address `a` (R309). -/
def State.cachedRange (s : State) (a : Nat) (write : Bool) : Option AtcRange :=
  s.mem.atc.find? (fun r => decide (r.base ≤ a) && decide (a < r.base + r.length) && (if write then r.canWrite else r.canRead))

/-- The range becomes the most recently used (R309). -/
def State.touchRange (s : State) (r : AtcRange) : State :=
  { s with mem := { s.mem with atc := r :: s.mem.atc.filter (fun x => decide (x ≠ r)) } }

/-- An access through a HOST entry: it goes on, sees a fault already raised, waits, or is dropped. -/
inductive HostPath where
  | go
  | fault (kind : Nat)
  | wait
  | drop
  deriving DecidableEq, Repr

/-- Two waiters are the same access. -/
def Waiter.same (a b : Waiter) : Bool :=
  decide (a.engine = b.engine) && decide (a.unit = b.unit) && decide (a.va = b.va) && decide (a.write = b.write)

/-- A waiter joins a list in which it is not yet. -/
def joinWaiter (w : Waiter) (l : List Waiter) : List Waiter := if l.any w.same then l else l ++ [w]

/-- Every access that waits for a translation (R309 to R311). -/
def Memory.waiters (m : Memory) : List Waiter :=
  m.atsRequests.flatMap (fun r => r.waiters) ++ m.groups.flatMap (fun g => g.waiters) ++ m.noGroup.map (fun r => r.waiter)

/-- The waiter joins the request that already serves its entry, or a new Translation Request is sent for the whole page
of the entry (R309). -/
def State.requestPage (s : State) (w : Waiter) (entry base : Nat) : State :=
  if s.mem.atsRequests.any (fun r => decide (r.entry = entry)) then
    let rs := s.mem.atsRequests.map (fun r => if r.entry = entry then { r with waiters := joinWaiter w r.waiters } else r)
    { s with mem := { s.mem with atsRequests := rs } }
  else
    let r : AtsRequest := { entry := entry, base := base, pinned := false, waiters := [w] }
    ({ s with mem := { s.mem with atsRequests := s.mem.atsRequests ++ [r] } } : State).bump Reg.MMU_ATS_REQUESTS 1

/-- The access joins the group that has its page; with none, it asks for the entry's translation (R309, R310). -/
def State.awaitPage (s : State) (w : Waiter) (entry base : Nat) : State :=
  let has := fun (g : PageGroup) => w.pages.head?.any g.pages.contains
  if s.mem.groups.any has then
    let gs := s.mem.groups.map (fun g => if has g then { g with waiters := joinWaiter w g.waiters } else g)
    { s with mem := { s.mem with groups := gs } }
  else s.requestPage w entry base

/-- The access is one of those that wait (R307, R310): it goes on waiting, whatever its entry now holds, until its
request or group is answered. -/
def State.stillWaits (s : State) (x : MemCtx) (va : Nat) (write : Bool) : Bool :=
  s.mem.waiters.any ({ engine := x.engine, unit := x.unit, va := va, pages := [], write := write } : Waiter).same

/-- The path of an access at untranslated host address `a` through DTT entry `entry` (R308 to R311, R314). `more`: the
access goes on into the next 4 KiB page. -/
def State.hostPath (s : State) (x : MemCtx) (va a entry : Nat) (write more : Bool) : HostPath × State :=
  let page := a / 4096
  let also := if more && (s.cachedRange (4096 * (page + 1)) write).isNone then [page + 1] else []
  let w : Waiter := { engine := x.engine, unit := x.unit, va := va, pages := page :: also, write := write }
  if !s.hi.atsEnable then (.go, s)
  else
    match s.mem.decided.find? (fun d => w.same d.1) with
    | some d => (.fault d.2, { s with mem := { s.mem with decided := s.mem.decided.erase d } })
    | none =>
      match s.cachedRange a write with
      | some r => (.go, s.touchRange r)
      | none =>
        if x.spec then (.drop, s)
        else (.wait, s.awaitPage w entry (entryAddress (s.dttEntry entry)))

/-! ### Reads and writes by device virtual address -/

/-- The outcome of an access: the bytes read with the kind of their poison, a fault kind, a page wait, or a
speculative read dropped. -/
inductive Acc where
  | ok (data : List Byte) (poison : Option Nat)
  | fault (kind : Nat)
  | wait
  | drop
  deriving DecidableEq, Repr

/-- A demand access faults: logged (R317). A speculative one is dropped and counted (R314). -/
def State.faultAcc (s : State) (x : MemCtx) (va k : Nat) (entry : Option Nat) (write : Bool) : Acc × State :=
  if x.spec then (.drop, s.bump Reg.MMU_SPEC_DROPS 1) else (.fault k, s.logFault x va k entry write)

/-- Data with poison of kind `k` is delivered, or a speculative read of it is dropped (R297, R298, R314). -/
def State.poisonAcc (s : State) (x : MemCtx) (va k entry : Nat) (data : List Byte) : Acc × State :=
  if x.spec then (.drop, s.bump Reg.MMU_SPEC_DROPS 1)
  else (.ok data (some k), if x.consumes then s.logFault x va k (some entry) false else s)

/-- Bytes of the page of the region that holds `va`: 64 KiB or 2 MiB (R301). -/
def State.pageBytes (s : State) (va : Nat) : Nat := if s.flag (Reg.REGION_PAGE (bitsOf va 42 6)) then 2 ^ 21 else 2 ^ 16

/-- The access of `n` bytes goes on past the 4 KiB page of `va` within the page of its DTT entry (R304, R310). -/
def State.goesOn (s : State) (va n : Nat) : Bool :=
  decide (va / 4096 ≠ (va + n - 1) / 4096) && decide ((va / 4096 + 1) * 4096 % s.pageBytes va ≠ 0)

/-- Every one of `n` bytes of device memory delivered with poison is counted by its block and raises the memory-poison
event (R297). -/
def State.poisonDelivered (s : State) (bad : List Nat) : State :=
  bad.foldl (fun s b => (s.bump Reg.MMU_POISON_READS 1).raise 8 0 (64 * b)) s

/-- A read of `n` bytes that does not cross a 4,096-byte boundary. -/
def State.readPiece (s : State) (x : MemCtx) (va n : Nat) (more : Bool) : Acc × State :=
  match s.translate va false with
  | .fault 1 e => s.faultAcc x va 1 e false
  | t =>
    if !x.spec && s.stillWaits x va false then (.wait, s)
    else match t with
    | .fault k e => s.faultAcc x va k e false
    | .dpa a e =>
      if x.spec && bitOf (s.dttEntry e) 5 then (.drop, s.bump Reg.MMU_SPEC_DROPS 1)
      else
        let bad := (blocksOf a n).filter s.badBlock
        let s1 := if x.spec && !bad.isEmpty then s else (blocksOf a n).foldl (State.eccBlock 0) s
        if bad.isEmpty then (.ok (s1.readDpa a n) none, s1)
        else (if x.spec then s1 else s1.poisonDelivered bad).poisonAcc x va 7 e (s1.readDpa a n)
    | .host a e =>
      if x.spec && bitOf (s.dttEntry e) 5 then (.drop, s.bump Reg.MMU_SPEC_DROPS 1)
      else
        match s.hostPath x va a e false more with
        | (.go, s1) =>
          if (blocksOf a n).any (fun b => SMap.get false s1.mem.hostError b) then s1.faultAcc x va 6 (some e) false
          else if (blocksOf a n).any (fun b => SMap.get false s1.mem.hostPoison b) then s1.poisonAcc x va 8 e (s1.readHost a n)
          else (.ok (s1.readHost a n) none, s1)
        | (.fault k, s1) => (.fault k, s1)
        | (.wait, s1) => (.wait, s1)
        | (.drop, s1) => (.drop, s1.bump Reg.MMU_SPEC_DROPS 1)

/-- Reads, piece by piece: an engine splits any access that crosses a page (R304). The first argument bounds the
pieces left. -/
def readPieces : Nat → MemCtx → Nat → Nat → State → Acc × State
  | 0, _, _, _, s => (.ok [] none, s)
  | fuel + 1, x, va, n, s =>
    if n = 0 then (.ok [] none, s)
    else
      let m := min n (4096 - va % 4096)
      match s.readPiece x va m (s.goesOn va n) with
      | (.ok d p, s1) =>
        match readPieces fuel x (va + m) (n - m) s1 with
        | (.ok d' p', s2) => (.ok (d ++ d') (p.orElse (fun _ => p')), s2)
        | r => r
      | r => r

/-- A read of `n` bytes at device virtual address `va`. -/
def State.memRead (s : State) (x : MemCtx) (va n : Nat) : Acc × State := readPieces (n / 4096 + 2) x va n s

/-- The blocks of `n` bytes at `va` whose data comes poisoned (R297, R298). -/
def State.poisonedBlocks (s : State) (va n : Nat) : List Nat :=
  (blocksOf va n).filter (fun k =>
    match s.translate (64 * k) false with
    | .dpa a _ => s.badBlock (a / 64)
    | .host a _ => SMap.get false s.mem.hostPoison (a / 64)
    | .fault _ _ => false)

/-- A write that does not cross a 4,096-byte boundary. -/
def State.writePiece (s : State) (x : MemCtx) (va : Nat) (data : List Byte) (poison more : Bool) : Acc × State :=
  match s.translate va true with
  | .fault 1 e => s.faultAcc x va 1 e true
  | t =>
    if s.stillWaits x va true then (.wait, s)
    else match t with
    | .fault k e => s.faultAcc x va k e true
    | .dpa a _ => (.ok [] none, (s.mergeBlocks a data.length).writeDpa a data poison)
    | .host a e =>
      match s.hostPath x va a e true more with
      | (.go, s1) => (.ok [] none, s1.writeHost a data poison)
      | (.fault k, s1) => (.fault k, s1)
      | (.wait, s1) => (.wait, s1)
      | (.drop, s1) => (.drop, s1)

/-- Writes, piece by piece (R304); the pieces before a failing one stay written. -/
def writePieces : Nat → MemCtx → Nat → List Byte → Bool → State → Acc × State
  | 0, _, _, _, _, s => (.ok [] none, s)
  | fuel + 1, x, va, data, p, s =>
    if data.isEmpty then (.ok [] none, s)
    else
      let m := 4096 - va % 4096
      match s.writePiece x va (data.take m) p (s.goesOn va data.length) with
      | (.ok _ _, s1) => writePieces fuel x (va + (data.take m).length) (data.drop m) p s1
      | r => r

/-- A write of bytes at device virtual address `va`. -/
def State.memWrite (s : State) (x : MemCtx) (va : Nat) (data : List Byte) (poison : Bool) : Acc × State :=
  writePieces (data.length / 4096 + 2) x va data poison s

/-- Status with which a failed or poisoned read ends its consumer's work; none where its data is good (R298, R315). -/
def Acc.failure : Acc → Option Nat
  | .fault k => some (kindStatus k)
  | .ok _ (some k) => some (kindStatus k)
  | _ => none

/-- An engine abandons its waiting accesses: they wait no longer, and no response affects another access (R318). -/
def State.abandon (s : State) (engine unit : Nat) : State :=
  let keep := fun (w : Waiter) => !(decide (w.engine = engine) && decide (w.unit = unit))
  let m := s.mem
  { s with mem := { m with
      atsRequests := m.atsRequests.map (fun r => { r with waiters := r.waiters.filter keep })
      groups := m.groups.map (fun g => { g with waiters := g.waiters.filter keep })
      noGroup := m.noGroup.filter (fun r => keep r.waiter)
      decided := m.decided.filter (fun d => keep d.1) } }

/-- The bytes an access read. -/
def Acc.bytes : Acc → List Byte
  | .ok d _ => d
  | _ => []

/-- The worst of two read failures in the order of R15 and R16: 0x12, 0x11, 0x10. -/
def worseRead (a b : Option Nat) : Option Nat :=
  match a, b with
  | none, b => b
  | a, none => a
  | some x, some y => some (max x y)

/-! ### Pre-start reads (R15) -/

/-- What the pre-start checks of a command have found: a breach, the worst failed read, and whether a read waits for a
page (R15, R310). -/
structure Pre where
  bad : Bool := false
  fail : Option Nat := none
  waits : Bool := false
  deriving DecidableEq, Repr

/-- Two findings together. -/
def Pre.and (a b : Pre) : Pre := { bad := a.bad || b.bad, fail := worseRead a.fail b.fail, waits := a.waits || b.waits }

/-- What one piece of a pre-start read has given: the bytes that could be read, and what failed. A piece that faults while
one of its blocks is poisoned has both (R15, R298). -/
def preGot (va n : Nat) (bad : List Nat) : Acc → List (Option Byte) × Pre
  | .ok d none => (d.map some, {})
  | .ok d (some _) => (d.mapIdx (fun i y => if bad.contains ((va + i) / 64) then none else some y), { fail := some 0x12 })
  | .fault k => (List.replicate n none, { fail := some (if k = 6 && !bad.isEmpty then 0x12 else kindStatus k) })
  | .wait => (List.replicate n none, { waits := true })
  | .drop => (List.replicate n none, {})

/-- Every piece of a pre-start read, whatever became of the pieces before it (R15, R304). -/
def prePieces : Nat → MemCtx → Nat → Nat → State → (List (Option Byte) × Pre) × State
  | 0, _, _, _, s => (([], {}), s)
  | fuel + 1, x, va, n, s =>
    if n = 0 then (([], {}), s)
    else
      let m := min n (4096 - va % 4096)
      let r := s.readPiece x va m (s.goesOn va n)
      let g := preGot va m (s.poisonedBlocks va m) r.1
      let q := prePieces fuel x (va + m) (n - m) r.2
      ((g.1 ++ q.1.1, g.2.and q.1.2), q.2)

/-- State `s` with the page requests that the reads leading to `t` have sent, and nothing else of them: they are made again
once the pages have come, and record each fault then (R15, R310). -/
def State.keepRequests (s t : State) : State :=
  ({ s with mem := { t.mem with decided := s.mem.decided } } : State).setFld Reg.MMU_ATS_REQUESTS (t.fld Reg.MMU_ATS_REQUESTS)

/-- A pre-start read of `n` bytes at `va`: every byte that could be read, and what failed (R15). -/
def State.preRead (s : State) (x : MemCtx) (va n : Nat) : List (Option Byte) × Pre × State :=
  let r := prePieces (n / 4096 + 2) x va n s
  (r.1.1, r.1.2, r.2)

/-- The bytes of a run of which every byte could be read. -/
def allRead (l : List (Option Byte)) : Option (List Byte) :=
  if l.all Option.isSome then some (l.map (fun x => x.getD 0)) else none

/-- The bytes [off + len - 1 : off] of a pre-start read, where all of them could be read. -/
def readPart (l : List (Option Byte)) (off len : Nat) : Option (List Byte) :=
  if off + len ≤ l.length then allRead ((l.drop off).take len) else none

/-- A check of the field at `off`, `len` bytes long: not made where the field could not be read (R15). -/
def partBad (l : List (Option Byte)) (off len : Nat) (bad : Nat → Bool) : Bool :=
  ((readPart l off len).map leNat).any bad

/-- A command's one pre-start read: while it waits for a page the command is held. Where it fails the command completes with 0x7F
if the checks that could be made, `breach`, find one, and `refuse` follows; else with the read's status. Read whole, its bytes go
to `k` (R15, R310). -/
def State.withReadOr (s : State) (c : Cmd) (x : MemCtx) (va n : Nat) (breach : List (Option Byte) → Bool) (refuse : State → State)
    (k : List Byte → State → State) : State :=
  let r := s.preRead x va n
  if r.2.1.waits then (s.keepRequests r.2.2).hold c .page
  else
    match allRead r.1 with
    | some d => k d r.2.2
    | none =>
      if breach r.1 then refuse (r.2.2.complete c 0x7F 0) else refuse (r.2.2.complete c (r.2.1.fail.getD 0x10) 0)

/-- As `withReadOr`, with no check on what is read. -/
def State.withRead (s : State) (c : Cmd) (x : MemCtx) (va n : Nat) (k : List Byte → State → State) : State :=
  s.withReadOr c x va n (fun _ => false) id k

end Sys2Proof.Machine
end

