-- ==== Sys2Proof/Machine/Records.lean ====
section
/-! DEFINITION. Site groups as captured, the status of a program's positions, and the way of a result record into the
elastic buffer of its sequencer (spec/02, spec/06, spec/08). -/

namespace Sys2Proof.Machine

open Sys2Proof

/-! ### Units of a group (R4, R34) -/

/-- Cluster of sequencer n. -/
def seqCluster (n : Nat) : Nat := n / 2
/-- Cluster of pin p. -/
def pinCluster (p : Nat) : Nat := p / 32
/-- Sequencer that drives pin p (R4). -/
def pinSeq (p : Nat) : Nat := p / 16
/-- Pin number of sequencer-local pin i of SEQn. -/
def seqPin (n i : Nat) : Nat := 16 * n + i

/-- The captured configuration of the group led by `b`. -/
def State.group (s : State) (b : Nat) : Group := SMap.get {} s.groups b

/-- Members of the group led by `b`, in ascending order. -/
def State.members (s : State) (b : Nat) : List Nat := (List.range (s.group b).size).map (fun i => b + i)

/-- Leader of the group of sequencer n, as resolved at the last SITE_ENABLE (R36). -/
def State.leaderOf (s : State) (n : Nat) : Nat := s.fld (Reg.SITE_GROUP_LEADER n)

/-- Clusters the group drives, in ascending order. -/
def State.groupClusters (s : State) (b : Nat) : List Nat := ((s.members b).map seqCluster).dedup

/-- The captured position `p` of group `b`, if defined. -/
def State.sitePos (s : State) (b p : Nat) : Option SitePos := (s.group b).positions.find? (fun x => x.position = p)

/-- Positions enabled, and enabled and open (R36). -/
def State.enabledMask (s : State) (b : Nat) : Nat := s.fld (Reg.DECKLE_STATE_ENABLED b)
def State.closedMask (s : State) (b : Nat) : Nat := s.fld (Reg.DECKLE_STATE_CLOSED b)
/-- Numbers 0 to 255 taken as bitmaps of positions. -/
def andMask (a b : Nat) : Nat := a &&& b
def orMask (a b : Nat) : Nat := a ||| b
def minusMask (a b : Nat) : Nat := a - (a &&& b)
def State.openMask (s : State) (b : Nat) : Nat := minusMask (s.enabledMask b) (s.closedMask b)

/-- Group leader and position that hold pin `p`, among captured groups. -/
def State.pinSite (s : State) (p : Nat) : Option (Nat × SitePos) :=
  let b := s.leaderOf (pinSeq p)
  ((s.group b).positions.find? (fun x => x.pins.contains p)).map (fun x => (b, x))

/-- Group leader and position that hold DPS channel `n`, among captured groups. -/
def State.dpsSite (s : State) (n : Nat) : Option (Nat × SitePos) :=
  s.groups.findSome? (fun g => (g.2.positions.find? (fun x => x.dps.contains n)).map (fun x => (g.1, x)))

/-- Group leader and position that hold site number `k`, among captured groups. -/
def State.siteOf (s : State) (k : Nat) : Option (Nat × SitePos) :=
  s.groups.findSome? (fun g => (g.2.positions.find? (fun x => x.site = k)).map (fun x => (g.1, x)))

/-- Rank of pin `p` among its site's pins (R65). -/
def SitePos.rank (x : SitePos) (p : Nat) : Nat := x.pins.findIdx (· = p)

/-! ### Programs that run -/

/-- The program of the group led by `b`. -/
def State.program (s : State) (b : Nat) : Option Program := SMap.find s.programs b

/-- A program runs on the group of sequencer n (one that has not completed). -/
def State.runs (s : State) (n : Nat) : Bool := (s.program (s.leaderOf n)).isSome

/-- Program `p` of the group led by `b` in place of the one held. -/
def State.setProgram (s : State) (b : Nat) (p : Program) : State := { s with programs := SMap.put s.programs b p }

/-- The program of group `b`, if there is one, changed by `f`. -/
def State.modProgram (s : State) (b : Nat) (f : Program → Program) : State :=
  match s.program b with
  | some p => s.setProgram b (f p)
  | none => s

/-- Sequencer `n`'s record changed by `f`. -/
def State.modSeq (s : State) (n : Nat) (f : Seq → Seq) : State :=
  { s with seqs := SMap.put s.seqs n (f (SMap.get {} s.seqs n)) }

/-- Pin `p`'s record changed by `f`. -/
def State.modPin (s : State) (p : Nat) (f : Pin → Pin) : State :=
  { s with pins := SMap.put s.pins p (f (SMap.get {} s.pins p)) }

/-- Pin `p`'s record. -/
def State.pin (s : State) (p : Nat) : Pin := SMap.get {} s.pins p

/-- Sequencer n's record. -/
def State.seqRec (s : State) (n : Nat) : Seq := SMap.get {} s.seqs n

/-! ### Statuses of positions (R16, R129) -/

/-- The codes of R16, first applicable first; ahead of them 0x22, with which a start that is due completes before its first
word: a code of R15 outranks every code of R16 (R15, R91). -/
def order16 : List Nat := [0x22, 0x50, 0x40, 0x20, 0x12, 0x11, 0x10, 0x32, 0x31, 0x60, 0x30, 0x01, 0x00]

/-- The one of two codes that R16 reports. -/
def first16 (a b : Nat) : Nat := if order16.findIdx (· = a) ≤ order16.findIdx (· = b) then a else b

/-- Position `p`'s status becomes the first under R16 of its own and `st`. -/
def Program.note (g : Program) (p st : Nat) : Program :=
  { g with status := g.status.mapIdx (fun i x => if i = p then first16 x st else x) }

/-- Status `st` is noted for every position of a bitmap that has not completed. -/
def Program.noteAll (g : Program) (positions st : Nat) : Program :=
  (setBits (minusMask positions g.done) 8).foldl (fun g p => g.note p st) g

/-- Status `st` is noted for position `p` of the program of group `b`. -/
def State.noteStatus (s : State) (b p st : Nat) : State := s.modProgram b (fun g => g.note p st)

/-- Status `st` is noted for the site of a record (R177, R178). -/
def State.noteSite (s : State) (site st : Nat) : State :=
  if bitOf site 12 then s
  else match s.siteOf (site % 512) with
    | some (b, x) => s.noteStatus b x.position st
    | none => s

/-! ### Records and the elastic buffer (R171, R177, R178) -/

/-- SITE word of a record: site number, flags over-range, clamped, supply-suspect; or NO_SITE (R171). -/
def siteWord (site flags : Nat) : Nat := site % 512 + 512 * (flags % 8)
def noSite : Nat := 4096

/-- Length of a record in bytes (R171). -/
def Rec.length (r : Rec) : Nat := 16 + r.payload.length

/-- Bytes held in an elastic buffer. -/
def elasticFill (l : List Rec) : Nat := (l.map Rec.length).foldl (· + ·) 0

/-- Capacity and stop level of the elastic buffer (R177). -/
def elasticSize : Nat := 16384
def elasticStop : Nat := 12288

/-- EB_STATUS of sequencer n follows its buffer (R177, R186). -/
def State.showElastic (s : State) (n : Nat) : State :=
  let f := elasticFill (s.seqRec n).elastic
  (s.setFld (Reg.EB_STATUS_EB_FILL n) f).setFlag (Reg.EB_STATUS_BACKPRESSURE n) (decide (elasticStop < f))

/-- One more record of the queue is lost at a cell time: it joins the run of losses of the same cause (R177). -/
def addLoss (l : List Loss) (r : Rec) (positions cause cellTime : Nat) : List Loss :=
  if l.any (fun x => x.queue = r.queue && x.cause = cause) then
    l.map (fun x =>
      if x.queue = r.queue && x.cause = cause then { x with count := x.count + 1, positions := orMask x.positions positions }
      else x)
  else l ++ [{ queue := r.queue, count := 1, positions := positions, cause := cause, cellTime := cellTime }]

/-- Position bitmap of the site a record names. -/
def State.recordPositions (s : State) (r : Rec) : Nat :=
  if bitOf r.site 12 then 0
  else match s.siteOf (r.site % 512) with
    | some (_, x) => 2 ^ x.position
    | none => 0

/-- Record `r` is handed to the Ream writer of sequencer n: discarded where its queue is disabled or faulted (R178), else
buffered; where the buffer is full it is lost (R177), a DECKLE record excepted, which waits for room (R185). -/
def State.enterRecord (s : State) (n : Nat) (r : Rec) : State :=
  let q := s.seqRec n
  if s.flag (Reg.QSTATUS_FAULT n r.queue) then
    (s.bump (Reg.SEQ_DISCARDED n) 1).noteSite r.site (SMap.get 0x10 q.faultStatus r.queue)
  else if s.afld (Reg.QCFG_ENABLE n r.queue) = 0 then
    (s.bump (Reg.SEQ_DISCARDED n) 1).noteSite r.site 0x01
  else if elasticSize < elasticFill q.elastic + r.length && decide (r.typ = 4) then
    s.modSeq n (fun q => { q with deckles := q.deckles ++ [r] })
  else if elasticSize < elasticFill q.elastic + r.length then
    let s1 := (s.bump (Reg.LOST_RECORDS n) 1).setFlag (Reg.EB_STATUS_OVERFLOW n) true
    let s2 := s1.modSeq n (fun q => { q with losses := addLoss q.losses r (s.recordPositions r) 0 s.now })
    s2.noteSite r.site 0x01
  else
    let s1 := s.modSeq n (fun q =>
      { q with elastic := q.elastic ++ [{ r with serial := q.nextSerial, handed := s.now }], nextSerial := q.nextSerial + 1 })
    s1.showElastic n

/-- The LOSS record of a run of losses (R172, R173). -/
def Loss.record (x : Loss) : Rec :=
  { queue := x.queue, typ := 6, status := 0, site := noSite, test := 0xFFFF, cellTime := x.cellTime
    payload := leBytes x.count 4 ++ leBytes x.positions 1 ++ leBytes x.cause 1 ++ leBytes 0 10 }

/-- The runs of losses of sequencer n for which room has returned receive their LOSS records, oldest first; the second
argument bounds them (R177). -/
def State.lossRecords (s : State) (n : Nat) : Nat → State
  | 0 => s
  | fuel + 1 =>
    let q := s.seqRec n
    match q.losses with
    | [] => s
    | x :: l =>
      if elasticSize < elasticFill q.elastic + 32 then s
      else State.lossRecords ((s.modSeq n (fun q => { q with losses := l })).enterRecord n x.record) n fuel

/-- The DECKLE records of sequencer n that wait for room take it, oldest first; the second argument bounds them (R185). -/
def State.deckleRecords (s : State) (n : Nat) : Nat → State
  | 0 => s
  | fuel + 1 =>
    let q := s.seqRec n
    match q.deckles with
    | [] => s
    | x :: l =>
      if elasticSize < elasticFill q.elastic + x.length then s
      else State.deckleRecords ((s.modSeq n (fun q => { q with deckles := l })).enterRecord n x) n fuel

/-- Room has returned in sequencer n's elastic buffer: waiting DECKLE records, then LOSS records, take it (R177, R185). -/
def State.reportLosses (s : State) (n : Nat) : State :=
  let t := s.deckleRecords n (s.seqRec n).deckles.length
  t.lossRecords n (t.seqRec n).losses.length

/-- Types of a program's result records: FAIL, READING, CONTACT, TMU_RESULT and the ACQ types (R183, R184). -/
def isResult (typ : Nat) : Bool := [1, 2, 3, 8, 9, 10, 11].contains typ

/-- Buffered records of sequencer n that pass a test are discarded; each affected queue receives one LOSS record of the
cause, and the sites it names are noted 0x01 (R177, R184). -/
def State.discardRecords (s : State) (n cause : Nat) (f : Rec → Bool) : State :=
  let q := s.seqRec n
  let gone := q.elastic.filter f
  let runs := gone.foldl (fun l r => addLoss l r (s.recordPositions r) cause r.handed) []
  let s1 := (s.modSeq n (fun q => { q with elastic := q.elastic.filter (fun r => !f r), losses := q.losses ++ runs })).showElastic n
  (gone.foldl (fun s r => s.noteSite r.site 0x01) s1).reportLosses n

/-- Payload of a READING or CONTACT record (R173): SOURCE, KIND, TRIGGER, VALUE. -/
def readingPayload (source kind trigger : Nat) (value : Int) : List Byte :=
  leBytes source 2 ++ leBytes kind 2 ++ leBytes trigger 4 ++ leBytes (ofSigned 64 value) 8

/-! ### Readings to the population engine (R20, R269, R270) -/

/-- Depth of the population engine's input queue (R270). -/
def popInputDepth : Nat := 4096

end Sys2Proof.Machine
end

