-- ==== Sys2Proof/Machine/Operands.lean ====
section
/-! DEFINITION. How a row becomes a step: host commands (R347, R349, R426) and events. -/

namespace Sys2Proof.Machine

open Sys2Proof

/-- What a step of the block answers. -/
abbrev Step := Host.Outcome State Fault Refusal

/-- The device is held in reset (R474, R494, R505). -/
def State.inReset (s : State) : Bool := s.perst || s.internalReset

/-- The device is in an idle state, or moving to or from one (R421, R426). -/
def State.idling (s : State) : Bool :=
  decide (s.fld Reg.PWR_STATUS_STATE ≠ 0) || s.flag Reg.PWR_STATUS_ENTERING || s.flag Reg.PWR_STATUS_EXITING

/-- A DMA transfer under way reads this ring (R185, R336). -/
def State.dmaReads (s : State) (x : DmaSource) : Bool :=
  s.dma.engines.any (fun e => e.2.held.any (fun t => t.started && decide (t.source = x)))

/-- A wake: an exit starts, or follows the entry step in progress (R426). -/
def State.startExit (s : State) : State :=
  if s.idling then s.setFlag Reg.PWR_STATUS_EXITING true else s

/-- The unit of command `c` accepts it (R347). -/
def State.accepts (s : State) (c : Cmd) : State :=
  match c.unitNumber with
  | none => s
  | some k => { s with hi := { s.hi with accepted := SMap.set 0 s.hi.accepted k (SMap.get 0 s.hi.accepted k + 1) } }

/-- Command `c` leaves the list of dispatched entries (R347); one that was not there is accepted now. -/
def State.undispatch (s : State) (c : Cmd) : State :=
  if s.hi.dispatched.contains c then { s with hi := { s.hi with dispatched := s.hi.dispatched.erase c } } else s.accepts c

/-- The command that entry `e` of queue `q` is: the one dispatched, if one was. -/
def State.taken (s : State) (q : Nat) (e : Entry) : Cmd :=
  (s.hi.dispatched.find? (fun c => decide (c.queue = q) && decide (c.entry = e))).getD { queue := q, entry := e, epoch := s.hi.epoch }

/-- The unit of command `c` holds a completion that the full buffer has not taken: it takes no further command (R353). -/
def State.unitStopped (s : State) (c : Cmd) : Bool :=
  c.unitKey.isSome && s.hi.unitHeld.any (fun x => decide (x.cmd.unitKey = c.unitKey))

/-- A dispatched command reaches its unit: it waits for P0 while the device is idle (R426), and while its unit holds a
completion (R353); else it acts. -/
def State.accept (s : State) (c : Cmd) (k : Cmd → State → State) : State :=
  let s1 := s.undispatch c
  if s1.idling then (s1.startExit).hold c .wake
  else if s1.unitStopped c then s1.hold c (.busy 1)
  else k c s1

/-- The next state of a command: its effect on everything but the queue of waiting commands. -/
def answer (s t : State) : Step := .next { t with pending := s.pending }

/-- A host command of opcode `op`: an entry that spells another opcode is no such command. -/
def hostCmd (op : Nat) (q : BitVec 8) (e : Entry) (k : Cmd → State → State) (s : State) : Step :=
  if Entry.opcode e ≠ op then .fault .illFormed
  else answer s (if s.inReset then s else s.accept (s.taken q.toNat e) k)

/-- A host command of opcode `op` whose ACTION byte, byte 8, passes a test (R225, R248, R266, R484). -/
def hostAction (op : Nat) (action : Nat → Bool) (q : BitVec 8) (e : Entry) (k : Cmd → State → State) (s : State) : Step :=
  if Entry.opcode e = op ∧ action (Entry.field e 8 1) then
    answer s (if s.inReset then s else s.accept (s.taken q.toNat e) k)
  else .fault .illFormed

/-- An event: its effect on the state; none while the device is held in reset (R474). -/
def event (k : State → State) (s : State) : Step := answer s (if s.inReset then s else k s)

/-- What happens whether or not the device is held in reset: resets themselves, the test access port, outside drivers. -/
def always (k : State → State) (s : State) : Step := answer s (k s)

end Sys2Proof.Machine
end

