-- ==== Sys2Proof/Machine/Pins.lean ====
section
/-! DEFINITION. Pin channels: settings put in force, what a symbol does, the PPMU and its readings (spec/03). -/

namespace Sys2Proof.Machine

open Sys2Proof

/-! ### Rounding (R50, R64) -/

/-- Nearest multiple of 100 µV, halves towards +∞ (R50). -/
def roundLevel (x : Int) : Int := (x + 50) / 100 * 100

/-- n / d rounded to the nearest integer, halves away from zero, for d > 0. -/
def roundAway (n d : Int) : Int := if n < 0 then -((2 * (-n) + d) / (2 * d)) else (2 * n + d) / (2 * d)

/-- Nearest multiple of a step, halves away from zero: load currents in steps of 1 µA, PPMU force currents in steps of their
range's resolution, 0.001 % of the range, and clamp monitor thresholds in steps of 100 µA (R49, R50). DESIGN CHOICE: the spec
says "nearest" for the thresholds and nothing of halves. Log entry 34. -/
def roundStep (step x : Int) : Int := roundAway x step * step

/-! ### Settings put in force (R50 to R53, R58, R59, R63) -/

def levelLow : Int := -1500000
def levelHigh : Int := 6500000

/-- `lo` ≤ x ≤ `hi`. -/
def within (lo hi x : Int) : Bool := decide (lo ≤ x) && decide (x ≤ hi)

/-- The voltages of level set k of pin p. -/
def levelVoltages (p k : Nat) : List Fld :=
  [Reg.LS_VIH p k, Reg.LS_VIL p k, Reg.LS_VTT p k, Reg.LS_VOH p k, Reg.LS_VOL p k, Reg.LS_VCOM p k]

/-- The fields of pin p's PPMU_CTRL. -/
def ppmuFields (p : Nat) : List Fld :=
  [Reg.PPMU_CTRL_MODE p, Reg.PPMU_CTRL_RANGE p, Reg.PPMU_CTRL_CONNECT p, Reg.PPMU_CTRL_AVG_LOG2 p]

/-- The fields of pin p's PIN_CTRL. -/
def pinCtrlFields (p : Nat) : List Fld :=
  [Reg.PIN_CTRL_DRV_EN p, Reg.PIN_CTRL_CMP_EN p, Reg.PIN_CTRL_LOAD_ON_COMPARE p, Reg.PIN_CTRL_MON_EN p,
    Reg.PIN_CTRL_MON_FILTER p, Reg.PIN_CTRL_LS_DEFAULT p]

/-- The levels of set k of pin p that place a voltage on the ball (R51, R52). -/
def ballLevels (p k : Nat) : List Fld := [Reg.LS_VIH p k, Reg.LS_VIL p k, Reg.LS_VTT p k, Reg.LS_VCOM p k]

/-- Some field of the list, as written, exceeds the voltage ceiling (R52). -/
def State.aboveCeiling (s : State) (l : List Fld) : Bool := l.any (fun f => decide ((s.fuse.ceiling : Int) < s.sfld f))

/-- Level set k of pin p, as written, is valid (R51). -/
def State.levelSetValid (s : State) (p k : Nat) : Bool :=
  let vih := s.sfld (Reg.LS_VIH p k)
  let vil := s.sfld (Reg.LS_VIL p k)
  let vtt := s.sfld (Reg.LS_VTT p k)
  ([vih, vil, vtt, s.sfld (Reg.LS_VOH p k), s.sfld (Reg.LS_VOL p k), s.sfld (Reg.LS_VCOM p k)].all
    (within levelLow levelHigh)) &&
  decide (max vih (max vil vtt) - min vih (min vil vtt) ≤ 6000000) &&
  decide (s.sfld (Reg.LS_VOL p k) ≤ s.sfld (Reg.LS_VOH p k)) &&
  within 0 24000000000 (s.sfld (Reg.LS_ISRC p k)) && within (-24000000000) 0 (s.sfld (Reg.LS_ISNK p k)) &&
  !s.aboveCeiling (ballLevels p k)

/-- Nominal range of a PPMU current range code, pA (R62). -/
def nominalRange (r : Nat) : Int :=
  match r with
  | 0 => 2000000
  | 1 => 20000000
  | 2 => 200000000
  | 3 => 2000000000
  | _ => 40000000000

/-- The PPMU settings of pin p, as written, are valid (R63). -/
def State.ppmuValid (s : State) (p : Nat) : Bool :=
  let r := s.fld (Reg.PPMU_CTRL_RANGE p)
  decide (s.fld (Reg.PPMU_CTRL_MODE p) ≤ 5) && decide (r ≤ 4) && decide (s.fld (Reg.PPMU_CTRL_AVG_LOG2 p) ≤ 8) &&
  within levelLow levelHigh (s.sfld (Reg.FORCE_V p)) &&
  within (-(nominalRange r)) (nominalRange r) (s.sfld (Reg.FORCE_I p)) &&
  decide (s.sfld (Reg.VCLAMP_LO p) < s.sfld (Reg.VCLAMP_HI p)) &&
  within levelLow levelHigh (s.sfld (Reg.VCLAMP_LO p)) && within levelLow levelHigh (s.sfld (Reg.VCLAMP_HI p)) &&
  !s.aboveCeiling [Reg.FORCE_V p, Reg.VCLAMP_HI p, Reg.VCLAMP_LO p]

/-- Fields put in force with their voltages rounded to 100 µV (R50). -/
def State.applyVoltages (s : State) (l : List Fld) : State :=
  l.foldl (fun s f => s.applyVal f (ofSigned 32 (roundLevel (s.sfld f)))) s

/-- A current field put in force rounded to a step (R50). -/
def State.applyCurrent (s : State) (step : Int) (f : Fld) : State := s.applyVal f (ofSigned 40 (roundStep step (s.sfld f)))

/-- Level set k of pin p is put in force if valid, rounded; its LSn_ERR follows (R50, R51). -/
def State.applyLevelSet (s : State) (p k : Nat) : State :=
  let ok := s.levelSetValid p k
  let s1 := if ok then
      ((s.applyVoltages (levelVoltages p k)).applyCurrent 1000000 (Reg.LS_ISRC p k)).applyCurrent 1000000 (Reg.LS_ISNK p k)
    else s
  s1.setFlag (if k = 0 then Reg.PIN_STATUS_LS0_ERR p else Reg.PIN_STATUS_LS1_ERR p) (!ok)

/-- The clamp pair of pin p is put in force if valid, rounded: CLAMP_HI at most at the ceiling; a CLAMP_LO above the ceiling is
not applied, and the lower clamp stays as it was; CLAMP_ERR follows (R50, R52, R58). -/
def State.applyClamps (s : State) (p : Nat) : State :=
  let top : Int := (s.fuse.ceiling : Int)
  let lo := s.sfld (Reg.CLAMP_LO p)
  let hi := s.sfld (Reg.CLAMP_HI p)
  let ok := decide (lo < hi)
  let s1 := if ok then
      let s1 := if lo ≤ top then s.applyVoltages [Reg.CLAMP_LO p] else s
      (s1.applyVal (Reg.CLAMP_HI p) (ofSigned 32 (roundLevel (min hi top)))).modPin p
        (fun x => { x with clampOver := decide (top < hi) })
    else s
  s1.setFlag (Reg.PIN_STATUS_CLAMP_ERR p) (!ok)

/-- The clamp monitor threshold of pin p is put in force if within its span; THR_ERR follows (R59). -/
def State.applyThreshold (s : State) (p : Nat) : State :=
  let ok := within 1000000000 60000000000 (s.sfld (Reg.CLAMP_TRIP_THRESHOLD p))
  let s1 := if ok then s.applyCurrent 100000000 (Reg.CLAMP_TRIP_THRESHOLD p) else s
  s1.setFlag (Reg.PIN_STATUS_THR_ERR p) (!ok)

/-- The PPMU settings of pin p are put in force if valid, rounded; PPMU_ERR follows (R50, R63). -/
def State.applyPpmu (s : State) (p : Nat) : State :=
  let ok := s.ppmuValid p
  let s1 := if ok then
      ((s.applyFlds (ppmuFields p)).applyVoltages [Reg.FORCE_V p, Reg.VCLAMP_HI p, Reg.VCLAMP_LO p]).applyCurrent
        (nominalRange (s.fld (Reg.PPMU_CTRL_RANGE p)) / 100000) (Reg.FORCE_I p)
    else s
  s1.setFlag (Reg.PIN_STATUS_PPMU_ERR p) (!ok)

/-- CEILING of pin p follows the level and PPMU settings written and the clamp pair: an invalid pair leaves the part of the
clamps as the last valid pair left it (R52, R58). -/
def State.showCeiling (s : State) (p : Nat) : State :=
  s.setFlag (Reg.PIN_STATUS_CEILING p)
    ((s.pin p).clampOver || s.aboveCeiling (ballLevels p 0 ++ ballLevels p 1 ++ [Reg.FORCE_V p, Reg.VCLAMP_HI p, Reg.VCLAMP_LO p]))

/-- The writes of pin p's block are put in force, checked as they are (R53). -/
def State.applyPin (s : State) (p : Nat) : State :=
  let s1 := s.applyFlds (pinCtrlFields p)
  ((((((s1.applyLevelSet p 0).applyLevelSet p 1).applyClamps p).applyThreshold p).applyPpmu p).showCeiling p)

/-- A write to pin p's block: held while a program runs on its sequencer, PENDING reading 1, else put in force (R53). -/
def State.pinWritten (s : State) (p : Nat) : State :=
  if s.runs (pinSeq p) then
    (s.modPin p (fun x => { x with held := true })).setFlag (Reg.PIN_STATUS_PENDING p) true
  else s.applyPin p

/-- The settings of assigned pin p bar a program: an invalid level set, PPMU setting, clamp pair or threshold
(R51, R58, R59, R63). -/
def State.pinInvalid (s : State) (p : Nat) : Bool :=
  s.flag (Reg.PIN_STATUS_LS0_ERR p) || s.flag (Reg.PIN_STATUS_LS1_ERR p) || s.flag (Reg.PIN_STATUS_PPMU_ERR p) ||
  s.flag (Reg.PIN_STATUS_CLAMP_ERR p) || s.flag (Reg.PIN_STATUS_THR_ERR p)

/-! ### Symbols (R55, R72, R84, R85) -/

/-- The driver through one vector: after E0, after E1, after E2 (R84). -/
structure DriveTrace where
  e0 : Drive
  e1 : Drive
  e2 : Drive
  deriving DecidableEq, Repr

/-- The driver does nothing at any edge. -/
def DriveTrace.stay (d : Drive) : DriveTrace := { e0 := d, e1 := d, e2 := d }

/-- Data of level high or low in a format, the driver having been in state `was`: the lead level only where the driver turns
on at E0, but format 3 drives the complement at E0 in either case; the data from E1; the return level from E2 (R85). -/
def dataTrace (fmt : Nat) (was : Drive) (high : Bool) : DriveTrace :=
  let d : Drive := if high then .vih else .vil
  let n : Drive := if high then .vil else .vih
  match fmt with
  | 0 => { e0 := if was = .off then d else was, e1 := d, e2 := d }
  | 1 => { e0 := if was = .off then .vil else was, e1 := d, e2 := .vil }
  | 2 => { e0 := if was = .off then .vih else was, e1 := d, e2 := .vih }
  | _ => { e0 := n, e1 := d, e2 := n }

/-- The driver through a vector of resolved symbol `sym` in a format (R84). -/
def driveTrace (fmt : Nat) (was : Drive) (sym : Nat) : DriveTrace :=
  match sym with
  | 0 => dataTrace fmt was false
  | 1 => dataTrace fmt was true
  | 2 => .stay .off
  | 3 => .stay .off
  | 4 => .stay .off
  | 5 => .stay .off
  | 6 => .stay .off
  | 8 => { e0 := .vil, e1 := .vih, e2 := .vil }
  | 11 => .stay .off
  | 13 => { e0 := if was = .off then .vtt else was, e1 := .vtt, e2 := .vtt }
  | _ => .stay was

/-- The driver at time `t` from the vector's start, its drive edges at `e0`, `e1` and `e2`: with E0 = E1 it turns on directly
at the E1 level (R84). -/
def DriveTrace.at (x : DriveTrace) (was : Drive) (e0 e1 e2 t : Int) : Drive :=
  if e2 ≤ t then x.e2 else if e1 ≤ t then x.e1 else if e0 ≤ t then x.e0 else was

/-- The load after E0 of a vector of resolved symbol `sym`; `loc` is LOAD_ON_COMPARE (R55, R84). -/
def loadAfter (loc was : Bool) (sym : Nat) : Bool :=
  match sym with
  | 3 => loc
  | 4 => loc
  | 5 => loc
  | 6 => true
  | 11 => loc
  | 7 => was
  | _ => false

/-- Symbols 0xE and 0xF act as 0x7 (R148). -/
def plainSymbol (sym : Nat) : Nat := if sym = 14 ∨ sym = 15 then 7 else sym

/-- Symbols 0x9 and 0xA with their site-register bit (R149): the drive or compare they stand for. -/
def withBit (sym : Nat) (bit : Bool) : Nat :=
  if sym = 9 then (if bit then 1 else 0) else if sym = 10 then (if bit then 4 else 3) else sym

/-- Driver and load of a pin once a vector with resolved symbol `sym` has been applied; `fmt` is its format,
`loc` its LOAD_ON_COMPARE. In the first vector of a program 0x7 means driver and load off (R55, R84, R85). -/
def Pin.act (x : Pin) (fmt : Nat) (loc : Bool) (sym : Nat) : Pin :=
  let y : Pin := { x with lastSymbol := sym, fresh := false }
  if x.fresh && decide (sym = 7) then { y with drive := .off, load := false }
  else { y with drive := (driveTrace fmt x.drive sym).e2, load := loadAfter loc x.load sym }

/-- Driver and load of a pin under symbol `sym` of the hold vector: the static state of the symbol, no edges; 0x7, 0xC, 0xE
and 0xF keep both (R72, R83). Static data levels are those of format 0. -/
def Pin.holdSymbol (x : Pin) (loc : Bool) (sym : Nat) : Pin :=
  if sym = 12 then x
  else { x with drive := (driveTrace 0 x.drive sym).e2, load := loadAfter loc x.load sym }

/-- Pin p is parked: from power-up until the first program on its sequencer, in an idle state, and while its cluster is in reset (R71, R421, R480). -/
def State.pinParked (s : State) (p : Nat) : Bool :=
  (s.pin p).parked || decide (s.fld Reg.PWR_STATUS_STATE ≠ 0) || s.units.restarting.contains (p / 32)

/-- The mode pin p's PPMU works in: that of the measurement in progress, as a CONTACT_CHECK fixes it, else MODE in force
(R40, R61, R66). -/
def State.ppmuMode (s : State) (p : Nat) : Nat :=
  match (s.pin p).meas with
  | some m => m.mode
  | none => s.afld (Reg.PPMU_CTRL_MODE p)

/-- The PPMU of pin p is connected in a mode other than 0 (R56): a park disconnects it, but for a command that measures with
it, and so does a safe state (R42, R66, R71). -/
def State.ppmuActive (s : State) (p : Nat) : Bool :=
  let x := s.pin p
  x.connected && decide (s.ppmuMode p ≠ 0) && x.safe.isNone && (!s.pinParked p || x.meas.isSome)

/-- The AWG's bus switch connects pin p: BUS_EN, no PPMU at work, not parked, its site not closed (R223). -/
def State.busConnected (s : State) (p : Nat) : Bool :=
  let c := p / 32
  decide (p < 1024) && decide (s.afld (Reg.AWG_CTRL_BUS_EN c) ≠ 0) && decide (s.afld (Reg.AWG_CTRL_BUS_PIN c) = p % 32) &&
  !s.ppmuActive p && !s.pinParked p && (s.pin p).safe.isNone

/-- What pin p's driver does at the ball: the Deckle safe state first, then a park, the PPMU, DRV_EN and the symbol
applied last; an unassigned pin is off, and so is one the AWG drives (R32, R42, R55, R56, R71, R223). -/
def State.ballDrive (s : State) (p : Nat) : Drive :=
  let x := s.pin p
  match x.safe with
  | some .highZ => .off
  | some (.drive _) => .vil
  | none =>
    if s.pinParked p || (s.pinSite p).isNone || s.ppmuActive p || s.busConnected p ||
      decide (s.afld (Reg.PIN_CTRL_DRV_EN p) = 0) then .off else x.drive

/-- The level a drive code stands for at pin p, µV, as applied, rounded (R50, R54). -/
def State.driveLevel (s : State) (p : Nat) (d : Drive) : Option Int :=
  let k := (s.pin p).levelSet
  match d with
  | .off => none
  | .vih => some (s.asfld (Reg.LS_VIH p k))
  | .vil => some (s.asfld (Reg.LS_VIL p k))
  | .vtt => some (s.asfld (Reg.LS_VTT p k))

/-- The voltage pin p's driver puts on the ball through its 50 Ω, µV; a safe state drives the VIL frozen when the Deckle closed
(R42, R49, R56). -/
def State.ballVoltage (s : State) (p : Nat) : Option Int :=
  match (s.pin p).safe with
  | some (.drive v) => some v
  | _ => s.driveLevel p (s.ballDrive p)

/-- Pin p's active load is on at the ball (R42, R55, R56, R57, R223). -/
def State.ballLoad (s : State) (p : Nat) : Bool :=
  let x := s.pin p
  x.load && x.safe.isNone && !s.pinParked p && (s.pinSite p).isSome && !s.ppmuActive p && !s.busConnected p

/-- The current the active load puts into a pin that lies at `v` µV: ISRC while the pin lies below VCOM, ISNK, which draws its
magnitude, while it lies above (R57). -/
def State.loadCurrent (s : State) (p : Nat) (v : Int) : Int :=
  let k := (s.pin p).levelSet
  if !s.ballLoad p then 0
  else if v < s.asfld (Reg.LS_VCOM p k) then s.asfld (Reg.LS_ISRC p k)
  else if s.asfld (Reg.LS_VCOM p k) < v then s.asfld (Reg.LS_ISNK p k)
  else 0

/-- What a PPMU forces at the ball: nothing, a voltage in µV, a current in pA (R61). -/
inductive Forced where
  | nothing
  | voltage (v : Int)
  | current (i : Int)
  deriving DecidableEq, Repr

/-- What the PPMU of pin p forces: FORCE_V in modes 1 and 3, FORCE_I in modes 2 and 4, in force; a CONTACT_CHECK's current while
it tests the pin (R40, R61). -/
def State.ppmuForced (s : State) (p : Nat) : Forced :=
  if !s.ppmuActive p then .nothing
  else
    match (s.pin p).meas with
    | some { origin := .contact c _, range := r, .. } => .current (roundStep (nominalRange r / 100000) (toSigned 40 (c.field 16 5)))
    | _ =>
      match s.ppmuMode p with
      | 1 => .voltage (s.asfld (Reg.FORCE_V p))
      | 2 => .current (s.asfld (Reg.FORCE_I p))
      | 3 => .voltage (s.asfld (Reg.FORCE_V p))
      | 4 => .current (s.asfld (Reg.FORCE_I p))
      | _ => .nothing

/-- What limits the PPMU of pin p while it forces: least and greatest current, pA, in modes 1 and 3, 1.2 times the nominal
range; least and greatest voltage, µV, in modes 2 and 4; nothing in the other modes (R61, R62). -/
def State.ppmuLimits (s : State) (p : Nat) : Option (Int × Int) :=
  let top := nominalRange (s.afld (Reg.PPMU_CTRL_RANGE p)) * 6 / 5
  match s.ppmuMode p with
  | 1 => some (-top, top)
  | 2 => some (s.asfld (Reg.VCLAMP_LO p), s.asfld (Reg.VCLAMP_HI p))
  | 3 => some (-top, top)
  | 4 => some (s.asfld (Reg.VCLAMP_LO p), s.asfld (Reg.VCLAMP_HI p))
  | _ => none

/-! ### Calibration constants (R409, R410) -/

/-- Key of word `i` of the calibration record of KIND `kind`, UNIT `unit`: pairs first, GAIN at 2j and OFFSET at
2j + 1, then the timing terms or delays (R410). -/
def calKey (kind unit i : Nat) : Nat := (kind * 65536 + unit) * 64 + i

/-- Number of pairs in a record of a KIND (R410). -/
def calPairs (kind : Nat) : Nat :=
  match kind with
  | 1 => 22
  | 2 => 2
  | 3 => 5
  | 4 => 5
  | 5 => 5
  | _ => 0

/-- The empty-store value of a word of a record: GAIN 1.0, everything else 0 (R409). -/
def calDefault (kind i : Nat) : Nat := if i < 2 * calPairs kind ∧ i % 2 = 0 then 0x40000000 else 0

/-- The constant in force. -/
def State.cal (s : State) (kind unit i : Nat) : Nat := SMap.get (calDefault kind i) s.cals.work (calKey kind unit i)

/-- GAIN of pair j in force (R409). -/
def State.calGain (s : State) (kind unit j : Nat) : Int := (s.cal kind unit (2 * j) : Int)
/-- OFFSET of pair j in force (R409). -/
def State.calOffset (s : State) (kind unit j : Nat) : Int := toSigned 32 (s.cal kind unit (2 * j + 1))

/-! ### Readings (R64, R67, R104, R173, R269) -/

/-- A reading is pushed to the population engine: discarded where the engine is not ready, dropped where its queue
is full (R269). -/
def State.popPush (s : State) (r : PopReading) : State :=
  if !s.ready popUnit then s.bump Reg.POP_UNDEFINED 1
  else if popInputDepth ≤ s.popInput.length then (s.bump Reg.POP_DROPPED 1).setFlag Reg.POP_STATUS_DROP true
  else
    let s1 := ({ s with popInput := s.popInput ++ [r] } : State).setFld Reg.POP_STATUS_IN_FILL (s.popInput.length + 1)
    s1.modProgram r.leader (fun g => { g with sent := g.sent ++ [(r.test, r.site)] })

/-- A reading of trigger `serial` returns to the MEAS conditions of the group led by `b`; one that nothing awaits, its trigger
undone by a replay, does not (R104, R105, R138). -/
def State.conditionReading (s : State) (b serial : Nat) (r : CondReading) : State :=
  s.modProgram b (fun g =>
    if g.pendingReadings.any (fun x => decide (x.1 = serial)) then
      { g with
        pendingReadings := g.pendingReadings.eraseP (fun x => decide (x.1 = serial))
        readings := g.readings ++ [{ r with serial := serial }] }
    else g)

/-- The supply-suspect interval is running (R434). -/
def State.supplySuspect (s : State) : Bool :=
  decide (s.fld Reg.SUPPLY_STATUS_BELOW_WARN ≠ 0) || decide (s.now < s.power.suspectEnd)

/-- A PPMU mode measures a current (R61). -/
def modeCurrent (mode : Nat) : Bool := decide (mode = 1 ∨ mode = 4)

/-- The converter span of a range, from end to end, pA (R62). -/
def converterSpan (r : Nat) : Int :=
  match r with
  | 0 => 5000000
  | 1 => 50000000
  | 2 => 500000000
  | 3 => 5000000000
  | _ => 100000000000

/-- The reading of N conversions whose codes sum to `sum` (R64, R409): round(G × (sum / N − O)) + M with G the
nominal LSB, span / 2^18, times GAIN / 2^30, and O = OFFSET / 64. -/
def ppmuReading (span gain offset m sum n : Int) : Int :=
  roundAway (span * gain * (64 * sum - offset * n)) (2 ^ 18 * 2 ^ 30 * 64 * n) + m

/-- Reading of pin p in a mode and range from N conversions summing to `sum`, constants as in force (R61, R64). -/
def State.pinReading (s : State) (p mode range : Nat) (sum : Int) (n : Nat) : Int :=
  if modeCurrent mode then
    ppmuReading (converterSpan range) (s.calGain 1 p (17 + range)) (s.calOffset 1 p (17 + range)) 0 sum n
  else ppmuReading 9000000 (s.calGain 1 p 16) (s.calOffset 1 p 16) 2500000 sum n

/-- Over-range of a reading (R67). -/
def overRange (mode range : Nat) (value : Int) : Bool :=
  if modeCurrent mode then !within (-(nominalRange range)) (nominalRange range) value
  else !within levelLow levelHigh value

/-- KIND of a pin's READING or CONTACT payload (R173). -/
def readingKind (mode conversions : Nat) : Nat := (if modeCurrent mode then 2 else 1) + 16 * conversions

/-- A PPMU_MEASURE's pin is done: measured or missed, flagged or not (R66). -/
def PpmuRun.pinDone (r : PpmuRun) (i : Nat) (ok flagged : Bool) : PpmuRun :=
  { r with
    left := r.left.erase i
    measured := if ok then r.measured + 2 ^ i else r.measured
    missed := if ok then r.missed else r.missed + 2 ^ i
    flagged := if flagged then r.flagged + 2 ^ i else r.flagged }

/-- Cluster c's record, and the state with it changed. -/
def State.cluster (s : State) (c : Nat) : Cluster := SMap.get {} s.clusters c
def State.modCluster (s : State) (c : Nat) (f : Cluster → Cluster) : State :=
  { s with clusters := SMap.put s.clusters c (f (s.cluster c)) }

/-- PPMU_MEASURE `c` completes once every pin is done (R66). -/
def State.ppmuRunEnd (s : State) (cl : Nat) (r : PpmuRun) : State :=
  if r.left.isEmpty then
    (s.modCluster cl (fun k => { k with ppmuRuns := k.ppmuRuns.filter (fun x => decide (x.cmd ≠ r.cmd)) })).complete r.cmd 0
      (r.measured + 2 ^ 32 * r.missed + 2 ^ 64 * r.flagged)
  else s

/-- Local pin `i` of the PPMU_MEASURE `cmd` on cluster `cl` is done. -/
def State.ppmuPinDone (s : State) (cl i : Nat) (cmd : Cmd) (ok flagged : Bool) : State :=
  match (s.cluster cl).ppmuRuns.find? (fun r => decide (r.cmd = cmd)) with
  | none => s
  | some r =>
    let r1 := r.pinDone i ok flagged
    (s.modCluster cl (fun k => { k with ppmuRuns := k.ppmuRuns.map (fun x => if x.cmd = cmd then r1 else x) })).ppmuRunEnd cl r1

/-- Reading of measurement `m` of pin p goes to its record, the population engine and the conditions (R65, R67). -/
def State.deliverPin (s : State) (p : Nat) (m : PinMeas) (status conversions : Nat) (value : Int) (flags start : Nat) : State :=
  let s1 := if m.toRecord then
      s.enterRecord (pinSeq p)
        { queue := m.queue, typ := 2, status := status, site := siteWord m.site flags, test := m.test, cellTime := start
          payload := readingPayload p (readingKind m.mode conversions) m.word value }
    else s
  let s2 := if m.toPop then
      s1.popPush { site := m.site, test := m.test, value := value, status := status, flags := flags, cellTime := start
                   leader := m.leader, position := m.position }
    else s1
  match m.origin with
  | .trigger b serial => s2.conditionReading b serial { position := m.position, value := value, status := status, flags := flags }
  | .measure cmd =>
    (s2.modPin p (fun x => { x with connected := m.wasConnected })).ppmuPinDone (pinCluster p) (p % 32) cmd
      (decide (status = 0)) (decide (flags % 4 ≠ 0))
  | .contact _ _ => s2

/-- A measurement of pin p starts, or is refused while the pin's previous one is in progress (R69). -/
def State.startMeas (s : State) (p : Nat) (m : PinMeas) : State :=
  if (s.pin p).meas.isSome then
    (s.setFlag (Reg.PIN_STATUS_MEAS_OVERRUN p) true).deliverPin p
      { m with wasConnected := (s.pin p).connected } 1 0 0 (4 * b2n s.supplySuspect) s.now
  else s.modPin p (fun x => { x with meas := some m })

/-- The PPMU met the limit of its mode during a conversion: the reading is flagged, and PPMU_CLAMPED sets; modes 0 and 5 have
no limit (R67). -/
def PinMeas.limited (m : PinMeas) (clamped : Bool) : Bool := clamped && decide (1 ≤ m.mode) && decide (m.mode ≤ 4)

/-- The pin's measurement ends before its last conversion with `n` conversions summing to `sum`, the first at `start`;
`clamped`: the PPMU met its limit during one of them (R67, R69, R172). -/
def State.cutMeas (s : State) (p : Nat) (status n : Nat) (sum : Int) (start : Nat) (clamped : Bool) : State :=
  match (s.pin p).meas with
  | none => s
  | some m =>
    let v := if n = 0 then 0 else s.pinReading p m.mode m.range sum n
    let cl := decide (n ≠ 0) && m.limited clamped
    let s1 := if cl then s.setFlag (Reg.PIN_STATUS_PPMU_CLAMPED p) true else s
    (s1.modPin p (fun x => { x with meas := none })).deliverPin p m status n v
      ((if n = 0 then 0 else b2n (overRange m.mode m.range v) + 2 * b2n cl) + 4 * b2n m.suspect) (if n = 0 then m.start else start)

/-- PPMU_READING: the last conversion of pin p's measurement has ended (R64, R65, R67, R68). -/
def doPpmuReading (p : Nat) (sum : BitVec 26) (clamped : Bool) (start : Nat) (s : State) : State :=
  match (s.pin p).meas with
  | none => s
  | some m =>
    match m.origin with
    | .contact _ _ => s
    | _ =>
      let n := 2 ^ m.avgLog2
      let v := s.pinReading p m.mode m.range sum.toInt n
      let cl := m.limited clamped
      let flags := b2n (overRange m.mode m.range v) + 2 * b2n cl + 4 * b2n (m.suspect || s.supplySuspect)
      let s1 := if cl then s.setFlag (Reg.PIN_STATUS_PPMU_CLAMPED p) true else s
      (s1.modPin p (fun x => { x with meas := none })).deliverPin p m 0 n v flags start

end Sys2Proof.Machine
end

