-- ==== Sys2Proof/Machine/Sine.lean ====
section
/-! DEFINITION. The sine table of the AWG, T[i] = round(32,767 × sin(2π × i / 16,384)), by integer arithmetic on a scale of
10^30: the Taylor series of the first quadrant and its symmetries (R213). -/

namespace Sys2Proof.Machine

open Sys2Proof

/-- The scale of the fixed-point numbers below. -/
def sineScale : Int := 1000000000000000000000000000000

/-- π on that scale. -/
def piScaled : Int := 3141592653589793238462643383279

/-- Terms of the series of sin(x) from a term on: x, the term reached, its number, the sum so far. -/
def sineTerms (x : Int) : Nat → Nat → Int → Int → Int
  | 0, _, _, acc => acc
  | fuel + 1, k, term, acc =>
    let t := -((term * x / sineScale * x / sineScale) / ((2 * k : Int) * (2 * k + 1)))
    sineTerms x fuel (k + 1) t (acc + t)

/-- sin(2π × q / 16,384) on the scale, for q in the first quadrant. -/
def quarterSine (q : Nat) : Int :=
  let x := piScaled * 2 * (q : Int) / 16384
  sineTerms x 19 1 x x

/-- T[i] of the sine table (R213). -/
def sineTable (i : Nat) : Int :=
  let h := i % 8192
  let q := if h ≤ 4096 then h else 8192 - h
  let v := (2 * 32767 * quarterSine q + sineScale) / (2 * sineScale)
  if i % 16384 < 8192 then v else -v

/-- A value limited to 16 bits, and whether the limit changed it (R213). -/
def saturate16 (x : Int) : Int × Bool := (max (-32768) (min 32767 x), decide (x < -32768) || decide (32767 < x))

/-- The sine code of a phase of 48 bits, an amplitude and an offset (R213): S × 65,536 is exact. -/
def sineCode (phase amp : Nat) (dc : Int) : Int × Bool :=
  let i := bitsOf phase 34 14
  let f : Int := bitsOf phase 18 16
  let a := sineTable i
  let b := sineTable ((i + 1) % 16384)
  saturate16 (roundAway ((amp : Int) * (65536 * a + (b - a) * f)) (32768 * 65536) + dc)

end Sys2Proof.Machine
end

