-- ==== Sys2Proof/Machine/Crc.lean ====
section
/-! DEFINITION. Cyclic redundancy codes. -/

namespace Sys2Proof.Machine

open Sys2Proof

/-- One bit step of a reflected 32-bit CRC with reversed polynomial `poly`. -/
def crcStep (poly : Nat) : Nat → Nat → Nat
  | 0, c => c
  | k + 1, c => crcStep poly k (if c % 2 = 1 then (c / 2) ^^^ poly else c / 2)

/-- The register after the bytes of a message. -/
def crcBytes (poly : Nat) : List Byte → Nat → Nat
  | [], c => c
  | b :: bs, c => crcBytes poly bs (crcStep poly 8 (c ^^^ b.toNat))

/-- CRC-32C: Castagnoli polynomial, initial value 0xFFFF_FFFF, final inversion (R272). -/
def crc32c (m : List Byte) : Nat := crcBytes 0x82F63B78 m 0xFFFFFFFF ^^^ 0xFFFFFFFF

/-- One bit step of an unreflected CRC of `w` bits with polynomial `poly`. -/
def crcUpStep (w poly : Nat) : Nat → Nat → Nat
  | 0, c => c
  | k + 1, c => crcUpStep w poly k (if bitOf c (w - 1) then (c * 2 % 2 ^ w) ^^^ poly else c * 2)

/-- The register after the bytes of a message, most significant bit first. -/
def crcUpBytes (w poly : Nat) : List Byte → Nat → Nat
  | [], c => c
  | b :: bs, c => crcUpBytes w poly bs (crcUpStep w poly 8 (c ^^^ (b.toNat * 2 ^ (w - 8))))

/-- CRC-8, polynomial x^8 + x^2 + x + 1, initial value 0, of a Felt control block (R363). -/
def crc8 (m : List Byte) : Nat := crcUpBytes 8 0x07 m 0

/-- CRC-16, polynomial 0x1021, initial value 0xFFFF, of a cell-port frame (R399). -/
def crc16 (m : List Byte) : Nat := crcUpBytes 16 0x1021 m 0xFFFF

end Sys2Proof.Machine
end

