-- ==== Sys2Proof/Machine/Routes.lean ====
section
/-! DEFINITION. The torus: link-state map, routes, and the messages a node sends (R368 to R372). -/

namespace Sys2Proof.Machine

open Sys2Proof

/-- Cell time with its epoch as one number (R281, R377). -/
def State.absNow (s : State) : Nat := s.fld Reg.EPOCH * 2 ^ 64 + s.now

/-- The node number and the extents (R368). -/
def State.node (s : State) : Nat := s.fld Reg.FELT_CFG_NODE
def State.extentX (s : State) : Nat := s.fld Reg.FELT_CFG_X
def State.extentY (s : State) : Nat := s.fld Reg.FELT_CFG_Y

/-- Coordinates of a node (R368). -/
def nodeX (n : Nat) : Nat := n / 256 % 256
def nodeY (n : Nat) : Nat := n % 256
/-- The node at coordinates (x, y). -/
def nodeAt (x y : Nat) : Nat := 256 * x + y

/-- The neighbour of node n on port p: 0 XP, 1 XN, 2 YP, 3 YN (R368). -/
def State.neighbour (s : State) (n p : Nat) : Nat :=
  let x := nodeX n
  let y := nodeY n
  match p with
  | 0 => nodeAt ((x + 1) % s.extentX) y
  | 1 => nodeAt ((x + s.extentX - 1) % s.extentX) y
  | 2 => nodeAt x ((y + 1) % s.extentY)
  | _ => nodeAt x ((y + s.extentY - 1) % s.extentY)

/-- The port at the other end of a link. -/
def otherEnd (p : Nat) : Nat := if p % 2 = 0 then p + 1 else p - 1

/-- The one bit of the map for the link on port p of node n: the plus port of one of its ends names it (R369). -/
def State.linkKey (s : State) (n p : Nat) : Nat := if p % 2 = 0 then 4 * n + p else 4 * s.neighbour n p + otherEnd p

/-- The link on port p of node n is up in the map: UP only once a port's entry or a message said so. -/
def State.linkUp (s : State) (n p : Nat) : Bool := (SMap.get (0, false) s.felt.links (s.linkKey n p)).2

/-- Every link of a path of `k` steps from n by port p is up. -/
def State.pathUp (s : State) (p : Nat) : Nat → Nat → Bool
  | 0, _ => true
  | k + 1, n => s.linkUp n p && State.pathUp s p k (s.neighbour n p)

/-- The port on which a node routes towards a target in one ring, the smaller port number `base` its plus direction;
none where neither direction's path is up (R369). -/
def State.ringPort (s : State) (n src dst extent base : Nat) : Option Nat :=
  let p := (dst + extent - src) % extent
  let m := extent - p
  let first := if p ≤ m then base else base + 1
  let steps := fun d => if d = base then p else m
  if s.pathUp first (steps first) n then some first
  else if s.pathUp (otherEnd first) (steps (otherEnd first)) n then some (otherEnd first)
  else none

/-- The route of a packet at node n towards `dest`: arrived, the port to send on, or no path (R369). -/
inductive Hop where
  | here
  | port (p : Nat)
  | nowhere
  deriving DecidableEq, Repr

/-- The next hop at node n (R369). -/
def State.hop (s : State) (n dest : Nat) : Hop :=
  if nodeX n ≠ nodeX dest then
    match s.ringPort n (nodeX n) (nodeX dest) s.extentX 0 with
    | some p => .port p
    | none => .nowhere
  else if nodeY n ≠ nodeY dest then
    match s.ringPort n (nodeY n) (nodeY dest) s.extentY 2 with
    | some p => .port p
    | none => .nowhere
  else .here

/-- The rule of R369 finds a path from n to `dest` in the map; the first argument bounds the hops. -/
def State.reachFrom (s : State) : Nat → Nat → Nat → Bool
  | 0, _, _ => false
  | fuel + 1, n, dest =>
    match s.hop n dest with
    | .here => true
    | .port p => State.reachFrom s fuel (s.neighbour n p) dest
    | .nowhere => false

/-- Node `dest` is reachable from this one. -/
def State.reachable (s : State) (dest : Nat) : Bool := s.reachFrom 513 s.node dest

/-- Class of a message type (R372). -/
def messageClass (typ : Nat) : Nat := if typ ≤ 1 then 0 else 1

/-- The hop that a packet routed from `src` to `dest` takes at node `n`, if its route passes n; the first argument bounds
the hops. -/
def State.hopThrough (s : State) (n dest : Nat) : Nat → Nat → Option Hop
  | 0, _ => none
  | fuel + 1, m =>
    if m = n then some (s.hop n dest)
    else match s.hop m dest with
      | .port p => State.hopThrough s n dest fuel (s.neighbour m p)
      | _ => none

/-- Every node of the torus (R368). -/
def State.nodes (s : State) : List Nat :=
  (List.range s.extentX).flatMap (fun x => (List.range s.extentY).map (fun y => nodeAt x y))

/-- The ports to which a broadcast of `src` is copied at this node (R369). -/
def State.broadcastPorts (s : State) (src : Nat) : List Nat :=
  (List.range 4).filter (fun p => s.nodes.any (fun d => decide (d ≠ src) && decide (s.hopThrough s.node d 513 src = some (.port p))))

/-- The destination of a broadcast (R364). -/
def everyNode : Nat := 0xFFFF

/-- A message of this node waits for its port. -/
def State.feltSend (s : State) (dest typ tid poison : Nat) (flits : List Nat) : State :=
  let p : Packet := { dest := dest, src := s.node, vc := 2 * messageClass typ, typ := typ, tid := tid, poison := poison, flits := flits }
  let outs := if dest = everyNode then s.broadcastPorts s.node else []
  { s with felt := { s.felt with inject := s.felt.inject ++ [{ pkt := p, here := false, outs := outs }] } }

/-- Bytes as 64-bit little-endian flits; the first argument bounds their number. -/
def flitsOf : Nat → List Byte → List Nat
  | 0, _ => []
  | n + 1, l => if l.isEmpty then [] else leNat (l.take 8) :: flitsOf n (l.drop 8)

/-- The bytes of flits. -/
def bytesOfFlits (l : List Nat) : List Byte := l.flatMap (fun f => leBytes f 8)

/-- The parts of a REDUCE body: 248 bytes each but the last (R373). -/
def reduceParts : Nat → List Byte → List (List Byte)
  | 0, _ => []
  | n + 1, l => l.take 248 :: (if l.length ≤ 248 then [] else reduceParts n (l.drop 248))

/-- A REDUCE message's parts are sent to a node (R372, R373). -/
def State.sendReduce (s : State) (dest test round kind check : Nat) (body : List Byte) : State :=
  let parts := reduceParts (body.length / 248 + 1) body
  (parts.zipIdx).foldl
    (fun s part =>
      s.feltSend dest 4 0 0
        ((test + 2 ^ 16 * round + 2 ^ 32 * kind + 2 ^ 40 * part.2 + 2 ^ 52 * (parts.length - 1)) :: check :: flitsOf 31 part.1)) s

end Sys2Proof.Machine
end

