-- ==== Sys2Proof/Machine/Pop.lean ====
section
/-! DEFINITION. The population engine (spec/13): tests, readings, closure, the reduction tree, limits, verdicts. -/

namespace Sys2Proof.Machine

open Sys2Proof

/-- The engine's accesses (R319). -/
def popCtx : MemCtx := { engine := 5, unit := 0 }

/-- The slot and record of a defined test. -/
def State.popFind (s : State) (test : Nat) : Option (Nat × PopTest) := s.popTests.find? (fun t => decide (t.2.test = test))

/-- The test of slot k changed by `f`. -/
def State.modPop (s : State) (k : Nat) (f : PopTest → PopTest) : State :=
  match SMap.find s.popTests k with
  | some t => { s with popTests := SMap.put s.popTests k (f t) }
  | none => s

/-- FLAGS of the summary (R275). -/
def PopTest.flags (t : PopTest) : Nat :=
  b2n t.isPartial + 2 * b2n t.noLimits + 4 * b2n t.outOfRange + 8 * b2n t.poisoned + 16 * b2n t.verdictOnly

/-- Bins of a test. -/
def PopTest.bins (t : PopTest) : Nat := 2 ^ t.binsLog2

/-- The 128-byte summary (R275). -/
def PopTest.summary (t : PopTest) : List Byte :=
  leBytes t.test 2 ++ leBytes t.state 1 ++ leBytes t.flags 1 ++ leBytes t.covered 4 ++ leBytes t.lateDevices 4 ++
  leBytes 0 4 ++ leBytes (ofSigned 64 t.limitLo) 8 ++ leBytes (ofSigned 64 t.limitHi) 8 ++ leBytes t.countN 8 ++
  leBytes t.countU 8 ++ leBytes t.countO 8 ++ leBytes (ofSigned 64 t.q1) 8 ++ leBytes (ofSigned 64 t.median) 8 ++
  leBytes (ofSigned 64 t.q3) 8 ++ leBytes t.finalTime 8 ++ leBytes t.accepted 4 ++ leBytes t.flagged 4 ++
  leBytes t.late 4 ++ leBytes t.outliers 4 ++ leBytes t.localU 4 ++ leBytes t.localO 4 ++ leBytes 0 16

/-! ### The tree (R278, R293) -/

/-- The root and the size of the domain. -/
def State.popRoot (s : State) : Nat := s.fld Reg.POP_DOMAIN_ROOT
def State.popDevices (s : State) : Nat := s.fld Reg.POP_DOMAIN_DEVICES

/-- Parent of node n in the domain; the root is its own (R278, R293). -/
def State.treeParent (s : State) (n : Nat) : Nat :=
  let dx := (nodeX s.popRoot + s.extentX - nodeX n) % s.extentX
  let dy := (nodeY s.popRoot + s.extentY - nodeY n) % s.extentY
  if dx ≠ 0 then s.neighbour n (if dx ≤ s.extentX - dx then 0 else 1)
  else if dy ≠ 0 then s.neighbour n (if dy ≤ s.extentY - dy then 2 else 3)
  else n

/-- Depth of node n (R278). -/
def State.treeDepth (s : State) (n : Nat) : Nat :=
  let dx := (nodeX s.popRoot + s.extentX - nodeX n) % s.extentX
  let dy := (nodeY s.popRoot + s.extentY - nodeY n) % s.extentY
  min dx (s.extentX - dx) + min dy (s.extentY - dy)

/-- The largest depth in the domain (R278). -/
def State.maxDepth (s : State) : Nat := s.extentX / 2 + s.extentY / 2

/-- Children of node n in the tree: the neighbours whose parent it is (R278). -/
def State.treeChildren (s : State) (n : Nat) : List Nat :=
  (((List.range 4).map (s.neighbour n)).dedup).filter (fun c => decide (c ≠ n) && decide (s.treeParent c = n))

/-- Children that report to n: an unreachable child's descendants take its place (R278). -/
def State.reporting (s : State) : Nat → Nat → List Nat
  | 0, _ => []
  | fuel + 1, n => (s.treeChildren n).flatMap (fun c => if s.reachable c then [c] else State.reporting s fuel c)

/-- The nearest reachable ancestor of this node (R278). -/
def State.reportTo (s : State) : Nat → Nat → Nat
  | 0, n => n
  | fuel + 1, n =>
    let p := s.treeParent n
    if p = n ∨ s.reachable p then p else State.reportTo s fuel p

/-- Children of this node for a test: none for a LOCAL one, a domain of one device (R278). -/
def State.popChildren (s : State) (t : PopTest) : List Nat := if t.isLocal then [] else s.reporting 512 s.node

/-- This node is the root of the test's domain. -/
def State.popIsRoot (s : State) (t : PopTest) : Bool := t.isLocal || decide (s.node = s.popRoot)

/-- POP_TREE follows the domain, the extents and the link-state map (R293). -/
def State.showTree (s : State) : State :=
  (((s.setFld Reg.POP_TREE_PARENT (s.treeParent s.node)).setFld Reg.POP_TREE_DEPTH (s.treeDepth s.node)).setFld
    Reg.POP_TREE_CHILDREN ((s.treeChildren s.node).filter s.reachable).length).setFld Reg.POP_TREE_MAX_DEPTH s.maxDepth

/-! ### The work area (R275, R291) -/

/-- An update of the work area: done, a Page Request wait, or failed with the status of poison or a fault. -/
inductive Work where
  | done (data : List Byte)
  | wait
  | fail (st : Nat)
  deriving DecidableEq, Repr

/-- `n` bytes of the work area at `off` are read and written back unchanged, so that what follows on them neither
faults nor waits. -/
def State.workTouch (s : State) (t : PopTest) (off n : Nat) : Work × State :=
  match s.memRead popCtx (t.work + off) n with
  | (.ok d none, s1) =>
    match s1.memWrite popCtx (t.work + off) d false with
    | (.ok _ _, s2) => (.done d, s2)
    | (.fault k, s2) => (.fail (kindStatus k), s2)
    | (_, s2) => (.wait, s2)
  | (.ok _ (some _), s1) => (.fail 0x12, s1)
  | (.fault k, s1) => (.fail (kindStatus k), s1)
  | (_, s1) => (.wait, s1)

/-- Regions of the work area are written, in order, as far as none waits or fails. -/
def State.workStore (s : State) (t : PopTest) : List (Nat × List Byte) → Work × State
  | [] => (.done [], s)
  | (off, data) :: l =>
    match s.memWrite popCtx (t.work + off) data false with
    | (.ok _ _, s1) => s1.workStore t l
    | (.fault k, s1) => (.fail (kindStatus k), s1)
    | (_, s1) => (.wait, s1)

/-- A site entry: VALUE, VERDICT, FLAGS (R275). -/
structure SiteEntry where
  value : Int
  verdict : Nat
  binned : Bool
  late : Bool
  flagged : Bool
  withdrawn : Bool
  deriving DecidableEq, Repr

def SiteEntry.bytes (e : SiteEntry) : List Byte :=
  leBytes (ofSigned 64 e.value) 8 ++ leBytes e.verdict 1 ++
  leBytes (b2n e.binned + 2 * b2n e.late + 4 * b2n e.flagged + 8 * b2n e.withdrawn) 1 ++ leBytes 0 6

def SiteEntry.ofBytes (d : List Byte) : SiteEntry :=
  let f := (d.getD 9 0).toNat
  { value := toSigned 64 (leNat (d.take 8)), verdict := (d.getD 8 0).toNat
    binned := bitOf f 0, late := bitOf f 1, flagged := bitOf f 2, withdrawn := bitOf f 3 }

/-- Offset of a site's entry; of a local and of a merged bin. -/
def siteOff (site : Nat) : Nat := 0x8000 + 16 * site
def localOff (b : Nat) : Nat := 4 * b
def mergedOff (b : Nat) : Nat := 0x4000 + 4 * b

/-- The bins of a region, as numbers. -/
def binsOf : Nat → List Byte → List Nat
  | 0, _ => []
  | n + 1, d => leNat (d.take 4) :: binsOf n (d.drop 4)

def binBytes (l : List Nat) : List Byte := l.flatMap (fun x => leBytes x 4)

/-- Sum of two lists of bins, in 32 bits (R279). -/
def addBins (a b : List Nat) : List Nat := (a.zip b).map (fun p => (p.1 + p.2) % 2 ^ 32)

/-! ### Quantiles and limits (R283 to R285) -/

/-- First bin b with C_b ≤ r < C_b + c_b, r = q / 65,536 × N, with C_b: `acc` is C of the first bin of the list. -/
def findBin (qn n : Nat) : List Nat → Nat → Nat → Option (Nat × Nat × Nat)
  | [], _, _ => none
  | c :: cs, b, acc =>
    if acc * 65536 ≤ qn * n ∧ qn * n < (acc + c) * 65536 then some (b, acc, c) else findBin qn n cs (b + 1) (acc + c)

/-- Q(q) with q = qn / 65,536 (R283); none where it lies outside the bins. -/
def quantile (lo : Int) (w u o : Nat) (bins : List Nat) (qn : Nat) : Option ℚ :=
  let n := u + o + bins.sum
  if qn * n < u * 65536 ∨ (n - o) * 65536 ≤ qn * n then none
  else
    match findBin qn n bins 0 u with
    | some (b, acc, c) => some ((lo : ℚ) + (w : ℚ) * ((b : ℚ) + ((qn * n : Nat) / 65536 - (acc : ℚ)) / (c : ℚ)))
    | none => none

/-- Nearest integer, halves away from zero. -/
def roundRat (q : ℚ) : Int := roundAway q.num (q.den : Int)

/-- A limit saturated to 64 bits (R284). -/
def sat64 (x : Int) : Int := max (-(2 ^ 63)) (min (2 ^ 63 - 1) x)

/-- L and H of a test's METHOD; none where a quantile that it uses lies outside the bins (R284, R285). -/
def methodLimits (t : PopTest) (q : Nat → Option ℚ) : Option (ℚ × ℚ) :=
  let k : ℚ := (t.kmul : ℚ) / 256
  match t.method with
  | 0 =>
    match q 16384, q 49152 with
    | some a, some c => some (a - k * (c - a), c + k * (c - a))
    | _, _ => none
  | 1 =>
    match q 16384, q 32768, q 49152 with
    | some a, some m, some c => some (m - k * ((c - a) * 1000 / 1349), m + k * ((c - a) * 1000 / 1349))
    | _, _, _ => none
  | _ =>
    match q t.qlo, q t.qhi with
    | some a, some c => some (a, c)
    | _, _ => none

/-- The limits of a test from its domain histogram: NO_LIMITS, RANGE, the limits and the quantiles (R283 to R285). A
quantile outside the bins is a value the spec does not state: log entry 21. -/
def PopTest.withLimits (t : PopTest) (u o : Nat) (bins : List Nat) (free : Nat → Int) : PopTest :=
  let n := u + o + bins.sum
  let q := quantile t.lo t.width u o bins
  let lim := methodLimits t q
  let outside := (q 16384).isNone || (q 32768).isNone || (q 49152).isNone ||
    (decide (t.method = 2) && ((q t.qlo).isNone || (q t.qhi).isNone))
  let no := decide (n < t.minCount) || lim.isNone
  let shown := fun (i : Nat) (x : Option ℚ) => match x with | some v => roundRat v | none => free i
  let t1 := { t with countN := n, countU := u, countO := o, outOfRange := outside, noLimits := no
                     q1 := shown 0 (q 16384), median := shown 1 (q 32768), q3 := shown 2 (q 49152) }
  match no, lim with
  | false, some (l, h) =>
    { t1 with limitLo := if t.sides = 1 then -(2 ^ 63) else sat64 l.floor
              limitHi := if t.sides = 2 then 2 ^ 63 - 1 else sat64 h.ceil }
  | _, _ => { t1 with limitLo := -(2 ^ 63), limitHi := 2 ^ 63 - 1 }

/-! ### Verdicts (R286, R289) -/

/-- The test whose limits resolve a test's sites: itself, or REF_TEST (R289). -/
def State.judge (s : State) (t : PopTest) : Option PopTest :=
  if t.verdictOnly then (s.popFind t.refTest).map Prod.snd else some t

/-- The verdict of an entry under final limits (R286): 3 PASS, 4 OUTLIER, 5 NONE. -/
def verdictOf (j : PopTest) (e : SiteEntry) (held : Bool) : Nat :=
  if !held || e.flagged || j.noLimits || decide (j.state = 3) then 5
  else if within j.limitLo j.limitHi e.value then 3 else 4

/-- Site numbers a device can hold. -/
def siteCount : Nat := 512

/-- VERDICT of a site in a test, as its entry stands; 5 where the test is not defined or has failed, or is final and
the entry names no verdict (R286, R287, R291). -/
def State.siteVerdict (s : State) (test site : Nat) : Nat :=
  match s.popFind test with
  | none => 5
  | some (_, t) =>
    let st := match s.judge t with | some j => j.state | none => 3
    if st = 3 || t.failedHere then 5
    else
      let v := match s.memRead { popCtx with consumes := false } (t.work + siteOff site) 16 with
        | (.ok d none, _) => (SiteEntry.ofBytes d).verdict
        | (.ok _ (some _), _) => 5
        | (.fault _, _) => 5
        | _ => 2
      if 3 ≤ v then v else if st = 2 then (if v = 2 then 2 else 5) else v

/-! ### Failure and finality (R280, R291) -/

/-- The VERDICT_ONLY tests that follow the test of slot k (R289). -/
def State.followers (s : State) (k : Nat) : List Nat :=
  match SMap.find s.popTests k with
  | none => []
  | some t => (s.popTests.filter (fun x => x.2.verdictOnly && decide (x.2.refTest = t.test) && decide (x.1 ≠ k))).map Prod.fst

/-- Work is added to that of the test of slot k. -/
def State.popAsk (s : State) (k : Nat) (l : List PopOp) : State := s.modPop k (fun t => { t with todo := t.todo ++ l })

/-- The followers of slot k's test resolve their sites (R286, R289). -/
def State.tellFollowers (s : State) (k : Nat) : State :=
  (s.followers k).foldl (fun s i => s.popAsk i [.resolve, .summary]) s

/-- A limits or failure message goes to every child of the test (R280, R291, R373). -/
def State.tellChildren (s : State) (t : PopTest) (kind : Nat) (body : List Byte) : State :=
  (s.popChildren t).foldl (fun s c => s.sendReduce c t.test t.round kind t.check body) s

/-- Body of a limits message (R373). -/
def PopTest.limitsBody (t : PopTest) : List Byte :=
  leBytes (ofSigned 64 t.limitLo) 8 ++ leBytes (ofSigned 64 t.limitHi) 8 ++ leBytes t.countN 8 ++ leBytes t.flags 1 ++
  leBytes 0 3 ++ leBytes t.covered 4 ++ leBytes t.finalTime 8

/-- The test of slot k fails on this device: it keeps its children's reports alone; a root's failure goes down the tree (R291). -/
def State.failTest (s : State) (k : Nat) (st : Nat) : State :=
  match SMap.find s.popTests k with
  | none => s
  | some t =>
    let s1 := (s.modPop k (fun t =>
      { t with state := 3, expected := [], failedHere := true, failStatus := st, poisoned := t.poisoned || decide (st = 0x12)
               covered := t.childCovered, mergedU := t.childU, mergedO := t.childO })).tellFollowers k
    if s.popIsRoot t && !t.verdictOnly then s1.tellChildren t 2 [0, 0, 0, 0] else s1

/-- Body of a report (R373). -/
def reportBody (covered : Nat) (late : Bool) (u o : Nat) (bins : List Nat) : List Byte :=
  leBytes covered 4 ++ leBytes (b2n late) 4 ++ leBytes u 8 ++ leBytes o 8 ++ binBytes bins

/-- What is due of a test: the report once the local contribution is closed and every reachable child has reported; at the root
finality once COVERED reaches the domain (R279, R280). -/
def State.reportDue (s : State) (k : Nat) : List PopOp :=
  match SMap.find s.popTests k with
  | none => []
  | some t =>
    if t.verdictOnly then []
    else if s.popIsRoot t then
      if (if t.isLocal then 1 else s.popDevices) ≤ t.covered ∧ t.state < 2 then [.finalise s.absNow] else []
    else if (t.closed || t.failedHere) && !t.reported && (s.popChildren t).all (fun c => t.reporters.contains c) then [.send]
    else []

/-- The local contribution is due to close: the expected set is empty (R277). -/
def State.closeDue (s : State) (k : Nat) : List PopOp :=
  match SMap.find s.popTests k with
  | some t => if t.expected.isEmpty && !t.closed && !t.verdictOnly && decide (t.state = 0) then [.close] else []
  | none => []

/-! ### The engine's work on a test (R270, R271, R276, R277, R279, R280, R286, R290, R291) -/

/-- What a piece of work comes to: it is done, with the work that follows on it at once, or it waits on a Page Request. -/
structure PopRun where
  s : State
  done : Bool := true
  more : List PopOp := []

/-- The work on the test of slot k goes on where its memory answers; a wait suspends it, a fault or poison fails the test (R291). -/
def popGo (k : Nat) (r : Work × State) (f : List Byte → State → PopRun) : PopRun :=
  match r with
  | (.done d, s) => f d s
  | (.wait, s) => { s := s, done := false }
  | (.fail p, s) => { s := s.failTest k p, more := (s.failTest k p).reportDue k }

/-- Index of a value: below the edges, in a bin, or above (R270). -/
def binIndex (t : PopTest) (x : Int) : Int := (x - t.lo) / (t.width : Int)

/-- The site table at definition: the expected sites at VERDICT 1 (R276). -/
def PopTest.freshTable (t : PopTest) : List Byte :=
  (List.range siteCount).flatMap (fun i =>
    ({ value := 0, verdict := b2n (t.expected.contains i), binned := false, late := false, flagged := false, withdrawn := false } :
      SiteEntry).bytes)

/-- The regions of the work area at definition: empty bins, the site table, the summary (R275, R276). -/
def PopTest.freshArea (t : PopTest) : List (Nat × List Byte) :=
  (if t.verdictOnly then [] else [(0, List.replicate (4 * t.bins) 0), (0x4000, List.replicate (4 * t.bins) 0)]) ++
  [(0x8000, t.freshTable), (0xA000, t.summary)]

/-- A reading is recorded in the site entry of its test (R270, R271, R277, R286, R289). -/
def State.popRecord (s : State) (k : Nat) (t : PopTest) (r : PopReading) : PopRun :=
  let unflagged := decide (r.status = 0) && decide (r.flags = 0)
  let b := binIndex t r.value
  let binned := unflagged && decide (0 ≤ b) && decide (b < (t.bins : Int))
  let off := siteOff r.site
  let e : SiteEntry :=
    { value := r.value, verdict := 2, binned := unflagged, late := false, flagged := !unflagged, withdrawn := false }
  if t.holds.contains r.site then { s := s.bump Reg.POP_DUPLICATES 1 }
  else
    popGo k (s.workTouch t off 16) (fun _ s1 =>
      if t.state = 0 ∧ !t.verdictOnly then
        popGo k (if binned then s1.workTouch t (localOff b.toNat) 4 else (.done [], s1)) (fun c s2 =>
          popGo k (s2.workStore t ((off, e.bytes) :: (if binned then [(localOff b.toNat, leBytes (leNat c + 1) 4)] else []))) (fun _ s3 =>
            let s4 := s3.modPop k (fun t =>
              { t with accepted := t.accepted + 1, flagged := t.flagged + b2n (!unflagged), holds := r.site :: t.holds
                       localU := t.localU + b2n (unflagged && decide (b < 0))
                       localO := t.localO + b2n (unflagged && decide ((t.bins : Int) ≤ b))
                       expected := t.expected.erase r.site })
            { s := s4, more := s4.closeDue k }))
      else
        let e1 := { e with binned := false, late := !t.verdictOnly }
        let v := match s1.judge t with | some j => if 2 ≤ j.state then verdictOf j e1 true else 2 | none => 2
        popGo k (s1.workStore t [(off, { e1 with verdict := v }.bytes)]) (fun _ s2 =>
          { s := (if t.verdictOnly then s2 else s2.bump Reg.POP_LATE_READINGS 1).modPop k (fun t =>
              { t with accepted := t.accepted + 1, flagged := t.flagged + b2n (!unflagged), late := t.late + b2n (!t.verdictOnly)
                       outliers := t.outliers + b2n (decide (v = 4)), holds := r.site :: t.holds })
            more := [.summary] }))

/-- The local contribution closes: the local bins join the merged ones and COVERED counts this device; after the node's report they
go up in one of their own, marked late (R277, R279). -/
def State.popClose (s : State) (k : Nat) (t : PopTest) : PopRun :=
  if t.closed || t.verdictOnly || t.failedHere || decide (2 ≤ t.state) then { s := s }
  else
    popGo k (s.workTouch t 0 (4 * t.bins)) (fun l s1 =>
      if t.reported then
        { s := (s1.sendReduce (s1.reportTo 512 s1.node) t.test t.round 0 t.check
            (reportBody 1 true t.localU t.localO (binsOf t.bins l))).modPop k (fun t => { t with closed := true, state := 1, expected := [] })
          more := [.summary] }
      else
        popGo k (s1.workTouch t 0x4000 (4 * t.bins)) (fun m s2 =>
          popGo k (s2.workStore t [(0x4000, binBytes (addBins (binsOf t.bins l) (binsOf t.bins m)))]) (fun _ s3 =>
            let s4 := s3.modPop k (fun t =>
              { t with closed := true, state := 1, expected := [], covered := t.covered + 1
                       mergedU := t.mergedU + t.localU, mergedO := t.mergedO + t.localO })
            { s := s4, more := .summary :: s4.reportDue k })))

/-- This node's report goes to its parent (R279, R291). -/
def State.popSend (s : State) (k : Nat) (t : PopTest) : PopRun :=
  let send := fun (bins : List Nat) (s : State) =>
    ({ s := (s.sendReduce (s.reportTo 512 s.node) t.test t.round 0 t.check
        (reportBody t.covered false t.mergedU t.mergedO bins)).modPop k (fun t => { t with reported := true }) } : PopRun)
  if t.reported || t.verdictOnly || s.popIsRoot t then { s := s }
  else if t.failedHere then send t.buffer s
  else popGo k (s.workTouch t 0x4000 (4 * t.bins)) (fun d s1 => send (binsOf t.bins d) s1)

/-- A child's report is merged, passed on unmerged where this node has sent its own, or counted after finality (R279, R280, R291). -/
def State.popMerge (s : State) (k : Nat) (t : PopTest) (src covered : Nat) (late : Bool) (u o : Nat) (bins : List Nat) : PopRun :=
  let reporters := if late then t.reporters else t.reporters ++ [src]
  if s.popIsRoot t && decide (2 ≤ t.state) then
    { s := (s.bump Reg.POP_LATE_REPORTS 1).modPop k (fun t => { t with lateDevices := t.lateDevices + covered }), more := [.summary] }
  else if t.reported then
    { s := (s.sendReduce (s.reportTo 512 s.node) t.test t.round 0 t.check (reportBody covered true u o bins)).modPop k
        (fun t => { t with reporters := reporters }) }
  else
    let note := fun (s : State) =>
      let s1 := s.modPop k (fun t =>
        { t with covered := t.covered + covered, mergedU := t.mergedU + u, mergedO := t.mergedO + o, reporters := reporters
                 buffer := addBins t.buffer bins, childU := t.childU + u, childO := t.childO + o
                 childCovered := t.childCovered + covered })
      ({ s := s1, more := s1.reportDue k } : PopRun)
    if t.failedHere then note s
    else
      match s.workTouch t 0x4000 (4 * t.bins) with
      | (.done m, s1) => popGo k (s1.workStore t [(0x4000, binBytes (addBins (binsOf t.bins m) bins))]) (fun _ s2 => note s2)
      | (.wait, s1) => { s := s1, done := false }
      | (.fail p, s1) => note (s1.failTest k p)

/-- The root finalises the test with what it holds (R280, R283 to R285). -/
def State.popFinal (s : State) (k : Nat) (t : PopTest) (time : Nat) : PopRun :=
  if 2 ≤ t.state then { s := s }
  else
    popGo k (s.workTouch t 0x4000 (4 * t.bins)) (fun d s1 =>
      let n := s1.draws
      let t1 := t.withLimits t.mergedU t.mergedO (binsOf t.bins d) (fun i => toSigned 64 (Config.freeValue (n + i)))
      let t2 := { t1 with state := 2, finalTime := time % 2 ^ 64, expected := []
                          isPartial := decide (t.covered < if t.isLocal then 1 else s1.popDevices) }
      let s2 := ({ s1 with draws := n + 3 } : State).modPop k (fun _ => t2)
      { s := (s2.tellChildren t2 1 t2.limitsBody).tellFollowers k, more := [.resolve, .summary] })

/-- The limits come down the tree (R280). -/
def State.popFinalFrom (s : State) (k : Nat) (t : PopTest) (body : List Byte) : PopRun :=
  let f := (body.getD 24 0).toNat
  let s1 := s.tellChildren t 1 body
  if 2 ≤ t.state then { s := s1 }
  else
    { s := (s1.modPop k (fun t =>
        { t with state := 2, expected := [], limitLo := toSigned 64 (leNat (body.take 8))
                 limitHi := toSigned 64 (leNat ((body.drop 8).take 8)), countN := leNat ((body.drop 16).take 8)
                 isPartial := bitOf f 0, noLimits := bitOf f 1, outOfRange := bitOf f 2
                 covered := leNat ((body.drop 28).take 4), finalTime := leNat ((body.drop 32).take 8) })).tellFollowers k
      more := [.resolve, .summary] }

/-- Every site resolves, once the test that judges it is final or failed (R286, R289, R291). -/
def State.popResolve (s : State) (k : Nat) (t : PopTest) : PopRun :=
  match s.judge t with
  | none => { s := s }
  | some j =>
    if t.failedHere || decide (j.state < 2) then { s := s }
    else
      popGo k (s.workTouch t 0x8000 8192) (fun d s1 =>
        let es := (List.range siteCount).map (fun i =>
          let e := SiteEntry.ofBytes ((d.drop (16 * i)).take 16)
          { e with verdict := verdictOf j e (t.holds.contains i) })
        popGo k (s1.workStore t [(0x8000, es.flatMap SiteEntry.bytes)]) (fun _ s2 =>
          { s := s2.modPop k (fun t => { t with outliers := (es.filter (fun e => decide (e.verdict = 4))).length }) }))

/-- A reading of a site is withdrawn (R290). -/
def State.popUndo (s : State) (k : Nat) (t : PopTest) (site : Nat) : PopRun :=
  if !t.holds.contains site then { s := s }
  else
    popGo k (s.workTouch t (siteOff site) 16) (fun d s1 =>
      let e := SiteEntry.ofBytes d
      let b := binIndex t e.value
      let gone := fun (t : PopTest) => { t with holds := t.holds.filter (fun i => decide (i ≠ site)) }
      if t.state = 0 ∧ !t.verdictOnly then
        let inBin := e.binned && decide (0 ≤ b) && decide (b < (t.bins : Int))
        let expected := t.captured.contains site
        let e1 : SiteEntry :=
          { value := 0, verdict := b2n expected, binned := false, late := false, flagged := false, withdrawn := false }
        popGo k (if inBin then s1.workTouch t (localOff b.toNat) 4 else (.done [], s1)) (fun x s2 =>
          popGo k (s2.workStore t ((siteOff site, e1.bytes) :: (if inBin then [(localOff b.toNat, leBytes (leNat x - 1) 4)] else [])))
            (fun _ s3 =>
              { s := s3.modPop k (fun t =>
                  { gone t with
                    localU := if e.binned && decide (b < 0) then t.localU - 1 else t.localU
                    localO := if e.binned && decide ((t.bins : Int) ≤ b) then t.localO - 1 else t.localO
                    accepted := t.accepted - 1, flagged := t.flagged - b2n e.flagged
                    expected := if expected then (List.range siteCount).filter (fun i => decide (i = site) || t.expected.contains i)
                      else t.expected }) }))
      else
        popGo k (s1.workStore t [(siteOff site, { e with verdict := 0, withdrawn := true }.bytes)]) (fun _ s2 =>
          { s := s2.modPop k gone }))

/-- One piece of work on the test of slot k. A failed test keeps no readings and writes nothing more (R291). -/
def State.popRun (s : State) (k : Nat) (t : PopTest) : PopOp → PopRun
  | .define => popGo k (s.workStore t t.freshArea) (fun _ s1 => { s := s1, more := s1.closeDue k })
  | .reading r => if t.state = 3 then { s := s } else s.popRecord k t r
  | .leave site =>
    if t.failedHere || t.holds.contains site then { s := s }
    else
      popGo k (s.workTouch t (siteOff site) 16) (fun d s1 =>
        popGo k (s1.workStore t [(siteOff site, { SiteEntry.ofBytes d with verdict := 0 }.bytes)]) (fun _ s2 =>
          { s := s2, more := s2.closeDue k }))
  | .close => s.popClose k t
  | .send => s.popSend k t
  | .report src covered late u o bins => s.popMerge k t src covered late u o bins
  | .finalise time => s.popFinal k t time
  | .limits body => s.popFinalFrom k t body
  | .failure =>
    { s := ((s.tellChildren t 2 [0, 0, 0, 0]).modPop k (fun t => { t with state := 3, expected := [] })).tellFollowers k
      more := [.resolve, .summary] }
  | .resolve => s.popResolve k t
  | .summary =>
    if t.failedHere then { s := s } else popGo k (s.workStore t [(0xA000, t.summary)]) (fun _ s1 => { s := s1 })
  | .withdraw site => if t.failedHere then { s := s } else s.popUndo k t site
  | .answer c => { s := s.complete c 0 t.state }

/-- The work on the test of slot k, oldest first, until one piece waits; the first argument bounds the pieces. -/
def State.popPump : Nat → Nat → State → State
  | 0, _, s => s
  | fuel + 1, k, s =>
    match SMap.find s.popTests k with
    | none => s
    | some t =>
      match t.todo with
      | [] => s
      | op :: rest =>
        let r := s.popRun k t op
        if r.done then State.popPump fuel k (r.s.modPop k (fun t => { t with todo := r.more ++ rest })) else r.s

/-- Pieces of work that the work of slot k can come to: each brings at most seven more. -/
def State.popFuel (s : State) (k : Nat) : Nat := 8 * ((SMap.find s.popTests k).elim 0 (fun t => t.todo.length) + 1)

/-- The work on the test of slot k, and on the tests that follow it, goes on as far as it can. -/
def State.popGoOn (s : State) (k : Nat) : State :=
  let s1 := State.popPump (s.popFuel k) k s
  (s1.followers k).foldl (fun s i => State.popPump (s.popFuel i) i s) s1

/-- Work on the test of slot k: done at once, or once what waits before it is (R291). -/
def State.popDo (s : State) (k : Nat) (l : List PopOp) : State := (s.popAsk k l).popGoOn k

/-- The forward deadline of a test (R279): none where it has no deadline. -/
def State.forwardDeadline (s : State) (t : PopTest) : Option Nat :=
  t.deadline.map (fun d => d - 50000000 * (if t.isLocal then 0 else s.treeDepth s.node))

/-- The kinds in which the engine serves its work, highest first; readings, and the commands that begin or end a test, go before all
of them (R335). -/
def PopOp.rank : PopOp → Nat
  | .limits _ | .failure | .resolve | .summary | .withdraw _ | .answer _ => 1
  | .finalise _ => 2
  | .report .. => 3
  | .close | .send => 4
  | .define | .reading _ | .leave _ => 0

/-- The order in which suspended work goes on: by its kind, merges by their forward deadline (R335). -/
def State.popKey (s : State) (t : PopTest) : Nat :=
  match t.todo with
  | [] => 2 ^ 100
  | o :: _ => 2 ^ 96 * o.rank + (if o.rank = 3 then min (2 ^ 96 - 1) ((s.forwardDeadline t).getD (2 ^ 96 - 1)) else 0)

/-- A slot enters a list ordered by `key`. -/
def insertKeyed (key : Nat → Nat) (k : Nat) : List Nat → List Nat
  | [] => [k]
  | x :: l => if key k < key x then k :: x :: l else x :: insertKeyed key k l

/-- Suspended work is tried again, the highest kind first; a report that a child now unreachable held up is sent. DESIGN CHOICE: each
piece of work is done whole in one step, so none is pre-empted and PREEMPTS stays 0. Log entry 42. (R279, R291, R335) -/
def State.popRetry (s : State) : State :=
  let key := fun (k : Nat) => (SMap.find s.popTests k).elim 0 s.popKey
  ((s.popTests.map Prod.fst).foldl (fun l k => insertKeyed key k l) []).foldl (fun s k =>
    match SMap.find s.popTests k with
    | some t => if t.todo.isEmpty then (if (s.reportDue k).isEmpty then s else s.popDo k (s.reportDue k)) else s.popGoOn k
    | none => s) s

/-- A site leaves the expected set of every test without a reading (R276). -/
def State.popLeave (s : State) (site : Nat) : State :=
  (s.popTests.map Prod.fst).foldl
    (fun s k =>
      match SMap.find s.popTests k with
      | some t =>
        if t.expected.contains site then (s.modPop k (fun t => { t with expected := t.expected.erase site })).popDo k [.leave site]
        else s
      | none => s) s

/-! ### Readings taken, reports, limits and failures received (R269, R271, R277, R279, R280, R282, R291) -/

/-- A reading taken from the queue. -/
def State.popTake (s : State) (r : PopReading) : State :=
  match s.popFind r.test with
  | none => s.bump Reg.POP_UNDEFINED 1
  | some (k, _) => s.popDo k [.reading r]

/-- POP_READING: the engine takes the oldest reading of its input queue (R269, R270). -/
def doPopReading (s : State) : State :=
  match s.popInput with
  | [] => s
  | r :: rest =>
    let s1 := ({ s with popInput := rest } : State).setFld Reg.POP_STATUS_IN_FILL rest.length
    (s1.bump Reg.POP_ACCEPTED 1).popTake r

/-- A message for a test, unless it is of none here, of another round, or of another definition (R282). -/
def State.popMessage (s : State) (test round check : Nat) (k : Nat → PopTest → State → State) : State :=
  match s.popFind test with
  | none => s.bump Reg.POP_STALE_REPORTS 1
  | some (i, t) =>
    if t.verdictOnly || decide (t.round ≠ round) then s.bump Reg.POP_STALE_REPORTS 1
    else if t.check ≠ check then s.bump Reg.POP_MISMATCH_REPORTS 1
    else k i t s

/-- A report from node `src`; a child's second one is discarded (R279, R280, R282). -/
def State.popReport (s : State) (src test round check covered : Nat) (late : Bool) (u o : Nat) (bins : List Nat) : State :=
  s.popMessage test round check (fun k t s =>
    if !late && t.reporters.contains src then s.bump Reg.POP_DUPLICATES 1 else s.popDo k [.report src covered late u o bins])

/-- The limits of a test arrive from the parent (R280). -/
def State.popLimits (s : State) (test round check : Nat) (body : List Byte) : State :=
  s.popMessage test round check (fun k _ s => s.popDo k [.limits body])

/-- The failure of a test comes down the tree: STATE 3 whatever it was (R291). -/
def State.popFailure (s : State) (test round check : Nat) : State :=
  s.popMessage test round check (fun k _ s => s.popDo k [.failure])

/-! ### Deadlines (R277, R279 to R281) -/

/-- FORWARD_DEADLINE: with the pair reached, the local contribution of slot k closes and its report goes (R277, R279, R281). -/
def doForwardDeadline (k : Nat) (s : State) : State :=
  match SMap.find s.popTests k with
  | some t =>
    if t.verdictOnly || !(s.forwardDeadline t).any (fun d => decide (d ≤ s.absNow)) then s else s.popDo k [.close, .send]
  | none => s

/-- DEADLINE: with the pair reached, the root finalises the test of slot k (R280, R281). -/
def doDeadline (k : Nat) (s : State) : State :=
  match SMap.find s.popTests k with
  | some t =>
    if t.verdictOnly || !s.popIsRoot t || !t.deadline.any (fun d => decide (d ≤ s.absNow)) then s
    else s.popDo k [.close, .finalise s.absNow]
  | none => s

/-- The deadlines that cell time has reached act: at a step of cell time, or where a definition finds them passed (R281). -/
def State.passDeadlines (s : State) : State :=
  (s.popTests.map Prod.fst).foldl (fun s k => doDeadline k (doForwardDeadline k s)) s

/-! ### Commands (R272 to R274) -/

/-- Command bytes of an entry, as a list. -/
def Cmd.bytes (c : Cmd) (off len : Nat) : List Byte := leBytes (c.field off len) len

/-- The definition check of a POP_DEFINE (R272). -/
def popCheck (c : Cmd) : Nat := crc32c (c.bytes 8 24 ++ c.bytes 40 8 ++ c.bytes 56 8)

/-- The deadline as a pair of epoch and counter in one number; one that has passed already stands at the present (R281). -/
def State.deadlinePair (s : State) (d : Nat) : Option Nat :=
  let ahead := (d + 2 ^ 64 - s.now) % 2 ^ 64
  if d = 0 then none else if ahead < 2 ^ 63 then some (s.absNow + ahead) else some s.absNow

/-- The sites that EXPECT names: enabled and open, of the groups led by its bits, ascending (R276). -/
def State.expectedSites (s : State) (expect : Nat) : List Nat :=
  let l := (setBits expect 64).flatMap (fun b => ((s.group b).positions.filter (fun x => bitOf (s.openMask b) x.position)).map SitePos.site)
  (List.range siteCount).filter (fun i => l.contains i)

/-- POP_DEFINE breaks R272 or R273. -/
def State.popDefineBad (s : State) (c : Cmd) : Bool :=
  let test := c.field 8 2
  let b11 := c.field 11 1
  let vo := bitOf b11 4
  let method := bitsOf b11 0 2
  let expect := c.field 48 8
  let work := c.field 32 8
  decide (c.target ≠ 0) || decide (c.flags ≠ 0) || decide (64 ≤ b11) || decide (test = 65535) || (s.popFind test).isSome ||
  decide (1024 ≤ s.popTests.length) || decide (work % 4096 ≠ 0) || decide (2 ^ 48 ≤ work) ||
  (List.range 16).any (fun i => !s.hasTranslation (work + 4096 * i)) ||
  (if vo then
    match s.popFind (c.field 14 2) with
    | none => true
    | some (_, t) => t.verdictOnly
  else
    decide (c.field 10 1 < 8) || decide (12 < c.field 10 1) || decide (method = 3) || decide (bitsOf b11 2 2 = 3) ||
    decide (c.field 24 8 = 0) || decide (2 ^ 40 < c.field 24 8) ||
    (decide (c.field 12 2 = 0) && decide (method ≤ 1)) ||
    (decide (method = 2) && (decide (c.field 60 2 ≤ c.field 58 2) || decide (c.field 60 2 = 0))) ||
    (setBits expect 64).any (fun n => !s.present (seqUnit n) || decide (s.leaderOf n ≠ n)))

/-- Some Felt port is present; some is ready (R473). -/
def State.anyPort (_s : State) (f : Nat → Bool) : Bool := (List.range 4).any (fun p => f (portUnit p))

/-- The test a POP_DEFINE defines (R272, R273, R276). -/
def State.newTest (s : State) (c : Cmd) : PopTest :=
  let b11 := c.field 11 1
  let vo := bitOf b11 4
  { test := c.field 8 2, binsLog2 := if vo then 8 else c.field 10 1, method := bitsOf b11 0 2, sides := bitsOf b11 2 2
    verdictOnly := vo, isLocal := !vo && bitOf b11 5, kmul := c.field 12 2, refTest := c.field 14 2
    lo := toSigned 64 (c.field 16 8), width := c.field 24 8, work := c.field 32 8
    deadline := if vo then none else s.deadlinePair (c.field 40 8)
    round := if vo then 0 else c.field 56 2, qlo := c.field 58 2, qhi := c.field 60 2, minCount := c.field 62 2
    check := popCheck c, captured := if vo then [] else s.expectedSites (c.field 48 8)
    expected := if vo then [] else s.expectedSites (c.field 48 8)
    buffer := if vo then [] else List.replicate (2 ^ c.field 10 1) 0 }

/-- Lowest free slot. -/
def State.freePopSlot (s : State) : Nat := ((List.range 1024).find? (fun k => (SMap.find s.popTests k).isNone)).getD 0

/-- POP_DEFINE (R273, R276, R277). -/
def doPopDefine (c : Cmd) (s : State) : State :=
  let vo := bitOf (c.field 11 1) 4
  let portNeeded := !vo && !bitOf (c.field 11 1) 5
  s.checked c
    ([(s.popDefineBad c, 0x7F),
      (!s.present popUnit || !s.present memUnit || (portNeeded && !s.anyPort s.present), 0x21),
      (!s.ready popUnit || !s.ready memUnit || (portNeeded && !s.anyPort s.ready), 0x22)])
    (fun s =>
      let t := s.newTest c
      let k := s.freePopSlot
      let s1 := ({ s with popTests := SMap.put s.popTests k t } : State)
      let s2 := s1.setFld Reg.POP_STATUS_TESTS_DEFINED s1.popTests.length
      let s3 := (s2.popDo k [.define]).complete c 0 (k + 2 ^ 32 * t.expected.length + 2 ^ 64 * t.check)
      doDeadline k (doForwardDeadline k s3))

/-- Checks of the other population commands (R272, R274). -/
def State.popChecked (s : State) (c : Cmd) (more : PopTest → Bool) (k : Nat → PopTest → State → State) : State :=
  let bad := c.reservedSet [(8, 2)] || decide (c.target ≠ 0)
  let needsPort := fun (t : PopTest) => !t.verdictOnly && !t.isLocal
  match s.popFind (c.field 8 2) with
  | none => s.complete c 0x7F 0
  | some (i, t) =>
    s.checked c
      ([(bad || more t, 0x7F),
        (!s.present popUnit || !s.present memUnit || (needsPort t && !s.anyPort s.present), 0x21),
        (!s.ready popUnit || !s.ready memUnit || (needsPort t && !s.anyPort s.ready), 0x22)])
      (k i t)

/-- STATE a test shows: a VERDICT_ONLY test shares REF_TEST's (R289). -/
def State.shownState (s : State) (t : PopTest) : Nat := match s.judge t with | some j => if t.state = 3 then 3 else j.state | none => t.state

/-- FLAGS a test shows: a VERDICT_ONLY test shares REF_TEST's NO_LIMITS, PARTIAL and POISONED (R289). -/
def State.shownFlags (s : State) (t : PopTest) : Nat :=
  match s.judge t with
  | some j => if t.verdictOnly then
      ({ t with noLimits := j.noLimits, isPartial := j.isPartial, poisoned := t.poisoned || j.poisoned } : PopTest).flags else t.flags
  | none => t.flags

/-- POP_FINALISE (R274). -/
def doPopFinalise (c : Cmd) (s : State) : State :=
  s.popChecked c (fun t => t.verdictOnly) (fun k t s =>
    s.popDo k (.close :: (if s.popIsRoot t then [.finalise s.absNow, .answer c] else [.answer c])))

/-- POP_READ (R274). -/
def doPopRead (c : Cmd) (s : State) : State :=
  s.popChecked c (fun _ => false) (fun _ t s =>
    let j := (s.judge t).getD t
    let st := if t.failedHere then t.failStatus else 0
    s.complete c st (ofSigned 64 j.limitLo + 2 ^ 64 * ofSigned 64 j.limitHi +
      2 ^ 128 * (s.shownState t + 8 * (s.shownFlags t % 32))))

/-- The POP_FINALISE commands whose answer waits with a test's work complete. -/
def State.endAnswers (s : State) (t : PopTest) (st : Nat) : State :=
  t.todo.foldl (fun s op => match op with | .answer c => s.complete c st 0 | _ => s) s

/-- POP_RELEASE: DESIGN CHOICE, a POP_FINALISE of the test that still waits on a Page Request completes with 0x01. Log entry 42
(R274). -/
def doPopRelease (c : Cmd) (s : State) : State :=
  s.popChecked c (fun t => s.popTests.any (fun x => x.2.verdictOnly && decide (x.2.refTest = t.test))) (fun k t st =>
    let s1 := (({ st with popTests := SMap.del st.popTests k } : State).endAnswers t 1)
    (s1.setFld Reg.POP_STATUS_TESTS_DEFINED s1.popTests.length).complete c 0 0)

/-! ### Replay (R290) -/

/-- A reading of (test, site) is withdrawn (R290). -/
def State.popWithdraw (s : State) (test site : Nat) : State :=
  let s1 := s.bump Reg.POP_WITHDRAWN 1
  match s1.popFind test with
  | none => s1
  | some (k, _) => s1.popDo k [.withdraw site]

/-! ### The conditions POP_OUTLIER and POP_NONE (R287) -/

/-- No reading of the group led by `b` that goes to the engine is still to be recorded (R287). -/
def State.popDrained (s : State) (b : Nat) : Bool :=
  !(s.popInput.any (fun r => decide (r.leader = b))) &&
  !(s.popTests.any (fun x => x.2.todo.any (fun op => match op with | .reading r => decide (r.leader = b) | _ => false)))

/-- The verdict of a site is resolved: no work of its test that resolves it waits (R287, R291). -/
def State.verdictResolved (s : State) (test site : Nat) : Bool :=
  decide (3 ≤ s.siteVerdict test site) && !(s.popFind test).any (fun x => x.2.todo.contains .resolve)

end Sys2Proof.Machine
end

