-- ==== Sys2Proof/Machine/Words.lean ====
section
/-! DEFINITION. A program's vectors: its hold vector at the pins, the symbols of its blocks, and the words whose results are
outstanding (R72, R98, R104, R105, R111, R149). -/

namespace Sys2Proof.Machine

open Sys2Proof

/-! ### Vectors (R98, R150) -/

/-- A vector in which every pin carries 0xF (R98, R152). -/
def padVector : Nat := 2 ^ 64 - 1

/-- Symbol of sequencer-local pin j in a vector (R150). -/
def symbolOf (v j : Nat) : Nat := bitsOf v (4 * j) 4

/-- The vectors of a decoded block that are issued: those before the first all-0xF one (R98). -/
def cutLength (l : List Nat) : Nat := l.findIdx (· = padVector)

/-! ### Hold vector at the pins (R72, R99, R131, R140) -/

/-- Bit that pin p uses for symbols 0x9 and 0xA in vector v of a block (R149). -/
def siteBit (regs : List Nat) (x : SitePos) (p srBase srStep v : Nat) : Bool :=
  bitOf (regs.getD x.position 0) ((srBase + x.rank p + srStep * v) % 64)

/-- Resolved symbol of pin p, local pin j of lane i, in the program's hold vector (R72, R149). -/
def Program.holdSym (g : Program) (x : SitePos) (p i j : Nat) : Nat :=
  let sr := g.holdSr.getD i (0, 0)
  withBit (plainSymbol (symbolOf (g.holdVectors.getD i 0) j)) (siteBit g.micro.siteRegs x p sr.1 sr.2 g.header.holdIndex)

/-- Pin p, local pin j of lane i, takes the static state of its symbol in the program's hold vector (R72). -/
def State.holdPin (s : State) (g : Program) (x : SitePos) (p i j : Nat) : State :=
  s.modPin p (fun y => y.holdSymbol (decide (s.afld (Reg.PIN_CTRL_LOAD_ON_COMPARE p) ≠ 0)) (g.holdSym x p i j))

/-- As `holdPin`, for a vector of the path: of a VEC_HOLD, or one that the pin carries outside the running slot. The symbol
is the one that 0xC in the next vector repeats; where it is 0xC itself, the symbol before it stays. DESIGN CHOICE: a hold
period of R99 between two vectors is no vector of theirs, so it leaves that symbol alone. Log entry 38 (R55, R84, R131). -/
def State.holdVector (s : State) (g : Program) (x : SitePos) (p i j : Nat) : State :=
  (s.holdPin g x p i j).modPin p (fun y =>
    { y with lastSymbol := if g.holdSym x p i j = 12 then y.lastSymbol else g.holdSym x p i j, fresh := false })

/-- The pins of a group: lane, local pin, pin number and captured position. -/
def State.groupPins (s : State) (b : Nat) : List (Nat × Nat × Nat × SitePos) :=
  (s.members b).zipIdx.flatMap (fun ni => (List.range 16).filterMap (fun j =>
    let p := seqPin ni.1 j
    ((s.group b).positions.find? (fun x => x.pins.contains p)).map (fun x => (ni.2, j, p, x))))

/-- The hold vector is applied at the pins of the positions of a bitmap (R72, R99). -/
def State.applyHold (s : State) (b : Nat) (g : Program) (positions : Nat) : State :=
  (s.groupPins b).foldl
    (fun s q => if bitOf positions q.2.2.2.position then s.holdPin g q.2.2.2 q.2.2.1 q.1 q.2.1 else s) s

/-- The hold vector of a VEC_HOLD is applied at the pins of the positions of a bitmap (R98). -/
def State.applyHoldVector (s : State) (b : Nat) (g : Program) (positions : Nat) : State :=
  (s.groupPins b).foldl
    (fun s q => if bitOf positions q.2.2.2.position then s.holdVector g q.2.2.2 q.2.2.1 q.1 q.2.1 else s) s

/-! ### The symbols of a block (R55, R98, R149) -/

/-- Symbol of pin j in vector v of a lane's block: 0x7 once the lane's block has ended (R98). -/
def Block.symbol (x : Block) (v j : Nat) : Nat :=
  if v < cutLength x.vectors then plainSymbol (symbolOf (x.vectors.getD v 0) j) else 7

/-- A symbol with 0xC, 0x9 and 0xA resolved: `prev` the previous vector's, `bit` the site-register bit (R55). -/
def resolveSymbol (prev sym : Nat) (bit : Bool) : Nat := if sym = 12 then prev else withBit sym bit

/-- Number of vectors the word takes from one block position: that of the longest lane (R98). -/
def passLength (lanes : List Block) : Nat := (lanes.map (fun x => cutLength x.vectors)).foldl max 0

/-- The resolved symbol of pin p after the first `n` vectors of a lane's block, `prev` before it. -/
def Block.after (x : Block) (regs : List Nat) (pos : SitePos) (p j prev n : Nat) : Nat :=
  (List.range n).foldl (fun r v => resolveSymbol r (x.symbol v j) (siteBit regs pos p x.srBase x.srStep v)) prev

/-! ### Words whose results are outstanding (R104, R105, R111) -/

/-- Vectors a word issues from the block positions it has (R98). -/
def IssuedWord.vectors (w : IssuedWord) : Nat :=
  if w.cls = 4 then w.repeats + 1
  else if w.cls = 3 then (w.blocks.map passLength).sum
  else (w.repeats + 1) * ((w.blocks.map passLength).sum)

/-- The resolved symbol that pin p, local pin j of lane i, carried before block position k of the word, in its first
pass or a later one. -/
def IssuedWord.before (w : IssuedWord) (pos : SitePos) (p i j k : Nat) (later : Bool) : Nat :=
  (w.blocks.take (if later then w.blocks.length else k)).foldl
    (fun r lanes =>
      match lanes[i]? with
      | some x => x.after w.siteRegs pos p j r (passLength lanes)
      | none => 7) (symbolOf (w.prev.getD i 0) j)

/-- The resolved symbol of a pin in vector v of block position k of the word. -/
def IssuedWord.symbol (w : IssuedWord) (pos : SitePos) (p i j k v : Nat) (later : Bool) : Nat :=
  match (w.blocks.getD k [])[i]? with
  | some x => x.after w.siteRegs pos p j (w.before pos p i j k later) (v + 1)
  | none => 7

/-- A resolved symbol is a compare, or captures (R55). -/
def isCompare (sym : Nat) : Bool := decide (3 ≤ sym) && decide (sym ≤ 6)

/-- Where vector `idx` of a word stands: block position, index in its block, repetition, and whether it belongs to a
later pass (R98, R173). -/
def IssuedWord.place (w : IssuedWord) (idx : Nat) : Nat × Nat × Nat × Bool :=
  let len := passLength (w.blocks.getD 0 [])
  match w.cls with
  | 1 => (0, idx % len, idx / len, decide (len ≤ idx))
  | 2 => (0, idx / (w.repeats + 1), idx % (w.repeats + 1), false)
  | _ =>
    let k := (List.range w.blocks.length).findIdx (fun k => decide (idx < ((w.blocks.take (k + 1)).map passLength).sum))
    (k, idx - ((w.blocks.take k).map passLength).sum, k, false)

/-- Some pin of the word's sites compares or captures in vector v of block position k. -/
def State.tested (s : State) (b : Nat) (w : IssuedWord) (k v : Nat) (later : Bool) : Bool :=
  (s.groupPins b).any (fun q =>
    bitOf w.sites q.2.2.2.position &&
    (let y := w.symbol q.2.2.2 q.2.2.1 q.1 q.2.1 k v later
     isCompare y || decide (y = 11)))

/-- Index of the word's next vector with a compare or a capture, from `w.next` on, if there is one. -/
def State.nextTested (s : State) (b : Nat) (w : IssuedWord) : Option Nat :=
  let len := passLength (w.blocks.getD 0 [])
  let total := w.vectors
  let scan := fun (k lo hi : Nat) (later : Bool) =>
    ((List.range hi).filter (fun v => decide (lo ≤ v))).find? (fun v => s.tested b w k v later)
  if w.cls = 4 ∨ w.blocks.isEmpty ∨ total ≤ w.next then none
  else
    match w.cls with
    | 1 =>
      match scan 0 (w.next % len) len (decide (len ≤ w.next)) with
      | some v => some (w.next / len * len + v)
      | none =>
        if w.next / len + 1 ≤ w.repeats then (scan 0 0 len true).map (fun v => (w.next / len + 1) * len + v) else none
    | 2 =>
      let v0 := w.next / (w.repeats + 1)
      if s.tested b w 0 v0 false then some w.next
      else (scan 0 (v0 + 1) len false).map (fun v => v * (w.repeats + 1))
    | _ =>
      let at0 := w.place w.next
      (List.range w.blocks.length).findSome? (fun k =>
        if k < at0.1 then none
        else (scan k (if k = at0.1 then at0.2.1 else 0) (passLength (w.blocks.getD k [])) false).map
          (fun v => ((w.blocks.take k).map passLength).sum + v))

/-- Words at the head of the list whose every result has returned leave it: FAIL_LAST and MATCH become theirs, and the
next word's CLEAR_FAIL acts (R104, R111). The first argument bounds the words. -/
def State.settleWords (s : State) (b : Nat) : Nat → Program → Program
  | 0, g => g
  | fuel + 1, g =>
    match g.outstanding with
    | [] => g
    | w :: ws =>
      let m := g.micro
      if w.vectors = 0 then (if w.whole then State.settleWords s b fuel { g with outstanding := ws } else g)
      else
        let m1 := { m with fail := minusMask m.fail w.clear }
        let w1 := { w with clear := 0 }
        if w.whole && (s.nextTested b w).isNone then
          State.settleWords s b fuel { g with outstanding := ws, micro := { m1 with failLast := w.failed, matchBits := w.matched } }
        else { g with outstanding := w1 :: ws, micro := m1 }

/-- The program's outstanding words are settled. -/
def State.settleResults (s : State) (b : Nat) : State :=
  s.modProgram b (fun g => s.settleWords b (g.outstanding.length + 1) g)

/-- A word whose block positions have not all been issued issues no more of them: the vectors of the earlier ones stand
(R130, R134, R137, R153). -/
def Program.closeWord (g : Program) : Program :=
  if g.seqDone = 0 then g
  else
    { g with
      seqDone := 0
      outstanding := g.outstanding.dropLast ++ (g.outstanding.getLast?.map (fun x => { x with whole := true })).toList }

/-- The word of the group led by `b` that is being issued, if any, issues no more block positions. -/
def State.closeWord (s : State) (b : Nat) : State := (s.modProgram b Program.closeWord).settleResults b

end Sys2Proof.Machine
end

