-- ==== Sys2Proof/Machine/Rings.lean ====
section
/-! DEFINITION. Who is on a broadcast ring, and leaving it (R156, R162, R163, R165, R169). -/

namespace Sys2Proof.Machine

open Sys2Proof

/-- BUF_FILL of sequencer n follows its buffer: the entries no word uses yet, and those whose vectors are still to be applied
(R156, R169). -/
def State.showBuffer (s : State) (n : Nat) : State :=
  s.setFld (Reg.STREAM_BUF_FILL n) ((s.seqRec n).buffer.length + ((s.program (s.leaderOf n)).elim 0 (fun g => g.taken.length)))

/-- The broadcast group sequencer n is on, if any (R169). -/
def State.ringOf (s : State) (n : Nat) : Option Nat :=
  if s.fld (Reg.STREAM_MODE n) = 1 then some (s.fld (Reg.STREAM_BG n)) else none

/-- Ring g. -/
def State.ring (s : State) (g : Nat) : Ring := SMap.get {} s.rings g

/-- Members of ring g, ascending. -/
def State.ringMembers (s : State) (g : Nat) : List Nat := setBits (s.fld (Reg.BG_MEMBERS g)) 64

/-- Index of the ring entry that a member issues next. -/
def Seq.ringHead (q : Seq) : Nat := q.ringNext - q.buffer.length

/-- The pilot: the member furthest along, the lowest-numbered among those level (R163). -/
def State.pilotOf (s : State) (g : Nat) : Nat :=
  let l := s.ringMembers g
  let top := (l.map (fun n => (s.seqRec n).ringHead)).foldl max 0
  (l.find? (fun n => decide ((s.seqRec n).ringHead = top))).getD 0

/-- The registers of ring g follow it; an empty ring is released (R162, R169). -/
def State.showRing (s : State) (g : Nat) : State :=
  let l := s.ringMembers g
  let s1 := if l.isEmpty then { s with rings := SMap.del s.rings g } else s
  let act := s1.fld Reg.HB_STATUS_BG_ACTIVE
  let s2 := s1.setFld Reg.HB_STATUS_BG_ACTIVE (if bitOf act g then act - 2 ^ g + (if l.isEmpty then 0 else 2 ^ g)
    else act + (if l.isEmpty then 0 else 2 ^ g))
  (s2.setFld (Reg.BG_RING_RING_FILL g) (s2.ring g).entries.length).setFld (Reg.BG_RING_PILOT g) (s2.pilotOf g)

/-- Sequencer n leaves its ring and fetches privately, counted in the given way (R165). -/
def State.leaveRing (s : State) (lag : Bool) (n : Nat) : State :=
  match s.ringOf n with
  | none => s
  | some g =>
    let m := s.fld (Reg.BG_MEMBERS g)
    let s1 := (s.setFld (Reg.STREAM_MODE n) 2).setFld (Reg.BG_MEMBERS g) (if bitOf m n then m - 2 ^ n else m)
    (s1.bump (if lag then Reg.BG_LAG_DEPARTURES g else Reg.BG_DEPARTURES g) 1).showRing g

/-- The streams of the group led by `b` become idle: its program has ended or stopped (R165, R169). -/
def State.idleStreams (s : State) (b : Nat) : State :=
  (s.members b).foldl
    (fun s n => (((s.leaveRing false n).setFld (Reg.STREAM_MODE n) 0).modSeq n (fun q => { q with buffer := [], ringNext := 0 })).showBuffer n) s

end Sys2Proof.Machine
end

