-- ==== Sys2Proof/Machine/Stops.lean ====
section
/-! DEFINITION. The execution status of a group and the ways a program stops (spec/06). -/

namespace Sys2Proof.Machine

open Sys2Proof

/-! ### Slots (R131) -/

/-- A free slot. -/
def freeSlot : Slot := {}

/-- Slot i of a micro-state. -/
def Micro.slot (m : Micro) (i : Nat) : Slot := m.slots.getD i freeSlot

/-- Slots in use. -/
def Micro.inUse (m : Micro) : Nat := (m.slots.filter (fun x => decide (x.state ≠ 0))).length

/-- Positions of the running slot. -/
def Micro.runningSites (m : Micro) : Nat := (m.slot m.runningSlot).sites

/-- Slot i replaced. -/
def Micro.setSlot (m : Micro) (i : Nat) (x : Slot) : Micro :=
  { m with slots := m.slots.mapIdx (fun j y => if j = i then x else y) }

/-- Positions the running slot holds that are enabled and open. -/
def State.slotSites (s : State) (b : Nat) (g : Program) : Nat := andMask g.micro.runningSites (s.openMask b)

/-- Active sites (R101): enabled, open, mask bit 1, in the running slot. -/
def State.activeSites (s : State) (b : Nat) (g : Program) : Nat := andMask g.micro.mask (s.slotSites b g)

/-! ### EXEC_STATUS (R147) -/

/-- STATE of EXEC_STATUS for a program (R147). -/
def Program.execState (g : Program) : Nat :=
  if g.stall = 4 then 5
  else if !g.begun then 1
  else if g.stall = 3 then 7
  else if g.stall = 2 then 8
  else if g.stall = 1 || g.calHeld then 4
  else if g.wait = 1 ∨ g.wait = 2 then 3
  else if g.trap.isSome then 6
  else 2

/-- EXEC_STATUS of the group led by `b` follows its program, or the start that waits for its checks or its power; PRIVATE
as the stream registers stand (R129, R147). -/
def State.showExec (s : State) (b : Nat) : State :=
  match s.program b with
  | none =>
    (((s.setFld (Reg.EXEC_STATUS_STATE b) (b2n (s.starts.any (fun c => decide (c.target = b))))).setFld (Reg.EXEC_STATUS_SLOTS b) 0).setFld (Reg.EXEC_STATUS_RUNNING_SLOT b) 0).setFlag
      (Reg.EXEC_STATUS_PRIVATE b) false
  | some g =>
    (((s.setFld (Reg.EXEC_STATUS_STATE b) g.execState).setFld (Reg.EXEC_STATUS_SLOTS b) g.micro.inUse).setFld
      (Reg.EXEC_STATUS_RUNNING_SLOT b) g.micro.runningSlot).setFlag (Reg.EXEC_STATUS_PRIVATE b)
      (decide (s.fld (Reg.STREAM_MODE b) = 2))

/-! ### Stopping (R45, R124, R125, R129, R130, R137, R139, R141) -/

/-- Every command of a list completes with `st` and result `res`. -/
def State.completeAll (s : State) (l : List Cmd) (st res : Nat) : State := l.foldl (fun s c => s.complete c st res) s

/-- The program of the group led by `b` stops issuing: a word being issued issues no more of its blocks, and after the
vectors issued the pins apply the hold vector, unless they are halted. Pre-emption and trap requests not yet served complete
with 0x00 and byte 4, respectively byte 0, at 0; the streams stop (R72, R130, R139, R141, R165). -/
def State.endIssue (s : State) (b : Nat) : State :=
  match (s.closeWord b).program b with
  | none => s
  | some g =>
    let s1 := ((s.closeWord b).completeAll g.preempts 0 0).completeAll g.trapRequests 0 0
    let s2 := if g.halted then s1 else s1.applyHold b g (s.openMask b)
    ((s2.idleStreams b).setProgram b { g with ended := true, wait := 0, blocked := 0, stall := 0, preempts := [], trapRequests := [],
                                              trapsAgain := [], carried := [], calHeld := false }).showExec b

/-- The group led by `b` stops; every site not yet completed is given status `st` (R16, R130, R137). -/
def State.stopGroup (s : State) (b st : Nat) : State :=
  (s.modProgram b (fun g => g.noteAll g.part st)).endIssue b

/-- The group led by `b` stops; every site of the program is given status `st` (R16, R124, R125, R136, R143). -/
def State.stopAllSites (s : State) (b st : Nat) : State :=
  (s.modProgram b (fun g => (setBits g.part 8).foldl (fun g p => g.note p st) g)).endIssue b

/-- As `stopAllSites`, where vectors issued and not yet applied are lost, and results that have not returned never do: a unit of
the program is reset. The rest of the group applies the hold vector (R480). -/
def State.cutGroup (s : State) (b st : Nat) : State :=
  (s.modProgram b (fun g =>
    { g with seqDone := 0, outstanding := [], triggers := [], analog := [], pendingReadings := [] })).stopAllSites b st

/-- As `cutGroup`, with nothing more applied at the pins, which hold their last levels (R76, R432). -/
def State.haltGroup (s : State) (b st : Nat) : State := (s.modProgram b (fun g => { g with halted := true })).cutGroup b st

/-- Leaders whose group holds one of the listed sequencers. -/
def State.leadersOf (s : State) (seqs : List Nat) : List Nat := (seqs.map s.leaderOf).dedup

end Sys2Proof.Machine
end

