-- ==== Sys2Proof/Machine/Micro.lean ====
section
/-! DEFINITION. The micro-word: its fields, parity, conditions of legality, counter and site-register operations
(spec/05). -/

namespace Sys2Proof.Machine

open Sys2Proof

/-! ### Fields (R94, R95) -/

/-- Class of a stored word's data (R94). -/
def wClass (w : Nat) : Nat := bitsOf w 188 4
def wBlock (w : Nat) : Nat := bitsOf w 168 20
def wRepeat (w : Nat) : Nat := bitsOf w 152 16
def wSet (w : Nat) : Nat := bitsOf w 146 6
def wNext (w : Nat) : Nat := bitsOf w 141 5
def wCond (w : Nat) : Nat := bitsOf w 135 6
def wInvert (w : Nat) : Bool := bitOf w 134
def wTarget (w : Nat) : Nat := bitsOf w 110 24
def wCounter (w : Nat) : Nat := bitsOf w 108 2
def wCounterOp (w : Nat) : Nat := bitsOf w 104 4
def wImm (w : Nat) : Nat := bitsOf w 80 24
def wMaskOp (w : Nat) : Nat := bitsOf w 76 4
def wCapture (w : Nat) : Nat := bitsOf w 64 8
def wKind (w : Nat) : Nat := bitsOf w 56 4
def wLimit (w : Nat) : Nat := bitsOf w 60 2
def wToPop (w : Nat) : Bool := bitOf w 62
def wToRecord (w : Nat) : Bool := bitOf w 63
def wAnalog (w : Nat) : Nat := bitsOf w 48 4
def wFlagOp (w : Nat) : Nat := bitsOf w 40 2
def wFlag (w : Nat) : Nat := bitsOf w 42 2
def wEvent (w : Nat) : Nat := bitsOf w 44 4
def wStallSafe (w : Nat) : Bool := bitOf w 39
def wReconverge (w : Nat) : Bool := bitOf w 38
def wTrap (w : Nat) : Bool := bitOf w 37
def wSlotOp (w : Nat) : Nat := bitsOf w 32 5
def wAux (w : Nat) : Nat := bitsOf w 0 32
def wAux16 (w : Nat) : Nat := bitsOf w 0 16

/-- Capture MODE and QUEUE of a capture control (R111). -/
def capMode (c : Nat) : Nat := bitsOf c 0 2
def capResponse (c : Nat) : Bool := bitOf c 2
def capClear (c : Nat) : Bool := bitOf c 3
def capQueue (c : Nat) : Nat := bitsOf c 4 3

/-- The word issues vectors (R98). -/
def wIssues (w : Nat) : Bool := decide (1 ≤ wClass w) && decide (wClass w ≤ 4)

/-- The word reads blocks of its segment (R98). -/
def wReads (w : Nat) : Bool := decide (1 ≤ wClass w) && decide (wClass w ≤ 3)

/-! ### Parity (R96) -/

/-- Number of ones among the low `k` bits. -/
def ones (n : Nat) : Nat → Nat
  | 0 => 0
  | k + 1 => ones n k + n / 2 ^ k % 2

/-- The parity bits that mismatch in a stored word (R96): bit k for Pk. -/
def parityFailed (w : Nat) : Nat :=
  ofBits ((List.range 4).filter (fun k => decide ((ones (bitsOf w (48 * k) 48) 48 + bitsOf w (192 + k) 1) % 2 = 0)))

/-! ### Counters (R107) -/

/-- Loop counter k. -/
def Micro.counter (m : Micro) (k : Nat) : Nat := m.lc.getD k 0

/-- LCk after the word's counter operation (R107). -/
def counterAfter (op imm x : Nat) : Nat :=
  match op with
  | 1 => imm
  | 2 => x - 1
  | 3 => (x + 1) % 2 ^ 24
  | 4 => (x + imm) % 2 ^ 24
  | 5 => if x = 0 then imm else x - 1
  | _ => x

/-- The counters after step 5 of R97. -/
def Micro.stepCounters (m : Micro) (w : Nat) : Micro :=
  { m with lc := m.lc.mapIdx (fun i x => if i = wCounter w then counterAfter (wCounterOp w) (wImm w) x else x) }

/-- A site register after the word's site-register operation; `lc` is LCk (R107). -/
def siteRegAfter (op imm lc x : Nat) : Nat :=
  let lsb := bitsOf imm 0 6
  let width := bitsOf imm 6 6 + 1
  let v := bitsOf imm 12 12
  match op with
  | 8 => putBits x lsb width v
  | 9 => putBits x lsb width (bitsOf x lsb width + ofSigned width (toSigned 12 v))
  | 10 => putBits x lsb width lc
  | _ => x

/-- The operation is a site-register operation (R107). -/
def isSrOp (op : Nat) : Bool := decide (8 ≤ op) && decide (op ≤ 10)

/-! ### Next addresses (R101, R103) -/

/-- Every address the word's next-address operation can select or push, `m` as step 5 leaves it (R103). -/
def nextAddresses (m : Micro) (pc w : Nat) : List Nat :=
  let t := wTarget w
  match wNext w with
  | 0 => [pc + 1]
  | 1 => [t]
  | 2 => [pc + 1, t]
  | 3 => [pc + 1, t]
  | 4 => [pc + 1, t]
  | 5 => [t + m.counter (wCounter w) % 256]
  | 6 => [pc + 1, t]
  | 7 => [pc + 1]
  | 8 => [pc + 1]
  | 16 => [t, pc + 1]
  | 17 => m.stack.take 1
  | _ => []

/-! ### Legality (R98, R100, R103, R107, R111, R115, R116) -/

/-- The meanings that aux[15:0] serves in a word: 1 test number, 2 segment, 3 sequence entry, 4 timeout (R115). -/
def auxUsers (w : Nat) : List Nat :=
  (if wKind w ≠ 0 ∨ wCond w = 13 ∨ wCond w = 14 then [1] else []) ++ (if wClass w = 5 then [2] else []) ++
  (if wAnalog w = 7 then [3] else []) ++ (if wNext w = 6 then [4] else [])

/-- The auxiliary field breaks R115. -/
def auxIllegal (w : Nat) : Bool :=
  decide (2 ≤ (auxUsers w).length) || ((auxUsers w).isEmpty && decide (wAux16 w ≠ 0)) ||
  (decide (wCond w ≠ 12) && decide (bitsOf w 16 6 ≠ 0)) || (decide (wMaskOp w ≠ 4) && decide (bitsOf w 22 8 ≠ 0)) ||
  decide (bitsOf w 30 2 ≠ 0)

/-- A field of the word carries a reserved code or bit (R98, R101, R104, R107, R109 to R114). -/
def reservedCode (pv : Bool) (w : Nat) : Bool :=
  decide (6 ≤ wClass w) ||
  (decide (10 ≤ wNext w) && !(pv && (decide (wNext w = 16) || decide (wNext w = 17)))) ||
  decide (28 ≤ wCond w) || decide (wCounterOp w = 6) || decide (wCounterOp w = 7) || decide (11 ≤ wCounterOp w) ||
  decide (5 ≤ wMaskOp w) || decide (bitsOf w 72 4 ≠ 0) || bitOf w 71 || decide (5 ≤ wKind w) ||
  decide (bitsOf w 52 4 ≠ 0) || decide (12 ≤ wAnalog w) || decide (8 ≤ wEvent w) || decide (4 ≤ wSlotOp w) ||
  (pv && decide (wSlotOp w ≠ 0))

/-- The program runs in PV-256 compatibility mode (R117, R126). -/
def Header.pv (h : Header) : Bool := bitOf h.flags 1
/-- The program is marked replayable (R117). -/
def Header.replayable (h : Header) : Bool := bitOf h.flags 0

/-- Block count of segment `i`; its address. -/
def Header.blocks (h : Header) (i : Nat) : Nat := (h.segments.getD i (0, 0)).2
def Header.segAddr (h : Header) (i : Nat) : Nat := (h.segments.getD i (0, 0)).1

/-- The word at `pc` is illegal (R116). -/
def wordIllegal (h : Header) (m : Micro) (pc w : Nat) : Bool :=
  let c := wClass w
  reservedCode h.pv w || auxIllegal w ||
  ((decide (c = 0) || decide (c = 5)) && (decide (wBlock w ≠ 0) || decide (wRepeat w ≠ 0))) ||
  (decide (c = 4) && decide (wBlock w ≠ 0)) ||
  (decide (c = 3) && decide (h.blocks m.segment ≤ wBlock w + wRepeat w)) ||
  (decide (c = 5) && decide (h.segCount ≤ wAux16 w)) ||
  (isSrOp (wCounterOp w) && decide (64 < bitsOf (wImm w) 0 6 + bitsOf (wImm w) 6 6 + 1)) ||
  (nextAddresses (m.stepCounters w) pc w).any (fun a => decide (h.wordCount ≤ a))

/-! ### The control store as read (R120) -/

/-- The frame that holds page `pg` in a control store, with its number. -/
def findFrame (l : SMap Frame) (pg : Nat) : Option (Nat × Frame) := l.find? (fun f => decide (f.2.page = pg))

/-- The stored word at micro-address `pc` of the group led by `b`, with its frame. -/
def State.fetchWord (s : State) (b pc : Nat) : Option (Nat × Frame × Nat) :=
  match findFrame (s.seqRec b).frames (pc / 256) with
  | some (i, f) => some (i, f, f.words.getD (pc % 256) 0)
  | none => none

end Sys2Proof.Machine
end

