-- ==== Sys2Proof/Machine/Blocks.lean ====
section
/-! DEFINITION. Vector blocks: the stored form, its decoding, and reading one through a segment's index (spec/07). -/

namespace Sys2Proof.Machine

open Sys2Proof

/-- A vector with pin j carrying `sym`. -/
def putSymbol (v j sym : Nat) : Nat := putBits v (4 * j) 4 sym

/-- `n` vectors appended, each a copy of the one D positions before it (R152). -/
def copyBack (d : Nat) : Nat → List Nat → List Nat
  | 0, acc => acc
  | n + 1, acc => copyBack d n (acc ++ [acc.getD (acc.length - d) 0])

/-- `n` vectors appended, each the previous with the masked pins replaced by the next symbols (R152). -/
def deltaBack (pins : List Nat) : Nat → List Nat → List Nat → List Nat
  | 0, _, acc => acc
  | n + 1, syms, acc =>
    let prev := acc.getLastD 0
    let v := (pins.zip syms).foldl (fun v p => putSymbol v p.1 p.2) prev
    deltaBack pins n (syms.drop pins.length) (acc ++ [v])

/-- The nibbles of bytes, least significant first. -/
def nibbles (l : List Byte) : List Nat := l.flatMap (fun b => [b.toNat % 16, b.toNat / 16])

/-- The operations of a compressed payload decoded onto the vectors so far; none where malformed (R152, R153). The
first argument bounds the operations. -/
def decodeOps : Nat → List Byte → List Nat → Option (List Nat)
  | 0, _, _ => none
  | fuel + 1, bs, acc =>
    if bs.isEmpty then (if acc.length = 512 then some acc else none)
    else
      let w := leNat (bs.take 2)
      let rest := bs.drop 2
      let n := bitsOf w 4 9 + 1
      let sym := w % 16
      let go := fun (rest : List Byte) (acc : List Nat) => if 512 < acc.length then none else decodeOps fuel rest acc
      if bs.length < 2 then none
      else
        match w / 2 ^ 13 with
        | 0 => if w ≠ 0 ∨ rest ≠ [] ∨ 512 < acc.length then none else some (acc ++ List.replicate (512 - acc.length) padVector)
        | 1 =>
          if sym ≠ 0 ∨ rest.length < 8 * n then none
          else go (rest.drop (8 * n)) (acc ++ (List.range n).map (fun i => leNat ((rest.drop (8 * i)).take 8)))
        | 2 => if sym ≠ 0 ∨ acc.isEmpty then none else go rest (acc ++ List.replicate n (acc.getLastD 0))
        | 3 =>
          let d := leNat (rest.take 2)
          if sym ≠ 0 ∨ rest.length < 2 ∨ 512 ≤ d ∨ d = 0 ∨ acc.length < d ∨ 512 < acc.length + n then none
          else go (rest.drop 2) (copyBack d n acc)
        | 4 =>
          let pins := setBits (leNat (rest.take 2)) 16
          let used := (n * pins.length + 3) / 4 * 2
          let syms := nibbles ((rest.drop 2).take used)
          if sym ≠ 0 ∨ rest.length < 2 + used ∨ pins.isEmpty ∨ acc.isEmpty ∨ 512 < acc.length + n ∨
              (syms.drop (n * pins.length)).any (fun x => decide (x ≠ 0)) then none
          else go (rest.drop (2 + used)) (deltaBack pins n syms acc)
        | 5 => go rest (acc ++ List.replicate n (((List.range 16).map (fun j => sym * 16 ^ j)).sum))
        | _ => none

/-- The header of a stored block breaks R151 or R153; `len` is LENGTH of its index entry. -/
def blockHeaderBad (len : Nat) (d : List Byte) : Bool :=
  let byte := fun i => (d.getD i 0).toNat
  let plen := leNat ((d.drop 4).take 2)
  decide (1 < byte 0) || decide (64 ≤ byte 1) || decide (64 ≤ byte 2) || decide (byte 3 ≠ 0) || decide (byte 6 ≠ 0) ||
    decide (byte 7 ≠ 0) || decide (len ≠ 8 + plen) || decide (4096 < plen) ||
    (if byte 0 = 0 then decide (plen ≠ 4096) else decide (plen % 2 ≠ 0) || decide (plen = 0))

/-- An index entry breaks R154: a reserved bit, or a LENGTH that no block has (R151). -/
def indexBad (e : Nat) : Bool := decide (bitsOf e 45 19 ≠ 0) || decide (bitsOf e 32 13 < 10) || decide (4104 < bitsOf e 32 13)

/-- A stored block: SR_BASE, SR_STEP and its 512 vectors; none where malformed (R151 to R153). `len` is LENGTH of its
index entry. -/
def decodeBlock (len : Nat) (d : List Byte) : Option (Nat × Nat × List Nat) :=
  let byte := fun i => (d.getD i 0).toNat
  let plen := leNat ((d.drop 4).take 2)
  let payload := (d.drop 8).take plen
  if blockHeaderBad len d then none
  else if byte 0 = 0 then some (byte 1, byte 2, (List.range 512).map (fun i => leNat ((payload.drop (8 * i)).take 8)))
  else (decodeOps (plen / 2 + 1) payload []).map (fun v => (byte 1, byte 2, v))

/-- What a block read brings: a block, a page wait, or nothing (a speculative read dropped). -/
inductive Got where
  | block (x : Block)
  | wait
  | drop
  deriving DecidableEq, Repr

/-- The block `ref` of segment `seg` for lane `lane` of a program is read for sequencer n (R154, R158 to R160). -/
def State.readBlock (s : State) (h : Header) (n lanes lane seg ref consumer : Nat) (spec : Bool) : Got × State :=
  let x : MemCtx := { engine := 1, unit := n, spec := spec }
  let base := h.segAddr seg
  let made := fun (st : Nat) (sr : Nat × Nat × List Nat) =>
    Got.block { segment := seg, ref := ref, consumer := consumer, vectors := sr.2.2, srBase := sr.1, srStep := sr.2.1
                status := st, spec := spec, lane := lane }
  let bad := fun st => if spec then Got.drop else made st (0, 0, [])
  if h.blocks seg ≤ ref then (bad 0x7F, s)
  else
    match s.memRead x (base + 64 + 8 * (lanes * ref + lane)) 8 with
    | (.ok ie none, s1') =>
      let e := leNat ie
      let len := bitsOf e 32 13
      let s1 := s1'.bump Reg.HB_BYTES_READ 8
      if indexBad e then (bad 0x7F, s1)
      else
        match s1.memRead x (base + 64 * bitsOf e 0 32) len with
        | (.ok d none, s2) =>
          let s3 := s2.bump Reg.HB_BYTES_READ len
          match decodeBlock len d with
          | some v => (made 0 v, s3.bump Reg.HB_BYTES_DECODED 4096)
          | none => (bad 0x7F, s3)
        | (.ok _ (some _), s2) => (bad 0x12, s2.bump Reg.HB_BYTES_READ len)
        | (.fault k, s2) => (bad (kindStatus k), s2)
        | (.wait, s2) => (.wait, s2)
        | (.drop, s2) => (.drop, s2)
    | (.ok _ (some _), s1) => (bad 0x12, s1.bump Reg.HB_BYTES_READ 8)
    | (.fault k, s1) => (bad (kindStatus k), s1)
    | (.wait, s1) => (.wait, s1)
    | (.drop, s1) => (.drop, s1)

end Sys2Proof.Machine
end

