-- ==== Sys2Proof/Machine/Timing.lean ====
section
/-! DEFINITION. Edge timing: the frequency plan, timing sets, deskew (spec/04). -/

namespace Sys2Proof.Machine

open Sys2Proof

/-! ### Timing-set entries (R77, R93) -/

/-- Key of word k of (cluster, set, local pin): k = 0 to 4 the edges, 5 the format; pin 32, k = 0 the period with MODE
in bit 40. -/
def tsKey (c set pin k : Nat) : Nat := ((c * 64 + set) * 33 + pin) * 8 + k

/-- The reset content of an entry (R93). -/
def tsDefault (key : Nat) : Nat := if key / 8 % 33 = 32 then 100000 else if key % 8 = 2 then 200 else 0

/-- An entry as its register reads, and as applied. -/
def State.tsWritten (s : State) (key : Nat) : Nat := SMap.get (tsDefault key) s.timing key
def State.tsApplied (s : State) (key : Nat) : Nat := SMap.get (tsDefault key) s.timingApplied key

def State.setTsWritten (s : State) (key v : Nat) : State := { s with timing := SMap.set (tsDefault key) s.timing key v }
def State.setTsApplied (s : State) (key v : Nat) : State :=
  { s with timingApplied := SMap.set (tsDefault key) s.timingApplied key v }

/-- Cluster of a key, and its local pin (32: the period). -/
def tsCluster (key : Nat) : Nat := key / 8 / 33 / 64
def tsSet (key : Nat) : Nat := key / 8 / 33 % 64
def tsPin (key : Nat) : Nat := key / 8 % 33

/-! ### Validity (R74, R78, R79, R80) -/

/-- FREQ lies in its span (R74). -/
def freqValid (f : Nat) : Bool := decide (0x18000000 ≤ f) && decide (f ≤ 0x30000000)

/-- FREQ in force on cluster c. -/
def State.freq (s : State) (c : Nat) : Nat := s.afld (Reg.CLK_PLAN_FREQ c)

/-- 2^24 × 20,000: with f_CL = 50 MHz × FREQ / 2^24, T_CL is this over FREQ, in ps (R74). -/
def cycleScale : Nat := 2 ^ 24 * 20000

/-- A period register's VALUE and MODE (R78, R93). -/
def periodValue (w : Nat) : Nat := bitsOf w 0 40
def periodMode (w : Nat) : Nat := bitsOf w 40 1

/-- The period in whole ps, rounded down (R78, R79). -/
def periodPs (freq w : Nat) : Nat := if periodMode w = 0 then periodValue w else periodValue w * cycleScale / freq

/-- The period satisfies R78. -/
def periodValid (freq w : Nat) : Bool :=
  if periodMode w = 0 then
    decide (max 417 ((cycleScale + freq - 1) / freq) ≤ periodValue w) && decide (periodValue w ≤ 10 ^ 12)
  else decide (1 ≤ periodValue w) && decide (periodValue w * cycleScale ≤ 10 ^ 12 * freq)

/-- The offsets E0 to E4 of one pin satisfy R79 in a period of `p` ps. -/
def edgesValid (p e0 e1 e2 e3 e4 : Nat) : Bool :=
  decide (e0 ≤ e1) && decide (e1 + 200 ≤ e2) && decide (e2 < p) && decide (e3 ≤ e4) && decide (e4 < p)

/-- The content `get` of set t of cluster c is valid at FREQ `freq` (R78, R79). -/
def setValid (get : Nat → Nat) (freq c t : Nat) : Bool :=
  let w := get (tsKey c t 32 0)
  periodValid freq w &&
  (List.range 32).all (fun i =>
    edgesValid (periodPs freq w) (get (tsKey c t i 0)) (get (tsKey c t i 1)) (get (tsKey c t i 2)) (get (tsKey c t i 3))
      (get (tsKey c t i 4)))

/-- Every key of set t of cluster c. -/
def setKeys (c t : Nat) : List Nat :=
  tsKey c t 32 0 :: (List.range 32).flatMap (fun i => (List.range 6).map (fun k => tsKey c t i k))

/-- The written content of an entry as far as its write is not held (R80, R81). -/
def State.tsOffered (s : State) (key : Nat) : Nat :=
  if (s.cluster (tsCluster key)).heldTiming.contains key then s.tsApplied key else s.tsWritten key

/-- Bit t of TS_ERR of cluster c. -/
def State.setTsErr (s : State) (c t : Nat) (b : Bool) : State :=
  let e := s.fld (Reg.TS_ERR c)
  s.setFld (Reg.TS_ERR c) (if bitOf e t = b then e else if b then e + 2 ^ t else e - 2 ^ t)

/-- Set t of cluster c is checked on its whole written content, and applied whole if valid (R80). -/
def State.applySet (s : State) (c t : Nat) : State :=
  if setValid s.tsOffered (s.freq c) c t then
    ((setKeys c t).foldl (fun s k => s.setTsApplied k (s.tsOffered k)) s).setTsErr c t false
  else s.setTsErr c t true

/-- The frequency plan of cluster c has changed: sets whose applied content it leaves invalid show TS_ERR (R80). -/
def State.recheckSets (s : State) (c : Nat) : State :=
  (List.range 64).foldl (fun s t => if setValid s.tsApplied (s.freq c) c t then s else s.setTsErr c t true) s

/-! ### Writes (R75, R81, R88) -/

/-- Sequencers of cluster c. -/
def clusterSeqs (c : Nat) : List Nat := [2 * c, 2 * c + 1]

/-- A program runs on a sequencer of cluster c. -/
def State.clusterRuns (s : State) (c : Nat) : Bool := (clusterSeqs c).any s.runs

/-- A relock starts: the cluster, if it was ready, is not ready until it ends (R75). -/
def State.startRelock (s0 : State) (c : Nat) : State :=
  let s := s0.modCluster c (fun k => { k with wasReady := s0.ready c || (k.wasReady && s0.flag (Reg.CLK_STATUS_RELOCKING c)) })
  ((s.setFlag (Reg.UNIT_READY c) false).setFlag (Reg.CLK_STATUS_RELOCKING c) true).setFlag (Reg.CLK_STATUS_LOCKED c) false

/-- FREQ `v` is put in force on cluster c and a relock starts (R75). -/
def State.applyFreq (s : State) (c v : Nat) : State :=
  let s1 := s.applyVal (Reg.CLK_PLAN_FREQ c) v
  let s2 := (s1.setFlag (Reg.CLK_STATUS_PLAN_PENDING c) false).modCluster c (fun k => { k with heldFreq := none })
  (s2.recheckSets c).startRelock c

/-- A FREQ write to cluster c: outside its span not applied, and a value held before it stays held; held while a program runs
on either sequencer; else applied (R74, R75). -/
def State.freqWritten (s : State) (c : Nat) : State :=
  if !freqValid (s.fld (Reg.CLK_PLAN_FREQ c)) then s.setFlag (Reg.CLK_STATUS_PLAN_ERR c) true
  else
    let s1 := s.setFlag (Reg.CLK_STATUS_PLAN_ERR c) false
    if s1.clusterRuns c then
      (s1.modCluster c (fun k => { k with heldFreq := some (s.fld (Reg.CLK_PLAN_FREQ c)) })).setFlag (Reg.CLK_STATUS_PLAN_PENDING c)
        true
    else s1.applyFreq c (s.fld (Reg.CLK_PLAN_FREQ c))

/-- A write to a timing-set entry is held: a period while a program runs on either sequencer of the cluster, an edge or
format while one runs on the pin's (R81). -/
def State.tsHeld (s : State) (key : Nat) : Bool :=
  let c := tsCluster key
  if tsPin key = 32 then s.clusterRuns c else s.runs (pinSeq (32 * c + tsPin key))

/-- A timing-set entry has been written (R80, R81). -/
def State.tsWrite (s : State) (key v : Nat) : State :=
  let c := tsCluster key
  let s1 := s.setTsWritten key v
  if s1.tsHeld key then
    let s2 := s1.modCluster c (fun k => { k with heldTiming := addOnce key k.heldTiming })
    if tsPin key = 32 then s2.setFlag (Reg.CLK_STATUS_PERIOD_PENDING c) true
    else (s2.modPin (32 * c + tsPin key) (fun x => { x with held := true })).setFlag
      (Reg.PIN_STATUS_PENDING (32 * c + tsPin key)) true
  else s1.applySet c (tsSet key)

/-- The user deskew of local pin i of cluster c is put in force if both terms lie in ±4,000 ps; DSK_ERR follows
(R88). -/
def State.applyDeskew (s : State) (c i : Nat) : State :=
  let ok := within (-4000) 4000 (s.sfld (Reg.DESKEW_USER_DRV c i)) && within (-4000) 4000 (s.sfld (Reg.DESKEW_USER_CMP c i))
  let s1 := if ok then s.applyFlds [Reg.DESKEW_USER_DRV c i, Reg.DESKEW_USER_CMP c i] else s
  let e := s1.fld (Reg.DSK_ERR c)
  s1.setFld (Reg.DSK_ERR c) (if bitOf e i = !ok then e else if ok then e - 2 ^ i else e + 2 ^ i)

/-- A write to the deskew of pin p: held with the pin's writes, else put in force (R81, R88). -/
def State.deskewWritten (s : State) (p : Nat) : State :=
  if s.runs (pinSeq p) then
    (s.modPin p (fun x => { x with held := true })).setFlag (Reg.PIN_STATUS_PENDING p) true
  else s.applyDeskew (p / 32) (p % 32)

/-- Held timing writes of cluster c that pass the test are released and their sets applied (R81). -/
def State.releaseTiming (s : State) (c : Nat) (f : Nat → Bool) : State :=
  let keys := (s.cluster c).heldTiming.filter f
  let s1 := s.modCluster c (fun k => { k with heldTiming := k.heldTiming.filter (fun x => !f x) })
  ((keys.map tsSet).dedup).foldl (fun s t => s.applySet c t) s1

/-- The held writes of every pin of sequencer n are put in force together (R53, R81). -/
def State.releasePins (s : State) (n : Nat) : State :=
  let c := seqCluster n
  let s1 := s.releaseTiming c (fun k => decide (tsPin k < 32) && decide (pinSeq (32 * c + tsPin k) = n))
  (List.range 16).foldl (fun s i =>
    let p := seqPin n i
    if (s.pin p).held then
      (((s.modPin p (fun x => { x with held := false })).setFlag (Reg.PIN_STATUS_PENDING p) false).applyPin p).applyDeskew
        (p / 32) (p % 32)
    else s) s1

/-- The held period and FREQ writes of cluster c are put in force. -/
def State.takePeriods (s : State) (c : Nat) : State :=
  let s1 := (s.releaseTiming c (fun k => decide (tsPin k = 32))).setFlag (Reg.CLK_STATUS_PERIOD_PENDING c) false
  match (s1.cluster c).heldFreq with
  | some v => s1.applyFreq c v
  | none => s1

/-- The held period and FREQ writes of cluster c are put in force once neither sequencer runs a program (R75, R81). -/
def State.releaseCluster (s : State) (c : Nat) : State := if s.clusterRuns c then s else s.takePeriods c

/-! ### Periods of a group (R35, R82) -/

/-- Set t matches on clusters c and d (R82). -/
def State.periodsMatch (s : State) (c d t : Nat) : Bool :=
  let x := s.tsApplied (tsKey c t 32 0)
  let y := s.tsApplied (tsKey d t 32 0)
  decide (periodMode x = periodMode y) && decide (periodValue x = periodValue y) &&
  (decide (periodMode x = 0) || decide (s.freq c = s.freq d))

/-- Each of the 64 sets matches on every cluster of the list (R82). -/
def State.allMatch (s : State) (cs : List Nat) : Bool :=
  cs.all (fun c => (List.range 64).all (fun t => s.periodsMatch (cs.headD 0) c t))

/-! ### Vector starts (R83, R99) -/

/-- Units of a cluster's time in a picosecond: FREQ, so that a cluster cycle of R74, 2^24 × 20,000 / FREQ ps, and a whole
picosecond are both whole numbers of units. -/
def State.timeUnits (s : State) (c : Nat) : Nat := s.freq c

/-- The period of set t of cluster c in those units (R78, R83). -/
def State.periodUnits (s : State) (c t : Nat) : Nat :=
  let w := s.tsApplied (tsKey c t 32 0)
  if periodMode w = 0 then periodValue w * s.freq c else periodValue w * cycleScale

/-- A time in units, in whole picoseconds: the nearest, so that rounding never accumulates (R83). -/
def unitsPs (freq u : Nat) : Nat := (2 * u + freq) / (2 * freq)

/-! ### Edges at the ball (R83, R87) -/

/-- Format of a pin in a set, as applied. -/
def State.pinFormat (s : State) (p set : Nat) : Nat := s.tsApplied (tsKey (p / 32) set (p % 32) 5)

/-- Time of edge k of pin p in set `set` after its vector's start, at the ball (R83): drive edges 0 to 2 move with the
drive deskew, compare edges 3 and 4 with the compare deskew. -/
def State.edgeAtBall (s : State) (p set k : Nat) : Int :=
  let c := p / 32
  let i := p % 32
  let e : Int := (s.tsApplied (tsKey c set i k) : Int)
  if k < 3 then e + toSigned 16 (s.cal 1 p 44) + s.asfld (Reg.DESKEW_USER_DRV c i)
  else e + toSigned 16 (s.cal 1 p 45) + s.asfld (Reg.DESKEW_USER_CMP c i)

/-- The drive level of pin p at time `t` after the start of a vector of resolved symbol `sym` that set `set` places, the driver
having been in state `was` (R83, R84, R87). -/
def State.driveInVector (s : State) (p set : Nat) (was : Drive) (sym : Nat) (t : Int) : Drive :=
  (driveTrace (s.pinFormat p set) was sym).at was (s.edgeAtBall p set 0) (s.edgeAtBall p set 1) (s.edgeAtBall p set 2) t

/-- The window of pin p in set `set` is a single sample (R86). -/
def State.singleSample (s : State) (p set : Nat) : Bool :=
  decide (s.tsApplied (tsKey (p / 32) set (p % 32) 3) = s.tsApplied (tsKey (p / 32) set (p % 32) 4))

/-! ### Events (R75, R76) -/

/-- The timing phase of cluster c is aligned to cell time (R22, R75, R383). -/
def State.alignCluster (s : State) (c : Nat) : State :=
  let x := SMap.get ({} : Cluster) s.clusters c
  { s with clusters := SMap.put s.clusters c { x with aligned := s.fld Reg.EPOCH * 2 ^ 64 + s.now } }

/-- RELOCK_END: the relock of cluster c ends, its phase aligned; a cluster that was ready when it began is ready again, unless
it has been reset, has failed or is off (R75). -/
def doRelockEnd (c : Nat) (s0 : State) : State :=
  if s0.flag (Reg.CLK_STATUS_RELOCKING c) then
    let s := s0.alignCluster c
    ((s.setFlag (Reg.CLK_STATUS_RELOCKING c) false).setFlag (Reg.CLK_STATUS_LOCKED c) true).setFlag (Reg.UNIT_READY c)
      (s.ready c || ((s.cluster c).wasReady && s.present c && !s.flag (Reg.UNIT_OFF c) && !s.flag (Reg.UNIT_FAILED c) &&
        !s.units.restarting.contains c))
  else s0

/-- PLL_LOCK_LOSS: cluster c's PLL loses lock; both sequencers' programs stop with 0x50 and no further edges; a relock
starts (R76). DESIGN CHOICE: so does a program admitted for a scheduled start that has not begun: the spec leaves open whether it
waits for its start, to complete with 0x22 under R91. Log entry 35. -/
def doPllLockLoss (c : Nat) (s : State) : State :=
  if s.flag (Reg.CLK_STATUS_LOCKED c) then
    let s1 := (s.leadersOf (clusterSeqs c)).foldl (fun s b => s.haltGroup b 0x50) s
    ((s1.setFlag (Reg.CLK_STATUS_LOCK_LOST c) true).raise 3 c 0).startRelock c
  else s

end Sys2Proof.Machine
end

