-- ==== Sys2Proof/Machine/Streams.lean ====
section
/-! DEFINITION. Stream buffers, the look-ahead and the broadcast rings (R156 to R165). -/

namespace Sys2Proof.Machine

open Sys2Proof

/-! ### The look-ahead (R156, R157) -/

/-- One block the path needs: segment, reference, consuming word, and whether a predicted branch precedes it. -/
structure PathItem where
  segment : Nat
  ref : Nat
  consumer : Nat
  spec : Bool
  deriving DecidableEq, Repr

/-- A condition source that the look-ahead computes from its shadow counters: its value (R156). -/
def computedCond (m : Micro) (w : Nat) : Option Bool :=
  let c := wCond w
  if c = 0 then some (true != wInvert w)
  else if 8 ≤ c ∧ c ≤ 11 then some (decide (m.counter (c - 8) = 0) != wInvert w)
  else none

/-- The predicted next address, the shadow state there, and whether a prediction was made; none where the look-ahead
stops (R156). `m` is the shadow state after the word's counter operation. -/
def lookNext (m : Micro) (pc w : Nat) : Option (Nat × Micro × Bool) :=
  let t := wTarget w
  match wNext w with
  | 1 => some (t, m, false)
  | 5 => some (t + m.counter (wCounter w) % 256, m, false)
  | 9 => none
  | 16 => if 8 ≤ m.stack.length then some (pc + 1, m, false) else some (t, { m with stack := (pc + 1) :: m.stack }, false)
  | 17 =>
    match m.stack with
    | [] => some (pc + 1, m, false)
    | a :: l => some (a, { m with stack := l }, false)
  | 2 | 3 | 4 =>
    match computedCond m w with
    | some v => some (if v then t else pc + 1, m, false)
    | none => some (if t ≤ pc then t else pc + 1, m, true)
  | _ => some (pc + 1, m, false)

/-- The block positions of a word from `skip` on, at most `need` of them. -/
def wordItems (m : Micro) (pc w skip need : Nat) (spec : Bool) : List PathItem :=
  let count := if wClass w = 3 then wRepeat w + 1 else if wReads w then 1 else 0
  (List.range (min need (count - skip))).map
    (fun i => { segment := m.segment, ref := wBlock w + skip + i, consumer := pc, spec := spec })

/-- The next blocks of the path from a word on; the first argument bounds the words scanned (R156). -/
def State.scanPath (s : State) (b : Nat) (h : Header) : Nat → Micro → Nat → Nat → Nat → Bool → List PathItem
  | 0, _, _, _, _, _ => []
  | fuel + 1, m, pc, skip, need, spec =>
    if need = 0 then []
    else
      match s.fetchWord b pc with
      | none => []
      | some (_, _, w) =>
        if wordIllegal h m pc w then []
        else
          let here := wordItems m pc w skip need spec
          let m1 := m.stepCounters w
          let m2 := if wClass w = 5 then { m1 with segment := wAux16 w } else m1
          match lookNext m2 pc w with
          | none => here
          | some (pc', m', p) => here ++ State.scanPath s b h fuel m' pc' 0 (need - here.length) (spec || p)

/-- The next `need` blocks of the running path of a program (R156): from the word to issue on, or from the word after
a WAIT or SYNC that has issued. -/
def State.path (s : State) (b : Nat) (g : Program) (need : Nat) : List PathItem :=
  if 2 ≤ g.wait then s.scanPath b g.header 1024 g.micro (g.micro.pc + 1) 0 need false
  else s.scanPath b g.header 1024 g.micro g.micro.pc g.seqDone need false

/-- A buffered block is the one an item asks for. -/
def Block.serves (x : Block) (i : PathItem) : Bool :=
  decide (x.segment = i.segment) && decide (x.ref = i.ref) && decide (x.consumer = i.consumer)

/-- Length of the longest prefix of a buffer that follows a path. -/
def followed : List Block → List PathItem → Nat
  | x :: xs, i :: is => if x.serves i then followed xs is + 1 else 0
  | _, _ => 0

/-! ### Buffers (R23, R156) -/

/-- The cell time now as a time after program time zero, in units of 1 ÷ FREQ ps (R83). -/
def State.elapsed (s : State) (b : Nat) (g : Program) : Nat :=
  match g.zero with
  | some z => (s.now - z) * s.timeUnits (b / 2)
  | none => 0

/-- The vectors that end by time `t` have been applied: the queue entries and the stream-buffer entries of their words are
released (R23, R156). -/
def Program.appliedTo (g : Program) (t : Nat) : Program :=
  { g with queue := g.queue.filter (fun e => decide (t < e)), taken := g.taken.filter (fun e => decide (t < e)) }

/-- As `Program.appliedTo`, with BUF_FILL of every lane (R169). -/
def State.appliedTo (s : State) (b t : Nat) : State :=
  (s.members b).foldl (fun s n => s.showBuffer n) (s.modProgram b (fun g => g.appliedTo t))

/-- What the cell time says has been applied of the vectors of the group led by `b`. -/
def State.applyDue (s : State) (b : Nat) : State :=
  match s.program b with
  | some g => s.appliedTo b (s.elapsed b g)
  | none => s

/-- Sequencer n keeps the first `k` entries of its buffer; the others are dropped and counted (R157, R169). -/
def State.keepEntries (s : State) (n k : Nat) : State :=
  let l := (s.seqRec n).buffer
  if l.length ≤ k then s
  else ((s.modSeq n (fun q => { q with buffer := l.take k, ringNext := q.ringNext - (l.length - k) })).bump
    (Reg.SPEC_DISCARDED n) (l.length - k)).showBuffer n

/-! ### Rings (R162 to R165) -/

/-- All members of the group led by `b` leave their streams together (R165). -/
def State.departGroup (s : State) (b : Nat) (lag : Bool) : State :=
  ((s.members b).foldl (fun s n => s.leaveRing lag n) s).showExec b

/-- Ring g drops its entries from index `k` on, from itself and from every member's buffer (R165). -/
def State.dropRingFrom (s : State) (g k : Nat) : State :=
  let r := s.ring g
  let r1 := { r with entries := r.entries.take (k - r.first), tags := r.tags.filter (fun t => decide (t.entry ≤ k)) }
  let s1 := { s with rings := SMap.put s.rings g r1 }
  ((s1.ringMembers g).foldl
    (fun s n =>
      let q := s.seqRec n
      s.keepEntries n (k - q.ringHead)) s1).showRing g

/-- An entry is written into ring g; a full ring releases its oldest (R162, R164). -/
def State.writeRing (s : State) (g : Nat) (x : Block) : State :=
  let r := s.ring g
  let r1 := if 64 ≤ r.entries.length then
      { r with first := r.first + 1, entries := r.entries.drop 1, tags := r.tags.filter (fun t => decide (r.first < t.entry)) }
    else r
  (({ s with rings := SMap.put s.rings g { r1 with entries := r1.entries ++ [x] } } : State).bump (Reg.BG_BLOCKS_READ g) 1).showRing g

/-- Sequencer n takes the ring's entry at its position, if it is held (R162, R164). -/
def State.takeRing (s : State) (g n : Nat) : State :=
  let r := s.ring g
  let q := s.seqRec n
  match r.entries[q.ringNext - r.first]? with
  | some x =>
    (((s.modSeq n (fun q => { q with buffer := q.buffer ++ [x], ringNext := q.ringNext + 1 })).bump (Reg.BG_DELIVERIES g) 1).showBuffer
      n)
  | none => s

/-! ### Following the path -/

/-- The streams of the group led by `b` follow its path: a private member drops the entries that no longer do; a
pilot rewrites its ring along its path; another member whose resolved path leads elsewhere leaves with its group
(R157, R164, R165). -/
def State.alignStreams (s : State) (b : Nat) : State :=
  match s.program b with
  | none => s
  | some g =>
    let path := s.path b g 8
    let sure := path.takeWhile (fun i => !i.spec)
    let leaves := (s.members b).any (fun n =>
      match s.ringOf n with
      | none => false
      | some r =>
        let l := (s.seqRec n).buffer
        decide (s.pilotOf r ≠ n) && decide (followed l sure < min l.length sure.length))
    let s1 := if leaves then s.departGroup b false else s
    (s1.members b).foldl
      (fun s n =>
        let q := s.seqRec n
        let k := followed q.buffer path
        match s.ringOf n with
        | none => s.keepEntries n k
        | some r => if s.pilotOf r = n ∧ k < q.buffer.length then s.dropRingFrom r (q.ringHead + k) else s) s1

/-- Every lane of the group led by `b` holds the block of reference `ref` for word `pc` as its next entry (R156). -/
def State.laneReady (s : State) (b pc seg ref : Nat) : Bool :=
  (s.members b).all (fun n =>
    match (s.seqRec n).buffer with
    | x :: _ => x.serves { segment := seg, ref := ref, consumer := pc, spec := false }
    | [] => false)

/-- Sequencer n's ring, if it is on one, follows its position (R163, R169). -/
def State.showRingOf (s : State) (n : Nat) : State :=
  match s.ringOf n with
  | some r => s.showRing r
  | none => s

/-- The next entries of every lane, and the state with them taken into use (R156, R169). -/
def State.takeLanes (s : State) (b : Nat) : List Block × State :=
  ((s.members b).filterMap (fun n => (s.seqRec n).buffer.head?),
    (s.members b).foldl
      (fun s n =>
        match (s.seqRec n).buffer with
        | _ :: l => ((s.modSeq n (fun q => { q with buffer := l })).bump (Reg.STREAM_SEQ n) 1).showRingOf n
        | [] => s) s)

/-! ### Joining (R164) -/

/-- The outcome of one member's attempt to join ring `r` with a tag: 0 private, 1 reopen, 2 attach at an index. -/
def State.joinOutcome (s : State) (r n lane image segment addr : Nat) : Nat × Nat :=
  if (s.ringMembers r).isEmpty then (1, 0)
  else
    let ring := s.ring r
    match ring.tags.find? (fun t => decide (t.image = image) && decide (t.lane = lane) && decide (t.segment = segment) && decide (t.addr = addr)) with
    | none => (0, 0)
    | some t =>
      let k := (s.seqRec n).buffer.length
      if ring.first ≤ t.entry ∧ t.entry + k ≤ ring.first + ring.entries.length then (2, t.entry + k) else (0, 0)

/-- Member n joins ring r: opening it with its tag, or attaching at an index (R164). -/
def State.joinRing (s : State) (r n lane image segment addr : Nat) (out : Nat × Nat) : State :=
  let s1 := ((s.setFld (Reg.STREAM_MODE n) 1).setFld (Reg.STREAM_BG n) r).setFld (Reg.BG_MEMBERS r)
    (let m := s.fld (Reg.BG_MEMBERS r); if bitOf m n then m else m + 2 ^ n)
  let s2 :=
    if out.1 = 1 then
      let q := s1.seqRec n
      let tag : RingTag := { image := image, lane := lane, segment := segment, addr := addr, entry := 0 }
      let ring : Ring := { first := 0, entries := q.buffer, tags := [tag] }
      let s2 := { s1 with rings := SMap.put s1.rings r ring }
      s2.modSeq n (fun q => { q with ringNext := q.buffer.length })
    else s1.modSeq n (fun q => { q with ringNext := out.2 })
  (s2.bump (Reg.BG_JOINS r) 1).showRing r

/-- The group led by `b` attempts to join its broadcast groups: all of its members, or none (R164, R35). -/
def State.tryJoin (s : State) (b : Nat) (g : Program) (segment addr : Nat) : State :=
  if g.bgBase = 255 then s
  else
    let l := (s.members b).zipIdx
    let outs := l.map (fun x => s.joinOutcome (g.bgBase + x.2) x.1 x.2 g.image segment addr)
    if outs.all (fun o => decide (o.1 ≠ 0)) then
      ((l.zip outs).foldl (fun s x => s.joinRing (g.bgBase + x.1.2) x.1.1 x.1.2 g.image segment addr x.2) s).showExec b
    else l.foldl (fun s x => s.bump (Reg.BG_JOIN_MISSES (g.bgBase + x.2)) 1) s

/-- The pilot's reconvergence word is recorded as a tag at the entry of the first block after it (R164). -/
def State.recordTags (s : State) (b : Nat) (g : Program) (addr : Nat) : State :=
  ((s.members b).zipIdx).foldl
    (fun s x =>
      match s.ringOf x.1 with
      | none => s
      | some r =>
        if s.pilotOf r = x.1 then
          let ring := s.ring r
          let tag : RingTag :=
            { image := g.image, lane := x.2, segment := g.micro.segment, addr := addr, entry := (s.seqRec x.1).ringHead }
          let ring1 := { ring with tags := ring.tags ++ [tag] }
          { s with rings := SMap.put s.rings r ring1 }
        else s) s

/-! ### Arrival (R158 to R160, R163) -/

/-- A read block enters the buffer of a private sequencer n (R169). -/
def State.privateArrival (s : State) (n : Nat) (x : Block) : State :=
  let s1 := (s.modSeq n (fun q => { q with buffer := q.buffer ++ [x] })).bump (Reg.PRIV_BLOCKS n) 1
  let s2 := if x.spec then s1.bump (Reg.SPEC_BLOCKS n) 1 else s1
  (if x.status = 0x7F then s2.setFlag (Reg.STREAM_MALFORMED n) true else s2).showBuffer n

/-- A block read for pilot p enters ring r, and member n takes it (R163). -/
def State.ringArrival (s : State) (r p n : Nat) (x : Block) : State :=
  let s1 := s.writeRing r x
  let s2 := if x.spec then s1.bump (Reg.SPEC_BLOCKS p) 1 else s1
  (if x.status = 0x7F then s2.setFlag (Reg.STREAM_MALFORMED p) true else s2).takeRing r n

/-- The next block of sequencer n's path is read, where the look-ahead may read it (R157, R160, R169). -/
def State.fetchBlock (s : State) (b n : Nat) (g : Program) (put : State → Block → State) : State :=
  match (s.path b g 8)[(s.seqRec n).buffer.length]? with
  | none => s
  | some i =>
    if i.spec && !s.flag Reg.HB_CTRL_SPEC_EN then s
    else
      match s.readBlock g.header n (s.group b).size (n - b) i.segment i.ref i.consumer i.spec with
      | (.block x, s1) => put s1 x
      | (.wait, s1) => if g.blocked = 2 then s1.setFlag (Reg.STALL_CAUSE_PAGE_WAIT b) true else s1
      | (.drop, s1) => s1.bump (Reg.SPEC_DISCARDED n) 1

/-- A member whose path leads elsewhere than its ring leaves it with its group and reads its next block privately (R165). -/
def State.leaveAndFetch (s : State) (b n : Nat) (g : Program) (lag : Bool) : State :=
  (s.departGroup b lag).fetchBlock b n g (fun s x => s.privateArrival n x)

/-- The next entry of ring r is read at its pilot's request, where the pilot's path asks for one, and member n, level with it,
takes it. Where the pilot's look-ahead has stopped, or its path is another, n leaves: a member never waits for the ring. DESIGN
CHOICE: such a departure counts in BG_DEPARTURES. Log entry 38 (R163, R165). -/
def State.pilotFetch (s : State) (b n r : Nat) (g : Program) (i : PathItem) : State :=
  let p := s.pilotOf r
  let lead := s.leaderOf p
  match s.program lead with
  | none => s.leaveAndFetch b n g false
  | some h =>
    match (s.path lead h (s.seqRec p).buffer.length.succ)[(s.seqRec p).buffer.length]? with
    | some x =>
      if decide (x.segment = i.segment) && decide (x.ref = i.ref) && decide (x.consumer = i.consumer) then
        s.fetchBlock lead p h (fun s x => s.ringArrival r p n x)
      else s.leaveAndFetch b n g false
    | none => s.leaveAndFetch b n g false

/-- The next block of member n of ring r: the ring's next entry, where the path does not lead elsewhere; a released entry makes
the group leave for its lag (R162 to R165). -/
def State.ringBlock (s : State) (b n r : Nat) (g : Program) : State :=
  let ring := s.ring r
  let q := s.seqRec n
  match (s.path b g (q.buffer.length + 1))[q.buffer.length]? with
  | none => s
  | some i =>
    if q.ringNext < ring.first then s.leaveAndFetch b n g true
    else
      match ring.entries[q.ringNext - ring.first]? with
      | some x =>
        if i.spec || x.serves i then s.takeRing r n
        else if s.pilotOf r = n then (s.dropRingFrom r q.ringNext).fetchBlock b n g (fun s x => s.ringArrival r n n x)
        else s.leaveAndFetch b n g false
      | none =>
        if s.pilotOf r = n then s.fetchBlock b n g (fun s x => s.ringArrival r n n x)
        else s.pilotFetch b n r g i

/-- Entries of a stream buffer (R23, R156). -/
def streamDepth : Nat := 8

/-- STREAM_BLOCK_ARRIVAL: the next block that sequencer n needs and does not hold arrives, where its buffer has room (R156, R158,
R163 to R165). -/
def doStreamBlockArrival (n : Nat) (s : State) : State :=
  let b := s.leaderOf n
  let s1 := (s.applyDue b).alignStreams b
  match s1.program b with
  | none => s
  | some g =>
    if g.ended || decide (streamDepth ≤ (s1.seqRec n).buffer.length + g.taken.length) then s1
    else
      match s1.ringOf n with
      | none => if s1.fld (Reg.STREAM_MODE n) = 2 then s1.fetchBlock b n g (fun s x => s.privateArrival n x) else s1
      | some r => s1.ringBlock b n r g

end Sys2Proof.Machine
end

