-- ==== Sys2Proof/Machine/Slots.lean ====
section
/-! DEFINITION. Conditions, divergence slots, micro-traps and the trap frame (R101 to R105, R109, R131 to R145). -/

namespace Sys2Proof.Machine

open Sys2Proof

/-! ### Condition sources (R104, R105) -/

/-- Cell event line k is asserted: driven low by anyone (R104, R447). -/
def State.evAsserted (s : State) (k : Nat) : Bool :=
  let l := SMap.get {} s.ev.lines k
  l.pulse || l.shutdown || !l.trips.isEmpty || !l.markers.isEmpty || l.outside

/-- A bitmap of the positions for which a test holds. -/
def siteMap (f : Nat → Bool) : Nat := ofBits ((List.range 8).filter f)

/-- Readings of a position from the latest trigger (R104). -/
def Program.siteReadings (g : Program) (p : Nat) : List CondReading :=
  g.readings.filter (fun r => decide (r.position = p) && decide (some r.serial = g.lastTrigger.map Trigger.serial))

/-- A reading is flagged (R104). -/
def CondReading.flagged (r : CondReading) : Bool := decide (r.status ≠ 0) || decide (r.flags ≠ 0)

/-- The MEAS condition of code c for position p under the limits lo and hi (R104). -/
def Program.measCond (g : Program) (c : Nat) (lo hi : Int) (p : Nat) : Bool :=
  let l := g.siteReadings p
  match c with
  | 4 => !l.isEmpty && l.all (fun r => !r.flagged && within lo hi r.value)
  | 5 => l.any (fun r => !r.flagged && decide (hi < r.value))
  | 6 => l.any (fun r => !r.flagged && decide (r.value < lo))
  | _ => l.any CondReading.flagged

/-- Site number at a position of group b. -/
def State.siteNumber (s : State) (b p : Nat) : Nat := match s.sitePos b p with | some x => x.site | none => 0

/-- The selected source of a word as read at step 3: the positions for which it is true; counter sources are read at
step 6 (R97, R104). -/
def State.readCond (s : State) (b : Nat) (g : Program) (w : Nat) : Nat :=
  let m := g.micro
  let c := wCond w
  let k := (g.lastTrigger.map Trigger.limit).getD 0
  match c with
  | 0 => 255
  | 1 => m.fail
  | 2 => m.failLast
  | 3 => m.matchBits
  | 12 => siteMap (fun p => bitOf (m.siteRegs.getD p 0) (bitsOf w 16 6))
  | 13 => siteMap (fun p => decide (s.siteVerdict (wAux16 w) (s.siteNumber b p) = 4))
  | 14 => siteMap (fun p => decide (s.siteVerdict (wAux16 w) (s.siteNumber b p) = 5))
  | 15 => siteMap (fun p => match s.sitePos b p with
      | some x => x.dps.any (fun d => s.flag (Reg.DPS_STATUS_ILIMIT d))
      | none => false)
  | _ =>
    if 4 ≤ c ∧ c ≤ 7 then
      siteMap (g.measCond c (s.asfld (Reg.MEAS_LIM_LO b k)) (s.asfld (Reg.MEAS_LIM_HI b k)))
    else if 16 ≤ c ∧ c ≤ 19 then m.flags.getD (c - 16) 0
    else if 20 ≤ c ∧ c ≤ 27 then (if s.evAsserted (c - 20) then 255 else 0)
    else 0

/-- The source of a word is sequencer-wide: one value for all positions (R104). -/
def wWide (w : Nat) : Bool := decide (wCond w = 0) || (decide (8 ≤ wCond w) && decide (wCond w ≤ 11)) || decide (20 ≤ wCond w)

/-- ANY of a condition over the active sites; of a sequencer-wide source, its value (R101). -/
def anyHolds (w c active : Nat) : Bool := if wWide w then decide (c ≠ 0) else decide (andMask active c ≠ 0)

/-- ALL of a condition over the active sites; of a sequencer-wide source, its value (R101). -/
def allHold (w c active : Nat) : Bool := if wWide w then decide (c ≠ 0) else decide (minusMask active c = 0)

/-- The source of a word is complete for every active site (R105, R287). -/
def State.condReady (s : State) (b : Nat) (g : Program) (w : Nat) : Bool :=
  let c := wCond w
  if 1 ≤ c ∧ c ≤ 3 then g.outstanding.isEmpty
  else if 4 ≤ c ∧ c ≤ 7 then g.pendingReadings.isEmpty && g.triggers.isEmpty && g.carried.isEmpty
  else if c = 13 ∨ c = 14 then
    (s.popFind (wAux16 w)).isNone ||
    (!(g.pendingReadings.any (fun r => r.2)) && !((g.triggers ++ g.carried).any Trigger.toPop) && s.popDrained b &&
      (setBits (s.activeSites b g) 8).all (fun p => s.verdictResolved (wAux16 w) (s.siteNumber b p)))
  else true

/-- The final condition C of step 6, from the value read at step 3 and the counters after step 5 (R97). -/
def finalCond (m : Micro) (w src : Nat) : Nat :=
  let c := wCond w
  let v := if 8 ≤ c ∧ c ≤ 11 then (if m.counter (c - 8) = 0 then 255 else 0) else src
  if wInvert w then minusMask 255 v else v

/-! ### Steps 5 to 7 (R97, R107 to R110) -/

/-- The site registers of a group's leader show the program's (R36). -/
def State.showSiteRegs (s : State) (b : Nat) (l : List Nat) : State :=
  l.zipIdx.foldl (fun s x => s.setFld (Reg.SITE_REG b x.2) x.1) s

/-- Step 5: counters and the site registers of the active sites (R107, R108). -/
def Micro.step5 (m : Micro) (w active : Nat) : Micro :=
  let lc := m.counter (wCounter w)
  { m.stepCounters w with
    siteRegs := m.siteRegs.mapIdx (fun i x => if bitOf active i then siteRegAfter (wCounterOp w) (wImm w) lc x else x) }

/-- The mask bits after the site-mask operation (R109, R133): `opened` the enabled, open sites, `running` the running
slot's, `several` the slot table holds more than one slot in use. -/
def Micro.maskAfter (m : Micro) (w c active opened running : Nat) (several : Bool) : Nat :=
  let reach := minusMask (if several then andMask running opened else opened) m.retired
  match wMaskOp w with
  | 1 => minusMask m.mask (andMask active c)
  | 2 => minusMask m.mask (minusMask active c)
  | 3 => orMask m.mask reach
  | 4 => orMask (minusMask m.mask reach) (andMask reach (bitsOf w 22 8))
  | _ => m.mask

/-- User flag k after the flag operation (R110). -/
def flagAfter (w c active x : Nat) : Nat :=
  match wFlagOp w with
  | 1 => orMask x active
  | 2 => minusMask x active
  | 3 => orMask (minusMask x active) (andMask active c)
  | _ => x

/-- Step 7: masks and flags (R109, R110). -/
def Micro.step7 (m : Micro) (w c active opened : Nat) (several : Bool) : Micro :=
  { m with
    mask := m.maskAfter w c active opened m.runningSites several
    flags := m.flags.mapIdx (fun i x => if i = wFlag w then flagAfter w c active x else x) }

/-! ### The program's path (R101, R131 to R133) -/

/-- The micro-state of the program of group b changed by `f`. -/
def State.modMicro (s : State) (b : Nat) (f : Micro → Micro) : State :=
  s.modProgram b (fun g => { g with micro := f g.micro })

/-- The lowest site number among the open sites of a bitmap; 512 where there is none (R132). -/
def State.lowestSite (s : State) (b positions : Nat) : Nat :=
  ((setBits (andMask positions (s.openMask b)) 8).map (s.siteNumber b)).foldl min 512

/-- The position of the lowest-numbered site of a bitmap. -/
def State.lowestPosition (s : State) (b positions : Nat) : Option Nat :=
  (setBits positions 8).find? (fun p => decide (s.siteNumber b p = s.lowestSite b positions))

/-- The slot of a state (1 ready, 3 waiting) that holds the lowest site number (R132). -/
def State.nextSlot (s : State) (b : Nat) (m : Micro) (state : Nat) : Option Nat :=
  let l := (List.range 8).filter (fun i => decide ((m.slot i).state = state))
  let low := (l.map (fun i => s.lowestSite b (m.slot i).sites)).foldl min 513
  l.find? (fun i => decide (s.lowestSite b (m.slot i).sites = low))

/-- Slot i runs (R132): a waiting slot's reconvergence word executes. What blocked the slot before it is no cause of its
own; the entries its members hold for the other slot's path are dropped and counted (R137, R157). -/
def State.runSlot (s : State) (b i : Nat) : State :=
  match s.program b with
  | none => s
  | some g =>
    let x := g.micro.slot i
    let s1 := s.setProgram b
      { g with micro := { g.micro.setSlot i { x with state := 2 } with runningSlot := i, pc := x.addr }
               released := decide (x.state = 3)
               blocked := if g.calHeld then g.blocked else 0
               stall := if g.calHeld then g.stall else 0 }
    let s2 := if i = g.micro.runningSlot then s1
      else ((s.members b).foldl (fun s n => if (s.ringOf n).isNone then s.keepEntries n 0 else s) s1).bump (Reg.SLOT_SWITCHES b) 1
    (s2.alignStreams b).showExec b

/-- The group schedules its next slot; with none in use, `last` follows (R132). -/
def State.scheduleOr (s : State) (b : Nat) (last : State → State) : State :=
  match s.program b with
  | none => s
  | some g =>
    match s.nextSlot b g.micro 1 with
    | some i => s.runSlot b i
    | none =>
      match s.nextSlot b g.micro 3 with
      | some i => s.runSlot b i
      | none => last s

/-- The running slot becomes free. -/
def State.freeRunning (s : State) (b : Nat) : State := s.modMicro b (fun m => m.setSlot m.runningSlot {})

/-- END outside trap mode: the running slot's sites complete and the slot is free (R101, R133). -/
def State.endSlot (s : State) (b : Nat) : State :=
  match s.program b with
  | none => s
  | some g =>
    ((s.setProgram b { g with done := orMask g.done g.micro.runningSites }).freeRunning b).scheduleOr b (fun s => s.endIssue b)

/-- Stream position of a micro-state at every member (R145, R169). -/
def State.showStreamSeq (s : State) (b v : Nat) : State :=
  (s.members b).foldl (fun s n => s.setFld (Reg.STREAM_SEQ n) v) s

/-- Slots without their closed sites; a slot with no open site is free (R134). -/
def dropClosed (l : List Slot) (opened : Nat) : List Slot :=
  l.map (fun x => if andMask x.sites opened = 0 then {} else { x with sites := andMask x.sites opened })

/-- The running slot has come to `addr`, a reconvergence word or the address a SLOT_END leaves it at; `last` follows
where no slot is left (R132, R133). -/
def State.reconvergeOr (s : State) (b addr : Nat) (last : State → State) : State :=
  match s.program b with
  | none => s
  | some g =>
    let m := g.micro
    let r := m.runningSlot
    let x := m.slot r
    if m.inUse ≤ 1 then ((s.setProgram b { g with micro := { m with pc := addr }, released := true }).alignStreams b).showExec b
    else
      match (List.range 8).find? (fun i => decide (i ≠ r) && decide ((m.slot i).state = 3) && decide ((m.slot i).addr = addr)) with
      | some i =>
        let y := m.slot i
        let m1 := (m.setSlot i { y with sites := orMask y.sites x.sites }).setSlot r {}
        (s.setProgram b { g with micro := m1 }).scheduleOr b last
      | none => (s.setProgram b { g with micro := m.setSlot r { x with addr := addr, state := 3 } }).scheduleOr b last

/-- The running slot's sites clear their mask bits for the rest of the program and are marked retired (R133). -/
def State.retireSites (s : State) (b : Nat) : State :=
  s.modMicro b (fun m => { m with mask := minusMask m.mask m.runningSites, retired := orMask m.retired m.runningSites })

/-- SLOT_RETIRE (R133). -/
def State.retireOr (s : State) (b : Nat) (last : State → State) : State :=
  ((s.retireSites b).freeRunning b).scheduleOr b last

/-- Trap mode ends: the interrupted path resumes at RESUME_PC with the progress recorded in the frame (R143). -/
def State.endTrap (s : State) (b : Nat) : State :=
  match s.program b with
  | none => s
  | some g =>
    match g.trap with
    | none => s
    | some t =>
      let m := g.micro
      let v := t.saved
      let m1 := { m with
        pc := v.pc, repeatLeft := v.repeatLeft, lc := v.lc, stack := v.stack, segment := v.segment
        slots := dropClosed v.slots (s.openMask b), runningSlot := v.runningSlot
        streamBlock := v.streamBlock, streamVector := v.streamVector, streamSeq := v.streamSeq }
      let s0 := (s.setProgram b { g with micro := m1, trap := none, released := false }).showStreamSeq b v.streamSeq
      let s1 := (if 1 < m1.inUse then s0.departGroup b false else s0).alignStreams b
      let last := fun (s : State) => s.endIssue b
      if (m1.slot m1.runningSlot).state = 0 then s1.scheduleOr b last
      else
        match t.after with
        | 1 => s1.reconvergeOr b m1.pc last
        | 2 => s1.retireOr b last
        | 3 => s1.endSlot b
        | _ => s1.showExec b

/-- What follows where no slot is left: the program ends, or trap mode does (R132, R143). -/
def State.noSlotLeft (s : State) (b : Nat) : State :=
  match s.program b with
  | none => s
  | some g => if g.trap.isSome then s.endTrap b else s.endIssue b

/-- The next-address operation END (R101, R133, R143). -/
def State.endPath (s : State) (b : Nat) : State :=
  match s.program b with
  | none => s
  | some g => if g.trap.isSome then s.endTrap b else s.endSlot b

/-- BRANCH_SITE (R132): the running slot's next address, after a split where its active sites disagree. DESIGN CHOICE: with
no active site, a slot goes to the target where a sequencer-wide condition holds (R101), and to pc + 1 under a per-site one,
whose direction the spec leaves open. Log entry 38. -/
def State.branchSite (s : State) (b : Nat) (g : Program) (w c active : Nat) : Nat × State :=
  let m := g.micro
  let t := wTarget w
  let taken := andMask active c
  let other := minusMask active c
  let first := match s.lowestPosition b active with | some p => bitOf taken p | none => wWide w && decide (c ≠ 0)
  let dest := fun (y : Bool) => if y then t else m.pc + 1
  if g.header.pv then (dest (anyHolds w c active), s)
  else if wSlotOp w = 3 ∨ taken = 0 ∨ other = 0 then (dest first, s)
  else
    let r := m.runningSlot
    let leave := if first then other else taken
    let x := m.slot r
    let n := ((List.range 8).find? (fun i => decide ((m.slot i).state = 0))).getD 7
    let m1 := (m.setSlot r { x with sites := minusMask x.sites leave }).setSlot n { sites := leave, addr := dest (!first), state := 1 }
    (dest first, ((s.setProgram b { g with micro := m1 }).bump (Reg.SPLITS b) 1).departGroup b false)

/-! ### The trap frame (R145) -/

/-- A slot as a frame holds it. -/
def Slot.frameWord (x : Slot) : Nat := x.sites + 2 ^ 8 * x.addr + 2 ^ 32 * x.state

/-- Bytes 16 to 271 of a frame, CELL_TIME given (R138, R145). -/
def Micro.frameBytes (m : Micro) (replays cellTime info enabled closed trapSites : Nat) : List Byte :=
  leBytes m.pc 4 ++ leBytes m.wordPc 4 ++ leBytes m.repeatLeft 4 ++ leBytes m.segment 2 ++ leBytes replays 2 ++
  leBytes m.lastSafe 4 ++ leBytes 0 4 ++ leBytes cellTime 8 ++ m.lc.flatMap (fun x => leBytes x 4) ++
  ((List.range 8).flatMap (fun i => leBytes (m.stack.getD i 0) 4)) ++ leBytes m.stack.length 1 ++ leBytes 0 7 ++
  leBytes info 8 ++ leBytes m.mask 1 ++ leBytes enabled 1 ++ leBytes closed 1 ++ leBytes m.fail 1 ++
  leBytes m.failLast 1 ++ leBytes m.matchBits 1 ++ leBytes m.retired 1 ++ leBytes trapSites 1 ++
  m.flags.flatMap (fun x => leBytes x 1) ++ leBytes m.runningSlot 1 ++ leBytes 0 3 ++
  ((List.range 8).flatMap (fun i => leBytes (m.slot i).frameWord 8)) ++ m.siteRegs.flatMap (fun x => leBytes x 8) ++
  leBytes m.streamBlock 4 ++ leBytes m.streamVector 2 ++ leBytes 0 2 ++ leBytes m.streamSeq 8

/-- The 512 bytes of a frame of a kind (R145). -/
def State.frame (s : State) (b : Nat) (g : Program) (m : Micro) (kind cause info trapSites : Nat) : List Byte :=
  leBytes 0x454D5246 4 ++ leBytes kind 1 ++ leBytes cause 1 ++ leBytes (if kind = 1 then 0x30 else 0) 1 ++
  leBytes (s.group b).size 1 ++ leBytes g.image 8 ++
  m.frameBytes g.replays s.now info (s.enabledMask b) (s.closedMask b) trapSites ++ leBytes 0 240

/-! ### Micro-traps (R141 to R143) -/

/-- The path of the group led by `b` is not the one that a ring of its members follows: the ring's next entry is another
block, or has been released, or a member that is no pilot finds none (R165). -/
def State.offRing (s : State) (b : Nat) : Bool :=
  match s.program b with
  | none => false
  | some g =>
    let item := (s.path b g 1).head?
    (s.members b).any (fun n =>
      match s.ringOf n with
      | none => false
      | some r =>
        let ring := s.ring r
        let k := (s.seqRec n).ringHead
        if k < ring.first then true
        else
          match ring.entries[k - ring.first]? with
          | some x => item.all (fun i => !x.serves i)
          | none => decide (s.pilotOf r ≠ n))

/-- A micro-trap of a cause: its frame is on its way, and the trap routine runs over the sites of slot `x`, the one that was
running when it was raised with the sites `active`; in trap mode it is a double trap (R141 to R143, R145). `m` is the
interrupted micro-state with its pc at RESUME_PC. -/
def State.enterTrap (s : State) (b cause : Nat) (m : Micro) (x : Slot) (active info : Nat) (req : Option Cmd) (after : Nat) :
    State :=
  match s.program b with
  | none => s
  | some g =>
    let s1 := (s.bump (Reg.TRAPS b) 1).setProgram b { g with traps := min (g.traps + 1) (2 ^ 32 - 1) }
    if g.trap.isSome then
      (match req with | some c => s1.complete c 0 0 | none => s1).stopAllSites b 0x50
    else
      let m1 := { m with
        pc := g.header.trapHandler, repeatLeft := 0
        slots := m.slots.mapIdx (fun i _ => if i = m.runningSlot then x else {}) }
      let g1 := { g with
        traps := min (g.traps + 1) (2 ^ 32 - 1), micro := m1, released := false, wait := 0, blocked := 0, stall := 0
        seqDone := 0, dueTrap := none
        trap := some { saved := m, cause := cause, sites := active, after := after }
        hostTraps := if cause = 6 then g.hostTraps ++ [(m.wordPc, info)] else g.hostTraps
        frameWrites := g.frameWrites ++ [{ frame := s.frame b g m 0 cause info active, request := req }] }
      let s2 := s1.setProgram b g1
      ((if s2.offRing b then s2.departGroup b false else s2).alignStreams b).showExec b

/-- A micro-trap at the word being issued, resuming at `resume`. -/
def State.trapAt (s : State) (b cause resume info after : Nat) : State :=
  match s.program b with
  | none => s
  | some g =>
    s.enterTrap b cause { g.micro with wordPc := g.micro.pc, pc := resume } (g.micro.slot g.micro.runningSlot) (s.activeSites b g) info
      none after

/-- A host-request trap at the word the group has come to, with the TRAP_REQUEST that it completes, if it is not raised
again (R141, R146). -/
def State.hostTrapNow (s : State) (b info : Nat) (req : Option Cmd) : State :=
  match s.program b with
  | none => s
  | some g =>
    s.enterTrap b 6 { g.micro with wordPc := g.micro.pc } (g.micro.slot g.micro.runningSlot) (s.activeSites b g) info req 0

/-! ### Steps 8 and 9 (R97, R101, R114, R126) -/

/-- The running path goes on at `pc`, then the word's divergence-slot operation acts (R133). -/
def State.goTo (s : State) (b w pc : Nat) : State :=
  let s1 := s.modProgram b (fun g => { g with micro := { g.micro with pc := pc }, wait := 0, released := false })
  match wSlotOp w with
  | 1 => s1.reconvergeOr b pc (fun s => s.noSlotLeft b)
  | 2 => s1.retireOr b (fun s => s.noSlotLeft b)
  | _ => (s1.alignStreams b).showExec b

/-- The word's path goes on at `pc`; a condition trap, raised with C as `due` while slot `x` ran with the sites `active`, is
taken there (R114, R141). -/
def State.leaveWord (s : State) (b w pc : Nat) (x : Slot) (active : Nat) (due : Option Nat) : State :=
  match due with
  | none => s.goTo b w pc
  | some c =>
    match s.program b with
    | none => s
    | some g =>
      (s.setProgram b { g with wait := 0, released := false }).enterTrap b 1 { g.micro with wordPc := g.micro.pc, pc := pc } x active c
        none (wSlotOp w % 3)

/-- The waiting word's path goes on at `pc` (R101, R102). -/
def State.leaveWait (s : State) (b w pc : Nat) : State :=
  match s.program b with
  | none => s
  | some g =>
    (s.setProgram b { g with wait := 0, dueTrap := none }).leaveWord b w pc (g.micro.slot g.micro.runningSlot) (s.activeSites b g) g.dueTrap

/-- Steps 8 and 9 of a word, after steps 5 to 7 gave the micro-state held and the condition C; `vectors` and
`serial` are the counts before the word. DESIGN CHOICE: a word that raises a condition trap in step 8 and whose next-address
operation would raise a second trap (TRAP, an overflow, an underflow) raises the condition trap alone, resuming at pc + 1; END,
which selects no address, resumes such a trap at the word's own pc, and acts once trap mode has ended. Log entry 38. -/
def State.steps8and9 (s : State) (b w c vectors serial : Nat) : State :=
  match s.program b with
  | none => s
  | some g =>
    let m := g.micro
    let active := s.activeSites b g
    let any := anyHolds w c active
    let all := allHold w c active
    let x := m.slot m.runningSlot
    let due := if wTrap w && any then some (andMask active c) else none
    let t := wTarget w
    match wNext w with
    | 1 => s.leaveWord b w t x active due
    | 2 => s.leaveWord b w (if any then t else m.pc + 1) x active due
    | 3 => s.leaveWord b w (if all then t else m.pc + 1) x active due
    | 4 =>
      let r := s.branchSite b g w c active
      r.2.leaveWord b w r.1 x active due
    | 5 => s.leaveWord b w (t + m.counter (wCounter w) % 256) x active due
    | 6 =>
      if all then s.leaveWord b w (m.pc + 1) x active due
      else ((s.setProgram b { g with wait := 2, dueTrap := due }).applyHold b g (s.openMask b)).showExec b
    | 7 => (s.setProgram b { g with wait := 3, dueTrap := due, syncVector := vectors, syncSerial := serial }).showExec b
    | 8 => match due with
      | some k => s.leaveWord b w (m.pc + 1) x active (some k)
      | none => (s.modProgram b (fun g => { g with released := false })).trapAt b 2 (m.pc + 1) 0 (wSlotOp w % 3)
    | 9 => match due with
      | some k => (s.modProgram b (fun g => { g with released := false })).trapAt b 1 m.pc k 3
      | none =>
        let s1 := s.modProgram b (fun g => { g with released := false })
        (if wSlotOp w = 2 then s1.retireSites b else s1).endPath b
    | 16 =>
      if 8 ≤ m.stack.length then
        (match due with
        | some k => s.leaveWord b w (m.pc + 1) x active (some k)
        | none => (s.modProgram b (fun g => { g with released := false })).trapAt b 4 (m.pc + 1) 0 (wSlotOp w % 3))
      else (s.setProgram b { g with micro := { m with stack := (m.pc + 1) :: m.stack } }).leaveWord b w t x active due
    | 17 =>
      match m.stack with
      | [] =>
        (match due with
        | some k => s.leaveWord b w (m.pc + 1) x active (some k)
        | none => (s.modProgram b (fun g => { g with released := false })).trapAt b 5 (m.pc + 1) 0 (wSlotOp w % 3))
      | a :: l => (s.setProgram b { g with micro := { m with stack := l } }).leaveWord b w a x active due
    | _ => s.leaveWord b w (m.pc + 1) x active due

/-- The word has ended, unless it waits: the mask bits of sites that failed meanwhile clear in compatibility mode (R126). -/
def State.endWord (s : State) (b : Nat) : State :=
  s.modProgram b (fun g =>
    if g.wait = 0 then { g with failDrop := 0, micro := { g.micro with mask := minusMask g.micro.mask g.failDrop } } else g)

/-- Steps 5 to 9 of the word `w` of the group led by `b`, whose source read `src` at step 3 (R97). -/
def State.steps5to9 (s : State) (b w src vectors serial : Nat) : State :=
  match s.program b with
  | none => s
  | some g =>
    let active := s.activeSites b g
    let m5 := g.micro.step5 w active
    let m5' := if wClass w = 5 then { m5 with segment := wAux16 w } else m5
    let c := finalCond m5 w src
    let several := decide (1 < m5.inUse) || g.trap.any (fun t => decide (1 < t.saved.inUse))
    let s1 := (s.setProgram b { g with micro := m5'.step7 w c active (s.openMask b) several }).showSiteRegs b m5.siteRegs
    let s2 := if wEvent w = 0 then s1 else s1.raise (27 + wEvent w) b g.micro.pc
    (s2.steps8and9 b w c vectors serial).endWord b

end Sys2Proof.Machine
end

