-- ==== Sys2Proof/Machine/Causes.lean ====
section
/-! DEFINITION. Causes of a Deckle closure as they are asserted, and as they live on (R41, R46). -/

namespace Sys2Proof.Machine

open Sys2Proof

/-- Key of position p of the group led by b in the table of causes. -/
def causeKey (b p : Nat) : Nat := 8 * b + p

/-- Cause k is asserted for position p of the group led by b (R41, R43, R46): an enabled, open site closes on it, its time
zero that of the first cause; a closed one sets its CAUSE bit; a position not enabled is not touched. -/
def State.assertCause (s : State) (b p k : Nat) : State :=
  if !bitOf (s.enabledMask b) p then s
  else if bitOf (s.closedMask b) p then s.setFld (Reg.SITE_ENTRY_CAUSE b p) (orMask (s.fld (Reg.SITE_ENTRY_CAUSE b p)) (2 ^ k))
  else
    let x := SMap.get (0, s.now) s.causes (causeKey b p)
    { s with causes := SMap.put s.causes (causeKey b p) (orMask x.1 (2 ^ k), x.2) }

/-- A cause that a site's own units hold asserted: 0 a DPS trip or failed check, 1 a clamp trip or failed check, 5 the
alive-counter loss where the site is armed for it (R41, R59, R60, R264, R265, R400). -/
def State.causeLive (s : State) (x : SitePos) (k : Nat) : Bool :=
  match k with
  | 0 => x.dps.any (fun n => s.flag (Reg.DPS_STATUS_TRIP_LIVE n) || s.flag (Reg.DPS_STATUS_SC_FAIL n))
  | 1 => x.pins.any (fun p => s.flag (Reg.PIN_STATUS_CLAMP_LIVE p) || s.flag (Reg.PIN_STATUS_SC_FAIL p))
  | 5 => x.aliveEn && s.flag Reg.CP_STATUS_LOST
  | _ => false

/-- Those of causes 0, 1 and 5 that are still asserted for a site (R39). -/
def State.liveCauses (s : State) (x : SitePos) : List Nat := [0, 1, 5].filter (fun k => s.causeLive x k)

end Sys2Proof.Machine
end

