-- ==== Sys2Proof/Machine/ControlStore.lean ====
section
/-! DEFINITION. The control store: frames, fills, parity errors and poisoned blocks (R120 to R125). -/

namespace Sys2Proof.Machine

open Sys2Proof

/-- CS_STATUS of sequencer n follows its frames (R127). -/
def State.showFrames (s : State) (n : Nat) : State :=
  let q := s.seqRec n
  ((s.setFld (Reg.CS_STATUS_FRAMES_VALID n) q.frames.length).setFld (Reg.CS_STATUS_FRAMES_PINNED n)
    (q.frames.filter (fun f => f.2.pinned)).length).setFld (Reg.CS_STATUS_FRAMES_RETIRED n) q.retired.length

/-- Frame i of sequencer n holds no page; a speculative fill of it that never executed is counted (R123, R127). -/
def State.dropFrame (s : State) (n i : Nat) : State :=
  match SMap.find (s.seqRec n).frames i with
  | none => s
  | some f =>
    let s1 := s.modSeq n (fun q => { q with frames := SMap.del q.frames i })
    (if f.spec && !f.executed then s1.bump (Reg.SPEC_UNUSED n) 1 else s1).showFrames n

/-- Every member of the group led by b drops frame i (R120). -/
def State.dropFrames (s : State) (b i : Nat) : State := (s.members b).foldl (fun s n => s.dropFrame n i) s

/-- Every frame of sequencer n is invalidated (R121). -/
def State.invalidateFrames (s : State) (n : Nat) : State :=
  (((s.seqRec n).frames.map Prod.fst).foldl (fun s i => s.dropFrame n i) s).showFrames n

/-- Frame i of every member holds `f` (R120). -/
def State.putFrame (s : State) (b i : Nat) (f : Frame) : State :=
  (s.members b).foldl (fun s n =>
    (s.modSeq n (fun q => { q with frames := SMap.put q.frames i { f with used := q.useClock + 1 }, useClock := q.useClock + 1 })).showFrames n) s

/-- A word of frame i executes: the frame is the latest used (R122, R123). -/
def State.useFrame (s : State) (b i : Nat) : State :=
  (s.members b).foldl (fun s n =>
    s.modSeq n (fun q =>
      match SMap.find q.frames i with
      | some f => { q with frames := SMap.put q.frames i { f with used := q.useClock + 1, executed := true }, useClock := q.useClock + 1 }
      | none => q)) s

/-- A counter of every member of the group advances: each control store is filled (R120, R127). -/
def State.bumpMembers (s : State) (b : Nat) (f : Nat → Fld) : State := (s.members b).foldl (fun s n => s.bump (f n) 1) s

/-- A frame of the group led by `b` that no page holds and that no member has retired (R120, R125). -/
def State.freeFrame (s : State) (b : Nat) : Option Nat :=
  (List.range 64).find? (fun i => (s.members b).all (fun n =>
    (SMap.find (s.seqRec n).frames i).isNone && !(s.seqRec n).retired.contains i))

/-- The least recently used frame that passes the test. -/
def Seq.oldestFrame (q : Seq) (f : Nat × Frame → Bool) : Option Nat :=
  let l := q.frames.filter f
  let low := (l.map (fun x => x.2.used)).foldl min (q.useClock + 1)
  (l.find? (fun x => decide (x.2.used = low))).map Prod.fst

/-- The frame a demand fill of the group led by `b` takes: a free one, else the least recently used that is not pinned and
does not hold the word now executing (R122). -/
def State.demandFrame (s : State) (b : Nat) (current : Option Nat) : Option Nat :=
  (s.freeFrame b).orElse (fun _ => (s.seqRec b).oldestFrame (fun x => !x.2.pinned && decide (some x.2.page ≠ current)))

/-- The frame a speculative fill takes: a free one, else one filled speculatively and never executed (R123). -/
def State.specFrame (s : State) (b : Nat) : Option Nat :=
  (s.freeFrame b).orElse (fun _ => (s.seqRec b).oldestFrame (fun x => x.2.spec && !x.2.executed && !x.2.pinned))

/-- What the read of a page brings: its words and its poisoned blocks, a fault, a page wait, or nothing. -/
inductive PageGot where
  | page (words poisoned : List Nat)
  | fault (kind : Nat)
  | wait
  | drop
  deriving DecidableEq, Repr

/-- The 64-byte blocks of a page from block `i`, two words each (R95, R120, R124). -/
def readBlocks (x : MemCtx) (va : Nat) : Nat → Nat → State → PageGot × State
  | 0, _, s => (.page [] [], s)
  | fuel + 1, i, s =>
    match s.memRead x (va + 64 * i) 64 with
    | (.ok d p, s1) =>
      if x.spec && p.isSome then (.drop, s1)
      else
        match readBlocks x va fuel (i + 1) s1 with
        | (.page ws l, s2) => (.page (leNat (d.take 32) :: leNat (d.drop 32) :: ws) (if p.isSome then i :: l else l), s2)
        | r => r
    | (.fault k, s1) => (.fault k, s1)
    | (.wait, s1) => (.wait, s1)
    | (.drop, s1) => (.drop, s1)

/-- Page `pg` of the image of a program is read for the group led by b (R119, R120). -/
def State.readPage (s : State) (b : Nat) (image codeOffset pg : Nat) (spec : Bool) : PageGot × State :=
  readBlocks { engine := 0, unit := b, spec := spec } (image + codeOffset + 8192 * pg) 128 0 s

/-- Sequencer n records a machine check: CS_ERR keeps the first after VALID is cleared (R127). -/
def State.recordCsErr (s : State) (b pc frame failed : Nat) : State :=
  let s1 := s.setFlag (Reg.CS_STATUS_MCHK b) true
  if s1.flag (Reg.CS_ERR_VALID b) then s1
  else
    (((s1.setFld (Reg.CS_ERR_ADDRESS b) pc).setFld (Reg.CS_ERR_FRAME b) frame).setFld (Reg.CS_ERR_FAILED b) failed).setFlag
      (Reg.CS_ERR_VALID b) true

/-- Frame i of sequencer n has shown a parity error: invalidated, and retired at the second fill that shows one
(R125). -/
def State.parityFrame (s : State) (n i : Nat) : State :=
  let k := SMap.get 0 (s.seqRec n).parityHits i + 1
  ((s.modSeq n (fun q =>
    { q with parityHits := SMap.put q.parityHits i k, retired := if 2 ≤ k then addOnce i q.retired else q.retired })).dropFrame
    n i).showFrames n

/-- A parity mismatch at word `pc` in frame i: a machine check (R125). -/
def State.machineCheck (s : State) (b pc i failed : Nat) : State :=
  ((s.members b).foldl (fun s n => (s.recordCsErr n pc i failed).parityFrame n i) (s.raise 2 b pc)).stopAllSites b 0x50

/-- Pages of an image that hold its words (R121). -/
def Header.pages (h : Header) : Nat := (h.wordCount + 255) / 256

/-- The pages that the prefetcher fills ahead: the next one from offset 0xC0 on, and those named by the branch targets
of the next 16 words in the current page (R123). -/
def State.prefetchPages (s : State) (b : Nat) (g : Program) : List Nat :=
  let pc := g.micro.pc
  let pg := pc / 256
  let next := if 0xC0 ≤ pc % 256 then [pg + 1] else []
  let targets := (List.range 16).filterMap (fun i =>
    if (pc + i) / 256 = pg then
      match s.fetchWord b (pc + i) with
      | some (_, _, w) => if [1, 2, 3, 4, 5, 6, 16].contains (wNext w) then some (wTarget w / 256) else none
      | none => none
    else none)
  (next ++ targets).filter (fun p => decide (p < g.header.pages))

/-- CS_SPEC_FILL: page `pg` is filled ahead of need for the group led by b. DESIGN CHOICE: PREFETCH_EN of the leader governs
the fills of its group; the spec gives one to every sequencer and does not say which a group obeys. Log entry 38 (R123). -/
def doCsSpecFill (b pg : Nat) (s : State) : State :=
  match s.program b with
  | none => s
  | some g =>
    if !g.begun || g.ended || !s.flag (Reg.CS_CTRL_PREFETCH_EN b) || !(s.prefetchPages b g).contains pg ||
        (findFrame (s.seqRec b).frames pg).isSome then s
    else
      match s.specFrame b with
      | none => s
      | some i =>
        match s.readPage b g.image g.header.codeOffset pg true with
        | (.page ws _, s1) =>
          ((s1.dropFrames b i).putFrame b i { page := pg, words := ws, spec := true }).bumpMembers b Reg.SPEC_FILLS
        | (_, s1) => s1

end Sys2Proof.Machine
end

