-- ==== Sys2Proof/Machine/Issue.lean ====
section
/-! DEFINITION. Issuing a word: blocked words, vectors at the pins, the words whose results are outstanding (R97, R98,
R111 to R113, R136 to R140, R153, R156). -/

namespace Sys2Proof.Machine

open Sys2Proof

/-! ### The vector queue and the time of its vectors (R23, R83, R99, R156) -/

/-- Entries of the vector queue (R23). -/
def vectorQueueDepth : Nat := 256

/-- The period of a set in the group led by `b`, in units of 1 ÷ FREQ ps; the clusters of a group agree on it (R80, R83). -/
def State.groupPeriod (s : State) (b set : Nat) : Nat := s.periodUnits (b / 2) set

/-- The vector queue of the group led by `b` has run empty: all its vectors have been applied (R99, R137). -/
def State.queueEmptied (s : State) (b : Nat) : State :=
  match s.program b with
  | some g => s.appliedTo b g.clock
  | none => s

/-- The vector queue is full: a vector-issuing word waits for room in it (R23). -/
def Program.queueFull (g : Program) : Bool := decide (vectorQueueDepth ≤ g.queue.length)

/-- The first vector of a program that no scheduled start began starts at the ball at a free cell time from now on, less than
65,536 ps ahead: the spec gives the start path no fixed length. Log entry 38 (R83, R91). -/
def State.startClock (s : State) (b : Nat) : State :=
  match s.program b with
  | none => s
  | some g =>
    if g.zero.isSome then s
    else
      let r := s.draw 16
      r.2.setProgram b { g with zero := some (s.now + r.1) }

/-- `n` whole hold periods, each one period of the last vector's set, come before the next vector; before the first vector of
the program there is no time zero yet, so none counts (R83, R99). -/
def State.holdPeriods (s : State) (b n : Nat) : State :=
  match s.program b with
  | none => s
  | some g =>
    if n = 0 then s
    else
      ((s.applyHold b g (s.openMask b)).modProgram b (fun g =>
        if g.vectorsIssued = 0 then g else { g with clock := g.clock + n * s.groupPeriod b g.set })).queueEmptied b

/-- Hold periods before a word: those a row states, and at least one where the group has stalled with its queue empty. -/
def Program.holdsBefore (g : Program) (holds : Nat) : Nat := if g.stall = 0 then holds else max holds 1

/-- `n` vectors of timing set `set` enter the queue as an entry of their own, or, in a VEC_SEQ's later block position, with the
entry of the word (R23, R83, R99). -/
def Program.queueVectors (g : Program) (set n period : Nat) (later : Bool) : Program :=
  let e := g.clock + n * period
  { g with
    vectorsIssued := g.vectorsIssued + n, clock := e, set := if n = 0 then g.set else set
    queue := (if later && decide (g.queue.getLast? = some g.clock) then g.queue.dropLast else g.queue) ++ [e] }

/-! ### Blocked words (R136) -/

/-- A VEC_HOLD still applying at the ball is cut at the next repetition boundary, at a point no command tells: the cut
repetitions are a free value below its count (R140). -/
def State.cutHold (s : State) (b : Nat) : State :=
  match s.program b with
  | none => s
  | some g =>
    if g.lastHold = 0 ∨ g.stall ≠ 0 then s
    else
      let r := s.draw 16
      let cut := r.1 % g.lastHold
      let e := g.clock - cut * s.groupPeriod b g.set
      r.2.setProgram b
        { g with
          lastHold := 0, micro := { g.micro with repeatLeft := cut }, vectorsIssued := g.vectorsIssued - cut
          clock := e, queue := g.queue.map (min e) }

/-- The repetitions of a VEC_HOLD that were cut are issued before anything else. DESIGN CHOICE: in the timing set of the last
vector, and in set 0 in a resumed program, whose frame names no set. Log entry 38 (R140). -/
def State.issueCut (s : State) (b : Nat) : State :=
  match s.program b with
  | none => s
  | some g =>
    if g.micro.repeatLeft = 0 then s
    else
      (s.applyHoldVector b g (s.openMask b)).modProgram b (fun g =>
        { g.queueVectors g.set g.micro.repeatLeft (s.groupPeriod b g.set) false with
          lastHold := g.micro.repeatLeft, micro := { g.micro with repeatLeft := 0 } }) |>.startClock b

/-- The next word is blocked by a cause: 1 miss, 2 shortfall, 3 Ream, 4 pre-emption, or a calibration request, which is none
of the causes of STALL_CAUSE and cuts no VEC_HOLD (R136, R140, R147). DESIGN CHOICE: SHORTFALLS advances in every member, whose
word is blocked, and not only in the lane whose block is missing. Log entry 38 (R169). -/
def State.blockOn (s : State) (b cause : Nat) : State :=
  match s.program b with
  | none => s
  | some g =>
    let s1 := s.setProgram b { g with blocked := cause }
    match cause with
    | 1 => s1.setFlag (Reg.STALL_CAUSE_MISS b) true
    | 2 => (if g.blocked = 2 then s1 else s1.bumpMembers b Reg.SHORTFALLS).setFlag (Reg.STALL_CAUSE_SHORTFALL b) true
    | 3 => s1.setFlag (Reg.STALL_CAUSE_REAM b) true
    | _ => if g.preempts.isEmpty then s1 else (s1.setFlag (Reg.STALL_CAUSE_PREEMPT b) true).cutHold b

/-- The cause that blocked the word has cleared: a stall that no hold vector followed is absorbed, and counts (R137). -/
def State.clearBlock (s : State) (b : Nat) : State :=
  match s.program b with
  | none => s
  | some g =>
    (if g.blocked ≠ 0 ∧ g.stall = 0 then s.bump (Reg.STALLS_ABSORBED b) 1 else s).modProgram b (fun g => { g with blocked := 0, stall := 0 })

/-- The sequencers' elastic buffers hold the group back (R136, R177). -/
def State.reamBlocks (s : State) (b : Nat) : Bool := (s.members b).any (fun n => s.flag (Reg.EB_STATUS_BACKPRESSURE n))

/-! ### Vectors at the pins (R55, R84, R85, R98, R148, R149) -/

/-- Pin p acts on the first `n` vectors of its lane's block (R55, R84, R85). -/
def State.actBlock (s : State) (regs : List Nat) (x : Block) (pos : SitePos) (p j set n : Nat) : State :=
  let fmt := s.pinFormat p set
  let loc := decide (s.afld (Reg.PIN_CTRL_LOAD_ON_COMPARE p) ≠ 0)
  s.modPin p (fun y =>
    (List.range n).foldl
      (fun y v => y.act fmt loc (resolveSymbol y.lastSymbol (x.symbol v j) (siteBit regs pos p x.srBase x.srStep v))) y)

/-- One block position is applied at the pins: the running slot's open sites act, the other open sites carry the hold
vector (R131). -/
def State.actPosition (s : State) (b : Nat) (g : Program) (lanes : List Block) (set : Nat) : State :=
  let n := passLength lanes
  let acting := s.slotSites b g
  let opened := s.openMask b
  (s.groupPins b).foldl
    (fun s q =>
      let pos := q.2.2.2
      if bitOf acting pos.position then
        match lanes[q.1]? with
        | some x => s.actBlock g.micro.siteRegs x pos q.2.2.1 q.2.1 set n
        | none => s
      else if bitOf opened pos.position then s.holdVector g pos q.2.2.1 q.1 q.2.1
      else s) s

/-- The symbol of every pin's previous vector, by lane (R55). -/
def State.prevSymbols (s : State) (b : Nat) : List Nat :=
  (s.members b).map (fun n => ((List.range 16).map (fun j => (s.pin (seqPin n j)).lastSymbol * 16 ^ j)).sum)

/-! ### Step 4 (R97, R98, R111 to R113) -/

/-- The word's measurement trigger and analog control, attached to its vectors or, where it issues none, carried to
the next vector; an analog control of such a word is due at once (R112, R113). -/
def State.attach (s : State) (b w active : Nat) (vectors : Bool) : State :=
  s.modProgram b (fun g =>
    let t : Trigger := { serial := g.serial + 1, kind := wKind w, limit := wLimit w, toPop := wToPop w, toRecord := wToRecord w
                         base := wAux16 w, sites := active, word := g.micro.pc, queue := capQueue (wCapture w) }
    let g1 := if wKind w = 0 then g else { g with serial := g.serial + 1, lastTrigger := some t }
    let own := if wKind w = 0 then [] else [t]
    let g2 := if vectors then { g1 with triggers := g1.triggers ++ g1.carried ++ own, carried := [] }
      else { g1 with carried := g1.carried ++ own }
    if wAnalog w = 0 then g2 else { g2 with analog := g2.analog ++ [(wAnalog w, wAux16 w, active)] })

/-- Before the first vector of a program, driver and load are off for a pin that keeps its state (R55). -/
def State.beforeFirst (s : State) (b : Nat) (g : Program) : State :=
  if g.vectorsIssued = 0 then
    (s.groupPins b).foldl (fun s q => s.modPin q.2.2.1 (fun x => { x with drive := .off, load := false })) s
  else s

/-- The next block position of a word enters the vector queue: the pins act, the outstanding word grows. A trigger that waits
for a vector fires with the first one of a later position (R98, R112, R156). -/
def State.issuePosition (s : State) (b w : Nat) (first : Bool) : State :=
  match s.program b with
  | none => s
  | some g =>
    let prev := s.prevSymbols b
    let r := (s.startClock b).takeLanes b
    let lanes := r.1
    let s1 := (r.2.beforeFirst b g).actPosition b g lanes (wSet w)
    let period := s.groupPeriod b (wSet w)
    let active := s.activeSites b g
    let ref := (lanes.headD { segment := 0, ref := 0, consumer := 0, vectors := [], srBase := 0, srStep := 0, status := 0, spec := false }).ref
    let m := g.micro
    let own : IssuedWord :=
      { pc := m.pc, cls := wClass w, repeats := wRepeat w, capture := wCapture w, slot := m.runningSlot
        sites := s.slotSites b g, mask := m.mask, siteRegs := m.siteRegs, prev := prev, blocks := [lanes]
        firstVector := g.vectorsIssued, whole := decide (wClass w ≠ 3 ∨ wRepeat w = 0), set := wSet w, starts := [g.clock]
        clear := if capClear (wCapture w) then active else 0 }
    let l := g.outstanding
    let grown := match l.getLast? with
      | some x => { x with blocks := x.blocks ++ [lanes], whole := decide (g.seqDone = wRepeat w), starts := x.starts ++ [g.clock] }
      | none => own
    let reps := if wClass w = 3 then 1 else wRepeat w + 1
    let n := reps * passLength lanes
    let fires := !first && decide (n ≠ 0)
    let s2 := s1.modProgram b (fun g1 =>
      { g1.queueVectors (wSet w) n period (!first) with
        outstanding := if first then l ++ [own] else l.dropLast ++ [grown]
        seqDone := g.seqDone + 1, lastHold := 0
        taken := g1.taken ++ [g1.clock + n * period]
        triggers := if fires then g1.triggers ++ g1.carried else g1.triggers
        carried := if fires then [] else g1.carried
        micro := { m with streamBlock := ref, streamVector := 512, streamSeq := s1.fld (Reg.STREAM_SEQ b) } })
    (s.members b).foldl (fun s n => s.showBuffer n) s2

/-- The hold vector of a VEC_HOLD, R + 1 times (R98). -/
def State.issueHold (s : State) (b w : Nat) : State :=
  match s.program b with
  | none => s
  | some g =>
    let m := g.micro
    let own : IssuedWord :=
      { pc := m.pc, cls := 4, repeats := wRepeat w, capture := wCapture w, slot := m.runningSlot, sites := s.slotSites b g
        mask := m.mask, siteRegs := m.siteRegs, prev := s.prevSymbols b, blocks := [], firstVector := g.vectorsIssued
        set := wSet w, starts := [g.clock]
        clear := if capClear (wCapture w) then s.activeSites b g else 0 }
    ((s.startClock b).applyHoldVector b g (s.openMask b)).modProgram b (fun g =>
      { g.queueVectors (wSet w) (wRepeat w + 1) (s.groupPeriod b (wSet w)) false with
        outstanding := g.outstanding ++ [own], lastHold := wRepeat w + 1 })

/-- The blocks that head the lanes decide the next block position: none in the way, a status that stops the group, or
a malformed one (R153). -/
def State.headStatus (s : State) (b : Nat) : Nat :=
  let l := (s.members b).filterMap (fun n => ((s.seqRec n).buffer.head?).map Block.status)
  let worst := (l.filter (fun x => decide (x ≠ 0x7F))).foldl max 0
  if worst ≠ 0 then worst else if l.contains 0x7F then 0x7F else 0

/-- The later block positions of a VEC_SEQ that are held are issued, up to the first that is not. The second argument
bounds them. -/
def State.issueRest (s : State) (b w : Nat) : Nat → State
  | 0 => s
  | fuel + 1 =>
    match s.program b with
    | none => s
    | some g =>
      if wRepeat w < g.seqDone then s
      else if s.laneReady b g.micro.pc g.micro.segment (wBlock w + g.seqDone) && decide (s.headStatus b = 0) then
        State.issueRest (s.issuePosition b w false) b w fuel
      else s

/-! ### Issue (R97, R138, R140) -/

/-- The group takes a snapshot at the stall-safe word it issues (R138, R183, R290). -/
def State.takeSnapshot (s : State) (b : Nat) : State :=
  match s.program b with
  | none => s
  | some g =>
    let m := { g.micro with lastSafe := g.micro.pc, wordPc := g.micro.pc }
    let g1 : Program :=
      { g with
        micro := m, snapshot := some (m, g.trap), snapVectors := g.vectorsIssued, snapTriggers := g.serial, sent := []
        snapTrigger := g.lastTrigger, hostTraps := []
        readings := g.readings.filter (fun r => decide (some r.serial = g.lastTrigger.map Trigger.serial)) }
    (s.members b).foldl
      (fun s n => s.modSeq n (fun q => { q with snapSerial := q.nextSerial, sinceFirst := [], sinceCount := [] }))
      (s.setProgram b g1)

/-- What happens once a word's vectors are out and the word leaves step 4: joins and tags of a reconvergence word follow its
own blocks (R164). While the slot table holds several slots, those of a trap routine's interrupted path included, the group
stays private (R135). -/
def State.afterVectors (s : State) (b w : Nat) : State :=
  match s.program b with
  | none => s
  | some g =>
    if wReconverge w && decide (g.micro.inUse = 1) && g.trap.all (fun t => decide (t.saved.inUse ≤ 1)) then
      if s.fld (Reg.STREAM_MODE b) = 2 then s.tryJoin b g g.micro.segment g.micro.pc
      else s.recordTags b g g.micro.pc
    else s

/-- A word of class VEC_SEQ goes on to its later block positions and, once it has them all, to steps 5 to 9 (R156). A
later position that is malformed makes the word illegal there (R153). -/
def State.finishBlocks (s : State) (b w : Nat) : State :=
  let s1 := if wClass w = 3 then s.issueRest b w (wRepeat w + 1) else s
  match s1.program b with
  | none => s1
  | some g =>
    if wClass w = 3 && decide (g.seqDone ≤ wRepeat w) then
      if s1.laneReady b g.micro.pc g.micro.segment (wBlock w + g.seqDone) then
        let st := s1.headStatus b
        if st = 0x7F then (s1.closeWord b).trapAt b 3 (g.micro.pc + 1) 0 0
        else if st ≠ 0 then s1.stopAllSites b st
        else s1
      else if (s.program b).any (fun g0 => decide (g0.seqDone < g.seqDone)) then
        (s1.setProgram b { g with blocked := 0, stall := 0 }).showExec b
      else s1
    else
      let serial := if wKind w = 0 then g.serial else g.serial - 1
      let s2 := ((s1.setProgram b { g with seqDone := 0, blocked := 0, stall := 0 }).settleResults b).afterVectors b w
      s2.steps5to9 b w g.cond g.wordVector serial

/-- Steps 4 to 9 of the word whose source is complete (R97). -/
def State.issueReady (s : State) (b w : Nat) : State :=
  match s.program b with
  | none => s
  | some g0 =>
    let src := s.readCond b g0 w
    let s0 := if wStallSafe w then s.takeSnapshot b else s
    let s1 := (s0.setFld (Reg.EXEC_PC b) g0.micro.pc).modProgram b (fun g =>
      { g with
        cond := src, lastWord := some g.micro.pc, begun := true, wait := 0, blocked := 0, stall := 0, lastHold := 0
        wordVector := g.vectorsIssued, micro := { g.micro with wordPc := g.micro.pc } })
    let active := s.activeSites b g0
    let vectors := decide (wClass w = 4) ||
      (wReads w && decide (((s.members b).filterMap (fun n => (s.seqRec n).buffer.head?)).any (fun x => decide (cutLength x.vectors ≠ 0))))
    let s2 := if wClass w = 4 then s1.issueHold b w else if wReads w then s1.issuePosition b w true else s1
    (s2.attach b w active vectors).finishBlocks b w

/-- The word `w` in frame i, legal and with its first blocks, is issued, or waits for its source (R97, R105, R137). -/
def State.issueWord (s : State) (b i w holds : Nat) : State :=
  match s.program b with
  | none => s
  | some g =>
    let s1 := if wIssues w then s.holdPeriods b (g.holdsBefore holds) else s
    let s2 := (s1.clearBlock b).useFrame b i
    if s2.condReady b g w then s2.issueReady b w
    else (s2.modProgram b (fun g => { g with wait := 1 })).showExec b

/-- The group may issue: its program is admitted, filled and started, and neither waits nor is held. -/
def Program.mayIssue (g : Program) : Bool :=
  !g.scheduled && g.fillsDue.isEmpty && !g.ended && decide (g.wait = 0) && decide (g.stall ≤ 1) &&
  !g.calHeld

/-- The lanes of the group hold the next blocks of a word, or it reads none (R156). -/
def State.blocksReady (s : State) (b : Nat) (g : Program) (w : Nat) : Bool :=
  !wReads w || s.laneReady b g.micro.pc g.micro.segment (wBlock w + g.seqDone)

/-- An illegal word, or one whose block is malformed, raises its trap in place of its effects (R116, R153). -/
def State.illegalWord (s : State) (b i pc : Nat) : State := ((s.clearBlock b).useFrame b i).trapAt b 3 (pc + 1) 0 0

/-- A host-request trap due at the word the group has come to, by a TRAP_REQUEST or raised again after a replay (R141,
R146). -/
def State.dueHostTrap (s : State) (b : Nat) (g : Program) : Option State :=
  match g.trapRequests, g.trapsAgain with
  | c :: l, _ => some (((s.cutHold b).modProgram b (fun g => { g with trapRequests := l })).hostTrapNow b (256 * c.tag) (some c))
  | [], x :: l =>
    if x.1 = g.micro.pc then some ((s.modProgram b (fun g => { g with trapsAgain := l })).hostTrapNow b x.2 none) else none
  | [], [] => none

/-- The word `w` at the group's pc, in frame i and clear of the control store's own faults: what blocks it, a trap due before it
issues, or its issue. The causes that block a word are handled before a host trap at it, and a host trap before a pre-emption
(R116, R136, R141, R146, R153). -/
def State.reachWord (s : State) (b i w holds : Nat) : State :=
  match s.program b with
  | none => s
  | some g =>
    let illegal := wordIllegal g.header g.micro g.micro.pc w
    let ready := illegal || s.blocksReady b g w
    if s.reamBlocks b then s.blockOn b 3
    else
      match s.dueHostTrap b g with
      | some t => if ready then t else s.blockOn b 2
      | none =>
        if (!g.preempts.isEmpty || g.calWant) && wStallSafe w && g.trap.isNone then s.blockOn b 4
        else if illegal then s.illegalWord b i g.micro.pc
        else if !ready then s.blockOn b 2
        else
          let st := if wReads w then s.headStatus b else 0
          if st = 0x7F then s.illegalWord b i g.micro.pc
          else if st ≠ 0 then s.stopAllSites b st
          else if wIssues w && g.queueFull then s
          else s.issueWord b i w holds

/-- The group led by b comes to its next word, of a class that `cls` admits; `holds` is the number of hold periods applied
before the word's first vector, the vector queue having run empty (R97, R99, R116, R124, R125, R132, R136). -/
def State.nextWord (s0 : State) (b : Nat) (cls : Nat → Bool) (holds : Nat) : State :=
  match s0.program b with
  | none => s0
  | some g0 =>
    if !g0.mayIssue then s0
    else
      match s0.fetchWord b g0.micro.pc with
      | none => s0.blockOn b 1
      | some (i, f, w) =>
        if !cls (wClass w) then s0
        else
          let s := (s0.applyDue b).issueCut b
          let pc := g0.micro.pc
          if 0 < g0.seqDone then
            (if s.blocksReady b g0 w && decide (s.headStatus b = 0) then s.holdPeriods b (g0.holdsBefore holds) else s).finishBlocks b w
          else if f.poisoned.contains (pc % 256 / 2) then (s.dropFrames b i).stopAllSites b 0x12
          else if parityFailed w ≠ 0 then s.machineCheck b pc i (parityFailed w)
          else if wReconverge w && decide (1 < g0.micro.inUse) && !g0.released then s.reconvergeOr b pc (fun s => s.noSlotLeft b)
          else s.reachWord b i w holds

end Sys2Proof.Machine
end

