-- ==== Sys2Proof/Machine/Results.lean ====
section
/-! DEFINITION. What comes back to a group: compare results, waits that end, and the triggers of issued words (R86, R101
to R106, R111, R112). -/

namespace Sys2Proof.Machine

open Sys2Proof

/-! ### Compare results (R86, R104, R106, R111, R173) -/

/-- What one pin's window tells: the comparator state at E3 (0 between VOL and VOH, 1 above VOH, 2 below VOL), and
whether its condition held up to E4 (R86, R173). -/
structure Window where
  code : Nat
  steady : Bool
  deriving DecidableEq, Repr

/-- A resolved compare symbol passes in a window (R55, R86). -/
def comparePasses (sym : Nat) (x : Window) : Bool :=
  x.steady && (match sym with
    | 3 => decide (x.code = 2)
    | 4 => decide (x.code = 1)
    | _ => decide (x.code = 0 ∨ x.code = 3))

/-- One pin's part in a vector: lane, local pin, position, its resolved symbol, and whether it failed. -/
structure PinResult where
  lane : Nat
  pin : Nat
  position : Nat
  sym : Nat
  failed : Bool
  code : Nat
  deriving DecidableEq, Repr

/-- Start of vector `idx` of a word after program time zero, in units of 1 ÷ FREQ ps: one period of its set after the vector
before it, unless hold periods came before its block position (R83, R99). -/
def State.vectorUnits (s : State) (b : Nat) (w : IssuedWord) (idx : Nat) : Nat :=
  let p := s.groupPeriod b w.set
  if w.cls = 3 then
    let at0 := w.place idx
    w.starts.getD at0.1 0 + at0.2.1 * p
  else w.starts.getD 0 0 + idx * p

/-- Cell time at which vector `idx` of a word starts at the ball (R83, R91). -/
def State.vectorStart (s : State) (b : Nat) (g : Program) (w : IssuedWord) (idx : Nat) : Nat :=
  (g.zero.getD s.now + unitsPs (s.timeUnits (b / 2)) (s.vectorUnits b w idx)) % 2 ^ 64

/-- The results of vector v of block position k of a word. `wins` is the window of pin j of lane i; where E3 = E4 the window is
the one sample at E3 (R55, R86). -/
def State.pinResults (s : State) (b : Nat) (w : IssuedWord) (k v : Nat) (later : Bool) (wins : Nat → Nat → Window) : List PinResult :=
  (s.groupPins b).filterMap (fun q =>
    let pos := q.2.2.2
    let p := q.2.2.1
    if bitOf (andMask w.sites (s.openMask b)) pos.position then
      let y := w.symbol pos p q.1 q.2.1 k v later
      let x := wins q.1 q.2.1
      let cmpEn := decide (s.afld (Reg.PIN_CTRL_CMP_EN p) ≠ 0)
      some { lane := q.1, pin := q.2.1, position := pos.position, sym := y
             failed := isCompare y && cmpEn && !comparePasses y { x with steady := x.steady || s.singleSample p w.set }
             code := x.code % 3 }
    else none)

/-- A bitmap over local pins of those results of a lane and position that pass a test. -/
def resultMask (l : List PinResult) (lane pos : Nat) (f : PinResult → Bool) : Nat :=
  ofBits ((l.filter (fun r => decide (r.lane = lane) && decide (r.position = pos) && f r)).map PinResult.pin)

/-- The FAIL record of a lane's sequencer for one position in one vector (R170, R173). -/
def State.failRecord (s : State) (b lane pos start : Nat) (w : IssuedWord) (l : List PinResult) (idx : Nat) : State :=
  let at0 := w.place idx
  let resp := if capResponse w.capture then
      ((l.filter (fun r => decide (r.lane = lane) && decide (r.position = pos) && decide (r.sym = 11))).map
        (fun r => r.code * 4 ^ r.pin)).sum
    else 0
  let ref := ((w.blocks.getD at0.1 []).head?.map Block.ref).getD 0
  s.enterRecord (b + lane)
    { queue := capQueue w.capture, typ := 1, status := 0, site := siteWord (s.siteNumber b pos) 0, test := 0xFFFF, cellTime := start
      payload := leBytes (w.pc + 2 ^ 24 * w.slot) 4 ++ leBytes at0.2.2.1 4 ++ leBytes (w.firstVector + idx) 8 ++
        leBytes (resultMask l lane pos (fun r => r.failed)) 2 ++ leBytes (resultMask l lane pos (fun r => isCompare r.sym)) 2 ++
        leBytes resp 4 ++ leBytes (ref + 2 ^ 20 * at0.2.1) 4 ++ leBytes 0 4 }

/-- The records of one position for one vector (R111). -/
def State.captureRecords (s : State) (b pos start : Nat) (w : IssuedWord) (l : List PinResult) (idx : Nat) : State :=
  let mine := l.filter (fun r => decide (r.position = pos))
  let failed := mine.any (fun r => r.failed)
  let go := match capMode w.capture with
    | 1 => failed
    | 2 => mine.any (fun r => isCompare r.sym || decide (r.sym = 11))
    | 3 => failed && !bitOf w.recorded pos
    | _ => false
  if !go then s
  else
    (List.range (s.group b).size).foldl
      (fun s lane =>
        if mine.any (fun r => decide (r.lane = lane) && (isCompare r.sym || (decide (capMode w.capture = 2) && decide (r.sym = 11)))) then
          s.failRecord b lane pos start w l idx
        else s) s

/-- COMPARE_RESULT: the next vector with a compare or a capture returns its results. `atE3` holds 2 bits for pin j of
lane i at 2 × (16 i + j), `steady` one bit at 16 i + j. FAIL_LAST and MATCH take every site that ran the vector; the sticky
flag and the records only those whose mask bit was 1. In compatibility mode a failing site's mask bit clears at the end of the
word in which the fail returns, at once where no word is being executed (R83, R86, R104, R106, R111, R126). -/
def doCompareResult (b : Nat) (atE3 : BitVec 256) (steady : BitVec 128) (s : State) : State :=
  match s.program b with
  | none => s
  | some g =>
    match g.outstanding with
    | [] => s
    | w :: ws =>
      match s.nextTested b w with
      | none => s
      | some idx =>
        let at0 := w.place idx
        let wins := fun i j =>
          ({ code := bitsOf atE3.toNat (2 * (16 * i + j)) 2, steady := bitOf steady.toNat (16 * i + j) } : Window)
        let l := s.pinResults b w at0.1 at0.2.1 at0.2.2.2 wins
        let ran := andMask w.sites (s.openMask b)
        let reach := andMask w.mask ran
        let failed := siteMap (fun p => bitOf ran p && l.any (fun r => decide (r.position = p) && r.failed))
        let compared := siteMap (fun p => bitOf ran p && l.any (fun r => decide (r.position = p) && isCompare r.sym))
        let fails := andMask failed reach
        let s1 := (setBits reach 8).foldl (fun s p => s.captureRecords b p (s.vectorStart b g w idx) w l idx) s
        let w1 := { w with
          next := idx + 1, failed := orMask w.failed failed, matched := orMask w.matched (minusMask compared failed)
          recorded := orMask w.recorded fails }
        let executing := decide (g.wait ≠ 0) || decide (g.seqDone ≠ 0)
        let drop := if g.header.pv then fails else 0
        ((s1.modProgram b (fun g =>
          let m := g.micro
          { g with
            outstanding := w1 :: ws
            failDrop := if executing then orMask g.failDrop drop else g.failDrop
            micro := { m with
              fail := orMask m.fail fails
              mask := if executing then m.mask else minusMask m.mask drop } })).settleResults b).appliedTo b (s.vectorUnits b w idx)

/-! ### Waits that end (R101, R102, R105) -/

/-- CONDITION_WAIT_END: the source of the waiting word is complete and the word proceeds from step 3, once neither Ream
back-pressure nor a full vector queue stops it, or the condition of a WAIT has come true for every active site. `holds`: hold
periods applied since the vector queue ran empty (R23, R99, R102, R105, R136). -/
def doConditionWaitEnd (b holds : Nat) (s0 : State) : State :=
  let s := s0.applyDue b
  match s.program b with
  | none => s
  | some g =>
    if g.ended then s
    else
      match s.fetchWord b g.micro.pc with
      | none => s
      | some (_, _, w) =>
        if g.wait = 1 ∧ s.condReady b g w then
          if s.reamBlocks b then s.blockOn b 3
          else if wIssues w && g.queueFull then s
          else
            let s1 := if wIssues w then s.holdPeriods b (g.holdsBefore holds) else s
            ((s1.clearBlock b).modProgram b (fun g => { g with wait := 0 })).issueReady b w
        else if g.wait = 2 ∧ s.condReady b g w then
          let c := finalCond g.micro w (s.readCond b g w)
          if allHold w c (s.activeSites b g) then (s.leaveWait b w (g.micro.pc + 1)).endWord b else s
        else s

/-- WAIT_TIMEOUT: the timeout of a WAIT expires, and the path goes on at the branch target (R102). -/
def doWaitTimeout (b : Nat) (s : State) : State :=
  match s.program b with
  | none => s
  | some g =>
    match s.fetchWord b g.micro.pc with
    | none => s
    | some (_, _, w) =>
      if g.wait = 2 ∧ wAux16 w ≠ 0 ∧ !g.ended then
        (s.leaveWait b w (wTarget w)).endWord b
      else s

/-- SYNC_RELEASE: every result and reading of the words before a SYNC has returned (R101). -/
def doSyncRelease (b : Nat) (s : State) : State :=
  match s.program b with
  | none => s
  | some g =>
    match s.fetchWord b g.micro.pc with
    | none => s
    | some (_, _, w) =>
      if g.wait = 3 ∧ !g.ended ∧ g.outstanding.all (fun x => decide (g.syncVector ≤ x.firstVector)) ∧
          (g.triggers ++ g.carried).all (fun t => decide (g.syncSerial < t.serial)) ∧
          g.pendingReadings.all (fun r => decide (g.syncSerial < r.1)) then
        (s.leaveWait b w (g.micro.pc + 1)).endWord b
      else s

/-! ### Triggers and analog controls that fire (R65, R112, R113) -/

/-- The trigger at the head of a program's list, where it is of the given kind and its program still applies vectors. -/
def State.dueTrigger (s : State) (b kind : Nat) : Option (Program × Trigger) :=
  match s.program b with
  | none => none
  | some g =>
    match g.triggers with
    | t :: _ => if t.kind = kind then some (g, t) else none
    | [] => none

/-- The trigger at the head has fired: `n` readings are now awaited. -/
def State.firedTrigger (s : State) (b n : Nat) : State :=
  s.modProgram b (fun g =>
    match g.triggers with
    | t :: l => { g with triggers := l, pendingReadings := g.pendingReadings ++ List.replicate n (t.serial, t.toPop) }
    | [] => g)

/-- The analog control at the head of a program's list, where it has the given code: its operand and its sites. -/
def State.dueAnalog (s : State) (b code : Nat) : Option (Nat × Nat) :=
  match s.program b with
  | none => none
  | some g =>
    match g.analog with
    | x :: _ => if x.1 = code then some x.2 else none
    | [] => none

/-- The analog control at the head has acted. -/
def State.firedAnalog (s : State) (b : Nat) : State := s.modProgram b (fun g => { g with analog := g.analog.drop 1 })

/-- PPMU_TRIGGER: a PPMU trigger of the group led by b fires: every assigned, connected pin of its open sites whose mode
is not 0 is measured (R65, R112). -/
def doPpmuTrigger (b : Nat) (s : State) : State :=
  match s.dueTrigger b 1 with
  | none => s
  | some (_, t) =>
    let pins := (s.groupPins b).filter (fun q =>
      bitOf (andMask t.sites (s.openMask b)) q.2.2.2.position && s.ppmuActive q.2.2.1)
    pins.foldl
      (fun s q =>
        let p := q.2.2.1
        let x := q.2.2.2
        s.startMeas p
          { origin := .trigger b t.serial, leader := b, position := x.position, site := x.site
            test := (t.base + x.rank p) % 65536, toPop := t.toPop, toRecord := t.toRecord, queue := t.queue, word := t.word
            mode := s.afld (Reg.PPMU_CTRL_MODE p), range := s.afld (Reg.PPMU_CTRL_RANGE p)
            avgLog2 := s.afld (Reg.PPMU_CTRL_AVG_LOG2 p), wasConnected := true, start := s.now, suspect := s.supplySuspect })
      (s.firedTrigger b pins.length)

/-- The pins of the open sites of an analog control's operand. -/
def State.analogPins (s : State) (b sites : Nat) : List Nat :=
  ((s.groupPins b).filter (fun q => bitOf (andMask sites (s.openMask b)) q.2.2.2.position)).map (fun q => q.2.2.1)

/-- The completed conversions given for pin p, at most `most`: number, sum of codes, cell time of the first, and whether the
PPMU met its limit. -/
def cutOf (cut : List PartialConv) (p most : Nat) : Nat × Int × Nat × Bool :=
  match cut.find? (fun x => decide (x.pin.val = p)) with
  | some x =>
    if x.count.toNat = 0 ∨ most = 0 then (0, 0, 0, false) else (min x.count.toNat most, x.sum.toInt, x.start.toNat, x.clamped)
  | none => (0, 0, 0, false)

/-- The PPMU of each listed pin changes its connection: a running measurement ends with status 0x01 (R69). -/
def State.connectPins (s : State) (l : List Nat) (on : Bool) (cut : List PartialConv) : State :=
  l.foldl
    (fun s p =>
      if (s.pin p).connected = on then s
      else
        let c := cutOf cut p (match (s.pin p).meas with | some m => 2 ^ m.avgLog2 - 1 | none => 0)
        (s.cutMeas p 1 c.1 c.2.1 c.2.2.1 c.2.2.2).modPin p (fun x => { x with connected := on })) s

/-- Switches the PPMUs of the analog control's pins whose mode is not 0 (R56, R113). -/
def State.switchPpmus (s : State) (b code : Nat) (on : Bool) (cut : List PartialConv) : State :=
  match s.dueAnalog b code with
  | none => s
  | some (_, sites) =>
    (s.firedAnalog b).connectPins ((s.analogPins b sites).filter (fun p => decide (s.afld (Reg.PPMU_CTRL_MODE p) ≠ 0))) on cut

/-- PPMU_CONNECT (R113). -/
def doPpmuConnect (b : Nat) (cut : List PartialConv) (s : State) : State := s.switchPpmus b 1 true cut

/-- PPMU_DISCONNECT (R113). -/
def doPpmuDisconnect (b : Nat) (cut : List PartialConv) (s : State) : State := s.switchPpmus b 2 false cut

/-- LEVEL_SET_0 and LEVEL_SET_1: the active sites' pins switch to level set k (R54, R113). -/
def doLevelSet (b k : Nat) (s : State) : State :=
  match s.dueAnalog b (3 + k) with
  | none => s
  | some (_, sites) => (s.analogPins b sites).foldl (fun s p => s.modPin p (fun x => { x with levelSet := k })) (s.firedAnalog b)

end Sys2Proof.Machine
end

