-- ==== Sys2Proof/Machine/Stalls.lean ====
section
/-! DEFINITION. Stalls, replays, pre-emption frames, trap requests and demand fills (R122, R136 to R146). -/

namespace Sys2Proof.Machine

open Sys2Proof

/-! ### Replay (R138, R183, R290) -/

/-- Sequencer n's part in a replay: records since the snapshot still in the elastic buffer are discarded, whatever their type,
LOSS records take the room, and a VOID record covers those of each queue already committed (R177, R183). -/
def State.voidRecords (s : State) (n positions replay : Nat) : State :=
  let q := s.seqRec n
  let keep := q.elastic.filter (fun r => decide (r.serial < q.snapSerial))
  let s1 := (s.modSeq n (fun q => { q with elastic := keep, sinceFirst := [], sinceCount := [] })).showElastic n
  (q.sinceCount.foldl
    (fun s x =>
      s.enterRecord n
        { queue := x.1, typ := 5, status := 0, site := noSite, test := 0xFFFF, cellTime := s.now
          payload := leBytes (SMap.get 0 q.sinceFirst x.1) 8 ++ leBytes x.2 4 ++ leBytes replay 2 ++ leBytes positions 1 ++ leBytes 0 1 })
    s1).reportLosses n

/-- A measurement came from a trigger of the group led by `b` that a replay undoes. -/
def MeasOrigin.undone (o : MeasOrigin) (b snap : Nat) : Bool :=
  match o with
  | .trigger l serial => decide (l = b) && decide (snap < serial)
  | _ => false

/-- The readings that PPMUs of the group still gather for triggers since the snapshot go nowhere (R138). -/
def State.discardReadings (s : State) (b snap : Nat) : State :=
  (s.groupPins b).foldl (fun s q => s.modPin q.2.2.1 (fun x =>
    { x with meas := x.meas.map (fun m => if m.origin.undone b snap then { m with toRecord := false, toPop := false } else m) })) s

/-- The group replays from its snapshot: results gathered since are discarded, readings and host-request traps of that stretch
among them, which are raised again when their word is reached (R138, R146). -/
def State.replay (s : State) (b : Nat) : State :=
  match s.program b with
  | none => s
  | some g =>
    match g.snapshot with
    | none => s
    | some (m, t) =>
      let opened := s.openMask b
      let m1 := { m with slots := dropClosed m.slots opened, mask := andMask m.mask opened }
      let positions := ofBits (((s.group b).positions).map SitePos.position)
      let s1 := (s.bump (Reg.REPLAYS b) 1).setProgram b
        { g with
          replays := g.replays + 1, micro := m1, trap := t, released := true, wait := 0, blocked := 0, stall := 0
          seqDone := 0, dueTrap := none, carried := [], lastHold := 0, sent := [], failDrop := 0
          outstanding := g.outstanding.filter (fun w => decide (w.firstVector < g.snapVectors))
          lastTrigger := g.snapTrigger, readings := g.readings.filter (fun r => decide (r.serial ≤ g.snapTriggers))
          pendingReadings := g.pendingReadings.filter (fun r => decide (r.1 ≤ g.snapTriggers))
          hostTraps := [], trapsAgain := g.trapsAgain ++ g.hostTraps }
      let s2 := (s.members b).foldl (fun s n => s.voidRecords n positions (g.replays + 1))
        ((s1.discardReadings b g.snapTriggers).showSiteRegs b m1.siteRegs)
      let s3 := g.sent.foldl (fun s x => s.popWithdraw x.1 x.2) s2
      let s4 := ((s3.departGroup b false).showStreamSeq b m1.streamSeq).alignStreams b
      if (m1.slot m1.runningSlot).state = 0 then s4.scheduleOr b (fun s => s.noSlotLeft b) else s4.showExec b

/-! ### Safe waits and unsafe stalls (R137) -/

/-- The cause that blocks the group still holds: its word cannot issue (R136). -/
def State.stillBlocked (s : State) (b : Nat) (g : Program) : Bool :=
  let m := g.micro
  let shortfall := match s.fetchWord b m.pc with
    | some (_, _, w) => wReads w && !s.laneReady b m.pc m.segment (wBlock w + g.seqDone)
    | none => false
  match g.blocked with
  | 1 => (s.fetchWord b m.pc).isNone
  | 2 => shortfall
  | 3 => s.reamBlocks b
  | 4 => !g.preempts.isEmpty || g.calWant
  | _ => decide (0 < g.seqDone) && shortfall

/-- The group is blocked with its queue empty: nothing of its words is still to be applied. -/
def State.queueEmpty (s : State) (b : Nat) (g : Program) : Bool :=
  !g.ended && g.triggers.isEmpty && g.analog.isEmpty && s.stillBlocked b g

/-- The vector queue of a blocked group has emptied, and the hold vector is applied: a VEC_SEQ whose next block is not held then
meets a shortfall (R99, R137, R156). -/
def State.emptied (s : State) (b : Nat) (g : Program) : State :=
  (if g.blocked = 0 then s.blockOn b 2 else s).applyHold b g (s.openMask b) |>.queueEmptied b

/-- The blocked word, stall-safe, waits with the hold vector applied (R137, R139, R140). -/
def State.enterSafeWait (s : State) (b : Nat) (g : Program) : State :=
  let s1 := if g.stall = 1 then s else s.bump (Reg.SAFE_WAITS b) 1
  (s1.setProgram b
    { g with
      stall := if g.blocked = 4 ∧ g.preempts ≠ [] then 3 else 1
      calHeld := g.blocked = 4 && g.preempts.isEmpty && g.calWant }).showExec b

/-- An unsafe stall and what the program's header makes of it (R137). -/
def State.enterUnsafeStall (s : State) (b : Nat) (g : Program) : State :=
  let s1 := s.bump (Reg.UNSAFE_STALLS b) 1
  let stop := fun (st : Nat) => ((s1.stopGroup b st).modProgram b (fun g => { g with stall := 4 })).showExec b
  if !g.header.replayable || g.snapshot.isNone then stop 0x31
  else if g.replays < g.header.replayLimit then s1.replay b
  else stop 0x32

/-- The queue of a blocked group empties: the hold vector is applied, and the word's stall-safe bit decides, once it can
be read (R137). -/
def State.emptyQueue (s : State) (b : Nat) (safe : Bool) : State :=
  match s.program b with
  | none => s
  | some g =>
    if !s.queueEmpty b g then s
    else
      let t := s.emptied b g
      let h := (t.program b).getD g
      match s.fetchWord b g.micro.pc with
      | none => if g.stall = 0 then (t.setProgram b { h with stall := 2 }).showExec b else s
      | some (_, _, w) =>
        if wStallSafe w then
          (if safe ∧ (g.stall = 0 ∨ (g.stall = 1 ∧ g.blocked = 4)) then t.enterSafeWait b h else s)
        else if !safe ∧ g.stall = 0 then t.enterUnsafeStall b h
        else s

/-- SAFE_WAIT: the queue of a group blocked at a stall-safe word empties (R137). -/
def doSafeWait (b : Nat) (s : State) : State := s.emptyQueue b true

/-- UNSAFE_STALL: the queue of a group blocked at a word that is not stall-safe empties (R137, R138). -/
def doUnsafeStall (b : Nat) (s : State) : State := s.emptyQueue b false

/-! ### Demand fills (R121, R122, R124, R136) -/

/-- A page has been read for the group led by b: it fills frame i. -/
def State.fillFrame (s : State) (b pg : Nat) (pin : Bool) (words poisoned : List Nat) : State :=
  match s.program b with
  | none => s
  | some g =>
    match s.demandFrame b ((g.lastWord).map (fun pc => pc / 256)) with
    | none => s
    | some i => (s.dropFrames b i).putFrame b i { page := pg, words := words, poisoned := poisoned, pinned := pin }

/-- A stalled group's word is in the control store: its stall-safe bit is read (R137). -/
def State.readSafeBit (s : State) (b : Nat) : State :=
  match s.program b with
  | none => s
  | some g =>
    if g.stall ≠ 2 then s
    else
      match s.fetchWord b g.micro.pc with
      | none => s
      | some (_, _, w) =>
        if wStallSafe w then (s.bump (Reg.SAFE_WAITS b) 1).setProgram b { g with stall := 1 } |>.showExec b
        else s.enterUnsafeStall b g

/-- CS_DEMAND_FILL: the fill that the group led by b waits for completes: the next resident page before its first word,
else the page of its next word (R121, R122). -/
def doCsDemandFill (b : Nat) (s : State) : State :=
  match s.program b with
  | none => s
  | some g =>
    if g.ended then s
    else
      match g.fillsDue with
      | pg :: rest =>
        match s.readPage b g.image g.header.codeOffset pg false with
        | (.page ws l, s1) => (s1.fillFrame b pg true ws l).modProgram b (fun g => { g with fillsDue := rest })
        | (.fault k, s1) => s1.stopAllSites b (kindStatus k)
        | (_, s1) => s1
      | [] =>
        let pg := g.micro.pc / 256
        if (findFrame (s.seqRec b).frames pg).isSome || g.wait ≠ 0 then s
        else
          match s.readPage b g.image g.header.codeOffset pg false with
          | (.page ws l, s1) => ((s1.fillFrame b pg false ws l).bumpMembers b Reg.DEMAND_FILLS).readSafeBit b
          | (.fault k, s1) => s1.stopAllSites b (kindStatus k)
          | (.wait, s1) => s1.setFlag (Reg.STALL_CAUSE_PAGE_WAIT b) (g.blocked = 1 || s1.flag (Reg.STALL_CAUSE_PAGE_WAIT b))
          | (.drop, s1) => s1

/-! ### Frames on their way to memory (R139, R142, R144) -/

/-- TRAP_FRAME_WRITE: the oldest trap frame of the group led by b reaches memory; its TRAP_REQUEST completes (R142). -/
def doTrapFrameWrite (b : Nat) (s : State) : State :=
  match s.program b with
  | none => s
  | some g =>
    match g.frameWrites with
    | [] => s
    | f :: rest =>
      match s.memWrite { engine := 8, unit := b } g.frameAddr f.frame false with
      | (.wait, s1) => s1
      | (.fault k, s1) =>
        let s2 := s1.modProgram b (fun g => { g with frameWrites := rest })
        (match f.request with | some c => s2.complete c 0 1 | none => s2).stopAllSites b (kindStatus k)
      | (_, s1) =>
        let s2 := s1.modProgram b (fun g => { g with frameWrites := rest })
        match f.request with
        | some c => s2.complete c 0 1
        | none => s2

/-- The pre-emption frame of a group (R139, R145). -/
def State.preemptFrame (s : State) (b : Nat) (g : Program) : List Byte :=
  s.frame b g { g.micro with wordPc := g.micro.pc } 1 0 0 (s.activeSites b g)

/-- PREEMPT_FRAME_WRITE: the pre-emption frame of the group led by b reaches memory: its program completes with 0x30 and
the pre-empt commands complete, the first with byte 4 at 1 (R139, R144, R146). -/
def doPreemptFrameWrite (b : Nat) (s : State) : State :=
  match s.program b with
  | none => s
  | some g =>
    if g.stall ≠ 3 then s
    else
      match s.memWrite { engine := 8, unit := b } g.frameAddr (s.preemptFrame b g) false with
      | (.wait, s1) => s1
      | (.fault k, s1) => s1.stopAllSites b (kindStatus k)
      | (_, s1) =>
        let s2 := match g.preempts with
          | [] => s1
          | c :: l => (s1.complete c 0 (g.micro.pc + 2 ^ 32)).completeAll l 0 g.micro.pc
        (s2.modProgram b (fun g => { g with preempts := [] })).stopGroup b 0x30

/-! ### Time limits (R130, R139, R146) -/

/-- A pre-emption frame under way as the time limit expires: it is still written, at once or once its page has come, and
pre-empts nothing; a fault of the write gives the program its status (R130, R144, R146). -/
def State.limitFrame (s : State) (b : Nat) (g : Program) : State :=
  let d := s.preemptFrame b g
  match s.memWrite { engine := 8, unit := b } g.frameAddr d false with
  | (.fault k, s1) => s1.stopAllSites b (kindStatus k)
  | (.wait, s1) => (s1.modProgram b (fun g => { g with frameWrites := g.frameWrites ++ [{ frame := d, request := none }] })).stopGroup b 0x60
  | (_, s1) => s1.stopGroup b 0x60

/-- PROGRAM_TIME_LIMIT: the time limit of the program of the group led by b expires. A pre-emption frame under way is
still written, and pre-empts nothing; result records still in the elastic buffers are discarded (R130, R146, R184). -/
def doProgramTimeLimit (b : Nat) (s : State) : State :=
  match s.program b with
  | none => s
  | some g =>
    if g.timeLimit = 0 ∨ !g.begun ∨ g.ended then s
    else
      (s.members b).foldl (fun s n => s.discardRecords n 2 (fun r => isResult r.typ))
        (if g.stall = 3 then s.limitFrame b g else s.stopGroup b 0x60)

/-- Time limit of a PROGRAM_PREEMPT (R128). -/
def Cmd.preemptLimit (c : Cmd) : Nat := c.field 16 8

/-- PREEMPT_TIME_LIMIT: the time limit of the k-th outstanding PROGRAM_PREEMPT of the group led by b expires; it ends the
command only where no stall-safe word has been reached (R139). -/
def doPreemptTimeLimit (b k : Nat) (s : State) : State :=
  match s.program b with
  | none => s
  | some g =>
    match g.preempts[k]? with
    | none => s
    | some c =>
      if c.preemptLimit = 0 ∨ g.stall = 3 ∨ g.blocked = 4 then s
      else (s.setProgram b { g with preempts := g.preempts.eraseIdx k }).complete c 0x60 0

/-! ### PROGRAM_PREEMPT and TRAP_REQUEST (R128, R139 to R141) -/

/-- Units that the program commands and the site commands of a group depend on: its sequencers, the clusters it drives,
and those that hold DPS channels of its sites (R473). -/
def State.groupUnits (s : State) (b : Nat) : List Nat :=
  (s.members b).map seqUnit ++ s.groupClusters b ++ ((s.group b).positions.flatMap (fun x => x.dps.map (fun d => d / 2))).dedup

/-- The target of a program command is no leader of a group (R128). -/
def State.notLeader (s : State) (b : Nat) : Bool := decide (64 ≤ b) || decide (s.leaderOf b ≠ b)

/-- The program that runs on a group and has not ended. -/
def State.running (s : State) (b : Nat) : Option Program :=
  match s.program b with
  | some g => if g.ended then none else some g
  | none => none

/-- PROGRAM_PREEMPT (R128, R139). -/
def doProgramPreempt (c : Cmd) (s : State) : State :=
  let b := c.target
  s.checked c ((c.reservedSet [(16, 8)] || s.notLeader b, 0x7F) :: s.unitChecks (s.groupUnits b)) (fun s =>
    match s.running b with
    | none => s.complete c 0 0
    | some g => s.setProgram b { g with preempts := g.preempts ++ [c] })

/-- A host-request trap at the group led by b: taken at once in a condition wait or a WAIT, else before the next word issues,
after any stall of that word (R141, R146). -/
def State.hostTrap (s : State) (b : Nat) (c : Cmd) : State :=
  match s.program b with
  | none => s
  | some g =>
    if (g.wait = 1 ∨ g.wait = 2) ∧ g.stall ≠ 3 then (s.cutHold b).hostTrapNow b (256 * c.tag) (some c)
    else s.setProgram b { g with trapRequests := g.trapRequests ++ [c] }

/-- TRAP_REQUEST (R128, R141). -/
def doTrapRequest (c : Cmd) (s : State) : State :=
  let b := c.target
  s.checked c ((c.reservedSet [] || s.notLeader b, 0x7F) :: s.unitChecks (s.groupUnits b)) (fun s =>
    match s.running b with
    | none => s.complete c 0 0
    | some _ => s.hostTrap b c)

end Sys2Proof.Machine
end

