-- ==== Sys2Proof/Machine/Programs.lean ====
section
/-! DEFINITION. Starting, admitting, resuming and ending programs (R20, R30, R72, R117, R118, R121, R128, R129, R139,
R155). -/

namespace Sys2Proof.Machine

open Sys2Proof

/-! ### Pre-start reads (R15, R117, R118, R129, R154, R155) -/

/-- Little-endian field of read bytes. -/
def fieldOf (d : List Byte) (off len : Nat) : Nat := leNat ((d.drop off).take len)

/-- The header of a program image, its segments left out (R117). -/
def headerOf (d : List Byte) : Header :=
  { flags := fieldOf d 6 2, wordCount := fieldOf d 8 4, entry := fieldOf d 12 4, trapHandler := fieldOf d 16 4
    codeOffset := fieldOf d 20 4, segTable := fieldOf d 24 4, segCount := fieldOf d 28 2, initialSeg := fieldOf d 30 2
    holdBlock := bitsOf (fieldOf d 32 4) 0 20, holdIndex := bitsOf (fieldOf d 32 4) 20 9, holdSeg := fieldOf d 36 2
    replayLimit := fieldOf d 38 1, residentPages := fieldOf d 39 1
    powerMw := (List.range 8).map (fun i => fieldOf d (40 + 2 * i) 2), segments := [] }

/-- The fields of the header, its first 56 bytes, break R117 or R118 as far as they alone can show; `clusters` is how many
the group drives, from the lowest to the highest, and `frames` its usable frames. -/
def headerBad (d : List Byte) (clusters frames : Nat) : Bool :=
  let h := headerOf d
  decide (fieldOf d 0 4 ≠ 0x505A5645) || decide (fieldOf d 4 2 ≠ 1) || decide (8 ≤ h.flags) ||
  decide (h.wordCount = 0) || decide (2 ^ 24 < h.wordCount) || decide (h.wordCount ≤ h.entry) ||
  decide (h.wordCount ≤ h.trapHandler) || decide (h.codeOffset % 4096 ≠ 0) || decide (h.codeOffset < 4096) ||
  decide (h.segTable % 16 ≠ 0) || decide (h.segTable < 256) || decide (h.segCount = 0) ||
  decide (h.segCount ≤ h.initialSeg) || decide (h.segCount ≤ h.holdSeg) || decide (bitsOf (fieldOf d 32 4) 29 3 ≠ 0) ||
  decide (56 < h.residentPages) || decide (frames < h.residentPages + 8) ||
  (h.powerMw.drop clusters).any (fun x => decide (x ≠ 0))

/-- A segment-table entry: address, block count, and whether it breaks R117. -/
def segmentOf (d : List Byte) : (Nat × Nat) × Bool :=
  let a := fieldOf d 0 8
  let k := fieldOf d 8 4
  ((a, k), decide (2 ^ 48 ≤ a) || decide (a % 64 ≠ 0) || decide (k = 0) || decide (2 ^ 20 < k) || decide (fieldOf d 12 4 ≠ 0))

/-- The entries of a segment table, each where all its bytes could be read; the first argument counts them (R15). -/
def segmentsOf : Nat → List (Option Byte) → List (Option ((Nat × Nat) × Bool))
  | 0, _ => []
  | n + 1, d => (readPart d 0 16).map segmentOf :: segmentsOf n (d.drop 16)

/-- A segment header breaks R154, or names other lanes than the group's (R155); of a header that could not be read, the check
is not made (R15). -/
def segmentHeaderBad (d : List Byte) (blocks size : Nat) : Bool :=
  decide (fieldOf d 0 4 ≠ 0x535A5645) || decide (fieldOf d 4 2 ≠ 1) || decide (fieldOf d 6 1 ≠ size) ||
  decide (fieldOf d 7 1 ≠ 0) || decide (fieldOf d 8 4 ≠ blocks) || (d.drop 12).any (fun x => decide (x ≠ 0))

/-- The header of every segment whose table entry could be read is read and checked (R155). -/
def State.checkSegments (s : State) (b : Nat) : List (Option (Nat × Nat)) → Pre → Pre × State
  | [], p => (p, s)
  | none :: xs, p => State.checkSegments s b xs p
  | some x :: xs, p =>
    let r := s.preRead { engine := 1, unit := b } x.1 64
    let bad := match allRead r.1 with | some d => segmentHeaderBad d x.2 (s.group b).size | none => false
    State.checkSegments (r.2.2.bump Reg.HB_BYTES_READ (if (allRead r.1).isSome then 64 else 0)) b xs ((p.and r.2.1).and { bad := bad })

/-- The hold vector of the lane of sequencer n, with the SR_BASE and SR_STEP of its block: its index entry and its block are
read and checked, as far as they could be read (R15, R149, R155). -/
def State.readHold (s : State) (b : Nat) (h : Header) (n : Nat) : Option (Nat × Nat × Nat) × Pre × State :=
  let x : MemCtx := { engine := 1, unit := n }
  let base := h.segAddr h.holdSeg
  let r := s.preRead x (base + 64 + 8 * ((s.group b).size * h.holdBlock + (n - b))) 8
  match allRead r.1 with
  | none => (none, r.2.1, r.2.2)
  | some ie =>
    let e := leNat ie
    let len := bitsOf e 32 13
    let s1 := r.2.2.bump Reg.HB_BYTES_READ 8
    if indexBad e then (none, r.2.1.and { bad := true }, s1)
    else
      let q := s1.preRead x (base + 64 * bitsOf e 0 32) len
      let s2 := q.2.2.bump Reg.HB_BYTES_READ len
      match allRead q.1 with
      | none => (none, q.2.1.and { bad := (readPart q.1 0 8).any (blockHeaderBad len) }, s2)
      | some d =>
        match decodeBlock len d with
        | none => (none, { bad := true }, s2)
        | some v =>
          let y := v.2.2.getD h.holdIndex padVector
          (some (y, v.1, v.2.1), { bad := decide (y = padVector) }, s2.bump Reg.HB_BYTES_DECODED 4096)

/-- Each lane's hold vector is read (R155). -/
def State.readHolds (s : State) (b : Nat) (h : Header) : List Nat → Pre → List (Nat × Nat × Nat) → (List (Nat × Nat × Nat) × Pre) × State
  | [], p, acc => ((acc, p), s)
  | n :: ns, p, acc =>
    let r := s.readHold b h n
    State.readHolds r.2.2 b h ns (p.and r.2.1) (acc ++ r.1.toList)

/-- Frames of the control stores of the group led by b that no member has retired: members hold identical frames (R118,
R120, R125). -/
def State.usableFrames (s : State) (b : Nat) : Nat :=
  ((List.range 64).filter (fun i => (s.members b).all (fun n => !(s.seqRec n).retired.contains i))).length

/-- An image read and checked for the group led by b: its header with its segments, and each lane's hold vector; every check
whose data could be read is made (R15, R118, R155). -/
def State.readImage (s : State) (b image : Nat) : Option (Header × List (Nat × Nat × Nat)) × Pre × State :=
  let cs := s.groupClusters b
  let span := cs.foldl max 0 - cs.foldl min 31 + 1
  let r := s.preRead { engine := 0, unit := b } image 256
  let p := r.2.1.and { bad := (r.1.drop 56).any (fun x => decide (x.getD 0 ≠ 0)) }
  match readPart r.1 0 56 with
  | none => (none, p, r.2.2)
  | some d =>
    let h := headerOf d
    if p.bad || headerBad d span (s.usableFrames b) then (none, p.and { bad := true }, r.2.2)
    else
      let q := r.2.2.preRead { engine := 0, unit := b } (image + h.segTable) (16 * h.segCount)
      let l := segmentsOf h.segCount q.1
      let h1 := { h with segments := l.map (fun x => (x.map Prod.fst).getD (0, 0)) }
      let hold := (l.getD h.holdSeg none).isSome
      let p2 := (p.and q.2.1).and { bad := l.any (fun x => x.any Prod.snd) || (hold && decide (h1.blocks h.holdSeg ≤ h.holdBlock)) }
      if p2.bad then (none, p2, q.2.2)
      else
        let t := q.2.2.checkSegments b (l.map (fun x => x.map Prod.fst)) p2
        let z := t.2.readHolds b h1 (if hold then s.members b else []) t.1 []
        (some (h1, z.1.1), z.1.2, z.2)

/-! ### Checks of the group's own settings (R51, R58, R59, R63, R80, R82, R205, R228, R250, R259, R268) -/

/-- DPS channels ganged with channel d: those whose settings name its leader (R259). -/
def State.gangOf (s : State) (d : Nat) : List Nat :=
  (List.range 64).filter (fun x => decide (s.afld (Reg.DPS_CTRL_GANG_LEADER x) = s.afld (Reg.DPS_CTRL_GANG_LEADER d)))

/-- A setting of the group led by b bars its program (R51, R58, R59, R63, R80, R82, R205, R228, R250, R268). -/
def State.settingsBad (s : State) (b : Nat) : Bool :=
  let seqs := s.members b
  let cs := s.groupClusters b
  (s.groupPins b).any (fun q => s.pinInvalid q.2.2.1 || bitOf (s.fld (Reg.DSK_ERR (q.2.2.1 / 32))) (q.2.2.1 % 32)) ||
  cs.any (fun c => decide (s.fld (Reg.TS_ERR c) ≠ 0)) || !s.allMatch cs ||
  seqs.any (fun n => s.flag (Reg.TMU_STATUS_CFG_ERR n)) ||
  cs.any (fun c =>
    (s.flag (Reg.AWG_STATUS_CFG_ERR c) && seqs.contains (2 * c + s.afld (Reg.AWG_CTRL_OWNER c))) ||
    (s.flag (Reg.DG_STATUS_CFG_ERR c) && seqs.contains (2 * c + s.afld (Reg.DG_CTRL_OWNER c)))) ||
  (s.group b).positions.any (fun x =>
    x.dps.any (fun d => s.flag (Reg.DPS_STATUS_CFG_ERR d) || (s.gangOf d).any (fun y => !x.dps.contains y)))

/-! ### Power (R30, R431) -/

/-- Power limit of cluster c, mW (R431). -/
def State.powerLimit (s : State) (c : Nat) : Nat := 3000 - 375 * s.fld (Reg.THROTTLE_n c)

/-- Every cluster that the group uses fits its limit on the declared power, and on the device's own declaration of
45 mW for each DPS channel on a cluster that the group does not drive (R30). -/
def State.powerFits (s : State) (b : Nat) (h : Header) : Bool :=
  let cs := s.groupClusters b
  let low := cs.foldl min 31
  let dps := (s.group b).positions.flatMap (fun x => x.dps)
  cs.all (fun c => decide (h.powerMw.getD (c - low) 0 ≤ s.powerLimit c)) &&
  dps.all (fun d => cs.contains (d / 2) || decide (45 * (dps.filter (fun x => decide (x / 2 = d / 2))).length ≤ s.powerLimit (d / 2)))

/-! ### Freezes (R113, R415) -/

/-- FROZEN of every cluster follows the freezes that programs hold (R415, R420). -/
def State.showFreezes (s : State) : State :=
  (List.range 32).foldl
    (fun s c => s.setFlag (Reg.CAL_STATUS_FROZEN c)
      (s.programs.any (fun g => (g.2.freezeHeader || g.2.freezeOp) && (s.groupClusters g.1).contains c))) s

/-! ### Completion (R20, R128, R129, R440) -/

/-- RESULT of PROGRAM_START and PROGRAM_RESUME (R128). -/
def startResult (status : List Nat) (part replays traps : Nat) : Nat :=
  ((List.range 8).map (fun p => if bitOf part p then status.getD p 0 * 2 ^ (8 * p) else 0)).sum + part * 2 ^ 64 +
    (replays % 2 ^ 16) * 2 ^ 80 + min traps (2 ^ 32 - 1) * 2 ^ 96

/-- Status of the completion: the first under R16 among the positions taking part (R129). -/
def startStatus (status : List Nat) (part : Nat) : Nat :=
  (setBits part 8).foldl (fun st p => first16 st (status.getD p 0)) 0

/-- The last program of the device has completed (R440): none runs, waits to start, or is bound. -/
def State.raiseIdle (s : State) : State := if s.programs.isEmpty && s.starts.isEmpty then s.raise 27 0 0 else s

/-! ### Summary period (R464) -/

/-- A program of an image starts at the sites of the listed numbers: its digest enters the period's image table, or its
sites are UNMEASURED (R464). -/
def Sec.programStarts (z : Sec) (image : Nat) (sites : List Nat) : Sec :=
  let mark := fun (z : Sec) (f : SiteRun → SiteRun) =>
    { z with sites := sites.foldl (fun m k => SMap.put m k (f (SMap.get {} m k))) z.sites }
  let z1 := mark z (fun r => { r with runs := r.runs + 1 })
  match z1.log.find? (fun e => decide (e.2.base = image)) with
  | none => mark z1 (fun r => { r with unmeasured := true })
  | some e =>
    let x := (e.2.base, e.2.host, e.2.digest)
    let i := z1.images.findIdx (· = x)
    let ran := fun (r : SiteRun) => { r with images := if bitOf r.images i then r.images else r.images + 2 ^ i }
    if i < z1.images.length then mark z1 ran
    else if z1.images.length < 64 then mark { z1 with images := z1.images ++ [x] } ran
    else mark { z1 with isPartial := true } (fun r => { r with unmeasured := true })

/-! ### Admission (R54, R71, R121, R129, R131, R164) -/

/-- The pins of sequencer n at program start: unparked, driver and load off, the default level set, the PPMU connected
as CONNECT selects on the assigned pins that are in no safe state (R44, R53 to R56, R71). -/
def State.startPins (s : State) (n : Nat) : State :=
  (List.range 16).foldl
    (fun s j =>
      let p := seqPin n j
      s.modPin p (fun x =>
        { x with
          parked := false, drive := .off, load := false, lastSymbol := 2, fresh := true
          levelSet := s.afld (Reg.PIN_CTRL_LS_DEFAULT p)
          connected := if x.meas.isSome then x.connected else
            (s.pinSite p).isSome && x.safe.isNone && decide (s.afld (Reg.PPMU_CTRL_CONNECT p) ≠ 0) })) s

/-- The streams of sequencer n at program start: empty and private (R156, R169). -/
def State.startStream (s : State) (n seq : Nat) : State :=
  let s1 := (s.leaveRing false n).modSeq n (fun q => { q with buffer := [], ringNext := 0, snapSerial := q.nextSerial, sinceFirst := [], sinceCount := [] })
  ((s1.setFld (Reg.STREAM_MODE n) 2).setFld (Reg.STREAM_SEQ n) seq).showBuffer n

/-- The resident pages are filled and pinned, one after another; those that wait for a host page stay due (R121). The
first argument bounds them. -/
def fillResident (b : Nat) : Nat → State → State
  | 0, s => s
  | fuel + 1, s =>
    match s.program b with
    | none => s
    | some g =>
      match g.fillsDue with
      | [] => s
      | pg :: rest =>
        match s.readPage b g.image g.header.codeOffset pg false with
        | (.page ws l, s1) => fillResident b fuel ((s1.fillFrame b pg true ws l).modProgram b (fun g => { g with fillsDue := rest }))
        | (.fault k, s1) => s1.stopAllSites b (kindStatus k)
        | (_, s1) => s1

/-- The micro-state a PROGRAM_START begins with (R131). -/
def startMicro (h : Header) (opened : Nat) (siteRegs : List Nat) : Micro :=
  { pc := h.entry, wordPc := h.entry, segment := h.initialSeg, mask := opened, siteRegs := siteRegs
    slots := { sites := opened, addr := h.entry, state := 2 } :: List.replicate 7 {} }

/-- The program of command `c` on the group led by b is admitted (R121, R129). -/
def State.admitProgram (s : State) (b : Nat) (c : Cmd) (image frame : Nat) (h : Header) (holds : List (Nat × Nat × Nat))
    (resumed : Option (Micro × Nat)) : State :=
  let opened := s.openMask b
  let enabled := s.enabledMask b
  let regs := (List.range 8).map (fun p => s.fld (Reg.SITE_REG b p))
  let m := match resumed with
    | some (m, _) => { m with mask := andMask m.mask opened, slots := dropClosed m.slots opened }
    | none => startMicro h opened regs
  let status := (List.range 8).map (fun p => if bitOf enabled p && !bitOf opened p then 0x40 else 0)
  let g : Program :=
    { cmd := c, image := image, header := h, timeLimit := c.field 16 8, frameAddr := frame, scheduled := bitOf (c.field 32 1) 1
      bgBase := c.field 33 1, part := enabled, status := status, micro := m, freezeHeader := bitOf h.flags 2
      replays := match resumed with | some (_, r) => r | none => 0
      fillsDue := List.range (min h.residentPages h.pages), holdVectors := holds.map Prod.fst, holdSr := holds.map Prod.snd }
  let s1 := (s.members b).foldl (fun s n => ((s.invalidateFrames n).startPins n).startStream n m.streamSeq) s
  let s2 := ((s1.setProgram b g).applyHold b g opened).showSiteRegs b m.siteRegs
  let sites := (setBits enabled 8).map (s.siteNumber b)
  let s3 := ({ s2 with sec := s2.sec.programStarts image sites } : State).showFreezes
  let s4 := fillResident b 56 s3
  let s5 := if resumed.isNone then s4.tryJoin b g h.initialSeg h.entry else s4
  if (m.slot m.runningSlot).state = 0 then s5.scheduleOr b (fun s => s.endIssue b) else s5.showExec b

/-! ### PROGRAM_START and PROGRAM_RESUME (R128, R129, R139) -/

/-- Opcodes of the two commands. -/
def opStart : Nat := 0x10
def opResume : Nat := 0x12

/-- Breaches of R128 and R129 that the entry, the group and its settings show without a read. -/
def State.startBad (s : State) (c : Cmd) (frame : Nat) (used : List (Nat × Nat)) : Bool :=
  let b := c.target
  let bg := c.field 33 1
  c.reservedSet used || decide (4 ≤ c.field 32 1) || s.notLeader b || decide (s.enabledMask b = 0) ||
  decide (2 ^ 48 ≤ frame) || decide (frame % 512 ≠ 0) || !s.hasTranslation frame ||
  (decide (bg ≠ 255) && decide (16 < bg + (s.group b).size)) || s.settingsBad b

/-- The micro-state, image and replays of a pre-emption frame (R139, R145). -/
def frameMicro (d : List Byte) : Micro :=
  { pc := fieldOf d 16 3, wordPc := fieldOf d 20 3, repeatLeft := fieldOf d 24 4, segment := fieldOf d 28 2
    lastSafe := fieldOf d 32 3, lc := (List.range 4).map (fun i => fieldOf d (48 + 4 * i) 3)
    stack := (List.range (min (fieldOf d 96 1) 8)).map (fun i => fieldOf d (64 + 4 * i) 3)
    mask := fieldOf d 112 1, fail := fieldOf d 115 1, failLast := fieldOf d 116 1, matchBits := fieldOf d 117 1
    retired := fieldOf d 118 1, flags := (List.range 4).map (fun i => fieldOf d (120 + i) 1)
    runningSlot := fieldOf d 124 1 % 8
    slots := (List.range 8).map (fun i =>
      let w := fieldOf d (128 + 8 * i) 8
      { sites := bitsOf w 0 8, addr := bitsOf w 8 24, state := bitsOf w 32 2 })
    siteRegs := (List.range 8).map (fun i => fieldOf d (192 + 8 * i) 8)
    streamBlock := bitsOf (fieldOf d 256 4) 0 20, streamVector := fieldOf d 260 2, streamSeq := fieldOf d 264 8 }

/-- The frame, as far as it could be read, breaks R139 for the group led by b. -/
def State.frameBad (s : State) (b : Nat) (l : List (Option Byte)) : Bool :=
  (readPart l 0 8).any (fun d => decide (fieldOf d 0 4 ≠ 0x454D5246) || decide (fieldOf d 4 1 ≠ 1) ||
    decide (fieldOf d 7 1 ≠ (s.group b).size)) ||
  (readPart l 113 1).any (fun d => (setBits (fieldOf d 0 1) 8).any (fun p => (s.sitePos b p).isNone))

/-- Command `c` waits in the list of starts, once (R129). -/
def State.keepStart (s : State) (c : Cmd) : State :=
  if s.starts.contains c then s else ({ s with starts := s.starts ++ [c] } : State).showExec c.target

/-- Command `c` leaves the list of starts and completes. -/
def State.endStart (s : State) (c : Cmd) (st res : Nat) : State :=
  (({ s with starts := s.starts.erase c } : State).complete c st res).showExec c.target

/-- The rest of a start once its own reads are made, on the state `s0` before them: the first code of R15 that applies, a
page wait, power, the group whose positions are all closed, or admission (R15, R129). -/
def State.startWith (s s0 : State) (c : Cmd) (bad : Bool) (p : Pre) (image frame : Nat) (h : Option (Header × List (Nat × Nat × Nat)))
    (resumed : Option (Micro × Nat)) : State :=
  let b := c.target
  let us := s.groupUnits b ++ [memUnit, headboxUnit]
  if bad || p.bad then s.endStart c 0x7F 0
  else if us.any (fun u => !s.present u) then s.endStart c 0x21 0
  else if us.any (fun u => !s.ready u) then s.endStart c 0x22 0
  else if p.waits then (s0.keepRequests s).keepStart c
  else
    match p.fail, h with
    | some st, _ => s.endStart c st 0
    | none, none => s.endStart c 0x7F 0
    | none, some (h, holds) =>
      if !s.powerFits b h then (if bitOf (c.field 32 1) 0 then s.keepStart c else s.endStart c 0x70 0)
      else if s.openMask b = 0 then
        (s.endStart c 0x40 (startResult (List.replicate 8 0x40) (s.enabledMask b) 0 0)).raiseIdle
      else ({ s with starts := s.starts.erase c } : State).admitProgram b c image frame h holds resumed

/-- A program start is taken up: no earlier program of its group runs (R129). Of a frame that could not be read, the checks
of R139 on the bytes that could be are made, and none on the image that it names (R15). -/
def State.tryStart (s : State) (c : Cmd) : State :=
  let b := c.target
  if c.opcode = opStart then
    let image := c.field 8 8
    let frame := c.field 24 8
    if s.startBad c frame [(8, 8), (16, 8), (24, 8), (32, 1), (33, 1)] || decide (2 ^ 48 ≤ image) || decide (image % 4096 ≠ 0) then
      s.endStart c 0x7F 0
    else
      let r := s.readImage b image
      r.2.2.startWith s c false r.2.1 image frame r.1 none
  else
    let frame := c.field 8 8
    if s.startBad c frame [(8, 8), (16, 8), (32, 1), (33, 1)] then s.endStart c 0x7F 0
    else
      let q := s.preRead { engine := 8, unit := b } frame 512
      let bad := s.frameBad b q.1
      match readPart q.1 0 16 with
      | none => q.2.2.startWith s c bad q.2.1 0 frame none none
      | some d0 =>
        let image := fieldOf d0 8 6
        if bad then q.2.2.startWith s c true q.2.1 image frame none none
        else
          let r := q.2.2.readImage b image
          let d := q.1.map (fun x => x.getD 0)
          r.2.2.startWith s c false (q.2.1.and r.2.1) image frame r.1 (some (frameMicro d, fieldOf d 30 2))

/-- A start of the group of command `c` is queued or runs before it (R129). -/
def State.startBehind (s : State) (c : Cmd) : Bool :=
  (s.program c.target).isSome || s.starts.any (fun x => decide (x.target = c.target) && decide (x ≠ c))

/-- PROGRAM_START and PROGRAM_RESUME: behind a program of the group they wait, else they are taken up (R129). -/
def doProgramStart (c : Cmd) (s : State) : State := if s.startBehind c then s.keepStart c else s.tryStart c

/-- PROGRAM_ADMIT: the first waiting start of the group led by b is taken up again: the earlier program has ended, or
power fits, or its page has come (R129). -/
def doProgramAdmit (b : Nat) (s : State) : State :=
  if (s.program b).isSome then s
  else
    match s.starts.find? (fun c => decide (c.target = b)) with
    | some c => s.tryStart c
    | none => s

/-! ### The end of a program (R20, R45, R72, R129) -/

/-- A measurement was armed by a trigger of the program of group b. -/
def MeasOrigin.ofProgram (o : MeasOrigin) (b : Nat) : Bool :=
  match o with
  | .trigger l _ => decide (l = b)
  | _ => false

/-- Everything that a completion waits for has happened: the vectors issued are applied, the records are in memory, the
readings are accepted, the frames are written (R20, R45, R101). -/
def State.programDone (s : State) (b : Nat) (g : Program) : Bool :=
  g.ended && g.outstanding.isEmpty && g.triggers.isEmpty && g.analog.isEmpty && g.pendingReadings.isEmpty &&
  g.frameWrites.isEmpty && s.popDrained b &&
  (s.members b).all (fun n => (s.seqRec n).elastic.isEmpty && (s.seqRec n).losses.isEmpty && (s.seqRec n).deckles.isEmpty &&
    (SMap.get {} s.tmus n).arm.all (fun m => !m.origin.ofProgram b)) &&
  (s.groupClusters b).all (fun c => (SMap.get {} s.dgs c).arm.all (fun m => !m.origin.ofProgram b))

/-- Frames of sequencer n unpin (R121). -/
def State.unpinFrames (s : State) (n : Nat) : State :=
  (s.modSeq n (fun q => { q with frames := q.frames.map (fun f => (f.1, { f.2 with pinned := false })) })).showFrames n

/-- The group's engines abandon the accesses that still wait on a page (R318). -/
def State.abandonGroup (s : State) (b : Nat) : State :=
  (s.members b).foldl (fun s n => [0, 1, 8].foldl (fun s e => s.abandon e n) s) s

/-- The program of the group led by b completes with the statuses of its positions; its pins apply its hold vector at
the levels in force once the held writes are applied, unless they are halted. DESIGN CHOICE: of the held writes of a cluster, edges
and formats are applied and checked first, then periods, then FREQ; the spec gives no order. Log entry 33 (R20, R53, R72, R76,
R81, R129). -/
def State.finishProgram (s : State) (b : Nat) (g : Program) : State :=
  let st := startStatus g.status g.part
  let s1 := ((s.abandonGroup b).idleStreams b |>.complete g.cmd st (startResult g.status g.part g.replays g.traps))
  let s2 := { s1 with programs := SMap.del s1.programs b }
  let s3 := (s.members b).foldl (fun s n => (s.unpinFrames n).releasePins n) s2
  let s4 := (s.groupClusters b).foldl (fun s c => s.releaseCluster c) s3
  let s5 := (if g.halted then s4 else s4.applyHold b g 255).showExec b
  let sites := (setBits g.part 8).map (fun p => (s.siteNumber b p, g.status.getD p 0))
  let s6 := sites.foldl (fun s x => s.popLeave x.1) s5
  let runs := sites.foldl (fun m x => SMap.put m x.1 { SMap.get ({} : SiteRun) m x.1 with last := x.2 }) s6.sec.sites
  (({ s6 with sec := { s6.sec with sites := runs } } : State).showFreezes).raiseIdle

/-- PROGRAM_END: the program of the group led by b completes, once everything its completion waits for has happened
(R20). -/
def doProgramEnd (b : Nat) (s : State) : State :=
  match (s.settleResults b).program b with
  | none => s
  | some g => if (s.settleResults b).programDone b g then (s.settleResults b).finishProgram b g else s

end Sys2Proof.Machine
end

