-- ==== Sys2Proof/Machine/Dps.lean ====
section
/-! DEFINITION. Device power channels and window monitors (spec/12). -/

namespace Sys2Proof.Machine

open Sys2Proof

/-! ### Records and gangs -/

/-- DPS channel n's record, and the state with it changed. -/
def State.dpsRec (s : State) (n : Nat) : Dps := SMap.get {} s.dps n
def State.modDps (s : State) (n : Nat) (f : Dps → Dps) : State := { s with dps := SMap.put s.dps n (f (s.dpsRec n)) }

/-- Leader of channel n's gang; a channel alone leads itself (R259). -/
def State.dpsLeader (s : State) (n : Nat) : Nat := s.afld (Reg.DPS_CTRL_GANG_LEADER n)

/-- Channel n leads its gang or stands alone (R259). -/
def State.dpsLeads (s : State) (n : Nat) : Bool := decide (s.dpsLeader n = n)

/-- STATE of channel n (R257). -/
def State.dpsState (s : State) (n : Nat) : Nat := s.fld (Reg.DPS_STATUS_STATE n)

/-- The group led by the leader and the position of channel n's site hold it, and the position is enabled (R260). -/
def State.dpsEnabledSite (s : State) (n : Nat) : Option (Nat × SitePos) :=
  match s.dpsSite n with
  | some (b, x) => if bitOf (s.enabledMask b) x.position then some (b, x) else none
  | none => none

/-- The Deckle of the channel's site is closed; a closed position that has been disabled since stays closed (R44, R260, R266). -/
def State.dpsClosed (s : State) (n : Nat) : Bool :=
  match s.dpsSite n with
  | some (b, x) => bitOf (s.closedMask b) x.position
  | none => false

/-- A program runs on the group of the channel's site (R266, R267). -/
def State.dpsRuns (s : State) (n : Nat) : Bool :=
  match s.dpsSite n with
  | some (b, _) => (s.program b).isSome
  | none => false

/-! ### Settings (R253, R268) -/

/-- The settings of channel n. -/
def dpsFields (n : Nat) : List Fld :=
  [Reg.DPS_CTRL_GANG_LEADER n, Reg.DPS_CTRL_MEAS_QTY n, Reg.DPS_CTRL_AVG_LOG2 n, Reg.VSET n, Reg.STAGE_R_SHUNT n,
    Reg.STAGE_DEAD_TIME n, Reg.RAMP_RAMP_UP n, Reg.RAMP_RAMP_DOWN n, Reg.ILIM_I_SRC_LIM n, Reg.ILIM_I_SNK_LIM n,
    Reg.LOOP_B0 n, Reg.LOOP_B1 n, Reg.LOOP_SLOPE n, Reg.VWIN_VWIN_LO n, Reg.VWIN_VWIN_HI n, Reg.IWIN_IWIN_LO n,
    Reg.IWIN_IWIN_HI n, Reg.MON_FILTER n, Reg.MON_V_EN n, Reg.MON_I_EN n, Reg.MON_BLANK n, Reg.MON_ACTION n, Reg.MON_EV_EN n,
    Reg.MON_EV_SEL n, Reg.MON_BG_CHECK n]

/-- 100 mV in µV × 10^6: full scale times the shunt, FS × R_SHUNT, in µA × µΩ (R255). -/
def fullScale : Int := 100000000000

/-- VSET of channel n, as written, exceeds the ceiling (R52, R268). -/
def State.dpsAboveCeiling (s : State) (n : Nat) : Bool := decide ((s.fuse.ceiling : Int) < s.sfld (Reg.VSET n))

/-- The settings of channel n, as written, are valid (R268). -/
def State.dpsValid (s : State) (n : Nat) : Bool :=
  let r : Int := s.fld (Reg.STAGE_R_SHUNT n)
  let l := s.fld (Reg.DPS_CTRL_GANG_LEADER n)
  within 0 6500000 (s.sfld (Reg.VSET n)) && !s.dpsAboveCeiling n && within 1000 1000000 r &&
  within 5 100 (s.fld (Reg.STAGE_DEAD_TIME n)) && within 100 10000000 (s.fld (Reg.RAMP_RAMP_UP n)) &&
  within 100 10000000 (s.fld (Reg.RAMP_RAMP_DOWN n)) && within 0 fullScale (s.sfld (Reg.ILIM_I_SRC_LIM n) * r) &&
  within (-fullScale) 0 (s.sfld (Reg.ILIM_I_SNK_LIM n) * r) && decide (s.fld (Reg.LOOP_B0 n) ≠ 0) &&
  decide (s.sfld (Reg.VWIN_VWIN_LO n) < s.sfld (Reg.VWIN_VWIN_HI n)) &&
  decide (s.sfld (Reg.IWIN_IWIN_LO n) < s.sfld (Reg.IWIN_IWIN_HI n)) && decide (s.fld (Reg.DPS_CTRL_AVG_LOG2 n) ≤ 10) &&
  decide (s.fld (Reg.DPS_CTRL_MEAS_QTY n) ≠ 3) && s.present (l / 2) && decide (l ≤ n) && (decide (l = n) || s.dpsLeads l)

/-! ### Window monitor (R263, R264) -/

/-- Bounds of channel n that are armed: bits 0 and 1 voltage, 2 and 3 current (R263). -/
def State.dpsArmed (s : State) (n : Nat) : Nat :=
  let st := s.dpsState n
  (if s.afld (Reg.MON_V_EN n) ≠ 0 ∧ st = 2 ∧ (s.dpsRec n).blanked then 3 else 0) +
  (if s.afld (Reg.MON_I_EN n) ≠ 0 ∧ 1 ≤ st ∧ st ≤ 3 then 12 else 0)

/-- TRIP_LIVE of channel n follows its bounds (R263). -/
def State.showTrip (s : State) (n : Nat) : State :=
  s.setFlag (Reg.DPS_STATUS_TRIP_LIVE n) (decide (andMask (s.dpsArmed n) (s.dpsRec n).outside ≠ 0))

/-- Some bound that is armed, and was not, is outside: the channels of the gang led by l have their TRIP_LIVE (R263). -/
def State.showTrips (s : State) (l : Nat) : State := (s.gangOf l).foldl State.showTrip s

/-! ### States and ramps (R257, R259, R260, R266) -/

/-- Waiting DPS_RUN commands of the gang led by l with the given ACTION complete (R266). -/
def State.endRuns (s : State) (l action st : Nat) : State :=
  let gone := (s.dpsRec l).runs.filter (fun c => decide (c.field 8 1 = action))
  gone.foldl (fun s c => s.complete c st (s.dpsState l * 2 ^ 128))
    (s.modDps l (fun d => { d with runs := d.runs.filter (fun c => decide (c.field 8 1 ≠ action)) }))

/-- The gang led by l enters a state: STATE of every member, the voltage bounds disarmed (R257, R259, R263). -/
def State.dpsEnter (s : State) (l st : Nat) : State :=
  ((s.gangOf l).foldl (fun s n => (s.setFld (Reg.DPS_STATUS_STATE n) st).modDps n (fun d => { d with blanked := false })) s).showTrips l

/-- An on request of the gang led by l (R257, R267): DPS_RUN commands that waited for state 0 end. -/
def State.dpsOnReq (s : State) (l : Nat) : State :=
  let st := s.dpsState l
  if st = 0 then (s.modDps l (fun d => { d with e1 := 0, i1 := 0 })).dpsEnter l 1
  else if st = 3 then (s.endRuns l 1 1).dpsEnter l 1
  else s

/-- An off request of the gang led by l (R257, R267): DPS_RUN commands that waited for state 2 end with `status`. -/
def State.dpsOffReq (s : State) (l status : Nat) : State :=
  let st := s.dpsState l
  if st = 1 ∨ st = 2 then (s.endRuns l 0 status).dpsEnter l 3 else s

/-- Gang leaders among a site's channels, in ascending order (R261). -/
def State.dpsUnits (s : State) (x : SitePos) : List Nat :=
  ((List.range 64).filter (fun n => x.dps.contains n)).filter s.dpsLeads

/-- Every channel of a site ramps down: disabling, or a Deckle closure with its status (R43, R257, R260). -/
def State.dpsSiteOff (s : State) (x : SitePos) (status : Nat) : State :=
  (s.dpsUnits x).foldl (fun s l => s.dpsOffReq l status) s

/-- 1/FSW µV in V_REF's unit (R257): the frequency in force of the channel's switching group. -/
def State.dpsFsw (s : State) (n : Nat) : Nat := s.afld (Reg.SWG_FSW (n % 2))

/-- Where V_REF goes: VSET in states 1 and 2, 0 in state 3 and off, in units of 1/FSW µV (R257). -/
def State.dpsTarget (s : State) (l : Nat) : Nat :=
  if s.dpsState l = 1 ∨ s.dpsState l = 2 then s.afld (Reg.VSET l) * s.dpsFsw l else 0

/-- V_REF a cycle later (R257): it moves by the ramp rate × 1/FSW and stops exactly at its target. -/
def rampTo (vref target step : Nat) : Nat :=
  if vref ≤ target then min target (vref + step) else max target (vref - step)

/-- Rate of the ramp: RAMP_UP in state 1, RAMP_DOWN in state 3; in state 2, RAMP_UP upwards and RAMP_DOWN downwards (R257). -/
def State.dpsStep (s : State) (l : Nat) : Nat :=
  let st := s.dpsState l
  let up := decide (st = 1) || (decide (st = 2) && decide ((s.dpsRec l).vref ≤ s.dpsTarget l))
  1000000 * (if up then s.afld (Reg.RAMP_RAMP_UP l) else s.afld (Reg.RAMP_RAMP_DOWN l))

/-- One step of V_REF (R257). -/
def State.dpsRamp (s : State) (l : Nat) : State :=
  let v := rampTo (s.dpsRec l).vref (s.dpsTarget l) (s.dpsStep l)
  s.modDps l (fun d => { d with vref := v })

/-- A Deckle closure turns the gang led by l down and takes the first step of the ramp at once; in state 0 or 3 nothing further
changes (R43, R257, R267). -/
def State.dpsDeckleOff (s : State) (l : Nat) : State :=
  let st := s.dpsState l
  let s1 := s.dpsOffReq l 0x40
  if st = 1 ∨ st = 2 then s1.dpsRamp l else s1

/-- The settings written to channel n are put in force if valid; CFG_ERR and CEILING follow (R268). A VSET that differs
starts a ramp, which disarms the voltage bounds (R257, R263). -/
def State.applyDps (s : State) (n : Nat) : State :=
  let ok := s.dpsValid n
  let moved := s.afld (Reg.VSET n)
  let s1 := if ok then s.applyFlds (dpsFields n) else s
  let s2 := (s1.setFlag (Reg.DPS_STATUS_CFG_ERR n) (!ok)).setFlag (Reg.DPS_STATUS_CEILING n) (s.dpsAboveCeiling n)
  let s3 := if s2.dpsLeads n && decide (s2.afld (Reg.VSET n) ≠ moved) && decide (s2.dpsState n = 2) then
      (s2.gangOf n).foldl (fun s m => s.modDps m (fun d => { d with blanked := false })) s2
    else s2
  s3.showTrips (s3.dpsLeader n)

/-- A write to channel n's block: held while a program runs on its site's group (R267), else put in force. -/
def State.dpsWritten (s : State) (n : Nat) : State :=
  if s.dpsRuns n then (s.modDps n (fun d => { d with held := true })).setFlag (Reg.DPS_STATUS_PENDING n) true else s.applyDps n

/-- The held writes of channel n are put in force. -/
def State.takeDps (s : State) (n : Nat) : State :=
  if (s.dpsRec n).held then
    ((s.modDps n (fun d => { d with held := false })).setFlag (Reg.DPS_STATUS_PENDING n) false).applyDps n
  else s

/-- The held writes of channel n are put in force once no program runs on its site's group. -/
def State.dpsRelease (s : State) (n : Nat) : State := if !s.dpsRuns n then s.takeDps n else s

/-- FSW and PHASE of switching group k as written are put in force; an FSW out of its span is not applied (R253, R268). -/
def State.applySwg (s : State) (k : Nat) : State :=
  let f := s.fld (Reg.SWG_FSW k)
  let s1 := if 500000 ≤ f ∧ f ≤ 4000000 then s.applyFld (Reg.SWG_FSW k) else s
  if k = 1 then s1.applyFld (Reg.SWG_PHASE k) else s1

/-- A channel of switching group k is not in state 0 (R253). -/
def State.swgBusy (s : State) (k : Nat) : Bool := (List.range 64).any (fun n => decide (n % 2 = k) && decide (s.dpsState n ≠ 0))

/-- A write to SWGk: held while a channel of the group is not in state 0 (R253). -/
def State.swgWritten (s : State) (k : Nat) : State :=
  if s.swgBusy k then ({ s with swgHeld := addOnce k s.swgHeld } : State).setFlag (Reg.SWG_PENDING k) true else s.applySwg k

/-- The held writes of switching group k are put in force once every channel of it is in state 0 (R253). -/
def State.swgRelease (s : State) (k : Nat) : State :=
  if s.swgHeld.contains k && !s.swgBusy k then
    (({ s with swgHeld := s.swgHeld.erase k } : State).setFlag (Reg.SWG_PENDING k) false).applySwg k
  else s

/-! ### Conversions and the outer loop (R252, R261) -/

/-- Voltage of N conversions whose codes sum to `sum`, µV (R261, R409): LSB 8 V / 2^20. -/
def dpsVolts (gain offset sum n : Int) : Int :=
  roundAway (8000000 * gain * (64 * sum - offset * n)) (2 ^ 20 * 2 ^ 30 * 64 * n) + 3500000

/-- Current of N conversions whose codes sum to `sum`, µA (R261, R409): LSB 200 mV / 2^20 over the shunt in µΩ. -/
def dpsAmps (gain offset shunt sum n : Int) : Int :=
  roundAway (2 * fullScale * gain * (64 * sum - offset * n)) (2 ^ 20 * 2 ^ 30 * 64 * n * shunt)

/-- One conversion's voltage and current on channel n (R252, R261). -/
def State.dpsVolt (s : State) (n : Nat) (code : Int) : Int := dpsVolts (s.calGain 5 n 1) (s.calOffset 5 n 1) code 1
def State.dpsAmp (s : State) (n : Nat) (code : Int) : Int :=
  dpsAmps (s.calGain 5 n 2) (s.calOffset 5 n 2) (s.afld (Reg.STAGE_R_SHUNT n)) code 1

/-- The reference with its calibration correction, µV: round(GAIN × V_REF / 2^30) + V_OFFSET (R252, R258, R409). -/
def State.dpsVref (s : State) (l : Nat) : Int :=
  roundAway (s.calGain 5 l 0 * ((s.dpsRec l).vref : Int)) (2 ^ 30 * (s.dpsFsw l : Int)) + s.calOffset 5 l 0

/-- A number brought into [lo, hi]. -/
def clampTo (lo hi x : Int) : Int := if x < lo then lo else if hi < x then hi else x

/-- Threshold of channel n's peak comparator t ns after GH rose, in µA × µΩ: i[k−1] of its gang's leader over its own shunt, less
its own slope (R252, R259). -/
def State.dpsPeak (s : State) (n t : Nat) : Int :=
  (s.dpsRec (s.dpsLeader n)).i1 * (s.afld (Reg.STAGE_R_SHUNT n) : Int) - 10000 * (s.afld (Reg.LOOP_SLOPE n) : Int) * t

/-- Length of a high-side pulse that the comparator would end `t` ns after GH rose: at least 60 ns, and over by 90 % of the cycle
(R252). -/
def State.dpsPulse (s : State) (n t : Nat) : Nat :=
  min (max 60 t) (900000000 / s.dpsFsw n - s.afld (Reg.STAGE_DEAD_TIME n))

/-- GH and GL of channel n, `at'` ns into a cycle whose high-side pulse lasts `on` ns: each switch-on waits DEAD_TIME after the other
switch-off; off, or in a cluster in reset, both are low (R251, R252). -/
def State.dpsGates (s : State) (n on at' : Nat) : Bool × Bool :=
  let dead := s.afld (Reg.STAGE_DEAD_TIME n)
  let live := decide (s.dpsState n ≠ 0) && !s.blockOff (Reg.dpsB n)
  (live && decide (dead ≤ at') && decide (at' < dead + on), live && decide (dead + on + dead ≤ at'))

/-- One step of the outer loop with voltage v (R252): i[k], e[k] and whether the clamp changed the value. -/
def State.dpsLoop (s : State) (l : Nat) (v : Int) : (Int × Int) × Bool :=
  let d := s.dpsRec l
  let e := s.dpsVref l - v
  let x := d.i1 + roundAway (s.asfld (Reg.LOOP_B0 l) * e + s.asfld (Reg.LOOP_B1 l) * d.e1) 1024
  let i := clampTo (s.asfld (Reg.ILIM_I_SNK_LIM l)) (s.asfld (Reg.ILIM_I_SRC_LIM l)) x
  ((i, e), decide (i ≠ x))

/-- A code at either end of its span (R261). -/
def codeAtEnd (c : BitVec 20) : Bool := decide (c.toInt = -524288) || decide (c.toInt = 524287)

/-- One more conversion of channel n for the reading in progress of its gang; the constants are those in force at its
first (R261, R267). -/
def State.dpsGather (s : State) (n : Nat) (v i : BitVec 20) : State :=
  match (s.dpsRec (s.dpsLeader n)).meas with
  | none => s
  | some m =>
    let x := (s.dpsRec n).sums
    if 2 ^ m.avgLog2 ≤ x.count then s
    else
      let y := if x.count = 0 then
          { x with gainV := s.calGain 5 n 1, offV := s.calOffset 5 n 1, gainI := s.calGain 5 n 2, offI := s.calOffset 5 n 2 }
        else x
      let z : DpsSum := { y with count := y.count + 1, sumV := y.sumV + v.toInt, sumI := y.sumI + i.toInt
                                 overV := y.overV || codeAtEnd v, overI := y.overI || codeAtEnd i }
      let s1 := s.modDps n (fun d => { d with sums := z })
      if n = s.dpsLeader n then
        let w := if x.count = 0 then { m with start := s.now } else m
        let m1 := { w with clamped := m.clamped || s.flag (Reg.DPS_STATUS_ILIMIT n), suspect := m.suspect || s.supplySuspect }
        s1.modDps n (fun d => { d with meas := some m1 })
      else s1

/-- The end of a ramp: state 1 at VSET is state 2; state 3 at 0 V with the output below 20 mV is state 0 (R257). -/
def State.dpsRampEnd (s : State) (l : Nat) (v : Int) : State :=
  let d := s.dpsRec l
  if s.dpsState l = 1 ∧ d.vref = s.dpsTarget l then (s.dpsEnter l 2).endRuns l 0 0
  else if s.dpsState l = 3 ∧ d.vref = 0 ∧ v < 20000 then
    let s1 := (s.dpsEnter l 0).endRuns l 1 0
    (s.gangOf l).foldl (fun s n => s.setFlag (Reg.DPS_STATUS_ILIMIT n) false) s1
  else s

/-- DPS_SWITCHING_CYCLE (R252, R257, R259, R261): a cycle of channel n with its two conversions. A leader ramps and runs
the loop for its gang; every channel's conversions go to the reading in progress. -/
def doDpsCycle (n : Nat) (v i : BitVec 20) (s : State) : State :=
  if s.blockOff (Reg.dpsB n) then s
  else if s.dpsLeads n && decide (s.dpsState n ≠ 0) then
    let s1 := s.dpsRamp n
    let r := s1.dpsLoop n (s1.dpsVolt n v.toInt)
    let s2 := s1.modDps n (fun d => { d with i1 := r.1.1, e1 := r.1.2 })
    let s3 := (s2.gangOf n).foldl (fun s m => s.setFlag (Reg.DPS_STATUS_ILIMIT m) r.2) s2
    (s3.dpsGather n v i).dpsRampEnd n (s1.dpsVolt n v.toInt)
  else s.dpsGather n v i

/-! ### Readings (R170, R173, R261, R267) -/

/-- KIND of a DPS reading: 3 voltage or 4 current, and the conversions averaged; the field holds 0 to 256, and what it
reads beyond is not stated. -/
def State.dpsKind (s : State) (quantity n : Nat) : Nat × State :=
  if n ≤ 256 then (quantity + 16 * n, s)
  else
    let r := s.draw 9
    (quantity + 16 * r.1, r.2)

/-- One reading of channel l goes to its record, the population engine and the conditions (R65, R67, R261). -/
def State.dpsDeliver (s : State) (l quantity : Nat) (m : DpsMeas) (test status n : Nat) (value : Int) (flags : Nat) : State :=
  let k := s.dpsKind quantity n
  let s1 := if m.toRecord then
      k.2.enterRecord m.leader
        { queue := m.queue, typ := 2, status := status, test := test, cellTime := m.start
          site := match m.site with | some x => siteWord x flags | none => noSite + 512 * flags
          payload := readingPayload (0x8000 + l) k.1 m.word value }
    else s
  let s2 := match m.toPop, m.site with
    | true, some x => s1.popPush { site := x, test := test, value := value, status := status, flags := flags, cellTime := m.start
                                   leader := m.leader, position := m.position }
    | _, _ => s1
  match m.origin with
  | .trigger b serial => s2.conditionReading b serial { position := m.position, value := value, status := status, flags := flags }
  | _ => s2

/-- Every reading of measurement m of channel l is delivered with a status (R261), the conversions averaged, and the
quantities with their flags; a DPS_RUN completes with them (R266). -/
def State.dpsFinish (s : State) (l : Nat) (m : DpsMeas) (status n : Nat) (v i : Int) (flagsV flagsI : Nat) : State :=
  let s1 := if m.qty ≤ 1 then s.dpsDeliver l 3 m m.test status n v flagsV else s
  let s2 := if m.qty = 1 then s1
    else s1.dpsDeliver l 4 m ((m.test + (if m.qty = 0 then 1 else 0)) % 65536) status n i flagsI
  match m.origin with
  | .measure c =>
    s2.complete c status ((if m.qty ≤ 1 then ofSigned 64 v else 0) + 2 ^ 64 * (if m.qty = 1 then 0 else ofSigned 64 i) +
      2 ^ 128 * s2.dpsState l)
  | _ => s2

/-- The readings that channels of the group led by b still gather for triggers numbered above `serial` go nowhere: a replay has
undone the triggers (R138). -/
def State.dpsDropSince (s : State) (b serial : Nat) : State :=
  ((s.group b).positions.flatMap (fun x => x.dps)).foldl (fun s l => s.modDps l (fun d =>
    { d with meas := d.meas.map (fun m =>
      match m.origin with
      | .trigger c k => if c = b ∧ serial < k then { m with toRecord := false, toPop := false } else m
      | _ => m) })) s

/-- The measurement of channel l ends: nothing more is gathered. -/
def State.dpsForget (s : State) (l : Nat) : State :=
  (s.gangOf l).foldl (fun s n => s.modDps n (fun d => { d with sums := {} })) (s.modDps l (fun d => { d with meas := none }))

/-- The measurement of channel l ends before its last conversion: value 0 with the conversions taken (R69, R182, R267). -/
def State.dpsCut (s : State) (l status : Nat) : State :=
  match (s.dpsRec l).meas with
  | none => s
  | some m =>
    let f := 4 * b2n m.suspect
    (s.dpsForget l).dpsFinish l m status (s.dpsRec l).sums.count 0 0 f f

/-- Measurement m of channel l starts, or is refused: 0x22 during a level-2 check (R267), 0x01 while another runs. -/
def State.dpsBegin (s : State) (l : Nat) (m : DpsMeas) : State :=
  let f := 4 * b2n m.suspect
  if (s.gangOf l).any (fun n => (s.dpsRec n).level2) then s.dpsFinish l m 0x22 0 0 0 f f
  else if (s.dpsRec l).meas.isSome then s.dpsFinish l m 1 0 0 0 f f
  else s.modDps l (fun d => { d with meas := some m })

/-- DPS_READING: the last conversion of channel l's reading has ended on every channel of its gang (R259, R261). -/
def doDpsReading (l : Nat) (s : State) : State :=
  match (s.dpsRec l).meas with
  | none => s
  | some m =>
    let n := 2 ^ m.avgLog2
    let gang := s.gangOf l
    if gang.any (fun x => decide ((s.dpsRec x).sums.count < n)) then s
    else
      let d := (s.dpsRec l).sums
      let v := dpsVolts d.gainV d.offV d.sumV n
      let i := (gang.map (fun x =>
        let y := (s.dpsRec x).sums
        dpsAmps y.gainI y.offI (s.afld (Reg.STAGE_R_SHUNT x)) y.sumI n)).foldl (· + ·) 0
      let f := 2 * b2n m.clamped + 4 * b2n m.suspect
      let s1 := if m.qty ≤ 1 then s.setFld (Reg.DPS_LAST_V l) (ofSigned 64 v) else s
      let s2 := if m.qty = 1 then s1 else s1.setFld (Reg.DPS_LAST_I l) (ofSigned 64 i)
      (s2.dpsForget l).dpsFinish l m 0 n v i (b2n d.overV + f) (b2n (gang.any (fun x => (s.dpsRec x).sums.overI)) + f)

/-- DPS_READ_TRIGGER: a trigger of KIND 0x4 of the group led by b measures each gang or channel of its open sites (R112,
R261). -/
def doDpsReadTrigger (b : Nat) (s : State) : State :=
  match s.dueTrigger b 4 with
  | none => s
  | some (_, t) =>
    let sites := andMask t.sites (s.openMask b)
    let units := ((s.group b).positions.filter (fun x => bitOf sites x.position)).flatMap (fun x =>
      (s.dpsUnits x).zipIdx.map (fun u => (x, u.1, u.2)))
    let count := (units.map (fun u => if s.afld (Reg.DPS_CTRL_MEAS_QTY u.2.1) = 0 then 2 else 1)).sum
    units.foldl
      (fun s u =>
        let q := s.afld (Reg.DPS_CTRL_MEAS_QTY u.2.1)
        s.dpsBegin u.2.1
          { origin := .trigger b t.serial, leader := b, position := u.1.position, site := some u.1.site
            test := (t.base + (if q = 0 then 2 else 1) * u.2.2) % 65536, toPop := t.toPop, toRecord := t.toRecord
            queue := t.queue, word := t.word, qty := q, avgLog2 := s.afld (Reg.DPS_CTRL_AVG_LOG2 u.2.1), start := s.now
            suspect := s.supplySuspect })
      (s.firedTrigger b count)

/-- DPS_ON and DPS_OFF of a program: every gang or channel of the open sites (R113, R260). -/
def State.dpsSwitch (s : State) (b code : Nat) (f : State → Nat → State) : State :=
  match s.dueAnalog b code with
  | none => s
  | some (_, sites) =>
    ((s.group b).positions.filter (fun x => bitOf (andMask sites (s.openMask b)) x.position)).foldl
      (fun s x => (s.dpsUnits x).foldl f s) (s.firedAnalog b)

/-- DPS_ON (R113, R257). -/
def doDpsOn (b : Nat) (s : State) : State := s.dpsSwitch b 8 State.dpsOnReq

/-- DPS_OFF (R113, R257). -/
def doDpsOff (b : Nat) (s : State) : State := s.dpsSwitch b 9 (fun s l => s.dpsOffReq l 1)

/-! ### Window monitor rows (R263 to R265) -/

/-- DPS_WINDOW_TRIP: armed bounds of channel n (bit 0 VWIN_HI, 1 VWIN_LO, 2 IWIN_HI, 3 IWIN_LO) have been outside for
FILTER (R263, R264). -/
def doDpsWindowTrip (n : Nat) (bounds : BitVec 4) (s : State) : State :=
  let k := andMask bounds.toNat (s.dpsArmed n)
  if k = 0 ∨ s.blockOff (Reg.dpsB n) then s
  else
    let s1 := (s.modDps n (fun d => { d with outside := orMask d.outside k })).showTrip n
    let s2 := (((s1.setFlag (Reg.DPS_STATUS_TRIP n) true).setFld (Reg.DPS_STATUS_TRIP_KIND n) k).bump (Reg.DPS_TRIPS n) 1).raise 5 n k
    let s3 := if s.afld (Reg.MON_EV_EN n) = 0 then s2
      else
        let e := s.afld (Reg.MON_EV_SEL n)
        let x := SMap.get {} s2.ev.lines e
        { s2 with ev := { s2.ev with lines := SMap.put s2.ev.lines e { x with trips := addOnce n x.trips } } }
    match s3.dpsEnabledSite n with
    | some (b, x) => s3.assertCause b x.position 0
    | none => if s.afld (Reg.MON_ACTION n) = 0 then s3 else s3.dpsOffReq (s3.dpsLeader n) 1

/-- DPS_BOUND_INSIDE: every bound of channel n reads inside again (R263). -/
def doDpsBoundInside (n : Nat) (s : State) : State := (s.modDps n (fun d => { d with outside := 0 })).showTrip n

/-- BLANK_EXPIRY: channel n has been in state 2 for BLANK µs since its last ramp (R263). -/
def doBlankExpiry (n : Nat) (s : State) : State :=
  if s.dpsState n = 2 then (s.modDps n (fun d => { d with blanked := true })).showTrip n else s

/-- DPS_DISAGREE: a comparator of a bound of channel n has disagreed for more than 1 µs (R263). -/
def doDpsDisagree (n : Nat) (bound : BitVec 4) (s : State) : State :=
  if s.blockOff (Reg.dpsB n) then s else (s.setFlag (Reg.DPS_STATUS_DISAGREE n) true).raise 16 n bound.toNat

/-- A check of channel n's monitor at level 1 or 2 completes (R41, R264, R265). Level 2 runs only in state 0. -/
def State.dpsChecked (s : State) (n : Nat) (second passed : Bool) : State :=
  if s.blockOff (Reg.dpsB n) ∨ (second ∧ s.dpsState n ≠ 0) then s
  else
    let s1 := s.modDps n (fun d =>
      if second then { d with fail2 := !passed, level2 := false } else { d with fail1 := !passed })
    let d := s1.dpsRec n
    let s2 := (s1.setFlag (Reg.DPS_STATUS_SC_DONE n) true).setFlag (Reg.DPS_STATUS_SC_FAIL n) (d.fail1 || d.fail2)
    let s3 := if passed then s2 else s2.raise 15 n (if second then 2 else 1)
    match passed, s3.dpsEnabledSite n with
    | false, some (b, x) => s3.assertCause b x.position 0
    | _, _ => s3

/-- DPS_SELF_CHECK: the background check of level 1, while BG_CHECK is 1, or a level-2 check under way completes (R265). -/
def doDpsSelfCheck (n : Nat) (second passed : Bool) (s : State) : State :=
  if (if second then (s.dpsRec n).level2 else decide (s.afld (Reg.MON_BG_CHECK n) = 1)) then s.dpsChecked n second passed else s

/-! ### DPS_RUN (R266) -/

/-- The checks and waits that every DPS_RUN shares; then `k` with the channel (R266, R473). -/
def State.dpsRun (s : State) (c : Cmd) (k : Nat → State → State) : State :=
  let n := c.target
  let malformed := c.reservedSet [(8, 2), (24, 2)] || decide (4 ≤ c.field 9 1) || decide (64 ≤ n) || decide (2 < c.field 8 1) ||
    !s.dpsLeads n ||
    s.flag (Reg.DPS_STATUS_CFG_ERR n)
  s.checked c ((malformed, 0x7F) :: s.unitChecks [n / 2]) (fun s =>
    match s.dpsSite n with
    | some (b, _) => if (s.program b).isSome then s.hold c (.program [b]) else k n s
    | none => k n s)

/-- DPS_RUN with ACTION 0 (R44, R266). -/
def doDpsRunOn (c : Cmd) (s : State) : State :=
  s.dpsRun c (fun n s =>
    if s.dpsClosed n then s.complete c 0x40 (s.dpsState n * 2 ^ 128)
    else if s.dpsState n = 2 then s.complete c 0 (2 * 2 ^ 128)
    else (s.modDps n (fun d => { d with runs := d.runs ++ [c] })).dpsOnReq n)

/-- DPS_RUN with ACTION 1 (R266). -/
def doDpsRunOff (c : Cmd) (s : State) : State :=
  s.dpsRun c (fun n s =>
    if s.dpsState n = 0 then s.complete c 0 0
    else (s.modDps n (fun d => { d with runs := d.runs ++ [c] })).dpsOffReq n 1)

/-- DPS_RUN with ACTION 2 (R261, R266): it waits while another reading of the channel runs. -/
def doDpsRunMeasure (c : Cmd) (s : State) : State :=
  s.dpsRun c (fun n s =>
    if (s.dpsRec n).meas.isSome then s.hold c (.busy n)
    else
      let at' := s.dpsSite n
      let rank := match at' with | some (_, x) => (s.dpsUnits x).findIdx (fun m => decide (m = n)) | none => 0
      let qty := s.afld (Reg.DPS_CTRL_MEAS_QTY n)
      s.dpsBegin n
        { origin := .measure c
          leader := match at' with | some (b, _) => b | none => n
          position := match at' with | some (_, x) => x.position | none => 0
          site := at'.map (fun x => x.2.site)
          test := (c.field 24 2 + (if qty = 0 then 2 else 1) * rank) % 65536, toPop := bitOf (c.field 9 1) 0
          toRecord := bitOf (c.field 9 1) 1, queue := 7, word := 0xFFFFFF, qty := qty, avgLog2 := s.afld (Reg.DPS_CTRL_AVG_LOG2 n), start := s.now
          suspect := s.supplySuspect })

end Sys2Proof.Machine
end

