-- ==== Sys2Proof/Machine/Sites.lean ====
section
/-! DEFINITION. Site groups, contact checks, Deckle causes, and the pins' own commands and monitors (spec/02, spec/03). -/

namespace Sys2Proof.Machine

open Sys2Proof

/-! ### The configuration as written (R31, R36, R39) -/

/-- Sequencers of the group that SITE_GROUP of b describes, as written. -/
def State.wantedSeqs (s : State) (b : Nat) : List Nat := (List.range (s.fld (Reg.SITE_GROUP_SIZE b))).map (fun i => b + i)

/-- Position p of the group as written. -/
def State.wantedPos (s : State) (b p : Nat) : SitePos :=
  { position := p
    site := s.fld (Reg.SITE_ENTRY_SITE_NUMBER b p)
    safeState := s.flag (Reg.SITE_ENTRY_SAFE_STATE b p)
    aliveEn := s.flag (Reg.SITE_ENTRY_ALIVE_EN b p)
    pins := (s.wantedSeqs b).flatMap (fun n => ((List.range 16).filter (fun i =>
      s.flag (Reg.PIN_SITE_ASSIGNED n i) && decide (s.fld (Reg.PIN_SITE_POSITION n i) = p))).map (seqPin n))
    dps := ((List.range 8).filter (fun i => s.flag (Reg.SITE_DPS_VALID b p i))).map (fun i => s.fld (Reg.SITE_DPS_CHANNEL b p i)) }

/-- Defined positions as written. -/
def State.wantedPositions (s : State) (b : Nat) : List SitePos :=
  ((List.range 8).filter (fun p => s.flag (Reg.SITE_ENTRY_DEFINED b p))).map (s.wantedPos b)

/-- Sequencers of the captured group g. -/
def groupSeqs (g : Nat × Group) : List Nat := (List.range g.2.size).map (fun i => g.1 + i)

/-- Other captured groups that share a sequencer with a list. DESIGN CHOICE: the group that the leader b itself has captured
before never counts as overlapping, whatever its size and its enabled positions: R39 speaks of a SITE_ENABLE of the same group
with a changed SIZE nowhere. Log entry 36. -/
def State.overlapping (s : State) (b : Nat) (seqs : List Nat) : List (Nat × Group) :=
  s.groups.filter (fun g => decide (g.1 ≠ b) && (groupSeqs g).any (fun n => seqs.contains n))

/-- Other captured groups that stay. DESIGN CHOICE: a group about to be dissolved does not count as "another captured group" whose
site numbers and DPS channels are in use (R39). Log entry 36. -/
def State.otherGroups (s : State) (b : Nat) (seqs : List Nat) : List (Nat × Group) :=
  s.groups.filter (fun g => decide (g.1 ≠ b) && !(groupSeqs g).any (fun n => seqs.contains n))

/-- No value stands twice in the list. -/
def allDistinct (l : List Nat) : Bool := decide (l.dedup.length = l.length)

/-- The SIZE fields of the group's members are consistent (R36, R39). -/
def State.sizesGood (s : State) (b : Nat) : Bool :=
  let n := s.fld (Reg.SITE_GROUP_SIZE b)
  decide (1 ≤ n) && decide (n ≤ 8) && decide (b + n ≤ 64) &&
    ((s.wantedSeqs b).drop 1).all (fun m => decide (s.fld (Reg.SITE_GROUP_SIZE m) = 0))

/-- SITE_ENABLE with position masks `on` and `off` is refused with 0x7F on the configuration as it stands (R39). -/
def State.siteConfigBad (s : State) (b on off : Nat) : Bool :=
  let seqs := s.wantedSeqs b
  let ps := s.wantedPositions b
  let others := (s.otherGroups b seqs).flatMap (fun g => g.2.positions)
  let defined := ofBits (ps.map (fun x => x.position))
  !s.sizesGood b || !allDistinct (ps.map (fun x => x.site)) || ps.any (fun x => others.any (fun y => decide (y.site = x.site))) ||
  ps.any (fun x => decide (x.pins.length < 2)) ||
  seqs.any (fun n => (List.range 16).any (fun i =>
    s.flag (Reg.PIN_SITE_ASSIGNED n i) && !bitOf defined (s.fld (Reg.PIN_SITE_POSITION n i)))) ||
  !allDistinct (ps.flatMap (fun x => x.dps)) || ps.any (fun x => x.dps.any (fun d => others.any (fun y => y.dps.contains d))) ||
  ps.any (fun x => x.dps.any (fun d => !s.present (d / 2))) || decide (minusMask on defined ≠ 0) || decide (andMask on off ≠ 0) ||
  (s.overlapping b seqs).any (fun g => decide (s.enabledMask g.1 ≠ 0)) || !s.allMatch ((seqs.map seqCluster).dedup)

/-! ### Capturing (R36, R39, R44) -/

/-- CAUSE and PRIMARY of a position cleared (R36, R44). -/
def State.clearEntry (s : State) (b p : Nat) : State := (s.setFld (Reg.SITE_ENTRY_CAUSE b p) 0).setFld (Reg.SITE_ENTRY_PRIMARY b p) 15

/-- The live state of every position of leader b cleared: no position enabled, none closed. -/
def State.clearLeader (s : State) (b : Nat) : State :=
  (List.range 8).foldl (fun s p => s.clearEntry b p)
    (((s.setFld (Reg.DECKLE_STATE_ENABLED b) 0).setFld (Reg.DECKLE_STATE_CLOSED b) 0).setFld (Reg.DECKLE_STATE_CONTACT_FAIL b) 0)

/-- Each listed sequencer outside `seqs` becomes the leader of a group of one (R39). -/
def State.freeSeqs (s : State) (l seqs : List Nat) : State :=
  (l.filter (fun n => !seqs.contains n)).foldl (fun s n => s.setFld (Reg.SITE_GROUP_LEADER n) n) s

/-- Captured group g is dissolved (R39). -/
def State.dissolve (s : State) (seqs : List Nat) (g : Nat × Group) : State :=
  (({ s with groups := SMap.del s.groups g.1 } : State).clearLeader g.1).freeSeqs (groupSeqs g) seqs

/-- The safe state of a pin whose site closes: high impedance, or VIL as it stands (R36, R42). -/
def State.safeFor (s : State) (x : SitePos) (p : Nat) : SafeState :=
  if x.safeState then .drive ((s.driveLevel p .vil).getD 0) else .highZ

/-- A pin that no site holds: driver, load and PPMU off, out of any safe state (R32). -/
def Pin.unassigned (y : Pin) : Pin := { y with safe := none, connected := false, drive := .off, load := false }

/-- After a capture each pin of the group is in its site's safe state where the site is closed, and out of it elsewhere; an
unassigned pin is off (R32, R42, R44). -/
def State.settlePin (s : State) (b closed p : Nat) : State :=
  match (s.group b).positions.find? (fun x => x.pins.contains p) with
  | none => s.modPin p Pin.unassigned
  | some x =>
    let z := s.safeFor x p
    s.modPin p (fun y => { y with safe := if bitOf closed x.position then (y.safe.orElse (fun _ => some z)) else none })

/-- The configuration of group b as written is captured (R36, R39). -/
def State.capture (s : State) (b : Nat) : State :=
  let seqs := s.wantedSeqs b
  let ps := s.wantedPositions b
  let s1 := (s.overlapping b seqs).foldl (fun s g => s.dissolve seqs g) s
  let s2 := s1.freeSeqs (s1.members b) seqs
  let s3 := seqs.foldl (fun s n => s.setFld (Reg.SITE_GROUP_LEADER n) b) s2
  { s3 with groups := SMap.put s3.groups b { size := seqs.length, positions := ps } }

/-- SITE_ENABLE once it can act (R39, R44, R46, R257, R260). -/
def State.siteEnable (s : State) (c : Cmd) (b on off : Nat) : State :=
  let before := s.group b
  let was := s.enabledMask b
  let left := (((s.overlapping b (s.wantedSeqs b)).flatMap groupSeqs) ++ s.members b).filter (fun n => !(s.wantedSeqs b).contains n)
  let s1 := (left.flatMap (fun n => (List.range 16).map (seqPin n))).foldl (fun s p => s.modPin p Pin.unassigned) (s.capture b)
  let defined := ofBits ((s1.group b).positions.map (fun x => x.position))
  let enabled := andMask (minusMask (orMask was on) off) defined
  let gone := minusMask was enabled
  let s2 := ((before.positions.filter (fun x => bitOf gone x.position)).foldl (fun s x => s.dpsSiteOff x 1) s1).setFld
    (Reg.DECKLE_STATE_ENABLED b) enabled
  let asked := (s2.group b).positions.filter (fun x => bitOf on x.position)
  let opens := asked.filter (fun x => bitOf (s2.closedMask b) x.position && (s2.liveCauses x).isEmpty &&
    (SMap.find s2.causes (causeKey b x.position)).isNone)
  let s2' := (before.positions.filter (fun x => bitOf gone x.position)).foldl (fun s x => s.popLeave x.site) s2
  let s3 := opens.foldl (fun s x => s.clearEntry b x.position)
    (s2'.setFld (Reg.DECKLE_STATE_CLOSED b) (minusMask (s2.closedMask b) (ofBits (opens.map (fun x => x.position)))))
  let s4 := ((s3.members b).flatMap (fun n => (List.range 16).map (seqPin n))).foldl
    (fun s p => s.settlePin b (s3.closedMask b) p) s3
  let s5 := ((s4.group b).positions.filter (fun x => bitOf (s4.openMask b) x.position)).foldl
    (fun s x => (s.liveCauses x).foldl (fun s k => s.assertCause b x.position k) s) s4
  let ready := minusMask (s5.openMask b)
    (ofBits ((List.range 8).filter (fun p => (SMap.find s5.causes (causeKey b p)).isSome)))
  s5.complete c 0 (ready + 256 * minusMask on ready)

/-- A contact check runs on the group led by b or on a captured group that shares a sequencer with it. -/
def State.contactRuns (s : State) (b : Nat) : Bool :=
  (s.group b).contact.isSome || (s.overlapping b (s.wantedSeqs b)).any (fun g => g.2.contact.isSome)

/-- SITE_ENABLE (R37, R39): it waits for the group's program, then checks and acts. DESIGN CHOICE: it also waits for a contact
check of the group, or of one it would dissolve, so that the check ends on the configuration it began with: the spec says
nothing of the two together. Log entry 36. -/
def doSiteEnable (c : Cmd) (s : State) : State :=
  let b := c.target
  let units := (s.wantedSeqs b).map seqUnit ++ ((s.wantedSeqs b).map seqCluster).dedup ++
    ((s.wantedPositions b).flatMap (fun x => x.dps.map (fun d => d / 2))).dedup
  s.checked c [(c.reservedSet [(8, 2)] || decide (64 ≤ b), 0x7F)] (fun s =>
    if (s.program b).isSome then s.hold c (.program [b])
    else if s.contactRuns b then s.hold c (.busy b)
    else s.checked c ((s.siteConfigBad b (c.field 8 1) (c.field 9 1), 0x7F) :: s.unitChecks units)
      (fun s => s.siteEnable c b (c.field 8 1) (c.field 9 1)))

/-! ### Contact checks (R40) -/

/-- Pins under test of a contact check: ascending, of the listed positions. -/
def State.contactPins (s : State) (b positions : Nat) : List (Nat × SitePos) :=
  ((s.groupPins b).filter (fun q => bitOf positions q.2.2.2.position)).map (fun q => (q.2.2.1, q.2.2.2))

/-- CONTACT_CHECK's fields: range, force current, window and settle time (R37, R40). -/
def contactBad (c : Cmd) : Bool :=
  let r := c.field 9 1
  decide (4 < r) || !within (-(nominalRange r)) (nominalRange r) (toSigned 40 (c.field 16 5)) ||
  decide (toSigned 32 (c.field 28 4) ≤ toSigned 32 (c.field 24 4)) || !within 1000000 1000000000000 (c.field 32 8)

/-- CONTACT_CHECK (R37, R40): it waits for the group's program and for measurements of its pins; every assigned pin of each
enabled, open position of its mask then forces the current. -/
def doContactCheck (c : Cmd) (s : State) : State :=
  let b := c.target
  let bad := c.reservedSet [(8, 2), (16, 5), (24, 16)] || s.notLeader b || contactBad c
  s.checked c ((bad, 0x7F) :: s.unitChecks (s.groupUnits b)) (fun s =>
    let ps := andMask (c.field 8 1) (s.openMask b)
    let pins := s.contactPins b ps
    if (s.program b).isSome then s.hold c (.program [b])
    else if (s.group b).contact.isSome || pins.any (fun q => (s.pin q.1).meas.isSome) then s.hold c (.busy b)
    else if ps = 0 then s.complete c 0 (2 ^ 16 * c.field 8 1)
    else
      let g := s.group b
      let r : ContactRun := { cmd := c, positions := ps, untested := minusMask (c.field 8 1) ps }
      pins.foldl
        (fun s q => s.modPin q.1 (fun y =>
          let m : PinMeas := { origin := .contact c b, leader := b, position := q.2.position, site := q.2.site, test := 0xFFFF
                               toPop := false, toRecord := true, queue := 7, word := 0xFFFFFF, mode := 2, range := c.field 9 1
                               avgLog2 := 0, wasConnected := y.connected, start := s.now, suspect := s.supplySuspect }
          { y with connected := true, meas := some m }))
        { s with groups := SMap.put s.groups b { g with contact := some r } })

/-- One tested pin's reading: its CONTACT record, with OUTSIDE where it fails (R40, R173). -/
def State.contactRecord (s : State) (p : Nat) (m : PinMeas) (status conversions : Nat) (value : Int) (flags start : Nat) (outside : Bool) : State :=
  (s.modPin p (fun y => { y with meas := none, connected := m.wasConnected })).enterRecord (pinSeq p)
    { queue := 7, typ := 3, status := status, site := siteWord m.site flags, test := 0xFFFF, cellTime := start
      payload := readingPayload p (readingKind 2 conversions + 2 ^ 13 * b2n outside) 0xFFFFFF value }

/-- The judgement of one pin of a contact check: its reading inside the window, bounds included (R40). -/
def State.contactJudge (s : State) (c : Cmd) (p : Nat) (code : BitVec 18) : Int × Bool :=
  let v := s.pinReading p 2 (c.field 9 1) code.toInt 1
  (v, !within (toSigned 32 (c.field 24 4)) (toSigned 32 (c.field 28 4)) v)

/-- Positions of the group led by b with a cause asserted whose closure is still to come. -/
def State.causePending (s : State) (b : Nat) : Nat :=
  ofBits ((List.range 8).filter (fun p => (SMap.find s.causes (causeKey b p)).isSome))

/-- CONTACT_CHECK_END: the conversion of every tested pin of the group led by b, in ascending order of pins: code, and
whether the PPMU clamped (R40, R41). A site with a cause asserted during the check is not tested: its pins' records come with
its closure (R46). -/
def doContactCheckEnd (b : Nat) (start : Nat) (l : List (BitVec 18 × Bool)) (s : State) : State :=
  match (s.group b).contact with
  | none => s
  | some r =>
    let pins := (s.contactPins b r.positions).filter (fun q => (s.pin q.1).meas.isSome)
    if pins.length ≠ l.length then s
    else
      let hit := andMask r.positions (s.causePending b)
      let judged := ((pins.zip l).map (fun x => (x.1, x.2.2, s.contactJudge r.cmd x.1.1 x.2.1))).filter
        (fun x => !bitOf hit x.1.2.position)
      let failed := ofBits ((judged.filter (fun x => x.2.2.2)).map (fun x => x.1.2.position)).dedup
      let s1 := judged.foldl
        (fun s x =>
          match (s.pin x.1.1).meas with
          | none => s
          | some m =>
            let flags := b2n (overRange 2 m.range x.2.2.1) + 2 * b2n x.2.1 + 4 * b2n (m.suspect || s.supplySuspect)
            let s1 := if x.2.1 then s.setFlag (Reg.PIN_STATUS_PPMU_CLAMPED x.1.1) true else s
            s1.contactRecord x.1.1 m 0 1 x.2.2.1 flags start x.2.2.2) s
      let g := s1.group b
      let s2 := ({ s1 with groups := SMap.put s1.groups b { g with contact := none } } : State).setFld
        (Reg.DECKLE_STATE_CONTACT_FAIL b) failed
      let s3 := (setBits failed 8).foldl (fun s p => s.assertCause b p 2) s2
      s3.complete r.cmd 0 (minusMask (minusMask r.positions hit) failed + 2 ^ 8 * failed + 2 ^ 16 * orMask r.untested hit)

/-! ### DECKLE_CLOSE and SITE_REG_LOAD (R37, R38, R46) -/

/-- DECKLE_CLOSE (R37, R41, R46). -/
def doDeckleClose (c : Cmd) (s : State) : State :=
  let b := c.target
  s.checked c ((c.reservedSet [(8, 1)] || s.notLeader b, 0x7F) :: s.unitChecks (s.groupUnits b)) (fun s =>
    let hit := andMask (c.field 8 1) (s.openMask b)
    ((setBits (c.field 8 1) 8).foldl (fun s p => s.assertCause b p 3) s).complete c 0 hit)

/-- SITE_REG_LOAD (R38). -/
def doSiteRegLoad (c : Cmd) (s : State) : State :=
  let b := c.target
  let m := c.field 8 1
  let a := c.field 16 8
  let defined := ofBits ((s.group b).positions.map (fun x => x.position))
  let bad := c.reservedSet [(8, 1), (16, 8)] || s.notLeader b || decide (m = 0) || decide (minusMask m defined ≠ 0) ||
    decide (a % 8 ≠ 0) || decide (2 ^ 48 ≤ a)
  s.checked c ((bad, 0x7F) :: s.unitChecks (s.groupUnits b ++ [memUnit])) (fun s =>
    if (s.program b).isSome then s.hold c (.program [b])
    else s.withRead c { engine := 0, unit := b } a 64 (fun d s =>
      ((setBits m 8).foldl (fun s p => s.setFld (Reg.SITE_REG b p) (fieldOf d (8 * p) 8)) s).complete c 0 m))

/-! ### Clamp monitors (R59, R60) -/

/-- The enabled site that holds pin p. -/
def State.pinEnabledSite (s : State) (p : Nat) : Option (Nat × SitePos) :=
  match s.pinSite p with
  | some (b, x) => if bitOf (s.enabledMask b) x.position then some (b, x) else none
  | none => none

/-- CLAMP_MONITOR_TRIP of pin p (R59). -/
def doClampTrip (p : Nat) (s : State) : State :=
  if s.afld (Reg.PIN_CTRL_MON_EN p) = 0 ∨ s.blockOff (Reg.pinB p) then s
  else
    let s1 := (s.setFlag (Reg.PIN_STATUS_CLAMP_TRIP p) true).setFlag (Reg.PIN_STATUS_CLAMP_LIVE p) true
    match s1.pinEnabledSite p with
    | some (b, x) => s1.assertCause b x.position 1
    | none => s1.raise 6 p 0

/-- CLAMP_LIVE_CLEAR of pin p (R59). -/
def doClampLiveClear (p : Nat) (s : State) : State := s.setFlag (Reg.PIN_STATUS_CLAMP_LIVE p) false

/-- One channel's check completes: pin p, or a cluster's reference channel (R60, R70). -/
def State.clampChecked (s : State) (p : Nat) (passed : Bool) : State :=
  let s1 := (s.setFlag (Reg.PIN_STATUS_SC_DONE p) true).setFlag (Reg.PIN_STATUS_SC_FAIL p) (!passed)
  if passed then s1
  else
    match (s1.raise 14 p 0).pinEnabledSite p with
    | some (b, x) => (s1.raise 14 p 0).assertCause b x.position 1
    | none => s1.raise 14 p 0

/-- CLAMP_SELF_CHECK of cluster c: bit i of `passed` is local pin i, bit 32 the reference channel; a pin whose sequencer
runs a program is not checked (R60). DESIGN CHOICE: the event of a failed reference channel, which has no pin number (R70), names
1,024 + c as its UNIT. Log entry 37. -/
def doClampSelfCheck (c : Nat) (passed : BitVec 33) (s : State) : State :=
  if s.blockOff (Reg.clB c) then s
  else
    let s1 := ((List.range 32).filter (fun i => !s.runs (pinSeq (32 * c + i)))).foldl
      (fun s i => s.clampChecked (32 * c + i) (passed.getLsbD i)) s
    let r := 1024 + c
    let s2 := (s1.setFlag (Reg.PIN_STATUS_SC_DONE r) true).setFlag (Reg.PIN_STATUS_SC_FAIL r) (!passed.getLsbD 32)
    if passed.getLsbD 32 then s2 else s2.raise 14 r 0

/-! ### PPMU_MEASURE (R66) -/

/-- Masked pins of cluster k that a PPMU_MEASURE measures: assigned to an enabled, open site, their mode not 0 (R65, R66). -/
def State.measurePins (s : State) (k mask : Nat) : List (Nat × Nat × SitePos) :=
  (setBits mask 32).filterMap (fun i =>
    match s.pinEnabledSite (32 * k + i) with
    | some (b, x) =>
      if !bitOf (s.closedMask b) x.position && decide (s.afld (Reg.PPMU_CTRL_MODE (32 * k + i)) ≠ 0) then some (i, b, x) else none
    | none => none)

/-- PPMU_MEASURE (R63, R66): it waits for the programs of the sequencers that own its pins; one that names a pin with invalid PPMU
settings does not start. -/
def doPpmuMeasure (c : Cmd) (s : State) : State :=
  let k := c.target
  let mask := c.field 8 4
  let d := c.field 12 1
  let bad := c.reservedSet [(8, 5), (16, 10)] || decide (32 ≤ k) || decide (4 ≤ d) || decide (d = 0) ||
    decide (1000000000000 < c.field 16 8)
  s.checked c ((bad, 0x7F) :: s.unitChecks [k]) (fun s =>
    let waits := ((setBits mask 32).map (fun i => s.leaderOf (pinSeq (32 * k + i)))).dedup.filter (fun b => (s.program b).isSome)
    if !waits.isEmpty then s.hold c (.program waits)
    else if (setBits mask 32).any (fun i => s.flag (Reg.PIN_STATUS_PPMU_ERR (32 * k + i))) then s.complete c 0x7F 0
    else
      let pins := s.measurePins k mask
      let locals := pins.map (fun q => q.1)
      let run : PpmuRun := { cmd := c, left := locals, measured := 0, missed := minusMask mask (ofBits locals), flagged := 0 }
      let s1 := s.modCluster k (fun x => { x with ppmuRuns := x.ppmuRuns ++ [run] })
      if pins.isEmpty then s1.ppmuRunEnd k run
      else
        pins.foldl
          (fun s q =>
            let p := 32 * k + q.1
            let was := (s.pin p).connected
            let s2 := s.startMeas p
              { origin := .measure c, leader := q.2.1, position := q.2.2.position, site := q.2.2.site
                test := (c.field 24 2 + q.2.2.rank p) % 65536, toPop := bitOf d 0, toRecord := bitOf d 1, queue := 7
                word := 0xFFFFFF, mode := s.afld (Reg.PPMU_CTRL_MODE p), range := s.afld (Reg.PPMU_CTRL_RANGE p)
                avgLog2 := s.afld (Reg.PPMU_CTRL_AVG_LOG2 p), wasConnected := was, start := s.now, suspect := s.supplySuspect }
            s2.modPin p (fun y => { y with connected := y.connected || y.meas.isSome })) s1)

end Sys2Proof.Machine
end

