-- ==== Sys2Proof/Machine/Tmu.lean ====
section
/-! DEFINITION. Time measurement units (spec/09). -/

namespace Sys2Proof.Machine

open Sys2Proof

/-! ### Settings (R188, R205) -/

/-- TMU n's record, and the state with it changed. -/
def State.tmu (s : State) (n : Nat) : Tmu := SMap.get {} s.tmus n
def State.modTmu (s : State) (n : Nat) (f : Tmu → Tmu) : State := { s with tmus := SMap.put s.tmus n (f (s.tmu n)) }

/-- The settings of TMU n. -/
def tmuFields (n : Nat) : List Fld :=
  [Reg.TMU_CTRL_MODE n, Reg.TMU_CTRL_ARM_SRC n, Reg.TMU_CTRL_GATE n, Reg.TMU_CTRL_EV_SEL n, Reg.TMU_CTRL_COUNT_N n,
    Reg.TMU_CTRL_TEST_OFFSET n, Reg.TMU_SKEW_START_SKEW n, Reg.TMU_SKEW_STOP_SKEW n, Reg.TMU_GATE_LEN n, Reg.TMU_TIMEOUT n] ++
  [0, 1].flatMap (fun i =>
    [Reg.TMU_IN_SRC n i, Reg.TMU_IN_SLOPE n i, Reg.TMU_IN_H n i, Reg.TMU_IN_HOLDOFF n i, Reg.TMU_IN_VTH n i])

/-- Input i (0 START, 1 STOP) of TMU n, as written, is valid (R188, R205). Every pin of a present cluster is present, and an
absent cluster's TMUs take no write, so SRC names no absent pin here (R2, R508). -/
def State.tmuInputValid (s : State) (n i : Nat) : Bool :=
  decide (s.fld (Reg.TMU_IN_SRC n i) ≤ 0x22) && within 10 200 (s.fld (Reg.TMU_IN_H n i)) &&
  decide (s.fld (Reg.TMU_IN_HOLDOFF n i) ≤ 1000) && within levelLow levelHigh (s.sfld (Reg.TMU_IN_VTH n i))

/-- The settings of TMU n, as written, are valid (R205). -/
def State.tmuValid (s : State) (n : Nat) : Bool :=
  let mode := s.fld (Reg.TMU_CTRL_MODE n)
  let gate := s.fld (Reg.TMU_CTRL_GATE n)
  s.tmuInputValid n 0 && s.tmuInputValid n 1 && decide (mode ≤ 5) && decide (gate ≤ 2) &&
  !(decide (gate = 0) && (decide (mode = 3) || decide (mode = 4))) && decide (s.fld (Reg.TMU_CTRL_COUNT_N n) ≠ 0) &&
  within (-4000) 4000 (s.sfld (Reg.TMU_SKEW_START_SKEW n)) && within (-4000) 4000 (s.sfld (Reg.TMU_SKEW_STOP_SKEW n))

/-- Input i of TMU n watches source 0x21 or 0x22, which is never unsettled (R189). -/
def State.tmuSteady (s : State) (n i : Nat) : Bool :=
  decide (s.afld (Reg.TMU_IN_SRC n i) = 0x21) || decide (s.afld (Reg.TMU_IN_SRC n i) = 0x22)

/-- The settings written to TMU n are put in force if valid; CFG_ERR follows (R205). -/
def State.applyTmu (s : State) (n : Nat) : State :=
  let ok := s.tmuValid n
  if ok then
    let s1 := s.applyFlds (tmuFields n)
    let s2 := if s1.tmuSteady n 0 then s1.setFlag (Reg.TMU_STATUS_START_UNSETTLED n) false else s1
    let s3 := if s2.tmuSteady n 1 then s2.setFlag (Reg.TMU_STATUS_STOP_UNSETTLED n) false else s2
    s3.setFlag (Reg.TMU_STATUS_CFG_ERR n) false
  else s.setFlag (Reg.TMU_STATUS_CFG_ERR n) true

/-- A write to TMU n's block: held while a program runs on SEQn (R204), else put in force. -/
def State.tmuWritten (s : State) (n : Nat) : State :=
  if s.runs n then (s.modTmu n (fun t => { t with held := true })).setFlag (Reg.TMU_STATUS_PENDING n) true else s.applyTmu n

/-- The held writes of TMU n are put in force. -/
def State.takeTmu (s : State) (n : Nat) : State :=
  if (s.tmu n).held then
    ((s.modTmu n (fun t => { t with held := false })).setFlag (Reg.TMU_STATUS_PENDING n) false).applyTmu n
  else s

/-- The held writes of TMU n are put in force once no program runs on SEQn. -/
def State.tmuRelease (s : State) (n : Nat) : State := if !s.runs n then s.takeTmu n else s

/-- The site of TMU n: the one that owns the START source pin, else the STOP source pin (R193). -/
def State.tmuSite (s : State) (n : Nat) : Option (Nat × SitePos) :=
  [0, 1].findSome? (fun i =>
    let k := s.afld (Reg.TMU_IN_SRC n i)
    if k < 32 then s.pinSite (32 * (n / 2) + k) else none)

/-! ### Edge times and results (R196 to R201) -/

/-- k2 − k1 of the calibration in force, in 1/16 code: the common denominator of edge times (R196). -/
def State.tmuSpan (s : State) (n : Nat) : Int := (s.fld (Reg.TMU_CAL_K2 n) : Int) - (s.fld (Reg.TMU_CAL_K1 n) : Int)

/-- Time of an edge from the armed instant in LSB, times k2 − k1: 2,560 × N − f (R196). -/
def State.edgeTime (s : State) (n : Nat) (e : TmuEdge) : Int :=
  let d := s.tmuSpan n
  2560 * (e.n : Int) * d - 2560 * (d + 16 * (e.code : Int) - (s.fld (Reg.TMU_CAL_K1 n) : Int))

/-- VALUE of a time mode: VALUE_FINE × 0.9765625 rounded to the nearest ps (R197). -/
def finePs (fine : Int) : Int := roundAway (fine * 9765625) 10000000

/-- A computed result: status, VALUE_FINE, VALUE, and the COINCIDENT and ORDER flags. -/
structure TmuValue where
  status : Nat
  fine : Int := 0
  value : Int := 0
  coincident : Bool := false
  order : Bool := false

/-- The interval of modes 0 and 1 between two edges (R197, R198). -/
def State.tmuInterval (s : State) (n : Nat) (m : TmuArm) (early : Bool) (a b : TmuEdge) : TmuValue :=
  let d := s.tmuSpan n
  let x := 125 * (s.edgeTime n b - s.edgeTime n a) - 128 * d * (m.stopSkew - m.startSkew)
  if |x| < 125 * d then { status := 0, coincident := true }
  else if early then { status := 0, order := true }
  else
    let fine := roundAway x (125 * d)
    { status := 0, fine := fine, value := finePs fine }

/-- The result of an ended measurement of modes 0 to 4 (R197 to R199). -/
def State.tmuCompute (s : State) (n : Nat) (m : TmuArm) : TmuValue × State :=
  let t := s.tmu n
  let d := s.tmuSpan n
  if t.forced ≠ 0 then ({ status := t.forced }, s)
  else if m.mode ≤ 1 then
    match t.first, t.stop with
    | some a, some b => (s.tmuInterval n m t.early a b, s)
    | _, _ => (if t.early then { status := 0, order := true } else { status := 0x60 }, s)
  else
    match t.first, t.last with
    | some a, some b =>
      let x := s.edgeTime n b - s.edgeTime n a
      if m.mode = 2 then
        if m.countN < t.starts then
          let fine := roundAway x (d * m.countN)
          ({ status := 0, fine := fine, value := finePs fine }, s)
        else ({ status := 0x60 }, s)
      else if m.mode = 3 then
        if 2 ≤ t.starts then
          if 0 < x then
            let f := roundAway (((t.starts : Int) - 1) * 1024000000000000000 * d) x
            ({ status := 0, fine := f, value := f }, s)
          else
            let r := s.draw 64
            ({ status := 0, fine := (r.1 : Int), value := (r.1 : Int) }, r.2)
        else ({ status := 1 }, s)
      else ({ status := 0, fine := t.starts, value := t.starts }, s)
    | _, _ => (if m.mode = 3 then { status := 1 } else if m.mode = 2 then { status := 0x60 } else { status := 0 }, s)

/-- An input needed for the mode is still unsettled: START, and STOP in modes 0 and 1 (R199). -/
def State.tmuUnsettled (s : State) (n : Nat) (m : TmuArm) : Bool :=
  s.flag (Reg.TMU_STATUS_START_UNSETTLED n) || (decide (m.mode ≤ 1) && s.flag (Reg.TMU_STATUS_STOP_UNSETTLED n))

/-- EVENTS of a result (R201). -/
def Tmu.events (t : Tmu) : Nat := min (t.starts + t.stops) (2 ^ 32 - 1)

/-- KIND bits [5:3]: COINCIDENT, ORDER, UNSETTLED (R201). -/
def TmuValue.bits (v : TmuValue) (unsettled : Bool) : Nat := b2n v.coincident + 2 * b2n v.order + 4 * b2n unsettled

/-- One result of TMU n is produced: registers, record, population engine and conditions (R200, R201). -/
def State.tmuSend (s : State) (n : Nat) (m : TmuArm) (v : TmuValue) (bits events index cellTime : Nat) : State :=
  let flags := b2n v.order + 4 * b2n m.suspect
  let s1 := (s.setFld (Reg.TMU_LAST_VALUE n) (ofSigned 64 v.fine)).bump (Reg.TMU_MEASUREMENTS n) 1
  let s2 := if m.toRecord then
      s1.enterRecord n
        { queue := m.queue, typ := 8, status := v.status, test := m.test, cellTime := cellTime
          site := match m.site with | some x => siteWord x.2.2 flags | none => noSite + 512 * flags
          payload := leBytes n 2 ++ leBytes (m.mode + 8 * bits) 2 ++ leBytes m.word 4 ++ leBytes (ofSigned 64 v.fine) 8 ++
            leBytes (ofSigned 64 v.value) 8 ++ leBytes events 4 ++ leBytes index 4 }
    else s1
  match m.site with
  | none => s2
  | some x =>
    if m.mode = 5 then s2
    else
      let s3 := if m.toPop then
          s2.popPush { site := x.2.2, test := m.test, value := v.value, status := v.status, flags := flags, cellTime := cellTime
                       leader := x.1, position := x.2.1 }
        else s2
      match m.origin with
      | .trigger b serial => s3.conditionReading b serial { position := x.2.1, value := v.value, status := v.status, flags := flags }
      | _ => s3

/-- A trigger's reading is awaited no longer, without one (R105, R200). -/
def State.forgetReading (s : State) (b serial : Nat) : State :=
  s.modProgram b (fun g => { g with pendingReadings := g.pendingReadings.eraseP (fun r => decide (r.1 = serial)) })

/-- TMU n is idle again. -/
def State.tmuIdle (s : State) (n : Nat) : State :=
  (s.modTmu n (fun t => { held := t.held })).setFld (Reg.TMU_STATUS_STATE n) 0

/-- The measurement of TMU n is over: idle, the TMU_ARM command complete, a mode 5 trigger's condition no longer waiting
(R105, R200, R202). -/
def State.tmuOver (s : State) (n : Nat) (m : TmuArm) (status : Nat) (fine : Int) (events bits : Nat) : State :=
  let s1 := s.tmuIdle n
  match m.origin with
  | .measure c => s1.complete c status (ofSigned 64 fine + 2 ^ 64 * events + 2 ^ 96 * bits)
  | .trigger b serial => if m.mode = 5 then s1.forgetReading b serial else s1
  | _ => s1

/-- Cell time of a result: the first counted edge, or the armed instant; in mode 4 the gate's opening, or, DESIGN CHOICE, the
armed instant where it never opened. Log entry 40 (R201). -/
def Tmu.cellTime (t : Tmu) (m : TmuArm) : Nat :=
  if m.mode = 4 then t.gateTime else t.firstTime.getD m.start

/-- The measurement of TMU n ends at once with a status and value 0 (R42, R204). -/
def State.tmuAbort (s : State) (n status : Nat) : State :=
  let t := s.tmu n
  match t.arm with
  | none => s
  | some m => (s.tmuSend n m { status := status } 0 t.events 0 (t.cellTime m)).tmuOver n m status (t.firstValue.getD 0) t.events 0

/-- The measurement of TMU n ends with no result (R184, R204). -/
def State.tmuDrop (s : State) (n : Nat) : State :=
  match (s.tmu n).arm with
  | none => s
  | some m =>
    match m.origin with
    | .trigger b serial => (s.tmuIdle n).forgetReading b serial
    | _ => s.tmuIdle n

/-- Measurements of the group led by b that its program's triggers numbered above `serial` armed end with no result: a
replay, or the time limit (R204). -/
def State.tmuDropSince (s : State) (b serial : Nat) : State :=
  (s.members b).foldl
    (fun s n =>
      match (s.tmu n).arm.map TmuArm.origin with
      | some (.trigger _ k) => if serial < k then s.tmuDrop n else s
      | _ => s) s

/-- Measurements of a closed site end with 0x40 (R42, R204). -/
def State.tmuCloseSite (s : State) (b position : Nat) : State :=
  (List.range 64).foldl
    (fun s n =>
      match (s.tmu n).arm.bind TmuArm.site with
      | some x => if x.1 = b ∧ x.2.1 = position then s.tmuAbort n 0x40 else s
      | none => s) s

/-! ### Arming (R192, R193, R204) -/

/-- The settings in force of input i of TMU n. -/
def State.tmuInput (s : State) (n i : Nat) : TmuInput :=
  { src := s.afld (Reg.TMU_IN_SRC n i), slope := s.afld (Reg.TMU_IN_SLOPE n i), holdoff := s.afld (Reg.TMU_IN_HOLDOFF n i) }

/-- The settings in force of TMU n, for an arm. -/
def State.tmuArmed (s : State) (n : Nat) (origin : MeasOrigin) (base : Nat) (toPop toRecord : Bool) (queue word : Nat) : TmuArm :=
  { origin := origin, site := (s.tmuSite n).map (fun x => (x.1, x.2.position, x.2.site))
    test := (base + s.afld (Reg.TMU_CTRL_TEST_OFFSET n)) % 65536, toPop := toPop, toRecord := toRecord, queue := queue, word := word
    mode := s.afld (Reg.TMU_CTRL_MODE n), gate := s.afld (Reg.TMU_CTRL_GATE n), evSel := s.afld (Reg.TMU_CTRL_EV_SEL n)
    countN := s.afld (Reg.TMU_CTRL_COUNT_N n), startIn := s.tmuInput n 0, stopIn := s.tmuInput n 1, startSkew := s.asfld (Reg.TMU_SKEW_START_SKEW n)
    stopSkew := s.asfld (Reg.TMU_SKEW_STOP_SKEW n), timeout := s.afld (Reg.TMU_TIMEOUT n), suspect := false, start := s.now }

/-- Step 1 of R195, the armed instant, falls now: TMU n calibrates, and its gate opens where it is NONE or TIMED, or EXTERNAL
with the line asserted (R187, R194, R195). -/
def State.tmuBegin (s : State) (n : Nat) (m : TmuArm) : State :=
  (s.modTmu n (fun t =>
    { t with arm := some { m with start := s.now }, gateTime := s.now
             gateOpen := decide (m.gate ≤ 1) || s.evAsserted m.evSel })).setFld (Reg.TMU_STATUS_STATE n) 2

/-- An arm reaches TMU n: refused while a measurement runs, else pre-armed or calibrating (R192, R204). -/
def State.tmuArm (s : State) (n : Nat) (m : TmuArm) : State :=
  if (s.tmu n).arm.isSome then
    let s1 := (s.setFlag (Reg.TMU_STATUS_ARM_OVERRUN n) true).tmuSend n m { status := 1 } 0 0 0 m.start
    match m.origin with
    | .measure c => s1.complete c 1 0
    | .trigger b serial => if m.mode = 5 then s1.forgetReading b serial else s1
    | _ => s1
  else
    let s1 := s.modTmu n (fun t => { arm := some m, held := t.held })
    if s.afld (Reg.TMU_CTRL_ARM_SRC n) = 0 then s1.tmuBegin n m else s1.setFld (Reg.TMU_STATUS_STATE n) 1

/-- TMU_TRIGGER: a trigger of KIND 0x2 of the group led by b arms every member's TMU whose site is active, or that has no
assigned source pin (R112, R193, R200). -/
def doTmuTrigger (b : Nat) (s : State) : State :=
  match s.dueTrigger b 2 with
  | none => s
  | some (_, t) =>
    let sites := andMask t.sites (s.openMask b)
    let armed := (s.members b).filter (fun n =>
      match s.tmuSite n with
      | none => true
      | some (l, x) => decide (l = b) && bitOf sites x.position)
    let sited := armed.filter (fun n => (s.tmuSite n).isSome)
    armed.foldl
      (fun s n => s.tmuArm n (s.tmuArmed n (.trigger b t.serial) t.base t.toPop (t.toRecord) t.queue t.word))
      (s.firedTrigger b sited.length)

/-- TMU_ARM (R202): it waits until no program runs on SEQn. -/
def doTmuArm (c : Cmd) (s : State) : State :=
  let n := c.target
  let d := c.field 8 1
  let bad := c.reservedSet [(8, 1), (24, 2)] || decide (64 ≤ n) || decide (d = 0) || decide (4 ≤ d) ||
    s.flag (Reg.TMU_STATUS_CFG_ERR n) || (decide (s.afld (Reg.TMU_CTRL_GATE n) = 0) && decide (s.afld (Reg.TMU_TIMEOUT n) = 0))
  s.checked c ((bad, 0x7F) :: s.unitChecks [n / 2]) (fun s =>
    if s.runs n then s.hold c (.program [s.leaderOf n])
    else s.tmuArm n (s.tmuArmed n (.measure c) (c.field 24 2) (bitOf d 0) (bitOf d 1) 7 0xFFFFFF))

/-! ### Events at a TMU (R189, R192, R194 to R201) -/

/-- Cell event line k is asserted: pre-armed TMUs calibrate; the EXTERNAL gates of armed ones open, during calibration too
(R192, R194). -/
def State.tmuEvAssert (s : State) (k : Nat) : State :=
  (List.range 64).foldl
    (fun s n =>
      match (s.tmu n).arm with
      | none => s
      | some m =>
        if m.evSel ≠ k then s
        else if s.fld (Reg.TMU_STATUS_STATE n) = 1 then
          s.tmuBegin n m
        else if m.gate = 2 ∧ !(s.tmu n).gateOpen ∧ !(s.tmu n).ended then
          s.modTmu n (fun t => { t with gateOpen := true, gateTime := s.now })
        else s) s

/-- The gate of TMU n closes after it has opened, and its measurement ends (R194). -/
def State.tmuCloseGate (s : State) (n : Nat) (m : TmuArm) : State :=
  if m.gate = 0 ∨ !(s.tmu n).gateOpen then s
  else s.modTmu n (fun t => { t with gateOpen := false, ended := true })

/-- Cell event line k is released: the EXTERNAL gates that follow it close (R194). -/
def State.tmuEvRelease (s : State) (k : Nat) : State :=
  (List.range 64).foldl
    (fun s n =>
      match (s.tmu n).arm with
      | none => s
      | some m => if m.gate = 2 ∧ m.evSel = k then s.tmuCloseGate n m else s) s

/-- An input of TMU n sampled inside its band is unsettled; sources 0x21 and 0x22 never are (R189). -/
def State.tmuBand (s : State) (n i : Nat) (inside : Bool) : Bool :=
  inside && !s.tmuSteady n i

/-- TMU_CALIBRATED: the calibration of TMU n ends with k1 and k2 in 1/16 code; `startIn` and `stopIn` tell the inputs that were
inside their band at step 2 and have not been seen outside it since (R189, R195). -/
def doTmuCalibrated (n : Nat) (k1 k2 : BitVec 16) (startIn stopIn : Bool) (s : State) : State :=
  match (s.tmu n).arm with
  | none => s
  | some _ =>
    if s.fld (Reg.TMU_STATUS_STATE n) ≠ 2 ∨ (s.tmu n).ended then s
    else
      let s1 := (s.setFlag (Reg.TMU_STATUS_START_UNSETTLED n) (s.tmuBand n 0 startIn)).setFlag
        (Reg.TMU_STATUS_STOP_UNSETTLED n) (s.tmuBand n 1 stopIn)
      if within 32000 51200 ((k2.toNat : Int) - (k1.toNat : Int)) then
        ((s1.setFld (Reg.TMU_CAL_K1 n) k1.toNat).setFld (Reg.TMU_CAL_K2 n) k2.toNat).setFld (Reg.TMU_STATUS_STATE n) 3
      else
        ((s1.setFlag (Reg.TMU_STATUS_CAL_ERR n) true).raise 17 n 0).modTmu n (fun t => { t with ended := true, forced := 0x50 })

/-- TMU_INPUT_SETTLED: an input of TMU n is first seen outside its band (R189). -/
def doTmuInputSettled (n : Nat) (stop : Bool) (s : State) : State :=
  s.setFlag (if stop then Reg.TMU_STATUS_STOP_UNSETTLED n else Reg.TMU_STATUS_START_UNSETTLED n) false

/-- A START edge of a measurement in a mode: counted, and kept as the mode needs it (R197). -/
def Tmu.startEdge (t : Tmu) (m : TmuArm) (e : TmuEdge) : Tmu :=
  let t1 := { t with starts := t.starts + 1, first := some (t.first.getD e), last := some e, firstTime := some (t.firstTime.getD e.time) }
  if m.mode = 1 then { t1 with ended := t1.ended || t.stop.isSome }
  else if m.mode = 2 then { t1 with ended := t1.ended || decide (m.countN < t1.starts) }
  else if m.mode = 5 then { t1 with train := t.train ++ [e], ended := t1.ended || decide (m.countN ≤ t1.starts) }
  else t1

/-- A STOP edge of a measurement in a mode (R197, R198). -/
def Tmu.stopEdge (t : Tmu) (m : TmuArm) (e : TmuEdge) : Tmu :=
  let t1 := { t with stops := t.stops + 1, firstTime := some (t.firstTime.getD e.time) }
  if m.mode = 0 then { t1 with stop := some e, early := t.first.isNone, ended := true }
  else if m.mode = 1 then { t1 with stop := some (t.stop.getD e), ended := t1.ended || t.first.isSome }
  else t1

/-- Passages of a polarity count on an input (R189). A passage on an input whose SLOPE is the reserved 3 counts or not by a free
value, for R205 does not call it invalid and R189 gives it no meaning. Log entry 40. -/
def TmuInput.counts (i : TmuInput) (falling : Bool) (s : State) : Bool × State :=
  if i.slope = 3 then
    let r := s.draw 1
    (decide (r.1 = 1), r.2)
  else (decide (i.slope = 2) || decide (i.slope = b2n falling), s)

/-- An edge at `time` lies in the hold-off of an input whose last counted edge was `seen` (R190). -/
def TmuInput.heldOff (i : TmuInput) (seen : Option Nat) (time : Nat) : Bool :=
  match seen with
  | none => false
  | some x => decide (time < x + 10 * i.holdoff)

/-- An edge on an input of a measurement that has ended counts only where it is the first START edge after a mode 0's STOP edge
and coincides with it (R198). -/
def State.tmuTakes (s : State) (n : Nat) (stop : Bool) (m : TmuArm) (e : TmuEdge) : Bool :=
  let t := s.tmu n
  if !t.ended then true
  else
    match t.stop with
    | some b => t.early && !stop && t.first.isNone && (s.tmuInterval n m true e b).coincident
    | none => false

/-- An input of TMU n meets a passage of its source: counted unless its SLOPE, its hold-off or the measurement's end keeps it
out (R189, R190, R194). -/
def State.tmuCount (s : State) (n : Nat) (stop falling : Bool) (m : TmuArm) (e : TmuEdge) : State :=
  let i := if stop then m.stopIn else m.startIn
  let seen := if stop then (s.tmu n).stopSeen else (s.tmu n).startSeen
  let r := i.counts falling s
  if !r.1 || i.heldOff seen e.time || !s.tmuTakes n stop m e then r.2
  else
    let m1 := { m with suspect := m.suspect || s.supplySuspect }
    r.2.modTmu n (fun t =>
      if stop then { t.stopEdge m e with arm := some m1, stopSeen := some e.time }
      else { t.startEdge m e with arm := some m1, startSeen := some e.time })

/-- A vector of SEQn has started at the ball by `time`: the marker of source 0x21 may rise then (R188). -/
def State.tmuMarker (s : State) (n time : Nat) : Bool :=
  match s.program (s.leaderOf n) with
  | none => false
  | some g => decide (0 < g.vectorsIssued) && g.zero.any (fun z =>
      decide (z ≤ time) && decide ((time - z) * s.freq (s.leaderOf n / 2) < g.clock))

/-- TMU_EDGE: the source of an input of TMU n makes a full passage, placed at reference edge `ref` with code `code`, at cell time
`time`. The other input meets it too where its SRC is 0x22; the vector-start marker only rises (R188 to R190, R194, R196). -/
def doTmuEdge (n : Nat) (stop falling : Bool) (ref : BitVec 40) (code : BitVec 12) (time : BitVec 64) (s : State) : State :=
  let t := s.tmu n
  match t.arm with
  | none => s
  | some m =>
    let i := if stop then m.stopIn else m.startIn
    let other := if stop then m.startIn else m.stopIn
    let unsettled := s.flag (if stop then Reg.TMU_STATUS_STOP_UNSETTLED n else Reg.TMU_STATUS_START_UNSETTLED n)
    if s.fld (Reg.TMU_STATUS_STATE n) ≠ 3 ∨ !t.gateOpen ∨ unsettled ∨ i.src = 0x22 ∨
        i.src = 0x21 ∧ (falling ∨ !s.tmuMarker n time.toNat) then s
    else
      let e : TmuEdge := { n := ref.toNat, code := code.toNat, time := time.toNat }
      let s1 := s.tmuCount n stop falling m e
      if other.src = 0x22 then s1.tmuCount n (!stop) falling ((s1.tmu n).arm.getD m) e else s1

/-- TMU_GATE_CLOSE: a TIMED or EXTERNAL gate of TMU n closes (R194). -/
def doTmuGateClose (n : Nat) (s : State) : State :=
  match (s.tmu n).arm with
  | none => s
  | some m => s.tmuCloseGate n m

/-- TMU_TIMEOUT: TIMEOUT passes from the arm of TMU n, or its coarse counter reaches its end (R194). -/
def doTmuTimeout (n : Nat) (s : State) : State :=
  match (s.tmu n).arm with
  | none => s
  | some m =>
    if m.timeout = 0 ∧ s.fld (Reg.TMU_STATUS_STATE n) ≠ 3 then s
    else s.modTmu n (fun t => { t with ended := true })

/-- The next result of a mode 5 train of TMU n, or its last one where the train is incomplete (R197, R199, R201). -/
def State.tmuTrain (s : State) (n : Nat) (m : TmuArm) : State :=
  let t := s.tmu n
  match t.train with
  | e :: l =>
    let d := s.tmuSpan n
    let fine := roundAway (125 * s.edgeTime n e - 128 * d * m.startSkew) (125 * d)
    let s1 := (s.tmuSend n m { status := 0, fine := fine, value := finePs fine } 0 t.events t.sent e.time).modTmu n
      (fun t => { t with train := l, sent := t.sent + 1, firstValue := some (t.firstValue.getD fine) })
    if m.countN ≤ t.sent + 1 then s1.tmuOver n m 0 (t.firstValue.getD fine) t.events 0 else s1
  | [] =>
    if t.ended then
      let st := if t.forced ≠ 0 then t.forced else 0x60
      (s.tmuSend n m { status := st } 0 t.starts 0 (t.cellTime m)).tmuOver n m st (t.firstValue.getD 0) t.starts 0
    else s

/-- TMU_RESULT: the next result of TMU n is computed and sent (R197 to R202). -/
def doTmuResult (n : Nat) (s : State) : State :=
  let t := s.tmu n
  match t.arm with
  | none => s
  | some m =>
    if m.mode = 5 then s.tmuTrain n m
    else if t.ended then
      let r := s.tmuCompute n m
      let bits := r.1.bits (decide (r.1.status = 0x60) && s.tmuUnsettled n m)
      (r.2.tmuSend n m r.1 bits t.events 0 (t.cellTime m)).tmuOver n m r.1.status r.1.fine t.events bits
    else s

end Sys2Proof.Machine
end

