-- ==== Sys2Proof/Machine/Awg.lean ====
section
/-! DEFINITION. Waveform generators (spec/10). -/

namespace Sys2Proof.Machine

open Sys2Proof

/-! ### Settings (R207, R224, R228) -/

/-- AWG c's record, and the state with it changed. -/
def State.awg (s : State) (c : Nat) : Awg := SMap.get {} s.awgs c
def State.modAwg (s : State) (c : Nat) (f : Awg → Awg) : State := { s with awgs := SMap.put s.awgs c (f (s.awg c)) }

/-- The settings of AWG c. -/
def awgFields (c : Nat) : List Fld :=
  [Reg.AWG_CTRL_SPAN c, Reg.AWG_CTRL_PHASE_MODE c, Reg.AWG_CTRL_BUS_EN c, Reg.AWG_CTRL_BUS_PIN c, Reg.AWG_CTRL_MTH_EN c,
    Reg.AWG_CTRL_MTH_TIME c, Reg.AWG_CTRL_OWNER c, Reg.AWG_CTRL_GAP_QUEUE c, Reg.AWG_CTRL_MARK_ROUTE c, Reg.AWG_CTRL_MARK_EV c,
    Reg.AWG_SEQ_BASE c, Reg.AWG_SEQ_CFG_SEQ_COUNT c, Reg.AWG_SEQ_CFG_START_ENTRY c, Reg.AWG_SAFE_SLEW_SAFE_CODE c,
    Reg.AWG_SAFE_SLEW_SLEW_MAX c, Reg.AWG_SKEW_USER_SKEW c]

/-- Upper end of a span, µV (R207). -/
def spanTop (span : Nat) : Nat :=
  match span with
  | 0 => 2000000
  | 1 => 5000000
  | 2 => 1000000
  | 3 => 2500000
  | _ => 5000000

/-- The settings of AWG c, as written, are valid (R207, R228). -/
def State.awgValid (s : State) (c : Nat) : Bool :=
  let n := s.fld (Reg.AWG_SEQ_CFG_SEQ_COUNT c)
  let span := s.fld (Reg.AWG_CTRL_SPAN c)
  decide (span ≤ 4) && decide (spanTop span ≤ s.fuse.ceiling) && decide (s.fld (Reg.AWG_SEQ_BASE c) % 32 = 0) &&
  decide (1 ≤ n) && decide (n ≤ 65536) && decide (s.fld (Reg.AWG_SEQ_CFG_START_ENTRY c) < n) &&
  within (-4000) 4000 (s.sfld (Reg.AWG_SKEW_USER_SKEW c))

/-- Sequencer that owns AWG c (R224). -/
def State.awgOwner (s : State) (c : Nat) : Nat := 2 * c + s.afld (Reg.AWG_CTRL_OWNER c)

/-- SAFE_CODE of AWG c (R219). -/
def State.awgSafe (s : State) (c : Nat) : Int := s.asfld (Reg.AWG_SAFE_SLEW_SAFE_CODE c)

/-- One step of the slew limiter from y towards x (R221). -/
def slewStep (slew : Nat) (y x : Int) : Int :=
  if slew = 0 then x else y + clampTo (-(slew : Int)) (slew : Int) (x - y)

/-- BUS_SHARED of digitizer c follows its SRC and the AWG's BUS_EN (R230). -/
def State.showShared (s : State) (c : Nat) : State :=
  s.setFlag (Reg.DG_STATUS_BUS_SHARED c) (decide (s.afld (Reg.DG_CTRL_SRC c) = 1) && decide (s.afld (Reg.AWG_CTRL_BUS_EN c) ≠ 0))

/-- The settings written to AWG c are put in force if valid; CFG_ERR follows; its idle output follows SAFE_CODE from now on
(R221, R228). -/
def State.applyAwg (s : State) (c : Nat) : State :=
  let ok := s.awgValid c
  (((if ok then s.applyFlds (awgFields c) else s).setFlag (Reg.AWG_STATUS_CFG_ERR c) (!ok)).showShared c).modAwg c (fun a => a)

/-- A write to AWG c's block: held while a program runs on the owner's group (R227), else put in force. -/
def State.awgWritten (s : State) (c : Nat) : State :=
  if s.runs (s.awgOwner c) then (s.modAwg c (fun a => { a with held := true })).setFlag (Reg.AWG_STATUS_PENDING c) true
  else s.applyAwg c

/-- The held writes of AWG c are put in force. -/
def State.takeAwg (s : State) (c : Nat) : State :=
  if (s.awg c).held then
    ((s.modAwg c (fun a => { a with held := false })).setFlag (Reg.AWG_STATUS_PENDING c) false).applyAwg c
  else s

/-- The held writes of AWG c are put in force once no program runs on the owner's group. -/
def State.awgRelease (s : State) (c : Nat) : State := if !s.runs (s.awgOwner c) then s.takeAwg c else s

/-! ### Levels (R206, R207, R214, R222) -/

/-- V_mid and V_half of a span, µV (R207). -/
def spanMid (span : Nat) : Int := if span = 0 then 1000000 else if span = 1 then 2500000 else 0
def spanHalf (span : Nat) : Int := (spanTop span : Int) - spanMid span

/-- The voltage of a code, V_mid + s × V_half / 32,768, in µV ÷ 32,768 (R207). -/
def codeVolts (span : Nat) (code : Int) : Int := 32768 * spanMid span + code * spanHalf span

/-- Stage 3: the code whose voltage is that of the limiter's code with the gain and offset of the span applied (R206, R409). -/
def State.awgCorrect (s : State) (c : Nat) (y : Int) : Int :=
  let span := s.afld (Reg.AWG_CTRL_SPAN c)
  let v := roundAway (s.calGain 3 c span * codeVolts span y) (32768 * 2 ^ 30) + s.calOffset 3 c span
  clampTo (-32768) 32767 (roundAway (32768 * (v - spanMid span)) (spanHalf span))

/-- The converter's last update changed a bit of [15:10]: a major transition (R222). -/
def Awg.major (a : Awg) : Bool :=
  match a.code, a.prior with
  | some x, some y => decide (ofSigned 16 x / 1024 ≠ ofSigned 16 y / 1024)
  | _, _ => false

/-- The output level, in µV ÷ 32,768, `t` ps after the ball time of the sample now output: the previous one for MTH_TIME after a
major transition (R207, R222). -/
def State.awgLevel (s : State) (c t : Nat) : Int :=
  let a := s.awg c
  let code := a.code.getD (s.awgCorrect c a.y)
  let held := decide (s.afld (Reg.AWG_CTRL_MTH_EN c) = 1) && a.major && decide (t < 500 * (s.afld (Reg.AWG_CTRL_MTH_TIME c) + 1))
  codeVolts (s.afld (Reg.AWG_CTRL_SPAN c)) (if held then a.prior.getD code else code)

/-- Cell time at which sample n reaches the AWG ball, or, `bus`, the pin ball (R211, R214). -/
def State.awgBallTime (s : State) (c n : Nat) (bus : Bool) : Nat :=
  (((s.awg c).start + 5000 * n + 50000 : Int) + s.asfld (Reg.AWG_SKEW_USER_SKEW c) +
    toSigned 16 (s.cal 3 c (if bus then 11 else 10))).toNat

/-! ### Entries and samples (R209, R210, R212) -/

/-- A sequence entry of 32 bytes (R209). -/
def awgEntryOf (d : List Byte) : AwgEntry :=
  let kind := fieldOf d 16 1
  { source := if kind = 2 then fieldOf d 0 2 else fieldOf d 0 6, length := fieldOf d 8 4, repeats := fieldOf d 12 2
    next := fieldOf d 14 2, kind := kind, flags := fieldOf d 17 1, amp := fieldOf d 18 2, dc := toSigned 16 (fieldOf d 20 2)
    pow := fieldOf d 24 6 }

/-- A sequence entry of 32 bytes is malformed (R210). -/
def awgEntryBad (d : List Byte) (count : Nat) : Bool :=
  let e := awgEntryOf d
  let zero := fun (off len : Nat) => decide (fieldOf d off len = 0)
  decide (2 < e.kind) || decide (4 ≤ e.flags) || decide (e.length % 32 ≠ 0) || decide (e.length < 256) ||
  (decide (e.next ≠ 0xFFFF) && decide (count ≤ e.next)) || !zero 22 2 || !zero 6 2 || !zero 30 2 ||
  (decide (e.kind = 0) && decide (e.source % 64 ≠ 0)) || (decide (e.kind = 2) && !zero 2 4) ||
  (if e.kind = 1 then decide (32768 < e.amp) else !zero 18 4 || !zero 24 6)

/-- The 32 codes of a 64-byte block (R209). -/
def blockCodes (d : List Byte) : List Int := (List.range 32).map (fun i => toSigned 16 (fieldOf d (2 * i) 2))

/-- Samples of the fetcher's buffer (R218). -/
def awgBuffer : Nat := 16384

/-- Stage 1 for the sample now output: its code, the cause of a gap where SAFE_CODE stands for it (0 underrun, 1 poison), and
whether a sine code saturated (R209, R212, R213, R219, R227). -/
def Awg.source (a : Awg) (coherent : Bool) (safe : Int) : Int × Option Nat × Bool :=
  let i := a.pos - a.n0
  if a.filler then (safe, none, false)
  else
    match a.cur.entry with
    | none => (safe, some 0, false)
    | some e =>
      if e.kind = 1 then
        let r := sineCode (((if coherent then e.source * a.pos else a.acc) + e.pow) % 2 ^ 48) e.amp e.dc
        (r.1, none, r.2)
      else if e.kind = 2 then (toSigned 16 e.source, none, false)
      else
        match SMap.find a.cur.blocks (i / 32) with
        | some l => (l.getD (i % 32) safe, none, false)
        | none => (safe, some (if a.cur.poisoned.contains (i / 32) then 1 else 0), false)

/-- The gap that stands while the sample now output has the given cause: the one open goes on, but a poisoned block's gap ends
with its block (R219, R220). -/
def Awg.gapWith (a : Awg) (cause : Option Nat) : Option (Nat × Nat) :=
  match cause with
  | none => none
  | some k =>
    match a.gap with
    | some (c, f) => if c = k ∧ (k = 0 ∨ a.pos - (a.pos - a.n0) % 32 ≤ f) then some (c, f) else some (k, a.pos)
    | none => some (k, a.pos)

/-- What a run of samples leaves: the AWG; samples limited; samples substituted; whether one was for underrun, one for poison;
whether a sine code saturated; the gaps that ended: cause, first sample, length. -/
structure AwgOut where
  a : Awg
  slewed : Nat := 0
  subst : Nat := 0
  underrun : Bool := false
  poison : Bool := false
  clip : Bool := false
  gaps : List (Nat × Nat × Nat) := []

/-- One sample passes the stages 1 to 4 (R206, R211, R212, R219, R221, R222). -/
def AwgOut.sample (coherent : Bool) (safe : Int) (slew : Nat) (correct : Int → Int) (o : AwgOut) : AwgOut :=
  let a := o.a
  let r := a.source coherent safe
  let g := a.gapWith r.2.1
  let y := slewStep slew a.y r.1
  { a := { a with pos := a.pos + 1, acc := (a.acc + a.ftw) % 2 ^ 48, y := y, prior := a.code, code := some (correct y), gap := g }
    slewed := o.slewed + (if y = r.1 then 0 else 1)
    subst := o.subst + (if r.2.1.isSome then 1 else 0)
    underrun := o.underrun || decide (r.2.1 = some 0)
    poison := o.poison || decide (r.2.1 = some 1)
    clip := o.clip || r.2.2
    gaps := match a.gap with
      | some (k, f) => if g = a.gap then o.gaps else o.gaps ++ [(k, f, a.pos - f)]
      | none => o.gaps }

/-- Samples pass; the first argument counts them. -/
def AwgOut.run (coherent : Bool) (safe : Int) (slew : Nat) (correct : Int → Int) : Nat → AwgOut → AwgOut
  | 0, o => o
  | k + 1, o => AwgOut.run coherent safe slew correct k (o.sample coherent safe slew correct)

/-- k samples of AWG c, as its settings in force make them. -/
def State.awgOut (s : State) (c k : Nat) (a : Awg) : AwgOut :=
  AwgOut.run (decide (s.afld (Reg.AWG_CTRL_PHASE_MODE c) = 1)) (s.awgSafe c) (s.afld (Reg.AWG_SAFE_SLEW_SLEW_MAX c)) (s.awgCorrect c)
    k { a := a }

/-! ### Gaps and stops (R216, R219, R220, R224) -/

/-- An AWG_GAP record (R220). -/
def State.awgGap (s : State) (c cause status first len : Nat) : State :=
  s.enterRecord (s.awgOwner c)
    { queue := s.afld (Reg.AWG_CTRL_GAP_QUEUE c), typ := 12, status := status, site := noSite, test := 0xFFFF
      cellTime := (s.awg c).start + 5000 * first
      payload := leBytes c 2 ++ leBytes cause 1 ++ leBytes 0 1 ++ leBytes len 4 ++ leBytes first 8 }

/-- STATUS of a gap of cause 0 or 1 (R220). -/
def gapStatus (cause : Nat) : Nat := if cause = 0 then 1 else 0x12

/-- The next k samples of AWG c, which runs, pass: TIMELINE, counts, flags, and the records of the gaps that end (R211, R212, R219
to R221, R228). -/
def State.awgPass (s : State) (c k : Nat) : State :=
  if k = 0 then s
  else
    let o := s.awgOut c k (s.awg c)
    let s1 := (((s.modAwg c (fun _ => o.a)).bump (Reg.AWG_SLEWED_SAMPLES c) o.slewed).bump (Reg.AWG_GAP_SAMPLES c) o.subst).setFld
      (Reg.AWG_TIMELINE c) o.a.pos
    let s2 := if o.underrun then s1.setFlag (Reg.AWG_STATUS_UNDERRUN c) true else s1
    let s3 := if o.poison then s2.setFlag (Reg.AWG_STATUS_POISON c) true else s2
    let s4 := if o.clip then s3.setFlag (Reg.AWG_STATUS_CLIP c) true else s3
    o.gaps.foldl (fun s g => s.awgGap c g.1 (gapStatus g.1) g.2.1 g.2.2) s4

/-- k samples of AWG c, which does not run, pass: SAFE_CODE through the limiter (R219, R221). -/
def State.awgIdle (s : State) (c k : Nat) : State :=
  let o := s.awgOut c k { s.awg c with filler := true, gap := none }
  (s.modAwg c (fun a => { a with y := o.a.y, code := o.a.code, prior := o.a.prior })).bump (Reg.AWG_SLEWED_SAMPLES c) o.slewed

/-- The open gap of AWG c ends; `cut`: by a reset (R220, R227). -/
def State.awgCloseGap (s : State) (c : Nat) (cut : Bool) : State :=
  let a := s.awg c
  match a.gap with
  | none => s
  | some (k, f) => (s.awgGap c k (if cut then 0x20 else gapStatus k) f (a.pos - f)).modAwg c (fun a => { a with gap := none })

/-- The command of a request completes: timeline index, entry playing afterwards (R225). -/
def State.awgAnswer (s : State) (r : AwgReq) (st n entry : Nat) : State :=
  match r.cmd with
  | some c => s.complete c st (n % 2 ^ 64 + 2 ^ 64 * entry)
  | none => s

/-- AWG c stops at the sample now output, its output going to SAFE_CODE through the limiter; an open gap is committed, and requests
that have not acted end: a stop has its effect, a jump has none (R216, R220, R221, R224). -/
def State.awgStop (s : State) (c : Nat) (cut : Bool) : State :=
  let a := s.awg c
  let reqs := (a.due.map Prod.fst).toList ++ a.asked
  let s1 := reqs.foldl (fun s r => s.awgAnswer r (if r.jump.isNone then 0 else 1) a.pos 0xFFFF) (s.awgCloseGap c cut)
  (s1.modAwg c (fun a => { y := a.y, code := a.code, prior := a.prior, phase := a.phase, pos := a.pos, start := a.start, marks := a.marks
                           held := a.held })).setFld (Reg.AWG_STATUS_STATE c) 0

/-- AWG c stops at once, if it runs or waits to (R224, R227). -/
def State.awgHalt (s : State) (c : Nat) (cut : Bool) : State :=
  let st := s.fld (Reg.AWG_STATUS_STATE c)
  if st = 2 then s.awgStop c cut
  else if st = 1 then
    let s1 := match (s.awg c).startCmd with
      | some x => s.complete x (if cut then 0x20 else 1) (2 ^ 64 * 0xFFFF)
      | none => s
    (s1.modAwg c (fun a => { a with startCmd := none })).setFld (Reg.AWG_STATUS_STATE c) 0
  else s

/-- The cluster of AWG c is reset: the AWG stops, and the limiter stands at SAFE_CODE (R221, R227). -/
def State.awgReset (s : State) (c : Nat) : State :=
  let s1 := s.awgHalt c true
  { s1 with awgs := SMap.del s1.awgs c }

/-- The AWGs that a program of group b started stop at once: it has completed, been pre-empted or reached its time limit
(R224). -/
def State.awgProgramEnd (s : State) (b : Nat) : State :=
  (List.range 32).foldl (fun s c => if (s.awg c).program = some b then s.awgHalt c false else s) s

/-- A malformed entry is due at the sample now output: SAFE_CODE, ENTRY_ERR and a gap of cause 3 (R210). -/
def State.awgMalformed (s : State) (c : Nat) : State :=
  (((s.setFlag (Reg.AWG_STATUS_ENTRY_ERR c) true).awgCloseGap c false).awgGap c 3 0x7F (s.awg c).pos 0).awgStop c false

/-- A fetch faults: the AWG stops at the sample now output. DESIGN CHOICE: a poisoned entry, for which R219 names no samples, stops
it too, with a gap of cause 1. Log entry 40 (R219). -/
def State.awgFault (s : State) (c status : Nat) : State :=
  let s1 := if status = 0x12 then s.setFlag (Reg.AWG_STATUS_POISON c) true else s.setFlag (Reg.AWG_STATUS_FAULT c) true
  ((s1.awgCloseGap c false).awgGap c (if status = 0x12 then 1 else 2) status (s.awg c).pos 0).awgStop c false

/-! ### Plays, boundaries and markers (R211, R216, R217, R227) -/

/-- A marker of timeline index n reaches the ball at cell time t (R217). -/
def State.awgMarker (s : State) (c n t : Nat) : State :=
  let route := s.afld (Reg.AWG_CTRL_MARK_ROUTE c)
  let s1 := s.bump (Reg.AWG_MARKS c) 1
  let s2 := if bitOf route 0 then
      let d := SMap.get {} s1.dgs c
      let d1 := { d with mark := true }
      { s1 with dgs := SMap.put s1.dgs c d1 }
    else s1
  let s3 := if bitOf route 1 then s2.raiseAt 26 c n t else s2
  if bitOf route 2 then
    let k := s.afld (Reg.AWG_CTRL_MARK_EV c)
    let l := SMap.get {} s3.ev.lines k
    let l1 := { l with markers := addOnce c l.markers }
    { s3 with ev := { s3.ev with lines := SMap.put s3.ev.lines k l1 } }
  else s3

/-- The markers of AWG c whose ball time has come fire (R217). -/
def State.awgFire (s : State) (c : Nat) : State :=
  let due := (s.awg c).marks.filter (fun m => decide (m.1 ≤ s.now))
  if due.isEmpty then s
  else
    due.foldl (fun s m => s.awgMarker c m.2 m.1)
      (s.modAwg c (fun a => { a with marks := a.marks.filter (fun m => decide (s.now < m.1)) }))

/-- The current play's entry is known: a KIND 1 entry's FTW holds from the play's first sample, whatever was substituted since
(R212, R219). -/
def Awg.tune (a : Awg) : Awg :=
  match a.cur.entry with
  | some e =>
    if e.kind = 1 then
      { a with ftw := e.source, acc := (a.acc + (a.pos - a.n0) * (e.source + (2 ^ 48 - a.ftw % 2 ^ 48))) % 2 ^ 48 }
    else a
  | none => a

/-- The current play's entry is known: its FTW, and its marker, which fires at the ball time of its first sample (R212, R217). -/
def State.awgPlayKnown (s : State) (c : Nat) : State :=
  let a := (s.awg c).tune
  match a.cur.entry with
  | none => s
  | some e =>
    let marks := if (bitOf e.flags 0 && decide (a.play = 0)) || bitOf e.flags 1 then a.marks ++ [(s.awgBallTime c a.n0 false, a.n0)]
      else a.marks
    s.modAwg c (fun _ => { a with marks := marks })

/-- A play starts at index n: registers, marker, or the stop that a malformed entry is (R210, R217). -/
def State.awgPlay (s : State) (c n play : Nat) (p : AwgPlay) : State :=
  let s1 := s.modAwg c (fun a =>
    { a with n0 := n, play := play, cur := p, nxt := none, filler := false, moved := false
             target := if a.due.isSome then a.target else none })
  let s2 := (s1.setFld (Reg.AWG_POSITION_ENTRY c) p.index).setFld (Reg.AWG_POSITION_PLAY c) play
  if p.bad then s2.awgMalformed c else s2.awgPlayKnown c

/-- What follows the current play in sequence order: entry and play number (R211). -/
def Awg.following (a : Awg) : Option (Nat × Nat) :=
  match a.cur.entry with
  | none => none
  | some e =>
    if a.filler then none
    else if a.play < e.repeats then some (a.cur.index, a.play + 1)
    else if e.next = 0xFFFF then none else some (e.next, 0)

/-- The registered request acts at the end of the current play: it was registered before its final 64 samples (R216). -/
def Awg.actsNext (a : Awg) : Bool :=
  match a.due, a.cur.entry with
  | some (_, n), some e => decide (n + 64 < a.n0 + e.length)
  | _, _ => false

/-- Samples of the current play still to be output. -/
def Awg.left (a : Awg) : Option Nat := a.cur.entry.map (fun e => a.n0 + e.length - a.pos)

/-- Play `play` of entry e, which follows in sequence order, as far as it is fetched: prefetched, kept in the buffer, or not at all
(R218). -/
def Awg.fetched (a : Awg) (e play : Nat) : AwgPlay :=
  let kept := match a.cur.entry with
    | some x => if play ≠ 0 then { a.cur with blocks := if x.length ≤ awgBuffer then a.cur.blocks else []
                                              poisoned := if x.length ≤ awgBuffer then a.cur.poisoned else [] }
                else { index := e }
    | none => { index := e }
  match a.nxt with
  | some p => if p.index = e then p else kept
  | none => kept

/-- AWG_BOUNDARY: the current play of AWG c ends (R211, R216, R227). -/
def doAwgBoundary (c : Nat) (s : State) : State :=
  let a := s.awg c
  match a.cur.entry with
  | none => s
  | some e =>
    if s.fld (Reg.AWG_STATUS_STATE c) ≠ 2 then s
    else
      let n := a.n0 + e.length
      let k := n - a.pos
      let s1 := (s.awgPass c k).modAwg c (fun a => { a with phase := a.phase - 5000 * k })
      match a.due, a.following with
      | some (r, _), next =>
        if a.actsNext then
          let s2 := s1.modAwg c (fun a => { a with due := none })
          match r.jump with
          | none => (s2.awgStop c false).awgAnswer r 0 n 0xFFFF
          | some j => (s2.awgPlay c n 0 (a.target.getD { index := j })).awgAnswer r 0 n j
        else
          match next with
          | some (j, p) => s1.awgPlay c n p (a.fetched j p)
          | none => if r.jump.isNone then s1.awgStop c false else s1.modAwg c (fun a => { a with n0 := n, filler := true, moved := false })
      | none, some (j, p) => s1.awgPlay c n p (a.fetched j p)
      | none, none => s1.awgStop c false

/-! ### Time (R206, R211, R217) -/

/-- 1 ns passes at AWG c: a sample every 5 ns, up to the end of the current play; the markers that reach the ball fire. -/
def State.awgNs (s : State) (c : Nat) : State :=
  let a := s.awg c
  let runs := decide (s.fld (Reg.AWG_STATUS_STATE c) = 2)
  let full := ((a.phase + 1000) / 5000).toNat
  let k : Nat := match runs, a.left with
    | true, some l => min full l
    | _, _ => full
  let s1 := s.modAwg c (fun a => { a with phase := a.phase + 1000 - 5000 * k })
  (if k = 0 then s1 else if runs then s1.awgPass c k else s1.awgIdle c k).awgFire c

/-- 1 ns passes at every AWG. -/
def State.awgsNs (s : State) : State := (s.awgs.map Prod.fst).foldl State.awgNs s

/-! ### Starts and requests (R214 to R216, R224, R225) -/

/-- AWG c starts at T_s = `at'`: from now on its samples are counted (R211, R212, R214, R219). -/
def State.awgBegin (s : State) (c at' : Nat) (program : Option Nat) : State :=
  let e := s.afld (Reg.AWG_SEQ_CFG_START_ENTRY c)
  let s1 := s.modAwg c (fun a =>
    { start := at', program := program, cur := { index := e }, y := a.y, code := a.code, prior := a.prior, marks := a.marks
      held := a.held })
  ((((s1.setFld (Reg.AWG_STATUS_STATE c) 2).setFlag (Reg.AWG_STATUS_FAULT c) false).setFld (Reg.AWG_TIMELINE c) 0).setFld
    (Reg.AWG_POSITION_ENTRY c) e).setFld (Reg.AWG_POSITION_PLAY c) 0

/-- An analog control on the AWG of every cluster that the group led by b drives; an AWG of another owner ignores it
(R113, R224). -/
def State.awgControl (s : State) (b code : Nat) (f : State → Nat → Nat → State) : State :=
  match s.dueAnalog b code with
  | none => s
  | some (operand, _) =>
    (s.groupClusters b).foldl
      (fun s c => if s.leaderOf (s.awgOwner c) = b then f s c operand else s.setFlag (Reg.AWG_STATUS_IGNORED c) true)
      (s.firedAnalog b)

/-- AWG_START (R113, R214, R224). -/
def doAwgStart (b : Nat) (s : State) : State :=
  s.awgControl b 5 (fun s c _ =>
    if s.fld (Reg.AWG_STATUS_STATE c) = 0 then s.awgBegin c s.now (some b) else s.setFlag (Reg.AWG_STATUS_START_OVERRUN c) true)

/-- A jump names no entry of the sequence: it is refused (R216). -/
def State.awgNoEntry (s : State) (c : Nat) (r : AwgReq) : Bool :=
  r.jump.any (fun e => decide (s.afld (Reg.AWG_SEQ_CFG_SEQ_COUNT c) ≤ e))

/-- A request is registered at sample n of AWG c: it replaces one that has not acted; in a gap, a jump that acts at the end of the
play moves the fetching to its target (R215, R216, R227). -/
def State.awgRegister (s : State) (c n : Nat) (r : AwgReq) : State :=
  if s.awgNoEntry c r then s.setFlag (Reg.AWG_STATUS_JUMP_ERR c) true
  else
    let a := s.awg c
    let s1 := match a.due with
      | some (old, _) => s.awgAnswer old 1 n a.cur.index
      | none => s
    s1.modAwg c (fun a =>
      let b := { a with due := some (r, n), target := none }
      { b with moved := b.gap.isSome && r.jump.isSome && (b.actsNext || b.cur.entry.isNone) })

/-- A word's request reaches AWG c while it runs; a jump to no entry is refused (R215, R216). -/
def State.awgAsk (s : State) (c : Nat) (r : AwgReq) : State :=
  if s.fld (Reg.AWG_STATUS_STATE c) ≠ 2 then s
  else if s.awgNoEntry c r then s.setFlag (Reg.AWG_STATUS_JUMP_ERR c) true
  else s.modAwg c (fun a => { a with asked := a.asked ++ [r] })

/-- AWG_STOP (R113, R216). -/
def doAwgStop (b : Nat) (s : State) : State :=
  s.awgControl b 6 (fun s c _ => s.awgAsk c { jump := none, cmd := none, since := s.now })

/-- AWG_JUMP (R113, R216). -/
def doAwgJump (b : Nat) (s : State) : State :=
  s.awgControl b 7 (fun s c e => s.awgAsk c { jump := some e, cmd := none, since := s.now })

/-- The first sample n with τ_n ≥ t + 20,000 ps (R215). -/
def Awg.firstAfter (a : Awg) (t : Nat) : Nat := (t + 20000 - a.start + 4999) / 5000

/-- AWG_REQUEST_REGISTER: the oldest request of AWG c is registered at sample n of its current play, the first 20 ns or more after
its vector-period boundary or the one after it (R215, R216). -/
def doAwgRegister (c n : Nat) (s : State) : State :=
  let a := s.awg c
  match a.asked with
  | r :: l =>
    if s.fld (Reg.AWG_STATUS_STATE c) ≠ 2 ∨ n < a.n0 ∨ a.cur.entry.any (fun e => decide (a.n0 + e.length ≤ n)) ∨
        n < a.firstAfter r.since ∨ a.firstAfter r.since + 1 < n then s
    else (s.modAwg c (fun a => { a with asked := l })).awgRegister c n r
  | [] => s

/-! ### Fetching (R218, R219) -/

/-- Entry and play number of the play that a fetch is for, where the fetcher reads for it: the current play, unless fetching has
moved on; the next in sequence order once the current play has 1,024 samples left, and no request acts at its end; a jump's
target from its registration (R218, R227). -/
def Awg.fetchOf (a : Awg) : AwgPart → Option (Nat × Nat)
  | .now => if a.filler then none else some (a.cur.index, a.play)
  | .next => if a.actsNext || !a.left.any (fun l => decide (l ≤ 1024)) then none else a.following
  | .target => a.due.bind (fun r => r.1.jump.map (fun e => (e, 0)))

/-- The play that a fetch is for, as far as it is fetched. -/
def Awg.part (a : Awg) : AwgPart → Nat × Nat → AwgPlay
  | .now, _ => a.cur
  | .next, x => a.fetched x.1 x.2
  | .target, x => a.target.getD { index := x.1 }

/-- The AWG with a play of a fetch changed. -/
def Awg.setPart (a : Awg) (w : AwgPart) (p : AwgPlay) : Awg :=
  match w with
  | .now => { a with cur := p }
  | .next => { a with nxt := some p }
  | .target => { a with target := some p }

/-- The fetcher reads block k for a play: within 16,384 samples of the sample now output; of a jump's target its first 512 samples,
and more once it is the next play and 1,024 samples are left (R218). -/
def Awg.reads (a : Awg) (w : AwgPart) (k : Nat) : Bool :=
  match w with
  | .now => !a.moved && decide (a.n0 + 32 * k < a.pos + awgBuffer)
  | .next => a.left.any (fun l => decide (l + 32 * k < awgBuffer))
  | .target => decide (k < 16) || (a.actsNext && a.left.any (fun l => decide (l ≤ 1024) && decide (l + 32 * k < awgBuffer)))

/-- The underrun gap of AWG c ends if the sample now output is there (R219, R220). -/
def State.awgResume (s : State) (c : Nat) : State :=
  let a := s.awg c
  if (a.source false 0).2.1 = some 0 then s else s.awgCloseGap c false

/-- The entry of a play of AWG c is read (R209, R210, R218). -/
def State.awgFetchEntry (s : State) (c : Nat) (w : AwgPart) (x : Nat × Nat) : State :=
  let r := s.memRead { engine := 3, unit := c } (s.afld (Reg.AWG_SEQ_BASE c) + 32 * x.1) 32
  match r.1.failure, r.1 with
  | some st, _ => r.2.awgFault c st
  | none, .ok d _ =>
    let p : AwgPlay :=
      { index := x.1, entry := some (awgEntryOf d), bad := awgEntryBad d (s.afld (Reg.AWG_SEQ_CFG_SEQ_COUNT c)) }
    let s1 := r.2.modAwg c (fun a => a.setPart w p)
    match w with
    | .now => if p.bad then s1.awgMalformed c else (s1.awgPlayKnown c).awgResume c
    | _ => s1
  | none, _ => r.2

/-- Block k of a play's samples is read; a poisoned one is marked (R209, R218, R219). -/
def State.awgFetchBlock (s : State) (c k : Nat) (w : AwgPart) (x : Nat × Nat) : State :=
  let p := (s.awg c).part w x
  match p.entry with
  | none => s
  | some e =>
    if e.kind ≠ 0 ∨ e.length ≤ 32 * k ∨ p.bad ∨ !(s.awg c).reads w k then s
    else
      let r := s.memRead { engine := 3, unit := c } (e.source + 64 * k) 64
      match r.1 with
      | .fault f => r.2.awgFault c (kindStatus f)
      | .ok d none => (r.2.modAwg c (fun a => a.setPart w { p with blocks := SMap.put p.blocks k (blockCodes d) })).awgResume c
      | .ok _ (some _) => (r.2.modAwg c (fun a => a.setPart w { p with poisoned := addOnce k p.poisoned })).awgResume c
      | _ => r.2

/-- AWG_FETCH_DONE: a fetch of AWG c completes: of a play's entry, or of block k of its samples (R218, R219). -/
def doAwgFetchDone (c : Nat) (what : AwgFetch) (s : State) : State :=
  let a := s.awg c
  if s.fld (Reg.AWG_STATUS_STATE c) ≠ 2 then s
  else
    match what with
    | .entry w =>
      match a.fetchOf w with
      | none => s
      | some x => if (a.part w x).entry.isSome then s else s.awgFetchEntry c w x
    | .block w k =>
      match a.fetchOf w with
      | none => s
      | some x => s.awgFetchBlock c k.toNat w x

/-- AWG_UNDERRUN: the sample now output of AWG c is not in the buffer, and SAFE_CODE is substituted (R219). -/
def doAwgUnderrun (c : Nat) (s : State) : State :=
  let a := s.awg c
  if s.fld (Reg.AWG_STATUS_STATE c) ≠ 2 ∨ a.left = some 0 ∨ (a.source false 0).2.1 ≠ some 0 then s
  else (s.awgPass c 1).modAwg c (fun a => { a with phase := a.phase - 5000 })

/-! ### AWG_RUN (R225) -/

/-- The checks and the wait of every AWG_RUN; then `k` with the AWG (R225, R473). -/
def State.awgRun (s : State) (c : Cmd) (bad : Bool) (k : Nat → State → State) : State :=
  let n := c.target
  let malformed := c.reservedSet [(8, 1), (10, 2), (16, 8)] || bad || decide (32 ≤ n) || decide (2 < c.field 8 1) ||
    s.flag (Reg.AWG_STATUS_CFG_ERR n)
  s.checked c ((malformed, 0x7F) :: s.unitChecks [n, seqUnit (s.awgOwner n)]) (fun s =>
    if s.runs (s.awgOwner n) then s.hold c (.program [s.leaderOf (s.awgOwner n)]) else k n s)

/-- AWG_RUN with ACTION 0 (R214, R225). -/
def doAwgRunStart (c : Cmd) (s : State) : State :=
  s.awgRun c false (fun n s =>
    let t := c.field 16 8
    if s.fld (Reg.AWG_STATUS_STATE n) ≠ 0 then
      (s.setFlag (Reg.AWG_STATUS_START_OVERRUN n) true).complete c 1
        (s.fld (Reg.AWG_TIMELINE n) + 2 ^ 64 * s.fld (Reg.AWG_POSITION_ENTRY n))
    else if t ≤ s.now then (s.awgBegin n s.now none).complete c 0 (2 ^ 64 * s.afld (Reg.AWG_SEQ_CFG_START_ENTRY n))
    else (s.modAwg n (fun a => { a with startCmd := some c, startAt := t })).setFld (Reg.AWG_STATUS_STATE n) 1)

/-- AWG_RUN with ACTION 1: registered when the command is decoded; a start that waits is withdrawn, and an AWG that does not run is
stopped already (R215, R216, R225). -/
def doAwgRunStop (c : Cmd) (s : State) : State :=
  s.awgRun c false (fun n s =>
    if s.fld (Reg.AWG_STATUS_STATE n) = 2 then s.awgRegister n (s.awg n).pos { jump := none, cmd := some c, since := s.now }
    else (s.awgHalt n false).complete c 0 (s.fld (Reg.AWG_TIMELINE n) + 2 ^ 64 * 0xFFFF))

/-- AWG_RUN with ACTION 2: registered when the command is decoded. DESIGN CHOICE: an AWG that does not run has no boundary to jump
at, and the command completes with 0x01. Log entry 40 (R215, R216, R225). -/
def doAwgRunJump (c : Cmd) (s : State) : State :=
  s.awgRun c (decide (c.field 8 1 = 2) && decide (s.afld (Reg.AWG_SEQ_CFG_SEQ_COUNT c.target) ≤ c.field 10 2)) (fun n s =>
    if s.fld (Reg.AWG_STATUS_STATE n) = 2 then
      s.awgRegister n (s.awg n).pos { jump := some (c.field 10 2), cmd := some c, since := s.now }
    else s.complete c 1 (s.fld (Reg.AWG_TIMELINE n) + 2 ^ 64 * 0xFFFF))

/-- AWG_TIMED_START: the cell time that an AWG_RUN named arrives (R225). -/
def doAwgTimedStart (c : Nat) (s : State) : State :=
  let a := s.awg c
  if s.now < a.startAt then s
  else
    match s.fld (Reg.AWG_STATUS_STATE c), a.startCmd with
    | 1, some x => (s.awgBegin c a.startAt none).complete x 0 (2 ^ 64 * s.afld (Reg.AWG_SEQ_CFG_START_ENTRY c))
    | _, _ => s

end Sys2Proof.Machine
end

