-- ==== Sys2Proof/Machine/Acq.lean ====
section
/-! DEFINITION. Digitizers, triggers and acquisition (spec/11). -/

namespace Sys2Proof.Machine

open Sys2Proof

/-! ### Settings (R230, R231, R239, R243, R250) -/

/-- Digitizer c's record, and the state with it changed. -/
def State.dg (s : State) (c : Nat) : Dg := SMap.get {} s.dgs c
def State.modDg (s : State) (c : Nat) (f : Dg → Dg) : State := { s with dgs := SMap.put s.dgs c (f (s.dg c)) }

/-- The settings of digitizer c. -/
def dgFields (c : Nat) : List Fld :=
  [Reg.DG_CTRL_SRC c, Reg.DG_CTRL_RANGE c, Reg.DG_CTRL_BUS_PIN c, Reg.DG_CTRL_OWNER c, Reg.DG_CTRL_TAG_EN c, Reg.DG_CTRL_TAG_POS c,
    Reg.DG_CTRL_TERM c, Reg.DG_CTRL_SUMMARY c, Reg.DG_CTRL_TEST_OFFSET c, Reg.ACQ_CFG_REDUCE c, Reg.ACQ_CFG_INTERVAL c,
    Reg.ACQ_CFG_PRE c, Reg.ACQ_CFG_POST c, Reg.ACQ_CFG_RECORDS_MAX c, Reg.ACQ_CFG_REARM_HOLD c, Reg.PAT_PAT_LEVEL c,
    Reg.PAT_PAT_HYST c, Reg.DATA_RING_DATA_BASE c, Reg.DATA_RING_DATA_LOG2 c, Reg.DG_TIMEOUT c] ++
  (List.range 4).flatMap (fun k =>
    [Reg.TRIG_COND_TYPE c k, Reg.TRIG_COND_LEVEL c k, Reg.TRIG_COND_PAT_VALUE c k, Reg.TRIG_COND_PAT_CARE c k,
      Reg.TRIG_COND_HYST c k])

/-- Words per interval of a reduction mode (R239). -/
def reduceWords (reduce : Nat) : Nat := if reduce ≤ 1 then 1 else reduce

/-- The settings of digitizer c, as written, are valid (R250). -/
def State.dgValid (s : State) (c : Nat) : Bool :=
  let reduce := s.fld (Reg.ACQ_CFG_REDUCE c)
  let k := s.fld (Reg.ACQ_CFG_INTERVAL c) + 1
  decide (s.fld (Reg.DG_CTRL_SRC c) ≤ 3) && decide (s.fld (Reg.DG_CTRL_RANGE c) ≤ 4) &&
  (List.range 4).all (fun i =>
    decide (s.fld (Reg.TRIG_COND_TYPE c i) ≤ 7) && decide (s.fld (Reg.TRIG_COND_PAT_CARE c i) < 2 ^ 13) &&
    decide (s.fld (Reg.TRIG_COND_HYST c i) ≤ 1000000)) &&
  decide (reduceWords reduce ≤ k) && !(decide (reduce = 0) && decide (1 < k)) &&
  decide (s.fld (Reg.ACQ_CFG_PRE c) * reduceWords reduce ≤ 16384) && decide (s.fld (Reg.ACQ_CFG_POST c) ≠ 0) &&
  decide (s.fld (Reg.ACQ_CFG_RECORDS_MAX c) ≠ 0) && within 12 30 (s.fld (Reg.DATA_RING_DATA_LOG2 c)) &&
  decide (s.fld (Reg.DATA_RING_DATA_BASE c) % 4096 = 0)

/-- Sequencer that owns digitizer c (R234). -/
def State.dgOwner (s : State) (c : Nat) : Nat := 2 * c + s.afld (Reg.DG_CTRL_OWNER c)

/-- GAIN and OFFSET of the selected range are shown (R250, R410). -/
def State.showDgCal (s : State) (c : Nat) : State :=
  let r := s.afld (Reg.DG_CTRL_RANGE c)
  (s.setFld (Reg.DG_CAL_GAIN c) (s.cal 4 c (2 * r))).setFld (Reg.DG_CAL_OFFSET c) (s.cal 4 c (2 * r + 1))

/-- The settings written to digitizer c are put in force if valid; CFG_ERR follows. Applying the ring's configuration zeroes
both positions (R243, R250). -/
def State.applyDg (s : State) (c : Nat) : State :=
  let ok := s.dgValid c
  let s1 := if ok then (s.applyFlds (dgFields c)).showDgCal c else s
  let s2 := if ok && (s.dg c).heldRing then
      ((s1.setFld (Reg.DG_WRITE c) 0).setFld (Reg.DG_RELEASE c) 0).modDg c (fun d => { d with queue := [], heldRing := false })
    else s1
  (s2.setFlag (Reg.DG_STATUS_CFG_ERR c) (!ok)).showShared c

/-- The ring has been written, and a DMA transfer reads the one in force: the write waits for the transfer (R336). -/
def State.dgRingWaits (s : State) (c : Nat) : Bool := (s.dg c).heldRing && s.dmaReads (.digitizer c)

/-- A write to digitizer c's block: held while a program runs on the owner's group, or a DMA transfer reads the ring that it changes
(R249, R336), else put in force. -/
def State.dgWritten (s : State) (c : Nat) (ring : Bool) : State :=
  let s1 := if ring then s.modDg c (fun d => { d with heldRing := true }) else s
  if s.runs (s.dgOwner c) || s1.dgRingWaits c then (s1.modDg c (fun d => { d with held := true })).setFlag (Reg.DG_STATUS_PENDING c) true
  else s1.applyDg c

/-- The held writes of digitizer c are put in force. -/
def State.takeDg (s : State) (c : Nat) : State :=
  if (s.dg c).held then
    ((s.modDg c (fun d => { d with held := false })).setFlag (Reg.DG_STATUS_PENDING c) false).applyDg c
  else s

/-- The held writes of digitizer c are put in force once no program runs on the owner's group. -/
def State.dgRelease (s : State) (c : Nat) : State := if !s.runs (s.dgOwner c) && !s.dgRingWaits c then s.takeDg c else s

/-- The bus pin of digitizer c: the AWG's while that has BUS_EN at 1 (R230). -/
def State.dgBusPin (s : State) (c : Nat) : Nat :=
  32 * c + (if s.afld (Reg.AWG_CTRL_BUS_EN c) ≠ 0 then s.afld (Reg.AWG_CTRL_BUS_PIN c) else s.afld (Reg.DG_CTRL_BUS_PIN c))

/-- The bus switch of digitizer c is open (R223, R230). -/
def State.dgBusOpen (s : State) (c : Nat) : Bool :=
  let p := s.dgBusPin c
  decide (s.afld (Reg.DG_CTRL_SRC c) = 1) && (s.ppmuActive p || s.pinParked p || (s.pin p).safe.isSome)

/-- The site of digitizer c (R235): group leader, position, number. -/
def State.dgSite (s : State) (c : Nat) : Option (Nat × Nat × Nat) :=
  if s.afld (Reg.DG_CTRL_SRC c) = 1 then (s.pinSite (s.dgBusPin c)).map (fun x => (x.1, x.2.position, x.2.site))
  else if s.afld (Reg.DG_CTRL_TAG_EN c) ≠ 0 then
    let b := s.leaderOf (s.dgOwner c)
    (s.sitePos b (s.afld (Reg.DG_CTRL_TAG_POS c))).map (fun x => (b, x.position, x.site))
  else none

/-! ### Values and conditions (R231, R233, R236, R237) -/

/-- V_mid and V_half of a range, µV (R231). -/
def dgMid (r : Nat) : Int := if r = 4 then 2500000 else 0
def dgHalf (r : Nat) : Int :=
  match r with
  | 0 => 250000
  | 1 => 1000000
  | 2 => 2500000
  | 3 => 5000000
  | _ => 4500000

/-- The corrected value of a raw code: sat(round(64 × G × (C − O))) on 24 bits (R233, R409). -/
def dgValue (gain offset code : Int) : Int :=
  max (-8388608) (min 8388607 (roundAway (gain * (64 * code - offset)) (2 ^ 30)))

/-- The voltage of a corrected value, in µV × 2^23: exact (R231). -/
def dgScaled (range : Nat) (v : Int) : Int := dgMid range * 2 ^ 23 + v * dgHalf range

/-- A level in µV on the scale of `dgScaled`. -/
def scaledLevel (level : Int) : Int := level * 2 ^ 23

/-- Where a sample lies to a band around a level: above, below (R189, R236). -/
def overBand (x level hyst : Int) : Bool := decide (scaledLevel (2 * level + hyst) < 2 * x)
def underBand (x level hyst : Int) : Bool := decide (2 * x < scaledLevel (2 * level - hyst))

/-- The pattern input word of digitizer c on this sample (R237). -/
def State.dgPattern (s : State) (c : Nat) : Nat :=
  ((List.range 4).map (fun i => b2n (s.dg (c / 4 * 4 + i)).above * 2 ^ i)).sum +
    ((List.range 8).map (fun k => b2n (s.evAsserted k) * 2 ^ (4 + k))).sum + b2n (s.dg c).mark * 2 ^ 12

/-- The pattern of condition k matches (R237). -/
def State.dgMatch (s : State) (c k word : Nat) : Bool :=
  decide (((word ^^^ s.afld (Reg.TRIG_COND_PAT_VALUE c k)) &&& s.afld (Reg.TRIG_COND_PAT_CARE c k)) = 0)

/-- Condition k on a sample: its slope state before, whether the pattern matched before and matches now (R236). -/
def State.dgCond (s : State) (c k : Nat) (x : Int) (slope : Nat) (was now : Bool) : Bool :=
  let level := s.asfld (Reg.TRIG_COND_LEVEL c k)
  let hyst : Int := s.afld (Reg.TRIG_COND_HYST c k)
  let rise := decide (slope = 1) && overBand x level hyst
  let fall := decide (slope = 2) && underBand x level hyst
  match s.afld (Reg.TRIG_COND_TYPE c k) with
  | 1 => decide (scaledLevel level < x)
  | 2 => decide (x < scaledLevel level)
  | 3 => rise
  | 4 => fall
  | 5 => rise || fall
  | 6 => now && !was
  | 7 => now
  | _ => false

/-- Slope state of condition k after a sample (R236). -/
def State.dgSlope (s : State) (c k : Nat) (x : Int) (slope : Nat) : Nat :=
  let level := s.asfld (Reg.TRIG_COND_LEVEL c k)
  let hyst : Int := s.afld (Reg.TRIG_COND_HYST c k)
  if overBand x level hyst then 2 else if underBand x level hyst then 1 else slope

/-- SLOPE_UNSETTLED of digitizer c follows its slope conditions (R236). -/
def State.showSlopes (s : State) (c : Nat) : State :=
  let d := s.dg c
  s.setFlag (Reg.DG_STATUS_SLOPE_UNSETTLED c) (d.arm.isSome &&
    (List.range 4).any (fun k =>
      decide (3 ≤ s.afld (Reg.TRIG_COND_TYPE c k)) && decide (s.afld (Reg.TRIG_COND_TYPE c k) ≤ 5) && decide (d.slope.getD k 0 = 0)))

/-- One more sample, with its flags. -/
def DgAcc.add (a : DgAcc) (v : Int) (flags : Nat) : DgAcc :=
  { count := a.count + 1, sum := a.sum + v, lo := if a.count = 0 then v else min a.lo v, hi := if a.count = 0 then v else max a.hi v
    flags := orMask a.flags flags }

/-- The samples of both. -/
def DgAcc.merge (a b : DgAcc) : DgAcc :=
  if a.count = 0 then b
  else if b.count = 0 then a
  else { count := a.count + b.count, sum := a.sum + b.sum, lo := min a.lo b.lo, hi := max a.hi b.hi, flags := orMask a.flags b.flags }

/-- Words of an interval: values on 24 bits, flags in bits 24 to 26 (R239). -/
def DgAcc.words (a : DgAcc) (reduce : Nat) : List Nat :=
  let avg := roundAway a.sum (max a.count 1 : Nat)
  let l := match reduce with
    | 0 => [a.sum]
    | 1 => [avg]
    | 2 => [a.lo, a.hi]
    | _ => [a.lo, a.hi, avg]
  l.map (fun v => ofSigned 24 v + 2 ^ 24 * (a.flags % 8))

/-- VALUE of a record, µV (R246). -/
def dgSummary (summary range : Nat) (a : DgAcc) : Int :=
  let avg := roundAway a.sum (max a.count 1 : Nat)
  match summary with
  | 0 => roundAway (dgScaled range avg) (2 ^ 23)
  | 1 => roundAway (dgScaled range a.lo) (2 ^ 23)
  | 2 => roundAway (dgScaled range a.hi) (2 ^ 23)
  | _ => roundAway ((a.hi - a.lo) * dgHalf range) (2 ^ 23)

/-! ### Records and readings (R245 to R247) -/

/-- Index of the record in progress (R245). -/
def Dg.record (d : Dg) : Nat := d.readings.length

/-- Cell time of sample n (R234). -/
def Dg.sampleTime (d : Dg) (n : Nat) : Nat := d.start + 40000 * n

/-- TEST of record r (R247). -/
def State.dgTest (s : State) (c : Nat) (m : DgArm) (r : Nat) : Nat := (m.base + s.afld (Reg.DG_CTRL_TEST_OFFSET c) + r) % 65536

/-- An ACQ record of record r of the measurement enters the writer of the owner (R245). -/
def State.acqRecord (s : State) (c : Nat) (m : DgArm) (r typ status cellTime : Nat) (suspect : Bool) (body : List Byte) : State :=
  if !m.toRecord then s
  else
    s.enterRecord (s.dgOwner c)
      { queue := m.queue, typ := typ, status := status, test := s.dgTest c m r, cellTime := cellTime
        site := match m.site with | some x => siteWord x.2.2 (4 * b2n suspect) | none => noSite + 512 * (4 * b2n suspect)
        payload := leBytes c 2 ++ body }

/-- The open extent is closed with an ACQ_DATA record (R245). -/
def State.dgCloseExtent (s : State) (c : Nat) (m : DgArm) (status : Nat) : State :=
  let d := s.dg c
  match d.extent with
  | none => s
  | some (first, pos, words, flags) =>
    let reduce := s.afld (Reg.ACQ_CFG_REDUCE c)
    let s1 := s.modDg c (fun d => { d with extent := none })
    if words = 0 then s1
    else
      s1.acqRecord c m d.record 10 status (d.sampleTime first) (bitOf flags 2)
        (leBytes reduce 1 ++ leBytes (reduceWords reduce) 1 ++ leBytes d.record 1 ++ leBytes 0 3 ++ leBytes first 8 ++ leBytes pos 8 ++
          leBytes words 4 ++ leBytes (s.afld (Reg.ACQ_CFG_INTERVAL c) + 1) 4)

/-- An ACQ_GAP record of record r of a measurement whose sample 0 fell at `start` (R245). -/
def State.dgGapRecord (s : State) (c : Nat) (m : DgArm) (start r cause status first len flags : Nat) : State :=
  s.acqRecord c m r 11 status (start + 40000 * first) (bitOf flags 2)
    (leBytes cause 1 ++ leBytes r 1 ++ leBytes len 4 ++ leBytes first 8)

/-- The open gap is committed, with the record in which it began (R244, R245). -/
def State.dgCloseGap (s : State) (c : Nat) (m : DgArm) : State :=
  match (s.dg c).gap with
  | none => s
  | some (r, first, len, flags) =>
    (s.modDg c (fun d => { d with gap := none })).dgGapRecord c m (s.dg c).start r 0 1 first len flags

/-- Record r's reading goes to the population engine, and record 0's to the conditions if it feeds them (R247). -/
def State.dgDeliver (s : State) (c : Nat) (m : DgArm) (r status : Nat) (value : Int) (flags cellTime : Nat) (feeds : Bool) : State :=
  let s1 := s.setFld (Reg.DG_LAST_VALUE c) (ofSigned 64 value)
  match m.site with
  | none => s1
  | some x =>
    let s2 := if m.toPop then
        s1.popPush { site := x.2.2, test := s.dgTest c m r, value := value, status := status, flags := flags, cellTime := cellTime
                     leader := x.1, position := x.2.1 }
      else s1
    match m.origin with
    | .trigger b serial =>
      if feeds && decide (r = 0) then s2.conditionReading b serial { position := x.2.1, value := value, status := status, flags := flags } else s2
    | _ => s2

/-- Digitizer c is idle, its ring queue and its pattern state kept. -/
def State.dgIdle (s : State) (c : Nat) : State :=
  ((s.modDg c (fun d => { above := d.above, mark := d.mark, queue := d.queue, held := d.held, heldRing := d.heldRing })).setFld
    (Reg.DG_STATUS_STATE c) 0).setFlag (Reg.DG_STATUS_SLOPE_UNSETTLED c) false

/-- The measurement is over: its readings are delivered, with a status that R244 and R249 may lay down, and with value 0 where its
site's Deckle has closed (R247, R249); an ACQ_CTRL completes (R248). -/
def State.dgOver (s : State) (c : Nat) (m : DgArm) (override : Option Nat) : State :=
  let d := s.dg c
  let n := d.readings.length
  let st := override.getD (if n = 0 then 0x60 else if n < s.afld (Reg.ACQ_CFG_RECORDS_MAX c) then 1 else 0)
  let l := if n = 0 then [((0 : Int), 0, d.start)] else d.readings
  let value := fun (v : Int) => if override = some 0x40 then 0 else v
  let s1 :=
    if n = 0 && override.isNone then
      let s2 := match m.origin with
        | .trigger b serial => if m.site.isSome then s.forgetReading b serial else s
        | _ => s
      s2.dgDeliver c m 0 st 0 0 d.start false
    else l.zipIdx.foldl (fun s x => s.dgDeliver c m x.2 st (value x.1.1) x.1.2.1 x.1.2.2 true) s
  let s3 := s1.dgIdle c
  match m.origin with
  | .measure x =>
    s3.complete x st (ofSigned 64 (value (l.headD ((0 : Int), 0, 0)).1) + 2 ^ 64 * n + 2 ^ 96 * min d.missed (2 ^ 32 - 1))
  | _ => s3

/-! ### Storage (R243, R244) -/

/-- Words in the on-die queue of digitizer c. -/
def Dg.queued (d : Dg) : Nat := (d.queue.map (fun x => x.words.length)).sum

/-- Words in the queue that are of the record in progress. -/
def Dg.queuedOpen (d : Dg) : Nat :=
  ((d.queue.filter (fun x => decide (x.start = d.start) && decide (x.record = d.record))).map (fun x => x.words.length)).sum

/-- The intervals in the queue that are of the same record as its first, and those after them. -/
def Dg.lostRun (d : Dg) : List DgQueued × List DgQueued :=
  d.queue.span (fun x => decide (d.queue.head?.map (fun y => (y.start, y.record)) = some (x.start, x.record)))

/-- The queue's intervals are lost to a fault: an ACQ_GAP of cause 1 for each record that they are of. The first argument bounds
those records (R244, R245). -/
def dgLoseQueue : Nat → Nat → Nat → State → State
  | 0, _, _, s => s
  | fuel + 1, c, status, s =>
    let run := (s.dg c).lostRun
    match run.1 with
    | [] => s
    | x :: l =>
      dgLoseQueue fuel c status
        ((s.modDg c (fun d => { d with queue := run.2 })).dgGapRecord c x.arm x.start x.record 1 status x.first
          ((l.length + 1) * (s.afld (Reg.ACQ_CFG_INTERVAL c) + 1)) (orMask x.flags (l.foldl (fun n y => orMask n y.flags) 0)))

/-- A ring write of digitizer c faults: FAULT, an ACQ_GAP of cause 1 over what waits, and the end of the measurement that runs
(R244). -/
def State.dgFault (s : State) (c status : Nat) : State :=
  let d := s.dg c
  let s1 := ((s.setFlag (Reg.DG_STATUS_FAULT c) true).bump (Reg.DG_GAP_SAMPLES c)
    (d.queue.length * (s.afld (Reg.ACQ_CFG_INTERVAL c) + 1))).modDg c (fun d =>
      { d with extent := d.extent.map (fun e => (e.1, e.2.1, e.2.2.1 - d.queuedOpen, e.2.2.2)) })
  match d.arm with
  | none => dgLoseQueue d.queue.length c status s1
  | some m => (dgLoseQueue d.queue.length c status ((s1.dgCloseGap c m).dgCloseExtent c m 0)).dgOver c m (some status)

/-- Words of the queue go to the ring while it has room; the first argument bounds them (R243, R244). -/
def dgDrainWords : Nat → Nat → State → State
  | 0, _, s => s
  | fuel + 1, c, s =>
    let d := s.dg c
    let w := s.fld (Reg.DG_WRITE c)
    let size := 2 ^ s.afld (Reg.DATA_RING_DATA_LOG2 c)
    match d.queue with
    | [] => s
    | q :: l =>
      match q.words with
      | [] => dgDrainWords fuel c (s.modDg c (fun d => { d with queue := l }))
      | x :: xs =>
        if size < w + 4 - s.fld (Reg.DG_RELEASE c) then s
        else
          let r := s.memWrite { engine := 4, unit := c } (s.afld (Reg.DATA_RING_DATA_BASE c) + w % size) (leBytes x 4) false
          match r.1 with
          | .ok _ _ =>
            dgDrainWords fuel c ((r.2.setFld (Reg.DG_WRITE c) (w + 4)).modDg c (fun d => { d with queue := { q with words := xs } :: l }))
          | .fault k => r.2.dgFault c (kindStatus k)
          | _ => r.2

/-- The on-die queue of digitizer c empties into the ring as far as it can. -/
def State.dgDrain (s : State) (c : Nat) : State := dgDrainWords (2 * (s.dg c).queued + (s.dg c).queue.length + 1) c s

/-- An interval is stored, or lost to a gap where the queue has no room for it (R244, R245). -/
def State.dgStore (s : State) (c : Nat) (m : DgArm) (iv : DgInterval) : State :=
  if !m.toRecord then s
  else
    let k := s.afld (Reg.ACQ_CFG_INTERVAL c) + 1
    let first := iv.j * k
    let words := iv.acc.words (s.afld (Reg.ACQ_CFG_REDUCE c))
    let s0 := s.dgDrain c
    let d := s0.dg c
    if d.arm.isNone then s0
    else if 2048 < d.queued + words.length then
      let g := match d.gap with
        | some (r, f, len, flags) => (r, f, len + k, orMask flags iv.acc.flags)
        | none => (d.record, first, k, iv.acc.flags)
      ((((s0.dgCloseExtent c m 0).setFlag (Reg.DG_STATUS_GAP c) true).bump (Reg.DG_GAP_SAMPLES c) k).modDg c
        (fun d => { d with gap := some g }))
    else
      let pos := s0.fld (Reg.DG_WRITE c) + 4 * d.queued
      let e := match d.extent with
        | some (f, p, n, flags) => (f, p, n + words.length, orMask flags iv.acc.flags)
        | none => (first, pos, words.length, iv.acc.flags)
      let q : DgQueued := { arm := m, record := d.record, start := d.start, first := first, flags := iv.acc.flags, words := words }
      (((s0.dgCloseGap c m).modDg c (fun d => { d with queue := d.queue ++ [q], extent := some e })).dgDrain c)

/-! ### The engine (R238 to R242) -/

/-- A complete interval goes to the pre-trigger memory, or into the post part (R240, R241, R246). -/
def State.dgTake (s : State) (c : Nat) (m : DgArm) (iv : DgInterval) : State :=
  if s.fld (Reg.DG_STATUS_STATE c) = 2 then
    let s1 := s.modDg c (fun d =>
      { d with
        postCount := d.postCount + 1, post := d.post.merge iv.acc
        postDone := decide (s.afld (Reg.ACQ_CFG_POST c) ≤ d.postCount + 1) })
    s1.dgStore c m iv
  else
    let keep := s.afld (Reg.ACQ_CFG_PRE c)
    s.modDg c (fun d =>
      let l := d.pre ++ [iv]
      { d with pre := l.drop (l.length - keep) })

/-- The record in progress is complete: its reading is taken and its extent closed (R242, R245, R246). -/
def State.dgCloseRecord (s : State) (c : Nat) (m : DgArm) (acc : DgAcc) : State :=
  let a := (s.dg c).post.merge acc
  let v := dgSummary (s.afld (Reg.DG_CTRL_SUMMARY c)) (s.afld (Reg.DG_CTRL_RANGE c)) a
  let s1 := (s.dgCloseExtent c m 0).bump (Reg.DG_RECORDS c) 1
  s1.modDg c (fun d =>
    { d with
      readings := d.readings ++ [(v, b2n (bitOf a.flags 0) + 4 * b2n (bitOf a.flags 2), d.trigTime)]
      post := {}, postCount := 0, postDone := false })

/-- A missed trigger (R241). -/
def State.dgMissed (s : State) (c : Nat) : State :=
  (s.bump (Reg.DG_MISSED c) 1).modDg c (fun d => { d with missed := d.missed + 1 })

/-- TRIGGER_FIRE: the trigger decided on the last sample of digitizer c opens a record (R238, R240, R243, R245). -/
def doTriggerFire (c : Nat) (s : State) : State :=
  let d := s.dg c
  match d.arm, d.fire with
  | some m, some (bits, flags) =>
    let n := d.n - 1
    let cause := ((List.range 4).find? (fun k => bitOf bits k)).getD 4
    let s1 := s.acqRecord c m d.record 9 0 (d.sampleTime n) (bitOf flags 2)
      (leBytes bits 1 ++ leBytes cause 1 ++ leBytes d.record 1 ++ leBytes 0 3 ++ leBytes n 8 ++ leBytes d.pre.length 4 ++
        leBytes (min d.missed (2 ^ 32 - 1)) 4 ++ leBytes m.word 4 ++ leBytes 0 4)
    let s2 := (s1.setFld (Reg.DG_STATUS_STATE c) 2).modDg c (fun d =>
      { d with fire := none, fresh := none, pre := [], post := {}, postCount := 0, postDone := false, trigTime := d.sampleTime n })
    let s3 := d.pre.foldl (fun s iv => s.dgStore c m iv) s2
    match d.fresh with
    | some iv => s3.dgTake c m iv
    | none => s3
  | _, _ => s

/-- POST_CAPTURE_END: the last post interval of digitizer c's record is in (R240, R241). -/
def doPostCaptureEnd (c : Nat) (s : State) : State :=
  let d := s.dg c
  match d.arm with
  | none => s
  | some m =>
    if !d.postDone then s
    else
      ((s.dgCloseRecord c m {}).modDg c (fun d => { d with pre := [], rearm := 8 + s.afld (Reg.ACQ_CFG_REARM_HOLD c) })).setFld
        (Reg.DG_STATUS_STATE c) 3

/-- The measurement of digitizer c ends: by its records, TIMEOUT or a stop; a record in post capture ends complete (R242). -/
def State.dgEnd (s : State) (c : Nat) : State :=
  let s0 := doTriggerFire c s
  match (s0.dg c).arm with
  | none => s0
  | some m =>
    let s1 := if s0.fld (Reg.DG_STATUS_STATE c) = 2 then s0.dgCloseRecord c m (s0.dg c).acc else s0
    (s1.dgCloseGap c m).dgOver c m none

/-- REARM_END: the re-arm samples of digitizer c have passed (R241). -/
def doRearmEnd (c : Nat) (s : State) : State :=
  let d := s.dg c
  if s.fld (Reg.DG_STATUS_STATE c) ≠ 3 ∨ d.rearm ≠ 0 ∨ d.arm.isNone then s
  else if d.readings.length < s.afld (Reg.ACQ_CFG_RECORDS_MAX c) then s.setFld (Reg.DG_STATUS_STATE c) 1
  else s.dgEnd c

/-- What digitizer c's last sample has brought about and has not yet acted: a trigger, the end of the post part, the end of the
re-arm (R236, R240, R241). -/
def State.dgCatchUp (s : State) (c : Nat) : State := doRearmEnd c (doPostCaptureEnd c (doTriggerFire c s))

/-- The corrected value of a code of digitizer c, on the scale of `dgScaled`, with G and O of the arm that runs (R231, R233). -/
def State.dgInput (s : State) (c : Nat) (code : Int) : Int × Int :=
  let range := s.afld (Reg.DG_CTRL_RANGE c)
  let v := match (s.dg c).arm with
    | some m => dgValue m.gain m.offset code
    | none => dgValue (s.calGain 4 c range) (s.calOffset 4 c range) code
  (v, dgScaled range v)

/-- A raw code at either end of its range (R233). -/
def atLimit (code : Int) : Bool := decide (code = -131072) || decide (code = 131071)

/-- Digitizer c converts: its state bit, OVER_RANGE and BUS_OPEN follow (R230, R233, R237). -/
def State.dgConvert (s : State) (c : Nat) (code : Int) : State :=
  let x := (s.dgInput c code).2
  let level := s.asfld (Reg.PAT_PAT_LEVEL c)
  let hyst : Int := s.afld (Reg.PAT_PAT_HYST c)
  let s1 := if atLimit code then s.setFlag (Reg.DG_STATUS_OVER_RANGE c) true else s
  (if s.dgBusOpen c then s1.setFlag (Reg.DG_STATUS_BUS_OPEN c) true else s1).modDg c (fun d =>
    { d with above := if overBand x level hyst then true else if underBand x level hyst then false else d.above })

/-- Digitizer c's measurement takes a sample: conditions, missed triggers, intervals. Instants earlier than 100 ns after the arm are
not samples of it (R234, R236 to R241). -/
def State.dgEvaluate (s : State) (c : Nat) (code : Int) : State :=
  let d := s.dg c
  match d.arm with
  | none => s.modDg c (fun d => { d with mark := false })
  | some m =>
    if d.n = 0 ∧ s.now < d.start + 100000 then s.modDg c (fun d => { d with mark := false })
    else
      let v := s.dgInput c code
      let x := v.2
      let flags := b2n (atLimit code) + 2 * b2n (s.dgBusOpen c) + 4 * b2n s.supplySuspect
      let word := s.dgPattern c
      let now := ofBits ((List.range 4).filter (fun k => s.dgMatch c k word))
      let conds := ofBits ((List.range 4).filter (fun k =>
        s.dgCond c k x (d.slope.getD k 0) (bitOf d.matched k) (bitOf now k)))
      let st := s.fld (Reg.DG_STATUS_STATE c)
      let fires := decide (st = 1) && (decide (conds ≠ 0) || d.force)
      let k := s.afld (Reg.ACQ_CFG_INTERVAL c) + 1
      let acc := d.acc.add v.1 flags
      let whole := decide ((d.n + 1) % k = 0)
      let iv : DgInterval := { j := d.n / k, acc := acc }
      let s1 := s.modDg c (fun d =>
        { d with
          start := if d.n = 0 then s.now else d.start
          n := d.n + 1, slope := (List.range 4).map (fun i => s.dgSlope c i x (d.slope.getD i 0)), matched := now
          anyTrue := decide (conds ≠ 0), mark := false, acc := if whole then {} else acc
          force := if fires then false else d.force
          fire := if fires then some (conds + 16 * b2n d.force, flags) else none
          fresh := if fires && whole then some iv else none
          rearm := if st = 3 then d.rearm - 1 else d.rearm })
      let s2 := if decide (st ≠ 1) && decide (conds ≠ 0) && !d.anyTrue then s1.dgMissed c else s1
      (if whole && !fires then s2.dgTake c m iv else s2).showSlopes c

/-- DIGITIZER_SAMPLE: the sample instant that the four digitizers of converter group g share: each converts, and then each
evaluates, so that a pattern sees the four state bits of the same instant (R229, R232, R233, R236, R237). -/
def doDgSample (g : Nat) (codes : List Int) (s : State) : State :=
  let cs := ((List.range 4).map (fun i => (4 * g + i, codes.getD i 0))).filter (fun x => !s.blockOff (Reg.dgB x.1))
  let s1 := cs.foldl (fun s x => (s.dgCatchUp x.1).dgConvert x.1 x.2) s
  cs.foldl (fun s x => s.dgEvaluate x.1 x.2) s1

/-- ACQ_TIMEOUT: TIMEOUT passes from the arm of digitizer c (R242). -/
def doAcqTimeout (c : Nat) (s : State) : State := if s.afld (Reg.DG_TIMEOUT c) = 0 then s else s.dgEnd c

/-- The measurement of digitizer c ends at once with a status: its open extent is committed with it, and its reading
carries it with value 0 (R249). -/
def State.dgAbort (s : State) (c status : Nat) : State :=
  match (s.dg c).arm with
  | none => s
  | some m => ((s.dgCloseExtent c m status).dgCloseGap c m).dgOver c m (some status)

/-- The measurement of digitizer c ends with no reading (R184, R249). -/
def State.dgDrop (s : State) (c : Nat) : State :=
  match (s.dg c).arm.map DgArm.origin with
  | some (.trigger b serial) => (s.dgIdle c).forgetReading b serial
  | _ => s

/-- Measurements that triggers of group b's program numbered above `serial` armed end with no reading (R249). -/
def State.dgDropSince (s : State) (b serial : Nat) : State :=
  (List.range 32).foldl
    (fun s c =>
      match (s.dg c).arm.map DgArm.origin with
      | some (.trigger l k) => if l = b ∧ serial < k then s.dgDrop c else s
      | _ => s) s

/-- Measurements of a closed site end with 0x40 (R42, R249). -/
def State.dgCloseSite (s : State) (b position : Nat) : State :=
  (List.range 32).foldl
    (fun s c =>
      match (s.dg c).arm.bind DgArm.site with
      | some x => if x.1 = b ∧ x.2.1 = position then s.dgAbort c 0x40 else s
      | none => s) s

/-! ### Arming (R234, R235, R248, R249) -/

/-- An arm reaches digitizer c: refused unless it is idle. -/
def State.dgArm (s : State) (c : Nat) (m : DgArm) : State :=
  if (s.dg c).arm.isSome then
    let s1 := (s.setFlag (Reg.DG_STATUS_ARM_OVERRUN c) true).dgDeliver c m 0 1 0 0 s.now true
    match m.origin with
    | .measure x => s1.complete x 1 0
    | _ => s1
  else
    (((s.modDg c (fun d => { arm := some m, start := s.now, above := d.above, mark := d.mark, queue := d.queue, held := d.held
                             heldRing := d.heldRing })).setFld (Reg.DG_STATUS_STATE c) 1).setFlag
      (Reg.DG_STATUS_FAULT c) false).showSlopes c

/-- The measurement that an arm of digitizer c starts. -/
def State.dgArmed (s : State) (c : Nat) (origin : MeasOrigin) (base : Nat) (toPop toRecord : Bool) (queue word : Nat) : DgArm :=
  let r := s.afld (Reg.DG_CTRL_RANGE c)
  { origin := origin, site := s.dgSite c, base := base, toPop := toPop, toRecord := toRecord, queue := queue, word := word
    gain := s.calGain 4 c r, offset := s.calOffset 4 c r }

/-- DIGITIZER_ARM_TRIGGER: a trigger of KIND 0x3 of the group led by b arms the digitizers of its clusters that it owns and
whose site, if any, is active (R112, R234, R235). -/
def doDigitizerTrigger (b : Nat) (s : State) : State :=
  match s.dueTrigger b 3 with
  | none => s
  | some (_, t) =>
    let sites := andMask t.sites (s.openMask b)
    let own := (s.groupClusters b).filter (fun c => decide (s.leaderOf (s.dgOwner c) = b))
    let other := (s.groupClusters b).filter (fun c => decide (s.leaderOf (s.dgOwner c) ≠ b))
    let armed := own.filter (fun c =>
      match s.dgSite c with
      | none => true
      | some x => decide (x.1 = b) && bitOf sites x.2.1)
    let s1 := other.foldl (fun s c => s.setFlag (Reg.DG_STATUS_IGNORED c) true) s
    armed.foldl (fun s c => s.dgArm c (s.dgArmed c (.trigger b t.serial) t.base t.toPop t.toRecord t.queue t.word))
      (s1.firedTrigger b (armed.filter (fun c => (s.dgSite c).isSome)).length)

/-! ### ACQ_CTRL (R248) -/

/-- The checks of every ACQ_CTRL; then `k` with the digitizer (R248, R473). -/
def State.acqCtrl (s : State) (c : Cmd) (bad : Bool) (k : Nat → State → State) : State :=
  let n := c.target
  s.checked c ((c.reservedSet [(8, 2), (16, 8), (24, 2)] || decide (4 ≤ c.field 9 1) || bad || decide (32 ≤ n) || decide (3 < c.field 8 1), 0x7F) ::
    s.unitChecks [n, seqUnit (s.dgOwner n)]) (k n)

/-- ACQ_CTRL with ACTION 0: it waits until no program runs on the owner's group. -/
def doAcqArm (c : Cmd) (s : State) : State :=
  let d := c.field 9 1
  s.acqCtrl c (decide (c.field 8 1 = 0) && (decide (d = 0) || s.flag (Reg.DG_STATUS_CFG_ERR c.target))) (fun n s =>
    if s.runs (s.dgOwner n) then s.hold c (.program [s.leaderOf (s.dgOwner n)])
    else s.dgArm n (s.dgArmed n (.measure c) (c.field 24 2) (bitOf d 0) (bitOf d 1) 7 0xFFFFFF))

/-- ACQ_CTRL with ACTION 1 (R238, R241). -/
def doAcqForce (c : Cmd) (s : State) : State :=
  s.acqCtrl c false (fun n s =>
    let st := s.fld (Reg.DG_STATUS_STATE n)
    (if st = 1 then s.modDg n (fun d => { d with force := true }) else if st = 0 then s else s.dgMissed n).complete c 0 0)

/-- ACQ_CTRL with ACTION 2 (R242). -/
def doAcqStop (c : Cmd) (s : State) : State := s.acqCtrl c false (fun n s => (s.dgEnd n).complete c 0 0)

/-- ACQ_CTRL with ACTION 3 (R243). -/
def doAcqRelease (c : Cmd) (s : State) : State :=
  let n := c.target
  let p := c.field 16 8
  let bad := decide (p < s.fld (Reg.DG_RELEASE n)) || decide (s.fld (Reg.DG_WRITE n) < p) || decide (p % 4 ≠ 0)
  s.acqCtrl c bad (fun n s => ((s.setFld (Reg.DG_RELEASE n) p).dgDrain n).complete c 0 p)

end Sys2Proof.Machine
end

