-- ==== Sys2Proof/Machine/Store.lean ====
section
/-! DEFINITION. The flash directory, the flash port's read buffer, and the two-bank store: its layout, its sections, and
the requests to write it (spec/18 R388 to R396, R405; R410, R436, R483). -/

namespace Sys2Proof.Machine

open Sys2Proof

/-! ### Flash contents (R388) -/

/-- The byte of flash at a flash address. -/
def State.flashByte (s : State) (a : Nat) : Byte := SMap.get (Config.flashByte a) s.ser.flash a

/-- `n` bytes of flash from a flash address. -/
def State.flashBytes (s : State) (a n : Nat) : List Byte := (List.range n).map (fun i => s.flashByte (a + i))

/-- Bytes of a list put into a table from a key on. -/
def putBytes : SMap Byte → Nat → List Byte → SMap Byte
  | m, _, [] => m
  | m, a, b :: l => putBytes (SMap.put m a b) (a + 1) l

/-- The flash once a frame has ended: an erased sector holds ones, a programmed page its data (R396). -/
def State.flashFrame (s : State) (f : FlashFrame) : State :=
  let d := if f.erase = 0 then f.data else List.replicate f.erase 0xFF#8
  { s with ser := { s.ser with flash := putBytes s.ser.flash f.addr d } }

/-! ### The directory (R388, R389) -/

/-- Bytes [off + len - 1 : off] of a list, little-endian. -/
def bytesField (d : List Byte) (off len : Nat) : Nat := leNat ((d.drop off).take len)

/-- A directory copy is valid: MAGIC, VERSION, DIR_CRC (R388). -/
def directoryValid (d : List Byte) : Bool :=
  decide (bytesField d 0 4 = 0x4C5A5645) && decide (bytesField d 4 2 = 1) &&
  decide (bytesField d 92 4 = crc32c (d.take 92))

/-- The fields of a directory copy (R388). -/
def directoryOf (d : List Byte) : Directory :=
  { bytes := d
    fwOffset := bytesField d 24 4, fwLength := bytesField d 28 4, certOffset := bytesField d 32 4
    certLength := bytesField d 36 4, bankA := bytesField d 40 4, bankB := bytesField d 44 4, bankSize := bytesField d 48 4
    sectorLog2 := bytesField d 21 1, pageLog2 := bytesField d 22 1, dual := bitOf (bytesField d 14 1) 2
    continuous := bitOf (bytesField d 14 1) 0 && bitOf (bytesField d 14 1) 1, onDqs := bitOf (bytesField d 10 1) 3 }

/-- The profile of a directory is valid (R389). -/
def profileValid (d : List Byte) : Bool :=
  let f := fun i => bytesField d i 1
  let div := f 15
  decide (f 8 < 16) && decide (f 9 < 16) && decide (f 10 < 16) && decide (f 12 < 32) && decide (f 14 < 8) &&
  decide (f 20 < 32) && decide (2 ≤ div) && decide (div ≤ 32) && decide (12 ≤ f 21) && decide (f 21 ≤ 18) &&
  decide (8 ≤ f 22) && decide (f 22 ≤ 10) &&
  (!bitOf (f 8) 3 || (decide (f 8 % 4 = 3) && bitOf (f 8) 2)) &&
  (!(bitOf (f 10) 2 && decide (div < 4)) || bitOf (f 10) 3)

/-- Two runs of flash addresses overlap. -/
def runsMeet (a n b m : Nat) : Bool := decide (a < b + m) && decide (b < a + n) && decide (0 < n) && decide (0 < m)

/-- Bytes of a sector. -/
def Directory.sector (d : Directory) : Nat := 2 ^ d.sectorLog2

/-- The bank layout of a directory is valid (R389). -/
def Directory.layoutValid (d : Directory) : Bool :=
  decide (d.bankA % d.sector = 0) && decide (d.bankB % d.sector = 0) && decide (d.bankSize % d.sector = 0) &&
  decide (65536 ≤ d.bankSize) && decide (d.bankSize ≤ 16777216) && !runsMeet d.bankA d.bankSize d.bankB d.bankSize &&
  [d.bankA, d.bankB].all (fun b =>
    !runsMeet b d.bankSize d.fwOffset d.fwLength && !runsMeet b d.bankSize d.certOffset d.certLength &&
    !runsMeet b d.bankSize 0 0x2000)

/-- The directory copy that the boot reads, and whether it is the second (R388); none where neither is valid. -/
def State.readDirectory (s : State) : Option (List Byte × Bool) :=
  let a := s.flashBytes 0 96
  let b := s.flashBytes 0x1000 96
  if directoryValid a then some (a, false) else if directoryValid b then some (b, true) else none

/-- The fallback of R389: every later frame in 1S-1S-1S; the flash-fallback event. -/
def State.flashFallback (s : State) : State :=
  let s1 := ((s.setFlag Reg.FL_STATUS_FALLBACK true).setFlag Reg.FL_STATUS_PROFILE_OK false).setFlag
    Reg.FL_STATUS_CONT_ACTIVE false
  ({ s1 with ser := { s1.ser with cont := none, retried := false } } : State).raise 24 0 0

/-- A directory copy goes into use: its profile, or the fallback where the profile is invalid or the primary copy, read
again, differs; LAYOUT_ERR of its banks (R389). -/
def State.useDirectory (s : State) (d : List Byte) (second : Bool) : State :=
  let x := directoryOf d
  let s1 := ({ s with ser := { s.ser with dir := some x } } : State).setFlag Reg.FL_STATUS_DIR_COPY second
  let s2 := (s1.setFlag Reg.FL_STATUS_DUAL x.dual).setFlag Reg.STORE_STATUS_LAYOUT_ERR (!x.layoutValid)
  if profileValid d && decide (s2.flashBytes 0 96 = d) then s2.setFlag Reg.FL_STATUS_PROFILE_OK true else s2.flashFallback

/-! ### The read buffer (R391, R405) -/

/-- The device that holds a line, two devices fitted or one (R388). -/
def Directory.device (d : Directory) (line : Nat) : Nat := if d.dual then line / 2 ^ 22 % 2 else 0

/-- Continuous read of a device ends by a one-line read, whose data fills the buffer; which line it reads the spec does not
say: a free value (R391). Log entry 14. -/
def State.endContinuous (s : State) : State :=
  match s.ser.cont with
  | none => s
  | some v =>
    let r := s.draw 22
    let line := 2 ^ 22 * v + r.1
    let t := r.2
    (({ t with ser := { t.ser with lines := (line :: t.ser.lines.erase line).take 8, cont := none } } : State).bump
      Reg.FL_LINE_READS 1).setFlag Reg.FL_STATUS_CONT_ACTIVE false

/-- Before a program, erase or status frame continuous read ends, once no read frame is under way (R391). -/
def State.readyToProgram (s : State) : State :=
  if s.ser.reading.isEmpty && s.ser.jobs.any (fun j => !j.frames.isEmpty) then s.endContinuous else s

/-- A read frame for a missed line starts: it and the next two lines of its device; continuous read as R391 says. -/
def State.startRead (s : State) (line : Nat) : State :=
  match s.ser.dir with
  | none => s
  | some d =>
    let v := d.device line
    let ls := line :: [line + 1, line + 2].filter (fun l => decide (d.device l = v))
    -- A frame to the other device first ends continuous read by a one-line read.
    let s1 := if s.ser.cont.any (fun w => decide (w ≠ v)) then s.endContinuous else s
    let on := d.continuous && !s.flag Reg.FL_STATUS_FALLBACK
    ({ s1 with ser := { s1.ser with reading := ls, retried := false, cont := if on then some v else none } } : State).setFlag
      Reg.FL_STATUS_CONT_ACTIVE on

/-- A program or erase frame is in progress (R405). -/
def State.flashBusy (s : State) : Bool := s.ser.jobs.any (fun j => !j.frames.isEmpty)

/-- A firmware fetch at a line: served from the buffer, or a read frame; a new miss ends the prefetch at the end of the
line in progress; during a program or erase frame it waits (R391, R405). -/
def doFlashFetch (line : Nat) (s : State) : State :=
  if s.ser.lines.contains line then
    ({ s with ser := { s.ser with lines := line :: s.ser.lines.erase line } } : State).bump Reg.FL_BUFFER_HITS 1
  else if s.ser.reading.isEmpty && !s.flashBusy then s.startRead line
  else { s with ser := { s.ser with reading := s.ser.reading.take 1, wanted := some line } }

/-- The line in progress has arrived: it is buffered in place of the least recently used of 8 (R391). -/
def doFlashReadDone (s : State) : State :=
  match s.ser.reading with
  | [] => s
  | l :: rest =>
    let s1 := ({ s with ser := { s.ser with lines := (l :: s.ser.lines.erase l).take 8, reading := rest } } : State).bump
      Reg.FL_LINE_READS 1
    match s1.ser.wanted with
    | some w =>
      if rest.isEmpty && !s1.flashBusy then ({ s1 with ser := { s1.ser with wanted := none } } : State).startRead w
      else s1.readyToProgram
    | none => s1.readyToProgram

/-- No transition of FL_DQS within 1 µs: the frame ends; one retry, then the fallback, and the frame again (R405). -/
def doDqsTimeout (s : State) : State :=
  match s.ser.dir with
  | none => s
  | some d =>
    if s.ser.reading.isEmpty || !d.onDqs || s.flag Reg.FL_STATUS_FALLBACK then s
    else if s.ser.retried then s.flashFallback
    else { s with ser := { s.ser with retried := true } }

/-! ### Banks and sections (R393 to R395) -/

/-- SEQ and LENGTH of a bank at a flash offset, where it is valid (R393). -/
def State.bankAt (s : State) (off size : Nat) : Option (Nat × Nat) :=
  let h := s.flashBytes off 16
  let n := bytesField h 8 4
  if bytesField h 0 4 = 0x54535645 ∧ n % 4 = 0 ∧ 20 + n ≤ size ∧
      leNat (s.flashBytes (off + 16 + n) 4) = crc32c (s.flashBytes (off + 4) (12 + n)) then
    some (bytesField h 4 4, n)
  else none

/-- s1 is newer than s2 in serial-number arithmetic (R395). -/
def newerSeq (a b : Nat) : Bool :=
  let d := (a + 2 ^ 32 - b % 2 ^ 32) % 2 ^ 32
  decide (1 ≤ d) && decide (d ≤ 2 ^ 31 - 1)

/-- The bank in use, 0 none, 1 A, 2 B, and whether the choice was ambiguous (R395). -/
def chooseBank (a b : Option (Nat × Nat)) : Nat × Bool :=
  match a, b with
  | none, none => (0, false)
  | some _, none => (1, false)
  | none, some _ => (2, false)
  | some x, some y => if newerSeq x.1 y.1 then (1, false) else if newerSeq y.1 x.1 then (2, false) else (1, true)

/-- The sections of a payload in order, and whether the walk ended early; the first argument bounds them (R394). -/
def sectionsOf : Nat → List Byte → List Section × Bool
  | 0, _ => ([], false)
  | fuel + 1, d =>
    if d.isEmpty then ([], false)
    else
      let t := bytesField d 0 2
      let n := bytesField d 4 4
      if t = 0 ∨ t = 0xFFFF ∨ d.length < 8 + n then ([], true)
      else
        let r := sectionsOf fuel (d.drop (8 + (n + 3) / 4 * 4))
        ({ typ := t, version := bytesField d 2 2, body := (d.drop 8).take n } :: r.1, r.2)

/-- The bytes of a section (R394). -/
def Section.bytes (x : Section) : List Byte :=
  leBytes x.typ 2 ++ leBytes x.version 2 ++ leBytes x.body.length 4 ++ x.body ++
  List.replicate ((4 - x.body.length % 4) % 4) 0

/-- The first section of a type, where it has the version this device writes (R394). -/
def State.section (s : State) (t : Nat) : Option (List Byte) :=
  (s.ser.sections.find? (fun x => decide (x.typ = t))).bind (fun x => if x.version = 1 then some x.body else none)

/-- The section of a type replaced, or added last. -/
def putSection (l : List Section) (t : Nat) (body : List Byte) : List Section :=
  let x : Section := { typ := t, version := 1, body := body }
  if l.any (fun y => decide (y.typ = t)) then
    let i := l.findIdx (fun y => decide (y.typ = t))
    l.mapIdx (fun j y => if j = i then x else y)
  else l ++ [x]

/-! ### Section 0x0001: calibration (R410) -/

/-- Timing terms or delays after the pairs of a record, and the bytes of each (R410). -/
def calTerms (kind : Nat) : Nat × Nat :=
  match kind with
  | 1 => (2, 2)
  | 3 => (2, 2)
  | 6 => (2, 4)
  | _ => (0, 0)

/-- Words of a record of a KIND; LENGTH of the record (R410). -/
def calWords (kind : Nat) : Nat := 2 * calPairs kind + (calTerms kind).1
def calLength (kind : Nat) : Nat := 8 + 8 * calPairs kind + (calTerms kind).1 * (calTerms kind).2

/-- UNIT of a record names a unit of its KIND (R410). -/
def calUnitOk (kind unit : Nat) : Bool :=
  match kind with
  | 1 => decide (unit < 1024) || (decide (0x8000 ≤ unit) && decide (unit < 0x8020))
  | 2 => decide (unit < 64)
  | 3 => decide (unit < 32)
  | 4 => decide (unit < 32)
  | 5 => decide (unit < 64)
  | 6 => decide (unit < 4)
  | _ => false

/-- The cluster of a record's unit; none of a Felt port. -/
def calCluster (kind unit : Nat) : Option Nat :=
  match kind with
  | 1 => some (if 0x8000 ≤ unit then unit - 0x8000 else unit / 32)
  | 2 => some (unit / 2)
  | 3 => some unit
  | 4 => some unit
  | 5 => some (unit / 2)
  | _ => none

/-- The words of a record's bytes after its header. -/
def recordWords (kind : Nat) (d : List Byte) : List Nat :=
  (List.range (2 * calPairs kind)).map (fun i => bytesField d (4 * i) 4) ++
  (List.range (calTerms kind).1).map (fun i =>
    bytesField d (8 * calPairs kind + i * (calTerms kind).2) (calTerms kind).2)

/-- The records of a section body after its header: those of defined kinds, the bytes of the others; none where one is
malformed. The first argument bounds them (R410). -/
def recordsOf : Nat → List Byte → Option (List (Nat × Nat × List Nat) × List Byte)
  | 0, d => if d.isEmpty then some ([], []) else none
  | k + 1, d =>
    let kind := bytesField d 0 1
    let unit := bytesField d 2 2
    let n := bytesField d 4 2
    if n < 8 ∨ d.length < n ∨ bytesField d 1 1 ≠ 0 ∨ bytesField d 6 2 ≠ 0 then none
    else match recordsOf k (d.drop n) with
      | none => none
      | some (l, x) =>
        if kind = 0 ∨ 7 ≤ kind then some (l, d.take n ++ x)
        else if n = calLength kind && calUnitOk kind unit then some ((kind, unit, recordWords kind (d.drop 8)) :: l, x)
        else none

/-- A section body of R410: temperature, time, records of defined kinds, bytes and number of the others. -/
def calBodyOf (d : List Byte) : Option (Nat × Nat × List (Nat × Nat × List Nat) × List Byte × Nat) :=
  if d.length < 16 ∨ bytesField d 6 2 ≠ 0 then none
  else match recordsOf (bytesField d 0 4) (d.drop 16) with
    | none => none
    | some (l, x) => some (bytesField d 4 2, bytesField d 8 8, l, x, bytesField d 0 4 - l.length)

/-- A word of the calibrated constants; there is a record of a unit (R410). -/
def State.calBase (s : State) (kind unit i : Nat) : Nat := SMap.get (calDefault kind i) s.cals.base (calKey kind unit i)
def State.calHas (s : State) (kind unit : Nat) : Bool := (SMap.find s.cals.base (calKey kind unit 0)).isSome

/-- Units of a KIND, in ascending order (R410). -/
def calUnits (kind : Nat) : List Nat :=
  match kind with
  | 1 => List.range 1024 ++ (List.range 32).map (fun c => 0x8000 + c)
  | 2 => List.range 64
  | 3 => List.range 32
  | 4 => List.range 32
  | 5 => List.range 64
  | 6 => List.range 4
  | _ => []

/-- The bytes of a record (R410). -/
def State.calRecord (s : State) (kind unit : Nat) : List Byte :=
  leBytes kind 1 ++ [0] ++ leBytes unit 2 ++ leBytes (calLength kind) 2 ++ [0, 0] ++
  (List.range (2 * calPairs kind)).flatMap (fun i => leBytes (s.calBase kind unit i) 4) ++
  (List.range (calTerms kind).1).flatMap (fun i => leBytes (s.calBase kind unit (2 * calPairs kind + i)) (calTerms kind).2)

/-- The body of the calibration section as the constants now stand (R410). -/
def State.calBody (s : State) : List Byte :=
  let rs := [1, 2, 3, 4, 5, 6].flatMap (fun k => ((calUnits k).filter (s.calHas k)).map (fun u => (k, u)))
  leBytes (rs.length + s.cals.extraCount) 4 ++ leBytes s.cals.temp 2 ++ [0, 0] ++ leBytes s.cals.time 8 ++
  rs.flatMap (fun r => s.calRecord r.1 r.2) ++ s.cals.extra

/-! ### Section 0x0002: usage log (R436) -/

/-- A counter that saturates on `w` bits. -/
def saturate (w n : Nat) : Nat := min n (2 ^ w - 1)

/-- The body of the usage log as it now stands (R436). -/
def State.usageBody (s : State) : List Byte :=
  let u := s.power.usage
  leBytes (saturate 64 (u.operating / 100)) 8 ++ u.inState.flatMap (fun t => leBytes (saturate 64 (t / 100)) 8) ++
  u.bands.flatMap (fun t => leBytes (saturate 64 t) 8) ++ leBytes (saturate 32 u.brownouts) 4 ++
  leBytes (saturate 32 u.supplyResets) 4 ++ leBytes (saturate 32 u.shutdowns) 4 ++ leBytes (saturate 32 u.throttles) 4 ++
  leBytes (saturate 32 u.suspects) 4 ++ leBytes (saturate 32 u.boots) 4 ++
  (List.range 32).flatMap (fun c => leBytes (if s.present c then s.fld (Reg.AGE_PPM c) else 0) 4) ++
  leBytes (s.fld Reg.THERM_STATUS_PEAK) 2 ++ [0, 0]

/-- The usage log of a stored body; AGE_PPM and PEAK go to their registers (R436). -/
def usageOf (d : List Byte) : Usage :=
  { operating := 100 * bytesField d 0 8
    inState := (List.range 5).map (fun k => 100 * bytesField d (8 + 8 * k) 8)
    bands := (List.range 14).map (fun k => bytesField d (48 + 8 * k) 8)
    brownouts := bytesField d 160 4, supplyResets := bytesField d 164 4, shutdowns := bytesField d 168 4
    throttles := bytesField d 172 4, suspects := bytesField d 176 4, boots := bytesField d 180 4 }

/-! ### Section 0x0004: retirement (R483) -/

/-- The body of the retirement section as the records now stand (R483). -/
def State.retireBody (s : State) : List Byte :=
  let l := s.units.log.drop (s.units.log.length - 255)
  leBytes s.units.retired 16 ++ leBytes s.units.pairs 2 ++ leBytes s.units.lanes 1 ++ [0] ++ leBytes l.length 4 ++
  l.flatMap (fun e => leBytes e.1 8 ++ leBytes e.2.1 1 ++ leBytes e.2.2 2 ++ leBytes 0 5)

/-! ### Writing the store (R396) -/

/-- The payload: every section as it now stands (R394, R396). -/
def State.payload (s : State) : List Byte :=
  let a := if s.cals.stored then putSection s.ser.sections 1 s.calBody else s.ser.sections
  let b := putSection a 2 s.usageBody
  let c := if s.units.retired ≠ 0 ∨ s.units.pairs ≠ 0 ∨ s.units.lanes ≠ 0 ∨ s.units.log ≠ [] then putSection b 4 s.retireBody else b
  c.flatMap Section.bytes

/-- The erase frames that cover a run of flash (R396). -/
def eraseFrames (d : Directory) (off n : Nat) : List FlashFrame :=
  (List.range ((n + d.sector - 1) / d.sector)).map (fun i =>
    { addr := off + i * d.sector, erase := d.sector, data := [], check := false })

/-- The program frames of a run of data from an address that begins a page, or lies in its first page, the last one
followed by a comparison (R390, R396); the first argument bounds them. -/
def programFrames : Nat → Nat → Nat → List Byte → List FlashFrame
  | 0, _, _, _ => []
  | fuel + 1, page, a, d =>
    let n := page - a % page
    if d.length ≤ n then [{ addr := a, erase := 0, data := d, check := true }]
    else { addr := a, erase := 0, data := d.take n, check := false } :: programFrames fuel page (a + n) (d.drop n)

/-- The frames that put a payload into a bank: erase, payload and CRC, bytes 0 to 15 (R396). -/
def bankFrames (d : Directory) (off seq : Nat) (p : List Byte) : List FlashFrame :=
  let h := leBytes 0x54535645 4 ++ leBytes seq 4 ++ leBytes p.length 4 ++ leBytes 0 4
  let tail := p ++ leBytes (crc32c (h.drop 4 ++ p)) 4
  eraseFrames d off (20 + p.length) ++ programFrames (tail.length + 1) (2 ^ d.pageLog2) (off + 16) tail ++
  programFrames 1 (2 ^ d.pageLog2) off h

/-- Commands waiting on a store write that has failed complete with 0x50; WRITE_FAIL; the event (R396). -/
def State.storeFails (s : State) (asks : List StoreAsk) : State :=
  let s1 := (s.setFlag Reg.STORE_STATUS_WRITE_FAIL true).raise 23 0 0
  asks.foldl (fun s a => s.complete a.cmd 0x50 a.result) s1

/-- The first job starts, if it has not: a store write builds its payload from the sections as they now stand, and fails
at once where it does not fit or there is no store; the first argument bounds the jobs that fail so (R396). -/
def State.startJob : Nat → State → State
  | 0, s => s
  | fuel + 1, s =>
    match s.ser.jobs, s.ser.dir with
    | j :: rest, some d =>
      if j.started then s
      else match j.aim with
        | .update _ _ =>
          ({ s with ser := { s.ser with jobs := { j with started := true, frames := j.plan } :: rest } } : State).readyToProgram
        | .store _ _ _ =>
          let a := s.fld Reg.STORE_STATUS_ACTIVE
          let t := if a = 1 then 2 else 1
          let seq := if a = 0 then 1 else (s.fld Reg.STORE_STATUS_SEQ + 1) % 2 ^ 32
          let p := s.payload
          if d.bankSize < 20 + p.length || s.flag Reg.STORE_STATUS_LAYOUT_ERR then
            State.startJob fuel (({ s with ser := { s.ser with jobs := rest } } : State).storeFails j.asks)
          else
            let fs := bankFrames d (if t = 1 then d.bankA else d.bankB) seq p
            let s1 := s.setFlag Reg.STORE_STATUS_WRITING true
            ({ s1 with ser := { s1.ser with
                jobs := { j with aim := .store t seq p.length, started := true, plan := fs, frames := fs } :: rest } } : State).readyToProgram
    | j :: rest, none =>
      State.startJob fuel (({ s with ser := { s.ser with jobs := rest } } : State).storeFails j.asks)
    | [], _ => s

/-- A store write is requested, by a command or by the device: it starts, or joins the one pending (R396). -/
def State.requestStore (s : State) (ask : Option StoreAsk) : State :=
  let l := s.ser.jobs
  let isNext : FlashJob → Bool := fun j => !j.started && (match j.aim with | .store _ _ _ => true | .update _ _ => false)
  let l1 := if l.any isNext then l else l ++ [{ aim := .store 0 0 0 }]
  let i := l1.findIdx isNext
  let l2 := l1.mapIdx (fun k j => if k = i then { j with asks := j.asks ++ ask.toList } else j)
  State.startJob (l2.length + 1) { s with ser := { s.ser with jobs := l2 } }

/-- A store write is in progress or pending (R405, R423). -/
def State.storeBusy (s : State) : Bool :=
  s.ser.jobs.any (fun j => match j.aim with | .store _ _ _ => true | .update _ _ => false)

/-- The device asks for a store write (R396). -/
def doStoreWrite (s : State) : State := s.requestStore none

end Sys2Proof.Machine
end

