-- ==== Sys2Proof/Machine/Cal.lean ====
section
/-! DEFINITION. Calibration: background tracking, the Calender, freezes, and requested calibration (spec/19). -/

namespace Sys2Proof.Machine

open Sys2Proof

/-! ### Constants (R409, R410) -/

/-- A word as a signed difference counts it: gains unsigned, offsets, terms and delays signed (R409). -/
def calValue (kind i : Nat) (w : Nat) : Int :=
  if i < 2 * calPairs kind then (if i % 2 = 0 then (w : Int) else toSigned 32 w)
  else toSigned (8 * (calTerms kind).2) w

/-- A word from its value. -/
def calWord (kind i : Nat) (v : Int) : Nat :=
  if i < 2 * calPairs kind then ofSigned 32 v else ofSigned (8 * (calTerms kind).2) v

/-- The targeted constant. -/
def State.calTarget (s : State) (kind unit i : Nat) : Nat :=
  SMap.get (calDefault kind i) s.cals.target (calKey kind unit i)

/-- A word of the calibrated constants, and its target, take a value (R411, R417, R418). -/
def State.setBase (s : State) (kind unit i w : Nat) : State :=
  { s with cals := { s.cals with base := SMap.put s.cals.base (calKey kind unit i) w
                                 target := SMap.put s.cals.target (calKey kind unit i) w } }

/-- A target takes a value (R411). -/
def State.setTarget (s : State) (kind unit i w : Nat) : State :=
  { s with cals := { s.cals with target := SMap.put s.cals.target (calKey kind unit i) w } }

/-- The words of a record become calibrated constants and targets. -/
def State.setRecord (s : State) (kind unit : Nat) (is : List Nat) (ws : List Nat) : State :=
  is.foldl (fun s i => s.setBase kind unit i (ws.getD i (calDefault kind i))) s

/-- The registers marked "store" of a unit read the constants applied (R410). -/
def State.showConstants (s : State) (kind unit : Nat) : State :=
  match kind with
  | 1 =>
    if unit < 1024 then
      (s.setFld (Reg.DESKEW_CAL_DRV (unit / 32) (unit % 32)) (s.cal 1 unit 44)).setFld
        (Reg.DESKEW_CAL_CMP (unit / 32) (unit % 32)) (s.cal 1 unit 45)
    else s
  | 3 => (s.setFld (Reg.AWG_CAL_CAL_BALL unit) (s.cal 3 unit 10)).setFld (Reg.AWG_CAL_CAL_BUS unit) (s.cal 3 unit 11)
  | 4 => s.showDgCal unit
  | 5 => (s.setFld (Reg.DPS_CAL_V_OFFSET unit) (s.cal 5 unit 1)).setFld (Reg.DPS_CAL_I_GAIN unit) (s.cal 5 unit 4)
  | _ => s

/-- A constant in force takes a value; the registers follow. -/
def State.setWork (s : State) (kind unit : Nat) (ws : List (Nat × Nat)) : State :=
  let s1 := ws.foldl (fun s x =>
    { s with cals := { s.cals with work := SMap.put s.cals.work (calKey kind unit x.1) x.2 } }) s
  s1.showConstants kind unit

/-! ### The Calender's steps (R414) -/

/-- The words of quantity j of a record: a pair, or a term (R410). -/
def quantityWords (kind j : Nat) : List Nat :=
  if j < calPairs kind then [2 * j, 2 * j + 1] else [calPairs kind + j]

/-- The pin register block of a KIND 1 record's unit. -/
def recordPin (unit : Nat) : Nat := if 0x8000 ≤ unit then unit - 0x8000 + 1024 else unit

/-- The present settings of a source pair: µV, of currents pA (R409, R414). -/
def State.calSettings (s : State) (kind unit j : Nat) : List Int :=
  match kind with
  | 1 =>
    let p := recordPin unit
    match j with
    | 0 => [s.asfld (Reg.LS_VIH p 0), s.asfld (Reg.LS_VIH p 1)]
    | 1 => [s.asfld (Reg.LS_VIL p 0), s.asfld (Reg.LS_VIL p 1)]
    | 2 => [s.asfld (Reg.LS_VTT p 0), s.asfld (Reg.LS_VTT p 1)]
    | 3 => [s.asfld (Reg.LS_VOH p 0), s.asfld (Reg.LS_VOH p 1)]
    | 4 => [s.asfld (Reg.LS_VOL p 0), s.asfld (Reg.LS_VOL p 1)]
    | 5 => [s.asfld (Reg.LS_VCOM p 0), s.asfld (Reg.LS_VCOM p 1)]
    | 6 => [s.asfld (Reg.CLAMP_HI p)]
    | 7 => [s.asfld (Reg.CLAMP_LO p)]
    | 8 => [s.asfld (Reg.LS_ISRC p 0), s.asfld (Reg.LS_ISRC p 1)]
    | 9 => [s.asfld (Reg.LS_ISNK p 0), s.asfld (Reg.LS_ISNK p 1)]
    | 10 => [s.asfld (Reg.FORCE_V p)]
    | _ => if s.afld (Reg.PPMU_CTRL_RANGE p) + 11 = j then [s.asfld (Reg.FORCE_I p)] else []
  | 2 => [s.asfld (Reg.TMU_IN_VTH unit j)]
  | 3 =>
    if s.afld (Reg.AWG_CTRL_SPAN unit) = j then [roundAway (codeVolts j (s.awg unit).y) 32768] else []
  | 5 =>
    match j with
    | 0 => [s.asfld (Reg.VSET unit)]
    | 3 => [s.asfld (Reg.VWIN_VWIN_LO unit), s.asfld (Reg.VWIN_VWIN_HI unit)]
    | _ => [s.asfld (Reg.IWIN_IWIN_LO unit) * 1000000, s.asfld (Reg.IWIN_IWIN_HI unit) * 1000000]
  | _ => []

/-- The step of a quantity, in the units of its applied value; none of one replaced whole (R49, R207, R255, R414). -/
def State.calStep (s : State) (kind unit j : Nat) : Option Int :=
  if calPairs kind ≤ j then (if kind = 6 then none else some 1)
  else match kind with
    | 1 =>
      if j < 8 ∨ j = 10 then some 50
      else if j < 10 then some 1000000
      else if j < 16 then some (nominalRange (j - 11) / 100000)
      else none
    | 2 => some 50
    | 3 => some (if j = 0 ∨ j = 2 then 30 else if j = 1 ∨ j = 3 then 76 else 152)
    | 5 =>
      match j with
      | 0 => some 50
      | 3 => some 50
      | 4 => some ((10 ^ 17 : Int) / (s.afld (Reg.STAGE_R_SHUNT unit) : Int) / 4096)
      | _ => none
    | _ => none

/-- The value that a pair applies for a setting (R409). -/
def applyPair (gain offset x : Int) : Int := roundAway (gain * x) (2 ^ 30) + offset

/-- The largest magnitude of a list. -/
def maxAbs (l : List Int) : Int := l.foldl (fun m x => max m (if x < 0 then -x else x)) 0

/-- One step of a pair toward its target: the whole of it where the applied value moves by at most `step` at every present
setting, else the greatest tried share of it that does (R414). -/
def stepPair (step : Int) (w t : Int × Int) (settings : List Int) : Int × Int :=
  let move := fun (p : Int × Int) => maxAbs (settings.map (fun x => applyPair p.1 p.2 x - applyPair w.1 w.2 x))
  let m := move t
  if m ≤ step then t
  else
    let share := fun (n : Int) => (w.1 + (t.1 - w.1) * n / m, w.2 + (t.2 - w.2) * n / m)
    (([step, step - 1, step - 2, step - 3].map share).find? (fun p => decide (move p ≤ step))).getD w

/-- Steps still due for a quantity (R415). -/
def State.stepsDue (s : State) (kind unit j : Nat) : Nat :=
  let ws := quantityWords kind j
  if ws.all (fun i => decide (s.cal kind unit i = s.calTarget kind unit i)) then 0
  else match s.calStep kind unit j with
    | none => 1
    | some st =>
      if calPairs kind ≤ j then
        let i := calPairs kind + j
        (calValue kind i (s.calTarget kind unit i) - calValue kind i (s.cal kind unit i)).natAbs
      else
        let d := fun (x : Int) =>
          applyPair (s.calTarget kind unit (2 * j)) (toSigned 32 (s.calTarget kind unit (2 * j + 1))) x -
            applyPair (s.calGain kind unit j) (s.calOffset kind unit j) x
        max 1 ((maxAbs ((s.calSettings kind unit j).map d) + max st 1 - 1) / max st 1).toNat

/-- The units and quantities that a target is listed for. -/
def State.targeted (s : State) : List (Nat × Nat × Nat) :=
  (s.cals.target.map (fun x =>
    let kind := x.1 / 64 / 65536
    let i := x.1 % 64
    (kind, x.1 / 64 % 65536, if i < 2 * calPairs kind then i / 2 else i - calPairs kind))).dedup

/-- PENDING of cluster c (R415). -/
def State.showPending (s : State) (c : Nat) : State :=
  s.setFld (Reg.CAL_STATUS_PENDING c)
    (min 255 (((s.targeted.filter (fun x => decide (calCluster x.1 x.2.1 = some c))).map
      (fun x => s.stepsDue x.1 x.2.1 x.2.2)).foldl max 0))

/-- A freeze covers a unit: of a cluster that a freezing program's group drives, or a DPS channel of its sites (R415). -/
def State.frozenUnit (s : State) (kind unit : Nat) : Bool :=
  s.programs.any (fun g => (g.2.freezeHeader || g.2.freezeOp) &&
    ((calCluster kind unit).any (fun c => (s.groupClusters g.1).contains c) ||
      (decide (kind = 5) && (s.group g.1).positions.any (fun x => x.dps.contains unit))))

/-- A unit is measuring: its steps wait (R414). -/
def State.unitMeasures (s : State) (kind unit : Nat) : Bool :=
  match kind with
  | 1 => (s.pin (recordPin unit)).meas.isSome
  | 2 => (SMap.get {} s.tmus unit).arm.isSome
  | 4 => (SMap.get {} s.dgs unit).arm.isSome
  | 5 => (SMap.get {} s.dps (s.dpsLeader unit)).meas.isSome
  | 6 => ((SMap.get {} s.felt.ports unit).t1).isSome
  | _ => false

/-- CALENDER_STEP: quantity j of a unit's record moves one step toward its target (R414, R415, R419). -/
def doCalenderStep (kind unit j : Nat) (s : State) : State :=
  let relocks := (calCluster kind unit).any (fun c => s.flag (Reg.CLK_STATUS_RELOCKING c))
  let off := (calCluster kind unit).any (fun c => s.blockOff (Reg.clB c))
  if !calUnitOk kind unit || calPairs kind + (calTerms kind).1 ≤ j || off || s.frozenUnit kind unit ||
      s.unitMeasures kind unit || (relocks && calPairs kind ≤ j) then s
  else
    let s1 := match s.calStep kind unit j with
      | none => s.setWork kind unit ((quantityWords kind j).map (fun i => (i, s.calTarget kind unit i)))
      | some st =>
        if calPairs kind ≤ j then
          let i := calPairs kind + j
          let w := calValue kind i (s.cal kind unit i)
          let t := calValue kind i (s.calTarget kind unit i)
          s.setWork kind unit [(i, calWord kind i (if w < t then w + 1 else if t < w then w - 1 else w))]
        else
          let p := stepPair st (s.calGain kind unit j, s.calOffset kind unit j)
            (s.calTarget kind unit (2 * j), toSigned 32 (s.calTarget kind unit (2 * j + 1))) (s.calSettings kind unit j)
          s.setWork kind unit [(2 * j, ofSigned 32 p.1), (2 * j + 1, ofSigned 32 p.2)]
    match calCluster kind unit with
    | some c => s1.showPending c
    | none => s1

/-- The targets of cluster c are applied whole (R419, R476). -/
def State.applyTargets (s : State) (c : Nat) : State :=
  let s1 := (s.targeted.filter (fun x => decide (calCluster x.1 x.2.1 = some c))).foldl
    (fun s x => s.setWork x.1 x.2.1 ((quantityWords x.1 x.2.2).map (fun i => (i, s.calTarget x.1 x.2.1 i)))) s
  s1.showPending c

/-! ### Tracking (R411 to R413) -/

/-- QUALITY of cluster c; a change into POOR or STALE raises the event (R413). -/
def State.setQuality (s : State) (c q : Nat) : State :=
  let s1 := s.setFld (Reg.CAL_STATUS_QUALITY c) q
  if 2 ≤ q ∧ s.fld (Reg.CAL_STATUS_QUALITY c) ≠ q then s1.raise 18 c q else s1

/-- QUALITY for two residuals (R413). -/
def residQuality (uv ps : Int) : Nat :=
  if uv.natAbs ≤ 200 ∧ ps.natAbs ≤ 3 then 0 else if uv.natAbs ≤ 1000 ∧ ps.natAbs ≤ 6 then 1 else 2

/-- The units of cluster c for which a tracking cycle sets targets, by KIND (R411). -/
def trackedUnits (c kind : Nat) : List Nat :=
  match kind with
  | 1 => (List.range 32).map (fun i => 32 * c + i) ++ [0x8000 + c]
  | 2 => [2 * c, 2 * c + 1]
  | 3 => [c]
  | 4 => [c]
  | 5 => [2 * c, 2 * c + 1]
  | _ => []

/-- c_base: word i of a KIND of the reference channel of cluster c, as last taken (R411, R417). -/
def State.calRef (s : State) (kind c i : Nat) : Nat :=
  (SMap.find s.cals.refs (calKey kind (0x8000 + c) i)).getD (s.calBase kind (0x8000 + c) i)

/-- c_base is taken afresh: the words named take the values given (R417, R418). -/
def State.takeRefs (s : State) (kind c : Nat) (ws : List (Nat × Nat)) : State :=
  { s with cals := { s.cals with refs := ws.foldl (fun m x => SMap.put m (calKey kind (0x8000 + c) x.1) x.2) s.cals.refs } }

/-- The drift of each constant measured on the reference channel since the last full calibration (R411). -/
def State.drifts (s : State) (c : Nat) (m : Tracking) : List (Nat × Nat × Int) :=
  m.words.map (fun w =>
    let k := w.kind.val
    let i := w.index.toNat
    (k, i, calValue k i (w.value.toNat % (if i < 2 * calPairs k then 2 ^ 32 else 2 ^ (8 * (calTerms k).2))) -
      calValue k i (s.calRef k c i)))

/-- Every target of a cycle (R411). -/
def State.setTargets (s : State) (c : Nat) (m : Tracking) : State :=
  let ds := s.drifts c m
  let measured := ds.filter (fun d => decide (d.1 = 1) || decide (d.1 = 2))
  let s1 := measured.foldl (fun s d => (trackedUnits c d.1).foldl (fun s u =>
    s.setTarget d.1 u d.2.1 (calWord d.1 d.2.1 (calValue d.1 d.2.1 (s.calBase d.1 u d.2.1) + d.2.2))) s) s
  let l := ds.map (fun d => (64 * d.1 + d.2.1, d.2.2))
  let s2 := [3, 4, 5].foldl (fun s k => (trackedUnits c k).foldl (fun s u => (List.range (calWords k)).foldl (fun s i =>
    s.setTarget k u i (calWord k i (calValue k i (s.calBase k u i) + Config.modelledDrift k i l))) s) s) s1
  m.felt.foldl (fun s f => (s.setTarget 6 f.1.val 0 f.2.1.toNat).setTarget 6 f.1.val 1 f.2.2.toNat) s2

/-- The exit from I4 runs: every cluster runs a full cycle in it (R419). -/
def State.wakesI4 (s : State) : Bool := decide (s.fld Reg.PWR_STATUS_STATE = 4) && s.flag Reg.PWR_STATUS_EXITING

/-- The cluster is powered: not in I4 before its exit, not powered down (R411, R413, R419). -/
def State.clusterPowered (s : State) (c : Nat) : Bool :=
  !s.blockOff (Reg.clB c) && (decide (s.fld Reg.PWR_STATUS_STATE ≠ 4) || s.wakesI4)

/-- A tracking cycle of cluster c ends: its targets, or REF_FAULT and none (R411, R413). -/
def State.trackCycle (s : State) (c : Nat) (m : Tracking) : State :=
  let s0 := if s.wakesI4 then { s with power := { s.power with tracked := addOnce c s.power.tracked } } else s
  let s1 := (s0.bump (Reg.TRACK_CYCLES c) 1).setFld (Reg.LAST_TRACK c) s.now
  if !m.ratios then (s1.setFlag (Reg.CAL_STATUS_REF_FAULT c) true).setQuality c 2
  else
    let s2 := ((s1.setTargets c m).setFld (Reg.RESID_RESID_UV c) m.residUv.toNat).setFld (Reg.RESID_RESID_PS c) m.residPs.toNat
    (s2.setQuality c (residQuality m.residUv.toInt m.residPs.toInt)).showPending c

/-- TRACKING_CYCLE (R411). -/
def doTrackingCycle (c : Nat) (m : Tracking) (s : State) : State :=
  if s.fld (Reg.CAL_CTRL_TRACK_EN c) = 0 || !s.clusterPowered c then s else s.trackCycle c m

/-- CAL_STALE: no cycle has completed for 1 s (R413). -/
def doCalStale (c : Nat) (s : State) : State :=
  if s.clusterPowered c && decide (s.fld (Reg.LAST_TRACK c) + 10 ^ 12 ≤ s.now) then s.setQuality c 3 else s

/-- CAL_CTRL of cluster c has been written (R413, R420). -/
def State.calCtrlWritten (s : State) (c : Nat) : State :=
  if s.fld (Reg.CAL_CTRL_TRACK_EN c) = 0 then s.setQuality c 3 else s

/-! ### CAL_RUN (R416, R417) -/

/-- One per cent of the span of a pair's OFFSET, in its own units (R49, R62, R207, R255, R417). -/
def offsetLimit (kind j : Nat) : Int :=
  match kind with
  | 1 =>
    if j < 8 ∨ j = 10 then 80000
    else if j < 10 then 240000000
    else if j < 16 then 2 * nominalRange (j - 11) / 100
    else 2 ^ 18 * 64 / 100
  | 2 => 80000
  | 3 => if j = 0 then 20000 else if j = 1 then 50000 else 2 * (spanTop j : Int) / 100
  | 4 => 2 ^ 18 * 64 / 100
  | _ => if j = 1 ∨ j = 2 then 2 ^ 20 * 64 / 100 else if j = 4 then 2 ^ 31 else 65000

/-- A pair passes: GAIN from 0x3999_999A to 0x4666_6666, OFFSET within 1 % of its span (R417). -/
def pairPasses (kind j gain offset : Nat) : Bool :=
  decide (0x3999999A ≤ gain) && decide (gain ≤ 0x46666666) &&
  decide (((toSigned 32 offset).natAbs : Int) ≤ offsetLimit kind j)

/-- Every pair among the words of a record passes. -/
def wordsPass (kind : Nat) (ws : List Nat) : Bool :=
  (List.range (calPairs kind)).all (fun j =>
    pairPasses kind j (ws.getD (2 * j) 0x40000000) (ws.getD (2 * j + 1) 0))

/-- Every pair that a calibration takes passes: `is` are the words it takes (R417). -/
def partPasses (kind : Nat) (is ws : List Nat) : Bool :=
  (List.range (calPairs kind)).all (fun j =>
    !is.contains (2 * j) || pairPasses kind j (ws.getD (2 * j) 0x40000000) (ws.getD (2 * j + 1) 0))

/-- A calibration of some words of a record: constants that pass become calibrated constants and targets (R417). -/
def State.calibrate (s : State) (kind unit : Nat) (is ws : List Nat) : State :=
  if partPasses kind is ws then s.setRecord kind unit is ws else s

/-- The records of a run that a kind of calibration takes, with the words it takes: LEVELS the pairs of the pins, TIMING
their terms, ANALOG the TMUs, the AWG and the digitizer, DPS the DPS channels (R407, R416). -/
def CalRun.part (r : CalRun) (k : Nat) : List (Nat × Nat × List Nat × List Nat) :=
  let here := r.records.filter (fun x => calUnitOk x.1 x.2.1 && decide (calCluster x.1 x.2.1 = some r.cluster))
  let keep := fun (f : Nat → Bool) (is : Nat → List Nat) => (here.filter (fun x => f x.1)).map (fun x => (x.1, x.2.1, is x.1, x.2.2))
  match k with
  | 0 => keep (fun x => decide (x = 1)) (fun _ => List.range 44)
  | 1 => keep (fun x => decide (x = 1)) (fun _ => [44, 45])
  | 3 => keep (fun x => decide (2 ≤ x) && decide (x ≤ 4)) (fun x => List.range (calWords x))
  | _ => keep (fun x => decide (x = 5)) (fun x => List.range (calWords x))

/-- The constants of the reference channel that a kind of a run has measured: KIND and words (R411, R417). -/
def CalRun.refs (r : CalRun) (k : Nat) : List (Nat × List (Nat × Nat)) :=
  let here := r.records.filter (fun x => decide (x.2.1 = 0x8000 + r.cluster))
  let words := fun (kind : Nat) (is : List Nat) =>
    (here.filter (fun x => decide (x.1 = kind))).map (fun x => (kind, is.map (fun i => (i, x.2.2.getD i (calDefault kind i)))))
  match k with
  | 0 => words 1 (List.range 44)
  | 1 => words 1 [44, 45]
  | 3 => words 2 (List.range (calWords 2))
  | _ => []

/-- The median of a list of readings, the lower of the middle two. -/
def median (l : List Int) : Int := ((l.mergeSort (fun a b => decide (a ≤ b)))).getD ((l.length - 1) / 2) 0

/-- The last reading of sensor k, signed 1/16 °C (R438). -/
def State.temp (s : State) (k : Nat) : Int := toSigned 16 (s.fld ⟨0x5200 + 8 * (k / 4), 16 * (k % 4), 16⟩)

/-- The sensors that count: of clusters present, the other eight, none suspect (R428, R429). -/
def State.validSensors (s : State) : List Nat :=
  (List.range 104).filter (fun k => (decide (96 ≤ k) || s.present (k / 3)) && !s.flag (Reg.SUSPECT k))

/-- The section's header follows a calibration; there is a section from now on (R410, R463). -/
def State.stampCal (s : State) (dirty : Bool) : State :=
  let s1 := { s with cals := { s.cals with
    temp := ofSigned 16 (median (s.validSensors.map s.temp)), time := s.now, stored := true } }
  if dirty then s1.setFlag Reg.SEC_STATUS_CAL_DIRTY true else s1

/-- Kind k of a run runs: its checks, its new constants, its failures (R60, R265, R417). -/
def State.calKind (s : State) (r : CalRun) (k : Nat) : CalRun × State :=
  let c := r.cluster
  if k = 2 then
    let bad := r.clamps
    let s1 := doClampSelfCheck c (BitVec.ofNat 33 (2 ^ 33 - 1 - bad)) s
    let pins := bad % 2 ^ 32
    ({ r with pins := orMask r.pins pins, done := r.done + (if bad = 0 then 4 else 0), failed := r.failed + (if bad = 0 then 0 else 4) }, s1)
  else
    let open0 := fun (n : Nat) => decide (k ≠ 4) || decide (s.fld (Reg.DPS_STATUS_STATE n) = 0)
    let part := (r.part k).filter (fun x => decide (x.1 ≠ 5) || open0 x.2.1)
    let failing := part.filter (fun x => !partPasses x.1 x.2.2.1 x.2.2.2)
    let s0 := (r.refs k).foldl (fun s x => s.takeRefs x.1 c x.2) s
    let s1 := part.foldl (fun s x => s.calibrate x.1 x.2.1 x.2.2.1 x.2.2.2) s0
    let pins := ofBits ((failing.filter (fun x => decide (x.1 = 1) && decide (x.2.1 < 1024))).map (fun x => x.2.1 % 32))
    let s2 := s1.setFld (Reg.CAL_PIN_FAIL c) (orMask (s1.fld (Reg.CAL_PIN_FAIL c)) pins)
    let s3 := if failing.isEmpty then s2 else s2.raise 19 c (s2.fld (Reg.CAL_PIN_FAIL c))
    let chans := [0, 1]
    let s4 := if k = 4 then chans.foldl (fun s i => s.dpsChecked (2 * c + i) false (!bitOf r.level1 i)) s3 else s3
    let skipped := if k = 4 then chans.filter (fun i => !open0 (2 * c + i)) else []
    let badDps := if k = 4 then
        chans.filter (fun i => skipped.contains i || bitOf r.level1 i || (s.dpsRec (2 * c + i)).fail2 ||
          failing.any (fun x => decide (x.1 = 5) && decide (x.2.1 = 2 * c + i)))
      else []
    let ok := failing.isEmpty && badDps.isEmpty
    ({ r with pins := orMask r.pins pins, dps := orMask r.dps (ofBits badDps)
              done := r.done + (if ok then 2 ^ k else 0), failed := r.failed + (if ok then 0 else 2 ^ k) },
     (s4.stampCal (!r.store)).showPending c)

/-- RESULT of a CAL_RUN (R416). -/
def CalRun.result (r : CalRun) : Nat := r.done + 2 ^ 8 * r.failed + 2 ^ 32 * r.pins + 2 ^ 64 * r.dps

/-- Groups with a program on cluster c, by leader. -/
def State.programsOn (s : State) (c : Nat) : List Nat :=
  (s.programs.map (fun g => g.1)).filter (fun b => (s.groupClusters b).contains c)

/-- The groups on cluster c are asked for a safe wait, or released (R417). -/
def State.askHold (s : State) (c : Nat) (want : Bool) : State :=
  (s.programsOn c).foldl (fun s b =>
    (s.modProgram b (fun g => { g with calWant := want, calHeld := g.calHeld && want })).showExec b) s

/-- A level-2 check runs on a channel of cluster c that is still in state 0. -/
def State.level2Runs (s : State) (c : Nat) : Bool :=
  [2 * c, 2 * c + 1].any (fun n => (s.dpsRec n).level2 && decide (s.dpsState n = 0))

/-- Kind k of a run may start, or of DPS, end once its level-2 checks have (R417). -/
def State.kindFree (s : State) (r : CalRun) (k : Nat) : Bool :=
  let on := s.programsOn r.cluster
  if k = 4 then !s.level2Runs r.cluster
  else if r.preempt && (decide (k = 0) || decide (k = 3)) then
    on.all (fun b => (s.program b).any (fun g => g.calHeld))
  else on.isEmpty

/-- CAL_ACTIVE of cluster c (R420). -/
def State.showCalActive (s : State) (c : Nat) : State :=
  s.setFlag (Reg.CAL_STATUS_CAL_ACTIVE c) (s.cals.runs.any (fun r => decide (r.cluster = c)))

/-- The level-2 checks of a cluster's channels in state 0 start, or none runs any more (R265, R267, R417). -/
def State.markLevel2 (s : State) (c : Nat) (on : Bool) : State :=
  [2 * c, 2 * c + 1].foldl (fun s n => s.modDps n (fun d => { d with level2 := on && decide (s.dpsState n = 0) })) s

/-- The command of a run, the first of its cluster, completes; held groups go on (R417, R418). -/
def State.endCalRun (s : State) (r : CalRun) (st : Nat) : State :=
  let s1 := ({ s with cals := { s.cals with runs := s.cals.runs.eraseP (fun x => decide (x.cmd = r.cmd)) } } : State).askHold
    r.cluster false |>.markLevel2 r.cluster false
  let s2 := s1.showCalActive r.cluster
  if st ≤ 1 ∧ r.store then s2.requestStore (some { cmd := r.cmd, status := st, result := r.result })
  else s2.complete r.cmd st r.result

/-- The kinds of a run that may run do so, one after another; the first argument bounds them. Whether the run has ended. -/
def State.goCalRun : Nat → CalRun → State → State
  | 0, _, s => s
  | fuel + 1, r, s =>
    match r.left with
    | [] => s.endCalRun r (if r.failed = 0 then 0 else 1)
    | k :: l =>
      if k = 4 ∧ !r.checking then
        let r1 := { r with checking := true }
        let s1 := { s with cals := { s.cals with runs := s.cals.runs.map (fun (y : CalRun) => if y.cmd = r.cmd then r1 else y) } }
        State.goCalRun fuel r1 (s1.markLevel2 r.cluster true)
      else if s.kindFree r k then
        let x := (if k = 4 then s.markLevel2 r.cluster false else s).calKind r k
        let r1 := { x.1 with left := l }
        let s1 := { x.2 with cals := { x.2.cals with
          runs := x.2.cals.runs.map (fun (y : CalRun) => if y.cmd = r.cmd then r1 else y) } }
        State.goCalRun fuel r1 s1
      else s.askHold r.cluster (r.preempt && (decide (k = 0) || decide (k = 3)))

/-- A CAL_LOAD's values become calibrated constants and targets. DESIGN CHOICE: the c_base that it takes afresh of every cluster named is
a free value, for the row brings no measurement. Log entry 14. (R418) -/
def State.applyLoad (s : State) (x : CalLoad) : State :=
  let cs := (x.records.filterMap (fun y => calCluster y.1 y.2.1)).dedup
  let here := x.records.filter (fun y => (calCluster y.1 y.2.1).all (fun c => s.present c))
  let s1 := here.foldl (fun s y => s.setRecord y.1 y.2.1 (List.range (calWords y.1)) y.2.2) s
  let free := fun (s : State) (kind c : Nat) =>
    let t := s.takeRefs kind c ((List.range (calWords kind)).map (fun i =>
      (i, Config.freeValue (s.draws + i) % (if i < 2 * calPairs kind then 2 ^ 32 else 2 ^ (8 * (calTerms kind).2)))))
    { t with draws := t.draws + calWords kind }
  let s2 := cs.foldl (fun s c => free (free s 1 c) 2 c) s1
  let s3 := cs.foldl State.showPending { s2 with cals := { s2.cals with
    loads := s2.cals.loads.erase x, stored := true, temp := x.temp, time := x.time, extra := x.extra, extraCount := x.extraCount } }
  s3.requestStore (some { cmd := x.cmd, status := 0, result := here.length })

/-- The first CAL_RUN of every cluster goes on as far as it may, then CAL_LOADs whose clusters are free (R417 to R419). -/
def State.goCals (s : State) : State :=
  let firsts := s.cals.runs.foldl (fun l r => if l.any (fun x => decide (x.cluster = r.cluster)) then l else l ++ [r]) []
  let s1 := firsts.foldl (fun s r => State.goCalRun 7 r s) s
  s1.cals.loads.foldl (fun s x =>
    let cs := x.records.filterMap (fun y => calCluster y.1 y.2.1)
    if cs.any (fun c => !(s.programsOn c).isEmpty) then s else s.applyLoad x) s1

/-- The OEM protection map forbids host writes to calibration stores (R418, R453). -/
def State.calDenied (s : State) : Bool := bitOf s.fuse.oem.protMap 13

/-- A CAL_RUN with what it will measure. -/
def calRunOf (m : CalOutcome) (c : Cmd) : CalRun :=
  { cmd := c, cluster := c.target, clamps := m.clamps.toNat, level1 := m.level1.toNat
    records := m.records.map (fun x => (x.kind.val, x.unit.toNat, x.words.map BitVec.toNat))
    preempt := bitOf (c.field 9 1) 0, store := bitOf (c.field 9 1) 1, left := setBits (c.field 8 1) 5 }

/-- CAL_RUN reaches its cluster (R416, R417). -/
def State.beginCalRun (s : State) (r : CalRun) : State :=
  let c := r.cmd
  let kinds := c.field 8 1
  let fl := c.field 9 1
  let bad := c.reservedSet [(8, 2), (16, 8)] || decide (32 ≤ c.target) || decide (kinds = 0) || decide (32 ≤ kinds) ||
    decide (4 ≤ fl) || (bitOf fl 1 && s.calDenied)
  s.checked c ((bad, 0x7F) :: s.unitChecks [c.target]) (fun s =>
    (({ s with cals := { s.cals with runs := s.cals.runs ++ [r] } } : State).showCalActive r.cluster).goCals)

/-- CAL_RUN: what it measures is kept until its cluster takes it. -/
def State.keepCalRun (s : State) (m : CalOutcome) (c : Cmd) : State :=
  let old := s.cals.waiting.filter (fun r => decide (r.cmd ≠ c))
  { s with cals := { s.cals with waiting := old ++ [calRunOf m c] } }

/-- A kept CAL_RUN is taken. -/
def doCalRun (c : Cmd) (s : State) : State :=
  let r := (s.cals.waiting.find? (fun r => decide (r.cmd = c))).getD (calRunOf { records := [], clamps := 0#33, level1 := 0#2 } c)
  ({ s with cals := { s.cals with waiting := s.cals.waiting.filter (fun r => decide (r.cmd ≠ c)) } } : State).beginCalRun r

/-- CAL_RUN_TIME_LIMIT: the first run on cluster c with a limit ends with 0x60 (R417, R419). -/
def doCalRunTimeLimit (c : Nat) (s : State) : State :=
  match s.cals.runs.find? (fun r => decide (r.cluster = c)) with
  | some r => if r.cmd.field 16 8 = 0 then s else s.endCalRun r 0x60
  | none => s

/-- Every run on cluster c completes with `st`; no constant of an unfinished kind changes (R419, R478). -/
def State.abortCal (s : State) (c st : Nat) : State :=
  (s.cals.runs.filter (fun r => decide (r.cluster = c))).foldl (fun s r => s.endCalRun r st) s

/-- CAL_STORE (R416, R418). -/
def doCalStore (c : Cmd) (s : State) : State :=
  s.checked c ((c.reservedSet [] || decide (c.target ≠ 0) || s.calDenied, 0x7F) :: s.shutChecks) (fun s =>
    s.requestStore (some { cmd := c, status := 0, result := 0 }))

/-- The records that could be read, `count` at most, break R410 or the limits of R417 (R15). A record whose header could not be read
ends the checks: where the next one begins is not known. -/
def recordsBreach : Nat → List (Option Byte) → Bool
  | 0, l => !l.isEmpty
  | k + 1, l =>
    if l.length < 8 then true
    else
      match readPart l 0 8 with
      | none => partBad l 1 1 (fun v => decide (v ≠ 0))
      | some h =>
        let kind := bytesField h 0 1
        let n := bytesField h 4 2
        let known := decide (1 ≤ kind) && decide (kind ≤ 6)
        if n < 8 ∨ l.length < n ∨ bytesField h 1 1 ≠ 0 ∨ bytesField h 6 2 ≠ 0 then true
        else
          (known && (decide (n ≠ calLength kind) || !calUnitOk kind (bytesField h 2 2) ||
            (readPart l 8 (n - 8)).any (fun d => !wordsPass kind (recordWords kind d)))) || recordsBreach k (l.drop n)

/-- The part of a section body that could be read breaks R410 or the limits of R417 (R15). -/
def calPartBad (l : List (Option Byte)) : Bool :=
  partBad l 6 2 (fun v => decide (v ≠ 0)) || ((readPart l 0 4).map leNat).any (fun k => recordsBreach k (l.drop 16))

/-- CAL_LOAD: the whole body is checked before any record is applied (R416, R418). -/
def doCalLoad (c : Cmd) (s : State) : State :=
  let va := c.field 16 8
  let n := c.field 24 4
  let bad := c.reservedSet [(16, 12)] || decide (c.target ≠ 0) || decide (2 ^ 48 ≤ va) || decide (va % 8 ≠ 0) || s.calDenied
  s.checked c ((bad, 0x7F) :: s.shutChecks) (fun s =>
    s.withReadOr c { engine := 9, unit := 0 } va n calPartBad id (fun d s =>
      match calBodyOf d with
      | some (temp, time, l, x, k) =>
        if l.all (fun y => wordsPass y.1 y.2.2) then
          let y : CalLoad := { cmd := c, records := l, temp := temp, time := time, extra := x, extraCount := k }
          ({ s with cals := { s.cals with loads := s.cals.loads ++ [y] } } : State).goCals
        else s.complete c 0x7F 0
      | none => s.complete c 0x7F 0))

end Sys2Proof.Machine
end

