-- ==== Sys2Proof/Machine/Cell.lean ====
section
/-! DEFINITION. The cell port: its register space, its frames, and the alive counter (spec/18 R397 to R405). -/

namespace Sys2Proof.Machine

open Sys2Proof

/-- The port answers frames: ENABLE is 1 and the firmware has brought it up (R404). -/
def State.cellUp (s : State) : Bool := s.flag Reg.CP_CTRL_ENABLE && s.flag Reg.SEC_STATUS_BOOTED

/-! ### The cell register space (R402) -/

/-- Site numbers of the positions of a bitmap, over all captured groups. -/
def State.sitesIn (s : State) (f : Nat → Nat) : List Nat :=
  s.groups.flatMap (fun g => (g.2.positions.filter (fun x => bitOf (f g.1) x.position)).map SitePos.site)

/-- Word k of a bitmap of sites. -/
def siteWordOf (l : List Nat) (k : Nat) : Nat :=
  ofBits ((List.range 16).filter (fun j => l.contains (16 * k + j)))

/-- The UNIT_READY summaries by kind, IDENT word 3 (R402, R473). -/
def State.readySummary (s : State) : Nat :=
  let kinds := [(0, 32), (32, 64), (96, 1), (97, 1), (98, 4), (102, 1), (103, 8), (111, 1)]
  ofBits ((List.range 8).filter (fun i =>
    let k := kinds.getD i (0, 0)
    (List.range k.2).all (fun j => !s.present (k.1 + j) || s.ready (k.1 + j))))

/-- Words of each block, by its first address (R402). -/
def cellBlocks : List (Nat × Nat) := [(0, 8), (0x100, 16), (0x200, 32), (0x300, 32), (0x400, 32), (0x500, 8)]

/-- The block that holds an address. -/
def cellBlock (a : Nat) : Option (Nat × Nat) := cellBlocks.find? (fun b => decide (b.1 ≤ a) && decide (a < b.1 + b.2))

/-- The word of the cell register space at an address of a block (R402). -/
def State.cellWord (s : State) (a : Nat) : Nat :=
  if a < 8 then
    match a with
    | 0 => s.fuse.deviceId
    | 1 => Config.revision.toNat
    | 2 => s.fld Reg.FELT_CFG_NODE
    | 3 => s.readySummary
    | 4 => s.fld Reg.PWR_STATUS_STATE
    | _ => 0
  else if 0x100 ≤ a ∧ a < 0x110 then
    match a - 0x100 with
    | 0 => s.fld Reg.THERM_STATUS_JUNCTION
    | 1 => (List.range 32).foldl (fun m c => max m (s.fld (Reg.THROTTLE_n c))) 0
    | 2 => min 65535 (s.fld Reg.BROWNOUTS)
    | 3 => s.fld Reg.FELT_STATUS_SYNC_STATE + 8 * s.fld Reg.FELT_STATUS_TIME_SUSPECT
    | 4 => bitsOf s.now 0 16
    | 5 => bitsOf s.now 16 16
    | 6 => bitsOf s.now 32 16
    | 7 => bitsOf s.now 48 16
    | 8 => (s.sitesIn s.closedMask).length
    | 9 => min 65535 s.ser.closures
    | _ => 0
  else if 0x200 ≤ a ∧ a < 0x220 then siteWordOf (s.sitesIn s.enabledMask) (a - 0x200)
  else if 0x300 ≤ a ∧ a < 0x320 then siteWordOf (s.sitesIn s.closedMask) (a - 0x300)
  else if a = 0x500 then s.fld Reg.CP_STATUS_NEXT_ALIVE + 16 * s.fld Reg.CP_STATUS_LOST
  else if a = 0x501 then s.fld Reg.CP_ACCEPTED % 65536
  else if a = 0x502 then s.fld Reg.CP_IGNORED % 65536
  else if a = 0x503 then min 65535 (s.fld Reg.CP_LOSSES)
  else 0

/-- The words of a READ: those of the block that holds its address, then zero (R402). -/
def State.cellWords (s : State) (a n : Nat) : List Nat :=
  match cellBlock a with
  | none => List.replicate n 0
  | some b => (List.range n).map (fun i => if a + i < b.1 + b.2 then s.cellWord (a + i) else 0)

/-! ### Frames (R397 to R401) -/

/-- OP, ALIVE, COUNT of a frame's HEADER (R398). -/
def cellOp (f : CellFrame) : Nat := f.header.toNat / 4096
def cellAlive (f : CellFrame) : Nat := f.header.toNat / 256 % 16
def cellCount (f : CellFrame) : Nat := f.header.toNat % 256

/-- The frame is a READ or a WRITE by its framing: a COUNT of 0 is framed as a NOP (R398). -/
def cellMoves (f : CellFrame) : Bool := (decide (cellOp f = 1) || decide (cellOp f = 2)) && decide (cellCount f ≠ 0)

/-- E, the expected edge count (R398). -/
def cellEdges (f : CellFrame) : Nat := if cellMoves f then 4 * cellCount f + 24 else 24

/-- 16-bit words as bytes, most significant first (R398). -/
def wordBytes (l : List Nat) : List Byte := l.flatMap (fun w => [BitVec.ofNat 8 (w / 256), BitVec.ofNat 8 w])

/-- The words of a request before its CRC (R398). -/
def cellRequest (f : CellFrame) : List Nat :=
  [f.header.toNat, f.addr.toNat] ++ (if cellMoves f && decide (cellOp f = 2) then f.data.map BitVec.toNat else [])

/-- The request fails its CRC, its alive check (R398, R400). -/
def cellCrcBad (f : CellFrame) : Bool := decide (f.crc.toNat ≠ crc16 (wordBytes (cellRequest f)))
def State.cellAliveBad (s : State) (f : CellFrame) : Bool :=
  !s.ser.anyAlive && !s.flag Reg.CP_STATUS_LOST && decide (cellAlive f ≠ s.fld Reg.CP_STATUS_NEXT_ALIVE)

/-- The flags TRUNCATED, LENGTH_ERR, CRC_ERR, ALIVE_ERR of a frame; a truncated one is checked no further (R399, R400). -/
def State.cellErrors (s : State) (f : CellFrame) : Nat :=
  if f.edges.toNat % 4 ≠ 0 then 1
  else 2 * b2n (decide (f.edges.toNat ≠ cellEdges f)) + 4 * b2n (cellCrcBad f) + 8 * b2n (s.cellAliveBad f)

/-- BEYOND_END and REFUSED of a valid frame (R398, R402, R403). -/
def State.cellRefusal (s : State) (f : CellFrame) : Nat :=
  let a := f.addr.toNat
  let n := cellCount f
  if !cellMoves f then 64 * b2n (decide (cellOp f ≠ 0) || decide (n ≠ 0))
  else if cellOp f = 1 then
    match cellBlock a with
    | some b => 32 * b2n (decide (b.1 + b.2 < a + n))
    | none => 0
  else
    match cellBlock a with
    | none => 32 + 64
    | some b =>
      if b.1 + b.2 < a + n then 32 + 64
      else 64 * b2n (decide (b.1 ≠ 0x400) || bitOf s.fuse.oem.protMap 14)

/-- The reply words as sent: in each place repeated, the word sent before it (R401). -/
def sendWords (repeats : List Nat) : Nat → Nat → List Nat → List Nat
  | _, _, [] => []
  | last, k, w :: l =>
    let x := if repeats.contains k then last else w
    x :: sendWords repeats x (k + 1) l

/-- The reply of a frame: STATUS for the previous one, read data where the request's CRC and ALIVE hold, CRC (R398,
R399, R401). -/
def State.cellReply (s : State) (f : CellFrame) : List Nat :=
  let st := s.ser.flags + 256 * s.fld Reg.CP_STATUS_LOST + 4096 * s.fld Reg.CP_STATUS_NEXT_ALIVE
  let d := if !cellCrcBad f && !s.cellAliveBad f && cellMoves f && decide (cellOp f = 1) then s.cellWords f.addr.toNat (cellCount f) else []
  let r := f.repeats.map BitVec.toNat
  let body := sendWords r (s.ser.reply.getLastD 0) 0 (st :: d)
  let all := body ++ sendWords r (body.getLastD 0) body.length [crc16 (wordBytes body)]
  let request := if cellMoves f && decide (cellOp f = 2) then cellCount f + 3 else 3
  all.take (f.edges.toNat / 4 - (request + 1))

/-- The sites that a WRITE to DECKLE_REQ names (R403). -/
def reqSites (f : CellFrame) : List Nat :=
  let w := f.data.map BitVec.toNat
  (List.range (min (cellCount f) w.length)).flatMap (fun i =>
    (setBits (w.getD i 0) 16).map (fun j => 16 * (f.addr.toNat - 0x400 + i) + j))

/-- Cause 4 is asserted for a site (R403). -/
def State.closeRequest (s : State) (site : Nat) : State :=
  match s.siteOf site with
  | some (b, x) => s.assertCause b x.position 4
  | none => s

/-- CP_SEL_N rises at the end of a frame: its checks, its counts, its effect, and what the next STATUS reports (R398 to
R404). -/
def State.cellFrame (s : State) (f : CellFrame) : State :=
  if !s.cellUp then s
  else
    let e := s.cellErrors f
    let under := 16 * b2n (!f.repeats.isEmpty)
    let s1 := ({ s with ser := { s.ser with reply := s.cellReply f } } : State).bump Reg.CP_UNDERRUNS f.repeats.length
    if e ≠ 0 then
      ({ s1 with ser := { s1.ser with flags := e + under } } : State).bump Reg.CP_IGNORED 1 |>.setFlag Reg.CP_STATUS_FRAME_ERR true
    else
      let r := s.cellRefusal f
      let isWrite := decide (cellOp f = 2)
      let accepted := !isWrite || decide (r < 64)
      let s2 := { s1 with ser := { s1.ser with flags := under + r + 128 * b2n accepted, anyAlive := false, timed := true } }
      let s3 := ((s2.bump Reg.CP_ACCEPTED 1).setFld Reg.CP_STATUS_NEXT_ALIVE (cellAlive f + 1)).setFlag
        Reg.CP_STATUS_LOST false
      if isWrite && accepted && cellMoves f then (reqSites f).foldl State.closeRequest s3 else s3

/-- A NOP frame; a frame of a reserved OP or framed as a NOP; a frame that is not valid or is refused (R398). -/
def doCellNop (f : CellFrame) (s : State) : State :=
  if !cellMoves f || decide (s.cellErrors f ≠ 0) || decide (64 ≤ s.cellRefusal f) then s.cellFrame f else s

/-- A READ frame (R402). -/
def doCellRead (f : CellFrame) (s : State) : State := if cellOp f = 1 then s.cellFrame f else s

/-- A WRITE frame (R402, R403). -/
def doCellWrite (f : CellFrame) (s : State) : State := if cellOp f = 2 then s.cellFrame f else s

/-- ALIVE_TIMEOUT passes without a valid frame: the loss, its event, and cause 5 for every site armed for it (R400). -/
def doAliveLoss (s : State) : State :=
  if !s.ser.timed || decide (s.fld Reg.CP_CTRL_ALIVE_TIMEOUT = 0) || s.flag Reg.CP_STATUS_LOST then s
  else
    let s1 := (((s.setFlag Reg.CP_STATUS_LOST true).setFlag Reg.CP_STATUS_LOSS_SEEN true).bump Reg.CP_LOSSES 1).raise 7 0 0
    let armed := s1.groups.flatMap (fun g => (g.2.positions.filter SitePos.aliveEn).map (fun x => (g.1, x.position)))
    armed.foldl (fun s x => s.assertCause x.1 x.2 5) s1

/-- CP_CTRL has been written: setting ENABLE accepts any ALIVE next; ALIVE_TIMEOUT 0 ends a loss (R400, R405). -/
def State.cpCtrlWritten (s : State) (was : Bool) : State :=
  let s1 := if !was && s.flag Reg.CP_CTRL_ENABLE then { s with ser := { s.ser with anyAlive := true } } else s
  if s1.fld Reg.CP_CTRL_ALIVE_TIMEOUT = 0 then s1.setFlag Reg.CP_STATUS_LOST false else s1

end Sys2Proof.Machine
end

