-- ==== Sys2Proof/Machine/Mmu.lean ====
section
/-! DEFINITION. The MAP commands, the patrol scrubber, the translation cache and the page requests (spec/14), and what
makes an entry of the image log invalid (R462). -/

namespace Sys2Proof.Machine

open Sys2Proof

/-! ### Image-log entries made invalid (R462) -/

/-- Entries of the image log that satisfy a test become invalid, and SECURITY is raised with INFO 6 for each. -/
def State.spoilImages (s : State) (f : ImageEntry → Bool) : State :=
  let gone := s.sec.log.filter (fun e => f e.2)
  gone.foldl (fun s e =>
    (({ s with sec := { s.sec with log := SMap.del s.sec.log e.1 } } : State).setFlag ⟨Reg.IMAGE_LOG.addr, e.1, 1⟩ false).raise 45 0 6) s

/-- The `n` bytes from `a` of device memory, or of host memory, are written by a copy engine. -/
def State.spoilBytes (s : State) (host : Bool) (a n : Nat) : State :=
  s.spoilImages (fun e => e.runs.any (fun r => decide (r.1 = host) && decide (r.2.1 < a + n) && decide (a < r.2.1 + r.2.2)))

/-- The bytes of `n` from `va` that a copy engine wrote, page by page; the first argument bounds the pages. -/
def spoilPieces : Nat → Nat → Nat → State → State
  | 0, _, _, s => s
  | fuel + 1, va, n, s =>
    if n = 0 then s
    else
      let m := min n (4096 - va % 4096)
      let s1 := match s.translate va true with
        | .dpa a _ => s.spoilBytes false a m
        | .host a _ => s.spoilBytes true a m
        | .fault _ _ => s
      spoilPieces fuel (va + m) (n - m) s1

/-- A copy engine's write at `va`: the write, and the image-log entries it makes invalid. -/
def State.copyWrite (s : State) (x : MemCtx) (va : Nat) (data : List Byte) (poison : Bool) : Acc × State :=
  match s.memWrite x va data poison with
  | (.ok d p, s1) => (.ok d p, spoilPieces (data.length / 4096 + 2) va data.length s1)
  | r => r

/-! ### DTT entries (R303 to R306) -/

/-- Entries of the DTT. -/
def dttSize : Nat := 131072

/-- The regions whose entry range holds index `i`, the enabled one first (R302). -/
def State.regionOf (s : State) (i : Nat) : Option Nat :=
  let holds := fun (r : Nat) => decide (s.fld (Reg.REGION_ENTRY_BASE r) ≤ i) &&
    decide (i < s.fld (Reg.REGION_ENTRY_BASE r) + s.fld (Reg.REGION_ENTRY_COUNT r))
  match (List.range 64).find? (fun r => holds r && s.flag (Reg.REGION_ENABLE r)) with
  | some r => some r
  | none => (List.range 64).find? holds

/-- Bytes of the page of index `i`: of 64 KiB where no region holds it. -/
def State.entryPage (s : State) (i : Nat) : Nat :=
  if (s.regionOf i).any (fun r => s.flag (Reg.REGION_PAGE r)) then 2 ^ 21 else 2 ^ 16

/-- Entry value `e` is a valid pinned HOST entry. -/
def isPinned (e : Nat) : Bool := bitOf e 0 && bitOf e 3 && bitOf e 4

/-- Index `i` is pinned and has not lost its pin (R309, R313). -/
def State.holdsPin (s : State) (i : Nat) : Bool := isPinned (s.dttEntry i) && !s.mem.pinLost.contains i

/-- Ranges reserved in the translation cache: 16 for a pinned page of 64 KiB, 512 for one of 2 MiB (R309). -/
def State.reservedRanges (s : State) : Nat :=
  ((s.mem.dtt.filter (fun e => s.holdsPin e.1)).map (fun e => s.entryPage e.1 / 4096)).foldl (· + ·) 0

/-- PINNED_ATC shows the reservation. -/
def State.showPinned (s : State) : State := s.setFld Reg.MMU_STATUS_PINNED_ATC s.reservedRanges

/-- Index `i` takes the value `v`: its cached ranges go, its PIN_LOST clears, and the image-log entries it maps become
invalid (R307, R313, R462). -/
def State.putEntry (s : State) (i v : Nat) : State :=
  let m := s.mem
  let s1 := { s with mem := { m with
    dtt := SMap.set 0 m.dtt i (BitVec.ofNat 64 v)
    pinLost := m.pinLost.filter (fun j => decide (j ≠ i))
    atc := m.atc.filter (fun r => decide (r.entry ≠ i)) } }
  s1.spoilImages (fun e => e.dtt.contains i)

/-- The accesses that wait on index `i` wait no longer, since it was cleared: each then meets INVALID (R318). -/
def State.freeWaiters (s : State) (i : Nat) : State :=
  let m := s.mem
  { s with mem := { m with
      atsRequests := m.atsRequests.map (fun r => if r.entry = i then { r with waiters := [] } else r)
      groups := m.groups.map (fun g => if g.entry = i then { g with waiters := [] } else g)
      noGroup := m.noGroup.filter (fun r => decide (r.entry ≠ i)) } }

/-- Slot `i` is cleared. -/
def State.clearEntry' (s : State) (i : Nat) : State := (s.putEntry i 0).freeWaiters i

/-- The checks on value `v` for index `i`, without FORCE: 0x7F, else 0x22, else none (R306). -/
def State.entryStatus (s : State) (i v : Nat) : Option Nat :=
  if !bitOf v 0 then (if bitOf (s.dttEntry i) 4 then some 0x7F else none)
  else
    let region := (List.range 64).find? (fun r => s.flag (Reg.REGION_ENABLE r) &&
      decide (s.fld (Reg.REGION_ENTRY_BASE r) ≤ i) &&
      decide (i < s.fld (Reg.REGION_ENTRY_BASE r) + s.fld (Reg.REGION_ENTRY_COUNT r)))
    match region with
    | none => some 0x7F
    | some r =>
      let page := if s.flag (Reg.REGION_PAGE r) then 2 ^ 21 else 2 ^ 16
      let a := entryAddress v
      if bitsOf v 8 8 ≠ 0 ∨ a % page ≠ 0 then some 0x7F
      else if bitOf v 3 then
        (if bitOf v 4 && decide (6144 < (s.putEntry i v).reservedRanges) then some 0x7F else none)
      else if s.usable < a + page ∨ bitsOf v 6 2 ≠ 0 then some 0x7F
      else if !s.ready memUnit then some 0x22
      else none

/-- Index `i` takes a value that has passed its checks. -/
def State.applyEntry (s : State) (i v : Nat) : State := if bitOf v 0 then s.putEntry i v else s.clearEntry' i

/-- Entries from index `i` checked in turn, each applied before the next is checked: how many passed before one of 0x7F
or 0x22 was met, the first such of each kind, and the state with all that passed applied. -/
def applyEntries : Nat → List Nat → State → Nat × Option Nat × State
  | _, [], s => (0, none, s)
  | i, v :: vs, s =>
    match s.entryStatus i v with
    | some st => (0, some st, s)
    | none =>
      let r := applyEntries (i + 1) vs (s.applyEntry i v)
      (r.1 + 1, r.2.1, r.2.2)

/-- The statuses of every entry of a MAP_SET, each checked with those before it applied (R306). -/
def setStatuses : Nat → List Nat → State → List Nat
  | _, [], _ => []
  | i, v :: vs, s => (s.entryStatus i v).toList ++ setStatuses (i + 1) vs (s.applyEntry i v)

/-! ### MAP commands (R305 to R307) -/

/-- Bytes 2 and 3, and every byte not listed, must be zero (R305). -/
def Cmd.mapReserved (c : Cmd) (used : List (Nat × Nat)) : Bool := c.reservedSet used || decide (c.target ≠ 0)

/-- MAP_SET. -/
def doMapSet (c : Cmd) (s : State) : State :=
  let i := c.field 8 4
  let n := c.field 12 1
  let vs := (List.range (min n 6)).map (fun k => c.field (16 + 8 * k) 8)
  let unused := (List.range 6).any (fun k => decide (n ≤ k) && decide (c.field (16 + 8 * k) 8 ≠ 0))
  let bad := c.mapReserved [(8, 4), (12, 1), (16, 48)] || decide (n = 0) || decide (6 < n) || unused || decide (dttSize < i + n)
  s.checked c [(bad, 0x7F)] (fun s =>
    let sts := setStatuses i vs s
    s.checked c [(sts.contains 0x7F, 0x7F), (sts.contains 0x22, 0x22)] (fun s =>
      ((applyEntries i vs s).2.2.showPinned).complete c 0 n))

/-- The table of a MAP_LOAD is read and its entries are applied from index `i`, one by one, `done` of them so far: it stops
at the first entry that fails and at a read that faults (R306). -/
def loadEntries (c : Cmd) (i va : Nat) : Nat → Nat → State → State
  | 0, k, s => s.showPinned.complete c 0 k
  | left + 1, k, s =>
    let r := s.memRead { engine := 9, unit := 0 } (va + 8 * k) 8
    match r.1.failure with
    | some st => r.2.showPinned.complete c st k
    | none =>
      match r.1 with
      | .ok d _ =>
        match r.2.entryStatus (i + k) (leNat d) with
        | some st => r.2.showPinned.complete c st k
        | none => loadEntries c i va left (k + 1) (r.2.applyEntry (i + k) (leNat d))
      | _ => r.2.showPinned.hold c .page

/-- MAP_LOAD: it waits for every page of its table first. -/
def doMapLoad (c : Cmd) (s : State) : State :=
  let i := c.field 8 4
  let n := c.field 12 4
  let va := c.field 16 8
  let bad := c.mapReserved [(8, 4), (12, 4), (16, 8)] || decide (n = 0) || decide (dttSize < n) || decide (dttSize < i + n) ||
    decide (va % 8 ≠ 0) || decide (2 ^ 48 ≤ va)
  s.checked c [(bad, 0x7F)] (fun s =>
    let r := s.preRead { engine := 9, unit := 0 } va (8 * n)
    if r.2.1.waits then (s.keepRequests r.2.2).hold c .page else loadEntries c i va n 0 s)

/-- MAP_CLEAR. -/
def doMapClear (c : Cmd) (s : State) : State :=
  let i := c.field 8 4
  let n := c.field 12 4
  let inRange := fun (e : Nat × BitVec 64) => decide (i ≤ e.1) && decide (e.1 < i + n)
  let pinned := s.mem.dtt.any (fun e => inRange e && bitOf e.2.toNat 4)
  let bad := c.mapReserved [(8, 4), (12, 4), (16, 1)] || decide (n = 0) || decide (dttSize < n) || decide (dttSize < i + n) ||
    decide (1 < c.field 16 1)
  s.checked c [(bad || (pinned && decide (c.field 16 1 = 0)), 0x7F)] (fun s =>
    (((s.mem.dtt.filter inRange).foldl (fun s e => s.clearEntry' e.1) s).showPinned).complete c 0 n)

/-- MAP_READ. -/
def doMapRead (c : Cmd) (s : State) : State :=
  let i := c.field 8 4
  s.checked c [(c.mapReserved [(8, 4)] || decide (dttSize ≤ i), 0x7F)] (fun s =>
    let translated := s.mem.atc.any (fun r => decide (r.entry = i))
    let asked := s.mem.groups.any (fun g => decide (g.entry = i))
    s.complete c 0 (s.dttEntry i + 2 ^ 64 * (b2n translated + 2 * b2n asked + 4 * b2n (s.mem.pinLost.contains i))))

/-! ### Region descriptors (R302) -/

/-- The descriptor `v` may be applied to region `r`. -/
def State.regionFits (s : State) (r v : Nat) : Bool :=
  let base := bitsOf v 0 17
  let count := bitsOf v 17 18
  let overlaps := fun (k : Nat) => decide (k ≠ r) && s.flag (Reg.REGION_ENABLE k) &&
    decide (base < s.fld (Reg.REGION_ENTRY_BASE k) + s.fld (Reg.REGION_ENTRY_COUNT k)) &&
    decide (s.fld (Reg.REGION_ENTRY_BASE k) < base + count) &&
    decide (count ≠ 0) && decide (s.fld (Reg.REGION_ENTRY_COUNT k) ≠ 0)
  let b := s.fld (Reg.REGION_ENTRY_BASE r)
  let used := s.mem.dtt.any (fun e => decide (b ≤ e.1) && decide (e.1 < b + s.fld (Reg.REGION_ENTRY_COUNT r)) && bitOf e.2.toNat 0)
  let same := decide (base = b) && decide (count = s.fld (Reg.REGION_ENTRY_COUNT r)) &&
    decide (bitsOf v 35 1 = s.fld (Reg.REGION_PAGE r))
  decide (base + count ≤ dttSize) && !(List.range 64).any overlaps && (!used || same)

/-! ### The patrol scrubber and host reads (R297, R298, R300) -/

/-- PATROL_SCRUB: `elsewhere` are the errors that have struck other blocks; the next block, struck by `errors`, is read and
decoded. It raises no event for a block that is already poisoned (R297, R300). -/
def doPatrolScrub (errors : List (Fin 68 × BitVec 8)) (elsewhere : List (BitVec 28 × List (Fin 68 × BitVec 8))) (s : State) : State :=
  if s.usable = 0 then s
  else
    let s1 := elsewhere.foldl (fun s x => if x.1.toNat < s.usable / 64 then s.strike x.1.toNat x.2 else s) s
    if !s.flag Reg.SCRUB_CTRL_SCRUB_EN || !s.ready memUnit then s1
    else
      let b := s.mem.scrubBlock % (s.usable / 64)
      let s2 := ({ s1 with mem := { s1.mem with scrubBlock := (b + 1) % (s.usable / 64) } } : State).strike b errors
      let s3 := s2.eccBlock 1 b
      if s2.badBlock b && !SMap.get false s2.mem.poison b then s3.raise 8 0 (64 * b) else s3

/-- HOST_READ_COMPLETION: what a read of a host block delivers from here on (R298, R315). -/
def doHostRead (block : Nat) (r : HostRead) (s : State) : State :=
  let m := s.mem
  match r with
  | .data d ep =>
    { s with mem := { m with
        host := storeCells Config.hostByte m.host (64 * block) (leBytes d.toNat 64)
        hostPoison := if ep then SMap.put m.hostPoison block true else SMap.del m.hostPoison block
        hostError := SMap.del m.hostError block } }
  | .refused => { s with mem := { m with hostError := SMap.put m.hostError block true } }

/-! ### Translation Requests and page requests (R309 to R313) -/

/-- Page request groups that may be outstanding (R310). -/
def State.maxGroups (s : State) : Nat := min 512 s.hi.priAllocation

/-- PR_OUTSTANDING shows the groups outstanding. -/
def State.showGroups (s : State) : State := s.setFld Reg.MMU_STATUS_PR_OUTSTANDING s.mem.groups.length

/-- A waiting access faults with kind `k`: the fault is raised now, and its engine sees it when it next looks (R311). -/
def State.decide' (s : State) (entry k : Nat) (w : Waiter) : State :=
  let s1 := s.logFault { engine := w.engine, unit := w.unit } w.va k (some entry) w.write
  { s1 with mem := { s1.mem with decided := s1.mem.decided ++ [(w, k)] } }

/-- Pages of an access that are not present and in no group. -/
def State.pagesNeeded (s : State) (w : Waiter) : List Nat :=
  w.pages.filter (fun p => (s.cachedRange (4096 * p) w.write).isNone && !s.mem.groups.any (fun g => g.pages.contains p))

/-- A demand access whose page is not present asks for it (R310, R311): it joins a group that has the page, sends one, or
waits for one to be free. -/
def State.sendGroup (s : State) (entry base : Nat) (w : Waiter) : State :=
  let has := fun (g : PageGroup) => w.pages.head?.any g.pages.contains
  if !s.hi.priEnable || s.mem.priUnavailable then s.decide' entry 5 w
  else if s.mem.groups.any has then
    let gs := s.mem.groups.map (fun g => if has g then { g with waiters := joinWaiter w g.waiters } else g)
    { s with mem := { s.mem with groups := gs } }
  else if s.maxGroups ≤ s.mem.groups.length then
    { s with mem := { s.mem with noGroup := s.mem.noGroup ++ [{ entry := entry, base := base, waiter := w }] } }
  else
    let used := s.mem.groups.map (fun g => g.index)
    let index := ((List.range 512).find? (fun i => !used.contains i)).getD 0
    let pages := s.pagesNeeded w
    let g : PageGroup := { index := index, entry := entry, base := base, pages := pages, waiters := [w] }
    (({ s with mem := { s.mem with groups := s.mem.groups ++ [g] } } : State).bump Reg.MMU_PAGE_REQUESTS pages.length).showGroups

/-- Accesses that waited for a group take the ones now free, oldest first; the argument bounds them (R310). -/
def takeGroups : Nat → State → State
  | 0, s => s
  | fuel + 1, s =>
    match s.mem.noGroup with
    | [] => s
    | x :: l =>
      if s.maxGroups ≤ s.mem.groups.length && s.hi.priEnable && !s.mem.priUnavailable then s
      else takeGroups fuel ((({ s with mem := { s.mem with noGroup := l } } : State)).sendGroup x.entry x.base x.waiter)

/-- A new Translation Request for a pinned entry, without demand (R313). -/
def State.repin (s : State) (i : Nat) : State :=
  if !s.hi.atsEnable || s.mem.atsRequests.any (fun r => decide (r.entry = i)) then s
  else
    let r : AtsRequest := { entry := i, base := entryAddress (s.dttEntry i), pinned := true, waiters := [] }
    ({ s with mem := { s.mem with atsRequests := s.mem.atsRequests ++ [r] } } : State).bump Reg.MMU_ATS_REQUESTS 1

/-- The device virtual address of the first byte of index `i`. -/
def State.entryVa (s : State) (i : Nat) : Nat :=
  match s.regionOf i with
  | some r => r * 2 ^ 42 + (i - s.fld (Reg.REGION_ENTRY_BASE r)) * s.entryPage i
  | none => 0

/-- A pinned re-translation is refused: PIN_LOST, its fault and its event (R313). -/
def State.losePin (s : State) (i : Nat) : State :=
  (({ s with mem := { s.mem with pinLost := addOnce i s.mem.pinLost } } : State).logFault
    { engine := 9, unit := 0 } (s.entryVa i) 9 (some i) false).showPinned

/-- The cache holds its 8,192 ranges at most: the least recently used range of an unpinned entry goes (R309). -/
def State.trimAtc (s : State) : Nat → State
  | 0 => s
  | fuel + 1 =>
    if s.mem.atc.length ≤ 8192 then s
    else
      match s.mem.atc.reverse.find? (fun r => !s.holdsPin r.entry) with
      | some r => State.trimAtc { s with mem := { s.mem with atc := (s.mem.atc.reverse.erase r).reverse } } fuel
      | none => s

/-- Ranges of a completion for the page of `n` bytes at `base` of entry `i` enter the cache, in place of those they cover. -/
def State.cacheRanges (s : State) (i base n : Nat) (l : List AtsRange) : State :=
  let kept := l.filter (fun r => (r.canRead || r.canWrite) && decide (r.count ≠ 0) && decide (4096 * r.first.val < n))
  let new := kept.map (fun r =>
    ({ entry := i, base := base + 4096 * r.first.val, length := min (4096 * r.count.toNat) (n - 4096 * r.first.val)
       target := r.target.toNat, canRead := r.canRead, canWrite := r.canWrite, untranslated := r.untranslated } : AtcRange))
  let covered := fun (x : AtcRange) => new.any (fun y => decide (x.base < y.base + y.length) && decide (y.base < x.base + x.length))
  ({ s with mem := { s.mem with atc := new ++ s.mem.atc.filter (fun x => !covered x) } } : State).trimAtc new.length

/-- An access whose Translation Request has been answered (R310, R311): it goes on where its page is present with the
permission; after a Success, a page without the permission faults PERMISSION, and a page not present after the third
group faults PR_INVALID; else its page is asked for. -/
def State.answered (s : State) (i base : Nat) (w : Waiter) : State :=
  let a := 4096 * w.pages.headD 0
  if (s.cachedRange a w.write).isSome then s
  else if w.rounds ≠ 0 ∧ (s.cachedRange a (!w.write)).isSome then s.decide' i 2 w
  else if 3 ≤ w.rounds then s.decide' i 3 w
  else s.sendGroup i base w

/-- Index `i` is a valid HOST entry with its page at `base`. -/
def State.entryStands (s : State) (i base : Nat) : Bool :=
  bitOf (s.dttEntry i) 0 && bitOf (s.dttEntry i) 3 && decide (entryAddress (s.dttEntry i) = base)

/-- ATS_COMPLETION for the request of entry `i` (R309, R311, R313, R315). An entry rewritten meanwhile is translated
anew by those that wait (R307). -/
def doAtsCompletion (i : Nat) (a : AtsAnswer) (s : State) : State :=
  match s.mem.atsRequests.find? (fun r => decide (r.entry = i)) with
  | none => s
  | some q =>
    let s1 := { s with mem := { s.mem with atsRequests := s.mem.atsRequests.filter (fun r => decide (r.entry ≠ i)) } }
    if !s1.entryStands i q.base then s1
    else
      match a with
      | .refused =>
        q.waiters.foldl (fun s w => s.decide' i 6 w) (if q.pinned && s1.holdsPin i then s1.losePin i else s1)
      | .ranges l =>
        let n := s1.entryPage i
        let s2 := s1.cacheRanges i q.base n l
        let present := (List.range (n / 4096)).all (fun k => s2.mem.atc.any (fun r =>
          decide (r.base ≤ q.base + 4096 * k) && decide (q.base + 4096 * k < r.base + r.length)))
        let s3 := if q.pinned && s2.holdsPin i && !present then s2.losePin i else s2
        q.waiters.foldl (fun s w => s.answered i q.base w) s3

/-- The group of an index is answered or timed out: it is outstanding no longer, and others take its place (R310). -/
def State.endGroup (s : State) (index : Nat) (k : PageGroup → State → State) : State :=
  match s.mem.groups.find? (fun g => decide (g.index = index)) with
  | none => s
  | some g =>
    let s1 := ({ s with mem := { s.mem with groups := s.mem.groups.filter (fun g => decide (g.index ≠ index)) } } : State)
    let s2 := k g s1
    (takeGroups s2.mem.noGroup.length s2).showGroups

/-- PAGE_REQUEST_RESPONSE (R311). -/
def doPageResponse (index : Nat) (r : PrgResponse) (s : State) : State :=
  s.endGroup index (fun g s =>
    match r with
    | .success =>
      if s.entryStands g.entry g.base then
        g.waiters.foldl (fun s w => s.requestPage { w with rounds := w.rounds + 1 } g.entry g.base) s
      else s
    | .invalid => g.waiters.foldl (fun s w => s.decide' g.entry 3 w) s
    | .failure =>
      g.waiters.foldl (fun s w => s.decide' g.entry 5 w) { s with mem := { s.mem with priUnavailable := true } })

/-- PR_TIMEOUT (R311). -/
def doPrTimeout (index : Nat) (s : State) : State :=
  s.endGroup index (fun g s => g.waiters.foldl (fun s w => s.decide' g.entry 4 w) s)

/-- ATS_INVALIDATE for `pages` pages of 4 KiB from page `base` (R312, R313). -/
def doAtsInvalidate (itag base pages : Nat) (s : State) : State :=
  if !s.hi.atsEnable || s.mem.invalidations.contains itag then s
  else
    let hit := fun (a n : Nat) => decide (a < 4096 * (base + pages)) && decide (4096 * base < a + n)
    let m := s.mem
    let s1 := ({ s with mem := { m with
      atc := m.atc.filter (fun r => !hit r.base r.length), invalidations := m.invalidations ++ [itag] } } : State).bump
      Reg.MMU_INVALIDATIONS 1
    let pinned := m.dtt.filter (fun e => s.holdsPin e.1 && hit (entryAddress e.2.toNat) (s.entryPage e.1))
    pinned.foldl (fun s e => s.repin e.1) s1

/-- INVALIDATION_COMPLETION: every access that used a dropped range has ended (R312). -/
def doInvalidationCompletion (itag : Nat) (s : State) : State :=
  { s with mem := { s.mem with invalidations := s.mem.invalidations.filter (fun i => decide (i ≠ itag)) } }

end Sys2Proof.Machine
end

