-- ==== Sys2Proof/Machine/Ream.lean ====
section
/-! DEFINITION. Ream queues: the ring, commits, configuration and the queue commands (spec/08). -/

namespace Sys2Proof.Machine

open Sys2Proof

/-! ### The ring (R174, R179, R181) -/

def State.queueBase (s : State) (n q : Nat) : Nat := s.afld (Reg.QBASE_BASE n q)
def State.queueSize (s : State) (n q : Nat) : Nat := 2 ^ s.afld (Reg.QCFG_SIZE_LOG2 n q)

/-- COMMIT − READ. -/
def State.queueFill (s : State) (n q : Nat) : Nat := s.fld (Reg.Q_COMMIT n q) - s.fld (Reg.Q_READ n q)

/-- LEVEL follows the fill (R179). -/
def State.showLevel (s : State) (n q : Nat) : State :=
  let wm := s.afld (Reg.QWM_WM_LEVEL n q)
  s.setFlag (Reg.QSTATUS_LEVEL n q) (decide (wm ≠ 0) && decide (wm ≤ s.queueFill n q))

/-- The bytes of a record from LENGTH on (R171). -/
def Rec.bytes (r : Rec) : List Byte :=
  leBytes r.length 2 ++ leBytes r.typ 1 ++ leBytes r.status 1 ++ leBytes r.site 2 ++ leBytes r.test 2 ++ leBytes r.cellTime 8 ++ r.payload

/-- A PAD record of `len` bytes (R172, R173, R174). -/
def padRecord (q len cellTime : Nat) : Rec :=
  { queue := q, typ := 0, status := 0, site := noSite, test := 0xFFFF, cellTime := cellTime, payload := List.replicate (len - 16) 0 }

/-- The Ream writer's accesses (R319). -/
def reamCtx (n : Nat) : MemCtx := { engine := 2, unit := n }

/-- How a ring write ended: done, to be tried again when its page has come, or faulted. -/
inductive Wrote where
  | done
  | wait
  | fault (kind : Nat)
  deriving DecidableEq, Repr

/-- The mark is lost once the writer has written the byte at `pos`, at or beyond MARK + SIZE (R181). -/
def State.checkMark (s : State) (n q pos : Nat) : State :=
  if s.flag (Reg.QSTATUS_MARK_VALID n q) && decide (s.fld (Reg.Q_MARK n q) + s.queueSize n q ≤ pos) then
    ((s.setFlag (Reg.QSTATUS_MARK_VALID n q) false).setFlag (Reg.QSTATUS_MARK_LOST n q) true).modSeq n
      (fun x => { x with overtaken := addOnce q x.overtaken })
  else s

/-- Bytes written into the ring at position `pos`, within one page; the mark follows what has been written (R181). -/
def State.ringPiece (s : State) (n q pos : Nat) (d : List Byte) : Wrote × State :=
  if d.isEmpty then (.done, s)
  else
    match s.memWrite (reamCtx n) (s.queueBase n q + pos % s.queueSize n q) d false with
    | (.wait, s1) => (.wait, s1)
    | (.fault k, s1) => (.fault k, s1)
    | (_, s1) => (.done, s1.checkMark n q (pos + d.length - 1))

/-- Bytes written into the ring at position `pos`, not crossing its end: page by page, so that those before a page that waits or
faults stand (R174, R181, R304). -/
def State.ringWrite (s : State) (n q pos : Nat) (d : List Byte) : Wrote × State :=
  let k := 4096 - (s.queueBase n q + pos % s.queueSize n q) % 4096
  match s.ringPiece n q pos (d.take k) with
  | (.done, s1) => s1.ringPiece n q (pos + k) (d.drop k)
  | r => r

/-- COMMIT becomes `pos`: the count of records, the watermark and the mark follow (R174, R179, R181). -/
def State.commitTo (s : State) (n q pos : Nat) : State :=
  let wm := s.afld (Reg.QWM_WM_LEVEL n q)
  let before := s.queueFill n q
  let s1 := (s.setFld (Reg.Q_COMMIT n q) pos).bump (Reg.Q_RECORDS n q) 1
  let s2 :=
    if wm ≠ 0 ∧ before < wm ∧ wm ≤ s1.queueFill n q then
      ((s1.setFlag (Reg.QSTATUS_CROSSED n q) true).setFld (Reg.QSTATUS_COUNT n q)
        (min 255 (s1.fld (Reg.QSTATUS_COUNT n q) + 1))).raise 25 n q
    else s1
  s2.showLevel n q

/-- The chain value of a queue takes in a committed record (R464). -/
def State.chainRecord (s : State) (n : Nat) (r : Rec) : State :=
  s.modSeq n (fun q =>
    let c := SMap.get (List.replicate 64 0, 0) q.chains r.queue
    { q with chains := SMap.put q.chains r.queue (Config.shake256 (c.1 ++ r.bytes) 64, c.2 + 1) })

/-- A record is committed at position `pos` in the three steps of R174. -/
def State.commitRecord (s : State) (n : Nat) (r : Rec) (pos : Nat) : Wrote × State :=
  match s.ringWrite n r.queue (pos + 2) (r.bytes.drop 2) with
  | (.done, s1) =>
    match s1.ringWrite n r.queue (pos + r.length) (leBytes 0 2) with
    | (.done, s2) =>
      match s2.ringWrite n r.queue pos (leBytes r.length 2) with
      | (.done, s3) => (.done, s3.commitTo n r.queue (pos + r.length))
      | x => x
    | x => x
  | x => x

/-- Bytes of PAD that a record of `len` bytes needs before it at the queue's COMMIT (R174). -/
def State.padFor (s : State) (n q len : Nat) : Nat :=
  let p := s.fld (Reg.Q_COMMIT n q) % s.queueSize n q
  if s.queueSize n q < p + len then s.queueSize n q - p else 0

/-- The queue has room for a record, its PAD and the guard (R174, R177). -/
def State.hasRoom (s : State) (n : Nat) (r : Rec) : Bool :=
  decide (s.queueFill n r.queue + s.padFor n r.queue r.length + r.length + 16 ≤ s.queueSize n r.queue)

/-! ### Commits (R175, R177, R178) -/

/-- The record of serial number `k` leaves the elastic buffer of sequencer n, and LOSS records take the room. -/
def State.leaveElastic (s : State) (n k : Nat) : State :=
  let s1 := (s.modSeq n (fun q => { q with elastic := q.elastic.filter (fun r => decide (r.serial ≠ k)) })).showElastic n
  s1.reportLosses n

/-- A record that had entered is discarded: its queue was disabled or has faulted (R178). -/
def State.discardEntered (s : State) (n : Nat) (r : Rec) (st : Nat) : State :=
  ((s.bump (Reg.SEQ_DISCARDED n) 1).noteSite r.site st).leaveElastic n r.serial

/-- A queue write has met a fault that no Page Request resolves (R178). -/
def State.faultQueue (s : State) (n q k : Nat) : State :=
  (s.setFlag (Reg.QSTATUS_FAULT n q) true).modSeq n (fun x => { x with faultStatus := SMap.put x.faultStatus q (kindStatus k) })

/-- The record is counted since the snapshot of its program (R183). -/
def State.countSince (s : State) (n pos : Nat) (r : Rec) : State :=
  s.modSeq n (fun q =>
    if isResult r.typ && decide (q.snapSerial ≤ r.serial) then
      { q with
        sinceFirst := if (SMap.find q.sinceCount r.queue).isSome then q.sinceFirst else SMap.put q.sinceFirst r.queue pos
        sinceCount := SMap.put q.sinceCount r.queue (SMap.get 0 q.sinceCount r.queue + 1) }
    else q)

/-- The zero LENGTH at offset 0 of a queue whose configuration is applied (R174). -/
def State.zeroStart (s : State) (n q : Nat) : State :=
  match s.ringWrite n q 0 (leBytes 0 2) with
  | (.done, s1) => s1.modSeq n (fun x => { x with zeroDue := x.zeroDue.filter (fun y => decide (y ≠ q)) })
  | (.wait, s1) => s1.modSeq n (fun x => { x with zeroDue := addOnce q x.zeroDue })
  | (.fault k, s1) => (s1.modSeq n (fun x => { x with zeroDue := x.zeroDue.filter (fun y => decide (y ≠ q)) })).faultQueue n q k

/-- The record of a queue that is to be committed next: the first whose queue has room, is disabled or has faulted, with
none of its own queue before it (R175, R177). -/
def State.nextRecord (s : State) (n : Nat) : List Rec → List Nat → Option Rec
  | [], _ => none
  | r :: l, seen =>
    if !seen.contains r.queue &&
        (s.flag (Reg.QSTATUS_FAULT n r.queue) || decide (s.afld (Reg.QCFG_ENABLE n r.queue) = 0) || s.hasRoom n r) then some r
    else State.nextRecord s n l (r.queue :: seen)

/-- RECORD_COMMIT: the Ream writer of sequencer n commits one record, its PAD before it, or discards it; in an idle state it
keeps its records for the wake (R174, R175, R178, R185). -/
def doRecordCommit (n : Nat) (s0 : State) : State :=
  let s := (s0.seqRec n).zeroDue.foldl (fun s q => s.zeroStart n q) s0
  if s0.fld Reg.PWR_STATUS_STATE ≠ 0 then s0
  else match s.nextRecord n (s.seqRec n).elastic (s.seqRec n).zeroDue with
  | none => s
  | some r =>
    let q := r.queue
    if s.flag (Reg.QSTATUS_FAULT n q) then s.discardEntered n r (SMap.get 0x10 (s.seqRec n).faultStatus q)
    else if s.afld (Reg.QCFG_ENABLE n q) = 0 then s.discardEntered n r 0x01
    else
      let pad := s.padFor n q r.length
      let padded := if pad = 0 then (Wrote.done, s) else s.commitRecord n (padRecord q pad s.now) (s.fld (Reg.Q_COMMIT n q))
      match padded with
      | (.wait, s1) => s1
      | (.fault k, s1) => (s1.faultQueue n q k).discardEntered n r (kindStatus k)
      | (.done, s1) =>
        let pos := s1.fld (Reg.Q_COMMIT n q)
        match s1.commitRecord n r pos with
        | (.wait, s2) => s2
        | (.fault k, s2) => (s2.faultQueue n q k).discardEntered n r (kindStatus k)
        | (.done, s2) => (((s2.chainRecord n r).countSince n pos r).leaveElastic n r.serial)

/-! ### Configuration (R174, R185, R186) -/

/-- The queue's configuration is applied: positions to zero, FAULT clear, a zero LENGTH at offset 0 (R174). -/
def State.applyQueue (s : State) (n q : Nat) : State :=
  (((((((s.setFld (Reg.Q_COMMIT n q) 0).setFld (Reg.Q_READ n q) 0).setFld (Reg.Q_MARK n q) 0).setFlag (Reg.QSTATUS_MARK_VALID n q)
    false).setFlag (Reg.QSTATUS_FAULT n q) false).modSeq n (fun x =>
    { x with faultStatus := SMap.del x.faultStatus q, overtaken := x.overtaken.filter (fun y => decide (y ≠ q)) })).zeroStart n
    q).showLevel n q

/-- The written BASE and SIZE_LOG2 of a queue are valid; so is its WM_LEVEL, against the size that then is in force (R186). -/
def State.baseValid (s : State) (n q : Nat) : Bool := decide (s.fld (Reg.QBASE_BASE n q) % 4096 = 0)
def State.sizeValid (s : State) (n q : Nat) : Bool :=
  decide (12 ≤ s.fld (Reg.QCFG_SIZE_LOG2 n q)) && decide (s.fld (Reg.QCFG_SIZE_LOG2 n q) ≤ 30)
def State.levelValid (s : State) (n q : Nat) : Bool :=
  let k := if s.sizeValid n q then s.fld (Reg.QCFG_SIZE_LOG2 n q) else s.afld (Reg.QCFG_SIZE_LOG2 n q)
  decide (s.fld (Reg.QWM_WM_LEVEL n q) % 16 = 0) && decide (s.fld (Reg.QWM_WM_LEVEL n q) < 2 ^ k)

/-- The written configuration of a queue is put in force, each field that is valid; one that is not sets CFG_ERR. A new BASE or
SIZE_LOG2, or ENABLE from 0 to 1, applies the configuration (R174, R186). -/
def State.takeQueue (s : State) (n q : Nat) : State :=
  let s0 := s.modSeq n (fun x => { x with heldQueues := x.heldQueues.filter (fun y => decide (y ≠ q)) })
  let fresh := (s.baseValid n q && decide (s.afld (Reg.QBASE_BASE n q) ≠ s.fld (Reg.QBASE_BASE n q))) ||
    (s.sizeValid n q && decide (s.afld (Reg.QCFG_SIZE_LOG2 n q) ≠ s.fld (Reg.QCFG_SIZE_LOG2 n q))) ||
    (decide (s.afld (Reg.QCFG_ENABLE n q) = 0) && s.flag (Reg.QCFG_ENABLE n q))
  let s1 := (s0.setFlag (Reg.QSTATUS_CFG_ERR n q) (!s.baseValid n q || !s.sizeValid n q || !s.levelValid n q)).applyFlds
    ((if s.baseValid n q then [Reg.QBASE_BASE n q] else []) ++ (if s.sizeValid n q then [Reg.QCFG_SIZE_LOG2 n q] else []) ++
      [Reg.QCFG_ENABLE n q] ++ (if s.levelValid n q then [Reg.QWM_WM_LEVEL n q] else []))
  if fresh then s1.applyQueue n q else s1.showLevel n q

/-- The ring as written is another than the one in force, and a DMA transfer reads that: the write waits for the transfer (R336). -/
def State.ringWaits (s : State) (n q : Nat) : Bool :=
  s.dmaReads (.ream n q) && (decide (s.afld (Reg.QBASE_BASE n q) ≠ s.fld (Reg.QBASE_BASE n q)) ||
    decide (s.afld (Reg.QCFG_SIZE_LOG2 n q) ≠ s.fld (Reg.QCFG_SIZE_LOG2 n q)) ||
    decide (s.afld (Reg.QCFG_ENABLE n q) ≠ s.fld (Reg.QCFG_ENABLE n q)))

/-- A write to QBASE, QCFG or QWM of a queue: held while a program runs on the sequencer, or a DMA transfer reads the ring (R185,
R336). -/
def State.queueWritten (s : State) (n q : Nat) : State :=
  if s.runs n || s.ringWaits n q then s.modSeq n (fun x => { x with heldQueues := addOnce q x.heldQueues }) else s.takeQueue n q

/-- The MEAS_LIM pairs of sequencer n are put in force (R127). -/
def State.takeLimits (s : State) (n : Nat) : State :=
  (s.modSeq n (fun x => { x with heldLims := false })).applyFlds
    ((List.range 4).flatMap (fun k => [Reg.MEAS_LIM_LO n k, Reg.MEAS_LIM_HI n k]))

/-- A write to a MEAS_LIM register: held while a program runs on the sequencer's group (R53, R127). -/
def State.limitsWritten (s : State) (n : Nat) : State :=
  if s.runs n then s.modSeq n (fun x => { x with heldLims := true }) else s.takeLimits n

/-- The writes that sequencer n holds are put in force: no program runs on it. One that a DMA transfer holds back waits on (R53, R185,
R336). -/
def State.releaseSeq (s : State) (n : Nat) : State :=
  let q := s.seqRec n
  let s1 := if q.heldLims then s.takeLimits n else s
  (q.heldQueues.filter (fun k => !s1.ringWaits n k)).foldl (fun s k => s.takeQueue n k) s1

/-- Writing 1 to CROSSED clears CROSSED and COUNT (R179). -/
def State.clearCrossed (s : State) (n q : Nat) : State :=
  (s.setFlag (Reg.QSTATUS_CROSSED n q) false).setFld (Reg.QSTATUS_COUNT n q) 0

/-! ### Queue commands (R180) -/

/-- The queue a command names. -/
def Cmd.queueOf (c : Cmd) : Nat := c.field 8 1 % 8

/-- The checks of a queue command: reserved bytes and bits, then its sequencer and that sequencer's cluster, which is not ready
while it relocks (R15, R75, R180, R473). -/
def State.queueChecked (s : State) (c : Cmd) (used : List (Nat × Nat)) (bad : Bool) (k : State → State) : State :=
  s.checked c ((c.reservedSet ((8, 1) :: used) || decide (8 ≤ c.field 8 1) || decide (64 ≤ c.target) || bad, 0x7F) ::
    s.unitChecks [seqUnit c.target, c.target / 2]) k

/-- REAM_MARK (R180). -/
def doReamMark (c : Cmd) (s : State) : State :=
  let n := c.target
  let q := c.queueOf
  s.queueChecked c [] false (fun s =>
    let r := s.fld (Reg.Q_READ n q)
    (((s.setFld (Reg.Q_MARK n q) r).setFlag (Reg.QSTATUS_MARK_VALID n q) true).modSeq n (fun x =>
      { x with overtaken := x.overtaken.filter (fun y => decide (y ≠ q)) })).complete c 0 r)

/-- The effect of REAM_REWIND once no transfer reads the queue (R180, R181). -/
def State.rewind (s : State) (c : Cmd) : State :=
  let n := c.target
  let q := c.queueOf
  if s.flag (Reg.QSTATUS_MARK_VALID n q) then
    let m := s.fld (Reg.Q_MARK n q)
    ((s.setFld (Reg.Q_READ n q) m).showLevel n q).complete c 0 m
  else s.complete c 0 (s.fld (Reg.Q_READ n q) + 2 ^ 64 * (if (s.seqRec n).overtaken.contains q then 1 else 2))

/-- REAM_RELEASE (R180). -/
def doReamRelease (c : Cmd) (s : State) : State :=
  let n := c.target
  let q := c.queueOf
  let r := c.field 16 8
  let bad := decide (r % 16 ≠ 0) || decide (r < s.fld (Reg.Q_READ n q)) || decide (s.fld (Reg.Q_COMMIT n q) < r)
  s.queueChecked c [(16, 8)] bad (fun s => ((s.setFld (Reg.Q_READ n q) r).showLevel n q).complete c 0 r)

/-- REAM_RESET: once no program runs on the sequencer, the queue's buffered records are discarded and its configuration
is applied (R180). -/
def doReamReset (c : Cmd) (s : State) : State :=
  let n := c.target
  let q := c.queueOf
  s.queueChecked c [] false (fun s =>
    if s.runs n then s.hold c (.program [n])
    else
      let s1 := (s.modSeq n (fun x => { x with elastic := x.elastic.filter (fun r => decide (r.queue ≠ q)) })).showElastic n |>.reportLosses n
      (s1.applyQueue n q).complete c 0 0)

end Sys2Proof.Machine
end

