-- ==== Sys2Proof/Machine/Dma.lean ====
section
/-! DEFINITION. The DMA engines: commands, chunks, poison, parking, suspension, classes and pre-emption (spec/15). -/

namespace Sys2Proof.Machine

open Sys2Proof

/-! ### The engines as data -/

/-- Engine e's record, and the record changed. -/
def State.dmaRec (s : State) (e : Nat) : DmaEngine := SMap.get {} s.dma.engines e
def State.modDma (s : State) (e : Nat) (f : DmaEngine → DmaEngine) : State :=
  { s with dma := { s.dma with engines := SMap.put s.dma.engines e (f (s.dmaRec e)) } }

/-- The held transfer of an order number, changed. -/
def State.modTransfer (s : State) (e k : Nat) (f : Transfer → Transfer) : State :=
  s.modDma e (fun d => { d with held := d.held.map (fun t => if t.order = k then f t else t) })

/-- Effective class of a held transfer (R331). -/
def Transfer.effective (t : Transfer) : Nat := min 3 (t.cls + t.age)

/-- DMA_STATUS of engine e follows its record (R337). -/
def State.showDma (s : State) (e : Nat) : State :=
  let d := s.dmaRec e
  let run := d.held.find? (fun t => t.running)
  (((s.setFld (Reg.DMA_STATUS_HELD e) d.held.length).setFlag (Reg.DMA_STATUS_RUNNING e) run.isSome).setFld (Reg.DMA_STATUS_CLASS e)
    (run.elim 0 Transfer.effective)).setFld (Reg.DMA_STATUS_SLOTS e) (ofBits (d.slots.map (fun x => x.1)))

/-- RESULT of a DMA command (R321): `fault` is FAULT_VA with FAULT_KIND, `slot` the slot of a suspension. -/
def dmaResult (done : Nat) (fault : Option (Nat × Nat)) (slot : Option Nat) (poisoned preemptions : Nat) : Nat :=
  done % 2 ^ 64 + (match fault with | some f => f.1 % 2 ^ 48 * 2 ^ 64 + f.2 * 2 ^ 112 | none => 0xFF * 2 ^ 112) +
  (slot.elim 0 (fun k => 1 + 2 * k)) * 2 ^ 120 + min poisoned (2 ^ 32 - 1) * 2 ^ 128 + min preemptions (2 ^ 32 - 1) * 2 ^ 160

/-- A transfer leaves engine e and completes with a status (R321, R324). -/
def State.endTransfer (s : State) (e : Nat) (t : Transfer) (st : Nat) (fault : Option (Nat × Nat)) (slot : Option Nat) : State :=
  let s1 := s.modDma e (fun d => { d with held := d.held.filter (fun x => decide (x.order ≠ t.order)) })
  s1.complete t.cmd st (dmaResult t.done fault slot t.poisoned t.preemptions)

/-- A transfer is suspended at its chunk for fault kind `k` at `va`, in the lowest free slot (R327). -/
def State.suspend (s : State) (e : Nat) (t : Transfer) (va k : Nat) : State :=
  let d := s.dmaRec e
  match (List.range 16).find? (fun i => (SMap.find d.slots i).isNone) with
  | none => s.endTransfer e t (kindStatus k) (some (va, k)) none
  | some i =>
    let kept := { t with running := false, parked := none, age := 0 }
    let s1 := s.modDma e (fun d => { d with slots := SMap.put d.slots i kept, emptied := d.emptied.filter (fun j => decide (j ≠ i)) })
    ((s1.endTransfer e t (kindStatus k) (some (va, k)) (some i)).bump (Reg.DMA_SUSPENSIONS e) 1).raise 11 e i

/-! ### Which transfer runs (R323, R331, R332) -/

/-- A transfer may run. -/
def Transfer.eligible (t : Transfer) : Bool := t.parked.isNone && t.fence.isEmpty

/-- The transfer of the highest effective class, the earliest fetched of those. -/
def bestTransfer : List Transfer → Option Transfer
  | [] => none
  | t :: l =>
    match bestTransfer l with
    | none => if t.eligible then some t else none
    | some u => if t.eligible && decide (u.effective ≤ t.effective) then some t else some u

/-- The ring of a source has an applied configuration: one other than that of reset, or a position beyond 0. -/
def State.ringApplied (s : State) (x : DmaSource) : Bool :=
  let differs := fun (a : Nat) => decide (s.appliedQuad a ≠ quadReset s.fuse a)
  match x with
  | .ream n q => differs (Reg.QBASE_BASE n q).addr || differs (Reg.QCFG_SIZE_LOG2 n q).addr || decide (s.fld (Reg.Q_COMMIT n q) ≠ 0)
  | .digitizer c => differs (Reg.DATA_RING_DATA_BASE c).addr || decide (s.fld (Reg.DG_WRITE c) ≠ 0)
  | _ => true

/-- Position a DMA_RING reads from, and the bytes it captures, at most `max` (R323). -/
def State.ringSpan (s : State) (x : DmaSource) (max : Nat) : Nat × Nat :=
  match x with
  | .ream n q =>
    let l := min max (s.fld (Reg.Q_COMMIT n q) - s.fld (Reg.Q_READ n q))
    (s.fld (Reg.Q_READ n q), l - l % 16)
  | .digitizer c =>
    let l := min max (s.fld (Reg.DG_WRITE c) - s.fld (Reg.DG_RELEASE c))
    (s.fld (Reg.DG_RELEASE c), l - l % 4)
  | _ => (0, max)

/-- A transfer that may run is made the running one; its first start captures a ring's length (R323), and one without a
configured ring or without a byte to move completes at once. -/
def State.startTransfer (s : State) (e : Nat) (t : Transfer) : State :=
  if t.started then s.modTransfer e t.order (fun t => { t with running := true, age := 0 })
  else
    let r := s.ringSpan t.source t.length
    if !s.ringApplied t.source then s.endTransfer e t 0x7F none none
    else if r.2 = 0 then s.endTransfer e t 0 none none
    else s.modTransfer e t.order (fun t =>
      { t with running := true, age := 0, started := true, origin := r.1, length := r.2 })

/-- At a chunk boundary, or idle, engine e takes up the transfer that is to run, and chooses again only where that one ends
as it starts; the first argument bounds those (R331, R332). -/
def pickTransfer : Nat → Nat → State → State
  | 0, _, s => s
  | fuel + 1, e, s =>
    let d := s.dmaRec e
    match bestTransfer d.held with
    | none => s
    | some t =>
      if t.running then s
      else
        let s1 := match d.held.find? (fun x => x.running) with
          | none => s
          | some u => (s.modTransfer e u.order (fun u => { u with running := false, preemptions := u.preemptions + 1 })).bump
              (Reg.DMA_PREEMPTIONS e) 1
        let s2 := s1.startTransfer e t
        if (s2.dmaRec e).held.any (fun x => x.running) then s2 else pickTransfer fuel e s2

/-- Engine e chooses, and DMA_STATUS follows. -/
def State.dmaSchedule (s : State) (e : Nat) : State := (pickTransfer (s.dmaRec e).held.length e s).showDma e

/-- A new transfer, or one that waited, finds its engine: it runs at once where nothing runs (R331). -/
def State.dmaArrive (s : State) (e : Nat) : State :=
  if (s.dmaRec e).held.any (fun t => t.running) then s.showDma e else s.dmaSchedule e

/-! ### Chunks (R322, R325, R326) -/

/-- The address segments of `n` bytes of a source from byte `off` of the transfer, divided at the end of a ring. -/
def State.dmaSegments (s : State) (t : Transfer) (off n : Nat) : List (Nat × Nat) :=
  let ring := fun (base size : Nat) =>
    let p := (t.origin + off) % size
    if p + n ≤ size then [(base + p, n)] else [(base + p, size - p), (base, n - (size - p))]
  match t.source with
  | .copy va => [(va + off, n)]
  | .ream k q => ring (s.afld (Reg.QBASE_BASE k q)) (2 ^ s.afld (Reg.QCFG_SIZE_LOG2 k q))
  | .digitizer c => ring (s.afld (Reg.DATA_RING_DATA_BASE c)) (2 ^ s.afld (Reg.DATA_RING_DATA_LOG2 c))
  | .fill _ => []

/-- The block that holds `va` is poisoned where it lies. -/
def State.poisonAt (s : State) (va : Nat) : Bool :=
  match s.translate va false with
  | .dpa a _ => s.badBlock (a / 64)
  | .host a _ => SMap.get false s.mem.hostPoison (a / 64)
  | .fault _ _ => false

/-- Poisoned 64-byte blocks among the first `n` bytes of segments. -/
def State.poisonedIn (s : State) : List (Nat × Nat) → Nat → Nat
  | [], _ => 0
  | (va, m) :: l, n => ((blocksOf va (min m n)).filter (fun b => s.poisonAt (64 * b))).length + State.poisonedIn s l (n - m)

/-- What an access of a chunk meets. -/
inductive DmaGot where
  | ok (data : List Byte) (poison : Option (Nat × Nat))
  | fault (va kind before : Nat)
  | wait (va : Nat)
  deriving DecidableEq, Repr

/-- The bytes of a segment, read 4 KiB page by page; `got` are those before it. -/
def dmaRead : Nat → MemCtx → Nat → Nat → List Byte → Option (Nat × Nat) → State → DmaGot × State
  | 0, _, _, _, got, p, s => (.ok got p, s)
  | fuel + 1, x, va, n, got, p, s =>
    if n = 0 then (.ok got p, s)
    else
      let m := min n (4096 - va % 4096)
      match s.readPiece x va m (s.goesOn va n) with
      | (.ok d k, s1) => dmaRead fuel x (va + m) (n - m) (got ++ d) (p.orElse (fun _ => k.map (fun k => (va, k)))) s1
      | (.fault k, s1) => (.fault va k got.length, s1)
      | (_, s1) => (.wait va, s1)

/-- The bytes of every segment. -/
def dmaGather : MemCtx → List (Nat × Nat) → List Byte → Option (Nat × Nat) → State → DmaGot × State
  | _, [], got, p, s => (.ok got p, s)
  | x, (va, n) :: l, got, p, s =>
    match dmaRead (n / 4096 + 2) x va n got p s with
    | (.ok d q, s1) => dmaGather x l d q s1
    | r => r

/-- Bytes written at `va`, 4 KiB page by page, `total` of the chunk's still to come from here. -/
def dmaWrite : Nat → MemCtx → Nat → List Byte → Bool → Nat → State → DmaGot × State
  | 0, _, _, _, _, _, s => (.ok [] none, s)
  | fuel + 1, x, va, data, p, total, s =>
    if data.isEmpty then (.ok [] none, s)
    else
      let m := min data.length (4096 - va % 4096)
      match s.writePiece x va (data.take m) p (s.goesOn va total) with
      | (.ok _ _, s1) => dmaWrite fuel x (va + m) (data.drop m) p (total - m) (spoilPieces 2 va m s1)
      | (.fault k, s1) => (.fault va k 0, s1)
      | (_, s1) => (.wait va, s1)

/-- Runs of bytes of one poison flag. -/
def poisonRuns : List (Byte × Bool) → List (List Byte × Bool)
  | [] => []
  | (b, p) :: l =>
    match poisonRuns l with
    | (d, q) :: r => if p = q then (b :: d, q) :: r else ([b], p) :: (d, q) :: r
    | [] => [([b], p)]

/-- Runs written one after another. -/
def dmaWriteRuns : MemCtx → Nat → List (List Byte × Bool) → Nat → State → DmaGot × State
  | _, _, [], _, s => (.ok [] none, s)
  | x, va, (d, p) :: l, total, s =>
    match dmaWrite (d.length / 4096 + 2) x va d p total s with
    | (.ok _ _, s1) => dmaWriteRuns x (va + d.length) l (total - d.length) s1
    | r => r

/-- The poison flag of every byte of segments. -/
def State.poisonFlags (s : State) (l : List (Nat × Nat)) : List Bool :=
  l.flatMap (fun seg => (List.range seg.2).map (fun i => s.poisonAt (64 * ((seg.1 + i) / 64))))

/-- Bytes of a chunk from byte `off` of the transfer: those read, or the pattern (R322). -/
def State.chunkRead (s : State) (x : MemCtx) (t : Transfer) (off n : Nat) : DmaGot × State :=
  match t.source with
  | .fill p => (.ok ((List.range n).map (fun j => BitVec.ofNat 8 (bitsOf p (8 * ((off + j) % 8)) 8))) none, s)
  | _ => dmaGather x (s.dmaSegments t off n) [] none s

/-- The writes of a chunk: poisoned data sets the poison bit of what it covers (R298). -/
def State.chunkWrite (s : State) (x : MemCtx) (t : Transfer) (off : Nat) (data : List Byte) (poison : Bool) : DmaGot × State :=
  let runs := if poison then poisonRuns (data.zip (s.poisonFlags (s.dmaSegments t off data.length))) else [(data, false)]
  dmaWriteRuns x (t.dest + off) runs data.length s

/-- READ or RELEASE of the source ring reaches position `p` (R180, R243, R323). -/
def State.ringAdvance (s : State) (x : DmaSource) (p : Nat) : State :=
  match x with
  | .ream n q => if s.fld (Reg.Q_READ n q) < p then (s.setFld (Reg.Q_READ n q) p).showLevel n q else s
  | .digitizer c => if s.fld (Reg.DG_RELEASE c) < p then (s.setFld (Reg.DG_RELEASE c) p).dgDrain c else s
  | _ => s

/-- Who accesses memory for engine e. -/
def dmaCtx (e : Nat) (t : Transfer) : MemCtx := { engine := 6, unit := e, consumes := t.poisonStop }

/-- A chunk met a fault: after poison the transfer stops with 0x12 (R325), else it is suspended (R327). -/
def State.chunkFault (s : State) (e : Nat) (t : Transfer) (va k : Nat) : State :=
  if t.poisoned ≠ 0 then s.endTransfer e t 0x12 (some (va, k)) none else s.suspend e t va k

/-- A chunk waits on a page: the transfer is parked (R326); one whose time has run out, or that is aborted, stops (R329,
R330). -/
def State.park (s : State) (e : Nat) (t : Transfer) (va : Nat) (write : Bool) : State :=
  if t.expired || t.aborted then
    (s.abandon 6 e).endTransfer e t (first16 (if t.poisoned ≠ 0 then 0x12 else 0) (if t.expired then 0x60 else 0x01)) none none
  else (s.modTransfer e t.order (fun t => { t with running := false, parked := some (va, write) })).bump (Reg.DMA_PAGE_WAITS e) 1

/-- A chunk of `n` bytes is complete (R322): DONE, the ring and the counters advance; the transfer ends where it is whole,
aborted or out of time. -/
def State.chunkDone (s : State) (e : Nat) (t : Transfer) (n : Nat) : State :=
  let u := { t with done := t.done + n }
  let s1 := ((s.modTransfer e t.order (fun _ => u)).bump (Reg.DMA_CHUNKS e) 1).ringAdvance u.source (u.origin + u.done)
  let st := first16 (if u.poisoned ≠ 0 then 0x12 else 0) (if u.expired then 0x60 else if u.aborted then 0x01 else 0)
  if u.expired || u.aborted || decide (u.length ≤ u.done) then s1.endTransfer e u st none none else s1

/-- The running transfer's next chunk completes, parks, faults or meets poison. -/
def State.runChunk (s : State) (e : Nat) (t : Transfer) : State :=
  let n := min 4096 (t.length - t.done)
  let x := dmaCtx e t
  let segs := s.dmaSegments t t.done n
  match s.chunkRead x t t.done n with
  | (.wait va, s1) => s1.park e t va false
  | (.fault va k before, s1) => s1.chunkFault e { t with poisoned := t.poisoned + s1.poisonedIn segs before } va k
  | (.ok data poison, s1) =>
    let u := { t with poisoned := t.poisoned + s1.poisonedIn segs n }
    let s2 := match t.source with
      | .fill _ => s1
      | _ => s1.bump (Reg.DMA_BYTES_READ e) n
    match poison with
    | some f =>
      if t.poisonStop then s2.endTransfer e u 0x12 (some f) none
      else
        match s2.chunkWrite x t t.done data true with
        | (.wait va, s3) => s3.park e t va true
        | (.fault va k _, s3) => s3.chunkFault e u va k
        | (.ok _ _, s3) => (s3.bump (Reg.DMA_BYTES_WRITTEN e) n).chunkDone e u n
    | none =>
      match s2.chunkWrite x t t.done data false with
      | (.wait va, s3) => s3.park e t va true
      | (.fault va k _, s3) => s3.chunkFault e u va k
      | (.ok _ _, s3) => (s3.bump (Reg.DMA_BYTES_WRITTEN e) n).chunkDone e u n

/-- Chunks beyond a faulting one whose writes had landed when they were abandoned (R327). -/
def State.landChunks (s : State) (e : Nat) (t : Transfer) (beyond : List Nat) : State :=
  beyond.foldl (fun s j =>
    let off := t.done + 4096 * (j + 1)
    let n := min 4096 (t.length - off)
    match s.chunkRead (dmaCtx e t) t off n with
    | (.ok data none, _) =>
      match s.chunkWrite (dmaCtx e t) t off data false with
      | (.ok _ _, s2) => s2
      | _ => s
    | _ => s) s

/-- DMA_CHUNK_COMPLETE of engine e: the next chunk of the running transfer. `begun` chunks beyond it have begun, so the
engine finishes them before it chooses again (R322, R332); where the transfer stops, those of `landed` had been written. -/
def doDmaChunk (e begun : Nat) (landed : List Nat) (s : State) : State :=
  match (s.dmaRec e).held.find? (fun t => t.running) with
  | none => s
  | some t =>
    let s1 := s.runChunk e t
    if (s1.dmaRec e).held.any (fun u => decide (u.order = t.order) && u.running) then
      if begun = 0 then s1.dmaSchedule e else s1.showDma e
    else
      let stopped := decide ((s1.dmaRec e).slots ≠ (s.dmaRec e).slots)
      (if stopped then s1.landChunks e t (landed.filter (fun j => decide (j < begun))) else s1).dmaSchedule e

/-- A parked transfer whose page has been decided may run again (R326). -/
def State.unpark (s : State) (e : Nat) : State :=
  let free := fun (t : Transfer) => t.parked.any (fun p => !s.stillWaits { engine := 6, unit := e } p.1 p.2)
  if (s.dmaRec e).held.any free then
    (s.modDma e (fun d => { d with held := d.held.map (fun t => if free t then { t with parked := none } else t) })).dmaArrive e
  else s

/-! ### FENCE (R320) -/

/-- Command `c` has not completed: it is dispatched, waits, or is held by a DMA engine. -/
def State.outstandingDma (s : State) (c : Cmd) : Bool :=
  s.hi.dispatched.contains c || s.held.any (fun h => decide (h.cmd = c)) ||
  s.dma.engines.any (fun e => e.2.held.any (fun t => decide (t.cmd = c)))

/-- Earlier commands of command c's queue that have not completed. -/
def State.earlierDma (s : State) (c : Cmd) : List Cmd :=
  let same := fun (x : Cmd) => decide (x.queue = c.queue) && decide (x ≠ c)
  ((if s.hi.dispatched.contains c then s.hi.dispatched.takeWhile (fun x => decide (x ≠ c)) else []) ++ s.held.map (fun h => h.cmd) ++
    s.dma.engines.flatMap (fun e => e.2.held.map (fun t => t.cmd))).filter same

/-- Fences whose earlier commands have completed open (R320). -/
def State.openFences (s : State) : State :=
  (List.range 8).foldl (fun s e =>
    if (s.dmaRec e).held.any (fun t => !t.fence.isEmpty) then
      (s.modDma e (fun d => { d with held := d.held.map (fun t => { t with fence := t.fence.filter s.outstandingDma }) })).dmaArrive e
    else s) s

/-! ### Commands (R320, R323, R328, R329) -/

/-- The checks of a DMA command, and the engine that takes it: the named one, or the ready one with the fewest held
descriptors (R320, R473). A refused command has the result of R321, of DMA_ABORT none. -/
def State.dmaChecked (s : State) (c : Cmd) (bad : Bool) (refusal : Nat) (k : Nat → State → State) : State :=
  let e := c.target
  let any := decide (e = 0xFFFF)
  let ready := (List.range 8).filter (fun i => s.ready (dmaUnit i))
  let units := if any then
      [((List.range 8).all (fun i => !s.present (dmaUnit i)) || !s.present memUnit, 0x21), (ready.isEmpty || !s.ready memUnit, 0x22)]
    else s.unitChecks [dmaUnit e, memUnit]
  match firstFailing ((bad || decide (4 ≤ c.flags) || (!any && decide (8 ≤ e)), 0x7F) :: units) with
  | some st => s.complete c st refusal
  | none =>
    let fewest := ready.foldl (fun b i =>
      if (s.dmaRec i).held.length < (s.dmaRec b).held.length then i else b) (ready.headD 0)
    k (if any then fewest else e) s

/-- RESULT of a refused transfer command. -/
def dmaRefusal : Nat := dmaResult 0 none none 0 0

/-- A transfer joins engine e (R331). -/
def State.holdTransfer (s : State) (e : Nat) (t : Transfer) : State :=
  let k := s.dma.fetched
  let s1 := { s with dma := { s.dma with fetched := k + 1 } }
  (s1.modDma e (fun d => { d with held := d.held ++ [{ t with order := k }] })).dmaArrive e

/-- The transfer a command describes, with the commands its FENCE waits for. -/
def Cmd.transfer (c : Cmd) (src : DmaSource) (fence : List Cmd) : Transfer :=
  { cmd := c, order := 0, source := src, dest := c.field 16 8, length := c.field 24 8, cls := c.priority
    poisonStop := bitOf c.flags 1, limit := c.field 32 8, fence := if bitOf c.flags 0 then fence else [] }

/-- The length of DMA_COPY and DMA_FILL is not from 1 to 2^40. -/
def Cmd.badLength (c : Cmd) : Bool := decide (c.field 24 8 = 0) || decide (2 ^ 40 < c.field 24 8)

/-- FLAGS is byte 1, defined here. -/
def dmaFlags : Nat × Nat := (1, 1)

/-- DMA_COPY. -/
def doDmaCopy (earlier : List Cmd) (c : Cmd) (s : State) : State :=
  let bad := c.reservedSet [dmaFlags, (8, 8), (16, 8), (24, 8), (32, 8)] || c.badLength || decide (2 ^ 48 ≤ c.field 8 8) ||
    decide (2 ^ 48 ≤ c.field 16 8)
  s.dmaChecked c bad dmaRefusal (fun e s => s.holdTransfer e (c.transfer (.copy (c.field 8 8)) earlier))

/-- DMA_FILL. -/
def doDmaFill (earlier : List Cmd) (c : Cmd) (s : State) : State :=
  let bad := c.reservedSet [dmaFlags, (8, 8), (16, 8), (24, 8), (32, 8)] || c.badLength || decide (2 ^ 48 ≤ c.field 16 8)
  s.dmaChecked c bad dmaRefusal (fun e s => s.holdTransfer e (c.transfer (.fill (c.field 8 8)) earlier))

/-- DMA_RING. -/
def doDmaRing (earlier : List Cmd) (c : Cmd) (s : State) : State :=
  let kind := c.field 8 1
  let n := c.field 10 2
  let src := if kind = 0 then DmaSource.ream n (c.field 9 1 % 8) else DmaSource.digitizer n
  let absent := if kind = 0 then decide (64 ≤ n) || !s.present (seqUnit n) else decide (32 ≤ n) || !s.present n
  let bad := c.reservedSet [dmaFlags, (8, 1), (9, 1), (10, 2), (16, 8), (24, 8), (32, 8)] || decide (1 < kind) ||
    decide (8 ≤ c.field 9 1) || absent || decide (2 ^ 48 ≤ c.field 16 8) || !s.ringApplied src
  s.dmaChecked c bad dmaRefusal (fun e s => s.holdTransfer e (c.transfer src earlier))

/-- DMA_RESUME (R328, R330, R336). -/
def doDmaResume (earlier : List Cmd) (c : Cmd) (s : State) : State :=
  let k := c.field 8 1
  let d := s.dmaRec c.target
  let free := (SMap.find d.slots k).isNone && !d.emptied.contains k
  let bad := c.reservedSet [dmaFlags, (8, 1)] || decide (16 ≤ k) || decide (c.target = 0xFFFF) || free
  s.dmaChecked c bad dmaRefusal (fun e s =>
    match SMap.find d.slots k with
    | none => (s.modDma e (fun d => { d with emptied := d.emptied.filter (fun j => decide (j ≠ k)) })).complete c 0x20 dmaRefusal
    | some t =>
      let u := { t with cmd := c, fence := if bitOf c.flags 0 then earlier else [] }
      let s1 := s.modDma e (fun d => { d with slots := SMap.del d.slots k })
      if t.expired then
        (s1.complete c 0x60 (dmaResult t.done none none t.poisoned t.preemptions)).showDma e
      else s1.holdTransfer e u)

/-- The slot of a suspended transfer of a queue and tag on engine e. -/
def State.slotOf (s : State) (e queue tag : Nat) : Option Nat :=
  ((s.dmaRec e).slots.find? (fun x => decide (x.2.cmd.queue = queue) && decide (x.2.cmd.tag = tag))).map (fun x => x.1)

/-- The held transfers of a queue and tag on engine e. -/
def State.heldOf (s : State) (e queue tag : Nat) : List (Nat × Transfer) :=
  ((s.dmaRec e).held.filter (fun t => decide (t.cmd.queue = queue) && decide (t.cmd.tag = tag))).map (fun t => (e, t))

/-- A held transfer is aborted: the running one at its next chunk boundary, another at once (R329, R336). -/
def State.abortTransfer (s : State) (e : Nat) (t : Transfer) : State :=
  if t.running then s.modTransfer e t.order (fun t => { t with aborted := true })
  else
    let s1 := if t.parked.isSome then s.abandon 6 e else s
    ((s1.endTransfer e t (first16 (if t.poisoned ≠ 0 then 0x12 else 0) 0x01) none none).unpark e).dmaArrive e

/-- DMA_ABORT, its FENCE satisfied (R329, R336). -/
def State.dmaAbort (s : State) (c : Cmd) (e : Nat) : State :=
  let k := c.field 9 1
  if c.field 8 1 = 0 then
    let d := s.dmaRec e
    let s1 := (s.modDma e (fun d =>
      { d with slots := SMap.del d.slots k, emptied := d.emptied.filter (fun j => decide (j ≠ k)) })).showDma e
    if (SMap.find d.slots k).isNone && d.emptied.contains k then s1.complete c 0x20 0
    else s1.complete c 0 (b2n (SMap.find d.slots k).isSome)
  else
    let q := c.field 10 2
    let tag := c.field 12 2
    let es := if c.target = 0xFFFF then List.range 8 else [e]
    let found := es.flatMap (fun e => s.heldOf e q tag)
    let oldest := found.foldl (fun (b : Option (Nat × Transfer)) x =>
      match b with
      | none => some x
      | some y => if x.2.order < y.2.order then some x else some y) none
    match oldest with
    | some (e, t) => (s.abortTransfer e t).complete c 0 1
    | none =>
      match es.findSome? (fun e => (s.slotOf e q tag).map (fun k => (e, k))) with
      | some (e, k) => ((s.modDma e (fun d => { d with slots := SMap.del d.slots k })).showDma e).complete c 0 1
      | none => s.complete c 0 0

/-- DMA_ABORT. -/
def doDmaAbort (earlier : List Cmd) (c : Cmd) (s : State) : State :=
  let mode := c.field 8 1
  let bad := c.reservedSet [dmaFlags, (8, 1), (9, 1), (10, 2), (12, 2)] || decide (1 < mode) || decide (16 ≤ c.field 9 1) ||
    (decide (mode = 0) && decide (c.target = 0xFFFF))
  s.dmaChecked c bad 0 (fun e s =>
    if bitOf c.flags 0 && !earlier.isEmpty then s.hold c (.fence earlier) else s.dmaAbort c e)

/-! ### Time (R330, R331) -/

/-- DMA_TIME_LIMIT of a held transfer of engine e, by order number, or of a suspension slot: a parked or pre-empted one
stops at once, a running one at its next chunk boundary, a suspended one keeps its slot (R330, R336). -/
def doDmaTimeLimit (e : Nat) (slot : Bool) (k : Nat) (s : State) : State :=
  if slot then
    s.modDma e (fun d => { d with slots := d.slots.map (fun x => if x.1 = k then (x.1, { x.2 with expired := decide (x.2.limit ≠ 0) }) else x) })
  else
    match (s.dmaRec e).held[k]? with
    | none => s
    | some t =>
      if t.limit = 0 || !t.started then s
      else if t.running then s.modTransfer e t.order (fun t => { t with expired := true })
      else
        let s1 := if t.parked.isSome then s.abandon 6 e else s
        ((s1.endTransfer e t (first16 (if t.poisoned ≠ 0 then 0x12 else 0) 0x60) none none).unpark e).dmaArrive e

/-- DESCRIPTOR_AGEING: the waiting descriptor k of engine e has waited another AGE_LIMIT (R331). -/
def doDescriptorAgeing (e k : Nat) (s : State) : State :=
  match (s.dmaRec e).held[k]? with
  | none => s
  | some t =>
    if s.fld Reg.DMA_COMMON_AGE_LIMIT = 0 ∨ t.running then s
    else s.modTransfer e t.order (fun t => { t with age := min 3 (t.age + 1) })

/-! ### Rings in use (R185, R336) -/

/-- REAM_REWIND: it waits for a DMA transfer from the queue (R181, R185). -/
def doReamRewind (c : Cmd) (s : State) : State :=
  s.queueChecked c [] false (fun s => if s.dmaReads (.ream c.target c.queueOf) then s.hold c (.busy 0) else s.rewind c)

/-- REAM_RESET with its wait for a DMA transfer from the queue (R336). -/
def doReamResetDma (c : Cmd) (s : State) : State :=
  if c.target < 64 ∧ s.dmaReads (.ream c.target c.queueOf) ∧ !c.reservedSet [(8, 1)] ∧ c.field 8 1 < 8 ∧ s.ready (seqUnit c.target) then
    s.hold c (.busy 0)
  else doReamReset c s

/-- Engine e is reset or powered down: held descriptors complete with 0x20, the slots are emptied (R336). -/
def State.dmaReset (s : State) (e : Nat) : State :=
  let d := s.dmaRec e
  let s1 := d.held.foldl (fun s t => s.endTransfer e t (first16 (if t.poisoned ≠ 0 then 0x12 else 0) 0x20) none none) (s.abandon 6 e)
  (s1.modDma e (fun d => { d with held := [], slots := [], emptied := d.emptied ++ d.slots.map (fun x => x.1) })).showDma e

end Sys2Proof.Machine
end

