-- ==== Sys2Proof/Machine/HostIf.lean ====
section
/-! DEFINITION. The host interface: polling, fetching, completions, interrupts, the link and configuration space
(spec/16). -/

namespace Sys2Proof.Machine

open Sys2Proof

/-! ### Queues as data -/

/-- Submission and completion queue records, and the records changed. -/
def State.sqRec (s : State) (q : Nat) : SubQueue := SMap.get {} s.hi.sq q
def State.cqRec (s : State) (q : Nat) : ComQueue := SMap.get {} s.hi.cq q
def State.modSq (s : State) (q : Nat) (f : SubQueue → SubQueue) : State :=
  { s with hi := { s.hi with sq := SMap.put s.hi.sq q (f (s.sqRec q)) } }
def State.modCq (s : State) (q : Nat) (f : ComQueue → ComQueue) : State :=
  { s with hi := { s.hi with cq := SMap.put s.hi.cq q (f (s.cqRec q)) } }

/-- Slots of a queue (R344). -/
def State.sqSize (s : State) (q : Nat) : Nat := 2 ^ s.fld (Reg.SQ_SIZE_LOG2 q)
def State.cqSize (s : State) (q : Nat) : Nat := 2 ^ s.fld (Reg.CQ_SIZE_LOG2 q)

/-- The status record of queue q has changed (R348). -/
def State.statusChanged (s : State) (q : Nat) : State :=
  { s with hi := { s.hi with statusDue := addOnce q s.hi.statusDue } }

/-- The status record of queue q (R348). -/
def State.statusRecord (s : State) (q : Nat) : List Byte :=
  let x := s.sqRec q
  leBytes x.head 4 ++ leBytes x.state 1 ++ leBytes x.error 1 ++ leBytes 0 2 ++ leBytes (s.cqRec q).tail 4 ++ leBytes 0 4

/-- The status record of queue q is written to the status page. -/
def State.writeStatus (s : State) (q : Nat) : State :=
  let s1 := { s with hi := { s.hi with statusDue := s.hi.statusDue.filter (fun x => decide (x ≠ q)) } }
  s1.writeHost (4096 * s.fld Reg.STATUS_PAGE + 16 * q) (s.statusRecord q) false

/-! ### Polling (R346) -/

/-- POLLING shows whether rounds are made: POLL_EN, D0, Bus Master Enable. -/
def State.showPolling (s : State) : State :=
  s.setFlag Reg.HI_STATUS_POLLING (s.flag Reg.HI_CTRL_POLL_EN && s.hostWritable)

/-- The poll interval in force: POLL_NS in P0, I1 and I2, IDLE_POLL_NS in I3 and I4. -/
def State.pollInterval (s : State) : Nat :=
  if 3 ≤ s.fld Reg.PWR_STATUS_STATE then s.fld Reg.IDLE_POLL_IDLE_POLL_NS else s.fld Reg.POLL_POLL_NS

/-- An LTR message goes out whenever the interval in force has changed from `old`. -/
def State.ltrIfChanged (s : State) (old : Nat) : State :=
  if s.pollInterval = old then s else { s with hi := { s.hi with ltr := s.pollInterval } }

/-- Lines of the doorbell page that hold the record of an enabled queue. -/
def State.doorbellLines (s : State) : List Nat :=
  (List.range 64).filter (fun k => (List.range 4).any (fun j =>
    s.flag (Reg.SQ_ENABLE (4 * k + j)) || s.flag (Reg.CQ_ENABLE (4 * k + j))))

/-- The reads of a round are over: in I4 the link goes back to L1.2 (R346). -/
def State.roundOver (s : State) : State :=
  if s.hi.roundLines.isEmpty && decide (s.fld Reg.PWR_STATUS_STATE = 4) then s.setFlag Reg.LINK_IN_L1 true else s

/-- POLL_ROUND: a round starts once the reads of the last have completed; changed status records are written, and the
round-robin of fetches starts after the queue served first in the last round. In I4 the round takes the link out of L1.2
(R346 to R348). -/
def doPollRound (s : State) : State :=
  if !s.flag Reg.HI_STATUS_POLLING || !s.hi.roundLines.isEmpty then s
  else
    let s1 := s.hi.statusDue.foldl State.writeStatus s
    let h := s1.hi
    let lines := s1.doorbellLines
    let s2 := { s1 with hi := { h with
      roundLines := lines, lastFirst := h.thisFirst.orElse (fun _ => h.lastFirst), thisFirst := none
      turn := none, blocked := [] } }
    let s3 := if s2.fld Reg.PWR_STATUS_STATE = 4 ∧ lines ≠ [] then s2.setFlag Reg.LINK_IN_L1 false else s2
    s3.bump Reg.HI_POLL_ROUNDS 1

/-- A submission queue stops by error (R351). -/
def State.stopQueue (s : State) (q err : Nat) : State :=
  (((s.modSq q (fun x => { x with state := 2, error := err })).setFlag (Reg.SQ_ERR q) true).raise 10 q err).statusChanged q

/-- The doorbell record of queue q is taken (R345, R351). -/
def State.takeDoorbell (s : State) (q tail head : Nat) : State :=
  let s1 :=
    if !s.flag (Reg.SQ_ENABLE q) || decide ((s.sqRec q).state ≠ 1) then s
    else if s.sqSize q ≤ tail then s.stopQueue q 1
    else s.modSq q (fun x => { x with tail := tail })
  if !s1.flag (Reg.CQ_ENABLE q) then s1
  else if s1.cqSize q ≤ head then s1.setFlag (Reg.CQ_ERR q) true
  else s1.modCq q (fun x => { x with head := head })

/-- DOORBELL_LINE_READ of line k of the round (R346). -/
def doDoorbellRead (k : Nat) (r : LineRead) (s : State) : State :=
  if !s.hi.roundLines.contains k then s
  else
    let s1 := { s with hi := { s.hi with roundLines := s.hi.roundLines.filter (fun x => decide (x ≠ k)) } }
    match r with
    | .failed => (s1.setFlag Reg.HI_STATUS_DB_ERR true).roundOver
    | .data d =>
      let s2 := s1.writeHost (4096 * s.fld Reg.DB_PAGE + 64 * k) (leBytes d.toNat 64) false
      ((List.range 4).foldl (fun s j =>
        s.takeDoorbell (4 * k + j) (bitsOf d.toNat (128 * j) 16) (bitsOf d.toNat (128 * j + 32) 16)) s2).roundOver

/-! ### Fetching (R347, R349) -/

/-- Descriptors that DMA engine e holds: on their way to it, waiting for its power, or held by it (R331). -/
def State.dmaLoad (s : State) (e : Nat) : Nat :=
  let is := fun (c : Cmd) => decide (c.unitKey = some (1, e))
  (s.hi.dispatched.filter is).length + (s.held.filter (fun h => is h.cmd)).length + (s.dmaRec e).held.length

/-- The target of command `c` is full: 32 descriptors in a DMA engine, 16 commands accepted and not completed elsewhere
(R331, R347). -/
def State.targetFull (s : State) (c : Cmd) : Bool :=
  match c.unitKey with
  | none => false
  | some k =>
    if k = (1, 0xFFFF) then (List.range 8).all (fun e => decide (32 ≤ s.dmaLoad e))
    else if k.1 = 1 then decide (32 ≤ s.dmaLoad k.2)
    else decide (16 ≤ SMap.get 0 s.hi.accepted (65536 * k.1 + k.2))

/-- Queues with an entry to fetch. One whose next entry has found its target full is looked at again from the next round on
(DESIGN CHOICE. Log entry 45). -/
def State.fetchable (s : State) : List Nat :=
  (s.hi.sq.filter (fun x => decide (x.2.state = 1) && decide (x.2.head ≠ x.2.tail) && s.flag (Reg.SQ_ENABLE x.1) &&
    !s.hi.blocked.contains x.1)).map (fun x => x.1)

/-- The first of some queues after queue `q`, in cyclic order of queue number. -/
def nextAfter (l : List Nat) (q : Nat) : Option Nat := (l.find? (fun x => decide (q < x))).orElse (fun _ => l.head?)

/-- The queue whose next entry is to be fetched, after the round's reads: up to 16 entries a turn (R347). -/
def State.fetchTurn (s : State) : Option Nat :=
  let l := if s.hi.roundLines.isEmpty then s.fetchable else []
  match s.hi.turn with
  | none => s.hi.lastFirst.elim l.head? (nextAfter l)
  | some (q, n) => if n < 16 ∧ l.contains q then some q else nextAfter l q

/-- The next entry of queue q, as fetched, is checked by the host interface and dispatched (R349, R350). -/
def State.dispatch (s : State) (c : Cmd) : State :=
  let s := s.accepts c
  let q := c.queue
  let op := c.opcode
  let malformed := fun (s : State) (cq : Nat) => (s.completeTo cq c 0x7F 0).bump Reg.HI_MALFORMED 1
  if op ≠ 0 ∧ opcodeClass op ≠ some (s.fld (Reg.SQ_CLASS q)) then malformed s (if s.flag (Reg.CQ_ENABLE c.cq) then c.cq else q)
  else if 3 < c.priority then malformed s (if s.flag (Reg.CQ_ENABLE c.cq) then c.cq else q)
  else if !s.flag (Reg.CQ_ENABLE c.cq) then malformed s q
  else if (0x83 ≤ op ∧ op ≤ 0x8F) ∨ (0x9D ≤ op ∧ op ≤ 0x9F) ∨ 0xA4 ≤ op then s.complete c 0x7F 0
  else { s with hi := { s.hi with dispatched := s.hi.dispatched ++ [c] } }

/-- ENTRY_FETCH: the next entry of queue q, whose turn it is, is read (R347, R351). -/
def doEntryFetch (q : Nat) (r : LineRead) (s : State) : State :=
  if !s.hostWritable || decide (s.fetchTurn ≠ some q) then s
  else
    match r with
    | .failed => s.stopQueue q 2
    | .data d =>
      let c : Cmd := { queue := q, entry := d, epoch := s.hi.epoch }
      let n := match s.hi.turn with
        | some (p, n) => if p = q ∧ n < 16 then n else 0
        | none => 0
      if s.targetFull c then
        { s with hi := { s.hi with blocked := addOnce q s.hi.blocked, turn := some (q, n) } }
      else
        let at0 := 4096 * s.fld (Reg.SQ_BASE q) + 64 * (s.sqRec q).head
        let s1 := s.writeHost at0 (leBytes d.toNat 64) false
        let s2 := { s1 with hi := { s1.hi with
          turn := some (q, n + 1), thisFirst := s1.hi.thisFirst.orElse (fun _ => some q) } }
        let s3 := (s2.modSq q (fun x => { x with head := (x.head + 1) % s.sqSize q })).statusChanged q
        (s3.bump Reg.HI_FETCHED 1).dispatch c

/-- NOP (R350). -/
def doNop (c : Cmd) (s : State) : State := s.complete c 0 0

/-! ### Completions (R352 to R354, R356) -/

/-- Entries for which completion queue q has room (R345). -/
def State.cqRoom (s : State) (q : Nat) : Nat :=
  let x := s.cqRec q
  s.cqSize q - 1 - (x.tail + s.cqSize q - x.head) % s.cqSize q

/-- A held completion enters the buffer once it has room (R353). -/
def State.enterBuffer (s : State) : State :=
  match s.hi.unitHeld with
  | [] => s
  | e :: l =>
    if bufferDepth ≤ s.hi.buffer.length then s
    else
      let held := !s.hostWritable
      let s1 := { s with hi := { s.hi with unitHeld := l, buffer := s.hi.buffer ++ [{ e with counted := held }] } }
      if held then s1.moderateCq e.cq else s1

/-- BUF_FULL follows the buffer. -/
def State.showFull (s : State) : State := s.setFlag Reg.HI_STATUS_BUF_FULL (decide (bufferDepth ≤ s.hi.buffer.length))

/-- Held completions enter the buffer as far as it has room. -/
def State.refill (s : State) : State :=
  ((List.range s.hi.unitHeld.length).foldl (fun s _ => s.enterBuffer) s).showFull

/-- The entry at a place of the buffer, if its queue has room or is disabled: the first such, with the entries before it. -/
def State.nextWritable (s : State) : List Completion → List Completion → Option (List Completion × Completion × List Completion)
  | _, [] => none
  | before, e :: l =>
    if !s.flag (Reg.CQ_ENABLE e.cq) || (decide (s.cqRoom e.cq ≠ 0) && !before.any (fun x => decide (x.cq = e.cq))) then
      some (before, e, l)
    else State.nextWritable s (before ++ [e]) l

/-- Entries of the buffer that find their queue without room are counted, once each (R353). -/
def State.countWaits (s : State) : State :=
  let waits := fun (e : Completion) => !e.waited && s.flag (Reg.CQ_ENABLE e.cq) && decide (s.cqRoom e.cq = 0)
  let n := (s.hi.buffer.filter waits).length
  if n = 0 then s
  else
    ({ s with hi := { s.hi with buffer := s.hi.buffer.map (fun e => if waits e then { e with waited := true } else e) } } : State).bump
      Reg.HI_CQ_FULL_WAITS n

/-- The bytes of a completion entry (R352). -/
def Completion.bytes (e : Completion) (phase : Nat) : List Byte :=
  leBytes e.result 24 ++ leBytes e.cmd.tag 2 ++ leBytes e.status 1 ++ leBytes phase 1 ++ leBytes (e.cellTime / 2 ^ 10) 4

/-- Entry `e` is written to the next slot of its queue, the status record of its submission queue ahead of it (R348). -/
def State.writeCompletion (s : State) (e : Completion) : State :=
  let s0 := if s.hi.statusDue.contains e.cmd.queue then s.writeStatus e.cmd.queue else s
  let q := e.cq
  let x := s0.cqRec q
  let s1 := s0.writeHost (4096 * s0.fld (Reg.CQ_BASE q) + 32 * x.tail) (e.bytes x.phase) false
  let wraps := decide (x.tail + 1 = s0.cqSize q)
  let s2 := (s1.modCq q (fun x =>
    { x with tail := if wraps then 0 else x.tail + 1, phase := if wraps then 1 - x.phase else x.phase })).statusChanged q
  let s3 := s2.bump Reg.HI_COMPLETIONS 1
  if e.counted then s3 else s3.moderateCq q

/-- One entry leaves the buffer: it is written, or dropped where its queue is disabled (R353). -/
def State.drainOne (s : State) : State :=
  let s0 := s.countWaits
  match s0.nextWritable [] s0.hi.buffer with
  | none => s0
  | some (before, e, after) =>
    let s1 := { s0 with hi := { s0.hi with buffer := before ++ after } }
    let s2 := if s1.flag (Reg.CQ_ENABLE e.cq) then s1.writeCompletion e else s1
    s2.refill

/-- COMPLETION_WRITE: in L1 the link exits first; where the device cannot write host memory the entry stays (R355,
R356). -/
def doCompletionWrite (s : State) : State :=
  if !s.hostWritable then s
  else if s.flag Reg.LINK_IN_L1 then
    (if s.hi.buffer.isEmpty then s else { s with hi := { s.hi with l1Exit := true } })
  else s.drainOne

/-- The entries counted while they could not be written are written, in order; the argument bounds them (R356). -/
def State.drainHeld : Nat → State → State
  | 0, s => s
  | fuel + 1, s => if s.hi.buffer.any (fun e => e.counted) then State.drainHeld fuel s.drainOne else s

/-- The moderation timer of completion queue q expires (R354). -/
def State.cqTimer (s : State) (q : Nat) : State :=
  if (s.cqRec q).modr.timer then
    (s.modCq q (fun x => { x with modr := {} })).deliverVector (s.fld (Reg.CQ_IRQ_VECTOR q))
  else s

/-! ### Vectors, link and power state of the function (R355, R356) -/

/-- Deferred vectors are delivered, or held again, as the host now stands. -/
def State.deliverDeferred (s : State) : State :=
  let l := s.hi.deferred
  l.foldl State.deliverVector { s with hi := { s.hi with deferred := [] } }

/-- Vectors of the pending-bit array that are unmasked are sent once. -/
def State.deliverPba (s : State) : State :=
  if s.hi.functionMask then s
  else
    let l := s.hi.pba.filter s.hi.unmasked.contains
    l.foldl State.deliverVector { s with hi := { s.hi with pba := s.hi.pba.filter (fun v => !l.contains v) } }

/-- MSIX_UNMASK of a vector, or of the function (R355). -/
def doMsixUnmask (v : Option Nat) (s : State) : State :=
  let h := s.hi
  match v with
  | some v => ({ s with hi := { h with unmasked := addOnce v h.unmasked } } : State).deliverPba
  | none => ({ s with hi := { h with functionMask := false } } : State).deliverPba

/-- L1_ENTRY (R355). -/
def doL1Entry (s : State) : State := s.setFlag Reg.LINK_IN_L1 true

/-- D3HOT_ENTRY (R346, R355). -/
def doD3hotEntry (s : State) : State := ({ s with hi := { s.hi with d3hot := true } } : State).showPolling

/-- With MSI-X Enable 0 in D0 the pending state is discarded (R355, R358). -/
def State.discardPending (s : State) : State :=
  if s.hi.msixEnable || s.hi.d3hot then s else { s with hi := { s.hi with pba := [], deferred := [] } }

/-- PCIE_LINK_UP (R341). -/
def doLinkUp (rate : LinkRate) (width : LinkWidth) (s : State) : State :=
  let r := match rate with
    | .gt2 => 1
    | .gt5 => 2
    | .gt8 => 3
    | .gt16 => 4
    | .gt32 => 5
  let w := match width with
    | .x1 => 1
    | .x2 => 2
    | .x4 => 4
    | .x8 => 8
  ((s.setFld Reg.LINK_RATE r).setFld Reg.LINK_WIDTH w).setFlag Reg.LINK_IN_L1 false

/-- ATS Enable changes: with it clear, waiting accesses go on untranslated (R308). -/
def State.setAts (s : State) (on : Bool) : State :=
  let m := s.mem
  let freed := if on then m
    else { m with
      atsRequests := m.atsRequests.map (fun r => { r with waiters := [] })
      groups := m.groups.map (fun g => { g with waiters := [] })
      noGroup := [] }
  ({ s with mem := freed, hi := { s.hi with atsEnable := on } } : State).setFlag Reg.MMU_STATUS_ATS_ENABLED on

/-- PRI Enable changes: setting it ends what a Response Failure began (R311). -/
def State.setPri (s : State) (on : Bool) : State :=
  let s1 := (({ s with mem := { s.mem with priUnavailable := s.mem.priUnavailable && !on }
                       hi := { s.hi with priEnable := on } } : State)).setFlag Reg.MMU_STATUS_PRI_ENABLED on
  takeGroups s1.mem.noGroup.length s1

/-- Quads of the host interface window, the DMA engines' registers apart, which are those of other units (R342, R359).
DEDUCED. Log entry 45. -/
def hiWindow (a : Nat) : Bool := decide (0x1000 ≤ a) && decide (a < 0x2800)

/-- HOT_RESET (R342). -/
def doHotReset (linkDown : Bool) (s : State) : State :=
  let gone := s.hi.buffer.length + s.hi.unitHeld.length
  let discarded := s.fld Reg.HI_DISCARDED
  let rate := if linkDown then 0 else s.fld Reg.LINK_RATE
  let width := if linkDown then 0 else s.fld Reg.LINK_WIDTH
  let h : HostIf := { dispatched := s.hi.dispatched, accepted := s.hi.accepted, epoch := s.hi.epoch + 1 }
  let s1 := ({ s with regs := s.regs.filter (fun r => !hiWindow r.1), hi := h } : State)
  let s2 := ((s1.setFld Reg.HI_DISCARDED (discarded + gone)).setFlag Reg.HI_STATUS_LINK_RESET true).setFld Reg.LINK_RATE rate
  (s2.setFld Reg.LINK_WIDTH width).setAts false |>.setPri false

/-! ### Queue registers (R344) -/

/-- A write of `v` to SQq is applied (R344, R359). -/
def State.sqFits (s : State) (q v : Nat) : Bool :=
  let on := bitOf v 7
  let changes := decide (bitsOf v 0 7 ≠ bitsOf (s.quad (Reg.SQ_BASE q).addr).toNat 0 7) ||
    decide (bitsOf v 12 52 ≠ s.fld (Reg.SQ_BASE q))
  decide (2 ≤ bitsOf v 0 4) && decide (bitsOf v 0 4 ≤ 12) && !(s.flag (Reg.SQ_ENABLE q) && changes) &&
    !(on && !s.flag (Reg.SQ_ENABLE q) && !s.flag (Reg.CQ_ENABLE q))

/-- SQq, whose ENABLE was `was`, has been written: enabling starts it at 0 (R344). A disabled queue keeps its head and
shows no error (DESIGN CHOICE. Log entry 45). -/
def State.sqApplied (s : State) (q : Nat) (was : Bool) : State :=
  let on := s.flag (Reg.SQ_ENABLE q)
  if on = was then s
  else (s.modSq q (fun x => if on then { state := 1 } else { x with state := 0, error := 0 })).statusChanged q

/-- A write of `v` to CQq is applied (R344, R359). -/
def State.cqFits (s : State) (q v : Nat) : Bool :=
  let on := bitOf v 4
  let changes := decide (bitsOf v 0 4 ≠ s.fld (Reg.CQ_SIZE_LOG2 q)) || decide (bitsOf v 12 52 ≠ s.fld (Reg.CQ_BASE q))
  decide (2 ≤ bitsOf v 0 4) && decide (bitsOf v 0 4 ≤ 12) && !(s.flag (Reg.CQ_ENABLE q) && changes) &&
    !(!on && s.flag (Reg.CQ_ENABLE q) && s.flag (Reg.SQ_ENABLE q))

/-- CQq, whose ENABLE was `was`, has been written: enabling starts it at slot 0 with phase 1; disabling drops its entries
(R353). -/
def State.cqApplied (s : State) (q : Nat) (was : Bool) : State :=
  let on := s.flag (Reg.CQ_ENABLE q)
  if on = was then s
  else if on then (s.modCq q (fun x => { x with tail := 0, head := 0, phase := 1 })).statusChanged q
  else
    let h := s.hi
    ({ s with hi := { h with buffer := h.buffer.filter (fun e => decide (e.cq ≠ q)) } } : State).refill

end Sys2Proof.Machine
end

