-- ==== Sys2Proof/Machine/ConfigSpace.lean ====
section
/-! DEFINITION. What the host reads of the function itself: configuration space and BAR2 (R338 to R340). -/

namespace Sys2Proof.Machine

open Sys2Proof

/-- Configuration space as the host reads it (R339): the fields that the table lists. Fields that it does not list are the
PCI Express Base Specification's and not the model's. -/
structure ConfigSpace where
  vendorId : Nat
  deviceId : Nat
  revisionId : Nat
  classCode : Nat := 0x118000
  headerType : Nat := 0
  /-- Bytes that BAR0 and BAR1, BAR2 and BAR3 map; BAR4, BAR5 and the expansion ROM are not implemented. -/
  bar0Bytes : Nat := 2 ^ 20
  bar2Bytes : Nat := 2 ^ 16
  bar4 : Nat := 0
  bar5 : Nat := 0
  expansionRom : Nat := 0
  subsystemVendorId : Nat
  subsystemId : Nat
  capabilities : Nat := 0x40
  interruptPin : Nat := 0
  /-- Capabilities by offset: Power Management, MSI-X, PCI Express; AER, Secondary PCI Express, Data Link Feature, Physical
  Layer 16.0 and 32.0 GT/s, Lane Margining, ATS, Page Request, LTR, L1 PM Substates. -/
  offsets : List Nat := [0x40, 0x50, 0x70, 0x100, 0x148, 0x168, 0x174, 0x1A0, 0x1D0, 0x200, 0x210, 0x220, 0x228]
  pmVersion : Nat := 3
  noSoftReset : Nat := 1
  auxCurrent : Nat := 0
  msixTableSize : Nat := 2047
  msixTable : Nat × Nat := (2, 0)
  msixPba : Nat × Nat := (2, 0x8000)
  maxPayload : Nat := 512
  maxLinkWidth : Nat := 8
  linkSpeeds : Nat := 0x1F
  functionLevelReset : Bool := false
  ecrcGeneration : Bool := true
  ecrcCheck : Bool := true
  atsQueueDepth : Nat := 32
  atsPageAligned : Nat := 1
  atsGlobalInvalidate : Nat := 0
  pageRequests : Nat := 512
  prgPasid : Nat := 0
  /-- PME_En and PME_Status, ATS and PRI Enable, Bus Master Enable, MSI-X Enable and function mask, as they stand. -/
  pme : Bool × Bool
  ats : Bool
  pri : Bool
  busMaster : Bool
  msix : Bool × Bool
  deriving DecidableEq, Repr

/-- Configuration space now: identifiers from the fuses, enables as last written (R339, R451). -/
def State.configSpace (s : State) : ConfigSpace :=
  { vendorId := Config.vendorId.toNat, deviceId := s.fuse.deviceId, revisionId := Config.revision.toNat
    subsystemVendorId := s.fuse.oem.subsysVid, subsystemId := s.fuse.oem.subsysId
    pme := (s.hi.pmeEnable, s.hi.pmeStatus), ats := s.hi.atsEnable, pri := s.hi.priEnable, busMaster := s.hi.busMaster
    msix := (s.hi.msixEnable, s.hi.functionMask) }

/-- The 64-bit word at BAR2 offset `a` (R340): vector a / 16 of the MSI-X table holds its address in the first word and its
data and mask bit in the second, the format of the PCI specification; the pending-bit array from 0x8000 holds one bit for
each vector; the rest reads zero. PRESUMED: the order inside an entry. Log entry 7. -/
def State.bar2Read (s : State) (a : Nat) : Nat :=
  let v := a / 16
  let e := SMap.get (0, 0) s.hi.msixTable v
  if a < 0x8000 then (if a % 16 < 8 then e.1 else e.2 + 2 ^ 32 * b2n (!s.hi.unmasked.contains v))
  else if a < 0x8100 then ofBits ((List.range 64).filter (fun i => s.hi.pba.contains (8 * (a - 0x8000) + i)))
  else 0

end Sys2Proof.Machine
end

