-- ==== Sys2Proof/Machine/Events.lean ====
section
/-! DEFINITION. The event controller: delivery, host event queues, cell event lines; and what follows the host's state
in both queues of records and completions (spec/21, R355, R356). -/

namespace Sys2Proof.Machine

open Sys2Proof

/-! ### Host event queues (R445, R446) -/

/-- Event queue k's record, and the record changed. -/
def State.heq (s : State) (k : Nat) : EventQueue := SMap.get {} s.ev.queues k
def State.modHeq (s : State) (k : Nat) (f : EventQueue → EventQueue) : State :=
  { s with ev := { s.ev with queues := SMap.put s.ev.queues k (f (s.heq k)) } }

/-- Moderation of event queue k counts one record (R354, R446). -/
def State.moderateHeq (s : State) (k : Nat) : State :=
  let r := (s.heq k).modr.count (s.flag (Reg.HEQ_IRQ_IRQ_EN k)) (s.fld (Reg.HEQ_IRQ_COUNT k)) (s.fld (Reg.HEQ_IRQ_TIME k))
  let s1 := s.modHeq k (fun x => { x with modr := r.1 })
  if r.2 then s1.deliverVector (s.fld (Reg.HEQ_IRQ_VECTOR k)) else s1

/-- A record, 31 bytes, is written to the next slot with its phase (R445). -/
def State.writeRecord (s : State) (k : Nat) (r : List Byte) : State :=
  let x := s.heq k
  let size := 2 ^ s.afld (Reg.HEQ_BASE_SIZE_LOG2 k)
  let s1 := s.writeHost (4096 * s.afld (Reg.HEQ_BASE k) + 32 * x.slot) (r ++ leBytes x.phase 1) false
  let wraps := decide (x.slot + 1 = size)
  s1.modHeq k (fun x => { x with slot := if wraps then 0 else x.slot + 1, phase := if wraps then 1 - x.phase else x.phase })

/-- A record for event queue k (R445, R446): written, held while the device cannot write host memory, held for L0, or
discarded where the queue is disabled. -/
def State.queueRecord (s : State) (k : Nat) (r : List Byte) : State :=
  if !s.flag (Reg.HEQ_BASE_ENABLE k) then s.bump Reg.HEQ_DROPS 1
  else
    let full := r ++ leBytes (s.fld (Reg.HEQ_SEQ k)) 4 ++ leBytes 0 3
    let s1 := s.bump (Reg.HEQ_SEQ k) 1
    if !s.hostWritable then (s1.modHeq k (fun x => { x with heldRecords := x.heldRecords ++ [(full, true)] })).moderateHeq k
    else if s.flag Reg.LINK_IN_L1 then
      let s2 := s1.modHeq k (fun x => { x with heldRecords := x.heldRecords ++ [(full, false)] })
      { s2 with hi := { s2.hi with l1Exit := true } }
    else (s1.writeRecord k full).moderateHeq k

/-- The held records of event queue k are written, in order. -/
def State.flushHeq (s : State) (k : Nat) : State :=
  let l := (s.heq k).heldRecords
  l.foldl (fun s r => let s1 := s.writeRecord k r.1; if r.2 then s1 else s1.moderateHeq k)
    (s.modHeq k (fun x => { x with heldRecords := [] }))

/-- HEQ_BASE of queue k, whose ENABLE was `was`, has been written (R445, R449). -/
def State.heqApplied (s : State) (k : Nat) (was : Bool) : State :=
  let on := s.flag (Reg.HEQ_BASE_ENABLE k)
  if on = was then s
  else if on then
    ((s.applyFlds [Reg.HEQ_BASE k, Reg.HEQ_BASE_SIZE_LOG2 k]).modHeq k (fun x => { x with slot := 0, phase := 1 })).setFld
      (Reg.HEQ_SEQ k) 0
  else
    let n := (s.heq k).heldRecords.length
    (s.modHeq k (fun x => { x with heldRecords := [] })).bump Reg.HEQ_DROPS n

/-- MODERATION_TIMER (R354, R446). -/
def doModerationTimer (m : ModQueue) (s : State) : State :=
  match m with
  | .cq q => s.cqTimer q.val
  | .heq k =>
    if (s.heq k.val).modr.timer then
      (s.modHeq k.val (fun x => { x with modr := {} })).deliverVector (s.fld (Reg.HEQ_IRQ_VECTOR k.val))
    else s

/-! ### The host can be written again (R355, R356) -/

/-- The device can write host memory: once the link is in L0, held completions and records are written in order, then
deferred vectors go. -/
def State.hostBack (s : State) : State :=
  if !s.hostWritable then s
  else if s.flag Reg.LINK_IN_L1 then { s with hi := { s.hi with l1Exit := true } }
  else
    let s1 := State.drainHeld s.hi.buffer.length s
    let s2 := (List.range 4).foldl State.flushHeq s1
    s2.discardPending.deliverDeferred

/-- L1_EXIT: the link is in L0; records, an entry and deferred messages that waited for it go (R355). -/
def doL1Exit (s : State) : State :=
  let asked := s.hi.l1Exit
  let s1 := ({ s with hi := { s.hi with l1Exit := false } } : State).setFlag Reg.LINK_IN_L1 false
  if !s1.hostWritable then s1
  else
    let s2 := (List.range 4).foldl State.flushHeq (State.drainHeld s1.hi.buffer.length s1)
    (if asked && !s2.hi.buffer.isEmpty then s2.drainOne else s2).deliverDeferred

/-- D0_RETURN (R355, R356). -/
def doD0Return (busMaster : Bool) (s : State) : State :=
  (({ s with hi := { s.hi with d3hot := false, busMaster := busMaster } } : State)).showPolling.discardPending.hostBack

/-- CONFIG_SPACE_WRITE (R308, R310, R311, R346, R355). -/
def doConfigWrite (w : ConfigWrite) (s : State) : State :=
  let h := s.hi
  match w with
  | .busMaster on => ({ s with hi := { h with busMaster := on } } : State).showPolling.hostBack
  | .msixEnable on => ({ s with hi := { h with msixEnable := on } } : State).discardPending
  | .functionMask on => if on then { s with hi := { h with functionMask := true } } else doMsixUnmask none s
  | .vectorMask v => { s with hi := { h with unmasked := h.unmasked.filter (fun x => decide (x ≠ v.val)) } }
  | .vectorTable v a d => { s with hi := { h with msixTable := SMap.put h.msixTable v.val (a.toNat, d.toNat) } }
  | .atsEnable on => s.setAts on
  | .priEnable on => s.setPri on
  | .priAllocation n => takeGroups s.mem.noGroup.length { s with hi := { h with priAllocation := n.toNat } }
  | .pmeEnable on => { s with hi := { h with pmeEnable := on } }
  | .pmeStatusClear => { s with hi := { h with pmeStatus := false } }

/-- COMPLETION_TIMEOUT (R315, R346, R351). -/
def doCompletionTimeout (what : LateRead) (s : State) : State :=
  match what with
  | .ats i => doAtsCompletion i.toNat .refused s
  | .block b => doHostRead b.toNat .refused s
  | .doorbell k => doDoorbellRead k.val .failed s
  | .entry q => doEntryFetch q.val .failed s

/-! ### Cell event lines (R441, R447) -/

/-- Line k's record, and the record changed. -/
def State.line (s : State) (k : Nat) : EvLine := SMap.get {} s.ev.lines k
def State.modLine (s : State) (k : Nat) (f : EvLine → EvLine) : State :=
  { s with ev := { s.ev with lines := SMap.put s.ev.lines k (f (s.line k)) } }

/-- The device pulls the line low. -/
def EvLine.own (l : EvLine) : Bool := l.pulse || l.shutdown || !l.trips.isEmpty || !l.markers.isEmpty

/-- Lines whose ASSERTED is behind: a line newly asserted or released arms and gates the TMUs that follow it (R192, R194), and asserted wakes
the device where WAKE_EV says so (R426); ASSERTED and OWN_DRIVE show every line (R450). -/
def State.showLines (s : State) : State :=
  (List.range 8).foldl (fun s k =>
    let low := s.evAsserted k
    let own := (s.line k).own
    let rises := low && !s.flag (Reg.EV_LINE_ASSERTED k)
    let falls := !low && s.flag (Reg.EV_LINE_ASSERTED k)
    let s1 := if low = s.flag (Reg.EV_LINE_ASSERTED k) then s else s.setFlag (Reg.EV_LINE_ASSERTED k) low
    let s2 := if own = s1.flag (Reg.EV_LINE_OWN_DRIVE k) then s1 else s1.setFlag (Reg.EV_LINE_OWN_DRIVE k) own
    if rises then
      let s3 := s2.tmuEvAssert k
      if bitOf (s3.fld Reg.PWR_CTRL_WAKE_EV) k then s3.startExit else s3
    else if falls then s2.tmuEvRelease k
    else s2) s

/-- EV_ASSERT: an external driver pulls line k low (R441). -/
def doEvAssert (k : Nat) (s : State) : State :=
  if (s.line k).outside then s
  else
    let s1 := s.modLine k (fun l => { l with outside := true })
    if (s.line k).own then s1 else s1.raise (35 + k) k 0

/-- EV_LINE_RELEASE: the external driver lets line k go. -/
def doEvRelease (k : Nat) (s : State) : State := s.modLine k (fun l => { l with outside := false })

/-- EV_PULSE_END: a pulse on line k ends (R217, R264, R447). -/
def doEvPulseEnd (k : Nat) (who : LineDriver) (s : State) : State :=
  s.modLine k (fun l =>
    match who with
    | .controller => { l with pulse := false }
    | .dps n => { l with trips := l.trips.filter (fun x => decide (x ≠ n.val)) }
    | .awg c => { l with markers := l.markers.filter (fun x => decide (x ≠ c.val)) })

/-! ### Delivery (R443, R444) -/

/-- A source may be selected: it has a count, and is unmasked or goes to the management processors. -/
def State.selectable (s : State) (n : Nat) : Bool :=
  decide (s.fld (Reg.SRC_STAT_COUNT n) ≠ 0) && (s.flag (Reg.SRC_CFG_HOST_EN n) || sourceF n)

/-- The record of source n without its SEQ and PHASE (R445). -/
def State.eventRecord (s : State) (n : Nat) (late : Bool) : List Byte :=
  let o := SMap.get ⟨0, 0, 0⟩ s.ev.latch n
  leBytes n 2 ++ leBytes (s.fld (Reg.SRC_STAT_COUNT n)) 1 ++ leBytes (s.fld (Reg.SRC_STAT_SAT n) + 2 * b2n late) 1 ++
    leBytes o.unit 2 ++ leBytes 0 2 ++ leBytes o.info 8 ++ leBytes o.cellTime 8

/-- Source n is delivered to its destinations, `host` telling whether the host is one. -/
def State.deliver (s : State) (n : Nat) (host late : Bool) : State :=
  let r := s.eventRecord n late
  let count := s.fld (Reg.SRC_STAT_COUNT n)
  let s1 := { s with ev := { s.ev with latch := SMap.del s.ev.latch n } }
  let s2 := (s1.setFld (Reg.SRC_STAT_COUNT n) 0).setFld Reg.EVC_STATUS_LAST_SOURCE n |>.bump Reg.EV_DELIVERED 1
  let s3 := if host then s2.queueRecord (s.fld (Reg.SRC_CFG_HEQ n)) r else s2
  let s4 := if sourceF n then
      let t := s3.ev.toFirmware
      { s3 with ev := { s3.ev with toFirmware := SMap.put t n (SMap.get 0 t n + count) } }
    else s3
  let k := s.fld (Reg.SRC_CFG_EV_LINE n)
  if s.flag (Reg.SRC_CFG_EV_EN n) && s.flag (Reg.EV_LINE_OUT_EN k) then
    s4.modLine k (fun l => if n = 0 then { l with shutdown := true } else { l with pulse := true })
  else s4

/-- EVENT_DELIVERY: the lowest source that may be selected is delivered; `late` names a source that was selected just before
the write that masked it took effect (R444). -/
def doEventDelivery (late : Option Nat) (s : State) : State :=
  let first := (List.range 64).find? (fun n => s.selectable n || decide (late = some n) && decide (s.fld (Reg.SRC_STAT_COUNT n) ≠ 0))
  match first with
  | none => s
  | some n =>
    if s.flag (Reg.SRC_CFG_HOST_EN n) then s.deliver n true false
    else if late = some n then s.deliver n true true
    else s.deliver n false false

end Sys2Proof.Machine
end

