-- ==== Sys2Proof/Machine/FeltLink.lean ====
section
/-! DEFINITION. The Felt fabric up to its messages: port training, control blocks, credits, replay, routing of packets, and
cell time (spec/17, R360 to R371, R377 to R380). -/

namespace Sys2Proof.Machine

open Sys2Proof

/-! ### Ports as data -/

/-- Port p's record, and the record changed. -/
def State.port (s : State) (p : Nat) : FeltPort := SMap.get {} s.felt.ports p
def State.modPort (s : State) (p : Nat) (f : FeltPort → FeltPort) : State :=
  { s with felt := { s.felt with ports := SMap.put s.felt.ports p (f (s.port p)) } }

/-- STATE of port p (R362). -/
def State.portState (s : State) (p : Nat) : Nat := s.fld (Reg.PORT_STATUS_STATE p)

/-- A list of four counts with `k` added at one, modulo 4,096. -/
def addAt (l : List Nat) (i k : Nat) : List Nat := l.mapIdx (fun j x => if j = i then (x + k) % 4096 else x)

/-- Flits of a packet: header, payload, trailer (R364). -/
def Packet.size (p : Packet) : Nat := p.flits.length + 2

/-- Port p has control blocks to send (R363). -/
def State.sendBlock (s : State) (p typ content : Nat) : State := s.modPort p (fun x => { x with due := x.due ++ [(typ, content)] })

/-- What is due on every port has been sent: a cycle has passed. -/
def State.blocksSent (s : State) : State :=
  { s with felt := { s.felt with ports := s.felt.ports.map (fun x => (x.1, { x.2 with due := [] })) } }

/-! ### Port states (R362) -/

/-- Port p may not train. -/
def State.portOff (s : State) (p : Nat) : Bool :=
  !s.flag (Reg.PORT_CTRL_ENABLE p) || !s.ready (portUnit p) || decide ((if p < 2 then s.extentX else s.extentY) = 1)

/-- Hop-delay measurement starts anew (R379). -/
def State.clearHop (s : State) (p : Nat) : State :=
  (s.setFlag (Reg.PORT_STATUS_HOP_VALID p) false).modPort p (fun x => { x with t1 := none, delays := [] })

/-- The port enters a state in which it does not carry packets. -/
def State.portEnter (s : State) (p st : Nat) : State := (s.setFld (Reg.PORT_STATUS_STATE p) st).clearHop p

/-- The port enters UP, MISMATCH or DOWN: STATE_CHANGE and the Felt-link event (R362). -/
def State.portNotice (s : State) (p st : Nat) : State :=
  ((s.portEnter p st).setFlag (Reg.PORT_STATUS_STATE_CHANGE p) true).raise 12 p st

/-- The link of port p is up or down: its bit in this node's map, and a LINK_STATE broadcast of the next version (R371). -/
def State.announce (s : State) (p : Nat) (up : Bool) : State :=
  let k := s.linkKey s.node p
  let v := ((SMap.get (0, false) s.felt.links k).1 + 1) % 2 ^ 16
  let s1 := { s with felt := { s.felt with links := SMap.put s.felt.links k (v, up) } }
  (s1.feltSend everyNode 7 0 0 [s.node + 2 ^ 16 * p + 2 ^ 18 * b2n up + 2 ^ 32 * v]).showTree

/-- Port p starts a retrain (R362). -/
def State.startRetrain (s : State) (p : Nat) : State :=
  if s.portState p = 4 then
    ((s.portEnter p 6).bump (Reg.PORT_RETRAINS p) 1).modPort p (fun x => { x with retraining := true, fresh := false, episodes := 0 })
  else s

/-- Port p enters UP (R362, R365): from DETECT its sequence and credits start anew, and the packets it keeps are sent
again; after a retrain the replay goes on. -/
def State.portUp (s : State) (p : Nat) : State :=
  let x := s.port p
  let kept := x.replay.map (fun r => r.pkt)
  let used := kept.foldl (fun u k => addAt u k.vc k.size) [0, 0, 0, 0]
  let y : FeltPort :=
    if x.fresh then
      { x with txSeq := kept.length % 4096, rxSeq := 0, used := used, given := [0, 0, 0, 0], freed := [0, 0, 0, 0]
               replay := kept.mapIdx (fun i k => { seq := i, pkt := k }) }
    else x
  let y := { y with retraining := false, fresh := false, id0 := none, nak := false, episodes := 0
                    info := if x.fresh then none else y.info, timeHi := if x.fresh then none else y.timeHi }
  (((s.setFld (Reg.PORT_STATUS_MISMATCH p) 0).modPort p (fun _ => y)).portNotice p 4).announce p true

/-- Port p enters DOWN: what its replay and input buffers hold is discarded (R362, R367). -/
def State.portDown (s : State) (p : Nat) : State :=
  let x := s.port p
  let n := x.replay.length + x.inBuf.length
  (((s.modPort p (fun x => { x with retraining := false, replay := [], inBuf := [], episodes := 0 })).bump
    Reg.FELT_DISCARDED_PKTS n).portNotice p 7).announce p false

/-- Ports that may not train are DISABLED; the others leave DISABLED for DETECT (R362). -/
def State.showPorts (s : State) : State :=
  (List.range 4).foldl (fun s p =>
    if s.portOff p then (if s.portState p = 0 then s else (s.portEnter p 0).modPort p (fun x => { x with retraining := false, fresh := true, id0 := none }))
    else if s.portState p = 0 then (s.portEnter p 1).modPort p (fun x => { x with fresh := true }) else s) s

/-- PARTNER_DETECT (R362): from DETECT, or from RETRAIN. -/
def doPartnerDetect (p : Nat) (s : State) : State :=
  if s.portState p = 1 then (s.portEnter p 2).modPort p (fun x => { x with fresh := true })
  else if s.portState p = 6 then s.portEnter p 2
  else s

/-- ID0 and ID1 of this node on port p (R363). -/
def State.sendIds (s : State) (p : Nat) : State :=
  (s.sendBlock p 0x87 (s.node + 2 ^ 16 * p + 2 ^ 18 * s.extentX + 2 ^ 27 * s.extentY + 2 ^ 36)).sendBlock p 0x99
    (s.fld Reg.FELT_CFG_TIME_ROOT)

/-- The port enters HANDSHAKE. -/
def State.handshake (s : State) (p : Nat) : State := ((s.portEnter p 3).modPort p (fun x => { x with id0 := none })).sendIds p

/-- EQUALISE_END (R362). -/
def doEqualiseEnd (p : Nat) (ok : Bool) (s : State) : State :=
  if s.portState p ≠ 2 then s
  else if ok then s.handshake p
  else (s.portEnter p 1).modPort p (fun x => { x with retraining := false, fresh := true })

/-- MISMATCH_RETRY (R362). -/
def doMismatchRetry (p : Nat) (s : State) : State := if s.portState p = 5 then s.handshake p else s

/-- RETRAIN_TIMEOUT (R362). -/
def doRetrainTimeout (p : Nat) (s : State) : State :=
  if (s.port p).retraining && decide (s.portState p ≠ 4) then s.portDown p else s

/-- DOWN_TIMEOUT (R362). -/
def doDownTimeout (p : Nat) (s : State) : State :=
  if s.portState p = 7 then (s.portEnter p 1).modPort p (fun x => { x with fresh := true }) else s

/-! ### Control blocks (R362, R363, R365 to R367) -/

/-- A control block of a type arrives on port p: with a wrong CRC it is discarded and counted (R363). -/
def State.block (s : State) (p typ : Nat) (content : BitVec 48) (crc : BitVec 8) (k : Nat → State → State) : State :=
  if s.portState p < 3 ∨ 6 ≤ s.portState p then s
  else if crc8 (leBytes typ 1 ++ leBytes content.toNat 6) ≠ crc.toNat then s.bump (Reg.PORT_CRC_ERRORS p) 1
  else k content.toNat s

/-- A control block that acts only in UP. -/
def State.blockUp (s : State) (p typ : Nat) (content : BitVec 48) (crc : BitVec 8) (k : Nat → State → State) : State :=
  s.block p typ content crc (fun c s => if s.portState p = 4 then k c s else s)

/-- ID0 (R362, R363). -/
def doId0 (p : Nat) (content : BitVec 48) (crc : BitVec 8) (s : State) : State :=
  s.block p 0x87 content crc (fun c s =>
    (s.setFld (Reg.PORT_STATUS_NEIGHBOUR p) (bitsOf c 0 16)).modPort p (fun x => { x with id0 := some c }))

/-- The first check of the handshake that fails: 0 none, 1 node or port, 2 extents, 3 TIME_ROOT or VERSION (R362). -/
def State.mismatch (s : State) (p id0 id1 : Nat) : Nat :=
  if bitsOf id0 0 16 ≠ s.neighbour s.node p ∨ bitsOf id0 16 2 ≠ otherEnd p then 1
  else if bitsOf id0 18 9 ≠ s.extentX ∨ bitsOf id0 27 9 ≠ s.extentY then 2
  else if bitsOf id1 0 16 ≠ s.fld Reg.FELT_CFG_TIME_ROOT ∨ bitsOf id0 36 4 ≠ 1 then 3
  else 0

/-- ID1 completes the handshake (R362). -/
def doId1 (p : Nat) (content : BitVec 48) (crc : BitVec 8) (s : State) : State :=
  s.block p 0x99 content crc (fun c s =>
    if s.portState p ≠ 3 then s
    else match (s.port p).id0 with
    | none => s
    | some id0 =>
      let m := s.mismatch p id0 c
      if m = 0 then s.portUp p else (s.setFld (Reg.PORT_STATUS_MISMATCH p) m).portNotice p 5)

/-- CREDIT (R363, R365). -/
def doCredit (p : Nat) (content : BitVec 48) (crc : BitVec 8) (s : State) : State :=
  s.blockUp p 0x2D content crc (fun c s =>
    s.modPort p (fun x => { x with given := (List.range 4).map (fun v => bitsOf c (12 * v) 12) }))

/-- Packets acknowledged up to a SEQ leave the replay buffer (R366, R367). -/
def acknowledged (l : List SentPacket) (seq : Nat) : List SentPacket :=
  match l.findIdx? (fun r => decide (r.seq = seq)) with
  | some i => l.drop (i + 1)
  | none => l

/-- ACK (R366, R367). -/
def doAck (p : Nat) (content : BitVec 48) (crc : BitVec 8) (s : State) : State :=
  s.blockUp p 0x33 content crc (fun c s =>
    s.modPort p (fun x =>
      let l := acknowledged x.replay (bitsOf c 0 12)
      { x with replay := l, episodes := if l.length = x.replay.length then x.episodes else 0 }))

/-- A resend episode: the packets from a place of the replay buffer on are sent again and consume credits again; the 16th
without progress starts a retrain (R365, R367). -/
def State.resend (s : State) (p : Nat) (l : List SentPacket) : State :=
  if l.isEmpty then s
  else
    let flits := (l.map (fun r => r.pkt.size)).foldl (· + ·) 0
    let s1 := s.modPort p (fun x =>
      { x with used := l.foldl (fun u r => addAt u r.pkt.vc r.pkt.size) x.used, episodes := x.episodes + 1 })
    let s2 := (s1.bump (Reg.PORT_REPLAYS p) 1).bump (Reg.PORT_FLITS_TX p) flits
    if 16 ≤ (s2.port p).episodes then s2.startRetrain p else s2

/-- NAK (R367). -/
def doNak (p : Nat) (content : BitVec 48) (crc : BitVec 8) (s : State) : State :=
  s.blockUp p 0x4B content crc (fun c s =>
    s.resend p ((s.port p).replay.dropWhile (fun r => decide (r.seq ≠ bitsOf c 0 12))))

/-- REPLAY_TIMEOUT (R367). -/
def doReplayTimeout (p : Nat) (s : State) : State := if s.portState p = 4 then s.resend p (s.port p).replay else s

/-- CREDIT_TIMER (R365). -/
def doCreditTimer (p : Nat) (s : State) : State :=
  let x := s.port p
  if s.portState p = 4 && x.creditDue then
    (s.sendBlock p 0x2D ((x.freed.mapIdx (fun v n => n * 2 ^ (12 * v))).foldl (· + ·) 0)).modPort p (fun x => { x with creditDue := false })
  else s

/-- ACK_TIMER (R366). -/
def doAckTimer (p : Nat) (s : State) : State :=
  let x := s.port p
  if s.portState p = 4 && x.ackDue then
    (s.sendBlock p 0x33 ((x.rxSeq + 4095) % 4096)).modPort p (fun x => { x with ackDue := false })
  else s

/-! ### Packets (R364 to R367) -/

/-- The packet that flits spell, header to trailer, with its SEQ; none where its length or its CRC is wrong (R364). -/
def packetOf (flits : List (BitVec 64)) : Option (Packet × Nat) :=
  let l := flits.map BitVec.toNat
  let h := l.headD 0
  let t := l.getLastD 0
  let len := bitsOf h 38 6
  let body := (l.drop 1).take len
  let crc := crc32c (bytesOfFlits (h :: body) ++ leBytes (bitsOf t 0 32) 4)
  if l.length = len + 2 ∧ len ≤ 33 ∧ bitsOf t 32 32 = crc then
    some ({ dest := bitsOf h 0 16, src := bitsOf h 16 16, vc := bitsOf h 32 2, typ := bitsOf h 34 4, tid := bitsOf h 44 12
            poison := bitsOf h 56 4, flits := body }, bitsOf t 0 12)
  else none

/-- Flits leave port p's buffer for VC v: their credits return (R365). -/
def State.freeFlits (s : State) (p v n : Nat) : State :=
  s.modPort p (fun x => { x with freed := addAt x.freed v n, creditDue := true })

/-- One NAK for the SEQ expected, and no further until it arrives (R366). -/
def State.sendNak (s : State) (p : Nat) : State :=
  if (s.port p).nak then s
  else (s.sendBlock p 0x4B (s.port p).rxSeq).modPort p (fun x => { x with nak := true })

/-- An accepted packet enters the input buffer: it is for here, or a broadcast to copy (R366, R369). -/
def State.acceptPacket (s : State) (p : Nat) (k : Packet) : State :=
  let bcast := decide (k.dest = everyNode)
  let e : InPacket := { pkt := k, here := bcast || decide (k.dest = s.node), outs := if bcast then s.broadcastPorts k.src else [] }
  (s.modPort p (fun x =>
    { x with rxSeq := (x.rxSeq + 1) % 4096, nak := false, ackDue := true, inBuf := x.inBuf ++ [e] })).bump (Reg.PORT_FLITS_RX p) k.size

/-- PACKET_RECEIVE (R364 to R366). -/
def doPacketReceive (p : Nat) (flits : List (BitVec 64)) (s : State) : State :=
  if s.portState p ≠ 4 then s
  else
    let v := bitsOf ((flits.map BitVec.toNat).headD 0) 32 2
    match packetOf flits with
    | none => ((s.bump (Reg.PORT_CRC_ERRORS p) 1).freeFlits p v flits.length).sendNak p
    | some (k, seq) =>
      let d := (seq + 4096 - (s.port p).rxSeq) % 4096
      if d = 0 then s.acceptPacket p k
      else if 2048 ≤ d then (s.freeFlits p v k.size).modPort p (fun x => { x with ackDue := true })
      else (s.freeFlits p v k.size).sendNak p

/-! ### Routing and sending (R365, R369, R370) -/

/-- The link on port p of this node is the wrap link of its ring (R370). -/
def State.wrapLink (s : State) (p : Nat) : Bool :=
  match p with
  | 0 => decide (nodeX s.node + 1 = s.extentX)
  | 1 => decide (nodeX s.node = 0)
  | 2 => decide (nodeY s.node + 1 = s.extentY)
  | _ => decide (nodeY s.node = 0)

/-- The VC on which a packet from source `src` (a port, or 4 for this node) leaves on port p (R370). -/
def State.outVc (s : State) (k : Packet) (src p : Nat) : Nat :=
  let odd := (decide (src < 4) && decide (src / 2 = p / 2) && decide (k.vc % 2 = 1)) || s.wrapLink p
  2 * messageClass k.typ + b2n odd

/-- The packets of a source, oldest first. -/
def State.sourceList (s : State) (src : Nat) : List InPacket := if src < 4 then (s.port src).inBuf else s.felt.inject

/-- A packet is to leave on port p. -/
def State.leavesOn (s : State) (e : InPacket) (p : Nat) : Bool :=
  if e.pkt.dest = everyNode then e.outs.contains p
  else if e.here then false
  else decide (s.hop s.node e.pkt.dest = .port p)

/-- The packets of a list at the head of their VC. -/
def vcHeads : List InPacket → List Nat → List InPacket
  | [], _ => []
  | e :: l, seen => if seen.contains e.pkt.vc then vcHeads l seen else e :: vcHeads l (e.pkt.vc :: seen)

/-- Port p can take a packet of this length on a VC: credits, and room in the replay buffer (R365, R367). -/
def State.canSend (s : State) (p v n : Nat) : Bool :=
  let x := s.port p
  let out := (x.used.getD v 0 + 4096 - x.given.getD v 0) % 4096
  let kept := (x.replay.map (fun r => r.pkt.size)).foldl (· + ·) 0
  decide (out + n ≤ 128) && decide (kept + n ≤ 2048)

/-- The packet that port p sends next, with its source: class 1 before class 0, then the sources in turn (R370). -/
def State.nextToSend (s : State) (p : Nat) : Option (Nat × InPacket) :=
  let order := (List.range 5).map (fun i => ((s.port p).lastIn + 1 + i) % 5)
  let pick := fun (c : Nat) => order.findSome? (fun src =>
    ((vcHeads (s.sourceList src) []).find? (fun e => decide (messageClass e.pkt.typ = c) && s.leavesOn e p &&
      s.canSend p (s.outVc e.pkt src p) e.pkt.size)).map (fun e => (src, e)))
  (pick 1).orElse (fun _ => pick 0)

/-- An entry of a source is changed, or removed where nothing of it is left to do; its credits then return. -/
def State.afterCopy (s : State) (src : Nat) (e f : InPacket) (rest : Bool) : State :=
  let upd := fun (l : List InPacket) => if rest then l.map (fun x => if x = e then f else x) else l.erase e
  if src < 4 then
    let s1 := s.modPort src (fun x => { x with inBuf := upd x.inBuf })
    if rest then s1 else s1.freeFlits src e.pkt.vc e.pkt.size
  else { s with felt := { s.felt with inject := upd s.felt.inject } }

/-- Port p sends one packet, if one can go. -/
def State.sendOne (s : State) (p : Nat) : Option State :=
  if s.portState p ≠ 4 then none
  else match s.nextToSend p with
  | none => none
  | some (src, e) =>
    let v := s.outVc e.pkt src p
    let k := { e.pkt with vc := v }
    let outs := e.outs.filter (fun q => decide (q ≠ p))
    let s1 := s.modPort p (fun x =>
      { x with replay := x.replay ++ [{ seq := x.txSeq, pkt := k }], txSeq := (x.txSeq + 1) % 4096
               used := addAt x.used v k.size, lastIn := src })
    some ((s1.bump (Reg.PORT_FLITS_TX p) k.size).afterCopy src e { e with outs := outs } (e.here || !outs.isEmpty))

/-- A broadcast's copies for a port whose link the map holds to be down are not made, and a broadcast of a reserved type is
not delivered here. -/
def State.trimCopies (s : State) (e : InPacket) : InPacket :=
  if e.pkt.dest = everyNode then
    let outs := e.outs.filter (fun p => s.linkUp s.node p)
    { e with outs := outs, here := e.here && (decide (e.pkt.typ < 9) || outs.isEmpty) }
  else e

/-- Copies that cannot be made are given up; a broadcast of which nothing is left to do leaves its buffer. -/
def State.trimBroadcasts (s : State) : State :=
  let ports := (List.range 4).foldl (fun s p =>
    let new := (s.port p).inBuf.map s.trimCopies
    let spent := fun (e : InPacket) => decide (e.pkt.dest = everyNode) && e.outs.isEmpty && !e.here
    if new = (s.port p).inBuf then s
    else (new.filter spent).foldl (fun s e => s.freeFlits p e.pkt.vc e.pkt.size)
      (s.modPort p (fun x => { x with inBuf := new.filter (fun e => !spent e) }))) s
  { ports with felt := { ports.felt with inject := ports.felt.inject.map ports.trimCopies } }

/-- Packets that no path leads on are discarded (R369), as are those here of a reserved type (R372), and this node's own
broadcasts that no port is left to take. Copies of a broadcast for a link that has gone down are not made (DESIGN CHOICE. Log
entry 46). -/
def State.discardLost (s : State) : State :=
  let s := s.trimBroadcasts
  let lost := fun (e : InPacket) => decide (e.pkt.dest ≠ everyNode) && !e.here && decide (s.hop s.node e.pkt.dest = .nowhere)
  let odd := fun (e : InPacket) => e.here && decide (9 ≤ e.pkt.typ)
  let s1 := (List.range 4).foldl (fun s p =>
    let gone := (s.port p).inBuf.filter (fun e => lost e || odd e)
    if gone.isEmpty then s
    else
      let s1 := s.modPort p (fun x => { x with inBuf := x.inBuf.filter (fun e => !(lost e || odd e)) })
      let s2 := gone.foldl (fun s e => s.freeFlits p e.pkt.vc e.pkt.size) s1
      (s2.bump Reg.FELT_UNREACHABLE (gone.filter lost).length).bump Reg.FELT_DISCARDED_PKTS (gone.filter odd).length) s
  let mine := s1.felt.inject
  let spent := fun (e : InPacket) => decide (e.pkt.dest = everyNode) && e.outs.isEmpty
  if mine.any (fun e => lost e || spent e) then
    ({ s1 with felt := { s1.felt with inject := mine.filter (fun e => !(lost e || spent e)) } } : State).bump Reg.FELT_UNREACHABLE
      (mine.filter lost).length
  else s1

/-- The ports send what they can; the argument bounds the packets. -/
def State.feltFlow : Nat → State → State
  | 0, s => s
  | fuel + 1, s =>
    match (List.range 4).findSome? s.sendOne with
    | some s1 => State.feltFlow fuel s1
    | none => s

/-- Everything the network can do now. -/
def State.feltRun (s : State) : State :=
  let s1 := s.showPorts.discardLost
  let n := ((List.range 5).map (fun src => (s1.sourceList src).length)).foldl (· + ·) 0
  State.feltFlow (4 * n) s1

/-! ### Cell time and its synchronisation (R377 to R380) -/

/-- This device is the root of cell time. -/
def State.isTimeRoot (s : State) : Bool := decide (s.node = s.fld Reg.FELT_CFG_TIME_ROOT)

/-- The port towards the node of R278's rule with TIME_ROOT in place of ROOT (R378). -/
def State.rootPort (s : State) : Option Nat :=
  let r := s.fld Reg.FELT_CFG_TIME_ROOT
  let dx := (nodeX r + s.extentX - nodeX s.node) % s.extentX
  let dy := (nodeY r + s.extentY - nodeY s.node) % s.extentY
  if dx ≠ 0 then some (if dx ≤ s.extentX - dx then 0 else 1)
  else if dy ≠ 0 then some (if dy ≤ s.extentY - dy then 2 else 3)
  else none

/-- The port of the sync parent (R378): the tree's, if UP; else the UP neighbour of lowest depth that is ROOT or LOCKED, of
lowest node number on a tie. -/
def State.syncParent (s : State) : Option Nat :=
  match s.rootPort with
  | none => none
  | some r =>
    if s.portState r = 4 then some r
    else
      let able := (List.range 4).filterMap (fun p =>
        match (s.port p).info with
        | some (d, st) => if s.portState p = 4 ∧ (st = 0 ∨ st = 3) then some (d, s.fld (Reg.PORT_STATUS_NEIGHBOUR p), p) else none
        | none => none)
      (able.foldl (fun (b : Option (Nat × Nat × Nat)) x =>
        match b with
        | none => some x
        | some y => if x.1 < y.1 ∨ (x.1 = y.1 ∧ x.2.1 < y.2.1) then some x else some y) none).map (fun x => x.2.2)

/-- SYNC_STATE becomes `k`: each change raises the cell-time event (R380). -/
def State.setSync (s : State) (k : Nat) : State :=
  if s.fld Reg.FELT_STATUS_SYNC_STATE = k then s
  else
    let f := s.felt
    (({ s with felt := { f with near := 0, far := 0, stepped := false } } : State).setFld Reg.FELT_STATUS_SYNC_STATE k).raise 13 0 k

/-- SYNC_PORT, SYNC_DEPTH and SYNC_STATE follow the links (R378, R380). -/
def State.showSync (s : State) : State :=
  if s.isTimeRoot then (s.setFld Reg.FELT_STATUS_SYNC_DEPTH 0).setSync 0
  else
    let parent := s.syncParent
    let valid := parent.any (fun p => s.flag (Reg.PORT_STATUS_HOP_VALID p))
    let s1 := match parent with
      | some p =>
        let s1 := s.setFld Reg.FELT_STATUS_SYNC_PORT p
        match (s.port p).info with
        | some (d, _) => s1.setFld Reg.FELT_STATUS_SYNC_DEPTH (d + 1)
        | none => s1
      | none => s
    let st := s1.fld Reg.FELT_STATUS_SYNC_STATE
    let s2 := if st = 0 then s1.setSync 1
      else if st = 3 ∧ !valid then s1.setSync 2
      else if st = 4 then s1.setSync (if valid then 2 else 1)
      else s1
    if s2.fld Reg.FELT_STATUS_SYNC_STATE = 1 ∧ valid then s2.setSync 2 else s2

/-- SYNC_EXCHANGE_TIMER on port p: a hop-delay exchange starts, its request leaving at fine time t1 (R379). -/
def doSyncExchange (p : Nat) (t1 : BitVec 64) (s : State) : State :=
  if s.portState p ≠ 4 then s
  else
    let n := ((s.port p).exchange + 1) % 256
    (s.sendBlock p 0x55 n).modPort p (fun x => { x with exchange := n, t1 := some t1.toNat })

/-- SYNC_REQ arrives at fine time t2 and is answered at t3 (R379). -/
def doSyncReq (p : Nat) (content : BitVec 48) (crc : BitVec 8) (t2 t3 : BitVec 64) (s : State) : State :=
  s.blockUp p 0x55 content crc (fun c s => s.sendBlock p 0x66 (bitsOf c 0 8 + 2 ^ 8 * ((t3 - t2).toNat % 2 ^ 40)))

/-- SYNC_RSP arrives at fine time t4: HOP_DELAY is the mean of the last 64 exchanges, valid after 64 (R379). -/
def doSyncRsp (p : Nat) (content : BitVec 48) (crc : BitVec 8) (t4 : BitVec 64) (s : State) : State :=
  s.blockUp p 0x66 content crc (fun c s =>
    let x := s.port p
    match x.t1 with
    | none => s
    | some t1 =>
      if bitsOf c 0 8 ≠ x.exchange then s
      else
        let d : Int := ((((t4.toNat + 2 ^ 64 - t1) % 2 ^ 64 : Nat) : Int) - (bitsOf c 8 40 : Int)) / 2
        let l := (x.delays ++ [d]).drop (x.delays.length + 1 - 64)
        let s1 := s.modPort p (fun x => { x with t1 := none, delays := l })
        let s2 := s1.setFld (Reg.HOP_DELAY p) (ofSigned 64 (l.sum / (l.length : Int)))
        if l.length = 64 then s2.setFlag (Reg.PORT_STATUS_HOP_VALID p) true else s2)

/-- SYNC_PULSE_TIMER: SYNC_PULSE at fine time t, SYNC_INFO and, every tenth time, TIME_HI on each UP port (R378, R380). -/
def doSyncPulseTimer (t : BitVec 64) (hi : Bool) (s : State) : State :=
  (List.range 4).foldl (fun s p =>
    if s.portState p ≠ 4 then s
    else
      let s1 := (s.sendBlock p 0x78 (t.toNat % 2 ^ 48)).sendBlock p 0xB4
        (s.fld Reg.FELT_STATUS_SYNC_DEPTH + 2 ^ 9 * s.fld Reg.FELT_STATUS_SYNC_STATE)
      if hi then s1.sendBlock p 0xC3 (bitsOf s.now 48 16 + 2 ^ 16 * s.fld Reg.EPOCH) else s1) s

/-- SYNC_INFO (R378). -/
def doSyncInfo (p : Nat) (content : BitVec 48) (crc : BitVec 8) (s : State) : State :=
  s.blockUp p 0xB4 content crc (fun c s => s.modPort p (fun x => { x with info := some (bitsOf c 0 9, bitsOf c 9 3) }))

/-- TIME_HI (R380). -/
def doTimeHi (p : Nat) (content : BitVec 48) (crc : BitVec 8) (s : State) : State :=
  s.blockUp p 0xC3 content crc (fun c s => s.modPort p (fun x => { x with timeHi := some c }))

/-- HOLDOVER_TIMEOUT (R380). -/
def doHoldoverTimeout (s : State) : State := if s.fld Reg.FELT_STATUS_SYNC_STATE = 3 then s.setSync 4 else s

/-- ADJ's limit of ±0.1 ps in units of 2^-32 ps (R377). -/
def adjLimit : Nat := 429496729

/-- The loop slews ADJ: by how much the spec does not say, so its value within the limit is free (R377, R380). -/
def State.slew (s : State) : State :=
  let r := s.draw 32
  let f := r.2.felt
  { r.2 with felt := { f with adj := ((r.1 % (2 * adjLimit + 1) : Nat) : Int) - (adjLimit : Int) } }

/-- The counter and EPOCH become a time with its epoch as one number. -/
def State.setTime (s : State) (t : Nat) : State := (s.setFld Reg.CELL_TIME (t % 2 ^ 64)).setFld Reg.EPOCH (t / 2 ^ 64)

/-- Time of a pulse from the sync parent in full: its upper bits from the child's own counter, or from TIME_HI in ACQUIRING
(R380). -/
def State.pulseTime (s : State) (p low : Nat) : Nat :=
  match (s.port p).timeHi with
  | some h => if s.fld Reg.FELT_STATUS_SYNC_STATE = 2 then bitsOf h 0 16 * 2 ^ 48 + low else bitsOf s.now 48 16 * 2 ^ 48 + low
  | none => bitsOf s.now 48 16 * 2 ^ 48 + low

/-- SYNC_PULSE arrives at fine time ta (R380); `k` does what a step of the counter to a new time brings about (R383). -/
def syncPulse (k : Nat → State → State) (p : Nat) (content : BitVec 48) (crc : BitVec 8) (ta : BitVec 64) (s : State) : State :=
  s.blockUp p 0x78 content crc (fun c s =>
    if s.isTimeRoot || decide (s.syncParent ≠ some p) || decide (s.fld Reg.FELT_STATUS_SYNC_STATE < 2) then s
    else
      let tp := s.pulseTime p c
      let offset := toSigned 64 ((tp + s.fld (Reg.HOP_DELAY p) + 2 ^ 64 - ta.toNat) % 2 ^ 64)
      let s1 := s.setFld Reg.OFFSET (ofSigned 64 offset)
      let st := s.fld Reg.FELT_STATUS_SYNC_STATE
      let f := s1.felt
      match (s.port p).timeHi with
      | some h =>
        if st = 2 ∧ !f.stepped ∧ 1000000 < offset.natAbs then
          let now := s.fld Reg.EPOCH * 2 ^ 64 + s.now
          let stepTo := bitsOf h 16 32 * 2 ^ 64 + ofSigned 64 ((s.now : Int) + offset)
          let s2 := ({ s1 with felt := { f with stepped := true, near := 0, far := 0 } } : State).setTime stepTo
          k now s2
        else countPulse offset s1
      | none => if st = 2 ∧ !f.stepped ∧ 1000000 < offset.natAbs then s1 else countPulse offset s1)
where
  /-- A pulse that does not step the counter: 64 within ±10 ps lock, 8 beyond ±100 ps unlock (R380). -/
  countPulse (offset : Int) (s : State) : State :=
    let f := s.felt
    let near := if offset.natAbs ≤ 10 then f.near + 1 else 0
    let far := if 100 < offset.natAbs then f.far + 1 else 0
    let s1 := ({ s with felt := { f with near := near, far := far } } : State).slew
    let st := s.fld Reg.FELT_STATUS_SYNC_STATE
    if st = 4 then s
    else if st = 2 ∧ 64 ≤ near then s1.setSync 3
    else if st = 3 ∧ 8 ≤ far then s1.setSync 2
    else s1

/-- One cycle of the cell-time domain: the counter adds 1,000 ps + ADJ, and EPOCH advances when it wraps (R377). -/
def State.tickTime (s : State) : State :=
  let total : Int := (s.felt.frac : Int) + s.felt.adj
  let whole := total / (2 ^ 32 : Int)
  let t := (s.fld Reg.EPOCH * 2 ^ 64 + s.now + 1000 : Nat)
  let u := ((t : Int) + whole).toNat
  let f := s.felt
  (({ s with felt := { f with frac := (total % (2 ^ 32 : Int)).toNat } } : State).setTime (u % 2 ^ 96))

end Sys2Proof.Machine
end

