-- ==== Sys2Proof/Machine/FeltMsg.lean ====
section
/-! DEFINITION. Felt messages and commands: remote memory access, reduction bodies, link states, FELT_COPY and scheduled
starts (spec/17, R371 to R376, R381 to R385). -/

namespace Sys2Proof.Machine

open Sys2Proof

/-! ### Messages that have arrived -/

/-- The first packet of a type for here that is at the head of its VC in port p's buffer. -/
def State.arrived (s : State) (p typ : Nat) : Option InPacket :=
  (vcHeads (s.port p).inBuf []).find? (fun e => e.here && decide (e.pkt.typ = typ))

/-- The message has been taken: the packet leaves, or waits to be copied further. -/
def State.taken' (s : State) (p : Nat) (e : InPacket) : State := s.afterCopy p e { e with here := false } (!e.outs.isEmpty)

/-- A message of a type at port p is handled: by `k`, which answers none where it must wait. -/
def message (typ : Nat) (k : Nat → Packet → State → Option State) (p : Nat) (s : State) : State :=
  match s.arrived p typ with
  | none => s
  | some e =>
    match k p e.pkt (s.taken' p e) with
    | some s1 => s1
    | none => s

/-- The same, for a message that needs device memory or the population engine: it wakes an idle device and waits for it
(R426). -/
def wakingMessage (typ : Nat) (k : Nat → Packet → State → Bool × State) (p : Nat) (s : State) : State :=
  match s.arrived p typ with
  | none => s
  | some e =>
    if s.idling then s.startExit
    else
      match k p e.pkt s with
      | (true, s1) => s1.taken' p e
      | (false, s1) => s1

/-! ### Remote requests (R374) -/

/-- Flit i of a packet. -/
def Packet.flit (k : Packet) (i : Nat) : Nat := k.flits.getD i 0

/-- Target address and byte count of a request (R372). -/
def Packet.reqVa (k : Packet) : Nat := bitsOf (k.flit 0) 0 48
def Packet.reqBytes (k : Packet) : Nat := bitsOf (k.flit 0) 48 8 + 1

/-- The bytes a request or response carries. -/
def Packet.data (k : Packet) (n : Nat) : List Byte := (bytesOfFlits (k.flits.drop 1)).take n

/-- The answer to a request: status and fault kind, with data and poison for a read. -/
def State.answer (s : State) (k : Packet) (typ st kind : Nat) (data : List Byte) (poison : Nat) : State :=
  s.feltSend k.src typ k.tid poison ((st + 2 ^ 8 * kind) :: flitsOf 32 data)

/-- Peers may access the region of an address (R374). -/
def State.peerMay (s : State) (va : Nat) : Bool := bitOf (s.fld Reg.FELT_REGIONS) (bitsOf va 42 6)

/-- Who accesses memory for a message of port p. -/
def feltCtx (p : Nat) : MemCtx := { engine := 7, unit := p }

/-- The poison flags of bytes by the 64-byte blocks of a payload (R364). -/
def payloadFlags (poison n : Nat) : List Bool := (List.range n).map (fun i => bitOf poison (i / 64))

/-- Data written at `va` with the poison of its payload blocks. -/
def State.writePayload (s : State) (x : MemCtx) (va : Nat) (data : List Byte) (poison : Nat) : DmaGot × State :=
  dmaWriteRuns x va (poisonRuns (data.zip (payloadFlags poison data.length))) data.length s

/-- WRITE_REQ on port p (R374). -/
def doWriteReq : Nat → State → State :=
  wakingMessage 0 (fun p k s =>
    if !s.peerMay k.reqVa then (true, s.answer k 2 0x11 2 [] 0)
    else
      match s.writePayload (feltCtx p) k.reqVa (k.data k.reqBytes) k.poison with
      | (.ok _ _, s1) => (true, s1.answer k 2 0 0xFF [] 0)
      | (.fault _ kind _, s1) => (true, s1.answer k 2 (kindStatus kind) kind [] 0)
      | (.wait _, s1) => (false, s1))

/-- The poison bits of data read from segments: bit b where a byte of its 64-byte block b is poisoned. -/
def State.payloadPoison (s : State) (l : List (Nat × Nat)) : Nat :=
  ofBits (((s.poisonFlags l).zipIdx.filter (fun x => x.1)).map (fun x => x.2 / 64))

/-- READ_REQ on port p (R374). -/
def doReadReq : Nat → State → State :=
  wakingMessage 1 (fun p k s =>
    if !s.peerMay k.reqVa then (true, s.answer k 3 0x11 2 [] 0)
    else
      match dmaGather (feltCtx p) [(k.reqVa, k.reqBytes)] [] none s with
      | (.ok d none, s1) => (true, s1.answer k 3 0 0xFF d 0)
      | (.ok d (some f), s1) => (true, s1.answer k 3 0x12 f.2 d (s1.payloadPoison [(k.reqVa, k.reqBytes)]))
      | (.fault _ kind _, s1) => (true, s1.answer k 3 (kindStatus kind) kind [] 0)
      | (.wait _, s1) => (false, s1))

/-! ### FELT_COPY (R376) -/

/-- The copy of a command, changed. -/
def State.modCopy (s : State) (c : Cmd) (f : FeltCopy → FeltCopy) : State :=
  { s with felt := { s.felt with copies := s.felt.copies.map (fun x => if x.cmd = c then f x else x) } }

/-- Two outcomes of one chunk: the first in the order of R16, the earlier on a tie. -/
def worseOutcome (a : Option (Nat × Nat × Nat × Nat)) (b : Nat × Nat × Nat × Nat) : Nat × Nat × Nat × Nat :=
  match a with
  | none => b
  | some x => if first16 x.1 b.1 = x.1 then x else b

/-- A copy ends with a status, FAULT_VA, FAULT_KIND and FAULT_SIDE (R375, R376). -/
def State.endCopy (s : State) (x : FeltCopy) (st va kind side : Nat) : State :=
  let status := first16 (if x.poisoned ≠ 0 then 0x12 else 0) st
  let s1 := { s with felt := { s.felt with copies := s.felt.copies.filter (fun y => decide (y.cmd ≠ x.cmd)) } }
  s1.complete x.cmd status (x.done % 2 ^ 64 + 2 ^ 64 * (va % 2 ^ 48) + 2 ^ 112 * kind + 2 ^ 120 * side +
    2 ^ 128 * min x.poisoned (2 ^ 32 - 1) + 2 ^ 160 * min x.preemptions (2 ^ 32 - 1))

/-- The pieces of `n` bytes from byte `off` of a copy: of at most 256 bytes, crossing no 4 KiB boundary of either side; the
first argument bounds them (R376). -/
def copyPieces (x : FeltCopy) : Nat → Nat → Nat → List (Nat × Nat)
  | 0, _, _ => []
  | fuel + 1, off, n =>
    if n = 0 then []
    else
      let m := min (min n 256) (min (4096 - (x.near + off) % 4096) (4096 - (x.far + off) % 4096))
      (off, m) :: copyPieces x fuel (off + m) (n - m)

/-- The port on which messages to a node leave; the unit of the copy's own accesses (R319). -/
def State.portTo (s : State) (node : Nat) : Nat := match s.hop s.node node with | .port p => p | _ => 0

/-- Messages of a chunk are sent, each with a transaction number of its own. -/
def State.sendCopy (s : State) (x : FeltCopy) (typ : Nat) : List (Nat × Nat × List Byte × Nat) → State
  | [] => s
  | (off, n, data, poison) :: l =>
    let t := s.felt.tid
    let s1 := ({ s with felt := { s.felt with tid := (t + 1) % 4096 } } : State).feltSend x.node typ t poison
      ((x.far + off + 2 ^ 48 * (n - 1)) :: flitsOf 32 data)
    State.sendCopy (s1.modCopy x.cmd (fun y => { y with flight := y.flight ++ [{ tid := t, off := off, size := n }] })) x typ l

/-- The next chunk of a copy starts: its messages go out, or it waits on a page, or it ends. -/
def State.startCopyChunk (s : State) (x : FeltCopy) : State :=
  let n := min 4096 (x.length - x.done)
  let pieces := copyPieces x 64 x.done n
  let s0 := s.modCopy x.cmd (fun y => { y with started := y.started.orElse (fun _ => some s.absNow) })
  if !s.reachable x.node then (s0.bump Reg.FELT_UNREACHABLE 1).endCopy x 0x60 0 0xFF 2
  else if !x.toRemote then s0.sendCopy x 1 (pieces.map (fun q => (q.1, q.2, [], 0)))
  else
    let segs := [(x.near + x.done, n)]
    match dmaGather { engine := 7, unit := s.portTo x.node, consumes := false } segs [] none s0 with
    | (.wait _, s1) => s1
    | (.fault va kind before, s1) =>
      let y := { x with poisoned := x.poisoned + s1.poisonedIn segs before }
      s1.endCopy y (kindStatus kind) va kind 0
    | (.ok d _, s1) =>
      let s2 := s1.modCopy x.cmd (fun y => { y with poisoned := y.poisoned + s1.poisonedIn segs n })
      s2.sendCopy x 0 (pieces.map (fun q =>
        (q.1, q.2, (d.drop (q.1 - x.done)).take q.2, s1.payloadPoison [(x.near + q.1, q.2)])))

/-- A copy's time has run out (R376). -/
def State.copyLate (s : State) (x : FeltCopy) : Bool := decide (x.limit ≠ 0) && x.started.any (fun t => decide (t + x.limit ≤ s.absNow))

/-- A chunk of a copy whose messages are all answered ends: with its outcome, the time limit's among them (R16, R385), or
written and counted. -/
def State.endCopyChunk (s : State) (x : FeltCopy) : State :=
  let n := (x.flight.map (fun m => m.size)).foldl (· + ·) 0
  match if s.copyLate x then some (worseOutcome x.outcome (0x60, 0, 0xFF, 0)) else x.outcome with
  | some (st, va, kind, side) => s.endCopy x st va kind side
  | none =>
    let ctx : MemCtx := { engine := 7, unit := s.portTo x.node, consumes := false }
    let bytes := x.flight.flatMap (fun m => (m.data.take m.size).zip (payloadFlags m.poison m.size))
    let w := if x.toRemote then (DmaGot.ok [] none, s) else dmaWriteRuns ctx (x.near + x.done) (poisonRuns bytes) n s
    match w with
    | (.wait _, s1) => s1
    | (.fault va kind _, s1) => s1.endCopy x (kindStatus kind) va kind 0
    | (.ok _ _, s1) =>
      let y := { x with done := x.done + n, flight := [] }
      if x.length ≤ y.done then s1.endCopy y 0 0 0xFF 0 else s1.modCopy x.cmd (fun _ => y)

/-- The copy of the highest class, the earliest held of those. -/
def bestCopy : List FeltCopy → Option FeltCopy
  | [] => none
  | x :: l =>
    match bestCopy l with
    | none => some x
    | some y => if y.cls ≤ x.cls then some x else some y

/-- One action of the message layer for its copies, if one can be made now. -/
def State.copyStep (s : State) : State :=
  match s.felt.copies.find? (fun x => x.flight.isEmpty && s.copyLate x) with
  | some x => s.endCopy x 0x60 0 0xFF 0
  | none =>
    match s.felt.copies.find? (fun x => x.running) with
    | some x =>
      if !x.flight.isEmpty then (if x.flight.all (fun m => m.answered) then s.endCopyChunk x else s)
      else
        match bestCopy s.felt.copies with
        | some y =>
          if x.cls < y.cls then
            (s.modCopy x.cmd (fun x => { x with running := false, preemptions := x.preemptions + 1 })).modCopy y.cmd
              (fun y => { y with running := true })
          else s.startCopyChunk x
        | none => s
    | none =>
      match bestCopy s.felt.copies with
      | some y => s.modCopy y.cmd (fun y => { y with running := true })
      | none => s

/-- Copies go on as far as they can; the argument bounds the actions. -/
def State.copyRun : Nat → State → State
  | 0, s => s
  | fuel + 1, s =>
    let s1 := s.copyStep
    if s1.felt.copies = s.felt.copies then s1 else State.copyRun fuel s1

/-- One Felt port at least, and further units (R473). -/
def State.feltChecks (s : State) (us : List Nat) : List (Bool × Nat) :=
  [(!s.anyPort s.present || us.any (fun u => !s.present u), 0x21), (!s.anyPort s.ready || us.any (fun u => !s.ready u), 0x22)]

/-- FELT_COPY (R375, R376). -/
def doFeltCopy (c : Cmd) (s : State) : State :=
  let node := c.field 10 2
  let bad := c.reservedSet [(8, 1), (10, 2), (16, 8), (24, 8), (32, 8), (40, 8)] || decide (c.target ≠ 0) || decide (1 < c.field 8 1) ||
    decide (2 ^ 48 ≤ c.field 16 8) || decide (2 ^ 48 ≤ c.field 24 8) || decide (c.field 32 8 = 0) || decide (2 ^ 40 < c.field 32 8) ||
    decide (node = s.node) || decide (s.extentX ≤ nodeX node) || decide (s.extentY ≤ nodeY node)
  s.checked c ((bad, 0x7F) :: s.feltChecks [memUnit]) (fun s =>
    let x : FeltCopy := { cmd := c, toRemote := decide (c.field 8 1 = 0), node := node, near := c.field 16 8, far := c.field 24 8
                          length := c.field 32 8, limit := c.field 40 8, cls := c.priority }
    { s with felt := { s.felt with copies := s.felt.copies ++ [x] } })

/-- The answer to a transaction is recorded with its copy; an answer that no copy awaits is dropped. -/
def State.answered' (s : State) (tid : Nat) (f : FeltCopy → CopyMsg → FeltCopy) : State :=
  match s.felt.copies.find? (fun x => x.flight.any (fun m => decide (m.tid = tid) && !m.answered)) with
  | none => s
  | some x =>
    match x.flight.find? (fun m => decide (m.tid = tid) && !m.answered) with
    | none => s
    | some m => s.modCopy x.cmd (fun x => f x m)

/-- A message of a copy is answered, in place. -/
def FeltCopy.answer (x : FeltCopy) (m : CopyMsg) : FeltCopy :=
  { x with flight := x.flight.map (fun y => if y.tid = m.tid then m else y) }

/-- WRITE_RSP on port p (R376). -/
def doWriteRsp : Nat → State → State :=
  message 2 (fun _ k s =>
    let st := bitsOf (k.flit 0) 0 8
    some (s.answered' k.tid (fun x m =>
      let y := x.answer { m with answered := true }
      if st = 0 then y else { y with outcome := some (worseOutcome x.outcome (st, x.far + m.off, bitsOf (k.flit 0) 8 8, 1)) })))

/-- READ_RSP on port p (R376). -/
def doReadRsp : Nat → State → State :=
  message 3 (fun _ k s =>
    let st := bitsOf (k.flit 0) 0 8
    some (s.answered' k.tid (fun x m =>
      if st = 0 ∨ st = 0x12 then
        let y := x.answer { m with answered := true, data := k.data m.size, poison := k.poison }
        { y with poisoned := y.poisoned + (setBits k.poison 4).length }
      else
        { x.answer { m with answered := true } with
            outcome := some (worseOutcome x.outcome (st, x.far + m.off, bitsOf (k.flit 0) 8 8, 1)) })))

/-- RSP_TIMEOUT of a transaction (R376). -/
def doRspTimeout (tid : Nat) (s : State) : State :=
  if s.felt.copies.any (fun x => x.flight.any (fun m => decide (m.tid = tid) && !m.answered)) then
    (s.bump Reg.FELT_RSP_TIMEOUTS 1).answered' tid (fun x m =>
      { x.answer { m with answered := true } with outcome := some (worseOutcome x.outcome (0x60, 0, 0xFF, 2)) })
  else s

/-! ### Reduction bodies (R373) -/

/-- A reassembled body is handed on; false where a page is awaited (R291, R373). -/
def State.handBody (s : State) (r : Reassembly) : Bool × State :=
  let body := r.got.flatMap (fun x => bytesOfFlits x.2)
  match r.kind with
  | 0 =>
    let n := (s.popFind r.test).elim 0 (fun t => t.2.bins)
    let go := s.popReport r.src r.test r.round r.check (leNat (body.take 4)) (bitOf (body.getD 4 0).toNat 0)
      (leNat ((body.drop 8).take 8)) (leNat ((body.drop 16).take 8)) (binsOf n (body.drop 24))
    match s.popFind r.test with
    | some (_, t) =>
      if !t.todo.isEmpty then (false, s)
      else if t.failedHere || t.reported || decide (2 ≤ t.state) then (true, go)
      else
        match s.workTouch t 0x4000 (4 * t.bins) with
        | (.wait, s1) => (false, s1)
        | _ => (true, go)
    | none => (true, go)
  | 1 => (true, s.popLimits r.test r.round r.check body)
  | 2 => (true, s.popFailure r.test r.round r.check)
  | _ => (true, s)

/-- Bodies that are whole are handed on and free their buffers. -/
def State.handBodies (s : State) : State :=
  s.felt.reassembly.foldl (fun s r =>
    if r.got.length = r.parts then
      match s.handBody r with
      | (true, s1) => { s1 with felt := { s1.felt with reassembly := s1.felt.reassembly.erase r } }
      | (false, s1) => s1
    else s) s

/-- Two parts belong to one body. -/
def Reassembly.sameBody (a b : Reassembly) : Bool :=
  decide (a.src = b.src) && decide (a.test = b.test) && decide (a.round = b.round) && decide (a.kind = b.kind) &&
    decide (a.check = b.check) && decide (a.parts = b.parts)

/-- REDUCE on port p: a part joins its body, takes one of the eight buffers, or waits for one (R373). -/
def doReduce : Nat → State → State :=
  wakingMessage 4 (fun _ k s =>
    let h := k.flit 0
    let part := bitsOf h 40 12
    let new : Reassembly := { src := k.src, test := bitsOf h 0 16, round := bitsOf h 16 16, kind := bitsOf h 32 8
                              check := bitsOf (k.flit 1) 0 32, parts := bitsOf h 52 12 + 1, got := [(part, k.flits.drop 2)] }
    if s.felt.reassembly.any new.sameBody then
      let l := s.felt.reassembly.map (fun r =>
        if new.sameBody r && (SMap.find r.got part).isNone && decide (part < r.parts) then { r with got := SMap.put r.got part (k.flits.drop 2) } else r)
      (true, ({ s with felt := { s.felt with reassembly := l } } : State).handBodies)
    else if new.parts ≤ part then (true, s)
    else if 8 ≤ s.felt.reassembly.length then (false, s)
    else (true, ({ s with felt := { s.felt with reassembly := s.felt.reassembly ++ [new] } } : State).handBodies))

/-- REASSEMBLY_TIMEOUT of a buffer (R373). -/
def doReassemblyTimeout (k : Nat) (s : State) : State :=
  match s.felt.reassembly[k]? with
  | some r =>
    if r.got.length = r.parts then s
    else ({ s with felt := { s.felt with reassembly := s.felt.reassembly.eraseIdx k } } : State).bump Reg.FELT_REASM_DROPS 1
  | none => s

/-! ### Link states (R371) -/

/-- LINK_STATE on port p. -/
def doLinkState : Nat → State → State :=
  message 7 (fun _ k s =>
    let f := k.flit 0
    let key := s.linkKey (bitsOf f 0 16) (bitsOf f 16 2)
    if (SMap.get (0, false) s.felt.links key).1 < bitsOf f 32 16 then
      some ({ s with felt := { s.felt with links := SMap.put s.felt.links key (bitsOf f 32 16, bitOf f 18) } } : State).showTree
    else some s)

/-! ### Scheduled starts (R381 to R385) -/

/-- STARTS_ARMED shows the slots. -/
def State.showStarts (s : State) : State := s.setFld Reg.FELT_STATUS_STARTS_ARMED s.felt.starts.length

/-- A start is armed, in the slot of its START_ID or a free one; false where eight others hold the slots (R382). -/
def State.armStart (s : State) (id t : Nat) : Bool × State :=
  let slot := (s.felt.starts.find? (fun x => decide (x.2.id = id))).elim
    ((List.range 8).find? (fun k => (SMap.find s.felt.starts k).isNone)) (fun x => some x.1)
  match slot with
  | none => (false, s)
  | some k => (true, ({ s with felt := { s.felt with starts := SMap.put s.felt.starts k { id := id, time := t } } } : State).showStarts)

/-- Leaders whose program is bound to a start slot and has not begun. -/
def State.boundTo (s : State) (k : Nat) : List Nat :=
  (s.programs.filter (fun g => decide (g.2.bound = some k) && g.2.scheduled)).map (fun g => g.1)

/-- A bound program completes without a word issued (R383, R384, R91). -/
def State.dropBound (s : State) (st b : Nat) : State :=
  let s1 := s.stopAllSites b st
  match s1.program b with
  | some g => s1.finishProgram b g
  | none => s1

/-- A start slot frees. -/
def State.freeStart (s : State) (k : Nat) : State :=
  ({ s with felt := { s.felt with starts := SMap.del s.felt.starts k } } : State).showStarts

/-- A start fires: every bound program begins, its vector 0 starting at the ball at T, the slot frees; a cluster that relocks ends its programs with 0x22; outside
ROOT and LOCKED, TIME_SUSPECT sets (R91, R383). -/
def State.fireStart (s : State) (k : Nat) : State :=
  let st := s.fld Reg.FELT_STATUS_SYNC_STATE
  let s1 := if st = 0 ∨ st = 3 then s else s.setFlag Reg.FELT_STATUS_TIME_SUSPECT true
  ((s1.boundTo k).foldl (fun s b =>
    if (s.groupClusters b).any (fun c => s.flag (Reg.CLK_STATUS_RELOCKING c)) then s.dropBound 0x22 b
    else s.modProgram b (fun g => { g with scheduled := false, bound := none, zero := (SMap.find s.felt.starts k).map (fun x => x.time % 2 ^ 64) }))
    s1).freeStart k

/-- Slot `k` holds a start whose T is at most `ps` ahead. -/
def State.startWithin (s : State) (k ps : Nat) : Bool := (SMap.find s.felt.starts k).any (fun x => decide (x.time ≤ s.absNow + ps))

/-- SCHEDULED_START of a slot, at T (R383). -/
def doScheduledStart (k : Nat) (s : State) : State := if s.startWithin k 0 then s.fireStart k else s

/-- START_FILL_DEADLINE of a slot: T − 2 µs (R383). -/
def doStartFillDeadline (k : Nat) (s : State) : State :=
  if !s.startWithin k 2000000 then s
  else (s.boundTo k).foldl (fun s b => if (s.program b).any (fun g => !g.fillsDue.isEmpty) then s.dropBound 0x60 b else s) s

/-- START_ALIGN of a slot: T − 5 µs (R383). -/
def doStartAlign (k : Nat) (s : State) : State :=
  if !s.startWithin k 5000000 then s
  else (List.range 32).foldl (fun s c =>
    if s.present c && s.flag (Reg.CLK_STATUS_LOCKED c) && !(clusterSeqs c).any (fun n => (s.program (s.leaderOf n)).any (fun g => !g.scheduled))
    then s.alignCluster c else s) s

/-- The counter has stepped from `old`: starts whose T was passed fire, and LATE_STARTS counts them; population deadlines pass (R281,
R383). -/
def timeStepped (old : Nat) (s : State) : State :=
  ((s.felt.starts.filter (fun x => decide (old < x.2.time) && decide (x.2.time ≤ s.absNow))).foldl
    (fun s x => (s.fireStart x.1).bump Reg.FELT_LATE_STARTS 1) s).passDeadlines

/-- SYNC_PULSE (R380, R383). -/
def doSyncPulse (p : Nat) (content : BitVec 48) (crc : BitVec 8) (ta : BitVec 64) (s : State) : State :=
  syncPulse timeStepped p content crc ta s

/-- A SCHEDULED program without a start binds to the armed start of the earliest T at least 10 µs ahead (R383). -/
def State.bindPrograms (s : State) : State :=
  let able := s.felt.starts.filter (fun x => decide (s.absNow + 10000000 ≤ x.2.time))
  let first := able.foldl (fun (b : Option (Nat × Start)) x =>
    match b with
    | none => some x
    | some y => if x.2.time < y.2.time then some x else some y) none
  match first with
  | none => s
  | some (k, _) =>
    (s.programs.filter (fun g => g.2.scheduled && g.2.bound.isNone)).foldl
      (fun s g => s.modProgram g.1 (fun g => { g with bound := some k })) s

/-- START on port p (R382). -/
def doStart : Nat → State → State :=
  message 5 (fun _ k s =>
    let id := bitsOf (k.flit 0) 0 16
    let r := s.armStart id (bitsOf (k.flit 2) 0 32 * 2 ^ 64 + k.flit 1)
    some (r.2.feltSend k.src 6 0 0 [id + 2 ^ 16 * b2n r.1 + 2 ^ 17 * b2n (!r.1)]))

/-- A start is cancelled unless T is less than 10 µs ahead; whether it was (R384). -/
def State.cancelStart (s : State) (id : Nat) : Bool × State :=
  match s.felt.starts.find? (fun x => decide (x.2.id = id)) with
  | none => (false, s)
  | some (k, x) =>
    if x.time < s.absNow + 10000000 then (false, s)
    else (true, ((s.boundTo k).foldl (fun s b => s.dropBound 0x60 b) s).freeStart k)

/-- CANCEL on port p (R384). -/
def doCancel : Nat → State → State :=
  message 8 (fun _ k s =>
    let id := bitsOf (k.flit 0) 0 16
    let r := s.cancelStart id
    some (r.2.feltSend k.src 6 0 0 [id + 2 ^ 18 * b2n r.1]))

/-- A FELT_SCHEDULE or FELT_CANCEL completes (R382, R384). -/
def State.endAsk (s : State) (a : StartAsk) : State :=
  let all := s.extentX * s.extentY
  let st := if a.yes = all then 0 else 1
  let s1 := { s with felt := { s.felt with asks := s.felt.asks.erase a } }
  s1.complete a.cmd st (if a.cancels then a.yes else a.yes + 2 ^ 32 * a.no + 2 ^ 64 * (all - a.answered.length))

/-- Commands whose every reachable device has answered complete. -/
def State.endAsks (s : State) : State :=
  s.felt.asks.foldl (fun s a => if s.nodes.all (fun n => a.answered.contains n || !s.reachable n) then s.endAsk a else s) s

/-- START_ACK on port p counts for the oldest command of its START_ID that has no answer of its node (R382, R384). -/
def doStartAck : Nat → State → State :=
  message 6 (fun _ k s =>
    let f := k.flit 0
    match s.felt.asks.find? (fun a => decide (a.id = bitsOf f 0 16) && !a.answered.contains k.src) with
    | none => some s
    | some a =>
      let b := { a with answered := a.answered ++ [k.src], yes := a.yes + b2n (if a.cancels then bitOf f 18 else bitOf f 16)
                        no := a.no + b2n (bitOf f 17) }
      some ({ s with felt := { s.felt with asks := s.felt.asks.map (fun x => if x = a then b else x) } } : State).endAsks)

/-- A command asks every device for a start or its cancellation, this one having answered. -/
def State.askAll (s : State) (c : Cmd) (id : Nat) (cancels ok : Bool) : State :=
  let a : StartAsk := { cmd := c, id := id, cancels := cancels, answered := [s.node], yes := b2n ok, no := b2n (!cancels && !ok) }
  ({ s with felt := { s.felt with asks := s.felt.asks ++ [a] } } : State).endAsks

/-- FELT_SCHEDULE (R382). -/
def doFeltSchedule (c : Cmd) (s : State) : State :=
  let id := c.field 8 2
  let t := c.field 24 4 * 2 ^ 64 + c.field 16 8
  let st := s.fld Reg.FELT_STATUS_SYNC_STATE
  let bad := c.reservedSet [(8, 2), (16, 8), (24, 4)] || decide (c.target ≠ 0) || !(decide (st = 0) || decide (st = 3)) ||
    decide (t < s.absNow + 10 ^ 9) || decide (s.absNow + 60 * 10 ^ 12 < t)
  s.checked c ((bad, 0x7F) :: s.feltChecks []) (fun s =>
    let r := s.armStart id t
    (r.2.feltSend everyNode 5 0 0 [id, c.field 16 8, c.field 24 4]).askAll c id false r.1)

/-- FELT_CANCEL (R384). -/
def doFeltCancel (c : Cmd) (s : State) : State :=
  let id := c.field 8 2
  s.checked c ((c.reservedSet [(8, 2)] || decide (c.target ≠ 0), 0x7F) :: s.feltChecks []) (fun s =>
    let r := s.cancelStart id
    (r.2.feltSend everyNode 8 0 0 [id]).askAll c id true r.1)

/-- SCHEDULE_TIMEOUT of the command that has waited k-th longest: 1 ms after its broadcast (R382, R384). -/
def doScheduleTimeout (k : Nat) (s : State) : State :=
  match s.felt.asks[k]? with
  | some a => s.endAsk a
  | none => s

/-- FELT_TIME_SET (R381). -/
def doFeltTimeSet (c : Cmd) (s : State) : State :=
  let bad := c.reservedSet [(16, 8), (24, 4)] || decide (c.target ≠ 0) || !s.isTimeRoot || !s.felt.starts.isEmpty
  s.checked c ((bad, 0x7F) :: s.feltChecks []) (fun s =>
    (s.setTime (c.field 24 4 * 2 ^ 64 + c.field 16 8)).passDeadlines.complete c 0 0)

/-! ### FELT_CFG and resets (R385, R386) -/

/-- A write of `v` to FELT_CFG is applied. -/
def State.feltCfgFits (s : State) (v : Nat) : Bool :=
  let x := bitsOf v 16 9
  let y := bitsOf v 25 9
  (List.range 4).all (fun p => decide (s.portState p = 0)) && decide (1 ≤ x) && decide (x ≤ 256) && decide (1 ≤ y) && decide (y ≤ 256) &&
    decide (bitsOf v 8 8 < x) && decide (bitsOf v 0 8 < y)

/-- The message layer is reset: held commands complete with 0x20, its messages and reassembly buffers are emptied, armed starts
are kept (R25, R385, R481). -/
def State.feltLayerReset (s : State) : State :=
  let s1 := s.felt.copies.foldl (fun s x => s.endCopy x 0x20 0 0xFF 0) s
  let s2 := s1.felt.asks.foldl (fun s a =>
    ({ s with felt := { s.felt with asks := s.felt.asks.erase a } } : State).complete a.cmd 0x20 0) s1
  let s3 := (List.range 4).foldl (fun s p => s.abandon 7 p) s2
  { s3 with felt := { s3.felt with inject := [], reassembly := [] } }

end Sys2Proof.Machine
end

