-- ==== Sys2Proof/Machine/Power.lean ====
section
/-! DEFINITION. Idle states, temperatures, throttling, supply dips and ageing (spec/20). -/

namespace Sys2Proof.Machine

open Sys2Proof

/-- The live usage log changed by `f` (R436). -/
def State.modUsage (s : State) (f : Usage → Usage) : State :=
  { s with power := { s.power with usage := f s.power.usage } }

/-! ### The next known event (R424) -/

/-- Cell time with its epoch as one number. -/
def State.fullTime (s : State) : Nat := s.fld Reg.EPOCH * 2 ^ 64 + s.now

/-- The times of the known events: the host event, and T − START_LEAD of every armed start (R424). -/
def State.knownEvents (s : State) : List Nat :=
  s.power.hostEvent.toList ++ s.felt.starts.map (fun x => x.2.time - s.fld Reg.START_LEAD * 1000000)

/-- The next known event; one at or before the current cell time is discarded (R424). -/
def State.nextEvent (s : State) : Option Nat := ((s.knownEvents).filter (fun t => decide (s.fullTime < t))).min?

/-- NEXT_EVENT, EVENT_KNOWN, and the event an exit must meet, follow the known events (R424, R426, R438). -/
def State.showNextEvent (s : State) : State :=
  let e := s.nextEvent
  let s1 := (s.setFld Reg.NEXT_EVENT ((e.getD 0) % 2 ^ 64)).setFlag Reg.PWR_STATUS_EVENT_KNOWN e.isSome
  let passed := s1.power.due.filter (fun t => s1.idling && decide (t ≤ s1.fullTime))
  { s1 with power := { s1.power with
      due := passed.orElse (fun _ => e)
      hostEvent := s1.power.hostEvent.filter (fun t => decide (s1.fullTime < t)) } }

/-! ### The choice (R421 to R424) -/

/-- Entry and exit times of a power state, ps (R421). -/
def entryTime (k : Nat) : Nat :=
  match k with
  | 1 => 1000000
  | 2 => 10000000
  | 3 => 200000000
  | _ => 2000000000
def exitTime (k : Nat) : Nat :=
  match k with
  | 1 => 2000000
  | 2 => 20000000
  | 3 => 2000000000
  | _ => 40000000000

/-- A unit holds a command (R423). -/
def State.holdsCommand (s : State) : Bool :=
  !s.held.isEmpty || !s.hi.dispatched.isEmpty || s.dma.engines.any (fun e => !e.2.held.isEmpty) ||
  !s.cals.runs.isEmpty || !s.cals.loads.isEmpty || !s.units.asks.isEmpty || !s.felt.copies.isEmpty ||
  !s.felt.asks.isEmpty || s.ser.jobs.any (fun j => !j.asks.isEmpty) || s.clusters.any (fun c => !c.2.ppmuRuns.isEmpty) ||
  s.groups.any (fun g => g.2.contact.isSome) || s.dps.any (fun d => !d.2.runs.isEmpty)

/-- The device is quiet (R423). -/
def State.quiet (s : State) : Bool :=
  s.programs.isEmpty && s.starts.isEmpty && !s.holdsCommand && s.tmus.all (fun t => t.2.arm.isNone) &&
  s.dgs.all (fun d => d.2.arm.isNone) &&
  (List.range 32).all (fun c => decide (s.fld (Reg.AWG_STATUS_STATE c) = 0)) &&
  (List.range 64).all (fun n => decide (s.dpsState n ≠ 1) && decide (s.dpsState n ≠ 3)) &&
  s.popTests.all (fun t => decide (2 ≤ t.2.state)) && !s.storeBusy

/-- Every DPS channel is in state 0. -/
def State.dpsOff (s : State) : Bool := (List.range 64).all (fun n => decide (s.dpsState n = 0))

/-- The state the device would choose, P0 where none fits (R424). -/
def State.chooseState (s : State) : Nat :=
  let fits := fun (k : Nat) =>
    decide (k ≤ s.fld Reg.PWR_CTRL_MAX_STATE) &&
    (match s.nextEvent with
      | none => decide (k = 1)
      | some t => decide (11 * (entryTime k + exitTime k) ≤ 10 * (t - s.fullTime)) &&
          (decide (k < 3) || s.fld Reg.PWR_CTRL_DPS_HOLD == 0 || s.dpsOff))
  (([4, 3, 2, 1]).find? fits).getD 0

/-- The device has been quiet for IDLE_DELAY µs (R423). -/
def State.quietLong (s : State) : Bool :=
  s.power.quietSince.any (fun t => decide (t + s.fld Reg.PWR_CTRL_IDLE_DELAY * 1000000 ≤ s.fullTime))

/-- IDLE_CHOICE: entry into a deeper state starts once the device has been quiet long enough; with DPS_HOLD at 0, channels not in
state 0 first ramp down (R423 to R425). -/
def doIdleChoice (s : State) : State :=
  let s1 := s.showNextEvent
  let k := s1.chooseState
  if !s1.quiet || !s1.quietLong || s1.flag Reg.PWR_STATUS_ENTERING || s1.flag Reg.PWR_STATUS_EXITING || s1.power.shutdown ||
      decide (k ≤ s1.fld Reg.PWR_STATUS_STATE) then s1
  else
    let s2 := ({ s1 with power := { s1.power with target := k } } : State).setFlag Reg.PWR_STATUS_ENTERING true
    if 3 ≤ k then (List.range 64).foldl (fun s n => if s.dpsLeads n then s.dpsOffReq n 0x01 else s) s2 else s2

/-- IDLE_ENTRY_END: the state is entered; into I3 and I4 only with every DPS channel in state 0, into I4 only with no store
write in progress (R405, R421, R422, R425, R437). -/
def doIdleEntryEnd (s : State) : State :=
  let k := s.power.target
  if !s.flag Reg.PWR_STATUS_ENTERING || (decide (3 ≤ k) && !s.dpsOff) || (decide (k = 4) && s.storeBusy) then s
  else
    let old := s.pollInterval
    let s1 := (s.setFld Reg.PWR_STATUS_STATE k).setFlag Reg.PWR_STATUS_ENTERING false
    let gone := if 3 ≤ k then (List.range 96).filter s1.ready else []
    let s2 := gone.foldl (fun s u => s.setFlag (Reg.UNIT_READY u) false) s1
    let s2' := if 3 ≤ k then (List.range 32).foldl (fun s c => (s.awgHalt c true).dgAbort c 0x20) s2 else s2
    let s3 := { s2' with power := { s2'.power with asleep := s2'.power.asleep ++ gone, tracked := [] } }
    (if k = 4 then s3.setFlag Reg.LINK_IN_L1 true else s3).ltrIfChanged old

/-- The idle state in force, or the one being entered. -/
def State.idleState (s : State) : Nat :=
  if s.flag Reg.PWR_STATUS_ENTERING then s.power.target else s.fld Reg.PWR_STATUS_STATE

/-- The next known event no longer leaves 1.1 × the exit time of the idle state: the exit starts (R426). -/
def State.exitDue (s : State) : Bool :=
  s.idling && s.power.due.any (fun t => decide (10 * t ≤ 10 * s.fullTime + 11 * exitTime s.idleState))

/-- A cell event line that wakes the device is asserted (R426). -/
def State.lineWakes (s : State) : Bool :=
  (List.range 8).any (fun k => s.flag (Reg.EV_LINE_ASSERTED k) && bitOf (s.fld Reg.PWR_CTRL_WAKE_EV) k)

/-- IDLE_EXIT: the scheduled exit before the next known event, and one that an asserted event line starts (R426). -/
def doIdleExit (s : State) : State :=
  let s1 := s.showNextEvent
  if s1.exitDue || s1.lineWakes then s1.startExit else s1

/-- What the management processors watch: the next known event and the exit that it asks for, and since when the device has
been quiet (R423, R424, R426). -/
def State.watchIdle (s : State) : State :=
  let s1 := doIdleExit s
  { s1 with power := { s1.power with
      quietSince := if s1.quiet then s1.power.quietSince.orElse (fun _ => some s1.fullTime) else none } }

/-- ALL_READY of BRINGUP, and READY_MS the first time it sets (R476, R487). -/
def State.showAllReady (s : State) : State :=
  let all := (List.range unitCount).all (fun u => !s.present u || s.ready u)
  let s1 := if all && !s.flag Reg.BRINGUP_ALL_READY && decide (s.fld Reg.BRINGUP_READY_MS = 0) then
      s.setFld Reg.BRINGUP_READY_MS (min 65535 (s.fullTime / 1000000000))
    else s
  s1.setFlag Reg.BRINGUP_ALL_READY all

/-- IDLE_EXIT_END: the device is in P0; out of I4 once every cluster that tracks has run a full cycle; out of I3 and I4 the targets are applied whole before the UNIT_READY bits set again;
a P0 after the event counts (R419, R422, R426). -/
def doIdleExitEnd (s : State) : State :=
  let cycles := (List.range 32).all (fun c => !s.present c || s.flag (Reg.UNIT_OFF c) || decide (s.fld (Reg.CAL_CTRL_TRACK_EN c) = 0) ||
    s.power.tracked.contains c)
  if !s.flag Reg.PWR_STATUS_EXITING || s.flag Reg.PWR_STATUS_ENTERING || (s.wakesI4 && !cycles) then s
  else
    let k := s.fld Reg.PWR_STATUS_STATE
    let old := s.pollInterval
    let late := s.power.due.any (fun t => decide (t < s.fullTime))
    let s1 := (s.setFld Reg.PWR_STATUS_STATE 0).setFlag Reg.PWR_STATUS_EXITING false
    let s2 := if late then s1.bump Reg.LATE_WAKES 1 else s1
    let s3 := if 3 ≤ k then ((List.range 32).filter s2.present).foldl State.applyTargets s2 else s2
    let back := s3.power.asleep.filter (fun u => s3.present u && !s3.flag (Reg.UNIT_OFF u) && !s3.units.restarting.contains u)
    let s4 := back.foldl (fun s u => s.setFlag (Reg.UNIT_READY u) true) s3
    let s5 := { s4 with power := { s4.power with asleep := [], left := k, due := none } }
    (if k = 4 then s5.setFlag Reg.LINK_IN_L1 false else s5).ltrIfChanged old

/-! ### Commands (R427) -/

/-- NEXT_EVENT: the host event, or none; the state the device would choose (R427). -/
def doNextEvent (c : Cmd) (s : State) : State :=
  s.checked c ((c.reservedSet [(16, 12)] || decide (c.target ≠ 0), 0x7F) :: s.shutChecks) (fun s =>
    let t := c.field 16 8
    let e := c.field 24 4
    let s1 := { s with power := { s.power with hostEvent := if t = 0 ∧ e = 0 then none else some (e * 2 ^ 64 + t) } }
    let s2 := s1.showNextEvent
    s2.complete c 0 s2.chooseState)

/-- WAKE; `left` is the state the device left for it, 0 in P0 (R426, R427, R437). -/
def doWake (left : Nat) (c : Cmd) (s : State) : State :=
  s.checked c ((c.reservedSet [] || decide (c.target ≠ 0), 0x7F) :: s.shutChecks) (fun s => s.complete c 0 left)

/-- USAGE_READ: the live log body, and with STORE the store (R427, R436). -/
def doUsageRead (c : Cmd) (s : State) : State :=
  let va := c.field 16 8
  let bad := c.reservedSet [(8, 1), (16, 8)] || decide (c.target ≠ 0) || decide (2 ≤ c.field 8 1) || decide (2 ^ 48 ≤ va) ||
    decide (va % 8 ≠ 0)
  s.checked c ((bad, 0x7F) :: s.shutChecks) (fun s =>
    let r := s.memWrite { engine := 9, unit := 0 } va s.usageBody false
    match r.1.failure with
    | some st => r.2.complete c st 0
    | none =>
      match r.1 with
      | .ok _ _ =>
        if c.field 8 1 = 1 then r.2.requestStore (some { cmd := c, status := 0, result := 316 }) else r.2.complete c 0 316
      | _ => r.2.hold c .page)

/-- USAGE_LOG_WRITE: every hour of operation (R436). -/
def doUsageLogWrite (s : State) : State := s.requestStore none

/-! ### Temperature (R428 to R431) -/

/-- TEMP of sensor k (R438). -/
def tempFld (k : Nat) : Fld := ⟨0x5200 + 8 * (k / 4), 16 * (k % 4), 16⟩

/-- The neighbours of a sensor (R429). -/
def neighbours (k : Nat) : List Nat :=
  if 96 ≤ k then (List.range 104).filter (fun j => decide (96 ≤ j) && decide (j ≠ k))
  else (List.range 96).filter (fun j => decide (j ≠ k) && decide (j / 3 + 1 ≥ k / 3) && decide (j / 3 ≤ k / 3 + 1))

/-- Twice the median of a list: of an even number, the sum of the middle two (R429). -/
def median2 (l : List Int) : Int :=
  let m := l.mergeSort (fun a b => decide (a ≤ b))
  m.getD ((l.length - 1) / 2) 0 + m.getD (l.length / 2) 0

/-- A sensor is more than 5 °C from the median of its valid neighbours; unknown with fewer than two (R429). -/
def State.sensorApart (s : State) (valid : List Nat) (k : Nat) : Bool :=
  let l := ((neighbours k).filter valid.contains).map s.temp
  decide (2 ≤ l.length) && decide (160 < (2 * s.temp k - median2 l).natAbs)

/-- The cross-check of one sensor: three consecutive samples apart make it suspect (R429). -/
def State.checkSensor (s : State) (apart : Nat → Bool) (k : Nat) : State :=
  let n := if apart k then SMap.get 0 s.power.apart k + 1 else 0
  let s1 := { s with power := { s.power with apart := SMap.set 0 s.power.apart k (if n = 3 then 0 else n) } }
  if n = 3 then
    (((s1.setFlag (Reg.SUSPECT k) true).bump Reg.SUSPECT_EVENTS 1).modUsage (fun u => { u with suspects := u.suspects + 1 })).raise 21 k 0
  else s1

/-- The junction temperature: the highest valid reading (R430). -/
def State.junction (s : State) : Int := ((s.validSensors.map s.temp).max?).getD (s.sfld Reg.THERM_STATUS_JUNCTION)

/-- The temperature of cluster c at the last sample: its highest sensor that counted in it, or the junction temperature. A sensor
that the sample itself made suspect still counts in it (R430, R437). -/
def State.clusterTemp (s : State) (c : Nat) : Int :=
  (((s.power.counted.filter (fun k => decide (k < 96) && decide (k / 3 = c))).map s.temp).max?).getD s.junction

/-- The temperature band of a junction temperature (R436). -/
def bandOf (t : Int) : Nat := if t < 0 then 0 else min 13 (t / 160).toNat.succ

/-- A sample of every sensor: readings, cross-checks, the junction temperature, its peak, and the usage log's times. Whether
the temperature has reached 125 °C in two consecutive samples (R428 to R430, R432, R436). -/
def State.thermalSample (s : State) (temps : List (BitVec 16)) : Bool × State :=
  let s1 := (List.range 104).foldl (fun s k =>
    s.setFld (tempFld k) (if 96 ≤ k || s.present (k / 3) then (temps.getD k 0).toNat else 0)) s
  let valid := s1.validSensors
  let s2 := valid.foldl (fun s k => s.checkSensor (s1.sensorApart valid) k) s1
  let j := s2.junction
  let s3 := s2.setFld Reg.THERM_STATUS_JUNCTION (ofSigned 16 j)
  let s4 := if s3.sfld Reg.THERM_STATUS_PEAK < j then s3.setFld Reg.THERM_STATUS_PEAK (ofSigned 16 j) else s3
  let st := s4.fld Reg.PWR_STATUS_STATE
  let s5 := s4.modUsage (fun u =>
    { u with operating := u.operating + 1
             inState := u.inState.mapIdx (fun i x => if i = st then x + 1 else x)
             bands := u.bands.mapIdx (fun i x => if i = bandOf j then x + 1 else x) })
  let hot := decide (2000 ≤ j)
  (hot && s5.power.hot, { s5 with power := { s5.power with hot := hot, counted := valid } })

/-- THROTTLE_UPDATE: the count of every cluster rises, falls or holds (R431). -/
def doThrottleUpdate (s : State) : State :=
  let limit : Int := 16 * (s.fld Reg.THERM_CTRL_THROTTLE_T : Int)
  let low : Int := limit - 16 * (s.fld Reg.THERM_CTRL_HYST : Int)
  let common := s.power.counted.any (fun k => decide (96 ≤ k) && decide (limit < s.temp k))
  ((List.range 32).filter s.present).foldl (fun s c =>
    let n := s.fld (Reg.THROTTLE_n c)
    if common || decide (limit < s.clusterTemp c) then
      if n < 8 then
        ((((s.setFld (Reg.THROTTLE_n c) (n + 1)).bump Reg.THROTTLE_STEPS 1).modUsage
          (fun u => { u with throttles := u.throttles + 1 })).raise 20 c (n + 1))
      else s
    else if s.clusterTemp c < low then s.setFld (Reg.THROTTLE_n c) (n - 1)
    else s) s

/-- SENSOR_READMIT: a suspect sensor counts again from its next sample (R429). -/
def doSensorReadmit (k : Nat) (s : State) : State :=
  let s1 := s.setFlag (Reg.SUSPECT k) false
  { s1 with power := { s1.power with apart := SMap.set 0 s1.power.apart k 0 } }

/-! ### Supply (R433, R434) -/

/-- Every PPMU and DPS measurement in progress is flagged (R434). -/
def State.markSuspect (s : State) : State :=
  { s with
    pins := s.pins.map (fun x => (x.1, { x.2 with meas := x.2.meas.map (fun m => { m with suspect := true }) }))
    dps := s.dps.map (fun x => (x.1, { x.2 with meas := x.2.meas.map (fun m => { m with suspect := true }) })) }

/-- SUPPLY_WARNING: a rail falls below its warning level; the supply-suspect interval begins (R434). -/
def doSupplyWarning (r : Nat) (s : State) : State :=
  if (SMap.find s.power.dips r).isSome then s
  else
    let s1 := s.setFld Reg.SUPPLY_STATUS_BELOW_WARN (orMask (s.fld Reg.SUPPLY_STATUS_BELOW_WARN) (2 ^ r))
    ({ s1 with power := { s1.power with dips := SMap.put s1.power.dips r s1.now } } : State).markSuspect

/-- SUPPLY_RECOVERY: the dip is logged, counted and raised; the interval ends 10 µs later (R434). -/
def doSupplyRecovery (r : Nat) (s : State) : State :=
  match SMap.find s.power.dips r with
  | none => s
  | some t =>
    let k := s.power.logNext
    let ns := min (2 ^ 32 - 1) ((s.now - t) / 10000 * 10)
    let s1 := (s.setFld Reg.SUPPLY_STATUS_BELOW_WARN (minusMask (s.fld Reg.SUPPLY_STATUS_BELOW_WARN) (2 ^ r))).setFld
      Reg.SUPPLY_STATUS_BROWNOUT (orMask (s.fld Reg.SUPPLY_STATUS_BROWNOUT) (2 ^ r))
    let s2 := if s1.flag (Reg.BROWNOUT_LOG_VALID k) then s1.setFlag Reg.SUPPLY_STATUS_LOG_OVERFLOW true else s1
    let s3 := (((s2.setFld (Reg.BROWNOUT_LOG_RAIL k) r).setFlag (Reg.BROWNOUT_LOG_VALID k) true).setFld
      (Reg.BROWNOUT_LOG_DURATION k) ns).setFld (Reg.BROWNOUT_TIME_CELL_TIME k) t
    let s4 := ((s3.bump Reg.BROWNOUTS 1).modUsage (fun u => { u with brownouts := u.brownouts + 1 })).raise 1 r ns
    { s4 with power := { s4.power with
        dips := SMap.del s4.power.dips r, logNext := (k + 1) % 4, suspectEnd := s4.now + 10000000 } }

/-! ### Ageing (R435) -/

/-- AGEING_MEASURE of cluster c: AGE_PPM; the event once per crossing of AGE_WARN (R435). -/
def doAgeingMeasure (c : Nat) (ppm : BitVec 32) (s : State) : State :=
  if s.blockOff (Reg.clB c) then s
  else
    let s1 := s.setFld (Reg.AGE_PPM c) ppm.toNat
    let above := decide ((s.fld Reg.AGE_WARN : Int) < ppm.toInt)
    let was := s.power.aged.contains c
    let s2 := { s1 with power := { s1.power with
      aged := if above then addOnce c s1.power.aged else s1.power.aged.erase c } }
    if above && !was then s2.raise 22 c ppm.toNat else s2

end Sys2Proof.Machine
end

