-- ==== Sys2Proof/Machine/Bar.lean ====
section
/-! DEFINITION. Accesses to BAR0: access types, sizes, the protection map, ranges of fields, and what a write to each
register does beside storing its fields (R8 to R11, R454, R474, R506 to R510). -/

namespace Sys2Proof.Machine

open Sys2Proof

/-! ### Where a write is turned away -/

/-- The bit of HOST_WR_DENY that governs the window at BAR0 offset `a` (R453, R506). -/
def denyBit (a : Nat) : Option Nat :=
  if a < 0x1000 then some 0
  else if a < 0x3000 then some 1
  else if a < 0xB000 then some (a / 0x1000 - 1)
  else if a < 0x10000 then none
  else if a < 0x50000 then some 10
  else if a < 0x70000 then some 11
  else if a < 0x80000 then some 12
  else none

/-- Host writes at `a` are forbidden by the protection map (R11, R453, R454). -/
def State.writeDenied (s : State) (a : Nat) : Bool :=
  match denyBit a with
  | some w => bitOf s.fuse.oem.protMap w
  | none => false

/-- `a` lies in the window of a member sequencer, at a register that reads zero there: the execution registers, DECKLE_STATE
and the site registers (R36, R147, R508). -/
def State.memberShut (s : State) (a : Nat) : Bool :=
  let o := (a - 0x50000) % 0x800
  decide (0x50000 ≤ a) && decide (a < 0x70000) &&
  ((decide (0x80 ≤ o) && decide (o < 0xD0)) || decide (o = 0x110) || (decide (0x1C0 ≤ o) && decide (o < 0x200))) &&
  decide (s.leaderOf ((a - 0x50000) / 0x800) ≠ (a - 0x50000) / 0x800)

/-- Writes at `a` are discarded: the block of a unit that is absent or powered down, a reference channel's block, a
leader-only register of a member sequencer (R70, R147, R508). -/
def State.writeShut (s : State) (a : Nat) : Bool :=
  s.blockOff a ||
  (decide (0x10000 ≤ a) && decide (a < 0x50000) && decide (0x1800 ≤ (a - 0x10000) % 0x2000) &&
    decide ((a - 0x10000) % 0x2000 < 0x1880)) || s.memberShut a

/-- The quad at `a` holds two 32-bit registers: a 64-bit access acts as two, the lower first (R10). -/
def pairQuad (a : Nat) : Bool :=
  if a < 0x3000 then [0x1000, 0x1008].contains a || (decide (0x2400 ≤ a) && decide (a < 0x2800))
  else if a < 0x4000 then decide (a = 0x3008)
  else if a < 0x5000 then
    decide (a = 0x4000) || (decide (0x4040 ≤ a) && decide (a < 0x40C0) && decide (a % 0x20 = 8)) || decide (0x40C0 ≤ a)
  else if a < 0x6000 then [0x5000, 0x5018, 0x5050].contains a
  else if a < 0x7000 then decide (a = 0x6008) || (decide (0x6100 ≤ a) && decide (a % 0x40 = 0))
  else if a < 0x10000 then decide (a = 0x7100)
  else if a < 0x50000 then
    let o := (a - 0x10000) % 0x2000
    if 0x800 ≤ o ∧ o < 0x1880 then [0x0, 0x8, 0x18, 0x20, 0x28, 0x40, 0x48, 0x50, 0x68, 0x78].contains (o % 0x80)
    else decide (o = 0x1C00)
  else if a < 0x70000 then
    let o := (a - 0x50000) % 0x800
    decide (0x400 ≤ o) && decide (o < 0x600) && decide (o % 0x40 = 8)
  else if a < 0x74000 then decide (a % 0x100 = 0)
  else if a < 0x76000 then decide (a % 0x100 = 0) || decide (a % 0x100 = 0x18)
  else if a < 0x78000 then decide (a % 0x100 = 0)
  else if a < 0x7C000 then decide (a % 0x100 = 0) || decide (a % 0x100 = 8)
  else false

/-! ### Ranges (R346, R359, R319, R386, R438, R450) -/

/-- The fields of the quad at `a` whose meaning gives a range, and which keep their value where the value written is
outside it: lowest bit, width, least and greatest value. -/
def State.fieldRanges (s : State) (a : Nat) : List (Nat × Nat × Nat × Nat) :=
  if a = 0x1008 then
    [(0, 20, 250, min 1000000 (s.fld Reg.IDLE_POLL_IDLE_POLL_NS)), (32, 20, max 250 (s.fld Reg.POLL_POLL_NS), 1000000)]
  else if (0x2400 ≤ a ∧ a < 0x2800) then [(12, 8, 1, 255), (20, 12, 0, 1000), (44, 8, 1, 255), (52, 12, 0, 1000)]
  else if a = 0x3008 then [(0, 16, 1, 60000)]
  else if a = 0x3010 then [(8, 8, 1, 255)]
  else if 0x4040 ≤ a ∧ a < 0x40C0 ∧ a % 0x20 = 0 then [(0, 4, 4, 12)]
  else if 0x4040 ≤ a ∧ a < 0x40C0 ∧ a % 0x20 = 8 then [(12, 8, 1, 255), (20, 12, 0, 1000)]
  else if 0x40C0 ≤ a ∧ a < 0x40E0 then [(1, 17, 5, 100000), (33, 17, 5, 100000)]
  else if a = 0x5000 then [(0, 3, 0, 4), (4, 16, 1, 65535)]
  else if a = 0x5008 then [(0, 20, 10, 1000000)]
  else if a = 0x5018 then [(0, 8, 60, 105), (8, 4, 1, 15)]
  else if a = 0x5050 then [(0, 4, 2, 8)]
  else if a = 0x5180 then [(0, 32, 1, 100000)]
  else if a = 0x6008 then [(32, 20, 1, 1000000)]
  else []

/-- A write that makes the quad at `a` read `v` is not applied at all (R302, R344, R359, R293, R386). -/
def State.quadRefused (s : State) (a v : Nat) : Bool :=
  if a = 0x1010 ∨ a = 0x1018 then s.flag Reg.HI_CTRL_POLL_EN
  else if 0x1400 ≤ a ∧ a < 0x2400 then
    if a % 16 = 0 then !s.sqFits ((a - 0x1400) / 16) v else !s.cqFits ((a - 0x1400) / 16) v
  else if 0x3200 ≤ a ∧ a < 0x3400 then !s.regionFits ((a - 0x3200) / 8) v
  else if a = 0x6000 then !s.feltCfgFits v
  else if a = 0x9008 then !s.popTests.isEmpty || decide (bitsOf v 16 17 = 0) || decide (65536 < bitsOf v 16 17)
  else false

/-- The CFG_ERR that a write at `a` sets or clears. -/
def cfgErrOf (a : Nat) : Option Fld :=
  if 0x1000 ≤ a ∧ a < 0x2800 then some Reg.HI_STATUS_CFG_ERR
  else if 0x3000 ≤ a ∧ a < 0x4000 then some Reg.MMU_STATUS_CFG_ERR
  else if 0x4000 ≤ a ∧ a < 0x5000 then some Reg.EVC_STATUS_CFG_ERR
  else if 0x5000 ≤ a ∧ a < 0x6000 then some Reg.PWR_STATUS_CFG_ERR
  else if a = 0x6000 then some Reg.FELT_STATUS_CFG_ERR
  else if a = 0x9008 then some Reg.POP_STATUS_CFG_ERR
  else none

/-! ### CLR_COUNTS (R8) -/

/-- The quads from `a` on, `n` of them, read zero. -/
def State.zeroQuads (s : State) (a n : Nat) : State := (List.range n).foldl (fun s i => s.setQuad (a + 8 * i) 0#64) s

/-- CLR_COUNTS of the control register at `a` is written 1 (R127, R147, R169, R293, R319, R337, R359, R386, R450). -/
def State.clearCounts (s : State) (a : Nat) : State :=
  if a = 0x1000 then s.zeroQuads 0x1040 8
  else if a = 0x2C00 then (List.range 8).foldl (fun s e => s.zeroQuads (Reg.dmaB e + 8) 6) s
  else if a = 0x3008 then s.zeroQuads 0x3020 10
  else if a = 0x4000 then s.zeroQuads 0x4008 2
  else if a = 0x6008 then (List.range 4).foldl (fun s p => s.zeroQuads (Reg.portB p + 0x10) 5) (s.zeroQuads 0x6040 5)
  else if a = 0x9000 then s.zeroQuads 0x9020 10
  else if a = 0xA000 then
    (List.range 64).foldl (fun s n => s.zeroQuads (Reg.seqB n + 0x208) 4)
      ((List.range 16).foldl (fun s g => s.zeroQuads (Reg.bgB g + 0x10) 6) (s.zeroQuads 0xA010 3))
  else if (a - 0x50000) % 0x800 = 0 then s.zeroQuads (a + 0x18) 3
  else if (a - 0x50000) % 0x800 = 0xC0 then s.zeroQuads (a - 0x38) 7
  else s

/-! ### What a write does beside storing its fields -/

/-- Hooks of the windows below 0x1_0000; `old` is the state before the write, `lo` the first bit written, `x` the bits
written as 1. -/
def State.wroteLow (s old : State) (a lo x : Nat) : State :=
  if a = 0x1000 then s.showPolling
  else if a = 0x1008 then s.ltrIfChanged old.pollInterval
  else if 0x1400 ≤ a ∧ a < 0x2400 then
    let q := (a - 0x1400) / 16
    if a % 16 = 0 then s.sqApplied q (old.flag (Reg.SQ_ENABLE q)) else s.cqApplied q (old.flag (Reg.CQ_ENABLE q))
  else if 0x4040 ≤ a ∧ a < 0x40C0 ∧ a % 0x20 = 0 then
    s.heqApplied ((a - 0x4040) / 0x20) (old.flag (Reg.HEQ_BASE_ENABLE ((a - 0x4040) / 0x20)))
  else if a = 0x5020 ∨ a = 0x5028 then
    (setBits x 64).foldl (fun s i => if 8 * (a - 0x5020) + i < 104 then doSensorReadmit (8 * (a - 0x5020) + i) s else s) s
  else if a = 0x6000 then s.showTree.showSync
  else if 0x6100 ≤ a ∧ a < 0x6200 ∧ a % 0x40 = 0 ∧ lo = 0 then
    if bitOf x 1 then s.showPorts.startRetrain ((a - 0x6100) / 0x40) else s.showPorts
  else if a = 0x7100 ∧ lo = 0 then s.cpCtrlWritten (old.flag Reg.CP_CTRL_ENABLE)
  else if a = 0x9008 then s.showTree
  else s

/-- Hooks of a cluster window: CLK_PLAN, the deskews, pin blocks, CAL_CTRL (R53, R75, R81, R413). -/
def State.wroteCluster (s : State) (a lo : Nat) : State :=
  let c := (a - 0x10000) / 0x2000
  let o := (a - 0x10000) % 0x2000
  if o = 0 then s.freqWritten c
  else if 0x200 ≤ o ∧ o < 0x300 then s.deskewWritten (32 * c + (o - 0x200) / 8)
  else if 0x800 ≤ o ∧ o < 0x1800 then
    if o % 0x80 = 0 ∧ lo = 32 then s else s.pinWritten (32 * c + (o - 0x800) / 0x80)
  else if o = 0x1C00 ∧ lo = 0 then s.calCtrlWritten c
  else s

/-- Hooks of a sequencer window: MEAS_LIM and the queue blocks (R53, R127, R179, R185). -/
def State.wroteSeq (s : State) (a x : Nat) : State :=
  let n := (a - 0x50000) / 0x800
  let o := (a - 0x50000) % 0x800
  if 0x40 ≤ o ∧ o < 0x80 then s.limitsWritten n
  else if 0x400 ≤ o ∧ o < 0x600 then
    let q := (o - 0x400) / 0x40
    if o % 0x40 = 0 ∨ o % 0x40 = 8 then s.queueWritten n q
    else if o % 0x40 = 0x28 ∧ bitOf x 3 then s.clearCrossed n q
    else s
  else s

/-- Hooks of the analog unit windows; a status half holds no setting (R204, R227, R249, R253, R267). -/
def State.wroteAnalog (s : State) (a lo : Nat) : State :=
  if a < 0x7C000 ∧ a % 0x100 = 0 ∧ lo = 32 then s
  else if a < 0x74000 then s.tmuWritten ((a - 0x70000) / 0x100)
  else if a < 0x76000 then s.awgWritten ((a - 0x74000) / 0x100)
  else if a < 0x78000 then s.dgWritten ((a - 0x76000) / 0x100) (decide (a % 0x100 = 0x58))
  else if a < 0x7C000 then s.dpsWritten ((a - 0x78000) / 0x100)
  else s.swgWritten ((a - 0x7C000) / 8)

/-- What a write of the bits `x` at `a` does beside storing fields. -/
def State.wrote (s old : State) (a lo x : Nat) : State :=
  if a < 0x10000 then s.wroteLow old a lo x
  else if a < 0x50000 then s.wroteCluster a lo
  else if a < 0x70000 then s.wroteSeq a x
  else s.wroteAnalog a lo

/-! ### One access -/

/-- A timing-set word of the cluster window at `a`, selected by TS_SEL: its `tsKey` (R80, R93). -/
def State.tsWord (s : State) (a : Nat) : Option Nat :=
  let c := (a - 0x10000) / 0x2000
  let o := (a - 0x10000) % 0x2000
  let t := s.fld (Reg.TS_SEL_SET c)
  let i := s.fld (Reg.TS_SEL_PIN c)
  if a < 0x10000 ∨ 0x50000 ≤ a then none
  else if o = 0x108 then some (tsKey c t 32 0)
  else if o = 0x110 then some (tsKey c t i 5)
  else if 0x118 ≤ o ∧ o < 0x140 then some (tsKey c t i ((o - 0x118) / 8))
  else none

/-- RW bits `rw` under the mask `m` take the bits `x`; the others stay (R8, R9). -/
def mergeBits (old rw m x : Nat) : Nat := old - (old &&& (rw &&& m)) + (x &&& (rw &&& m))

/-- The stored part of a write of the bits `x` under the mask `m` to the quad at `a` of row `r` (R8, R9), with fields
outside their range unchanged: the new value, and whether some field was. -/
def State.stored (s : State) (r : Reg.QuadRow) (a m x : Nat) : Nat × Bool :=
  let old := (s.quad a).toNat
  let v := mergeBits old r.rw m x
  let bad := (s.fieldRanges a).filter (fun (f : Nat × Nat × Nat × Nat) =>
    bitOf m f.1 && (decide (bitsOf v f.1 f.2.1 < f.2.2.1) || decide (f.2.2.2 < bitsOf v f.1 f.2.1)))
  let kept := bad.foldl (fun n (f : Nat × Nat × Nat × Nat) => putBits n f.1 f.2.1 (bitsOf old f.1 f.2.1)) v
  (kept - (kept &&& (r.w1c &&& x)), !bad.isEmpty)

/-- A write of `w` bits from bit `lo` of the quad at `a`, which is let through (R8, R9, R509). -/
def State.barPut (s : State) (a lo w v : Nat) : State :=
  match Reg.rowOf a with
  | none => s
  | some r =>
    let m := (2 ^ w - 1) * 2 ^ lo
    let x := v % 2 ^ w * 2 ^ lo
    if (r.rw ||| r.w1c ||| r.wo) &&& m = 0 then s
    else match s.tsWord a with
      | some key => s.tsWrite key (mergeBits (s.tsWritten key) r.rw m x)
      | none =>
        let k := s.stored r a m x
        let refused := s.quadRefused a k.1
        let s1 := if refused then s else s.setQuad a (BitVec.ofNat 64 k.1)
        let s2 := match cfgErrOf a with
          | some f => s1.setFlag f (refused || k.2)
          | none => s1
        let s3 := if x &&& r.wo ≠ 0 ∧ ¬ (0x6100 ≤ a ∧ a < 0x6200) then s2.clearCounts a else s2
        if refused then s3 else s3.wrote s a lo x

/-- A naturally aligned access of 32 or 64 bits at BAR0 offset `a` (R10, R508, R509). -/
def State.barAligned (s : State) (a : Nat) (wide : Bool) (v : Nat) : State :=
  let k := a / 8 * 8
  if s.writeShut k then s
  else if !wide then s.barPut k (a % 8 * 8) 32 v
  else if pairQuad k then (s.barPut k 0 32 (v % 2 ^ 32)).barPut k 32 32 (v / 2 ^ 32)
  else s.barPut k 0 64 v

/-- An access of another size or alignment (R10): the register-access-error event, with the BAR0 offset (R439). -/
def State.badAccess (s : State) (a : Nat) : State := s.raise 43 0 a

/-- A naturally aligned access of 4 or 8 bytes (R10). -/
def fitsBar (a size : Nat) : Bool := (decide (size = 4) || decide (size = 8)) && decide (a % size = 0)

/-- A write that is no host write under R11: an entry of the OEM configuration, or DEBUG_ACCESS (R454, R468, R469). -/
def State.barForce (s : State) (a : Nat) (wide : Bool) (v : Nat) : State :=
  if a % (if wide then 8 else 4) ≠ 0 then s.badAccess a else s.barAligned a wide v

/-- A host write (R10, R11, R474): before BOOTED, and to a denied window, it is discarded. -/
def State.barWrite (s : State) (a : Nat) (wide : Bool) (v : Nat) : State :=
  if a % (if wide then 8 else 4) ≠ 0 then s.badAccess a
  else if !s.flag Reg.SEC_STATUS_BOOTED || s.writeDenied a then s
  else s.barAligned a wide v

/-- A host write of one part of the 64-bit register at `a` (R509). -/
def State.barPartWrite (s : State) (a : Nat) (part : RegPart) (v : Nat) : State :=
  match part with
  | .whole => s.barWrite a true v
  | .low => s.barWrite a false (v % 2 ^ 32)
  | .high => s.barWrite (a + 4) false (v % 2 ^ 32)

/-- The quad at `a` as a read returns it: WO fields zero; a timing-set word through TS_SEL; zero for a reserved offset, a
unit that is absent or powered down and a leader-only register of a member (R8, R9, R80, R147, R508). -/
def State.barRead (s : State) (a : Nat) : Nat :=
  match Reg.rowOf a with
  | none => 0
  | some r =>
    if s.blockOff a || s.memberShut a then 0
    else match s.tsWord a with
      | some key => s.tsWritten key
      | none => let v := (s.quad a).toNat; v - (v &&& r.wo)

/-- A host read of `size` bytes at BAR0 offset `a`: the register's bits where it is a naturally aligned read of 4 or 8
bytes, else every bit set, with the register-access-error event (R10). -/
def State.hostRead (s : State) (a size : Nat) : Nat × State :=
  if fitsBar a size then (bitsOf (s.barRead (a / 8 * 8)) (8 * (a % 8)) (8 * size), s)
  else (2 ^ (8 * size) - 1, s.badAccess a)

end Sys2Proof.Machine
end

