-- ==== Sys2Proof/Machine/Deckle.lean ====
section
/-! DEFINITION. The closure of a Deckle (R41 to R46, R69, R134, R182, R204, R249, R267, R276). -/

namespace Sys2Proof.Machine

open Sys2Proof

/-- The lowest set bit below `k` of a bitmap; 15 where none is (R36, R46). -/
def lowestBit (n k : Nat) : Nat := (setBits n k).headD 15

/-- Records of a site still in the elastic buffers of its group carry 0x40 (R182). -/
def State.markRecords (s : State) (b site : Nat) : State :=
  (s.members b).foldl (fun s n => s.modSeq n (fun q =>
    { q with elastic := q.elastic.map (fun r => if r.site < noSite ∧ r.site % 512 = site then { r with status := 0x40 } else r) })) s

/-- A pin of a closing site: its measurement ends with the conversions completed and value 0, its PPMU disconnects, and
it takes its safe state (R42, R69, R182). -/
def State.closePin (s : State) (x : SitePos) (cut : List PartialConv) (p : Nat) : State :=
  let s1 := match (s.pin p).meas with
    | none => s
    | some m =>
      let c := cutOf cut p (2 ^ m.avgLog2 - 1)
      match m.origin with
      | .contact _ _ => s.contactRecord p m 0x40 0 0 (4 * b2n m.suspect) m.start false
      | _ =>
        let cl := decide (c.1 ≠ 0) && m.limited c.2.2.2
        let s1 := if cl then s.setFlag (Reg.PIN_STATUS_PPMU_CLAMPED p) true else s
        (s1.modPin p (fun y => { y with meas := none })).deliverPin p m 0x40 c.1 0 (2 * b2n cl + 4 * b2n m.suspect)
          (if c.1 = 0 then m.start else c.2.2.1)
  let z := s1.safeFor x p
  s1.modPin p (fun y => { y with connected := false, safe := some z })

/-- A contact check of the group counts a closing site as not tested (R46). -/
def State.untest (s : State) (b p : Nat) : State :=
  let g := s.group b
  match g.contact with
  | none => s
  | some r =>
    if bitOf r.positions p then
      let r1 := { r with positions := minusMask r.positions (2 ^ p), untested := orMask r.untested (2 ^ p) }
      { s with groups := SMap.put s.groups b { g with contact := some r1 } }
    else s

/-- The program of the group of a closed site: 0x40 for the site; its slot loses it, and where no open site is left in
the running slot the group schedules the next; with every enabled site closed the group stops (R42, R45, R46, R134). -/
def State.siteDropped (s : State) (b p : Nat) : State :=
  match s.program b with
  | none => s
  | some g =>
    let g1 : Program := if bitOf g.part p then g.note p 0x40 else g
    let opened := s.openMask b
    let m : Micro := { g1.micro with mask := minusMask g1.micro.mask (2 ^ p), slots := dropClosed g1.micro.slots opened }
    let g2 : Program := { g1 with micro := m }
    if g2.ended || decide (g2.stall = 3) then s.setProgram b g2
    else if opened = 0 then (s.setProgram b g2).endIssue b
    else if (m.slot m.runningSlot).state ≠ 0 then (s.setProgram b g2).showExec b
    else
      let g3 : Program := if g2.calHeld then g2 else { g2.closeWord with wait := 0, blocked := 0, stall := 0, dueTrap := none }
      (((s.setProgram b g3).settleResults b).scheduleOr b (fun s => s.noSlotLeft b)).showExec b

/-- The record of a closure (R42, R173). -/
def State.deckleRecord (s : State) (b site cause : Nat) (time last : Nat) : State :=
  s.enterRecord b
    { queue := 7, typ := 4, status := 0x40, site := siteWord site 0, test := 0xFFFF, cellTime := time
      payload := leBytes cause 1 ++ leBytes (lowestBit cause 6) 1 ++ leBytes 0 2 ++ leBytes last 4 ++ leBytes 0 8 }

/-- DECKLE_CLOSURE: the Deckle of position p of the group led by b closes on the causes asserted since the last step; `cut`
gives the conversions completed on its pins (R42, R43). -/
def doDeckleClosure (b p : Nat) (cut : List PartialConv) (s : State) : State :=
  match SMap.find s.causes (causeKey b p), s.sitePos b p with
  | some (cause, time), some x =>
    let last := match s.program b with
      | some g => g.lastWord.getD 0xFFFFFF
      | none => 0xFFFFFF
    let s1 := ({ s with causes := SMap.del s.causes (causeKey b p), ser := { s.ser with closures := s.ser.closures + 1 } } : State)
    let s2 := ((s1.setFld (Reg.SITE_ENTRY_CAUSE b p) cause).setFld (Reg.SITE_ENTRY_PRIMARY b p) (lowestBit cause 6)).setFld
      (Reg.DECKLE_STATE_CLOSED b) (orMask (s1.closedMask b) (2 ^ p))
    let s3 := (x.pins.foldl (fun s n => s.closePin x cut n) s2).untest b p
    let s4 := (s3.dpsUnits x).foldl (fun s l => (s.dpsCut l 0x40).dpsDeckleOff l) s3
    let s5 := ((s4.tmuCloseSite b p).dgCloseSite b p).markRecords b x.site
    let s6 := ((s5.siteDropped b p).popLeave x.site).deckleRecord b x.site cause time last
    s6.raise 4 b (x.site + 512 * cause)
  | _, _ => s

end Sys2Proof.Machine
end

