-- ==== Sys2Proof/Machine/Security.lean ====
section
/-! DEFINITION. Fuses, firmware images, the Watermark's reports and summaries, and the security commands (spec/22 R451 to
R472). -/

namespace Sys2Proof.Machine

open Sys2Proof

/-! ### Shared parts (R460, R467, R471) -/

/-- The SECURITY event (R471). -/
def State.security (s : State) (info : Nat) : State := s.raise 45 0 info

/-- The 24 ASCII bytes "OLUWARD EVZIN IDENTITY 1" (R460). -/
def identityLabel : List Byte :=
  [0x4F, 0x4C, 0x55, 0x57, 0x41, 0x52, 0x44, 0x20, 0x45, 0x56, 0x5A, 0x49, 0x4E, 0x20, 0x49, 0x44, 0x45, 0x4E, 0x54, 0x49,
   0x54, 0x59, 0x20, 0x31]

/-- The Watermark's seed (R460). -/
def identitySeed : List Byte := Config.shake256 (leBytes Config.deviceSecret.toNat 32 ++ identityLabel) 32

/-- Debug is open (R453). -/
def State.debugOpen (s : State) : Bool := decide (bitsOf s.fuse.oem.protMap 15 2 = 1)

/-- Addresses of a security command break R467: above [47:0], not 64-byte aligned, or with no valid translation. -/
def State.secAddrBad (s : State) (va : Nat) : Bool :=
  decide (2 ^ 48 ≤ va) || decide (va % 64 ≠ 0) || !s.hasTranslation va

/-- A write of a management command; `k` goes on from it. -/
def State.mgmtWrite (s : State) (c : Cmd) (va : Nat) (data : List Byte) (k : State → State) : State :=
  match s.memWrite { engine := 9, unit := 0 } va data false with
  | (.ok _ _, s1) => k s1
  | (.fault f, s1) => s1.complete c (kindStatus f) 0
  | (.wait, s1) => s1.hold c .page
  | (.drop, s1) => s1

/-! ### Firmware images (R455, R456 steps 3 to 5) -/

/-- Bytes of an image with a body of some length (R455). -/
def fwTotal (body : Nat) (cosigned : Bool) : Nat := 64 + body + 1952 + 3309 + (if cosigned then 1952 + 3309 else 0)

/-- An image of `n` bytes is malformed (R455). -/
def fwMalformed (d : List Byte) (n : Nat) : Bool :=
  let body := bytesField d 12 4
  let total := fwTotal body (bitOf (bytesField d 6 2) 0)
  decide (bytesField d 0 4 ≠ 0x57465645) || decide (bytesField d 4 2 ≠ 1) || decide (2 ≤ bytesField d 6 2) ||
  decide (bytesField d 24 40 ≠ 0) || decide (body = 0) || decide (body % 64 ≠ 0) || decide (n ≠ total) ||
  decide (bytesField d 20 4 < total)

/-- FW_DIGEST of an image (R455). -/
def fwDigest (d : List Byte) : List Byte := Config.shake256 (d.take (64 + bytesField d 12 4)) 64

/-- The image's fields, for an image at a flash offset (R455). -/
def fwImageOf (d : List Byte) (offset n : Nat) : FwImage :=
  { offset := offset, length := n, svn := bytesField d 8 4, digest := fwDigest d
    altOffset := bytesField d 16 4, areaSize := bytesField d 20 4 }

/-- BOOT_RESULT of an image: 1 where it passes, 3 malformed, 4 vendor signature, 5 OEM counter-signature (R456). -/
def State.fwResult (s : State) (d : List Byte) (n : Nat) : Nat :=
  let o := 64 + bytesField d 12 4
  let vendorKey := (d.drop o).take 1952
  let vendorSig := (d.drop (o + 1952)).take 3309
  let oemKey := (d.drop (o + 5261)).take 1952
  let oemSig := (d.drop (o + 7213)).take 3309
  if fwMalformed d n then 3
  else if leNat (Config.shake256 vendorKey 64) ≠ Config.vendorKeyDigest.toNat ∨
      !Config.mldsaVerify vendorKey (fwDigest d) vendorSig then 4
  else if s.fuse.oem.cosignReq && (!bitOf (bytesField d 6 2) 0 ||
      decide (leNat (Config.shake256 oemKey 64) ≠ s.fuse.oem.keyDigest) ||
      !Config.mldsaVerify oemKey (fwDigest d ++ vendorSig) oemSig) then 5
  else 1

/-! ### FW_UPDATE (R458, R459) -/

/-- A directory copy that names another image (R458). -/
def directoryWith (d : List Byte) (offset n : Nat) : List Byte :=
  let a := d.take 24 ++ leBytes offset 4 ++ leBytes n 4 ++ (d.drop 32).take 60
  a ++ leBytes (crc32c a) 4

/-- The frames of an update: the image area erased, programmed and compared; the second directory copy; the primary
(R458, R459). -/
def updateFrames (x : Directory) (r : FwImage) (img : List Byte) : List FlashFrame :=
  let page := 2 ^ x.pageLog2
  let dir := directoryWith x.bytes r.altOffset img.length
  let copy := fun (a : Nat) =>
    ({ addr := a, erase := 0x1000, data := [], check := false } : FlashFrame) ::
    (programFrames (dir.length + 1) page a dir).map (fun f => { f with check := false })
  eraseFrames x r.altOffset r.areaSize ++ programFrames (img.length + 1) page r.altOffset img ++ copy 0x1000 ++ copy 0

/-- The area that an update would write overlaps a bank, the certificate or the directories (R458). -/
def areaOverlaps (x : Directory) (r : FwImage) : Bool :=
  runsMeet r.altOffset r.areaSize x.bankA x.bankSize || runsMeet r.altOffset r.areaSize x.bankB x.bankSize ||
  runsMeet r.altOffset r.areaSize x.certOffset x.certLength || runsMeet r.altOffset r.areaSize 0 0x2000

/-- An update to this image is refused (R458). -/
def State.updateRefused (s : State) (x : Directory) (r : FwImage) (img : List Byte) : Bool :=
  decide (s.fwResult img img.length ≠ 1) || decide (bytesField img 8 4 < r.svn) || decide (bytesField img 16 4 ≠ r.offset) ||
  decide (bytesField img 20 4 ≠ r.areaSize) || areaOverlaps x r

/-- The directory in force and the running image. -/
def State.updateBase (s : State) : Option (Directory × FwImage) := s.ser.dir.bind (fun x => s.sec.running.map (fun r => (x, r)))

/-- The part of an image that could be read breaks R455 or R458, or names other keys than the fuses (R15, R456). -/
def State.fwPartBad (s : State) (r : FwImage) (n : Nat) (l : List (Option Byte)) : Bool :=
  let isSigned := ((readPart l 6 2).map leNat).map (fun f => bitOf f 0)
  let body := (readPart l 12 4).map leNat
  let key := fun (off digest : Nat) => (readPart l off 1952).any (fun k => decide (leNat (Config.shake256 k 64) ≠ digest))
  partBad l 0 4 (fun v => decide (v ≠ 0x57465645)) || partBad l 4 2 (fun v => decide (v ≠ 1)) || partBad l 6 2 (fun v => decide (2 ≤ v)) ||
  partBad l 24 40 (fun v => decide (v ≠ 0)) || body.any (fun v => decide (v = 0) || decide (v % 64 ≠ 0)) ||
  partBad l 8 4 (fun v => decide (v < r.svn)) || partBad l 16 4 (fun v => decide (v ≠ r.offset)) ||
  partBad l 20 4 (fun v => decide (v ≠ r.areaSize) || decide (v < n)) ||
  body.any (fun v => isSigned.any (fun g => decide (n ≠ fwTotal v g))) ||
  body.any (fun v => key (64 + v) Config.vendorKeyDigest.toNat) ||
  (s.fuse.oem.cosignReq && (isSigned.any (fun g => !g) || body.any (fun v => key (64 + v + 5261) s.fuse.oem.keyDigest)))

/-- FW_UPDATE: the image is checked, then installed frame by frame (R458, R467). -/
def doFwUpdate (c : Cmd) (s : State) : State :=
  let va := c.field 16 8
  let n := c.field 24 4
  if c.reservedSet [(16, 12)] || decide (c.target ≠ 0) || s.secAddrBad va then (s.complete c 0x7F 0).security 2
  else if s.power.shutdown then (s.complete c 0x22 0).security 2
  else s.withReadOr c { engine := 9, unit := 0 } va n
      (fun l => (s.updateBase).any (fun y => areaOverlaps y.1 y.2 || s.fwPartBad y.2 n l)) (fun s => s.security 2) (fun img s =>
    match s.ser.dir, s.sec.running with
    | some x, some r =>
      if s.updateRefused x r img then (s.complete c 0x7F 0).security 2
      else
        let svn := bytesField img 8 4
        let job : FlashJob :=
          { aim := .update svn r.altOffset, plan := updateFrames x r img
            asks := [{ cmd := c, status := 0, result := svn + 2 ^ 32 * r.altOffset }] }
        let s1 := s.setFlag Reg.SEC_STATUS_UPDATING true
        let jobs := s1.ser.jobs ++ [job]
        State.startJob (jobs.length + 1) { s1 with ser := { s1.ser with jobs := jobs } }
    | _, _ => (s.complete c 0x7F 0).security 2)

/-! ### Fuses (R452) -/

/-- The OEM bank that a provisioning block describes (R452). -/
def oemBlock (d : List Byte) : OemBank :=
  { keyDigest := bytesField d 0 64, protMap := bytesField d 64 8, subsysVid := bytesField d 72 2
    subsysId := bytesField d 74 2, cosignReq := bitOf (bytesField d 76 1) 0 }

/-- Reserved bits of byte i of a provisioning block, those of PROT_MAP included (R452, R453). -/
def oemReserved (i : Nat) : Nat :=
  if i = 66 ∨ i = 76 then 0xFE else if i = 67 ∨ i = 70 ∨ i = 71 ∨ 77 ≤ i then 0xFF else 0

/-- The burned bits of bank `b`, as byte i of a provisioning block (R452). -/
def OemBank.byte (b : OemBank) (i : Nat) : Nat :=
  if i < 64 then bitsOf b.keyDigest (8 * i) 8
  else if i < 72 then bitsOf b.protMap (8 * (i - 64)) 8
  else if i < 74 then bitsOf b.subsysVid (8 * (i - 72)) 8
  else if i < 76 then bitsOf b.subsysId (8 * (i - 74)) 8
  else if i = 76 then b2n b.cosignReq
  else 0

/-- A provisioning block is refused: a reserved bit is set in it, or a bit already burned is 0 in it; bytes that could not be read
are not checked (R15, R452). -/
def OemBank.refuses (b : OemBank) (l : List (Option Byte)) : Bool :=
  l.zipIdx.any (fun x => x.1.any (fun y =>
    decide (andMask y.toNat (oemReserved x.2) ≠ 0) || decide (minusMask (b.byte x.2) y.toNat ≠ 0)))

/-- OEM_PROVISION: every 1 of the block is burned, then SEALED; in effect at the next PERST# (R452, R467). -/
def doOemProvision (c : Cmd) (s : State) : State :=
  let va := c.field 16 8
  s.checked c ((c.reservedSet [(16, 8)] || decide (c.target ≠ 0) || s.secAddrBad va || s.burned.isSealed, 0x7F) :: s.shutChecks) (fun s =>
    s.withReadOr c { engine := 9, unit := 0 } va 128 (fun l => s.burned.refuses l) id (fun d s =>
      if s.burned.refuses (d.map some) then s.complete c 0x7F 0
      else ({ s with burned := { oemBlock d with isSealed := true } } : State).complete c 0 0))

/-! ### OEM_CONFIG (R468) -/

/-- Entries of an OEM configuration: BAR0 offset, width, value (R468). -/
def oemEntries (d : List Byte) : List (Nat × Nat × Nat) :=
  (List.range (bytesField d 4 4)).map (fun i =>
    (bytesField d (8 + 16 * i) 4, bytesField d (12 + 16 * i) 1, bytesField d (16 + 16 * i) 8))

/-- The layout of an OEM configuration is right, with or without a signature (R468). -/
def oemLayoutOk (d : List Byte) (isSigned : Bool) : Bool :=
  let n := bytesField d 4 4
  decide (8 ≤ d.length) && decide (n ≤ 1024) && decide (d.length = 8 + 16 * n + (if isSigned then 1952 + 3309 else 0)) &&
  (List.range n).all (fun i =>
    (decide (bytesField d (12 + 16 * i) 1 = 4) || decide (bytesField d (12 + 16 * i) 1 = 8)) &&
    decide (bytesField d (13 + 16 * i) 3 = 0))

/-- Sections of the active bank as flash holds them (R394). -/
def State.storedSections (s : State) : List Section :=
  match s.ser.dir with
  | none => []
  | some x =>
    let off := if s.fld Reg.STORE_STATUS_ACTIVE = 1 then x.bankA else x.bankB
    if s.fld Reg.STORE_STATUS_ACTIVE = 0 then []
    else
      let n := bytesField (s.flashBytes off 16) 8 4
      (sectionsOf (n + 1) (s.flashBytes (off + 16) n)).1

/-- COUNTER of the OEM configuration in the store (R468). -/
def State.oemCounter (s : State) : Option Nat :=
  ((s.storedSections.find? (fun x => decide (x.typ = 3))).bind (fun x => if x.version = 1 then some x.body else none)).map
    (fun o => bytesField o 0 4)

/-- An OEM configuration is refused: its layout, its COUNTER, its key or its signature (R468). -/
def State.oemRefused (s : State) (d : List Byte) : Bool :=
  let isSigned := decide (s.fuse.oem.keyDigest ≠ 0)
  let m := 8 + 16 * bytesField d 4 4
  let key := (d.drop m).take 1952
  !oemLayoutOk d isSigned || s.oemCounter.any (fun o => decide (bytesField d 0 4 ≤ o)) ||
  (isSigned && (decide (leNat (Config.shake256 key 64) ≠ s.fuse.oem.keyDigest) ||
    !Config.mldsaVerify key (d.take (m + 1952)) ((d.drop (m + 1952)).take 3309)))

/-- The part of an OEM configuration of `m` bytes that could be read breaks R468 (R15). -/
def State.oemPartBad (s : State) (m : Nat) (l : List (Option Byte)) : Bool :=
  let isSigned := decide (s.fuse.oem.keyDigest ≠ 0)
  let total := fun (n : Nat) => 8 + 16 * n + (if isSigned then 1952 + 3309 else 0)
  let entries := ((m - 8 - (if isSigned then 1952 + 3309 else 0)) / 16)
  partBad l 0 4 (fun v => s.oemCounter.any (fun o => decide (v ≤ o))) ||
  partBad l 4 4 (fun n => decide (1024 < n) || decide (m ≠ total n) ||
    (isSigned && (readPart l (8 + 16 * n) 1952).any (fun k => decide (leNat (Config.shake256 k 64) ≠ s.fuse.oem.keyDigest)))) ||
  (List.range (min 1024 entries)).any (fun i =>
    partBad l (12 + 16 * i) 1 (fun w => decide (w ≠ 4) && decide (w ≠ 8)) || partBad l (13 + 16 * i) 3 (fun w => decide (w ≠ 0)))

/-- OEM_CONFIG: the section is checked and stored (R467, R468). -/
def doOemConfig (c : Cmd) (s : State) : State :=
  let va := c.field 16 8
  if c.reservedSet [(16, 12)] || decide (c.target ≠ 0) || s.secAddrBad va then (s.complete c 0x7F 0).security 4
  else if s.power.shutdown then s.complete c 0x22 0
  else s.withReadOr c { engine := 9, unit := 0 } va (c.field 24 4) (s.oemPartBad (c.field 24 4)) (fun s => s.security 4) (fun d s =>
    if s.oemRefused d then (s.complete c 0x7F 0).security 4
    else
      let s1 := { s with ser := { s.ser with sections := putSection s.ser.sections 3 d } }
      s1.requestStore (some { cmd := c, status := 0, result := bytesField d 0 4 }))

/-! ### IMAGE_MEASURE (R462) -/

/-- The physical pieces of `n` bytes from `va`: host, first byte, length, DTT entry; the first argument bounds them. -/
def State.pieces (s : State) : Nat → Nat → Nat → List (Bool × Nat × Nat × Nat)
  | 0, _, _ => []
  | fuel + 1, va, n =>
    if n = 0 then []
    else
      let m := min n (4096 - va % 4096)
      let rest := State.pieces s fuel (va + m) (n - m)
      match s.translate va false with
      | .dpa a e => (false, a, m, e) :: rest
      | .host a e => (true, a, m, e) :: rest
      | .fault _ _ => rest

/-- Reads of several runs, one after the other; the first that fails or waits ends them. -/
def State.readRuns (s : State) : List (Nat × Nat) → List Byte → Acc × State
  | [], d => (.ok d none, s)
  | (va, n) :: l, d =>
    match s.memRead { engine := 9, unit := 0 } va n with
    | (.ok x none, s1) => State.readRuns s1 l (d ++ x)
    | r => r

/-- Bytes of a segment from ADDRESS to the end of its furthest block, by its index (R154, R462). -/
def segmentEnd (index : List Byte) (n : Nat) : Nat :=
  (List.range n).foldl (fun m i =>
    let e := bytesField index (8 * i) 8
    max m (64 * bitsOf e 0 32 + bitsOf e 32 13)) 0

/-- The runs of each segment, once its header and index are read (R154, R462). -/
def State.segmentRuns (s : State) : List (Nat × Nat) → List (Nat × Nat) → Sum (List (Nat × Nat)) Acc × State
  | [], acc => (.inl acc, s)
  | (a, blocks) :: l, acc =>
    match s.memRead { engine := 9, unit := 0 } a 64 with
    | (.ok h none, s1) =>
      let n := blocks * bytesField h 6 1
      match s1.memRead { engine := 9, unit := 0 } (a + 64) (8 * n) with
      | (.ok x none, s2) => State.segmentRuns s2 l (acc ++ [(a, segmentEnd x n)])
      | (r, s2) => (.inr r, s2)
    | (r, s1) => (.inr r, s1)

/-- The log entry a measurement takes: the one of the same base, else the lowest invalid, else the oldest (R462). -/
def Sec.logIndex (z : Sec) (base : Nat) : Nat :=
  match z.log.find? (fun e => decide (e.2.base = base)) with
  | some e => e.1
  | none =>
    match (List.range 64).find? (fun i => (SMap.find z.log i).isNone) with
    | some i => i
    | none =>
      let oldest := z.log.foldl (fun m e => min m e.2.age) z.measured
      ((z.log.find? (fun e => decide (e.2.age = oldest))).map Prod.fst).getD 0

/-- A measurement enters the image log (R462). -/
def State.logImage (s : State) (c : Cmd) (base : Nat) (digested read : List (Nat × Nat)) (d : List Byte) : State :=
  let of := fun (l : List (Nat × Nat)) => l.flatMap (fun r => s.pieces (r.2 / 4096 + 2) r.1 r.2)
  let host := (of read).any (fun p => p.1)
  let digest := Config.shake256 d 64
  let i := s.sec.logIndex base
  let e : ImageEntry :=
    { base := base, host := host, digest := digest, age := s.sec.measured
      runs := (of digested).map (fun p => (p.1, p.2.1, p.2.2.1)), dtt := ((of digested).map (fun p => p.2.2.2)).dedup }
  let s1 := { s with sec := { s.sec with log := SMap.put s.sec.log i e, measured := s.sec.measured + 1 } }
  (s1.setFlag ⟨Reg.IMAGE_LOG.addr, i, 1⟩ true).complete c 0 (i + 2 ^ 8 * b2n host + 2 ^ 64 * leNat (digest.take 16))

/-- A command's read that did not give good data. -/
def State.readFailed (s : State) (c : Cmd) (r : Acc) : State :=
  match r.failure with
  | some st => s.complete c st 0
  | none => s.hold c .page

/-- IMAGE_MEASURE (R462, R467). -/
def doImageMeasure (c : Cmd) (s : State) : State :=
  let va := c.field 16 8
  let bad := c.reservedSet [(16, 8)] || decide (c.target ≠ 0) || s.secAddrBad va || decide (va % 4096 ≠ 0)
  s.checked c ((bad, 0x7F) :: s.unitChecks [watermarkUnit]) (fun s =>
    let q := s.preRead { engine := 9, unit := 0 } va 256
    match readPart q.1 0 56 with
    | none => if q.2.1.waits then (s.keepRequests q.2.2).hold c .page else q.2.2.complete c (q.2.1.fail.getD 0x10) 0
    | some d =>
      if headerBad d 8 64 then q.2.2.complete c 0x7F 0
      else
        let h := headerOf d
        let t := q.2.2.preRead { engine := 9, unit := 0 } (va + h.segTable) (16 * h.segCount)
        let l := segmentsOf h.segCount t.1
        let p := q.2.1.and t.2.1
        if p.waits then (s.keepRequests t.2.2).hold c .page
        else if l.any (fun x => x.any Prod.snd) then t.2.2.complete c 0x7F 0
        else if p.fail.isSome then t.2.2.complete c (p.fail.getD 0x10) 0
        else match t.2.2.segmentRuns (l.filterMap (Option.map Prod.fst)) [] with
          | (.inr r, s1) => s1.readFailed c r
          | (.inl rs, s1) =>
            let digested := (va, h.codeOffset + 32 * h.wordCount) :: rs
            match s1.readRuns digested [] with
            | (.ok x none, s2) => s2.logImage c va digested ((va + h.segTable, 16 * h.segCount) :: digested) x
            | (r, s2) => s2.readFailed c r)

/-! ### Reports and summaries (R463 to R466) -/

/-- The Watermark signs a message (R460, R463); the number of signatures made advances. -/
def State.watermarkSign (s : State) (m : List Byte) : List Byte := Config.mldsaSign identitySeed m s.sec.signatures
def State.countSignature (s : State) : State :=
  ({ s with sec := { s.sec with signatures := s.sec.signatures + 1 } } : State).bump Reg.SIGNATURES 1

/-- The 72 bytes of an image entry (R463). -/
def imageEntryBytes (base : Nat) (host : Bool) (digest : List Byte) : List Byte :=
  leBytes (base + 2 ^ 63 * b2n host) 8 ++ leBytes (leNat digest) 64

/-- FW_MEAS as bytes. -/
def State.fwMeas (s : State) : List Byte := (List.range 8).flatMap (fun i => leBytes (s.quad (0x8040 + 8 * i)).toNat 8)

/-- FUSE_MEAS and CAL_MEAS (R463). -/
def State.fuseMeas (s : State) : List Byte :=
  Config.shake256 ((List.range 24).flatMap (fun i => leBytes (s.quad (0x100 + 8 * i)).toNat 8)) 64
def State.calMeas (s : State) : List Byte :=
  Config.shake256 (((s.storedSections.find? (fun x => decide (x.typ = 1))).map Section.body).getD []) 64

/-- The signed part of an attestation report (R463). -/
def State.report (s : State) (nonce : Nat) : List Byte :=
  let flags := s.fld Reg.SEC_STATUS_CERT_OK + 2 * b2n s.debugOpen + 4 * s.fld Reg.SEC_STATUS_DEBUG_USED +
    8 * s.fld Reg.SEC_STATUS_CAL_DIRTY + 16 * b2n s.fuse.oem.cosignReq + 32 * b2n s.fuse.oem.isSealed
  leBytes 0x54415645 4 ++ leBytes 1 2 ++ leBytes flags 2 ++ leBytes Config.serial.toNat 8 ++ leBytes s.node 2 ++
  leBytes s.sec.log.length 2 ++ leBytes (s.fld Reg.RUNNING_SVN) 4 ++ leBytes s.now 8 ++ leBytes nonce 32 ++ s.fwMeas ++
  s.fuseMeas ++ s.calMeas ++ s.sec.log.flatMap (fun e => imageEntryBytes e.2.base e.2.host e.2.digest)

/-- ATTEST: the report and its signature, then the certificate where CERT asks for it (R463, R467). -/
def doAttest (c : Cmd) (s : State) : State :=
  let cert := decide (c.field 8 1 = 1)
  let va := c.field 16 8
  let ca := c.field 24 8
  let bad := c.reservedSet ([(8, 1), (16, 8), (32, 32)] ++ if cert then [(24, 8)] else []) || decide (c.target ≠ 0) ||
    decide (2 ≤ c.field 8 1) || s.secAddrBad va || (cert && s.secAddrBad ca)
  s.checked c ((bad, 0x7F) :: s.unitChecks [watermarkUnit]) (fun s =>
    let m := s.report (c.field 32 32)
    let r := m ++ s.watermarkSign m
    let x := match s.ser.dir with
      | some d => if cert then s.flashBytes d.certOffset d.certLength else []
      | none => []
    s.mgmtWrite c va r (fun s => s.mgmtWrite c ca x (fun s =>
      s.countSignature.complete c 0 (r.length + 2 ^ 32 * x.length))))

/-- The Deckle of a site is closed. -/
def State.siteClosed (s : State) (site : Nat) : Bool :=
  match s.siteOf site with
  | some (b, x) => bitOf (s.closedMask b) x.position
  | none => false

/-- The sites, and the chains, of a summary (R465). -/
def State.summarySites (s : State) : List (Nat × SiteRun) := s.sec.sites.filter (fun x => decide (x.2.runs ≠ 0))
def State.summaryChains (s : State) : List (Nat × Nat × List Byte × Nat) :=
  s.seqs.flatMap (fun q => (q.2.chains.filter (fun x => decide (x.2.2 ≠ 0))).map (fun x => (q.1, x.1, x.2.1, x.2.2)))

/-- The signed part of a touchdown summary (R465). -/
def State.summary (s : State) (touchdown nonce : Nat) : List Byte :=
  let flags := b2n s.sec.isPartial + 2 * s.fld Reg.SEC_STATUS_DEBUG_USED + 4 * s.fld Reg.SEC_STATUS_CAL_DIRTY
  leBytes 0x4D535645 4 ++ leBytes 1 2 ++ leBytes flags 2 ++ leBytes Config.serial.toNat 8 ++ leBytes s.node 2 ++
  leBytes s.summarySites.length 2 ++ leBytes s.summaryChains.length 2 ++ leBytes s.sec.images.length 2 ++
  leBytes touchdown 4 ++ leBytes 0 4 ++ leBytes s.sec.periodStart 8 ++ leBytes s.now 8 ++ leBytes nonce 32 ++ s.fwMeas ++
  s.sec.images.flatMap (fun e => imageEntryBytes e.1 e.2.1 e.2.2) ++
  s.summarySites.flatMap (fun x => leBytes x.1 2 ++ leBytes x.2.last 1 ++
    leBytes (b2n (s.siteClosed x.1) + 2 * b2n x.2.unmeasured) 1 ++ leBytes x.2.runs 4 ++ leBytes x.2.images 8) ++
  s.summaryChains.flatMap (fun x => leBytes x.1 1 ++ leBytes x.2.1 1 ++ leBytes 0 2 ++ leBytes x.2.2.2 4 ++
    leBytes (leNat x.2.2.1) 64)

/-- A new summary period begins: at boot, at a reset of the Watermark with PARTIAL, at each SUMMARY_SIGN (R464, R470). -/
def State.newPeriod (s : State) : State :=
  { s with sec := { s.sec with periodStart := s.now, images := [], isPartial := false, sites := [] }
           seqs := s.seqs.map (fun q => (q.1, { q.2 with chains := [] })) }

/-- SUMMARY_SIGN (R465, R467). -/
def doSummarySign (c : Cmd) (s : State) : State :=
  let va := c.field 16 8
  let bad := c.reservedSet [(8, 4), (16, 12), (32, 32)] || decide (c.target ≠ 0) || s.secAddrBad va
  s.checked c ((bad, 0x7F) :: s.unitChecks [watermarkUnit]) (fun s =>
    let m := s.summary (c.field 8 4) (c.field 32 32)
    if c.field 24 4 < m.length + 3309 then s.complete c 0x7F (m.length + 3309)
    else
      let r := m ++ s.watermarkSign m
      let res := r.length + 2 ^ 32 * s.summarySites.length + 2 ^ 48 * s.summaryChains.length
      s.mgmtWrite c va r (fun s => s.countSignature.newPeriod.complete c 0 res))

end Sys2Proof.Machine
end

