-- ==== Sys2Proof/Machine/Flash.lean ====
section
/-! DEFINITION. The end of program and erase frames, of store writes and of firmware updates (spec/18 R392, R396, R405;
spec/22 R458, R459). -/

namespace Sys2Proof.Machine

open Sys2Proof

/-- `n` bytes of flash from `a` hold values the spec does not state: a frame cut short, or a comparison that failed. -/
def State.spoil (s : State) (a n : Nat) : State :=
  let d := (List.range n).map (fun i => BitVec.ofNat 8 (Config.freeValue (s.draws + i)))
  { s with draws := s.draws + n, ser := { s.ser with flash := putBytes s.ser.flash a d } }

/-- Bytes that a frame covers. -/
def FlashFrame.span (f : FlashFrame) : Nat := if f.erase = 0 then f.data.length else f.erase

/-- The program frames that the comparison after the frame in progress covers: those since the comparison before (R396). -/
def FlashJob.compared (j : FlashJob) : List FlashFrame :=
  let past := (j.plan.take (j.plan.length - j.frames.length + 1)).reverse
  (past.take 1 ++ (past.drop 1).takeWhile (fun f => !f.check)).filter (fun f => decide (f.erase = 0))

/-- The payload that the frames of a store write carry (R393, R396). -/
def FlashJob.payload (j : FlashJob) (n : Nat) : List Byte :=
  ((j.plan.filter (fun f => decide (f.erase = 0))).flatMap (fun f => f.data)).take n

/-- The first job has ended: it leaves, and the next starts (R396, R459). -/
def State.dropJob (s : State) (j : FlashJob) : State :=
  let l := s.ser.jobs.drop 1
  let isUpdate : FlashJob → Bool := fun x => (match x.aim with | .update _ _ => true | .store _ _ _ => false)
  let s1 := { s with ser := { s.ser with jobs := l } }
  let s2 := if isUpdate j then s1.setFlag Reg.SEC_STATUS_UPDATING (l.any isUpdate) else s1.setFlag Reg.STORE_STATUS_WRITING false
  State.startJob (l.length + 1) s2

/-- The first job fails: a store write with WRITE_FAIL and its event, an update with 0x50 and SECURITY (R396, R458). -/
def State.jobFails (s : State) (j : FlashJob) : State :=
  let s1 := match j.aim with
    | .store _ _ _ => s.storeFails j.asks
    | .update _ _ => (j.asks.foldl (fun (t : State) (a : StoreAsk) => t.complete a.cmd 0x50 0) s).security 2
  s1.dropJob j

/-- The first job has succeeded: the bank written becomes active, or the update completes (R396, R458, R463). -/
def State.jobDone (s : State) (j : FlashJob) : State :=
  let s1 := match j.aim with
    | .store bank seq n =>
      let t := (((s.setFld Reg.STORE_STATUS_ACTIVE bank).setFld Reg.STORE_STATUS_SEQ seq).setFld Reg.STORE_LENGTH n).bump
        Reg.STORE_WRITES 1
      let u := t.setFld Reg.STORE_LAST_TIME t.now
      let p := (sectionsOf (n + 1) (j.payload n)).1
      if u.cals.stored && p.any (fun x => decide (x.typ = 1) && decide (x.body = u.calBody)) then
        u.setFlag Reg.SEC_STATUS_CAL_DIRTY false
      else u
    | .update _ _ => s.security 1
  (j.asks.foldl (fun (t : State) (a : StoreAsk) => t.complete a.cmd a.status a.result) s1).dropJob j

/-- The frame in progress has ended with the flash ready; `good`: the comparison that follows it, if one does, matches
(R392, R396). -/
def State.frameEnds (s : State) (j : FlashJob) (f : FlashFrame) (rest : List FlashFrame) (good : Bool) : State :=
  let failed := f.check && !good
  let s1 := s.flashFrame f
  let s2 := if failed then j.compared.foldl (fun s x => s.spoil x.addr x.span) s1 else s1
  let j1 : FlashJob := { j with frames := rest, bad := j.bad || failed }
  let isStore := match j.aim with | .store _ _ _ => true | .update _ _ => false
  let go := fun (x : FlashJob) => ({ s2 with ser := { s2.ser with jobs := x :: s2.ser.jobs.drop 1 } } : State)
  if failed && !isStore then (go j1).jobFails j1
  else if !rest.isEmpty then go j1
  else if !j1.bad then (go j1).jobDone j1
  else if j1.attempt = 1 then go { j1 with frames := j1.plan, attempt := 2, bad := false }
  else (go j1).jobFails j1

/-- A fetch that waited for the flash to be ready is served (R405). -/
def State.serveFetch (s : State) : State :=
  match s.ser.wanted with
  | some w => if s.ser.reading.isEmpty then ({ s with ser := { s.ser with wanted := none } } : State).startRead w else s
  | none => s

/-- FLASH_STATUS_READ: the status of the program or erase frame in progress is read (R392). -/
def doFlashStatusRead (ready good : Bool) (s : State) : State :=
  match s.ser.jobs with
  | j :: _ =>
    match j.frames with
    | f :: rest => if !ready || !s.ser.reading.isEmpty then s else (s.frameEnds j f rest good).serveFetch
    | [] => s
  | [] => s

/-- FLASH_BUSY_TIMEOUT: the frame in progress is still busy after 2 s (R392, R458). -/
def doFlashBusyTimeout (s : State) : State :=
  match s.ser.jobs with
  | j :: _ =>
    match j.frames with
    | f :: _ => if !s.ser.reading.isEmpty then s else ((s.spoil f.addr f.span).jobFails j).serveFetch
    | [] => s
  | [] => s

/-- A reset cuts the frame in progress short (R396, R459). -/
def State.cutFrame (s : State) : State :=
  match s.ser.jobs with
  | j :: _ =>
    match j.frames with
    | f :: _ => if s.ser.reading.isEmpty then s.spoil f.addr f.span else s
    | [] => s
  | [] => s

end Sys2Proof.Machine
end

