-- ==== Sys2Proof/Machine/Units.lean ====
section
/-! DEFINITION. Units: bring-up, reset, power, retirement, and the thermal shutdown (spec/23; R432). -/

namespace Sys2Proof.Machine

open Sys2Proof

/-! ### The units of commands and programs (R473, R480) -/

/-- Sequencers of a group, the clusters it drives, and those that hold a DPS channel of its sites (R473). -/
def State.groupAllUnits (s : State) (b : Nat) : List Nat :=
  (s.members b).map seqUnit ++ s.groupClusters b ++
  ((s.group b).positions.flatMap (fun x => x.dps.map (fun n => n / 2)))

/-- Units of the program of the group led by b (R473, R480). -/
def State.programUnits (s : State) (b : Nat) : List Nat := s.groupAllUnits b ++ [memUnit, headboxUnit]

/-- The cluster of an analog command's unit (R350, R473). -/
def analogCluster (c : Cmd) : Nat :=
  match c.opcode with
  | 0x30 => c.target
  | 0x31 => c.target / 2
  | 0x34 => c.target / 2
  | _ => c.target

/-- Units a command depends on that, reset, end it (R473, R478); those that any one of several can serve are left to the
reset of the last. -/
def State.cmdUnits (s : State) (c : Cmd) : List Nat :=
  match opcodeClass c.opcode with
  | some 0 =>
    let b := s.leaderOf c.target
    if c.opcode = 0x10 ∨ c.opcode = 0x12 then s.programUnits b
    else if c.opcode = 0x23 then memUnit :: s.groupAllUnits b
    else s.groupAllUnits b
  | some 2 => [popUnit, memUnit]
  | some 1 => (if c.target = 0xFFFF then [] else [dmaUnit c.target]) ++ [memUnit]
  | some 3 => if c.opcode = 0x80 then [c.target] else []
  | some 4 => if c.opcode = 0x93 ∨ c.opcode = 0x94 ∨ c.opcode = 0x95 then [watermarkUnit] else []
  | some 5 =>
    if c.opcode = 0x32 then [c.target, seqUnit (2 * c.target + s.afld (Reg.AWG_CTRL_OWNER c.target))]
    else if c.opcode = 0x33 then [c.target, seqUnit (2 * c.target + s.afld (Reg.DG_CTRL_OWNER c.target))]
    else [analogCluster c]
  | some 6 => [memUnit]
  | some 7 => if c.opcode = 0xA0 then [memUnit] else []
  | _ => []

/-! ### What a reset stops (R478, R480, R481) -/

/-- A unit's event (R485). -/
def State.unitEvent (s : State) (u code : Nat) : State := s.raise 44 u code

/-- Every program that uses a unit stops, its sites completing 0x20; the rest of its group applies the hold vector (R480). -/
def State.stopProgramsOf (s : State) (u : Nat) : State :=
  (s.programs.map (fun g => g.1)).foldl (fun s b =>
    if (s.programUnits b).contains u then
      if u < 96 then s.cutGroup b 0x20 else s.stopAllSites b 0x20
    else s) s

/-- Waiting commands that depend on a unit complete with 0x20; one that waits for P0 has not made its checks yet, so no unit has
accepted it (R473, R478). -/
def State.dropHeld (s : State) (u : Nat) : State :=
  let hit := fun (c : Cmd) => (s.cmdUnits c).contains u
  let goes := fun (h : Held) => hit h.cmd && decide (h.wait ≠ .wake)
  let s1 := (s.held.filter goes).foldl (fun s h => s.complete h.cmd 0x20 0) { s with held := s.held.filter (fun h => !goes h) }
  (s1.starts.filter hit).foldl (fun s c => s.complete c 0x20 0) { s1 with starts := s1.starts.filter (fun c => !hit c) }

/-- A contact check of the group led by b is cut short (R20, R69). -/
def State.contactCut (s : State) (b st : Nat) : State :=
  let g := s.group b
  match g.contact with
  | none => s
  | some r =>
    let s1 := (List.range 1024).foldl (fun s p =>
      match (s.pin p).meas with
      | some m => (match m.origin with
        | .contact c _ => if c = r.cmd then (s.modPin p (fun x => { x with meas := none, connected := m.wasConnected })).contactRecord p m st 0 0 0 m.start false
          else s
        | _ => s)
      | none => s) s
    ({ s1 with groups := SMap.put s1.groups b { g with contact := none } } : State).complete r.cmd st
      (2 ^ 16 * orMask r.untested r.positions)

/-- The frames that sequencer n has retired count no longer: its cluster is reset (R125). -/
def State.unretireFrames (s : State) (n : Nat) : State := (s.modSeq n (fun q => { q with retired := [], parityHits := [] })).showFrames n

/-- The work of cluster c is cut short: measurements, AWG, contact checks, calibration, DPS readings and runs (R204, R227, R249,
R267, R419, R481). -/
def State.clusterStop (s : State) (c : Nat) : State :=
  let s1 := s.groups.foldl (fun s g => if (s.groupClusters g.1).contains c then s.contactCut g.1 0x20 else s) s
  let s2 := (List.range 32).foldl (fun s i => s.cutMeas (32 * c + i) 0x20 0 0 0 false) s1
  let s3 := ((s2.tmuAbort (2 * c) 0x20).tmuAbort (2 * c + 1) 0x20).awgReset c
  let s4 := s3.dgAbort c 0x20
  let s5 := [2 * c, 2 * c + 1].foldl (fun s n =>
    let l := s.dpsLeader n
    ((s.dpsCut l 0x20).endRuns l 0 0x20).endRuns l 1 0x20) s4
  let s6 := ((s5.cluster c).ppmuRuns).foldl (fun s r => s.complete r.cmd 0x20
    (r.measured + 2 ^ 32 * orMask r.missed (ofBits r.left) + 2 ^ 64 * r.flagged)) s5
  ((s6.modCluster c (fun k => { k with ppmuRuns := [] })).abortCal c 0x20 |>.unretireFrames (2 * c)).unretireFrames (2 * c + 1)

/-- The DPS channels of cluster c, and the gangs that they are of, which act as one channel, go to state 0 at once (R259, R267). -/
def State.clusterDpsOff (s : State) (c : Nat) : State :=
  [2 * c, 2 * c + 1].foldl (fun s n =>
    (s.gangOf n).foldl (fun s m =>
      ((s.modDps m (fun d => { d with vref := 0, e1 := 0, i1 := 0, blanked := false, outside := 0 })).setFld
        (Reg.DPS_STATUS_STATE m) 0).showTrip m) s) s

/-- Writes to the windows of unit u that a program held back are put in force at once: the unit is reset (R481). -/
def State.takeHeldWrites (s : State) (u : Nat) : State :=
  if u < 32 then
    let s1 := (((s.releasePins (2 * u)).releasePins (2 * u + 1)).takePeriods u).takeTmu (2 * u) |>.takeTmu (2 * u + 1)
    ((s1.takeAwg u).takeDg u).takeDps (2 * u) |>.takeDps (2 * u + 1)
  else if u < 96 then s.releaseSeq (u - 32)
  else s

/-- The state of sequencer n is cleared: its TMU's measurement (R204), that of the digitizer
it owns (R249), control-store frames, stream buffer, elastic records; all of its group leave their
rings (R165, R168, R184, R481). -/
def State.seqCut (s : State) (n : Nat) : State :=
  let s0 := if s.dgOwner (n / 2) = n then s.dgAbort (n / 2) 0x20 else s
  let s1 := ((s0.tmuAbort n 0x20).departGroup (s.leaderOf n) false |>.discardRecords n 1 (fun _ => true)).invalidateFrames n
  (s1.modSeq n (fun q => { q with buffer := [], ringNext := 0 })).showBuffer n

/-- In-flight accesses end, the translation cache is emptied, page requests are abandoned; DMA transfers and FELT_COPYs
under way end with 0x20 (R318, R478, R481). -/
def State.memCut (s : State) : State :=
  let s1 := (List.range 8).foldl (fun s e =>
    ((s.dmaRec e).held.filter (fun t => t.started)).foldl (fun s t => s.endTransfer e t
      (first16 (if t.poisoned ≠ 0 then 0x12 else 0) 0x20) none none) s) s
  let s2 := s1.felt.copies.foldl (fun s x => if x.running then s.endCopy x 0x20 0 0xFF 0 else s) s1
  ({ s2 with mem := { s2.mem with
      atc := [], noGroup := [], decided := []
      atsRequests := s2.mem.atsRequests.map (fun r => { r with waiters := [] })
      groups := s2.mem.groups.map (fun g => { g with waiters := [] }) } } : State).showPinned

/-- Every ring is emptied (R168, R481). -/
def State.headboxCut (s : State) : State := (List.range 64).foldl (fun s n => (s.leaveRing false n).showBuffer n) s

/-- Every defined test is released, queued readings are discarded; a group that waits on a population condition stops
(R292). -/
def State.popCut (s : State) : State :=
  let waits := fun (b : Nat) (g : Program) => decide (g.wait = 1) &&
    (match s.fetchWord b g.micro.pc with
      | some (_, _, w) => decide (wCond w = 13) || decide (wCond w = 14)
      | none => false)
  let s1 := s.programs.foldl (fun s g =>
    if waits g.1 g.2 then s.stopAllSites g.1 0x20 else s) s
  let s2 := s1.popTests.foldl (fun s x => s.endAnswers x.2 0x20) s1
  (({ s2 with popTests := [], popInput := [] } : State).setFld Reg.POP_STATUS_TESTS_DEFINED 0).setFld Reg.POP_STATUS_IN_FILL 0

/-- Messages of this node that wait to leave on port p are lost with it: nothing stale is sent once the port is ready again
(R25). -/
def State.dropInject (s : State) (p : Nat) : State :=
  let l := s.felt.inject.filter (fun e => e.pkt.dest = everyNode || !s.leavesOn e p)
  { s with felt := { s.felt with inject := l.map (fun e => { e with outs := e.outs.filter (fun q => decide (q ≠ p)) }) } }

/-- Felt port p loses its buffers, and its transmit queue what it held, and goes DISABLED (R25, R367, R385, R481). -/
def State.portCut (s : State) (p : Nat) : State :=
  let up := decide (s.portState p = 4)
  let s0 := s.dropInject p
  let s1 := s0.modPort p (fun x => { x with replay := [], inBuf := [], retraining := false, fresh := true, id0 := none })
  let s2 := s1.portEnter p 0
  if up then s2.announce p false else s2

/-- The Watermark's chains restart, and the next summary carries PARTIAL (R460, R464, R470, R481). -/
def State.watermarkCut (s : State) : State :=
  let s1 := { s with sec := { s.sec with periodStart := s.now, images := [], isPartial := true, sites := [] } }
  { s1 with seqs := s1.seqs.map (fun q => (q.1, { q.2 with chains := [] })) }

/-- The steps 1 to 3 of R478 for one unit; `dps`: the DPS channels of a cluster go to state 0 at once, which they do but in a
thermal shutdown, where they ramp down (R267, R432). -/
def State.cutUnit (s : State) (u : Nat) (dps : Bool) : State :=
  let s1 := ((s.setFlag (Reg.UNIT_READY u) false).bump Reg.RESETS 1).unitEvent u 2
  let s2 := (s1.stopProgramsOf u).dropHeld u
  let s3 :=
    if u < 32 then if dps then (s2.clusterStop u).clusterDpsOff u else s2.clusterStop u
    else if u < 96 then s2.seqCut (u - 32)
    else if u = memUnit then s2.memCut
    else if u = headboxUnit then s2.headboxCut
    else if u < 102 then s2.portCut (u - 98)
    else if u = popUnit then s2.popCut
    else if u < 111 then s2.dmaReset (u - 103)
    else s2.watermarkCut
  let s4 := (({ s3 with power := { s3.power with asleep := s3.power.asleep.erase u } }) : State).takeHeldWrites u
  if 98 ≤ u ∧ u < 102 ∧ !(List.range 4).any (fun p => s4.ready (portUnit p)) then s4.feltLayerReset else s4

/-- The steps 1 to 3 of R478 for one unit that is reset or powered down by a command. -/
def State.dropUnit (s : State) (u : Nat) : State := s.cutUnit u true

/-- The units named, with those implied: a cluster implies its two sequencers (R478). -/
def withImplied (us : List Nat) : List Nat :=
  (us ++ (us.filter (fun u => decide (u < 32))).flatMap (fun u => [32 + 2 * u, 33 + 2 * u])).dedup

/-! ### Registers of a powered unit (R508) -/

/-- The unit whose power-up gives the quad at `a` its reset value (R508). -/
def powerUnit (a : Nat) : Option Nat :=
  if 0x3000 ≤ a ∧ a < 0x4000 then some memUnit
  else if 0xA000 ≤ a ∧ a < 0xB000 then some headboxUnit
  else if 0x9000 ≤ a ∧ a < 0xA000 then some popUnit
  else blockUnit a

/-- The registers of units take their reset values (R508). -/
def State.resetRegs (s : State) (us : List Nat) : State :=
  let keep := fun (x : Nat × BitVec 64) => !(powerUnit x.1).any us.contains
  { s with regs := s.regs.filter keep, applied := s.applied.filter keep
           timing := s.timing.filter (fun x => !us.contains (tsCluster x.1))
           timingApplied := s.timingApplied.filter (fun x => !us.contains (tsCluster x.1)) }

/-- The pins of powered-up clusters stand as after reset: parked until the first program on their sequencer; the safe state of a
closed site stays (R71). -/
def State.resetPins (s : State) (us : List Nat) : State :=
  { s with pins := s.pins.map (fun p => if p.1 < 1024 ∧ us.contains (p.1 / 32) then (p.1, { safe := p.2.safe }) else p) }

/-! ### Bring-up (R475 to R477) -/

/-- The command of a bring-up calibration: no host command. -/
def noCmd : Cmd := { queue := 256, entry := 0#512 }

/-- Records that a cluster's full calibration makes: its pins, its reference channel and its units (R410, R476). -/
def clusterRecords (c : Nat) : List (Nat × Nat) :=
  [1, 2, 3, 4, 5].flatMap (fun k => (trackedUnits c k).map (fun u => (k, u)))


/-- The checks of a cluster that starts: its PLL locks and aligns, the constants in the store become the targets, the clamp
monitors and its DPS channels check themselves (R60, R265, R476). -/
def State.clusterChecks (s : State) (c : Nat) (r : BringUp) : State :=
  let s1 := (s.setFlag (Reg.CLK_STATUS_LOCKED c) true).alignCluster c
  let s2 := (clusterRecords c).foldl
    (fun s x => (List.range (calWords x.1)).foldl (fun s i => s.setTarget x.1 x.2 i (s.calBase x.1 x.2 i)) s) s1
  let s3 := doClampSelfCheck c (~~~r.cal.clamps) s2
  [0, 1].foldl (fun s i =>
    (s.dpsChecked (2 * c + i) false (!bitOf r.cal.level1.toNat i)).dpsChecked (2 * c + i) true (!bitOf r.level2.toNat i)) s3

/-- A cluster that starts with no record of its own in the store is calibrated whole (R410, R418, R476). -/
def State.clusterCal (s : State) (c : Nat) (r : BringUp) : State :=
  if (clusterRecords c).any (fun x => !s.calHas x.1 x.2) then
    let run : CalRun :=
      { cmd := noCmd, cluster := c, clamps := r.cal.clamps.toNat, level1 := r.cal.level1.toNat
        records := r.cal.records.map (fun x => (x.kind.val, x.unit.toNat, x.words.map BitVec.toNat))
        preempt := false, store := true, left := [] }
    let t := [0, 1, 3, 4].foldl (fun (x : CalRun × State) k => x.2.calKind x.1 k) (run, s)
    let u := t.2.setFlag Reg.BRINGUP_FULL_CAL true
    { u with units := { u.units with calDue := true } }
  else s

/-- A cluster starts: its PLL, stored constants, self-checks, a full calibration where a record is missing, its first
tracking cycle. Whether it is usable (R476, R477). -/
def State.startCluster (s : State) (c : Nat) (r : BringUp) : Bool × State :=
  if !r.ok then (false, s)
  else (r.track.ratios, ((((s.clusterChecks c r).clusterCal c r).trackCycle c r.track).applyTargets c))

/-- The memory stack starts: its pairs, every block zero with clean check bytes (R294, R295, R475, R477). -/
def State.startMemory (s : State) (r : BringUp) : Bool × State :=
  let pairs := minusMask r.pairs.toNat s.units.pairs
  let s1 := (s.setFld Reg.MEM_DESC_PAIRS_PRESENT pairs).setFld Reg.MEM_DESC_PAIRS (setBits pairs 16).length
  (r.ok && decide (pairs ≠ 0), { s1 with mem := { s1.mem with cells := [], poison := [], latent := [], scrubBlock := 0 } })

/-- A waiting command whose every unit has become ready or failed completes (R484). -/
def State.endUnitAsks (s : State) : State :=
  s.units.asks.foldl (fun s a =>
    let settled := fun u => s.ready u || s.flag (Reg.UNIT_FAILED u)
    if a.units.all settled then
      ({ s with units := { s.units with asks := s.units.asks.eraseP (fun x => decide (x.cmd = a.cmd)) } } : State).complete a.cmd
        (if a.units.all s.ready then 0 else 0x50) ((s.quad 0x40).toNat + 2 ^ 64 * (s.quad 0x48).toNat)
    else s) s

/-- A unit has become ready, or has failed its start (R475, R477, R485). -/
def State.unitStarted (s : State) (u : Nat) (ok : Bool) : State :=
  let s1 := { s with units := { s.units with restarting := s.units.restarting.erase u } }
  if ok then ((s1.setFlag (Reg.UNIT_READY u) true).setFlag (Reg.UNIT_FAILED u) false).unitEvent u 1
  else (s1.setFlag (Reg.UNIT_FAILED u) true).unitEvent u 3

/-- After a start: ALL_READY, ports that may train, the section of a bring-up calibration once every cluster is ready or has
failed (DEDUCED: a failed one never is ready, R477), waiting commands (R418, R476, R484). -/
def State.afterStart (s : State) : State :=
  let s1 := s.showAllReady.showPorts
  let s2 := if s1.units.calDue && (List.range 32).all (fun c => !s1.present c || s1.ready c || s1.flag (Reg.UNIT_FAILED c)) then
      ({ s1 with units := { s1.units with calDue := false } } : State).requestStore none
    else s1
  s2.endUnitAsks

/-- The unit may be ready: present, powered (R473, R508). -/
def State.unitOn (s : State) (u : Nat) : Bool := s.present u && !s.flag (Reg.UNIT_OFF u)

/-- A unit is started; with a cluster, its sequencers (R475 to R477, R479). -/
def State.startUnit (s : State) (u : Nat) (r : BringUp) (restart : Bool) : State :=
  let x : Bool × State :=
    if u < 32 then s.startCluster u r
    else if u = memUnit then
      if restart then (r.ok, s) else s.startMemory r
    else (r.ok, s)
  let s1 := x.2.unitStarted u x.1
  let s2 := if u < 32 && x.1 then
      ([32 + 2 * u, 33 + 2 * u].filter s1.unitOn).foldl (fun s v => s.unitStarted v true) s1
    else s1
  s2.afterStart

/-- A cluster's earlier neighbours of its converter group have been started (R475). -/
def State.groupTurn (s : State) (c : Nat) : Bool :=
  (List.range (c % 4)).all (fun i =>
    let k := 4 * (c / 4) + i
    !s.unitOn k || s.ready k || s.flag (Reg.UNIT_FAILED k))

/-- UNIT_BRINGUP: the firmware starts a present unit, at boot or after a power-up (R475 to R477, R479). -/
def doUnitBringup (u : Nat) (r : BringUp) (s : State) : State :=
  if !s.flag Reg.SEC_STATUS_BOOTED || s.power.shutdown || !s.unitOn u || s.ready u || s.flag (Reg.UNIT_FAILED u) ||
      s.units.restarting.contains u || s.power.asleep.contains u || (decide (u < 32) && !s.groupTurn u) ||
      (decide (32 ≤ u) && decide (u < 96) && !s.ready ((u - 32) / 2)) then s
  else s.startUnit u r false

/-- UNIT_RESTART: a reset unit finishes restarting (R479). -/
def doUnitRestart (u : Nat) (r : BringUp) (s : State) : State :=
  if s.power.shutdown || !s.units.restarting.contains u || !s.unitOn u || (decide (32 ≤ u) && decide (u < 96) && !s.ready ((u - 32) / 2) &&
      s.units.restarting.contains ((u - 32) / 2)) then s
  else s.startUnit u r true

/-! ### Commands (R484) -/

/-- Units named by MASK (R484). -/
def Cmd.maskUnits (c : Cmd) : List Nat := setBits (c.field 16 16) 128

/-- A unit command breaks its layout (R484). -/
def unitBad (c : Cmd) (used : List (Nat × Nat)) : Bool :=
  c.reservedSet used || decide (c.target ≠ 0) || c.maskUnits.isEmpty || c.maskUnits.any (fun u => decide (unitCount ≤ u))

/-- Units ready, as a result (R484). -/
def State.readyMap (s : State) : Nat := (s.quad 0x40).toNat + 2 ^ 64 * (s.quad 0x48).toNat

/-- UNIT_RESET (R478, R484, R486). -/
def doUnitReset (c : Cmd) (s : State) : State :=
  s.checked c ([(unitBad c [(16, 16)], 0x7F), (c.maskUnits.any (fun u => !s.present u), 0x21)] ++ s.shutChecks) (fun s =>
    let us := (withImplied c.maskUnits).filter s.present
    let s1 := us.foldl (fun s u => s.dropUnit u) s
    let s2 := us.foldl (fun s u => (s.setFlag (Reg.UNIT_FAILED u) false).setFlag (Reg.UNIT_OFF u) false) s1
    { s2 with units := { s2.units with
        restarting := us.foldl (fun l u => addOnce u l) s2.units.restarting
        asks := s2.units.asks ++ [{ cmd := c, units := c.maskUnits }] } })

/-- What a memory stack that loses power forgets: contents, and every DTT entry with HOST 0 (R298, R481). -/
def State.memoryOff (s : State) : State :=
  { s with mem := { s.mem with
      cells := [], poison := [], latent := []
      dtt := s.mem.dtt.filter (fun e => bitOf e.2.toNat 3) } }

/-- A unit is left unpowered (R478, R508). -/
def State.unitOff (s : State) (u : Nat) : State :=
  let s1 := (s.setFlag (Reg.UNIT_OFF u) true).setFlag (Reg.UNIT_FAILED u) false
  let s2 := { s1 with units := { s1.units with restarting := s1.units.restarting.erase u } }
  if u = memUnit then s2.memoryOff else s2

/-- UNIT_POWER with 0: the units lose power; a reset under way is abandoned. Byte 8 from 2 is reserved (R478, R484, R486). -/
def doUnitPowerDown (c : Cmd) (s : State) : State :=
  s.checked c ([(unitBad c [(8, 1), (16, 16)] || decide (c.field 8 1 ≠ 0), 0x7F), (c.maskUnits.any (fun u => !s.present u), 0x21)] ++ s.shutChecks) (fun s =>
    let us := (withImplied c.maskUnits).filter s.present
    let s1 := us.foldl (fun s u => ((s.dropUnit u).unitOff u).unitEvent u 5) s
    let gone := s1.units.asks.filter (fun a => a.units.any us.contains)
    let s2 := gone.foldl (fun s a => s.complete a.cmd 0x50 s.readyMap)
      { s1 with units := { s1.units with asks := s1.units.asks.filter (fun a => !a.units.any us.contains) } }
    let s3 := s2.showAllReady.showPorts
    s3.complete c 0 s3.readyMap)

/-- UNIT_POWER with 1: the registers of the units take their reset values, and their bring-up follows (R479, R484, R508). -/
def doUnitPowerUp (c : Cmd) (s : State) : State :=
  s.checked c ([(unitBad c [(8, 1), (16, 16)], 0x7F), (c.maskUnits.any (fun u => !s.present u), 0x21)] ++ s.shutChecks) (fun s =>
    let us := ((withImplied c.maskUnits).filter s.present).filter (fun u => s.flag (Reg.UNIT_OFF u))
    let s1 := us.foldl (fun s u => (s.setFlag (Reg.UNIT_OFF u) false).setFlag (Reg.UNIT_FAILED u) false) s
    let s2 := (s1.resetRegs us).resetPins us
    ({ s2 with units := { s2.units with asks := s2.units.asks ++ [{ cmd := c, units := c.maskUnits }] } } : State).endUnitAsks)

/-- A lane set holds a width that trains (R482). -/
def laneWidth (lanes : Nat) : Bool :=
  [8, 4, 2, 1].any (fun w =>
    (List.range w).all (fun i => !bitOf lanes i) || (List.range w).all (fun i => !bitOf lanes (7 - i)))

/-- The kind of a unit that may be retired (R482). -/
def retirable (u : Nat) : Bool :=
  decide (u < 96) || (decide (98 ≤ u) && decide (u < 102)) || (decide (103 ≤ u) && decide (u < 111))

/-- The log of retirements takes entries at the present cell time; the 256th replaces the oldest (R483). -/
def State.logRetire (s : State) (l : List (Nat × Nat)) : State :=
  let all := s.units.log ++ l.map (fun e => (s.now, e.1, e.2))
  { s with units := { s.units with log := all.drop (all.length - 255) } }

/-- UNIT_RETIRE: the units are reset and left unpowered, the records stored (R482, R484, R485). -/
def doUnitRetire (c : Cmd) (s : State) : State :=
  let pairs := c.field 32 2
  let lanes := c.field 34 1
  let bad := unitBad c [(16, 19)] || c.maskUnits.any (fun u => !retirable u) ||
    decide (orMask s.units.pairs pairs = 0xFFFF) || !laneWidth (orMask s.units.lanes lanes)
  s.checked c ((bad, 0x7F) :: s.shutChecks) (fun s =>
    let us := withImplied c.maskUnits
    let s1 := (us.filter s.present).foldl (fun s u =>
      let t := (s.dropUnit u).unitOff u
      ((t.setFlag (Reg.UNIT_RETIRED u) true).setFlag (Reg.UNIT_PRESENT u) false).unitEvent u 4) s
    let s2 := { s1 with units := { s1.units with
      retired := orMask s1.units.retired (ofBits us), pairs := orMask s1.units.pairs pairs, lanes := orMask s1.units.lanes lanes } }
    let s3 := s2.logRetire (us.map (fun u => (0, u)) ++ (setBits pairs 16).map (fun p => (1, p)) ++
      (setBits lanes 8).map (fun k => (2, k)))
    let s4 := (s3.setFld Reg.DEGRADED_PAIRS_RETIRED (orMask (s3.fld Reg.DEGRADED_PAIRS_RETIRED) pairs)).setFld
      Reg.DEGRADED_LANES_RETIRED (orMask (s3.fld Reg.DEGRADED_LANES_RETIRED) lanes)
    let s5 := if pairs ≠ 0 ∨ lanes ≠ 0 then s4.setFlag Reg.DEGRADED_PENDING true else s4
    let s6 := (setBits lanes 8).foldl (fun s k => s.unitEvent (0x8100 + k) 4)
      ((setBits pairs 16).foldl (fun s p => s.unitEvent (0x8000 + p) 4) s5)
    (s6.showAllReady.showPorts).requestStore (some { cmd := c, status := 0, result := s6.units.retired }))

/-- UNIT_UNRETIRE: records are cleared, in effect at the next bring-up (R482, R484). -/
def doUnitUnretire (c : Cmd) (s : State) : State :=
  let pairs := c.field 32 2
  let lanes := c.field 34 1
  let bad := unitBad c [(16, 19)] || c.maskUnits.any (fun u => !bitOf s.units.retired u) ||
    decide (minusMask pairs s.units.pairs ≠ 0) || decide (minusMask lanes s.units.lanes ≠ 0)
  s.checked c ((bad, 0x7F) :: s.shutChecks) (fun s =>
    let us := c.maskUnits
    let s1 := { s with units := { s.units with
      retired := minusMask s.units.retired (ofBits us), pairs := minusMask s.units.pairs pairs
      lanes := minusMask s.units.lanes lanes } }
    let s2 := s1.logRetire (us.map (fun u => (3, u)) ++ (setBits pairs 16).map (fun p => (4, p)) ++
      (setBits lanes 8).map (fun k => (5, k)))
    let s3 := if pairs ≠ 0 ∨ lanes ≠ 0 then s2.setFlag Reg.DEGRADED_PENDING true else s2
    s3.requestStore (some { cmd := c, status := 0, result := s3.units.retired }))

/-! ### Thermal shutdown (R432, R437) -/

/-- The device shuts down: programs stop with 0x50, pins go to high impedance, DPS channels ramp down, the event, the log and
the store; every present unit loses its power by the steps of R478, and none is ready until PERST# (R432, R437, R478, R486). -/
def State.thermalShutdown (s : State) : State :=
  if s.power.shutdown then s
  else
    let s1 := (((s.setFld Reg.PWR_STATUS_STATE 0).setFlag Reg.PWR_STATUS_ENTERING false).setFlag Reg.PWR_STATUS_EXITING false)
    let s2 := (s1.programs.map (fun g => g.1)).foldl (fun s b => s.haltGroup b 0x50) s1
    let s3 := (List.range 64).foldl (fun s n => if s.dpsLeads n then s.dpsOffReq n 0x20 else s) s2
    let s4 := (s3.modUsage (fun u => { u with shutdowns := u.shutdowns + 1 })).raise 0 0 (s3.fld Reg.THERM_STATUS_JUNCTION)
    let s5 := ((List.range unitCount).filter s4.present).foldl (fun s u => s.cutUnit u false) s4
    let s6 := (List.range 1024).foldl (fun s p => s.modPin p (fun x =>
      { x with drive := .off, load := false, connected := false, parked := true })) s5
    let s7 := s6.units.asks.foldl (fun s a => s.complete a.cmd 0x50 0)
      { s6 with units := { s6.units with restarting := [], asks := [] }
                power := { s6.power with shutdown := true, asleep := [], target := 0 } }
    (s7.setFlag Reg.BRINGUP_ALL_READY false).showPorts.requestStore none

/-- THERMAL_SAMPLE (R428 to R430, R432, R436). -/
def doThermalSample (temps : List (BitVec 16)) (s : State) : State :=
  let r := s.thermalSample temps
  if r.1 then r.2.thermalShutdown else r.2

end Sys2Proof.Machine
end

