-- ==== Sys2Proof/Machine/Boot.lean ====
section
/-! DEFINITION. Resets of the whole device and the boot (spec/20 R434; spec/22 R456, R457, R461, R468; spec/23 R474, R483;
spec/24 R492, R494, R505). -/

namespace Sys2Proof.Machine

open Sys2Proof

/-! ### Resets (R434, R474, R494, R505) -/

/-- The device as a reset leaves it: every register at its reset value with the fuse banks read anew. What lies outside
the part or outlasts a reset stays: fuses, flash, host memory, the test access port, outside drivers of the event lines. -/
def State.wiped (s : State) : State :=
  let t := s.cutFrame
  ({ State.reset with
     pending := t.pending, draws := t.draws, burned := t.burned, fuse := { variant := t.fuse.variant, oem := t.burned }
     ser := { flash := t.ser.flash }
     mem := { host := t.mem.host, hostPoison := t.mem.hostPoison, hostError := t.mem.hostError }
     ev := { lines := (t.ev.lines.filter (fun l => l.2.outside)).map (fun l => (l.1, { outside := true })) }
     jtag := t.jtag, perst := t.perst, internalReset := t.internalReset, xref := t.xref } : State).showLines

/-- A reset as PERST# makes, or as a reset-level dip does; RESET_CAUSE says which, and whether a thermal shutdown
preceded it (R438). -/
def State.resetBy (s : State) (supply : Bool) : State :=
  let t := s.wiped
  ((t.setFlag Reg.RESET_CAUSE_PERST (!supply)).setFlag Reg.RESET_CAUSE_SUPPLY supply).setFlag Reg.RESET_CAUSE_THERMAL s.power.shutdown

/-- PERST_ASSERT: the device is held in reset (R474). -/
def doPerstAssert (s : State) : State := if s.perst then s else { s.resetBy false with perst := true }

/-- PERST: PERST# is released, and the reference is chosen; `xref`: XREF carries a clock (R474, R492). A release that no
assertion came before stands for the whole pulse. -/
def doPerst (xref : Bool) (s : State) : State :=
  let t := if s.perst then s else s.resetBy false
  { t with perst := false, xref := xref }

/-- A reset-level dip, or the loss of the reference in use: the device resets and is held so (R434, R494). -/
def State.supplyLost (s : State) : State := if s.perst then { s with internalReset := true } else { s.resetBy true with internalReset := true }

/-- SUPPLY_RESET (R434). -/
def doSupplyReset (_ : Nat) (s : State) : State := s.supplyLost

/-- REFERENCE_LOSS (R494). -/
def doReferenceLoss (s : State) : State := s.supplyLost

/-- INTERNAL_RESET_RELEASE (R505). -/
def doInternalResetRelease (s : State) : State := { s with internalReset := false }

/-! ### Boot (R456, R457) -/

/-- An image in flash and its result (R456 steps 3 to 5). -/
def State.tryImage (s : State) (offset n : Nat) : Nat × FwImage :=
  let d := s.flashBytes offset n
  (s.fwResult d n, fwImageOf d offset n)

/-- The image that the boot runs, or the failure of the last one tried; and whether the second directory copy named it. -/
def State.chooseImage (s : State) (x : Directory) (second : Bool) : Nat × FwImage × Bool :=
  let a := s.tryImage x.fwOffset x.fwLength
  let b := s.flashBytes 0x1000 96
  let y := directoryOf b
  if a.1 = 1 ∨ second ∨ !directoryValid b ∨ y.fwOffset = x.fwOffset then (a.1, a.2, second)
  else
    let c := s.tryImage y.fwOffset y.fwLength
    (c.1, c.2, true)

/-- FW_MEAS and RUNNING_SVN take the image that runs (R456 step 6). -/
def State.runImage (s : State) (i : FwImage) : State :=
  let s1 := (List.range 8).foldl (fun s k => s.setQuad (0x8040 + 8 * k) (BitVec.ofNat 64 (leNat ((i.digest.drop (8 * k)).take 8)))) s
  let s2 := s1.setFld Reg.RUNNING_SVN i.svn
  { s2 with sec := { s2.sec with running := some i } }

/-- The certificate is read and its key compared (R461). -/
def State.checkCertificate (s : State) (x : Directory) : State :=
  let key := if x.certLength ≤ 8192 then Config.certKey (s.flashBytes x.certOffset x.certLength) else none
  if key = some (Config.mldsaPublicKey identitySeed) then s.setFlag Reg.SEC_STATUS_CERT_OK true else s.security 5

/-- The bank in use and its sections (R394, R395). -/
def State.loadBank (s : State) (x : Directory) : State :=
  if s.flag Reg.STORE_STATUS_LAYOUT_ERR then s
  else
    let a := s.bankAt x.bankA x.bankSize
    let b := s.bankAt x.bankB x.bankSize
    let k := chooseBank a b
    let h := (if k.1 = 1 then a else b).getD (0, 0)
    let r := sectionsOf (h.2 + 1) (s.flashBytes ((if k.1 = 1 then x.bankA else x.bankB) + 16) h.2)
    if k.1 = 0 then s
    else
      let t := ((((s.setFld Reg.STORE_STATUS_ACTIVE k.1).setFlag Reg.STORE_STATUS_AMBIG k.2).setFld Reg.STORE_STATUS_SEQ h.1).setFld
        Reg.STORE_LENGTH h.2).setFlag Reg.STORE_STATUS_SECTION_ERR r.2
      { t with ser := { t.ser with sections := r.1 } }

/-- The usage log, with this boot counted, and the registers that it fills (R435, R436, R438). -/
def State.loadUsage (s : State) : State :=
  let d := match s.section 2 with
    | some d => if d.length = 316 then d else []
    | none => []
  let u := if d = [] then ({} : Usage) else usageOf d
  let dip := s.flag Reg.RESET_CAUSE_SUPPLY
  let t := { s with power := { s.power with usage := { u with
    boots := saturate 32 (u.boots + 1), supplyResets := if dip then saturate 32 (u.supplyResets + 1) else u.supplyResets } } }
  ((List.range 32).foldl (fun s c => if s.present c then s.setFld (Reg.AGE_PPM c) (bytesField d (184 + 4 * c) 4) else s) t).setFld
    Reg.THERM_STATUS_PEAK (bytesField d 312 2)

/-- The calibrated constants of the stored records (R410). -/
def State.loadCal (s : State) : State :=
  match (s.section 1).bind calBodyOf with
  | none => s
  | some (temp, time, l, x, k) =>
    let s1 := l.foldl (fun s r => (List.range r.2.2.length).foldl (fun s i => s.setBase r.1 r.2.1 i (r.2.2.getD i 0)) s)
      s
    { s1 with cals := { s1.cals with stored := true, temp := temp, time := time, extra := x, extraCount := k } }

/-- The retirement record (R482, R483). -/
def State.loadRetired (s : State) : State :=
  match s.section 4 with
  | none => s
  | some d =>
    let units := ofBits ((setBits (bytesField d 0 16) 128).filter (fun u => retirable u && s.fuse.unitExists u))
    let n := min (bytesField d 20 4) ((d.length - 24) / 16)
    let log := (List.range n).map (fun i => (bytesField d (24 + 16 * i) 8, bytesField d (32 + 16 * i) 1, bytesField d (33 + 16 * i) 2))
    let s1 := (setBits units 128).foldl (fun s u =>
      ((s.setFlag (Reg.UNIT_RETIRED u) true).setFlag (Reg.UNIT_PRESENT u) false).setFlag (Reg.UNIT_OFF u) true) s
    let s2 := (s1.setFld Reg.DEGRADED_PAIRS_RETIRED (bytesField d 16 2)).setFld Reg.DEGRADED_LANES_RETIRED (bytesField d 18 1)
    { s2 with units := { s2.units with retired := units, pairs := bytesField d 16 2, lanes := bytesField d 18 1, log := log } }

/-- The entries of the OEM configuration are applied in order (R454, R468). -/
def State.applyOem (s : State) : State :=
  match s.section 3 with
  | none => s
  | some d => (oemEntries d).foldl (fun s e => s.barForce e.1 (decide (e.2.1 = 8)) e.2.2) s

/-- Step 7: BOOTED sets, the Watermark is ready, a summary period begins (R456, R464). -/
def State.booted (s : State) : State :=
  let s1 := (s.setFld Reg.SEC_STATUS_BOOT_RESULT 1).setFlag Reg.SEC_STATUS_BOOTED true
  (s1.unitStarted watermarkUnit true).newPeriod.afterStart

/-- BOOT (R456, R457): from the release of PERST# to BOOTED, or to the failure that stays until the next PERST#. -/
def doBoot (s : State) : State :=
  if s.fld Reg.SEC_STATUS_BOOT_RESULT ≠ 0 then s
  else match s.readDirectory with
    | none => s.setFld Reg.SEC_STATUS_BOOT_RESULT 2
    | some (d, second) =>
      let x := directoryOf d
      let s1 := s.useDirectory d second
      let c := s1.chooseImage x second
      let s2 := s1.setFlag Reg.SEC_STATUS_DIR_COPY c.2.2
      if c.1 ≠ 1 then s2.setFld Reg.SEC_STATUS_BOOT_RESULT c.1
      else
        let s3 := ((s2.runImage c.2.1).checkCertificate x).loadBank x
        s3.loadRetired.loadUsage.loadCal.applyOem.booted

end Sys2Proof.Machine
end

