-- ==== Sys2Proof/Machine/Jtag.lean ====
section
/-! DEFINITION. The test access port: one scan of the data register that an instruction selects (spec/22 R469; spec/24
R503). A row loads its instruction, then captures, shifts and updates once. -/

namespace Sys2Proof.Machine

open Sys2Proof

/-- Boundary-register cells: pin, DPS, AWG and digitizer balls, PERST#, CLKREQ#, flash, cell port, event lines, XREF
(R502, R503). -/
def boundaryLength : Nat := 1024 + 384 + 96 + 2 + 13 + 8 + 8 + 1

/-- A scan of a register that has captured `old`: the bits shifted out, and what the register then holds. -/
def scan (old shift : List Bool) : List Bool × List Bool :=
  ((old ++ shift).take shift.length, (old ++ shift).drop shift.length)

/-- The bits of a number, the lowest shifted out first. -/
def bitsFrom (n w : Nat) : List Bool := (List.range w).map (fun i => bitOf n i)

/-- A scan of the bypass register under instruction `ir`: one bit, captured 0. -/
def State.bypassScan (s : State) (ir : Nat) (shift : List Bool) : State :=
  { s with jtag := { s.jtag with ir := ir, out := (scan [false] shift).1 } }

/-- EXTEST, CLAMP and HIGHZ are permitted: no program runs, and every DPS channel is in state 0 (R469). -/
def State.scanFree (s : State) : Bool := s.programs.isEmpty && (List.range 64).all (fun n => decide (s.dpsState n = 0))

/-- The ball of pin p, row and column (R501). -/
def pinBall (p : Nat) : Nat × Nat :=
  let c := p / 32
  let i := p % 32
  (3 + 9 * (c / 4) + 1 + 2 * (i / 8), 1 + 16 * (c % 4) + 2 * (i % 8))

/-- The boundary-register cell of pin p, counted from the lowest position: 32 cells in rows 1 and 2, then for every four
clusters four rows of 32 pins and one of 60 analog balls (R501 to R503). -/
def pinCell (p : Nat) : Nat :=
  let c := p / 32
  let i := p % 32
  32 + 188 * (c / 4) + 32 * (i / 8) + 8 * (c % 4) + i % 8

/-- What cell k drives on its output or bidirectional ball under EXTEST or CLAMP; none otherwise (R469, R503). -/
def State.cellDrives (s : State) (k : Nat) : Option Bool :=
  if s.scanFree && (decide (s.jtag.ir = 0x00) || decide (s.jtag.ir = 0x04)) then some (s.jtag.latches.getD k false) else none

/-- The voltage on pin p's ball, µV, none at high impedance: 0 V or 1.8 V from its cell under EXTEST or CLAMP, high impedance
under HIGHZ and while the device is in reset, else the driver's (R474, R491, R503). -/
def State.pinAtBall (s : State) (p : Nat) : Option Int :=
  match s.cellDrives (pinCell p) with
  | some b => some (if b then 1800000 else 0)
  | none => if (s.scanFree && decide (s.jtag.ir = 0x05)) || s.inReset then none else s.ballVoltage p

/-- A capture and scan of the boundary register, whose update latches then hold the bits shifted in. -/
def State.boundaryScan (s : State) (ir : Nat) (shift balls : List Bool) : State :=
  let r := scan ((balls ++ List.replicate boundaryLength false).take boundaryLength) shift
  { s with jtag := { s.jtag with ir := ir, latches := r.2, out := r.1 } }

/-- EXTEST. -/
def doExtest (shift balls : List Bool) (s : State) : State :=
  if s.scanFree then s.boundaryScan 0x00 shift balls else s.bypassScan 0xFF shift

/-- SAMPLE/PRELOAD. -/
def doSamplePreload (shift balls : List Bool) (s : State) : State := s.boundaryScan 0x02 shift balls

/-- The IDCODE register (R469). -/
def State.idcode (s : State) : Nat :=
  bitsOf Config.revision.toNat 0 4 * 2 ^ 28 + s.fuse.deviceId * 2 ^ 12 + Config.mfrId.toNat * 2 + 1

/-- IDCODE. -/
def doIdcode (s : State) : State := { s with jtag := { s.jtag with ir := 0x01, out := bitsFrom s.idcode 32 } }

/-- CLAMP and HIGHZ: the bypass register, with the outputs held or at high impedance while the instruction is in force. -/
def doJtagClamp (shift : List Bool) (s : State) : State := s.bypassScan (if s.scanFree then 0x04 else 0xFF) shift
def doHighz (shift : List Bool) (s : State) : State := s.bypassScan (if s.scanFree then 0x05 else 0xFF) shift

/-- Codes that select another register than the bypass. -/
def jtagCodes : List Nat := [0x00, 0x01, 0x02, 0x04, 0x05, 0x20, 0x21]

/-- BYPASS, or a reserved code. -/
def doBypass (code : Nat) (shift : List Bool) (s : State) : State :=
  if jtagCodes.contains code then s else s.bypassScan code shift

/-- Debug is open: the fuses open it, and the device has booted (R453, R457). -/
def State.debugNow (s : State) : Bool := s.debugOpen && s.flag Reg.SEC_STATUS_BOOTED && !s.inReset

/-- The first access with debug open sets DEBUG_USED and raises SECURITY with INFO 3 (R469). -/
def State.debugUsed (s : State) : State :=
  if s.flag Reg.SEC_STATUS_DEBUG_USED then s else (s.setFlag Reg.SEC_STATUS_DEBUG_USED true).security 3

/-- DEBUG_ACCESS: the register captures the data of the access before; the update performs one 64-bit access, which
follows R10 but not R11 (R469). -/
def doDebugAccess (d : BitVec 96) (s : State) : State :=
  let x := d.toNat
  let shift := bitsFrom x 96
  if !s.debugNow then s.bypassScan 0xFF shift
  else
    let a := bitsOf x 72 20
    let s1 := ({ s with jtag := { s.jtag with ir := 0x20, out := bitsFrom s.jtag.data 96 } } : State).debugUsed
    let wrong := decide (a % 8 ≠ 0)
    let s2 := if bitOf x 95 then s1.barForce a true (bitsOf x 0 64) else if wrong then s1.badAccess a else s1
    let v := if bitOf x 95 then bitsOf x 0 64 else if wrong then 2 ^ 64 - 1 else s1.barRead a
    { s2 with jtag := { s2.jtag with data := v + 2 ^ 64 } }

/-- DEBUG_STATUS (R469). -/
def doDebugStatus (s : State) : State :=
  let v := b2n s.debugNow + 2 * s.fld Reg.SEC_STATUS_DEBUG_USED
  { s with jtag := { s.jtag with ir := 0x21, out := bitsFrom v 8 } }

end Sys2Proof.Machine
end

