-- ==== Sys2Proof/Machine/Release.lean ====
section
/-! DEFINITION. What waits goes on: held host commands, held register writes, and everything that follows by itself from the
state. `State.settle` lets all of it act; the cycle on an empty queue settles, and so do the rows that end a wait. -/

namespace Sys2Proof.Machine

open Sys2Proof

/-! ### Held commands -/

/-- Commands of the sequencer and analog classes that start or resume after a wait (R39, R66, R225, R248, R266). -/
def runUnitCmd (c : Cmd) (s : State) : State :=
  let a := c.field 8 1
  match c.opcode with
  | 0x10 => doProgramStart c s
  | 0x11 => doProgramPreempt c s
  | 0x12 => doProgramStart c s
  | 0x13 => doTrapRequest c s
  | 0x20 => doSiteEnable c s
  | 0x21 => doContactCheck c s
  | 0x22 => doDeckleClose c s
  | 0x23 => doSiteRegLoad c s
  | 0x30 => doPpmuMeasure c s
  | 0x31 => doTmuArm c s
  | 0x32 => if a = 1 then doAwgRunStop c s else if a = 2 then doAwgRunJump c s else doAwgRunStart c s
  | 0x33 => if a = 1 then doAcqForce c s else if a = 2 then doAcqStop c s else if a = 3 then doAcqRelease c s else doAcqArm c s
  | 0x34 => if a = 1 then doDpsRunOff c s else if a = 2 then doDpsRunMeasure c s else doDpsRunOn c s
  | 0x40 => doReamMark c s
  | 0x41 => doReamRewind c s
  | 0x42 => doReamRelease c s
  | 0x43 => doReamResetDma c s
  | _ => doNop c s

/-- Commands of the other classes; `left` is the state the device left for a WAKE. -/
def runDeviceCmd (left : Nat) (c : Cmd) (s : State) : State :=
  match c.opcode with
  | 0x50 => doPopDefine c s
  | 0x51 => doPopFinalise c s
  | 0x52 => doPopRead c s
  | 0x53 => doPopRelease c s
  | 0x60 => doMapSet c s
  | 0x61 => doMapLoad c s
  | 0x62 => doMapClear c s
  | 0x63 => doMapRead c s
  | 0x70 => doDmaCopy (s.earlierDma c) c s
  | 0x71 => doDmaRing (s.earlierDma c) c s
  | 0x72 => doDmaFill (s.earlierDma c) c s
  | 0x73 => doDmaResume (s.earlierDma c) c s
  | 0x74 => doDmaAbort (s.earlierDma c) c s
  | 0x80 => doCalRun c s
  | 0x81 => doCalStore c s
  | 0x82 => doCalLoad c s
  | 0x90 => doNextEvent c s
  | 0x91 => doWake left c s
  | 0x92 => doUsageRead c s
  | 0x93 => doAttest c s
  | 0x94 => doSummarySign c s
  | 0x95 => doImageMeasure c s
  | 0x96 => doFwUpdate c s
  | 0x97 => doOemProvision c s
  | 0x98 => doOemConfig c s
  | 0x99 => doUnitReset c s
  | 0x9A => if c.field 8 1 = 1 then doUnitPowerUp c s else doUnitPowerDown c s
  | 0x9B => doUnitRetire c s
  | 0x9C => doUnitUnretire c s
  | 0xA0 => doFeltCopy c s
  | 0xA1 => doFeltSchedule c s
  | 0xA2 => doFeltCancel c s
  | 0xA3 => doFeltTimeSet c s
  | _ => doNop c s

/-- A held command acts. -/
def runCmd (left : Nat) (c : Cmd) (s : State) : State := if c.opcode < 0x50 then runUnitCmd c s else runDeviceCmd left c s

/-- What a held command waits for still holds. -/
def State.stillHeld (s : State) (h : Held) : Bool :=
  match h.wait with
  | .wake => s.idling
  | .program seqs => seqs.any s.runs
  | .fence l => l.any s.outstandingDma
  | .busy 1 => s.unitStopped h.cmd
  | _ => false

/-- A held command is tried: it acts, or stays held. -/
def State.tryHeld (s : State) (h : Held) : State :=
  if s.stillHeld h then { s with held := s.held ++ [h] }
  else if h.wait = .wake ∧ s.unitStopped h.cmd then s.hold h.cmd (.busy 1)
  else runCmd (if h.wait = .wake then s.power.left else 0) h.cmd s

/-- The held commands are tried in the order in which they came. -/
def State.retryHeld (s : State) : State :=
  if s.held.isEmpty then s else s.held.foldl State.tryHeld { s with held := [] }

/-! ### Held writes (R53, R127, R185, R204, R227, R249, R267) -/

/-- The writes that the program of the group led by b held back are put in force: it has completed. -/
def State.releaseWrites (s : State) (b : Nat) : State :=
  let s1 := (s.members b).foldl (fun s n => (s.releaseSeq n).tmuRelease n) s
  let s2 := (s1.groupClusters b).foldl (fun s c => (s.awgRelease c).dgRelease c) s1
  (List.range 64).foldl (fun s n => if (s.dpsRec n).held then s.dpsRelease n else s) s2

/-- Ring configurations that DMA transfers held back are put in force (R336). -/
def State.releaseRings (s : State) : State :=
  let s1 := s.seqs.foldl (fun s q => if !q.2.heldQueues.isEmpty && !s.runs q.1 then s.releaseSeq q.1 else s) s
  s1.dgs.foldl (fun s d => if d.2.held then s.dgRelease d.1 else s) s1

/-! ### What follows by itself -/

/-- Everything that can go on does. -/
def State.settle (s : State) : State :=
  let s1 := s.retryHeld.goCals.showLines.watchIdle
  let s2 := (List.range 8).foldl (fun s e => s.unpark e) s1
  let s3 := s2.openFences.releaseRings.feltRun.showSync
  let s4 := (State.copyRun (4 * s3.felt.copies.length + 64) s3).handBodies.endAsks.bindPrograms.popRetry
  ((List.range 2).foldl (fun s k => s.swgRelease k) s4).enterBuffer.showFull

/-- One cycle of the cell-time domain, 1 ns (R24, R377): the model's tick, on an empty queue. -/
def State.tick (s : State) : State := if s.inReset then s else s.tickTime.awgsNs.blocksSent.settle

/-! ### Rows that end a wait -/

/-- A start, resume or admission: what waited for the program before it comes first (R39, R129). -/
def afterHeld (k : State → State) (s : State) : State := k s.retryHeld

/-- PROGRAM_END: the program completes; its AWGs stop, held writes are put in force (R20, R53, R224). -/
def programEnded (b : Nat) (s : State) : State :=
  let t := doProgramEnd b s
  if (s.program b).isSome ∧ (t.program b).isNone then (t.awgProgramEnd b).releaseWrites b else t

/-- The program of the group led by b is there and has not stopped issuing. -/
def State.issues (s : State) (b : Nat) : Bool := (s.program b).any (fun g => !g.ended)

/-- PREEMPT_FRAME_WRITE: with the program pre-empted its AWGs stop (R139, R224). -/
def preempted (b : Nat) (s : State) : State :=
  let t := doPreemptFrameWrite b s
  if s.issues b && !t.issues b then t.awgProgramEnd b else t

/-- PROGRAM_TIME_LIMIT: measurements that its triggers armed end without result, its AWGs stop (R130, R204, R224, R249). -/
def programLimited (b : Nat) (s : State) : State :=
  let t := doProgramTimeLimit b s
  if s.issues b && !t.issues b then ((t.tmuDropSince b 0).dgDropSince b 0).awgProgramEnd b else t

/-- A row in which the group led by b may replay: a replay ends the measurements that triggers since the snapshot armed
(R138, R204, R249). -/
def mayReplay (b : Nat) (k : State → State) (s : State) : State :=
  let n := ((s.program b).map (fun g => g.replays)).getD 0
  let t := k s
  match t.program b with
  | some g => if n < g.replays then ((t.tmuDropSince b g.snapTriggers).dgDropSince b g.snapTriggers).dpsDropSince b g.snapTriggers else t
  | none => t

/-- IDLE_EXIT_END: the commands that waited for P0 go on (R426). -/
def idleExited (s : State) : State :=
  let t := doIdleExitEnd s
  if t.idling then t else t.retryHeld

/-! ### Writes of rows of their own -/

/-- A write of 1 to CLR_COUNTS, bit `k` of the control register at `a`, whose RW bits, the lowest `w`, are written as they
stand (R8, R10). -/
def clrCounts (a k w : Nat) (s : State) : State := s.barWrite a false ((s.quad (a / 8 * 8)).toNat / 2 ^ (a % 8 * 8) % 2 ^ w + 2 ^ k)

end Sys2Proof.Machine
end

