-- ==== Sys2Proof/Machine/RowsAnalog.lean ====
section
/-! DEFINITION. The rows of the table, one meaning each. TMUs, AWGs, digitizers and DPS channels (spec/09 to spec/12).
-/

namespace Sys2Proof.Machine

open Sys2Proof

/-- TMU_ARM (R202). -/
def execTmuArm (q : BitVec 8) (e : Entry) (s : State) : Step := hostCmd 0x31 q e doTmuArm s

/-- TMU_CALIBRATED (R195). -/
def execTmuCalibrated (n : Fin 64) (k1 k2 : BitVec 16) (startIn stopIn : Bool) (s : State) : Step :=
  event (doTmuCalibrated n.val k1 k2 startIn stopIn) s

/-- TMU_EDGE (R196). -/
def execTmuEdge (n : Fin 64) (stop falling : Bool) (ref : BitVec 40) (code : BitVec 12) (time : BitVec 64) (s : State) : Step :=
  event (doTmuEdge n.val stop falling ref code time) s

/-- TMU_GATE_CLOSE (R194). -/
def execTmuGateClose (n : Fin 64) (s : State) : Step := event (doTmuGateClose n.val) s

/-- TMU_TIMEOUT (R194). -/
def execTmuTimeout (n : Fin 64) (s : State) : Step := event (doTmuTimeout n.val) s

/-- TMU_RESULT (R201). -/
def execTmuResult (n : Fin 64) (s : State) : Step := event (doTmuResult n.val) s

/-- AWG_RUN_START (R225). -/
def execAwgRunStart (q : BitVec 8) (e : Entry) (s : State) : Step :=
  hostAction 0x32 (fun a => decide (a ≠ 1) && decide (a ≠ 2)) q e doAwgRunStart s

/-- AWG_RUN_STOP (R225). -/
def execAwgRunStop (q : BitVec 8) (e : Entry) (s : State) : Step :=
  hostAction 0x32 (fun a => decide (a = 1)) q e doAwgRunStop s

/-- AWG_RUN_JUMP (R225). -/
def execAwgRunJump (q : BitVec 8) (e : Entry) (s : State) : Step :=
  hostAction 0x32 (fun a => decide (a = 2)) q e doAwgRunJump s

/-- AWG_TIMED_START (R225). -/
def execAwgTimedStart (c : Fin 32) (s : State) : Step := event (doAwgTimedStart c.val) s

/-- AWG_REQUEST_REGISTER (R215). -/
def execAwgRequestRegister (c : Fin 32) (n : BitVec 64) (s : State) : Step := event (doAwgRegister c.val n.toNat) s

/-- AWG_BOUNDARY (R216). -/
def execAwgBoundary (c : Fin 32) (s : State) : Step := event (fun s => (doAwgBoundary c.val s).showLines) s

/-- AWG_FETCH_DONE (R218). -/
def execAwgFetchDone (c : Fin 32) (what : AwgFetch) (s : State) : Step := event (doAwgFetchDone c.val what) s

/-- AWG_UNDERRUN (R219). -/
def execAwgUnderrun (c : Fin 32) (s : State) : Step := event (doAwgUnderrun c.val) s

/-- ACQ_ARM (R248). -/
def execAcqArm (q : BitVec 8) (e : Entry) (s : State) : Step :=
  hostAction 0x33 (fun a => decide (a = 0) || decide (3 < a)) q e doAcqArm s

/-- ACQ_FORCE (R248). -/
def execAcqForce (q : BitVec 8) (e : Entry) (s : State) : Step :=
  hostAction 0x33 (fun a => decide (a = 1)) q e doAcqForce s

/-- ACQ_STOP (R248). -/
def execAcqStop (q : BitVec 8) (e : Entry) (s : State) : Step :=
  hostAction 0x33 (fun a => decide (a = 2)) q e doAcqStop s

/-- ACQ_RELEASE (R248). -/
def execAcqRelease (q : BitVec 8) (e : Entry) (s : State) : Step :=
  hostAction 0x33 (fun a => decide (a = 3)) q e doAcqRelease s

/-- TRIGGER_FIRE (R236). -/
def execTriggerFire (c : Fin 32) (s : State) : Step := event (doTriggerFire c.val) s

/-- POST_CAPTURE_END (R241). -/
def execPostCaptureEnd (c : Fin 32) (s : State) : Step := event (doPostCaptureEnd c.val) s

/-- REARM_END (R241). -/
def execRearmEnd (c : Fin 32) (s : State) : Step := event (doRearmEnd c.val) s

/-- ACQ_TIMEOUT (R242). -/
def execAcqTimeout (c : Fin 32) (s : State) : Step := event (doAcqTimeout c.val) s

/-- DPS_RUN_ON (R266). -/
def execDpsRunOn (q : BitVec 8) (e : Entry) (s : State) : Step :=
  hostAction 0x34 (fun a => decide (a = 0) || decide (2 < a)) q e doDpsRunOn s

/-- DPS_RUN_OFF (R266). -/
def execDpsRunOff (q : BitVec 8) (e : Entry) (s : State) : Step :=
  hostAction 0x34 (fun a => decide (a = 1)) q e doDpsRunOff s

/-- DPS_RUN_MEASURE (R266). -/
def execDpsRunMeasure (q : BitVec 8) (e : Entry) (s : State) : Step :=
  hostAction 0x34 (fun a => decide (a = 2)) q e doDpsRunMeasure s

/-- DPS_SWITCHING_CYCLE (R252). -/
def execDpsSwitchingCycle (n : Fin 64) (v i : BitVec 20) (s : State) : Step := event (doDpsCycle n.val v i) s

/-- DPS_READING (R261). -/
def execDpsReading (n : Fin 64) (s : State) : Step := event (doDpsReading n.val) s

/-- DPS_WINDOW_TRIP (R264). -/
def execDpsWindowTrip (n : Fin 64) (bounds : BitVec 4) (s : State) : Step :=
  event (fun s => (doDpsWindowTrip n.val bounds s).showLines) s

/-- DPS_BOUND_INSIDE (R263). -/
def execDpsBoundInside (n : Fin 64) (s : State) : Step := event (doDpsBoundInside n.val) s

/-- BLANK_EXPIRY (R263). -/
def execBlankExpiry (n : Fin 64) (s : State) : Step := event (doBlankExpiry n.val) s

/-- DPS_DISAGREE (R263). -/
def execDpsDisagree (n : Fin 64) (bound : BitVec 4) (s : State) : Step := event (doDpsDisagree n.val bound) s

/-- DPS_SELF_CHECK (R265). -/
def execDpsSelfCheck (n : Fin 64) (second passed : Bool) (s : State) : Step :=
  event (doDpsSelfCheck n.val second passed) s

end Sys2Proof.Machine
end

