-- ==== Sys2Proof/Machine/RowsDevice.lean ====
section
/-! DEFINITION. The rows of the table, one meaning each. Security, the test access port, units and resets (spec/22,
spec/23), and the events that close the table. -/

namespace Sys2Proof.Machine

open Sys2Proof

/-- ATTEST (R463). -/
def execAttest (q : BitVec 8) (e : Entry) (s : State) : Step := hostCmd 0x93 q e doAttest s

/-- SUMMARY_SIGN (R465). -/
def execSummarySign (q : BitVec 8) (e : Entry) (s : State) : Step := hostCmd 0x94 q e doSummarySign s

/-- IMAGE_MEASURE (R462). -/
def execImageMeasure (q : BitVec 8) (e : Entry) (s : State) : Step := hostCmd 0x95 q e doImageMeasure s

/-- FW_UPDATE (R458). -/
def execFwUpdate (q : BitVec 8) (e : Entry) (s : State) : Step := hostCmd 0x96 q e doFwUpdate s

/-- OEM_PROVISION (R452). -/
def execOemProvision (q : BitVec 8) (e : Entry) (s : State) : Step := hostCmd 0x97 q e doOemProvision s

/-- OEM_CONFIG (R468). -/
def execOemConfig (q : BitVec 8) (e : Entry) (s : State) : Step := hostCmd 0x98 q e doOemConfig s

/-- BOOT (R456). -/
def execBoot (s : State) : Step := event doBoot s

/-- EXTEST (R469). -/
def execExtest (shift balls : List Bool) (s : State) : Step := always (doExtest shift balls) s

/-- IDCODE (R469). -/
def execIdcode (s : State) : Step := always doIdcode s

/-- SAMPLE_PRELOAD (R469). -/
def execSamplePreload (shift balls : List Bool) (s : State) : Step := always (doSamplePreload shift balls) s

/-- CLAMP (R469). -/
def execClamp (shift : List Bool) (s : State) : Step := always (doJtagClamp shift) s

/-- HIGHZ (R469). -/
def execHighz (shift : List Bool) (s : State) : Step := always (doHighz shift) s

/-- DEBUG_ACCESS (R469). -/
def execDebugAccess (d : BitVec 96) (s : State) : Step := always (doDebugAccess d) s

/-- DEBUG_STATUS (R469). -/
def execDebugStatus (s : State) : Step := always doDebugStatus s

/-- BYPASS (R469). -/
def execBypass (code : BitVec 8) (shift : List Bool) (s : State) : Step := always (doBypass code.toNat shift) s

/-- PERST (R474). -/
def execPerst (xref : Bool) (s : State) : Step := always (doPerst xref) s

/-- UNIT_BRINGUP (R475). -/
def execUnitBringup (u : Fin 112) (r : BringUp) (s : State) : Step := event (doUnitBringup u.val r) s

/-- UNIT_RESET (R478). -/
def execUnitReset (q : BitVec 8) (e : Entry) (s : State) : Step := hostCmd 0x99 q e doUnitReset s

/-- UNIT_POWER_DOWN (R478). -/
def execUnitPowerDown (q : BitVec 8) (e : Entry) (s : State) : Step :=
  hostAction 0x9A (fun a => decide (a ≠ 1)) q e doUnitPowerDown s

/-- UNIT_POWER_UP (R479). -/
def execUnitPowerUp (q : BitVec 8) (e : Entry) (s : State) : Step :=
  hostAction 0x9A (fun a => decide (a = 1)) q e doUnitPowerUp s

/-- UNIT_RESTART (R479). -/
def execUnitRestart (u : Fin 112) (r : BringUp) (s : State) : Step := event (doUnitRestart u.val r) s

/-- UNIT_RETIRE (R482). -/
def execUnitRetire (q : BitVec 8) (e : Entry) (s : State) : Step := hostCmd 0x9B q e doUnitRetire s

/-- UNIT_UNRETIRE (R482). -/
def execUnitUnretire (q : BitVec 8) (e : Entry) (s : State) : Step := hostCmd 0x9C q e doUnitUnretire s

/-- REFERENCE_LOSS (R494). -/
def execReferenceLoss (s : State) : Step := always doReferenceLoss s

/-- SAFE_WAIT (R137). -/
def execSafeWait (b : Fin 64) (s : State) : Step := event (doSafeWait b.val) s

/-- DIGITIZER_SAMPLE (R236). -/
def execDigitizerSample (g : Fin 8) (c0 c1 c2 c3 : BitVec 18) (s : State) : Step :=
  event (doDgSample g.val [c0.toInt, c1.toInt, c2.toInt, c3.toInt]) s

/-- TMU_INPUT_SETTLED (R189). -/
def execTmuInputSettled (n : Fin 64) (stop : Bool) (s : State) : Step := event (doTmuInputSettled n.val stop) s

/-- COMPLETION_TIMEOUT (R315). -/
def execCompletionTimeout (what : LateRead) (s : State) : Step := event (doCompletionTimeout what) s

/-- CONFIG_SPACE_WRITE (R355). -/
def execConfigSpaceWrite (w : ConfigWrite) (s : State) : Step := event (doConfigWrite w) s

/-- PCIE_LINK_UP (R341). -/
def execPcieLinkUp (rate : LinkRate) (width : LinkWidth) (s : State) : Step := event (doLinkUp rate width) s

/-- L1_ENTRY (R355). -/
def execL1Entry (s : State) : Step := event doL1Entry s

/-- EV_LINE_RELEASE (R104). -/
def execEvLineRelease (k : Fin 8) (s : State) : Step :=
  always (fun s => if s.inReset then doEvRelease k.val s else (doEvRelease k.val s).showLines) s

/-- PERST_ASSERT (R474). -/
def execPerstAssert (s : State) : Step := always doPerstAssert s

/-- INTERNAL_RESET_RELEASE (R505). -/
def execInternalResetRelease (s : State) : Step := always doInternalResetRelease s

end Sys2Proof.Machine
end

