-- ==== Sys2Proof/Machine/RowsFelt.lean ====
section
/-! DEFINITION. The rows of the table, one meaning each. The Felt fabric and cell time (spec/17). -/

namespace Sys2Proof.Machine

open Sys2Proof

/-- PARTNER_DETECT (R362). -/
def execPartnerDetect (p : Fin 4) (s : State) : Step := event (doPartnerDetect p.val) s

/-- EQUALISE_END (R362). -/
def execEqualiseEnd (p : Fin 4) (ok : Bool) (s : State) : Step := event (doEqualiseEnd p.val ok) s

/-- MISMATCH_RETRY (R362). -/
def execMismatchRetry (p : Fin 4) (s : State) : Step := event (doMismatchRetry p.val) s

/-- BLOCK_LOCK_LOSS (R360). -/
def execBlockLockLoss (p : Fin 4) (s : State) : Step := event (fun s => s.startRetrain p.val) s

/-- RETRAIN (R386). -/
def execRetrain (p : Fin 4) (s : State) : Step :=
  event (fun s => s.barWrite (Reg.portB p.val) false (s.fld (Reg.PORT_CTRL_ENABLE p.val) + 2)) s

/-- RETRAIN_TIMEOUT (R362). -/
def execRetrainTimeout (p : Fin 4) (s : State) : Step := event (doRetrainTimeout p.val) s

/-- DOWN_TIMEOUT (R362). -/
def execDownTimeout (p : Fin 4) (s : State) : Step := event (doDownTimeout p.val) s

/-- ID0 (R363). -/
def execId0 (p : Fin 4) (content : BitVec 48) (crc : BitVec 8) (s : State) : Step := event (doId0 p.val content crc) s

/-- ID1 (R362). -/
def execId1 (p : Fin 4) (content : BitVec 48) (crc : BitVec 8) (s : State) : Step := event (doId1 p.val content crc) s

/-- CREDIT (R365). -/
def execCredit (p : Fin 4) (content : BitVec 48) (crc : BitVec 8) (s : State) : Step :=
  event (doCredit p.val content crc) s

/-- ACK (R366). -/
def execAck (p : Fin 4) (content : BitVec 48) (crc : BitVec 8) (s : State) : Step := event (doAck p.val content crc) s

/-- NAK (R367). -/
def execNak (p : Fin 4) (content : BitVec 48) (crc : BitVec 8) (s : State) : Step := event (doNak p.val content crc) s

/-- SYNC_REQ (R379). -/
def execSyncReq (p : Fin 4) (content : BitVec 48) (crc : BitVec 8) (t2 t3 : BitVec 64) (s : State) : Step :=
  event (doSyncReq p.val content crc t2 t3) s

/-- SYNC_RSP (R379). -/
def execSyncRsp (p : Fin 4) (content : BitVec 48) (crc : BitVec 8) (t4 : BitVec 64) (s : State) : Step :=
  event (doSyncRsp p.val content crc t4) s

/-- SYNC_PULSE (R380). -/
def execSyncPulse (p : Fin 4) (content : BitVec 48) (crc : BitVec 8) (ta : BitVec 64) (s : State) : Step :=
  event (doSyncPulse p.val content crc ta) s

/-- SYNC_INFO (R378). -/
def execSyncInfo (p : Fin 4) (content : BitVec 48) (crc : BitVec 8) (s : State) : Step :=
  event (doSyncInfo p.val content crc) s

/-- TIME_HI (R380). -/
def execTimeHi (p : Fin 4) (content : BitVec 48) (crc : BitVec 8) (s : State) : Step :=
  event (doTimeHi p.val content crc) s

/-- PACKET_RECEIVE (R366). -/
def execPacketReceive (p : Fin 4) (flits : List (BitVec 64)) (s : State) : Step := event (doPacketReceive p.val flits) s

/-- REPLAY_TIMEOUT (R367). -/
def execReplayTimeout (p : Fin 4) (s : State) : Step := event (doReplayTimeout p.val) s

/-- CREDIT_TIMER (R365). -/
def execCreditTimer (p : Fin 4) (s : State) : Step := event (doCreditTimer p.val) s

/-- ACK_TIMER (R366). -/
def execAckTimer (p : Fin 4) (s : State) : Step := event (doAckTimer p.val) s

/-- SYNC_EXCHANGE_TIMER (R379). -/
def execSyncExchangeTimer (p : Fin 4) (t1 : BitVec 64) (s : State) : Step := event (doSyncExchange p.val t1) s

/-- SYNC_PULSE_TIMER (R380). -/
def execSyncPulseTimer (t : BitVec 64) (hi : Bool) (s : State) : Step := event (doSyncPulseTimer t hi) s

/-- HOLDOVER_TIMEOUT (R380). -/
def execHoldoverTimeout (s : State) : Step := event doHoldoverTimeout s

/-- WRITE_REQ (R374). -/
def execWriteReq (p : Fin 4) (s : State) : Step := event (doWriteReq p.val) s

/-- READ_REQ (R374). -/
def execReadReq (p : Fin 4) (s : State) : Step := event (doReadReq p.val) s

/-- WRITE_RSP (R376). -/
def execWriteRsp (p : Fin 4) (s : State) : Step := event (doWriteRsp p.val) s

/-- READ_RSP (R376). -/
def execReadRsp (p : Fin 4) (s : State) : Step := event (doReadRsp p.val) s

/-- REDUCE (R373). -/
def execReduce (p : Fin 4) (s : State) : Step := event (doReduce p.val) s

/-- REASSEMBLY_TIMEOUT (R373). -/
def execReassemblyTimeout (k : Fin 8) (s : State) : Step := event (doReassemblyTimeout k.val) s

/-- START (R382). -/
def execStart (p : Fin 4) (s : State) : Step := event (doStart p.val) s

/-- START_ACK (R382). -/
def execStartAck (p : Fin 4) (s : State) : Step := event (doStartAck p.val) s

/-- CANCEL (R384). -/
def execCancel (p : Fin 4) (s : State) : Step := event (doCancel p.val) s

/-- LINK_STATE (R371). -/
def execLinkState (p : Fin 4) (s : State) : Step := event (doLinkState p.val) s

/-- FELT_COPY (R376). -/
def execFeltCopy (q : BitVec 8) (e : Entry) (s : State) : Step := hostCmd 0xA0 q e doFeltCopy s

/-- FELT_SCHEDULE (R382). -/
def execFeltSchedule (q : BitVec 8) (e : Entry) (s : State) : Step := hostCmd 0xA1 q e doFeltSchedule s

/-- FELT_CANCEL (R384). -/
def execFeltCancel (q : BitVec 8) (e : Entry) (s : State) : Step := hostCmd 0xA2 q e doFeltCancel s

/-- FELT_TIME_SET (R381). -/
def execFeltTimeSet (q : BitVec 8) (e : Entry) (s : State) : Step := hostCmd 0xA3 q e doFeltTimeSet s

/-- SCHEDULE_TIMEOUT (R382). -/
def execScheduleTimeout (k : Fin 16) (s : State) : Step := event (doScheduleTimeout k.val) s

/-- RSP_TIMEOUT (R376). -/
def execRspTimeout (tid : BitVec 12) (s : State) : Step := event (doRspTimeout tid.toNat) s

/-- START_FILL_DEADLINE (R383). -/
def execStartFillDeadline (k : Fin 8) (s : State) : Step := event (doStartFillDeadline k.val) s

/-- START_ALIGN (R383). -/
def execStartAlign (k : Fin 8) (s : State) : Step := event (doStartAlign k.val) s

/-- SCHEDULED_START (R383). -/
def execScheduledStart (k : Fin 8) (s : State) : Step := event (doScheduledStart k.val) s

/-- FELT_CFG_WRITE (R386). -/
def execFeltCfgWrite (part : RegPart) (v : BitVec 64) (s : State) : Step :=
  event (fun s => s.barPartWrite 0x6000 part v.toNat) s

/-- FELT_CLR_COUNTS (R386). -/
def execFeltClrCounts (s : State) : Step := event (clrCounts 0x6008 0 0) s

end Sys2Proof.Machine
end

