-- ==== Sys2Proof/Machine/RowsHost.lean ====
section
/-! DEFINITION. The rows of the table, one meaning each. The host interface (spec/16). -/

namespace Sys2Proof.Machine

open Sys2Proof

/-- POLL_ROUND (R346). -/
def execPollRound (s : State) : Step := event doPollRound s

/-- DOORBELL_LINE_READ (R346). -/
def execDoorbellLineRead (k : Fin 64) (r : LineRead) (s : State) : Step := event (doDoorbellRead k.val r) s

/-- ENTRY_FETCH (R347). -/
def execEntryFetch (q : Fin 256) (r : LineRead) (s : State) : Step := event (doEntryFetch q.val r) s

/-- NOP (R350). -/
def execNop (q : BitVec 8) (e : Entry) (s : State) : Step := hostCmd 0x00 q e doNop s

/-- COMPLETION_WRITE (R353). -/
def execCompletionWrite (s : State) : Step := event doCompletionWrite s

/-- MODERATION_TIMER (R354). -/
def execModerationTimer (m : ModQueue) (s : State) : Step := event (doModerationTimer m) s

/-- MSIX_UNMASK (R355). -/
def execMsixUnmask (v : Option (Fin 2048)) (s : State) : Step := event (doMsixUnmask (v.map Fin.val)) s

/-- L1_EXIT (R355). -/
def execL1Exit (s : State) : Step := event doL1Exit s

/-- D3HOT_ENTRY (R355). -/
def execD3hotEntry (s : State) : Step := event doD3hotEntry s

/-- D0_RETURN (R356). -/
def execD0Return (busMaster : Bool) (s : State) : Step := event (doD0Return busMaster) s

/-- HOT_RESET (R342). -/
def execHotReset (linkDown : Bool) (s : State) : Step := event (doHotReset linkDown) s

/-- SQ_CONFIG_WRITE (R344). -/
def execSqConfigWrite (q : Fin 256) (part : RegPart) (v : BitVec 64) (s : State) : Step :=
  event (fun s => s.barPartWrite (0x1400 + 16 * q.val) part v.toNat) s

/-- CQ_CONFIG_WRITE (R344). -/
def execCqConfigWrite (q : Fin 256) (part : RegPart) (v : BitVec 64) (s : State) : Step :=
  event (fun s => s.barPartWrite (0x1408 + 16 * q.val) part v.toNat) s

/-- POLL_INTERVAL_WRITE (R346). -/
def execPollIntervalWrite (idle : Bool) (v : BitVec 32) (s : State) : Step :=
  event (fun s => s.barWrite (0x1008 + 4 * b2n idle) false v.toNat) s

/-- HI_CLR_COUNTS (R359). -/
def execHiClrCounts (s : State) : Step := event (clrCounts 0x1000 1 1) s

end Sys2Proof.Machine
end

