-- ==== Sys2Proof/Machine/RowsMemory.lean ====
section
/-! DEFINITION. The rows of the table, one meaning each. The population engine, the memory manager and the DMA engines
(spec/13 to spec/15). -/

namespace Sys2Proof.Machine

open Sys2Proof

/-- POP_DEFINE (R273). -/
def execPopDefine (q : BitVec 8) (e : Entry) (s : State) : Step := hostCmd 0x50 q e doPopDefine s

/-- POP_FINALISE (R274). -/
def execPopFinalise (q : BitVec 8) (e : Entry) (s : State) : Step := hostCmd 0x51 q e doPopFinalise s

/-- POP_READ (R274). -/
def execPopRead (q : BitVec 8) (e : Entry) (s : State) : Step := hostCmd 0x52 q e doPopRead s

/-- POP_RELEASE (R274). -/
def execPopRelease (q : BitVec 8) (e : Entry) (s : State) : Step := hostCmd 0x53 q e doPopRelease s

/-- POP_READING (R270). -/
def execPopReading (s : State) : Step := event doPopReading s

/-- FORWARD_DEADLINE (R279). -/
def execForwardDeadline (k : Fin 1024) (s : State) : Step := event (doForwardDeadline k.val) s

/-- DEADLINE (R280). -/
def execDeadline (k : Fin 1024) (s : State) : Step := event (doDeadline k.val) s

/-- POP_DOMAIN_WRITE (R293). -/
def execPopDomainWrite (part : RegPart) (v : BitVec 64) (s : State) : Step :=
  event (fun s => s.barPartWrite 0x9008 part v.toNat) s

/-- POP_CLR_COUNTS (R293). -/
def execPopClrCounts (s : State) : Step := event (clrCounts 0x9000 0 0) s

/-- MAP_SET (R306). -/
def execMapSet (q : BitVec 8) (e : Entry) (s : State) : Step := hostCmd 0x60 q e doMapSet s

/-- MAP_LOAD (R306). -/
def execMapLoad (q : BitVec 8) (e : Entry) (s : State) : Step := hostCmd 0x61 q e doMapLoad s

/-- MAP_CLEAR (R306). -/
def execMapClear (q : BitVec 8) (e : Entry) (s : State) : Step := hostCmd 0x62 q e doMapClear s

/-- MAP_READ (R305). -/
def execMapRead (q : BitVec 8) (e : Entry) (s : State) : Step := hostCmd 0x63 q e doMapRead s

/-- REGION_WRITE (R302). -/
def execRegionWrite (r : Fin 64) (part : RegPart) (v : BitVec 64) (s : State) : Step :=
  event (fun s => s.barPartWrite (0x3200 + 8 * r.val) part v.toNat) s

/-- MMU_CLR_COUNTS (R319). -/
def execMmuClrCounts (s : State) : Step := event (clrCounts 0x3008 16 16) s

/-- PATROL_SCRUB (R300). -/
def execPatrolScrub (errors : List (Fin 68 × BitVec 8)) (elsewhere : List (BitVec 28 × List (Fin 68 × BitVec 8))) (s : State) : Step :=
  event (doPatrolScrub errors elsewhere) s

/-- HOST_READ_COMPLETION (R298). -/
def execHostReadCompletion (block : BitVec 58) (r : HostRead) (s : State) : Step := event (doHostRead block.toNat r) s

/-- ATS_COMPLETION (R309). -/
def execAtsCompletion (entry : BitVec 17) (r : AtsAnswer) (s : State) : Step := event (doAtsCompletion entry.toNat r) s

/-- PAGE_REQUEST_RESPONSE (R311). -/
def execPageRequestResponse (index : Fin 512) (r : PrgResponse) (s : State) : Step :=
  event (doPageResponse index.val r) s

/-- PR_TIMEOUT (R311). -/
def execPrTimeout (index : Fin 512) (s : State) : Step := event (doPrTimeout index.val) s

/-- ATS_INVALIDATE (R312). -/
def execAtsInvalidate (itag : Fin 32) (base : BitVec 52) (pages : BitVec 52) (s : State) : Step :=
  event (doAtsInvalidate itag.val base.toNat pages.toNat) s

/-- INVALIDATION_COMPLETION (R312). -/
def execInvalidationCompletion (itag : Fin 32) (s : State) : Step := event (doInvalidationCompletion itag.val) s

/-- DMA_COPY (R322). -/
def execDmaCopy (q : BitVec 8) (e : Entry) (s : State) : Step :=
  hostCmd 0x70 q e (fun c t => doDmaCopy (s.earlierDma c) c t) s

/-- DMA_RING (R323). -/
def execDmaRing (q : BitVec 8) (e : Entry) (s : State) : Step :=
  hostCmd 0x71 q e (fun c t => doDmaRing (s.earlierDma c) c t) s

/-- DMA_FILL (R322). -/
def execDmaFill (q : BitVec 8) (e : Entry) (s : State) : Step :=
  hostCmd 0x72 q e (fun c t => doDmaFill (s.earlierDma c) c t) s

/-- DMA_RESUME (R328). -/
def execDmaResume (q : BitVec 8) (e : Entry) (s : State) : Step :=
  hostCmd 0x73 q e (fun c t => doDmaResume (s.earlierDma c) c t) s

/-- DMA_ABORT (R329). -/
def execDmaAbort (q : BitVec 8) (e : Entry) (s : State) : Step :=
  hostCmd 0x74 q e (fun c t => doDmaAbort (s.earlierDma c) c t) s

/-- DMA_CHUNK_COMPLETE (R322). -/
def execDmaChunkComplete (e : Fin 8) (begun : Fin 8) (landed : List (Fin 7)) (s : State) : Step :=
  event (doDmaChunk e.val begun.val (landed.map Fin.val)) s

/-- DESCRIPTOR_AGEING (R331). -/
def execDescriptorAgeing (e : Fin 8) (k : Fin 32) (s : State) : Step := event (doDescriptorAgeing e.val k.val) s

/-- DMA_TIME_LIMIT (R330). -/
def execDmaTimeLimit (e : Fin 8) (slot : Bool) (k : Fin 32) (s : State) : Step :=
  event (doDmaTimeLimit e.val slot k.val) s

/-- DMA_CLR_COUNTS (R337). -/
def execDmaClrCounts (s : State) : Step := event (clrCounts 0x2C00 16 16) s

end Sys2Proof.Machine
end

