-- ==== Sys2Proof/Machine/RowsPower.lean ====
section
/-! DEFINITION. The rows of the table, one meaning each. Power, temperature, supplies and events (spec/20, spec/21).
-/

namespace Sys2Proof.Machine

open Sys2Proof

/-- EV_ASSERT: during a reset the outside driver is only noted (R441, R474). -/
def lineAsserted (k : Nat) (s : State) : State :=
  if s.inReset then s.modLine k (fun l => { l with outside := true }) else (doEvAssert k s).showLines

/-- NEXT_EVENT (R427). -/
def execNextEvent (q : BitVec 8) (e : Entry) (s : State) : Step := hostCmd 0x90 q e doNextEvent s

/-- WAKE (R427). -/
def execWake (q : BitVec 8) (e : Entry) (s : State) : Step := hostCmd 0x91 q e (doWake 0) s

/-- USAGE_READ (R427). -/
def execUsageRead (q : BitVec 8) (e : Entry) (s : State) : Step := hostCmd 0x92 q e doUsageRead s

/-- IDLE_CHOICE (R424). -/
def execIdleChoice (s : State) : Step := event doIdleChoice s

/-- IDLE_ENTRY_END (R421). -/
def execIdleEntryEnd (s : State) : Step := event doIdleEntryEnd s

/-- IDLE_EXIT (R426). -/
def execIdleExit (s : State) : Step := event doIdleExit s

/-- IDLE_EXIT_END (R421). -/
def execIdleExitEnd (s : State) : Step := event idleExited s

/-- THERMAL_SAMPLE (R428). -/
def execThermalSample (temps : List (BitVec 16)) (s : State) : Step :=
  event (fun s => (doThermalSample temps s).showLines) s

/-- THROTTLE_UPDATE (R431). -/
def execThrottleUpdate (s : State) : Step := event doThrottleUpdate s

/-- SENSOR_READMIT (R429). -/
def execSensorReadmit (k : Fin 104) (s : State) : Step :=
  event (fun s => s.barWrite (0x5020 + 4 * (k.val / 32)) false (2 ^ (k.val % 32))) s

/-- SUPPLY_WARNING (R434). -/
def execSupplyWarning (rail : Fin 8) (s : State) : Step := event (doSupplyWarning rail.val) s

/-- SUPPLY_RECOVERY (R434). -/
def execSupplyRecovery (rail : Fin 8) (s : State) : Step := event (doSupplyRecovery rail.val) s

/-- SUPPLY_RESET (R434). -/
def execSupplyReset (rail : Fin 8) (s : State) : Step := always (doSupplyReset rail.val) s

/-- AGEING_MEASURE (R435). -/
def execAgeingMeasure (c : Fin 32) (ppm : BitVec 32) (s : State) : Step := event (doAgeingMeasure c.val ppm) s

/-- USAGE_LOG_WRITE (R436). -/
def execUsageLogWrite (s : State) : Step := event doUsageLogWrite s

/-- EVENT_DELIVERY (R443). -/
def execEventDelivery (late : Option (Fin 64)) (s : State) : Step :=
  event (fun s => (doEventDelivery (late.map Fin.val) s).showLines) s

/-- EV_ASSERT (R441). -/
def execEvAssert (k : Fin 8) (s : State) : Step := always (lineAsserted k.val) s

/-- EV_PULSE_END (R447). -/
def execEvPulseEnd (k : Fin 8) (who : LineDriver) (s : State) : Step :=
  event (fun s => (doEvPulseEnd k.val who s).showLines) s

/-- HEQ_CONFIG_WRITE (R445). -/
def execHeqConfigWrite (k : Fin 4) (part : RegPart) (v : BitVec 64) (s : State) : Step :=
  event (fun s => s.barPartWrite (0x4040 + 0x20 * k.val) part v.toNat) s

/-- EVC_CLR_COUNTS (R450). -/
def execEvcClrCounts (s : State) : Step := event (clrCounts 0x4000 0 0) s

end Sys2Proof.Machine
end

