-- ==== Sys2Proof/Machine/RowsPrograms.lean ====
section
/-! DEFINITION. The rows of the table, one meaning each. Programs, the Headbox and Ream queues (spec/05 to spec/08).
-/

namespace Sys2Proof.Machine

open Sys2Proof

/-- CS_DEMAND_FILL (R122). -/
def execCsDemandFill (b : Fin 64) (s : State) : Step := event (mayReplay b.val (doCsDemandFill b.val)) s

/-- CS_SPEC_FILL (R123). -/
def execCsSpecFill (b : Fin 64) (page : BitVec 16) (s : State) : Step := event (doCsSpecFill b.val page.toNat) s

/-- PROGRAM_START (R129). -/
def execProgramStart (q : BitVec 8) (e : Entry) (s : State) : Step :=
  hostCmd 0x10 q e (fun c => afterHeld (doProgramStart c)) s

/-- PROGRAM_ADMIT (R129). -/
def execProgramAdmit (b : Fin 64) (s : State) : Step := event (afterHeld (doProgramAdmit b.val)) s

/-- PROGRAM_PREEMPT (R139). -/
def execProgramPreempt (q : BitVec 8) (e : Entry) (s : State) : Step := hostCmd 0x11 q e doProgramPreempt s

/-- PREEMPT_TIME_LIMIT (R139). -/
def execPreemptTimeLimit (b : Fin 64) (k : Nat) (s : State) : Step := event (doPreemptTimeLimit b.val k) s

/-- PREEMPT_FRAME_WRITE (R139). -/
def execPreemptFrameWrite (b : Fin 64) (s : State) : Step := event (preempted b.val) s

/-- PROGRAM_RESUME (R139). -/
def execProgramResume (q : BitVec 8) (e : Entry) (s : State) : Step :=
  hostCmd 0x12 q e (fun c => afterHeld (doProgramStart c)) s

/-- TRAP_REQUEST (R141). -/
def execTrapRequest (q : BitVec 8) (e : Entry) (s : State) : Step := hostCmd 0x13 q e doTrapRequest s

/-- TRAP_FRAME_WRITE (R142). -/
def execTrapFrameWrite (b : Fin 64) (s : State) : Step := event (doTrapFrameWrite b.val) s

/-- PROGRAM_TIME_LIMIT (R130). -/
def execProgramTimeLimit (b : Fin 64) (s : State) : Step := event (programLimited b.val) s

/-- PROGRAM_END (R20). -/
def execProgramEnd (b : Fin 64) (s : State) : Step := event (programEnded b.val) s

/-- UNSAFE_STALL (R137). -/
def execUnsafeStall (b : Fin 64) (s : State) : Step := event (mayReplay b.val (doUnsafeStall b.val)) s

/-- STREAM_BLOCK_ARRIVAL (R158). -/
def execStreamBlockArrival (n : Fin 64) (s : State) : Step := event (doStreamBlockArrival n.val) s

/-- HB_CLR_COUNTS (R169). -/
def execHbClrCounts (s : State) : Step := event (clrCounts 0xA000 1 1) s

/-- CS_CLR_COUNTS (R127). -/
def execCsClrCounts (n : Fin 64) (s : State) : Step := event (clrCounts (Reg.seqB n.val) 1 1) s

/-- EXEC_CLR_COUNTS (R147). -/
def execExecClrCounts (n : Fin 64) (s : State) : Step := event (clrCounts (Reg.seqB n.val + 0xC0) 0 0) s

/-- RECORD_COMMIT (R174). -/
def execRecordCommit (n : Fin 64) (s : State) : Step := event (doRecordCommit n.val) s

/-- CROSSED_CLEAR (R179). -/
def execCrossedClear (n : Fin 64) (q : Fin 8) (s : State) : Step :=
  event (fun s => s.barWrite (Reg.queueB n.val q.val + 0x28) false 8) s

/-- QUEUE_CONFIG_WRITE (R174). -/
def execQueueConfigWrite (n : Fin 64) (q : Fin 8) (cfg : Bool) (part : RegPart) (v : BitVec 64) (s : State) : Step :=
  event (fun s => s.barPartWrite (Reg.queueB n.val q.val + 8 * b2n cfg) part v.toNat) s

/-- REAM_MARK (R180). -/
def execReamMark (q : BitVec 8) (e : Entry) (s : State) : Step := hostCmd 0x40 q e doReamMark s

/-- REAM_REWIND (R181). -/
def execReamRewind (q : BitVec 8) (e : Entry) (s : State) : Step := hostCmd 0x41 q e doReamRewind s

/-- REAM_RELEASE (R180). -/
def execReamRelease (q : BitVec 8) (e : Entry) (s : State) : Step := hostCmd 0x42 q e doReamRelease s

/-- REAM_RESET (R180). -/
def execReamReset (q : BitVec 8) (e : Entry) (s : State) : Step := hostCmd 0x43 q e doReamResetDma s

end Sys2Proof.Machine
end

