-- ==== Sys2Proof/Machine/RowsSerial.lean ====
section
/-! DEFINITION. The rows of the table, one meaning each. The serial ports and calibration (spec/18, spec/19). -/

namespace Sys2Proof.Machine

open Sys2Proof

/-- FLASH_FETCH (R391). -/
def execFlashFetch (line : BitVec 26) (s : State) : Step := event (doFlashFetch line.toNat) s

/-- FLASH_READ_DONE (R391). -/
def execFlashReadDone (s : State) : Step := event doFlashReadDone s

/-- DQS_TIMEOUT (R405). -/
def execDqsTimeout (s : State) : Step := event doDqsTimeout s

/-- STORE_WRITE (R396). -/
def execStoreWrite (s : State) : Step := event doStoreWrite s

/-- FLASH_STATUS_READ (R392). -/
def execFlashStatusRead (ready good : Bool) (s : State) : Step := event (doFlashStatusRead ready good) s

/-- FLASH_BUSY_TIMEOUT (R392). -/
def execFlashBusyTimeout (s : State) : Step := event doFlashBusyTimeout s

/-- CELL_NOP (R398). -/
def execCellNop (f : CellFrame) (s : State) : Step := event (doCellNop f) s

/-- CELL_READ (R402). -/
def execCellRead (f : CellFrame) (s : State) : Step := event (doCellRead f) s

/-- CELL_WRITE (R402). -/
def execCellWrite (f : CellFrame) (s : State) : Step := event (doCellWrite f) s

/-- ALIVE_LOSS (R400). -/
def execAliveLoss (s : State) : Step := event doAliveLoss s

/-- CP_CTRL_WRITE (R400). -/
def execCpCtrlWrite (v : BitVec 32) (s : State) : Step := event (fun s => s.barWrite 0x7100 false v.toNat) s

/-- CAL_RUN (R417). -/
def execCalRun (q : BitVec 8) (e : Entry) (m : CalOutcome) (s : State) : Step :=
  if Entry.opcode e ≠ 0x80 then .fault .illFormed
  else
    let c := s.taken q.toNat e
    answer s (if s.inReset then s else (s.keepCalRun m c).accept c doCalRun)

/-- CAL_RUN_TIME_LIMIT (R417). -/
def execCalRunTimeLimit (c : Fin 32) (s : State) : Step := event (doCalRunTimeLimit c.val) s

/-- CAL_STORE (R418). -/
def execCalStore (q : BitVec 8) (e : Entry) (s : State) : Step := hostCmd 0x81 q e doCalStore s

/-- CAL_LOAD (R418). -/
def execCalLoad (q : BitVec 8) (e : Entry) (s : State) : Step := hostCmd 0x82 q e doCalLoad s

/-- TRACKING_CYCLE (R411). -/
def execTrackingCycle (c : Fin 32) (m : Tracking) (s : State) : Step := event (doTrackingCycle c.val m) s

/-- CALENDER_STEP (R414). -/
def execCalenderStep (kind : Fin 7) (unit : BitVec 16) (j : Fin 23) (s : State) : Step :=
  event (doCalenderStep kind.val unit.toNat j.val) s

/-- CAL_STALE (R413). -/
def execCalStale (c : Fin 32) (s : State) : Step := event (doCalStale c.val) s

end Sys2Proof.Machine
end

