-- ==== Sys2Proof/Machine/RowsSites.lean ====
section
/-! DEFINITION. The rows of the table, one meaning each. Sites, pins, clusters and the sequencer's words (spec/02 to
spec/06). -/

namespace Sys2Proof.Machine

open Sys2Proof

/-- CAL_FREEZE: the program of the group led by b takes the freeze (R113, R415). -/
def doCalFreeze (b : Nat) (s : State) : State :=
  match s.dueAnalog b 10 with
  | none => s
  | some _ => ((s.firedAnalog b).modProgram b (fun g => { g with freezeOp := true })).showFreezes

/-- CAL_THAW: the freeze taken by CAL_FREEZE is released (R113, R415). -/
def doCalThaw (b : Nat) (s : State) : State :=
  match s.dueAnalog b 11 with
  | none => s
  | some _ => ((s.firedAnalog b).modProgram b (fun g => { g with freezeOp := false })).showFreezes

/-- REGISTER_WRITE (R8). -/
def execRegisterWrite (addr : BitVec 20) (wide : Bool) (v : BitVec 64) (s : State) : Step :=
  event (fun s => s.barWrite addr.toNat wide v.toNat) s

/-- BAD_SIZE_ACCESS (R10). -/
def execBadSizeAccess (addr : BitVec 20) (size : BitVec 8) (s : State) : Step :=
  event (fun s => (s.hostRead addr.toNat size.toNat).2) s

/-- SITE_ENABLE (R39). -/
def execSiteEnable (q : BitVec 8) (e : Entry) (s : State) : Step := hostCmd 0x20 q e doSiteEnable s

/-- CONTACT_CHECK (R40). -/
def execContactCheck (q : BitVec 8) (e : Entry) (s : State) : Step := hostCmd 0x21 q e doContactCheck s

/-- CONTACT_CHECK_END (R40). -/
def execContactCheckEnd (b : Fin 64) (start : BitVec 64) (readings : List (BitVec 18 × Bool)) (s : State) : Step :=
  event (doContactCheckEnd b.val start.toNat readings) s

/-- DECKLE_CLOSE (R37). -/
def execDeckleClose (q : BitVec 8) (e : Entry) (s : State) : Step := hostCmd 0x22 q e doDeckleClose s

/-- SITE_REG_LOAD (R38). -/
def execSiteRegLoad (q : BitVec 8) (e : Entry) (s : State) : Step := hostCmd 0x23 q e doSiteRegLoad s

/-- DECKLE_CLOSURE (R42). -/
def execDeckleClosure (b : Fin 64) (p : Fin 8) (cut : List PartialConv) (s : State) : Step :=
  event (doDeckleClosure b.val p.val cut) s

/-- CLAMP_MONITOR_TRIP (R59). -/
def execClampMonitorTrip (p : Fin 1024) (s : State) : Step := event (doClampTrip p.val) s

/-- CLAMP_LIVE_CLEAR (R59). -/
def execClampLiveClear (p : Fin 1024) (s : State) : Step := event (doClampLiveClear p.val) s

/-- CLAMP_SELF_CHECK (R60). -/
def execClampSelfCheck (c : Fin 32) (passed : BitVec 33) (s : State) : Step := event (doClampSelfCheck c.val passed) s

/-- PPMU_MEASURE (R66). -/
def execPpmuMeasure (q : BitVec 8) (e : Entry) (s : State) : Step := hostCmd 0x30 q e doPpmuMeasure s

/-- PPMU_READING (R68). -/
def execPpmuReading (p : Fin 1024) (sum : BitVec 26) (clamped : Bool) (start : BitVec 64) (s : State) : Step :=
  event (doPpmuReading p.val sum clamped start.toNat) s

/-- CLK_PLAN_WRITE (R75). -/
def execClkPlanWrite (c : Fin 32) (part : RegPart) (v : BitVec 64) (s : State) : Step :=
  event (fun s => s.barPartWrite (Reg.clB c.val) part v.toNat) s

/-- RELOCK_END (R75). -/
def execRelockEnd (c : Fin 32) (s : State) : Step := event (doRelockEnd c.val) s

/-- PLL_LOCK_LOSS (R76). -/
def execPllLockLoss (c : Fin 32) (s : State) : Step := event (doPllLockLoss c.val) s

/-- TIMING_SET_WRITE (R80). -/
def execTimingSetWrite (c : Fin 32) (r : Fin 7) (part : RegPart) (v : BitVec 64) (s : State) : Step :=
  event (fun s => s.barPartWrite (Reg.clB c.val + 0x108 + 8 * r.val) part v.toNat) s

/-- CTRL (R98). -/
def execCtrl (b : Fin 64) (holds : BitVec 32) (s : State) : Step :=
  event (mayReplay b.val (fun s => s.nextWord b.val (fun k => decide (k = 0) || decide (6 ≤ k)) holds.toNat)) s

/-- VEC (R98). -/
def execVec (b : Fin 64) (holds : BitVec 32) (s : State) : Step :=
  event (mayReplay b.val (fun s => s.nextWord b.val (fun k => decide (k = 1)) holds.toNat)) s

/-- VEC_EACH (R98). -/
def execVecEach (b : Fin 64) (holds : BitVec 32) (s : State) : Step :=
  event (mayReplay b.val (fun s => s.nextWord b.val (fun k => decide (k = 2)) holds.toNat)) s

/-- VEC_SEQ (R98). -/
def execVecSeq (b : Fin 64) (holds : BitVec 32) (s : State) : Step :=
  event (mayReplay b.val (fun s => s.nextWord b.val (fun k => decide (k = 3)) holds.toNat)) s

/-- VEC_HOLD (R98). -/
def execVecHold (b : Fin 64) (holds : BitVec 32) (s : State) : Step :=
  event (mayReplay b.val (fun s => s.nextWord b.val (fun k => decide (k = 4)) holds.toNat)) s

/-- SEGMENT (R100). -/
def execSegment (b : Fin 64) (holds : BitVec 32) (s : State) : Step :=
  event (mayReplay b.val (fun s => s.nextWord b.val (fun k => decide (k = 5)) holds.toNat)) s

/-- WAIT_TIMEOUT (R102). -/
def execWaitTimeout (b : Fin 64) (s : State) : Step := event (doWaitTimeout b.val) s

/-- CONDITION_WAIT_END (R105). -/
def execConditionWaitEnd (b : Fin 64) (holds : BitVec 32) (s : State) : Step := event (doConditionWaitEnd b.val holds.toNat) s

/-- SYNC_RELEASE (R101). -/
def execSyncRelease (b : Fin 64) (s : State) : Step := event (doSyncRelease b.val) s

/-- COMPARE_RESULT (R86). -/
def execCompareResult (b : Fin 64) (atE3 : BitVec 256) (steady : BitVec 128) (s : State) : Step :=
  event (doCompareResult b.val atE3 steady) s

/-- PPMU_TRIGGER (R112). -/
def execPpmuTrigger (b : Fin 64) (s : State) : Step := event (doPpmuTrigger b.val) s

/-- TMU_TRIGGER (R112). -/
def execTmuTrigger (b : Fin 64) (s : State) : Step := event (doTmuTrigger b.val) s

/-- DIGITIZER_ARM_TRIGGER (R234). -/
def execDigitizerArmTrigger (b : Fin 64) (s : State) : Step := event (doDigitizerTrigger b.val) s

/-- DPS_READ_TRIGGER (R261). -/
def execDpsReadTrigger (b : Fin 64) (s : State) : Step := event (doDpsReadTrigger b.val) s

/-- PPMU_CONNECT (R113). -/
def execPpmuConnect (b : Fin 64) (cut : List PartialConv) (s : State) : Step := event (doPpmuConnect b.val cut) s

/-- PPMU_DISCONNECT (R113). -/
def execPpmuDisconnect (b : Fin 64) (cut : List PartialConv) (s : State) : Step := event (doPpmuDisconnect b.val cut) s

/-- LEVEL_SET_0 (R54). -/
def execLevelSet0 (b : Fin 64) (s : State) : Step := event (doLevelSet b.val 0) s

/-- LEVEL_SET_1 (R54). -/
def execLevelSet1 (b : Fin 64) (s : State) : Step := event (doLevelSet b.val 1) s

/-- AWG_START (R214). -/
def execAwgStart (b : Fin 64) (s : State) : Step := event (doAwgStart b.val) s

/-- AWG_STOP (R216). -/
def execAwgStop (b : Fin 64) (s : State) : Step := event (doAwgStop b.val) s

/-- AWG_JUMP (R216). -/
def execAwgJump (b : Fin 64) (s : State) : Step := event (doAwgJump b.val) s

/-- DPS_ON (R257). -/
def execDpsOn (b : Fin 64) (s : State) : Step := event (doDpsOn b.val) s

/-- DPS_OFF (R257). -/
def execDpsOff (b : Fin 64) (s : State) : Step := event (doDpsOff b.val) s

/-- CAL_FREEZE (R415). -/
def execCalFreeze (b : Fin 64) (s : State) : Step := event (doCalFreeze b.val) s

/-- CAL_THAW (R415). -/
def execCalThaw (b : Fin 64) (s : State) : Step := event (doCalThaw b.val) s

end Sys2Proof.Machine
end

