-- ==== Sys2Proof/Machine/Dispatch.lean ====
section
/-! DEFINITION. Which meaning each command has: one arm per constructor of Instr. -/

namespace Sys2Proof.Machine

open Sys2Proof

/-- The effect of a command on everything but the queue of waiting commands. -/
def exec (i : Instr) (s : State) : Host.Outcome State Fault Refusal :=
  match i with
  | .registerWrite addr wide v => Sys2Proof.Machine.execRegisterWrite addr wide v s
  | .badSizeAccess addr size => Sys2Proof.Machine.execBadSizeAccess addr size s
  | .siteEnable q e => Sys2Proof.Machine.execSiteEnable q e s
  | .contactCheck q e => Sys2Proof.Machine.execContactCheck q e s
  | .contactCheckEnd b start readings => Sys2Proof.Machine.execContactCheckEnd b start readings s
  | .deckleClose q e => Sys2Proof.Machine.execDeckleClose q e s
  | .siteRegLoad q e => Sys2Proof.Machine.execSiteRegLoad q e s
  | .deckleClosure b p cut => Sys2Proof.Machine.execDeckleClosure b p cut s
  | .clampMonitorTrip p => Sys2Proof.Machine.execClampMonitorTrip p s
  | .clampLiveClear p => Sys2Proof.Machine.execClampLiveClear p s
  | .clampSelfCheck c passed => Sys2Proof.Machine.execClampSelfCheck c passed s
  | .ppmuMeasure q e => Sys2Proof.Machine.execPpmuMeasure q e s
  | .ppmuReading p sum clamped start => Sys2Proof.Machine.execPpmuReading p sum clamped start s
  | .clkPlanWrite c part v => Sys2Proof.Machine.execClkPlanWrite c part v s
  | .relockEnd c => Sys2Proof.Machine.execRelockEnd c s
  | .pllLockLoss c => Sys2Proof.Machine.execPllLockLoss c s
  | .timingSetWrite c r part v => Sys2Proof.Machine.execTimingSetWrite c r part v s
  | .ctrl b holds => Sys2Proof.Machine.execCtrl b holds s
  | .vec b holds => Sys2Proof.Machine.execVec b holds s
  | .vecEach b holds => Sys2Proof.Machine.execVecEach b holds s
  | .vecSeq b holds => Sys2Proof.Machine.execVecSeq b holds s
  | .vecHold b holds => Sys2Proof.Machine.execVecHold b holds s
  | .segment b holds => Sys2Proof.Machine.execSegment b holds s
  | .waitTimeout b => Sys2Proof.Machine.execWaitTimeout b s
  | .conditionWaitEnd b holds => Sys2Proof.Machine.execConditionWaitEnd b holds s
  | .syncRelease b => Sys2Proof.Machine.execSyncRelease b s
  | .compareResult b atE3 steady => Sys2Proof.Machine.execCompareResult b atE3 steady s
  | .ppmuTrigger b => Sys2Proof.Machine.execPpmuTrigger b s
  | .tmuTrigger b => Sys2Proof.Machine.execTmuTrigger b s
  | .digitizerArmTrigger b => Sys2Proof.Machine.execDigitizerArmTrigger b s
  | .dpsReadTrigger b => Sys2Proof.Machine.execDpsReadTrigger b s
  | .ppmuConnect b cut => Sys2Proof.Machine.execPpmuConnect b cut s
  | .ppmuDisconnect b cut => Sys2Proof.Machine.execPpmuDisconnect b cut s
  | .levelSet0 b => Sys2Proof.Machine.execLevelSet0 b s
  | .levelSet1 b => Sys2Proof.Machine.execLevelSet1 b s
  | .awgStart b => Sys2Proof.Machine.execAwgStart b s
  | .awgStop b => Sys2Proof.Machine.execAwgStop b s
  | .awgJump b => Sys2Proof.Machine.execAwgJump b s
  | .dpsOn b => Sys2Proof.Machine.execDpsOn b s
  | .dpsOff b => Sys2Proof.Machine.execDpsOff b s
  | .calFreeze b => Sys2Proof.Machine.execCalFreeze b s
  | .calThaw b => Sys2Proof.Machine.execCalThaw b s
  | .csDemandFill b => Sys2Proof.Machine.execCsDemandFill b s
  | .csSpecFill b page => Sys2Proof.Machine.execCsSpecFill b page s
  | .programStart q e => Sys2Proof.Machine.execProgramStart q e s
  | .programAdmit b => Sys2Proof.Machine.execProgramAdmit b s
  | .programPreempt q e => Sys2Proof.Machine.execProgramPreempt q e s
  | .preemptTimeLimit b k => Sys2Proof.Machine.execPreemptTimeLimit b k s
  | .preemptFrameWrite b => Sys2Proof.Machine.execPreemptFrameWrite b s
  | .programResume q e => Sys2Proof.Machine.execProgramResume q e s
  | .trapRequest q e => Sys2Proof.Machine.execTrapRequest q e s
  | .trapFrameWrite b => Sys2Proof.Machine.execTrapFrameWrite b s
  | .programTimeLimit b => Sys2Proof.Machine.execProgramTimeLimit b s
  | .programEnd b => Sys2Proof.Machine.execProgramEnd b s
  | .unsafeStall b => Sys2Proof.Machine.execUnsafeStall b s
  | .streamBlockArrival n => Sys2Proof.Machine.execStreamBlockArrival n s
  | .hbClrCounts => Sys2Proof.Machine.execHbClrCounts s
  | .csClrCounts n => Sys2Proof.Machine.execCsClrCounts n s
  | .execClrCounts n => Sys2Proof.Machine.execExecClrCounts n s
  | .recordCommit n => Sys2Proof.Machine.execRecordCommit n s
  | .crossedClear n q => Sys2Proof.Machine.execCrossedClear n q s
  | .queueConfigWrite n q cfg part v => Sys2Proof.Machine.execQueueConfigWrite n q cfg part v s
  | .reamMark q e => Sys2Proof.Machine.execReamMark q e s
  | .reamRewind q e => Sys2Proof.Machine.execReamRewind q e s
  | .reamRelease q e => Sys2Proof.Machine.execReamRelease q e s
  | .reamReset q e => Sys2Proof.Machine.execReamReset q e s
  | .tmuArm q e => Sys2Proof.Machine.execTmuArm q e s
  | .tmuCalibrated n k1 k2 startIn stopIn => Sys2Proof.Machine.execTmuCalibrated n k1 k2 startIn stopIn s
  | .tmuEdge n stop falling ref code time => Sys2Proof.Machine.execTmuEdge n stop falling ref code time s
  | .tmuGateClose n => Sys2Proof.Machine.execTmuGateClose n s
  | .tmuTimeout n => Sys2Proof.Machine.execTmuTimeout n s
  | .tmuResult n => Sys2Proof.Machine.execTmuResult n s
  | .awgRunStart q e => Sys2Proof.Machine.execAwgRunStart q e s
  | .awgRunStop q e => Sys2Proof.Machine.execAwgRunStop q e s
  | .awgRunJump q e => Sys2Proof.Machine.execAwgRunJump q e s
  | .awgTimedStart c => Sys2Proof.Machine.execAwgTimedStart c s
  | .awgRequestRegister c n => Sys2Proof.Machine.execAwgRequestRegister c n s
  | .awgBoundary c => Sys2Proof.Machine.execAwgBoundary c s
  | .awgFetchDone c what => Sys2Proof.Machine.execAwgFetchDone c what s
  | .awgUnderrun c => Sys2Proof.Machine.execAwgUnderrun c s
  | .acqArm q e => Sys2Proof.Machine.execAcqArm q e s
  | .acqForce q e => Sys2Proof.Machine.execAcqForce q e s
  | .acqStop q e => Sys2Proof.Machine.execAcqStop q e s
  | .acqRelease q e => Sys2Proof.Machine.execAcqRelease q e s
  | .triggerFire c => Sys2Proof.Machine.execTriggerFire c s
  | .postCaptureEnd c => Sys2Proof.Machine.execPostCaptureEnd c s
  | .rearmEnd c => Sys2Proof.Machine.execRearmEnd c s
  | .acqTimeout c => Sys2Proof.Machine.execAcqTimeout c s
  | .dpsRunOn q e => Sys2Proof.Machine.execDpsRunOn q e s
  | .dpsRunOff q e => Sys2Proof.Machine.execDpsRunOff q e s
  | .dpsRunMeasure q e => Sys2Proof.Machine.execDpsRunMeasure q e s
  | .dpsSwitchingCycle n v cur => Sys2Proof.Machine.execDpsSwitchingCycle n v cur s
  | .dpsReading n => Sys2Proof.Machine.execDpsReading n s
  | .dpsWindowTrip n bounds => Sys2Proof.Machine.execDpsWindowTrip n bounds s
  | .dpsBoundInside n => Sys2Proof.Machine.execDpsBoundInside n s
  | .blankExpiry n => Sys2Proof.Machine.execBlankExpiry n s
  | .dpsDisagree n bound => Sys2Proof.Machine.execDpsDisagree n bound s
  | .dpsSelfCheck n second passed => Sys2Proof.Machine.execDpsSelfCheck n second passed s
  | .popDefine q e => Sys2Proof.Machine.execPopDefine q e s
  | .popFinalise q e => Sys2Proof.Machine.execPopFinalise q e s
  | .popRead q e => Sys2Proof.Machine.execPopRead q e s
  | .popRelease q e => Sys2Proof.Machine.execPopRelease q e s
  | .popReading => Sys2Proof.Machine.execPopReading s
  | .forwardDeadline k => Sys2Proof.Machine.execForwardDeadline k s
  | .deadline k => Sys2Proof.Machine.execDeadline k s
  | .popDomainWrite part v => Sys2Proof.Machine.execPopDomainWrite part v s
  | .popClrCounts => Sys2Proof.Machine.execPopClrCounts s
  | .mapSet q e => Sys2Proof.Machine.execMapSet q e s
  | .mapLoad q e => Sys2Proof.Machine.execMapLoad q e s
  | .mapClear q e => Sys2Proof.Machine.execMapClear q e s
  | .mapRead q e => Sys2Proof.Machine.execMapRead q e s
  | .regionWrite r part v => Sys2Proof.Machine.execRegionWrite r part v s
  | .mmuClrCounts => Sys2Proof.Machine.execMmuClrCounts s
  | .patrolScrub errors elsewhere => Sys2Proof.Machine.execPatrolScrub errors elsewhere s
  | .hostReadCompletion block r => Sys2Proof.Machine.execHostReadCompletion block r s
  | .atsCompletion entry r => Sys2Proof.Machine.execAtsCompletion entry r s
  | .pageRequestResponse index r => Sys2Proof.Machine.execPageRequestResponse index r s
  | .prTimeout index => Sys2Proof.Machine.execPrTimeout index s
  | .atsInvalidate itag base pages => Sys2Proof.Machine.execAtsInvalidate itag base pages s
  | .invalidationCompletion itag => Sys2Proof.Machine.execInvalidationCompletion itag s
  | .dmaCopy q e => Sys2Proof.Machine.execDmaCopy q e s
  | .dmaRing q e => Sys2Proof.Machine.execDmaRing q e s
  | .dmaFill q e => Sys2Proof.Machine.execDmaFill q e s
  | .dmaResume q e => Sys2Proof.Machine.execDmaResume q e s
  | .dmaAbort q e => Sys2Proof.Machine.execDmaAbort q e s
  | .dmaChunkComplete e begun landed => Sys2Proof.Machine.execDmaChunkComplete e begun landed s
  | .descriptorAgeing e k => Sys2Proof.Machine.execDescriptorAgeing e k s
  | .dmaTimeLimit e slot k => Sys2Proof.Machine.execDmaTimeLimit e slot k s
  | .dmaClrCounts => Sys2Proof.Machine.execDmaClrCounts s
  | .pollRound => Sys2Proof.Machine.execPollRound s
  | .doorbellLineRead k r => Sys2Proof.Machine.execDoorbellLineRead k r s
  | .entryFetch q r => Sys2Proof.Machine.execEntryFetch q r s
  | .nop q e => Sys2Proof.Machine.execNop q e s
  | .completionWrite => Sys2Proof.Machine.execCompletionWrite s
  | .moderationTimer m => Sys2Proof.Machine.execModerationTimer m s
  | .msixUnmask v => Sys2Proof.Machine.execMsixUnmask v s
  | .l1Exit => Sys2Proof.Machine.execL1Exit s
  | .d3hotEntry => Sys2Proof.Machine.execD3hotEntry s
  | .d0Return busMaster => Sys2Proof.Machine.execD0Return busMaster s
  | .hotReset linkDown => Sys2Proof.Machine.execHotReset linkDown s
  | .sqConfigWrite q part v => Sys2Proof.Machine.execSqConfigWrite q part v s
  | .cqConfigWrite q part v => Sys2Proof.Machine.execCqConfigWrite q part v s
  | .pollIntervalWrite idle v => Sys2Proof.Machine.execPollIntervalWrite idle v s
  | .hiClrCounts => Sys2Proof.Machine.execHiClrCounts s
  | .partnerDetect p => Sys2Proof.Machine.execPartnerDetect p s
  | .equaliseEnd p ok => Sys2Proof.Machine.execEqualiseEnd p ok s
  | .mismatchRetry p => Sys2Proof.Machine.execMismatchRetry p s
  | .blockLockLoss p => Sys2Proof.Machine.execBlockLockLoss p s
  | .retrain p => Sys2Proof.Machine.execRetrain p s
  | .retrainTimeout p => Sys2Proof.Machine.execRetrainTimeout p s
  | .downTimeout p => Sys2Proof.Machine.execDownTimeout p s
  | .id0 p content crc => Sys2Proof.Machine.execId0 p content crc s
  | .id1 p content crc => Sys2Proof.Machine.execId1 p content crc s
  | .credit p content crc => Sys2Proof.Machine.execCredit p content crc s
  | .ack p content crc => Sys2Proof.Machine.execAck p content crc s
  | .nak p content crc => Sys2Proof.Machine.execNak p content crc s
  | .syncReq p content crc t2 t3 => Sys2Proof.Machine.execSyncReq p content crc t2 t3 s
  | .syncRsp p content crc t4 => Sys2Proof.Machine.execSyncRsp p content crc t4 s
  | .syncPulse p content crc ta => Sys2Proof.Machine.execSyncPulse p content crc ta s
  | .syncInfo p content crc => Sys2Proof.Machine.execSyncInfo p content crc s
  | .timeHi p content crc => Sys2Proof.Machine.execTimeHi p content crc s
  | .packetReceive p flits => Sys2Proof.Machine.execPacketReceive p flits s
  | .replayTimeout p => Sys2Proof.Machine.execReplayTimeout p s
  | .creditTimer p => Sys2Proof.Machine.execCreditTimer p s
  | .ackTimer p => Sys2Proof.Machine.execAckTimer p s
  | .syncExchangeTimer p t1 => Sys2Proof.Machine.execSyncExchangeTimer p t1 s
  | .syncPulseTimer t hi => Sys2Proof.Machine.execSyncPulseTimer t hi s
  | .holdoverTimeout => Sys2Proof.Machine.execHoldoverTimeout s
  | .writeReq p => Sys2Proof.Machine.execWriteReq p s
  | .readReq p => Sys2Proof.Machine.execReadReq p s
  | .writeRsp p => Sys2Proof.Machine.execWriteRsp p s
  | .readRsp p => Sys2Proof.Machine.execReadRsp p s
  | .reduce p => Sys2Proof.Machine.execReduce p s
  | .reassemblyTimeout k => Sys2Proof.Machine.execReassemblyTimeout k s
  | .start p => Sys2Proof.Machine.execStart p s
  | .startAck p => Sys2Proof.Machine.execStartAck p s
  | .cancel p => Sys2Proof.Machine.execCancel p s
  | .linkState p => Sys2Proof.Machine.execLinkState p s
  | .feltCopy q e => Sys2Proof.Machine.execFeltCopy q e s
  | .feltSchedule q e => Sys2Proof.Machine.execFeltSchedule q e s
  | .feltCancel q e => Sys2Proof.Machine.execFeltCancel q e s
  | .feltTimeSet q e => Sys2Proof.Machine.execFeltTimeSet q e s
  | .scheduleTimeout k => Sys2Proof.Machine.execScheduleTimeout k s
  | .rspTimeout tid => Sys2Proof.Machine.execRspTimeout tid s
  | .startFillDeadline k => Sys2Proof.Machine.execStartFillDeadline k s
  | .startAlign k => Sys2Proof.Machine.execStartAlign k s
  | .scheduledStart k => Sys2Proof.Machine.execScheduledStart k s
  | .feltCfgWrite part v => Sys2Proof.Machine.execFeltCfgWrite part v s
  | .feltClrCounts => Sys2Proof.Machine.execFeltClrCounts s
  | .flashFetch line => Sys2Proof.Machine.execFlashFetch line s
  | .flashReadDone => Sys2Proof.Machine.execFlashReadDone s
  | .dqsTimeout => Sys2Proof.Machine.execDqsTimeout s
  | .storeWrite => Sys2Proof.Machine.execStoreWrite s
  | .flashStatusRead ready good => Sys2Proof.Machine.execFlashStatusRead ready good s
  | .flashBusyTimeout => Sys2Proof.Machine.execFlashBusyTimeout s
  | .cellNop f => Sys2Proof.Machine.execCellNop f s
  | .cellRead f => Sys2Proof.Machine.execCellRead f s
  | .cellWrite f => Sys2Proof.Machine.execCellWrite f s
  | .aliveLoss => Sys2Proof.Machine.execAliveLoss s
  | .cpCtrlWrite v => Sys2Proof.Machine.execCpCtrlWrite v s
  | .calRun q e m => Sys2Proof.Machine.execCalRun q e m s
  | .calRunTimeLimit c => Sys2Proof.Machine.execCalRunTimeLimit c s
  | .calStore q e => Sys2Proof.Machine.execCalStore q e s
  | .calLoad q e => Sys2Proof.Machine.execCalLoad q e s
  | .trackingCycle c m => Sys2Proof.Machine.execTrackingCycle c m s
  | .calenderStep kind unit j => Sys2Proof.Machine.execCalenderStep kind unit j s
  | .calStale c => Sys2Proof.Machine.execCalStale c s
  | .nextEvent q e => Sys2Proof.Machine.execNextEvent q e s
  | .wake q e => Sys2Proof.Machine.execWake q e s
  | .usageRead q e => Sys2Proof.Machine.execUsageRead q e s
  | .idleChoice => Sys2Proof.Machine.execIdleChoice s
  | .idleEntryEnd => Sys2Proof.Machine.execIdleEntryEnd s
  | .idleExit => Sys2Proof.Machine.execIdleExit s
  | .idleExitEnd => Sys2Proof.Machine.execIdleExitEnd s
  | .thermalSample temps => Sys2Proof.Machine.execThermalSample temps s
  | .throttleUpdate => Sys2Proof.Machine.execThrottleUpdate s
  | .sensorReadmit k => Sys2Proof.Machine.execSensorReadmit k s
  | .supplyWarning rail => Sys2Proof.Machine.execSupplyWarning rail s
  | .supplyRecovery rail => Sys2Proof.Machine.execSupplyRecovery rail s
  | .supplyReset rail => Sys2Proof.Machine.execSupplyReset rail s
  | .ageingMeasure c ppm => Sys2Proof.Machine.execAgeingMeasure c ppm s
  | .usageLogWrite => Sys2Proof.Machine.execUsageLogWrite s
  | .eventDelivery late => Sys2Proof.Machine.execEventDelivery late s
  | .evAssert k => Sys2Proof.Machine.execEvAssert k s
  | .evPulseEnd k who => Sys2Proof.Machine.execEvPulseEnd k who s
  | .heqConfigWrite k part v => Sys2Proof.Machine.execHeqConfigWrite k part v s
  | .evcClrCounts => Sys2Proof.Machine.execEvcClrCounts s
  | .attest q e => Sys2Proof.Machine.execAttest q e s
  | .summarySign q e => Sys2Proof.Machine.execSummarySign q e s
  | .imageMeasure q e => Sys2Proof.Machine.execImageMeasure q e s
  | .fwUpdate q e => Sys2Proof.Machine.execFwUpdate q e s
  | .oemProvision q e => Sys2Proof.Machine.execOemProvision q e s
  | .oemConfig q e => Sys2Proof.Machine.execOemConfig q e s
  | .boot => Sys2Proof.Machine.execBoot s
  | .extest shift balls => Sys2Proof.Machine.execExtest shift balls s
  | .idcode => Sys2Proof.Machine.execIdcode s
  | .samplePreload shift balls => Sys2Proof.Machine.execSamplePreload shift balls s
  | .clamp shift => Sys2Proof.Machine.execClamp shift s
  | .highz shift => Sys2Proof.Machine.execHighz shift s
  | .debugAccess d => Sys2Proof.Machine.execDebugAccess d s
  | .debugStatus => Sys2Proof.Machine.execDebugStatus s
  | .bypass code shift => Sys2Proof.Machine.execBypass code shift s
  | .perst xref => Sys2Proof.Machine.execPerst xref s
  | .unitBringup u r => Sys2Proof.Machine.execUnitBringup u r s
  | .unitReset q e => Sys2Proof.Machine.execUnitReset q e s
  | .unitPowerDown q e => Sys2Proof.Machine.execUnitPowerDown q e s
  | .unitPowerUp q e => Sys2Proof.Machine.execUnitPowerUp q e s
  | .unitRestart u r => Sys2Proof.Machine.execUnitRestart u r s
  | .unitRetire q e => Sys2Proof.Machine.execUnitRetire q e s
  | .unitUnretire q e => Sys2Proof.Machine.execUnitUnretire q e s
  | .referenceLoss => Sys2Proof.Machine.execReferenceLoss s
  | .safeWait b => Sys2Proof.Machine.execSafeWait b s
  | .digitizerSample g c0 c1 c2 c3 => Sys2Proof.Machine.execDigitizerSample g c0 c1 c2 c3 s
  | .tmuInputSettled n stop => Sys2Proof.Machine.execTmuInputSettled n stop s
  | .completionTimeout what => Sys2Proof.Machine.execCompletionTimeout what s
  | .configSpaceWrite w => Sys2Proof.Machine.execConfigSpaceWrite w s
  | .pcieLinkUp rate width => Sys2Proof.Machine.execPcieLinkUp rate width s
  | .l1Entry => Sys2Proof.Machine.execL1Entry s
  | .evLineRelease k => Sys2Proof.Machine.execEvLineRelease k s
  | .perstAssert => Sys2Proof.Machine.execPerstAssert s
  | .internalResetRelease => Sys2Proof.Machine.execInternalResetRelease s

end Sys2Proof.Machine
end

