-- ==== Sys2Proof/WellFormed.lean ====
section
/-! DEFINITION. Which terms are commands: a host command's submission entry spells that command (R349, R350). -/

namespace Sys2Proof

/-- The OPCODE of a host command, and the ACTION bytes it stands for (byte 8) where one opcode has several rows (R225, R248,
R266, R484); none for an event or a register write. -/
def Instr.spelling : Instr → Option (Entry × Nat × (Nat → Bool))
  | .registerWrite _ _ _ => none
  | .badSizeAccess _ _ => none
  | .siteEnable _ e => some (e, 0x20, fun _ => true)
  | .contactCheck _ e => some (e, 0x21, fun _ => true)
  | .contactCheckEnd _ _ _ => none
  | .deckleClose _ e => some (e, 0x22, fun _ => true)
  | .siteRegLoad _ e => some (e, 0x23, fun _ => true)
  | .deckleClosure _ _ _ => none
  | .clampMonitorTrip _ => none
  | .clampLiveClear _ => none
  | .clampSelfCheck _ _ => none
  | .ppmuMeasure _ e => some (e, 0x30, fun _ => true)
  | .ppmuReading _ _ _ _ => none
  | .clkPlanWrite _ _ _ => none
  | .relockEnd _ => none
  | .pllLockLoss _ => none
  | .timingSetWrite _ _ _ _ => none
  | .ctrl _ _ => none
  | .vec _ _ => none
  | .vecEach _ _ => none
  | .vecSeq _ _ => none
  | .vecHold _ _ => none
  | .segment _ _ => none
  | .waitTimeout _ => none
  | .conditionWaitEnd _ _ => none
  | .syncRelease _ => none
  | .compareResult _ _ _ => none
  | .ppmuTrigger _ => none
  | .tmuTrigger _ => none
  | .digitizerArmTrigger _ => none
  | .dpsReadTrigger _ => none
  | .ppmuConnect _ _ => none
  | .ppmuDisconnect _ _ => none
  | .levelSet0 _ => none
  | .levelSet1 _ => none
  | .awgStart _ => none
  | .awgStop _ => none
  | .awgJump _ => none
  | .dpsOn _ => none
  | .dpsOff _ => none
  | .calFreeze _ => none
  | .calThaw _ => none
  | .csDemandFill _ => none
  | .csSpecFill _ _ => none
  | .programStart _ e => some (e, 0x10, fun _ => true)
  | .programAdmit _ => none
  | .programPreempt _ e => some (e, 0x11, fun _ => true)
  | .preemptTimeLimit _ _ => none
  | .preemptFrameWrite _ => none
  | .programResume _ e => some (e, 0x12, fun _ => true)
  | .trapRequest _ e => some (e, 0x13, fun _ => true)
  | .trapFrameWrite _ => none
  | .programTimeLimit _ => none
  | .programEnd _ => none
  | .unsafeStall _ => none
  | .streamBlockArrival _ => none
  | .hbClrCounts => none
  | .csClrCounts _ => none
  | .execClrCounts _ => none
  | .recordCommit _ => none
  | .crossedClear _ _ => none
  | .queueConfigWrite _ _ _ _ _ => none
  | .reamMark _ e => some (e, 0x40, fun _ => true)
  | .reamRewind _ e => some (e, 0x41, fun _ => true)
  | .reamRelease _ e => some (e, 0x42, fun _ => true)
  | .reamReset _ e => some (e, 0x43, fun _ => true)
  | .tmuArm _ e => some (e, 0x31, fun _ => true)
  | .tmuCalibrated _ _ _ _ _ => none
  | .tmuEdge _ _ _ _ _ _ => none
  | .tmuGateClose _ => none
  | .tmuTimeout _ => none
  | .tmuResult _ => none
  | .awgRunStart _ e => some (e, 0x32, fun a => decide (a ≠ 1) && decide (a ≠ 2))
  | .awgRunStop _ e => some (e, 0x32, fun a => decide (a = 1))
  | .awgRunJump _ e => some (e, 0x32, fun a => decide (a = 2))
  | .awgTimedStart _ => none
  | .awgRequestRegister _ _ => none
  | .awgBoundary _ => none
  | .awgFetchDone _ _ => none
  | .awgUnderrun _ => none
  | .acqArm _ e => some (e, 0x33, fun a => decide (a = 0) || decide (3 < a))
  | .acqForce _ e => some (e, 0x33, fun a => decide (a = 1))
  | .acqStop _ e => some (e, 0x33, fun a => decide (a = 2))
  | .acqRelease _ e => some (e, 0x33, fun a => decide (a = 3))
  | .triggerFire _ => none
  | .postCaptureEnd _ => none
  | .rearmEnd _ => none
  | .acqTimeout _ => none
  | .dpsRunOn _ e => some (e, 0x34, fun a => decide (a = 0) || decide (2 < a))
  | .dpsRunOff _ e => some (e, 0x34, fun a => decide (a = 1))
  | .dpsRunMeasure _ e => some (e, 0x34, fun a => decide (a = 2))
  | .dpsSwitchingCycle _ _ _ => none
  | .dpsReading _ => none
  | .dpsWindowTrip _ _ => none
  | .dpsBoundInside _ => none
  | .blankExpiry _ => none
  | .dpsDisagree _ _ => none
  | .dpsSelfCheck _ _ _ => none
  | .popDefine _ e => some (e, 0x50, fun _ => true)
  | .popFinalise _ e => some (e, 0x51, fun _ => true)
  | .popRead _ e => some (e, 0x52, fun _ => true)
  | .popRelease _ e => some (e, 0x53, fun _ => true)
  | .popReading => none
  | .forwardDeadline _ => none
  | .deadline _ => none
  | .popDomainWrite _ _ => none
  | .popClrCounts => none
  | .mapSet _ e => some (e, 0x60, fun _ => true)
  | .mapLoad _ e => some (e, 0x61, fun _ => true)
  | .mapClear _ e => some (e, 0x62, fun _ => true)
  | .mapRead _ e => some (e, 0x63, fun _ => true)
  | .regionWrite _ _ _ => none
  | .mmuClrCounts => none
  | .patrolScrub _ _ => none
  | .hostReadCompletion _ _ => none
  | .atsCompletion _ _ => none
  | .pageRequestResponse _ _ => none
  | .prTimeout _ => none
  | .atsInvalidate _ _ _ => none
  | .invalidationCompletion _ => none
  | .dmaCopy _ e => some (e, 0x70, fun _ => true)
  | .dmaRing _ e => some (e, 0x71, fun _ => true)
  | .dmaFill _ e => some (e, 0x72, fun _ => true)
  | .dmaResume _ e => some (e, 0x73, fun _ => true)
  | .dmaAbort _ e => some (e, 0x74, fun _ => true)
  | .dmaChunkComplete _ _ _ => none
  | .descriptorAgeing _ _ => none
  | .dmaTimeLimit _ _ _ => none
  | .dmaClrCounts => none
  | .pollRound => none
  | .doorbellLineRead _ _ => none
  | .entryFetch _ _ => none
  | .nop _ e => some (e, 0x00, fun _ => true)
  | .completionWrite => none
  | .moderationTimer _ => none
  | .msixUnmask _ => none
  | .l1Exit => none
  | .d3hotEntry => none
  | .d0Return _ => none
  | .hotReset _ => none
  | .sqConfigWrite _ _ _ => none
  | .cqConfigWrite _ _ _ => none
  | .pollIntervalWrite _ _ => none
  | .hiClrCounts => none
  | .partnerDetect _ => none
  | .equaliseEnd _ _ => none
  | .mismatchRetry _ => none
  | .blockLockLoss _ => none
  | .retrain _ => none
  | .retrainTimeout _ => none
  | .downTimeout _ => none
  | .id0 _ _ _ => none
  | .id1 _ _ _ => none
  | .credit _ _ _ => none
  | .ack _ _ _ => none
  | .nak _ _ _ => none
  | .syncReq _ _ _ _ _ => none
  | .syncRsp _ _ _ _ => none
  | .syncPulse _ _ _ _ => none
  | .syncInfo _ _ _ => none
  | .timeHi _ _ _ => none
  | .packetReceive _ _ => none
  | .replayTimeout _ => none
  | .creditTimer _ => none
  | .ackTimer _ => none
  | .syncExchangeTimer _ _ => none
  | .syncPulseTimer _ _ => none
  | .holdoverTimeout => none
  | .writeReq _ => none
  | .readReq _ => none
  | .writeRsp _ => none
  | .readRsp _ => none
  | .reduce _ => none
  | .reassemblyTimeout _ => none
  | .start _ => none
  | .startAck _ => none
  | .cancel _ => none
  | .linkState _ => none
  | .feltCopy _ e => some (e, 0xA0, fun _ => true)
  | .feltSchedule _ e => some (e, 0xA1, fun _ => true)
  | .feltCancel _ e => some (e, 0xA2, fun _ => true)
  | .feltTimeSet _ e => some (e, 0xA3, fun _ => true)
  | .scheduleTimeout _ => none
  | .rspTimeout _ => none
  | .startFillDeadline _ => none
  | .startAlign _ => none
  | .scheduledStart _ => none
  | .feltCfgWrite _ _ => none
  | .feltClrCounts => none
  | .flashFetch _ => none
  | .flashReadDone => none
  | .dqsTimeout => none
  | .storeWrite => none
  | .flashStatusRead _ _ => none
  | .flashBusyTimeout => none
  | .cellNop _ => none
  | .cellRead _ => none
  | .cellWrite _ => none
  | .aliveLoss => none
  | .cpCtrlWrite _ => none
  | .calRun _ e _ => some (e, 0x80, fun _ => true)
  | .calRunTimeLimit _ => none
  | .calStore _ e => some (e, 0x81, fun _ => true)
  | .calLoad _ e => some (e, 0x82, fun _ => true)
  | .trackingCycle _ _ => none
  | .calenderStep _ _ _ => none
  | .calStale _ => none
  | .nextEvent _ e => some (e, 0x90, fun _ => true)
  | .wake _ e => some (e, 0x91, fun _ => true)
  | .usageRead _ e => some (e, 0x92, fun _ => true)
  | .idleChoice => none
  | .idleEntryEnd => none
  | .idleExit => none
  | .idleExitEnd => none
  | .thermalSample _ => none
  | .throttleUpdate => none
  | .sensorReadmit _ => none
  | .supplyWarning _ => none
  | .supplyRecovery _ => none
  | .supplyReset _ => none
  | .ageingMeasure _ _ => none
  | .usageLogWrite => none
  | .eventDelivery _ => none
  | .evAssert _ => none
  | .evPulseEnd _ _ => none
  | .heqConfigWrite _ _ _ => none
  | .evcClrCounts => none
  | .attest _ e => some (e, 0x93, fun _ => true)
  | .summarySign _ e => some (e, 0x94, fun _ => true)
  | .imageMeasure _ e => some (e, 0x95, fun _ => true)
  | .fwUpdate _ e => some (e, 0x96, fun _ => true)
  | .oemProvision _ e => some (e, 0x97, fun _ => true)
  | .oemConfig _ e => some (e, 0x98, fun _ => true)
  | .boot => none
  | .extest _ _ => none
  | .idcode => none
  | .samplePreload _ _ => none
  | .clamp _ => none
  | .highz _ => none
  | .debugAccess _ => none
  | .debugStatus => none
  | .bypass _ _ => none
  | .perst _ => none
  | .unitBringup _ _ => none
  | .unitReset _ e => some (e, 0x99, fun _ => true)
  | .unitPowerDown _ e => some (e, 0x9A, fun a => decide (a ≠ 1))
  | .unitPowerUp _ e => some (e, 0x9A, fun a => decide (a = 1))
  | .unitRestart _ _ => none
  | .unitRetire _ e => some (e, 0x9B, fun _ => true)
  | .unitUnretire _ e => some (e, 0x9C, fun _ => true)
  | .referenceLoss => none
  | .safeWait _ => none
  | .digitizerSample _ _ _ _ _ => none
  | .tmuInputSettled _ _ => none
  | .completionTimeout _ => none
  | .configSpaceWrite _ => none
  | .pcieLinkUp _ _ => none
  | .l1Entry => none
  | .evLineRelease _ => none
  | .perstAssert => none
  | .internalResetRelease => none

/-- A well-formed command: the entry of a host command spells it (R349). -/
def Instr.wf (i : Instr) : Bool :=
  match i.spelling with
  | none => true
  | some (e, op, act) => decide (Entry.opcode e = op) && act (Entry.field e 8 1)

/-- Every waiting command is well formed. -/
def queueWf (l : List Instr) : Bool := l.all Instr.wf

end Sys2Proof
end

