-- ==== Sys2Proof/Safety.lean ====
section
/-! DEFINITION. What a well-kept state is, in the terms the statements use: memory in canonical form, a queue of
commands that are commands, and a step that answers a next state. -/

namespace Sys2Proof

/-- Resets, and the test access port: the rows that may change what `State.frozen` names. -/
def Instr.resetsOrScans : Instr → Bool
  | .perst _ => true
  | .perstAssert => true
  | .supplyReset _ => true
  | .referenceLoss => true
  | .internalResetRelease => true
  | .hotReset _ => true
  | .extest _ _ => true
  | .samplePreload _ _ => true
  | .idcode => true
  | .clamp _ => true
  | .highz _ => true
  | .bypass _ _ => true
  | .debugAccess _ => true
  | .debugStatus => true
  | _ => false

/-- Rows whose effect may reach device memory, host memory or the device translation table: through an engine that writes
there, through a register of a Ream queue, through the MAP commands and the patrol scrubber, through the start or the loss of
the memory unit. -/
def Instr.mayStore : Instr → Bool
  | .registerWrite _ _ _ => true
  | .siteEnable _ _ => true
  | .deckleClosure _ _ _ => true
  | .clkPlanWrite _ _ _ => true
  | .timingSetWrite _ _ _ _ => true
  | .csDemandFill _ => true
  | .programStart _ _ => true
  | .programAdmit _ => true
  | .preemptFrameWrite _ => true
  | .programResume _ _ => true
  | .trapFrameWrite _ => true
  | .programTimeLimit _ => true
  | .programEnd _ => true
  | .unsafeStall _ => true
  | .hbClrCounts => true
  | .csClrCounts _ => true
  | .execClrCounts _ => true
  | .recordCommit _ => true
  | .crossedClear _ _ => true
  | .queueConfigWrite _ _ _ _ _ => true
  | .reamReset _ _ => true
  | .acqStop _ _ => true
  | .acqRelease _ _ => true
  | .triggerFire _ => true
  | .rearmEnd _ => true
  | .acqTimeout _ => true
  | .popDefine _ _ => true
  | .popFinalise _ _ => true
  | .popReading => true
  | .forwardDeadline _ => true
  | .deadline _ => true
  | .popDomainWrite _ _ => true
  | .popClrCounts => true
  | .mapSet _ _ => true
  | .mapLoad _ _ => true
  | .mapClear _ _ => true
  | .regionWrite _ _ _ => true
  | .mmuClrCounts => true
  | .patrolScrub _ _ => true
  | .hostReadCompletion _ _ => true
  | .dmaChunkComplete _ _ _ => true
  | .dmaClrCounts => true
  | .pollRound => true
  | .doorbellLineRead _ _ => true
  | .entryFetch _ _ => true
  | .completionWrite => true
  | .l1Exit => true
  | .d0Return _ => true
  | .sqConfigWrite _ _ _ => true
  | .cqConfigWrite _ _ _ => true
  | .pollIntervalWrite _ _ => true
  | .hiClrCounts => true
  | .retrain _ => true
  | .syncPulse _ _ _ _ => true
  | .writeReq _ => true
  | .reduce _ => true
  | .cancel _ => true
  | .feltCancel _ _ => true
  | .feltTimeSet _ _ => true
  | .startFillDeadline _ => true
  | .scheduledStart _ => true
  | .feltCfgWrite _ _ => true
  | .feltClrCounts => true
  | .cpCtrlWrite _ => true
  | .usageRead _ _ => true
  | .idleExitEnd => true
  | .thermalSample _ => true
  | .sensorReadmit _ => true
  | .supplyReset _ => true
  | .eventDelivery _ => true
  | .heqConfigWrite _ _ _ => true
  | .evcClrCounts => true
  | .attest _ _ => true
  | .summarySign _ _ => true
  | .boot => true
  | .debugAccess _ => true
  | .perst _ => true
  | .unitBringup _ _ => true
  | .unitReset _ _ => true
  | .unitPowerDown _ _ => true
  | .unitRestart _ _ => true
  | .unitRetire _ _ => true
  | .referenceLoss => true
  | .safeWait _ => true
  | .digitizerSample _ _ _ _ _ => true
  | .completionTimeout _ => true
  | .configSpaceWrite _ => true
  | .perstAssert => true
  | _ => false

/-- The one host access that a write of part of the 64-bit register at `a` is: address, size, value (R509). -/
def partAccess (a : Nat) (part : RegPart) (v : BitVec 64) : Nat × Bool × Nat :=
  match part with
  | .whole => (a, true, v.toNat)
  | .low => (a, false, v.toNat % 2 ^ 32)
  | .high => (a + 4, false, v.toNat % 2 ^ 32)

/-- The access that a register write with a row of its own makes: address, size (64 bits where true), value. -/
def Instr.barAccess : Instr → Option (Nat × Bool × Nat)
  | .clkPlanWrite c part v => some (partAccess (0x10000 + 0x2000 * c.val) part v)
  | .timingSetWrite c r part v => some (partAccess (0x10000 + 0x2000 * c.val + 0x108 + 8 * r.val) part v)
  | .queueConfigWrite n q cfg part v =>
    some (partAccess (0x50000 + 0x800 * n.val + 0x400 + 0x40 * q.val + 8 * b2n cfg) part v)
  | .popDomainWrite part v => some (partAccess 0x9008 part v)
  | .regionWrite r part v => some (partAccess (0x3200 + 8 * r.val) part v)
  | .sqConfigWrite q part v => some (partAccess (0x1400 + 16 * q.val) part v)
  | .cqConfigWrite q part v => some (partAccess (0x1408 + 16 * q.val) part v)
  | .pollIntervalWrite idle v => some (0x1008 + 4 * b2n idle, false, v.toNat)
  | .feltCfgWrite part v => some (partAccess 0x6000 part v)
  | .cpCtrlWrite v => some (0x7100, false, v.toNat)
  | .heqConfigWrite k part v => some (partAccess (0x4040 + 0x20 * k.val) part v)
  | _ => none

/-- The register whose CLR_COUNTS a row writes: its address, and the counters it clears, as runs of quads (R8). -/
def Instr.clears : Instr → Option (Nat × List (Nat × Nat))
  | .hiClrCounts => some (0x1000, [(0x1040, 8)])
  | .dmaClrCounts => some (0x2C00, (List.range 8).map (fun e => (0x2800 + 0x80 * e + 8, 6)))
  | .mmuClrCounts => some (0x3008, [(0x3020, 10)])
  | .evcClrCounts => some (0x4000, [(0x4008, 2)])
  | .feltClrCounts => some (0x6008, (0x6040, 5) :: (List.range 4).map (fun p => (0x6110 + 0x40 * p, 5)))
  | .popClrCounts => some (0x9000, [(0x9020, 10)])
  | .hbClrCounts => some (0xA000, (0xA010, 3) :: (List.range 16).map (fun g => (0xA110 + 0x40 * g, 6)) ++
      (List.range 64).map (fun n => (0x50000 + 0x800 * n + 0x208, 4)))
  | .csClrCounts n => some (0x50000 + 0x800 * n.val, [(0x50018 + 0x800 * n.val, 3)])
  | .execClrCounts n => some (0x500C0 + 0x800 * n.val, [(0x50088 + 0x800 * n.val, 7)])
  | _ => none

end Sys2Proof

namespace Sys2Proof.Machine

open Sys2Proof

/-- What device memory, host memory and the device translation table hold. -/
abbrev Stored := SMap Byte × SMap Byte × SMap (BitVec 64)

/-- What memory holds in a state. -/
def State.memData (s : State) : Stored := (s.mem.cells, s.mem.host, s.mem.dtt)

/-- Device memory, host memory and the device translation table are in canonical form: addresses strictly rise, and no
listed value equals what an unlisted address reads as. -/
def storeWf (m : Stored) : Bool :=
  SMap.canonical (fun _ => (0 : Byte)) m.1 && SMap.canonical Config.hostByte m.2.1 && SMap.canonical (fun _ => (0 : BitVec 64)) m.2.2

/-- Memory of a state is in canonical form. -/
def Memory.wf (m : Memory) : Bool := storeWf (m.cells, m.host, m.dtt)

/-- The registers are in canonical form: no listed quad holds its reset value (R12). -/
def State.regsWf (s : State) : Bool := SMap.canonical (quadReset s.fuse) s.regs

/-- The queue, the fuses in effect, the reset lines, the reference in use, the test access port, the hot resets so far. -/
def State.frozen (s : State) : List Instr × FuseView × Bool × Bool × Bool × Jtag × Nat :=
  (s.pending, s.fuse, s.perst, s.internalReset, s.xref, s.jtag, s.hi.epoch)

/-- Every waiting command is a command: its entry spells it. -/
def State.queueOk (s : State) : Prop := queueWf s.pending = true

/-- The step neither faults nor refuses. -/
def State.completes (s : State) : Prop := ∃ t, step s = .next t

/-- The device runs: it is not held in reset, and it is in P0 and not on its way to or from an idle state (R421, R474). -/
def State.up (s : State) : Prop := s.inReset = false ∧ s.idling = false

/-- A host command entry `e` of queue `q` is served: the device runs, no completion holds up the command's unit (R353), and no
hot reset has discarded it (R353). -/
def State.serves (s : State) (q : BitVec 8) (e : Entry) : Prop :=
  s.up ∧ s.unitStopped (s.taken q.toNat e) = false ∧ (s.taken q.toNat e).epoch = s.hi.epoch

/-- The completion of command `c` with a status and a RESULT is on its way to the host: in the buffer, or held by the unit
that the full buffer stops (R352, R353). -/
def State.reported (s : State) (c : Cmd) (status result : Nat) : Prop :=
  ∃ x ∈ s.hi.buffer ++ s.hi.unitHeld, x.cmd = c ∧ x.status = status ∧ x.result = result % 2 ^ 192

/-- Every register bit outside the listed fields reads the same. -/
def State.regsBut (s t : State) (fs : List Fld) : Prop :=
  ∀ a i, (∀ f ∈ fs, f.addr = a → ¬ (f.lo ≤ i ∧ i < f.lo + f.width)) → (t.quad a).toNat.testBit i = (s.quad a).toNat.testBit i

/-- A host write to BAR0 offset `a` reaches its register: the device is out of reset and booted, the protection map lets it
through, and the block there is not shut (R11, R474, R508). -/
def State.writable (s : State) (a : Nat) : Prop :=
  s.inReset = false ∧ s.flag Reg.SEC_STATUS_BOOTED = true ∧ s.writeDenied a = false ∧ s.writeShut a = false

/-- From `s` to `t` event source `n` has occurred once, at a unit and with an INFO: it counts up to 255, and SAT past that;
the first occurrence since the last delivery stays latched (R442). -/
def State.raised (s t : State) (n unit info : Nat) : Prop :=
  t.fld (Reg.SRC_STAT_COUNT n) = min 255 (s.fld (Reg.SRC_STAT_COUNT n) + 1) ∧
    (s.fld (Reg.SRC_STAT_COUNT n) = 255 → t.flag (Reg.SRC_STAT_SAT n) = true) ∧
    SMap.find t.ev.latch n = some ((SMap.find s.ev.latch n).getD ⟨unit, info, s.now⟩)

/-- Host memory holds bytes from bus address `a`. -/
def State.hostHolds (s : State) (a : Nat) (d : List Byte) : Prop := s.readHost a d.length = d

/-- Nothing but the listed register fields differs: no other register bit, and no other part of the state. -/
def State.onlyRegs (s t : State) (fs : List Fld) : Prop := { t with regs := s.regs } = s ∧ s.regsBut t fs

/-- The captured groups lie among the 64 sequencers, and a program's BG_BASE is a byte (R36, R39, R128). -/
def State.fits (s : State) : Prop :=
  ∀ b < 64, 1 ≤ (s.group b).size ∧ (s.group b).size ≤ 8 ∧ b + (s.group b).size ≤ 64 ∧ ∀ g, s.program b = some g → g.bgBase ≤ 255

/-- The group led by `b` comes to word `w` of program `g`, which issues at once: nothing stops, blocks or interrupts it, it is
legal, its first blocks and its condition source are there, and the vector queue has room (R23, R96, R97, R105, R116, R132, R136, R140, R141). -/
def State.issuable (s : State) (b : Nat) (g : Program) (w : Nat) : Prop :=
  s.inReset = false ∧ s.program b = some g ∧ g.mayIssue = true ∧ g.seqDone = 0 ∧ g.trapRequests = [] ∧
    g.trapsAgain.head?.map Prod.fst ≠ some g.micro.pc ∧ g.preempts = [] ∧ (wIssues w = true → g.queue.length + 1 < vectorQueueDepth) ∧
    g.calWant = false ∧ s.reamBlocks b = false ∧ (wReconverge w = true → g.micro.inUse ≤ 1 ∨ g.released = true) ∧
    parityFailed w = 0 ∧ wordIllegal g.header g.micro g.micro.pc w = false ∧
    (wReads w = true → s.laneReady b g.micro.pc g.micro.segment (wBlock w) = true ∧ s.headStatus b = 0) ∧
    s.condReady b g w = true ∧
    ∃ i f, s.fetchWord b g.micro.pc = some (i, f, w) ∧ f.poisoned.contains (g.micro.pc % 256 / 2) = false

/-- The slot table of a program holds several slots in use, those of the path its trap interrupted included (R133). -/
def Program.several (g : Program) (m : Micro) : Bool := decide (1 < m.inUse) || g.trap.any (fun t => decide (1 < t.saved.inUse))

/-- Where the path of a word leads that neither ends nor traps; `any` and `all`: C is true for some, for every active site
(R101, R126). -/
def nextPath (m : Micro) (w : Nat) (any all : Bool) : Option Nat :=
  match wNext w with
  | 0 => some (m.pc + 1)
  | 1 => some (wTarget w)
  | 2 => some (if any then wTarget w else m.pc + 1)
  | 3 => some (if all then wTarget w else m.pc + 1)
  | 5 => some (wTarget w + m.counter (wCounter w) % 256)
  | 6 => if all then some (m.pc + 1) else none
  | 16 => if 8 ≤ m.stack.length then none else some (wTarget w)
  | 17 => m.stack.head?
  | _ => none

/-- Word rows by class (R98). -/
def wordRows : List ((Fin 64 → BitVec 32 → Instr) × Nat) :=
  [(.ctrl, 0), (.vec, 1), (.vecEach, 2), (.vecSeq, 3), (.vecHold, 4), (.segment, 5)]

/-- Every check and every read that PROGRAM_START or PROGRAM_RESUME `c` makes before admission succeeds from `s`, which they
leave as `s1`: the image's address, the frame's, the header, the hold vectors, and what a resume takes from its frame (R118, R128, R129,
R139, R155). -/
def State.startPasses (s : State) (c : Cmd) (image frame : Nat) (h : Header) (holds : List (Nat × Nat × Nat))
    (resumed : Option (Micro × Nat)) (s1 : State) : Prop :=
  ((c.opcode = opStart ∧ resumed = none ∧ image = c.field 8 8 ∧ frame = c.field 24 8 ∧ image < 2 ^ 48 ∧ image % 4096 = 0 ∧
      s.startBad c frame [(8, 8), (16, 8), (24, 8), (32, 1), (33, 1)] = false ∧
      s.readImage c.target image = (some (h, holds), {}, s1)) ∨
    (c.opcode = opResume ∧ frame = c.field 8 8 ∧ s.startBad c frame [(8, 8), (16, 8), (32, 1), (33, 1)] = false ∧
      ∃ d s0, s.preRead { engine := 8, unit := c.target } frame 512 = (d.map some, {}, s0) ∧ d.length = 512 ∧
        s.frameBad c.target (d.map some) = false ∧ image = fieldOf d 8 6 ∧
        resumed = some (frameMicro d, fieldOf d 30 2) ∧ s0.readImage c.target image = (some (h, holds), {}, s1))) ∧
    (∀ u ∈ s1.groupUnits c.target ++ [memUnit, headboxUnit], s1.present u = true ∧ s1.ready u = true) ∧
    s1.powerFits c.target h = true ∧ s1.openMask c.target ≠ 0

/-- The micro-state that an admitted program begins with (R121, R131, R139). -/
def State.firstMicro (s : State) (b : Nat) (h : Header) (resumed : Option (Micro × Nat)) : Micro :=
  match resumed with
  | some (m, _) => { m with mask := andMask m.mask (s.openMask b), slots := dropClosed m.slots (s.openMask b) }
  | none => startMicro h (s.openMask b) ((List.range 8).map (fun p => s.fld (Reg.SITE_REG b p)))

/-- Command `c` has become the program of its group, at its first word (R121, R129, R131, R139). -/
def State.admitted (s1 t : State) (c : Cmd) (image frame : Nat) (h : Header) (resumed : Option (Micro × Nat)) : Prop :=
  ∃ g, t.program c.target = some g ∧ g.cmd = c ∧ g.image = image ∧ g.frameAddr = frame ∧ g.header = h ∧
    g.part = s1.enabledMask c.target ∧ g.micro = s1.firstMicro c.target h resumed ∧ g.begun = false ∧
    g.replays = (match resumed with | some x => x.2 | none => 0) ∧ (h.residentPages = 0 → g.ended = false)

/-- Every position that takes part in a program, has not completed and had status 0x00 now has status `st` (R16, R129). -/
def Program.stopped (g h : Program) (st : Nat) : Prop :=
  h.ended = true ∧ ∀ p < 8, bitOf g.part p = true → bitOf g.done p = false → g.status[p]? = some 0 → h.status[p]? = some st

/-- As `Program.stopped`, where a lost record may have given such a position a status that R16 puts before `st` (R16, R177). -/
def Program.stoppedBy (g h : Program) (st : Nat) : Prop :=
  h.ended = true ∧ ∀ p < 8, bitOf g.part p = true → bitOf g.done p = false → g.status[p]? = some 0 →
    ∃ x, h.status[p]? = some x ∧ first16 x st = x

/-- The units of DMA command `c` allow it: the engine it names, or some engine, and the memory unit are ready (R320, R473). -/
def State.dmaTakes (s : State) (c : Cmd) : Prop :=
  c.flags < 4 ∧ ((c.target < 8 ∧ firstFailing (s.unitChecks [dmaUnit c.target, memUnit]) = none) ∨
    (c.target = 0xFFFF ∧ s.present memUnit = true ∧ s.ready memUnit = true ∧
      ∃ i < 8, s.present (dmaUnit i) = true ∧ s.ready (dmaUnit i) = true))

/-- Engine `n` is the one that takes DMA command `c`: the one named, or one of the fewest held descriptors of those ready (R320). -/
def State.dmaChosen (s : State) (c : Cmd) (n : Nat) : Prop :=
  n < 8 ∧ (c.target = n ∨ c.target = 0xFFFF ∧ ∀ i < 8, s.ready (dmaUnit i) = true →
    (s.dmaRec n).held.length ≤ (s.dmaRec i).held.length)

/-- Message `e` at port `p` has left its input buffer (R369, R372). -/
def State.takenAt (s t : State) (p : Nat) (e : InPacket) : Prop := (t.port p).inBuf = (s.port p).inBuf.erase e

/-- Request `e` at port `p` has been taken and answered with a message of type `typ`: status, fault kind, data and poison go back to its
source under its transaction number (R374). -/
def State.replied (s t : State) (p : Nat) (e : InPacket) (typ st kind : Nat) (data : List Byte) (poison : Nat) : Prop :=
  s.takenAt t p e ∧ t.felt.inject = s.felt.inject ++
    [{ pkt := { dest := e.pkt.src, src := s.node, vc := 2 * messageClass typ, typ := typ, tid := e.pkt.tid, poison := poison,
                flits := (st + 2 ^ 8 * kind) :: flitsOf 32 data }
       here := false, outs := [] }]

/-- A START_ACK of this node for a START_ID goes to `dest`, with flags in bits 16 up (R382, R384). -/
def State.acked (s t : State) (dest id flags : Nat) : Prop :=
  ∃ x, t.felt.inject = s.felt.inject ++ [x] ∧ x.pkt.dest = dest ∧ x.pkt.src = s.node ∧ x.pkt.typ = 6 ∧
    x.pkt.flits = [id + 2 ^ 16 * flags]

/-- The program of the group led by `b` has completed with status `st` at every position, before any word of it (R383, R384). -/
def State.dropped (s t : State) (b st : Nat) : Prop :=
  t.program b = none ∧ ∀ g, s.program b = some g → g.status = List.replicate 8 0 → g.part % 256 ≠ 0 → g.cmd.epoch = s.hi.epoch →
    ∃ r, t.reported g.cmd st r

end Sys2Proof.Machine
end

