-- ==== Sys2Proof/Certificates/Slice0/Obligations.lean ====
section
/-! DEFINITION. What the provers are asked to prove, each statement a proposition about the block. -/

section

open Sys2Proof Sys2Proof.Machine

/-- A step runs the command at the front of the queue. For every command c and state s, a step of s with c at the
front of its queue is exec of c on s with the queue's rest. (00_scope.md) -/
def Obligations.StepRunsFront : Prop :=
  ∀ (c : Instr) (rest : List Instr) (s : State), step { s with pending := c :: rest } = exec c { s with pending := rest }

/-- Every well-formed command runs and leaves the rest of the queue. With a well-formed queue that is not empty, a
step answers a next state, never a fault or a refusal, whose queue is the rest of the queue. (R349, R350) -/
def Obligations.EveryCommandRuns : Prop :=
  ∀ (s : State) (c : Instr) (rest : List Instr), s.pending = c :: rest → s.queueOk →
    ∃ t, step s = .next t ∧ t.pending = rest ∧ t.queueOk

/-- The state after reset is well kept. After reset no command waits, memory lists nothing and is in canonical form,
every group is one sequencer, and no register is listed: every register reads its reset value. (R12, R474) -/
def Obligations.ResetIsWellKept : Prop :=
  State.reset.queueOk ∧ State.reset.pending = [] ∧ storeWf State.reset.memData = true ∧ State.reset.mem.cells = [] ∧
    State.reset.regsWf = true ∧ State.reset.fits ∧ ∀ a, State.reset.quad a = quadReset State.reset.fuse a

/-- Every step keeps memory in canonical form. From every state whose device memory, host memory and device
translation table are in canonical form, a step, of any command or of the idle block, gives a state in which they are
again. (R292, R303, R475) -/
def Obligations.MemoryStaysCanonical : Prop :=
  ∀ s t : State, storeWf s.memData = true → step s = .next t → storeWf t.memData = true

/-- Only resets and the test access port change the fuses in effect, the reset lines, the reference and the port.
Whatever the state and the command: a step of any command that is neither a reset nor one of the test access port, and
a step of the idle block, leave the fuses in effect, the reset lines, the reference in use, the test access port and
the count of hot resets as they were. (R342, R452, R469, R474, R492, R494, R505) -/
def Obligations.OnlyResetsTouchIdentity : Prop :=
  (∀ (i : Instr) (s t : State), i.resetsOrScans = false → exec i s = .next t → t.frozen = s.frozen) ∧
    (∀ s t : State, s.pending = [] → step s = .next t → t.frozen = s.frozen)

/-- Rows that store nothing leave every byte of memory as it was. For each of the 173 rows that Instr.mayStore does
not list, whatever the state: device memory, host memory and the device translation table hold after the row exactly
what they held before it, so every byte and every entry reads as before. (R292, R298, R303, R306, R352, R475) -/
def Obligations.MemoryUntouched : Prop :=
  ∀ (i : Instr) (s t : State), i.mayStore = false → exec i s = .next t →
    t.memData = s.memData ∧ (∀ a n, t.readHost a n = s.readHost a n) ∧ ∀ a, SMap.get 0 t.mem.cells a = SMap.get 0 s.mem.cells a

/-- A register field that is written reads what was written, and nothing else changes. For every state and every field
within its quad: after a write the field reads the value modulo its width, every register bit outside it reads as
before, and no other part of the state changes. (R8, R12) -/
def Obligations.FieldWrites : Prop :=
  ∀ (s : State) (f : Fld) (v : Nat), f.lo + f.width ≤ 64 →
    (s.setFld f v).fld f = v % 2 ^ f.width ∧ s.onlyRegs (s.setFld f v) [f]

/-- Poll rounds, doorbell reads, entry fetches, completion writes and NOP complete with their effect. While rounds are
made and none is under way, POLL_ROUND opens one over the lines of enabled queues, writes every changed status record
and counts; in I4 such a round with a line to read takes the link out of L1. A line read takes SQ_TAIL and CQ_HEAD of
an enabled queue where they are in range; a failed one sets DB_ERR and changes no queue. An entry of the queue whose
turn it is, which its target has room for and which passes the checks of the host interface, is dispatched and the
head moves on by one slot. The oldest completion, of an enabled queue with room, is written with the queue's phase to
the slot at its tail, and the tail moves on. NOP is reported complete. Says the completion of: pollRound,
doorbellLineRead, entryFetch, completionWrite, nop. (R345, R346, R347, R349, R350, R351, R352, R353) -/
def Obligations.HostQueuesMove : Prop :=
  (∀ s : State, s.inReset = false → s.flag Reg.HI_STATUS_POLLING = true → s.hi.roundLines = [] →
      ∃ t, exec .pollRound s = .next t ∧ t.hi.roundLines = s.doorbellLines ∧ t.hi.statusDue = [] ∧
        t.fld Reg.HI_POLL_ROUNDS = (s.fld Reg.HI_POLL_ROUNDS + 1) % 2 ^ 64 ∧
        (s.fld Reg.PWR_STATUS_STATE = 4 → s.doorbellLines ≠ [] → t.flag Reg.LINK_IN_L1 = false)) ∧
    (∀ (s : State) (k : Fin 64) (d : BitVec 512) (j : Fin 4), s.inReset = false → k.val ∈ s.hi.roundLines →
      ∃ t, exec (.doorbellLineRead k (.data d)) s = .next t ∧ k.val ∉ t.hi.roundLines ∧
        (s.flag (Reg.SQ_ENABLE (4 * k.val + j.val)) = true → (s.sqRec (4 * k.val + j.val)).state = 1 →
          bitsOf d.toNat (128 * j.val) 16 < s.sqSize (4 * k.val + j.val) →
          (t.sqRec (4 * k.val + j.val)).tail = bitsOf d.toNat (128 * j.val) 16) ∧
        (s.flag (Reg.CQ_ENABLE (4 * k.val + j.val)) = true →
          bitsOf d.toNat (128 * j.val + 32) 16 < s.cqSize (4 * k.val + j.val) →
          (t.cqRec (4 * k.val + j.val)).head = bitsOf d.toNat (128 * j.val + 32) 16)) ∧
    (∀ (s : State) (k : Fin 64), s.inReset = false → k.val ∈ s.hi.roundLines →
      ∃ t, exec (.doorbellLineRead k .failed) s = .next t ∧ t.flag Reg.HI_STATUS_DB_ERR = true ∧
        ∀ q, t.sqRec q = s.sqRec q ∧ t.cqRec q = s.cqRec q) ∧
    (∀ (s : State) (q : Fin 256) (d : Entry), s.inReset = false → s.hostWritable = true → s.fetchTurn = some q.val →
      s.targetFull ⟨q.val, d, s.hi.epoch⟩ = false →
      (Entry.opcode d = 0 ∨ opcodeClass (Entry.opcode d) = some (s.fld (Reg.SQ_CLASS q.val))) → Entry.field d 4 1 ≤ 3 →
      s.flag (Reg.CQ_ENABLE (Entry.field d 5 1)) = true → Entry.opcode d < 0xA4 →
      ¬ (0x83 ≤ Entry.opcode d ∧ Entry.opcode d ≤ 0x8F) → ¬ (0x9D ≤ Entry.opcode d ∧ Entry.opcode d ≤ 0x9F) →
      ∃ t, exec (.entryFetch q (.data d)) s = .next t ∧
        t.hi.dispatched = s.hi.dispatched ++ [⟨q.val, d, s.hi.epoch⟩] ∧
        (t.sqRec q.val).head = ((s.sqRec q.val).head + 1) % s.sqSize q.val ∧
        t.fld Reg.HI_FETCHED = (s.fld Reg.HI_FETCHED + 1) % 2 ^ 64) ∧
    (∀ (s : State) (e : Completion) (l : List Completion), s.inReset = false → s.hostWritable = true →
      s.flag Reg.LINK_IN_L1 = false → s.hi.buffer = e :: l → s.flag (Reg.CQ_ENABLE e.cq) = true → s.cqRoom e.cq ≠ 0 →
      ∃ t, exec .completionWrite s = .next t ∧
        t.hostHolds (4096 * s.fld (Reg.CQ_BASE e.cq) + 32 * (s.cqRec e.cq).tail) (e.bytes (s.cqRec e.cq).phase) ∧
        (t.cqRec e.cq).tail = (if (s.cqRec e.cq).tail + 1 = s.cqSize e.cq then 0 else (s.cqRec e.cq).tail + 1) ∧
        (t.cqRec e.cq).phase =
          (if (s.cqRec e.cq).tail + 1 = s.cqSize e.cq then 1 - (s.cqRec e.cq).phase else (s.cqRec e.cq).phase) ∧
        t.fld Reg.HI_COMPLETIONS = (s.fld Reg.HI_COMPLETIONS + 1) % 2 ^ 64) ∧
    (∀ (s : State) (q : BitVec 8) (e : Entry), s.serves q e → Entry.opcode e = 0 →
      ∃ t, exec (.nop q e) s = .next t ∧ t.reported (s.taken q.toNat e) 0 0 ∧ t.memData = s.memData)

/-- Link and power states, configuration space, timers, masks and hot reset complete with their effect. The link
enters L1 and leaves it, and its training shows; the function enters D3hot, which stops polling, and returns to D0
with Bus Master Enable as given, which writes what was held, or makes the link leave L1 first. Each write of
configuration space sets what it names. A moderation timer that runs ends and makes its vector pending, which is sent
where nothing holds it; an unmasked vector leaves the pending-bit array. A read that times out ends as a failed read
does. A hot reset empties the queues and the completion buffer, counts what it discards and leaves every register
outside the host interface window, but for MMU_STATUS, as it was. Says the completion of: l1Entry, l1Exit, d3hotEntry,
d0Return, pcieLinkUp, configSpaceWrite, moderationTimer, msixUnmask, completionTimeout, hotReset. (R308, R310, R311,
R315, R341, R342, R346, R351, R354, R355, R356) -/
def Obligations.HostStateChanges : Prop :=
  (∀ s : State, s.inReset = false →
      ∃ t, exec .l1Entry s = .next t ∧ t.flag Reg.LINK_IN_L1 = true ∧ s.onlyRegs t [Reg.LINK_IN_L1]) ∧
    (∀ s : State, s.inReset = false →
      ∃ t, exec .l1Exit s = .next t ∧ t.flag Reg.LINK_IN_L1 = false ∧ t.hi.l1Exit = false ∧
        (s.hostWritable = true → ∀ k < 4, (t.heq k).heldRecords = [])) ∧
    (∀ s : State, s.inReset = false →
      ∃ t, exec .d3hotEntry s = .next t ∧ t.hi.d3hot = true ∧ t.flag Reg.HI_STATUS_POLLING = false ∧
        s.regsBut t [Reg.HI_STATUS_POLLING]) ∧
    (∀ (s : State) (on : Bool), s.inReset = false →
      ∃ t, exec (.d0Return on) s = .next t ∧ t.hi.d3hot = false ∧ t.hi.busMaster = on ∧
        t.flag Reg.HI_STATUS_POLLING = (s.flag Reg.HI_CTRL_POLL_EN && on) ∧
        (on = true → if s.flag Reg.LINK_IN_L1 then t.hi.l1Exit = true else ∀ k < 4, (t.heq k).heldRecords = [])) ∧
    (∀ (s : State) (rate : LinkRate) (width : LinkWidth), s.inReset = false →
      ∃ t, exec (.pcieLinkUp rate width) s = .next t ∧
        t.fld Reg.LINK_RATE = (match rate with | .gt2 => 1 | .gt5 => 2 | .gt8 => 3 | .gt16 => 4 | .gt32 => 5) ∧
        t.fld Reg.LINK_WIDTH = (match width with | .x1 => 1 | .x2 => 2 | .x4 => 4 | .x8 => 8) ∧
        t.flag Reg.LINK_IN_L1 = false ∧ s.onlyRegs t [Reg.LINK_RATE, Reg.LINK_WIDTH, Reg.LINK_IN_L1]) ∧
    (∀ (s : State) (w : ConfigWrite), s.inReset = false →
      ∃ t, exec (.configSpaceWrite w) s = .next t ∧
        (match w with
          | .busMaster on => t.hi.busMaster = on ∧
              t.flag Reg.HI_STATUS_POLLING = (s.flag Reg.HI_CTRL_POLL_EN && !s.hi.d3hot && on)
          | .msixEnable on => t.hi.msixEnable = on ∧ t.regs = s.regs ∧ t.memData = s.memData
          | .functionMask on => t.hi.functionMask = on
          | .vectorMask v => v.val ∉ t.hi.unmasked ∧ t.regs = s.regs ∧ t.memData = s.memData
          | .vectorTable v a d => SMap.find t.hi.msixTable v.val = some (a.toNat, d.toNat) ∧ t.regs = s.regs
          | .atsEnable on => t.hi.atsEnable = on ∧ t.flag Reg.MMU_STATUS_ATS_ENABLED = on
          | .priEnable on => t.hi.priEnable = on ∧ t.flag Reg.MMU_STATUS_PRI_ENABLED = on
          | .priAllocation n => t.hi.priAllocation = n.toNat
          | .pmeEnable on => t.hi.pmeEnable = on ∧ t.regs = s.regs
          | .pmeStatusClear => t.hi.pmeStatus = false ∧ t.regs = s.regs)) ∧
    (∀ (s : State) (q : Fin 256), s.inReset = false → (s.cqRec q.val).modr.timer = true →
      ∃ t, exec (.moderationTimer (.cq q)) s = .next t ∧ (t.cqRec q.val).modr = {} ∧
        (s.hi.d3hot = false → s.hi.msixEnable = true → s.hi.busMaster = true → s.hi.functionMask = false →
          s.fld (Reg.CQ_IRQ_VECTOR q.val) ∈ s.hi.unmasked → s.flag Reg.LINK_IN_L1 = false →
          t.fld Reg.HI_MSIX_SENT = (s.fld Reg.HI_MSIX_SENT + 1) % 2 ^ 64)) ∧
    (∀ (s : State) (k : Fin 4), s.inReset = false → (s.heq k.val).modr.timer = true →
      ∃ t, exec (.moderationTimer (.heq k)) s = .next t ∧ (t.heq k.val).modr = {}) ∧
    (∀ (s : State) (v : Fin 2048), s.inReset = false → s.hi.functionMask = false →
      ∃ t, exec (.msixUnmask (some v)) s = .next t ∧ v.val ∈ t.hi.unmasked ∧ v.val ∉ t.hi.pba) ∧
    (∀ s : State, s.inReset = false → ∃ t, exec (.msixUnmask none) s = .next t ∧ t.hi.functionMask = false) ∧
    (∀ (s : State) (k : Fin 64), s.inReset = false → k.val ∈ s.hi.roundLines →
      ∃ t, exec (.completionTimeout (.doorbell k)) s = .next t ∧ t.flag Reg.HI_STATUS_DB_ERR = true) ∧
    (∀ (s : State) (q : Fin 256), s.inReset = false → s.hostWritable = true → s.fetchTurn = some q.val →
      ∃ t, exec (.completionTimeout (.entry q)) s = .next t ∧ (t.sqRec q.val).state = 2 ∧ (t.sqRec q.val).error = 2 ∧
        t.flag (Reg.SQ_ERR q.val) = true) ∧
    (∀ (s : State) (b : BitVec 58), s.inReset = false →
      ∃ t, exec (.completionTimeout (.block b)) s = .next t ∧ SMap.find t.mem.hostError b.toNat = some true ∧
        t.memData = s.memData ∧ t.regs = s.regs) ∧
    (∀ (s : State) (down : Bool), s.inReset = false →
      ∃ t, exec (.hotReset down) s = .next t ∧ t.hi.epoch = s.hi.epoch + 1 ∧ t.hi.sq = [] ∧ t.hi.cq = [] ∧
        t.hi.buffer = [] ∧ t.hi.unitHeld = [] ∧ t.hi.busMaster = false ∧ t.flag Reg.HI_STATUS_LINK_RESET = true ∧
        t.fld Reg.HI_DISCARDED = (s.fld Reg.HI_DISCARDED + (s.hi.buffer.length + s.hi.unitHeld.length)) % 2 ^ 64 ∧
        t.memData = s.memData ∧ ∀ a, hiWindow a = false → a ≠ 0x3008 → t.quad a = s.quad a)

/-- A write that the protection map forbids after boot changes nothing, and reads still return the value. After boot,
a naturally aligned REGISTER_WRITE to a window that the protection map denies leaves the whole state as it was,
whatever it writes; and a read of any quad after it returns what it returned before. (R11) -/
def Obligations.DeniedWritesAreDiscarded : Prop :=
  ∀ (s : State) (a : BitVec 20) (wide : Bool) (v : BitVec 64), s.inReset = false → s.flag Reg.SEC_STATUS_BOOTED = true →
    s.writeDenied a.toNat = true → a.toNat % (if wide then 8 else 4) = 0 →
    ∃ t, exec (.registerWrite a wide v) s = .next t ∧ t = s ∧ ∀ b, t.barRead b = s.barRead b

/-- Writes to read-only registers, reserved offsets, absent blocks and an unbooted device change nothing; an access of
a bad size raises an event. A naturally aligned REGISTER_WRITE changes nothing at all where the quad has no writable
field, is reserved, lies in the block of a unit that is absent or powered down, or where the device has not booted.
One that is not naturally aligned, and a BAD_SIZE_ACCESS, raise the register-access-error event with the offset and
change nothing else in registers or memory. Says the completion of: badSizeAccess. (R8, R9, R10, R474, R508) -/
def Obligations.AccessesThatChangeNothing : Prop :=
  (∀ (s : State) (a : BitVec 20) (wide : Bool) (v : BitVec 64), s.inReset = false →
      a.toNat % (if wide then 8 else 4) = 0 →
      (s.flag Reg.SEC_STATUS_BOOTED = false ∨ s.writeShut (a.toNat / 8 * 8) = true ∨ Reg.rowOf (a.toNat / 8 * 8) = none ∨
        (∃ r, Reg.rowOf (a.toNat / 8 * 8) = some r ∧ r.rw = 0 ∧ r.w1c = 0 ∧ r.wo = 0 ∧ s.tsWord (a.toNat / 8 * 8) = none)) →
      exec (.registerWrite a wide v) s = .next s) ∧
    (∀ (s : State) (a : BitVec 20) (wide : Bool) (v : BitVec 64), s.inReset = false →
      a.toNat % (if wide then 8 else 4) ≠ 0 →
      ∃ t, exec (.registerWrite a wide v) s = .next t ∧ s.raised t 43 0 a.toNat ∧ t.memData = s.memData ∧
        s.regsBut t [Reg.SRC_STAT_COUNT 43, Reg.SRC_STAT_SAT 43]) ∧
    (∀ (s : State) (a : BitVec 20) (size : BitVec 8), s.inReset = false → fitsBar a.toNat size.toNat = false →
      ∃ t, exec (.badSizeAccess a size) s = .next t ∧ s.raised t 43 0 a.toNat ∧ t.memData = s.memData ∧
        s.regsBut t [Reg.SRC_STAT_COUNT 43, Reg.SRC_STAT_SAT 43])

/-- A 64-bit write in a sequencer's window sets its writable fields, clears the W1C bits written 1 and changes nothing
else. For every sequencer and every register of its window but the measurement limits and the queue blocks, when the
write is let through and performs no WO action: the writable bits take the value, a W1C bit written 1 is cleared and
one written 0 stays, every other bit keeps reading as before, and no other register and no other part of the state
changes. Says the completion of: registerWrite. (R8, R9, R506) -/
def Obligations.SequencerWindowWrites : Prop :=
  ∀ (s : State) (n : Fin 64) (o : Nat) (v : BitVec 64) (r : Reg.QuadRow), o < 0x800 → o % 8 = 0 →
    (o < 0x40 ∨ (0x80 ≤ o ∧ o < 0x400) ∨ 0x600 ≤ o) → s.writable (0x50000 + 0x800 * n.val + o) →
    Reg.rowOf (0x50000 + 0x800 * n.val + o) = some r → v.toNat &&& r.wo = 0 →
    ∃ t, exec (.registerWrite (BitVec.ofNat 20 (0x50000 + 0x800 * n.val + o)) true v) s = .next t ∧
      s.onlyRegs t [⟨0x50000 + 0x800 * n.val + o, 0, 64⟩] ∧
      ∀ i, (t.quad (0x50000 + 0x800 * n.val + o)).toNat.testBit i =
        (if r.rw.testBit i && !r.w1c.testBit i then v.toNat.testBit i
          else (s.quad (0x50000 + 0x800 * n.val + o)).toNat.testBit i && !(r.w1c.testBit i && v.toNat.testBit i))

/-- A register write with a row of its own is the REGISTER_WRITE at its address. Each row that writes one register, in
whole or in part, does exactly what REGISTER_WRITE does with the same access. (R8, R80, R174, R344, R509) -/
def Obligations.RowsOfRegistersAreWrites : Prop :=
  ∀ (i : Instr) (s : State) (a v : Nat) (wide : Bool), i.barAccess = some (a, wide, v) →
    exec i s = exec (.registerWrite (BitVec.ofNat 20 a) wide (BitVec.ofNat 64 v)) s

/-- Configuration writes that fit are applied, those that do not set CFG_ERR, and a timing-set write changes the entry
selected. For CLK_PLAN_WRITE, QUEUE_CONFIG_WRITE, POP_DOMAIN_WRITE, REGION_WRITE, SQ_CONFIG_WRITE, CQ_CONFIG_WRITE,
POLL_INTERVAL_WRITE, FELT_CFG_WRITE, CP_CTRL_WRITE and HEQ_CONFIG_WRITE, in every part they may write, when the write
is let through: where the value fits, every writable bit written reads as written and the window's CFG_ERR, where it
has one, is clear; where it does not fit, the register keeps its value and CFG_ERR sets. A TIMING_SET_WRITE that is
let through changes the entry that the register and TS_SEL name, in its writable bits, and no other entry of any set
and no byte of memory. Says the completion of: clkPlanWrite, timingSetWrite, queueConfigWrite, popDomainWrite,
regionWrite, sqConfigWrite, cqConfigWrite, pollIntervalWrite, feltCfgWrite, cpCtrlWrite, heqConfigWrite. (R8, R75,
R80, R81, R174, R293, R302, R319, R344, R346, R386, R449) -/
def Obligations.ConfigurationWrites : Prop :=
  (∀ (i : Instr) (s : State) (a v : Nat) (wide : Bool) (r : Reg.QuadRow), i.barAccess = some (a, wide, v) →
      (∀ c k part x, i ≠ .timingSetWrite c k part x) → s.writable (a / 8 * 8) → s.writeDenied a = false →
      Reg.rowOf (a / 8 * 8) = some r → (wide = true → pairQuad (a / 8 * 8) = false) →
      r.rw &&& ((2 ^ (if wide then 64 else 32) - 1) * 2 ^ (a % 8 * 8)) ≠ 0 →
      v * 2 ^ (a % 8 * 8) &&& r.wo = 0 → v * 2 ^ (a % 8 * 8) &&& r.w1c = 0 →
      (s.stored r (a / 8 * 8) ((2 ^ (if wide then 64 else 32) - 1) * 2 ^ (a % 8 * 8)) (v * 2 ^ (a % 8 * 8))).2 = false →
      ∃ t, exec i s = .next t ∧
        (if s.quadRefused (a / 8 * 8)
            (s.stored r (a / 8 * 8) ((2 ^ (if wide then 64 else 32) - 1) * 2 ^ (a % 8 * 8)) (v * 2 ^ (a % 8 * 8))).1
          then t.quad (a / 8 * 8) = s.quad (a / 8 * 8) ∨ (∃ f, cfgErrOf (a / 8 * 8) = some f ∧ f.addr = a / 8 * 8)
          else ∀ j, j < (if wide then 64 else 32) → r.rw.testBit (a % 8 * 8 + j) = true →
            (t.quad (a / 8 * 8)).toNat.testBit (a % 8 * 8 + j) = v.testBit j) ∧
        (∀ f, cfgErrOf (a / 8 * 8) = some f → t.flag f = s.quadRefused (a / 8 * 8)
          (s.stored r (a / 8 * 8) ((2 ^ (if wide then 64 else 32) - 1) * 2 ^ (a % 8 * 8)) (v * 2 ^ (a % 8 * 8))).1)) ∧
    (∀ (s : State) (c : Fin 32) (k : Fin 7) (v : BitVec 64) (key : Nat) (r : Reg.QuadRow),
      s.writable (0x10000 + 0x2000 * c.val + 0x108 + 8 * k.val) →
      s.tsWord (0x10000 + 0x2000 * c.val + 0x108 + 8 * k.val) = some key →
      Reg.rowOf (0x10000 + 0x2000 * c.val + 0x108 + 8 * k.val) = some r →
      ∃ t, exec (.timingSetWrite c k .whole v) s = .next t ∧
        t.tsWritten key = mergeBits (s.tsWritten key) r.rw (2 ^ 64 - 1) v.toNat ∧
        (∀ j, j ≠ key → t.tsWritten j = s.tsWritten j) ∧ t.memData = s.memData)

/-- CLR_COUNTS clears the counters of its window, and CROSSED_CLEAR those of its queue. For the nine rows that write 1
to CLR_COUNTS, when the write is let through: every counter of the window reads zero after it, and memory is as
before. CROSSED_CLEAR, when let through, leaves CROSSED clear and COUNT zero in QSTATUS of the queue, and changes no
other register bit and nothing else. Says the completion of: hiClrCounts, dmaClrCounts, mmuClrCounts, evcClrCounts,
feltClrCounts, popClrCounts, hbClrCounts, csClrCounts, execClrCounts, crossedClear. (R8, R127, R147, R169, R179, R293,
R319, R337, R359, R386, R450) -/
def Obligations.CountersClear : Prop :=
  (∀ (i : Instr) (s : State) (a : Nat) (l : List (Nat × Nat)), i.clears = some (a, l) → s.writable (a / 8 * 8) →
      s.writeDenied a = false →
      ∃ t, exec i s = .next t ∧ t.memData = s.memData ∧ ∀ x ∈ l, ∀ k < x.2, t.quad (x.1 + 8 * k) = 0#64) ∧
    (∀ (s : State) (n : Fin 64) (q : Fin 8), s.writable (Reg.queueB n.val q.val + 0x28) →
      ∃ t, exec (.crossedClear n q) s = .next t ∧ t.flag (Reg.QSTATUS_CROSSED n.val q.val) = false ∧
        t.fld (Reg.QSTATUS_COUNT n.val q.val) = 0 ∧
        s.onlyRegs t [Reg.QSTATUS_CROSSED n.val q.val, Reg.QSTATUS_COUNT n.val q.val])

/-- SITE_ENABLE, CONTACT_CHECK, DECKLE_CLOSE and SITE_REG_LOAD complete with their effect. A served command whose
checks hold, with no program on its group. SITE_ENABLE: the enabled positions become those enabled or asked for, less
those turned off, among the positions defined, and it is reported complete; without a defined test memory is as
before. DECKLE_CLOSE: cause 3 is asserted for each open position of its mask, and byte 0 of its result names them.
CONTACT_CHECK on open positions: the check is under way on exactly those. SITE_REG_LOAD: each site register of its
mask holds its 8 bytes of the table, and it is reported with the mask. Says the completion of: siteEnable,
contactCheck, deckleClose, siteRegLoad. (R37, R38, R39, R40, R41) -/
def Obligations.SiteCommandsComplete : Prop :=
  (∀ (s : State) (q : BitVec 8) (e : Entry) (b : Nat), s.serves q e → Entry.opcode e = 0x20 → (s.taken q.toNat e).target = b →
      b < 64 → (s.taken q.toNat e).reservedSet [(8, 2)] = false → s.program b = none → s.contactRuns b = false →
      s.siteConfigBad b (Entry.field (s.taken q.toNat e).entry 8 1) (Entry.field (s.taken q.toNat e).entry 9 1) = false →
      firstFailing (s.unitChecks ((s.wantedSeqs b).map seqUnit ++ ((s.wantedSeqs b).map seqCluster).dedup ++
        ((s.wantedPositions b).flatMap (fun x => x.dps.map (fun d => d / 2))).dedup)) = none →
      ∃ t res, exec (.siteEnable q e) s = .next t ∧ t.reported (s.taken q.toNat e) 0 res ∧ (s.popTests = [] → t.memData = s.memData) ∧
        t.enabledMask b = andMask (minusMask (orMask (s.enabledMask b) (Entry.field (s.taken q.toNat e).entry 8 1))
          (Entry.field (s.taken q.toNat e).entry 9 1)) (ofBits ((s.wantedPositions b).map (fun x => x.position)))) ∧
    (∀ (s : State) (q : BitVec 8) (e : Entry) (b : Nat), s.serves q e → Entry.opcode e = 0x22 → (s.taken q.toNat e).target = b →
      (s.taken q.toNat e).reservedSet [(8, 1)] = false → s.notLeader b = false →
      firstFailing (s.unitChecks (s.groupUnits b)) = none →
      ∃ t, exec (.deckleClose q e) s = .next t ∧
        t.reported (s.taken q.toNat e) 0 (andMask (Entry.field (s.taken q.toNat e).entry 8 1) (s.openMask b)) ∧
        t.memData = s.memData ∧ t.pins = s.pins ∧
        ∀ p < 8, bitOf (Entry.field (s.taken q.toNat e).entry 8 1) p = true → bitOf (s.enabledMask b) p = true →
          bitOf (s.closedMask b) p = false → bitOf (SMap.get (0, 0) t.causes (causeKey b p)).1 3 = true) ∧
    (∀ (s : State) (q : BitVec 8) (e : Entry) (b : Nat), s.serves q e → Entry.opcode e = 0x21 → (s.taken q.toNat e).target = b →
      (s.taken q.toNat e).reservedSet [(8, 2), (16, 5), (24, 16)] = false → s.notLeader b = false →
      contactBad (s.taken q.toNat e) = false → firstFailing (s.unitChecks (s.groupUnits b)) = none → s.program b = none →
      (s.group b).contact = none → (∀ p, (s.pin p).meas = none) →
      andMask (Entry.field (s.taken q.toNat e).entry 8 1) (s.openMask b) ≠ 0 →
      ∃ t r, exec (.contactCheck q e) s = .next t ∧ (t.group b).contact = some r ∧ r.cmd = s.taken q.toNat e ∧
        r.positions = andMask (Entry.field (s.taken q.toNat e).entry 8 1) (s.openMask b) ∧ t.memData = s.memData ∧
        t.regs = s.regs) ∧
    (∀ (s : State) (q : BitVec 8) (e : Entry) (b a m : Nat) (d : List Byte) (s1 : State), s.serves q e →
      Entry.opcode e = 0x23 → (s.taken q.toNat e).target = b → m = Entry.field (s.taken q.toNat e).entry 8 1 →
      a = Entry.field (s.taken q.toNat e).entry 16 8 →
      (s.taken q.toNat e).reservedSet [(8, 1), (16, 8)] = false → s.notLeader b = false → m ≠ 0 →
      minusMask m (ofBits ((s.group b).positions.map (fun x => x.position))) = 0 → a % 8 = 0 → a < 2 ^ 48 →
      firstFailing (s.unitChecks (s.groupUnits b ++ [memUnit])) = none → s.program b = none →
      (s.undispatch (s.taken q.toNat e)).memRead { engine := 0, unit := b } a 64 = (.ok d none, s1) →
      ∃ t, exec (.siteRegLoad q e) s = .next t ∧ t.reported (s.taken q.toNat e) 0 m ∧ t.memData = s.memData ∧
        ∀ p < 8, bitOf m p = true → t.fld (Reg.SITE_REG b p) = fieldOf d (8 * p) 8 % 2 ^ 64)

/-- A Deckle closure puts the site's pins in their safe state; a contact check ends with its verdicts. DECKLE_CLOSURE
of a captured position with a cause asserted: its CLOSED bit sets, every pin of the site is disconnected and in a safe
state, and the cause waits no longer. CONTACT_CHECK_END with one conversion for every pin under test: the check is
over; a position with a cause asserted counts as not tested; CONTACT_FAIL names the other positions with a reading
outside the window, and the command is reported with the positions passed, failed and not tested. Says the completion
of: deckleClosure, contactCheckEnd. (R40, R41, R42) -/
def Obligations.ClosureAndContactEnd : Prop :=
  (∀ (s : State) (b : Fin 64) (p : Fin 8) (cut : List PartialConv) (x : SitePos) (k : Nat × Nat), s.inReset = false →
      SMap.find s.causes (causeKey b.val p.val) = some k → s.sitePos b.val p.val = some x →
      ∃ t, exec (.deckleClosure b p cut) s = .next t ∧ bitOf (t.closedMask b.val) p.val = true ∧
        ∀ n ∈ x.pins, (t.pin n).safe.isSome = true ∧ (t.pin n).connected = false) ∧
    (∀ (s : State) (b : Fin 64) (start : BitVec 64) (l : List (BitVec 18 × Bool)) (r : ContactRun), s.inReset = false →
      (s.group b.val).contact = some r → r.cmd.epoch = s.hi.epoch →
      ((s.contactPins b.val r.positions).filter (fun q => (s.pin q.1).meas.isSome)).length = l.length →
      ∃ t failed hit, exec (.contactCheckEnd b start l) s = .next t ∧ (t.group b.val).contact = none ∧
        hit = andMask r.positions (s.causePending b.val) ∧
        failed = ofBits ((((((s.contactPins b.val r.positions).filter (fun q => (s.pin q.1).meas.isSome)).zip l).filter
          (fun x => !bitOf hit x.1.2.position && (s.contactJudge r.cmd x.1.1 x.2.1).2)).map (fun x => x.1.2.position)).dedup) ∧
        t.fld (Reg.DECKLE_STATE_CONTACT_FAIL b.val) = failed % 2 ^ 8 ∧ t.memData = s.memData ∧
        t.reported r.cmd 0
          (minusMask (minusMask r.positions hit) failed + 2 ^ 8 * failed + 2 ^ 16 * orMask r.untested hit))

/-- PPMU_MEASURE starts measurements and PPMU_READING ends one; clamp monitors trip, clear and are checked. A served
PPMU_MEASURE whose checks hold, with no program under way and no pin of its mask with invalid PPMU settings: each pin
measured that was idle is connected and measures with the mode and range in force and the test number of its rank;
with no pin to measure it is reported at once, every masked pin missed. PPMU_READING of a measurement that is not a
contact check's: the pin measures no longer, and a reading for the population engine enters its queue with the value
of the summed conversions. A monitor that is enabled trips: CLAMP_TRIP and CLAMP_LIVE set; where no enabled site holds
the pin the clamp-trip event is raised and no cause is asserted, and where an enabled, open one does, cause 1 is. With
MON_EN at 0 nothing happens. CLAMP_LIVE clears and nothing else changes. A self-check shows the verdict of the
reference channel and of every pin whose sequencer runs no program. Says the completion of: ppmuMeasure, ppmuReading,
clampMonitorTrip, clampLiveClear, clampSelfCheck. (R59, R60, R64, R65, R66, R67) -/
def Obligations.PinMeasurements : Prop :=
  (∀ (s : State) (q : BitVec 8) (e : Entry) (k mask d : Nat), s.serves q e → Entry.opcode e = 0x30 →
      (s.taken q.toNat e).target = k → mask = Entry.field (s.taken q.toNat e).entry 8 4 →
      d = Entry.field (s.taken q.toNat e).entry 12 1 → (s.taken q.toNat e).reservedSet [(8, 5), (16, 10)] = false → k < 32 →
      0 < d → d < 4 → Entry.field (s.taken q.toNat e).entry 16 8 ≤ 1000000000000 → firstFailing (s.unitChecks [k]) = none →
      (∀ b, s.program b = none) → (∀ i < 32, bitOf mask i = true → s.flag (Reg.PIN_STATUS_PPMU_ERR (32 * k + i)) = false) →
      ∃ t, exec (.ppmuMeasure q e) s = .next t ∧ t.memData = s.memData ∧
        (s.measurePins k mask = [] → t.reported (s.taken q.toNat e) 0 (2 ^ 32 * mask)) ∧
        ((∀ p, (s.pin p).meas = none) → ∀ x ∈ s.measurePins k mask, (t.pin (32 * k + x.1)).connected = true ∧
          ∃ m, (t.pin (32 * k + x.1)).meas = some m ∧ m.mode = s.afld (Reg.PPMU_CTRL_MODE (32 * k + x.1)) ∧
            m.range = s.afld (Reg.PPMU_CTRL_RANGE (32 * k + x.1)) ∧
            m.test = (Entry.field (s.taken q.toNat e).entry 24 2 + x.2.2.rank (32 * k + x.1)) % 65536)) ∧
    (∀ (s : State) (p : Fin 1024) (sum : BitVec 26) (clamped : Bool) (start : BitVec 64) (m : PinMeas), s.inReset = false →
      (s.pin p.val).meas = some m → (∀ c b, m.origin ≠ .contact c b) →
      ∃ t, exec (.ppmuReading p sum clamped start) s = .next t ∧ (t.pin p.val).meas = none ∧ t.memData = s.memData ∧
        (m.toPop = true → s.ready popUnit = true → s.popInput.length < popInputDepth →
          ∃ r ∈ t.popInput, r.value = s.pinReading p.val m.mode m.range sum.toInt (2 ^ m.avgLog2) ∧ r.test = m.test ∧
            r.site = m.site ∧ r.status = 0 ∧ r.cellTime = start.toNat)) ∧
    (∀ (s : State) (p : Fin 1024), s.inReset = false → s.afld (Reg.PIN_CTRL_MON_EN p.val) ≠ 0 →
      s.blockOff (Reg.pinB p.val) = false →
      ∃ t, exec (.clampMonitorTrip p) s = .next t ∧ t.flag (Reg.PIN_STATUS_CLAMP_TRIP p.val) = true ∧
        t.flag (Reg.PIN_STATUS_CLAMP_LIVE p.val) = true ∧ t.memData = s.memData ∧
        (s.pinEnabledSite p.val = none → s.raised t 6 p.val 0 ∧ t.causes = s.causes) ∧
        (∀ b x, s.pinEnabledSite p.val = some (b, x) → bitOf (s.closedMask b) x.position = false →
          bitOf (SMap.get (0, 0) t.causes (causeKey b x.position)).1 1 = true)) ∧
    (∀ (s : State) (p : Fin 1024), s.afld (Reg.PIN_CTRL_MON_EN p.val) = 0 → exec (.clampMonitorTrip p) s = .next s) ∧
    (∀ (s : State) (p : Fin 1024), s.inReset = false →
      ∃ t, exec (.clampLiveClear p) s = .next t ∧ t.flag (Reg.PIN_STATUS_CLAMP_LIVE p.val) = false ∧
        s.onlyRegs t [Reg.PIN_STATUS_CLAMP_LIVE p.val]) ∧
    (∀ (s : State) (c : Fin 32) (passed : BitVec 33), s.inReset = false → s.blockOff (Reg.clB c.val) = false →
      ∃ t, exec (.clampSelfCheck c passed) s = .next t ∧ t.memData = s.memData ∧
        t.flag (Reg.PIN_STATUS_SC_DONE (1024 + c.val)) = true ∧
        t.flag (Reg.PIN_STATUS_SC_FAIL (1024 + c.val)) = !passed.getLsbD 32 ∧
        ∀ i < 32, s.runs (pinSeq (32 * c.val + i)) = false →
          t.flag (Reg.PIN_STATUS_SC_DONE (32 * c.val + i)) = true ∧
          t.flag (Reg.PIN_STATUS_SC_FAIL (32 * c.val + i)) = !passed.getLsbD i)

/-- Every step keeps the captured groups within the 64 sequencers. From every state whose captured groups have one to
eight members, all among the 64 sequencers, and whose programs have a BG_BASE of one byte, a step gives such a state.
(R35, R36, R39, R128) -/
def Obligations.GroupsFit : Prop :=
  ∀ s t : State, s.fits → step s = .next t → t.fits

/-- RELOCK_END and PLL_LOCK_LOSS complete with their effect. RELOCK_END while a cluster relocks: RELOCKING clears,
LOCKED sets, the cluster is ready if it was when the relock began and has since neither been reset, failed nor lost
its power, and its timing phase is aligned to cell time; no other register changes. PLL_LOCK_LOSS while it is locked:
LOCK_LOST sets, a relock starts, the cluster is not ready, and the program of each group with a sequencer of the
cluster stops issuing, with no result still to come, every open position not yet noted at 0x50. Says the completion
of: relockEnd, pllLockLoss. (R75, R76) -/
def Obligations.ClocksRelock : Prop :=
  (∀ (s : State) (c : Fin 32), s.inReset = false → s.flag (Reg.CLK_STATUS_RELOCKING c.val) = true →
      ∃ t, exec (.relockEnd c) s = .next t ∧ t.flag (Reg.CLK_STATUS_RELOCKING c.val) = false ∧
        t.flag (Reg.CLK_STATUS_LOCKED c.val) = true ∧
        t.flag (Reg.UNIT_READY c.val) = (s.ready c.val || (s.cluster c.val).wasReady && s.present c.val &&
          !s.flag (Reg.UNIT_OFF c.val) && !s.flag (Reg.UNIT_FAILED c.val) && !s.units.restarting.contains c.val) ∧
        (SMap.get {} t.clusters c.val).aligned = s.fld Reg.EPOCH * 2 ^ 64 + s.now ∧
        s.regsBut t [Reg.CLK_STATUS_RELOCKING c.val, Reg.CLK_STATUS_LOCKED c.val, Reg.UNIT_READY c.val]) ∧
    (∀ (s : State) (c : Fin 32), s.inReset = false → s.flag (Reg.CLK_STATUS_LOCKED c.val) = true →
      ∃ t, exec (.pllLockLoss c) s = .next t ∧ t.flag (Reg.CLK_STATUS_LOCK_LOST c.val) = true ∧
        t.flag (Reg.CLK_STATUS_RELOCKING c.val) = true ∧ t.flag (Reg.CLK_STATUS_LOCKED c.val) = false ∧
        t.flag (Reg.UNIT_READY c.val) = false ∧
        ∀ b ∈ s.leadersOf (clusterSeqs c.val), ∀ g, s.program b = some g → ∃ h, t.program b = some h ∧ h.ended = true ∧
          h.outstanding = [] ∧ h.pendingReadings = [] ∧ h.micro = g.micro ∧
          ∀ p < 8, bitOf g.part p = true → g.status[p]? = some 0 → h.status[p]? = some 0x50)

/-- A word of each class that can issue does, with its counters, registers, masks and next address. For each class, in
a group whose next word is of the class and can issue, whose trap enable is 0 and which ends neither the program nor
its slot: the word is the last one issued; loop counters, site registers, mask bits and flags take the values of steps
5 to 7; SEGMENT sets the current segment; the vectors issued grow by the word's; and the path goes on at the address
that the next-address operation gives, where it gives one. A VEC_SEQ of several blocks of which only the first is
there issues that one. Says the completion of: ctrl, vec, vecEach, vecSeq, vecHold, segment. (R97, R98, R99, R100,
R101, R102, R107, R108, R109, R110) -/
def Obligations.WordsIssue : Prop :=
  (∀ x ∈ wordRows, ∀ (s : State) (b : Fin 64) (holds : BitVec 32) (g : Program) (w src active c after : Nat) (m5 m7 : Micro),
      s.fits → s.issuable b.val g w → wClass w = x.2 → (x.2 = 3 → wRepeat w = 0) → wTrap w = false → wSlotOp w % 3 = 0 →
      wNext w ≠ 9 → src = s.readCond b.val g w → active = s.activeSites b.val g → m5 = g.micro.step5 w active →
      c = finalCond m5 w src → m7 = m5.step7 w c active (s.openMask b.val) (g.several m5) → after = andMask m7.mask (s.slotSites b.val g) →
      ∃ t h, exec (x.1 b holds) s = .next t ∧ t.program b.val = some h ∧ h.lastWord = some g.micro.pc ∧
        h.micro.lc = m5.lc ∧ h.micro.siteRegs = m5.siteRegs ∧
        h.micro.mask = (if h.wait = 0 then minusMask m7.mask g.failDrop else m7.mask) ∧ h.micro.flags = m7.flags ∧
        (x.2 = 5 → h.micro.segment = wAux16 w) ∧
        h.vectorsIssued = g.vectorsIssued + g.micro.repeatLeft +
          (if x.2 = 4 then wRepeat w + 1 else if wReads w then (wRepeat w + 1) * passLength (s.takeLanes b.val).1 else 0) ∧
        ∀ pc, nextPath m5 w (anyHolds w c after) (allHold w c after) = some pc →
          h.micro.pc = pc ∧ h.wait = 0) ∧
    (∀ (s : State) (b : Fin 64) (holds : BitVec 32) (g : Program) (w : Nat), s.fits → s.issuable b.val g w → wClass w = 3 →
      0 < wRepeat w → (∀ n ∈ s.members b.val, (s.seqRec n).buffer.length = 1) →
      ∃ t h, exec (.vecSeq b holds) s = .next t ∧ t.program b.val = some h ∧ h.seqDone = 1 ∧ h.micro.pc = g.micro.pc ∧
        h.lastWord = some g.micro.pc ∧
        h.vectorsIssued = g.vectorsIssued + g.micro.repeatLeft + passLength (s.takeLanes b.val).1)

/-- END, WAIT, SYNC, TRAP, an illegal word and a blocked word do as the spec says. In a group whose next word can
issue: END of the only slot outside trap mode ends the program and notes the slot's sites; a WAIT whose condition
fails somewhere waits; SYNC waits; TRAP without trap enable enters trap mode with cause 2, its frame on the way to
memory, at the trap handler. A word that breaks a legality rule enters it with cause 3. A word that is not in the
control store blocks the group, which shows a miss. (R101, R114, R115, R116, R131, R136, R141, R142) -/
def Obligations.WordsEndWaitAndTrap : Prop :=
  (∀ x ∈ wordRows, ∀ (s : State) (b : Fin 64) (holds : BitVec 32) (g : Program) (w : Nat), s.fits → s.issuable b.val g w →
      wClass w = x.2 → (x.2 = 3 → wRepeat w = 0) → wTrap w = false →
      (wNext w = 9 → g.trap = none → wSlotOp w % 3 = 0 →
        (∀ i < 8, i ≠ g.micro.runningSlot → (g.micro.slot i).state = 0) →
        ∃ t h, exec (x.1 b holds) s = .next t ∧ t.program b.val = some h ∧ h.ended = true ∧
          h.done = orMask g.done g.micro.runningSites) ∧
      (wNext w = 6 → (∀ k, 8 ≤ k → k ≤ 11 → wCond w ≠ k) → wMaskOp w = 0 →
        allHold w (finalCond g.micro w (s.readCond b.val g w)) (s.activeSites b.val g) = false →
        ∃ t h, exec (x.1 b holds) s = .next t ∧ t.program b.val = some h ∧ h.wait = 2 ∧ h.micro.pc = g.micro.pc) ∧
      (wNext w = 7 →
        ∃ t h, exec (x.1 b holds) s = .next t ∧ t.program b.val = some h ∧ h.wait = 3 ∧ h.micro.pc = g.micro.pc) ∧
      (wNext w = 8 → g.trap = none →
        ∃ t h, exec (x.1 b holds) s = .next t ∧ t.program b.val = some h ∧
          h.trap.map TrapMode.cause = some 2 ∧ h.micro.pc = g.header.trapHandler ∧
          h.frameWrites.length = g.frameWrites.length + 1)) ∧
    (∀ x ∈ wordRows, ∀ (s : State) (b : Fin 64) (holds : BitVec 32) (g : Program) (w i : Nat) (f : Frame), s.inReset = false →
      s.program b.val = some g → g.mayIssue = true → g.seqDone = 0 → g.trapRequests = [] →
      g.trapsAgain.head?.map Prod.fst ≠ some g.micro.pc → g.preempts = [] →
      g.calWant = false → s.reamBlocks b.val = false → (wReconverge w = true → g.micro.inUse ≤ 1 ∨ g.released = true) →
      parityFailed w = 0 → s.fetchWord b.val g.micro.pc = some (i, f, w) → wClass w = x.2 →
      f.poisoned.contains (g.micro.pc % 256 / 2) = false → g.trap = none →
      wordIllegal g.header g.micro g.micro.pc w = true →
      ∃ t h, exec (x.1 b holds) s = .next t ∧ t.program b.val = some h ∧ h.trap.map TrapMode.cause = some 3 ∧
        h.micro.pc = g.header.trapHandler ∧ h.frameWrites.length = g.frameWrites.length + 1) ∧
    (∀ x ∈ wordRows, ∀ (s : State) (b : Fin 64) (holds : BitVec 32) (g : Program), s.inReset = false →
      s.program b.val = some g → g.mayIssue = true → s.fetchWord b.val g.micro.pc = none →
      ∃ t h, exec (x.1 b holds) s = .next t ∧ t.program b.val = some h ∧ h.blocked = 1 ∧
        t.flag (Reg.STALL_CAUSE_MISS b.val) = true ∧ s.regsBut t [Reg.STALL_CAUSE_MISS b.val])

/-- WAIT_TIMEOUT, CONDITION_WAIT_END and SYNC_RELEASE end their waits. A waiting word without trap enable or slot
operation goes on: after its timeout at the branch target, after its condition has come true or after a SYNC's results
have returned at the next address, the mask bits of failed sites of a compatibility-mode program cleared. A word whose
source was not complete issues once it is, where neither back-pressure nor a full vector queue stops it. Says the
completion of: waitTimeout, conditionWaitEnd, syncRelease. (R97, R101, R102, R104, R105) -/
def Obligations.WaitsEnd : Prop :=
  (∀ (s : State) (b : Fin 64) (g : Program) (i w : Nat) (f : Frame), s.inReset = false → s.program b.val = some g →
      s.fetchWord b.val g.micro.pc = some (i, f, w) → g.wait = 2 → wAux16 w ≠ 0 → g.ended = false → g.dueTrap = none →
      wSlotOp w % 3 = 0 →
      ∃ t h, exec (.waitTimeout b) s = .next t ∧ t.program b.val = some h ∧ h.wait = 0 ∧ h.micro.pc = wTarget w ∧
        h.micro.lc = g.micro.lc ∧ h.micro.mask = minusMask g.micro.mask g.failDrop) ∧
    (∀ (s : State) (b : Fin 64) (holds : BitVec 32) (g : Program) (i w : Nat) (f : Frame), s.inReset = false →
      s.program b.val = some g → s.fetchWord b.val g.micro.pc = some (i, f, w) → g.wait = 2 → g.ended = false →
      g.dueTrap = none → wSlotOp w % 3 = 0 → s.condReady b.val g w = true →
      allHold w (finalCond g.micro w (s.readCond b.val g w)) (s.activeSites b.val g) = true →
      ∃ t h, exec (.conditionWaitEnd b holds) s = .next t ∧ t.program b.val = some h ∧ h.wait = 0 ∧
        h.micro.pc = g.micro.pc + 1 ∧ h.micro.lc = g.micro.lc ∧ h.micro.mask = minusMask g.micro.mask g.failDrop) ∧
    (∀ (s : State) (b : Fin 64) (holds : BitVec 32) (g : Program) (i w : Nat) (f : Frame), s.inReset = false →
      s.program b.val = some g → s.fetchWord b.val g.micro.pc = some (i, f, w) → g.wait = 1 → g.ended = false →
      s.condReady b.val g w = true → s.reamBlocks b.val = false → (wIssues w = true → g.queue.length < vectorQueueDepth) →
      ∃ t h, exec (.conditionWaitEnd b holds) s = .next t ∧ t.program b.val = some h ∧ h.lastWord = some g.micro.pc ∧
        h.begun = true ∧ h.wait ≠ 1) ∧
    (∀ (s : State) (b : Fin 64) (g : Program) (i w : Nat) (f : Frame), s.inReset = false → s.program b.val = some g →
      s.fetchWord b.val g.micro.pc = some (i, f, w) → g.wait = 3 → g.ended = false → g.dueTrap = none → wSlotOp w % 3 = 0 →
      (∀ x ∈ g.outstanding, g.syncVector ≤ x.firstVector) → (∀ x ∈ g.triggers ++ g.carried, g.syncSerial < x.serial) →
      (∀ r ∈ g.pendingReadings, g.syncSerial < r.1) →
      ∃ t h, exec (.syncRelease b) s = .next t ∧ t.program b.val = some h ∧ h.wait = 0 ∧ h.micro.pc = g.micro.pc + 1 ∧
        h.micro.lc = g.micro.lc ∧ h.micro.mask = minusMask g.micro.mask g.failDrop)

/-- Compare results return, and measurement triggers of each kind start their measurements. The next tested vector of
the last outstanding word returns: each active site with a failing enabled compare sets its sticky fail bit, and no
other bit changes. A trigger that is due leaves the list; with nothing being measured before: KIND 1 measures each
active pin of the open sites with the test number of its rank; KIND 2 arms the member TMUs whose site is active or
that have none, in state 2, or 1 for an external arm; KIND 3 arms the digitizers the group owns and marks the others
IGNORED; KIND 4 measures every gang or channel of the open sites. Says the completion of: compareResult, ppmuTrigger,
tmuTrigger, digitizerArmTrigger, dpsReadTrigger. (R64, R65, R86, R104, R106, R111, R112, R193, R234, R235, R261) -/
def Obligations.ResultsAndTriggers : Prop :=
  (∀ (s : State) (b : Fin 64) (atE3 : BitVec 256) (steady : BitVec 128) (g : Program) (w : IssuedWord)
      (idx : Nat) (l : List PinResult), s.inReset = false → s.program b.val = some g → g.outstanding = [w] →
      s.nextTested b.val w = some idx → w.clear = 0 →
      l = s.pinResults b.val w (w.place idx).1 (w.place idx).2.1 (w.place idx).2.2.2 (fun i j =>
        { code := bitsOf atE3.toNat (2 * (16 * i + j)) 2, steady := bitOf steady.toNat (16 * i + j) }) →
      ∃ t h, exec (.compareResult b atE3 steady) s = .next t ∧ t.program b.val = some h ∧
        h.micro.fail = orMask g.micro.fail (siteMap (fun p =>
          bitOf (andMask w.mask (andMask w.sites (s.openMask b.val))) p && l.any (fun r => decide (r.position = p) && r.failed))) ∧
        h.micro.pc = g.micro.pc ∧ h.micro.lc = g.micro.lc) ∧
    (∀ (s : State) (b : Fin 64) (g : Program) (tr : Trigger) (pins : List (Nat × Nat × Nat × SitePos)), s.inReset = false →
      s.dueTrigger b.val 1 = some (g, tr) → (∀ p, (s.pin p).meas = none) →
      pins = (s.groupPins b.val).filter (fun q =>
        bitOf (andMask tr.sites (s.openMask b.val)) q.2.2.2.position && s.ppmuActive q.2.2.1) →
      ∃ t h, exec (.ppmuTrigger b) s = .next t ∧ t.program b.val = some h ∧ h.triggers = g.triggers.drop 1 ∧
        h.pendingReadings = g.pendingReadings ++ List.replicate pins.length (tr.serial, tr.toPop) ∧ t.regs = s.regs ∧
        ∀ q ∈ pins, ∃ m, (t.pin q.2.2.1).meas = some m ∧ m.origin = .trigger b.val tr.serial ∧
          m.test = (tr.base + q.2.2.2.rank q.2.2.1) % 65536 ∧ m.mode = s.afld (Reg.PPMU_CTRL_MODE q.2.2.1)) ∧
    (∀ (s : State) (b : Fin 64) (g : Program) (tr : Trigger), s.inReset = false → s.fits →
      s.dueTrigger b.val 2 = some (g, tr) → (∀ n, (s.tmu n).arm = none) →
      ∃ t h, exec (.tmuTrigger b) s = .next t ∧ t.program b.val = some h ∧ h.triggers = g.triggers.drop 1 ∧
        ∀ n ∈ s.members b.val,
          (∀ x, s.tmuSite n = some x → x.1 = b.val ∧ bitOf (andMask tr.sites (s.openMask b.val)) x.2.position = true) →
          t.fld (Reg.TMU_STATUS_STATE n) = (if s.afld (Reg.TMU_CTRL_ARM_SRC n) = 0 then 2 else 1) ∧
          ∃ m, (t.tmu n).arm = some m ∧ m.origin = .trigger b.val tr.serial ∧ m.mode = s.afld (Reg.TMU_CTRL_MODE n) ∧
            m.test = (tr.base + s.afld (Reg.TMU_CTRL_TEST_OFFSET n)) % 65536) ∧
    (∀ (s : State) (b : Fin 64) (g : Program) (tr : Trigger), s.inReset = false → s.fits →
      s.dueTrigger b.val 3 = some (g, tr) → (∀ c, (s.dg c).arm = none) →
      ∃ t h, exec (.digitizerArmTrigger b) s = .next t ∧ t.program b.val = some h ∧ h.triggers = g.triggers.drop 1 ∧
        ∀ c ∈ s.groupClusters b.val,
          (s.leaderOf (s.dgOwner c) ≠ b.val → t.flag (Reg.DG_STATUS_IGNORED c) = true ∧ (t.dg c).arm = none) ∧
          (s.leaderOf (s.dgOwner c) = b.val →
            (∀ x, s.dgSite c = some x → x.1 = b.val ∧ bitOf (andMask tr.sites (s.openMask b.val)) x.2.1 = true) →
            t.fld (Reg.DG_STATUS_STATE c) = 1 ∧
              ∃ m, (t.dg c).arm = some m ∧ m.origin = .trigger b.val tr.serial ∧ m.base = tr.base)) ∧
    (∀ (s : State) (b : Fin 64) (g : Program) (tr : Trigger), s.inReset = false → s.dueTrigger b.val 4 = some (g, tr) →
      (∀ n, (s.dpsRec n).meas = none ∧ (s.dpsRec n).level2 = false) →
      ∃ t h, exec (.dpsReadTrigger b) s = .next t ∧ t.program b.val = some h ∧ h.triggers = g.triggers.drop 1 ∧
        ∀ x ∈ (s.group b.val).positions, bitOf (andMask tr.sites (s.openMask b.val)) x.position = true →
          ∀ n ∈ s.dpsUnits x, ∃ m, (t.dpsRec n).meas = some m ∧ m.origin = .trigger b.val tr.serial ∧
            m.qty = s.afld (Reg.DPS_CTRL_MEAS_QTY n))

/-- Each analog control acts on the pins, AWGs, DPS channels and clusters of its sites. The analog control that is due
leaves the list. PPMU_CONNECT and PPMU_DISCONNECT switch each pin of the open sites whose mode is not 0 and leave the
others; LEVEL_SET_0 and 1 switch the level set. AWG_START starts an idle AWG that the group owns, AWG_STOP and
AWG_JUMP reach one that runs as a request, a jump beyond the sequence shows JUMP_ERR, and an AWG of another owner
shows IGNORED. DPS_ON takes channels in states 0 and 3 to state 1, DPS_OFF those in 1 and 2 to state 3. CAL_FREEZE
freezes every cluster the group drives, CAL_THAW of the one program listed ends that freeze where nothing else
freezes. Says the completion of: ppmuConnect, ppmuDisconnect, levelSet0, levelSet1, awgStart, awgStop, awgJump, dpsOn,
dpsOff, calFreeze, calThaw. (R54, R56, R113, R214, R215, R216, R224, R257, R260, R415, R420) -/
def Obligations.AnalogControls : Prop :=
  (∀ (s : State) (b : Fin 64) (cut : List PartialConv) (on : Bool) (a sites : Nat), s.inReset = false →
      s.dueAnalog b.val (if on then 1 else 2) = some (a, sites) →
      ∃ t, exec (if on then .ppmuConnect b cut else .ppmuDisconnect b cut) s = .next t ∧
        (∀ p ∈ s.analogPins b.val sites, s.afld (Reg.PPMU_CTRL_MODE p) ≠ 0 → (t.pin p).connected = on) ∧
        ∀ p, (p ∉ s.analogPins b.val sites ∨ s.afld (Reg.PPMU_CTRL_MODE p) = 0) → t.pin p = s.pin p) ∧
    (∀ (s : State) (b : Fin 64) (k : Fin 2) (a sites : Nat), s.inReset = false →
      s.dueAnalog b.val (3 + k.val) = some (a, sites) →
      ∃ t, exec (if k.val = 0 then .levelSet0 b else .levelSet1 b) s = .next t ∧ t.regs = s.regs ∧
        (∀ p ∈ s.analogPins b.val sites, (t.pin p).levelSet = k.val) ∧ ∀ p ∉ s.analogPins b.val sites, t.pin p = s.pin p) ∧
    (∀ (s : State) (b : Fin 64) (a sites : Nat), s.inReset = false → s.fits → s.dueAnalog b.val 5 = some (a, sites) →
      ∃ t, exec (.awgStart b) s = .next t ∧ ∀ c ∈ s.groupClusters b.val,
        (s.leaderOf (s.awgOwner c) ≠ b.val → t.flag (Reg.AWG_STATUS_IGNORED c) = true ∧ t.awg c = s.awg c) ∧
        (s.leaderOf (s.awgOwner c) = b.val → s.fld (Reg.AWG_STATUS_STATE c) = 0 →
          t.fld (Reg.AWG_STATUS_STATE c) = 2 ∧ (t.awg c).start = s.now ∧ (t.awg c).program = some b.val ∧
          (t.awg c).cur.index = s.afld (Reg.AWG_SEQ_CFG_START_ENTRY c)) ∧
        (s.leaderOf (s.awgOwner c) = b.val → s.fld (Reg.AWG_STATUS_STATE c) ≠ 0 →
          t.flag (Reg.AWG_STATUS_START_OVERRUN c) = true ∧ t.awg c = s.awg c)) ∧
    (∀ (s : State) (b : Fin 64) (jump : Bool) (a sites : Nat), s.inReset = false → s.fits →
      s.dueAnalog b.val (if jump then 7 else 6) = some (a, sites) →
      ∃ t, exec (if jump then .awgJump b else .awgStop b) s = .next t ∧ ∀ c ∈ s.groupClusters b.val,
        (s.leaderOf (s.awgOwner c) ≠ b.val → t.flag (Reg.AWG_STATUS_IGNORED c) = true ∧ t.awg c = s.awg c) ∧
        (s.leaderOf (s.awgOwner c) = b.val → s.fld (Reg.AWG_STATUS_STATE c) = 2 → jump = true →
          s.afld (Reg.AWG_SEQ_CFG_SEQ_COUNT c) ≤ a → t.flag (Reg.AWG_STATUS_JUMP_ERR c) = true ∧ t.awg c = s.awg c) ∧
        (s.leaderOf (s.awgOwner c) = b.val → s.fld (Reg.AWG_STATUS_STATE c) = 2 →
          (jump = true → a < s.afld (Reg.AWG_SEQ_CFG_SEQ_COUNT c)) →
          (t.awg c).asked = (s.awg c).asked ++ [{ jump := if jump then some a else none, cmd := none, since := s.now }])) ∧
    (∀ (s : State) (b : Fin 64) (on : Bool) (a sites : Nat), s.inReset = false →
      s.dueAnalog b.val (if on then 8 else 9) = some (a, sites) →
      ∃ t, exec (if on then .dpsOn b else .dpsOff b) s = .next t ∧ ∀ x ∈ (s.group b.val).positions,
        bitOf (andMask sites (s.openMask b.val)) x.position = true → ∀ n ∈ s.dpsUnits x,
          (on = true → s.dpsState n = 0 ∨ s.dpsState n = 3 → t.dpsState n = 1) ∧
          (on = false → s.dpsState n = 1 ∨ s.dpsState n = 2 → t.dpsState n = 3)) ∧
    (∀ (s : State) (b : Fin 64) (a sites : Nat), s.inReset = false → s.fits → s.dueAnalog b.val 10 = some (a, sites) →
      ∃ t, exec (.calFreeze b) s = .next t ∧ ∀ c ∈ s.groupClusters b.val, t.flag (Reg.CAL_STATUS_FROZEN c) = true) ∧
    (∀ (s : State) (b : Fin 64) (g : Program) (a sites : Nat), s.inReset = false → s.program b.val = some g →
      s.dueAnalog b.val 11 = some (a, sites) → g.freezeHeader = false →
      (∀ x ∈ s.programs, x.1 ≠ b.val → x.2.freezeHeader = false ∧ x.2.freezeOp = false) →
      s.programs.countP (fun x => decide (x.1 = b.val)) = 1 →
      ∃ t, exec (.calThaw b) s = .next t ∧ ∀ c < 32, t.flag (Reg.CAL_STATUS_FROZEN c) = false)

/-- PROGRAM_START, PROGRAM_RESUME and PROGRAM_ADMIT admit a program whose checks hold. With no program on the group
and none before it, a start or resume whose checks and reads succeed becomes the group's program: its image, its frame
address, its enabled positions, and at its first word, or at the word its frame names; the start leaves the list of
waiting starts. Behind a program of its group it waits in that list, with EXEC_STATUS alone shown anew, and
PROGRAM_ADMIT takes it up once the group is free. Says the completion of: programStart, programResume, programAdmit.
(R117, R118, R121, R128, R129, R131, R139, R155) -/
def Obligations.ProgramsStart : Prop :=
  (∀ (s s1 : State) (q : BitVec 8) (e : Entry) (resume : Bool) (image frame : Nat) (h : Header) (holds : List (Nat × Nat × Nat))
      (resumed : Option (Micro × Nat)), s.serves q e → Entry.opcode e = (if resume then 0x12 else 0x10) → s.held = [] →
      s.program (s.taken q.toNat e).target = none → (∀ x ∈ s.starts, x.target ≠ (s.taken q.toNat e).target) →
      (s.undispatch (s.taken q.toNat e)).startPasses (s.taken q.toNat e) image frame h holds resumed s1 →
      ((s1.firstMicro (s.taken q.toNat e).target h resumed).slot
        (s1.firstMicro (s.taken q.toNat e).target h resumed).runningSlot).state ≠ 0 →
      ∃ t, exec (if resume then .programResume q e else .programStart q e) s = .next t ∧
        s1.admitted t (s.taken q.toNat e) image frame h resumed) ∧
    (∀ (s : State) (q : BitVec 8) (e : Entry) (resume : Bool), s.serves q e →
      Entry.opcode e = (if resume then 0x12 else 0x10) → s.held = [] → s.program (s.taken q.toNat e).target ≠ none →
      ∃ t, exec (if resume then .programResume q e else .programStart q e) s = .next t ∧ s.taken q.toNat e ∈ t.starts ∧
        t.programs = s.programs ∧ t.mem = s.mem ∧
        s.regsBut t [Reg.EXEC_STATUS_STATE (s.taken q.toNat e).target, Reg.EXEC_STATUS_SLOTS (s.taken q.toNat e).target,
          Reg.EXEC_STATUS_RUNNING_SLOT (s.taken q.toNat e).target, Reg.EXEC_STATUS_PRIVATE (s.taken q.toNat e).target]) ∧
    (∀ (s s1 : State) (b : Fin 64) (c : Cmd) (image frame : Nat) (h : Header) (holds : List (Nat × Nat × Nat))
      (resumed : Option (Micro × Nat)), s.inReset = false → s.held = [] → s.program b.val = none →
      s.starts.find? (fun x => decide (x.target = b.val)) = some c →
      s.startPasses c image frame h holds resumed s1 →
      ((s1.firstMicro b.val h resumed).slot (s1.firstMicro b.val h resumed).runningSlot).state ≠ 0 →
      ∃ t, exec (.programAdmit b) s = .next t ∧ s1.admitted t c image frame h resumed ∧ t.starts = s1.starts.erase c)

/-- Pre-emption and trap requests, their frames and their time limits. PROGRAM_PREEMPT and TRAP_REQUEST whose checks
hold: with no program running they are reported at once with a zero result; else the pre-emption joins the requests of
the group, and a trap request joins those that wait for the next word, but in a condition wait or a WAIT, outside trap
mode, enters trap mode at once, with cause 6 at the trap handler, its frame on the way. A pre-emption whose time limit
expires before a stall-safe word is reached is reported 0x60. The pre-emption frame that reaches memory stops the
program with 0x30, or a status that R16 puts before it, and reports its first request with byte 4 at 1; a trap frame
that does leaves the list, and its request is reported with byte 0 at 1. Says the completion of: programPreempt,
trapRequest, preemptTimeLimit, preemptFrameWrite, trapFrameWrite. (R128, R138, R139, R141, R142, R143, R144, R145,
R146) -/
def Obligations.PreemptionAndTraps : Prop :=
  (∀ (s : State) (q : BitVec 8) (e : Entry) (trap : Bool), s.serves q e → Entry.opcode e = (if trap then 0x13 else 0x11) →
      (s.taken q.toNat e).reservedSet (if trap then [] else [(16, 8)]) = false → s.notLeader (s.taken q.toNat e).target = false →
      firstFailing (s.unitChecks (s.groupUnits (s.taken q.toNat e).target)) = none →
      (s.running (s.taken q.toNat e).target = none →
        ∃ t, exec (if trap then .trapRequest q e else .programPreempt q e) s = .next t ∧
          t.reported (s.taken q.toNat e) 0 0 ∧ t.programs = s.programs) ∧
      (∀ g, s.running (s.taken q.toNat e).target = some g → trap = false →
        ∃ t h, exec (.programPreempt q e) s = .next t ∧ t.program (s.taken q.toNat e).target = some h ∧
          h = { g with preempts := g.preempts ++ [s.taken q.toNat e] } ∧ t.regs = s.regs) ∧
      (∀ g, s.running (s.taken q.toNat e).target = some g → trap = true → ¬ ((g.wait = 1 ∨ g.wait = 2) ∧ g.stall ≠ 3) →
        ∃ t h, exec (.trapRequest q e) s = .next t ∧ t.program (s.taken q.toNat e).target = some h ∧
          h = { g with trapRequests := g.trapRequests ++ [s.taken q.toNat e] } ∧ t.regs = s.regs) ∧
      (∀ g, s.running (s.taken q.toNat e).target = some g → trap = true → (g.wait = 1 ∨ g.wait = 2) → g.stall ≠ 3 →
        g.trap = none →
        ∃ t h, exec (.trapRequest q e) s = .next t ∧ t.program (s.taken q.toNat e).target = some h ∧
          h.trap.map TrapMode.cause = some 6 ∧ h.trap.map (fun x => x.saved.pc) = some g.micro.pc ∧
          h.micro.pc = g.header.trapHandler ∧
          (h.frameWrites.getLast?.bind FrameWrite.request) = some (s.taken q.toNat e))) ∧
    (∀ (s : State) (b : Fin 64) (k : Nat) (g : Program) (c : Cmd), s.inReset = false → s.program b.val = some g →
      g.preempts[k]? = some c → c.preemptLimit ≠ 0 → g.stall ≠ 3 → g.blocked ≠ 4 → c.epoch = s.hi.epoch →
      ∃ t, exec (.preemptTimeLimit b k) s = .next t ∧ t.reported c 0x60 0 ∧
        t.program b.val = some { g with preempts := g.preempts.eraseIdx k }) ∧
    (∀ (s s1 : State) (b : Fin 64) (g : Program) (d : List Byte) (x : Option Nat), s.inReset = false →
      s.program b.val = some g → g.stall = 3 → g.ended = false →
      s.memWrite { engine := 8, unit := b.val } g.frameAddr (s.preemptFrame b.val g) false = (.ok d x, s1) →
      s1.programs = s.programs →
      ∃ t h, exec (.preemptFrameWrite b) s = .next t ∧ t.program b.val = some h ∧ g.stoppedBy h 0x30 ∧ h.preempts = [] ∧
        ∀ c l, g.preempts = c :: l → c.epoch = s.hi.epoch → t.reported c 0 (g.micro.pc + 2 ^ 32)) ∧
    (∀ (s s1 : State) (b : Fin 64) (g : Program) (f : FrameWrite) (l : List FrameWrite) (d : List Byte) (x : Option Nat),
      s.inReset = false → s.program b.val = some g → g.frameWrites = f :: l →
      s.memWrite { engine := 8, unit := b.val } g.frameAddr f.frame false = (.ok d x, s1) → s1.programs = s.programs →
      ∃ t, exec (.trapFrameWrite b) s = .next t ∧ t.program b.val = some { g with frameWrites := l } ∧
        ∀ c, f.request = some c → c.epoch = s.hi.epoch → t.reported c 0 1)

/-- Programs end, reach their time limit, stall unsafely and wait safely. PROGRAM_END of a program whose every vector,
record, reading and frame is through: it is reported with the statuses of its positions and is gone, and the group's
sequencers run no more. PROGRAM_TIME_LIMIT of one that has begun: it stops with 0x60, or a status that R16 puts before
it. With the queue of a blocked group empty: at a word that is not stall-safe the program stops with 0x31, or replays
from its snapshot while its header and its count of replays allow, or stops with 0x32; at a stall-safe word it waits,
and SAFE_WAITS counts; at a word whose page is not there it waits in state 8 until the fill. Says the completion of:
programEnd, programTimeLimit, unsafeStall, safeWait. (R16, R20, R72, R129, R130, R137, R138) -/
def Obligations.ProgramsEnd : Prop :=
  (∀ (s : State) (b : Fin 64) (g : Program), s.inReset = false → (s.settleResults b.val).program b.val = some g →
      (s.settleResults b.val).programDone b.val g = true →
      ∃ t, exec (.programEnd b) s = .next t ∧ t.program b.val = none ∧
        (g.cmd.epoch = s.hi.epoch →
          t.reported g.cmd (startStatus g.status g.part) (startResult g.status g.part g.replays g.traps)) ∧
        ∀ x, x ≠ b.val → (t.program x).isSome = (s.program x).isSome) ∧
    (∀ (s : State) (b : Fin 64) (g : Program), s.inReset = false → s.program b.val = some g → g.timeLimit ≠ 0 →
      g.begun = true → g.ended = false → g.stall ≠ 3 →
      ∃ t h, exec (.programTimeLimit b) s = .next t ∧ t.program b.val = some h ∧ g.stoppedBy h 0x60 ∧ h.micro.pc = g.micro.pc) ∧
    (∀ (s : State) (b : Fin 64) (g : Program) (i w : Nat) (f : Frame), s.inReset = false → s.program b.val = some g →
      s.queueEmpty b.val g = true → s.fetchWord b.val g.micro.pc = some (i, f, w) → wStallSafe w = false → g.stall = 0 →
      (g.header.replayable = false ∨ g.snapshot = none →
        ∃ t h, exec (.unsafeStall b) s = .next t ∧ t.program b.val = some h ∧ g.stopped h 0x31) ∧
      (∀ m x, g.header.replayable = true → g.snapshot = some (m, x) → g.replays < g.header.replayLimit →
        andMask (m.slot m.runningSlot).sites (s.openMask b.val) ≠ 0 → (m.slot m.runningSlot).state ≠ 0 →
        ∃ t h, exec (.unsafeStall b) s = .next t ∧ t.program b.val = some h ∧ h.replays = g.replays + 1 ∧
          h.micro.pc = m.pc ∧ h.micro.lc = m.lc ∧ h.trap = x ∧ h.ended = false) ∧
      (g.header.replayable = true → g.snapshot ≠ none → g.header.replayLimit ≤ g.replays →
        ∃ t h, exec (.unsafeStall b) s = .next t ∧ t.program b.val = some h ∧ g.stopped h 0x32)) ∧
    (∀ (s : State) (b : Fin 64) (g : Program) (i w : Nat) (f : Frame), s.inReset = false → s.program b.val = some g →
      s.queueEmpty b.val g = true → s.fetchWord b.val g.micro.pc = some (i, f, w) → wStallSafe w = true → g.stall = 0 →
      ∃ t h, exec (.safeWait b) s = .next t ∧ t.program b.val = some h ∧ h.micro = g.micro ∧
        h.stall = (if g.blocked = 4 ∧ g.preempts ≠ [] then 3 else 1) ∧
        t.fld (Reg.SAFE_WAITS b.val) = (s.fld (Reg.SAFE_WAITS b.val) + 1) % 2 ^ (Reg.SAFE_WAITS b.val).width) ∧
    (∀ (s : State) (b : Fin 64) (g : Program), s.inReset = false → s.program b.val = some g → s.queueEmpty b.val g = true →
      s.fetchWord b.val g.micro.pc = none → g.stall = 0 →
      ∃ t h, exec (.safeWait b) s = .next t ∧ t.program b.val = some h ∧ h.stall = 2 ∧ h.micro = g.micro)

/-- Pages and vector blocks that are read enter the control store and the stream buffers. CS_DEMAND_FILL of a page
that is wanted, not held, and can be read: the control store of every member holds its words in the same frame.
CS_SPEC_FILL of a page the prefetcher asks for does so where a frame is free or holds a fill never executed.
STREAM_BLOCK_ARRIVAL of a sequencer with room for another block: a private one holds the block read, as its latest;
one on a broadcast ring takes the ring's entry at its position where its path has no other block there. Says the
completion of: csDemandFill, csSpecFill, streamBlockArrival. (R120, R121, R122, R123, R156, R157, R158, R160, R163,
R164, R165, R169) -/
def Obligations.FillsAndStreams : Prop :=
  (∀ (s s1 : State) (b : Fin 64) (g : Program) (ws l : List Nat) (i : Nat), s.inReset = false → s.fits →
      s.program b.val = some g → g.ended = false → g.fillsDue = [] → g.wait = 0 → g.stall ≠ 2 →
      findFrame (s.seqRec b.val).frames (g.micro.pc / 256) = none →
      s.readPage b.val g.image g.header.codeOffset (g.micro.pc / 256) false = (.page ws l, s1) →
      s1.programs = s.programs → s1.demandFrame b.val (g.lastWord.map (fun pc => pc / 256)) = some i →
      ∃ t, exec (.csDemandFill b) s = .next t ∧ ∀ n ∈ s.members b.val, ∃ f, SMap.find (t.seqRec n).frames i = some f ∧
        f.page = g.micro.pc / 256 ∧ f.words = ws ∧ f.poisoned = l ∧ f.pinned = false) ∧
    (∀ (s s1 : State) (b : Fin 64) (g : Program) (pg : BitVec 16) (ws l : List Nat) (i : Nat), s.inReset = false → s.fits →
      s.program b.val = some g → g.begun = true → g.ended = false → s.flag (Reg.CS_CTRL_PREFETCH_EN b.val) = true →
      pg.toNat ∈ s.prefetchPages b.val g → findFrame (s.seqRec b.val).frames pg.toNat = none →
      s.specFrame b.val = some i → s.readPage b.val g.image g.header.codeOffset pg.toNat true = (.page ws l, s1) →
      ∃ t, exec (.csSpecFill b pg) s = .next t ∧ ∀ n ∈ s1.members b.val, ∃ f, SMap.find (t.seqRec n).frames i = some f ∧
        f.page = pg.toNat ∧ f.words = ws ∧ f.spec = true ∧ f.executed = false) ∧
    (∀ (s u u1 : State) (n : Fin 64) (g : Program) (x : Block) (i : PathItem), s.inReset = false →
      u = (s.applyDue (s.leaderOf n.val)).alignStreams (s.leaderOf n.val) → u.program (s.leaderOf n.val) = some g → g.ended = false →
      u.fld (Reg.STREAM_MODE n.val) = 2 → (u.path (s.leaderOf n.val) g 8)[(u.seqRec n.val).buffer.length]? = some i →
      (u.seqRec n.val).buffer.length + g.taken.length < 8 → (i.spec = true → u.flag Reg.HB_CTRL_SPEC_EN = true) →
      u.readBlock g.header n.val (u.group (s.leaderOf n.val)).size (n.val - s.leaderOf n.val) i.segment i.ref i.consumer i.spec =
        (.block x, u1) →
      ∃ t, exec (.streamBlockArrival n) s = .next t ∧ (t.seqRec n.val).buffer = (u1.seqRec n.val).buffer ++ [x]) ∧
    (∀ (s u : State) (n : Fin 64) (g : Program) (r : Nat) (x : Block) (i : PathItem), s.inReset = false →
      u = (s.applyDue (s.leaderOf n.val)).alignStreams (s.leaderOf n.val) → u.program (s.leaderOf n.val) = some g → g.ended = false →
      (u.path (s.leaderOf n.val) g ((u.seqRec n.val).buffer.length + 1))[(u.seqRec n.val).buffer.length]? = some i →
      (i.spec = true ∨ x.serves i = true) →
      u.ringOf n.val = some r → (u.seqRec n.val).buffer.length + g.taken.length < 8 → (u.ring r).first ≤ (u.seqRec n.val).ringNext →
      (u.ring r).entries[(u.seqRec n.val).ringNext - (u.ring r).first]? = some x →
      ∃ t, exec (.streamBlockArrival n) s = .next t ∧ (t.seqRec n.val).buffer = (u.seqRec n.val).buffer ++ [x] ∧
        (t.seqRec n.val).ringNext = (u.seqRec n.val).ringNext + 1)

/-- A record is committed or discarded; queues are marked, rewound, released and reset. RECORD_COMMIT in P0 with a
record at the head of the elastic buffer whose queue has room up to its end of ring: where its writes succeed, COMMIT
moves by its length, RECORDS counts it, and it leaves the buffer; with FAULT set it is discarded and counted (no
record waiting for room). REAM_MARK puts the mark at READ; REAM_REWIND puts READ at a valid mark; REAM_RELEASE moves
READ to a position up to COMMIT; REAM_RESET, with no program on the sequencer, empties the queue and discards its
buffered records. Each command is reported with the position it names. Says the completion of: recordCommit, reamMark,
reamRewind, reamRelease, reamReset. (R171, R174, R175, R177, R178, R180, R181) -/
def Obligations.ReamQueues : Prop :=
  (∀ (s s1 : State) (n : Fin 64) (r : Rec) (l : List Rec), s.inReset = false → (s.seqRec n.val).zeroDue = [] →
      s.fld Reg.PWR_STATUS_STATE = 0 → (s.seqRec n.val).losses = [] → (s.seqRec n.val).deckles = [] → (s.seqRec n.val).elastic = r :: l → (∀ x ∈ l, x.serial ≠ r.serial) → r.queue < 8 →
      s.flag (Reg.QSTATUS_FAULT n.val r.queue) = false → s.afld (Reg.QCFG_ENABLE n.val r.queue) ≠ 0 → s.hasRoom n.val r = true →
      s.padFor n.val r.queue r.length = 0 →
      s.commitRecord n.val r (s.fld (Reg.Q_COMMIT n.val r.queue)) = (.done, s1) →
      ∃ t, exec (.recordCommit n) s = .next t ∧ t.memData = s1.memData ∧
        t.fld (Reg.Q_COMMIT n.val r.queue) = (s.fld (Reg.Q_COMMIT n.val r.queue) + r.length) % 2 ^ 64 ∧
        t.fld (Reg.Q_RECORDS n.val r.queue) = (s.fld (Reg.Q_RECORDS n.val r.queue) + 1) % 2 ^ 64 ∧
        (t.seqRec n.val).elastic = l) ∧
    (∀ (s : State) (n : Fin 64) (r : Rec) (l : List Rec), s.inReset = false → (s.seqRec n.val).zeroDue = [] →
      s.fld Reg.PWR_STATUS_STATE = 0 → (s.seqRec n.val).losses = [] → (s.seqRec n.val).deckles = [] → (s.seqRec n.val).elastic = r :: l → (∀ x ∈ l, x.serial ≠ r.serial) → r.queue < 8 →
      s.flag (Reg.QSTATUS_FAULT n.val r.queue) = true →
      ∃ t, exec (.recordCommit n) s = .next t ∧ t.memData = s.memData ∧ (t.seqRec n.val).elastic = l ∧
        t.fld (Reg.SEQ_DISCARDED n.val) = (s.fld (Reg.SEQ_DISCARDED n.val) + 1) % 2 ^ 64 ∧
        t.fld (Reg.Q_COMMIT n.val r.queue) = s.fld (Reg.Q_COMMIT n.val r.queue)) ∧
    (∀ (s : State) (q : BitVec 8) (e : Entry) (n k : Nat), s.serves q e → n = (s.taken q.toNat e).target → n < 64 →
      k = Entry.field (s.taken q.toNat e).entry 8 1 → k < 8 → firstFailing (s.unitChecks [seqUnit n, n / 2]) = none →
      (Entry.opcode e = 0x40 → (s.taken q.toNat e).reservedSet [(8, 1)] = false →
        ∃ t, exec (.reamMark q e) s = .next t ∧ t.reported (s.taken q.toNat e) 0 (s.fld (Reg.Q_READ n k)) ∧
          t.fld (Reg.Q_MARK n k) = s.fld (Reg.Q_READ n k) ∧ t.flag (Reg.QSTATUS_MARK_VALID n k) = true ∧
          t.memData = s.memData) ∧
      (Entry.opcode e = 0x41 → (s.taken q.toNat e).reservedSet [(8, 1)] = false → s.dmaReads (.ream n k) = false →
        ∃ t, exec (.reamRewind q e) s = .next t ∧
          (s.flag (Reg.QSTATUS_MARK_VALID n k) = true → t.fld (Reg.Q_READ n k) = s.fld (Reg.Q_MARK n k) ∧
            t.reported (s.taken q.toNat e) 0 (s.fld (Reg.Q_MARK n k))) ∧
          (s.flag (Reg.QSTATUS_MARK_VALID n k) = false → t.fld (Reg.Q_READ n k) = s.fld (Reg.Q_READ n k) ∧
            t.reported (s.taken q.toNat e) 0
              (s.fld (Reg.Q_READ n k) + 2 ^ 64 * (if (s.seqRec n).overtaken.contains k then 1 else 2)))) ∧
      (∀ p, Entry.opcode e = 0x42 → (s.taken q.toNat e).reservedSet [(8, 1), (16, 8)] = false →
        p = Entry.field (s.taken q.toNat e).entry 16 8 → p % 16 = 0 → s.fld (Reg.Q_READ n k) ≤ p → p ≤ s.fld (Reg.Q_COMMIT n k) →
        ∃ t, exec (.reamRelease q e) s = .next t ∧ t.reported (s.taken q.toNat e) 0 p ∧ t.fld (Reg.Q_READ n k) = p ∧
          t.memData = s.memData) ∧
      (Entry.opcode e = 0x43 → (s.taken q.toNat e).reservedSet [(8, 1)] = false → s.dmaReads (.ream n k) = false → s.runs n = false →
        (s.seqRec n).losses = [] → (s.seqRec n).deckles = [] →
        ∃ t, exec (.reamReset q e) s = .next t ∧ t.reported (s.taken q.toNat e) 0 0 ∧ t.fld (Reg.Q_COMMIT n k) = 0 ∧
          t.fld (Reg.Q_READ n k) = 0 ∧ t.fld (Reg.Q_MARK n k) = 0 ∧ t.flag (Reg.QSTATUS_MARK_VALID n k) = false ∧
          (t.seqRec n).elastic = (s.seqRec n).elastic.filter (fun r => decide (r.queue ≠ k))))

/-- A TMU is armed, calibrates, counts edges, ends and gives its result. TMU_ARM whose checks hold, with no program
and no measurement on the TMU: it is armed with the settings in force, in state 2, or 1 for an external arm. A
calibration within its span gives K1, K2 and state 3; outside it CAL_ERR, event 17 and the end with 0x50. A settled
input counts an edge of its SLOPE while the gate is open, outside its hold-off. A gate that closes and a time limit
end the measurement. The result of an ended measurement of modes 0 to 4: the TMU is idle, LAST_VALUE shows it,
MEASUREMENTS counts it, and a TMU_ARM is reported with it. An input seen outside its band is settled. Says the
completion of: tmuArm, tmuCalibrated, tmuEdge, tmuGateClose, tmuTimeout, tmuResult, tmuInputSettled. (R189, R190,
R192, R193, R194, R195, R196, R197, R200, R201, R202) -/
def Obligations.TmuMeasures : Prop :=
  (∀ (s : State) (q : BitVec 8) (e : Entry) (n d : Nat), s.serves q e → Entry.opcode e = 0x31 →
      n = (s.taken q.toNat e).target → n < 64 → d = Entry.field (s.taken q.toNat e).entry 8 1 → 0 < d → d < 4 →
      (s.taken q.toNat e).reservedSet [(8, 1), (24, 2)] = false → s.flag (Reg.TMU_STATUS_CFG_ERR n) = false →
      ¬ (s.afld (Reg.TMU_CTRL_GATE n) = 0 ∧ s.afld (Reg.TMU_TIMEOUT n) = 0) → firstFailing (s.unitChecks [n / 2]) = none →
      s.runs n = false → (s.tmu n).arm = none →
      ∃ t m, exec (.tmuArm q e) s = .next t ∧ (t.tmu n).arm = some m ∧ m.origin = .measure (s.taken q.toNat e) ∧
        m.mode = s.afld (Reg.TMU_CTRL_MODE n) ∧ m.toPop = bitOf d 0 ∧ m.toRecord = bitOf d 1 ∧
        m.test = (Entry.field (s.taken q.toNat e).entry 24 2 + s.afld (Reg.TMU_CTRL_TEST_OFFSET n)) % 65536 ∧
        t.fld (Reg.TMU_STATUS_STATE n) = (if s.afld (Reg.TMU_CTRL_ARM_SRC n) = 0 then 2 else 1) ∧
        s.regsBut t [Reg.TMU_STATUS_STATE n]) ∧
    (∀ (s : State) (n : Fin 64) (k1 k2 : BitVec 16) (startIn stopIn : Bool) (m : TmuArm), s.inReset = false →
      (s.tmu n.val).arm = some m → s.fld (Reg.TMU_STATUS_STATE n.val) = 2 → (s.tmu n.val).ended = false →
      ∃ t, exec (.tmuCalibrated n k1 k2 startIn stopIn) s = .next t ∧
        t.flag (Reg.TMU_STATUS_START_UNSETTLED n.val) = s.tmuBand n.val 0 startIn ∧
        t.flag (Reg.TMU_STATUS_STOP_UNSETTLED n.val) = s.tmuBand n.val 1 stopIn ∧
        (within 32000 51200 ((k2.toNat : Int) - (k1.toNat : Int)) = true →
          t.fld (Reg.TMU_CAL_K1 n.val) = k1.toNat ∧ t.fld (Reg.TMU_CAL_K2 n.val) = k2.toNat ∧
          t.fld (Reg.TMU_STATUS_STATE n.val) = 3 ∧
          t.tmu n.val = s.tmu n.val) ∧
        (within 32000 51200 ((k2.toNat : Int) - (k1.toNat : Int)) = false →
          t.flag (Reg.TMU_STATUS_CAL_ERR n.val) = true ∧ s.raised t 17 n.val 0 ∧ (t.tmu n.val).ended = true ∧
          (t.tmu n.val).forced = 0x50)) ∧
    (∀ (s : State) (n : Fin 64) (stop falling : Bool) (ref : BitVec 40) (code : BitVec 12) (time : BitVec 64) (m : TmuArm)
      (i other : TmuInput), s.inReset = false → (s.tmu n.val).arm = some m →
      i = (if stop then m.stopIn else m.startIn) → other = (if stop then m.startIn else m.stopIn) → i.src ≠ 0x22 →
      (i.src = 0x21 → falling = false ∧ s.tmuMarker n.val time.toNat = true) → other.src ≠ 0x22 →
      s.fld (Reg.TMU_STATUS_STATE n.val) = 3 →
      (s.tmu n.val).gateOpen = true → (s.tmu n.val).ended = false →
      s.flag (if stop then Reg.TMU_STATUS_STOP_UNSETTLED n.val else Reg.TMU_STATUS_START_UNSETTLED n.val) = false →
      (i.heldOff (if stop then (s.tmu n.val).stopSeen else (s.tmu n.val).startSeen) time.toNat = true →
        ∃ t, exec (.tmuEdge n stop falling ref code time) s = .next t ∧ t.regs = s.regs ∧ t.tmus = s.tmus) ∧
      (i.heldOff (if stop then (s.tmu n.val).stopSeen else (s.tmu n.val).startSeen) time.toNat = false → i.slope ≠ 3 →
       (i.slope = 2 ∨ i.slope = b2n falling) →
      ∃ t, exec (.tmuEdge n stop falling ref code time) s = .next t ∧ t.regs = s.regs ∧ t.memData = s.memData ∧
        (t.tmu n.val).starts = (s.tmu n.val).starts + (if stop then 0 else 1) ∧
        (t.tmu n.val).stops = (s.tmu n.val).stops + (if stop then 1 else 0) ∧
        (stop = false → (t.tmu n.val).last = some { n := ref.toNat, code := code.toNat, time := time.toNat } ∧
          (t.tmu n.val).first.isSome = true) ∧
        (stop = true → m.mode = 0 → (t.tmu n.val).ended = true ∧ (t.tmu n.val).early = (s.tmu n.val).first.isNone))) ∧
    (∀ (s : State) (n : Fin 64) (m : TmuArm), s.inReset = false → (s.tmu n.val).arm = some m →
      (m.gate ≠ 0 → (s.tmu n.val).gateOpen = true →
        ∃ t, exec (.tmuGateClose n) s = .next t ∧ (t.tmu n.val).ended = true ∧ (t.tmu n.val).gateOpen = false ∧ t.regs = s.regs) ∧
      (m.timeout ≠ 0 ∨ s.fld (Reg.TMU_STATUS_STATE n.val) = 3 →
        ∃ t, exec (.tmuTimeout n) s = .next t ∧ (t.tmu n.val).ended = true ∧ t.regs = s.regs)) ∧
    (∀ (s u : State) (n : Fin 64) (m : TmuArm) (v : TmuValue), s.inReset = false → (s.tmu n.val).arm = some m → m.mode ≠ 5 →
      (s.tmu n.val).ended = true → s.tmuCompute n.val m = (v, u) →
      ∃ t, exec (.tmuResult n) s = .next t ∧ (t.tmu n.val).arm = none ∧ t.fld (Reg.TMU_STATUS_STATE n.val) = 0 ∧
        t.fld (Reg.TMU_MEASUREMENTS n.val) = (s.fld (Reg.TMU_MEASUREMENTS n.val) + 1) % 2 ^ 64 ∧
        t.fld (Reg.TMU_LAST_VALUE n.val) = ofSigned 64 v.fine ∧
        ∀ c, m.origin = .measure c → c.epoch = s.hi.epoch →
          t.reported c v.status (ofSigned 64 v.fine + 2 ^ 64 * (s.tmu n.val).events +
            2 ^ 96 * v.bits (decide (v.status = 0x60) && s.tmuUnsettled n.val m))) ∧
    (∀ (s : State) (n : Fin 64) (stop : Bool), s.inReset = false →
      ∃ t, exec (.tmuInputSettled n stop) s = .next t ∧
        t.flag (if stop then Reg.TMU_STATUS_STOP_UNSETTLED n.val else Reg.TMU_STATUS_START_UNSETTLED n.val) = false ∧
        s.onlyRegs t [if stop then Reg.TMU_STATUS_STOP_UNSETTLED n.val else Reg.TMU_STATUS_START_UNSETTLED n.val])

/-- AWG_RUN starts, stops and jumps; a timed start arrives; a request is registered. AWG_RUN whose checks hold, with
no program on the owner's group. ACTION 0 on an idle AWG: with its cell time passed it runs from now and is reported
with its start entry; with it ahead it waits in state 1, and AWG_TIMED_START runs it from that time; on one that is
not idle START_OVERRUN sets and 0x01 is reported. ACTION 1 and 2 on a running AWG are registered at the sample now
output; a start that waits is withdrawn by a stop; on an idle one the stop is reported 0x00 and the jump 0x01. A
word's oldest request is registered at a sample of the current play, the first 20 ns or more after it was made or the
next; a jump to no entry sets JUMP_ERR instead. Says the completion of: awgRunStart, awgRunStop, awgRunJump,
awgTimedStart, awgRequestRegister. (R211, R214, R215, R216, R225) -/
def Obligations.AwgRuns : Prop :=
  (∀ (s : State) (q : BitVec 8) (e : Entry) (n : Nat), s.serves q e → Entry.opcode e = 0x32 → n = (s.taken q.toNat e).target →
      n < 32 → (s.taken q.toNat e).reservedSet [(8, 1), (10, 2), (16, 8)] = false → s.flag (Reg.AWG_STATUS_CFG_ERR n) = false →
      firstFailing (s.unitChecks [n, seqUnit (s.awgOwner n)]) = none → s.runs (s.awgOwner n) = false →
      (Entry.field e 8 1 = 0 → s.fld (Reg.AWG_STATUS_STATE n) = 0 → Entry.field (s.taken q.toNat e).entry 16 8 ≤ s.now →
        ∃ t, exec (.awgRunStart q e) s = .next t ∧ t.fld (Reg.AWG_STATUS_STATE n) = 2 ∧ (t.awg n).start = s.now ∧
          (t.awg n).program = none ∧ (t.awg n).cur.index = s.afld (Reg.AWG_SEQ_CFG_START_ENTRY n) ∧ (t.awg n).n0 = 0 ∧
          t.reported (s.taken q.toNat e) 0 (2 ^ 64 * s.afld (Reg.AWG_SEQ_CFG_START_ENTRY n))) ∧
      (Entry.field e 8 1 = 0 → s.fld (Reg.AWG_STATUS_STATE n) = 0 → s.now < Entry.field (s.taken q.toNat e).entry 16 8 →
        ∃ t, exec (.awgRunStart q e) s = .next t ∧ t.fld (Reg.AWG_STATUS_STATE n) = 1 ∧
          (t.awg n).startCmd = some (s.taken q.toNat e) ∧ (t.awg n).startAt = Entry.field (s.taken q.toNat e).entry 16 8) ∧
      (Entry.field e 8 1 = 0 → s.fld (Reg.AWG_STATUS_STATE n) ≠ 0 →
        ∃ t, exec (.awgRunStart q e) s = .next t ∧ t.flag (Reg.AWG_STATUS_START_OVERRUN n) = true ∧ t.awg n = s.awg n ∧
          t.reported (s.taken q.toNat e) 1 (s.fld (Reg.AWG_TIMELINE n) + 2 ^ 64 * s.fld (Reg.AWG_POSITION_ENTRY n))) ∧
      (Entry.field e 8 1 = 1 →
        ∃ t, exec (.awgRunStop q e) s = .next t ∧
          (s.fld (Reg.AWG_STATUS_STATE n) = 2 →
            (t.awg n).due = some ({ jump := none, cmd := some (s.taken q.toNat e), since := s.now }, (s.awg n).pos) ∧
            t.fld (Reg.AWG_STATUS_STATE n) = 2) ∧
          (s.fld (Reg.AWG_STATUS_STATE n) = 1 → t.fld (Reg.AWG_STATUS_STATE n) = 0 ∧
            t.reported (s.taken q.toNat e) 0 (s.fld (Reg.AWG_TIMELINE n) + 2 ^ 64 * 0xFFFF)) ∧
          (s.fld (Reg.AWG_STATUS_STATE n) = 0 → t.awg n = s.awg n ∧
            t.reported (s.taken q.toNat e) 0 (s.fld (Reg.AWG_TIMELINE n) + 2 ^ 64 * 0xFFFF))) ∧
      (Entry.field e 8 1 = 2 → Entry.field (s.taken q.toNat e).entry 10 2 < s.afld (Reg.AWG_SEQ_CFG_SEQ_COUNT n) →
        ∃ t, exec (.awgRunJump q e) s = .next t ∧
          (s.fld (Reg.AWG_STATUS_STATE n) = 2 → t.fld (Reg.AWG_STATUS_STATE n) = 2 ∧ (t.awg n).due =
            some ({ jump := some (Entry.field (s.taken q.toNat e).entry 10 2), cmd := some (s.taken q.toNat e), since := s.now },
              (s.awg n).pos)) ∧
          (s.fld (Reg.AWG_STATUS_STATE n) ≠ 2 → t.awg n = s.awg n ∧
            t.reported (s.taken q.toNat e) 1 (s.fld (Reg.AWG_TIMELINE n) + 2 ^ 64 * 0xFFFF)))) ∧
    (∀ (s : State) (c : Fin 32) (x : Cmd), s.inReset = false → s.fld (Reg.AWG_STATUS_STATE c.val) = 1 →
      (s.awg c.val).startCmd = some x → (s.awg c.val).startAt ≤ s.now →
      ∃ t, exec (.awgTimedStart c) s = .next t ∧ t.fld (Reg.AWG_STATUS_STATE c.val) = 2 ∧
        (t.awg c.val).start = (s.awg c.val).startAt ∧ (t.awg c.val).startCmd = none ∧
        (x.epoch = s.hi.epoch → t.reported x 0 (2 ^ 64 * s.afld (Reg.AWG_SEQ_CFG_START_ENTRY c.val)))) ∧
    (∀ (s : State) (c : Fin 32) (n : BitVec 64) (r : AwgReq) (l : List AwgReq), s.inReset = false →
      s.fld (Reg.AWG_STATUS_STATE c.val) = 2 → (s.awg c.val).asked = r :: l → (s.awg c.val).n0 ≤ n.toNat →
      (∀ en, (s.awg c.val).cur.entry = some en → n.toNat < (s.awg c.val).n0 + en.length) →
      (s.awg c.val).firstAfter r.since ≤ n.toNat → n.toNat ≤ (s.awg c.val).firstAfter r.since + 1 →
      ∃ t, exec (.awgRequestRegister c n) s = .next t ∧ (t.awg c.val).asked = l ∧
        (s.awgNoEntry c.val r = false → (t.awg c.val).due = some (r, n.toNat)) ∧
        (s.awgNoEntry c.val r = true → (t.awg c.val).due = (s.awg c.val).due ∧ t.flag (Reg.AWG_STATUS_JUMP_ERR c.val) = true))

/-- A play ends, a fetch completes, a sample underruns. AWG_BOUNDARY of a running AWG with no request: with a play to
follow, whose entry is not malformed, it starts where the last ended, and POSITION shows it; with none the AWG stops.
A request registered before the final 64 samples stops it there or jumps. AWG_FETCH_DONE that reads a well-formed
entry makes it the current play's; one that reads a block of a memory play keeps its codes. AWG_UNDERRUN of a sample
that is not there, none being substituted before it, opens a gap at it; it is counted in GAP_SAMPLES, passes, and
UNDERRUN sets. Says the completion of: awgBoundary, awgFetchDone, awgUnderrun. (R209, R210, R211, R216, R217, R218,
R219) -/
def Obligations.AwgPlays : Prop :=
  (∀ (s : State) (c : Fin 32) (en : AwgEntry), s.inReset = false → s.fld (Reg.AWG_STATUS_STATE c.val) = 2 →
      (s.awg c.val).cur.entry = some en →
      (∀ j p, (s.awg c.val).due = none → (s.awg c.val).following = some (j, p) → ((s.awg c.val).fetched j p).bad = false →
        ∃ t, exec (.awgBoundary c) s = .next t ∧ t.fld (Reg.AWG_STATUS_STATE c.val) = 2 ∧
          (t.awg c.val).n0 = (s.awg c.val).n0 + en.length ∧ (t.awg c.val).play = p ∧
          t.fld (Reg.AWG_POSITION_ENTRY c.val) = ((s.awg c.val).fetched j p).index % 2 ^ 16 ∧
          t.fld (Reg.AWG_POSITION_PLAY c.val) = p % 2 ^ 16) ∧
      ((s.awg c.val).due = none → (s.awg c.val).following = none →
        ∃ t, exec (.awgBoundary c) s = .next t ∧ t.fld (Reg.AWG_STATUS_STATE c.val) = 0 ∧
          (t.awg c.val).pos = max (s.awg c.val).pos ((s.awg c.val).n0 + en.length) ∧ (t.awg c.val).cur.entry = none) ∧
      (∀ r m, (s.awg c.val).due = some (r, m) → (s.awg c.val).actsNext = true → r.jump = none →
        ∃ t, exec (.awgBoundary c) s = .next t ∧ t.fld (Reg.AWG_STATUS_STATE c.val) = 0 ∧
          ∀ x, r.cmd = some x → x.epoch = s.hi.epoch →
            t.reported x 0 (((s.awg c.val).n0 + en.length) % 2 ^ 64 + 2 ^ 64 * 0xFFFF)) ∧
      (∀ r j m, (s.awg c.val).due = some (r, m) → (s.awg c.val).actsNext = true → r.jump = some j →
        ((s.awg c.val).target.getD { index := j }).bad = false →
        ∃ t, exec (.awgBoundary c) s = .next t ∧ t.fld (Reg.AWG_STATUS_STATE c.val) = 2 ∧ (t.awg c.val).due = none ∧
          (t.awg c.val).n0 = (s.awg c.val).n0 + en.length ∧ (t.awg c.val).play = 0 ∧
          ∀ x, r.cmd = some x → x.epoch = s.hi.epoch →
            t.reported x 0 (((s.awg c.val).n0 + en.length) % 2 ^ 64 + 2 ^ 64 * j))) ∧
    (∀ (s u : State) (c : Fin 32) (d : List Byte), s.inReset = false → s.fld (Reg.AWG_STATUS_STATE c.val) = 2 →
      (s.awg c.val).filler = false → (s.awg c.val).cur.entry = none →
      s.memRead { engine := 3, unit := c.val } (s.afld (Reg.AWG_SEQ_BASE c.val) + 32 * (s.awg c.val).cur.index) 32 =
        (.ok d none, u) → awgEntryBad d (s.afld (Reg.AWG_SEQ_CFG_SEQ_COUNT c.val)) = false →
      ∃ t, exec (.awgFetchDone c (.entry .now)) s = .next t ∧ (t.awg c.val).cur.entry = some (awgEntryOf d) ∧
        (t.awg c.val).cur.index = (s.awg c.val).cur.index) ∧
    (∀ (s u : State) (c : Fin 32) (k : BitVec 27) (en : AwgEntry) (d : List Byte), s.inReset = false →
      s.fld (Reg.AWG_STATUS_STATE c.val) = 2 → (s.awg c.val).cur.entry = some en → (s.awg c.val).cur.bad = false → en.kind = 0 →
      (s.awg c.val).filler = false → (s.awg c.val).reads .now k.toNat = true →
      32 * k.toNat < en.length → s.memRead { engine := 3, unit := c.val } (en.source + 64 * k.toNat) 64 = (.ok d none, u) →
      ∃ t, exec (.awgFetchDone c (.block .now k)) s = .next t ∧
        SMap.find (t.awg c.val).cur.blocks k.toNat = some (blockCodes d)) ∧
    (∀ (s : State) (c : Fin 32), s.inReset = false → s.fld (Reg.AWG_STATUS_STATE c.val) = 2 → (s.awg c.val).left ≠ some 0 →
      ((s.awg c.val).source false 0).2.1 = some 0 →
      ∃ t, exec (.awgUnderrun c) s = .next t ∧ t.flag (Reg.AWG_STATUS_UNDERRUN c.val) = true ∧
        (t.awg c.val).pos = (s.awg c.val).pos + 1 ∧ ((s.awg c.val).gap = none → (t.awg c.val).gap = some (0, (s.awg c.val).pos)) ∧
        t.fld (Reg.AWG_GAP_SAMPLES c.val) = (s.fld (Reg.AWG_GAP_SAMPLES c.val) + 1) % 2 ^ (Reg.AWG_GAP_SAMPLES c.val).width)

/-- ACQ_CTRL arms, forces, stops and releases; a measurement triggers, captures, re-arms, times out. ACQ_CTRL whose
checks hold: ACTION 0, with no program on the owner's group, arms an idle digitizer in state 1; 1 forces an armed one,
or counts a missed trigger in a later state; 2 ends the measurement; 3 moves RELEASE to a position up to WRITE.
TRIGGER_FIRE opens a record in state 2; POST_CAPTURE_END closes it, takes its reading and re-arms; REARM_END arms
again, or ends the measurement after its last record; ACQ_TIMEOUT ends it. A sample instant of a group of four
digitizers: at one that is present, with nothing of its last sample still to act, a code at the end of its span shows,
and the sample counts once 100 ns have passed from the arm; in state 1 it triggers when forced or when a level
condition is above its level. Says the completion of: acqArm, acqForce, acqStop, acqRelease, triggerFire,
postCaptureEnd, rearmEnd, acqTimeout, digitizerSample. (R229, R234, R236, R238, R240, R241, R242, R243, R248) -/
def Obligations.AcquisitionControl : Prop :=
  (∀ (s : State) (q : BitVec 8) (e : Entry) (n : Nat), s.serves q e → Entry.opcode e = 0x33 → n = (s.taken q.toNat e).target →
      n < 32 → (s.taken q.toNat e).reservedSet [(8, 2), (16, 8), (24, 2)] = false →
      firstFailing (s.unitChecks [n, seqUnit (s.dgOwner n)]) = none → Entry.field (s.taken q.toNat e).entry 9 1 < 4 →
      (Entry.field e 8 1 = 0 → 0 < Entry.field (s.taken q.toNat e).entry 9 1 →
        s.flag (Reg.DG_STATUS_CFG_ERR n) = false → s.runs (s.dgOwner n) = false → (s.dg n).arm = none →
        ∃ t m, exec (.acqArm q e) s = .next t ∧ t.fld (Reg.DG_STATUS_STATE n) = 1 ∧ (t.dg n).arm = some m ∧
          m.origin = .measure (s.taken q.toNat e) ∧ m.base = Entry.field (s.taken q.toNat e).entry 24 2 ∧ (t.dg n).n = 0 ∧
          s.regsBut t [Reg.DG_STATUS_STATE n, Reg.DG_STATUS_FAULT n, Reg.DG_STATUS_SLOPE_UNSETTLED n]) ∧
      (Entry.field e 8 1 = 1 →
        ∃ t, exec (.acqForce q e) s = .next t ∧ t.reported (s.taken q.toNat e) 0 0 ∧
          (s.fld (Reg.DG_STATUS_STATE n) = 1 → (t.dg n).force = true) ∧
          (2 ≤ s.fld (Reg.DG_STATUS_STATE n) → (t.dg n).missed = (s.dg n).missed + 1 ∧
            t.fld (Reg.DG_MISSED n) = (s.fld (Reg.DG_MISSED n) + 1) % 2 ^ (Reg.DG_MISSED n).width)) ∧
      (Entry.field e 8 1 = 2 →
        ∃ t, exec (.acqStop q e) s = .next t ∧ t.reported (s.taken q.toNat e) 0 0 ∧ (t.dg n).arm = none ∧
          ((s.dg n).arm ≠ none → t.fld (Reg.DG_STATUS_STATE n) = 0)) ∧
      (∀ p, Entry.field e 8 1 = 3 → p = Entry.field (s.taken q.toNat e).entry 16 8 → p % 4 = 0 →
        s.fld (Reg.DG_RELEASE n) ≤ p → p ≤ s.fld (Reg.DG_WRITE n) →
        ∃ t, exec (.acqRelease q e) s = .next t ∧ t.reported (s.taken q.toNat e) 0 p ∧ t.fld (Reg.DG_RELEASE n) = p)) ∧
    (∀ (s : State) (c : Fin 32) (m : DgArm), s.inReset = false → (s.dg c.val).arm = some m →
      (∀ x, (s.dg c.val).fire = some x → m.toRecord = false ∨ ((s.dg c.val).pre = [] ∧ (s.dg c.val).fresh = none) →
        ∃ t, exec (.triggerFire c) s = .next t ∧ t.fld (Reg.DG_STATUS_STATE c.val) = 2 ∧ (t.dg c.val).fire = none ∧
          (t.dg c.val).trigTime = (s.dg c.val).sampleTime ((s.dg c.val).n - 1) ∧ (t.dg c.val).arm = some m) ∧
      ((s.dg c.val).postDone = true →
        ∃ t, exec (.postCaptureEnd c) s = .next t ∧ t.fld (Reg.DG_STATUS_STATE c.val) = 3 ∧
          (t.dg c.val).readings.length = (s.dg c.val).readings.length + 1 ∧
          t.fld (Reg.DG_RECORDS c.val) = (s.fld (Reg.DG_RECORDS c.val) + 1) % 2 ^ 64 ∧
          (t.dg c.val).rearm = 8 + s.afld (Reg.ACQ_CFG_REARM_HOLD c.val)) ∧
      (s.fld (Reg.DG_STATUS_STATE c.val) = 3 → (s.dg c.val).rearm = 0 →
        ∃ t, exec (.rearmEnd c) s = .next t ∧
          ((s.dg c.val).readings.length < s.afld (Reg.ACQ_CFG_RECORDS_MAX c.val) →
            t.fld (Reg.DG_STATUS_STATE c.val) = 1 ∧ s.onlyRegs t [Reg.DG_STATUS_STATE c.val]) ∧
          (s.afld (Reg.ACQ_CFG_RECORDS_MAX c.val) ≤ (s.dg c.val).readings.length →
            t.fld (Reg.DG_STATUS_STATE c.val) = 0 ∧ (t.dg c.val).arm = none)) ∧
      (s.afld (Reg.DG_TIMEOUT c.val) ≠ 0 →
        ∃ t, exec (.acqTimeout c) s = .next t ∧ t.fld (Reg.DG_STATUS_STATE c.val) = 0 ∧ (t.dg c.val).arm = none) ∧
      (∀ (g : Fin 8) (c0 c1 c2 c3 : BitVec 18) (i : Nat) (code : Int), i < 4 → c.val = 4 * g.val + i →
        code = [c0.toInt, c1.toInt, c2.toInt, c3.toInt].getD i 0 → s.blockOff (Reg.dgB c.val) = false → (s.dg c.val).fire = none →
        (s.dg c.val).postDone = false → s.fld (Reg.DG_STATUS_STATE c.val) ≠ 2 →
        (s.fld (Reg.DG_STATUS_STATE c.val) = 3 → (s.dg c.val).rearm ≠ 0) →
        ∃ t, exec (.digitizerSample g c0 c1 c2 c3) s = .next t ∧
          (atLimit code = true → t.flag (Reg.DG_STATUS_OVER_RANGE c.val) = true) ∧
          ((s.dg c.val).n = 0 → s.now < (s.dg c.val).start + 100000 → (t.dg c.val).n = 0) ∧
          (((s.dg c.val).n ≠ 0 ∨ (s.dg c.val).start + 100000 ≤ s.now) → (t.dg c.val).n = (s.dg c.val).n + 1 ∧
            (s.fld (Reg.DG_STATUS_STATE c.val) = 1 → (s.dg c.val).force = true ∨
              (s.afld (Reg.TRIG_COND_TYPE c.val 0) = 1 ∧ scaledLevel (s.asfld (Reg.TRIG_COND_LEVEL c.val 0)) <
                dgScaled (s.afld (Reg.DG_CTRL_RANGE c.val)) (dgValue m.gain m.offset code)) →
              (t.dg c.val).fire.isSome = true))))

/-- DPS_RUN turns gangs on and off and measures them; a switching cycle ramps; a reading ends. DPS_RUN whose checks
hold, on a gang's leader with no program on its site's group. ACTION 0: reported 0x40 where the site's Deckle is
closed, at once in state 2, else the gang goes to state 1 from states 0 and 3 and the command waits. ACTION 1: at once
in state 0, else state 3 from 1 and 2. ACTION 2: a measurement starts, its TEST offset by its rank in its site, or
waits for the one that runs. A cycle of a leader that is not off moves V_REF by its ramp step and ends the ramp where
it arrives. A reading whose conversions are all in is over, shows its voltage, and is reported. Says the completion
of: dpsRunOn, dpsRunOff, dpsRunMeasure, dpsSwitchingCycle, dpsReading. (R252, R257, R259, R260, R261, R266) -/
def Obligations.DpsRuns : Prop :=
  (∀ (s : State) (q : BitVec 8) (e : Entry) (n : Nat), s.serves q e → Entry.opcode e = 0x34 → n = (s.taken q.toNat e).target →
      n < 64 → (s.taken q.toNat e).reservedSet [(8, 2), (24, 2)] = false → s.dpsLeads n = true →
      s.flag (Reg.DPS_STATUS_CFG_ERR n) = false → firstFailing (s.unitChecks [n / 2]) = none →
      (∀ b x, s.dpsSite n = some (b, x) → s.program b = none) → Entry.field (s.taken q.toNat e).entry 9 1 < 4 →
      (Entry.field e 8 1 = 0 →
        ∃ t, exec (.dpsRunOn q e) s = .next t ∧ t.memData = s.memData ∧
          (s.dpsClosed n = true → t.reported (s.taken q.toNat e) 0x40 (s.dpsState n * 2 ^ 128) ∧ t.dpsState n = s.dpsState n) ∧
          (s.dpsClosed n = false → s.dpsState n = 2 → t.reported (s.taken q.toNat e) 0 (2 * 2 ^ 128) ∧ t.dpsState n = 2) ∧
          (s.dpsClosed n = false → s.dpsState n = 0 ∨ s.dpsState n = 3 →
            t.dpsState n = 1 ∧ s.taken q.toNat e ∈ (t.dpsRec n).runs)) ∧
      (Entry.field e 8 1 = 1 →
        ∃ t, exec (.dpsRunOff q e) s = .next t ∧ t.memData = s.memData ∧
          (s.dpsState n = 0 → t.reported (s.taken q.toNat e) 0 0 ∧ t.dpsState n = 0) ∧
          (s.dpsState n = 1 ∨ s.dpsState n = 2 → t.dpsState n = 3 ∧ s.taken q.toNat e ∈ (t.dpsRec n).runs)) ∧
      (Entry.field e 8 1 = 2 →
        ∃ t, exec (.dpsRunMeasure q e) s = .next t ∧
          ((s.dpsRec n).meas ≠ none → t.held = s.held ++ [⟨s.taken q.toNat e, .busy n⟩] ∧ t.dps = s.dps) ∧
          ((s.dpsRec n).meas = none → (∀ x ∈ s.gangOf n, (s.dpsRec x).level2 = false) →
            ∃ m, (t.dpsRec n).meas = some m ∧ m.origin = .measure (s.taken q.toNat e) ∧
              m.qty = s.afld (Reg.DPS_CTRL_MEAS_QTY n) ∧
              (s.dpsSite n = none → m.test = Entry.field (s.taken q.toNat e).entry 24 2) ∧
              (∀ b x, s.dpsSite n = some (b, x) → m.test = (Entry.field (s.taken q.toNat e).entry 24 2 +
                (if m.qty = 0 then 2 else 1) * (s.dpsUnits x).findIdx (fun k => decide (k = n))) % 65536)))) ∧
    (∀ (s : State) (n : Fin 64) (v i : BitVec 20) (r : Nat), s.inReset = false → s.blockOff (Reg.dpsB n.val) = false →
      s.dpsLeads n.val = true → s.dpsState n.val ≠ 0 →
      r = rampTo (s.dpsRec n.val).vref (s.dpsTarget n.val) (s.dpsStep n.val) →
      ∃ t, exec (.dpsSwitchingCycle n v i) s = .next t ∧ t.memData = s.memData ∧ (t.dpsRec n.val).vref = r ∧
        t.dpsState n.val = (if s.dpsState n.val = 1 ∧ r = s.dpsTarget n.val then 2
          else if s.dpsState n.val = 3 ∧ r = 0 ∧ s.dpsVolt n.val v.toInt < 20000 then 0 else s.dpsState n.val)) ∧
    (∀ (s : State) (n : Fin 64) (m : DpsMeas) (v : Int), s.inReset = false → (s.dpsRec n.val).meas = some m → m.qty = 1 →
      (∀ x ∈ s.gangOf n.val, 2 ^ m.avgLog2 ≤ (s.dpsRec x).sums.count) →
      v = dpsVolts (s.dpsRec n.val).sums.gainV (s.dpsRec n.val).sums.offV (s.dpsRec n.val).sums.sumV (2 ^ m.avgLog2 : Nat) →
      ∃ t, exec (.dpsReading n) s = .next t ∧ (t.dpsRec n.val).meas = none ∧
        t.fld (Reg.DPS_LAST_V n.val) = ofSigned 64 v ∧
        ∀ c, m.origin = .measure c → c.epoch = s.hi.epoch →
          t.reported c 0 (ofSigned 64 v + 2 ^ 128 * s.dpsState n.val))

/-- Window monitors trip, clear, are armed, disagree and are checked. An armed bound that trips: TRIP sets, TRIP_KIND
names it, TRIPS counts, event 5 is raised; an enabled site that is open has cause 0 asserted, and without an enabled
site the gang turns off where ACTION is 1. Bounds back inside clear TRIP_LIVE. After BLANK in state 2 the voltage
bounds may be armed. A comparator that disagrees sets DISAGREE and raises event 16. A self-check, at level 1 where
BG_CHECK is 1 or at level 2 where one is under way, shows its verdict, and a failed one raises event 15 and asserts
cause 0 at an enabled, open site. Says the completion of: dpsWindowTrip, dpsBoundInside, blankExpiry, dpsDisagree,
dpsSelfCheck. (R41, R263, R264, R265) -/
def Obligations.DpsMonitors : Prop :=
  (∀ (s : State) (n : Fin 64) (bounds : BitVec 4) (k : Nat), s.inReset = false → k = andMask bounds.toNat (s.dpsArmed n.val) →
      k ≠ 0 → s.blockOff (Reg.dpsB n.val) = false →
      ∃ t, exec (.dpsWindowTrip n bounds) s = .next t ∧ t.flag (Reg.DPS_STATUS_TRIP n.val) = true ∧ t.memData = s.memData ∧
        t.fld (Reg.DPS_STATUS_TRIP_KIND n.val) = k ∧ s.raised t 5 n.val k ∧
        t.fld (Reg.DPS_TRIPS n.val) = (s.fld (Reg.DPS_TRIPS n.val) + 1) % 2 ^ 64 ∧
        (∀ b x, s.dpsEnabledSite n.val = some (b, x) → bitOf (s.closedMask b) x.position = false →
          bitOf (SMap.get (0, 0) t.causes (causeKey b x.position)).1 0 = true) ∧
        (s.dpsEnabledSite n.val = none → s.afld (Reg.MON_ACTION n.val) ≠ 0 → s.dpsLeads n.val = true →
          s.dpsState n.val = 1 ∨ s.dpsState n.val = 2 → t.dpsState n.val = 3 ∧ t.causes = s.causes)) ∧
    (∀ (s : State) (n : Fin 64), s.inReset = false →
      ∃ t, exec (.dpsBoundInside n) s = .next t ∧ t.flag (Reg.DPS_STATUS_TRIP_LIVE n.val) = false ∧
        (t.dpsRec n.val).outside = 0 ∧ s.regsBut t [Reg.DPS_STATUS_TRIP_LIVE n.val]) ∧
    (∀ (s : State) (n : Fin 64), s.inReset = false → s.dpsState n.val = 2 →
      ∃ t, exec (.blankExpiry n) s = .next t ∧ (t.dpsRec n.val).blanked = true ∧
        s.regsBut t [Reg.DPS_STATUS_TRIP_LIVE n.val]) ∧
    (∀ (s : State) (n : Fin 64) (bound : BitVec 4), s.inReset = false → s.blockOff (Reg.dpsB n.val) = false →
      ∃ t, exec (.dpsDisagree n bound) s = .next t ∧ t.flag (Reg.DPS_STATUS_DISAGREE n.val) = true ∧
        s.raised t 16 n.val bound.toNat) ∧
    (∀ (s : State) (n : Fin 64) (second passed : Bool), s.inReset = false → s.blockOff (Reg.dpsB n.val) = false →
      (second = true → s.dpsState n.val = 0 ∧ (s.dpsRec n.val).level2 = true) →
      (second = false → s.afld (Reg.MON_BG_CHECK n.val) = 1) →
      ∃ t, exec (.dpsSelfCheck n second passed) s = .next t ∧ t.flag (Reg.DPS_STATUS_SC_DONE n.val) = true ∧
        t.flag (Reg.DPS_STATUS_SC_FAIL n.val) =
          (!passed || (if second then (s.dpsRec n.val).fail1 else (s.dpsRec n.val).fail2)) ∧
        (passed = false → s.raised t 15 n.val (if second then 2 else 1) ∧
          ∀ b x, s.dpsEnabledSite n.val = some (b, x) → bitOf (s.closedMask b) x.position = false →
            bitOf (SMap.get (0, 0) t.causes (causeKey b x.position)).1 0 = true))

/-- POP_DEFINE defines a test; POP_FINALISE, POP_READ and POP_RELEASE end, show and remove it. POP_DEFINE whose checks
hold: the lowest free slot holds a test with the entry's number, round, edges, width and work area and the check that
its bytes give, and slot, number of expected sites and check are reported. POP_FINALISE of a test with no work waiting
whose local contribution is closed: the root, with the merged bins readable, makes it final now, unless its memory
then fails it, and reports STATE 2 once that work is through; elsewhere its STATE is reported. POP_READ reports
limits, STATE and FLAGS of the test, those of REF_TEST where it is VERDICT_ONLY. POP_RELEASE of a test that no test
names frees its slot. Says the completion of: popDefine, popFinalise, popRead, popRelease. (R272, R273, R274, R275,
R276, R280, R284, R289, R291) -/
def Obligations.PopulationTests : Prop :=
  (∀ (s : State) (q : BitVec 8) (e : Entry) (c : Cmd), s.serves q e → Entry.opcode e = 0x50 → c = s.taken q.toNat e →
      s.popDefineBad c = false → s.present popUnit = true → s.present memUnit = true → s.ready popUnit = true →
      s.ready memUnit = true →
      (bitOf (c.field 11 1) 4 = false → bitOf (c.field 11 1) 5 = false → s.anyPort s.ready = true ∧ s.anyPort s.present = true) →
      ∃ t x, exec (.popDefine q e) s = .next t ∧ t.popFind (c.field 8 2) = some (s.freePopSlot, x) ∧
        t.fld Reg.POP_STATUS_TESTS_DEFINED = s.popTests.length + 1 ∧
        x.verdictOnly = bitOf (c.field 11 1) 4 ∧ x.work = c.field 32 8 ∧ x.lo = toSigned 64 (c.field 16 8) ∧
        x.width = c.field 24 8 ∧ x.check = popCheck c ∧ (x.verdictOnly = true → x.refTest = c.field 14 2) ∧
        (x.verdictOnly = false → x.round = c.field 56 2 ∧ x.binsLog2 = c.field 10 1 ∧
          x.captured = s.expectedSites (c.field 48 8)) ∧
        t.reported c 0 (s.freePopSlot + 2 ^ 32 * x.captured.length + 2 ^ 64 * popCheck c)) ∧
    (∀ (s : State) (q : BitVec 8) (e : Entry) (c : Cmd) (k : Nat) (x : PopTest), s.serves q e → c = s.taken q.toNat e →
      c.target = 0 → c.reservedSet [(8, 2)] = false → s.popFind (c.field 8 2) = some (k, x) → SMap.find s.popTests k = some x →
      s.present popUnit = true → s.present memUnit = true → s.ready popUnit = true → s.ready memUnit = true →
      (x.verdictOnly = false → x.isLocal = false → s.anyPort s.ready = true ∧ s.anyPort s.present = true) →
      (Entry.opcode e = 0x51 → x.verdictOnly = false → x.closed = true → x.state < 2 → x.todo = [] →
        ∃ t, exec (.popFinalise q e) s = .next t ∧
          (s.popIsRoot x = false → t.reported c 0 x.state ∧ SMap.find t.popTests k = some x) ∧
          ∀ d, s.popIsRoot x = true → (s.workTouch x 0x4000 (4 * x.bins)).1 = .done d →
            ∃ y, SMap.find t.popTests k = some y ∧ (y.state = 2 ∨ y.failedHere = true) ∧ y.finalTime = s.absNow % 2 ^ 64 ∧
              y.countN = x.mergedU + x.mergedO + (binsOf x.bins d).sum ∧
              (y.countN < x.minCount → y.noLimits = true) ∧ (y.todo = [] → y.failedHere = false → t.reported c 0 2)) ∧
      (Entry.opcode e = 0x52 →
        ∃ t, exec (.popRead q e) s = .next t ∧ t.popTests = s.popTests ∧ t.memData = s.memData ∧
          (x.verdictOnly = false → t.reported c (if x.failedHere then x.failStatus else 0)
            (ofSigned 64 x.limitLo + 2 ^ 64 * ofSigned 64 x.limitHi + 2 ^ 128 * (x.state + 8 * x.flags))) ∧
          ∀ r j, x.verdictOnly = true → x.state ≠ 3 → s.popFind x.refTest = some (r, j) →
            ∃ flags < 32, t.reported c (if x.failedHere then x.failStatus else 0)
              (ofSigned 64 j.limitLo + 2 ^ 64 * ofSigned 64 j.limitHi + 2 ^ 128 * (j.state + 8 * flags))) ∧
      (Entry.opcode e = 0x53 → (∀ y ∈ s.popTests, y.2.verdictOnly = true → y.2.refTest ≠ x.test) →
        ∃ t, exec (.popRelease q e) s = .next t ∧ t.popTests = SMap.del s.popTests k ∧ t.reported c 0 0 ∧
          t.fld Reg.POP_STATUS_TESTS_DEFINED = t.popTests.length % 2 ^ 11 ∧ t.memData = s.memData))

/-- A reading is taken; a forward deadline closes the contribution; a deadline makes the test final. POP_READING takes
the oldest reading and counts it. For no defined test it counts as undefined. For a test that collects, with no work
waiting, at a site that holds none, with the work area at hand, while other sites are still expected, the counts of
the test change as R270 says and the site leaves the expected set. FORWARD_DEADLINE, once its pair is reached, closes
the local contribution: nothing is expected any more, and COVERED counts this device unless its memory fails the test;
a contribution closed before, or a failed one, is reported to the parent. DEADLINE, once its pair is reached, at the
root makes a closed test final now, unless its memory fails it. Says the completion of: popReading, forwardDeadline,
deadline. (R269, R270, R271, R276, R277, R279, R280, R281, R284, R291) -/
def Obligations.PopulationReadings : Prop :=
  (∀ (s : State) (r : PopReading) (l : List PopReading), s.inReset = false → s.popInput = r :: l →
      ∃ t, exec .popReading s = .next t ∧ t.popInput = l ∧
        t.fld Reg.POP_ACCEPTED = (s.fld Reg.POP_ACCEPTED + 1) % 2 ^ 64 ∧
        (s.popFind r.test = none → t.fld Reg.POP_UNDEFINED = (s.fld Reg.POP_UNDEFINED + 1) % 2 ^ 64 ∧
          t.popTests = s.popTests ∧ t.memData = s.memData) ∧
        ∀ k x d u v n w good binned b, s.popFind r.test = some (k, x) → SMap.find s.popTests k = some x → x.state = 0 →
          x.todo = [] → x.verdictOnly = false → x.closed = false → x.holds.contains r.site = false →
          good = (decide (r.status = 0) && decide (r.flags = 0)) → b = binIndex x r.value →
          binned = (good && decide (0 ≤ b) && decide (b < (x.bins : Int))) →
          s.workTouch x (siteOff r.site) 16 = (.done d, u) →
          (if binned then u.workTouch x (localOff b.toNat) 4 else (.done [], u)) = (.done n, v) →
          (v.workStore x ((siteOff r.site, ({ value := r.value, verdict := 2, binned := good, late := false, flagged := !good
                                              withdrawn := false } : SiteEntry).bytes) ::
            (if binned then [(localOff b.toNat, leBytes (leNat n + 1) 4)] else []))).1 = .done w →
          x.expected.erase r.site ≠ [] →
          SMap.find t.popTests k = some { x with
            accepted := x.accepted + 1, flagged := x.flagged + b2n (!good), holds := r.site :: x.holds
            localU := x.localU + b2n (good && decide (b < 0))
            localO := x.localO + b2n (good && decide ((x.bins : Int) ≤ b)), expected := x.expected.erase r.site }) ∧
    (∀ (s : State) (k : Fin 1024) (x : PopTest) (f : Nat), s.inReset = false → SMap.find s.popTests k.val = some x →
      s.forwardDeadline x = some f → f ≤ s.absNow → x.verdictOnly = false → x.todo = [] →
      ∃ t y, exec (.forwardDeadline k) s = .next t ∧ SMap.find t.popTests k.val = some y ∧
        (∀ l u m v w, x.closed = false → x.failedHere = false → x.reported = false → x.state < 2 →
          s.workTouch x 0 (4 * x.bins) = (.done l, u) → u.workTouch x 0x4000 (4 * x.bins) = (.done m, v) →
          (v.workStore x [(0x4000, binBytes (addBins (binsOf x.bins l) (binsOf x.bins m)))]).1 = .done w →
          y.closed = true ∧ y.expected = [] ∧ (y.failedHere = true ∨
            (y.covered = x.covered + 1 ∧ y.mergedU = x.mergedU + x.localU ∧ y.mergedO = x.mergedO + x.localO))) ∧
        (∀ d, x.closed = true → x.failedHere = false → s.popIsRoot x = false → (s.workTouch x 0x4000 (4 * x.bins)).1 = .done d →
          y.reported = true) ∧
        (x.failedHere = true → s.popIsRoot x = false → y.reported = true)) ∧
    (∀ (s : State) (k : Fin 1024) (x : PopTest) (f : Nat) (d : List Byte), s.inReset = false → SMap.find s.popTests k.val = some x →
      x.deadline = some f → f ≤ s.absNow → x.verdictOnly = false → s.popIsRoot x = true → x.closed = true → x.state < 2 →
      x.todo = [] → (s.workTouch x 0x4000 (4 * x.bins)).1 = .done d →
      ∃ t y, exec (.deadline k) s = .next t ∧ SMap.find t.popTests k.val = some y ∧ (y.state = 2 ∨ y.failedHere = true) ∧
        y.finalTime = s.absNow % 2 ^ 64 ∧ y.countU = x.mergedU ∧ y.countO = x.mergedO)

/-- MAP_SET, MAP_LOAD, MAP_CLEAR and MAP_READ write and show entries, and no others. MAP_SET of one to six values that
pass their checks in turn: each index holds its value, 0 where that is not valid, no other index changes, and their
number is reported; with a value that fails with 0x7F nothing changes. MAP_LOAD changes no entry outside its range,
and one of a single entry that is read and passes loads it. MAP_CLEAR, forced where an entry is pinned, leaves 0 at
every index of its range and no other index changed. MAP_READ reports the entry with what the cache and the groups
hold for it. Says the completion of: mapSet, mapLoad, mapClear, mapRead. (R303, R305, R306, R307, R309) -/
def Obligations.MapCommands : Prop :=
  ∀ (s : State) (q : BitVec 8) (e : Entry) (c : Cmd) (i n : Nat), s.serves q e → c = s.taken q.toNat e → c.target = 0 →
      i = c.field 8 4 →
      (∀ vs, Entry.opcode e = 0x60 → n = c.field 12 1 → c.mapReserved [(8, 4), (12, 1), (16, 48)] = false → 1 ≤ n → n ≤ 6 →
        i + n ≤ dttSize → (∀ k < 6, n ≤ k → c.field (16 + 8 * k) 8 = 0) →
        vs = (List.range n).map (fun k => c.field (16 + 8 * k) 8) →
        (setStatuses i vs s = [] → ∃ t, exec (.mapSet q e) s = .next t ∧ t.reported c 0 n ∧
          (∀ k < n, t.dttEntry (i + k) = if bitOf (vs.getD k 0) 0 then vs.getD k 0 else 0) ∧
          (∀ j, j < i ∨ i + n ≤ j → t.dttEntry j = s.dttEntry j) ∧ t.mem.cells = s.mem.cells ∧ t.mem.host = s.mem.host) ∧
        ((setStatuses i vs s).contains 0x7F = true →
          ∃ t, exec (.mapSet q e) s = .next t ∧ t.reported c 0x7F 0 ∧ t.mem = s.mem)) ∧
      (Entry.opcode e = 0x61 → n = c.field 12 4 → c.mapReserved [(8, 4), (12, 4), (16, 8)] = false → 0 < n →
        i + n ≤ dttSize → c.field 16 8 % 8 = 0 → c.field 16 8 < 2 ^ 48 →
        ∃ t, exec (.mapLoad q e) s = .next t ∧ (∀ j, j < i ∨ i + n ≤ j → t.dttEntry j = s.dttEntry j) ∧
          ∀ d u, n = 1 → s.memRead { engine := 9, unit := 0 } (c.field 16 8) 8 = (.ok d none, u) → u.entryStatus i (leNat d) = none →
            t.reported c 0 1 ∧ t.dttEntry i = (if bitOf (leNat d) 0 then leNat d % 2 ^ 64 else 0)) ∧
      (Entry.opcode e = 0x62 → n = c.field 12 4 → c.mapReserved [(8, 4), (12, 4), (16, 1)] = false → 0 < n →
        i + n ≤ dttSize → c.field 16 1 ≤ 1 →
        (c.field 16 1 = 1 ∨ ∀ x ∈ s.mem.dtt, i ≤ x.1 → x.1 < i + n → bitOf x.2.toNat 4 = false) →
        ∃ t, exec (.mapClear q e) s = .next t ∧ t.reported c 0 n ∧
          ∀ j, t.dttEntry j = if i ≤ j ∧ j < i + n then 0 else s.dttEntry j) ∧
      (Entry.opcode e = 0x63 → c.mapReserved [(8, 4)] = false → i < dttSize →
        ∃ t, exec (.mapRead q e) s = .next t ∧ t.mem = s.mem ∧ t.reported c 0 (s.dttEntry i + 2 ^ 64 *
          (b2n (s.mem.atc.any (fun r => decide (r.entry = i))) + 2 * b2n (s.mem.groups.any (fun g => decide (g.entry = i))) +
            4 * b2n (s.mem.pinLost.contains i))))

/-- The scrubber corrects one symbol and poisons what it cannot correct; a host read brings data, poison or a refusal.
PATROL_SCRUB with the scrubber off changes nothing. With it on, a block that is not poisoned and bears no error yet:
read with no symbol in error, no byte of memory changes; with one symbol in error, none changes and CORRECTED counts;
with a pattern that decodes to no single symbol the block is poisoned, UNCORRECTABLE counts and the memory event is
raised. HOST_READ_COMPLETION of a block leaves its 64 bytes as read with their poison, or marks its reads as refused.
Says the completion of: patrolScrub, hostReadCompletion. (R296, R297, R298, R300, R315) -/
def Obligations.MemoryIsChecked : Prop :=
  (∀ (s : State) (l : List (Fin 68 × BitVec 8)), s.flag Reg.SCRUB_CTRL_SCRUB_EN = false →
      exec (.patrolScrub l []) s = .next s) ∧
    (∀ (s : State) (b : Nat), s.inReset = false → s.flag Reg.SCRUB_CTRL_SCRUB_EN = true → s.usable ≠ 0 → s.ready memUnit = true →
      b = s.mem.scrubBlock % (s.usable / 64) → SMap.get false s.mem.poison b = false → SMap.find s.mem.latent b = none →
      (∃ t, exec (.patrolScrub [] []) s = .next t ∧ t.mem.scrubBlock = (b + 1) % (s.usable / 64) ∧ t.regs = s.regs ∧
        ∀ a, SMap.get 0 t.mem.cells a = SMap.get 0 s.mem.cells a) ∧
      (∀ (j : Fin 68) (v : BitVec 8), v ≠ 0 →
        ∃ t, exec (.patrolScrub [(j, v)] []) s = .next t ∧ t.fld Reg.MMU_CORRECTED = (s.fld Reg.MMU_CORRECTED + 1) % 2 ^ 64 ∧
          s.regsBut t [Reg.MMU_CORRECTED] ∧ ∀ a, SMap.get 0 t.mem.cells a = SMap.get 0 s.mem.cells a) ∧
      (∀ l, eccDecode l = .uncorrectable →
        ∃ t, exec (.patrolScrub l []) s = .next t ∧ SMap.get false t.mem.poison b = true ∧ s.raised t 8 0 (64 * b) ∧
          t.fld Reg.MMU_UNCORRECTABLE = (s.fld Reg.MMU_UNCORRECTABLE + 1) % 2 ^ 64 ∧
          ∀ a, a / 64 ≠ b → SMap.get 0 t.mem.cells a = SMap.get 0 s.mem.cells a)) ∧
    (∀ (s : State) (block : BitVec 58), s.inReset = false →
      (∀ (d : BitVec 512) (ep : Bool), ∃ t, exec (.hostReadCompletion block (.data d ep)) s = .next t ∧
        t.hostHolds (64 * block.toNat) (leBytes d.toNat 64) ∧ SMap.get false t.mem.hostPoison block.toNat = ep ∧
        SMap.get false t.mem.hostError block.toNat = false ∧ t.regs = s.regs ∧ t.mem.cells = s.mem.cells ∧
        ∀ a, a / 64 ≠ block.toNat → t.hostByteAt a = s.hostByteAt a) ∧
      ∃ t, exec (.hostReadCompletion block .refused) s = .next t ∧ SMap.get false t.mem.hostError block.toNat = true ∧
        t.memData = s.memData ∧ t.regs = s.regs)

/-- Translation completions, page responses, their time limit, and invalidations have their effect. ATS_COMPLETION
ends the request of its entry. A refusal faults every access that waits; where the entry no longer stands they ask
anew; ranges enter the cache; an access whose page is then not present asks for it with a group. PAGE_REQUEST_RESPONSE
ends its group: a success asks for the translation again, the others fault the accesses that wait, and Response
Failure stops page requests; PR_TIMEOUT faults them with kind 4. ATS_INVALIDATE drops what it overlaps and is
outstanding until INVALIDATION_COMPLETION. Says the completion of: atsCompletion, pageRequestResponse, prTimeout,
atsInvalidate, invalidationCompletion. (R307, R309, R310, R311, R312, R313) -/
def Obligations.HostPagesMove : Prop :=
  (∀ (s : State) (i : BitVec 17) (r : AtsRequest), s.inReset = false →
      s.mem.atsRequests.find? (fun x => decide (x.entry = i.toNat)) = some r →
      (s.entryStands i.toNat r.base = false → ∀ a, ∃ t, exec (.atsCompletion i a) s = .next t ∧
        t = { s with mem := { s.mem with atsRequests := t.mem.atsRequests } } ∧ ∀ x ∈ t.mem.atsRequests, x.entry ≠ i.toNat) ∧
      (s.entryStands i.toNat r.base = true →
        (∃ t, exec (.atsCompletion i .refused) s = .next t ∧ (∀ x ∈ t.mem.atsRequests, x.entry ≠ i.toNat) ∧
          (∀ w ∈ r.waiters, (w, 6) ∈ t.mem.decided) ∧ t.mem.atc = s.mem.atc ∧ t.memData = s.memData) ∧
        (∀ l, s.mem.atc.length + l.length ≤ 8192 →
          ∃ t, exec (.atsCompletion i (.ranges l)) s = .next t ∧ (∀ x ∈ t.mem.atsRequests, x.entry ≠ i.toNat) ∧
            t.memData = s.memData ∧
            ∀ x ∈ l, x.canRead || x.canWrite → x.count ≠ 0 → 4096 * x.first.val < s.entryPage i.toNat →
              ∃ y ∈ t.mem.atc, y.entry = i.toNat ∧ y.base = r.base + 4096 * x.first.val ∧ y.target = x.target.toNat ∧
                y.canRead = x.canRead ∧ y.canWrite = x.canWrite) ∧
        (∀ w p, r.waiters = [w] → w.pages = [p] → w.rounds = 0 → s.cachedRange (4096 * p) w.write = none →
          s.hi.priEnable = true → s.mem.priUnavailable = false → s.mem.groups.length < s.maxGroups →
          (∀ g ∈ s.mem.groups, g.pages.contains p = false) →
          ∃ t, exec (.atsCompletion i (.ranges [])) s = .next t ∧
            ∃ g, t.mem.groups = s.mem.groups ++ [g] ∧ g.pages = [p] ∧ g.waiters = [w] ∧
              t.fld Reg.MMU_PAGE_REQUESTS = (s.fld Reg.MMU_PAGE_REQUESTS + 1) % 2 ^ 64))) ∧
    (∀ (s : State) (i : Fin 512) (g : PageGroup), s.inReset = false →
      s.mem.groups.find? (fun x => decide (x.index = i.val)) = some g → s.mem.noGroup = [] →
      (∃ t, exec (.pageRequestResponse i .success) s = .next t ∧ (∀ x ∈ t.mem.groups, x.index ≠ i.val) ∧
        t.memData = s.memData ∧ (s.entryStands g.entry g.base = true → g.waiters ≠ [] →
          ∃ x ∈ t.mem.atsRequests, x.entry = g.entry ∧ x.waiters ≠ [])) ∧
      (∃ t, exec (.pageRequestResponse i .invalid) s = .next t ∧ (∀ x ∈ t.mem.groups, x.index ≠ i.val) ∧
        (∀ w ∈ g.waiters, (w, 3) ∈ t.mem.decided) ∧ t.memData = s.memData) ∧
      (∃ t, exec (.pageRequestResponse i .failure) s = .next t ∧ (∀ x ∈ t.mem.groups, x.index ≠ i.val) ∧
        (∀ w ∈ g.waiters, (w, 5) ∈ t.mem.decided) ∧ t.mem.priUnavailable = true ∧ t.memData = s.memData) ∧
      (∃ t, exec (.prTimeout i) s = .next t ∧ (∀ x ∈ t.mem.groups, x.index ≠ i.val) ∧
        (∀ w ∈ g.waiters, (w, 4) ∈ t.mem.decided) ∧ t.memData = s.memData)) ∧
    (∀ (s : State) (i : Fin 32) (base pages : BitVec 52), s.inReset = false →
      (s.hi.atsEnable = true → i.val ∉ s.mem.invalidations →
        ∃ t, exec (.atsInvalidate i base pages) s = .next t ∧ t.mem.invalidations = s.mem.invalidations ++ [i.val] ∧
          t.fld Reg.MMU_INVALIDATIONS = (s.fld Reg.MMU_INVALIDATIONS + 1) % 2 ^ 64 ∧ t.memData = s.memData ∧
          ∀ x, x ∈ t.mem.atc ↔ x ∈ s.mem.atc ∧
            ¬ (x.base < 4096 * (base.toNat + pages.toNat) ∧ 4096 * base.toNat < x.base + x.length)) ∧
      ∃ t, exec (.invalidationCompletion i) s = .next t ∧ i.val ∉ t.mem.invalidations ∧ t.regs = s.regs ∧
        t.mem.atc = s.mem.atc ∧ t.memData = s.memData)

/-- DMA_COPY, DMA_FILL, DMA_RING, DMA_RESUME and DMA_ABORT have their effect. DMA_COPY and DMA_FILL whose checks hold
join the engine named, or one with the fewest held descriptors, and run at once on an engine that holds none. DMA_RING
of a configured ring on such an engine captures position and length, and with nothing to move is reported at once.
DMA_RESUME of an occupied slot of such an engine takes the transfer from it and goes on; one whose time has run out is
reported 0x60, and a slot emptied by a reset 0x20. DMA_ABORT frees a slot, ends the one held transfer of its queue and
tag, at the next chunk boundary where it runs, or reports that it found none. Says the completion of: dmaCopy,
dmaRing, dmaFill, dmaResume, dmaAbort. (R320, R321, R322, R323, R324, R327, R328, R329, R330, R331, R336) -/
def Obligations.DmaCommands : Prop :=
  ∀ (s : State) (q : BitVec 8) (e : Entry) (c : Cmd), s.serves q e → c = s.taken q.toNat e → s.dmaTakes c →
      (∀ n, ∀ x ∈ (s.dmaRec n).held, x.order < s.dma.fetched) →
      (∀ i src, (Entry.opcode e = 0x70 ∧ i = Instr.dmaCopy q e ∧ src = DmaSource.copy (c.field 8 8) ∧ c.field 8 8 < 2 ^ 48) ∨
          (Entry.opcode e = 0x72 ∧ i = Instr.dmaFill q e ∧ src = DmaSource.fill (c.field 8 8)) →
        c.reservedSet [dmaFlags, (8, 8), (16, 8), (24, 8), (32, 8)] = false → c.badLength = false → c.field 16 8 < 2 ^ 48 →
        ∃ t n x, exec i s = .next t ∧ s.dmaChosen c n ∧ x ∈ (t.dmaRec n).held ∧ x.cmd = c ∧ x.source = src ∧
          x.dest = c.field 16 8 ∧ x.length = c.field 24 8 ∧ x.cls = c.priority ∧ x.done = 0 ∧ x.limit = c.field 32 8 ∧
          x.poisonStop = bitOf c.flags 1 ∧ t.memData = s.memData ∧
          ((s.dmaRec n).held = [] → bitOf c.flags 0 = false → x.running = true)) ∧
      (∀ src, Entry.opcode e = 0x71 → c.reservedSet [dmaFlags, (8, 1), (9, 1), (10, 2), (16, 8), (24, 8), (32, 8)] = false →
        c.field 9 1 < 8 → c.field 16 8 < 2 ^ 48 → bitOf c.flags 0 = false → c.target < 8 → (s.dmaRec c.target).held = [] →
        (c.field 8 1 = 0 ∧ c.field 10 2 < 64 ∧ s.present (seqUnit (c.field 10 2)) = true ∧
            src = DmaSource.ream (c.field 10 2) (c.field 9 1)) ∨
          (c.field 8 1 = 1 ∧ c.field 10 2 < 32 ∧ s.present (c.field 10 2) = true ∧ src = DmaSource.digitizer (c.field 10 2)) →
        s.ringApplied src = true →
        ∃ t, exec (.dmaRing q e) s = .next t ∧ t.memData = s.memData ∧
          ((s.ringSpan src (c.field 24 8)).2 = 0 → t.reported c 0 dmaRefusal ∧ (t.dmaRec c.target).held = []) ∧
          ((s.ringSpan src (c.field 24 8)).2 ≠ 0 → ∃ x, (t.dmaRec c.target).held = [x] ∧ x.cmd = c ∧ x.source = src ∧
            x.running = true ∧ x.origin = (s.ringSpan src (c.field 24 8)).1 ∧ x.length = (s.ringSpan src (c.field 24 8)).2 ∧
            x.dest = c.field 16 8 ∧ x.done = 0)) ∧
      (Entry.opcode e = 0x73 → c.reservedSet [dmaFlags, (8, 1)] = false → c.field 8 1 < 16 → c.target < 8 →
        (∀ x, SMap.find (s.dmaRec c.target).slots (c.field 8 1) = some x →
          ∃ t, exec (.dmaResume q e) s = .next t ∧ SMap.find (t.dmaRec c.target).slots (c.field 8 1) = none ∧
            (x.expired = true → t.reported c 0x60 (dmaResult x.done none none x.poisoned x.preemptions)) ∧
            (x.expired = false → x.started = true → x.parked = none → (s.dmaRec c.target).held = [] → bitOf c.flags 0 = false →
              ∃ y, (t.dmaRec c.target).held = [y] ∧ y.cmd = c ∧ y.running = true ∧ y.done = x.done ∧ y.source = x.source ∧
                y.dest = x.dest ∧ y.length = x.length)) ∧
        (SMap.find (s.dmaRec c.target).slots (c.field 8 1) = none → c.field 8 1 ∈ (s.dmaRec c.target).emptied →
          ∃ t, exec (.dmaResume q e) s = .next t ∧ t.reported c 0x20 dmaRefusal ∧
            c.field 8 1 ∉ (t.dmaRec c.target).emptied)) ∧
      (Entry.opcode e = 0x74 → c.reservedSet [dmaFlags, (8, 1), (9, 1), (10, 2), (12, 2)] = false → c.field 9 1 < 16 →
        c.target < 8 →
        (bitOf c.flags 0 = true → s.earlierDma c ≠ [] → c.field 8 1 ≤ 1 →
          ∃ t, exec (.dmaAbort q e) s = .next t ∧ t.held = s.held ++ [⟨c, .fence (s.earlierDma c)⟩] ∧ t.dma = s.dma) ∧
        (bitOf c.flags 0 = false → c.field 8 1 = 0 →
          ∃ t, exec (.dmaAbort q e) s = .next t ∧ SMap.find (t.dmaRec c.target).slots (c.field 9 1) = none ∧
            (t.dmaRec c.target).held = (s.dmaRec c.target).held ∧
            (c.field 9 1 ∉ (s.dmaRec c.target).emptied →
              t.reported c 0 (b2n (SMap.find (s.dmaRec c.target).slots (c.field 9 1)).isSome))) ∧
        (bitOf c.flags 0 = false → c.field 8 1 = 1 →
          ∃ t, exec (.dmaAbort q e) s = .next t ∧
            (∀ x, s.heldOf c.target (c.field 10 2) (c.field 12 2) = [(c.target, x)] → t.reported c 0 1 ∧
              (x.running = true → ∃ y ∈ (t.dmaRec c.target).held, y.cmd = x.cmd ∧ y.aborted = true) ∧
              (x.running = false → x.poisoned = 0 → x.cmd.epoch = s.hi.epoch →
                t.reported x.cmd 1 (dmaResult x.done none none 0 x.preemptions))) ∧
            (s.heldOf c.target (c.field 10 2) (c.field 12 2) = [] → s.slotOf c.target (c.field 10 2) (c.field 12 2) = none →
              t.reported c 0 0 ∧ t.dma = s.dma)))

/-- A chunk moves its bytes, parks or suspends; descriptors age and run out of time. DMA_CHUNK_COMPLETE of an engine
with one transfer, that runs, has met no poison and is not to stop. A chunk that is read and written counts; DONE
grows by its bytes, memory holds what the writes left, a ring moves on, and the transfer goes on, or ends with status
0 where it is whole. A chunk that waits for a page parks the transfer. One that faults suspends it in the lowest slot,
reports the fault, and raises the event. DESCRIPTOR_AGEING of a waiting descriptor raises its class by a step, three
at most. DMA_TIME_LIMIT marks a running or a suspended transfer, and ends one that does not run with 0x60. Says the
completion of: dmaChunkComplete, descriptorAgeing, dmaTimeLimit. (R321, R322, R323, R324, R326, R327, R330, R331) -/
def Obligations.DmaChunks : Prop :=
  (∀ (s : State) (e : Fin 8) (begun : Fin 8) (landed : List (Fin 7)) (x : Transfer) (n : Nat), s.inReset = false →
      (s.dmaRec e.val).held = [x] → x.running = true → x.poisoned = 0 → x.expired = false → x.aborted = false →
      x.parked = none → x.fence = [] → x.started = true → n = min 4096 (x.length - x.done) →
      (∀ data u w p v, (∀ pat, x.source ≠ .fill pat) → s.chunkRead (dmaCtx e.val x) x x.done n = (.ok data none, u) →
        u.poisonedIn (s.dmaSegments x x.done n) n = 0 →
        (u.bump (Reg.DMA_BYTES_READ e.val) n).chunkWrite (dmaCtx e.val x) x x.done data false = (.ok w p, v) →
        ∃ t, exec (.dmaChunkComplete e begun landed) s = .next t ∧
          (x.length ≤ x.done + n → x.cmd.epoch = s.hi.epoch → (t.dmaRec e.val).held = [] ∧
            t.reported x.cmd 0 (dmaResult (x.done + n) none none 0 x.preemptions)) ∧
          (x.done + n < x.length → ∃ y, (t.dmaRec e.val).held = [y] ∧ y.done = x.done + n ∧ y.running = true) ∧
          (∀ va, x.source = .copy va → t.memData = v.memData) ∧
          ∀ k j, x.source = .ream k j → k < 64 → j < 8 → v.fld (Reg.Q_READ k j) < x.origin + (x.done + n) →
            t.fld (Reg.Q_READ k j) = (x.origin + (x.done + n)) % 2 ^ 64) ∧
      (∀ pat w p v, x.source = .fill pat → s.chunkWrite (dmaCtx e.val x) x x.done
          ((List.range n).map (fun j => BitVec.ofNat 8 (bitsOf pat (8 * ((x.done + j) % 8)) 8))) false = (.ok w p, v) →
        ∃ t, exec (.dmaChunkComplete e begun landed) s = .next t ∧ t.memData = v.memData ∧
          (x.length ≤ x.done + n → x.cmd.epoch = s.hi.epoch → (t.dmaRec e.val).held = [] ∧
            t.reported x.cmd 0 (dmaResult (x.done + n) none none 0 x.preemptions)) ∧
          (x.done + n < x.length → ∃ y, (t.dmaRec e.val).held = [y] ∧ y.done = x.done + n ∧ y.running = true)) ∧
      (∀ va u, s.chunkRead (dmaCtx e.val x) x x.done n = (.wait va, u) →
        ∃ t y, exec (.dmaChunkComplete e begun landed) s = .next t ∧ (t.dmaRec e.val).held = [y] ∧
          y.parked = some (va, false) ∧ y.running = false ∧ y.done = x.done ∧ t.memData = u.memData ∧
          t.fld (Reg.DMA_PAGE_WAITS e.val) = (u.fld (Reg.DMA_PAGE_WAITS e.val) + 1) % 2 ^ 64) ∧
      (∀ va k b u, s.chunkRead (dmaCtx e.val x) x x.done n = (.fault va k b, u) →
        u.poisonedIn (s.dmaSegments x x.done n) b = 0 → (s.dmaRec e.val).slots = [] →
        ∃ t y, exec (.dmaChunkComplete e begun landed) s = .next t ∧ (t.dmaRec e.val).held = [] ∧
          SMap.find (t.dmaRec e.val).slots 0 = some y ∧ y.done = x.done ∧ y.cmd = x.cmd ∧ u.raised t 11 e.val 0 ∧
          (x.cmd.epoch = s.hi.epoch →
            t.reported x.cmd (kindStatus k) (dmaResult x.done (some (va, k)) (some 0) 0 x.preemptions)))) ∧
    (∀ (s : State) (e : Fin 8) (k : Fin 32) (x : Transfer), s.inReset = false → (s.dmaRec e.val).held[k.val]? = some x →
      (s.fld Reg.DMA_COMMON_AGE_LIMIT ≠ 0 → x.running = false →
        ∃ t, exec (.descriptorAgeing e k) s = .next t ∧ (t.dmaRec e.val).held[k.val]? = some { x with age := min 3 (x.age + 1) } ∧
          t.regs = s.regs ∧ t.memData = s.memData) ∧
      (x.limit ≠ 0 → x.started = true →
        ∃ t, exec (.dmaTimeLimit e false k) s = .next t ∧ t.memData = s.memData ∧
          (x.running = true → (t.dmaRec e.val).held[k.val]? = some { x with expired := true }) ∧
          (x.running = false → x.poisoned = 0 → x.cmd.epoch = s.hi.epoch →
            t.reported x.cmd 0x60 (dmaResult x.done none none 0 x.preemptions)))) ∧
    (∀ (s : State) (e : Fin 8) (k : Fin 32) (x : Transfer), s.inReset = false → SMap.find (s.dmaRec e.val).slots k.val = some x →
      ∃ t, exec (.dmaTimeLimit e true k) s = .next t ∧ t.regs = s.regs ∧ t.memData = s.memData ∧
        SMap.find (t.dmaRec e.val).slots k.val = some { x with expired := decide (x.limit ≠ 0) })

/-- A Felt port trains, meets a mismatch, retrains and goes down. A detected partner takes DETECT or RETRAIN to state
2; the end of equalisation goes to HANDSHAKE, with ID0 and ID1 sent, or back to DETECT; MISMATCH is tried again. Loss
of block lock, or RETRAIN written, takes UP to RETRAIN and counts. A retrain that is out of time ends in DOWN, with
the port's packets discarded, and DOWN ends in DETECT. ID0 keeps the neighbour; a block with a wrong CRC only counts;
ID1 ends the handshake in UP or in MISMATCH with the first check that fails, and either is noticed. Says the
completion of: partnerDetect, equaliseEnd, mismatchRetry, blockLockLoss, retrain, retrainTimeout, downTimeout, id0,
id1. (R360, R362, R363, R371, R386) -/
def Obligations.FeltPortsTrain : Prop :=
  ∀ (s : State) (p : Fin 4), s.inReset = false →
      (s.portState p.val = 1 ∨ s.portState p.val = 6 →
        ∃ t, exec (.partnerDetect p) s = .next t ∧ t.portState p.val = 2 ∧
          (s.portState p.val = 1 → (t.port p.val).fresh = true) ∧ t.memData = s.memData) ∧
      (s.portState p.val = 2 →
        (∃ t, exec (.equaliseEnd p true) s = .next t ∧ t.portState p.val = 3 ∧ (t.port p.val).due = (s.port p.val).due ++
          [(0x87, s.node + 2 ^ 16 * p.val + 2 ^ 18 * s.extentX + 2 ^ 27 * s.extentY + 2 ^ 36),
            (0x99, s.fld Reg.FELT_CFG_TIME_ROOT)]) ∧
        ∃ t, exec (.equaliseEnd p false) s = .next t ∧ t.portState p.val = 1 ∧ (t.port p.val).retraining = false) ∧
      (s.portState p.val = 5 → ∃ t, exec (.mismatchRetry p) s = .next t ∧ t.portState p.val = 3) ∧
      (s.portState p.val = 4 →
        (∃ t, exec (.blockLockLoss p) s = .next t ∧ t.portState p.val = 6 ∧ (t.port p.val).retraining = true ∧
          t.fld (Reg.PORT_RETRAINS p.val) = (s.fld (Reg.PORT_RETRAINS p.val) + 1) % 2 ^ 64) ∧
        (s.writable (Reg.portB p.val) → s.portOff p.val = false →
          ∃ t, exec (.retrain p) s = .next t ∧ t.portState p.val = 6 ∧ (t.port p.val).retraining = true)) ∧
      ((s.port p.val).retraining = true → s.portState p.val ≠ 4 →
        ∃ t, exec (.retrainTimeout p) s = .next t ∧ t.portState p.val = 7 ∧ (t.port p.val).replay = [] ∧
          (t.port p.val).inBuf = [] ∧ s.raised t 12 p.val 7 ∧
          t.fld Reg.FELT_DISCARDED_PKTS =
            (s.fld Reg.FELT_DISCARDED_PKTS + ((s.port p.val).replay.length + (s.port p.val).inBuf.length)) % 2 ^ 64) ∧
      (s.portState p.val = 7 →
        ∃ t, exec (.downTimeout p) s = .next t ∧ t.portState p.val = 1 ∧ (t.port p.val).fresh = true) ∧
      ∀ (content : BitVec 48) (crc : BitVec 8), 3 ≤ s.portState p.val → s.portState p.val < 6 →
        (crc8 (leBytes 0x87 1 ++ leBytes content.toNat 6) = crc.toNat →
          ∃ t, exec (.id0 p content crc) s = .next t ∧ (t.port p.val).id0 = some content.toNat ∧
            t.fld (Reg.PORT_STATUS_NEIGHBOUR p.val) = content.toNat % 2 ^ 16 ∧ t.portState p.val = s.portState p.val) ∧
        (crc8 (leBytes 0x87 1 ++ leBytes content.toNat 6) ≠ crc.toNat →
          ∃ t, exec (.id0 p content crc) s = .next t ∧ s.onlyRegs t [Reg.PORT_CRC_ERRORS p.val] ∧
            t.fld (Reg.PORT_CRC_ERRORS p.val) = (s.fld (Reg.PORT_CRC_ERRORS p.val) + 1) % 2 ^ 64) ∧
        ∀ id0, s.portState p.val = 3 → (s.port p.val).id0 = some id0 →
          crc8 (leBytes 0x99 1 ++ leBytes content.toNat 6) = crc.toNat →
          ∃ t, exec (.id1 p content crc) s = .next t ∧ t.flag (Reg.PORT_STATUS_STATE_CHANGE p.val) = true ∧
            t.fld (Reg.PORT_STATUS_MISMATCH p.val) = s.mismatch p.val id0 content.toNat ∧
            (s.mismatch p.val id0 content.toNat = 0 → t.portState p.val = 4 ∧ s.raised t 12 p.val 4) ∧
            (s.mismatch p.val id0 content.toNat ≠ 0 → t.portState p.val = 5 ∧ s.raised t 12 p.val 5)

/-- Credits, acknowledgements, replay and packet reception on a port in UP. On a port in UP. CREDIT replaces the
counts that the neighbour returned; ACK removes what it acknowledges from the replay buffer, and progress ends the
resend episodes. NAK and the replay timer send again what is kept from the place named, count it, and on the 16th
episode without progress retrain. The credit and ack timers send what is due once. A packet of the SEQ expected enters
the input buffer; one of an earlier SEQ is dropped with an ACK due; one beyond, or one whose CRC is wrong, leads to a
single NAK. Says the completion of: credit, ack, nak, replayTimeout, creditTimer, ackTimer, packetReceive. (R363,
R364, R365, R366, R367) -/
def Obligations.FeltLinkReplays : Prop :=
  ∀ (s : State) (p : Fin 4), s.inReset = false → s.portState p.val = 4 →
      (∀ (content : BitVec 48) (crc : BitVec 8),
        (crc8 (leBytes 0x2D 1 ++ leBytes content.toNat 6) = crc.toNat →
          ∃ t, exec (.credit p content crc) s = .next t ∧ t.regs = s.regs ∧
            t.port p.val = { s.port p.val with given := (List.range 4).map (fun v => bitsOf content.toNat (12 * v) 12) }) ∧
        (crc8 (leBytes 0x33 1 ++ leBytes content.toNat 6) = crc.toNat →
          ∃ t, exec (.ack p content crc) s = .next t ∧ t.regs = s.regs ∧
            (t.port p.val).replay = acknowledged (s.port p.val).replay (content.toNat % 4096) ∧
            ((t.port p.val).replay.length ≠ (s.port p.val).replay.length → (t.port p.val).episodes = 0)) ∧
        ∀ l, crc8 (leBytes 0x4B 1 ++ leBytes content.toNat 6) = crc.toNat →
          l = (s.port p.val).replay.dropWhile (fun r => decide (r.seq ≠ content.toNat % 4096)) →
          ∃ t, exec (.nak p content crc) s = .next t ∧ (t.port p.val).replay = (s.port p.val).replay ∧
            (l ≠ [] → t.fld (Reg.PORT_REPLAYS p.val) = (s.fld (Reg.PORT_REPLAYS p.val) + 1) % 2 ^ 64 ∧
              t.portState p.val = if 15 ≤ (s.port p.val).episodes then 6 else 4)) ∧
      (∃ t, exec (.replayTimeout p) s = .next t ∧ (t.port p.val).replay = (s.port p.val).replay ∧
        ((s.port p.val).replay ≠ [] → t.fld (Reg.PORT_REPLAYS p.val) = (s.fld (Reg.PORT_REPLAYS p.val) + 1) % 2 ^ 64 ∧
          t.portState p.val = if 15 ≤ (s.port p.val).episodes then 6 else 4)) ∧
      ((s.port p.val).creditDue = true →
        ∃ t f, exec (.creditTimer p) s = .next t ∧ (t.port p.val).due = (s.port p.val).due ++ [(0x2D, f)] ∧
          (t.port p.val).creditDue = false ∧
          f = (((s.port p.val).freed.mapIdx (fun v n => n * 2 ^ (12 * v))).foldl (· + ·) 0)) ∧
      ((s.port p.val).ackDue = true →
        ∃ t, exec (.ackTimer p) s = .next t ∧ (t.port p.val).ackDue = false ∧
          (t.port p.val).due = (s.port p.val).due ++ [(0x33, ((s.port p.val).rxSeq + 4095) % 4096)]) ∧
      ∀ l : List (BitVec 64),
        (packetOf l = none → (s.port p.val).nak = false →
          ∃ t, exec (.packetReceive p l) s = .next t ∧ (t.port p.val).nak = true ∧
            (t.port p.val).inBuf = (s.port p.val).inBuf ∧
            (t.port p.val).due = (s.port p.val).due ++ [(0x4B, (s.port p.val).rxSeq)] ∧
            t.fld (Reg.PORT_CRC_ERRORS p.val) = (s.fld (Reg.PORT_CRC_ERRORS p.val) + 1) % 2 ^ 64) ∧
        ∀ k seq d, packetOf l = some (k, seq) → d = (seq + 4096 - (s.port p.val).rxSeq) % 4096 →
          ∃ t, exec (.packetReceive p l) s = .next t ∧
            (d = 0 → (t.port p.val).rxSeq = ((s.port p.val).rxSeq + 1) % 4096 ∧ (t.port p.val).ackDue = true ∧
              ∃ x, (t.port p.val).inBuf = (s.port p.val).inBuf ++ [x] ∧ x.pkt = k ∧
                x.here = (decide (k.dest = everyNode) || decide (k.dest = s.node))) ∧
            (2048 ≤ d → (t.port p.val).inBuf = (s.port p.val).inBuf ∧ (t.port p.val).ackDue = true ∧
              (t.port p.val).rxSeq = (s.port p.val).rxSeq ∧ (t.port p.val).due = (s.port p.val).due) ∧
            (d ≠ 0 → d < 2048 → (s.port p.val).nak = false → (t.port p.val).inBuf = (s.port p.val).inBuf ∧
              (t.port p.val).due = (s.port p.val).due ++ [(0x4B, (s.port p.val).rxSeq)])

/-- Synchronisation messages measure the hops, carry the time, lock the counter and lose it. On a port in UP. A hop-
delay exchange is numbered and its time kept; a request is answered with the time it stayed; an answer to the open
exchange ends it and updates HOP_DELAY, valid after 64. A pulse from the sync parent sets OFFSET: one far off in
ACQUIRING steps the counter once; the 64th in a row within 10 ps locks it, the 8th in a row beyond 100 ps unlocks it;
ADJ stays within its limit, where the model leaves it free (DESIGN CHOICE, the free-value log entry). The time blocks
go to every port in UP. A neighbour's depth and state, and the upper time, are kept. LOCKED without a pulse in its
time becomes HOLDOVER. Says the completion of: syncExchangeTimer, syncReq, syncRsp, syncPulse, syncInfo, timeHi,
syncPulseTimer, holdoverTimeout. (R377, R378, R379, R380) -/
def Obligations.CellTimeFollows : Prop :=
  (∀ (s : State) (p : Fin 4), s.inReset = false → s.portState p.val = 4 →
      (∀ t1 : BitVec 64, ∃ t, exec (.syncExchangeTimer p t1) s = .next t ∧ (t.port p.val).t1 = some t1.toNat ∧ t.regs = s.regs ∧
        (t.port p.val).exchange = ((s.port p.val).exchange + 1) % 256 ∧
        (t.port p.val).due = (s.port p.val).due ++ [(0x55, ((s.port p.val).exchange + 1) % 256)]) ∧
      (∀ (content : BitVec 48) (crc : BitVec 8),
        (∀ t2 t3 : BitVec 64, crc8 (leBytes 0x55 1 ++ leBytes content.toNat 6) = crc.toNat →
          ∃ t, exec (.syncReq p content crc t2 t3) s = .next t ∧ t.regs = s.regs ∧ (t.port p.val).due =
            (s.port p.val).due ++ [(0x66, content.toNat % 256 + 2 ^ 8 * ((t3 - t2).toNat % 2 ^ 40))]) ∧
        (∀ (t4 : BitVec 64) (t1 : Nat) (l : List Int), crc8 (leBytes 0x66 1 ++ leBytes content.toNat 6) = crc.toNat →
          (s.port p.val).t1 = some t1 → content.toNat % 256 = (s.port p.val).exchange →
          l = ((s.port p.val).delays ++ [((((t4.toNat + 2 ^ 64 - t1) % 2 ^ 64 : Nat) : Int) - (bitsOf content.toNat 8 40 : Int)) / 2]).drop
            ((s.port p.val).delays.length + 1 - 64) →
          ∃ t, exec (.syncRsp p content crc t4) s = .next t ∧ (t.port p.val).t1 = none ∧ (t.port p.val).delays = l ∧
            t.fld (Reg.HOP_DELAY p.val) = ofSigned 64 (l.sum / (l.length : Int)) ∧
            (l.length = 64 → t.flag (Reg.PORT_STATUS_HOP_VALID p.val) = true)) ∧
        (crc8 (leBytes 0xB4 1 ++ leBytes content.toNat 6) = crc.toNat →
          ∃ t, exec (.syncInfo p content crc) s = .next t ∧ t.regs = s.regs ∧
            (t.port p.val).info = some (content.toNat % 2 ^ 9, bitsOf content.toNat 9 3)) ∧
        (crc8 (leBytes 0xC3 1 ++ leBytes content.toNat 6) = crc.toNat →
          ∃ t, exec (.timeHi p content crc) s = .next t ∧ t.regs = s.regs ∧ (t.port p.val).timeHi = some content.toNat) ∧
        ∀ (ta : BitVec 64) (d : Int), crc8 (leBytes 0x78 1 ++ leBytes content.toNat 6) = crc.toNat → s.isTimeRoot = false →
          s.syncParent = some p.val → 2 ≤ s.fld Reg.FELT_STATUS_SYNC_STATE →
          d = toSigned 64 ((s.pulseTime p.val content.toNat + s.fld (Reg.HOP_DELAY p.val) + 2 ^ 64 - ta.toNat) % 2 ^ 64) →
          ∃ t, exec (.syncPulse p content crc ta) s = .next t ∧ t.fld Reg.OFFSET = ofSigned 64 d ∧
            (∀ h, (s.port p.val).timeHi = some h → s.fld Reg.FELT_STATUS_SYNC_STATE = 2 → s.felt.stepped = false →
              1000000 < d.natAbs → t.now = ofSigned 64 ((s.now : Int) + d) ∧ t.felt.stepped = true) ∧
            (d.natAbs ≤ 100 → t.fld Reg.CELL_TIME = s.fld Reg.CELL_TIME ∧
              (s.fld Reg.FELT_STATUS_SYNC_STATE ≠ 4 → t.felt.adj.natAbs ≤ adjLimit)) ∧
            (s.fld Reg.FELT_STATUS_SYNC_STATE = 2 → d.natAbs ≤ 10 → 63 ≤ s.felt.near →
              t.fld Reg.FELT_STATUS_SYNC_STATE = 3 ∧ s.raised t 13 0 3) ∧
            (s.fld Reg.FELT_STATUS_SYNC_STATE = 3 → 100 < d.natAbs →
              t.fld Reg.FELT_STATUS_SYNC_STATE = if 7 ≤ s.felt.far then 2 else 3))) ∧
    (∀ (s : State) (c : BitVec 64) (hi : Bool), s.inReset = false →
      ∃ t, exec (.syncPulseTimer c hi) s = .next t ∧ t.regs = s.regs ∧ ∀ p < 4, s.portState p = 4 →
        (t.port p).due = (s.port p).due ++ [(0x78, c.toNat % 2 ^ 48),
          (0xB4, s.fld Reg.FELT_STATUS_SYNC_DEPTH + 2 ^ 9 * s.fld Reg.FELT_STATUS_SYNC_STATE)] ++
          (if hi then [(0xC3, bitsOf s.now 48 16 + 2 ^ 16 * s.fld Reg.EPOCH)] else [])) ∧
    (∀ s : State, s.inReset = false → s.fld Reg.FELT_STATUS_SYNC_STATE = 3 →
      ∃ t, exec .holdoverTimeout s = .next t ∧ t.fld Reg.FELT_STATUS_SYNC_STATE = 4 ∧ s.raised t 13 0 4)

/-- Remote requests, their answers, FELT_COPY, reduction parts and link states have their effect. A WRITE_REQ for
here: refused with 0x11 where peers may not reach its region, else written and answered; a READ_REQ is answered with
what it reads. FELT_COPY whose checks hold is held by the message layer as its entry says. WRITE_RSP and READ_RSP mark
the message of the copy they answer, a failing one sets the outcome of its chunk, and RSP_TIMEOUT answers in its place
with 0x60. A REDUCE part takes a buffer of its own, joins its body, or waits while all eight are taken, and a body for
no defined test only counts; REASSEMBLY_TIMEOUT drops a body that is not whole. LINK_STATE of a newer version replaces
the state of its link. Says the completion of: writeReq, readReq, feltCopy, writeRsp, readRsp, rspTimeout, reduce,
reassemblyTimeout, linkState. (R291, R364, R371, R372, R373, R374, R375, R376) -/
def Obligations.FeltMessagesAct : Prop :=
  (∀ (s : State) (p : Fin 4) (e : InPacket) (va n : Nat), s.inReset = false → s.idling = false → e.outs = [] →
      e.pkt.src ≠ everyNode → va = e.pkt.reqVa → n = e.pkt.reqBytes →
      (s.arrived p.val 0 = some e →
        (s.peerMay va = false →
          ∃ t, exec (.writeReq p) s = .next t ∧ s.replied t p.val e 2 0x11 2 [] 0 ∧ t.memData = s.memData) ∧
        (∀ w f u, s.peerMay va = true → s.writePayload (feltCtx p.val) va (e.pkt.data n) e.pkt.poison = (.ok w f, u) →
          ∃ t, exec (.writeReq p) s = .next t ∧ s.replied t p.val e 2 0 0xFF [] 0 ∧ t.memData = u.memData) ∧
        (∀ a k m u, s.peerMay va = true → s.writePayload (feltCtx p.val) va (e.pkt.data n) e.pkt.poison = (.fault a k m, u) →
          ∃ t, exec (.writeReq p) s = .next t ∧ s.replied t p.val e 2 (kindStatus k) k [] 0)) ∧
      (s.arrived p.val 1 = some e →
        (s.peerMay va = false → ∃ t, exec (.readReq p) s = .next t ∧ s.replied t p.val e 3 0x11 2 [] 0) ∧
        (∀ d u, s.peerMay va = true → dmaGather (feltCtx p.val) [(va, n)] [] none s = (.ok d none, u) →
          ∃ t, exec (.readReq p) s = .next t ∧ s.replied t p.val e 3 0 0xFF d 0 ∧ t.memData = s.memData))) ∧
    (∀ (s : State) (q : BitVec 8) (e : Entry) (c : Cmd) (node : Nat), s.serves q e → Entry.opcode e = 0xA0 →
      c = s.taken q.toNat e → node = c.field 10 2 → c.target = 0 →
      c.reservedSet [(8, 1), (10, 2), (16, 8), (24, 8), (32, 8), (40, 8)] = false → c.field 8 1 ≤ 1 → c.field 16 8 < 2 ^ 48 →
      c.field 24 8 < 2 ^ 48 → 0 < c.field 32 8 → c.field 32 8 ≤ 2 ^ 40 → node ≠ s.node → nodeX node < s.extentX →
      nodeY node < s.extentY → firstFailing (s.feltChecks [memUnit]) = none →
      ∃ t x, exec (.feltCopy q e) s = .next t ∧ t.felt.copies = s.felt.copies ++ [x] ∧ x.cmd = c ∧ x.node = node ∧
        x.toRemote = decide (c.field 8 1 = 0) ∧ x.near = c.field 16 8 ∧ x.far = c.field 24 8 ∧ x.length = c.field 32 8 ∧
        x.limit = c.field 40 8 ∧ x.cls = c.priority ∧ x.done = 0 ∧ t.memData = s.memData) ∧
    (∀ (s : State) (p : Fin 4) (e : InPacket) (tid st kind : Nat) (x : FeltCopy) (m : CopyMsg), s.inReset = false →
      s.felt.copies.find? (fun x => x.flight.any (fun m => decide (m.tid = tid) && !m.answered)) = some x →
      x.flight.find? (fun m => decide (m.tid = tid) && !m.answered) = some m →
      st = e.pkt.flit 0 % 256 → kind = bitsOf (e.pkt.flit 0) 8 8 →
      (s.arrived p.val 2 = some e → e.outs = [] → e.pkt.tid = tid →
        ∃ t, exec (.writeRsp p) s = .next t ∧ s.takenAt t p.val e ∧ t.memData = s.memData ∧
          t.felt.copies = s.felt.copies.map (fun y => if y.cmd = x.cmd then
            (if st = 0 then y.answer { m with answered := true } else
              { y.answer { m with answered := true } with
                  outcome := some (worseOutcome y.outcome (st, y.far + m.off, kind, 1)) }) else y)) ∧
      (s.arrived p.val 3 = some e → e.outs = [] → e.pkt.tid = tid → st = 0 →
        ∃ t, exec (.readRsp p) s = .next t ∧ s.takenAt t p.val e ∧ t.memData = s.memData ∧
          t.felt.copies = s.felt.copies.map (fun y => if y.cmd = x.cmd then
            { y.answer { m with answered := true, data := e.pkt.data m.size, poison := e.pkt.poison } with
                poisoned := y.poisoned + (setBits e.pkt.poison 4).length } else y)) ∧
      (tid < 2 ^ 12 →
        ∃ t, exec (.rspTimeout (BitVec.ofNat 12 tid)) s = .next t ∧
          t.fld Reg.FELT_RSP_TIMEOUTS = (s.fld Reg.FELT_RSP_TIMEOUTS + 1) % 2 ^ 64 ∧
          t.felt.copies = s.felt.copies.map (fun y => if y.cmd = x.cmd then
            { y.answer { m with answered := true } with
                outcome := some (worseOutcome y.outcome (0x60, 0, 0xFF, 2)) } else y))) ∧
    (∀ (s : State) (p : Fin 4) (e : InPacket) (r : Reassembly), s.inReset = false → s.idling = false → e.outs = [] →
      s.arrived p.val 4 = some e →
      r = { src := e.pkt.src, test := bitsOf (e.pkt.flit 0) 0 16, round := bitsOf (e.pkt.flit 0) 16 16
            kind := bitsOf (e.pkt.flit 0) 32 8, check := bitsOf (e.pkt.flit 1) 0 32, parts := bitsOf (e.pkt.flit 0) 52 12 + 1
            got := [(bitsOf (e.pkt.flit 0) 40 12, e.pkt.flits.drop 2)] } →
      (s.felt.reassembly.any r.sameBody = false → s.felt.reassembly.length < 8 → r.parts ≠ 1 → bitsOf (e.pkt.flit 0) 40 12 < r.parts →
        (∀ x ∈ s.felt.reassembly, x.got.length ≠ x.parts) →
        ∃ t, exec (.reduce p) s = .next t ∧ s.takenAt t p.val e ∧ t.felt.reassembly = s.felt.reassembly ++ [r]) ∧
      (∀ x, s.felt.reassembly = [x] → r.sameBody x = true → SMap.find x.got (bitsOf (e.pkt.flit 0) 40 12) = none →
        bitsOf (e.pkt.flit 0) 40 12 < x.parts → (SMap.put x.got (bitsOf (e.pkt.flit 0) 40 12) (e.pkt.flits.drop 2)).length ≠ x.parts →
        ∃ t, exec (.reduce p) s = .next t ∧ s.takenAt t p.val e ∧ t.felt.reassembly =
          [{ x with got := SMap.put x.got (bitsOf (e.pkt.flit 0) 40 12) (e.pkt.flits.drop 2) }]) ∧
      (s.felt.reassembly.any r.sameBody = false → bitsOf (e.pkt.flit 0) 40 12 < r.parts → 8 ≤ s.felt.reassembly.length →
        exec (.reduce p) s = .next s) ∧
      (s.felt.reassembly = [] → r.parts = 1 → bitsOf (e.pkt.flit 0) 40 12 = 0 → r.kind = 0 → s.popFind r.test = none →
        ∃ t, exec (.reduce p) s = .next t ∧ s.takenAt t p.val e ∧ t.felt.reassembly = [] ∧ t.memData = s.memData ∧
          t.fld Reg.POP_STALE_REPORTS = (s.fld Reg.POP_STALE_REPORTS + 1) % 2 ^ 64)) ∧
    (∀ (s : State) (k : Fin 8) (r : Reassembly), s.inReset = false → s.felt.reassembly[k.val]? = some r → r.got.length ≠ r.parts →
      ∃ t, exec (.reassemblyTimeout k) s = .next t ∧ t.felt.reassembly = s.felt.reassembly.eraseIdx k.val ∧
        t.fld Reg.FELT_REASM_DROPS = (s.fld Reg.FELT_REASM_DROPS + 1) % 2 ^ 64 ∧ s.regsBut t [Reg.FELT_REASM_DROPS]) ∧
    (∀ (s : State) (p : Fin 4) (e : InPacket) (key : Nat), s.inReset = false → s.arrived p.val 7 = some e →
      key = s.linkKey (e.pkt.flit 0 % 2 ^ 16) (bitsOf (e.pkt.flit 0) 16 2) →
      ∃ t, exec (.linkState p) s = .next t ∧ t.memData = s.memData ∧
        (bitsOf (e.pkt.flit 0) 32 16 ≤ (SMap.get (0, false) s.felt.links key).1 → t.felt.links = s.felt.links) ∧
        ((SMap.get (0, false) s.felt.links key).1 < bitsOf (e.pkt.flit 0) 32 16 →
          SMap.get (0, false) t.felt.links key = (bitsOf (e.pkt.flit 0) 32 16, bitOf (e.pkt.flit 0) 18) ∧
          ∀ j, j ≠ key → SMap.find t.felt.links j = SMap.find s.felt.links j))

/-- FELT_SCHEDULE, FELT_CANCEL and FELT_TIME_SET; starts armed, refused, cancelled and fired. FELT_SCHEDULE whose
checks hold arms the start here where a slot is free and asks every device; it waits for the answers while another
device is reachable, and its time limit reports it with what has answered. FELT_CANCEL does the same to cancel a start
at least 10 µs ahead. FELT_TIME_SET sets counter and EPOCH. START arms or refuses and is acknowledged, as is CANCEL;
START_ACK counts for the command that waits. At the fill deadline of a slot a bound program whose fills are still due
ends with 0x60; at the alignment every locked cluster on which no program has begun is aligned; at T the programs
bound to the slot begin, their vector 0 at T, one with a cluster that relocks ends with 0x22, and the slot is free.
Says the completion of: feltSchedule, feltCancel, feltTimeSet, scheduleTimeout, start, startAck, cancel,
startFillDeadline, startAlign, scheduledStart. (R381, R382, R383, R384) -/
def Obligations.StartsAreScheduled : Prop :=
  (∀ (s : State) (q : BitVec 8) (e : Entry) (c : Cmd) (id T : Nat), s.serves q e → c = s.taken q.toNat e → c.target = 0 →
      firstFailing (s.feltChecks []) = none → id = c.field 8 2 → T = c.field 24 4 * 2 ^ 64 + c.field 16 8 →
      (∀ k, Entry.opcode e = 0xA1 → c.reservedSet [(8, 2), (16, 8), (24, 4)] = false →
        s.fld Reg.FELT_STATUS_SYNC_STATE = 0 ∨ s.fld Reg.FELT_STATUS_SYNC_STATE = 3 → s.absNow + 10 ^ 9 ≤ T →
        T ≤ s.absNow + 60 * 10 ^ 12 → (∀ x ∈ s.felt.starts, x.2.id ≠ id) →
        (List.range 8).find? (fun k => (SMap.find s.felt.starts k).isNone) = some k →
        ∃ t, exec (.feltSchedule q e) s = .next t ∧ SMap.find t.felt.starts k = some { id := id, time := T } ∧
          (∀ n ∈ s.nodes, n ≠ s.node → s.reachable n = true →
            ∃ a ∈ t.felt.asks, a.cmd = c ∧ a.id = id ∧ a.cancels = false ∧ a.answered = [s.node] ∧ a.yes = 1 ∧ a.no = 0) ∧
          ((∀ n ∈ s.nodes, n ≠ s.node → s.reachable n = false) →
            t.reported c (if 1 = s.extentX * s.extentY then 0 else 1) (1 + 2 ^ 64 * (s.extentX * s.extentY - 1)))) ∧
      (Entry.opcode e = 0xA2 → c.reservedSet [(8, 2)] = false →
        ∃ t, exec (.feltCancel q e) s = .next t ∧
          (∀ k x, s.felt.starts.find? (fun x => decide (x.2.id = id)) = some (k, x) →
            (s.absNow + 10000000 ≤ x.time → SMap.find t.felt.starts k = none) ∧
            (x.time < s.absNow + 10000000 → t.felt.starts = s.felt.starts)) ∧
          ∀ n ∈ s.nodes, n ≠ s.node → s.reachable n = true →
            ∃ a ∈ t.felt.asks, a.cmd = c ∧ a.id = id ∧ a.cancels = true ∧ a.answered = [s.node] ∧ a.no = 0 ∧
              (s.felt.starts.find? (fun x => decide (x.2.id = id)) = none → a.yes = 0)) ∧
      (Entry.opcode e = 0xA3 → c.reservedSet [(16, 8), (24, 4)] = false → s.isTimeRoot = true → s.felt.starts = [] →
        ∃ t, exec (.feltTimeSet q e) s = .next t ∧ t.now = c.field 16 8 ∧ t.fld Reg.EPOCH = c.field 24 4 ∧ t.reported c 0 0)) ∧
    (∀ (s : State) (k : Fin 16) (a : StartAsk), s.inReset = false → s.felt.asks[k.val]? = some a → a.cmd.epoch = s.hi.epoch →
      ∃ t, exec (.scheduleTimeout k) s = .next t ∧ t.felt.asks = s.felt.asks.erase a ∧
        t.reported a.cmd (if a.yes = s.extentX * s.extentY then 0 else 1)
          (if a.cancels then a.yes else a.yes + 2 ^ 32 * a.no + 2 ^ 64 * (s.extentX * s.extentY - a.answered.length))) ∧
    (∀ (s : State) (p : Fin 4) (e : InPacket) (id : Nat), s.inReset = false → e.pkt.src ≠ everyNode → id = e.pkt.flit 0 % 2 ^ 16 →
      (s.arrived p.val 5 = some e → (∀ x ∈ s.felt.starts, x.2.id ≠ id) →
        (∀ k, (List.range 8).find? (fun k => (SMap.find s.felt.starts k).isNone) = some k →
          ∃ t, exec (.start p) s = .next t ∧ s.acked t e.pkt.src id 1 ∧
            SMap.find t.felt.starts k = some { id := id, time := e.pkt.flit 2 % 2 ^ 32 * 2 ^ 64 + e.pkt.flit 1 }) ∧
        ((List.range 8).find? (fun k => (SMap.find s.felt.starts k).isNone) = none →
          ∃ t, exec (.start p) s = .next t ∧ s.acked t e.pkt.src id 2 ∧ t.felt.starts = s.felt.starts)) ∧
      (s.arrived p.val 8 = some e →
        (∀ k x, s.felt.starts.find? (fun x => decide (x.2.id = id)) = some (k, x) → s.absNow + 10000000 ≤ x.time →
          s.boundTo k = [] →
          ∃ t, exec (.cancel p) s = .next t ∧ s.acked t e.pkt.src id 4 ∧ SMap.find t.felt.starts k = none) ∧
        (s.felt.starts.find? (fun x => decide (x.2.id = id)) = none →
          ∃ t, exec (.cancel p) s = .next t ∧ s.acked t e.pkt.src id 0 ∧ t.felt.starts = s.felt.starts)) ∧
      (∀ a n, s.arrived p.val 6 = some e →
        s.felt.asks.find? (fun a => decide (a.id = id) && !a.answered.contains e.pkt.src) = some a →
        n ∈ s.nodes → n ≠ e.pkt.src → a.answered.contains n = false → s.reachable n = true →
        ∃ t b, exec (.startAck p) s = .next t ∧ b ∈ t.felt.asks ∧ b.cmd = a.cmd ∧ b.answered = a.answered ++ [e.pkt.src] ∧
          b.yes = a.yes + b2n (bitOf (e.pkt.flit 0) (if a.cancels then 18 else 16)) ∧ b.no = a.no + b2n (bitOf (e.pkt.flit 0) 17))) ∧
    (∀ (s : State) (k : Fin 8), s.inReset = false →
      (∀ b g, s.startWithin k.val 2000000 = true → s.boundTo k.val = [b] → s.program b = some g → g.fillsDue ≠ [] →
        ∃ t, exec (.startFillDeadline k) s = .next t ∧ s.dropped t b 0x60) ∧
      (∀ x, SMap.find s.felt.starts k.val = some x →
        (x.time ≤ s.absNow + 5000000 → ∃ t, exec (.startAlign k) s = .next t ∧ t.regs = s.regs ∧ t.memData = s.memData ∧
          ∀ c < 32, s.present c = true → s.flag (Reg.CLK_STATUS_LOCKED c) = true → 
            (∀ n ∈ clusterSeqs c, (s.program (s.leaderOf n)).any (fun g => !g.scheduled) = false) →
            (SMap.get ({} : Cluster) t.clusters c).aligned = s.absNow) ∧
        (∀ b g, x.time ≤ s.absNow → s.program b = some g → g.scheduled = true → g.bound = some k.val →
          (∀ j ∈ s.boundTo k.val, ∀ c ∈ s.groupClusters j, s.flag (Reg.CLK_STATUS_RELOCKING c) = false) →
          ∃ t, exec (.scheduledStart k) s = .next t ∧ t.program b = some { g with scheduled := false, bound := none, zero := some (x.time % 2 ^ 64) } ∧
            SMap.find t.felt.starts k.val = none ∧
            (s.fld Reg.FELT_STATUS_SYNC_STATE ≠ 0 → s.fld Reg.FELT_STATUS_SYNC_STATE ≠ 3 →
              t.flag Reg.FELT_STATUS_TIME_SUSPECT = true)) ∧
        (∀ b c, x.time ≤ s.absNow → s.boundTo k.val = [b] → c ∈ s.groupClusters b → s.flag (Reg.CLK_STATUS_RELOCKING c) = true →
          ∃ t, exec (.scheduledStart k) s = .next t ∧ s.dropped t b 0x22 ∧ SMap.find t.felt.starts k.val = none)))

/-- Flash fetches, reads, time limits, and store writes have their effect. FLASH_FETCH of a buffered line hits; of
another, with the flash idle, starts a read frame at it, and else waits. FLASH_READ_DONE buffers the line in progress,
the 8 most recent of them. A missing FL_DQS is retried once and then falls back. STORE_WRITE and USAGE_LOG_WRITE with
nothing under way start the write of the payload into the bank not in use, or fail where it does not fit.
FLASH_STATUS_READ with the flash busy changes nothing; at the end of a frame its bytes are in flash, and at the end of
the last the bank written becomes active and the commands that wait complete. FLASH_BUSY_TIMEOUT fails the write with
its event. Says the completion of: flashFetch, flashReadDone, dqsTimeout, storeWrite, usageLogWrite, flashStatusRead,
flashBusyTimeout. (R390, R391, R392, R393, R396, R405, R436) -/
def Obligations.FlashActs : Prop :=
  ∀ s : State, s.inReset = false →
      (∀ line : BitVec 26,
        (line.toNat ∈ s.ser.lines →
          ∃ t, exec (.flashFetch line) s = .next t ∧ t.ser.lines = line.toNat :: s.ser.lines.erase line.toNat ∧
            t.fld Reg.FL_BUFFER_HITS = (s.fld Reg.FL_BUFFER_HITS + 1) % 2 ^ 64 ∧ s.regsBut t [Reg.FL_BUFFER_HITS]) ∧
        (line.toNat ∉ s.ser.lines → s.ser.reading = [] → s.flashBusy = false → s.ser.dir ≠ none →
          (∀ d v, s.ser.dir = some d → s.ser.cont = some v → v = d.device line.toNat) →
          ∃ t l, exec (.flashFetch line) s = .next t ∧ t.ser.reading = line.toNat :: l ∧ t.ser.lines = s.ser.lines) ∧
        (line.toNat ∉ s.ser.lines → s.ser.reading ≠ [] ∨ s.flashBusy = true →
          ∃ t, exec (.flashFetch line) s = .next t ∧ t.ser.wanted = some line.toNat ∧ t.ser.reading = s.ser.reading.take 1 ∧
            t.regs = s.regs)) ∧
      (∀ k l, s.ser.reading = k :: l → s.ser.wanted = none → (s.flashBusy = false ∨ l ≠ [] ∨ s.ser.cont = none) →
        ∃ t, exec .flashReadDone s = .next t ∧ t.ser.reading = l ∧ t.ser.lines = (k :: s.ser.lines.erase k).take 8 ∧
          t.fld Reg.FL_LINE_READS = (s.fld Reg.FL_LINE_READS + 1) % 2 ^ 64) ∧
      (∀ d, s.ser.dir = some d → s.ser.reading ≠ [] → d.onDqs = true → s.flag Reg.FL_STATUS_FALLBACK = false →
        ∃ t, exec .dqsTimeout s = .next t ∧ t.ser.reading = s.ser.reading ∧
          (s.ser.retried = false → t.ser.retried = true ∧ t.regs = s.regs) ∧
          (s.ser.retried = true → t.flag Reg.FL_STATUS_FALLBACK = true ∧ s.raised t 24 0 0)) ∧
      (∀ d bank i, s.ser.dir = some d → s.ser.jobs = [] → bank = (if s.fld Reg.STORE_STATUS_ACTIVE = 1 then 2 else 1) →
        i = Instr.storeWrite ∨ i = Instr.usageLogWrite →
        (20 + s.payload.length ≤ d.bankSize → s.flag Reg.STORE_STATUS_LAYOUT_ERR = false →
          ∃ t j seq, exec i s = .next t ∧ t.ser.jobs = [j] ∧ j.aim = .store bank seq s.payload.length ∧
            j.plan = bankFrames d (if bank = 1 then d.bankA else d.bankB) seq s.payload ∧ j.frames = j.plan ∧ j.started = true ∧
            t.flag Reg.STORE_STATUS_WRITING = true ∧ t.ser.flash = s.ser.flash ∧
            (s.fld Reg.STORE_STATUS_ACTIVE ≠ 0 → seq = (s.fld Reg.STORE_STATUS_SEQ + 1) % 2 ^ 32)) ∧
        (d.bankSize < 20 + s.payload.length → ∃ t, exec i s = .next t ∧ t.ser.jobs = [] ∧
          t.flag Reg.STORE_STATUS_WRITE_FAIL = true ∧ s.raised t 23 0 0)) ∧
      (∀ good, exec (.flashStatusRead false good) s = .next s) ∧
      (∀ j f l, s.ser.jobs = [j] → j.frames = f :: l → s.ser.reading = [] → s.ser.wanted = none →
        (l ≠ [] → f.check = false →
          ∃ t, exec (.flashStatusRead true true) s = .next t ∧ t.ser.jobs = [{ j with frames := l }] ∧ t.regs = s.regs ∧
            ∀ a, t.flashByte a = if f.addr ≤ a ∧ a < f.addr + f.span then
              (if f.erase = 0 then f.data.getD (a - f.addr) 0 else 0xFF#8) else s.flashByte a) ∧
        (∀ bank seq n, l = [] → j.bad = false → j.aim = .store bank seq n → bank < 4 → seq < 2 ^ 32 →
          ∃ t, exec (.flashStatusRead true true) s = .next t ∧ t.ser.jobs = [] ∧ t.fld Reg.STORE_STATUS_ACTIVE = bank ∧
            t.fld Reg.STORE_STATUS_SEQ = seq ∧ t.flag Reg.STORE_STATUS_WRITING = false ∧
            t.fld Reg.STORE_WRITES = (s.fld Reg.STORE_WRITES + 1) % 2 ^ Reg.STORE_WRITES.width ∧
            ∀ a ∈ j.asks, a.cmd.epoch = s.hi.epoch → t.reported a.cmd a.status a.result) ∧
        (∀ bank seq n, j.aim = .store bank seq n →
          ∃ t, exec .flashBusyTimeout s = .next t ∧ t.ser.jobs = [] ∧ t.flag Reg.STORE_STATUS_WRITE_FAIL = true ∧
            s.raised t 23 0 0 ∧ ∀ a ∈ j.asks, a.cmd.epoch = s.hi.epoch → t.reported a.cmd 0x50 a.result))

/-- The cell port takes NOP, READ and WRITE frames, and notices the loss of its controller. A port that is not up
ignores frames. A frame with errors is counted as ignored and flagged. A valid NOP is accepted: ALIVE follows, a loss
ends. A valid READ is answered, no word repeated, with the status, the words of the register space, and their CRC. A
valid WRITE to the Deckle requests, where it is not protected, asserts cause 4 for the site it names; one to another
block is refused and closes nothing. When the alive time passes with no valid frame, the loss is counted, shown and
raised, and cause 5 is asserted for the sites armed for it. Says the completion of: cellNop, cellRead, cellWrite,
aliveLoss. (R398, R399, R400, R401, R402, R403, R404) -/
def Obligations.CellPortAnswers : Prop :=
  (∀ (s : State) (f : CellFrame), s.cellUp = false →
      exec (.cellNop f) s = .next s ∧ exec (.cellRead f) s = .next s ∧ exec (.cellWrite f) s = .next s) ∧
    (∀ (s : State) (f : CellFrame), s.inReset = false → s.cellUp = true → s.cellErrors f ≠ 0 →
      ∃ t, exec (.cellNop f) s = .next t ∧ t.flag Reg.CP_STATUS_FRAME_ERR = true ∧ t.causes = s.causes ∧
        t.fld Reg.CP_IGNORED = (s.fld Reg.CP_IGNORED + 1) % 2 ^ Reg.CP_IGNORED.width ∧
        t.fld Reg.CP_STATUS_NEXT_ALIVE = s.fld Reg.CP_STATUS_NEXT_ALIVE) ∧
    (∀ (s : State) (f : CellFrame), s.inReset = false → s.cellUp = true → s.cellErrors f = 0 →
      (cellOp f = 0 →
        ∃ t, exec (.cellNop f) s = .next t ∧ t.flag Reg.CP_STATUS_LOST = false ∧ t.causes = s.causes ∧
          t.fld Reg.CP_STATUS_NEXT_ALIVE = (cellAlive f + 1) % 16 ∧
          t.fld Reg.CP_ACCEPTED = (s.fld Reg.CP_ACCEPTED + 1) % 2 ^ Reg.CP_ACCEPTED.width) ∧
      (∀ status, cellOp f = 1 → cellCount f ≠ 0 → f.repeats = [] →
        status = s.ser.flags + 256 * s.fld Reg.CP_STATUS_LOST + 4096 * s.fld Reg.CP_STATUS_NEXT_ALIVE →
        ∃ t, exec (.cellRead f) s = .next t ∧ t.causes = s.causes ∧
          t.fld Reg.CP_STATUS_NEXT_ALIVE = (cellAlive f + 1) % 16 ∧
          t.ser.reply = (status :: s.cellWords f.addr.toNat (cellCount f)) ++
            [crc16 (wordBytes (status :: s.cellWords f.addr.toNat (cellCount f)))]) ∧
      (cellOp f = 2 → cellCount f ≠ 0 →
        (0x400 ≤ f.addr.toNat → f.addr.toNat + cellCount f ≤ 0x420 → bitOf s.fuse.oem.protMap 14 = false →
          ∃ t, exec (.cellWrite f) s = .next t ∧ t.fld Reg.CP_ACCEPTED = (s.fld Reg.CP_ACCEPTED + 1) % 2 ^ Reg.CP_ACCEPTED.width ∧
            ∀ k b x, reqSites f = [k] → s.siteOf k = some (b, x) → bitOf (s.enabledMask b) x.position = true →
              bitOf (s.closedMask b) x.position = false →
              bitOf (SMap.get (0, 0) t.causes (causeKey b x.position)).1 4 = true) ∧
        ((∀ b, cellBlock f.addr.toNat = some b → b.1 ≠ 0x400) →
          ∃ t, exec (.cellWrite f) s = .next t ∧ t.causes = s.causes ∧ bitOf t.ser.flags 6 = true))) ∧
    (∀ s : State, s.inReset = false → s.ser.timed = true → s.fld Reg.CP_CTRL_ALIVE_TIMEOUT ≠ 0 →
      s.flag Reg.CP_STATUS_LOST = false →
      ∃ t, exec .aliveLoss s = .next t ∧ t.flag Reg.CP_STATUS_LOST = true ∧ t.flag Reg.CP_STATUS_LOSS_SEEN = true ∧
        ((∀ b, s.closedMask b = 0) → s.raised t 7 0 0 ∧
          t.fld Reg.CP_LOSSES = (s.fld Reg.CP_LOSSES + 1) % 2 ^ Reg.CP_LOSSES.width ∧
          ∀ g ∈ s.groups, ∀ x ∈ g.2.positions, x.aliveEn = true → bitOf (s.enabledMask g.1) x.position = true →
            bitOf (SMap.get (0, 0) t.causes (causeKey g.1 x.position)).1 5 = true))

/-- CAL_RUN, its time limit, CAL_STORE and CAL_LOAD have their effect. CAL_RUN whose checks hold, alone on a device
that runs no program, without STORE: all its kinds run, where no DPS channel that it checks is off; each counts as
done or as failed, and the status says whether one failed; otherwise the run goes on, CAL_ACTIVE, while level 2 is
checked. A record whose pairs taken pass becomes calibrated constant and target; one that fails changes neither. With
a program on its cluster and no leave to interrupt it, the run waits. A run past its time limit is reported 0x60.
CAL_STORE asks for a store write, with which it completes or fails. CAL_LOAD of a body that breaks a rule is reported
0x7F; of one that is sound, its records become constants, and its command completes with the store write or fails with
it. Says the completion of: calRun, calRunTimeLimit, calStore, calLoad. (R409, R410, R416, R417, R418, R419, R463) -/
def Obligations.CalibrationRuns : Prop :=
  (∀ (s : State) (q : BitVec 8) (e : Entry) (m : CalOutcome) (c : Cmd), s.serves q e → Entry.opcode e = 0x80 →
      c = s.taken q.toNat e → c.reservedSet [(8, 2), (16, 8)] = false → c.target < 32 → 0 < c.field 8 1 → c.field 8 1 < 32 →
      c.field 9 1 ≤ 1 → firstFailing (s.unitChecks [c.target]) = none → s.cals.runs = [] → s.cals.loads = [] →
      ∃ t, exec (.calRun q e m) s = .next t ∧ t.memData = s.memData ∧
        (s.programs = [] → (bitOf (c.field 8 1) 4 = true → s.dpsState (2 * c.target) ≠ 0 ∧ s.dpsState (2 * c.target + 1) ≠ 0) →
          t.cals.runs = [] ∧ t.flag (Reg.CAL_STATUS_CAL_ACTIVE c.target) = false ∧
          ∃ done failed pins dps, done + failed = c.field 8 1 ∧
            t.reported c (if failed = 0 then 0 else 1) (done + 2 ^ 8 * failed + 2 ^ 32 * pins + 2 ^ 64 * dps)) ∧
        (s.programs = [] → bitOf (c.field 8 1) 4 = true → s.dpsState (2 * c.target) = 0 →
          (s.dpsRec (2 * c.target)).level2 = false →
          t.flag (Reg.CAL_STATUS_CAL_ACTIVE c.target) = true ∧ (t.dpsRec (2 * c.target)).level2 = true ∧ ∃ r ∈ t.cals.runs, r.cmd = c) ∧
        (∀ k kind unit is ws, s.programs = [] → k = 0 ∨ k = 1 ∨ k = 3 → c.field 8 1 = 2 ^ k →
          (calRunOf m c).part k = [(kind, unit, is, ws)] →
          (partPasses kind is ws = true → t.reported c 0 (2 ^ k) ∧ ∀ i ∈ is, i < 64 →
            t.calBase kind unit i = ws.getD i (calDefault kind i) ∧ t.calTarget kind unit i = ws.getD i (calDefault kind i)) ∧
          (partPasses kind is ws = false → t.cals.base = s.cals.base ∧ t.cals.target = s.cals.target)) ∧
        (bitOf (c.field 8 1) 0 = true → c.field 9 1 = 0 → s.programsOn c.target ≠ [] →
          t.flag (Reg.CAL_STATUS_CAL_ACTIVE c.target) = true ∧ t.cals.base = s.cals.base ∧ ∃ r, t.cals.runs = [r] ∧ r.cmd = c)) ∧
    (∀ (s : State) (c : Fin 32) (r : CalRun), s.inReset = false → s.cals.runs = [r] → r.cluster = c.val → r.cmd.field 16 8 ≠ 0 →
      ∃ t, exec (.calRunTimeLimit c) s = .next t ∧ t.cals.runs = [] ∧ t.cals.base = s.cals.base ∧
        t.flag (Reg.CAL_STATUS_CAL_ACTIVE c.val) = false ∧ (r.cmd.epoch = s.hi.epoch → t.reported r.cmd 0x60 r.result)) ∧
    (∀ (s : State) (q : BitVec 8) (e : Entry) (c : Cmd), s.serves q e → c = s.taken q.toNat e → c.target = 0 → s.calDenied = false →
      s.power.shutdown = false →
      (Entry.opcode e = 0x81 → c.reservedSet [] = false →
        ∃ t, exec (.calStore q e) s = .next t ∧ t.cals = s.cals ∧
          ((∃ j ∈ t.ser.jobs, { cmd := c, status := 0, result := 0 } ∈ j.asks) ∨ t.reported c 0x50 0)) ∧
      (∀ d u, Entry.opcode e = 0x82 → c.reservedSet [(16, 12)] = false → c.field 16 8 < 2 ^ 48 → c.field 16 8 % 8 = 0 →
        s.memRead { engine := 9, unit := 0 } (c.field 16 8) (c.field 24 4) = (.ok d none, u) →
        (calBodyOf d = none → ∃ t, exec (.calLoad q e) s = .next t ∧ t.reported c 0x7F 0 ∧ t.cals = s.cals) ∧
        (∀ temp time l x k, calBodyOf d = some (temp, time, l, x, k) →
          (l.all (fun y => wordsPass y.1 y.2.2) = false →
            ∃ t, exec (.calLoad q e) s = .next t ∧ t.reported c 0x7F 0 ∧ t.cals = s.cals) ∧
          (l.all (fun y => wordsPass y.1 y.2.2) = true → s.programs = [] → s.cals.runs = [] → s.cals.loads = [] →
            (∀ y ∈ l, ∀ n, calCluster y.1 y.2.1 = some n → s.present n = true) →
            ∃ t, exec (.calLoad q e) s = .next t ∧ t.cals.stored = true ∧ t.cals.temp = temp ∧ t.cals.time = time ∧ t.cals.loads = [] ∧
              ((∃ j ∈ t.ser.jobs, { cmd := c, status := 0, result := l.length } ∈ j.asks) ∨ t.reported c 0x50 l.length) ∧
              ∀ y, l = [y] → ∀ i < calWords y.1, t.calBase y.1 y.2.1 i = y.2.2.getD i (calDefault y.1 i)))))

/-- Tracking, the Calender's steps and stale calibration have their effect. TRACKING_CYCLE of a cluster that tracks
counts, shows its time, and with sound references sets residuals and the quality they give, else REF_FAULT and POOR.
CALENDER_STEP of a quantity that may step: one without a step takes its target whole; a term moves by one toward it; a
pair moves so that at none of the present settings does the value it applies move by more than its step. CAL_STALE of
a powered cluster that has completed no cycle for 1 s shows quality 3. A change into quality 2 or 3 raises the
calibration event. Says the completion of: trackingCycle, calenderStep, calStale. (R409, R411, R412, R413, R414, R415)
-/
def Obligations.CalibrationFollows : Prop :=
  (∀ (s : State) (c : Fin 32) (m : Tracking), s.inReset = false → s.fld (Reg.CAL_CTRL_TRACK_EN c.val) ≠ 0 →
      s.clusterPowered c.val = true →
      ∃ t, exec (.trackingCycle c m) s = .next t ∧ t.fld (Reg.LAST_TRACK c.val) = s.now ∧
        t.fld (Reg.TRACK_CYCLES c.val) = (s.fld (Reg.TRACK_CYCLES c.val) + 1) % 2 ^ (Reg.TRACK_CYCLES c.val).width ∧
        t.cals.base = s.cals.base ∧ t.cals.work = s.cals.work ∧
        (m.ratios = false → t.flag (Reg.CAL_STATUS_REF_FAULT c.val) = true ∧ t.fld (Reg.CAL_STATUS_QUALITY c.val) = 2 ∧
          t.cals = s.cals ∧ (s.fld (Reg.CAL_STATUS_QUALITY c.val) ≠ 2 → s.raised t 18 c.val 2)) ∧
        (m.ratios = true → t.fld (Reg.RESID_RESID_UV c.val) = m.residUv.toNat ∧
          t.fld (Reg.RESID_RESID_PS c.val) = m.residPs.toNat ∧
          t.fld (Reg.CAL_STATUS_QUALITY c.val) = residQuality m.residUv.toInt m.residPs.toInt)) ∧
    (∀ (s : State) (kind : Fin 7) (unit : BitVec 16) (j : Fin 23), s.inReset = false → calUnitOk kind.val unit.toNat = true →
      j.val < calPairs kind.val + (calTerms kind.val).1 → s.frozenUnit kind.val unit.toNat = false →
      s.unitMeasures kind.val unit.toNat = false →
      (∀ c, calCluster kind.val unit.toNat = some c →
        s.blockOff (Reg.clB c) = false ∧ s.flag (Reg.CLK_STATUS_RELOCKING c) = false) →
      ∃ t, exec (.calenderStep kind unit j) s = .next t ∧ t.cals.base = s.cals.base ∧ t.cals.target = s.cals.target ∧
        (s.calStep kind.val unit.toNat j.val = none → ∀ i ∈ quantityWords kind.val j.val,
          t.cal kind.val unit.toNat i = s.calTarget kind.val unit.toNat i) ∧
        (∀ i w g, kind.val ≠ 6 → calPairs kind.val ≤ j.val → i = calPairs kind.val + j.val →
          w = calValue kind.val i (s.cal kind.val unit.toNat i) → g = calValue kind.val i (s.calTarget kind.val unit.toNat i) →
          t.cal kind.val unit.toNat i = calWord kind.val i (if w < g then w + 1 else if g < w then w - 1 else w)) ∧
        (∀ st, j.val < calPairs kind.val → s.calStep kind.val unit.toNat j.val = some st →
          (∀ i ∈ quantityWords kind.val j.val, s.cal kind.val unit.toNat i < 2 ^ 32 ∧ s.calTarget kind.val unit.toNat i < 2 ^ 32) →
          ∀ x ∈ s.calSettings kind.val unit.toNat j.val,
            (applyPair (t.calGain kind.val unit.toNat j.val) (t.calOffset kind.val unit.toNat j.val) x -
              applyPair (s.calGain kind.val unit.toNat j.val) (s.calOffset kind.val unit.toNat j.val) x).natAbs ≤ st)) ∧
    (∀ (s : State) (c : Fin 32), s.inReset = false → s.clusterPowered c.val = true → s.fld (Reg.LAST_TRACK c.val) + 10 ^ 12 ≤ s.now →
      ∃ t, exec (.calStale c) s = .next t ∧ t.fld (Reg.CAL_STATUS_QUALITY c.val) = 3 ∧ t.cals = s.cals ∧
        (s.fld (Reg.CAL_STATUS_QUALITY c.val) ≠ 3 → s.raised t 18 c.val 3))

/-- Idle states are chosen, entered and left; NEXT_EVENT, WAKE and USAGE_READ have their effect. NEXT_EVENT sets the
host event, or with zeros clears it, and reports the state the device would choose. WAKE in P0 is reported at once; in
an idle state it waits while the exit starts. USAGE_READ writes the live log body and reports its length, with STORE
once the store write ends. IDLE_CHOICE of a device that has been quiet for IDLE_DELAY starts the entry of the state
that fits, if it is deeper. IDLE_ENTRY_END enters it: from I3 on no unit below the memory stack is ready, in I4 the
link is in L1. IDLE_EXIT starts the exit where the next known event asks for it or a line that wakes is asserted, and
IDLE_EXIT_END, out of I4 with every tracking cycle run, returns to P0 with the units that slept ready again. Says the
completion of: nextEvent, wake, usageRead, idleChoice, idleEntryEnd, idleExit, idleExitEnd. (R421, R422, R423, R424,
R425, R426, R427, R436) -/
def Obligations.IdleStates : Prop :=
  (∀ (s : State) (q : BitVec 8) (e : Entry) (c : Cmd), s.serves q e → c = s.taken q.toNat e → c.target = 0 → s.power.shutdown = false →
      (Entry.opcode e = 0x90 → c.reservedSet [(16, 12)] = false →
        ∃ t, exec (.nextEvent q e) s = .next t ∧ t.reported c 0 t.chooseState ∧
          (s.felt.starts = [] → s.fullTime < c.field 24 4 * 2 ^ 64 + c.field 16 8 →
            t.fld Reg.NEXT_EVENT = c.field 16 8 ∧ t.flag Reg.PWR_STATUS_EVENT_KNOWN = true ∧
              t.power.hostEvent = some (c.field 24 4 * 2 ^ 64 + c.field 16 8)) ∧
          (s.felt.starts = [] → c.field 16 8 = 0 → c.field 24 4 = 0 →
            t.flag Reg.PWR_STATUS_EVENT_KNOWN = false ∧ t.power.hostEvent = none)) ∧
      (Entry.opcode e = 0x91 → c.reservedSet [] = false →
        ∃ t, exec (.wake q e) s = .next t ∧ t.reported c 0 0 ∧ t.power = s.power) ∧
      (∀ d k u, Entry.opcode e = 0x92 → c.reservedSet [(8, 1), (16, 8)] = false → c.field 8 1 < 2 → c.field 16 8 < 2 ^ 48 →
        c.field 16 8 % 8 = 0 → s.memWrite { engine := 9, unit := 0 } (c.field 16 8) s.usageBody false = (.ok d k, u) → k = none →
        ∃ t, exec (.usageRead q e) s = .next t ∧ t.memData = u.memData ∧ (c.field 8 1 = 0 → t.reported c 0 316) ∧
          (c.field 8 1 = 1 → (∃ j ∈ t.ser.jobs, { cmd := c, status := 0, result := 316 } ∈ j.asks) ∨ t.reported c 0x50 316))) ∧
    (∀ (s : State) (q : BitVec 8) (e : Entry), s.inReset = false → s.idling = true → Entry.opcode e = 0x91 →
      ∃ t, exec (.wake q e) s = .next t ∧ t.flag Reg.PWR_STATUS_EXITING = true ∧
        t.held = s.held ++ [⟨s.taken q.toNat e, .wake⟩]) ∧
    (∀ (s : State) (k : Nat), s.inReset = false → s.showNextEvent.quiet = true → s.quietLong = true → s.idling = false → s.power.shutdown = false →
      k = s.showNextEvent.chooseState →
      ∃ t, exec .idleChoice s = .next t ∧ t.flag Reg.PWR_STATUS_ENTERING = decide (0 < k) ∧ (0 < k → t.power.target = k)) ∧
    (∀ (s : State) (k : Nat), s.inReset = false → s.flag Reg.PWR_STATUS_ENTERING = true → k = s.power.target → k ≤ 4 →
      (3 ≤ k → s.dpsOff = true) → (k = 4 → s.storeBusy = false) →
      ∃ t, exec .idleEntryEnd s = .next t ∧ t.fld Reg.PWR_STATUS_STATE = k ∧ t.flag Reg.PWR_STATUS_ENTERING = false ∧
        (3 ≤ k → ∀ u < 96, t.ready u = false) ∧ (k = 4 → t.flag Reg.LINK_IN_L1 = true) ∧
        (k < 3 → t.memData = s.memData)) ∧
    (∀ s : State, s.inReset = false → s.idling = true → s.showNextEvent.exitDue = true ∨ s.lineWakes = true →
      ∃ t, exec .idleExit s = .next t ∧ t.flag Reg.PWR_STATUS_EXITING = true) ∧
    (∀ s : State, s.inReset = false → s.flag Reg.PWR_STATUS_EXITING = true → s.flag Reg.PWR_STATUS_ENTERING = false →
      (s.fld Reg.PWR_STATUS_STATE = 4 → ∀ c < 32, s.present c = true → s.flag (Reg.UNIT_OFF c) = false →
        s.fld (Reg.CAL_CTRL_TRACK_EN c) ≠ 0 → c ∈ s.power.tracked) →
      ∃ t, exec .idleExitEnd s = .next t ∧ (s.held = [] → (∀ u ∈ s.power.asleep, u < 112) → t.fld Reg.PWR_STATUS_STATE = 0 ∧
        t.flag Reg.PWR_STATUS_EXITING = false ∧ t.power.asleep = [] ∧
        ∀ u ∈ s.power.asleep, s.present u = true → s.flag (Reg.UNIT_OFF u) = false → u ∉ s.units.restarting →
          t.ready u = true))

/-- Temperature samples, throttling, supply dips and ageing have their effect. THERMAL_SAMPLE shows every reading; the
junction temperature is the highest that counts; the second sample in a row at 125 °C or more shuts the device down,
with no unit ready, every pin off, and the event. THROTTLE_UPDATE moves the count of a cluster up above the limit,
with its event, and down below the hysteresis. A suspect sensor that is readmitted counts again. A supply dip marks
its rail and every measurement in progress; its end is logged, counted and raised. AGEING_MEASURE shows the drift and
raises its event when it first exceeds the warning. Says the completion of: thermalSample, throttleUpdate,
sensorReadmit, supplyWarning, supplyRecovery, ageingMeasure. (R428, R429, R430, R431, R432, R434, R435, R436) -/
def Obligations.HeatAndSupply : Prop :=
  (∀ (s : State) (l : List (BitVec 16)), s.inReset = false →
      ((s.thermalSample l).1 = false →
        ∃ t, exec (.thermalSample l) s = .next t ∧ t.power.usage.operating = s.power.usage.operating + 1 ∧
          t.memData = s.memData ∧
          (∀ k < 104, t.fld (tempFld k) = if 96 ≤ k ∨ s.present (k / 3) = true then (l.getD k 0).toNat else 0) ∧
          (∀ k ∈ t.validSensors, t.temp k ≤ t.sfld Reg.THERM_STATUS_JUNCTION) ∧
          (t.validSensors ≠ [] → ∃ k ∈ t.validSensors, t.temp k = t.sfld Reg.THERM_STATUS_JUNCTION) ∧
          t.power.hot = decide (2000 ≤ t.sfld Reg.THERM_STATUS_JUNCTION)) ∧
      ((s.thermalSample l).1 = true → s.power.shutdown = false →
        ∃ t i, exec (.thermalSample l) s = .next t ∧ t.power.shutdown = true ∧ t.fld Reg.PWR_STATUS_STATE = 0 ∧
          s.raised t 0 0 i ∧ (∀ u < 112, s.present u = true → t.ready u = false) ∧
          ∀ p < 1024, (t.pin p).connected = false ∧ (t.pin p).drive = .off)) ∧
    (∀ s : State, s.inReset = false →
      ∃ t, exec .throttleUpdate s = .next t ∧ ∀ c < 32, s.present c = true →
        (s.power.counted.any (fun k => decide (96 ≤ k) && decide (16 * (s.fld Reg.THERM_CTRL_THROTTLE_T : Int) < s.temp k)) = true ∨
            16 * (s.fld Reg.THERM_CTRL_THROTTLE_T : Int) < s.clusterTemp c →
          t.fld (Reg.THROTTLE_n c) = (if s.fld (Reg.THROTTLE_n c) < 8 then s.fld (Reg.THROTTLE_n c) + 1 else s.fld (Reg.THROTTLE_n c))) ∧
        (s.power.counted.any (fun k => decide (96 ≤ k) && decide (16 * (s.fld Reg.THERM_CTRL_THROTTLE_T : Int) < s.temp k)) = false →
          s.clusterTemp c ≤ 16 * (s.fld Reg.THERM_CTRL_THROTTLE_T : Int) →
          t.fld (Reg.THROTTLE_n c) =
            if s.clusterTemp c < 16 * (s.fld Reg.THERM_CTRL_THROTTLE_T : Int) - 16 * (s.fld Reg.THERM_CTRL_HYST : Int) then
              s.fld (Reg.THROTTLE_n c) - 1
            else s.fld (Reg.THROTTLE_n c))) ∧
    (∀ (s : State) (k : Fin 104), s.writable (0x5020 + 4 * (k.val / 32)) →
      ∃ t, exec (.sensorReadmit k) s = .next t ∧ t.flag (Reg.SUSPECT k.val) = false ∧ SMap.get 0 t.power.apart k.val = 0) ∧
    (∀ (s : State) (r : Fin 8), s.inReset = false → SMap.find s.power.dips r.val = none →
      ∃ t, exec (.supplyWarning r) s = .next t ∧ bitOf (t.fld Reg.SUPPLY_STATUS_BELOW_WARN) r.val = true ∧
        SMap.find t.power.dips r.val = some s.now ∧ s.regsBut t [Reg.SUPPLY_STATUS_BELOW_WARN] ∧
        ∀ p m, (s.pin p).meas = some m → (t.pin p).meas = some { m with suspect := true }) ∧
    (∀ (s : State) (r : Fin 8) (b k ns : Nat), s.inReset = false → SMap.find s.power.dips r.val = some b → k = s.power.logNext →
      k < 4 → ns = min (2 ^ 32 - 1) ((s.now - b) / 10000 * 10) →
      ∃ t, exec (.supplyRecovery r) s = .next t ∧ bitOf (t.fld Reg.SUPPLY_STATUS_BELOW_WARN) r.val = false ∧
        bitOf (t.fld Reg.SUPPLY_STATUS_BROWNOUT) r.val = true ∧ SMap.find t.power.dips r.val = none ∧
        t.fld (Reg.BROWNOUT_LOG_RAIL k) = r.val ∧ t.flag (Reg.BROWNOUT_LOG_VALID k) = true ∧
        t.fld (Reg.BROWNOUT_LOG_DURATION k) = ns ∧ t.fld (Reg.BROWNOUT_TIME_CELL_TIME k) = b % 2 ^ 64 ∧
        t.fld Reg.BROWNOUTS = (s.fld Reg.BROWNOUTS + 1) % 2 ^ 64 ∧ s.raised t 1 r.val ns) ∧
    (∀ (s : State) (c : Fin 32) (ppm : BitVec 32), s.inReset = false → s.blockOff (Reg.clB c.val) = false →
      ∃ t, exec (.ageingMeasure c ppm) s = .next t ∧ t.fld (Reg.AGE_PPM c.val) = ppm.toNat ∧
        ((s.fld Reg.AGE_WARN : Int) < ppm.toInt → c.val ∈ t.power.aged) ∧
        (ppm.toInt ≤ (s.fld Reg.AGE_WARN : Int) → c.val ∉ s.power.aged.erase c.val → c.val ∉ t.power.aged) ∧
        ((s.fld Reg.AGE_WARN : Int) < ppm.toInt → c.val ∉ s.power.aged → s.raised t 22 c.val ppm.toNat))

/-- Event sources are delivered in order of number, and cell event lines follow their drivers. With no mask written
late, EVENT_DELIVERY takes the lowest source that has occurrences and a destination: its count and its latched
occurrence clear, DELIVERED counts, LAST_SOURCE names it; with HOST_EN its record goes, in host-writable conditions,
to the next slot of its queue with SEQ and PHASE, SEQ and the slot moving on; without, the management processors alone
take the count and host memory keeps its bytes; a routed line that may be driven is pulled low. A source masked too
late is delivered with LATE_MASK. With nothing to take, the queues, the counts and host memory stay. An outside
assertion of a line raises EV_IN where the device itself releases the line, and shows; the end of a pulse, or of the
outside drive, leaves the line asserted only while another driver holds it. Says the completion of: eventDelivery,
evAssert, evPulseEnd, evLineRelease. (R441, R442, R443, R444, R445, R447) -/
def Obligations.EventsAndLines : Prop :=
  (∀ (s : State) (n : Fin 64) (h : Nat) (l : Option (Fin 64)) (late : Bool), s.inReset = false → h = s.fld (Reg.SRC_CFG_HEQ n.val) →
      (l = none ∧ late = false ∧ s.selectable n.val = true ∨
        l = some n ∧ late = true ∧ s.fld (Reg.SRC_STAT_COUNT n.val) ≠ 0 ∧ s.flag (Reg.SRC_CFG_HOST_EN n.val) = false) →
      (∀ m < n.val, s.selectable m = false) →
      ∃ t, exec (.eventDelivery l) s = .next t ∧ t.fld (Reg.SRC_STAT_COUNT n.val) = 0 ∧ SMap.find t.ev.latch n.val = none ∧
        t.fld Reg.EVC_STATUS_LAST_SOURCE = n.val ∧ t.fld Reg.EV_DELIVERED = (s.fld Reg.EV_DELIVERED + 1) % 2 ^ 64 ∧
        (∀ m < 64, m ≠ n.val → t.fld (Reg.SRC_STAT_COUNT m) = s.fld (Reg.SRC_STAT_COUNT m)) ∧
        (sourceF n.val = true → SMap.get 0 t.ev.toFirmware n.val = SMap.get 0 s.ev.toFirmware n.val + s.fld (Reg.SRC_STAT_COUNT n.val)) ∧
        (s.flag (Reg.SRC_CFG_HOST_EN n.val) = true ∨ late = true → s.flag (Reg.HEQ_BASE_ENABLE h) = true →
          t.fld (Reg.HEQ_SEQ h) = (s.fld (Reg.HEQ_SEQ h) + 1) % 2 ^ 32 ∧
          (s.hostWritable = true → s.flag Reg.LINK_IN_L1 = false →
            t.hostHolds (4096 * s.afld (Reg.HEQ_BASE h) + 32 * (s.heq h).slot)
              (s.eventRecord n.val late ++ leBytes (s.fld (Reg.HEQ_SEQ h)) 4 ++ leBytes 0 3 ++ leBytes (s.heq h).phase 1) ∧
            (t.heq h).slot = (if (s.heq h).slot + 1 = 2 ^ s.afld (Reg.HEQ_BASE_SIZE_LOG2 h) then 0 else (s.heq h).slot + 1))) ∧
        (s.flag (Reg.SRC_CFG_HOST_EN n.val) = true ∨ late = true → s.flag (Reg.HEQ_BASE_ENABLE h) = false →
          t.fld Reg.HEQ_DROPS = (s.fld Reg.HEQ_DROPS + 1) % 2 ^ 64 ∧ t.memData = s.memData) ∧
        (s.flag (Reg.SRC_CFG_HOST_EN n.val) = false → late = false → t.memData = s.memData ∧ t.ev.queues = s.ev.queues) ∧
        (s.flag (Reg.SRC_CFG_EV_EN n.val) = true → s.flag (Reg.EV_LINE_OUT_EN (s.fld (Reg.SRC_CFG_EV_LINE n.val))) = true →
          t.evAsserted (s.fld (Reg.SRC_CFG_EV_LINE n.val)) = true ∧
          t.flag (Reg.EV_LINE_OWN_DRIVE (s.fld (Reg.SRC_CFG_EV_LINE n.val))) = true)) ∧
    (∀ s : State, s.inReset = false → (∀ m < 64, s.selectable m = false) →
      ∃ t, exec (.eventDelivery none) s = .next t ∧ t.ev = s.ev ∧ t.memData = s.memData ∧
        t.fld Reg.EV_DELIVERED = s.fld Reg.EV_DELIVERED) ∧
    (∀ (s : State) (k : Fin 8), s.inReset = false →
      ∃ t, exec (.evAssert k) s = .next t ∧ t.evAsserted k.val = true ∧ (t.line k.val).outside = true ∧
        t.flag (Reg.EV_LINE_ASSERTED k.val) = true ∧ t.memData = s.memData ∧
        ((s.line k.val).outside = false → (s.line k.val).own = false → s.raised t (35 + k.val) k.val 0) ∧
        ((s.line k.val).outside = true ∨ (s.line k.val).own = true →
          t.fld (Reg.SRC_STAT_COUNT (35 + k.val)) = s.fld (Reg.SRC_STAT_COUNT (35 + k.val)))) ∧
    (∀ (s : State) (k : Fin 8) (who : LineDriver), s.inReset = false →
      ∃ t, exec (.evPulseEnd k who) s = .next t ∧ t.memData = s.memData ∧
        t.line k.val = (match who with
          | .controller => { s.line k.val with pulse := false }
          | .dps n => { s.line k.val with trips := (s.line k.val).trips.filter (fun x => decide (x ≠ n.val)) }
          | .awg c => { s.line k.val with markers := (s.line k.val).markers.filter (fun x => decide (x ≠ c.val)) }) ∧
        (∀ j, j ≠ k.val → t.line j = s.line j) ∧
        ∀ j < 8, t.flag (Reg.EV_LINE_ASSERTED j) = t.evAsserted j ∧ t.flag (Reg.EV_LINE_OWN_DRIVE j) = (t.line j).own) ∧
    (∀ (s : State) (k : Fin 8),
      ∃ t, exec (.evLineRelease k) s = .next t ∧ (t.line k.val).outside = false ∧ (t.line k.val).own = (s.line k.val).own ∧
        (∀ j, j ≠ k.val → t.line j = s.line j) ∧ t.memData = s.memData ∧
        (s.inReset = false → t.flag (Reg.EV_LINE_ASSERTED k.val) = (s.line k.val).own))

/-- The temperature of a cluster is the highest reading of its valid sensors, and the junction temperature that of the
device. For every state and cluster: each sensor of the cluster that was valid as the last sample was taken reads at
most its temperature, and one of them, where there is one, reads just that; a cluster with none takes the junction
temperature. The junction temperature is likewise the highest of the device's valid readings. A sample of the sensors
counts the sensors valid as it is taken (one that it makes suspect itself is left out from the next on, R437), and
leaves the junction temperature, where HEALTH word 0 of the cell register space reports it; THERMAL_SAMPLE answers
what the sample leaves unless it shuts the device down. (R430) -/
def Obligations.ClusterTemperature : Prop :=
  (∀ (s : State) (c : Fin 32),
      (∀ k ∈ s.power.counted, k < 96 → k / 3 = c.val → s.temp k ≤ s.clusterTemp c.val) ∧
      ((∃ k ∈ s.power.counted, k < 96 ∧ k / 3 = c.val) →
        ∃ k ∈ s.power.counted, k < 96 ∧ k / 3 = c.val ∧ s.temp k = s.clusterTemp c.val) ∧
      ((∀ k ∈ s.power.counted, ¬ (k < 96 ∧ k / 3 = c.val)) → s.clusterTemp c.val = s.junction)) ∧
    (∀ s : State, (∀ k ∈ s.validSensors, s.temp k ≤ s.junction) ∧
      (s.validSensors ≠ [] → ∃ k ∈ s.validSensors, s.temp k = s.junction)) ∧
    (∀ (s : State) (l : List (BitVec 16)), (s.thermalSample l).2.power.counted = s.validSensors ∧
      toSigned 16 ((s.thermalSample l).2.cellWord 0x100) = (s.thermalSample l).2.junction) ∧
    (∀ (s : State) (l : List (BitVec 16)), s.inReset = false → (s.thermalSample l).1 = false →
      ∃ t, exec (.thermalSample l) s = .next t ∧ t.power.counted = s.validSensors ∧ toSigned 16 (t.cellWord 0x100) = t.junction)

/-- Each instruction of the test access port selects its register, whose scan shifts out what it captured. IDCODE
shifts out REVISION, DEVICE_ID, MFR_ID and a 1. SAMPLE/PRELOAD, and EXTEST while it is permitted, shift out the
captured balls, lowest cell first, and keep the bits shifted in; CLAMP and HIGHZ while permitted, BYPASS and every
reserved code scan one bit that captures 0; not permitted, EXTEST, CLAMP and HIGHZ act as BYPASS. None of them changes
anything outside the port. DEBUG_STATUS shows whether debug is open and has been used. DEBUG_ACCESS with debug locked
is BYPASS; with debug open it shifts out the data of the access before, makes its one access, whatever the protection
map denies, and marks and raises the first use. What the port holds between scans, and the one scan that each row
makes, are the model's (log entry 8). Says the completion of: extest, idcode, samplePreload, clamp, highz,
debugAccess, debugStatus, bypass. (R453, R457, R469, R503) -/
def Obligations.TestPortScans : Prop :=
  ∀ s : State,
      (s.fuse.deviceId < 65536 →
        ∃ t n, exec .idcode s = .next t ∧ { t with jtag := s.jtag } = s ∧ t.jtag.ir = 0x01 ∧ t.jtag.out.length = 32 ∧
          (∀ i < 32, t.jtag.out[i]? = some (bitOf n i)) ∧ bitsOf n 28 4 = Config.revision.toNat % 16 ∧
          bitsOf n 12 16 = s.fuse.deviceId ∧ bitsOf n 1 11 = Config.mfrId.toNat ∧ bitOf n 0 = true) ∧
      (∀ shift balls, balls.length = boundaryLength →
        (∃ t, exec (.samplePreload shift balls) s = .next t ∧ { t with jtag := s.jtag } = s ∧ t.jtag.ir = 0x02 ∧
          t.jtag.out ++ t.jtag.latches = balls ++ shift ∧ t.jtag.latches.length = boundaryLength) ∧
        (s.scanFree = true →
          ∃ t, exec (.extest shift balls) s = .next t ∧ { t with jtag := s.jtag } = s ∧ t.jtag.ir = 0x00 ∧
            t.jtag.out ++ t.jtag.latches = balls ++ shift ∧ t.jtag.latches.length = boundaryLength)) ∧
      (∀ i shift ir, (∃ balls, i = Instr.extest shift balls ∧ s.scanFree = false ∧ ir = 0xFF) ∨
          i = .clamp shift ∧ ir = (if s.scanFree then 0x04 else 0xFF) ∨
          i = .highz shift ∧ ir = (if s.scanFree then 0x05 else 0xFF) ∨
          (∃ code : BitVec 8, i = .bypass code shift ∧ ir = code.toNat ∧ code.toNat ∉ [0x00, 0x01, 0x02, 0x04, 0x05, 0x20, 0x21]) ∨
          (∃ d : BitVec 96, i = .debugAccess d ∧ s.debugNow = false ∧ ir = 0xFF ∧ shift = bitsFrom d.toNat 96) →
        ∃ t, exec i s = .next t ∧ { t with jtag := s.jtag } = s ∧ t.jtag.ir = ir ∧ t.jtag.latches = s.jtag.latches ∧
          t.jtag.out.length = shift.length ∧ (∀ k < shift.length, t.jtag.out[k]? = (false :: shift)[k]?)) ∧
      (∃ t, exec .debugStatus s = .next t ∧ { t with jtag := s.jtag } = s ∧ t.jtag.ir = 0x21 ∧
        t.jtag.out = [s.debugOpen && s.flag Reg.SEC_STATUS_BOOTED && !s.inReset, s.flag Reg.SEC_STATUS_DEBUG_USED] ++
          List.replicate 6 false) ∧
      (∀ d : BitVec 96, s.debugNow = true →
        ∃ t u, exec (.debugAccess d) s = .next t ∧ t.jtag.ir = 0x20 ∧ t.jtag.out = bitsFrom s.jtag.data 96 ∧
          u.flag Reg.SEC_STATUS_DEBUG_USED = true ∧ (s.flag Reg.SEC_STATUS_DEBUG_USED = false → s.raised u 45 0 3) ∧
          (s.flag Reg.SEC_STATUS_DEBUG_USED = true → { u with jtag := s.jtag } = s) ∧
          (d.getLsbD 95 = false → bitsOf d.toNat 72 20 % 8 = 0 →
            t = { u with jtag := { u.jtag with data := u.barRead (bitsOf d.toNat 72 20) + 2 ^ 64 } }) ∧
          (d.getLsbD 95 = false → bitsOf d.toNat 72 20 % 8 ≠ 0 → t.jtag.data = 2 ^ 65 - 1 ∧
            u.raised t 43 0 (bitsOf d.toNat 72 20)) ∧
          (d.getLsbD 95 = true → t.jtag.data = bitsOf d.toNat 0 64 + 2 ^ 64 ∧
            { t with jtag := u.jtag } = u.barForce (bitsOf d.toNat 72 20) true (bitsOf d.toNat 0 64)))

/-- Units are brought up, reset, restarted, powered down and up, retired and unretired. UNIT_BRINGUP of a unit that
waits for its start: a unit other than a cluster and the memory stack is ready, or has failed, as it starts, with its
event; the memory stack that has a pair is ready with every block zero and clean; a cluster that starts with sound
references is ready, and with it its sequencers that are powered. With nothing to start, nothing changes. UNIT_RESTART
of a restarting unit that starts makes it ready, the memory stack with its contents. Of the host's commands whose
fields are right: UNIT_RESET leaves the units named, and those they imply, not ready, not failed, powered and
restarting, and waits; UNIT_POWER down leaves them unpowered, reports at once, and empties the memory stack where it
alone is named; UNIT_POWER up powers them and waits for their bring-up, or reports at once where they are ready;
naming an absent unit, or a reserved ACTION, each reports 0x21, or 0x7F, and changes no unit. UNIT_RETIRE marks its
units retired, absent and unpowered, notes pairs and lanes, and reports with the store write or its failure;
UNIT_UNRETIRE clears records, with no effect on a present unit, and reports likewise. Says the completion of:
unitBringup, unitRestart, unitReset, unitPowerDown, unitPowerUp, unitRetire, unitUnretire. (R475, R476, R477, R478,
R479, R481, R482, R484, R485, R508) -/
def Obligations.UnitsStartAndStop : Prop :=
  (∀ (s : State) (u : Fin 112) (r : BringUp), s.inReset = false → s.flag Reg.SEC_STATUS_BOOTED = true → s.power.shutdown = false →
      s.unitOn u.val = true → s.ready u.val = false → s.flag (Reg.UNIT_FAILED u.val) = false → u.val ∉ s.units.restarting →
      u.val ∉ s.power.asleep →
      (32 ≤ u.val → u.val ≠ memUnit → (u.val < 96 → s.ready ((u.val - 32) / 2) = true) →
        ∃ t, exec (.unitBringup u r) s = .next t ∧ t.ready u.val = r.ok ∧ t.flag (Reg.UNIT_FAILED u.val) = !r.ok ∧
          s.raised t 44 u.val (if r.ok then 1 else 3) ∧ t.memData = s.memData) ∧
      (u.val = memUnit → r.ok = true → minusMask r.pairs.toNat s.units.pairs ≠ 0 →
        ∃ t, exec (.unitBringup u r) s = .next t ∧ t.ready memUnit = true ∧ t.mem.cells = [] ∧ t.mem.poison = [] ∧ t.mem.latent = [] ∧
          t.mem.host = s.mem.host ∧ t.fld Reg.MEM_DESC_PAIRS_PRESENT = minusMask r.pairs.toNat s.units.pairs) ∧
      (u.val < 32 → s.groupTurn u.val = true →
        ∃ t, exec (.unitBringup u r) s = .next t ∧ t.ready u.val = (r.ok && r.track.ratios) ∧
          t.flag (Reg.UNIT_FAILED u.val) = !(r.ok && r.track.ratios) ∧
          (r.ok = true → r.track.ratios = true → ∀ i < 2, s.unitOn (32 + 2 * u.val + i) = true →
            t.ready (32 + 2 * u.val + i) = true))) ∧
    (∀ (s : State) (u : Fin 112) (r : BringUp),
      s.flag Reg.SEC_STATUS_BOOTED = false ∨ s.power.shutdown = true ∨ s.unitOn u.val = false ∨ s.ready u.val = true ∨
        u.val ∈ s.units.restarting ∨ u.val ∈ s.power.asleep → exec (.unitBringup u r) s = .next s) ∧
    (∀ (s : State) (u : Fin 112) (r : BringUp), s.inReset = false → s.power.shutdown = false → u.val ∈ s.units.restarting →
      s.units.restarting.Nodup → s.unitOn u.val = true → r.ok = true → 32 ≤ u.val → (u.val < 96 → s.ready ((u.val - 32) / 2) = true) →
      ∃ t, exec (.unitRestart u r) s = .next t ∧ t.ready u.val = true ∧ u.val ∉ t.units.restarting ∧ t.memData = s.memData ∧
        s.raised t 44 u.val 1) ∧
    (∀ (s : State) (q : BitVec 8) (e : Entry) (c : Cmd), s.serves q e → c = s.taken q.toNat e → c.target = 0 → c.maskUnits ≠ [] →
      (∀ u ∈ c.maskUnits, u < 112) → c.reservedSet [(8, 1), (16, 16)] = false → s.power.shutdown = false →
      (Entry.opcode e = 0x99 → c.reservedSet [(16, 16)] = false →
        ((∀ u ∈ c.maskUnits, s.present u = true) →
          ∃ t, exec (.unitReset q e) s = .next t ∧ { cmd := c, units := c.maskUnits } ∈ t.units.asks ∧
            ∀ u ∈ withImplied c.maskUnits, s.present u = true → t.ready u = false ∧ t.flag (Reg.UNIT_FAILED u) = false ∧
              t.flag (Reg.UNIT_OFF u) = false ∧ u ∈ t.units.restarting) ∧
        ((∃ u ∈ c.maskUnits, s.present u = false) →
          ∃ t, exec (.unitReset q e) s = .next t ∧ t.reported c 0x21 0 ∧ t.units = s.units ∧ t.readyMap = s.readyMap)) ∧
      (Entry.opcode e = 0x9A → Entry.field e 8 1 = 0 → c.field 8 1 = 0 →
        ((∀ u ∈ c.maskUnits, s.present u = true) →
          ∃ t, exec (.unitPowerDown q e) s = .next t ∧ t.reported c 0 t.readyMap ∧
            (c.maskUnits = [memUnit] → t.mem.cells = [] ∧ t.mem.poison = []) ∧
            ∀ u ∈ withImplied c.maskUnits, s.present u = true → t.ready u = false ∧ t.flag (Reg.UNIT_FAILED u) = false ∧
              t.flag (Reg.UNIT_OFF u) = true ∧ (s.units.restarting.Nodup → u ∉ t.units.restarting)) ∧
        ((∃ u ∈ c.maskUnits, s.present u = false) →
          ∃ t, exec (.unitPowerDown q e) s = .next t ∧ t.reported c 0x21 0 ∧ t.units = s.units ∧ t.readyMap = s.readyMap)) ∧
      (Entry.opcode e = 0x9A → Entry.field e 8 1 = c.field 8 1 → 2 ≤ c.field 8 1 →
        ∃ t, exec (.unitPowerDown q e) s = .next t ∧ t.reported c 0x7F 0 ∧ t.units = s.units ∧ t.readyMap = s.readyMap) ∧
      (Entry.opcode e = 0x9A → Entry.field e 8 1 = 1 → (∀ u ∈ c.maskUnits, s.present u = true) → (∀ a ∈ s.units.asks, a.cmd ≠ c) →
        ∃ t, exec (.unitPowerUp q e) s = .next t ∧ (∀ u ∈ c.maskUnits, t.flag (Reg.UNIT_OFF u) = false) ∧
          (∀ u < 112, t.ready u = s.ready u) ∧
          ((∃ u ∈ c.maskUnits, s.ready u = false ∧ s.flag (Reg.UNIT_OFF u) = true) →
            { cmd := c, units := c.maskUnits } ∈ t.units.asks) ∧
          ((∀ u ∈ c.maskUnits, s.ready u = true) → t.reported c 0 s.readyMap))) ∧
    (∀ (s : State) (q : BitVec 8) (e : Entry) (c : Cmd) (pairs lanes : Nat), s.serves q e → c = s.taken q.toNat e → c.target = 0 →
      c.maskUnits ≠ [] → c.reservedSet [(16, 19)] = false → s.power.shutdown = false → pairs = c.field 32 2 → lanes = c.field 34 1 →
      (Entry.opcode e = 0x9B → (∀ u ∈ c.maskUnits, retirable u = true) → orMask s.units.pairs pairs ≠ 0xFFFF →
        laneWidth (orMask s.units.lanes lanes) = true →
        ∃ t, exec (.unitRetire q e) s = .next t ∧ t.units.retired = orMask s.units.retired (ofBits (withImplied c.maskUnits)) ∧
          t.units.pairs = orMask s.units.pairs pairs ∧ t.units.lanes = orMask s.units.lanes lanes ∧
          ((∃ j ∈ t.ser.jobs, { cmd := c, status := 0, result := t.units.retired } ∈ j.asks) ∨ t.reported c 0x50 t.units.retired) ∧
          ∀ u ∈ withImplied c.maskUnits, s.present u = true → t.present u = false ∧ t.ready u = false ∧
            t.flag (Reg.UNIT_RETIRED u) = true ∧ t.flag (Reg.UNIT_OFF u) = true) ∧
      (Entry.opcode e = 0x9C → (∀ u ∈ c.maskUnits, u < 112 ∧ bitOf s.units.retired u = true) →
        minusMask pairs s.units.pairs = 0 → minusMask lanes s.units.lanes = 0 →
        ∃ t, exec (.unitUnretire q e) s = .next t ∧ t.units.retired = minusMask s.units.retired (ofBits c.maskUnits) ∧
          t.units.pairs = minusMask s.units.pairs pairs ∧ t.units.lanes = minusMask s.units.lanes lanes ∧
          (∀ u < 112, t.present u = s.present u ∧ t.ready u = s.ready u) ∧
          ((∃ j ∈ t.ser.jobs, { cmd := c, status := 0, result := t.units.retired } ∈ j.asks) ∨ t.reported c 0x50 t.units.retired)))

/-- The six security commands complete with their effect. Each with the fields of its entry right and its reads or
writes of memory good. OEM_PROVISION burns the bank that the block describes and seals it, leaving the fuses in
effect; a sealed bank, a reserved bit, or a burned bit that is 0 in the block burns nothing, 0x7F. FW_UPDATE of an
image that is refused is reported 0x7F with SECURITY 2 and touches no job; else, with no job before it, the install of
the image begins. OEM_CONFIG of a body that is refused is reported 0x7F with SECURITY 4; else the body becomes section
3 and the command completes with the store write or fails with it. IMAGE_MEASURE enters the digest of the header and
code bytes and the segments in the log, and reports index, HOST and digest. ATTEST writes the report and its
signature, with the fields where R463 puts them, and counts a signature. SUMMARY_SIGN with a short buffer names the
length it needs and leaves the period running; else it writes the summary and its signature, and the next period
starts. SHAKE256 and ML-DSA are uninterpreted (log entry 13). Says the completion of: oemProvision, fwUpdate,
oemConfig, imageMeasure, attest, summarySign. (R452, R455, R456, R458, R460, R462, R463, R464, R465, R467, R468, R471)
-/
def Obligations.SecurityCommandsAct : Prop :=
  ∀ (s : State) (q : BitVec 8) (e : Entry) (c : Cmd) (va : Nat), s.serves q e → c = s.taken q.toNat e → c.target = 0 → va = c.field 16 8 →
      s.power.shutdown = false →
      (∀ d u, Entry.opcode e = 0x97 → c.reservedSet [(16, 8)] = false → s.secAddrBad va = false →
        (s.burned.isSealed = true → ∃ t, exec (.oemProvision q e) s = .next t ∧ t.burned = s.burned ∧ t.reported c 0x7F 0) ∧
        (s.burned.isSealed = false → (s.undispatch c).memRead { engine := 9, unit := 0 } va 128 = (.ok d none, u) →
          ∃ t, exec (.oemProvision q e) s = .next t ∧ t.fuse = s.fuse ∧ t.memData = s.memData ∧
            ((∀ i < 128, andMask (d.getD i 0).toNat (oemReserved i) = 0 ∧ minusMask (s.burned.byte i) (d.getD i 0).toNat = 0) →
              t.burned = { oemBlock d with isSealed := true } ∧ t.reported c 0 0) ∧
            ((∃ i < 128, andMask (d.getD i 0).toNat (oemReserved i) ≠ 0 ∨ minusMask (s.burned.byte i) (d.getD i 0).toNat ≠ 0) → t.burned = s.burned ∧ t.reported c 0x7F 0))) ∧
      (∀ img u x r, Entry.opcode e = 0x96 → c.reservedSet [(16, 12)] = false → s.secAddrBad va = false →
        (s.undispatch c).memRead { engine := 9, unit := 0 } va (c.field 24 4) = (.ok img none, u) →
        s.ser.dir = some x → s.sec.running = some r →
        (s.updateRefused x r img = true →
          ∃ t, exec (.fwUpdate q e) s = .next t ∧ t.reported c 0x7F 0 ∧ t.ser = s.ser ∧ u.raised t 45 0 2) ∧
        (s.updateRefused x r img = false → s.ser.jobs = [] →
          ∃ t j, exec (.fwUpdate q e) s = .next t ∧ t.ser.jobs = [j] ∧ j.aim = .update (bytesField img 8 4) r.altOffset ∧
            j.plan = updateFrames x r img ∧ j.frames = j.plan ∧ j.started = true ∧ t.ser.flash = s.ser.flash ∧
            j.asks = [{ cmd := c, status := 0, result := bytesField img 8 4 + 2 ^ 32 * r.altOffset }] ∧
            t.flag Reg.SEC_STATUS_UPDATING = true)) ∧
      (∀ d u, Entry.opcode e = 0x98 → c.reservedSet [(16, 12)] = false → s.secAddrBad va = false →
        (s.undispatch c).memRead { engine := 9, unit := 0 } va (c.field 24 4) = (.ok d none, u) →
        (s.oemRefused d = true →
          ∃ t, exec (.oemConfig q e) s = .next t ∧ t.reported c 0x7F 0 ∧ t.ser = s.ser ∧ u.raised t 45 0 4) ∧
        (s.oemRefused d = false →
          ∃ t, exec (.oemConfig q e) s = .next t ∧ t.ser.sections = putSection s.ser.sections 3 d ∧
            ((∃ j ∈ t.ser.jobs, { cmd := c, status := 0, result := bytesField d 0 4 } ∈ j.asks) ∨
              t.reported c 0x50 (bytesField d 0 4)))) ∧
      (∀ d l rs m u v w z h, Entry.opcode e = 0x95 → c.reservedSet [(16, 8)] = false → s.secAddrBad va = false → va % 4096 = 0 →
        firstFailing (s.unitChecks [watermarkUnit]) = none →
        (s.undispatch c).memRead { engine := 9, unit := 0 } va 256 = (.ok d none, u) →
        (headerBad (d.take 56) 8 64 = true →
          ∃ t, exec (.imageMeasure q e) s = .next t ∧ t.reported c 0x7F 0 ∧ t.sec = s.sec) ∧
        (headerBad (d.take 56) 8 64 = false → h = headerOf (d.take 56) →
          u.memRead { engine := 9, unit := 0 } (va + h.segTable) (16 * h.segCount) = (.ok l none, v) →
          (segmentsOf h.segCount (l.map some)).any (fun x => x.any Prod.snd) = false →
          v.segmentRuns ((segmentsOf h.segCount (l.map some)).filterMap (Option.map Prod.fst)) [] = (.inl rs, w) →
          w.readRuns ((va, h.codeOffset + 32 * h.wordCount) :: rs) [] = (.ok m none, z) →
          ∃ t x i, exec (.imageMeasure q e) s = .next t ∧ i = s.sec.logIndex va ∧ SMap.find t.sec.log i = some x ∧ x.base = va ∧
            x.digest = Config.shake256 m 64 ∧ t.sec.measured = s.sec.measured + 1 ∧
            t.reported c 0 (i + 2 ^ 8 * b2n x.host + 2 ^ 64 * leNat (x.digest.take 16)))) ∧
      (∀ cert ca u v m x, Entry.opcode e = 0x93 → cert = c.field 8 1 → cert ≤ 1 → ca = c.field 24 8 →
        c.reservedSet ([(8, 1), (16, 8), (32, 32)] ++ if cert = 1 then [(24, 8)] else []) = false → s.secAddrBad va = false →
        (cert = 1 → s.secAddrBad ca = false) → firstFailing (s.unitChecks [watermarkUnit]) = none →
        m = s.report (c.field 32 32) →
        x = (if cert = 1 then (match s.ser.dir with | some d => s.flashBytes d.certOffset d.certLength | none => []) else []) →
        (s.undispatch c).memWrite { engine := 9, unit := 0 } va (m ++ s.watermarkSign m) false = (.ok [] none, u) →
        u.memWrite { engine := 9, unit := 0 } ca x false = (.ok [] none, v) →
        ∃ t, exec (.attest q e) s = .next t ∧ t.reported c 0 ((m ++ s.watermarkSign m).length + 2 ^ 32 * x.length) ∧
          t.memData = v.memData ∧ t.sec.signatures = s.sec.signatures + 1 ∧ bytesField m 0 4 = 0x54415645 ∧
          bytesField m 8 8 = Config.serial.toNat ∧ bytesField m 18 2 = s.sec.log.length % 2 ^ 16 ∧
          bytesField m 24 8 = s.now % 2 ^ 64 ∧ bytesField m 32 32 = c.field 32 32) ∧
      (∀ u m, Entry.opcode e = 0x94 → c.reservedSet [(8, 4), (16, 12), (32, 32)] = false → s.secAddrBad va = false →
        firstFailing (s.unitChecks [watermarkUnit]) = none → m = s.summary (c.field 8 4) (c.field 32 32) →
        (c.field 24 4 < m.length + 3309 →
          ∃ t, exec (.summarySign q e) s = .next t ∧ t.reported c 0x7F (m.length + 3309) ∧ t.sec = s.sec ∧ t.memData = s.memData) ∧
        (m.length + 3309 ≤ c.field 24 4 →
          (s.undispatch c).memWrite { engine := 9, unit := 0 } va (m ++ s.watermarkSign m) false = (.ok [] none, u) →
          ∃ t, exec (.summarySign q e) s = .next t ∧ t.memData = u.memData ∧ t.sec.signatures = s.sec.signatures + 1 ∧
            t.sec.periodStart = s.now ∧ t.sec.images = [] ∧ t.sec.isPartial = false ∧ t.summarySites = [] ∧ t.summaryChains = [] ∧
            t.reported c 0 ((m ++ s.watermarkSign m).length + 2 ^ 32 * s.summarySites.length + 2 ^ 48 * s.summaryChains.length)))

/-- PERST#, supply and reference resets, their release, and the boot. A reset by PERST#, by a supply dip or by the
loss of the reference leaves every register at its reset value but RESET_CAUSE and the event lines, the fuse banks
read anew, device memory empty, no program, no completion; host memory and the fuses stay. PERST# held down holds the
device, which takes no second reset by it and notes a supply or reference loss until that ends; the release chooses
the reference. BOOT with a result already changes nothing. With no valid directory copy it ends with BOOT_RESULT 2;
with an image that fails and no second image to try, with the failure of that image, unready and unbooted; with an
image that passes, the device is booted, the image runs and the Watermark is ready. The reset values that the spec
gives no value for are the model's (NOTES.md). Says the completion of: supplyReset, boot, perst, referenceLoss,
perstAssert, internalResetRelease. (R12, R434, R438, R452, R455, R456, R457, R464, R474, R492, R494, R505) -/
def Obligations.ResetsAndBoot : Prop :=
  (∀ (s t : State) (i : Instr), exec i s = .next t →
      (i = .perstAssert ∧ s.perst = false ∨ (∃ x, i = .perst x) ∧ s.perst = false ∨
        ((∃ r, i = .supplyReset r) ∨ i = .referenceLoss) ∧ s.perst = false) →
      t.perst = decide (i = .perstAssert) ∧
        t.internalReset = (s.internalReset || decide (i = .referenceLoss) || decide (∃ r, i = .supplyReset r)) ∧
        (∀ a, a ≠ 0x5058 → ¬ (0x40C0 ≤ a ∧ a < 0x40E0) → t.quad a = quadReset t.fuse a) ∧
        t.flag Reg.RESET_CAUSE_SUPPLY = (decide (i = .referenceLoss) || decide (∃ r, i = .supplyReset r)) ∧
        t.flag Reg.RESET_CAUSE_PERST = !t.flag Reg.RESET_CAUSE_SUPPLY ∧ t.flag Reg.RESET_CAUSE_THERMAL = s.power.shutdown ∧
        t.fuse = { variant := s.fuse.variant, oem := s.burned } ∧ t.burned = s.burned ∧ t.mem.cells = [] ∧ t.mem.dtt = [] ∧
        t.mem.host = s.mem.host ∧ t.programs = [] ∧ t.hi = {} ∧ t.sec = {} ∧ t.power = {} ∧ t.pending = s.pending ∧
        ∀ k < 8, ((s.line k).outside = true → t.evAsserted k = true) ∧
          (t.evAsserted k = true → ∃ l, (k, l) ∈ s.ev.lines ∧ l.outside = true)) ∧
    (∀ s : State, (s.perst = true → exec .perstAssert s = .next s ∧
        (∀ x, exec (.perst x) s = .next { s with perst := false, xref := x }) ∧
        (∀ r, exec (.supplyReset r) s = .next { s with internalReset := true }) ∧
        exec .referenceLoss s = .next { s with internalReset := true }) ∧
      (s.perst = false → (∃ t, exec .perstAssert s = .next t ∧ t.perst = true) ∧
        (∀ x, ∃ t, exec (.perst x) s = .next t ∧ t.perst = false ∧ t.xref = x) ∧
        (∀ r, ∃ t, exec (.supplyReset r) s = .next t ∧ t.internalReset = true) ∧
        ∃ t, exec .referenceLoss s = .next t ∧ t.internalReset = true) ∧
      exec .internalResetRelease s = .next { s with internalReset := false }) ∧
    (∀ s : State, (s.inReset = true ∨ s.fld Reg.SEC_STATUS_BOOT_RESULT ≠ 0 → exec .boot s = .next s) ∧
      (s.inReset = false → s.fld Reg.SEC_STATUS_BOOT_RESULT = 0 →
        (s.readDirectory = none →
          ∃ t, exec .boot s = .next t ∧ t.fld Reg.SEC_STATUS_BOOT_RESULT = 2 ∧ s.onlyRegs t [Reg.SEC_STATUS_BOOT_RESULT]) ∧
        (∀ d second x img, s.readDirectory = some (d, second) → x = directoryOf d → img = s.flashBytes x.fwOffset x.fwLength →
          (s.fwResult img x.fwLength ≠ 1 →
            second = true ∨ directoryValid (s.flashBytes 0x1000 96) = false ∨
              (directoryOf (s.flashBytes 0x1000 96)).fwOffset = x.fwOffset →
            ∃ t, exec .boot s = .next t ∧ t.fld Reg.SEC_STATUS_BOOT_RESULT = s.fwResult img x.fwLength ∧
              t.flag Reg.SEC_STATUS_BOOTED = s.flag Reg.SEC_STATUS_BOOTED ∧ t.readyMap = s.readyMap ∧ t.sec = s.sec ∧
              t.memData = s.memData) ∧
          (s.fwResult img x.fwLength = 1 →
            ∃ t, exec .boot s = .next t ∧ t.fld Reg.SEC_STATUS_BOOT_RESULT = 1 ∧ t.flag Reg.SEC_STATUS_BOOTED = true ∧
              t.ready watermarkUnit = true ∧ t.sec.running = some (fwImageOf img x.fwOffset x.fwLength) ∧
              t.sec.periodStart = t.now ∧ t.sec.images = [] ∧ t.ser.flash = s.ser.flash))))

end
end

