-- ==== Sys2Proof/Laws/FrozenBase.lean ====
section
/-! SUPPORT. The part of the state that only resets, and the test access port change: fuses in effect, reset
lines, the reference in use, JTAG and the count of hot resets. -/

namespace Sys2Proof.Machine

open Sys2Proof

@[simp] theorem State.frozen_update (t : State) {x_burned x_regs x_applied x_timing x_timingApplied x_ev x_mem x_held x_pins
    x_groups x_programs x_starts x_seqs x_rings x_clusters x_tmus x_awgs x_dgs x_dps x_swgHeld x_popTests x_dma x_felt
    x_power x_sec x_cals x_ser x_units x_causes x_popInput x_draws} :
    State.frozen (State.mk t.pending x_regs x_applied x_timing x_timingApplied t.fuse x_burned t.perst t.internalReset t.xref
        t.hi x_ev x_mem x_held x_pins x_groups x_programs x_starts x_seqs x_rings x_clusters x_tmus x_awgs x_dgs x_dps
        x_swgHeld x_popTests x_dma x_felt x_power x_sec x_cals x_ser x_units t.jtag x_causes x_popInput x_draws) = t.frozen
        := by
  cases t; rfl

@[simp] theorem State.frozen_update_hi (t : State) {x_burned x_regs x_applied x_timing x_timingApplied x_ev x_mem x_held
    x_pins x_groups x_programs x_starts x_seqs x_rings x_clusters x_tmus x_awgs x_dgs x_dps x_swgHeld x_popTests x_dma x_felt
    x_power x_sec x_cals x_ser x_units x_causes x_popInput x_draws y_sq y_cq y_buffer y_unitHeld y_dispatched y_accepted y_lastFirst
    y_thisFirst y_turn y_blocked y_statusDue y_busMaster y_msixEnable y_functionMask y_atsEnable y_priEnable y_priAllocation
    y_pmeEnable y_pmeStatus y_d3hot y_unmasked y_msixTable y_pba y_deferred y_l1Exit y_ltr y_roundLines} :
    State.frozen (State.mk t.pending x_regs x_applied x_timing x_timingApplied t.fuse x_burned t.perst t.internalReset t.xref
        (HostIf.mk y_sq y_cq y_buffer y_unitHeld y_dispatched y_accepted y_lastFirst y_thisFirst y_turn y_blocked y_statusDue t.hi.epoch
        y_busMaster y_msixEnable y_functionMask y_atsEnable y_priEnable y_priAllocation y_pmeEnable y_pmeStatus y_d3hot
        y_unmasked y_msixTable y_pba y_deferred y_l1Exit y_ltr y_roundLines) x_ev x_mem x_held x_pins x_groups x_programs
        x_starts x_seqs x_rings x_clusters x_tmus x_awgs x_dgs x_dps x_swgHeld x_popTests x_dma x_felt x_power x_sec x_cals
        x_ser x_units t.jtag x_causes x_popInput x_draws) = t.frozen := by
  cases t; rfl

@[simp] theorem State.frozen_ite (c : Prop) [Decidable c] (s t : State) :
    (if c then s else t).frozen = if c then s.frozen else t.frozen := apply_ite _ _ _ _

@[simp] theorem State.frozen_ite_snd {α : Type} (c : Prop) [Decidable c] (s t : α × State) :
    (if c then s else t).2.frozen = if c then s.2.frozen else t.2.frozen := by split <;> rfl

@[simp] theorem State.frozen_foldl {α : Type} (f : State → α → State) (h : ∀ s a, (f s a).frozen = s.frozen) (l : List α)
    (s : State) : (l.foldl f s).frozen = s.frozen := by
  induction l generalizing s with
  | nil => rfl
  | cons a l ih => simp [ih, h]

end Sys2Proof.Machine
end

