-- ==== Sys2Proof/Laws/Frozen/Ops.lean ====
section
/-! SUPPORT. What the operations of Sys2Proof/Machine/Ops.lean leave alone: the queue, the fuses in effect, the reset lines,
the reference, the test access port and the count of hot resets. -/

namespace Sys2Proof.Machine

open Sys2Proof

set_option linter.unusedTactic false
set_option linter.unreachableTactic false
set_option linter.unusedSimpArgs false

@[simp] theorem State.setQuad_frozen (s : State) (a : Nat) (v : BitVec 64) :
    (State.setQuad s a v).frozen = s.frozen := by
  simp [State.setQuad]

@[simp] theorem State.setFld_frozen (s : State) (f : Fld) (v : Nat) :
    (State.setFld s f v).frozen = s.frozen := by
  simp [State.setFld]

@[simp] theorem State.setFlag_frozen (s : State) (f : Fld) (b : Bool) :
    (State.setFlag s f b).frozen = s.frozen := by
  simp [State.setFlag]

@[simp] theorem State.bump_frozen (s : State) (f : Fld) (k : Nat) :
    (State.bump s f k).frozen = s.frozen := by
  simp [State.bump]

@[simp] theorem State.applyVal_frozen (s : State) (f : Fld) (v : Nat) :
    (State.applyVal s f v).frozen = s.frozen := by
  simp [State.applyVal]

@[simp] theorem State.applyFld_frozen (s : State) (f : Fld) :
    (State.applyFld s f).frozen = s.frozen := by
  simp [State.applyFld]

@[simp] theorem State.applyFlds_frozen (s : State) (l : List Fld) :
    (State.applyFlds s l).frozen = s.frozen := by
  simp [State.applyFlds]

@[simp] theorem State.raiseAt_frozen (s : State) (n : Nat) (unit : Nat) (info : Nat) (t : Nat) :
    (State.raiseAt s n unit info t).frozen = s.frozen := by
  simp [State.raiseAt]

@[simp] theorem State.raise_frozen (s : State) (n : Nat) (unit : Nat) (info : Nat) :
    (State.raise s n unit info).frozen = s.frozen := by
  simp [State.raise]

@[simp] theorem State.sendMsix_frozen (s : State) (_v : Nat) :
    (State.sendMsix s _v).frozen = s.frozen := by
  simp [State.sendMsix]

@[simp] theorem State.deliverVector_frozen (s : State) (v : Nat) :
    (State.deliverVector s v).frozen = s.frozen := by
  simp [State.deliverVector]

@[simp] theorem State.moderateCq_frozen (s : State) (q : Nat) :
    (State.moderateCq s q).frozen = s.frozen := by
  simp [State.moderateCq]

@[simp] theorem State.released_frozen (s : State) (c : Cmd) :
    (State.released s c).frozen = s.frozen := by
  unfold State.released; (repeat' (first | with_reducible rfl | (simp []; done) | (split <;> try (rename_i heq; obtain ⟨_, rfl⟩ := Prod.ext_iff.mp heq)) | refine (State.frozen_foldl _ (fun _ _ => ?_) _ _).trans ?_ | dsimp only | simp []))

@[simp] theorem State.completeTo_frozen (s : State) (cq : Nat) (c : Cmd) (st : Nat) (res : Nat) :
    (State.completeTo s cq c st res).frozen = s.frozen := by
  simp [State.completeTo]

@[simp] theorem State.complete_frozen (s : State) (c : Cmd) (st : Nat) (res : Nat) :
    (State.complete s c st res).frozen = s.frozen := by
  simp [State.complete]

@[simp] theorem State.checked_frozen (s : State) (c : Cmd) (checks : List (Bool × Nat)) (k : State → State) (hk : ∀ x0, (k x0).frozen = State.frozen x0) :
    (State.checked s c checks k).frozen = s.frozen := by
  unfold State.checked; (repeat' split) <;> simp [hk]

@[simp] theorem State.hold_frozen (s : State) (c : Cmd) (w : WaitOn) :
    (State.hold s c w).frozen = s.frozen := by
  simp [State.hold]

@[simp] theorem State.draw_frozen (s : State) (w : Nat) :
    (State.draw s w).2.frozen = s.frozen := by
  simp [State.draw]

end Sys2Proof.Machine
end

