-- ==== Sys2Proof/Laws/Frozen/Mem.lean ====
section
/-! SUPPORT. What the operations of Sys2Proof/Machine/Mem.lean leave alone: the queue, the fuses in effect, the reset lines,
the reference, the test access port and the count of hot resets. -/

namespace Sys2Proof.Machine

open Sys2Proof

set_option linter.unusedTactic false
set_option linter.unreachableTactic false
set_option linter.unusedSimpArgs false

@[simp] theorem State.writeDpa_frozen (s : State) (a : Nat) (data : List Byte) (poison : Bool) :
    (State.writeDpa s a data poison).frozen = s.frozen := by
  simp [State.writeDpa]

@[simp] theorem State.writeHost_frozen (s : State) (a : Nat) (data : List Byte) (poison : Bool) :
    (State.writeHost s a data poison).frozen = s.frozen := by
  simp [State.writeHost]

@[simp] theorem State.damage_frozen (s : State) (block : Nat) (errors : List (Fin 68 × BitVec 8)) :
    (State.damage s block errors).frozen = s.frozen := by
  simp [State.damage]

@[simp] theorem State.strike_frozen (s : State) (block : Nat) (errors : List (Fin 68 × BitVec 8)) :
    (State.strike s block errors).frozen = s.frozen := by
  simp [State.strike]

@[simp] theorem State.uncorrectable_frozen (s : State) (block : Nat) (source : Nat) :
    (State.uncorrectable s block source).frozen = s.frozen := by
  simp [State.uncorrectable]

@[simp] theorem State.eccBlock_frozen (source : Nat) (s : State) (block : Nat) :
    (State.eccBlock source s block).frozen = s.frozen := by
  unfold State.eccBlock; (repeat' (first | with_reducible rfl | (simp []; done) | (split <;> try (rename_i heq; obtain ⟨_, rfl⟩ := Prod.ext_iff.mp heq)) | refine (State.frozen_foldl _ (fun _ _ => ?_) _ _).trans ?_ | dsimp only | simp []))

@[simp] theorem State.mergeBlocks_frozen (s : State) (a : Nat) (n : Nat) :
    (State.mergeBlocks s a n).frozen = s.frozen := by
  simp [State.mergeBlocks]

@[simp] theorem State.logFault_frozen (s : State) (x : MemCtx) (va : Nat) (k : Nat) (entry : Option Nat) (write : Bool) :
    (State.logFault s x va k entry write).frozen = s.frozen := by
  simp [State.logFault]

@[simp] theorem State.touchRange_frozen (s : State) (r : AtcRange) :
    (State.touchRange s r).frozen = s.frozen := by
  simp [State.touchRange]

@[simp] theorem State.requestPage_frozen (s : State) (w : Waiter) (entry : Nat) (base : Nat) :
    (State.requestPage s w entry base).frozen = s.frozen := by
  simp [State.requestPage]

@[simp] theorem State.awaitPage_frozen (s : State) (w : Waiter) (entry : Nat) (base : Nat) :
    (State.awaitPage s w entry base).frozen = s.frozen := by
  simp [State.awaitPage]

@[simp] theorem State.hostPath_frozen (s : State) (x : MemCtx) (va : Nat) (a : Nat) (entry : Nat) (write : Bool) (more : Bool) :
    (State.hostPath s x va a entry write more).2.frozen = s.frozen := by
  unfold State.hostPath; dsimp only; (repeat' split) <;> simp []

@[simp] theorem State.faultAcc_frozen (s : State) (x : MemCtx) (va : Nat) (k : Nat) (entry : Option Nat) (write : Bool) :
    (State.faultAcc s x va k entry write).2.frozen = s.frozen := by
  simp [State.faultAcc]

@[simp] theorem State.poisonAcc_frozen (s : State) (x : MemCtx) (va : Nat) (k : Nat) (entry : Nat) (data : List Byte) :
    (State.poisonAcc s x va k entry data).2.frozen = s.frozen := by
  simp [State.poisonAcc]

@[simp] theorem State.poisonDelivered_frozen (s : State) (bad : List Nat) :
    (State.poisonDelivered s bad).frozen = s.frozen := by
  simp [State.poisonDelivered]

@[simp] theorem State.readPiece_frozen (s : State) (x : MemCtx) (va : Nat) (n : Nat) (more : Bool) :
    (State.readPiece s x va n more).2.frozen = s.frozen := by
  unfold State.readPiece
  split
  · simp
  · split
    · rfl
    · split
      · simp
      · split
        · simp
        · dsimp only
          (repeat' split) <;> simp
      · rename_i a e _
        split
        · simp
        · have h := State.hostPath_frozen s x va a e false more
          split
          · rename_i heq
            rw [heq] at h
            split
            · simpa using h
            · split
              · simpa using h
              · simpa using h
          all_goals (rename_i heq; rw [heq] at h; simpa using h)

@[simp] theorem readPieces_frozen (v0 : Nat) (v1 : MemCtx) (v2 : Nat) (v3 : Nat) (s : State) :
    (readPieces v0 v1 v2 v3 s).2.frozen = s.frozen := by
  induction v0 generalizing v1 v2 v3 s with
  | zero => rfl
  | succ fuel ih =>
    simp only [readPieces]
    split
    · rfl
    · have h := State.readPiece_frozen s v1 v2 (min v3 (4096 - v2 % 4096)) (s.goesOn v2 v3)
      split
      · rename_i d p s1 heq
        rw [heq] at h
        have h2 := ih v1 (v2 + min v3 (4096 - v2 % 4096)) (v3 - min v3 (4096 - v2 % 4096)) s1
        split
        · rename_i heq2
          rw [heq2] at h2
          exact h2.trans h
        · exact h2.trans h
      · exact h

@[simp] theorem State.memRead_frozen (s : State) (x : MemCtx) (va : Nat) (n : Nat) :
    (State.memRead s x va n).2.frozen = s.frozen := by
  simp [State.memRead]

@[simp] theorem State.writePiece_frozen (s : State) (x : MemCtx) (va : Nat) (data : List Byte) (poison : Bool) (more : Bool) :
    (State.writePiece s x va data poison more).2.frozen = s.frozen := by
  unfold State.writePiece
  split
  · simp
  · split
    · rfl
    · split
      · simp
      · simp
      · rename_i a e _
        have h := State.hostPath_frozen s x va a e true more
        split <;> (rename_i heq; rw [heq] at h; simpa using h)

@[simp] theorem writePieces_frozen (v0 : Nat) (v1 : MemCtx) (v2 : Nat) (v3 : List Byte) (v4 : Bool) (s : State) :
    (writePieces v0 v1 v2 v3 v4 s).2.frozen = s.frozen := by
  induction v0 generalizing v1 v2 v3 v4 s with
  | zero => rfl
  | succ fuel ih =>
    simp only [writePieces]
    split
    · rfl
    · have h := State.writePiece_frozen s v1 v2 (v3.take (4096 - v2 % 4096)) v4 (s.goesOn v2 v3.length)
      split
      · rename_i heq
        rw [heq] at h
        exact (ih _ _ _ _ _).trans h
      · exact h

@[simp] theorem State.memWrite_frozen (s : State) (x : MemCtx) (va : Nat) (data : List Byte) (poison : Bool) :
    (State.memWrite s x va data poison).2.frozen = s.frozen := by
  simp [State.memWrite]

@[simp] theorem State.abandon_frozen (s : State) (engine : Nat) (unit : Nat) :
    (State.abandon s engine unit).frozen = s.frozen := by
  simp [State.abandon]

@[simp] theorem prePieces_frozen (v0 : Nat) (v1 : MemCtx) (v2 : Nat) (v3 : Nat) (s : State) :
    (prePieces v0 v1 v2 v3 s).2.frozen = s.frozen := by
  induction v0 generalizing v1 v2 v3 s <;> unfold prePieces <;> (repeat' (first | with_reducible rfl | (simp [*]; done) | (split <;> try (rename_i heq; obtain ⟨_, rfl⟩ := Prod.ext_iff.mp heq)) | refine (State.frozen_foldl _ (fun _ _ => ?_) _ _).trans ?_ | dsimp only | simp []))

@[simp] theorem State.keepRequests_frozen (s : State) (t : State) :
    (State.keepRequests s t).frozen = s.frozen := by
  simp [State.keepRequests]

@[simp] theorem State.preRead_frozen (s : State) (x : MemCtx) (va : Nat) (n : Nat) :
    (State.preRead s x va n).2.2.frozen = s.frozen := by
  unfold State.preRead; (repeat' (first | with_reducible rfl | (simp []; done) | (split <;> try (rename_i heq; obtain ⟨_, rfl⟩ := Prod.ext_iff.mp heq)) | refine (State.frozen_foldl _ (fun _ _ => ?_) _ _).trans ?_ | dsimp only | simp []))

@[simp] theorem State.withReadOr_frozen (s : State) (c : Cmd) (x : MemCtx) (va : Nat) (n : Nat) (breach : List (Option Byte) → Bool) (refuse : State → State) (k : List Byte → State → State) (hrefuse : ∀ x0, (refuse x0).frozen = State.frozen x0) (hk : ∀ x0 x1, (k x0 x1).frozen = State.frozen x1) :
    (State.withReadOr s c x va n breach refuse k).frozen = s.frozen := by
  unfold State.withReadOr; (repeat' (first | with_reducible rfl | (simp [hrefuse, hk]; done) | (split <;> try (rename_i heq; obtain ⟨_, rfl⟩ := Prod.ext_iff.mp heq)) | refine (State.frozen_foldl _ (fun _ _ => ?_) _ _).trans ?_ | dsimp only | simp [hrefuse, hk]))

@[simp] theorem State.withRead_frozen (s : State) (c : Cmd) (x : MemCtx) (va : Nat) (n : Nat) (k : List Byte → State → State) (hk : ∀ x0 x1, (k x0 x1).frozen = State.frozen x1) :
    (State.withRead s c x va n k).frozen = s.frozen := by
  simp [State.withRead, hk]

end Sys2Proof.Machine
end

