-- ==== Sys2Proof/Laws/Frozen/Records.lean ====
section
/-! SUPPORT. What the operations of Sys2Proof/Machine/Records.lean leave alone: the queue, the fuses in effect, the reset lines,
the reference, the test access port and the count of hot resets. -/

namespace Sys2Proof.Machine

open Sys2Proof

set_option linter.unusedTactic false
set_option linter.unreachableTactic false
set_option linter.unusedSimpArgs false

@[simp] theorem State.setProgram_frozen (s : State) (b : Nat) (p : Program) :
    (State.setProgram s b p).frozen = s.frozen := by
  simp [State.setProgram]

@[simp] theorem State.modProgram_frozen (s : State) (b : Nat) (f : Program → Program) :
    (State.modProgram s b f).frozen = s.frozen := by
  unfold State.modProgram; (repeat' split) <;> simp []

@[simp] theorem State.modSeq_frozen (s : State) (n : Nat) (f : Seq → Seq) :
    (State.modSeq s n f).frozen = s.frozen := by
  simp [State.modSeq]

@[simp] theorem State.modPin_frozen (s : State) (p : Nat) (f : Pin → Pin) :
    (State.modPin s p f).frozen = s.frozen := by
  simp [State.modPin]

@[simp] theorem State.noteStatus_frozen (s : State) (b : Nat) (p : Nat) (st : Nat) :
    (State.noteStatus s b p st).frozen = s.frozen := by
  simp [State.noteStatus]

@[simp] theorem State.noteSite_frozen (s : State) (site : Nat) (st : Nat) :
    (State.noteSite s site st).frozen = s.frozen := by
  unfold State.noteSite; (repeat' split) <;> simp []

@[simp] theorem State.showElastic_frozen (s : State) (n : Nat) :
    (State.showElastic s n).frozen = s.frozen := by
  simp [State.showElastic]

@[simp] theorem State.enterRecord_frozen (s : State) (n : Nat) (r : Rec) :
    (State.enterRecord s n r).frozen = s.frozen := by
  simp [State.enterRecord]

@[simp] theorem State.lossRecords_frozen (s : State) (n : Nat) (v2 : Nat) :
    (State.lossRecords s n v2).frozen = s.frozen := by
  induction v2 generalizing s n <;> unfold State.lossRecords <;> (repeat' (first | with_reducible rfl | (simp [*]; done) | (split <;> try (rename_i heq; obtain ⟨_, rfl⟩ := Prod.ext_iff.mp heq)) | refine (State.frozen_foldl _ (fun _ _ => ?_) _ _).trans ?_ | dsimp only | simp []))

@[simp] theorem State.deckleRecords_frozen (s : State) (n : Nat) (v2 : Nat) :
    (State.deckleRecords s n v2).frozen = s.frozen := by
  induction v2 generalizing s n <;> unfold State.deckleRecords <;> (repeat' (first | with_reducible rfl | (simp [*]; done) | (split <;> try (rename_i heq; obtain ⟨_, rfl⟩ := Prod.ext_iff.mp heq)) | refine (State.frozen_foldl _ (fun _ _ => ?_) _ _).trans ?_ | dsimp only | simp []))

@[simp] theorem State.reportLosses_frozen (s : State) (n : Nat) :
    (State.reportLosses s n).frozen = s.frozen := by
  simp [State.reportLosses]

@[simp] theorem State.discardRecords_frozen (s : State) (n : Nat) (cause : Nat) (f : Rec → Bool) :
    (State.discardRecords s n cause f).frozen = s.frozen := by
  simp [State.discardRecords]

end Sys2Proof.Machine
end

