-- ==== Sys2Proof/Laws/Frozen/Operands.lean ====
section
/-! SUPPORT. What the operations of Sys2Proof/Machine/Operands.lean leave alone: the queue, the fuses in effect, the reset lines,
the reference, the test access port and the count of hot resets. -/

namespace Sys2Proof.Machine

open Sys2Proof

set_option linter.unusedTactic false
set_option linter.unreachableTactic false
set_option linter.unusedSimpArgs false

@[simp] theorem State.startExit_frozen (s : State) :
    (State.startExit s).frozen = s.frozen := by
  simp [State.startExit]

@[simp] theorem State.accepts_frozen (s : State) (c : Cmd) :
    (State.accepts s c).frozen = s.frozen := by
  unfold State.accepts; (repeat' (first | with_reducible rfl | (simp []; done) | (split <;> try (rename_i heq; obtain ⟨_, rfl⟩ := Prod.ext_iff.mp heq)) | refine (State.frozen_foldl _ (fun _ _ => ?_) _ _).trans ?_ | dsimp only | simp []))

@[simp] theorem State.undispatch_frozen (s : State) (c : Cmd) :
    (State.undispatch s c).frozen = s.frozen := by
  simp [State.undispatch]

@[simp] theorem State.accept_frozen (s : State) (c : Cmd) (k : Cmd → State → State) (hk : ∀ x0 x1, (k x0 x1).frozen = State.frozen x1) :
    (State.accept s c k).frozen = s.frozen := by
  simp [State.accept, hk]

end Sys2Proof.Machine
end

