-- ==== Sys2Proof/Laws/Frozen/Pins.lean ====
section
/-! SUPPORT. What the operations of Sys2Proof/Machine/Pins.lean leave alone: the queue, the fuses in effect, the reset lines,
the reference, the test access port and the count of hot resets. -/

namespace Sys2Proof.Machine

open Sys2Proof

set_option linter.unusedTactic false
set_option linter.unreachableTactic false
set_option linter.unusedSimpArgs false

@[simp] theorem State.applyVoltages_frozen (s : State) (l : List Fld) :
    (State.applyVoltages s l).frozen = s.frozen := by
  simp [State.applyVoltages]

@[simp] theorem State.applyCurrent_frozen (s : State) (step : Int) (f : Fld) :
    (State.applyCurrent s step f).frozen = s.frozen := by
  simp [State.applyCurrent]

@[simp] theorem State.applyLevelSet_frozen (s : State) (p : Nat) (k : Nat) :
    (State.applyLevelSet s p k).frozen = s.frozen := by
  simp [State.applyLevelSet]

@[simp] theorem State.applyClamps_frozen (s : State) (p : Nat) :
    (State.applyClamps s p).frozen = s.frozen := by
  simp [State.applyClamps]

@[simp] theorem State.applyThreshold_frozen (s : State) (p : Nat) :
    (State.applyThreshold s p).frozen = s.frozen := by
  simp [State.applyThreshold]

@[simp] theorem State.applyPpmu_frozen (s : State) (p : Nat) :
    (State.applyPpmu s p).frozen = s.frozen := by
  simp [State.applyPpmu]

@[simp] theorem State.showCeiling_frozen (s : State) (p : Nat) :
    (State.showCeiling s p).frozen = s.frozen := by
  simp [State.showCeiling]

@[simp] theorem State.applyPin_frozen (s : State) (p : Nat) :
    (State.applyPin s p).frozen = s.frozen := by
  simp [State.applyPin]

@[simp] theorem State.pinWritten_frozen (s : State) (p : Nat) :
    (State.pinWritten s p).frozen = s.frozen := by
  simp [State.pinWritten]

@[simp] theorem State.popPush_frozen (s : State) (r : PopReading) :
    (State.popPush s r).frozen = s.frozen := by
  simp [State.popPush]

@[simp] theorem State.conditionReading_frozen (s : State) (b : Nat) (serial : Nat) (r : CondReading) :
    (State.conditionReading s b serial r).frozen = s.frozen := by
  simp [State.conditionReading]

@[simp] theorem State.modCluster_frozen (s : State) (c : Nat) (f : Cluster → Cluster) :
    (State.modCluster s c f).frozen = s.frozen := by
  simp [State.modCluster]

@[simp] theorem State.ppmuRunEnd_frozen (s : State) (cl : Nat) (r : PpmuRun) :
    (State.ppmuRunEnd s cl r).frozen = s.frozen := by
  simp [State.ppmuRunEnd]

@[simp] theorem State.ppmuPinDone_frozen (s : State) (cl : Nat) (i : Nat) (cmd : Cmd) (ok : Bool) (flagged : Bool) :
    (State.ppmuPinDone s cl i cmd ok flagged).frozen = s.frozen := by
  unfold State.ppmuPinDone; (repeat' split) <;> simp []

@[simp] theorem State.deliverPin_frozen (s : State) (p : Nat) (m : PinMeas) (status : Nat) (conversions : Nat) (value : Int) (flags : Nat) (start : Nat) :
    (State.deliverPin s p m status conversions value flags start).frozen = s.frozen := by
  unfold State.deliverPin; (repeat' split) <;> simp []

@[simp] theorem State.startMeas_frozen (s : State) (p : Nat) (m : PinMeas) :
    (State.startMeas s p m).frozen = s.frozen := by
  simp [State.startMeas]

@[simp] theorem State.cutMeas_frozen (s : State) (p : Nat) (status : Nat) (n : Nat) (sum : Int) (start : Nat) (clamped : Bool) :
    (State.cutMeas s p status n sum start clamped).frozen = s.frozen := by
  unfold State.cutMeas; (repeat' split) <;> simp []

@[simp] theorem doPpmuReading_frozen (p : Nat) (sum : BitVec 26) (clamped : Bool) (start : Nat) (s : State) :
    (doPpmuReading p sum clamped start s).frozen = s.frozen := by
  unfold doPpmuReading; (repeat' split) <;> simp []

end Sys2Proof.Machine
end

