-- ==== Sys2Proof/Laws/Frozen/Routes.lean ====
section
/-! SUPPORT. What the operations of Sys2Proof/Machine/Routes.lean leave alone: the queue, the fuses in effect, the reset lines,
the reference, the test access port and the count of hot resets. -/

namespace Sys2Proof.Machine

open Sys2Proof

set_option linter.unusedTactic false
set_option linter.unreachableTactic false
set_option linter.unusedSimpArgs false

@[simp] theorem State.feltSend_frozen (s : State) (dest : Nat) (typ : Nat) (tid : Nat) (poison : Nat) (flits : List Nat) :
    (State.feltSend s dest typ tid poison flits).frozen = s.frozen := by
  simp [State.feltSend]

@[simp] theorem State.sendReduce_frozen (s : State) (dest : Nat) (test : Nat) (round : Nat) (kind : Nat) (check : Nat) (body : List Byte) :
    (State.sendReduce s dest test round kind check body).frozen = s.frozen := by
  simp [State.sendReduce]

end Sys2Proof.Machine
end

