-- ==== Sys2Proof/Laws/Frozen/Pop.lean ====
section
/-! SUPPORT. What the operations of Sys2Proof/Machine/Pop.lean leave alone: the queue, the fuses in effect, the reset lines,
the reference, the test access port and the count of hot resets. -/

namespace Sys2Proof.Machine

open Sys2Proof

set_option linter.unusedTactic false
set_option linter.unreachableTactic false
set_option linter.unusedSimpArgs false

@[simp] theorem State.modPop_frozen (s : State) (k : Nat) (f : PopTest → PopTest) :
    (State.modPop s k f).frozen = s.frozen := by
  unfold State.modPop; (repeat' split) <;> simp []

@[simp] theorem State.showTree_frozen (s : State) :
    (State.showTree s).frozen = s.frozen := by
  simp [State.showTree]

@[simp] theorem State.workTouch_frozen (s : State) (t : PopTest) (off : Nat) (n : Nat) :
    (State.workTouch s t off n).2.frozen = s.frozen := by
  unfold State.workTouch; (repeat' split) <;> (first | (simp []; done) | grind [State.memRead_frozen, State.memWrite_frozen])

@[simp] theorem State.workStore_frozen (s : State) (t : PopTest) (v2 : List (Nat × List Byte)) :
    (State.workStore s t v2).2.frozen = s.frozen := by
  induction v2 generalizing s with
  | nil => rfl
  | cons x l ih =>
    obtain ⟨off, data⟩ := x
    have h := State.memWrite_frozen s popCtx (t.work + off) data false
    unfold State.workStore
    split
    · rename_i heq
      rw [heq] at h
      exact (ih _).trans h
    all_goals (rename_i heq; rw [heq] at h; exact h)

@[simp] theorem State.popAsk_frozen (s : State) (k : Nat) (l : List PopOp) :
    (State.popAsk s k l).frozen = s.frozen := by
  simp [State.popAsk]

@[simp] theorem State.tellFollowers_frozen (s : State) (k : Nat) :
    (State.tellFollowers s k).frozen = s.frozen := by
  simp [State.tellFollowers]

@[simp] theorem State.tellChildren_frozen (s : State) (t : PopTest) (kind : Nat) (body : List Byte) :
    (State.tellChildren s t kind body).frozen = s.frozen := by
  simp [State.tellChildren]

@[simp] theorem State.failTest_frozen (s : State) (k : Nat) (st : Nat) :
    (State.failTest s k st).frozen = s.frozen := by
  unfold State.failTest; (repeat' split) <;> simp []

theorem popGo_frozen (k : Nat) (r : Work × State) (f : List Byte → State → PopRun) (s : State) (hr : r.2.frozen = s.frozen)
    (hf : ∀ d u, u.frozen = s.frozen → (f d u).s.frozen = s.frozen) : (popGo k r f).s.frozen = s.frozen := by
  obtain ⟨w, u⟩ := r
  change u.frozen = s.frozen at hr
  cases w with
  | done d => exact hf d u hr
  | wait => exact hr
  | fail p => simpa [popGo] using hr

@[simp] theorem State.popRecord_frozen (s : State) (k : Nat) (t : PopTest) (r : PopReading) : (s.popRecord k t r).s.frozen = s.frozen := by
  unfold State.popRecord
  repeat' (first | with_reducible rfl | with_reducible assumption | (simp [*]; done) | split | (refine popGo_frozen _ _ _ _ ?_ (fun _ _ _ => ?_)) | dsimp only)

@[simp] theorem State.popClose_frozen (s : State) (k : Nat) (t : PopTest)  : (s.popClose k t).s.frozen = s.frozen := by
  unfold State.popClose
  repeat' (first | with_reducible rfl | with_reducible assumption | (simp [*]; done) | split | (refine popGo_frozen _ _ _ _ ?_ (fun _ _ _ => ?_)) | dsimp only)

@[simp] theorem State.popSend_frozen (s : State) (k : Nat) (t : PopTest)  : (s.popSend k t).s.frozen = s.frozen := by
  unfold State.popSend
  repeat' (first | with_reducible rfl | with_reducible assumption | (simp [*]; done) | split | (refine popGo_frozen _ _ _ _ ?_ (fun _ _ _ => ?_)) | dsimp only)

@[simp] theorem State.popMerge_frozen (s : State) (k : Nat) (t : PopTest) (src covered : Nat) (late : Bool) (u o : Nat) (bins : List Nat) : (s.popMerge k t src covered late u o bins).s.frozen = s.frozen := by
  unfold State.popMerge
  dsimp only
  split
  · simp
  · split
    · simp
    · split
      · simp
      · have h := State.workTouch_frozen s t 0x4000 (4 * t.bins)
        split <;> (rename_i heq; rw [heq] at h)
        · exact popGo_frozen _ _ _ _ (by simpa using h) (fun _ _ hu => by simpa using hu)
        · exact h
        · simpa using h

@[simp] theorem State.popFinal_frozen (s : State) (k : Nat) (t : PopTest) (time : Nat) : (s.popFinal k t time).s.frozen = s.frozen := by
  unfold State.popFinal
  repeat' (first | with_reducible rfl | with_reducible assumption | (simp [*]; done) | split | (refine popGo_frozen _ _ _ _ ?_ (fun _ _ _ => ?_)) | dsimp only)

@[simp] theorem State.popFinalFrom_frozen (s : State) (k : Nat) (t : PopTest) (body : List Byte) : (s.popFinalFrom k t body).s.frozen = s.frozen := by
  unfold State.popFinalFrom
  repeat' (first | with_reducible rfl | with_reducible assumption | (simp [*]; done) | split | (refine popGo_frozen _ _ _ _ ?_ (fun _ _ _ => ?_)) | dsimp only)

@[simp] theorem State.popResolve_frozen (s : State) (k : Nat) (t : PopTest)  : (s.popResolve k t).s.frozen = s.frozen := by
  unfold State.popResolve
  repeat' (first | with_reducible rfl | with_reducible assumption | (simp [*]; done) | split | (refine popGo_frozen _ _ _ _ ?_ (fun _ _ _ => ?_)) | dsimp only)

@[simp] theorem State.popUndo_frozen (s : State) (k : Nat) (t : PopTest) (site : Nat) : (s.popUndo k t site).s.frozen = s.frozen := by
  unfold State.popUndo
  repeat' (first | with_reducible rfl | with_reducible assumption | (simp [*]; done) | split | (refine popGo_frozen _ _ _ _ ?_ (fun _ _ _ => ?_)) | dsimp only)

@[simp] theorem State.popRun_frozen (s : State) (k : Nat) (t : PopTest) (op : PopOp) : (s.popRun k t op).s.frozen = s.frozen := by
  cases op <;> unfold State.popRun <;> repeat' (first | with_reducible rfl | with_reducible assumption | (simp [*]; done) | split | (refine popGo_frozen _ _ _ _ ?_ (fun _ _ _ => ?_)) | dsimp only)

@[simp] theorem State.popPump_frozen (v0 : Nat) (v1 : Nat) (s : State) :
    (State.popPump v0 v1 s).frozen = s.frozen := by
  induction v0 generalizing v1 s with
  | zero => rfl
  | succ fuel ih =>
    unfold State.popPump
    split
    · rfl
    · split
      · rfl
      · dsimp only
        split
        · rw [ih]; simp
        · simp

@[simp] theorem State.popGoOn_frozen (s : State) (k : Nat) :
    (State.popGoOn s k).frozen = s.frozen := by
  simp [State.popGoOn]

@[simp] theorem State.popDo_frozen (s : State) (k : Nat) (l : List PopOp) :
    (State.popDo s k l).frozen = s.frozen := by
  simp [State.popDo]

@[simp] theorem State.popRetry_frozen (s : State) :
    (State.popRetry s).frozen = s.frozen := by
  unfold State.popRetry; (repeat' (first | with_reducible rfl | (simp []; done) | (split <;> try (rename_i heq; obtain ⟨_, rfl⟩ := Prod.ext_iff.mp heq)) | refine (State.frozen_foldl _ (fun _ _ => ?_) _ _).trans ?_ | dsimp only | simp []))

@[simp] theorem State.popLeave_frozen (s : State) (site : Nat) :
    (State.popLeave s site).frozen = s.frozen := by
  unfold State.popLeave; (repeat' (first | with_reducible rfl | (simp []; done) | (split <;> try (rename_i heq; obtain ⟨_, rfl⟩ := Prod.ext_iff.mp heq)) | refine (State.frozen_foldl _ (fun _ _ => ?_) _ _).trans ?_ | dsimp only | simp []))

@[simp] theorem State.popTake_frozen (s : State) (r : PopReading) :
    (State.popTake s r).frozen = s.frozen := by
  unfold State.popTake; (repeat' split) <;> simp []

@[simp] theorem doPopReading_frozen (s : State) :
    (doPopReading s).frozen = s.frozen := by
  unfold doPopReading; (repeat' split) <;> simp []

@[simp] theorem State.popMessage_frozen (s : State) (test : Nat) (round : Nat) (check : Nat) (k : Nat → PopTest → State → State) (hk : ∀ x0 x1 x2, (k x0 x1 x2).frozen = State.frozen x2) :
    (State.popMessage s test round check k).frozen = s.frozen := by
  unfold State.popMessage; (repeat' (first | with_reducible rfl | (simp [hk]; done) | (split <;> try (rename_i heq; obtain ⟨_, rfl⟩ := Prod.ext_iff.mp heq)) | refine (State.frozen_foldl _ (fun _ _ => ?_) _ _).trans ?_ | dsimp only | simp [hk]))

@[simp] theorem State.popReport_frozen (s : State) (src : Nat) (test : Nat) (round : Nat) (check : Nat) (covered : Nat) (late : Bool) (u : Nat) (o : Nat) (bins : List Nat) :
    (State.popReport s src test round check covered late u o bins).frozen = s.frozen := by
  unfold State.popReport; (repeat' (first | with_reducible rfl | (simp []; done) | (split <;> try (rename_i heq; obtain ⟨_, rfl⟩ := Prod.ext_iff.mp heq)) | refine (State.frozen_foldl _ (fun _ _ => ?_) _ _).trans ?_ | dsimp only | simp []))

@[simp] theorem State.popLimits_frozen (s : State) (test : Nat) (round : Nat) (check : Nat) (body : List Byte) :
    (State.popLimits s test round check body).frozen = s.frozen := by
  unfold State.popLimits; (repeat' split) <;> simp []

@[simp] theorem State.popFailure_frozen (s : State) (test : Nat) (round : Nat) (check : Nat) :
    (State.popFailure s test round check).frozen = s.frozen := by
  unfold State.popFailure; (repeat' split) <;> simp []

@[simp] theorem doForwardDeadline_frozen (k : Nat) (s : State) :
    (doForwardDeadline k s).frozen = s.frozen := by
  unfold doForwardDeadline; (repeat' split) <;> simp []

@[simp] theorem doDeadline_frozen (k : Nat) (s : State) :
    (doDeadline k s).frozen = s.frozen := by
  unfold doDeadline; (repeat' split) <;> simp []

@[simp] theorem State.passDeadlines_frozen (s : State) :
    (State.passDeadlines s).frozen = s.frozen := by
  simp [State.passDeadlines]

@[simp] theorem doPopDefine_frozen (c : Cmd) (s : State) :
    (doPopDefine c s).frozen = s.frozen := by
  simp [doPopDefine]

@[simp] theorem State.popChecked_frozen (s : State) (c : Cmd) (more : PopTest → Bool) (k : Nat → PopTest → State → State) (hk : ∀ x0 x1 x2, (k x0 x1 x2).frozen = State.frozen x2) :
    (State.popChecked s c more k).frozen = s.frozen := by
  unfold State.popChecked; (repeat' split) <;> simp [hk]

@[simp] theorem doPopFinalise_frozen (c : Cmd) (s : State) :
    (doPopFinalise c s).frozen = s.frozen := by
  simp [doPopFinalise]

@[simp] theorem doPopRead_frozen (c : Cmd) (s : State) :
    (doPopRead c s).frozen = s.frozen := by
  simp [doPopRead]

@[simp] theorem State.endAnswers_frozen (s : State) (t : PopTest) (st : Nat) :
    (State.endAnswers s t st).frozen = s.frozen := by
  unfold State.endAnswers; (repeat' (first | with_reducible rfl | (simp []; done) | (split <;> try (rename_i heq; obtain ⟨_, rfl⟩ := Prod.ext_iff.mp heq)) | refine (State.frozen_foldl _ (fun _ _ => ?_) _ _).trans ?_ | dsimp only | simp []))

@[simp] theorem doPopRelease_frozen (c : Cmd) (s : State) :
    (doPopRelease c s).frozen = s.frozen := by
  simp [doPopRelease]

@[simp] theorem State.popWithdraw_frozen (s : State) (test : Nat) (site : Nat) :
    (State.popWithdraw s test site).frozen = s.frozen := by
  unfold State.popWithdraw; (repeat' (first | with_reducible rfl | (simp []; done) | (split <;> try (rename_i heq; obtain ⟨_, rfl⟩ := Prod.ext_iff.mp heq)) | refine (State.frozen_foldl _ (fun _ _ => ?_) _ _).trans ?_ | dsimp only | simp []))

end Sys2Proof.Machine
end

