-- ==== Sys2Proof/Laws/Frozen/Words.lean ====
section
/-! SUPPORT. What the operations of Sys2Proof/Machine/Words.lean leave alone: the queue, the fuses in effect, the reset lines,
the reference, the test access port and the count of hot resets. -/

namespace Sys2Proof.Machine

open Sys2Proof

set_option linter.unusedTactic false
set_option linter.unreachableTactic false
set_option linter.unusedSimpArgs false

@[simp] theorem State.holdPin_frozen (s : State) (g : Program) (x : SitePos) (p : Nat) (i : Nat) (j : Nat) :
    (State.holdPin s g x p i j).frozen = s.frozen := by
  simp [State.holdPin]

@[simp] theorem State.holdVector_frozen (s : State) (g : Program) (x : SitePos) (p : Nat) (i : Nat) (j : Nat) :
    (State.holdVector s g x p i j).frozen = s.frozen := by
  simp [State.holdVector]

@[simp] theorem State.applyHold_frozen (s : State) (b : Nat) (g : Program) (positions : Nat) :
    (State.applyHold s b g positions).frozen = s.frozen := by
  simp [State.applyHold]

@[simp] theorem State.applyHoldVector_frozen (s : State) (b : Nat) (g : Program) (positions : Nat) :
    (State.applyHoldVector s b g positions).frozen = s.frozen := by
  simp [State.applyHoldVector]

@[simp] theorem State.settleResults_frozen (s : State) (b : Nat) :
    (State.settleResults s b).frozen = s.frozen := by
  simp [State.settleResults]

@[simp] theorem State.closeWord_frozen (s : State) (b : Nat) :
    (State.closeWord s b).frozen = s.frozen := by
  simp [State.closeWord]

end Sys2Proof.Machine
end

