-- ==== Sys2Proof/Laws/Frozen/Rings.lean ====
section
/-! SUPPORT. What the operations of Sys2Proof/Machine/Rings.lean leave alone: the queue, the fuses in effect, the reset lines,
the reference, the test access port and the count of hot resets. -/

namespace Sys2Proof.Machine

open Sys2Proof

set_option linter.unusedTactic false
set_option linter.unreachableTactic false
set_option linter.unusedSimpArgs false

@[simp] theorem State.showBuffer_frozen (s : State) (n : Nat) :
    (State.showBuffer s n).frozen = s.frozen := by
  simp [State.showBuffer]

@[simp] theorem State.showRing_frozen (s : State) (g : Nat) :
    (State.showRing s g).frozen = s.frozen := by
  simp [State.showRing]

@[simp] theorem State.leaveRing_frozen (s : State) (lag : Bool) (n : Nat) :
    (State.leaveRing s lag n).frozen = s.frozen := by
  unfold State.leaveRing; (repeat' split) <;> simp []

@[simp] theorem State.idleStreams_frozen (s : State) (b : Nat) :
    (State.idleStreams s b).frozen = s.frozen := by
  simp [State.idleStreams]

end Sys2Proof.Machine
end

