-- ==== Sys2Proof/Laws/Frozen/Stops.lean ====
section
/-! SUPPORT. What the operations of Sys2Proof/Machine/Stops.lean leave alone: the queue, the fuses in effect, the reset lines,
the reference, the test access port and the count of hot resets. -/

namespace Sys2Proof.Machine

open Sys2Proof

set_option linter.unusedTactic false
set_option linter.unreachableTactic false
set_option linter.unusedSimpArgs false

@[simp] theorem State.showExec_frozen (s : State) (b : Nat) :
    (State.showExec s b).frozen = s.frozen := by
  unfold State.showExec; (repeat' split) <;> simp []

@[simp] theorem State.completeAll_frozen (s : State) (l : List Cmd) (st : Nat) (res : Nat) :
    (State.completeAll s l st res).frozen = s.frozen := by
  simp [State.completeAll]

@[simp] theorem State.endIssue_frozen (s : State) (b : Nat) :
    (State.endIssue s b).frozen = s.frozen := by
  unfold State.endIssue; (repeat' split) <;> simp []

@[simp] theorem State.stopGroup_frozen (s : State) (b : Nat) (st : Nat) :
    (State.stopGroup s b st).frozen = s.frozen := by
  simp [State.stopGroup]

@[simp] theorem State.stopAllSites_frozen (s : State) (b : Nat) (st : Nat) :
    (State.stopAllSites s b st).frozen = s.frozen := by
  simp [State.stopAllSites]

@[simp] theorem State.cutGroup_frozen (s : State) (b : Nat) (st : Nat) :
    (State.cutGroup s b st).frozen = s.frozen := by
  simp [State.cutGroup]

@[simp] theorem State.haltGroup_frozen (s : State) (b : Nat) (st : Nat) :
    (State.haltGroup s b st).frozen = s.frozen := by
  simp [State.haltGroup]

end Sys2Proof.Machine
end

