-- ==== Sys2Proof/Laws/Frozen/Timing.lean ====
section
/-! SUPPORT. What the operations of Sys2Proof/Machine/Timing.lean leave alone: the queue, the fuses in effect, the reset lines,
the reference, the test access port and the count of hot resets. -/

namespace Sys2Proof.Machine

open Sys2Proof

set_option linter.unusedTactic false
set_option linter.unreachableTactic false
set_option linter.unusedSimpArgs false

@[simp] theorem State.setTsWritten_frozen (s : State) (key : Nat) (v : Nat) :
    (State.setTsWritten s key v).frozen = s.frozen := by
  simp [State.setTsWritten]

@[simp] theorem State.setTsApplied_frozen (s : State) (key : Nat) (v : Nat) :
    (State.setTsApplied s key v).frozen = s.frozen := by
  simp [State.setTsApplied]

@[simp] theorem State.setTsErr_frozen (s : State) (c : Nat) (t : Nat) (b : Bool) :
    (State.setTsErr s c t b).frozen = s.frozen := by
  simp [State.setTsErr]

@[simp] theorem State.applySet_frozen (s : State) (c : Nat) (t : Nat) :
    (State.applySet s c t).frozen = s.frozen := by
  simp [State.applySet]

@[simp] theorem State.recheckSets_frozen (s : State) (c : Nat) :
    (State.recheckSets s c).frozen = s.frozen := by
  simp [State.recheckSets]

@[simp] theorem State.startRelock_frozen (s0 : State) (c : Nat) :
    (State.startRelock s0 c).frozen = s0.frozen := by
  simp [State.startRelock]

@[simp] theorem State.applyFreq_frozen (s : State) (c : Nat) (v : Nat) :
    (State.applyFreq s c v).frozen = s.frozen := by
  simp [State.applyFreq]

@[simp] theorem State.freqWritten_frozen (s : State) (c : Nat) :
    (State.freqWritten s c).frozen = s.frozen := by
  simp [State.freqWritten]

@[simp] theorem State.tsWrite_frozen (s : State) (key : Nat) (v : Nat) :
    (State.tsWrite s key v).frozen = s.frozen := by
  simp [State.tsWrite]

@[simp] theorem State.applyDeskew_frozen (s : State) (c : Nat) (i : Nat) :
    (State.applyDeskew s c i).frozen = s.frozen := by
  simp [State.applyDeskew]

@[simp] theorem State.deskewWritten_frozen (s : State) (p : Nat) :
    (State.deskewWritten s p).frozen = s.frozen := by
  simp [State.deskewWritten]

@[simp] theorem State.releaseTiming_frozen (s : State) (c : Nat) (f : Nat → Bool) :
    (State.releaseTiming s c f).frozen = s.frozen := by
  simp [State.releaseTiming]

@[simp] theorem State.releasePins_frozen (s : State) (n : Nat) :
    (State.releasePins s n).frozen = s.frozen := by
  simp [State.releasePins]

@[simp] theorem State.takePeriods_frozen (s : State) (c : Nat) :
    (State.takePeriods s c).frozen = s.frozen := by
  unfold State.takePeriods; (repeat' (first | with_reducible rfl | (simp []; done) | (split <;> try (rename_i heq; obtain ⟨_, rfl⟩ := Prod.ext_iff.mp heq)) | refine (State.frozen_foldl _ (fun _ _ => ?_) _ _).trans ?_ | dsimp only | simp []))

@[simp] theorem State.releaseCluster_frozen (s : State) (c : Nat) :
    (State.releaseCluster s c).frozen = s.frozen := by
  simp [State.releaseCluster]

@[simp] theorem State.alignCluster_frozen (s : State) (c : Nat) :
    (State.alignCluster s c).frozen = s.frozen := by
  simp [State.alignCluster]

@[simp] theorem doRelockEnd_frozen (c : Nat) (s0 : State) :
    (doRelockEnd c s0).frozen = s0.frozen := by
  simp [doRelockEnd]

@[simp] theorem doPllLockLoss_frozen (c : Nat) (s : State) :
    (doPllLockLoss c s).frozen = s.frozen := by
  simp [doPllLockLoss]

end Sys2Proof.Machine
end

