-- ==== Sys2Proof/Laws/Frozen/Streams.lean ====
section
/-! SUPPORT. What the operations of Sys2Proof/Machine/Streams.lean leave alone: the queue, the fuses in effect, the reset lines,
the reference, the test access port and the count of hot resets. -/

namespace Sys2Proof.Machine

open Sys2Proof

set_option linter.unusedTactic false
set_option linter.unreachableTactic false
set_option linter.unusedSimpArgs false

@[simp] theorem State.appliedTo_frozen (s : State) (b : Nat) (t : Nat) :
    (State.appliedTo s b t).frozen = s.frozen := by
  simp [State.appliedTo]

@[simp] theorem State.applyDue_frozen (s : State) (b : Nat) :
    (State.applyDue s b).frozen = s.frozen := by
  unfold State.applyDue; (repeat' (first | with_reducible rfl | (simp []; done) | (split <;> try (rename_i heq; obtain ⟨_, rfl⟩ := Prod.ext_iff.mp heq)) | refine (State.frozen_foldl _ (fun _ _ => ?_) _ _).trans ?_ | dsimp only | simp []))

@[simp] theorem State.keepEntries_frozen (s : State) (n : Nat) (k : Nat) :
    (State.keepEntries s n k).frozen = s.frozen := by
  simp [State.keepEntries]

@[simp] theorem State.departGroup_frozen (s : State) (b : Nat) (lag : Bool) :
    (State.departGroup s b lag).frozen = s.frozen := by
  simp [State.departGroup]

@[simp] theorem State.dropRingFrom_frozen (s : State) (g : Nat) (k : Nat) :
    (State.dropRingFrom s g k).frozen = s.frozen := by
  simp [State.dropRingFrom]

@[simp] theorem State.writeRing_frozen (s : State) (g : Nat) (x : Block) :
    (State.writeRing s g x).frozen = s.frozen := by
  simp [State.writeRing]

@[simp] theorem State.takeRing_frozen (s : State) (g : Nat) (n : Nat) :
    (State.takeRing s g n).frozen = s.frozen := by
  unfold State.takeRing; dsimp only; (repeat' split) <;> simp []

@[simp] theorem State.alignStreams_frozen (s : State) (b : Nat) :
    (State.alignStreams s b).frozen = s.frozen := by
  unfold State.alignStreams; (repeat' (first | with_reducible rfl | (simp []; done) | (split <;> try (rename_i heq; obtain ⟨_, rfl⟩ := Prod.ext_iff.mp heq)) | refine (State.frozen_foldl _ (fun _ _ => ?_) _ _).trans ?_ | dsimp only | simp []))

@[simp] theorem State.showRingOf_frozen (s : State) (n : Nat) :
    (State.showRingOf s n).frozen = s.frozen := by
  unfold State.showRingOf; (repeat' (first | with_reducible rfl | (simp []; done) | (split <;> try (rename_i heq; obtain ⟨_, rfl⟩ := Prod.ext_iff.mp heq)) | refine (State.frozen_foldl _ (fun _ _ => ?_) _ _).trans ?_ | dsimp only | simp []))

@[simp] theorem State.takeLanes_frozen (s : State) (b : Nat) :
    (State.takeLanes s b).2.frozen = s.frozen := by
  unfold State.takeLanes; (repeat' (first | with_reducible rfl | (simp []; done) | (split <;> try (rename_i heq; obtain ⟨_, rfl⟩ := Prod.ext_iff.mp heq)) | refine (State.frozen_foldl _ (fun _ _ => ?_) _ _).trans ?_ | dsimp only | simp []))

@[simp] theorem State.joinRing_frozen (s : State) (r : Nat) (n : Nat) (lane : Nat) (image : Nat) (segment : Nat) (addr : Nat) (out : Nat × Nat) :
    (State.joinRing s r n lane image segment addr out).frozen = s.frozen := by
  simp [State.joinRing]

@[simp] theorem State.tryJoin_frozen (s : State) (b : Nat) (g : Program) (segment : Nat) (addr : Nat) :
    (State.tryJoin s b g segment addr).frozen = s.frozen := by
  simp [State.tryJoin]

@[simp] theorem State.recordTags_frozen (s : State) (b : Nat) (g : Program) (addr : Nat) :
    (State.recordTags s b g addr).frozen = s.frozen := by
  unfold State.recordTags; (repeat' (first | with_reducible rfl | (simp []; done) | (split <;> try (rename_i heq; obtain ⟨_, rfl⟩ := Prod.ext_iff.mp heq)) | refine (State.frozen_foldl _ (fun _ _ => ?_) _ _).trans ?_ | dsimp only | simp []))

@[simp] theorem State.privateArrival_frozen (s : State) (n : Nat) (x : Block) :
    (State.privateArrival s n x).frozen = s.frozen := by
  simp [State.privateArrival]

@[simp] theorem State.ringArrival_frozen (s : State) (r : Nat) (p : Nat) (n : Nat) (x : Block) :
    (State.ringArrival s r p n x).frozen = s.frozen := by
  simp [State.ringArrival]

@[simp] theorem State.fetchBlock_frozen (s : State) (b : Nat) (n : Nat) (g : Program) (put : State → Block → State) (hput : ∀ x0 x1, (put x0 x1).frozen = State.frozen x0) :
    (State.fetchBlock s b n g put).frozen = s.frozen := by
  unfold State.fetchBlock; (repeat' (first | with_reducible rfl | (simp [hput]; done) | (split <;> try (rename_i heq; obtain ⟨_, rfl⟩ := Prod.ext_iff.mp heq)) | refine (State.frozen_foldl _ (fun _ _ => ?_) _ _).trans ?_ | dsimp only | simp [hput]))

@[simp] theorem State.leaveAndFetch_frozen (s : State) (b : Nat) (n : Nat) (g : Program) (lag : Bool) :
    (State.leaveAndFetch s b n g lag).frozen = s.frozen := by
  simp [State.leaveAndFetch]

@[simp] theorem State.pilotFetch_frozen (s : State) (b : Nat) (n : Nat) (r : Nat) (g : Program) (i : PathItem) :
    (State.pilotFetch s b n r g i).frozen = s.frozen := by
  unfold State.pilotFetch; (repeat' (first | with_reducible rfl | refine State.fetchBlock_frozen _ _ _ _ _ (fun _ _ => ?_) | (simp []; done) | (split <;> try (rename_i heq; obtain ⟨_, rfl⟩ := Prod.ext_iff.mp heq)) | refine (State.frozen_foldl _ (fun _ _ => ?_) _ _).trans ?_ | dsimp only | simp []))

@[simp] theorem State.ringBlock_frozen (s : State) (b : Nat) (n : Nat) (r : Nat) (g : Program) :
    (State.ringBlock s b n r g).frozen = s.frozen := by
  unfold State.ringBlock; (repeat' (first | with_reducible rfl | refine State.fetchBlock_frozen _ _ _ _ _ (fun _ _ => ?_) | (simp []; done) | (split <;> try (rename_i heq; obtain ⟨_, rfl⟩ := Prod.ext_iff.mp heq)) | refine (State.frozen_foldl _ (fun _ _ => ?_) _ _).trans ?_ | dsimp only | simp []))

@[simp] theorem doStreamBlockArrival_frozen (n : Nat) (s : State) :
    (doStreamBlockArrival n s).frozen = s.frozen := by
  unfold doStreamBlockArrival; dsimp only; (repeat' split) <;> simp []

end Sys2Proof.Machine
end

