-- ==== Sys2Proof/Laws/Frozen/Slots.lean ====
section
/-! SUPPORT. What the operations of Sys2Proof/Machine/Slots.lean leave alone: the queue, the fuses in effect, the reset lines,
the reference, the test access port and the count of hot resets. -/

namespace Sys2Proof.Machine

open Sys2Proof

set_option linter.unusedTactic false
set_option linter.unreachableTactic false
set_option linter.unusedSimpArgs false

@[simp] theorem State.showSiteRegs_frozen (s : State) (b : Nat) (l : List Nat) :
    (State.showSiteRegs s b l).frozen = s.frozen := by
  simp [State.showSiteRegs]

@[simp] theorem State.modMicro_frozen (s : State) (b : Nat) (f : Micro → Micro) :
    (State.modMicro s b f).frozen = s.frozen := by
  simp [State.modMicro]

@[simp] theorem State.runSlot_frozen (s : State) (b : Nat) (i : Nat) :
    (State.runSlot s b i).frozen = s.frozen := by
  unfold State.runSlot; (repeat' (first | with_reducible rfl | (simp []; done) | (split <;> try (rename_i heq; obtain ⟨_, rfl⟩ := Prod.ext_iff.mp heq)) | refine (State.frozen_foldl _ (fun _ _ => ?_) _ _).trans ?_ | dsimp only | simp []))

@[simp] theorem State.scheduleOr_frozen (s : State) (b : Nat) (last : State → State) (hlast : ∀ x0, (last x0).frozen = State.frozen x0) :
    (State.scheduleOr s b last).frozen = s.frozen := by
  unfold State.scheduleOr; (repeat' (first | with_reducible rfl | (simp [hlast]; done) | (split <;> try (rename_i heq; obtain ⟨_, rfl⟩ := Prod.ext_iff.mp heq)) | refine (State.frozen_foldl _ (fun _ _ => ?_) _ _).trans ?_ | dsimp only | simp [hlast]))

@[simp] theorem State.freeRunning_frozen (s : State) (b : Nat) :
    (State.freeRunning s b).frozen = s.frozen := by
  simp [State.freeRunning]

@[simp] theorem State.endSlot_frozen (s : State) (b : Nat) :
    (State.endSlot s b).frozen = s.frozen := by
  unfold State.endSlot; (repeat' (first | with_reducible rfl | (simp []; done) | (split <;> try (rename_i heq; obtain ⟨_, rfl⟩ := Prod.ext_iff.mp heq)) | refine (State.frozen_foldl _ (fun _ _ => ?_) _ _).trans ?_ | dsimp only | simp []))

@[simp] theorem State.showStreamSeq_frozen (s : State) (b : Nat) (v : Nat) :
    (State.showStreamSeq s b v).frozen = s.frozen := by
  simp [State.showStreamSeq]

@[simp] theorem State.reconvergeOr_frozen (s : State) (b : Nat) (addr : Nat) (last : State → State) (hlast : ∀ x0, (last x0).frozen = State.frozen x0) :
    (State.reconvergeOr s b addr last).frozen = s.frozen := by
  unfold State.reconvergeOr; (repeat' (first | with_reducible rfl | (simp [hlast]; done) | (split <;> try (rename_i heq; obtain ⟨_, rfl⟩ := Prod.ext_iff.mp heq)) | refine (State.frozen_foldl _ (fun _ _ => ?_) _ _).trans ?_ | dsimp only | simp [hlast]))

@[simp] theorem State.retireSites_frozen (s : State) (b : Nat) :
    (State.retireSites s b).frozen = s.frozen := by
  simp [State.retireSites]

@[simp] theorem State.retireOr_frozen (s : State) (b : Nat) (last : State → State) (hlast : ∀ x0, (last x0).frozen = State.frozen x0) :
    (State.retireOr s b last).frozen = s.frozen := by
  simp [State.retireOr, hlast]

@[simp] theorem State.endTrap_frozen (s : State) (b : Nat) :
    (State.endTrap s b).frozen = s.frozen := by
  unfold State.endTrap; (repeat' (first | with_reducible rfl | (simp []; done) | (split <;> try (rename_i heq; obtain ⟨_, rfl⟩ := Prod.ext_iff.mp heq)) | refine (State.frozen_foldl _ (fun _ _ => ?_) _ _).trans ?_ | dsimp only | simp []))

@[simp] theorem State.noSlotLeft_frozen (s : State) (b : Nat) :
    (State.noSlotLeft s b).frozen = s.frozen := by
  unfold State.noSlotLeft; (repeat' (first | with_reducible rfl | (simp []; done) | (split <;> try (rename_i heq; obtain ⟨_, rfl⟩ := Prod.ext_iff.mp heq)) | refine (State.frozen_foldl _ (fun _ _ => ?_) _ _).trans ?_ | dsimp only | simp []))

@[simp] theorem State.endPath_frozen (s : State) (b : Nat) :
    (State.endPath s b).frozen = s.frozen := by
  unfold State.endPath; (repeat' (first | with_reducible rfl | (simp []; done) | (split <;> try (rename_i heq; obtain ⟨_, rfl⟩ := Prod.ext_iff.mp heq)) | refine (State.frozen_foldl _ (fun _ _ => ?_) _ _).trans ?_ | dsimp only | simp []))

@[simp] theorem State.branchSite_frozen (s : State) (b : Nat) (g : Program) (w : Nat) (c : Nat) (active : Nat) :
    (State.branchSite s b g w c active).2.frozen = s.frozen := by
  simp [State.branchSite]

@[simp] theorem State.enterTrap_frozen (s : State) (b : Nat) (cause : Nat) (m : Micro) (x : Slot) (active : Nat) (info : Nat) (req : Option Cmd) (after : Nat) :
    (State.enterTrap s b cause m x active info req after).frozen = s.frozen := by
  unfold State.enterTrap; (repeat' (first | with_reducible rfl | (simp []; done) | (split <;> try (rename_i heq; obtain ⟨_, rfl⟩ := Prod.ext_iff.mp heq)) | refine (State.frozen_foldl _ (fun _ _ => ?_) _ _).trans ?_ | dsimp only | simp []))

@[simp] theorem State.trapAt_frozen (s : State) (b : Nat) (cause : Nat) (resume : Nat) (info : Nat) (after : Nat) :
    (State.trapAt s b cause resume info after).frozen = s.frozen := by
  unfold State.trapAt; (repeat' (first | with_reducible rfl | (simp []; done) | (split <;> try (rename_i heq; obtain ⟨_, rfl⟩ := Prod.ext_iff.mp heq)) | refine (State.frozen_foldl _ (fun _ _ => ?_) _ _).trans ?_ | dsimp only | simp []))

@[simp] theorem State.hostTrapNow_frozen (s : State) (b : Nat) (info : Nat) (req : Option Cmd) :
    (State.hostTrapNow s b info req).frozen = s.frozen := by
  unfold State.hostTrapNow; (repeat' (first | with_reducible rfl | (simp []; done) | (split <;> try (rename_i heq; obtain ⟨_, rfl⟩ := Prod.ext_iff.mp heq)) | refine (State.frozen_foldl _ (fun _ _ => ?_) _ _).trans ?_ | dsimp only | simp []))

@[simp] theorem State.goTo_frozen (s : State) (b : Nat) (w : Nat) (pc : Nat) :
    (State.goTo s b w pc).frozen = s.frozen := by
  unfold State.goTo; (repeat' (first | with_reducible rfl | (simp []; done) | (split <;> try (rename_i heq; obtain ⟨_, rfl⟩ := Prod.ext_iff.mp heq)) | refine (State.frozen_foldl _ (fun _ _ => ?_) _ _).trans ?_ | dsimp only | simp []))

@[simp] theorem State.leaveWord_frozen (s : State) (b : Nat) (w : Nat) (pc : Nat) (x : Slot) (active : Nat) (due : Option Nat) :
    (State.leaveWord s b w pc x active due).frozen = s.frozen := by
  unfold State.leaveWord; (repeat' (first | with_reducible rfl | (simp []; done) | (split <;> try (rename_i heq; obtain ⟨_, rfl⟩ := Prod.ext_iff.mp heq)) | refine (State.frozen_foldl _ (fun _ _ => ?_) _ _).trans ?_ | dsimp only | simp []))

@[simp] theorem State.leaveWait_frozen (s : State) (b : Nat) (w : Nat) (pc : Nat) :
    (State.leaveWait s b w pc).frozen = s.frozen := by
  unfold State.leaveWait; (repeat' (first | with_reducible rfl | (simp []; done) | (split <;> try (rename_i heq; obtain ⟨_, rfl⟩ := Prod.ext_iff.mp heq)) | refine (State.frozen_foldl _ (fun _ _ => ?_) _ _).trans ?_ | dsimp only | simp []))

@[simp] theorem State.steps8and9_frozen (s : State) (b : Nat) (w : Nat) (c : Nat) (vectors : Nat) (serial : Nat) :
    (State.steps8and9 s b w c vectors serial).frozen = s.frozen := by
  unfold State.steps8and9; (repeat' (first | with_reducible rfl | (simp []; done) | (split <;> try (rename_i heq; obtain ⟨_, rfl⟩ := Prod.ext_iff.mp heq)) | refine (State.frozen_foldl _ (fun _ _ => ?_) _ _).trans ?_ | dsimp only | simp []))

@[simp] theorem State.endWord_frozen (s : State) (b : Nat) :
    (State.endWord s b).frozen = s.frozen := by
  simp [State.endWord]

@[simp] theorem State.steps5to9_frozen (s : State) (b : Nat) (w : Nat) (src : Nat) (vectors : Nat) (serial : Nat) :
    (State.steps5to9 s b w src vectors serial).frozen = s.frozen := by
  unfold State.steps5to9; (repeat' (first | with_reducible rfl | (simp []; done) | (split <;> try (rename_i heq; obtain ⟨_, rfl⟩ := Prod.ext_iff.mp heq)) | refine (State.frozen_foldl _ (fun _ _ => ?_) _ _).trans ?_ | dsimp only | simp []))

end Sys2Proof.Machine
end

