-- ==== Sys2Proof/Laws/Frozen/Causes.lean ====
section
/-! SUPPORT. What the operations of Sys2Proof/Machine/Causes.lean leave alone: the queue, the fuses in effect, the reset lines,
the reference, the test access port and the count of hot resets. -/

namespace Sys2Proof.Machine

open Sys2Proof

set_option linter.unusedTactic false
set_option linter.unreachableTactic false
set_option linter.unusedSimpArgs false

@[simp] theorem State.assertCause_frozen (s : State) (b : Nat) (p : Nat) (k : Nat) :
    (State.assertCause s b p k).frozen = s.frozen := by
  simp [State.assertCause]

end Sys2Proof.Machine
end

