-- ==== Sys2Proof/Laws/Frozen/ControlStore.lean ====
section
/-! SUPPORT. What the operations of Sys2Proof/Machine/ControlStore.lean leave alone: the queue, the fuses in effect, the reset lines,
the reference, the test access port and the count of hot resets. -/

namespace Sys2Proof.Machine

open Sys2Proof

set_option linter.unusedTactic false
set_option linter.unreachableTactic false
set_option linter.unusedSimpArgs false

@[simp] theorem State.showFrames_frozen (s : State) (n : Nat) :
    (State.showFrames s n).frozen = s.frozen := by
  simp [State.showFrames]

@[simp] theorem State.dropFrame_frozen (s : State) (n : Nat) (i : Nat) :
    (State.dropFrame s n i).frozen = s.frozen := by
  unfold State.dropFrame; (repeat' (first | with_reducible rfl | (simp []; done) | (split <;> try (rename_i heq; obtain ⟨_, rfl⟩ := Prod.ext_iff.mp heq)) | refine (State.frozen_foldl _ (fun _ _ => ?_) _ _).trans ?_ | dsimp only | simp []))

@[simp] theorem State.dropFrames_frozen (s : State) (b : Nat) (i : Nat) :
    (State.dropFrames s b i).frozen = s.frozen := by
  simp [State.dropFrames]

@[simp] theorem State.invalidateFrames_frozen (s : State) (n : Nat) :
    (State.invalidateFrames s n).frozen = s.frozen := by
  simp [State.invalidateFrames]

@[simp] theorem State.putFrame_frozen (s : State) (b : Nat) (i : Nat) (f : Frame) :
    (State.putFrame s b i f).frozen = s.frozen := by
  simp [State.putFrame]

@[simp] theorem State.useFrame_frozen (s : State) (b : Nat) (i : Nat) :
    (State.useFrame s b i).frozen = s.frozen := by
  simp [State.useFrame]

@[simp] theorem State.bumpMembers_frozen (s : State) (b : Nat) (f : Nat → Fld) :
    (State.bumpMembers s b f).frozen = s.frozen := by
  simp [State.bumpMembers]

@[simp] theorem readBlocks_frozen (x : MemCtx) (va : Nat) (v2 : Nat) (v3 : Nat) (s : State) :
    (readBlocks x va v2 v3 s).2.frozen = s.frozen := by
  induction v2 generalizing v3 s with
  | zero => rfl
  | succ fuel ih =>
    simp only [readBlocks]
    have h := State.memRead_frozen s x (va + 64 * v3) 64
    split
    · rename_i d p s1 heq
      rw [heq] at h
      split
      · exact h
      · have h2 := ih (v3 + 1) s1
        split
        · rename_i heq2
          rw [heq2] at h2
          exact h2.trans h
        · exact h2.trans h
    all_goals (rename_i heq; rw [heq] at h; exact h)

@[simp] theorem State.readPage_frozen (s : State) (b : Nat) (image : Nat) (codeOffset : Nat) (pg : Nat) (spec : Bool) :
    (State.readPage s b image codeOffset pg spec).2.frozen = s.frozen := by
  simp [State.readPage]

@[simp] theorem State.recordCsErr_frozen (s : State) (b : Nat) (pc : Nat) (frame : Nat) (failed : Nat) :
    (State.recordCsErr s b pc frame failed).frozen = s.frozen := by
  simp [State.recordCsErr]

@[simp] theorem State.parityFrame_frozen (s : State) (n : Nat) (i : Nat) :
    (State.parityFrame s n i).frozen = s.frozen := by
  simp [State.parityFrame]

@[simp] theorem State.machineCheck_frozen (s : State) (b : Nat) (pc : Nat) (i : Nat) (failed : Nat) :
    (State.machineCheck s b pc i failed).frozen = s.frozen := by
  simp [State.machineCheck]

@[simp] theorem doCsSpecFill_frozen (b : Nat) (pg : Nat) (s : State) :
    (doCsSpecFill b pg s).frozen = s.frozen := by
  unfold doCsSpecFill
  split
  · rfl
  · rename_i g _
    split
    · rfl
    · split
      · rfl
      · have h := State.readPage_frozen s b g.image g.header.codeOffset pg true
        split
        · rename_i s1 heq
          rw [heq] at h
          rw [State.bumpMembers_frozen, State.putFrame_frozen, State.dropFrames_frozen]
          exact h
        · rename_i heq
          rw [heq] at h
          exact h

end Sys2Proof.Machine
end

