-- ==== Sys2Proof/Laws/Frozen/Issue.lean ====
section
/-! SUPPORT. What the operations of Sys2Proof/Machine/Issue.lean leave alone: the queue, the fuses in effect, the reset lines,
the reference, the test access port and the count of hot resets. -/

namespace Sys2Proof.Machine

open Sys2Proof

set_option linter.unusedTactic false
set_option linter.unreachableTactic false
set_option linter.unusedSimpArgs false

@[simp] theorem State.queueEmptied_frozen (s : State) (b : Nat) :
    (State.queueEmptied s b).frozen = s.frozen := by
  unfold State.queueEmptied; (repeat' (first | with_reducible rfl | (simp []; done) | (split <;> try (rename_i heq; obtain ⟨_, rfl⟩ := Prod.ext_iff.mp heq)) | refine (State.frozen_foldl _ (fun _ _ => ?_) _ _).trans ?_ | dsimp only | simp []))

@[simp] theorem State.startClock_frozen (s : State) (b : Nat) :
    (State.startClock s b).frozen = s.frozen := by
  unfold State.startClock; (repeat' (first | with_reducible rfl | (simp []; done) | (split <;> try (rename_i heq; obtain ⟨_, rfl⟩ := Prod.ext_iff.mp heq)) | refine (State.frozen_foldl _ (fun _ _ => ?_) _ _).trans ?_ | dsimp only | simp []))

@[simp] theorem State.holdPeriods_frozen (s : State) (b : Nat) (n : Nat) :
    (State.holdPeriods s b n).frozen = s.frozen := by
  unfold State.holdPeriods; (repeat' (first | with_reducible rfl | (simp []; done) | (split <;> try (rename_i heq; obtain ⟨_, rfl⟩ := Prod.ext_iff.mp heq)) | refine (State.frozen_foldl _ (fun _ _ => ?_) _ _).trans ?_ | dsimp only | simp []))

@[simp] theorem State.cutHold_frozen (s : State) (b : Nat) :
    (State.cutHold s b).frozen = s.frozen := by
  unfold State.cutHold; (repeat' (first | with_reducible rfl | (simp []; done) | (split <;> try (rename_i heq; obtain ⟨_, rfl⟩ := Prod.ext_iff.mp heq)) | refine (State.frozen_foldl _ (fun _ _ => ?_) _ _).trans ?_ | dsimp only | simp []))

@[simp] theorem State.issueCut_frozen (s : State) (b : Nat) :
    (State.issueCut s b).frozen = s.frozen := by
  unfold State.issueCut; (repeat' (first | with_reducible rfl | (simp []; done) | (split <;> try (rename_i heq; obtain ⟨_, rfl⟩ := Prod.ext_iff.mp heq)) | refine (State.frozen_foldl _ (fun _ _ => ?_) _ _).trans ?_ | dsimp only | simp []))

@[simp] theorem State.blockOn_frozen (s : State) (b : Nat) (cause : Nat) :
    (State.blockOn s b cause).frozen = s.frozen := by
  unfold State.blockOn; (repeat' (first | with_reducible rfl | (simp []; done) | (split <;> try (rename_i heq; obtain ⟨_, rfl⟩ := Prod.ext_iff.mp heq)) | refine (State.frozen_foldl _ (fun _ _ => ?_) _ _).trans ?_ | dsimp only | simp []))

@[simp] theorem State.clearBlock_frozen (s : State) (b : Nat) :
    (State.clearBlock s b).frozen = s.frozen := by
  unfold State.clearBlock; (repeat' (first | with_reducible rfl | (simp []; done) | (split <;> try (rename_i heq; obtain ⟨_, rfl⟩ := Prod.ext_iff.mp heq)) | refine (State.frozen_foldl _ (fun _ _ => ?_) _ _).trans ?_ | dsimp only | simp []))

@[simp] theorem State.actBlock_frozen (s : State) (regs : List Nat) (x : Block) (pos : SitePos) (p : Nat) (j : Nat) (set : Nat) (n : Nat) :
    (State.actBlock s regs x pos p j set n).frozen = s.frozen := by
  simp [State.actBlock]

@[simp] theorem State.actPosition_frozen (s : State) (b : Nat) (g : Program) (lanes : List Block) (set : Nat) :
    (State.actPosition s b g lanes set).frozen = s.frozen := by
  unfold State.actPosition; (repeat' (first | with_reducible rfl | (simp []; done) | (split <;> try (rename_i heq; obtain ⟨_, rfl⟩ := Prod.ext_iff.mp heq)) | refine (State.frozen_foldl _ (fun _ _ => ?_) _ _).trans ?_ | dsimp only | simp []))

@[simp] theorem State.attach_frozen (s : State) (b : Nat) (w : Nat) (active : Nat) (vectors : Bool) :
    (State.attach s b w active vectors).frozen = s.frozen := by
  simp [State.attach]

@[simp] theorem State.beforeFirst_frozen (s : State) (b : Nat) (g : Program) :
    (State.beforeFirst s b g).frozen = s.frozen := by
  simp [State.beforeFirst]

@[simp] theorem State.issuePosition_frozen (s : State) (b : Nat) (w : Nat) (first : Bool) :
    (State.issuePosition s b w first).frozen = s.frozen := by
  unfold State.issuePosition; (repeat' (first | with_reducible rfl | (simp []; done) | (split <;> try (rename_i heq; obtain ⟨_, rfl⟩ := Prod.ext_iff.mp heq)) | refine (State.frozen_foldl _ (fun _ _ => ?_) _ _).trans ?_ | dsimp only | simp []))

@[simp] theorem State.issueHold_frozen (s : State) (b : Nat) (w : Nat) :
    (State.issueHold s b w).frozen = s.frozen := by
  unfold State.issueHold; (repeat' (first | with_reducible rfl | (simp []; done) | (split <;> try (rename_i heq; obtain ⟨_, rfl⟩ := Prod.ext_iff.mp heq)) | refine (State.frozen_foldl _ (fun _ _ => ?_) _ _).trans ?_ | dsimp only | simp []))

@[simp] theorem State.issueRest_frozen (s : State) (b : Nat) (w : Nat) (v3 : Nat) :
    (State.issueRest s b w v3).frozen = s.frozen := by
  induction v3 generalizing s b w <;> unfold State.issueRest <;> (repeat' (first | with_reducible rfl | (simp [*]; done) | (split <;> try (rename_i heq; obtain ⟨_, rfl⟩ := Prod.ext_iff.mp heq)) | refine (State.frozen_foldl _ (fun _ _ => ?_) _ _).trans ?_ | dsimp only | simp []))

@[simp] theorem State.takeSnapshot_frozen (s : State) (b : Nat) :
    (State.takeSnapshot s b).frozen = s.frozen := by
  unfold State.takeSnapshot; (repeat' (first | with_reducible rfl | (simp []; done) | (split <;> try (rename_i heq; obtain ⟨_, rfl⟩ := Prod.ext_iff.mp heq)) | refine (State.frozen_foldl _ (fun _ _ => ?_) _ _).trans ?_ | dsimp only | simp []))

@[simp] theorem State.afterVectors_frozen (s : State) (b : Nat) (w : Nat) :
    (State.afterVectors s b w).frozen = s.frozen := by
  unfold State.afterVectors; (repeat' (first | with_reducible rfl | (simp []; done) | (split <;> try (rename_i heq; obtain ⟨_, rfl⟩ := Prod.ext_iff.mp heq)) | refine (State.frozen_foldl _ (fun _ _ => ?_) _ _).trans ?_ | dsimp only | simp []))

@[simp] theorem State.finishBlocks_frozen (s : State) (b : Nat) (w : Nat) :
    (State.finishBlocks s b w).frozen = s.frozen := by
  unfold State.finishBlocks; (repeat' (first | with_reducible rfl | (simp []; done) | (split <;> try (rename_i heq; obtain ⟨_, rfl⟩ := Prod.ext_iff.mp heq)) | refine (State.frozen_foldl _ (fun _ _ => ?_) _ _).trans ?_ | dsimp only | simp []))

@[simp] theorem State.issueReady_frozen (s : State) (b : Nat) (w : Nat) :
    (State.issueReady s b w).frozen = s.frozen := by
  unfold State.issueReady; (repeat' (first | with_reducible rfl | (simp []; done) | (split <;> try (rename_i heq; obtain ⟨_, rfl⟩ := Prod.ext_iff.mp heq)) | refine (State.frozen_foldl _ (fun _ _ => ?_) _ _).trans ?_ | dsimp only | simp []))

@[simp] theorem State.issueWord_frozen (s : State) (b : Nat) (i : Nat) (w : Nat) (holds : Nat) :
    (State.issueWord s b i w holds).frozen = s.frozen := by
  unfold State.issueWord; (repeat' (first | with_reducible rfl | (simp []; done) | (split <;> try (rename_i heq; obtain ⟨_, rfl⟩ := Prod.ext_iff.mp heq)) | refine (State.frozen_foldl _ (fun _ _ => ?_) _ _).trans ?_ | dsimp only | simp []))

@[simp] theorem State.illegalWord_frozen (s : State) (b : Nat) (i : Nat) (pc : Nat) :
    (State.illegalWord s b i pc).frozen = s.frozen := by
  simp [State.illegalWord]

theorem State.dueHostTrap_frozen (s : State) (b : Nat) (g : Program) :
    ∀ t, (State.dueHostTrap s b g) = some t → t.frozen = s.frozen := by
  unfold State.dueHostTrap; (repeat' (first | with_reducible rfl | (simp []; done) | (split <;> try (rename_i heq; obtain ⟨_, rfl⟩ := Prod.ext_iff.mp heq)) | refine (State.frozen_foldl _ (fun _ _ => ?_) _ _).trans ?_ | dsimp only | simp []))

@[simp] theorem State.reachWord_frozen (s : State) (b : Nat) (i : Nat) (w : Nat) (holds : Nat) :
    (State.reachWord s b i w holds).frozen = s.frozen := by
  unfold State.reachWord
  split
  · rfl
  · rename_i g _
    extract_lets illegal ready
    have hd := State.dueHostTrap_frozen s b g
    split
    · simp
    · split
      · rename_i t ht
        split
        · exact hd t ht
        · simp
      · (repeat' split) <;> simp

@[simp] theorem State.nextWord_frozen (s0 : State) (b : Nat) (cls : Nat → Bool) (holds : Nat) :
    (State.nextWord s0 b cls holds).frozen = s0.frozen := by
  unfold State.nextWord; (repeat' (first | with_reducible rfl | (simp []; done) | (split <;> try (rename_i heq; obtain ⟨_, rfl⟩ := Prod.ext_iff.mp heq)) | refine (State.frozen_foldl _ (fun _ _ => ?_) _ _).trans ?_ | dsimp only | simp []))

end Sys2Proof.Machine
end

