-- ==== Sys2Proof/Laws/Frozen/Results.lean ====
section
/-! SUPPORT. What the operations of Sys2Proof/Machine/Results.lean leave alone: the queue, the fuses in effect, the reset lines,
the reference, the test access port and the count of hot resets. -/

namespace Sys2Proof.Machine

open Sys2Proof

set_option linter.unusedTactic false
set_option linter.unreachableTactic false
set_option linter.unusedSimpArgs false

@[simp] theorem State.failRecord_frozen (s : State) (b : Nat) (lane : Nat) (pos : Nat) (start : Nat) (w : IssuedWord) (l : List PinResult) (idx : Nat) :
    (State.failRecord s b lane pos start w l idx).frozen = s.frozen := by
  simp [State.failRecord]

@[simp] theorem State.captureRecords_frozen (s : State) (b : Nat) (pos : Nat) (start : Nat) (w : IssuedWord) (l : List PinResult) (idx : Nat) :
    (State.captureRecords s b pos start w l idx).frozen = s.frozen := by
  simp [State.captureRecords]

@[simp] theorem doCompareResult_frozen (b : Nat) (atE3 : BitVec 256) (steady : BitVec 128) (s : State) :
    (doCompareResult b atE3 steady s).frozen = s.frozen := by
  unfold doCompareResult; (repeat' (first | with_reducible rfl | (simp []; done) | (split <;> try (rename_i heq; obtain ⟨_, rfl⟩ := Prod.ext_iff.mp heq)) | refine (State.frozen_foldl _ (fun _ _ => ?_) _ _).trans ?_ | dsimp only | simp []))

@[simp] theorem doConditionWaitEnd_frozen (b : Nat) (holds : Nat) (s0 : State) :
    (doConditionWaitEnd b holds s0).frozen = s0.frozen := by
  unfold doConditionWaitEnd; (repeat' (first | with_reducible rfl | (simp []; done) | (split <;> try (rename_i heq; obtain ⟨_, rfl⟩ := Prod.ext_iff.mp heq)) | refine (State.frozen_foldl _ (fun _ _ => ?_) _ _).trans ?_ | dsimp only | simp []))

@[simp] theorem doWaitTimeout_frozen (b : Nat) (s : State) :
    (doWaitTimeout b s).frozen = s.frozen := by
  unfold doWaitTimeout; (repeat' (first | with_reducible rfl | (simp []; done) | (split <;> try (rename_i heq; obtain ⟨_, rfl⟩ := Prod.ext_iff.mp heq)) | refine (State.frozen_foldl _ (fun _ _ => ?_) _ _).trans ?_ | dsimp only | simp []))

@[simp] theorem doSyncRelease_frozen (b : Nat) (s : State) :
    (doSyncRelease b s).frozen = s.frozen := by
  unfold doSyncRelease; (repeat' (first | with_reducible rfl | (simp []; done) | (split <;> try (rename_i heq; obtain ⟨_, rfl⟩ := Prod.ext_iff.mp heq)) | refine (State.frozen_foldl _ (fun _ _ => ?_) _ _).trans ?_ | dsimp only | simp []))

@[simp] theorem State.firedTrigger_frozen (s : State) (b : Nat) (n : Nat) :
    (State.firedTrigger s b n).frozen = s.frozen := by
  simp [State.firedTrigger]

@[simp] theorem State.firedAnalog_frozen (s : State) (b : Nat) :
    (State.firedAnalog s b).frozen = s.frozen := by
  simp [State.firedAnalog]

@[simp] theorem doPpmuTrigger_frozen (b : Nat) (s : State) :
    (doPpmuTrigger b s).frozen = s.frozen := by
  unfold doPpmuTrigger; (repeat' (first | with_reducible rfl | (simp []; done) | (split <;> try (rename_i heq; obtain ⟨_, rfl⟩ := Prod.ext_iff.mp heq)) | refine (State.frozen_foldl _ (fun _ _ => ?_) _ _).trans ?_ | dsimp only | simp []))

@[simp] theorem State.connectPins_frozen (s : State) (l : List Nat) (on : Bool) (cut : List PartialConv) :
    (State.connectPins s l on cut).frozen = s.frozen := by
  simp [State.connectPins]

@[simp] theorem State.switchPpmus_frozen (s : State) (b : Nat) (code : Nat) (on : Bool) (cut : List PartialConv) :
    (State.switchPpmus s b code on cut).frozen = s.frozen := by
  unfold State.switchPpmus; (repeat' (first | with_reducible rfl | (simp []; done) | (split <;> try (rename_i heq; obtain ⟨_, rfl⟩ := Prod.ext_iff.mp heq)) | refine (State.frozen_foldl _ (fun _ _ => ?_) _ _).trans ?_ | dsimp only | simp []))

@[simp] theorem doPpmuConnect_frozen (b : Nat) (cut : List PartialConv) (s : State) :
    (doPpmuConnect b cut s).frozen = s.frozen := by
  simp [doPpmuConnect]

@[simp] theorem doPpmuDisconnect_frozen (b : Nat) (cut : List PartialConv) (s : State) :
    (doPpmuDisconnect b cut s).frozen = s.frozen := by
  simp [doPpmuDisconnect]

@[simp] theorem doLevelSet_frozen (b : Nat) (k : Nat) (s : State) :
    (doLevelSet b k s).frozen = s.frozen := by
  unfold doLevelSet; (repeat' (first | with_reducible rfl | (simp []; done) | (split <;> try (rename_i heq; obtain ⟨_, rfl⟩ := Prod.ext_iff.mp heq)) | refine (State.frozen_foldl _ (fun _ _ => ?_) _ _).trans ?_ | dsimp only | simp []))

end Sys2Proof.Machine
end

