-- ==== Sys2Proof/Laws/Frozen/Stalls.lean ====
section
/-! SUPPORT. What the operations of Sys2Proof/Machine/Stalls.lean leave alone: the queue, the fuses in effect, the reset lines,
the reference, the test access port and the count of hot resets. -/

namespace Sys2Proof.Machine

open Sys2Proof

set_option linter.unusedTactic false
set_option linter.unreachableTactic false
set_option linter.unusedSimpArgs false

@[simp] theorem State.voidRecords_frozen (s : State) (n : Nat) (positions : Nat) (replay : Nat) :
    (State.voidRecords s n positions replay).frozen = s.frozen := by
  simp [State.voidRecords]

@[simp] theorem State.discardReadings_frozen (s : State) (b : Nat) (snap : Nat) :
    (State.discardReadings s b snap).frozen = s.frozen := by
  simp [State.discardReadings]

@[simp] theorem State.replay_frozen (s : State) (b : Nat) :
    (State.replay s b).frozen = s.frozen := by
  unfold State.replay; (repeat' (first | with_reducible rfl | (simp []; done) | (split <;> try (rename_i heq; obtain ⟨_, rfl⟩ := Prod.ext_iff.mp heq)) | refine (State.frozen_foldl _ (fun _ _ => ?_) _ _).trans ?_ | dsimp only | simp []))

@[simp] theorem State.emptied_frozen (s : State) (b : Nat) (g : Program) :
    (State.emptied s b g).frozen = s.frozen := by
  simp [State.emptied]

@[simp] theorem State.enterSafeWait_frozen (s : State) (b : Nat) (g : Program) :
    (State.enterSafeWait s b g).frozen = s.frozen := by
  simp [State.enterSafeWait]

@[simp] theorem State.enterUnsafeStall_frozen (s : State) (b : Nat) (g : Program) :
    (State.enterUnsafeStall s b g).frozen = s.frozen := by
  simp [State.enterUnsafeStall]

@[simp] theorem State.emptyQueue_frozen (s : State) (b : Nat) (safe : Bool) :
    (State.emptyQueue s b safe).frozen = s.frozen := by
  unfold State.emptyQueue; (repeat' (first | with_reducible rfl | (simp []; done) | (split <;> try (rename_i heq; obtain ⟨_, rfl⟩ := Prod.ext_iff.mp heq)) | refine (State.frozen_foldl _ (fun _ _ => ?_) _ _).trans ?_ | dsimp only | simp []))

@[simp] theorem doSafeWait_frozen (b : Nat) (s : State) :
    (doSafeWait b s).frozen = s.frozen := by
  simp [doSafeWait]

@[simp] theorem doUnsafeStall_frozen (b : Nat) (s : State) :
    (doUnsafeStall b s).frozen = s.frozen := by
  simp [doUnsafeStall]

@[simp] theorem State.fillFrame_frozen (s : State) (b : Nat) (pg : Nat) (pin : Bool) (words : List Nat) (poisoned : List Nat) :
    (State.fillFrame s b pg pin words poisoned).frozen = s.frozen := by
  unfold State.fillFrame; (repeat' (first | with_reducible rfl | (simp []; done) | (split <;> try (rename_i heq; obtain ⟨_, rfl⟩ := Prod.ext_iff.mp heq)) | refine (State.frozen_foldl _ (fun _ _ => ?_) _ _).trans ?_ | dsimp only | simp []))

@[simp] theorem State.readSafeBit_frozen (s : State) (b : Nat) :
    (State.readSafeBit s b).frozen = s.frozen := by
  unfold State.readSafeBit; (repeat' (first | with_reducible rfl | (simp []; done) | (split <;> try (rename_i heq; obtain ⟨_, rfl⟩ := Prod.ext_iff.mp heq)) | refine (State.frozen_foldl _ (fun _ _ => ?_) _ _).trans ?_ | dsimp only | simp []))

@[simp] theorem doCsDemandFill_frozen (b : Nat) (s : State) :
    (doCsDemandFill b s).frozen = s.frozen := by
  unfold doCsDemandFill; (repeat' (first | with_reducible rfl | (simp []; done) | (split <;> try (rename_i heq; obtain ⟨_, rfl⟩ := Prod.ext_iff.mp heq)) | refine (State.frozen_foldl _ (fun _ _ => ?_) _ _).trans ?_ | dsimp only | simp []))

@[simp] theorem doTrapFrameWrite_frozen (b : Nat) (s : State) :
    (doTrapFrameWrite b s).frozen = s.frozen := by
  unfold doTrapFrameWrite; (repeat' (first | with_reducible rfl | (simp []; done) | (split <;> try (rename_i heq; obtain ⟨_, rfl⟩ := Prod.ext_iff.mp heq)) | refine (State.frozen_foldl _ (fun _ _ => ?_) _ _).trans ?_ | dsimp only | simp []))

@[simp] theorem doPreemptFrameWrite_frozen (b : Nat) (s : State) :
    (doPreemptFrameWrite b s).frozen = s.frozen := by
  unfold doPreemptFrameWrite; (repeat' (first | with_reducible rfl | (simp []; done) | (split <;> try (rename_i heq; obtain ⟨_, rfl⟩ := Prod.ext_iff.mp heq)) | refine (State.frozen_foldl _ (fun _ _ => ?_) _ _).trans ?_ | dsimp only | simp []))

@[simp] theorem State.limitFrame_frozen (s : State) (b : Nat) (g : Program) :
    (State.limitFrame s b g).frozen = s.frozen := by
  unfold State.limitFrame; (repeat' (first | with_reducible rfl | (simp []; done) | (split <;> try (rename_i heq; obtain ⟨_, rfl⟩ := Prod.ext_iff.mp heq)) | refine (State.frozen_foldl _ (fun _ _ => ?_) _ _).trans ?_ | dsimp only | simp []))

@[simp] theorem doProgramTimeLimit_frozen (b : Nat) (s : State) :
    (doProgramTimeLimit b s).frozen = s.frozen := by
  unfold doProgramTimeLimit; (repeat' (first | with_reducible rfl | (simp []; done) | (split <;> try (rename_i heq; obtain ⟨_, rfl⟩ := Prod.ext_iff.mp heq)) | refine (State.frozen_foldl _ (fun _ _ => ?_) _ _).trans ?_ | dsimp only | simp []))

@[simp] theorem doPreemptTimeLimit_frozen (b : Nat) (k : Nat) (s : State) :
    (doPreemptTimeLimit b k s).frozen = s.frozen := by
  unfold doPreemptTimeLimit; (repeat' (first | with_reducible rfl | (simp []; done) | (split <;> try (rename_i heq; obtain ⟨_, rfl⟩ := Prod.ext_iff.mp heq)) | refine (State.frozen_foldl _ (fun _ _ => ?_) _ _).trans ?_ | dsimp only | simp []))

@[simp] theorem doProgramPreempt_frozen (c : Cmd) (s : State) :
    (doProgramPreempt c s).frozen = s.frozen := by
  unfold doProgramPreempt; (repeat' (first | with_reducible rfl | refine State.checked_frozen _ _ _ _ (fun _ => ?_) | (simp []; done) | (split <;> try (rename_i heq; obtain ⟨_, rfl⟩ := Prod.ext_iff.mp heq)) | refine (State.frozen_foldl _ (fun _ _ => ?_) _ _).trans ?_ | dsimp only | simp []))

@[simp] theorem State.hostTrap_frozen (s : State) (b : Nat) (c : Cmd) :
    (State.hostTrap s b c).frozen = s.frozen := by
  unfold State.hostTrap; (repeat' (first | with_reducible rfl | (simp []; done) | (split <;> try (rename_i heq; obtain ⟨_, rfl⟩ := Prod.ext_iff.mp heq)) | refine (State.frozen_foldl _ (fun _ _ => ?_) _ _).trans ?_ | dsimp only | simp []))

@[simp] theorem doTrapRequest_frozen (c : Cmd) (s : State) :
    (doTrapRequest c s).frozen = s.frozen := by
  unfold doTrapRequest; (repeat' (first | with_reducible rfl | refine State.checked_frozen _ _ _ _ (fun _ => ?_) | (simp []; done) | (split <;> try (rename_i heq; obtain ⟨_, rfl⟩ := Prod.ext_iff.mp heq)) | refine (State.frozen_foldl _ (fun _ _ => ?_) _ _).trans ?_ | dsimp only | simp []))

end Sys2Proof.Machine
end

