-- ==== Sys2Proof/Laws/Frozen/Programs.lean ====
section
/-! SUPPORT. What the operations of Sys2Proof/Machine/Programs.lean leave alone: the queue, the fuses in effect, the reset lines,
the reference, the test access port and the count of hot resets. -/

namespace Sys2Proof.Machine

open Sys2Proof

set_option linter.unusedTactic false
set_option linter.unreachableTactic false
set_option linter.unusedSimpArgs false

@[simp] theorem State.checkSegments_frozen (s : State) (b : Nat) (v2 : List (Option (Nat × Nat))) (v3 : Pre) :
    (State.checkSegments s b v2 v3).2.frozen = s.frozen := by
  induction v2 generalizing s b v3 <;> (unfold State.checkSegments; (repeat' split) <;> simp_all)

@[simp] theorem State.readHold_frozen (s : State) (b : Nat) (h : Header) (n : Nat) :
    (State.readHold s b h n).2.2.frozen = s.frozen := by
  unfold State.readHold
  extract_lets x base r s1
  have hr : r.2.2.frozen = s.frozen := State.preRead_frozen _ _ _ _
  have hs : s1.frozen = s.frozen := (State.bump_frozen _ _ _).trans hr
  clear_value s1 r
  obtain ⟨l, p, u⟩ := r
  split
  · exact hr
  · extract_lets e len q s2
    have hq : q.2.2.frozen = s.frozen := (State.preRead_frozen _ _ _ _).trans hs
    have hs2 : s2.frozen = s.frozen := (State.bump_frozen _ _ _).trans hq
    clear_value s2 q
    split
    · exact hs
    · split
      · exact hs2
      · split
        · exact hs2
        · exact (State.bump_frozen _ _ _).trans hs2

@[simp] theorem State.readHolds_frozen (s : State) (b : Nat) (h : Header) (v3 : List Nat) (v4 : Pre) (v5 : List (Nat × Nat × Nat)) :
    (State.readHolds s b h v3 v4 v5).2.frozen = s.frozen := by
  induction v3 generalizing s b h v4 v5 <;> unfold State.readHolds <;> (repeat' (first | with_reducible rfl | (simp [*]; done) | (split <;> try (rename_i heq; obtain ⟨_, rfl⟩ := Prod.ext_iff.mp heq)) | refine (State.frozen_foldl _ (fun _ _ => ?_) _ _).trans ?_ | dsimp only | simp []))

@[simp] theorem State.readImage_frozen (s : State) (b : Nat) (image : Nat) :
    (State.readImage s b image).2.2.frozen = s.frozen := by
  unfold State.readImage; (repeat' split) <;> (first | (simp []; done) | grind [State.checkSegments_frozen, State.preRead_frozen, State.readHolds_frozen])

@[simp] theorem State.showFreezes_frozen (s : State) :
    (State.showFreezes s).frozen = s.frozen := by
  simp [State.showFreezes]

@[simp] theorem State.raiseIdle_frozen (s : State) :
    (State.raiseIdle s).frozen = s.frozen := by
  simp [State.raiseIdle]

@[simp] theorem State.startPins_frozen (s : State) (n : Nat) :
    (State.startPins s n).frozen = s.frozen := by
  simp [State.startPins]

@[simp] theorem State.startStream_frozen (s : State) (n : Nat) (seq : Nat) :
    (State.startStream s n seq).frozen = s.frozen := by
  simp [State.startStream]

@[simp] theorem fillResident_frozen (b : Nat) (v1 : Nat) (s : State) :
    (fillResident b v1 s).frozen = s.frozen := by
  induction v1 generalizing s with
  | zero => rfl
  | succ fuel ih =>
    simp only [fillResident]
    split
    · rfl
    · rename_i g _
      split
      · rfl
      · rename_i pg rest _
        have h := State.readPage_frozen s b g.image g.header.codeOffset pg false
        split
        · rename_i heq
          rw [heq] at h
          rw [ih, State.modProgram_frozen, State.fillFrame_frozen]
          exact h
        · rename_i heq
          rw [heq] at h
          exact (State.stopAllSites_frozen _ _ _).trans h
        · rename_i heq
          rw [heq] at h
          exact h

@[simp] theorem State.admitProgram_frozen (s : State) (b : Nat) (c : Cmd) (image : Nat) (frame : Nat) (h : Header) (holds : List (Nat × Nat × Nat)) (resumed : Option (Micro × Nat)) :
    (State.admitProgram s b c image frame h holds resumed).frozen = s.frozen := by
  simp [State.admitProgram]

@[simp] theorem State.keepStart_frozen (s : State) (c : Cmd) :
    (State.keepStart s c).frozen = s.frozen := by
  simp [State.keepStart]

@[simp] theorem State.endStart_frozen (s : State) (c : Cmd) (st : Nat) (res : Nat) :
    (State.endStart s c st res).frozen = s.frozen := by
  simp [State.endStart]

theorem State.startWith_frozen (s : State) (s0 : State) (c : Cmd) (bad : Bool) (p : Pre) (image : Nat) (frame : Nat) (h : Option (Header × List (Nat × Nat × Nat))) (resumed : Option (Micro × Nat)) (h0 : s0.frozen = s.frozen) :
    (State.startWith s s0 c bad p image frame h resumed).frozen = s.frozen := by
  unfold State.startWith
  have hk : (s0.keepRequests s).frozen = s.frozen := by simpa [State.keepRequests] using h0
  dsimp only
  (repeat' split) <;> simp [hk]

@[simp] theorem State.tryStart_frozen (s : State) (c : Cmd) :
    (State.tryStart s c).frozen = s.frozen := by
  unfold State.tryStart
  extract_lets b image frame r q bad
  split
  · split
    · simp
    · exact (State.startWith_frozen _ _ _ _ _ _ _ _ _ (State.readImage_frozen _ _ _).symm).trans (State.readImage_frozen _ _ _)
  · split
    · simp
    · have hq : q.2.2.frozen = s.frozen := State.preRead_frozen _ _ _ _
      clear_value q
      split
      · exact (State.startWith_frozen _ _ _ _ _ _ _ _ _ hq.symm).trans hq
      · extract_lets image' r'
        split
        · exact (State.startWith_frozen _ _ _ _ _ _ _ _ _ hq.symm).trans hq
        · have hr : r'.2.2.frozen = s.frozen := (State.readImage_frozen _ _ _).trans hq
          clear_value r'
          exact (State.startWith_frozen _ _ _ _ _ _ _ _ _ hr.symm).trans hr

@[simp] theorem doProgramStart_frozen (c : Cmd) (s : State) :
    (doProgramStart c s).frozen = s.frozen := by
  simp [doProgramStart]

@[simp] theorem doProgramAdmit_frozen (b : Nat) (s : State) :
    (doProgramAdmit b s).frozen = s.frozen := by
  unfold doProgramAdmit; (repeat' (first | with_reducible rfl | (simp []; done) | (split <;> try (rename_i heq; obtain ⟨_, rfl⟩ := Prod.ext_iff.mp heq)) | refine (State.frozen_foldl _ (fun _ _ => ?_) _ _).trans ?_ | dsimp only | simp []))

@[simp] theorem State.unpinFrames_frozen (s : State) (n : Nat) :
    (State.unpinFrames s n).frozen = s.frozen := by
  simp [State.unpinFrames]

@[simp] theorem State.abandonGroup_frozen (s : State) (b : Nat) :
    (State.abandonGroup s b).frozen = s.frozen := by
  simp [State.abandonGroup]

@[simp] theorem State.finishProgram_frozen (s : State) (b : Nat) (g : Program) :
    (State.finishProgram s b g).frozen = s.frozen := by
  simp [State.finishProgram]

@[simp] theorem doProgramEnd_frozen (b : Nat) (s : State) :
    (doProgramEnd b s).frozen = s.frozen := by
  unfold doProgramEnd; (repeat' (first | with_reducible rfl | (simp []; done) | (split <;> try (rename_i heq; obtain ⟨_, rfl⟩ := Prod.ext_iff.mp heq)) | refine (State.frozen_foldl _ (fun _ _ => ?_) _ _).trans ?_ | dsimp only | simp []))

end Sys2Proof.Machine
end

