-- ==== Sys2Proof/Laws/Frozen/Dps.lean ====
section
/-! SUPPORT. What the operations of Sys2Proof/Machine/Dps.lean leave alone: the queue, the fuses in effect, the reset lines,
the reference, the test access port and the count of hot resets. -/

namespace Sys2Proof.Machine

open Sys2Proof

set_option linter.unusedTactic false
set_option linter.unreachableTactic false
set_option linter.unusedSimpArgs false

@[simp] theorem State.modDps_frozen (s : State) (n : Nat) (f : Dps → Dps) :
    (State.modDps s n f).frozen = s.frozen := by
  simp [State.modDps]

@[simp] theorem State.showTrip_frozen (s : State) (n : Nat) :
    (State.showTrip s n).frozen = s.frozen := by
  simp [State.showTrip]

@[simp] theorem State.showTrips_frozen (s : State) (l : Nat) :
    (State.showTrips s l).frozen = s.frozen := by
  simp [State.showTrips]

@[simp] theorem State.endRuns_frozen (s : State) (l : Nat) (action : Nat) (st : Nat) :
    (State.endRuns s l action st).frozen = s.frozen := by
  simp [State.endRuns]

@[simp] theorem State.dpsEnter_frozen (s : State) (l : Nat) (st : Nat) :
    (State.dpsEnter s l st).frozen = s.frozen := by
  simp [State.dpsEnter]

@[simp] theorem State.dpsOnReq_frozen (s : State) (l : Nat) :
    (State.dpsOnReq s l).frozen = s.frozen := by
  simp [State.dpsOnReq]

@[simp] theorem State.dpsOffReq_frozen (s : State) (l : Nat) (status : Nat) :
    (State.dpsOffReq s l status).frozen = s.frozen := by
  simp [State.dpsOffReq]

@[simp] theorem State.dpsSiteOff_frozen (s : State) (x : SitePos) (status : Nat) :
    (State.dpsSiteOff s x status).frozen = s.frozen := by
  simp [State.dpsSiteOff]

@[simp] theorem State.dpsRamp_frozen (s : State) (l : Nat) :
    (State.dpsRamp s l).frozen = s.frozen := by
  simp [State.dpsRamp]

@[simp] theorem State.dpsDeckleOff_frozen (s : State) (l : Nat) :
    (State.dpsDeckleOff s l).frozen = s.frozen := by
  simp [State.dpsDeckleOff]

@[simp] theorem State.applyDps_frozen (s : State) (n : Nat) :
    (State.applyDps s n).frozen = s.frozen := by
  simp [State.applyDps]

@[simp] theorem State.dpsWritten_frozen (s : State) (n : Nat) :
    (State.dpsWritten s n).frozen = s.frozen := by
  simp [State.dpsWritten]

@[simp] theorem State.takeDps_frozen (s : State) (n : Nat) :
    (State.takeDps s n).frozen = s.frozen := by
  simp [State.takeDps]

@[simp] theorem State.dpsRelease_frozen (s : State) (n : Nat) :
    (State.dpsRelease s n).frozen = s.frozen := by
  simp [State.dpsRelease]

@[simp] theorem State.applySwg_frozen (s : State) (k : Nat) :
    (State.applySwg s k).frozen = s.frozen := by
  simp [State.applySwg]

@[simp] theorem State.swgWritten_frozen (s : State) (k : Nat) :
    (State.swgWritten s k).frozen = s.frozen := by
  simp [State.swgWritten]

@[simp] theorem State.swgRelease_frozen (s : State) (k : Nat) :
    (State.swgRelease s k).frozen = s.frozen := by
  simp [State.swgRelease]

@[simp] theorem State.dpsGather_frozen (s : State) (n : Nat) (v : BitVec 20) (i : BitVec 20) :
    (State.dpsGather s n v i).frozen = s.frozen := by
  unfold State.dpsGather; (repeat' (first | with_reducible rfl | (simp []; done) | (split <;> try (rename_i heq; obtain ⟨_, rfl⟩ := Prod.ext_iff.mp heq)) | refine (State.frozen_foldl _ (fun _ _ => ?_) _ _).trans ?_ | dsimp only | simp []))

@[simp] theorem State.dpsRampEnd_frozen (s : State) (l : Nat) (v : Int) :
    (State.dpsRampEnd s l v).frozen = s.frozen := by
  simp [State.dpsRampEnd]

@[simp] theorem doDpsCycle_frozen (n : Nat) (v : BitVec 20) (i : BitVec 20) (s : State) :
    (doDpsCycle n v i s).frozen = s.frozen := by
  simp [doDpsCycle]

@[simp] theorem State.dpsKind_frozen (s : State) (quantity : Nat) (n : Nat) :
    (State.dpsKind s quantity n).2.frozen = s.frozen := by
  simp [State.dpsKind]

@[simp] theorem State.dpsDeliver_frozen (s : State) (l : Nat) (quantity : Nat) (m : DpsMeas) (test : Nat) (status : Nat) (n : Nat) (value : Int) (flags : Nat) :
    (State.dpsDeliver s l quantity m test status n value flags).frozen = s.frozen := by
  unfold State.dpsDeliver; (repeat' (first | with_reducible rfl | (simp []; done) | (split <;> try (rename_i heq; obtain ⟨_, rfl⟩ := Prod.ext_iff.mp heq)) | refine (State.frozen_foldl _ (fun _ _ => ?_) _ _).trans ?_ | dsimp only | simp []))

@[simp] theorem State.dpsFinish_frozen (s : State) (l : Nat) (m : DpsMeas) (status : Nat) (n : Nat) (v : Int) (i : Int) (flagsV : Nat) (flagsI : Nat) :
    (State.dpsFinish s l m status n v i flagsV flagsI).frozen = s.frozen := by
  unfold State.dpsFinish; (repeat' (first | with_reducible rfl | (simp []; done) | (split <;> try (rename_i heq; obtain ⟨_, rfl⟩ := Prod.ext_iff.mp heq)) | refine (State.frozen_foldl _ (fun _ _ => ?_) _ _).trans ?_ | dsimp only | simp []))

@[simp] theorem State.dpsDropSince_frozen (s : State) (b : Nat) (serial : Nat) :
    (State.dpsDropSince s b serial).frozen = s.frozen := by
  simp [State.dpsDropSince]

@[simp] theorem State.dpsForget_frozen (s : State) (l : Nat) :
    (State.dpsForget s l).frozen = s.frozen := by
  simp [State.dpsForget]

@[simp] theorem State.dpsCut_frozen (s : State) (l : Nat) (status : Nat) :
    (State.dpsCut s l status).frozen = s.frozen := by
  unfold State.dpsCut; (repeat' (first | with_reducible rfl | (simp []; done) | (split <;> try (rename_i heq; obtain ⟨_, rfl⟩ := Prod.ext_iff.mp heq)) | refine (State.frozen_foldl _ (fun _ _ => ?_) _ _).trans ?_ | dsimp only | simp []))

@[simp] theorem State.dpsBegin_frozen (s : State) (l : Nat) (m : DpsMeas) :
    (State.dpsBegin s l m).frozen = s.frozen := by
  simp [State.dpsBegin]

@[simp] theorem doDpsReading_frozen (l : Nat) (s : State) :
    (doDpsReading l s).frozen = s.frozen := by
  unfold doDpsReading; (repeat' (first | with_reducible rfl | (simp []; done) | (split <;> try (rename_i heq; obtain ⟨_, rfl⟩ := Prod.ext_iff.mp heq)) | refine (State.frozen_foldl _ (fun _ _ => ?_) _ _).trans ?_ | dsimp only | simp []))

@[simp] theorem doDpsReadTrigger_frozen (b : Nat) (s : State) :
    (doDpsReadTrigger b s).frozen = s.frozen := by
  unfold doDpsReadTrigger; (repeat' (first | with_reducible rfl | (simp []; done) | (split <;> try (rename_i heq; obtain ⟨_, rfl⟩ := Prod.ext_iff.mp heq)) | refine (State.frozen_foldl _ (fun _ _ => ?_) _ _).trans ?_ | dsimp only | simp []))

@[simp] theorem State.dpsSwitch_frozen (s : State) (b : Nat) (code : Nat) (f : State → Nat → State) (hf : ∀ x0 x1, (f x0 x1).frozen = State.frozen x0) :
    (State.dpsSwitch s b code f).frozen = s.frozen := by
  unfold State.dpsSwitch; (repeat' (first | with_reducible rfl | (simp [hf]; done) | (split <;> try (rename_i heq; obtain ⟨_, rfl⟩ := Prod.ext_iff.mp heq)) | refine (State.frozen_foldl _ (fun _ _ => ?_) _ _).trans ?_ | dsimp only | simp [hf]))

@[simp] theorem doDpsOn_frozen (b : Nat) (s : State) :
    (doDpsOn b s).frozen = s.frozen := by
  simp [doDpsOn]

@[simp] theorem doDpsOff_frozen (b : Nat) (s : State) :
    (doDpsOff b s).frozen = s.frozen := by
  simp [doDpsOff]

@[simp] theorem doDpsWindowTrip_frozen (n : Nat) (bounds : BitVec 4) (s : State) :
    (doDpsWindowTrip n bounds s).frozen = s.frozen := by
  unfold doDpsWindowTrip
  generalize andMask bounds.toNat (s.dpsArmed n) = k
  dsimp only
  split
  · rfl
  · have h : ∀ t : State, t.frozen = s.frozen → (match t.dpsEnabledSite n with
        | some (b, x) => t.assertCause b x.position 0
        | none => if s.afld (Reg.MON_ACTION n) = 0 then t else t.dpsOffReq (t.dpsLeader n) 1).frozen = s.frozen := by
      intro t ht
      split
      · exact (State.assertCause_frozen _ _ _ _).trans ht
      · split
        · exact ht
        · exact (State.dpsOffReq_frozen _ _ _).trans ht
    refine h _ ?_
    split
    · rw [State.raise_frozen, State.bump_frozen, State.setFld_frozen, State.setFlag_frozen, State.showTrip_frozen,
        State.modDps_frozen]
    · rw [State.frozen_update, State.raise_frozen, State.bump_frozen, State.setFld_frozen, State.setFlag_frozen,
        State.showTrip_frozen, State.modDps_frozen]

@[simp] theorem doDpsBoundInside_frozen (n : Nat) (s : State) :
    (doDpsBoundInside n s).frozen = s.frozen := by
  simp [doDpsBoundInside]

@[simp] theorem doBlankExpiry_frozen (n : Nat) (s : State) :
    (doBlankExpiry n s).frozen = s.frozen := by
  simp [doBlankExpiry]

@[simp] theorem doDpsDisagree_frozen (n : Nat) (bound : BitVec 4) (s : State) :
    (doDpsDisagree n bound s).frozen = s.frozen := by
  simp [doDpsDisagree]

@[simp] theorem State.dpsChecked_frozen (s : State) (n : Nat) (second : Bool) (passed : Bool) :
    (State.dpsChecked s n second passed).frozen = s.frozen := by
  unfold State.dpsChecked; (repeat' (first | with_reducible rfl | (simp []; done) | (split <;> try (rename_i heq; obtain ⟨_, rfl⟩ := Prod.ext_iff.mp heq)) | refine (State.frozen_foldl _ (fun _ _ => ?_) _ _).trans ?_ | dsimp only | simp []))

@[simp] theorem doDpsSelfCheck_frozen (n : Nat) (second : Bool) (passed : Bool) (s : State) :
    (doDpsSelfCheck n second passed s).frozen = s.frozen := by
  unfold doDpsSelfCheck; (repeat' (first | with_reducible rfl | (simp []; done) | (split <;> try (rename_i heq; obtain ⟨_, rfl⟩ := Prod.ext_iff.mp heq)) | refine (State.frozen_foldl _ (fun _ _ => ?_) _ _).trans ?_ | dsimp only | simp []))

@[simp] theorem State.dpsRun_frozen (s : State) (c : Cmd) (k : Nat → State → State) (hk : ∀ x0 x1, (k x0 x1).frozen = State.frozen x1) :
    (State.dpsRun s c k).frozen = s.frozen := by
  unfold State.dpsRun; (repeat' (first | with_reducible rfl | refine State.checked_frozen _ _ _ _ (fun _ => ?_) | (simp [hk]; done) | (split <;> try (rename_i heq; obtain ⟨_, rfl⟩ := Prod.ext_iff.mp heq)) | refine (State.frozen_foldl _ (fun _ _ => ?_) _ _).trans ?_ | dsimp only | simp [hk]))

@[simp] theorem doDpsRunOn_frozen (c : Cmd) (s : State) :
    (doDpsRunOn c s).frozen = s.frozen := by
  simp [doDpsRunOn]

@[simp] theorem doDpsRunOff_frozen (c : Cmd) (s : State) :
    (doDpsRunOff c s).frozen = s.frozen := by
  simp [doDpsRunOff]

@[simp] theorem doDpsRunMeasure_frozen (c : Cmd) (s : State) :
    (doDpsRunMeasure c s).frozen = s.frozen := by
  simp [doDpsRunMeasure]

end Sys2Proof.Machine
end

