-- ==== Sys2Proof/Laws/Frozen/Sites.lean ====
section
/-! SUPPORT. What the operations of Sys2Proof/Machine/Sites.lean leave alone: the queue, the fuses in effect, the reset lines,
the reference, the test access port and the count of hot resets. -/

namespace Sys2Proof.Machine

open Sys2Proof

set_option linter.unusedTactic false
set_option linter.unreachableTactic false
set_option linter.unusedSimpArgs false

@[simp] theorem State.clearEntry_frozen (s : State) (b : Nat) (p : Nat) :
    (State.clearEntry s b p).frozen = s.frozen := by
  simp [State.clearEntry]

@[simp] theorem State.clearLeader_frozen (s : State) (b : Nat) :
    (State.clearLeader s b).frozen = s.frozen := by
  simp [State.clearLeader]

@[simp] theorem State.freeSeqs_frozen (s : State) (l : List Nat) (seqs : List Nat) :
    (State.freeSeqs s l seqs).frozen = s.frozen := by
  simp [State.freeSeqs]

@[simp] theorem State.dissolve_frozen (s : State) (seqs : List Nat) (g : Nat × Group) :
    (State.dissolve s seqs g).frozen = s.frozen := by
  simp [State.dissolve]

@[simp] theorem State.settlePin_frozen (s : State) (b : Nat) (closed : Nat) (p : Nat) :
    (State.settlePin s b closed p).frozen = s.frozen := by
  unfold State.settlePin; (repeat' (first | with_reducible rfl | (simp []; done) | (split <;> try (rename_i heq; obtain ⟨_, rfl⟩ := Prod.ext_iff.mp heq)) | refine (State.frozen_foldl _ (fun _ _ => ?_) _ _).trans ?_ | dsimp only | simp []))

@[simp] theorem State.capture_frozen (s : State) (b : Nat) :
    (State.capture s b).frozen = s.frozen := by
  simp [State.capture]

@[simp] theorem State.siteEnable_frozen (s : State) (c : Cmd) (b : Nat) (on : Nat) (off : Nat) :
    (State.siteEnable s c b on off).frozen = s.frozen := by
  simp [State.siteEnable]

@[simp] theorem doSiteEnable_frozen (c : Cmd) (s : State) :
    (doSiteEnable c s).frozen = s.frozen := by
  simp [doSiteEnable]

@[simp] theorem doContactCheck_frozen (c : Cmd) (s : State) :
    (doContactCheck c s).frozen = s.frozen := by
  simp [doContactCheck]

@[simp] theorem State.contactRecord_frozen (s : State) (p : Nat) (m : PinMeas) (status : Nat) (conversions : Nat) (value : Int) (flags : Nat) (start : Nat) (outside : Bool) :
    (State.contactRecord s p m status conversions value flags start outside).frozen = s.frozen := by
  simp [State.contactRecord]

@[simp] theorem doContactCheckEnd_frozen (b : Nat) (start : Nat) (l : List (BitVec 18 × Bool)) (s : State) :
    (doContactCheckEnd b start l s).frozen = s.frozen := by
  unfold doContactCheckEnd; (repeat' (first | with_reducible rfl | (simp []; done) | (split <;> try (rename_i heq; obtain ⟨_, rfl⟩ := Prod.ext_iff.mp heq)) | refine (State.frozen_foldl _ (fun _ _ => ?_) _ _).trans ?_ | dsimp only | simp []))

@[simp] theorem doDeckleClose_frozen (c : Cmd) (s : State) :
    (doDeckleClose c s).frozen = s.frozen := by
  simp [doDeckleClose]

@[simp] theorem doSiteRegLoad_frozen (c : Cmd) (s : State) :
    (doSiteRegLoad c s).frozen = s.frozen := by
  unfold doSiteRegLoad; (repeat' (first | with_reducible rfl | refine State.checked_frozen _ _ _ _ (fun _ => ?_) | (simp []; done) | (split <;> try (rename_i heq; obtain ⟨_, rfl⟩ := Prod.ext_iff.mp heq)) | refine (State.frozen_foldl _ (fun _ _ => ?_) _ _).trans ?_ | dsimp only | simp []))

@[simp] theorem doClampTrip_frozen (p : Nat) (s : State) :
    (doClampTrip p s).frozen = s.frozen := by
  unfold doClampTrip; (repeat' (first | with_reducible rfl | (simp []; done) | (split <;> try (rename_i heq; obtain ⟨_, rfl⟩ := Prod.ext_iff.mp heq)) | refine (State.frozen_foldl _ (fun _ _ => ?_) _ _).trans ?_ | dsimp only | simp []))

@[simp] theorem doClampLiveClear_frozen (p : Nat) (s : State) :
    (doClampLiveClear p s).frozen = s.frozen := by
  simp [doClampLiveClear]

@[simp] theorem State.clampChecked_frozen (s : State) (p : Nat) (passed : Bool) :
    (State.clampChecked s p passed).frozen = s.frozen := by
  unfold State.clampChecked; (repeat' (first | with_reducible rfl | (simp []; done) | (split <;> try (rename_i heq; obtain ⟨_, rfl⟩ := Prod.ext_iff.mp heq)) | refine (State.frozen_foldl _ (fun _ _ => ?_) _ _).trans ?_ | dsimp only | simp []))

@[simp] theorem doClampSelfCheck_frozen (c : Nat) (passed : BitVec 33) (s : State) :
    (doClampSelfCheck c passed s).frozen = s.frozen := by
  simp [doClampSelfCheck]

@[simp] theorem doPpmuMeasure_frozen (c : Cmd) (s : State) :
    (doPpmuMeasure c s).frozen = s.frozen := by
  simp [doPpmuMeasure]

end Sys2Proof.Machine
end

