-- ==== Sys2Proof/Laws/Frozen/Tmu.lean ====
section
/-! SUPPORT. What the operations of Sys2Proof/Machine/Tmu.lean leave alone: the queue, the fuses in effect, the reset lines,
the reference, the test access port and the count of hot resets. -/

namespace Sys2Proof.Machine

open Sys2Proof

set_option linter.unusedTactic false
set_option linter.unreachableTactic false
set_option linter.unusedSimpArgs false

@[simp] theorem State.modTmu_frozen (s : State) (n : Nat) (f : Tmu → Tmu) :
    (State.modTmu s n f).frozen = s.frozen := by
  simp [State.modTmu]

@[simp] theorem State.applyTmu_frozen (s : State) (n : Nat) :
    (State.applyTmu s n).frozen = s.frozen := by
  simp [State.applyTmu]

@[simp] theorem State.tmuWritten_frozen (s : State) (n : Nat) :
    (State.tmuWritten s n).frozen = s.frozen := by
  simp [State.tmuWritten]

@[simp] theorem State.takeTmu_frozen (s : State) (n : Nat) :
    (State.takeTmu s n).frozen = s.frozen := by
  simp [State.takeTmu]

@[simp] theorem State.tmuRelease_frozen (s : State) (n : Nat) :
    (State.tmuRelease s n).frozen = s.frozen := by
  simp [State.tmuRelease]

@[simp] theorem State.tmuCompute_frozen (s : State) (n : Nat) (m : TmuArm) :
    (State.tmuCompute s n m).2.frozen = s.frozen := by
  unfold State.tmuCompute; (repeat' (first | with_reducible rfl | (simp []; done) | (split <;> try (rename_i heq; obtain ⟨_, rfl⟩ := Prod.ext_iff.mp heq)) | refine (State.frozen_foldl _ (fun _ _ => ?_) _ _).trans ?_ | dsimp only | simp []))

@[simp] theorem State.tmuSend_frozen (s : State) (n : Nat) (m : TmuArm) (v : TmuValue) (bits : Nat) (events : Nat) (index : Nat) (cellTime : Nat) :
    (State.tmuSend s n m v bits events index cellTime).frozen = s.frozen := by
  unfold State.tmuSend; (repeat' (first | with_reducible rfl | (simp []; done) | (split <;> try (rename_i heq; obtain ⟨_, rfl⟩ := Prod.ext_iff.mp heq)) | refine (State.frozen_foldl _ (fun _ _ => ?_) _ _).trans ?_ | dsimp only | simp []))

@[simp] theorem State.forgetReading_frozen (s : State) (b : Nat) (serial : Nat) :
    (State.forgetReading s b serial).frozen = s.frozen := by
  simp [State.forgetReading]

@[simp] theorem State.tmuIdle_frozen (s : State) (n : Nat) :
    (State.tmuIdle s n).frozen = s.frozen := by
  simp [State.tmuIdle]

@[simp] theorem State.tmuOver_frozen (s : State) (n : Nat) (m : TmuArm) (status : Nat) (fine : Int) (events : Nat) (bits : Nat) :
    (State.tmuOver s n m status fine events bits).frozen = s.frozen := by
  unfold State.tmuOver; (repeat' (first | with_reducible rfl | (simp []; done) | (split <;> try (rename_i heq; obtain ⟨_, rfl⟩ := Prod.ext_iff.mp heq)) | refine (State.frozen_foldl _ (fun _ _ => ?_) _ _).trans ?_ | dsimp only | simp []))

@[simp] theorem State.tmuAbort_frozen (s : State) (n : Nat) (status : Nat) :
    (State.tmuAbort s n status).frozen = s.frozen := by
  unfold State.tmuAbort; (repeat' (first | with_reducible rfl | (simp []; done) | (split <;> try (rename_i heq; obtain ⟨_, rfl⟩ := Prod.ext_iff.mp heq)) | refine (State.frozen_foldl _ (fun _ _ => ?_) _ _).trans ?_ | dsimp only | simp []))

@[simp] theorem State.tmuDrop_frozen (s : State) (n : Nat) :
    (State.tmuDrop s n).frozen = s.frozen := by
  unfold State.tmuDrop; (repeat' (first | with_reducible rfl | (simp []; done) | (split <;> try (rename_i heq; obtain ⟨_, rfl⟩ := Prod.ext_iff.mp heq)) | refine (State.frozen_foldl _ (fun _ _ => ?_) _ _).trans ?_ | dsimp only | simp []))

@[simp] theorem State.tmuDropSince_frozen (s : State) (b : Nat) (serial : Nat) :
    (State.tmuDropSince s b serial).frozen = s.frozen := by
  unfold State.tmuDropSince; (repeat' (first | with_reducible rfl | (simp []; done) | (split <;> try (rename_i heq; obtain ⟨_, rfl⟩ := Prod.ext_iff.mp heq)) | refine (State.frozen_foldl _ (fun _ _ => ?_) _ _).trans ?_ | dsimp only | simp []))

@[simp] theorem State.tmuCloseSite_frozen (s : State) (b : Nat) (position : Nat) :
    (State.tmuCloseSite s b position).frozen = s.frozen := by
  unfold State.tmuCloseSite; (repeat' (first | with_reducible rfl | (simp []; done) | (split <;> try (rename_i heq; obtain ⟨_, rfl⟩ := Prod.ext_iff.mp heq)) | refine (State.frozen_foldl _ (fun _ _ => ?_) _ _).trans ?_ | dsimp only | simp []))

@[simp] theorem State.tmuBegin_frozen (s : State) (n : Nat) (m : TmuArm) :
    (State.tmuBegin s n m).frozen = s.frozen := by
  simp [State.tmuBegin]

@[simp] theorem State.tmuArm_frozen (s : State) (n : Nat) (m : TmuArm) :
    (State.tmuArm s n m).frozen = s.frozen := by
  unfold State.tmuArm; (repeat' (first | with_reducible rfl | (simp []; done) | (split <;> try (rename_i heq; obtain ⟨_, rfl⟩ := Prod.ext_iff.mp heq)) | refine (State.frozen_foldl _ (fun _ _ => ?_) _ _).trans ?_ | dsimp only | simp []))

@[simp] theorem doTmuTrigger_frozen (b : Nat) (s : State) :
    (doTmuTrigger b s).frozen = s.frozen := by
  unfold doTmuTrigger; (repeat' (first | with_reducible rfl | (simp []; done) | (split <;> try (rename_i heq; obtain ⟨_, rfl⟩ := Prod.ext_iff.mp heq)) | refine (State.frozen_foldl _ (fun _ _ => ?_) _ _).trans ?_ | dsimp only | simp []))

@[simp] theorem doTmuArm_frozen (c : Cmd) (s : State) :
    (doTmuArm c s).frozen = s.frozen := by
  simp [doTmuArm]

@[simp] theorem State.tmuEvAssert_frozen (s : State) (k : Nat) :
    (State.tmuEvAssert s k).frozen = s.frozen := by
  unfold State.tmuEvAssert; (repeat' (first | with_reducible rfl | (simp []; done) | (split <;> try (rename_i heq; obtain ⟨_, rfl⟩ := Prod.ext_iff.mp heq)) | refine (State.frozen_foldl _ (fun _ _ => ?_) _ _).trans ?_ | dsimp only | simp []))

@[simp] theorem State.tmuCloseGate_frozen (s : State) (n : Nat) (m : TmuArm) :
    (State.tmuCloseGate s n m).frozen = s.frozen := by
  simp [State.tmuCloseGate]

@[simp] theorem State.tmuEvRelease_frozen (s : State) (k : Nat) :
    (State.tmuEvRelease s k).frozen = s.frozen := by
  unfold State.tmuEvRelease; (repeat' (first | with_reducible rfl | (simp []; done) | (split <;> try (rename_i heq; obtain ⟨_, rfl⟩ := Prod.ext_iff.mp heq)) | refine (State.frozen_foldl _ (fun _ _ => ?_) _ _).trans ?_ | dsimp only | simp []))

@[simp] theorem doTmuCalibrated_frozen (n : Nat) (k1 : BitVec 16) (k2 : BitVec 16) (startIn : Bool) (stopIn : Bool) (s : State) :
    (doTmuCalibrated n k1 k2 startIn stopIn s).frozen = s.frozen := by
  unfold doTmuCalibrated; (repeat' (first | with_reducible rfl | (simp []; done) | (split <;> try (rename_i heq; obtain ⟨_, rfl⟩ := Prod.ext_iff.mp heq)) | refine (State.frozen_foldl _ (fun _ _ => ?_) _ _).trans ?_ | dsimp only | simp []))

@[simp] theorem doTmuInputSettled_frozen (n : Nat) (stop : Bool) (s : State) :
    (doTmuInputSettled n stop s).frozen = s.frozen := by
  simp [doTmuInputSettled]

@[simp] theorem TmuInput.counts_frozen (i : TmuInput) (falling : Bool) (s : State) :
    (TmuInput.counts i falling s).2.frozen = s.frozen := by
  simp [TmuInput.counts]

@[simp] theorem State.tmuCount_frozen (s : State) (n : Nat) (stop : Bool) (falling : Bool) (m : TmuArm) (e : TmuEdge) :
    (State.tmuCount s n stop falling m e).frozen = s.frozen := by
  simp [State.tmuCount]

@[simp] theorem doTmuEdge_frozen (n : Nat) (stop : Bool) (falling : Bool) (ref : BitVec 40) (code : BitVec 12) (time : BitVec 64) (s : State) :
    (doTmuEdge n stop falling ref code time s).frozen = s.frozen := by
  unfold doTmuEdge; (repeat' (first | with_reducible rfl | (simp []; done) | (split <;> try (rename_i heq; obtain ⟨_, rfl⟩ := Prod.ext_iff.mp heq)) | refine (State.frozen_foldl _ (fun _ _ => ?_) _ _).trans ?_ | dsimp only | simp []))

@[simp] theorem doTmuGateClose_frozen (n : Nat) (s : State) :
    (doTmuGateClose n s).frozen = s.frozen := by
  unfold doTmuGateClose; (repeat' (first | with_reducible rfl | (simp []; done) | (split <;> try (rename_i heq; obtain ⟨_, rfl⟩ := Prod.ext_iff.mp heq)) | refine (State.frozen_foldl _ (fun _ _ => ?_) _ _).trans ?_ | dsimp only | simp []))

@[simp] theorem doTmuTimeout_frozen (n : Nat) (s : State) :
    (doTmuTimeout n s).frozen = s.frozen := by
  unfold doTmuTimeout; (repeat' (first | with_reducible rfl | (simp []; done) | (split <;> try (rename_i heq; obtain ⟨_, rfl⟩ := Prod.ext_iff.mp heq)) | refine (State.frozen_foldl _ (fun _ _ => ?_) _ _).trans ?_ | dsimp only | simp []))

@[simp] theorem State.tmuTrain_frozen (s : State) (n : Nat) (m : TmuArm) :
    (State.tmuTrain s n m).frozen = s.frozen := by
  unfold State.tmuTrain; (repeat' (first | with_reducible rfl | (simp []; done) | (split <;> try (rename_i heq; obtain ⟨_, rfl⟩ := Prod.ext_iff.mp heq)) | refine (State.frozen_foldl _ (fun _ _ => ?_) _ _).trans ?_ | dsimp only | simp []))

@[simp] theorem doTmuResult_frozen (n : Nat) (s : State) :
    (doTmuResult n s).frozen = s.frozen := by
  unfold doTmuResult; (repeat' (first | with_reducible rfl | (simp []; done) | (split <;> try (rename_i heq; obtain ⟨_, rfl⟩ := Prod.ext_iff.mp heq)) | refine (State.frozen_foldl _ (fun _ _ => ?_) _ _).trans ?_ | dsimp only | simp []))

end Sys2Proof.Machine
end

