-- ==== Sys2Proof/Laws/Frozen/Awg.lean ====
section
/-! SUPPORT. What the operations of Sys2Proof/Machine/Awg.lean leave alone: the queue, the fuses in effect, the reset lines,
the reference, the test access port and the count of hot resets. -/

namespace Sys2Proof.Machine

open Sys2Proof

set_option linter.unusedTactic false
set_option linter.unreachableTactic false
set_option linter.unusedSimpArgs false

@[simp] theorem State.modAwg_frozen (s : State) (c : Nat) (f : Awg → Awg) :
    (State.modAwg s c f).frozen = s.frozen := by
  simp [State.modAwg]

@[simp] theorem State.showShared_frozen (s : State) (c : Nat) :
    (State.showShared s c).frozen = s.frozen := by
  simp [State.showShared]

@[simp] theorem State.applyAwg_frozen (s : State) (c : Nat) :
    (State.applyAwg s c).frozen = s.frozen := by
  simp [State.applyAwg]

@[simp] theorem State.awgWritten_frozen (s : State) (c : Nat) :
    (State.awgWritten s c).frozen = s.frozen := by
  simp [State.awgWritten]

@[simp] theorem State.takeAwg_frozen (s : State) (c : Nat) :
    (State.takeAwg s c).frozen = s.frozen := by
  simp [State.takeAwg]

@[simp] theorem State.awgRelease_frozen (s : State) (c : Nat) :
    (State.awgRelease s c).frozen = s.frozen := by
  simp [State.awgRelease]

@[simp] theorem State.awgGap_frozen (s : State) (c : Nat) (cause : Nat) (status : Nat) (first : Nat) (len : Nat) :
    (State.awgGap s c cause status first len).frozen = s.frozen := by
  simp [State.awgGap]

@[simp] theorem State.awgPass_frozen (s : State) (c : Nat) (k : Nat) :
    (State.awgPass s c k).frozen = s.frozen := by
  simp [State.awgPass]

@[simp] theorem State.awgIdle_frozen (s : State) (c : Nat) (k : Nat) :
    (State.awgIdle s c k).frozen = s.frozen := by
  simp [State.awgIdle]

@[simp] theorem State.awgCloseGap_frozen (s : State) (c : Nat) (cut : Bool) :
    (State.awgCloseGap s c cut).frozen = s.frozen := by
  unfold State.awgCloseGap; (repeat' (first | with_reducible rfl | (simp []; done) | (split <;> try (rename_i heq; obtain ⟨_, rfl⟩ := Prod.ext_iff.mp heq)) | refine (State.frozen_foldl _ (fun _ _ => ?_) _ _).trans ?_ | dsimp only | simp []))

@[simp] theorem State.awgAnswer_frozen (s : State) (r : AwgReq) (st : Nat) (n : Nat) (entry : Nat) :
    (State.awgAnswer s r st n entry).frozen = s.frozen := by
  unfold State.awgAnswer; (repeat' (first | with_reducible rfl | (simp []; done) | (split <;> try (rename_i heq; obtain ⟨_, rfl⟩ := Prod.ext_iff.mp heq)) | refine (State.frozen_foldl _ (fun _ _ => ?_) _ _).trans ?_ | dsimp only | simp []))

@[simp] theorem State.awgStop_frozen (s : State) (c : Nat) (cut : Bool) :
    (State.awgStop s c cut).frozen = s.frozen := by
  unfold State.awgStop
  extract_lets a reqs s1
  have h1 : s1.frozen = s.frozen :=
    (State.frozen_foldl _ (fun _ _ => State.awgAnswer_frozen _ _ _ _ _) _ _).trans (State.awgCloseGap_frozen _ _ _)
  clear_value s1
  simp [h1]

@[simp] theorem State.awgHalt_frozen (s : State) (c : Nat) (cut : Bool) :
    (State.awgHalt s c cut).frozen = s.frozen := by
  unfold State.awgHalt; (repeat' (first | with_reducible rfl | (simp []; done) | (split <;> try (rename_i heq; obtain ⟨_, rfl⟩ := Prod.ext_iff.mp heq)) | refine (State.frozen_foldl _ (fun _ _ => ?_) _ _).trans ?_ | dsimp only | simp []))

@[simp] theorem State.awgReset_frozen (s : State) (c : Nat) :
    (State.awgReset s c).frozen = s.frozen := by
  simp [State.awgReset]

@[simp] theorem State.awgProgramEnd_frozen (s : State) (b : Nat) :
    (State.awgProgramEnd s b).frozen = s.frozen := by
  simp [State.awgProgramEnd]

@[simp] theorem State.awgMalformed_frozen (s : State) (c : Nat) :
    (State.awgMalformed s c).frozen = s.frozen := by
  simp [State.awgMalformed]

@[simp] theorem State.awgFault_frozen (s : State) (c : Nat) (status : Nat) :
    (State.awgFault s c status).frozen = s.frozen := by
  simp [State.awgFault]

@[simp] theorem State.awgMarker_frozen (s : State) (c : Nat) (n : Nat) (t : Nat) :
    (State.awgMarker s c n t).frozen = s.frozen := by
  simp [State.awgMarker]

@[simp] theorem State.awgFire_frozen (s : State) (c : Nat) :
    (State.awgFire s c).frozen = s.frozen := by
  simp [State.awgFire]

@[simp] theorem State.awgPlayKnown_frozen (s : State) (c : Nat) :
    (State.awgPlayKnown s c).frozen = s.frozen := by
  unfold State.awgPlayKnown; (repeat' (first | with_reducible rfl | (simp []; done) | (split <;> try (rename_i heq; obtain ⟨_, rfl⟩ := Prod.ext_iff.mp heq)) | refine (State.frozen_foldl _ (fun _ _ => ?_) _ _).trans ?_ | dsimp only | simp []))

@[simp] theorem State.awgPlay_frozen (s : State) (c : Nat) (n : Nat) (play : Nat) (p : AwgPlay) :
    (State.awgPlay s c n play p).frozen = s.frozen := by
  simp [State.awgPlay]

@[simp] theorem doAwgBoundary_frozen (c : Nat) (s : State) :
    (doAwgBoundary c s).frozen = s.frozen := by
  unfold doAwgBoundary; (repeat' (first | with_reducible rfl | (simp []; done) | (split <;> try (rename_i heq; obtain ⟨_, rfl⟩ := Prod.ext_iff.mp heq)) | refine (State.frozen_foldl _ (fun _ _ => ?_) _ _).trans ?_ | dsimp only | simp []))

@[simp] theorem State.awgNs_frozen (s : State) (c : Nat) :
    (State.awgNs s c).frozen = s.frozen := by
  simp [State.awgNs]

@[simp] theorem State.awgsNs_frozen (s : State) :
    (State.awgsNs s).frozen = s.frozen := by
  simp [State.awgsNs]

@[simp] theorem State.awgBegin_frozen (s : State) (c : Nat) (at' : Nat) (program : Option Nat) :
    (State.awgBegin s c at' program).frozen = s.frozen := by
  simp [State.awgBegin]

@[simp] theorem State.awgControl_frozen (s : State) (b : Nat) (code : Nat) (f : State → Nat → Nat → State) (hf : ∀ x0 x1 x2, (f x0 x1 x2).frozen = State.frozen x0) :
    (State.awgControl s b code f).frozen = s.frozen := by
  unfold State.awgControl; (repeat' (first | with_reducible rfl | (simp [hf]; done) | (split <;> try (rename_i heq; obtain ⟨_, rfl⟩ := Prod.ext_iff.mp heq)) | refine (State.frozen_foldl _ (fun _ _ => ?_) _ _).trans ?_ | dsimp only | simp [hf]))

@[simp] theorem doAwgStart_frozen (b : Nat) (s : State) :
    (doAwgStart b s).frozen = s.frozen := by
  simp [doAwgStart]

@[simp] theorem State.awgRegister_frozen (s : State) (c : Nat) (n : Nat) (r : AwgReq) :
    (State.awgRegister s c n r).frozen = s.frozen := by
  unfold State.awgRegister; (repeat' (first | with_reducible rfl | (simp []; done) | (split <;> try (rename_i heq; obtain ⟨_, rfl⟩ := Prod.ext_iff.mp heq)) | refine (State.frozen_foldl _ (fun _ _ => ?_) _ _).trans ?_ | dsimp only | simp []))

@[simp] theorem State.awgAsk_frozen (s : State) (c : Nat) (r : AwgReq) :
    (State.awgAsk s c r).frozen = s.frozen := by
  simp [State.awgAsk]

@[simp] theorem doAwgStop_frozen (b : Nat) (s : State) :
    (doAwgStop b s).frozen = s.frozen := by
  simp [doAwgStop]

@[simp] theorem doAwgJump_frozen (b : Nat) (s : State) :
    (doAwgJump b s).frozen = s.frozen := by
  simp [doAwgJump]

@[simp] theorem doAwgRegister_frozen (c : Nat) (n : Nat) (s : State) :
    (doAwgRegister c n s).frozen = s.frozen := by
  unfold doAwgRegister; (repeat' (first | with_reducible rfl | (simp []; done) | (split <;> try (rename_i heq; obtain ⟨_, rfl⟩ := Prod.ext_iff.mp heq)) | refine (State.frozen_foldl _ (fun _ _ => ?_) _ _).trans ?_ | dsimp only | simp []))

@[simp] theorem State.awgResume_frozen (s : State) (c : Nat) :
    (State.awgResume s c).frozen = s.frozen := by
  unfold State.awgResume; (repeat' (first | with_reducible rfl | (simp []; done) | (split <;> try (rename_i heq; obtain ⟨_, rfl⟩ := Prod.ext_iff.mp heq)) | refine (State.frozen_foldl _ (fun _ _ => ?_) _ _).trans ?_ | dsimp only | simp []))

@[simp] theorem State.awgFetchEntry_frozen (s : State) (c : Nat) (w : AwgPart) (x : Nat × Nat) :
    (State.awgFetchEntry s c w x).frozen = s.frozen := by
  unfold State.awgFetchEntry; (repeat' (first | with_reducible rfl | (simp []; done) | (split <;> try (rename_i heq; obtain ⟨_, rfl⟩ := Prod.ext_iff.mp heq)) | refine (State.frozen_foldl _ (fun _ _ => ?_) _ _).trans ?_ | dsimp only | simp []))

@[simp] theorem State.awgFetchBlock_frozen (s : State) (c : Nat) (k : Nat) (w : AwgPart) (x : Nat × Nat) :
    (State.awgFetchBlock s c k w x).frozen = s.frozen := by
  unfold State.awgFetchBlock; (repeat' (first | with_reducible rfl | (simp []; done) | (split <;> try (rename_i heq; obtain ⟨_, rfl⟩ := Prod.ext_iff.mp heq)) | refine (State.frozen_foldl _ (fun _ _ => ?_) _ _).trans ?_ | dsimp only | simp []))

@[simp] theorem doAwgFetchDone_frozen (c : Nat) (what : AwgFetch) (s : State) :
    (doAwgFetchDone c what s).frozen = s.frozen := by
  unfold doAwgFetchDone; (repeat' (first | with_reducible rfl | refine State.awgReadBlock_frozen _ _ _ _ _ _ (fun _ _ _ => ?_) | (simp []; done) | (split <;> try (rename_i heq; obtain ⟨_, rfl⟩ := Prod.ext_iff.mp heq)) | refine (State.frozen_foldl _ (fun _ _ => ?_) _ _).trans ?_ | dsimp only | simp []))

@[simp] theorem doAwgUnderrun_frozen (c : Nat) (s : State) :
    (doAwgUnderrun c s).frozen = s.frozen := by
  simp [doAwgUnderrun]

@[simp] theorem State.awgRun_frozen (s : State) (c : Cmd) (bad : Bool) (k : Nat → State → State) (hk : ∀ x0 x1, (k x0 x1).frozen = State.frozen x1) :
    (State.awgRun s c bad k).frozen = s.frozen := by
  simp [State.awgRun, hk]

@[simp] theorem doAwgRunStart_frozen (c : Cmd) (s : State) :
    (doAwgRunStart c s).frozen = s.frozen := by
  simp [doAwgRunStart]

@[simp] theorem doAwgRunStop_frozen (c : Cmd) (s : State) :
    (doAwgRunStop c s).frozen = s.frozen := by
  simp [doAwgRunStop]

@[simp] theorem doAwgRunJump_frozen (c : Cmd) (s : State) :
    (doAwgRunJump c s).frozen = s.frozen := by
  simp [doAwgRunJump]

@[simp] theorem doAwgTimedStart_frozen (c : Nat) (s : State) :
    (doAwgTimedStart c s).frozen = s.frozen := by
  unfold doAwgTimedStart; (repeat' (first | with_reducible rfl | (simp []; done) | (split <;> try (rename_i heq; obtain ⟨_, rfl⟩ := Prod.ext_iff.mp heq)) | refine (State.frozen_foldl _ (fun _ _ => ?_) _ _).trans ?_ | dsimp only | simp []))

end Sys2Proof.Machine
end

