-- ==== Sys2Proof/Laws/Frozen/Acq.lean ====
section
/-! SUPPORT. What the operations of Sys2Proof/Machine/Acq.lean leave alone: the queue, the fuses in effect, the reset lines,
the reference, the test access port and the count of hot resets. -/

namespace Sys2Proof.Machine

open Sys2Proof

set_option linter.unusedTactic false
set_option linter.unreachableTactic false
set_option linter.unusedSimpArgs false

@[simp] theorem State.modDg_frozen (s : State) (c : Nat) (f : Dg → Dg) :
    (State.modDg s c f).frozen = s.frozen := by
  simp [State.modDg]

@[simp] theorem State.showDgCal_frozen (s : State) (c : Nat) :
    (State.showDgCal s c).frozen = s.frozen := by
  simp [State.showDgCal]

@[simp] theorem State.applyDg_frozen (s : State) (c : Nat) :
    (State.applyDg s c).frozen = s.frozen := by
  simp [State.applyDg]

@[simp] theorem State.dgWritten_frozen (s : State) (c : Nat) (ring : Bool) :
    (State.dgWritten s c ring).frozen = s.frozen := by
  simp [State.dgWritten]

@[simp] theorem State.takeDg_frozen (s : State) (c : Nat) :
    (State.takeDg s c).frozen = s.frozen := by
  simp [State.takeDg]

@[simp] theorem State.dgRelease_frozen (s : State) (c : Nat) :
    (State.dgRelease s c).frozen = s.frozen := by
  simp [State.dgRelease]

@[simp] theorem State.showSlopes_frozen (s : State) (c : Nat) :
    (State.showSlopes s c).frozen = s.frozen := by
  simp [State.showSlopes]

@[simp] theorem State.acqRecord_frozen (s : State) (c : Nat) (m : DgArm) (r : Nat) (typ : Nat) (status : Nat) (cellTime : Nat) (suspect : Bool) (body : List Byte) :
    (State.acqRecord s c m r typ status cellTime suspect body).frozen = s.frozen := by
  simp [State.acqRecord]

@[simp] theorem State.dgCloseExtent_frozen (s : State) (c : Nat) (m : DgArm) (status : Nat) :
    (State.dgCloseExtent s c m status).frozen = s.frozen := by
  unfold State.dgCloseExtent; (repeat' (first | with_reducible rfl | (simp []; done) | (split <;> try (rename_i heq; obtain ⟨_, rfl⟩ := Prod.ext_iff.mp heq)) | refine (State.frozen_foldl _ (fun _ _ => ?_) _ _).trans ?_ | dsimp only | simp []))

@[simp] theorem State.dgGapRecord_frozen (s : State) (c : Nat) (m : DgArm) (start : Nat) (r : Nat) (cause : Nat) (status : Nat) (first : Nat) (len : Nat) (flags : Nat) :
    (State.dgGapRecord s c m start r cause status first len flags).frozen = s.frozen := by
  simp [State.dgGapRecord]

@[simp] theorem State.dgCloseGap_frozen (s : State) (c : Nat) (m : DgArm) :
    (State.dgCloseGap s c m).frozen = s.frozen := by
  unfold State.dgCloseGap; (repeat' (first | with_reducible rfl | (simp []; done) | (split <;> try (rename_i heq; obtain ⟨_, rfl⟩ := Prod.ext_iff.mp heq)) | refine (State.frozen_foldl _ (fun _ _ => ?_) _ _).trans ?_ | dsimp only | simp []))

@[simp] theorem State.dgDeliver_frozen (s : State) (c : Nat) (m : DgArm) (r : Nat) (status : Nat) (value : Int) (flags : Nat) (cellTime : Nat) (feeds : Bool) :
    (State.dgDeliver s c m r status value flags cellTime feeds).frozen = s.frozen := by
  unfold State.dgDeliver; (repeat' (first | with_reducible rfl | (simp []; done) | (split <;> try (rename_i heq; obtain ⟨_, rfl⟩ := Prod.ext_iff.mp heq)) | refine (State.frozen_foldl _ (fun _ _ => ?_) _ _).trans ?_ | dsimp only | simp []))

@[simp] theorem State.dgIdle_frozen (s : State) (c : Nat) :
    (State.dgIdle s c).frozen = s.frozen := by
  simp [State.dgIdle]

@[simp] theorem State.dgOver_frozen (s : State) (c : Nat) (m : DgArm) (override : Option Nat) :
    (State.dgOver s c m override).frozen = s.frozen := by
  unfold State.dgOver; (repeat' (first | with_reducible rfl | (simp []; done) | (split <;> try (rename_i heq; obtain ⟨_, rfl⟩ := Prod.ext_iff.mp heq)) | refine (State.frozen_foldl _ (fun _ _ => ?_) _ _).trans ?_ | dsimp only | simp []))

@[simp] theorem dgLoseQueue_frozen (v0 : Nat) (v1 : Nat) (v2 : Nat) (s : State) :
    (dgLoseQueue v0 v1 v2 s).frozen = s.frozen := by
  induction v0 generalizing v1 v2 s <;> unfold dgLoseQueue <;> (repeat' (first | with_reducible rfl | (simp [*]; done) | (split <;> try (rename_i heq; obtain ⟨_, rfl⟩ := Prod.ext_iff.mp heq)) | refine (State.frozen_foldl _ (fun _ _ => ?_) _ _).trans ?_ | dsimp only | simp []))

@[simp] theorem State.dgFault_frozen (s : State) (c : Nat) (status : Nat) :
    (State.dgFault s c status).frozen = s.frozen := by
  unfold State.dgFault; (repeat' (first | with_reducible rfl | (simp []; done) | (split <;> try (rename_i heq; obtain ⟨_, rfl⟩ := Prod.ext_iff.mp heq)) | refine (State.frozen_foldl _ (fun _ _ => ?_) _ _).trans ?_ | dsimp only | simp []))

@[simp] theorem dgDrainWords_frozen (v0 : Nat) (v1 : Nat) (s : State) :
    (dgDrainWords v0 v1 s).frozen = s.frozen := by
  induction v0 generalizing v1 s <;> unfold dgDrainWords <;> (repeat' (first | with_reducible rfl | (simp [*]; done) | (split <;> try (rename_i heq; obtain ⟨_, rfl⟩ := Prod.ext_iff.mp heq)) | refine (State.frozen_foldl _ (fun _ _ => ?_) _ _).trans ?_ | dsimp only | simp []))

@[simp] theorem State.dgDrain_frozen (s : State) (c : Nat) :
    (State.dgDrain s c).frozen = s.frozen := by
  simp [State.dgDrain]

@[simp] theorem State.dgStore_frozen (s : State) (c : Nat) (m : DgArm) (iv : DgInterval) :
    (State.dgStore s c m iv).frozen = s.frozen := by
  simp [State.dgStore]

@[simp] theorem State.dgTake_frozen (s : State) (c : Nat) (m : DgArm) (iv : DgInterval) :
    (State.dgTake s c m iv).frozen = s.frozen := by
  simp [State.dgTake]

@[simp] theorem State.dgCloseRecord_frozen (s : State) (c : Nat) (m : DgArm) (acc : DgAcc) :
    (State.dgCloseRecord s c m acc).frozen = s.frozen := by
  simp [State.dgCloseRecord]

@[simp] theorem State.dgMissed_frozen (s : State) (c : Nat) :
    (State.dgMissed s c).frozen = s.frozen := by
  simp [State.dgMissed]

@[simp] theorem doTriggerFire_frozen (c : Nat) (s : State) :
    (doTriggerFire c s).frozen = s.frozen := by
  unfold doTriggerFire; (repeat' (first | with_reducible rfl | (simp []; done) | (split <;> try (rename_i heq; obtain ⟨_, rfl⟩ := Prod.ext_iff.mp heq)) | refine (State.frozen_foldl _ (fun _ _ => ?_) _ _).trans ?_ | dsimp only | simp []))

@[simp] theorem doPostCaptureEnd_frozen (c : Nat) (s : State) :
    (doPostCaptureEnd c s).frozen = s.frozen := by
  unfold doPostCaptureEnd; (repeat' (first | with_reducible rfl | (simp []; done) | (split <;> try (rename_i heq; obtain ⟨_, rfl⟩ := Prod.ext_iff.mp heq)) | refine (State.frozen_foldl _ (fun _ _ => ?_) _ _).trans ?_ | dsimp only | simp []))

@[simp] theorem State.dgEnd_frozen (s : State) (c : Nat) :
    (State.dgEnd s c).frozen = s.frozen := by
  unfold State.dgEnd; (repeat' (first | with_reducible rfl | (simp []; done) | (split <;> try (rename_i heq; obtain ⟨_, rfl⟩ := Prod.ext_iff.mp heq)) | refine (State.frozen_foldl _ (fun _ _ => ?_) _ _).trans ?_ | dsimp only | simp []))

@[simp] theorem doRearmEnd_frozen (c : Nat) (s : State) :
    (doRearmEnd c s).frozen = s.frozen := by
  simp [doRearmEnd]

@[simp] theorem State.dgCatchUp_frozen (s : State) (c : Nat) :
    (State.dgCatchUp s c).frozen = s.frozen := by
  simp [State.dgCatchUp]

@[simp] theorem State.dgConvert_frozen (s : State) (c : Nat) (code : Int) :
    (State.dgConvert s c code).frozen = s.frozen := by
  simp [State.dgConvert]

@[simp] theorem State.dgEvaluate_frozen (s : State) (c : Nat) (code : Int) :
    (State.dgEvaluate s c code).frozen = s.frozen := by
  unfold State.dgEvaluate; (repeat' (first | with_reducible rfl | (simp []; done) | (split <;> try (rename_i heq; obtain ⟨_, rfl⟩ := Prod.ext_iff.mp heq)) | refine (State.frozen_foldl _ (fun _ _ => ?_) _ _).trans ?_ | dsimp only | simp []))

@[simp] theorem doDgSample_frozen (g : Nat) (codes : List Int) (s : State) :
    (doDgSample g codes s).frozen = s.frozen := by
  unfold doDgSample; (repeat' (first | with_reducible rfl | (simp []; done) | (split <;> try (rename_i heq; obtain ⟨_, rfl⟩ := Prod.ext_iff.mp heq)) | refine (State.frozen_foldl _ (fun _ _ => ?_) _ _).trans ?_ | dsimp only | simp []))

@[simp] theorem doAcqTimeout_frozen (c : Nat) (s : State) :
    (doAcqTimeout c s).frozen = s.frozen := by
  simp [doAcqTimeout]

@[simp] theorem State.dgAbort_frozen (s : State) (c : Nat) (status : Nat) :
    (State.dgAbort s c status).frozen = s.frozen := by
  unfold State.dgAbort; (repeat' (first | with_reducible rfl | (simp []; done) | (split <;> try (rename_i heq; obtain ⟨_, rfl⟩ := Prod.ext_iff.mp heq)) | refine (State.frozen_foldl _ (fun _ _ => ?_) _ _).trans ?_ | dsimp only | simp []))

@[simp] theorem State.dgDrop_frozen (s : State) (c : Nat) :
    (State.dgDrop s c).frozen = s.frozen := by
  unfold State.dgDrop; (repeat' (first | with_reducible rfl | (simp []; done) | (split <;> try (rename_i heq; obtain ⟨_, rfl⟩ := Prod.ext_iff.mp heq)) | refine (State.frozen_foldl _ (fun _ _ => ?_) _ _).trans ?_ | dsimp only | simp []))

@[simp] theorem State.dgDropSince_frozen (s : State) (b : Nat) (serial : Nat) :
    (State.dgDropSince s b serial).frozen = s.frozen := by
  unfold State.dgDropSince; (repeat' (first | with_reducible rfl | (simp []; done) | (split <;> try (rename_i heq; obtain ⟨_, rfl⟩ := Prod.ext_iff.mp heq)) | refine (State.frozen_foldl _ (fun _ _ => ?_) _ _).trans ?_ | dsimp only | simp []))

@[simp] theorem State.dgCloseSite_frozen (s : State) (b : Nat) (position : Nat) :
    (State.dgCloseSite s b position).frozen = s.frozen := by
  unfold State.dgCloseSite; (repeat' (first | with_reducible rfl | (simp []; done) | (split <;> try (rename_i heq; obtain ⟨_, rfl⟩ := Prod.ext_iff.mp heq)) | refine (State.frozen_foldl _ (fun _ _ => ?_) _ _).trans ?_ | dsimp only | simp []))

@[simp] theorem State.dgArm_frozen (s : State) (c : Nat) (m : DgArm) :
    (State.dgArm s c m).frozen = s.frozen := by
  unfold State.dgArm; (repeat' (first | with_reducible rfl | (simp []; done) | (split <;> try (rename_i heq; obtain ⟨_, rfl⟩ := Prod.ext_iff.mp heq)) | refine (State.frozen_foldl _ (fun _ _ => ?_) _ _).trans ?_ | dsimp only | simp []))

@[simp] theorem doDigitizerTrigger_frozen (b : Nat) (s : State) :
    (doDigitizerTrigger b s).frozen = s.frozen := by
  unfold doDigitizerTrigger; (repeat' (first | with_reducible rfl | (simp []; done) | (split <;> try (rename_i heq; obtain ⟨_, rfl⟩ := Prod.ext_iff.mp heq)) | refine (State.frozen_foldl _ (fun _ _ => ?_) _ _).trans ?_ | dsimp only | simp []))

@[simp] theorem State.acqCtrl_frozen (s : State) (c : Cmd) (bad : Bool) (k : Nat → State → State) (hk : ∀ x0 x1, (k x0 x1).frozen = State.frozen x1) :
    (State.acqCtrl s c bad k).frozen = s.frozen := by
  simp [State.acqCtrl, hk]

@[simp] theorem doAcqArm_frozen (c : Cmd) (s : State) :
    (doAcqArm c s).frozen = s.frozen := by
  simp [doAcqArm]

@[simp] theorem doAcqForce_frozen (c : Cmd) (s : State) :
    (doAcqForce c s).frozen = s.frozen := by
  simp [doAcqForce]

@[simp] theorem doAcqStop_frozen (c : Cmd) (s : State) :
    (doAcqStop c s).frozen = s.frozen := by
  simp [doAcqStop]

@[simp] theorem doAcqRelease_frozen (c : Cmd) (s : State) :
    (doAcqRelease c s).frozen = s.frozen := by
  simp [doAcqRelease]

end Sys2Proof.Machine
end

