-- ==== Sys2Proof/Laws/Frozen/Store.lean ====
section
/-! SUPPORT. What the operations of Sys2Proof/Machine/Store.lean leave alone: the queue, the fuses in effect, the reset lines,
the reference, the test access port and the count of hot resets. -/

namespace Sys2Proof.Machine

open Sys2Proof

set_option linter.unusedTactic false
set_option linter.unreachableTactic false
set_option linter.unusedSimpArgs false

@[simp] theorem State.flashFrame_frozen (s : State) (f : FlashFrame) :
    (State.flashFrame s f).frozen = s.frozen := by
  simp [State.flashFrame]

@[simp] theorem State.flashFallback_frozen (s : State) :
    (State.flashFallback s).frozen = s.frozen := by
  simp [State.flashFallback]

@[simp] theorem State.useDirectory_frozen (s : State) (d : List Byte) (second : Bool) :
    (State.useDirectory s d second).frozen = s.frozen := by
  simp [State.useDirectory]

@[simp] theorem State.endContinuous_frozen (s : State) :
    (State.endContinuous s).frozen = s.frozen := by
  unfold State.endContinuous; (repeat' (first | with_reducible rfl | (simp []; done) | (split <;> try (rename_i heq; obtain ⟨_, rfl⟩ := Prod.ext_iff.mp heq)) | refine (State.frozen_foldl _ (fun _ _ => ?_) _ _).trans ?_ | dsimp only | simp []))

@[simp] theorem State.readyToProgram_frozen (s : State) :
    (State.readyToProgram s).frozen = s.frozen := by
  simp [State.readyToProgram]

@[simp] theorem State.startRead_frozen (s : State) (line : Nat) :
    (State.startRead s line).frozen = s.frozen := by
  unfold State.startRead; (repeat' split) <;> simp []

@[simp] theorem doFlashFetch_frozen (line : Nat) (s : State) :
    (doFlashFetch line s).frozen = s.frozen := by
  simp [doFlashFetch]

@[simp] theorem doFlashReadDone_frozen (s : State) :
    (doFlashReadDone s).frozen = s.frozen := by
  unfold doFlashReadDone; dsimp only; (repeat' split) <;> simp []

@[simp] theorem doDqsTimeout_frozen (s : State) :
    (doDqsTimeout s).frozen = s.frozen := by
  unfold doDqsTimeout; (repeat' split) <;> simp []

@[simp] theorem State.storeFails_frozen (s : State) (asks : List StoreAsk) :
    (State.storeFails s asks).frozen = s.frozen := by
  simp [State.storeFails]

@[simp] theorem State.startJob_frozen (v0 : Nat) (s : State) :
    (State.startJob v0 s).frozen = s.frozen := by
  induction v0 generalizing s <;> unfold State.startJob <;> (repeat' (first | with_reducible rfl | (simp [*]; done) | (split <;> try (rename_i heq; obtain ⟨_, rfl⟩ := Prod.ext_iff.mp heq)) | refine (State.frozen_foldl _ (fun _ _ => ?_) _ _).trans ?_ | dsimp only | simp []))

@[simp] theorem State.requestStore_frozen (s : State) (ask : Option StoreAsk) :
    (State.requestStore s ask).frozen = s.frozen := by
  simp [State.requestStore]

@[simp] theorem doStoreWrite_frozen (s : State) :
    (doStoreWrite s).frozen = s.frozen := by
  simp [doStoreWrite]

end Sys2Proof.Machine
end

