-- ==== Sys2Proof/Laws/Frozen/Cal.lean ====
section
/-! SUPPORT. What the operations of Sys2Proof/Machine/Cal.lean leave alone: the queue, the fuses in effect, the reset lines,
the reference, the test access port and the count of hot resets. -/

namespace Sys2Proof.Machine

open Sys2Proof

set_option linter.unusedTactic false
set_option linter.unreachableTactic false
set_option linter.unusedSimpArgs false

@[simp] theorem State.setBase_frozen (s : State) (kind : Nat) (unit : Nat) (i : Nat) (w : Nat) :
    (State.setBase s kind unit i w).frozen = s.frozen := by
  simp [State.setBase]

@[simp] theorem State.setTarget_frozen (s : State) (kind : Nat) (unit : Nat) (i : Nat) (w : Nat) :
    (State.setTarget s kind unit i w).frozen = s.frozen := by
  simp [State.setTarget]

@[simp] theorem State.setRecord_frozen (s : State) (kind : Nat) (unit : Nat) (is : List Nat) (ws : List Nat) :
    (State.setRecord s kind unit is ws).frozen = s.frozen := by
  simp [State.setRecord]

@[simp] theorem State.showConstants_frozen (s : State) (kind : Nat) (unit : Nat) :
    (State.showConstants s kind unit).frozen = s.frozen := by
  unfold State.showConstants; (repeat' (first | with_reducible rfl | (simp []; done) | (split <;> try (rename_i heq; obtain ⟨_, rfl⟩ := Prod.ext_iff.mp heq)) | refine (State.frozen_foldl _ (fun _ _ => ?_) _ _).trans ?_ | dsimp only | simp []))

@[simp] theorem State.setWork_frozen (s : State) (kind : Nat) (unit : Nat) (ws : List (Nat × Nat)) :
    (State.setWork s kind unit ws).frozen = s.frozen := by
  simp [State.setWork]

@[simp] theorem State.showPending_frozen (s : State) (c : Nat) :
    (State.showPending s c).frozen = s.frozen := by
  simp [State.showPending]

@[simp] theorem doCalenderStep_frozen (kind : Nat) (unit : Nat) (j : Nat) (s : State) :
    (doCalenderStep kind unit j s).frozen = s.frozen := by
  unfold doCalenderStep; (repeat' (first | with_reducible rfl | (simp []; done) | (split <;> try (rename_i heq; obtain ⟨_, rfl⟩ := Prod.ext_iff.mp heq)) | refine (State.frozen_foldl _ (fun _ _ => ?_) _ _).trans ?_ | dsimp only | simp []))

@[simp] theorem State.applyTargets_frozen (s : State) (c : Nat) :
    (State.applyTargets s c).frozen = s.frozen := by
  simp [State.applyTargets]

@[simp] theorem State.setQuality_frozen (s : State) (c : Nat) (q : Nat) :
    (State.setQuality s c q).frozen = s.frozen := by
  simp [State.setQuality]

@[simp] theorem State.takeRefs_frozen (s : State) (kind : Nat) (c : Nat) (ws : List (Nat × Nat)) :
    (State.takeRefs s kind c ws).frozen = s.frozen := by
  simp [State.takeRefs]

@[simp] theorem State.setTargets_frozen (s : State) (c : Nat) (m : Tracking) :
    (State.setTargets s c m).frozen = s.frozen := by
  simp [State.setTargets]

@[simp] theorem State.trackCycle_frozen (s : State) (c : Nat) (m : Tracking) :
    (State.trackCycle s c m).frozen = s.frozen := by
  simp [State.trackCycle]

@[simp] theorem doTrackingCycle_frozen (c : Nat) (m : Tracking) (s : State) :
    (doTrackingCycle c m s).frozen = s.frozen := by
  simp [doTrackingCycle]

@[simp] theorem doCalStale_frozen (c : Nat) (s : State) :
    (doCalStale c s).frozen = s.frozen := by
  simp [doCalStale]

@[simp] theorem State.calCtrlWritten_frozen (s : State) (c : Nat) :
    (State.calCtrlWritten s c).frozen = s.frozen := by
  simp [State.calCtrlWritten]

@[simp] theorem State.calibrate_frozen (s : State) (kind : Nat) (unit : Nat) (is : List Nat) (ws : List Nat) :
    (State.calibrate s kind unit is ws).frozen = s.frozen := by
  simp [State.calibrate]

@[simp] theorem State.stampCal_frozen (s : State) (dirty : Bool) :
    (State.stampCal s dirty).frozen = s.frozen := by
  simp [State.stampCal]

@[simp] theorem State.calKind_frozen (s : State) (r : CalRun) (k : Nat) :
    (State.calKind s r k).2.frozen = s.frozen := by
  simp [State.calKind]

@[simp] theorem State.askHold_frozen (s : State) (c : Nat) (want : Bool) :
    (State.askHold s c want).frozen = s.frozen := by
  simp [State.askHold]

@[simp] theorem State.showCalActive_frozen (s : State) (c : Nat) :
    (State.showCalActive s c).frozen = s.frozen := by
  simp [State.showCalActive]

@[simp] theorem State.markLevel2_frozen (s : State) (c : Nat) (on : Bool) :
    (State.markLevel2 s c on).frozen = s.frozen := by
  simp [State.markLevel2]

@[simp] theorem State.endCalRun_frozen (s : State) (r : CalRun) (st : Nat) :
    (State.endCalRun s r st).frozen = s.frozen := by
  simp [State.endCalRun]

@[simp] theorem State.goCalRun_frozen (v0 : Nat) (v1 : CalRun) (s : State) :
    (State.goCalRun v0 v1 s).frozen = s.frozen := by
  induction v0 generalizing v1 s <;> unfold State.goCalRun <;> (repeat' (first | with_reducible rfl | (simp [*]; done) | (split <;> try (rename_i heq; obtain ⟨_, rfl⟩ := Prod.ext_iff.mp heq)) | refine (State.frozen_foldl _ (fun _ _ => ?_) _ _).trans ?_ | dsimp only | simp []))

@[simp] theorem State.applyLoad_frozen (s : State) (x : CalLoad) :
    (State.applyLoad s x).frozen = s.frozen := by
  simp [State.applyLoad]

@[simp] theorem State.goCals_frozen (s : State) :
    (State.goCals s).frozen = s.frozen := by
  simp [State.goCals]

@[simp] theorem State.beginCalRun_frozen (s : State) (r : CalRun) :
    (State.beginCalRun s r).frozen = s.frozen := by
  simp [State.beginCalRun]

@[simp] theorem State.keepCalRun_frozen (s : State) (m : CalOutcome) (c : Cmd) :
    (State.keepCalRun s m c).frozen = s.frozen := by
  simp [State.keepCalRun]

@[simp] theorem doCalRun_frozen (c : Cmd) (s : State) :
    (doCalRun c s).frozen = s.frozen := by
  simp [doCalRun]

@[simp] theorem doCalRunTimeLimit_frozen (c : Nat) (s : State) :
    (doCalRunTimeLimit c s).frozen = s.frozen := by
  unfold doCalRunTimeLimit; (repeat' (first | with_reducible rfl | (simp []; done) | (split <;> try (rename_i heq; obtain ⟨_, rfl⟩ := Prod.ext_iff.mp heq)) | refine (State.frozen_foldl _ (fun _ _ => ?_) _ _).trans ?_ | dsimp only | simp []))

@[simp] theorem State.abortCal_frozen (s : State) (c : Nat) (st : Nat) :
    (State.abortCal s c st).frozen = s.frozen := by
  simp [State.abortCal]

@[simp] theorem doCalStore_frozen (c : Cmd) (s : State) :
    (doCalStore c s).frozen = s.frozen := by
  simp [doCalStore]

@[simp] theorem doCalLoad_frozen (c : Cmd) (s : State) :
    (doCalLoad c s).frozen = s.frozen := by
  unfold doCalLoad; (repeat' (first | with_reducible rfl | refine State.checked_frozen _ _ _ _ (fun _ => ?_) | refine State.withReadOr_frozen _ _ _ _ _ _ _ _ (fun _ => ?_) (fun _ _ => ?_) | (simp []; done) | (split <;> try (rename_i heq; obtain ⟨_, rfl⟩ := Prod.ext_iff.mp heq)) | refine (State.frozen_foldl _ (fun _ _ => ?_) _ _).trans ?_ | dsimp only | simp []))

end Sys2Proof.Machine
end

