-- ==== Sys2Proof/Laws/Frozen/Cell.lean ====
section
/-! SUPPORT. What the operations of Sys2Proof/Machine/Cell.lean leave alone: the queue, the fuses in effect, the reset lines,
the reference, the test access port and the count of hot resets. -/

namespace Sys2Proof.Machine

open Sys2Proof

set_option linter.unusedTactic false
set_option linter.unreachableTactic false
set_option linter.unusedSimpArgs false

@[simp] theorem State.closeRequest_frozen (s : State) (site : Nat) :
    (State.closeRequest s site).frozen = s.frozen := by
  unfold State.closeRequest; (repeat' (first | with_reducible rfl | (simp []; done) | (split <;> try (rename_i heq; obtain ⟨_, rfl⟩ := Prod.ext_iff.mp heq)) | refine (State.frozen_foldl _ (fun _ _ => ?_) _ _).trans ?_ | dsimp only | simp []))

@[simp] theorem State.cellFrame_frozen (s : State) (f : CellFrame) :
    (State.cellFrame s f).frozen = s.frozen := by
  simp [State.cellFrame]

@[simp] theorem doCellNop_frozen (f : CellFrame) (s : State) :
    (doCellNop f s).frozen = s.frozen := by
  simp [doCellNop]

@[simp] theorem doCellRead_frozen (f : CellFrame) (s : State) :
    (doCellRead f s).frozen = s.frozen := by
  simp [doCellRead]

@[simp] theorem doCellWrite_frozen (f : CellFrame) (s : State) :
    (doCellWrite f s).frozen = s.frozen := by
  simp [doCellWrite]

@[simp] theorem doAliveLoss_frozen (s : State) :
    (doAliveLoss s).frozen = s.frozen := by
  simp [doAliveLoss]

@[simp] theorem State.cpCtrlWritten_frozen (s : State) (was : Bool) :
    (State.cpCtrlWritten s was).frozen = s.frozen := by
  simp [State.cpCtrlWritten]

end Sys2Proof.Machine
end

