-- ==== Sys2Proof/Laws/Frozen/Mmu.lean ====
section
/-! SUPPORT. What the operations of Sys2Proof/Machine/Mmu.lean leave alone: the queue, the fuses in effect, the reset lines,
the reference, the test access port and the count of hot resets. -/

namespace Sys2Proof.Machine

open Sys2Proof

set_option linter.unusedTactic false
set_option linter.unreachableTactic false
set_option linter.unusedSimpArgs false

@[simp] theorem State.spoilImages_frozen (s : State) (f : ImageEntry → Bool) :
    (State.spoilImages s f).frozen = s.frozen := by
  simp [State.spoilImages]

@[simp] theorem State.spoilBytes_frozen (s : State) (host : Bool) (a : Nat) (n : Nat) :
    (State.spoilBytes s host a n).frozen = s.frozen := by
  simp [State.spoilBytes]

@[simp] theorem spoilPieces_frozen (v0 : Nat) (v1 : Nat) (v2 : Nat) (s : State) :
    (spoilPieces v0 v1 v2 s).frozen = s.frozen := by
  induction v0 generalizing v1 v2 s <;> unfold spoilPieces <;> (repeat' (first | with_reducible rfl | (simp [*]; done) | (split <;> try (rename_i heq; obtain ⟨_, rfl⟩ := Prod.ext_iff.mp heq)) | refine (State.frozen_foldl _ (fun _ _ => ?_) _ _).trans ?_ | dsimp only | simp []))

@[simp] theorem State.copyWrite_frozen (s : State) (x : MemCtx) (va : Nat) (data : List Byte) (poison : Bool) :
    (State.copyWrite s x va data poison).2.frozen = s.frozen := by
  unfold State.copyWrite; (repeat' (first | with_reducible rfl | (simp []; done) | (split <;> try (rename_i heq; obtain ⟨_, rfl⟩ := Prod.ext_iff.mp heq)) | refine (State.frozen_foldl _ (fun _ _ => ?_) _ _).trans ?_ | dsimp only | simp []))

@[simp] theorem State.showPinned_frozen (s : State) :
    (State.showPinned s).frozen = s.frozen := by
  simp [State.showPinned]

@[simp] theorem State.putEntry_frozen (s : State) (i : Nat) (v : Nat) :
    (State.putEntry s i v).frozen = s.frozen := by
  simp [State.putEntry]

@[simp] theorem State.freeWaiters_frozen (s : State) (i : Nat) :
    (State.freeWaiters s i).frozen = s.frozen := by
  simp [State.freeWaiters]

@[simp] theorem State.clearEntry'_frozen (s : State) (i : Nat) :
    (State.clearEntry' s i).frozen = s.frozen := by
  simp [State.clearEntry']

@[simp] theorem State.applyEntry_frozen (s : State) (i : Nat) (v : Nat) :
    (State.applyEntry s i v).frozen = s.frozen := by
  simp [State.applyEntry]

@[simp] theorem applyEntries_frozen (v0 : Nat) (v1 : List Nat) (s : State) :
    (applyEntries v0 v1 s).2.2.frozen = s.frozen := by
  induction v1 generalizing v0 s <;> unfold applyEntries <;> (repeat' (first | with_reducible rfl | (simp [*]; done) | (split <;> try (rename_i heq; obtain ⟨_, rfl⟩ := Prod.ext_iff.mp heq)) | refine (State.frozen_foldl _ (fun _ _ => ?_) _ _).trans ?_ | dsimp only | simp []))

@[simp] theorem doMapSet_frozen (c : Cmd) (s : State) :
    (doMapSet c s).frozen = s.frozen := by
  simp [doMapSet]

@[simp] theorem loadEntries_frozen (c : Cmd) (i : Nat) (va : Nat) (v3 : Nat) (v4 : Nat) (s : State) :
    (loadEntries c i va v3 v4 s).frozen = s.frozen := by
  induction v3 generalizing c i va v4 s <;> unfold loadEntries <;> (repeat' (first | with_reducible rfl | (simp [*]; done) | (split <;> try (rename_i heq; obtain ⟨_, rfl⟩ := Prod.ext_iff.mp heq)) | refine (State.frozen_foldl _ (fun _ _ => ?_) _ _).trans ?_ | dsimp only | simp []))

@[simp] theorem doMapLoad_frozen (c : Cmd) (s : State) :
    (doMapLoad c s).frozen = s.frozen := by
  simp [doMapLoad]

@[simp] theorem doMapClear_frozen (c : Cmd) (s : State) :
    (doMapClear c s).frozen = s.frozen := by
  simp [doMapClear]

@[simp] theorem doMapRead_frozen (c : Cmd) (s : State) :
    (doMapRead c s).frozen = s.frozen := by
  simp [doMapRead]

@[simp] theorem doPatrolScrub_frozen (errors : List (Fin 68 × BitVec 8)) (elsewhere : List (BitVec 28 × List (Fin 68 × BitVec 8))) (s : State) :
    (doPatrolScrub errors elsewhere s).frozen = s.frozen := by
  unfold doPatrolScrub; (repeat' split) <;> simp []

@[simp] theorem doHostRead_frozen (block : Nat) (r : HostRead) (s : State) :
    (doHostRead block r s).frozen = s.frozen := by
  unfold doHostRead; (repeat' split) <;> simp []

@[simp] theorem State.showGroups_frozen (s : State) :
    (State.showGroups s).frozen = s.frozen := by
  simp [State.showGroups]

@[simp] theorem State.decide'_frozen (s : State) (entry : Nat) (k : Nat) (w : Waiter) :
    (State.decide' s entry k w).frozen = s.frozen := by
  simp [State.decide']

@[simp] theorem State.sendGroup_frozen (s : State) (entry : Nat) (base : Nat) (w : Waiter) :
    (State.sendGroup s entry base w).frozen = s.frozen := by
  simp [State.sendGroup]

@[simp] theorem takeGroups_frozen (v0 : Nat) (s : State) :
    (takeGroups v0 s).frozen = s.frozen := by
  induction v0 generalizing s <;> unfold takeGroups <;> (repeat' (first | with_reducible rfl | (simp [*]; done) | (split <;> try (rename_i heq; obtain ⟨_, rfl⟩ := Prod.ext_iff.mp heq)) | refine (State.frozen_foldl _ (fun _ _ => ?_) _ _).trans ?_ | dsimp only | simp []))

@[simp] theorem State.repin_frozen (s : State) (i : Nat) :
    (State.repin s i).frozen = s.frozen := by
  simp [State.repin]

@[simp] theorem State.losePin_frozen (s : State) (i : Nat) :
    (State.losePin s i).frozen = s.frozen := by
  simp [State.losePin]

@[simp] theorem State.trimAtc_frozen (s : State) (v1 : Nat) :
    (State.trimAtc s v1).frozen = s.frozen := by
  induction v1 generalizing s <;> unfold State.trimAtc <;> (repeat' (first | with_reducible rfl | (simp [*]; done) | (split <;> try (rename_i heq; obtain ⟨_, rfl⟩ := Prod.ext_iff.mp heq)) | refine (State.frozen_foldl _ (fun _ _ => ?_) _ _).trans ?_ | dsimp only | simp []))

@[simp] theorem State.cacheRanges_frozen (s : State) (i : Nat) (base : Nat) (n : Nat) (l : List AtsRange) :
    (State.cacheRanges s i base n l).frozen = s.frozen := by
  simp [State.cacheRanges]

@[simp] theorem State.answered_frozen (s : State) (i : Nat) (base : Nat) (w : Waiter) :
    (State.answered s i base w).frozen = s.frozen := by
  simp [State.answered]

@[simp] theorem doAtsCompletion_frozen (i : Nat) (a : AtsAnswer) (s : State) :
    (doAtsCompletion i a s).frozen = s.frozen := by
  unfold doAtsCompletion; (repeat' split) <;> simp []

@[simp] theorem State.endGroup_frozen (s : State) (index : Nat) (k : PageGroup → State → State) (hk : ∀ x0 x1, (k x0 x1).frozen = State.frozen x1) :
    (State.endGroup s index k).frozen = s.frozen := by
  unfold State.endGroup; (repeat' split) <;> simp [hk]

@[simp] theorem doPageResponse_frozen (index : Nat) (r : PrgResponse) (s : State) :
    (doPageResponse index r s).frozen = s.frozen := by
  unfold doPageResponse; (repeat' split) <;> simp []

@[simp] theorem doPrTimeout_frozen (index : Nat) (s : State) :
    (doPrTimeout index s).frozen = s.frozen := by
  simp [doPrTimeout]

@[simp] theorem doAtsInvalidate_frozen (itag : Nat) (base : Nat) (pages : Nat) (s : State) :
    (doAtsInvalidate itag base pages s).frozen = s.frozen := by
  simp [doAtsInvalidate]

@[simp] theorem doInvalidationCompletion_frozen (itag : Nat) (s : State) :
    (doInvalidationCompletion itag s).frozen = s.frozen := by
  simp [doInvalidationCompletion]

end Sys2Proof.Machine
end

