-- ==== Sys2Proof/Laws/Frozen/Ream.lean ====
section
/-! SUPPORT. What the operations of Sys2Proof/Machine/Ream.lean leave alone: the queue, the fuses in effect, the reset lines,
the reference, the test access port and the count of hot resets. -/

namespace Sys2Proof.Machine

open Sys2Proof

set_option linter.unusedTactic false
set_option linter.unreachableTactic false
set_option linter.unusedSimpArgs false

@[simp] theorem State.showLevel_frozen (s : State) (n : Nat) (q : Nat) :
    (State.showLevel s n q).frozen = s.frozen := by
  simp [State.showLevel]

@[simp] theorem State.checkMark_frozen (s : State) (n : Nat) (q : Nat) (pos : Nat) :
    (State.checkMark s n q pos).frozen = s.frozen := by
  simp [State.checkMark]

@[simp] theorem State.ringPiece_frozen (s : State) (n : Nat) (q : Nat) (pos : Nat) (d : List Byte) :
    (State.ringPiece s n q pos d).2.frozen = s.frozen := by
  unfold State.ringPiece; (repeat' (first | with_reducible rfl | (simp []; done) | (split <;> try (rename_i heq; obtain ⟨_, rfl⟩ := Prod.ext_iff.mp heq)) | refine (State.frozen_foldl _ (fun _ _ => ?_) _ _).trans ?_ | dsimp only | simp []))

@[simp] theorem State.ringWrite_frozen (s : State) (n : Nat) (q : Nat) (pos : Nat) (d : List Byte) :
    (State.ringWrite s n q pos d).2.frozen = s.frozen := by
  unfold State.ringWrite; (repeat' (first | with_reducible rfl | (simp []; done) | (split <;> try (rename_i heq; obtain ⟨_, rfl⟩ := Prod.ext_iff.mp heq)) | refine (State.frozen_foldl _ (fun _ _ => ?_) _ _).trans ?_ | dsimp only | simp []))

@[simp] theorem State.commitTo_frozen (s : State) (n : Nat) (q : Nat) (pos : Nat) :
    (State.commitTo s n q pos).frozen = s.frozen := by
  simp [State.commitTo]

@[simp] theorem State.chainRecord_frozen (s : State) (n : Nat) (r : Rec) :
    (State.chainRecord s n r).frozen = s.frozen := by
  simp [State.chainRecord]

@[simp] theorem State.commitRecord_frozen (s : State) (n : Nat) (r : Rec) (pos : Nat) :
    (State.commitRecord s n r pos).2.frozen = s.frozen := by
  unfold State.commitRecord; (repeat' (first | with_reducible rfl | (simp []; done) | (split <;> try (rename_i heq; obtain ⟨_, rfl⟩ := Prod.ext_iff.mp heq)) | refine (State.frozen_foldl _ (fun _ _ => ?_) _ _).trans ?_ | dsimp only | simp []))

@[simp] theorem State.leaveElastic_frozen (s : State) (n : Nat) (k : Nat) :
    (State.leaveElastic s n k).frozen = s.frozen := by
  simp [State.leaveElastic]

@[simp] theorem State.discardEntered_frozen (s : State) (n : Nat) (r : Rec) (st : Nat) :
    (State.discardEntered s n r st).frozen = s.frozen := by
  simp [State.discardEntered]

@[simp] theorem State.faultQueue_frozen (s : State) (n : Nat) (q : Nat) (k : Nat) :
    (State.faultQueue s n q k).frozen = s.frozen := by
  simp [State.faultQueue]

@[simp] theorem State.countSince_frozen (s : State) (n : Nat) (pos : Nat) (r : Rec) :
    (State.countSince s n pos r).frozen = s.frozen := by
  simp [State.countSince]

@[simp] theorem State.zeroStart_frozen (s : State) (n : Nat) (q : Nat) :
    (State.zeroStart s n q).frozen = s.frozen := by
  unfold State.zeroStart; (repeat' (first | with_reducible rfl | (simp []; done) | (split <;> try (rename_i heq; obtain ⟨_, rfl⟩ := Prod.ext_iff.mp heq)) | refine (State.frozen_foldl _ (fun _ _ => ?_) _ _).trans ?_ | dsimp only | simp []))

@[simp] theorem doRecordCommit_frozen (n : Nat) (s0 : State) :
    (doRecordCommit n s0).frozen = s0.frozen := by
  unfold doRecordCommit; (repeat' (first | with_reducible rfl | (simp []; done) | (split <;> try (rename_i heq; obtain ⟨_, rfl⟩ := Prod.ext_iff.mp heq)) | refine (State.frozen_foldl _ (fun _ _ => ?_) _ _).trans ?_ | dsimp only | simp []))

@[simp] theorem State.applyQueue_frozen (s : State) (n : Nat) (q : Nat) :
    (State.applyQueue s n q).frozen = s.frozen := by
  simp [State.applyQueue]

@[simp] theorem State.takeQueue_frozen (s : State) (n : Nat) (q : Nat) :
    (State.takeQueue s n q).frozen = s.frozen := by
  simp [State.takeQueue]

@[simp] theorem State.queueWritten_frozen (s : State) (n : Nat) (q : Nat) :
    (State.queueWritten s n q).frozen = s.frozen := by
  simp [State.queueWritten]

@[simp] theorem State.takeLimits_frozen (s : State) (n : Nat) :
    (State.takeLimits s n).frozen = s.frozen := by
  simp [State.takeLimits]

@[simp] theorem State.limitsWritten_frozen (s : State) (n : Nat) :
    (State.limitsWritten s n).frozen = s.frozen := by
  simp [State.limitsWritten]

@[simp] theorem State.releaseSeq_frozen (s : State) (n : Nat) :
    (State.releaseSeq s n).frozen = s.frozen := by
  simp [State.releaseSeq]

@[simp] theorem State.clearCrossed_frozen (s : State) (n : Nat) (q : Nat) :
    (State.clearCrossed s n q).frozen = s.frozen := by
  simp [State.clearCrossed]

@[simp] theorem State.queueChecked_frozen (s : State) (c : Cmd) (used : List (Nat × Nat)) (bad : Bool) (k : State → State) (hk : ∀ x0, (k x0).frozen = State.frozen x0) :
    (State.queueChecked s c used bad k).frozen = s.frozen := by
  simp [State.queueChecked, hk]

@[simp] theorem doReamMark_frozen (c : Cmd) (s : State) :
    (doReamMark c s).frozen = s.frozen := by
  simp [doReamMark]

@[simp] theorem State.rewind_frozen (s : State) (c : Cmd) :
    (State.rewind s c).frozen = s.frozen := by
  simp [State.rewind]

@[simp] theorem doReamRelease_frozen (c : Cmd) (s : State) :
    (doReamRelease c s).frozen = s.frozen := by
  simp [doReamRelease]

@[simp] theorem doReamReset_frozen (c : Cmd) (s : State) :
    (doReamReset c s).frozen = s.frozen := by
  simp [doReamReset]

end Sys2Proof.Machine
end

