-- ==== Sys2Proof/Laws/Frozen/Dma.lean ====
section
/-! SUPPORT. What the operations of Sys2Proof/Machine/Dma.lean leave alone: the queue, the fuses in effect, the reset lines,
the reference, the test access port and the count of hot resets. -/

namespace Sys2Proof.Machine

open Sys2Proof

set_option linter.unusedTactic false
set_option linter.unreachableTactic false
set_option linter.unusedSimpArgs false

@[simp] theorem State.modDma_frozen (s : State) (e : Nat) (f : DmaEngine → DmaEngine) :
    (State.modDma s e f).frozen = s.frozen := by
  simp [State.modDma]

@[simp] theorem State.modTransfer_frozen (s : State) (e : Nat) (k : Nat) (f : Transfer → Transfer) :
    (State.modTransfer s e k f).frozen = s.frozen := by
  simp [State.modTransfer]

@[simp] theorem State.showDma_frozen (s : State) (e : Nat) :
    (State.showDma s e).frozen = s.frozen := by
  simp [State.showDma]

@[simp] theorem State.endTransfer_frozen (s : State) (e : Nat) (t : Transfer) (st : Nat) (fault : Option (Nat × Nat)) (slot : Option Nat) :
    (State.endTransfer s e t st fault slot).frozen = s.frozen := by
  simp [State.endTransfer]

@[simp] theorem State.suspend_frozen (s : State) (e : Nat) (t : Transfer) (va : Nat) (k : Nat) :
    (State.suspend s e t va k).frozen = s.frozen := by
  unfold State.suspend; (repeat' (first | with_reducible rfl | (simp []; done) | (split <;> try (rename_i heq; obtain ⟨_, rfl⟩ := Prod.ext_iff.mp heq)) | refine (State.frozen_foldl _ (fun _ _ => ?_) _ _).trans ?_ | dsimp only | simp []))

@[simp] theorem State.startTransfer_frozen (s : State) (e : Nat) (t : Transfer) :
    (State.startTransfer s e t).frozen = s.frozen := by
  simp [State.startTransfer]

@[simp] theorem pickTransfer_frozen (v0 : Nat) (v1 : Nat) (s : State) :
    (pickTransfer v0 v1 s).frozen = s.frozen := by
  induction v0 generalizing v1 s <;> unfold pickTransfer <;> (repeat' (first | with_reducible rfl | (simp [*]; done) | (split <;> try (rename_i heq; obtain ⟨_, rfl⟩ := Prod.ext_iff.mp heq)) | refine (State.frozen_foldl _ (fun _ _ => ?_) _ _).trans ?_ | dsimp only | simp []))

@[simp] theorem State.dmaSchedule_frozen (s : State) (e : Nat) :
    (State.dmaSchedule s e).frozen = s.frozen := by
  simp [State.dmaSchedule]

@[simp] theorem State.dmaArrive_frozen (s : State) (e : Nat) :
    (State.dmaArrive s e).frozen = s.frozen := by
  simp [State.dmaArrive]

@[simp] theorem dmaRead_frozen (v0 : Nat) (v1 : MemCtx) (v2 : Nat) (v3 : Nat) (v4 : List Byte) (v5 : Option (Nat × Nat)) (s : State) :
    (dmaRead v0 v1 v2 v3 v4 v5 s).2.frozen = s.frozen := by
  induction v0 generalizing v1 v2 v3 v4 v5 s with
  | zero => rfl
  | succ fuel ih =>
    simp only [dmaRead]
    (repeat' split) <;> grind [State.readPiece_frozen]

@[simp] theorem dmaGather_frozen (v0 : MemCtx) (v1 : List (Nat × Nat)) (v2 : List Byte) (v3 : Option (Nat × Nat)) (s : State) :
    (dmaGather v0 v1 v2 v3 s).2.frozen = s.frozen := by
  induction v1 generalizing v0 v2 v3 s with
  | nil => rfl
  | cons a l ih =>
    simp only [dmaGather]
    (repeat' split) <;> grind [dmaRead_frozen]

@[simp] theorem dmaWrite_frozen (v0 : Nat) (v1 : MemCtx) (v2 : Nat) (v3 : List Byte) (v4 : Bool) (v5 : Nat) (s : State) :
    (dmaWrite v0 v1 v2 v3 v4 v5 s).2.frozen = s.frozen := by
  induction v0 generalizing v1 v2 v3 v4 v5 s with
  | zero => rfl
  | succ fuel ih =>
    simp only [dmaWrite]
    (repeat' split) <;> grind [State.writePiece_frozen, spoilPieces_frozen]

@[simp] theorem dmaWriteRuns_frozen (v0 : MemCtx) (v1 : Nat) (v2 : List (List Byte × Bool)) (v3 : Nat) (s : State) :
    (dmaWriteRuns v0 v1 v2 v3 s).2.frozen = s.frozen := by
  induction v2 generalizing v0 v1 v3 s with
  | nil => rfl
  | cons a l ih =>
    simp only [dmaWriteRuns]
    (repeat' split) <;> grind [dmaWrite_frozen]

@[simp] theorem State.chunkRead_frozen (s : State) (x : MemCtx) (t : Transfer) (off : Nat) (n : Nat) :
    (State.chunkRead s x t off n).2.frozen = s.frozen := by
  unfold State.chunkRead; (repeat' (first | with_reducible rfl | (simp []; done) | (split <;> try (rename_i heq; obtain ⟨_, rfl⟩ := Prod.ext_iff.mp heq)) | refine (State.frozen_foldl _ (fun _ _ => ?_) _ _).trans ?_ | dsimp only | simp []))

@[simp] theorem State.chunkWrite_frozen (s : State) (x : MemCtx) (t : Transfer) (off : Nat) (data : List Byte) (poison : Bool) :
    (State.chunkWrite s x t off data poison).2.frozen = s.frozen := by
  simp [State.chunkWrite]

@[simp] theorem State.ringAdvance_frozen (s : State) (x : DmaSource) (p : Nat) :
    (State.ringAdvance s x p).frozen = s.frozen := by
  unfold State.ringAdvance; (repeat' (first | with_reducible rfl | (simp []; done) | (split <;> try (rename_i heq; obtain ⟨_, rfl⟩ := Prod.ext_iff.mp heq)) | refine (State.frozen_foldl _ (fun _ _ => ?_) _ _).trans ?_ | dsimp only | simp []))

@[simp] theorem State.chunkFault_frozen (s : State) (e : Nat) (t : Transfer) (va : Nat) (k : Nat) :
    (State.chunkFault s e t va k).frozen = s.frozen := by
  simp [State.chunkFault]

@[simp] theorem State.park_frozen (s : State) (e : Nat) (t : Transfer) (va : Nat) (write : Bool) :
    (State.park s e t va write).frozen = s.frozen := by
  simp [State.park]

@[simp] theorem State.chunkDone_frozen (s : State) (e : Nat) (t : Transfer) (n : Nat) :
    (State.chunkDone s e t n).frozen = s.frozen := by
  simp [State.chunkDone]

@[simp] theorem State.runChunk_frozen (s : State) (e : Nat) (t : Transfer) :
    (State.runChunk s e t).frozen = s.frozen := by
  unfold State.runChunk; (repeat' (first | with_reducible rfl | (simp []; done) | (split <;> try (rename_i heq; obtain ⟨_, rfl⟩ := Prod.ext_iff.mp heq)) | refine (State.frozen_foldl _ (fun _ _ => ?_) _ _).trans ?_ | dsimp only | simp []))

@[simp] theorem State.landChunks_frozen (s : State) (e : Nat) (t : Transfer) (beyond : List Nat) :
    (State.landChunks s e t beyond).frozen = s.frozen := by
  unfold State.landChunks; (repeat' (first | with_reducible rfl | (simp []; done) | (split <;> try (rename_i heq; obtain ⟨_, rfl⟩ := Prod.ext_iff.mp heq)) | refine (State.frozen_foldl _ (fun _ _ => ?_) _ _).trans ?_ | dsimp only | simp []))

@[simp] theorem doDmaChunk_frozen (e : Nat) (begun : Nat) (landed : List Nat) (s : State) :
    (doDmaChunk e begun landed s).frozen = s.frozen := by
  unfold doDmaChunk; (repeat' (first | with_reducible rfl | (simp []; done) | (split <;> try (rename_i heq; obtain ⟨_, rfl⟩ := Prod.ext_iff.mp heq)) | refine (State.frozen_foldl _ (fun _ _ => ?_) _ _).trans ?_ | dsimp only | simp []))

@[simp] theorem State.unpark_frozen (s : State) (e : Nat) :
    (State.unpark s e).frozen = s.frozen := by
  simp [State.unpark]

@[simp] theorem State.openFences_frozen (s : State) :
    (State.openFences s).frozen = s.frozen := by
  simp [State.openFences]

@[simp] theorem State.dmaChecked_frozen (s : State) (c : Cmd) (bad : Bool) (refusal : Nat) (k : Nat → State → State) (hk : ∀ x0 x1, (k x0 x1).frozen = State.frozen x1) :
    (State.dmaChecked s c bad refusal k).frozen = s.frozen := by
  unfold State.dmaChecked; (repeat' (first | with_reducible rfl | (simp [hk]; done) | (split <;> try (rename_i heq; obtain ⟨_, rfl⟩ := Prod.ext_iff.mp heq)) | refine (State.frozen_foldl _ (fun _ _ => ?_) _ _).trans ?_ | dsimp only | simp [hk]))

@[simp] theorem State.holdTransfer_frozen (s : State) (e : Nat) (t : Transfer) :
    (State.holdTransfer s e t).frozen = s.frozen := by
  simp [State.holdTransfer]

@[simp] theorem doDmaCopy_frozen (earlier : List Cmd) (c : Cmd) (s : State) :
    (doDmaCopy earlier c s).frozen = s.frozen := by
  simp [doDmaCopy]

@[simp] theorem doDmaFill_frozen (earlier : List Cmd) (c : Cmd) (s : State) :
    (doDmaFill earlier c s).frozen = s.frozen := by
  simp [doDmaFill]

@[simp] theorem doDmaRing_frozen (earlier : List Cmd) (c : Cmd) (s : State) :
    (doDmaRing earlier c s).frozen = s.frozen := by
  simp [doDmaRing]

@[simp] theorem doDmaResume_frozen (earlier : List Cmd) (c : Cmd) (s : State) :
    (doDmaResume earlier c s).frozen = s.frozen := by
  unfold doDmaResume; (repeat' (first | with_reducible rfl | refine State.dmaChecked_frozen _ _ _ _ _ (fun _ _ => ?_) | (simp []; done) | (split <;> try (rename_i heq; obtain ⟨_, rfl⟩ := Prod.ext_iff.mp heq)) | refine (State.frozen_foldl _ (fun _ _ => ?_) _ _).trans ?_ | dsimp only | simp []))

@[simp] theorem State.abortTransfer_frozen (s : State) (e : Nat) (t : Transfer) :
    (State.abortTransfer s e t).frozen = s.frozen := by
  simp [State.abortTransfer]

@[simp] theorem State.dmaAbort_frozen (s : State) (c : Cmd) (e : Nat) :
    (State.dmaAbort s c e).frozen = s.frozen := by
  unfold State.dmaAbort; (repeat' (first | with_reducible rfl | (simp []; done) | (split <;> try (rename_i heq; obtain ⟨_, rfl⟩ := Prod.ext_iff.mp heq)) | refine (State.frozen_foldl _ (fun _ _ => ?_) _ _).trans ?_ | dsimp only | simp []))

@[simp] theorem doDmaAbort_frozen (earlier : List Cmd) (c : Cmd) (s : State) :
    (doDmaAbort earlier c s).frozen = s.frozen := by
  simp [doDmaAbort]

@[simp] theorem doDmaTimeLimit_frozen (e : Nat) (slot : Bool) (k : Nat) (s : State) :
    (doDmaTimeLimit e slot k s).frozen = s.frozen := by
  unfold doDmaTimeLimit; (repeat' (first | with_reducible rfl | (simp []; done) | (split <;> try (rename_i heq; obtain ⟨_, rfl⟩ := Prod.ext_iff.mp heq)) | refine (State.frozen_foldl _ (fun _ _ => ?_) _ _).trans ?_ | dsimp only | simp []))

@[simp] theorem doDescriptorAgeing_frozen (e : Nat) (k : Nat) (s : State) :
    (doDescriptorAgeing e k s).frozen = s.frozen := by
  unfold doDescriptorAgeing; (repeat' (first | with_reducible rfl | (simp []; done) | (split <;> try (rename_i heq; obtain ⟨_, rfl⟩ := Prod.ext_iff.mp heq)) | refine (State.frozen_foldl _ (fun _ _ => ?_) _ _).trans ?_ | dsimp only | simp []))

@[simp] theorem doReamRewind_frozen (c : Cmd) (s : State) :
    (doReamRewind c s).frozen = s.frozen := by
  simp [doReamRewind]

@[simp] theorem doReamResetDma_frozen (c : Cmd) (s : State) :
    (doReamResetDma c s).frozen = s.frozen := by
  simp [doReamResetDma]

@[simp] theorem State.dmaReset_frozen (s : State) (e : Nat) :
    (State.dmaReset s e).frozen = s.frozen := by
  simp [State.dmaReset]

end Sys2Proof.Machine
end

