-- ==== Sys2Proof/Laws/Frozen/HostIf.lean ====
section
/-! SUPPORT. What the operations of Sys2Proof/Machine/HostIf.lean leave alone: the queue, the fuses in effect, the reset lines,
the reference, the test access port and the count of hot resets. -/

namespace Sys2Proof.Machine

open Sys2Proof

set_option linter.unusedTactic false
set_option linter.unreachableTactic false
set_option linter.unusedSimpArgs false

@[simp] theorem State.modSq_frozen (s : State) (q : Nat) (f : SubQueue → SubQueue) :
    (State.modSq s q f).frozen = s.frozen := by
  simp [State.modSq]

@[simp] theorem State.modCq_frozen (s : State) (q : Nat) (f : ComQueue → ComQueue) :
    (State.modCq s q f).frozen = s.frozen := by
  simp [State.modCq]

@[simp] theorem State.statusChanged_frozen (s : State) (q : Nat) :
    (State.statusChanged s q).frozen = s.frozen := by
  simp [State.statusChanged]

@[simp] theorem State.writeStatus_frozen (s : State) (q : Nat) :
    (State.writeStatus s q).frozen = s.frozen := by
  simp [State.writeStatus]

@[simp] theorem State.showPolling_frozen (s : State) :
    (State.showPolling s).frozen = s.frozen := by
  simp [State.showPolling]

@[simp] theorem State.ltrIfChanged_frozen (s : State) (old : Nat) :
    (State.ltrIfChanged s old).frozen = s.frozen := by
  simp [State.ltrIfChanged]

@[simp] theorem State.roundOver_frozen (s : State) :
    (State.roundOver s).frozen = s.frozen := by
  simp [State.roundOver]

@[simp] theorem doPollRound_frozen (s : State) :
    (doPollRound s).frozen = s.frozen := by
  simp [doPollRound]

@[simp] theorem State.stopQueue_frozen (s : State) (q : Nat) (err : Nat) :
    (State.stopQueue s q err).frozen = s.frozen := by
  simp [State.stopQueue]

@[simp] theorem State.takeDoorbell_frozen (s : State) (q : Nat) (tail : Nat) (head : Nat) :
    (State.takeDoorbell s q tail head).frozen = s.frozen := by
  simp [State.takeDoorbell]

@[simp] theorem doDoorbellRead_frozen (k : Nat) (r : LineRead) (s : State) :
    (doDoorbellRead k r s).frozen = s.frozen := by
  unfold doDoorbellRead; (repeat' (first | with_reducible rfl | (simp []; done) | (split <;> try (rename_i heq; obtain ⟨_, rfl⟩ := Prod.ext_iff.mp heq)) | refine (State.frozen_foldl _ (fun _ _ => ?_) _ _).trans ?_ | dsimp only | simp []))

@[simp] theorem State.dispatch_frozen (s : State) (c : Cmd) :
    (State.dispatch s c).frozen = s.frozen := by
  simp [State.dispatch]

@[simp] theorem doEntryFetch_frozen (q : Nat) (r : LineRead) (s : State) :
    (doEntryFetch q r s).frozen = s.frozen := by
  unfold doEntryFetch; (repeat' (first | with_reducible rfl | (simp []; done) | (split <;> try (rename_i heq; obtain ⟨_, rfl⟩ := Prod.ext_iff.mp heq)) | refine (State.frozen_foldl _ (fun _ _ => ?_) _ _).trans ?_ | dsimp only | simp []))

@[simp] theorem doNop_frozen (c : Cmd) (s : State) :
    (doNop c s).frozen = s.frozen := by
  simp [doNop]

@[simp] theorem State.enterBuffer_frozen (s : State) :
    (State.enterBuffer s).frozen = s.frozen := by
  unfold State.enterBuffer; (repeat' (first | with_reducible rfl | (simp []; done) | (split <;> try (rename_i heq; obtain ⟨_, rfl⟩ := Prod.ext_iff.mp heq)) | refine (State.frozen_foldl _ (fun _ _ => ?_) _ _).trans ?_ | dsimp only | simp []))

@[simp] theorem State.showFull_frozen (s : State) :
    (State.showFull s).frozen = s.frozen := by
  simp [State.showFull]

@[simp] theorem State.refill_frozen (s : State) :
    (State.refill s).frozen = s.frozen := by
  simp [State.refill]

@[simp] theorem State.countWaits_frozen (s : State) :
    (State.countWaits s).frozen = s.frozen := by
  simp [State.countWaits]

@[simp] theorem State.writeCompletion_frozen (s : State) (e : Completion) :
    (State.writeCompletion s e).frozen = s.frozen := by
  simp [State.writeCompletion]

@[simp] theorem State.drainOne_frozen (s : State) :
    (State.drainOne s).frozen = s.frozen := by
  unfold State.drainOne; (repeat' (first | with_reducible rfl | (simp []; done) | (split <;> try (rename_i heq; obtain ⟨_, rfl⟩ := Prod.ext_iff.mp heq)) | refine (State.frozen_foldl _ (fun _ _ => ?_) _ _).trans ?_ | dsimp only | simp []))

@[simp] theorem doCompletionWrite_frozen (s : State) :
    (doCompletionWrite s).frozen = s.frozen := by
  simp [doCompletionWrite]

@[simp] theorem State.drainHeld_frozen (v0 : Nat) (s : State) :
    (State.drainHeld v0 s).frozen = s.frozen := by
  induction v0 generalizing s <;> unfold State.drainHeld <;> (repeat' (first | with_reducible rfl | (simp [*]; done) | (split <;> try (rename_i heq; obtain ⟨_, rfl⟩ := Prod.ext_iff.mp heq)) | refine (State.frozen_foldl _ (fun _ _ => ?_) _ _).trans ?_ | dsimp only | simp []))

@[simp] theorem State.cqTimer_frozen (s : State) (q : Nat) :
    (State.cqTimer s q).frozen = s.frozen := by
  simp [State.cqTimer]

@[simp] theorem State.deliverDeferred_frozen (s : State) :
    (State.deliverDeferred s).frozen = s.frozen := by
  simp [State.deliverDeferred]

@[simp] theorem State.deliverPba_frozen (s : State) :
    (State.deliverPba s).frozen = s.frozen := by
  simp [State.deliverPba]

@[simp] theorem doMsixUnmask_frozen (v : Option Nat) (s : State) :
    (doMsixUnmask v s).frozen = s.frozen := by
  unfold doMsixUnmask; (repeat' (first | with_reducible rfl | (simp []; done) | (split <;> try (rename_i heq; obtain ⟨_, rfl⟩ := Prod.ext_iff.mp heq)) | refine (State.frozen_foldl _ (fun _ _ => ?_) _ _).trans ?_ | dsimp only | simp []))

@[simp] theorem doL1Entry_frozen (s : State) :
    (doL1Entry s).frozen = s.frozen := by
  simp [doL1Entry]

@[simp] theorem doD3hotEntry_frozen (s : State) :
    (doD3hotEntry s).frozen = s.frozen := by
  simp [doD3hotEntry]

@[simp] theorem State.discardPending_frozen (s : State) :
    (State.discardPending s).frozen = s.frozen := by
  simp [State.discardPending]

@[simp] theorem doLinkUp_frozen (rate : LinkRate) (width : LinkWidth) (s : State) :
    (doLinkUp rate width s).frozen = s.frozen := by
  simp [doLinkUp]

@[simp] theorem State.setAts_frozen (s : State) (on : Bool) :
    (State.setAts s on).frozen = s.frozen := by
  simp [State.setAts]

@[simp] theorem State.setPri_frozen (s : State) (on : Bool) :
    (State.setPri s on).frozen = s.frozen := by
  simp [State.setPri]

@[simp] theorem State.sqApplied_frozen (s : State) (q : Nat) (was : Bool) :
    (State.sqApplied s q was).frozen = s.frozen := by
  simp [State.sqApplied]

@[simp] theorem State.cqApplied_frozen (s : State) (q : Nat) (was : Bool) :
    (State.cqApplied s q was).frozen = s.frozen := by
  simp [State.cqApplied]

end Sys2Proof.Machine
end

