-- ==== Sys2Proof/Laws/Frozen/Events.lean ====
section
/-! SUPPORT. What the operations of Sys2Proof/Machine/Events.lean leave alone: the queue, the fuses in effect, the reset lines,
the reference, the test access port and the count of hot resets. -/

namespace Sys2Proof.Machine

open Sys2Proof

set_option linter.unusedTactic false
set_option linter.unreachableTactic false
set_option linter.unusedSimpArgs false

@[simp] theorem State.modHeq_frozen (s : State) (k : Nat) (f : EventQueue → EventQueue) :
    (State.modHeq s k f).frozen = s.frozen := by
  simp [State.modHeq]

@[simp] theorem State.moderateHeq_frozen (s : State) (k : Nat) :
    (State.moderateHeq s k).frozen = s.frozen := by
  simp [State.moderateHeq]

@[simp] theorem State.writeRecord_frozen (s : State) (k : Nat) (r : List Byte) :
    (State.writeRecord s k r).frozen = s.frozen := by
  simp [State.writeRecord]

@[simp] theorem State.queueRecord_frozen (s : State) (k : Nat) (r : List Byte) :
    (State.queueRecord s k r).frozen = s.frozen := by
  unfold State.queueRecord
  split
  · exact State.bump_frozen _ _ _
  · dsimp only
    split
    · rw [State.moderateHeq_frozen, State.modHeq_frozen, State.bump_frozen]
    · split
      · rw [State.frozen_update_hi, State.modHeq_frozen, State.bump_frozen]
      · rw [State.moderateHeq_frozen, State.writeRecord_frozen, State.bump_frozen]

@[simp] theorem State.flushHeq_frozen (s : State) (k : Nat) :
    (State.flushHeq s k).frozen = s.frozen := by
  simp [State.flushHeq]

@[simp] theorem State.heqApplied_frozen (s : State) (k : Nat) (was : Bool) :
    (State.heqApplied s k was).frozen = s.frozen := by
  simp [State.heqApplied]

@[simp] theorem doModerationTimer_frozen (m : ModQueue) (s : State) :
    (doModerationTimer m s).frozen = s.frozen := by
  unfold doModerationTimer; (repeat' (first | with_reducible rfl | (simp []; done) | (split <;> try (rename_i heq; obtain ⟨_, rfl⟩ := Prod.ext_iff.mp heq)) | refine (State.frozen_foldl _ (fun _ _ => ?_) _ _).trans ?_ | dsimp only | simp []))

@[simp] theorem State.hostBack_frozen (s : State) :
    (State.hostBack s).frozen = s.frozen := by
  simp [State.hostBack]

@[simp] theorem doL1Exit_frozen (s : State) :
    (doL1Exit s).frozen = s.frozen := by
  simp [doL1Exit]

@[simp] theorem doD0Return_frozen (busMaster : Bool) (s : State) :
    (doD0Return busMaster s).frozen = s.frozen := by
  simp [doD0Return]

@[simp] theorem doConfigWrite_frozen (w : ConfigWrite) (s : State) :
    (doConfigWrite w s).frozen = s.frozen := by
  unfold doConfigWrite; (repeat' (first | with_reducible rfl | (simp []; done) | (split <;> try (rename_i heq; obtain ⟨_, rfl⟩ := Prod.ext_iff.mp heq)) | refine (State.frozen_foldl _ (fun _ _ => ?_) _ _).trans ?_ | dsimp only | simp []))

@[simp] theorem doCompletionTimeout_frozen (what : LateRead) (s : State) :
    (doCompletionTimeout what s).frozen = s.frozen := by
  unfold doCompletionTimeout; (repeat' (first | with_reducible rfl | (simp []; done) | (split <;> try (rename_i heq; obtain ⟨_, rfl⟩ := Prod.ext_iff.mp heq)) | refine (State.frozen_foldl _ (fun _ _ => ?_) _ _).trans ?_ | dsimp only | simp []))

@[simp] theorem State.modLine_frozen (s : State) (k : Nat) (f : EvLine → EvLine) :
    (State.modLine s k f).frozen = s.frozen := by
  simp [State.modLine]

@[simp] theorem State.showLines_frozen (s : State) :
    (State.showLines s).frozen = s.frozen := by
  simp [State.showLines]

@[simp] theorem doEvAssert_frozen (k : Nat) (s : State) :
    (doEvAssert k s).frozen = s.frozen := by
  simp [doEvAssert]

@[simp] theorem doEvRelease_frozen (k : Nat) (s : State) :
    (doEvRelease k s).frozen = s.frozen := by
  simp [doEvRelease]

@[simp] theorem doEvPulseEnd_frozen (k : Nat) (who : LineDriver) (s : State) :
    (doEvPulseEnd k who s).frozen = s.frozen := by
  simp [doEvPulseEnd]

@[simp] theorem State.deliver_frozen (s : State) (n : Nat) (host : Bool) (late : Bool) :
    (State.deliver s n host late).frozen = s.frozen := by
  simp [State.deliver]

@[simp] theorem doEventDelivery_frozen (late : Option Nat) (s : State) :
    (doEventDelivery late s).frozen = s.frozen := by
  unfold doEventDelivery; (repeat' (first | with_reducible rfl | (simp []; done) | (split <;> try (rename_i heq; obtain ⟨_, rfl⟩ := Prod.ext_iff.mp heq)) | refine (State.frozen_foldl _ (fun _ _ => ?_) _ _).trans ?_ | dsimp only | simp []))

end Sys2Proof.Machine
end

