-- ==== Sys2Proof/Laws/Frozen/FeltLink.lean ====
section
/-! SUPPORT. What the operations of Sys2Proof/Machine/FeltLink.lean leave alone: the queue, the fuses in effect, the reset lines,
the reference, the test access port and the count of hot resets. -/

namespace Sys2Proof.Machine

open Sys2Proof

set_option linter.unusedTactic false
set_option linter.unreachableTactic false
set_option linter.unusedSimpArgs false

@[simp] theorem State.modPort_frozen (s : State) (p : Nat) (f : FeltPort → FeltPort) :
    (State.modPort s p f).frozen = s.frozen := by
  simp [State.modPort]

@[simp] theorem State.sendBlock_frozen (s : State) (p : Nat) (typ : Nat) (content : Nat) :
    (State.sendBlock s p typ content).frozen = s.frozen := by
  simp [State.sendBlock]

@[simp] theorem State.blocksSent_frozen (s : State) :
    (State.blocksSent s).frozen = s.frozen := by
  simp [State.blocksSent]

@[simp] theorem State.clearHop_frozen (s : State) (p : Nat) :
    (State.clearHop s p).frozen = s.frozen := by
  simp [State.clearHop]

@[simp] theorem State.portEnter_frozen (s : State) (p : Nat) (st : Nat) :
    (State.portEnter s p st).frozen = s.frozen := by
  simp [State.portEnter]

@[simp] theorem State.portNotice_frozen (s : State) (p : Nat) (st : Nat) :
    (State.portNotice s p st).frozen = s.frozen := by
  simp [State.portNotice]

@[simp] theorem State.announce_frozen (s : State) (p : Nat) (up : Bool) :
    (State.announce s p up).frozen = s.frozen := by
  simp [State.announce]

@[simp] theorem State.startRetrain_frozen (s : State) (p : Nat) :
    (State.startRetrain s p).frozen = s.frozen := by
  simp [State.startRetrain]

@[simp] theorem State.portUp_frozen (s : State) (p : Nat) :
    (State.portUp s p).frozen = s.frozen := by
  simp [State.portUp]

@[simp] theorem State.portDown_frozen (s : State) (p : Nat) :
    (State.portDown s p).frozen = s.frozen := by
  simp [State.portDown]

@[simp] theorem State.showPorts_frozen (s : State) :
    (State.showPorts s).frozen = s.frozen := by
  simp [State.showPorts]

@[simp] theorem doPartnerDetect_frozen (p : Nat) (s : State) :
    (doPartnerDetect p s).frozen = s.frozen := by
  simp [doPartnerDetect]

@[simp] theorem State.sendIds_frozen (s : State) (p : Nat) :
    (State.sendIds s p).frozen = s.frozen := by
  simp [State.sendIds]

@[simp] theorem State.handshake_frozen (s : State) (p : Nat) :
    (State.handshake s p).frozen = s.frozen := by
  simp [State.handshake]

@[simp] theorem doEqualiseEnd_frozen (p : Nat) (ok : Bool) (s : State) :
    (doEqualiseEnd p ok s).frozen = s.frozen := by
  simp [doEqualiseEnd]

@[simp] theorem doMismatchRetry_frozen (p : Nat) (s : State) :
    (doMismatchRetry p s).frozen = s.frozen := by
  simp [doMismatchRetry]

@[simp] theorem doRetrainTimeout_frozen (p : Nat) (s : State) :
    (doRetrainTimeout p s).frozen = s.frozen := by
  simp [doRetrainTimeout]

@[simp] theorem doDownTimeout_frozen (p : Nat) (s : State) :
    (doDownTimeout p s).frozen = s.frozen := by
  simp [doDownTimeout]

@[simp] theorem State.block_frozen (s : State) (p : Nat) (typ : Nat) (content : BitVec 48) (crc : BitVec 8) (k : Nat → State → State) (hk : ∀ x0 x1, (k x0 x1).frozen = State.frozen x1) :
    (State.block s p typ content crc k).frozen = s.frozen := by
  simp [State.block, hk]

@[simp] theorem State.blockUp_frozen (s : State) (p : Nat) (typ : Nat) (content : BitVec 48) (crc : BitVec 8) (k : Nat → State → State) (hk : ∀ x0 x1, (k x0 x1).frozen = State.frozen x1) :
    (State.blockUp s p typ content crc k).frozen = s.frozen := by
  simp [State.blockUp, hk]

@[simp] theorem doId0_frozen (p : Nat) (content : BitVec 48) (crc : BitVec 8) (s : State) :
    (doId0 p content crc s).frozen = s.frozen := by
  simp [doId0]

@[simp] theorem doId1_frozen (p : Nat) (content : BitVec 48) (crc : BitVec 8) (s : State) :
    (doId1 p content crc s).frozen = s.frozen := by
  unfold doId1; (repeat' (first | with_reducible rfl | refine State.block_frozen _ _ _ _ _ _ (fun _ _ => ?_) | (simp []; done) | (split <;> try (rename_i heq; obtain ⟨_, rfl⟩ := Prod.ext_iff.mp heq)) | refine (State.frozen_foldl _ (fun _ _ => ?_) _ _).trans ?_ | dsimp only | simp []))

@[simp] theorem doCredit_frozen (p : Nat) (content : BitVec 48) (crc : BitVec 8) (s : State) :
    (doCredit p content crc s).frozen = s.frozen := by
  simp [doCredit]

@[simp] theorem doAck_frozen (p : Nat) (content : BitVec 48) (crc : BitVec 8) (s : State) :
    (doAck p content crc s).frozen = s.frozen := by
  simp [doAck]

@[simp] theorem State.resend_frozen (s : State) (p : Nat) (l : List SentPacket) :
    (State.resend s p l).frozen = s.frozen := by
  simp [State.resend]

@[simp] theorem doNak_frozen (p : Nat) (content : BitVec 48) (crc : BitVec 8) (s : State) :
    (doNak p content crc s).frozen = s.frozen := by
  simp [doNak]

@[simp] theorem doReplayTimeout_frozen (p : Nat) (s : State) :
    (doReplayTimeout p s).frozen = s.frozen := by
  simp [doReplayTimeout]

@[simp] theorem doCreditTimer_frozen (p : Nat) (s : State) :
    (doCreditTimer p s).frozen = s.frozen := by
  simp [doCreditTimer]

@[simp] theorem doAckTimer_frozen (p : Nat) (s : State) :
    (doAckTimer p s).frozen = s.frozen := by
  simp [doAckTimer]

@[simp] theorem State.freeFlits_frozen (s : State) (p : Nat) (v : Nat) (n : Nat) :
    (State.freeFlits s p v n).frozen = s.frozen := by
  simp [State.freeFlits]

@[simp] theorem State.sendNak_frozen (s : State) (p : Nat) :
    (State.sendNak s p).frozen = s.frozen := by
  simp [State.sendNak]

@[simp] theorem State.acceptPacket_frozen (s : State) (p : Nat) (k : Packet) :
    (State.acceptPacket s p k).frozen = s.frozen := by
  simp [State.acceptPacket]

@[simp] theorem doPacketReceive_frozen (p : Nat) (flits : List (BitVec 64)) (s : State) :
    (doPacketReceive p flits s).frozen = s.frozen := by
  unfold doPacketReceive; (repeat' (first | with_reducible rfl | (simp []; done) | (split <;> try (rename_i heq; obtain ⟨_, rfl⟩ := Prod.ext_iff.mp heq)) | refine (State.frozen_foldl _ (fun _ _ => ?_) _ _).trans ?_ | dsimp only | simp []))

@[simp] theorem State.afterCopy_frozen (s : State) (src : Nat) (e : InPacket) (f : InPacket) (rest : Bool) :
    (State.afterCopy s src e f rest).frozen = s.frozen := by
  simp [State.afterCopy]

theorem State.sendOne_frozen (s : State) (p : Nat) :
    ∀ t, (State.sendOne s p) = some t → t.frozen = s.frozen := by
  unfold State.sendOne; (repeat' (first | with_reducible rfl | (simp []; done) | (split <;> try (rename_i heq; obtain ⟨_, rfl⟩ := Prod.ext_iff.mp heq)) | refine (State.frozen_foldl _ (fun _ _ => ?_) _ _).trans ?_ | dsimp only | simp []))

@[simp] theorem State.trimBroadcasts_frozen (s : State) :
    (State.trimBroadcasts s).frozen = s.frozen := by
  simp [State.trimBroadcasts]

@[simp] theorem State.discardLost_frozen (s : State) :
    (State.discardLost s).frozen = s.frozen := by
  simp [State.discardLost]

@[simp] theorem State.feltFlow_frozen (v0 : Nat) (s : State) :
    (State.feltFlow v0 s).frozen = s.frozen := by
  induction v0 generalizing s with
  | zero => rfl
  | succ fuel ih =>
    simp only [State.feltFlow]
    split
    · rename_i s1 heq
      obtain ⟨p, _, hp⟩ := List.exists_of_findSome?_eq_some heq
      exact (ih _).trans (State.sendOne_frozen _ _ _ hp)
    · rfl

@[simp] theorem State.feltRun_frozen (s : State) :
    (State.feltRun s).frozen = s.frozen := by
  simp [State.feltRun]

@[simp] theorem State.setSync_frozen (s : State) (k : Nat) :
    (State.setSync s k).frozen = s.frozen := by
  simp [State.setSync]

@[simp] theorem State.showSync_frozen (s : State) :
    (State.showSync s).frozen = s.frozen := by
  unfold State.showSync; (repeat' (first | with_reducible rfl | (simp []; done) | (split <;> try (rename_i heq; obtain ⟨_, rfl⟩ := Prod.ext_iff.mp heq)) | refine (State.frozen_foldl _ (fun _ _ => ?_) _ _).trans ?_ | dsimp only | simp []))

@[simp] theorem doSyncExchange_frozen (p : Nat) (t1 : BitVec 64) (s : State) :
    (doSyncExchange p t1 s).frozen = s.frozen := by
  simp [doSyncExchange]

@[simp] theorem doSyncReq_frozen (p : Nat) (content : BitVec 48) (crc : BitVec 8) (t2 : BitVec 64) (t3 : BitVec 64) (s : State) :
    (doSyncReq p content crc t2 t3 s).frozen = s.frozen := by
  simp [doSyncReq]

@[simp] theorem doSyncRsp_frozen (p : Nat) (content : BitVec 48) (crc : BitVec 8) (t4 : BitVec 64) (s : State) :
    (doSyncRsp p content crc t4 s).frozen = s.frozen := by
  unfold doSyncRsp; (repeat' (first | with_reducible rfl | refine State.blockUp_frozen _ _ _ _ _ _ (fun _ _ => ?_) | (simp []; done) | (split <;> try (rename_i heq; obtain ⟨_, rfl⟩ := Prod.ext_iff.mp heq)) | refine (State.frozen_foldl _ (fun _ _ => ?_) _ _).trans ?_ | dsimp only | simp []))

@[simp] theorem doSyncPulseTimer_frozen (t : BitVec 64) (hi : Bool) (s : State) :
    (doSyncPulseTimer t hi s).frozen = s.frozen := by
  simp [doSyncPulseTimer]

@[simp] theorem doSyncInfo_frozen (p : Nat) (content : BitVec 48) (crc : BitVec 8) (s : State) :
    (doSyncInfo p content crc s).frozen = s.frozen := by
  simp [doSyncInfo]

@[simp] theorem doTimeHi_frozen (p : Nat) (content : BitVec 48) (crc : BitVec 8) (s : State) :
    (doTimeHi p content crc s).frozen = s.frozen := by
  simp [doTimeHi]

@[simp] theorem doHoldoverTimeout_frozen (s : State) :
    (doHoldoverTimeout s).frozen = s.frozen := by
  simp [doHoldoverTimeout]

@[simp] theorem State.slew_frozen (s : State) :
    (State.slew s).frozen = s.frozen := by
  simp [State.slew]

@[simp] theorem State.setTime_frozen (s : State) (t : Nat) :
    (State.setTime s t).frozen = s.frozen := by
  simp [State.setTime]

@[simp] theorem syncPulse.countPulse_frozen (offset : Int) (s : State) :
    (syncPulse.countPulse offset s).frozen = s.frozen := by
  simp [syncPulse.countPulse]

@[simp] theorem syncPulse_frozen (k : Nat → State → State) (p : Nat) (content : BitVec 48) (crc : BitVec 8) (ta : BitVec 64) (s : State) (hk : ∀ x0 x1, (k x0 x1).frozen = State.frozen x1) :
    (syncPulse k p content crc ta s).frozen = s.frozen := by
  unfold syncPulse
  refine State.blockUp_frozen _ _ _ _ _ _ (fun c t => ?_)
  split
  · rfl
  · dsimp only
    split
    · split
      · rw [hk, State.setTime_frozen, State.frozen_update, State.setFld_frozen]
      · rw [syncPulse.countPulse_frozen, State.setFld_frozen]
    · split
      · exact State.setFld_frozen _ _ _
      · rw [syncPulse.countPulse_frozen, State.setFld_frozen]

@[simp] theorem State.tickTime_frozen (s : State) :
    (State.tickTime s).frozen = s.frozen := by
  simp [State.tickTime]

end Sys2Proof.Machine
end

