-- ==== Sys2Proof/Laws/Frozen/FeltMsg.lean ====
section
/-! SUPPORT. What the operations of Sys2Proof/Machine/FeltMsg.lean leave alone: the queue, the fuses in effect, the reset lines,
the reference, the test access port and the count of hot resets. -/

namespace Sys2Proof.Machine

open Sys2Proof

set_option linter.unusedTactic false
set_option linter.unreachableTactic false
set_option linter.unusedSimpArgs false

@[simp] theorem State.taken'_frozen (s : State) (p : Nat) (e : InPacket) :
    (State.taken' s p e).frozen = s.frozen := by
  simp [State.taken']

@[simp] theorem message_frozen (typ : Nat) (k : Nat → Packet → State → Option State) (p : Nat) (s : State) (hk : ∀ x0 x1 x2 t, (k x0 x1 x2) = some t → t.frozen = State.frozen x2) :
    (message typ k p s).frozen = s.frozen := by
  unfold message
  split
  · rfl
  · rename_i e _
    split
    · rename_i s1 heq
      exact (hk _ _ _ _ heq).trans (State.taken'_frozen _ _ _)
    · rfl

@[simp] theorem wakingMessage_frozen (typ : Nat) (k : Nat → Packet → State → Bool × State) (p : Nat) (s : State) (hk : ∀ x0 x1 x2, (k x0 x1 x2).2.frozen = State.frozen x2) :
    (wakingMessage typ k p s).frozen = s.frozen := by
  unfold wakingMessage; (repeat' (first | with_reducible rfl | (simp [hk]; done) | (split <;> try (rename_i heq; obtain ⟨_, rfl⟩ := Prod.ext_iff.mp heq)) | refine (State.frozen_foldl _ (fun _ _ => ?_) _ _).trans ?_ | dsimp only | simp [hk]))

@[simp] theorem State.answer_frozen (s : State) (k : Packet) (typ : Nat) (st : Nat) (kind : Nat) (data : List Byte) (poison : Nat) :
    (State.answer s k typ st kind data poison).frozen = s.frozen := by
  simp [State.answer]

@[simp] theorem State.writePayload_frozen (s : State) (x : MemCtx) (va : Nat) (data : List Byte) (poison : Nat) :
    (State.writePayload s x va data poison).2.frozen = s.frozen := by
  simp [State.writePayload]

@[simp] theorem doWriteReq_frozen (v0 : Nat) (s : State) :
    (doWriteReq v0 s).frozen = s.frozen := by
  unfold doWriteReq; (repeat' (first | with_reducible rfl | refine wakingMessage_frozen _ _ _ _ (fun _ _ _ => ?_) | (simp []; done) | (split <;> try (rename_i heq; obtain ⟨_, rfl⟩ := Prod.ext_iff.mp heq)) | refine (State.frozen_foldl _ (fun _ _ => ?_) _ _).trans ?_ | dsimp only | simp []))

@[simp] theorem doReadReq_frozen (v0 : Nat) (s : State) :
    (doReadReq v0 s).frozen = s.frozen := by
  unfold doReadReq; (repeat' (first | with_reducible rfl | refine wakingMessage_frozen _ _ _ _ (fun _ _ _ => ?_) | (simp []; done) | (split <;> try (rename_i heq; obtain ⟨_, rfl⟩ := Prod.ext_iff.mp heq)) | refine (State.frozen_foldl _ (fun _ _ => ?_) _ _).trans ?_ | dsimp only | simp []))

@[simp] theorem State.modCopy_frozen (s : State) (c : Cmd) (f : FeltCopy → FeltCopy) :
    (State.modCopy s c f).frozen = s.frozen := by
  simp [State.modCopy]

@[simp] theorem State.endCopy_frozen (s : State) (x : FeltCopy) (st : Nat) (va : Nat) (kind : Nat) (side : Nat) :
    (State.endCopy s x st va kind side).frozen = s.frozen := by
  simp [State.endCopy]

@[simp] theorem State.sendCopy_frozen (s : State) (x : FeltCopy) (typ : Nat) (v3 : List (Nat × Nat × List Byte × Nat)) :
    (State.sendCopy s x typ v3).frozen = s.frozen := by
  induction v3 generalizing s x typ <;> unfold State.sendCopy <;> (repeat' (first | with_reducible rfl | (simp [*]; done) | (split <;> try (rename_i heq; obtain ⟨_, rfl⟩ := Prod.ext_iff.mp heq)) | refine (State.frozen_foldl _ (fun _ _ => ?_) _ _).trans ?_ | dsimp only | simp []))

@[simp] theorem State.startCopyChunk_frozen (s : State) (x : FeltCopy) :
    (State.startCopyChunk s x).frozen = s.frozen := by
  unfold State.startCopyChunk; (repeat' (first | with_reducible rfl | (simp []; done) | (split <;> try (rename_i heq; obtain ⟨_, rfl⟩ := Prod.ext_iff.mp heq)) | refine (State.frozen_foldl _ (fun _ _ => ?_) _ _).trans ?_ | dsimp only | simp []))

@[simp] theorem State.endCopyChunk_frozen (s : State) (x : FeltCopy) :
    (State.endCopyChunk s x).frozen = s.frozen := by
  unfold State.endCopyChunk; (repeat' (first | with_reducible rfl | (simp []; done) | (split <;> try (rename_i heq; obtain ⟨_, rfl⟩ := Prod.ext_iff.mp heq)) | refine (State.frozen_foldl _ (fun _ _ => ?_) _ _).trans ?_ | dsimp only | simp []))

@[simp] theorem State.copyStep_frozen (s : State) :
    (State.copyStep s).frozen = s.frozen := by
  unfold State.copyStep; (repeat' (first | with_reducible rfl | (simp []; done) | (split <;> try (rename_i heq; obtain ⟨_, rfl⟩ := Prod.ext_iff.mp heq)) | refine (State.frozen_foldl _ (fun _ _ => ?_) _ _).trans ?_ | dsimp only | simp []))

@[simp] theorem State.copyRun_frozen (v0 : Nat) (s : State) :
    (State.copyRun v0 s).frozen = s.frozen := by
  induction v0 generalizing s <;> unfold State.copyRun <;> (repeat' (first | with_reducible rfl | (simp [*]; done) | (split <;> try (rename_i heq; obtain ⟨_, rfl⟩ := Prod.ext_iff.mp heq)) | refine (State.frozen_foldl _ (fun _ _ => ?_) _ _).trans ?_ | dsimp only | simp []))

@[simp] theorem doFeltCopy_frozen (c : Cmd) (s : State) :
    (doFeltCopy c s).frozen = s.frozen := by
  simp [doFeltCopy]

@[simp] theorem State.answered'_frozen (s : State) (tid : Nat) (f : FeltCopy → CopyMsg → FeltCopy) :
    (State.answered' s tid f).frozen = s.frozen := by
  unfold State.answered'; (repeat' (first | with_reducible rfl | (simp []; done) | (split <;> try (rename_i heq; obtain ⟨_, rfl⟩ := Prod.ext_iff.mp heq)) | refine (State.frozen_foldl _ (fun _ _ => ?_) _ _).trans ?_ | dsimp only | simp []))

@[simp] theorem doWriteRsp_frozen (v0 : Nat) (s : State) :
    (doWriteRsp v0 s).frozen = s.frozen := by
  simp [doWriteRsp]

@[simp] theorem doReadRsp_frozen (v0 : Nat) (s : State) :
    (doReadRsp v0 s).frozen = s.frozen := by
  simp [doReadRsp]

@[simp] theorem doRspTimeout_frozen (tid : Nat) (s : State) :
    (doRspTimeout tid s).frozen = s.frozen := by
  simp [doRspTimeout]

@[simp] theorem State.handBody_frozen (s : State) (r : Reassembly) :
    (State.handBody s r).2.frozen = s.frozen := by
  unfold State.handBody; (repeat' (first | with_reducible rfl | (simp []; done) | (split <;> try (rename_i heq; obtain ⟨_, rfl⟩ := Prod.ext_iff.mp heq)) | refine (State.frozen_foldl _ (fun _ _ => ?_) _ _).trans ?_ | dsimp only | simp []))

@[simp] theorem State.handBodies_frozen (s : State) :
    (State.handBodies s).frozen = s.frozen := by
  unfold State.handBodies; (repeat' (first | with_reducible rfl | (simp []; done) | (split <;> try (rename_i heq; obtain ⟨_, rfl⟩ := Prod.ext_iff.mp heq)) | refine (State.frozen_foldl _ (fun _ _ => ?_) _ _).trans ?_ | dsimp only | simp []))

@[simp] theorem doReduce_frozen (v0 : Nat) (s : State) :
    (doReduce v0 s).frozen = s.frozen := by
  simp [doReduce]

@[simp] theorem doReassemblyTimeout_frozen (k : Nat) (s : State) :
    (doReassemblyTimeout k s).frozen = s.frozen := by
  unfold doReassemblyTimeout; (repeat' (first | with_reducible rfl | (simp []; done) | (split <;> try (rename_i heq; obtain ⟨_, rfl⟩ := Prod.ext_iff.mp heq)) | refine (State.frozen_foldl _ (fun _ _ => ?_) _ _).trans ?_ | dsimp only | simp []))

@[simp] theorem doLinkState_frozen (v0 : Nat) (s : State) :
    (doLinkState v0 s).frozen = s.frozen := by
  unfold doLinkState; (repeat' (first | with_reducible rfl | refine message_frozen _ _ _ _ (fun _ _ _ => ?_) | (simp []; done) | (split <;> try (rename_i heq; obtain ⟨_, rfl⟩ := Prod.ext_iff.mp heq)) | refine (State.frozen_foldl _ (fun _ _ => ?_) _ _).trans ?_ | dsimp only | simp []))

@[simp] theorem State.showStarts_frozen (s : State) :
    (State.showStarts s).frozen = s.frozen := by
  simp [State.showStarts]

@[simp] theorem State.armStart_frozen (s : State) (id : Nat) (t : Nat) :
    (State.armStart s id t).2.frozen = s.frozen := by
  unfold State.armStart; (repeat' (first | with_reducible rfl | (simp []; done) | (split <;> try (rename_i heq; obtain ⟨_, rfl⟩ := Prod.ext_iff.mp heq)) | refine (State.frozen_foldl _ (fun _ _ => ?_) _ _).trans ?_ | dsimp only | simp []))

@[simp] theorem State.dropBound_frozen (s : State) (st : Nat) (b : Nat) :
    (State.dropBound s st b).frozen = s.frozen := by
  unfold State.dropBound; (repeat' (first | with_reducible rfl | (simp []; done) | (split <;> try (rename_i heq; obtain ⟨_, rfl⟩ := Prod.ext_iff.mp heq)) | refine (State.frozen_foldl _ (fun _ _ => ?_) _ _).trans ?_ | dsimp only | simp []))

@[simp] theorem State.freeStart_frozen (s : State) (k : Nat) :
    (State.freeStart s k).frozen = s.frozen := by
  simp [State.freeStart]

@[simp] theorem State.fireStart_frozen (s : State) (k : Nat) :
    (State.fireStart s k).frozen = s.frozen := by
  simp [State.fireStart]

@[simp] theorem doScheduledStart_frozen (k : Nat) (s : State) :
    (doScheduledStart k s).frozen = s.frozen := by
  simp [doScheduledStart]

@[simp] theorem doStartFillDeadline_frozen (k : Nat) (s : State) :
    (doStartFillDeadline k s).frozen = s.frozen := by
  simp [doStartFillDeadline]

@[simp] theorem doStartAlign_frozen (k : Nat) (s : State) :
    (doStartAlign k s).frozen = s.frozen := by
  simp [doStartAlign]

@[simp] theorem timeStepped_frozen (old : Nat) (s : State) :
    (timeStepped old s).frozen = s.frozen := by
  simp [timeStepped]

@[simp] theorem doSyncPulse_frozen (p : Nat) (content : BitVec 48) (crc : BitVec 8) (ta : BitVec 64) (s : State) :
    (doSyncPulse p content crc ta s).frozen = s.frozen := by
  simp [doSyncPulse]

@[simp] theorem State.bindPrograms_frozen (s : State) :
    (State.bindPrograms s).frozen = s.frozen := by
  unfold State.bindPrograms; (repeat' (first | with_reducible rfl | (simp []; done) | (split <;> try (rename_i heq; obtain ⟨_, rfl⟩ := Prod.ext_iff.mp heq)) | refine (State.frozen_foldl _ (fun _ _ => ?_) _ _).trans ?_ | dsimp only | simp []))

@[simp] theorem doStart_frozen (v0 : Nat) (s : State) :
    (doStart v0 s).frozen = s.frozen := by
  simp [doStart]

@[simp] theorem State.cancelStart_frozen (s : State) (id : Nat) :
    (State.cancelStart s id).2.frozen = s.frozen := by
  unfold State.cancelStart; (repeat' (first | with_reducible rfl | (simp []; done) | (split <;> try (rename_i heq; obtain ⟨_, rfl⟩ := Prod.ext_iff.mp heq)) | refine (State.frozen_foldl _ (fun _ _ => ?_) _ _).trans ?_ | dsimp only | simp []))

@[simp] theorem doCancel_frozen (v0 : Nat) (s : State) :
    (doCancel v0 s).frozen = s.frozen := by
  simp [doCancel]

@[simp] theorem State.endAsk_frozen (s : State) (a : StartAsk) :
    (State.endAsk s a).frozen = s.frozen := by
  simp [State.endAsk]

@[simp] theorem State.endAsks_frozen (s : State) :
    (State.endAsks s).frozen = s.frozen := by
  simp [State.endAsks]

@[simp] theorem doStartAck_frozen (v0 : Nat) (s : State) :
    (doStartAck v0 s).frozen = s.frozen := by
  unfold doStartAck; (repeat' (first | with_reducible rfl | refine message_frozen _ _ _ _ (fun _ _ _ => ?_) | (simp []; done) | (split <;> try (rename_i heq; obtain ⟨_, rfl⟩ := Prod.ext_iff.mp heq)) | refine (State.frozen_foldl _ (fun _ _ => ?_) _ _).trans ?_ | dsimp only | simp []))

@[simp] theorem State.askAll_frozen (s : State) (c : Cmd) (id : Nat) (cancels : Bool) (ok : Bool) :
    (State.askAll s c id cancels ok).frozen = s.frozen := by
  simp [State.askAll]

@[simp] theorem doFeltSchedule_frozen (c : Cmd) (s : State) :
    (doFeltSchedule c s).frozen = s.frozen := by
  simp [doFeltSchedule]

@[simp] theorem doFeltCancel_frozen (c : Cmd) (s : State) :
    (doFeltCancel c s).frozen = s.frozen := by
  simp [doFeltCancel]

@[simp] theorem doScheduleTimeout_frozen (k : Nat) (s : State) :
    (doScheduleTimeout k s).frozen = s.frozen := by
  unfold doScheduleTimeout; (repeat' (first | with_reducible rfl | (simp []; done) | (split <;> try (rename_i heq; obtain ⟨_, rfl⟩ := Prod.ext_iff.mp heq)) | refine (State.frozen_foldl _ (fun _ _ => ?_) _ _).trans ?_ | dsimp only | simp []))

@[simp] theorem doFeltTimeSet_frozen (c : Cmd) (s : State) :
    (doFeltTimeSet c s).frozen = s.frozen := by
  simp [doFeltTimeSet]

@[simp] theorem State.feltLayerReset_frozen (s : State) :
    (State.feltLayerReset s).frozen = s.frozen := by
  simp [State.feltLayerReset]

end Sys2Proof.Machine
end

