-- ==== Sys2Proof/Laws/Frozen/Power.lean ====
section
/-! SUPPORT. What the operations of Sys2Proof/Machine/Power.lean leave alone: the queue, the fuses in effect, the reset lines,
the reference, the test access port and the count of hot resets. -/

namespace Sys2Proof.Machine

open Sys2Proof

set_option linter.unusedTactic false
set_option linter.unreachableTactic false
set_option linter.unusedSimpArgs false

@[simp] theorem State.modUsage_frozen (s : State) (f : Usage → Usage) :
    (State.modUsage s f).frozen = s.frozen := by
  simp [State.modUsage]

@[simp] theorem State.showNextEvent_frozen (s : State) :
    (State.showNextEvent s).frozen = s.frozen := by
  simp [State.showNextEvent]

@[simp] theorem doIdleChoice_frozen (s : State) :
    (doIdleChoice s).frozen = s.frozen := by
  simp [doIdleChoice]

@[simp] theorem doIdleEntryEnd_frozen (s : State) :
    (doIdleEntryEnd s).frozen = s.frozen := by
  simp [doIdleEntryEnd]

@[simp] theorem doIdleExit_frozen (s : State) :
    (doIdleExit s).frozen = s.frozen := by
  simp [doIdleExit]

@[simp] theorem State.watchIdle_frozen (s : State) :
    (State.watchIdle s).frozen = s.frozen := by
  simp [State.watchIdle]

@[simp] theorem State.showAllReady_frozen (s : State) :
    (State.showAllReady s).frozen = s.frozen := by
  simp [State.showAllReady]

@[simp] theorem doIdleExitEnd_frozen (s : State) :
    (doIdleExitEnd s).frozen = s.frozen := by
  simp [doIdleExitEnd]

@[simp] theorem doNextEvent_frozen (c : Cmd) (s : State) :
    (doNextEvent c s).frozen = s.frozen := by
  simp [doNextEvent]

@[simp] theorem doWake_frozen (left : Nat) (c : Cmd) (s : State) :
    (doWake left c s).frozen = s.frozen := by
  simp [doWake]

@[simp] theorem doUsageRead_frozen (c : Cmd) (s : State) :
    (doUsageRead c s).frozen = s.frozen := by
  unfold doUsageRead
  refine State.checked_frozen _ _ _ _ (fun t => ?_)
  have h := State.memWrite_frozen t { engine := 9, unit := 0 } (c.field 16 8) t.usageBody false
  dsimp only
  split
  · exact (State.complete_frozen _ _ _ _).trans h
  · split
    · split
      · exact (State.requestStore_frozen _ _).trans h
      · exact (State.complete_frozen _ _ _ _).trans h
    · exact (State.hold_frozen _ _ _).trans h

@[simp] theorem doUsageLogWrite_frozen (s : State) :
    (doUsageLogWrite s).frozen = s.frozen := by
  simp [doUsageLogWrite]

@[simp] theorem State.checkSensor_frozen (s : State) (apart : Nat → Bool) (k : Nat) :
    (State.checkSensor s apart k).frozen = s.frozen := by
  simp [State.checkSensor]

@[simp] theorem State.thermalSample_frozen (s : State) (temps : List (BitVec 16)) :
    (State.thermalSample s temps).2.frozen = s.frozen := by
  simp [State.thermalSample]

@[simp] theorem doThrottleUpdate_frozen (s : State) :
    (doThrottleUpdate s).frozen = s.frozen := by
  simp [doThrottleUpdate]

@[simp] theorem doSensorReadmit_frozen (k : Nat) (s : State) :
    (doSensorReadmit k s).frozen = s.frozen := by
  simp [doSensorReadmit]

@[simp] theorem State.markSuspect_frozen (s : State) :
    (State.markSuspect s).frozen = s.frozen := by
  simp [State.markSuspect]

@[simp] theorem doSupplyWarning_frozen (r : Nat) (s : State) :
    (doSupplyWarning r s).frozen = s.frozen := by
  simp [doSupplyWarning]

@[simp] theorem doSupplyRecovery_frozen (r : Nat) (s : State) :
    (doSupplyRecovery r s).frozen = s.frozen := by
  unfold doSupplyRecovery; (repeat' (first | with_reducible rfl | (simp []; done) | (split <;> try (rename_i heq; obtain ⟨_, rfl⟩ := Prod.ext_iff.mp heq)) | refine (State.frozen_foldl _ (fun _ _ => ?_) _ _).trans ?_ | dsimp only | simp []))

@[simp] theorem doAgeingMeasure_frozen (c : Nat) (ppm : BitVec 32) (s : State) :
    (doAgeingMeasure c ppm s).frozen = s.frozen := by
  simp [doAgeingMeasure]

end Sys2Proof.Machine
end

