-- ==== Sys2Proof/Laws/Frozen/Bar.lean ====
section
/-! SUPPORT. What the operations of Sys2Proof/Machine/Bar.lean leave alone: the queue, the fuses in effect, the reset lines,
the reference, the test access port and the count of hot resets. -/

namespace Sys2Proof.Machine

open Sys2Proof

set_option linter.unusedTactic false
set_option linter.unreachableTactic false
set_option linter.unusedSimpArgs false

@[simp] theorem State.zeroQuads_frozen (s : State) (a : Nat) (n : Nat) :
    (State.zeroQuads s a n).frozen = s.frozen := by
  simp [State.zeroQuads]

@[simp] theorem State.clearCounts_frozen (s : State) (a : Nat) :
    (State.clearCounts s a).frozen = s.frozen := by
  simp [State.clearCounts]

@[simp] theorem State.wroteLow_frozen (s : State) (old : State) (a : Nat) (lo : Nat) (x : Nat) :
    (State.wroteLow s old a lo x).frozen = s.frozen := by
  simp [State.wroteLow]

@[simp] theorem State.wroteCluster_frozen (s : State) (a : Nat) (lo : Nat) :
    (State.wroteCluster s a lo).frozen = s.frozen := by
  simp [State.wroteCluster]

@[simp] theorem State.wroteSeq_frozen (s : State) (a : Nat) (x : Nat) :
    (State.wroteSeq s a x).frozen = s.frozen := by
  simp [State.wroteSeq]

@[simp] theorem State.wroteAnalog_frozen (s : State) (a : Nat) (lo : Nat) :
    (State.wroteAnalog s a lo).frozen = s.frozen := by
  simp [State.wroteAnalog]

@[simp] theorem State.wrote_frozen (s : State) (old : State) (a : Nat) (lo : Nat) (x : Nat) :
    (State.wrote s old a lo x).frozen = s.frozen := by
  simp [State.wrote]

@[simp] theorem State.barPut_frozen (s : State) (a : Nat) (lo : Nat) (w : Nat) (v : Nat) :
    (State.barPut s a lo w v).frozen = s.frozen := by
  unfold State.barPut; (repeat' (first | with_reducible rfl | (simp []; done) | (split <;> try (rename_i heq; obtain ⟨_, rfl⟩ := Prod.ext_iff.mp heq)) | refine (State.frozen_foldl _ (fun _ _ => ?_) _ _).trans ?_ | dsimp only | simp []))

@[simp] theorem State.barAligned_frozen (s : State) (a : Nat) (wide : Bool) (v : Nat) :
    (State.barAligned s a wide v).frozen = s.frozen := by
  simp [State.barAligned]

@[simp] theorem State.badAccess_frozen (s : State) (a : Nat) :
    (State.badAccess s a).frozen = s.frozen := by
  simp [State.badAccess]

@[simp] theorem State.barForce_frozen (s : State) (a : Nat) (wide : Bool) (v : Nat) :
    (State.barForce s a wide v).frozen = s.frozen := by
  simp [State.barForce]

@[simp] theorem State.barWrite_frozen (s : State) (a : Nat) (wide : Bool) (v : Nat) :
    (State.barWrite s a wide v).frozen = s.frozen := by
  simp [State.barWrite]

@[simp] theorem State.barPartWrite_frozen (s : State) (a : Nat) (part : RegPart) (v : Nat) :
    (State.barPartWrite s a part v).frozen = s.frozen := by
  unfold State.barPartWrite; (repeat' (first | with_reducible rfl | (simp []; done) | (split <;> try (rename_i heq; obtain ⟨_, rfl⟩ := Prod.ext_iff.mp heq)) | refine (State.frozen_foldl _ (fun _ _ => ?_) _ _).trans ?_ | dsimp only | simp []))

@[simp] theorem State.hostRead_frozen (s : State) (a : Nat) (size : Nat) :
    (State.hostRead s a size).2.frozen = s.frozen := by
  simp [State.hostRead]

end Sys2Proof.Machine
end

