-- ==== Sys2Proof/Laws/Frozen/Deckle.lean ====
section
/-! SUPPORT. What the operations of Sys2Proof/Machine/Deckle.lean leave alone: the queue, the fuses in effect, the reset lines,
the reference, the test access port and the count of hot resets. -/

namespace Sys2Proof.Machine

open Sys2Proof

set_option linter.unusedTactic false
set_option linter.unreachableTactic false
set_option linter.unusedSimpArgs false

@[simp] theorem State.markRecords_frozen (s : State) (b : Nat) (site : Nat) :
    (State.markRecords s b site).frozen = s.frozen := by
  simp [State.markRecords]

@[simp] theorem State.closePin_frozen (s : State) (x : SitePos) (cut : List PartialConv) (p : Nat) :
    (State.closePin s x cut p).frozen = s.frozen := by
  unfold State.closePin; (repeat' (first | with_reducible rfl | (simp []; done) | (split <;> try (rename_i heq; obtain ⟨_, rfl⟩ := Prod.ext_iff.mp heq)) | refine (State.frozen_foldl _ (fun _ _ => ?_) _ _).trans ?_ | dsimp only | simp []))

@[simp] theorem State.untest_frozen (s : State) (b : Nat) (p : Nat) :
    (State.untest s b p).frozen = s.frozen := by
  unfold State.untest; (repeat' (first | with_reducible rfl | (simp []; done) | (split <;> try (rename_i heq; obtain ⟨_, rfl⟩ := Prod.ext_iff.mp heq)) | refine (State.frozen_foldl _ (fun _ _ => ?_) _ _).trans ?_ | dsimp only | simp []))

@[simp] theorem State.siteDropped_frozen (s : State) (b : Nat) (p : Nat) :
    (State.siteDropped s b p).frozen = s.frozen := by
  unfold State.siteDropped; (repeat' (first | with_reducible rfl | refine State.scheduleOr_frozen _ _ _ (fun _ => ?_) | (simp []; done) | (split <;> try (rename_i heq; obtain ⟨_, rfl⟩ := Prod.ext_iff.mp heq)) | refine (State.frozen_foldl _ (fun _ _ => ?_) _ _).trans ?_ | dsimp only | simp []))

@[simp] theorem State.deckleRecord_frozen (s : State) (b : Nat) (site : Nat) (cause : Nat) (time : Nat) (last : Nat) :
    (State.deckleRecord s b site cause time last).frozen = s.frozen := by
  simp [State.deckleRecord]

@[simp] theorem doDeckleClosure_frozen (b : Nat) (p : Nat) (cut : List PartialConv) (s : State) :
    (doDeckleClosure b p cut s).frozen = s.frozen := by
  unfold doDeckleClosure; (repeat' (first | with_reducible rfl | (simp []; done) | (split <;> try (rename_i heq; obtain ⟨_, rfl⟩ := Prod.ext_iff.mp heq)) | refine (State.frozen_foldl _ (fun _ _ => ?_) _ _).trans ?_ | dsimp only | simp []))

end Sys2Proof.Machine
end

