-- ==== Sys2Proof/Laws/Frozen/Security.lean ====
section
/-! SUPPORT. What the operations of Sys2Proof/Machine/Security.lean leave alone: the queue, the fuses in effect, the reset lines,
the reference, the test access port and the count of hot resets. -/

namespace Sys2Proof.Machine

open Sys2Proof

set_option linter.unusedTactic false
set_option linter.unreachableTactic false
set_option linter.unusedSimpArgs false

@[simp] theorem State.security_frozen (s : State) (info : Nat) :
    (State.security s info).frozen = s.frozen := by
  simp [State.security]

@[simp] theorem State.mgmtWrite_frozen (s : State) (c : Cmd) (va : Nat) (data : List Byte) (k : State → State) (hk : ∀ x0, (k x0).frozen = State.frozen x0) :
    (State.mgmtWrite s c va data k).frozen = s.frozen := by
  unfold State.mgmtWrite; (repeat' (first | with_reducible rfl | (simp [hk]; done) | (split <;> try (rename_i heq; obtain ⟨_, rfl⟩ := Prod.ext_iff.mp heq)) | refine (State.frozen_foldl _ (fun _ _ => ?_) _ _).trans ?_ | dsimp only | simp [hk]))

@[simp] theorem doFwUpdate_frozen (c : Cmd) (s : State) :
    (doFwUpdate c s).frozen = s.frozen := by
  unfold doFwUpdate
  extract_lets va n
  split
  · simp
  · split
    · simp
    · refine State.withReadOr_frozen _ _ _ _ _ _ _ _ (fun _ => ?_) (fun img t => ?_)
      · simp
      · split
        · split
          · simp
          · extract_lets svn job s1 jobs
            have h1 : s1.frozen = t.frozen := State.setFlag_frozen _ _ _
            clear_value s1
            simp [h1]
        · simp

@[simp] theorem doOemProvision_frozen (c : Cmd) (s : State) :
    (doOemProvision c s).frozen = s.frozen := by
  simp [doOemProvision]

@[simp] theorem doOemConfig_frozen (c : Cmd) (s : State) :
    (doOemConfig c s).frozen = s.frozen := by
  simp [doOemConfig]

@[simp] theorem State.readRuns_frozen (s : State) (v1 : List (Nat × Nat)) (v2 : List Byte) :
    (State.readRuns s v1 v2).2.frozen = s.frozen := by
  induction v1 generalizing s v2 with
  | nil => rfl
  | cons q l ih =>
    simp only [State.readRuns]
    have h := State.memRead_frozen s { engine := 9, unit := 0 } q.1 q.2
    split
    · rename_i heq
      rw [heq] at h
      exact (ih _ _).trans h
    · exact h

@[simp] theorem State.segmentRuns_frozen (s : State) (v1 : List (Nat × Nat)) (v2 : List (Nat × Nat)) :
    (State.segmentRuns s v1 v2).2.frozen = s.frozen := by
  induction v1 generalizing s v2 with
  | nil => rfl
  | cons q l ih =>
    simp only [State.segmentRuns]
    have h := State.memRead_frozen s { engine := 9, unit := 0 } q.1 64
    split
    · rename_i hd s1 heq
      rw [heq] at h
      have h2 := State.memRead_frozen s1 { engine := 9, unit := 0 } (q.1 + 64) (8 * (q.2 * bytesField hd 6 1))
      split
      · rename_i heq2
        rw [heq2] at h2
        exact ((ih _ _).trans h2).trans h
      · rename_i heq2
        rw [heq2] at h2
        exact h2.trans h
    · rename_i heq
      rw [heq] at h
      exact h

@[simp] theorem State.logImage_frozen (s : State) (c : Cmd) (base : Nat) (digested : List (Nat × Nat)) (read : List (Nat × Nat)) (d : List Byte) :
    (State.logImage s c base digested read d).frozen = s.frozen := by
  simp [State.logImage]

@[simp] theorem State.readFailed_frozen (s : State) (c : Cmd) (r : Acc) :
    (State.readFailed s c r).frozen = s.frozen := by
  unfold State.readFailed; (repeat' (first | with_reducible rfl | (simp []; done) | (split <;> try (rename_i heq; obtain ⟨_, rfl⟩ := Prod.ext_iff.mp heq)) | refine (State.frozen_foldl _ (fun _ _ => ?_) _ _).trans ?_ | dsimp only | simp []))

@[simp] theorem doImageMeasure_frozen (c : Cmd) (s : State) :
    (doImageMeasure c s).frozen = s.frozen := by
  unfold doImageMeasure; (repeat' (first | with_reducible rfl | refine State.checked_frozen _ _ _ _ (fun _ => ?_) | refine State.mgmtRead_frozen _ _ _ _ _ (fun _ _ => ?_) | (simp []; done) | (split <;> try (rename_i heq; obtain ⟨_, rfl⟩ := Prod.ext_iff.mp heq)) | refine (State.frozen_foldl _ (fun _ _ => ?_) _ _).trans ?_ | dsimp only | simp []))

@[simp] theorem State.countSignature_frozen (s : State) :
    (State.countSignature s).frozen = s.frozen := by
  simp [State.countSignature]

@[simp] theorem doAttest_frozen (c : Cmd) (s : State) :
    (doAttest c s).frozen = s.frozen := by
  unfold doAttest; (repeat' (first | with_reducible rfl | refine State.checked_frozen _ _ _ _ (fun _ => ?_) | refine State.mgmtWrite_frozen _ _ _ _ _ (fun _ => ?_) | (simp []; done) | (split <;> try (rename_i heq; obtain ⟨_, rfl⟩ := Prod.ext_iff.mp heq)) | refine (State.frozen_foldl _ (fun _ _ => ?_) _ _).trans ?_ | dsimp only | simp []))

@[simp] theorem State.newPeriod_frozen (s : State) :
    (State.newPeriod s).frozen = s.frozen := by
  simp [State.newPeriod]

@[simp] theorem doSummarySign_frozen (c : Cmd) (s : State) :
    (doSummarySign c s).frozen = s.frozen := by
  simp [doSummarySign]

end Sys2Proof.Machine
end

