-- ==== Sys2Proof/Laws/Frozen/Flash.lean ====
section
/-! SUPPORT. What the operations of Sys2Proof/Machine/Flash.lean leave alone: the queue, the fuses in effect, the reset lines,
the reference, the test access port and the count of hot resets. -/

namespace Sys2Proof.Machine

open Sys2Proof

set_option linter.unusedTactic false
set_option linter.unreachableTactic false
set_option linter.unusedSimpArgs false

@[simp] theorem State.spoil_frozen (s : State) (a : Nat) (n : Nat) :
    (State.spoil s a n).frozen = s.frozen := by
  simp [State.spoil]

@[simp] theorem State.dropJob_frozen (s : State) (j : FlashJob) :
    (State.dropJob s j).frozen = s.frozen := by
  simp [State.dropJob]

@[simp] theorem State.jobFails_frozen (s : State) (j : FlashJob) :
    (State.jobFails s j).frozen = s.frozen := by
  unfold State.jobFails; (repeat' (first | with_reducible rfl | (simp []; done) | (split <;> try (rename_i heq; obtain ⟨_, rfl⟩ := Prod.ext_iff.mp heq)) | refine (State.frozen_foldl _ (fun _ _ => ?_) _ _).trans ?_ | dsimp only | simp []))

@[simp] theorem State.jobDone_frozen (s : State) (j : FlashJob) :
    (State.jobDone s j).frozen = s.frozen := by
  unfold State.jobDone; (repeat' (first | with_reducible rfl | (simp []; done) | (split <;> try (rename_i heq; obtain ⟨_, rfl⟩ := Prod.ext_iff.mp heq)) | refine (State.frozen_foldl _ (fun _ _ => ?_) _ _).trans ?_ | dsimp only | simp []))

@[simp] theorem State.frameEnds_frozen (s : State) (j : FlashJob) (f : FlashFrame) (rest : List FlashFrame) (good : Bool) :
    (State.frameEnds s j f rest good).frozen = s.frozen := by
  simp [State.frameEnds]

@[simp] theorem State.serveFetch_frozen (s : State) :
    (State.serveFetch s).frozen = s.frozen := by
  unfold State.serveFetch; (repeat' (first | with_reducible rfl | (simp []; done) | (split <;> try (rename_i heq; obtain ⟨_, rfl⟩ := Prod.ext_iff.mp heq)) | refine (State.frozen_foldl _ (fun _ _ => ?_) _ _).trans ?_ | dsimp only | simp []))

@[simp] theorem doFlashStatusRead_frozen (ready : Bool) (good : Bool) (s : State) :
    (doFlashStatusRead ready good s).frozen = s.frozen := by
  unfold doFlashStatusRead; (repeat' (first | with_reducible rfl | (simp []; done) | (split <;> try (rename_i heq; obtain ⟨_, rfl⟩ := Prod.ext_iff.mp heq)) | refine (State.frozen_foldl _ (fun _ _ => ?_) _ _).trans ?_ | dsimp only | simp []))

@[simp] theorem doFlashBusyTimeout_frozen (s : State) :
    (doFlashBusyTimeout s).frozen = s.frozen := by
  unfold doFlashBusyTimeout; (repeat' (first | with_reducible rfl | (simp []; done) | (split <;> try (rename_i heq; obtain ⟨_, rfl⟩ := Prod.ext_iff.mp heq)) | refine (State.frozen_foldl _ (fun _ _ => ?_) _ _).trans ?_ | dsimp only | simp []))

@[simp] theorem State.cutFrame_frozen (s : State) :
    (State.cutFrame s).frozen = s.frozen := by
  unfold State.cutFrame; (repeat' (first | with_reducible rfl | (simp []; done) | (split <;> try (rename_i heq; obtain ⟨_, rfl⟩ := Prod.ext_iff.mp heq)) | refine (State.frozen_foldl _ (fun _ _ => ?_) _ _).trans ?_ | dsimp only | simp []))

end Sys2Proof.Machine
end

