-- ==== Sys2Proof/Laws/Frozen/Units.lean ====
section
/-! SUPPORT. What the operations of Sys2Proof/Machine/Units.lean leave alone: the queue, the fuses in effect, the reset lines,
the reference, the test access port and the count of hot resets. -/

namespace Sys2Proof.Machine

open Sys2Proof

set_option linter.unusedTactic false
set_option linter.unreachableTactic false
set_option linter.unusedSimpArgs false

@[simp] theorem State.unitEvent_frozen (s : State) (u : Nat) (code : Nat) :
    (State.unitEvent s u code).frozen = s.frozen := by
  simp [State.unitEvent]

@[simp] theorem State.stopProgramsOf_frozen (s : State) (u : Nat) :
    (State.stopProgramsOf s u).frozen = s.frozen := by
  unfold State.stopProgramsOf; (repeat' (first | with_reducible rfl | (simp []; done) | (split <;> try (rename_i heq; obtain ⟨_, rfl⟩ := Prod.ext_iff.mp heq)) | refine (State.frozen_foldl _ (fun _ _ => ?_) _ _).trans ?_ | dsimp only | simp []))

@[simp] theorem State.dropHeld_frozen (s : State) (u : Nat) :
    (State.dropHeld s u).frozen = s.frozen := by
  simp [State.dropHeld]

@[simp] theorem State.contactCut_frozen (s : State) (b : Nat) (st : Nat) :
    (State.contactCut s b st).frozen = s.frozen := by
  unfold State.contactCut; (repeat' (first | with_reducible rfl | (simp []; done) | (split <;> try (rename_i heq; obtain ⟨_, rfl⟩ := Prod.ext_iff.mp heq)) | refine (State.frozen_foldl _ (fun _ _ => ?_) _ _).trans ?_ | dsimp only | simp []))

@[simp] theorem State.unretireFrames_frozen (s : State) (n : Nat) :
    (State.unretireFrames s n).frozen = s.frozen := by
  simp [State.unretireFrames]

@[simp] theorem State.clusterStop_frozen (s : State) (c : Nat) :
    (State.clusterStop s c).frozen = s.frozen := by
  simp [State.clusterStop]

@[simp] theorem State.clusterDpsOff_frozen (s : State) (c : Nat) :
    (State.clusterDpsOff s c).frozen = s.frozen := by
  simp [State.clusterDpsOff]

@[simp] theorem State.takeHeldWrites_frozen (s : State) (u : Nat) :
    (State.takeHeldWrites s u).frozen = s.frozen := by
  simp [State.takeHeldWrites]

@[simp] theorem State.seqCut_frozen (s : State) (n : Nat) :
    (State.seqCut s n).frozen = s.frozen := by
  simp [State.seqCut]

@[simp] theorem State.memCut_frozen (s : State) :
    (State.memCut s).frozen = s.frozen := by
  simp [State.memCut]

@[simp] theorem State.headboxCut_frozen (s : State) :
    (State.headboxCut s).frozen = s.frozen := by
  simp [State.headboxCut]

@[simp] theorem State.popCut_frozen (s : State) :
    (State.popCut s).frozen = s.frozen := by
  simp [State.popCut]

@[simp] theorem State.dropInject_frozen (s : State) (p : Nat) :
    (State.dropInject s p).frozen = s.frozen := by
  simp [State.dropInject]

@[simp] theorem State.portCut_frozen (s : State) (p : Nat) :
    (State.portCut s p).frozen = s.frozen := by
  simp [State.portCut]

@[simp] theorem State.watermarkCut_frozen (s : State) :
    (State.watermarkCut s).frozen = s.frozen := by
  simp [State.watermarkCut]

@[simp] theorem State.cutUnit_frozen (s : State) (u : Nat) (dps : Bool) :
    (State.cutUnit s u dps).frozen = s.frozen := by
  simp [State.cutUnit]

@[simp] theorem State.dropUnit_frozen (s : State) (u : Nat) :
    (State.dropUnit s u).frozen = s.frozen := by
  simp [State.dropUnit]

@[simp] theorem State.resetRegs_frozen (s : State) (us : List Nat) :
    (State.resetRegs s us).frozen = s.frozen := by
  simp [State.resetRegs]

@[simp] theorem State.resetPins_frozen (s : State) (us : List Nat) :
    (State.resetPins s us).frozen = s.frozen := by
  simp [State.resetPins]

@[simp] theorem State.clusterChecks_frozen (s : State) (c : Nat) (r : BringUp) :
    (State.clusterChecks s c r).frozen = s.frozen := by
  simp [State.clusterChecks]

@[simp] theorem State.clusterCal_frozen (s : State) (c : Nat) (r : BringUp) :
    (State.clusterCal s c r).frozen = s.frozen := by
  simp [State.clusterCal]

@[simp] theorem State.startCluster_frozen (s : State) (c : Nat) (r : BringUp) :
    (State.startCluster s c r).2.frozen = s.frozen := by
  unfold State.startCluster; (repeat' (first | with_reducible rfl | (simp []; done) | (split <;> try (rename_i heq; obtain ⟨_, rfl⟩ := Prod.ext_iff.mp heq)) | refine (State.frozen_foldl _ (fun _ _ => ?_) _ _).trans ?_ | dsimp only | simp []))

@[simp] theorem State.startMemory_frozen (s : State) (r : BringUp) :
    (State.startMemory s r).2.frozen = s.frozen := by
  simp [State.startMemory]

@[simp] theorem State.endUnitAsks_frozen (s : State) :
    (State.endUnitAsks s).frozen = s.frozen := by
  simp [State.endUnitAsks]

@[simp] theorem State.unitStarted_frozen (s : State) (u : Nat) (ok : Bool) :
    (State.unitStarted s u ok).frozen = s.frozen := by
  simp [State.unitStarted]

@[simp] theorem State.afterStart_frozen (s : State) :
    (State.afterStart s).frozen = s.frozen := by
  simp [State.afterStart]

@[simp] theorem State.startUnit_frozen (s : State) (u : Nat) (r : BringUp) (restart : Bool) :
    (State.startUnit s u r restart).frozen = s.frozen := by
  simp [State.startUnit]

@[simp] theorem doUnitBringup_frozen (u : Nat) (r : BringUp) (s : State) :
    (doUnitBringup u r s).frozen = s.frozen := by
  simp [doUnitBringup]

@[simp] theorem doUnitRestart_frozen (u : Nat) (r : BringUp) (s : State) :
    (doUnitRestart u r s).frozen = s.frozen := by
  simp [doUnitRestart]

@[simp] theorem doUnitReset_frozen (c : Cmd) (s : State) :
    (doUnitReset c s).frozen = s.frozen := by
  simp [doUnitReset]

@[simp] theorem State.memoryOff_frozen (s : State) :
    (State.memoryOff s).frozen = s.frozen := by
  simp [State.memoryOff]

@[simp] theorem State.unitOff_frozen (s : State) (u : Nat) :
    (State.unitOff s u).frozen = s.frozen := by
  simp [State.unitOff]

@[simp] theorem doUnitPowerDown_frozen (c : Cmd) (s : State) :
    (doUnitPowerDown c s).frozen = s.frozen := by
  simp [doUnitPowerDown]

@[simp] theorem doUnitPowerUp_frozen (c : Cmd) (s : State) :
    (doUnitPowerUp c s).frozen = s.frozen := by
  simp [doUnitPowerUp]

@[simp] theorem State.logRetire_frozen (s : State) (l : List (Nat × Nat)) :
    (State.logRetire s l).frozen = s.frozen := by
  simp [State.logRetire]

@[simp] theorem doUnitRetire_frozen (c : Cmd) (s : State) :
    (doUnitRetire c s).frozen = s.frozen := by
  simp [doUnitRetire]

@[simp] theorem doUnitUnretire_frozen (c : Cmd) (s : State) :
    (doUnitUnretire c s).frozen = s.frozen := by
  simp [doUnitUnretire]

@[simp] theorem State.thermalShutdown_frozen (s : State) :
    (State.thermalShutdown s).frozen = s.frozen := by
  simp [State.thermalShutdown]

@[simp] theorem doThermalSample_frozen (temps : List (BitVec 16)) (s : State) :
    (doThermalSample temps s).frozen = s.frozen := by
  simp [doThermalSample]

end Sys2Proof.Machine
end

