-- ==== Sys2Proof/Laws/Frozen/Boot.lean ====
section
/-! SUPPORT. What the operations of Sys2Proof/Machine/Boot.lean leave alone: the queue, the fuses in effect, the reset lines,
the reference, the test access port and the count of hot resets. -/

namespace Sys2Proof.Machine

open Sys2Proof

set_option linter.unusedTactic false
set_option linter.unreachableTactic false
set_option linter.unusedSimpArgs false

@[simp] theorem State.runImage_frozen (s : State) (i : FwImage) :
    (State.runImage s i).frozen = s.frozen := by
  simp [State.runImage]

@[simp] theorem State.checkCertificate_frozen (s : State) (x : Directory) :
    (State.checkCertificate s x).frozen = s.frozen := by
  simp [State.checkCertificate]

@[simp] theorem State.loadBank_frozen (s : State) (x : Directory) :
    (State.loadBank s x).frozen = s.frozen := by
  simp [State.loadBank]

@[simp] theorem State.loadUsage_frozen (s : State) :
    (State.loadUsage s).frozen = s.frozen := by
  simp [State.loadUsage]

@[simp] theorem State.loadCal_frozen (s : State) :
    (State.loadCal s).frozen = s.frozen := by
  unfold State.loadCal; (repeat' (first | with_reducible rfl | (simp []; done) | (split <;> try (rename_i heq; obtain ⟨_, rfl⟩ := Prod.ext_iff.mp heq)) | refine (State.frozen_foldl _ (fun _ _ => ?_) _ _).trans ?_ | dsimp only | simp []))

@[simp] theorem State.loadRetired_frozen (s : State) :
    (State.loadRetired s).frozen = s.frozen := by
  unfold State.loadRetired; (repeat' (first | with_reducible rfl | (simp []; done) | (split <;> try (rename_i heq; obtain ⟨_, rfl⟩ := Prod.ext_iff.mp heq)) | refine (State.frozen_foldl _ (fun _ _ => ?_) _ _).trans ?_ | dsimp only | simp []))

@[simp] theorem State.applyOem_frozen (s : State) :
    (State.applyOem s).frozen = s.frozen := by
  unfold State.applyOem; (repeat' (first | with_reducible rfl | (simp []; done) | (split <;> try (rename_i heq; obtain ⟨_, rfl⟩ := Prod.ext_iff.mp heq)) | refine (State.frozen_foldl _ (fun _ _ => ?_) _ _).trans ?_ | dsimp only | simp []))

@[simp] theorem State.booted_frozen (s : State) :
    (State.booted s).frozen = s.frozen := by
  simp [State.booted]

@[simp] theorem doBoot_frozen (s : State) :
    (doBoot s).frozen = s.frozen := by
  unfold doBoot; (repeat' (first | with_reducible rfl | (simp []; done) | (split <;> try (rename_i heq; obtain ⟨_, rfl⟩ := Prod.ext_iff.mp heq)) | refine (State.frozen_foldl _ (fun _ _ => ?_) _ _).trans ?_ | dsimp only | simp []))

end Sys2Proof.Machine
end

