-- ==== Sys2Proof/Laws/Frozen/Jtag.lean ====
section
/-! SUPPORT. What the operations of Sys2Proof/Machine/Jtag.lean leave alone: the queue, the fuses in effect, the reset lines,
the reference, the test access port and the count of hot resets. -/

namespace Sys2Proof.Machine

open Sys2Proof

set_option linter.unusedTactic false
set_option linter.unreachableTactic false
set_option linter.unusedSimpArgs false

@[simp] theorem State.debugUsed_frozen (s : State) :
    (State.debugUsed s).frozen = s.frozen := by
  simp [State.debugUsed]

end Sys2Proof.Machine
end

