-- ==== Sys2Proof/Laws/Frozen/Release.lean ====
section
/-! SUPPORT. What the operations of Sys2Proof/Machine/Release.lean leave alone: the queue, the fuses in effect, the reset lines,
the reference, the test access port and the count of hot resets. -/

namespace Sys2Proof.Machine

open Sys2Proof

set_option linter.unusedTactic false
set_option linter.unreachableTactic false
set_option linter.unusedSimpArgs false

@[simp] theorem runUnitCmd_frozen (c : Cmd) (s : State) :
    (runUnitCmd c s).frozen = s.frozen := by
  unfold runUnitCmd; (repeat' (first | with_reducible rfl | (simp []; done) | (split <;> try (rename_i heq; obtain ⟨_, rfl⟩ := Prod.ext_iff.mp heq)) | refine (State.frozen_foldl _ (fun _ _ => ?_) _ _).trans ?_ | dsimp only | simp []))

@[simp] theorem runDeviceCmd_frozen (left : Nat) (c : Cmd) (s : State) :
    (runDeviceCmd left c s).frozen = s.frozen := by
  unfold runDeviceCmd; (repeat' (first | with_reducible rfl | (simp []; done) | (split <;> try (rename_i heq; obtain ⟨_, rfl⟩ := Prod.ext_iff.mp heq)) | refine (State.frozen_foldl _ (fun _ _ => ?_) _ _).trans ?_ | dsimp only | simp []))

@[simp] theorem runCmd_frozen (left : Nat) (c : Cmd) (s : State) :
    (runCmd left c s).frozen = s.frozen := by
  simp [runCmd]

@[simp] theorem State.tryHeld_frozen (s : State) (h : Held) :
    (State.tryHeld s h).frozen = s.frozen := by
  simp [State.tryHeld]

@[simp] theorem State.retryHeld_frozen (s : State) :
    (State.retryHeld s).frozen = s.frozen := by
  simp [State.retryHeld]

@[simp] theorem State.releaseWrites_frozen (s : State) (b : Nat) :
    (State.releaseWrites s b).frozen = s.frozen := by
  simp [State.releaseWrites]

@[simp] theorem State.releaseRings_frozen (s : State) :
    (State.releaseRings s).frozen = s.frozen := by
  simp [State.releaseRings]

@[simp] theorem State.settle_frozen (s : State) :
    (State.settle s).frozen = s.frozen := by
  simp [State.settle]

@[simp] theorem State.tick_frozen (s : State) :
    (State.tick s).frozen = s.frozen := by
  simp [State.tick]

@[simp] theorem afterHeld_frozen (k : State → State) (s : State) (hk : ∀ x0, (k x0).frozen = State.frozen x0) :
    (afterHeld k s).frozen = s.frozen := by
  simp [afterHeld, hk]

@[simp] theorem programEnded_frozen (b : Nat) (s : State) :
    (programEnded b s).frozen = s.frozen := by
  simp [programEnded]

@[simp] theorem preempted_frozen (b : Nat) (s : State) :
    (preempted b s).frozen = s.frozen := by
  simp [preempted]

@[simp] theorem programLimited_frozen (b : Nat) (s : State) :
    (programLimited b s).frozen = s.frozen := by
  simp [programLimited]

@[simp] theorem mayReplay_frozen (b : Nat) (k : State → State) (s : State) (hk : ∀ x0, (k x0).frozen = State.frozen x0) :
    (mayReplay b k s).frozen = s.frozen := by
  unfold mayReplay; (repeat' (first | with_reducible rfl | (simp [hk]; done) | (split <;> try (rename_i heq; obtain ⟨_, rfl⟩ := Prod.ext_iff.mp heq)) | refine (State.frozen_foldl _ (fun _ _ => ?_) _ _).trans ?_ | dsimp only | simp [hk]))

@[simp] theorem idleExited_frozen (s : State) :
    (idleExited s).frozen = s.frozen := by
  simp [idleExited]

@[simp] theorem clrCounts_frozen (a : Nat) (k : Nat) (w : Nat) (s : State) :
    (clrCounts a k w s).frozen = s.frozen := by
  simp [clrCounts]

end Sys2Proof.Machine
end

