-- ==== Sys2Proof/Laws/Sparse.lean ====
section
/-! SUPPORT. Sparse tables: reads after writes, and that writing keeps the canonical form. -/

namespace Sys2Proof.Machine

open Sys2Proof

variable {β : Type}

/-! ### Rising keys -/

theorem SMap.sortedFrom_mono (m : SMap β) {lo hi : Nat} (h : lo ≤ hi) (hm : m.sortedFrom hi = true) :
    m.sortedFrom lo = true := by
  cases m with
  | nil => rfl
  | cons a m =>
    simp only [SMap.sortedFrom, Bool.and_eq_true, decide_eq_true_eq] at hm ⊢
    exact ⟨h.trans hm.1, hm.2⟩

theorem SMap.find_below (m : SMap β) {lo k : Nat} (hm : m.sortedFrom lo = true) (h : k < lo) : m.find k = none := by
  induction m generalizing lo with
  | nil => rfl
  | cons a m ih =>
    simp only [SMap.sortedFrom, Bool.and_eq_true, decide_eq_true_eq] at hm
    have hne : k ≠ a.1 := by omega
    simp only [SMap.find, hne, if_false]
    exact ih hm.2 (by omega)

theorem SMap.put_sortedFrom (m : SMap β) {lo : Nat} (k : Nat) (v : β) (hm : m.sortedFrom lo = true) (hk : lo ≤ k) :
    (m.put k v).sortedFrom lo = true := by
  induction m generalizing lo with
  | nil => simp [SMap.put, SMap.sortedFrom, hk]
  | cons a m ih =>
    simp only [SMap.sortedFrom, Bool.and_eq_true, decide_eq_true_eq] at hm
    unfold SMap.put
    split
    · next h => simp [SMap.sortedFrom, hk, hm.2]; omega
    · split
      · next h => subst h; simp [SMap.sortedFrom, hk, hm.2]
      · simp only [SMap.sortedFrom, Bool.and_eq_true, decide_eq_true_eq]
        exact ⟨hm.1, ih hm.2 (by omega)⟩

theorem SMap.del_sortedFrom (m : SMap β) {lo : Nat} (k : Nat) (hm : m.sortedFrom lo = true) :
    (m.del k).sortedFrom lo = true := by
  induction m generalizing lo with
  | nil => rfl
  | cons a m ih =>
    simp only [SMap.sortedFrom, Bool.and_eq_true, decide_eq_true_eq] at hm
    unfold SMap.del
    split
    · exact SMap.sortedFrom_mono _ (by omega) (ih hm.2)
    · simp only [SMap.sortedFrom, Bool.and_eq_true, decide_eq_true_eq]
      exact ⟨hm.1, ih hm.2⟩

theorem SMap.filter_sortedFrom (m : SMap β) {lo : Nat} (f : Nat × β → Bool) (hm : m.sortedFrom lo = true) :
    SMap.sortedFrom lo (m.filter f) = true := by
  induction m generalizing lo with
  | nil => rfl
  | cons a m ih =>
    simp only [SMap.sortedFrom, Bool.and_eq_true, decide_eq_true_eq] at hm
    simp only [List.filter_cons]
    split
    · simp only [SMap.sortedFrom, Bool.and_eq_true, decide_eq_true_eq]
      exact ⟨hm.1, ih hm.2⟩
    · exact SMap.sortedFrom_mono _ (by omega) (ih hm.2)

/-! ### Reads after writes -/

theorem SMap.find_put_self (m : SMap β) (k : Nat) (v : β) : (m.put k v).find k = some v := by
  induction m with
  | nil => simp [SMap.put, SMap.find]
  | cons a m ih =>
    unfold SMap.put
    split
    · simp [SMap.find]
    · split
      · simp [SMap.find]
      · next h => simp [SMap.find, h, ih]

theorem SMap.find_put_other (m : SMap β) {k j : Nat} (v : β) (h : j ≠ k) : (m.put k v).find j = m.find j := by
  induction m with
  | nil => simp [SMap.put, SMap.find, h]
  | cons a m ih =>
    unfold SMap.put
    split
    · simp [SMap.find, h]
    · split
      · next hk => subst hk; simp [SMap.find, h]
      · simp only [SMap.find, ih]

theorem SMap.find_del_other (m : SMap β) {k j : Nat} (h : j ≠ k) : (m.del k).find j = m.find j := by
  induction m with
  | nil => rfl
  | cons a m ih =>
    unfold SMap.del
    split
    · next hk => subst hk; simp [SMap.find, h, ih]
    · simp only [SMap.find, ih]

theorem SMap.find_del_self (m : SMap β) (k : Nat) : (m.del k).find k = none := by
  induction m with
  | nil => rfl
  | cons a m ih =>
    unfold SMap.del
    split
    · exact ih
    · next h => simp only [SMap.find, h, if_false]; exact ih

theorem SMap.get_put_self (d : β) (m : SMap β) (k : Nat) (v : β) : (m.put k v).get d k = v := by
  simp [SMap.get, SMap.find_put_self]

theorem SMap.get_put_other (d : β) (m : SMap β) {k j : Nat} (v : β) (h : j ≠ k) : (m.put k v).get d j = m.get d j := by
  simp [SMap.get, SMap.find_put_other m v h]

/-! ### What the listed values satisfy -/

theorem SMap.put_values (P : Nat × β → Prop) (m : SMap β) (k : Nat) (v : β) (hm : ∀ x ∈ m, P x) (hv : P (k, v)) :
    ∀ x ∈ m.put k v, P x := by
  induction m with
  | nil => simp [SMap.put, hv]
  | cons a m ih =>
    have ih := ih (fun y hy => hm y (List.mem_cons_of_mem _ hy))
    unfold SMap.put
    split
    · intro x hx
      rcases List.mem_cons.mp hx with rfl | hx
      · exact hv
      · exact hm x hx
    · split
      · intro x hx
        rcases List.mem_cons.mp hx with rfl | hx
        · exact hv
        · exact hm x (List.mem_cons_of_mem _ hx)
      · intro x hx
        rcases List.mem_cons.mp hx with rfl | hx
        · exact hm _ (List.mem_cons_self ..)
        · exact ih x hx

theorem SMap.del_values (P : Nat × β → Prop) (m : SMap β) (k : Nat) (hm : ∀ x ∈ m, P x) : ∀ x ∈ m.del k, P x := by
  induction m with
  | nil => simp [SMap.del]
  | cons a m ih =>
    have ih := ih (fun y hy => hm y (List.mem_cons_of_mem _ hy))
    unfold SMap.del
    split
    · exact ih
    · intro x hx
      rcases List.mem_cons.mp hx with rfl | hx
      · exact hm _ (List.mem_cons_self ..)
      · exact ih x hx

variable [DecidableEq β]

theorem SMap.get_set_other (d e : β) (m : SMap β) {k j : Nat} (v : β) (h : j ≠ k) : (m.set d k v).get e j = m.get e j := by
  unfold SMap.set
  split
  · simp [SMap.get, SMap.find_del_other m h]
  · exact SMap.get_put_other e m v h

theorem SMap.get_set_self (d : β) (m : SMap β) (k : Nat) (v : β) : (m.set d k v).get d k = v := by
  unfold SMap.set
  split
  · next h => simp [SMap.get, SMap.find_del_self m k, h]
  · exact SMap.get_put_self d m k v

/-! ### The canonical form -/

theorem SMap.canonical_sorted {d : Nat → β} {m : SMap β} (h : m.canonical d = true) : m.sorted = true := by
  simp only [SMap.canonical, Bool.and_eq_true] at h
  exact h.1

theorem SMap.canonical_iff (d : Nat → β) (m : SMap β) :
    m.canonical d = true ↔ m.sorted = true ∧ ∀ x ∈ m, x.2 ≠ d x.1 := by
  simp [SMap.canonical, List.all_eq_true]

/-- A canonical write keeps the canonical form. -/
theorem SMap.set_canonical (d : Nat → β) (m : SMap β) (k : Nat) (v : β) (hm : m.canonical d = true) :
    (m.set (d k) k v).canonical d = true := by
  rw [SMap.canonical_iff] at hm ⊢
  unfold SMap.set
  split
  · exact ⟨SMap.del_sortedFrom m k hm.1, SMap.del_values _ m k hm.2⟩
  · next h => exact ⟨SMap.put_sortedFrom m k v hm.1 (Nat.zero_le _), SMap.put_values _ m k v hm.2 h⟩

theorem SMap.filter_canonical (d : Nat → β) (m : SMap β) (f : Nat × β → Bool) (hm : m.canonical d = true) :
    SMap.canonical d (m.filter f) = true := by
  rw [SMap.canonical_iff] at hm ⊢
  exact ⟨SMap.filter_sortedFrom m f hm.1, fun x hx => hm.2 x (List.mem_filter.mp hx).1⟩

/-! ### Bytes -/

/-- Storing bytes keeps the canonical form. -/
theorem storeCells_canonical (d : Nat → Byte) (m : SMap Byte) (a : Nat) (bs : List Byte) (hm : m.canonical d = true) :
    (storeCells d m a bs).canonical d = true := by
  induction bs generalizing m a with
  | nil => exact hm
  | cons b bs ih => exact ih _ _ (SMap.set_canonical d m a b hm)

/-- A byte outside those stored reads as before. -/
theorem storeCells_other (d : Nat → Byte) (e : Byte) (m : SMap Byte) (a : Nat) (bs : List Byte) (j : Nat)
    (h : j < a ∨ a + bs.length ≤ j) : (storeCells d m a bs).get e j = m.get e j := by
  induction bs generalizing m a with
  | nil => rfl
  | cons b bs ih =>
    simp only [List.length_cons] at h
    simp only [storeCells]
    rw [ih _ _ (by omega)]
    exact SMap.get_set_other (d a) e m b (by omega)

/-- A stored byte reads as stored. -/
theorem storeCells_here (d : Nat → Byte) (m : SMap Byte) (a : Nat) (bs : List Byte) (i : Nat) (h : i < bs.length)
    : (storeCells d m a bs).get (d (a + i)) (a + i) = bs[i] := by
  induction bs generalizing m a i with
  | nil => simp at h
  | cons b bs ih =>
    simp only [storeCells]
    cases i with
    | zero =>
      rw [storeCells_other d _ _ (a + 1) bs (a + 0) (by omega)]
      exact SMap.get_set_self (d a) m a b
    | succ i =>
      have := ih (SMap.set (d a) m a b) (a + 1) i (by simpa using h)
      simpa [Nat.add_assoc, Nat.add_comm 1 i] using this

end Sys2Proof.Machine
end

