-- ==== Sys2Proof/Laws/MemBase.lean ====
section
/-! SUPPORT. What memory holds, and how it travels through a state. -/

namespace Sys2Proof.Machine

open Sys2Proof


@[simp] theorem State.memData_update (t : State) {x_pending x_regs x_applied x_timing x_timingApplied x_fuse x_burned x_perst
    x_internalReset x_xref x_hi x_ev x_held x_pins x_groups x_programs x_starts x_seqs x_rings x_clusters x_tmus x_awgs x_dgs
    x_dps x_swgHeld x_popTests x_dma x_felt x_power x_sec x_cals x_ser x_units x_jtag x_causes x_popInput x_draws} :
    State.memData (State.mk x_pending x_regs x_applied x_timing x_timingApplied x_fuse x_burned x_perst x_internalReset x_xref
        x_hi x_ev t.mem x_held x_pins x_groups x_programs x_starts x_seqs x_rings x_clusters x_tmus x_awgs x_dgs x_dps
        x_swgHeld x_popTests x_dma x_felt x_power x_sec x_cals x_ser x_units x_jtag x_causes x_popInput x_draws) = t.memData :=
        by
  cases t; rfl

@[simp] theorem State.memData_update_mem (t : State) {x_pending x_regs x_applied x_timing x_timingApplied x_fuse x_burned
    x_perst x_internalReset x_xref x_hi x_ev x_held x_pins x_groups x_programs x_starts x_seqs x_rings x_clusters x_tmus
    x_awgs x_dgs x_dps x_swgHeld x_popTests x_dma x_felt x_power x_sec x_cals x_ser x_units x_jtag x_causes x_popInput
    x_draws y_poison y_latent y_scrubBlock y_pinLost y_atc y_atsRequests y_groups y_noGroup y_priUnavailable y_decided y_invalidations
    y_hostPoison y_hostError} :
    State.memData (State.mk x_pending x_regs x_applied x_timing x_timingApplied x_fuse x_burned x_perst x_internalReset x_xref
        x_hi x_ev (Memory.mk t.mem.cells y_poison y_latent y_scrubBlock t.mem.dtt y_pinLost y_atc y_atsRequests y_groups y_noGroup
        y_priUnavailable y_decided y_invalidations t.mem.host y_hostPoison y_hostError) x_held x_pins x_groups x_programs
        x_starts x_seqs x_rings x_clusters x_tmus x_awgs x_dgs x_dps x_swgHeld x_popTests x_dma x_felt x_power x_sec x_cals
        x_ser x_units x_jtag x_causes x_popInput x_draws) = t.memData := by
  cases t; rfl

@[simp] theorem State.memData_ite (c : Prop) [Decidable c] (s t : State) :
    (if c then s else t).memData = if c then s.memData else t.memData := apply_ite _ _ _ _

@[simp] theorem State.memData_ite_snd {α : Type} (c : Prop) [Decidable c] (s t : α × State) :
    (if c then s else t).2.memData = if c then s.2.memData else t.2.memData := by split <;> rfl

@[simp] theorem State.memData_foldl {α : Type} (f : State → α → State) (h : ∀ s a, (f s a).memData = s.memData) (l : List α)
    (s : State) : (l.foldl f s).memData = s.memData := by
  induction l generalizing s with
  | nil => rfl
  | cons a l ih => simp [ih, h]

theorem State.foldl_keeps {α : Type} (f : State → α → State) (h : ∀ s a, storeWf s.memData = true → storeWf (f s a).memData = true) (l : List α)
    (s : State) (hs : storeWf s.memData = true) : storeWf (l.foldl f s).memData = true := by
  induction l generalizing s with
  | nil => exact hs
  | cons a l ih => exact ih _ (h _ _ hs)

theorem storeWf_iff (m : Stored) : storeWf m = true ↔ m.1.canonical (fun _ => 0) = true ∧
    m.2.1.canonical Config.hostByte = true ∧ m.2.2.canonical (fun _ => 0) = true := by
  simp [storeWf, and_assoc]

end Sys2Proof.Machine
end

