-- ==== Sys2Proof/Laws/Kept/Ops.lean ====
section
/-! SUPPORT. What the operations of Sys2Proof/Machine/Ops.lean leave alone: what memory holds. -/

namespace Sys2Proof.Machine

open Sys2Proof

set_option linter.unusedTactic false
set_option linter.unreachableTactic false
set_option linter.unusedSimpArgs false

@[simp] theorem State.setQuad_memData (s : State) (a : Nat) (v : BitVec 64) :
    (State.setQuad s a v).memData = s.memData := by
  simp [State.setQuad]

@[simp] theorem State.setFld_memData (s : State) (f : Fld) (v : Nat) :
    (State.setFld s f v).memData = s.memData := by
  simp [State.setFld]

@[simp] theorem State.setFlag_memData (s : State) (f : Fld) (b : Bool) :
    (State.setFlag s f b).memData = s.memData := by
  simp [State.setFlag]

@[simp] theorem State.bump_memData (s : State) (f : Fld) (k : Nat) :
    (State.bump s f k).memData = s.memData := by
  simp [State.bump]

@[simp] theorem State.applyVal_memData (s : State) (f : Fld) (v : Nat) :
    (State.applyVal s f v).memData = s.memData := by
  simp [State.applyVal]

@[simp] theorem State.applyFld_memData (s : State) (f : Fld) :
    (State.applyFld s f).memData = s.memData := by
  simp [State.applyFld]

@[simp] theorem State.applyFlds_memData (s : State) (l : List Fld) :
    (State.applyFlds s l).memData = s.memData := by
  simp [State.applyFlds]

@[simp] theorem State.raiseAt_memData (s : State) (n : Nat) (unit : Nat) (info : Nat) (t : Nat) :
    (State.raiseAt s n unit info t).memData = s.memData := by
  simp [State.raiseAt]

@[simp] theorem State.raise_memData (s : State) (n : Nat) (unit : Nat) (info : Nat) :
    (State.raise s n unit info).memData = s.memData := by
  simp [State.raise]

@[simp] theorem State.sendMsix_memData (s : State) (_v : Nat) :
    (State.sendMsix s _v).memData = s.memData := by
  simp [State.sendMsix]

@[simp] theorem State.deliverVector_memData (s : State) (v : Nat) :
    (State.deliverVector s v).memData = s.memData := by
  simp [State.deliverVector]

@[simp] theorem State.moderateCq_memData (s : State) (q : Nat) :
    (State.moderateCq s q).memData = s.memData := by
  simp [State.moderateCq]

@[simp] theorem State.released_memData (s : State) (c : Cmd) :
    (State.released s c).memData = s.memData := by
  unfold State.released; (repeat' (first | with_reducible rfl | (simp []; done) | (split <;> try (rename_i heq; obtain ⟨_, rfl⟩ := Prod.ext_iff.mp heq)) | refine (State.memData_foldl _ (fun _ _ => ?_) _ _).trans ?_ | dsimp only | simp []))

@[simp] theorem State.completeTo_memData (s : State) (cq : Nat) (c : Cmd) (st : Nat) (res : Nat) :
    (State.completeTo s cq c st res).memData = s.memData := by
  simp [State.completeTo]

@[simp] theorem State.complete_memData (s : State) (c : Cmd) (st : Nat) (res : Nat) :
    (State.complete s c st res).memData = s.memData := by
  simp [State.complete]

@[simp] theorem State.checked_memData (s : State) (c : Cmd) (checks : List (Bool × Nat)) (k : State → State) (hk : ∀ x0, (k x0).memData = State.memData x0) :
    (State.checked s c checks k).memData = s.memData := by
  unfold State.checked; (repeat' split) <;> simp [hk]

@[simp] theorem State.hold_memData (s : State) (c : Cmd) (w : WaitOn) :
    (State.hold s c w).memData = s.memData := by
  simp [State.hold]

@[simp] theorem State.draw_memData (s : State) (w : Nat) :
    (State.draw s w).2.memData = s.memData := by
  simp [State.draw]

end Sys2Proof.Machine
end

