-- ==== Sys2Proof/Laws/Keeps/Ops.lean ====
section
/-! SUPPORT. The operations of Sys2Proof/Machine/Ops.lean that reach memory: they keep its canonical form. -/

namespace Sys2Proof.Machine

open Sys2Proof

set_option linter.unusedTactic false
set_option linter.unreachableTactic false
set_option linter.unusedSimpArgs false

theorem State.checked_keeps (s : State) (c : Cmd) (checks : List (Bool × Nat)) (k : State → State) (hk : ∀ x0, storeWf (State.memData x0) = true → storeWf ((k x0).memData) = true) (hs : storeWf (State.memData s) = true) :
    storeWf ((State.checked s c checks k).memData) = true := by
  unfold State.checked; (repeat' (first | assumption | (simp [hs]; done) | refine hk _ ?_ | (split <;> try (rename_i heq; obtain ⟨_, rfl⟩ := Prod.ext_iff.mp heq)) | refine State.foldl_keeps _ (fun _ _ _ => ?_) _ _ ?_ | dsimp only | simp only [State.memData_update, State.memData_update_mem] | simp))

end Sys2Proof.Machine
end

