-- ==== Sys2Proof/Laws/Kept/Mem.lean ====
section
/-! SUPPORT. What the operations of Sys2Proof/Machine/Mem.lean leave alone: what memory holds. -/

namespace Sys2Proof.Machine

open Sys2Proof

set_option linter.unusedTactic false
set_option linter.unreachableTactic false
set_option linter.unusedSimpArgs false

@[simp] theorem State.uncorrectable_memData (s : State) (block : Nat) (source : Nat) :
    (State.uncorrectable s block source).memData = s.memData := by
  simp [State.uncorrectable]

@[simp] theorem State.eccBlock_memData (source : Nat) (s : State) (block : Nat) :
    (State.eccBlock source s block).memData = s.memData := by
  unfold State.eccBlock; (repeat' (first | with_reducible rfl | (simp []; done) | (split <;> try (rename_i heq; obtain ⟨_, rfl⟩ := Prod.ext_iff.mp heq)) | refine (State.memData_foldl _ (fun _ _ => ?_) _ _).trans ?_ | dsimp only | simp []))

@[simp] theorem State.mergeBlocks_memData (s : State) (a : Nat) (n : Nat) :
    (State.mergeBlocks s a n).memData = s.memData := by
  simp [State.mergeBlocks]

@[simp] theorem State.logFault_memData (s : State) (x : MemCtx) (va : Nat) (k : Nat) (entry : Option Nat) (write : Bool) :
    (State.logFault s x va k entry write).memData = s.memData := by
  simp [State.logFault]

@[simp] theorem State.touchRange_memData (s : State) (r : AtcRange) :
    (State.touchRange s r).memData = s.memData := by
  simp [State.touchRange]

@[simp] theorem State.requestPage_memData (s : State) (w : Waiter) (entry : Nat) (base : Nat) :
    (State.requestPage s w entry base).memData = s.memData := by
  simp [State.requestPage]

@[simp] theorem State.awaitPage_memData (s : State) (w : Waiter) (entry : Nat) (base : Nat) :
    (State.awaitPage s w entry base).memData = s.memData := by
  simp [State.awaitPage]

@[simp] theorem State.hostPath_memData (s : State) (x : MemCtx) (va : Nat) (a : Nat) (entry : Nat) (write : Bool) (more : Bool) :
    (State.hostPath s x va a entry write more).2.memData = s.memData := by
  unfold State.hostPath; dsimp only; (repeat' split) <;> simp []

@[simp] theorem State.faultAcc_memData (s : State) (x : MemCtx) (va : Nat) (k : Nat) (entry : Option Nat) (write : Bool) :
    (State.faultAcc s x va k entry write).2.memData = s.memData := by
  simp [State.faultAcc]

@[simp] theorem State.poisonAcc_memData (s : State) (x : MemCtx) (va : Nat) (k : Nat) (entry : Nat) (data : List Byte) :
    (State.poisonAcc s x va k entry data).2.memData = s.memData := by
  simp [State.poisonAcc]

@[simp] theorem State.poisonDelivered_memData (s : State) (bad : List Nat) :
    (State.poisonDelivered s bad).memData = s.memData := by
  simp [State.poisonDelivered]

@[simp] theorem State.readPiece_memData (s : State) (x : MemCtx) (va : Nat) (n : Nat) (more : Bool) :
    (State.readPiece s x va n more).2.memData = s.memData := by
  unfold State.readPiece
  split
  · simp
  · split
    · rfl
    · split
      · simp
      · split
        · simp
        · dsimp only
          (repeat' split) <;> simp
      · rename_i a e _
        split
        · simp
        · have h := State.hostPath_memData s x va a e false more
          split
          · rename_i heq
            rw [heq] at h
            split
            · simpa using h
            · split
              · simpa using h
              · simpa using h
          all_goals (rename_i heq; rw [heq] at h; simpa using h)

@[simp] theorem readPieces_memData (v0 : Nat) (v1 : MemCtx) (v2 : Nat) (v3 : Nat) (s : State) :
    (readPieces v0 v1 v2 v3 s).2.memData = s.memData := by
  induction v0 generalizing v1 v2 v3 s with
  | zero => rfl
  | succ fuel ih =>
    simp only [readPieces]
    split
    · rfl
    · have h := State.readPiece_memData s v1 v2 (min v3 (4096 - v2 % 4096)) (s.goesOn v2 v3)
      split
      · rename_i d p s1 heq
        rw [heq] at h
        have h2 := ih v1 (v2 + min v3 (4096 - v2 % 4096)) (v3 - min v3 (4096 - v2 % 4096)) s1
        split
        · rename_i heq2
          rw [heq2] at h2
          exact h2.trans h
        · exact h2.trans h
      · exact h

@[simp] theorem State.memRead_memData (s : State) (x : MemCtx) (va : Nat) (n : Nat) :
    (State.memRead s x va n).2.memData = s.memData := by
  simp [State.memRead]

@[simp] theorem State.abandon_memData (s : State) (engine : Nat) (unit : Nat) :
    (State.abandon s engine unit).memData = s.memData := by
  simp [State.abandon]

@[simp] theorem prePieces_memData (v0 : Nat) (v1 : MemCtx) (v2 : Nat) (v3 : Nat) (s : State) :
    (prePieces v0 v1 v2 v3 s).2.memData = s.memData := by
  induction v0 generalizing v1 v2 v3 s <;> unfold prePieces <;> (repeat' (first | with_reducible rfl | (simp [*]; done) | (split <;> try (rename_i heq; obtain ⟨_, rfl⟩ := Prod.ext_iff.mp heq)) | refine (State.memData_foldl _ (fun _ _ => ?_) _ _).trans ?_ | dsimp only | simp []))

theorem State.keepRequests_memData (s : State) (t : State) (h0 : t.memData = s.memData) :
    (State.keepRequests s t).memData = s.memData := by
  unfold State.keepRequests
  rw [State.setFld_memData, State.memData_update_mem]
  exact h0

@[simp] theorem State.preRead_memData (s : State) (x : MemCtx) (va : Nat) (n : Nat) :
    (State.preRead s x va n).2.2.memData = s.memData := by
  unfold State.preRead; (repeat' (first | with_reducible rfl | (simp []; done) | (split <;> try (rename_i heq; obtain ⟨_, rfl⟩ := Prod.ext_iff.mp heq)) | refine (State.memData_foldl _ (fun _ _ => ?_) _ _).trans ?_ | dsimp only | simp []))

@[simp] theorem State.withReadOr_memData (s : State) (c : Cmd) (x : MemCtx) (va : Nat) (n : Nat) (breach : List (Option Byte) → Bool) (refuse : State → State) (k : List Byte → State → State) (hrefuse : ∀ x0, (refuse x0).memData = State.memData x0) (hk : ∀ x0 x1, (k x0 x1).memData = State.memData x1) :
    (State.withReadOr s c x va n breach refuse k).memData = s.memData := by
  unfold State.withReadOr
  extract_lets r
  have hr : r.2.2.memData = s.memData := State.preRead_memData _ _ _ _
  have hh : (s.keepRequests r.2.2).memData = s.memData := State.keepRequests_memData _ _ hr
  clear_value r
  (repeat' split) <;> simp [hrefuse, hk, hr, hh]

@[simp] theorem State.withRead_memData (s : State) (c : Cmd) (x : MemCtx) (va : Nat) (n : Nat) (k : List Byte → State → State) (hk : ∀ x0 x1, (k x0 x1).memData = State.memData x1) :
    (State.withRead s c x va n k).memData = s.memData := by
  simp [State.withRead, hk]

end Sys2Proof.Machine
end

