-- ==== Sys2Proof/Laws/Keeps/Mem.lean ====
section
/-! SUPPORT. The operations of Sys2Proof/Machine/Mem.lean that reach memory: they keep its canonical form. -/

namespace Sys2Proof.Machine

open Sys2Proof

set_option linter.unusedTactic false
set_option linter.unreachableTactic false
set_option linter.unusedSimpArgs false

theorem State.writeDpa_keeps (s : State) (a : Nat) (data : List Byte) (poison : Bool) (hs : storeWf (State.memData s) = true) :
    storeWf ((State.writeDpa s a data poison).memData) = true := by
  rw [storeWf_iff] at hs ⊢
  exact ⟨storeCells_canonical (fun _ => 0) _ _ _ hs.1, hs.2⟩

theorem State.writeHost_keeps (s : State) (a : Nat) (data : List Byte) (poison : Bool) (hs : storeWf (State.memData s) = true) :
    storeWf ((State.writeHost s a data poison).memData) = true := by
  rw [storeWf_iff] at hs ⊢
  exact ⟨hs.1, storeCells_canonical Config.hostByte _ _ _ hs.2.1, hs.2.2⟩

theorem State.damage_keeps (s : State) (block : Nat) (errors : List (Fin 68 × BitVec 8)) (hs : storeWf (State.memData s) = true) :
    storeWf ((State.damage s block errors).memData) = true := by
  rw [storeWf_iff] at hs ⊢
  exact ⟨storeCells_canonical (fun _ => 0) _ _ _ hs.1, hs.2⟩

theorem State.strike_keeps (s : State) (block : Nat) (errors : List (Fin 68 × BitVec 8)) (hs : storeWf (State.memData s) = true) :
    storeWf ((State.strike s block errors).memData) = true := by
  unfold State.strike; (repeat' (first | with_reducible assumption | (simp [hs]; done) | with_reducible refine State.damage_keeps _ _ _  ?_ | (split <;> try (rename_i heq; obtain ⟨_, rfl⟩ := Prod.ext_iff.mp heq)) | with_reducible refine State.foldl_keeps _ (fun _ _ _ => ?_) _ _ ?_ | dsimp only | simp only [State.memData_update, State.memData_update_mem] | simp))

theorem State.writePiece_keeps (s : State) (x : MemCtx) (va : Nat) (data : List Byte) (poison : Bool) (more : Bool) (hs : storeWf (State.memData s) = true) :
    storeWf ((State.writePiece s x va data poison more).2.memData) = true := by
  unfold State.writePiece; (repeat' (first | with_reducible assumption | (simp [hs]; done) | with_reducible refine State.writeDpa_keeps _ _ _ _  ?_ | with_reducible refine State.writeHost_keeps _ _ _ _  ?_ | (split <;> try (rename_i heq; obtain ⟨_, rfl⟩ := Prod.ext_iff.mp heq)) | with_reducible refine State.foldl_keeps _ (fun _ _ _ => ?_) _ _ ?_ | dsimp only | simp only [State.memData_update, State.memData_update_mem] | simp))

theorem writePieces_keeps (v0 : Nat) (v1 : MemCtx) (v2 : Nat) (v3 : List Byte) (v4 : Bool) (s : State) (hs : storeWf (State.memData s) = true) :
    storeWf ((writePieces v0 v1 v2 v3 v4 s).2.memData) = true := by
  induction v0 generalizing v1 v2 v3 v4 s with
  | zero => exact hs
  | succ fuel ih =>
    simp only [writePieces]
    split
    · exact hs
    · have h := State.writePiece_keeps s v1 v2 (v3.take (4096 - v2 % 4096)) v4 (s.goesOn v2 v3.length) hs
      split
      · rename_i heq
        rw [heq] at h
        exact ih _ _ _ _ _ h
      · exact h

theorem State.memWrite_keeps (s : State) (x : MemCtx) (va : Nat) (data : List Byte) (poison : Bool) (hs : storeWf (State.memData s) = true) :
    storeWf ((State.memWrite s x va data poison).2.memData) = true := by
  unfold State.memWrite; (repeat' (first | assumption | (simp [hs]; done) | refine writePieces_keeps _ _ _ _ _ _  ?_ | (split <;> try (rename_i heq; obtain ⟨_, rfl⟩ := Prod.ext_iff.mp heq)) | refine State.foldl_keeps _ (fun _ _ _ => ?_) _ _ ?_ | dsimp only | simp only [State.memData_update, State.memData_update_mem] | simp))

theorem State.withReadOr_keeps (s : State) (c : Cmd) (x : MemCtx) (va : Nat) (n : Nat) (breach : List (Option Byte) → Bool) (refuse : State → State) (k : List Byte → State → State) (hrefuse : ∀ x0, storeWf (State.memData x0) = true → storeWf ((refuse x0).memData) = true) (hk : ∀ x0 x1, storeWf (State.memData x1) = true → storeWf ((k x0 x1).memData) = true) (hs : storeWf (State.memData s) = true) :
    storeWf ((State.withReadOr s c x va n breach refuse k).memData) = true := by
  unfold State.withReadOr
  extract_lets r
  have hr : r.2.2.memData = s.memData := State.preRead_memData _ _ _ _
  have hh : (s.keepRequests r.2.2).memData = s.memData := State.keepRequests_memData _ _ hr
  clear_value r
  split
  · simpa [hh] using hs
  · split
    · exact hk _ _ (by rw [hr]; exact hs)
    · split <;> exact hrefuse _ (by simpa [hr] using hs)

theorem State.withRead_keeps (s : State) (c : Cmd) (x : MemCtx) (va : Nat) (n : Nat) (k : List Byte → State → State) (hk : ∀ x0 x1, storeWf (State.memData x1) = true → storeWf ((k x0 x1).memData) = true) (hs : storeWf (State.memData s) = true) :
    storeWf ((State.withRead s c x va n k).memData) = true := by
  unfold State.withRead; (repeat' (first | with_reducible assumption | (simp [hs]; done) | with_reducible refine State.withReadOr_keeps _ _ _ _ _ _ _ _ (fun _ _ => ?_) (fun _ _ _ => ?_) ?_ | with_reducible refine hk _ _ ?_ | (split <;> try (rename_i heq; obtain ⟨_, rfl⟩ := Prod.ext_iff.mp heq)) | with_reducible refine State.foldl_keeps _ (fun _ _ _ => ?_) _ _ ?_ | dsimp only | simp only [State.memData_update, State.memData_update_mem] | simp))

end Sys2Proof.Machine
end

