-- ==== Sys2Proof/Laws/Kept/Records.lean ====
section
/-! SUPPORT. What the operations of Sys2Proof/Machine/Records.lean leave alone: what memory holds. -/

namespace Sys2Proof.Machine

open Sys2Proof

set_option linter.unusedTactic false
set_option linter.unreachableTactic false
set_option linter.unusedSimpArgs false

@[simp] theorem State.setProgram_memData (s : State) (b : Nat) (p : Program) :
    (State.setProgram s b p).memData = s.memData := by
  simp [State.setProgram]

@[simp] theorem State.modProgram_memData (s : State) (b : Nat) (f : Program → Program) :
    (State.modProgram s b f).memData = s.memData := by
  unfold State.modProgram; (repeat' split) <;> simp []

@[simp] theorem State.modSeq_memData (s : State) (n : Nat) (f : Seq → Seq) :
    (State.modSeq s n f).memData = s.memData := by
  simp [State.modSeq]

@[simp] theorem State.modPin_memData (s : State) (p : Nat) (f : Pin → Pin) :
    (State.modPin s p f).memData = s.memData := by
  simp [State.modPin]

@[simp] theorem State.noteStatus_memData (s : State) (b : Nat) (p : Nat) (st : Nat) :
    (State.noteStatus s b p st).memData = s.memData := by
  simp [State.noteStatus]

@[simp] theorem State.noteSite_memData (s : State) (site : Nat) (st : Nat) :
    (State.noteSite s site st).memData = s.memData := by
  unfold State.noteSite; (repeat' split) <;> simp []

@[simp] theorem State.showElastic_memData (s : State) (n : Nat) :
    (State.showElastic s n).memData = s.memData := by
  simp [State.showElastic]

@[simp] theorem State.enterRecord_memData (s : State) (n : Nat) (r : Rec) :
    (State.enterRecord s n r).memData = s.memData := by
  simp [State.enterRecord]

@[simp] theorem State.lossRecords_memData (s : State) (n : Nat) (v2 : Nat) :
    (State.lossRecords s n v2).memData = s.memData := by
  induction v2 generalizing s n <;> unfold State.lossRecords <;> (repeat' (first | with_reducible rfl | (simp [*]; done) | (split <;> try (rename_i heq; obtain ⟨_, rfl⟩ := Prod.ext_iff.mp heq)) | refine (State.memData_foldl _ (fun _ _ => ?_) _ _).trans ?_ | dsimp only | simp []))

@[simp] theorem State.deckleRecords_memData (s : State) (n : Nat) (v2 : Nat) :
    (State.deckleRecords s n v2).memData = s.memData := by
  induction v2 generalizing s n <;> unfold State.deckleRecords <;> (repeat' (first | with_reducible rfl | (simp [*]; done) | (split <;> try (rename_i heq; obtain ⟨_, rfl⟩ := Prod.ext_iff.mp heq)) | refine (State.memData_foldl _ (fun _ _ => ?_) _ _).trans ?_ | dsimp only | simp []))

@[simp] theorem State.reportLosses_memData (s : State) (n : Nat) :
    (State.reportLosses s n).memData = s.memData := by
  simp [State.reportLosses]

@[simp] theorem State.discardRecords_memData (s : State) (n : Nat) (cause : Nat) (f : Rec → Bool) :
    (State.discardRecords s n cause f).memData = s.memData := by
  simp [State.discardRecords]

end Sys2Proof.Machine
end

