-- ==== Sys2Proof/Laws/Kept/Operands.lean ====
section
/-! SUPPORT. What the operations of Sys2Proof/Machine/Operands.lean leave alone: what memory holds. -/

namespace Sys2Proof.Machine

open Sys2Proof

set_option linter.unusedTactic false
set_option linter.unreachableTactic false
set_option linter.unusedSimpArgs false

@[simp] theorem State.startExit_memData (s : State) :
    (State.startExit s).memData = s.memData := by
  simp [State.startExit]

@[simp] theorem State.accepts_memData (s : State) (c : Cmd) :
    (State.accepts s c).memData = s.memData := by
  unfold State.accepts; (repeat' (first | with_reducible rfl | (simp []; done) | (split <;> try (rename_i heq; obtain ⟨_, rfl⟩ := Prod.ext_iff.mp heq)) | refine (State.memData_foldl _ (fun _ _ => ?_) _ _).trans ?_ | dsimp only | simp []))

@[simp] theorem State.undispatch_memData (s : State) (c : Cmd) :
    (State.undispatch s c).memData = s.memData := by
  simp [State.undispatch]

@[simp] theorem State.accept_memData (s : State) (c : Cmd) (k : Cmd → State → State) (hk : ∀ x0 x1, (k x0 x1).memData = State.memData x1) :
    (State.accept s c k).memData = s.memData := by
  simp [State.accept, hk]

end Sys2Proof.Machine
end

