-- ==== Sys2Proof/Laws/Keeps/Operands.lean ====
section
/-! SUPPORT. The operations of Sys2Proof/Machine/Operands.lean that reach memory: they keep its canonical form. -/

namespace Sys2Proof.Machine

open Sys2Proof

set_option linter.unusedTactic false
set_option linter.unreachableTactic false
set_option linter.unusedSimpArgs false

theorem State.accept_keeps (s : State) (c : Cmd) (k : Cmd → State → State) (hk : ∀ x0 x1, storeWf (State.memData x1) = true → storeWf ((k x0 x1).memData) = true) (hs : storeWf (State.memData s) = true) :
    storeWf ((State.accept s c k).memData) = true := by
  unfold State.accept; (repeat' (first | with_reducible assumption | (simp [hs]; done) | with_reducible refine hk _ _ ?_ | (split <;> try (rename_i heq; obtain ⟨_, rfl⟩ := Prod.ext_iff.mp heq)) | with_reducible refine State.foldl_keeps _ (fun _ _ _ => ?_) _ _ ?_ | dsimp only | simp only [State.memData_update, State.memData_update_mem] | simp))

end Sys2Proof.Machine
end

