-- ==== Sys2Proof/Laws/Kept/Pins.lean ====
section
/-! SUPPORT. What the operations of Sys2Proof/Machine/Pins.lean leave alone: what memory holds. -/

namespace Sys2Proof.Machine

open Sys2Proof

set_option linter.unusedTactic false
set_option linter.unreachableTactic false
set_option linter.unusedSimpArgs false

@[simp] theorem State.applyVoltages_memData (s : State) (l : List Fld) :
    (State.applyVoltages s l).memData = s.memData := by
  simp [State.applyVoltages]

@[simp] theorem State.applyCurrent_memData (s : State) (step : Int) (f : Fld) :
    (State.applyCurrent s step f).memData = s.memData := by
  simp [State.applyCurrent]

@[simp] theorem State.applyLevelSet_memData (s : State) (p : Nat) (k : Nat) :
    (State.applyLevelSet s p k).memData = s.memData := by
  simp [State.applyLevelSet]

@[simp] theorem State.applyClamps_memData (s : State) (p : Nat) :
    (State.applyClamps s p).memData = s.memData := by
  simp [State.applyClamps]

@[simp] theorem State.applyThreshold_memData (s : State) (p : Nat) :
    (State.applyThreshold s p).memData = s.memData := by
  simp [State.applyThreshold]

@[simp] theorem State.applyPpmu_memData (s : State) (p : Nat) :
    (State.applyPpmu s p).memData = s.memData := by
  simp [State.applyPpmu]

@[simp] theorem State.showCeiling_memData (s : State) (p : Nat) :
    (State.showCeiling s p).memData = s.memData := by
  simp [State.showCeiling]

@[simp] theorem State.applyPin_memData (s : State) (p : Nat) :
    (State.applyPin s p).memData = s.memData := by
  simp [State.applyPin]

@[simp] theorem State.pinWritten_memData (s : State) (p : Nat) :
    (State.pinWritten s p).memData = s.memData := by
  simp [State.pinWritten]

@[simp] theorem State.popPush_memData (s : State) (r : PopReading) :
    (State.popPush s r).memData = s.memData := by
  simp [State.popPush]

@[simp] theorem State.conditionReading_memData (s : State) (b : Nat) (serial : Nat) (r : CondReading) :
    (State.conditionReading s b serial r).memData = s.memData := by
  simp [State.conditionReading]

@[simp] theorem State.modCluster_memData (s : State) (c : Nat) (f : Cluster → Cluster) :
    (State.modCluster s c f).memData = s.memData := by
  simp [State.modCluster]

@[simp] theorem State.ppmuRunEnd_memData (s : State) (cl : Nat) (r : PpmuRun) :
    (State.ppmuRunEnd s cl r).memData = s.memData := by
  simp [State.ppmuRunEnd]

@[simp] theorem State.ppmuPinDone_memData (s : State) (cl : Nat) (i : Nat) (cmd : Cmd) (ok : Bool) (flagged : Bool) :
    (State.ppmuPinDone s cl i cmd ok flagged).memData = s.memData := by
  unfold State.ppmuPinDone; (repeat' split) <;> simp []

@[simp] theorem State.deliverPin_memData (s : State) (p : Nat) (m : PinMeas) (status : Nat) (conversions : Nat) (value : Int) (flags : Nat) (start : Nat) :
    (State.deliverPin s p m status conversions value flags start).memData = s.memData := by
  unfold State.deliverPin; (repeat' split) <;> simp []

@[simp] theorem State.startMeas_memData (s : State) (p : Nat) (m : PinMeas) :
    (State.startMeas s p m).memData = s.memData := by
  simp [State.startMeas]

@[simp] theorem State.cutMeas_memData (s : State) (p : Nat) (status : Nat) (n : Nat) (sum : Int) (start : Nat) (clamped : Bool) :
    (State.cutMeas s p status n sum start clamped).memData = s.memData := by
  unfold State.cutMeas; (repeat' split) <;> simp []

@[simp] theorem doPpmuReading_memData (p : Nat) (sum : BitVec 26) (clamped : Bool) (start : Nat) (s : State) :
    (doPpmuReading p sum clamped start s).memData = s.memData := by
  unfold doPpmuReading; (repeat' split) <;> simp []

end Sys2Proof.Machine
end

