-- ==== Sys2Proof/Laws/Kept/Routes.lean ====
section
/-! SUPPORT. What the operations of Sys2Proof/Machine/Routes.lean leave alone: what memory holds. -/

namespace Sys2Proof.Machine

open Sys2Proof

set_option linter.unusedTactic false
set_option linter.unreachableTactic false
set_option linter.unusedSimpArgs false

@[simp] theorem State.feltSend_memData (s : State) (dest : Nat) (typ : Nat) (tid : Nat) (poison : Nat) (flits : List Nat) :
    (State.feltSend s dest typ tid poison flits).memData = s.memData := by
  simp [State.feltSend]

@[simp] theorem State.sendReduce_memData (s : State) (dest : Nat) (test : Nat) (round : Nat) (kind : Nat) (check : Nat) (body : List Byte) :
    (State.sendReduce s dest test round kind check body).memData = s.memData := by
  simp [State.sendReduce]

end Sys2Proof.Machine
end

