-- ==== Sys2Proof/Laws/Kept/Pop.lean ====
section
/-! SUPPORT. What the operations of Sys2Proof/Machine/Pop.lean leave alone: what memory holds. -/

namespace Sys2Proof.Machine

open Sys2Proof

set_option linter.unusedTactic false
set_option linter.unreachableTactic false
set_option linter.unusedSimpArgs false

@[simp] theorem State.modPop_memData (s : State) (k : Nat) (f : PopTest → PopTest) :
    (State.modPop s k f).memData = s.memData := by
  unfold State.modPop; (repeat' split) <;> simp []

@[simp] theorem State.showTree_memData (s : State) :
    (State.showTree s).memData = s.memData := by
  simp [State.showTree]

@[simp] theorem State.popAsk_memData (s : State) (k : Nat) (l : List PopOp) :
    (State.popAsk s k l).memData = s.memData := by
  simp [State.popAsk]

@[simp] theorem State.tellFollowers_memData (s : State) (k : Nat) :
    (State.tellFollowers s k).memData = s.memData := by
  simp [State.tellFollowers]

@[simp] theorem State.tellChildren_memData (s : State) (t : PopTest) (kind : Nat) (body : List Byte) :
    (State.tellChildren s t kind body).memData = s.memData := by
  simp [State.tellChildren]

@[simp] theorem State.failTest_memData (s : State) (k : Nat) (st : Nat) :
    (State.failTest s k st).memData = s.memData := by
  unfold State.failTest; (repeat' split) <;> simp []

@[simp] theorem State.popMessage_memData (s : State) (test : Nat) (round : Nat) (check : Nat) (k : Nat → PopTest → State → State) (hk : ∀ x0 x1 x2, (k x0 x1 x2).memData = State.memData x2) :
    (State.popMessage s test round check k).memData = s.memData := by
  unfold State.popMessage; (repeat' (first | with_reducible rfl | (simp [hk]; done) | (split <;> try (rename_i heq; obtain ⟨_, rfl⟩ := Prod.ext_iff.mp heq)) | refine (State.memData_foldl _ (fun _ _ => ?_) _ _).trans ?_ | dsimp only | simp [hk]))

@[simp] theorem State.popChecked_memData (s : State) (c : Cmd) (more : PopTest → Bool) (k : Nat → PopTest → State → State) (hk : ∀ x0 x1 x2, (k x0 x1 x2).memData = State.memData x2) :
    (State.popChecked s c more k).memData = s.memData := by
  unfold State.popChecked; (repeat' split) <;> simp [hk]

@[simp] theorem doPopRead_memData (c : Cmd) (s : State) :
    (doPopRead c s).memData = s.memData := by
  simp [doPopRead]

@[simp] theorem State.endAnswers_memData (s : State) (t : PopTest) (st : Nat) :
    (State.endAnswers s t st).memData = s.memData := by
  unfold State.endAnswers; (repeat' (first | with_reducible rfl | (simp []; done) | (split <;> try (rename_i heq; obtain ⟨_, rfl⟩ := Prod.ext_iff.mp heq)) | refine (State.memData_foldl _ (fun _ _ => ?_) _ _).trans ?_ | dsimp only | simp []))

@[simp] theorem doPopRelease_memData (c : Cmd) (s : State) :
    (doPopRelease c s).memData = s.memData := by
  simp [doPopRelease]

end Sys2Proof.Machine
end

