-- ==== Sys2Proof/Laws/Keeps/Pop.lean ====
section
/-! SUPPORT. The operations of Sys2Proof/Machine/Pop.lean that reach memory: they keep its canonical form. -/

namespace Sys2Proof.Machine

open Sys2Proof

set_option linter.unusedTactic false
set_option linter.unreachableTactic false
set_option linter.unusedSimpArgs false

theorem State.workTouch_keeps (s : State) (t : PopTest) (off : Nat) (n : Nat) (hs : storeWf (State.memData s) = true) :
    storeWf ((State.workTouch s t off n).2.memData) = true := by
  unfold State.workTouch; (repeat' (first | with_reducible assumption | (simp [hs]; done) | with_reducible refine State.memWrite_keeps _ _ _ _ _  ?_ | (split <;> try (rename_i heq; obtain ⟨_, rfl⟩ := Prod.ext_iff.mp heq)) | with_reducible refine State.foldl_keeps _ (fun _ _ _ => ?_) _ _ ?_ | dsimp only | simp only [State.memData_update, State.memData_update_mem] | simp))

theorem State.workStore_keeps (s : State) (t : PopTest) (v2 : List (Nat × List Byte)) (hs : storeWf (State.memData s) = true) :
    storeWf ((State.workStore s t v2).2.memData) = true := by
  induction v2 generalizing s with
  | nil => exact hs
  | cons x l ih =>
    obtain ⟨off, data⟩ := x
    have h := State.memWrite_keeps s popCtx (t.work + off) data false hs
    unfold State.workStore
    split
    · rename_i heq
      rw [heq] at h
      exact ih _ h
    all_goals (rename_i heq; rw [heq] at h; exact h)

theorem popGo_keeps (k : Nat) (r : Work × State) (f : List Byte → State → PopRun) (hr : storeWf r.2.memData = true)
    (hf : ∀ d u, storeWf (State.memData u) = true → storeWf ((f d u).s.memData) = true) : storeWf ((popGo k r f).s.memData) = true := by
  obtain ⟨w, u⟩ := r
  cases w with
  | done d => exact hf d u hr
  | wait => exact hr
  | fail p => simpa [popGo] using hr

theorem State.popRecord_keeps (s : State) (k : Nat) (t : PopTest) (r : PopReading) (hs : storeWf s.memData = true) :
    storeWf ((s.popRecord k t r).s.memData) = true := by
  unfold State.popRecord
  repeat' (first | with_reducible assumption | (simp [*]; done) | with_reducible refine State.workStore_keeps _ _ _ ?_ | with_reducible refine State.workTouch_keeps _ _ _ _ ?_ | split | (refine popGo_keeps _ _ _ ?_ (fun _ _ _ => ?_)) | dsimp only | simp)

theorem State.popClose_keeps (s : State) (k : Nat) (t : PopTest)  (hs : storeWf s.memData = true) :
    storeWf ((s.popClose k t).s.memData) = true := by
  unfold State.popClose
  repeat' (first | with_reducible assumption | (simp [*]; done) | with_reducible refine State.workStore_keeps _ _ _ ?_ | with_reducible refine State.workTouch_keeps _ _ _ _ ?_ | split | (refine popGo_keeps _ _ _ ?_ (fun _ _ _ => ?_)) | dsimp only | simp)

theorem State.popSend_keeps (s : State) (k : Nat) (t : PopTest)  (hs : storeWf s.memData = true) :
    storeWf ((s.popSend k t).s.memData) = true := by
  unfold State.popSend
  repeat' (first | with_reducible assumption | (simp [*]; done) | with_reducible refine State.workStore_keeps _ _ _ ?_ | with_reducible refine State.workTouch_keeps _ _ _ _ ?_ | split | (refine popGo_keeps _ _ _ ?_ (fun _ _ _ => ?_)) | dsimp only | simp)

theorem State.popMerge_keeps (s : State) (k : Nat) (t : PopTest) (src covered : Nat) (late : Bool) (u o : Nat) (bins : List Nat) (hs : storeWf s.memData = true) :
    storeWf ((s.popMerge k t src covered late u o bins).s.memData) = true := by
  unfold State.popMerge
  dsimp only
  split
  · simpa using hs
  · split
    · simpa using hs
    · split
      · simpa using hs
      · have h := State.workTouch_keeps s t 0x4000 (4 * t.bins) hs
        split <;> (rename_i heq; rw [heq] at h)
        · exact popGo_keeps _ _ _ (State.workStore_keeps _ _ _ h) (fun _ _ hu => by simpa using hu)
        · exact h
        · simpa using h

theorem State.popFinal_keeps (s : State) (k : Nat) (t : PopTest) (time : Nat) (hs : storeWf s.memData = true) :
    storeWf ((s.popFinal k t time).s.memData) = true := by
  unfold State.popFinal
  repeat' (first | with_reducible assumption | (simp [*]; done) | with_reducible refine State.workStore_keeps _ _ _ ?_ | with_reducible refine State.workTouch_keeps _ _ _ _ ?_ | split | (refine popGo_keeps _ _ _ ?_ (fun _ _ _ => ?_)) | dsimp only | simp)

theorem State.popFinalFrom_keeps (s : State) (k : Nat) (t : PopTest) (body : List Byte) (hs : storeWf s.memData = true) :
    storeWf ((s.popFinalFrom k t body).s.memData) = true := by
  unfold State.popFinalFrom
  repeat' (first | with_reducible assumption | (simp [*]; done) | with_reducible refine State.workStore_keeps _ _ _ ?_ | with_reducible refine State.workTouch_keeps _ _ _ _ ?_ | split | (refine popGo_keeps _ _ _ ?_ (fun _ _ _ => ?_)) | dsimp only | simp)

theorem State.popResolve_keeps (s : State) (k : Nat) (t : PopTest)  (hs : storeWf s.memData = true) :
    storeWf ((s.popResolve k t).s.memData) = true := by
  unfold State.popResolve
  repeat' (first | with_reducible assumption | (simp [*]; done) | with_reducible refine State.workStore_keeps _ _ _ ?_ | with_reducible refine State.workTouch_keeps _ _ _ _ ?_ | split | (refine popGo_keeps _ _ _ ?_ (fun _ _ _ => ?_)) | dsimp only | simp)

theorem State.popUndo_keeps (s : State) (k : Nat) (t : PopTest) (site : Nat) (hs : storeWf s.memData = true) :
    storeWf ((s.popUndo k t site).s.memData) = true := by
  unfold State.popUndo
  repeat' (first | with_reducible assumption | (simp [*]; done) | with_reducible refine State.workStore_keeps _ _ _ ?_ | with_reducible refine State.workTouch_keeps _ _ _ _ ?_ | split | (refine popGo_keeps _ _ _ ?_ (fun _ _ _ => ?_)) | dsimp only | simp)

theorem State.popRun_keeps (s : State) (k : Nat) (t : PopTest) (op : PopOp) (hs : storeWf s.memData = true) :
    storeWf ((s.popRun k t op).s.memData) = true := by
  cases op <;> unfold State.popRun <;> repeat' (first | with_reducible assumption | with_reducible refine State.popRecord_keeps _ _ _ _ ?_ | with_reducible refine State.popClose_keeps _ _ _ ?_ | with_reducible refine State.popSend_keeps _ _ _ ?_ | with_reducible refine State.popMerge_keeps _ _ _ _ _ _ _ _ _ ?_ | with_reducible refine State.popFinal_keeps _ _ _ _ ?_ | with_reducible refine State.popFinalFrom_keeps _ _ _ _ ?_ | with_reducible refine State.popResolve_keeps _ _ _ ?_ | with_reducible refine State.popUndo_keeps _ _ _ _ ?_ | (simp [*]; done) | with_reducible refine State.workStore_keeps _ _ _ ?_ | with_reducible refine State.workTouch_keeps _ _ _ _ ?_ | split | (refine popGo_keeps _ _ _ ?_ (fun _ _ _ => ?_)) | dsimp only | simp)

theorem State.popPump_keeps (v0 : Nat) (v1 : Nat) (s : State) (hs : storeWf (State.memData s) = true) :
    storeWf ((State.popPump v0 v1 s).memData) = true := by
  induction v0 generalizing v1 s with
  | zero => exact hs
  | succ fuel ih =>
    unfold State.popPump
    split
    · exact hs
    · split
      · exact hs
      · dsimp only
        split
        · refine ih _ _ ?_
          rw [State.modPop_memData]
          exact State.popRun_keeps _ _ _ _ hs
        · exact State.popRun_keeps _ _ _ _ hs

theorem State.popGoOn_keeps (s : State) (k : Nat) (hs : storeWf (State.memData s) = true) :
    storeWf ((State.popGoOn s k).memData) = true := by
  unfold State.popGoOn; (repeat' (first | with_reducible assumption | (simp [hs]; done) | with_reducible refine State.popPump_keeps _ _ _  ?_ | (split <;> try (rename_i heq; obtain ⟨_, rfl⟩ := Prod.ext_iff.mp heq)) | with_reducible refine State.foldl_keeps _ (fun _ _ _ => ?_) _ _ ?_ | dsimp only | simp only [State.memData_update, State.memData_update_mem] | simp))

theorem State.popDo_keeps (s : State) (k : Nat) (l : List PopOp) (hs : storeWf (State.memData s) = true) :
    storeWf ((State.popDo s k l).memData) = true := by
  unfold State.popDo; (repeat' (first | with_reducible assumption | (simp [hs]; done) | with_reducible refine State.popGoOn_keeps _ _  ?_ | (split <;> try (rename_i heq; obtain ⟨_, rfl⟩ := Prod.ext_iff.mp heq)) | with_reducible refine State.foldl_keeps _ (fun _ _ _ => ?_) _ _ ?_ | dsimp only | simp only [State.memData_update, State.memData_update_mem] | simp))

theorem State.popRetry_keeps (s : State) (hs : storeWf (State.memData s) = true) :
    storeWf ((State.popRetry s).memData) = true := by
  unfold State.popRetry; (repeat' (first | with_reducible assumption | (simp [hs]; done) | with_reducible refine State.popDo_keeps _ _ _  ?_ | with_reducible refine State.popGoOn_keeps _ _  ?_ | (split <;> try (rename_i heq; obtain ⟨_, rfl⟩ := Prod.ext_iff.mp heq)) | with_reducible refine State.foldl_keeps _ (fun _ _ _ => ?_) _ _ ?_ | dsimp only | simp only [State.memData_update, State.memData_update_mem] | simp))

theorem State.popLeave_keeps (s : State) (site : Nat) (hs : storeWf (State.memData s) = true) :
    storeWf ((State.popLeave s site).memData) = true := by
  unfold State.popLeave; (repeat' (first | with_reducible assumption | (simp [hs]; done) | with_reducible refine State.popDo_keeps _ _ _  ?_ | (split <;> try (rename_i heq; obtain ⟨_, rfl⟩ := Prod.ext_iff.mp heq)) | with_reducible refine State.foldl_keeps _ (fun _ _ _ => ?_) _ _ ?_ | dsimp only | simp only [State.memData_update, State.memData_update_mem] | simp))

theorem State.popTake_keeps (s : State) (r : PopReading) (hs : storeWf (State.memData s) = true) :
    storeWf ((State.popTake s r).memData) = true := by
  unfold State.popTake; (repeat' (first | with_reducible assumption | (simp [hs]; done) | with_reducible refine State.popDo_keeps _ _ _  ?_ | (split <;> try (rename_i heq; obtain ⟨_, rfl⟩ := Prod.ext_iff.mp heq)) | with_reducible refine State.foldl_keeps _ (fun _ _ _ => ?_) _ _ ?_ | dsimp only | simp only [State.memData_update, State.memData_update_mem] | simp))

theorem doPopReading_keeps (s : State) (hs : storeWf (State.memData s) = true) :
    storeWf ((doPopReading s).memData) = true := by
  unfold doPopReading; (repeat' (first | with_reducible assumption | (simp [hs]; done) | with_reducible refine State.popTake_keeps _ _  ?_ | (split <;> try (rename_i heq; obtain ⟨_, rfl⟩ := Prod.ext_iff.mp heq)) | with_reducible refine State.foldl_keeps _ (fun _ _ _ => ?_) _ _ ?_ | dsimp only | simp only [State.memData_update, State.memData_update_mem] | simp))

theorem State.popMessage_keeps (s : State) (test : Nat) (round : Nat) (check : Nat) (k : Nat → PopTest → State → State) (hk : ∀ x0 x1 x2, storeWf (State.memData x2) = true → storeWf ((k x0 x1 x2).memData) = true) (hs : storeWf (State.memData s) = true) :
    storeWf ((State.popMessage s test round check k).memData) = true := by
  unfold State.popMessage; (repeat' (first | with_reducible assumption | (simp [hs]; done) | with_reducible refine hk _ _ _ ?_ | (split <;> try (rename_i heq; obtain ⟨_, rfl⟩ := Prod.ext_iff.mp heq)) | with_reducible refine State.foldl_keeps _ (fun _ _ _ => ?_) _ _ ?_ | dsimp only | simp only [State.memData_update, State.memData_update_mem] | simp))

theorem State.popReport_keeps (s : State) (src : Nat) (test : Nat) (round : Nat) (check : Nat) (covered : Nat) (late : Bool) (u : Nat) (o : Nat) (bins : List Nat) (hs : storeWf (State.memData s) = true) :
    storeWf ((State.popReport s src test round check covered late u o bins).memData) = true := by
  unfold State.popReport; (repeat' (first | with_reducible assumption | (simp [hs]; done) | with_reducible refine State.popDo_keeps _ _ _  ?_ | with_reducible refine State.popMessage_keeps _ _ _ _ _ (fun _ _ _ _ => ?_) ?_ | (split <;> try (rename_i heq; obtain ⟨_, rfl⟩ := Prod.ext_iff.mp heq)) | with_reducible refine State.foldl_keeps _ (fun _ _ _ => ?_) _ _ ?_ | dsimp only | simp only [State.memData_update, State.memData_update_mem] | simp))

theorem State.popLimits_keeps (s : State) (test : Nat) (round : Nat) (check : Nat) (body : List Byte) (hs : storeWf (State.memData s) = true) :
    storeWf ((State.popLimits s test round check body).memData) = true := by
  unfold State.popLimits; (repeat' (first | with_reducible assumption | (simp [hs]; done) | with_reducible refine State.popDo_keeps _ _ _  ?_ | with_reducible refine State.popMessage_keeps _ _ _ _ _ (fun _ _ _ _ => ?_) ?_ | (split <;> try (rename_i heq; obtain ⟨_, rfl⟩ := Prod.ext_iff.mp heq)) | with_reducible refine State.foldl_keeps _ (fun _ _ _ => ?_) _ _ ?_ | dsimp only | simp only [State.memData_update, State.memData_update_mem] | simp))

theorem State.popFailure_keeps (s : State) (test : Nat) (round : Nat) (check : Nat) (hs : storeWf (State.memData s) = true) :
    storeWf ((State.popFailure s test round check).memData) = true := by
  unfold State.popFailure; (repeat' (first | with_reducible assumption | (simp [hs]; done) | with_reducible refine State.popDo_keeps _ _ _  ?_ | with_reducible refine State.popMessage_keeps _ _ _ _ _ (fun _ _ _ _ => ?_) ?_ | (split <;> try (rename_i heq; obtain ⟨_, rfl⟩ := Prod.ext_iff.mp heq)) | with_reducible refine State.foldl_keeps _ (fun _ _ _ => ?_) _ _ ?_ | dsimp only | simp only [State.memData_update, State.memData_update_mem] | simp))

theorem doForwardDeadline_keeps (k : Nat) (s : State) (hs : storeWf (State.memData s) = true) :
    storeWf ((doForwardDeadline k s).memData) = true := by
  unfold doForwardDeadline; (repeat' (first | with_reducible assumption | (simp [hs]; done) | with_reducible refine State.popDo_keeps _ _ _  ?_ | (split <;> try (rename_i heq; obtain ⟨_, rfl⟩ := Prod.ext_iff.mp heq)) | with_reducible refine State.foldl_keeps _ (fun _ _ _ => ?_) _ _ ?_ | dsimp only | simp only [State.memData_update, State.memData_update_mem] | simp))

theorem doDeadline_keeps (k : Nat) (s : State) (hs : storeWf (State.memData s) = true) :
    storeWf ((doDeadline k s).memData) = true := by
  unfold doDeadline; (repeat' (first | with_reducible assumption | (simp [hs]; done) | with_reducible refine State.popDo_keeps _ _ _  ?_ | (split <;> try (rename_i heq; obtain ⟨_, rfl⟩ := Prod.ext_iff.mp heq)) | with_reducible refine State.foldl_keeps _ (fun _ _ _ => ?_) _ _ ?_ | dsimp only | simp only [State.memData_update, State.memData_update_mem] | simp))

theorem State.passDeadlines_keeps (s : State) (hs : storeWf (State.memData s) = true) :
    storeWf ((State.passDeadlines s).memData) = true := by
  unfold State.passDeadlines; (repeat' (first | with_reducible assumption | (simp [hs]; done) | with_reducible refine doDeadline_keeps _ _  ?_ | with_reducible refine doForwardDeadline_keeps _ _  ?_ | (split <;> try (rename_i heq; obtain ⟨_, rfl⟩ := Prod.ext_iff.mp heq)) | with_reducible refine State.foldl_keeps _ (fun _ _ _ => ?_) _ _ ?_ | dsimp only | simp only [State.memData_update, State.memData_update_mem] | simp))

theorem doPopDefine_keeps (c : Cmd) (s : State) (hs : storeWf (State.memData s) = true) :
    storeWf ((doPopDefine c s).memData) = true := by
  unfold doPopDefine; (repeat' (first | with_reducible assumption | (simp [hs]; done) | with_reducible refine State.checked_keeps _ _ _ _ (fun _ _ => ?_) ?_ | with_reducible refine State.popDo_keeps _ _ _  ?_ | with_reducible refine doDeadline_keeps _ _  ?_ | with_reducible refine doForwardDeadline_keeps _ _  ?_ | (split <;> try (rename_i heq; obtain ⟨_, rfl⟩ := Prod.ext_iff.mp heq)) | with_reducible refine State.foldl_keeps _ (fun _ _ _ => ?_) _ _ ?_ | dsimp only | simp only [State.memData_update, State.memData_update_mem] | simp))

theorem State.popChecked_keeps (s : State) (c : Cmd) (more : PopTest → Bool) (k : Nat → PopTest → State → State) (hk : ∀ x0 x1 x2, storeWf (State.memData x2) = true → storeWf ((k x0 x1 x2).memData) = true) (hs : storeWf (State.memData s) = true) :
    storeWf ((State.popChecked s c more k).memData) = true := by
  unfold State.popChecked; (repeat' (first | with_reducible assumption | (simp [hs]; done) | with_reducible refine State.checked_keeps _ _ _ _ (fun _ _ => ?_) ?_ | with_reducible refine hk _ _ _ ?_ | (split <;> try (rename_i heq; obtain ⟨_, rfl⟩ := Prod.ext_iff.mp heq)) | with_reducible refine State.foldl_keeps _ (fun _ _ _ => ?_) _ _ ?_ | dsimp only | simp only [State.memData_update, State.memData_update_mem] | simp))

theorem doPopFinalise_keeps (c : Cmd) (s : State) (hs : storeWf (State.memData s) = true) :
    storeWf ((doPopFinalise c s).memData) = true := by
  unfold doPopFinalise; (repeat' (first | with_reducible assumption | (simp [hs]; done) | with_reducible refine State.popChecked_keeps _ _ _ _ (fun _ _ _ _ => ?_) ?_ | with_reducible refine State.popDo_keeps _ _ _  ?_ | (split <;> try (rename_i heq; obtain ⟨_, rfl⟩ := Prod.ext_iff.mp heq)) | with_reducible refine State.foldl_keeps _ (fun _ _ _ => ?_) _ _ ?_ | dsimp only | simp only [State.memData_update, State.memData_update_mem] | simp))

theorem State.popWithdraw_keeps (s : State) (test : Nat) (site : Nat) (hs : storeWf (State.memData s) = true) :
    storeWf ((State.popWithdraw s test site).memData) = true := by
  unfold State.popWithdraw; (repeat' (first | with_reducible assumption | (simp [hs]; done) | with_reducible refine State.popDo_keeps _ _ _  ?_ | (split <;> try (rename_i heq; obtain ⟨_, rfl⟩ := Prod.ext_iff.mp heq)) | with_reducible refine State.foldl_keeps _ (fun _ _ _ => ?_) _ _ ?_ | dsimp only | simp only [State.memData_update, State.memData_update_mem] | simp))

end Sys2Proof.Machine
end

