-- ==== Sys2Proof/Laws/Kept/Words.lean ====
section
/-! SUPPORT. What the operations of Sys2Proof/Machine/Words.lean leave alone: what memory holds. -/

namespace Sys2Proof.Machine

open Sys2Proof

set_option linter.unusedTactic false
set_option linter.unreachableTactic false
set_option linter.unusedSimpArgs false

@[simp] theorem State.holdPin_memData (s : State) (g : Program) (x : SitePos) (p : Nat) (i : Nat) (j : Nat) :
    (State.holdPin s g x p i j).memData = s.memData := by
  simp [State.holdPin]

@[simp] theorem State.holdVector_memData (s : State) (g : Program) (x : SitePos) (p : Nat) (i : Nat) (j : Nat) :
    (State.holdVector s g x p i j).memData = s.memData := by
  simp [State.holdVector]

@[simp] theorem State.applyHold_memData (s : State) (b : Nat) (g : Program) (positions : Nat) :
    (State.applyHold s b g positions).memData = s.memData := by
  simp [State.applyHold]

@[simp] theorem State.applyHoldVector_memData (s : State) (b : Nat) (g : Program) (positions : Nat) :
    (State.applyHoldVector s b g positions).memData = s.memData := by
  simp [State.applyHoldVector]

@[simp] theorem State.settleResults_memData (s : State) (b : Nat) :
    (State.settleResults s b).memData = s.memData := by
  simp [State.settleResults]

@[simp] theorem State.closeWord_memData (s : State) (b : Nat) :
    (State.closeWord s b).memData = s.memData := by
  simp [State.closeWord]

end Sys2Proof.Machine
end

