-- ==== Sys2Proof/Laws/Kept/Rings.lean ====
section
/-! SUPPORT. What the operations of Sys2Proof/Machine/Rings.lean leave alone: what memory holds. -/

namespace Sys2Proof.Machine

open Sys2Proof

set_option linter.unusedTactic false
set_option linter.unreachableTactic false
set_option linter.unusedSimpArgs false

@[simp] theorem State.showBuffer_memData (s : State) (n : Nat) :
    (State.showBuffer s n).memData = s.memData := by
  simp [State.showBuffer]

@[simp] theorem State.showRing_memData (s : State) (g : Nat) :
    (State.showRing s g).memData = s.memData := by
  simp [State.showRing]

@[simp] theorem State.leaveRing_memData (s : State) (lag : Bool) (n : Nat) :
    (State.leaveRing s lag n).memData = s.memData := by
  unfold State.leaveRing; (repeat' split) <;> simp []

@[simp] theorem State.idleStreams_memData (s : State) (b : Nat) :
    (State.idleStreams s b).memData = s.memData := by
  simp [State.idleStreams]

end Sys2Proof.Machine
end

