-- ==== Sys2Proof/Laws/Kept/Stops.lean ====
section
/-! SUPPORT. What the operations of Sys2Proof/Machine/Stops.lean leave alone: what memory holds. -/

namespace Sys2Proof.Machine

open Sys2Proof

set_option linter.unusedTactic false
set_option linter.unreachableTactic false
set_option linter.unusedSimpArgs false

@[simp] theorem State.showExec_memData (s : State) (b : Nat) :
    (State.showExec s b).memData = s.memData := by
  unfold State.showExec; (repeat' split) <;> simp []

@[simp] theorem State.completeAll_memData (s : State) (l : List Cmd) (st : Nat) (res : Nat) :
    (State.completeAll s l st res).memData = s.memData := by
  simp [State.completeAll]

@[simp] theorem State.endIssue_memData (s : State) (b : Nat) :
    (State.endIssue s b).memData = s.memData := by
  unfold State.endIssue; (repeat' split) <;> simp []

@[simp] theorem State.stopGroup_memData (s : State) (b : Nat) (st : Nat) :
    (State.stopGroup s b st).memData = s.memData := by
  simp [State.stopGroup]

@[simp] theorem State.stopAllSites_memData (s : State) (b : Nat) (st : Nat) :
    (State.stopAllSites s b st).memData = s.memData := by
  simp [State.stopAllSites]

@[simp] theorem State.cutGroup_memData (s : State) (b : Nat) (st : Nat) :
    (State.cutGroup s b st).memData = s.memData := by
  simp [State.cutGroup]

@[simp] theorem State.haltGroup_memData (s : State) (b : Nat) (st : Nat) :
    (State.haltGroup s b st).memData = s.memData := by
  simp [State.haltGroup]

end Sys2Proof.Machine
end

