-- ==== Sys2Proof/Laws/Kept/Blocks.lean ====
section
/-! SUPPORT. What the operations of Sys2Proof/Machine/Blocks.lean leave alone: what memory holds. -/

namespace Sys2Proof.Machine

open Sys2Proof

set_option linter.unusedTactic false
set_option linter.unreachableTactic false
set_option linter.unusedSimpArgs false

@[simp] theorem State.readBlock_memData (s : State) (h : Header) (n : Nat) (lanes : Nat) (lane : Nat) (seg : Nat) (ref : Nat) (consumer : Nat) (spec : Bool) :
    (State.readBlock s h n lanes lane seg ref consumer spec).2.memData = s.memData := by
  unfold State.readBlock; (repeat' (first | with_reducible rfl | (simp []; done) | (split <;> try (rename_i heq; obtain ⟨_, rfl⟩ := Prod.ext_iff.mp heq)) | refine (State.memData_foldl _ (fun _ _ => ?_) _ _).trans ?_ | dsimp only | simp []))

end Sys2Proof.Machine
end

