-- ==== Sys2Proof/Laws/Kept/Timing.lean ====
section
/-! SUPPORT. What the operations of Sys2Proof/Machine/Timing.lean leave alone: what memory holds. -/

namespace Sys2Proof.Machine

open Sys2Proof

set_option linter.unusedTactic false
set_option linter.unreachableTactic false
set_option linter.unusedSimpArgs false

@[simp] theorem State.setTsWritten_memData (s : State) (key : Nat) (v : Nat) :
    (State.setTsWritten s key v).memData = s.memData := by
  simp [State.setTsWritten]

@[simp] theorem State.setTsApplied_memData (s : State) (key : Nat) (v : Nat) :
    (State.setTsApplied s key v).memData = s.memData := by
  simp [State.setTsApplied]

@[simp] theorem State.setTsErr_memData (s : State) (c : Nat) (t : Nat) (b : Bool) :
    (State.setTsErr s c t b).memData = s.memData := by
  simp [State.setTsErr]

@[simp] theorem State.applySet_memData (s : State) (c : Nat) (t : Nat) :
    (State.applySet s c t).memData = s.memData := by
  simp [State.applySet]

@[simp] theorem State.recheckSets_memData (s : State) (c : Nat) :
    (State.recheckSets s c).memData = s.memData := by
  simp [State.recheckSets]

@[simp] theorem State.startRelock_memData (s0 : State) (c : Nat) :
    (State.startRelock s0 c).memData = s0.memData := by
  simp [State.startRelock]

@[simp] theorem State.applyFreq_memData (s : State) (c : Nat) (v : Nat) :
    (State.applyFreq s c v).memData = s.memData := by
  simp [State.applyFreq]

@[simp] theorem State.freqWritten_memData (s : State) (c : Nat) :
    (State.freqWritten s c).memData = s.memData := by
  simp [State.freqWritten]

@[simp] theorem State.tsWrite_memData (s : State) (key : Nat) (v : Nat) :
    (State.tsWrite s key v).memData = s.memData := by
  simp [State.tsWrite]

@[simp] theorem State.applyDeskew_memData (s : State) (c : Nat) (i : Nat) :
    (State.applyDeskew s c i).memData = s.memData := by
  simp [State.applyDeskew]

@[simp] theorem State.deskewWritten_memData (s : State) (p : Nat) :
    (State.deskewWritten s p).memData = s.memData := by
  simp [State.deskewWritten]

@[simp] theorem State.releaseTiming_memData (s : State) (c : Nat) (f : Nat → Bool) :
    (State.releaseTiming s c f).memData = s.memData := by
  simp [State.releaseTiming]

@[simp] theorem State.releasePins_memData (s : State) (n : Nat) :
    (State.releasePins s n).memData = s.memData := by
  simp [State.releasePins]

@[simp] theorem State.takePeriods_memData (s : State) (c : Nat) :
    (State.takePeriods s c).memData = s.memData := by
  unfold State.takePeriods; (repeat' (first | with_reducible rfl | (simp []; done) | (split <;> try (rename_i heq; obtain ⟨_, rfl⟩ := Prod.ext_iff.mp heq)) | refine (State.memData_foldl _ (fun _ _ => ?_) _ _).trans ?_ | dsimp only | simp []))

@[simp] theorem State.releaseCluster_memData (s : State) (c : Nat) :
    (State.releaseCluster s c).memData = s.memData := by
  simp [State.releaseCluster]

@[simp] theorem State.alignCluster_memData (s : State) (c : Nat) :
    (State.alignCluster s c).memData = s.memData := by
  simp [State.alignCluster]

@[simp] theorem doRelockEnd_memData (c : Nat) (s0 : State) :
    (doRelockEnd c s0).memData = s0.memData := by
  simp [doRelockEnd]

@[simp] theorem doPllLockLoss_memData (c : Nat) (s : State) :
    (doPllLockLoss c s).memData = s.memData := by
  simp [doPllLockLoss]

end Sys2Proof.Machine
end

