-- ==== Sys2Proof/Laws/Kept/Streams.lean ====
section
/-! SUPPORT. What the operations of Sys2Proof/Machine/Streams.lean leave alone: what memory holds. -/

namespace Sys2Proof.Machine

open Sys2Proof

set_option linter.unusedTactic false
set_option linter.unreachableTactic false
set_option linter.unusedSimpArgs false

@[simp] theorem State.appliedTo_memData (s : State) (b : Nat) (t : Nat) :
    (State.appliedTo s b t).memData = s.memData := by
  simp [State.appliedTo]

@[simp] theorem State.applyDue_memData (s : State) (b : Nat) :
    (State.applyDue s b).memData = s.memData := by
  unfold State.applyDue; (repeat' (first | with_reducible rfl | (simp []; done) | (split <;> try (rename_i heq; obtain ⟨_, rfl⟩ := Prod.ext_iff.mp heq)) | refine (State.memData_foldl _ (fun _ _ => ?_) _ _).trans ?_ | dsimp only | simp []))

@[simp] theorem State.keepEntries_memData (s : State) (n : Nat) (k : Nat) :
    (State.keepEntries s n k).memData = s.memData := by
  simp [State.keepEntries]

@[simp] theorem State.departGroup_memData (s : State) (b : Nat) (lag : Bool) :
    (State.departGroup s b lag).memData = s.memData := by
  simp [State.departGroup]

@[simp] theorem State.dropRingFrom_memData (s : State) (g : Nat) (k : Nat) :
    (State.dropRingFrom s g k).memData = s.memData := by
  simp [State.dropRingFrom]

@[simp] theorem State.writeRing_memData (s : State) (g : Nat) (x : Block) :
    (State.writeRing s g x).memData = s.memData := by
  simp [State.writeRing]

@[simp] theorem State.takeRing_memData (s : State) (g : Nat) (n : Nat) :
    (State.takeRing s g n).memData = s.memData := by
  unfold State.takeRing; dsimp only; (repeat' split) <;> simp []

@[simp] theorem State.alignStreams_memData (s : State) (b : Nat) :
    (State.alignStreams s b).memData = s.memData := by
  unfold State.alignStreams; (repeat' (first | with_reducible rfl | (simp []; done) | (split <;> try (rename_i heq; obtain ⟨_, rfl⟩ := Prod.ext_iff.mp heq)) | refine (State.memData_foldl _ (fun _ _ => ?_) _ _).trans ?_ | dsimp only | simp []))

@[simp] theorem State.showRingOf_memData (s : State) (n : Nat) :
    (State.showRingOf s n).memData = s.memData := by
  unfold State.showRingOf; (repeat' (first | with_reducible rfl | (simp []; done) | (split <;> try (rename_i heq; obtain ⟨_, rfl⟩ := Prod.ext_iff.mp heq)) | refine (State.memData_foldl _ (fun _ _ => ?_) _ _).trans ?_ | dsimp only | simp []))

@[simp] theorem State.takeLanes_memData (s : State) (b : Nat) :
    (State.takeLanes s b).2.memData = s.memData := by
  unfold State.takeLanes; (repeat' (first | with_reducible rfl | (simp []; done) | (split <;> try (rename_i heq; obtain ⟨_, rfl⟩ := Prod.ext_iff.mp heq)) | refine (State.memData_foldl _ (fun _ _ => ?_) _ _).trans ?_ | dsimp only | simp []))

@[simp] theorem State.joinRing_memData (s : State) (r : Nat) (n : Nat) (lane : Nat) (image : Nat) (segment : Nat) (addr : Nat) (out : Nat × Nat) :
    (State.joinRing s r n lane image segment addr out).memData = s.memData := by
  simp [State.joinRing]

@[simp] theorem State.tryJoin_memData (s : State) (b : Nat) (g : Program) (segment : Nat) (addr : Nat) :
    (State.tryJoin s b g segment addr).memData = s.memData := by
  simp [State.tryJoin]

@[simp] theorem State.recordTags_memData (s : State) (b : Nat) (g : Program) (addr : Nat) :
    (State.recordTags s b g addr).memData = s.memData := by
  unfold State.recordTags; (repeat' (first | with_reducible rfl | (simp []; done) | (split <;> try (rename_i heq; obtain ⟨_, rfl⟩ := Prod.ext_iff.mp heq)) | refine (State.memData_foldl _ (fun _ _ => ?_) _ _).trans ?_ | dsimp only | simp []))

@[simp] theorem State.privateArrival_memData (s : State) (n : Nat) (x : Block) :
    (State.privateArrival s n x).memData = s.memData := by
  simp [State.privateArrival]

@[simp] theorem State.ringArrival_memData (s : State) (r : Nat) (p : Nat) (n : Nat) (x : Block) :
    (State.ringArrival s r p n x).memData = s.memData := by
  simp [State.ringArrival]

@[simp] theorem State.fetchBlock_memData (s : State) (b : Nat) (n : Nat) (g : Program) (put : State → Block → State) (hput : ∀ x0 x1, (put x0 x1).memData = State.memData x0) :
    (State.fetchBlock s b n g put).memData = s.memData := by
  unfold State.fetchBlock; (repeat' (first | with_reducible rfl | (simp [hput]; done) | (split <;> try (rename_i heq; obtain ⟨_, rfl⟩ := Prod.ext_iff.mp heq)) | refine (State.memData_foldl _ (fun _ _ => ?_) _ _).trans ?_ | dsimp only | simp [hput]))

@[simp] theorem State.leaveAndFetch_memData (s : State) (b : Nat) (n : Nat) (g : Program) (lag : Bool) :
    (State.leaveAndFetch s b n g lag).memData = s.memData := by
  simp [State.leaveAndFetch]

@[simp] theorem State.pilotFetch_memData (s : State) (b : Nat) (n : Nat) (r : Nat) (g : Program) (i : PathItem) :
    (State.pilotFetch s b n r g i).memData = s.memData := by
  unfold State.pilotFetch; (repeat' (first | with_reducible rfl | refine State.fetchBlock_memData _ _ _ _ _ (fun _ _ => ?_) | (simp []; done) | (split <;> try (rename_i heq; obtain ⟨_, rfl⟩ := Prod.ext_iff.mp heq)) | refine (State.memData_foldl _ (fun _ _ => ?_) _ _).trans ?_ | dsimp only | simp []))

@[simp] theorem State.ringBlock_memData (s : State) (b : Nat) (n : Nat) (r : Nat) (g : Program) :
    (State.ringBlock s b n r g).memData = s.memData := by
  unfold State.ringBlock
  extract_lets ring q
  clear_value ring q
  split
  · rfl
  · split
    · simp
    · split
      · split
        · simp
        · split
          · exact (State.fetchBlock_memData _ _ _ _ _ (fun _ _ => by simp)).trans (by simp)
          · simp
      · split
        · exact State.fetchBlock_memData _ _ _ _ _ (fun _ _ => by simp)
        · simp

@[simp] theorem doStreamBlockArrival_memData (n : Nat) (s : State) :
    (doStreamBlockArrival n s).memData = s.memData := by
  unfold doStreamBlockArrival; dsimp only; (repeat' split) <;> simp []

end Sys2Proof.Machine
end

