-- ==== Sys2Proof/Laws/Keeps/Slots.lean ====
section
/-! SUPPORT. The operations of Sys2Proof/Machine/Slots.lean that reach memory: they keep its canonical form. -/

namespace Sys2Proof.Machine

open Sys2Proof

set_option linter.unusedTactic false
set_option linter.unreachableTactic false
set_option linter.unusedSimpArgs false

theorem State.scheduleOr_keeps (s : State) (b : Nat) (last : State → State) (hlast : ∀ x0, storeWf (State.memData x0) = true → storeWf ((last x0).memData) = true) (hs : storeWf (State.memData s) = true) :
    storeWf ((State.scheduleOr s b last).memData) = true := by
  unfold State.scheduleOr; (repeat' (first | with_reducible assumption | (simp [hs]; done) | with_reducible refine hlast _ ?_ | (split <;> try (rename_i heq; obtain ⟨_, rfl⟩ := Prod.ext_iff.mp heq)) | with_reducible refine State.foldl_keeps _ (fun _ _ _ => ?_) _ _ ?_ | dsimp only | simp only [State.memData_update, State.memData_update_mem] | simp))

theorem State.reconvergeOr_keeps (s : State) (b : Nat) (addr : Nat) (last : State → State) (hlast : ∀ x0, storeWf (State.memData x0) = true → storeWf ((last x0).memData) = true) (hs : storeWf (State.memData s) = true) :
    storeWf ((State.reconvergeOr s b addr last).memData) = true := by
  unfold State.reconvergeOr; (repeat' (first | with_reducible assumption | (simp [hs]; done) | with_reducible refine State.scheduleOr_keeps _ _ _ (fun _ _ => ?_) ?_ | with_reducible refine hlast _ ?_ | (split <;> try (rename_i heq; obtain ⟨_, rfl⟩ := Prod.ext_iff.mp heq)) | with_reducible refine State.foldl_keeps _ (fun _ _ _ => ?_) _ _ ?_ | dsimp only | simp only [State.memData_update, State.memData_update_mem] | simp))

theorem State.retireOr_keeps (s : State) (b : Nat) (last : State → State) (hlast : ∀ x0, storeWf (State.memData x0) = true → storeWf ((last x0).memData) = true) (hs : storeWf (State.memData s) = true) :
    storeWf ((State.retireOr s b last).memData) = true := by
  unfold State.retireOr; (repeat' (first | with_reducible assumption | (simp [hs]; done) | with_reducible refine State.scheduleOr_keeps _ _ _ (fun _ _ => ?_) ?_ | with_reducible refine hlast _ ?_ | (split <;> try (rename_i heq; obtain ⟨_, rfl⟩ := Prod.ext_iff.mp heq)) | with_reducible refine State.foldl_keeps _ (fun _ _ _ => ?_) _ _ ?_ | dsimp only | simp only [State.memData_update, State.memData_update_mem] | simp))

end Sys2Proof.Machine
end

