-- ==== Sys2Proof/Laws/Kept/Issue.lean ====
section
/-! SUPPORT. What the operations of Sys2Proof/Machine/Issue.lean leave alone: what memory holds. -/

namespace Sys2Proof.Machine

open Sys2Proof

set_option linter.unusedTactic false
set_option linter.unreachableTactic false
set_option linter.unusedSimpArgs false

@[simp] theorem State.queueEmptied_memData (s : State) (b : Nat) :
    (State.queueEmptied s b).memData = s.memData := by
  unfold State.queueEmptied; (repeat' (first | with_reducible rfl | (simp []; done) | (split <;> try (rename_i heq; obtain ⟨_, rfl⟩ := Prod.ext_iff.mp heq)) | refine (State.memData_foldl _ (fun _ _ => ?_) _ _).trans ?_ | dsimp only | simp []))

@[simp] theorem State.startClock_memData (s : State) (b : Nat) :
    (State.startClock s b).memData = s.memData := by
  unfold State.startClock; (repeat' (first | with_reducible rfl | (simp []; done) | (split <;> try (rename_i heq; obtain ⟨_, rfl⟩ := Prod.ext_iff.mp heq)) | refine (State.memData_foldl _ (fun _ _ => ?_) _ _).trans ?_ | dsimp only | simp []))

@[simp] theorem State.holdPeriods_memData (s : State) (b : Nat) (n : Nat) :
    (State.holdPeriods s b n).memData = s.memData := by
  unfold State.holdPeriods; (repeat' (first | with_reducible rfl | (simp []; done) | (split <;> try (rename_i heq; obtain ⟨_, rfl⟩ := Prod.ext_iff.mp heq)) | refine (State.memData_foldl _ (fun _ _ => ?_) _ _).trans ?_ | dsimp only | simp []))

@[simp] theorem State.cutHold_memData (s : State) (b : Nat) :
    (State.cutHold s b).memData = s.memData := by
  unfold State.cutHold; (repeat' (first | with_reducible rfl | (simp []; done) | (split <;> try (rename_i heq; obtain ⟨_, rfl⟩ := Prod.ext_iff.mp heq)) | refine (State.memData_foldl _ (fun _ _ => ?_) _ _).trans ?_ | dsimp only | simp []))

@[simp] theorem State.issueCut_memData (s : State) (b : Nat) :
    (State.issueCut s b).memData = s.memData := by
  unfold State.issueCut; (repeat' (first | with_reducible rfl | (simp []; done) | (split <;> try (rename_i heq; obtain ⟨_, rfl⟩ := Prod.ext_iff.mp heq)) | refine (State.memData_foldl _ (fun _ _ => ?_) _ _).trans ?_ | dsimp only | simp []))

@[simp] theorem State.blockOn_memData (s : State) (b : Nat) (cause : Nat) :
    (State.blockOn s b cause).memData = s.memData := by
  unfold State.blockOn; (repeat' (first | with_reducible rfl | (simp []; done) | (split <;> try (rename_i heq; obtain ⟨_, rfl⟩ := Prod.ext_iff.mp heq)) | refine (State.memData_foldl _ (fun _ _ => ?_) _ _).trans ?_ | dsimp only | simp []))

@[simp] theorem State.clearBlock_memData (s : State) (b : Nat) :
    (State.clearBlock s b).memData = s.memData := by
  unfold State.clearBlock; (repeat' (first | with_reducible rfl | (simp []; done) | (split <;> try (rename_i heq; obtain ⟨_, rfl⟩ := Prod.ext_iff.mp heq)) | refine (State.memData_foldl _ (fun _ _ => ?_) _ _).trans ?_ | dsimp only | simp []))

@[simp] theorem State.actBlock_memData (s : State) (regs : List Nat) (x : Block) (pos : SitePos) (p : Nat) (j : Nat) (set : Nat) (n : Nat) :
    (State.actBlock s regs x pos p j set n).memData = s.memData := by
  simp [State.actBlock]

@[simp] theorem State.actPosition_memData (s : State) (b : Nat) (g : Program) (lanes : List Block) (set : Nat) :
    (State.actPosition s b g lanes set).memData = s.memData := by
  unfold State.actPosition; (repeat' (first | with_reducible rfl | (simp []; done) | (split <;> try (rename_i heq; obtain ⟨_, rfl⟩ := Prod.ext_iff.mp heq)) | refine (State.memData_foldl _ (fun _ _ => ?_) _ _).trans ?_ | dsimp only | simp []))

@[simp] theorem State.attach_memData (s : State) (b : Nat) (w : Nat) (active : Nat) (vectors : Bool) :
    (State.attach s b w active vectors).memData = s.memData := by
  simp [State.attach]

@[simp] theorem State.beforeFirst_memData (s : State) (b : Nat) (g : Program) :
    (State.beforeFirst s b g).memData = s.memData := by
  simp [State.beforeFirst]

@[simp] theorem State.issuePosition_memData (s : State) (b : Nat) (w : Nat) (first : Bool) :
    (State.issuePosition s b w first).memData = s.memData := by
  unfold State.issuePosition; (repeat' (first | with_reducible rfl | (simp []; done) | (split <;> try (rename_i heq; obtain ⟨_, rfl⟩ := Prod.ext_iff.mp heq)) | refine (State.memData_foldl _ (fun _ _ => ?_) _ _).trans ?_ | dsimp only | simp []))

@[simp] theorem State.issueHold_memData (s : State) (b : Nat) (w : Nat) :
    (State.issueHold s b w).memData = s.memData := by
  unfold State.issueHold; (repeat' (first | with_reducible rfl | (simp []; done) | (split <;> try (rename_i heq; obtain ⟨_, rfl⟩ := Prod.ext_iff.mp heq)) | refine (State.memData_foldl _ (fun _ _ => ?_) _ _).trans ?_ | dsimp only | simp []))

@[simp] theorem State.issueRest_memData (s : State) (b : Nat) (w : Nat) (v3 : Nat) :
    (State.issueRest s b w v3).memData = s.memData := by
  induction v3 generalizing s b w <;> unfold State.issueRest <;> (repeat' (first | with_reducible rfl | (simp [*]; done) | (split <;> try (rename_i heq; obtain ⟨_, rfl⟩ := Prod.ext_iff.mp heq)) | refine (State.memData_foldl _ (fun _ _ => ?_) _ _).trans ?_ | dsimp only | simp []))

@[simp] theorem State.takeSnapshot_memData (s : State) (b : Nat) :
    (State.takeSnapshot s b).memData = s.memData := by
  unfold State.takeSnapshot; (repeat' (first | with_reducible rfl | (simp []; done) | (split <;> try (rename_i heq; obtain ⟨_, rfl⟩ := Prod.ext_iff.mp heq)) | refine (State.memData_foldl _ (fun _ _ => ?_) _ _).trans ?_ | dsimp only | simp []))

@[simp] theorem State.afterVectors_memData (s : State) (b : Nat) (w : Nat) :
    (State.afterVectors s b w).memData = s.memData := by
  unfold State.afterVectors; (repeat' (first | with_reducible rfl | (simp []; done) | (split <;> try (rename_i heq; obtain ⟨_, rfl⟩ := Prod.ext_iff.mp heq)) | refine (State.memData_foldl _ (fun _ _ => ?_) _ _).trans ?_ | dsimp only | simp []))

@[simp] theorem State.finishBlocks_memData (s : State) (b : Nat) (w : Nat) :
    (State.finishBlocks s b w).memData = s.memData := by
  unfold State.finishBlocks; (repeat' (first | with_reducible rfl | (simp []; done) | (split <;> try (rename_i heq; obtain ⟨_, rfl⟩ := Prod.ext_iff.mp heq)) | refine (State.memData_foldl _ (fun _ _ => ?_) _ _).trans ?_ | dsimp only | simp []))

@[simp] theorem State.issueReady_memData (s : State) (b : Nat) (w : Nat) :
    (State.issueReady s b w).memData = s.memData := by
  unfold State.issueReady; (repeat' (first | with_reducible rfl | (simp []; done) | (split <;> try (rename_i heq; obtain ⟨_, rfl⟩ := Prod.ext_iff.mp heq)) | refine (State.memData_foldl _ (fun _ _ => ?_) _ _).trans ?_ | dsimp only | simp []))

@[simp] theorem State.issueWord_memData (s : State) (b : Nat) (i : Nat) (w : Nat) (holds : Nat) :
    (State.issueWord s b i w holds).memData = s.memData := by
  unfold State.issueWord; (repeat' (first | with_reducible rfl | (simp []; done) | (split <;> try (rename_i heq; obtain ⟨_, rfl⟩ := Prod.ext_iff.mp heq)) | refine (State.memData_foldl _ (fun _ _ => ?_) _ _).trans ?_ | dsimp only | simp []))

@[simp] theorem State.illegalWord_memData (s : State) (b : Nat) (i : Nat) (pc : Nat) :
    (State.illegalWord s b i pc).memData = s.memData := by
  simp [State.illegalWord]

theorem State.dueHostTrap_memData (s : State) (b : Nat) (g : Program) :
    ∀ t, (State.dueHostTrap s b g) = some t → t.memData = s.memData := by
  unfold State.dueHostTrap; (repeat' (first | with_reducible rfl | (simp []; done) | (split <;> try (rename_i heq; obtain ⟨_, rfl⟩ := Prod.ext_iff.mp heq)) | refine (State.memData_foldl _ (fun _ _ => ?_) _ _).trans ?_ | dsimp only | simp []))

@[simp] theorem State.reachWord_memData (s : State) (b : Nat) (i : Nat) (w : Nat) (holds : Nat) :
    (State.reachWord s b i w holds).memData = s.memData := by
  unfold State.reachWord
  split
  · rfl
  · rename_i g _
    extract_lets illegal ready
    have hd := State.dueHostTrap_memData s b g
    split
    · simp
    · split
      · rename_i t ht
        split
        · exact hd t ht
        · simp
      · (repeat' split) <;> simp

@[simp] theorem State.nextWord_memData (s0 : State) (b : Nat) (cls : Nat → Bool) (holds : Nat) :
    (State.nextWord s0 b cls holds).memData = s0.memData := by
  unfold State.nextWord; (repeat' (first | with_reducible rfl | (simp []; done) | (split <;> try (rename_i heq; obtain ⟨_, rfl⟩ := Prod.ext_iff.mp heq)) | refine (State.memData_foldl _ (fun _ _ => ?_) _ _).trans ?_ | dsimp only | simp []))

end Sys2Proof.Machine
end

