-- ==== Sys2Proof/Laws/Kept/Results.lean ====
section
/-! SUPPORT. What the operations of Sys2Proof/Machine/Results.lean leave alone: what memory holds. -/

namespace Sys2Proof.Machine

open Sys2Proof

set_option linter.unusedTactic false
set_option linter.unreachableTactic false
set_option linter.unusedSimpArgs false

@[simp] theorem State.failRecord_memData (s : State) (b : Nat) (lane : Nat) (pos : Nat) (start : Nat) (w : IssuedWord) (l : List PinResult) (idx : Nat) :
    (State.failRecord s b lane pos start w l idx).memData = s.memData := by
  simp [State.failRecord]

@[simp] theorem State.captureRecords_memData (s : State) (b : Nat) (pos : Nat) (start : Nat) (w : IssuedWord) (l : List PinResult) (idx : Nat) :
    (State.captureRecords s b pos start w l idx).memData = s.memData := by
  simp [State.captureRecords]

@[simp] theorem doCompareResult_memData (b : Nat) (atE3 : BitVec 256) (steady : BitVec 128) (s : State) :
    (doCompareResult b atE3 steady s).memData = s.memData := by
  unfold doCompareResult; (repeat' (first | with_reducible rfl | (simp []; done) | (split <;> try (rename_i heq; obtain ⟨_, rfl⟩ := Prod.ext_iff.mp heq)) | refine (State.memData_foldl _ (fun _ _ => ?_) _ _).trans ?_ | dsimp only | simp []))

@[simp] theorem doConditionWaitEnd_memData (b : Nat) (holds : Nat) (s0 : State) :
    (doConditionWaitEnd b holds s0).memData = s0.memData := by
  unfold doConditionWaitEnd; (repeat' (first | with_reducible rfl | (simp []; done) | (split <;> try (rename_i heq; obtain ⟨_, rfl⟩ := Prod.ext_iff.mp heq)) | refine (State.memData_foldl _ (fun _ _ => ?_) _ _).trans ?_ | dsimp only | simp []))

@[simp] theorem doWaitTimeout_memData (b : Nat) (s : State) :
    (doWaitTimeout b s).memData = s.memData := by
  unfold doWaitTimeout; (repeat' (first | with_reducible rfl | (simp []; done) | (split <;> try (rename_i heq; obtain ⟨_, rfl⟩ := Prod.ext_iff.mp heq)) | refine (State.memData_foldl _ (fun _ _ => ?_) _ _).trans ?_ | dsimp only | simp []))

@[simp] theorem doSyncRelease_memData (b : Nat) (s : State) :
    (doSyncRelease b s).memData = s.memData := by
  unfold doSyncRelease; (repeat' (first | with_reducible rfl | (simp []; done) | (split <;> try (rename_i heq; obtain ⟨_, rfl⟩ := Prod.ext_iff.mp heq)) | refine (State.memData_foldl _ (fun _ _ => ?_) _ _).trans ?_ | dsimp only | simp []))

@[simp] theorem State.firedTrigger_memData (s : State) (b : Nat) (n : Nat) :
    (State.firedTrigger s b n).memData = s.memData := by
  simp [State.firedTrigger]

@[simp] theorem State.firedAnalog_memData (s : State) (b : Nat) :
    (State.firedAnalog s b).memData = s.memData := by
  simp [State.firedAnalog]

@[simp] theorem doPpmuTrigger_memData (b : Nat) (s : State) :
    (doPpmuTrigger b s).memData = s.memData := by
  unfold doPpmuTrigger; (repeat' (first | with_reducible rfl | (simp []; done) | (split <;> try (rename_i heq; obtain ⟨_, rfl⟩ := Prod.ext_iff.mp heq)) | refine (State.memData_foldl _ (fun _ _ => ?_) _ _).trans ?_ | dsimp only | simp []))

@[simp] theorem State.connectPins_memData (s : State) (l : List Nat) (on : Bool) (cut : List PartialConv) :
    (State.connectPins s l on cut).memData = s.memData := by
  simp [State.connectPins]

@[simp] theorem State.switchPpmus_memData (s : State) (b : Nat) (code : Nat) (on : Bool) (cut : List PartialConv) :
    (State.switchPpmus s b code on cut).memData = s.memData := by
  unfold State.switchPpmus; (repeat' (first | with_reducible rfl | (simp []; done) | (split <;> try (rename_i heq; obtain ⟨_, rfl⟩ := Prod.ext_iff.mp heq)) | refine (State.memData_foldl _ (fun _ _ => ?_) _ _).trans ?_ | dsimp only | simp []))

@[simp] theorem doPpmuConnect_memData (b : Nat) (cut : List PartialConv) (s : State) :
    (doPpmuConnect b cut s).memData = s.memData := by
  simp [doPpmuConnect]

@[simp] theorem doPpmuDisconnect_memData (b : Nat) (cut : List PartialConv) (s : State) :
    (doPpmuDisconnect b cut s).memData = s.memData := by
  simp [doPpmuDisconnect]

@[simp] theorem doLevelSet_memData (b : Nat) (k : Nat) (s : State) :
    (doLevelSet b k s).memData = s.memData := by
  unfold doLevelSet; (repeat' (first | with_reducible rfl | (simp []; done) | (split <;> try (rename_i heq; obtain ⟨_, rfl⟩ := Prod.ext_iff.mp heq)) | refine (State.memData_foldl _ (fun _ _ => ?_) _ _).trans ?_ | dsimp only | simp []))

end Sys2Proof.Machine
end

