-- ==== Sys2Proof/Laws/Kept/Stalls.lean ====
section
/-! SUPPORT. What the operations of Sys2Proof/Machine/Stalls.lean leave alone: what memory holds. -/

namespace Sys2Proof.Machine

open Sys2Proof

set_option linter.unusedTactic false
set_option linter.unreachableTactic false
set_option linter.unusedSimpArgs false

@[simp] theorem State.voidRecords_memData (s : State) (n : Nat) (positions : Nat) (replay : Nat) :
    (State.voidRecords s n positions replay).memData = s.memData := by
  simp [State.voidRecords]

@[simp] theorem State.discardReadings_memData (s : State) (b : Nat) (snap : Nat) :
    (State.discardReadings s b snap).memData = s.memData := by
  simp [State.discardReadings]

@[simp] theorem State.emptied_memData (s : State) (b : Nat) (g : Program) :
    (State.emptied s b g).memData = s.memData := by
  simp [State.emptied]

@[simp] theorem State.enterSafeWait_memData (s : State) (b : Nat) (g : Program) :
    (State.enterSafeWait s b g).memData = s.memData := by
  simp [State.enterSafeWait]

@[simp] theorem State.fillFrame_memData (s : State) (b : Nat) (pg : Nat) (pin : Bool) (words : List Nat) (poisoned : List Nat) :
    (State.fillFrame s b pg pin words poisoned).memData = s.memData := by
  unfold State.fillFrame; (repeat' (first | with_reducible rfl | (simp []; done) | (split <;> try (rename_i heq; obtain ⟨_, rfl⟩ := Prod.ext_iff.mp heq)) | refine (State.memData_foldl _ (fun _ _ => ?_) _ _).trans ?_ | dsimp only | simp []))

@[simp] theorem doPreemptTimeLimit_memData (b : Nat) (k : Nat) (s : State) :
    (doPreemptTimeLimit b k s).memData = s.memData := by
  unfold doPreemptTimeLimit; (repeat' (first | with_reducible rfl | (simp []; done) | (split <;> try (rename_i heq; obtain ⟨_, rfl⟩ := Prod.ext_iff.mp heq)) | refine (State.memData_foldl _ (fun _ _ => ?_) _ _).trans ?_ | dsimp only | simp []))

@[simp] theorem doProgramPreempt_memData (c : Cmd) (s : State) :
    (doProgramPreempt c s).memData = s.memData := by
  unfold doProgramPreempt; (repeat' (first | with_reducible rfl | refine State.checked_memData _ _ _ _ (fun _ => ?_) | (simp []; done) | (split <;> try (rename_i heq; obtain ⟨_, rfl⟩ := Prod.ext_iff.mp heq)) | refine (State.memData_foldl _ (fun _ _ => ?_) _ _).trans ?_ | dsimp only | simp []))

@[simp] theorem State.hostTrap_memData (s : State) (b : Nat) (c : Cmd) :
    (State.hostTrap s b c).memData = s.memData := by
  unfold State.hostTrap; (repeat' (first | with_reducible rfl | (simp []; done) | (split <;> try (rename_i heq; obtain ⟨_, rfl⟩ := Prod.ext_iff.mp heq)) | refine (State.memData_foldl _ (fun _ _ => ?_) _ _).trans ?_ | dsimp only | simp []))

@[simp] theorem doTrapRequest_memData (c : Cmd) (s : State) :
    (doTrapRequest c s).memData = s.memData := by
  unfold doTrapRequest; (repeat' (first | with_reducible rfl | refine State.checked_memData _ _ _ _ (fun _ => ?_) | (simp []; done) | (split <;> try (rename_i heq; obtain ⟨_, rfl⟩ := Prod.ext_iff.mp heq)) | refine (State.memData_foldl _ (fun _ _ => ?_) _ _).trans ?_ | dsimp only | simp []))

end Sys2Proof.Machine
end

