-- ==== Sys2Proof/Laws/Keeps/Stalls.lean ====
section
/-! SUPPORT. The operations of Sys2Proof/Machine/Stalls.lean that reach memory: they keep its canonical form. -/

namespace Sys2Proof.Machine

open Sys2Proof

set_option linter.unusedTactic false
set_option linter.unreachableTactic false
set_option linter.unusedSimpArgs false

theorem State.replay_keeps (s : State) (b : Nat) (hs : storeWf (State.memData s) = true) :
    storeWf ((State.replay s b).memData) = true := by
  unfold State.replay; (repeat' (first | with_reducible assumption | (simp [hs]; done) | with_reducible refine State.popWithdraw_keeps _ _ _  ?_ | with_reducible refine State.scheduleOr_keeps _ _ _ (fun _ _ => ?_) ?_ | (split <;> try (rename_i heq; obtain ⟨_, rfl⟩ := Prod.ext_iff.mp heq)) | with_reducible refine State.foldl_keeps _ (fun _ _ _ => ?_) _ _ ?_ | dsimp only | simp only [State.memData_update, State.memData_update_mem] | simp))

theorem State.enterUnsafeStall_keeps (s : State) (b : Nat) (g : Program) (hs : storeWf (State.memData s) = true) :
    storeWf ((State.enterUnsafeStall s b g).memData) = true := by
  unfold State.enterUnsafeStall; (repeat' (first | with_reducible assumption | (simp [hs]; done) | with_reducible refine State.replay_keeps _ _  ?_ | (split <;> try (rename_i heq; obtain ⟨_, rfl⟩ := Prod.ext_iff.mp heq)) | with_reducible refine State.foldl_keeps _ (fun _ _ _ => ?_) _ _ ?_ | dsimp only | simp only [State.memData_update, State.memData_update_mem] | simp))

theorem State.emptyQueue_keeps (s : State) (b : Nat) (safe : Bool) (hs : storeWf (State.memData s) = true) :
    storeWf ((State.emptyQueue s b safe).memData) = true := by
  unfold State.emptyQueue; (repeat' (first | with_reducible assumption | (simp [hs]; done) | with_reducible refine State.enterUnsafeStall_keeps _ _ _  ?_ | (split <;> try (rename_i heq; obtain ⟨_, rfl⟩ := Prod.ext_iff.mp heq)) | with_reducible refine State.foldl_keeps _ (fun _ _ _ => ?_) _ _ ?_ | dsimp only | simp only [State.memData_update, State.memData_update_mem] | simp))

theorem doSafeWait_keeps (b : Nat) (s : State) (hs : storeWf (State.memData s) = true) :
    storeWf ((doSafeWait b s).memData) = true := by
  unfold doSafeWait; (repeat' (first | with_reducible assumption | (simp [hs]; done) | with_reducible refine State.emptyQueue_keeps _ _ _  ?_ | (split <;> try (rename_i heq; obtain ⟨_, rfl⟩ := Prod.ext_iff.mp heq)) | with_reducible refine State.foldl_keeps _ (fun _ _ _ => ?_) _ _ ?_ | dsimp only | simp only [State.memData_update, State.memData_update_mem] | simp))

theorem doUnsafeStall_keeps (b : Nat) (s : State) (hs : storeWf (State.memData s) = true) :
    storeWf ((doUnsafeStall b s).memData) = true := by
  unfold doUnsafeStall; (repeat' (first | with_reducible assumption | (simp [hs]; done) | with_reducible refine State.emptyQueue_keeps _ _ _  ?_ | (split <;> try (rename_i heq; obtain ⟨_, rfl⟩ := Prod.ext_iff.mp heq)) | with_reducible refine State.foldl_keeps _ (fun _ _ _ => ?_) _ _ ?_ | dsimp only | simp only [State.memData_update, State.memData_update_mem] | simp))

theorem State.readSafeBit_keeps (s : State) (b : Nat) (hs : storeWf (State.memData s) = true) :
    storeWf ((State.readSafeBit s b).memData) = true := by
  unfold State.readSafeBit; (repeat' (first | with_reducible assumption | (simp [hs]; done) | with_reducible refine State.enterUnsafeStall_keeps _ _ _  ?_ | (split <;> try (rename_i heq; obtain ⟨_, rfl⟩ := Prod.ext_iff.mp heq)) | with_reducible refine State.foldl_keeps _ (fun _ _ _ => ?_) _ _ ?_ | dsimp only | simp only [State.memData_update, State.memData_update_mem] | simp))

theorem doCsDemandFill_keeps (b : Nat) (s : State) (hs : storeWf (State.memData s) = true) :
    storeWf ((doCsDemandFill b s).memData) = true := by
  unfold doCsDemandFill; (repeat' (first | with_reducible assumption | (simp [hs]; done) | with_reducible refine State.readSafeBit_keeps _ _  ?_ | (split <;> try (rename_i heq; obtain ⟨_, rfl⟩ := Prod.ext_iff.mp heq)) | with_reducible refine State.foldl_keeps _ (fun _ _ _ => ?_) _ _ ?_ | dsimp only | simp only [State.memData_update, State.memData_update_mem] | simp))

theorem doTrapFrameWrite_keeps (b : Nat) (s : State) (hs : storeWf (State.memData s) = true) :
    storeWf ((doTrapFrameWrite b s).memData) = true := by
  unfold doTrapFrameWrite; (repeat' (first | with_reducible assumption | (simp [hs]; done) | with_reducible refine State.memWrite_keeps _ _ _ _ _  ?_ | (split <;> try (rename_i heq; obtain ⟨_, rfl⟩ := Prod.ext_iff.mp heq)) | with_reducible refine State.foldl_keeps _ (fun _ _ _ => ?_) _ _ ?_ | dsimp only | simp only [State.memData_update, State.memData_update_mem] | simp))

theorem doPreemptFrameWrite_keeps (b : Nat) (s : State) (hs : storeWf (State.memData s) = true) :
    storeWf ((doPreemptFrameWrite b s).memData) = true := by
  unfold doPreemptFrameWrite; (repeat' (first | with_reducible assumption | (simp [hs]; done) | with_reducible refine State.memWrite_keeps _ _ _ _ _  ?_ | (split <;> try (rename_i heq; obtain ⟨_, rfl⟩ := Prod.ext_iff.mp heq)) | with_reducible refine State.foldl_keeps _ (fun _ _ _ => ?_) _ _ ?_ | dsimp only | simp only [State.memData_update, State.memData_update_mem] | simp))

theorem State.limitFrame_keeps (s : State) (b : Nat) (g : Program) (hs : storeWf (State.memData s) = true) :
    storeWf ((State.limitFrame s b g).memData) = true := by
  unfold State.limitFrame; (repeat' (first | with_reducible assumption | (simp [hs]; done) | with_reducible refine State.memWrite_keeps _ _ _ _ _  ?_ | (split <;> try (rename_i heq; obtain ⟨_, rfl⟩ := Prod.ext_iff.mp heq)) | with_reducible refine State.foldl_keeps _ (fun _ _ _ => ?_) _ _ ?_ | dsimp only | simp only [State.memData_update, State.memData_update_mem] | simp))

theorem doProgramTimeLimit_keeps (b : Nat) (s : State) (hs : storeWf (State.memData s) = true) :
    storeWf ((doProgramTimeLimit b s).memData) = true := by
  unfold doProgramTimeLimit; (repeat' (first | with_reducible assumption | (simp [hs]; done) | with_reducible refine State.limitFrame_keeps _ _ _  ?_ | (split <;> try (rename_i heq; obtain ⟨_, rfl⟩ := Prod.ext_iff.mp heq)) | with_reducible refine State.foldl_keeps _ (fun _ _ _ => ?_) _ _ ?_ | dsimp only | simp only [State.memData_update, State.memData_update_mem] | simp))

end Sys2Proof.Machine
end

