-- ==== Sys2Proof/Laws/Kept/Programs.lean ====
section
/-! SUPPORT. What the operations of Sys2Proof/Machine/Programs.lean leave alone: what memory holds. -/

namespace Sys2Proof.Machine

open Sys2Proof

set_option linter.unusedTactic false
set_option linter.unreachableTactic false
set_option linter.unusedSimpArgs false

@[simp] theorem State.checkSegments_memData (s : State) (b : Nat) (v2 : List (Option (Nat × Nat))) (v3 : Pre) :
    (State.checkSegments s b v2 v3).2.memData = s.memData := by
  induction v2 generalizing s b v3 <;> (unfold State.checkSegments; (repeat' split) <;> simp_all)

@[simp] theorem State.readHold_memData (s : State) (b : Nat) (h : Header) (n : Nat) :
    (State.readHold s b h n).2.2.memData = s.memData := by
  unfold State.readHold
  extract_lets x base r s1
  have hr : r.2.2.memData = s.memData := State.preRead_memData _ _ _ _
  have hs : s1.memData = s.memData := (State.bump_memData _ _ _).trans hr
  clear_value s1 r
  obtain ⟨l, p, u⟩ := r
  split
  · exact hr
  · extract_lets e len q s2
    have hq : q.2.2.memData = s.memData := (State.preRead_memData _ _ _ _).trans hs
    have hs2 : s2.memData = s.memData := (State.bump_memData _ _ _).trans hq
    clear_value s2 q
    split
    · exact hs
    · split
      · exact hs2
      · split
        · exact hs2
        · exact (State.bump_memData _ _ _).trans hs2

@[simp] theorem State.readHolds_memData (s : State) (b : Nat) (h : Header) (v3 : List Nat) (v4 : Pre) (v5 : List (Nat × Nat × Nat)) :
    (State.readHolds s b h v3 v4 v5).2.memData = s.memData := by
  induction v3 generalizing s b h v4 v5 <;> unfold State.readHolds <;> (repeat' (first | with_reducible rfl | (simp [*]; done) | (split <;> try (rename_i heq; obtain ⟨_, rfl⟩ := Prod.ext_iff.mp heq)) | refine (State.memData_foldl _ (fun _ _ => ?_) _ _).trans ?_ | dsimp only | simp []))

@[simp] theorem State.readImage_memData (s : State) (b : Nat) (image : Nat) :
    (State.readImage s b image).2.2.memData = s.memData := by
  unfold State.readImage; (repeat' split) <;> (first | (simp []; done) | grind [State.checkSegments_memData, State.preRead_memData, State.readHolds_memData])

@[simp] theorem State.showFreezes_memData (s : State) :
    (State.showFreezes s).memData = s.memData := by
  simp [State.showFreezes]

@[simp] theorem State.raiseIdle_memData (s : State) :
    (State.raiseIdle s).memData = s.memData := by
  simp [State.raiseIdle]

@[simp] theorem State.startPins_memData (s : State) (n : Nat) :
    (State.startPins s n).memData = s.memData := by
  simp [State.startPins]

@[simp] theorem State.startStream_memData (s : State) (n : Nat) (seq : Nat) :
    (State.startStream s n seq).memData = s.memData := by
  simp [State.startStream]

@[simp] theorem fillResident_memData (b : Nat) (v1 : Nat) (s : State) :
    (fillResident b v1 s).memData = s.memData := by
  induction v1 generalizing s with
  | zero => rfl
  | succ fuel ih =>
    simp only [fillResident]
    split
    · rfl
    · rename_i g _
      split
      · rfl
      · rename_i pg rest _
        have h := State.readPage_memData s b g.image g.header.codeOffset pg false
        split
        · rename_i heq
          rw [heq] at h
          rw [ih, State.modProgram_memData, State.fillFrame_memData]
          exact h
        · rename_i heq
          rw [heq] at h
          exact (State.stopAllSites_memData _ _ _).trans h
        · rename_i heq
          rw [heq] at h
          exact h

@[simp] theorem State.admitProgram_memData (s : State) (b : Nat) (c : Cmd) (image : Nat) (frame : Nat) (h : Header) (holds : List (Nat × Nat × Nat)) (resumed : Option (Micro × Nat)) :
    (State.admitProgram s b c image frame h holds resumed).memData = s.memData := by
  simp [State.admitProgram]

@[simp] theorem State.keepStart_memData (s : State) (c : Cmd) :
    (State.keepStart s c).memData = s.memData := by
  simp [State.keepStart]

@[simp] theorem State.endStart_memData (s : State) (c : Cmd) (st : Nat) (res : Nat) :
    (State.endStart s c st res).memData = s.memData := by
  simp [State.endStart]

theorem State.startWith_memData (s : State) (s0 : State) (c : Cmd) (bad : Bool) (p : Pre) (image : Nat) (frame : Nat) (h : Option (Header × List (Nat × Nat × Nat))) (resumed : Option (Micro × Nat)) (h0 : s0.memData = s.memData) :
    (State.startWith s s0 c bad p image frame h resumed).memData = s.memData := by
  unfold State.startWith
  have hk : (s0.keepRequests s).memData = s.memData := (State.keepRequests_memData _ _ h0.symm).trans h0
  dsimp only
  (repeat' split) <;> simp [hk]

@[simp] theorem State.tryStart_memData (s : State) (c : Cmd) :
    (State.tryStart s c).memData = s.memData := by
  unfold State.tryStart
  extract_lets b image frame r q bad
  split
  · split
    · simp
    · exact (State.startWith_memData _ _ _ _ _ _ _ _ _ (State.readImage_memData _ _ _).symm).trans (State.readImage_memData _ _ _)
  · split
    · simp
    · have hq : q.2.2.memData = s.memData := State.preRead_memData _ _ _ _
      clear_value q
      split
      · exact (State.startWith_memData _ _ _ _ _ _ _ _ _ hq.symm).trans hq
      · extract_lets image' r'
        split
        · exact (State.startWith_memData _ _ _ _ _ _ _ _ _ hq.symm).trans hq
        · have hr : r'.2.2.memData = s.memData := (State.readImage_memData _ _ _).trans hq
          clear_value r'
          exact (State.startWith_memData _ _ _ _ _ _ _ _ _ hr.symm).trans hr

@[simp] theorem doProgramStart_memData (c : Cmd) (s : State) :
    (doProgramStart c s).memData = s.memData := by
  simp [doProgramStart]

@[simp] theorem doProgramAdmit_memData (b : Nat) (s : State) :
    (doProgramAdmit b s).memData = s.memData := by
  unfold doProgramAdmit; (repeat' (first | with_reducible rfl | (simp []; done) | (split <;> try (rename_i heq; obtain ⟨_, rfl⟩ := Prod.ext_iff.mp heq)) | refine (State.memData_foldl _ (fun _ _ => ?_) _ _).trans ?_ | dsimp only | simp []))

@[simp] theorem State.unpinFrames_memData (s : State) (n : Nat) :
    (State.unpinFrames s n).memData = s.memData := by
  simp [State.unpinFrames]

@[simp] theorem State.abandonGroup_memData (s : State) (b : Nat) :
    (State.abandonGroup s b).memData = s.memData := by
  simp [State.abandonGroup]

end Sys2Proof.Machine
end

