-- ==== Sys2Proof/Laws/Keeps/Programs.lean ====
section
/-! SUPPORT. The operations of Sys2Proof/Machine/Programs.lean that reach memory: they keep its canonical form. -/

namespace Sys2Proof.Machine

open Sys2Proof

set_option linter.unusedTactic false
set_option linter.unreachableTactic false
set_option linter.unusedSimpArgs false

theorem State.finishProgram_keeps (s : State) (b : Nat) (g : Program) (hs : storeWf (State.memData s) = true) :
    storeWf ((State.finishProgram s b g).memData) = true := by
  unfold State.finishProgram; (repeat' (first | with_reducible assumption | (simp [hs]; done) | with_reducible refine State.popLeave_keeps _ _  ?_ | (split <;> try (rename_i heq; obtain ⟨_, rfl⟩ := Prod.ext_iff.mp heq)) | with_reducible refine State.foldl_keeps _ (fun _ _ _ => ?_) _ _ ?_ | dsimp only | simp only [State.memData_update, State.memData_update_mem] | simp))

theorem doProgramEnd_keeps (b : Nat) (s : State) (hs : storeWf (State.memData s) = true) :
    storeWf ((doProgramEnd b s).memData) = true := by
  unfold doProgramEnd; (repeat' (first | with_reducible assumption | (simp [hs]; done) | with_reducible refine State.finishProgram_keeps _ _ _  ?_ | (split <;> try (rename_i heq; obtain ⟨_, rfl⟩ := Prod.ext_iff.mp heq)) | with_reducible refine State.foldl_keeps _ (fun _ _ _ => ?_) _ _ ?_ | dsimp only | simp only [State.memData_update, State.memData_update_mem] | simp))

end Sys2Proof.Machine
end

