-- ==== Sys2Proof/Laws/Kept/Causes.lean ====
section
/-! SUPPORT. What the operations of Sys2Proof/Machine/Causes.lean leave alone: what memory holds. -/

namespace Sys2Proof.Machine

open Sys2Proof

set_option linter.unusedTactic false
set_option linter.unreachableTactic false
set_option linter.unusedSimpArgs false

@[simp] theorem State.assertCause_memData (s : State) (b : Nat) (p : Nat) (k : Nat) :
    (State.assertCause s b p k).memData = s.memData := by
  simp [State.assertCause]

end Sys2Proof.Machine
end

