-- ==== Sys2Proof/Laws/Kept/Dps.lean ====
section
/-! SUPPORT. What the operations of Sys2Proof/Machine/Dps.lean leave alone: what memory holds. -/

namespace Sys2Proof.Machine

open Sys2Proof

set_option linter.unusedTactic false
set_option linter.unreachableTactic false
set_option linter.unusedSimpArgs false

@[simp] theorem State.modDps_memData (s : State) (n : Nat) (f : Dps → Dps) :
    (State.modDps s n f).memData = s.memData := by
  simp [State.modDps]

@[simp] theorem State.showTrip_memData (s : State) (n : Nat) :
    (State.showTrip s n).memData = s.memData := by
  simp [State.showTrip]

@[simp] theorem State.showTrips_memData (s : State) (l : Nat) :
    (State.showTrips s l).memData = s.memData := by
  simp [State.showTrips]

@[simp] theorem State.endRuns_memData (s : State) (l : Nat) (action : Nat) (st : Nat) :
    (State.endRuns s l action st).memData = s.memData := by
  simp [State.endRuns]

@[simp] theorem State.dpsEnter_memData (s : State) (l : Nat) (st : Nat) :
    (State.dpsEnter s l st).memData = s.memData := by
  simp [State.dpsEnter]

@[simp] theorem State.dpsOnReq_memData (s : State) (l : Nat) :
    (State.dpsOnReq s l).memData = s.memData := by
  simp [State.dpsOnReq]

@[simp] theorem State.dpsOffReq_memData (s : State) (l : Nat) (status : Nat) :
    (State.dpsOffReq s l status).memData = s.memData := by
  simp [State.dpsOffReq]

@[simp] theorem State.dpsSiteOff_memData (s : State) (x : SitePos) (status : Nat) :
    (State.dpsSiteOff s x status).memData = s.memData := by
  simp [State.dpsSiteOff]

@[simp] theorem State.dpsRamp_memData (s : State) (l : Nat) :
    (State.dpsRamp s l).memData = s.memData := by
  simp [State.dpsRamp]

@[simp] theorem State.dpsDeckleOff_memData (s : State) (l : Nat) :
    (State.dpsDeckleOff s l).memData = s.memData := by
  simp [State.dpsDeckleOff]

@[simp] theorem State.applyDps_memData (s : State) (n : Nat) :
    (State.applyDps s n).memData = s.memData := by
  simp [State.applyDps]

@[simp] theorem State.dpsWritten_memData (s : State) (n : Nat) :
    (State.dpsWritten s n).memData = s.memData := by
  simp [State.dpsWritten]

@[simp] theorem State.takeDps_memData (s : State) (n : Nat) :
    (State.takeDps s n).memData = s.memData := by
  simp [State.takeDps]

@[simp] theorem State.dpsRelease_memData (s : State) (n : Nat) :
    (State.dpsRelease s n).memData = s.memData := by
  simp [State.dpsRelease]

@[simp] theorem State.applySwg_memData (s : State) (k : Nat) :
    (State.applySwg s k).memData = s.memData := by
  simp [State.applySwg]

@[simp] theorem State.swgWritten_memData (s : State) (k : Nat) :
    (State.swgWritten s k).memData = s.memData := by
  simp [State.swgWritten]

@[simp] theorem State.swgRelease_memData (s : State) (k : Nat) :
    (State.swgRelease s k).memData = s.memData := by
  simp [State.swgRelease]

@[simp] theorem State.dpsGather_memData (s : State) (n : Nat) (v : BitVec 20) (i : BitVec 20) :
    (State.dpsGather s n v i).memData = s.memData := by
  unfold State.dpsGather; (repeat' (first | with_reducible rfl | (simp []; done) | (split <;> try (rename_i heq; obtain ⟨_, rfl⟩ := Prod.ext_iff.mp heq)) | refine (State.memData_foldl _ (fun _ _ => ?_) _ _).trans ?_ | dsimp only | simp []))

@[simp] theorem State.dpsRampEnd_memData (s : State) (l : Nat) (v : Int) :
    (State.dpsRampEnd s l v).memData = s.memData := by
  simp [State.dpsRampEnd]

@[simp] theorem doDpsCycle_memData (n : Nat) (v : BitVec 20) (i : BitVec 20) (s : State) :
    (doDpsCycle n v i s).memData = s.memData := by
  simp [doDpsCycle]

@[simp] theorem State.dpsKind_memData (s : State) (quantity : Nat) (n : Nat) :
    (State.dpsKind s quantity n).2.memData = s.memData := by
  simp [State.dpsKind]

@[simp] theorem State.dpsDeliver_memData (s : State) (l : Nat) (quantity : Nat) (m : DpsMeas) (test : Nat) (status : Nat) (n : Nat) (value : Int) (flags : Nat) :
    (State.dpsDeliver s l quantity m test status n value flags).memData = s.memData := by
  unfold State.dpsDeliver; (repeat' (first | with_reducible rfl | (simp []; done) | (split <;> try (rename_i heq; obtain ⟨_, rfl⟩ := Prod.ext_iff.mp heq)) | refine (State.memData_foldl _ (fun _ _ => ?_) _ _).trans ?_ | dsimp only | simp []))

@[simp] theorem State.dpsFinish_memData (s : State) (l : Nat) (m : DpsMeas) (status : Nat) (n : Nat) (v : Int) (i : Int) (flagsV : Nat) (flagsI : Nat) :
    (State.dpsFinish s l m status n v i flagsV flagsI).memData = s.memData := by
  unfold State.dpsFinish; (repeat' (first | with_reducible rfl | (simp []; done) | (split <;> try (rename_i heq; obtain ⟨_, rfl⟩ := Prod.ext_iff.mp heq)) | refine (State.memData_foldl _ (fun _ _ => ?_) _ _).trans ?_ | dsimp only | simp []))

@[simp] theorem State.dpsDropSince_memData (s : State) (b : Nat) (serial : Nat) :
    (State.dpsDropSince s b serial).memData = s.memData := by
  simp [State.dpsDropSince]

@[simp] theorem State.dpsForget_memData (s : State) (l : Nat) :
    (State.dpsForget s l).memData = s.memData := by
  simp [State.dpsForget]

@[simp] theorem State.dpsCut_memData (s : State) (l : Nat) (status : Nat) :
    (State.dpsCut s l status).memData = s.memData := by
  unfold State.dpsCut; (repeat' (first | with_reducible rfl | (simp []; done) | (split <;> try (rename_i heq; obtain ⟨_, rfl⟩ := Prod.ext_iff.mp heq)) | refine (State.memData_foldl _ (fun _ _ => ?_) _ _).trans ?_ | dsimp only | simp []))

@[simp] theorem State.dpsBegin_memData (s : State) (l : Nat) (m : DpsMeas) :
    (State.dpsBegin s l m).memData = s.memData := by
  simp [State.dpsBegin]

@[simp] theorem doDpsReading_memData (l : Nat) (s : State) :
    (doDpsReading l s).memData = s.memData := by
  unfold doDpsReading; (repeat' (first | with_reducible rfl | (simp []; done) | (split <;> try (rename_i heq; obtain ⟨_, rfl⟩ := Prod.ext_iff.mp heq)) | refine (State.memData_foldl _ (fun _ _ => ?_) _ _).trans ?_ | dsimp only | simp []))

@[simp] theorem doDpsReadTrigger_memData (b : Nat) (s : State) :
    (doDpsReadTrigger b s).memData = s.memData := by
  unfold doDpsReadTrigger; (repeat' (first | with_reducible rfl | (simp []; done) | (split <;> try (rename_i heq; obtain ⟨_, rfl⟩ := Prod.ext_iff.mp heq)) | refine (State.memData_foldl _ (fun _ _ => ?_) _ _).trans ?_ | dsimp only | simp []))

@[simp] theorem State.dpsSwitch_memData (s : State) (b : Nat) (code : Nat) (f : State → Nat → State) (hf : ∀ x0 x1, (f x0 x1).memData = State.memData x0) :
    (State.dpsSwitch s b code f).memData = s.memData := by
  unfold State.dpsSwitch; (repeat' (first | with_reducible rfl | (simp [hf]; done) | (split <;> try (rename_i heq; obtain ⟨_, rfl⟩ := Prod.ext_iff.mp heq)) | refine (State.memData_foldl _ (fun _ _ => ?_) _ _).trans ?_ | dsimp only | simp [hf]))

@[simp] theorem doDpsOn_memData (b : Nat) (s : State) :
    (doDpsOn b s).memData = s.memData := by
  simp [doDpsOn]

@[simp] theorem doDpsOff_memData (b : Nat) (s : State) :
    (doDpsOff b s).memData = s.memData := by
  simp [doDpsOff]

@[simp] theorem doDpsWindowTrip_memData (n : Nat) (bounds : BitVec 4) (s : State) :
    (doDpsWindowTrip n bounds s).memData = s.memData := by
  unfold doDpsWindowTrip
  generalize andMask bounds.toNat (s.dpsArmed n) = k
  dsimp only
  split
  · rfl
  · have h : ∀ t : State, t.memData = s.memData → (match t.dpsEnabledSite n with
        | some (b, x) => t.assertCause b x.position 0
        | none => if s.afld (Reg.MON_ACTION n) = 0 then t else t.dpsOffReq (t.dpsLeader n) 1).memData = s.memData := by
      intro t ht
      split
      · exact (State.assertCause_memData _ _ _ _).trans ht
      · split
        · exact ht
        · exact (State.dpsOffReq_memData _ _ _).trans ht
    refine h _ ?_
    split
    · rw [State.raise_memData, State.bump_memData, State.setFld_memData, State.setFlag_memData, State.showTrip_memData,
        State.modDps_memData]
    · rw [State.memData_update, State.raise_memData, State.bump_memData, State.setFld_memData, State.setFlag_memData,
        State.showTrip_memData, State.modDps_memData]

@[simp] theorem doDpsBoundInside_memData (n : Nat) (s : State) :
    (doDpsBoundInside n s).memData = s.memData := by
  simp [doDpsBoundInside]

@[simp] theorem doBlankExpiry_memData (n : Nat) (s : State) :
    (doBlankExpiry n s).memData = s.memData := by
  simp [doBlankExpiry]

@[simp] theorem doDpsDisagree_memData (n : Nat) (bound : BitVec 4) (s : State) :
    (doDpsDisagree n bound s).memData = s.memData := by
  simp [doDpsDisagree]

@[simp] theorem State.dpsChecked_memData (s : State) (n : Nat) (second : Bool) (passed : Bool) :
    (State.dpsChecked s n second passed).memData = s.memData := by
  unfold State.dpsChecked; (repeat' (first | with_reducible rfl | (simp []; done) | (split <;> try (rename_i heq; obtain ⟨_, rfl⟩ := Prod.ext_iff.mp heq)) | refine (State.memData_foldl _ (fun _ _ => ?_) _ _).trans ?_ | dsimp only | simp []))

@[simp] theorem doDpsSelfCheck_memData (n : Nat) (second : Bool) (passed : Bool) (s : State) :
    (doDpsSelfCheck n second passed s).memData = s.memData := by
  unfold doDpsSelfCheck; (repeat' (first | with_reducible rfl | (simp []; done) | (split <;> try (rename_i heq; obtain ⟨_, rfl⟩ := Prod.ext_iff.mp heq)) | refine (State.memData_foldl _ (fun _ _ => ?_) _ _).trans ?_ | dsimp only | simp []))

@[simp] theorem State.dpsRun_memData (s : State) (c : Cmd) (k : Nat → State → State) (hk : ∀ x0 x1, (k x0 x1).memData = State.memData x1) :
    (State.dpsRun s c k).memData = s.memData := by
  unfold State.dpsRun; (repeat' (first | with_reducible rfl | refine State.checked_memData _ _ _ _ (fun _ => ?_) | (simp [hk]; done) | (split <;> try (rename_i heq; obtain ⟨_, rfl⟩ := Prod.ext_iff.mp heq)) | refine (State.memData_foldl _ (fun _ _ => ?_) _ _).trans ?_ | dsimp only | simp [hk]))

@[simp] theorem doDpsRunOn_memData (c : Cmd) (s : State) :
    (doDpsRunOn c s).memData = s.memData := by
  simp [doDpsRunOn]

@[simp] theorem doDpsRunOff_memData (c : Cmd) (s : State) :
    (doDpsRunOff c s).memData = s.memData := by
  simp [doDpsRunOff]

@[simp] theorem doDpsRunMeasure_memData (c : Cmd) (s : State) :
    (doDpsRunMeasure c s).memData = s.memData := by
  simp [doDpsRunMeasure]

end Sys2Proof.Machine
end

