-- ==== Sys2Proof/Laws/Kept/Sites.lean ====
section
/-! SUPPORT. What the operations of Sys2Proof/Machine/Sites.lean leave alone: what memory holds. -/

namespace Sys2Proof.Machine

open Sys2Proof

set_option linter.unusedTactic false
set_option linter.unreachableTactic false
set_option linter.unusedSimpArgs false

@[simp] theorem State.clearEntry_memData (s : State) (b : Nat) (p : Nat) :
    (State.clearEntry s b p).memData = s.memData := by
  simp [State.clearEntry]

@[simp] theorem State.clearLeader_memData (s : State) (b : Nat) :
    (State.clearLeader s b).memData = s.memData := by
  simp [State.clearLeader]

@[simp] theorem State.freeSeqs_memData (s : State) (l : List Nat) (seqs : List Nat) :
    (State.freeSeqs s l seqs).memData = s.memData := by
  simp [State.freeSeqs]

@[simp] theorem State.dissolve_memData (s : State) (seqs : List Nat) (g : Nat × Group) :
    (State.dissolve s seqs g).memData = s.memData := by
  simp [State.dissolve]

@[simp] theorem State.settlePin_memData (s : State) (b : Nat) (closed : Nat) (p : Nat) :
    (State.settlePin s b closed p).memData = s.memData := by
  unfold State.settlePin; (repeat' (first | with_reducible rfl | (simp []; done) | (split <;> try (rename_i heq; obtain ⟨_, rfl⟩ := Prod.ext_iff.mp heq)) | refine (State.memData_foldl _ (fun _ _ => ?_) _ _).trans ?_ | dsimp only | simp []))

@[simp] theorem State.capture_memData (s : State) (b : Nat) :
    (State.capture s b).memData = s.memData := by
  simp [State.capture]

@[simp] theorem doContactCheck_memData (c : Cmd) (s : State) :
    (doContactCheck c s).memData = s.memData := by
  simp [doContactCheck]

@[simp] theorem State.contactRecord_memData (s : State) (p : Nat) (m : PinMeas) (status : Nat) (conversions : Nat) (value : Int) (flags : Nat) (start : Nat) (outside : Bool) :
    (State.contactRecord s p m status conversions value flags start outside).memData = s.memData := by
  simp [State.contactRecord]

@[simp] theorem doContactCheckEnd_memData (b : Nat) (start : Nat) (l : List (BitVec 18 × Bool)) (s : State) :
    (doContactCheckEnd b start l s).memData = s.memData := by
  unfold doContactCheckEnd
  split
  · rfl
  · rename_i r _
    dsimp only
    split
    · rfl
    · rw [State.complete_memData, State.memData_foldl _ (fun _ _ => State.assertCause_memData _ _ _ _), State.setFld_memData,
        State.memData_update]
      refine State.memData_foldl _ (fun t x => ?_) _ _
      split
      · rfl
      · rw [State.contactRecord_memData]
        split
        · exact State.setFlag_memData _ _ _
        · rfl

@[simp] theorem doDeckleClose_memData (c : Cmd) (s : State) :
    (doDeckleClose c s).memData = s.memData := by
  simp [doDeckleClose]

@[simp] theorem doSiteRegLoad_memData (c : Cmd) (s : State) :
    (doSiteRegLoad c s).memData = s.memData := by
  unfold doSiteRegLoad; (repeat' (first | with_reducible rfl | refine State.checked_memData _ _ _ _ (fun _ => ?_) | (simp []; done) | (split <;> try (rename_i heq; obtain ⟨_, rfl⟩ := Prod.ext_iff.mp heq)) | refine (State.memData_foldl _ (fun _ _ => ?_) _ _).trans ?_ | dsimp only | simp []))

@[simp] theorem doClampTrip_memData (p : Nat) (s : State) :
    (doClampTrip p s).memData = s.memData := by
  unfold doClampTrip; (repeat' (first | with_reducible rfl | (simp []; done) | (split <;> try (rename_i heq; obtain ⟨_, rfl⟩ := Prod.ext_iff.mp heq)) | refine (State.memData_foldl _ (fun _ _ => ?_) _ _).trans ?_ | dsimp only | simp []))

@[simp] theorem doClampLiveClear_memData (p : Nat) (s : State) :
    (doClampLiveClear p s).memData = s.memData := by
  simp [doClampLiveClear]

@[simp] theorem State.clampChecked_memData (s : State) (p : Nat) (passed : Bool) :
    (State.clampChecked s p passed).memData = s.memData := by
  unfold State.clampChecked; (repeat' (first | with_reducible rfl | (simp []; done) | (split <;> try (rename_i heq; obtain ⟨_, rfl⟩ := Prod.ext_iff.mp heq)) | refine (State.memData_foldl _ (fun _ _ => ?_) _ _).trans ?_ | dsimp only | simp []))

@[simp] theorem doClampSelfCheck_memData (c : Nat) (passed : BitVec 33) (s : State) :
    (doClampSelfCheck c passed s).memData = s.memData := by
  simp [doClampSelfCheck]

@[simp] theorem doPpmuMeasure_memData (c : Cmd) (s : State) :
    (doPpmuMeasure c s).memData = s.memData := by
  simp [doPpmuMeasure]

end Sys2Proof.Machine
end

