-- ==== Sys2Proof/Laws/Keeps/Sites.lean ====
section
/-! SUPPORT. The operations of Sys2Proof/Machine/Sites.lean that reach memory: they keep its canonical form. -/

namespace Sys2Proof.Machine

open Sys2Proof

set_option linter.unusedTactic false
set_option linter.unreachableTactic false
set_option linter.unusedSimpArgs false

theorem State.siteEnable_keeps (s : State) (c : Cmd) (b : Nat) (on : Nat) (off : Nat) (hs : storeWf (State.memData s) = true) :
    storeWf ((State.siteEnable s c b on off).memData) = true := by
  unfold State.siteEnable; (repeat' (first | with_reducible assumption | (simp [hs]; done) | with_reducible refine State.popLeave_keeps _ _  ?_ | (split <;> try (rename_i heq; obtain ⟨_, rfl⟩ := Prod.ext_iff.mp heq)) | with_reducible refine State.foldl_keeps _ (fun _ _ _ => ?_) _ _ ?_ | dsimp only | simp only [State.memData_update, State.memData_update_mem] | simp))

theorem doSiteEnable_keeps (c : Cmd) (s : State) (hs : storeWf (State.memData s) = true) :
    storeWf ((doSiteEnable c s).memData) = true := by
  unfold doSiteEnable; (repeat' (first | with_reducible assumption | (simp [hs]; done) | with_reducible refine State.checked_keeps _ _ _ _ (fun _ _ => ?_) ?_ | with_reducible refine State.siteEnable_keeps _ _ _ _ _  ?_ | (split <;> try (rename_i heq; obtain ⟨_, rfl⟩ := Prod.ext_iff.mp heq)) | with_reducible refine State.foldl_keeps _ (fun _ _ _ => ?_) _ _ ?_ | dsimp only | simp only [State.memData_update, State.memData_update_mem] | simp))

end Sys2Proof.Machine
end

