-- ==== Sys2Proof/Laws/Kept/Tmu.lean ====
section
/-! SUPPORT. What the operations of Sys2Proof/Machine/Tmu.lean leave alone: what memory holds. -/

namespace Sys2Proof.Machine

open Sys2Proof

set_option linter.unusedTactic false
set_option linter.unreachableTactic false
set_option linter.unusedSimpArgs false

@[simp] theorem State.modTmu_memData (s : State) (n : Nat) (f : Tmu → Tmu) :
    (State.modTmu s n f).memData = s.memData := by
  simp [State.modTmu]

@[simp] theorem State.applyTmu_memData (s : State) (n : Nat) :
    (State.applyTmu s n).memData = s.memData := by
  simp [State.applyTmu]

@[simp] theorem State.tmuWritten_memData (s : State) (n : Nat) :
    (State.tmuWritten s n).memData = s.memData := by
  simp [State.tmuWritten]

@[simp] theorem State.takeTmu_memData (s : State) (n : Nat) :
    (State.takeTmu s n).memData = s.memData := by
  simp [State.takeTmu]

@[simp] theorem State.tmuRelease_memData (s : State) (n : Nat) :
    (State.tmuRelease s n).memData = s.memData := by
  simp [State.tmuRelease]

@[simp] theorem State.tmuCompute_memData (s : State) (n : Nat) (m : TmuArm) :
    (State.tmuCompute s n m).2.memData = s.memData := by
  unfold State.tmuCompute; (repeat' (first | with_reducible rfl | (simp []; done) | (split <;> try (rename_i heq; obtain ⟨_, rfl⟩ := Prod.ext_iff.mp heq)) | refine (State.memData_foldl _ (fun _ _ => ?_) _ _).trans ?_ | dsimp only | simp []))

@[simp] theorem State.tmuSend_memData (s : State) (n : Nat) (m : TmuArm) (v : TmuValue) (bits : Nat) (events : Nat) (index : Nat) (cellTime : Nat) :
    (State.tmuSend s n m v bits events index cellTime).memData = s.memData := by
  unfold State.tmuSend; (repeat' (first | with_reducible rfl | (simp []; done) | (split <;> try (rename_i heq; obtain ⟨_, rfl⟩ := Prod.ext_iff.mp heq)) | refine (State.memData_foldl _ (fun _ _ => ?_) _ _).trans ?_ | dsimp only | simp []))

@[simp] theorem State.forgetReading_memData (s : State) (b : Nat) (serial : Nat) :
    (State.forgetReading s b serial).memData = s.memData := by
  simp [State.forgetReading]

@[simp] theorem State.tmuIdle_memData (s : State) (n : Nat) :
    (State.tmuIdle s n).memData = s.memData := by
  simp [State.tmuIdle]

@[simp] theorem State.tmuOver_memData (s : State) (n : Nat) (m : TmuArm) (status : Nat) (fine : Int) (events : Nat) (bits : Nat) :
    (State.tmuOver s n m status fine events bits).memData = s.memData := by
  unfold State.tmuOver; (repeat' (first | with_reducible rfl | (simp []; done) | (split <;> try (rename_i heq; obtain ⟨_, rfl⟩ := Prod.ext_iff.mp heq)) | refine (State.memData_foldl _ (fun _ _ => ?_) _ _).trans ?_ | dsimp only | simp []))

@[simp] theorem State.tmuAbort_memData (s : State) (n : Nat) (status : Nat) :
    (State.tmuAbort s n status).memData = s.memData := by
  unfold State.tmuAbort; (repeat' (first | with_reducible rfl | (simp []; done) | (split <;> try (rename_i heq; obtain ⟨_, rfl⟩ := Prod.ext_iff.mp heq)) | refine (State.memData_foldl _ (fun _ _ => ?_) _ _).trans ?_ | dsimp only | simp []))

@[simp] theorem State.tmuDrop_memData (s : State) (n : Nat) :
    (State.tmuDrop s n).memData = s.memData := by
  unfold State.tmuDrop; (repeat' (first | with_reducible rfl | (simp []; done) | (split <;> try (rename_i heq; obtain ⟨_, rfl⟩ := Prod.ext_iff.mp heq)) | refine (State.memData_foldl _ (fun _ _ => ?_) _ _).trans ?_ | dsimp only | simp []))

@[simp] theorem State.tmuDropSince_memData (s : State) (b : Nat) (serial : Nat) :
    (State.tmuDropSince s b serial).memData = s.memData := by
  unfold State.tmuDropSince; (repeat' (first | with_reducible rfl | (simp []; done) | (split <;> try (rename_i heq; obtain ⟨_, rfl⟩ := Prod.ext_iff.mp heq)) | refine (State.memData_foldl _ (fun _ _ => ?_) _ _).trans ?_ | dsimp only | simp []))

@[simp] theorem State.tmuCloseSite_memData (s : State) (b : Nat) (position : Nat) :
    (State.tmuCloseSite s b position).memData = s.memData := by
  unfold State.tmuCloseSite; (repeat' (first | with_reducible rfl | (simp []; done) | (split <;> try (rename_i heq; obtain ⟨_, rfl⟩ := Prod.ext_iff.mp heq)) | refine (State.memData_foldl _ (fun _ _ => ?_) _ _).trans ?_ | dsimp only | simp []))

@[simp] theorem State.tmuBegin_memData (s : State) (n : Nat) (m : TmuArm) :
    (State.tmuBegin s n m).memData = s.memData := by
  simp [State.tmuBegin]

@[simp] theorem State.tmuArm_memData (s : State) (n : Nat) (m : TmuArm) :
    (State.tmuArm s n m).memData = s.memData := by
  unfold State.tmuArm; (repeat' (first | with_reducible rfl | (simp []; done) | (split <;> try (rename_i heq; obtain ⟨_, rfl⟩ := Prod.ext_iff.mp heq)) | refine (State.memData_foldl _ (fun _ _ => ?_) _ _).trans ?_ | dsimp only | simp []))

@[simp] theorem doTmuTrigger_memData (b : Nat) (s : State) :
    (doTmuTrigger b s).memData = s.memData := by
  unfold doTmuTrigger; (repeat' (first | with_reducible rfl | (simp []; done) | (split <;> try (rename_i heq; obtain ⟨_, rfl⟩ := Prod.ext_iff.mp heq)) | refine (State.memData_foldl _ (fun _ _ => ?_) _ _).trans ?_ | dsimp only | simp []))

@[simp] theorem doTmuArm_memData (c : Cmd) (s : State) :
    (doTmuArm c s).memData = s.memData := by
  simp [doTmuArm]

@[simp] theorem State.tmuEvAssert_memData (s : State) (k : Nat) :
    (State.tmuEvAssert s k).memData = s.memData := by
  unfold State.tmuEvAssert; (repeat' (first | with_reducible rfl | (simp []; done) | (split <;> try (rename_i heq; obtain ⟨_, rfl⟩ := Prod.ext_iff.mp heq)) | refine (State.memData_foldl _ (fun _ _ => ?_) _ _).trans ?_ | dsimp only | simp []))

@[simp] theorem State.tmuCloseGate_memData (s : State) (n : Nat) (m : TmuArm) :
    (State.tmuCloseGate s n m).memData = s.memData := by
  simp [State.tmuCloseGate]

@[simp] theorem State.tmuEvRelease_memData (s : State) (k : Nat) :
    (State.tmuEvRelease s k).memData = s.memData := by
  unfold State.tmuEvRelease; (repeat' (first | with_reducible rfl | (simp []; done) | (split <;> try (rename_i heq; obtain ⟨_, rfl⟩ := Prod.ext_iff.mp heq)) | refine (State.memData_foldl _ (fun _ _ => ?_) _ _).trans ?_ | dsimp only | simp []))

@[simp] theorem doTmuCalibrated_memData (n : Nat) (k1 : BitVec 16) (k2 : BitVec 16) (startIn : Bool) (stopIn : Bool) (s : State) :
    (doTmuCalibrated n k1 k2 startIn stopIn s).memData = s.memData := by
  unfold doTmuCalibrated; (repeat' (first | with_reducible rfl | (simp []; done) | (split <;> try (rename_i heq; obtain ⟨_, rfl⟩ := Prod.ext_iff.mp heq)) | refine (State.memData_foldl _ (fun _ _ => ?_) _ _).trans ?_ | dsimp only | simp []))

@[simp] theorem doTmuInputSettled_memData (n : Nat) (stop : Bool) (s : State) :
    (doTmuInputSettled n stop s).memData = s.memData := by
  simp [doTmuInputSettled]

@[simp] theorem TmuInput.counts_memData (i : TmuInput) (falling : Bool) (s : State) :
    (TmuInput.counts i falling s).2.memData = s.memData := by
  simp [TmuInput.counts]

@[simp] theorem State.tmuCount_memData (s : State) (n : Nat) (stop : Bool) (falling : Bool) (m : TmuArm) (e : TmuEdge) :
    (State.tmuCount s n stop falling m e).memData = s.memData := by
  simp [State.tmuCount]

@[simp] theorem doTmuEdge_memData (n : Nat) (stop : Bool) (falling : Bool) (ref : BitVec 40) (code : BitVec 12) (time : BitVec 64) (s : State) :
    (doTmuEdge n stop falling ref code time s).memData = s.memData := by
  unfold doTmuEdge; (repeat' (first | with_reducible rfl | (simp []; done) | (split <;> try (rename_i heq; obtain ⟨_, rfl⟩ := Prod.ext_iff.mp heq)) | refine (State.memData_foldl _ (fun _ _ => ?_) _ _).trans ?_ | dsimp only | simp []))

@[simp] theorem doTmuGateClose_memData (n : Nat) (s : State) :
    (doTmuGateClose n s).memData = s.memData := by
  unfold doTmuGateClose; (repeat' (first | with_reducible rfl | (simp []; done) | (split <;> try (rename_i heq; obtain ⟨_, rfl⟩ := Prod.ext_iff.mp heq)) | refine (State.memData_foldl _ (fun _ _ => ?_) _ _).trans ?_ | dsimp only | simp []))

@[simp] theorem doTmuTimeout_memData (n : Nat) (s : State) :
    (doTmuTimeout n s).memData = s.memData := by
  unfold doTmuTimeout; (repeat' (first | with_reducible rfl | (simp []; done) | (split <;> try (rename_i heq; obtain ⟨_, rfl⟩ := Prod.ext_iff.mp heq)) | refine (State.memData_foldl _ (fun _ _ => ?_) _ _).trans ?_ | dsimp only | simp []))

@[simp] theorem State.tmuTrain_memData (s : State) (n : Nat) (m : TmuArm) :
    (State.tmuTrain s n m).memData = s.memData := by
  unfold State.tmuTrain; (repeat' (first | with_reducible rfl | (simp []; done) | (split <;> try (rename_i heq; obtain ⟨_, rfl⟩ := Prod.ext_iff.mp heq)) | refine (State.memData_foldl _ (fun _ _ => ?_) _ _).trans ?_ | dsimp only | simp []))

@[simp] theorem doTmuResult_memData (n : Nat) (s : State) :
    (doTmuResult n s).memData = s.memData := by
  unfold doTmuResult; (repeat' (first | with_reducible rfl | (simp []; done) | (split <;> try (rename_i heq; obtain ⟨_, rfl⟩ := Prod.ext_iff.mp heq)) | refine (State.memData_foldl _ (fun _ _ => ?_) _ _).trans ?_ | dsimp only | simp []))

end Sys2Proof.Machine
end

