-- ==== Sys2Proof/Laws/Kept/Awg.lean ====
section
/-! SUPPORT. What the operations of Sys2Proof/Machine/Awg.lean leave alone: what memory holds. -/

namespace Sys2Proof.Machine

open Sys2Proof

set_option linter.unusedTactic false
set_option linter.unreachableTactic false
set_option linter.unusedSimpArgs false

@[simp] theorem State.modAwg_memData (s : State) (c : Nat) (f : Awg → Awg) :
    (State.modAwg s c f).memData = s.memData := by
  simp [State.modAwg]

@[simp] theorem State.showShared_memData (s : State) (c : Nat) :
    (State.showShared s c).memData = s.memData := by
  simp [State.showShared]

@[simp] theorem State.applyAwg_memData (s : State) (c : Nat) :
    (State.applyAwg s c).memData = s.memData := by
  simp [State.applyAwg]

@[simp] theorem State.awgWritten_memData (s : State) (c : Nat) :
    (State.awgWritten s c).memData = s.memData := by
  simp [State.awgWritten]

@[simp] theorem State.takeAwg_memData (s : State) (c : Nat) :
    (State.takeAwg s c).memData = s.memData := by
  simp [State.takeAwg]

@[simp] theorem State.awgRelease_memData (s : State) (c : Nat) :
    (State.awgRelease s c).memData = s.memData := by
  simp [State.awgRelease]

@[simp] theorem State.awgGap_memData (s : State) (c : Nat) (cause : Nat) (status : Nat) (first : Nat) (len : Nat) :
    (State.awgGap s c cause status first len).memData = s.memData := by
  simp [State.awgGap]

@[simp] theorem State.awgPass_memData (s : State) (c : Nat) (k : Nat) :
    (State.awgPass s c k).memData = s.memData := by
  simp [State.awgPass]

@[simp] theorem State.awgIdle_memData (s : State) (c : Nat) (k : Nat) :
    (State.awgIdle s c k).memData = s.memData := by
  simp [State.awgIdle]

@[simp] theorem State.awgCloseGap_memData (s : State) (c : Nat) (cut : Bool) :
    (State.awgCloseGap s c cut).memData = s.memData := by
  unfold State.awgCloseGap; (repeat' (first | with_reducible rfl | (simp []; done) | (split <;> try (rename_i heq; obtain ⟨_, rfl⟩ := Prod.ext_iff.mp heq)) | refine (State.memData_foldl _ (fun _ _ => ?_) _ _).trans ?_ | dsimp only | simp []))

@[simp] theorem State.awgAnswer_memData (s : State) (r : AwgReq) (st : Nat) (n : Nat) (entry : Nat) :
    (State.awgAnswer s r st n entry).memData = s.memData := by
  unfold State.awgAnswer; (repeat' (first | with_reducible rfl | (simp []; done) | (split <;> try (rename_i heq; obtain ⟨_, rfl⟩ := Prod.ext_iff.mp heq)) | refine (State.memData_foldl _ (fun _ _ => ?_) _ _).trans ?_ | dsimp only | simp []))

@[simp] theorem State.awgStop_memData (s : State) (c : Nat) (cut : Bool) :
    (State.awgStop s c cut).memData = s.memData := by
  unfold State.awgStop
  extract_lets a reqs s1
  have h1 : s1.memData = s.memData :=
    (State.memData_foldl _ (fun _ _ => State.awgAnswer_memData _ _ _ _ _) _ _).trans (State.awgCloseGap_memData _ _ _)
  clear_value s1
  simp [h1]

@[simp] theorem State.awgHalt_memData (s : State) (c : Nat) (cut : Bool) :
    (State.awgHalt s c cut).memData = s.memData := by
  unfold State.awgHalt; (repeat' (first | with_reducible rfl | (simp []; done) | (split <;> try (rename_i heq; obtain ⟨_, rfl⟩ := Prod.ext_iff.mp heq)) | refine (State.memData_foldl _ (fun _ _ => ?_) _ _).trans ?_ | dsimp only | simp []))

@[simp] theorem State.awgReset_memData (s : State) (c : Nat) :
    (State.awgReset s c).memData = s.memData := by
  simp [State.awgReset]

@[simp] theorem State.awgProgramEnd_memData (s : State) (b : Nat) :
    (State.awgProgramEnd s b).memData = s.memData := by
  simp [State.awgProgramEnd]

@[simp] theorem State.awgMalformed_memData (s : State) (c : Nat) :
    (State.awgMalformed s c).memData = s.memData := by
  simp [State.awgMalformed]

@[simp] theorem State.awgFault_memData (s : State) (c : Nat) (status : Nat) :
    (State.awgFault s c status).memData = s.memData := by
  simp [State.awgFault]

@[simp] theorem State.awgMarker_memData (s : State) (c : Nat) (n : Nat) (t : Nat) :
    (State.awgMarker s c n t).memData = s.memData := by
  simp [State.awgMarker]

@[simp] theorem State.awgFire_memData (s : State) (c : Nat) :
    (State.awgFire s c).memData = s.memData := by
  simp [State.awgFire]

@[simp] theorem State.awgPlayKnown_memData (s : State) (c : Nat) :
    (State.awgPlayKnown s c).memData = s.memData := by
  unfold State.awgPlayKnown; (repeat' (first | with_reducible rfl | (simp []; done) | (split <;> try (rename_i heq; obtain ⟨_, rfl⟩ := Prod.ext_iff.mp heq)) | refine (State.memData_foldl _ (fun _ _ => ?_) _ _).trans ?_ | dsimp only | simp []))

@[simp] theorem State.awgPlay_memData (s : State) (c : Nat) (n : Nat) (play : Nat) (p : AwgPlay) :
    (State.awgPlay s c n play p).memData = s.memData := by
  simp [State.awgPlay]

@[simp] theorem doAwgBoundary_memData (c : Nat) (s : State) :
    (doAwgBoundary c s).memData = s.memData := by
  unfold doAwgBoundary; (repeat' (first | with_reducible rfl | (simp []; done) | (split <;> try (rename_i heq; obtain ⟨_, rfl⟩ := Prod.ext_iff.mp heq)) | refine (State.memData_foldl _ (fun _ _ => ?_) _ _).trans ?_ | dsimp only | simp []))

@[simp] theorem State.awgNs_memData (s : State) (c : Nat) :
    (State.awgNs s c).memData = s.memData := by
  simp [State.awgNs]

@[simp] theorem State.awgsNs_memData (s : State) :
    (State.awgsNs s).memData = s.memData := by
  simp [State.awgsNs]

@[simp] theorem State.awgBegin_memData (s : State) (c : Nat) (at' : Nat) (program : Option Nat) :
    (State.awgBegin s c at' program).memData = s.memData := by
  simp [State.awgBegin]

@[simp] theorem State.awgControl_memData (s : State) (b : Nat) (code : Nat) (f : State → Nat → Nat → State) (hf : ∀ x0 x1 x2, (f x0 x1 x2).memData = State.memData x0) :
    (State.awgControl s b code f).memData = s.memData := by
  unfold State.awgControl; (repeat' (first | with_reducible rfl | (simp [hf]; done) | (split <;> try (rename_i heq; obtain ⟨_, rfl⟩ := Prod.ext_iff.mp heq)) | refine (State.memData_foldl _ (fun _ _ => ?_) _ _).trans ?_ | dsimp only | simp [hf]))

@[simp] theorem doAwgStart_memData (b : Nat) (s : State) :
    (doAwgStart b s).memData = s.memData := by
  simp [doAwgStart]

@[simp] theorem State.awgRegister_memData (s : State) (c : Nat) (n : Nat) (r : AwgReq) :
    (State.awgRegister s c n r).memData = s.memData := by
  unfold State.awgRegister; (repeat' (first | with_reducible rfl | (simp []; done) | (split <;> try (rename_i heq; obtain ⟨_, rfl⟩ := Prod.ext_iff.mp heq)) | refine (State.memData_foldl _ (fun _ _ => ?_) _ _).trans ?_ | dsimp only | simp []))

@[simp] theorem State.awgAsk_memData (s : State) (c : Nat) (r : AwgReq) :
    (State.awgAsk s c r).memData = s.memData := by
  simp [State.awgAsk]

@[simp] theorem doAwgStop_memData (b : Nat) (s : State) :
    (doAwgStop b s).memData = s.memData := by
  simp [doAwgStop]

@[simp] theorem doAwgJump_memData (b : Nat) (s : State) :
    (doAwgJump b s).memData = s.memData := by
  simp [doAwgJump]

@[simp] theorem doAwgRegister_memData (c : Nat) (n : Nat) (s : State) :
    (doAwgRegister c n s).memData = s.memData := by
  unfold doAwgRegister; (repeat' (first | with_reducible rfl | (simp []; done) | (split <;> try (rename_i heq; obtain ⟨_, rfl⟩ := Prod.ext_iff.mp heq)) | refine (State.memData_foldl _ (fun _ _ => ?_) _ _).trans ?_ | dsimp only | simp []))

@[simp] theorem State.awgResume_memData (s : State) (c : Nat) :
    (State.awgResume s c).memData = s.memData := by
  unfold State.awgResume; (repeat' (first | with_reducible rfl | (simp []; done) | (split <;> try (rename_i heq; obtain ⟨_, rfl⟩ := Prod.ext_iff.mp heq)) | refine (State.memData_foldl _ (fun _ _ => ?_) _ _).trans ?_ | dsimp only | simp []))

@[simp] theorem State.awgFetchEntry_memData (s : State) (c : Nat) (w : AwgPart) (x : Nat × Nat) :
    (State.awgFetchEntry s c w x).memData = s.memData := by
  unfold State.awgFetchEntry; (repeat' (first | with_reducible rfl | (simp []; done) | (split <;> try (rename_i heq; obtain ⟨_, rfl⟩ := Prod.ext_iff.mp heq)) | refine (State.memData_foldl _ (fun _ _ => ?_) _ _).trans ?_ | dsimp only | simp []))

@[simp] theorem State.awgFetchBlock_memData (s : State) (c : Nat) (k : Nat) (w : AwgPart) (x : Nat × Nat) :
    (State.awgFetchBlock s c k w x).memData = s.memData := by
  unfold State.awgFetchBlock; (repeat' (first | with_reducible rfl | (simp []; done) | (split <;> try (rename_i heq; obtain ⟨_, rfl⟩ := Prod.ext_iff.mp heq)) | refine (State.memData_foldl _ (fun _ _ => ?_) _ _).trans ?_ | dsimp only | simp []))

@[simp] theorem doAwgFetchDone_memData (c : Nat) (what : AwgFetch) (s : State) :
    (doAwgFetchDone c what s).memData = s.memData := by
  unfold doAwgFetchDone; (repeat' (first | with_reducible rfl | refine State.awgReadBlock_memData _ _ _ _ _ _ (fun _ _ _ => ?_) | (simp []; done) | (split <;> try (rename_i heq; obtain ⟨_, rfl⟩ := Prod.ext_iff.mp heq)) | refine (State.memData_foldl _ (fun _ _ => ?_) _ _).trans ?_ | dsimp only | simp []))

@[simp] theorem doAwgUnderrun_memData (c : Nat) (s : State) :
    (doAwgUnderrun c s).memData = s.memData := by
  simp [doAwgUnderrun]

@[simp] theorem State.awgRun_memData (s : State) (c : Cmd) (bad : Bool) (k : Nat → State → State) (hk : ∀ x0 x1, (k x0 x1).memData = State.memData x1) :
    (State.awgRun s c bad k).memData = s.memData := by
  simp [State.awgRun, hk]

@[simp] theorem doAwgRunStart_memData (c : Cmd) (s : State) :
    (doAwgRunStart c s).memData = s.memData := by
  simp [doAwgRunStart]

@[simp] theorem doAwgRunStop_memData (c : Cmd) (s : State) :
    (doAwgRunStop c s).memData = s.memData := by
  simp [doAwgRunStop]

@[simp] theorem doAwgRunJump_memData (c : Cmd) (s : State) :
    (doAwgRunJump c s).memData = s.memData := by
  simp [doAwgRunJump]

@[simp] theorem doAwgTimedStart_memData (c : Nat) (s : State) :
    (doAwgTimedStart c s).memData = s.memData := by
  unfold doAwgTimedStart; (repeat' (first | with_reducible rfl | (simp []; done) | (split <;> try (rename_i heq; obtain ⟨_, rfl⟩ := Prod.ext_iff.mp heq)) | refine (State.memData_foldl _ (fun _ _ => ?_) _ _).trans ?_ | dsimp only | simp []))

end Sys2Proof.Machine
end

