-- ==== Sys2Proof/Laws/Keeps/Awg.lean ====
section
/-! SUPPORT. The operations of Sys2Proof/Machine/Awg.lean that reach memory: they keep its canonical form. -/

namespace Sys2Proof.Machine

open Sys2Proof

set_option linter.unusedTactic false
set_option linter.unreachableTactic false
set_option linter.unusedSimpArgs false

theorem State.awgControl_keeps (s : State) (b : Nat) (code : Nat) (f : State → Nat → Nat → State) (hf : ∀ x0 x1 x2, storeWf (State.memData x0) = true → storeWf ((f x0 x1 x2).memData) = true) (hs : storeWf (State.memData s) = true) :
    storeWf ((State.awgControl s b code f).memData) = true := by
  unfold State.awgControl; (repeat' (first | with_reducible assumption | (simp [hs]; done) | with_reducible refine hf _ _ _ ?_ | (split <;> try (rename_i heq; obtain ⟨_, rfl⟩ := Prod.ext_iff.mp heq)) | with_reducible refine State.foldl_keeps _ (fun _ _ _ => ?_) _ _ ?_ | dsimp only | simp only [State.memData_update, State.memData_update_mem] | simp))

theorem State.awgRun_keeps (s : State) (c : Cmd) (bad : Bool) (k : Nat → State → State) (hk : ∀ x0 x1, storeWf (State.memData x1) = true → storeWf ((k x0 x1).memData) = true) (hs : storeWf (State.memData s) = true) :
    storeWf ((State.awgRun s c bad k).memData) = true := by
  unfold State.awgRun; (repeat' (first | with_reducible assumption | (simp [hs]; done) | with_reducible refine State.checked_keeps _ _ _ _ (fun _ _ => ?_) ?_ | with_reducible refine hk _ _ ?_ | (split <;> try (rename_i heq; obtain ⟨_, rfl⟩ := Prod.ext_iff.mp heq)) | with_reducible refine State.foldl_keeps _ (fun _ _ _ => ?_) _ _ ?_ | dsimp only | simp only [State.memData_update, State.memData_update_mem] | simp))

end Sys2Proof.Machine
end

