-- ==== Sys2Proof/Laws/Kept/Acq.lean ====
section
/-! SUPPORT. What the operations of Sys2Proof/Machine/Acq.lean leave alone: what memory holds. -/

namespace Sys2Proof.Machine

open Sys2Proof

set_option linter.unusedTactic false
set_option linter.unreachableTactic false
set_option linter.unusedSimpArgs false

@[simp] theorem State.modDg_memData (s : State) (c : Nat) (f : Dg → Dg) :
    (State.modDg s c f).memData = s.memData := by
  simp [State.modDg]

@[simp] theorem State.showDgCal_memData (s : State) (c : Nat) :
    (State.showDgCal s c).memData = s.memData := by
  simp [State.showDgCal]

@[simp] theorem State.applyDg_memData (s : State) (c : Nat) :
    (State.applyDg s c).memData = s.memData := by
  simp [State.applyDg]

@[simp] theorem State.dgWritten_memData (s : State) (c : Nat) (ring : Bool) :
    (State.dgWritten s c ring).memData = s.memData := by
  simp [State.dgWritten]

@[simp] theorem State.takeDg_memData (s : State) (c : Nat) :
    (State.takeDg s c).memData = s.memData := by
  simp [State.takeDg]

@[simp] theorem State.dgRelease_memData (s : State) (c : Nat) :
    (State.dgRelease s c).memData = s.memData := by
  simp [State.dgRelease]

@[simp] theorem State.showSlopes_memData (s : State) (c : Nat) :
    (State.showSlopes s c).memData = s.memData := by
  simp [State.showSlopes]

@[simp] theorem State.acqRecord_memData (s : State) (c : Nat) (m : DgArm) (r : Nat) (typ : Nat) (status : Nat) (cellTime : Nat) (suspect : Bool) (body : List Byte) :
    (State.acqRecord s c m r typ status cellTime suspect body).memData = s.memData := by
  simp [State.acqRecord]

@[simp] theorem State.dgCloseExtent_memData (s : State) (c : Nat) (m : DgArm) (status : Nat) :
    (State.dgCloseExtent s c m status).memData = s.memData := by
  unfold State.dgCloseExtent; (repeat' (first | with_reducible rfl | (simp []; done) | (split <;> try (rename_i heq; obtain ⟨_, rfl⟩ := Prod.ext_iff.mp heq)) | refine (State.memData_foldl _ (fun _ _ => ?_) _ _).trans ?_ | dsimp only | simp []))

@[simp] theorem State.dgGapRecord_memData (s : State) (c : Nat) (m : DgArm) (start : Nat) (r : Nat) (cause : Nat) (status : Nat) (first : Nat) (len : Nat) (flags : Nat) :
    (State.dgGapRecord s c m start r cause status first len flags).memData = s.memData := by
  simp [State.dgGapRecord]

@[simp] theorem State.dgCloseGap_memData (s : State) (c : Nat) (m : DgArm) :
    (State.dgCloseGap s c m).memData = s.memData := by
  unfold State.dgCloseGap; (repeat' (first | with_reducible rfl | (simp []; done) | (split <;> try (rename_i heq; obtain ⟨_, rfl⟩ := Prod.ext_iff.mp heq)) | refine (State.memData_foldl _ (fun _ _ => ?_) _ _).trans ?_ | dsimp only | simp []))

@[simp] theorem State.dgDeliver_memData (s : State) (c : Nat) (m : DgArm) (r : Nat) (status : Nat) (value : Int) (flags : Nat) (cellTime : Nat) (feeds : Bool) :
    (State.dgDeliver s c m r status value flags cellTime feeds).memData = s.memData := by
  unfold State.dgDeliver; (repeat' (first | with_reducible rfl | (simp []; done) | (split <;> try (rename_i heq; obtain ⟨_, rfl⟩ := Prod.ext_iff.mp heq)) | refine (State.memData_foldl _ (fun _ _ => ?_) _ _).trans ?_ | dsimp only | simp []))

@[simp] theorem State.dgIdle_memData (s : State) (c : Nat) :
    (State.dgIdle s c).memData = s.memData := by
  simp [State.dgIdle]

@[simp] theorem State.dgOver_memData (s : State) (c : Nat) (m : DgArm) (override : Option Nat) :
    (State.dgOver s c m override).memData = s.memData := by
  unfold State.dgOver; (repeat' (first | with_reducible rfl | (simp []; done) | (split <;> try (rename_i heq; obtain ⟨_, rfl⟩ := Prod.ext_iff.mp heq)) | refine (State.memData_foldl _ (fun _ _ => ?_) _ _).trans ?_ | dsimp only | simp []))

@[simp] theorem dgLoseQueue_memData (v0 : Nat) (v1 : Nat) (v2 : Nat) (s : State) :
    (dgLoseQueue v0 v1 v2 s).memData = s.memData := by
  induction v0 generalizing v1 v2 s <;> unfold dgLoseQueue <;> (repeat' (first | with_reducible rfl | (simp [*]; done) | (split <;> try (rename_i heq; obtain ⟨_, rfl⟩ := Prod.ext_iff.mp heq)) | refine (State.memData_foldl _ (fun _ _ => ?_) _ _).trans ?_ | dsimp only | simp []))

@[simp] theorem State.dgFault_memData (s : State) (c : Nat) (status : Nat) :
    (State.dgFault s c status).memData = s.memData := by
  unfold State.dgFault; (repeat' (first | with_reducible rfl | (simp []; done) | (split <;> try (rename_i heq; obtain ⟨_, rfl⟩ := Prod.ext_iff.mp heq)) | refine (State.memData_foldl _ (fun _ _ => ?_) _ _).trans ?_ | dsimp only | simp []))

@[simp] theorem State.dgCloseRecord_memData (s : State) (c : Nat) (m : DgArm) (acc : DgAcc) :
    (State.dgCloseRecord s c m acc).memData = s.memData := by
  simp [State.dgCloseRecord]

@[simp] theorem State.dgMissed_memData (s : State) (c : Nat) :
    (State.dgMissed s c).memData = s.memData := by
  simp [State.dgMissed]

@[simp] theorem doPostCaptureEnd_memData (c : Nat) (s : State) :
    (doPostCaptureEnd c s).memData = s.memData := by
  unfold doPostCaptureEnd; (repeat' (first | with_reducible rfl | (simp []; done) | (split <;> try (rename_i heq; obtain ⟨_, rfl⟩ := Prod.ext_iff.mp heq)) | refine (State.memData_foldl _ (fun _ _ => ?_) _ _).trans ?_ | dsimp only | simp []))

@[simp] theorem State.dgConvert_memData (s : State) (c : Nat) (code : Int) :
    (State.dgConvert s c code).memData = s.memData := by
  simp [State.dgConvert]

@[simp] theorem State.dgAbort_memData (s : State) (c : Nat) (status : Nat) :
    (State.dgAbort s c status).memData = s.memData := by
  unfold State.dgAbort; (repeat' (first | with_reducible rfl | (simp []; done) | (split <;> try (rename_i heq; obtain ⟨_, rfl⟩ := Prod.ext_iff.mp heq)) | refine (State.memData_foldl _ (fun _ _ => ?_) _ _).trans ?_ | dsimp only | simp []))

@[simp] theorem State.dgDrop_memData (s : State) (c : Nat) :
    (State.dgDrop s c).memData = s.memData := by
  unfold State.dgDrop; (repeat' (first | with_reducible rfl | (simp []; done) | (split <;> try (rename_i heq; obtain ⟨_, rfl⟩ := Prod.ext_iff.mp heq)) | refine (State.memData_foldl _ (fun _ _ => ?_) _ _).trans ?_ | dsimp only | simp []))

@[simp] theorem State.dgDropSince_memData (s : State) (b : Nat) (serial : Nat) :
    (State.dgDropSince s b serial).memData = s.memData := by
  unfold State.dgDropSince; (repeat' (first | with_reducible rfl | (simp []; done) | (split <;> try (rename_i heq; obtain ⟨_, rfl⟩ := Prod.ext_iff.mp heq)) | refine (State.memData_foldl _ (fun _ _ => ?_) _ _).trans ?_ | dsimp only | simp []))

@[simp] theorem State.dgCloseSite_memData (s : State) (b : Nat) (position : Nat) :
    (State.dgCloseSite s b position).memData = s.memData := by
  unfold State.dgCloseSite; (repeat' (first | with_reducible rfl | (simp []; done) | (split <;> try (rename_i heq; obtain ⟨_, rfl⟩ := Prod.ext_iff.mp heq)) | refine (State.memData_foldl _ (fun _ _ => ?_) _ _).trans ?_ | dsimp only | simp []))

@[simp] theorem State.dgArm_memData (s : State) (c : Nat) (m : DgArm) :
    (State.dgArm s c m).memData = s.memData := by
  unfold State.dgArm; (repeat' (first | with_reducible rfl | (simp []; done) | (split <;> try (rename_i heq; obtain ⟨_, rfl⟩ := Prod.ext_iff.mp heq)) | refine (State.memData_foldl _ (fun _ _ => ?_) _ _).trans ?_ | dsimp only | simp []))

@[simp] theorem doDigitizerTrigger_memData (b : Nat) (s : State) :
    (doDigitizerTrigger b s).memData = s.memData := by
  unfold doDigitizerTrigger; (repeat' (first | with_reducible rfl | (simp []; done) | (split <;> try (rename_i heq; obtain ⟨_, rfl⟩ := Prod.ext_iff.mp heq)) | refine (State.memData_foldl _ (fun _ _ => ?_) _ _).trans ?_ | dsimp only | simp []))

@[simp] theorem State.acqCtrl_memData (s : State) (c : Cmd) (bad : Bool) (k : Nat → State → State) (hk : ∀ x0 x1, (k x0 x1).memData = State.memData x1) :
    (State.acqCtrl s c bad k).memData = s.memData := by
  simp [State.acqCtrl, hk]

@[simp] theorem doAcqArm_memData (c : Cmd) (s : State) :
    (doAcqArm c s).memData = s.memData := by
  simp [doAcqArm]

@[simp] theorem doAcqForce_memData (c : Cmd) (s : State) :
    (doAcqForce c s).memData = s.memData := by
  simp [doAcqForce]

end Sys2Proof.Machine
end

