-- ==== Sys2Proof/Laws/Keeps/Acq.lean ====
section
/-! SUPPORT. The operations of Sys2Proof/Machine/Acq.lean that reach memory: they keep its canonical form. -/

namespace Sys2Proof.Machine

open Sys2Proof

set_option linter.unusedTactic false
set_option linter.unreachableTactic false
set_option linter.unusedSimpArgs false

theorem dgDrainWords_keeps (v0 : Nat) (v1 : Nat) (s : State) (hs : storeWf (State.memData s) = true) :
    storeWf ((dgDrainWords v0 v1 s).memData) = true := by
  induction v0 generalizing v1 s with | zero => (unfold dgDrainWords; (repeat' (first | with_reducible assumption | (simp [*]; done) | with_reducible refine State.memWrite_keeps _ _ _ _ _  ?_ | (split <;> try (rename_i heq; obtain ⟨_, rfl⟩ := Prod.ext_iff.mp heq)) | dsimp only | simp))) | succ n ih => (unfold dgDrainWords; (repeat' (first | with_reducible assumption | with_reducible refine ih _ _ ?_ | (simp [*]; done) | with_reducible refine State.memWrite_keeps _ _ _ _ _  ?_ | (split <;> try (rename_i heq; obtain ⟨_, rfl⟩ := Prod.ext_iff.mp heq)) | dsimp only | simp)))

theorem State.dgDrain_keeps (s : State) (c : Nat) (hs : storeWf (State.memData s) = true) :
    storeWf ((State.dgDrain s c).memData) = true := by
  unfold State.dgDrain; (repeat' (first | with_reducible assumption | (simp [hs]; done) | with_reducible refine dgDrainWords_keeps _ _ _  ?_ | (split <;> try (rename_i heq; obtain ⟨_, rfl⟩ := Prod.ext_iff.mp heq)) | with_reducible refine State.foldl_keeps _ (fun _ _ _ => ?_) _ _ ?_ | dsimp only | simp only [State.memData_update, State.memData_update_mem] | simp))

theorem State.dgStore_keeps (s : State) (c : Nat) (m : DgArm) (iv : DgInterval) (hs : storeWf (State.memData s) = true) :
    storeWf ((State.dgStore s c m iv).memData) = true := by
  unfold State.dgStore; (repeat' (first | with_reducible assumption | (simp [hs]; done) | with_reducible refine State.dgDrain_keeps _ _  ?_ | (split <;> try (rename_i heq; obtain ⟨_, rfl⟩ := Prod.ext_iff.mp heq)) | with_reducible refine State.foldl_keeps _ (fun _ _ _ => ?_) _ _ ?_ | dsimp only | simp only [State.memData_update, State.memData_update_mem] | simp))

theorem State.dgTake_keeps (s : State) (c : Nat) (m : DgArm) (iv : DgInterval) (hs : storeWf (State.memData s) = true) :
    storeWf ((State.dgTake s c m iv).memData) = true := by
  unfold State.dgTake; (repeat' (first | with_reducible assumption | (simp [hs]; done) | with_reducible refine State.dgStore_keeps _ _ _ _  ?_ | (split <;> try (rename_i heq; obtain ⟨_, rfl⟩ := Prod.ext_iff.mp heq)) | with_reducible refine State.foldl_keeps _ (fun _ _ _ => ?_) _ _ ?_ | dsimp only | simp only [State.memData_update, State.memData_update_mem] | simp))

theorem doTriggerFire_keeps (c : Nat) (s : State) (hs : storeWf (State.memData s) = true) :
    storeWf ((doTriggerFire c s).memData) = true := by
  unfold doTriggerFire; (repeat' (first | with_reducible assumption | (simp [hs]; done) | with_reducible refine State.dgStore_keeps _ _ _ _  ?_ | with_reducible refine State.dgTake_keeps _ _ _ _  ?_ | (split <;> try (rename_i heq; obtain ⟨_, rfl⟩ := Prod.ext_iff.mp heq)) | with_reducible refine State.foldl_keeps _ (fun _ _ _ => ?_) _ _ ?_ | dsimp only | simp only [State.memData_update, State.memData_update_mem] | simp))

theorem State.dgEnd_keeps (s : State) (c : Nat) (hs : storeWf (State.memData s) = true) :
    storeWf ((State.dgEnd s c).memData) = true := by
  unfold State.dgEnd; (repeat' (first | with_reducible assumption | (simp [hs]; done) | with_reducible refine doTriggerFire_keeps _ _  ?_ | (split <;> try (rename_i heq; obtain ⟨_, rfl⟩ := Prod.ext_iff.mp heq)) | with_reducible refine State.foldl_keeps _ (fun _ _ _ => ?_) _ _ ?_ | dsimp only | simp only [State.memData_update, State.memData_update_mem] | simp))

theorem doRearmEnd_keeps (c : Nat) (s : State) (hs : storeWf (State.memData s) = true) :
    storeWf ((doRearmEnd c s).memData) = true := by
  unfold doRearmEnd; (repeat' (first | with_reducible assumption | (simp [hs]; done) | with_reducible refine State.dgEnd_keeps _ _  ?_ | (split <;> try (rename_i heq; obtain ⟨_, rfl⟩ := Prod.ext_iff.mp heq)) | with_reducible refine State.foldl_keeps _ (fun _ _ _ => ?_) _ _ ?_ | dsimp only | simp only [State.memData_update, State.memData_update_mem] | simp))

theorem State.dgCatchUp_keeps (s : State) (c : Nat) (hs : storeWf (State.memData s) = true) :
    storeWf ((State.dgCatchUp s c).memData) = true := by
  unfold State.dgCatchUp; (repeat' (first | with_reducible assumption | (simp [hs]; done) | with_reducible refine doRearmEnd_keeps _ _  ?_ | with_reducible refine doTriggerFire_keeps _ _  ?_ | (split <;> try (rename_i heq; obtain ⟨_, rfl⟩ := Prod.ext_iff.mp heq)) | with_reducible refine State.foldl_keeps _ (fun _ _ _ => ?_) _ _ ?_ | dsimp only | simp only [State.memData_update, State.memData_update_mem] | simp))

theorem State.dgEvaluate_keeps (s : State) (c : Nat) (code : Int) (hs : storeWf (State.memData s) = true) :
    storeWf ((State.dgEvaluate s c code).memData) = true := by
  unfold State.dgEvaluate; (repeat' (first | with_reducible assumption | (simp [hs]; done) | with_reducible refine State.dgTake_keeps _ _ _ _  ?_ | (split <;> try (rename_i heq; obtain ⟨_, rfl⟩ := Prod.ext_iff.mp heq)) | with_reducible refine State.foldl_keeps _ (fun _ _ _ => ?_) _ _ ?_ | dsimp only | simp only [State.memData_update, State.memData_update_mem] | simp))

theorem doDgSample_keeps (g : Nat) (codes : List Int) (s : State) (hs : storeWf (State.memData s) = true) :
    storeWf ((doDgSample g codes s).memData) = true := by
  unfold doDgSample; (repeat' (first | with_reducible assumption | (simp [hs]; done) | with_reducible refine State.dgCatchUp_keeps _ _  ?_ | with_reducible refine State.dgEvaluate_keeps _ _ _  ?_ | (split <;> try (rename_i heq; obtain ⟨_, rfl⟩ := Prod.ext_iff.mp heq)) | with_reducible refine State.foldl_keeps _ (fun _ _ _ => ?_) _ _ ?_ | dsimp only | simp only [State.memData_update, State.memData_update_mem] | simp))

theorem doAcqTimeout_keeps (c : Nat) (s : State) (hs : storeWf (State.memData s) = true) :
    storeWf ((doAcqTimeout c s).memData) = true := by
  unfold doAcqTimeout; (repeat' (first | with_reducible assumption | (simp [hs]; done) | with_reducible refine State.dgEnd_keeps _ _  ?_ | (split <;> try (rename_i heq; obtain ⟨_, rfl⟩ := Prod.ext_iff.mp heq)) | with_reducible refine State.foldl_keeps _ (fun _ _ _ => ?_) _ _ ?_ | dsimp only | simp only [State.memData_update, State.memData_update_mem] | simp))

theorem State.acqCtrl_keeps (s : State) (c : Cmd) (bad : Bool) (k : Nat → State → State) (hk : ∀ x0 x1, storeWf (State.memData x1) = true → storeWf ((k x0 x1).memData) = true) (hs : storeWf (State.memData s) = true) :
    storeWf ((State.acqCtrl s c bad k).memData) = true := by
  unfold State.acqCtrl; (repeat' (first | with_reducible assumption | (simp [hs]; done) | with_reducible refine State.checked_keeps _ _ _ _ (fun _ _ => ?_) ?_ | with_reducible refine hk _ _ ?_ | (split <;> try (rename_i heq; obtain ⟨_, rfl⟩ := Prod.ext_iff.mp heq)) | with_reducible refine State.foldl_keeps _ (fun _ _ _ => ?_) _ _ ?_ | dsimp only | simp only [State.memData_update, State.memData_update_mem] | simp))

theorem doAcqStop_keeps (c : Cmd) (s : State) (hs : storeWf (State.memData s) = true) :
    storeWf ((doAcqStop c s).memData) = true := by
  unfold doAcqStop; (repeat' (first | with_reducible assumption | (simp [hs]; done) | with_reducible refine State.acqCtrl_keeps _ _ _ _ (fun _ _ _ => ?_) ?_ | with_reducible refine State.dgEnd_keeps _ _  ?_ | (split <;> try (rename_i heq; obtain ⟨_, rfl⟩ := Prod.ext_iff.mp heq)) | with_reducible refine State.foldl_keeps _ (fun _ _ _ => ?_) _ _ ?_ | dsimp only | simp only [State.memData_update, State.memData_update_mem] | simp))

theorem doAcqRelease_keeps (c : Cmd) (s : State) (hs : storeWf (State.memData s) = true) :
    storeWf ((doAcqRelease c s).memData) = true := by
  unfold doAcqRelease; (repeat' (first | with_reducible assumption | (simp [hs]; done) | with_reducible refine State.acqCtrl_keeps _ _ _ _ (fun _ _ _ => ?_) ?_ | with_reducible refine State.dgDrain_keeps _ _  ?_ | (split <;> try (rename_i heq; obtain ⟨_, rfl⟩ := Prod.ext_iff.mp heq)) | with_reducible refine State.foldl_keeps _ (fun _ _ _ => ?_) _ _ ?_ | dsimp only | simp only [State.memData_update, State.memData_update_mem] | simp))

end Sys2Proof.Machine
end

