-- ==== Sys2Proof/Laws/Kept/Mmu.lean ====
section
/-! SUPPORT. What the operations of Sys2Proof/Machine/Mmu.lean leave alone: what memory holds. -/

namespace Sys2Proof.Machine

open Sys2Proof

set_option linter.unusedTactic false
set_option linter.unreachableTactic false
set_option linter.unusedSimpArgs false

@[simp] theorem State.spoilImages_memData (s : State) (f : ImageEntry → Bool) :
    (State.spoilImages s f).memData = s.memData := by
  simp [State.spoilImages]

@[simp] theorem State.spoilBytes_memData (s : State) (host : Bool) (a : Nat) (n : Nat) :
    (State.spoilBytes s host a n).memData = s.memData := by
  simp [State.spoilBytes]

@[simp] theorem spoilPieces_memData (v0 : Nat) (v1 : Nat) (v2 : Nat) (s : State) :
    (spoilPieces v0 v1 v2 s).memData = s.memData := by
  induction v0 generalizing v1 v2 s <;> unfold spoilPieces <;> (repeat' (first | with_reducible rfl | (simp [*]; done) | (split <;> try (rename_i heq; obtain ⟨_, rfl⟩ := Prod.ext_iff.mp heq)) | refine (State.memData_foldl _ (fun _ _ => ?_) _ _).trans ?_ | dsimp only | simp []))

@[simp] theorem State.showPinned_memData (s : State) :
    (State.showPinned s).memData = s.memData := by
  simp [State.showPinned]

@[simp] theorem State.freeWaiters_memData (s : State) (i : Nat) :
    (State.freeWaiters s i).memData = s.memData := by
  simp [State.freeWaiters]

@[simp] theorem doMapRead_memData (c : Cmd) (s : State) :
    (doMapRead c s).memData = s.memData := by
  simp [doMapRead]

@[simp] theorem State.showGroups_memData (s : State) :
    (State.showGroups s).memData = s.memData := by
  simp [State.showGroups]

@[simp] theorem State.decide'_memData (s : State) (entry : Nat) (k : Nat) (w : Waiter) :
    (State.decide' s entry k w).memData = s.memData := by
  simp [State.decide']

@[simp] theorem State.sendGroup_memData (s : State) (entry : Nat) (base : Nat) (w : Waiter) :
    (State.sendGroup s entry base w).memData = s.memData := by
  simp [State.sendGroup]

@[simp] theorem takeGroups_memData (v0 : Nat) (s : State) :
    (takeGroups v0 s).memData = s.memData := by
  induction v0 generalizing s <;> unfold takeGroups <;> (repeat' (first | with_reducible rfl | (simp [*]; done) | (split <;> try (rename_i heq; obtain ⟨_, rfl⟩ := Prod.ext_iff.mp heq)) | refine (State.memData_foldl _ (fun _ _ => ?_) _ _).trans ?_ | dsimp only | simp []))

@[simp] theorem State.repin_memData (s : State) (i : Nat) :
    (State.repin s i).memData = s.memData := by
  simp [State.repin]

@[simp] theorem State.losePin_memData (s : State) (i : Nat) :
    (State.losePin s i).memData = s.memData := by
  simp [State.losePin]

@[simp] theorem State.trimAtc_memData (s : State) (v1 : Nat) :
    (State.trimAtc s v1).memData = s.memData := by
  induction v1 generalizing s <;> unfold State.trimAtc <;> (repeat' (first | with_reducible rfl | (simp [*]; done) | (split <;> try (rename_i heq; obtain ⟨_, rfl⟩ := Prod.ext_iff.mp heq)) | refine (State.memData_foldl _ (fun _ _ => ?_) _ _).trans ?_ | dsimp only | simp []))

@[simp] theorem State.cacheRanges_memData (s : State) (i : Nat) (base : Nat) (n : Nat) (l : List AtsRange) :
    (State.cacheRanges s i base n l).memData = s.memData := by
  simp [State.cacheRanges]

@[simp] theorem State.answered_memData (s : State) (i : Nat) (base : Nat) (w : Waiter) :
    (State.answered s i base w).memData = s.memData := by
  simp [State.answered]

@[simp] theorem doAtsCompletion_memData (i : Nat) (a : AtsAnswer) (s : State) :
    (doAtsCompletion i a s).memData = s.memData := by
  unfold doAtsCompletion; (repeat' split) <;> simp []

@[simp] theorem State.endGroup_memData (s : State) (index : Nat) (k : PageGroup → State → State) (hk : ∀ x0 x1, (k x0 x1).memData = State.memData x1) :
    (State.endGroup s index k).memData = s.memData := by
  unfold State.endGroup; (repeat' split) <;> simp [hk]

@[simp] theorem doPageResponse_memData (index : Nat) (r : PrgResponse) (s : State) :
    (doPageResponse index r s).memData = s.memData := by
  unfold doPageResponse; (repeat' split) <;> simp []

@[simp] theorem doPrTimeout_memData (index : Nat) (s : State) :
    (doPrTimeout index s).memData = s.memData := by
  simp [doPrTimeout]

@[simp] theorem doAtsInvalidate_memData (itag : Nat) (base : Nat) (pages : Nat) (s : State) :
    (doAtsInvalidate itag base pages s).memData = s.memData := by
  simp [doAtsInvalidate]

@[simp] theorem doInvalidationCompletion_memData (itag : Nat) (s : State) :
    (doInvalidationCompletion itag s).memData = s.memData := by
  simp [doInvalidationCompletion]

end Sys2Proof.Machine
end

