-- ==== Sys2Proof/Laws/Keeps/Mmu.lean ====
section
/-! SUPPORT. The operations of Sys2Proof/Machine/Mmu.lean that reach memory: they keep its canonical form. -/

namespace Sys2Proof.Machine

open Sys2Proof

set_option linter.unusedTactic false
set_option linter.unreachableTactic false
set_option linter.unusedSimpArgs false

theorem State.copyWrite_keeps (s : State) (x : MemCtx) (va : Nat) (data : List Byte) (poison : Bool) (hs : storeWf (State.memData s) = true) :
    storeWf ((State.copyWrite s x va data poison).2.memData) = true := by
  unfold State.copyWrite; (repeat' (first | with_reducible assumption | (simp [hs]; done) | with_reducible refine State.memWrite_keeps _ _ _ _ _  ?_ | (split <;> try (rename_i heq; obtain ⟨_, rfl⟩ := Prod.ext_iff.mp heq)) | with_reducible refine State.foldl_keeps _ (fun _ _ _ => ?_) _ _ ?_ | dsimp only | simp only [State.memData_update, State.memData_update_mem] | simp))

theorem State.putEntry_keeps (s : State) (i : Nat) (v : Nat) (hs : storeWf (State.memData s) = true) :
    storeWf ((State.putEntry s i v).memData) = true := by
  unfold State.putEntry
  simp only [State.spoilImages_memData]
  rw [storeWf_iff] at hs ⊢
  exact ⟨hs.1, hs.2.1, SMap.set_canonical (fun _ => 0) _ _ _ hs.2.2⟩

theorem State.clearEntry_inner_keeps (s : State) (i : Nat) (hs : storeWf (State.memData s) = true) :
    storeWf ((State.clearEntry' s i).memData) = true := by
  unfold State.clearEntry'; (repeat' (first | with_reducible assumption | (simp [hs]; done) | with_reducible refine State.putEntry_keeps _ _ _  ?_ | (split <;> try (rename_i heq; obtain ⟨_, rfl⟩ := Prod.ext_iff.mp heq)) | with_reducible refine State.foldl_keeps _ (fun _ _ _ => ?_) _ _ ?_ | dsimp only | simp only [State.memData_update, State.memData_update_mem] | simp))

theorem State.applyEntry_keeps (s : State) (i : Nat) (v : Nat) (hs : storeWf (State.memData s) = true) :
    storeWf ((State.applyEntry s i v).memData) = true := by
  unfold State.applyEntry; (repeat' (first | with_reducible assumption | (simp [hs]; done) | with_reducible refine State.clearEntry_inner_keeps _ _  ?_ | with_reducible refine State.putEntry_keeps _ _ _  ?_ | (split <;> try (rename_i heq; obtain ⟨_, rfl⟩ := Prod.ext_iff.mp heq)) | with_reducible refine State.foldl_keeps _ (fun _ _ _ => ?_) _ _ ?_ | dsimp only | simp only [State.memData_update, State.memData_update_mem] | simp))

theorem applyEntries_keeps (v0 : Nat) (v1 : List Nat) (s : State) (hs : storeWf (State.memData s) = true) :
    storeWf ((applyEntries v0 v1 s).2.2.memData) = true := by
  induction v1 generalizing v0 s with | nil => (unfold applyEntries; (repeat' (first | with_reducible assumption | (simp [*]; done) | with_reducible refine State.applyEntry_keeps _ _ _  ?_ | (split <;> try (rename_i heq; obtain ⟨_, rfl⟩ := Prod.ext_iff.mp heq)) | dsimp only | simp))) | cons a l ih => (unfold applyEntries; (repeat' (first | with_reducible assumption | with_reducible refine ih _ _ ?_ | (simp [*]; done) | with_reducible refine State.applyEntry_keeps _ _ _  ?_ | (split <;> try (rename_i heq; obtain ⟨_, rfl⟩ := Prod.ext_iff.mp heq)) | dsimp only | simp)))

theorem doMapSet_keeps (c : Cmd) (s : State) (hs : storeWf (State.memData s) = true) :
    storeWf ((doMapSet c s).memData) = true := by
  unfold doMapSet; (repeat' (first | with_reducible assumption | (simp [hs]; done) | with_reducible refine State.checked_keeps _ _ _ _ (fun _ _ => ?_) ?_ | with_reducible refine applyEntries_keeps _ _ _  ?_ | (split <;> try (rename_i heq; obtain ⟨_, rfl⟩ := Prod.ext_iff.mp heq)) | with_reducible refine State.foldl_keeps _ (fun _ _ _ => ?_) _ _ ?_ | dsimp only | simp only [State.memData_update, State.memData_update_mem] | simp))

theorem loadEntries_keeps (c : Cmd) (i : Nat) (va : Nat) (v3 : Nat) (v4 : Nat) (s : State) (hs : storeWf (State.memData s) = true) :
    storeWf ((loadEntries c i va v3 v4 s).memData) = true := by
  induction v3 generalizing c i va v4 s with | zero => (unfold loadEntries; (repeat' (first | with_reducible assumption | (simp [*]; done) | with_reducible refine State.applyEntry_keeps _ _ _  ?_ | (split <;> try (rename_i heq; obtain ⟨_, rfl⟩ := Prod.ext_iff.mp heq)) | dsimp only | simp))) | succ n ih => (unfold loadEntries; (repeat' (first | with_reducible assumption | with_reducible refine ih _ _ _ _ _ ?_ | (simp [*]; done) | with_reducible refine State.applyEntry_keeps _ _ _  ?_ | (split <;> try (rename_i heq; obtain ⟨_, rfl⟩ := Prod.ext_iff.mp heq)) | dsimp only | simp)))

theorem doMapLoad_keeps (c : Cmd) (s : State) (hs : storeWf (State.memData s) = true) :
    storeWf ((doMapLoad c s).memData) = true := by
  unfold doMapLoad
  extract_lets i n va bad
  refine State.checked_keeps _ _ _ _ (fun t ht => ?_) hs
  extract_lets r
  have hr : r.2.2.memData = t.memData := State.preRead_memData _ _ _ _
  have hh : (t.keepRequests r.2.2).memData = t.memData := State.keepRequests_memData _ _ hr
  clear_value r
  split
  · simpa [hh] using ht
  · exact loadEntries_keeps _ _ _ _ _ _ ht

theorem doMapClear_keeps (c : Cmd) (s : State) (hs : storeWf (State.memData s) = true) :
    storeWf ((doMapClear c s).memData) = true := by
  unfold doMapClear; (repeat' (first | with_reducible assumption | (simp [hs]; done) | with_reducible refine State.checked_keeps _ _ _ _ (fun _ _ => ?_) ?_ | with_reducible refine State.clearEntry_inner_keeps _ _  ?_ | (split <;> try (rename_i heq; obtain ⟨_, rfl⟩ := Prod.ext_iff.mp heq)) | with_reducible refine State.foldl_keeps _ (fun _ _ _ => ?_) _ _ ?_ | dsimp only | simp only [State.memData_update, State.memData_update_mem] | simp))

theorem doPatrolScrub_keeps (errors : List (Fin 68 × BitVec 8)) (elsewhere : List (BitVec 28 × List (Fin 68 × BitVec 8))) (s : State) (hs : storeWf (State.memData s) = true) :
    storeWf ((doPatrolScrub errors elsewhere s).memData) = true := by
  unfold doPatrolScrub; (repeat' (first | with_reducible assumption | (simp [hs]; done) | with_reducible refine State.strike_keeps _ _ _  ?_ | (split <;> try (rename_i heq; obtain ⟨_, rfl⟩ := Prod.ext_iff.mp heq)) | with_reducible refine State.foldl_keeps _ (fun _ _ _ => ?_) _ _ ?_ | dsimp only | simp only [State.memData_update, State.memData_update_mem] | simp))

theorem doHostRead_keeps (block : Nat) (r : HostRead) (s : State) (hs : storeWf (State.memData s) = true) :
    storeWf ((doHostRead block r s).memData) = true := by
  cases r with
  | refused => exact hs
  | data d ep =>
    rw [storeWf_iff] at hs ⊢
    exact ⟨hs.1, storeCells_canonical Config.hostByte _ _ _ hs.2.1, hs.2.2⟩

theorem State.endGroup_keeps (s : State) (index : Nat) (k : PageGroup → State → State) (hk : ∀ x0 x1, storeWf (State.memData x1) = true → storeWf ((k x0 x1).memData) = true) (hs : storeWf (State.memData s) = true) :
    storeWf ((State.endGroup s index k).memData) = true := by
  unfold State.endGroup; (repeat' (first | with_reducible assumption | (simp [hs]; done) | with_reducible refine hk _ _ ?_ | (split <;> try (rename_i heq; obtain ⟨_, rfl⟩ := Prod.ext_iff.mp heq)) | with_reducible refine State.foldl_keeps _ (fun _ _ _ => ?_) _ _ ?_ | dsimp only | simp only [State.memData_update, State.memData_update_mem] | simp))

end Sys2Proof.Machine
end

