-- ==== Sys2Proof/Laws/Kept/Ream.lean ====
section
/-! SUPPORT. What the operations of Sys2Proof/Machine/Ream.lean leave alone: what memory holds. -/

namespace Sys2Proof.Machine

open Sys2Proof

set_option linter.unusedTactic false
set_option linter.unreachableTactic false
set_option linter.unusedSimpArgs false

@[simp] theorem State.showLevel_memData (s : State) (n : Nat) (q : Nat) :
    (State.showLevel s n q).memData = s.memData := by
  simp [State.showLevel]

@[simp] theorem State.checkMark_memData (s : State) (n : Nat) (q : Nat) (pos : Nat) :
    (State.checkMark s n q pos).memData = s.memData := by
  simp [State.checkMark]

@[simp] theorem State.commitTo_memData (s : State) (n : Nat) (q : Nat) (pos : Nat) :
    (State.commitTo s n q pos).memData = s.memData := by
  simp [State.commitTo]

@[simp] theorem State.chainRecord_memData (s : State) (n : Nat) (r : Rec) :
    (State.chainRecord s n r).memData = s.memData := by
  simp [State.chainRecord]

@[simp] theorem State.leaveElastic_memData (s : State) (n : Nat) (k : Nat) :
    (State.leaveElastic s n k).memData = s.memData := by
  simp [State.leaveElastic]

@[simp] theorem State.discardEntered_memData (s : State) (n : Nat) (r : Rec) (st : Nat) :
    (State.discardEntered s n r st).memData = s.memData := by
  simp [State.discardEntered]

@[simp] theorem State.faultQueue_memData (s : State) (n : Nat) (q : Nat) (k : Nat) :
    (State.faultQueue s n q k).memData = s.memData := by
  simp [State.faultQueue]

@[simp] theorem State.countSince_memData (s : State) (n : Nat) (pos : Nat) (r : Rec) :
    (State.countSince s n pos r).memData = s.memData := by
  simp [State.countSince]

@[simp] theorem State.takeLimits_memData (s : State) (n : Nat) :
    (State.takeLimits s n).memData = s.memData := by
  simp [State.takeLimits]

@[simp] theorem State.limitsWritten_memData (s : State) (n : Nat) :
    (State.limitsWritten s n).memData = s.memData := by
  simp [State.limitsWritten]

@[simp] theorem State.clearCrossed_memData (s : State) (n : Nat) (q : Nat) :
    (State.clearCrossed s n q).memData = s.memData := by
  simp [State.clearCrossed]

@[simp] theorem State.queueChecked_memData (s : State) (c : Cmd) (used : List (Nat × Nat)) (bad : Bool) (k : State → State) (hk : ∀ x0, (k x0).memData = State.memData x0) :
    (State.queueChecked s c used bad k).memData = s.memData := by
  simp [State.queueChecked, hk]

@[simp] theorem doReamMark_memData (c : Cmd) (s : State) :
    (doReamMark c s).memData = s.memData := by
  simp [doReamMark]

@[simp] theorem State.rewind_memData (s : State) (c : Cmd) :
    (State.rewind s c).memData = s.memData := by
  simp [State.rewind]

@[simp] theorem doReamRelease_memData (c : Cmd) (s : State) :
    (doReamRelease c s).memData = s.memData := by
  simp [doReamRelease]

end Sys2Proof.Machine
end

