-- ==== Sys2Proof/Laws/Keeps/Ream.lean ====
section
/-! SUPPORT. The operations of Sys2Proof/Machine/Ream.lean that reach memory: they keep its canonical form. -/

namespace Sys2Proof.Machine

open Sys2Proof

set_option linter.unusedTactic false
set_option linter.unreachableTactic false
set_option linter.unusedSimpArgs false

theorem State.ringPiece_keeps (s : State) (n : Nat) (q : Nat) (pos : Nat) (d : List Byte) (hs : storeWf (State.memData s) = true) :
    storeWf ((State.ringPiece s n q pos d).2.memData) = true := by
  unfold State.ringPiece; (repeat' (first | with_reducible assumption | (simp [hs]; done) | with_reducible refine State.memWrite_keeps _ _ _ _ _  ?_ | (split <;> try (rename_i heq; obtain ⟨_, rfl⟩ := Prod.ext_iff.mp heq)) | with_reducible refine State.foldl_keeps _ (fun _ _ _ => ?_) _ _ ?_ | dsimp only | simp only [State.memData_update, State.memData_update_mem] | simp))

theorem State.ringWrite_keeps (s : State) (n : Nat) (q : Nat) (pos : Nat) (d : List Byte) (hs : storeWf (State.memData s) = true) :
    storeWf ((State.ringWrite s n q pos d).2.memData) = true := by
  unfold State.ringWrite; (repeat' (first | with_reducible assumption | (simp [hs]; done) | with_reducible refine State.ringPiece_keeps _ _ _ _ _  ?_ | (split <;> try (rename_i heq; obtain ⟨_, rfl⟩ := Prod.ext_iff.mp heq)) | with_reducible refine State.foldl_keeps _ (fun _ _ _ => ?_) _ _ ?_ | dsimp only | simp only [State.memData_update, State.memData_update_mem] | simp))

theorem State.commitRecord_keeps (s : State) (n : Nat) (r : Rec) (pos : Nat) (hs : storeWf (State.memData s) = true) :
    storeWf ((State.commitRecord s n r pos).2.memData) = true := by
  unfold State.commitRecord; (repeat' (first | with_reducible assumption | (simp [hs]; done) | with_reducible refine State.ringWrite_keeps _ _ _ _ _  ?_ | (split <;> try (rename_i heq; obtain ⟨_, rfl⟩ := Prod.ext_iff.mp heq)) | with_reducible refine State.foldl_keeps _ (fun _ _ _ => ?_) _ _ ?_ | dsimp only | simp only [State.memData_update, State.memData_update_mem] | simp))

theorem State.zeroStart_keeps (s : State) (n : Nat) (q : Nat) (hs : storeWf (State.memData s) = true) :
    storeWf ((State.zeroStart s n q).memData) = true := by
  unfold State.zeroStart; (repeat' (first | with_reducible assumption | (simp [hs]; done) | with_reducible refine State.ringWrite_keeps _ _ _ _ _  ?_ | (split <;> try (rename_i heq; obtain ⟨_, rfl⟩ := Prod.ext_iff.mp heq)) | with_reducible refine State.foldl_keeps _ (fun _ _ _ => ?_) _ _ ?_ | dsimp only | simp only [State.memData_update, State.memData_update_mem] | simp))

theorem doRecordCommit_keeps (n : Nat) (s0 : State) (hs : storeWf (State.memData s0) = true) :
    storeWf ((doRecordCommit n s0).memData) = true := by
  unfold doRecordCommit; (repeat' (first | with_reducible assumption | (simp [hs]; done) | with_reducible refine State.commitRecord_keeps _ _ _ _  ?_ | with_reducible refine State.zeroStart_keeps _ _ _  ?_ | (split <;> try (rename_i heq; obtain ⟨_, rfl⟩ := Prod.ext_iff.mp heq)) | with_reducible refine State.foldl_keeps _ (fun _ _ _ => ?_) _ _ ?_ | dsimp only | simp only [State.memData_update, State.memData_update_mem] | simp))

theorem State.applyQueue_keeps (s : State) (n : Nat) (q : Nat) (hs : storeWf (State.memData s) = true) :
    storeWf ((State.applyQueue s n q).memData) = true := by
  unfold State.applyQueue; (repeat' (first | with_reducible assumption | (simp [hs]; done) | with_reducible refine State.zeroStart_keeps _ _ _  ?_ | (split <;> try (rename_i heq; obtain ⟨_, rfl⟩ := Prod.ext_iff.mp heq)) | with_reducible refine State.foldl_keeps _ (fun _ _ _ => ?_) _ _ ?_ | dsimp only | simp only [State.memData_update, State.memData_update_mem] | simp))

theorem State.takeQueue_keeps (s : State) (n : Nat) (q : Nat) (hs : storeWf (State.memData s) = true) :
    storeWf ((State.takeQueue s n q).memData) = true := by
  unfold State.takeQueue; (repeat' (first | with_reducible assumption | (simp [hs]; done) | with_reducible refine State.applyQueue_keeps _ _ _  ?_ | (split <;> try (rename_i heq; obtain ⟨_, rfl⟩ := Prod.ext_iff.mp heq)) | with_reducible refine State.foldl_keeps _ (fun _ _ _ => ?_) _ _ ?_ | dsimp only | simp only [State.memData_update, State.memData_update_mem] | simp))

theorem State.queueWritten_keeps (s : State) (n : Nat) (q : Nat) (hs : storeWf (State.memData s) = true) :
    storeWf ((State.queueWritten s n q).memData) = true := by
  unfold State.queueWritten; (repeat' (first | with_reducible assumption | (simp [hs]; done) | with_reducible refine State.takeQueue_keeps _ _ _  ?_ | (split <;> try (rename_i heq; obtain ⟨_, rfl⟩ := Prod.ext_iff.mp heq)) | with_reducible refine State.foldl_keeps _ (fun _ _ _ => ?_) _ _ ?_ | dsimp only | simp only [State.memData_update, State.memData_update_mem] | simp))

theorem State.releaseSeq_keeps (s : State) (n : Nat) (hs : storeWf (State.memData s) = true) :
    storeWf ((State.releaseSeq s n).memData) = true := by
  unfold State.releaseSeq; (repeat' (first | with_reducible assumption | (simp [hs]; done) | with_reducible refine State.takeQueue_keeps _ _ _  ?_ | (split <;> try (rename_i heq; obtain ⟨_, rfl⟩ := Prod.ext_iff.mp heq)) | with_reducible refine State.foldl_keeps _ (fun _ _ _ => ?_) _ _ ?_ | dsimp only | simp only [State.memData_update, State.memData_update_mem] | simp))

theorem State.queueChecked_keeps (s : State) (c : Cmd) (used : List (Nat × Nat)) (bad : Bool) (k : State → State) (hk : ∀ x0, storeWf (State.memData x0) = true → storeWf ((k x0).memData) = true) (hs : storeWf (State.memData s) = true) :
    storeWf ((State.queueChecked s c used bad k).memData) = true := by
  unfold State.queueChecked; (repeat' (first | with_reducible assumption | (simp [hs]; done) | with_reducible refine State.checked_keeps _ _ _ _ (fun _ _ => ?_) ?_ | with_reducible refine hk _ ?_ | (split <;> try (rename_i heq; obtain ⟨_, rfl⟩ := Prod.ext_iff.mp heq)) | with_reducible refine State.foldl_keeps _ (fun _ _ _ => ?_) _ _ ?_ | dsimp only | simp only [State.memData_update, State.memData_update_mem] | simp))

theorem doReamReset_keeps (c : Cmd) (s : State) (hs : storeWf (State.memData s) = true) :
    storeWf ((doReamReset c s).memData) = true := by
  unfold doReamReset; (repeat' (first | with_reducible assumption | (simp [hs]; done) | with_reducible refine State.applyQueue_keeps _ _ _  ?_ | with_reducible refine State.queueChecked_keeps _ _ _ _ _ (fun _ _ => ?_) ?_ | (split <;> try (rename_i heq; obtain ⟨_, rfl⟩ := Prod.ext_iff.mp heq)) | with_reducible refine State.foldl_keeps _ (fun _ _ _ => ?_) _ _ ?_ | dsimp only | simp only [State.memData_update, State.memData_update_mem] | simp))

end Sys2Proof.Machine
end

