-- ==== Sys2Proof/Laws/Kept/Dma.lean ====
section
/-! SUPPORT. What the operations of Sys2Proof/Machine/Dma.lean leave alone: what memory holds. -/

namespace Sys2Proof.Machine

open Sys2Proof

set_option linter.unusedTactic false
set_option linter.unreachableTactic false
set_option linter.unusedSimpArgs false

@[simp] theorem State.modDma_memData (s : State) (e : Nat) (f : DmaEngine → DmaEngine) :
    (State.modDma s e f).memData = s.memData := by
  simp [State.modDma]

@[simp] theorem State.modTransfer_memData (s : State) (e : Nat) (k : Nat) (f : Transfer → Transfer) :
    (State.modTransfer s e k f).memData = s.memData := by
  simp [State.modTransfer]

@[simp] theorem State.showDma_memData (s : State) (e : Nat) :
    (State.showDma s e).memData = s.memData := by
  simp [State.showDma]

@[simp] theorem State.endTransfer_memData (s : State) (e : Nat) (t : Transfer) (st : Nat) (fault : Option (Nat × Nat)) (slot : Option Nat) :
    (State.endTransfer s e t st fault slot).memData = s.memData := by
  simp [State.endTransfer]

@[simp] theorem State.suspend_memData (s : State) (e : Nat) (t : Transfer) (va : Nat) (k : Nat) :
    (State.suspend s e t va k).memData = s.memData := by
  unfold State.suspend; (repeat' (first | with_reducible rfl | (simp []; done) | (split <;> try (rename_i heq; obtain ⟨_, rfl⟩ := Prod.ext_iff.mp heq)) | refine (State.memData_foldl _ (fun _ _ => ?_) _ _).trans ?_ | dsimp only | simp []))

@[simp] theorem State.startTransfer_memData (s : State) (e : Nat) (t : Transfer) :
    (State.startTransfer s e t).memData = s.memData := by
  simp [State.startTransfer]

@[simp] theorem pickTransfer_memData (v0 : Nat) (v1 : Nat) (s : State) :
    (pickTransfer v0 v1 s).memData = s.memData := by
  induction v0 generalizing v1 s <;> unfold pickTransfer <;> (repeat' (first | with_reducible rfl | (simp [*]; done) | (split <;> try (rename_i heq; obtain ⟨_, rfl⟩ := Prod.ext_iff.mp heq)) | refine (State.memData_foldl _ (fun _ _ => ?_) _ _).trans ?_ | dsimp only | simp []))

@[simp] theorem State.dmaSchedule_memData (s : State) (e : Nat) :
    (State.dmaSchedule s e).memData = s.memData := by
  simp [State.dmaSchedule]

@[simp] theorem State.dmaArrive_memData (s : State) (e : Nat) :
    (State.dmaArrive s e).memData = s.memData := by
  simp [State.dmaArrive]

@[simp] theorem dmaRead_memData (v0 : Nat) (v1 : MemCtx) (v2 : Nat) (v3 : Nat) (v4 : List Byte) (v5 : Option (Nat × Nat)) (s : State) :
    (dmaRead v0 v1 v2 v3 v4 v5 s).2.memData = s.memData := by
  induction v0 generalizing v1 v2 v3 v4 v5 s with
  | zero => rfl
  | succ fuel ih =>
    simp only [dmaRead]
    (repeat' split) <;> grind [State.readPiece_memData]

@[simp] theorem dmaGather_memData (v0 : MemCtx) (v1 : List (Nat × Nat)) (v2 : List Byte) (v3 : Option (Nat × Nat)) (s : State) :
    (dmaGather v0 v1 v2 v3 s).2.memData = s.memData := by
  induction v1 generalizing v0 v2 v3 s with
  | nil => rfl
  | cons a l ih =>
    simp only [dmaGather]
    (repeat' split) <;> grind [dmaRead_memData]

@[simp] theorem State.chunkRead_memData (s : State) (x : MemCtx) (t : Transfer) (off : Nat) (n : Nat) :
    (State.chunkRead s x t off n).2.memData = s.memData := by
  unfold State.chunkRead; (repeat' (first | with_reducible rfl | (simp []; done) | (split <;> try (rename_i heq; obtain ⟨_, rfl⟩ := Prod.ext_iff.mp heq)) | refine (State.memData_foldl _ (fun _ _ => ?_) _ _).trans ?_ | dsimp only | simp []))

@[simp] theorem State.chunkFault_memData (s : State) (e : Nat) (t : Transfer) (va : Nat) (k : Nat) :
    (State.chunkFault s e t va k).memData = s.memData := by
  simp [State.chunkFault]

@[simp] theorem State.park_memData (s : State) (e : Nat) (t : Transfer) (va : Nat) (write : Bool) :
    (State.park s e t va write).memData = s.memData := by
  simp [State.park]

@[simp] theorem State.unpark_memData (s : State) (e : Nat) :
    (State.unpark s e).memData = s.memData := by
  simp [State.unpark]

@[simp] theorem State.openFences_memData (s : State) :
    (State.openFences s).memData = s.memData := by
  simp [State.openFences]

@[simp] theorem State.dmaChecked_memData (s : State) (c : Cmd) (bad : Bool) (refusal : Nat) (k : Nat → State → State) (hk : ∀ x0 x1, (k x0 x1).memData = State.memData x1) :
    (State.dmaChecked s c bad refusal k).memData = s.memData := by
  unfold State.dmaChecked; (repeat' (first | with_reducible rfl | (simp [hk]; done) | (split <;> try (rename_i heq; obtain ⟨_, rfl⟩ := Prod.ext_iff.mp heq)) | refine (State.memData_foldl _ (fun _ _ => ?_) _ _).trans ?_ | dsimp only | simp [hk]))

@[simp] theorem State.holdTransfer_memData (s : State) (e : Nat) (t : Transfer) :
    (State.holdTransfer s e t).memData = s.memData := by
  simp [State.holdTransfer]

@[simp] theorem doDmaCopy_memData (earlier : List Cmd) (c : Cmd) (s : State) :
    (doDmaCopy earlier c s).memData = s.memData := by
  simp [doDmaCopy]

@[simp] theorem doDmaFill_memData (earlier : List Cmd) (c : Cmd) (s : State) :
    (doDmaFill earlier c s).memData = s.memData := by
  simp [doDmaFill]

@[simp] theorem doDmaRing_memData (earlier : List Cmd) (c : Cmd) (s : State) :
    (doDmaRing earlier c s).memData = s.memData := by
  simp [doDmaRing]

@[simp] theorem doDmaResume_memData (earlier : List Cmd) (c : Cmd) (s : State) :
    (doDmaResume earlier c s).memData = s.memData := by
  unfold doDmaResume; (repeat' (first | with_reducible rfl | refine State.dmaChecked_memData _ _ _ _ _ (fun _ _ => ?_) | (simp []; done) | (split <;> try (rename_i heq; obtain ⟨_, rfl⟩ := Prod.ext_iff.mp heq)) | refine (State.memData_foldl _ (fun _ _ => ?_) _ _).trans ?_ | dsimp only | simp []))

@[simp] theorem State.abortTransfer_memData (s : State) (e : Nat) (t : Transfer) :
    (State.abortTransfer s e t).memData = s.memData := by
  simp [State.abortTransfer]

@[simp] theorem State.dmaAbort_memData (s : State) (c : Cmd) (e : Nat) :
    (State.dmaAbort s c e).memData = s.memData := by
  unfold State.dmaAbort; (repeat' (first | with_reducible rfl | (simp []; done) | (split <;> try (rename_i heq; obtain ⟨_, rfl⟩ := Prod.ext_iff.mp heq)) | refine (State.memData_foldl _ (fun _ _ => ?_) _ _).trans ?_ | dsimp only | simp []))

@[simp] theorem doDmaAbort_memData (earlier : List Cmd) (c : Cmd) (s : State) :
    (doDmaAbort earlier c s).memData = s.memData := by
  simp [doDmaAbort]

@[simp] theorem doDmaTimeLimit_memData (e : Nat) (slot : Bool) (k : Nat) (s : State) :
    (doDmaTimeLimit e slot k s).memData = s.memData := by
  unfold doDmaTimeLimit; (repeat' (first | with_reducible rfl | (simp []; done) | (split <;> try (rename_i heq; obtain ⟨_, rfl⟩ := Prod.ext_iff.mp heq)) | refine (State.memData_foldl _ (fun _ _ => ?_) _ _).trans ?_ | dsimp only | simp []))

@[simp] theorem doDescriptorAgeing_memData (e : Nat) (k : Nat) (s : State) :
    (doDescriptorAgeing e k s).memData = s.memData := by
  unfold doDescriptorAgeing; (repeat' (first | with_reducible rfl | (simp []; done) | (split <;> try (rename_i heq; obtain ⟨_, rfl⟩ := Prod.ext_iff.mp heq)) | refine (State.memData_foldl _ (fun _ _ => ?_) _ _).trans ?_ | dsimp only | simp []))

@[simp] theorem doReamRewind_memData (c : Cmd) (s : State) :
    (doReamRewind c s).memData = s.memData := by
  simp [doReamRewind]

@[simp] theorem State.dmaReset_memData (s : State) (e : Nat) :
    (State.dmaReset s e).memData = s.memData := by
  simp [State.dmaReset]

end Sys2Proof.Machine
end

