-- ==== Sys2Proof/Laws/Keeps/Dma.lean ====
section
/-! SUPPORT. The operations of Sys2Proof/Machine/Dma.lean that reach memory: they keep its canonical form. -/

namespace Sys2Proof.Machine

open Sys2Proof

set_option linter.unusedTactic false
set_option linter.unreachableTactic false
set_option linter.unusedSimpArgs false

theorem dmaWrite_keeps (v0 : Nat) (v1 : MemCtx) (v2 : Nat) (v3 : List Byte) (v4 : Bool) (v5 : Nat) (s : State) (hs : storeWf (State.memData s) = true) :
    storeWf ((dmaWrite v0 v1 v2 v3 v4 v5 s).2.memData) = true := by
  induction v0 generalizing v1 v2 v3 v4 v5 s with
  | zero => exact hs
  | succ fuel ih =>
    simp only [dmaWrite]
    (repeat' split) <;> grind [State.writePiece_keeps, spoilPieces_memData]

theorem dmaWriteRuns_keeps (v0 : MemCtx) (v1 : Nat) (v2 : List (List Byte × Bool)) (v3 : Nat) (s : State) (hs : storeWf (State.memData s) = true) :
    storeWf ((dmaWriteRuns v0 v1 v2 v3 s).2.memData) = true := by
  induction v2 generalizing v0 v1 v3 s with
  | nil => exact hs
  | cons a l ih =>
    simp only [dmaWriteRuns]
    (repeat' split) <;> grind [dmaWrite_keeps]

theorem State.chunkWrite_keeps (s : State) (x : MemCtx) (t : Transfer) (off : Nat) (data : List Byte) (poison : Bool) (hs : storeWf (State.memData s) = true) :
    storeWf ((State.chunkWrite s x t off data poison).2.memData) = true := by
  unfold State.chunkWrite; (repeat' (first | with_reducible assumption | (simp [hs]; done) | with_reducible refine dmaWriteRuns_keeps _ _ _ _ _  ?_ | (split <;> try (rename_i heq; obtain ⟨_, rfl⟩ := Prod.ext_iff.mp heq)) | with_reducible refine State.foldl_keeps _ (fun _ _ _ => ?_) _ _ ?_ | dsimp only | simp only [State.memData_update, State.memData_update_mem] | simp))

theorem State.ringAdvance_keeps (s : State) (x : DmaSource) (p : Nat) (hs : storeWf (State.memData s) = true) :
    storeWf ((State.ringAdvance s x p).memData) = true := by
  unfold State.ringAdvance; (repeat' (first | with_reducible assumption | (simp [hs]; done) | with_reducible refine State.dgDrain_keeps _ _  ?_ | (split <;> try (rename_i heq; obtain ⟨_, rfl⟩ := Prod.ext_iff.mp heq)) | with_reducible refine State.foldl_keeps _ (fun _ _ _ => ?_) _ _ ?_ | dsimp only | simp only [State.memData_update, State.memData_update_mem] | simp))

theorem State.chunkDone_keeps (s : State) (e : Nat) (t : Transfer) (n : Nat) (hs : storeWf (State.memData s) = true) :
    storeWf ((State.chunkDone s e t n).memData) = true := by
  unfold State.chunkDone; (repeat' (first | with_reducible assumption | (simp [hs]; done) | with_reducible refine State.ringAdvance_keeps _ _ _  ?_ | (split <;> try (rename_i heq; obtain ⟨_, rfl⟩ := Prod.ext_iff.mp heq)) | with_reducible refine State.foldl_keeps _ (fun _ _ _ => ?_) _ _ ?_ | dsimp only | simp only [State.memData_update, State.memData_update_mem] | simp))

theorem State.runChunk_keeps (s : State) (e : Nat) (t : Transfer) (hs : storeWf (State.memData s) = true) :
    storeWf ((State.runChunk s e t).memData) = true := by
  unfold State.runChunk; (repeat' (first | with_reducible assumption | (simp [hs]; done) | with_reducible refine State.chunkDone_keeps _ _ _ _  ?_ | with_reducible refine State.chunkWrite_keeps _ _ _ _ _ _  ?_ | (split <;> try (rename_i heq; obtain ⟨_, rfl⟩ := Prod.ext_iff.mp heq)) | with_reducible refine State.foldl_keeps _ (fun _ _ _ => ?_) _ _ ?_ | dsimp only | simp only [State.memData_update, State.memData_update_mem] | simp))

theorem State.landChunks_keeps (s : State) (e : Nat) (t : Transfer) (beyond : List Nat) (hs : storeWf (State.memData s) = true) :
    storeWf ((State.landChunks s e t beyond).memData) = true := by
  unfold State.landChunks; (repeat' (first | with_reducible assumption | (simp [hs]; done) | with_reducible refine State.chunkWrite_keeps _ _ _ _ _ _  ?_ | (split <;> try (rename_i heq; obtain ⟨_, rfl⟩ := Prod.ext_iff.mp heq)) | with_reducible refine State.foldl_keeps _ (fun _ _ _ => ?_) _ _ ?_ | dsimp only | simp only [State.memData_update, State.memData_update_mem] | simp))

theorem doDmaChunk_keeps (e : Nat) (begun : Nat) (landed : List Nat) (s : State) (hs : storeWf (State.memData s) = true) :
    storeWf ((doDmaChunk e begun landed s).memData) = true := by
  unfold doDmaChunk; (repeat' (first | with_reducible assumption | (simp [hs]; done) | with_reducible refine State.landChunks_keeps _ _ _ _  ?_ | with_reducible refine State.runChunk_keeps _ _ _  ?_ | (split <;> try (rename_i heq; obtain ⟨_, rfl⟩ := Prod.ext_iff.mp heq)) | with_reducible refine State.foldl_keeps _ (fun _ _ _ => ?_) _ _ ?_ | dsimp only | simp only [State.memData_update, State.memData_update_mem] | simp))

theorem State.dmaChecked_keeps (s : State) (c : Cmd) (bad : Bool) (refusal : Nat) (k : Nat → State → State) (hk : ∀ x0 x1, storeWf (State.memData x1) = true → storeWf ((k x0 x1).memData) = true) (hs : storeWf (State.memData s) = true) :
    storeWf ((State.dmaChecked s c bad refusal k).memData) = true := by
  unfold State.dmaChecked; (repeat' (first | with_reducible assumption | (simp [hs]; done) | with_reducible refine hk _ _ ?_ | (split <;> try (rename_i heq; obtain ⟨_, rfl⟩ := Prod.ext_iff.mp heq)) | with_reducible refine State.foldl_keeps _ (fun _ _ _ => ?_) _ _ ?_ | dsimp only | simp only [State.memData_update, State.memData_update_mem] | simp))

theorem doReamResetDma_keeps (c : Cmd) (s : State) (hs : storeWf (State.memData s) = true) :
    storeWf ((doReamResetDma c s).memData) = true := by
  unfold doReamResetDma; (repeat' (first | with_reducible assumption | (simp [hs]; done) | with_reducible refine doReamReset_keeps _ _  ?_ | (split <;> try (rename_i heq; obtain ⟨_, rfl⟩ := Prod.ext_iff.mp heq)) | with_reducible refine State.foldl_keeps _ (fun _ _ _ => ?_) _ _ ?_ | dsimp only | simp only [State.memData_update, State.memData_update_mem] | simp))

end Sys2Proof.Machine
end

