-- ==== Sys2Proof/Laws/Kept/HostIf.lean ====
section
/-! SUPPORT. What the operations of Sys2Proof/Machine/HostIf.lean leave alone: what memory holds. -/

namespace Sys2Proof.Machine

open Sys2Proof

set_option linter.unusedTactic false
set_option linter.unreachableTactic false
set_option linter.unusedSimpArgs false

@[simp] theorem State.modSq_memData (s : State) (q : Nat) (f : SubQueue → SubQueue) :
    (State.modSq s q f).memData = s.memData := by
  simp [State.modSq]

@[simp] theorem State.modCq_memData (s : State) (q : Nat) (f : ComQueue → ComQueue) :
    (State.modCq s q f).memData = s.memData := by
  simp [State.modCq]

@[simp] theorem State.statusChanged_memData (s : State) (q : Nat) :
    (State.statusChanged s q).memData = s.memData := by
  simp [State.statusChanged]

@[simp] theorem State.showPolling_memData (s : State) :
    (State.showPolling s).memData = s.memData := by
  simp [State.showPolling]

@[simp] theorem State.ltrIfChanged_memData (s : State) (old : Nat) :
    (State.ltrIfChanged s old).memData = s.memData := by
  simp [State.ltrIfChanged]

@[simp] theorem State.roundOver_memData (s : State) :
    (State.roundOver s).memData = s.memData := by
  simp [State.roundOver]

@[simp] theorem State.stopQueue_memData (s : State) (q : Nat) (err : Nat) :
    (State.stopQueue s q err).memData = s.memData := by
  simp [State.stopQueue]

@[simp] theorem State.takeDoorbell_memData (s : State) (q : Nat) (tail : Nat) (head : Nat) :
    (State.takeDoorbell s q tail head).memData = s.memData := by
  simp [State.takeDoorbell]

@[simp] theorem State.dispatch_memData (s : State) (c : Cmd) :
    (State.dispatch s c).memData = s.memData := by
  simp [State.dispatch]

@[simp] theorem doNop_memData (c : Cmd) (s : State) :
    (doNop c s).memData = s.memData := by
  simp [doNop]

@[simp] theorem State.enterBuffer_memData (s : State) :
    (State.enterBuffer s).memData = s.memData := by
  unfold State.enterBuffer; (repeat' (first | with_reducible rfl | (simp []; done) | (split <;> try (rename_i heq; obtain ⟨_, rfl⟩ := Prod.ext_iff.mp heq)) | refine (State.memData_foldl _ (fun _ _ => ?_) _ _).trans ?_ | dsimp only | simp []))

@[simp] theorem State.showFull_memData (s : State) :
    (State.showFull s).memData = s.memData := by
  simp [State.showFull]

@[simp] theorem State.refill_memData (s : State) :
    (State.refill s).memData = s.memData := by
  simp [State.refill]

@[simp] theorem State.countWaits_memData (s : State) :
    (State.countWaits s).memData = s.memData := by
  simp [State.countWaits]

@[simp] theorem State.cqTimer_memData (s : State) (q : Nat) :
    (State.cqTimer s q).memData = s.memData := by
  simp [State.cqTimer]

@[simp] theorem State.deliverDeferred_memData (s : State) :
    (State.deliverDeferred s).memData = s.memData := by
  simp [State.deliverDeferred]

@[simp] theorem State.deliverPba_memData (s : State) :
    (State.deliverPba s).memData = s.memData := by
  simp [State.deliverPba]

@[simp] theorem doMsixUnmask_memData (v : Option Nat) (s : State) :
    (doMsixUnmask v s).memData = s.memData := by
  unfold doMsixUnmask; (repeat' (first | with_reducible rfl | (simp []; done) | (split <;> try (rename_i heq; obtain ⟨_, rfl⟩ := Prod.ext_iff.mp heq)) | refine (State.memData_foldl _ (fun _ _ => ?_) _ _).trans ?_ | dsimp only | simp []))

@[simp] theorem doL1Entry_memData (s : State) :
    (doL1Entry s).memData = s.memData := by
  simp [doL1Entry]

@[simp] theorem doD3hotEntry_memData (s : State) :
    (doD3hotEntry s).memData = s.memData := by
  simp [doD3hotEntry]

@[simp] theorem State.discardPending_memData (s : State) :
    (State.discardPending s).memData = s.memData := by
  simp [State.discardPending]

@[simp] theorem doLinkUp_memData (rate : LinkRate) (width : LinkWidth) (s : State) :
    (doLinkUp rate width s).memData = s.memData := by
  simp [doLinkUp]

@[simp] theorem State.setAts_memData (s : State) (on : Bool) :
    (State.setAts s on).memData = s.memData := by
  unfold State.setAts; (repeat' (first | with_reducible rfl | (simp []; done) | (split <;> try (rename_i heq; obtain ⟨_, rfl⟩ := Prod.ext_iff.mp heq)) | refine (State.memData_foldl _ (fun _ _ => ?_) _ _).trans ?_ | dsimp only | simp []))

@[simp] theorem State.setPri_memData (s : State) (on : Bool) :
    (State.setPri s on).memData = s.memData := by
  simp [State.setPri]

@[simp] theorem doHotReset_memData (linkDown : Bool) (s : State) :
    (doHotReset linkDown s).memData = s.memData := by
  simp [doHotReset]

@[simp] theorem State.sqApplied_memData (s : State) (q : Nat) (was : Bool) :
    (State.sqApplied s q was).memData = s.memData := by
  simp [State.sqApplied]

@[simp] theorem State.cqApplied_memData (s : State) (q : Nat) (was : Bool) :
    (State.cqApplied s q was).memData = s.memData := by
  simp [State.cqApplied]

end Sys2Proof.Machine
end

