-- ==== Sys2Proof/Laws/Keeps/HostIf.lean ====
section
/-! SUPPORT. The operations of Sys2Proof/Machine/HostIf.lean that reach memory: they keep its canonical form. -/

namespace Sys2Proof.Machine

open Sys2Proof

set_option linter.unusedTactic false
set_option linter.unreachableTactic false
set_option linter.unusedSimpArgs false

theorem State.writeStatus_keeps (s : State) (q : Nat) (hs : storeWf (State.memData s) = true) :
    storeWf ((State.writeStatus s q).memData) = true := by
  unfold State.writeStatus; (repeat' (first | with_reducible assumption | (simp [hs]; done) | with_reducible refine State.writeHost_keeps _ _ _ _  ?_ | (split <;> try (rename_i heq; obtain ⟨_, rfl⟩ := Prod.ext_iff.mp heq)) | with_reducible refine State.foldl_keeps _ (fun _ _ _ => ?_) _ _ ?_ | dsimp only | simp only [State.memData_update, State.memData_update_mem] | simp))

theorem doPollRound_keeps (s : State) (hs : storeWf (State.memData s) = true) :
    storeWf ((doPollRound s).memData) = true := by
  unfold doPollRound; (repeat' (first | with_reducible assumption | (simp [hs]; done) | with_reducible refine State.writeStatus_keeps _ _  ?_ | (split <;> try (rename_i heq; obtain ⟨_, rfl⟩ := Prod.ext_iff.mp heq)) | with_reducible refine State.foldl_keeps _ (fun _ _ _ => ?_) _ _ ?_ | dsimp only | simp only [State.memData_update, State.memData_update_mem] | simp))

theorem doDoorbellRead_keeps (k : Nat) (r : LineRead) (s : State) (hs : storeWf (State.memData s) = true) :
    storeWf ((doDoorbellRead k r s).memData) = true := by
  unfold doDoorbellRead; (repeat' (first | with_reducible assumption | (simp [hs]; done) | with_reducible refine State.writeHost_keeps _ _ _ _  ?_ | (split <;> try (rename_i heq; obtain ⟨_, rfl⟩ := Prod.ext_iff.mp heq)) | with_reducible refine State.foldl_keeps _ (fun _ _ _ => ?_) _ _ ?_ | dsimp only | simp only [State.memData_update, State.memData_update_mem] | simp))

theorem doEntryFetch_keeps (q : Nat) (r : LineRead) (s : State) (hs : storeWf (State.memData s) = true) :
    storeWf ((doEntryFetch q r s).memData) = true := by
  unfold doEntryFetch; (repeat' (first | with_reducible assumption | (simp [hs]; done) | with_reducible refine State.writeHost_keeps _ _ _ _  ?_ | (split <;> try (rename_i heq; obtain ⟨_, rfl⟩ := Prod.ext_iff.mp heq)) | with_reducible refine State.foldl_keeps _ (fun _ _ _ => ?_) _ _ ?_ | dsimp only | simp only [State.memData_update, State.memData_update_mem] | simp))

theorem State.writeCompletion_keeps (s : State) (e : Completion) (hs : storeWf (State.memData s) = true) :
    storeWf ((State.writeCompletion s e).memData) = true := by
  unfold State.writeCompletion; (repeat' (first | with_reducible assumption | (simp [hs]; done) | with_reducible refine State.writeHost_keeps _ _ _ _  ?_ | with_reducible refine State.writeStatus_keeps _ _  ?_ | (split <;> try (rename_i heq; obtain ⟨_, rfl⟩ := Prod.ext_iff.mp heq)) | with_reducible refine State.foldl_keeps _ (fun _ _ _ => ?_) _ _ ?_ | dsimp only | simp only [State.memData_update, State.memData_update_mem] | simp))

theorem State.drainOne_keeps (s : State) (hs : storeWf (State.memData s) = true) :
    storeWf ((State.drainOne s).memData) = true := by
  unfold State.drainOne; (repeat' (first | with_reducible assumption | (simp [hs]; done) | with_reducible refine State.writeCompletion_keeps _ _  ?_ | (split <;> try (rename_i heq; obtain ⟨_, rfl⟩ := Prod.ext_iff.mp heq)) | with_reducible refine State.foldl_keeps _ (fun _ _ _ => ?_) _ _ ?_ | dsimp only | simp only [State.memData_update, State.memData_update_mem] | simp))

theorem doCompletionWrite_keeps (s : State) (hs : storeWf (State.memData s) = true) :
    storeWf ((doCompletionWrite s).memData) = true := by
  unfold doCompletionWrite; (repeat' (first | with_reducible assumption | (simp [hs]; done) | with_reducible refine State.drainOne_keeps _  ?_ | (split <;> try (rename_i heq; obtain ⟨_, rfl⟩ := Prod.ext_iff.mp heq)) | with_reducible refine State.foldl_keeps _ (fun _ _ _ => ?_) _ _ ?_ | dsimp only | simp only [State.memData_update, State.memData_update_mem] | simp))

theorem State.drainHeld_keeps (v0 : Nat) (s : State) (hs : storeWf (State.memData s) = true) :
    storeWf ((State.drainHeld v0 s).memData) = true := by
  induction v0 generalizing s with | zero => (unfold State.drainHeld; (repeat' (first | with_reducible assumption | (simp [*]; done) | with_reducible refine State.drainOne_keeps _  ?_ | (split <;> try (rename_i heq; obtain ⟨_, rfl⟩ := Prod.ext_iff.mp heq)) | dsimp only | simp))) | succ n ih => (unfold State.drainHeld; (repeat' (first | with_reducible assumption | with_reducible refine ih _ ?_ | (simp [*]; done) | with_reducible refine State.drainOne_keeps _  ?_ | (split <;> try (rename_i heq; obtain ⟨_, rfl⟩ := Prod.ext_iff.mp heq)) | dsimp only | simp)))

end Sys2Proof.Machine
end

