-- ==== Sys2Proof/Laws/Kept/Events.lean ====
section
/-! SUPPORT. What the operations of Sys2Proof/Machine/Events.lean leave alone: what memory holds. -/

namespace Sys2Proof.Machine

open Sys2Proof

set_option linter.unusedTactic false
set_option linter.unreachableTactic false
set_option linter.unusedSimpArgs false

@[simp] theorem State.modHeq_memData (s : State) (k : Nat) (f : EventQueue → EventQueue) :
    (State.modHeq s k f).memData = s.memData := by
  simp [State.modHeq]

@[simp] theorem State.moderateHeq_memData (s : State) (k : Nat) :
    (State.moderateHeq s k).memData = s.memData := by
  simp [State.moderateHeq]

@[simp] theorem State.heqApplied_memData (s : State) (k : Nat) (was : Bool) :
    (State.heqApplied s k was).memData = s.memData := by
  simp [State.heqApplied]

@[simp] theorem doModerationTimer_memData (m : ModQueue) (s : State) :
    (doModerationTimer m s).memData = s.memData := by
  unfold doModerationTimer; (repeat' (first | with_reducible rfl | (simp []; done) | (split <;> try (rename_i heq; obtain ⟨_, rfl⟩ := Prod.ext_iff.mp heq)) | refine (State.memData_foldl _ (fun _ _ => ?_) _ _).trans ?_ | dsimp only | simp []))

@[simp] theorem State.modLine_memData (s : State) (k : Nat) (f : EvLine → EvLine) :
    (State.modLine s k f).memData = s.memData := by
  simp [State.modLine]

@[simp] theorem State.showLines_memData (s : State) :
    (State.showLines s).memData = s.memData := by
  simp [State.showLines]

@[simp] theorem doEvAssert_memData (k : Nat) (s : State) :
    (doEvAssert k s).memData = s.memData := by
  simp [doEvAssert]

@[simp] theorem doEvRelease_memData (k : Nat) (s : State) :
    (doEvRelease k s).memData = s.memData := by
  simp [doEvRelease]

@[simp] theorem doEvPulseEnd_memData (k : Nat) (who : LineDriver) (s : State) :
    (doEvPulseEnd k who s).memData = s.memData := by
  simp [doEvPulseEnd]

end Sys2Proof.Machine
end

