-- ==== Sys2Proof/Laws/Keeps/Events.lean ====
section
/-! SUPPORT. The operations of Sys2Proof/Machine/Events.lean that reach memory: they keep its canonical form. -/

namespace Sys2Proof.Machine

open Sys2Proof

set_option linter.unusedTactic false
set_option linter.unreachableTactic false
set_option linter.unusedSimpArgs false

theorem State.writeRecord_keeps (s : State) (k : Nat) (r : List Byte) (hs : storeWf (State.memData s) = true) :
    storeWf ((State.writeRecord s k r).memData) = true := by
  unfold State.writeRecord; (repeat' (first | with_reducible assumption | (simp [hs]; done) | with_reducible refine State.writeHost_keeps _ _ _ _  ?_ | (split <;> try (rename_i heq; obtain ⟨_, rfl⟩ := Prod.ext_iff.mp heq)) | with_reducible refine State.foldl_keeps _ (fun _ _ _ => ?_) _ _ ?_ | dsimp only | simp only [State.memData_update, State.memData_update_mem] | simp))

theorem State.queueRecord_keeps (s : State) (k : Nat) (r : List Byte) (hs : storeWf (State.memData s) = true) :
    storeWf ((State.queueRecord s k r).memData) = true := by
  unfold State.queueRecord; (repeat' (first | with_reducible assumption | (simp [hs]; done) | with_reducible refine State.writeRecord_keeps _ _ _  ?_ | (split <;> try (rename_i heq; obtain ⟨_, rfl⟩ := Prod.ext_iff.mp heq)) | with_reducible refine State.foldl_keeps _ (fun _ _ _ => ?_) _ _ ?_ | dsimp only | simp only [State.memData_update, State.memData_update_mem] | simp))

theorem State.flushHeq_keeps (s : State) (k : Nat) (hs : storeWf (State.memData s) = true) :
    storeWf ((State.flushHeq s k).memData) = true := by
  unfold State.flushHeq; (repeat' (first | with_reducible assumption | (simp [hs]; done) | with_reducible refine State.writeRecord_keeps _ _ _  ?_ | (split <;> try (rename_i heq; obtain ⟨_, rfl⟩ := Prod.ext_iff.mp heq)) | with_reducible refine State.foldl_keeps _ (fun _ _ _ => ?_) _ _ ?_ | dsimp only | simp only [State.memData_update, State.memData_update_mem] | simp))

theorem State.hostBack_keeps (s : State) (hs : storeWf (State.memData s) = true) :
    storeWf ((State.hostBack s).memData) = true := by
  unfold State.hostBack; (repeat' (first | with_reducible assumption | (simp [hs]; done) | with_reducible refine State.drainHeld_keeps _ _  ?_ | with_reducible refine State.flushHeq_keeps _ _  ?_ | (split <;> try (rename_i heq; obtain ⟨_, rfl⟩ := Prod.ext_iff.mp heq)) | with_reducible refine State.foldl_keeps _ (fun _ _ _ => ?_) _ _ ?_ | dsimp only | simp only [State.memData_update, State.memData_update_mem] | simp))

theorem doL1Exit_keeps (s : State) (hs : storeWf (State.memData s) = true) :
    storeWf ((doL1Exit s).memData) = true := by
  unfold doL1Exit; (repeat' (first | with_reducible assumption | (simp [hs]; done) | with_reducible refine State.drainHeld_keeps _ _  ?_ | with_reducible refine State.drainOne_keeps _  ?_ | with_reducible refine State.flushHeq_keeps _ _  ?_ | (split <;> try (rename_i heq; obtain ⟨_, rfl⟩ := Prod.ext_iff.mp heq)) | with_reducible refine State.foldl_keeps _ (fun _ _ _ => ?_) _ _ ?_ | dsimp only | simp only [State.memData_update, State.memData_update_mem] | simp))

theorem doD0Return_keeps (busMaster : Bool) (s : State) (hs : storeWf (State.memData s) = true) :
    storeWf ((doD0Return busMaster s).memData) = true := by
  unfold doD0Return; (repeat' (first | with_reducible assumption | (simp [hs]; done) | with_reducible refine State.hostBack_keeps _  ?_ | (split <;> try (rename_i heq; obtain ⟨_, rfl⟩ := Prod.ext_iff.mp heq)) | with_reducible refine State.foldl_keeps _ (fun _ _ _ => ?_) _ _ ?_ | dsimp only | simp only [State.memData_update, State.memData_update_mem] | simp))

theorem doConfigWrite_keeps (w : ConfigWrite) (s : State) (hs : storeWf (State.memData s) = true) :
    storeWf ((doConfigWrite w s).memData) = true := by
  unfold doConfigWrite; (repeat' (first | with_reducible assumption | (simp [hs]; done) | with_reducible refine State.hostBack_keeps _  ?_ | (split <;> try (rename_i heq; obtain ⟨_, rfl⟩ := Prod.ext_iff.mp heq)) | with_reducible refine State.foldl_keeps _ (fun _ _ _ => ?_) _ _ ?_ | dsimp only | simp only [State.memData_update, State.memData_update_mem] | simp))

theorem doCompletionTimeout_keeps (what : LateRead) (s : State) (hs : storeWf (State.memData s) = true) :
    storeWf ((doCompletionTimeout what s).memData) = true := by
  unfold doCompletionTimeout; (repeat' (first | with_reducible assumption | (simp [hs]; done) | with_reducible refine doDoorbellRead_keeps _ _ _  ?_ | with_reducible refine doEntryFetch_keeps _ _ _  ?_ | with_reducible refine doHostRead_keeps _ _ _  ?_ | (split <;> try (rename_i heq; obtain ⟨_, rfl⟩ := Prod.ext_iff.mp heq)) | with_reducible refine State.foldl_keeps _ (fun _ _ _ => ?_) _ _ ?_ | dsimp only | simp only [State.memData_update, State.memData_update_mem] | simp))

theorem State.deliver_keeps (s : State) (n : Nat) (host : Bool) (late : Bool) (hs : storeWf (State.memData s) = true) :
    storeWf ((State.deliver s n host late).memData) = true := by
  unfold State.deliver; (repeat' (first | with_reducible assumption | (simp [hs]; done) | with_reducible refine State.queueRecord_keeps _ _ _  ?_ | (split <;> try (rename_i heq; obtain ⟨_, rfl⟩ := Prod.ext_iff.mp heq)) | with_reducible refine State.foldl_keeps _ (fun _ _ _ => ?_) _ _ ?_ | dsimp only | simp only [State.memData_update, State.memData_update_mem] | simp))

theorem doEventDelivery_keeps (late : Option Nat) (s : State) (hs : storeWf (State.memData s) = true) :
    storeWf ((doEventDelivery late s).memData) = true := by
  unfold doEventDelivery; (repeat' (first | with_reducible assumption | (simp [hs]; done) | with_reducible refine State.deliver_keeps _ _ _ _  ?_ | (split <;> try (rename_i heq; obtain ⟨_, rfl⟩ := Prod.ext_iff.mp heq)) | with_reducible refine State.foldl_keeps _ (fun _ _ _ => ?_) _ _ ?_ | dsimp only | simp only [State.memData_update, State.memData_update_mem] | simp))

end Sys2Proof.Machine
end

