-- ==== Sys2Proof/Laws/Kept/FeltLink.lean ====
section
/-! SUPPORT. What the operations of Sys2Proof/Machine/FeltLink.lean leave alone: what memory holds. -/

namespace Sys2Proof.Machine

open Sys2Proof

set_option linter.unusedTactic false
set_option linter.unreachableTactic false
set_option linter.unusedSimpArgs false

@[simp] theorem State.modPort_memData (s : State) (p : Nat) (f : FeltPort → FeltPort) :
    (State.modPort s p f).memData = s.memData := by
  simp [State.modPort]

@[simp] theorem State.sendBlock_memData (s : State) (p : Nat) (typ : Nat) (content : Nat) :
    (State.sendBlock s p typ content).memData = s.memData := by
  simp [State.sendBlock]

@[simp] theorem State.blocksSent_memData (s : State) :
    (State.blocksSent s).memData = s.memData := by
  simp [State.blocksSent]

@[simp] theorem State.clearHop_memData (s : State) (p : Nat) :
    (State.clearHop s p).memData = s.memData := by
  simp [State.clearHop]

@[simp] theorem State.portEnter_memData (s : State) (p : Nat) (st : Nat) :
    (State.portEnter s p st).memData = s.memData := by
  simp [State.portEnter]

@[simp] theorem State.portNotice_memData (s : State) (p : Nat) (st : Nat) :
    (State.portNotice s p st).memData = s.memData := by
  simp [State.portNotice]

@[simp] theorem State.announce_memData (s : State) (p : Nat) (up : Bool) :
    (State.announce s p up).memData = s.memData := by
  simp [State.announce]

@[simp] theorem State.startRetrain_memData (s : State) (p : Nat) :
    (State.startRetrain s p).memData = s.memData := by
  simp [State.startRetrain]

@[simp] theorem State.portUp_memData (s : State) (p : Nat) :
    (State.portUp s p).memData = s.memData := by
  simp [State.portUp]

@[simp] theorem State.portDown_memData (s : State) (p : Nat) :
    (State.portDown s p).memData = s.memData := by
  simp [State.portDown]

@[simp] theorem State.showPorts_memData (s : State) :
    (State.showPorts s).memData = s.memData := by
  simp [State.showPorts]

@[simp] theorem doPartnerDetect_memData (p : Nat) (s : State) :
    (doPartnerDetect p s).memData = s.memData := by
  simp [doPartnerDetect]

@[simp] theorem State.sendIds_memData (s : State) (p : Nat) :
    (State.sendIds s p).memData = s.memData := by
  simp [State.sendIds]

@[simp] theorem State.handshake_memData (s : State) (p : Nat) :
    (State.handshake s p).memData = s.memData := by
  simp [State.handshake]

@[simp] theorem doEqualiseEnd_memData (p : Nat) (ok : Bool) (s : State) :
    (doEqualiseEnd p ok s).memData = s.memData := by
  simp [doEqualiseEnd]

@[simp] theorem doMismatchRetry_memData (p : Nat) (s : State) :
    (doMismatchRetry p s).memData = s.memData := by
  simp [doMismatchRetry]

@[simp] theorem doRetrainTimeout_memData (p : Nat) (s : State) :
    (doRetrainTimeout p s).memData = s.memData := by
  simp [doRetrainTimeout]

@[simp] theorem doDownTimeout_memData (p : Nat) (s : State) :
    (doDownTimeout p s).memData = s.memData := by
  simp [doDownTimeout]

@[simp] theorem State.block_memData (s : State) (p : Nat) (typ : Nat) (content : BitVec 48) (crc : BitVec 8) (k : Nat → State → State) (hk : ∀ x0 x1, (k x0 x1).memData = State.memData x1) :
    (State.block s p typ content crc k).memData = s.memData := by
  simp [State.block, hk]

@[simp] theorem State.blockUp_memData (s : State) (p : Nat) (typ : Nat) (content : BitVec 48) (crc : BitVec 8) (k : Nat → State → State) (hk : ∀ x0 x1, (k x0 x1).memData = State.memData x1) :
    (State.blockUp s p typ content crc k).memData = s.memData := by
  simp [State.blockUp, hk]

@[simp] theorem doId0_memData (p : Nat) (content : BitVec 48) (crc : BitVec 8) (s : State) :
    (doId0 p content crc s).memData = s.memData := by
  simp [doId0]

@[simp] theorem doId1_memData (p : Nat) (content : BitVec 48) (crc : BitVec 8) (s : State) :
    (doId1 p content crc s).memData = s.memData := by
  unfold doId1; (repeat' (first | with_reducible rfl | refine State.block_memData _ _ _ _ _ _ (fun _ _ => ?_) | (simp []; done) | (split <;> try (rename_i heq; obtain ⟨_, rfl⟩ := Prod.ext_iff.mp heq)) | refine (State.memData_foldl _ (fun _ _ => ?_) _ _).trans ?_ | dsimp only | simp []))

@[simp] theorem doCredit_memData (p : Nat) (content : BitVec 48) (crc : BitVec 8) (s : State) :
    (doCredit p content crc s).memData = s.memData := by
  simp [doCredit]

@[simp] theorem doAck_memData (p : Nat) (content : BitVec 48) (crc : BitVec 8) (s : State) :
    (doAck p content crc s).memData = s.memData := by
  simp [doAck]

@[simp] theorem State.resend_memData (s : State) (p : Nat) (l : List SentPacket) :
    (State.resend s p l).memData = s.memData := by
  simp [State.resend]

@[simp] theorem doNak_memData (p : Nat) (content : BitVec 48) (crc : BitVec 8) (s : State) :
    (doNak p content crc s).memData = s.memData := by
  simp [doNak]

@[simp] theorem doReplayTimeout_memData (p : Nat) (s : State) :
    (doReplayTimeout p s).memData = s.memData := by
  simp [doReplayTimeout]

@[simp] theorem doCreditTimer_memData (p : Nat) (s : State) :
    (doCreditTimer p s).memData = s.memData := by
  simp [doCreditTimer]

@[simp] theorem doAckTimer_memData (p : Nat) (s : State) :
    (doAckTimer p s).memData = s.memData := by
  simp [doAckTimer]

@[simp] theorem State.freeFlits_memData (s : State) (p : Nat) (v : Nat) (n : Nat) :
    (State.freeFlits s p v n).memData = s.memData := by
  simp [State.freeFlits]

@[simp] theorem State.sendNak_memData (s : State) (p : Nat) :
    (State.sendNak s p).memData = s.memData := by
  simp [State.sendNak]

@[simp] theorem State.acceptPacket_memData (s : State) (p : Nat) (k : Packet) :
    (State.acceptPacket s p k).memData = s.memData := by
  simp [State.acceptPacket]

@[simp] theorem doPacketReceive_memData (p : Nat) (flits : List (BitVec 64)) (s : State) :
    (doPacketReceive p flits s).memData = s.memData := by
  unfold doPacketReceive; (repeat' (first | with_reducible rfl | (simp []; done) | (split <;> try (rename_i heq; obtain ⟨_, rfl⟩ := Prod.ext_iff.mp heq)) | refine (State.memData_foldl _ (fun _ _ => ?_) _ _).trans ?_ | dsimp only | simp []))

@[simp] theorem State.afterCopy_memData (s : State) (src : Nat) (e : InPacket) (f : InPacket) (rest : Bool) :
    (State.afterCopy s src e f rest).memData = s.memData := by
  simp [State.afterCopy]

theorem State.sendOne_memData (s : State) (p : Nat) :
    ∀ t, (State.sendOne s p) = some t → t.memData = s.memData := by
  unfold State.sendOne; (repeat' (first | with_reducible rfl | (simp []; done) | (split <;> try (rename_i heq; obtain ⟨_, rfl⟩ := Prod.ext_iff.mp heq)) | refine (State.memData_foldl _ (fun _ _ => ?_) _ _).trans ?_ | dsimp only | simp []))

@[simp] theorem State.trimBroadcasts_memData (s : State) :
    (State.trimBroadcasts s).memData = s.memData := by
  simp [State.trimBroadcasts]

@[simp] theorem State.discardLost_memData (s : State) :
    (State.discardLost s).memData = s.memData := by
  simp [State.discardLost]

@[simp] theorem State.feltFlow_memData (v0 : Nat) (s : State) :
    (State.feltFlow v0 s).memData = s.memData := by
  induction v0 generalizing s with
  | zero => rfl
  | succ fuel ih =>
    simp only [State.feltFlow]
    split
    · rename_i s1 heq
      obtain ⟨p, _, hp⟩ := List.exists_of_findSome?_eq_some heq
      exact (ih _).trans (State.sendOne_memData _ _ _ hp)
    · rfl

@[simp] theorem State.feltRun_memData (s : State) :
    (State.feltRun s).memData = s.memData := by
  simp [State.feltRun]

@[simp] theorem State.setSync_memData (s : State) (k : Nat) :
    (State.setSync s k).memData = s.memData := by
  simp [State.setSync]

@[simp] theorem State.showSync_memData (s : State) :
    (State.showSync s).memData = s.memData := by
  unfold State.showSync; (repeat' (first | with_reducible rfl | (simp []; done) | (split <;> try (rename_i heq; obtain ⟨_, rfl⟩ := Prod.ext_iff.mp heq)) | refine (State.memData_foldl _ (fun _ _ => ?_) _ _).trans ?_ | dsimp only | simp []))

@[simp] theorem doSyncExchange_memData (p : Nat) (t1 : BitVec 64) (s : State) :
    (doSyncExchange p t1 s).memData = s.memData := by
  simp [doSyncExchange]

@[simp] theorem doSyncReq_memData (p : Nat) (content : BitVec 48) (crc : BitVec 8) (t2 : BitVec 64) (t3 : BitVec 64) (s : State) :
    (doSyncReq p content crc t2 t3 s).memData = s.memData := by
  simp [doSyncReq]

@[simp] theorem doSyncRsp_memData (p : Nat) (content : BitVec 48) (crc : BitVec 8) (t4 : BitVec 64) (s : State) :
    (doSyncRsp p content crc t4 s).memData = s.memData := by
  unfold doSyncRsp; (repeat' (first | with_reducible rfl | refine State.blockUp_memData _ _ _ _ _ _ (fun _ _ => ?_) | (simp []; done) | (split <;> try (rename_i heq; obtain ⟨_, rfl⟩ := Prod.ext_iff.mp heq)) | refine (State.memData_foldl _ (fun _ _ => ?_) _ _).trans ?_ | dsimp only | simp []))

@[simp] theorem doSyncPulseTimer_memData (t : BitVec 64) (hi : Bool) (s : State) :
    (doSyncPulseTimer t hi s).memData = s.memData := by
  simp [doSyncPulseTimer]

@[simp] theorem doSyncInfo_memData (p : Nat) (content : BitVec 48) (crc : BitVec 8) (s : State) :
    (doSyncInfo p content crc s).memData = s.memData := by
  simp [doSyncInfo]

@[simp] theorem doTimeHi_memData (p : Nat) (content : BitVec 48) (crc : BitVec 8) (s : State) :
    (doTimeHi p content crc s).memData = s.memData := by
  simp [doTimeHi]

@[simp] theorem doHoldoverTimeout_memData (s : State) :
    (doHoldoverTimeout s).memData = s.memData := by
  simp [doHoldoverTimeout]

@[simp] theorem State.slew_memData (s : State) :
    (State.slew s).memData = s.memData := by
  simp [State.slew]

@[simp] theorem State.setTime_memData (s : State) (t : Nat) :
    (State.setTime s t).memData = s.memData := by
  simp [State.setTime]

@[simp] theorem syncPulse.countPulse_memData (offset : Int) (s : State) :
    (syncPulse.countPulse offset s).memData = s.memData := by
  simp [syncPulse.countPulse]

@[simp] theorem syncPulse_memData (k : Nat → State → State) (p : Nat) (content : BitVec 48) (crc : BitVec 8) (ta : BitVec 64) (s : State) (hk : ∀ x0 x1, (k x0 x1).memData = State.memData x1) :
    (syncPulse k p content crc ta s).memData = s.memData := by
  unfold syncPulse
  refine State.blockUp_memData _ _ _ _ _ _ (fun c t => ?_)
  split
  · rfl
  · dsimp only
    split
    · split
      · rw [hk, State.setTime_memData, State.memData_update, State.setFld_memData]
      · rw [syncPulse.countPulse_memData, State.setFld_memData]
    · split
      · exact State.setFld_memData _ _ _
      · rw [syncPulse.countPulse_memData, State.setFld_memData]

@[simp] theorem State.tickTime_memData (s : State) :
    (State.tickTime s).memData = s.memData := by
  simp [State.tickTime]

end Sys2Proof.Machine
end

