-- ==== Sys2Proof/Laws/Keeps/FeltLink.lean ====
section
/-! SUPPORT. The operations of Sys2Proof/Machine/FeltLink.lean that reach memory: they keep its canonical form. -/

namespace Sys2Proof.Machine

open Sys2Proof

set_option linter.unusedTactic false
set_option linter.unreachableTactic false
set_option linter.unusedSimpArgs false

theorem State.block_keeps (s : State) (p : Nat) (typ : Nat) (content : BitVec 48) (crc : BitVec 8) (k : Nat → State → State) (hk : ∀ x0 x1, storeWf (State.memData x1) = true → storeWf ((k x0 x1).memData) = true) (hs : storeWf (State.memData s) = true) :
    storeWf ((State.block s p typ content crc k).memData) = true := by
  unfold State.block; (repeat' (first | with_reducible assumption | (simp [hs]; done) | with_reducible refine hk _ _ ?_ | (split <;> try (rename_i heq; obtain ⟨_, rfl⟩ := Prod.ext_iff.mp heq)) | with_reducible refine State.foldl_keeps _ (fun _ _ _ => ?_) _ _ ?_ | dsimp only | simp only [State.memData_update, State.memData_update_mem] | simp))

theorem State.blockUp_keeps (s : State) (p : Nat) (typ : Nat) (content : BitVec 48) (crc : BitVec 8) (k : Nat → State → State) (hk : ∀ x0 x1, storeWf (State.memData x1) = true → storeWf ((k x0 x1).memData) = true) (hs : storeWf (State.memData s) = true) :
    storeWf ((State.blockUp s p typ content crc k).memData) = true := by
  unfold State.blockUp; (repeat' (first | with_reducible assumption | (simp [hs]; done) | with_reducible refine State.block_keeps _ _ _ _ _ _ (fun _ _ _ => ?_) ?_ | with_reducible refine hk _ _ ?_ | (split <;> try (rename_i heq; obtain ⟨_, rfl⟩ := Prod.ext_iff.mp heq)) | with_reducible refine State.foldl_keeps _ (fun _ _ _ => ?_) _ _ ?_ | dsimp only | simp only [State.memData_update, State.memData_update_mem] | simp))

theorem syncPulse_keeps (k : Nat → State → State) (p : Nat) (content : BitVec 48) (crc : BitVec 8) (ta : BitVec 64) (s : State) (hk : ∀ x0 x1, storeWf (State.memData x1) = true → storeWf ((k x0 x1).memData) = true) (hs : storeWf (State.memData s) = true) :
    storeWf ((syncPulse k p content crc ta s).memData) = true := by
  unfold syncPulse; (repeat' (first | with_reducible assumption | (simp [hs]; done) | with_reducible refine State.blockUp_keeps _ _ _ _ _ _ (fun _ _ _ => ?_) ?_ | with_reducible refine hk _ _ ?_ | (split <;> try (rename_i heq; obtain ⟨_, rfl⟩ := Prod.ext_iff.mp heq)) | with_reducible refine State.foldl_keeps _ (fun _ _ _ => ?_) _ _ ?_ | dsimp only | simp only [State.memData_update, State.memData_update_mem] | simp))

end Sys2Proof.Machine
end

