-- ==== Sys2Proof/Laws/Kept/FeltMsg.lean ====
section
/-! SUPPORT. What the operations of Sys2Proof/Machine/FeltMsg.lean leave alone: what memory holds. -/

namespace Sys2Proof.Machine

open Sys2Proof

set_option linter.unusedTactic false
set_option linter.unreachableTactic false
set_option linter.unusedSimpArgs false

@[simp] theorem State.taken'_memData (s : State) (p : Nat) (e : InPacket) :
    (State.taken' s p e).memData = s.memData := by
  simp [State.taken']

@[simp] theorem message_memData (typ : Nat) (k : Nat → Packet → State → Option State) (p : Nat) (s : State) (hk : ∀ x0 x1 x2 t, (k x0 x1 x2) = some t → t.memData = State.memData x2) :
    (message typ k p s).memData = s.memData := by
  unfold message
  split
  · rfl
  · rename_i e _
    split
    · rename_i s1 heq
      exact (hk _ _ _ _ heq).trans (State.taken'_memData _ _ _)
    · rfl

@[simp] theorem wakingMessage_memData (typ : Nat) (k : Nat → Packet → State → Bool × State) (p : Nat) (s : State) (hk : ∀ x0 x1 x2, (k x0 x1 x2).2.memData = State.memData x2) :
    (wakingMessage typ k p s).memData = s.memData := by
  unfold wakingMessage; (repeat' (first | with_reducible rfl | (simp [hk]; done) | (split <;> try (rename_i heq; obtain ⟨_, rfl⟩ := Prod.ext_iff.mp heq)) | refine (State.memData_foldl _ (fun _ _ => ?_) _ _).trans ?_ | dsimp only | simp [hk]))

@[simp] theorem State.answer_memData (s : State) (k : Packet) (typ : Nat) (st : Nat) (kind : Nat) (data : List Byte) (poison : Nat) :
    (State.answer s k typ st kind data poison).memData = s.memData := by
  simp [State.answer]

@[simp] theorem doReadReq_memData (v0 : Nat) (s : State) :
    (doReadReq v0 s).memData = s.memData := by
  unfold doReadReq
  refine wakingMessage_memData _ _ _ _ (fun p k t => ?_)
  split
  · exact State.answer_memData _ _ _ _ _ _ _
  · have h := dmaGather_memData (feltCtx p) [(k.reqVa, k.reqBytes)] [] none t
    split
    · rename_i heq; rw [heq] at h; exact (State.answer_memData _ _ _ _ _ _ _).trans h
    · rename_i heq; rw [heq] at h; exact (State.answer_memData _ _ _ _ _ _ _).trans h
    · rename_i heq; rw [heq] at h; exact (State.answer_memData _ _ _ _ _ _ _).trans h
    · rename_i heq; rw [heq] at h; exact h

@[simp] theorem State.modCopy_memData (s : State) (c : Cmd) (f : FeltCopy → FeltCopy) :
    (State.modCopy s c f).memData = s.memData := by
  simp [State.modCopy]

@[simp] theorem State.endCopy_memData (s : State) (x : FeltCopy) (st : Nat) (va : Nat) (kind : Nat) (side : Nat) :
    (State.endCopy s x st va kind side).memData = s.memData := by
  simp [State.endCopy]

@[simp] theorem State.sendCopy_memData (s : State) (x : FeltCopy) (typ : Nat) (v3 : List (Nat × Nat × List Byte × Nat)) :
    (State.sendCopy s x typ v3).memData = s.memData := by
  induction v3 generalizing s x typ <;> unfold State.sendCopy <;> (repeat' (first | with_reducible rfl | (simp [*]; done) | (split <;> try (rename_i heq; obtain ⟨_, rfl⟩ := Prod.ext_iff.mp heq)) | refine (State.memData_foldl _ (fun _ _ => ?_) _ _).trans ?_ | dsimp only | simp []))

@[simp] theorem State.startCopyChunk_memData (s : State) (x : FeltCopy) :
    (State.startCopyChunk s x).memData = s.memData := by
  unfold State.startCopyChunk; (repeat' (first | with_reducible rfl | (simp []; done) | (split <;> try (rename_i heq; obtain ⟨_, rfl⟩ := Prod.ext_iff.mp heq)) | refine (State.memData_foldl _ (fun _ _ => ?_) _ _).trans ?_ | dsimp only | simp []))

@[simp] theorem doFeltCopy_memData (c : Cmd) (s : State) :
    (doFeltCopy c s).memData = s.memData := by
  simp [doFeltCopy]

@[simp] theorem State.answered'_memData (s : State) (tid : Nat) (f : FeltCopy → CopyMsg → FeltCopy) :
    (State.answered' s tid f).memData = s.memData := by
  unfold State.answered'; (repeat' (first | with_reducible rfl | (simp []; done) | (split <;> try (rename_i heq; obtain ⟨_, rfl⟩ := Prod.ext_iff.mp heq)) | refine (State.memData_foldl _ (fun _ _ => ?_) _ _).trans ?_ | dsimp only | simp []))

@[simp] theorem doWriteRsp_memData (v0 : Nat) (s : State) :
    (doWriteRsp v0 s).memData = s.memData := by
  simp [doWriteRsp]

@[simp] theorem doReadRsp_memData (v0 : Nat) (s : State) :
    (doReadRsp v0 s).memData = s.memData := by
  simp [doReadRsp]

@[simp] theorem doRspTimeout_memData (tid : Nat) (s : State) :
    (doRspTimeout tid s).memData = s.memData := by
  simp [doRspTimeout]

@[simp] theorem doReassemblyTimeout_memData (k : Nat) (s : State) :
    (doReassemblyTimeout k s).memData = s.memData := by
  unfold doReassemblyTimeout; (repeat' (first | with_reducible rfl | (simp []; done) | (split <;> try (rename_i heq; obtain ⟨_, rfl⟩ := Prod.ext_iff.mp heq)) | refine (State.memData_foldl _ (fun _ _ => ?_) _ _).trans ?_ | dsimp only | simp []))

@[simp] theorem doLinkState_memData (v0 : Nat) (s : State) :
    (doLinkState v0 s).memData = s.memData := by
  unfold doLinkState; (repeat' (first | with_reducible rfl | refine message_memData _ _ _ _ (fun _ _ _ => ?_) | (simp []; done) | (split <;> try (rename_i heq; obtain ⟨_, rfl⟩ := Prod.ext_iff.mp heq)) | refine (State.memData_foldl _ (fun _ _ => ?_) _ _).trans ?_ | dsimp only | simp []))

@[simp] theorem State.showStarts_memData (s : State) :
    (State.showStarts s).memData = s.memData := by
  simp [State.showStarts]

@[simp] theorem State.armStart_memData (s : State) (id : Nat) (t : Nat) :
    (State.armStart s id t).2.memData = s.memData := by
  unfold State.armStart; (repeat' (first | with_reducible rfl | (simp []; done) | (split <;> try (rename_i heq; obtain ⟨_, rfl⟩ := Prod.ext_iff.mp heq)) | refine (State.memData_foldl _ (fun _ _ => ?_) _ _).trans ?_ | dsimp only | simp []))

@[simp] theorem State.freeStart_memData (s : State) (k : Nat) :
    (State.freeStart s k).memData = s.memData := by
  simp [State.freeStart]

@[simp] theorem doStartAlign_memData (k : Nat) (s : State) :
    (doStartAlign k s).memData = s.memData := by
  simp [doStartAlign]

@[simp] theorem State.bindPrograms_memData (s : State) :
    (State.bindPrograms s).memData = s.memData := by
  unfold State.bindPrograms; (repeat' (first | with_reducible rfl | (simp []; done) | (split <;> try (rename_i heq; obtain ⟨_, rfl⟩ := Prod.ext_iff.mp heq)) | refine (State.memData_foldl _ (fun _ _ => ?_) _ _).trans ?_ | dsimp only | simp []))

@[simp] theorem doStart_memData (v0 : Nat) (s : State) :
    (doStart v0 s).memData = s.memData := by
  simp [doStart]

@[simp] theorem State.endAsk_memData (s : State) (a : StartAsk) :
    (State.endAsk s a).memData = s.memData := by
  simp [State.endAsk]

@[simp] theorem State.endAsks_memData (s : State) :
    (State.endAsks s).memData = s.memData := by
  simp [State.endAsks]

@[simp] theorem doStartAck_memData (v0 : Nat) (s : State) :
    (doStartAck v0 s).memData = s.memData := by
  unfold doStartAck; (repeat' (first | with_reducible rfl | refine message_memData _ _ _ _ (fun _ _ _ => ?_) | (simp []; done) | (split <;> try (rename_i heq; obtain ⟨_, rfl⟩ := Prod.ext_iff.mp heq)) | refine (State.memData_foldl _ (fun _ _ => ?_) _ _).trans ?_ | dsimp only | simp []))

@[simp] theorem State.askAll_memData (s : State) (c : Cmd) (id : Nat) (cancels : Bool) (ok : Bool) :
    (State.askAll s c id cancels ok).memData = s.memData := by
  simp [State.askAll]

@[simp] theorem doFeltSchedule_memData (c : Cmd) (s : State) :
    (doFeltSchedule c s).memData = s.memData := by
  simp [doFeltSchedule]

@[simp] theorem doScheduleTimeout_memData (k : Nat) (s : State) :
    (doScheduleTimeout k s).memData = s.memData := by
  unfold doScheduleTimeout; (repeat' (first | with_reducible rfl | (simp []; done) | (split <;> try (rename_i heq; obtain ⟨_, rfl⟩ := Prod.ext_iff.mp heq)) | refine (State.memData_foldl _ (fun _ _ => ?_) _ _).trans ?_ | dsimp only | simp []))

@[simp] theorem State.feltLayerReset_memData (s : State) :
    (State.feltLayerReset s).memData = s.memData := by
  simp [State.feltLayerReset]

end Sys2Proof.Machine
end

