-- ==== Sys2Proof/Laws/Keeps/FeltMsg.lean ====
section
/-! SUPPORT. The operations of Sys2Proof/Machine/FeltMsg.lean that reach memory: they keep its canonical form. -/

namespace Sys2Proof.Machine

open Sys2Proof

set_option linter.unusedTactic false
set_option linter.unreachableTactic false
set_option linter.unusedSimpArgs false

theorem message_keeps (typ : Nat) (k : Nat → Packet → State → Option State) (p : Nat) (s : State) (hk : ∀ x0 x1 x2 t, storeWf (State.memData x2) = true → (k x0 x1 x2) = some t → storeWf t.memData = true) (hs : storeWf (State.memData s) = true) :
    storeWf ((message typ k p s).memData) = true := by
  unfold message
  split
  · exact hs
  · rename_i e _
    split
    · rename_i s1 heq
      exact hk _ _ _ _ (by simpa using hs) heq
    · exact hs

theorem wakingMessage_keeps (typ : Nat) (k : Nat → Packet → State → Bool × State) (p : Nat) (s : State) (hk : ∀ x0 x1 x2, storeWf (State.memData x2) = true → storeWf ((k x0 x1 x2).2.memData) = true) (hs : storeWf (State.memData s) = true) :
    storeWf ((wakingMessage typ k p s).memData) = true := by
  unfold wakingMessage; (repeat' (first | with_reducible assumption | (simp [hs]; done) | with_reducible refine hk _ _ _ ?_ | (split <;> try (rename_i heq; obtain ⟨_, rfl⟩ := Prod.ext_iff.mp heq)) | with_reducible refine State.foldl_keeps _ (fun _ _ _ => ?_) _ _ ?_ | dsimp only | simp only [State.memData_update, State.memData_update_mem] | simp))

theorem State.writePayload_keeps (s : State) (x : MemCtx) (va : Nat) (data : List Byte) (poison : Nat) (hs : storeWf (State.memData s) = true) :
    storeWf ((State.writePayload s x va data poison).2.memData) = true := by
  unfold State.writePayload; (repeat' (first | with_reducible assumption | (simp [hs]; done) | with_reducible refine dmaWriteRuns_keeps _ _ _ _ _  ?_ | (split <;> try (rename_i heq; obtain ⟨_, rfl⟩ := Prod.ext_iff.mp heq)) | with_reducible refine State.foldl_keeps _ (fun _ _ _ => ?_) _ _ ?_ | dsimp only | simp only [State.memData_update, State.memData_update_mem] | simp))

theorem doWriteReq_keeps (v0 : Nat) (s : State) (hs : storeWf (State.memData s) = true) :
    storeWf ((doWriteReq v0 s).memData) = true := by
  unfold doWriteReq; (repeat' (first | with_reducible assumption | (simp [hs]; done) | with_reducible refine State.writePayload_keeps _ _ _ _ _  ?_ | with_reducible refine wakingMessage_keeps _ _ _ _ (fun _ _ _ _ => ?_) ?_ | (split <;> try (rename_i heq; obtain ⟨_, rfl⟩ := Prod.ext_iff.mp heq)) | with_reducible refine State.foldl_keeps _ (fun _ _ _ => ?_) _ _ ?_ | dsimp only | simp only [State.memData_update, State.memData_update_mem] | simp))

theorem State.endCopyChunk_keeps (s : State) (x : FeltCopy) (hs : storeWf (State.memData s) = true) :
    storeWf ((State.endCopyChunk s x).memData) = true := by
  unfold State.endCopyChunk; (repeat' (first | with_reducible assumption | (simp [hs]; done) | with_reducible refine dmaWriteRuns_keeps _ _ _ _ _  ?_ | (split <;> try (rename_i heq; obtain ⟨_, rfl⟩ := Prod.ext_iff.mp heq)) | with_reducible refine State.foldl_keeps _ (fun _ _ _ => ?_) _ _ ?_ | dsimp only | simp only [State.memData_update, State.memData_update_mem] | simp))

theorem State.copyStep_keeps (s : State) (hs : storeWf (State.memData s) = true) :
    storeWf ((State.copyStep s).memData) = true := by
  unfold State.copyStep; (repeat' (first | with_reducible assumption | (simp [hs]; done) | with_reducible refine State.endCopyChunk_keeps _ _  ?_ | (split <;> try (rename_i heq; obtain ⟨_, rfl⟩ := Prod.ext_iff.mp heq)) | with_reducible refine State.foldl_keeps _ (fun _ _ _ => ?_) _ _ ?_ | dsimp only | simp only [State.memData_update, State.memData_update_mem] | simp))

theorem State.copyRun_keeps (v0 : Nat) (s : State) (hs : storeWf (State.memData s) = true) :
    storeWf ((State.copyRun v0 s).memData) = true := by
  induction v0 generalizing s with | zero => (unfold State.copyRun; (repeat' (first | with_reducible assumption | (simp [*]; done) | with_reducible refine State.copyStep_keeps _  ?_ | (split <;> try (rename_i heq; obtain ⟨_, rfl⟩ := Prod.ext_iff.mp heq)) | dsimp only | simp))) | succ n ih => (unfold State.copyRun; (repeat' (first | with_reducible assumption | with_reducible refine ih _ ?_ | (simp [*]; done) | with_reducible refine State.copyStep_keeps _  ?_ | (split <;> try (rename_i heq; obtain ⟨_, rfl⟩ := Prod.ext_iff.mp heq)) | dsimp only | simp)))

theorem State.handBody_keeps (s : State) (r : Reassembly) (hs : storeWf (State.memData s) = true) :
    storeWf ((State.handBody s r).2.memData) = true := by
  unfold State.handBody; (repeat' (first | with_reducible assumption | (simp [hs]; done) | with_reducible refine State.popFailure_keeps _ _ _ _  ?_ | with_reducible refine State.popLimits_keeps _ _ _ _ _  ?_ | with_reducible refine State.popReport_keeps _ _ _ _ _ _ _ _ _ _  ?_ | with_reducible refine State.workTouch_keeps _ _ _ _  ?_ | (split <;> try (rename_i heq; obtain ⟨_, rfl⟩ := Prod.ext_iff.mp heq)) | with_reducible refine State.foldl_keeps _ (fun _ _ _ => ?_) _ _ ?_ | dsimp only | simp only [State.memData_update, State.memData_update_mem] | simp))

theorem State.handBodies_keeps (s : State) (hs : storeWf (State.memData s) = true) :
    storeWf ((State.handBodies s).memData) = true := by
  unfold State.handBodies; (repeat' (first | with_reducible assumption | (simp [hs]; done) | with_reducible refine State.handBody_keeps _ _  ?_ | (split <;> try (rename_i heq; obtain ⟨_, rfl⟩ := Prod.ext_iff.mp heq)) | with_reducible refine State.foldl_keeps _ (fun _ _ _ => ?_) _ _ ?_ | dsimp only | simp only [State.memData_update, State.memData_update_mem] | simp))

theorem doReduce_keeps (v0 : Nat) (s : State) (hs : storeWf (State.memData s) = true) :
    storeWf ((doReduce v0 s).memData) = true := by
  unfold doReduce; (repeat' (first | with_reducible assumption | (simp [hs]; done) | with_reducible refine State.handBodies_keeps _  ?_ | with_reducible refine wakingMessage_keeps _ _ _ _ (fun _ _ _ _ => ?_) ?_ | (split <;> try (rename_i heq; obtain ⟨_, rfl⟩ := Prod.ext_iff.mp heq)) | with_reducible refine State.foldl_keeps _ (fun _ _ _ => ?_) _ _ ?_ | dsimp only | simp only [State.memData_update, State.memData_update_mem] | simp))

theorem State.dropBound_keeps (s : State) (st : Nat) (b : Nat) (hs : storeWf (State.memData s) = true) :
    storeWf ((State.dropBound s st b).memData) = true := by
  unfold State.dropBound; (repeat' (first | with_reducible assumption | (simp [hs]; done) | with_reducible refine State.finishProgram_keeps _ _ _  ?_ | (split <;> try (rename_i heq; obtain ⟨_, rfl⟩ := Prod.ext_iff.mp heq)) | with_reducible refine State.foldl_keeps _ (fun _ _ _ => ?_) _ _ ?_ | dsimp only | simp only [State.memData_update, State.memData_update_mem] | simp))

theorem State.fireStart_keeps (s : State) (k : Nat) (hs : storeWf (State.memData s) = true) :
    storeWf ((State.fireStart s k).memData) = true := by
  unfold State.fireStart; (repeat' (first | with_reducible assumption | (simp [hs]; done) | with_reducible refine State.dropBound_keeps _ _ _  ?_ | (split <;> try (rename_i heq; obtain ⟨_, rfl⟩ := Prod.ext_iff.mp heq)) | with_reducible refine State.foldl_keeps _ (fun _ _ _ => ?_) _ _ ?_ | dsimp only | simp only [State.memData_update, State.memData_update_mem] | simp))

theorem doScheduledStart_keeps (k : Nat) (s : State) (hs : storeWf (State.memData s) = true) :
    storeWf ((doScheduledStart k s).memData) = true := by
  unfold doScheduledStart; (repeat' (first | with_reducible assumption | (simp [hs]; done) | with_reducible refine State.fireStart_keeps _ _  ?_ | (split <;> try (rename_i heq; obtain ⟨_, rfl⟩ := Prod.ext_iff.mp heq)) | with_reducible refine State.foldl_keeps _ (fun _ _ _ => ?_) _ _ ?_ | dsimp only | simp only [State.memData_update, State.memData_update_mem] | simp))

theorem doStartFillDeadline_keeps (k : Nat) (s : State) (hs : storeWf (State.memData s) = true) :
    storeWf ((doStartFillDeadline k s).memData) = true := by
  unfold doStartFillDeadline; (repeat' (first | with_reducible assumption | (simp [hs]; done) | with_reducible refine State.dropBound_keeps _ _ _  ?_ | (split <;> try (rename_i heq; obtain ⟨_, rfl⟩ := Prod.ext_iff.mp heq)) | with_reducible refine State.foldl_keeps _ (fun _ _ _ => ?_) _ _ ?_ | dsimp only | simp only [State.memData_update, State.memData_update_mem] | simp))

theorem timeStepped_keeps (old : Nat) (s : State) (hs : storeWf (State.memData s) = true) :
    storeWf ((timeStepped old s).memData) = true := by
  unfold timeStepped; (repeat' (first | with_reducible assumption | (simp [hs]; done) | with_reducible refine State.fireStart_keeps _ _  ?_ | with_reducible refine State.passDeadlines_keeps _  ?_ | (split <;> try (rename_i heq; obtain ⟨_, rfl⟩ := Prod.ext_iff.mp heq)) | with_reducible refine State.foldl_keeps _ (fun _ _ _ => ?_) _ _ ?_ | dsimp only | simp only [State.memData_update, State.memData_update_mem] | simp))

theorem doSyncPulse_keeps (p : Nat) (content : BitVec 48) (crc : BitVec 8) (ta : BitVec 64) (s : State) (hs : storeWf (State.memData s) = true) :
    storeWf ((doSyncPulse p content crc ta s).memData) = true := by
  unfold doSyncPulse; (repeat' (first | with_reducible assumption | (simp [hs]; done) | with_reducible refine syncPulse_keeps _ _ _ _ _ _ (fun _ _ _ => ?_) ?_ | with_reducible refine timeStepped_keeps _ _  ?_ | (split <;> try (rename_i heq; obtain ⟨_, rfl⟩ := Prod.ext_iff.mp heq)) | with_reducible refine State.foldl_keeps _ (fun _ _ _ => ?_) _ _ ?_ | dsimp only | simp only [State.memData_update, State.memData_update_mem] | simp))

theorem State.cancelStart_keeps (s : State) (id : Nat) (hs : storeWf (State.memData s) = true) :
    storeWf ((State.cancelStart s id).2.memData) = true := by
  unfold State.cancelStart; (repeat' (first | with_reducible assumption | (simp [hs]; done) | with_reducible refine State.dropBound_keeps _ _ _  ?_ | (split <;> try (rename_i heq; obtain ⟨_, rfl⟩ := Prod.ext_iff.mp heq)) | with_reducible refine State.foldl_keeps _ (fun _ _ _ => ?_) _ _ ?_ | dsimp only | simp only [State.memData_update, State.memData_update_mem] | simp))

theorem doCancel_keeps (v0 : Nat) (s : State) (hs : storeWf (State.memData s) = true) :
    storeWf ((doCancel v0 s).memData) = true := by
  unfold doCancel
  refine message_keeps _ _ _ _ (fun _ k t u ht h => ?_) hs
  dsimp only at h
  injection h with h
  subst h
  rw [State.feltSend_memData]
  exact State.cancelStart_keeps _ _ ht

theorem doFeltCancel_keeps (c : Cmd) (s : State) (hs : storeWf (State.memData s) = true) :
    storeWf ((doFeltCancel c s).memData) = true := by
  unfold doFeltCancel; (repeat' (first | with_reducible assumption | (simp [hs]; done) | with_reducible refine State.cancelStart_keeps _ _  ?_ | with_reducible refine State.checked_keeps _ _ _ _ (fun _ _ => ?_) ?_ | (split <;> try (rename_i heq; obtain ⟨_, rfl⟩ := Prod.ext_iff.mp heq)) | with_reducible refine State.foldl_keeps _ (fun _ _ _ => ?_) _ _ ?_ | dsimp only | simp only [State.memData_update, State.memData_update_mem] | simp))

theorem doFeltTimeSet_keeps (c : Cmd) (s : State) (hs : storeWf (State.memData s) = true) :
    storeWf ((doFeltTimeSet c s).memData) = true := by
  unfold doFeltTimeSet; (repeat' (first | with_reducible assumption | (simp [hs]; done) | with_reducible refine State.checked_keeps _ _ _ _ (fun _ _ => ?_) ?_ | with_reducible refine State.passDeadlines_keeps _  ?_ | (split <;> try (rename_i heq; obtain ⟨_, rfl⟩ := Prod.ext_iff.mp heq)) | with_reducible refine State.foldl_keeps _ (fun _ _ _ => ?_) _ _ ?_ | dsimp only | simp only [State.memData_update, State.memData_update_mem] | simp))

end Sys2Proof.Machine
end

