-- ==== Sys2Proof/Laws/Kept/Store.lean ====
section
/-! SUPPORT. What the operations of Sys2Proof/Machine/Store.lean leave alone: what memory holds. -/

namespace Sys2Proof.Machine

open Sys2Proof

set_option linter.unusedTactic false
set_option linter.unreachableTactic false
set_option linter.unusedSimpArgs false

@[simp] theorem State.flashFrame_memData (s : State) (f : FlashFrame) :
    (State.flashFrame s f).memData = s.memData := by
  simp [State.flashFrame]

@[simp] theorem State.flashFallback_memData (s : State) :
    (State.flashFallback s).memData = s.memData := by
  simp [State.flashFallback]

@[simp] theorem State.useDirectory_memData (s : State) (d : List Byte) (second : Bool) :
    (State.useDirectory s d second).memData = s.memData := by
  simp [State.useDirectory]

@[simp] theorem State.endContinuous_memData (s : State) :
    (State.endContinuous s).memData = s.memData := by
  unfold State.endContinuous; (repeat' (first | with_reducible rfl | (simp []; done) | (split <;> try (rename_i heq; obtain ⟨_, rfl⟩ := Prod.ext_iff.mp heq)) | refine (State.memData_foldl _ (fun _ _ => ?_) _ _).trans ?_ | dsimp only | simp []))

@[simp] theorem State.readyToProgram_memData (s : State) :
    (State.readyToProgram s).memData = s.memData := by
  simp [State.readyToProgram]

@[simp] theorem State.startRead_memData (s : State) (line : Nat) :
    (State.startRead s line).memData = s.memData := by
  unfold State.startRead; (repeat' split) <;> simp []

@[simp] theorem doFlashFetch_memData (line : Nat) (s : State) :
    (doFlashFetch line s).memData = s.memData := by
  simp [doFlashFetch]

@[simp] theorem doFlashReadDone_memData (s : State) :
    (doFlashReadDone s).memData = s.memData := by
  unfold doFlashReadDone; dsimp only; (repeat' split) <;> simp []

@[simp] theorem doDqsTimeout_memData (s : State) :
    (doDqsTimeout s).memData = s.memData := by
  unfold doDqsTimeout; (repeat' split) <;> simp []

@[simp] theorem State.storeFails_memData (s : State) (asks : List StoreAsk) :
    (State.storeFails s asks).memData = s.memData := by
  simp [State.storeFails]

@[simp] theorem State.startJob_memData (v0 : Nat) (s : State) :
    (State.startJob v0 s).memData = s.memData := by
  induction v0 generalizing s <;> unfold State.startJob <;> (repeat' (first | with_reducible rfl | (simp [*]; done) | (split <;> try (rename_i heq; obtain ⟨_, rfl⟩ := Prod.ext_iff.mp heq)) | refine (State.memData_foldl _ (fun _ _ => ?_) _ _).trans ?_ | dsimp only | simp []))

@[simp] theorem State.requestStore_memData (s : State) (ask : Option StoreAsk) :
    (State.requestStore s ask).memData = s.memData := by
  simp [State.requestStore]

@[simp] theorem doStoreWrite_memData (s : State) :
    (doStoreWrite s).memData = s.memData := by
  simp [doStoreWrite]

end Sys2Proof.Machine
end

