-- ==== Sys2Proof/Laws/Kept/Cal.lean ====
section
/-! SUPPORT. What the operations of Sys2Proof/Machine/Cal.lean leave alone: what memory holds. -/

namespace Sys2Proof.Machine

open Sys2Proof

set_option linter.unusedTactic false
set_option linter.unreachableTactic false
set_option linter.unusedSimpArgs false

@[simp] theorem State.setBase_memData (s : State) (kind : Nat) (unit : Nat) (i : Nat) (w : Nat) :
    (State.setBase s kind unit i w).memData = s.memData := by
  simp [State.setBase]

@[simp] theorem State.setTarget_memData (s : State) (kind : Nat) (unit : Nat) (i : Nat) (w : Nat) :
    (State.setTarget s kind unit i w).memData = s.memData := by
  simp [State.setTarget]

@[simp] theorem State.setRecord_memData (s : State) (kind : Nat) (unit : Nat) (is : List Nat) (ws : List Nat) :
    (State.setRecord s kind unit is ws).memData = s.memData := by
  simp [State.setRecord]

@[simp] theorem State.showConstants_memData (s : State) (kind : Nat) (unit : Nat) :
    (State.showConstants s kind unit).memData = s.memData := by
  unfold State.showConstants; (repeat' (first | with_reducible rfl | (simp []; done) | (split <;> try (rename_i heq; obtain ⟨_, rfl⟩ := Prod.ext_iff.mp heq)) | refine (State.memData_foldl _ (fun _ _ => ?_) _ _).trans ?_ | dsimp only | simp []))

@[simp] theorem State.setWork_memData (s : State) (kind : Nat) (unit : Nat) (ws : List (Nat × Nat)) :
    (State.setWork s kind unit ws).memData = s.memData := by
  simp [State.setWork]

@[simp] theorem State.showPending_memData (s : State) (c : Nat) :
    (State.showPending s c).memData = s.memData := by
  simp [State.showPending]

@[simp] theorem doCalenderStep_memData (kind : Nat) (unit : Nat) (j : Nat) (s : State) :
    (doCalenderStep kind unit j s).memData = s.memData := by
  unfold doCalenderStep; (repeat' (first | with_reducible rfl | (simp []; done) | (split <;> try (rename_i heq; obtain ⟨_, rfl⟩ := Prod.ext_iff.mp heq)) | refine (State.memData_foldl _ (fun _ _ => ?_) _ _).trans ?_ | dsimp only | simp []))

@[simp] theorem State.applyTargets_memData (s : State) (c : Nat) :
    (State.applyTargets s c).memData = s.memData := by
  simp [State.applyTargets]

@[simp] theorem State.setQuality_memData (s : State) (c : Nat) (q : Nat) :
    (State.setQuality s c q).memData = s.memData := by
  simp [State.setQuality]

@[simp] theorem State.takeRefs_memData (s : State) (kind : Nat) (c : Nat) (ws : List (Nat × Nat)) :
    (State.takeRefs s kind c ws).memData = s.memData := by
  simp [State.takeRefs]

@[simp] theorem State.setTargets_memData (s : State) (c : Nat) (m : Tracking) :
    (State.setTargets s c m).memData = s.memData := by
  simp [State.setTargets]

@[simp] theorem State.trackCycle_memData (s : State) (c : Nat) (m : Tracking) :
    (State.trackCycle s c m).memData = s.memData := by
  simp [State.trackCycle]

@[simp] theorem doTrackingCycle_memData (c : Nat) (m : Tracking) (s : State) :
    (doTrackingCycle c m s).memData = s.memData := by
  simp [doTrackingCycle]

@[simp] theorem doCalStale_memData (c : Nat) (s : State) :
    (doCalStale c s).memData = s.memData := by
  simp [doCalStale]

@[simp] theorem State.calCtrlWritten_memData (s : State) (c : Nat) :
    (State.calCtrlWritten s c).memData = s.memData := by
  simp [State.calCtrlWritten]

@[simp] theorem State.calibrate_memData (s : State) (kind : Nat) (unit : Nat) (is : List Nat) (ws : List Nat) :
    (State.calibrate s kind unit is ws).memData = s.memData := by
  simp [State.calibrate]

@[simp] theorem State.stampCal_memData (s : State) (dirty : Bool) :
    (State.stampCal s dirty).memData = s.memData := by
  simp [State.stampCal]

@[simp] theorem State.calKind_memData (s : State) (r : CalRun) (k : Nat) :
    (State.calKind s r k).2.memData = s.memData := by
  simp [State.calKind]

@[simp] theorem State.askHold_memData (s : State) (c : Nat) (want : Bool) :
    (State.askHold s c want).memData = s.memData := by
  simp [State.askHold]

@[simp] theorem State.showCalActive_memData (s : State) (c : Nat) :
    (State.showCalActive s c).memData = s.memData := by
  simp [State.showCalActive]

@[simp] theorem State.markLevel2_memData (s : State) (c : Nat) (on : Bool) :
    (State.markLevel2 s c on).memData = s.memData := by
  simp [State.markLevel2]

@[simp] theorem State.endCalRun_memData (s : State) (r : CalRun) (st : Nat) :
    (State.endCalRun s r st).memData = s.memData := by
  simp [State.endCalRun]

@[simp] theorem State.goCalRun_memData (v0 : Nat) (v1 : CalRun) (s : State) :
    (State.goCalRun v0 v1 s).memData = s.memData := by
  induction v0 generalizing v1 s <;> unfold State.goCalRun <;> (repeat' (first | with_reducible rfl | (simp [*]; done) | (split <;> try (rename_i heq; obtain ⟨_, rfl⟩ := Prod.ext_iff.mp heq)) | refine (State.memData_foldl _ (fun _ _ => ?_) _ _).trans ?_ | dsimp only | simp []))

@[simp] theorem State.applyLoad_memData (s : State) (x : CalLoad) :
    (State.applyLoad s x).memData = s.memData := by
  simp [State.applyLoad]

@[simp] theorem State.goCals_memData (s : State) :
    (State.goCals s).memData = s.memData := by
  simp [State.goCals]

@[simp] theorem State.beginCalRun_memData (s : State) (r : CalRun) :
    (State.beginCalRun s r).memData = s.memData := by
  simp [State.beginCalRun]

@[simp] theorem State.keepCalRun_memData (s : State) (m : CalOutcome) (c : Cmd) :
    (State.keepCalRun s m c).memData = s.memData := by
  simp [State.keepCalRun]

@[simp] theorem doCalRun_memData (c : Cmd) (s : State) :
    (doCalRun c s).memData = s.memData := by
  simp [doCalRun]

@[simp] theorem doCalRunTimeLimit_memData (c : Nat) (s : State) :
    (doCalRunTimeLimit c s).memData = s.memData := by
  unfold doCalRunTimeLimit; (repeat' (first | with_reducible rfl | (simp []; done) | (split <;> try (rename_i heq; obtain ⟨_, rfl⟩ := Prod.ext_iff.mp heq)) | refine (State.memData_foldl _ (fun _ _ => ?_) _ _).trans ?_ | dsimp only | simp []))

@[simp] theorem State.abortCal_memData (s : State) (c : Nat) (st : Nat) :
    (State.abortCal s c st).memData = s.memData := by
  simp [State.abortCal]

@[simp] theorem doCalStore_memData (c : Cmd) (s : State) :
    (doCalStore c s).memData = s.memData := by
  simp [doCalStore]

@[simp] theorem doCalLoad_memData (c : Cmd) (s : State) :
    (doCalLoad c s).memData = s.memData := by
  unfold doCalLoad; (repeat' (first | with_reducible rfl | refine State.checked_memData _ _ _ _ (fun _ => ?_) | refine State.withReadOr_memData _ _ _ _ _ _ _ _ (fun _ => ?_) (fun _ _ => ?_) | (simp []; done) | (split <;> try (rename_i heq; obtain ⟨_, rfl⟩ := Prod.ext_iff.mp heq)) | refine (State.memData_foldl _ (fun _ _ => ?_) _ _).trans ?_ | dsimp only | simp []))

end Sys2Proof.Machine
end

