-- ==== Sys2Proof/Laws/Kept/Power.lean ====
section
/-! SUPPORT. What the operations of Sys2Proof/Machine/Power.lean leave alone: what memory holds. -/

namespace Sys2Proof.Machine

open Sys2Proof

set_option linter.unusedTactic false
set_option linter.unreachableTactic false
set_option linter.unusedSimpArgs false

@[simp] theorem State.modUsage_memData (s : State) (f : Usage → Usage) :
    (State.modUsage s f).memData = s.memData := by
  simp [State.modUsage]

@[simp] theorem State.showNextEvent_memData (s : State) :
    (State.showNextEvent s).memData = s.memData := by
  simp [State.showNextEvent]

@[simp] theorem doIdleChoice_memData (s : State) :
    (doIdleChoice s).memData = s.memData := by
  simp [doIdleChoice]

@[simp] theorem doIdleEntryEnd_memData (s : State) :
    (doIdleEntryEnd s).memData = s.memData := by
  simp [doIdleEntryEnd]

@[simp] theorem doIdleExit_memData (s : State) :
    (doIdleExit s).memData = s.memData := by
  simp [doIdleExit]

@[simp] theorem State.watchIdle_memData (s : State) :
    (State.watchIdle s).memData = s.memData := by
  simp [State.watchIdle]

@[simp] theorem State.showAllReady_memData (s : State) :
    (State.showAllReady s).memData = s.memData := by
  simp [State.showAllReady]

@[simp] theorem doIdleExitEnd_memData (s : State) :
    (doIdleExitEnd s).memData = s.memData := by
  simp [doIdleExitEnd]

@[simp] theorem doNextEvent_memData (c : Cmd) (s : State) :
    (doNextEvent c s).memData = s.memData := by
  simp [doNextEvent]

@[simp] theorem doWake_memData (left : Nat) (c : Cmd) (s : State) :
    (doWake left c s).memData = s.memData := by
  simp [doWake]

@[simp] theorem doUsageLogWrite_memData (s : State) :
    (doUsageLogWrite s).memData = s.memData := by
  simp [doUsageLogWrite]

@[simp] theorem State.checkSensor_memData (s : State) (apart : Nat → Bool) (k : Nat) :
    (State.checkSensor s apart k).memData = s.memData := by
  simp [State.checkSensor]

@[simp] theorem State.thermalSample_memData (s : State) (temps : List (BitVec 16)) :
    (State.thermalSample s temps).2.memData = s.memData := by
  simp [State.thermalSample]

@[simp] theorem doThrottleUpdate_memData (s : State) :
    (doThrottleUpdate s).memData = s.memData := by
  simp [doThrottleUpdate]

@[simp] theorem doSensorReadmit_memData (k : Nat) (s : State) :
    (doSensorReadmit k s).memData = s.memData := by
  simp [doSensorReadmit]

@[simp] theorem State.markSuspect_memData (s : State) :
    (State.markSuspect s).memData = s.memData := by
  simp [State.markSuspect]

@[simp] theorem doSupplyWarning_memData (r : Nat) (s : State) :
    (doSupplyWarning r s).memData = s.memData := by
  simp [doSupplyWarning]

@[simp] theorem doSupplyRecovery_memData (r : Nat) (s : State) :
    (doSupplyRecovery r s).memData = s.memData := by
  unfold doSupplyRecovery; (repeat' (first | with_reducible rfl | (simp []; done) | (split <;> try (rename_i heq; obtain ⟨_, rfl⟩ := Prod.ext_iff.mp heq)) | refine (State.memData_foldl _ (fun _ _ => ?_) _ _).trans ?_ | dsimp only | simp []))

@[simp] theorem doAgeingMeasure_memData (c : Nat) (ppm : BitVec 32) (s : State) :
    (doAgeingMeasure c ppm s).memData = s.memData := by
  simp [doAgeingMeasure]

end Sys2Proof.Machine
end

