-- ==== Sys2Proof/Laws/Kept/Cell.lean ====
section
/-! SUPPORT. What the operations of Sys2Proof/Machine/Cell.lean leave alone: what memory holds. -/

namespace Sys2Proof.Machine

open Sys2Proof

set_option linter.unusedTactic false
set_option linter.unreachableTactic false
set_option linter.unusedSimpArgs false

@[simp] theorem State.closeRequest_memData (s : State) (site : Nat) :
    (State.closeRequest s site).memData = s.memData := by
  unfold State.closeRequest; (repeat' (first | with_reducible rfl | (simp []; done) | (split <;> try (rename_i heq; obtain ⟨_, rfl⟩ := Prod.ext_iff.mp heq)) | refine (State.memData_foldl _ (fun _ _ => ?_) _ _).trans ?_ | dsimp only | simp []))

@[simp] theorem State.cellFrame_memData (s : State) (f : CellFrame) :
    (State.cellFrame s f).memData = s.memData := by
  simp [State.cellFrame]

@[simp] theorem doCellNop_memData (f : CellFrame) (s : State) :
    (doCellNop f s).memData = s.memData := by
  simp [doCellNop]

@[simp] theorem doCellRead_memData (f : CellFrame) (s : State) :
    (doCellRead f s).memData = s.memData := by
  simp [doCellRead]

@[simp] theorem doCellWrite_memData (f : CellFrame) (s : State) :
    (doCellWrite f s).memData = s.memData := by
  simp [doCellWrite]

@[simp] theorem doAliveLoss_memData (s : State) :
    (doAliveLoss s).memData = s.memData := by
  simp [doAliveLoss]

@[simp] theorem State.cpCtrlWritten_memData (s : State) (was : Bool) :
    (State.cpCtrlWritten s was).memData = s.memData := by
  simp [State.cpCtrlWritten]

end Sys2Proof.Machine
end

