-- ==== Sys2Proof/Laws/Kept/Bar.lean ====
section
/-! SUPPORT. What the operations of Sys2Proof/Machine/Bar.lean leave alone: what memory holds. -/

namespace Sys2Proof.Machine

open Sys2Proof

set_option linter.unusedTactic false
set_option linter.unreachableTactic false
set_option linter.unusedSimpArgs false

@[simp] theorem State.zeroQuads_memData (s : State) (a : Nat) (n : Nat) :
    (State.zeroQuads s a n).memData = s.memData := by
  simp [State.zeroQuads]

@[simp] theorem State.clearCounts_memData (s : State) (a : Nat) :
    (State.clearCounts s a).memData = s.memData := by
  simp [State.clearCounts]

@[simp] theorem State.wroteLow_memData (s : State) (old : State) (a : Nat) (lo : Nat) (x : Nat) :
    (State.wroteLow s old a lo x).memData = s.memData := by
  simp [State.wroteLow]

@[simp] theorem State.wroteCluster_memData (s : State) (a : Nat) (lo : Nat) :
    (State.wroteCluster s a lo).memData = s.memData := by
  simp [State.wroteCluster]

@[simp] theorem State.wroteAnalog_memData (s : State) (a : Nat) (lo : Nat) :
    (State.wroteAnalog s a lo).memData = s.memData := by
  simp [State.wroteAnalog]

@[simp] theorem State.badAccess_memData (s : State) (a : Nat) :
    (State.badAccess s a).memData = s.memData := by
  simp [State.badAccess]

@[simp] theorem State.hostRead_memData (s : State) (a : Nat) (size : Nat) :
    (State.hostRead s a size).2.memData = s.memData := by
  simp [State.hostRead]

end Sys2Proof.Machine
end

