-- ==== Sys2Proof/Laws/Keeps/Bar.lean ====
section
/-! SUPPORT. The operations of Sys2Proof/Machine/Bar.lean that reach memory: they keep its canonical form. -/

namespace Sys2Proof.Machine

open Sys2Proof

set_option linter.unusedTactic false
set_option linter.unreachableTactic false
set_option linter.unusedSimpArgs false

theorem State.wroteSeq_keeps (s : State) (a : Nat) (x : Nat) (hs : storeWf (State.memData s) = true) :
    storeWf ((State.wroteSeq s a x).memData) = true := by
  unfold State.wroteSeq; (repeat' (first | with_reducible assumption | (simp [hs]; done) | with_reducible refine State.queueWritten_keeps _ _ _  ?_ | (split <;> try (rename_i heq; obtain ⟨_, rfl⟩ := Prod.ext_iff.mp heq)) | with_reducible refine State.foldl_keeps _ (fun _ _ _ => ?_) _ _ ?_ | dsimp only | simp only [State.memData_update, State.memData_update_mem] | simp))

theorem State.wrote_keeps (s : State) (old : State) (a : Nat) (lo : Nat) (x : Nat) (hs : storeWf (State.memData s) = true) :
    storeWf ((State.wrote s old a lo x).memData) = true := by
  unfold State.wrote; (repeat' (first | with_reducible assumption | (simp [hs]; done) | with_reducible refine State.wroteSeq_keeps _ _ _  ?_ | (split <;> try (rename_i heq; obtain ⟨_, rfl⟩ := Prod.ext_iff.mp heq)) | with_reducible refine State.foldl_keeps _ (fun _ _ _ => ?_) _ _ ?_ | dsimp only | simp only [State.memData_update, State.memData_update_mem] | simp))

theorem State.barPut_keeps (s : State) (a : Nat) (lo : Nat) (w : Nat) (v : Nat) (hs : storeWf (State.memData s) = true) :
    storeWf ((State.barPut s a lo w v).memData) = true := by
  unfold State.barPut; (repeat' (first | with_reducible assumption | (simp [hs]; done) | with_reducible refine State.wrote_keeps _ _ _ _ _  ?_ | (split <;> try (rename_i heq; obtain ⟨_, rfl⟩ := Prod.ext_iff.mp heq)) | with_reducible refine State.foldl_keeps _ (fun _ _ _ => ?_) _ _ ?_ | dsimp only | simp only [State.memData_update, State.memData_update_mem] | simp))

theorem State.barAligned_keeps (s : State) (a : Nat) (wide : Bool) (v : Nat) (hs : storeWf (State.memData s) = true) :
    storeWf ((State.barAligned s a wide v).memData) = true := by
  unfold State.barAligned; (repeat' (first | with_reducible assumption | (simp [hs]; done) | with_reducible refine State.barPut_keeps _ _ _ _ _  ?_ | (split <;> try (rename_i heq; obtain ⟨_, rfl⟩ := Prod.ext_iff.mp heq)) | with_reducible refine State.foldl_keeps _ (fun _ _ _ => ?_) _ _ ?_ | dsimp only | simp only [State.memData_update, State.memData_update_mem] | simp))

theorem State.barForce_keeps (s : State) (a : Nat) (wide : Bool) (v : Nat) (hs : storeWf (State.memData s) = true) :
    storeWf ((State.barForce s a wide v).memData) = true := by
  unfold State.barForce; (repeat' (first | with_reducible assumption | (simp [hs]; done) | with_reducible refine State.barAligned_keeps _ _ _ _  ?_ | (split <;> try (rename_i heq; obtain ⟨_, rfl⟩ := Prod.ext_iff.mp heq)) | with_reducible refine State.foldl_keeps _ (fun _ _ _ => ?_) _ _ ?_ | dsimp only | simp only [State.memData_update, State.memData_update_mem] | simp))

theorem State.barWrite_keeps (s : State) (a : Nat) (wide : Bool) (v : Nat) (hs : storeWf (State.memData s) = true) :
    storeWf ((State.barWrite s a wide v).memData) = true := by
  unfold State.barWrite; (repeat' (first | with_reducible assumption | (simp [hs]; done) | with_reducible refine State.barAligned_keeps _ _ _ _  ?_ | (split <;> try (rename_i heq; obtain ⟨_, rfl⟩ := Prod.ext_iff.mp heq)) | with_reducible refine State.foldl_keeps _ (fun _ _ _ => ?_) _ _ ?_ | dsimp only | simp only [State.memData_update, State.memData_update_mem] | simp))

theorem State.barPartWrite_keeps (s : State) (a : Nat) (part : RegPart) (v : Nat) (hs : storeWf (State.memData s) = true) :
    storeWf ((State.barPartWrite s a part v).memData) = true := by
  unfold State.barPartWrite; (repeat' (first | with_reducible assumption | (simp [hs]; done) | with_reducible refine State.barWrite_keeps _ _ _ _  ?_ | (split <;> try (rename_i heq; obtain ⟨_, rfl⟩ := Prod.ext_iff.mp heq)) | with_reducible refine State.foldl_keeps _ (fun _ _ _ => ?_) _ _ ?_ | dsimp only | simp only [State.memData_update, State.memData_update_mem] | simp))

end Sys2Proof.Machine
end

