-- ==== Sys2Proof/Laws/Kept/Deckle.lean ====
section
/-! SUPPORT. What the operations of Sys2Proof/Machine/Deckle.lean leave alone: what memory holds. -/

namespace Sys2Proof.Machine

open Sys2Proof

set_option linter.unusedTactic false
set_option linter.unreachableTactic false
set_option linter.unusedSimpArgs false

@[simp] theorem State.markRecords_memData (s : State) (b : Nat) (site : Nat) :
    (State.markRecords s b site).memData = s.memData := by
  simp [State.markRecords]

@[simp] theorem State.closePin_memData (s : State) (x : SitePos) (cut : List PartialConv) (p : Nat) :
    (State.closePin s x cut p).memData = s.memData := by
  unfold State.closePin; (repeat' (first | with_reducible rfl | (simp []; done) | (split <;> try (rename_i heq; obtain ⟨_, rfl⟩ := Prod.ext_iff.mp heq)) | refine (State.memData_foldl _ (fun _ _ => ?_) _ _).trans ?_ | dsimp only | simp []))

@[simp] theorem State.untest_memData (s : State) (b : Nat) (p : Nat) :
    (State.untest s b p).memData = s.memData := by
  unfold State.untest; (repeat' (first | with_reducible rfl | (simp []; done) | (split <;> try (rename_i heq; obtain ⟨_, rfl⟩ := Prod.ext_iff.mp heq)) | refine (State.memData_foldl _ (fun _ _ => ?_) _ _).trans ?_ | dsimp only | simp []))

@[simp] theorem State.siteDropped_memData (s : State) (b : Nat) (p : Nat) :
    (State.siteDropped s b p).memData = s.memData := by
  unfold State.siteDropped; (repeat' (first | with_reducible rfl | refine State.scheduleOr_memData _ _ _ (fun _ => ?_) | (simp []; done) | (split <;> try (rename_i heq; obtain ⟨_, rfl⟩ := Prod.ext_iff.mp heq)) | refine (State.memData_foldl _ (fun _ _ => ?_) _ _).trans ?_ | dsimp only | simp []))

@[simp] theorem State.deckleRecord_memData (s : State) (b : Nat) (site : Nat) (cause : Nat) (time : Nat) (last : Nat) :
    (State.deckleRecord s b site cause time last).memData = s.memData := by
  simp [State.deckleRecord]

end Sys2Proof.Machine
end

