-- ==== Sys2Proof/Laws/Keeps/Deckle.lean ====
section
/-! SUPPORT. The operations of Sys2Proof/Machine/Deckle.lean that reach memory: they keep its canonical form. -/

namespace Sys2Proof.Machine

open Sys2Proof

set_option linter.unusedTactic false
set_option linter.unreachableTactic false
set_option linter.unusedSimpArgs false

theorem doDeckleClosure_keeps (b : Nat) (p : Nat) (cut : List PartialConv) (s : State) (hs : storeWf (State.memData s) = true) :
    storeWf ((doDeckleClosure b p cut s).memData) = true := by
  unfold doDeckleClosure; (repeat' (first | with_reducible assumption | (simp [hs]; done) | with_reducible refine State.popLeave_keeps _ _  ?_ | (split <;> try (rename_i heq; obtain ⟨_, rfl⟩ := Prod.ext_iff.mp heq)) | with_reducible refine State.foldl_keeps _ (fun _ _ _ => ?_) _ _ ?_ | dsimp only | simp only [State.memData_update, State.memData_update_mem] | simp))

end Sys2Proof.Machine
end

