-- ==== Sys2Proof/Laws/Kept/Security.lean ====
section
/-! SUPPORT. What the operations of Sys2Proof/Machine/Security.lean leave alone: what memory holds. -/

namespace Sys2Proof.Machine

open Sys2Proof

set_option linter.unusedTactic false
set_option linter.unreachableTactic false
set_option linter.unusedSimpArgs false

@[simp] theorem State.security_memData (s : State) (info : Nat) :
    (State.security s info).memData = s.memData := by
  simp [State.security]

@[simp] theorem doFwUpdate_memData (c : Cmd) (s : State) :
    (doFwUpdate c s).memData = s.memData := by
  unfold doFwUpdate
  extract_lets va n
  split
  · simp
  · split
    · simp
    · refine State.withReadOr_memData _ _ _ _ _ _ _ _ (fun _ => ?_) (fun img t => ?_)
      · simp
      · split
        · split
          · simp
          · extract_lets svn job s1 jobs
            have h1 : s1.memData = t.memData := State.setFlag_memData _ _ _
            clear_value s1
            simp [h1]
        · simp

@[simp] theorem doOemProvision_memData (c : Cmd) (s : State) :
    (doOemProvision c s).memData = s.memData := by
  simp [doOemProvision]

@[simp] theorem doOemConfig_memData (c : Cmd) (s : State) :
    (doOemConfig c s).memData = s.memData := by
  simp [doOemConfig]

@[simp] theorem State.readRuns_memData (s : State) (v1 : List (Nat × Nat)) (v2 : List Byte) :
    (State.readRuns s v1 v2).2.memData = s.memData := by
  induction v1 generalizing s v2 with
  | nil => rfl
  | cons q l ih =>
    simp only [State.readRuns]
    have h := State.memRead_memData s { engine := 9, unit := 0 } q.1 q.2
    split
    · rename_i heq
      rw [heq] at h
      exact (ih _ _).trans h
    · exact h

@[simp] theorem State.segmentRuns_memData (s : State) (v1 : List (Nat × Nat)) (v2 : List (Nat × Nat)) :
    (State.segmentRuns s v1 v2).2.memData = s.memData := by
  induction v1 generalizing s v2 with
  | nil => rfl
  | cons q l ih =>
    simp only [State.segmentRuns]
    have h := State.memRead_memData s { engine := 9, unit := 0 } q.1 64
    split
    · rename_i hd s1 heq
      rw [heq] at h
      have h2 := State.memRead_memData s1 { engine := 9, unit := 0 } (q.1 + 64) (8 * (q.2 * bytesField hd 6 1))
      split
      · rename_i heq2
        rw [heq2] at h2
        exact ((ih _ _).trans h2).trans h
      · rename_i heq2
        rw [heq2] at h2
        exact h2.trans h
    · rename_i heq
      rw [heq] at h
      exact h

@[simp] theorem State.logImage_memData (s : State) (c : Cmd) (base : Nat) (digested : List (Nat × Nat)) (read : List (Nat × Nat)) (d : List Byte) :
    (State.logImage s c base digested read d).memData = s.memData := by
  simp [State.logImage]

@[simp] theorem State.readFailed_memData (s : State) (c : Cmd) (r : Acc) :
    (State.readFailed s c r).memData = s.memData := by
  unfold State.readFailed; (repeat' (first | with_reducible rfl | (simp []; done) | (split <;> try (rename_i heq; obtain ⟨_, rfl⟩ := Prod.ext_iff.mp heq)) | refine (State.memData_foldl _ (fun _ _ => ?_) _ _).trans ?_ | dsimp only | simp []))

@[simp] theorem doImageMeasure_memData (c : Cmd) (s : State) :
    (doImageMeasure c s).memData = s.memData := by
  unfold doImageMeasure
  extract_lets va bad
  refine State.checked_memData _ _ _ _ (fun t => ?_)
  extract_lets q
  have hq : q.2.2.memData = t.memData := State.preRead_memData _ _ _ _
  have hk1 : (t.keepRequests q.2.2).memData = t.memData := State.keepRequests_memData _ _ hq
  clear_value q
  split
  · split <;> simp [hq, hk1]
  · split
    · simp [hq]
    · extract_lets h r l p
      have hr : r.2.2.memData = t.memData := (State.preRead_memData _ _ _ _).trans hq
      have hk2 : (t.keepRequests r.2.2).memData = t.memData := State.keepRequests_memData _ _ hr
      clear_value p l r
      split
      · simp [hk2]
      · split
        · simp [hr]
        · split
          · simp [hr]
          · have h3 := State.segmentRuns_memData r.2.2 (l.filterMap (Option.map Prod.fst)) []
            split
            · rename_i heq
              rw [heq] at h3
              exact (State.readFailed_memData _ _ _).trans (h3.trans hr)
            · rename_i rs s1 heq
              rw [heq] at h3
              extract_lets digested
              have h2 := State.readRuns_memData s1 digested []
              split
              · rename_i heq2
                rw [heq2] at h2
                exact (State.logImage_memData _ _ _ _ _ _).trans (h2.trans (h3.trans hr))
              · rename_i heq2
                rw [heq2] at h2
                exact (State.readFailed_memData _ _ _).trans (h2.trans (h3.trans hr))

@[simp] theorem State.countSignature_memData (s : State) :
    (State.countSignature s).memData = s.memData := by
  simp [State.countSignature]

@[simp] theorem State.newPeriod_memData (s : State) :
    (State.newPeriod s).memData = s.memData := by
  simp [State.newPeriod]

end Sys2Proof.Machine
end

