-- ==== Sys2Proof/Laws/Keeps/Security.lean ====
section
/-! SUPPORT. The operations of Sys2Proof/Machine/Security.lean that reach memory: they keep its canonical form. -/

namespace Sys2Proof.Machine

open Sys2Proof

set_option linter.unusedTactic false
set_option linter.unreachableTactic false
set_option linter.unusedSimpArgs false

theorem State.mgmtWrite_keeps (s : State) (c : Cmd) (va : Nat) (data : List Byte) (k : State → State) (hk : ∀ x0, storeWf (State.memData x0) = true → storeWf ((k x0).memData) = true) (hs : storeWf (State.memData s) = true) :
    storeWf ((State.mgmtWrite s c va data k).memData) = true := by
  unfold State.mgmtWrite; (repeat' (first | with_reducible assumption | (simp [hs]; done) | with_reducible refine State.memWrite_keeps _ _ _ _ _  ?_ | with_reducible refine hk _ ?_ | (split <;> try (rename_i heq; obtain ⟨_, rfl⟩ := Prod.ext_iff.mp heq)) | with_reducible refine State.foldl_keeps _ (fun _ _ _ => ?_) _ _ ?_ | dsimp only | simp only [State.memData_update, State.memData_update_mem] | simp))

theorem doAttest_keeps (c : Cmd) (s : State) (hs : storeWf (State.memData s) = true) :
    storeWf ((doAttest c s).memData) = true := by
  unfold doAttest; (repeat' (first | with_reducible assumption | (simp [hs]; done) | with_reducible refine State.checked_keeps _ _ _ _ (fun _ _ => ?_) ?_ | with_reducible refine State.mgmtWrite_keeps _ _ _ _ _ (fun _ _ => ?_) ?_ | (split <;> try (rename_i heq; obtain ⟨_, rfl⟩ := Prod.ext_iff.mp heq)) | with_reducible refine State.foldl_keeps _ (fun _ _ _ => ?_) _ _ ?_ | dsimp only | simp only [State.memData_update, State.memData_update_mem] | simp))

theorem doSummarySign_keeps (c : Cmd) (s : State) (hs : storeWf (State.memData s) = true) :
    storeWf ((doSummarySign c s).memData) = true := by
  unfold doSummarySign; (repeat' (first | with_reducible assumption | (simp [hs]; done) | with_reducible refine State.checked_keeps _ _ _ _ (fun _ _ => ?_) ?_ | with_reducible refine State.mgmtWrite_keeps _ _ _ _ _ (fun _ _ => ?_) ?_ | (split <;> try (rename_i heq; obtain ⟨_, rfl⟩ := Prod.ext_iff.mp heq)) | with_reducible refine State.foldl_keeps _ (fun _ _ _ => ?_) _ _ ?_ | dsimp only | simp only [State.memData_update, State.memData_update_mem] | simp))

end Sys2Proof.Machine
end

