-- ==== Sys2Proof/Laws/Kept/Units.lean ====
section
/-! SUPPORT. What the operations of Sys2Proof/Machine/Units.lean leave alone: what memory holds. -/

namespace Sys2Proof.Machine

open Sys2Proof

set_option linter.unusedTactic false
set_option linter.unreachableTactic false
set_option linter.unusedSimpArgs false

@[simp] theorem State.unitEvent_memData (s : State) (u : Nat) (code : Nat) :
    (State.unitEvent s u code).memData = s.memData := by
  simp [State.unitEvent]

@[simp] theorem State.stopProgramsOf_memData (s : State) (u : Nat) :
    (State.stopProgramsOf s u).memData = s.memData := by
  unfold State.stopProgramsOf; (repeat' (first | with_reducible rfl | (simp []; done) | (split <;> try (rename_i heq; obtain ⟨_, rfl⟩ := Prod.ext_iff.mp heq)) | refine (State.memData_foldl _ (fun _ _ => ?_) _ _).trans ?_ | dsimp only | simp []))

@[simp] theorem State.dropHeld_memData (s : State) (u : Nat) :
    (State.dropHeld s u).memData = s.memData := by
  simp [State.dropHeld]

@[simp] theorem State.contactCut_memData (s : State) (b : Nat) (st : Nat) :
    (State.contactCut s b st).memData = s.memData := by
  unfold State.contactCut; (repeat' (first | with_reducible rfl | (simp []; done) | (split <;> try (rename_i heq; obtain ⟨_, rfl⟩ := Prod.ext_iff.mp heq)) | refine (State.memData_foldl _ (fun _ _ => ?_) _ _).trans ?_ | dsimp only | simp []))

@[simp] theorem State.unretireFrames_memData (s : State) (n : Nat) :
    (State.unretireFrames s n).memData = s.memData := by
  simp [State.unretireFrames]

@[simp] theorem State.clusterStop_memData (s : State) (c : Nat) :
    (State.clusterStop s c).memData = s.memData := by
  simp [State.clusterStop]

@[simp] theorem State.clusterDpsOff_memData (s : State) (c : Nat) :
    (State.clusterDpsOff s c).memData = s.memData := by
  simp [State.clusterDpsOff]

@[simp] theorem State.seqCut_memData (s : State) (n : Nat) :
    (State.seqCut s n).memData = s.memData := by
  simp [State.seqCut]

@[simp] theorem State.memCut_memData (s : State) :
    (State.memCut s).memData = s.memData := by
  simp [State.memCut]

@[simp] theorem State.headboxCut_memData (s : State) :
    (State.headboxCut s).memData = s.memData := by
  simp [State.headboxCut]

@[simp] theorem State.popCut_memData (s : State) :
    (State.popCut s).memData = s.memData := by
  simp [State.popCut]

@[simp] theorem State.dropInject_memData (s : State) (p : Nat) :
    (State.dropInject s p).memData = s.memData := by
  simp [State.dropInject]

@[simp] theorem State.portCut_memData (s : State) (p : Nat) :
    (State.portCut s p).memData = s.memData := by
  simp [State.portCut]

@[simp] theorem State.watermarkCut_memData (s : State) :
    (State.watermarkCut s).memData = s.memData := by
  simp [State.watermarkCut]

@[simp] theorem State.resetRegs_memData (s : State) (us : List Nat) :
    (State.resetRegs s us).memData = s.memData := by
  simp [State.resetRegs]

@[simp] theorem State.resetPins_memData (s : State) (us : List Nat) :
    (State.resetPins s us).memData = s.memData := by
  simp [State.resetPins]

@[simp] theorem State.clusterChecks_memData (s : State) (c : Nat) (r : BringUp) :
    (State.clusterChecks s c r).memData = s.memData := by
  simp [State.clusterChecks]

@[simp] theorem State.clusterCal_memData (s : State) (c : Nat) (r : BringUp) :
    (State.clusterCal s c r).memData = s.memData := by
  simp [State.clusterCal]

@[simp] theorem State.startCluster_memData (s : State) (c : Nat) (r : BringUp) :
    (State.startCluster s c r).2.memData = s.memData := by
  unfold State.startCluster; (repeat' (first | with_reducible rfl | (simp []; done) | (split <;> try (rename_i heq; obtain ⟨_, rfl⟩ := Prod.ext_iff.mp heq)) | refine (State.memData_foldl _ (fun _ _ => ?_) _ _).trans ?_ | dsimp only | simp []))

@[simp] theorem State.endUnitAsks_memData (s : State) :
    (State.endUnitAsks s).memData = s.memData := by
  simp [State.endUnitAsks]

@[simp] theorem State.unitStarted_memData (s : State) (u : Nat) (ok : Bool) :
    (State.unitStarted s u ok).memData = s.memData := by
  simp [State.unitStarted]

@[simp] theorem State.afterStart_memData (s : State) :
    (State.afterStart s).memData = s.memData := by
  simp [State.afterStart]

@[simp] theorem doUnitPowerUp_memData (c : Cmd) (s : State) :
    (doUnitPowerUp c s).memData = s.memData := by
  simp [doUnitPowerUp]

@[simp] theorem State.logRetire_memData (s : State) (l : List (Nat × Nat)) :
    (State.logRetire s l).memData = s.memData := by
  simp [State.logRetire]

@[simp] theorem doUnitUnretire_memData (c : Cmd) (s : State) :
    (doUnitUnretire c s).memData = s.memData := by
  simp [doUnitUnretire]

end Sys2Proof.Machine
end

