-- ==== Sys2Proof/Laws/Keeps/Units.lean ====
section
/-! SUPPORT. The operations of Sys2Proof/Machine/Units.lean that reach memory: they keep its canonical form. -/

namespace Sys2Proof.Machine

open Sys2Proof

set_option linter.unusedTactic false
set_option linter.unreachableTactic false
set_option linter.unusedSimpArgs false

theorem State.takeHeldWrites_keeps (s : State) (u : Nat) (hs : storeWf (State.memData s) = true) :
    storeWf ((State.takeHeldWrites s u).memData) = true := by
  unfold State.takeHeldWrites; (repeat' (first | with_reducible assumption | (simp [hs]; done) | with_reducible refine State.releaseSeq_keeps _ _  ?_ | (split <;> try (rename_i heq; obtain ⟨_, rfl⟩ := Prod.ext_iff.mp heq)) | with_reducible refine State.foldl_keeps _ (fun _ _ _ => ?_) _ _ ?_ | dsimp only | simp only [State.memData_update, State.memData_update_mem] | simp))

theorem State.cutUnit_keeps (s : State) (u : Nat) (dps : Bool) (hs : storeWf (State.memData s) = true) :
    storeWf ((State.cutUnit s u dps).memData) = true := by
  unfold State.cutUnit; (repeat' (first | with_reducible assumption | (simp [hs]; done) | with_reducible refine State.takeHeldWrites_keeps _ _  ?_ | (split <;> try (rename_i heq; obtain ⟨_, rfl⟩ := Prod.ext_iff.mp heq)) | with_reducible refine State.foldl_keeps _ (fun _ _ _ => ?_) _ _ ?_ | dsimp only | simp only [State.memData_update, State.memData_update_mem] | simp))

theorem State.dropUnit_keeps (s : State) (u : Nat) (hs : storeWf (State.memData s) = true) :
    storeWf ((State.dropUnit s u).memData) = true := by
  unfold State.dropUnit; (repeat' (first | with_reducible assumption | (simp [hs]; done) | with_reducible refine State.cutUnit_keeps _ _ _  ?_ | (split <;> try (rename_i heq; obtain ⟨_, rfl⟩ := Prod.ext_iff.mp heq)) | with_reducible refine State.foldl_keeps _ (fun _ _ _ => ?_) _ _ ?_ | dsimp only | simp only [State.memData_update, State.memData_update_mem] | simp))

theorem State.startMemory_keeps (s : State) (r : BringUp) (hs : storeWf (State.memData s) = true) :
    storeWf ((State.startMemory s r).2.memData) = true := by
  unfold State.startMemory
  extract_lets pairs s1
  have h1 : storeWf s1.memData = true := by simpa [s1] using hs
  clear_value s1
  rw [storeWf_iff] at h1 ⊢
  exact ⟨rfl, h1.2⟩

theorem State.startUnit_keeps (s : State) (u : Nat) (r : BringUp) (restart : Bool) (hs : storeWf (State.memData s) = true) :
    storeWf ((State.startUnit s u r restart).memData) = true := by
  unfold State.startUnit; (repeat' (first | with_reducible assumption | (simp [hs]; done) | with_reducible refine State.startMemory_keeps _ _  ?_ | (split <;> try (rename_i heq; obtain ⟨_, rfl⟩ := Prod.ext_iff.mp heq)) | with_reducible refine State.foldl_keeps _ (fun _ _ _ => ?_) _ _ ?_ | dsimp only | simp only [State.memData_update, State.memData_update_mem] | simp))

theorem doUnitBringup_keeps (u : Nat) (r : BringUp) (s : State) (hs : storeWf (State.memData s) = true) :
    storeWf ((doUnitBringup u r s).memData) = true := by
  unfold doUnitBringup; (repeat' (first | with_reducible assumption | (simp [hs]; done) | with_reducible refine State.startUnit_keeps _ _ _ _  ?_ | (split <;> try (rename_i heq; obtain ⟨_, rfl⟩ := Prod.ext_iff.mp heq)) | with_reducible refine State.foldl_keeps _ (fun _ _ _ => ?_) _ _ ?_ | dsimp only | simp only [State.memData_update, State.memData_update_mem] | simp))

theorem doUnitRestart_keeps (u : Nat) (r : BringUp) (s : State) (hs : storeWf (State.memData s) = true) :
    storeWf ((doUnitRestart u r s).memData) = true := by
  unfold doUnitRestart; (repeat' (first | with_reducible assumption | (simp [hs]; done) | with_reducible refine State.startUnit_keeps _ _ _ _  ?_ | (split <;> try (rename_i heq; obtain ⟨_, rfl⟩ := Prod.ext_iff.mp heq)) | with_reducible refine State.foldl_keeps _ (fun _ _ _ => ?_) _ _ ?_ | dsimp only | simp only [State.memData_update, State.memData_update_mem] | simp))

theorem doUnitReset_keeps (c : Cmd) (s : State) (hs : storeWf (State.memData s) = true) :
    storeWf ((doUnitReset c s).memData) = true := by
  unfold doUnitReset; (repeat' (first | with_reducible assumption | (simp [hs]; done) | with_reducible refine State.checked_keeps _ _ _ _ (fun _ _ => ?_) ?_ | with_reducible refine State.dropUnit_keeps _ _  ?_ | (split <;> try (rename_i heq; obtain ⟨_, rfl⟩ := Prod.ext_iff.mp heq)) | with_reducible refine State.foldl_keeps _ (fun _ _ _ => ?_) _ _ ?_ | dsimp only | simp only [State.memData_update, State.memData_update_mem] | simp))

theorem State.memoryOff_keeps (s : State) (hs : storeWf (State.memData s) = true) :
    storeWf ((State.memoryOff s).memData) = true := by
  rw [storeWf_iff] at hs ⊢
  exact ⟨rfl, hs.2.1, SMap.filter_canonical (fun _ => 0) _ _ hs.2.2⟩

theorem State.unitOff_keeps (s : State) (u : Nat) (hs : storeWf (State.memData s) = true) :
    storeWf ((State.unitOff s u).memData) = true := by
  unfold State.unitOff; (repeat' (first | with_reducible assumption | (simp [hs]; done) | with_reducible refine State.memoryOff_keeps _  ?_ | (split <;> try (rename_i heq; obtain ⟨_, rfl⟩ := Prod.ext_iff.mp heq)) | with_reducible refine State.foldl_keeps _ (fun _ _ _ => ?_) _ _ ?_ | dsimp only | simp only [State.memData_update, State.memData_update_mem] | simp))

theorem doUnitPowerDown_keeps (c : Cmd) (s : State) (hs : storeWf (State.memData s) = true) :
    storeWf ((doUnitPowerDown c s).memData) = true := by
  unfold doUnitPowerDown; (repeat' (first | with_reducible assumption | (simp [hs]; done) | with_reducible refine State.checked_keeps _ _ _ _ (fun _ _ => ?_) ?_ | with_reducible refine State.dropUnit_keeps _ _  ?_ | with_reducible refine State.unitOff_keeps _ _  ?_ | (split <;> try (rename_i heq; obtain ⟨_, rfl⟩ := Prod.ext_iff.mp heq)) | with_reducible refine State.foldl_keeps _ (fun _ _ _ => ?_) _ _ ?_ | dsimp only | simp only [State.memData_update, State.memData_update_mem] | simp))

theorem doUnitRetire_keeps (c : Cmd) (s : State) (hs : storeWf (State.memData s) = true) :
    storeWf ((doUnitRetire c s).memData) = true := by
  unfold doUnitRetire; (repeat' (first | with_reducible assumption | (simp [hs]; done) | with_reducible refine State.checked_keeps _ _ _ _ (fun _ _ => ?_) ?_ | with_reducible refine State.dropUnit_keeps _ _  ?_ | with_reducible refine State.unitOff_keeps _ _  ?_ | (split <;> try (rename_i heq; obtain ⟨_, rfl⟩ := Prod.ext_iff.mp heq)) | with_reducible refine State.foldl_keeps _ (fun _ _ _ => ?_) _ _ ?_ | dsimp only | simp only [State.memData_update, State.memData_update_mem] | simp))

theorem State.thermalShutdown_keeps (s : State) (hs : storeWf (State.memData s) = true) :
    storeWf ((State.thermalShutdown s).memData) = true := by
  unfold State.thermalShutdown; (repeat' (first | with_reducible assumption | (simp [hs]; done) | with_reducible refine State.cutUnit_keeps _ _ _  ?_ | (split <;> try (rename_i heq; obtain ⟨_, rfl⟩ := Prod.ext_iff.mp heq)) | with_reducible refine State.foldl_keeps _ (fun _ _ _ => ?_) _ _ ?_ | dsimp only | simp only [State.memData_update, State.memData_update_mem] | simp))

theorem doThermalSample_keeps (temps : List (BitVec 16)) (s : State) (hs : storeWf (State.memData s) = true) :
    storeWf ((doThermalSample temps s).memData) = true := by
  unfold doThermalSample; (repeat' (first | with_reducible assumption | (simp [hs]; done) | with_reducible refine State.thermalShutdown_keeps _  ?_ | (split <;> try (rename_i heq; obtain ⟨_, rfl⟩ := Prod.ext_iff.mp heq)) | with_reducible refine State.foldl_keeps _ (fun _ _ _ => ?_) _ _ ?_ | dsimp only | simp only [State.memData_update, State.memData_update_mem] | simp))

end Sys2Proof.Machine
end

