-- ==== Sys2Proof/Laws/Kept/Flash.lean ====
section
/-! SUPPORT. What the operations of Sys2Proof/Machine/Flash.lean leave alone: what memory holds. -/

namespace Sys2Proof.Machine

open Sys2Proof

set_option linter.unusedTactic false
set_option linter.unreachableTactic false
set_option linter.unusedSimpArgs false

@[simp] theorem State.spoil_memData (s : State) (a : Nat) (n : Nat) :
    (State.spoil s a n).memData = s.memData := by
  simp [State.spoil]

@[simp] theorem State.dropJob_memData (s : State) (j : FlashJob) :
    (State.dropJob s j).memData = s.memData := by
  simp [State.dropJob]

@[simp] theorem State.jobFails_memData (s : State) (j : FlashJob) :
    (State.jobFails s j).memData = s.memData := by
  unfold State.jobFails; (repeat' (first | with_reducible rfl | (simp []; done) | (split <;> try (rename_i heq; obtain ⟨_, rfl⟩ := Prod.ext_iff.mp heq)) | refine (State.memData_foldl _ (fun _ _ => ?_) _ _).trans ?_ | dsimp only | simp []))

@[simp] theorem State.jobDone_memData (s : State) (j : FlashJob) :
    (State.jobDone s j).memData = s.memData := by
  unfold State.jobDone; (repeat' (first | with_reducible rfl | (simp []; done) | (split <;> try (rename_i heq; obtain ⟨_, rfl⟩ := Prod.ext_iff.mp heq)) | refine (State.memData_foldl _ (fun _ _ => ?_) _ _).trans ?_ | dsimp only | simp []))

@[simp] theorem State.frameEnds_memData (s : State) (j : FlashJob) (f : FlashFrame) (rest : List FlashFrame) (good : Bool) :
    (State.frameEnds s j f rest good).memData = s.memData := by
  simp [State.frameEnds]

@[simp] theorem State.serveFetch_memData (s : State) :
    (State.serveFetch s).memData = s.memData := by
  unfold State.serveFetch; (repeat' (first | with_reducible rfl | (simp []; done) | (split <;> try (rename_i heq; obtain ⟨_, rfl⟩ := Prod.ext_iff.mp heq)) | refine (State.memData_foldl _ (fun _ _ => ?_) _ _).trans ?_ | dsimp only | simp []))

@[simp] theorem doFlashStatusRead_memData (ready : Bool) (good : Bool) (s : State) :
    (doFlashStatusRead ready good s).memData = s.memData := by
  unfold doFlashStatusRead; (repeat' (first | with_reducible rfl | (simp []; done) | (split <;> try (rename_i heq; obtain ⟨_, rfl⟩ := Prod.ext_iff.mp heq)) | refine (State.memData_foldl _ (fun _ _ => ?_) _ _).trans ?_ | dsimp only | simp []))

@[simp] theorem doFlashBusyTimeout_memData (s : State) :
    (doFlashBusyTimeout s).memData = s.memData := by
  unfold doFlashBusyTimeout; (repeat' (first | with_reducible rfl | (simp []; done) | (split <;> try (rename_i heq; obtain ⟨_, rfl⟩ := Prod.ext_iff.mp heq)) | refine (State.memData_foldl _ (fun _ _ => ?_) _ _).trans ?_ | dsimp only | simp []))

@[simp] theorem State.cutFrame_memData (s : State) :
    (State.cutFrame s).memData = s.memData := by
  unfold State.cutFrame; (repeat' (first | with_reducible rfl | (simp []; done) | (split <;> try (rename_i heq; obtain ⟨_, rfl⟩ := Prod.ext_iff.mp heq)) | refine (State.memData_foldl _ (fun _ _ => ?_) _ _).trans ?_ | dsimp only | simp []))

end Sys2Proof.Machine
end

