-- ==== Sys2Proof/Laws/Kept/Boot.lean ====
section
/-! SUPPORT. What the operations of Sys2Proof/Machine/Boot.lean leave alone: what memory holds. -/

namespace Sys2Proof.Machine

open Sys2Proof

set_option linter.unusedTactic false
set_option linter.unreachableTactic false
set_option linter.unusedSimpArgs false

@[simp] theorem doInternalResetRelease_memData (s : State) :
    (doInternalResetRelease s).memData = s.memData := by
  simp [doInternalResetRelease]

@[simp] theorem State.runImage_memData (s : State) (i : FwImage) :
    (State.runImage s i).memData = s.memData := by
  simp [State.runImage]

@[simp] theorem State.checkCertificate_memData (s : State) (x : Directory) :
    (State.checkCertificate s x).memData = s.memData := by
  simp [State.checkCertificate]

@[simp] theorem State.loadBank_memData (s : State) (x : Directory) :
    (State.loadBank s x).memData = s.memData := by
  simp [State.loadBank]

@[simp] theorem State.loadUsage_memData (s : State) :
    (State.loadUsage s).memData = s.memData := by
  simp [State.loadUsage]

@[simp] theorem State.loadCal_memData (s : State) :
    (State.loadCal s).memData = s.memData := by
  unfold State.loadCal; (repeat' (first | with_reducible rfl | (simp []; done) | (split <;> try (rename_i heq; obtain ⟨_, rfl⟩ := Prod.ext_iff.mp heq)) | refine (State.memData_foldl _ (fun _ _ => ?_) _ _).trans ?_ | dsimp only | simp []))

@[simp] theorem State.loadRetired_memData (s : State) :
    (State.loadRetired s).memData = s.memData := by
  unfold State.loadRetired; (repeat' (first | with_reducible rfl | (simp []; done) | (split <;> try (rename_i heq; obtain ⟨_, rfl⟩ := Prod.ext_iff.mp heq)) | refine (State.memData_foldl _ (fun _ _ => ?_) _ _).trans ?_ | dsimp only | simp []))

@[simp] theorem State.booted_memData (s : State) :
    (State.booted s).memData = s.memData := by
  simp [State.booted]

end Sys2Proof.Machine
end

