-- ==== Sys2Proof/Laws/Keeps/Boot.lean ====
section
/-! SUPPORT. The operations of Sys2Proof/Machine/Boot.lean that reach memory: they keep its canonical form. -/

namespace Sys2Proof.Machine

open Sys2Proof

set_option linter.unusedTactic false
set_option linter.unreachableTactic false
set_option linter.unusedSimpArgs false

theorem State.wiped_keeps (s : State) (hs : storeWf (State.memData s) = true) :
    storeWf ((State.wiped s).memData) = true := by
  unfold State.wiped
  dsimp only
  rw [State.showLines_memData, storeWf_iff]
  have h := hs
  rw [← State.cutFrame_memData, storeWf_iff] at h
  exact ⟨rfl, h.2.1, rfl⟩

theorem State.resetBy_keeps (s : State) (supply : Bool) (hs : storeWf (State.memData s) = true) :
    storeWf ((State.resetBy s supply).memData) = true := by
  unfold State.resetBy; (repeat' (first | with_reducible assumption | (simp [hs]; done) | with_reducible refine State.wiped_keeps _  ?_ | (split <;> try (rename_i heq; obtain ⟨_, rfl⟩ := Prod.ext_iff.mp heq)) | with_reducible refine State.foldl_keeps _ (fun _ _ _ => ?_) _ _ ?_ | dsimp only | simp only [State.memData_update, State.memData_update_mem] | simp))

theorem doPerstAssert_keeps (s : State) (hs : storeWf (State.memData s) = true) :
    storeWf ((doPerstAssert s).memData) = true := by
  unfold doPerstAssert; (repeat' (first | with_reducible assumption | (simp [hs]; done) | with_reducible refine State.resetBy_keeps _ _  ?_ | (split <;> try (rename_i heq; obtain ⟨_, rfl⟩ := Prod.ext_iff.mp heq)) | with_reducible refine State.foldl_keeps _ (fun _ _ _ => ?_) _ _ ?_ | dsimp only | simp only [State.memData_update, State.memData_update_mem] | simp))

theorem doPerst_keeps (xref : Bool) (s : State) (hs : storeWf (State.memData s) = true) :
    storeWf ((doPerst xref s).memData) = true := by
  unfold doPerst; (repeat' (first | with_reducible assumption | (simp [hs]; done) | with_reducible refine State.resetBy_keeps _ _  ?_ | (split <;> try (rename_i heq; obtain ⟨_, rfl⟩ := Prod.ext_iff.mp heq)) | with_reducible refine State.foldl_keeps _ (fun _ _ _ => ?_) _ _ ?_ | dsimp only | simp only [State.memData_update, State.memData_update_mem] | simp))

theorem State.supplyLost_keeps (s : State) (hs : storeWf (State.memData s) = true) :
    storeWf ((State.supplyLost s).memData) = true := by
  unfold State.supplyLost; (repeat' (first | with_reducible assumption | (simp [hs]; done) | with_reducible refine State.resetBy_keeps _ _  ?_ | (split <;> try (rename_i heq; obtain ⟨_, rfl⟩ := Prod.ext_iff.mp heq)) | with_reducible refine State.foldl_keeps _ (fun _ _ _ => ?_) _ _ ?_ | dsimp only | simp only [State.memData_update, State.memData_update_mem] | simp))

theorem doSupplyReset_keeps (v0 : Nat) (s : State) (hs : storeWf (State.memData s) = true) :
    storeWf ((doSupplyReset v0 s).memData) = true := by
  unfold doSupplyReset; (repeat' (first | with_reducible assumption | (simp [hs]; done) | with_reducible refine State.supplyLost_keeps _  ?_ | (split <;> try (rename_i heq; obtain ⟨_, rfl⟩ := Prod.ext_iff.mp heq)) | with_reducible refine State.foldl_keeps _ (fun _ _ _ => ?_) _ _ ?_ | dsimp only | simp only [State.memData_update, State.memData_update_mem] | simp))

theorem doReferenceLoss_keeps (s : State) (hs : storeWf (State.memData s) = true) :
    storeWf ((doReferenceLoss s).memData) = true := by
  unfold doReferenceLoss; (repeat' (first | with_reducible assumption | (simp [hs]; done) | with_reducible refine State.supplyLost_keeps _  ?_ | (split <;> try (rename_i heq; obtain ⟨_, rfl⟩ := Prod.ext_iff.mp heq)) | with_reducible refine State.foldl_keeps _ (fun _ _ _ => ?_) _ _ ?_ | dsimp only | simp only [State.memData_update, State.memData_update_mem] | simp))

theorem State.applyOem_keeps (s : State) (hs : storeWf (State.memData s) = true) :
    storeWf ((State.applyOem s).memData) = true := by
  unfold State.applyOem; (repeat' (first | with_reducible assumption | (simp [hs]; done) | with_reducible refine State.barForce_keeps _ _ _ _  ?_ | (split <;> try (rename_i heq; obtain ⟨_, rfl⟩ := Prod.ext_iff.mp heq)) | with_reducible refine State.foldl_keeps _ (fun _ _ _ => ?_) _ _ ?_ | dsimp only | simp only [State.memData_update, State.memData_update_mem] | simp))

theorem doBoot_keeps (s : State) (hs : storeWf (State.memData s) = true) :
    storeWf ((doBoot s).memData) = true := by
  unfold doBoot; (repeat' (first | with_reducible assumption | (simp [hs]; done) | with_reducible refine State.applyOem_keeps _  ?_ | (split <;> try (rename_i heq; obtain ⟨_, rfl⟩ := Prod.ext_iff.mp heq)) | with_reducible refine State.foldl_keeps _ (fun _ _ _ => ?_) _ _ ?_ | dsimp only | simp only [State.memData_update, State.memData_update_mem] | simp))

end Sys2Proof.Machine
end

