-- ==== Sys2Proof/Laws/Kept/Jtag.lean ====
section
/-! SUPPORT. What the operations of Sys2Proof/Machine/Jtag.lean leave alone: what memory holds. -/

namespace Sys2Proof.Machine

open Sys2Proof

set_option linter.unusedTactic false
set_option linter.unreachableTactic false
set_option linter.unusedSimpArgs false

@[simp] theorem State.bypassScan_memData (s : State) (ir : Nat) (shift : List Bool) :
    (State.bypassScan s ir shift).memData = s.memData := by
  simp [State.bypassScan]

@[simp] theorem State.boundaryScan_memData (s : State) (ir : Nat) (shift : List Bool) (balls : List Bool) :
    (State.boundaryScan s ir shift balls).memData = s.memData := by
  simp [State.boundaryScan]

@[simp] theorem doExtest_memData (shift : List Bool) (balls : List Bool) (s : State) :
    (doExtest shift balls s).memData = s.memData := by
  simp [doExtest]

@[simp] theorem doSamplePreload_memData (shift : List Bool) (balls : List Bool) (s : State) :
    (doSamplePreload shift balls s).memData = s.memData := by
  simp [doSamplePreload]

@[simp] theorem doIdcode_memData (s : State) :
    (doIdcode s).memData = s.memData := by
  simp [doIdcode]

@[simp] theorem doJtagClamp_memData (shift : List Bool) (s : State) :
    (doJtagClamp shift s).memData = s.memData := by
  simp [doJtagClamp]

@[simp] theorem doHighz_memData (shift : List Bool) (s : State) :
    (doHighz shift s).memData = s.memData := by
  simp [doHighz]

@[simp] theorem doBypass_memData (code : Nat) (shift : List Bool) (s : State) :
    (doBypass code shift s).memData = s.memData := by
  simp [doBypass]

@[simp] theorem State.debugUsed_memData (s : State) :
    (State.debugUsed s).memData = s.memData := by
  simp [State.debugUsed]

@[simp] theorem doDebugStatus_memData (s : State) :
    (doDebugStatus s).memData = s.memData := by
  simp [doDebugStatus]

end Sys2Proof.Machine
end

