-- ==== Sys2Proof/Laws/Keeps/Jtag.lean ====
section
/-! SUPPORT. The operations of Sys2Proof/Machine/Jtag.lean that reach memory: they keep its canonical form. -/

namespace Sys2Proof.Machine

open Sys2Proof

set_option linter.unusedTactic false
set_option linter.unreachableTactic false
set_option linter.unusedSimpArgs false

theorem doDebugAccess_keeps (d : BitVec 96) (s : State) (hs : storeWf (State.memData s) = true) :
    storeWf ((doDebugAccess d s).memData) = true := by
  unfold doDebugAccess
  dsimp only
  split
  · unfold State.bypassScan
    simpa using hs
  · rw [State.memData_update]
    split
    · exact State.barForce_keeps _ _ _ _ (by simpa using hs)
    · split <;> simpa using hs

end Sys2Proof.Machine
end

