-- ==== Sys2Proof/Laws/Kept/Release.lean ====
section
/-! SUPPORT. What the operations of Sys2Proof/Machine/Release.lean leave alone: what memory holds. -/

namespace Sys2Proof.Machine

open Sys2Proof

set_option linter.unusedTactic false
set_option linter.unreachableTactic false
set_option linter.unusedSimpArgs false

@[simp] theorem mayReplay_memData (b : Nat) (k : State → State) (s : State) (hk : ∀ x0, (k x0).memData = State.memData x0) :
    (mayReplay b k s).memData = s.memData := by
  unfold mayReplay; (repeat' (first | with_reducible rfl | (simp [hk]; done) | (split <;> try (rename_i heq; obtain ⟨_, rfl⟩ := Prod.ext_iff.mp heq)) | refine (State.memData_foldl _ (fun _ _ => ?_) _ _).trans ?_ | dsimp only | simp [hk]))

end Sys2Proof.Machine
end

