-- ==== Sys2Proof/Laws/Keeps/Release.lean ====
section
/-! SUPPORT. The operations of Sys2Proof/Machine/Release.lean that reach memory: they keep its canonical form. -/

namespace Sys2Proof.Machine

open Sys2Proof

set_option linter.unusedTactic false
set_option linter.unreachableTactic false
set_option linter.unusedSimpArgs false

theorem runUnitCmd_keeps (c : Cmd) (s : State) (hs : storeWf (State.memData s) = true) :
    storeWf ((runUnitCmd c s).memData) = true := by
  unfold runUnitCmd; (repeat' (first | with_reducible assumption | (simp [hs]; done) | with_reducible refine doAcqRelease_keeps _ _  ?_ | with_reducible refine doAcqStop_keeps _ _  ?_ | with_reducible refine doReamResetDma_keeps _ _  ?_ | with_reducible refine doSiteEnable_keeps _ _  ?_ | (split <;> try (rename_i heq; obtain ⟨_, rfl⟩ := Prod.ext_iff.mp heq)) | with_reducible refine State.foldl_keeps _ (fun _ _ _ => ?_) _ _ ?_ | dsimp only | simp only [State.memData_update, State.memData_update_mem] | simp))

theorem runDeviceCmd_keeps (left : Nat) (c : Cmd) (s : State) (hs : storeWf (State.memData s) = true) :
    storeWf ((runDeviceCmd left c s).memData) = true := by
  unfold runDeviceCmd; (repeat' (first | with_reducible assumption | (simp [hs]; done) | with_reducible refine doAttest_keeps _ _  ?_ | with_reducible refine doFeltCancel_keeps _ _  ?_ | with_reducible refine doFeltTimeSet_keeps _ _  ?_ | with_reducible refine doMapClear_keeps _ _  ?_ | with_reducible refine doMapLoad_keeps _ _  ?_ | with_reducible refine doMapSet_keeps _ _  ?_ | with_reducible refine doPopDefine_keeps _ _  ?_ | with_reducible refine doPopFinalise_keeps _ _  ?_ | with_reducible refine doSummarySign_keeps _ _  ?_ | with_reducible refine doUnitPowerDown_keeps _ _  ?_ | with_reducible refine doUnitReset_keeps _ _  ?_ | with_reducible refine doUnitRetire_keeps _ _  ?_ | with_reducible refine doUsageRead_keeps _ _  ?_ | (split <;> try (rename_i heq; obtain ⟨_, rfl⟩ := Prod.ext_iff.mp heq)) | with_reducible refine State.foldl_keeps _ (fun _ _ _ => ?_) _ _ ?_ | dsimp only | simp only [State.memData_update, State.memData_update_mem] | simp))

theorem runCmd_keeps (left : Nat) (c : Cmd) (s : State) (hs : storeWf (State.memData s) = true) :
    storeWf ((runCmd left c s).memData) = true := by
  unfold runCmd; (repeat' (first | with_reducible assumption | (simp [hs]; done) | with_reducible refine runDeviceCmd_keeps _ _ _  ?_ | with_reducible refine runUnitCmd_keeps _ _  ?_ | (split <;> try (rename_i heq; obtain ⟨_, rfl⟩ := Prod.ext_iff.mp heq)) | with_reducible refine State.foldl_keeps _ (fun _ _ _ => ?_) _ _ ?_ | dsimp only | simp only [State.memData_update, State.memData_update_mem] | simp))

theorem State.tryHeld_keeps (s : State) (h : Held) (hs : storeWf (State.memData s) = true) :
    storeWf ((State.tryHeld s h).memData) = true := by
  unfold State.tryHeld; (repeat' (first | with_reducible assumption | (simp [hs]; done) | with_reducible refine runCmd_keeps _ _ _  ?_ | (split <;> try (rename_i heq; obtain ⟨_, rfl⟩ := Prod.ext_iff.mp heq)) | with_reducible refine State.foldl_keeps _ (fun _ _ _ => ?_) _ _ ?_ | dsimp only | simp only [State.memData_update, State.memData_update_mem] | simp))

theorem State.retryHeld_keeps (s : State) (hs : storeWf (State.memData s) = true) :
    storeWf ((State.retryHeld s).memData) = true := by
  unfold State.retryHeld; (repeat' (first | with_reducible assumption | (simp [hs]; done) | with_reducible refine State.tryHeld_keeps _ _  ?_ | (split <;> try (rename_i heq; obtain ⟨_, rfl⟩ := Prod.ext_iff.mp heq)) | with_reducible refine State.foldl_keeps _ (fun _ _ _ => ?_) _ _ ?_ | dsimp only | simp only [State.memData_update, State.memData_update_mem] | simp))

theorem State.releaseWrites_keeps (s : State) (b : Nat) (hs : storeWf (State.memData s) = true) :
    storeWf ((State.releaseWrites s b).memData) = true := by
  unfold State.releaseWrites; (repeat' (first | with_reducible assumption | (simp [hs]; done) | with_reducible refine State.releaseSeq_keeps _ _  ?_ | (split <;> try (rename_i heq; obtain ⟨_, rfl⟩ := Prod.ext_iff.mp heq)) | with_reducible refine State.foldl_keeps _ (fun _ _ _ => ?_) _ _ ?_ | dsimp only | simp only [State.memData_update, State.memData_update_mem] | simp))

theorem State.releaseRings_keeps (s : State) (hs : storeWf (State.memData s) = true) :
    storeWf ((State.releaseRings s).memData) = true := by
  unfold State.releaseRings; (repeat' (first | with_reducible assumption | (simp [hs]; done) | with_reducible refine State.releaseSeq_keeps _ _  ?_ | (split <;> try (rename_i heq; obtain ⟨_, rfl⟩ := Prod.ext_iff.mp heq)) | with_reducible refine State.foldl_keeps _ (fun _ _ _ => ?_) _ _ ?_ | dsimp only | simp only [State.memData_update, State.memData_update_mem] | simp))

theorem State.settle_keeps (s : State) (hs : storeWf (State.memData s) = true) :
    storeWf ((State.settle s).memData) = true := by
  unfold State.settle; (repeat' (first | with_reducible assumption | (simp [hs]; done) | with_reducible refine State.copyRun_keeps _ _  ?_ | with_reducible refine State.handBodies_keeps _  ?_ | with_reducible refine State.popRetry_keeps _  ?_ | with_reducible refine State.releaseRings_keeps _  ?_ | with_reducible refine State.retryHeld_keeps _  ?_ | (split <;> try (rename_i heq; obtain ⟨_, rfl⟩ := Prod.ext_iff.mp heq)) | with_reducible refine State.foldl_keeps _ (fun _ _ _ => ?_) _ _ ?_ | dsimp only | simp only [State.memData_update, State.memData_update_mem] | simp))

theorem State.tick_keeps (s : State) (hs : storeWf (State.memData s) = true) :
    storeWf ((State.tick s).memData) = true := by
  unfold State.tick; (repeat' (first | with_reducible assumption | (simp [hs]; done) | with_reducible refine State.settle_keeps _  ?_ | (split <;> try (rename_i heq; obtain ⟨_, rfl⟩ := Prod.ext_iff.mp heq)) | with_reducible refine State.foldl_keeps _ (fun _ _ _ => ?_) _ _ ?_ | dsimp only | simp only [State.memData_update, State.memData_update_mem] | simp))

theorem afterHeld_keeps (k : State → State) (s : State) (hk : ∀ x0, storeWf (State.memData x0) = true → storeWf ((k x0).memData) = true) (hs : storeWf (State.memData s) = true) :
    storeWf ((afterHeld k s).memData) = true := by
  unfold afterHeld; (repeat' (first | with_reducible assumption | (simp [hs]; done) | with_reducible refine State.retryHeld_keeps _  ?_ | with_reducible refine hk _ ?_ | (split <;> try (rename_i heq; obtain ⟨_, rfl⟩ := Prod.ext_iff.mp heq)) | with_reducible refine State.foldl_keeps _ (fun _ _ _ => ?_) _ _ ?_ | dsimp only | simp only [State.memData_update, State.memData_update_mem] | simp))

theorem programEnded_keeps (b : Nat) (s : State) (hs : storeWf (State.memData s) = true) :
    storeWf ((programEnded b s).memData) = true := by
  unfold programEnded; (repeat' (first | with_reducible assumption | (simp [hs]; done) | with_reducible refine State.releaseWrites_keeps _ _  ?_ | with_reducible refine doProgramEnd_keeps _ _  ?_ | (split <;> try (rename_i heq; obtain ⟨_, rfl⟩ := Prod.ext_iff.mp heq)) | with_reducible refine State.foldl_keeps _ (fun _ _ _ => ?_) _ _ ?_ | dsimp only | simp only [State.memData_update, State.memData_update_mem] | simp))

theorem preempted_keeps (b : Nat) (s : State) (hs : storeWf (State.memData s) = true) :
    storeWf ((preempted b s).memData) = true := by
  unfold preempted; (repeat' (first | with_reducible assumption | (simp [hs]; done) | with_reducible refine doPreemptFrameWrite_keeps _ _  ?_ | (split <;> try (rename_i heq; obtain ⟨_, rfl⟩ := Prod.ext_iff.mp heq)) | with_reducible refine State.foldl_keeps _ (fun _ _ _ => ?_) _ _ ?_ | dsimp only | simp only [State.memData_update, State.memData_update_mem] | simp))

theorem programLimited_keeps (b : Nat) (s : State) (hs : storeWf (State.memData s) = true) :
    storeWf ((programLimited b s).memData) = true := by
  unfold programLimited; (repeat' (first | with_reducible assumption | (simp [hs]; done) | with_reducible refine doProgramTimeLimit_keeps _ _  ?_ | (split <;> try (rename_i heq; obtain ⟨_, rfl⟩ := Prod.ext_iff.mp heq)) | with_reducible refine State.foldl_keeps _ (fun _ _ _ => ?_) _ _ ?_ | dsimp only | simp only [State.memData_update, State.memData_update_mem] | simp))

theorem mayReplay_keeps (b : Nat) (k : State → State) (s : State) (hk : ∀ x0, storeWf (State.memData x0) = true → storeWf ((k x0).memData) = true) (hs : storeWf (State.memData s) = true) :
    storeWf ((mayReplay b k s).memData) = true := by
  unfold mayReplay; (repeat' (first | with_reducible assumption | (simp [hs]; done) | with_reducible refine hk _ ?_ | (split <;> try (rename_i heq; obtain ⟨_, rfl⟩ := Prod.ext_iff.mp heq)) | with_reducible refine State.foldl_keeps _ (fun _ _ _ => ?_) _ _ ?_ | dsimp only | simp only [State.memData_update, State.memData_update_mem] | simp))

theorem idleExited_keeps (s : State) (hs : storeWf (State.memData s) = true) :
    storeWf ((idleExited s).memData) = true := by
  unfold idleExited; (repeat' (first | with_reducible assumption | (simp [hs]; done) | with_reducible refine State.retryHeld_keeps _  ?_ | (split <;> try (rename_i heq; obtain ⟨_, rfl⟩ := Prod.ext_iff.mp heq)) | with_reducible refine State.foldl_keeps _ (fun _ _ _ => ?_) _ _ ?_ | dsimp only | simp only [State.memData_update, State.memData_update_mem] | simp))

theorem clrCounts_keeps (a : Nat) (k : Nat) (w : Nat) (s : State) (hs : storeWf (State.memData s) = true) :
    storeWf ((clrCounts a k w s).memData) = true := by
  unfold clrCounts; (repeat' (first | with_reducible assumption | (simp [hs]; done) | with_reducible refine State.barWrite_keeps _ _ _ _  ?_ | (split <;> try (rename_i heq; obtain ⟨_, rfl⟩ := Prod.ext_iff.mp heq)) | with_reducible refine State.foldl_keeps _ (fun _ _ _ => ?_) _ _ ?_ | dsimp only | simp only [State.memData_update, State.memData_update_mem] | simp))

end Sys2Proof.Machine
end

