-- ==== Sys2Proof/Laws/Regs.lean ====
section
/-! SUPPORT. Register fields: what a write of a field makes each field read. -/

namespace Sys2Proof.Machine

open Sys2Proof

/-! ### Bits of a number -/

theorem testBit_bitsOf (n lo w i : Nat) : (bitsOf n lo w).testBit i = (decide (i < w) && n.testBit (lo + i)) := by
  simp [bitsOf, Nat.testBit_mod_two_pow, Nat.testBit_div_two_pow, Nat.add_comm]

theorem testBit_putBits (q lo w v i : Nat) :
    (putBits q lo w v).testBit i = if lo ≤ i ∧ i < lo + w then v.testBit (i - lo) else q.testBit i := by
  have hsplit : q = 2 ^ (lo + w) * (q / 2 ^ (lo + w)) + (2 ^ lo * bitsOf q lo w + q % 2 ^ lo) := by
    have h1 : q % 2 ^ (lo + w) = 2 ^ lo * bitsOf q lo w + q % 2 ^ lo := by
      rw [bitsOf, Nat.pow_add, Nat.mod_mul, Nat.add_comm]
    rw [← h1]; exact (Nat.div_add_mod _ _).symm
  have hput : putBits q lo w v = 2 ^ (lo + w) * (q / 2 ^ (lo + w)) + (2 ^ lo * (v % 2 ^ w) + q % 2 ^ lo) := by
    unfold putBits
    have hc : bitsOf q lo w * 2 ^ lo = 2 ^ lo * bitsOf q lo w := Nat.mul_comm _ _
    have hd : v % 2 ^ w * 2 ^ lo = 2 ^ lo * (v % 2 ^ w) := Nat.mul_comm _ _
    rw [hc, hd]; omega
  have hlt : 2 ^ lo * (v % 2 ^ w) + q % 2 ^ lo < 2 ^ (lo + w) := by
    have h1 : v % 2 ^ w + 1 ≤ 2 ^ w := Nat.mod_lt _ (Nat.two_pow_pos w)
    have h2 : q % 2 ^ lo < 2 ^ lo := Nat.mod_lt _ (Nat.two_pow_pos lo)
    calc 2 ^ lo * (v % 2 ^ w) + q % 2 ^ lo < 2 ^ lo * (v % 2 ^ w) + 2 ^ lo := by omega
      _ = 2 ^ lo * (v % 2 ^ w + 1) := by rw [Nat.mul_add, Nat.mul_one]
      _ ≤ 2 ^ lo * 2 ^ w := Nat.mul_le_mul_left _ h1
      _ = 2 ^ (lo + w) := (Nat.pow_add ..).symm
  rw [hput, Nat.testBit_two_pow_mul_add _ hlt, Nat.testBit_two_pow_mul_add _ (Nat.mod_lt _ (Nat.two_pow_pos lo))]
  by_cases h1 : i < lo
  · have h' : i < lo + w := by omega
    simp [h1, h', Nat.testBit_mod_two_pow]
  · by_cases h2 : i < lo + w
    · have h3 : lo ≤ i ∧ i < lo + w := by omega
      have h4 : i - lo < w := by omega
      simp [h1, h2, h3, h4, Nat.testBit_mod_two_pow]
    · have h3 : ¬ (lo ≤ i ∧ i < lo + w) := by omega
      have h4 : lo + w + (i - (lo + w)) = i := by omega
      rw [if_neg h2, if_neg h3, Nat.testBit_div_two_pow, Nat.add_comm, h4]

/-! ### Quads -/

theorem State.quad_setQuad_self (s : State) (a : Nat) (v : BitVec 64) : (s.setQuad a v).quad a = v :=
  SMap.get_set_self _ _ _ _

theorem State.quad_setQuad_other (s : State) {a b : Nat} (v : BitVec 64) (h : b ≠ a) :
    (s.setQuad a v).quad b = s.quad b :=
  SMap.get_set_other _ _ _ _ h

/-! ### Fields -/

/-- A field written reads what it was written, modulo its width. -/
theorem State.fld_setFld_self (s : State) (f : Fld) (v : Nat) (h : f.lo + f.width ≤ 64) :
    (s.setFld f v).fld f = v % 2 ^ f.width := by
  unfold State.fld State.setFld
  rw [State.quad_setQuad_self]
  apply Nat.eq_of_testBit_eq
  intro i
  rw [testBit_bitsOf, Nat.testBit_mod_two_pow]
  by_cases hi : i < f.width
  · have h1 : f.lo + i < 64 := by omega
    have h2 : f.lo ≤ f.lo + i ∧ f.lo + i < f.lo + f.width := by omega
    rw [BitVec.toNat_ofNat, Nat.testBit_mod_two_pow, testBit_putBits, if_pos h2]
    simp [hi, h1]
  · simp [hi]

/-- Every register bit outside a field written reads as before. -/
theorem State.regsBut_setFld (s : State) (f : Fld) (v : Nat) : s.regsBut (s.setFld f v) [f] := by
  intro a i h
  unfold State.setFld
  by_cases ha : a = f.addr
  · subst ha
    have h := h f (by simp) rfl
    rw [State.quad_setQuad_self]
    by_cases hi : i < 64
    · simp only [BitVec.toNat_ofNat, Nat.testBit_mod_two_pow, hi, decide_true, Bool.true_and, testBit_putBits, h, if_false]
    · have h1 : (s.quad f.addr).toNat < 2 ^ i :=
        Nat.lt_of_lt_of_le (s.quad f.addr).isLt (Nat.pow_le_pow_right (by omega) (by omega))
      rw [BitVec.toNat_ofNat, Nat.testBit_mod_two_pow, Nat.testBit_lt_two_pow h1]
      simp [hi]
  · rw [State.quad_setQuad_other _ _ ha]

/-- Two states that agree outside some fields agree on every field apart from them. -/
theorem State.fld_of_regsBut {s t : State} {fs : List Fld} (h : s.regsBut t fs) (g : Fld)
    (hg : ∀ f ∈ fs, f.addr = g.addr → f.lo + f.width ≤ g.lo ∨ g.lo + g.width ≤ f.lo) : t.fld g = s.fld g := by
  unfold State.fld
  apply Nat.eq_of_testBit_eq
  intro i
  rw [testBit_bitsOf, testBit_bitsOf]
  by_cases hi : i < g.width
  · simp only [hi, decide_true, Bool.true_and]
    apply h
    intro f hf ha hc
    have := hg f hf ha
    omega
  · simp [hi]

/-- A field apart from the one written reads as before. -/
theorem State.fld_setFld_other (s : State) (f g : Fld) (v : Nat)
    (h : f.addr = g.addr → f.lo + f.width ≤ g.lo ∨ g.lo + g.width ≤ f.lo) : (s.setFld f v).fld g = s.fld g :=
  State.fld_of_regsBut (State.regsBut_setFld s f v) g (by simpa using h)

theorem State.flag_setFlag_self (s : State) (f : Fld) (b : Bool) (h : f.lo + f.width ≤ 64) (hw : 0 < f.width) :
    (s.setFlag f b).flag f = b := by
  unfold State.flag State.setFlag
  rw [State.fld_setFld_self _ _ _ h]
  have : 1 < 2 ^ f.width := Nat.one_lt_two_pow (by omega)
  cases b <;> simp [b2n]
  omega

theorem State.flag_setFld_other (s : State) (f g : Fld) (v : Nat)
    (h : f.addr = g.addr → f.lo + f.width ≤ g.lo ∨ g.lo + g.width ≤ f.lo) : (s.setFld f v).flag g = s.flag g := by
  unfold State.flag
  rw [State.fld_setFld_other s f g v h]

theorem State.flag_setFlag_other (s : State) (f g : Fld) (b : Bool)
    (h : f.addr = g.addr → f.lo + f.width ≤ g.lo ∨ g.lo + g.width ≤ f.lo) : (s.setFlag f b).flag g = s.flag g :=
  State.flag_setFld_other s f g _ h

theorem State.fld_setFlag_other (s : State) (f g : Fld) (b : Bool)
    (h : f.addr = g.addr → f.lo + f.width ≤ g.lo ∨ g.lo + g.width ≤ f.lo) : (s.setFlag f b).fld g = s.fld g :=
  State.fld_setFld_other s f g _ h

/-! ### Frames -/

theorem State.regsBut_refl (s : State) (fs : List Fld) : s.regsBut s fs := fun _ _ _ => rfl

theorem State.regsBut_trans {s t u : State} {fs gs : List Fld} (h1 : s.regsBut t fs) (h2 : t.regsBut u gs) :
    s.regsBut u (fs ++ gs) := by
  intro a i h
  rw [h2 a i (fun f hf => h f (List.mem_append_right _ hf)), h1 a i (fun f hf => h f (List.mem_append_left _ hf))]

theorem State.regsBut_mono {s t : State} {fs gs : List Fld} (h : s.regsBut t fs) (hs : ∀ f ∈ fs, f ∈ gs) : s.regsBut t gs :=
  fun a i hi => h a i (fun f hf => hi f (hs f hf))

theorem State.onlyRegs_refl (s : State) (fs : List Fld) : s.onlyRegs s fs := ⟨rfl, State.regsBut_refl s fs⟩

theorem State.onlyRegs_setFld (s : State) (f : Fld) (v : Nat) : s.onlyRegs (s.setFld f v) [f] :=
  ⟨rfl, State.regsBut_setFld s f v⟩

theorem State.onlyRegs_trans {s t u : State} {fs gs : List Fld} (h1 : s.onlyRegs t fs) (h2 : t.onlyRegs u gs) :
    s.onlyRegs u (fs ++ gs) := by
  refine ⟨?_, State.regsBut_trans h1.2 h2.2⟩
  have h : { u with regs := s.regs } = ({ ({ u with regs := t.regs } : State) with regs := s.regs } : State) := rfl
  rw [h, h2.1, h1.1]

theorem State.onlyRegs_mono {s t : State} {fs gs : List Fld} (h : s.onlyRegs t fs) (hs : ∀ f ∈ fs, f ∈ gs) :
    s.onlyRegs t gs :=
  ⟨h.1, State.regsBut_mono h.2 hs⟩

end Sys2Proof.Machine
end

