-- ==== Sys2Proof/Laws/State.lean ====
section
/-! SUPPORT. What the basic updates of a state change, field by field. -/

namespace Sys2Proof.Machine

open Sys2Proof

/-! ### setQuad -/

@[simp] theorem State.setQuad_pending (s : State) (a : Nat) (v : BitVec 64) : (s.setQuad a v).pending = s.pending := rfl
@[simp] theorem State.setQuad_applied (s : State) (a : Nat) (v : BitVec 64) : (s.setQuad a v).applied = s.applied := rfl
@[simp] theorem State.setQuad_timing (s : State) (a : Nat) (v : BitVec 64) : (s.setQuad a v).timing = s.timing := rfl
@[simp] theorem State.setQuad_timingApplied (s : State) (a : Nat) (v : BitVec 64) : (s.setQuad a v).timingApplied = s.timingApplied := rfl
@[simp] theorem State.setQuad_fuse (s : State) (a : Nat) (v : BitVec 64) : (s.setQuad a v).fuse = s.fuse := rfl
@[simp] theorem State.setQuad_burned (s : State) (a : Nat) (v : BitVec 64) : (s.setQuad a v).burned = s.burned := rfl
@[simp] theorem State.setQuad_perst (s : State) (a : Nat) (v : BitVec 64) : (s.setQuad a v).perst = s.perst := rfl
@[simp] theorem State.setQuad_internalReset (s : State) (a : Nat) (v : BitVec 64) : (s.setQuad a v).internalReset = s.internalReset := rfl
@[simp] theorem State.setQuad_xref (s : State) (a : Nat) (v : BitVec 64) : (s.setQuad a v).xref = s.xref := rfl
@[simp] theorem State.setQuad_hi (s : State) (a : Nat) (v : BitVec 64) : (s.setQuad a v).hi = s.hi := rfl
@[simp] theorem State.setQuad_ev (s : State) (a : Nat) (v : BitVec 64) : (s.setQuad a v).ev = s.ev := rfl
@[simp] theorem State.setQuad_mem (s : State) (a : Nat) (v : BitVec 64) : (s.setQuad a v).mem = s.mem := rfl
@[simp] theorem State.setQuad_held (s : State) (a : Nat) (v : BitVec 64) : (s.setQuad a v).held = s.held := rfl
@[simp] theorem State.setQuad_pins (s : State) (a : Nat) (v : BitVec 64) : (s.setQuad a v).pins = s.pins := rfl
@[simp] theorem State.setQuad_groups (s : State) (a : Nat) (v : BitVec 64) : (s.setQuad a v).groups = s.groups := rfl
@[simp] theorem State.setQuad_programs (s : State) (a : Nat) (v : BitVec 64) : (s.setQuad a v).programs = s.programs := rfl
@[simp] theorem State.setQuad_starts (s : State) (a : Nat) (v : BitVec 64) : (s.setQuad a v).starts = s.starts := rfl
@[simp] theorem State.setQuad_seqs (s : State) (a : Nat) (v : BitVec 64) : (s.setQuad a v).seqs = s.seqs := rfl
@[simp] theorem State.setQuad_rings (s : State) (a : Nat) (v : BitVec 64) : (s.setQuad a v).rings = s.rings := rfl
@[simp] theorem State.setQuad_clusters (s : State) (a : Nat) (v : BitVec 64) : (s.setQuad a v).clusters = s.clusters := rfl
@[simp] theorem State.setQuad_tmus (s : State) (a : Nat) (v : BitVec 64) : (s.setQuad a v).tmus = s.tmus := rfl
@[simp] theorem State.setQuad_awgs (s : State) (a : Nat) (v : BitVec 64) : (s.setQuad a v).awgs = s.awgs := rfl
@[simp] theorem State.setQuad_dgs (s : State) (a : Nat) (v : BitVec 64) : (s.setQuad a v).dgs = s.dgs := rfl
@[simp] theorem State.setQuad_dps (s : State) (a : Nat) (v : BitVec 64) : (s.setQuad a v).dps = s.dps := rfl
@[simp] theorem State.setQuad_swgHeld (s : State) (a : Nat) (v : BitVec 64) : (s.setQuad a v).swgHeld = s.swgHeld := rfl
@[simp] theorem State.setQuad_popTests (s : State) (a : Nat) (v : BitVec 64) : (s.setQuad a v).popTests = s.popTests := rfl
@[simp] theorem State.setQuad_dma (s : State) (a : Nat) (v : BitVec 64) : (s.setQuad a v).dma = s.dma := rfl
@[simp] theorem State.setQuad_felt (s : State) (a : Nat) (v : BitVec 64) : (s.setQuad a v).felt = s.felt := rfl
@[simp] theorem State.setQuad_power (s : State) (a : Nat) (v : BitVec 64) : (s.setQuad a v).power = s.power := rfl
@[simp] theorem State.setQuad_sec (s : State) (a : Nat) (v : BitVec 64) : (s.setQuad a v).sec = s.sec := rfl
@[simp] theorem State.setQuad_cals (s : State) (a : Nat) (v : BitVec 64) : (s.setQuad a v).cals = s.cals := rfl
@[simp] theorem State.setQuad_ser (s : State) (a : Nat) (v : BitVec 64) : (s.setQuad a v).ser = s.ser := rfl
@[simp] theorem State.setQuad_units (s : State) (a : Nat) (v : BitVec 64) : (s.setQuad a v).units = s.units := rfl
@[simp] theorem State.setQuad_jtag (s : State) (a : Nat) (v : BitVec 64) : (s.setQuad a v).jtag = s.jtag := rfl
@[simp] theorem State.setQuad_causes (s : State) (a : Nat) (v : BitVec 64) : (s.setQuad a v).causes = s.causes := rfl
@[simp] theorem State.setQuad_popInput (s : State) (a : Nat) (v : BitVec 64) : (s.setQuad a v).popInput = s.popInput := rfl
@[simp] theorem State.setQuad_draws (s : State) (a : Nat) (v : BitVec 64) : (s.setQuad a v).draws = s.draws := rfl

/-! ### setFld -/

@[simp] theorem State.setFld_pending (s : State) (f : Fld) (v : Nat) : (s.setFld f v).pending = s.pending := rfl
@[simp] theorem State.setFld_applied (s : State) (f : Fld) (v : Nat) : (s.setFld f v).applied = s.applied := rfl
@[simp] theorem State.setFld_timing (s : State) (f : Fld) (v : Nat) : (s.setFld f v).timing = s.timing := rfl
@[simp] theorem State.setFld_timingApplied (s : State) (f : Fld) (v : Nat) : (s.setFld f v).timingApplied = s.timingApplied := rfl
@[simp] theorem State.setFld_fuse (s : State) (f : Fld) (v : Nat) : (s.setFld f v).fuse = s.fuse := rfl
@[simp] theorem State.setFld_burned (s : State) (f : Fld) (v : Nat) : (s.setFld f v).burned = s.burned := rfl
@[simp] theorem State.setFld_perst (s : State) (f : Fld) (v : Nat) : (s.setFld f v).perst = s.perst := rfl
@[simp] theorem State.setFld_internalReset (s : State) (f : Fld) (v : Nat) : (s.setFld f v).internalReset = s.internalReset := rfl
@[simp] theorem State.setFld_xref (s : State) (f : Fld) (v : Nat) : (s.setFld f v).xref = s.xref := rfl
@[simp] theorem State.setFld_hi (s : State) (f : Fld) (v : Nat) : (s.setFld f v).hi = s.hi := rfl
@[simp] theorem State.setFld_ev (s : State) (f : Fld) (v : Nat) : (s.setFld f v).ev = s.ev := rfl
@[simp] theorem State.setFld_mem (s : State) (f : Fld) (v : Nat) : (s.setFld f v).mem = s.mem := rfl
@[simp] theorem State.setFld_held (s : State) (f : Fld) (v : Nat) : (s.setFld f v).held = s.held := rfl
@[simp] theorem State.setFld_pins (s : State) (f : Fld) (v : Nat) : (s.setFld f v).pins = s.pins := rfl
@[simp] theorem State.setFld_groups (s : State) (f : Fld) (v : Nat) : (s.setFld f v).groups = s.groups := rfl
@[simp] theorem State.setFld_programs (s : State) (f : Fld) (v : Nat) : (s.setFld f v).programs = s.programs := rfl
@[simp] theorem State.setFld_starts (s : State) (f : Fld) (v : Nat) : (s.setFld f v).starts = s.starts := rfl
@[simp] theorem State.setFld_seqs (s : State) (f : Fld) (v : Nat) : (s.setFld f v).seqs = s.seqs := rfl
@[simp] theorem State.setFld_rings (s : State) (f : Fld) (v : Nat) : (s.setFld f v).rings = s.rings := rfl
@[simp] theorem State.setFld_clusters (s : State) (f : Fld) (v : Nat) : (s.setFld f v).clusters = s.clusters := rfl
@[simp] theorem State.setFld_tmus (s : State) (f : Fld) (v : Nat) : (s.setFld f v).tmus = s.tmus := rfl
@[simp] theorem State.setFld_awgs (s : State) (f : Fld) (v : Nat) : (s.setFld f v).awgs = s.awgs := rfl
@[simp] theorem State.setFld_dgs (s : State) (f : Fld) (v : Nat) : (s.setFld f v).dgs = s.dgs := rfl
@[simp] theorem State.setFld_dps (s : State) (f : Fld) (v : Nat) : (s.setFld f v).dps = s.dps := rfl
@[simp] theorem State.setFld_swgHeld (s : State) (f : Fld) (v : Nat) : (s.setFld f v).swgHeld = s.swgHeld := rfl
@[simp] theorem State.setFld_popTests (s : State) (f : Fld) (v : Nat) : (s.setFld f v).popTests = s.popTests := rfl
@[simp] theorem State.setFld_dma (s : State) (f : Fld) (v : Nat) : (s.setFld f v).dma = s.dma := rfl
@[simp] theorem State.setFld_felt (s : State) (f : Fld) (v : Nat) : (s.setFld f v).felt = s.felt := rfl
@[simp] theorem State.setFld_power (s : State) (f : Fld) (v : Nat) : (s.setFld f v).power = s.power := rfl
@[simp] theorem State.setFld_sec (s : State) (f : Fld) (v : Nat) : (s.setFld f v).sec = s.sec := rfl
@[simp] theorem State.setFld_cals (s : State) (f : Fld) (v : Nat) : (s.setFld f v).cals = s.cals := rfl
@[simp] theorem State.setFld_ser (s : State) (f : Fld) (v : Nat) : (s.setFld f v).ser = s.ser := rfl
@[simp] theorem State.setFld_units (s : State) (f : Fld) (v : Nat) : (s.setFld f v).units = s.units := rfl
@[simp] theorem State.setFld_jtag (s : State) (f : Fld) (v : Nat) : (s.setFld f v).jtag = s.jtag := rfl
@[simp] theorem State.setFld_causes (s : State) (f : Fld) (v : Nat) : (s.setFld f v).causes = s.causes := rfl
@[simp] theorem State.setFld_popInput (s : State) (f : Fld) (v : Nat) : (s.setFld f v).popInput = s.popInput := rfl
@[simp] theorem State.setFld_draws (s : State) (f : Fld) (v : Nat) : (s.setFld f v).draws = s.draws := rfl

/-! ### setFlag -/

@[simp] theorem State.setFlag_pending (s : State) (f : Fld) (b : Bool) : (s.setFlag f b).pending = s.pending := rfl
@[simp] theorem State.setFlag_applied (s : State) (f : Fld) (b : Bool) : (s.setFlag f b).applied = s.applied := rfl
@[simp] theorem State.setFlag_timing (s : State) (f : Fld) (b : Bool) : (s.setFlag f b).timing = s.timing := rfl
@[simp] theorem State.setFlag_timingApplied (s : State) (f : Fld) (b : Bool) : (s.setFlag f b).timingApplied = s.timingApplied := rfl
@[simp] theorem State.setFlag_fuse (s : State) (f : Fld) (b : Bool) : (s.setFlag f b).fuse = s.fuse := rfl
@[simp] theorem State.setFlag_burned (s : State) (f : Fld) (b : Bool) : (s.setFlag f b).burned = s.burned := rfl
@[simp] theorem State.setFlag_perst (s : State) (f : Fld) (b : Bool) : (s.setFlag f b).perst = s.perst := rfl
@[simp] theorem State.setFlag_internalReset (s : State) (f : Fld) (b : Bool) : (s.setFlag f b).internalReset = s.internalReset := rfl
@[simp] theorem State.setFlag_xref (s : State) (f : Fld) (b : Bool) : (s.setFlag f b).xref = s.xref := rfl
@[simp] theorem State.setFlag_hi (s : State) (f : Fld) (b : Bool) : (s.setFlag f b).hi = s.hi := rfl
@[simp] theorem State.setFlag_ev (s : State) (f : Fld) (b : Bool) : (s.setFlag f b).ev = s.ev := rfl
@[simp] theorem State.setFlag_mem (s : State) (f : Fld) (b : Bool) : (s.setFlag f b).mem = s.mem := rfl
@[simp] theorem State.setFlag_held (s : State) (f : Fld) (b : Bool) : (s.setFlag f b).held = s.held := rfl
@[simp] theorem State.setFlag_pins (s : State) (f : Fld) (b : Bool) : (s.setFlag f b).pins = s.pins := rfl
@[simp] theorem State.setFlag_groups (s : State) (f : Fld) (b : Bool) : (s.setFlag f b).groups = s.groups := rfl
@[simp] theorem State.setFlag_programs (s : State) (f : Fld) (b : Bool) : (s.setFlag f b).programs = s.programs := rfl
@[simp] theorem State.setFlag_starts (s : State) (f : Fld) (b : Bool) : (s.setFlag f b).starts = s.starts := rfl
@[simp] theorem State.setFlag_seqs (s : State) (f : Fld) (b : Bool) : (s.setFlag f b).seqs = s.seqs := rfl
@[simp] theorem State.setFlag_rings (s : State) (f : Fld) (b : Bool) : (s.setFlag f b).rings = s.rings := rfl
@[simp] theorem State.setFlag_clusters (s : State) (f : Fld) (b : Bool) : (s.setFlag f b).clusters = s.clusters := rfl
@[simp] theorem State.setFlag_tmus (s : State) (f : Fld) (b : Bool) : (s.setFlag f b).tmus = s.tmus := rfl
@[simp] theorem State.setFlag_awgs (s : State) (f : Fld) (b : Bool) : (s.setFlag f b).awgs = s.awgs := rfl
@[simp] theorem State.setFlag_dgs (s : State) (f : Fld) (b : Bool) : (s.setFlag f b).dgs = s.dgs := rfl
@[simp] theorem State.setFlag_dps (s : State) (f : Fld) (b : Bool) : (s.setFlag f b).dps = s.dps := rfl
@[simp] theorem State.setFlag_swgHeld (s : State) (f : Fld) (b : Bool) : (s.setFlag f b).swgHeld = s.swgHeld := rfl
@[simp] theorem State.setFlag_popTests (s : State) (f : Fld) (b : Bool) : (s.setFlag f b).popTests = s.popTests := rfl
@[simp] theorem State.setFlag_dma (s : State) (f : Fld) (b : Bool) : (s.setFlag f b).dma = s.dma := rfl
@[simp] theorem State.setFlag_felt (s : State) (f : Fld) (b : Bool) : (s.setFlag f b).felt = s.felt := rfl
@[simp] theorem State.setFlag_power (s : State) (f : Fld) (b : Bool) : (s.setFlag f b).power = s.power := rfl
@[simp] theorem State.setFlag_sec (s : State) (f : Fld) (b : Bool) : (s.setFlag f b).sec = s.sec := rfl
@[simp] theorem State.setFlag_cals (s : State) (f : Fld) (b : Bool) : (s.setFlag f b).cals = s.cals := rfl
@[simp] theorem State.setFlag_ser (s : State) (f : Fld) (b : Bool) : (s.setFlag f b).ser = s.ser := rfl
@[simp] theorem State.setFlag_units (s : State) (f : Fld) (b : Bool) : (s.setFlag f b).units = s.units := rfl
@[simp] theorem State.setFlag_jtag (s : State) (f : Fld) (b : Bool) : (s.setFlag f b).jtag = s.jtag := rfl
@[simp] theorem State.setFlag_causes (s : State) (f : Fld) (b : Bool) : (s.setFlag f b).causes = s.causes := rfl
@[simp] theorem State.setFlag_popInput (s : State) (f : Fld) (b : Bool) : (s.setFlag f b).popInput = s.popInput := rfl
@[simp] theorem State.setFlag_draws (s : State) (f : Fld) (b : Bool) : (s.setFlag f b).draws = s.draws := rfl

/-! ### bump -/

@[simp] theorem State.bump_pending (s : State) (f : Fld) (k : Nat) : (s.bump f k).pending = s.pending := rfl
@[simp] theorem State.bump_applied (s : State) (f : Fld) (k : Nat) : (s.bump f k).applied = s.applied := rfl
@[simp] theorem State.bump_timing (s : State) (f : Fld) (k : Nat) : (s.bump f k).timing = s.timing := rfl
@[simp] theorem State.bump_timingApplied (s : State) (f : Fld) (k : Nat) : (s.bump f k).timingApplied = s.timingApplied := rfl
@[simp] theorem State.bump_fuse (s : State) (f : Fld) (k : Nat) : (s.bump f k).fuse = s.fuse := rfl
@[simp] theorem State.bump_burned (s : State) (f : Fld) (k : Nat) : (s.bump f k).burned = s.burned := rfl
@[simp] theorem State.bump_perst (s : State) (f : Fld) (k : Nat) : (s.bump f k).perst = s.perst := rfl
@[simp] theorem State.bump_internalReset (s : State) (f : Fld) (k : Nat) : (s.bump f k).internalReset = s.internalReset := rfl
@[simp] theorem State.bump_xref (s : State) (f : Fld) (k : Nat) : (s.bump f k).xref = s.xref := rfl
@[simp] theorem State.bump_hi (s : State) (f : Fld) (k : Nat) : (s.bump f k).hi = s.hi := rfl
@[simp] theorem State.bump_ev (s : State) (f : Fld) (k : Nat) : (s.bump f k).ev = s.ev := rfl
@[simp] theorem State.bump_mem (s : State) (f : Fld) (k : Nat) : (s.bump f k).mem = s.mem := rfl
@[simp] theorem State.bump_held (s : State) (f : Fld) (k : Nat) : (s.bump f k).held = s.held := rfl
@[simp] theorem State.bump_pins (s : State) (f : Fld) (k : Nat) : (s.bump f k).pins = s.pins := rfl
@[simp] theorem State.bump_groups (s : State) (f : Fld) (k : Nat) : (s.bump f k).groups = s.groups := rfl
@[simp] theorem State.bump_programs (s : State) (f : Fld) (k : Nat) : (s.bump f k).programs = s.programs := rfl
@[simp] theorem State.bump_starts (s : State) (f : Fld) (k : Nat) : (s.bump f k).starts = s.starts := rfl
@[simp] theorem State.bump_seqs (s : State) (f : Fld) (k : Nat) : (s.bump f k).seqs = s.seqs := rfl
@[simp] theorem State.bump_rings (s : State) (f : Fld) (k : Nat) : (s.bump f k).rings = s.rings := rfl
@[simp] theorem State.bump_clusters (s : State) (f : Fld) (k : Nat) : (s.bump f k).clusters = s.clusters := rfl
@[simp] theorem State.bump_tmus (s : State) (f : Fld) (k : Nat) : (s.bump f k).tmus = s.tmus := rfl
@[simp] theorem State.bump_awgs (s : State) (f : Fld) (k : Nat) : (s.bump f k).awgs = s.awgs := rfl
@[simp] theorem State.bump_dgs (s : State) (f : Fld) (k : Nat) : (s.bump f k).dgs = s.dgs := rfl
@[simp] theorem State.bump_dps (s : State) (f : Fld) (k : Nat) : (s.bump f k).dps = s.dps := rfl
@[simp] theorem State.bump_swgHeld (s : State) (f : Fld) (k : Nat) : (s.bump f k).swgHeld = s.swgHeld := rfl
@[simp] theorem State.bump_popTests (s : State) (f : Fld) (k : Nat) : (s.bump f k).popTests = s.popTests := rfl
@[simp] theorem State.bump_dma (s : State) (f : Fld) (k : Nat) : (s.bump f k).dma = s.dma := rfl
@[simp] theorem State.bump_felt (s : State) (f : Fld) (k : Nat) : (s.bump f k).felt = s.felt := rfl
@[simp] theorem State.bump_power (s : State) (f : Fld) (k : Nat) : (s.bump f k).power = s.power := rfl
@[simp] theorem State.bump_sec (s : State) (f : Fld) (k : Nat) : (s.bump f k).sec = s.sec := rfl
@[simp] theorem State.bump_cals (s : State) (f : Fld) (k : Nat) : (s.bump f k).cals = s.cals := rfl
@[simp] theorem State.bump_ser (s : State) (f : Fld) (k : Nat) : (s.bump f k).ser = s.ser := rfl
@[simp] theorem State.bump_units (s : State) (f : Fld) (k : Nat) : (s.bump f k).units = s.units := rfl
@[simp] theorem State.bump_jtag (s : State) (f : Fld) (k : Nat) : (s.bump f k).jtag = s.jtag := rfl
@[simp] theorem State.bump_causes (s : State) (f : Fld) (k : Nat) : (s.bump f k).causes = s.causes := rfl
@[simp] theorem State.bump_popInput (s : State) (f : Fld) (k : Nat) : (s.bump f k).popInput = s.popInput := rfl
@[simp] theorem State.bump_draws (s : State) (f : Fld) (k : Nat) : (s.bump f k).draws = s.draws := rfl

/-! ### applyVal -/

@[simp] theorem State.applyVal_pending (s : State) (f : Fld) (v : Nat) : (s.applyVal f v).pending = s.pending := rfl
@[simp] theorem State.applyVal_regs (s : State) (f : Fld) (v : Nat) : (s.applyVal f v).regs = s.regs := rfl
@[simp] theorem State.applyVal_timing (s : State) (f : Fld) (v : Nat) : (s.applyVal f v).timing = s.timing := rfl
@[simp] theorem State.applyVal_timingApplied (s : State) (f : Fld) (v : Nat) : (s.applyVal f v).timingApplied = s.timingApplied := rfl
@[simp] theorem State.applyVal_fuse (s : State) (f : Fld) (v : Nat) : (s.applyVal f v).fuse = s.fuse := rfl
@[simp] theorem State.applyVal_burned (s : State) (f : Fld) (v : Nat) : (s.applyVal f v).burned = s.burned := rfl
@[simp] theorem State.applyVal_perst (s : State) (f : Fld) (v : Nat) : (s.applyVal f v).perst = s.perst := rfl
@[simp] theorem State.applyVal_internalReset (s : State) (f : Fld) (v : Nat) : (s.applyVal f v).internalReset = s.internalReset := rfl
@[simp] theorem State.applyVal_xref (s : State) (f : Fld) (v : Nat) : (s.applyVal f v).xref = s.xref := rfl
@[simp] theorem State.applyVal_hi (s : State) (f : Fld) (v : Nat) : (s.applyVal f v).hi = s.hi := rfl
@[simp] theorem State.applyVal_ev (s : State) (f : Fld) (v : Nat) : (s.applyVal f v).ev = s.ev := rfl
@[simp] theorem State.applyVal_mem (s : State) (f : Fld) (v : Nat) : (s.applyVal f v).mem = s.mem := rfl
@[simp] theorem State.applyVal_held (s : State) (f : Fld) (v : Nat) : (s.applyVal f v).held = s.held := rfl
@[simp] theorem State.applyVal_pins (s : State) (f : Fld) (v : Nat) : (s.applyVal f v).pins = s.pins := rfl
@[simp] theorem State.applyVal_groups (s : State) (f : Fld) (v : Nat) : (s.applyVal f v).groups = s.groups := rfl
@[simp] theorem State.applyVal_programs (s : State) (f : Fld) (v : Nat) : (s.applyVal f v).programs = s.programs := rfl
@[simp] theorem State.applyVal_starts (s : State) (f : Fld) (v : Nat) : (s.applyVal f v).starts = s.starts := rfl
@[simp] theorem State.applyVal_seqs (s : State) (f : Fld) (v : Nat) : (s.applyVal f v).seqs = s.seqs := rfl
@[simp] theorem State.applyVal_rings (s : State) (f : Fld) (v : Nat) : (s.applyVal f v).rings = s.rings := rfl
@[simp] theorem State.applyVal_clusters (s : State) (f : Fld) (v : Nat) : (s.applyVal f v).clusters = s.clusters := rfl
@[simp] theorem State.applyVal_tmus (s : State) (f : Fld) (v : Nat) : (s.applyVal f v).tmus = s.tmus := rfl
@[simp] theorem State.applyVal_awgs (s : State) (f : Fld) (v : Nat) : (s.applyVal f v).awgs = s.awgs := rfl
@[simp] theorem State.applyVal_dgs (s : State) (f : Fld) (v : Nat) : (s.applyVal f v).dgs = s.dgs := rfl
@[simp] theorem State.applyVal_dps (s : State) (f : Fld) (v : Nat) : (s.applyVal f v).dps = s.dps := rfl
@[simp] theorem State.applyVal_swgHeld (s : State) (f : Fld) (v : Nat) : (s.applyVal f v).swgHeld = s.swgHeld := rfl
@[simp] theorem State.applyVal_popTests (s : State) (f : Fld) (v : Nat) : (s.applyVal f v).popTests = s.popTests := rfl
@[simp] theorem State.applyVal_dma (s : State) (f : Fld) (v : Nat) : (s.applyVal f v).dma = s.dma := rfl
@[simp] theorem State.applyVal_felt (s : State) (f : Fld) (v : Nat) : (s.applyVal f v).felt = s.felt := rfl
@[simp] theorem State.applyVal_power (s : State) (f : Fld) (v : Nat) : (s.applyVal f v).power = s.power := rfl
@[simp] theorem State.applyVal_sec (s : State) (f : Fld) (v : Nat) : (s.applyVal f v).sec = s.sec := rfl
@[simp] theorem State.applyVal_cals (s : State) (f : Fld) (v : Nat) : (s.applyVal f v).cals = s.cals := rfl
@[simp] theorem State.applyVal_ser (s : State) (f : Fld) (v : Nat) : (s.applyVal f v).ser = s.ser := rfl
@[simp] theorem State.applyVal_units (s : State) (f : Fld) (v : Nat) : (s.applyVal f v).units = s.units := rfl
@[simp] theorem State.applyVal_jtag (s : State) (f : Fld) (v : Nat) : (s.applyVal f v).jtag = s.jtag := rfl
@[simp] theorem State.applyVal_causes (s : State) (f : Fld) (v : Nat) : (s.applyVal f v).causes = s.causes := rfl
@[simp] theorem State.applyVal_popInput (s : State) (f : Fld) (v : Nat) : (s.applyVal f v).popInput = s.popInput := rfl
@[simp] theorem State.applyVal_draws (s : State) (f : Fld) (v : Nat) : (s.applyVal f v).draws = s.draws := rfl

/-! ### hold -/

@[simp] theorem State.hold_pending (s : State) (c : Cmd) (w : WaitOn) : (s.hold c w).pending = s.pending := rfl
@[simp] theorem State.hold_regs (s : State) (c : Cmd) (w : WaitOn) : (s.hold c w).regs = s.regs := rfl
@[simp] theorem State.hold_applied (s : State) (c : Cmd) (w : WaitOn) : (s.hold c w).applied = s.applied := rfl
@[simp] theorem State.hold_timing (s : State) (c : Cmd) (w : WaitOn) : (s.hold c w).timing = s.timing := rfl
@[simp] theorem State.hold_timingApplied (s : State) (c : Cmd) (w : WaitOn) : (s.hold c w).timingApplied = s.timingApplied := rfl
@[simp] theorem State.hold_fuse (s : State) (c : Cmd) (w : WaitOn) : (s.hold c w).fuse = s.fuse := rfl
@[simp] theorem State.hold_burned (s : State) (c : Cmd) (w : WaitOn) : (s.hold c w).burned = s.burned := rfl
@[simp] theorem State.hold_perst (s : State) (c : Cmd) (w : WaitOn) : (s.hold c w).perst = s.perst := rfl
@[simp] theorem State.hold_internalReset (s : State) (c : Cmd) (w : WaitOn) : (s.hold c w).internalReset = s.internalReset := rfl
@[simp] theorem State.hold_xref (s : State) (c : Cmd) (w : WaitOn) : (s.hold c w).xref = s.xref := rfl
@[simp] theorem State.hold_hi (s : State) (c : Cmd) (w : WaitOn) : (s.hold c w).hi = s.hi := rfl
@[simp] theorem State.hold_ev (s : State) (c : Cmd) (w : WaitOn) : (s.hold c w).ev = s.ev := rfl
@[simp] theorem State.hold_mem (s : State) (c : Cmd) (w : WaitOn) : (s.hold c w).mem = s.mem := rfl
@[simp] theorem State.hold_pins (s : State) (c : Cmd) (w : WaitOn) : (s.hold c w).pins = s.pins := rfl
@[simp] theorem State.hold_groups (s : State) (c : Cmd) (w : WaitOn) : (s.hold c w).groups = s.groups := rfl
@[simp] theorem State.hold_programs (s : State) (c : Cmd) (w : WaitOn) : (s.hold c w).programs = s.programs := rfl
@[simp] theorem State.hold_starts (s : State) (c : Cmd) (w : WaitOn) : (s.hold c w).starts = s.starts := rfl
@[simp] theorem State.hold_seqs (s : State) (c : Cmd) (w : WaitOn) : (s.hold c w).seqs = s.seqs := rfl
@[simp] theorem State.hold_rings (s : State) (c : Cmd) (w : WaitOn) : (s.hold c w).rings = s.rings := rfl
@[simp] theorem State.hold_clusters (s : State) (c : Cmd) (w : WaitOn) : (s.hold c w).clusters = s.clusters := rfl
@[simp] theorem State.hold_tmus (s : State) (c : Cmd) (w : WaitOn) : (s.hold c w).tmus = s.tmus := rfl
@[simp] theorem State.hold_awgs (s : State) (c : Cmd) (w : WaitOn) : (s.hold c w).awgs = s.awgs := rfl
@[simp] theorem State.hold_dgs (s : State) (c : Cmd) (w : WaitOn) : (s.hold c w).dgs = s.dgs := rfl
@[simp] theorem State.hold_dps (s : State) (c : Cmd) (w : WaitOn) : (s.hold c w).dps = s.dps := rfl
@[simp] theorem State.hold_swgHeld (s : State) (c : Cmd) (w : WaitOn) : (s.hold c w).swgHeld = s.swgHeld := rfl
@[simp] theorem State.hold_popTests (s : State) (c : Cmd) (w : WaitOn) : (s.hold c w).popTests = s.popTests := rfl
@[simp] theorem State.hold_dma (s : State) (c : Cmd) (w : WaitOn) : (s.hold c w).dma = s.dma := rfl
@[simp] theorem State.hold_felt (s : State) (c : Cmd) (w : WaitOn) : (s.hold c w).felt = s.felt := rfl
@[simp] theorem State.hold_power (s : State) (c : Cmd) (w : WaitOn) : (s.hold c w).power = s.power := rfl
@[simp] theorem State.hold_sec (s : State) (c : Cmd) (w : WaitOn) : (s.hold c w).sec = s.sec := rfl
@[simp] theorem State.hold_cals (s : State) (c : Cmd) (w : WaitOn) : (s.hold c w).cals = s.cals := rfl
@[simp] theorem State.hold_ser (s : State) (c : Cmd) (w : WaitOn) : (s.hold c w).ser = s.ser := rfl
@[simp] theorem State.hold_units (s : State) (c : Cmd) (w : WaitOn) : (s.hold c w).units = s.units := rfl
@[simp] theorem State.hold_jtag (s : State) (c : Cmd) (w : WaitOn) : (s.hold c w).jtag = s.jtag := rfl
@[simp] theorem State.hold_causes (s : State) (c : Cmd) (w : WaitOn) : (s.hold c w).causes = s.causes := rfl
@[simp] theorem State.hold_popInput (s : State) (c : Cmd) (w : WaitOn) : (s.hold c w).popInput = s.popInput := rfl
@[simp] theorem State.hold_draws (s : State) (c : Cmd) (w : WaitOn) : (s.hold c w).draws = s.draws := rfl

/-! ### undispatch -/

@[simp] theorem State.undispatch_pending (s : State) (c : Cmd) : (s.undispatch c).pending = s.pending := by
  unfold State.undispatch State.accepts; (repeat' split) <;> rfl
@[simp] theorem State.undispatch_regs (s : State) (c : Cmd) : (s.undispatch c).regs = s.regs := by
  unfold State.undispatch State.accepts; (repeat' split) <;> rfl
@[simp] theorem State.undispatch_applied (s : State) (c : Cmd) : (s.undispatch c).applied = s.applied := by
  unfold State.undispatch State.accepts; (repeat' split) <;> rfl
@[simp] theorem State.undispatch_timing (s : State) (c : Cmd) : (s.undispatch c).timing = s.timing := by
  unfold State.undispatch State.accepts; (repeat' split) <;> rfl
@[simp] theorem State.undispatch_timingApplied (s : State) (c : Cmd) : (s.undispatch c).timingApplied = s.timingApplied := by
  unfold State.undispatch State.accepts; (repeat' split) <;> rfl
@[simp] theorem State.undispatch_fuse (s : State) (c : Cmd) : (s.undispatch c).fuse = s.fuse := by
  unfold State.undispatch State.accepts; (repeat' split) <;> rfl
@[simp] theorem State.undispatch_burned (s : State) (c : Cmd) : (s.undispatch c).burned = s.burned := by
  unfold State.undispatch State.accepts; (repeat' split) <;> rfl
@[simp] theorem State.undispatch_perst (s : State) (c : Cmd) : (s.undispatch c).perst = s.perst := by
  unfold State.undispatch State.accepts; (repeat' split) <;> rfl
@[simp] theorem State.undispatch_internalReset (s : State) (c : Cmd) : (s.undispatch c).internalReset = s.internalReset := by
  unfold State.undispatch State.accepts; (repeat' split) <;> rfl
@[simp] theorem State.undispatch_xref (s : State) (c : Cmd) : (s.undispatch c).xref = s.xref := by
  unfold State.undispatch State.accepts; (repeat' split) <;> rfl
@[simp] theorem State.undispatch_ev (s : State) (c : Cmd) : (s.undispatch c).ev = s.ev := by
  unfold State.undispatch State.accepts; (repeat' split) <;> rfl
@[simp] theorem State.undispatch_mem (s : State) (c : Cmd) : (s.undispatch c).mem = s.mem := by
  unfold State.undispatch State.accepts; (repeat' split) <;> rfl
@[simp] theorem State.undispatch_held (s : State) (c : Cmd) : (s.undispatch c).held = s.held := by
  unfold State.undispatch State.accepts; (repeat' split) <;> rfl
@[simp] theorem State.undispatch_pins (s : State) (c : Cmd) : (s.undispatch c).pins = s.pins := by
  unfold State.undispatch State.accepts; (repeat' split) <;> rfl
@[simp] theorem State.undispatch_groups (s : State) (c : Cmd) : (s.undispatch c).groups = s.groups := by
  unfold State.undispatch State.accepts; (repeat' split) <;> rfl
@[simp] theorem State.undispatch_programs (s : State) (c : Cmd) : (s.undispatch c).programs = s.programs := by
  unfold State.undispatch State.accepts; (repeat' split) <;> rfl
@[simp] theorem State.undispatch_starts (s : State) (c : Cmd) : (s.undispatch c).starts = s.starts := by
  unfold State.undispatch State.accepts; (repeat' split) <;> rfl
@[simp] theorem State.undispatch_seqs (s : State) (c : Cmd) : (s.undispatch c).seqs = s.seqs := by
  unfold State.undispatch State.accepts; (repeat' split) <;> rfl
@[simp] theorem State.undispatch_rings (s : State) (c : Cmd) : (s.undispatch c).rings = s.rings := by
  unfold State.undispatch State.accepts; (repeat' split) <;> rfl
@[simp] theorem State.undispatch_clusters (s : State) (c : Cmd) : (s.undispatch c).clusters = s.clusters := by
  unfold State.undispatch State.accepts; (repeat' split) <;> rfl
@[simp] theorem State.undispatch_tmus (s : State) (c : Cmd) : (s.undispatch c).tmus = s.tmus := by
  unfold State.undispatch State.accepts; (repeat' split) <;> rfl
@[simp] theorem State.undispatch_awgs (s : State) (c : Cmd) : (s.undispatch c).awgs = s.awgs := by
  unfold State.undispatch State.accepts; (repeat' split) <;> rfl
@[simp] theorem State.undispatch_dgs (s : State) (c : Cmd) : (s.undispatch c).dgs = s.dgs := by
  unfold State.undispatch State.accepts; (repeat' split) <;> rfl
@[simp] theorem State.undispatch_dps (s : State) (c : Cmd) : (s.undispatch c).dps = s.dps := by
  unfold State.undispatch State.accepts; (repeat' split) <;> rfl
@[simp] theorem State.undispatch_swgHeld (s : State) (c : Cmd) : (s.undispatch c).swgHeld = s.swgHeld := by
  unfold State.undispatch State.accepts; (repeat' split) <;> rfl
@[simp] theorem State.undispatch_popTests (s : State) (c : Cmd) : (s.undispatch c).popTests = s.popTests := by
  unfold State.undispatch State.accepts; (repeat' split) <;> rfl
@[simp] theorem State.undispatch_dma (s : State) (c : Cmd) : (s.undispatch c).dma = s.dma := by
  unfold State.undispatch State.accepts; (repeat' split) <;> rfl
@[simp] theorem State.undispatch_felt (s : State) (c : Cmd) : (s.undispatch c).felt = s.felt := by
  unfold State.undispatch State.accepts; (repeat' split) <;> rfl
@[simp] theorem State.undispatch_power (s : State) (c : Cmd) : (s.undispatch c).power = s.power := by
  unfold State.undispatch State.accepts; (repeat' split) <;> rfl
@[simp] theorem State.undispatch_sec (s : State) (c : Cmd) : (s.undispatch c).sec = s.sec := by
  unfold State.undispatch State.accepts; (repeat' split) <;> rfl
@[simp] theorem State.undispatch_cals (s : State) (c : Cmd) : (s.undispatch c).cals = s.cals := by
  unfold State.undispatch State.accepts; (repeat' split) <;> rfl
@[simp] theorem State.undispatch_ser (s : State) (c : Cmd) : (s.undispatch c).ser = s.ser := by
  unfold State.undispatch State.accepts; (repeat' split) <;> rfl
@[simp] theorem State.undispatch_units (s : State) (c : Cmd) : (s.undispatch c).units = s.units := by
  unfold State.undispatch State.accepts; (repeat' split) <;> rfl
@[simp] theorem State.undispatch_jtag (s : State) (c : Cmd) : (s.undispatch c).jtag = s.jtag := by
  unfold State.undispatch State.accepts; (repeat' split) <;> rfl
@[simp] theorem State.undispatch_causes (s : State) (c : Cmd) : (s.undispatch c).causes = s.causes := by
  unfold State.undispatch State.accepts; (repeat' split) <;> rfl
@[simp] theorem State.undispatch_popInput (s : State) (c : Cmd) : (s.undispatch c).popInput = s.popInput := by
  unfold State.undispatch State.accepts; (repeat' split) <;> rfl
@[simp] theorem State.undispatch_draws (s : State) (c : Cmd) : (s.undispatch c).draws = s.draws := by
  unfold State.undispatch State.accepts; (repeat' split) <;> rfl

/-! ### draw -/

@[simp] theorem State.draw_pending (s : State) (w : Nat) : ((s.draw w).2).pending = s.pending := rfl
@[simp] theorem State.draw_regs (s : State) (w : Nat) : ((s.draw w).2).regs = s.regs := rfl
@[simp] theorem State.draw_applied (s : State) (w : Nat) : ((s.draw w).2).applied = s.applied := rfl
@[simp] theorem State.draw_timing (s : State) (w : Nat) : ((s.draw w).2).timing = s.timing := rfl
@[simp] theorem State.draw_timingApplied (s : State) (w : Nat) : ((s.draw w).2).timingApplied = s.timingApplied := rfl
@[simp] theorem State.draw_fuse (s : State) (w : Nat) : ((s.draw w).2).fuse = s.fuse := rfl
@[simp] theorem State.draw_burned (s : State) (w : Nat) : ((s.draw w).2).burned = s.burned := rfl
@[simp] theorem State.draw_perst (s : State) (w : Nat) : ((s.draw w).2).perst = s.perst := rfl
@[simp] theorem State.draw_internalReset (s : State) (w : Nat) : ((s.draw w).2).internalReset = s.internalReset := rfl
@[simp] theorem State.draw_xref (s : State) (w : Nat) : ((s.draw w).2).xref = s.xref := rfl
@[simp] theorem State.draw_hi (s : State) (w : Nat) : ((s.draw w).2).hi = s.hi := rfl
@[simp] theorem State.draw_ev (s : State) (w : Nat) : ((s.draw w).2).ev = s.ev := rfl
@[simp] theorem State.draw_mem (s : State) (w : Nat) : ((s.draw w).2).mem = s.mem := rfl
@[simp] theorem State.draw_held (s : State) (w : Nat) : ((s.draw w).2).held = s.held := rfl
@[simp] theorem State.draw_pins (s : State) (w : Nat) : ((s.draw w).2).pins = s.pins := rfl
@[simp] theorem State.draw_groups (s : State) (w : Nat) : ((s.draw w).2).groups = s.groups := rfl
@[simp] theorem State.draw_programs (s : State) (w : Nat) : ((s.draw w).2).programs = s.programs := rfl
@[simp] theorem State.draw_starts (s : State) (w : Nat) : ((s.draw w).2).starts = s.starts := rfl
@[simp] theorem State.draw_seqs (s : State) (w : Nat) : ((s.draw w).2).seqs = s.seqs := rfl
@[simp] theorem State.draw_rings (s : State) (w : Nat) : ((s.draw w).2).rings = s.rings := rfl
@[simp] theorem State.draw_clusters (s : State) (w : Nat) : ((s.draw w).2).clusters = s.clusters := rfl
@[simp] theorem State.draw_tmus (s : State) (w : Nat) : ((s.draw w).2).tmus = s.tmus := rfl
@[simp] theorem State.draw_awgs (s : State) (w : Nat) : ((s.draw w).2).awgs = s.awgs := rfl
@[simp] theorem State.draw_dgs (s : State) (w : Nat) : ((s.draw w).2).dgs = s.dgs := rfl
@[simp] theorem State.draw_dps (s : State) (w : Nat) : ((s.draw w).2).dps = s.dps := rfl
@[simp] theorem State.draw_swgHeld (s : State) (w : Nat) : ((s.draw w).2).swgHeld = s.swgHeld := rfl
@[simp] theorem State.draw_popTests (s : State) (w : Nat) : ((s.draw w).2).popTests = s.popTests := rfl
@[simp] theorem State.draw_dma (s : State) (w : Nat) : ((s.draw w).2).dma = s.dma := rfl
@[simp] theorem State.draw_felt (s : State) (w : Nat) : ((s.draw w).2).felt = s.felt := rfl
@[simp] theorem State.draw_power (s : State) (w : Nat) : ((s.draw w).2).power = s.power := rfl
@[simp] theorem State.draw_sec (s : State) (w : Nat) : ((s.draw w).2).sec = s.sec := rfl
@[simp] theorem State.draw_cals (s : State) (w : Nat) : ((s.draw w).2).cals = s.cals := rfl
@[simp] theorem State.draw_ser (s : State) (w : Nat) : ((s.draw w).2).ser = s.ser := rfl
@[simp] theorem State.draw_units (s : State) (w : Nat) : ((s.draw w).2).units = s.units := rfl
@[simp] theorem State.draw_jtag (s : State) (w : Nat) : ((s.draw w).2).jtag = s.jtag := rfl
@[simp] theorem State.draw_causes (s : State) (w : Nat) : ((s.draw w).2).causes = s.causes := rfl
@[simp] theorem State.draw_popInput (s : State) (w : Nat) : ((s.draw w).2).popInput = s.popInput := rfl

/-! ### Events, vectors and completions touch registers, the host interface and the events unit alone -/

/-- Everything but the registers, the host interface and the events unit. -/
def State.rest (s : State) : State := { s with regs := [], hi := {}, ev := {} }

@[simp] theorem State.rest_update (t : State) {x_regs x_hi x_ev} : State.rest (State.mk t.pending x_regs t.applied
    t.timing t.timingApplied t.fuse t.burned t.perst t.internalReset t.xref x_hi x_ev t.mem t.held t.pins t.groups
    t.programs t.starts t.seqs t.rings t.clusters t.tmus t.awgs t.dgs t.dps t.swgHeld t.popTests t.dma t.felt t.power
    t.sec t.cals t.ser t.units t.jtag t.causes t.popInput t.draws) = t.rest := by
  cases t; rfl

@[simp] theorem State.rest_ite (c : Prop) [Decidable c] (s t : State) :
    (if c then s else t).rest = if c then s.rest else t.rest := apply_ite _ _ _ _

@[simp] theorem State.setFld_rest (s : State) (f : Fld) (v : Nat) : (s.setFld f v).rest = s.rest := by
  simp [State.setFld, State.setQuad]

@[simp] theorem State.setFlag_rest (s : State) (f : Fld) (b : Bool) : (s.setFlag f b).rest = s.rest := by
  simp [State.setFlag]

@[simp] theorem State.bump_rest (s : State) (f : Fld) (k : Nat) : (s.bump f k).rest = s.rest := by
  simp [State.bump]

@[simp] theorem State.raise_rest (s : State) (n u i : Nat) : (s.raise n u i).rest = s.rest := by
  unfold State.raise State.raiseAt; dsimp only; (repeat' split) <;> simp

@[simp] theorem State.released_rest (s : State) (c : Cmd) : (s.released c).rest = s.rest := by
  unfold State.released; (repeat' split) <;> simp

@[simp] theorem State.sendMsix_rest (s : State) (v : Nat) : (s.sendMsix v).rest = s.rest := by
  simp [State.sendMsix]

@[simp] theorem State.deliverVector_rest (s : State) (v : Nat) : (s.deliverVector v).rest = s.rest := by
  unfold State.deliverVector; dsimp only; (repeat' split) <;> simp

@[simp] theorem State.moderateCq_rest (s : State) (q : Nat) : (s.moderateCq q).rest = s.rest := by
  unfold State.moderateCq; dsimp only; split <;> simp

@[simp] theorem State.completeTo_rest (s : State) (cq : Nat) (c : Cmd) (st res : Nat) : (s.completeTo cq c st res).rest = s.rest := by
  unfold State.completeTo; dsimp only; (repeat' split) <;> simp

@[simp] theorem State.complete_rest (s : State) (c : Cmd) (st res : Nat) : (s.complete c st res).rest = s.rest := by
  unfold State.complete; simp

@[simp] theorem State.raise_pending (s : State) (n u i : Nat) : (s.raise n u i).pending = s.pending := by
  have h := congrArg State.pending (State.raise_rest s n u i); exact h
@[simp] theorem State.raise_applied (s : State) (n u i : Nat) : (s.raise n u i).applied = s.applied := by
  have h := congrArg State.applied (State.raise_rest s n u i); exact h
@[simp] theorem State.raise_timing (s : State) (n u i : Nat) : (s.raise n u i).timing = s.timing := by
  have h := congrArg State.timing (State.raise_rest s n u i); exact h
@[simp] theorem State.raise_timingApplied (s : State) (n u i : Nat) : (s.raise n u i).timingApplied = s.timingApplied := by
  have h := congrArg State.timingApplied (State.raise_rest s n u i); exact h
@[simp] theorem State.raise_fuse (s : State) (n u i : Nat) : (s.raise n u i).fuse = s.fuse := by
  have h := congrArg State.fuse (State.raise_rest s n u i); exact h
@[simp] theorem State.raise_burned (s : State) (n u i : Nat) : (s.raise n u i).burned = s.burned := by
  have h := congrArg State.burned (State.raise_rest s n u i); exact h
@[simp] theorem State.raise_perst (s : State) (n u i : Nat) : (s.raise n u i).perst = s.perst := by
  have h := congrArg State.perst (State.raise_rest s n u i); exact h
@[simp] theorem State.raise_internalReset (s : State) (n u i : Nat) : (s.raise n u i).internalReset = s.internalReset := by
  have h := congrArg State.internalReset (State.raise_rest s n u i); exact h
@[simp] theorem State.raise_xref (s : State) (n u i : Nat) : (s.raise n u i).xref = s.xref := by
  have h := congrArg State.xref (State.raise_rest s n u i); exact h
@[simp] theorem State.raise_mem (s : State) (n u i : Nat) : (s.raise n u i).mem = s.mem := by
  have h := congrArg State.mem (State.raise_rest s n u i); exact h
@[simp] theorem State.raise_held (s : State) (n u i : Nat) : (s.raise n u i).held = s.held := by
  have h := congrArg State.held (State.raise_rest s n u i); exact h
@[simp] theorem State.raise_pins (s : State) (n u i : Nat) : (s.raise n u i).pins = s.pins := by
  have h := congrArg State.pins (State.raise_rest s n u i); exact h
@[simp] theorem State.raise_groups (s : State) (n u i : Nat) : (s.raise n u i).groups = s.groups := by
  have h := congrArg State.groups (State.raise_rest s n u i); exact h
@[simp] theorem State.raise_programs (s : State) (n u i : Nat) : (s.raise n u i).programs = s.programs := by
  have h := congrArg State.programs (State.raise_rest s n u i); exact h
@[simp] theorem State.raise_starts (s : State) (n u i : Nat) : (s.raise n u i).starts = s.starts := by
  have h := congrArg State.starts (State.raise_rest s n u i); exact h
@[simp] theorem State.raise_seqs (s : State) (n u i : Nat) : (s.raise n u i).seqs = s.seqs := by
  have h := congrArg State.seqs (State.raise_rest s n u i); exact h
@[simp] theorem State.raise_rings (s : State) (n u i : Nat) : (s.raise n u i).rings = s.rings := by
  have h := congrArg State.rings (State.raise_rest s n u i); exact h
@[simp] theorem State.raise_clusters (s : State) (n u i : Nat) : (s.raise n u i).clusters = s.clusters := by
  have h := congrArg State.clusters (State.raise_rest s n u i); exact h
@[simp] theorem State.raise_tmus (s : State) (n u i : Nat) : (s.raise n u i).tmus = s.tmus := by
  have h := congrArg State.tmus (State.raise_rest s n u i); exact h
@[simp] theorem State.raise_awgs (s : State) (n u i : Nat) : (s.raise n u i).awgs = s.awgs := by
  have h := congrArg State.awgs (State.raise_rest s n u i); exact h
@[simp] theorem State.raise_dgs (s : State) (n u i : Nat) : (s.raise n u i).dgs = s.dgs := by
  have h := congrArg State.dgs (State.raise_rest s n u i); exact h
@[simp] theorem State.raise_dps (s : State) (n u i : Nat) : (s.raise n u i).dps = s.dps := by
  have h := congrArg State.dps (State.raise_rest s n u i); exact h
@[simp] theorem State.raise_swgHeld (s : State) (n u i : Nat) : (s.raise n u i).swgHeld = s.swgHeld := by
  have h := congrArg State.swgHeld (State.raise_rest s n u i); exact h
@[simp] theorem State.raise_popTests (s : State) (n u i : Nat) : (s.raise n u i).popTests = s.popTests := by
  have h := congrArg State.popTests (State.raise_rest s n u i); exact h
@[simp] theorem State.raise_dma (s : State) (n u i : Nat) : (s.raise n u i).dma = s.dma := by
  have h := congrArg State.dma (State.raise_rest s n u i); exact h
@[simp] theorem State.raise_felt (s : State) (n u i : Nat) : (s.raise n u i).felt = s.felt := by
  have h := congrArg State.felt (State.raise_rest s n u i); exact h
@[simp] theorem State.raise_power (s : State) (n u i : Nat) : (s.raise n u i).power = s.power := by
  have h := congrArg State.power (State.raise_rest s n u i); exact h
@[simp] theorem State.raise_sec (s : State) (n u i : Nat) : (s.raise n u i).sec = s.sec := by
  have h := congrArg State.sec (State.raise_rest s n u i); exact h
@[simp] theorem State.raise_cals (s : State) (n u i : Nat) : (s.raise n u i).cals = s.cals := by
  have h := congrArg State.cals (State.raise_rest s n u i); exact h
@[simp] theorem State.raise_ser (s : State) (n u i : Nat) : (s.raise n u i).ser = s.ser := by
  have h := congrArg State.ser (State.raise_rest s n u i); exact h
@[simp] theorem State.raise_units (s : State) (n u i : Nat) : (s.raise n u i).units = s.units := by
  have h := congrArg State.units (State.raise_rest s n u i); exact h
@[simp] theorem State.raise_jtag (s : State) (n u i : Nat) : (s.raise n u i).jtag = s.jtag := by
  have h := congrArg State.jtag (State.raise_rest s n u i); exact h
@[simp] theorem State.raise_causes (s : State) (n u i : Nat) : (s.raise n u i).causes = s.causes := by
  have h := congrArg State.causes (State.raise_rest s n u i); exact h
@[simp] theorem State.raise_popInput (s : State) (n u i : Nat) : (s.raise n u i).popInput = s.popInput := by
  have h := congrArg State.popInput (State.raise_rest s n u i); exact h
@[simp] theorem State.raise_draws (s : State) (n u i : Nat) : (s.raise n u i).draws = s.draws := by
  have h := congrArg State.draws (State.raise_rest s n u i); exact h
@[simp] theorem State.complete_pending (s : State) (c : Cmd) (st res : Nat) : (s.complete c st res).pending = s.pending := by
  have h := congrArg State.pending (State.complete_rest s c st res); exact h
@[simp] theorem State.complete_applied (s : State) (c : Cmd) (st res : Nat) : (s.complete c st res).applied = s.applied := by
  have h := congrArg State.applied (State.complete_rest s c st res); exact h
@[simp] theorem State.complete_timing (s : State) (c : Cmd) (st res : Nat) : (s.complete c st res).timing = s.timing := by
  have h := congrArg State.timing (State.complete_rest s c st res); exact h
@[simp] theorem State.complete_timingApplied (s : State) (c : Cmd) (st res : Nat) : (s.complete c st res).timingApplied = s.timingApplied := by
  have h := congrArg State.timingApplied (State.complete_rest s c st res); exact h
@[simp] theorem State.complete_fuse (s : State) (c : Cmd) (st res : Nat) : (s.complete c st res).fuse = s.fuse := by
  have h := congrArg State.fuse (State.complete_rest s c st res); exact h
@[simp] theorem State.complete_burned (s : State) (c : Cmd) (st res : Nat) : (s.complete c st res).burned = s.burned := by
  have h := congrArg State.burned (State.complete_rest s c st res); exact h
@[simp] theorem State.complete_perst (s : State) (c : Cmd) (st res : Nat) : (s.complete c st res).perst = s.perst := by
  have h := congrArg State.perst (State.complete_rest s c st res); exact h
@[simp] theorem State.complete_internalReset (s : State) (c : Cmd) (st res : Nat) : (s.complete c st res).internalReset = s.internalReset := by
  have h := congrArg State.internalReset (State.complete_rest s c st res); exact h
@[simp] theorem State.complete_xref (s : State) (c : Cmd) (st res : Nat) : (s.complete c st res).xref = s.xref := by
  have h := congrArg State.xref (State.complete_rest s c st res); exact h
@[simp] theorem State.complete_mem (s : State) (c : Cmd) (st res : Nat) : (s.complete c st res).mem = s.mem := by
  have h := congrArg State.mem (State.complete_rest s c st res); exact h
@[simp] theorem State.complete_held (s : State) (c : Cmd) (st res : Nat) : (s.complete c st res).held = s.held := by
  have h := congrArg State.held (State.complete_rest s c st res); exact h
@[simp] theorem State.complete_pins (s : State) (c : Cmd) (st res : Nat) : (s.complete c st res).pins = s.pins := by
  have h := congrArg State.pins (State.complete_rest s c st res); exact h
@[simp] theorem State.complete_groups (s : State) (c : Cmd) (st res : Nat) : (s.complete c st res).groups = s.groups := by
  have h := congrArg State.groups (State.complete_rest s c st res); exact h
@[simp] theorem State.complete_programs (s : State) (c : Cmd) (st res : Nat) : (s.complete c st res).programs = s.programs := by
  have h := congrArg State.programs (State.complete_rest s c st res); exact h
@[simp] theorem State.complete_starts (s : State) (c : Cmd) (st res : Nat) : (s.complete c st res).starts = s.starts := by
  have h := congrArg State.starts (State.complete_rest s c st res); exact h
@[simp] theorem State.complete_seqs (s : State) (c : Cmd) (st res : Nat) : (s.complete c st res).seqs = s.seqs := by
  have h := congrArg State.seqs (State.complete_rest s c st res); exact h
@[simp] theorem State.complete_rings (s : State) (c : Cmd) (st res : Nat) : (s.complete c st res).rings = s.rings := by
  have h := congrArg State.rings (State.complete_rest s c st res); exact h
@[simp] theorem State.complete_clusters (s : State) (c : Cmd) (st res : Nat) : (s.complete c st res).clusters = s.clusters := by
  have h := congrArg State.clusters (State.complete_rest s c st res); exact h
@[simp] theorem State.complete_tmus (s : State) (c : Cmd) (st res : Nat) : (s.complete c st res).tmus = s.tmus := by
  have h := congrArg State.tmus (State.complete_rest s c st res); exact h
@[simp] theorem State.complete_awgs (s : State) (c : Cmd) (st res : Nat) : (s.complete c st res).awgs = s.awgs := by
  have h := congrArg State.awgs (State.complete_rest s c st res); exact h
@[simp] theorem State.complete_dgs (s : State) (c : Cmd) (st res : Nat) : (s.complete c st res).dgs = s.dgs := by
  have h := congrArg State.dgs (State.complete_rest s c st res); exact h
@[simp] theorem State.complete_dps (s : State) (c : Cmd) (st res : Nat) : (s.complete c st res).dps = s.dps := by
  have h := congrArg State.dps (State.complete_rest s c st res); exact h
@[simp] theorem State.complete_swgHeld (s : State) (c : Cmd) (st res : Nat) : (s.complete c st res).swgHeld = s.swgHeld := by
  have h := congrArg State.swgHeld (State.complete_rest s c st res); exact h
@[simp] theorem State.complete_popTests (s : State) (c : Cmd) (st res : Nat) : (s.complete c st res).popTests = s.popTests := by
  have h := congrArg State.popTests (State.complete_rest s c st res); exact h
@[simp] theorem State.complete_dma (s : State) (c : Cmd) (st res : Nat) : (s.complete c st res).dma = s.dma := by
  have h := congrArg State.dma (State.complete_rest s c st res); exact h
@[simp] theorem State.complete_felt (s : State) (c : Cmd) (st res : Nat) : (s.complete c st res).felt = s.felt := by
  have h := congrArg State.felt (State.complete_rest s c st res); exact h
@[simp] theorem State.complete_power (s : State) (c : Cmd) (st res : Nat) : (s.complete c st res).power = s.power := by
  have h := congrArg State.power (State.complete_rest s c st res); exact h
@[simp] theorem State.complete_sec (s : State) (c : Cmd) (st res : Nat) : (s.complete c st res).sec = s.sec := by
  have h := congrArg State.sec (State.complete_rest s c st res); exact h
@[simp] theorem State.complete_cals (s : State) (c : Cmd) (st res : Nat) : (s.complete c st res).cals = s.cals := by
  have h := congrArg State.cals (State.complete_rest s c st res); exact h
@[simp] theorem State.complete_ser (s : State) (c : Cmd) (st res : Nat) : (s.complete c st res).ser = s.ser := by
  have h := congrArg State.ser (State.complete_rest s c st res); exact h
@[simp] theorem State.complete_units (s : State) (c : Cmd) (st res : Nat) : (s.complete c st res).units = s.units := by
  have h := congrArg State.units (State.complete_rest s c st res); exact h
@[simp] theorem State.complete_jtag (s : State) (c : Cmd) (st res : Nat) : (s.complete c st res).jtag = s.jtag := by
  have h := congrArg State.jtag (State.complete_rest s c st res); exact h
@[simp] theorem State.complete_causes (s : State) (c : Cmd) (st res : Nat) : (s.complete c st res).causes = s.causes := by
  have h := congrArg State.causes (State.complete_rest s c st res); exact h
@[simp] theorem State.complete_popInput (s : State) (c : Cmd) (st res : Nat) : (s.complete c st res).popInput = s.popInput := by
  have h := congrArg State.popInput (State.complete_rest s c st res); exact h
@[simp] theorem State.complete_draws (s : State) (c : Cmd) (st res : Nat) : (s.complete c st res).draws = s.draws := by
  have h := congrArg State.draws (State.complete_rest s c st res); exact h


/-! ### Registers do not see the other parts -/

@[simp ↓] theorem State.quad_update (t : State) {x_pending x_applied x_timing x_timingApplied x_burned x_perst
    x_internalReset x_xref x_hi x_ev x_mem x_held x_pins x_groups x_programs x_starts x_seqs x_rings x_clusters x_tmus
    x_awgs x_dgs x_dps x_swgHeld x_popTests x_dma x_felt x_power x_sec x_cals x_ser x_units x_jtag x_causes x_popInput
    x_draws} (a : Nat) : State.quad (State.mk x_pending t.regs x_applied x_timing x_timingApplied t.fuse x_burned x_perst
    x_internalReset x_xref x_hi x_ev x_mem x_held x_pins x_groups x_programs x_starts x_seqs x_rings x_clusters x_tmus
    x_awgs x_dgs x_dps x_swgHeld x_popTests x_dma x_felt x_power x_sec x_cals x_ser x_units x_jtag x_causes x_popInput
    x_draws) a = t.quad a := rfl
@[simp ↓] theorem State.fld_update (t : State) {x_pending x_applied x_timing x_timingApplied x_burned x_perst
    x_internalReset x_xref x_hi x_ev x_mem x_held x_pins x_groups x_programs x_starts x_seqs x_rings x_clusters x_tmus
    x_awgs x_dgs x_dps x_swgHeld x_popTests x_dma x_felt x_power x_sec x_cals x_ser x_units x_jtag x_causes x_popInput
    x_draws} (f : Fld) : State.fld (State.mk x_pending t.regs x_applied x_timing x_timingApplied t.fuse x_burned x_perst
    x_internalReset x_xref x_hi x_ev x_mem x_held x_pins x_groups x_programs x_starts x_seqs x_rings x_clusters x_tmus
    x_awgs x_dgs x_dps x_swgHeld x_popTests x_dma x_felt x_power x_sec x_cals x_ser x_units x_jtag x_causes x_popInput
    x_draws) f = t.fld f := rfl
@[simp ↓] theorem State.flag_update (t : State) {x_pending x_applied x_timing x_timingApplied x_burned x_perst
    x_internalReset x_xref x_hi x_ev x_mem x_held x_pins x_groups x_programs x_starts x_seqs x_rings x_clusters x_tmus
    x_awgs x_dgs x_dps x_swgHeld x_popTests x_dma x_felt x_power x_sec x_cals x_ser x_units x_jtag x_causes x_popInput
    x_draws} (f : Fld) : State.flag (State.mk x_pending t.regs x_applied x_timing x_timingApplied t.fuse x_burned x_perst
    x_internalReset x_xref x_hi x_ev x_mem x_held x_pins x_groups x_programs x_starts x_seqs x_rings x_clusters x_tmus
    x_awgs x_dgs x_dps x_swgHeld x_popTests x_dma x_felt x_power x_sec x_cals x_ser x_units x_jtag x_causes x_popInput
    x_draws) f = t.flag f := rfl
@[simp ↓] theorem State.sfld_update (t : State) {x_pending x_applied x_timing x_timingApplied x_burned x_perst
    x_internalReset x_xref x_hi x_ev x_mem x_held x_pins x_groups x_programs x_starts x_seqs x_rings x_clusters x_tmus
    x_awgs x_dgs x_dps x_swgHeld x_popTests x_dma x_felt x_power x_sec x_cals x_ser x_units x_jtag x_causes x_popInput
    x_draws} (f : Fld) : State.sfld (State.mk x_pending t.regs x_applied x_timing x_timingApplied t.fuse x_burned x_perst
    x_internalReset x_xref x_hi x_ev x_mem x_held x_pins x_groups x_programs x_starts x_seqs x_rings x_clusters x_tmus
    x_awgs x_dgs x_dps x_swgHeld x_popTests x_dma x_felt x_power x_sec x_cals x_ser x_units x_jtag x_causes x_popInput
    x_draws) f = t.sfld f := rfl
@[simp ↓] theorem State.appliedQuad_update (t : State) {x_pending x_regs x_timing x_timingApplied x_burned x_perst
    x_internalReset x_xref x_hi x_ev x_mem x_held x_pins x_groups x_programs x_starts x_seqs x_rings x_clusters x_tmus
    x_awgs x_dgs x_dps x_swgHeld x_popTests x_dma x_felt x_power x_sec x_cals x_ser x_units x_jtag x_causes x_popInput
    x_draws} (a : Nat) : State.appliedQuad (State.mk x_pending x_regs t.applied x_timing x_timingApplied t.fuse x_burned
    x_perst x_internalReset x_xref x_hi x_ev x_mem x_held x_pins x_groups x_programs x_starts x_seqs x_rings x_clusters
    x_tmus x_awgs x_dgs x_dps x_swgHeld x_popTests x_dma x_felt x_power x_sec x_cals x_ser x_units x_jtag x_causes
    x_popInput x_draws) a = t.appliedQuad a := rfl
@[simp ↓] theorem State.afld_update (t : State) {x_pending x_regs x_timing x_timingApplied x_burned x_perst
    x_internalReset x_xref x_hi x_ev x_mem x_held x_pins x_groups x_programs x_starts x_seqs x_rings x_clusters x_tmus
    x_awgs x_dgs x_dps x_swgHeld x_popTests x_dma x_felt x_power x_sec x_cals x_ser x_units x_jtag x_causes x_popInput
    x_draws} (f : Fld) : State.afld (State.mk x_pending x_regs t.applied x_timing x_timingApplied t.fuse x_burned x_perst
    x_internalReset x_xref x_hi x_ev x_mem x_held x_pins x_groups x_programs x_starts x_seqs x_rings x_clusters x_tmus
    x_awgs x_dgs x_dps x_swgHeld x_popTests x_dma x_felt x_power x_sec x_cals x_ser x_units x_jtag x_causes x_popInput
    x_draws) f = t.afld f := rfl
@[simp ↓] theorem State.asfld_update (t : State) {x_pending x_regs x_timing x_timingApplied x_burned x_perst
    x_internalReset x_xref x_hi x_ev x_mem x_held x_pins x_groups x_programs x_starts x_seqs x_rings x_clusters x_tmus
    x_awgs x_dgs x_dps x_swgHeld x_popTests x_dma x_felt x_power x_sec x_cals x_ser x_units x_jtag x_causes x_popInput
    x_draws} (f : Fld) : State.asfld (State.mk x_pending x_regs t.applied x_timing x_timingApplied t.fuse x_burned x_perst
    x_internalReset x_xref x_hi x_ev x_mem x_held x_pins x_groups x_programs x_starts x_seqs x_rings x_clusters x_tmus
    x_awgs x_dgs x_dps x_swgHeld x_popTests x_dma x_felt x_power x_sec x_cals x_ser x_units x_jtag x_causes x_popInput
    x_draws) f = t.asfld f := rfl
@[simp] theorem State.appliedQuad_setQuad (s : State) (b : Nat) (v : BitVec 64) (a : Nat) : (s.setQuad b v).appliedQuad a = s.appliedQuad a := rfl
@[simp] theorem State.appliedQuad_setFld (s : State) (g : Fld) (v : Nat) (a : Nat) : (s.setFld g v).appliedQuad a = s.appliedQuad a := rfl
@[simp] theorem State.appliedQuad_setFlag (s : State) (g : Fld) (b : Bool) (a : Nat) : (s.setFlag g b).appliedQuad a = s.appliedQuad a := rfl
@[simp] theorem State.appliedQuad_bump (s : State) (g : Fld) (k : Nat) (a : Nat) : (s.bump g k).appliedQuad a = s.appliedQuad a := rfl
@[simp] theorem State.afld_setQuad (s : State) (b : Nat) (v : BitVec 64) (f : Fld) : (s.setQuad b v).afld f = s.afld f := rfl
@[simp] theorem State.afld_setFld (s : State) (g : Fld) (v : Nat) (f : Fld) : (s.setFld g v).afld f = s.afld f := rfl
@[simp] theorem State.afld_setFlag (s : State) (g : Fld) (b : Bool) (f : Fld) : (s.setFlag g b).afld f = s.afld f := rfl
@[simp] theorem State.afld_bump (s : State) (g : Fld) (k : Nat) (f : Fld) : (s.bump g k).afld f = s.afld f := rfl
@[simp] theorem State.asfld_setQuad (s : State) (b : Nat) (v : BitVec 64) (f : Fld) : (s.setQuad b v).asfld f = s.asfld f := rfl
@[simp] theorem State.asfld_setFld (s : State) (g : Fld) (v : Nat) (f : Fld) : (s.setFld g v).asfld f = s.asfld f := rfl
@[simp] theorem State.asfld_setFlag (s : State) (g : Fld) (b : Bool) (f : Fld) : (s.setFlag g b).asfld f = s.asfld f := rfl
@[simp] theorem State.asfld_bump (s : State) (g : Fld) (k : Nat) (f : Fld) : (s.bump g k).asfld f = s.asfld f := rfl

/-! ### Completions -/

/-- The buffer and the completions that units hold keep all they held, as completions are added. -/
theorem State.moderateCq_buffer (s : State) (q : Nat) :
    (s.moderateCq q).hi.buffer = s.hi.buffer ∧ (s.moderateCq q).hi.unitHeld = s.hi.unitHeld := by
  unfold State.moderateCq State.deliverVector
  dsimp only
  (repeat' split) <;> exact ⟨rfl, rfl⟩

@[simp] theorem State.released_epoch (s : State) (c : Cmd) : (s.released c).hi.epoch = s.hi.epoch := by
  unfold State.released; split <;> rfl

@[simp] theorem State.undispatch_idling (s : State) (c : Cmd) : (s.undispatch c).idling = s.idling := by
  unfold State.undispatch State.accepts; (repeat' split) <;> rfl

@[simp] theorem State.undispatch_unitStopped (s : State) (c d : Cmd) : (s.undispatch c).unitStopped d = s.unitStopped d := by
  unfold State.undispatch State.accepts; (repeat' split) <;> rfl

/-- A command of the present epoch that completes is reported. -/
theorem State.complete_reported (s : State) (c : Cmd) (st res : Nat) (h : c.epoch = s.hi.epoch) :
    (s.complete c st res).reported c st res := by
  unfold State.complete State.completeTo State.reported
  dsimp only
  rw [if_neg (by simp [h])]
  split
  · exact ⟨_, List.mem_append_right _ (List.mem_append_right _ (List.mem_singleton_self _)), rfl, rfl, rfl⟩
  · split
    · rw [(State.moderateCq_buffer _ _).1, (State.moderateCq_buffer _ _).2]
      exact ⟨_, List.mem_append_left _ (List.mem_append_right _ (List.mem_singleton_self _)), rfl, rfl, rfl⟩
    · exact ⟨_, List.mem_append_left _ (List.mem_append_right _ (List.mem_singleton_self _)), rfl, rfl, rfl⟩

/-! ### Commands and events -/

/-- A served host command acts at once. -/
theorem hostCmd_serves (op : Nat) (q : BitVec 8) (e : Entry) (k : Cmd → State → State) (s : State)
    (ho : Entry.opcode e = op) (hs : s.serves q e) :
    hostCmd op q e k s = answer s (k (s.taken q.toNat e) (s.undispatch (s.taken q.toNat e))) := by
  obtain ⟨⟨hr, hi⟩, hu, he⟩ := hs
  simp [hostCmd, ho, hr, State.accept, hi, hu]

theorem hostAction_serves (op : Nat) (action : Nat → Bool) (q : BitVec 8) (e : Entry) (k : Cmd → State → State) (s : State)
    (ho : Entry.opcode e = op) (ha : action (Entry.field e 8 1) = true) (hs : s.serves q e) :
    hostAction op action q e k s = answer s (k (s.taken q.toNat e) (s.undispatch (s.taken q.toNat e))) := by
  obtain ⟨⟨hr, hi⟩, hu, he⟩ := hs
  simp [hostAction, ho, ha, hr, State.accept, hi, hu]

/-- An event acts while the device is not held in reset. -/
theorem event_up (k : State → State) (s : State) (h : s.inReset = false) : event k s = answer s (k s) := by
  simp [event, h]

/-- Checks that all hold let the command go on. -/
theorem State.checked_pass (s : State) (c : Cmd) (l : List (Bool × Nat)) (k : State → State)
    (h : firstFailing l = none) : s.checked c l k = k s := by
  simp [State.checked, h]

theorem firstFailing_none (l : List (Bool × Nat)) (h : ∀ x ∈ l, x.1 = false) : firstFailing l = none := by
  simp only [firstFailing, Option.map_eq_none_iff, List.find?_eq_none]
  intro x hx
  simp [h x hx]

end Sys2Proof.Machine
end

