-- ==== Sys2Proof/Laws/Frames.lean ====
section
/-! SUPPORT. From what an effect leaves alone to what the row leaves alone: the fuses in effect, reset lines and test access
port (`frozen`), and what memory holds (`memData`). -/

namespace Sys2Proof.Machine

open Sys2Proof

theorem answer_next {s u t : State} (h : answer s u = .next t) : t = { u with pending := s.pending } := by
  simp only [answer, Host.Outcome.next.injEq] at h
  exact h.symm


/-- What an effect that leaves the queue alone answers. -/
theorem answer_frozen {s u : State} (h : u.frozen = s.frozen) : answer s u = .next u := by
  have hp : u.pending = s.pending := congrArg Prod.fst h
  unfold answer
  rw [← hp]

theorem event_next {k : State → State} {s : State} (hr : s.inReset = false) (h : (k s).frozen = s.frozen) :
    event k s = .next (k s) := by
  rw [event_up k s hr, answer_frozen h]

theorem hostCmd_next {op : Nat} {q : BitVec 8} {e : Entry} {k : Cmd → State → State} {s : State} (hs : s.serves q e)
    (ho : Entry.opcode e = op) (h : ∀ c u, (k c u).frozen = u.frozen) :
    hostCmd op q e k s = .next (k (s.taken q.toNat e) (s.undispatch (s.taken q.toNat e))) := by
  rw [hostCmd_serves op q e k s ho hs, answer_frozen]
  rw [h]
  exact State.undispatch_frozen _ _

theorem hostAction_next {op : Nat} {act : Nat → Bool} {q : BitVec 8} {e : Entry} {k : Cmd → State → State} {s : State}
    (hs : s.serves q e) (ho : Entry.opcode e = op) (ha : act (Entry.field e 8 1) = true)
    (h : ∀ c u, (k c u).frozen = u.frozen) :
    hostAction op act q e k s = .next (k (s.taken q.toNat e) (s.undispatch (s.taken q.toNat e))) := by
  rw [hostAction_serves op act q e k s ho ha hs, answer_frozen]
  rw [h]
  exact State.undispatch_frozen _ _

theorem event_frozen (k : State → State) (s t : State) (hk : ∀ u, (k u).frozen = u.frozen) (h : event k s = .next t) :
    t.frozen = s.frozen := by
  unfold event at h
  split at h
  · rw [answer_frozen rfl] at h
    cases h; rfl
  · rw [answer_frozen (hk s)] at h
    cases h; exact hk s

theorem always_frozen (k : State → State) (s t : State) (hk : ∀ u, (k u).frozen = u.frozen) (h : always k s = .next t) :
    t.frozen = s.frozen := by
  unfold always at h
  rw [answer_frozen (hk s)] at h
  cases h; exact hk s

theorem hostCmd_frozen (op : Nat) (q : BitVec 8) (e : Entry) (k : Cmd → State → State) (s t : State)
    (hk : ∀ c u, (k c u).frozen = u.frozen) (h : hostCmd op q e k s = .next t) : t.frozen = s.frozen := by
  unfold hostCmd at h
  split at h
  · cases h
  · split at h
    · rw [answer_frozen rfl] at h
      cases h; rfl
    · have hf := State.accept_frozen s (s.taken q.toNat e) k (fun _ _ => hk _ _)
      rw [answer_frozen hf] at h
      cases h; exact hf

theorem hostAction_frozen (op : Nat) (act : Nat → Bool) (q : BitVec 8) (e : Entry) (k : Cmd → State → State) (s t : State)
    (hk : ∀ c u, (k c u).frozen = u.frozen) (h : hostAction op act q e k s = .next t) : t.frozen = s.frozen := by
  unfold hostAction at h
  split at h
  · split at h
    · rw [answer_frozen rfl] at h
      cases h; rfl
    · have hf := State.accept_frozen s (s.taken q.toNat e) k (fun _ _ => hk _ _)
      rw [answer_frozen hf] at h
      cases h; exact hf
  · cases h

theorem event_memData (k : State → State) (s t : State) (hk : ∀ u, (k u).memData = u.memData) (h : event k s = .next t) : t.memData = s.memData := by
  rw [answer_next h, State.memData_update]
  split
  · rfl
  · exact hk s

theorem always_memData (k : State → State) (s t : State) (hk : ∀ u, (k u).memData = u.memData) (h : always k s = .next t) : t.memData = s.memData := by
  rw [answer_next h, State.memData_update]
  exact hk s

theorem hostCmd_memData (op : Nat) (q : BitVec 8) (e : Entry) (k : Cmd → State → State) (s t : State) (hk : ∀ c u, (k c u).memData = u.memData)
    (h : hostCmd op q e k s = .next t) : t.memData = s.memData := by
  unfold hostCmd at h
  split at h
  · cases h
  · rw [answer_next h, State.memData_update]
    split
    · rfl
    · exact State.accept_memData _ _ _ (fun _ _ => hk _ _)

theorem hostAction_memData (op : Nat) (act : Nat → Bool) (q : BitVec 8) (e : Entry) (k : Cmd → State → State) (s t : State)
    (hk : ∀ c u, (k c u).memData = u.memData) (h : hostAction op act q e k s = .next t) : t.memData = s.memData := by
  unfold hostAction at h
  split at h
  · rw [answer_next h, State.memData_update]
    split
    · rfl
    · exact State.accept_memData _ _ _ (fun _ _ => hk _ _)
  · cases h


theorem event_keeps (k : State → State) (s t : State) (hk : ∀ u, storeWf u.memData = true → storeWf (k u).memData = true) (hs : storeWf s.memData = true) (h : event k s = .next t) : storeWf t.memData = true := by
  rw [answer_next h, State.memData_update]
  split
  · exact hs
  · exact hk s hs

theorem always_keeps (k : State → State) (s t : State) (hk : ∀ u, storeWf u.memData = true → storeWf (k u).memData = true) (hs : storeWf s.memData = true) (h : always k s = .next t) : storeWf t.memData = true := by
  rw [answer_next h, State.memData_update]
  exact hk s hs

theorem hostCmd_keeps (op : Nat) (q : BitVec 8) (e : Entry) (k : Cmd → State → State) (s t : State) (hk : ∀ c u, storeWf u.memData = true → storeWf (k c u).memData = true) (hs : storeWf s.memData = true)
    (h : hostCmd op q e k s = .next t) : storeWf t.memData = true := by
  unfold hostCmd at h
  split at h
  · cases h
  · rw [answer_next h, State.memData_update]
    split
    · exact hs
    · exact State.accept_keeps _ _ _ (fun _ _ h => hk _ _ h) hs

theorem hostAction_keeps (op : Nat) (act : Nat → Bool) (q : BitVec 8) (e : Entry) (k : Cmd → State → State) (s t : State)
    (hk : ∀ c u, storeWf u.memData = true → storeWf (k c u).memData = true) (hs : storeWf s.memData = true) (h : hostAction op act q e k s = .next t) : storeWf t.memData = true := by
  unfold hostAction at h
  split at h
  · rw [answer_next h, State.memData_update]
    split
    · exact hs
    · exact State.accept_keeps _ _ _ (fun _ _ h => hk _ _ h) hs
  · cases h

end Sys2Proof.Machine
end

