-- ==== Sys2Proof/Laws/Frozen/RowsPower.lean ====
section
/-! SUPPORT. What the operations of Sys2Proof/Machine/RowsPower.lean leave alone: the queue, the fuses in effect, the reset lines,
the reference, the test access port and the count of hot resets. -/

namespace Sys2Proof.Machine

open Sys2Proof

set_option linter.unusedTactic false
set_option linter.unreachableTactic false
set_option linter.unusedSimpArgs false

@[simp] theorem lineAsserted_frozen (k : Nat) (s : State) :
    (lineAsserted k s).frozen = s.frozen := by
  simp [lineAsserted]

end Sys2Proof.Machine
end

