-- ==== Sys2Proof/Laws/Frozen/RowsSites.lean ====
section
/-! SUPPORT. What the operations of Sys2Proof/Machine/RowsSites.lean leave alone: the queue, the fuses in effect, the reset lines,
the reference, the test access port and the count of hot resets. -/

namespace Sys2Proof.Machine

open Sys2Proof

set_option linter.unusedTactic false
set_option linter.unreachableTactic false
set_option linter.unusedSimpArgs false

@[simp] theorem doCalFreeze_frozen (b : Nat) (s : State) :
    (doCalFreeze b s).frozen = s.frozen := by
  unfold doCalFreeze; (repeat' (first | with_reducible rfl | (simp []; done) | (split <;> try (rename_i heq; obtain ⟨_, rfl⟩ := Prod.ext_iff.mp heq)) | refine (State.frozen_foldl _ (fun _ _ => ?_) _ _).trans ?_ | dsimp only | simp []))

@[simp] theorem doCalThaw_frozen (b : Nat) (s : State) :
    (doCalThaw b s).frozen = s.frozen := by
  unfold doCalThaw; (repeat' (first | with_reducible rfl | (simp []; done) | (split <;> try (rename_i heq; obtain ⟨_, rfl⟩ := Prod.ext_iff.mp heq)) | refine (State.frozen_foldl _ (fun _ _ => ?_) _ _).trans ?_ | dsimp only | simp []))

end Sys2Proof.Machine
end

