-- ==== Sys2Proof/Laws/Kept/RowsPower.lean ====
section
/-! SUPPORT. What the operations of Sys2Proof/Machine/RowsPower.lean leave alone: what memory holds. -/

namespace Sys2Proof.Machine

open Sys2Proof

set_option linter.unusedTactic false
set_option linter.unreachableTactic false
set_option linter.unusedSimpArgs false

@[simp] theorem lineAsserted_memData (k : Nat) (s : State) :
    (lineAsserted k s).memData = s.memData := by
  simp [lineAsserted]

end Sys2Proof.Machine
end

