-- ==== Sys2Proof/Laws/Kept/Step.lean ====
section
/-! SUPPORT. What the operations of Sys2Proof/Machine/Step.lean leave alone: what memory holds. -/

namespace Sys2Proof.Machine

open Sys2Proof

set_option linter.unusedTactic false
set_option linter.unreachableTactic false
set_option linter.unusedSimpArgs false

@[simp] theorem State.withFetchWord_memData (s : State) (nbits : Nat) (w : Nat) :
    (State.withFetchWord s nbits w).memData = s.memData := by
  unfold State.withFetchWord; (repeat' (first | with_reducible rfl | (simp []; done) | (split <;> try (rename_i heq; obtain ⟨_, rfl⟩ := Prod.ext_iff.mp heq)) | refine (State.memData_foldl _ (fun _ _ => ?_) _ _).trans ?_ | dsimp only | simp []))

end Sys2Proof.Machine
end

