-- ==== Sys2Proof/Tests/Slice0.lean ====
section
/-! SUPPORT. Tests of one step each, and witnesses of the statements' hypotheses: `witness_<Name>` holds, for each clause of
`Obligations.<Name>` in turn, concrete values that meet all the clause's hypotheses together. -/

namespace Sys2Proof.Machine

open Sys2Proof

-- One evaluation at a time: each thread of the checker holds a large stack.
set_option Elab.async false

/-! ### Checks that imply a premise -/

/-- A check over the 64 sequencers implies `State.fits`. -/
theorem fits_of {s : State}
    (h : (List.range 64).all (fun b => decide (1 ≤ (s.group b).size) && decide ((s.group b).size ≤ 8) && decide (b + (s.group b).size ≤ 64) &&
      (s.program b).all (fun g => decide (g.bgBase ≤ 255))) = true) : s.fits := by
  intro b hb
  have := List.all_eq_true.mp h b (List.mem_range.mpr hb)
  simp only [Bool.and_eq_true, decide_eq_true_eq, Option.all_eq_true] at this
  exact ⟨this.1.1.1, this.1.1.2, this.1.2, fun g hg => this.2 g hg⟩

/-- `State.issuable` as a check. -/
def State.issuesNow (s : State) (b : Nat) (g : Program) (w : Nat) : Bool :=
  !s.inReset && decide (s.program b = some g) && g.mayIssue && decide (g.seqDone = 0) && decide (g.trapRequests = []) &&
    decide (g.trapsAgain.head?.map Prod.fst ≠ some g.micro.pc) && decide (g.preempts = []) &&
    decide (wIssues w = true → g.queue.length + 1 < vectorQueueDepth) && !g.calWant && !s.reamBlocks b &&
    decide (wReconverge w = true → g.micro.inUse ≤ 1 ∨ g.released = true) && decide (parityFailed w = 0) &&
    !wordIllegal g.header g.micro g.micro.pc w &&
    decide (wReads w = true → s.laneReady b g.micro.pc g.micro.segment (wBlock w) = true ∧ s.headStatus b = 0) && s.condReady b g w &&
    (s.fetchWord b g.micro.pc).any (fun x => decide (x.2.2 = w) && !x.2.1.poisoned.contains (g.micro.pc % 256 / 2))

theorem issuable_of {s : State} {b : Nat} {g : Program} {w : Nat} (h : s.issuesNow b g w = true) : s.issuable b g w := by
  simp only [State.issuesNow, Bool.and_eq_true, Bool.not_eq_true', decide_eq_true_eq, Option.any_eq_true] at h
  obtain ⟨⟨⟨⟨⟨⟨⟨⟨⟨⟨⟨⟨⟨⟨⟨h1, h2⟩, h3⟩, h4⟩, h5⟩, h6⟩, h7⟩, h8⟩, h9⟩, h10⟩, h11⟩, h12⟩, h13⟩, h14⟩, h15⟩, ⟨i, f, v⟩, hx, hv, hp⟩ := h
  exact ⟨h1, h2, h3, h4, h5, h6, h7, h8, h9, h10, h11, h12, h13, h14, h15, i, f, hv ▸ hx, hp⟩

/-- What holds of the default and of every listed value holds of every value read. -/
theorem get_of {β : Type} {P : β → Prop} {d : β} {m : SMap β} (hd : P d) (hm : ∀ x ∈ m, P x.2) (k : Nat) : P (SMap.get d m k) := by
  induction m with
  | nil => exact hd
  | cons x m ih =>
    simp only [SMap.get, SMap.find]
    split
    · exact hm x (List.mem_cons_self ..)
    · exact ih (fun y hy => hm y (List.mem_cons_of_mem _ hy))

theorem some5_of {α β γ δ ε : Type} {o : Option (α × β × γ × δ × ε)} {d : α × β × γ × δ × ε} (h : o.isSome = true) :
    o = some ((o.getD d).1, (o.getD d).2.1, (o.getD d).2.2.1, (o.getD d).2.2.2.1, (o.getD d).2.2.2.2) := by
  obtain ⟨x, rfl⟩ := Option.isSome_iff_exists.mp h
  rfl

/-- The words of a page without poison, the block, the image and the bytes that a read has brought. -/
def pageWords (x : PageGot × State) : Option (List Nat) := match x.1 with | .page ws [] => some ws | _ => none
def blockGot (x : Got × State) : Option Block := match x.1 with | .block y => some y | _ => none
def accGot (x : Acc × State) : Option (List Byte) := match x.1 with | .ok d none => some d | _ => none

theorem page_of {x : PageGot × State} (h : (pageWords x).isSome = true) : x = (.page ((pageWords x).getD []) [], x.2) := by
  obtain ⟨a, u⟩ := x
  match a, h with
  | .page ws [], _ => rfl

theorem block_of {x : Got × State} {d : Block} (h : (blockGot x).isSome = true) : x = (.block ((blockGot x).getD d), x.2) := by
  obtain ⟨a, u⟩ := x
  match a, h with
  | .block y, _ => rfl

theorem acc_of {x : Acc × State} (h : (accGot x).isSome = true) : x = (.ok ((accGot x).getD []) none, x.2) := by
  obtain ⟨a, u⟩ := x
  match a, h with
  | .ok d none, _ => rfl

theorem nil_of {x : Acc × State} (h : (accGot x).any List.isEmpty = true) : x = (.ok [] none, x.2) := by
  obtain ⟨a, u⟩ := x
  match a, h with
  | .ok [] none, _ => rfl

def runsGot (x : Sum (List (Nat × Nat)) Acc × State) : Option (List (Nat × Nat)) := match x.1 with | .inl l => some l | .inr _ => none

theorem runs_of {x : Sum (List (Nat × Nat)) Acc × State} (h : (runsGot x).isSome = true) : x = (.inl ((runsGot x).getD []), x.2) := by
  obtain ⟨a, u⟩ := x
  match a, h with
  | .inl l, _ => rfl

theorem image_of {x : Option (Header × List (Nat × Nat × Nat)) × Pre × State} {d : Header} (h : (x.1.isSome && decide (x.2.1 = {})) = true) :
    x = (some ((x.1.map Prod.fst).getD d, (x.1.map Prod.snd).getD []), {}, x.2.2) := by
  obtain ⟨a, p, u⟩ := x
  simp only [Bool.and_eq_true, decide_eq_true_eq] at h
  obtain ⟨y, rfl⟩ := Option.isSome_iff_exists.mp h.1
  simp [h.2]

/-! ### Small states -/

/-- What a command leaves where it answers a next state; the same of a step. -/
def wAfter (i : Instr) (s : State) : State := match exec i s with | .next t => t | _ => s
def wStep (s : State) : State := match step s with | .next t => t | _ => s
def wPend : State := { State.reset with pending := [.perstAssert, .boot] }

/-- A device that has booted, every unit ready. -/
def w0 : State := (((State.reset.setFlag Reg.SEC_STATUS_BOOTED true).setQuad 0x40 (BitVec.allOnes 64)).setQuad 0x48 (BitVec.allOnes 64)).setFld Reg.MEM_DESC_PAIRS 16
/-- An entry of fields given as (offset, bytes, value). -/
def wEnt (l : List (Nat × Nat × Nat)) : Entry := BitVec.ofNat 512 (l.foldl (fun n f => n + f.2.2 % 256 ^ f.2.1 * 256 ^ f.1) 0)
/-- A site at position 0 of the group led by sequencer 0, with two pins. -/
def wPos : SitePos := { position := 0, site := 5, safeState := true, aliveEn := false, pins := [0, 1], dps := [0] }
/-- A device with that site captured and enabled, its registers as at the capture. -/
def wSite : State :=
  { ((((((((((w0.setFld (Reg.DECKLE_STATE_ENABLED 0) 1).setFlag (Reg.SITE_ENTRY_DEFINED 0 0) true).setFld
      (Reg.SITE_ENTRY_SITE_NUMBER 0 0) 5).setFlag (Reg.SITE_ENTRY_SAFE_STATE 0 0) true).setFlag (Reg.PIN_SITE_ASSIGNED 0 0) true).setFlag
      (Reg.PIN_SITE_ASSIGNED 0 1) true).setFlag (Reg.SITE_DPS_VALID 0 0 0) true).setFld (Reg.SITE_GROUP_SIZE 0) 1).setFld
      (Reg.PPMU_CTRL_MODE 0) 2).setFld (Reg.PPMU_CTRL_MODE 1) 1) with
    groups := [(0, { size := 1, positions := [wPos] })] }
/-- A state with region 0 mapped to device memory from its start, for reads and writes. -/
def wMap (s : State) : State :=
  { ((s.setFlag (Reg.REGION_ENABLE 0) true).setFld (Reg.REGION_ENTRY_COUNT 0) 16) with mem := { s.mem with dtt := [(0, 7)] } }

/-- A word of fields given as (lowest bit, value), with its parity. -/
def wWord (l : List (Nat × Nat)) : Nat :=
  let w := l.foldl (fun n f => n + f.2 * 2 ^ f.1) 0
  (List.range 4).foldl (fun n k => if (ones (bitsOf w (48 * k) 48) 48) % 2 = 0 then n + 2 ^ (192 + k) else n) w
def wHdr : Header :=
  { flags := 0, wordCount := 100, entry := 0, trapHandler := 50, codeOffset := 4096, segTable := 0, segCount := 2, initialSeg := 0,
    holdBlock := 0, holdIndex := 0, holdSeg := 0, replayLimit := 3, residentPages := 0, powerMw := [], segments := [(0, 8), (4096, 8)] }
def wMicro : Micro := { pc := 3, mask := 1, slots := [{ sites := 1, state := 1 }] }
/-- A program under way on the group of sequencer 0, at a micro-state. -/
def wProgOf (m : Micro) : Program :=
  { cmd := ⟨0, wEnt [(0, 1, 0x10), (5, 1, 3)], 0⟩, image := 0, header := wHdr, timeLimit := 0, frameAddr := 0x8000, scheduled := false,
    bgBase := 0, part := 1, micro := m }
def wProg : Program := wProgOf wMicro
def wBlk (ref : Nat) : Block := { segment := 0, ref := ref, consumer := 3, vectors := [7, 8, 9], srBase := 0, srStep := 0, status := 0, spec := false }
/-- That program, the word at its pc in the control store, and a block in the stream buffer. -/
def wRunning (g : Program) (w : Nat) : State :=
  wMap { wSite with programs := [(0, g)], seqs := [(0, { frames := [(0, { page := 0, words := [0, 0, 0, w] })], buffer := [wBlk (wBlock w)] })] }
def wW (c : Nat) : Nat := wWord [(188, c), (152, if c = 4 then 5 else 0)]
def wW6 : Nat := wWord [(188, 0), (141, 6), (135, 1)]
def wW9 : Nat := wWord [(188, 0), (141, 9)]
def wBad : Nat := wWord [(188, 0), (168, 1)]
def wReloc : State := w0.setFlag (Reg.CLK_STATUS_RELOCKING 31) true
/-- Bytes of fields given as (address, bytes, value), in rising order, zeros left out. -/
def wCells (l : List (Nat × Nat × Nat)) : SMap Byte :=
  (l.flatMap (fun x => (List.range x.2.1).map (fun i => (x.1 + i, BitVec.ofNat 8 (x.2.2 / 256 ^ i))))).filter (fun c => decide (c.2 ≠ 0))

/-! ### One step each -/

/-- The table gives no row bits (spec/opcode_table.json), so no word spells a command. -/
theorem test_no_table_word : decodeTableWord 64 5 = none := by decide +kernel

/-! ### The machine -/

/-- Values that meet the premises of `Obligations.EveryCommandRuns`. -/
theorem witness_EveryCommandRuns :
    ∃ (s : State) (c : Instr) (rest : List Instr), s.pending = c :: rest ∧ s.queueOk :=
  ⟨wPend, .perstAssert, [.boot], by unfold State.queueOk; decide +kernel⟩

/-- Values that meet the premises of `Obligations.MemoryStaysCanonical`. -/
theorem witness_MemoryStaysCanonical :
    ∃ (s : State) (t : State), storeWf s.memData = true ∧ step s = .next t :=
  ⟨wPend, wStep (wPend), by decide +kernel, rfl⟩

/-- Values that meet the premises of `Obligations.OnlyResetsTouchIdentity`. -/
theorem witness_OnlyResetsTouchIdentity :
    (∃ (i : Instr) (s : State) (t : State), i.resetsOrScans = false ∧ exec i s = .next t) ∧
    (∃ (s : State) (t : State), s.pending = [] ∧ step s = .next t) :=
  ⟨⟨.boot, State.reset, wAfter .boot State.reset, by decide +kernel, rfl⟩,
    ⟨State.reset, wStep State.reset, by decide +kernel, rfl⟩⟩

/-- Values that meet the premises of `Obligations.MemoryUntouched`. -/
theorem witness_MemoryUntouched :
    ∃ (i : Instr) (s : State) (t : State), i.mayStore = false ∧ exec i s = .next t :=
  ⟨.evAssert 3, State.reset, wAfter (.evAssert 3) State.reset, by decide +kernel, rfl⟩

/-- Values that meet the premises of `Obligations.FieldWrites`. -/
theorem witness_FieldWrites :
    ∃ (f : Fld), f.lo + f.width ≤ 64 :=
  ⟨⟨0x40, 0, 64⟩, by decide +kernel⟩


/-! ### Host -/

def wQ : State := { ((((w0.setFlag (Reg.SQ_ENABLE 0) true).setFlag (Reg.CQ_ENABLE 0) true).setFld (Reg.SQ_SIZE_LOG2 0) 4).setFld
  (Reg.CQ_SIZE_LOG2 0) 4) with hi := { busMaster := true, sq := [(0, { tail := 1, state := 1 })] } }
def wPoll : State := ((wQ.setFlag Reg.HI_STATUS_POLLING true).setFld Reg.PWR_STATUS_STATE 4).setFlag Reg.LINK_IN_L1 true
def wRound : State := { wQ with hi := { wQ.hi with roundLines := [0, 63], sq := [(0, { state := 1 }), (255, { state := 1 })] } }
def wEntry : Entry := 0
def wDone : Completion := ⟨0, ⟨0, wEntry, 0⟩, 0, 0, 0, false, false⟩
def wBuf : State := { wQ with hi := { wQ.hi with buffer := [wDone], cq := [(0, { tail := 15, head := 5 })] } }
def wTimer : State := { ((wQ.setFld (Reg.CQ_IRQ_VECTOR 0) 5)) with hi := { wQ.hi with cq := [(0, { modr := { unsignalled := 1, timer := true } })], msixEnable := true, unmasked := [5] }, ev := { queues := [(3, { modr := { unsignalled := 1, timer := true } })] } }
def wPba : State := { wQ with hi := { wQ.hi with pba := [7], msixEnable := true } }
def wL1 : State := wQ.setFlag Reg.LINK_IN_L1 true

/-- Values that meet the premises of `Obligations.HostQueuesMove`. -/
theorem witness_HostQueuesMove :
    (∃ (s : State), s.inReset = false ∧ s.flag Reg.HI_STATUS_POLLING = true ∧ s.hi.roundLines = []) ∧
    (∃ (s : State) (k : Fin 64), s.inReset = false ∧ k.val ∈ s.hi.roundLines) ∧
    (∃ (s : State) (q : Fin 256) (d : Entry), s.inReset = false ∧ s.hostWritable = true ∧ s.fetchTurn = some q.val ∧
      s.targetFull ⟨q.val, d, s.hi.epoch⟩ = false ∧
      ((Entry.opcode d = 0 ∨ opcodeClass (Entry.opcode d) = some (s.fld (Reg.SQ_CLASS q.val)))) ∧ Entry.field d 4 1 ≤ 3 ∧
      s.flag (Reg.CQ_ENABLE (Entry.field d 5 1)) = true ∧ Entry.opcode d < 0xA4 ∧ (¬ (0x83 ≤ Entry.opcode d ∧
      Entry.opcode d ≤ 0x8F)) ∧ (¬ (0x9D ≤ Entry.opcode d ∧ Entry.opcode d ≤ 0x9F))) ∧
    (∃ (s : State) (e : Completion) (l : List Completion), s.inReset = false ∧ s.hostWritable = true ∧
      s.flag Reg.LINK_IN_L1 = false ∧ s.hi.buffer = e :: l ∧ s.flag (Reg.CQ_ENABLE e.cq) = true ∧ s.cqRoom e.cq ≠ 0) ∧
    (∃ (s : State) (q : BitVec 8) (e : Entry), s.serves q e ∧ Entry.opcode e = 0) :=
  ⟨⟨wPoll, by decide +kernel⟩,
    ⟨wRound, 0, by decide +kernel⟩,
    ⟨wQ, 0, wEntry, by decide +kernel⟩,
    ⟨wBuf, wDone, [], by decide +kernel⟩,
    ⟨w0, 0, 0, by unfold State.serves State.up; decide +kernel⟩⟩

/-- Values that meet the premises of `Obligations.HostStateChanges`. -/
theorem witness_HostStateChanges :
    (∃ (s : State), s.inReset = false) ∧
    (∃ (s : State) (q : Fin 256), s.inReset = false ∧ (s.cqRec q.val).modr.timer = true) ∧
    (∃ (s : State) (k : Fin 4), s.inReset = false ∧ (s.heq k.val).modr.timer = true) ∧
    (∃ (s : State), s.inReset = false ∧ s.hi.functionMask = false) ∧
    (∃ (s : State) (k : Fin 64), s.inReset = false ∧ k.val ∈ s.hi.roundLines) ∧
    (∃ (s : State) (q : Fin 256), s.inReset = false ∧ s.hostWritable = true ∧ s.fetchTurn = some q.val) :=
  ⟨⟨w0, by decide +kernel⟩,
    ⟨wTimer, 0, by decide +kernel⟩,
    ⟨wTimer, 3, by decide +kernel⟩,
    ⟨wPba, by decide +kernel⟩,
    ⟨wRound, 63, by decide +kernel⟩,
    ⟨wQ, 0, by decide +kernel⟩⟩


/-! ### Registers -/

def wSeal : State := { w0 with fuse := { variant := 0, oem := { protMap := 2 ^ 64 - 1 } } }
/-- The row of the register at an address. -/
def wRow (a : Nat) : Reg.QuadRow := (Reg.rowOf a).getD ⟨0, 0, 0, 0, 0, 0, 0⟩
def wConfig : List Instr := [.clkPlanWrite 31 .whole 2000, .queueConfigWrite 63 7 true .whole 0x30000, .popDomainWrite .whole 0, .regionWrite 7 .whole 0, .sqConfigWrite 255 .whole 0,
  .cqConfigWrite 0 .whole 0, .pollIntervalWrite false 100, .feltCfgWrite .whole 0, .cpCtrlWrite 0, .heqConfigWrite 3 .whole 0]

/-- Values that meet the premises of `Obligations.DeniedWritesAreDiscarded`. -/
theorem witness_DeniedWritesAreDiscarded :
    ∃ (s : State) (a : BitVec 20) (wide : Bool), s.inReset = false ∧ s.flag Reg.SEC_STATUS_BOOTED = true ∧
      s.writeDenied a.toNat = true ∧ a.toNat % (if wide then 8 else 4) = 0 :=
  ⟨wSeal, 0x3200, true, by decide +kernel⟩

/-- Values that meet the premises of `Obligations.AccessesThatChangeNothing`. -/
theorem witness_AccessesThatChangeNothing :
    (∃ (s : State) (a : BitVec 20) (wide : Bool), s.inReset = false ∧ a.toNat % (if wide then 8 else 4) = 0 ∧
      ((s.flag Reg.SEC_STATUS_BOOTED = false ∨ s.writeShut (a.toNat / 8 * 8) = true ∨ Reg.rowOf (a.toNat / 8 * 8) = none ∨ (∃ r,
      Reg.rowOf (a.toNat / 8 * 8) = some r ∧ r.rw = 0 ∧ r.w1c = 0 ∧ r.wo = 0 ∧ s.tsWord (a.toNat / 8 * 8) = none)))) ∧
    (∃ (s : State) (a : BitVec 20) (wide : Bool), s.inReset = false ∧ a.toNat % (if wide then 8 else 4) ≠ 0) ∧
    (∃ (s : State) (a : BitVec 20) (size : BitVec 8), s.inReset = false ∧ fitsBar a.toNat size.toNat = false) :=
  ⟨⟨w0, 0, true, by decide +kernel⟩,
    ⟨w0, 2, false, by decide +kernel⟩,
    ⟨w0, 0, 0, by decide +kernel⟩⟩

/-- Values that meet the premises of `Obligations.SequencerWindowWrites`. -/
theorem witness_SequencerWindowWrites :
    ∃ (s : State) (n : Fin 64) (o : Nat) (v : BitVec 64) (r : Reg.QuadRow), o < 0x800 ∧ o % 8 = 0 ∧ ((o < 0x40 ∨ (0x80 ≤ o ∧
      o < 0x400) ∨ 0x600 ≤ o)) ∧ s.writable (0x50000 + 0x800 * n.val + o) ∧ Reg.rowOf (0x50000 + 0x800 * n.val + o) = some r ∧
      v.toNat &&& r.wo = 0 :=
  ⟨w0, 63, 0x80, 5, wRow (0x50000 + 0x800 * 63 + 0x80), by unfold State.writable; decide +kernel⟩

/-- Values that meet the premises of `Obligations.RowsOfRegistersAreWrites`. -/
theorem witness_RowsOfRegistersAreWrites :
    ∃ (i : Instr) (a : Nat) (v : Nat) (wide : Bool), i.barAccess = some (a, wide, v) :=
  ⟨.clkPlanWrite 31 .whole 2000, 319488, 2000, true, by decide +kernel⟩

/-- Values that meet the premises of `Obligations.ConfigurationWrites`. -/
theorem witness_ConfigurationWrites :
    (∃ (i : Instr) (s : State) (a : Nat) (v : Nat) (wide : Bool) (r : Reg.QuadRow), i.barAccess = some (a, wide, v) ∧
      (∀ c k part x, i ≠ .timingSetWrite c k part x) ∧ s.writable (a / 8 * 8) ∧ s.writeDenied a = false ∧
      Reg.rowOf (a / 8 * 8) = some r ∧ ((wide = true → pairQuad (a / 8 * 8) = false)) ∧
      r.rw &&& ((2 ^ (if wide then 64 else 32) - 1) * 2 ^ (a % 8 * 8)) ≠ 0 ∧ v * 2 ^ (a % 8 * 8) &&& r.wo = 0 ∧
      v * 2 ^ (a % 8 * 8) &&& r.w1c = 0 ∧
      (s.stored r (a / 8 * 8) ((2 ^ (if wide then 64 else 32) - 1) * 2 ^ (a % 8 * 8)) (v * 2 ^ (a % 8 * 8))).2 = false) ∧
    (∃ (s : State) (c : Fin 32) (k : Fin 7) (key : Nat) (r : Reg.QuadRow),
      s.writable (0x10000 + 0x2000 * c.val + 0x108 + 8 * k.val) ∧
      s.tsWord (0x10000 + 0x2000 * c.val + 0x108 + 8 * k.val) = some key ∧
      Reg.rowOf (0x10000 + 0x2000 * c.val + 0x108 + 8 * k.val) = some r) :=
  ⟨⟨.clkPlanWrite 31 .whole 2000, w0, 319488, 2000, true, wRow (319488 / 8 * 8), by decide +kernel, by intros; simp,
      by unfold State.writable; decide +kernel⟩,
    ⟨w0, 31, 6, (w0.tsWord (0x10000 + 0x2000 * 31 + 0x108 + 8 * 6)).getD 0, wRow (0x10000 + 0x2000 * 31 + 0x108 + 48),
      by unfold State.writable; decide +kernel⟩⟩

/-- Values that meet the premises of `Obligations.CountersClear`. -/
theorem witness_CountersClear :
    (∃ (i : Instr) (s : State) (a : Nat) (l : List (Nat × Nat)), i.clears = some (a, l) ∧ s.writable (a / 8 * 8) ∧
      s.writeDenied a = false) ∧
    (∃ (s : State) (n : Fin 64) (q : Fin 8), s.writable (Reg.queueB n.val q.val + 0x28)) :=
  ⟨⟨.hiClrCounts, w0, ((Instr.clears (.hiClrCounts)).getD (0, [])).1, ((Instr.clears (.hiClrCounts)).getD (0, [])).2,
      by unfold State.writable; decide +kernel⟩,
    ⟨w0, 0, 0, by unfold State.writable; decide +kernel⟩⟩


/-! ### Sites and pins -/

def wEn : Entry := wEnt [(0, 1, 0x20), (8, 1, 1)]
def wCl : Entry := wEnt [(0, 1, 0x22), (8, 1, 0xFF)]
def wCC : Entry := wEnt [(0, 1, 0x21), (8, 1, 0xFF), (9, 1, 4), (16, 5, 1000), (24, 4, 1), (28, 4, 2), (32, 8, 1000000)]
def wLd : Entry := wEnt [(0, 1, 0x23), (8, 1, 1), (16, 8, 0x1000)]
def wLoad : State := wMap wSite
def wPM : Entry := wEnt [(0, 1, 0x30), (8, 4, 0xFFFFFFFF), (12, 1, 3), (16, 8, 1000000000000), (24, 2, 7)]
def wPM0 : Entry := wEnt [(0, 1, 0x30), (2, 2, 31), (8, 4, 1), (12, 1, 1)]
def wApp : State := { wSite with applied := ((wSite.setFld (Reg.PPMU_CTRL_MODE 0) 2).setFld (Reg.PPMU_CTRL_MODE 1) 1).regs }
def wCause : State := { wSite with causes := [(0, 8, 77)] }
def wMs : PinMeas := { origin := .measure ⟨0, 0, 0⟩, leader := 0, position := 0, site := 5, test := 9, toPop := true, toRecord := false, queue := 0, word := 0, mode := 1, range := 2, avgLog2 := 3, wasConnected := false, start := 0, suspect := false }
def wMsC : PinMeas := { wMs with origin := .contact ⟨0, wCC, 0⟩ 0, mode := 2, range := 4 }
def wRun : ContactRun := { cmd := ⟨0, wCC, 0⟩, positions := 1, untested := 2 }
def wCheck : State := { wSite with groups := [(0, { size := 1, positions := [wPos], contact := some wRun })], pins := [(0, { meas := some wMsC }), (1, { meas := some wMsC })] }
def wMeas : State := { wSite with pins := [(0, { meas := some wMs })] }
def wMon : State := { wSite with applied := ((wSite.setFld (Reg.PIN_CTRL_MON_EN 0) 1).setFld (Reg.PIN_CTRL_MON_EN 1023) 1).regs }
def wMonOff : State := { w0 with applied := (w0.setQuad (Reg.PIN_CTRL_MON_EN 0).addr 0).regs }

/-- Values that meet the premises of `Obligations.SiteCommandsComplete`. -/
theorem witness_SiteCommandsComplete :
    (∃ (s : State) (q : BitVec 8) (e : Entry) (b : Nat), s.serves q e ∧ Entry.opcode e = 0x20 ∧ (s.taken q.toNat e).target = b ∧
      b < 64 ∧ (s.taken q.toNat e).reservedSet [(8, 2)] = false ∧ s.program b = none ∧ s.contactRuns b = false ∧
      s.siteConfigBad b (Entry.field (s.taken q.toNat e).entry 8 1) (Entry.field (s.taken q.toNat e).entry 9 1) = false ∧
      firstFailing (s.unitChecks ((s.wantedSeqs b).map seqUnit ++ ((s.wantedSeqs b).map seqCluster).dedup ++ ((s.wantedPositions b).flatMap (fun x => x.dps.map (fun d => d / 2))).dedup)) = none) ∧
    (∃ (s : State) (q : BitVec 8) (e : Entry) (b : Nat), s.serves q e ∧ Entry.opcode e = 0x22 ∧ (s.taken q.toNat e).target = b ∧
      (s.taken q.toNat e).reservedSet [(8, 1)] = false ∧ s.notLeader b = false ∧
      firstFailing (s.unitChecks (s.groupUnits b)) = none) ∧
    (∃ (s : State) (q : BitVec 8) (e : Entry) (b : Nat), s.serves q e ∧ Entry.opcode e = 0x21 ∧ (s.taken q.toNat e).target = b ∧
      (s.taken q.toNat e).reservedSet [(8, 2), (16, 5), (24, 16)] = false ∧ s.notLeader b = false ∧
      contactBad (s.taken q.toNat e) = false ∧ firstFailing (s.unitChecks (s.groupUnits b)) = none ∧ s.program b = none ∧
      (s.group b).contact = none ∧ (∀ p, (s.pin p).meas = none) ∧
      andMask (Entry.field (s.taken q.toNat e).entry 8 1) (s.openMask b) ≠ 0) ∧
    (∃ (s : State) (q : BitVec 8) (e : Entry) (b : Nat) (a : Nat) (m : Nat) (d : List Byte) (s1 : State), s.serves q e ∧
      Entry.opcode e = 0x23 ∧ (s.taken q.toNat e).target = b ∧ m = Entry.field (s.taken q.toNat e).entry 8 1 ∧
      a = Entry.field (s.taken q.toNat e).entry 16 8 ∧ (s.taken q.toNat e).reservedSet [(8, 1), (16, 8)] = false ∧
      s.notLeader b = false ∧ m ≠ 0 ∧ minusMask m (ofBits ((s.group b).positions.map (fun x => x.position))) = 0 ∧ a % 8 = 0 ∧
      a < 2 ^ 48 ∧ firstFailing (s.unitChecks (s.groupUnits b ++ [memUnit])) = none ∧ s.program b = none ∧
      (s.undispatch (s.taken q.toNat e)).memRead { engine := 0, unit := b } a 64 = (.ok d none, s1)) :=
  ⟨⟨w0, 0, wEnt [(0, 1, 0x20)], 0, by unfold State.serves State.up; decide +kernel⟩,
    ⟨wSite, 0, wCl, 0, by unfold State.serves State.up; decide +kernel⟩,
    ⟨wSite, 0, wCC, 0, by unfold State.serves State.up; decide +kernel, by decide +kernel, by decide +kernel, by decide +kernel,
      by decide +kernel, by decide +kernel, by decide +kernel, by decide +kernel, by decide +kernel, by intros; rfl,
      by decide +kernel⟩,
    ⟨wLoad, 0, wLd, 0, (Entry.field ((wLoad : State).taken (0 : BitVec 8).toNat (wLd : Entry)).entry 16 8),
      (Entry.field ((wLoad : State).taken (0 : BitVec 8).toNat (wLd : Entry)).entry 8 1), (match (wLoad.undispatch ⟨0, wLd,
      0⟩).memRead { engine := 0, unit := 0 } 0x1000 64 with | (.ok d _, _) => d | _ => []), ((wLoad.undispatch ⟨0, wLd,
      0⟩).memRead { engine := 0, unit := 0 } 0x1000 64).2, by unfold State.serves State.up; decide +kernel, by decide +kernel,
      by decide +kernel, rfl, rfl, by decide +kernel⟩⟩

/-- Values that meet the premises of `Obligations.ClosureAndContactEnd`. -/
theorem witness_ClosureAndContactEnd :
    (∃ (s : State) (b : Fin 64) (p : Fin 8) (x : SitePos) (k : Nat × Nat), s.inReset = false ∧
      SMap.find s.causes (causeKey b.val p.val) = some k ∧ s.sitePos b.val p.val = some x) ∧
    (∃ (s : State) (b : Fin 64) (l : List (BitVec 18 × Bool)) (r : ContactRun), s.inReset = false ∧
      (s.group b.val).contact = some r ∧ r.cmd.epoch = s.hi.epoch ∧
      ((s.contactPins b.val r.positions).filter (fun q => (s.pin q.1).meas.isSome)).length = l.length) :=
  ⟨⟨wCause, 0, 0, wPos, (8, 77), by decide +kernel⟩,
    ⟨wCheck, 0, [(5, false), (6, true)], wRun, by decide +kernel⟩⟩

/-- Values that meet the premises of `Obligations.PinMeasurements`. -/
theorem witness_PinMeasurements :
    (∃ (s : State) (q : BitVec 8) (e : Entry) (k : Nat) (mask : Nat) (d : Nat), s.serves q e ∧ Entry.opcode e = 0x30 ∧
      (s.taken q.toNat e).target = k ∧ mask = Entry.field (s.taken q.toNat e).entry 8 4 ∧
      d = Entry.field (s.taken q.toNat e).entry 12 1 ∧ (s.taken q.toNat e).reservedSet [(8, 5), (16, 10)] = false ∧ k < 32 ∧
      0 < d ∧ d < 4 ∧ Entry.field (s.taken q.toNat e).entry 16 8 ≤ 1000000000000 ∧ firstFailing (s.unitChecks [k]) = none ∧ (∀ b,
      s.program b = none) ∧ ((∀ i < 32, bitOf mask i = true → s.flag (Reg.PIN_STATUS_PPMU_ERR (32 * k + i)) = false))) ∧
    (∃ (s : State) (p : Fin 1024) (m : PinMeas), s.inReset = false ∧ (s.pin p.val).meas = some m ∧ (∀ c b,
      m.origin ≠ .contact c b)) ∧
    (∃ (s : State) (p : Fin 1024), s.inReset = false ∧ s.afld (Reg.PIN_CTRL_MON_EN p.val) ≠ 0 ∧
      s.blockOff (Reg.pinB p.val) = false) ∧
    (∃ (s : State) (p : Fin 1024), s.afld (Reg.PIN_CTRL_MON_EN p.val) = 0) ∧
    (∃ (s : State), s.inReset = false) ∧
    (∃ (s : State) (c : Fin 32), s.inReset = false ∧ s.blockOff (Reg.clB c.val) = false) :=
  ⟨⟨wApp, 0, wPM, 0, (Entry.field ((wApp : State).taken (0 : BitVec 8).toNat (wPM : Entry)).entry 8 4),
      (Entry.field ((wApp : State).taken (0 : BitVec 8).toNat (wPM : Entry)).entry 12 1),
      by unfold State.serves State.up; decide +kernel, by decide +kernel, by decide +kernel, rfl, rfl, by decide +kernel,
      by decide +kernel, by decide +kernel, by decide +kernel, by decide +kernel, by decide +kernel, by intros; rfl,
      by decide +kernel⟩,
    ⟨wMeas, 0, wMs, by decide +kernel, by decide +kernel, by simp [wMs]⟩,
    ⟨wMon, 0, by decide +kernel⟩,
    ⟨wMonOff, 0, by decide +kernel⟩,
    ⟨w0, by decide +kernel⟩,
    ⟨w0, 0, by decide +kernel⟩⟩


/-! ### Clocks and words -/

/-- Values that meet the premises of `Obligations.GroupsFit`. -/
theorem witness_GroupsFit :
    ∃ (s : State) (t : State), s.fits ∧ step s = .next t :=
  ⟨wPend, wStep wPend, fits_of (by decide +kernel), rfl⟩

/-- Values that meet the premises of `Obligations.ClocksRelock`. -/
theorem witness_ClocksRelock :
    (∃ (s : State) (c : Fin 32), s.inReset = false ∧ s.flag (Reg.CLK_STATUS_RELOCKING c.val) = true) ∧
    (∃ (s : State) (c : Fin 32), s.inReset = false ∧ s.flag (Reg.CLK_STATUS_LOCKED c.val) = true) :=
  ⟨⟨wReloc, 31, by decide +kernel⟩,
    ⟨(wRunning wProg (wW 0)).setFlag (Reg.CLK_STATUS_LOCKED 0) true, 0, by decide +kernel⟩⟩

/-- Values that meet the premises of `Obligations.WordsIssue`. -/
theorem witness_WordsIssue :
    (∃ x,
      ∃ (s : State) (b : Fin 64) (g : Program) (w : Nat) (src : Nat) (active : Nat) (c : Nat) (after : Nat) (m5 : Micro) (m7 : Micro),
      x ∈ wordRows ∧ s.fits ∧ s.issuable b.val g w ∧ wClass w = x.2 ∧ ((x.2 = 3 → wRepeat w = 0)) ∧ wTrap w = false ∧
      wSlotOp w % 3 = 0 ∧ wNext w ≠ 9 ∧ src = s.readCond b.val g w ∧ active = s.activeSites b.val g ∧
      m5 = g.micro.step5 w active ∧ c = finalCond m5 w src ∧ m7 = m5.step7 w c active (s.openMask b.val) (g.several m5) ∧
      after = andMask m7.mask (s.slotSites b.val g)) ∧
    (∃ (s : State) (b : Fin 64) (g : Program) (w : Nat), s.fits ∧ s.issuable b.val g w ∧ wClass w = 3 ∧ 0 < wRepeat w ∧
      (∀ n ∈ s.members b.val, (s.seqRec n).buffer.length = 1)) :=
  ⟨⟨((Instr.ctrl, 0) : (Fin 64 → BitVec 32 → Instr) × Nat), (wRunning (wProgOf (wMicro)) (wW 0)), 0, (wProgOf (wMicro)), wW 0,
      (wRunning (wProgOf (wMicro)) (wW 0)).readCond 0 (wProgOf (wMicro)) (wW 0),
      (wRunning (wProgOf (wMicro)) (wW 0)).activeSites 0 (wProgOf (wMicro)),
      (finalCond ((((wProgOf (wMicro)) : Program).micro.step5 (wW 0 : Nat) ((wRunning (wProgOf (wMicro)) (wW 0)).activeSites 0 (wProgOf (wMicro)) : Nat)) : Micro) (wW 0 : Nat) ((wRunning (wProgOf (wMicro)) (wW 0)).readCond 0 (wProgOf (wMicro)) (wW 0) : Nat)),
      (andMask ((((((wProgOf (wMicro)) : Program).micro.step5 (wW 0 : Nat) ((wRunning (wProgOf (wMicro)) (wW 0)).activeSites 0 (wProgOf (wMicro)) : Nat)) : Micro).step7 (wW 0 : Nat) ((finalCond ((((wProgOf (wMicro)) : Program).micro.step5 (wW 0 : Nat) ((wRunning (wProgOf (wMicro)) (wW 0)).activeSites 0 (wProgOf (wMicro)) : Nat)) : Micro) (wW 0 : Nat) ((wRunning (wProgOf (wMicro)) (wW 0)).readCond 0 (wProgOf (wMicro)) (wW 0) : Nat)) : Nat) ((wRunning (wProgOf (wMicro)) (wW 0)).activeSites 0 (wProgOf (wMicro)) : Nat) (((wRunning (wProgOf (wMicro)) (wW 0)) : State).openMask (0 : Fin 64).val) (((wProgOf (wMicro)) : Program).several ((((wProgOf (wMicro)) : Program).micro.step5 (wW 0 : Nat) ((wRunning (wProgOf (wMicro)) (wW 0)).activeSites 0 (wProgOf (wMicro)) : Nat)) : Micro))) : Micro).mask (((wRunning (wProgOf (wMicro)) (wW 0)) : State).slotSites (0 : Fin 64).val ((wProgOf (wMicro)) : Program))),
      (((wProgOf (wMicro)) : Program).micro.step5 (wW 0 : Nat) ((wRunning (wProgOf (wMicro)) (wW 0)).activeSites 0 (wProgOf (wMicro)) : Nat)),
      (((((wProgOf (wMicro)) : Program).micro.step5 (wW 0 : Nat) ((wRunning (wProgOf (wMicro)) (wW 0)).activeSites 0 (wProgOf (wMicro)) : Nat)) : Micro).step7 (wW 0 : Nat) ((finalCond ((((wProgOf (wMicro)) : Program).micro.step5 (wW 0 : Nat) ((wRunning (wProgOf (wMicro)) (wW 0)).activeSites 0 (wProgOf (wMicro)) : Nat)) : Micro) (wW 0 : Nat) ((wRunning (wProgOf (wMicro)) (wW 0)).readCond 0 (wProgOf (wMicro)) (wW 0) : Nat)) : Nat) ((wRunning (wProgOf (wMicro)) (wW 0)).activeSites 0 (wProgOf (wMicro)) : Nat) (((wRunning (wProgOf (wMicro)) (wW 0)) : State).openMask (0 : Fin 64).val) (((wProgOf (wMicro)) : Program).several ((((wProgOf (wMicro)) : Program).micro.step5 (wW 0 : Nat) ((wRunning (wProgOf (wMicro)) (wW 0)).activeSites 0 (wProgOf (wMicro)) : Nat)) : Micro))),
      by simp [wordRows], fits_of (by decide +kernel), issuable_of (by decide +kernel), by decide +kernel, by decide +kernel,
      by decide +kernel, by decide +kernel, by decide +kernel, rfl, rfl, rfl, rfl, rfl, rfl⟩,
    ⟨(wRunning wProg (wWord [(188, 3), (152, 2)])), 0, wProg, (wWord [(188, 3), (152, 2)]), fits_of (by decide +kernel),
      issuable_of (by decide +kernel), by decide +kernel⟩⟩

/-- Values that meet the premises of `Obligations.WordsEndWaitAndTrap`. -/
theorem witness_WordsEndWaitAndTrap :
    (∃ x, ∃ (s : State) (b : Fin 64) (g : Program) (w : Nat), x ∈ wordRows ∧ s.fits ∧ s.issuable b.val g w ∧ wClass w = x.2 ∧
      ((x.2 = 3 → wRepeat w = 0)) ∧ wTrap w = false ∧ wNext w = 9 ∧ g.trap = none ∧ wSlotOp w % 3 = 0 ∧ ((∀ i < 8,
      i ≠ g.micro.runningSlot → (g.micro.slot i).state = 0))) ∧
    (∃ x, ∃ (s : State) (b : Fin 64) (g : Program) (w : Nat), x ∈ wordRows ∧ s.fits ∧ s.issuable b.val g w ∧ wClass w = x.2 ∧
      ((x.2 = 3 → wRepeat w = 0)) ∧ wTrap w = false ∧ wNext w = 6 ∧ ((∀ k, 8 ≤ k → k ≤ 11 → wCond w ≠ k)) ∧ wMaskOp w = 0 ∧
      allHold w (finalCond g.micro w (s.readCond b.val g w)) (s.activeSites b.val g) = false) ∧
    (∃ x, ∃ (s : State) (b : Fin 64) (g : Program) (w : Nat), x ∈ wordRows ∧ s.fits ∧ s.issuable b.val g w ∧ wClass w = x.2 ∧
      ((x.2 = 3 → wRepeat w = 0)) ∧ wTrap w = false ∧ wNext w = 7) ∧
    (∃ x, ∃ (s : State) (b : Fin 64) (g : Program) (w : Nat), x ∈ wordRows ∧ s.fits ∧ s.issuable b.val g w ∧ wClass w = x.2 ∧
      ((x.2 = 3 → wRepeat w = 0)) ∧ wTrap w = false ∧ wNext w = 8 ∧ g.trap = none) ∧
    (∃ x, ∃ (s : State) (b : Fin 64) (g : Program) (w : Nat) (i : Nat) (f : Frame), x ∈ wordRows ∧ s.inReset = false ∧
      s.program b.val = some g ∧ g.mayIssue = true ∧ g.seqDone = 0 ∧ g.trapRequests = [] ∧
      g.trapsAgain.head?.map Prod.fst ≠ some g.micro.pc ∧ g.preempts = [] ∧ g.calWant = false ∧ s.reamBlocks b.val = false ∧
      ((wReconverge w = true → g.micro.inUse ≤ 1 ∨ g.released = true)) ∧ parityFailed w = 0 ∧
      s.fetchWord b.val g.micro.pc = some (i, f, w) ∧ wClass w = x.2 ∧ f.poisoned.contains (g.micro.pc % 256 / 2) = false ∧
      g.trap = none ∧ wordIllegal g.header g.micro g.micro.pc w = true) ∧
    (∃ x, ∃ (s : State) (b : Fin 64) (g : Program), x ∈ wordRows ∧ s.inReset = false ∧ s.program b.val = some g ∧
      g.mayIssue = true ∧ s.fetchWord b.val g.micro.pc = none) :=
  ⟨⟨((Instr.ctrl, 0) : (Fin 64 → BitVec 32 → Instr) × Nat), (wRunning (wProgOf (wMicro)) (wW9)), 0, (wProgOf (wMicro)), wW9,
      by simp [wordRows], fits_of (by decide +kernel), issuable_of (by decide +kernel), by decide +kernel⟩,
    ⟨((Instr.ctrl, 0) : (Fin 64 → BitVec 32 → Instr) × Nat), (wRunning (wProgOf (wMicro)) (wW6)), 0, (wProgOf (wMicro)), wW6,
      by simp [wordRows], fits_of (by decide +kernel), issuable_of (by decide +kernel), by decide +kernel⟩,
    ⟨((Instr.ctrl, 0) : (Fin 64 → BitVec 32 → Instr) × Nat), (wRunning (wProgOf (wMicro)) (wWord [(141, 7)])), 0,
      (wProgOf (wMicro)), wWord [(141, 7)], by simp [wordRows], fits_of (by decide +kernel), issuable_of (by decide +kernel),
      by decide +kernel⟩,
    ⟨((Instr.ctrl, 0) : (Fin 64 → BitVec 32 → Instr) × Nat), (wRunning (wProgOf (wMicro)) (wWord [(141, 8)])), 0,
      (wProgOf (wMicro)), wWord [(141, 8)], by simp [wordRows], fits_of (by decide +kernel), issuable_of (by decide +kernel),
      by decide +kernel⟩,
    ⟨((Instr.ctrl, 0) : (Fin 64 → BitVec 32 → Instr) × Nat), (wRunning (wProgOf (wMicro)) (wBad)), 0, (wProgOf (wMicro)), wBad, 0,
      { page := 0, words := [0, 0, 0, wBad] }, by simp [wordRows], by decide +kernel⟩,
    ⟨((Instr.ctrl, 0) : (Fin 64 → BitVec 32 → Instr) × Nat), { wSite with programs := [(0, wProg)] }, 0, wProg,
      by simp [wordRows], by decide +kernel⟩⟩

/-- Values that meet the premises of `Obligations.WaitsEnd`. -/
theorem witness_WaitsEnd :
    (∃ (s : State) (b : Fin 64) (g : Program) (i : Nat) (w : Nat) (f : Frame), s.inReset = false ∧ s.program b.val = some g ∧
      s.fetchWord b.val g.micro.pc = some (i, f, w) ∧ g.wait = 2 ∧ wAux16 w ≠ 0 ∧ g.ended = false ∧ g.dueTrap = none ∧
      wSlotOp w % 3 = 0) ∧
    (∃ (s : State) (b : Fin 64) (g : Program) (i : Nat) (w : Nat) (f : Frame), s.inReset = false ∧ s.program b.val = some g ∧
      s.fetchWord b.val g.micro.pc = some (i, f, w) ∧ g.wait = 2 ∧ g.ended = false ∧ g.dueTrap = none ∧ wSlotOp w % 3 = 0 ∧
      s.condReady b.val g w = true ∧ allHold w (finalCond g.micro w (s.readCond b.val g w)) (s.activeSites b.val g) = true) ∧
    (∃ (s : State) (b : Fin 64) (g : Program) (i : Nat) (w : Nat) (f : Frame), s.inReset = false ∧ s.program b.val = some g ∧
      s.fetchWord b.val g.micro.pc = some (i, f, w) ∧ g.wait = 1 ∧ g.ended = false ∧ s.condReady b.val g w = true ∧
      s.reamBlocks b.val = false ∧ ((wIssues w = true → g.queue.length < vectorQueueDepth))) ∧
    (∃ (s : State) (b : Fin 64) (g : Program) (i : Nat) (w : Nat) (f : Frame), s.inReset = false ∧ s.program b.val = some g ∧
      s.fetchWord b.val g.micro.pc = some (i, f, w) ∧ g.wait = 3 ∧ g.ended = false ∧ g.dueTrap = none ∧ wSlotOp w % 3 = 0 ∧
      (∀ x ∈ g.outstanding, g.syncVector ≤ x.firstVector) ∧ (∀ x ∈ g.triggers ++ g.carried, g.syncSerial < x.serial) ∧
      (∀ r ∈ g.pendingReadings, g.syncSerial < r.1)) :=
  ⟨⟨wRunning { wProg with wait := 2 } (wWord [(141, 6), (135, 1), (0, 9), (110, 60)]), 0, { wProg with wait := 2 }, 0,
      wWord [(141, 6), (135, 1), (0, 9), (110, 60)], { page := 0, words := [0, 0, 0, wWord [(141, 6), (135, 1), (0, 9), (110, 60)]] },
      by decide +kernel⟩,
    ⟨wRunning { wProg with wait := 2 } (wWord [(141, 6)]), 0, { wProg with wait := 2 }, 0, wWord [(141, 6)], { page := 0, words := [0, 0, 0, wWord [(141, 6)]] },
      by decide +kernel⟩,
    ⟨wRunning { wProg with wait := 1 } (wWord [(141, 2), (135, 1)]), 0, { wProg with wait := 1 }, 0, wWord [(141, 2), (135, 1)],
      { page := 0, words := [0, 0, 0, wWord [(141, 2), (135, 1)]] }, by decide +kernel⟩,
    ⟨wRunning { wProg with wait := 3 } (wWord [(141, 7)]), 0, { wProg with wait := 3 }, 0, wWord [(141, 7)], { page := 0, words := [0, 0, 0, wWord [(141, 7)]] },
      by decide +kernel⟩⟩


/-! ### Results and analog controls -/

def wIss : IssuedWord :=
  { pc := 3, cls := 1, repeats := 0, capture := 1, slot := 0, sites := 1, mask := 1, siteRegs := [0, 0, 0, 0, 0, 0, 0, 0], prev := [],
    blocks := [[{ wBlk 0 with vectors := [2 ^ 256 / 15 * 6 % 2 ^ 64] }]], firstVector := 0 }
def wOut : State := { wSite with programs := [(0, { wProg with outstanding := [wIss] })] }
/-- That site with pin 0's PPMU, a trigger or an analog control due. -/
def wTrig (k : Nat) : Trigger := { serial := 4, kind := k, limit := 0, toPop := false, toRecord := true, base := 100, sites := 1, word := 3, queue := 0 }
def wDue (k : Nat) : State :=
  { wSite with programs := [(0, { wProg with triggers := [wTrig k] })], pins := [],
               applied := ((wSite.setFld (Reg.PPMU_CTRL_MODE 0) 2).setFld (Reg.PPMU_CTRL_MODE 1) 1).regs }
def wConn : State := { wDue 1 with pins := [(0, { connected := true, parked := false })] }
def wAn (a v : Nat) : State := { wDue 1 with programs := [(0, { wProg with analog := [(a, v, 1)] })] }
def wAnAwg (a v : Nat) : State := let s := wAn a v; { (s.setFld (Reg.AWG_STATUS_STATE 0) 2) with applied := ((s.setFld (Reg.AWG_SEQ_CFG_SEQ_COUNT 0) 4).regs) }

/-- Values that meet the premises of `Obligations.ResultsAndTriggers`. -/
theorem witness_ResultsAndTriggers :
    (∃ (s : State) (b : Fin 64) (atE3 : BitVec 256) (steady : BitVec 128) (g : Program) (w : IssuedWord) (idx : Nat) (l : List PinResult),
      s.inReset = false ∧ s.program b.val = some g ∧ g.outstanding = [w] ∧ s.nextTested b.val w = some idx ∧ w.clear = 0 ∧
      l = s.pinResults b.val w (w.place idx).1 (w.place idx).2.1 (w.place idx).2.2.2 (fun i j => { code := bitsOf atE3.toNat (2 * (16 * i + j)) 2, steady := bitOf steady.toNat (16 * i + j) })) ∧
    (∃ (s : State) (b : Fin 64) (g : Program) (tr : Trigger) (pins : List (Nat × Nat × Nat × SitePos)), s.inReset = false ∧
      s.dueTrigger b.val 1 = some (g, tr) ∧ (∀ p, (s.pin p).meas = none) ∧
      pins = (s.groupPins b.val).filter (fun q => bitOf (andMask tr.sites (s.openMask b.val)) q.2.2.2.position && s.ppmuActive q.2.2.1)) ∧
    (∃ (s : State) (b : Fin 64) (g : Program) (tr : Trigger), s.inReset = false ∧ s.fits ∧ s.dueTrigger b.val 2 = some (g, tr) ∧
      (∀ n, (s.tmu n).arm = none)) ∧
    (∃ (s : State) (b : Fin 64) (g : Program) (tr : Trigger), s.inReset = false ∧ s.fits ∧ s.dueTrigger b.val 3 = some (g, tr) ∧
      (∀ c, (s.dg c).arm = none)) ∧
    (∃ (s : State) (b : Fin 64) (g : Program) (tr : Trigger), s.inReset = false ∧ s.dueTrigger b.val 4 = some (g, tr) ∧ ((∀ n,
      (s.dpsRec n).meas = none ∧ (s.dpsRec n).level2 = false))) :=
  ⟨⟨wOut, 0, 1, 3, { wProg with outstanding := [wIss] }, wIss, 0,
      ((wOut : State).pinResults (0 : Fin 64).val (wIss : IssuedWord) ((wIss : IssuedWord).place (0 : Nat)).1 ((wIss : IssuedWord).place (0 : Nat)).2.1 ((wIss : IssuedWord).place (0 : Nat)).2.2.2 (fun i j => { code := bitsOf (1 : BitVec 256).toNat (2 * (16 * i + j)) 2, steady := bitOf (3 : BitVec 128).toNat (16 * i + j) })),
      by decide +kernel, by decide +kernel, by decide +kernel, by decide +kernel, by decide +kernel, rfl⟩,
    ⟨wConn, 0, { wProg with triggers := [wTrig 1] }, wTrig 1,
      (((wConn : State).groupPins (0 : Fin 64).val).filter (fun q => bitOf (andMask (wTrig 1 : Trigger).sites ((wConn : State).openMask (0 : Fin 64).val)) q.2.2.2.position && (wConn : State).ppmuActive q.2.2.1)),
      by decide +kernel, by decide +kernel, get_of (P := fun (x : Pin) => x.meas = none) rfl (by decide +kernel), rfl⟩,
    ⟨wDue 2, 0, { wProg with triggers := [wTrig 2] }, wTrig 2, by decide +kernel, fits_of (by decide +kernel), by decide +kernel,
      by intros; rfl⟩,
    ⟨wDue 3, 0, { wProg with triggers := [wTrig 3] }, wTrig 3, by decide +kernel, fits_of (by decide +kernel), by decide +kernel,
      by intros; rfl⟩,
    ⟨wDue 4, 0, { wProg with triggers := [wTrig 4] }, wTrig 4, by decide +kernel, by decide +kernel,
      get_of (P := fun (x : Dps) => x.meas = none ∧ x.level2 = false) ⟨rfl, rfl⟩ (by decide +kernel)⟩⟩

/-- Values that meet the premises of `Obligations.AnalogControls`. -/
theorem witness_AnalogControls :
    (∃ (s : State) (b : Fin 64) (on : Bool) (a : Nat) (sites : Nat), s.inReset = false ∧
      s.dueAnalog b.val (if on then 1 else 2) = some (a, sites)) ∧
    (∃ (s : State) (b : Fin 64) (k : Fin 2) (a : Nat) (sites : Nat), s.inReset = false ∧ s.dueAnalog b.val (3 + k.val) = some (a,
      sites)) ∧
    (∃ (s : State) (b : Fin 64) (a : Nat) (sites : Nat), s.inReset = false ∧ s.fits ∧ s.dueAnalog b.val 5 = some (a, sites)) ∧
    (∃ (s : State) (b : Fin 64) (jump : Bool) (a : Nat) (sites : Nat), s.inReset = false ∧ s.fits ∧
      s.dueAnalog b.val (if jump then 7 else 6) = some (a, sites)) ∧
    (∃ (s : State) (b : Fin 64) (on : Bool) (a : Nat) (sites : Nat), s.inReset = false ∧
      s.dueAnalog b.val (if on then 8 else 9) = some (a, sites)) ∧
    (∃ (s : State) (b : Fin 64) (a : Nat) (sites : Nat), s.inReset = false ∧ s.fits ∧ s.dueAnalog b.val 10 = some (a, sites)) ∧
    (∃ (s : State) (b : Fin 64) (g : Program) (a : Nat) (sites : Nat), s.inReset = false ∧ s.program b.val = some g ∧
      s.dueAnalog b.val 11 = some (a, sites) ∧ g.freezeHeader = false ∧ ((∀ x ∈ s.programs,
      x.1 ≠ b.val → x.2.freezeHeader = false ∧ x.2.freezeOp = false)) ∧ s.programs.countP (fun x => decide (x.1 = b.val)) = 1) :=
  ⟨⟨wAn 1 0, 0, true, 0, 1, by decide +kernel⟩,
    ⟨wAn 3 0, 0, 0, 0, 1, by decide +kernel⟩,
    ⟨wAn 5 0, 0, 0, 1, by decide +kernel, fits_of (by decide +kernel), by decide +kernel⟩,
    ⟨wAn 6 0, 0, false, 0, 1, by decide +kernel, fits_of (by decide +kernel), by decide +kernel⟩,
    ⟨wAn 8 0, 0, true, 0, 1, by decide +kernel⟩,
    ⟨wAn 10 0, 0, 0, 1, by decide +kernel, fits_of (by decide +kernel), by decide +kernel⟩,
    ⟨wAn 11 0, 0, { wProg with analog := [(11, 0, 1)] }, 0, 1, by decide +kernel⟩⟩


/-! ### Programs -/

/-- An image, its segment with one block, and a pre-emption frame of it. -/
def wImage : SMap Byte :=
  wCells [(0x1000, 4, 0x505A5645), (0x1004, 2, 1), (0x1008, 4, 600), (0x1010, 4, 50), (0x1014, 4, 4096), (0x1018, 4, 256), (0x101C, 2, 1),
    (0x1026, 1, 3), (0x1100, 8, 0x8000), (0x1108, 4, 1), (0x8000, 4, 0x535A5645), (0x8004, 2, 1), (0x8006, 1, 1), (0x8008, 4, 1),
    (0x8040, 8, 2 + 2 ^ 32 * 12), (0x8080, 8, 1 + 2 ^ 32 * 4), (0x8088, 2, 0xA022), (0xA000, 4, 0x454D5246), (0xA004, 1, 1), (0xA007, 1, 1),
    (0xA008, 8, 0x1000), (0xA010, 4, 7), (0xA070, 1, 1), (0xA071, 1, 1), (0xA080, 8, 1 + 2 ^ 32)]
def wReady : State := let s := wMap wSite; { s with mem := { s.mem with cells := wImage } }
def wSt : Entry := wEnt [(0, 1, 0x10), (8, 8, 0x1000), (24, 8, 0x8000)]
def wRs : Entry := wEnt [(0, 1, 0x12), (8, 8, 0xA000)]
def wWait : State := { wReady with starts := [⟨0, wSt, 0⟩] }
/-- The image read for the site's group, and the hold vectors, from a state. -/
def wRead (s : State) : Option (Header × List (Nat × Nat × Nat)) × Pre × State := s.readImage 0 0x1000
def wAt (e : Entry) : State := wReady.undispatch ⟨0, e, 0⟩
def wAtR : State := ((wAt wRs).preRead { engine := 8, unit := 0 } 0xA000 512).2.2
def wFrm : List Byte := ((((wAt wRs).preRead { engine := 8, unit := 0 } 0xA000 512).1).map (fun x => x.getD 0))
def wH (x : Option (Header × List (Nat × Nat × Nat))) : Header := (x.map Prod.fst).getD wHdr
def wHo (x : Option (Header × List (Nat × Nat × Nat))) : List (Nat × Nat × Nat) := (x.map Prod.snd).getD []
def wRun1 : State := wRunning wProg (wW 0)
def wPr : Entry := wEnt [(0, 1, 0x11), (16, 8, 5)]
def wTr : Entry := wEnt [(0, 1, 0x13)]
def wGp : Program := { wProg with preempts := [⟨0, wPr, 0⟩] }
def wG3 : Program := { wGp with stall := 3 }
def wFw : FrameWrite := { frame := List.replicate 512 1, request := some ⟨0, wTr, 0⟩ }
def wGf : Program := { wProg with frameWrites := [wFw] }
def wGe : Program := { wProg with ended := true, status := [0x60, 0, 0, 0, 0, 0, 0, 0] }
def wGl : Program := { wProg with timeLimit := 99, begun := true }
def wGb (m : Program) : Program := { m with blocked := 3 }
def wBlocked (g : Program) (w : Nat) : State := (wRunning g w).setFlag (Reg.EB_STATUS_BACKPRESSURE 0) true
def wGs : Program := wGb { wProg with header := { wHdr with flags := 1 }, snapshot := some ({ wMicro with pc := 1 }, none) }
def wGs3 : Program := { wGs with replays := 3 }
def wGm : Program := { wProg with blocked := 1 }
def wMissing : State := { wSite with programs := [(0, wGm)] }
def wGfl : Program := { wProg with image := 0x1000, header := { wHdr with codeOffset := 4096 } }
def wFill : State := wMap { wSite with programs := [(0, wGfl)] }
def wPage (s : State) (pg : Nat) (spec : Bool) : PageGot × State := s.readPage 0 0x1000 4096 pg spec
def wGpf : Program := { wGfl with header := { wHdr with wordCount := 600 }, begun := true, micro := { wMicro with pc := 0xC3 } }
def wSpec : State := wMap { (wSite.setFlag (Reg.CS_CTRL_PREFETCH_EN 0) true) with programs := [(0, wGpf)], seqs := [(0, { frames := [(5, { page := 0, words := [0] })] })] }
def wH1 : Header := { wHdr with segCount := 1, segments := [(0x8000, 1)] }
def wGv : Program := { wProg with header := wH1 }
def wStream : State := let s := wMap { (wSite.setFld (Reg.STREAM_MODE 0) 2) with programs := [(0, wGv)], seqs := [(0, { frames := [(0, { page := 0, words := [0, 0, 0, wW 1] })] })] }
  { s with mem := { s.mem with cells := wImage } }
def wRing : State := let s := wStream.setFld (Reg.STREAM_MODE 0) 1; { s with rings := [(0, { entries := [{ wBlk 0 with consumer := 3 }] })] }

/-- The state of a stream channel as its blocks are read, the item of its path and the block; of one in a ring, the same. -/
def wU2 : State := (wStream.applyDue (wStream.leaderOf (0 : Fin 64).val)).alignStreams (wStream.leaderOf (0 : Fin 64).val)
def wI2 : PathItem := (wU2.path (wStream.leaderOf (0 : Fin 64).val) wGv 8)[0]?.getD { segment := 0, ref := 0, consumer := 0, spec := false }
def wB2 : Got × State := wU2.readBlock wGv.header (0 : Fin 64).val 1 ((0 : Fin 64).val - 0) wI2.segment wI2.ref wI2.consumer wI2.spec
def wU3 : State := (wRing.applyDue (wRing.leaderOf (0 : Fin 64).val)).alignStreams (wRing.leaderOf (0 : Fin 64).val)
def wI3 : PathItem := (wU3.path (wRing.leaderOf (0 : Fin 64).val) wGv 1)[0]?.getD { segment := 0, ref := 0, consumer := 0, spec := false }
/-- What a program's start reads of its image. -/
def wReadOf (s : State) (c : Cmd) : Option (Header × List (Nat × Nat × Nat)) × Pre × State := s.readImage c.target 0x1000
def wStC : Cmd := wReady.taken (0 : BitVec 8).toNat wSt

def wMw (s : State) (a : Nat) (d : List Byte) : Acc × State := s.memWrite { engine := 8, unit := (0 : Fin 64).val } a d false

/-- Values that meet the premises of `Obligations.ProgramsStart`. -/
theorem witness_ProgramsStart :
    (∃ (s : State) (s1 : State) (q : BitVec 8) (e : Entry) (resume : Bool) (image : Nat) (frame : Nat) (h : Header) (holds : List (Nat × Nat × Nat)) (resumed : Option (Micro × Nat)),
      s.serves q e ∧ Entry.opcode e = (if resume then 0x12 else 0x10) ∧ s.held = [] ∧
      s.program (s.taken q.toNat e).target = none ∧ (∀ x ∈ s.starts, x.target ≠ (s.taken q.toNat e).target) ∧
      (s.undispatch (s.taken q.toNat e)).startPasses (s.taken q.toNat e) image frame h holds resumed s1 ∧
      ((s1.firstMicro (s.taken q.toNat e).target h resumed).slot (s1.firstMicro (s.taken q.toNat e).target h resumed).runningSlot).state ≠ 0) ∧
    (∃ (s : State) (q : BitVec 8) (e : Entry) (resume : Bool), s.serves q e ∧ Entry.opcode e = (if resume then 0x12 else 0x10) ∧
      s.held = [] ∧ s.program (s.taken q.toNat e).target ≠ none) ∧
    (∃ (s : State) (s1 : State) (b : Fin 64) (c : Cmd) (image : Nat) (frame : Nat) (h : Header) (holds : List (Nat × Nat × Nat)) (resumed : Option (Micro × Nat)),
      s.inReset = false ∧ s.held = [] ∧ s.program b.val = none ∧ s.starts.find? (fun x => decide (x.target = b.val)) = some c ∧
      s.startPasses c image frame h holds resumed s1 ∧
      ((s1.firstMicro b.val h resumed).slot (s1.firstMicro b.val h resumed).runningSlot).state ≠ 0) :=
  ⟨⟨wReady, (wReadOf (wReady.undispatch wStC) wStC).2.2, 0, wSt, false, 0x1000, 0x8000,
      ((wReadOf (wReady.undispatch wStC) wStC).1.map Prod.fst).getD wHdr,
      ((wReadOf (wReady.undispatch wStC) wStC).1.map Prod.snd).getD [], none, by unfold State.serves State.up; decide +kernel,
      by decide +kernel, by decide +kernel, by decide +kernel, by decide +kernel,
      by unfold State.startPasses; exact ⟨.inl ⟨by decide +kernel, rfl, by decide +kernel, by decide +kernel, by decide,
      by decide, by decide +kernel, image_of (x := (wReadOf (wReady.undispatch wStC) wStC)) (by decide +kernel)⟩,
      by decide +kernel, by decide +kernel, by decide +kernel⟩, by decide +kernel⟩,
    ⟨wRun1, 0, wSt, false, by unfold State.serves State.up; decide +kernel⟩,
    ⟨wWait, (wReadOf wWait ⟨0, wSt, 0⟩).2.2, 0, ⟨0, wSt, 0⟩, 0x1000, 0x8000, ((wReadOf wWait ⟨0, wSt,
      0⟩).1.map Prod.fst).getD wHdr, ((wReadOf wWait ⟨0, wSt, 0⟩).1.map Prod.snd).getD [], none, by decide +kernel,
      by decide +kernel, by decide +kernel, by decide +kernel, by unfold State.startPasses; exact ⟨.inl ⟨by decide +kernel, rfl,
      by decide +kernel, by decide +kernel, by decide, by decide, by decide +kernel, image_of (x := (wReadOf wWait ⟨0, wSt,
      0⟩)) (by decide +kernel)⟩, by decide +kernel, by decide +kernel, by decide +kernel⟩, by decide +kernel⟩⟩

/-- Values that meet the premises of `Obligations.PreemptionAndTraps`. -/
theorem witness_PreemptionAndTraps :
    (∃ (s : State) (q : BitVec 8) (e : Entry) (trap : Bool), s.serves q e ∧ Entry.opcode e = (if trap then 0x13 else 0x11) ∧
      (s.taken q.toNat e).reservedSet (if trap then [] else [(16, 8)]) = false ∧ s.notLeader (s.taken q.toNat e).target = false ∧
      firstFailing (s.unitChecks (s.groupUnits (s.taken q.toNat e).target)) = none ∧ s.running (s.taken q.toNat e).target = none) ∧
    (∃ (s : State) (q : BitVec 8) (e : Entry) (trap : Bool), ∃ g, s.serves q e ∧ Entry.opcode e = (if trap then 0x13 else 0x11) ∧
      (s.taken q.toNat e).reservedSet (if trap then [] else [(16, 8)]) = false ∧ s.notLeader (s.taken q.toNat e).target = false ∧
      firstFailing (s.unitChecks (s.groupUnits (s.taken q.toNat e).target)) = none ∧
      s.running (s.taken q.toNat e).target = some g ∧ trap = false) ∧
    (∃ (s : State) (q : BitVec 8) (e : Entry) (trap : Bool), ∃ g, s.serves q e ∧ Entry.opcode e = (if trap then 0x13 else 0x11) ∧
      (s.taken q.toNat e).reservedSet (if trap then [] else [(16, 8)]) = false ∧ s.notLeader (s.taken q.toNat e).target = false ∧
      firstFailing (s.unitChecks (s.groupUnits (s.taken q.toNat e).target)) = none ∧
      s.running (s.taken q.toNat e).target = some g ∧ trap = true ∧ (¬ ((g.wait = 1 ∨ g.wait = 2) ∧ g.stall ≠ 3))) ∧
    (∃ (s : State) (q : BitVec 8) (e : Entry) (trap : Bool), ∃ g, s.serves q e ∧ Entry.opcode e = (if trap then 0x13 else 0x11) ∧
      (s.taken q.toNat e).reservedSet (if trap then [] else [(16, 8)]) = false ∧ s.notLeader (s.taken q.toNat e).target = false ∧
      firstFailing (s.unitChecks (s.groupUnits (s.taken q.toNat e).target)) = none ∧
      s.running (s.taken q.toNat e).target = some g ∧ trap = true ∧ ((g.wait = 1 ∨ g.wait = 2)) ∧ g.stall ≠ 3 ∧ g.trap = none) ∧
    (∃ (s : State) (b : Fin 64) (k : Nat) (g : Program) (c : Cmd), s.inReset = false ∧ s.program b.val = some g ∧
      g.preempts[k]? = some c ∧ c.preemptLimit ≠ 0 ∧ g.stall ≠ 3 ∧ g.blocked ≠ 4 ∧ c.epoch = s.hi.epoch) ∧
    (∃ (s : State) (s1 : State) (b : Fin 64) (g : Program) (d : List Byte) (x : Option Nat), s.inReset = false ∧
      s.program b.val = some g ∧ g.stall = 3 ∧ g.ended = false ∧ s.memWrite { engine := 8, unit := b.val } g.frameAddr (s.preemptFrame b.val g) false = (.ok d x,
      s1) ∧ s1.programs = s.programs) ∧
    (∃ (s : State) (s1 : State) (b : Fin 64) (g : Program) (f : FrameWrite) (l : List FrameWrite) (d : List Byte) (x : Option Nat),
      s.inReset = false ∧ s.program b.val = some g ∧ g.frameWrites = f :: l ∧ s.memWrite { engine := 8, unit := b.val } g.frameAddr f.frame false = (.ok d x,
      s1) ∧ s1.programs = s.programs) :=
  ⟨⟨wSite, 0, wTr, true, by unfold State.serves State.up; decide +kernel⟩,
    ⟨wRun1, 0, wPr, false, wProg, by unfold State.serves State.up; decide +kernel⟩,
    ⟨wRun1, 0, wTr, true, wProg, by unfold State.serves State.up; decide +kernel⟩,
    ⟨wRunning { wProg with wait := 2 } wW6, 0, wTr, true, { wProg with wait := 2 },
      by unfold State.serves State.up; decide +kernel⟩,
    ⟨wRunning wGp (wW 0), 0, 0, wGp, ⟨0, wPr, 0⟩, by decide +kernel⟩,
    ⟨wRunning wG3 (wW 0), (wMw (wRunning wG3 (wW 0)) wG3.frameAddr ((wRunning wG3 (wW 0)).preemptFrame (0 : Fin 64).val wG3)).2,
      0, wG3, [], none, by decide +kernel, by decide +kernel, by decide +kernel, by decide +kernel,
      nil_of (x := wMw (wRunning wG3 (wW 0)) wG3.frameAddr ((wRunning wG3 (wW 0)).preemptFrame (0 : Fin 64).val wG3)) (by decide +kernel),
      by decide +kernel⟩,
    ⟨wRunning wGf (wW 0), (wMw (wRunning wGf (wW 0)) wGf.frameAddr wFw.frame).2, 0, wGf, wFw, [], [], none, by decide +kernel,
      by decide +kernel, by decide +kernel, nil_of (x := wMw (wRunning wGf (wW 0)) wGf.frameAddr wFw.frame) (by decide +kernel),
      by decide +kernel⟩⟩

/-- Values that meet the premises of `Obligations.ProgramsEnd`. -/
theorem witness_ProgramsEnd :
    (∃ (s : State) (b : Fin 64) (g : Program), s.inReset = false ∧ (s.settleResults b.val).program b.val = some g ∧
      (s.settleResults b.val).programDone b.val g = true) ∧
    (∃ (s : State) (b : Fin 64) (g : Program), s.inReset = false ∧ s.program b.val = some g ∧ g.timeLimit ≠ 0 ∧ g.begun = true ∧
      g.ended = false ∧ g.stall ≠ 3) ∧
    (∃ (s : State) (b : Fin 64) (g : Program) (i : Nat) (w : Nat) (f : Frame), s.inReset = false ∧ s.program b.val = some g ∧
      s.queueEmpty b.val g = true ∧ s.fetchWord b.val g.micro.pc = some (i, f, w) ∧ wStallSafe w = false ∧ g.stall = 0 ∧
      (g.header.replayable = false ∨ g.snapshot = none)) ∧
    (∃ (s : State) (b : Fin 64) (g : Program) (i : Nat) (w : Nat) (f : Frame), ∃ m x, s.inReset = false ∧
      s.program b.val = some g ∧ s.queueEmpty b.val g = true ∧ s.fetchWord b.val g.micro.pc = some (i, f, w) ∧
      wStallSafe w = false ∧ g.stall = 0 ∧ g.header.replayable = true ∧ g.snapshot = some (m, x) ∧
      g.replays < g.header.replayLimit ∧ andMask (m.slot m.runningSlot).sites (s.openMask b.val) ≠ 0 ∧
      (m.slot m.runningSlot).state ≠ 0) ∧
    (∃ (s : State) (b : Fin 64) (g : Program) (i : Nat) (w : Nat) (f : Frame), s.inReset = false ∧ s.program b.val = some g ∧
      s.queueEmpty b.val g = true ∧ s.fetchWord b.val g.micro.pc = some (i, f, w) ∧ wStallSafe w = false ∧ g.stall = 0 ∧
      g.header.replayable = true ∧ g.snapshot ≠ none ∧ g.header.replayLimit ≤ g.replays) ∧
    (∃ (s : State) (b : Fin 64) (g : Program) (i : Nat) (w : Nat) (f : Frame), s.inReset = false ∧ s.program b.val = some g ∧
      s.queueEmpty b.val g = true ∧ s.fetchWord b.val g.micro.pc = some (i, f, w) ∧ wStallSafe w = true ∧ g.stall = 0) ∧
    (∃ (s : State) (b : Fin 64) (g : Program), s.inReset = false ∧ s.program b.val = some g ∧ s.queueEmpty b.val g = true ∧
      s.fetchWord b.val g.micro.pc = none ∧ g.stall = 0) :=
  ⟨⟨wRunning wGe (wW 0), 0, wGe, by decide +kernel⟩,
    ⟨wRunning wGl (wW 0), 0, wGl, by decide +kernel⟩,
    ⟨wBlocked (wGb wProg) (wW 0), 0, wGb wProg, 0, wW 0, { page := 0, words := [0, 0, 0, wW 0] }, by decide +kernel⟩,
    ⟨wBlocked wGs (wW 0), 0, wGs, 0, wW 0, { page := 0, words := [0, 0, 0, wW 0] }, { wMicro with pc := 1 }, none,
      by decide +kernel⟩,
    ⟨wBlocked wGs3 (wW 0), 0, wGs3, 0, wW 0, { page := 0, words := [0, 0, 0, wW 0] }, by decide +kernel⟩,
    ⟨wBlocked (wGb wProg) (wWord [(39, 1)]), 0, wGb wProg, 0, wWord [(39, 1)], { page := 0, words := [0, 0, 0, wWord [(39, 1)]] },
      by decide +kernel⟩,
    ⟨wMissing, 0, wGm, by decide +kernel⟩⟩

/-- Values that meet the premises of `Obligations.FillsAndStreams`. -/
theorem witness_FillsAndStreams :
    (∃ (s : State) (s1 : State) (b : Fin 64) (g : Program) (ws : List Nat) (l : List Nat) (i : Nat), s.inReset = false ∧ s.fits ∧
      s.program b.val = some g ∧ g.ended = false ∧ g.fillsDue = [] ∧ g.wait = 0 ∧ g.stall ≠ 2 ∧
      findFrame (s.seqRec b.val).frames (g.micro.pc / 256) = none ∧
      s.readPage b.val g.image g.header.codeOffset (g.micro.pc / 256) false = (.page ws l, s1) ∧ s1.programs = s.programs ∧
      s1.demandFrame b.val (g.lastWord.map (fun pc => pc / 256)) = some i) ∧
    (∃ (s : State) (s1 : State) (b : Fin 64) (g : Program) (pg : BitVec 16) (ws : List Nat) (l : List Nat) (i : Nat),
      s.inReset = false ∧ s.fits ∧ s.program b.val = some g ∧ g.begun = true ∧ g.ended = false ∧
      s.flag (Reg.CS_CTRL_PREFETCH_EN b.val) = true ∧ pg.toNat ∈ s.prefetchPages b.val g ∧
      findFrame (s.seqRec b.val).frames pg.toNat = none ∧ s.specFrame b.val = some i ∧
      s.readPage b.val g.image g.header.codeOffset pg.toNat true = (.page ws l, s1)) ∧
    (∃ (s : State) (u : State) (u1 : State) (n : Fin 64) (g : Program) (x : Block) (i : PathItem), s.inReset = false ∧
      u = (s.applyDue (s.leaderOf n.val)).alignStreams (s.leaderOf n.val) ∧ u.program (s.leaderOf n.val) = some g ∧
      g.ended = false ∧ u.fld (Reg.STREAM_MODE n.val) = 2 ∧
      (u.path (s.leaderOf n.val) g 8)[(u.seqRec n.val).buffer.length]? = some i ∧
      (u.seqRec n.val).buffer.length + g.taken.length < 8 ∧ ((i.spec = true → u.flag Reg.HB_CTRL_SPEC_EN = true)) ∧
      u.readBlock g.header n.val (u.group (s.leaderOf n.val)).size (n.val - s.leaderOf n.val) i.segment i.ref i.consumer i.spec = (.block x,
      u1)) ∧
    (∃ (s : State) (u : State) (n : Fin 64) (g : Program) (r : Nat) (x : Block) (i : PathItem), s.inReset = false ∧
      u = (s.applyDue (s.leaderOf n.val)).alignStreams (s.leaderOf n.val) ∧ u.program (s.leaderOf n.val) = some g ∧
      g.ended = false ∧
      (u.path (s.leaderOf n.val) g ((u.seqRec n.val).buffer.length + 1))[(u.seqRec n.val).buffer.length]? = some i ∧
      ((i.spec = true ∨ x.serves i = true)) ∧ u.ringOf n.val = some r ∧ (u.seqRec n.val).buffer.length + g.taken.length < 8 ∧
      (u.ring r).first ≤ (u.seqRec n.val).ringNext ∧ (u.ring r).entries[(u.seqRec n.val).ringNext - (u.ring r).first]? = some x) :=
  ⟨⟨wFill, (wPage wFill 0 false).2, 0, wGfl, (pageWords (wPage wFill 0 false)).getD [], [], 0, by decide +kernel,
      fits_of (by decide +kernel), by decide +kernel, by decide +kernel, by decide +kernel, by decide +kernel, by decide +kernel,
      by decide +kernel, page_of (by decide +kernel), by decide +kernel⟩,
    ⟨wSpec, (wPage wSpec 1 true).2, 0, wGpf, 1, (pageWords (wPage wSpec 1 true)).getD [], [], 0, by decide +kernel,
      fits_of (by decide +kernel), by decide +kernel, by decide +kernel, by decide +kernel, by decide +kernel, by decide +kernel,
      by decide +kernel, by decide +kernel, page_of (by decide +kernel)⟩,
    ⟨wStream, wU2, wB2.2, 0, wGv, (blockGot wB2).getD (wBlk 0), wI2, by decide +kernel, rfl, by decide +kernel, by decide +kernel,
      by decide +kernel, by decide +kernel, by decide +kernel, by decide +kernel,
      by rw [show wStream.leaderOf (0 : Fin 64).val = 0 by decide +kernel,
      show (wU2.group 0).size = 1 by decide +kernel]; exact block_of (x := wB2) (by decide +kernel)⟩,
    ⟨wRing, wU3, 0, wGv, 0, { wBlk 0 with consumer := 3 }, wI3, by decide +kernel, rfl, by decide +kernel⟩⟩


/-! ### Ream -/

def wRec : Rec := { serial := 9, queue := 7, typ := 2, status := 0, site := 5, test := 1, cellTime := 3, payload := leBytes 77 16 }
def wQueue : State :=
  let s := ((((wMap wSite).setFld (Reg.QBASE_BASE 0 7) 1).setFld (Reg.QCFG_SIZE_LOG2 0 7) 16).setFld (Reg.QCFG_ENABLE 0 7) 1)
  { s with applied := s.regs, seqs := [(0, { elastic := [wRec], overtaken := [7] })] }
def wQf : State := wQueue.setFlag (Reg.QSTATUS_FAULT 0 7) true
def wRq (o : Nat) : Entry := wEnt [(0, 1, o), (8, 1, 7)]
def wMarked : State := ((wQueue.setFld (Reg.Q_COMMIT 0 7) 64).setFld (Reg.Q_MARK 0 7) 32).setFlag (Reg.QSTATUS_MARK_VALID 0 7) true
def wRl (p : Nat) : Entry := wEnt [(0, 1, 0x42), (8, 1, 7), (16, 8, p)]

/-- Values that meet the premises of `Obligations.ReamQueues`. -/
theorem witness_ReamQueues :
    (∃ (s : State) (s1 : State) (n : Fin 64) (r : Rec) (l : List Rec), s.inReset = false ∧ (s.seqRec n.val).zeroDue = [] ∧
      s.fld Reg.PWR_STATUS_STATE = 0 ∧ (s.seqRec n.val).losses = [] ∧ (s.seqRec n.val).deckles = [] ∧
      (s.seqRec n.val).elastic = r :: l ∧ (∀ x ∈ l, x.serial ≠ r.serial) ∧ r.queue < 8 ∧
      s.flag (Reg.QSTATUS_FAULT n.val r.queue) = false ∧ s.afld (Reg.QCFG_ENABLE n.val r.queue) ≠ 0 ∧ s.hasRoom n.val r = true ∧
      s.padFor n.val r.queue r.length = 0 ∧ s.commitRecord n.val r (s.fld (Reg.Q_COMMIT n.val r.queue)) = (.done, s1)) ∧
    (∃ (s : State) (n : Fin 64) (r : Rec) (l : List Rec), s.inReset = false ∧ (s.seqRec n.val).zeroDue = [] ∧
      s.fld Reg.PWR_STATUS_STATE = 0 ∧ (s.seqRec n.val).losses = [] ∧ (s.seqRec n.val).deckles = [] ∧
      (s.seqRec n.val).elastic = r :: l ∧ (∀ x ∈ l, x.serial ≠ r.serial) ∧ r.queue < 8 ∧
      s.flag (Reg.QSTATUS_FAULT n.val r.queue) = true) ∧
    (∃ (s : State) (q : BitVec 8) (e : Entry) (n : Nat) (k : Nat), s.serves q e ∧ n = (s.taken q.toNat e).target ∧ n < 64 ∧
      k = Entry.field (s.taken q.toNat e).entry 8 1 ∧ k < 8 ∧ firstFailing (s.unitChecks [seqUnit n, n / 2]) = none ∧
      Entry.opcode e = 0x40 ∧ (s.taken q.toNat e).reservedSet [(8, 1)] = false) ∧
    (∃ (s : State) (q : BitVec 8) (e : Entry) (n : Nat) (k : Nat), s.serves q e ∧ n = (s.taken q.toNat e).target ∧ n < 64 ∧
      k = Entry.field (s.taken q.toNat e).entry 8 1 ∧ k < 8 ∧ firstFailing (s.unitChecks [seqUnit n, n / 2]) = none ∧
      Entry.opcode e = 0x41 ∧ (s.taken q.toNat e).reservedSet [(8, 1)] = false ∧ s.dmaReads (.ream n k) = false) ∧
    (∃ (s : State) (q : BitVec 8) (e : Entry) (n : Nat) (k : Nat), ∃ p, s.serves q e ∧ n = (s.taken q.toNat e).target ∧ n < 64 ∧
      k = Entry.field (s.taken q.toNat e).entry 8 1 ∧ k < 8 ∧ firstFailing (s.unitChecks [seqUnit n, n / 2]) = none ∧
      Entry.opcode e = 0x42 ∧ (s.taken q.toNat e).reservedSet [(8, 1), (16, 8)] = false ∧
      p = Entry.field (s.taken q.toNat e).entry 16 8 ∧ p % 16 = 0 ∧ s.fld (Reg.Q_READ n k) ≤ p ∧ p ≤ s.fld (Reg.Q_COMMIT n k)) ∧
    (∃ (s : State) (q : BitVec 8) (e : Entry) (n : Nat) (k : Nat), s.serves q e ∧ n = (s.taken q.toNat e).target ∧ n < 64 ∧
      k = Entry.field (s.taken q.toNat e).entry 8 1 ∧ k < 8 ∧ firstFailing (s.unitChecks [seqUnit n, n / 2]) = none ∧
      Entry.opcode e = 0x43 ∧ (s.taken q.toNat e).reservedSet [(8, 1)] = false ∧ s.dmaReads (.ream n k) = false ∧
      s.runs n = false ∧ (s.seqRec n).losses = [] ∧ (s.seqRec n).deckles = []) :=
  ⟨⟨wQueue, (wQueue.commitRecord 0 wRec 0).2, 0, wRec, [], by decide +kernel⟩,
    ⟨wQf, 0, wRec, [], by decide +kernel⟩,
    ⟨wMarked, 0, wRq 0x40, (((wMarked : State).taken (0 : BitVec 8).toNat (wRq 0x40 : Entry)).target),
      (Entry.field ((wMarked : State).taken (0 : BitVec 8).toNat (wRq 0x40 : Entry)).entry 8 1),
      by unfold State.serves State.up; decide +kernel, rfl, by decide +kernel, rfl, by decide +kernel⟩,
    ⟨wMarked, 0, wRq 0x41, (((wMarked : State).taken (0 : BitVec 8).toNat (wRq 0x41 : Entry)).target),
      (Entry.field ((wMarked : State).taken (0 : BitVec 8).toNat (wRq 0x41 : Entry)).entry 8 1),
      by unfold State.serves State.up; decide +kernel, rfl, by decide +kernel, rfl, by decide +kernel⟩,
    ⟨wMarked, 0, wRl 64, (((wMarked : State).taken (0 : BitVec 8).toNat (wRl 64 : Entry)).target),
      (Entry.field ((wMarked : State).taken (0 : BitVec 8).toNat (wRl 64 : Entry)).entry 8 1),
      (Entry.field ((wMarked : State).taken (0 : BitVec 8).toNat (wRl 64 : Entry)).entry 16 8),
      by unfold State.serves State.up; decide +kernel, rfl, by decide +kernel, rfl, by decide +kernel, by decide +kernel,
      by decide +kernel, by decide +kernel, rfl, by decide +kernel⟩,
    ⟨wMarked, 0, wRq 0x43, (((wMarked : State).taken (0 : BitVec 8).toNat (wRq 0x43 : Entry)).target),
      (Entry.field ((wMarked : State).taken (0 : BitVec 8).toNat (wRq 0x43 : Entry)).entry 8 1),
      by unfold State.serves State.up; decide +kernel, rfl, by decide +kernel, rfl, by decide +kernel⟩⟩


/-! ### TMU -/

def wArmE : Entry := wEnt [(0, 1, 0x31), (2, 2, 63), (8, 1, 3), (24, 2, 5)]
def wTmu0 : State := { w0 with applied := (w0.setFld (Reg.TMU_TIMEOUT 63) 1000).regs }
def wTi (src : Nat) : TmuInput := { src := src, slope := 2, holdoff := 5 }
def wTa : TmuArm := { origin := .measure ⟨0, wArmE, 0⟩, site := none, test := 5, toPop := false, toRecord := false, queue := 0, word := 0, mode := 0, gate := 2, evSel := 0, countN := 1, startIn := wTi 3, stopIn := wTi 4, startSkew := 0, stopSkew := 0, timeout := 100, suspect := false, start := 9 }
def wTmuA (st : Nat) (u : Tmu) : State := { (((w0.setFld (Reg.TMU_STATUS_STATE 63) st).setFlag (Reg.TMU_STATUS_START_UNSETTLED 63) false).setFlag (Reg.TMU_STATUS_STOP_UNSETTLED 63) false) with tmus := [(63, u)] }
def wTu : Tmu := { arm := some wTa, gateOpen := true, startSeen := some 10 }
def wTe : Tmu := { wTu with ended := true, forced := 0x60 }
def wTd : Tmu := { wTu with ended := true, starts := 1, stops := 1, first := some ⟨3, 2, 40⟩, last := some ⟨3, 2, 40⟩, stop := some ⟨9, 4, 50⟩ }

/-- Values that meet the premises of `Obligations.TmuMeasures`. -/
theorem witness_TmuMeasures :
    (∃ (s : State) (q : BitVec 8) (e : Entry) (n : Nat) (d : Nat), s.serves q e ∧ Entry.opcode e = 0x31 ∧
      n = (s.taken q.toNat e).target ∧ n < 64 ∧ d = Entry.field (s.taken q.toNat e).entry 8 1 ∧ 0 < d ∧ d < 4 ∧
      (s.taken q.toNat e).reservedSet [(8, 1), (24, 2)] = false ∧ s.flag (Reg.TMU_STATUS_CFG_ERR n) = false ∧
      (¬ (s.afld (Reg.TMU_CTRL_GATE n) = 0 ∧ s.afld (Reg.TMU_TIMEOUT n) = 0)) ∧ firstFailing (s.unitChecks [n / 2]) = none ∧
      s.runs n = false ∧ (s.tmu n).arm = none) ∧
    (∃ (s : State) (n : Fin 64) (m : TmuArm), s.inReset = false ∧ (s.tmu n.val).arm = some m ∧
      s.fld (Reg.TMU_STATUS_STATE n.val) = 2 ∧ (s.tmu n.val).ended = false) ∧
    (∃ (s : State) (n : Fin 64) (stop : Bool) (falling : Bool) (time : BitVec 64) (m : TmuArm) (i : TmuInput) (other : TmuInput),
      s.inReset = false ∧ (s.tmu n.val).arm = some m ∧ i = (if stop then m.stopIn else m.startIn) ∧
      other = (if stop then m.startIn else m.stopIn) ∧ i.src ≠ 0x22 ∧ ((i.src = 0x21 → falling = false ∧
      s.tmuMarker n.val time.toNat = true)) ∧ other.src ≠ 0x22 ∧ s.fld (Reg.TMU_STATUS_STATE n.val) = 3 ∧
      (s.tmu n.val).gateOpen = true ∧ (s.tmu n.val).ended = false ∧
      s.flag (if stop then Reg.TMU_STATUS_STOP_UNSETTLED n.val else Reg.TMU_STATUS_START_UNSETTLED n.val) = false ∧
      i.heldOff (if stop then (s.tmu n.val).stopSeen else (s.tmu n.val).startSeen) time.toNat = true) ∧
    (∃ (s : State) (n : Fin 64) (stop : Bool) (falling : Bool) (time : BitVec 64) (m : TmuArm) (i : TmuInput) (other : TmuInput),
      s.inReset = false ∧ (s.tmu n.val).arm = some m ∧ i = (if stop then m.stopIn else m.startIn) ∧
      other = (if stop then m.startIn else m.stopIn) ∧ i.src ≠ 0x22 ∧ ((i.src = 0x21 → falling = false ∧
      s.tmuMarker n.val time.toNat = true)) ∧ other.src ≠ 0x22 ∧ s.fld (Reg.TMU_STATUS_STATE n.val) = 3 ∧
      (s.tmu n.val).gateOpen = true ∧ (s.tmu n.val).ended = false ∧
      s.flag (if stop then Reg.TMU_STATUS_STOP_UNSETTLED n.val else Reg.TMU_STATUS_START_UNSETTLED n.val) = false ∧
      i.heldOff (if stop then (s.tmu n.val).stopSeen else (s.tmu n.val).startSeen) time.toNat = false ∧ i.slope ≠ 3 ∧
      ((i.slope = 2 ∨ i.slope = b2n falling))) ∧
    (∃ (s : State) (n : Fin 64) (m : TmuArm), s.inReset = false ∧ (s.tmu n.val).arm = some m ∧ m.gate ≠ 0 ∧
      (s.tmu n.val).gateOpen = true) ∧
    (∃ (s : State) (n : Fin 64) (m : TmuArm), s.inReset = false ∧ (s.tmu n.val).arm = some m ∧
      (m.timeout ≠ 0 ∨ s.fld (Reg.TMU_STATUS_STATE n.val) = 3)) ∧
    (∃ (s : State) (u : State) (n : Fin 64) (m : TmuArm) (v : TmuValue), s.inReset = false ∧ (s.tmu n.val).arm = some m ∧
      m.mode ≠ 5 ∧ (s.tmu n.val).ended = true ∧ s.tmuCompute n.val m = (v, u)) ∧
    (∃ (s : State), s.inReset = false) :=
  ⟨⟨wTmu0, 0, wArmE, (((wTmu0 : State).taken (0 : BitVec 8).toNat (wArmE : Entry)).target),
      (Entry.field ((wTmu0 : State).taken (0 : BitVec 8).toNat (wArmE : Entry)).entry 8 1),
      by unfold State.serves State.up; decide +kernel, by decide +kernel, rfl, by decide +kernel, rfl, by decide +kernel⟩,
    ⟨wTmuA 2 wTu, 63, wTa, by decide +kernel⟩,
    ⟨wTmuA 3 wTu, 63, false, true, 59, wTa, wTi 3, wTi 4, by decide +kernel, by decide +kernel, rfl, rfl, by decide +kernel⟩,
    ⟨wTmuA 3 wTu, 63, false, true, 60, wTa, wTi 3, wTi 4, by decide +kernel, by decide +kernel, rfl, rfl, by decide +kernel⟩,
    ⟨wTmuA 3 wTu, 63, wTa, by decide +kernel⟩,
    ⟨wTmuA 3 wTu, 63, wTa, by decide +kernel⟩,
    ⟨wTmuA 3 wTe, ((wTmuA 3 wTe).tmuCompute 63 wTa).2, 63, wTa, ((wTmuA 3 wTe).tmuCompute 63 wTa).1, by decide +kernel,
      by decide +kernel, by decide +kernel, by decide +kernel, by rfl⟩,
    ⟨wTmuA 3 wTu, by decide +kernel⟩⟩


/-! ### AWG -/

def wAr (a : Nat) (t : Nat) : Entry := wEnt [(0, 1, 0x32), (2, 2, 31), (8, 1, a), (10, 2, 3), (16, 8, t)]
def wEnA : AwgEntry := { source := 0x2000, length := 256, repeats := 0, next := 0xFFFF, kind := 0, flags := 0, amp := 0, dc := 0, pow := 0 }
def wAq : Awg := { cur := { index := 0, entry := some wEnA } }
def wAwg (st : Nat) (a : Awg) : State :=
  let s := (wMap w0).setFld (Reg.AWG_STATUS_STATE 31) st
  { s with applied := (s.setFld (Reg.AWG_SEQ_CFG_SEQ_COUNT 31) 4).regs, awgs := [(31, a)] }
def wAwgM (a : Awg) : State := let s := wAwg 2 a; { s with mem := { s.mem with cells := wCells [(0x3000, 2, 5), (0x3008, 4, 256), (0x300E, 2, 0xFFFF), (0x3010, 1, 2)] } }
def wAwgE (a : Awg) : State := let s := wAwgM a; { s with applied := (s.setFld (Reg.AWG_SEQ_BASE 31) 0x3000).regs ++ [] }
def wRq1 (j : Option Nat) : AwgReq := { jump := j, cmd := some ⟨0, wAr 1 0, 0⟩, since := 0 }
def wTimed : Awg := { startCmd := some ⟨0, wAr 0 0, 0⟩ }

/-- Values that meet the premises of `Obligations.AwgRuns`. -/
theorem witness_AwgRuns :
    (∃ (s : State) (q : BitVec 8) (e : Entry) (n : Nat), s.serves q e ∧ Entry.opcode e = 0x32 ∧ n = (s.taken q.toNat e).target ∧
      n < 32 ∧ (s.taken q.toNat e).reservedSet [(8, 1), (10, 2), (16, 8)] = false ∧ s.flag (Reg.AWG_STATUS_CFG_ERR n) = false ∧
      firstFailing (s.unitChecks [n, seqUnit (s.awgOwner n)]) = none ∧ s.runs (s.awgOwner n) = false ∧ Entry.field e 8 1 = 0 ∧
      s.fld (Reg.AWG_STATUS_STATE n) = 0 ∧ Entry.field (s.taken q.toNat e).entry 16 8 ≤ s.now) ∧
    (∃ (s : State) (q : BitVec 8) (e : Entry) (n : Nat), s.serves q e ∧ Entry.opcode e = 0x32 ∧ n = (s.taken q.toNat e).target ∧
      n < 32 ∧ (s.taken q.toNat e).reservedSet [(8, 1), (10, 2), (16, 8)] = false ∧ s.flag (Reg.AWG_STATUS_CFG_ERR n) = false ∧
      firstFailing (s.unitChecks [n, seqUnit (s.awgOwner n)]) = none ∧ s.runs (s.awgOwner n) = false ∧ Entry.field e 8 1 = 0 ∧
      s.fld (Reg.AWG_STATUS_STATE n) = 0 ∧ s.now < Entry.field (s.taken q.toNat e).entry 16 8) ∧
    (∃ (s : State) (q : BitVec 8) (e : Entry) (n : Nat), s.serves q e ∧ Entry.opcode e = 0x32 ∧ n = (s.taken q.toNat e).target ∧
      n < 32 ∧ (s.taken q.toNat e).reservedSet [(8, 1), (10, 2), (16, 8)] = false ∧ s.flag (Reg.AWG_STATUS_CFG_ERR n) = false ∧
      firstFailing (s.unitChecks [n, seqUnit (s.awgOwner n)]) = none ∧ s.runs (s.awgOwner n) = false ∧ Entry.field e 8 1 = 0 ∧
      s.fld (Reg.AWG_STATUS_STATE n) ≠ 0) ∧
    (∃ (s : State) (q : BitVec 8) (e : Entry) (n : Nat), s.serves q e ∧ Entry.opcode e = 0x32 ∧ n = (s.taken q.toNat e).target ∧
      n < 32 ∧ (s.taken q.toNat e).reservedSet [(8, 1), (10, 2), (16, 8)] = false ∧ s.flag (Reg.AWG_STATUS_CFG_ERR n) = false ∧
      firstFailing (s.unitChecks [n, seqUnit (s.awgOwner n)]) = none ∧ s.runs (s.awgOwner n) = false ∧ Entry.field e 8 1 = 1) ∧
    (∃ (s : State) (q : BitVec 8) (e : Entry) (n : Nat), s.serves q e ∧ Entry.opcode e = 0x32 ∧ n = (s.taken q.toNat e).target ∧
      n < 32 ∧ (s.taken q.toNat e).reservedSet [(8, 1), (10, 2), (16, 8)] = false ∧ s.flag (Reg.AWG_STATUS_CFG_ERR n) = false ∧
      firstFailing (s.unitChecks [n, seqUnit (s.awgOwner n)]) = none ∧ s.runs (s.awgOwner n) = false ∧ Entry.field e 8 1 = 2 ∧
      Entry.field (s.taken q.toNat e).entry 10 2 < s.afld (Reg.AWG_SEQ_CFG_SEQ_COUNT n)) ∧
    (∃ (s : State) (c : Fin 32) (x : Cmd), s.inReset = false ∧ s.fld (Reg.AWG_STATUS_STATE c.val) = 1 ∧
      (s.awg c.val).startCmd = some x ∧ (s.awg c.val).startAt ≤ s.now) ∧
    (∃ (s : State) (c : Fin 32) (n : BitVec 64) (r : AwgReq) (l : List AwgReq), s.inReset = false ∧
      s.fld (Reg.AWG_STATUS_STATE c.val) = 2 ∧ (s.awg c.val).asked = r :: l ∧ (s.awg c.val).n0 ≤ n.toNat ∧ ((∀ en,
      (s.awg c.val).cur.entry = some en → n.toNat < (s.awg c.val).n0 + en.length)) ∧ (s.awg c.val).firstAfter r.since ≤ n.toNat ∧
      n.toNat ≤ (s.awg c.val).firstAfter r.since + 1) :=
  ⟨⟨wAwg 0 ({}), 0, wAr 0 0, (((wAwg 0 ({}) : State).taken (0 : BitVec 8).toNat (wAr 0 0 : Entry)).target),
      by unfold State.serves State.up; decide +kernel, by decide +kernel, rfl, by decide +kernel⟩,
    ⟨wAwg 0 ({}), 0, wAr 0 99999999999, (((wAwg 0 ({}) : State).taken (0 : BitVec 8).toNat (wAr 0 99999999999 : Entry)).target),
      by unfold State.serves State.up; decide +kernel, by decide +kernel, rfl, by decide +kernel⟩,
    ⟨wAwg 2 (wAq), 0, wAr 0 0, (((wAwg 2 (wAq) : State).taken (0 : BitVec 8).toNat (wAr 0 0 : Entry)).target),
      by unfold State.serves State.up; decide +kernel, by decide +kernel, rfl, by decide +kernel⟩,
    ⟨wAwg 2 (wAq), 0, wAr 1 0, (((wAwg 2 (wAq) : State).taken (0 : BitVec 8).toNat (wAr 1 0 : Entry)).target),
      by unfold State.serves State.up; decide +kernel, by decide +kernel, rfl, by decide +kernel⟩,
    ⟨wAwg 2 (wAq), 0, wAr 2 0, (((wAwg 2 (wAq) : State).taken (0 : BitVec 8).toNat (wAr 2 0 : Entry)).target),
      by unfold State.serves State.up; decide +kernel, by decide +kernel, rfl, by decide +kernel⟩,
    ⟨wAwg 1 wTimed, 31, ⟨0, wAr 0 0, 0⟩, by decide +kernel⟩,
    ⟨wAwg 2 { wAq with asked := [wRq1 none] }, 31, 4, wRq1 none, [], by decide +kernel⟩⟩

/-- Values that meet the premises of `Obligations.AwgPlays`. -/
theorem witness_AwgPlays :
    (∃ (s : State) (c : Fin 32) (en : AwgEntry), ∃ j p, s.inReset = false ∧ s.fld (Reg.AWG_STATUS_STATE c.val) = 2 ∧
      (s.awg c.val).cur.entry = some en ∧ (s.awg c.val).due = none ∧ (s.awg c.val).following = some (j, p) ∧
      ((s.awg c.val).fetched j p).bad = false) ∧
    (∃ (s : State) (c : Fin 32) (en : AwgEntry), s.inReset = false ∧ s.fld (Reg.AWG_STATUS_STATE c.val) = 2 ∧
      (s.awg c.val).cur.entry = some en ∧ (s.awg c.val).due = none ∧ (s.awg c.val).following = none) ∧
    (∃ (s : State) (c : Fin 32) (en : AwgEntry), ∃ r m, s.inReset = false ∧ s.fld (Reg.AWG_STATUS_STATE c.val) = 2 ∧
      (s.awg c.val).cur.entry = some en ∧ (s.awg c.val).due = some (r, m) ∧ (s.awg c.val).actsNext = true ∧ r.jump = none) ∧
    (∃ (s : State) (c : Fin 32) (en : AwgEntry), ∃ r j m, s.inReset = false ∧ s.fld (Reg.AWG_STATUS_STATE c.val) = 2 ∧
      (s.awg c.val).cur.entry = some en ∧ (s.awg c.val).due = some (r, m) ∧ (s.awg c.val).actsNext = true ∧ r.jump = some j ∧
      ((s.awg c.val).target.getD { index := j }).bad = false) ∧
    (∃ (s : State) (u : State) (c : Fin 32) (d : List Byte), s.inReset = false ∧ s.fld (Reg.AWG_STATUS_STATE c.val) = 2 ∧
      (s.awg c.val).filler = false ∧ (s.awg c.val).cur.entry = none ∧ s.memRead { engine := 3, unit := c.val } (s.afld (Reg.AWG_SEQ_BASE c.val) + 32 * (s.awg c.val).cur.index) 32 = (.ok d none,
      u) ∧ awgEntryBad d (s.afld (Reg.AWG_SEQ_CFG_SEQ_COUNT c.val)) = false) ∧
    (∃ (s : State) (u : State) (c : Fin 32) (k : BitVec 27) (en : AwgEntry) (d : List Byte), s.inReset = false ∧
      s.fld (Reg.AWG_STATUS_STATE c.val) = 2 ∧ (s.awg c.val).cur.entry = some en ∧ (s.awg c.val).cur.bad = false ∧ en.kind = 0 ∧
      (s.awg c.val).filler = false ∧ (s.awg c.val).reads .now k.toNat = true ∧ 32 * k.toNat < en.length ∧ s.memRead { engine := 3, unit := c.val } (en.source + 64 * k.toNat) 64 = (.ok d none,
      u)) ∧
    (∃ (s : State) (c : Fin 32), s.inReset = false ∧ s.fld (Reg.AWG_STATUS_STATE c.val) = 2 ∧ (s.awg c.val).left ≠ some 0 ∧
      ((s.awg c.val).source false 0).2.1 = some 0) :=
  ⟨⟨wAwg 2 { wAq with cur := { index := 0, entry := some { wEnA with repeats := 1 } } }, 31, { wEnA with repeats := 1 }, 0, 1,
      by decide +kernel⟩,
    ⟨wAwg 2 wAq, 31, wEnA, by decide +kernel⟩,
    ⟨wAwg 2 { wAq with due := some (wRq1 none, 191) }, 31, wEnA, wRq1 none, 191, by decide +kernel⟩,
    ⟨wAwg 2 { wAq with due := some (wRq1 (some 3), 0) }, 31, wEnA, wRq1 (some 3), 3, 0, by decide +kernel⟩,
    ⟨wAwgE { cur := { index := 0 } }, ((wAwgE { cur := { index := 0 } }).memRead { engine := 3, unit := 31 } ((wAwgE { cur := { index := 0 } }).afld (Reg.AWG_SEQ_BASE 31) + 32 * 0) 32).2,
      31, (match ((wAwgE { cur := { index := 0 } }).memRead { engine := 3, unit := 31 } ((wAwgE { cur := { index := 0 } }).afld (Reg.AWG_SEQ_BASE 31) + 32 * 0) 32).1 with | .ok d _ => d | _ => []),
      by decide +kernel⟩,
    ⟨wAwg 2 wAq, ((wAwg 2 wAq).memRead { engine := 3, unit := 31 } 0x21C0 64).2, 31, 7, wEnA,
      (match ((wAwg 2 wAq).memRead { engine := 3, unit := 31 } 0x21C0 64).1 with | .ok d _ => d | _ => []), by decide +kernel⟩,
    ⟨wAwg 2 wAq, 31, by decide +kernel⟩⟩


/-! ### Acquisition -/

def wAc (a d p : Nat) : Entry := wEnt [(0, 1, 0x33), (2, 2, 31), (8, 1, a), (9, 1, d), (16, 8, p)]
def wDm : DgArm := { origin := .measure ⟨0, wAc 0 1 0, 0⟩, site := none, base := 7, toPop := false, toRecord := false, queue := 0, word := 0, gain := 65536, offset := 0 }
def wDg (st : Nat) (d : Dg) : State := let s := ((w0.setFld (Reg.DG_STATUS_STATE 31) st).setFld (Reg.DG_WRITE 31) 64); { s with dgs := [(31, d)] }
def wDr (k : Nat) (d : Dg) : State := let s := wDg 3 d; { s with applied := (s.setFld (Reg.ACQ_CFG_RECORDS_MAX 31) k).regs }
def wDt (d : Dg) : State := let s := wDg 1 d; { s with applied := (s.setFld (Reg.DG_TIMEOUT 31) 9).regs }

/-- Values that meet the premises of `Obligations.AcquisitionControl`. -/
theorem witness_AcquisitionControl :
    (∃ (s : State) (q : BitVec 8) (e : Entry) (n : Nat), s.serves q e ∧ Entry.opcode e = 0x33 ∧ n = (s.taken q.toNat e).target ∧
      n < 32 ∧ (s.taken q.toNat e).reservedSet [(8, 2), (16, 8), (24, 2)] = false ∧ firstFailing (s.unitChecks [n,
      seqUnit (s.dgOwner n)]) = none ∧ Entry.field (s.taken q.toNat e).entry 9 1 < 4 ∧ Entry.field e 8 1 = 0 ∧
      0 < Entry.field (s.taken q.toNat e).entry 9 1 ∧ s.flag (Reg.DG_STATUS_CFG_ERR n) = false ∧ s.runs (s.dgOwner n) = false ∧
      (s.dg n).arm = none) ∧
    (∃ (s : State) (q : BitVec 8) (e : Entry) (n : Nat), s.serves q e ∧ Entry.opcode e = 0x33 ∧ n = (s.taken q.toNat e).target ∧
      n < 32 ∧ (s.taken q.toNat e).reservedSet [(8, 2), (16, 8), (24, 2)] = false ∧ firstFailing (s.unitChecks [n,
      seqUnit (s.dgOwner n)]) = none ∧ Entry.field (s.taken q.toNat e).entry 9 1 < 4 ∧ Entry.field e 8 1 = 1) ∧
    (∃ (s : State) (q : BitVec 8) (e : Entry) (n : Nat), s.serves q e ∧ Entry.opcode e = 0x33 ∧ n = (s.taken q.toNat e).target ∧
      n < 32 ∧ (s.taken q.toNat e).reservedSet [(8, 2), (16, 8), (24, 2)] = false ∧ firstFailing (s.unitChecks [n,
      seqUnit (s.dgOwner n)]) = none ∧ Entry.field (s.taken q.toNat e).entry 9 1 < 4 ∧ Entry.field e 8 1 = 2) ∧
    (∃ (s : State) (q : BitVec 8) (e : Entry) (n : Nat), ∃ p, s.serves q e ∧ Entry.opcode e = 0x33 ∧
      n = (s.taken q.toNat e).target ∧ n < 32 ∧ (s.taken q.toNat e).reservedSet [(8, 2), (16, 8), (24, 2)] = false ∧
      firstFailing (s.unitChecks [n, seqUnit (s.dgOwner n)]) = none ∧ Entry.field (s.taken q.toNat e).entry 9 1 < 4 ∧
      Entry.field e 8 1 = 3 ∧ p = Entry.field (s.taken q.toNat e).entry 16 8 ∧ p % 4 = 0 ∧ s.fld (Reg.DG_RELEASE n) ≤ p ∧
      p ≤ s.fld (Reg.DG_WRITE n)) ∧
    (∃ (s : State) (c : Fin 32) (m : DgArm), ∃ x, s.inReset = false ∧ (s.dg c.val).arm = some m ∧ (s.dg c.val).fire = some x ∧
      (m.toRecord = false ∨ ((s.dg c.val).pre = [] ∧ (s.dg c.val).fresh = none))) ∧
    (∃ (s : State) (c : Fin 32) (m : DgArm), s.inReset = false ∧ (s.dg c.val).arm = some m ∧ (s.dg c.val).postDone = true) ∧
    (∃ (s : State) (c : Fin 32) (m : DgArm), s.inReset = false ∧ (s.dg c.val).arm = some m ∧
      s.fld (Reg.DG_STATUS_STATE c.val) = 3 ∧ (s.dg c.val).rearm = 0) ∧
    (∃ (s : State) (c : Fin 32) (m : DgArm), s.inReset = false ∧ (s.dg c.val).arm = some m ∧ s.afld (Reg.DG_TIMEOUT c.val) ≠ 0) :=
  ⟨⟨w0, 0, wAc 0 3 0, (((w0 : State).taken (0 : BitVec 8).toNat (wAc 0 3 0 : Entry)).target),
      by unfold State.serves State.up; decide +kernel, by decide +kernel, rfl, by decide +kernel⟩,
    ⟨wDg 1 { arm := some wDm }, 0, wAc 1 0 0,
      (((wDg 1 { arm := some wDm } : State).taken (0 : BitVec 8).toNat (wAc 1 0 0 : Entry)).target),
      by unfold State.serves State.up; decide +kernel, by decide +kernel, rfl, by decide +kernel⟩,
    ⟨wDg 2 { arm := some wDm }, 0, wAc 2 0 0,
      (((wDg 2 { arm := some wDm } : State).taken (0 : BitVec 8).toNat (wAc 2 0 0 : Entry)).target),
      by unfold State.serves State.up; decide +kernel, by decide +kernel, rfl, by decide +kernel⟩,
    ⟨wDg 0 {}, 0, wAc 3 0 0, (((wDg 0 {} : State).taken (0 : BitVec 8).toNat (wAc 3 0 0 : Entry)).target),
      (Entry.field ((wDg 0 {} : State).taken (0 : BitVec 8).toNat (wAc 3 0 0 : Entry)).entry 16 8),
      by unfold State.serves State.up; decide +kernel, by decide +kernel, rfl, by decide +kernel, by decide +kernel,
      by decide +kernel, by decide +kernel, by decide +kernel, rfl, by decide +kernel⟩,
    ⟨wDg 1 { arm := some wDm, fire := some (1, 0), n := 5 }, 31, wDm, (1, 0), by decide +kernel⟩,
    ⟨wDg 2 { arm := some wDm, postDone := true, post := { count := 1 } }, 31, wDm, by decide +kernel⟩,
    ⟨wDr 1 { arm := some wDm, readings := [] }, 31, wDm, by decide +kernel⟩,
    ⟨wDt { arm := some wDm }, 31, wDm, by decide +kernel⟩⟩

/-- Values that meet the premises of `Obligations.AcquisitionControl`. -/
theorem witness_AcquisitionControl_2 :
    ∃ (s : State) (c : Fin 32) (m : DgArm) (g : Fin 8) (c0 : BitVec 18) (c1 : BitVec 18) (c2 : BitVec 18) (c3 : BitVec 18) (i : Nat) (code : Int),
      s.inReset = false ∧ (s.dg c.val).arm = some m ∧ i < 4 ∧ c.val = 4 * g.val + i ∧ code = [c0.toInt, c1.toInt, c2.toInt,
      c3.toInt].getD i 0 ∧ s.blockOff (Reg.dgB c.val) = false ∧ (s.dg c.val).fire = none ∧ (s.dg c.val).postDone = false ∧
      s.fld (Reg.DG_STATUS_STATE c.val) ≠ 2 ∧ ((s.fld (Reg.DG_STATUS_STATE c.val) = 3 → (s.dg c.val).rearm ≠ 0)) :=
  ⟨wDg 1 { arm := some wDm, n := 4, force := true }, 31, wDm, 7, 0, 0, 0, -131072, 3, (BitVec.toInt (-131072 : BitVec 18)),
    by decide +kernel, by decide +kernel, by decide +kernel, by decide +kernel, rfl, by decide +kernel⟩


/-! ### DPS -/

def wDr0 (a : Nat) : Entry := wEnt [(0, 1, 0x34), (2, 2, 0), (8, 1, a), (9, 1, 3), (24, 2, 9)]
def wDps (st : Nat) (d : Dps) : State := let s := wSite.setFld (Reg.DPS_STATUS_STATE 0) st; { s with applied := ((s.setFld (Reg.MON_V_EN 0) 1).setFld (Reg.MON_I_EN 0) 1).regs, dps := [(0, d)] }
def wDc (st : Nat) : State := (wDps st {}).setFld (Reg.DECKLE_STATE_CLOSED 0) 1
def wDv : DpsMeas := { origin := .measure ⟨0, wDr0 2, 0⟩, leader := 0, position := 0, site := none, test := 9, toPop := false, toRecord := false, queue := 0, word := 0, qty := 1, avgLog2 := 0, start := 0, suspect := false }
def wBg (n : Nat) : State := let s := w0; { s with applied := (s.setFld (Reg.MON_BG_CHECK n) 1).regs }

/-- Values that meet the premises of `Obligations.DpsRuns`. -/
theorem witness_DpsRuns :
    (∃ (s : State) (q : BitVec 8) (e : Entry) (n : Nat), s.serves q e ∧ Entry.opcode e = 0x34 ∧ n = (s.taken q.toNat e).target ∧
      n < 64 ∧ (s.taken q.toNat e).reservedSet [(8, 2), (24, 2)] = false ∧ s.dpsLeads n = true ∧
      s.flag (Reg.DPS_STATUS_CFG_ERR n) = false ∧ firstFailing (s.unitChecks [n / 2]) = none ∧ ((∀ b x, s.dpsSite n = some (b,
      x) → s.program b = none)) ∧ Entry.field (s.taken q.toNat e).entry 9 1 < 4 ∧ Entry.field e 8 1 = 0) ∧
    (∃ (s : State) (q : BitVec 8) (e : Entry) (n : Nat), s.serves q e ∧ Entry.opcode e = 0x34 ∧ n = (s.taken q.toNat e).target ∧
      n < 64 ∧ (s.taken q.toNat e).reservedSet [(8, 2), (24, 2)] = false ∧ s.dpsLeads n = true ∧
      s.flag (Reg.DPS_STATUS_CFG_ERR n) = false ∧ firstFailing (s.unitChecks [n / 2]) = none ∧ ((∀ b x, s.dpsSite n = some (b,
      x) → s.program b = none)) ∧ Entry.field (s.taken q.toNat e).entry 9 1 < 4 ∧ Entry.field e 8 1 = 1) ∧
    (∃ (s : State) (q : BitVec 8) (e : Entry) (n : Nat), s.serves q e ∧ Entry.opcode e = 0x34 ∧ n = (s.taken q.toNat e).target ∧
      n < 64 ∧ (s.taken q.toNat e).reservedSet [(8, 2), (24, 2)] = false ∧ s.dpsLeads n = true ∧
      s.flag (Reg.DPS_STATUS_CFG_ERR n) = false ∧ firstFailing (s.unitChecks [n / 2]) = none ∧ ((∀ b x, s.dpsSite n = some (b,
      x) → s.program b = none)) ∧ Entry.field (s.taken q.toNat e).entry 9 1 < 4 ∧ Entry.field e 8 1 = 2) ∧
    (∃ (s : State) (n : Fin 64) (r : Nat), s.inReset = false ∧ s.blockOff (Reg.dpsB n.val) = false ∧ s.dpsLeads n.val = true ∧
      s.dpsState n.val ≠ 0 ∧ r = rampTo (s.dpsRec n.val).vref (s.dpsTarget n.val) (s.dpsStep n.val)) ∧
    (∃ (s : State) (n : Fin 64) (m : DpsMeas) (v : Int), s.inReset = false ∧ (s.dpsRec n.val).meas = some m ∧ m.qty = 1 ∧
      (∀ x ∈ s.gangOf n.val, 2 ^ m.avgLog2 ≤ (s.dpsRec x).sums.count) ∧
      v = dpsVolts (s.dpsRec n.val).sums.gainV (s.dpsRec n.val).sums.offV (s.dpsRec n.val).sums.sumV (2 ^ m.avgLog2 : Nat)) :=
  ⟨⟨wDps 0 {}, 0, wDr0 0, (((wDps 0 {} : State).taken (0 : BitVec 8).toNat (wDr0 0 : Entry)).target),
      by unfold State.serves State.up; decide +kernel, by decide +kernel, rfl, by decide +kernel, by decide +kernel,
      by decide +kernel, by decide +kernel, by decide +kernel, by intros; rfl, by decide +kernel⟩,
    ⟨wDps 0 {}, 0, wDr0 1, (((wDps 0 {} : State).taken (0 : BitVec 8).toNat (wDr0 1 : Entry)).target),
      by unfold State.serves State.up; decide +kernel, by decide +kernel, rfl, by decide +kernel, by decide +kernel,
      by decide +kernel, by decide +kernel, by decide +kernel, by intros; rfl, by decide +kernel⟩,
    ⟨wDps 2 {}, 0, wDr0 2, (((wDps 2 {} : State).taken (0 : BitVec 8).toNat (wDr0 2 : Entry)).target),
      by unfold State.serves State.up; decide +kernel, by decide +kernel, rfl, by decide +kernel, by decide +kernel,
      by decide +kernel, by decide +kernel, by decide +kernel, by intros; rfl, by decide +kernel⟩,
    ⟨wDps 1 {}, 0, rampTo ((wDps 1 {}).dpsRec 0).vref ((wDps 1 {}).dpsTarget 0) ((wDps 1 {}).dpsStep 0), by decide +kernel,
      by decide +kernel, by decide +kernel, by decide +kernel, rfl⟩,
    ⟨wDps 2 { meas := some wDv, sums := { count := 1, sumV := 500, gainV := 65536 } }, 0, wDv, dpsVolts 65536 0 500 (2 ^ 0 : Nat),
      by decide +kernel, by decide +kernel, by decide +kernel, by decide +kernel, rfl⟩⟩

/-- Values that meet the premises of `Obligations.DpsMonitors`. -/
theorem witness_DpsMonitors :
    (∃ (s : State) (n : Fin 64) (bounds : BitVec 4) (k : Nat), s.inReset = false ∧ k = andMask bounds.toNat (s.dpsArmed n.val) ∧
      k ≠ 0 ∧ s.blockOff (Reg.dpsB n.val) = false) ∧
    (∃ (s : State), s.inReset = false) ∧
    (∃ (s : State) (n : Fin 64), s.inReset = false ∧ s.dpsState n.val = 2) ∧
    (∃ (s : State) (n : Fin 64), s.inReset = false ∧ s.blockOff (Reg.dpsB n.val) = false) ∧
    (∃ (s : State) (n : Fin 64) (second : Bool), s.inReset = false ∧ s.blockOff (Reg.dpsB n.val) = false ∧
      ((second = true → s.dpsState n.val = 0 ∧ (s.dpsRec n.val).level2 = true)) ∧
      ((second = false → s.afld (Reg.MON_BG_CHECK n.val) = 1))) :=
  ⟨⟨wDps 2 { blanked := true }, 0, 15, 15, by decide +kernel⟩,
    ⟨w0, by decide +kernel⟩,
    ⟨wDps 2 {}, 0, by decide +kernel⟩,
    ⟨w0, 0, by decide +kernel⟩,
    ⟨wBg 63, 63, false, by decide +kernel⟩⟩


/-! ### Population -/

def wPd (vo : Nat) : Entry := wEnt [(0, 1, 0x50), (8, 2, 9 + vo), (10, 1, 8), (11, 1, 0x20 + vo), (12, 2, 1), (14, 2, 9), (24, 8, 10), (48, 8, 1)]
def wPq (o : Nat) : Entry := wEnt [(0, 1, o), (8, 2, 9)]
def wPt : PopTest :=
  { test := 9, binsLog2 := 8, method := 0, sides := 0, verdictOnly := false, isLocal := false, kmul := 1, refTest := 0, lo := 0, width := 10,
    work := 0, deadline := some 5, round := 0, qlo := 0, qhi := 0, minCount := 1, check := 0, captured := [5, 6], expected := [5, 6] }
def wPc : PopTest := { wPt with closed := true, expected := [] }
def wPl : PopTest := { wPc with captured := [5], covered := 1 }
def wPv : PopTest := { wPt with test := 25, verdictOnly := true, refTest := 9, isLocal := true }
def wPop (x : PopTest) : State := { wMap wSite with popTests := [(0, x)] }
def wPop2 : State := { wMap wSite with popTests := [(0, wPt), (7, wPv)] }
def wPopRd (t site : Nat) (v : Int) : PopReading := { site := site, test := t, value := v, status := 0, flags := 0, cellTime := 3, leader := 0, position := 0 }
def wPopR (x : PopTest) (r : PopReading) : State := { wPop x with popInput := [r] }
def wLeaf (x : PopTest) : State := (wPop x).setFld Reg.POP_DOMAIN_ROOT 1

/-- Values that meet the premises of `Obligations.PopulationTests`. -/
theorem witness_PopulationTests :
    (∃ (s : State) (q : BitVec 8) (e : Entry) (c : Cmd), s.serves q e ∧ Entry.opcode e = 0x50 ∧ c = s.taken q.toNat e ∧
      s.popDefineBad c = false ∧ s.present popUnit = true ∧ s.present memUnit = true ∧ s.ready popUnit = true ∧
      s.ready memUnit = true ∧ ((bitOf (c.field 11 1) 4 = false → bitOf (c.field 11 1) 5 = false → s.anyPort s.ready = true ∧
      s.anyPort s.present = true))) ∧
    (∃ (s : State) (q : BitVec 8) (e : Entry) (c : Cmd) (k : Nat) (x : PopTest), s.serves q e ∧ c = s.taken q.toNat e ∧
      c.target = 0 ∧ c.reservedSet [(8, 2)] = false ∧ s.popFind (c.field 8 2) = some (k, x) ∧ SMap.find s.popTests k = some x ∧
      s.present popUnit = true ∧ s.present memUnit = true ∧ s.ready popUnit = true ∧ s.ready memUnit = true ∧
      ((x.verdictOnly = false → x.isLocal = false → s.anyPort s.ready = true ∧ s.anyPort s.present = true)) ∧
      Entry.opcode e = 0x51 ∧ x.verdictOnly = false ∧ x.closed = true ∧ x.state < 2 ∧ x.todo = []) ∧
    (∃ (s : State) (q : BitVec 8) (e : Entry) (c : Cmd) (k : Nat) (x : PopTest), s.serves q e ∧ c = s.taken q.toNat e ∧
      c.target = 0 ∧ c.reservedSet [(8, 2)] = false ∧ s.popFind (c.field 8 2) = some (k, x) ∧ SMap.find s.popTests k = some x ∧
      s.present popUnit = true ∧ s.present memUnit = true ∧ s.ready popUnit = true ∧ s.ready memUnit = true ∧
      ((x.verdictOnly = false → x.isLocal = false → s.anyPort s.ready = true ∧ s.anyPort s.present = true)) ∧
      Entry.opcode e = 0x52) ∧
    (∃ (s : State) (q : BitVec 8) (e : Entry) (c : Cmd) (k : Nat) (x : PopTest), s.serves q e ∧ c = s.taken q.toNat e ∧
      c.target = 0 ∧ c.reservedSet [(8, 2)] = false ∧ s.popFind (c.field 8 2) = some (k, x) ∧ SMap.find s.popTests k = some x ∧
      s.present popUnit = true ∧ s.present memUnit = true ∧ s.ready popUnit = true ∧ s.ready memUnit = true ∧
      ((x.verdictOnly = false → x.isLocal = false → s.anyPort s.ready = true ∧ s.anyPort s.present = true)) ∧
      Entry.opcode e = 0x53 ∧ ((∀ y ∈ s.popTests, y.2.verdictOnly = true → y.2.refTest ≠ x.test))) :=
  ⟨⟨wMap wSite, 0, wPd 0, ((wMap wSite).taken 0 (wPd 0)), by unfold State.serves State.up; decide +kernel, by decide +kernel,
      rfl, by decide +kernel⟩,
    ⟨wPop wPc, 0, wPq 81, ((wPop wPc).taken 0 (wPq 81)), 0, wPc, by unfold State.serves State.up; decide +kernel, rfl,
      by decide +kernel⟩,
    ⟨wPop wPt, 0, wPq 82, ((wPop wPt).taken 0 (wPq 82)), 0, wPt, by unfold State.serves State.up; decide +kernel, rfl,
      by decide +kernel⟩,
    ⟨wPop wPt, 0, wPq 83, ((wPop wPt).taken 0 (wPq 83)), 0, wPt, by unfold State.serves State.up; decide +kernel, rfl,
      by decide +kernel⟩⟩

/-- Values that meet the premises of `Obligations.PopulationReadings`. -/
theorem witness_PopulationReadings :
    (∃ (s : State) (r : PopReading) (l : List PopReading), s.inReset = false ∧ s.popInput = r :: l) ∧
    (∃ (s : State) (k : Fin 1024) (x : PopTest) (f : Nat), s.inReset = false ∧ SMap.find s.popTests k.val = some x ∧
      s.forwardDeadline x = some f ∧ f ≤ s.absNow ∧ x.verdictOnly = false ∧ x.todo = []) ∧
    (∃ (s : State) (k : Fin 1024) (x : PopTest) (f : Nat) (d : List Byte), s.inReset = false ∧
      SMap.find s.popTests k.val = some x ∧ x.deadline = some f ∧ f ≤ s.absNow ∧ x.verdictOnly = false ∧ s.popIsRoot x = true ∧
      x.closed = true ∧ x.state < 2 ∧ x.todo = [] ∧ (s.workTouch x 0x4000 (4 * x.bins)).1 = .done d) :=
  ⟨⟨wPopR wPt (wPopRd 9 5 2559), wPopRd 9 5 2559, [], by decide +kernel⟩,
    ⟨wPop { wPt with deadline := some 0 }, 0, { wPt with deadline := some 0 },
      (((wPop { wPt with deadline := some 0 }).forwardDeadline { wPt with deadline := some 0 }).getD 0), by decide +kernel⟩,
    ⟨wPop { wPc with deadline := some 0 }, 0, { wPc with deadline := some 0 }, 0,
      (match ((wPop { wPc with deadline := some 0 }).workTouch ({ wPc with deadline := some 0 }) 16384 (1024)).1 with | .done d => d | _ => []),
      by decide +kernel⟩⟩


/-! ### Memory management -/

def wMs6 (n : Nat) (v : Nat) : Entry := wEnt ([(0, 1, 0x60), (8, 4, 5), (12, 1, n)] ++ (List.range n).map (fun k => (16 + 8 * k, 8, v)))
def wMl : Entry := wEnt [(0, 1, 0x61), (8, 4, 0), (12, 4, 1), (16, 8, 0x100)]
def wMc (f : Nat) : Entry := wEnt [(0, 1, 0x62), (8, 4, 0), (12, 4, 4), (16, 1, f)]
def wMr : Entry := wEnt [(0, 1, 0x63), (8, 4, 131071)]
def wScrub : State := w0.setFlag Reg.SCRUB_CTRL_SCRUB_EN true
def wNoScrub : State := w0.setFlag Reg.SCRUB_CTRL_SCRUB_EN false
def wWt : Waiter := { engine := 0, unit := 0, va := 0x1234, pages := [17], write := false }
def wAts : AtsRequest := { entry := 0, base := 0x10000, pinned := false, waiters := [wWt] }
def wHostE (v : Nat) : State := { w0 with mem := { w0.mem with dtt := [(0, BitVec.ofNat 64 v)], atsRequests := [wAts] }, hi := { w0.hi with atsEnable := true, priEnable := true, priAllocation := 8, busMaster := true } }
def wPg : PageGroup := { index := 3, entry := 0, base := 0x10000, pages := [17], waiters := [wWt] }
def wGrp : State := let s := wHostE 0x1000F; { s with mem := { s.mem with atsRequests := [], groups := [wPg] } }
def wR64 : State := { wMap w0 with mem := { (wMap w0).mem with cells := wCells [(0x100, 8, 0)] } }

/-- Values that meet the premises of `Obligations.MapCommands`. -/
theorem witness_MapCommands :
    (∃ (s : State) (q : BitVec 8) (e : Entry) (c : Cmd) (i : Nat) (n : Nat), ∃ vs, s.serves q e ∧ c = s.taken q.toNat e ∧
      c.target = 0 ∧ i = c.field 8 4 ∧ Entry.opcode e = 0x60 ∧ n = c.field 12 1 ∧ c.mapReserved [(8, 4), (12, 1), (16,
      48)] = false ∧ 1 ≤ n ∧ n ≤ 6 ∧ i + n ≤ dttSize ∧ ((∀ k < 6, n ≤ k → c.field (16 + 8 * k) 8 = 0)) ∧
      vs = (List.range n).map (fun k => c.field (16 + 8 * k) 8) ∧ setStatuses i vs s = []) ∧
    (∃ (s : State) (q : BitVec 8) (e : Entry) (c : Cmd) (i : Nat) (n : Nat), ∃ vs, s.serves q e ∧ c = s.taken q.toNat e ∧
      c.target = 0 ∧ i = c.field 8 4 ∧ Entry.opcode e = 0x60 ∧ n = c.field 12 1 ∧ c.mapReserved [(8, 4), (12, 1), (16,
      48)] = false ∧ 1 ≤ n ∧ n ≤ 6 ∧ i + n ≤ dttSize ∧ ((∀ k < 6, n ≤ k → c.field (16 + 8 * k) 8 = 0)) ∧
      vs = (List.range n).map (fun k => c.field (16 + 8 * k) 8) ∧ (setStatuses i vs s).contains 0x7F = true) ∧
    (∃ (s : State) (q : BitVec 8) (e : Entry) (c : Cmd) (i : Nat) (n : Nat), s.serves q e ∧ c = s.taken q.toNat e ∧ c.target = 0 ∧
      i = c.field 8 4 ∧ Entry.opcode e = 0x61 ∧ n = c.field 12 4 ∧ c.mapReserved [(8, 4), (12, 4), (16, 8)] = false ∧ 0 < n ∧
      i + n ≤ dttSize ∧ c.field 16 8 % 8 = 0 ∧ c.field 16 8 < 2 ^ 48) ∧
    (∃ (s : State) (q : BitVec 8) (e : Entry) (c : Cmd) (i : Nat) (n : Nat), s.serves q e ∧ c = s.taken q.toNat e ∧ c.target = 0 ∧
      i = c.field 8 4 ∧ Entry.opcode e = 0x62 ∧ n = c.field 12 4 ∧ c.mapReserved [(8, 4), (12, 4), (16, 1)] = false ∧ 0 < n ∧
      i + n ≤ dttSize ∧ c.field 16 1 ≤ 1 ∧ ((c.field 16 1 = 1 ∨ ∀ x ∈ s.mem.dtt,
      i ≤ x.1 → x.1 < i + n → bitOf x.2.toNat 4 = false))) ∧
    (∃ (s : State) (q : BitVec 8) (e : Entry) (c : Cmd) (i : Nat), s.serves q e ∧ c = s.taken q.toNat e ∧ c.target = 0 ∧
      i = c.field 8 4 ∧ Entry.opcode e = 0x63 ∧ c.mapReserved [(8, 4)] = false ∧ i < dttSize) :=
  ⟨⟨wMap w0, 0, wMs6 1 7, ((wMap w0).taken 0 (wMs6 1 7)), 5, 1,
      (List.range 1).map (fun k => (((wMap w0).taken 0 (wMs6 1 7))).field (16 + 8 * k) 8),
      by unfold State.serves State.up; decide +kernel, rfl, by decide +kernel, by decide +kernel, by decide +kernel,
      by decide +kernel, by decide +kernel, by decide +kernel, by decide +kernel, by decide +kernel, by decide +kernel, rfl,
      by decide +kernel⟩,
    ⟨wMap w0, 0, wMs6 2 0x107, ((wMap w0).taken 0 (wMs6 2 0x107)), 5, 2,
      (List.range 2).map (fun k => (((wMap w0).taken 0 (wMs6 2 0x107))).field (16 + 8 * k) 8),
      by unfold State.serves State.up; decide +kernel, rfl, by decide +kernel, by decide +kernel, by decide +kernel,
      by decide +kernel, by decide +kernel, by decide +kernel, by decide +kernel, by decide +kernel, by decide +kernel, rfl,
      by decide +kernel⟩,
    ⟨wMap w0, 0, wMl, ((wMap w0).taken 0 (wMl)), 0, 1, by unfold State.serves State.up; decide +kernel, rfl, by decide +kernel⟩,
    ⟨wMap w0, 0, wMc 0, ((wMap w0).taken 0 (wMc 0)), 0, 4, by unfold State.serves State.up; decide +kernel, rfl,
      by decide +kernel⟩,
    ⟨w0, 0, wMr, ((w0).taken 0 (wMr)), 131071, by unfold State.serves State.up; decide +kernel, rfl, by decide +kernel⟩⟩

/-- Values that meet the premises of `Obligations.MemoryIsChecked`. -/
theorem witness_MemoryIsChecked :
    (∃ (s : State), s.flag Reg.SCRUB_CTRL_SCRUB_EN = false) ∧
    (∃ (s : State) (b : Nat), s.inReset = false ∧ s.flag Reg.SCRUB_CTRL_SCRUB_EN = true ∧ s.usable ≠ 0 ∧ s.ready memUnit = true ∧
      b = s.mem.scrubBlock % (s.usable / 64) ∧ SMap.get false s.mem.poison b = false ∧ SMap.find s.mem.latent b = none) ∧
    (∃ (s : State) (b : Nat) (v : BitVec 8), s.inReset = false ∧ s.flag Reg.SCRUB_CTRL_SCRUB_EN = true ∧ s.usable ≠ 0 ∧
      s.ready memUnit = true ∧ b = s.mem.scrubBlock % (s.usable / 64) ∧ SMap.get false s.mem.poison b = false ∧
      SMap.find s.mem.latent b = none ∧ v ≠ 0) ∧
    (∃ (s : State) (b : Nat), ∃ l, s.inReset = false ∧ s.flag Reg.SCRUB_CTRL_SCRUB_EN = true ∧ s.usable ≠ 0 ∧
      s.ready memUnit = true ∧ b = s.mem.scrubBlock % (s.usable / 64) ∧ SMap.get false s.mem.poison b = false ∧
      SMap.find s.mem.latent b = none ∧ eccDecode l = .uncorrectable) ∧
    (∃ (s : State), s.inReset = false) :=
  ⟨⟨wNoScrub, by decide +kernel⟩,
    ⟨wScrub, ((wScrub : State).mem.scrubBlock % ((wScrub : State).usable / 64)), by decide +kernel, by decide +kernel,
      by decide +kernel, by decide +kernel, rfl, by decide +kernel⟩,
    ⟨wScrub, ((wScrub : State).mem.scrubBlock % ((wScrub : State).usable / 64)), 1, by decide +kernel, by decide +kernel,
      by decide +kernel, by decide +kernel, rfl, by decide +kernel⟩,
    ⟨wScrub, ((wScrub : State).mem.scrubBlock % ((wScrub : State).usable / 64)), [(3, 1), (4, 2), (5, 3)], by decide +kernel,
      by decide +kernel, by decide +kernel, by decide +kernel, rfl, by decide +kernel⟩,
    ⟨w0, by decide +kernel⟩⟩

/-- Values that meet the premises of `Obligations.HostPagesMove`. -/
theorem witness_HostPagesMove :
    (∃ (s : State) (i : BitVec 17) (r : AtsRequest), s.inReset = false ∧
      s.mem.atsRequests.find? (fun x => decide (x.entry = i.toNat)) = some r ∧ s.entryStands i.toNat r.base = false) ∧
    (∃ (s : State) (i : BitVec 17) (r : AtsRequest), s.inReset = false ∧
      s.mem.atsRequests.find? (fun x => decide (x.entry = i.toNat)) = some r ∧ s.entryStands i.toNat r.base = true) ∧
    (∃ (s : State) (i : BitVec 17) (r : AtsRequest) (l : List AtsRange), s.inReset = false ∧
      s.mem.atsRequests.find? (fun x => decide (x.entry = i.toNat)) = some r ∧ s.entryStands i.toNat r.base = true ∧
      s.mem.atc.length + l.length ≤ 8192) ∧
    (∃ (s : State) (i : BitVec 17) (r : AtsRequest), ∃ w p, s.inReset = false ∧
      s.mem.atsRequests.find? (fun x => decide (x.entry = i.toNat)) = some r ∧ s.entryStands i.toNat r.base = true ∧
      r.waiters = [w] ∧ w.pages = [p] ∧ w.rounds = 0 ∧ s.cachedRange (4096 * p) w.write = none ∧ s.hi.priEnable = true ∧
      s.mem.priUnavailable = false ∧ s.mem.groups.length < s.maxGroups ∧ (∀ g ∈ s.mem.groups, g.pages.contains p = false)) ∧
    (∃ (s : State) (i : Fin 512) (g : PageGroup), s.inReset = false ∧
      s.mem.groups.find? (fun x => decide (x.index = i.val)) = some g ∧ s.mem.noGroup = []) ∧
    (∃ (s : State) (i : Fin 32), s.inReset = false ∧ s.hi.atsEnable = true ∧ i.val ∉ s.mem.invalidations) ∧
    (∃ (s : State), s.inReset = false) :=
  ⟨⟨wHostE 0, 0, wAts, by decide +kernel⟩,
    ⟨wHostE 0x1000F, 0, wAts, by decide +kernel⟩,
    ⟨wHostE 0x1000F, 0, wAts, ([{ first := 1, count := 1, target := 0x55000, canRead := true, canWrite := false, untranslated := false }] : List AtsRange),
      by decide +kernel⟩,
    ⟨wHostE 0x1000F, 0, wAts, wWt, 17, by decide +kernel⟩,
    ⟨wGrp, 3, wPg, by decide +kernel⟩,
    ⟨wGrp, 31, by decide +kernel⟩,
    ⟨w0, by decide +kernel⟩⟩


/-! ### DMA -/

def wCp (t : Nat) : Entry := wEnt [(0, 1, 0x70), (2, 2, t), (8, 8, 0x100), (16, 8, 0x200), (24, 8, 2 ^ 40), (32, 8, 5)]
def wFi : Entry := wEnt [(0, 1, 0x72), (1, 1, 3), (2, 2, 7), (4, 1, 3), (8, 8, 2 ^ 64 - 1), (16, 8, 0x200), (24, 8, 1)]
def wRi : Entry := wEnt [(0, 1, 0x71), (2, 2, 7), (8, 1, 0), (9, 1, 7), (10, 2, 0), (16, 8, 0x200), (24, 8, 100)]
def wRs2 (k : Nat) : Entry := wEnt [(0, 1, 0x73), (2, 2, 7), (8, 1, k)]
def wAb (kind fence : Nat) : Entry := wEnt [(0, 1, 0x74), (1, 1, fence), (2, 2, 7), (8, 1, kind), (9, 1, 15), (10, 2, 3), (12, 2, 0)]
def wX : Transfer := { cmd := ⟨3, wCp 7, 0⟩, order := 4, source := .copy 0x100, dest := 0x200, length := 40, cls := 0, poisonStop := false, limit := 5 }
def wXr : Transfer := { wX with started := true, running := true }
def wXf : Transfer := { wXr with source := .fill 7 }
def wXl : Transfer := { wXr with length := 5000 }
def wXw : Transfer := { wXr with source := .copy 0x10000 }
def wXp : Transfer := { wXr with running := false }
def wDma (h : List Transfer) : State := { wMap w0 with dma := { engines := [(7, { held := h })], fetched := 9 } }
def wDmaS (x : Transfer) : State := { wMap w0 with dma := { engines := [(7, { slots := [(15, x)], emptied := [14] })], fetched := 9 } }
def wDmaH : State := let s := wDma [wXw]; { s with mem := { s.mem with dtt := [(0, 7), (1, 0x2000F)] }, hi := { s.hi with atsEnable := true } }
def wQueueR : State := let s := (((wMap wSite).setFld (Reg.QBASE_BASE 0 7) 1).setFld (Reg.QCFG_SIZE_LOG2 0 7) 16); { s with applied := s.regs }
def wRingQ : State := wQueueR.setFld (Reg.Q_COMMIT 0 7) 64

/-- Values that meet the premises of `Obligations.DmaCommands`. -/
theorem witness_DmaCommands :
    (∃ (s : State) (q : BitVec 8) (e : Entry) (c : Cmd), ∃ i src, s.serves q e ∧ c = s.taken q.toNat e ∧ s.dmaTakes c ∧ (∀ n,
      ∀ x ∈ (s.dmaRec n).held, x.order < s.dma.fetched) ∧ ((Entry.opcode e = 0x70 ∧ i = Instr.dmaCopy q e ∧
      src = DmaSource.copy (c.field 8 8) ∧ c.field 8 8 < 2 ^ 48) ∨ (Entry.opcode e = 0x72 ∧ i = Instr.dmaFill q e ∧
      src = DmaSource.fill (c.field 8 8))) ∧ c.reservedSet [dmaFlags, (8, 8), (16, 8), (24, 8), (32, 8)] = false ∧
      c.badLength = false ∧ c.field 16 8 < 2 ^ 48) ∧
    (∃ (s : State) (q : BitVec 8) (e : Entry) (c : Cmd), ∃ src, s.serves q e ∧ c = s.taken q.toNat e ∧ s.dmaTakes c ∧ (∀ n,
      ∀ x ∈ (s.dmaRec n).held, x.order < s.dma.fetched) ∧ Entry.opcode e = 0x71 ∧ c.reservedSet [dmaFlags, (8, 1), (9, 1), (10,
      2), (16, 8), (24, 8), (32, 8)] = false ∧ c.field 9 1 < 8 ∧ c.field 16 8 < 2 ^ 48 ∧ bitOf c.flags 0 = false ∧ c.target < 8 ∧
      (s.dmaRec c.target).held = [] ∧ ((c.field 8 1 = 0 ∧ c.field 10 2 < 64 ∧ s.present (seqUnit (c.field 10 2)) = true ∧
      src = DmaSource.ream (c.field 10 2) (c.field 9 1)) ∨ (c.field 8 1 = 1 ∧ c.field 10 2 < 32 ∧
      s.present (c.field 10 2) = true ∧ src = DmaSource.digitizer (c.field 10 2))) ∧ s.ringApplied src = true) ∧
    (∃ (s : State) (q : BitVec 8) (e : Entry) (c : Cmd), ∃ x, s.serves q e ∧ c = s.taken q.toNat e ∧ s.dmaTakes c ∧ (∀ n,
      ∀ x ∈ (s.dmaRec n).held, x.order < s.dma.fetched) ∧ Entry.opcode e = 0x73 ∧ c.reservedSet [dmaFlags, (8, 1)] = false ∧
      c.field 8 1 < 16 ∧ c.target < 8 ∧ SMap.find (s.dmaRec c.target).slots (c.field 8 1) = some x) ∧
    (∃ (s : State) (q : BitVec 8) (e : Entry) (c : Cmd), s.serves q e ∧ c = s.taken q.toNat e ∧ s.dmaTakes c ∧ (∀ n,
      ∀ x ∈ (s.dmaRec n).held, x.order < s.dma.fetched) ∧ Entry.opcode e = 0x73 ∧ c.reservedSet [dmaFlags, (8, 1)] = false ∧
      c.field 8 1 < 16 ∧ c.target < 8 ∧ SMap.find (s.dmaRec c.target).slots (c.field 8 1) = none ∧
      c.field 8 1 ∈ (s.dmaRec c.target).emptied) ∧
    (∃ (s : State) (q : BitVec 8) (e : Entry) (c : Cmd), s.serves q e ∧ c = s.taken q.toNat e ∧ s.dmaTakes c ∧ (∀ n,
      ∀ x ∈ (s.dmaRec n).held, x.order < s.dma.fetched) ∧ Entry.opcode e = 0x74 ∧ c.reservedSet [dmaFlags, (8, 1), (9, 1), (10,
      2), (12, 2)] = false ∧ c.field 9 1 < 16 ∧ c.target < 8 ∧ bitOf c.flags 0 = true ∧ s.earlierDma c ≠ [] ∧ c.field 8 1 ≤ 1) ∧
    (∃ (s : State) (q : BitVec 8) (e : Entry) (c : Cmd), s.serves q e ∧ c = s.taken q.toNat e ∧ s.dmaTakes c ∧ (∀ n,
      ∀ x ∈ (s.dmaRec n).held, x.order < s.dma.fetched) ∧ Entry.opcode e = 0x74 ∧ c.reservedSet [dmaFlags, (8, 1), (9, 1), (10,
      2), (12, 2)] = false ∧ c.field 9 1 < 16 ∧ c.target < 8 ∧ bitOf c.flags 0 = false ∧ c.field 8 1 = 0) ∧
    (∃ (s : State) (q : BitVec 8) (e : Entry) (c : Cmd), s.serves q e ∧ c = s.taken q.toNat e ∧ s.dmaTakes c ∧ (∀ n,
      ∀ x ∈ (s.dmaRec n).held, x.order < s.dma.fetched) ∧ Entry.opcode e = 0x74 ∧ c.reservedSet [dmaFlags, (8, 1), (9, 1), (10,
      2), (12, 2)] = false ∧ c.field 9 1 < 16 ∧ c.target < 8 ∧ bitOf c.flags 0 = false ∧ c.field 8 1 = 1) :=
  ⟨⟨wDma [], 0, wCp 0xFFFF, ((wDma []).taken 0 (wCp 0xFFFF)), .dmaCopy 0 (wCp 0xFFFF), .copy 0x100,
      by unfold State.serves State.up; decide +kernel, rfl, by unfold State.dmaTakes; decide +kernel,
      fun n => get_of (P := fun (y : DmaEngine) => ∀ x ∈ y.held, x.order < 9) (by decide) (by decide +kernel) n,
      by decide +kernel⟩,
    ⟨wRingQ, 0, wRi, ((wRingQ).taken 0 (wRi)), .ream 0 7, by unfold State.serves State.up; decide +kernel, rfl,
      by unfold State.dmaTakes; decide +kernel, fun n => get_of (P := fun (y : DmaEngine) => ∀ x ∈ y.held,
      x.order < wRingQ.dma.fetched) (by decide) (by decide +kernel) n, by decide +kernel⟩,
    ⟨wDmaS wX, 0, wRs2 15, ((wDmaS wX).taken 0 (wRs2 15)), wX, by unfold State.serves State.up; decide +kernel, rfl,
      by unfold State.dmaTakes; decide +kernel, fun n => get_of (P := fun (y : DmaEngine) => ∀ x ∈ y.held,
      x.order < 9) (by decide) (by decide +kernel) n, by decide +kernel⟩,
    ⟨wDmaS wX, 0, wRs2 14, ((wDmaS wX).taken 0 (wRs2 14)), by unfold State.serves State.up; decide +kernel, rfl,
      by unfold State.dmaTakes; decide +kernel, fun n => get_of (P := fun (y : DmaEngine) => ∀ x ∈ y.held,
      x.order < 9) (by decide) (by decide +kernel) n, by decide +kernel⟩,
    ⟨wDma [wXr], 3, wAb 0 1, ((wDma [wXr]).taken 3 (wAb 0 1)), by unfold State.serves State.up; decide +kernel, rfl,
      by unfold State.dmaTakes; decide +kernel, fun n => get_of (P := fun (y : DmaEngine) => ∀ x ∈ y.held,
      x.order < 9) (by decide) (by decide +kernel) n, by decide +kernel⟩,
    ⟨wDmaS wXp, 0, wAb 0 0, ((wDmaS wXp).taken 0 (wAb 0 0)), by unfold State.serves State.up; decide +kernel, rfl,
      by unfold State.dmaTakes; decide +kernel, fun n => get_of (P := fun (y : DmaEngine) => ∀ x ∈ y.held,
      x.order < 9) (by decide) (by decide +kernel) n, by decide +kernel⟩,
    ⟨wDma [wXr], 0, wAb 1 0, ((wDma [wXr]).taken 0 (wAb 1 0)), by unfold State.serves State.up; decide +kernel, rfl,
      by unfold State.dmaTakes; decide +kernel, fun n => get_of (P := fun (y : DmaEngine) => ∀ x ∈ y.held,
      x.order < 9) (by decide) (by decide +kernel) n, by decide +kernel⟩⟩

/-- Values that meet the premises of `Obligations.DmaChunks`. -/
theorem witness_DmaChunks :
    (∃ (s : State) (e : Fin 8) (x : Transfer) (n : Nat), ∃ data u w p v, s.inReset = false ∧ (s.dmaRec e.val).held = [x] ∧
      x.running = true ∧ x.poisoned = 0 ∧ x.expired = false ∧ x.aborted = false ∧ x.parked = none ∧ x.fence = [] ∧
      x.started = true ∧ n = min 4096 (x.length - x.done) ∧ (∀ pat, x.source ≠ .fill pat) ∧
      s.chunkRead (dmaCtx e.val x) x x.done n = (.ok data none, u) ∧ u.poisonedIn (s.dmaSegments x x.done n) n = 0 ∧
      (u.bump (Reg.DMA_BYTES_READ e.val) n).chunkWrite (dmaCtx e.val x) x x.done data false = (.ok w p, v)) ∧
    (∃ (s : State) (e : Fin 8) (x : Transfer) (n : Nat), ∃ pat w p v, s.inReset = false ∧ (s.dmaRec e.val).held = [x] ∧
      x.running = true ∧ x.poisoned = 0 ∧ x.expired = false ∧ x.aborted = false ∧ x.parked = none ∧ x.fence = [] ∧
      x.started = true ∧ n = min 4096 (x.length - x.done) ∧ x.source = .fill pat ∧
      s.chunkWrite (dmaCtx e.val x) x x.done ((List.range n).map (fun j => BitVec.ofNat 8 (bitsOf pat (8 * ((x.done + j) % 8)) 8))) false = (.ok w p,
      v)) ∧
    (∃ (s : State) (e : Fin 8) (x : Transfer) (n : Nat), ∃ va u, s.inReset = false ∧ (s.dmaRec e.val).held = [x] ∧
      x.running = true ∧ x.poisoned = 0 ∧ x.expired = false ∧ x.aborted = false ∧ x.parked = none ∧ x.fence = [] ∧
      x.started = true ∧ n = min 4096 (x.length - x.done) ∧ s.chunkRead (dmaCtx e.val x) x x.done n = (.wait va, u)) ∧
    (∃ (s : State) (e : Fin 8) (x : Transfer) (n : Nat), ∃ va k b u, s.inReset = false ∧ (s.dmaRec e.val).held = [x] ∧
      x.running = true ∧ x.poisoned = 0 ∧ x.expired = false ∧ x.aborted = false ∧ x.parked = none ∧ x.fence = [] ∧
      x.started = true ∧ n = min 4096 (x.length - x.done) ∧ s.chunkRead (dmaCtx e.val x) x x.done n = (.fault va k b, u) ∧
      u.poisonedIn (s.dmaSegments x x.done n) b = 0 ∧ (s.dmaRec e.val).slots = []) ∧
    (∃ (s : State) (e : Fin 8) (k : Fin 32) (x : Transfer), s.inReset = false ∧ (s.dmaRec e.val).held[k.val]? = some x ∧
      s.fld Reg.DMA_COMMON_AGE_LIMIT ≠ 0 ∧ x.running = false) ∧
    (∃ (s : State) (e : Fin 8) (k : Fin 32) (x : Transfer), s.inReset = false ∧ (s.dmaRec e.val).held[k.val]? = some x ∧
      x.limit ≠ 0 ∧ x.started = true) ∧
    (∃ (s : State) (e : Fin 8) (k : Fin 32) (x : Transfer), s.inReset = false ∧ SMap.find (s.dmaRec e.val).slots k.val = some x) :=
  ⟨⟨wDma [wXr], 7, wXr, 40, (match ((wDma [wXr]).chunkRead (dmaCtx 7 (wXr)) (wXr) 0 40).1 with | .ok d _ => d | _ => []),
      ((wDma [wXr]).chunkRead (dmaCtx 7 (wXr)) (wXr) 0 40).2, [], none,
      ((((wDma [wXr]).chunkRead (dmaCtx 7 (wXr)) (wXr) 0 40).2.bump (Reg.DMA_BYTES_READ 7) 40).chunkWrite (dmaCtx 7 (wXr)) (wXr) 0 (match ((wDma [wXr]).chunkRead (dmaCtx 7 (wXr)) (wXr) 0 40).1 with | .ok d _ => d | _ => []) false).2,
      by decide +kernel, by decide +kernel, by decide +kernel, by decide +kernel, by decide +kernel, by decide +kernel,
      by decide +kernel, by decide +kernel, by decide +kernel, by decide +kernel, by simp [wXr, wX], by decide +kernel⟩,
    ⟨wDma [wXf], 7, wXf, 40, 7, [], none,
      ((wDma [wXf]).chunkWrite (dmaCtx 7 wXf) wXf 0 ((List.range 40).map (fun j => BitVec.ofNat 8 (bitsOf 7 (8 * ((0 + j) % 8)) 8))) false).2,
      by decide +kernel⟩,
    ⟨wDmaH, 7, wXw, 40, 0x10000, (wDmaH.chunkRead (dmaCtx 7 wXw) wXw 0 40).2, by decide +kernel⟩,
    ⟨wDma [wXw], 7, wXw, 40, 0x10000, 1, 0, ((wDma [wXw]).chunkRead (dmaCtx 7 wXw) wXw 0 40).2, by decide +kernel⟩,
    ⟨(wDma [wXp]).setFld Reg.DMA_COMMON_AGE_LIMIT 5, 7, 0, wXp, by decide +kernel⟩,
    ⟨wDma [wXr], 7, 0, wXr, by decide +kernel⟩,
    ⟨wDmaS wXp, 7, 15, wXp, by decide +kernel⟩⟩


/-! ### Felt links and cell time -/

/-- A node of a torus of four by four, its port in a state. -/
def wFelt (p st : Nat) (x : FeltPort) : State :=
  let s := ((((w0.setFlag (Reg.PORT_CTRL_ENABLE p) true).setFld Reg.FELT_CFG_X 4).setFld Reg.FELT_CFG_Y 4).setFld Reg.FELT_CFG_TIME_ROOT 256).setFld (Reg.PORT_STATUS_STATE p) st
  { s with felt := { ports := [(p, x)] } }
def w8 (t c : Nat) : BitVec 8 := BitVec.ofNat 8 (crc8 (leBytes t 1 ++ leBytes c 6))
def wPkt (typ vc dest tid : Nat) (fl : List Nat) : Packet := { dest := dest, src := 1, vc := vc, typ := typ, tid := tid, poison := 0, flits := fl }
/-- The flits of a packet with its SEQ. -/
def wFlits (k : Packet) (seq : Nat) : List (BitVec 64) :=
  let h := k.dest + 2 ^ 16 * k.src + 2 ^ 32 * k.vc + 2 ^ 34 * k.typ + 2 ^ 38 * k.flits.length + 2 ^ 44 * k.tid + 2 ^ 56 * k.poison
  (h :: k.flits ++ [seq + 2 ^ 32 * crc32c (bytesOfFlits (h :: k.flits) ++ leBytes seq 4)]).map (BitVec.ofNat 64)
def wSent : List SentPacket := [⟨4095, wPkt 4 0 0 0 []⟩, ⟨0, wPkt 4 0 0 1 []⟩]
def wUp : FeltPort := { replay := wSent, episodes := 14, creditDue := true, ackDue := true, freed := [1, 2, 3, 4], rxSeq := 0, t1 := some 100, exchange := 7, timeHi := some 5 }
def wSync (st near far : Nat) : State := let s := (wFelt 0 4 wUp).setFld Reg.FELT_STATUS_SYNC_STATE st; { s with felt := { s.felt with near := near, far := far } }
def wFelt0 : State := wFelt 0 3 {}
def wId0 : Nat := wFelt0.neighbour wFelt0.node 0 + 2 ^ 16 * otherEnd 0 + 2 ^ 18 * wFelt0.extentX + 2 ^ 27 * wFelt0.extentY + 2 ^ 36

/-- Values that meet the premises of `Obligations.FeltPortsTrain`. -/
theorem witness_FeltPortsTrain :
    (∃ (s : State) (p : Fin 4), s.inReset = false ∧ (s.portState p.val = 1 ∨ s.portState p.val = 6)) ∧
    (∃ (s : State) (p : Fin 4), s.inReset = false ∧ s.portState p.val = 2) ∧
    (∃ (s : State) (p : Fin 4), s.inReset = false ∧ s.portState p.val = 5) ∧
    (∃ (s : State) (p : Fin 4), s.inReset = false ∧ s.portState p.val = 4) ∧
    (∃ (s : State) (p : Fin 4), s.inReset = false ∧ s.portState p.val = 4 ∧ s.writable (Reg.portB p.val) ∧
      s.portOff p.val = false) ∧
    (∃ (s : State) (p : Fin 4), s.inReset = false ∧ (s.port p.val).retraining = true ∧ s.portState p.val ≠ 4) ∧
    (∃ (s : State) (p : Fin 4), s.inReset = false ∧ s.portState p.val = 7) ∧
    (∃ (s : State) (p : Fin 4) (content : BitVec 48) (crc : BitVec 8), s.inReset = false ∧ 3 ≤ s.portState p.val ∧
      s.portState p.val < 6 ∧ crc8 (leBytes 0x87 1 ++ leBytes content.toNat 6) = crc.toNat) :=
  ⟨⟨wFelt 3 1 {}, 3, by decide +kernel⟩,
    ⟨wFelt 3 2 {}, 3, by decide +kernel⟩,
    ⟨wFelt 3 5 {}, 3, by decide +kernel⟩,
    ⟨wFelt 3 4 {}, 3, by decide +kernel⟩,
    ⟨wFelt 3 4 {}, 3, by unfold State.writable; decide +kernel⟩,
    ⟨wFelt 0 6 { wUp with retraining := true, inBuf := [⟨wPkt 4 0 0 0 [], true, []⟩] }, 0, by decide +kernel⟩,
    ⟨wFelt 3 7 {}, 3, by decide +kernel⟩,
    ⟨wFelt 0 3 {}, 0, 12345, w8 0x87 12345, by decide +kernel⟩⟩

/-- Values that meet the premises of `Obligations.FeltPortsTrain`. -/
theorem witness_FeltPortsTrain_2 :
    (∃ (s : State) (p : Fin 4) (content : BitVec 48) (crc : BitVec 8), s.inReset = false ∧ 3 ≤ s.portState p.val ∧
      s.portState p.val < 6 ∧ crc8 (leBytes 0x87 1 ++ leBytes content.toNat 6) ≠ crc.toNat) ∧
    (∃ (s : State) (p : Fin 4) (content : BitVec 48) (crc : BitVec 8), ∃ id0, s.inReset = false ∧ 3 ≤ s.portState p.val ∧
      s.portState p.val < 6 ∧ s.portState p.val = 3 ∧ (s.port p.val).id0 = some id0 ∧
      crc8 (leBytes 0x99 1 ++ leBytes content.toNat 6) = crc.toNat) :=
  ⟨⟨wFelt 0 3 {}, 0, 12345, w8 0x87 12344, by decide +kernel⟩,
    ⟨wFelt 0 3 { id0 := some (wId0) }, 0, 256, w8 0x99 256, wId0, by decide +kernel⟩⟩

/-- Values that meet the premises of `Obligations.FeltLinkReplays`. -/
theorem witness_FeltLinkReplays :
    (∃ (s : State) (p : Fin 4) (content : BitVec 48) (crc : BitVec 8), s.inReset = false ∧ s.portState p.val = 4 ∧
      crc8 (leBytes 0x2D 1 ++ leBytes content.toNat 6) = crc.toNat) ∧
    (∃ (s : State) (p : Fin 4) (content : BitVec 48) (crc : BitVec 8), s.inReset = false ∧ s.portState p.val = 4 ∧
      crc8 (leBytes 0x33 1 ++ leBytes content.toNat 6) = crc.toNat) ∧
    (∃ (s : State) (p : Fin 4) (content : BitVec 48) (crc : BitVec 8), ∃ l, s.inReset = false ∧ s.portState p.val = 4 ∧
      crc8 (leBytes 0x4B 1 ++ leBytes content.toNat 6) = crc.toNat ∧
      l = (s.port p.val).replay.dropWhile (fun r => decide (r.seq ≠ content.toNat % 4096))) ∧
    (∃ (s : State) (p : Fin 4), s.inReset = false ∧ s.portState p.val = 4) ∧
    (∃ (s : State) (p : Fin 4), s.inReset = false ∧ s.portState p.val = 4 ∧ (s.port p.val).creditDue = true) ∧
    (∃ (s : State) (p : Fin 4), s.inReset = false ∧ s.portState p.val = 4 ∧ (s.port p.val).ackDue = true) ∧
    (∃ (s : State) (p : Fin 4) (l : List (BitVec 64)), s.inReset = false ∧ s.portState p.val = 4 ∧ packetOf l = none ∧
      (s.port p.val).nak = false) ∧
    (∃ (s : State) (p : Fin 4) (l : List (BitVec 64)), ∃ k seq d, s.inReset = false ∧ s.portState p.val = 4 ∧
      packetOf l = some (k, seq) ∧ d = (seq + 4096 - (s.port p.val).rxSeq) % 4096) :=
  ⟨⟨wFelt 0 4 (wUp), 0, 274928246785, w8 45 274928246785, by decide +kernel⟩,
    ⟨wFelt 0 4 (wUp), 0, 4095, w8 51 4095, by decide +kernel⟩,
    ⟨wFelt 0 4 (wUp), 0, 0, w8 75 0,
      (((wFelt 0 4 (wUp) : State).port (0 : Fin 4).val).replay.dropWhile (fun r => decide (r.seq ≠ (0 : BitVec 48).toNat % 4096))),
      by decide +kernel, by decide +kernel, by decide +kernel, rfl⟩,
    ⟨wFelt 0 4 wUp, 0, by decide +kernel⟩,
    ⟨wFelt 0 4 wUp, 0, by decide +kernel⟩,
    ⟨wFelt 0 4 wUp, 0, by decide +kernel⟩,
    ⟨wFelt 0 4 wUp, 0, [], by decide +kernel⟩,
    ⟨wFelt 0 4 wUp, 0, wFlits (wPkt 4 0 0 9 [1, 2]) 0, wPkt 4 0 0 9 [1, 2], 0,
      (((0) + 4096 - ((wFelt 0 4 wUp : State).port (0 : Fin 4).val).rxSeq) % 4096), by decide +kernel, by decide +kernel,
      by decide +kernel, rfl⟩⟩

/-- Values that meet the premises of `Obligations.CellTimeFollows`. -/
theorem witness_CellTimeFollows :
    (∃ (s : State) (p : Fin 4), s.inReset = false ∧ s.portState p.val = 4) ∧
    (∃ (s : State) (p : Fin 4) (content : BitVec 48) (crc : BitVec 8), s.inReset = false ∧ s.portState p.val = 4 ∧
      crc8 (leBytes 0x55 1 ++ leBytes content.toNat 6) = crc.toNat) ∧
    (∃ (s : State) (p : Fin 4) (content : BitVec 48) (crc : BitVec 8) (t4 : BitVec 64) (t1 : Nat) (l : List Int),
      s.inReset = false ∧ s.portState p.val = 4 ∧ crc8 (leBytes 0x66 1 ++ leBytes content.toNat 6) = crc.toNat ∧
      (s.port p.val).t1 = some t1 ∧ content.toNat % 256 = (s.port p.val).exchange ∧
      l = ((s.port p.val).delays ++ [((((t4.toNat + 2 ^ 64 - t1) % 2 ^ 64 : Nat) : Int) - (bitsOf content.toNat 8 40 : Int)) / 2]).drop ((s.port p.val).delays.length + 1 - 64)) ∧
    (∃ (s : State) (p : Fin 4) (content : BitVec 48) (crc : BitVec 8), s.inReset = false ∧ s.portState p.val = 4 ∧
      crc8 (leBytes 0xB4 1 ++ leBytes content.toNat 6) = crc.toNat) ∧
    (∃ (s : State) (p : Fin 4) (content : BitVec 48) (crc : BitVec 8), s.inReset = false ∧ s.portState p.val = 4 ∧
      crc8 (leBytes 0xC3 1 ++ leBytes content.toNat 6) = crc.toNat) ∧
    (∃ (s : State) (p : Fin 4) (content : BitVec 48) (crc : BitVec 8) (ta : BitVec 64) (d : Int), s.inReset = false ∧
      s.portState p.val = 4 ∧ crc8 (leBytes 0x78 1 ++ leBytes content.toNat 6) = crc.toNat ∧ s.isTimeRoot = false ∧
      s.syncParent = some p.val ∧ 2 ≤ s.fld Reg.FELT_STATUS_SYNC_STATE ∧
      d = toSigned 64 ((s.pulseTime p.val content.toNat + s.fld (Reg.HOP_DELAY p.val) + 2 ^ 64 - ta.toNat) % 2 ^ 64)) ∧
    (∃ (s : State), s.inReset = false) ∧
    (∃ (s : State), s.inReset = false ∧ s.fld Reg.FELT_STATUS_SYNC_STATE = 3) :=
  ⟨⟨wFelt 0 4 wUp, 0, by decide +kernel⟩,
    ⟨wFelt 0 4 (wUp), 0, 9, w8 85 9, by decide +kernel⟩,
    ⟨wFelt 0 4 (wUp), 0, 12807, w8 102 12807, 300, 100,
      ((((wFelt 0 4 (wUp) : State).port (0 : Fin 4).val).delays ++ [(((((300 : BitVec 64).toNat + 2 ^ 64 - (100 : Nat)) % 2 ^ 64 : Nat) : Int) - (bitsOf (12807 : BitVec 48).toNat 8 40 : Int)) / 2]).drop (((wFelt 0 4 (wUp) : State).port (0 : Fin 4).val).delays.length + 1 - 64)),
      by decide +kernel, by decide +kernel, by decide +kernel, by decide +kernel, by decide +kernel, rfl⟩,
    ⟨wFelt 0 4 (wUp), 0, 700, w8 180 700, by decide +kernel⟩,
    ⟨wFelt 0 4 (wUp), 0, 700, w8 195 700, by decide +kernel⟩,
    ⟨wSync 2 63 0, 0, 5000, w8 0x78 5000, 4990,
      (toSigned 64 (((wSync 2 63 0 : State).pulseTime (0 : Fin 4).val (5000 : BitVec 48).toNat + (wSync 2 63 0 : State).fld (Reg.HOP_DELAY (0 : Fin 4).val) + 2 ^ 64 - (4990 : BitVec 64).toNat) % 2 ^ 64)),
      by decide +kernel, by decide +kernel, by decide +kernel, by decide +kernel, by decide +kernel, by decide +kernel, rfl⟩,
    ⟨wFelt 0 4 wUp, by decide +kernel⟩,
    ⟨wSync 3 0 0, by decide +kernel⟩⟩


/-! ### Felt messages -/

/-- A node that a message of a type has reached on port 0, region 0 of its memory open to peers. -/
def wIn (typ tid : Nat) (fl : List Nat) : InPacket := ⟨wPkt typ 0 0 tid fl, true, []⟩
def wMsgF (e : InPacket) (r : Nat) (f : Felt) : State :=
  let s := (wMap (wFelt 0 4 wUp)).setFld Reg.FELT_REGIONS r
  { s with felt := { f with ports := [(0, { wUp with inBuf := [e] })] } }
def wMsg (e : InPacket) (r : Nat) : State := wMsgF e r {}
def wWr (va : Nat) : InPacket := wIn 0 7 [va + 2 ^ 48 * 7, 0x1122334455667788]
def wRd (va : Nat) : InPacket := wIn 1 7 [va + 2 ^ 48 * 255]
def wFc (toward node len : Nat) : Entry := wEnt [(0, 1, 0xA0), (8, 1, toward), (10, 2, node), (16, 8, 2 ^ 48 - 1), (24, 8, 0x200), (32, 8, len), (40, 8, 9)]
def wMsgs : List CopyMsg := [{ tid := 6, off := 0, size := 256, answered := true }, { tid := 7, off := 256, size := 8 }]
def wFcopy : FeltCopy := { cmd := ⟨3, wFc 0 1 300, 0⟩, toRemote := true, node := 1, near := 0x1000, far := 0x2000, length := 300, limit := 0, cls := 0, running := true, flight := wMsgs }
def wOther : FeltCopy := { wFcopy with cmd := ⟨4, wFc 1 1 300, 0⟩, flight := [{ tid := 8, off := 0, size := 256 }] }
def wCopies : Felt := { copies := [wOther, wFcopy] }
def wBody (src parts : Nat) (got : SMap (List Nat)) : Reassembly := { src := src, test := 5, round := 1, kind := 0, check := 0x99, parts := parts, got := got }
def wRed (part parts : Nat) : InPacket := wIn 4 0 [5 + 2 ^ 16 * 1 + 2 ^ 40 * part + 2 ^ 52 * (parts - 1), 0x99, 77]
def wSched (id lo : Nat) : Entry := wEnt [(0, 1, 0xA1), (8, 2, id), (16, 8, lo)]
def wCan (id : Nat) : Entry := wEnt [(0, 1, 0xA2), (8, 2, id)]
def wTset : Entry := wEnt [(0, 1, 0xA3), (16, 8, 2 ^ 64 - 1), (24, 4, 3)]
/-- That node, two of its links up, with starts armed and commands waiting for answers. -/
def wStarts (l : SMap Start) (a : List StartAsk) : State :=
  let s := (wFelt 0 4 wUp).setFld Reg.FELT_STATUS_SYNC_STATE 3
  { s with felt := { s.felt with starts := l, asks := a, links := [(0, (1, true)), (2, (1, true))] } }
def wEight : SMap Start := (List.range 8).map (fun k => (k, { id := k, time := 10 ^ 10 }))
def wAsk (x : Bool) : StartAsk := { cmd := ⟨3, wSched 9 (2 * 10 ^ 9), 0⟩, id := 9, cancels := x, answered := [0], yes := 1, no := 0 }
def wMsgS (e : InPacket) (l : SMap Start) (a : List StartAsk) : State :=
  let s := wStarts l a
  { s with felt := { s.felt with ports := [(0, { wUp with inBuf := [e] })] } }
/-- A program bound to start slot 3, and the start in it at a cell time. -/
def wBoundG : Program := { wProg with scheduled := true, bound := some 3, fillsDue := [0], status := List.replicate 8 0 }
def wBound (t : Nat) : State :=
  let s := wRunning wBoundG (wW 0)
  { s with felt := { starts := [(3, { id := 9, time := t })] } }

/-- Values that meet the premises of `Obligations.FeltMessagesAct`. -/
theorem witness_FeltMessagesAct :
    (∃ (s : State) (p : Fin 4) (e : InPacket) (va : Nat) (n : Nat), s.inReset = false ∧ s.idling = false ∧ e.outs = [] ∧
      e.pkt.src ≠ everyNode ∧ va = e.pkt.reqVa ∧ n = e.pkt.reqBytes ∧ s.arrived p.val 0 = some e ∧ s.peerMay va = false) ∧
    (∃ (s : State) (p : Fin 4) (e : InPacket) (va : Nat) (n : Nat), ∃ w f u, s.inReset = false ∧ s.idling = false ∧ e.outs = [] ∧
      e.pkt.src ≠ everyNode ∧ va = e.pkt.reqVa ∧ n = e.pkt.reqBytes ∧ s.arrived p.val 0 = some e ∧ s.peerMay va = true ∧
      s.writePayload (feltCtx p.val) va (e.pkt.data n) e.pkt.poison = (.ok w f, u)) ∧
    (∃ (s : State) (p : Fin 4) (e : InPacket) (va : Nat) (n : Nat), ∃ a k m u, s.inReset = false ∧ s.idling = false ∧
      e.outs = [] ∧ e.pkt.src ≠ everyNode ∧ va = e.pkt.reqVa ∧ n = e.pkt.reqBytes ∧ s.arrived p.val 0 = some e ∧
      s.peerMay va = true ∧ s.writePayload (feltCtx p.val) va (e.pkt.data n) e.pkt.poison = (.fault a k m, u)) ∧
    (∃ (s : State) (p : Fin 4) (e : InPacket) (va : Nat) (n : Nat), s.inReset = false ∧ s.idling = false ∧ e.outs = [] ∧
      e.pkt.src ≠ everyNode ∧ va = e.pkt.reqVa ∧ n = e.pkt.reqBytes ∧ s.arrived p.val 1 = some e ∧ s.peerMay va = false) ∧
    (∃ (s : State) (p : Fin 4) (e : InPacket) (va : Nat) (n : Nat), ∃ d u, s.inReset = false ∧ s.idling = false ∧ e.outs = [] ∧
      e.pkt.src ≠ everyNode ∧ va = e.pkt.reqVa ∧ n = e.pkt.reqBytes ∧ s.arrived p.val 1 = some e ∧ s.peerMay va = true ∧
      dmaGather (feltCtx p.val) [(va, n)] [] none s = (.ok d none, u)) ∧
    (∃ (s : State) (q : BitVec 8) (e : Entry) (c : Cmd) (node : Nat), s.serves q e ∧ Entry.opcode e = 0xA0 ∧
      c = s.taken q.toNat e ∧ node = c.field 10 2 ∧ c.target = 0 ∧ c.reservedSet [(8, 1), (10, 2), (16, 8), (24, 8), (32, 8), (40,
      8)] = false ∧ c.field 8 1 ≤ 1 ∧ c.field 16 8 < 2 ^ 48 ∧ c.field 24 8 < 2 ^ 48 ∧ 0 < c.field 32 8 ∧ c.field 32 8 ≤ 2 ^ 40 ∧
      node ≠ s.node ∧ nodeX node < s.extentX ∧ nodeY node < s.extentY ∧ firstFailing (s.feltChecks [memUnit]) = none) ∧
    (∃ (s : State) (p : Fin 4) (e : InPacket) (tid : Nat) (st : Nat) (kind : Nat) (x : FeltCopy) (m : CopyMsg),
      s.inReset = false ∧ s.felt.copies.find? (fun x => x.flight.any (fun m => decide (m.tid = tid) && !m.answered)) = some x ∧
      x.flight.find? (fun m => decide (m.tid = tid) && !m.answered) = some m ∧ st = e.pkt.flit 0 % 256 ∧
      kind = bitsOf (e.pkt.flit 0) 8 8 ∧ s.arrived p.val 2 = some e ∧ e.outs = [] ∧ e.pkt.tid = tid) ∧
    (∃ (s : State) (p : Fin 4) (e : InPacket) (tid : Nat) (st : Nat) (kind : Nat) (x : FeltCopy) (m : CopyMsg),
      s.inReset = false ∧ s.felt.copies.find? (fun x => x.flight.any (fun m => decide (m.tid = tid) && !m.answered)) = some x ∧
      x.flight.find? (fun m => decide (m.tid = tid) && !m.answered) = some m ∧ st = e.pkt.flit 0 % 256 ∧
      kind = bitsOf (e.pkt.flit 0) 8 8 ∧ s.arrived p.val 3 = some e ∧ e.outs = [] ∧ e.pkt.tid = tid ∧ st = 0) :=
  ⟨⟨wMsg (wWr 0x1000) 2, 0, wWr 0x1000, ((wWr 0x1000 : InPacket).pkt.reqVa), ((wWr 0x1000 : InPacket).pkt.reqBytes),
      by decide +kernel, by decide +kernel, by decide +kernel, by decide +kernel, rfl, rfl, by decide +kernel⟩,
    ⟨wMsg (wWr 0x1000) 1, 0, wWr 0x1000, ((wWr 0x1000 : InPacket).pkt.reqVa), ((wWr 0x1000 : InPacket).pkt.reqBytes),
      (match ((wMsg (wWr 0x1000) 1).writePayload (feltCtx 0) (wWr 0x1000).pkt.reqVa ((wWr 0x1000).pkt.data (wWr 0x1000).pkt.reqBytes) (wWr 0x1000).pkt.poison).1 with | .ok z _ => z | _ => []),
      (match ((wMsg (wWr 0x1000) 1).writePayload (feltCtx 0) (wWr 0x1000).pkt.reqVa ((wWr 0x1000).pkt.data (wWr 0x1000).pkt.reqBytes) (wWr 0x1000).pkt.poison).1 with | .ok _ z => z | _ => none),
      ((wMsg (wWr 0x1000) 1).writePayload (feltCtx 0) (wWr 0x1000).pkt.reqVa ((wWr 0x1000).pkt.data (wWr 0x1000).pkt.reqBytes) (wWr 0x1000).pkt.poison).2,
      by decide +kernel, by decide +kernel, by decide +kernel, by decide +kernel, rfl, rfl, by decide +kernel⟩,
    ⟨wMsg (wWr 0x100000000) 1, 0, wWr 0x100000000, ((wWr 0x100000000 : InPacket).pkt.reqVa),
      ((wWr 0x100000000 : InPacket).pkt.reqBytes),
      (match ((wMsg (wWr 0x100000000) 1).writePayload (feltCtx 0) (wWr 0x100000000).pkt.reqVa ((wWr 0x100000000).pkt.data (wWr 0x100000000).pkt.reqBytes) (wWr 0x100000000).pkt.poison).1 with | .fault z _ _ => z | _ => 0),
      (match ((wMsg (wWr 0x100000000) 1).writePayload (feltCtx 0) (wWr 0x100000000).pkt.reqVa ((wWr 0x100000000).pkt.data (wWr 0x100000000).pkt.reqBytes) (wWr 0x100000000).pkt.poison).1 with | .fault _ z _ => z | _ => 0),
      (match ((wMsg (wWr 0x100000000) 1).writePayload (feltCtx 0) (wWr 0x100000000).pkt.reqVa ((wWr 0x100000000).pkt.data (wWr 0x100000000).pkt.reqBytes) (wWr 0x100000000).pkt.poison).1 with | .fault _ _ z => z | _ => 0),
      ((wMsg (wWr 0x100000000) 1).writePayload (feltCtx 0) (wWr 0x100000000).pkt.reqVa ((wWr 0x100000000).pkt.data (wWr 0x100000000).pkt.reqBytes) (wWr 0x100000000).pkt.poison).2,
      by decide +kernel, by decide +kernel, by decide +kernel, by decide +kernel, rfl, rfl, by decide +kernel⟩,
    ⟨wMsg (wRd (2 ^ 42)) 1, 0, wRd (2 ^ 42), ((wRd (2 ^ 42) : InPacket).pkt.reqVa), ((wRd (2 ^ 42) : InPacket).pkt.reqBytes),
      by decide +kernel, by decide +kernel, by decide +kernel, by decide +kernel, rfl, rfl, by decide +kernel⟩,
    ⟨wMsg (wRd 0x1000) 1, 0, wRd 0x1000, ((wRd 0x1000 : InPacket).pkt.reqVa), ((wRd 0x1000 : InPacket).pkt.reqBytes),
      (match (dmaGather (feltCtx 0) [((wRd 0x1000).pkt.reqVa,
      (wRd 0x1000).pkt.reqBytes)] [] none (wMsg (wRd 0x1000) 1)).1 with | .ok z _ => z | _ => []),
      (dmaGather (feltCtx 0) [((wRd 0x1000).pkt.reqVa, (wRd 0x1000).pkt.reqBytes)] [] none (wMsg (wRd 0x1000) 1)).2,
      by decide +kernel, by decide +kernel, by decide +kernel, by decide +kernel, rfl, rfl, by decide +kernel⟩,
    ⟨wMap (wFelt 0 4 wUp), 0, wFc 0 256 (2 ^ 40), ((wMap (wFelt 0 4 wUp)).taken 0 (wFc 0 256 (2 ^ 40))),
      ((((wMap (wFelt 0 4 wUp)).taken 0 (wFc 0 256 (2 ^ 40))) : Cmd).field 10 2), by unfold State.serves State.up; decide +kernel,
      by decide +kernel, rfl, rfl, by decide +kernel⟩,
    ⟨wMsgF (wIn 2 7 [0x0211]) 1 wCopies, 0, wIn 2 7 [0x0211], 7, ((wIn 2 7 [0x0211] : InPacket).pkt.flit 0 % 256),
      (bitsOf ((wIn 2 7 [0x0211] : InPacket).pkt.flit 0) 8 8), wFcopy, wMsgs.getD 1 { tid := 0, off := 0, size := 0 },
      by decide +kernel, by decide +kernel, by decide +kernel, rfl, rfl, by decide +kernel⟩,
    ⟨wMsgF (wIn 3 7 [0, 5]) 1 wCopies, 0, wIn 3 7 [0, 5], 7, ((wIn 3 7 [0, 5] : InPacket).pkt.flit 0 % 256), (bitsOf ((wIn 3 7 [0,
      5] : InPacket).pkt.flit 0) 8 8), wFcopy, wMsgs.getD 1 { tid := 0, off := 0, size := 0 }, by decide +kernel,
      by decide +kernel, by decide +kernel, rfl, rfl, by decide +kernel, by decide +kernel, by decide +kernel, rfl⟩⟩

/-- Values that meet the premises of `Obligations.FeltMessagesAct`. -/
theorem witness_FeltMessagesAct_2 :
    (∃ (s : State) (e : InPacket) (tid : Nat) (st : Nat) (kind : Nat) (x : FeltCopy) (m : CopyMsg), s.inReset = false ∧
      s.felt.copies.find? (fun x => x.flight.any (fun m => decide (m.tid = tid) && !m.answered)) = some x ∧
      x.flight.find? (fun m => decide (m.tid = tid) && !m.answered) = some m ∧ st = e.pkt.flit 0 % 256 ∧
      kind = bitsOf (e.pkt.flit 0) 8 8 ∧ tid < 2 ^ 12) ∧
    (∃ (s : State) (p : Fin 4) (e : InPacket) (r : Reassembly), s.inReset = false ∧ s.idling = false ∧ e.outs = [] ∧
      s.arrived p.val 4 = some e ∧ r = { src := e.pkt.src, test := bitsOf (e.pkt.flit 0) 0 16, round := bitsOf (e.pkt.flit 0) 16 16, kind := bitsOf (e.pkt.flit 0) 32 8, check := bitsOf (e.pkt.flit 1) 0 32, parts := bitsOf (e.pkt.flit 0) 52 12 + 1, got := [(bitsOf (e.pkt.flit 0) 40 12, e.pkt.flits.drop 2)] } ∧
      s.felt.reassembly.any r.sameBody = false ∧ s.felt.reassembly.length < 8 ∧ r.parts ≠ 1 ∧
      bitsOf (e.pkt.flit 0) 40 12 < r.parts ∧ (∀ x ∈ s.felt.reassembly, x.got.length ≠ x.parts)) ∧
    (∃ (s : State) (p : Fin 4) (e : InPacket) (r : Reassembly), ∃ x, s.inReset = false ∧ s.idling = false ∧ e.outs = [] ∧
      s.arrived p.val 4 = some e ∧ r = { src := e.pkt.src, test := bitsOf (e.pkt.flit 0) 0 16, round := bitsOf (e.pkt.flit 0) 16 16, kind := bitsOf (e.pkt.flit 0) 32 8, check := bitsOf (e.pkt.flit 1) 0 32, parts := bitsOf (e.pkt.flit 0) 52 12 + 1, got := [(bitsOf (e.pkt.flit 0) 40 12, e.pkt.flits.drop 2)] } ∧
      s.felt.reassembly = [x] ∧ r.sameBody x = true ∧ SMap.find x.got (bitsOf (e.pkt.flit 0) 40 12) = none ∧
      bitsOf (e.pkt.flit 0) 40 12 < x.parts ∧
      (SMap.put x.got (bitsOf (e.pkt.flit 0) 40 12) (e.pkt.flits.drop 2)).length ≠ x.parts) ∧
    (∃ (s : State) (p : Fin 4) (e : InPacket) (r : Reassembly), s.inReset = false ∧ s.idling = false ∧ e.outs = [] ∧
      s.arrived p.val 4 = some e ∧ r = { src := e.pkt.src, test := bitsOf (e.pkt.flit 0) 0 16, round := bitsOf (e.pkt.flit 0) 16 16, kind := bitsOf (e.pkt.flit 0) 32 8, check := bitsOf (e.pkt.flit 1) 0 32, parts := bitsOf (e.pkt.flit 0) 52 12 + 1, got := [(bitsOf (e.pkt.flit 0) 40 12, e.pkt.flits.drop 2)] } ∧
      s.felt.reassembly.any r.sameBody = false ∧ bitsOf (e.pkt.flit 0) 40 12 < r.parts ∧ 8 ≤ s.felt.reassembly.length) ∧
    (∃ (s : State) (p : Fin 4) (e : InPacket) (r : Reassembly), s.inReset = false ∧ s.idling = false ∧ e.outs = [] ∧
      s.arrived p.val 4 = some e ∧ r = { src := e.pkt.src, test := bitsOf (e.pkt.flit 0) 0 16, round := bitsOf (e.pkt.flit 0) 16 16, kind := bitsOf (e.pkt.flit 0) 32 8, check := bitsOf (e.pkt.flit 1) 0 32, parts := bitsOf (e.pkt.flit 0) 52 12 + 1, got := [(bitsOf (e.pkt.flit 0) 40 12, e.pkt.flits.drop 2)] } ∧
      s.felt.reassembly = [] ∧ r.parts = 1 ∧ bitsOf (e.pkt.flit 0) 40 12 = 0 ∧ r.kind = 0 ∧ s.popFind r.test = none) ∧
    (∃ (s : State) (k : Fin 8) (r : Reassembly), s.inReset = false ∧ s.felt.reassembly[k.val]? = some r ∧ r.got.length ≠ r.parts) ∧
    (∃ (s : State) (p : Fin 4) (e : InPacket) (key : Nat), s.inReset = false ∧ s.arrived p.val 7 = some e ∧
      key = s.linkKey (e.pkt.flit 0 % 2 ^ 16) (bitsOf (e.pkt.flit 0) 16 2)) :=
  ⟨⟨wMsgF (wIn 3 7 [0, 5]) 1 wCopies, wIn 3 7 [0, 5], 7, ((wIn 3 7 [0, 5] : InPacket).pkt.flit 0 % 256), (bitsOf ((wIn 3 7 [0,
      5] : InPacket).pkt.flit 0) 8 8), wFcopy, wMsgs.getD 1 { tid := 0, off := 0, size := 0 }, by decide +kernel,
      by decide +kernel, by decide +kernel, rfl, rfl, by decide +kernel⟩,
    ⟨wMsgF (wRed 1 2) 1 { reassembly := [] }, 0, wRed 1 2, wBody 1 2 [(1, [77])], by decide +kernel, by decide +kernel,
      by decide +kernel, by decide +kernel, rfl, by decide +kernel⟩,
    ⟨wMsgF (wRed 0 3) 1 { reassembly := [wBody 1 3 [(1, [8])]] }, 0, wRed 0 3, wBody 1 3 [(0, [77])], wBody 1 3 [(1, [8])],
      by decide +kernel, by decide +kernel, by decide +kernel, by decide +kernel, rfl, by decide +kernel⟩,
    ⟨wMsgF (wRed 0 1) 1 { reassembly := (List.range 8).map (fun k => wBody (k + 2) 2 [(1, [])]) }, 0, wRed 0 1, wBody 1 1 [(0,
      [77])], by decide +kernel, by decide +kernel, by decide +kernel, by decide +kernel, rfl, by decide +kernel⟩,
    ⟨wMsgF (wRed 0 1) 1 {}, 0, wRed 0 1, wBody 1 1 [(0, [77])], by decide +kernel, by decide +kernel, by decide +kernel,
      by decide +kernel, rfl, by decide +kernel⟩,
    ⟨wMsgF (wRed 0 1) 1 { reassembly := [wBody 2 1 [(0, [])], wBody 1 3 [(1, [])]] }, 1, wBody 1 3 [(1, [])], by decide +kernel⟩,
    ⟨wMsgF (wIn 7 0 [2 ^ 18 + 2 ^ 32 * 8]) 1 { links := [(0, (7, true))] }, 0, wIn 7 0 [2 ^ 18 + 2 ^ 32 * 8],
      ((wMsgF (wIn 7 0 [2 ^ 18 + 2 ^ 32 * 8]) 1 { links := [(0, (7, true))] } : State).linkKey ((wIn 7 0 [2 ^ 18 + 2 ^ 32 * 8] : InPacket).pkt.flit 0 % 2 ^ 16) (bitsOf ((wIn 7 0 [2 ^ 18 + 2 ^ 32 * 8] : InPacket).pkt.flit 0) 16 2)),
      by decide +kernel, by decide +kernel, rfl⟩⟩

/-- Values that meet the premises of `Obligations.StartsAreScheduled`. -/
theorem witness_StartsAreScheduled :
    (∃ (s : State) (q : BitVec 8) (e : Entry) (c : Cmd) (id : Nat) (T : Nat), ∃ k, s.serves q e ∧ c = s.taken q.toNat e ∧
      c.target = 0 ∧ firstFailing (s.feltChecks []) = none ∧ id = c.field 8 2 ∧ T = c.field 24 4 * 2 ^ 64 + c.field 16 8 ∧
      Entry.opcode e = 0xA1 ∧ c.reservedSet [(8, 2), (16, 8), (24, 4)] = false ∧
      (s.fld Reg.FELT_STATUS_SYNC_STATE = 0 ∨ s.fld Reg.FELT_STATUS_SYNC_STATE = 3) ∧ s.absNow + 10 ^ 9 ≤ T ∧
      T ≤ s.absNow + 60 * 10 ^ 12 ∧ (∀ x ∈ s.felt.starts, x.2.id ≠ id) ∧
      (List.range 8).find? (fun k => (SMap.find s.felt.starts k).isNone) = some k) ∧
    (∃ (s : State) (q : BitVec 8) (e : Entry) (c : Cmd) (id : Nat) (T : Nat), s.serves q e ∧ c = s.taken q.toNat e ∧
      c.target = 0 ∧ firstFailing (s.feltChecks []) = none ∧ id = c.field 8 2 ∧ T = c.field 24 4 * 2 ^ 64 + c.field 16 8 ∧
      Entry.opcode e = 0xA2 ∧ c.reservedSet [(8, 2)] = false) ∧
    (∃ (s : State) (q : BitVec 8) (e : Entry) (c : Cmd) (id : Nat) (T : Nat), s.serves q e ∧ c = s.taken q.toNat e ∧
      c.target = 0 ∧ firstFailing (s.feltChecks []) = none ∧ id = c.field 8 2 ∧ T = c.field 24 4 * 2 ^ 64 + c.field 16 8 ∧
      Entry.opcode e = 0xA3 ∧ c.reservedSet [(16, 8), (24, 4)] = false ∧ s.isTimeRoot = true ∧ s.felt.starts = []) ∧
    (∃ (s : State) (k : Fin 16) (a : StartAsk), s.inReset = false ∧ s.felt.asks[k.val]? = some a ∧ a.cmd.epoch = s.hi.epoch) ∧
    (∃ (s : State) (p : Fin 4) (e : InPacket) (id : Nat), ∃ k, s.inReset = false ∧ e.pkt.src ≠ everyNode ∧
      id = e.pkt.flit 0 % 2 ^ 16 ∧ s.arrived p.val 5 = some e ∧ (∀ x ∈ s.felt.starts, x.2.id ≠ id) ∧
      (List.range 8).find? (fun k => (SMap.find s.felt.starts k).isNone) = some k) ∧
    (∃ (s : State) (p : Fin 4) (e : InPacket) (id : Nat), s.inReset = false ∧ e.pkt.src ≠ everyNode ∧ id = e.pkt.flit 0 % 2 ^ 16 ∧
      s.arrived p.val 5 = some e ∧ (∀ x ∈ s.felt.starts, x.2.id ≠ id) ∧
      (List.range 8).find? (fun k => (SMap.find s.felt.starts k).isNone) = none) ∧
    (∃ (s : State) (p : Fin 4) (e : InPacket) (id : Nat), ∃ k x, s.inReset = false ∧ e.pkt.src ≠ everyNode ∧
      id = e.pkt.flit 0 % 2 ^ 16 ∧ s.arrived p.val 8 = some e ∧ s.felt.starts.find? (fun x => decide (x.2.id = id)) = some (k,
      x) ∧ s.absNow + 10000000 ≤ x.time ∧ s.boundTo k = []) ∧
    (∃ (s : State) (p : Fin 4) (e : InPacket) (id : Nat), s.inReset = false ∧ e.pkt.src ≠ everyNode ∧ id = e.pkt.flit 0 % 2 ^ 16 ∧
      s.arrived p.val 8 = some e ∧ s.felt.starts.find? (fun x => decide (x.2.id = id)) = none) :=
  ⟨⟨wStarts [(0, { id := 4, time := 5 * 10 ^ 9 })] [], 0, wSched 9 (10 ^ 9), ((wStarts [(0, { id := 4, time := 5 * 10 ^ 9 })] []).taken 0 (wSched 9 (10 ^ 9))),
      ((((wStarts [(0, { id := 4, time := 5 * 10 ^ 9 })] []).taken 0 (wSched 9 (10 ^ 9))) : Cmd).field 8 2), ((((wStarts [(0,
      { id := 4, time := 5 * 10 ^ 9 })] []).taken 0 (wSched 9 (10 ^ 9))) : Cmd).field 24 4 * 2 ^ 64 + (((wStarts [(0, { id := 4, time := 5 * 10 ^ 9 })] []).taken 0 (wSched 9 (10 ^ 9))) : Cmd).field 16 8),
      1, by unfold State.serves State.up; decide +kernel, rfl, by decide +kernel, by decide +kernel, rfl, rfl, by decide +kernel⟩,
    ⟨wStarts [(5, { id := 4, time := 10000000 })] [], 0, wCan 4, ((wStarts [(5, { id := 4, time := 10000000 })] []).taken 0 (wCan 4)),
      ((((wStarts [(5, { id := 4, time := 10000000 })] []).taken 0 (wCan 4)) : Cmd).field 8 2), ((((wStarts [(5, { id := 4, time := 10000000 })] []).taken 0 (wCan 4)) : Cmd).field 24 4 * 2 ^ 64 + (((wStarts [(5,
      { id := 4, time := 10000000 })] []).taken 0 (wCan 4)) : Cmd).field 16 8), by unfold State.serves State.up; decide +kernel,
      rfl, by decide +kernel, by decide +kernel, rfl, rfl, by decide +kernel⟩,
    ⟨(wStarts [] []).setFld Reg.FELT_CFG_TIME_ROOT 0, 0, wTset,
      (((wStarts [] []).setFld Reg.FELT_CFG_TIME_ROOT 0).taken 0 (wTset)),
      (((((wStarts [] []).setFld Reg.FELT_CFG_TIME_ROOT 0).taken 0 (wTset)) : Cmd).field 8 2),
      (((((wStarts [] []).setFld Reg.FELT_CFG_TIME_ROOT 0).taken 0 (wTset)) : Cmd).field 24 4 * 2 ^ 64 + ((((wStarts [] []).setFld Reg.FELT_CFG_TIME_ROOT 0).taken 0 (wTset)) : Cmd).field 16 8),
      by unfold State.serves State.up; decide +kernel, rfl, by decide +kernel, by decide +kernel, rfl, rfl, by decide +kernel⟩,
    ⟨wStarts [] [wAsk true], 0, wAsk true, by decide +kernel⟩,
    ⟨wMsgS (wIn 5 0 [9, 2 ^ 64 - 1, 3]) [(0, { id := 4, time := 5 * 10 ^ 9 })] [], 0, wIn 5 0 [9, 2 ^ 64 - 1, 3], ((wIn 5 0 [9,
      2 ^ 64 - 1, 3] : InPacket).pkt.flit 0 % 2 ^ 16), 1, by decide +kernel, by decide +kernel, rfl, by decide +kernel⟩,
    ⟨wMsgS (wIn 5 0 [9, 2 ^ 64 - 1, 3]) wEight [], 0, wIn 5 0 [9, 2 ^ 64 - 1, 3], ((wIn 5 0 [9, 2 ^ 64 - 1,
      3] : InPacket).pkt.flit 0 % 2 ^ 16), by decide +kernel, by decide +kernel, rfl, by decide +kernel⟩,
    ⟨wMsgS (wIn 8 0 [7]) wEight [], 0, wIn 8 0 [7], ((wIn 8 0 [7] : InPacket).pkt.flit 0 % 2 ^ 16), 7, ({ id := 7, time := 10 ^ 10 } : Start),
      by decide +kernel, by decide +kernel, rfl, by decide +kernel⟩,
    ⟨wMsgS (wIn 8 0 [8]) wEight [], 0, wIn 8 0 [8], ((wIn 8 0 [8] : InPacket).pkt.flit 0 % 2 ^ 16), by decide +kernel,
      by decide +kernel, rfl, by decide +kernel⟩⟩

/-- Values that meet the premises of `Obligations.StartsAreScheduled`. -/
theorem witness_StartsAreScheduled_2 :
    (∃ (s : State) (p : Fin 4) (e : InPacket) (id : Nat), ∃ a n, s.inReset = false ∧ e.pkt.src ≠ everyNode ∧
      id = e.pkt.flit 0 % 2 ^ 16 ∧ s.arrived p.val 6 = some e ∧
      s.felt.asks.find? (fun a => decide (a.id = id) && !a.answered.contains e.pkt.src) = some a ∧ n ∈ s.nodes ∧ n ≠ e.pkt.src ∧
      a.answered.contains n = false ∧ s.reachable n = true) ∧
    (∃ (s : State) (k : Fin 8), ∃ b g, s.inReset = false ∧ s.startWithin k.val 2000000 = true ∧ s.boundTo k.val = [b] ∧
      s.program b = some g ∧ g.fillsDue ≠ []) ∧
    (∃ (s : State) (k : Fin 8), ∃ x, s.inReset = false ∧ SMap.find s.felt.starts k.val = some x ∧ x.time ≤ s.absNow + 5000000) ∧
    (∃ (s : State) (k : Fin 8), ∃ x b g, s.inReset = false ∧ SMap.find s.felt.starts k.val = some x ∧ x.time ≤ s.absNow ∧
      s.program b = some g ∧ g.scheduled = true ∧ g.bound = some k.val ∧ (∀ j ∈ s.boundTo k.val, ∀ c ∈ s.groupClusters j,
      s.flag (Reg.CLK_STATUS_RELOCKING c) = false)) ∧
    (∃ (s : State) (k : Fin 8), ∃ x b c, s.inReset = false ∧ SMap.find s.felt.starts k.val = some x ∧ x.time ≤ s.absNow ∧
      s.boundTo k.val = [b] ∧ c ∈ s.groupClusters b ∧ s.flag (Reg.CLK_STATUS_RELOCKING c) = true) :=
  ⟨⟨wMsgS (wIn 6 0 [9 + 2 ^ 16 * 2]) [] [wAsk false], 0, wIn 6 0 [9 + 2 ^ 16 * 2],
      ((wIn 6 0 [9 + 2 ^ 16 * 2] : InPacket).pkt.flit 0 % 2 ^ 16), wAsk false, 256, by decide +kernel, by decide +kernel, rfl,
      by decide +kernel⟩,
    ⟨wBound 2000000, 3, 0, wBoundG, by decide +kernel⟩,
    ⟨wBound 5000000, 3, ({ id := 9, time := 5000000 } : Start), by decide +kernel⟩,
    ⟨wBound 0, 3, ({ id := 9, time := 0 } : Start), 0, wBoundG, by decide +kernel⟩,
    ⟨(wBound 0).setFlag (Reg.CLK_STATUS_RELOCKING 0) true, 3, ({ id := 9, time := 0 } : Start), 0, 0, by decide +kernel⟩⟩


/-! ### Flash and cell port -/

/-- The flash directory of a part, and a device with it. -/
def wDir : Directory :=
  { bytes := [], fwOffset := 0x100000, fwLength := 4096, certOffset := 0x200000, certLength := 100, bankA := 0x10000, bankB := 0x20000
    bankSize := 65536, sectorLog2 := 12, pageLog2 := 8, dual := true, continuous := true, onDqs := true }
def wSer (x : Serial) : State := { w0 with ser := { x with dir := some wDir } }
def wFr (e : Nat) (c : Bool) : FlashFrame := { addr := 0x10000, erase := e, data := [1, 2, 3], check := c }
def wJob (a : FlashAim) (l : List FlashFrame) : FlashJob :=
  { aim := a, started := true, plan := wFr 4096 false :: l, frames := l, asks := [{ cmd := ⟨3, wEnt [(0, 1, 0x81)], 0⟩, status := 0, result := 9 }] }
/-- A frame of the cell port with its CRC and edge count. -/
def wCf (h a : Nat) (d : List (BitVec 16)) : CellFrame :=
  let f : CellFrame := { header := BitVec.ofNat 16 h, addr := BitVec.ofNat 16 a, data := d, crc := 0, edges := 0, repeats := [] }
  { f with crc := BitVec.ofNat 16 (crc16 (wordBytes (cellRequest f))), edges := BitVec.ofNat 16 (cellEdges f) }
/-- A site captured, the cell port on and expecting ALIVE 5. -/
def wCellS (lost : Bool) : State :=
  let s := (((wSite.setFlag Reg.CP_CTRL_ENABLE true).setFld Reg.CP_STATUS_NEXT_ALIVE 5).setFld Reg.CP_CTRL_ALIVE_TIMEOUT 9).setFlag Reg.CP_STATUS_LOST lost
  { s with ser := { s.ser with anyAlive := lost, timed := true, flags := 3 } }

/-- Values that meet the premises of `Obligations.FlashActs`. -/
theorem witness_FlashActs :
    (∃ (s : State) (line : BitVec 26), s.inReset = false ∧ line.toNat ∈ s.ser.lines) ∧
    (∃ (s : State) (line : BitVec 26), s.inReset = false ∧ line.toNat ∉ s.ser.lines ∧ s.ser.reading = [] ∧ s.flashBusy = false ∧
      s.ser.dir ≠ none ∧ ((∀ d v, s.ser.dir = some d → s.ser.cont = some v → v = d.device line.toNat))) ∧
    (∃ (s : State) (line : BitVec 26), s.inReset = false ∧ line.toNat ∉ s.ser.lines ∧ (s.ser.reading ≠ [] ∨ s.flashBusy = true)) ∧
    (∃ (s : State), ∃ k l, s.inReset = false ∧ s.ser.reading = k :: l ∧ s.ser.wanted = none ∧
      ((s.flashBusy = false ∨ l ≠ [] ∨ s.ser.cont = none))) ∧
    (∃ (s : State), ∃ d, s.inReset = false ∧ s.ser.dir = some d ∧ s.ser.reading ≠ [] ∧ d.onDqs = true ∧
      s.flag Reg.FL_STATUS_FALLBACK = false) ∧
    (∃ (s : State), ∃ d bank i, s.inReset = false ∧ s.ser.dir = some d ∧ s.ser.jobs = [] ∧
      bank = (if s.fld Reg.STORE_STATUS_ACTIVE = 1 then 2 else 1) ∧ (i = Instr.storeWrite ∨ i = Instr.usageLogWrite) ∧
      20 + s.payload.length ≤ d.bankSize ∧ s.flag Reg.STORE_STATUS_LAYOUT_ERR = false) ∧
    (∃ (s : State), ∃ d bank i, s.inReset = false ∧ s.ser.dir = some d ∧ s.ser.jobs = [] ∧
      bank = (if s.fld Reg.STORE_STATUS_ACTIVE = 1 then 2 else 1) ∧ (i = Instr.storeWrite ∨ i = Instr.usageLogWrite) ∧
      d.bankSize < 20 + s.payload.length) ∧
    (∃ (s : State), s.inReset = false) :=
  ⟨⟨wSer { lines := [1, 67108863] }, 67108863, by decide +kernel⟩,
    ⟨wSer { lines := [1] }, 2, by decide +kernel, by decide +kernel, by decide +kernel, by decide +kernel, by decide +kernel,
      by intro d v _ h; cases h⟩,
    ⟨wSer { lines := [1], reading := [5, 6] }, 2, by decide +kernel⟩,
    ⟨wSer { lines := [1, 2, 3, 4, 5, 6, 7, 8], reading := [5, 6], cont := some 0 }, 5, [6], by decide +kernel⟩,
    ⟨wSer { reading := [5], retried := true }, wDir, by decide +kernel⟩,
    ⟨wSer {}, wDir, 1, .storeWrite, by decide +kernel⟩,
    ⟨{ wSer {} with ser := { dir := some { wDir with bankSize := 300 } } }, { wDir with bankSize := 300 }, 1, .storeWrite,
      by decide +kernel⟩,
    ⟨wSer { jobs := [wJob (.store 1 2 3) [wFr 0 true]] }, by decide +kernel⟩⟩

/-- Values that meet the premises of `Obligations.FlashActs`. -/
theorem witness_FlashActs_2 :
    (∃ (s : State), ∃ j f l, s.inReset = false ∧ s.ser.jobs = [j] ∧ j.frames = f :: l ∧ s.ser.reading = [] ∧ s.ser.wanted = none ∧
      l ≠ [] ∧ f.check = false) ∧
    (∃ (s : State), ∃ j f l bank seq n, s.inReset = false ∧ s.ser.jobs = [j] ∧ j.frames = f :: l ∧ s.ser.reading = [] ∧
      s.ser.wanted = none ∧ l = [] ∧ j.bad = false ∧ j.aim = .store bank seq n ∧ bank < 4 ∧ seq < 2 ^ 32) ∧
    (∃ (s : State), ∃ j f l bank seq n, s.inReset = false ∧ s.ser.jobs = [j] ∧ j.frames = f :: l ∧ s.ser.reading = [] ∧
      s.ser.wanted = none ∧ j.aim = .store bank seq n) :=
  ⟨⟨wSer { jobs := [wJob (.store 1 2 3) [wFr 0 false, wFr 0 true]] }, wJob (.store 1 2 3) [wFr 0 false, wFr 0 true], wFr 0 false,
      [wFr 0 true], by decide +kernel⟩,
    ⟨wSer { jobs := [wJob (.store 1 2 3) [wFr 0 true]] }, wJob (.store 1 2 3) [wFr 0 true], wFr 0 true, ([] : List FlashFrame), 1,
      2, 3, by decide +kernel, by decide +kernel, by decide +kernel, by decide +kernel, by decide +kernel, rfl, by decide +kernel⟩,
    ⟨wSer { jobs := [wJob (.store 2 7 3) [wFr 0 true, wFr 0 true]] }, wJob (.store 2 7 3) [wFr 0 true, wFr 0 true], wFr 0 true,
      [wFr 0 true], 2, 7, 3, by decide +kernel⟩⟩

/-- Values that meet the premises of `Obligations.CellPortAnswers`. -/
theorem witness_CellPortAnswers :
    (∃ (s : State), s.cellUp = false) ∧
    (∃ (s : State) (f : CellFrame), s.inReset = false ∧ s.cellUp = true ∧ s.cellErrors f ≠ 0) ∧
    (∃ (s : State) (f : CellFrame), s.inReset = false ∧ s.cellUp = true ∧ s.cellErrors f = 0 ∧ cellOp f = 0) ∧
    (∃ (s : State) (f : CellFrame), ∃ status, s.inReset = false ∧ s.cellUp = true ∧ s.cellErrors f = 0 ∧ cellOp f = 1 ∧
      cellCount f ≠ 0 ∧ f.repeats = [] ∧
      status = s.ser.flags + 256 * s.fld Reg.CP_STATUS_LOST + 4096 * s.fld Reg.CP_STATUS_NEXT_ALIVE) ∧
    (∃ (s : State) (f : CellFrame), s.inReset = false ∧ s.cellUp = true ∧ s.cellErrors f = 0 ∧ cellOp f = 2 ∧ cellCount f ≠ 0 ∧
      0x400 ≤ f.addr.toNat ∧ f.addr.toNat + cellCount f ≤ 0x420 ∧ bitOf s.fuse.oem.protMap 14 = false) ∧
    (∃ (s : State) (f : CellFrame), s.inReset = false ∧ s.cellUp = true ∧ s.cellErrors f = 0 ∧ cellOp f = 2 ∧ cellCount f ≠ 0 ∧
      ((∀ b, cellBlock f.addr.toNat = some b → b.1 ≠ 0x400))) ∧
    (∃ (s : State), s.inReset = false ∧ s.ser.timed = true ∧ s.fld Reg.CP_CTRL_ALIVE_TIMEOUT ≠ 0 ∧
      s.flag Reg.CP_STATUS_LOST = false) :=
  ⟨⟨wSite.setFlag Reg.CP_CTRL_ENABLE false, by decide +kernel⟩,
    ⟨wCellS false, wCf 0x0600 0 [], by decide +kernel⟩,
    ⟨wCellS false, wCf 0x0500 0 [], by decide +kernel⟩,
    ⟨wCellS false, wCf 0x1502 6 [],
      ((wCellS false : State).ser.flags + 256 * (wCellS false : State).fld Reg.CP_STATUS_LOST + 4096 * (wCellS false : State).fld Reg.CP_STATUS_NEXT_ALIVE),
      by decide +kernel, by decide +kernel, by decide +kernel, by decide +kernel, by decide +kernel, by decide +kernel, rfl⟩,
    ⟨wCellS false, wCf 0x2501 0x400 [32], by decide +kernel⟩,
    ⟨wCellS false, wCf 0x2501 0x300 [32], by decide +kernel⟩,
    ⟨wCellS false, by decide +kernel⟩⟩


/-! ### Security -/

/-- A device with its memory mapped, bytes in it, a directory and a running image; a command with an address and a length. -/
def wSecM (m : SMap Byte) : State :=
  let s := wMap (wSer {})
  { s with mem := { s.mem with cells := m }, sec := { s.sec with running := some { offset := 0x100000, length := 4096, svn := 1, digest := [], altOffset := 0x180000, areaSize := 65536 } } }
def wSecE (op va n : Nat) : Entry := wEnt [(0, 1, op), (16, 8, va), (24, 4, n)]
def wImg : SMap Byte :=
  wCells [(0x2000, 4, 0x505A5645), (0x2004, 2, 1), (0x2008, 4, 2), (0x2014, 4, 4096), (0x2018, 4, 256), (0x201C, 2, 1), (0x2100, 8, 0x4000), (0x2108, 4, 1),
    (0x3000, 4, 7), (0x4000, 4, 0x535A5645), (0x4004, 2, 1), (0x4006, 1, 1), (0x4008, 4, 1)]
def wAtt (cert va ca : Nat) : Entry := wEnt [(0, 1, 0x93), (8, 1, cert), (16, 8, va), (24, 8, ca), (32, 8, 77)]
def wSum (va n : Nat) : Entry := wEnt [(0, 1, 0x94), (16, 8, va), (24, 4, n), (32, 8, 77)]

/-- The bytes that an access has read. -/
def wGot (r : Acc × State) : List Byte := (accGot r).getD []
/-- A management command taken from the ring of channel 0; what it reads or writes in device memory. -/
def wMgRead (s : State) (e : Entry) (n : Nat) : Acc × State := (s.undispatch (s.taken 0 e)).memRead { engine := 9, unit := 0 } ((s.taken 0 e).field 16 8) n
def wMgWrite (s : State) (e : Entry) (d : List Byte) : Acc × State := (s.undispatch (s.taken 0 e)).memWrite { engine := 9, unit := 0 } ((s.taken 0 e).field 16 8) d false
def wS7 : State := wSecM wImg
def wE7 : Entry := wSecE 0x95 0x2000 0
def wR7 : Acc × State := wMgRead wS7 wE7 256
def wH7 : Header := headerOf ((wGot wR7).take 56)
def wT7 : Acc × State := wR7.2.memRead { engine := 9, unit := 0 } ((wS7.taken 0 wE7).field 16 8 + wH7.segTable) (16 * wH7.segCount)
def wG7 : Sum (List (Nat × Nat)) Acc × State := wT7.2.segmentRuns ((segmentsOf wH7.segCount ((wGot wT7).map some)).filterMap (Option.map Prod.fst)) []
def wRs7 : List (Nat × Nat) := (runsGot wG7).getD []
def wM7 : Acc × State := wG7.2.readRuns (((wS7.taken 0 wE7).field 16 8, wH7.codeOffset + 32 * wH7.wordCount) :: wRs7) []
def wRep (e : Entry) : List Byte := (wSecM []).report (((wSecM []).taken 0 e).field 32 32)
def wSgn (m : List Byte) : List Byte := m ++ (wSecM []).watermarkSign m
def wSumm (e : Entry) : List Byte := (wSecM []).summary (((wSecM []).taken 0 e).field 8 4) (((wSecM []).taken 0 e).field 32 32)

/-- Values that meet the premises of `Obligations.SecurityCommandsAct`. -/
theorem witness_SecurityCommandsAct :
    (∃ (s : State) (q : BitVec 8) (e : Entry) (c : Cmd) (va : Nat), s.serves q e ∧ c = s.taken q.toNat e ∧ c.target = 0 ∧
      va = c.field 16 8 ∧ s.power.shutdown = false ∧ Entry.opcode e = 0x97 ∧ c.reservedSet [(16, 8)] = false ∧
      s.secAddrBad va = false ∧ s.burned.isSealed = true) ∧
    (∃ (s : State) (q : BitVec 8) (e : Entry) (c : Cmd) (va : Nat), ∃ d u, s.serves q e ∧ c = s.taken q.toNat e ∧ c.target = 0 ∧
      va = c.field 16 8 ∧ s.power.shutdown = false ∧ Entry.opcode e = 0x97 ∧ c.reservedSet [(16, 8)] = false ∧
      s.secAddrBad va = false ∧ s.burned.isSealed = false ∧ (s.undispatch c).memRead { engine := 9, unit := 0 } va 128 = (.ok d none,
      u)) ∧
    (∃ (s : State) (q : BitVec 8) (e : Entry) (c : Cmd) (va : Nat), ∃ img u x r, s.serves q e ∧ c = s.taken q.toNat e ∧
      c.target = 0 ∧ va = c.field 16 8 ∧ s.power.shutdown = false ∧ Entry.opcode e = 0x96 ∧ c.reservedSet [(16, 12)] = false ∧
      s.secAddrBad va = false ∧ (s.undispatch c).memRead { engine := 9, unit := 0 } va (c.field 24 4) = (.ok img none, u) ∧
      s.ser.dir = some x ∧ s.sec.running = some r ∧ s.updateRefused x r img = true) ∧
    (∃ (s : State) (q : BitVec 8) (e : Entry) (c : Cmd) (va : Nat), ∃ d u, s.serves q e ∧ c = s.taken q.toNat e ∧ c.target = 0 ∧
      va = c.field 16 8 ∧ s.power.shutdown = false ∧ Entry.opcode e = 0x98 ∧ c.reservedSet [(16, 12)] = false ∧
      s.secAddrBad va = false ∧ (s.undispatch c).memRead { engine := 9, unit := 0 } va (c.field 24 4) = (.ok d none, u) ∧
      s.oemRefused d = true) ∧
    (∃ (s : State) (q : BitVec 8) (e : Entry) (c : Cmd) (va : Nat), ∃ d u, s.serves q e ∧ c = s.taken q.toNat e ∧ c.target = 0 ∧
      va = c.field 16 8 ∧ s.power.shutdown = false ∧ Entry.opcode e = 0x98 ∧ c.reservedSet [(16, 12)] = false ∧
      s.secAddrBad va = false ∧ (s.undispatch c).memRead { engine := 9, unit := 0 } va (c.field 24 4) = (.ok d none, u) ∧
      s.oemRefused d = false) ∧
    (∃ (s : State) (q : BitVec 8) (e : Entry) (c : Cmd) (va : Nat), ∃ d u, s.serves q e ∧ c = s.taken q.toNat e ∧ c.target = 0 ∧
      va = c.field 16 8 ∧ s.power.shutdown = false ∧ Entry.opcode e = 0x95 ∧ c.reservedSet [(16, 8)] = false ∧
      s.secAddrBad va = false ∧ va % 4096 = 0 ∧ firstFailing (s.unitChecks [watermarkUnit]) = none ∧
      (s.undispatch c).memRead { engine := 9, unit := 0 } va 256 = (.ok d none, u) ∧ headerBad (d.take 56) 8 64 = true) ∧
    (∃ (s : State) (q : BitVec 8) (e : Entry) (c : Cmd) (va : Nat), ∃ d l rs m u v w z h, s.serves q e ∧ c = s.taken q.toNat e ∧
      c.target = 0 ∧ va = c.field 16 8 ∧ s.power.shutdown = false ∧ Entry.opcode e = 0x95 ∧ c.reservedSet [(16, 8)] = false ∧
      s.secAddrBad va = false ∧ va % 4096 = 0 ∧ firstFailing (s.unitChecks [watermarkUnit]) = none ∧
      (s.undispatch c).memRead { engine := 9, unit := 0 } va 256 = (.ok d none, u) ∧ headerBad (d.take 56) 8 64 = false ∧
      h = headerOf (d.take 56) ∧ u.memRead { engine := 9, unit := 0 } (va + h.segTable) (16 * h.segCount) = (.ok l none, v) ∧
      (segmentsOf h.segCount (l.map some)).any (fun x => x.any Prod.snd) = false ∧
      v.segmentRuns ((segmentsOf h.segCount (l.map some)).filterMap (Option.map Prod.fst)) [] = (.inl rs, w) ∧ w.readRuns ((va,
      h.codeOffset + 32 * h.wordCount) :: rs) [] = (.ok m none, z)) ∧
    (∃ (s : State) (q : BitVec 8) (e : Entry) (c : Cmd) (va : Nat), ∃ cert ca u v m x, s.serves q e ∧ c = s.taken q.toNat e ∧
      c.target = 0 ∧ va = c.field 16 8 ∧ s.power.shutdown = false ∧ Entry.opcode e = 0x93 ∧ cert = c.field 8 1 ∧ cert ≤ 1 ∧
      ca = c.field 24 8 ∧ c.reservedSet ([(8, 1), (16, 8), (32, 32)] ++ if cert = 1 then [(24, 8)] else []) = false ∧
      s.secAddrBad va = false ∧ ((cert = 1 → s.secAddrBad ca = false)) ∧ firstFailing (s.unitChecks [watermarkUnit]) = none ∧
      m = s.report (c.field 32 32) ∧
      x = (if cert = 1 then (match s.ser.dir with | some d => s.flashBytes d.certOffset d.certLength | none => []) else []) ∧
      (s.undispatch c).memWrite { engine := 9, unit := 0 } va (m ++ s.watermarkSign m) false = (.ok [] none, u) ∧
      u.memWrite { engine := 9, unit := 0 } ca x false = (.ok [] none, v)) :=
  ⟨⟨{ wSecM [] with burned := { w0.burned with isSealed := true } }, 0, wSecE 0x97 0x1000 0,
      (({ wSecM [] with burned := { w0.burned with isSealed := true } }).taken 0 (wSecE 0x97 0x1000 0)),
      (({ wSecM [] with burned := { w0.burned with isSealed := true } }).taken 0 (wSecE 0x97 0x1000 0)).field 16 8,
      by unfold State.serves State.up; decide +kernel, rfl, by decide +kernel, rfl, by decide +kernel⟩,
    ⟨wSecM (wCells [(0x1000, 1, 5), (0x1042, 1, 1)]), 0, wSecE 0x97 0x1000 0, ((wSecM (wCells [(0x1000, 1, 5), (0x1042, 1,
      1)])).taken 0 (wSecE 0x97 0x1000 0)), ((wSecM (wCells [(0x1000, 1, 5), (0x1042, 1,
      1)])).taken 0 (wSecE 0x97 0x1000 0)).field 16 8, wGot (wMgRead (wSecM (wCells [(0x1000, 1, 5), (0x1042, 1,
      1)])) (wSecE 0x97 0x1000 0) (128)), (wMgRead (wSecM (wCells [(0x1000, 1, 5), (0x1042, 1,
      1)])) (wSecE 0x97 0x1000 0) (128)).2, by unfold State.serves State.up; decide +kernel, rfl, by decide +kernel, rfl,
      by decide +kernel⟩,
    ⟨wSecM [], 0, wSecE 0x96 0x1000 64, ((wSecM []).taken 0 (wSecE 0x96 0x1000 64)),
      ((wSecM []).taken 0 (wSecE 0x96 0x1000 64)).field 16 8, wGot (wMgRead (wSecM []) (wSecE 0x96 0x1000 64) (64)),
      (wMgRead (wSecM []) (wSecE 0x96 0x1000 64) (64)).2, wDir, ({ offset := 0x100000, length := 4096, svn := 1, digest := [], altOffset := 0x180000, areaSize := 65536 } : FwImage),
      by unfold State.serves State.up; decide +kernel, rfl, by decide +kernel, rfl, by decide +kernel⟩,
    ⟨wSecM (wCells [(0x1004, 1, 1), (0x100C, 1, 5)]), 0, wSecE 0x98 0x1000 24, ((wSecM (wCells [(0x1004, 1, 1), (0x100C, 1,
      5)])).taken 0 (wSecE 0x98 0x1000 24)), ((wSecM (wCells [(0x1004, 1, 1), (0x100C, 1,
      5)])).taken 0 (wSecE 0x98 0x1000 24)).field 16 8, wGot (wMgRead (wSecM (wCells [(0x1004, 1, 1), (0x100C, 1,
      5)])) (wSecE 0x98 0x1000 24) (24)), (wMgRead (wSecM (wCells [(0x1004, 1, 1), (0x100C, 1,
      5)])) (wSecE 0x98 0x1000 24) (24)).2, by unfold State.serves State.up; decide +kernel, rfl, by decide +kernel, rfl,
      by decide +kernel⟩,
    ⟨wSecM (wCells [(0x1000, 1, 9), (0x1004, 1, 1), (0x100C, 1, 8)]), 0, wSecE 0x98 0x1000 24, ((wSecM (wCells [(0x1000, 1, 9),
      (0x1004, 1, 1), (0x100C, 1, 8)])).taken 0 (wSecE 0x98 0x1000 24)), ((wSecM (wCells [(0x1000, 1, 9), (0x1004, 1, 1), (0x100C,
      1, 8)])).taken 0 (wSecE 0x98 0x1000 24)).field 16 8, wGot (wMgRead (wSecM (wCells [(0x1000, 1, 9), (0x1004, 1, 1), (0x100C,
      1, 8)])) (wSecE 0x98 0x1000 24) (24)), (wMgRead (wSecM (wCells [(0x1000, 1, 9), (0x1004, 1, 1), (0x100C, 1,
      8)])) (wSecE 0x98 0x1000 24) (24)).2, by unfold State.serves State.up; decide +kernel, rfl, by decide +kernel, rfl,
      by decide +kernel⟩,
    ⟨wSecM [], 0, wSecE 0x95 0x2000 0, ((wSecM []).taken 0 (wSecE 0x95 0x2000 0)),
      ((wSecM []).taken 0 (wSecE 0x95 0x2000 0)).field 16 8, wGot (wMgRead (wSecM []) (wSecE 0x95 0x2000 0) (256)),
      (wMgRead (wSecM []) (wSecE 0x95 0x2000 0) (256)).2, by unfold State.serves State.up; decide +kernel, rfl, by decide +kernel,
      rfl, by decide +kernel⟩,
    ⟨wS7, 0, wE7, ((wS7).taken 0 (wE7)), ((wS7).taken 0 (wE7)).field 16 8, wGot wR7, wGot wT7, wRs7, wGot wM7, wR7.2, wT7.2,
      wG7.2, wM7.2, wH7, by unfold State.serves State.up; decide +kernel, rfl, by decide +kernel, rfl, by decide +kernel,
      by decide +kernel, by decide +kernel, by decide +kernel, by decide +kernel, by decide +kernel, acc_of (by decide +kernel),
      by decide +kernel, rfl, acc_of (by decide +kernel), by decide +kernel, runs_of (by decide +kernel),
      acc_of (by decide +kernel)⟩,
    ⟨wSecM [], 0, wAtt 0 0x1000 0, ((wSecM []).taken 0 (wAtt 0 0x1000 0)), ((wSecM []).taken 0 (wAtt 0 0x1000 0)).field 16 8, 0,
      0, (wMgWrite (wSecM []) (wAtt 0 0x1000 0) (wSgn (wRep (wAtt 0 0x1000 0)))).2,
      (((wMgWrite (wSecM []) (wAtt 0 0x1000 0) (wSgn (wRep (wAtt 0 0x1000 0)))).2).memWrite { engine := 9, unit := 0 } 0 ([] : List Byte) false).2,
      wRep (wAtt 0 0x1000 0), ([] : List Byte), by unfold State.serves State.up; decide +kernel, rfl, by decide +kernel, rfl,
      by decide +kernel, by decide +kernel, by decide +kernel, by decide +kernel, by decide +kernel, by decide +kernel,
      by decide +kernel, by decide +kernel, by decide +kernel, rfl, rfl, nil_of (by decide +kernel), nil_of (by decide +kernel)⟩⟩

/-- Values that meet the premises of `Obligations.SecurityCommandsAct`. -/
theorem witness_SecurityCommandsAct_2 :
    (∃ (s : State) (q : BitVec 8) (e : Entry) (c : Cmd) (va : Nat), ∃ m, s.serves q e ∧ c = s.taken q.toNat e ∧ c.target = 0 ∧
      va = c.field 16 8 ∧ s.power.shutdown = false ∧ Entry.opcode e = 0x94 ∧ c.reservedSet [(8, 4), (16, 12), (32, 32)] = false ∧
      s.secAddrBad va = false ∧ firstFailing (s.unitChecks [watermarkUnit]) = none ∧ m = s.summary (c.field 8 4) (c.field 32 32) ∧
      c.field 24 4 < m.length + 3309) ∧
    (∃ (s : State) (q : BitVec 8) (e : Entry) (c : Cmd) (va : Nat), ∃ u m, s.serves q e ∧ c = s.taken q.toNat e ∧ c.target = 0 ∧
      va = c.field 16 8 ∧ s.power.shutdown = false ∧ Entry.opcode e = 0x94 ∧ c.reservedSet [(8, 4), (16, 12), (32, 32)] = false ∧
      s.secAddrBad va = false ∧ firstFailing (s.unitChecks [watermarkUnit]) = none ∧ m = s.summary (c.field 8 4) (c.field 32 32) ∧
      m.length + 3309 ≤ c.field 24 4 ∧ (s.undispatch c).memWrite { engine := 9, unit := 0 } va (m ++ s.watermarkSign m) false = (.ok [] none,
      u)) :=
  ⟨⟨wSecM [], 0, wSum 0x1000 100, ((wSecM []).taken 0 (wSum 0x1000 100)), ((wSecM []).taken 0 (wSum 0x1000 100)).field 16 8,
      wSumm (wSum 0x1000 100), by unfold State.serves State.up; decide +kernel, rfl, by decide +kernel, rfl, by decide +kernel,
      by decide +kernel, by decide +kernel, by decide +kernel, by decide +kernel, rfl, by decide +kernel⟩,
    ⟨wSecM [], 0, wSum 0x1000 100000, ((wSecM []).taken 0 (wSum 0x1000 100000)),
      ((wSecM []).taken 0 (wSum 0x1000 100000)).field 16 8,
      (wMgWrite (wSecM []) (wSum 0x1000 100000) (wSgn (wSumm (wSum 0x1000 100000)))).2, wSumm (wSum 0x1000 100000),
      by unfold State.serves State.up; decide +kernel, rfl, by decide +kernel, rfl, by decide +kernel, by decide +kernel,
      by decide +kernel, by decide +kernel, by decide +kernel, rfl, by decide +kernel, nil_of (by decide +kernel)⟩⟩


/-! ### Calibration -/

def wCr (k : Fin 7) (u : BitVec 16) (w : List (BitVec 32)) : CalRecord := { kind := k, unit := u, words := w }
def wCo (l : List CalRecord) : CalOutcome := { records := l, clamps := BitVec.allOnes 33, level1 := 3 }
/-- The words of a record of 22 pairs at unity, of which the first and the timing terms differ. -/
def wPinWords (g : BitVec 32) : List (BitVec 32) := g :: 5 :: (List.range 21).flatMap (fun _ => [0x40000000, 0]) ++ [7, 9]
def wCalRun (k f : Nat) : Entry := wEnt [(0, 1, 0x80), (2, 2, 0), (8, 1, k), (9, 1, f), (16, 8, 5)]
def wCalRunOf (c : Nat) : CalRun :=
  { cmd := ⟨3, wEnt [(0, 1, 0x80), (2, 2, c), (8, 1, 3), (16, 8, 5)], 0⟩, cluster := c, records := [], clamps := 0, level1 := 0, preempt := false, store := false, left := [0, 1] }
def wCalE (op va n : Nat) : Entry := wEnt [(0, 1, op), (16, 8, va), (24, 4, n)]
/-- A calibration body of one record of TMU channel 3, its first gain given, and memory that holds it at 0x1000. -/
def wCalBody (count gain : Nat) : SMap Byte :=
  wCells [(0x1000, 4, count), (0x1004, 2, 0x190), (0x1008, 8, 77), (0x1010, 1, 2), (0x1012, 2, 3), (0x1014, 2, 24), (0x1018, 4, gain), (0x101C, 4, 9), (0x1020, 4, 0x40000000)]
def wCalMem (m : SMap Byte) : State := let s := wMap w0; { s with mem := { s.mem with cells := m } }
def wCalRd (m : SMap Byte) (n : Nat) : Acc × State := (wCalMem m).memRead { engine := 9, unit := 0 } (((wCalMem m).taken 0 (wCalE 0x82 0x1000 n)).field 16 8)
    (((wCalMem m).taken 0 (wCalE 0x82 0x1000 n)).field 24 4)
/-- What a CAL_LOAD of that body finds. -/
def wCalB (m : SMap Byte) (n : Nat) : Nat × Nat × List (Nat × Nat × List Nat) × List Byte × Nat :=
  (calBodyOf ((accGot (wCalRd m n)).getD [])).getD (0, 0, [], [], 0)
theorem wCalB_some (m : SMap Byte) (n : Nat) (h : (calBodyOf ((accGot (wCalRd m n)).getD [])).isSome = true) :
    calBodyOf ((accGot (wCalRd m n)).getD []) =
      some ((wCalB m n).1, (wCalB m n).2.1, (wCalB m n).2.2.1, (wCalB m n).2.2.2.1, (wCalB m n).2.2.2.2) := by
  unfold wCalB
  exact some5_of h
def wTrack (b : Bool) (uv : BitVec 32) : Tracking := { words := [], felt := [], ratios := b, residUv := uv, residPs := -3 }
def wCalSt (b t : Nat) (x : SMap Nat) : State := { w0 with cals := { w0.cals with work := [(calKey 2 3 0, b)], target := (calKey 2 3 0, t) :: x } }

/-- Values that meet the premises of `Obligations.CalibrationRuns`. -/
theorem witness_CalibrationRuns :
    (∃ (s : State) (q : BitVec 8) (e : Entry) (c : Cmd), s.serves q e ∧ Entry.opcode e = 0x80 ∧ c = s.taken q.toNat e ∧
      c.reservedSet [(8, 2), (16, 8)] = false ∧ c.target < 32 ∧ 0 < c.field 8 1 ∧ c.field 8 1 < 32 ∧ c.field 9 1 ≤ 1 ∧
      firstFailing (s.unitChecks [c.target]) = none ∧ s.cals.runs = [] ∧ s.cals.loads = []) ∧
    (∃ (s : State) (c : Fin 32) (r : CalRun), s.inReset = false ∧ s.cals.runs = [r] ∧ r.cluster = c.val ∧ r.cmd.field 16 8 ≠ 0) ∧
    (∃ (s : State) (q : BitVec 8) (e : Entry) (c : Cmd), s.serves q e ∧ c = s.taken q.toNat e ∧ c.target = 0 ∧
      s.calDenied = false ∧ s.power.shutdown = false ∧ Entry.opcode e = 0x81 ∧ c.reservedSet [] = false) ∧
    (∃ (s : State) (q : BitVec 8) (e : Entry) (c : Cmd), ∃ d u, s.serves q e ∧ c = s.taken q.toNat e ∧ c.target = 0 ∧
      s.calDenied = false ∧ s.power.shutdown = false ∧ Entry.opcode e = 0x82 ∧ c.reservedSet [(16, 12)] = false ∧
      c.field 16 8 < 2 ^ 48 ∧ c.field 16 8 % 8 = 0 ∧ s.memRead { engine := 9, unit := 0 } (c.field 16 8) (c.field 24 4) = (.ok d none,
      u) ∧ calBodyOf d = none) ∧
    (∃ (s : State) (q : BitVec 8) (e : Entry) (c : Cmd), ∃ d u temp time l x k, s.serves q e ∧ c = s.taken q.toNat e ∧
      c.target = 0 ∧ s.calDenied = false ∧ s.power.shutdown = false ∧ Entry.opcode e = 0x82 ∧ c.reservedSet [(16, 12)] = false ∧
      c.field 16 8 < 2 ^ 48 ∧ c.field 16 8 % 8 = 0 ∧ s.memRead { engine := 9, unit := 0 } (c.field 16 8) (c.field 24 4) = (.ok d none,
      u) ∧ calBodyOf d = some (temp, time, l, x, k) ∧ l.all (fun y => wordsPass y.1 y.2.2) = false) ∧
    (∃ (s : State) (q : BitVec 8) (e : Entry) (c : Cmd), ∃ d u temp time l x k, s.serves q e ∧ c = s.taken q.toNat e ∧
      c.target = 0 ∧ s.calDenied = false ∧ s.power.shutdown = false ∧ Entry.opcode e = 0x82 ∧ c.reservedSet [(16, 12)] = false ∧
      c.field 16 8 < 2 ^ 48 ∧ c.field 16 8 % 8 = 0 ∧ s.memRead { engine := 9, unit := 0 } (c.field 16 8) (c.field 24 4) = (.ok d none,
      u) ∧ calBodyOf d = some (temp, time, l, x, k) ∧ l.all (fun y => wordsPass y.1 y.2.2) = true ∧ s.programs = [] ∧
      s.cals.runs = [] ∧ s.cals.loads = [] ∧ ((∀ y ∈ l, ∀ n, calCluster y.1 y.2.1 = some n → s.present n = true))) :=
  ⟨⟨w0, 0, wCalRun 2 0, ((w0).taken 0 (wCalRun 2 0)), by unfold State.serves State.up; decide +kernel, by decide +kernel, rfl,
      by decide +kernel⟩,
    ⟨{ w0 with cals := { w0.cals with runs := [wCalRunOf 0] } }, 0, wCalRunOf 0, by decide +kernel⟩,
    ⟨w0, 0, wEnt [(0, 1, 0x81)], ((w0).taken 0 (wEnt [(0, 1, 0x81)])), by unfold State.serves State.up; decide +kernel, rfl,
      by decide +kernel⟩,
    ⟨wCalMem (wCalBody 2 0x40000000), 0, wCalE 0x82 0x1000 40, ((wCalMem (wCalBody 2 0x40000000)).taken 0 (wCalE 0x82 0x1000 40)),
      (accGot (wCalRd (wCalBody 2 0x40000000) 40)).getD [], (wCalRd (wCalBody 2 0x40000000) 40).2,
      by unfold State.serves State.up; decide +kernel, rfl, by decide +kernel, by decide +kernel, by decide +kernel,
      by decide +kernel, by decide +kernel, by decide +kernel, by decide +kernel,
      acc_of (x := wCalRd (wCalBody 2 0x40000000) 40) (by decide +kernel), by decide +kernel⟩,
    ⟨wCalMem (wCalBody 1 0x80000000), 0, wCalE 0x82 0x1000 40, ((wCalMem (wCalBody 1 0x80000000)).taken 0 (wCalE 0x82 0x1000 40)),
      (accGot (wCalRd (wCalBody 1 0x80000000) 40)).getD [], (wCalRd (wCalBody 1 0x80000000) 40).2,
      (wCalB (wCalBody 1 0x80000000) 40).1, (wCalB (wCalBody 1 0x80000000) 40).2.1, (wCalB (wCalBody 1 0x80000000) 40).2.2.1,
      (wCalB (wCalBody 1 0x80000000) 40).2.2.2.1, (wCalB (wCalBody 1 0x80000000) 40).2.2.2.2,
      by unfold State.serves State.up; decide +kernel, rfl, by decide +kernel, by decide +kernel, by decide +kernel,
      by decide +kernel, by decide +kernel, by decide +kernel, by decide +kernel,
      acc_of (x := wCalRd (wCalBody 1 0x80000000) 40) (by decide +kernel), wCalB_some _ _ (by decide +kernel), by decide +kernel⟩,
    ⟨wCalMem (wCalBody 1 0x40000000), 0, wCalE 0x82 0x1000 40, ((wCalMem (wCalBody 1 0x40000000)).taken 0 (wCalE 0x82 0x1000 40)),
      (accGot (wCalRd (wCalBody 1 0x40000000) 40)).getD [], (wCalRd (wCalBody 1 0x40000000) 40).2,
      (wCalB (wCalBody 1 0x40000000) 40).1, (wCalB (wCalBody 1 0x40000000) 40).2.1, (wCalB (wCalBody 1 0x40000000) 40).2.2.1,
      (wCalB (wCalBody 1 0x40000000) 40).2.2.2.1, (wCalB (wCalBody 1 0x40000000) 40).2.2.2.2,
      by unfold State.serves State.up; decide +kernel, rfl, by decide +kernel, by decide +kernel, by decide +kernel,
      by decide +kernel, by decide +kernel, by decide +kernel, by decide +kernel,
      acc_of (x := wCalRd (wCalBody 1 0x40000000) 40) (by decide +kernel), wCalB_some _ _ (by decide +kernel), by decide +kernel⟩⟩

/-- Values that meet the premises of `Obligations.CalibrationFollows`. -/
theorem witness_CalibrationFollows :
    (∃ (s : State) (c : Fin 32), s.inReset = false ∧ s.fld (Reg.CAL_CTRL_TRACK_EN c.val) ≠ 0 ∧ s.clusterPowered c.val = true) ∧
    (∃ (s : State) (kind : Fin 7) (unit : BitVec 16) (j : Fin 23), s.inReset = false ∧ calUnitOk kind.val unit.toNat = true ∧
      j.val < calPairs kind.val + (calTerms kind.val).1 ∧ s.frozenUnit kind.val unit.toNat = false ∧
      s.unitMeasures kind.val unit.toNat = false ∧ ((∀ c,
      calCluster kind.val unit.toNat = some c → s.blockOff (Reg.clB c) = false ∧ s.flag (Reg.CLK_STATUS_RELOCKING c) = false))) ∧
    (∃ (s : State) (c : Fin 32), s.inReset = false ∧ s.clusterPowered c.val = true ∧
      s.fld (Reg.LAST_TRACK c.val) + 10 ^ 12 ≤ s.now) :=
  ⟨⟨w0.setFld (Reg.CAL_CTRL_TRACK_EN 0) 1, 0, by decide +kernel⟩,
    ⟨wCalSt 0x40000000 0x40000005 [], 2, 3, 0, by decide +kernel⟩,
    ⟨w0.setFld Reg.CELL_TIME (10 ^ 12), 0, by decide +kernel⟩⟩


/-! ### Units -/

def wBring (ok : Bool) (p : BitVec 16) (t : Bool) : BringUp := { ok := ok, pairs := p, cal := wCo [], level2 := 0, track := wTrack t 0 }
def wDown (u : Nat) : State := w0.setFlag (Reg.UNIT_READY u) false
def wRest (u : Nat) : State := { wDown u with units := { w0.units with restarting := [3, u] } }
def wUnits (op dir m : Nat) : Entry := wEnt [(0, 1, op), (8, 1, dir), (16, 16, m)]
def wGone : State := w0.setFlag (Reg.UNIT_PRESENT 111) false
def wRetire (op m p l : Nat) : Entry := wEnt [(0, 1, op), (16, 16, m), (32, 2, p), (34, 1, l)]
def wRet (m p l : Nat) : State := { w0 with units := { w0.units with retired := m, pairs := p, lanes := l } }
def wOffUnit : State := ((w0.setFlag (Reg.UNIT_OFF 111) true).setFlag (Reg.UNIT_READY 111) false)

/-- Values that meet the premises of `Obligations.UnitsStartAndStop`. -/
theorem witness_UnitsStartAndStop :
    (∃ (s : State) (u : Fin 112), s.inReset = false ∧ s.flag Reg.SEC_STATUS_BOOTED = true ∧ s.power.shutdown = false ∧
      s.unitOn u.val = true ∧ s.ready u.val = false ∧ s.flag (Reg.UNIT_FAILED u.val) = false ∧ u.val ∉ s.units.restarting ∧
      u.val ∉ s.power.asleep ∧ 32 ≤ u.val ∧ u.val ≠ memUnit ∧ ((u.val < 96 → s.ready ((u.val - 32) / 2) = true))) ∧
    (∃ (s : State) (u : Fin 112) (r : BringUp), s.inReset = false ∧ s.flag Reg.SEC_STATUS_BOOTED = true ∧
      s.power.shutdown = false ∧ s.unitOn u.val = true ∧ s.ready u.val = false ∧ s.flag (Reg.UNIT_FAILED u.val) = false ∧
      u.val ∉ s.units.restarting ∧ u.val ∉ s.power.asleep ∧ u.val = memUnit ∧ r.ok = true ∧
      minusMask r.pairs.toNat s.units.pairs ≠ 0) ∧
    (∃ (s : State) (u : Fin 112), s.inReset = false ∧ s.flag Reg.SEC_STATUS_BOOTED = true ∧ s.power.shutdown = false ∧
      s.unitOn u.val = true ∧ s.ready u.val = false ∧ s.flag (Reg.UNIT_FAILED u.val) = false ∧ u.val ∉ s.units.restarting ∧
      u.val ∉ s.power.asleep ∧ u.val < 32 ∧ s.groupTurn u.val = true) ∧
    (∃ (s : State) (u : Fin 112),
      (s.flag Reg.SEC_STATUS_BOOTED = false ∨ s.power.shutdown = true ∨ s.unitOn u.val = false ∨ s.ready u.val = true ∨ u.val ∈ s.units.restarting ∨ u.val ∈ s.power.asleep)) ∧
    (∃ (s : State) (u : Fin 112) (r : BringUp), s.inReset = false ∧ s.power.shutdown = false ∧ u.val ∈ s.units.restarting ∧
      s.units.restarting.Nodup ∧ s.unitOn u.val = true ∧ r.ok = true ∧ 32 ≤ u.val ∧
      ((u.val < 96 → s.ready ((u.val - 32) / 2) = true))) ∧
    (∃ (s : State) (q : BitVec 8) (e : Entry) (c : Cmd), s.serves q e ∧ c = s.taken q.toNat e ∧ c.target = 0 ∧ c.maskUnits ≠ [] ∧
      (∀ u ∈ c.maskUnits, u < 112) ∧ c.reservedSet [(8, 1), (16, 16)] = false ∧ s.power.shutdown = false ∧ Entry.opcode e = 0x99 ∧
      c.reservedSet [(16, 16)] = false ∧ (∀ u ∈ c.maskUnits, s.present u = true)) ∧
    (∃ (s : State) (q : BitVec 8) (e : Entry) (c : Cmd), s.serves q e ∧ c = s.taken q.toNat e ∧ c.target = 0 ∧ c.maskUnits ≠ [] ∧
      (∀ u ∈ c.maskUnits, u < 112) ∧ c.reservedSet [(8, 1), (16, 16)] = false ∧ s.power.shutdown = false ∧ Entry.opcode e = 0x99 ∧
      c.reservedSet [(16, 16)] = false ∧ (∃ u ∈ c.maskUnits, s.present u = false)) ∧
    (∃ (s : State) (q : BitVec 8) (e : Entry) (c : Cmd), s.serves q e ∧ c = s.taken q.toNat e ∧ c.target = 0 ∧ c.maskUnits ≠ [] ∧
      (∀ u ∈ c.maskUnits, u < 112) ∧ c.reservedSet [(8, 1), (16, 16)] = false ∧ s.power.shutdown = false ∧ Entry.opcode e = 0x9A ∧
      Entry.field e 8 1 = 0 ∧ c.field 8 1 = 0 ∧ (∀ u ∈ c.maskUnits, s.present u = true)) :=
  ⟨⟨wDown 111, 111, by decide +kernel⟩,
    ⟨{ wDown 96 with units := { w0.units with pairs := 1 } }, 96, wBring true 0xFFFF true, by decide +kernel⟩,
    ⟨wDown 31, 31, by decide +kernel⟩,
    ⟨w0, 3, by decide +kernel⟩,
    ⟨wRest 111, 111, wBring true 0 true, by decide +kernel⟩,
    ⟨w0, 0, wUnits 0x99 0 (2 ^ 111), ((w0).taken 0 (wUnits 0x99 0 (2 ^ 111))), by unfold State.serves State.up; decide +kernel,
      rfl, by decide +kernel⟩,
    ⟨wGone, 0, wUnits 0x99 0 (2 ^ 111 + 1), ((wGone).taken 0 (wUnits 0x99 0 (2 ^ 111 + 1))),
      by unfold State.serves State.up; decide +kernel, rfl, by decide +kernel⟩,
    ⟨w0, 0, wUnits 0x9A 0 (2 ^ 96), ((w0).taken 0 (wUnits 0x9A 0 (2 ^ 96))), by unfold State.serves State.up; decide +kernel, rfl,
      by decide +kernel⟩⟩

/-- Values that meet the premises of `Obligations.UnitsStartAndStop`. -/
theorem witness_UnitsStartAndStop_2 :
    (∃ (s : State) (q : BitVec 8) (e : Entry) (c : Cmd), s.serves q e ∧ c = s.taken q.toNat e ∧ c.target = 0 ∧ c.maskUnits ≠ [] ∧
      (∀ u ∈ c.maskUnits, u < 112) ∧ c.reservedSet [(8, 1), (16, 16)] = false ∧ s.power.shutdown = false ∧ Entry.opcode e = 0x9A ∧
      Entry.field e 8 1 = 0 ∧ c.field 8 1 = 0 ∧ (∃ u ∈ c.maskUnits, s.present u = false)) ∧
    (∃ (s : State) (q : BitVec 8) (e : Entry) (c : Cmd), s.serves q e ∧ c = s.taken q.toNat e ∧ c.target = 0 ∧ c.maskUnits ≠ [] ∧
      (∀ u ∈ c.maskUnits, u < 112) ∧ c.reservedSet [(8, 1), (16, 16)] = false ∧ s.power.shutdown = false ∧ Entry.opcode e = 0x9A ∧
      Entry.field e 8 1 = c.field 8 1 ∧ 2 ≤ c.field 8 1) ∧
    (∃ (s : State) (q : BitVec 8) (e : Entry) (c : Cmd), s.serves q e ∧ c = s.taken q.toNat e ∧ c.target = 0 ∧ c.maskUnits ≠ [] ∧
      (∀ u ∈ c.maskUnits, u < 112) ∧ c.reservedSet [(8, 1), (16, 16)] = false ∧ s.power.shutdown = false ∧ Entry.opcode e = 0x9A ∧
      Entry.field e 8 1 = 1 ∧ (∀ u ∈ c.maskUnits, s.present u = true) ∧ (∀ a ∈ s.units.asks, a.cmd ≠ c)) ∧
    (∃ (s : State) (q : BitVec 8) (e : Entry) (c : Cmd) (pairs : Nat) (lanes : Nat), s.serves q e ∧ c = s.taken q.toNat e ∧
      c.target = 0 ∧ c.maskUnits ≠ [] ∧ c.reservedSet [(16, 19)] = false ∧ s.power.shutdown = false ∧ pairs = c.field 32 2 ∧
      lanes = c.field 34 1 ∧ Entry.opcode e = 0x9B ∧ (∀ u ∈ c.maskUnits, retirable u = true) ∧
      orMask s.units.pairs pairs ≠ 0xFFFF ∧ laneWidth (orMask s.units.lanes lanes) = true) ∧
    (∃ (s : State) (q : BitVec 8) (e : Entry) (c : Cmd) (pairs : Nat) (lanes : Nat), s.serves q e ∧ c = s.taken q.toNat e ∧
      c.target = 0 ∧ c.maskUnits ≠ [] ∧ c.reservedSet [(16, 19)] = false ∧ s.power.shutdown = false ∧ pairs = c.field 32 2 ∧
      lanes = c.field 34 1 ∧ Entry.opcode e = 0x9C ∧ ((∀ u ∈ c.maskUnits, u < 112 ∧ bitOf s.units.retired u = true)) ∧
      minusMask pairs s.units.pairs = 0 ∧ minusMask lanes s.units.lanes = 0) :=
  ⟨⟨wGone, 0, wUnits 0x9A 0 (2 ^ 111 + 1), ((wGone).taken 0 (wUnits 0x9A 0 (2 ^ 111 + 1))),
      by unfold State.serves State.up; decide +kernel, rfl, by decide +kernel⟩,
    ⟨w0, 0, wUnits 0x9A 2 1, ((w0).taken 0 (wUnits 0x9A 2 1)), by unfold State.serves State.up; decide +kernel, rfl,
      by decide +kernel⟩,
    ⟨w0, 0, wUnits 0x9A 1 (2 ^ 111), ((w0).taken 0 (wUnits 0x9A 1 (2 ^ 111))), by unfold State.serves State.up; decide +kernel,
      rfl, by decide +kernel⟩,
    ⟨w0, 0, wRetire 0x9B (2 ^ 31) 0x7FFF 0xF0, ((w0).taken 0 (wRetire 0x9B (2 ^ 31) 0x7FFF 0xF0)),
      ((w0).taken 0 (wRetire 0x9B (2 ^ 31) 0x7FFF 0xF0)).field 32 2,
      ((w0).taken 0 (wRetire 0x9B (2 ^ 31) 0x7FFF 0xF0)).field 34 1, by unfold State.serves State.up; decide +kernel, rfl,
      by decide +kernel, by decide +kernel, by decide +kernel, by decide +kernel, rfl, rfl, by decide +kernel⟩,
    ⟨wRet (2 ^ 31 + 2 ^ 63) 0xFFFE 0x0F, 0, wRetire 0x9C (2 ^ 63) 0xFFFE 0x0F,
      ((wRet (2 ^ 31 + 2 ^ 63) 0xFFFE 0x0F).taken 0 (wRetire 0x9C (2 ^ 63) 0xFFFE 0x0F)),
      ((wRet (2 ^ 31 + 2 ^ 63) 0xFFFE 0x0F).taken 0 (wRetire 0x9C (2 ^ 63) 0xFFFE 0x0F)).field 32 2,
      ((wRet (2 ^ 31 + 2 ^ 63) 0xFFFE 0x0F).taken 0 (wRetire 0x9C (2 ^ 63) 0xFFFE 0x0F)).field 34 1,
      by unfold State.serves State.up; decide +kernel, rfl, by decide +kernel, by decide +kernel, by decide +kernel,
      by decide +kernel, rfl, rfl, by decide +kernel⟩⟩


/-! ### Power -/

/-- An idle state of the power block. -/
def wIdle (k : Nat) (p : Power) : State := { w0.setFld Reg.PWR_STATUS_STATE k with power := p }
def wNextEv (hi lo : Nat) : Entry := wEnt [(0, 1, 0x90), (16, 8, lo), (24, 4, hi)]
def wUse (f va : Nat) : Entry := wEnt [(0, 1, 0x92), (8, 1, f), (16, 8, va)]
/-- A device quiet since 0, at cell time 10 s, that may enter any idle state before an event. -/
def wQuiet (p : Power) : State :=
  { ((w0.setFld Reg.CELL_TIME (10 ^ 13)).setFld Reg.PWR_CTRL_MAX_STATE 4) with power := { p with quietSince := some 0 } }
/-- Every temperature sensor suspect but sensor 5. -/
def wOneSensor (h : Bool) : State :=
  { (((w0.setQuad 0x5020 (BitVec.allOnes 64 - 32)).setQuad 0x5028 (2 ^ 40 - 1)).setFld Reg.THERM_CTRL_THROTTLE_T 105) with power := { hot := h, counted := [5, 99] } }
def wTemps (t : Nat) : List (BitVec 16) := List.replicate 104 (BitVec.ofNat 16 t)
def wDip (k : Nat) : State := { w0.setFld Reg.CELL_TIME (10 ^ 13) with power := { dips := [(7, 5)], logNext := k } }

/-- Values that meet the premises of `Obligations.IdleStates`. -/
theorem witness_IdleStates :
    (∃ (s : State) (q : BitVec 8) (e : Entry) (c : Cmd), s.serves q e ∧ c = s.taken q.toNat e ∧ c.target = 0 ∧
      s.power.shutdown = false ∧ Entry.opcode e = 0x90 ∧ c.reservedSet [(16, 12)] = false) ∧
    (∃ (s : State) (q : BitVec 8) (e : Entry) (c : Cmd), s.serves q e ∧ c = s.taken q.toNat e ∧ c.target = 0 ∧
      s.power.shutdown = false ∧ Entry.opcode e = 0x91 ∧ c.reservedSet [] = false) ∧
    (∃ (s : State) (q : BitVec 8) (e : Entry) (c : Cmd), ∃ d k u, s.serves q e ∧ c = s.taken q.toNat e ∧ c.target = 0 ∧
      s.power.shutdown = false ∧ Entry.opcode e = 0x92 ∧ c.reservedSet [(8, 1), (16, 8)] = false ∧ c.field 8 1 < 2 ∧
      c.field 16 8 < 2 ^ 48 ∧ c.field 16 8 % 8 = 0 ∧ s.memWrite { engine := 9, unit := 0 } (c.field 16 8) s.usageBody false = (.ok d k,
      u) ∧ k = none) ∧
    (∃ (s : State) (e : Entry), s.inReset = false ∧ s.idling = true ∧ Entry.opcode e = 0x91) ∧
    (∃ (s : State) (k : Nat), s.inReset = false ∧ s.showNextEvent.quiet = true ∧ s.quietLong = true ∧ s.idling = false ∧
      s.power.shutdown = false ∧ k = s.showNextEvent.chooseState) ∧
    (∃ (s : State) (k : Nat), s.inReset = false ∧ s.flag Reg.PWR_STATUS_ENTERING = true ∧ k = s.power.target ∧ k ≤ 4 ∧
      ((3 ≤ k → s.dpsOff = true)) ∧ ((k = 4 → s.storeBusy = false))) ∧
    (∃ (s : State), s.inReset = false ∧ s.idling = true ∧ (s.showNextEvent.exitDue = true ∨ s.lineWakes = true)) ∧
    (∃ (s : State), s.inReset = false ∧ s.flag Reg.PWR_STATUS_EXITING = true ∧ s.flag Reg.PWR_STATUS_ENTERING = false ∧
      ((s.fld Reg.PWR_STATUS_STATE = 4 → ∀ c < 32,
      s.present c = true → s.flag (Reg.UNIT_OFF c) = false → s.fld (Reg.CAL_CTRL_TRACK_EN c) ≠ 0 → c ∈ s.power.tracked))) :=
  ⟨⟨wQuiet {}, 0, wNextEv 0 (2 * 10 ^ 13), ((wQuiet {}).taken 0 (wNextEv 0 (2 * 10 ^ 13))),
      by unfold State.serves State.up; decide +kernel, rfl, by decide +kernel⟩,
    ⟨w0, 0, wEnt [(0, 1, 0x91)], ((w0).taken 0 (wEnt [(0, 1, 0x91)])), by unfold State.serves State.up; decide +kernel, rfl,
      by decide +kernel⟩,
    ⟨wMap w0, 0, wUse 0 0x1000, ((wMap w0).taken 0 (wUse 0 0x1000)), (match ((wMap w0).memWrite { engine := 9, unit := 0 } 0x1000 (wMap w0).usageBody false).1 with | .ok z _ => z | _ => []),
      none, ((wMap w0).memWrite { engine := 9, unit := 0 } 0x1000 (wMap w0).usageBody false).2,
      by unfold State.serves State.up; decide +kernel, rfl, by decide +kernel⟩,
    ⟨wIdle 1 {}, wEnt [(0, 1, 0x91)], by decide +kernel⟩,
    ⟨wQuiet {}, (wQuiet {}).showNextEvent.chooseState, by decide +kernel, by decide +kernel, by decide +kernel, by decide +kernel,
      by decide +kernel, rfl⟩,
    ⟨(wIdle 0 { target := 1 }).setFlag Reg.PWR_STATUS_ENTERING true, 1, by decide +kernel⟩,
    ⟨((wIdle 2 {}).setFlag (Reg.EV_LINE_ASSERTED 7) true).setFld Reg.PWR_CTRL_WAKE_EV 128, by decide +kernel⟩,
    ⟨((wIdle 3 { asleep := [0, 40, 111] }).setFld Reg.SEC_STATUS_BOOTED 1).setFlag Reg.PWR_STATUS_EXITING true, by decide +kernel,
      by decide +kernel, by decide +kernel, fun h => absurd h (by decide +kernel)⟩⟩

/-- Values that meet the premises of `Obligations.HeatAndSupply`. -/
theorem witness_HeatAndSupply :
    (∃ (s : State) (l : List (BitVec 16)), s.inReset = false ∧ (s.thermalSample l).1 = false) ∧
    (∃ (s : State) (l : List (BitVec 16)), s.inReset = false ∧ (s.thermalSample l).1 = true ∧ s.power.shutdown = false) ∧
    (∃ (s : State), s.inReset = false) ∧
    (∃ (s : State) (k : Fin 104), s.writable (0x5020 + 4 * (k.val / 32))) ∧
    (∃ (s : State) (r : Fin 8), s.inReset = false ∧ SMap.find s.power.dips r.val = none) ∧
    (∃ (s : State) (r : Fin 8) (b : Nat) (k : Nat) (ns : Nat), s.inReset = false ∧ SMap.find s.power.dips r.val = some b ∧
      k = s.power.logNext ∧ k < 4 ∧ ns = min (2 ^ 32 - 1) ((s.now - b) / 10000 * 10)) ∧
    (∃ (s : State) (c : Fin 32), s.inReset = false ∧ s.blockOff (Reg.clB c.val) = false) :=
  ⟨⟨wOneSensor false, wTemps 2000, by decide +kernel⟩,
    ⟨wOneSensor true, wTemps 2000, by decide +kernel⟩,
    ⟨wOneSensor false, by decide +kernel⟩,
    ⟨wOneSensor false, 0, by unfold State.writable; decide +kernel⟩,
    ⟨{ w0 with power := { dips := [(7, 5)] } }, 0, by decide +kernel⟩,
    ⟨wDip 0, 7, 5, 0, min (2 ^ 32 - 1) (((wDip 0).now - 5) / 10000 * 10), by decide +kernel, by decide +kernel, by decide +kernel,
      by decide +kernel, rfl⟩,
    ⟨w0.setFld Reg.AGE_WARN 100, 31, by decide +kernel⟩⟩


/-! ### Cluster temperature -/

/-- Sensors 5 and 99 of two that counted, and one valid sensor. -/
def wCool : State := (((wOneSensor false).setFld (tempFld 5) 100).setFld (tempFld 99) 300).setFlag (Reg.SUSPECT 99) false

/-- Values that meet the premises of `Obligations.ClusterTemperature`. -/
theorem witness_ClusterTemperature :
    (∃ (s : State) (c : Fin 32), ∃ k, k ∈ s.power.counted ∧ k < 96 ∧ k / 3 = c.val) ∧
    (∃ (s : State) (c : Fin 32), ((∃ k ∈ s.power.counted, k < 96 ∧ k / 3 = c.val))) ∧
    (∃ (s : State) (c : Fin 32), ((∀ k ∈ s.power.counted, ¬ (k < 96 ∧ k / 3 = c.val)))) ∧
    (∃ (s : State), ∃ k, k ∈ s.validSensors) ∧
    (∃ (s : State), s.validSensors ≠ []) ∧
    (∃ (s : State) (l : List (BitVec 16)), s.inReset = false ∧ (s.thermalSample l).1 = false) :=
  ⟨⟨wCool, 1, 5, by decide +kernel⟩,
    ⟨wCool, 1, by decide +kernel⟩,
    ⟨wCool, 0, by decide +kernel⟩,
    ⟨wCool, 99, by decide +kernel⟩,
    ⟨wCool, by decide +kernel⟩,
    ⟨wOneSensor false, wTemps 2000, by decide +kernel⟩⟩


/-! ### Events -/

/-- Source n has a count and is enabled for the host, its queue in host memory enabled where `q`. -/
def wEvSt (n c : Nat) (host q : Bool) : State :=
  let s := ((((((w0.setFld (Reg.SRC_STAT_COUNT n) c).setFlag (Reg.SRC_CFG_HOST_EN n) host).setFlag (Reg.SRC_CFG_EV_EN n) true).setFld (Reg.SRC_CFG_EV_LINE n) 7).setFlag
    (Reg.EV_LINE_OUT_EN 7) true).setFlag (Reg.HEQ_BASE_ENABLE 0) q).setFld (Reg.HEQ_BASE 0) 5 |>.setFld (Reg.HEQ_BASE_SIZE_LOG2 0) 4
  { s with applied := s.regs, hi := { s.hi with busMaster := true }, ev := { s.ev with latch := [(n, ⟨3, 5, 7⟩)], queues := [(0, { slot := 15 })] } }
def wLine (l : EvLine) : State := { w0 with ev := { w0.ev with lines := [(7, l)] } }

/-- Values that meet the premises of `Obligations.EventsAndLines`. -/
theorem witness_EventsAndLines :
    (∃ (s : State) (n : Fin 64) (h : Nat) (l : Option (Fin 64)) (late : Bool), s.inReset = false ∧
      h = s.fld (Reg.SRC_CFG_HEQ n.val) ∧ ((l = none ∧ late = false ∧ s.selectable n.val = true ∨ l = some n ∧ late = true ∧
      s.fld (Reg.SRC_STAT_COUNT n.val) ≠ 0 ∧ s.flag (Reg.SRC_CFG_HOST_EN n.val) = false)) ∧ (∀ m < n.val, s.selectable m = false)) ∧
    (∃ (s : State), s.inReset = false ∧ (∀ m < 64, s.selectable m = false)) ∧
    (∃ (s : State), s.inReset = false) :=
  ⟨⟨wEvSt 63 255 true true, 63, (wEvSt 63 255 true true).fld (Reg.SRC_CFG_HEQ 63), none, false, by decide +kernel, rfl,
      by decide +kernel⟩,
    ⟨wEvSt 37 0 true true, by decide +kernel⟩,
    ⟨w0, by decide +kernel⟩⟩


/-! ### Test port -/

/-- A device whose OEM opened debug. -/
def wDebug : State := { w0 with fuse := { w0.fuse with oem := { w0.fuse.oem with protMap := 2 ^ 15 } } }
/-- A DPS channel on: no scan may drive the balls. -/
def wDriven : State := w0.setFld (Reg.DPS_STATUS_STATE 63) 2

/-- Values that meet the premises of `Obligations.TestPortScans`. -/
theorem witness_TestPortScans :
    (∃ (s : State), s.fuse.deviceId < 65536) ∧
    (∃ (balls : List Bool), balls.length = boundaryLength) ∧
    (∃ (s : State) (balls : List Bool), balls.length = boundaryLength ∧ s.scanFree = true) ∧
    (∃ (s : State), ∃ i, ∃ (shift : List Bool), ∃ ir, ((∃ balls, i = Instr.extest shift balls ∧ s.scanFree = false ∧
      ir = 0xFF) ∨ i = .clamp shift ∧ ir = (if s.scanFree then 0x04 else 0xFF) ∨ i = .highz shift ∧
      ir = (if s.scanFree then 0x05 else 0xFF) ∨ (∃ code : BitVec 8, i = .bypass code shift ∧ ir = code.toNat ∧
      code.toNat ∉ [0x00, 0x01, 0x02, 0x04, 0x05, 0x20, 0x21]) ∨ (∃ d : BitVec 96, i = .debugAccess d ∧ s.debugNow = false ∧
      ir = 0xFF ∧ shift = bitsFrom d.toNat 96))) ∧
    (∃ (s : State), s.debugNow = true) :=
  ⟨⟨w0, by decide +kernel⟩,
    ⟨List.replicate boundaryLength true, by simp⟩,
    ⟨w0, List.replicate boundaryLength true, by simp, by decide +kernel⟩,
    ⟨wDriven, .extest [true] (List.replicate boundaryLength true), [true], 0xFF, .inl ⟨_, rfl, by decide +kernel, rfl⟩⟩,
    ⟨wDebug, by decide +kernel⟩⟩


/-! ### Resets and boot -/

/-- A device with work in it, under supply. -/
def wBusy : State :=
  { wMap w0 with mem := { (wMap w0).mem with cells := [(5, 7)] }, ev := { lines := [(6, { pulse := true }), (7, { outside := true })] }
                 power := { shutdown := true }, burned := { w0.burned with isSealed := true }, pending := [.boot] }
def wPerst : State := { wBusy with perst := true }
/-- Two copies of a flash directory: bytes 0 to 95 and the same number from 0x1000. -/
def wCopy (l : List (Nat × Nat × Nat)) : List Byte :=
  let d := (List.range 92).map (fun a => l.foldl (fun (b : Byte) f => if f.1 ≤ a ∧ a < f.1 + f.2.1 then BitVec.ofNat 8 (f.2.2 / 256 ^ (a - f.1)) else b) 0)
  d ++ leBytes (crc32c d) 4
def wCopies2 (a b : List Byte) : SMap Byte := a.mapIdx (fun i x => (i, x)) ++ b.mapIdx (fun i x => (0x1000 + i, x))
def wNone : List Byte := List.replicate 96 0
def wSome : List Byte := wCopy [(0, 4, 0x4C5A5645), (4, 2, 1), (24, 4, 0x100000)]
def wFlash (m : SMap Byte) : State := { State.reset with ser := { State.reset.ser with flash := m }, perst := false, internalReset := false }

/-- Values that meet the premises of `Obligations.ResetsAndBoot`. -/
theorem witness_ResetsAndBoot :
    (∃ (s : State) (t : State) (i : Instr), exec i s = .next t ∧ ((i = .perstAssert ∧ s.perst = false ∨ (∃ x, i = .perst x) ∧
      s.perst = false ∨ ((∃ r, i = .supplyReset r) ∨ i = .referenceLoss) ∧ s.perst = false))) ∧
    (∃ (s : State) (t : State) (i : Instr), ∃ a, exec i s = .next t ∧ ((i = .perstAssert ∧ s.perst = false ∨ (∃ x, i = .perst x) ∧
      s.perst = false ∨ ((∃ r, i = .supplyReset r) ∨ i = .referenceLoss) ∧ s.perst = false)) ∧ a ≠ 0x5058 ∧ (¬ (0x40C0 ≤ a ∧
      a < 0x40E0))) ∧
    (∃ (s : State) (t : State) (i : Instr) (k : Nat), exec i s = .next t ∧ ((i = .perstAssert ∧ s.perst = false ∨ (∃ x,
      i = .perst x) ∧ s.perst = false ∨ ((∃ r, i = .supplyReset r) ∨ i = .referenceLoss) ∧ s.perst = false)) ∧ k < 8 ∧
      (s.line k).outside = true) ∧
    (∃ (s : State) (t : State) (i : Instr) (k : Nat), exec i s = .next t ∧ ((i = .perstAssert ∧ s.perst = false ∨ (∃ x,
      i = .perst x) ∧ s.perst = false ∨ ((∃ r, i = .supplyReset r) ∨ i = .referenceLoss) ∧ s.perst = false)) ∧ k < 8 ∧
      t.evAsserted k = true) ∧
    (∃ (s : State), s.perst = true) ∧
    (∃ (s : State), s.perst = false) ∧
    (∃ (s : State), (s.inReset = true ∨ s.fld Reg.SEC_STATUS_BOOT_RESULT ≠ 0)) ∧
    (∃ (s : State), s.inReset = false ∧ s.fld Reg.SEC_STATUS_BOOT_RESULT = 0 ∧ s.readDirectory = none) :=
  ⟨⟨wBusy, (wAfter (.perstAssert) (wBusy)), .perstAssert, rfl, by decide +kernel⟩,
    ⟨wBusy, (wAfter (.perstAssert) (wBusy)), .perstAssert, 0x40, rfl, by decide +kernel⟩,
    ⟨wBusy, (wAfter (.perstAssert) (wBusy)), .perstAssert, 7, rfl, by decide +kernel⟩,
    ⟨wBusy, (wAfter (.perstAssert) (wBusy)), .perstAssert, 7, rfl, by decide +kernel⟩,
    ⟨wPerst, by decide +kernel⟩,
    ⟨wBusy, by decide +kernel⟩,
    ⟨wPerst, by decide +kernel⟩,
    ⟨wFlash (wCopies2 wNone wNone), by decide +kernel⟩⟩

/-- Values that meet the premises of `Obligations.ResetsAndBoot`. -/
theorem witness_ResetsAndBoot_2 :
    ∃ (s : State), ∃ d second x img, s.inReset = false ∧ s.fld Reg.SEC_STATUS_BOOT_RESULT = 0 ∧ s.readDirectory = some (d,
      second) ∧ x = directoryOf d ∧ img = s.flashBytes x.fwOffset x.fwLength ∧ s.fwResult img x.fwLength ≠ 1 ∧
      (second = true ∨ directoryValid (s.flashBytes 0x1000 96) = false ∨ (directoryOf (s.flashBytes 0x1000 96)).fwOffset = x.fwOffset) :=
  ⟨wFlash (wCopies2 wSome wNone), wSome, false, directoryOf wSome, ([] : List Byte), by decide +kernel, by decide +kernel,
    by decide +kernel, rfl, rfl, by decide +kernel⟩

/-! ### Premises that the free verification of a signature decides -/

/-- The header of a firmware image with a body of 64 bytes: 5,389 bytes in all (R455). -/
def wFwHead : List Byte := leBytes 0x57465645 4 ++ leBytes 1 2 ++ leBytes 0 2 ++ leBytes 3 4 ++ leBytes 64 4 ++ leBytes 0x100000 4 ++ leBytes 0x10000 4 ++ leBytes 0 40

/-- The vendor's key and signature of such an image pass (R455, R456). -/
def wSigned (img : List Byte) : Prop :=
  leNat (Config.shake256 ((img.drop 128).take 1952) 64) = Config.vendorKeyDigest.toNat ∧
  Config.mldsaVerify ((img.drop 128).take 1952) (fwDigest img) ((img.drop 2080).take 3309) = true

theorem fwResult_of {s : State} {img : List Byte} {n : Nat} (h : wSigned img)
    (hm : (!fwMalformed img n && decide (bytesField img 12 4 = 64) && !s.fuse.oem.cosignReq) = true) : s.fwResult img n = 1 := by
  simp only [Bool.and_eq_true, Bool.not_eq_true', decide_eq_true_eq] at hm
  obtain ⟨⟨ha, hb⟩, hc⟩ := hm
  obtain ⟨hk, hv⟩ := h
  simp [State.fwResult, ha, hb, hc, hk, hv]

/-- A device out of reset with a directory and that image in its flash. -/
def wFwDir : List Byte := wCopy [(0, 4, 0x4C5A5645), (4, 2, 1), (24, 4, 0x200000), (28, 4, 5389)]
def wFwFlash : State := wFlash (wFwDir.mapIdx (fun i x => (i, x)) ++ wFwHead.mapIdx (fun i x => (0x200000 + i, x)))

/-- Values that meet the premises of the boot that succeeds in `Obligations.ResetsAndBoot`, where the signature passes. -/
theorem witness_boot_succeeds (h : wSigned (wFwFlash.flashBytes 0x200000 5389)) :
    ∃ (s : State) (d : List Byte) (second : Bool) (x : Directory) (img : List Byte), s.inReset = false ∧
      s.fld Reg.SEC_STATUS_BOOT_RESULT = 0 ∧ s.readDirectory = some (d, second) ∧ x = directoryOf d ∧
      img = s.flashBytes x.fwOffset x.fwLength ∧ s.fwResult img x.fwLength = 1 := by
  refine ⟨wFwFlash, wFwDir, false, directoryOf wFwDir, _, by decide +kernel, by decide +kernel, by decide +kernel, rfl, rfl, ?_⟩
  have ho : (directoryOf wFwDir).fwOffset = 0x200000 := by decide +kernel
  have hn : (directoryOf wFwDir).fwLength = 5389 := by decide +kernel
  rw [ho, hn]
  exact fwResult_of h (by decide +kernel)

/-- That image in device memory, and the running image that it replaces. -/
def wFwMem : State :=
  let s := wSecM ((wFwHead.mapIdx (fun i x => (0x1000 + i, x))).filter (fun c => decide (c.2 ≠ 0)))
  { s with sec := { s.sec with running := some { offset := 0x100000, length := 5389, svn := 1, digest := [], altOffset := 0x180000, areaSize := 65536 } } }
def wFwGot : Acc × State := wMgRead wFwMem (wSecE 0x96 0x1000 5389) 5389

/-- Values that meet the premises of the update that is taken in `Obligations.SecurityCommandsAct`, where the signature passes. -/
theorem witness_update_taken (h : wSigned (wGot wFwGot)) :
    ∃ (s : State) (q : BitVec 8) (e : Entry) (c : Cmd) (va : Nat) (img : List Byte) (u : State) (x : Directory) (r : FwImage),
      s.serves q e ∧ c = s.taken q.toNat e ∧ c.target = 0 ∧ va = c.field 16 8 ∧ s.power.shutdown = false ∧ Entry.opcode e = 0x96 ∧
      c.reservedSet [(16, 12)] = false ∧ s.secAddrBad va = false ∧
      (s.undispatch c).memRead { engine := 9, unit := 0 } va (c.field 24 4) = (.ok img none, u) ∧ s.ser.dir = some x ∧
      s.sec.running = some r ∧ s.updateRefused x r img = false ∧ s.ser.jobs = [] := by
  refine ⟨wFwMem, 0, wSecE 0x96 0x1000 5389, _, _, wGot wFwGot, wFwGot.2, wDir,
    { offset := 0x100000, length := 5389, svn := 1, digest := [], altOffset := 0x180000, areaSize := 65536 },
    by unfold State.serves State.up; decide +kernel, rfl, by decide +kernel, rfl, by decide +kernel, by decide +kernel, by decide +kernel,
    by decide +kernel, ?_, by decide +kernel, by decide +kernel, ?_, by decide +kernel⟩
  · have hn : (wFwMem.taken (0 : BitVec 8).toNat (wSecE 0x96 0x1000 5389)).field 24 4 = 5389 := by decide +kernel
    rw [hn]
    exact acc_of (x := wFwGot) (by decide +kernel)
  · have hl : (wGot wFwGot).length = 5389 := by decide +kernel
    have hr : wFwMem.fwResult (wGot wFwGot) 5389 = 1 := fwResult_of h (by decide +kernel)
    have hb : (decide (bytesField (wGot wFwGot) 8 4 < 1) || decide (bytesField (wGot wFwGot) 16 4 ≠ 0x100000) ||
      decide (bytesField (wGot wFwGot) 20 4 ≠ 65536)) = false := by decide +kernel
    have ha : areaOverlaps wDir { offset := 0x100000, length := 5389, svn := 1, digest := [], altOffset := 0x180000, areaSize := 65536 } = false := by
      decide +kernel
    simp only [Bool.or_eq_false_iff, decide_eq_false_iff_not] at hb
    simp [State.updateRefused, hl, hr, hb.1.1, hb.1.2, hb.2, ha]

/-! ### Well-formed commands (R349, R350) -/

/-- An entry of an OPCODE and, at byte 8, an ACTION. -/
def wOp (op act : Nat) : Entry := wEnt [(0, 1, op), (8, 1, act)]

/-- No host command is spelled by an OPCODE that the table of R350 does not list. -/
theorem test_unlisted_opcode :
    (let e := wOp 0xFF 0
    ([Instr.nop 0 e, .programStart 0 e, .programPreempt 0 e, .programResume 0 e, .trapRequest 0 e, .siteEnable 0 e, .contactCheck 0 e,
     .deckleClose 0 e, .siteRegLoad 0 e, .ppmuMeasure 0 e, .tmuArm 0 e] ++
    [Instr.awgRunStart 0 e, .awgRunStop 0 e, .awgRunJump 0 e, .acqArm 0 e, .acqForce 0 e, .acqStop 0 e, .acqRelease 0 e, .dpsRunOn 0 e,
     .dpsRunOff 0 e, .dpsRunMeasure 0 e] ++
    [Instr.reamMark 0 e, .reamRewind 0 e, .reamRelease 0 e, .reamReset 0 e, .popDefine 0 e, .popFinalise 0 e, .popRead 0 e, .popRelease 0 e,
     .mapSet 0 e, .mapLoad 0 e, .mapClear 0 e, .mapRead 0 e] ++
    [Instr.dmaCopy 0 e, .dmaRing 0 e, .dmaFill 0 e, .dmaResume 0 e, .dmaAbort 0 e, .calRun 0 e ⟨[], 0, 0⟩, .calStore 0 e, .calLoad 0 e,
     .nextEvent 0 e, .wake 0 e, .usageRead 0 e] ++
    [Instr.attest 0 e, .summarySign 0 e, .imageMeasure 0 e, .fwUpdate 0 e, .oemProvision 0 e, .oemConfig 0 e, .unitReset 0 e,
     .unitPowerDown 0 e, .unitPowerUp 0 e, .unitRetire 0 e, .unitUnretire 0 e, .feltCopy 0 e, .feltSchedule 0 e, .feltCancel 0 e,
     .feltTimeSet 0 e]).all (fun i => !i.wf)) = true := by decide +kernel

/-- Every other row is a command whatever its operands. -/
theorem test_events_are_wf : ([.boot, .perst true, .evAssert 3, .cpCtrlWrite 5] : List Instr).all
    Instr.wf = true := by decide +kernel

/-- An entry of one OPCODE for several rows is spelled as R225, R248, R266 and R484 give its ACTION, and by no other. -/
theorem test_actions :
    ([Instr.awgRunStart 0 (wOp 0x32 0), .awgRunStop 0 (wOp 0x32 1), .awgRunJump 0 (wOp 0x32 2), .acqArm 0 (wOp 0x33 0), .acqForce 0 (wOp 0x33 1),
      .acqStop 0 (wOp 0x33 2), .acqRelease 0 (wOp 0x33 3), .dpsRunOn 0 (wOp 0x34 0), .dpsRunOff 0 (wOp 0x34 1), .dpsRunMeasure 0 (wOp 0x34 2),
      .unitPowerDown 0 (wOp 0x9A 0), .unitPowerUp 0 (wOp 0x9A 1)]).all Instr.wf = true ∧
    ([Instr.awgRunStart 0 (wOp 0x32 1), .awgRunStop 0 (wOp 0x32 2), .awgRunJump 0 (wOp 0x32 0), .acqArm 0 (wOp 0x33 1), .acqForce 0 (wOp 0x33 2),
      .acqStop 0 (wOp 0x33 3), .acqRelease 0 (wOp 0x33 0), .dpsRunOn 0 (wOp 0x34 1), .dpsRunOff 0 (wOp 0x34 2), .dpsRunMeasure 0 (wOp 0x34 0),
      .unitPowerDown 0 (wOp 0x9A 1), .unitPowerUp 0 (wOp 0x9A 0)]).all (fun i => !i.wf) = true := by decide +kernel

/-- A host command whose entry is not its own is refused by name. -/
theorem test_ill_formed_faults :
    (match exec (.nop 0 (wOp 0x10 0)) State.reset with | .fault .illFormed => true | _ => false) = true := by decide +kernel

/-! ### The spec's worked examples -/

/-- The two pins of spec/24 and the boundary of CL5's tile: P0161 is ball (13, 19). -/
theorem test_ball_of_pin : pinBall 161 = (13, 19) := by decide +kernel

/-- The leakage reading of spec/03: codes 647, 649, 648 and 648, O 3, G 19.0735 pA. -/
theorem test_ppmu_reading : ppmuReading (converterSpan 0) (2 ^ 30) (64 * 3) 0 (647 + 649 + 648 + 648) 4 = 12302 := by decide +kernel

/-- The current reading of spec/12: mean code 11,090, O 1, a shunt of 50 mΩ. -/
theorem test_dps_reading : dpsAmps (2 ^ 30) 64 50000 (16 * 11090) 16 = 42301 := by decide +kernel

/-- A cluster with the scan set of spec/04: set 3 of P0000 in format NRZ, E1 1,000, E2 2,250, drive deskew −180. -/
def wScan : State :=
  { w0.setFld (Reg.DESKEW_USER_DRV 0 0) (2 ^ 16 - 180) with
    timingApplied := [(tsKey 0 3 0 1, 1000), (tsKey 0 3 0 2, 2250), (tsKey 0 3 32 0, 6)] }

/-- Step 3 and step 5 of the scan vector of spec/04: the clock's edges at the ball. -/
theorem test_scan_edges :
    ({ wScan with applied := wScan.regs }.edgeAtBall 0 3 1, { wScan with applied := wScan.regs }.edgeAtBall 0 3 2) = (820, 2070) := by
  decide +kernel

/-- The clock pin of spec/04 carries 0x8: it stays at VIL until 820 ps, is at VIH until 2,070 ps, then at VIL. -/
theorem test_scan_clock :
    ([-180, 0, 819, 820, 2069, 2070].map (fun t => { wScan with applied := wScan.regs }.driveInVector 0 3 .vil 8 t)) =
      [.vil, .vil, .vil, .vih, .vih, .vil] := by decide +kernel

/-- Word 0x000141 of spec/05, its parity byte 0x0C at bits 199:192. -/
def wTrim : Nat := 0x0C * 2 ^ 192 + 0x40000012 * 2 ^ 160 + 0xBF0C0000 * 2 ^ 128 + 0xC1000080 * 2 ^ 32 + 0x7D0

/-- Its fields and its parity are as the example of spec/05 has them. -/
theorem test_trim_word :
    (parityFailed wTrim, wClass wTrim, wRepeat wTrim, wSet wTrim, wNext wTrim, wCond wTrim) = (0, 4, 4799, 3, 0, 0) ∧
      (wKind wTrim, wLimit wTrim, wToPop wTrim, wToRecord wTrim, wStallSafe wTrim, wAux wTrim) = (1, 0, true, true, true, 2000) := by decide +kernel

/-- The calibration and the two edges of spec/09: VALUE_FINE 1,785, VALUE 1,743 ps. -/
theorem test_interval :
    (let s := (w0.setFld (Reg.TMU_CAL_K1 0) (640 * 16)).setFld (Reg.TMU_CAL_K2 0) (3180 * 16)
     let v := s.tmuInterval 0 { wTa with startSkew := -180, stopSkew := 180 } false ⟨46, 2347, 0⟩ ⟨47, 2750, 0⟩
     (v.status, v.fine, v.value, v.coincident, v.order)) = (0, 1785, 1743, false, false) := by decide +kernel

/-- The first sine code of spec/10: FTW 1,407,374,883,553 after 4,096 samples, AMP 16,384, DC 0. -/
theorem test_sine_code :
    1407374883553 * 4096 % 2 ^ 48 = 135107988819968 ∧ sineCode 135107988819968 16384 0 = (2053, false) := by decide +kernel

/-- The table's values that R213 fixes whatever the series: its zeros and its peaks. -/
theorem test_sine_table : [0, 4096, 8192, 12288].map sineTable = [0, 32767, 0, -32767] := by decide +kernel

/-- The domain histogram of spec/13. -/
def wBins : List Nat :=
  (List.range 1024).map (fun b =>
    (([(21, 40), (22, 160), (23, 300), (24, 330), (25, 250), (26, 110), (27, 30), (28, 8), (29, 4), (60, 2), (200, 1), (900, 1)] :
      List (Nat × Nat)).lookup b).getD 0)

/-- Test 4,105 of spec/13. -/
def wLeak : PopTest :=
  { test := 4105, binsLog2 := 12, method := 1, sides := 1, verdictOnly := false, isLocal := false, kmul := 1536, refTest := 0, lo := 0
    width := 500, work := 0, deadline := none, round := 1, qlo := 0, qhi := 0, minCount := 100, check := 0, captured := [], expected := [] }

/-- The quantiles and the limits of the example of spec/13. -/
theorem test_population_limits :
    (let t := wLeak.withLimits 0 0 wBins (fun _ => 0); (t.countN, t.q1, t.median, t.q3, t.limitLo, t.limitHi)) =
      (1236, 11682, 12179, 12694, -(2 ^ 63), 16682) := by decide +kernel

/-- The two regions of spec/14 and the two entries of its translations. -/
def wRegions : State :=
  { ((w0.setQuad 0x3200 0x1880000000).setQuad 0x3208 0x1020004000) with
    mem := { w0.mem with dtt := [(8448, 0x0000000120000017), (16400, 0x00007F000040000B)] } }

/-- The record's DPA, and the untranslated address of control-store page 3 (spec/14). -/
theorem test_translation :
    (wRegions.translate 0x0004_2000_0440 true, wRegions.translate 0x0400_0010_7000 false) =
      (.dpa 0x120000440 8448, .host 0x7F0000407000 16400) := by decide +kernel

/-- The hop of spec/17: t1 120,000,000, turnaround 240, t4 120,003,532 give a delay of 1,646 ps. -/
theorem test_hop_delay :
    ((doSyncRsp 0 (BitVec.ofNat 48 (7 + 256 * 240)) (w8 0x66 (7 + 256 * 240)) 120003532
      (wFelt 0 4 { t1 := some 120000000, exchange := 7 })).fld (Reg.HOP_DELAY 0)) = 1646 := by decide +kernel

/-- The closure frame of spec/18: HEADER 0x2701, ADDR 0x0401, data 0x0020 after ALIVE 6; its reply begins with STATUS 0x7080, and
the NOP after it reads 0x8080. -/
theorem test_closure_frame :
    (let s := (wCellS false).setFld Reg.CP_STATUS_NEXT_ALIVE 7
     let s1 := { s with ser := { s.ser with flags := 0x80 } }
     let s2 := s1.cellFrame (wCf 0x2701 0x0401 [0x20])
     (cellEdges (wCf 0x2701 0x0401 [0x20]), (s1.cellReply (wCf 0x2701 0x0401 [0x20])).head?, (s2.cellReply (wCf 0x0800 0 [])).head?)) =
      (28, some 0x7080, some 0x8080) := by decide +kernel

/-- MON of DP21 reads 0x0021_064D before any write (spec/25). -/
theorem test_mon_reset : State.reset.hostRead 0x79538 4 = (0x0021064D, State.reset) := by decide +kernel

end Sys2Proof.Machine
end

section
/-! SUPPORT. Register writes. -/

namespace Sys2Proof.Machine

open Sys2Proof

/-! ### What an event that leaves the queue alone answers -/

/-- A register write that is a row of its own, or REGISTER_WRITE, answers what the write leaves. -/
theorem event_barWrite {s : State} (a : Nat) (wide : Bool) (v : Nat) (h : s.inReset = false) :
    event (fun s => s.barWrite a wide v) s = .next (s.barWrite a wide v) :=
  event_next h (State.barWrite_frozen s a wide v)

theorem exec_registerWrite {s : State} (a : BitVec 20) (wide : Bool) (v : BitVec 64) (h : s.inReset = false) :
    exec (.registerWrite a wide v) s = .next (s.barWrite a.toNat wide v.toNat) :=
  event_barWrite _ _ _ h

/-! ### Writes that are turned away -/

theorem State.barWrite_misaligned (s : State) {a : Nat} {wide : Bool} (v : Nat) (h : a % (if wide then 8 else 4) ≠ 0) :
    s.barWrite a wide v = s.badAccess a := if_pos h

theorem State.barWrite_unbooted (s : State) {a : Nat} {wide : Bool} (v : Nat) (h : a % (if wide then 8 else 4) = 0)
    (hb : s.flag Reg.SEC_STATUS_BOOTED = false) : s.barWrite a wide v = s := by
  simp [State.barWrite, h, hb]

theorem State.barWrite_denied (s : State) {a : Nat} {wide : Bool} (v : Nat) (h : a % (if wide then 8 else 4) = 0)
    (hd : s.writeDenied a = true) : s.barWrite a wide v = s := by
  simp [State.barWrite, h, hd]

/-- A write that neither the boot nor the protection map turns away. -/
theorem State.barWrite_through (s : State) {a : Nat} {wide : Bool} (v : Nat) (h : a % (if wide then 8 else 4) = 0)
    (hb : s.flag Reg.SEC_STATUS_BOOTED = true) (hd : s.writeDenied a = false) : s.barWrite a wide v = s.barAligned a wide v := by
  simp [State.barWrite, h, hb, hd]

theorem State.barAligned_shut (s : State) {a : Nat} (wide : Bool) (v : Nat) (h : s.writeShut (a / 8 * 8) = true) :
    s.barAligned a wide v = s := if_pos h

/-- A quad that no write reaches: it is reserved, or has no bit that a write may change. -/
theorem State.barPut_unwritable (s : State) {a : Nat} (lo w v : Nat)
    (h : Reg.rowOf a = none ∨ ∃ r, Reg.rowOf a = some r ∧ r.rw = 0 ∧ r.w1c = 0 ∧ r.wo = 0) : s.barPut a lo w v = s := by
  unfold State.barPut
  obtain h | ⟨r, h, hrw, hw1c, hwo⟩ := h
  · simp [h]
  · simp [h, hrw, hw1c, hwo]

/-- A write that is let through to such a quad changes nothing, as one access or as two. -/
theorem State.barAligned_unwritable (s : State) {a : Nat} (wide : Bool) (v : Nat)
    (h : Reg.rowOf (a / 8 * 8) = none ∨ ∃ r, Reg.rowOf (a / 8 * 8) = some r ∧ r.rw = 0 ∧ r.w1c = 0 ∧ r.wo = 0) :
    s.barAligned a wide v = s := by
  have hput (lo w x : Nat) : s.barPut (a / 8 * 8) lo w x = s := s.barPut_unwritable lo w x h
  unfold State.barAligned
  simp [hput]

/-- A write that the boot, the protection map, its block or its quad turns away. -/
theorem State.barWrite_nothing (s : State) {a : Nat} {wide : Bool} (v : Nat) (h : a % (if wide then 8 else 4) = 0)
    (ha : ∀ v, s.barAligned a wide v = s) : s.barWrite a wide v = s := by
  simp [State.barWrite, h, ha]

/-! ### The register-access-error event -/

theorem State.fld_lt (s : State) (f : Fld) : s.fld f < 2 ^ f.width := Nat.mod_lt _ (Nat.two_pow_pos _)

/-- The state in which an occurrence is latched, before it is counted. -/
def State.latched (s : State) (n unit info t : Nat) : State :=
  if (SMap.find s.ev.latch n).isSome then s
  else { s with ev := { s.ev with latch := SMap.put s.ev.latch n ⟨unit, info, t⟩ } }

theorem State.latched_find (s : State) (n unit info t : Nat) :
    SMap.find (s.latched n unit info t).ev.latch n = some ((SMap.find s.ev.latch n).getD ⟨unit, info, t⟩) := by
  unfold State.latched
  cases h : SMap.find s.ev.latch n with
  | some e => simp [h]
  | none => simp [SMap.find_put_self]

/-- What is latched is in no register. -/
@[simp] theorem State.latched_fld (s : State) (n unit info t : Nat) (f : Fld) : (s.latched n unit info t).fld f = s.fld f := by
  unfold State.latched; split <;> rfl

theorem State.latched_regsBut (s : State) (n unit info t : Nat) (fs : List Fld) : s.regsBut (s.latched n unit info t) fs := by
  unfold State.latched; split <;> exact State.regsBut_refl s fs

theorem State.raise_eq (s : State) (n unit info : Nat) :
    s.raise n unit info = if s.fld (Reg.SRC_STAT_COUNT n) = 255 then (s.latched n unit info s.now).setFlag (Reg.SRC_STAT_SAT n) true
      else (s.latched n unit info s.now).bump (Reg.SRC_STAT_COUNT n) 1 := rfl

/-- COUNT and SAT of a source are two fields of one quad. -/
theorem srcStat_apart (n : Nat) : (Reg.SRC_STAT_SAT n).addr = (Reg.SRC_STAT_COUNT n).addr →
    (Reg.SRC_STAT_SAT n).lo + (Reg.SRC_STAT_SAT n).width ≤ (Reg.SRC_STAT_COUNT n).lo ∨
      (Reg.SRC_STAT_COUNT n).lo + (Reg.SRC_STAT_COUNT n).width ≤ (Reg.SRC_STAT_SAT n).lo :=
  fun _ => Or.inr (by simp only [Reg.SRC_STAT_SAT, Reg.SRC_STAT_COUNT]; omega)

theorem srcStat_fits (n : Nat) : (Reg.SRC_STAT_COUNT n).lo + (Reg.SRC_STAT_COUNT n).width ≤ 64 ∧
    (Reg.SRC_STAT_SAT n).lo + (Reg.SRC_STAT_SAT n).width ≤ 64 := by
  simp only [Reg.SRC_STAT_SAT, Reg.SRC_STAT_COUNT]; omega

/-- An occurrence of a source has occurred once (R442). -/
theorem State.raise_raised (s : State) (n unit info : Nat) : s.raised (s.raise n unit info) n unit info := by
  have hlt : s.fld (Reg.SRC_STAT_COUNT n) < 256 := s.fld_lt (Reg.SRC_STAT_COUNT n)
  obtain ⟨hcount, hsat⟩ := srcStat_fits n
  rw [State.raise_eq]
  split
  case isTrue h =>
    refine ⟨?_, fun _ => State.flag_setFlag_self _ _ _ hsat Nat.one_pos, s.latched_find ..⟩
    rw [State.fld_setFlag_other _ _ _ _ (srcStat_apart n), State.latched_fld, h]
    rfl
  case isFalse h =>
    refine ⟨?_, fun h' => absurd h' h, s.latched_find ..⟩
    rw [State.bump, State.fld_setFld_self _ _ _ hcount, State.latched_fld]
    simp only [Reg.SRC_STAT_COUNT] at hlt h ⊢
    omega

/-- An occurrence changes COUNT and SAT of its source, and no other register bit. -/
theorem State.raise_regsBut (s : State) (n unit info : Nat) :
    s.regsBut (s.raise n unit info) [Reg.SRC_STAT_COUNT n, Reg.SRC_STAT_SAT n] := by
  have hl := s.latched_regsBut n unit info s.now []
  rw [State.raise_eq]
  split
  · exact State.regsBut_mono (State.regsBut_trans hl (State.regsBut_setFld _ _ _)) (by simp)
  · exact State.regsBut_mono (State.regsBut_trans hl (State.regsBut_setFld _ _ _)) (by simp)

/-! ### The obligations on accesses -/

/-- Settles O10: the write is turned away before it acts. -/
theorem deniedWritesAreDiscarded : Obligations.DeniedWritesAreDiscarded := by
  intro s a wide v hr _ hd ha
  refine ⟨s, ?_, rfl, fun _ => rfl⟩
  rw [exec_registerWrite _ _ _ hr, State.barWrite_denied s _ ha hd]

/-- Settles O11: the four reasons for which an aligned write changes nothing, and the event of an access of a bad size. -/
theorem accessesThatChangeNothing : Obligations.AccessesThatChangeNothing := by
  have hbad (s : State) (a : Nat) : s.raised (s.badAccess a) 43 0 a ∧ (s.badAccess a).memData = s.memData ∧
      s.regsBut (s.badAccess a) [Reg.SRC_STAT_COUNT 43, Reg.SRC_STAT_SAT 43] :=
    ⟨s.raise_raised 43 0 a, s.badAccess_memData a, s.raise_regsBut 43 0 a⟩
  refine ⟨?aligned, ?misaligned, ?badSize⟩
  case aligned =>
    intro s a wide v hr ha hwhy
    rw [exec_registerWrite _ _ _ hr]
    congr 1
    obtain hboot | hshut | hrow | ⟨r, hrow, hrw, hw1c, hwo, -⟩ := hwhy
    · exact s.barWrite_unbooted _ ha hboot
    · exact s.barWrite_nothing _ ha (fun x => s.barAligned_shut wide x hshut)
    · exact s.barWrite_nothing _ ha (fun x => s.barAligned_unwritable wide x (.inl hrow))
    · exact s.barWrite_nothing _ ha (fun x => s.barAligned_unwritable wide x (.inr ⟨r, hrow, hrw, hw1c, hwo⟩))
  case misaligned =>
    intro s a wide v hr ha
    refine ⟨s.badAccess a.toNat, ?_, hbad s a.toNat⟩
    rw [exec_registerWrite _ _ _ hr, s.barWrite_misaligned _ ha]
  case badSize =>
    intro s a size hr ha
    have hread : (s.hostRead a.toNat size.toNat).2 = s.badAccess a.toNat := by simp [State.hostRead, ha]
    refine ⟨s.badAccess a.toNat, ?_, hbad s a.toNat⟩
    rw [← hread]
    exact event_next (k := fun s => (s.hostRead a.toNat size.toNat).2) hr (s.hostRead_frozen _ _)

/-- Settles O7, by what a field written reads and what a write of a field leaves alone. -/
theorem fieldWrites : Obligations.FieldWrites :=
  fun s f v hf => ⟨s.fld_setFld_self f v hf, s.onlyRegs_setFld f v⟩

/-! ### Rows that are register writes -/

/-- A write of a part of a 64-bit register is the one access that the part names (R509). -/
theorem State.barPartWrite_eq (s : State) (a : Nat) (part : RegPart) (v : BitVec 64) :
    s.barPartWrite a part v.toNat = s.barWrite (partAccess a part v).1 (partAccess a part v).2.1 (partAccess a part v).2.2 := by
  cases part <;> rfl

/-- A row of a register of its own writes with the access that `Instr.barAccess` names. -/
theorem exec_barAccess {i : Instr} {a v : Nat} {wide : Bool} (s : State) (h : i.barAccess = some (a, wide, v)) :
    exec i s = event (fun s => s.barWrite a wide v) s := by
  have hpart {b : Nat} {part : RegPart} {x : BitVec 64} (h : some (partAccess b part x) = some (a, wide, v)) :
      event (fun s => s.barPartWrite b part x.toNat) s = event (fun s => s.barWrite a wide v) s := by
    simp only [State.barPartWrite_eq, Option.some.inj h]
  have hlow {b : Nat} {x : BitVec 32} (h : some (b, false, x.toNat) = some (a, wide, v)) :
      event (fun s => s.barWrite b false x.toNat) s = event (fun s => s.barWrite a wide v) s := by
    cases h; rfl
  unfold Instr.barAccess at h
  split at h
  case h_8 => exact hlow h
  case h_10 => exact hlow h
  case h_12 => cases h
  all_goals exact hpart h

/-- Parts of a register lie within its 8 bytes, and their values within 64 bits. -/
theorem partAccess_bounds {b : Nat} (part : RegPart) (x : BitVec 64) (h : b + 4 < 2 ^ 20) :
    (partAccess b part x).1 < 2 ^ 20 ∧ (partAccess b part x).2.2 < 2 ^ 64 := by
  have hx := x.isLt
  cases part <;> simp only [partAccess] <;> omega

theorem b2n_le_one (b : Bool) : b2n b ≤ 1 := by cases b <;> decide

/-- The accesses of such rows lie in BAR0. -/
theorem barAccess_bounds {i : Instr} {a v : Nat} {wide : Bool} (h : i.barAccess = some (a, wide, v)) : a < 2 ^ 20 ∧ v < 2 ^ 64 := by
  have hpart {b : Nat} {part : RegPart} {x : BitVec 64} (h : some (partAccess b part x) = some (a, wide, v)) (hb : b + 4 < 2 ^ 20) :
      a < 2 ^ 20 ∧ v < 2 ^ 64 := by
    have := partAccess_bounds part x hb
    rwa [Option.some.inj h] at this
  have hlow {b : Nat} {x : BitVec 32} (h : some (b, false, x.toNat) = some (a, wide, v)) (hb : b < 2 ^ 20) :
      a < 2 ^ 20 ∧ v < 2 ^ 64 := by
    cases h; exact ⟨hb, by omega⟩
  unfold Instr.barAccess at h
  split at h
  case h_8 idle x => exact hlow h (by cases idle <;> decide)
  case h_10 => exact hlow h (by decide)
  case h_12 => cases h
  case h_3 n q cfg part x => exact hpart h (by have := b2n_le_one cfg; omega)
  all_goals exact hpart h (by omega)

/-- Settles O13: both are the same write of BAR0. -/
theorem rowsOfRegistersAreWrites : Obligations.RowsOfRegistersAreWrites := by
  intro i s a v wide h
  obtain ⟨ha, hv⟩ := barAccess_bounds h
  rw [exec_barAccess s h]
  change _ = event (fun s => s.barWrite (BitVec.ofNat 20 a).toNat wide (BitVec.ofNat 64 v).toNat) s
  rw [BitVec.toNat_ofNat, BitVec.toNat_ofNat, Nat.mod_eq_of_lt ha, Nat.mod_eq_of_lt hv]

/-- Settles O3: nothing is listed after reset, so everything has its reset value. -/
theorem resetIsWellKept : Obligations.ResetIsWellKept := by
  refine ⟨rfl, rfl, rfl, rfl, rfl, ?_, fun _ => rfl⟩
  intro b hb
  have hsize : (State.reset.group b).size = 1 := rfl
  have hprogram : State.reset.program b = none := rfl
  rw [hsize, hprogram]
  exact ⟨le_refl 1, by decide, by omega, by simp⟩

/-! ### Bits of a merged write -/

theorem add_eq_or_of_disjoint {a b : Nat} (h : a &&& b = 0) : a + b = a ||| b := by
  have hlt : a + b < 2 ^ (a + b + 1) := (Nat.lt_two_pow_self (n := a + b)).trans_le (Nat.pow_le_pow_right (by omega) (by omega))
  have hx : (BitVec.ofNat (a + b + 1) a).toNat = a := by rw [BitVec.toNat_ofNat, Nat.mod_eq_of_lt (by omega)]
  have hy : (BitVec.ofNat (a + b + 1) b).toNat = b := by rw [BitVec.toNat_ofNat, Nat.mod_eq_of_lt (by omega)]
  have hxy := BitVec.add_eq_or_of_and_eq_zero (BitVec.ofNat (a + b + 1) a) (BitVec.ofNat (a + b + 1) b)
    (BitVec.eq_of_toNat_eq (by rw [BitVec.toNat_and, hx, hy, h]; rfl))
  have := congrArg BitVec.toNat hxy
  rwa [BitVec.toNat_add, BitVec.toNat_or, hx, hy, Nat.mod_eq_of_lt hlt] at this

/-- The bits of `n` that are set in `k` are cleared. -/
theorem testBit_sub_and (n k i : Nat) : (n - (n &&& k)).testBit i = (n.testBit i && !k.testBit i) := by
  have hd : (n &&& k) &&& (n ^^^ (n &&& k)) = 0 := by
    apply Nat.eq_of_testBit_eq
    intro j
    simp only [Nat.testBit_and, Nat.testBit_xor, Nat.zero_testBit]
    cases n.testBit j <;> cases k.testBit j <;> rfl
  have hor : (n &&& k) ||| (n ^^^ (n &&& k)) = n := by
    apply Nat.eq_of_testBit_eq
    intro j
    simp only [Nat.testBit_and, Nat.testBit_xor, Nat.testBit_or]
    cases n.testBit j <;> cases k.testBit j <;> rfl
  have hsub : n - (n &&& k) = n ^^^ (n &&& k) := by
    have := add_eq_or_of_disjoint hd
    omega
  rw [hsub, Nat.testBit_xor, Nat.testBit_and]
  cases n.testBit i <;> cases k.testBit i <;> rfl

theorem testBit_mergeBits (old rw m x i : Nat) :
    (mergeBits old rw m x).testBit i = if rw.testBit i && m.testBit i then x.testBit i else old.testBit i := by
  have hd : (old - (old &&& (rw &&& m))) &&& (x &&& (rw &&& m)) = 0 := by
    apply Nat.eq_of_testBit_eq
    intro j
    simp only [Nat.testBit_and, testBit_sub_and, Nat.zero_testBit]
    cases rw.testBit j <;> cases m.testBit j <;> simp
  rw [mergeBits, add_eq_or_of_disjoint hd]
  simp only [Nat.testBit_or, Nat.testBit_and, testBit_sub_and]
  cases rw.testBit i <;> cases m.testBit i <;> simp

/-- Bits of a field of `w` bits from bit `lo` on, all set. -/
theorem testBit_fieldMask (lo w i : Nat) : ((2 ^ w - 1) * 2 ^ lo).testBit i = (decide (lo ≤ i) && decide (i < lo + w)) := by
  rw [Nat.testBit_mul_two_pow, Nat.testBit_two_pow_sub_one]
  by_cases h : lo ≤ i
  · have : i - lo < w ↔ i < lo + w := by omega
    simp [h, this]
  · simp [h]

/-! ### The rows of the register map -/

/-- The access types of a row are of its 64 bits, and no bit has two of them. -/
def Reg.QuadRow.typed (r : Reg.QuadRow) : Prop :=
  r.rw < 2 ^ 64 ∧ r.w1c < 2 ^ 64 ∧ r.wo < 2 ^ 64 ∧ r.rw &&& r.w1c = 0 ∧ r.rw &&& r.wo = 0

/-- A row that is found, if one is, is typed. -/
def Reg.typedRow (o : Option Reg.QuadRow) : Prop := ∀ r, o = some r → r.typed

theorem Reg.typedRow_none : Reg.typedRow none := nofun

theorem Reg.typedRow_ite {p : Prop} [Decidable p] {x y : Option Reg.QuadRow} (hx : Reg.typedRow x) (hy : Reg.typedRow y) :
    Reg.typedRow (if p then x else y) := by
  split
  · exact hx
  · exact hy

theorem Reg.typedRow_findRow {l : List Reg.QuadRow} (o : Nat)
    (h : ∀ r ∈ l, r.rw < 2 ^ 64 ∧ r.w1c < 2 ^ 64 ∧ r.wo < 2 ^ 64 ∧ r.rw &&& r.w1c = 0 ∧ r.rw &&& r.wo = 0) :
    Reg.typedRow (Reg.findRow l o) :=
  fun r hr => h r (List.mem_of_find?_eq_some hr)

theorem Reg.rowOf_typed {a : Nat} {r : Reg.QuadRow} (h : Reg.rowOf a = some r) : r.typed := by
  suffices hall : Reg.typedRow (Reg.rowOf a) from hall r h
  unfold Reg.rowOf
  dsimp only
  repeat' with_reducible apply Reg.typedRow_ite
  all_goals first
    | with_reducible exact Reg.typedRow_none
    | with_reducible exact Reg.typedRow_findRow _ (by decide +kernel)

/-! ### One write that is let through -/

/-- A quad written with what is stored, unless the write is refused, and the CFG_ERR of its window (R8, R9). -/
def State.putStored (s : State) (a : Nat) (k : Nat × Bool) : State :=
  let s1 := if s.quadRefused a k.1 then s else s.setQuad a (BitVec.ofNat 64 k.1)
  match cfgErrOf a with
  | some f => s1.setFlag f (s.quadRefused a k.1 || k.2)
  | none => s1

/-- A write of `w` bits from bit `lo` of a quad that is no timing-set word, with some bit that may be written. -/
theorem State.barPut_eq {s : State} {a : Nat} {r : Reg.QuadRow} (lo w v : Nat) (hrow : Reg.rowOf a = some r)
    (hts : s.tsWord a = none) (hm : (r.rw ||| r.w1c ||| r.wo) &&& ((2 ^ w - 1) * 2 ^ lo) ≠ 0) :
    s.barPut a lo w v =
      let k := s.stored r a ((2 ^ w - 1) * 2 ^ lo) (v % 2 ^ w * 2 ^ lo)
      let t := if v % 2 ^ w * 2 ^ lo &&& r.wo ≠ 0 ∧ ¬ (0x6100 ≤ a ∧ a < 0x6200) then (s.putStored a k).clearCounts a
        else s.putStored a k
      if s.quadRefused a k.1 then t else t.wrote s a lo (v % 2 ^ w * 2 ^ lo) := by
  unfold State.barPut State.putStored
  simp only [hrow, hts, if_neg hm] <;> rfl

/-- Such a write that performs no WO action. -/
theorem State.barPut_stored {s : State} {a : Nat} {r : Reg.QuadRow} (lo w v : Nat) (hrow : Reg.rowOf a = some r)
    (hts : s.tsWord a = none) (hm : (r.rw ||| r.w1c ||| r.wo) &&& ((2 ^ w - 1) * 2 ^ lo) ≠ 0)
    (hwo : v % 2 ^ w * 2 ^ lo &&& r.wo = 0) :
    s.barPut a lo w v =
      let k := s.stored r a ((2 ^ w - 1) * 2 ^ lo) (v % 2 ^ w * 2 ^ lo)
      if s.quadRefused a k.1 then s.putStored a k else (s.putStored a k).wrote s a lo (v % 2 ^ w * 2 ^ lo) := by
  rw [State.barPut_eq lo w v hrow hts hm]
  simp [hwo]

/-- A write of bits that hold no field changes nothing. -/
theorem State.barPut_masked {s : State} {a : Nat} {r : Reg.QuadRow} (lo w v : Nat) (hrow : Reg.rowOf a = some r)
    (hm : (r.rw ||| r.w1c ||| r.wo) &&& ((2 ^ w - 1) * 2 ^ lo) = 0) : s.barPut a lo w v = s := by
  unfold State.barPut
  simp only [hrow, if_pos hm]

theorem State.barAligned_wide (s : State) {a : Nat} (v : Nat) (ha : a % 8 = 0) (hs : s.writeShut a = false)
    (hp : pairQuad a = false) : s.barAligned a true v = s.barPut a 0 64 v := by
  have hk : a / 8 * 8 = a := by omega
  simp [State.barAligned, hk, hs, hp]

/-- The bits stored where no field is out of its range: RW bits as written, W1C bits written 1 cleared. -/
theorem State.stored_testBit {s : State} {r : Reg.QuadRow} {a m x : Nat} (h : (s.stored r a m x).2 = false) (i : Nat) :
    (s.stored r a m x).1.testBit i =
      ((if r.rw.testBit i && m.testBit i then x.testBit i else (s.quad a).toNat.testBit i) && !(r.w1c.testBit i && x.testBit i)) := by
  unfold State.stored at h ⊢
  dsimp only at h ⊢
  rw [Bool.not_eq_false', List.isEmpty_iff] at h
  rw [h, List.foldl_nil, testBit_sub_and, testBit_mergeBits, Nat.testBit_and]

theorem State.stored_unranged {s : State} {a : Nat} (r : Reg.QuadRow) (m x : Nat) (h : s.fieldRanges a = []) :
    (s.stored r a m x).2 = false := by
  simp [State.stored, h]

/-! ### The sequencer windows -/

theorem State.fieldRanges_above (s : State) {a : Nat} (h : 0x7000 ≤ a) : s.fieldRanges a = [] := by
  unfold State.fieldRanges
  repeat rw [if_neg (by omega)]

theorem State.quadRefused_above (s : State) {a : Nat} (v : Nat) (h : 0xA000 ≤ a) : s.quadRefused a v = false := by
  unfold State.quadRefused
  repeat rw [if_neg (by omega)]

theorem cfgErrOf_above {a : Nat} (h : 0xA000 ≤ a) : cfgErrOf a = none := by
  unfold cfgErrOf
  repeat rw [if_neg (by omega)]

theorem State.tsWord_outside (s : State) {a : Nat} (h : a < 0x10000 ∨ 0x50000 ≤ a) : s.tsWord a = none := if_pos h

/-- From the Headbox window on no write is refused and no CFG_ERR is kept. -/
theorem State.putStored_above (s : State) {a : Nat} (k : Nat × Bool) (h : 0xA000 ≤ a) :
    s.putStored a k = s.setQuad a (BitVec.ofNat 64 k.1) := by
  simp [State.putStored, s.quadRefused_above k.1 h, cfgErrOf_above h]

/-- Outside the queue blocks the registers of a sequencer's window are 64-bit registers. -/
theorem pairQuad_seq {n o : Nat} (hn : n < 64) (ho : o < 0x800) (hq : o < 0x400 ∨ 0x600 ≤ o) :
    pairQuad (0x50000 + 0x800 * n + o) = false := by
  have hmod : (0x50000 + 0x800 * n + o - 0x50000) % 0x800 = o := by omega
  unfold pairQuad
  simp only [hmod]
  repeat rw [if_neg (by omega)]
  rw [if_pos (by omega)]
  simp only [Bool.and_eq_false_iff, decide_eq_false_iff_not]
  omega

/-- Outside the measurement limits and the queue blocks a write in a sequencer's window does nothing beside storing. -/
theorem State.wrote_seq (s old : State) {n o : Nat} (lo x : Nat) (hn : n < 64) (ho : o < 0x800)
    (hq : o < 0x40 ∨ (0x80 ≤ o ∧ o < 0x400) ∨ 0x600 ≤ o) : s.wrote old (0x50000 + 0x800 * n + o) lo x = s := by
  have hmod : (0x50000 + 0x800 * n + o - 0x50000) % 0x800 = o := by omega
  unfold State.wrote State.wroteSeq
  simp only [hmod]
  rw [if_neg (by omega), if_neg (by omega), if_pos (by omega), if_neg (by omega), if_neg (by omega)]

/-- A register has no bit from 64 on. -/
theorem State.quad_testBit_above (s : State) (a : Nat) {i : Nat} (h : 64 ≤ i) : (s.quad a).toNat.testBit i = false :=
  Nat.testBit_lt_two_pow ((s.quad a).isLt.trans_le (Nat.pow_le_pow_right (by omega) h))

/-- A quad written whole changes itself alone. -/
theorem State.onlyRegs_setQuad (s : State) (a : Nat) (v : BitVec 64) : s.onlyRegs (s.setQuad a v) [⟨a, 0, 64⟩] := by
  refine ⟨rfl, fun b i h => ?_⟩
  by_cases hb : b = a
  · subst hb
    have hi : 64 ≤ i := by simpa using h _ (List.mem_singleton_self _) rfl
    rw [State.quad_testBit_above _ _ hi, State.quad_testBit_above _ _ hi]
  · rw [State.quad_setQuad_other _ _ hb]

theorem testBit_of_and_eq_zero {x y i : Nat} (h : x &&& y = 0) (hx : x.testBit i = true) : y.testBit i = false := by
  have := congrArg (·.testBit i) h
  simpa [hx] using this

/-- What the bits of a register read after a write of all of them, by their access types (R8). -/
def Reg.QuadRow.after (r : Reg.QuadRow) (old v i : Nat) : Bool :=
  if r.rw.testBit i && !r.w1c.testBit i then v.testBit i else old.testBit i && !(r.w1c.testBit i && v.testBit i)

/-- A whole write of a quad without ranges stores by access type, bit by bit. -/
theorem State.stored_whole {s : State} {a : Nat} {r : Reg.QuadRow} (v : Nat) (hrow : Reg.rowOf a = some r)
    (hf : s.fieldRanges a = []) (i : Nat) :
    (BitVec.ofNat 64 (s.stored r a ((2 ^ 64 - 1) * 2 ^ 0) v).1).toNat.testBit i = r.after (s.quad a).toNat v i := by
  obtain ⟨hrw, hw1c, -, hrc, -⟩ := Reg.rowOf_typed hrow
  have hbit := State.stored_testBit (s.stored_unranged r ((2 ^ 64 - 1) * 2 ^ 0) v hf) i
  rw [BitVec.toNat_ofNat, Nat.testBit_mod_two_pow, hbit, testBit_fieldMask, Reg.QuadRow.after]
  by_cases hi : i < 64
  · cases hx : r.rw.testBit i
    · simp [hi]
    · simp [hi, testBit_of_and_eq_zero hrc hx]
  · have hpow : 2 ^ 64 ≤ 2 ^ i := Nat.pow_le_pow_right (by omega) (by omega)
    simp [hi, Nat.testBit_lt_two_pow (hrw.trans_le hpow), s.quad_testBit_above a (Nat.le_of_not_lt hi)]

/-- A quad none of whose bits may be written stays as it is. -/
theorem Reg.QuadRow.after_unwritable {r : Reg.QuadRow} (old v i : Nat) (hr : r.typed)
    (hm : (r.rw ||| r.w1c ||| r.wo) &&& ((2 ^ 64 - 1) * 2 ^ 0) = 0) : r.after old v i = old.testBit i := by
  obtain ⟨hrw, hw1c, -, -, -⟩ := hr
  have hbit := congrArg (·.testBit i) hm
  simp only [Nat.testBit_and, Nat.testBit_or, testBit_fieldMask, Nat.zero_testBit] at hbit
  by_cases hi : i < 64
  · simp only [Nat.zero_le, decide_true, Nat.zero_add, hi, Bool.and_true, Bool.or_eq_false_iff] at hbit
    simp [Reg.QuadRow.after, hbit]
  · have hpow : 2 ^ 64 ≤ 2 ^ i := Nat.pow_le_pow_right (by omega) (by omega)
    simp [Reg.QuadRow.after, Nat.testBit_lt_two_pow (hrw.trans_le hpow), Nat.testBit_lt_two_pow (hw1c.trans_le hpow)]

/-- Settles O12: the write reaches its quad, and there is nothing else that it does. -/
theorem sequencerWindowWrites : Obligations.SequencerWindowWrites := by
  intro s n o v r ho halign hq hw hrow hwo
  obtain ⟨hr, hb, hd, hshut⟩ := hw
  have hn := n.isLt
  have hv : v.toNat % 2 ^ 64 * 2 ^ 0 = v.toNat := by rw [Nat.mod_eq_of_lt v.isLt, pow_zero, Nat.mul_one]
  have haddr : (BitVec.ofNat 20 (0x50000 + 0x800 * n.val + o)).toNat = 0x50000 + 0x800 * n.val + o := by
    rw [BitVec.toNat_ofNat]; omega
  have hts : s.tsWord (0x50000 + 0x800 * n.val + o) = none := s.tsWord_outside (by omega)
  have hput : s.barWrite (0x50000 + 0x800 * n.val + o) true v.toNat = s.barPut (0x50000 + 0x800 * n.val + o) 0 64 v.toNat := by
    rw [s.barWrite_through _ (by simp only [if_true]; omega) hb hd, s.barAligned_wide _ (by omega) hshut (pairQuad_seq hn ho (by omega))]
  rw [exec_registerWrite _ _ _ hr, haddr, hput]
  refine ⟨_, rfl, ?_⟩
  generalize ha : 0x50000 + 0x800 * n.val + o = a at *
  by_cases hm : (r.rw ||| r.w1c ||| r.wo) &&& ((2 ^ 64 - 1) * 2 ^ 0) = 0
  · rw [State.barPut_masked 0 64 _ hrow hm]
    exact ⟨s.onlyRegs_refl _, fun i => (Reg.QuadRow.after_unwritable _ _ i (Reg.rowOf_typed hrow) hm).symm⟩
  · rw [State.barPut_stored 0 64 v.toNat hrow hts hm (by rw [hv]; exact hwo)]
    dsimp only
    rw [hv, s.quadRefused_above _ (by omega), if_neg (by decide), s.putStored_above _ (by omega), ← ha, State.wrote_seq _ _ _ _ hn ho hq, ha]
    refine ⟨s.onlyRegs_setQuad _ _, fun i => ?_⟩
    rw [State.quad_setQuad_self]
    exact State.stored_whole v.toNat hrow (s.fieldRanges_above (by omega)) i

/-! ### Counters -/

/-- The quads of a list of runs read zero. -/
def State.zeroAt (s : State) (l : List (Nat × Nat)) : Prop := ∀ x ∈ l, ∀ k < x.2, s.quad (x.1 + 8 * k) = 0#64

/-- A loop whose steps keep a quad at zero, one of which makes it zero, or which finds it zero. -/
theorem State.foldl_quad_zero {α : Type} {f : State → α → State} {b : Nat} (hkeep : ∀ s x, s.quad b = 0#64 → (f s x).quad b = 0#64)
    (l : List α) (s : State) (h : s.quad b = 0#64 ∨ ∃ x ∈ l, ∀ s, (f s x).quad b = 0#64) : (l.foldl f s).quad b = 0#64 := by
  induction l generalizing s with
  | nil => simpa using h
  | cons y l ih =>
    refine ih _ ?_
    obtain h | ⟨x, hx, hz⟩ := h
    · exact .inl (hkeep s y h)
    · obtain rfl | hx := List.mem_cons.mp hx
      · exact .inl (hz s)
      · exact .inr ⟨x, hx, hz⟩

theorem State.setQuad_keeps_zero (s : State) (a b : Nat) (h : s.quad b = 0#64) : (s.setQuad a 0#64).quad b = 0#64 := by
  by_cases hb : b = a
  · rw [hb, State.quad_setQuad_self]
  · rw [State.quad_setQuad_other _ _ hb, h]

theorem State.zeroQuads_keeps_zero (s : State) (a n b : Nat) (h : s.quad b = 0#64) : (s.zeroQuads a n).quad b = 0#64 :=
  State.foldl_quad_zero (fun s _ => s.setQuad_keeps_zero _ b) _ _ (.inl h)

theorem State.zeroQuads_zero (s : State) (a : Nat) {n k : Nat} (h : k < n) : (s.zeroQuads a n).quad (a + 8 * k) = 0#64 :=
  State.foldl_quad_zero (fun s _ => s.setQuad_keeps_zero _ _) _ _
    (.inr ⟨k, List.mem_range.mpr h, fun s => s.quad_setQuad_self _ _⟩)

/-- A loop over blocks that makes `n` quads of each zero, from an offset of its base on. -/
theorem State.zeroBlocks_zero (s : State) (base : Nat → Nat) {m n j k : Nat} (hj : j < m) (hk : k < n) :
    ((List.range m).foldl (fun s e => s.zeroQuads (base e) n) s).quad (base j + 8 * k) = 0#64 :=
  State.foldl_quad_zero (fun s _ => s.zeroQuads_keeps_zero _ _ _) _ _
    (.inr ⟨j, List.mem_range.mpr hj, fun s => s.zeroQuads_zero _ hk⟩)

theorem State.zeroBlocks_keeps_zero (s : State) (base : Nat → Nat) (m n b : Nat) (h : s.quad b = 0#64) :
    ((List.range m).foldl (fun s e => s.zeroQuads (base e) n) s).quad b = 0#64 :=
  State.foldl_quad_zero (fun s _ => s.zeroQuads_keeps_zero _ _ _) _ _ (.inl h)

theorem State.zeroAt_run {s : State} {a n : Nat} (h : ∀ k < n, s.quad (a + 8 * k) = 0#64) : s.zeroAt [(a, n)] := by
  intro x hx
  obtain rfl := List.mem_singleton.mp hx
  exact h

theorem State.zeroAt_blocks {s : State} {base : Nat → Nat} {m n : Nat} (h : ∀ j < m, ∀ k < n, s.quad (base j + 8 * k) = 0#64) :
    s.zeroAt ((List.range m).map (fun e => (base e, n))) := by
  intro x hx
  obtain ⟨j, hj, rfl⟩ := List.mem_map.mp hx
  exact h j (List.mem_range.mp hj)

theorem State.zeroAt_append {s : State} {l m : List (Nat × Nat)} (hl : s.zeroAt l) (hm : s.zeroAt m) : s.zeroAt (l ++ m) :=
  fun x hx => (List.mem_append.mp hx).elim (hl x) (hm x)

theorem State.clearCounts_seq (s : State) (n : Nat) :
    s.clearCounts (0x50000 + 0x800 * n) = s.zeroQuads (0x50000 + 0x800 * n + 0x18) 3 := by
  unfold State.clearCounts
  repeat rw [if_neg (by omega)]
  rw [if_pos (by omega)]

theorem State.clearCounts_exec (s : State) (n : Nat) :
    s.clearCounts (0x500C0 + 0x800 * n) = s.zeroQuads (0x50088 + 0x800 * n) 7 := by
  unfold State.clearCounts
  repeat rw [if_neg (by omega)]
  rw [if_pos (by omega)]
  congr 1
  omega

/-- CLR_COUNTS makes every counter of its window zero (R8). -/
theorem State.clearCounts_zeroAt {i : Instr} {a : Nat} {l : List (Nat × Nat)} (s : State) (h : i.clears = some (a, l)) :
    (s.clearCounts a).zeroAt l := by
  unfold Instr.clears at h
  split at h
  case h_1 => cases h; exact State.zeroAt_run (fun k hk => s.zeroQuads_zero _ hk)
  case h_2 =>
    cases h
    exact State.zeroAt_blocks (fun j hj k hk => s.zeroBlocks_zero (fun e => Reg.dmaB e + 8) hj hk)
  case h_3 => cases h; exact State.zeroAt_run (fun k hk => s.zeroQuads_zero _ hk)
  case h_4 => cases h; exact State.zeroAt_run (fun k hk => s.zeroQuads_zero _ hk)
  case h_5 =>
    cases h
    refine State.zeroAt_append (l := [_]) (m := (List.range 4).map _) (State.zeroAt_run fun k hk => ?_) (State.zeroAt_blocks fun j hj k hk => ?_)
    · exact State.zeroBlocks_keeps_zero _ (fun p => Reg.portB p + 0x10) _ _ _ (s.zeroQuads_zero _ hk)
    · have := (s.zeroQuads 0x6040 5).zeroBlocks_zero (fun p => Reg.portB p + 0x10) hj hk
      rwa [show Reg.portB j + 0x10 = 0x6110 + 0x40 * j by simp only [Reg.portB]; omega] at this
  case h_6 => cases h; exact State.zeroAt_run (fun k hk => s.zeroQuads_zero _ hk)
  case h_7 =>
    cases h
    refine State.zeroAt_append (l := _ :: _) (State.zeroAt_append (l := [_]) (m := (List.range 16).map _) (State.zeroAt_run fun k hk => ?_)
      (State.zeroAt_blocks fun j hj k hk => ?_)) (State.zeroAt_blocks fun j hj k hk => ?_)
    · exact State.zeroBlocks_keeps_zero _ (fun n => Reg.seqB n + 0x208) _ _ _
        (State.zeroBlocks_keeps_zero _ (fun g => Reg.bgB g + 0x10) _ _ _ (s.zeroQuads_zero _ hk))
    · have := (s.zeroQuads 0xA010 3).zeroBlocks_zero (fun g => Reg.bgB g + 0x10) hj hk
      rw [show Reg.bgB j + 0x10 = 0xA110 + 0x40 * j by simp only [Reg.bgB]; omega] at this
      exact State.zeroBlocks_keeps_zero _ (fun n => Reg.seqB n + 0x208) _ _ _ this
    · exact State.zeroBlocks_zero _ (fun n => Reg.seqB n + 0x208) hj hk
  case h_8 n =>
    cases h
    rw [State.clearCounts_seq]
    exact State.zeroAt_run (fun k hk => by
      rw [show 0x50018 + 0x800 * n.val = 0x50000 + 0x800 * n.val + 0x18 by omega]; exact s.zeroQuads_zero _ hk)
  case h_9 n =>
    cases h
    rw [State.clearCounts_exec]
    exact State.zeroAt_run (fun k hk => s.zeroQuads_zero _ hk)
  case h_10 => cases h

/-! ### The rows that clear counters -/

/-- What the nine CLR_COUNTS rows have in common: the row `i` writes 1 to bit `k`, a WO bit of the register at `a`, and
nothing else follows from the write but, at HI_CTRL, what POLLING shows. -/
structure ClearRow (i : Instr) (a k : Nat) (r : Reg.QuadRow) : Prop where
  exec_eq : ∀ s, exec i s = event (clrCounts a k k) s
  low : k < 31
  aligned : a % 8 = 0
  row : Reg.rowOf a = some r
  wo : r.wo = 2 ^ k
  ts : ∀ s : State, s.tsWord a = none
  accepted : ∀ (s : State) (v : Nat), s.quadRefused a v = false
  noPort : ¬ (0x6100 ≤ a ∧ a < 0x6200)
  quiet : ∀ (s old : State) (x : Nat), s.wrote old a 0 x = if a = 0x1000 then s.showPolling else s

/-- The registers of a sequencer's window outside the queue blocks. -/
theorem Reg.rowOf_seq {n o : Nat} (hn : n < 64) (ho : o < 0x400) : Reg.rowOf (0x50000 + 0x800 * n + o) = Reg.findRow Reg.seqRows o := by
  have hmod : (0x50000 + 0x800 * n + o - 0x50000) % 0x800 = o := by omega
  unfold Reg.rowOf
  simp only [hmod]
  repeat rw [if_neg (by omega)]
  rw [if_pos (by omega), if_neg (by omega)]

theorem clearRow_seq {i : Instr} {n o k : Nat} {r : Reg.QuadRow} (he : ∀ s, exec i s = event (clrCounts (0x50000 + 0x800 * n + o) k k) s)
    (hn : n < 64) (ho : o < 0x400) (hq : o < 0x40 ∨ 0x80 ≤ o) (h8 : o % 8 = 0) (hk : k < 31) (hr : Reg.findRow Reg.seqRows o = some r)
    (hwo : r.wo = 2 ^ k) : ClearRow i (0x50000 + 0x800 * n + o) k r where
  exec_eq := he
  low := hk
  aligned := by omega
  row := by rw [Reg.rowOf_seq hn ho, hr]
  wo := hwo
  ts s := s.tsWord_outside (by omega)
  accepted s v := s.quadRefused_above v (by omega)
  noPort := by omega
  quiet s old x := by rw [if_neg (by omega), s.wrote_seq old 0 x hn (by omega) (by omega)]

theorem clearRow_low {i : Instr} {a k : Nat} {r : Reg.QuadRow} (he : ∀ s, exec i s = event (clrCounts a k k) s)
    (ha : a ∈ [0x1000, 0x2C00, 0x3008, 0x4000, 0x6008, 0x9000, 0xA000]) (hk : k < 31) (hr : Reg.rowOf a = some r)
    (hwo : r.wo = 2 ^ k) : ClearRow i a k r := by
  simp only [List.mem_cons, List.not_mem_nil, or_false] at ha
  refine ⟨he, hk, by omega, hr, hwo, fun s => s.tsWord_outside (by omega), fun s v => ?_, by omega, fun s old x => ?_⟩
  · unfold State.quadRefused
    repeat rw [if_neg (by omega)]
  · unfold State.wrote State.wroteLow
    rw [if_pos (by omega)]
    split
    · rfl
    · repeat rw [if_neg (by omega)]

theorem clearRow_of_clears {i : Instr} {a : Nat} {l : List (Nat × Nat)} (h : i.clears = some (a, l)) : ∃ k r, ClearRow i a k r := by
  unfold Instr.clears at h
  split at h
  case h_8 n => cases h; exact ⟨1, _, clearRow_seq (o := 0) (fun _ => rfl) n.isLt (by decide) (by decide) rfl (by decide) rfl rfl⟩
  case h_9 n =>
    cases h
    rw [show 0x500C0 + 0x800 * n.val = 0x50000 + 0x800 * n.val + 0xC0 by omega]
    exact ⟨0, _, clearRow_seq (fun _ => rfl) n.isLt (by decide) (by decide) rfl (by decide) rfl rfl⟩
  case h_10 => cases h
  case h_1 => cases h; exact ⟨1, _, clearRow_low (fun _ => rfl) (by decide) (by decide) rfl rfl⟩
  case h_2 => cases h; exact ⟨16, _, clearRow_low (fun _ => rfl) (by decide) (by decide) rfl rfl⟩
  case h_3 => cases h; exact ⟨16, _, clearRow_low (fun _ => rfl) (by decide) (by decide) rfl rfl⟩
  case h_4 => cases h; exact ⟨0, _, clearRow_low (fun _ => rfl) (by decide) (by decide) rfl rfl⟩
  case h_5 => cases h; exact ⟨0, _, clearRow_low (fun _ => rfl) (by decide) (by decide) rfl rfl⟩
  case h_6 => cases h; exact ⟨0, _, clearRow_low (fun _ => rfl) (by decide) (by decide) rfl rfl⟩
  case h_7 => cases h; exact ⟨1, _, clearRow_low (fun _ => rfl) (by decide) (by decide) rfl rfl⟩

@[simp] theorem State.putStored_memData (s : State) (a : Nat) (k : Nat × Bool) : (s.putStored a k).memData = s.memData := by
  unfold State.putStored
  dsimp only
  split <;> simp

/-- A write of 32 bits at the foot of a quad that is let through. -/
theorem State.barWrite_low {s : State} {a : Nat} (v : Nat) (ha : a % 8 = 0) (hw : s.writable a) : s.barWrite a false v = s.barPut a 0 32 v := by
  obtain ⟨-, hb, hd, hs⟩ := hw
  have hk : a / 8 * 8 = a := by omega
  have h0 : a % 8 * 8 = 0 := by omega
  rw [s.barWrite_through _ (by simp only [if_false, Bool.false_eq_true]; omega) hb hd]
  simp [State.barAligned, hk, h0, hs]

/-- Such a row clears the counters of its window after it has stored its bits. -/
theorem ClearRow.write_eq {i : Instr} {a k : Nat} {r : Reg.QuadRow} (hc : ClearRow i a k r) {s : State} (hw : s.writable a) :
    ∃ x, clrCounts a k k s =
      if a = 0x1000 then ((s.putStored a x).clearCounts a).showPolling else (s.putStored a x).clearCounts a := by
  have hpow : 2 ^ k ≤ 2 ^ 30 := Nat.pow_le_pow_right (by omega) (Nat.le_of_lt_succ hc.low)
  have hlow : (s.quad (a / 8 * 8)).toNat / 2 ^ (a % 8 * 8) % 2 ^ k < 2 ^ k := Nat.mod_lt _ (Nat.two_pow_pos k)
  unfold clrCounts
  rw [Nat.add_comm, State.barWrite_low _ hc.aligned hw]
  generalize (s.quad (a / 8 * 8)).toNat / 2 ^ (a % 8 * 8) % 2 ^ k = u at hlow
  have hx : (2 ^ k + u) % 2 ^ 32 * 2 ^ 0 = 2 ^ k + u := by rw [Nat.mod_eq_of_lt (by omega), pow_zero, Nat.mul_one]
  have hbit : (2 ^ k + u).testBit k = true := by rw [Nat.testBit_two_pow_add_eq, Nat.testBit_lt_two_pow hlow]; rfl
  have hset (y : Nat) (hy : y.testBit k = true) : y &&& r.wo ≠ 0 := by
    intro h0
    have := testBit_of_and_eq_zero h0 hy
    rw [hc.wo, Nat.testBit_two_pow_self] at this
    cases this
  have hm : (r.rw ||| r.w1c ||| r.wo) &&& ((2 ^ 32 - 1) * 2 ^ 0) ≠ 0 := by
    intro h0
    have := testBit_of_and_eq_zero h0 (i := k) (by simp [hc.wo])
    rw [testBit_fieldMask] at this
    simp at this
    have := hc.low
    omega
  refine ⟨s.stored r a ((2 ^ 32 - 1) * 2 ^ 0) (2 ^ k + u), ?_⟩
  rw [State.barPut_eq 0 32 _ hc.row (hc.ts s) hm, hx]
  dsimp only
  rw [hc.accepted, if_neg (by decide), if_pos ⟨hset _ hbit, hc.noPort⟩, hc.quiet]

/-- What POLLING shows is in HI_CTRL's quad. -/
theorem State.showPolling_quad (s : State) {a : Nat} (h : a ≠ 0x1000) : s.showPolling.quad a = s.quad a :=
  State.quad_setQuad_other _ _ h

/-- No counter is in HI_CTRL's quad. -/
theorem clears_above {i : Instr} {a : Nat} {l : List (Nat × Nat)} (h : i.clears = some (a, l)) (ha : a = 0x1000) : ∀ x ∈ l, 0x1000 < x.1 := by
  unfold Instr.clears at h
  split at h <;> cases h
  case h_1 => decide
  case h_8 | h_9 => omega
  all_goals cases ha


/-- What a cleared window's row leaves: memory as before, and its counters at zero. -/
theorem ClearRow.write_clears {i : Instr} {a k : Nat} {r : Reg.QuadRow} {l : List (Nat × Nat)} (hc : ClearRow i a k r)
    (hl : i.clears = some (a, l)) {s : State} (hw : s.writable a) :
    (clrCounts a k k s).memData = s.memData ∧ (clrCounts a k k s).zeroAt l := by
  obtain ⟨x, hx⟩ := hc.write_eq hw
  have hz := (s.putStored a x).clearCounts_zeroAt hl
  rw [hx]
  split
  case isTrue ha =>
    refine ⟨by simp, fun y hy k hk => ?_⟩
    have := clears_above hl ha y hy
    rw [State.showPolling_quad _ (by omega)]
    exact hz y hy k hk
  case isFalse => exact ⟨by simp, hz⟩

/-! ### CROSSED_CLEAR -/

theorem queueB_eq (n q : Nat) : Reg.queueB n q = 0x50000 + 0x800 * n + 0x400 + 0x40 * q := rfl

theorem queue_offset (q : Nat) : (0x428 + 0x40 * q - 0x400) % 0x40 = 0x28 ∧ (0x428 + 0x40 * q - 0x400) / 0x40 = q := by omega

/-- QSTATUS of a queue: MARK_LOST and CROSSED are W1C, all else is read-only. -/
theorem Reg.rowOf_qstatus (n : Fin 64) (q : Fin 8) : Reg.rowOf (Reg.queueB n.val q.val + 0x28) = some ⟨0x28, 1, 8, 0x0, 0xA, 0x0, 0x0⟩ := by
  generalize ha : Reg.queueB n.val q.val + 0x28 = a
  rw [queueB_eq] at ha
  have hmod : (a - 0x50000) % 0x800 = 0x428 + 0x40 * q.val := by omega
  unfold Reg.rowOf
  simp only [hmod, (queue_offset q.val).1]
  clear hmod
  repeat rw [if_neg (by omega)]
  rw [if_pos (by omega), if_pos (by omega)]
  rfl

/-- A 1 written to CROSSED clears CROSSED and COUNT of the queue. -/
theorem State.wrote_crossed (s old : State) (n : Fin 64) (q : Fin 8) :
    s.wrote old (Reg.queueB n.val q.val + 0x28) 0 8 = s.clearCrossed n.val q.val := by
  generalize ha : Reg.queueB n.val q.val + 0x28 = a
  rw [queueB_eq] at ha
  have hdiv : (a - 0x50000) / 0x800 = n.val := by omega
  have hmod : (a - 0x50000) % 0x800 = 0x428 + 0x40 * q.val := by omega
  unfold State.wrote State.wroteSeq
  simp only [hmod, hdiv, (queue_offset q.val).2]
  clear hmod hdiv
  rw [if_neg (by omega), if_neg (by omega), if_pos (by omega), if_neg (by omega), if_pos (by omega), if_neg (by omega),
    if_pos ⟨by omega, by decide⟩]

/-- Clearing W1C bits of a quad changes those bits alone. -/
theorem State.onlyRegs_of_bits {s : State} {a : Nat} {v : BitVec 64} {f : Fld} (ha : f.addr = a)
    (h : ∀ i, ¬ (f.lo ≤ i ∧ i < f.lo + f.width) → v.toNat.testBit i = (s.quad a).toNat.testBit i) : s.onlyRegs (s.setQuad a v) [f] := by
  refine ⟨rfl, fun b i hi => ?_⟩
  by_cases hb : b = a
  · subst hb
    rw [State.quad_setQuad_self]
    exact h i (hi f (List.mem_singleton_self f) ha)
  · rw [State.quad_setQuad_other _ _ hb]

theorem State.clearCrossed_clears (s : State) (n q : Nat) :
    (s.clearCrossed n q).flag (Reg.QSTATUS_CROSSED n q) = false ∧ (s.clearCrossed n q).fld (Reg.QSTATUS_COUNT n q) = 0 ∧
      s.onlyRegs (s.clearCrossed n q) [Reg.QSTATUS_CROSSED n q, Reg.QSTATUS_COUNT n q] := by
  refine ⟨?_, State.fld_setFld_self _ _ _ (Nat.le_of_ble_eq_true rfl), ?_⟩
  · rw [State.clearCrossed, State.flag_setFld_other _ _ _ _ (fun _ => by simp [Reg.QSTATUS_CROSSED, Reg.QSTATUS_COUNT]),
      State.flag_setFlag_self _ _ _ (Nat.le_of_ble_eq_true rfl) Nat.one_pos]
  · exact State.onlyRegs_trans (State.onlyRegs_setFld ..) (State.onlyRegs_setFld ..)

/-- CROSSED_CLEAR that is let through (R179). -/
theorem State.barWrite_crossed {s : State} {n : Fin 64} {q : Fin 8} (hw : s.writable (Reg.queueB n.val q.val + 0x28)) :
    ∃ u, s.onlyRegs u [Reg.QSTATUS_CROSSED n.val q.val] ∧
      s.barWrite (Reg.queueB n.val q.val + 0x28) false 8 = u.clearCrossed n.val q.val := by
  have hb := queueB_eq n.val q.val
  have h8 : (Reg.queueB n.val q.val + 0x28) % 8 = 0 := by omega
  have hx : 8 % 2 ^ 32 * 2 ^ 0 = 8 := rfl
  rw [State.barWrite_low _ h8 hw, State.barPut_stored 0 32 8 (Reg.rowOf_qstatus n q) (s.tsWord_outside (by omega)) (by decide) (by decide), hx]
  dsimp only
  rw [s.quadRefused_above _ (by omega), if_neg (by decide), s.putStored_above _ (by omega), State.wrote_crossed]
  refine ⟨_, State.onlyRegs_of_bits rfl (fun i hi => ?_), rfl⟩
  have hbit : (8 : Nat).testBit i = false := by
    rw [show 8 = 2 ^ 3 from rfl, Nat.testBit_two_pow]
    simp only [Reg.QSTATUS_CROSSED] at hi
    exact decide_eq_false (by omega)
  rw [BitVec.toNat_ofNat, Nat.testBit_mod_two_pow, State.stored_testBit (s.stored_unranged _ _ _ (s.fieldRanges_above (by omega))), hbit]
  by_cases hi : i < 64
  · simp [hi, Reg.QSTATUS_CROSSED]
  · simp [hi, s.quad_testBit_above _ (Nat.le_of_not_lt hi)]

/-- Settles O15: the nine rows by what they have in common, CROSSED_CLEAR by its one register. -/
theorem countersClear : Obligations.CountersClear := by
  refine ⟨fun i s a l hl hw _ => ?_, fun s n q hw => ?_⟩
  · obtain ⟨k, r, hc⟩ := clearRow_of_clears hl
    have ha : a / 8 * 8 = a := by have := hc.aligned; omega
    rw [ha] at hw
    refine ⟨clrCounts a k k s, ?_, hc.write_clears hl hw⟩
    rw [hc.exec_eq]
    exact event_next hw.1 (clrCounts_frozen a k k s)
  · obtain ⟨u, hu, heq⟩ := State.barWrite_crossed hw
    obtain ⟨hcrossed, hcount, honly⟩ := u.clearCrossed_clears n.val q.val
    refine ⟨u.clearCrossed n.val q.val, ?_, hcrossed, hcount, State.onlyRegs_mono (State.onlyRegs_trans hu honly) (by simp)⟩
    rw [← heq]
    exact event_barWrite _ _ _ hw.1

end Sys2Proof.Machine
end
section
/-! SUPPORT. Configuration writes: which accesses they make, and what follows from each beside the bits stored. -/

namespace Sys2Proof.Machine

open Sys2Proof

/-! ### Updates within a list of fields -/

section Within

variable {s t : State} {fs : List Fld}

/-- A further write of a listed field. -/
theorem State.regsBut.setFld (h : s.regsBut t fs) {f : Fld} (v : Nat) (hf : f ∈ fs) : s.regsBut (t.setFld f v) fs :=
  State.regsBut_mono (State.regsBut_trans h (State.regsBut_setFld t f v)) (by rintro g hg; simp at hg; obtain hg | rfl := hg <;> assumption)

theorem State.regsBut.setFlag (h : s.regsBut t fs) {f : Fld} (b : Bool) (hf : f ∈ fs) : s.regsBut (t.setFlag f b) fs := h.setFld _ hf

theorem State.regsBut.bump (h : s.regsBut t fs) {f : Fld} (k : Nat) (hf : f ∈ fs) : s.regsBut (t.bump f k) fs := h.setFld _ hf

/-- An occurrence of a source whose counter is listed. -/
theorem State.regsBut.raise (h : s.regsBut t fs) {n : Nat} (u i : Nat) (hc : Reg.SRC_STAT_COUNT n ∈ fs) (hs : Reg.SRC_STAT_SAT n ∈ fs) :
    s.regsBut (t.raise n u i) fs :=
  State.regsBut_mono (State.regsBut_trans h (State.raise_regsBut t n u i)) (by rintro g hg; simp at hg; obtain hg | rfl | rfl := hg <;> assumption)

theorem State.regsBut.foldl {α : Type} {f : State → α → State} (h : s.regsBut t fs)
    (hf : ∀ u x, s.regsBut u fs → s.regsBut (f u x) fs) (l : List α) : s.regsBut (l.foldl f t) fs := by
  induction l generalizing t with
  | nil => exact h
  | cons x l ih => exact ih (hf t x h)

/-- A quad that holds none of the listed fields reads as before. -/
theorem State.regsBut.quad (h : s.regsBut t fs) {a : Nat} (ha : ∀ f ∈ fs, f.addr ≠ a) : t.quad a = s.quad a := by
  apply BitVec.eq_of_toNat_eq
  apply Nat.eq_of_testBit_eq
  intro i
  exact h a i (fun f hf hfa => absurd hfa (ha f hf))

theorem State.regsBut.flag (h : s.regsBut t fs) {g : Fld} (hg : ∀ f ∈ fs, f.addr = g.addr → f.lo + f.width ≤ g.lo ∨ g.lo + g.width ≤ f.lo) :
    t.flag g = s.flag g := by
  unfold State.flag
  rw [State.fld_of_regsBut h g hg]

/-- Parts of the state that are no register. -/
theorem State.regsBut.congr (h : s.regsBut t fs) {u : State} (hr : u.regs = t.regs) (hf : u.fuse = t.fuse) : s.regsBut u fs := by
  intro a i hi
  rw [← h a i hi, State.quad, State.quad, hr, hf]

end Within

/-! ### What follows from a configuration write, by its registers -/

/-- Fields of POP_TREE (R293). -/
def popTreeFields : List Fld := [Reg.POP_TREE_PARENT, Reg.POP_TREE_DEPTH, Reg.POP_TREE_CHILDREN, Reg.POP_TREE_MAX_DEPTH]

theorem State.showTree_regsBut (s : State) : s.regsBut s.showTree popTreeFields :=
  ((((s.regsBut_refl _).setFld _ (by simp [popTreeFields])).setFld _ (by simp [popTreeFields])).setFld _
    (by simp [popTreeFields])).setFld _ (by simp [popTreeFields])

/-- Fields that follow the time links: three of FELT_STATUS, and the cell-time event's counter (R378, R380). -/
def syncFields : List Fld :=
  [Reg.FELT_STATUS_SYNC_STATE, Reg.FELT_STATUS_SYNC_PORT, Reg.FELT_STATUS_SYNC_DEPTH, Reg.SRC_STAT_COUNT 13, Reg.SRC_STAT_SAT 13]

theorem State.regsBut.setSync {s t : State} (h : s.regsBut t syncFields) (k : Nat) : s.regsBut (t.setSync k) syncFields := by
  unfold State.setSync
  split
  · exact h
  · refine State.regsBut.raise ?_ _ _ (by simp [syncFields]) (by simp [syncFields])
    exact State.regsBut.setFld (h.congr rfl rfl) _ (by simp [syncFields])

theorem State.showSync_regsBut (s : State) : s.regsBut s.showSync syncFields := by
  have h0 := s.regsBut_refl syncFields
  unfold State.showSync
  split
  · exact (h0.setFld _ (by simp [syncFields])).setSync _
  · dsimp only
    repeat' split
    all_goals repeat first
      | with_reducible exact h0
      | with_reducible refine State.regsBut.setSync ?_ _
      | with_reducible refine State.regsBut.setFld ?_ _ (by simp [syncFields])

/-- An enabled or disabled submission queue changes no register. -/
theorem State.sqApplied_regsBut (s : State) (q : Nat) (was : Bool) : s.regsBut (s.sqApplied q was) [] := by
  unfold State.sqApplied
  dsimp only
  split
  · exact s.regsBut_refl _
  · exact (s.regsBut_refl _).congr rfl rfl

/-- Fields that a completion entering the buffer, or leaving it, may change (R353, R355). -/
def bufferFields : List Fld := [Reg.HI_MSIX_SENT, Reg.HI_PME_SENT, Reg.HI_STATUS_BUF_FULL]

theorem State.regsBut.deliverVector {s t : State} (h : s.regsBut t bufferFields) (v : Nat) : s.regsBut (t.deliverVector v) bufferFields := by
  unfold State.deliverVector
  dsimp only
  repeat' split
  · refine State.regsBut.bump ?_ _ (by simp [bufferFields])
    exact h.congr rfl rfl
  · exact h.congr rfl rfl
  · exact h
  · exact h.congr rfl rfl
  · exact h.congr rfl rfl
  · exact h.congr rfl rfl
  · exact h.bump _ (by simp [bufferFields])

theorem State.regsBut.moderateCq {s t : State} (h : s.regsBut t bufferFields) (q : Nat) : s.regsBut (t.moderateCq q) bufferFields := by
  unfold State.moderateCq
  dsimp only
  split
  · refine State.regsBut.deliverVector ?_ _
    exact h.congr rfl rfl
  · exact h.congr rfl rfl

theorem State.regsBut.enterBuffer {s t : State} (h : s.regsBut t bufferFields) : s.regsBut t.enterBuffer bufferFields := by
  unfold State.enterBuffer
  dsimp only
  repeat' split
  · exact h
  · exact h
  · refine State.regsBut.moderateCq ?_ _
    exact h.congr rfl rfl
  · exact h.congr rfl rfl

theorem State.cqApplied_regsBut (s : State) (q : Nat) (was : Bool) : s.regsBut (s.cqApplied q was) bufferFields := by
  have h0 := s.regsBut_refl bufferFields
  unfold State.cqApplied
  dsimp only
  repeat' split
  · exact h0
  · exact h0.congr rfl rfl
  · unfold State.refill State.showFull
    refine State.regsBut.setFlag (State.regsBut.foldl ?_ (fun _ _ hu => hu.enterBuffer) _) _ (by simp [bufferFields])
    exact h0.congr rfl rfl

theorem State.ltrIfChanged_regsBut (s : State) (old : Nat) : s.regsBut (s.ltrIfChanged old) [] := by
  unfold State.ltrIfChanged
  split
  · exact s.regsBut_refl _
  · exact (s.regsBut_refl _).congr rfl rfl

theorem State.applyFlds_regs (s : State) (l : List Fld) : (s.applyFlds l).regs = s.regs ∧ (s.applyFlds l).fuse = s.fuse := by
  unfold State.applyFlds
  induction l generalizing s with
  | nil => exact ⟨rfl, rfl⟩
  | cons f l ih => exact ih (s.applyFld f)

theorem State.regsBut.applyFlds {s t : State} {fs : List Fld} (h : s.regsBut t fs) (l : List Fld) : s.regsBut (t.applyFlds l) fs :=
  h.congr (t.applyFlds_regs l).1 (t.applyFlds_regs l).2

theorem State.heqApplied_regsBut (s : State) (k : Nat) (was : Bool) : s.regsBut (s.heqApplied k was) [Reg.HEQ_SEQ k, Reg.HEQ_DROPS] := by
  have h0 := s.regsBut_refl [Reg.HEQ_SEQ k, Reg.HEQ_DROPS]
  unfold State.heqApplied
  dsimp only
  repeat' split
  · exact h0
  · refine State.regsBut.setFld ?_ _ (by simp)
    exact (h0.applyFlds [Reg.HEQ_BASE k, Reg.HEQ_BASE_SIZE_LOG2 k]).congr rfl rfl
  · refine State.regsBut.bump ?_ _ (by simp)
    exact h0.congr rfl rfl

theorem State.cpCtrlWritten_regsBut (s : State) (was : Bool) : s.regsBut (s.cpCtrlWritten was) [Reg.CP_STATUS_LOST] := by
  have h0 := s.regsBut_refl [Reg.CP_STATUS_LOST]
  have halive : s.regsBut (if !was && s.flag Reg.CP_CTRL_ENABLE then { s with ser := { s.ser with anyAlive := true } } else s)
      [Reg.CP_STATUS_LOST] := by
    split
    · exact h0.congr rfl rfl
    · exact h0
  unfold State.cpCtrlWritten
  dsimp only
  by_cases hz : (if !was && s.flag Reg.CP_CTRL_ENABLE then { s with ser := { s.ser with anyAlive := true } } else s).fld
      Reg.CP_CTRL_ALIVE_TIMEOUT = 0
  · rw [if_pos hz]
    exact halive.setFlag _ (by simp)
  · rwa [if_neg hz]

/-- Fields that a write of FREQ may change (R75, R80). -/
def freqFields (c : Nat) : List Fld :=
  [Reg.CLK_STATUS_PLAN_ERR c, Reg.CLK_STATUS_PLAN_PENDING c, Reg.TS_ERR c, Reg.UNIT_READY c, Reg.CLK_STATUS_RELOCKING c, Reg.CLK_STATUS_LOCKED c]

theorem State.regsBut.applyFreq {s t : State} {c : Nat} (h : s.regsBut t (freqFields c)) (v : Nat) :
    s.regsBut (t.applyFreq c v) (freqFields c) := by
  have hrecheck {u : State} (hu : s.regsBut u (freqFields c)) : s.regsBut (u.recheckSets c) (freqFields c) := by
    refine hu.foldl (fun w x hw => ?_) _
    split
    · exact hw
    · exact hw.setFld _ (by simp [freqFields])
  have hpending : s.regsBut (((t.applyVal (Reg.CLK_PLAN_FREQ c) v).setFlag (Reg.CLK_STATUS_PLAN_PENDING c) false).modCluster c
      (fun k => { k with heldFreq := none })) (freqFields c) := by
    have hval : s.regsBut (t.applyVal (Reg.CLK_PLAN_FREQ c) v) (freqFields c) := h.congr rfl rfl
    exact (hval.setFlag (f := Reg.CLK_STATUS_PLAN_PENDING c) false (by simp [freqFields])).congr rfl rfl
  unfold State.applyFreq State.startRelock
  refine State.regsBut.setFlag (State.regsBut.setFlag (State.regsBut.setFlag ?_ _ (by simp [freqFields])) _ (by simp [freqFields])) _
    (by simp [freqFields])
  exact (hrecheck hpending).congr rfl rfl

theorem State.freqWritten_regsBut (s : State) (c : Nat) : s.regsBut (s.freqWritten c) (freqFields c) := by
  have h0 := s.regsBut_refl (freqFields c)
  unfold State.freqWritten
  dsimp only
  repeat' split
  · exact h0.setFlag _ (by simp [freqFields])
  · exact State.regsBut.setFlag ((h0.setFlag (f := Reg.CLK_STATUS_PLAN_ERR c) false (by simp [freqFields])).congr rfl rfl) _ (by simp [freqFields])
  · exact State.regsBut.applyFreq (h0.setFlag _ (by simp [freqFields])) _

/-! ### Memory leaves the quads above its window -/

section AboveMemory

/-- A field of another quad is written. -/
theorem State.quad_setFld_other (s : State) {f : Fld} {a : Nat} (v : Nat) (h : f.addr ≠ a) : (s.setFld f v).quad a = s.quad a :=
  State.quad_setQuad_other _ _ (Ne.symm h)

theorem State.quad_setFlag_other (s : State) {f : Fld} {a : Nat} (b : Bool) (h : f.addr ≠ a) : (s.setFlag f b).quad a = s.quad a :=
  s.quad_setFld_other _ h

theorem State.quad_bump_other (s : State) {f : Fld} {a : Nat} (k : Nat) (h : f.addr ≠ a) : (s.bump f k).quad a = s.quad a :=
  s.quad_setFld_other _ h

/-- An occurrence of an event source changes no quad outside the event window. -/
theorem State.quad_raise (s : State) {n a : Nat} (u i : Nat) (hn : n < 32) (ha : 0x5000 ≤ a) : (s.raise n u i).quad a = s.quad a :=
  (s.raise_regsBut n u i).quad (by simp [Reg.SRC_STAT_COUNT, Reg.SRC_STAT_SAT]; omega)

variable {a : Nat} (ha : 0x5000 ≤ a)
include ha

theorem State.quad_uncorrectable (s : State) (b k : Nat) : (s.uncorrectable b k).quad a = s.quad a := by
  unfold State.uncorrectable
  dsimp only
  split
  · rw [State.quad_bump_other _ _ (by simp [Reg.MMU_UNCORRECTABLE]; omega)]
    rfl
  · rw [State.quad_setFlag_other _ _ (by simp [Reg.ECC_LOG_VALID]; omega), State.quad_setFld_other _ _ (by simp [Reg.ECC_LOG_SOURCE]; omega),
      State.quad_setFld_other _ _ (by simp [Reg.ECC_LOG_DPA]; omega), State.quad_bump_other _ _ (by simp [Reg.MMU_UNCORRECTABLE]; omega)]
    rfl

theorem State.quad_eccBlock (s : State) (k b : Nat) : (State.eccBlock k s b).quad a = s.quad a := by
  unfold State.eccBlock
  dsimp only
  split
  · rfl
  split
  · rfl
  split
  · rfl
  · rw [State.quad_bump_other _ _ (by simp [Reg.MMU_CORRECTED]; omega)]
    rfl
  · rw [State.quad_uncorrectable ha]
    rfl

theorem State.quad_mergeBlocks (s : State) (d n : Nat) : (s.mergeBlocks d n).quad a = s.quad a := by
  unfold State.mergeBlocks
  generalize (blocksOf d n).filter _ = l
  induction l generalizing s with
  | nil => rfl
  | cons b l ih =>
    rw [List.foldl_cons, ih]
    split
    · rw [State.quad_raise _ _ _ (by decide) ha, State.quad_eccBlock ha]
    · exact State.quad_eccBlock ha s 2 b

theorem State.quad_logFault (s : State) (x : MemCtx) (va k : Nat) (e : Option Nat) (w : Bool) :
    (s.logFault x va k e w).quad a = s.quad a := by
  have hn : s.fld Reg.FAULT_HEAD_NEXT < 16 := s.fld_lt _
  unfold State.logFault
  dsimp only
  generalize s.fld Reg.FAULT_HEAD_NEXT = n at hn ⊢
  have hlog {f : Fld} (hf : f.addr < 0x5000) : f.addr ≠ a := by omega
  rw [State.quad_raise _ _ _ (by decide) ha]
  have hcount {t : State} (f : Fld) (hf : f.addr < 0x5000) : (t.bump f 1).quad a = t.quad a := t.quad_bump_other 1 (hlog hf)
  have hfld {t : State} (f : Fld) (v : Nat) (hf : f.addr < 0x5000) : (t.setFld f v).quad a = t.quad a := t.quad_setFld_other v (hlog hf)
  have hflag {t : State} (f : Fld) (b : Bool) (hf : f.addr < 0x5000) : (t.setFlag f b).quad a = t.quad a := hfld f _ hf
  rw [apply_ite (fun t : State => t.quad a), hcount Reg.MMU_PR_TIMEOUTS (by decide), ite_self,
    apply_ite (fun t : State => t.quad a), apply_ite (fun t : State => t.quad a), hcount Reg.MMU_TRANS_FAULTS (by decide),
    hcount Reg.MMU_PERM_FAULTS (by decide), ite_self, ite_self, hfld Reg.FAULT_HEAD_NEXT _ (by decide),
    hflag (Reg.FLOG_ENTRY_ENTRY_VALID n) _ (by simp [Reg.FLOG_ENTRY_ENTRY_VALID]; omega),
    hfld (Reg.FLOG_ENTRY n) _ (by simp [Reg.FLOG_ENTRY]; omega), hfld (Reg.FLOG_CELL_TIME n) _ (by simp [Reg.FLOG_CELL_TIME]; omega),
    hflag (Reg.FLOG_VALID n) _ (by simp [Reg.FLOG_VALID]; omega), hflag (Reg.FLOG_WRITE n) _ (by simp [Reg.FLOG_WRITE]; omega),
    hfld (Reg.FLOG_UNIT n) _ (by simp [Reg.FLOG_UNIT]; omega), hfld (Reg.FLOG_ENGINE n) _ (by simp [Reg.FLOG_ENGINE]; omega),
    hfld (Reg.FLOG_KIND n) _ (by simp [Reg.FLOG_KIND]; omega), hfld (Reg.FLOG_STATUS n) _ (by simp [Reg.FLOG_STATUS]; omega),
    hfld (Reg.FLOG_VA n) _ (by simp [Reg.FLOG_VA]; omega), apply_ite (fun t : State => t.quad a),
    hflag Reg.MMU_STATUS_FAULT_OVERFLOW _ (by decide), ite_self]

theorem State.quad_faultAcc (s : State) (x : MemCtx) (va k : Nat) (e : Option Nat) (w : Bool) :
    (s.faultAcc x va k e w).2.quad a = s.quad a := by
  unfold State.faultAcc
  split
  · exact s.quad_bump_other _ (by simp [Reg.MMU_SPEC_DROPS]; omega)
  · exact State.quad_logFault ha s x va k e w

theorem State.quad_requestPage (s : State) (w : Waiter) (e b : Nat) : (s.requestPage w e b).quad a = s.quad a := by
  unfold State.requestPage
  split
  · rfl
  · rw [State.quad_bump_other _ _ (by simp [Reg.MMU_ATS_REQUESTS]; omega)]
    rfl

theorem State.quad_awaitPage (s : State) (w : Waiter) (e b : Nat) : (s.awaitPage w e b).quad a = s.quad a := by
  unfold State.awaitPage
  dsimp only
  split
  · rfl
  · exact State.quad_requestPage ha s w e b

theorem State.quad_hostPath (s : State) (x : MemCtx) (va d e : Nat) (w m : Bool) : (s.hostPath x va d e w m).2.quad a = s.quad a := by
  unfold State.hostPath
  dsimp only
  split
  · rfl
  split
  · rfl
  split
  · rfl
  split
  · rfl
  · exact State.quad_awaitPage ha s _ _ _

theorem State.quad_writePiece (s : State) (x : MemCtx) (va : Nat) (d : List Byte) (p m : Bool) :
    (s.writePiece x va d p m).2.quad a = s.quad a := by
  unfold State.writePiece
  split
  · exact State.quad_faultAcc ha s x va _ _ _
  split
  · rfl
  split
  · exact State.quad_faultAcc ha s x va _ _ _
  · exact State.quad_mergeBlocks ha s _ _
  · next b e _ =>
    have hp := State.quad_hostPath ha s x va b e true m
    split <;> next heq => rw [heq] at hp; exact hp

theorem State.quad_writePieces (n : Nat) (x : MemCtx) (va : Nat) (d : List Byte) (p : Bool) (s : State) :
    (writePieces n x va d p s).2.quad a = s.quad a := by
  induction n generalizing va d s with
  | zero => rfl
  | succ n ih =>
    unfold writePieces
    split
    · rfl
    dsimp only
    have hp := State.quad_writePiece ha s x va (d.take (4096 - va % 4096)) p (s.goesOn va d.length)
    split
    · next heq =>
      rw [heq] at hp
      rw [ih, hp]
    · exact hp

theorem State.quad_memWrite (s : State) (x : MemCtx) (va : Nat) (d : List Byte) (p : Bool) : (s.memWrite x va d p).2.quad a = s.quad a :=
  State.quad_writePieces ha _ x va d p s

end AboveMemory

/-! ### A queue's configuration stands while it is put in force -/

/-- The quads QBASE and QCFG of a queue. -/
def Reg.queueCfg (n q : Nat) (cfg : Bool) : Nat := 0x50000 + 0x800 * n + 0x400 + 0x40 * q + 8 * b2n cfg

section QueueConfiguration

variable {n q : Nat} {cfg : Bool}

/-- The queue's fields beside its configuration stand in other quads. -/
theorem Reg.queueCfg_apart (o : Nat) (h : 0x10 ≤ o) : Reg.queueB n q + o ≠ Reg.queueCfg n q cfg := by
  have hb := b2n_le_one cfg
  rw [queueB_eq, Reg.queueCfg]
  omega

theorem State.quad_showLevel (s : State) : (s.showLevel n q).quad (Reg.queueCfg n q cfg) = s.quad (Reg.queueCfg n q cfg) :=
  s.quad_setFlag_other _ (Reg.queueCfg_apart 0x28 (by decide))

theorem State.quad_modSeq (s : State) (m : Nat) (f : Seq → Seq) (a : Nat) : (s.modSeq m f).quad a = s.quad a := rfl

theorem State.quad_faultQueue (s : State) (k : Nat) : (s.faultQueue n q k).quad (Reg.queueCfg n q cfg) = s.quad (Reg.queueCfg n q cfg) := by
  unfold State.faultQueue
  rw [State.quad_modSeq]
  exact s.quad_setFlag_other (f := Reg.QSTATUS_FAULT n q) true (Reg.queueCfg_apart 0x28 (by decide))

theorem State.quad_checkMark (s : State) (p : Nat) : (s.checkMark n q p).quad (Reg.queueCfg n q cfg) = s.quad (Reg.queueCfg n q cfg) := by
  unfold State.checkMark
  split
  · rw [State.quad_modSeq]
    refine (State.quad_setFlag_other (f := Reg.QSTATUS_MARK_LOST n q) _ true (Reg.queueCfg_apart 0x28 (by decide))).trans ?_
    exact s.quad_setFlag_other (f := Reg.QSTATUS_MARK_VALID n q) false (Reg.queueCfg_apart 0x28 (by decide))
  · rfl

theorem State.quad_ringPiece (s : State) (p : Nat) (d : List Byte) :
    (s.ringPiece n q p d).2.quad (Reg.queueCfg n q cfg) = s.quad (Reg.queueCfg n q cfg) := by
  have hm := State.quad_memWrite (a := Reg.queueCfg n q cfg) (by rw [Reg.queueCfg]; omega) s (reamCtx n)
    (s.queueBase n q + p % s.queueSize n q) d false
  unfold State.ringPiece
  split
  · rfl
  split
  · next heq => rwa [heq] at hm
  · next heq => rwa [heq] at hm
  · next heq =>
    rw [heq] at hm
    rw [State.quad_checkMark, hm]

theorem State.quad_ringWrite (s : State) (p : Nat) (d : List Byte) :
    (s.ringWrite n q p d).2.quad (Reg.queueCfg n q cfg) = s.quad (Reg.queueCfg n q cfg) := by
  unfold State.ringWrite
  dsimp only
  have hp := s.quad_ringPiece (cfg := cfg) (n := n) (q := q) p (d.take (4096 - (s.queueBase n q + p % s.queueSize n q) % 4096))
  split
  · next heq =>
    rw [heq] at hp
    rw [State.quad_ringPiece, hp]
  · exact hp

theorem State.quad_zeroStart (s : State) : (s.zeroStart n q).quad (Reg.queueCfg n q cfg) = s.quad (Reg.queueCfg n q cfg) := by
  have hp := s.quad_ringWrite (cfg := cfg) (n := n) (q := q) 0 (leBytes 0 2)
  unfold State.zeroStart
  split
  · next heq =>
    rw [heq] at hp
    rwa [State.quad_modSeq]
  · next heq =>
    rw [heq] at hp
    rwa [State.quad_modSeq]
  · next heq =>
    rw [heq] at hp
    rwa [State.quad_faultQueue, State.quad_modSeq]

theorem State.quad_applyQueue (s : State) : (s.applyQueue n q).quad (Reg.queueCfg n q cfg) = s.quad (Reg.queueCfg n q cfg) := by
  unfold State.applyQueue
  rw [State.quad_showLevel, State.quad_zeroStart, State.quad_modSeq,
    State.quad_setFlag_other (f := Reg.QSTATUS_FAULT n q) _ _ (Reg.queueCfg_apart 0x28 (by decide)),
    State.quad_setFlag_other (f := Reg.QSTATUS_MARK_VALID n q) _ _ (Reg.queueCfg_apart 0x28 (by decide)),
    State.quad_setFld_other (f := Reg.Q_MARK n q) _ _ (Reg.queueCfg_apart 0x20 (by decide)),
    State.quad_setFld_other (f := Reg.Q_READ n q) _ _ (Reg.queueCfg_apart 0x18 (by decide)),
    State.quad_setFld_other (f := Reg.Q_COMMIT n q) _ _ (Reg.queueCfg_apart 0x10 (by decide))]

theorem State.quad_applyFlds (s : State) (l : List Fld) (a : Nat) : (s.applyFlds l).quad a = s.quad a := by
  rw [State.quad, State.quad, (s.applyFlds_regs l).1, (s.applyFlds_regs l).2]

theorem State.quad_queueWritten (s : State) : (s.queueWritten n q).quad (Reg.queueCfg n q cfg) = s.quad (Reg.queueCfg n q cfg) := by
  unfold State.queueWritten
  split
  · exact s.quad_modSeq _ _ _
  unfold State.takeQueue
  dsimp only
  rw [apply_ite (fun t : State => t.quad (Reg.queueCfg n q cfg)), State.quad_applyQueue, State.quad_showLevel, ite_self, State.quad_applyFlds]
  exact State.quad_setFlag_other (f := Reg.QSTATUS_CFG_ERR n q) _ _ (Reg.queueCfg_apart 0x28 (by decide))

end QueueConfiguration

/-! ### The quads that configuration writes reach -/

/-- What a write of the bits RW of the quad `a` of row `r` does beside storing leaves those bits, and the CFG_ERR of the window. -/
structure ConfigQuad (a : Nat) (r : Reg.QuadRow) : Prop where
  noTiming : ∀ s : State, s.tsWord a = none
  keeps : ∀ (s old : State) (lo x i : Nat), r.rw.testBit i = true → ((s.wrote old a lo x).quad a).toNat.testBit i = (s.quad a).toNat.testBit i
  errApart : ∀ f, cfgErrOf a = some f → f.addr ≠ a
  errFits : ∀ f, cfgErrOf a = some f → f.lo + f.width ≤ 64 ∧ 0 < f.width
  keepsErr : ∀ f, cfgErrOf a = some f → ∀ (s old : State) (lo x : Nat), (s.wrote old a lo x).flag f = s.flag f

/-- Every CFG_ERR is a bit of a quad. -/
theorem cfgErrOf_fits {a : Nat} {f : Fld} (h : cfgErrOf a = some f) : f.lo + f.width ≤ 64 ∧ 0 < f.width := by
  unfold cfgErrOf at h
  repeat' split at h
  all_goals cases h
  all_goals exact ⟨by decide, by decide⟩

/-- A quad whose write is followed by writes of listed fields of other quads. -/
theorem ConfigQuad.of_fields {a : Nat} {r : Reg.QuadRow} (fs : List Fld) (hts : ∀ s : State, s.tsWord a = none)
    (hw : ∀ (s old : State) (lo x : Nat), s.regsBut (s.wrote old a lo x) fs)
    (ha : ∀ f ∈ fs, f.addr = a → ∀ i, r.rw.testBit i = true → ¬ (f.lo ≤ i ∧ i < f.lo + f.width))
    (herr : ∀ g, cfgErrOf a = some g → g.addr ≠ a ∧ ∀ f ∈ fs, f.addr = g.addr → f.lo + f.width ≤ g.lo ∨ g.lo + g.width ≤ f.lo) :
    ConfigQuad a r where
  noTiming := hts
  keeps s old lo x i hi := hw s old lo x a i (fun f hf hfa => ha f hf hfa i hi)
  errApart g hg := (herr g hg).1
  errFits _ hg := cfgErrOf_fits hg
  keepsErr g hg s old lo x := (hw s old lo x).flag (herr g hg).2

theorem configQuad_clkPlan (c : Fin 32) (r : Reg.QuadRow) : ConfigQuad (0x10000 + 0x2000 * c.val) r := by
  have hc := c.isLt
  have hmod : (0x10000 + 0x2000 * c.val - 0x10000) % 0x2000 = 0 := by omega
  have hdiv : (0x10000 + 0x2000 * c.val - 0x10000) / 0x2000 = c.val := by omega
  refine .of_fields (freqFields c.val) (fun s => ?_) (fun s old lo x => ?_) ?_ ?_
  · unfold State.tsWord
    simp only [hmod]
    rw [if_neg (by omega), if_neg (by decide), if_neg (by decide), if_neg (by decide)]
  · unfold State.wrote State.wroteCluster
    simp only [hmod, hdiv]
    rw [if_neg (by omega), if_pos (by omega), if_pos trivial]
    exact s.freqWritten_regsBut c.val
  · have hu : 0x40 + 8 * (c.val / 64) < 0x10000 := by omega
    simp [freqFields, Reg.CLK_STATUS_PLAN_ERR, Reg.CLK_STATUS_PLAN_PENDING, Reg.TS_ERR, Reg.UNIT_READY, Reg.CLK_STATUS_RELOCKING,
      Reg.CLK_STATUS_LOCKED, Reg.clB]
    omega
  · rw [cfgErrOf_above (by omega)]
    exact nofun

/-- A write of a queue's configuration is followed by the configuration put in force, and by nothing else. -/
theorem State.wrote_queue (s old : State) {n o : Nat} (lo x : Nat) (hn : n < 64) (ho : 0x400 ≤ o ∧ o < 0x600)
    (hq : o % 0x40 = 0 ∨ o % 0x40 = 8) : s.wrote old (0x50000 + 0x800 * n + o) lo x = s.queueWritten n ((o - 0x400) / 0x40) := by
  have hmod : (0x50000 + 0x800 * n + o - 0x50000) % 0x800 = o := by omega
  have hdiv : (0x50000 + 0x800 * n + o - 0x50000) / 0x800 = n := by omega
  unfold State.wrote State.wroteSeq
  simp only [hmod, hdiv]
  rw [if_neg (by omega), if_neg (by omega), if_pos (by omega), if_neg (by omega), if_pos ho, if_pos hq]

theorem configQuad_queue (n : Fin 64) (q : Fin 8) (cfg : Bool) (r : Reg.QuadRow) : ConfigQuad (Reg.queueCfg n.val q.val cfg) r := by
  have hb := b2n_le_one cfg
  have hlow : 0x50000 ≤ Reg.queueCfg n.val q.val cfg := by rw [Reg.queueCfg]; omega
  have hnone : cfgErrOf (Reg.queueCfg n.val q.val cfg) = none := cfgErrOf_above (by omega)
  have hwrote (s old : State) (lo x : Nat) : s.wrote old (Reg.queueCfg n.val q.val cfg) lo x = s.queueWritten n.val q.val := by
    obtain ⟨o, ho, hoq, hob⟩ : ∃ o, o = 0x400 + 0x40 * q.val + 8 * b2n cfg ∧ (o - 0x400) / 0x40 = q.val ∧
        (o % 0x40 = 0 ∨ o % 0x40 = 8) := ⟨_, rfl, by omega, by omega⟩
    have ho2 : 0x400 ≤ o ∧ o < 0x600 := by omega
    have haddr : Reg.queueCfg n.val q.val cfg = 0x50000 + 0x800 * n.val + o := by rw [Reg.queueCfg]; omega
    rw [haddr, s.wrote_queue old lo x n.isLt ho2 hob, hoq]
  refine ⟨fun s => s.tsWord_outside (.inr hlow), fun s old lo x i _ => ?_, ?_, ?_, ?_⟩
  · rw [hwrote, State.quad_queueWritten]
  all_goals
    rw [hnone]
    exact nofun

theorem configQuad_popDomain (r : Reg.QuadRow) : ConfigQuad 0x9008 r := by
  refine .of_fields popTreeFields (fun s => s.tsWord_outside (by decide)) (fun s old lo x => ?_) ?_ ?_
  · simpa [State.wrote, State.wroteLow] using s.showTree_regsBut
  · simp [popTreeFields, Reg.POP_TREE_PARENT, Reg.POP_TREE_DEPTH, Reg.POP_TREE_CHILDREN, Reg.POP_TREE_MAX_DEPTH]
  · simp [cfgErrOf, popTreeFields, Reg.POP_TREE_PARENT, Reg.POP_TREE_DEPTH, Reg.POP_TREE_CHILDREN, Reg.POP_TREE_MAX_DEPTH, Reg.POP_STATUS_CFG_ERR]

theorem configQuad_feltCfg (r : Reg.QuadRow) : ConfigQuad 0x6000 r := by
  refine .of_fields (popTreeFields ++ syncFields) (fun s => s.tsWord_outside (by decide)) (fun s old lo x => ?_) ?_ ?_
  · simpa [State.wrote, State.wroteLow] using State.regsBut_trans s.showTree_regsBut s.showTree.showSync_regsBut
  · simp [popTreeFields, Reg.POP_TREE_PARENT, Reg.POP_TREE_DEPTH, Reg.POP_TREE_CHILDREN, Reg.POP_TREE_MAX_DEPTH, syncFields,
      Reg.FELT_STATUS_SYNC_STATE, Reg.FELT_STATUS_SYNC_PORT, Reg.FELT_STATUS_SYNC_DEPTH, Reg.SRC_STAT_COUNT, Reg.SRC_STAT_SAT]
  · simp [cfgErrOf, popTreeFields, Reg.POP_TREE_PARENT, Reg.POP_TREE_DEPTH, Reg.POP_TREE_CHILDREN, Reg.POP_TREE_MAX_DEPTH, syncFields,
      Reg.FELT_STATUS_SYNC_STATE, Reg.FELT_STATUS_SYNC_PORT, Reg.FELT_STATUS_SYNC_DEPTH, Reg.SRC_STAT_COUNT, Reg.SRC_STAT_SAT,
      Reg.FELT_STATUS_CFG_ERR]

theorem configQuad_region (k : Fin 64) (r : Reg.QuadRow) : ConfigQuad (0x3200 + 8 * k.val) r := by
  have hk := k.isLt
  refine .of_fields [] (fun s => s.tsWord_outside (by omega)) (fun s old lo x => ?_) nofun ?_
  · have hw : s.wrote old (0x3200 + 8 * k.val) lo x = s := by
      unfold State.wrote State.wroteLow
      rw [if_pos (by omega), if_neg (by omega), if_neg (by omega), if_neg (by omega), if_neg (by omega), if_neg (by omega),
        if_neg (by omega), if_neg (by omega), if_neg (by omega), if_neg (by omega)]
    rw [hw]
    exact s.regsBut_refl _
  · rw [cfgErrOf, if_neg (by omega), if_pos (by omega)]
    simp [Reg.MMU_STATUS_CFG_ERR]
    omega

theorem configQuad_sq (q : Fin 256) (r : Reg.QuadRow) : ConfigQuad (0x1400 + 16 * q.val) r := by
  have hq := q.isLt
  refine .of_fields [] (fun s => s.tsWord_outside (by omega)) (fun s old lo x => ?_) nofun ?_
  · unfold State.wrote State.wroteLow
    rw [if_pos (by omega), if_neg (by omega), if_neg (by omega), if_pos (by omega), if_pos (by omega)]
    exact s.sqApplied_regsBut _ _
  · rw [cfgErrOf, if_pos (by omega)]
    simp [Reg.HI_STATUS_CFG_ERR]
    omega

theorem configQuad_cq (q : Fin 256) (r : Reg.QuadRow) : ConfigQuad (0x1408 + 16 * q.val) r := by
  have hq := q.isLt
  refine .of_fields bufferFields (fun s => s.tsWord_outside (by omega)) (fun s old lo x => ?_) ?_ ?_
  · unfold State.wrote State.wroteLow
    rw [if_pos (by omega), if_neg (by omega), if_neg (by omega), if_pos (by omega), if_neg (by omega)]
    exact s.cqApplied_regsBut _ _
  · simp [bufferFields, Reg.HI_MSIX_SENT, Reg.HI_PME_SENT, Reg.HI_STATUS_BUF_FULL]
    omega
  · rw [cfgErrOf, if_pos (by omega)]
    simp [Reg.HI_STATUS_CFG_ERR, bufferFields, Reg.HI_MSIX_SENT, Reg.HI_PME_SENT, Reg.HI_STATUS_BUF_FULL]
    omega

theorem configQuad_pollInterval (r : Reg.QuadRow) : ConfigQuad 0x1008 r := by
  refine .of_fields [] (fun s => s.tsWord_outside (by decide)) (fun s old lo x => ?_) nofun ?_
  · simpa [State.wrote, State.wroteLow] using s.ltrIfChanged_regsBut _
  · simp [cfgErrOf, Reg.HI_STATUS_CFG_ERR]

theorem configQuad_heq (k : Fin 4) (r : Reg.QuadRow) : ConfigQuad (0x4040 + 0x20 * k.val) r := by
  have hk := k.isLt
  have hdiv : (0x4040 + 0x20 * k.val - 0x4040) / 0x20 = k.val := by omega
  refine .of_fields [Reg.HEQ_SEQ k.val, Reg.HEQ_DROPS] (fun s => s.tsWord_outside (by omega)) (fun s old lo x => ?_) ?_ ?_
  · unfold State.wrote State.wroteLow
    rw [if_pos (by omega), if_neg (by omega), if_neg (by omega), if_neg (by omega), if_pos (by omega), hdiv]
    exact s.heqApplied_regsBut _ _
  · simp [Reg.HEQ_SEQ, Reg.HEQ_DROPS]
    omega
  · rw [cfgErrOf, if_neg (by omega), if_neg (by omega), if_pos (by omega)]
    simp [Reg.EVC_STATUS_CFG_ERR, Reg.HEQ_SEQ, Reg.HEQ_DROPS]
    omega

theorem configQuad_cpCtrl {r : Reg.QuadRow} (hrow : Reg.rowOf 0x7100 = some r) : ConfigQuad 0x7100 r := by
  have hrw : (r.rw >>> 36) % 2 = 0 := by
    have h : (Reg.rowOf 0x7100).all (fun r => r.rw >>> 36 % 2 = 0) = true := by decide +kernel
    rw [hrow] at h
    simpa using h
  refine .of_fields [Reg.CP_STATUS_LOST] (fun s => s.tsWord_outside (by decide)) (fun s old lo x => ?_) ?_ ?_
  · have hw : s.wrote old 0x7100 lo x = if lo = 0 then s.cpCtrlWritten (old.flag Reg.CP_CTRL_ENABLE) else s := by
      simp [State.wrote, State.wroteLow]
    rw [hw]
    split
    · exact s.cpCtrlWritten_regsBut _
    · exact s.regsBut_refl _
  · simp [Reg.CP_STATUS_LOST]
    intro i hi h36
    by_contra h37
    obtain rfl : i = 36 := by omega
    simp [Nat.testBit, hrw] at hi
  · simp [cfgErrOf]

/-- An access of a part of an aligned quad reaches that quad, aligned, with a value of its size. -/
theorem partAccess_fits {b a v : Nat} {wide : Bool} {part : RegPart} {x : BitVec 64} (h : partAccess b part x = (a, wide, v)) (hb : b % 8 = 0) :
    a / 8 * 8 = b ∧ a % (if wide then 8 else 4) = 0 ∧ v < 2 ^ (if wide then 64 else 32) := by
  have hx := x.isLt
  have hmod : x.toNat % 2 ^ 32 < 2 ^ 32 := Nat.mod_lt _ (by decide)
  cases part <;> cases h
  · exact ⟨by omega, hb, hx⟩
  · exact ⟨by omega, show b % 4 = 0 by omega, hmod⟩
  · exact ⟨by omega, show (b + 4) % 4 = 0 by omega, hmod⟩

/-- A configuration write is an aligned access of such a quad. -/
theorem configQuad_of_barAccess {i : Instr} {a v : Nat} {wide : Bool} {r : Reg.QuadRow} (h : i.barAccess = some (a, wide, v))
    (hi : ∀ c k part x, i ≠ .timingSetWrite c k part x) (hrow : Reg.rowOf (a / 8 * 8) = some r) :
    ConfigQuad (a / 8 * 8) r ∧ a % (if wide then 8 else 4) = 0 ∧ v < 2 ^ (if wide then 64 else 32) := by
  have hpart {b : Nat} {part : RegPart} {x : BitVec 64} (h : some (partAccess b part x) = some (a, wide, v)) (hb : b % 8 = 0)
      (hq : ConfigQuad b r) : ConfigQuad (a / 8 * 8) r ∧ a % (if wide then 8 else 4) = 0 ∧ v < 2 ^ (if wide then 64 else 32) := by
    obtain ⟨ha, hal, hv⟩ := partAccess_fits (Option.some.inj h) hb
    exact ⟨ha ▸ hq, hal, hv⟩
  have hlow {b : Nat} {x : BitVec 32} (h : some (b, false, x.toNat) = some (a, wide, v)) (hb : b % 4 = 0)
      (hq : ConfigQuad (b / 8 * 8) r) : ConfigQuad (a / 8 * 8) r ∧ a % (if wide then 8 else 4) = 0 ∧ v < 2 ^ (if wide then 64 else 32) := by
    cases h
    exact ⟨hq, hb, x.isLt⟩
  unfold Instr.barAccess at h
  split at h
  case h_1 c part x => exact hpart h (by omega) (configQuad_clkPlan c r)
  case h_2 c k part x => exact absurd rfl (hi c k part x)
  case h_3 n q cfg part x => exact hpart h (by omega) (configQuad_queue n q cfg r)
  case h_4 part x => exact hpart h (by decide) (configQuad_popDomain r)
  case h_5 k part x => exact hpart h (by omega) (configQuad_region k r)
  case h_6 q part x => exact hpart h (by omega) (configQuad_sq q r)
  case h_7 q part x => exact hpart h (by omega) (configQuad_cq q r)
  case h_8 idle x =>
    have hquad : (0x1008 + 4 * b2n idle) / 8 * 8 = 0x1008 := by cases idle <;> decide
    refine hlow h (by cases idle <;> decide) ?_
    rw [hquad]
    exact configQuad_pollInterval r
  case h_9 part x => exact hpart h (by decide) (configQuad_feltCfg r)
  case h_10 x =>
    cases h
    exact ⟨configQuad_cpCtrl hrow, rfl, x.isLt⟩
  case h_11 k part x => exact hpart h (by omega) (configQuad_heq k r)
  case h_12 => cases h

/-! ### What a configuration write leaves in its registers -/

section ConfigWrite

variable {s : State} {a : Nat} {r : Reg.QuadRow} {k : Nat × Bool}

/-- A refused write leaves the quad, and sets CFG_ERR; one that fits stores its value, and clears it. -/
theorem State.putStored_quad (hq : ConfigQuad a r) :
    (s.putStored a k).quad a = if s.quadRefused a k.1 then s.quad a else BitVec.ofNat 64 k.1 := by
  have hset : (if s.quadRefused a k.1 then s else s.setQuad a (BitVec.ofNat 64 k.1)).quad a =
      if s.quadRefused a k.1 then s.quad a else BitVec.ofNat 64 k.1 := by
    split
    · rfl
    · exact s.quad_setQuad_self a _
  unfold State.putStored
  dsimp only
  split
  · next f hf => rw [State.quad_setFlag_other _ _ (hq.errApart f hf), hset]
  · exact hset

theorem State.putStored_err (hq : ConfigQuad a r) (hk : k.2 = false) {f : Fld} (hf : cfgErrOf a = some f) :
    (s.putStored a k).flag f = s.quadRefused a k.1 := by
  obtain ⟨hfit, hpos⟩ := hq.errFits f hf
  unfold State.putStored
  simp only [hf, hk, Bool.or_false]
  exact State.flag_setFlag_self _ f _ hfit hpos

variable {lo w v : Nat}

/-- The registers after a write of a configuration quad that is let through. -/
theorem State.barPut_config (hq : ConfigQuad a r) (hrow : Reg.rowOf a = some r) (hm : r.rw &&& ((2 ^ w - 1) * 2 ^ lo) ≠ 0)
    (hv : v < 2 ^ w) (hwo : v * 2 ^ lo &&& r.wo = 0) (hw1c : v * 2 ^ lo &&& r.w1c = 0)
    (hk : (s.stored r a ((2 ^ w - 1) * 2 ^ lo) (v * 2 ^ lo)).2 = false) (hfit : lo + w ≤ 64) :
    (if s.quadRefused a (s.stored r a ((2 ^ w - 1) * 2 ^ lo) (v * 2 ^ lo)).1 then (s.barPut a lo w v).quad a = s.quad a
      else ∀ j, j < w → r.rw.testBit (lo + j) = true → ((s.barPut a lo w v).quad a).toNat.testBit (lo + j) = v.testBit j) ∧
    (∀ f, cfgErrOf a = some f →
      (s.barPut a lo w v).flag f = s.quadRefused a (s.stored r a ((2 ^ w - 1) * 2 ^ lo) (v * 2 ^ lo)).1) := by
  have hmod : v % 2 ^ w = v := Nat.mod_eq_of_lt hv
  have hany : (r.rw ||| r.w1c ||| r.wo) &&& ((2 ^ w - 1) * 2 ^ lo) ≠ 0 := by
    rw [Nat.and_or_distrib_right, Nat.and_or_distrib_right]
    intro h
    exact hm (Nat.or_eq_zero_iff.mp (Nat.or_eq_zero_iff.mp h).1).1
  have hput := State.barPut_stored (s := s) lo w v hrow (hq.noTiming s) hany (by rwa [hmod])
  rw [hmod] at hput
  have hbits := State.stored_testBit hk
  generalize s.stored r a ((2 ^ w - 1) * 2 ^ lo) (v * 2 ^ lo) = k at hput hk hbits ⊢
  have hquad := State.putStored_quad (s := s) (k := k) hq
  have herr {f : Fld} (hf : cfgErrOf a = some f) := State.putStored_err (s := s) hq hk hf
  dsimp only at hput
  rw [hput]
  cases hr : s.quadRefused a k.1
  · simp only [hr, Bool.false_eq_true, if_false] at hquad herr ⊢
    refine ⟨fun j hj hrw => ?_, fun f hf => by rw [hq.keepsErr f hf, herr hf]⟩
    have hnot : (v * 2 ^ lo).testBit (lo + j) = v.testBit j := by
      rw [Nat.testBit_mul_two_pow]
      simp
    have hclear : (r.w1c.testBit (lo + j) && (v * 2 ^ lo).testBit (lo + j)) = false := by
      rw [Bool.and_comm, ← Nat.testBit_and, hw1c, Nat.zero_testBit]
    have hin : ((2 ^ w - 1) * 2 ^ lo).testBit (lo + j) = true := by
      rw [testBit_fieldMask]
      simp
      omega
    rw [hq.keeps _ _ _ _ _ hrw, hquad, BitVec.toNat_ofNat, Nat.testBit_mod_two_pow, hbits, hrw, hin, hclear, hnot]
    simp
    omega
  · simp only [hr, if_true] at hquad herr ⊢
    exact ⟨hquad, fun f hf => herr hf⟩

end ConfigWrite

/-- A configuration write that is let through, of any part that its row may write. -/
theorem configWrite_registers {i : Instr} {s : State} {a v : Nat} {wide : Bool} {r : Reg.QuadRow} (h : i.barAccess = some (a, wide, v))
    (hi : ∀ c k part x, i ≠ .timingSetWrite c k part x) (hs : s.writable (a / 8 * 8)) (hd : s.writeDenied a = false)
    (hrow : Reg.rowOf (a / 8 * 8) = some r) (hpair : wide = true → pairQuad (a / 8 * 8) = false) :
    exec i s = .next (s.barPut (a / 8 * 8) (a % 8 * 8) (if wide then 64 else 32) v) ∧ ConfigQuad (a / 8 * 8) r ∧
      v < 2 ^ (if wide then 64 else 32) ∧ a % 8 * 8 + (if wide then 64 else 32) ≤ 64 := by
  obtain ⟨hq, hal, hv⟩ := configQuad_of_barAccess h hi hrow
  obtain ⟨hreset, hboot, -, hshut⟩ := hs
  refine ⟨?_, hq, hv, ?_⟩
  · rw [exec_barAccess s h, event_barWrite _ _ _ hreset, State.barWrite_through s v hal hboot hd]
    cases wide
    · simp [State.barAligned, hshut]
    · have hlo : a % 8 = 0 := by simpa using hal
      simp [State.barAligned, hshut, hpair rfl, hlo]
  · cases wide <;> simp at hal ⊢ <;> omega

/-! ### Writes of timing-set entries -/

/-- Rows of the timing-set words are of the cluster window, and have writable bits. -/
theorem Reg.rowOf_timing (c : Fin 32) (k : Fin 7) {r : Reg.QuadRow} (h : Reg.rowOf (0x10000 + 0x2000 * c.val + 0x108 + 8 * k.val) = some r) :
    r.rw &&& (2 ^ 64 - 1) ≠ 0 := by
  have hmod : (0x10000 + 0x2000 * c.val + 0x108 + 8 * k.val - 0x10000) % 0x2000 = 0x108 + 8 * k.val := by omega
  have hrow : Reg.rowOf (0x10000 + 0x2000 * c.val + 0x108 + 8 * k.val) = Reg.findRow Reg.clRows (0x108 + 8 * k.val) := by
    unfold Reg.rowOf
    simp only [hmod]
    repeat rw [if_neg (by omega)]
    rw [if_pos (by omega), if_neg (by omega)]
  have hall : ∀ k : Fin 7, (Reg.findRow Reg.clRows (0x108 + 8 * k.val)).all (fun r => decide (r.rw &&& (2 ^ 64 - 1) ≠ 0)) = true := by
    decide
  have hk := hall k
  rw [← hrow, h] at hk
  simpa using hk

theorem pairQuad_timing (c : Fin 32) (k : Fin 7) : pairQuad (0x10000 + 0x2000 * c.val + 0x108 + 8 * k.val) = false := by
  have hmod : (0x10000 + 0x2000 * c.val + 0x108 + 8 * k.val - 0x10000) % 0x2000 = 0x108 + 8 * k.val := by omega
  unfold pairQuad
  simp only [hmod]
  repeat rw [if_neg (by omega)]
  rw [if_pos (by omega), if_neg (by omega)]
  exact decide_eq_false (by omega)

/-- A set that is applied keeps what is written of every entry. -/
theorem State.applySet_timing (s : State) (c t : Nat) : (s.applySet c t).timing = s.timing := by
  have hfold (l : List Nat) (u : State) : (l.foldl (fun s k => s.setTsApplied k (s.tsOffered k)) u).timing = u.timing := by
    induction l generalizing u with
    | nil => rfl
    | cons k l ih => exact ih _
  unfold State.applySet State.setTsErr
  rw [apply_ite State.timing, State.setFld_timing, State.setFld_timing, hfold, ite_self]

/-- A write of an entry changes what is written of that entry. -/
theorem State.tsWrite_timing (s : State) (key v : Nat) : (s.tsWrite key v).timing = SMap.set (tsDefault key) s.timing key v := by
  unfold State.tsWrite
  dsimp only
  split
  · split <;> rfl
  · exact State.applySet_timing _ _ _

theorem State.tsWritten_tsWrite_self (s : State) (key v : Nat) : (s.tsWrite key v).tsWritten key = v := by
  rw [State.tsWritten, State.tsWrite_timing, SMap.get_set_self]

theorem State.tsWritten_tsWrite_other (s : State) {key j : Nat} (v : Nat) (h : j ≠ key) : (s.tsWrite key v).tsWritten j = s.tsWritten j := by
  rw [State.tsWritten, State.tsWrite_timing, SMap.get_set_other _ _ _ _ h, State.tsWritten]

/-- A timing-set entry written whole. -/
theorem exec_timingSetWrite {s : State} {c : Fin 32} {k : Fin 7} {key : Nat} {r : Reg.QuadRow} (v : BitVec 64)
    (hs : s.writable (0x10000 + 0x2000 * c.val + 0x108 + 8 * k.val))
    (hts : s.tsWord (0x10000 + 0x2000 * c.val + 0x108 + 8 * k.val) = some key)
    (hrow : Reg.rowOf (0x10000 + 0x2000 * c.val + 0x108 + 8 * k.val) = some r) :
    exec (.timingSetWrite c k .whole v) s = .next (s.tsWrite key (mergeBits (s.tsWritten key) r.rw (2 ^ 64 - 1) v.toNat)) := by
  have hal : (0x10000 + 0x2000 * c.val + 0x108 + 8 * k.val) % 8 = 0 := by omega
  have hrw := Reg.rowOf_timing c k hrow
  have hpair := pairQuad_timing c k
  obtain ⟨hreset, hboot, hd, hshut⟩ := hs
  rw [exec_barAccess s (i := .timingSetWrite c k .whole v) rfl, event_barWrite _ _ _ hreset]
  generalize 0x10000 + 0x2000 * c.val + 0x108 + 8 * k.val = a at *
  have hany : (r.rw ||| r.w1c ||| r.wo) &&& (2 ^ 64 - 1) ≠ 0 := by
    rw [Nat.and_or_distrib_right, Nat.and_or_distrib_right]
    intro h
    exact hrw (Nat.or_eq_zero_iff.mp (Nat.or_eq_zero_iff.mp h).1).1
  rw [State.barWrite_through s _ hal hboot hd, State.barAligned_wide s _ hal hshut hpair]
  unfold State.barPut
  simp only [hrow, hts, Nat.pow_zero, Nat.mul_one, if_neg hany, Nat.mod_eq_of_lt v.isLt]

/-- Settles O14: each row's quad is one whose hook leaves the writable bits and the CFG_ERR (`ConfigQuad`). -/
theorem configurationWrites : Obligations.ConfigurationWrites := by
  refine ⟨fun i s a v wide r h hi hs hd hrow hpair hm hwo hw1c hk => ?_, fun s c k v key r hs hts hrow => ?_⟩
  · obtain ⟨hexec, hq, hv, hfit⟩ := configWrite_registers h hi hs hd hrow hpair
    obtain ⟨hquad, herr⟩ := State.barPut_config hq hrow hm hv hwo hw1c hk hfit
    refine ⟨_, hexec, ?_, herr⟩
    generalize State.quadRefused s _ _ = b at hquad ⊢
    cases b
    · exact hquad
    · exact .inl hquad
  · exact ⟨_, exec_timingSetWrite v hs hts hrow, s.tsWritten_tsWrite_self key _, fun j hj => s.tsWritten_tsWrite_other _ hj,
      s.tsWrite_memData key _⟩

end Sys2Proof.Machine
end
section
/-! SUPPORT. Resets of the whole device: what a reset leaves (R434, R474, R494, R505). -/

namespace Sys2Proof.Machine

open Sys2Proof

/-! ### The event lines after a reset -/

/-- The fields that follow the event lines (R450). -/
def evLineFields : List Fld := (List.range 8).flatMap (fun k => [Reg.EV_LINE_ASSERTED k, Reg.EV_LINE_OWN_DRIVE k])

theorem evLineFields_addr {f : Fld} (h : f ∈ evLineFields) : 0x40C0 ≤ f.addr ∧ f.addr < 0x40E0 := by
  have hall : ∀ f ∈ evLineFields, 0x40C0 ≤ f.addr ∧ f.addr < 0x40E0 := by decide
  exact hall f h

theorem evLineFields_mem {k : Nat} (h : k < 8) : Reg.EV_LINE_ASSERTED k ∈ evLineFields ∧ Reg.EV_LINE_OWN_DRIVE k ∈ evLineFields := by
  constructor <;> exact List.mem_flatMap.mpr ⟨k, List.mem_range.mpr h, by simp⟩

section OnlyRegs

variable {s t : State} {fs : List Fld}

theorem State.onlyRegs.setFlag (h : s.onlyRegs t fs) {f : Fld} (b : Bool) (hf : f ∈ fs) : s.onlyRegs (t.setFlag f b) fs :=
  ⟨h.1, h.2.setFlag b hf⟩

/-- A part of the state that is no register. -/
theorem State.onlyRegs.proj {α : Type} (h : s.onlyRegs t fs) (p : State → α) (hp : ∀ (u : State) (m : SMap (BitVec 64)), p { u with regs := m } = p u) :
    p t = p s := by
  rw [← hp t s.regs, h.1]

end OnlyRegs

/-- With no TMU armed an event line starts and gates none. -/
theorem State.tmuEvAssert_idle {s : State} (k : Nat) (h : s.tmus = []) : s.tmuEvAssert k = s :=
  List.foldl_fixed' (fun n => by simp [State.tmu, h, SMap.get, SMap.find]) _

theorem State.tmuEvRelease_idle {s : State} (k : Nat) (h : s.tmus = []) : s.tmuEvRelease k = s :=
  List.foldl_fixed' (fun n => by simp [State.tmu, h, SMap.get, SMap.find]) _

/-- A flag that shows `b`, written where it does not. -/
def State.showFlag (s : State) (f : Fld) (b : Bool) : State := if b = s.flag f then s else s.setFlag f b

/-- One line's ASSERTED and OWN_DRIVE brought up to date. -/
def State.showLine (s : State) (k : Nat) : State :=
  (s.showFlag (Reg.EV_LINE_ASSERTED k) (s.evAsserted k)).showFlag (Reg.EV_LINE_OWN_DRIVE k) (s.line k).own

/-- What follows a line that is newly asserted or released. -/
def State.followLine (s t : State) (k : Nat) : State :=
  if s.evAsserted k && !s.flag (Reg.EV_LINE_ASSERTED k) then
    if bitOf ((t.tmuEvAssert k).fld Reg.PWR_CTRL_WAKE_EV) k then (t.tmuEvAssert k).startExit else t.tmuEvAssert k
  else if !s.evAsserted k && s.flag (Reg.EV_LINE_ASSERTED k) then t.tmuEvRelease k
  else t

theorem State.showLines_eq (s : State) : s.showLines = (List.range 8).foldl (fun s k => s.followLine (s.showLine k) k) s := rfl

theorem State.onlyRegs.showFlag {s t : State} {fs : List Fld} (h : s.onlyRegs t fs) {f : Fld} (b : Bool) (hf : f ∈ fs) :
    s.onlyRegs (t.showFlag f b) fs := by
  unfold State.showFlag
  split
  · exact h
  · exact h.setFlag b hf

theorem State.onlyRegs.showLine {s t : State} (h : s.onlyRegs t evLineFields) {k : Nat} (hk : k < 8) : s.onlyRegs (t.showLine k) evLineFields :=
  (h.showFlag _ (evLineFields_mem hk).1).showFlag _ (evLineFields_mem hk).2

theorem State.followLine_idle (s : State) {t : State} (k : Nat) (htmu : t.tmus = []) (hwake : t.fld Reg.PWR_CTRL_WAKE_EV = 0) :
    s.followLine t k = t := by
  have hbit : ¬ bitOf 0 k = true := by simp [bitOf]
  unfold State.followLine
  rw [State.tmuEvAssert_idle k htmu, State.tmuEvRelease_idle k htmu, hwake, if_neg hbit, ite_self, ite_self]

/-- With no TMU armed and no line that wakes the device, the lines change their own fields alone. -/
theorem State.showLines_idle {s : State} (htmu : s.tmus = []) (hwake : s.fld Reg.PWR_CTRL_WAKE_EV = 0) :
    s.onlyRegs s.showLines evLineFields := by
  have hstep {t : State} (h : s.onlyRegs t evLineFields) {k : Nat} (hk : k < 8) : s.onlyRegs (t.followLine (t.showLine k) k) evLineFields := by
    have hline := h.showLine hk
    have htmu' : (t.showLine k).tmus = [] := (hline.proj State.tmus fun _ _ => rfl).trans htmu
    have hwake' : (t.showLine k).fld Reg.PWR_CTRL_WAKE_EV = 0 := by
      rw [← hwake]
      refine State.fld_of_regsBut hline.2 _ fun f hf ha => absurd (evLineFields_addr hf) ?_
      rw [ha]
      decide
    rwa [State.followLine_idle t k htmu' hwake']
  have hfold (l : List Nat) (hl : ∀ k ∈ l, k < 8) {t : State} (h : s.onlyRegs t evLineFields) :
      s.onlyRegs (l.foldl (fun s k => s.followLine (s.showLine k) k) t) evLineFields := by
    induction l generalizing t with
    | nil => exact h
    | cons k l ih => exact ih (fun j hj => hl j (List.mem_cons_of_mem _ hj)) (hstep h (hl k List.mem_cons_self))
  rw [State.showLines_eq]
  exact hfold _ (fun k hk => List.mem_range.mp hk) (s.onlyRegs_refl _)

/-! ### The state that a reset leaves -/

/-- A reset before the event lines show their drivers: every register at its reset value. -/
def State.afresh (s : State) : State :=
  { State.reset with
    pending := s.pending, draws := s.cutFrame.draws, burned := s.burned, fuse := { variant := s.fuse.variant, oem := s.burned }
    ser := { flash := s.cutFrame.ser.flash }
    mem := { host := s.mem.host, hostPoison := s.mem.hostPoison, hostError := s.mem.hostError }
    ev := { lines := (s.ev.lines.filter (fun l => l.2.outside)).map (fun l => (l.1, { outside := true })) }
    jtag := s.jtag, perst := s.perst, internalReset := s.internalReset, xref := s.xref }

/-- A frame cut short spoils flash, and nothing else. -/
theorem State.cutFrame_eq (s : State) :
    s.cutFrame = { s with draws := s.cutFrame.draws, ser := { s.ser with flash := s.cutFrame.ser.flash } } := by
  unfold State.cutFrame
  split
  · split
    · split <;> rfl
    · rfl
  · rfl

theorem State.wiped_eq (s : State) : s.wiped = s.afresh.showLines := by
  unfold State.wiped
  rw [State.cutFrame_eq]
  rfl

theorem State.afresh_quad (s : State) (a : Nat) : s.afresh.quad a = quadReset s.afresh.fuse a := rfl

theorem State.wiped_onlyRegs (s : State) : s.afresh.onlyRegs s.wiped evLineFields := by
  rw [State.wiped_eq]
  refine State.showLines_idle rfl ?_
  have hspecial : specialReset s.afresh.fuse 0x5000 = 0 := by simp [specialReset]
  have hrow : Reg.rowOf 0x5000 = Reg.findRow Reg.pwrRows 0 := rfl
  rw [State.fld, show Reg.PWR_CTRL_WAKE_EV.addr = 0x5000 from rfl, State.afresh_quad, quadReset, hspecial, hrow]
  decide

/-- The fields that a reset leaves apart from their reset values (R438, R450). -/
def resetFields : List Fld := evLineFields ++ [Reg.RESET_CAUSE_PERST, Reg.RESET_CAUSE_SUPPLY, Reg.RESET_CAUSE_THERMAL]

theorem State.resetBy_onlyRegs (s : State) (supply : Bool) : s.afresh.onlyRegs (s.resetBy supply) resetFields := by
  have h := State.onlyRegs_mono (gs := resetFields) s.wiped_onlyRegs (fun f hf => List.mem_append_left _ hf)
  unfold State.resetBy
  exact ((h.setFlag _ (by simp [resetFields])).setFlag _ (by simp [resetFields])).setFlag _ (by simp [resetFields])

theorem State.resetBy_quad (s : State) (supply : Bool) {a : Nat} (h : a ≠ 0x5058) (hline : ¬ (0x40C0 ≤ a ∧ a < 0x40E0)) :
    (s.resetBy supply).quad a = quadReset s.afresh.fuse a := by
  rw [(s.resetBy_onlyRegs supply).2.quad fun f hf => ?_, State.afresh_quad]
  rw [resetFields, List.mem_append] at hf
  obtain hf | hf := hf
  · rintro rfl
    exact hline (evLineFields_addr hf)
  · simp only [List.mem_cons, List.not_mem_nil, or_false] at hf
    obtain rfl | rfl | rfl := hf <;> exact Ne.symm h

/-- RESET_CAUSE after a reset (R438). -/
theorem State.resetBy_cause (s : State) (supply : Bool) : (s.resetBy supply).flag Reg.RESET_CAUSE_SUPPLY = supply ∧
    (s.resetBy supply).flag Reg.RESET_CAUSE_PERST = !supply ∧ (s.resetBy supply).flag Reg.RESET_CAUSE_THERMAL = s.power.shutdown := by
  unfold State.resetBy
  refine ⟨?_, ?_, State.flag_setFlag_self _ _ _ (by decide) (by decide)⟩
  · rw [State.flag_setFlag_other _ _ _ _ (by decide), State.flag_setFlag_self _ _ _ (by decide) (by decide)]
  · rw [State.flag_setFlag_other _ _ _ _ (by decide), State.flag_setFlag_other _ _ _ _ (by decide),
      State.flag_setFlag_self _ _ _ (by decide) (by decide)]

/-- The lines of the outside drivers alone. -/
theorem find_outside (m : SMap EvLine) (k : Nat) :
    SMap.find ((m.filter (fun l => l.2.outside)).map (fun l => (l.1, ({ outside := true } : EvLine)))) k =
      if m.any (fun l => decide (k = l.1) && l.2.outside) then some { outside := true } else none := by
  induction m with
  | nil => rfl
  | cons x m ih =>
    obtain ⟨j, l⟩ := x
    rw [List.any_cons]
    dsimp only
    cases ho : l.outside
    · rw [Bool.and_false, Bool.false_or, ← ih, List.filter_cons_of_neg (by simp [ho])]
    · rw [List.filter_cons_of_pos (by simpa using ho), List.map_cons, SMap.find]
      by_cases hk : k = j
      · simp [hk]
      · rw [if_neg hk, ih, decide_eq_false hk, Bool.false_and, Bool.false_or]

/-- After a reset a line is asserted where an outside driver holds it. -/
theorem State.resetBy_evAsserted (s : State) (supply : Bool) (k : Nat) :
    (s.resetBy supply).evAsserted k = s.ev.lines.any (fun l => decide (k = l.1) && l.2.outside) := by
  have hev : (s.resetBy supply).ev.lines = s.afresh.ev.lines := (s.resetBy_onlyRegs supply).proj (·.ev.lines) fun _ _ => rfl
  unfold State.evAsserted
  rw [hev]
  unfold SMap.get
  rw [State.afresh, find_outside]
  cases List.any _ _ <;> rfl

theorem any_outside (m : SMap EvLine) (k : Nat) :
    m.any (fun l => decide (k = l.1) && l.2.outside) = true ↔ ∃ l, (k, l) ∈ m ∧ l.outside = true := by
  simp only [List.any_eq_true, Bool.and_eq_true, decide_eq_true_eq, Prod.exists]
  constructor
  · rintro ⟨_, l, hl, rfl, ho⟩
    exact ⟨l, hl, ho⟩
  · rintro ⟨l, hl, ho⟩
    exact ⟨k, l, hl, rfl, ho⟩

/-- A line whose record names an outside driver is listed with it. -/
theorem State.line_outside {s : State} {k : Nat} (h : (s.line k).outside = true) : ∃ l, (k, l) ∈ s.ev.lines ∧ l.outside = true := by
  have hfind {m : SMap EvLine} {l : EvLine} (h : SMap.find m k = some l) : (k, l) ∈ m := by
    induction m with
    | nil => cases h
    | cons x m ih =>
      obtain ⟨j, y⟩ := x
      unfold SMap.find at h
      split at h
      · next hk =>
        cases h
        simp [hk]
      · exact List.mem_cons_of_mem _ (ih h)
  rw [State.line, SMap.get] at h
  cases hl : SMap.find s.ev.lines k with
  | none => simp [hl] at h
  | some l => exact ⟨l, hfind hl, by simpa [hl] using h⟩

/-- What every reset of the device leaves, whatever the pins then say. -/
theorem State.resetBy_leaves (s : State) (supply perst internal xref : Bool) :
    let t : State := { s.resetBy supply with perst := perst, internalReset := internal, xref := xref }
    (∀ a, a ≠ 0x5058 → ¬ (0x40C0 ≤ a ∧ a < 0x40E0) → t.quad a = quadReset t.fuse a) ∧ t.flag Reg.RESET_CAUSE_SUPPLY = supply ∧
      t.flag Reg.RESET_CAUSE_PERST = !t.flag Reg.RESET_CAUSE_SUPPLY ∧ t.flag Reg.RESET_CAUSE_THERMAL = s.power.shutdown ∧
      t.fuse = { variant := s.fuse.variant, oem := s.burned } ∧ t.burned = s.burned ∧ t.mem.cells = [] ∧ t.mem.dtt = [] ∧
      t.mem.host = s.mem.host ∧ t.programs = [] ∧ t.hi = {} ∧ t.sec = {} ∧ t.power = {} ∧ t.pending = s.pending ∧
      ∀ k < 8, ((s.line k).outside = true → t.evAsserted k = true) ∧ (t.evAsserted k = true → ∃ l, (k, l) ∈ s.ev.lines ∧ l.outside = true) := by
  have hr := s.resetBy_onlyRegs supply
  obtain ⟨hsupply, hperst, hthermal⟩ := s.resetBy_cause supply
  have hquad {a : Nat} (ha : a ≠ 0x5058) (hl : ¬ (0x40C0 ≤ a ∧ a < 0x40E0)) := s.resetBy_quad supply ha hl
  have hline := s.resetBy_evAsserted supply
  generalize s.resetBy supply = u at *
  have hfuse : u.fuse = s.afresh.fuse := hr.proj State.fuse fun _ _ => rfl
  refine ⟨fun a ha hl => ?_, hsupply, hperst.trans (congrArg (!·) hsupply.symm), hthermal, hfuse, hr.proj State.burned fun _ _ => rfl,
    hr.proj (·.mem.cells) fun _ _ => rfl, hr.proj (·.mem.dtt) fun _ _ => rfl, hr.proj (·.mem.host) fun _ _ => rfl,
    hr.proj State.programs fun _ _ => rfl, hr.proj State.hi fun _ _ => rfl, hr.proj State.sec fun _ _ => rfl,
    hr.proj State.power fun _ _ => rfl, hr.proj State.pending fun _ _ => rfl, fun k _ => ⟨fun h => ?_, fun h => ?_⟩⟩
  · exact (hquad ha hl).trans (congrArg (quadReset · a) hfuse.symm)
  · exact (hline k).trans ((any_outside _ k).mpr (State.line_outside h))
  · exact (any_outside _ k).mp ((hline k).symm.trans h)

/-! ### The rows of the resets -/

/-- A row whose effect leaves the waiting commands answers that effect. -/
theorem always_next {k : State → State} {s : State} (h : (k s).pending = s.pending) : always k s = .next (k s) := by
  unfold always answer
  rw [← h]

theorem State.resetBy_pending (s : State) (supply : Bool) : (s.resetBy supply).pending = s.pending :=
  (s.resetBy_onlyRegs supply).proj State.pending fun _ _ => rfl

theorem State.resetBy_pins (s : State) (supply : Bool) :
    (s.resetBy supply).perst = s.perst ∧ (s.resetBy supply).internalReset = s.internalReset ∧ (s.resetBy supply).xref = s.xref :=
  ⟨(s.resetBy_onlyRegs supply).proj State.perst fun _ _ => rfl, (s.resetBy_onlyRegs supply).proj State.internalReset fun _ _ => rfl,
    (s.resetBy_onlyRegs supply).proj State.xref fun _ _ => rfl⟩

section ResetRows

variable (s : State)

theorem exec_perstAssert : exec .perstAssert s = .next (if s.perst then s else { s.resetBy false with perst := true }) := by
  refine always_next ?_
  have hp := s.resetBy_pending false
  unfold doPerstAssert
  generalize s.resetBy false = u at *
  split
  · rfl
  · exact hp

theorem exec_perst (x : Bool) :
    exec (.perst x) s = .next { (if s.perst then s else s.resetBy false) with perst := false, xref := x } := by
  refine always_next ?_
  have hp := s.resetBy_pending false
  unfold doPerst
  generalize s.resetBy false = u at *
  cases s.perst
  · exact hp
  · rfl

theorem State.supplyLost_pending : s.supplyLost.pending = s.pending := by
  have hp := s.resetBy_pending true
  unfold State.supplyLost
  generalize s.resetBy true = u at *
  split
  · rfl
  · exact hp

theorem exec_supplyReset (r : Fin 8) : exec (.supplyReset r) s = .next s.supplyLost := always_next s.supplyLost_pending

theorem exec_referenceLoss : exec .referenceLoss s = .next s.supplyLost := always_next s.supplyLost_pending

theorem exec_internalResetRelease : exec .internalResetRelease s = .next { s with internalReset := false } := always_next rfl

variable {s}

theorem State.supplyLost_held (h : s.perst = true) : s.supplyLost = { s with internalReset := true } := if_pos h

theorem State.supplyLost_free (h : s.perst = false) : s.supplyLost = { s.resetBy true with internalReset := true } :=
  if_neg (by simp [h])

end ResetRows

/-- A reset while PERST# is released: the state that it leaves, with the pins as its row says. -/
theorem exec_reset {s t : State} {i : Instr} (h : exec i s = .next t) (hp : s.perst = false)
    (hi : i = .perstAssert ∨ (∃ x, i = .perst x) ∨ (∃ r, i = .supplyReset r) ∨ i = .referenceLoss) :
    ∃ xref, t = { s.resetBy (decide (i = .referenceLoss) || decide (∃ r, i = .supplyReset r)) with
      perst := decide (i = .perstAssert),
      internalReset := s.internalReset || decide (i = .referenceLoss) || decide (∃ r, i = .supplyReset r), xref := xref } := by
  have hpins (b : Bool) := s.resetBy_pins b
  have hassert := exec_perstAssert s
  have hrelease := exec_perst s
  have hlost := State.supplyLost_free hp
  generalize s.resetBy = z at *
  rw [hp] at hassert
  simp only [hp, Bool.false_eq_true, if_false] at hassert hrelease
  obtain rfl | ⟨x, rfl⟩ | ⟨r, rfl⟩ | rfl := hi
  · cases hassert.symm.trans h
    refine ⟨(z false).xref, ?_⟩
    simp only [reduceCtorEq, exists_false, decide_false, decide_true, Bool.or_false, ← (hpins false).2.1]
  · cases (hrelease x).symm.trans h
    refine ⟨x, ?_⟩
    simp only [reduceCtorEq, exists_false, decide_false, Bool.or_false, ← (hpins false).2.1]
  · have hr : ∃ r', Instr.supplyReset r = .supplyReset r' := ⟨r, rfl⟩
    cases (exec_supplyReset s r).symm.trans h
    refine ⟨(z true).xref, ?_⟩
    simp only [hlost, hr, reduceCtorEq, decide_false, decide_true, Bool.or_true, ← hp, ← (hpins true).1]
  · cases (exec_referenceLoss s).symm.trans h
    refine ⟨(z true).xref, ?_⟩
    simp only [hlost, reduceCtorEq, exists_false, decide_false, decide_true, Bool.or_true, Bool.true_or, ← hp, ← (hpins true).1]

end Sys2Proof.Machine
end
section
/-! SUPPORT. The part of the state that programs, the boot and the host hold on to: the firmware image that runs, the contents of
flash, the programs of the groups, and the completions on their way. Which operations leave it. -/

namespace Sys2Proof.Machine

open Sys2Proof

set_option linter.unusedTactic false
set_option linter.unreachableTactic false
set_option linter.unusedSimpArgs false

/-- The image that runs, flash, the programs, and the completions in the buffer or held by their units. -/
structure Anchors where
  running : Option FwImage
  flash : SMap Byte
  programs : SMap Program
  outbox : List Completion

/-- What an operation on registers, pins, memory or an instrument leaves. -/
def State.anchors (s : State) : Anchors := ⟨s.sec.running, s.ser.flash, s.programs, s.hi.buffer ++ s.hi.unitHeld⟩

@[simp] theorem State.anchors_update (t : State) {x_pending x_regs x_applied x_timing x_timingApplied x_fuse x_burned x_perst
    x_internalReset x_xref x_ev x_mem x_held x_pins x_groups x_starts x_seqs x_rings x_clusters x_tmus x_awgs x_dgs x_dps
    x_swgHeld x_popTests x_dma x_felt x_power x_cals x_units x_jtag x_causes x_popInput x_draws} : State.anchors (State.mk
    x_pending x_regs x_applied x_timing x_timingApplied x_fuse x_burned x_perst x_internalReset x_xref t.hi x_ev x_mem x_held
    x_pins x_groups t.programs x_starts x_seqs x_rings x_clusters x_tmus x_awgs x_dgs x_dps x_swgHeld x_popTests x_dma x_felt
    x_power t.sec x_cals t.ser x_units x_jtag x_causes x_popInput x_draws) = t.anchors := rfl

@[simp] theorem State.anchors_update_hi (t : State) {x_pending x_regs x_applied x_timing x_timingApplied x_fuse x_burned
    x_perst x_internalReset x_xref y_sq y_cq y_dispatched y_accepted y_lastFirst y_thisFirst y_turn y_blocked y_statusDue y_epoch
    y_busMaster y_msixEnable y_functionMask y_atsEnable y_priEnable y_priAllocation y_pmeEnable y_pmeStatus y_d3hot y_unmasked
    y_msixTable y_pba y_deferred y_l1Exit y_ltr y_roundLines x_ev x_mem x_held x_pins x_groups x_starts x_seqs x_rings x_clusters
    x_tmus x_awgs x_dgs x_dps x_swgHeld x_popTests x_dma x_felt x_power x_cals x_units x_jtag x_causes x_popInput x_draws} :
    State.anchors (State.mk x_pending x_regs x_applied x_timing x_timingApplied x_fuse x_burned x_perst x_internalReset x_xref
    (HostIf.mk y_sq y_cq t.hi.buffer t.hi.unitHeld y_dispatched y_accepted y_lastFirst y_thisFirst y_turn y_blocked y_statusDue
    y_epoch y_busMaster y_msixEnable y_functionMask y_atsEnable y_priEnable y_priAllocation y_pmeEnable y_pmeStatus y_d3hot
    y_unmasked y_msixTable y_pba y_deferred y_l1Exit y_ltr y_roundLines) x_ev x_mem x_held x_pins x_groups t.programs x_starts
    x_seqs x_rings x_clusters x_tmus x_awgs x_dgs x_dps x_swgHeld x_popTests x_dma x_felt x_power t.sec x_cals t.ser x_units
    x_jtag x_causes x_popInput x_draws) = t.anchors := rfl

@[simp] theorem State.anchors_update_sec (t : State) {x_pending x_regs x_applied x_timing x_timingApplied x_fuse x_burned
    x_perst x_internalReset x_xref x_ev x_mem x_held x_pins x_groups x_starts x_seqs x_rings x_clusters x_tmus x_awgs x_dgs x_dps
    x_swgHeld x_popTests x_dma x_felt x_power y_log y_measured y_periodStart y_images y_isPartial y_sites y_signatures x_cals
    x_units x_jtag x_causes x_popInput x_draws} : State.anchors (State.mk x_pending x_regs x_applied x_timing x_timingApplied
    x_fuse x_burned x_perst x_internalReset x_xref t.hi x_ev x_mem x_held x_pins x_groups t.programs x_starts x_seqs x_rings
    x_clusters x_tmus x_awgs x_dgs x_dps x_swgHeld x_popTests x_dma x_felt x_power (Sec.mk y_log y_measured y_periodStart
    y_images y_isPartial y_sites t.sec.running y_signatures) x_cals t.ser x_units x_jtag x_causes x_popInput x_draws) = t.anchors
    := rfl

@[simp] theorem State.anchors_update_ser (t : State) {x_pending x_regs x_applied x_timing x_timingApplied x_fuse x_burned
    x_perst x_internalReset x_xref x_ev x_mem x_held x_pins x_groups x_starts x_seqs x_rings x_clusters x_tmus x_awgs x_dgs x_dps
    x_swgHeld x_popTests x_dma x_felt x_power x_cals y_dir y_lines y_reading y_wanted y_cont y_retried y_sections y_jobs
    y_anyAlive y_timed y_flags y_reply y_closures x_units x_jtag x_causes x_popInput x_draws} : State.anchors (State.mk x_pending
    x_regs x_applied x_timing x_timingApplied x_fuse x_burned x_perst x_internalReset x_xref t.hi x_ev x_mem x_held x_pins
    x_groups t.programs x_starts x_seqs x_rings x_clusters x_tmus x_awgs x_dgs x_dps x_swgHeld x_popTests x_dma x_felt x_power
    t.sec x_cals (Serial.mk t.ser.flash y_dir y_lines y_reading y_wanted y_cont y_retried y_sections y_jobs y_anyAlive y_timed
    y_flags y_reply y_closures) x_units x_jtag x_causes x_popInput x_draws) = t.anchors := rfl

@[simp] theorem State.anchors_ite (c : Prop) [Decidable c] (s t : State) :
    (if c then s else t).anchors = if c then s.anchors else t.anchors := apply_ite _ _ _ _

@[simp] theorem State.anchors_ite_snd {α : Type} (c : Prop) [Decidable c] (s t : α × State) :
    (if c then s else t).2.anchors = if c then s.2.anchors else t.2.anchors := by split <;> rfl

@[simp] theorem State.anchors_foldl {α : Type} (f : State → α → State) (h : ∀ s a, (f s a).anchors = s.anchors) (l : List α)
    (s : State) : (l.foldl f s).anchors = s.anchors := by
  induction l generalizing s with
  | nil => rfl
  | cons a l ih => simp [ih, h]

@[simp] theorem State.setQuad_anchors (s : State) (a : Nat) (v : BitVec 64) :
    (State.setQuad s a v).anchors = s.anchors := by
  simp [State.setQuad]

@[simp] theorem State.setFld_anchors (s : State) (f : Fld) (v : Nat) :
    (State.setFld s f v).anchors = s.anchors := by
  simp [State.setFld]

@[simp] theorem State.setFlag_anchors (s : State) (f : Fld) (b : Bool) :
    (State.setFlag s f b).anchors = s.anchors := by
  simp [State.setFlag]

@[simp] theorem State.bump_anchors (s : State) (f : Fld) (k : Nat) :
    (State.bump s f k).anchors = s.anchors := by
  simp [State.bump]

@[simp] theorem State.applyVal_anchors (s : State) (f : Fld) (v : Nat) :
    (State.applyVal s f v).anchors = s.anchors := by
  simp [State.applyVal]

@[simp] theorem State.applyFld_anchors (s : State) (f : Fld) :
    (State.applyFld s f).anchors = s.anchors := by
  simp [State.applyFld]

@[simp] theorem State.applyFlds_anchors (s : State) (l : List Fld) :
    (State.applyFlds s l).anchors = s.anchors := by
  simp [State.applyFlds]

@[simp] theorem State.raiseAt_anchors (s : State) (n : Nat) (unit : Nat) (info : Nat) (t : Nat) :
    (State.raiseAt s n unit info t).anchors = s.anchors := by
  simp [State.raiseAt]

@[simp] theorem State.raise_anchors (s : State) (n : Nat) (unit : Nat) (info : Nat) :
    (State.raise s n unit info).anchors = s.anchors := by
  simp [State.raise]

@[simp] theorem State.sendMsix_anchors (s : State) (_v : Nat) :
    (State.sendMsix s _v).anchors = s.anchors := by
  simp [State.sendMsix]

@[simp] theorem State.deliverVector_anchors (s : State) (v : Nat) :
    (State.deliverVector s v).anchors = s.anchors := by
  simp [State.deliverVector]

@[simp] theorem State.moderateCq_anchors (s : State) (q : Nat) :
    (State.moderateCq s q).anchors = s.anchors := by
  simp [State.moderateCq]

@[simp] theorem State.released_anchors (s : State) (c : Cmd) :
    (State.released s c).anchors = s.anchors := by
  unfold State.released; (repeat' (first | with_reducible rfl | (simp []; done) | (split <;> try (rename_i heq; obtain ⟨_, rfl⟩ := Prod.ext_iff.mp heq)) | refine (State.anchors_foldl _ (fun _ _ => ?_) _ _).trans ?_ | dsimp only | simp []))

@[simp] theorem State.writeDpa_anchors (s : State) (a : Nat) (data : List Byte) (poison : Bool) :
    (State.writeDpa s a data poison).anchors = s.anchors := by
  simp [State.writeDpa]

@[simp] theorem State.writeHost_anchors (s : State) (a : Nat) (data : List Byte) (poison : Bool) :
    (State.writeHost s a data poison).anchors = s.anchors := by
  simp [State.writeHost]

@[simp] theorem State.uncorrectable_anchors (s : State) (block : Nat) (source : Nat) :
    (State.uncorrectable s block source).anchors = s.anchors := by
  simp [State.uncorrectable]

@[simp] theorem State.eccBlock_anchors (source : Nat) (s : State) (block : Nat) :
    (State.eccBlock source s block).anchors = s.anchors := by
  unfold State.eccBlock; (repeat' (first | with_reducible rfl | (simp []; done) | (split <;> try (rename_i heq; obtain ⟨_, rfl⟩ := Prod.ext_iff.mp heq)) | refine (State.anchors_foldl _ (fun _ _ => ?_) _ _).trans ?_ | dsimp only | simp []))

@[simp] theorem State.mergeBlocks_anchors (s : State) (a : Nat) (n : Nat) :
    (State.mergeBlocks s a n).anchors = s.anchors := by
  simp [State.mergeBlocks]

@[simp] theorem State.logFault_anchors (s : State) (x : MemCtx) (va : Nat) (k : Nat) (entry : Option Nat) (write : Bool) :
    (State.logFault s x va k entry write).anchors = s.anchors := by
  simp [State.logFault]

@[simp] theorem State.touchRange_anchors (s : State) (r : AtcRange) :
    (State.touchRange s r).anchors = s.anchors := by
  simp [State.touchRange]

@[simp] theorem State.requestPage_anchors (s : State) (w : Waiter) (entry : Nat) (base : Nat) :
    (State.requestPage s w entry base).anchors = s.anchors := by
  simp [State.requestPage]

@[simp] theorem State.awaitPage_anchors (s : State) (w : Waiter) (entry : Nat) (base : Nat) :
    (State.awaitPage s w entry base).anchors = s.anchors := by
  simp [State.awaitPage]

@[simp] theorem State.hostPath_anchors (s : State) (x : MemCtx) (va : Nat) (a : Nat) (entry : Nat) (write : Bool) (more : Bool) :
    (State.hostPath s x va a entry write more).2.anchors = s.anchors := by
  unfold State.hostPath; dsimp only; (repeat' split) <;> simp []

@[simp] theorem State.faultAcc_anchors (s : State) (x : MemCtx) (va : Nat) (k : Nat) (entry : Option Nat) (write : Bool) :
    (State.faultAcc s x va k entry write).2.anchors = s.anchors := by
  simp [State.faultAcc]

@[simp] theorem State.poisonAcc_anchors (s : State) (x : MemCtx) (va : Nat) (k : Nat) (entry : Nat) (data : List Byte) :
    (State.poisonAcc s x va k entry data).2.anchors = s.anchors := by
  simp [State.poisonAcc]

@[simp] theorem State.poisonDelivered_anchors (s : State) (bad : List Nat) :
    (State.poisonDelivered s bad).anchors = s.anchors := by
  simp [State.poisonDelivered]

@[simp] theorem State.readPiece_anchors (s : State) (x : MemCtx) (va : Nat) (n : Nat) (more : Bool) :
    (State.readPiece s x va n more).2.anchors = s.anchors := by
  unfold State.readPiece
  split
  · simp
  · split
    · rfl
    · split
      · simp
      · split
        · simp
        · dsimp only
          (repeat' split) <;> simp
      · rename_i a e _
        split
        · simp
        · have h := State.hostPath_anchors s x va a e false more
          split
          · rename_i heq
            rw [heq] at h
            split
            · simpa using h
            · split
              · simpa using h
              · simpa using h
          all_goals (rename_i heq; rw [heq] at h; simpa using h)

@[simp] theorem readPieces_anchors (v0 : Nat) (v1 : MemCtx) (v2 : Nat) (v3 : Nat) (s : State) :
    (readPieces v0 v1 v2 v3 s).2.anchors = s.anchors := by
  induction v0 generalizing v1 v2 v3 s with
  | zero => rfl
  | succ fuel ih =>
    simp only [readPieces]
    split
    · rfl
    · have h := State.readPiece_anchors s v1 v2 (min v3 (4096 - v2 % 4096)) (s.goesOn v2 v3)
      split
      · rename_i d p s1 heq
        rw [heq] at h
        have h2 := ih v1 (v2 + min v3 (4096 - v2 % 4096)) (v3 - min v3 (4096 - v2 % 4096)) s1
        split
        · rename_i heq2
          rw [heq2] at h2
          exact h2.trans h
        · exact h2.trans h
      · exact h

@[simp] theorem State.memRead_anchors (s : State) (x : MemCtx) (va : Nat) (n : Nat) :
    (State.memRead s x va n).2.anchors = s.anchors := by
  simp [State.memRead]

@[simp] theorem State.writePiece_anchors (s : State) (x : MemCtx) (va : Nat) (data : List Byte) (poison : Bool) (more : Bool) :
    (State.writePiece s x va data poison more).2.anchors = s.anchors := by
  unfold State.writePiece
  split
  · simp
  · split
    · rfl
    · split
      · simp
      · simp
      · rename_i a e _
        have h := State.hostPath_anchors s x va a e true more
        split <;> (rename_i heq; rw [heq] at h; simpa using h)

@[simp] theorem writePieces_anchors (v0 : Nat) (v1 : MemCtx) (v2 : Nat) (v3 : List Byte) (v4 : Bool) (s : State) :
    (writePieces v0 v1 v2 v3 v4 s).2.anchors = s.anchors := by
  induction v0 generalizing v1 v2 v3 v4 s with
  | zero => rfl
  | succ fuel ih =>
    simp only [writePieces]
    split
    · rfl
    · have h := State.writePiece_anchors s v1 v2 (v3.take (4096 - v2 % 4096)) v4 (s.goesOn v2 v3.length)
      split
      · rename_i heq
        rw [heq] at h
        exact (ih _ _ _ _ _).trans h
      · exact h

@[simp] theorem State.memWrite_anchors (s : State) (x : MemCtx) (va : Nat) (data : List Byte) (poison : Bool) :
    (State.memWrite s x va data poison).2.anchors = s.anchors := by
  simp [State.memWrite]

@[simp] theorem State.abandon_anchors (s : State) (engine : Nat) (unit : Nat) :
    (State.abandon s engine unit).anchors = s.anchors := by
  simp [State.abandon]

@[simp] theorem State.modSeq_anchors (s : State) (n : Nat) (f : Seq → Seq) :
    (State.modSeq s n f).anchors = s.anchors := by
  simp [State.modSeq]

@[simp] theorem State.modPin_anchors (s : State) (p : Nat) (f : Pin → Pin) :
    (State.modPin s p f).anchors = s.anchors := by
  simp [State.modPin]

@[simp] theorem State.showElastic_anchors (s : State) (n : Nat) :
    (State.showElastic s n).anchors = s.anchors := by
  simp [State.showElastic]

@[simp] theorem State.applyVoltages_anchors (s : State) (l : List Fld) :
    (State.applyVoltages s l).anchors = s.anchors := by
  simp [State.applyVoltages]

@[simp] theorem State.applyCurrent_anchors (s : State) (step : Int) (f : Fld) :
    (State.applyCurrent s step f).anchors = s.anchors := by
  simp [State.applyCurrent]

@[simp] theorem State.applyLevelSet_anchors (s : State) (p : Nat) (k : Nat) :
    (State.applyLevelSet s p k).anchors = s.anchors := by
  simp [State.applyLevelSet]

@[simp] theorem State.applyClamps_anchors (s : State) (p : Nat) :
    (State.applyClamps s p).anchors = s.anchors := by
  simp [State.applyClamps]

@[simp] theorem State.applyThreshold_anchors (s : State) (p : Nat) :
    (State.applyThreshold s p).anchors = s.anchors := by
  simp [State.applyThreshold]

@[simp] theorem State.applyPpmu_anchors (s : State) (p : Nat) :
    (State.applyPpmu s p).anchors = s.anchors := by
  simp [State.applyPpmu]

@[simp] theorem State.showCeiling_anchors (s : State) (p : Nat) :
    (State.showCeiling s p).anchors = s.anchors := by
  simp [State.showCeiling]

@[simp] theorem State.applyPin_anchors (s : State) (p : Nat) :
    (State.applyPin s p).anchors = s.anchors := by
  simp [State.applyPin]

@[simp] theorem State.pinWritten_anchors (s : State) (p : Nat) :
    (State.pinWritten s p).anchors = s.anchors := by
  simp [State.pinWritten]

@[simp] theorem State.modCluster_anchors (s : State) (c : Nat) (f : Cluster → Cluster) :
    (State.modCluster s c f).anchors = s.anchors := by
  simp [State.modCluster]

@[simp] theorem State.feltSend_anchors (s : State) (dest : Nat) (typ : Nat) (tid : Nat) (poison : Nat) (flits : List Nat) :
    (State.feltSend s dest typ tid poison flits).anchors = s.anchors := by
  simp [State.feltSend]

@[simp] theorem State.sendReduce_anchors (s : State) (dest : Nat) (test : Nat) (round : Nat) (kind : Nat) (check : Nat) (body : List Byte) :
    (State.sendReduce s dest test round kind check body).anchors = s.anchors := by
  simp [State.sendReduce]

@[simp] theorem State.modPop_anchors (s : State) (k : Nat) (f : PopTest → PopTest) :
    (State.modPop s k f).anchors = s.anchors := by
  unfold State.modPop; (repeat' split) <;> simp []

@[simp] theorem State.showTree_anchors (s : State) :
    (State.showTree s).anchors = s.anchors := by
  simp [State.showTree]

@[simp] theorem State.workTouch_anchors (s : State) (t : PopTest) (off : Nat) (n : Nat) :
    (State.workTouch s t off n).2.anchors = s.anchors := by
  unfold State.workTouch; (repeat' split) <;> (first | (simp []; done) | grind [State.memRead_anchors, State.memWrite_anchors])

@[simp] theorem State.workStore_anchors (s : State) (t : PopTest) (v2 : List (Nat × List Byte)) :
    (State.workStore s t v2).2.anchors = s.anchors := by
  induction v2 generalizing s with
  | nil => rfl
  | cons x l ih =>
    obtain ⟨off, data⟩ := x
    have h := State.memWrite_anchors s popCtx (t.work + off) data false
    unfold State.workStore
    split
    · rename_i heq
      rw [heq] at h
      exact (ih _).trans h
    all_goals (rename_i heq; rw [heq] at h; exact h)

@[simp] theorem State.popAsk_anchors (s : State) (k : Nat) (l : List PopOp) :
    (State.popAsk s k l).anchors = s.anchors := by
  simp [State.popAsk]

@[simp] theorem State.tellFollowers_anchors (s : State) (k : Nat) :
    (State.tellFollowers s k).anchors = s.anchors := by
  simp [State.tellFollowers]

@[simp] theorem State.tellChildren_anchors (s : State) (t : PopTest) (kind : Nat) (body : List Byte) :
    (State.tellChildren s t kind body).anchors = s.anchors := by
  simp [State.tellChildren]

@[simp] theorem State.failTest_anchors (s : State) (k : Nat) (st : Nat) :
    (State.failTest s k st).anchors = s.anchors := by
  unfold State.failTest; (repeat' split) <;> simp []

theorem popGo_anchors (k : Nat) (r : Work × State) (f : List Byte → State → PopRun) (s : State) (hr : r.2.anchors = s.anchors)
    (hf : ∀ d u, u.anchors = s.anchors → (f d u).s.anchors = s.anchors) : (popGo k r f).s.anchors = s.anchors := by
  obtain ⟨w, u⟩ := r
  change u.anchors = s.anchors at hr
  cases w with
  | done d => exact hf d u hr
  | wait => exact hr
  | fail p => simpa [popGo] using hr

@[simp] theorem State.popRecord_anchors (s : State) (k : Nat) (t : PopTest) (r : PopReading) : (s.popRecord k t r).s.anchors = s.anchors := by
  unfold State.popRecord
  repeat' (first | with_reducible rfl | with_reducible assumption | (simp [*]; done) | split | (refine popGo_anchors _ _ _ _ ?_ (fun _ _ _ => ?_)) | dsimp only)

@[simp] theorem State.popClose_anchors (s : State) (k : Nat) (t : PopTest)  : (s.popClose k t).s.anchors = s.anchors := by
  unfold State.popClose
  repeat' (first | with_reducible rfl | with_reducible assumption | (simp [*]; done) | split | (refine popGo_anchors _ _ _ _ ?_ (fun _ _ _ => ?_)) | dsimp only)

@[simp] theorem State.popSend_anchors (s : State) (k : Nat) (t : PopTest)  : (s.popSend k t).s.anchors = s.anchors := by
  unfold State.popSend
  repeat' (first | with_reducible rfl | with_reducible assumption | (simp [*]; done) | split | (refine popGo_anchors _ _ _ _ ?_ (fun _ _ _ => ?_)) | dsimp only)

@[simp] theorem State.popMerge_anchors (s : State) (k : Nat) (t : PopTest) (src covered : Nat) (late : Bool) (u o : Nat) (bins : List Nat) : (s.popMerge k t src covered late u o bins).s.anchors = s.anchors := by
  unfold State.popMerge
  dsimp only
  split
  · simp
  · split
    · simp
    · split
      · simp
      · have h := State.workTouch_anchors s t 0x4000 (4 * t.bins)
        split <;> (rename_i heq; rw [heq] at h)
        · exact popGo_anchors _ _ _ _ (by simpa using h) (fun _ _ hu => by simpa using hu)
        · exact h
        · simpa using h

@[simp] theorem State.popFinal_anchors (s : State) (k : Nat) (t : PopTest) (time : Nat) : (s.popFinal k t time).s.anchors = s.anchors := by
  unfold State.popFinal
  repeat' (first | with_reducible rfl | with_reducible assumption | (simp [*]; done) | split | (refine popGo_anchors _ _ _ _ ?_ (fun _ _ _ => ?_)) | dsimp only)

@[simp] theorem State.popFinalFrom_anchors (s : State) (k : Nat) (t : PopTest) (body : List Byte) : (s.popFinalFrom k t body).s.anchors = s.anchors := by
  unfold State.popFinalFrom
  repeat' (first | with_reducible rfl | with_reducible assumption | (simp [*]; done) | split | (refine popGo_anchors _ _ _ _ ?_ (fun _ _ _ => ?_)) | dsimp only)

@[simp] theorem State.popResolve_anchors (s : State) (k : Nat) (t : PopTest)  : (s.popResolve k t).s.anchors = s.anchors := by
  unfold State.popResolve
  repeat' (first | with_reducible rfl | with_reducible assumption | (simp [*]; done) | split | (refine popGo_anchors _ _ _ _ ?_ (fun _ _ _ => ?_)) | dsimp only)

@[simp] theorem State.popUndo_anchors (s : State) (k : Nat) (t : PopTest) (site : Nat) : (s.popUndo k t site).s.anchors = s.anchors := by
  unfold State.popUndo
  repeat' (first | with_reducible rfl | with_reducible assumption | (simp [*]; done) | split | (refine popGo_anchors _ _ _ _ ?_ (fun _ _ _ => ?_)) | dsimp only)

@[simp] theorem State.holdPin_anchors (s : State) (g : Program) (x : SitePos) (p : Nat) (i : Nat) (j : Nat) :
    (State.holdPin s g x p i j).anchors = s.anchors := by
  simp [State.holdPin]

@[simp] theorem State.applyHold_anchors (s : State) (b : Nat) (g : Program) (positions : Nat) :
    (State.applyHold s b g positions).anchors = s.anchors := by
  simp [State.applyHold]

@[simp] theorem State.showBuffer_anchors (s : State) (n : Nat) :
    (State.showBuffer s n).anchors = s.anchors := by
  simp [State.showBuffer]

@[simp] theorem State.showRing_anchors (s : State) (g : Nat) :
    (State.showRing s g).anchors = s.anchors := by
  simp [State.showRing]

@[simp] theorem State.leaveRing_anchors (s : State) (lag : Bool) (n : Nat) :
    (State.leaveRing s lag n).anchors = s.anchors := by
  unfold State.leaveRing; (repeat' split) <;> simp []

@[simp] theorem State.idleStreams_anchors (s : State) (b : Nat) :
    (State.idleStreams s b).anchors = s.anchors := by
  simp [State.idleStreams]

@[simp] theorem State.showExec_anchors (s : State) (b : Nat) :
    (State.showExec s b).anchors = s.anchors := by
  unfold State.showExec; (repeat' split) <;> simp []

@[simp] theorem State.setTsWritten_anchors (s : State) (key : Nat) (v : Nat) :
    (State.setTsWritten s key v).anchors = s.anchors := by
  simp [State.setTsWritten]

@[simp] theorem State.setTsApplied_anchors (s : State) (key : Nat) (v : Nat) :
    (State.setTsApplied s key v).anchors = s.anchors := by
  simp [State.setTsApplied]

@[simp] theorem State.setTsErr_anchors (s : State) (c : Nat) (t : Nat) (b : Bool) :
    (State.setTsErr s c t b).anchors = s.anchors := by
  simp [State.setTsErr]

@[simp] theorem State.applySet_anchors (s : State) (c : Nat) (t : Nat) :
    (State.applySet s c t).anchors = s.anchors := by
  simp [State.applySet]

@[simp] theorem State.recheckSets_anchors (s : State) (c : Nat) :
    (State.recheckSets s c).anchors = s.anchors := by
  simp [State.recheckSets]

@[simp] theorem State.startRelock_anchors (s0 : State) (c : Nat) :
    (State.startRelock s0 c).anchors = s0.anchors := by
  simp [State.startRelock]

@[simp] theorem State.applyFreq_anchors (s : State) (c : Nat) (v : Nat) :
    (State.applyFreq s c v).anchors = s.anchors := by
  simp [State.applyFreq]

@[simp] theorem State.freqWritten_anchors (s : State) (c : Nat) :
    (State.freqWritten s c).anchors = s.anchors := by
  simp [State.freqWritten]

@[simp] theorem State.tsWrite_anchors (s : State) (key : Nat) (v : Nat) :
    (State.tsWrite s key v).anchors = s.anchors := by
  simp [State.tsWrite]

@[simp] theorem State.applyDeskew_anchors (s : State) (c : Nat) (i : Nat) :
    (State.applyDeskew s c i).anchors = s.anchors := by
  simp [State.applyDeskew]

@[simp] theorem State.deskewWritten_anchors (s : State) (p : Nat) :
    (State.deskewWritten s p).anchors = s.anchors := by
  simp [State.deskewWritten]

@[simp] theorem State.releaseTiming_anchors (s : State) (c : Nat) (f : Nat → Bool) :
    (State.releaseTiming s c f).anchors = s.anchors := by
  simp [State.releaseTiming]

@[simp] theorem State.releasePins_anchors (s : State) (n : Nat) :
    (State.releasePins s n).anchors = s.anchors := by
  simp [State.releasePins]

@[simp] theorem State.takePeriods_anchors (s : State) (c : Nat) :
    (State.takePeriods s c).anchors = s.anchors := by
  unfold State.takePeriods; (repeat' (first | with_reducible rfl | (simp []; done) | (split <;> try (rename_i heq; obtain ⟨_, rfl⟩ := Prod.ext_iff.mp heq)) | refine (State.anchors_foldl _ (fun _ _ => ?_) _ _).trans ?_ | dsimp only | simp []))

@[simp] theorem State.releaseCluster_anchors (s : State) (c : Nat) :
    (State.releaseCluster s c).anchors = s.anchors := by
  simp [State.releaseCluster]

@[simp] theorem State.keepEntries_anchors (s : State) (n : Nat) (k : Nat) :
    (State.keepEntries s n k).anchors = s.anchors := by
  simp [State.keepEntries]

@[simp] theorem State.departGroup_anchors (s : State) (b : Nat) (lag : Bool) :
    (State.departGroup s b lag).anchors = s.anchors := by
  simp [State.departGroup]

@[simp] theorem State.dropRingFrom_anchors (s : State) (g : Nat) (k : Nat) :
    (State.dropRingFrom s g k).anchors = s.anchors := by
  simp [State.dropRingFrom]

@[simp] theorem State.alignStreams_anchors (s : State) (b : Nat) :
    (State.alignStreams s b).anchors = s.anchors := by
  unfold State.alignStreams; (repeat' (first | with_reducible rfl | (simp []; done) | (split <;> try (rename_i heq; obtain ⟨_, rfl⟩ := Prod.ext_iff.mp heq)) | refine (State.anchors_foldl _ (fun _ _ => ?_) _ _).trans ?_ | dsimp only | simp []))

@[simp] theorem State.showSiteRegs_anchors (s : State) (b : Nat) (l : List Nat) :
    (State.showSiteRegs s b l).anchors = s.anchors := by
  simp [State.showSiteRegs]

@[simp] theorem State.showStreamSeq_anchors (s : State) (b : Nat) (v : Nat) :
    (State.showStreamSeq s b v).anchors = s.anchors := by
  simp [State.showStreamSeq]

@[simp] theorem State.showFrames_anchors (s : State) (n : Nat) :
    (State.showFrames s n).anchors = s.anchors := by
  simp [State.showFrames]

@[simp] theorem State.bumpMembers_anchors (s : State) (b : Nat) (f : Nat → Fld) :
    (State.bumpMembers s b f).anchors = s.anchors := by
  simp [State.bumpMembers]

@[simp] theorem State.discardReadings_anchors (s : State) (b : Nat) (snap : Nat) :
    (State.discardReadings s b snap).anchors = s.anchors := by
  simp [State.discardReadings]

@[simp] theorem State.showFreezes_anchors (s : State) :
    (State.showFreezes s).anchors = s.anchors := by
  simp [State.showFreezes]

@[simp] theorem State.raiseIdle_anchors (s : State) :
    (State.raiseIdle s).anchors = s.anchors := by
  simp [State.raiseIdle]

@[simp] theorem State.unpinFrames_anchors (s : State) (n : Nat) :
    (State.unpinFrames s n).anchors = s.anchors := by
  simp [State.unpinFrames]

@[simp] theorem State.abandonGroup_anchors (s : State) (b : Nat) :
    (State.abandonGroup s b).anchors = s.anchors := by
  simp [State.abandonGroup]

@[simp] theorem State.modDps_anchors (s : State) (n : Nat) (f : Dps → Dps) :
    (State.modDps s n f).anchors = s.anchors := by
  simp [State.modDps]

@[simp] theorem State.showTrip_anchors (s : State) (n : Nat) :
    (State.showTrip s n).anchors = s.anchors := by
  simp [State.showTrip]

@[simp] theorem State.showTrips_anchors (s : State) (l : Nat) :
    (State.showTrips s l).anchors = s.anchors := by
  simp [State.showTrips]

@[simp] theorem State.applyDps_anchors (s : State) (n : Nat) : (s.applyDps n).anchors = s.anchors := by
  unfold State.applyDps
  extract_lets ok moved s1 s2 s3
  have h1 : s1.anchors = s.anchors := by
    unfold s1
    split <;> simp
  have h2 : s2.anchors = s.anchors := by simp [s2, h1]
  have h3 : s3.anchors = s.anchors := by
    unfold s3
    split <;> simp [h2]
  rw [State.showTrips_anchors, h3]

@[simp] theorem State.dpsWritten_anchors (s : State) (n : Nat) :
    (State.dpsWritten s n).anchors = s.anchors := by
  simp [State.dpsWritten]

@[simp] theorem State.takeDps_anchors (s : State) (n : Nat) :
    (State.takeDps s n).anchors = s.anchors := by
  simp [State.takeDps]

@[simp] theorem State.dpsRelease_anchors (s : State) (n : Nat) :
    (State.dpsRelease s n).anchors = s.anchors := by
  simp [State.dpsRelease]

@[simp] theorem State.applySwg_anchors (s : State) (k : Nat) :
    (State.applySwg s k).anchors = s.anchors := by
  simp [State.applySwg]

@[simp] theorem State.swgWritten_anchors (s : State) (k : Nat) :
    (State.swgWritten s k).anchors = s.anchors := by
  simp [State.swgWritten]

@[simp] theorem State.dpsDropSince_anchors (s : State) (b : Nat) (serial : Nat) :
    (State.dpsDropSince s b serial).anchors = s.anchors := by
  simp [State.dpsDropSince]

@[simp] theorem State.modTmu_anchors (s : State) (n : Nat) (f : Tmu → Tmu) :
    (State.modTmu s n f).anchors = s.anchors := by
  simp [State.modTmu]

@[simp] theorem State.applyTmu_anchors (s : State) (n : Nat) :
    (State.applyTmu s n).anchors = s.anchors := by
  simp [State.applyTmu]

@[simp] theorem State.tmuWritten_anchors (s : State) (n : Nat) :
    (State.tmuWritten s n).anchors = s.anchors := by
  simp [State.tmuWritten]

@[simp] theorem State.takeTmu_anchors (s : State) (n : Nat) :
    (State.takeTmu s n).anchors = s.anchors := by
  simp [State.takeTmu]

@[simp] theorem State.tmuRelease_anchors (s : State) (n : Nat) :
    (State.tmuRelease s n).anchors = s.anchors := by
  simp [State.tmuRelease]

@[simp] theorem State.tmuIdle_anchors (s : State) (n : Nat) :
    (State.tmuIdle s n).anchors = s.anchors := by
  simp [State.tmuIdle]

@[simp] theorem State.modAwg_anchors (s : State) (c : Nat) (f : Awg → Awg) :
    (State.modAwg s c f).anchors = s.anchors := by
  simp [State.modAwg]

@[simp] theorem State.showShared_anchors (s : State) (c : Nat) :
    (State.showShared s c).anchors = s.anchors := by
  simp [State.showShared]

@[simp] theorem State.applyAwg_anchors (s : State) (c : Nat) :
    (State.applyAwg s c).anchors = s.anchors := by
  simp [State.applyAwg]

@[simp] theorem State.awgWritten_anchors (s : State) (c : Nat) :
    (State.awgWritten s c).anchors = s.anchors := by
  simp [State.awgWritten]

@[simp] theorem State.takeAwg_anchors (s : State) (c : Nat) :
    (State.takeAwg s c).anchors = s.anchors := by
  simp [State.takeAwg]

@[simp] theorem State.awgRelease_anchors (s : State) (c : Nat) :
    (State.awgRelease s c).anchors = s.anchors := by
  simp [State.awgRelease]

@[simp] theorem State.modDg_anchors (s : State) (c : Nat) (f : Dg → Dg) :
    (State.modDg s c f).anchors = s.anchors := by
  simp [State.modDg]

@[simp] theorem State.showDgCal_anchors (s : State) (c : Nat) :
    (State.showDgCal s c).anchors = s.anchors := by
  simp [State.showDgCal]

@[simp] theorem State.applyDg_anchors (s : State) (c : Nat) :
    (State.applyDg s c).anchors = s.anchors := by
  simp [State.applyDg]

@[simp] theorem State.dgWritten_anchors (s : State) (c : Nat) (ring : Bool) :
    (State.dgWritten s c ring).anchors = s.anchors := by
  simp [State.dgWritten]

@[simp] theorem State.takeDg_anchors (s : State) (c : Nat) :
    (State.takeDg s c).anchors = s.anchors := by
  simp [State.takeDg]

@[simp] theorem State.dgRelease_anchors (s : State) (c : Nat) :
    (State.dgRelease s c).anchors = s.anchors := by
  simp [State.dgRelease]

@[simp] theorem State.dgIdle_anchors (s : State) (c : Nat) :
    (State.dgIdle s c).anchors = s.anchors := by
  simp [State.dgIdle]

@[simp] theorem State.endContinuous_anchors (s : State) :
    (State.endContinuous s).anchors = s.anchors := by
  unfold State.endContinuous; (repeat' (first | with_reducible rfl | (simp []; done) | (split <;> try (rename_i heq; obtain ⟨_, rfl⟩ := Prod.ext_iff.mp heq)) | refine (State.anchors_foldl _ (fun _ _ => ?_) _ _).trans ?_ | dsimp only | simp []))

@[simp] theorem State.readyToProgram_anchors (s : State) :
    (State.readyToProgram s).anchors = s.anchors := by
  simp [State.readyToProgram]

@[simp] theorem State.setBase_anchors (s : State) (kind : Nat) (unit : Nat) (i : Nat) (w : Nat) :
    (State.setBase s kind unit i w).anchors = s.anchors := by
  simp [State.setBase]

@[simp] theorem State.setQuality_anchors (s : State) (c : Nat) (q : Nat) :
    (State.setQuality s c q).anchors = s.anchors := by
  simp [State.setQuality]

@[simp] theorem State.calCtrlWritten_anchors (s : State) (c : Nat) :
    (State.calCtrlWritten s c).anchors = s.anchors := by
  simp [State.calCtrlWritten]

@[simp] theorem State.cpCtrlWritten_anchors (s : State) (was : Bool) :
    (State.cpCtrlWritten s was).anchors = s.anchors := by
  simp [State.cpCtrlWritten]

@[simp] theorem State.showLevel_anchors (s : State) (n : Nat) (q : Nat) :
    (State.showLevel s n q).anchors = s.anchors := by
  simp [State.showLevel]

@[simp] theorem State.checkMark_anchors (s : State) (n : Nat) (q : Nat) (pos : Nat) :
    (State.checkMark s n q pos).anchors = s.anchors := by
  simp [State.checkMark]

@[simp] theorem State.ringPiece_anchors (s : State) (n : Nat) (q : Nat) (pos : Nat) (d : List Byte) :
    (State.ringPiece s n q pos d).2.anchors = s.anchors := by
  unfold State.ringPiece; (repeat' (first | with_reducible rfl | (simp []; done) | (split <;> try (rename_i heq; obtain ⟨_, rfl⟩ := Prod.ext_iff.mp heq)) | refine (State.anchors_foldl _ (fun _ _ => ?_) _ _).trans ?_ | dsimp only | simp []))

@[simp] theorem State.ringWrite_anchors (s : State) (n : Nat) (q : Nat) (pos : Nat) (d : List Byte) :
    (State.ringWrite s n q pos d).2.anchors = s.anchors := by
  unfold State.ringWrite; (repeat' (first | with_reducible rfl | (simp []; done) | (split <;> try (rename_i heq; obtain ⟨_, rfl⟩ := Prod.ext_iff.mp heq)) | refine (State.anchors_foldl _ (fun _ _ => ?_) _ _).trans ?_ | dsimp only | simp []))

@[simp] theorem State.faultQueue_anchors (s : State) (n : Nat) (q : Nat) (k : Nat) :
    (State.faultQueue s n q k).anchors = s.anchors := by
  simp [State.faultQueue]

@[simp] theorem State.zeroStart_anchors (s : State) (n : Nat) (q : Nat) :
    (State.zeroStart s n q).anchors = s.anchors := by
  unfold State.zeroStart; (repeat' (first | with_reducible rfl | (simp []; done) | (split <;> try (rename_i heq; obtain ⟨_, rfl⟩ := Prod.ext_iff.mp heq)) | refine (State.anchors_foldl _ (fun _ _ => ?_) _ _).trans ?_ | dsimp only | simp []))

@[simp] theorem State.applyQueue_anchors (s : State) (n : Nat) (q : Nat) :
    (State.applyQueue s n q).anchors = s.anchors := by
  simp [State.applyQueue]

@[simp] theorem State.takeQueue_anchors (s : State) (n : Nat) (q : Nat) :
    (State.takeQueue s n q).anchors = s.anchors := by
  simp [State.takeQueue]

@[simp] theorem State.queueWritten_anchors (s : State) (n : Nat) (q : Nat) :
    (State.queueWritten s n q).anchors = s.anchors := by
  simp [State.queueWritten]

@[simp] theorem State.takeLimits_anchors (s : State) (n : Nat) :
    (State.takeLimits s n).anchors = s.anchors := by
  simp [State.takeLimits]

@[simp] theorem State.limitsWritten_anchors (s : State) (n : Nat) :
    (State.limitsWritten s n).anchors = s.anchors := by
  simp [State.limitsWritten]

@[simp] theorem State.releaseSeq_anchors (s : State) (n : Nat) :
    (State.releaseSeq s n).anchors = s.anchors := by
  simp [State.releaseSeq]

@[simp] theorem State.clearCrossed_anchors (s : State) (n : Nat) (q : Nat) :
    (State.clearCrossed s n q).anchors = s.anchors := by
  simp [State.clearCrossed]

@[simp] theorem State.modSq_anchors (s : State) (q : Nat) (f : SubQueue → SubQueue) :
    (State.modSq s q f).anchors = s.anchors := by
  simp [State.modSq]

@[simp] theorem State.modCq_anchors (s : State) (q : Nat) (f : ComQueue → ComQueue) :
    (State.modCq s q f).anchors = s.anchors := by
  simp [State.modCq]

@[simp] theorem State.statusChanged_anchors (s : State) (q : Nat) :
    (State.statusChanged s q).anchors = s.anchors := by
  simp [State.statusChanged]

@[simp] theorem State.showPolling_anchors (s : State) :
    (State.showPolling s).anchors = s.anchors := by
  simp [State.showPolling]

@[simp] theorem State.ltrIfChanged_anchors (s : State) (old : Nat) :
    (State.ltrIfChanged s old).anchors = s.anchors := by
  simp [State.ltrIfChanged]

@[simp] theorem State.showFull_anchors (s : State) :
    (State.showFull s).anchors = s.anchors := by
  simp [State.showFull]

@[simp] theorem State.sqApplied_anchors (s : State) (q : Nat) (was : Bool) :
    (State.sqApplied s q was).anchors = s.anchors := by
  simp [State.sqApplied]

@[simp] theorem State.modHeq_anchors (s : State) (k : Nat) (f : EventQueue → EventQueue) :
    (State.modHeq s k f).anchors = s.anchors := by
  simp [State.modHeq]

@[simp] theorem State.heqApplied_anchors (s : State) (k : Nat) (was : Bool) :
    (State.heqApplied s k was).anchors = s.anchors := by
  simp [State.heqApplied]

@[simp] theorem State.modPort_anchors (s : State) (p : Nat) (f : FeltPort → FeltPort) :
    (State.modPort s p f).anchors = s.anchors := by
  simp [State.modPort]

@[simp] theorem State.clearHop_anchors (s : State) (p : Nat) :
    (State.clearHop s p).anchors = s.anchors := by
  simp [State.clearHop]

@[simp] theorem State.portEnter_anchors (s : State) (p : Nat) (st : Nat) :
    (State.portEnter s p st).anchors = s.anchors := by
  simp [State.portEnter]

@[simp] theorem State.startRetrain_anchors (s : State) (p : Nat) :
    (State.startRetrain s p).anchors = s.anchors := by
  simp [State.startRetrain]

@[simp] theorem State.showPorts_anchors (s : State) :
    (State.showPorts s).anchors = s.anchors := by
  simp [State.showPorts]

@[simp] theorem State.setSync_anchors (s : State) (k : Nat) :
    (State.setSync s k).anchors = s.anchors := by
  simp [State.setSync]

@[simp] theorem State.showSync_anchors (s : State) :
    (State.showSync s).anchors = s.anchors := by
  unfold State.showSync; (repeat' (first | with_reducible rfl | (simp []; done) | (split <;> try (rename_i heq; obtain ⟨_, rfl⟩ := Prod.ext_iff.mp heq)) | refine (State.anchors_foldl _ (fun _ _ => ?_) _ _).trans ?_ | dsimp only | simp []))

@[simp] theorem State.showAllReady_anchors (s : State) :
    (State.showAllReady s).anchors = s.anchors := by
  simp [State.showAllReady]

@[simp] theorem doSensorReadmit_anchors (k : Nat) (s : State) :
    (doSensorReadmit k s).anchors = s.anchors := by
  simp [doSensorReadmit]

@[simp] theorem State.zeroQuads_anchors (s : State) (a : Nat) (n : Nat) :
    (State.zeroQuads s a n).anchors = s.anchors := by
  simp [State.zeroQuads]

@[simp] theorem State.clearCounts_anchors (s : State) (a : Nat) :
    (State.clearCounts s a).anchors = s.anchors := by
  simp [State.clearCounts]

@[simp] theorem State.wroteCluster_anchors (s : State) (a : Nat) (lo : Nat) :
    (State.wroteCluster s a lo).anchors = s.anchors := by
  simp [State.wroteCluster]

@[simp] theorem State.wroteSeq_anchors (s : State) (a : Nat) (x : Nat) :
    (State.wroteSeq s a x).anchors = s.anchors := by
  simp [State.wroteSeq]

@[simp] theorem State.wroteAnalog_anchors (s : State) (a : Nat) (lo : Nat) :
    (State.wroteAnalog s a lo).anchors = s.anchors := by
  simp [State.wroteAnalog]

@[simp] theorem State.badAccess_anchors (s : State) (a : Nat) :
    (State.badAccess s a).anchors = s.anchors := by
  simp [State.badAccess]

@[simp] theorem State.security_anchors (s : State) (info : Nat) :
    (State.security s info).anchors = s.anchors := by
  simp [State.security]

@[simp] theorem State.unitEvent_anchors (s : State) (u : Nat) (code : Nat) :
    (State.unitEvent s u code).anchors = s.anchors := by
  simp [State.unitEvent]

@[simp] theorem State.unitStarted_anchors (s : State) (u : Nat) (ok : Bool) :
    (State.unitStarted s u ok).anchors = s.anchors := by
  simp [State.unitStarted]

@[simp] theorem State.checkCertificate_anchors (s : State) (x : Directory) :
    (State.checkCertificate s x).anchors = s.anchors := by
  simp [State.checkCertificate]

@[simp] theorem State.loadBank_anchors (s : State) (x : Directory) : (s.loadBank x).anchors = s.anchors := by
  unfold State.loadBank
  extract_lets a b k h r t
  have ht : t.anchors = s.anchors := by simp [t]
  split
  · rfl
  · split
    · rfl
    · rw [State.anchors_update_ser, ht]

@[simp] theorem State.loadUsage_anchors (s : State) :
    (State.loadUsage s).anchors = s.anchors := by
  simp [State.loadUsage]

@[simp] theorem State.loadCal_anchors (s : State) :
    (State.loadCal s).anchors = s.anchors := by
  unfold State.loadCal; (repeat' (first | with_reducible rfl | (simp []; done) | (split <;> try (rename_i heq; obtain ⟨_, rfl⟩ := Prod.ext_iff.mp heq)) | refine (State.anchors_foldl _ (fun _ _ => ?_) _ _).trans ?_ | dsimp only | simp []))

@[simp] theorem State.loadRetired_anchors (s : State) :
    (State.loadRetired s).anchors = s.anchors := by
  unfold State.loadRetired; (repeat' (first | with_reducible rfl | (simp []; done) | (split <;> try (rename_i heq; obtain ⟨_, rfl⟩ := Prod.ext_iff.mp heq)) | refine (State.anchors_foldl _ (fun _ _ => ?_) _ _).trans ?_ | dsimp only | simp []))

@[simp] theorem State.releaseWrites_anchors (s : State) (b : Nat) :
    (State.releaseWrites s b).anchors = s.anchors := by
  simp [State.releaseWrites]

/-! ### Operations that completions come with -/

/-- All of it but the completions. -/
def Anchors.inward (a : Anchors) : Anchors := { a with outbox := [] }

@[simp] theorem State.inward_update (t : State) {x_pending x_regs x_applied x_timing x_timingApplied x_fuse x_burned x_perst
    x_internalReset x_xref x_hi x_ev x_mem x_held x_pins x_groups x_starts x_seqs x_rings x_clusters x_tmus x_awgs x_dgs x_dps
    x_swgHeld x_popTests x_dma x_felt x_power x_cals x_units x_jtag x_causes x_popInput x_draws} : (State.mk x_pending x_regs
    x_applied x_timing x_timingApplied x_fuse x_burned x_perst x_internalReset x_xref x_hi x_ev x_mem x_held x_pins x_groups
    t.programs x_starts x_seqs x_rings x_clusters x_tmus x_awgs x_dgs x_dps x_swgHeld x_popTests x_dma x_felt x_power t.sec
    x_cals t.ser x_units x_jtag x_causes x_popInput x_draws).anchors.inward = t.anchors.inward := rfl

@[simp] theorem Anchors.inward_ite (c : Prop) [Decidable c] (a b : Anchors) :
    (if c then a else b).inward = if c then a.inward else b.inward := apply_ite _ _ _ _

@[simp] theorem State.inward_foldl {α : Type} (f : State → α → State) (h : ∀ s a, (f s a).anchors.inward = s.anchors.inward)
    (l : List α) (s : State) : (l.foldl f s).anchors.inward = s.anchors.inward := by
  induction l generalizing s with
  | nil => rfl
  | cons a l ih => simp [ih, h]

@[simp] theorem State.complete_inward (s : State) (c : Cmd) (st res : Nat) :
    (s.complete c st res).anchors.inward = s.anchors.inward := by
  simp [State.anchors, Anchors.inward]

@[simp] theorem State.storeFails_inward (s : State) (asks : List StoreAsk) :
    (State.storeFails s asks).anchors.inward = s.anchors.inward := by
  simp [State.storeFails]

@[simp] theorem State.startJob_inward (v0 : Nat) (s : State) :
    (State.startJob v0 s).anchors.inward = s.anchors.inward := by
  induction v0 generalizing s <;> unfold State.startJob <;> (repeat' (first | with_reducible rfl | (simp [*]; done) | (split <;> try (rename_i heq; obtain ⟨_, rfl⟩ := Prod.ext_iff.mp heq)) | refine (State.inward_foldl _ (fun _ _ => ?_) _ _).trans ?_ | dsimp only | simp []))

@[simp] theorem State.requestStore_inward (s : State) (ask : Option StoreAsk) :
    (State.requestStore s ask).anchors.inward = s.anchors.inward := by
  simp [State.requestStore]

@[simp] theorem State.enterBuffer_inward (s : State) :
    (State.enterBuffer s).anchors.inward = s.anchors.inward := by
  unfold State.enterBuffer; (repeat' (first | with_reducible rfl | (simp []; done) | (split <;> try (rename_i heq; obtain ⟨_, rfl⟩ := Prod.ext_iff.mp heq)) | refine (State.inward_foldl _ (fun _ _ => ?_) _ _).trans ?_ | dsimp only | simp []))

@[simp] theorem State.refill_inward (s : State) :
    (State.refill s).anchors.inward = s.anchors.inward := by
  simp [State.refill]

@[simp] theorem State.cqApplied_inward (s : State) (q : Nat) (was : Bool) :
    (State.cqApplied s q was).anchors.inward = s.anchors.inward := by
  simp [State.cqApplied]

@[simp] theorem State.wroteLow_inward (s : State) (old : State) (a : Nat) (lo : Nat) (x : Nat) :
    (State.wroteLow s old a lo x).anchors.inward = s.anchors.inward := by
  simp [State.wroteLow]

@[simp] theorem State.wrote_inward (s : State) (old : State) (a : Nat) (lo : Nat) (x : Nat) :
    (State.wrote s old a lo x).anchors.inward = s.anchors.inward := by
  simp [State.wrote]

@[simp] theorem State.barPut_inward (s : State) (a : Nat) (lo : Nat) (w : Nat) (v : Nat) :
    (State.barPut s a lo w v).anchors.inward = s.anchors.inward := by
  unfold State.barPut; (repeat' (first | with_reducible rfl | (simp []; done) | (split <;> try (rename_i heq; obtain ⟨_, rfl⟩ := Prod.ext_iff.mp heq)) | refine (State.inward_foldl _ (fun _ _ => ?_) _ _).trans ?_ | dsimp only | simp []))

@[simp] theorem State.barAligned_inward (s : State) (a : Nat) (wide : Bool) (v : Nat) :
    (State.barAligned s a wide v).anchors.inward = s.anchors.inward := by
  simp [State.barAligned]

@[simp] theorem State.barForce_inward (s : State) (a : Nat) (wide : Bool) (v : Nat) :
    (State.barForce s a wide v).anchors.inward = s.anchors.inward := by
  simp [State.barForce]

@[simp] theorem State.endUnitAsks_inward (s : State) :
    (State.endUnitAsks s).anchors.inward = s.anchors.inward := by
  simp [State.endUnitAsks]

@[simp] theorem State.afterStart_inward (s : State) :
    (State.afterStart s).anchors.inward = s.anchors.inward := by
  simp [State.afterStart]

@[simp] theorem State.applyOem_inward (s : State) :
    (State.applyOem s).anchors.inward = s.anchors.inward := by
  unfold State.applyOem; (repeat' (first | with_reducible rfl | (simp []; done) | (split <;> try (rename_i heq; obtain ⟨_, rfl⟩ := Prod.ext_iff.mp heq)) | refine (State.inward_foldl _ (fun _ _ => ?_) _ _).trans ?_ | dsimp only | simp []))

end Sys2Proof.Machine
end
section
/-! SUPPORT. The boot: the directory and the image it chooses, and what the steps after it leave (R388, R456, R457). -/

namespace Sys2Proof.Machine

open Sys2Proof

/-! ### Steps that follow a start leave the boot's own registers -/

/-- The quads that the boot's outcome shows in: READY of the Watermark, the cell time, SEC_STATUS. -/
def bootQuads : List Nat := [0x40, 0x48, 0x6020, 0x8000]

/-- The Watermark and those registers are the same. -/
structure State.calm (s t : State) : Prop where
  sec : t.sec = s.sec
  quads : ∀ a ∈ bootQuads, t.quad a = s.quad a

section Calm

variable {s t : State}

theorem State.calm_refl (s : State) : s.calm s := ⟨rfl, fun _ _ => rfl⟩

theorem State.calm.setFld (h : s.calm t) {f : Fld} (v : Nat) (hf : f.addr ∉ bootQuads) : s.calm (t.setFld f v) :=
  ⟨h.sec, fun a ha => by rw [State.quad_setFld_other _ _ (by rintro rfl; exact hf ha), h.quads a ha]⟩

theorem State.calm.setFlag (h : s.calm t) {f : Fld} (b : Bool) (hf : f.addr ∉ bootQuads) : s.calm (t.setFlag f b) := h.setFld _ hf

/-- A part of the state that the boot's outcome does not show in. -/
theorem State.calm.congr (h : s.calm t) {u : State} (hs : u.sec = t.sec) (hr : u.regs = t.regs) (hf : u.fuse = t.fuse) : s.calm u :=
  ⟨hs.trans h.sec, fun a ha => by rw [← h.quads a ha, State.quad, State.quad, hr, hf]⟩

theorem State.calm.raise (h : s.calm t) {n : Nat} (u i : Nat) (hn : n < 64) : s.calm (t.raise n u i) := by
  refine ⟨(?_ : (t.raise n u i).sec = t.sec).trans h.sec, fun a ha => ?_⟩
  · exact State.raise_sec t n u i
  · rw [(t.raise_regsBut n u i).quad, h.quads a ha]
    simp [bootQuads] at ha
    simp [Reg.SRC_STAT_COUNT, Reg.SRC_STAT_SAT]
    omega

/-- Fields that a completion may change (R352, R353, R355). -/
theorem State.completeTo_regsBut (s : State) (q : Nat) (c : Cmd) (st res : Nat) :
    s.regsBut (s.completeTo q c st res) (Reg.HI_DISCARDED :: bufferFields) := by
  have h0 : s.regsBut (s.released c) (Reg.HI_DISCARDED :: bufferFields) := by
    unfold State.released
    split
    · exact s.regsBut_refl _
    · exact (s.regsBut_refl _).congr rfl rfl
  have hmod {t : State} (h : s.regsBut t (Reg.HI_DISCARDED :: bufferFields)) (q : Nat) :
      s.regsBut (t.moderateCq q) (Reg.HI_DISCARDED :: bufferFields) :=
    State.regsBut_mono (State.regsBut_trans h ((t.regsBut_refl bufferFields).moderateCq q)) (by simp)
  unfold State.completeTo
  generalize s.released c = t at h0 ⊢
  dsimp only
  by_cases he : c.epoch = t.hi.epoch
  · rw [if_neg (by simp [he])]
    split
    · exact h0.congr rfl rfl
    · have hflag (b : List Completion) (v : Bool) : s.regsBut (({ t with hi := { t.hi with buffer := b } } : State).setFlag
          Reg.HI_STATUS_BUF_FULL v) (Reg.HI_DISCARDED :: bufferFields) := by
        refine State.regsBut.setFlag ?_ v (by simp [bufferFields])
        exact h0.congr rfl rfl
      split
      · exact hmod (hflag _ _) q
      · exact hflag _ _
  · rw [if_pos he]
    exact h0.bump 1 (by simp)

theorem State.calm.complete (h : s.calm t) (c : Cmd) (st res : Nat) : s.calm (t.complete c st res) := by
  refine ⟨(t.complete_sec c st res).trans h.sec, fun a ha => ?_⟩
  rw [← h.quads a ha]
  refine (t.completeTo_regsBut c.cq c st res).quad fun f hf => ?_
  have hall : ∀ f ∈ Reg.HI_DISCARDED :: bufferFields, f.addr ∉ bootQuads := by decide
  rintro rfl
  exact hall f hf ha

theorem State.calm.foldl {α : Type} {f : State → α → State} (l : List α) (hf : ∀ u, ∀ x ∈ l, s.calm u → s.calm (f u x)) (h : s.calm t) :
    s.calm (l.foldl f t) := by
  induction l generalizing t with
  | nil => exact h
  | cons x l ih => exact ih (fun u y hy => hf u y (List.mem_cons_of_mem _ hy)) (hf t x List.mem_cons_self h)

theorem State.calm.showAllReady (h : s.calm t) : s.calm t.showAllReady := by
  unfold State.showAllReady
  dsimp only
  refine State.calm.setFlag ?_ _ (by decide)
  split
  · exact h.setFld _ (by decide)
  · exact h

theorem State.calm.modPort (h : s.calm t) (p : Nat) (f : FeltPort → FeltPort) : s.calm (t.modPort p f) := h.congr rfl rfl rfl

theorem State.calm.portEnter (h : s.calm t) {p : Nat} (hp : p < 4) (v : Nat) : s.calm (t.portEnter p v) := by
  have hstate : (Reg.PORT_STATUS_STATE p).addr ∉ bootQuads := by
    simp [bootQuads, Reg.PORT_STATUS_STATE, Reg.portB]
    omega
  have hhop : (Reg.PORT_STATUS_HOP_VALID p).addr ∉ bootQuads := hstate
  unfold State.portEnter State.clearHop
  exact State.calm.modPort ((h.setFld v hstate).setFlag false hhop) p _

theorem State.calm.showPorts (h : s.calm t) : s.calm t.showPorts := by
  unfold State.showPorts
  refine State.calm.foldl _ (fun u p hp hu => ?_) h
  have hp4 : p < 4 := List.mem_range.mp hp
  split
  · split
    · exact hu
    · exact (hu.portEnter hp4 0).modPort p _
  · split
    · exact (hu.portEnter hp4 1).modPort p _
    · exact hu

theorem State.calm.readyToProgram (h : s.calm t) : s.calm t.readyToProgram := by
  unfold State.readyToProgram State.endContinuous
  split
  · split
    · exact h
    · dsimp only
      refine State.calm.setFlag (State.calm.setFld ?_ _ (by decide)) _ (by decide)
      exact h.congr rfl rfl rfl
  · exact h

theorem State.calm.storeFails (h : s.calm t) (l : List StoreAsk) : s.calm (t.storeFails l) := by
  unfold State.storeFails
  exact State.calm.foldl _ (fun u a _ hu => hu.complete _ _ _) ((h.setFlag (f := Reg.STORE_STATUS_WRITE_FAIL) true (by decide)).raise _ _ (by decide))

theorem State.calm.startJob (n : Nat) (h : s.calm t) : s.calm (State.startJob n t) := by
  induction n generalizing t with
  | zero => exact h
  | succ n ih =>
    unfold State.startJob
    split
    · split
      · exact h
      · split
        · refine State.calm.readyToProgram ?_
          exact h.congr rfl rfl rfl
        · dsimp only
          split
          · refine ih (State.calm.storeFails ?_ _)
            exact h.congr rfl rfl rfl
          · refine State.calm.readyToProgram ?_
            exact (h.setFlag (f := Reg.STORE_STATUS_WRITING) true (by decide)).congr rfl rfl rfl
    · refine ih (State.calm.storeFails ?_ _)
      exact h.congr rfl rfl rfl
    · exact h

theorem State.calm.endUnitAsks (h : s.calm t) : s.calm t.endUnitAsks := by
  unfold State.endUnitAsks
  refine State.calm.foldl _ (fun u a _ hu => ?_) h
  dsimp only
  split
  · refine State.calm.complete ?_ _ _ _
    exact hu.congr rfl rfl rfl
  · exact hu

theorem State.afterStart_calm (s : State) : s.calm s.afterStart := by
  have h : s.calm s.showAllReady.showPorts := (s.calm_refl.showAllReady).showPorts
  unfold State.afterStart
  refine State.calm.endUnitAsks ?_
  dsimp only
  split
  · unfold State.requestStore
    refine State.calm.startJob _ ?_
    exact h.congr rfl rfl rfl
  · exact h

end Calm

theorem State.calm.fld {s t : State} (h : s.calm t) {f : Fld} (hf : f.addr ∈ bootQuads) : t.fld f = s.fld f := by
  rw [State.fld, h.quads f.addr hf, State.fld]

theorem State.calm.flag {s t : State} (h : s.calm t) {f : Fld} (hf : f.addr ∈ bootQuads) : t.flag f = s.flag f := by
  rw [State.flag, h.fld hf, State.flag]

/-! ### The boot up to the image it chooses -/

theorem State.calm.flashFallback {s t : State} (h : s.calm t) : s.calm t.flashFallback := by
  have hflags := ((h.setFlag (f := Reg.FL_STATUS_FALLBACK) true (by decide)).setFlag (f := Reg.FL_STATUS_PROFILE_OK) false
    (by decide)).setFlag (f := Reg.FL_STATUS_CONT_ACTIVE) false (by decide)
  unfold State.flashFallback
  refine State.calm.raise ?_ _ _ (by decide)
  exact hflags.congr rfl rfl rfl

/-- A directory in use changes neither flash, nor the fuses, nor the boot's own registers. -/
theorem State.useDirectory_calm (s : State) (d : List Byte) (second : Bool) : s.calm (s.useDirectory d second) := by
  have h0 : s.calm (({ s with ser := { s.ser with dir := some (directoryOf d) } } : State)) := s.calm_refl.congr rfl rfl rfl
  have h2 := ((h0.setFlag (f := Reg.FL_STATUS_DIR_COPY) second (by decide)).setFlag (f := Reg.FL_STATUS_DUAL) (directoryOf d).dual
    (by decide)).setFlag (f := Reg.STORE_STATUS_LAYOUT_ERR) (!(directoryOf d).layoutValid) (by decide)
  unfold State.useDirectory
  dsimp only
  split
  · exact h2.setFlag _ (by decide)
  · exact h2.flashFallback

theorem State.useDirectory_anchors (s : State) (d : List Byte) (second : Bool) : (s.useDirectory d second).anchors = s.anchors := by
  unfold State.useDirectory State.flashFallback
  dsimp only
  split <;> simp

/-- Flash reads as before where its contents are the same. -/
theorem State.flashBytes_of_anchors {s t : State} (h : t.anchors = s.anchors) (a n : Nat) : t.flashBytes a n = s.flashBytes a n := by
  have hf : t.ser.flash = s.ser.flash := congrArg Anchors.flash h
  unfold State.flashBytes State.flashByte
  rw [hf]

theorem State.fwResult_of_fuse {s t : State} (h : t.fuse = s.fuse) (d : List Byte) (n : Nat) : t.fwResult d n = s.fwResult d n := by
  unfold State.fwResult
  rw [h]

theorem State.fwResult_lt (s : State) (d : List Byte) (n : Nat) : s.fwResult d n < 8 := by
  unfold State.fwResult
  dsimp only
  repeat' split
  all_goals decide

section Boot

variable {s : State} {d : List Byte} {second : Bool}

/-- Flash and the images' results after the directory has come into use. -/
theorem State.useDirectory_tryImage (s : State) (d : List Byte) (second : Bool) (o n : Nat) :
    (s.useDirectory d second).tryImage o n = (s.fwResult (s.flashBytes o n) n, fwImageOf (s.flashBytes o n) o n) := by
  have hfuse : (s.useDirectory d second).fuse = s.fuse := congrArg (fun z => z.2.1) (s.useDirectory_frozen d second)
  unfold State.tryImage
  simp only [State.flashBytes_of_anchors (s.useDirectory_anchors d second), State.fwResult_of_fuse hfuse]

/-- An image that passes is the one that runs. -/
theorem State.chooseImage_passed {x : Directory} (h : s.fwResult (s.flashBytes x.fwOffset x.fwLength) x.fwLength = 1) :
    (s.useDirectory d second).chooseImage x second =
      (1, fwImageOf (s.flashBytes x.fwOffset x.fwLength) x.fwOffset x.fwLength, second) := by
  unfold State.chooseImage
  simp only [State.useDirectory_tryImage, h, true_or, if_true]

/-- An image that fails, with no other to try. -/
theorem State.chooseImage_failed {x : Directory} (h : second = true ∨ directoryValid (s.flashBytes 0x1000 96) = false ∨
      (directoryOf (s.flashBytes 0x1000 96)).fwOffset = x.fwOffset) :
    (s.useDirectory d second).chooseImage x second = (s.fwResult (s.flashBytes x.fwOffset x.fwLength) x.fwLength,
      fwImageOf (s.flashBytes x.fwOffset x.fwLength) x.fwOffset x.fwLength, second) := by
  unfold State.chooseImage
  simp only [State.useDirectory_tryImage, State.flashBytes_of_anchors (s.useDirectory_anchors d second)]
  rw [if_pos]
  simpa using Or.inr h

theorem exec_boot (hr : s.inReset = false) : exec .boot s = .next (doBoot s) := event_next hr (doBoot_frozen s)

/-- The boot of a device that is held in reset, or has booted or failed already. -/
theorem exec_boot_done (h : s.inReset = true ∨ s.fld Reg.SEC_STATUS_BOOT_RESULT ≠ 0) : exec .boot s = .next s := by
  cases hr : s.inReset
  · rw [exec_boot hr]
    unfold doBoot
    rw [if_pos (h.resolve_left (by simp [hr]))]
  · exact congrArg (answer s) (if_pos hr)

theorem doBoot_noDirectory (h0 : s.fld Reg.SEC_STATUS_BOOT_RESULT = 0) (hd : s.readDirectory = none) :
    doBoot s = s.setFld Reg.SEC_STATUS_BOOT_RESULT 2 := by
  unfold doBoot
  rw [if_neg (by simp [h0]), hd]

/-- The boot with a directory copy. -/
theorem doBoot_directory (h0 : s.fld Reg.SEC_STATUS_BOOT_RESULT = 0) (hd : s.readDirectory = some (d, second)) :
    doBoot s =
      let x := directoryOf d
      let c := (s.useDirectory d second).chooseImage x second
      let t := (s.useDirectory d second).setFlag Reg.SEC_STATUS_DIR_COPY c.2.2
      if c.1 ≠ 1 then t.setFld Reg.SEC_STATUS_BOOT_RESULT c.1
      else (((t.runImage c.2.1).checkCertificate x).loadBank x).loadRetired.loadUsage.loadCal.applyOem.booted := by
  unfold doBoot
  rw [if_neg (by simp [h0]), hd]

/-- The failure of an image: its result, and nothing ready, booted or running that was not before. -/
theorem bootFailure_leaves (s : State) (d : List Byte) (second b : Bool) {r : Nat} (hr : r < 8) :
    let t := ((s.useDirectory d second).setFlag Reg.SEC_STATUS_DIR_COPY b).setFld Reg.SEC_STATUS_BOOT_RESULT r
    t.fld Reg.SEC_STATUS_BOOT_RESULT = r ∧ t.flag Reg.SEC_STATUS_BOOTED = s.flag Reg.SEC_STATUS_BOOTED ∧ t.readyMap = s.readyMap ∧
      t.sec = s.sec ∧ t.memData = s.memData := by
  intro t
  have hcalm := s.useDirectory_calm d second
  have hregs : (s.useDirectory d second).regsBut t [Reg.SEC_STATUS_DIR_COPY, Reg.SEC_STATUS_BOOT_RESULT] :=
    (((s.useDirectory d second).regsBut_refl _).setFlag b (by simp)).setFld r (by simp)
  have hquad {a : Nat} (ha : a ∈ bootQuads) (h8 : a ≠ 0x8000) : t.quad a = s.quad a := by
    rw [hregs.quad (by rintro f hf rfl; simp at hf; obtain rfl | rfl := hf <;> exact h8 rfl), hcalm.quads a ha]
  refine ⟨?_, ?_, ?_, hcalm.sec, ?_⟩
  · rw [State.fld_setFld_self _ _ _ (by decide)]
    exact Nat.mod_eq_of_lt hr
  · rw [hregs.flag (by decide)]
    exact hcalm.flag (by decide)
  · unfold State.readyMap
    rw [hquad (by decide) (by decide), hquad (by decide) (by decide)]
  · simp [t]

/-- From the image that runs to the OEM configuration, flash and the image stay. -/
theorem bootRun_inward (t : State) (x : Directory) (i : FwImage) :
    (((t.runImage i).checkCertificate x).loadBank x).loadRetired.loadUsage.loadCal.applyOem.anchors.inward =
      { t.anchors.inward with running := some i } := by
  have hrun : (t.runImage i).anchors.inward = { t.anchors.inward with running := some i } := by
    unfold State.runImage
    dsimp only
    generalize hu : State.setFld _ Reg.RUNNING_SVN i.svn = u
    have hanchors : u.anchors = t.anchors := by rw [← hu]; simp
    rw [← hanchors]
    rfl
  simp [hrun]

/-- A unit that has become ready. -/
theorem State.unitStarted_true (s : State) (u : Nat) : s.unitStarted u true =
    (((({ s with units := { s.units with restarting := s.units.restarting.erase u } } : State).setFlag (Reg.UNIT_READY u) true).setFlag
      (Reg.UNIT_FAILED u) false).raise 44 u 1) := by
  unfold State.unitStarted State.unitEvent
  rw [if_pos rfl]

/-- The start of the Watermark changes its own flags and the count of its event. -/
theorem State.unitStarted_regsBut (s : State) : s.regsBut (s.unitStarted watermarkUnit true)
    [Reg.UNIT_READY watermarkUnit, Reg.UNIT_FAILED watermarkUnit, Reg.SRC_STAT_COUNT 44, Reg.SRC_STAT_SAT 44] := by
  have h : s.regsBut { s with units := { s.units with restarting := s.units.restarting.erase watermarkUnit } }
      [Reg.UNIT_READY watermarkUnit, Reg.UNIT_FAILED watermarkUnit, Reg.SRC_STAT_COUNT 44, Reg.SRC_STAT_SAT 44] := (s.regsBut_refl _).congr rfl rfl
  rw [State.unitStarted_true]
  exact ((h.setFlag (f := Reg.UNIT_READY watermarkUnit) true (by simp)).setFlag (f := Reg.UNIT_FAILED watermarkUnit) false (by simp)).raise _ _
    (by simp) (by simp)

theorem State.unitStarted_ready (s : State) : (s.unitStarted watermarkUnit true).flag (Reg.UNIT_READY watermarkUnit) = true := by
  have hflags (t : State) : ((t.setFlag (Reg.UNIT_READY watermarkUnit) true).setFlag (Reg.UNIT_FAILED watermarkUnit) false).flag
      (Reg.UNIT_READY watermarkUnit) = true := by
    rw [State.flag_setFlag_other _ _ _ _ (by decide), State.flag_setFlag_self _ _ _ (by decide) (by decide)]
  rw [State.unitStarted_true, (State.raise_regsBut _ _ _ _).flag (by decide), hflags]

theorem State.newPeriod_quad (s : State) (a : Nat) : s.newPeriod.quad a = s.quad a := rfl

theorem State.newPeriod_anchors (s : State) : s.newPeriod.anchors = s.anchors := rfl

theorem State.booted_eq (s : State) : s.booted =
    ((((s.setFld Reg.SEC_STATUS_BOOT_RESULT 1).setFlag Reg.SEC_STATUS_BOOTED true).unitStarted watermarkUnit true).newPeriod).afterStart := rfl

/-- BOOTED: the boot's registers, and the new summary period (R456 step 7, R464). -/
theorem State.booted_leaves (s : State) : s.booted.fld Reg.SEC_STATUS_BOOT_RESULT = 1 ∧ s.booted.flag Reg.SEC_STATUS_BOOTED = true ∧
    s.booted.ready watermarkUnit = true ∧ s.booted.sec.periodStart = s.booted.now ∧ s.booted.sec.images = [] ∧
    s.booted.anchors.inward = s.anchors.inward := by
  have hresult : ((s.setFld Reg.SEC_STATUS_BOOT_RESULT 1).setFlag Reg.SEC_STATUS_BOOTED true).fld Reg.SEC_STATUS_BOOT_RESULT = 1 := by
    rw [State.fld_setFlag_other _ _ _ _ (by decide), State.fld_setFld_self _ _ _ (by decide)]
    decide
  have hbooted : ((s.setFld Reg.SEC_STATUS_BOOT_RESULT 1).setFlag Reg.SEC_STATUS_BOOTED true).flag Reg.SEC_STATUS_BOOTED = true :=
    State.flag_setFlag_self _ _ _ (by decide) (by decide)
  have hanchors : ((s.setFld Reg.SEC_STATUS_BOOT_RESULT 1).setFlag Reg.SEC_STATUS_BOOTED true).anchors = s.anchors := by simp
  rw [State.booted_eq]
  generalize (s.setFld Reg.SEC_STATUS_BOOT_RESULT 1).setFlag Reg.SEC_STATUS_BOOTED true = u at *
  have hstart := u.unitStarted_regsBut
  have hready := u.unitStarted_ready
  have hinward := u.unitStarted_anchors watermarkUnit true
  generalize u.unitStarted watermarkUnit true = v at *
  have hcalm := v.newPeriod.afterStart_calm
  have hfld {f : Fld} (hf : f.addr ∈ bootQuads) : v.newPeriod.afterStart.fld f = v.fld f := by
    rw [hcalm.fld hf, State.fld, State.newPeriod_quad, State.fld]
  have hflag {f : Fld} (hf : f.addr ∈ bootQuads) : v.newPeriod.afterStart.flag f = v.flag f := by
    rw [State.flag, hfld hf, State.flag]
  refine ⟨?_, ?_, ?_, ?_, ?_, ?_⟩
  · rw [hfld (by decide), State.fld_of_regsBut hstart Reg.SEC_STATUS_BOOT_RESULT (by decide), hresult]
  · rw [hflag (by decide), hstart.flag (by decide), hbooted]
  · exact (hflag (f := Reg.UNIT_READY watermarkUnit) (by decide)).trans hready
  · rw [hcalm.sec]
    exact (hfld (f := Reg.CELL_TIME) (by decide)).symm
  · rw [hcalm.sec]
    rfl
  · rw [State.afterStart_inward, State.newPeriod_anchors, hinward, hanchors]

end Boot

/-! ### The rows of the resets and of the boot -/

section BootRow

variable {s : State} {d : List Byte} {second : Bool} {x : Directory}

theorem State.inward_running (t : State) : t.anchors.inward.running = t.sec.running := rfl

theorem State.inward_flash (t : State) : t.anchors.inward.flash = t.ser.flash := rfl

/-- An image that fails, with no second image to try. -/
theorem exec_boot_failed (hr : s.inReset = false) (h0 : s.fld Reg.SEC_STATUS_BOOT_RESULT = 0) (hd : s.readDirectory = some (d, second))
    (hx : x = directoryOf d) (hf : s.fwResult (s.flashBytes x.fwOffset x.fwLength) x.fwLength ≠ 1)
    (hone : second = true ∨ directoryValid (s.flashBytes 0x1000 96) = false ∨
      (directoryOf (s.flashBytes 0x1000 96)).fwOffset = x.fwOffset) :
    exec .boot s = .next (((s.useDirectory d second).setFlag Reg.SEC_STATUS_DIR_COPY second).setFld Reg.SEC_STATUS_BOOT_RESULT
      (s.fwResult (s.flashBytes x.fwOffset x.fwLength) x.fwLength)) := by
  subst hx
  rw [exec_boot hr, doBoot_directory h0 hd]
  simp only [State.chooseImage_failed hone]
  rw [if_pos hf]

/-- An image that passes. -/
theorem exec_boot_passed (hr : s.inReset = false) (h0 : s.fld Reg.SEC_STATUS_BOOT_RESULT = 0) (hd : s.readDirectory = some (d, second))
    (hx : x = directoryOf d) (hf : s.fwResult (s.flashBytes x.fwOffset x.fwLength) x.fwLength = 1) :
    exec .boot s = .next (((((((s.useDirectory d second).setFlag Reg.SEC_STATUS_DIR_COPY second).runImage
      (fwImageOf (s.flashBytes x.fwOffset x.fwLength) x.fwOffset x.fwLength)).checkCertificate x).loadBank
      x).loadRetired.loadUsage.loadCal.applyOem).booted) := by
  subst hx
  rw [exec_boot hr, doBoot_directory h0 hd]
  simp only [State.chooseImage_passed hf]
  rw [if_neg (by decide)]

end BootRow

/-- Settles O60: a reset leaves `State.afresh` but for the event lines and RESET_CAUSE; the boot's steps leave the image and flash
(`Anchors`), and those after BOOTED its registers (`State.calm`). -/
theorem resetsAndBoot : Obligations.ResetsAndBoot := by
  refine ⟨fun s t i hexec hi => ?_, fun s => ⟨fun hp => ?_, fun hp => ?_, exec_internalResetRelease s⟩,
    fun s => ⟨exec_boot_done, fun hr h0 => ⟨fun hd => ?_, fun d second x img hd hx himg => ?_⟩⟩⟩
  · obtain ⟨x, rfl⟩ := exec_reset hexec (by tauto) (by tauto)
    exact ⟨rfl, rfl, s.resetBy_leaves _ _ _ x⟩
  · refine ⟨?_, fun x => ?_, fun r => ?_, ?_⟩
    · rw [exec_perstAssert, hp, if_pos rfl]
    · rw [exec_perst, hp, if_pos rfl]
    · rw [exec_supplyReset, State.supplyLost_held hp]
    · rw [exec_referenceLoss, State.supplyLost_held hp]
  · refine ⟨⟨_, exec_perstAssert s, ?_⟩, fun x => ⟨_, exec_perst s x, rfl, rfl⟩, fun r => ⟨_, exec_supplyReset s r, ?_⟩,
      _, exec_referenceLoss s, ?_⟩
    · rw [hp, if_neg (by decide)]
    · rw [State.supplyLost_free hp]
    · rw [State.supplyLost_free hp]
  · refine ⟨_, exec_boot hr, ?_, ?_⟩
    · rw [doBoot_noDirectory h0 hd, State.fld_setFld_self _ _ _ (by decide)]
      decide
    · rw [doBoot_noDirectory h0 hd]
      exact s.onlyRegs_setFld _ _
  · subst himg
    refine ⟨fun hf hone => ⟨_, exec_boot_failed hr h0 hd hx hf hone, bootFailure_leaves s d second second (s.fwResult_lt _ _)⟩,
      fun hf => ⟨_, exec_boot_passed hr h0 hd hx hf, ?_⟩⟩
    generalize hz : State.applyOem _ = z
    have hinward := bootRun_inward ((s.useDirectory d second).setFlag Reg.SEC_STATUS_DIR_COPY second) x
      (fwImageOf (s.flashBytes x.fwOffset x.fwLength) x.fwOffset x.fwLength)
    rw [hz, State.setFlag_anchors, State.useDirectory_anchors] at hinward
    obtain ⟨hresult, hbooted, hready, hperiod, himages, hz'⟩ := z.booted_leaves
    rw [hinward] at hz'
    refine ⟨hresult, hbooted, hready, ?_, hperiod, himages, ?_⟩
    · rw [← State.inward_running, hz']
    · rw [← State.inward_flash, hz']
      rfl

end Sys2Proof.Machine
end
section
/-! SUPPORT. Programs end, stop and wait (R20, R129, R130, R137, R138): what their rows leave of a program once it has stopped, and of
the programs of the other groups. -/

namespace Sys2Proof.Machine

open Sys2Proof

/-! ### A program whose positions have been noted a status since -/

/-- `h` is `g` but for statuses noted since, and readings awaited no longer (R16, R105, R177). -/
def Program.notedFrom (g h : Program) : Prop :=
  h = { g with status := h.status, pendingReadings := h.pendingReadings } ∧
    ∀ (p x : Nat), g.status[p]? = some x → ∃ y, h.status[p]? = some y ∧ ∀ c, first16 x c = x → first16 y c = y

/-- What R16 puts first stays first among more codes. -/
theorem first16_keeps {x c : Nat} (st : Nat) (h : first16 x c = x) : first16 (first16 x st) c = first16 x st := by
  unfold first16 at *
  by_cases hst : order16.findIdx (· = x) ≤ order16.findIdx (· = st)
  · simp only [hst, if_true]
    exact h
  · simp only [hst, if_false]
    split at h
    · rw [if_pos (by omega)]
    · subst h
      rw [if_pos (by omega)]

theorem Program.notedFrom_refl (g : Program) : g.notedFrom g := ⟨rfl, fun _ x h => ⟨x, h, fun _ hc => hc⟩⟩

theorem Program.notedFrom_trans {f g h : Program} (h1 : f.notedFrom g) (h2 : g.notedFrom h) : f.notedFrom h := by
  obtain ⟨hg, hgs⟩ := h1
  obtain ⟨hh, hhs⟩ := h2
  refine ⟨?_, fun p x hx => ?_⟩
  · rw [hh, hg]
  · obtain ⟨y, hy, hxy⟩ := hgs p x hx
    obtain ⟨z, hz, hyz⟩ := hhs p y hy
    exact ⟨z, hz, fun c hc => hyz c (hxy c hc)⟩

theorem Program.note_notedFrom (g : Program) (q st : Nat) : g.notedFrom (g.note q st) := by
  refine ⟨rfl, fun p x hx => ⟨if p = q then first16 x st else x, ?_, fun c hc => ?_⟩⟩
  · simp [Program.note, hx]
  · split
    · exact first16_keeps st hc
    · exact hc

/-! ### States that differ by noted statuses and completions -/

/-- From `s` to `t` no completion is lost, and every program is there that was, but for statuses noted since. -/
structure State.noted (s t : State) : Prop where
  outbox : ∀ x ∈ s.anchors.outbox, x ∈ t.anchors.outbox
  none : ∀ b, s.program b = none → t.program b = none
  some : ∀ b g, s.program b = some g → ∃ h, t.program b = some h ∧ g.notedFrom h

section Noted

variable {s t u : State}

theorem State.program_of_anchors (h : t.anchors = s.anchors) (b : Nat) : t.program b = s.program b :=
  congrArg (SMap.find · b) (congrArg Anchors.programs h)

theorem State.program_of_inward (h : t.anchors.inward = s.anchors.inward) (b : Nat) : t.program b = s.program b :=
  congrArg (SMap.find · b) (congrArg Anchors.programs h)

theorem State.noted_of_program (hp : ∀ b, t.program b = s.program b) (ho : ∀ x ∈ s.anchors.outbox, x ∈ t.anchors.outbox) : s.noted t :=
  ⟨ho, fun b h => (hp b).trans h, fun b g h => ⟨g, (hp b).trans h, g.notedFrom_refl⟩⟩

theorem State.noted_of_anchors (h : t.anchors = s.anchors) : s.noted t :=
  State.noted_of_program (State.program_of_anchors h) (fun _ hx => h ▸ hx)

theorem State.noted_refl (s : State) : s.noted s := State.noted_of_anchors rfl

theorem State.noted.trans (h1 : s.noted t) (h2 : t.noted u) : s.noted u := by
  refine ⟨fun x hx => h2.outbox x (h1.outbox x hx), fun b h => h2.none b (h1.none b h), fun b g h => ?_⟩
  obtain ⟨g1, hg1, hn1⟩ := h1.some b g h
  obtain ⟨g2, hg2, hn2⟩ := h2.some b g1 hg1
  exact ⟨g2, hg2, Program.notedFrom_trans hn1 hn2⟩

theorem State.noted.anchors (h : s.noted t) (ha : u.anchors = t.anchors) : s.noted u := h.trans (State.noted_of_anchors ha)

theorem State.noted.foldl {α : Type} {f : State → α → State} (hf : ∀ (u : State) x, u.noted (f u x)) (l : List α) (h : s.noted t) :
    s.noted (l.foldl f t) := by
  induction l generalizing t with
  | nil => exact h
  | cons x l ih => exact ih (h.trans (hf t x))

/-- Programs are there where they were. -/
theorem State.noted.isSome (h : s.noted t) (b : Nat) : (t.program b).isSome = (s.program b).isSome := by
  cases hb : s.program b with
  | none => rw [h.none b hb]
  | some g =>
    obtain ⟨g', hg', -⟩ := h.some b g hb
    rw [hg']
    rfl

theorem State.noted.reported (h : s.noted t) {c : Cmd} {st res : Nat} (hr : s.reported c st res) : t.reported c st res := by
  obtain ⟨x, hx, hc⟩ := hr
  exact ⟨x, h.outbox x hx, hc⟩

/-! ### Programs changed -/

theorem State.program_setProgram_self (s : State) (b : Nat) (g : Program) : (s.setProgram b g).program b = some g :=
  SMap.find_put_self s.programs b g

theorem State.program_setProgram_other (s : State) {b x : Nat} (g : Program) (h : x ≠ b) : (s.setProgram b g).program x = s.program x :=
  SMap.find_put_other s.programs g h

theorem State.program_modProgram_self (s : State) (b : Nat) (f : Program → Program) :
    (s.modProgram b f).program b = (s.program b).map f := by
  unfold State.modProgram
  cases h : s.program b with
  | none => exact h
  | some g => exact s.program_setProgram_self b (f g)

theorem State.program_modProgram_other (s : State) {b x : Nat} (f : Program → Program) (h : x ≠ b) :
    (s.modProgram b f).program x = s.program x := by
  unfold State.modProgram
  cases s.program b with
  | none => rfl
  | some g => exact s.program_setProgram_other (f g) h

theorem State.outbox_modProgram (s : State) (b : Nat) (f : Program → Program) : (s.modProgram b f).anchors.outbox = s.anchors.outbox := by
  unfold State.modProgram
  cases s.program b <;> rfl

theorem State.modProgram_noted (s : State) (b : Nat) {f : Program → Program} (hf : ∀ g : Program, g.notedFrom (f g)) : s.noted (s.modProgram b f) := by
  refine ⟨fun x hx => by rwa [State.outbox_modProgram], fun x h => ?_, fun x g h => ?_⟩
  · by_cases hx : x = b
    · subst hx
      rw [State.program_modProgram_self, h]
      rfl
    · rw [State.program_modProgram_other _ _ hx, h]
  · by_cases hx : x = b
    · subst hx
      exact ⟨f g, by rw [State.program_modProgram_self, h]; rfl, hf g⟩
    · exact ⟨g, by rw [State.program_modProgram_other _ _ hx, h], g.notedFrom_refl⟩

/-! ### Records -/

theorem State.noteSite_noted (s : State) (site st : Nat) : s.noted (s.noteSite site st) := by
  unfold State.noteSite
  split
  · exact s.noted_refl
  · split
    · exact s.modProgram_noted _ (fun g => g.note_notedFrom _ _)
    · exact s.noted_refl

theorem State.enterRecord_noted (s : State) (n : Nat) (r : Rec) : s.noted (s.enterRecord n r) := by
  have hnote {t : State} (h : t.anchors = s.anchors) (site st : Nat) : s.noted (t.noteSite site st) :=
    (State.noted_of_anchors h).trans (t.noteSite_noted site st)
  unfold State.enterRecord
  dsimp only
  split
  · exact hnote (by simp) _ _
  · split
    · exact hnote (by simp) _ _
    · split
      · exact State.noted_of_anchors (by simp)
      · split
        · exact hnote (by simp) _ _
        · exact State.noted_of_anchors (by simp)

theorem State.deckleRecords_noted (s : State) (n k : Nat) : s.noted (s.deckleRecords n k) := by
  induction k generalizing s with
  | zero => exact s.noted_refl
  | succ k ih =>
    unfold State.deckleRecords
    dsimp only
    split
    · exact s.noted_refl
    · split
      · exact s.noted_refl
      · exact ((State.noted_of_anchors (State.modSeq_anchors _ _ _)).trans (State.enterRecord_noted _ n _)).trans (ih _)

theorem State.lossRecords_noted (s : State) (n k : Nat) : s.noted (s.lossRecords n k) := by
  induction k generalizing s with
  | zero => exact s.noted_refl
  | succ k ih =>
    unfold State.lossRecords
    dsimp only
    split
    · exact s.noted_refl
    · split
      · exact s.noted_refl
      · exact ((State.noted_of_anchors (State.modSeq_anchors _ _ _)).trans (State.enterRecord_noted _ n _)).trans (ih _)

theorem State.reportLosses_noted (s : State) (n : Nat) : s.noted (s.reportLosses n) :=
  (s.deckleRecords_noted n _).trans (State.lossRecords_noted _ n _)

theorem State.discardRecords_noted (s : State) (n cause : Nat) (f : Rec → Bool) : s.noted (s.discardRecords n cause f) := by
  unfold State.discardRecords
  extract_lets q gone runs s1
  have h1 : s.noted s1 := State.noted_of_anchors (by simp [s1])
  exact (h1.foldl (fun u r => u.noteSite_noted _ _) _).trans (State.reportLosses_noted _ n)

theorem State.voidRecords_noted (s : State) (n p k : Nat) : s.noted (s.voidRecords n p k) := by
  unfold State.voidRecords
  extract_lets q keep s1
  have h1 : s.noted s1 := State.noted_of_anchors (by simp [s1])
  exact (h1.foldl (fun u r => u.enterRecord_noted _ _) _).trans (State.reportLosses_noted _ n)

/-! ### Completions -/

/-- A completion joins those on their way, or is dropped with its epoch (R342, R352, R353). -/
theorem State.complete_noted (s : State) (c : Cmd) (st res : Nat) : s.noted (s.complete c st res) := by
  refine State.noted_of_program (State.program_of_inward (s.complete_inward c st res)) fun x hx => ?_
  have hr := s.released_anchors c
  unfold State.complete State.completeTo
  rw [← hr] at hx
  generalize s.released c = t at hx ⊢
  dsimp only
  by_cases he : c.epoch = t.hi.epoch
  · rw [if_neg (by simp [he])]
    split
    · simp only [State.anchors, List.mem_append] at hx ⊢
      tauto
    · have hflag (e : Completion) (v : Bool) : x ∈ ((({ t with hi := { t.hi with buffer := t.hi.buffer ++ [e] } } : State).setFlag
          Reg.HI_STATUS_BUF_FULL v).anchors.outbox) := by
        rw [State.setFlag_anchors]
        simp only [State.anchors, List.mem_append] at hx ⊢
        tauto
      split
      · rw [State.moderateCq_anchors]
        exact hflag _ _
      · exact hflag _ _
  · rw [if_pos he, State.bump_anchors]
    exact hx

/-! ### Instruments of a program that ends -/

theorem State.awgCloseGap_noted (s : State) (c : Nat) (cut : Bool) : s.noted (s.awgCloseGap c cut) := by
  unfold State.awgCloseGap State.awgGap
  dsimp only
  split
  · exact s.noted_refl
  · refine State.noted.anchors ?_ (State.modAwg_anchors _ _ _)
    exact s.enterRecord_noted _ _

theorem State.awgAnswer_noted (s : State) (r : AwgReq) (st n e : Nat) : s.noted (s.awgAnswer r st n e) := by
  unfold State.awgAnswer
  split
  · exact s.complete_noted _ _ _
  · exact s.noted_refl

theorem State.awgStop_noted (s : State) (c : Nat) (cut : Bool) : s.noted (s.awgStop c cut) := by
  unfold State.awgStop
  extract_lets a reqs s1
  have h1 : s.noted s1 := (s.awgCloseGap_noted c cut).foldl (fun u r => u.awgAnswer_noted _ _ _ _) reqs
  exact h1.anchors (by simp)

theorem State.awgHalt_noted (s : State) (c : Nat) (cut : Bool) : s.noted (s.awgHalt c cut) := by
  unfold State.awgHalt
  extract_lets st s1
  have h1 : s.noted s1 := by
    unfold s1
    split
    · exact s.complete_noted _ _ _
    · exact s.noted_refl
  split
  · exact s.awgStop_noted c cut
  · split
    · exact h1.anchors (by simp)
    · exact s.noted_refl

theorem State.awgProgramEnd_noted (s : State) (b : Nat) : s.noted (s.awgProgramEnd b) := by
  unfold State.awgProgramEnd
  refine s.noted_refl.foldl (fun u c => ?_) _
  split
  · exact u.awgHalt_noted c false
  · exact u.noted_refl

theorem State.forgetReading_noted (s : State) (b k : Nat) : s.noted (s.forgetReading b k) :=
  s.modProgram_noted b (fun _ => ⟨rfl, fun _ x h => ⟨x, h, fun _ hc => hc⟩⟩)

theorem State.tmuDropSince_noted (s : State) (b k : Nat) : s.noted (s.tmuDropSince b k) := by
  have hdrop (u : State) (n : Nat) : u.noted (u.tmuDrop n) := by
    unfold State.tmuDrop
    split
    · exact u.noted_refl
    · split
      · exact (State.noted_of_anchors (by simp)).trans (State.forgetReading_noted _ _ _)
      · exact State.noted_of_anchors (by simp)
  unfold State.tmuDropSince
  refine s.noted_refl.foldl (fun u n => ?_) _
  split
  · split
    · exact hdrop u n
    · exact u.noted_refl
  · exact u.noted_refl

theorem State.dgDropSince_noted (s : State) (b k : Nat) : s.noted (s.dgDropSince b k) := by
  have hdrop (u : State) (c : Nat) : u.noted (u.dgDrop c) := by
    unfold State.dgDrop
    split
    · exact (State.noted_of_anchors (by simp)).trans (State.forgetReading_noted _ _ _)
    · exact u.noted_refl
  unfold State.dgDropSince
  refine s.noted_refl.foldl (fun u c => ?_) _
  split
  · split
    · exact hdrop u c
    · exact u.noted_refl
  · exact u.noted_refl

/-! ### The population engine -/

theorem State.popRun_noted (s : State) (k : Nat) (t : PopTest) (op : PopOp) : s.noted (s.popRun k t op).s := by
  cases op with
  | answer c => exact s.complete_noted c 0 t.state
  | _ =>
    refine State.noted_of_anchors ?_
    unfold State.popRun
    repeat' (first
      | with_reducible rfl
      | with_reducible assumption
      | (simp [*]; done)
      | dsimp only
      | split
      | refine popGo_anchors _ _ _ _ ?_ (fun _ _ _ => ?_))

theorem State.popPump_noted (n k : Nat) (s : State) : s.noted (State.popPump n k s) := by
  induction n generalizing k s with
  | zero => exact s.noted_refl
  | succ n ih =>
    unfold State.popPump
    split
    · exact s.noted_refl
    · next t _ =>
      split
      · exact s.noted_refl
      · next op rest _ =>
        dsimp only
        have hrun := s.popRun_noted k t op
        split
        · exact (hrun.anchors (by simp)).trans (ih _ _)
        · exact hrun

theorem State.popDo_noted (s : State) (k : Nat) (l : List PopOp) : s.noted (s.popDo k l) := by
  unfold State.popDo State.popGoOn
  dsimp only
  have hask : s.noted (s.popAsk k l) := State.noted_of_anchors (by simp)
  exact (hask.trans (State.popPump_noted _ k _)).foldl (fun u i => State.popPump_noted _ i u) _

theorem State.popLeave_noted (s : State) (site : Nat) : s.noted (s.popLeave site) := by
  unfold State.popLeave
  refine s.noted_refl.foldl (fun u k => ?_) _
  split
  · split
    · exact (State.noted_of_anchors (by simp)).trans (State.popDo_noted _ k _)
    · exact u.noted_refl
  · exact u.noted_refl

theorem State.popWithdraw_noted (s : State) (test site : Nat) : s.noted (s.popWithdraw test site) := by
  have h1 : s.noted (s.bump Reg.POP_WITHDRAWN 1) := State.noted_of_anchors (by simp)
  unfold State.popWithdraw
  dsimp only
  split
  · exact h1
  · exact h1.trans (State.popDo_noted _ _ _)

end Noted

/-! ### The end of a program (R20, R129) -/

section ProgramEnd

variable {s : State} {b : Nat} {g : Program}

/-- The program has completed, and is gone. -/
def State.programGone (s : State) (b : Nat) (g : Program) : State :=
  let t := ((s.abandonGroup b).idleStreams b).complete g.cmd (startStatus g.status g.part) (startResult g.status g.part g.replays g.traps)
  { t with programs := SMap.del t.programs b }

/-- What follows the completion notes statuses at most. -/
theorem State.finishProgram_noted (s : State) (b : Nat) (g : Program) : (s.programGone b g).noted (s.finishProgram b g) := by
  unfold State.finishProgram
  extract_lets st s1 s2 s3 s4 s5 sites s6 runs
  have h2 : s2.noted s2 := s2.noted_refl
  have h5 : s2.noted s5 := State.noted_of_anchors (by
    have h3 : s3.anchors = s2.anchors := by simp [s3]
    have h4 : s4.anchors = s3.anchors := by simp [s4]
    unfold s5
    split <;> simp [h4, h3])
  have h6 : s2.noted s6 := h5.foldl (fun u x => u.popLeave_noted _) sites
  exact h6.anchors (by rw [State.raiseIdle_anchors, State.showFreezes_anchors]; rfl)

theorem State.programGone_program (s : State) (b : Nat) (g : Program) (x : Nat) :
    (s.programGone b g).program x = if x = b then none else s.program x := by
  have hrest : (((s.abandonGroup b).idleStreams b).complete g.cmd (startStatus g.status g.part)
      (startResult g.status g.part g.replays g.traps)).anchors.inward = s.anchors.inward := by simp
  unfold State.programGone
  generalize State.complete _ _ _ _ = t at hrest ⊢
  have hprogram := State.program_of_inward hrest x
  split
  · next hx =>
    subst hx
    exact SMap.find_del_self t.programs x
  · next hx => exact (SMap.find_del_other t.programs hx).trans hprogram

theorem State.programGone_reported (h : g.cmd.epoch = s.hi.epoch) :
    (s.programGone b g).reported g.cmd (startStatus g.status g.part) (startResult g.status g.part g.replays g.traps) := by
  have hfrozen : ((s.abandonGroup b).idleStreams b).frozen = s.frozen := by simp
  have hepoch : ((s.abandonGroup b).idleStreams b).hi.epoch = s.hi.epoch := congrArg (fun z => z.2.2.2.2.2.2) hfrozen
  exact State.complete_reported _ _ _ _ (h.trans hepoch.symm)

theorem State.settleResults_other (s : State) {x : Nat} (h : x ≠ b) : (s.settleResults b).program x = s.program x :=
  s.program_modProgram_other _ h

/-- The row's effect where everything that the completion waits for has happened. -/
theorem programEnded_noted (hg : (s.settleResults b).program b = some g) (hd : (s.settleResults b).programDone b g = true) :
    ((s.settleResults b).programGone b g).noted (programEnded b s) := by
  have hend : doProgramEnd b s = (s.settleResults b).finishProgram b g := by
    unfold doProgramEnd
    simp only [hg, hd, if_true]
  have hfinish := State.finishProgram_noted (s.settleResults b) b g
  unfold programEnded
  rw [hend]
  dsimp only
  split
  · exact (hfinish.trans (State.awgProgramEnd_noted _ b)).anchors (State.releaseWrites_anchors _ b)
  · exact hfinish

end ProgramEnd

/-- PROGRAM_END of a program that is done. -/
theorem exec_programEnd {s : State} {b : Fin 64} {g : Program} (hr : s.inReset = false)
    (hg : (s.settleResults b.val).program b.val = some g) (hd : (s.settleResults b.val).programDone b.val g = true) :
    ∃ t, exec (.programEnd b) s = .next t ∧ t.program b.val = none ∧
      (g.cmd.epoch = s.hi.epoch → t.reported g.cmd (startStatus g.status g.part) (startResult g.status g.part g.replays g.traps)) ∧
      ∀ x, x ≠ b.val → (t.program x).isSome = (s.program x).isSome := by
  have hn := programEnded_noted hg hd
  refine ⟨_, event_next hr (programEnded_frozen b.val s), hn.none _ ?_, fun he => hn.reported (State.programGone_reported ?_), fun x hx => ?_⟩
  · rw [State.programGone_program, if_pos rfl]
  · have hfrozen : (s.settleResults b.val).frozen = s.frozen := by simp
    exact he.trans (congrArg (fun z => z.2.2.2.2.2.2) hfrozen).symm
  · rw [hn.isSome, State.programGone_program, if_neg hx, State.settleResults_other s hx]

/-! ### A program that stops (R16, R72, R130) -/

/-- What a stop keeps of the program `g`: its statuses and the place it had reached; it has ended. -/
structure Program.endedAs (g h : Program) : Prop where
  ended : h.ended = true
  status : h.status = g.status
  pc : h.micro.pc = g.micro.pc
  replays : h.replays = g.replays

/-- Results that return move no program on. -/
theorem settleWords_keeps (s : State) (b n : Nat) (g : Program) :
    (s.settleWords b n g).status = g.status ∧ (s.settleWords b n g).micro.pc = g.micro.pc ∧ (s.settleWords b n g).replays = g.replays := by
  induction n generalizing g with
  | zero => exact ⟨rfl, rfl, rfl⟩
  | succ n ih =>
    unfold State.settleWords
    dsimp only
    split
    · exact ⟨rfl, rfl, rfl⟩
    · split
      · split
        · exact ih _
        · exact ⟨rfl, rfl, rfl⟩
      · split
        · exact ih _
        · exact ⟨rfl, rfl, rfl⟩

theorem Program.closeWord_keeps (g : Program) :
    g.closeWord.status = g.status ∧ g.closeWord.micro.pc = g.micro.pc ∧ g.closeWord.replays = g.replays := by
  unfold Program.closeWord
  split <;> exact ⟨rfl, rfl, rfl⟩

/-- The word being issued is closed, and its results settled. -/
theorem State.closeWord_program {s : State} {b : Nat} {g : Program} (hg : s.program b = some g) :
    ∃ h, (s.closeWord b).program b = some h ∧ h.status = g.status ∧ h.micro.pc = g.micro.pc ∧ h.replays = g.replays := by
  obtain ⟨hc1, hc2, hc3⟩ := g.closeWord_keeps
  unfold State.closeWord State.settleResults
  rw [State.program_modProgram_self, State.program_modProgram_self, hg]
  refine ⟨_, rfl, ?_⟩
  dsimp only
  obtain ⟨hw1, hw2, hw3⟩ := settleWords_keeps (s.modProgram b Program.closeWord) b (g.closeWord.outstanding.length + 1) g.closeWord
  exact ⟨hw1.trans hc1, hw2.trans hc2, hw3.trans hc3⟩

theorem State.endIssue_program {s : State} {b : Nat} {g : Program} (hg : s.program b = some g) :
    ∃ h, (s.endIssue b).program b = some h ∧ g.endedAs h := by
  obtain ⟨h, hh, hs, hpc, hr⟩ := State.closeWord_program hg
  unfold State.endIssue
  rw [hh]
  dsimp only
  refine ⟨_, (State.program_of_anchors (State.showExec_anchors _ b) b).trans (State.program_setProgram_self _ b _), rfl, hs, hpc, hr⟩

/-- A status noted for a list of positions that holds `p`, of a position whose status it replaces. -/
theorem Program.note_list {st : Nat} (h0 : first16 0 st = st) {p : Nat} (l : List Nat) {g : Program}
    (hg : g.status[p]? = some st ∨ g.status[p]? = some 0 ∧ p ∈ l) : (l.foldl (fun g q => g.note q st) g).status[p]? = some st := by
  induction l generalizing g with
  | nil =>
    obtain hg | ⟨-, hp⟩ := hg
    · exact hg
    · exact absurd hp List.not_mem_nil
  | cons q l ih =>
    have hst : first16 st st = st := by simp [first16]
    refine ih ?_
    have hnote {x : Nat} (hx : g.status[p]? = some x) : (g.note q st).status[p]? = some (if p = q then first16 x st else x) := by
      simp [Program.note, hx]
    obtain hg | ⟨hg, hp⟩ := hg
    · refine .inl ?_
      rw [hnote hg, hst, ite_self]
    · by_cases hpq : p = q
      · refine .inl ?_
        rw [hnote hg, if_pos hpq, h0]
      · refine .inr ⟨?_, (List.mem_cons.mp hp).resolve_left hpq⟩
        rw [hnote hg, if_neg hpq]

theorem bitOf_eq_testBit (n k : Nat) : bitOf n k = n.testBit k := by
  rw [Nat.testBit_eq_decide_div_mod_eq, bitOf]

/-- Every position taking part that has not completed and had status 0 takes the status noted for all. -/
theorem Program.noteAll_status {g : Program} {st p : Nat} (h0 : first16 0 st = st) (hp : p < 8) (hpart : bitOf g.part p = true)
    (hdone : bitOf g.done p = false) (hg : g.status[p]? = some 0) : (g.noteAll g.part st).status[p]? = some st := by
  refine Program.note_list h0 _ (.inr ⟨hg, ?_⟩)
  rw [bitOf_eq_testBit] at hpart hdone
  simp only [setBits, List.mem_filter, List.mem_range, bitOf_eq_testBit, minusMask, testBit_sub_and, hpart, hdone]
  exact ⟨hp, rfl⟩

theorem Program.noteAll_keeps (g : Program) (k st : Nat) : (g.noteAll k st).micro = g.micro ∧ (g.noteAll k st).replays = g.replays := by
  have hfold (l : List Nat) (g : Program) : (l.foldl (fun g q => g.note q st) g).micro = g.micro ∧
      (l.foldl (fun g q => g.note q st) g).replays = g.replays := by
    induction l generalizing g with
    | nil => exact ⟨rfl, rfl⟩
    | cons q l ih => exact ih (g.note q st)
  exact hfold _ g

/-- A group that stops with a status: every site not yet completed has it, and the program stands where it was. -/
theorem State.stopGroup_program {s : State} {b st : Nat} {g : Program} (hg : s.program b = some g) (h0 : first16 0 st = st) :
    ∃ h, (s.stopGroup b st).program b = some h ∧ g.stopped h st ∧ h.micro.pc = g.micro.pc ∧ h.replays = g.replays := by
  obtain ⟨hm, hr⟩ := g.noteAll_keeps g.part st
  have hnote : (s.modProgram b (fun g => g.noteAll g.part st)).program b = some (g.noteAll g.part st) := by
    rw [State.program_modProgram_self, hg]
    rfl
  obtain ⟨h, hh, he⟩ := State.endIssue_program hnote
  refine ⟨h, hh, ⟨he.ended, fun p hp hpart hdone h0' => ?_⟩, ?_, he.replays.trans hr⟩
  · rw [he.status]
    exact Program.noteAll_status h0 hp hpart hdone h0'
  · rw [he.pc, hm]

/-! ### PROGRAM_TIME_LIMIT (R130) -/

theorem programLimited_noted {s : State} {b : Nat} {g : Program} (hg : s.program b = some g) (hl : g.timeLimit ≠ 0) (hb : g.begun = true)
    (he : g.ended = false) (hs : g.stall ≠ 3) : (s.stopGroup b 0x60).noted (programLimited b s) := by
  have hlimit : (s.stopGroup b 0x60).noted (doProgramTimeLimit b s) := by
    unfold doProgramTimeLimit
    simp only [hg]
    rw [if_neg (by simp [hl, hb, he]), if_neg hs]
    exact (State.noted_refl _).foldl (fun u n => u.discardRecords_noted n 2 _) _
  unfold programLimited
  dsimp only
  split
  · exact ((hlimit.trans (State.tmuDropSince_noted _ b 0)).trans (State.dgDropSince_noted _ b 0)).trans (State.awgProgramEnd_noted _ b)
  · exact hlimit

/-- PROGRAM_TIME_LIMIT of a program that has begun, and saves no frame. -/
theorem exec_programTimeLimit {s : State} {b : Fin 64} {g : Program} (hr : s.inReset = false) (hg : s.program b.val = some g)
    (hl : g.timeLimit ≠ 0) (hb : g.begun = true) (he : g.ended = false) (hs : g.stall ≠ 3) :
    ∃ t h, exec (.programTimeLimit b) s = .next t ∧ t.program b.val = some h ∧ g.stoppedBy h 0x60 ∧ h.micro.pc = g.micro.pc := by
  obtain ⟨f, hf, ⟨hended, hstatus⟩, hpc, -⟩ := State.stopGroup_program hg (st := 0x60) (by decide)
  obtain ⟨h, hh, heq, hnote⟩ := (programLimited_noted hg hl hb he hs).some _ f hf
  refine ⟨_, h, event_next hr (programLimited_frozen b.val s), hh, ⟨?_, fun p hp hpart hdone h0 => ?_⟩, ?_⟩
  · rw [heq]
    exact hended
  · obtain ⟨x, hx, hkeep⟩ := hnote p _ (hstatus p hp hpart hdone h0)
    exact ⟨x, hx, hkeep 0x60 (by decide)⟩
  · rw [heq]
    exact hpc

/-! ### A blocked group whose queue empties (R137) -/

section EmptiedQueue

variable {s : State} {b : Nat} {g : Program}

/-- The program whose queue has emptied: what blocks its word is a shortfall where nothing did before. -/
def Program.emptiedAs (g h : Program) : Prop :=
  h = { g with blocked := if g.blocked = 0 then 2 else g.blocked, queue := h.queue, taken := h.taken }

theorem State.appliedTo_program {t : Nat} (hg : s.program b = some g) : (s.appliedTo b t).program b = some (g.appliedTo t) := by
  have hmod : (s.modProgram b (fun g => g.appliedTo t)).program b = some (g.appliedTo t) := by
    rw [State.program_modProgram_self, hg]
    rfl
  unfold State.appliedTo
  rw [← hmod]
  exact State.program_of_anchors (State.anchors_foldl _ (fun u n => u.showBuffer_anchors n) _ _) b

/-- A word blocked by a shortfall (R136, R169). -/
theorem State.blockOn_shortfall (hg : s.program b = some g) : s.blockOn b 2 =
    (if g.blocked = 2 then s.setProgram b { g with blocked := 2 }
      else (s.setProgram b { g with blocked := 2 }).bumpMembers b Reg.SHORTFALLS).setFlag (Reg.STALL_CAUSE_SHORTFALL b) true := by
  unfold State.blockOn
  simp only [hg]

theorem State.blockOn_program (hg : s.program b = some g) : (s.blockOn b 2).program b = some { g with blocked := 2 } := by
  rw [State.blockOn_shortfall hg, ← s.program_setProgram_self b { g with blocked := 2 }]
  refine State.program_of_anchors ?_ b
  rw [State.setFlag_anchors]
  split
  · rfl
  · exact State.bumpMembers_anchors _ b _

theorem State.emptied_program (hg : s.program b = some g) : ∃ h, (s.emptied b g).program b = some h ∧ g.emptiedAs h := by
  have hblock : (if g.blocked = 0 then s.blockOn b 2 else s).program b = some { g with blocked := if g.blocked = 0 then 2 else g.blocked } := by
    split
    · exact State.blockOn_program hg
    · exact hg
  have hhold := State.program_of_anchors (State.applyHold_anchors (if g.blocked = 0 then s.blockOn b 2 else s) b g (s.openMask b)) b
  unfold State.emptied State.queueEmptied
  rw [hhold, hblock]
  dsimp only
  rw [State.appliedTo_program (hhold.trans hblock)]
  exact ⟨_, rfl, rfl⟩

/-- Where in a sequencer's window its queue's emptying shows. -/
def emptiedOffsets : List Nat := [0xC8, 0x200, 0x210]

theorem seqB_apart {n m o p : Nat} (ho : o < 0x800) (hp : p < 0x800) (h : o ≠ p) : Reg.seqB n + o ≠ Reg.seqB m + p := by
  unfold Reg.seqB
  omega

theorem State.quad_foldl {α : Type} {f : State → α → State} {a : Nat} (hf : ∀ u x, (f u x).quad a = u.quad a) (l : List α) (s : State) :
    (l.foldl f s).quad a = s.quad a := by
  induction l generalizing s with
  | nil => rfl
  | cons x l ih => rw [List.foldl_cons, ih, hf]

theorem State.quad_modProgram (s : State) (b : Nat) (f : Program → Program) (a : Nat) : (s.modProgram b f).quad a = s.quad a := by
  unfold State.modProgram
  split <;> rfl

theorem State.applyHold_quad (s : State) (b : Nat) (g : Program) (k a : Nat) : (s.applyHold b g k).quad a = s.quad a := by
  unfold State.applyHold
  refine State.quad_foldl (fun u x => ?_) _ s
  split <;> rfl

/-- The other registers of sequencers read as before. -/
theorem State.emptied_quad (hg : s.program b = some g) (n : Nat) {o : Nat} (ho : o < 0x800) (h : o ∉ emptiedOffsets) :
    (s.emptied b g).quad (Reg.seqB n + o) = s.quad (Reg.seqB n + o) := by
  simp only [emptiedOffsets, List.mem_cons, List.not_mem_nil, or_false, not_or] at h
  obtain ⟨hcause, hfill, hshort⟩ := h
  have hblock : (s.blockOn b 2).quad (Reg.seqB n + o) = s.quad (Reg.seqB n + o) := by
    rw [State.blockOn_shortfall hg,
      State.quad_setFlag_other (f := Reg.STALL_CAUSE_SHORTFALL b) _ _ (seqB_apart (by decide) ho (Ne.symm hcause))]
    split
    · rfl
    · exact State.quad_foldl (fun u m => u.quad_bump_other (f := Reg.SHORTFALLS m) 1 (seqB_apart (by decide) ho (Ne.symm hshort))) _ _
  have happly (u : State) (t : Nat) : (u.appliedTo b t).quad (Reg.seqB n + o) = u.quad (Reg.seqB n + o) := by
    unfold State.appliedTo
    exact (State.quad_foldl (f := fun s n => s.showBuffer n)
      (fun u m => u.quad_setFld_other (f := Reg.STREAM_BUF_FILL m) _ (seqB_apart (by decide) ho (Ne.symm hfill))) _ _).trans
        (u.quad_modProgram b _ _)
  have hhold : ((if g.blocked = 0 then s.blockOn b 2 else s).applyHold b g (s.openMask b)).quad (Reg.seqB n + o) = s.quad (Reg.seqB n + o) := by
    rw [State.applyHold_quad]
    split
    · exact hblock
    · rfl
  unfold State.emptied State.queueEmptied
  split
  · rw [happly, hhold]
  · exact hhold

theorem State.emptied_fld (hg : s.program b = some g) {f : Fld} {n o : Nat} (hf : f.addr = Reg.seqB n + o) (ho : o < 0x800)
    (h : o ∉ emptiedOffsets) : (s.emptied b g).fld f = s.fld f := by
  rw [State.fld, hf, State.emptied_quad hg n ho h, State.fld, hf]

/-- What the row makes of the emptied queue of a word in the control store. -/
theorem State.emptyQueue_word {i w : Nat} {f : Frame} (safe : Bool) (hg : s.program b = some g) (hq : s.queueEmpty b g = true)
    (hf : s.fetchWord b g.micro.pc = some (i, f, w)) (hs : g.stall = 0) (hw : wStallSafe w = safe) :
    s.emptyQueue b safe = if safe then (s.emptied b g).enterSafeWait b (((s.emptied b g).program b).getD g)
      else (s.emptied b g).enterUnsafeStall b (((s.emptied b g).program b).getD g) := by
  unfold State.emptyQueue
  simp only [hg, hq, hf, hs, hw]
  cases safe <;> simp

theorem State.emptyQueue_missing (safe : Bool) (hg : s.program b = some g) (hq : s.queueEmpty b g = true)
    (hf : s.fetchWord b g.micro.pc = none) (hs : g.stall = 0) :
    s.emptyQueue b safe = ((s.emptied b g).setProgram b { ((s.emptied b g).program b).getD g with stall := 2 }).showExec b := by
  unfold State.emptyQueue
  simp only [hg, hq, hf, hs] <;> rfl

/-! ### SAFE_WAIT (R137) -/

theorem State.showExec_fld (s : State) (b : Nat) {f : Fld} (h : f.addr ≠ Reg.seqB b + 0x80) : (s.showExec b).fld f = s.fld f := by
  have hset (u : State) {e : Fld} (he : e.addr = Reg.seqB b + 0x80) (v : Nat) : (u.setFld e v).fld f = u.fld f :=
    State.fld_setFld_other _ _ _ _ (fun ha => absurd (ha.symm.trans he) h)
  unfold State.showExec State.setFlag
  split <;> rw [hset _ rfl, hset _ rfl, hset _ rfl, hset _ rfl]

/-- A stall-safe word waits: its count, and its program. -/
theorem State.enterSafeWait_leaves (hs : g.stall = 0) :
    (s.enterSafeWait b g).program b = some { g with
      stall := if g.blocked = 4 ∧ g.preempts ≠ [] then 3 else 1
      calHeld := g.blocked = 4 && g.preempts.isEmpty && g.calWant } ∧
    (s.enterSafeWait b g).fld (Reg.SAFE_WAITS b) = (s.fld (Reg.SAFE_WAITS b) + 1) % 2 ^ (Reg.SAFE_WAITS b).width := by
  unfold State.enterSafeWait
  dsimp only
  rw [if_neg (by simp [hs])]
  constructor
  · exact (State.program_of_anchors (State.showExec_anchors _ b) b).trans (State.program_setProgram_self _ b _)
  · rw [State.showExec_fld _ _ (seqB_apart (by decide) (by decide) (by decide))]
    exact State.fld_setFld_self s (Reg.SAFE_WAITS b) _ (show 0 + 64 ≤ 64 by decide)

theorem exec_safeWait_word {b : Fin 64} {i w : Nat} {f : Frame} (hr : s.inReset = false) (hg : s.program b.val = some g)
    (hq : s.queueEmpty b.val g = true) (hf : s.fetchWord b.val g.micro.pc = some (i, f, w)) (hw : wStallSafe w = true) (hs : g.stall = 0) :
    ∃ t h, exec (.safeWait b) s = .next t ∧ t.program b.val = some h ∧ h.micro = g.micro ∧
      h.stall = (if g.blocked = 4 ∧ g.preempts ≠ [] then 3 else 1) ∧
      t.fld (Reg.SAFE_WAITS b.val) = (s.fld (Reg.SAFE_WAITS b.val) + 1) % 2 ^ (Reg.SAFE_WAITS b.val).width := by
  obtain ⟨h, hh, he⟩ := State.emptied_program hg
  have hcount : (s.emptied b.val g).fld (Reg.SAFE_WAITS b.val) = s.fld (Reg.SAFE_WAITS b.val) :=
    State.emptied_fld hg (n := b.val) (o := 0x90) rfl (by decide) (by decide)
  have hwait : doSafeWait b.val s = (s.emptied b.val g).enterSafeWait b.val h := by
    unfold doSafeWait
    rw [State.emptyQueue_word true hg hq hf hs hw, if_pos rfl, hh]
    rfl
  obtain ⟨hprogram, hfld⟩ := State.enterSafeWait_leaves (s := s.emptied b.val g) (b := b.val) (g := h) (by rw [he]; exact hs)
  rw [hcount] at hfld
  refine ⟨_, _, event_next hr (doSafeWait_frozen b.val s), hwait ▸ hprogram, ?_, ?_, hwait ▸ hfld⟩
  · rw [he]
  · rw [he]
    by_cases hb : g.blocked = 0 <;> simp [hb]

theorem exec_safeWait_missing {b : Fin 64} (hr : s.inReset = false) (hg : s.program b.val = some g) (hq : s.queueEmpty b.val g = true)
    (hf : s.fetchWord b.val g.micro.pc = none) (hs : g.stall = 0) :
    ∃ t h, exec (.safeWait b) s = .next t ∧ t.program b.val = some h ∧ h.stall = 2 ∧ h.micro = g.micro := by
  obtain ⟨h, hh, he⟩ := State.emptied_program hg
  refine ⟨_, { h with stall := 2 }, event_next hr (doSafeWait_frozen b.val s), ?_, rfl, ?_⟩
  · unfold doSafeWait
    rw [State.emptyQueue_missing true hg hq hf hs, hh]
    exact (State.program_of_anchors (State.showExec_anchors _ _) _).trans (State.program_setProgram_self _ _ _)
  · rw [he]

end EmptiedQueue

/-! ### UNSAFE_STALL (R137, R138) -/

section UnsafeStall

variable {s : State} {b : Nat} {g h : Program}

/-- A stop for an unsafe stall, in the program's record. -/
def State.stopUnsafe (s : State) (b st : Nat) : State :=
  (((s.bump (Reg.UNSAFE_STALLS b) 1).stopGroup b st).modProgram b (fun g => { g with stall := 4 })).showExec b

theorem State.stopUnsafe_program {st : Nat} (hg : s.program b = some g) (h0 : first16 0 st = st) :
    ∃ h, (s.stopUnsafe b st).program b = some h ∧ g.stopped h st ∧ h.replays = g.replays := by
  have hbump : (s.bump (Reg.UNSAFE_STALLS b) 1).program b = some g := (State.program_of_anchors (State.bump_anchors _ _ _) b).trans hg
  obtain ⟨h, hh, ⟨hended, hstatus⟩, -, hreplays⟩ := State.stopGroup_program hbump h0
  refine ⟨{ h with stall := 4 }, ?_, ⟨hended, hstatus⟩, hreplays⟩
  unfold State.stopUnsafe
  rw [State.program_of_anchors (State.showExec_anchors _ b) b, State.program_modProgram_self, hh]
  rfl

theorem State.enterUnsafeStall_stops (hh : h.header.replayable = false ∨ h.snapshot = none) :
    s.enterUnsafeStall b h = s.stopUnsafe b 0x31 := by
  unfold State.enterUnsafeStall
  dsimp only
  rw [if_pos (by obtain hh | hh := hh <;> simp [hh])]
  rfl

theorem State.enterUnsafeStall_exhausted (hr : h.header.replayable = true) (hs : h.snapshot ≠ none) (hl : h.header.replayLimit ≤ h.replays) :
    s.enterUnsafeStall b h = s.stopUnsafe b 0x32 := by
  unfold State.enterUnsafeStall
  dsimp only
  rw [if_neg (by simp [hr, hs]), if_neg (by omega)]
  rfl

theorem State.enterUnsafeStall_replays (hr : h.header.replayable = true) (hs : h.snapshot ≠ none) (hl : h.replays < h.header.replayLimit) :
    s.enterUnsafeStall b h = (s.bump (Reg.UNSAFE_STALLS b) 1).replay b := by
  unfold State.enterUnsafeStall
  dsimp only
  rw [if_neg (by simp [hr, hs]), if_pos hl]

/-- A slot with an open site stays as it was. -/
theorem slot_dropClosed {m : Micro} {k opened : Nat} (hstate : (m.slot m.runningSlot).state ≠ 0)
    (hopen : andMask (m.slot m.runningSlot).sites opened ≠ 0) :
    (Micro.slot { m with slots := dropClosed m.slots opened, mask := k } m.runningSlot).state ≠ 0 := by
  unfold Micro.slot at hstate hopen ⊢
  dsimp only
  unfold dropClosed
  cases hx : m.slots[m.runningSlot]? with
  | none => simp [List.getD_eq_getElem?_getD, hx, freeSlot] at hstate
  | some x =>
    simp only [List.getD_eq_getElem?_getD, hx, Option.getD_some] at hstate hopen
    simpa [List.getD_eq_getElem?_getD, hx, hopen] using hstate

/-- Records and readings undone, and the streams led back to the snapshot (R138, R290). -/
theorem State.replayTail_noted (t : State) (b k p r q : Nat) (l ns : List Nat) (sent : List (Nat × Nat)) :
    t.noted (((((sent.foldl (fun s x => s.popWithdraw x.1 x.2) (ns.foldl (fun s n => s.voidRecords n p r)
      ((t.discardReadings b k).showSiteRegs b l))).departGroup b false).showStreamSeq b q).alignStreams b).showExec b) := by
  have hstart : t.noted ((t.discardReadings b k).showSiteRegs b l) :=
    (State.noted_of_anchors (State.discardReadings_anchors t b k)).anchors (State.showSiteRegs_anchors _ b l)
  have hundone := (hstart.foldl (fun u n => u.voidRecords_noted n p r) ns).foldl (fun u x => u.popWithdraw_noted x.1 x.2) sent
  exact hundone.anchors (by simp)

/-- A group that replays stands at its snapshot; what follows notes statuses at most (R138). -/
theorem State.replay_noted {m : Micro} {x : Option TrapMode} (hg : s.program b = some g) (hsnap : g.snapshot = some (m, x))
    (hstate : (m.slot m.runningSlot).state ≠ 0) (hopen : andMask (m.slot m.runningSlot).sites (s.openMask b) ≠ 0) :
    ∃ (t : State) (h : Program), t.program b = some h ∧ h.replays = g.replays + 1 ∧ h.micro.pc = m.pc ∧ h.micro.lc = m.lc ∧ h.trap = x ∧ h.ended = g.ended ∧
      t.noted (s.replay b) := by
  have hslot := slot_dropClosed (k := andMask m.mask (s.openMask b)) hstate hopen
  unfold State.replay
  simp only [hg, hsnap]
  rw [if_neg hslot]
  exact ⟨_, _, State.program_setProgram_self (s.bump (Reg.REPLAYS b) 1) b _, by rfl, by rfl, by rfl, by rfl, by rfl,
    State.replayTail_noted _ b _ _ _ _ _ _ _⟩

theorem mayReplay_stays {k : State → State} (hg : s.program b = some g) (hh : (k s).program b = some h) (hr : h.replays = g.replays) :
    mayReplay b k s = k s := by
  unfold mayReplay
  simp only [hg, hh, hr, Option.map_some, Option.getD_some, lt_irrefl, if_false]

theorem mayReplay_noted (b : Nat) (k : State → State) (s : State) : (k s).noted (mayReplay b k s) := by
  unfold mayReplay
  dsimp only
  split
  · split
    · exact (((k s).tmuDropSince_noted b _).trans (State.dgDropSince_noted _ b _)).anchors (State.dpsDropSince_anchors _ b _)
    · exact State.noted_refl _
  · exact State.noted_refl _

theorem exec_unsafeStall (b : Fin 64) (hr : s.inReset = false) :
    exec (.unsafeStall b) s = .next (mayReplay b.val (doUnsafeStall b.val) s) :=
  event_next hr (mayReplay_frozen b.val _ s (fun u => doUnsafeStall_frozen b.val u))

theorem Program.emptiedAs.stopped {h' : Program} (he : g.emptiedAs h) {st : Nat} (hs : h.stopped h' st) : g.stopped h' st := by
  rw [he] at hs
  exact hs

/-- The row where the stall stops the program. -/
theorem exec_unsafeStall_stops {b : Fin 64} {st : Nat} (hr : s.inReset = false) (hg : s.program b.val = some g)
    (hh : (s.emptied b.val g).program b.val = some h) (he : g.emptiedAs h) (h0 : first16 0 st = st)
    (hdo : doUnsafeStall b.val s = (s.emptied b.val g).stopUnsafe b.val st) :
    ∃ t h, exec (.unsafeStall b) s = .next t ∧ t.program b.val = some h ∧ g.stopped h st := by
  obtain ⟨h', hh', hstopped, hreplays⟩ := State.stopUnsafe_program hh h0
  rw [← hdo] at hh'
  have hreplays' : h'.replays = g.replays := by rw [hreplays, he]
  refine ⟨_, h', exec_unsafeStall b hr, ?_, he.stopped hstopped⟩
  rw [mayReplay_stays hg hh' hreplays', hh']

/-- The row where the group replays. -/
theorem exec_unsafeStall_replays {b : Fin 64} {m : Micro} {x : Option TrapMode} (hr : s.inReset = false)
    (hh : (s.emptied b.val g).program b.val = some h) (he : g.emptiedAs h) (hended : g.ended = false) (hsnap : g.snapshot = some (m, x))
    (hstate : (m.slot m.runningSlot).state ≠ 0) (hopen : andMask (m.slot m.runningSlot).sites ((s.emptied b.val g).openMask b.val) ≠ 0)
    (hdo : doUnsafeStall b.val s = ((s.emptied b.val g).bump (Reg.UNSAFE_STALLS b.val) 1).replay b.val) :
    ∃ t h, exec (.unsafeStall b) s = .next t ∧ t.program b.val = some h ∧ h.replays = g.replays + 1 ∧ h.micro.pc = m.pc ∧
      h.micro.lc = m.lc ∧ h.trap = x ∧ h.ended = false := by
  have hbump : ((s.emptied b.val g).bump (Reg.UNSAFE_STALLS b.val) 1).program b.val = some h :=
    (State.program_of_anchors (State.bump_anchors _ _ _) b.val).trans hh
  have hmask : ((s.emptied b.val g).bump (Reg.UNSAFE_STALLS b.val) 1).openMask b.val = (s.emptied b.val g).openMask b.val := by
    have hfld {f : Fld} (hf : f.addr = Reg.seqB b.val + 0x110) :
        ((s.emptied b.val g).bump (Reg.UNSAFE_STALLS b.val) 1).fld f = (s.emptied b.val g).fld f := by
      refine State.fld_setFld_other _ _ _ _ (fun ha => absurd (ha.trans hf) ?_)
      exact seqB_apart (by decide) (by decide) (by decide)
    unfold State.openMask State.enabledMask State.closedMask
    rw [hfld rfl, hfld rfl]
  rw [← hmask] at hopen
  have hsnap' : h.snapshot = some (m, x) := by rw [he]; exact hsnap
  obtain ⟨t, f, hf, hreplays, hpc, hlc, htrap, hend, hn⟩ := State.replay_noted hbump hsnap' hstate hopen
  rw [← hdo] at hn
  obtain ⟨k, hk, hkeep, -⟩ := (hn.trans (mayReplay_noted b.val (doUnsafeStall b.val) s)).some _ f hf
  refine ⟨_, k, exec_unsafeStall b hr, hk, ?_, ?_, ?_, ?_, ?_⟩ <;> rw [hkeep]
  · exact hreplays.trans (by rw [he])
  · exact hpc
  · exact hlc
  · exact htrap
  · exact hend.trans (by rw [he]; exact hended)

end UnsafeStall

/-- Settles O28: what follows a stop, a replay or a completion notes statuses at most (`State.noted`). -/
theorem programsEnd : Obligations.ProgramsEnd := by
  refine ⟨fun s b g hr hg hd => exec_programEnd hr hg hd, fun s b g hr hg hl hb he hs => exec_programTimeLimit hr hg hl hb he hs,
    fun s b g i w f hr hg hq hf hw hs => ?_, fun s b g i w f hr hg hq hf hw hs => exec_safeWait_word hr hg hq hf hw hs,
    fun s b g hr hg hq hf hs => exec_safeWait_missing hr hg hq hf hs⟩
  obtain ⟨h, hh, he⟩ := State.emptied_program hg
  have hstall : doUnsafeStall b.val s = (s.emptied b.val g).enterUnsafeStall b.val h := by
    unfold doUnsafeStall
    rw [State.emptyQueue_word false hg hq hf hs hw, hh]
    rfl
  refine ⟨fun hno => ?_, fun m x hrep hsnap hlim hopen hstate => ?_, fun hrep hsnap hlim => ?_⟩
  · refine exec_unsafeStall_stops hr hg hh he (by decide) ?_
    rw [hstall, State.enterUnsafeStall_stops]
    rw [he]
    exact hno
  · have hended : g.ended = false := by
      simp only [State.queueEmpty, Bool.and_eq_true, Bool.not_eq_true'] at hq
      exact hq.1.1.1
    refine exec_unsafeStall_replays hr hh he hended hsnap hstate ?_ ?_
    · have hfld {f : Fld} (ha : f.addr = Reg.seqB b.val + 0x110) : (s.emptied b.val g).fld f = s.fld f :=
        State.emptied_fld hg ha (by decide) (by decide)
      unfold State.openMask State.enabledMask State.closedMask at hopen ⊢
      rwa [hfld rfl, hfld rfl]
    · rw [hstall, State.enterUnsafeStall_replays]
      · rw [he]; exact hrep
      · rw [he]; simp [hsnap]
      · rw [he]; exact hlim
  · refine exec_unsafeStall_stops hr hg hh he (by decide) ?_
    rw [hstall, State.enterUnsafeStall_exhausted]
    · rw [he]; exact hrep
    · rw [he]; exact hsnap
    · rw [he]; exact hlim

end Sys2Proof.Machine
end

section
/-! SUPPORT. Window monitors of the device power supplies (R41, R263): where the register of a closure's cause meets a trip count. -/

namespace Sys2Proof.Machine

open Sys2Proof

/-- An enabled position whose Deckle has closed, with DPS channel 1. -/
def strayPos : SitePos := { position := 2, site := 5, safeState := true, aliveEn := false, pins := [0, 1], dps := [1] }

/-- Channel 1 is ON with its current bounds armed, and its site belongs to a group led by 80, a number above the 64 sequencers: there
the cause of a closure of position 2 (SITE_ENTRY_CAUSE) has the address of DPS_TRIPS of channel 1. -/
def straySite : State :=
  let s := (w0.setFld (Reg.DPS_STATUS_STATE 1) 1).setQuad (Reg.seqB 80 + 0x110) 0x0404
  { s with applied := (s.setFlag (Reg.MON_I_EN 1) true).regs, groups := [(80, { size := 1, positions := [strayPos] })] }

/-- Refutes O36: the statement takes any table of captured groups. Where a table names a leader outside the 64 sequencers, the cause
that a trip asserts at the site is written over the count of trips, which then reads 65537 after the first trip. -/
theorem not_dpsMonitors : ¬ Obligations.DpsMonitors := by
  unfold Obligations.DpsMonitors
  intro h
  obtain ⟨trips, -⟩ := h
  obtain ⟨t, ht, -, -, -, -, hcount, -⟩ :=
    trips straySite 1 15 12 (by decide +kernel) (by decide +kernel) (by decide) (by decide +kernel)
  have hreads : (wAfter (.dpsWindowTrip 1 15) straySite).fld (Reg.DPS_TRIPS 1) = 2 ^ 16 + 1 := by decide +kernel
  have hcounts : (straySite.fld (Reg.DPS_TRIPS 1) + 1) % 2 ^ 64 = 1 := by decide +kernel
  have hafter : wAfter (.dpsWindowTrip 1 15) straySite = t := by
    unfold wAfter
    rw [ht]
  rw [hafter] at hreads
  exact absurd ((hreads.symm.trans hcount).trans hcounts) (by decide)

end Sys2Proof.Machine
end

section
/-! SUPPORT. The sizes of the captured groups and the BG_BASE of the programs (R36, R39, R128): what leaves them alone. -/

namespace Sys2Proof.Machine

open Sys2Proof

/-- The size of each captured group, and the BG_BASE of each program. -/
structure Roster where
  size : Nat → Nat
  base : Nat → Option Nat

/-- What of the captured groups and the programs `State.fits` speaks of. -/
def State.roster (s : State) : Roster := ⟨fun b => (s.group b).size, fun b => (s.program b).map Program.bgBase⟩

@[simp] theorem State.roster_update (t : State) {x_pending x_regs x_applied x_timing x_timingApplied x_fuse x_burned x_perst
    x_internalReset x_xref x_hi x_ev x_mem x_held x_pins x_starts x_seqs x_rings x_clusters x_tmus x_awgs x_dgs
    x_dps x_swgHeld x_popTests x_dma x_felt x_power x_sec x_cals x_ser x_units x_jtag x_causes x_popInput x_draws} :
    State.roster (State.mk x_pending x_regs x_applied x_timing x_timingApplied x_fuse x_burned x_perst x_internalReset x_xref
        x_hi x_ev x_mem x_held x_pins t.groups t.programs x_starts x_seqs x_rings x_clusters x_tmus x_awgs x_dgs x_dps
        x_swgHeld x_popTests x_dma x_felt x_power x_sec x_cals x_ser x_units x_jtag x_causes x_popInput x_draws) = t.roster := by
  cases t
  rfl

@[simp] theorem State.roster_ite (c : Prop) [Decidable c] (s t : State) :
    (if c then s else t).roster = if c then s.roster else t.roster := apply_ite _ _ _ _

@[simp] theorem State.roster_ite_snd {α : Type} (c : Prop) [Decidable c] (s t : α × State) :
    (if c then s else t).2.roster = if c then s.2.roster else t.2.roster := by split <;> rfl

@[simp] theorem State.roster_foldl {α : Type} (f : State → α → State) (h : ∀ s a, (f s a).roster = s.roster) (l : List α)
    (s : State) : (l.foldl f s).roster = s.roster := by
  induction l generalizing s with
  | nil => rfl
  | cons a l ih => simp [ih, h]

@[simp] theorem State.base_of_program {s : State} {b : Nat} {g : Program} (h : s.program b = some g) :
    (s.roster.base b = some g.bgBase) = True := by
  simp [State.roster, h]

@[simp] theorem State.setProgram_roster {s : State} {b : Nat} {p : Program} (h : s.roster.base b = some p.bgBase) :
    (s.setProgram b p).roster = s.roster := by
  have hp : ∀ x, ((s.setProgram b p).program x).map Program.bgBase = (s.program x).map Program.bgBase := by
    intro x
    by_cases hx : x = b
    · subst hx
      rw [State.program_setProgram_self]
      exact h.symm
    · rw [State.program_setProgram_other _ _ hx]
  exact congrArg (Roster.mk _) (funext hp)

@[simp] theorem State.modProgram_roster (s : State) (b : Nat) (f : Program → Program) (hf : ∀ g, (f g).bgBase = g.bgBase) :
    (s.modProgram b f).roster = s.roster := by
  unfold State.modProgram
  split
  · next p hp => exact State.setProgram_roster (by rw [hf]; simp [State.roster, hp])
  · rfl

theorem State.roster_of_eq {α : Type} {x : α × State} {a : α} {u : State} {r : Roster} (h : x.2.roster = r)
    (e : x = (a, u)) : u.roster = r := by
  rw [e] at h
  exact h

/-! ### Operations that reach neither the captured groups nor the programs -/

@[simp] theorem State.setQuad_roster (s : State) (a : Nat) (v : BitVec 64) : (State.setQuad s a v).roster = s.roster := by
  simp [State.setQuad]

@[simp] theorem State.setFld_roster (s : State) (f : Fld) (v : Nat) : (State.setFld s f v).roster = s.roster := by
  simp [State.setFld]

@[simp] theorem State.setFlag_roster (s : State) (f : Fld) (b : Bool) : (State.setFlag s f b).roster = s.roster := by
  simp [State.setFlag]

@[simp] theorem State.bump_roster (s : State) (f : Fld) (k : Nat) : (State.bump s f k).roster = s.roster := by
  simp [State.bump]

@[simp] theorem State.applyVal_roster (s : State) (f : Fld) (v : Nat) : (State.applyVal s f v).roster = s.roster := by
  simp [State.applyVal]

@[simp] theorem State.applyFld_roster (s : State) (f : Fld) : (State.applyFld s f).roster = s.roster := by
  simp [State.applyFld]

@[simp] theorem State.applyFlds_roster (s : State) (l : List Fld) : (State.applyFlds s l).roster = s.roster := by
  simp [State.applyFlds]

@[simp] theorem State.raiseAt_roster (s : State) (n unit : Nat) (info t : Nat) : (State.raiseAt s n unit info t).roster =
    s.roster := by
  simp [State.raiseAt]

@[simp] theorem State.raise_roster (s : State) (n unit info : Nat) : (State.raise s n unit info).roster = s.roster := by
  simp [State.raise]

@[simp] theorem State.sendMsix_roster (s : State) (_v : Nat) : (State.sendMsix s _v).roster = s.roster := by
  simp [State.sendMsix]

@[simp] theorem State.deliverVector_roster (s : State) (v : Nat) : (State.deliverVector s v).roster = s.roster := by
  simp [State.deliverVector]

@[simp] theorem State.moderateCq_roster (s : State) (q : Nat) : (State.moderateCq s q).roster = s.roster := by
  simp [State.moderateCq]

@[simp] theorem State.released_roster (s : State) (c : Cmd) : (State.released s c).roster = s.roster := by
  unfold State.released
  split <;> simp

@[simp] theorem State.completeTo_roster (s : State) (cq : Nat) (c : Cmd) (st res : Nat) :
    (State.completeTo s cq c st res).roster = s.roster := by
  simp [State.completeTo]

@[simp] theorem State.complete_roster (s : State) (c : Cmd) (st res : Nat) : (State.complete s c st res).roster = s.roster :=
    by
  simp [State.complete]

@[simp] theorem State.checked_roster (s : State) (c : Cmd) (checks : List (Bool × Nat)) (k : State → State)
    (hk : ∀ x0, (k x0).roster = State.roster x0) : (State.checked s c checks k).roster = s.roster := by
  unfold State.checked
  split <;> simp [hk]

@[simp] theorem State.hold_roster (s : State) (c : Cmd) (w : WaitOn) : (State.hold s c w).roster = s.roster := by
  simp [State.hold]

@[simp] theorem State.draw_roster (s : State) (w : Nat) : (State.draw s w).2.roster = s.roster := by
  simp [State.draw]

@[simp] theorem State.writeDpa_roster (s : State) (a : Nat) (data : List Byte) (poison : Bool) :
    (State.writeDpa s a data poison).roster = s.roster := by
  simp [State.writeDpa]

@[simp] theorem State.writeHost_roster (s : State) (a : Nat) (data : List Byte) (poison : Bool) :
    (State.writeHost s a data poison).roster = s.roster := by
  simp [State.writeHost]

@[simp] theorem State.damage_roster (s : State) (block : Nat) (errors : List (Fin 68 × BitVec 8)) :
    (State.damage s block errors).roster = s.roster := by
  simp [State.damage]

@[simp] theorem State.strike_roster (s : State) (block : Nat) (errors : List (Fin 68 × BitVec 8)) :
    (State.strike s block errors).roster = s.roster := by
  simp [State.strike]

@[simp] theorem State.uncorrectable_roster (s : State) (block source : Nat) : (State.uncorrectable s block source).roster =
    s.roster := by
  simp [State.uncorrectable]

@[simp] theorem State.eccBlock_roster (source : Nat) (s : State) (block : Nat) : (State.eccBlock source s block).roster =
    s.roster := by
  unfold State.eccBlock
  (repeat' split) <;> simp

@[simp] theorem State.mergeBlocks_roster (s : State) (a n : Nat) : (State.mergeBlocks s a n).roster = s.roster := by
  simp [State.mergeBlocks]

@[simp] theorem State.logFault_roster (s : State) (x : MemCtx) (va k : Nat) (entry : Option Nat) (write : Bool) :
    (State.logFault s x va k entry write).roster = s.roster := by
  simp [State.logFault]

@[simp] theorem State.touchRange_roster (s : State) (r : AtcRange) : (State.touchRange s r).roster = s.roster := by
  simp [State.touchRange]

@[simp] theorem State.requestPage_roster (s : State) (w : Waiter) (entry base : Nat) :
    (State.requestPage s w entry base).roster = s.roster := by
  simp [State.requestPage]

@[simp] theorem State.awaitPage_roster (s : State) (w : Waiter) (entry base : Nat) : (State.awaitPage s w entry base).roster
    = s.roster := by
  simp [State.awaitPage]

@[simp] theorem State.hostPath_roster (s : State) (x : MemCtx) (va a entry : Nat) (write more : Bool) :
    (State.hostPath s x va a entry write more).2.roster = s.roster := by
  unfold State.hostPath
  dsimp only
  (repeat' split) <;> simp

@[simp] theorem State.faultAcc_roster (s : State) (x : MemCtx) (va k : Nat) (entry : Option Nat) (write : Bool) :
    (State.faultAcc s x va k entry write).2.roster = s.roster := by
  simp [State.faultAcc]

@[simp] theorem State.poisonAcc_roster (s : State) (x : MemCtx) (va k entry : Nat) (data : List Byte) :
    (State.poisonAcc s x va k entry data).2.roster = s.roster := by
  simp [State.poisonAcc]

@[simp] theorem State.poisonDelivered_roster (s : State) (bad : List Nat) : (State.poisonDelivered s bad).roster = s.roster
    := by
  simp [State.poisonDelivered]

@[simp] theorem State.readPiece_roster (s : State) (x : MemCtx) (va n : Nat) (more : Bool) :
    (State.readPiece s x va n more).2.roster = s.roster := by
  unfold State.readPiece
  split
  · simp
  · split
    · rfl
    · split
      · simp
      · split
        · simp
        · dsimp only
          (repeat' split) <;> simp
      · rename_i a e _
        split
        · simp
        · have h := State.hostPath_roster s x va a e false more
          split
          · rename_i heq
            rw [heq] at h
            split
            · simpa using h
            · split
              · simpa using h
              · simpa using h
          all_goals (rename_i heq; rw [heq] at h; simpa using h)

@[simp] theorem readPieces_roster (v0 : Nat) (v1 : MemCtx) (v2 v3 : Nat) (s : State) : (readPieces v0 v1 v2 v3 s).2.roster =
    s.roster := by
  induction v0 generalizing v1 v2 v3 s with
  | zero => rfl
  | succ fuel ih =>
    simp only [readPieces]
    split
    · rfl
    · have h := State.readPiece_roster s v1 v2 (min v3 (4096 - v2 % 4096)) (s.goesOn v2 v3)
      split
      · rename_i d p s1 heq
        rw [heq] at h
        have h2 := ih v1 (v2 + min v3 (4096 - v2 % 4096)) (v3 - min v3 (4096 - v2 % 4096)) s1
        split
        · rename_i heq2
          rw [heq2] at h2
          exact h2.trans h
        · exact h2.trans h
      · exact h

@[simp] theorem State.memRead_roster (s : State) (x : MemCtx) (va n : Nat) : (State.memRead s x va n).2.roster = s.roster :=
    by
  simp [State.memRead]

@[simp] theorem State.writePiece_roster (s : State) (x : MemCtx) (va : Nat) (data : List Byte) (poison more : Bool) :
    (State.writePiece s x va data poison more).2.roster = s.roster := by
  unfold State.writePiece
  split
  · simp
  · split
    · rfl
    · split
      · simp
      · simp
      · rename_i a e _
        have h := State.hostPath_roster s x va a e true more
        split <;> (rename_i heq; rw [heq] at h; simpa using h)

@[simp] theorem writePieces_roster (v0 : Nat) (v1 : MemCtx) (v2 : Nat) (v3 : List Byte) (v4 : Bool) (s : State) :
    (writePieces v0 v1 v2 v3 v4 s).2.roster = s.roster := by
  induction v0 generalizing v1 v2 v3 v4 s with
  | zero => rfl
  | succ fuel ih =>
    simp only [writePieces]
    split
    · rfl
    · have h := State.writePiece_roster s v1 v2 (v3.take (4096 - v2 % 4096)) v4 (s.goesOn v2 v3.length)
      split
      · rename_i heq
        rw [heq] at h
        exact (ih _ _ _ _ _).trans h
      · exact h

@[simp] theorem State.memWrite_roster (s : State) (x : MemCtx) (va : Nat) (data : List Byte) (poison : Bool) :
    (State.memWrite s x va data poison).2.roster = s.roster := by
  simp [State.memWrite]

@[simp] theorem State.abandon_roster (s : State) (engine unit : Nat) : (State.abandon s engine unit).roster = s.roster := by
  simp [State.abandon]

@[simp] theorem prePieces_roster (v0 : Nat) (v1 : MemCtx) (v2 v3 : Nat) (s : State) : (prePieces v0 v1 v2 v3 s).2.roster =
    s.roster := by
  induction v0 generalizing v1 v2 v3 s with
  | zero => rfl
  | succ n ih =>
    unfold prePieces
    (repeat' split) <;> simp [ih]

@[simp] theorem State.keepRequests_roster (s t : State) : (State.keepRequests s t).roster = s.roster := by
  simp [State.keepRequests]

@[simp] theorem State.preRead_roster (s : State) (x : MemCtx) (va n : Nat) : (State.preRead s x va n).2.2.roster = s.roster
    := by
  simp [State.preRead]

@[simp] theorem State.withReadOr_roster (s : State) (c : Cmd) (x : MemCtx) (va n : Nat) (breach : List (Option Byte) → Bool)
    (refuse : State → State) (k : List Byte → State → State) (hrefuse : ∀ x0, (refuse x0).roster = State.roster x0)
    (hk : ∀ x0 x1, (k x0 x1).roster = State.roster x1) : (State.withReadOr s c x va n breach refuse k).roster = s.roster :=
    by
  unfold State.withReadOr
  dsimp only
  (repeat' split) <;> simp [hrefuse, hk]

@[simp] theorem State.withRead_roster (s : State) (c : Cmd) (x : MemCtx) (va n : Nat) (k : List Byte → State → State)
    (hk : ∀ x0 x1, (k x0 x1).roster = State.roster x1) : (State.withRead s c x va n k).roster = s.roster := by
  simp [State.withRead, hk]

@[simp] theorem State.modSeq_roster (s : State) (n : Nat) (f : Seq → Seq) : (State.modSeq s n f).roster = s.roster := by
  simp [State.modSeq]

@[simp] theorem State.modPin_roster (s : State) (p : Nat) (f : Pin → Pin) : (State.modPin s p f).roster = s.roster := by
  simp [State.modPin]

@[simp] theorem State.showElastic_roster (s : State) (n : Nat) : (State.showElastic s n).roster = s.roster := by
  simp [State.showElastic]

@[simp] theorem State.startExit_roster (s : State) : (State.startExit s).roster = s.roster := by
  simp [State.startExit]

@[simp] theorem State.accepts_roster (s : State) (c : Cmd) : (State.accepts s c).roster = s.roster := by
  unfold State.accepts
  split <;> simp

@[simp] theorem State.undispatch_roster (s : State) (c : Cmd) : (State.undispatch s c).roster = s.roster := by
  simp [State.undispatch]

@[simp] theorem State.accept_roster (s : State) (c : Cmd) (k : Cmd → State → State)
    (hk : ∀ x0 x1, (k x0 x1).roster = State.roster x1) : (State.accept s c k).roster = s.roster := by
  simp [State.accept, hk]

@[simp] theorem State.applyVoltages_roster (s : State) (l : List Fld) : (State.applyVoltages s l).roster = s.roster := by
  simp [State.applyVoltages]

@[simp] theorem State.applyCurrent_roster (s : State) (step : Int) (f : Fld) : (State.applyCurrent s step f).roster =
    s.roster := by
  simp [State.applyCurrent]

@[simp] theorem State.applyLevelSet_roster (s : State) (p k : Nat) : (State.applyLevelSet s p k).roster = s.roster := by
  simp [State.applyLevelSet]

@[simp] theorem State.applyClamps_roster (s : State) (p : Nat) : (State.applyClamps s p).roster = s.roster := by
  simp [State.applyClamps]

@[simp] theorem State.applyThreshold_roster (s : State) (p : Nat) : (State.applyThreshold s p).roster = s.roster := by
  simp [State.applyThreshold]

@[simp] theorem State.applyPpmu_roster (s : State) (p : Nat) : (State.applyPpmu s p).roster = s.roster := by
  simp [State.applyPpmu]

@[simp] theorem State.showCeiling_roster (s : State) (p : Nat) : (State.showCeiling s p).roster = s.roster := by
  simp [State.showCeiling]

@[simp] theorem State.applyPin_roster (s : State) (p : Nat) : (State.applyPin s p).roster = s.roster := by
  simp [State.applyPin]

@[simp] theorem State.pinWritten_roster (s : State) (p : Nat) : (State.pinWritten s p).roster = s.roster := by
  simp [State.pinWritten]

@[simp] theorem State.modCluster_roster (s : State) (c : Nat) (f : Cluster → Cluster) : (State.modCluster s c f).roster =
    s.roster := by
  simp [State.modCluster]

@[simp] theorem State.ppmuRunEnd_roster (s : State) (cl : Nat) (r : PpmuRun) : (State.ppmuRunEnd s cl r).roster = s.roster :=
    by
  simp [State.ppmuRunEnd]

@[simp] theorem State.ppmuPinDone_roster (s : State) (cl i : Nat) (cmd : Cmd) (ok flagged : Bool) :
    (State.ppmuPinDone s cl i cmd ok flagged).roster = s.roster := by
  unfold State.ppmuPinDone
  split <;> simp

@[simp] theorem State.feltSend_roster (s : State) (dest typ : Nat) (tid poison : Nat) (flits : List Nat) :
    (State.feltSend s dest typ tid poison flits).roster = s.roster := by
  simp [State.feltSend]

@[simp] theorem State.sendReduce_roster (s : State) (dest test : Nat) (round kind check : Nat) (body : List Byte) :
    (State.sendReduce s dest test round kind check body).roster = s.roster := by
  simp [State.sendReduce]

@[simp] theorem State.modPop_roster (s : State) (k : Nat) (f : PopTest → PopTest) : (State.modPop s k f).roster = s.roster :=
    by
  unfold State.modPop
  split <;> simp

@[simp] theorem State.showTree_roster (s : State) : (State.showTree s).roster = s.roster := by
  simp [State.showTree]

@[simp] theorem State.workTouch_roster (s : State) (t : PopTest) (off n : Nat) : (State.workTouch s t off n).2.roster =
    s.roster := by
  unfold State.workTouch
  grind [State.memRead_roster, State.memWrite_roster, State.roster_update, State.roster_foldl]

@[simp] theorem State.workStore_roster (s : State) (t : PopTest) (v2 : List (Nat × List Byte)) :
    (State.workStore s t v2).2.roster = s.roster := by
  induction v2 generalizing s with
  | nil => rfl
  | cons x l ih =>
    obtain ⟨off, data⟩ := x
    have h := State.memWrite_roster s popCtx (t.work + off) data false
    unfold State.workStore
    split
    · rename_i heq
      rw [heq] at h
      exact (ih _).trans h
    all_goals (rename_i heq; rw [heq] at h; exact h)

@[simp] theorem State.popAsk_roster (s : State) (k : Nat) (l : List PopOp) : (State.popAsk s k l).roster = s.roster := by
  simp [State.popAsk]

@[simp] theorem State.tellFollowers_roster (s : State) (k : Nat) : (State.tellFollowers s k).roster = s.roster := by
  simp [State.tellFollowers]

@[simp] theorem State.tellChildren_roster (s : State) (t : PopTest) (kind : Nat) (body : List Byte) :
    (State.tellChildren s t kind body).roster = s.roster := by
  simp [State.tellChildren]

@[simp] theorem State.failTest_roster (s : State) (k st : Nat) : (State.failTest s k st).roster = s.roster := by
  unfold State.failTest
  split <;> simp

theorem popGo_roster (k : Nat) (r : Work × State) (f : List Byte → State → PopRun) (s : State) (hr : r.2.roster = s.roster)
    (hf : ∀ d u, u.roster = s.roster → (f d u).s.roster = s.roster) : (popGo k r f).s.roster = s.roster := by
  obtain ⟨w, u⟩ := r
  change u.roster = s.roster at hr
  cases w with
  | done d => exact hf d u hr
  | wait => exact hr
  | fail p => simpa [popGo] using hr

@[simp] theorem State.popRecord_roster (s : State) (k : Nat) (t : PopTest) (r : PopReading) : (s.popRecord k t r).s.roster =
    s.roster := by
  unfold State.popRecord
  extract_lets unflagged b binned off e
  split
  · simp
  · refine popGo_roster _ _ _ _ (by simp) (fun _ s1 h1 => ?_)
    split
    · refine popGo_roster _ _ _ _ (by simp [h1]) (fun c s2 h2 => ?_)
      exact popGo_roster _ _ _ _ (by simp [h2]) (fun _ s3 h3 => by simp [h3])
    · exact popGo_roster _ _ _ _ (by simp [h1]) (fun _ s2 h2 => by simp [h2])

@[simp] theorem State.popClose_roster (s : State) (k : Nat) (t : PopTest) : (s.popClose k t).s.roster = s.roster := by
  unfold State.popClose
  split
  · rfl
  · refine popGo_roster _ _ _ _ (by simp) (fun l s1 h1 => ?_)
    split
    · simp [h1]
    · refine popGo_roster _ _ _ _ (by simp [h1]) (fun m s2 h2 => ?_)
      exact popGo_roster _ _ _ _ (by simp [h2]) (fun _ s3 h3 => by simp [h3])

@[simp] theorem State.popSend_roster (s : State) (k : Nat) (t : PopTest) : (s.popSend k t).s.roster = s.roster := by
  unfold State.popSend
  extract_lets send
  split
  · rfl
  · split
    · simp [send]
    · exact popGo_roster _ _ _ _ (by simp) (fun d s1 h1 => by simp [send, h1])

@[simp] theorem State.popMerge_roster (s : State) (k : Nat) (t : PopTest) (src covered : Nat) (late : Bool) (u o : Nat)
    (bins : List Nat) : (s.popMerge k t src covered late u o bins).s.roster = s.roster := by
  unfold State.popMerge
  dsimp only
  split
  · simp
  · split
    · simp
    · split
      · simp
      · have h := State.workTouch_roster s t 0x4000 (4 * t.bins)
        split <;> (rename_i heq; rw [heq] at h)
        · exact popGo_roster _ _ _ _ (by simpa using h) (fun _ _ hu => by simpa using hu)
        · exact h
        · simpa using h

@[simp] theorem State.popFinal_roster (s : State) (k : Nat) (t : PopTest) (time : Nat) : (s.popFinal k t time).s.roster =
    s.roster := by
  unfold State.popFinal
  split
  · rfl
  · exact popGo_roster _ _ _ _ (by simp) (fun d s1 h1 => by simp [h1])

@[simp] theorem State.popFinalFrom_roster (s : State) (k : Nat) (t : PopTest) (body : List Byte) :
    (s.popFinalFrom k t body).s.roster = s.roster := by
  unfold State.popFinalFrom
  split <;> simp

@[simp] theorem State.popResolve_roster (s : State) (k : Nat) (t : PopTest) : (s.popResolve k t).s.roster = s.roster := by
  unfold State.popResolve
  split
  · rfl
  · split
    · rfl
    · refine popGo_roster _ _ _ _ (by simp) (fun d s1 h1 => ?_)
      exact popGo_roster _ _ _ _ (by simp [h1]) (fun _ s2 h2 => by simp [h2])

@[simp] theorem State.popUndo_roster (s : State) (k : Nat) (t : PopTest) (site : Nat) : (s.popUndo k t site).s.roster =
    s.roster := by
  unfold State.popUndo
  split
  · rfl
  · refine popGo_roster _ _ _ _ (by simp) (fun d s1 h1 => ?_)
    extract_lets e b gone inBin expected e1
    split
    · refine popGo_roster _ _ _ _ (by split <;> simp [h1]) (fun x s2 h2 => ?_)
      exact popGo_roster _ _ _ _ (by simp [h2]) (fun _ s3 h3 => by simp [h3])
    · exact popGo_roster _ _ _ _ (by simp [h1]) (fun _ s2 h2 => by simp [h2])

@[simp] theorem State.popRun_roster (s : State) (k : Nat) (t : PopTest) (op : PopOp) : (s.popRun k t op).s.roster = s.roster
    := by
  unfold State.popRun
  split
  · exact popGo_roster _ _ _ _ (by simp) (fun _ s1 h1 => by simp [h1])
  · split <;> simp
  · split
    · rfl
    · refine popGo_roster _ _ _ _ (by simp) (fun d s1 h1 => ?_)
      exact popGo_roster _ _ _ _ (by simp [h1]) (fun _ s2 h2 => by simp [h2])
  · simp
  · simp
  · simp
  · simp
  · simp
  · simp
  · simp
  · split
    · rfl
    · exact popGo_roster _ _ _ _ (by simp) (fun _ s1 h1 => by simp [h1])
  · split <;> simp
  · simp

@[simp] theorem State.popPump_roster (v0 v1 : Nat) (s : State) : (State.popPump v0 v1 s).roster = s.roster := by
  induction v0 generalizing v1 s with
  | zero => rfl
  | succ fuel ih =>
    unfold State.popPump
    split
    · rfl
    · split
      · rfl
      · dsimp only
        split
        · rw [ih]; simp
        · simp

@[simp] theorem State.popGoOn_roster (s : State) (k : Nat) : (State.popGoOn s k).roster = s.roster := by
  simp [State.popGoOn]

@[simp] theorem State.popDo_roster (s : State) (k : Nat) (l : List PopOp) : (State.popDo s k l).roster = s.roster := by
  simp [State.popDo]

@[simp] theorem State.popRetry_roster (s : State) : (State.popRetry s).roster = s.roster := by
  unfold State.popRetry
  exact State.roster_foldl _ (fun _ _ => by split <;> simp) _ _

@[simp] theorem State.popLeave_roster (s : State) (site : Nat) : (State.popLeave s site).roster = s.roster := by
  unfold State.popLeave
  exact State.roster_foldl _ (fun _ _ => by split <;> simp) _ _

@[simp] theorem State.popTake_roster (s : State) (r : PopReading) : (State.popTake s r).roster = s.roster := by
  unfold State.popTake
  split <;> simp

@[simp] theorem doPopReading_roster (s : State) : (doPopReading s).roster = s.roster := by
  unfold doPopReading
  split <;> simp

@[simp] theorem State.popMessage_roster (s : State) (test round check : Nat) (k : Nat → PopTest → State → State)
    (hk : ∀ x0 x1 x2, (k x0 x1 x2).roster = State.roster x2) : (State.popMessage s test round check k).roster = s.roster :=
    by
  unfold State.popMessage
  split <;> simp [hk]

@[simp] theorem State.popReport_roster (s : State) (src test : Nat) (round check covered : Nat) (late : Bool) (u o : Nat)
    (bins : List Nat) : (State.popReport s src test round check covered late u o bins).roster = s.roster := by
  simp [State.popReport]

@[simp] theorem State.popLimits_roster (s : State) (test round check : Nat) (body : List Byte) :
    (State.popLimits s test round check body).roster = s.roster := by
  simp [State.popLimits]

@[simp] theorem State.popFailure_roster (s : State) (test round check : Nat) : (State.popFailure s test round check).roster =
    s.roster := by
  simp [State.popFailure]

@[simp] theorem doForwardDeadline_roster (k : Nat) (s : State) : (doForwardDeadline k s).roster = s.roster := by
  unfold doForwardDeadline
  split <;> simp

@[simp] theorem doDeadline_roster (k : Nat) (s : State) : (doDeadline k s).roster = s.roster := by
  unfold doDeadline
  split <;> simp

@[simp] theorem State.passDeadlines_roster (s : State) : (State.passDeadlines s).roster = s.roster := by
  simp [State.passDeadlines]

@[simp] theorem doPopDefine_roster (c : Cmd) (s : State) : (doPopDefine c s).roster = s.roster := by
  simp [doPopDefine]

@[simp] theorem State.popChecked_roster (s : State) (c : Cmd) (more : PopTest → Bool) (k : Nat → PopTest → State → State)
    (hk : ∀ x0 x1 x2, (k x0 x1 x2).roster = State.roster x2) : (State.popChecked s c more k).roster = s.roster := by
  unfold State.popChecked
  split <;> simp [hk]

@[simp] theorem doPopFinalise_roster (c : Cmd) (s : State) : (doPopFinalise c s).roster = s.roster := by
  simp [doPopFinalise]

@[simp] theorem doPopRead_roster (c : Cmd) (s : State) : (doPopRead c s).roster = s.roster := by
  simp [doPopRead]

@[simp] theorem State.endAnswers_roster (s : State) (t : PopTest) (st : Nat) : (State.endAnswers s t st).roster = s.roster :=
    by
  unfold State.endAnswers
  exact State.roster_foldl _ (fun _ _ => by split <;> simp) _ _

@[simp] theorem doPopRelease_roster (c : Cmd) (s : State) : (doPopRelease c s).roster = s.roster := by
  simp [doPopRelease]

@[simp] theorem State.popWithdraw_roster (s : State) (test site : Nat) : (State.popWithdraw s test site).roster = s.roster :=
    by
  unfold State.popWithdraw
  dsimp only
  (repeat' split) <;> simp

@[simp] theorem State.holdPin_roster (s : State) (g : Program) (x : SitePos) (p i j : Nat) :
    (State.holdPin s g x p i j).roster = s.roster := by
  simp [State.holdPin]

@[simp] theorem State.holdVector_roster (s : State) (g : Program) (x : SitePos) (p i j : Nat) :
    (State.holdVector s g x p i j).roster = s.roster := by
  simp [State.holdVector]

@[simp] theorem State.applyHold_roster (s : State) (b : Nat) (g : Program) (positions : Nat) :
    (State.applyHold s b g positions).roster = s.roster := by
  simp [State.applyHold]

@[simp] theorem State.applyHoldVector_roster (s : State) (b : Nat) (g : Program) (positions : Nat) :
    (State.applyHoldVector s b g positions).roster = s.roster := by
  simp [State.applyHoldVector]

@[simp] theorem State.showBuffer_roster (s : State) (n : Nat) : (State.showBuffer s n).roster = s.roster := by
  simp [State.showBuffer]

@[simp] theorem State.showRing_roster (s : State) (g : Nat) : (State.showRing s g).roster = s.roster := by
  simp [State.showRing]

@[simp] theorem State.leaveRing_roster (s : State) (lag : Bool) (n : Nat) : (State.leaveRing s lag n).roster = s.roster := by
  unfold State.leaveRing
  split <;> simp

@[simp] theorem State.idleStreams_roster (s : State) (b : Nat) : (State.idleStreams s b).roster = s.roster := by
  simp [State.idleStreams]

@[simp] theorem State.showExec_roster (s : State) (b : Nat) : (State.showExec s b).roster = s.roster := by
  unfold State.showExec
  split <;> simp

@[simp] theorem State.completeAll_roster (s : State) (l : List Cmd) (st res : Nat) : (State.completeAll s l st res).roster =
    s.roster := by
  simp [State.completeAll]

@[simp] theorem State.readBlock_roster (s : State) (h : Header) (n lanes : Nat) (lane seg : Nat) (ref consumer : Nat)
    (spec : Bool) : (State.readBlock s h n lanes lane seg ref consumer spec).2.roster = s.roster := by
  unfold State.readBlock
  grind [State.memRead_roster, State.bump_roster, State.roster_update, State.roster_foldl]

@[simp] theorem State.setTsWritten_roster (s : State) (key v : Nat) : (State.setTsWritten s key v).roster = s.roster := by
  simp [State.setTsWritten]

@[simp] theorem State.setTsApplied_roster (s : State) (key v : Nat) : (State.setTsApplied s key v).roster = s.roster := by
  simp [State.setTsApplied]

@[simp] theorem State.setTsErr_roster (s : State) (c t : Nat) (b : Bool) : (State.setTsErr s c t b).roster = s.roster := by
  simp [State.setTsErr]

@[simp] theorem State.applySet_roster (s : State) (c t : Nat) : (State.applySet s c t).roster = s.roster := by
  simp [State.applySet]

@[simp] theorem State.recheckSets_roster (s : State) (c : Nat) : (State.recheckSets s c).roster = s.roster := by
  simp [State.recheckSets]

@[simp] theorem State.startRelock_roster (s0 : State) (c : Nat) : (State.startRelock s0 c).roster = s0.roster := by
  simp [State.startRelock]

@[simp] theorem State.applyFreq_roster (s : State) (c v : Nat) : (State.applyFreq s c v).roster = s.roster := by
  simp [State.applyFreq]

@[simp] theorem State.freqWritten_roster (s : State) (c : Nat) : (State.freqWritten s c).roster = s.roster := by
  simp [State.freqWritten]

@[simp] theorem State.tsWrite_roster (s : State) (key v : Nat) : (State.tsWrite s key v).roster = s.roster := by
  simp [State.tsWrite]

@[simp] theorem State.applyDeskew_roster (s : State) (c i : Nat) : (State.applyDeskew s c i).roster = s.roster := by
  simp [State.applyDeskew]

@[simp] theorem State.deskewWritten_roster (s : State) (p : Nat) : (State.deskewWritten s p).roster = s.roster := by
  simp [State.deskewWritten]

@[simp] theorem State.releaseTiming_roster (s : State) (c : Nat) (f : Nat → Bool) : (State.releaseTiming s c f).roster =
    s.roster := by
  simp [State.releaseTiming]

@[simp] theorem State.releasePins_roster (s : State) (n : Nat) : (State.releasePins s n).roster = s.roster := by
  simp [State.releasePins]

@[simp] theorem State.takePeriods_roster (s : State) (c : Nat) : (State.takePeriods s c).roster = s.roster := by
  unfold State.takePeriods
  dsimp only
  (repeat' split) <;> simp

@[simp] theorem State.releaseCluster_roster (s : State) (c : Nat) : (State.releaseCluster s c).roster = s.roster := by
  simp [State.releaseCluster]

@[simp] theorem State.alignCluster_roster (s : State) (c : Nat) : (State.alignCluster s c).roster = s.roster := by
  simp [State.alignCluster]

@[simp] theorem doRelockEnd_roster (c : Nat) (s0 : State) : (doRelockEnd c s0).roster = s0.roster := by
  simp [doRelockEnd]

@[simp] theorem State.keepEntries_roster (s : State) (n k : Nat) : (State.keepEntries s n k).roster = s.roster := by
  simp [State.keepEntries]

@[simp] theorem State.departGroup_roster (s : State) (b : Nat) (lag : Bool) : (State.departGroup s b lag).roster = s.roster
    := by
  simp [State.departGroup]

@[simp] theorem State.dropRingFrom_roster (s : State) (g k : Nat) : (State.dropRingFrom s g k).roster = s.roster := by
  simp [State.dropRingFrom]

@[simp] theorem State.writeRing_roster (s : State) (g : Nat) (x : Block) : (State.writeRing s g x).roster = s.roster := by
  simp [State.writeRing]

@[simp] theorem State.takeRing_roster (s : State) (g n : Nat) : (State.takeRing s g n).roster = s.roster := by
  unfold State.takeRing
  dsimp only
  (repeat' split) <;> simp

@[simp] theorem State.alignStreams_roster (s : State) (b : Nat) : (State.alignStreams s b).roster = s.roster := by
  unfold State.alignStreams
  grind [State.departGroup_roster, State.keepEntries_roster, State.dropRingFrom_roster, State.roster_update, State.roster_foldl]

@[simp] theorem State.showRingOf_roster (s : State) (n : Nat) : (State.showRingOf s n).roster = s.roster := by
  unfold State.showRingOf
  split <;> simp

@[simp] theorem State.takeLanes_roster (s : State) (b : Nat) : (State.takeLanes s b).2.roster = s.roster := by
  unfold State.takeLanes
  exact State.roster_foldl _ (fun _ _ => by split <;> simp) _ _

@[simp] theorem State.joinRing_roster (s : State) (r n : Nat) (lane image : Nat) (segment addr : Nat) (out : Nat × Nat) :
    (State.joinRing s r n lane image segment addr out).roster = s.roster := by
  simp [State.joinRing]

@[simp] theorem State.tryJoin_roster (s : State) (b : Nat) (g : Program) (segment addr : Nat) :
    (State.tryJoin s b g segment addr).roster = s.roster := by
  simp [State.tryJoin]

@[simp] theorem State.recordTags_roster (s : State) (b : Nat) (g : Program) (addr : Nat) :
    (State.recordTags s b g addr).roster = s.roster := by
  unfold State.recordTags
  exact State.roster_foldl _ (fun _ _ => by split <;> simp) _ _

@[simp] theorem State.privateArrival_roster (s : State) (n : Nat) (x : Block) : (State.privateArrival s n x).roster =
    s.roster := by
  simp [State.privateArrival]

@[simp] theorem State.ringArrival_roster (s : State) (r p n : Nat) (x : Block) : (State.ringArrival s r p n x).roster =
    s.roster := by
  simp [State.ringArrival]

@[simp] theorem State.fetchBlock_roster (s : State) (b n : Nat) (g : Program) (put : State → Block → State)
    (hput : ∀ x0 x1, (put x0 x1).roster = State.roster x0) : (State.fetchBlock s b n g put).roster = s.roster := by
  unfold State.fetchBlock
  split
  · rfl
  · split
    · rfl
    · split <;> next h => simp [hput, State.roster_of_eq (State.readBlock_roster ..) h]

@[simp] theorem State.leaveAndFetch_roster (s : State) (b n : Nat) (g : Program) (lag : Bool) :
    (State.leaveAndFetch s b n g lag).roster = s.roster := by
  simp [State.leaveAndFetch]

@[simp] theorem State.pilotFetch_roster (s : State) (b n r : Nat) (g : Program) (i : PathItem) :
    (State.pilotFetch s b n r g i).roster = s.roster := by
  unfold State.pilotFetch
  dsimp only
  (repeat' split) <;> simp

@[simp] theorem State.ringBlock_roster (s : State) (b n r : Nat) (g : Program) : (State.ringBlock s b n r g).roster =
    s.roster := by
  unfold State.ringBlock
  dsimp only
  (repeat' split) <;> simp

@[simp] theorem State.showSiteRegs_roster (s : State) (b : Nat) (l : List Nat) : (State.showSiteRegs s b l).roster = s.roster
    := by
  simp [State.showSiteRegs]

@[simp] theorem State.showStreamSeq_roster (s : State) (b v : Nat) : (State.showStreamSeq s b v).roster = s.roster := by
  simp [State.showStreamSeq]

@[simp] theorem State.assertCause_roster (s : State) (b p k : Nat) : (State.assertCause s b p k).roster = s.roster := by
  simp [State.assertCause]

@[simp] theorem State.showFrames_roster (s : State) (n : Nat) : (State.showFrames s n).roster = s.roster := by
  simp [State.showFrames]

@[simp] theorem State.dropFrame_roster (s : State) (n i : Nat) : (State.dropFrame s n i).roster = s.roster := by
  unfold State.dropFrame
  split <;> simp

@[simp] theorem State.dropFrames_roster (s : State) (b i : Nat) : (State.dropFrames s b i).roster = s.roster := by
  simp [State.dropFrames]

@[simp] theorem State.invalidateFrames_roster (s : State) (n : Nat) : (State.invalidateFrames s n).roster = s.roster := by
  simp [State.invalidateFrames]

@[simp] theorem State.putFrame_roster (s : State) (b i : Nat) (f : Frame) : (State.putFrame s b i f).roster = s.roster := by
  simp [State.putFrame]

@[simp] theorem State.useFrame_roster (s : State) (b i : Nat) : (State.useFrame s b i).roster = s.roster := by
  simp [State.useFrame]

@[simp] theorem State.bumpMembers_roster (s : State) (b : Nat) (f : Nat → Fld) : (State.bumpMembers s b f).roster = s.roster
    := by
  simp [State.bumpMembers]

@[simp] theorem readBlocks_roster (x : MemCtx) (va v2 v3 : Nat) (s : State) : (readBlocks x va v2 v3 s).2.roster = s.roster
    := by
  induction v2 generalizing v3 s with
  | zero => rfl
  | succ fuel ih =>
    simp only [readBlocks]
    have h := State.memRead_roster s x (va + 64 * v3) 64
    split
    · rename_i d p s1 heq
      rw [heq] at h
      split
      · exact h
      · have h2 := ih (v3 + 1) s1
        split
        · rename_i heq2
          rw [heq2] at h2
          exact h2.trans h
        · exact h2.trans h
    all_goals (rename_i heq; rw [heq] at h; exact h)

@[simp] theorem State.readPage_roster (s : State) (b image : Nat) (codeOffset pg : Nat) (spec : Bool) :
    (State.readPage s b image codeOffset pg spec).2.roster = s.roster := by
  simp [State.readPage]

@[simp] theorem State.recordCsErr_roster (s : State) (b pc : Nat) (frame failed : Nat) :
    (State.recordCsErr s b pc frame failed).roster = s.roster := by
  simp [State.recordCsErr]

@[simp] theorem State.parityFrame_roster (s : State) (n i : Nat) : (State.parityFrame s n i).roster = s.roster := by
  simp [State.parityFrame]

@[simp] theorem doCsSpecFill_roster (b pg : Nat) (s : State) : (doCsSpecFill b pg s).roster = s.roster := by
  unfold doCsSpecFill
  split
  · rfl
  · rename_i g _
    split
    · rfl
    · split
      · rfl
      · have h := State.readPage_roster s b g.image g.header.codeOffset pg true
        split
        · rename_i s1 heq
          rw [heq] at h
          rw [State.bumpMembers_roster, State.putFrame_roster, State.dropFrames_roster]
          exact h
        · rename_i heq
          rw [heq] at h
          exact h

@[simp] theorem State.actBlock_roster (s : State) (regs : List Nat) (x : Block) (pos : SitePos) (p j : Nat) (set n : Nat) :
    (State.actBlock s regs x pos p j set n).roster = s.roster := by
  simp [State.actBlock]

@[simp] theorem State.actPosition_roster (s : State) (b : Nat) (g : Program) (lanes : List Block) (set : Nat) :
    (State.actPosition s b g lanes set).roster = s.roster := by
  unfold State.actPosition
  exact State.roster_foldl _ (fun _ _ => by split <;> simp) _ _

@[simp] theorem State.beforeFirst_roster (s : State) (b : Nat) (g : Program) : (State.beforeFirst s b g).roster = s.roster :=
    by
  simp [State.beforeFirst]

@[simp] theorem State.afterVectors_roster (s : State) (b w : Nat) : (State.afterVectors s b w).roster = s.roster := by
  unfold State.afterVectors
  split <;> simp

@[simp] theorem State.discardReadings_roster (s : State) (b snap : Nat) : (State.discardReadings s b snap).roster = s.roster
    := by
  simp [State.discardReadings]

@[simp] theorem State.fillFrame_roster (s : State) (b pg : Nat) (pin : Bool) (words poisoned : List Nat) :
    (State.fillFrame s b pg pin words poisoned).roster = s.roster := by
  unfold State.fillFrame
  (repeat' split) <;> simp

@[simp] theorem State.checkSegments_roster (s : State) (b : Nat) (v2 : List (Option (Nat × Nat))) (v3 : Pre) :
    (State.checkSegments s b v2 v3).2.roster = s.roster := by
  induction v2 generalizing s b v3 with
  | nil => rfl
  | cons x l ih => cases x <;> simp [State.checkSegments, ih]

@[simp] theorem State.readHold_roster (s : State) (b : Nat) (h : Header) (n : Nat) : (State.readHold s b h n).2.2.roster =
    s.roster := by
  unfold State.readHold
  extract_lets x base r s1
  have hr : r.2.2.roster = s.roster := State.preRead_roster _ _ _ _
  have hs : s1.roster = s.roster := (State.bump_roster _ _ _).trans hr
  clear_value s1 r
  obtain ⟨l, p, u⟩ := r
  split
  · exact hr
  · extract_lets e len q s2
    have hq : q.2.2.roster = s.roster := (State.preRead_roster _ _ _ _).trans hs
    have hs2 : s2.roster = s.roster := (State.bump_roster _ _ _).trans hq
    clear_value s2 q
    split
    · exact hs
    · split
      · exact hs2
      · split
        · exact hs2
        · exact (State.bump_roster _ _ _).trans hs2

@[simp] theorem State.readHolds_roster (s : State) (b : Nat) (h : Header) (v3 : List Nat) (v4 : Pre)
    (v5 : List (Nat × Nat × Nat)) : (State.readHolds s b h v3 v4 v5).2.roster = s.roster := by
  induction v3 generalizing s b h v4 v5 with
  | nil => rfl
  | cons x l ih =>
    simp [State.readHolds, ih]

@[simp] theorem State.readImage_roster (s : State) (b image : Nat) : (State.readImage s b image).2.2.roster = s.roster := by
  unfold State.readImage
  dsimp only
  (repeat' split) <;> simp

@[simp] theorem State.showFreezes_roster (s : State) : (State.showFreezes s).roster = s.roster := by
  simp [State.showFreezes]

@[simp] theorem State.raiseIdle_roster (s : State) : (State.raiseIdle s).roster = s.roster := by
  simp [State.raiseIdle]

@[simp] theorem State.startPins_roster (s : State) (n : Nat) : (State.startPins s n).roster = s.roster := by
  simp [State.startPins]

@[simp] theorem State.startStream_roster (s : State) (n seq : Nat) : (State.startStream s n seq).roster = s.roster := by
  simp [State.startStream]

@[simp] theorem State.keepStart_roster (s : State) (c : Cmd) : (State.keepStart s c).roster = s.roster := by
  simp [State.keepStart]

@[simp] theorem State.endStart_roster (s : State) (c : Cmd) (st res : Nat) : (State.endStart s c st res).roster = s.roster :=
    by
  simp [State.endStart]

@[simp] theorem State.unpinFrames_roster (s : State) (n : Nat) : (State.unpinFrames s n).roster = s.roster := by
  simp [State.unpinFrames]

@[simp] theorem State.abandonGroup_roster (s : State) (b : Nat) : (State.abandonGroup s b).roster = s.roster := by
  simp [State.abandonGroup]

@[simp] theorem State.modDps_roster (s : State) (n : Nat) (f : Dps → Dps) : (State.modDps s n f).roster = s.roster := by
  simp [State.modDps]

@[simp] theorem State.showTrip_roster (s : State) (n : Nat) : (State.showTrip s n).roster = s.roster := by
  simp [State.showTrip]

@[simp] theorem State.showTrips_roster (s : State) (l : Nat) : (State.showTrips s l).roster = s.roster := by
  simp [State.showTrips]

@[simp] theorem State.endRuns_roster (s : State) (l action st : Nat) : (State.endRuns s l action st).roster = s.roster := by
  simp [State.endRuns]

@[simp] theorem State.dpsEnter_roster (s : State) (l st : Nat) : (State.dpsEnter s l st).roster = s.roster := by
  simp [State.dpsEnter]

@[simp] theorem State.dpsOnReq_roster (s : State) (l : Nat) : (State.dpsOnReq s l).roster = s.roster := by
  simp [State.dpsOnReq]

@[simp] theorem State.dpsOffReq_roster (s : State) (l status : Nat) : (State.dpsOffReq s l status).roster = s.roster := by
  simp [State.dpsOffReq]

@[simp] theorem State.dpsSiteOff_roster (s : State) (x : SitePos) (status : Nat) : (State.dpsSiteOff s x status).roster =
    s.roster := by
  simp [State.dpsSiteOff]

@[simp] theorem State.dpsRamp_roster (s : State) (l : Nat) : (State.dpsRamp s l).roster = s.roster := by
  simp [State.dpsRamp]

@[simp] theorem State.dpsDeckleOff_roster (s : State) (l : Nat) : (State.dpsDeckleOff s l).roster = s.roster := by
  simp [State.dpsDeckleOff]

@[simp] theorem State.applyDps_roster (s : State) (n : Nat) : (State.applyDps s n).roster = s.roster := by
  simp only [State.applyDps, State.showTrips_roster, State.roster_ite, State.roster_foldl, State.modDps_roster,
    State.setFlag_roster,
    State.applyFlds_roster, ite_self, implies_true]

@[simp] theorem State.dpsWritten_roster (s : State) (n : Nat) : (State.dpsWritten s n).roster = s.roster := by
  simp [State.dpsWritten]

@[simp] theorem State.takeDps_roster (s : State) (n : Nat) : (State.takeDps s n).roster = s.roster := by
  simp [State.takeDps]

@[simp] theorem State.dpsRelease_roster (s : State) (n : Nat) : (State.dpsRelease s n).roster = s.roster := by
  simp [State.dpsRelease]

@[simp] theorem State.applySwg_roster (s : State) (k : Nat) : (State.applySwg s k).roster = s.roster := by
  simp [State.applySwg]

@[simp] theorem State.swgWritten_roster (s : State) (k : Nat) : (State.swgWritten s k).roster = s.roster := by
  simp [State.swgWritten]

@[simp] theorem State.swgRelease_roster (s : State) (k : Nat) : (State.swgRelease s k).roster = s.roster := by
  simp [State.swgRelease]

@[simp] theorem State.dpsGather_roster (s : State) (n : Nat) (v i : BitVec 20) : (State.dpsGather s n v i).roster = s.roster
    := by
  unfold State.dpsGather
  split <;> simp

@[simp] theorem State.dpsRampEnd_roster (s : State) (l : Nat) (v : Int) : (State.dpsRampEnd s l v).roster = s.roster := by
  simp [State.dpsRampEnd]

@[simp] theorem doDpsCycle_roster (n : Nat) (v i : BitVec 20) (s : State) : (doDpsCycle n v i s).roster = s.roster := by
  simp [doDpsCycle]

@[simp] theorem State.dpsKind_roster (s : State) (quantity n : Nat) : (State.dpsKind s quantity n).2.roster = s.roster := by
  simp [State.dpsKind]

@[simp] theorem State.dpsDropSince_roster (s : State) (b serial : Nat) : (State.dpsDropSince s b serial).roster = s.roster :=
    by
  simp [State.dpsDropSince]

@[simp] theorem State.dpsForget_roster (s : State) (l : Nat) : (State.dpsForget s l).roster = s.roster := by
  simp [State.dpsForget]

@[simp] theorem doDpsWindowTrip_roster (n : Nat) (bounds : BitVec 4) (s : State) : (doDpsWindowTrip n bounds s).roster =
    s.roster := by
  unfold doDpsWindowTrip
  extract_lets k s1 s2 e x ev s3
  split
  · rfl
  · have h2 : s2.roster = s.roster := by
      simp only [s2, s1, State.raise_roster, State.bump_roster, State.setFld_roster, State.setFlag_roster, State.showTrip_roster,
        State.modDps_roster]
    have h3 : s3.roster = s.roster := by
      unfold s3
      split
      · exact h2
      · exact (State.roster_update _).trans h2
    split
    · exact (State.assertCause_roster ..).trans h3
    · split
      · exact h3
      · exact (State.dpsOffReq_roster ..).trans h3

@[simp] theorem doDpsBoundInside_roster (n : Nat) (s : State) : (doDpsBoundInside n s).roster = s.roster := by
  simp [doDpsBoundInside]

@[simp] theorem doBlankExpiry_roster (n : Nat) (s : State) : (doBlankExpiry n s).roster = s.roster := by
  simp [doBlankExpiry]

@[simp] theorem doDpsDisagree_roster (n : Nat) (bound : BitVec 4) (s : State) : (doDpsDisagree n bound s).roster = s.roster
    := by
  simp [doDpsDisagree]

@[simp] theorem State.dpsChecked_roster (s : State) (n : Nat) (second passed : Bool) :
    (State.dpsChecked s n second passed).roster = s.roster := by
  unfold State.dpsChecked
  dsimp only
  (repeat' split) <;> simp

@[simp] theorem doDpsSelfCheck_roster (n : Nat) (second passed : Bool) (s : State) :
    (doDpsSelfCheck n second passed s).roster = s.roster := by
  simp [doDpsSelfCheck]

@[simp] theorem State.dpsRun_roster (s : State) (c : Cmd) (k : Nat → State → State)
    (hk : ∀ x0 x1, (k x0 x1).roster = State.roster x1) : (State.dpsRun s c k).roster = s.roster := by
  unfold State.dpsRun
  refine State.checked_roster _ _ _ _ (fun _ => ?_)
  (repeat' split) <;> simp [hk]

@[simp] theorem doDpsRunOn_roster (c : Cmd) (s : State) : (doDpsRunOn c s).roster = s.roster := by
  simp [doDpsRunOn]

@[simp] theorem doDpsRunOff_roster (c : Cmd) (s : State) : (doDpsRunOff c s).roster = s.roster := by
  simp [doDpsRunOff]

@[simp] theorem State.clearEntry_roster (s : State) (b p : Nat) : (State.clearEntry s b p).roster = s.roster := by
  simp [State.clearEntry]

@[simp] theorem State.clearLeader_roster (s : State) (b : Nat) : (State.clearLeader s b).roster = s.roster := by
  simp [State.clearLeader]

@[simp] theorem State.freeSeqs_roster (s : State) (l seqs : List Nat) : (State.freeSeqs s l seqs).roster = s.roster := by
  simp [State.freeSeqs]

@[simp] theorem State.settlePin_roster (s : State) (b closed p : Nat) : (State.settlePin s b closed p).roster = s.roster :=
    by
  unfold State.settlePin
  split <;> simp

@[simp] theorem doDeckleClose_roster (c : Cmd) (s : State) : (doDeckleClose c s).roster = s.roster := by
  simp [doDeckleClose]

@[simp] theorem doSiteRegLoad_roster (c : Cmd) (s : State) : (doSiteRegLoad c s).roster = s.roster := by
  unfold doSiteRegLoad
  refine State.checked_roster _ _ _ _ (fun _ => ?_)
  (repeat' split) <;> simp

@[simp] theorem doClampTrip_roster (p : Nat) (s : State) : (doClampTrip p s).roster = s.roster := by
  unfold doClampTrip
  dsimp only
  (repeat' split) <;> simp

@[simp] theorem doClampLiveClear_roster (p : Nat) (s : State) : (doClampLiveClear p s).roster = s.roster := by
  simp [doClampLiveClear]

@[simp] theorem State.clampChecked_roster (s : State) (p : Nat) (passed : Bool) : (State.clampChecked s p passed).roster =
    s.roster := by
  unfold State.clampChecked
  dsimp only
  (repeat' split) <;> simp

@[simp] theorem doClampSelfCheck_roster (c : Nat) (passed : BitVec 33) (s : State) : (doClampSelfCheck c passed s).roster =
    s.roster := by
  simp [doClampSelfCheck]

@[simp] theorem State.modTmu_roster (s : State) (n : Nat) (f : Tmu → Tmu) : (State.modTmu s n f).roster = s.roster := by
  simp [State.modTmu]

@[simp] theorem State.applyTmu_roster (s : State) (n : Nat) : (State.applyTmu s n).roster = s.roster := by
  simp [State.applyTmu]

@[simp] theorem State.tmuWritten_roster (s : State) (n : Nat) : (State.tmuWritten s n).roster = s.roster := by
  simp [State.tmuWritten]

@[simp] theorem State.takeTmu_roster (s : State) (n : Nat) : (State.takeTmu s n).roster = s.roster := by
  simp [State.takeTmu]

@[simp] theorem State.tmuRelease_roster (s : State) (n : Nat) : (State.tmuRelease s n).roster = s.roster := by
  simp [State.tmuRelease]

@[simp] theorem State.tmuCompute_roster (s : State) (n : Nat) (m : TmuArm) : (State.tmuCompute s n m).2.roster = s.roster :=
    by
  unfold State.tmuCompute
  dsimp only
  (repeat' split) <;> simp

@[simp] theorem State.tmuIdle_roster (s : State) (n : Nat) : (State.tmuIdle s n).roster = s.roster := by
  simp [State.tmuIdle]

@[simp] theorem State.tmuBegin_roster (s : State) (n : Nat) (m : TmuArm) : (State.tmuBegin s n m).roster = s.roster := by
  simp [State.tmuBegin]

@[simp] theorem State.tmuEvAssert_roster (s : State) (k : Nat) : (State.tmuEvAssert s k).roster = s.roster := by
  unfold State.tmuEvAssert
  exact State.roster_foldl _ (fun _ _ => by split <;> simp) _ _

@[simp] theorem State.tmuCloseGate_roster (s : State) (n : Nat) (m : TmuArm) : (State.tmuCloseGate s n m).roster = s.roster
    := by
  simp [State.tmuCloseGate]

@[simp] theorem State.tmuEvRelease_roster (s : State) (k : Nat) : (State.tmuEvRelease s k).roster = s.roster := by
  unfold State.tmuEvRelease
  exact State.roster_foldl _ (fun _ _ => by split <;> simp) _ _

@[simp] theorem doTmuCalibrated_roster (n : Nat) (k1 k2 : BitVec 16) (startIn stopIn : Bool) (s : State) :
    (doTmuCalibrated n k1 k2 startIn stopIn s).roster = s.roster := by
  unfold doTmuCalibrated
  split <;> simp

@[simp] theorem doTmuInputSettled_roster (n : Nat) (stop : Bool) (s : State) : (doTmuInputSettled n stop s).roster = s.roster
    := by
  simp [doTmuInputSettled]

@[simp] theorem TmuInput.counts_roster (i : TmuInput) (falling : Bool) (s : State) : (TmuInput.counts i falling s).2.roster =
    s.roster := by
  simp [TmuInput.counts]

@[simp] theorem State.tmuCount_roster (s : State) (n : Nat) (stop falling : Bool) (m : TmuArm) (e : TmuEdge) :
    (State.tmuCount s n stop falling m e).roster = s.roster := by
  simp [State.tmuCount]

@[simp] theorem doTmuEdge_roster (n : Nat) (stop falling : Bool) (ref : BitVec 40) (code : BitVec 12) (time : BitVec 64)
    (s : State) : (doTmuEdge n stop falling ref code time s).roster = s.roster := by
  unfold doTmuEdge
  dsimp only
  (repeat' split) <;> simp

@[simp] theorem doTmuGateClose_roster (n : Nat) (s : State) : (doTmuGateClose n s).roster = s.roster := by
  unfold doTmuGateClose
  split <;> simp

@[simp] theorem doTmuTimeout_roster (n : Nat) (s : State) : (doTmuTimeout n s).roster = s.roster := by
  unfold doTmuTimeout
  split <;> simp

@[simp] theorem State.modAwg_roster (s : State) (c : Nat) (f : Awg → Awg) : (State.modAwg s c f).roster = s.roster := by
  simp [State.modAwg]

@[simp] theorem State.showShared_roster (s : State) (c : Nat) : (State.showShared s c).roster = s.roster := by
  simp [State.showShared]

@[simp] theorem State.applyAwg_roster (s : State) (c : Nat) : (State.applyAwg s c).roster = s.roster := by
  simp [State.applyAwg]

@[simp] theorem State.awgWritten_roster (s : State) (c : Nat) : (State.awgWritten s c).roster = s.roster := by
  simp [State.awgWritten]

@[simp] theorem State.takeAwg_roster (s : State) (c : Nat) : (State.takeAwg s c).roster = s.roster := by
  simp [State.takeAwg]

@[simp] theorem State.awgRelease_roster (s : State) (c : Nat) : (State.awgRelease s c).roster = s.roster := by
  simp [State.awgRelease]

@[simp] theorem State.awgIdle_roster (s : State) (c k : Nat) : (State.awgIdle s c k).roster = s.roster := by
  simp [State.awgIdle]

@[simp] theorem State.awgAnswer_roster (s : State) (r : AwgReq) (st n entry : Nat) : (State.awgAnswer s r st n entry).roster
    = s.roster := by
  unfold State.awgAnswer
  split <;> simp

@[simp] theorem State.awgMarker_roster (s : State) (c n t : Nat) : (State.awgMarker s c n t).roster = s.roster := by
  simp [State.awgMarker]

@[simp] theorem State.awgFire_roster (s : State) (c : Nat) : (State.awgFire s c).roster = s.roster := by
  simp [State.awgFire]

@[simp] theorem State.awgPlayKnown_roster (s : State) (c : Nat) : (State.awgPlayKnown s c).roster = s.roster := by
  unfold State.awgPlayKnown
  dsimp only
  (repeat' split) <;> simp

@[simp] theorem State.awgBegin_roster (s : State) (c : Nat) (at' : Nat) (program : Option Nat) :
    (State.awgBegin s c at' program).roster = s.roster := by
  simp [State.awgBegin]

@[simp] theorem State.awgRegister_roster (s : State) (c n : Nat) (r : AwgReq) : (State.awgRegister s c n r).roster = s.roster
    := by
  unfold State.awgRegister
  dsimp only
  (repeat' split) <;> simp

@[simp] theorem State.awgAsk_roster (s : State) (c : Nat) (r : AwgReq) : (State.awgAsk s c r).roster = s.roster := by
  simp [State.awgAsk]

@[simp] theorem doAwgRegister_roster (c n : Nat) (s : State) : (doAwgRegister c n s).roster = s.roster := by
  unfold doAwgRegister
  dsimp only
  (repeat' split) <;> simp

@[simp] theorem State.awgRun_roster (s : State) (c : Cmd) (bad : Bool) (k : Nat → State → State)
    (hk : ∀ x0 x1, (k x0 x1).roster = State.roster x1) : (State.awgRun s c bad k).roster = s.roster := by
  simp [State.awgRun, hk]

@[simp] theorem doAwgRunStart_roster (c : Cmd) (s : State) : (doAwgRunStart c s).roster = s.roster := by
  simp [doAwgRunStart]

@[simp] theorem doAwgRunJump_roster (c : Cmd) (s : State) : (doAwgRunJump c s).roster = s.roster := by
  simp [doAwgRunJump]

@[simp] theorem doAwgTimedStart_roster (c : Nat) (s : State) : (doAwgTimedStart c s).roster = s.roster := by
  unfold doAwgTimedStart
  dsimp only
  (repeat' split) <;> simp

@[simp] theorem State.modDg_roster (s : State) (c : Nat) (f : Dg → Dg) : (State.modDg s c f).roster = s.roster := by
  simp [State.modDg]

@[simp] theorem State.showDgCal_roster (s : State) (c : Nat) : (State.showDgCal s c).roster = s.roster := by
  simp [State.showDgCal]

@[simp] theorem State.applyDg_roster (s : State) (c : Nat) : (State.applyDg s c).roster = s.roster := by
  simp [State.applyDg]

@[simp] theorem State.dgWritten_roster (s : State) (c : Nat) (ring : Bool) : (State.dgWritten s c ring).roster = s.roster :=
    by
  simp [State.dgWritten]

@[simp] theorem State.takeDg_roster (s : State) (c : Nat) : (State.takeDg s c).roster = s.roster := by
  simp [State.takeDg]

@[simp] theorem State.dgRelease_roster (s : State) (c : Nat) : (State.dgRelease s c).roster = s.roster := by
  simp [State.dgRelease]

@[simp] theorem State.showSlopes_roster (s : State) (c : Nat) : (State.showSlopes s c).roster = s.roster := by
  simp [State.showSlopes]

@[simp] theorem State.dgIdle_roster (s : State) (c : Nat) : (State.dgIdle s c).roster = s.roster := by
  simp [State.dgIdle]

@[simp] theorem State.dgMissed_roster (s : State) (c : Nat) : (State.dgMissed s c).roster = s.roster := by
  simp [State.dgMissed]

@[simp] theorem State.dgConvert_roster (s : State) (c : Nat) (code : Int) : (State.dgConvert s c code).roster = s.roster :=
    by
  simp [State.dgConvert]

@[simp] theorem State.acqCtrl_roster (s : State) (c : Cmd) (bad : Bool) (k : Nat → State → State)
    (hk : ∀ x0 x1, (k x0 x1).roster = State.roster x1) : (State.acqCtrl s c bad k).roster = s.roster := by
  simp [State.acqCtrl, hk]

@[simp] theorem doAcqForce_roster (c : Cmd) (s : State) : (doAcqForce c s).roster = s.roster := by
  simp [doAcqForce]

@[simp] theorem State.flashFrame_roster (s : State) (f : FlashFrame) : (State.flashFrame s f).roster = s.roster := by
  simp [State.flashFrame]

@[simp] theorem State.flashFallback_roster (s : State) : (State.flashFallback s).roster = s.roster := by
  simp [State.flashFallback]

@[simp] theorem State.useDirectory_roster (s : State) (d : List Byte) (second : Bool) :
    (State.useDirectory s d second).roster = s.roster := by
  simp [State.useDirectory]

@[simp] theorem State.endContinuous_roster (s : State) : (State.endContinuous s).roster = s.roster := by
  unfold State.endContinuous
  split <;> simp

@[simp] theorem State.readyToProgram_roster (s : State) : (State.readyToProgram s).roster = s.roster := by
  simp [State.readyToProgram]

@[simp] theorem State.startRead_roster (s : State) (line : Nat) : (State.startRead s line).roster = s.roster := by
  unfold State.startRead
  split <;> simp

@[simp] theorem doFlashFetch_roster (line : Nat) (s : State) : (doFlashFetch line s).roster = s.roster := by
  simp [doFlashFetch]

@[simp] theorem doFlashReadDone_roster (s : State) : (doFlashReadDone s).roster = s.roster := by
  unfold doFlashReadDone
  dsimp only
  (repeat' split) <;> simp

@[simp] theorem doDqsTimeout_roster (s : State) : (doDqsTimeout s).roster = s.roster := by
  unfold doDqsTimeout
  split <;> simp

@[simp] theorem State.storeFails_roster (s : State) (asks : List StoreAsk) : (State.storeFails s asks).roster = s.roster :=
    by
  simp [State.storeFails]

@[simp] theorem State.startJob_roster (v0 : Nat) (s : State) : (State.startJob v0 s).roster = s.roster := by
  induction v0 generalizing s with
  | zero => rfl
  | succ n ih =>
    unfold State.startJob
    (repeat' split) <;> simp [ih]

@[simp] theorem State.requestStore_roster (s : State) (ask : Option StoreAsk) : (State.requestStore s ask).roster = s.roster
    := by
  simp [State.requestStore]

@[simp] theorem doStoreWrite_roster (s : State) : (doStoreWrite s).roster = s.roster := by
  simp [doStoreWrite]

@[simp] theorem State.setBase_roster (s : State) (kind unit : Nat) (i w : Nat) : (State.setBase s kind unit i w).roster =
    s.roster := by
  simp [State.setBase]

@[simp] theorem State.setTarget_roster (s : State) (kind unit : Nat) (i w : Nat) : (State.setTarget s kind unit i w).roster =
    s.roster := by
  simp [State.setTarget]

@[simp] theorem State.setRecord_roster (s : State) (kind unit : Nat) (is ws : List Nat) :
    (State.setRecord s kind unit is ws).roster = s.roster := by
  simp [State.setRecord]

@[simp] theorem State.showConstants_roster (s : State) (kind unit : Nat) : (State.showConstants s kind unit).roster =
    s.roster := by
  unfold State.showConstants
  split <;> simp

@[simp] theorem State.setWork_roster (s : State) (kind unit : Nat) (ws : List (Nat × Nat)) :
    (State.setWork s kind unit ws).roster = s.roster := by
  simp [State.setWork]

@[simp] theorem State.showPending_roster (s : State) (c : Nat) : (State.showPending s c).roster = s.roster := by
  simp [State.showPending]

@[simp] theorem doCalenderStep_roster (kind unit j : Nat) (s : State) : (doCalenderStep kind unit j s).roster = s.roster :=
    by
  unfold doCalenderStep
  (repeat' split) <;> simp

@[simp] theorem State.applyTargets_roster (s : State) (c : Nat) : (State.applyTargets s c).roster = s.roster := by
  simp [State.applyTargets]

@[simp] theorem State.setQuality_roster (s : State) (c q : Nat) : (State.setQuality s c q).roster = s.roster := by
  simp [State.setQuality]

@[simp] theorem State.takeRefs_roster (s : State) (kind c : Nat) (ws : List (Nat × Nat)) :
    (State.takeRefs s kind c ws).roster = s.roster := by
  simp [State.takeRefs]

@[simp] theorem State.setTargets_roster (s : State) (c : Nat) (m : Tracking) : (State.setTargets s c m).roster = s.roster :=
    by
  simp [State.setTargets]

@[simp] theorem State.trackCycle_roster (s : State) (c : Nat) (m : Tracking) : (State.trackCycle s c m).roster = s.roster :=
    by
  simp [State.trackCycle]

@[simp] theorem doTrackingCycle_roster (c : Nat) (m : Tracking) (s : State) : (doTrackingCycle c m s).roster = s.roster := by
  simp [doTrackingCycle]

@[simp] theorem doCalStale_roster (c : Nat) (s : State) : (doCalStale c s).roster = s.roster := by
  simp [doCalStale]

@[simp] theorem State.calCtrlWritten_roster (s : State) (c : Nat) : (State.calCtrlWritten s c).roster = s.roster := by
  simp [State.calCtrlWritten]

@[simp] theorem State.calibrate_roster (s : State) (kind unit : Nat) (is ws : List Nat) :
    (State.calibrate s kind unit is ws).roster = s.roster := by
  simp [State.calibrate]

@[simp] theorem State.stampCal_roster (s : State) (dirty : Bool) : (State.stampCal s dirty).roster = s.roster := by
  simp [State.stampCal]

@[simp] theorem State.calKind_roster (s : State) (r : CalRun) (k : Nat) : (State.calKind s r k).2.roster = s.roster := by
  simp [State.calKind]

@[simp] theorem State.showCalActive_roster (s : State) (c : Nat) : (State.showCalActive s c).roster = s.roster := by
  simp [State.showCalActive]

@[simp] theorem State.markLevel2_roster (s : State) (c : Nat) (on : Bool) : (State.markLevel2 s c on).roster = s.roster := by
  simp [State.markLevel2]

@[simp] theorem State.applyLoad_roster (s : State) (x : CalLoad) : (State.applyLoad s x).roster = s.roster := by
  simp [State.applyLoad]

@[simp] theorem State.keepCalRun_roster (s : State) (m : CalOutcome) (c : Cmd) : (State.keepCalRun s m c).roster = s.roster
    := by
  simp [State.keepCalRun]

@[simp] theorem doCalStore_roster (c : Cmd) (s : State) : (doCalStore c s).roster = s.roster := by
  simp [doCalStore]

@[simp] theorem State.closeRequest_roster (s : State) (site : Nat) : (State.closeRequest s site).roster = s.roster := by
  unfold State.closeRequest
  split <;> simp

@[simp] theorem State.cellFrame_roster (s : State) (f : CellFrame) : (State.cellFrame s f).roster = s.roster := by
  simp [State.cellFrame]

@[simp] theorem doCellNop_roster (f : CellFrame) (s : State) : (doCellNop f s).roster = s.roster := by
  simp [doCellNop]

@[simp] theorem doCellRead_roster (f : CellFrame) (s : State) : (doCellRead f s).roster = s.roster := by
  simp [doCellRead]

@[simp] theorem doCellWrite_roster (f : CellFrame) (s : State) : (doCellWrite f s).roster = s.roster := by
  simp [doCellWrite]

@[simp] theorem doAliveLoss_roster (s : State) : (doAliveLoss s).roster = s.roster := by
  unfold doAliveLoss
  split
  · rfl
  · simp only [State.roster_foldl, State.assertCause_roster, State.raise_roster, State.bump_roster, State.setFlag_roster,
    implies_true]

@[simp] theorem State.cpCtrlWritten_roster (s : State) (was : Bool) : (State.cpCtrlWritten s was).roster = s.roster := by
  simp [State.cpCtrlWritten]

@[simp] theorem State.spoilImages_roster (s : State) (f : ImageEntry → Bool) : (State.spoilImages s f).roster = s.roster :=
    by
  simp [State.spoilImages]

@[simp] theorem State.spoilBytes_roster (s : State) (host : Bool) (a n : Nat) : (State.spoilBytes s host a n).roster =
    s.roster := by
  simp [State.spoilBytes]

@[simp] theorem spoilPieces_roster (v0 v1 v2 : Nat) (s : State) : (spoilPieces v0 v1 v2 s).roster = s.roster := by
  induction v0 generalizing v1 v2 s with
  | zero => rfl
  | succ n ih =>
    unfold spoilPieces
    (repeat' split) <;> simp [ih]

@[simp] theorem State.copyWrite_roster (s : State) (x : MemCtx) (va : Nat) (data : List Byte) (poison : Bool) :
    (State.copyWrite s x va data poison).2.roster = s.roster := by
  unfold State.copyWrite
  grind [State.memWrite_roster, spoilPieces_roster, State.roster_update, State.roster_foldl]

@[simp] theorem State.showPinned_roster (s : State) : (State.showPinned s).roster = s.roster := by
  simp [State.showPinned]

@[simp] theorem State.putEntry_roster (s : State) (i v : Nat) : (State.putEntry s i v).roster = s.roster := by
  simp [State.putEntry]

@[simp] theorem State.freeWaiters_roster (s : State) (i : Nat) : (State.freeWaiters s i).roster = s.roster := by
  simp [State.freeWaiters]

@[simp] theorem State.clearEntry'_roster (s : State) (i : Nat) : (State.clearEntry' s i).roster = s.roster := by
  simp [State.clearEntry']

@[simp] theorem State.applyEntry_roster (s : State) (i v : Nat) : (State.applyEntry s i v).roster = s.roster := by
  simp [State.applyEntry]

@[simp] theorem applyEntries_roster (v0 : Nat) (v1 : List Nat) (s : State) : (applyEntries v0 v1 s).2.2.roster = s.roster :=
    by
  induction v1 generalizing v0 s with
  | nil => rfl
  | cons x l ih =>
    unfold applyEntries
    (repeat' split) <;> simp [ih]

@[simp] theorem doMapSet_roster (c : Cmd) (s : State) : (doMapSet c s).roster = s.roster := by
  simp [doMapSet]

@[simp] theorem loadEntries_roster (c : Cmd) (i va : Nat) (v3 v4 : Nat) (s : State) : (loadEntries c i va v3 v4 s).roster =
    s.roster := by
  induction v3 generalizing v4 s with
  | zero => simp [loadEntries]
  | succ n ih =>
    unfold loadEntries
    dsimp only
    split
    · simp
    · split
      · split <;> simp [ih]
      · simp

@[simp] theorem doMapLoad_roster (c : Cmd) (s : State) : (doMapLoad c s).roster = s.roster := by
  simp [doMapLoad]

@[simp] theorem doMapClear_roster (c : Cmd) (s : State) : (doMapClear c s).roster = s.roster := by
  simp [doMapClear]

@[simp] theorem doMapRead_roster (c : Cmd) (s : State) : (doMapRead c s).roster = s.roster := by
  simp [doMapRead]

@[simp] theorem doPatrolScrub_roster (errors : List (Fin 68 × BitVec 8))
    (elsewhere : List (BitVec 28 × List (Fin 68 × BitVec 8))) (s : State) : (doPatrolScrub errors elsewhere s).roster =
    s.roster := by
  simp [doPatrolScrub]

@[simp] theorem doHostRead_roster (block : Nat) (r : HostRead) (s : State) : (doHostRead block r s).roster = s.roster := by
  unfold doHostRead
  split <;> simp

@[simp] theorem State.showGroups_roster (s : State) : (State.showGroups s).roster = s.roster := by
  simp [State.showGroups]

@[simp] theorem State.decide'_roster (s : State) (entry k : Nat) (w : Waiter) : (State.decide' s entry k w).roster = s.roster
    := by
  simp [State.decide']

@[simp] theorem State.sendGroup_roster (s : State) (entry base : Nat) (w : Waiter) : (State.sendGroup s entry base w).roster
    = s.roster := by
  simp [State.sendGroup]

@[simp] theorem takeGroups_roster (v0 : Nat) (s : State) : (takeGroups v0 s).roster = s.roster := by
  induction v0 generalizing s with
  | zero => rfl
  | succ n ih =>
    unfold takeGroups
    (repeat' split) <;> simp [ih]

@[simp] theorem State.repin_roster (s : State) (i : Nat) : (State.repin s i).roster = s.roster := by
  simp [State.repin]

@[simp] theorem State.losePin_roster (s : State) (i : Nat) : (State.losePin s i).roster = s.roster := by
  simp [State.losePin]

@[simp] theorem State.trimAtc_roster (s : State) (v1 : Nat) : (State.trimAtc s v1).roster = s.roster := by
  induction v1 generalizing s with
  | zero => rfl
  | succ n ih =>
    unfold State.trimAtc
    (repeat' split) <;> simp [ih]

@[simp] theorem State.cacheRanges_roster (s : State) (i base n : Nat) (l : List AtsRange) :
    (State.cacheRanges s i base n l).roster = s.roster := by
  simp [State.cacheRanges]

@[simp] theorem State.answered_roster (s : State) (i base : Nat) (w : Waiter) : (State.answered s i base w).roster = s.roster
    := by
  simp [State.answered]

@[simp] theorem doAtsCompletion_roster (i : Nat) (a : AtsAnswer) (s : State) : (doAtsCompletion i a s).roster = s.roster :=
    by
  unfold doAtsCompletion
  (repeat' split) <;> simp

@[simp] theorem State.endGroup_roster (s : State) (index : Nat) (k : PageGroup → State → State)
    (hk : ∀ x0 x1, (k x0 x1).roster = State.roster x1) : (State.endGroup s index k).roster = s.roster := by
  unfold State.endGroup
  split <;> simp [hk]

@[simp] theorem doPageResponse_roster (index : Nat) (r : PrgResponse) (s : State) : (doPageResponse index r s).roster =
    s.roster := by
  unfold doPageResponse
  split <;> simp

@[simp] theorem doPrTimeout_roster (index : Nat) (s : State) : (doPrTimeout index s).roster = s.roster := by
  simp [doPrTimeout]

@[simp] theorem doAtsInvalidate_roster (itag base pages : Nat) (s : State) : (doAtsInvalidate itag base pages s).roster =
    s.roster := by
  simp [doAtsInvalidate]

@[simp] theorem doInvalidationCompletion_roster (itag : Nat) (s : State) : (doInvalidationCompletion itag s).roster =
    s.roster := by
  simp [doInvalidationCompletion]

@[simp] theorem State.showLevel_roster (s : State) (n q : Nat) : (State.showLevel s n q).roster = s.roster := by
  simp [State.showLevel]

@[simp] theorem State.checkMark_roster (s : State) (n q pos : Nat) : (State.checkMark s n q pos).roster = s.roster := by
  simp [State.checkMark]

@[simp] theorem State.ringPiece_roster (s : State) (n q pos : Nat) (d : List Byte) : (State.ringPiece s n q pos d).2.roster =
    s.roster := by
  unfold State.ringPiece
  grind [State.memWrite_roster, State.checkMark_roster, State.roster_update, State.roster_foldl]

@[simp] theorem State.ringWrite_roster (s : State) (n q pos : Nat) (d : List Byte) : (State.ringWrite s n q pos d).2.roster =
    s.roster := by
  unfold State.ringWrite
  grind [State.ringPiece_roster, State.roster_update, State.roster_foldl]

@[simp] theorem State.commitTo_roster (s : State) (n q pos : Nat) : (State.commitTo s n q pos).roster = s.roster := by
  simp [State.commitTo]

@[simp] theorem State.chainRecord_roster (s : State) (n : Nat) (r : Rec) : (State.chainRecord s n r).roster = s.roster := by
  simp [State.chainRecord]

@[simp] theorem State.commitRecord_roster (s : State) (n : Nat) (r : Rec) (pos : Nat) :
    (State.commitRecord s n r pos).2.roster = s.roster := by
  unfold State.commitRecord
  grind [State.ringWrite_roster, State.commitTo_roster, State.roster_update, State.roster_foldl]

@[simp] theorem State.faultQueue_roster (s : State) (n q k : Nat) : (State.faultQueue s n q k).roster = s.roster := by
  simp [State.faultQueue]

@[simp] theorem State.countSince_roster (s : State) (n pos : Nat) (r : Rec) : (State.countSince s n pos r).roster = s.roster
    := by
  simp [State.countSince]

@[simp] theorem State.zeroStart_roster (s : State) (n q : Nat) : (State.zeroStart s n q).roster = s.roster := by
  unfold State.zeroStart
  grind [State.ringWrite_roster, State.modSeq_roster, State.faultQueue_roster, State.roster_update, State.roster_foldl]

@[simp] theorem State.applyQueue_roster (s : State) (n q : Nat) : (State.applyQueue s n q).roster = s.roster := by
  simp [State.applyQueue]

@[simp] theorem State.takeQueue_roster (s : State) (n q : Nat) : (State.takeQueue s n q).roster = s.roster := by
  simp [State.takeQueue]

@[simp] theorem State.queueWritten_roster (s : State) (n q : Nat) : (State.queueWritten s n q).roster = s.roster := by
  simp [State.queueWritten]

@[simp] theorem State.takeLimits_roster (s : State) (n : Nat) : (State.takeLimits s n).roster = s.roster := by
  simp [State.takeLimits]

@[simp] theorem State.limitsWritten_roster (s : State) (n : Nat) : (State.limitsWritten s n).roster = s.roster := by
  simp [State.limitsWritten]

@[simp] theorem State.releaseSeq_roster (s : State) (n : Nat) : (State.releaseSeq s n).roster = s.roster := by
  simp [State.releaseSeq]

@[simp] theorem State.clearCrossed_roster (s : State) (n q : Nat) : (State.clearCrossed s n q).roster = s.roster := by
  simp [State.clearCrossed]

@[simp] theorem State.queueChecked_roster (s : State) (c : Cmd) (used : List (Nat × Nat)) (bad : Bool) (k : State → State)
    (hk : ∀ x0, (k x0).roster = State.roster x0) : (State.queueChecked s c used bad k).roster = s.roster := by
  simp [State.queueChecked, hk]

@[simp] theorem doReamMark_roster (c : Cmd) (s : State) : (doReamMark c s).roster = s.roster := by
  simp [doReamMark]

@[simp] theorem State.rewind_roster (s : State) (c : Cmd) : (State.rewind s c).roster = s.roster := by
  simp [State.rewind]

@[simp] theorem doReamRelease_roster (c : Cmd) (s : State) : (doReamRelease c s).roster = s.roster := by
  simp [doReamRelease]

@[simp] theorem State.modDma_roster (s : State) (e : Nat) (f : DmaEngine → DmaEngine) : (State.modDma s e f).roster =
    s.roster := by
  simp [State.modDma]

@[simp] theorem State.modTransfer_roster (s : State) (e k : Nat) (f : Transfer → Transfer) :
    (State.modTransfer s e k f).roster = s.roster := by
  simp [State.modTransfer]

@[simp] theorem State.showDma_roster (s : State) (e : Nat) : (State.showDma s e).roster = s.roster := by
  simp [State.showDma]

@[simp] theorem State.endTransfer_roster (s : State) (e : Nat) (t : Transfer) (st : Nat) (fault : Option (Nat × Nat))
    (slot : Option Nat) : (State.endTransfer s e t st fault slot).roster = s.roster := by
  simp [State.endTransfer]

@[simp] theorem State.suspend_roster (s : State) (e : Nat) (t : Transfer) (va k : Nat) : (State.suspend s e t va k).roster =
    s.roster := by
  unfold State.suspend
  dsimp only
  (repeat' split) <;> simp

@[simp] theorem State.startTransfer_roster (s : State) (e : Nat) (t : Transfer) : (State.startTransfer s e t).roster =
    s.roster := by
  simp [State.startTransfer]

@[simp] theorem pickTransfer_roster (v0 v1 : Nat) (s : State) : (pickTransfer v0 v1 s).roster = s.roster := by
  induction v0 generalizing v1 s with
  | zero => rfl
  | succ n ih =>
    unfold pickTransfer
    dsimp only
    (repeat' split) <;> simp [ih]

@[simp] theorem State.dmaSchedule_roster (s : State) (e : Nat) : (State.dmaSchedule s e).roster = s.roster := by
  simp [State.dmaSchedule]

@[simp] theorem State.dmaArrive_roster (s : State) (e : Nat) : (State.dmaArrive s e).roster = s.roster := by
  simp [State.dmaArrive]

@[simp] theorem dmaRead_roster (v0 : Nat) (v1 : MemCtx) (v2 v3 : Nat) (v4 : List Byte) (v5 : Option (Nat × Nat)) (s : State)
    : (dmaRead v0 v1 v2 v3 v4 v5 s).2.roster = s.roster := by
  induction v0 generalizing v1 v2 v3 v4 v5 s with
  | zero => rfl
  | succ fuel ih =>
    simp only [dmaRead]
    (repeat' split) <;> grind [State.readPiece_roster]

@[simp] theorem dmaGather_roster (v0 : MemCtx) (v1 : List (Nat × Nat)) (v2 : List Byte) (v3 : Option (Nat × Nat)) (s : State)
    : (dmaGather v0 v1 v2 v3 s).2.roster = s.roster := by
  induction v1 generalizing v0 v2 v3 s with
  | nil => rfl
  | cons a l ih =>
    simp only [dmaGather]
    (repeat' split) <;> grind [dmaRead_roster]

@[simp] theorem dmaWrite_roster (v0 : Nat) (v1 : MemCtx) (v2 : Nat) (v3 : List Byte) (v4 : Bool) (v5 : Nat) (s : State) :
    (dmaWrite v0 v1 v2 v3 v4 v5 s).2.roster = s.roster := by
  induction v0 generalizing v1 v2 v3 v4 v5 s with
  | zero => rfl
  | succ fuel ih =>
    simp only [dmaWrite]
    (repeat' split) <;> grind [State.writePiece_roster, spoilPieces_roster]

@[simp] theorem dmaWriteRuns_roster (v0 : MemCtx) (v1 : Nat) (v2 : List (List Byte × Bool)) (v3 : Nat) (s : State) :
    (dmaWriteRuns v0 v1 v2 v3 s).2.roster = s.roster := by
  induction v2 generalizing v0 v1 v3 s with
  | nil => rfl
  | cons a l ih =>
    simp only [dmaWriteRuns]
    (repeat' split) <;> grind [dmaWrite_roster]

@[simp] theorem State.chunkRead_roster (s : State) (x : MemCtx) (t : Transfer) (off n : Nat) :
    (State.chunkRead s x t off n).2.roster = s.roster := by
  unfold State.chunkRead
  split <;> simp

@[simp] theorem State.chunkWrite_roster (s : State) (x : MemCtx) (t : Transfer) (off : Nat) (data : List Byte)
    (poison : Bool) : (State.chunkWrite s x t off data poison).2.roster = s.roster := by
  simp [State.chunkWrite]

@[simp] theorem State.chunkFault_roster (s : State) (e : Nat) (t : Transfer) (va k : Nat) :
    (State.chunkFault s e t va k).roster = s.roster := by
  simp [State.chunkFault]

@[simp] theorem State.park_roster (s : State) (e : Nat) (t : Transfer) (va : Nat) (write : Bool) :
    (State.park s e t va write).roster = s.roster := by
  simp [State.park]

@[simp] theorem State.landChunks_roster (s : State) (e : Nat) (t : Transfer) (beyond : List Nat) :
    (State.landChunks s e t beyond).roster = s.roster := by
  unfold State.landChunks
  refine State.roster_foldl _ (fun u j => ?_) _ _
  dsimp only
  split
  · split
    · next heq => exact State.roster_of_eq (State.chunkWrite_roster ..) heq
    · rfl
  · rfl

@[simp] theorem State.unpark_roster (s : State) (e : Nat) : (State.unpark s e).roster = s.roster := by
  simp [State.unpark]

@[simp] theorem State.openFences_roster (s : State) : (State.openFences s).roster = s.roster := by
  simp [State.openFences]

@[simp] theorem State.dmaChecked_roster (s : State) (c : Cmd) (bad : Bool) (refusal : Nat) (k : Nat → State → State)
    (hk : ∀ x0 x1, (k x0 x1).roster = State.roster x1) : (State.dmaChecked s c bad refusal k).roster = s.roster := by
  unfold State.dmaChecked
  dsimp only
  (repeat' split) <;> simp [hk]

@[simp] theorem State.holdTransfer_roster (s : State) (e : Nat) (t : Transfer) : (State.holdTransfer s e t).roster = s.roster
    := by
  simp [State.holdTransfer]

@[simp] theorem doDmaCopy_roster (earlier : List Cmd) (c : Cmd) (s : State) : (doDmaCopy earlier c s).roster = s.roster := by
  simp [doDmaCopy]

@[simp] theorem doDmaFill_roster (earlier : List Cmd) (c : Cmd) (s : State) : (doDmaFill earlier c s).roster = s.roster := by
  simp [doDmaFill]

@[simp] theorem doDmaRing_roster (earlier : List Cmd) (c : Cmd) (s : State) : (doDmaRing earlier c s).roster = s.roster := by
  simp [doDmaRing]

@[simp] theorem doDmaResume_roster (earlier : List Cmd) (c : Cmd) (s : State) : (doDmaResume earlier c s).roster = s.roster
    := by
  unfold doDmaResume
  dsimp only
  (repeat' split) <;> simp

@[simp] theorem State.abortTransfer_roster (s : State) (e : Nat) (t : Transfer) : (State.abortTransfer s e t).roster =
    s.roster := by
  simp [State.abortTransfer]

@[simp] theorem State.dmaAbort_roster (s : State) (c : Cmd) (e : Nat) : (State.dmaAbort s c e).roster = s.roster := by
  unfold State.dmaAbort
  dsimp only
  (repeat' split) <;> simp

@[simp] theorem doDmaAbort_roster (earlier : List Cmd) (c : Cmd) (s : State) : (doDmaAbort earlier c s).roster = s.roster :=
    by
  simp [doDmaAbort]

@[simp] theorem doDmaTimeLimit_roster (e : Nat) (slot : Bool) (k : Nat) (s : State) : (doDmaTimeLimit e slot k s).roster =
    s.roster := by
  unfold doDmaTimeLimit
  (repeat' split) <;> simp

@[simp] theorem doDescriptorAgeing_roster (e k : Nat) (s : State) : (doDescriptorAgeing e k s).roster = s.roster := by
  unfold doDescriptorAgeing
  split <;> simp

@[simp] theorem doReamRewind_roster (c : Cmd) (s : State) : (doReamRewind c s).roster = s.roster := by
  simp [doReamRewind]

@[simp] theorem State.dmaReset_roster (s : State) (e : Nat) : (State.dmaReset s e).roster = s.roster := by
  simp [State.dmaReset]

@[simp] theorem State.modSq_roster (s : State) (q : Nat) (f : SubQueue → SubQueue) : (State.modSq s q f).roster = s.roster :=
    by
  simp [State.modSq]

@[simp] theorem State.modCq_roster (s : State) (q : Nat) (f : ComQueue → ComQueue) : (State.modCq s q f).roster = s.roster :=
    by
  simp [State.modCq]

@[simp] theorem State.statusChanged_roster (s : State) (q : Nat) : (State.statusChanged s q).roster = s.roster := by
  simp [State.statusChanged]

@[simp] theorem State.writeStatus_roster (s : State) (q : Nat) : (State.writeStatus s q).roster = s.roster := by
  simp [State.writeStatus]

@[simp] theorem State.showPolling_roster (s : State) : (State.showPolling s).roster = s.roster := by
  simp [State.showPolling]

@[simp] theorem State.ltrIfChanged_roster (s : State) (old : Nat) : (State.ltrIfChanged s old).roster = s.roster := by
  simp [State.ltrIfChanged]

@[simp] theorem State.roundOver_roster (s : State) : (State.roundOver s).roster = s.roster := by
  simp [State.roundOver]

@[simp] theorem doPollRound_roster (s : State) : (doPollRound s).roster = s.roster := by
  simp [doPollRound]

@[simp] theorem State.stopQueue_roster (s : State) (q err : Nat) : (State.stopQueue s q err).roster = s.roster := by
  simp [State.stopQueue]

@[simp] theorem State.takeDoorbell_roster (s : State) (q tail head : Nat) : (State.takeDoorbell s q tail head).roster =
    s.roster := by
  simp [State.takeDoorbell]

@[simp] theorem doDoorbellRead_roster (k : Nat) (r : LineRead) (s : State) : (doDoorbellRead k r s).roster = s.roster := by
  unfold doDoorbellRead
  (repeat' split) <;> simp

@[simp] theorem State.dispatch_roster (s : State) (c : Cmd) : (State.dispatch s c).roster = s.roster := by
  simp [State.dispatch]

@[simp] theorem doEntryFetch_roster (q : Nat) (r : LineRead) (s : State) : (doEntryFetch q r s).roster = s.roster := by
  unfold doEntryFetch
  (repeat' split) <;> simp

@[simp] theorem doNop_roster (c : Cmd) (s : State) : (doNop c s).roster = s.roster := by
  simp [doNop]

@[simp] theorem State.enterBuffer_roster (s : State) : (State.enterBuffer s).roster = s.roster := by
  unfold State.enterBuffer
  split <;> simp

@[simp] theorem State.showFull_roster (s : State) : (State.showFull s).roster = s.roster := by
  simp [State.showFull]

@[simp] theorem State.refill_roster (s : State) : (State.refill s).roster = s.roster := by
  simp [State.refill]

@[simp] theorem State.countWaits_roster (s : State) : (State.countWaits s).roster = s.roster := by
  simp [State.countWaits]

@[simp] theorem State.writeCompletion_roster (s : State) (e : Completion) : (State.writeCompletion s e).roster = s.roster :=
    by
  simp [State.writeCompletion]

@[simp] theorem State.drainOne_roster (s : State) : (State.drainOne s).roster = s.roster := by
  unfold State.drainOne
  dsimp only
  (repeat' split) <;> simp

@[simp] theorem doCompletionWrite_roster (s : State) : (doCompletionWrite s).roster = s.roster := by
  simp [doCompletionWrite]

@[simp] theorem State.drainHeld_roster (v0 : Nat) (s : State) : (State.drainHeld v0 s).roster = s.roster := by
  induction v0 generalizing s with
  | zero => rfl
  | succ n ih =>
    unfold State.drainHeld
    (repeat' split) <;> simp [ih]

@[simp] theorem State.cqTimer_roster (s : State) (q : Nat) : (State.cqTimer s q).roster = s.roster := by
  simp [State.cqTimer]

@[simp] theorem State.deliverDeferred_roster (s : State) : (State.deliverDeferred s).roster = s.roster := by
  simp [State.deliverDeferred]

@[simp] theorem State.deliverPba_roster (s : State) : (State.deliverPba s).roster = s.roster := by
  simp [State.deliverPba]

@[simp] theorem doMsixUnmask_roster (v : Option Nat) (s : State) : (doMsixUnmask v s).roster = s.roster := by
  unfold doMsixUnmask
  split <;> simp

@[simp] theorem doL1Entry_roster (s : State) : (doL1Entry s).roster = s.roster := by
  simp [doL1Entry]

@[simp] theorem doD3hotEntry_roster (s : State) : (doD3hotEntry s).roster = s.roster := by
  simp [doD3hotEntry]

@[simp] theorem State.discardPending_roster (s : State) : (State.discardPending s).roster = s.roster := by
  simp [State.discardPending]

@[simp] theorem doLinkUp_roster (rate : LinkRate) (width : LinkWidth) (s : State) : (doLinkUp rate width s).roster = s.roster
    := by
  simp [doLinkUp]

@[simp] theorem State.setAts_roster (s : State) (on : Bool) : (State.setAts s on).roster = s.roster := by
  simp [State.setAts]

@[simp] theorem State.setPri_roster (s : State) (on : Bool) : (State.setPri s on).roster = s.roster := by
  simp only [State.setPri, takeGroups_roster, State.roster_update, State.setFlag_roster]

@[simp] theorem State.sqApplied_roster (s : State) (q : Nat) (was : Bool) : (State.sqApplied s q was).roster = s.roster := by
  simp [State.sqApplied]

@[simp] theorem State.cqApplied_roster (s : State) (q : Nat) (was : Bool) : (State.cqApplied s q was).roster = s.roster := by
  simp [State.cqApplied]

@[simp] theorem State.modHeq_roster (s : State) (k : Nat) (f : EventQueue → EventQueue) : (State.modHeq s k f).roster =
    s.roster := by
  simp [State.modHeq]

@[simp] theorem State.moderateHeq_roster (s : State) (k : Nat) : (State.moderateHeq s k).roster = s.roster := by
  simp [State.moderateHeq]

@[simp] theorem State.writeRecord_roster (s : State) (k : Nat) (r : List Byte) : (State.writeRecord s k r).roster = s.roster
    := by
  simp [State.writeRecord]

@[simp] theorem State.queueRecord_roster (s : State) (k : Nat) (r : List Byte) : (State.queueRecord s k r).roster = s.roster
    := by
  simp [State.queueRecord]

@[simp] theorem State.flushHeq_roster (s : State) (k : Nat) : (State.flushHeq s k).roster = s.roster := by
  simp [State.flushHeq]

@[simp] theorem State.heqApplied_roster (s : State) (k : Nat) (was : Bool) : (State.heqApplied s k was).roster = s.roster :=
    by
  simp [State.heqApplied]

@[simp] theorem doModerationTimer_roster (m : ModQueue) (s : State) : (doModerationTimer m s).roster = s.roster := by
  unfold doModerationTimer
  split <;> simp

@[simp] theorem State.hostBack_roster (s : State) : (State.hostBack s).roster = s.roster := by
  simp [State.hostBack]

@[simp] theorem doL1Exit_roster (s : State) : (doL1Exit s).roster = s.roster := by
  simp [doL1Exit]

@[simp] theorem doD0Return_roster (busMaster : Bool) (s : State) : (doD0Return busMaster s).roster = s.roster := by
  simp [doD0Return]

@[simp] theorem doConfigWrite_roster (w : ConfigWrite) (s : State) : (doConfigWrite w s).roster = s.roster := by
  unfold doConfigWrite
  split <;> simp

@[simp] theorem doCompletionTimeout_roster (what : LateRead) (s : State) : (doCompletionTimeout what s).roster = s.roster :=
    by
  unfold doCompletionTimeout
  split <;> simp

@[simp] theorem State.modLine_roster (s : State) (k : Nat) (f : EvLine → EvLine) : (State.modLine s k f).roster = s.roster :=
    by
  simp [State.modLine]

@[simp] theorem State.showLines_roster (s : State) : (State.showLines s).roster = s.roster := by
  simp [State.showLines]

@[simp] theorem doEvAssert_roster (k : Nat) (s : State) : (doEvAssert k s).roster = s.roster := by
  simp [doEvAssert]

@[simp] theorem doEvRelease_roster (k : Nat) (s : State) : (doEvRelease k s).roster = s.roster := by
  simp [doEvRelease]

@[simp] theorem doEvPulseEnd_roster (k : Nat) (who : LineDriver) (s : State) : (doEvPulseEnd k who s).roster = s.roster := by
  simp [doEvPulseEnd]

@[simp] theorem State.deliver_roster (s : State) (n : Nat) (host late : Bool) : (State.deliver s n host late).roster =
    s.roster := by
  simp [State.deliver]

@[simp] theorem doEventDelivery_roster (late : Option Nat) (s : State) : (doEventDelivery late s).roster = s.roster := by
  unfold doEventDelivery
  dsimp only
  (repeat' split) <;> simp

@[simp] theorem State.modPort_roster (s : State) (p : Nat) (f : FeltPort → FeltPort) : (State.modPort s p f).roster =
    s.roster := by
  simp [State.modPort]

@[simp] theorem State.sendBlock_roster (s : State) (p typ content : Nat) : (State.sendBlock s p typ content).roster =
    s.roster := by
  simp [State.sendBlock]

@[simp] theorem State.blocksSent_roster (s : State) : (State.blocksSent s).roster = s.roster := by
  simp [State.blocksSent]

@[simp] theorem State.clearHop_roster (s : State) (p : Nat) : (State.clearHop s p).roster = s.roster := by
  simp [State.clearHop]

@[simp] theorem State.portEnter_roster (s : State) (p st : Nat) : (State.portEnter s p st).roster = s.roster := by
  simp [State.portEnter]

@[simp] theorem State.portNotice_roster (s : State) (p st : Nat) : (State.portNotice s p st).roster = s.roster := by
  simp [State.portNotice]

@[simp] theorem State.announce_roster (s : State) (p : Nat) (up : Bool) : (State.announce s p up).roster = s.roster := by
  simp [State.announce]

@[simp] theorem State.startRetrain_roster (s : State) (p : Nat) : (State.startRetrain s p).roster = s.roster := by
  simp [State.startRetrain]

@[simp] theorem State.portUp_roster (s : State) (p : Nat) : (State.portUp s p).roster = s.roster := by
  simp [State.portUp]

@[simp] theorem State.portDown_roster (s : State) (p : Nat) : (State.portDown s p).roster = s.roster := by
  simp [State.portDown]

@[simp] theorem State.showPorts_roster (s : State) : (State.showPorts s).roster = s.roster := by
  simp [State.showPorts]

@[simp] theorem doPartnerDetect_roster (p : Nat) (s : State) : (doPartnerDetect p s).roster = s.roster := by
  simp [doPartnerDetect]

@[simp] theorem State.sendIds_roster (s : State) (p : Nat) : (State.sendIds s p).roster = s.roster := by
  simp [State.sendIds]

@[simp] theorem State.handshake_roster (s : State) (p : Nat) : (State.handshake s p).roster = s.roster := by
  simp [State.handshake]

@[simp] theorem doEqualiseEnd_roster (p : Nat) (ok : Bool) (s : State) : (doEqualiseEnd p ok s).roster = s.roster := by
  simp [doEqualiseEnd]

@[simp] theorem doMismatchRetry_roster (p : Nat) (s : State) : (doMismatchRetry p s).roster = s.roster := by
  simp [doMismatchRetry]

@[simp] theorem doRetrainTimeout_roster (p : Nat) (s : State) : (doRetrainTimeout p s).roster = s.roster := by
  simp [doRetrainTimeout]

@[simp] theorem doDownTimeout_roster (p : Nat) (s : State) : (doDownTimeout p s).roster = s.roster := by
  simp [doDownTimeout]

@[simp] theorem State.block_roster (s : State) (p typ : Nat) (content : BitVec 48) (crc : BitVec 8) (k : Nat → State → State)
    (hk : ∀ x0 x1, (k x0 x1).roster = State.roster x1) : (State.block s p typ content crc k).roster = s.roster := by
  simp [State.block, hk]

@[simp] theorem State.blockUp_roster (s : State) (p typ : Nat) (content : BitVec 48) (crc : BitVec 8)
    (k : Nat → State → State) (hk : ∀ x0 x1, (k x0 x1).roster = State.roster x1) :
    (State.blockUp s p typ content crc k).roster = s.roster := by
  simp [State.blockUp, hk]

@[simp] theorem doId0_roster (p : Nat) (content : BitVec 48) (crc : BitVec 8) (s : State) : (doId0 p content crc s).roster =
    s.roster := by
  simp [doId0]

@[simp] theorem doId1_roster (p : Nat) (content : BitVec 48) (crc : BitVec 8) (s : State) : (doId1 p content crc s).roster =
    s.roster := by
  unfold doId1
  refine State.block_roster _ _ _ _ _ _ (fun _ _ => ?_)
  (repeat' split) <;> simp

@[simp] theorem doCredit_roster (p : Nat) (content : BitVec 48) (crc : BitVec 8) (s : State) :
    (doCredit p content crc s).roster = s.roster := by
  simp [doCredit]

@[simp] theorem doAck_roster (p : Nat) (content : BitVec 48) (crc : BitVec 8) (s : State) : (doAck p content crc s).roster =
    s.roster := by
  simp [doAck]

@[simp] theorem State.resend_roster (s : State) (p : Nat) (l : List SentPacket) : (State.resend s p l).roster = s.roster :=
    by
  simp [State.resend]

@[simp] theorem doNak_roster (p : Nat) (content : BitVec 48) (crc : BitVec 8) (s : State) : (doNak p content crc s).roster =
    s.roster := by
  simp [doNak]

@[simp] theorem doReplayTimeout_roster (p : Nat) (s : State) : (doReplayTimeout p s).roster = s.roster := by
  simp [doReplayTimeout]

@[simp] theorem doCreditTimer_roster (p : Nat) (s : State) : (doCreditTimer p s).roster = s.roster := by
  simp [doCreditTimer]

@[simp] theorem doAckTimer_roster (p : Nat) (s : State) : (doAckTimer p s).roster = s.roster := by
  simp [doAckTimer]

@[simp] theorem State.freeFlits_roster (s : State) (p v n : Nat) : (State.freeFlits s p v n).roster = s.roster := by
  simp [State.freeFlits]

@[simp] theorem State.sendNak_roster (s : State) (p : Nat) : (State.sendNak s p).roster = s.roster := by
  simp [State.sendNak]

@[simp] theorem State.acceptPacket_roster (s : State) (p : Nat) (k : Packet) : (State.acceptPacket s p k).roster = s.roster
    := by
  simp [State.acceptPacket]

@[simp] theorem doPacketReceive_roster (p : Nat) (flits : List (BitVec 64)) (s : State) : (doPacketReceive p flits s).roster
    = s.roster := by
  unfold doPacketReceive
  (repeat' split) <;> simp

@[simp] theorem State.afterCopy_roster (s : State) (src : Nat) (e f : InPacket) (rest : Bool) :
    (State.afterCopy s src e f rest).roster = s.roster := by
  simp [State.afterCopy]

theorem State.sendOne_roster (s : State) (p : Nat) : ∀ t, (State.sendOne s p) = some t → t.roster = s.roster := by
  unfold State.sendOne
  (repeat' split) <;> simp

@[simp] theorem State.trimBroadcasts_roster (s : State) : (State.trimBroadcasts s).roster = s.roster := by
  simp [State.trimBroadcasts]

@[simp] theorem State.discardLost_roster (s : State) : (State.discardLost s).roster = s.roster := by
  simp [State.discardLost]

@[simp] theorem State.feltFlow_roster (v0 : Nat) (s : State) : (State.feltFlow v0 s).roster = s.roster := by
  induction v0 generalizing s with
  | zero => rfl
  | succ fuel ih =>
    simp only [State.feltFlow]
    split
    · rename_i s1 heq
      obtain ⟨p, _, hp⟩ := List.exists_of_findSome?_eq_some heq
      exact (ih _).trans (State.sendOne_roster _ _ _ hp)
    · rfl

@[simp] theorem State.feltRun_roster (s : State) : (State.feltRun s).roster = s.roster := by
  simp [State.feltRun]

@[simp] theorem State.setSync_roster (s : State) (k : Nat) : (State.setSync s k).roster = s.roster := by
  simp [State.setSync]

@[simp] theorem State.showSync_roster (s : State) : (State.showSync s).roster = s.roster := by
  unfold State.showSync
  dsimp only
  (repeat' split) <;> simp

@[simp] theorem doSyncExchange_roster (p : Nat) (t1 : BitVec 64) (s : State) : (doSyncExchange p t1 s).roster = s.roster :=
    by
  simp [doSyncExchange]

@[simp] theorem doSyncReq_roster (p : Nat) (content : BitVec 48) (crc : BitVec 8) (t2 t3 : BitVec 64) (s : State) :
    (doSyncReq p content crc t2 t3 s).roster = s.roster := by
  simp [doSyncReq]

@[simp] theorem doSyncRsp_roster (p : Nat) (content : BitVec 48) (crc : BitVec 8) (t4 : BitVec 64) (s : State) :
    (doSyncRsp p content crc t4 s).roster = s.roster := by
  unfold doSyncRsp
  refine State.blockUp_roster _ _ _ _ _ _ (fun _ _ => ?_)
  dsimp only
  (repeat' split) <;> simp

@[simp] theorem doSyncPulseTimer_roster (t : BitVec 64) (hi : Bool) (s : State) : (doSyncPulseTimer t hi s).roster = s.roster
    := by
  simp [doSyncPulseTimer]

@[simp] theorem doSyncInfo_roster (p : Nat) (content : BitVec 48) (crc : BitVec 8) (s : State) :
    (doSyncInfo p content crc s).roster = s.roster := by
  simp [doSyncInfo]

@[simp] theorem doTimeHi_roster (p : Nat) (content : BitVec 48) (crc : BitVec 8) (s : State) :
    (doTimeHi p content crc s).roster = s.roster := by
  simp [doTimeHi]

@[simp] theorem doHoldoverTimeout_roster (s : State) : (doHoldoverTimeout s).roster = s.roster := by
  simp [doHoldoverTimeout]

@[simp] theorem State.slew_roster (s : State) : (State.slew s).roster = s.roster := by
  simp [State.slew]

@[simp] theorem State.setTime_roster (s : State) (t : Nat) : (State.setTime s t).roster = s.roster := by
  simp [State.setTime]

@[simp] theorem syncPulse.countPulse_roster (offset : Int) (s : State) : (syncPulse.countPulse offset s).roster = s.roster :=
    by
  simp [syncPulse.countPulse]

@[simp] theorem State.tickTime_roster (s : State) : (State.tickTime s).roster = s.roster := by
  simp [State.tickTime]

@[simp] theorem State.taken'_roster (s : State) (p : Nat) (e : InPacket) : (State.taken' s p e).roster = s.roster := by
  simp [State.taken']

@[simp] theorem message_roster (typ : Nat) (k : Nat → Packet → State → Option State) (p : Nat) (s : State)
    (hk : ∀ x0 x1 x2 t, (k x0 x1 x2) = some t → t.roster = State.roster x2) : (message typ k p s).roster = s.roster := by
  unfold message
  split
  · rfl
  · rename_i e _
    split
    · rename_i s1 heq
      exact (hk _ _ _ _ heq).trans (State.taken'_roster _ _ _)
    · rfl

@[simp] theorem wakingMessage_roster (typ : Nat) (k : Nat → Packet → State → Bool × State) (p : Nat) (s : State)
    (hk : ∀ x0 x1 x2, (k x0 x1 x2).2.roster = State.roster x2) : (wakingMessage typ k p s).roster = s.roster := by
  unfold wakingMessage
  split
  · rfl
  · split
    · simp
    · next e _ _ =>
      have h := hk p e.pkt s
      split <;> next hr => simp [State.roster_of_eq h hr]

@[simp] theorem State.answer_roster (s : State) (k : Packet) (typ st kind : Nat) (data : List Byte) (poison : Nat) :
    (State.answer s k typ st kind data poison).roster = s.roster := by
  simp [State.answer]

@[simp] theorem State.writePayload_roster (s : State) (x : MemCtx) (va : Nat) (data : List Byte) (poison : Nat) :
    (State.writePayload s x va data poison).2.roster = s.roster := by
  simp [State.writePayload]

@[simp] theorem doWriteReq_roster (v0 : Nat) (s : State) : (doWriteReq v0 s).roster = s.roster := by
  unfold doWriteReq
  refine wakingMessage_roster _ _ _ _ (fun _ _ _ => ?_)
  grind [wakingMessage_roster, State.answer_roster, State.writePayload_roster, State.roster_update, State.roster_foldl]

@[simp] theorem doReadReq_roster (v0 : Nat) (s : State) : (doReadReq v0 s).roster = s.roster := by
  unfold doReadReq
  refine wakingMessage_roster _ _ _ _ (fun _ _ _ => ?_)
  grind [wakingMessage_roster, State.answer_roster, dmaGather_roster, State.roster_update, State.roster_foldl]

@[simp] theorem State.modCopy_roster (s : State) (c : Cmd) (f : FeltCopy → FeltCopy) : (State.modCopy s c f).roster =
    s.roster := by
  simp [State.modCopy]

@[simp] theorem State.endCopy_roster (s : State) (x : FeltCopy) (st va : Nat) (kind side : Nat) :
    (State.endCopy s x st va kind side).roster = s.roster := by
  simp [State.endCopy]

@[simp] theorem State.sendCopy_roster (s : State) (x : FeltCopy) (typ : Nat) (v3 : List (Nat × Nat × List Byte × Nat)) :
    (State.sendCopy s x typ v3).roster = s.roster := by
  induction v3 generalizing s x typ with
  | nil => rfl
  | cons x l ih =>
    simp [State.sendCopy, ih]

@[simp] theorem State.startCopyChunk_roster (s : State) (x : FeltCopy) : (State.startCopyChunk s x).roster = s.roster := by
  unfold State.startCopyChunk
  grind [State.modCopy_roster, State.endCopy_roster, State.bump_roster, State.sendCopy_roster, dmaGather_roster,
    State.roster_update, State.roster_foldl]

@[simp] theorem State.endCopyChunk_roster (s : State) (x : FeltCopy) : (State.endCopyChunk s x).roster = s.roster := by
  unfold State.endCopyChunk
  grind [State.endCopy_roster, dmaWriteRuns_roster, State.modCopy_roster, State.roster_update, State.roster_foldl]

@[simp] theorem State.copyStep_roster (s : State) : (State.copyStep s).roster = s.roster := by
  unfold State.copyStep
  (repeat' split) <;> simp

@[simp] theorem State.copyRun_roster (v0 : Nat) (s : State) : (State.copyRun v0 s).roster = s.roster := by
  induction v0 generalizing s with
  | zero => rfl
  | succ n ih =>
    simp [State.copyRun, ih]

@[simp] theorem doFeltCopy_roster (c : Cmd) (s : State) : (doFeltCopy c s).roster = s.roster := by
  simp [doFeltCopy]

@[simp] theorem State.answered'_roster (s : State) (tid : Nat) (f : FeltCopy → CopyMsg → FeltCopy) :
    (State.answered' s tid f).roster = s.roster := by
  unfold State.answered'
  (repeat' split) <;> simp

@[simp] theorem doWriteRsp_roster (v0 : Nat) (s : State) : (doWriteRsp v0 s).roster = s.roster := by
  simp [doWriteRsp]

@[simp] theorem doReadRsp_roster (v0 : Nat) (s : State) : (doReadRsp v0 s).roster = s.roster := by
  simp [doReadRsp]

@[simp] theorem doRspTimeout_roster (tid : Nat) (s : State) : (doRspTimeout tid s).roster = s.roster := by
  simp [doRspTimeout]

@[simp] theorem State.handBody_roster (s : State) (r : Reassembly) : (State.handBody s r).2.roster = s.roster := by
  unfold State.handBody
  grind [State.popReport_roster, State.workTouch_roster, State.popLimits_roster, State.popFailure_roster,
    State.roster_update, State.roster_foldl]

@[simp] theorem State.handBodies_roster (s : State) : (State.handBodies s).roster = s.roster := by
  unfold State.handBodies
  refine State.roster_foldl _ (fun u r => ?_) _ _
  split
  · split
    · next heq => simpa using State.roster_of_eq (State.handBody_roster ..) heq
    · next heq => exact State.roster_of_eq (State.handBody_roster ..) heq
  · rfl

@[simp] theorem doReduce_roster (v0 : Nat) (s : State) : (doReduce v0 s).roster = s.roster := by
  simp [doReduce]

@[simp] theorem doReassemblyTimeout_roster (k : Nat) (s : State) : (doReassemblyTimeout k s).roster = s.roster := by
  unfold doReassemblyTimeout
  split <;> simp

@[simp] theorem doLinkState_roster (v0 : Nat) (s : State) : (doLinkState v0 s).roster = s.roster := by
  unfold doLinkState
  refine message_roster _ _ _ _ (fun _ _ _ => ?_)
  dsimp only
  (repeat' split) <;> simp

@[simp] theorem State.showStarts_roster (s : State) : (State.showStarts s).roster = s.roster := by
  simp [State.showStarts]

@[simp] theorem State.armStart_roster (s : State) (id t : Nat) : (State.armStart s id t).2.roster = s.roster := by
  unfold State.armStart
  dsimp only
  (repeat' split) <;> simp

@[simp] theorem State.freeStart_roster (s : State) (k : Nat) : (State.freeStart s k).roster = s.roster := by
  simp [State.freeStart]

@[simp] theorem doStartAlign_roster (k : Nat) (s : State) : (doStartAlign k s).roster = s.roster := by
  simp [doStartAlign]

@[simp] theorem doStart_roster (v0 : Nat) (s : State) : (doStart v0 s).roster = s.roster := by
  simp [doStart]

@[simp] theorem State.endAsk_roster (s : State) (a : StartAsk) : (State.endAsk s a).roster = s.roster := by
  simp [State.endAsk]

@[simp] theorem State.endAsks_roster (s : State) : (State.endAsks s).roster = s.roster := by
  simp [State.endAsks]

@[simp] theorem doStartAck_roster (v0 : Nat) (s : State) : (doStartAck v0 s).roster = s.roster := by
  unfold doStartAck
  refine message_roster _ _ _ _ (fun _ _ _ => ?_)
  dsimp only
  (repeat' split) <;> simp

@[simp] theorem State.askAll_roster (s : State) (c : Cmd) (id : Nat) (cancels ok : Bool) :
    (State.askAll s c id cancels ok).roster = s.roster := by
  simp [State.askAll]

@[simp] theorem doFeltSchedule_roster (c : Cmd) (s : State) : (doFeltSchedule c s).roster = s.roster := by
  simp [doFeltSchedule]

@[simp] theorem doScheduleTimeout_roster (k : Nat) (s : State) : (doScheduleTimeout k s).roster = s.roster := by
  unfold doScheduleTimeout
  split <;> simp

@[simp] theorem doFeltTimeSet_roster (c : Cmd) (s : State) : (doFeltTimeSet c s).roster = s.roster := by
  simp [doFeltTimeSet]

@[simp] theorem State.feltLayerReset_roster (s : State) : (State.feltLayerReset s).roster = s.roster := by
  simp [State.feltLayerReset]

@[simp] theorem State.modUsage_roster (s : State) (f : Usage → Usage) : (State.modUsage s f).roster = s.roster := by
  simp [State.modUsage]

@[simp] theorem State.showNextEvent_roster (s : State) : (State.showNextEvent s).roster = s.roster := by
  simp only [State.showNextEvent, State.roster_update, State.setFlag_roster, State.setFld_roster]

@[simp] theorem doIdleChoice_roster (s : State) : (doIdleChoice s).roster = s.roster := by
  simp [doIdleChoice]

@[simp] theorem doIdleExit_roster (s : State) : (doIdleExit s).roster = s.roster := by
  simp [doIdleExit]

@[simp] theorem State.watchIdle_roster (s : State) : (State.watchIdle s).roster = s.roster := by
  simp [State.watchIdle]

@[simp] theorem State.showAllReady_roster (s : State) : (State.showAllReady s).roster = s.roster := by
  simp [State.showAllReady]

@[simp] theorem doIdleExitEnd_roster (s : State) : (doIdleExitEnd s).roster = s.roster := by
  simp [doIdleExitEnd]

@[simp] theorem doNextEvent_roster (c : Cmd) (s : State) : (doNextEvent c s).roster = s.roster := by
  simp [doNextEvent]

@[simp] theorem doWake_roster (left : Nat) (c : Cmd) (s : State) : (doWake left c s).roster = s.roster := by
  simp [doWake]

@[simp] theorem doUsageRead_roster (c : Cmd) (s : State) : (doUsageRead c s).roster = s.roster := by
  unfold doUsageRead
  refine State.checked_roster _ _ _ _ (fun t => ?_)
  have h := State.memWrite_roster t { engine := 9, unit := 0 } (c.field 16 8) t.usageBody false
  dsimp only
  split
  · exact (State.complete_roster _ _ _ _).trans h
  · split
    · split
      · exact (State.requestStore_roster _ _).trans h
      · exact (State.complete_roster _ _ _ _).trans h
    · exact (State.hold_roster _ _ _).trans h

@[simp] theorem doUsageLogWrite_roster (s : State) : (doUsageLogWrite s).roster = s.roster := by
  simp [doUsageLogWrite]

@[simp] theorem State.checkSensor_roster (s : State) (apart : Nat → Bool) (k : Nat) : (State.checkSensor s apart k).roster =
    s.roster := by
  simp [State.checkSensor]

@[simp] theorem State.thermalSample_roster (s : State) (temps : List (BitVec 16)) : (State.thermalSample s temps).2.roster =
    s.roster := by
  simp [State.thermalSample]

@[simp] theorem doThrottleUpdate_roster (s : State) : (doThrottleUpdate s).roster = s.roster := by
  simp [doThrottleUpdate]

@[simp] theorem doSensorReadmit_roster (k : Nat) (s : State) : (doSensorReadmit k s).roster = s.roster := by
  simp [doSensorReadmit]

@[simp] theorem State.markSuspect_roster (s : State) : (State.markSuspect s).roster = s.roster := by
  simp [State.markSuspect]

@[simp] theorem doSupplyWarning_roster (r : Nat) (s : State) : (doSupplyWarning r s).roster = s.roster := by
  unfold doSupplyWarning
  split
  · rfl
  · simp only [State.markSuspect_roster, State.roster_update, State.setFld_roster]

@[simp] theorem doSupplyRecovery_roster (r : Nat) (s : State) : (doSupplyRecovery r s).roster = s.roster := by
  unfold doSupplyRecovery
  split <;> simp

@[simp] theorem doAgeingMeasure_roster (c : Nat) (ppm : BitVec 32) (s : State) : (doAgeingMeasure c ppm s).roster = s.roster
    := by
  simp [doAgeingMeasure]

@[simp] theorem State.zeroQuads_roster (s : State) (a n : Nat) : (State.zeroQuads s a n).roster = s.roster := by
  simp [State.zeroQuads]

@[simp] theorem State.clearCounts_roster (s : State) (a : Nat) : (State.clearCounts s a).roster = s.roster := by
  simp [State.clearCounts]

@[simp] theorem State.wroteLow_roster (s old : State) (a lo x : Nat) : (State.wroteLow s old a lo x).roster = s.roster := by
  simp [State.wroteLow]

@[simp] theorem State.wroteCluster_roster (s : State) (a lo : Nat) : (State.wroteCluster s a lo).roster = s.roster := by
  simp [State.wroteCluster]

@[simp] theorem State.wroteSeq_roster (s : State) (a x : Nat) : (State.wroteSeq s a x).roster = s.roster := by
  simp [State.wroteSeq]

@[simp] theorem State.wroteAnalog_roster (s : State) (a lo : Nat) : (State.wroteAnalog s a lo).roster = s.roster := by
  simp [State.wroteAnalog]

@[simp] theorem State.wrote_roster (s old : State) (a lo x : Nat) : (State.wrote s old a lo x).roster = s.roster := by
  simp [State.wrote]

@[simp] theorem State.barPut_roster (s : State) (a lo : Nat) (w v : Nat) : (State.barPut s a lo w v).roster = s.roster := by
  unfold State.barPut
  (repeat' split) <;> simp

@[simp] theorem State.barAligned_roster (s : State) (a : Nat) (wide : Bool) (v : Nat) : (State.barAligned s a wide v).roster
    = s.roster := by
  simp [State.barAligned]

@[simp] theorem State.badAccess_roster (s : State) (a : Nat) : (State.badAccess s a).roster = s.roster := by
  simp [State.badAccess]

@[simp] theorem State.barForce_roster (s : State) (a : Nat) (wide : Bool) (v : Nat) : (State.barForce s a wide v).roster =
    s.roster := by
  simp [State.barForce]

@[simp] theorem State.barWrite_roster (s : State) (a : Nat) (wide : Bool) (v : Nat) : (State.barWrite s a wide v).roster =
    s.roster := by
  simp [State.barWrite]

@[simp] theorem State.barPartWrite_roster (s : State) (a : Nat) (part : RegPart) (v : Nat) :
    (State.barPartWrite s a part v).roster = s.roster := by
  unfold State.barPartWrite
  split <;> simp

@[simp] theorem State.hostRead_roster (s : State) (a size : Nat) : (State.hostRead s a size).2.roster = s.roster := by
  simp [State.hostRead]

@[simp] theorem State.markRecords_roster (s : State) (b site : Nat) : (State.markRecords s b site).roster = s.roster := by
  simp [State.markRecords]

@[simp] theorem State.security_roster (s : State) (info : Nat) : (State.security s info).roster = s.roster := by
  simp [State.security]

@[simp] theorem State.mgmtWrite_roster (s : State) (c : Cmd) (va : Nat) (data : List Byte) (k : State → State)
    (hk : ∀ x0, (k x0).roster = State.roster x0) : (State.mgmtWrite s c va data k).roster = s.roster := by
  unfold State.mgmtWrite
  split <;> next h => simp [hk, State.roster_of_eq (State.memWrite_roster ..) h]

@[simp] theorem doFwUpdate_roster (c : Cmd) (s : State) : (doFwUpdate c s).roster = s.roster := by
  unfold doFwUpdate
  extract_lets va n
  split
  · simp
  · split
    · simp
    · refine State.withReadOr_roster _ _ _ _ _ _ _ _ (fun _ => ?_) (fun img t => ?_)
      · simp
      · split
        · split
          · simp
          · extract_lets svn job s1 jobs
            have h1 : s1.roster = t.roster := State.setFlag_roster _ _ _
            clear_value s1
            simp [h1]
        · simp

@[simp] theorem doOemProvision_roster (c : Cmd) (s : State) : (doOemProvision c s).roster = s.roster := by
  simp [doOemProvision]

@[simp] theorem doOemConfig_roster (c : Cmd) (s : State) : (doOemConfig c s).roster = s.roster := by
  simp [doOemConfig]

@[simp] theorem State.readRuns_roster (s : State) (v1 : List (Nat × Nat)) (v2 : List Byte) :
    (State.readRuns s v1 v2).2.roster = s.roster := by
  induction v1 generalizing s v2 with
  | nil => rfl
  | cons q l ih =>
    simp only [State.readRuns]
    have h := State.memRead_roster s { engine := 9, unit := 0 } q.1 q.2
    split
    · rename_i heq
      rw [heq] at h
      exact (ih _ _).trans h
    · exact h

@[simp] theorem State.segmentRuns_roster (s : State) (v1 : List (Nat × Nat)) (v2 : List (Nat × Nat)) :
    (State.segmentRuns s v1 v2).2.roster = s.roster := by
  induction v1 generalizing s v2 with
  | nil => rfl
  | cons q l ih =>
    simp only [State.segmentRuns]
    have h := State.memRead_roster s { engine := 9, unit := 0 } q.1 64
    split
    · rename_i hd s1 heq
      rw [heq] at h
      have h2 := State.memRead_roster s1 { engine := 9, unit := 0 } (q.1 + 64) (8 * (q.2 * bytesField hd 6 1))
      split
      · rename_i heq2
        rw [heq2] at h2
        exact ((ih _ _).trans h2).trans h
      · rename_i heq2
        rw [heq2] at h2
        exact h2.trans h
    · rename_i heq
      rw [heq] at h
      exact h

@[simp] theorem State.logImage_roster (s : State) (c : Cmd) (base : Nat) (digested : List (Nat × Nat))
    (read : List (Nat × Nat)) (d : List Byte) : (State.logImage s c base digested read d).roster = s.roster := by
  simp [State.logImage]

@[simp] theorem State.readFailed_roster (s : State) (c : Cmd) (r : Acc) : (State.readFailed s c r).roster = s.roster := by
  unfold State.readFailed
  split <;> simp

@[simp] theorem doImageMeasure_roster (c : Cmd) (s : State) : (doImageMeasure c s).roster = s.roster := by
  unfold doImageMeasure
  refine State.checked_roster _ _ _ _ (fun u => ?_)
  extract_lets q
  have hq : q.2.2.roster = u.roster := State.preRead_roster ..
  split
  · split <;> simp [hq]
  · extract_lets h t l p
    have ht : t.2.2.roster = u.roster := (State.preRead_roster ..).trans hq
    split
    · simp [hq]
    · split
      · simp
      · split
        · simp [ht]
        · split
          · simp [ht]
          · split
            · next hr => simp [(State.roster_of_eq (State.segmentRuns_roster ..) hr).trans ht]
            · next hr =>
              have h1 := (State.roster_of_eq (State.segmentRuns_roster ..) hr).trans ht
              dsimp only
              split <;> next hd => simp [(State.roster_of_eq (State.readRuns_roster ..) hd).trans h1]

@[simp] theorem State.countSignature_roster (s : State) : (State.countSignature s).roster = s.roster := by
  simp [State.countSignature]

@[simp] theorem doAttest_roster (c : Cmd) (s : State) : (doAttest c s).roster = s.roster := by
  unfold doAttest
  exact State.checked_roster _ _ _ _ (fun _ => State.mgmtWrite_roster _ _ _ _ _ (fun _ => State.mgmtWrite_roster _ _ _ _ _
    (fun _ => by simp)))

@[simp] theorem State.newPeriod_roster (s : State) : (State.newPeriod s).roster = s.roster := by
  simp [State.newPeriod]

@[simp] theorem doSummarySign_roster (c : Cmd) (s : State) : (doSummarySign c s).roster = s.roster := by
  simp [doSummarySign]

@[simp] theorem State.spoil_roster (s : State) (a n : Nat) : (State.spoil s a n).roster = s.roster := by
  simp [State.spoil]

@[simp] theorem State.dropJob_roster (s : State) (j : FlashJob) : (State.dropJob s j).roster = s.roster := by
  simp [State.dropJob]

@[simp] theorem State.jobFails_roster (s : State) (j : FlashJob) : (State.jobFails s j).roster = s.roster := by
  unfold State.jobFails
  split <;> simp

@[simp] theorem State.jobDone_roster (s : State) (j : FlashJob) : (State.jobDone s j).roster = s.roster := by
  unfold State.jobDone
  split <;> simp only [State.dropJob_roster, State.roster_foldl, State.complete_roster, State.roster_ite, State.setFlag_roster,
    State.setFld_roster, State.bump_roster, State.security_roster, ite_self, implies_true]

@[simp] theorem State.frameEnds_roster (s : State) (j : FlashJob) (f : FlashFrame) (rest : List FlashFrame) (good : Bool) :
    (State.frameEnds s j f rest good).roster = s.roster := by
  simp [State.frameEnds]

@[simp] theorem State.serveFetch_roster (s : State) : (State.serveFetch s).roster = s.roster := by
  unfold State.serveFetch
  split <;> simp

@[simp] theorem doFlashStatusRead_roster (ready good : Bool) (s : State) : (doFlashStatusRead ready good s).roster = s.roster
    := by
  unfold doFlashStatusRead
  (repeat' split) <;> simp

@[simp] theorem doFlashBusyTimeout_roster (s : State) : (doFlashBusyTimeout s).roster = s.roster := by
  unfold doFlashBusyTimeout
  (repeat' split) <;> simp

@[simp] theorem State.cutFrame_roster (s : State) : (State.cutFrame s).roster = s.roster := by
  unfold State.cutFrame
  (repeat' split) <;> simp

@[simp] theorem State.unitEvent_roster (s : State) (u code : Nat) : (State.unitEvent s u code).roster = s.roster := by
  simp [State.unitEvent]

@[simp] theorem State.dropHeld_roster (s : State) (u : Nat) : (State.dropHeld s u).roster = s.roster := by
  simp [State.dropHeld]

@[simp] theorem State.unretireFrames_roster (s : State) (n : Nat) : (State.unretireFrames s n).roster = s.roster := by
  simp [State.unretireFrames]

@[simp] theorem State.clusterDpsOff_roster (s : State) (c : Nat) : (State.clusterDpsOff s c).roster = s.roster := by
  simp [State.clusterDpsOff]

@[simp] theorem State.takeHeldWrites_roster (s : State) (u : Nat) : (State.takeHeldWrites s u).roster = s.roster := by
  simp [State.takeHeldWrites]

@[simp] theorem State.memCut_roster (s : State) : (State.memCut s).roster = s.roster := by
  simp [State.memCut]

@[simp] theorem State.headboxCut_roster (s : State) : (State.headboxCut s).roster = s.roster := by
  simp [State.headboxCut]

@[simp] theorem State.dropInject_roster (s : State) (p : Nat) : (State.dropInject s p).roster = s.roster := by
  simp [State.dropInject]

@[simp] theorem State.portCut_roster (s : State) (p : Nat) : (State.portCut s p).roster = s.roster := by
  simp [State.portCut]

@[simp] theorem State.watermarkCut_roster (s : State) : (State.watermarkCut s).roster = s.roster := by
  simp [State.watermarkCut]

@[simp] theorem State.resetRegs_roster (s : State) (us : List Nat) : (State.resetRegs s us).roster = s.roster := by
  simp [State.resetRegs]

@[simp] theorem State.resetPins_roster (s : State) (us : List Nat) : (State.resetPins s us).roster = s.roster := by
  simp [State.resetPins]

@[simp] theorem State.clusterChecks_roster (s : State) (c : Nat) (r : BringUp) : (State.clusterChecks s c r).roster =
    s.roster := by
  simp [State.clusterChecks]

@[simp] theorem State.clusterCal_roster (s : State) (c : Nat) (r : BringUp) : (State.clusterCal s c r).roster = s.roster :=
    by
  have hrun : ∀ (l : List Nat) (x : CalRun × State), (l.foldl (fun x k => x.2.calKind x.1 k) x).2.roster = x.2.roster := by
    intro l
    induction l with
    | nil => exact fun _ => rfl
    | cons k l ih => exact fun x => (ih _).trans (State.calKind_roster ..)
  unfold State.clusterCal
  split
  · simp only [State.roster_update, State.setFlag_roster, hrun]
  · rfl

@[simp] theorem State.startCluster_roster (s : State) (c : Nat) (r : BringUp) : (State.startCluster s c r).2.roster =
    s.roster := by
  simp [State.startCluster]

@[simp] theorem State.startMemory_roster (s : State) (r : BringUp) : (State.startMemory s r).2.roster = s.roster := by
  simp [State.startMemory]

@[simp] theorem State.endUnitAsks_roster (s : State) : (State.endUnitAsks s).roster = s.roster := by
  simp [State.endUnitAsks]

@[simp] theorem State.unitStarted_roster (s : State) (u : Nat) (ok : Bool) : (State.unitStarted s u ok).roster = s.roster :=
    by
  simp [State.unitStarted]

@[simp] theorem State.afterStart_roster (s : State) : (State.afterStart s).roster = s.roster := by
  simp [State.afterStart]

@[simp] theorem State.startUnit_roster (s : State) (u : Nat) (r : BringUp) (restart : Bool) :
    (State.startUnit s u r restart).roster = s.roster := by
  simp [State.startUnit]

@[simp] theorem doUnitBringup_roster (u : Nat) (r : BringUp) (s : State) : (doUnitBringup u r s).roster = s.roster := by
  simp [doUnitBringup]

@[simp] theorem doUnitRestart_roster (u : Nat) (r : BringUp) (s : State) : (doUnitRestart u r s).roster = s.roster := by
  simp [doUnitRestart]

@[simp] theorem State.memoryOff_roster (s : State) : (State.memoryOff s).roster = s.roster := by
  simp [State.memoryOff]

@[simp] theorem State.unitOff_roster (s : State) (u : Nat) : (State.unitOff s u).roster = s.roster := by
  simp [State.unitOff]

@[simp] theorem doUnitPowerUp_roster (c : Cmd) (s : State) : (doUnitPowerUp c s).roster = s.roster := by
  simp [doUnitPowerUp]

@[simp] theorem State.logRetire_roster (s : State) (l : List (Nat × Nat)) : (State.logRetire s l).roster = s.roster := by
  simp [State.logRetire]

@[simp] theorem doUnitUnretire_roster (c : Cmd) (s : State) : (doUnitUnretire c s).roster = s.roster := by
  simp [doUnitUnretire]

@[simp] theorem State.runImage_roster (s : State) (i : FwImage) : (State.runImage s i).roster = s.roster := by
  simp [State.runImage]

@[simp] theorem State.checkCertificate_roster (s : State) (x : Directory) : (State.checkCertificate s x).roster = s.roster :=
    by
  simp [State.checkCertificate]

@[simp] theorem State.loadBank_roster (s : State) (x : Directory) : (State.loadBank s x).roster = s.roster := by
  simp only [State.loadBank, State.roster_ite, State.roster_update, State.setFlag_roster, State.setFld_roster, ite_self]

@[simp] theorem State.loadUsage_roster (s : State) : (State.loadUsage s).roster = s.roster := by
  simp [State.loadUsage]

@[simp] theorem State.loadCal_roster (s : State) : (State.loadCal s).roster = s.roster := by
  unfold State.loadCal
  split <;> simp

@[simp] theorem State.loadRetired_roster (s : State) : (State.loadRetired s).roster = s.roster := by
  unfold State.loadRetired
  split <;> simp

@[simp] theorem State.applyOem_roster (s : State) : (State.applyOem s).roster = s.roster := by
  unfold State.applyOem
  split <;> simp

@[simp] theorem State.booted_roster (s : State) : (State.booted s).roster = s.roster := by
  simp [State.booted]

@[simp] theorem doBoot_roster (s : State) : (doBoot s).roster = s.roster := by
  unfold doBoot
  (repeat' split) <;> simp

@[simp] theorem State.debugUsed_roster (s : State) : (State.debugUsed s).roster = s.roster := by
  simp [State.debugUsed]

@[simp] theorem State.releaseWrites_roster (s : State) (b : Nat) : (State.releaseWrites s b).roster = s.roster := by
  simp [State.releaseWrites]

@[simp] theorem State.releaseRings_roster (s : State) : (State.releaseRings s).roster = s.roster := by
  simp [State.releaseRings]

@[simp] theorem clrCounts_roster (a k w : Nat) (s : State) : (clrCounts a k w s).roster = s.roster := by
  simp [clrCounts]

@[simp] theorem lineAsserted_roster (k : Nat) (s : State) : (lineAsserted k s).roster = s.roster := by
  simp [lineAsserted]

end Sys2Proof.Machine
end

section
/-! SUPPORT. The sizes of the captured groups and the BG_BASE of the programs (R36, R39, R128): what changes the rest of a
  program or of a group. -/

namespace Sys2Proof.Machine

open Sys2Proof

@[simp] theorem Program.bgBase_ite (c : Prop) [Decidable c] (g h : Program) :
    (if c then g else h).bgBase = if c then g.bgBase else h.bgBase := apply_ite _ _ _ _

@[simp] theorem Program.note_bgBase (g : Program) (p st : Nat) : (g.note p st).bgBase = g.bgBase := by
  cases g; rfl

@[simp] theorem Program.foldl_bgBase {α : Type} (f : Program → α → Program) (h : ∀ g x, (f g x).bgBase = g.bgBase) (l : List α)
    (g : Program) : (l.foldl f g).bgBase = g.bgBase := by
  induction l generalizing g with
  | nil => rfl
  | cons x l ih => exact (ih _).trans (h g x)

@[simp] theorem Program.noteAll_bgBase (g : Program) (k st : Nat) : (g.noteAll k st).bgBase = g.bgBase := by
  simp [Program.noteAll]

@[simp] theorem Program.appliedTo_bgBase (g : Program) (t : Nat) : (g.appliedTo t).bgBase = g.bgBase := by
  cases g; rfl

@[simp] theorem Program.queueVectors_bgBase (g : Program) (set n period : Nat) (later : Bool) :
    (g.queueVectors set n period later).bgBase = g.bgBase := by
  cases g; rfl

@[simp] theorem Program.closeWord_bgBase (g : Program) : g.closeWord.bgBase = g.bgBase := by
  unfold Program.closeWord
  split <;> rfl

@[simp] theorem State.settleWords_bgBase (s : State) (b n : Nat) (g : Program) : (s.settleWords b n g).bgBase = g.bgBase := by
  induction n generalizing g with
  | zero => rfl
  | succ n ih =>
    unfold State.settleWords
    (repeat' split) <;> simp [ih]

theorem State.base_some {s : State} {b : Nat} {g : Program} (h : s.program b = some g) : s.roster.base b = some g.bgBase := by
  simp [h]

/-- A captured group in place of one of the same size. -/
theorem State.groups_put_roster {s t : State} {b : Nat} {g : Group} (hg : t.groups = SMap.put s.groups b g) (hp : t.programs
    = s.programs)
    (h : g.size = (s.group b).size) : t.roster = s.roster := by
  have hsize : ∀ x, (t.group x).size = (s.group x).size := by
    intro x
    unfold State.group
    rw [hg]
    by_cases hx : x = b
    · subst hx
      rw [SMap.get_put_self]
      exact h
    · rw [SMap.get_put_other _ _ _ hx]
  have hbase : ∀ x, (t.program x).map Program.bgBase = (s.program x).map Program.bgBase := by
    intro x
    unfold State.program
    rw [hp]
  unfold State.roster
  rw [funext hsize, funext hbase]

theorem State.program_of_base {s : State} {b n : Nat} (h : s.roster.base b = some n) : ∃ g, s.program b = some g ∧ g.bgBase = n :=
  Option.map_eq_some_iff.mp h

theorem State.program_of_running {s : State} {b : Nat} {g : Program} (h : s.running b = some g) : s.program b = some g := by
  unfold State.running at h
  split at h
  · next g' hg =>
    split at h
    · cases h
    · exact hg.trans h
  · cases h

/-- The end of a contact check of the group led by b. -/
theorem State.contactEnded_roster {s t : State} {b : Nat} {c : Cmd} {st result : Nat} (h : t.roster = s.roster) :
    (State.complete { t with groups := SMap.put t.groups b { s.group b with contact := none } } c st result).roster =
      s.roster := by
  have hsize : (s.group b).size = (t.group b).size := (congrFun (congrArg Roster.size h) b).symm
  have hput : State.roster { t with groups := SMap.put t.groups b { s.group b with contact := none } } = t.roster :=
    State.groups_put_roster (b := b) (g := { s.group b with contact := none }) rfl rfl hsize
  exact (State.complete_roster ..).trans (hput.trans h)

/-! ### Operations that change the rest of a program or of a captured group -/

@[simp] theorem State.noteStatus_roster (s : State) (b p st : Nat) : (State.noteStatus s b p st).roster = s.roster := by
  simp [State.noteStatus]

@[simp] theorem State.noteSite_roster (s : State) (site st : Nat) : (State.noteSite s site st).roster = s.roster := by
  unfold State.noteSite
  (repeat' split) <;> simp

@[simp] theorem State.enterRecord_roster (s : State) (n : Nat) (r : Rec) : (State.enterRecord s n r).roster = s.roster := by
  simp [State.enterRecord]

@[simp] theorem State.lossRecords_roster (s : State) (n v2 : Nat) : (State.lossRecords s n v2).roster = s.roster := by
  induction v2 generalizing s n with
  | zero => rfl
  | succ k ih =>
    unfold State.lossRecords
    dsimp only
    split
    · rfl
    · split
      · rfl
      · simp [ih]

@[simp] theorem State.deckleRecords_roster (s : State) (n v2 : Nat) : (State.deckleRecords s n v2).roster = s.roster := by
  induction v2 generalizing s n with
  | zero => rfl
  | succ k ih =>
    unfold State.deckleRecords
    dsimp only
    split
    · rfl
    · split
      · rfl
      · simp [ih]

@[simp] theorem State.reportLosses_roster (s : State) (n : Nat) : (State.reportLosses s n).roster = s.roster := by
  simp [State.reportLosses]

@[simp] theorem State.discardRecords_roster (s : State) (n cause : Nat) (f : Rec → Bool) :
    (State.discardRecords s n cause f).roster = s.roster := by
  simp [State.discardRecords]

@[simp] theorem State.popPush_roster (s : State) (r : PopReading) : (State.popPush s r).roster = s.roster := by
  simp [State.popPush]

@[simp] theorem State.conditionReading_roster (s : State) (b serial : Nat) (r : CondReading) :
    (State.conditionReading s b serial r).roster = s.roster := by
  simp [State.conditionReading]

@[simp] theorem State.deliverPin_roster (s : State) (p : Nat) (m : PinMeas) (status conversions : Nat) (value : Int)
    (flags start : Nat) : (State.deliverPin s p m status conversions value flags start).roster = s.roster := by
  unfold State.deliverPin
  (repeat' split) <;> simp

@[simp] theorem State.startMeas_roster (s : State) (p : Nat) (m : PinMeas) : (State.startMeas s p m).roster = s.roster := by
  simp [State.startMeas]

@[simp] theorem State.cutMeas_roster (s : State) (p status n : Nat) (sum : Int) (start : Nat) (clamped : Bool) :
    (State.cutMeas s p status n sum start clamped).roster = s.roster := by
  unfold State.cutMeas
  split <;> simp

@[simp] theorem doPpmuReading_roster (p : Nat) (sum : BitVec 26) (clamped : Bool) (start : Nat) (s : State) :
    (doPpmuReading p sum clamped start s).roster = s.roster := by
  unfold doPpmuReading
  (repeat' split) <;> simp

@[simp] theorem State.settleResults_roster (s : State) (b : Nat) : (State.settleResults s b).roster = s.roster := by
  simp [State.settleResults]

@[simp] theorem State.closeWord_roster (s : State) (b : Nat) : (State.closeWord s b).roster = s.roster := by
  simp [State.closeWord]

@[simp] theorem State.endIssue_roster (s : State) (b : Nat) : (State.endIssue s b).roster = s.roster := by
  unfold State.endIssue
  split
  · rfl
  · next g hg =>
    have hb := State.base_some hg
    rw [State.closeWord_roster] at hb
    simp [hb]

@[simp] theorem State.stopGroup_roster (s : State) (b st : Nat) : (State.stopGroup s b st).roster = s.roster := by
  simp [State.stopGroup]

@[simp] theorem State.stopAllSites_roster (s : State) (b st : Nat) : (State.stopAllSites s b st).roster = s.roster := by
  simp [State.stopAllSites]

@[simp] theorem State.cutGroup_roster (s : State) (b st : Nat) : (State.cutGroup s b st).roster = s.roster := by
  simp [State.cutGroup]

@[simp] theorem State.haltGroup_roster (s : State) (b st : Nat) : (State.haltGroup s b st).roster = s.roster := by
  simp [State.haltGroup]

@[simp] theorem doPllLockLoss_roster (c : Nat) (s : State) : (doPllLockLoss c s).roster = s.roster := by
  simp [doPllLockLoss]

@[simp] theorem State.appliedTo_roster (s : State) (b t : Nat) : (State.appliedTo s b t).roster = s.roster := by
  simp [State.appliedTo]

@[simp] theorem State.applyDue_roster (s : State) (b : Nat) : (State.applyDue s b).roster = s.roster := by
  unfold State.applyDue
  split <;> simp

@[simp] theorem doStreamBlockArrival_roster (n : Nat) (s : State) : (doStreamBlockArrival n s).roster = s.roster := by
  unfold doStreamBlockArrival
  dsimp only
  (repeat' split) <;> simp

@[simp] theorem State.modMicro_roster (s : State) (b : Nat) (f : Micro → Micro) : (State.modMicro s b f).roster = s.roster :=
    by
  simp [State.modMicro]

@[simp] theorem State.runSlot_roster (s : State) (b i : Nat) : (State.runSlot s b i).roster = s.roster := by
  unfold State.runSlot
  split <;> simp [*]

@[simp] theorem State.scheduleOr_roster (s : State) (b : Nat) (last : State → State)
    (hlast : ∀ x0, (last x0).roster = State.roster x0) : (State.scheduleOr s b last).roster = s.roster := by
  unfold State.scheduleOr
  (repeat' split) <;> simp [hlast]

@[simp] theorem State.freeRunning_roster (s : State) (b : Nat) : (State.freeRunning s b).roster = s.roster := by
  simp [State.freeRunning]

@[simp] theorem State.endSlot_roster (s : State) (b : Nat) : (State.endSlot s b).roster = s.roster := by
  unfold State.endSlot
  split <;> simp [*]

@[simp] theorem State.reconvergeOr_roster (s : State) (b addr : Nat) (last : State → State)
    (hlast : ∀ x0, (last x0).roster = State.roster x0) : (State.reconvergeOr s b addr last).roster = s.roster := by
  unfold State.reconvergeOr
  dsimp only
  (repeat' split) <;> simp [*]

@[simp] theorem State.retireSites_roster (s : State) (b : Nat) : (State.retireSites s b).roster = s.roster := by
  simp [State.retireSites]

@[simp] theorem State.retireOr_roster (s : State) (b : Nat) (last : State → State)
    (hlast : ∀ x0, (last x0).roster = State.roster x0) : (State.retireOr s b last).roster = s.roster := by
  simp [State.retireOr, hlast]

@[simp] theorem State.endTrap_roster (s : State) (b : Nat) : (State.endTrap s b).roster = s.roster := by
  unfold State.endTrap
  (repeat' split) <;> simp [*]

@[simp] theorem State.noSlotLeft_roster (s : State) (b : Nat) : (State.noSlotLeft s b).roster = s.roster := by
  unfold State.noSlotLeft
  split <;> simp

@[simp] theorem State.endPath_roster (s : State) (b : Nat) : (State.endPath s b).roster = s.roster := by
  unfold State.endPath
  split <;> simp

@[simp] theorem State.branchSite_roster (s : State) (b : Nat) (g : Program) (w c active : Nat)
    (hg : s.roster.base b = some g.bgBase) : (State.branchSite s b g w c active).2.roster = s.roster := by
  simp [State.branchSite, hg]

@[simp] theorem State.enterTrap_roster (s : State) (b cause : Nat) (m : Micro) (x : Slot) (active info : Nat)
    (req : Option Cmd) (after : Nat) : (State.enterTrap s b cause m x active info req after).roster = s.roster := by
  unfold State.enterTrap
  split
  · rfl
  · next g hg =>
    dsimp only
    split
    · cases req <;> simp [hg]
    · simp only [State.showExec_roster, State.alignStreams_roster, State.roster_ite, State.departGroup_roster, ite_self]
      exact (State.setProgram_roster (by simp [hg])).trans (by simp [hg])

@[simp] theorem State.trapAt_roster (s : State) (b cause : Nat) (resume info after : Nat) :
    (State.trapAt s b cause resume info after).roster = s.roster := by
  unfold State.trapAt
  split <;> simp

@[simp] theorem State.hostTrapNow_roster (s : State) (b info : Nat) (req : Option Cmd) :
    (State.hostTrapNow s b info req).roster = s.roster := by
  unfold State.hostTrapNow
  split <;> simp

@[simp] theorem State.goTo_roster (s : State) (b w pc : Nat) : (State.goTo s b w pc).roster = s.roster := by
  unfold State.goTo
  split <;> simp

@[simp] theorem State.leaveWord_roster (s : State) (b w pc : Nat) (x : Slot) (active : Nat) (due : Option Nat) :
    (State.leaveWord s b w pc x active due).roster = s.roster := by
  unfold State.leaveWord
  (repeat' split) <;> simp [*]

@[simp] theorem State.leaveWait_roster (s : State) (b w pc : Nat) : (State.leaveWait s b w pc).roster = s.roster := by
  unfold State.leaveWait
  split <;> simp [*]

@[simp] theorem State.steps8and9_roster (s : State) (b w : Nat) (c vectors serial : Nat) :
    (State.steps8and9 s b w c vectors serial).roster = s.roster := by
  unfold State.steps8and9
  dsimp only
  (repeat' split) <;> simp [*]

@[simp] theorem State.endWord_roster (s : State) (b : Nat) : (State.endWord s b).roster = s.roster := by
  simp [State.endWord]

@[simp] theorem State.steps5to9_roster (s : State) (b w : Nat) (src vectors serial : Nat) :
    (State.steps5to9 s b w src vectors serial).roster = s.roster := by
  unfold State.steps5to9
  split <;> simp [*]

@[simp] theorem State.machineCheck_roster (s : State) (b pc : Nat) (i failed : Nat) :
    (State.machineCheck s b pc i failed).roster = s.roster := by
  simp [State.machineCheck]

@[simp] theorem State.queueEmptied_roster (s : State) (b : Nat) : (State.queueEmptied s b).roster = s.roster := by
  unfold State.queueEmptied
  split <;> simp

@[simp] theorem State.startClock_roster (s : State) (b : Nat) : (State.startClock s b).roster = s.roster := by
  unfold State.startClock
  split <;> simp [*]

@[simp] theorem State.holdPeriods_roster (s : State) (b n : Nat) : (State.holdPeriods s b n).roster = s.roster := by
  unfold State.holdPeriods
  split <;> simp

@[simp] theorem State.cutHold_roster (s : State) (b : Nat) : (State.cutHold s b).roster = s.roster := by
  unfold State.cutHold
  split <;> simp [*]

@[simp] theorem State.issueCut_roster (s : State) (b : Nat) : (State.issueCut s b).roster = s.roster := by
  unfold State.issueCut
  split <;> simp

@[simp] theorem State.blockOn_roster (s : State) (b cause : Nat) : (State.blockOn s b cause).roster = s.roster := by
  unfold State.blockOn
  (repeat' split) <;> simp [*]

@[simp] theorem State.clearBlock_roster (s : State) (b : Nat) : (State.clearBlock s b).roster = s.roster := by
  unfold State.clearBlock
  split <;> simp

@[simp] theorem State.attach_roster (s : State) (b w active : Nat) (vectors : Bool) :
    (State.attach s b w active vectors).roster = s.roster := by
  simp [State.attach]

@[simp] theorem State.issuePosition_roster (s : State) (b w : Nat) (first : Bool) : (State.issuePosition s b w first).roster
    = s.roster := by
  unfold State.issuePosition
  split <;> simp

@[simp] theorem State.issueHold_roster (s : State) (b w : Nat) : (State.issueHold s b w).roster = s.roster := by
  unfold State.issueHold
  split <;> simp

@[simp] theorem State.issueRest_roster (s : State) (b w v3 : Nat) : (State.issueRest s b w v3).roster = s.roster := by
  induction v3 generalizing s b w with
  | zero => rfl
  | succ k ih =>
    unfold State.issueRest
    split
    · rfl
    · split
      · rfl
      · split
        · rw [ih, State.issuePosition_roster]
        · rfl

@[simp] theorem State.takeSnapshot_roster (s : State) (b : Nat) : (State.takeSnapshot s b).roster = s.roster := by
  unfold State.takeSnapshot
  split <;> simp [*]

@[simp] theorem State.finishBlocks_roster (s : State) (b w : Nat) : (State.finishBlocks s b w).roster = s.roster := by
  unfold State.finishBlocks
  extract_lets s1
  have h1 : s1.roster = s.roster := by
    unfold s1
    split
    · exact State.issueRest_roster ..
    · rfl
  clear_value s1
  split
  · exact h1
  · next g hg =>
    have hb : s1.roster.base b = some g.bgBase := State.base_some hg
    (repeat' split) <;> simp [h1, h1 ▸ hb]

@[simp] theorem State.issueReady_roster (s : State) (b w : Nat) : (State.issueReady s b w).roster = s.roster := by
  unfold State.issueReady
  split <;> simp

@[simp] theorem State.issueWord_roster (s : State) (b i : Nat) (w holds : Nat) : (State.issueWord s b i w holds).roster =
    s.roster := by
  unfold State.issueWord
  split <;> simp

@[simp] theorem State.illegalWord_roster (s : State) (b i pc : Nat) : (State.illegalWord s b i pc).roster = s.roster := by
  simp [State.illegalWord]

theorem State.dueHostTrap_roster (s : State) (b : Nat) (g : Program) : ∀ t, (State.dueHostTrap s b g) = some t → t.roster =
    s.roster := by
  unfold State.dueHostTrap
  split <;> simp

@[simp] theorem State.reachWord_roster (s : State) (b i : Nat) (w holds : Nat) : (State.reachWord s b i w holds).roster =
    s.roster := by
  unfold State.reachWord
  split
  · rfl
  · next g hg =>
    extract_lets illegal ready
    split
    · simp
    · split
      · next t ht =>
        split
        · exact State.dueHostTrap_roster s b g t ht
        · simp
      · (repeat' split) <;> simp

@[simp] theorem State.nextWord_roster (s0 : State) (b : Nat) (cls : Nat → Bool) (holds : Nat) :
    (State.nextWord s0 b cls holds).roster = s0.roster := by
  unfold State.nextWord
  (repeat' split) <;> simp

@[simp] theorem State.failRecord_roster (s : State) (b lane : Nat) (pos start : Nat) (w : IssuedWord) (l : List PinResult)
    (idx : Nat) : (State.failRecord s b lane pos start w l idx).roster = s.roster := by
  simp [State.failRecord]

@[simp] theorem State.captureRecords_roster (s : State) (b pos start : Nat) (w : IssuedWord) (l : List PinResult) (idx : Nat)
    : (State.captureRecords s b pos start w l idx).roster = s.roster := by
  simp [State.captureRecords]

@[simp] theorem doCompareResult_roster (b : Nat) (atE3 : BitVec 256) (steady : BitVec 128) (s : State) :
    (doCompareResult b atE3 steady s).roster = s.roster := by
  unfold doCompareResult
  (repeat' split) <;> simp

@[simp] theorem doConditionWaitEnd_roster (b holds : Nat) (s0 : State) : (doConditionWaitEnd b holds s0).roster = s0.roster
    := by
  unfold doConditionWaitEnd
  dsimp only
  (repeat' split) <;> simp

@[simp] theorem doWaitTimeout_roster (b : Nat) (s : State) : (doWaitTimeout b s).roster = s.roster := by
  unfold doWaitTimeout
  (repeat' split) <;> simp

@[simp] theorem doSyncRelease_roster (b : Nat) (s : State) : (doSyncRelease b s).roster = s.roster := by
  unfold doSyncRelease
  (repeat' split) <;> simp

@[simp] theorem State.firedTrigger_roster (s : State) (b n : Nat) : (State.firedTrigger s b n).roster = s.roster := by
  refine State.modProgram_roster _ _ _ (fun g => ?_)
  split <;> rfl

@[simp] theorem State.firedAnalog_roster (s : State) (b : Nat) : (State.firedAnalog s b).roster = s.roster := by
  simp [State.firedAnalog]

@[simp] theorem doPpmuTrigger_roster (b : Nat) (s : State) : (doPpmuTrigger b s).roster = s.roster := by
  unfold doPpmuTrigger
  split <;> simp

@[simp] theorem State.connectPins_roster (s : State) (l : List Nat) (on : Bool) (cut : List PartialConv) :
    (State.connectPins s l on cut).roster = s.roster := by
  simp [State.connectPins]

@[simp] theorem State.switchPpmus_roster (s : State) (b code : Nat) (on : Bool) (cut : List PartialConv) :
    (State.switchPpmus s b code on cut).roster = s.roster := by
  unfold State.switchPpmus
  split <;> simp

@[simp] theorem doPpmuConnect_roster (b : Nat) (cut : List PartialConv) (s : State) : (doPpmuConnect b cut s).roster =
    s.roster := by
  simp [doPpmuConnect]

@[simp] theorem doPpmuDisconnect_roster (b : Nat) (cut : List PartialConv) (s : State) : (doPpmuDisconnect b cut s).roster =
    s.roster := by
  simp [doPpmuDisconnect]

@[simp] theorem doLevelSet_roster (b k : Nat) (s : State) : (doLevelSet b k s).roster = s.roster := by
  unfold doLevelSet
  split <;> simp

@[simp] theorem State.voidRecords_roster (s : State) (n positions replay : Nat) :
    (State.voidRecords s n positions replay).roster = s.roster := by
  simp [State.voidRecords]

@[simp] theorem State.replay_roster (s : State) (b : Nat) : (State.replay s b).roster = s.roster := by
  unfold State.replay
  (repeat' split) <;> simp [*]

@[simp] theorem State.emptied_roster (s : State) (b : Nat) (g : Program) : (State.emptied s b g).roster = s.roster := by
  simp [State.emptied]

@[simp] theorem State.enterSafeWait_roster (s : State) (b : Nat) (g : Program) (hg : s.roster.base b = some g.bgBase) :
    (State.enterSafeWait s b g).roster = s.roster := by
  simp only [State.enterSafeWait, State.showExec_roster]
  refine (State.setProgram_roster ?_).trans ?_
  · split <;> simpa using hg
  · split <;> simp

@[simp] theorem State.enterUnsafeStall_roster (s : State) (b : Nat) (g : Program) : (State.enterUnsafeStall s b g).roster =
    s.roster := by
  simp [State.enterUnsafeStall]

@[simp] theorem State.emptyQueue_roster (s : State) (b : Nat) (safe : Bool) : (State.emptyQueue s b safe).roster = s.roster
    := by
  unfold State.emptyQueue
  split
  · rfl
  · next g hg =>
    split
    · rfl
    · extract_lets t h
      have ht : t.roster = s.roster := State.emptied_roster ..
      have hh : s.roster.base b = some h.bgBase := by
        obtain ⟨h', hp, hb⟩ := State.program_of_base ((congrArg (Roster.base · b) ht).trans (State.base_some hg))
        simp [h, hp, hb, hg]
      clear_value h t
      (repeat' split) <;> simp [ht, hh]

@[simp] theorem doSafeWait_roster (b : Nat) (s : State) : (doSafeWait b s).roster = s.roster := by
  simp [doSafeWait]

@[simp] theorem doUnsafeStall_roster (b : Nat) (s : State) : (doUnsafeStall b s).roster = s.roster := by
  simp [doUnsafeStall]

@[simp] theorem State.readSafeBit_roster (s : State) (b : Nat) : (State.readSafeBit s b).roster = s.roster := by
  unfold State.readSafeBit
  (repeat' split) <;> simp [*]

@[simp] theorem doCsDemandFill_roster (b : Nat) (s : State) : (doCsDemandFill b s).roster = s.roster := by
  unfold doCsDemandFill
  split
  · rfl
  · next g hg =>
    have hread (pg : Nat) := State.readPage_roster s b g.image g.header.codeOffset pg false
    split
    · rfl
    · split
      · split <;> next heq => simp [State.roster_of_eq (hread _) heq]
      · dsimp only
        split
        · rfl
        · split <;> next heq => simp [State.roster_of_eq (hread _) heq]

@[simp] theorem doTrapFrameWrite_roster (b : Nat) (s : State) : (doTrapFrameWrite b s).roster = s.roster := by
  unfold doTrapFrameWrite
  split
  · rfl
  · next g hg =>
    split
    · rfl
    · next f rest hf =>
      have hw := State.memWrite_roster s { engine := 8, unit := b } g.frameAddr f.frame false
      split
      · next heq => exact State.roster_of_eq hw heq
      · next heq =>
        have h1 := State.roster_of_eq hw heq
        dsimp only
        split <;> simp [h1]
      · next heq =>
        have h1 := State.roster_of_eq hw heq
        dsimp only
        split <;> simp [h1]

@[simp] theorem doPreemptFrameWrite_roster (b : Nat) (s : State) : (doPreemptFrameWrite b s).roster = s.roster := by
  unfold doPreemptFrameWrite
  split
  · rfl
  · next g hg =>
    have hw := State.memWrite_roster s { engine := 8, unit := b } g.frameAddr (s.preemptFrame b g) false
    split
    · rfl
    · split
      · next heq => exact State.roster_of_eq hw heq
      · next heq => simp [State.roster_of_eq hw heq]
      · next heq =>
        have h1 := State.roster_of_eq hw heq
        dsimp only
        split <;> simp [h1]

@[simp] theorem State.limitFrame_roster (s : State) (b : Nat) (g : Program) : (State.limitFrame s b g).roster = s.roster :=
    by
  have hw := State.memWrite_roster s { engine := 8, unit := b } g.frameAddr (s.preemptFrame b g) false
  unfold State.limitFrame
  dsimp only
  split <;> next heq => simp [State.roster_of_eq hw heq]

@[simp] theorem doProgramTimeLimit_roster (b : Nat) (s : State) : (doProgramTimeLimit b s).roster = s.roster := by
  unfold doProgramTimeLimit
  split <;> simp

@[simp] theorem doPreemptTimeLimit_roster (b k : Nat) (s : State) : (doPreemptTimeLimit b k s).roster = s.roster := by
  unfold doPreemptTimeLimit
  (repeat' split) <;> simp [*]

@[simp] theorem doProgramPreempt_roster (c : Cmd) (s : State) : (doProgramPreempt c s).roster = s.roster := by
  unfold doProgramPreempt
  refine State.checked_roster _ _ _ _ (fun u => ?_)
  split
  · simp
  · next g hg => simp [State.program_of_running hg]

@[simp] theorem State.hostTrap_roster (s : State) (b : Nat) (c : Cmd) : (State.hostTrap s b c).roster = s.roster := by
  unfold State.hostTrap
  split <;> simp [*]

@[simp] theorem doTrapRequest_roster (c : Cmd) (s : State) : (doTrapRequest c s).roster = s.roster := by
  unfold doTrapRequest
  refine State.checked_roster _ _ _ _ (fun u => ?_)
  split <;> simp

@[simp] theorem fillResident_roster (b v1 : Nat) (s : State) : (fillResident b v1 s).roster = s.roster := by
  induction v1 generalizing s with
  | zero => rfl
  | succ fuel ih =>
    simp only [fillResident]
    split
    · rfl
    · next g hg =>
      split
      · rfl
      · next pg rest hd =>
        have hread := State.readPage_roster s b g.image g.header.codeOffset pg false
        split <;> next heq => simp [ih, State.roster_of_eq hread heq]

@[simp] theorem State.dpsDeliver_roster (s : State) (l quantity : Nat) (m : DpsMeas) (test status n : Nat) (value : Int)
    (flags : Nat) : (State.dpsDeliver s l quantity m test status n value flags).roster = s.roster := by
  unfold State.dpsDeliver
  (repeat' split) <;> simp

@[simp] theorem State.dpsFinish_roster (s : State) (l : Nat) (m : DpsMeas) (status n : Nat) (v i : Int) (flagsV flagsI : Nat)
    : (State.dpsFinish s l m status n v i flagsV flagsI).roster = s.roster := by
  unfold State.dpsFinish
  (repeat' split) <;> simp

@[simp] theorem State.dpsCut_roster (s : State) (l status : Nat) : (State.dpsCut s l status).roster = s.roster := by
  unfold State.dpsCut
  split <;> simp

@[simp] theorem State.dpsBegin_roster (s : State) (l : Nat) (m : DpsMeas) : (State.dpsBegin s l m).roster = s.roster := by
  simp [State.dpsBegin]

@[simp] theorem doDpsReading_roster (l : Nat) (s : State) : (doDpsReading l s).roster = s.roster := by
  unfold doDpsReading
  split <;> simp

@[simp] theorem doDpsReadTrigger_roster (b : Nat) (s : State) : (doDpsReadTrigger b s).roster = s.roster := by
  unfold doDpsReadTrigger
  split <;> simp

@[simp] theorem State.dpsSwitch_roster (s : State) (b code : Nat) (f : State → Nat → State)
    (hf : ∀ x0 x1, (f x0 x1).roster = State.roster x0) : (State.dpsSwitch s b code f).roster = s.roster := by
  unfold State.dpsSwitch
  split <;> simp [hf]

@[simp] theorem doDpsOn_roster (b : Nat) (s : State) : (doDpsOn b s).roster = s.roster := by
  simp [doDpsOn]

@[simp] theorem doDpsOff_roster (b : Nat) (s : State) : (doDpsOff b s).roster = s.roster := by
  simp [doDpsOff]

@[simp] theorem doDpsRunMeasure_roster (c : Cmd) (s : State) : (doDpsRunMeasure c s).roster = s.roster := by
  simp [doDpsRunMeasure]

@[simp] theorem doContactCheck_roster (c : Cmd) (s : State) : (doContactCheck c s).roster = s.roster := by
  unfold doContactCheck
  refine State.checked_roster _ _ _ _ (fun u => ?_)
  dsimp only
  split
  · simp
  · split
    · simp
    · split
      · simp
      · refine (State.roster_foldl _ (fun _ _ => State.modPin_roster ..) _ _).trans ?_
        exact State.groups_put_roster rfl rfl rfl

@[simp] theorem State.contactRecord_roster (s : State) (p : Nat) (m : PinMeas) (status conversions : Nat) (value : Int)
    (flags start : Nat) (outside : Bool) : (State.contactRecord s p m status conversions value flags start outside).roster =
    s.roster := by
  simp [State.contactRecord]

@[simp] theorem doContactCheckEnd_roster (b start : Nat) (l : List (BitVec 18 × Bool)) (s : State) :
    (doContactCheckEnd b start l s).roster = s.roster := by
  unfold doContactCheckEnd
  split
  · rfl
  · extract_lets pins hit judged failed s1 g s2 s3
    split
    · rfl
    · have h1 : s1.roster = s.roster := by
        refine State.roster_foldl _ (fun u p => ?_) _ _
        split
        · rfl
        · simp only [State.contactRecord_roster, State.roster_ite, State.setFlag_roster, ite_self]
      have h2 : s2.roster = s.roster := by
        clear_value s1
        simp only [s2, State.setFld_roster]
        refine (State.groups_put_roster (b := b) (g := { g with contact := none }) ?_ ?_ ?_).trans h1 <;> rfl
      clear_value s2
      simp only [s3, State.complete_roster, State.roster_foldl, State.assertCause_roster, implies_true, h2]

@[simp] theorem doPpmuMeasure_roster (c : Cmd) (s : State) : (doPpmuMeasure c s).roster = s.roster := by
  simp [doPpmuMeasure]

@[simp] theorem State.tmuSend_roster (s : State) (n : Nat) (m : TmuArm) (v : TmuValue) (bits events : Nat)
    (index cellTime : Nat) : (State.tmuSend s n m v bits events index cellTime).roster = s.roster := by
  unfold State.tmuSend
  (repeat' split) <;> simp

@[simp] theorem State.forgetReading_roster (s : State) (b serial : Nat) : (State.forgetReading s b serial).roster = s.roster
    := by
  simp [State.forgetReading]

@[simp] theorem State.tmuOver_roster (s : State) (n : Nat) (m : TmuArm) (status : Nat) (fine : Int) (events bits : Nat) :
    (State.tmuOver s n m status fine events bits).roster = s.roster := by
  unfold State.tmuOver
  split <;> simp

@[simp] theorem State.tmuAbort_roster (s : State) (n status : Nat) : (State.tmuAbort s n status).roster = s.roster := by
  unfold State.tmuAbort
  dsimp only
  (repeat' split) <;> simp

@[simp] theorem State.tmuDrop_roster (s : State) (n : Nat) : (State.tmuDrop s n).roster = s.roster := by
  unfold State.tmuDrop
  (repeat' split) <;> simp

@[simp] theorem State.tmuDropSince_roster (s : State) (b serial : Nat) : (State.tmuDropSince s b serial).roster = s.roster :=
    by
  unfold State.tmuDropSince
  exact State.roster_foldl _ (fun _ _ => by split <;> simp) _ _

@[simp] theorem State.tmuCloseSite_roster (s : State) (b position : Nat) : (State.tmuCloseSite s b position).roster =
    s.roster := by
  unfold State.tmuCloseSite
  exact State.roster_foldl _ (fun _ _ => by split <;> simp) _ _

@[simp] theorem State.tmuArm_roster (s : State) (n : Nat) (m : TmuArm) : (State.tmuArm s n m).roster = s.roster := by
  unfold State.tmuArm
  (repeat' split) <;> simp

@[simp] theorem doTmuTrigger_roster (b : Nat) (s : State) : (doTmuTrigger b s).roster = s.roster := by
  unfold doTmuTrigger
  split <;> simp

@[simp] theorem doTmuArm_roster (c : Cmd) (s : State) : (doTmuArm c s).roster = s.roster := by
  simp [doTmuArm]

@[simp] theorem State.tmuTrain_roster (s : State) (n : Nat) (m : TmuArm) : (State.tmuTrain s n m).roster = s.roster := by
  unfold State.tmuTrain
  dsimp only
  (repeat' split) <;> simp

@[simp] theorem doTmuResult_roster (n : Nat) (s : State) : (doTmuResult n s).roster = s.roster := by
  unfold doTmuResult
  dsimp only
  (repeat' split) <;> simp

@[simp] theorem State.awgGap_roster (s : State) (c cause : Nat) (status first len : Nat) :
    (State.awgGap s c cause status first len).roster = s.roster := by
  simp [State.awgGap]

@[simp] theorem State.awgPass_roster (s : State) (c k : Nat) : (State.awgPass s c k).roster = s.roster := by
  simp [State.awgPass]

@[simp] theorem State.awgCloseGap_roster (s : State) (c : Nat) (cut : Bool) : (State.awgCloseGap s c cut).roster = s.roster
    := by
  unfold State.awgCloseGap
  dsimp only
  (repeat' split) <;> simp

@[simp] theorem State.awgStop_roster (s : State) (c : Nat) (cut : Bool) : (State.awgStop s c cut).roster = s.roster := by
  unfold State.awgStop
  extract_lets a reqs s1
  have h1 : s1.roster = s.roster :=
    (State.roster_foldl _ (fun _ _ => State.awgAnswer_roster _ _ _ _ _) _ _).trans (State.awgCloseGap_roster _ _ _)
  clear_value s1
  simp [h1]

@[simp] theorem State.awgHalt_roster (s : State) (c : Nat) (cut : Bool) : (State.awgHalt s c cut).roster = s.roster := by
  unfold State.awgHalt
  split <;> simp

@[simp] theorem State.awgReset_roster (s : State) (c : Nat) : (State.awgReset s c).roster = s.roster := by
  simp [State.awgReset]

@[simp] theorem State.awgProgramEnd_roster (s : State) (b : Nat) : (State.awgProgramEnd s b).roster = s.roster := by
  simp [State.awgProgramEnd]

@[simp] theorem State.awgMalformed_roster (s : State) (c : Nat) : (State.awgMalformed s c).roster = s.roster := by
  simp [State.awgMalformed]

@[simp] theorem State.awgFault_roster (s : State) (c status : Nat) : (State.awgFault s c status).roster = s.roster := by
  simp [State.awgFault]

@[simp] theorem State.awgPlay_roster (s : State) (c n play : Nat) (p : AwgPlay) : (State.awgPlay s c n play p).roster =
    s.roster := by
  simp [State.awgPlay]

@[simp] theorem doAwgBoundary_roster (c : Nat) (s : State) : (doAwgBoundary c s).roster = s.roster := by
  unfold doAwgBoundary
  dsimp only
  (repeat' split) <;> simp

@[simp] theorem State.awgNs_roster (s : State) (c : Nat) : (State.awgNs s c).roster = s.roster := by
  simp [State.awgNs]

@[simp] theorem State.awgsNs_roster (s : State) : (State.awgsNs s).roster = s.roster := by
  simp [State.awgsNs]

@[simp] theorem State.awgControl_roster (s : State) (b code : Nat) (f : State → Nat → Nat → State)
    (hf : ∀ x0 x1 x2, (f x0 x1 x2).roster = State.roster x0) : (State.awgControl s b code f).roster = s.roster := by
  unfold State.awgControl
  split <;> simp [hf]

@[simp] theorem doAwgStart_roster (b : Nat) (s : State) : (doAwgStart b s).roster = s.roster := by
  simp [doAwgStart]

@[simp] theorem doAwgStop_roster (b : Nat) (s : State) : (doAwgStop b s).roster = s.roster := by
  simp [doAwgStop]

@[simp] theorem doAwgJump_roster (b : Nat) (s : State) : (doAwgJump b s).roster = s.roster := by
  simp [doAwgJump]

@[simp] theorem State.awgResume_roster (s : State) (c : Nat) : (State.awgResume s c).roster = s.roster := by
  simp [State.awgResume]

@[simp] theorem State.awgFetchEntry_roster (s : State) (c : Nat) (w : AwgPart) (x : Nat × Nat) :
    (State.awgFetchEntry s c w x).roster = s.roster := by
  unfold State.awgFetchEntry
  dsimp only
  (repeat' split) <;> simp

@[simp] theorem State.awgFetchBlock_roster (s : State) (c k : Nat) (w : AwgPart) (x : Nat × Nat) :
    (State.awgFetchBlock s c k w x).roster = s.roster := by
  unfold State.awgFetchBlock
  dsimp only
  (repeat' split) <;> simp

@[simp] theorem doAwgFetchDone_roster (c : Nat) (what : AwgFetch) (s : State) : (doAwgFetchDone c what s).roster = s.roster
    := by
  unfold doAwgFetchDone
  dsimp only
  (repeat' split) <;> simp

@[simp] theorem doAwgUnderrun_roster (c : Nat) (s : State) : (doAwgUnderrun c s).roster = s.roster := by
  simp [doAwgUnderrun]

@[simp] theorem doAwgRunStop_roster (c : Cmd) (s : State) : (doAwgRunStop c s).roster = s.roster := by
  simp [doAwgRunStop]

@[simp] theorem State.acqRecord_roster (s : State) (c : Nat) (m : DgArm) (r typ : Nat) (status cellTime : Nat)
    (suspect : Bool) (body : List Byte) : (State.acqRecord s c m r typ status cellTime suspect body).roster = s.roster := by
  simp [State.acqRecord]

@[simp] theorem State.dgCloseExtent_roster (s : State) (c : Nat) (m : DgArm) (status : Nat) :
    (State.dgCloseExtent s c m status).roster = s.roster := by
  unfold State.dgCloseExtent
  dsimp only
  (repeat' split) <;> simp

@[simp] theorem State.dgGapRecord_roster (s : State) (c : Nat) (m : DgArm) (start r : Nat) (cause status : Nat)
    (first len flags : Nat) : (State.dgGapRecord s c m start r cause status first len flags).roster = s.roster := by
  simp [State.dgGapRecord]

@[simp] theorem State.dgCloseGap_roster (s : State) (c : Nat) (m : DgArm) : (State.dgCloseGap s c m).roster = s.roster := by
  unfold State.dgCloseGap
  split <;> simp

@[simp] theorem State.dgDeliver_roster (s : State) (c : Nat) (m : DgArm) (r status : Nat) (value : Int)
    (flags cellTime : Nat) (feeds : Bool) : (State.dgDeliver s c m r status value flags cellTime feeds).roster = s.roster :=
    by
  unfold State.dgDeliver
  (repeat' split) <;> simp

@[simp] theorem State.dgOver_roster (s : State) (c : Nat) (m : DgArm) (override : Option Nat) :
    (State.dgOver s c m override).roster = s.roster := by
  unfold State.dgOver
  (repeat' split) <;> simp

@[simp] theorem dgLoseQueue_roster (v0 v1 v2 : Nat) (s : State) : (dgLoseQueue v0 v1 v2 s).roster = s.roster := by
  induction v0 generalizing v1 v2 s with
  | zero => rfl
  | succ fuel ih =>
    simp only [dgLoseQueue]
    split
    · rfl
    · simp [ih]

@[simp] theorem State.dgFault_roster (s : State) (c status : Nat) : (State.dgFault s c status).roster = s.roster := by
  unfold State.dgFault
  dsimp only
  (repeat' split) <;> simp

@[simp] theorem dgDrainWords_roster (v0 v1 : Nat) (s : State) : (dgDrainWords v0 v1 s).roster = s.roster := by
  induction v0 generalizing v1 s with
  | zero => rfl
  | succ fuel ih =>
    simp only [dgDrainWords]
    split
    · rfl
    · split
      · simp [ih]
      · split
        · rfl
        · split <;> simp [ih]

@[simp] theorem State.dgDrain_roster (s : State) (c : Nat) : (State.dgDrain s c).roster = s.roster := by
  simp [State.dgDrain]

@[simp] theorem State.dgStore_roster (s : State) (c : Nat) (m : DgArm) (iv : DgInterval) : (State.dgStore s c m iv).roster =
    s.roster := by
  simp [State.dgStore]

@[simp] theorem State.dgTake_roster (s : State) (c : Nat) (m : DgArm) (iv : DgInterval) : (State.dgTake s c m iv).roster =
    s.roster := by
  simp [State.dgTake]

@[simp] theorem State.dgCloseRecord_roster (s : State) (c : Nat) (m : DgArm) (acc : DgAcc) :
    (State.dgCloseRecord s c m acc).roster = s.roster := by
  simp [State.dgCloseRecord]

@[simp] theorem doTriggerFire_roster (c : Nat) (s : State) : (doTriggerFire c s).roster = s.roster := by
  unfold doTriggerFire
  dsimp only
  (repeat' split) <;> simp

@[simp] theorem doPostCaptureEnd_roster (c : Nat) (s : State) : (doPostCaptureEnd c s).roster = s.roster := by
  unfold doPostCaptureEnd
  dsimp only
  (repeat' split) <;> simp

@[simp] theorem State.dgEnd_roster (s : State) (c : Nat) : (State.dgEnd s c).roster = s.roster := by
  unfold State.dgEnd
  dsimp only
  (repeat' split) <;> simp

@[simp] theorem doRearmEnd_roster (c : Nat) (s : State) : (doRearmEnd c s).roster = s.roster := by
  simp [doRearmEnd]

@[simp] theorem State.dgCatchUp_roster (s : State) (c : Nat) : (State.dgCatchUp s c).roster = s.roster := by
  simp [State.dgCatchUp]

@[simp] theorem State.dgEvaluate_roster (s : State) (c : Nat) (code : Int) : (State.dgEvaluate s c code).roster = s.roster :=
    by
  unfold State.dgEvaluate
  dsimp only
  (repeat' split) <;> simp

@[simp] theorem doDgSample_roster (g : Nat) (codes : List Int) (s : State) : (doDgSample g codes s).roster = s.roster := by
  simp [doDgSample]

@[simp] theorem doAcqTimeout_roster (c : Nat) (s : State) : (doAcqTimeout c s).roster = s.roster := by
  simp [doAcqTimeout]

@[simp] theorem State.dgAbort_roster (s : State) (c status : Nat) : (State.dgAbort s c status).roster = s.roster := by
  unfold State.dgAbort
  split <;> simp

@[simp] theorem State.dgDrop_roster (s : State) (c : Nat) : (State.dgDrop s c).roster = s.roster := by
  unfold State.dgDrop
  split <;> simp

@[simp] theorem State.dgDropSince_roster (s : State) (b serial : Nat) : (State.dgDropSince s b serial).roster = s.roster :=
    by
  unfold State.dgDropSince
  exact State.roster_foldl _ (fun _ _ => by split <;> simp) _ _

@[simp] theorem State.dgCloseSite_roster (s : State) (b position : Nat) : (State.dgCloseSite s b position).roster = s.roster
    := by
  unfold State.dgCloseSite
  exact State.roster_foldl _ (fun _ _ => by split <;> simp) _ _

@[simp] theorem State.dgArm_roster (s : State) (c : Nat) (m : DgArm) : (State.dgArm s c m).roster = s.roster := by
  unfold State.dgArm
  (repeat' split) <;> simp

@[simp] theorem doDigitizerTrigger_roster (b : Nat) (s : State) : (doDigitizerTrigger b s).roster = s.roster := by
  unfold doDigitizerTrigger
  split <;> simp

@[simp] theorem doAcqArm_roster (c : Cmd) (s : State) : (doAcqArm c s).roster = s.roster := by
  simp [doAcqArm]

@[simp] theorem doAcqStop_roster (c : Cmd) (s : State) : (doAcqStop c s).roster = s.roster := by
  simp [doAcqStop]

@[simp] theorem doAcqRelease_roster (c : Cmd) (s : State) : (doAcqRelease c s).roster = s.roster := by
  simp [doAcqRelease]

@[simp] theorem State.askHold_roster (s : State) (c : Nat) (want : Bool) : (State.askHold s c want).roster = s.roster := by
  simp [State.askHold]

@[simp] theorem State.endCalRun_roster (s : State) (r : CalRun) (st : Nat) : (State.endCalRun s r st).roster = s.roster := by
  simp [State.endCalRun]

@[simp] theorem State.goCalRun_roster (v0 : Nat) (v1 : CalRun) (s : State) : (State.goCalRun v0 v1 s).roster = s.roster := by
  induction v0 generalizing v1 s with
  | zero => rfl
  | succ fuel ih =>
    simp only [State.goCalRun]
    split
    · simp
    · split
      · simp only [ih, State.markLevel2_roster, State.roster_update]
      · split
        · simp only [ih, State.roster_update, State.calKind_roster, State.roster_ite, State.markLevel2_roster, ite_self]
        · simp

@[simp] theorem State.goCals_roster (s : State) : (State.goCals s).roster = s.roster := by
  simp [State.goCals]

@[simp] theorem State.beginCalRun_roster (s : State) (r : CalRun) : (State.beginCalRun s r).roster = s.roster := by
  simp [State.beginCalRun]

@[simp] theorem doCalRun_roster (c : Cmd) (s : State) : (doCalRun c s).roster = s.roster := by
  simp [doCalRun]

@[simp] theorem doCalRunTimeLimit_roster (c : Nat) (s : State) : (doCalRunTimeLimit c s).roster = s.roster := by
  unfold doCalRunTimeLimit
  split <;> simp

@[simp] theorem State.abortCal_roster (s : State) (c st : Nat) : (State.abortCal s c st).roster = s.roster := by
  simp [State.abortCal]

@[simp] theorem doCalLoad_roster (c : Cmd) (s : State) : (doCalLoad c s).roster = s.roster := by
  unfold doCalLoad
  refine State.checked_roster _ _ _ _ (fun u => State.withReadOr_roster _ _ _ _ _ _ _ _ (fun _ => rfl) (fun d u => ?_))
  split
  · dsimp only
    split <;> simp
  · simp

@[simp] theorem State.leaveElastic_roster (s : State) (n k : Nat) : (State.leaveElastic s n k).roster = s.roster := by
  simp [State.leaveElastic]

@[simp] theorem State.discardEntered_roster (s : State) (n : Nat) (r : Rec) (st : Nat) :
    (State.discardEntered s n r st).roster = s.roster := by
  simp [State.discardEntered]

@[simp] theorem doRecordCommit_roster (n : Nat) (s0 : State) : (doRecordCommit n s0).roster = s0.roster := by
  unfold doRecordCommit
  extract_lets t
  have ht : t.roster = s0.roster := State.roster_foldl _ (fun _ _ => State.zeroStart_roster ..) _ _
  clear_value t
  split
  · rfl
  · split
    · exact ht
    · next r hr =>
      extract_lets q pad padded
      split
      · simp [ht]
      · split
        · simp [ht]
        · have hp : padded.2.roster = s0.roster := by
            unfold padded
            split
            · exact ht
            · exact (State.commitRecord_roster ..).trans ht
          clear_value padded
          split
          · exact hp
          · simpa using hp
          · next u =>
            dsimp only
            have hc := (State.commitRecord_roster u n r (u.fld (Reg.Q_COMMIT n q))).trans hp
            split <;> next heq => simp [State.roster_of_eq hc heq]

@[simp] theorem doReamReset_roster (c : Cmd) (s : State) : (doReamReset c s).roster = s.roster := by
  simp [doReamReset]

@[simp] theorem State.ringAdvance_roster (s : State) (x : DmaSource) (p : Nat) : (State.ringAdvance s x p).roster = s.roster
    := by
  unfold State.ringAdvance
  split <;> simp

@[simp] theorem State.chunkDone_roster (s : State) (e : Nat) (t : Transfer) (n : Nat) : (State.chunkDone s e t n).roster =
    s.roster := by
  simp [State.chunkDone]

@[simp] theorem State.runChunk_roster (s : State) (e : Nat) (t : Transfer) : (State.runChunk s e t).roster = s.roster := by
  unfold State.runChunk
  extract_lets n x segs
  have hr := State.chunkRead_roster s x t t.done n
  split
  · next heq => simp [State.roster_of_eq hr heq]
  · next heq => simp [State.roster_of_eq hr heq]
  · next data poison s1 heq =>
    have h1 := State.roster_of_eq hr heq
    extract_lets u s2
    have h2 : s2.roster = s.roster := by
      unfold s2
      split <;> simp [h1]
    clear_value s2
    split
    · split
      · simp [h2]
      · have hw := (State.chunkWrite_roster s2 x t t.done data true).trans h2
        split <;> next heq => simp [State.roster_of_eq hw heq]
    · have hw := (State.chunkWrite_roster s2 x t t.done data false).trans h2
      split <;> next heq => simp [State.roster_of_eq hw heq]

@[simp] theorem doDmaChunk_roster (e begun : Nat) (landed : List Nat) (s : State) : (doDmaChunk e begun landed s).roster =
    s.roster := by
  unfold doDmaChunk
  split <;> simp

@[simp] theorem doReamResetDma_roster (c : Cmd) (s : State) : (doReamResetDma c s).roster = s.roster := by
  simp [doReamResetDma]

@[simp] theorem State.bindPrograms_roster (s : State) : (State.bindPrograms s).roster = s.roster := by
  unfold State.bindPrograms
  dsimp only
  (repeat' split) <;> simp

@[simp] theorem doIdleEntryEnd_roster (s : State) : (doIdleEntryEnd s).roster = s.roster := by
  simp [doIdleEntryEnd]

@[simp] theorem State.closePin_roster (s : State) (x : SitePos) (cut : List PartialConv) (p : Nat) :
    (State.closePin s x cut p).roster = s.roster := by
  unfold State.closePin
  (repeat' split) <;> simp

@[simp] theorem State.untest_roster (s : State) (b p : Nat) : (State.untest s b p).roster = s.roster := by
  unfold State.untest
  dsimp only
  split
  · rfl
  · split
    · exact State.groups_put_roster rfl rfl rfl
    · rfl

@[simp] theorem State.siteDropped_roster (s : State) (b p : Nat) : (State.siteDropped s b p).roster = s.roster := by
  unfold State.siteDropped
  split <;> simp [*]

@[simp] theorem State.deckleRecord_roster (s : State) (b site : Nat) (cause time last : Nat) :
    (State.deckleRecord s b site cause time last).roster = s.roster := by
  simp [State.deckleRecord]

@[simp] theorem doDeckleClosure_roster (b p : Nat) (cut : List PartialConv) (s : State) : (doDeckleClosure b p cut s).roster
    = s.roster := by
  unfold doDeckleClosure
  split <;> simp

@[simp] theorem State.stopProgramsOf_roster (s : State) (u : Nat) : (State.stopProgramsOf s u).roster = s.roster := by
  unfold State.stopProgramsOf
  refine State.roster_foldl _ (fun u b => ?_) _ _
  split
  · split
    · exact State.cutGroup_roster ..
    · exact State.stopAllSites_roster ..
  · rfl

@[simp] theorem State.contactCut_roster (s : State) (b st : Nat) : (State.contactCut s b st).roster = s.roster := by
  unfold State.contactCut
  extract_lets g
  split
  · rfl
  · refine State.contactEnded_roster (State.roster_foldl _ (fun u p => ?_) _ _)
    split
    · split
      · split
        · exact (State.contactRecord_roster ..).trans (State.modPin_roster ..)
        · rfl
      · rfl
    · rfl

@[simp] theorem State.clusterStop_roster (s : State) (c : Nat) : (State.clusterStop s c).roster = s.roster := by
  simp [State.clusterStop]

@[simp] theorem State.seqCut_roster (s : State) (n : Nat) : (State.seqCut s n).roster = s.roster := by
  simp [State.seqCut]

@[simp] theorem State.popCut_roster (s : State) : (State.popCut s).roster = s.roster := by
  simp [State.popCut]

@[simp] theorem State.cutUnit_roster (s : State) (u : Nat) (dps : Bool) : (State.cutUnit s u dps).roster = s.roster := by
  simp [State.cutUnit]

@[simp] theorem State.dropUnit_roster (s : State) (u : Nat) : (State.dropUnit s u).roster = s.roster := by
  simp [State.dropUnit]

@[simp] theorem doUnitReset_roster (c : Cmd) (s : State) : (doUnitReset c s).roster = s.roster := by
  simp [doUnitReset]

@[simp] theorem doUnitPowerDown_roster (c : Cmd) (s : State) : (doUnitPowerDown c s).roster = s.roster := by
  simp [doUnitPowerDown]

@[simp] theorem doUnitRetire_roster (c : Cmd) (s : State) : (doUnitRetire c s).roster = s.roster := by
  simp [doUnitRetire]

@[simp] theorem State.thermalShutdown_roster (s : State) : (State.thermalShutdown s).roster = s.roster := by
  unfold State.thermalShutdown
  split
  · rfl
  · simp only [State.requestStore_roster, State.showPorts_roster, State.setFlag_roster, State.roster_foldl, State.complete_roster,
      State.roster_update, State.modPin_roster, State.cutUnit_roster, State.raise_roster, State.modUsage_roster, State.roster_ite,
      State.dpsOffReq_roster, State.haltGroup_roster, State.setFld_roster, ite_self, implies_true]

@[simp] theorem doThermalSample_roster (temps : List (BitVec 16)) (s : State) : (doThermalSample temps s).roster = s.roster
    := by
  simp [doThermalSample]

@[simp] theorem preempted_roster (b : Nat) (s : State) : (preempted b s).roster = s.roster := by
  simp [preempted]

@[simp] theorem programLimited_roster (b : Nat) (s : State) : (programLimited b s).roster = s.roster := by
  simp [programLimited]

@[simp] theorem mayReplay_roster (b : Nat) (k : State → State) (s : State) (hk : ∀ x0, (k x0).roster = State.roster x0) :
    (mayReplay b k s).roster = s.roster := by
  unfold mayReplay
  dsimp only
  (repeat' split) <;> simp [hk]

@[simp] theorem doCalFreeze_roster (b : Nat) (s : State) : (doCalFreeze b s).roster = s.roster := by
  unfold doCalFreeze
  split <;> simp

@[simp] theorem doCalThaw_roster (b : Nat) (s : State) : (doCalThaw b s).roster = s.roster := by
  unfold doCalThaw
  split <;> simp

end Sys2Proof.Machine
end

section
/-! SUPPORT. The captured groups lie among the 64 sequencers, and BG_BASE is a byte (R35, R36, R39, R128): what captures a
  group, starts a
program or ends one, and every step. -/

namespace Sys2Proof.Machine

open Sys2Proof

/-! ### What the captured groups and the programs keep -/

theorem State.fits_of_roster {s t : State} (h : t.roster = s.roster) (hs : s.fits) : t.fits := by
  have hsize : ∀ b, (t.group b).size = (s.group b).size := congrFun (congrArg Roster.size h)
  have hbase : ∀ b, (t.program b).map Program.bgBase = (s.program b).map Program.bgBase := congrFun (congrArg Roster.base h)
  intro b hb
  obtain ⟨h1, h8, h64, hprog⟩ := hs b hb
  rw [hsize b]
  refine ⟨h1, h8, h64, fun g hg => ?_⟩
  have := hbase b
  rw [hg] at this
  obtain ⟨g', hg', hbg⟩ := Option.map_eq_some_iff.mp this.symm
  rw [← hbg]
  exact hprog g' hg'

theorem State.fits_foldl {α : Type} (f : State → α → State) (h : ∀ s a, s.fits → (f s a).fits) (l : List α) {s : State}
    (hs : s.fits) : (l.foldl f s).fits := by
  induction l generalizing s with
  | nil => exact hs
  | cons a l ih => exact ih (h s a hs)

theorem State.fits_ite {c : Prop} [Decidable c] {s t : State} (hs : s.fits) (ht : t.fits) : (if c then s else t).fits := by
  split
  · exact hs
  · exact ht

theorem State.setProgram_fits {s : State} (hs : s.fits) (b : Nat) {g : Program} (hg : g.bgBase ≤ 255) : (s.setProgram b
    g).fits := by
  intro x hx
  obtain ⟨h1, h8, h64, hprog⟩ := hs x hx
  refine ⟨h1, h8, h64, fun h hh => ?_⟩
  by_cases hxb : x = b
  · subst hxb
    rw [State.program_setProgram_self] at hh
    cases hh
    exact hg
  · rw [State.program_setProgram_other _ _ hxb] at hh
    exact hprog h hh

theorem State.delProgram_fits {s : State} (hs : s.fits) (b : Nat) : State.fits { s with programs := SMap.del s.programs b } := by
  intro x hx
  obtain ⟨h1, h8, h64, hprog⟩ := hs x hx
  refine ⟨h1, h8, h64, fun h hh => ?_⟩
  by_cases hxb : x = b
  · subst hxb
    simp [State.program, SMap.find_del_self] at hh
  · exact hprog h ((SMap.find_del_other _ hxb).symm.trans hh)

theorem State.delGroup_fits {s : State} (hs : s.fits) (b : Nat) : State.fits { s with groups := SMap.del s.groups b } := by
  intro x hx
  obtain ⟨h1, h8, h64, hprog⟩ := hs x hx
  suffices h : (State.group { s with groups := SMap.del s.groups b } x).size = if x = b then 1 else (s.group x).size by
    rw [h]
    split
    · exact ⟨by omega, by omega, by omega, hprog⟩
    · exact ⟨h1, h8, h64, hprog⟩
  unfold State.group SMap.get
  split
  · next hxb => rw [hxb, SMap.find_del_self]; rfl
  · next hxb => rw [SMap.find_del_other _ hxb]

theorem State.putGroup_fits {s : State} (hs : s.fits) {b : Nat} {g : Group} (h1 : 1 ≤ g.size) (h8 : g.size ≤ 8) (h64 : b +
    g.size ≤ 64) :
    State.fits { s with groups := SMap.put s.groups b g } := by
  intro x hx
  obtain ⟨i1, i8, i64, hprog⟩ := hs x hx
  suffices h : (State.group { s with groups := SMap.put s.groups b g } x).size = if x = b then g.size else (s.group x).size by
    rw [h]
    split
    · next hxb => exact ⟨h1, h8, by omega, hprog⟩
    · exact ⟨i1, i8, i64, hprog⟩
  unfold State.group
  split
  · next hxb => rw [hxb, SMap.get_put_self]
  · next hxb => rw [SMap.get_put_other _ _ _ hxb]

theorem State.checked_fits {s : State} (hs : s.fits) (c : Cmd) (checks : List (Bool × Nat)) (k : State → State)
    (hk : firstFailing checks = none → (k s).fits) : (s.checked c checks k).fits := by
  unfold State.checked
  split
  · exact State.fits_of_roster (State.complete_roster ..) hs
  · next h => exact hk h

/-! ### Programs begin and end -/

theorem Cmd.field_byte (c : Cmd) (off : Nat) : c.field off 1 ≤ 255 := by
  have : c.field off 1 < 2 ^ 8 := Nat.mod_lt _ (by decide)
  omega

theorem State.admitProgram_fits {s : State} (hs : s.fits) (b : Nat) (c : Cmd) (image frame : Nat) (h : Header)
    (holds : List (Nat × Nat × Nat)) (resumed : Option (Micro × Nat)) :
    (s.admitProgram b c image frame h holds resumed).fits := by
  unfold State.admitProgram
  extract_lets opened enabled regs m status g s1 s2 sites s3 s4 s5
  have h1 : s1.fits := State.fits_of_roster (by simp [s1]) hs
  have h2 : s2.fits := State.fits_of_roster (by simp [s2]) (State.setProgram_fits h1 b (g := g) (Cmd.field_byte c 33))
  have h3 : s3.fits := State.fits_of_roster (by simp [s3]) h2
  have h5 : s5.fits := State.fits_of_roster (by simp [s5, s4]) h3
  split
  · exact State.fits_of_roster (by simp) h5
  · exact State.fits_of_roster (by simp) h5

theorem State.startWith_fits {s s0 : State} (hs : s.fits) (h0 : s0.fits) (c : Cmd) (bad : Bool) (p : Pre) (image frame : Nat)
    (h : Option (Header × List (Nat × Nat × Nat))) (resumed : Option (Micro × Nat)) :
    (s.startWith s0 c bad p image frame h resumed).fits := by
  have hend : ∀ st res, (s.endStart c st res).fits := fun st res => State.fits_of_roster (State.endStart_roster ..) hs
  have hkeep : (s.keepStart c).fits := State.fits_of_roster (State.keepStart_roster ..) hs
  unfold State.startWith
  extract_lets b us
  refine State.fits_ite (hend _ _) (State.fits_ite (hend _ _) (State.fits_ite (hend _ _) (State.fits_ite ?_ ?_)))
  · exact State.fits_of_roster ((State.keepStart_roster ..).trans (State.keepRequests_roster ..)) h0
  · split
    · exact hend _ _
    · exact hend _ _
    · refine State.fits_ite (State.fits_ite hkeep (hend _ _)) (State.fits_ite ?_ ?_)
      · exact State.fits_of_roster (State.raiseIdle_roster ..) (hend _ _)
      · exact State.admitProgram_fits (State.fits_of_roster (State.roster_update s) hs) _ _ _ _ _ _ _

theorem State.readImage_fits {s : State} (hs : s.fits) (b image : Nat) : (s.readImage b image).2.2.fits :=
  State.fits_of_roster (State.readImage_roster ..) hs

theorem State.tryStart_fits {s : State} (hs : s.fits) (c : Cmd) : (s.tryStart c).fits := by
  have hend : ∀ st res, (s.endStart c st res).fits := fun st res => State.fits_of_roster (State.endStart_roster ..) hs
  have hread : ∀ x va n, (s.preRead x va n).2.2.fits := fun x va n => State.fits_of_roster (State.preRead_roster ..) hs
  unfold State.tryStart
  dsimp only
  split
  · exact State.fits_ite (hend _ _) (State.startWith_fits (State.readImage_fits hs _ _) hs _ _ _ _ _ _ _)
  · refine State.fits_ite (hend _ _) ?_
    split
    · exact State.startWith_fits (hread _ _ _) hs _ _ _ _ _ _ _
    · exact State.fits_ite (State.startWith_fits (hread _ _ _) hs _ _ _ _ _ _ _) (State.startWith_fits (State.readImage_fits
      (hread _ _ _) _ _) hs _ _ _ _ _ _ _)

theorem doProgramStart_fits (c : Cmd) {s : State} (hs : s.fits) : (doProgramStart c s).fits := by
  unfold doProgramStart
  split
  · exact State.fits_of_roster (State.keepStart_roster ..) hs
  · exact State.tryStart_fits hs c

theorem doProgramAdmit_fits (b : Nat) {s : State} (hs : s.fits) : (doProgramAdmit b s).fits := by
  unfold doProgramAdmit
  split
  · exact hs
  · split
    · exact State.tryStart_fits hs _
    · exact hs

theorem State.finishProgram_fits {s : State} (hs : s.fits) (b : Nat) (g : Program) : (s.finishProgram b g).fits := by
  unfold State.finishProgram
  extract_lets st s1 s2 s3 s4 s5 sites s6 runs
  have h1 : s1.fits := State.fits_of_roster (by simp [s1]) hs
  have h2 : s2.fits := State.delProgram_fits h1 b
  have h3 : s3.fits := State.fits_of_roster (by simp [s3]) h2
  have h4 : s4.fits := State.fits_of_roster (by simp [s4]) h3
  have h6 : s6.fits := State.fits_of_roster (by simp [s6, s5]) h4
  exact State.fits_of_roster (by simp) h6

theorem doProgramEnd_fits (b : Nat) {s : State} (hs : s.fits) : (doProgramEnd b s).fits := by
  have ht : (s.settleResults b).fits := State.fits_of_roster (by simp) hs
  unfold doProgramEnd
  split
  · exact hs
  · split
    · exact State.finishProgram_fits ht b _
    · exact hs

theorem programEnded_fits (b : Nat) {s : State} (hs : s.fits) : (programEnded b s).fits := by
  have ht : (doProgramEnd b s).fits := doProgramEnd_fits b hs
  unfold programEnded
  dsimp only
  split
  · exact State.fits_of_roster (by simp) ht
  · exact ht

/-! ### Groups are captured -/

theorem State.sizesGood_fits {s : State} {b : Nat} (h : s.sizesGood b = true) :
    1 ≤ (s.wantedSeqs b).length ∧ (s.wantedSeqs b).length ≤ 8 ∧ b + (s.wantedSeqs b).length ≤ 64 := by
  unfold State.sizesGood at h
  simp only [Bool.and_eq_true, decide_eq_true_eq] at h
  obtain ⟨⟨⟨h1, h8⟩, h64⟩, -⟩ := h
  simp only [State.wantedSeqs, List.length_map, List.length_range]
  exact ⟨h1, h8, h64⟩

theorem State.sizesGood_of_config {s : State} {b on off : Nat} (h : s.siteConfigBad b on off = false) : s.sizesGood b = true := by
  simp only [State.siteConfigBad, Bool.or_eq_false_iff, and_assoc] at h
  simpa using h.1

/-- A check that comes first holds where none fails. -/
theorem firstFailing_head {bad : Bool} {st : Nat} {l : List (Bool × Nat)} (h : firstFailing ((bad, st) :: l) = none) : bad =
    false := by
  simp only [firstFailing, Option.map_eq_none_iff, List.find?_eq_none] at h
  simpa using h (bad, st) (List.mem_cons_self ..)

theorem State.dissolve_fits {s : State} (hs : s.fits) (seqs : List Nat) (g : Nat × Group) : (s.dissolve seqs g).fits := by
  unfold State.dissolve
  exact State.fits_of_roster (by simp) (State.delGroup_fits hs g.1)

theorem State.capture_fits {s : State} (hs : s.fits) {b : Nat} (h : s.sizesGood b = true) : (s.capture b).fits := by
  obtain ⟨h1, h8, h64⟩ := State.sizesGood_fits h
  unfold State.capture
  extract_lets seqs ps s1 s2 s3
  have hs1 : s1.fits := State.fits_foldl _ (fun _ g ht => State.dissolve_fits ht seqs g) _ hs
  have hs3 : s3.fits := State.fits_of_roster (by simp [s3, s2]) hs1
  exact State.putGroup_fits hs3 h1 h8 h64

theorem State.siteEnable_fits {s : State} (hs : s.fits) (c : Cmd) {b : Nat} (on off : Nat) (h : s.sizesGood b = true) :
    (s.siteEnable c b on off).fits := by
  refine State.fits_of_roster (s := s.capture b) ?_ (State.capture_fits hs h)
  simp [State.siteEnable]

theorem doSiteEnable_fits (c : Cmd) {s : State} (hs : s.fits) : (doSiteEnable c s).fits := by
  unfold doSiteEnable
  refine State.checked_fits hs _ _ _ (fun _ => ?_)
  split
  · exact State.fits_of_roster (State.hold_roster ..) hs
  · split
    · exact State.fits_of_roster (State.hold_roster ..) hs
    · refine State.checked_fits hs _ _ _ (fun hcheck => State.siteEnable_fits hs c _ _ ?_)
      exact State.sizesGood_of_config (firstFailing_head hcheck)

/-! ### Starts that FELT has scheduled -/

theorem State.dropBound_fits {s : State} (hs : s.fits) (st b : Nat) : (s.dropBound st b).fits := by
  have h1 : (s.stopAllSites b st).fits := State.fits_of_roster (by simp) hs
  unfold State.dropBound
  dsimp only
  split
  · exact State.finishProgram_fits h1 b _
  · exact h1

theorem State.fireStart_fits {s : State} (hs : s.fits) (k : Nat) : (s.fireStart k).fits := by
  unfold State.fireStart
  extract_lets st s1
  have h1 : s1.fits := State.fits_of_roster (by simp [s1]) hs
  refine State.fits_of_roster (State.freeStart_roster ..) (State.fits_foldl _ (fun t b ht => ?_) _ h1)
  split
  · exact State.dropBound_fits ht _ b
  · exact State.fits_of_roster (State.modProgram_roster _ _ _ (fun g => by cases g; rfl)) ht

theorem doScheduledStart_fits (k : Nat) {s : State} (hs : s.fits) : (doScheduledStart k s).fits := by
  unfold doScheduledStart
  split
  · exact State.fireStart_fits hs k
  · exact hs

theorem doStartFillDeadline_fits (k : Nat) {s : State} (hs : s.fits) : (doStartFillDeadline k s).fits := by
  unfold doStartFillDeadline
  split
  · exact hs
  · refine State.fits_foldl _ (fun t b ht => ?_) _ hs
    split
    · exact State.dropBound_fits ht _ b
    · exact ht

theorem timeStepped_fits (old : Nat) {s : State} (hs : s.fits) : (timeStepped old s).fits := by
  unfold timeStepped
  refine State.fits_of_roster (State.passDeadlines_roster ..) (State.fits_foldl _ (fun t x ht => ?_) _ hs)
  exact State.fits_of_roster (State.bump_roster ..) (State.fireStart_fits ht x.1)

theorem State.cancelStart_fits {s : State} (hs : s.fits) (id : Nat) : (s.cancelStart id).2.fits := by
  unfold State.cancelStart
  split
  · exact hs
  · split
    · exact hs
    · refine State.fits_of_roster (State.freeStart_roster ..) (State.fits_foldl _ (fun t b ht => ?_) _ hs)
      exact State.dropBound_fits ht _ b

theorem doCancel_fits (p : Nat) {s : State} (hs : s.fits) : (doCancel p s).fits := by
  unfold doCancel message
  split
  · exact hs
  · next e he =>
    exact State.fits_of_roster (State.feltSend_roster ..) (State.cancelStart_fits (State.fits_of_roster (by simp) hs) _)

theorem doFeltCancel_fits (c : Cmd) {s : State} (hs : s.fits) : (doFeltCancel c s).fits := by
  unfold doFeltCancel
  refine State.checked_fits hs _ _ _ (fun _ => ?_)
  exact State.fits_of_roster (by simp) (State.cancelStart_fits hs (c.field 8 2))

theorem State.blockUp_fits {s : State} (hs : s.fits) (p typ : Nat) (content : BitVec 48) (crc : BitVec 8) (k : Nat → State →
    State)
    (hk : ∀ c, (k c s).fits) : (s.blockUp p typ content crc k).fits := by
  unfold State.blockUp State.block
  exact State.fits_ite hs (State.fits_ite (State.fits_of_roster (State.bump_roster ..) hs) (State.fits_ite (hk _) hs))

theorem syncPulse_fits (k : Nat → State → State) (hk : ∀ old t, t.fits → (k old t).fits) (p : Nat) (content : BitVec 48)
    (crc : BitVec 8) (ta : BitVec 64) {s : State} (hs : s.fits) : (syncPulse k p content crc ta s).fits := by
  unfold syncPulse
  refine State.blockUp_fits hs _ _ _ _ _ (fun c => State.fits_ite hs ?_)
  extract_lets tp offset s1 st f
  have h1 : s1.fits := State.fits_of_roster (State.setFld_roster ..) hs
  have hcount : (syncPulse.countPulse offset s1).fits := State.fits_of_roster (syncPulse.countPulse_roster ..) h1
  split
  · exact State.fits_ite (hk _ _ (State.fits_of_roster (by simp) h1)) hcount
  · exact State.fits_ite h1 hcount

theorem doSyncPulse_fits (p : Nat) (content : BitVec 48) (crc : BitVec 8) (ta : BitVec 64) {s : State} (hs : s.fits) :
    (doSyncPulse p content crc ta s).fits :=
  syncPulse_fits timeStepped (fun old _ ht => timeStepped_fits old ht) p content crc ta hs

/-! ### Commands -/

theorem runUnitCmd_fits (c : Cmd) {s : State} (hs : s.fits) : (runUnitCmd c s).fits := by
  unfold runUnitCmd
  extract_lets a
  split
  case h_1 => exact doProgramStart_fits c hs
  case h_3 => exact doProgramStart_fits c hs
  case h_5 => exact doSiteEnable_fits c hs
  all_goals exact State.fits_of_roster (by simp) hs

theorem runDeviceCmd_fits (left : Nat) (c : Cmd) {s : State} (hs : s.fits) : (runDeviceCmd left c s).fits := by
  unfold runDeviceCmd
  split
  case h_32 => exact doFeltCancel_fits c hs
  all_goals exact State.fits_of_roster (by simp) hs

theorem runCmd_fits (left : Nat) (c : Cmd) {s : State} (hs : s.fits) : (runCmd left c s).fits := by
  unfold runCmd
  exact State.fits_ite (runUnitCmd_fits c hs) (runDeviceCmd_fits left c hs)

/-! ### Commands held back are tried again -/

theorem State.tryHeld_fits {s : State} (hs : s.fits) (h : Held) : (s.tryHeld h).fits := by
  unfold State.tryHeld
  refine State.fits_ite (State.fits_of_roster (State.roster_update s) hs) (State.fits_ite ?_ (runCmd_fits _ _ hs))
  exact State.fits_of_roster (State.hold_roster ..) hs

theorem State.retryHeld_fits {s : State} (hs : s.fits) : s.retryHeld.fits := by
  unfold State.retryHeld
  refine State.fits_ite hs (State.fits_foldl _ (fun t h ht => State.tryHeld_fits ht h) _ ?_)
  exact State.fits_of_roster (State.roster_update s) hs

theorem idleExited_fits {s : State} (hs : s.fits) : (idleExited s).fits := by
  have ht : (doIdleExitEnd s).fits := State.fits_of_roster (by simp) hs
  unfold idleExited
  exact State.fits_ite ht (State.retryHeld_fits ht)

theorem State.settle_fits {s : State} (hs : s.fits) : s.settle.fits :=
  State.fits_of_roster (by simp [State.settle]) (State.retryHeld_fits hs)

theorem State.tick_fits {s : State} (hs : s.fits) : s.tick.fits := by
  unfold State.tick
  exact State.fits_ite hs (State.settle_fits (State.fits_of_roster (by simp) hs))

/-! ### Resets -/

theorem State.afresh_fits (s : State) : s.afresh.fits := by
  intro b hb
  exact ⟨Nat.le_refl 1, Nat.le_of_ble_eq_true rfl, hb, fun g hg => by cases hg⟩

theorem State.resetBy_fits (s : State) (supply : Bool) : (s.resetBy supply).fits := by
  refine State.fits_of_roster (s := s.afresh) ?_ s.afresh_fits
  simp [State.resetBy, State.wiped_eq]

theorem State.supplyLost_fits {s : State} (hs : s.fits) : s.supplyLost.fits := by
  unfold State.supplyLost
  exact State.fits_ite (State.fits_of_roster (State.roster_update s) hs)
    (State.fits_of_roster (State.roster_update _) (s.resetBy_fits true))

theorem doPerst_fits (xref : Bool) {s : State} (hs : s.fits) : (doPerst xref s).fits := by
  unfold doPerst
  exact State.fits_of_roster (State.roster_update _) (State.fits_ite hs (s.resetBy_fits false))

theorem doPerstAssert_fits {s : State} (hs : s.fits) : (doPerstAssert s).fits := by
  unfold doPerstAssert
  exact State.fits_ite hs (State.fits_of_roster (State.roster_update _) (s.resetBy_fits false))

/-! ### The test access port -/

@[simp] theorem State.boundaryScan_roster (s : State) (ir : Nat) (shift balls : List Bool) :
    (s.boundaryScan ir shift balls).roster = s.roster := by
  simp [State.boundaryScan]

@[simp] theorem State.bypassScan_roster (s : State) (ir : Nat) (shift : List Bool) : (s.bypassScan ir shift).roster =
    s.roster := by
  simp [State.bypassScan]

@[simp] theorem doExtest_roster (shift balls : List Bool) (s : State) : (doExtest shift balls s).roster = s.roster := by
  simp [doExtest]

@[simp] theorem doSamplePreload_roster (shift balls : List Bool) (s : State) : (doSamplePreload shift balls s).roster =
    s.roster := by
  simp [doSamplePreload]

@[simp] theorem doIdcode_roster (s : State) : (doIdcode s).roster = s.roster := by
  simp [doIdcode]

@[simp] theorem doJtagClamp_roster (shift : List Bool) (s : State) : (doJtagClamp shift s).roster = s.roster := by
  simp [doJtagClamp]

@[simp] theorem doHighz_roster (shift : List Bool) (s : State) : (doHighz shift s).roster = s.roster := by
  simp [doHighz]

@[simp] theorem doBypass_roster (code : Nat) (shift : List Bool) (s : State) : (doBypass code shift s).roster = s.roster := by
  simp [doBypass]

@[simp] theorem doDebugStatus_roster (s : State) : (doDebugStatus s).roster = s.roster := by
  simp [doDebugStatus]

@[simp] theorem doDebugAccess_roster (d : BitVec 96) (s : State) : (doDebugAccess d s).roster = s.roster := by
  simp [doDebugAccess]

@[simp] theorem doInternalResetRelease_roster (s : State) : (doInternalResetRelease s).roster = s.roster := by
  simp [doInternalResetRelease]

@[simp] theorem doHotReset_roster (linkDown : Bool) (s : State) : (doHotReset linkDown s).roster = s.roster := by
  simp [doHotReset]

/-! ### Every row -/

theorem answer_fits {s u t : State} (hu : u.fits) (h : answer s u = .next t) : t.fits := by
  rw [answer_next h]
  exact State.fits_of_roster (State.roster_update u) hu

theorem event_fits {k : State → State} {s t : State} (hs : s.fits) (h : event k s = .next t) (hk : (k s).fits) : t.fits :=
  answer_fits (State.fits_ite hs hk) h

theorem always_fits {k : State → State} {s t : State} (h : always k s = .next t) (hk : (k s).fits) : t.fits :=
  answer_fits hk h

theorem State.accept_fits {s : State} (hs : s.fits) (c : Cmd) {k : Cmd → State → State} (hk : ∀ c u, u.fits → (k c u).fits) :
    (s.accept c k).fits := by
  have h1 : (s.undispatch c).fits := State.fits_of_roster (State.undispatch_roster ..) hs
  unfold State.accept
  refine State.fits_ite (State.fits_of_roster ?_ h1) (State.fits_ite (State.fits_of_roster (State.hold_roster ..) h1) (hk c _ h1))
  exact (State.hold_roster ..).trans (State.startExit_roster ..)

theorem hostCmd_fits {op : Nat} {q : BitVec 8} {e : Entry} {k : Cmd → State → State} {s t : State} (hs : s.fits)
    (h : hostCmd op q e k s = .next t) (hk : ∀ c u, u.fits → (k c u).fits) : t.fits := by
  unfold hostCmd at h
  split at h
  · cases h
  · exact answer_fits (State.fits_ite hs (State.accept_fits hs _ hk)) h

theorem hostAction_fits {op : Nat} {act : Nat → Bool} {q : BitVec 8} {e : Entry} {k : Cmd → State → State} {s t : State}
    (hs : s.fits) (h : hostAction op act q e k s = .next t) (hk : ∀ c u, u.fits → (k c u).fits) : t.fits := by
  unfold hostAction at h
  split at h
  · exact answer_fits (State.fits_ite hs (State.accept_fits hs _ hk)) h
  · cases h

theorem afterHeld_fits {k : State → State} (hk : ∀ t, t.fits → (k t).fits) {s : State} (hs : s.fits) : (afterHeld k s).fits :=
  hk _ (State.retryHeld_fits hs)

theorem execCalRun_fits {q : BitVec 8} {e : Entry} {m : CalOutcome} {s t : State} (hs : s.fits)
    (h : execCalRun q e m s = .next t) : t.fits := by
  unfold execCalRun at h
  split at h
  · cases h
  · refine answer_fits (State.fits_ite hs (State.accept_fits (State.fits_of_roster (State.keepCalRun_roster ..) hs) _ ?_)) h
    exact fun c u hu => State.fits_of_roster (doCalRun_roster ..) hu

theorem exec_fits {i : Instr} {s t : State} (hs : s.fits) (h : exec i s = .next t) : t.fits := by
  unfold exec at h
  cases i with
  | siteEnable => exact hostCmd_fits hs h (fun c _ => doSiteEnable_fits c)
  | feltCancel => exact hostCmd_fits hs h (fun c _ => doFeltCancel_fits c)
  | programStart | programResume =>
    exact hostCmd_fits hs h (fun c _ => afterHeld_fits (fun _ => doProgramStart_fits c))
  | calRun => exact execCalRun_fits hs h
  | programAdmit b => exact event_fits hs h (afterHeld_fits (fun _ => doProgramAdmit_fits b.val) hs)
  | programEnd b => exact event_fits hs h (programEnded_fits b.val hs)
  | scheduledStart k => exact event_fits hs h (doScheduledStart_fits k.val hs)
  | startFillDeadline k => exact event_fits hs h (doStartFillDeadline_fits k.val hs)
  | syncPulse p content crc ta => exact event_fits hs h (doSyncPulse_fits p.val content crc ta hs)
  | cancel p => exact event_fits hs h (doCancel_fits p.val hs)
  | idleExitEnd => exact event_fits hs h (idleExited_fits hs)
  | supplyReset | referenceLoss => exact always_fits h (State.supplyLost_fits hs)
  | perst xref => exact always_fits h (doPerst_fits xref hs)
  | perstAssert => exact always_fits h (doPerstAssert_fits hs)
  | contactCheck | deckleClose | siteRegLoad | ppmuMeasure | programPreempt | trapRequest | reamMark | reamRewind
  | reamRelease | reamReset | tmuArm | popDefine | popFinalise | popRead | popRelease | mapSet | mapLoad | mapClear
  | mapRead | dmaCopy | dmaRing | dmaFill | dmaResume | dmaAbort | nop | feltCopy | feltSchedule | feltTimeSet | calStore
  | calLoad | nextEvent | wake | usageRead | attest | summarySign | imageMeasure | fwUpdate | oemProvision | oemConfig
  | unitReset | unitRetire | unitUnretire =>
    exact hostCmd_fits hs h (fun _ _ => State.fits_of_roster (by simp))
  | awgRunStart | awgRunStop | awgRunJump | acqArm | acqForce | acqStop | acqRelease | dpsRunOn | dpsRunOff | dpsRunMeasure
  | unitPowerDown | unitPowerUp =>
    exact hostAction_fits hs h (fun _ _ => State.fits_of_roster (by simp))
  | evAssert | extest | idcode | samplePreload | clamp | highz | debugAccess | debugStatus | bypass | evLineRelease
  | internalResetRelease =>
    exact always_fits h (State.fits_of_roster (by simp) hs)
  | registerWrite | badSizeAccess | contactCheckEnd | deckleClosure | clampMonitorTrip | clampLiveClear | clampSelfCheck
  | ppmuReading | clkPlanWrite | relockEnd | pllLockLoss | timingSetWrite | ctrl | vec | vecEach | vecSeq | vecHold
  | segment | waitTimeout | conditionWaitEnd | syncRelease | compareResult | ppmuTrigger | tmuTrigger | digitizerArmTrigger
  | dpsReadTrigger | ppmuConnect | ppmuDisconnect | levelSet0 | levelSet1 | awgStart | awgStop | awgJump | dpsOn | dpsOff
  | calFreeze | calThaw | csDemandFill | csSpecFill | preemptTimeLimit | preemptFrameWrite | trapFrameWrite
  | programTimeLimit | unsafeStall | streamBlockArrival | hbClrCounts | csClrCounts | execClrCounts | recordCommit
  | crossedClear | queueConfigWrite | tmuCalibrated | tmuEdge | tmuGateClose | tmuTimeout | tmuResult | awgTimedStart
  | awgRequestRegister | awgBoundary | awgFetchDone | awgUnderrun | triggerFire | postCaptureEnd | rearmEnd | acqTimeout
  | dpsSwitchingCycle | dpsReading | dpsWindowTrip | dpsBoundInside | blankExpiry | dpsDisagree | dpsSelfCheck | popReading
  | forwardDeadline | deadline | popDomainWrite | popClrCounts | regionWrite | mmuClrCounts | patrolScrub
  | hostReadCompletion | atsCompletion | pageRequestResponse | prTimeout | atsInvalidate | invalidationCompletion
  | dmaChunkComplete | descriptorAgeing | dmaTimeLimit | dmaClrCounts | pollRound | doorbellLineRead | entryFetch
  | completionWrite | moderationTimer | msixUnmask | l1Exit | d3hotEntry | d0Return | hotReset | sqConfigWrite
  | cqConfigWrite | pollIntervalWrite | hiClrCounts | partnerDetect | equaliseEnd | mismatchRetry | blockLockLoss | retrain
  | retrainTimeout | downTimeout | id0 | id1 | credit | ack | nak | syncReq | syncRsp | syncInfo | timeHi | packetReceive
  | replayTimeout | creditTimer | ackTimer | syncExchangeTimer | syncPulseTimer | holdoverTimeout | writeReq | readReq
  | writeRsp | readRsp | reduce | reassemblyTimeout | start | startAck | linkState | scheduleTimeout | rspTimeout
  | startAlign | feltCfgWrite | feltClrCounts | flashFetch | flashReadDone | dqsTimeout | storeWrite | flashStatusRead
  | flashBusyTimeout | cellNop | cellRead | cellWrite | aliveLoss | cpCtrlWrite | calRunTimeLimit | trackingCycle
  | calenderStep | calStale | idleChoice | idleEntryEnd | idleExit | thermalSample | throttleUpdate | sensorReadmit
  | supplyWarning | supplyRecovery | ageingMeasure | usageLogWrite | eventDelivery | evPulseEnd | heqConfigWrite
  | evcClrCounts | boot | unitBringup | unitRestart | safeWait | digitizerSample | tmuInputSettled | completionTimeout
  | configSpaceWrite | pcieLinkUp | l1Entry =>
    exact event_fits hs h (State.fits_of_roster (by simp) hs)

/-- Settles O19: only a capture, a start and an end write the tables of captured groups and programs, and each of them
writes what fits. -/
theorem groupsFit : Obligations.GroupsFit := by
  unfold Obligations.GroupsFit
  intro s t hs h
  unfold step at h
  split at h
  · cases h
    exact State.tick_fits hs
  · exact exec_fits (State.fits_of_roster (State.roster_update s) hs) h

end Sys2Proof.Machine
end

section
/-! SUPPORT. DECKLE_STATE, the safe states of pins and the positions of captured groups (R36, R40, R41): what leaves them
  alone. -/

namespace Sys2Proof.Machine

open Sys2Proof

/-- A part of the state that every round of a loop leaves alone. -/
theorem State.foldl_same_of_mem {α β : Type} (v : State → β) {f : State → α → State} {l : List α}
    (h : ∀ s, ∀ a ∈ l, v (f s a) = v s) (s : State) : v (l.foldl f s) = v s := by
  induction l generalizing s with
  | nil => rfl
  | cons a l ih =>
    exact (ih (fun t x hx => h t x (List.mem_cons_of_mem _ hx)) _).trans (h s a (List.mem_cons_self ..))

theorem State.foldl_same {α β : Type} (v : State → β) {f : State → α → State} (h : ∀ s a, v (f s a) = v s) (l : List α) (s :
    State) :
    v (l.foldl f s) = v s :=
  State.foldl_same_of_mem v (fun t a _ => h t a) s

/-- No DECKLE_STATE holds the field (R36). -/
def offDeckle (f : Fld) : Prop := ∀ b < 64, f.addr ≠ Reg.seqB b + 0x110

/-- The DECKLE_STATE registers, of each pin what a closed Deckle settles (its safe state, and its connection), and the
  positions of
each captured group. -/
structure Wards where
  deckle : Fin 64 → BitVec 64
  guard : Nat → Option SafeState × Bool
  positions : Nat → List SitePos

def State.wards (s : State) : Wards :=
  ⟨fun b => s.quad (Reg.seqB b.val + 0x110), fun n => ((s.pin n).safe, (s.pin n).connected), fun b => (s.group b).positions⟩

@[simp] theorem State.wards_update (t : State) {x_pending x_applied x_timing x_timingApplied x_burned x_perst
    x_internalReset x_xref x_hi x_ev x_mem x_held x_programs x_starts x_seqs x_rings x_clusters x_tmus x_awgs x_dgs
    x_dps x_swgHeld x_popTests x_dma x_felt x_power x_sec x_cals x_ser x_units x_jtag x_causes x_popInput x_draws} :
    State.wards (State.mk x_pending t.regs x_applied x_timing x_timingApplied t.fuse x_burned x_perst x_internalReset x_xref
        x_hi x_ev x_mem x_held t.pins t.groups x_programs x_starts x_seqs x_rings x_clusters x_tmus x_awgs x_dgs x_dps
        x_swgHeld x_popTests x_dma x_felt x_power x_sec x_cals x_ser x_units x_jtag x_causes x_popInput x_draws) = t.wards := by
  cases t
  rfl

@[simp] theorem State.wards_ite (c : Prop) [Decidable c] (s t : State) :
    (if c then s else t).wards = if c then s.wards else t.wards := apply_ite _ _ _ _

@[simp] theorem State.wards_ite_snd {α : Type} (c : Prop) [Decidable c] (s t : α × State) :
    (if c then s else t).2.wards = if c then s.2.wards else t.2.wards := by split <;> rfl

@[simp] theorem State.wards_foldl {α : Type} (f : State → α → State) (h : ∀ s a, (f s a).wards = s.wards) (l : List α)
    (s : State) : (l.foldl f s).wards = s.wards := by
  induction l generalizing s with
  | nil => rfl
  | cons a l ih => simp [ih, h]

@[simp] theorem State.setFld_wards (s : State) {f : Fld} (v : Nat) (h : offDeckle f) : (s.setFld f v).wards = s.wards := by
  have hq : ∀ b : Fin 64, (s.setFld f v).quad (Reg.seqB b.val + 0x110) = s.quad (Reg.seqB b.val + 0x110) :=
    fun b => State.quad_setFld_other s v (h b.val b.isLt)
  exact congrArg (Wards.mk · _ _) (funext hq)

@[simp] theorem State.setFlag_wards (s : State) {f : Fld} (b : Bool) (h : offDeckle f) : (s.setFlag f b).wards = s.wards :=
  State.setFld_wards s _ h

@[simp] theorem State.bump_wards (s : State) {f : Fld} (k : Nat) (h : offDeckle f) : (s.bump f k).wards = s.wards :=
  State.setFld_wards s _ h

@[simp] theorem State.setProgram_wards (s : State) (b : Nat) (p : Program) : (s.setProgram b p).wards = s.wards :=
  State.wards_update s

@[simp] theorem State.modProgram_wards (s : State) (b : Nat) (f : Program → Program) : (s.modProgram b f).wards = s.wards := by
  unfold State.modProgram
  split <;> simp

@[simp] theorem State.modPin_wards (s : State) (p : Nat) (f : Pin → Pin)
    (hs : ∀ y, (f y).safe = y.safe) (hc : ∀ y, (f y).connected = y.connected) : (s.modPin p f).wards = s.wards := by
  have hg : ∀ n, (((s.modPin p f).pin n).safe, ((s.modPin p f).pin n).connected) = ((s.pin n).safe, (s.pin n).connected) := by
    intro n
    unfold State.pin State.modPin
    by_cases hn : n = p
    · rw [hn, SMap.get_put_self, hs, hc]
    · rw [SMap.get_put_other _ _ _ hn]
  exact congrArg (Wards.mk _ · _) (funext hg)

/-- A captured group in place of one of the same positions. -/
theorem State.putGroup_wards {s : State} {b : Nat} {g : Group} (h : g.positions = (s.group b).positions) :
    State.wards { s with groups := SMap.put s.groups b g } = s.wards := by
  have hp : ∀ x, (State.group { s with groups := SMap.put s.groups b g } x).positions = (s.group x).positions := by
    intro x
    unfold State.group
    by_cases hx : x = b
    · rw [hx, SMap.get_put_self, h]
      rfl
    · rw [SMap.get_put_other _ _ _ hx]
  exact congrArg (Wards.mk _ _) (funext hp)

/-! ### Registers that are no DECKLE_STATE -/

theorem offDeckle_of_lt {f : Fld} (h : f.addr < 0x50000) : offDeckle f := by
  intro b _
  unfold Reg.seqB
  omega

theorem offDeckle_of_gt {f : Fld} (h : 0x70000 ≤ f.addr) : offDeckle f := by
  intro b _
  unfold Reg.seqB
  omega

theorem offDeckle_of_offset {f : Fld} {n o : Nat} (h : f.addr = Reg.seqB n + o) (ho : o < 0x800) (hne : o ≠ 0x110) :
    offDeckle f :=
  fun _ _ hb => seqB_apart ho (by decide) hne (h.symm.trans hb)

/-- Registers of which the device has one. -/
@[simp] theorem Reg.device_offDeckle :
    offDeckle Reg.ECC_LOG_DPA ∧ offDeckle Reg.ECC_LOG_SOURCE ∧ offDeckle Reg.ECC_LOG_VALID ∧
    offDeckle Reg.FAULT_HEAD_NEXT ∧ offDeckle Reg.HB_STATUS_BG_ACTIVE ∧ offDeckle Reg.HI_DISCARDED ∧
    offDeckle Reg.HI_MSIX_SENT ∧ offDeckle Reg.HI_PME_SENT ∧ offDeckle Reg.HI_STATUS_BUF_FULL ∧
    offDeckle Reg.MMU_ATS_REQUESTS ∧ offDeckle Reg.MMU_CORRECTED ∧ offDeckle Reg.MMU_PERM_FAULTS ∧
    offDeckle Reg.MMU_POISON_READS ∧ offDeckle Reg.MMU_PR_TIMEOUTS ∧ offDeckle Reg.MMU_SPEC_DROPS ∧
    offDeckle Reg.MMU_STATUS_FAULT_OVERFLOW ∧ offDeckle Reg.MMU_TRANS_FAULTS ∧ offDeckle Reg.MMU_UNCORRECTABLE ∧
    offDeckle Reg.POP_DROPPED ∧ offDeckle Reg.POP_DUPLICATES ∧ offDeckle Reg.POP_LATE_READINGS ∧
    offDeckle Reg.POP_LATE_REPORTS ∧ offDeckle Reg.POP_STATUS_DROP ∧ offDeckle Reg.POP_STATUS_IN_FILL ∧
    offDeckle Reg.POP_UNDEFINED := by
  and_intros <;> exact offDeckle_of_lt (by decide)

/-- Registers of a sequencer. -/
@[simp] theorem Reg.sequencer_offDeckle (n : Nat) :
    offDeckle (Reg.EB_STATUS_BACKPRESSURE n) ∧ offDeckle (Reg.EB_STATUS_EB_FILL n) ∧
    offDeckle (Reg.EB_STATUS_OVERFLOW n) ∧ offDeckle (Reg.EXEC_STATUS_PRIVATE n) ∧
    offDeckle (Reg.EXEC_STATUS_RUNNING_SLOT n) ∧ offDeckle (Reg.EXEC_STATUS_SLOTS n) ∧
    offDeckle (Reg.EXEC_STATUS_STATE n) ∧ offDeckle (Reg.LOST_RECORDS n) ∧ offDeckle (Reg.SEQ_DISCARDED n) ∧
    offDeckle (Reg.SLOT_SWITCHES n) ∧ offDeckle (Reg.SPEC_DISCARDED n) ∧ offDeckle (Reg.STREAM_BUF_FILL n) ∧
    offDeckle (Reg.STREAM_MODE n) ∧ offDeckle (Reg.STREAM_SEQ n) := by
  and_intros <;> exact offDeckle_of_offset rfl (by decide) (by decide)

/-- Registers of TMUs, digitizers and DPS channels, all above the sequencers. -/
@[simp] theorem Reg.instrument_offDeckle (n : Nat) :
    offDeckle (Reg.DG_LAST_VALUE n) ∧ offDeckle (Reg.DG_STATUS_SLOPE_UNSETTLED n) ∧ offDeckle (Reg.DG_STATUS_STATE n) ∧
    offDeckle (Reg.DPS_STATUS_STATE n) ∧ offDeckle (Reg.DPS_STATUS_TRIP_LIVE n) ∧ offDeckle (Reg.TMU_LAST_VALUE n) ∧
    offDeckle (Reg.TMU_MEASUREMENTS n) ∧ offDeckle (Reg.TMU_STATUS_STATE n) := by
  and_intros
  all_goals
    refine offDeckle_of_gt ?_
    exact (Nat.le_add_right_of_le (by decide)).trans (Nat.le_add_right _ _)

/-- Registers of broadcast groups: their blocks are 64 bytes apart, and DECKLE_STATE lies 16 bytes into such a block. -/
@[simp] theorem Reg.broadcast_offDeckle (g : Nat) :
    offDeckle (Reg.BG_DEPARTURES g) ∧ offDeckle (Reg.BG_LAG_DEPARTURES g) ∧ offDeckle (Reg.BG_MEMBERS g) ∧
    offDeckle (Reg.BG_RING_PILOT g) ∧ offDeckle (Reg.BG_RING_RING_FILL g) := by
  and_intros
  all_goals
    intro b _
    simp only [Reg.BG_DEPARTURES, Reg.BG_LAG_DEPARTURES, Reg.BG_MEMBERS, Reg.BG_RING_PILOT,
      Reg.BG_RING_RING_FILL, Reg.bgB, Reg.seqB]
    omega

@[simp] theorem Reg.PIN_STATUS_PPMU_CLAMPED_offDeckle (p : Nat) : offDeckle (Reg.PIN_STATUS_PPMU_CLAMPED p) := by
  intro b _
  simp only [Reg.PIN_STATUS_PPMU_CLAMPED, Reg.pinB, Reg.clB, Reg.seqB]
  split <;> omega

/-- Entries of the fault log. -/
theorem Reg.faultLog_offDeckle {k : Nat} (hk : k < 16) :
    offDeckle (Reg.FLOG_CELL_TIME k) ∧ offDeckle (Reg.FLOG_ENGINE k) ∧ offDeckle (Reg.FLOG_ENTRY k) ∧
    offDeckle (Reg.FLOG_ENTRY_ENTRY_VALID k) ∧ offDeckle (Reg.FLOG_KIND k) ∧ offDeckle (Reg.FLOG_STATUS k) ∧
    offDeckle (Reg.FLOG_UNIT k) ∧ offDeckle (Reg.FLOG_VA k) ∧ offDeckle (Reg.FLOG_VALID k) ∧
    offDeckle (Reg.FLOG_WRITE k) := by
  and_intros
  all_goals
    refine offDeckle_of_lt ?_
    simp only [Reg.FLOG_CELL_TIME, Reg.FLOG_ENGINE, Reg.FLOG_ENTRY, Reg.FLOG_ENTRY_ENTRY_VALID, Reg.FLOG_KIND,
      Reg.FLOG_STATUS, Reg.FLOG_UNIT, Reg.FLOG_VA, Reg.FLOG_VALID, Reg.FLOG_WRITE]
    omega

/-- Counts of events by source. -/
theorem Reg.source_offDeckle {n : Nat} (hn : n < 64) : offDeckle (Reg.SRC_STAT_COUNT n) ∧ offDeckle (Reg.SRC_STAT_SAT n) := by
  and_intros
  all_goals
    refine offDeckle_of_lt ?_
    simp only [Reg.SRC_STAT_COUNT, Reg.SRC_STAT_SAT]
    omega

/-- Cause and first cause of a closed position. -/
theorem Reg.siteEntry_offDeckle (b : Nat) {p : Nat} (hp : p < 8) :
    offDeckle (Reg.SITE_ENTRY_CAUSE b p) ∧ offDeckle (Reg.SITE_ENTRY_PRIMARY b p) := by
  and_intros
  all_goals exact offDeckle_of_offset (n := b) (o := 0x140 + 0x8 * p) (Nat.add_assoc ..) (by omega) (by omega)

/-! ### Operations -/

@[simp] theorem State.raiseAt_wards (s : State) {n : Nat} (unit info t : Nat) (hn : n < 64) :
    (State.raiseAt s n unit info t).wards = s.wards := by
  obtain ⟨hc, hs⟩ := Reg.source_offDeckle hn
  simp [State.raiseAt, hc, hs]

@[simp] theorem State.raise_wards (s : State) {n : Nat} (unit info : Nat) (hn : n < 64) : (State.raise s n unit info).wards =
    s.wards := by
  simp [State.raise, hn]

@[simp] theorem State.sendMsix_wards (s : State) (_v : Nat) : (State.sendMsix s _v).wards = s.wards := by
  simp [State.sendMsix]

@[simp] theorem State.deliverVector_wards (s : State) (v : Nat) : (State.deliverVector s v).wards = s.wards := by
  simp [State.deliverVector]

@[simp] theorem State.moderateCq_wards (s : State) (q : Nat) : (State.moderateCq s q).wards = s.wards := by
  simp [State.moderateCq]

@[simp] theorem State.released_wards (s : State) (c : Cmd) : (State.released s c).wards = s.wards := by
  unfold State.released
  split <;> simp

@[simp] theorem State.completeTo_wards (s : State) (cq : Nat) (c : Cmd) (st res : Nat) :
    (State.completeTo s cq c st res).wards = s.wards := by
  simp [State.completeTo]

@[simp] theorem State.complete_wards (s : State) (c : Cmd) (st res : Nat) : (State.complete s c st res).wards = s.wards := by
  simp [State.complete]

@[simp] theorem State.draw_wards (s : State) (w : Nat) : (State.draw s w).2.wards = s.wards := by
  simp [State.draw]

@[simp] theorem State.writeDpa_wards (s : State) (a : Nat) (data : List Byte) (poison : Bool) :
    (State.writeDpa s a data poison).wards = s.wards := by
  simp [State.writeDpa]

@[simp] theorem State.writeHost_wards (s : State) (a : Nat) (data : List Byte) (poison : Bool) :
    (State.writeHost s a data poison).wards = s.wards := by
  simp [State.writeHost]

@[simp] theorem State.uncorrectable_wards (s : State) (block source : Nat) : (State.uncorrectable s block source).wards =
    s.wards := by
  simp [State.uncorrectable]

@[simp] theorem State.eccBlock_wards (source : Nat) (s : State) (block : Nat) : (State.eccBlock source s block).wards =
    s.wards := by
  unfold State.eccBlock
  (repeat' split) <;> simp

@[simp] theorem State.mergeBlocks_wards (s : State) (a n : Nat) : (State.mergeBlocks s a n).wards = s.wards := by
  simp [State.mergeBlocks]

@[simp] theorem State.logFault_wards (s : State) (x : MemCtx) (va k : Nat) (entry : Option Nat) (write : Bool) :
    (State.logFault s x va k entry write).wards = s.wards := by
  have hn : s.fld Reg.FAULT_HEAD_NEXT < 16 := State.fld_lt s _
  obtain ⟨h1, h2, h3, h4, h5, h6, h7, h8, h9, h10⟩ := Reg.faultLog_offDeckle hn
  simp [State.logFault, *]

@[simp] theorem State.touchRange_wards (s : State) (r : AtcRange) : (State.touchRange s r).wards = s.wards := by
  simp [State.touchRange]

@[simp] theorem State.requestPage_wards (s : State) (w : Waiter) (entry base : Nat) :
    (State.requestPage s w entry base).wards = s.wards := by
  simp [State.requestPage]

@[simp] theorem State.awaitPage_wards (s : State) (w : Waiter) (entry base : Nat) : (State.awaitPage s w entry base).wards =
    s.wards := by
  simp [State.awaitPage]

@[simp] theorem State.hostPath_wards (s : State) (x : MemCtx) (va a entry : Nat) (write more : Bool) :
    (State.hostPath s x va a entry write more).2.wards = s.wards := by
  unfold State.hostPath
  dsimp only
  (repeat' split) <;> simp

@[simp] theorem State.faultAcc_wards (s : State) (x : MemCtx) (va k : Nat) (entry : Option Nat) (write : Bool) :
    (State.faultAcc s x va k entry write).2.wards = s.wards := by
  simp [State.faultAcc]

@[simp] theorem State.poisonAcc_wards (s : State) (x : MemCtx) (va k entry : Nat) (data : List Byte) :
    (State.poisonAcc s x va k entry data).2.wards = s.wards := by
  simp [State.poisonAcc]

@[simp] theorem State.poisonDelivered_wards (s : State) (bad : List Nat) : (State.poisonDelivered s bad).wards = s.wards :=
    by
  simp [State.poisonDelivered]

@[simp] theorem State.readPiece_wards (s : State) (x : MemCtx) (va n : Nat) (more : Bool) :
    (State.readPiece s x va n more).2.wards = s.wards := by
  unfold State.readPiece
  split
  · simp
  · split
    · rfl
    · split
      · simp
      · split
        · simp
        · dsimp only
          (repeat' split) <;> simp
      · rename_i a e _
        split
        · simp
        · have h := State.hostPath_wards s x va a e false more
          split
          · rename_i heq
            rw [heq] at h
            split
            · simpa using h
            · split
              · simpa using h
              · simpa using h
          all_goals (rename_i heq; rw [heq] at h; simpa using h)

@[simp] theorem readPieces_wards (v0 : Nat) (v1 : MemCtx) (v2 v3 : Nat) (s : State) : (readPieces v0 v1 v2 v3 s).2.wards =
    s.wards := by
  induction v0 generalizing v1 v2 v3 s with
  | zero => rfl
  | succ fuel ih =>
    simp only [readPieces]
    split
    · rfl
    · have h := State.readPiece_wards s v1 v2 (min v3 (4096 - v2 % 4096)) (s.goesOn v2 v3)
      split
      · rename_i d p s1 heq
        rw [heq] at h
        have h2 := ih v1 (v2 + min v3 (4096 - v2 % 4096)) (v3 - min v3 (4096 - v2 % 4096)) s1
        split
        · rename_i heq2
          rw [heq2] at h2
          exact h2.trans h
        · exact h2.trans h
      · exact h

@[simp] theorem State.memRead_wards (s : State) (x : MemCtx) (va n : Nat) : (State.memRead s x va n).2.wards = s.wards := by
  simp [State.memRead]

@[simp] theorem State.writePiece_wards (s : State) (x : MemCtx) (va : Nat) (data : List Byte) (poison more : Bool) :
    (State.writePiece s x va data poison more).2.wards = s.wards := by
  unfold State.writePiece
  split
  · simp
  · split
    · rfl
    · split
      · simp
      · simp
      · rename_i a e _
        have h := State.hostPath_wards s x va a e true more
        split <;> (rename_i heq; rw [heq] at h; simpa using h)

@[simp] theorem writePieces_wards (v0 : Nat) (v1 : MemCtx) (v2 : Nat) (v3 : List Byte) (v4 : Bool) (s : State) :
    (writePieces v0 v1 v2 v3 v4 s).2.wards = s.wards := by
  induction v0 generalizing v1 v2 v3 v4 s with
  | zero => rfl
  | succ fuel ih =>
    simp only [writePieces]
    split
    · rfl
    · have h := State.writePiece_wards s v1 v2 (v3.take (4096 - v2 % 4096)) v4 (s.goesOn v2 v3.length)
      split
      · rename_i heq
        rw [heq] at h
        exact (ih _ _ _ _ _).trans h
      · exact h

@[simp] theorem State.memWrite_wards (s : State) (x : MemCtx) (va : Nat) (data : List Byte) (poison : Bool) :
    (State.memWrite s x va data poison).2.wards = s.wards := by
  simp [State.memWrite]

@[simp] theorem State.modSeq_wards (s : State) (n : Nat) (f : Seq → Seq) : (State.modSeq s n f).wards = s.wards := by
  simp [State.modSeq]

@[simp] theorem State.noteStatus_wards (s : State) (b p st : Nat) : (State.noteStatus s b p st).wards = s.wards := by
  simp [State.noteStatus]

@[simp] theorem State.noteSite_wards (s : State) (site st : Nat) : (State.noteSite s site st).wards = s.wards := by
  unfold State.noteSite
  (repeat' split) <;> simp [*]

@[simp] theorem State.showElastic_wards (s : State) (n : Nat) : (State.showElastic s n).wards = s.wards := by
  simp [State.showElastic]

@[simp] theorem State.enterRecord_wards (s : State) (n : Nat) (r : Rec) : (State.enterRecord s n r).wards = s.wards := by
  simp [State.enterRecord]

@[simp] theorem State.popPush_wards (s : State) (r : PopReading) : (State.popPush s r).wards = s.wards := by
  simp [State.popPush]

@[simp] theorem State.conditionReading_wards (s : State) (b serial : Nat) (r : CondReading) :
    (State.conditionReading s b serial r).wards = s.wards := by
  simp [State.conditionReading]

@[simp] theorem State.modCluster_wards (s : State) (c : Nat) (f : Cluster → Cluster) : (State.modCluster s c f).wards =
    s.wards := by
  simp [State.modCluster]

@[simp] theorem State.ppmuRunEnd_wards (s : State) (cl : Nat) (r : PpmuRun) : (State.ppmuRunEnd s cl r).wards = s.wards := by
  simp [State.ppmuRunEnd]

@[simp] theorem State.ppmuPinDone_wards (s : State) (cl i : Nat) (cmd : Cmd) (ok flagged : Bool) :
    (State.ppmuPinDone s cl i cmd ok flagged).wards = s.wards := by
  unfold State.ppmuPinDone
  split <;> simp

@[simp] theorem State.feltSend_wards (s : State) (dest typ : Nat) (tid poison : Nat) (flits : List Nat) :
    (State.feltSend s dest typ tid poison flits).wards = s.wards := by
  simp [State.feltSend]

@[simp] theorem State.sendReduce_wards (s : State) (dest test : Nat) (round kind check : Nat) (body : List Byte) :
    (State.sendReduce s dest test round kind check body).wards = s.wards := by
  simp [State.sendReduce]

@[simp] theorem State.modPop_wards (s : State) (k : Nat) (f : PopTest → PopTest) : (State.modPop s k f).wards = s.wards := by
  unfold State.modPop
  split <;> simp

@[simp] theorem State.workTouch_wards (s : State) (t : PopTest) (off n : Nat) : (State.workTouch s t off n).2.wards = s.wards
    := by
  unfold State.workTouch
  grind [State.memRead_wards, State.memWrite_wards, State.wards_update, State.wards_foldl]

@[simp] theorem State.workStore_wards (s : State) (t : PopTest) (v2 : List (Nat × List Byte)) :
    (State.workStore s t v2).2.wards = s.wards := by
  induction v2 generalizing s with
  | nil => rfl
  | cons x l ih =>
    obtain ⟨off, data⟩ := x
    have h := State.memWrite_wards s popCtx (t.work + off) data false
    unfold State.workStore
    split
    · rename_i heq
      rw [heq] at h
      exact (ih _).trans h
    all_goals (rename_i heq; rw [heq] at h; exact h)

@[simp] theorem State.popAsk_wards (s : State) (k : Nat) (l : List PopOp) : (State.popAsk s k l).wards = s.wards := by
  simp [State.popAsk]

@[simp] theorem State.tellFollowers_wards (s : State) (k : Nat) : (State.tellFollowers s k).wards = s.wards := by
  simp [State.tellFollowers]

@[simp] theorem State.tellChildren_wards (s : State) (t : PopTest) (kind : Nat) (body : List Byte) :
    (State.tellChildren s t kind body).wards = s.wards := by
  simp [State.tellChildren]

@[simp] theorem State.failTest_wards (s : State) (k st : Nat) : (State.failTest s k st).wards = s.wards := by
  unfold State.failTest
  split <;> simp

theorem popGo_wards (k : Nat) (r : Work × State) (f : List Byte → State → PopRun) (s : State) (hr : r.2.wards = s.wards)
    (hf : ∀ d u, u.wards = s.wards → (f d u).s.wards = s.wards) : (popGo k r f).s.wards = s.wards := by
  obtain ⟨w, u⟩ := r
  change u.wards = s.wards at hr
  cases w with
  | done d => exact hf d u hr
  | wait => exact hr
  | fail p => simpa [popGo] using hr

@[simp] theorem State.popRecord_wards (s : State) (k : Nat) (t : PopTest) (r : PopReading) : (s.popRecord k t r).s.wards =
    s.wards := by
  unfold State.popRecord
  extract_lets unflagged b binned off e
  split
  · simp
  · refine popGo_wards _ _ _ _ (by simp) (fun _ s1 h1 => ?_)
    split
    · refine popGo_wards _ _ _ _ (by simp [h1]) (fun c s2 h2 => ?_)
      exact popGo_wards _ _ _ _ (by simp [h2]) (fun _ s3 h3 => by simp [h3])
    · exact popGo_wards _ _ _ _ (by simp [h1]) (fun _ s2 h2 => by simp [h2])

@[simp] theorem State.popClose_wards (s : State) (k : Nat) (t : PopTest) : (s.popClose k t).s.wards = s.wards := by
  unfold State.popClose
  split
  · rfl
  · refine popGo_wards _ _ _ _ (by simp) (fun l s1 h1 => ?_)
    split
    · simp [h1]
    · refine popGo_wards _ _ _ _ (by simp [h1]) (fun m s2 h2 => ?_)
      exact popGo_wards _ _ _ _ (by simp [h2]) (fun _ s3 h3 => by simp [h3])

@[simp] theorem State.popSend_wards (s : State) (k : Nat) (t : PopTest) : (s.popSend k t).s.wards = s.wards := by
  unfold State.popSend
  extract_lets send
  split
  · rfl
  · split
    · simp [send]
    · exact popGo_wards _ _ _ _ (by simp) (fun d s1 h1 => by simp [send, h1])

@[simp] theorem State.popMerge_wards (s : State) (k : Nat) (t : PopTest) (src covered : Nat) (late : Bool) (u o : Nat)
    (bins : List Nat) : (s.popMerge k t src covered late u o bins).s.wards = s.wards := by
  unfold State.popMerge
  dsimp only
  split
  · simp
  · split
    · simp
    · split
      · simp
      · have h := State.workTouch_wards s t 0x4000 (4 * t.bins)
        split <;> (rename_i heq; rw [heq] at h)
        · exact popGo_wards _ _ _ _ (by simpa using h) (fun _ _ hu => by simpa using hu)
        · exact h
        · simpa using h

@[simp] theorem State.popFinal_wards (s : State) (k : Nat) (t : PopTest) (time : Nat) : (s.popFinal k t time).s.wards =
    s.wards := by
  unfold State.popFinal
  split
  · rfl
  · exact popGo_wards _ _ _ _ (by simp) (fun d s1 h1 => by simp [h1])

@[simp] theorem State.popFinalFrom_wards (s : State) (k : Nat) (t : PopTest) (body : List Byte) :
    (s.popFinalFrom k t body).s.wards = s.wards := by
  unfold State.popFinalFrom
  split <;> simp

@[simp] theorem State.popResolve_wards (s : State) (k : Nat) (t : PopTest) : (s.popResolve k t).s.wards = s.wards := by
  unfold State.popResolve
  split
  · rfl
  · split
    · rfl
    · refine popGo_wards _ _ _ _ (by simp) (fun d s1 h1 => ?_)
      exact popGo_wards _ _ _ _ (by simp [h1]) (fun _ s2 h2 => by simp [h2])

@[simp] theorem State.popUndo_wards (s : State) (k : Nat) (t : PopTest) (site : Nat) : (s.popUndo k t site).s.wards = s.wards
    := by
  unfold State.popUndo
  split
  · rfl
  · refine popGo_wards _ _ _ _ (by simp) (fun d s1 h1 => ?_)
    extract_lets e b gone inBin expected e1
    split
    · refine popGo_wards _ _ _ _ (by split <;> simp [h1]) (fun x s2 h2 => ?_)
      exact popGo_wards _ _ _ _ (by simp [h2]) (fun _ s3 h3 => by simp [h3])
    · exact popGo_wards _ _ _ _ (by simp [h1]) (fun _ s2 h2 => by simp [h2])

@[simp] theorem State.popRun_wards (s : State) (k : Nat) (t : PopTest) (op : PopOp) : (s.popRun k t op).s.wards = s.wards :=
    by
  unfold State.popRun
  split
  · exact popGo_wards _ _ _ _ (by simp) (fun _ s1 h1 => by simp [h1])
  · split <;> simp
  · split
    · rfl
    · refine popGo_wards _ _ _ _ (by simp) (fun d s1 h1 => ?_)
      exact popGo_wards _ _ _ _ (by simp [h1]) (fun _ s2 h2 => by simp [h2])
  · simp
  · simp
  · simp
  · simp
  · simp
  · simp
  · simp
  · split
    · rfl
    · exact popGo_wards _ _ _ _ (by simp) (fun _ s1 h1 => by simp [h1])
  · split <;> simp
  · simp

@[simp] theorem State.popPump_wards (v0 v1 : Nat) (s : State) : (State.popPump v0 v1 s).wards = s.wards := by
  induction v0 generalizing v1 s with
  | zero => rfl
  | succ fuel ih =>
    unfold State.popPump
    split
    · rfl
    · split
      · rfl
      · dsimp only
        split
        · rw [ih]; simp
        · simp

@[simp] theorem State.popGoOn_wards (s : State) (k : Nat) : (State.popGoOn s k).wards = s.wards := by
  simp [State.popGoOn]

@[simp] theorem State.popDo_wards (s : State) (k : Nat) (l : List PopOp) : (State.popDo s k l).wards = s.wards := by
  simp [State.popDo]

@[simp] theorem State.popLeave_wards (s : State) (site : Nat) : (State.popLeave s site).wards = s.wards := by
  unfold State.popLeave
  exact State.wards_foldl _ (fun _ _ => by split <;> simp) _ _

@[simp] theorem State.holdPin_wards (s : State) (g : Program) (x : SitePos) (p i j : Nat) : (State.holdPin s g x p i j).wards
    = s.wards := by
  refine State.modPin_wards s p _ (fun y => ?_) (fun y => ?_)
  all_goals
    unfold Pin.holdSymbol
    split <;> rfl

@[simp] theorem State.applyHold_wards (s : State) (b : Nat) (g : Program) (positions : Nat) :
    (State.applyHold s b g positions).wards = s.wards := by
  simp [State.applyHold]

@[simp] theorem State.settleResults_wards (s : State) (b : Nat) : (State.settleResults s b).wards = s.wards := by
  simp [State.settleResults]

@[simp] theorem State.closeWord_wards (s : State) (b : Nat) : (State.closeWord s b).wards = s.wards := by
  simp [State.closeWord]

@[simp] theorem State.showBuffer_wards (s : State) (n : Nat) : (State.showBuffer s n).wards = s.wards := by
  simp [State.showBuffer]

@[simp] theorem State.showRing_wards (s : State) (g : Nat) : (State.showRing s g).wards = s.wards := by
  simp [State.showRing]

@[simp] theorem State.leaveRing_wards (s : State) (lag : Bool) (n : Nat) : (State.leaveRing s lag n).wards = s.wards := by
  unfold State.leaveRing
  (repeat' split) <;> simp [*]

@[simp] theorem State.idleStreams_wards (s : State) (b : Nat) : (State.idleStreams s b).wards = s.wards := by
  simp [State.idleStreams]

@[simp] theorem State.showExec_wards (s : State) (b : Nat) : (State.showExec s b).wards = s.wards := by
  unfold State.showExec
  split <;> simp

@[simp] theorem State.completeAll_wards (s : State) (l : List Cmd) (st res : Nat) : (State.completeAll s l st res).wards =
    s.wards := by
  simp [State.completeAll]

@[simp] theorem State.endIssue_wards (s : State) (b : Nat) : (State.endIssue s b).wards = s.wards := by
  unfold State.endIssue
  split <;> simp [*]

@[simp] theorem State.keepEntries_wards (s : State) (n k : Nat) : (State.keepEntries s n k).wards = s.wards := by
  simp [State.keepEntries]

@[simp] theorem State.departGroup_wards (s : State) (b : Nat) (lag : Bool) : (State.departGroup s b lag).wards = s.wards :=
    by
  simp [State.departGroup]

@[simp] theorem State.dropRingFrom_wards (s : State) (g k : Nat) : (State.dropRingFrom s g k).wards = s.wards := by
  simp [State.dropRingFrom]

@[simp] theorem State.alignStreams_wards (s : State) (b : Nat) : (State.alignStreams s b).wards = s.wards := by
  unfold State.alignStreams
  grind [State.departGroup_wards, State.keepEntries_wards, State.dropRingFrom_wards, State.wards_update, State.wards_foldl]

@[simp] theorem State.modMicro_wards (s : State) (b : Nat) (f : Micro → Micro) : (State.modMicro s b f).wards = s.wards := by
  simp [State.modMicro]

@[simp] theorem State.runSlot_wards (s : State) (b i : Nat) : (State.runSlot s b i).wards = s.wards := by
  unfold State.runSlot
  split <;> simp [*]

@[simp] theorem State.scheduleOr_wards (s : State) (b : Nat) (last : State → State)
    (hlast : ∀ x0, (last x0).wards = State.wards x0) : (State.scheduleOr s b last).wards = s.wards := by
  unfold State.scheduleOr
  (repeat' split) <;> simp [*]

@[simp] theorem State.freeRunning_wards (s : State) (b : Nat) : (State.freeRunning s b).wards = s.wards := by
  simp [State.freeRunning]

@[simp] theorem State.endSlot_wards (s : State) (b : Nat) : (State.endSlot s b).wards = s.wards := by
  unfold State.endSlot
  split <;> simp [*]

@[simp] theorem State.showStreamSeq_wards (s : State) (b v : Nat) : (State.showStreamSeq s b v).wards = s.wards := by
  simp [State.showStreamSeq]

@[simp] theorem State.reconvergeOr_wards (s : State) (b addr : Nat) (last : State → State)
    (hlast : ∀ x0, (last x0).wards = State.wards x0) : (State.reconvergeOr s b addr last).wards = s.wards := by
  unfold State.reconvergeOr
  dsimp only
  (repeat' split) <;> simp [*]

@[simp] theorem State.retireSites_wards (s : State) (b : Nat) : (State.retireSites s b).wards = s.wards := by
  simp [State.retireSites]

@[simp] theorem State.retireOr_wards (s : State) (b : Nat) (last : State → State)
    (hlast : ∀ x0, (last x0).wards = State.wards x0) : (State.retireOr s b last).wards = s.wards := by
  simp [State.retireOr, hlast]

@[simp] theorem State.endTrap_wards (s : State) (b : Nat) : (State.endTrap s b).wards = s.wards := by
  unfold State.endTrap
  (repeat' split) <;> simp [*]

@[simp] theorem State.noSlotLeft_wards (s : State) (b : Nat) : (State.noSlotLeft s b).wards = s.wards := by
  unfold State.noSlotLeft
  split <;> simp [*]

@[simp] theorem State.assertCause_wards (s : State) (b : Nat) {p : Nat} (k : Nat) (hp : p < 8) :
    (State.assertCause s b p k).wards = s.wards := by
  obtain ⟨hc, -⟩ := Reg.siteEntry_offDeckle b hp
  simp [State.assertCause, hc]

@[simp] theorem State.modDps_wards (s : State) (n : Nat) (f : Dps → Dps) : (State.modDps s n f).wards = s.wards := by
  simp [State.modDps]

@[simp] theorem State.showTrip_wards (s : State) (n : Nat) : (State.showTrip s n).wards = s.wards := by
  simp [State.showTrip]

@[simp] theorem State.showTrips_wards (s : State) (l : Nat) : (State.showTrips s l).wards = s.wards := by
  simp [State.showTrips]

@[simp] theorem State.endRuns_wards (s : State) (l action st : Nat) : (State.endRuns s l action st).wards = s.wards := by
  simp [State.endRuns]

@[simp] theorem State.dpsEnter_wards (s : State) (l st : Nat) : (State.dpsEnter s l st).wards = s.wards := by
  simp [State.dpsEnter]

@[simp] theorem State.dpsOffReq_wards (s : State) (l status : Nat) : (State.dpsOffReq s l status).wards = s.wards := by
  simp [State.dpsOffReq]

@[simp] theorem State.dpsSiteOff_wards (s : State) (x : SitePos) (status : Nat) : (State.dpsSiteOff s x status).wards =
    s.wards := by
  simp [State.dpsSiteOff]

@[simp] theorem State.dpsRamp_wards (s : State) (l : Nat) : (State.dpsRamp s l).wards = s.wards := by
  simp [State.dpsRamp]

@[simp] theorem State.dpsDeckleOff_wards (s : State) (l : Nat) : (State.dpsDeckleOff s l).wards = s.wards := by
  simp [State.dpsDeckleOff]

@[simp] theorem State.dpsKind_wards (s : State) (quantity n : Nat) : (State.dpsKind s quantity n).2.wards = s.wards := by
  simp [State.dpsKind]

@[simp] theorem State.dpsDeliver_wards (s : State) (l quantity : Nat) (m : DpsMeas) (test status n : Nat) (value : Int)
    (flags : Nat) : (State.dpsDeliver s l quantity m test status n value flags).wards = s.wards := by
  unfold State.dpsDeliver
  (repeat' split) <;> simp [*]

@[simp] theorem State.dpsFinish_wards (s : State) (l : Nat) (m : DpsMeas) (status n : Nat) (v i : Int) (flagsV flagsI : Nat)
    : (State.dpsFinish s l m status n v i flagsV flagsI).wards = s.wards := by
  unfold State.dpsFinish
  (repeat' split) <;> simp [*]

@[simp] theorem State.dpsForget_wards (s : State) (l : Nat) : (State.dpsForget s l).wards = s.wards := by
  simp [State.dpsForget]

@[simp] theorem State.dpsCut_wards (s : State) (l status : Nat) : (State.dpsCut s l status).wards = s.wards := by
  unfold State.dpsCut
  split <;> simp [*]

@[simp] theorem State.clearEntry_wards (s : State) (b : Nat) {p : Nat} (hp : p < 8) : (State.clearEntry s b p).wards =
    s.wards := by
  obtain ⟨hc, hr⟩ := Reg.siteEntry_offDeckle b hp
  simp [State.clearEntry, hc, hr]

@[simp] theorem State.modTmu_wards (s : State) (n : Nat) (f : Tmu → Tmu) : (State.modTmu s n f).wards = s.wards := by
  simp [State.modTmu]

@[simp] theorem State.tmuSend_wards (s : State) (n : Nat) (m : TmuArm) (v : TmuValue) (bits events : Nat)
    (index cellTime : Nat) : (State.tmuSend s n m v bits events index cellTime).wards = s.wards := by
  unfold State.tmuSend
  (repeat' split) <;> simp [*]

@[simp] theorem State.forgetReading_wards (s : State) (b serial : Nat) : (State.forgetReading s b serial).wards = s.wards :=
    by
  simp [State.forgetReading]

@[simp] theorem State.tmuIdle_wards (s : State) (n : Nat) : (State.tmuIdle s n).wards = s.wards := by
  simp [State.tmuIdle]

@[simp] theorem State.tmuOver_wards (s : State) (n : Nat) (m : TmuArm) (status : Nat) (fine : Int) (events bits : Nat) :
    (State.tmuOver s n m status fine events bits).wards = s.wards := by
  unfold State.tmuOver
  split <;> simp [*]

@[simp] theorem State.tmuAbort_wards (s : State) (n status : Nat) : (State.tmuAbort s n status).wards = s.wards := by
  unfold State.tmuAbort
  dsimp only
  (repeat' split) <;> simp [*]

@[simp] theorem State.tmuCloseSite_wards (s : State) (b position : Nat) : (State.tmuCloseSite s b position).wards = s.wards
    := by
  unfold State.tmuCloseSite
  grind [State.tmuAbort_wards, State.wards_update, State.wards_foldl]

@[simp] theorem State.modDg_wards (s : State) (c : Nat) (f : Dg → Dg) : (State.modDg s c f).wards = s.wards := by
  simp [State.modDg]

@[simp] theorem State.acqRecord_wards (s : State) (c : Nat) (m : DgArm) (r typ : Nat) (status cellTime : Nat)
    (suspect : Bool) (body : List Byte) : (State.acqRecord s c m r typ status cellTime suspect body).wards = s.wards := by
  simp [State.acqRecord]

@[simp] theorem State.dgCloseExtent_wards (s : State) (c : Nat) (m : DgArm) (status : Nat) :
    (State.dgCloseExtent s c m status).wards = s.wards := by
  unfold State.dgCloseExtent
  dsimp only
  (repeat' split) <;> simp [*]

@[simp] theorem State.dgGapRecord_wards (s : State) (c : Nat) (m : DgArm) (start r : Nat) (cause status : Nat)
    (first len flags : Nat) : (State.dgGapRecord s c m start r cause status first len flags).wards = s.wards := by
  simp [State.dgGapRecord]

@[simp] theorem State.dgCloseGap_wards (s : State) (c : Nat) (m : DgArm) : (State.dgCloseGap s c m).wards = s.wards := by
  unfold State.dgCloseGap
  split <;> simp [*]

@[simp] theorem State.dgDeliver_wards (s : State) (c : Nat) (m : DgArm) (r status : Nat) (value : Int) (flags cellTime : Nat)
    (feeds : Bool) : (State.dgDeliver s c m r status value flags cellTime feeds).wards = s.wards := by
  unfold State.dgDeliver
  (repeat' split) <;> simp [*]

@[simp] theorem State.dgIdle_wards (s : State) (c : Nat) : (State.dgIdle s c).wards = s.wards := by
  simp [State.dgIdle]

@[simp] theorem State.dgOver_wards (s : State) (c : Nat) (m : DgArm) (override : Option Nat) :
    (State.dgOver s c m override).wards = s.wards := by
  unfold State.dgOver
  (repeat' split) <;> simp [*]

@[simp] theorem State.dgAbort_wards (s : State) (c status : Nat) : (State.dgAbort s c status).wards = s.wards := by
  unfold State.dgAbort
  split <;> simp [*]

@[simp] theorem State.dgCloseSite_wards (s : State) (b position : Nat) : (State.dgCloseSite s b position).wards = s.wards :=
    by
  unfold State.dgCloseSite
  grind [State.dgAbort_wards, State.wards_update, State.wards_foldl]

@[simp] theorem State.markRecords_wards (s : State) (b site : Nat) : (State.markRecords s b site).wards = s.wards := by
  simp [State.markRecords]

@[simp] theorem State.untest_wards (s : State) (b p : Nat) : (State.untest s b p).wards = s.wards := by
  unfold State.untest
  dsimp only
  split
  · rfl
  · split
    · exact State.putGroup_wards rfl
    · rfl

@[simp] theorem State.siteDropped_wards (s : State) (b p : Nat) : (State.siteDropped s b p).wards = s.wards := by
  unfold State.siteDropped
  split <;> simp [*]

@[simp] theorem State.deckleRecord_wards (s : State) (b site : Nat) (cause time last : Nat) :
    (State.deckleRecord s b site cause time last).wards = s.wards := by
  simp [State.deckleRecord]

end Sys2Proof.Machine
end

section
/-! SUPPORT. Deckle closures and the ends of contact checks (R40, R41, R42): what their rows leave. -/

namespace Sys2Proof.Machine

open Sys2Proof

theorem State.fld_of_deckle {s t : State} (h : t.wards.deckle = s.wards.deckle) {b : Nat} (hb : b < 64) {f : Fld}
    (hf : f.addr = Reg.seqB b + 0x110) : t.fld f = s.fld f := by
  have hq : t.quad (Reg.seqB b + 0x110) = s.quad (Reg.seqB b + 0x110) := congrFun h ⟨b, hb⟩
  unfold State.fld
  rw [hf, hq]

/-- A pin of a closed Deckle: in its safe state, and disconnected (R40). -/
def Pin.warded (x : Pin) : Prop := x.safe.isSome = true ∧ x.connected = false

/-- From `s` to `t` the DECKLE_STATE registers are kept, and what a Deckle closure settles of each pin but p. -/
structure State.apartFrom (p : Nat) (s t : State) : Prop where
  deckle : t.wards.deckle = s.wards.deckle
  guard : ∀ n ≠ p, t.wards.guard n = s.wards.guard n

theorem State.apartFrom_of_wards {s t : State} (p : Nat) (h : t.wards = s.wards) : State.apartFrom p s t :=
  ⟨congrArg Wards.deckle h, fun n _ => congrFun (congrArg Wards.guard h) n⟩

theorem State.apartFrom_trans {p : Nat} {s t u : State} (h : State.apartFrom p s t) (g : State.apartFrom p t u) :
    State.apartFrom p s u :=
  ⟨g.deckle.trans h.deckle, fun n hn => (g.guard n hn).trans (h.guard n hn)⟩

theorem State.pin_modPin_self (s : State) (p : Nat) (f : Pin → Pin) : (s.modPin p f).pin p = f (s.pin p) :=
  SMap.get_put_self ..

theorem State.pin_modPin_other (s : State) {p n : Nat} (f : Pin → Pin) (h : n ≠ p) : (s.modPin p f).pin n = s.pin n :=
  SMap.get_put_other _ _ _ h

theorem State.modPin_apartFrom (s : State) (p : Nat) (f : Pin → Pin) : State.apartFrom p s (s.modPin p f) := by
  refine ⟨rfl, fun n hn => ?_⟩
  unfold State.wards
  dsimp only
  rw [State.pin_modPin_other s f hn]

theorem State.contactRecord_apartFrom (s : State) (p : Nat) (m : PinMeas) (status conversions : Nat) (value : Int) (flags
    start : Nat)
    (outside : Bool) : State.apartFrom p s (s.contactRecord p m status conversions value flags start outside) := by
  unfold State.contactRecord
  exact State.apartFrom_trans (State.modPin_apartFrom s p _) (State.apartFrom_of_wards p (State.enterRecord_wards ..))

theorem State.deliverPin_apartFrom (s : State) (p : Nat) (m : PinMeas) (status conversions : Nat) (value : Int) (flags start
    : Nat) :
    State.apartFrom p s (s.deliverPin p m status conversions value flags start) := by
  unfold State.deliverPin
  extract_lets s1 s2
  have h : s2.wards = s.wards := by
    simp [s2, s1]
  split
  · exact State.apartFrom_of_wards p (by simp [h])
  · refine State.apartFrom_trans (State.apartFrom_of_wards p h) ?_
    exact State.apartFrom_trans (State.modPin_apartFrom s2 p _) (State.apartFrom_of_wards p (State.ppmuPinDone_wards ..))
  · exact State.apartFrom_of_wards p h

theorem State.closePin_apartFrom (s : State) (x : SitePos) (cut : List PartialConv) (p : Nat) :
    State.apartFrom p s (s.closePin x cut p) := by
  unfold State.closePin
  extract_lets s1
  have h : State.apartFrom p s s1 := by
    unfold s1
    split
    · exact State.apartFrom_of_wards p rfl
    · extract_lets c cl s2
      split
      · exact State.contactRecord_apartFrom ..
      · refine State.apartFrom_trans (State.apartFrom_of_wards p (t := s2) (by simp [s2])) ?_
        exact State.apartFrom_trans (State.modPin_apartFrom s2 p _) (State.deliverPin_apartFrom ..)
  exact State.apartFrom_trans h (State.modPin_apartFrom s1 p _)

theorem State.closePin_warded (s : State) (x : SitePos) (cut : List PartialConv) (p : Nat) : ((s.closePin x cut p).pin
    p).warded := by
  unfold State.closePin
  rw [State.pin_modPin_self]
  exact ⟨rfl, rfl⟩

theorem State.warded_of_guard {s t : State} {n : Nat} (h : t.wards.guard n = s.wards.guard n) (hs : (s.pin n).warded) :
    (t.pin n).warded := by
  obtain ⟨hsafe, hconn⟩ := Prod.mk.inj h
  exact ⟨hsafe ▸ hs.1, hconn.trans hs.2⟩

theorem State.closePin_keeps_warded {s : State} {n : Nat} (h : (s.pin n).warded) (x : SitePos) (cut : List PartialConv) (p :
    Nat) :
    ((s.closePin x cut p).pin n).warded := by
  by_cases hn : n = p
  · subst hn
    exact s.closePin_warded x cut n
  · exact State.warded_of_guard ((s.closePin_apartFrom x cut p).guard n hn) h

theorem State.closePins_warded (s : State) (x : SitePos) (cut : List PartialConv) {l : List Nat} {n : Nat} (h : n ∈ l ∨
    (s.pin n).warded) :
    ((l.foldl (fun s n => s.closePin x cut n) s).pin n).warded := by
  induction l generalizing s with
  | nil => exact h.resolve_left (List.not_mem_nil)
  | cons p l ih =>
    refine ih (s.closePin x cut p) ?_
    rcases h with h | h
    · rcases List.mem_cons.mp h with rfl | h
      · exact .inr (s.closePin_warded x cut n)
      · exact .inl h
    · exact .inr (State.closePin_keeps_warded h x cut p)

theorem State.closePins_deckle (s : State) (x : SitePos) (cut : List PartialConv) (l : List Nat) :
    (l.foldl (fun s n => s.closePin x cut n) s).wards.deckle = s.wards.deckle := by
  induction l generalizing s with
  | nil => rfl
  | cons p l ih => exact (ih _).trans (s.closePin_apartFrom x cut p).deckle

theorem bitOf_closed (m p : Nat) (hp : p < 8) : bitOf (orMask m (2 ^ p) % 2 ^ 8) p = true := by
  rw [bitOf_eq_testBit, orMask, Nat.testBit_mod_two_pow, Nat.testBit_or, Nat.testBit_two_pow_self]
  simp [hp]

/-- What a Deckle closure leaves: CLOSED of the position, and the site's pins in their safe states. -/
theorem doDeckleClosure_closes {s : State} {b p : Nat} (hb : b < 64) (hp : p < 8) (cut : List PartialConv) {x : SitePos} {k :
    Nat × Nat}
    (hk : SMap.find s.causes (causeKey b p) = some k) (hx : s.sitePos b p = some x) :
    bitOf ((doDeckleClosure b p cut s).closedMask b) p = true ∧ ∀ n ∈ x.pins, ((doDeckleClosure b p cut s).pin n).warded := by
  unfold doDeckleClosure
  split
  · next cause time y hk' hx' =>
    obtain rfl : x = y := Option.some.inj (hx.symm.trans hx')
    extract_lets last ser s1 s2 s3 s4 s5 s6
    have hend : (s6.raise 4 b (x.site + 512 * cause)).wards = (x.pins.foldl (fun s n => s.closePin x cut n) s2).wards := by
      simp [s6, s5, s4, s3]
    have hclosed : s2.closedMask b = orMask (s1.closedMask b) (2 ^ p) % 2 ^ 8 := State.fld_setFld_self _ _ _ (show 8 + 8 ≤ 64
      by decide)
    refine ⟨?_, fun n hn => ?_⟩
    · have hkept : (s6.raise 4 b (x.site + 512 * cause)).closedMask b = s2.closedMask b :=
        State.fld_of_deckle ((congrArg Wards.deckle hend).trans (s2.closePins_deckle x cut x.pins)) hb rfl
      rw [hkept, hclosed]
      exact bitOf_closed _ p hp
    · exact State.warded_of_guard (congrFun (congrArg Wards.guard hend) n) (s2.closePins_warded x cut (.inl hn))
  · next h => exact (h _ _ _ hk hx).elim

theorem State.assertCause_groups (s : State) (b p k : Nat) : (s.assertCause b p k).groups = s.groups := by
  unfold State.assertCause
  split
  · rfl
  · split <;> rfl

theorem mem_setBits {n k i : Nat} : i ∈ setBits n k ↔ i < k ∧ bitOf n i = true := by
  simp [setBits]

/-- Causes asserted at several positions of a group. -/
theorem State.assertCauses_wards (s : State) (b k : Nat) {l : List Nat} (hl : ∀ p ∈ l, p < 8) :
    (l.foldl (fun s p => s.assertCause b p k) s).wards = s.wards :=
  State.foldl_same_of_mem State.wards (fun t p hp => State.assertCause_wards t b k (hl p hp)) s

theorem State.assertCauses_groups (s : State) (b k : Nat) (l : List Nat) :
    (l.foldl (fun s p => s.assertCause b p k) s).groups = s.groups :=
  State.foldl_same State.groups (fun t p => t.assertCause_groups b p k) l s

theorem State.epoch_of_frozen {s t : State} (h : t.frozen = s.frozen) : t.hi.epoch = s.hi.epoch :=
  congrArg (fun z => z.2.2.2.2.2.2) h

/-- What the end of a contact check of the pins `pins` leaves where the judged readings name the positions `failed`. -/
theorem doContactCheckEnd_ends {s : State} {b : Nat} (hb : b < 64) (start : Nat) {l : List (BitVec 18 × Bool)} {r : ContactRun}
    (hr : (s.group b).contact = some r) (he : r.cmd.epoch = s.hi.epoch)
    (hl : ((s.contactPins b r.positions).filter (fun q => (s.pin q.1).meas.isSome)).length = l.length) {hit failed : Nat}
    (hhit : hit = andMask r.positions (s.causePending b))
    (hf : failed = ofBits ((((((s.contactPins b r.positions).filter (fun q => (s.pin q.1).meas.isSome)).zip l).filter
      (fun x => !bitOf hit x.1.2.position && (s.contactJudge r.cmd x.1.1 x.2.1).2)).map (fun x => x.1.2.position)).dedup)) :
    ((doContactCheckEnd b start l s).group b).contact = none ∧
      (doContactCheckEnd b start l s).fld (Reg.DECKLE_STATE_CONTACT_FAIL b) = failed % 2 ^ 8 ∧
      (doContactCheckEnd b start l s).memData = s.memData ∧
      (doContactCheckEnd b start l s).reported r.cmd 0
        (minusMask (minusMask r.positions hit) failed + 2 ^ 8 * failed + 2 ^ 16 * orMask r.untested hit) := by
  unfold doContactCheckEnd
  split
  · next h => cases hr.symm.trans h
  · next r' hr' =>
    obtain rfl : r = r' := Option.some.inj (hr.symm.trans hr')
    extract_lets pins hit' judged failed' s1 g s2 s3
    obtain rfl : hit = hit' := hhit
    have hfailed : failed = failed' := by
      rw [hf]
      simp [failed', judged, pins, List.filter_map, List.filter_filter, Function.comp_def, Bool.and_comm]
    rw [if_neg (not_not_intro hl)]
    have hlt : ∀ p ∈ setBits failed' 8, p < 8 := fun p hp => (mem_setBits.mp hp).1
    have hframe : s1.frozen = s.frozen ∧ s1.memData = s.memData := by
      refine ⟨State.frozen_foldl _ (fun u x => ?_) _ _, State.memData_foldl _ (fun u x => ?_) _ _⟩
      all_goals
        split
        · rfl
        · simp
    obtain ⟨hfrozen, hmem⟩ := hframe
    clear_value s1
    have hgroups : (s3.complete r.cmd 0 (minusMask (minusMask r.positions hit') failed' + 2 ^ 8 * failed' +
        2 ^ 16 * orMask r.untested hit')).groups = SMap.put s1.groups b { g with contact := none } := by
      rw [State.complete_groups, State.assertCauses_groups, State.setFld_groups]
    have hwards : s3.wards = s2.wards := State.assertCauses_wards s2 b 2 hlt
    refine ⟨?_, ?_, ?_, ?_⟩
    · unfold State.group
      rw [hgroups, SMap.get_put_self]
    · rw [State.fld_of_deckle (congrArg Wards.deckle ((State.complete_wards ..).trans hwards)) hb rfl, hfailed]
      exact State.fld_setFld_self _ _ _ (show 16 + 8 ≤ 64 by decide)
    · simp [s3, s2, hmem]
    · rw [hfailed]
      exact State.complete_reported _ _ _ _ (he.trans (State.epoch_of_frozen (by simp [s3, s2, hfrozen])).symm)

/-- Settles O17: from the cause that closes on, what a closure touches keeps the closed Deckle and the pins in their safe
  states. -/
theorem closureAndContactEnd : Obligations.ClosureAndContactEnd := by
  unfold Obligations.ClosureAndContactEnd
  refine ⟨fun s b p cut x k hup hk hx => ?_, fun s b start l r hup hr he hl => ?_⟩
  · obtain ⟨hclosed, hpins⟩ := doDeckleClosure_closes b.isLt p.isLt cut hk hx
    exact ⟨_, event_next hup (doDeckleClosure_frozen ..), hclosed, hpins⟩
  · obtain ⟨hgroup, hfail, hmem, hrep⟩ := doContactCheckEnd_ends b.isLt start.toNat hr he hl rfl rfl
    exact ⟨_, _, _, event_next hup (doContactCheckEnd_frozen ..), hgroup, rfl, rfl, hfail, hmem, hrep⟩

end Sys2Proof.Machine
end

section
/-! SUPPORT. Site commands (R37, R38, R39, R40, R41): what their rows leave once every check holds. -/

namespace Sys2Proof.Machine

open Sys2Proof

/-! ### Commands that reach their unit -/

/-- A command leaves its queue: the unit sees the state it had, but for the count of dispatched commands. -/
theorem State.undispatch_eq (s : State) (c : Cmd) : ∃ h : HostIf, s.undispatch c = { s with hi := h } ∧ h.epoch = s.hi.epoch := by
  refine ⟨(s.undispatch c).hi, ?_, State.epoch_of_frozen (State.undispatch_frozen s c)⟩
  unfold State.undispatch
  split
  · rfl
  · unfold State.accepts
    split <;> rfl

theorem firstFailing_cons {bad : Bool} {st : Nat} {l : List (Bool × Nat)} (hb : bad = false) (hl : firstFailing l = none) :
    firstFailing ((bad, st) :: l) = none := by
  subst hb
  exact hl

/-! ### DECKLE_CLOSE and CONTACT_CHECK -/

theorem State.masks_of_wards {s t : State} (h : t.wards = s.wards) {b : Nat} (hb : b < 64) :
    t.enabledMask b = s.enabledMask b ∧ t.closedMask b = s.closedMask b :=
  ⟨State.fld_of_deckle (congrArg Wards.deckle h) hb rfl, State.fld_of_deckle (congrArg Wards.deckle h) hb rfl⟩

theorem bitOf_orMask (m n k : Nat) : bitOf (orMask m n) k = (bitOf m k || bitOf n k) := by
  simp only [bitOf_eq_testBit, orMask, Nat.testBit_or]

theorem bitOf_two_pow (k : Nat) : bitOf (2 ^ k) k = true := by
  rw [bitOf_eq_testBit, Nat.testBit_two_pow_self]

/-- Cause k is asserted of position p of the group led by b (R40). -/
def State.asserted (s : State) (b p k : Nat) : Prop := bitOf (SMap.get (0, 0) s.causes (causeKey b p)).1 k = true

theorem State.assertCause_asserted {s : State} {b p : Nat} (k : Nat) (he : bitOf (s.enabledMask b) p = true)
    (hc : bitOf (s.closedMask b) p = false) : (s.assertCause b p k).asserted b p k := by
  unfold State.asserted State.assertCause
  simp only [he, hc, Bool.not_true, Bool.false_eq_true, if_false]
  rw [SMap.get_put_self, bitOf_orMask, bitOf_two_pow, Bool.or_true]

theorem State.assertCause_keeps_asserted {s : State} {b p : Nat} {k : Nat} (h : s.asserted b p k) (q : Nat) :
    (s.assertCause b q k).asserted b p k := by
  unfold State.assertCause
  split
  · exact h
  · split
    · exact h
    · unfold State.asserted
      dsimp only
      by_cases hpq : causeKey b p = causeKey b q
      · rw [hpq, SMap.get_put_self, bitOf_orMask, bitOf_two_pow, Bool.or_true]
      · rw [SMap.get_put_other _ _ _ hpq]
        exact h

theorem State.assertCauses_asserted {s : State} {b k : Nat} (hb : b < 64) {l : List Nat} (hl : ∀ q ∈ l, q < 8) {p : Nat}
    (h : p ∈ l ∨ s.asserted b p k) (he : bitOf (s.enabledMask b) p = true) (hc : bitOf (s.closedMask b) p = false) :
    (l.foldl (fun s p => s.assertCause b p k) s).asserted b p k := by
  induction l generalizing s with
  | nil => exact h.resolve_left List.not_mem_nil
  | cons q l ih =>
    obtain ⟨hen, hcl⟩ := State.masks_of_wards (State.assertCause_wards s b k (hl q (List.mem_cons_self ..))) hb
    refine ih (fun r hr => hl r (List.mem_cons_of_mem _ hr)) ?_ (by rw [hen]; exact he) (by rw [hcl]; exact hc)
    rcases h with h | h
    · rcases List.mem_cons.mp h with rfl | h
      · exact .inr (State.assertCause_asserted k he hc)
      · exact .inl h
    · exact .inr (State.assertCause_keeps_asserted h q)

theorem State.assertCause_pins (s : State) (b p k : Nat) : (s.assertCause b p k).pins = s.pins := by
  unfold State.assertCause
  split
  · rfl
  · split <;> rfl

theorem State.asserted_of_causes {s t : State} (h : t.causes = s.causes) {b p k : Nat} (hs : s.asserted b p k) : t.asserted b
    p k := by
  unfold State.asserted
  rw [h]
  exact hs

theorem doDeckleClose_asserts {s : State} {c : Cmd} (hepoch : c.epoch = s.hi.epoch) (hres : c.reservedSet [(8, 1)] = false)
    (hlead : s.notLeader c.target = false) (hunits : firstFailing (s.unitChecks (s.groupUnits c.target)) = none) :
    (doDeckleClose c s).reported c 0 (andMask (c.field 8 1) (s.openMask c.target)) ∧ (doDeckleClose c s).memData = s.memData ∧
      (doDeckleClose c s).pins = s.pins ∧
      ∀ p < 8, bitOf (c.field 8 1) p = true → bitOf (s.enabledMask c.target) p = true → bitOf (s.closedMask c.target) p = false →
        (doDeckleClose c s).asserted c.target p 3 := by
  have hb : c.target < 64 := by
    simp only [State.notLeader, Bool.or_eq_false_iff, decide_eq_false_iff_not] at hlead
    omega
  have hl : ∀ q ∈ setBits (c.field 8 1) 8, q < 8 := fun q hq => (mem_setBits.mp hq).1
  unfold doDeckleClose
  dsimp only
  rw [State.checked_pass _ _ _ _ (firstFailing_cons (by simp [hres, hlead]) hunits)]
  refine ⟨State.complete_reported _ _ _ _ (hepoch.trans (State.epoch_of_frozen (by simp)).symm), by simp, ?_, fun p hp hm he
    hc => ?_⟩
  · exact (State.complete_pins ..).trans (State.foldl_same State.pins (fun u p => State.assertCause_pins u _ p 3) _ s)
  · exact State.asserted_of_causes (State.complete_causes ..)
      (State.assertCauses_asserted hb hl (.inl (mem_setBits.mpr ⟨hp, hm⟩)) he hc)

theorem doContactCheck_starts {s : State} {c : Cmd} (hres : c.reservedSet [(8, 2), (16, 5), (24, 16)] = false)
    (hlead : s.notLeader c.target = false) (hbad : contactBad c = false)
    (hunits : firstFailing (s.unitChecks (s.groupUnits c.target)) = none) (hprog : s.program c.target = none)
    (hrun : (s.group c.target).contact = none) (hmeas : ∀ p, (s.pin p).meas = none)
    (hopen : andMask (c.field 8 1) (s.openMask c.target) ≠ 0) :
    ∃ r, ((doContactCheck c s).group c.target).contact = some r ∧ r.cmd = c ∧
      r.positions = andMask (c.field 8 1) (s.openMask c.target) ∧ (doContactCheck c s).memData = s.memData ∧
      (doContactCheck c s).regs = s.regs := by
  unfold doContactCheck
  dsimp only
  rw [State.checked_pass _ _ _ _ (firstFailing_cons (by simp [hres, hlead, hbad]) hunits), if_neg (by simp [hprog]),
    if_neg (by simp [hrun, hmeas]), if_neg hopen]
  refine ⟨{ cmd := c, positions := andMask (c.field 8 1) (s.openMask c.target),
            untested := minusMask (c.field 8 1) (andMask (c.field 8 1) (s.openMask c.target)) }, ?_, rfl, rfl, ?_, ?_⟩
  · unfold State.group
    rw [State.foldl_same State.groups (by intro u q; rfl), SMap.get_put_self]
  · exact State.foldl_same State.memData (by intro u q; rfl) _ _
  · exact State.foldl_same State.regs (by intro u q; rfl) _ _

/-! ### SITE_REG_LOAD -/

/-- A read that answers with data and no poison is one that the checks of a command read whole. -/
theorem prePieces_of_readPieces {fuel : Nat} {x : MemCtx} {va n : Nat} {s t : State} {d : List Byte}
    (h : readPieces fuel x va n s = (.ok d none, t)) : prePieces fuel x va n s = ((d.map some, {}), t) := by
  induction fuel generalizing va n s t d with
  | zero =>
    cases h
    rfl
  | succ fuel ih =>
    unfold readPieces at h
    unfold prePieces
    split at h
    · next hn =>
      cases h
      rw [if_pos hn]
      rfl
    · next hn =>
      rw [if_neg hn]
      dsimp only at h ⊢
      split at h
      · next d1 p s1 hpiece =>
        split at h
        · next d2 p' s2 hrest =>
          obtain ⟨⟨rfl, rfl, rfl⟩, rfl⟩ : (d1 ++ d2 = d ∧ p = none ∧ p' = none) ∧ s2 = t := by simpa using h
          rw [hpiece]
          dsimp only
          rw [ih hrest]
          simp [preGot, Pre.and, worseRead]
        · next hno => exact (hno _ _ _ h).elim
      · next hno => exact (hno _ _ _ h).elim

theorem allRead_map_some (d : List Byte) : allRead (d.map some) = some d := by
  simp [allRead, Function.comp_def]

theorem State.withRead_of_memRead {s t : State} {x : MemCtx} {va n : Nat} {d : List Byte} (h : s.memRead x va n = (.ok d none, t))
    (c : Cmd) (k : List Byte → State → State) : s.withRead c x va n k = k d t := by
  unfold State.withRead State.withReadOr State.preRead
  rw [prePieces_of_readPieces h]
  dsimp only
  rw [allRead_map_some]
  rfl

/-- What the interrupt of a completion queue writes lies in the host interface's registers. -/
theorem State.deliverVector_quad (s : State) (v : Nat) {a : Nat} (ha : 0x2000 ≤ a) : (s.deliverVector v).quad a = s.quad a := by
  have hsent : (Reg.HI_MSIX_SENT).addr ≠ a := Nat.ne_of_lt (Nat.lt_of_lt_of_le (by decide) ha)
  have hpme : (Reg.HI_PME_SENT).addr ≠ a := Nat.ne_of_lt (Nat.lt_of_lt_of_le (by decide) ha)
  unfold State.deliverVector
  dsimp only
  split
  · split
    · exact State.quad_bump_other _ 1 hpme
    · rfl
  · split
    · rfl
    · split
      · rfl
      · split
        · rfl
        · split
          · rfl
          · exact State.quad_bump_other _ 1 hsent

theorem State.moderateCq_quad (s : State) (q : Nat) {a : Nat} (ha : 0x2000 ≤ a) : (s.moderateCq q).quad a = s.quad a := by
  unfold State.moderateCq
  dsimp only
  split
  · exact State.deliverVector_quad _ _ ha
  · rfl

/-- A completion writes registers of the host interface only. -/
theorem State.complete_quad (s : State) (c : Cmd) (st res : Nat) {a : Nat} (ha : 0x2000 ≤ a) : (s.complete c st res).quad a =
    s.quad a := by
  have hgone : (Reg.HI_DISCARDED).addr ≠ a := Nat.ne_of_lt (Nat.lt_of_lt_of_le (by decide) ha)
  have hfull : (Reg.HI_STATUS_BUF_FULL).addr ≠ a := Nat.ne_of_lt (Nat.lt_of_lt_of_le (by decide) ha)
  have hreleased : (s.released c).quad a = s.quad a := by
    unfold State.released
    split <;> rfl
  unfold State.complete State.completeTo
  dsimp only
  split
  · exact (State.quad_bump_other _ 1 hgone).trans hreleased
  · split
    · exact hreleased
    · split
      · exact (State.moderateCq_quad _ _ ha).trans ((State.quad_setFlag_other _ _ hfull).trans hreleased)
      · exact (State.quad_setFlag_other _ _ hfull).trans hreleased

theorem siteReg_apart {b p q : Nat} (h : p ≠ q) : (Reg.SITE_REG b p).addr ≠ (Reg.SITE_REG b q).addr := by
  simp only [Reg.SITE_REG]
  omega

theorem State.setSiteRegs_fld {s : State} {b p : Nat} (v : Nat → Nat) {l : List Nat}
    (h : p ∈ l ∨ s.fld (Reg.SITE_REG b p) = v p % 2 ^ 64) :
    (l.foldl (fun s p => s.setFld (Reg.SITE_REG b p) (v p)) s).fld (Reg.SITE_REG b p) = v p % 2 ^ 64 := by
  induction l generalizing s with
  | nil => exact h.resolve_left List.not_mem_nil
  | cons q l ih =>
    refine ih ?_
    by_cases hpq : p = q
    · subst hpq
      exact .inr (State.fld_setFld_self _ _ _ (show 0 + 64 ≤ 64 by decide))
    · refine h.imp (fun hm => (List.mem_cons.mp hm).resolve_left hpq) (fun hv => ?_)
      rw [State.fld_setFld_other _ _ _ _ (fun ha => absurd ha (siteReg_apart (Ne.symm hpq)))]
      exact hv

theorem doSiteRegLoad_loads {s t : State} {c : Cmd} {d : List Byte} (hepoch : c.epoch = s.hi.epoch)
    (hres : c.reservedSet [(8, 1), (16, 8)] = false) (hlead : s.notLeader c.target = false) (hm : c.field 8 1 ≠ 0)
    (hdef : minusMask (c.field 8 1) (ofBits ((s.group c.target).positions.map (fun x => x.position))) = 0)
    (halign : c.field 16 8 % 8 = 0) (haddr : c.field 16 8 < 2 ^ 48)
    (hunits : firstFailing (s.unitChecks (s.groupUnits c.target ++ [memUnit])) = none) (hprog : s.program c.target = none)
    (hread : s.memRead { engine := 0, unit := c.target } (c.field 16 8) 64 = (.ok d none, t)) :
    (doSiteRegLoad c s).reported c 0 (c.field 8 1) ∧ (doSiteRegLoad c s).memData = s.memData ∧
      ∀ p < 8, bitOf (c.field 8 1) p = true →
        (doSiteRegLoad c s).fld (Reg.SITE_REG c.target p) = fieldOf d (8 * p) 8 % 2 ^ 64 := by
  have hframe : t.frozen = s.frozen ∧ t.memData = s.memData := by
    have ht : t = (s.memRead { engine := 0, unit := c.target } (c.field 16 8) 64).2 := by rw [hread]
    exact ⟨ht ▸ State.memRead_frozen .., ht ▸ State.memRead_memData ..⟩
  obtain ⟨hfrozen, hmem⟩ := hframe
  unfold doSiteRegLoad
  dsimp only
  have hbad : (c.reservedSet [(8, 1), (16, 8)] || s.notLeader c.target || decide (c.field 8 1 = 0) ||
      decide (minusMask (c.field 8 1) (ofBits ((s.group c.target).positions.map (fun x => x.position))) ≠ 0) ||
      decide (c.field 16 8 % 8 ≠ 0) || decide (2 ^ 48 ≤ c.field 16 8)) = false := by
    simp [hres, hlead, hm, hdef, halign]
    omega
  rw [State.checked_pass _ _ _ _ (firstFailing_cons hbad hunits), if_neg (by simp [hprog]), State.withRead_of_memRead hread]
  refine ⟨State.complete_reported _ _ _ _ (hepoch.trans (State.epoch_of_frozen (by simp [hfrozen])).symm), by simp [hmem],
    fun p hp hbit => ?_⟩
  unfold State.fld
  rw [State.complete_quad _ _ _ _ (by unfold Reg.SITE_REG Reg.seqB; dsimp only; omega)]
  exact State.setSiteRegs_fld (fun p => fieldOf d (8 * p) 8) (.inl (mem_setBits.mpr ⟨hp, hbit⟩))

/-! ### SITE_ENABLE -/

theorem State.modPin_positions (s : State) (p : Nat) (f : Pin → Pin) : (s.modPin p f).wards.positions = s.wards.positions := rfl

theorem State.setFld_positions (s : State) (f : Fld) (v : Nat) : (s.setFld f v).wards.positions = s.wards.positions := rfl

theorem State.settlePin_deckle (s : State) (b closed p : Nat) : (s.settlePin b closed p).wards.deckle = s.wards.deckle := by
  unfold State.settlePin
  split <;> rfl

theorem State.settlePin_positions (s : State) (b closed p : Nat) : (s.settlePin b closed p).wards.positions =
    s.wards.positions := by
  unfold State.settlePin
  split <;> rfl

theorem State.wantedPositions_lt {s : State} {b : Nat} {x : SitePos} (h : x ∈ s.wantedPositions b) : x.position < 8 := by
  simp only [State.wantedPositions, List.mem_map, List.mem_filter, List.mem_range] at h
  obtain ⟨p, ⟨hp, -⟩, rfl⟩ := h
  exact hp

theorem State.capture_positions (s : State) (b : Nat) : (s.capture b).wards.positions b = s.wantedPositions b := by
  unfold State.wards State.capture State.group
  dsimp only
  rw [SMap.get_put_self]

/-- The positions enabled of the group that SITE_ENABLE captures (R37). -/
theorem State.siteEnable_enables (s : State) (c : Cmd) {b on : Nat} (off : Nat) (hb : b < 64) (hon : on ≤ 255) :
    (s.siteEnable c b on off).enabledMask b =
      andMask (minusMask (orMask (s.enabledMask b) on) off) (ofBits ((s.wantedPositions b).map (fun x => x.position))) := by
  unfold State.siteEnable
  extract_lets before was left s1 defined enabled gone s2 asked opens s2' s3 s4 s5 ready
  have hpos1 : s1.wards.positions b = s.wantedPositions b :=
    (congrFun (State.foldl_same (fun t => t.wards.positions) (fun t p => t.modPin_positions p _) _ _) b).trans
      (s.capture_positions b)
  have hpos2 : s2.wards.positions b = s.wantedPositions b :=
    (congrFun ((State.setFld_positions ..).trans (congrArg Wards.positions (State.wards_foldl _ (by simp) _ _))) b).trans hpos1
  have hlt : ∀ t : State, t.wards.positions b = s.wantedPositions b → ∀ x ∈ (t.group b).positions, x.position < 8 :=
    by
    intro t ht x hx
    exact State.wantedPositions_lt (Eq.mp (congrArg (x ∈ ·) ht) hx)
  have hw2 : s2'.wards = s2.wards := State.wards_foldl _ (by simp) _ _
  have hopens : ∀ x ∈ opens, x.position < 8 := fun x hx =>
    hlt s2 hpos2 x (List.mem_of_mem_filter (List.mem_of_mem_filter hx))
  have hw3 : s3.wards = (s2'.setFld (Reg.DECKLE_STATE_CLOSED b) (minusMask (s2.closedMask b) (ofBits (opens.map (fun x =>
    x.position))))).wards :=
    State.foldl_same_of_mem State.wards (fun t x hx => State.clearEntry_wards t b (hopens x hx)) _
  have hpos4 : s4.wards.positions b = s.wantedPositions b := by
    refine (congrFun (State.foldl_same (fun t => t.wards.positions) (fun t p => t.settlePin_positions b _ p) _ _) b).trans ?_
    rw [hw3, State.setFld_positions, hw2, hpos2]
  have hw5 : s5.wards = s4.wards := by
    refine State.foldl_same_of_mem State.wards (fun t x hx => ?_) _
    have hx8 := hlt s4 hpos4 x (List.mem_of_mem_filter hx)
    exact State.foldl_same State.wards (fun u k => State.assertCause_wards u b k hx8) _ _
  have hd5 : (s5.complete c 0 (ready + 256 * minusMask on ready)).wards.deckle = s3.wards.deckle :=
    (congrArg Wards.deckle ((State.complete_wards ..).trans hw5)).trans
      (State.foldl_same (fun t => t.wards.deckle) (fun t p => t.settlePin_deckle b _ p) _ _)
  have hdefined : defined = ofBits ((s.wantedPositions b).map (fun x => x.position)) :=
    congrArg (fun l => ofBits (l.map (fun x => x.position))) hpos1
  have henabled : enabled < 2 ^ 8 := by
    refine Nat.lt_of_le_of_lt (Nat.and_le_left.trans (Nat.sub_le _ _)) (Nat.or_lt_two_pow (State.fld_lt s _) ?_)
    exact Nat.lt_succ_of_le hon
  have hclosed : (s2'.setFld (Reg.DECKLE_STATE_CLOSED b) (minusMask (s2.closedMask b) (ofBits (opens.map (fun x =>
    x.position))))).fld
      (Reg.DECKLE_STATE_ENABLED b) = s2'.fld (Reg.DECKLE_STATE_ENABLED b) :=
    State.fld_setFld_other _ _ _ _ (fun _ => .inr (Nat.le_refl 8))
  unfold State.enabledMask
  calc (s5.complete c 0 (ready + 256 * minusMask on ready)).fld (Reg.DECKLE_STATE_ENABLED b)
      = s3.fld (Reg.DECKLE_STATE_ENABLED b) := State.fld_of_deckle hd5 hb rfl
    _ = s2'.fld (Reg.DECKLE_STATE_ENABLED b) := (State.fld_of_deckle (congrArg Wards.deckle hw3) hb rfl).trans hclosed
    _ = s2.fld (Reg.DECKLE_STATE_ENABLED b) := State.fld_of_deckle (congrArg Wards.deckle hw2) hb rfl
    _ = enabled % 2 ^ 8 := State.fld_setFld_self _ _ _ (show 0 + 8 ≤ 64 by decide)
    _ = enabled := Nat.mod_eq_of_lt henabled
    _ = _ := by rw [← hdefined]; rfl

theorem State.showTrip_popTests (s : State) (n : Nat) : (s.showTrip n).popTests = s.popTests := by
  unfold State.showTrip
  exact State.setFlag_popTests ..

theorem State.showTrips_popTests (s : State) (l : Nat) : (s.showTrips l).popTests = s.popTests := by
  unfold State.showTrips
  exact State.foldl_same State.popTests State.showTrip_popTests _ _

theorem State.endRuns_popTests (s : State) (l action st : Nat) : (s.endRuns l action st).popTests = s.popTests := by
  unfold State.endRuns
  exact State.foldl_same State.popTests (by intro u c; exact State.complete_popTests ..) _ _

theorem State.modDps_popTests (s : State) (n : Nat) (f : Dps → Dps) : (s.modDps n f).popTests = s.popTests := rfl

theorem State.dpsEnter_popTests (s : State) (l st : Nat) : (s.dpsEnter l st).popTests = s.popTests := by
  unfold State.dpsEnter
  refine (State.showTrips_popTests ..).trans (State.foldl_same State.popTests ?_ _ _)
  intro u n
  exact (State.modDps_popTests ..).trans (State.setFld_popTests ..)

theorem State.dpsOffReq_popTests (s : State) (l status : Nat) : (s.dpsOffReq l status).popTests = s.popTests := by
  unfold State.dpsOffReq
  dsimp only
  split
  · exact (State.dpsEnter_popTests ..).trans (State.endRuns_popTests ..)
  · rfl

theorem State.freeSeqs_popTests (s : State) (l seqs : List Nat) : (s.freeSeqs l seqs).popTests = s.popTests := by
  unfold State.freeSeqs
  exact State.foldl_same State.popTests (by intro u n; exact State.setFld_popTests ..) _ _

theorem State.clearEntry_popTests (s : State) (b p : Nat) : (s.clearEntry b p).popTests = s.popTests := by
  unfold State.clearEntry
  exact (State.setFld_popTests ..).trans (State.setFld_popTests ..)

theorem State.clearLeader_popTests (s : State) (b : Nat) : (s.clearLeader b).popTests = s.popTests := by
  unfold State.clearLeader
  refine (State.foldl_same State.popTests (fun u p => u.clearEntry_popTests b p) _ _).trans ?_
  exact (State.setFld_popTests ..).trans ((State.setFld_popTests ..).trans (State.setFld_popTests ..))

theorem State.capture_popTests (s : State) (b : Nat) : (s.capture b).popTests = s.popTests := by
  unfold State.capture
  extract_lets seqs ps s1 s2 s3
  calc s3.popTests = s2.popTests := State.foldl_same State.popTests (by intro u n; exact State.setFld_popTests ..) _ _
    _ = s1.popTests := State.freeSeqs_popTests ..
    _ = s.popTests := State.foldl_same State.popTests
      (by intro u g; exact (State.freeSeqs_popTests ..).trans (State.clearLeader_popTests ..)) _ _

/-- Without a defined test the sites that go leave none (R277). -/
theorem State.popLeave_idle {s : State} (h : s.popTests = []) (site : Nat) : s.popLeave site = s := by
  unfold State.popLeave
  rw [h]
  rfl

theorem State.popLeaves_idle {s : State} (h : s.popTests = []) (l : List SitePos) : l.foldl (fun s x => s.popLeave x.site) s
    = s := by
  induction l with
  | nil => rfl
  | cons x l ih => rw [List.foldl_cons, State.popLeave_idle h, ih]

theorem State.siteEnable_memData {s : State} (h : s.popTests = []) (c : Cmd) (b on off : Nat) :
    (s.siteEnable c b on off).memData = s.memData := by
  unfold State.siteEnable
  extract_lets before was left s1 defined enabled gone s2 asked opens s2' s3 s4 s5 ready
  have hp : s2.popTests = [] := by
    refine (State.foldl_same State.popTests (fun t x => ?_) _ _).trans ?_
    · exact State.foldl_same State.popTests (fun u l => u.dpsOffReq_popTests l 1) _ _
    · exact (State.foldl_same State.popTests (by intro u n; rfl) _ _).trans ((s.capture_popTests b).trans h)
  have h1 : s1.memData = s.memData := by
    simp [s1]
  have h2 : s2'.memData = s.memData := by
    unfold s2'
    rw [State.popLeaves_idle hp]
    simp [s2, h1]
  simp [s5, s4, s3, h2]

theorem doSiteEnable_enables {s : State} {c : Cmd} (hb : c.target < 64) (hres : c.reservedSet [(8, 2)] = false)
    (hprog : s.program c.target = none) (hrun : s.contactRuns c.target = false)
    (hcfg : s.siteConfigBad c.target (c.field 8 1) (c.field 9 1) = false)
    (hunits : firstFailing (s.unitChecks ((s.wantedSeqs c.target).map seqUnit ++ ((s.wantedSeqs c.target).map seqCluster).dedup ++
      ((s.wantedPositions c.target).flatMap (fun x => x.dps.map (fun d => d / 2))).dedup)) = none) :
    doSiteEnable c s = s.siteEnable c c.target (c.field 8 1) (c.field 9 1) := by
  unfold doSiteEnable
  dsimp only
  rw [State.checked_pass _ _ _ _ (firstFailing_cons (by simp [hres, hb]) rfl), if_neg (by simp [hprog]), if_neg (by simp [hrun]),
    State.checked_pass _ _ _ _ (firstFailing_cons hcfg hunits)]

theorem State.siteEnable_reports {s : State} {c : Cmd} (hepoch : c.epoch = s.hi.epoch) (b on off : Nat) :
    ∃ res, (s.siteEnable c b on off).reported c 0 res := by
  unfold State.siteEnable
  extract_lets before was left s1 defined enabled gone s2 asked opens s2' s3 s4 s5 ready
  refine ⟨_, State.complete_reported _ _ _ _ (hepoch.trans (State.epoch_of_frozen ?_).symm)⟩
  simp [s5, s4, s3, s2', s2, s1]

/-- Settles O16: each command acts on the state its unit sees once the command has left its queue. -/
theorem siteCommandsComplete : Obligations.SiteCommandsComplete := by
  unfold Obligations.SiteCommandsComplete
  refine ⟨?_, ?_, ?_, ?_⟩
  · intro s q e b hs ho hb hlt hres hprog hrun hcfg hunits
    subst hb
    have hstep := hostCmd_next (k := doSiteEnable) hs ho (fun c u => doSiteEnable_frozen c u)
    obtain ⟨-, -, hepoch⟩ := hs
    obtain ⟨h, hu, hh⟩ := s.undispatch_eq (s.taken q.toNat e)
    rw [hu, doSiteEnable_enables (s := { s with hi := h }) hlt hres hprog hrun hcfg hunits] at hstep
    obtain ⟨res, hrep⟩ := State.siteEnable_reports (s := { s with hi := h }) (c := s.taken q.toNat e) (hepoch.trans hh.symm) _ _ _
    exact ⟨_, res, hstep, hrep, fun hp => State.siteEnable_memData (s := { s with hi := h }) hp _ _ _ _,
      State.siteEnable_enables { s with hi := h } _ _ hlt (Cmd.field_byte _ 8)⟩
  · intro s q e b hs ho hb hres hlead hunits
    subst hb
    have hstep := hostCmd_next (k := doDeckleClose) hs ho (fun c u => doDeckleClose_frozen c u)
    obtain ⟨-, -, hepoch⟩ := hs
    obtain ⟨h, hu, hh⟩ := s.undispatch_eq (s.taken q.toNat e)
    rw [hu] at hstep
    obtain ⟨hrep, hmem, hpins, hcauses⟩ := doDeckleClose_asserts (s := { s with hi := h }) (hepoch.trans hh.symm) hres hlead
      hunits
    exact ⟨_, hstep, hrep, hmem, hpins, hcauses⟩
  · intro s q e b hs ho hb hres hlead hbad hunits hprog hrun hmeas hopen
    subst hb
    have hstep := hostCmd_next (k := doContactCheck) hs ho (fun c u => doContactCheck_frozen c u)
    obtain ⟨h, hu, -⟩ := s.undispatch_eq (s.taken q.toNat e)
    rw [hu] at hstep
    obtain ⟨r, hr, hcmd, hpos, hmem, hregs⟩ :=
      doContactCheck_starts (s := { s with hi := h }) hres hlead hbad hunits hprog hrun hmeas hopen
    exact ⟨_, r, hstep, hr, hcmd, hpos, hmem, hregs⟩
  · intro s q e b a m d s1 hs ho hb hm ha hres hlead hm0 hdef halign haddr hunits hprog hread
    subst hb hm ha
    have hstep := hostCmd_next (k := doSiteRegLoad) hs ho (fun c u => doSiteRegLoad_frozen c u)
    obtain ⟨-, -, hepoch⟩ := hs
    obtain ⟨h, hu, hh⟩ := s.undispatch_eq (s.taken q.toNat e)
    rw [hu] at hstep hread
    obtain ⟨hrep, hmem, hregs⟩ := doSiteRegLoad_loads (s := { s with hi := h }) (hepoch.trans hh.symm) hres hlead hm0 hdef halign
      haddr hunits hprog hread
    exact ⟨_, hstep, hrep, hmem, hregs⟩

end Sys2Proof.Machine
end

section
/-! SUPPORT. Analog controls of a program (R113, R415): where a table of programs whose keys do not rise keeps a freeze that
CAL_THAW has ended. -/

namespace Sys2Proof.Machine

open Sys2Proof

/-- A program that holds the freeze it took with CAL_FREEZE, its CAL_THAW due. -/
def thawDue : Program := { wProg with analog := [(11, 0, 1)], freezeOp := true }

/-- A table of programs whose keys do not rise: group 3's program, which thaws, stands behind group 5's. -/
def unsortedPrograms : State := { State.reset with programs := [(5, wProg), (3, thawDue)] }

/-- Refutes O25: the statement takes any table of programs. Where its keys do not rise, the program put back for group 3 stands ahead
of key 5, and the old one, still with its freeze, stays behind it: cluster 1, which group 3 drives, is FROZEN after CAL_THAW. -/
theorem not_analogControls : ¬ Obligations.AnalogControls := by
  unfold Obligations.AnalogControls
  intro h
  obtain ⟨-, -, -, -, -, -, thaws⟩ := h
  obtain ⟨t, ht, hthawed⟩ := thaws unsortedPrograms 3 thawDue 0 1 (by decide +kernel) (by decide +kernel) (by decide +kernel) rfl
    (by decide +kernel) (by decide +kernel)
  have hfrozen : (wAfter (.calThaw 3) unsortedPrograms).flag (Reg.CAL_STATUS_FROZEN 1) = true := by decide +kernel
  have hafter : wAfter (.calThaw 3) unsortedPrograms = t := by
    unfold wAfter
    rw [ht]
  rw [hafter, hthawed 1 (by decide)] at hfrozen
  exact absurd hfrozen (by decide)

end Sys2Proof.Machine
end

section
/-! SUPPORT. Loops over instruments: every round does its part once, and the later rounds leave it. -/

namespace Sys2Proof.Machine

open Sys2Proof

variable {α : Type} {f : State → α → State} {Inv : State → Prop} {Did : State → α → Prop}

/-- A loop each of whose rounds does its part from any state that keeps `Inv`, and leaves what other rounds have done. -/
theorem State.foldl_each {l : List α} {s : State}
    (hstep : ∀ s, ∀ q ∈ l, Inv s → Inv (f s q) ∧ Did (f s q) q ∧ ∀ r ∈ l, Did s r → Did (f s q) r) (hs : Inv s) :
    Inv (l.foldl f s) ∧ ∀ q ∈ l, Did (l.foldl f s) q := by
  induction l generalizing s Inv with
  | nil => exact ⟨hs, nofun⟩
  | cons a l ih =>
    obtain ⟨hinv, hdid, -⟩ := hstep s a (List.mem_cons_self ..) hs
    obtain ⟨⟨hinv', hdid'⟩, hrest⟩ := ih (Inv := fun t => Inv t ∧ Did t a) (s := f s a) (fun t q hq ht => by
      obtain ⟨h1, h2, h3⟩ := hstep t q (List.mem_cons_of_mem _ hq) ht.1
      exact ⟨⟨h1, h3 a (List.mem_cons_self ..) ht.2⟩, h2, fun r hr => h3 r (List.mem_cons_of_mem _ hr)⟩) ⟨hinv, hdid⟩
    exact ⟨hinv', List.forall_mem_cons.mpr ⟨hdid', hrest⟩⟩

/-- A loop over instruments of distinct numbers, each idle until its round. -/
theorem State.foldl_once {key : α → Nat} {Idle : State → Nat → Prop} {l : List α} {s : State} (hnd : (l.map key).Nodup)
    (hstep : ∀ s, ∀ q ∈ l, Inv s → Idle s (key q) → Inv (f s q) ∧ Did (f s q) q ∧
      ∀ r ∈ l, key r ≠ key q → (Idle s (key r) → Idle (f s q) (key r)) ∧ (Did s r → Did (f s q) r))
    (hs : Inv s) (hidle : ∀ q ∈ l, Idle s (key q)) : Inv (l.foldl f s) ∧ ∀ q ∈ l, Did (l.foldl f s) q := by
  induction l generalizing s Inv with
  | nil => exact ⟨hs, nofun⟩
  | cons a l ih =>
    obtain ⟨ha, hnd⟩ := List.nodup_cons.mp hnd
    have hne : ∀ q ∈ l, key q ≠ key a := fun q hq h => ha (h ▸ List.mem_map_of_mem hq)
    obtain ⟨hinv, hdid, hothers⟩ := hstep s a (List.mem_cons_self ..) hs (hidle a (List.mem_cons_self ..))
    obtain ⟨⟨hinv', hdid'⟩, hrest⟩ := ih (Inv := fun t => Inv t ∧ Did t a) (s := f s a) hnd (fun t q hq ht hi => by
      obtain ⟨h1, h2, h3⟩ := hstep t q (List.mem_cons_of_mem _ hq) ht.1 hi
      exact ⟨⟨h1, (h3 a (List.mem_cons_self ..) (hne q hq).symm).2 ht.2⟩, h2, fun r hr => h3 r (List.mem_cons_of_mem _ hr)⟩)
      ⟨hinv, hdid⟩ (fun q hq => (hothers q (List.mem_cons_of_mem _ hq) (hne q hq)).1 (hidle q (List.mem_cons_of_mem _ hq)))
    exact ⟨hinv', List.forall_mem_cons.mpr ⟨hdid', hrest⟩⟩

end Sys2Proof.Machine
end

section
/-! SUPPORT. Readings on their way (R65, R170, R269): what a record that enters its sequencer's buffer, a reading pushed to the
population engine and a reading returned to the conditions leave alone. -/

namespace Sys2Proof.Machine

open Sys2Proof

/-! ### Records, and readings returned to conditions -/

/-- Everything but the registers, the sequencers and the programs. -/
def State.offRecords (s : State) : State := { s with regs := [], seqs := [], programs := [] }

@[simp] theorem State.offRecords_update (t : State) {x_regs x_seqs x_programs} : State.offRecords (State.mk t.pending x_regs t.applied
    t.timing t.timingApplied t.fuse t.burned t.perst t.internalReset t.xref t.hi t.ev t.mem t.held t.pins t.groups
    x_programs t.starts x_seqs t.rings t.clusters t.tmus t.awgs t.dgs t.dps t.swgHeld t.popTests t.dma t.felt t.power
    t.sec t.cals t.ser t.units t.jtag t.causes t.popInput t.draws) = t.offRecords := rfl

@[simp] theorem State.setFld_offRecords (s : State) (f : Fld) (v : Nat) : (s.setFld f v).offRecords = s.offRecords := rfl

@[simp] theorem State.setFlag_offRecords (s : State) (f : Fld) (b : Bool) : (s.setFlag f b).offRecords = s.offRecords := rfl

@[simp] theorem State.bump_offRecords (s : State) (f : Fld) (k : Nat) : (s.bump f k).offRecords = s.offRecords := rfl

@[simp] theorem State.modSeq_offRecords (s : State) (n : Nat) (f : Seq → Seq) : (s.modSeq n f).offRecords = s.offRecords := rfl

@[simp] theorem State.showElastic_offRecords (s : State) (n : Nat) : (s.showElastic n).offRecords = s.offRecords := by
  simp [State.showElastic]

@[simp] theorem State.modProgram_offRecords (s : State) (b : Nat) (f : Program → Program) :
    (s.modProgram b f).offRecords = s.offRecords := by
  unfold State.modProgram
  split <;> rfl

@[simp] theorem State.noteSite_offRecords (s : State) (site st : Nat) : (s.noteSite site st).offRecords = s.offRecords := by
  unfold State.noteSite
  split
  · rfl
  · split
    · exact s.modProgram_offRecords _ _
    · rfl

theorem State.enterRecord_offRecords (s : State) (n : Nat) (r : Rec) : (s.enterRecord n r).offRecords = s.offRecords := by
  unfold State.enterRecord
  dsimp only
  (repeat' split) <;> simp

theorem State.conditionReading_offRecords (s : State) (b serial : Nat) (r : CondReading) :
    (s.conditionReading b serial r).offRecords = s.offRecords :=
  s.modProgram_offRecords b _

theorem State.noteSite_quad (s : State) (site st a : Nat) : (s.noteSite site st).quad a = s.quad a := by
  unfold State.noteSite
  split
  · rfl
  · split
    · exact s.quad_modProgram _ _ a
    · rfl

theorem State.modSeq_quad (s : State) (n : Nat) (f : Seq → Seq) (a : Nat) : (s.modSeq n f).quad a = s.quad a := rfl

/-- A record writes registers of a sequencer's window only. -/
theorem State.enterRecord_quad (s : State) (n : Nat) (r : Rec) {a : Nat} (ha : a < 0x50000) : (s.enterRecord n r).quad a = s.quad a := by
  have hlow (o : Nat) : Reg.seqB n + o ≠ a := by
    unfold Reg.seqB
    omega
  unfold State.enterRecord
  dsimp only
  split
  · exact (State.noteSite_quad ..).trans (State.quad_bump_other s 1 (hlow 0x250))
  · split
    · exact (State.noteSite_quad ..).trans (State.quad_bump_other s 1 (hlow 0x250))
    · split
      · rfl
      · split
        · rw [State.noteSite_quad, State.modSeq_quad]
          exact (State.quad_setFlag_other _ true (hlow 0x240)).trans (State.quad_bump_other s 1 (hlow 0x248))
        · unfold State.showElastic
          exact (State.quad_setFlag_other _ _ (hlow 0x240)).trans (State.quad_setFld_other _ _ (hlow 0x240))

theorem State.popInput_of_offRecords {s t : State} (h : t.offRecords = s.offRecords) : t.popInput = s.popInput := by
  have hp := congrArg State.popInput h
  exact hp

/-! ### Readings pushed to the population engine -/

/-- Everything but the registers, the sequencers, the programs, the population engine's queue and the free values drawn. -/
def State.offReadings (s : State) : State := { s.offRecords with popInput := [], draws := 0 }

theorem State.offReadings_of_offRecords {s t : State} (h : t.offRecords = s.offRecords) : t.offReadings = s.offReadings :=
  congrArg (fun u : State => { u with popInput := [], draws := 0 }) h

theorem State.pins_of_offReadings {s t : State} (h : t.offReadings = s.offReadings) : t.pins = s.pins := by
  have hp := congrArg State.pins h
  exact hp

theorem State.dps_of_offReadings {s t : State} (h : t.offReadings = s.offReadings) : t.dps = s.dps := by
  have hd := congrArg State.dps h
  exact hd

/-- What is in force of the settings is what it was. -/
theorem State.afld_of_offReadings {s t : State} (h : t.offReadings = s.offReadings) (f : Fld) : t.afld f = s.afld f := by
  have ha : t.applied = s.applied := by
    have hx := congrArg State.applied h
    exact hx
  have hf : t.fuse = s.fuse := by
    have hx := congrArg State.fuse h
    exact hx
  unfold State.afld State.appliedQuad
  rw [ha, hf]

@[simp] theorem State.offReadings_update (t : State) {x_regs x_seqs x_programs x_popInput x_draws} : State.offReadings (State.mk
    t.pending x_regs t.applied t.timing t.timingApplied t.fuse t.burned t.perst t.internalReset t.xref t.hi t.ev t.mem t.held
    t.pins t.groups x_programs t.starts x_seqs t.rings t.clusters t.tmus t.awgs t.dgs t.dps t.swgHeld t.popTests t.dma t.felt
    t.power t.sec t.cals t.ser t.units t.jtag t.causes x_popInput x_draws) = t.offReadings := rfl

@[simp] theorem State.setFld_offReadings (s : State) (f : Fld) (v : Nat) : (s.setFld f v).offReadings = s.offReadings :=
  State.offReadings_of_offRecords (s.setFld_offRecords f v)

@[simp] theorem State.setFlag_offReadings (s : State) (f : Fld) (b : Bool) : (s.setFlag f b).offReadings = s.offReadings :=
  State.offReadings_of_offRecords (s.setFlag_offRecords f b)

@[simp] theorem State.bump_offReadings (s : State) (f : Fld) (k : Nat) : (s.bump f k).offReadings = s.offReadings :=
  State.offReadings_of_offRecords (s.bump_offRecords f k)

@[simp] theorem State.modProgram_offReadings (s : State) (b : Nat) (f : Program → Program) :
    (s.modProgram b f).offReadings = s.offReadings :=
  State.offReadings_of_offRecords (s.modProgram_offRecords b f)

@[simp] theorem State.enterRecord_offReadings (s : State) (n : Nat) (r : Rec) : (s.enterRecord n r).offReadings = s.offReadings :=
  State.offReadings_of_offRecords (s.enterRecord_offRecords n r)

@[simp] theorem State.conditionReading_offReadings (s : State) (b serial : Nat) (r : CondReading) :
    (s.conditionReading b serial r).offReadings = s.offReadings :=
  State.offReadings_of_offRecords (s.conditionReading_offRecords b serial r)

@[simp] theorem State.popPush_offReadings (s : State) (r : PopReading) : (s.popPush r).offReadings = s.offReadings := by
  unfold State.popPush
  dsimp only
  (repeat' split) <;> simp

/-- A ready population engine whose queue has room takes the reading (R269). -/
theorem State.popPush_takes {s : State} (hready : s.ready popUnit = true) (hroom : s.popInput.length < popInputDepth)
    (r : PopReading) : r ∈ (s.popPush r).popInput := by
  have hpush : (s.popPush r).popInput = s.popInput ++ [r] := by
    unfold State.popPush
    rw [if_neg (by simp [hready]), if_neg (by omega)]
    exact State.popInput_of_offRecords (State.modProgram_offRecords ..)
  rw [hpush]
  exact List.mem_append_right _ (List.mem_singleton_self r)

theorem State.fld_of_quad {s t : State} {f : Fld} (h : t.quad f.addr = s.quad f.addr) : t.fld f = s.fld f := by
  unfold State.fld
  rw [h]

theorem State.flag_of_quad {s t : State} {f : Fld} (h : t.quad f.addr = s.quad f.addr) : t.flag f = s.flag f := by
  unfold State.flag
  rw [State.fld_of_quad h]

end Sys2Proof.Machine
end

section
/-! SUPPORT. PPMU measurements and clamp monitors (R59, R60, R64 to R67): what their rows leave. -/

namespace Sys2Proof.Machine

open Sys2Proof

/-! ### Measurements that start -/

/-- From `s` to `t` nothing but pins differs. -/
def State.onlyPins (s t : State) : Prop := ∃ x, t = { s with pins := x }

theorem State.onlyPins_refl (s : State) : s.onlyPins s := ⟨s.pins, rfl⟩

theorem State.onlyPins.modPin {s t : State} (h : s.onlyPins t) (p : Nat) (f : Pin → Pin) : s.onlyPins (t.modPin p f) := by
  obtain ⟨x, rfl⟩ := h
  exact ⟨_, rfl⟩

theorem State.startMeas_idle {s : State} {p : Nat} (h : (s.pin p).meas = none) (m : PinMeas) :
    s.startMeas p m = s.modPin p (fun x => { x with meas := some m }) := by
  unfold State.startMeas
  rw [h]
  rfl

/-- The measurement that PPMU_MEASURE `c` starts on local pin q.1 of cluster k, its site q.2 (R65, R66). -/
def State.measureOf (s : State) (c : Cmd) (k : Nat) (q : Nat × Nat × SitePos) : PinMeas :=
  let p := 32 * k + q.1
  { origin := .measure c, leader := q.2.1, position := q.2.2.position, site := q.2.2.site
    test := (c.field 24 2 + q.2.2.rank p) % 65536, toPop := bitOf (c.field 12 1) 0, toRecord := bitOf (c.field 12 1) 1, queue := 7
    word := 0xFFFFFF, mode := s.afld (Reg.PPMU_CTRL_MODE p), range := s.afld (Reg.PPMU_CTRL_RANGE p)
    avgLog2 := s.afld (Reg.PPMU_CTRL_AVG_LOG2 p), wasConnected := (s.pin p).connected, start := s.now, suspect := s.supplySuspect }

/-- PPMU_MEASURE `c` starts its measurement on one pin (R66). -/
def State.measurePin (c : Cmd) (k : Nat) (s : State) (q : Nat × Nat × SitePos) : State :=
  (s.startMeas (32 * k + q.1) (s.measureOf c k q)).modPin (32 * k + q.1) (fun y => { y with connected := y.connected || y.meas.isSome })

/-- PPMU_MEASURE `c` as it is put on the list of its cluster: pins to measure, and pins missed (R66). -/
def State.measureRun (s : State) (c : Cmd) : PpmuRun :=
  let locals := (s.measurePins c.target (c.field 8 4)).map (fun q => q.1)
  { cmd := c, left := locals, measured := 0, missed := minusMask (c.field 8 4) (ofBits locals), flagged := 0 }

/-- The list of cluster `c.target` with PPMU_MEASURE `c` on it. -/
def State.measureListed (s : State) (c : Cmd) : State :=
  s.modCluster c.target (fun x => { x with ppmuRuns := x.ppmuRuns ++ [s.measureRun c] })

/-- A PPMU_MEASURE whose checks hold, with no program under way and no invalid setting, starts its measurements (R66). -/
theorem doPpmuMeasure_starts {s : State} {c : Cmd} (hres : c.reservedSet [(8, 5), (16, 10)] = false) (hk : c.target < 32)
    (hd0 : 0 < c.field 12 1) (hd4 : c.field 12 1 < 4) (htime : c.field 16 8 ≤ 1000000000000)
    (hunits : firstFailing (s.unitChecks [c.target]) = none) (hprog : ∀ b, s.program b = none)
    (herr : ∀ i < 32, bitOf (c.field 8 4) i = true → s.flag (Reg.PIN_STATUS_PPMU_ERR (32 * c.target + i)) = false) :
    doPpmuMeasure c s = if (s.measurePins c.target (c.field 8 4)).isEmpty then (s.measureListed c).ppmuRunEnd c.target (s.measureRun c)
      else (s.measurePins c.target (c.field 8 4)).foldl (State.measurePin c c.target) (s.measureListed c) := by
  have hbad : (c.reservedSet [(8, 5), (16, 10)] || decide (32 ≤ c.target) || decide (4 ≤ c.field 12 1) || decide (c.field 12 1 = 0) ||
      decide (1000000000000 < c.field 16 8)) = false := by
    simp [hres]
    omega
  have hvalid : (setBits (c.field 8 4) 32).any (fun i => s.flag (Reg.PIN_STATUS_PPMU_ERR (32 * c.target + i))) = false := by
    rw [List.any_eq_false]
    intro i hi
    obtain ⟨hlt, hbit⟩ := mem_setBits.mp hi
    simp [herr i hlt hbit]
  unfold doPpmuMeasure
  dsimp only
  rw [State.checked_pass _ _ _ _ (firstFailing_cons hbad hunits), if_neg (by simp [hprog]), if_neg (by simp [hvalid])]
  rfl

/-- A PPMU_MEASURE with no pin to measure reports every masked pin missed (R66). -/
theorem State.measureRun_missed {s : State} {c : Cmd} (hepoch : c.epoch = s.hi.epoch) (hnone : s.measurePins c.target (c.field 8 4) = []) :
    ((s.measureListed c).ppmuRunEnd c.target (s.measureRun c)).reported c 0 (2 ^ 32 * c.field 8 4) := by
  have hrun : s.measureRun c = { cmd := c, left := [], measured := 0, missed := c.field 8 4, flagged := 0 } := by
    simp [State.measureRun, hnone, minusMask, ofBits]
  rw [hrun]
  unfold State.ppmuRunEnd
  dsimp only
  rw [if_pos List.isEmpty_nil, Nat.zero_add, Nat.mul_zero, Nat.add_zero]
  exact State.complete_reported _ _ _ _ hepoch

/-- PPMU_MEASURE `c` measures local pin q.1 with the settings in force in `s` (R65, R66). -/
def State.measures (s : State) (c : Cmd) (k : Nat) (t : State) (q : Nat × Nat × SitePos) : Prop :=
  (t.pin (32 * k + q.1)).connected = true ∧ ∃ m, (t.pin (32 * k + q.1)).meas = some m ∧
    m.mode = s.afld (Reg.PPMU_CTRL_MODE (32 * k + q.1)) ∧ m.range = s.afld (Reg.PPMU_CTRL_RANGE (32 * k + q.1)) ∧
    m.test = (c.field 24 2 + q.2.2.rank (32 * k + q.1)) % 65536

theorem State.measurePin_idle {s t : State} (h : s.onlyPins t) (c : Cmd) (k : Nat) {q : Nat × Nat × SitePos}
    (hidle : (t.pin (32 * k + q.1)).meas = none) :
    s.onlyPins (State.measurePin c k t q) ∧ s.measures c k (State.measurePin c k t q) q ∧
      ∀ n ≠ 32 * k + q.1, (State.measurePin c k t q).pin n = t.pin n := by
  unfold State.measurePin
  rw [State.startMeas_idle hidle]
  refine ⟨(h.modPin _ _).modPin _ _, ?_, fun n hn => ?_⟩
  · obtain ⟨x, rfl⟩ := h
    unfold State.measures
    rw [State.pin_modPin_self, State.pin_modPin_self]
    exact ⟨Bool.or_true _, _, rfl, rfl, rfl, rfl⟩
  · rw [State.pin_modPin_other _ _ hn, State.pin_modPin_other _ _ hn]

/-- The pins of a PPMU_MEASURE are distinct. -/
theorem State.measurePins_nodup (s : State) (k mask : Nat) : ((s.measurePins k mask).map (fun q => 32 * k + q.1)).Nodup := by
  have hsub : ((s.measurePins k mask).map (fun q => q.1)).Sublist (setBits mask 32) := by
    unfold State.measurePins
    generalize setBits mask 32 = l
    induction l with
    | nil => exact List.Sublist.slnil
    | cons i l ih =>
      rw [List.filterMap_cons]
      split
      · exact ih.cons i
      · next q hq =>
        have hqi : q.1 = i := by
          split at hq
          · split at hq
            · cases hq
              rfl
            · cases hq
          · cases hq
        rw [List.map_cons, hqi]
        exact ih.cons_cons i
  have hnd : ((s.measurePins k mask).map (fun q => q.1)).Nodup := (List.nodup_range.filter _).sublist hsub
  rw [show (fun q : Nat × Nat × SitePos => 32 * k + q.1) = (fun i => 32 * k + i) ∘ (fun q => q.1) from rfl, ← List.map_map]
  exact hnd.map (fun i j h => Nat.add_left_cancel h)

/-- Every pin of a PPMU_MEASURE measures, where none did before (R66). -/
theorem State.measurePins_measure {s t : State} (h : s.onlyPins t) (c : Cmd) (k mask : Nat) (hidle : ∀ p, (t.pin p).meas = none) :
    ∀ q ∈ s.measurePins k mask, s.measures c k ((s.measurePins k mask).foldl (State.measurePin c k) t) q := by
  refine (State.foldl_once (Inv := s.onlyPins) (Did := s.measures c k) (key := fun q => 32 * k + q.1)
    (Idle := fun t n => (t.pin n).meas = none) (s.measurePins_nodup k mask) (fun u q _ hu hq => ?_) h (fun q _ => hidle _)).2
  obtain ⟨hinv, hdid, hothers⟩ := State.measurePin_idle hu c k hq
  refine ⟨hinv, hdid, fun r _ hr => ?_⟩
  unfold State.measures
  rw [hothers _ hr]
  exact ⟨id, id⟩

/-! ### Readings of pins -/

theorem State.ppmuPinDone_keeps (s : State) (cl i : Nat) (cmd : Cmd) (ok flagged : Bool) :
    (s.ppmuPinDone cl i cmd ok flagged).pins = s.pins ∧ (s.ppmuPinDone cl i cmd ok flagged).popInput = s.popInput := by
  unfold State.ppmuPinDone State.ppmuRunEnd
  split
  · exact ⟨rfl, rfl⟩
  · dsimp only
    split
    · exact ⟨State.complete_pins .., State.complete_popInput ..⟩
    · exact ⟨rfl, rfl⟩

/-- A reading of a pin that is delivered ends no measurement and starts none. -/
theorem State.deliverPin_meas (s : State) (p : Nat) (m : PinMeas) (status conversions : Nat) (value : Int) (flags start n : Nat) :
    ((s.deliverPin p m status conversions value flags start).pin n).meas = (s.pin n).meas := by
  unfold State.deliverPin
  extract_lets s1 s2
  have hs2 : s2.offReadings = s.offReadings := by
    simp only [s2, s1]
    (repeat' split) <;> simp
  have hpins : s2.pins = s.pins := State.pins_of_offReadings hs2
  have hpin : (s2.pin n).meas = (s.pin n).meas := by
    unfold State.pin
    rw [hpins]
  split
  · unfold State.pin
    rw [State.pins_of_offReadings (State.conditionReading_offReadings ..), hpins]
  · rw [← hpin]
    unfold State.pin
    rw [(State.ppmuPinDone_keeps ..).1]
    change ((s2.modPin p _).pin n).meas = (s2.pin n).meas
    by_cases hn : n = p
    · rw [hn, State.pin_modPin_self]
    · rw [State.pin_modPin_other _ _ hn]
  · exact hpin

/-- The reading that a measurement of a pin sends to the population engine (R65, R269). -/
def PinMeas.popReading (m : PinMeas) (status : Nat) (value : Int) (flags start : Nat) : PopReading :=
  { site := m.site, test := m.test, value := value, status := status, flags := flags, cellTime := start
    leader := m.leader, position := m.position }

/-- A reading for the population engine enters its queue, which has room (R65, R269). -/
theorem State.deliverPin_takes {s : State} {p : Nat} {m : PinMeas} (status conversions : Nat) (value : Int) (flags start : Nat)
    (hpop : m.toPop = true) (hready : s.ready popUnit = true) (hroom : s.popInput.length < popInputDepth) :
    m.popReading status value flags start ∈ (s.deliverPin p m status conversions value flags start).popInput := by
  unfold State.deliverPin
  extract_lets s1 s2
  have hs1 : s1.ready popUnit = true ∧ s1.popInput = s.popInput := by
    simp only [s1]
    split
    · exact ⟨(State.flag_of_quad (State.enterRecord_quad _ _ _ (by decide))).trans hready,
        State.popInput_of_offRecords (State.enterRecord_offRecords ..)⟩
    · exact ⟨hready, rfl⟩
  have hs2 : m.popReading status value flags start ∈ s2.popInput := by
    simp only [s2, hpop, if_true]
    exact State.popPush_takes hs1.1 (hs1.2 ▸ hroom) _
  split
  · rw [State.popInput_of_offRecords (State.conditionReading_offRecords ..)]
    exact hs2
  · rw [(State.ppmuPinDone_keeps ..).2]
    exact hs2
  · exact hs2

/-- The state in which the reading of measurement `m` of pin p is delivered: the pin is idle, and PPMU_CLAMPED shows a limit met (R67). -/
def State.measured (s : State) (p : Nat) (m : PinMeas) (clamped : Bool) : State :=
  (if m.limited clamped then s.setFlag (Reg.PIN_STATUS_PPMU_CLAMPED p) true else s).modPin p (fun x => { x with meas := none })

/-- Flags of the reading of measurement `m` with value `v` (R67). -/
def State.measuredFlags (s : State) (m : PinMeas) (v : Int) (clamped : Bool) : Nat :=
  b2n (overRange m.mode m.range v) + 2 * b2n (m.limited clamped) + 4 * b2n (m.suspect || s.supplySuspect)

theorem doPpmuReading_delivers {s : State} {p : Nat} {m : PinMeas} (sum : BitVec 26) (clamped : Bool) (start : Nat)
    (hm : (s.pin p).meas = some m) (hno : ∀ c b, m.origin ≠ .contact c b) {v : Int}
    (hv : v = s.pinReading p m.mode m.range sum.toInt (2 ^ m.avgLog2)) :
    doPpmuReading p sum clamped start s =
      (s.measured p m clamped).deliverPin p m 0 (2 ^ m.avgLog2) v (s.measuredFlags m v clamped) start := by
  subst hv
  unfold doPpmuReading
  rw [hm]
  dsimp only
  split
  · next c b ho => exact (hno c b ho).elim
  · rfl

theorem State.measured_idle (s : State) (p : Nat) (m : PinMeas) (clamped : Bool) : ((s.measured p m clamped).pin p).meas = none :=
  congrArg Pin.meas (State.pin_modPin_self ..)

theorem State.measured_popInput (s : State) (p : Nat) (m : PinMeas) (clamped : Bool) :
    (s.measured p m clamped).popInput = s.popInput := by
  change (if m.limited clamped then s.setFlag (Reg.PIN_STATUS_PPMU_CLAMPED p) true else s).popInput = s.popInput
  split
  · exact State.popInput_of_offRecords (s.setFlag_offRecords ..)
  · rfl

theorem pinB_ge (p : Nat) : 0x10000 ≤ Reg.pinB p := by
  unfold Reg.pinB Reg.clB
  split <;> omega

theorem State.measured_ready (s : State) (p : Nat) (m : PinMeas) (clamped : Bool) :
    (s.measured p m clamped).ready popUnit = s.ready popUnit := by
  have hne : (Reg.PIN_STATUS_PPMU_CLAMPED p).addr ≠ (Reg.UNIT_READY popUnit).addr := by
    have hlow : (Reg.UNIT_READY popUnit).addr < 0x10000 := by decide
    exact Nat.ne_of_gt (Nat.lt_of_lt_of_le hlow (pinB_ge p))
  change (if m.limited clamped then s.setFlag (Reg.PIN_STATUS_PPMU_CLAMPED p) true else s).flag (Reg.UNIT_READY popUnit) =
    s.flag (Reg.UNIT_READY popUnit)
  split
  · exact State.flag_of_quad (State.quad_setFlag_other s true hne)
  · rfl

/-- PPMU_MEASURE with every check held: with no pin to measure it is reported, and where no pin measured its pins do (R64 to R66). -/
theorem doPpmuMeasure_measures {s : State} {c : Cmd} (hepoch : c.epoch = s.hi.epoch)
    (hres : c.reservedSet [(8, 5), (16, 10)] = false) (hk : c.target < 32)
    (hd0 : 0 < c.field 12 1) (hd4 : c.field 12 1 < 4) (htime : c.field 16 8 ≤ 1000000000000)
    (hunits : firstFailing (s.unitChecks [c.target]) = none) (hprog : ∀ b, s.program b = none)
    (herr : ∀ i < 32, bitOf (c.field 8 4) i = true → s.flag (Reg.PIN_STATUS_PPMU_ERR (32 * c.target + i)) = false) :
    (s.measurePins c.target (c.field 8 4) = [] → (doPpmuMeasure c s).reported c 0 (2 ^ 32 * c.field 8 4)) ∧
      ((∀ p, (s.pin p).meas = none) →
        ∀ q ∈ s.measurePins c.target (c.field 8 4), s.measures c c.target (doPpmuMeasure c s) q) := by
  rw [doPpmuMeasure_starts hres hk hd0 hd4 htime hunits hprog herr]
  refine ⟨fun hnone => ?_, fun hidle q hq => ?_⟩
  · rw [if_pos (List.isEmpty_iff.mpr hnone)]
    exact State.measureRun_missed hepoch hnone
  · rw [if_neg (by simpa using List.ne_nil_of_mem hq)]
    exact State.measurePins_measure (s := s.measureListed c) (State.onlyPins_refl _) c c.target (c.field 8 4) hidle q hq

/-- A reading of a pin that is not of a contact check ends the measurement, and goes to the population engine (R65, R269). -/
theorem doPpmuReading_reads {s : State} {p : Nat} {m : PinMeas} (sum : BitVec 26) (clamped : Bool) (start : Nat)
    (hm : (s.pin p).meas = some m) (hno : ∀ c b, m.origin ≠ .contact c b) :
    ((doPpmuReading p sum clamped start s).pin p).meas = none ∧
      (m.toPop = true → s.ready popUnit = true → s.popInput.length < popInputDepth →
        ∃ r ∈ (doPpmuReading p sum clamped start s).popInput,
          r.value = s.pinReading p m.mode m.range sum.toInt (2 ^ m.avgLog2) ∧ r.test = m.test ∧
            r.site = m.site ∧ r.status = 0 ∧ r.cellTime = start) := by
  rw [doPpmuReading_delivers sum clamped start hm hno rfl]
  refine ⟨(State.deliverPin_meas ..).trans (State.measured_idle ..), fun hpop hready hroom => ⟨_, State.deliverPin_takes _ _ _ _ _ hpop
    ((State.measured_ready ..).trans hready) ((State.measured_popInput s p m clamped).symm ▸ hroom), rfl, rfl, rfl, rfl, rfl⟩⟩

/-! ### Clamp monitors -/

/-- The masks of a group are read off its sequencer's window. -/
theorem State.masks_of_high {s t : State} (hq : ∀ a, 0x50000 ≤ a → t.quad a = s.quad a) (b : Nat) :
    t.enabledMask b = s.enabledMask b ∧ t.closedMask b = s.closedMask b := by
  have hseq : 0x50000 ≤ Reg.seqB b + 0x110 := by
    unfold Reg.seqB
    omega
  exact ⟨State.fld_of_quad (hq _ hseq), State.fld_of_quad (hq _ hseq)⟩

/-- The site that a pin belongs to is enabled. -/
theorem State.enabled_of_pinEnabledSite {s : State} {p b : Nat} {x : SitePos} (h : s.pinEnabledSite p = some (b, x)) :
    bitOf (s.enabledMask b) x.position = true := by
  unfold State.pinEnabledSite at h
  split at h
  · split at h
    · next hbit =>
      cases h
      exact hbit
    · cases h
  · cases h

/-- The site of a pin is read off the groups and the sequencers' windows. -/
theorem State.pinEnabledSite_of_high {s t : State} (hg : t.groups = s.groups) (hq : ∀ a, 0x50000 ≤ a → t.quad a = s.quad a)
    (p : Nat) : t.pinEnabledSite p = s.pinEnabledSite p := by
  have hgroup : ∀ b, t.group b = s.group b := fun b => by
    unfold State.group
    rw [hg]
  have hleader : ∀ n, t.leaderOf n = s.leaderOf n := fun n => State.fld_of_quad (hq (Reg.seqB n + 0x100) (by
    unfold Reg.seqB
    omega))
  have hsite : t.pinSite p = s.pinSite p := by
    simp only [State.pinSite, hleader, hgroup]
  unfold State.pinEnabledSite
  rw [hsite]
  split
  · rw [(State.masks_of_high hq _).1]
  · rfl

/-- A cause asserted writes at most the entry of a site, in a sequencer's window. -/
theorem State.assertCause_quad (s : State) (b p k : Nat) {a : Nat} (ha : a < 0x50000) : (s.assertCause b p k).quad a = s.quad a := by
  unfold State.assertCause
  split
  · rfl
  · split
    · refine State.quad_setFld_other s _ ?_
      simp only [Reg.SITE_ENTRY_CAUSE, Reg.seqB]
      omega
    · rfl

theorem pinB_lt {p : Nat} (hp : p < 1056) : Reg.pinB p < 0x50000 := by
  unfold Reg.pinB Reg.clB
  split <;> omega

theorem pinB_inj {p q : Nat} (h : Reg.pinB p = Reg.pinB q) (hp : p < 1056) (hq : q < 1056) : p = q := by
  unfold Reg.pinB Reg.clB at h
  split at h <;> split at h <;> omega

/-- Two flags that are written read back, the second apart from the first. -/
theorem State.flag_setFlags (s : State) {f g : Fld} (x y : Bool) (hfg : f.lo + f.width ≤ g.lo) (hg : g.lo + g.width ≤ 64)
    (hf : 0 < f.width) (hw : 0 < g.width) :
    ((s.setFlag f x).setFlag g y).flag f = x ∧ ((s.setFlag f x).setFlag g y).flag g = y :=
  ⟨(State.flag_setFlag_other _ g f y (fun _ => .inr hfg)).trans (s.flag_setFlag_self f x (by omega) hf),
    State.flag_setFlag_self _ g y hg hw⟩

theorem State.quad_setFlags_other (s : State) {f g : Fld} {a : Nat} (x y : Bool) (hf : f.addr ≠ a) (hg : g.addr ≠ a) :
    ((s.setFlag f x).setFlag g y).quad a = s.quad a :=
  (State.quad_setFlag_other _ y hg).trans (State.quad_setFlag_other s x hf)

/-- The state in which pin p's monitor shows its trip (R59). -/
def State.pinTripped (s : State) (p : Nat) : State :=
  (s.setFlag (Reg.PIN_STATUS_CLAMP_TRIP p) true).setFlag (Reg.PIN_STATUS_CLAMP_LIVE p) true

theorem State.pinTripped_flags (s : State) (p : Nat) : (s.pinTripped p).flag (Reg.PIN_STATUS_CLAMP_TRIP p) = true ∧
    (s.pinTripped p).flag (Reg.PIN_STATUS_CLAMP_LIVE p) = true :=
  s.flag_setFlags true true (Nat.le_refl 38) (by decide : 39 ≤ 64) Nat.one_pos Nat.one_pos

theorem State.pinTripped_quad (s : State) {p a : Nat} (ha : Reg.pinB p ≠ a) : (s.pinTripped p).quad a = s.quad a :=
  s.quad_setFlags_other true true ha ha

theorem State.pinTripped_keeps (s : State) (p : Nat) :
    (s.pinTripped p).groups = s.groups ∧ (s.pinTripped p).ev = s.ev ∧ (s.pinTripped p).causes = s.causes := by
  unfold State.pinTripped
  rw [State.setFlag_groups, State.setFlag_groups, State.setFlag_ev, State.setFlag_ev, State.setFlag_causes, State.setFlag_causes]
  exact ⟨rfl, rfl, rfl⟩

/-- Before the pins' registers no quad differs, and the events' latches neither: an event raised once is raised once. -/
theorem State.raised_of_quads {s u t : State} {n unit info : Nat} (hn : n < 32) (hq : ∀ a < 0x10000, u.quad a = s.quad a)
    (hev : u.ev = s.ev) (h : u.raised t n unit info) : s.raised t n unit info := by
  have hcount : u.fld (Reg.SRC_STAT_COUNT n) = s.fld (Reg.SRC_STAT_COUNT n) := State.fld_of_quad (hq _ (by
    simp only [Reg.SRC_STAT_COUNT]
    omega))
  have hnow : u.now = s.now := State.fld_of_quad (hq _ (by decide))
  unfold State.raised at h ⊢
  rw [hcount, hnow, hev] at h
  exact h

theorem State.pinTripped_site (s : State) {p : Nat} (hp : p < 1024) : (s.pinTripped p).pinEnabledSite p = s.pinEnabledSite p := by
  have hlow : Reg.pinB p < 0x50000 := pinB_lt (by omega)
  exact State.pinEnabledSite_of_high (s.pinTripped_keeps p).1 (fun a ha => s.pinTripped_quad (by omega)) p

theorem State.pinTripped_of_quad {s t : State} {p : Nat} (hq : t.quad (Reg.pinB p) = (s.pinTripped p).quad (Reg.pinB p)) :
    t.flag (Reg.PIN_STATUS_CLAMP_TRIP p) = true ∧ t.flag (Reg.PIN_STATUS_CLAMP_LIVE p) = true :=
  ⟨(State.flag_of_quad hq).trans (s.pinTripped_flags p).1, (State.flag_of_quad hq).trans (s.pinTripped_flags p).2⟩

/-- A trip of a pin that no enabled site holds: the event, and no cause (R59). -/
theorem State.pinTripped_raise (s : State) (p : Nat) :
    let t := (s.pinTripped p).raise 6 p 0
    (t.flag (Reg.PIN_STATUS_CLAMP_TRIP p) = true ∧ t.flag (Reg.PIN_STATUS_CLAMP_LIVE p) = true) ∧ s.raised t 6 p 0 ∧
      t.causes = s.causes := by
  have hhigh : 0x10000 ≤ Reg.pinB p := pinB_ge p
  refine ⟨State.pinTripped_of_quad (State.quad_raise _ _ _ (by decide) (by omega)), ?_, ?_⟩
  · exact State.raised_of_quads (by decide) (fun a ha => s.pinTripped_quad (by omega)) (s.pinTripped_keeps p).2.1
      (State.raise_raised ..)
  · exact (State.raise_causes ..).trans (s.pinTripped_keeps p).2.2

/-- A trip of a pin of an enabled site: cause 1, where the site is open (R59). -/
theorem State.pinTripped_assertCause {s : State} {p b : Nat} {x : SitePos} (hp : p < 1024) (h : s.pinEnabledSite p = some (b, x)) :
    let t := (s.pinTripped p).assertCause b x.position 1
    (t.flag (Reg.PIN_STATUS_CLAMP_TRIP p) = true ∧ t.flag (Reg.PIN_STATUS_CLAMP_LIVE p) = true) ∧
      (bitOf (s.closedMask b) x.position = false → t.asserted b x.position 1) := by
  have hlow : Reg.pinB p < 0x50000 := pinB_lt (by omega)
  obtain ⟨hen, hcl⟩ := State.masks_of_high (t := s.pinTripped p) (s := s) (fun a ha => s.pinTripped_quad (by omega)) b
  refine ⟨State.pinTripped_of_quad (State.assertCause_quad _ _ _ _ hlow), fun hopen => State.assertCause_asserted 1 ?_ ?_⟩
  · rw [hen]
    exact State.enabled_of_pinEnabledSite h
  · rw [hcl]
    exact hopen

theorem doClampTrip_of_none {s : State} {p : Nat} (hp : p < 1024) (hen : s.afld (Reg.PIN_CTRL_MON_EN p) ≠ 0)
    (hoff : s.blockOff (Reg.pinB p) = false) (h : s.pinEnabledSite p = none) : doClampTrip p s = (s.pinTripped p).raise 6 p 0 := by
  rw [← s.pinTripped_site hp] at h
  unfold State.pinTripped at h ⊢
  unfold doClampTrip
  rw [if_neg (by simp [hen, hoff])]
  dsimp only
  rw [h]

theorem doClampTrip_of_some {s : State} {p b : Nat} {x : SitePos} (hp : p < 1024) (hen : s.afld (Reg.PIN_CTRL_MON_EN p) ≠ 0)
    (hoff : s.blockOff (Reg.pinB p) = false) (h : s.pinEnabledSite p = some (b, x)) :
    doClampTrip p s = (s.pinTripped p).assertCause b x.position 1 := by
  rw [← s.pinTripped_site hp] at h
  unfold State.pinTripped at h ⊢
  unfold doClampTrip
  rw [if_neg (by simp [hen, hoff])]
  dsimp only
  rw [h]

/-- An enabled monitor that trips shows it, and closes the site that holds the pin (R59). -/
theorem doClampTrip_trips {s : State} {p : Nat} (hp : p < 1024) (hen : s.afld (Reg.PIN_CTRL_MON_EN p) ≠ 0)
    (hoff : s.blockOff (Reg.pinB p) = false) :
    ((doClampTrip p s).flag (Reg.PIN_STATUS_CLAMP_TRIP p) = true ∧ (doClampTrip p s).flag (Reg.PIN_STATUS_CLAMP_LIVE p) = true) ∧
      (s.pinEnabledSite p = none → s.raised (doClampTrip p s) 6 p 0 ∧ (doClampTrip p s).causes = s.causes) ∧
      ∀ b x, s.pinEnabledSite p = some (b, x) → bitOf (s.closedMask b) x.position = false →
        (doClampTrip p s).asserted b x.position 1 := by
  rcases hs : s.pinEnabledSite p with _ | ⟨b, x⟩
  · rw [doClampTrip_of_none hp hen hoff hs]
    obtain ⟨hflags, hraised, hcauses⟩ := s.pinTripped_raise p
    exact ⟨hflags, fun _ => ⟨hraised, hcauses⟩, nofun⟩
  · rw [doClampTrip_of_some hp hen hoff hs]
    obtain ⟨hflags, hasserted⟩ := State.pinTripped_assertCause hp hs
    refine ⟨hflags, nofun, fun b' x' hb => ?_⟩
    cases hb
    exact hasserted

/-! ### Clamp self-checks -/

/-- Pin p shows the verdict of its self-check (R60). -/
def State.pinChecked (p : Nat) (passed : Bool) (s : State) : Prop :=
  s.flag (Reg.PIN_STATUS_SC_DONE p) = true ∧ s.flag (Reg.PIN_STATUS_SC_FAIL p) = !passed

theorem State.pinChecked_of_quad {s t : State} {p : Nat} {passed : Bool} (hq : t.quad (Reg.pinB p) = s.quad (Reg.pinB p))
    (h : s.pinChecked p passed) : t.pinChecked p passed :=
  ⟨(State.flag_of_quad hq).trans h.1, (State.flag_of_quad hq).trans h.2⟩

/-- The flags of a self-check's verdict. -/
theorem State.pinChecked_setFlags (s : State) (p : Nat) (passed : Bool) :
    ((s.setFlag (Reg.PIN_STATUS_SC_DONE p) true).setFlag (Reg.PIN_STATUS_SC_FAIL p) (!passed)).pinChecked p passed :=
  s.flag_setFlags true (!passed) (Nat.le_refl 40) (by decide : 41 ≤ 64) Nat.one_pos Nat.one_pos

/-- What a failed check raises and asserts leaves the pins' registers. -/
theorem State.clampChecked_quad (s : State) (p : Nat) (passed : Bool) {a : Nat} (hlow : 0x10000 ≤ a) (hhigh : a < 0x50000) :
    (s.clampChecked p passed).quad a =
      ((s.setFlag (Reg.PIN_STATUS_SC_DONE p) true).setFlag (Reg.PIN_STATUS_SC_FAIL p) (!passed)).quad a := by
  have hraise (u : State) : (u.raise 14 p 0).quad a = u.quad a := State.quad_raise u p 0 (by decide) (by omega)
  unfold State.clampChecked
  dsimp only
  split
  · rfl
  · split
    · rw [State.assertCause_quad _ _ _ _ hhigh, hraise]
    · rw [hraise]

/-- A self-check of a cluster that is on shows its verdicts, the pins that are being driven left out (R60, R70). -/
theorem doClampSelfCheck_shows {s : State} {c : Nat} (hc : c < 32) (passed : BitVec 33) (hoff : s.blockOff (Reg.clB c) = false) :
    (doClampSelfCheck c passed s).pinChecked (1024 + c) (passed.getLsbD 32) ∧
      ∀ i < 32, s.runs (pinSeq (32 * c + i)) = false → (doClampSelfCheck c passed s).pinChecked (32 * c + i) (passed.getLsbD i) := by
  have hpins : ∀ p < 1056, 0x10000 ≤ Reg.pinB p ∧ Reg.pinB p < 0x50000 := fun p hp => ⟨pinB_ge p, pinB_lt hp⟩
  unfold doClampSelfCheck
  rw [if_neg (by simp [hoff])]
  extract_lets s1 r s2
  have hchecked : ∀ i ∈ (List.range 32).filter (fun i => !s.runs (pinSeq (32 * c + i))),
      s1.pinChecked (32 * c + i) (passed.getLsbD i) := by
    refine (State.foldl_each (Inv := fun _ => True) (Did := fun s i => s.pinChecked (32 * c + i) (passed.getLsbD i))
      (fun u i hi _ => ⟨trivial, ?_, fun j hj hdid => ?_⟩) trivial).2
    · have hi32 := List.mem_range.mp (List.mem_filter.mp hi).1
      obtain ⟨h1, h2⟩ := hpins (32 * c + i) (by omega)
      exact State.pinChecked_of_quad (u.clampChecked_quad _ _ h1 h2) (u.pinChecked_setFlags ..)
    · have hi32 := List.mem_range.mp (List.mem_filter.mp hi).1
      have hj32 := List.mem_range.mp (List.mem_filter.mp hj).1
      obtain ⟨h1, h2⟩ := hpins (32 * c + j) (by omega)
      by_cases hij : i = j
      · subst hij
        exact State.pinChecked_of_quad (u.clampChecked_quad _ _ h1 h2) (u.pinChecked_setFlags ..)
      · have hne : Reg.pinB (32 * c + i) ≠ Reg.pinB (32 * c + j) := fun h => by
          have := pinB_inj h (by omega) (by omega)
          omega
        exact State.pinChecked_of_quad ((u.clampChecked_quad _ _ h1 h2).trans (State.quad_setFlags_other u _ _ hne hne)) hdid
  have hraised : ∀ p < 1056, (if passed.getLsbD 32 then s2 else s2.raise 14 r 0).quad (Reg.pinB p) = s2.quad (Reg.pinB p) := by
    intro p hp
    obtain ⟨h1, -⟩ := hpins p hp
    split
    · rfl
    · exact State.quad_raise s2 _ _ (by decide) (by omega)
  refine ⟨State.pinChecked_of_quad (hraised _ (by omega)) (s1.pinChecked_setFlags ..), fun i hi hrun => ?_⟩
  have hne : Reg.pinB r ≠ Reg.pinB (32 * c + i) := fun h => by
    have := pinB_inj h (by omega) (by omega)
    omega
  exact State.pinChecked_of_quad ((hraised _ (by omega)).trans (State.quad_setFlags_other s1 _ _ hne hne))
    (hchecked i (List.mem_filter.mpr ⟨List.mem_range.mpr hi, by simp [hrun]⟩))

/-- Settles O18: each row from the state in which its unit sees it. -/
theorem pinMeasurements : Obligations.PinMeasurements := by
  unfold Obligations.PinMeasurements
  refine ⟨?_, ?_, ?_, ?_, ?_, ?_⟩
  · intro s q e k mask d hs ho hk hmask hd hres hk32 hd0 hd4 htime hunits hprog herr
    subst hk hmask hd
    have hstep := hostCmd_next (k := doPpmuMeasure) hs ho (fun c u => doPpmuMeasure_frozen c u)
    obtain ⟨-, -, hepoch⟩ := hs
    obtain ⟨h, hu, hh⟩ := s.undispatch_eq (s.taken q.toNat e)
    rw [hu] at hstep
    obtain ⟨hnone, hmeas⟩ := doPpmuMeasure_measures (s := { s with hi := h }) (hepoch.trans hh.symm) hres hk32 hd0 hd4 htime hunits
      hprog herr
    exact ⟨_, hstep, doPpmuMeasure_memData .., hnone, hmeas⟩
  · intro s p sum clamped start m hup hm hno
    obtain ⟨hidle, hpop⟩ := doPpmuReading_reads sum clamped start.toNat hm hno
    exact ⟨_, event_next hup (doPpmuReading_frozen ..), hidle, doPpmuReading_memData .., hpop⟩
  · intro s p hup hen hoff
    obtain ⟨⟨htrip, hlive⟩, hnone, hsome⟩ := doClampTrip_trips p.isLt hen hoff
    exact ⟨_, event_next hup (doClampTrip_frozen ..), htrip, hlive, doClampTrip_memData .., hnone, hsome⟩
  · intro s p hoff
    have hkeep : doClampTrip p.val s = s := if_pos (.inl hoff)
    change answer s (if s.inReset then s else doClampTrip p.val s) = _
    rw [hkeep, ite_self]
    rfl
  · intro s p hup
    refine ⟨_, event_next hup (doClampLiveClear_frozen ..), ?_, State.onlyRegs_setFld ..⟩
    exact State.flag_setFlag_self s _ false (by decide : 39 ≤ 64) Nat.one_pos
  · intro s c passed hup hoff
    obtain ⟨⟨hdone, hfail⟩, hpins⟩ := doClampSelfCheck_shows c.isLt passed hoff
    exact ⟨_, event_next hup (doClampSelfCheck_frozen ..), doClampSelfCheck_memData .., hdone, hfail, hpins⟩

end Sys2Proof.Machine
end

section
/-! SUPPORT. Results that return (R86, R104, R106, R111): the fail bits of the sites, and the place in the program. -/

namespace Sys2Proof.Machine

open Sys2Proof

/-! ### Masks of positions -/

theorem add_two_pow_eq_or {n i : Nat} (h : n.testBit i = false) : n + 2 ^ i = n ||| 2 ^ i := by
  have hand : (n ||| 2 ^ i) &&& 2 ^ i = 2 ^ i := by
    rw [Nat.and_two_pow]
    simp
  have hsub : (n ||| 2 ^ i) - ((n ||| 2 ^ i) &&& 2 ^ i) = n := Nat.eq_of_testBit_eq fun j => by
    rw [testBit_sub_and, Nat.testBit_or, Nat.testBit_two_pow]
    by_cases hj : i = j
    · subst hj
      simp [h]
    · simp [hj]
  have hle : (n ||| 2 ^ i) &&& 2 ^ i ≤ n ||| 2 ^ i := Nat.and_le_left
  rw [hand] at hsub hle
  omega

theorem bitOf_ofBits (l : List Nat) (k : Nat) : bitOf (ofBits l) k = decide (k ∈ l) := by
  have hfold (n : Nat) : (l.foldl (fun n i => if bitOf n i then n else n + 2 ^ i) n).testBit k = (n.testBit k || decide (k ∈ l)) := by
    induction l generalizing n with
    | nil => simp
    | cons i l ih =>
      have hstep : (if bitOf n i then n else n + 2 ^ i).testBit k = (n.testBit k || decide (i = k)) := by
        split
        · next h =>
          rw [bitOf_eq_testBit] at h
          by_cases hik : i = k
          · subst hik
            simp [h]
          · simp [hik]
        · next h =>
          rw [bitOf_eq_testBit, Bool.not_eq_true] at h
          rw [add_two_pow_eq_or h, Nat.testBit_or, Nat.testBit_two_pow]
      rw [List.foldl_cons, ih, hstep, Bool.or_assoc]
      simp only [List.mem_cons, Bool.decide_or, eq_comm]
  rw [bitOf_eq_testBit]
  exact (hfold 0).trans (by simp)

theorem bitOf_siteMap (f : Nat → Bool) (k : Nat) : bitOf (siteMap f) k = (decide (k < 8) && f k) := by
  unfold siteMap
  rw [bitOf_ofBits]
  simp [List.mem_filter]

theorem bitOf_andMask (m n k : Nat) : bitOf (andMask m n) k = (bitOf m k && bitOf n k) := by
  simp only [bitOf_eq_testBit, andMask, Nat.testBit_and]

/-- Of the positions that ran a vector and meet `f`, those also in the mask of the word. -/
theorem siteMap_andMask (f : Nat → Bool) (mask ran : Nat) :
    andMask (siteMap (fun p => bitOf ran p && f p)) (andMask mask ran) = siteMap (fun p => bitOf (andMask mask ran) p && f p) := by
  refine Nat.eq_of_testBit_eq fun k => ?_
  rw [← bitOf_eq_testBit, ← bitOf_eq_testBit]
  rw [Bool.eq_iff_iff]
  simp only [bitOf_andMask, bitOf_siteMap, Bool.and_eq_true]
  tauto

/-! ### Compare results -/

theorem State.captureRecords_noted (s : State) (b pos start : Nat) (w : IssuedWord) (l : List PinResult) (idx : Nat) :
    s.noted (s.captureRecords b pos start w l idx) := by
  unfold State.captureRecords
  extract_lets mine failed go
  split
  · exact s.noted_refl
  · refine State.noted.foldl (fun u lane => ?_) _ s.noted_refl
    split
    · exact u.enterRecord_noted ..
    · exact u.noted_refl

/-- Words that clear no fail flags leave them as they settle. -/
theorem settleWords_fail (s : State) (b n : Nat) {g : Program} (h : ∀ w ∈ g.outstanding, w.clear = 0) :
    (s.settleWords b n g).micro.fail = g.micro.fail ∧ (s.settleWords b n g).micro.lc = g.micro.lc := by
  induction n generalizing g with
  | zero => exact ⟨rfl, rfl⟩
  | succ n ih =>
    unfold State.settleWords
    dsimp only
    split
    · exact ⟨rfl, rfl⟩
    · next w ws hout =>
      rw [hout, List.forall_mem_cons] at h
      obtain ⟨hclear, hws⟩ := h
      have hfail : minusMask g.micro.fail w.clear = g.micro.fail := by simp [hclear, minusMask]
      split
      · split
        · exact ih hws
        · exact ⟨rfl, rfl⟩
      · split
        · refine ⟨(ih ?_).1.trans hfail, (ih ?_).2⟩
          · exact hws
          · exact hws
        · exact ⟨hfail, rfl⟩

/-- Words that clear no fail flags are settled: fail flags and place in the program are as they were. -/
theorem State.settleResults_program {s : State} {b : Nat} {g : Program} (hg : s.program b = some g)
    (h : ∀ w ∈ g.outstanding, w.clear = 0) :
    ∃ r, (s.settleResults b).program b = some r ∧ r.micro.fail = g.micro.fail ∧ r.micro.pc = g.micro.pc ∧ r.micro.lc = g.micro.lc := by
  obtain ⟨hfail, hlc⟩ := settleWords_fail s b (g.outstanding.length + 1) h
  obtain ⟨-, hpc, -⟩ := settleWords_keeps s b (g.outstanding.length + 1) g
  refine ⟨_, ?_, hfail, hpc, hlc⟩
  unfold State.settleResults
  rw [State.program_modProgram_self, hg]
  rfl

/-- A program changed by `f`, its results settled and its vectors applied. -/
theorem State.modSettled_program {s : State} {b : Nat} {g : Program} {f : Program → Program} (t : Nat) (hg : s.program b = some g)
    (h : ∀ w ∈ (f g).outstanding, w.clear = 0) :
    ∃ r, (((s.modProgram b f).settleResults b).appliedTo b t).program b = some r ∧ r.micro.fail = (f g).micro.fail ∧
      r.micro.pc = (f g).micro.pc ∧ r.micro.lc = (f g).micro.lc := by
  have hf : (s.modProgram b f).program b = some (f g) := by
    rw [State.program_modProgram_self, hg]
    rfl
  obtain ⟨r, hr, hkeeps⟩ := State.settleResults_program hf h
  exact ⟨_, State.appliedTo_program hr, hkeeps⟩

/-- The program in which a vector of an outstanding word has returned, the words outstanding now `l` (R104, R111, R126). -/
def Program.returned (l : List IssuedWord) (executing : Bool) (fails drop : Nat) (g : Program) : Program :=
  let m := g.micro
  { g with
    outstanding := l
    failDrop := if executing then orMask g.failDrop drop else g.failDrop
    micro := { m with
      fail := orMask m.fail fails
      mask := if executing then m.mask else minusMask m.mask drop } }

/-- A vector of the last outstanding word returns, after statuses noted by records that had no room. -/
theorem Program.returned_settles {s s1 : State} {b : Nat} {g : Program} (t : Nat) (hg : s.program b = some g) (hnoted : s.noted s1)
    {w1 : IssuedWord} (hclear : w1.clear = 0) (executing : Bool) (fails drop : Nat) :
    ∃ h, (((s1.modProgram b (Program.returned [w1] executing fails drop)).settleResults b).appliedTo b t).program b = some h ∧
      h.micro.fail = orMask g.micro.fail fails ∧ h.micro.pc = g.micro.pc ∧ h.micro.lc = g.micro.lc := by
  obtain ⟨g1, hg1, heq, -⟩ := hnoted.some b g hg
  have hmicro : g1.micro = g.micro := by
    have h := congrArg Program.micro heq
    exact h
  obtain ⟨r, hr, hfail, hpc, hlc⟩ := State.modSettled_program (f := Program.returned [w1] executing fails drop) t hg1
    (fun x hx => List.mem_singleton.mp hx ▸ hclear)
  rw [← hmicro]
  exact ⟨r, hr, hfail, hpc, hlc⟩

/-- The last word's next tested vector returns (R104, R111). -/
theorem doCompareResult_fails {s : State} {b : Nat} (atE3 : BitVec 256) (steady : BitVec 128) {g : Program} {w : IssuedWord} {idx : Nat}
    (hg : s.program b = some g) (hout : g.outstanding = [w]) (hnext : s.nextTested b w = some idx) (hclear : w.clear = 0)
    {l : List PinResult} (hl : l = s.pinResults b w (w.place idx).1 (w.place idx).2.1 (w.place idx).2.2.2 (fun i j =>
      { code := bitsOf atE3.toNat (2 * (16 * i + j)) 2, steady := bitOf steady.toNat (16 * i + j) })) :
    ∃ h, (doCompareResult b atE3 steady s).program b = some h ∧
      h.micro.fail = orMask g.micro.fail (siteMap (fun p =>
        bitOf (andMask w.mask (andMask w.sites (s.openMask b))) p && l.any (fun r => decide (r.position = p) && r.failed))) ∧
      h.micro.pc = g.micro.pc ∧ h.micro.lc = g.micro.lc := by
  subst hl
  unfold doCompareResult
  simp only [hg, hout, hnext]
  rw [siteMap_andMask]
  refine Program.returned_settles _ hg (State.noted.foldl (fun u p => u.captureRecords_noted ..) _ s.noted_refl) ?_ _ _ _
  exact hclear

end Sys2Proof.Machine
end

section
/-! SUPPORT. Triggers that fire (R64, R65, R112, R193, R234, R235, R261): the measurements of each kind that they start. -/

namespace Sys2Proof.Machine

open Sys2Proof

/-! ### Triggers that fire -/

/-- A trigger that is due is the first of its program's list (R112). -/
theorem State.dueTrigger_head {s : State} {b kind : Nat} {g : Program} {tr : Trigger} (h : s.dueTrigger b kind = some (g, tr)) :
    s.program b = some g ∧ g.triggers = tr :: g.triggers.drop 1 := by
  unfold State.dueTrigger at h
  split at h
  · cases h
  · next hg =>
    split at h
    · next t l hl =>
      split at h
      · cases h
        exact ⟨hg, by rw [hl, List.drop_one, List.tail_cons]⟩
      · cases h
    · cases h

/-- A trigger that fires changes its program alone. -/
theorem State.firedTrigger_eq (s : State) (b n : Nat) : ∃ x, s.firedTrigger b n = { s with programs := x } := by
  unfold State.firedTrigger State.modProgram
  split
  · exact ⟨_, rfl⟩
  · exact ⟨s.programs, rfl⟩

/-- A program whose first trigger `tr` has fired, `n` readings awaited of it (R112). -/
def Program.fired (g : Program) (tr : Trigger) (n : Nat) : Program :=
  { g with triggers := g.triggers.drop 1, pendingReadings := g.pendingReadings ++ List.replicate n (tr.serial, tr.toPop) }

theorem State.firedTrigger_program {s : State} {b : Nat} {g : Program} {tr : Trigger} (hg : s.program b = some g)
    (htr : g.triggers = tr :: g.triggers.drop 1) (n : Nat) : (s.firedTrigger b n).program b = some (g.fired tr n) := by
  unfold State.firedTrigger
  rw [State.program_modProgram_self, hg, Option.map_some, htr]
  unfold Program.fired
  rw [htr]

/-! ### PPMU triggers -/

/-- The pins of a group are distinct (R4, R35). -/
theorem State.groupPins_nodup (s : State) (b : Nat) : ((s.groupPins b).map (fun q => q.2.2.1)).Nodup := by
  have hmembers : (s.members b).zipIdx.Pairwise (fun x y => x.1 ≠ y.1) := by
    rw [← List.pairwise_map (f := Prod.fst), List.zipIdx_map_fst]
    exact List.nodup_range.map (fun i j h => Nat.add_left_cancel h)
  have hof {x : Nat × Nat} {q : Nat × Nat × Nat × SitePos} (hq : q ∈ (List.range 16).filterMap (fun j =>
      let p := seqPin x.1 j
      ((s.group b).positions.find? (fun y => y.pins.contains p)).map (fun y => (x.2, j, p, y)))) :
      q.2.2.1 / 16 = x.1 := by
    obtain ⟨j, hj, hjq⟩ := List.mem_filterMap.mp hq
    obtain ⟨y, -, rfl⟩ := Option.map_eq_some_iff.mp hjq
    have hj16 := List.mem_range.mp hj
    unfold seqPin
    dsimp only
    omega
  rw [List.Nodup, List.pairwise_map]
  unfold State.groupPins
  refine List.pairwise_flatMap.mpr ⟨fun x _ => ?_, hmembers.imp fun hxy q hq r hr h => hxy ?_⟩
  · refine List.pairwise_filterMap.mpr (List.nodup_range.imp fun {i j} hij q hq r hr h => hij ?_)
    obtain ⟨y, -, rfl⟩ := Option.map_eq_some_iff.mp hq
    obtain ⟨z, -, rfl⟩ := Option.map_eq_some_iff.mp hr
    exact Nat.add_left_cancel h
  · rw [← hof hq, ← hof hr, h]

/-- The measurement that trigger `tr` starts on a pin of its group (R65, R112). -/
def State.triggered (s : State) (b : Nat) (tr : Trigger) (q : Nat × Nat × Nat × SitePos) : PinMeas :=
  let p := q.2.2.1
  let x := q.2.2.2
  { origin := .trigger b tr.serial, leader := b, position := x.position, site := x.site
    test := (tr.base + x.rank p) % 65536, toPop := tr.toPop, toRecord := tr.toRecord, queue := tr.queue, word := tr.word
    mode := s.afld (Reg.PPMU_CTRL_MODE p), range := s.afld (Reg.PPMU_CTRL_RANGE p)
    avgLog2 := s.afld (Reg.PPMU_CTRL_AVG_LOG2 p), wasConnected := true, start := s.now, suspect := s.supplySuspect }

/-- Idle pins that a trigger measures all measure, with the settings in force in `s`. -/
theorem State.triggered_measure {s t : State} (h : s.onlyPins t) (b : Nat) (tr : Trigger) {l : List (Nat × Nat × Nat × SitePos)}
    (hnd : (l.map (fun q => q.2.2.1)).Nodup) (hidle : ∀ p, (t.pin p).meas = none) :
    let u := l.foldl (fun u q => u.startMeas q.2.2.1 (u.triggered b tr q)) t
    s.onlyPins u ∧ ∀ q ∈ l, (u.pin q.2.2.1).meas = some (s.triggered b tr q) := by
  refine State.foldl_once (Inv := s.onlyPins) (Did := fun u q => (u.pin q.2.2.1).meas = some (s.triggered b tr q))
    (Idle := fun u p => (u.pin p).meas = none) hnd (fun u q _ hu hq => ?_) h (fun q _ => hidle _)
  have hsame : u.triggered b tr q = s.triggered b tr q := by
    obtain ⟨x, rfl⟩ := hu
    rfl
  rw [State.startMeas_idle hq, hsame]
  refine ⟨hu.modPin _ _, by rw [State.pin_modPin_self], fun r _ hr => ?_⟩
  rw [State.pin_modPin_other _ _ hr]
  exact ⟨id, id⟩

/-- A PPMU trigger that is due, no pin measuring before (R65, R112). -/
theorem doPpmuTrigger_measures {s : State} {b : Nat} {g : Program} {tr : Trigger} (hdue : s.dueTrigger b 1 = some (g, tr))
    (hidle : ∀ p, (s.pin p).meas = none) {pins : List (Nat × Nat × Nat × SitePos)}
    (hpins : pins = (s.groupPins b).filter (fun q =>
      bitOf (andMask tr.sites (s.openMask b)) q.2.2.2.position && s.ppmuActive q.2.2.1)) :
    (doPpmuTrigger b s).program b = some (g.fired tr pins.length) ∧ (doPpmuTrigger b s).regs = s.regs ∧
      ∀ q ∈ pins, ((doPpmuTrigger b s).pin q.2.2.1).meas = some (s.triggered b tr q) := by
  have hnd : (pins.map (fun q => q.2.2.1)).Nodup := by
    rw [hpins]
    exact (s.groupPins_nodup b).sublist (List.filter_sublist.map _)
  have hfired : doPpmuTrigger b s =
      pins.foldl (fun u q => u.startMeas q.2.2.1 (u.triggered b tr q)) (s.firedTrigger b pins.length) := by
    rw [hpins]
    unfold doPpmuTrigger
    rw [hdue]
    rfl
  obtain ⟨hg, htr⟩ := State.dueTrigger_head hdue
  have hprogram := State.firedTrigger_program hg htr pins.length
  rw [hfired]
  obtain ⟨x, hx⟩ := s.firedTrigger_eq b pins.length
  rw [hx] at hprogram ⊢
  obtain ⟨⟨y, hy⟩, hmeas⟩ := State.triggered_measure (State.onlyPins_refl { s with programs := x }) b tr hnd hidle
  refine ⟨?_, ?_, hmeas⟩
  · rw [hy]
    exact hprogram
  · rw [hy]
/-! ### TMU triggers -/

/-- From `s` to `t` the settings in force and the programs are the same. -/
def State.sameForce (s t : State) : Prop := t.applied = s.applied ∧ t.fuse = s.fuse ∧ t.programs = s.programs

theorem State.sameForce_refl (s : State) : s.sameForce s := ⟨rfl, rfl, rfl⟩

theorem State.sameForce.trans {s t u : State} (h1 : s.sameForce t) (h2 : t.sameForce u) : s.sameForce u :=
  ⟨h2.1.trans h1.1, h2.2.1.trans h1.2.1, h2.2.2.trans h1.2.2⟩

theorem State.sameForce.afld {s t : State} (h : s.sameForce t) (f : Fld) : t.afld f = s.afld f := by
  unfold State.afld State.appliedQuad
  rw [h.1, h.2.1]

theorem State.sameForce.program {s t : State} (h : s.sameForce t) (b : Nat) : t.program b = s.program b := by
  unfold State.program
  rw [h.2.2]

theorem State.sameForce.setFld {s t : State} (h : s.sameForce t) (f : Fld) (v : Nat) : s.sameForce (t.setFld f v) :=
  h.trans ⟨State.setFld_applied .., State.setFld_fuse .., State.setFld_programs ..⟩

theorem State.sameForce.setFlag {s t : State} (h : s.sameForce t) (f : Fld) (b : Bool) : s.sameForce (t.setFlag f b) :=
  h.setFld f _

theorem State.sameForce.modTmu {s t : State} (h : s.sameForce t) (n : Nat) (f : Tmu → Tmu) : s.sameForce (t.modTmu n f) := h

theorem State.tmu_setFld (s : State) (f : Fld) (v n : Nat) : (s.setFld f v).tmu n = s.tmu n := by
  unfold State.tmu
  rw [State.setFld_tmus]

theorem State.tmu_modTmu_self (s : State) (n : Nat) (f : Tmu → Tmu) : (s.modTmu n f).tmu n = f (s.tmu n) :=
  SMap.get_put_self ..

theorem State.tmu_modTmu_other (s : State) {n k : Nat} (f : Tmu → Tmu) (h : k ≠ n) : (s.modTmu n f).tmu k = s.tmu k :=
  SMap.get_put_other _ _ _ h

/-- An idle TMU that is armed goes to state 2, or to 1 for an external arm, and only its own window and record change (R192). -/
theorem State.tmuArm_idle {s : State} {n : Nat} (m : TmuArm) (h : (s.tmu n).arm = none) :
    s.sameForce (s.tmuArm n m) ∧
      ((s.tmuArm n m).fld (Reg.TMU_STATUS_STATE n) = (if s.afld (Reg.TMU_CTRL_ARM_SRC n) = 0 then 2 else 1) ∧
        ∃ start, ((s.tmuArm n m).tmu n).arm = some { m with start := start }) ∧
      ∀ k ≠ n, (s.tmuArm n m).tmu k = s.tmu k ∧ (s.tmuArm n m).fld (Reg.TMU_STATUS_STATE k) = s.fld (Reg.TMU_STATUS_STATE k) := by
  have hstate (u : State) (v : Nat) (hv : v < 8) : (u.setFld (Reg.TMU_STATUS_STATE n) v).fld (Reg.TMU_STATUS_STATE n) = v :=
    (u.fld_setFld_self (Reg.TMU_STATUS_STATE n) v (by decide : 35 ≤ 64)).trans (Nat.mod_eq_of_lt hv)
  have hother (u : State) (v : Nat) {k : Nat} (hk : k ≠ n) :
      (u.setFld (Reg.TMU_STATUS_STATE n) v).fld (Reg.TMU_STATUS_STATE k) = u.fld (Reg.TMU_STATUS_STATE k) :=
    State.fld_of_quad (State.quad_setFld_other _ _ (by
      simp only [Reg.TMU_STATUS_STATE, Reg.tmuB]
      omega))
  unfold State.tmuArm
  rw [if_neg (by simp [h])]
  dsimp only
  split
  · unfold State.tmuBegin
    refine ⟨((s.sameForce_refl.modTmu ..).modTmu ..).setFld .., ⟨hstate _ 2 (by decide), s.now, ?_⟩, fun k hk => ⟨?_, ?_⟩⟩
    · rw [State.tmu_setFld, State.tmu_modTmu_self]
      rfl
    · rw [State.tmu_setFld, State.tmu_modTmu_other _ _ hk, State.tmu_modTmu_other _ _ hk]
    · rw [hother _ _ hk]
      rfl
  · refine ⟨(s.sameForce_refl.modTmu ..).setFld .., ⟨hstate _ 1 (by decide), m.start, ?_⟩, fun k hk => ⟨?_, ?_⟩⟩
    · rw [State.tmu_setFld, State.tmu_modTmu_self]
    · rw [State.tmu_setFld, State.tmu_modTmu_other _ _ hk]
    · rw [hother _ _ hk]
      rfl

/-- TMU n runs what trigger `tr` of the group led by `b` armed, with the settings in force in `s` (R112, R192). -/
def State.tmuTriggered (s : State) (b : Nat) (tr : Trigger) (t : State) (n : Nat) : Prop :=
  t.fld (Reg.TMU_STATUS_STATE n) = (if s.afld (Reg.TMU_CTRL_ARM_SRC n) = 0 then 2 else 1) ∧
    ∃ m, (t.tmu n).arm = some m ∧ m.origin = .trigger b tr.serial ∧ m.mode = s.afld (Reg.TMU_CTRL_MODE n) ∧
      m.test = (tr.base + s.afld (Reg.TMU_CTRL_TEST_OFFSET n)) % 65536

/-- The measurement that trigger `tr` arms on TMU n. -/
def State.tmuMeasure (s : State) (b : Nat) (tr : Trigger) (n : Nat) : TmuArm :=
  s.tmuArmed n (.trigger b tr.serial) tr.base tr.toPop tr.toRecord tr.queue tr.word

theorem State.tmuArms_triggered {t : State} (b : Nat) (tr : Trigger) {l : List Nat} (hnd : l.Nodup)
    (hidle : ∀ n, (t.tmu n).arm = none) :
    let u := l.foldl (fun u n => u.tmuArm n (u.tmuMeasure b tr n)) t
    t.sameForce u ∧ ∀ n ∈ l, t.tmuTriggered b tr u n := by
  refine State.foldl_once (Inv := t.sameForce) (Did := t.tmuTriggered b tr) (key := fun n => n) (Idle := fun u n => (u.tmu n).arm = none)
    (by rwa [List.map_id']) (fun u n _ hu hn => ?_) t.sameForce_refl (fun n _ => hidle n)
  obtain ⟨hforce, ⟨hstate, start, harm⟩, hothers⟩ := State.tmuArm_idle (u.tmuMeasure b tr n) hn
  refine ⟨hu.trans hforce, ⟨?_, _, harm, rfl, ?_, ?_⟩, fun k _ hk => ?_⟩
  · rw [hstate, hu.afld]
  · exact hu.afld _
  · exact congrArg (fun x => (tr.base + x) % 65536) (hu.afld _)
  · obtain ⟨htmu, hfld⟩ := hothers k hk
    refine ⟨(congrArg Tmu.arm htmu).trans, fun hdid => ?_⟩
    unfold State.tmuTriggered at hdid ⊢
    rw [htmu, hfld]
    exact hdid

theorem State.members_nodup (s : State) (b : Nat) : (s.members b).Nodup := List.nodup_range.map (fun _ _ h => Nat.add_left_cancel h)

/-- The TMUs that trigger `tr` of the group led by `b` arms: those whose site is active, or that have none (R193). -/
def State.tmuTargets (s : State) (b : Nat) (tr : Trigger) : List Nat :=
  (s.members b).filter (fun n =>
    match s.tmuSite n with
    | none => true
    | some (l, x) => decide (l = b) && bitOf (andMask tr.sites (s.openMask b)) x.position)

theorem State.mem_tmuTargets {s : State} {b n : Nat} {tr : Trigger} (hn : n ∈ s.members b)
    (h : ∀ x, s.tmuSite n = some x → x.1 = b ∧ bitOf (andMask tr.sites (s.openMask b)) x.2.position = true) :
    n ∈ s.tmuTargets b tr := by
  refine List.mem_filter.mpr ⟨hn, ?_⟩
  rcases hx : s.tmuSite n with _ | ⟨l, x⟩
  · rfl
  · obtain ⟨hl, hbit⟩ := h _ hx
    dsimp only at hl hbit ⊢
    rw [hbit, decide_eq_true hl]
    rfl

theorem doTmuTrigger_eq {s : State} {b : Nat} {g : Program} {tr : Trigger} (hdue : s.dueTrigger b 2 = some (g, tr)) :
    doTmuTrigger b s = (s.tmuTargets b tr).foldl (fun u n => u.tmuArm n (u.tmuMeasure b tr n))
      (s.firedTrigger b ((s.tmuTargets b tr).filter (fun n => (s.tmuSite n).isSome)).length) := by
  unfold doTmuTrigger
  rw [hdue]
  rfl

/-- A TMU trigger that is due, no TMU armed before (R112, R193). -/
theorem doTmuTrigger_arms {s : State} {b : Nat} {g : Program} {tr : Trigger} (hdue : s.dueTrigger b 2 = some (g, tr))
    (hidle : ∀ n, (s.tmu n).arm = none) :
    ∃ h, (doTmuTrigger b s).program b = some h ∧ h.triggers = g.triggers.drop 1 ∧
      ∀ n ∈ s.tmuTargets b tr, s.tmuTriggered b tr (doTmuTrigger b s) n := by
  obtain ⟨hg, htr⟩ := State.dueTrigger_head hdue
  rw [doTmuTrigger_eq hdue]
  generalize ((s.tmuTargets b tr).filter (fun n => (s.tmuSite n).isSome)).length = k
  have hprogram := State.firedTrigger_program hg htr k
  obtain ⟨x, hx⟩ := s.firedTrigger_eq b k
  rw [hx] at hprogram ⊢
  obtain ⟨hforce, harms⟩ := State.tmuArms_triggered (t := { s with programs := x }) b tr
    ((s.members_nodup b).sublist List.filter_sublist : (s.tmuTargets b tr).Nodup) hidle
  exact ⟨_, (hforce.program b).trans hprogram, rfl, harms⟩
/-! ### Digitizer triggers -/

theorem State.dg_setFld (s : State) (f : Fld) (v c : Nat) : (s.setFld f v).dg c = s.dg c := by
  unfold State.dg
  rw [State.setFld_dgs]

theorem State.dg_setFlag (s : State) (f : Fld) (b : Bool) (c : Nat) : (s.setFlag f b).dg c = s.dg c := s.dg_setFld f _ c

theorem State.dg_modDg_self (s : State) (c : Nat) (f : Dg → Dg) : (s.modDg c f).dg c = f (s.dg c) :=
  SMap.get_put_self ..

theorem State.dg_modDg_other (s : State) {c k : Nat} (f : Dg → Dg) (h : k ≠ c) : (s.modDg c f).dg k = s.dg k :=
  SMap.get_put_other _ _ _ h

theorem dgB_ne {c k : Nat} (h : k ≠ c) : Reg.dgB c + 0 ≠ Reg.dgB k + 0 := by
  unfold Reg.dgB
  omega

theorem State.sameForce.modDg {s t : State} (h : s.sameForce t) (c : Nat) (f : Dg → Dg) : s.sameForce (t.modDg c f) := h

/-- An idle digitizer that is armed goes to state 1, and only its own window and record change (R249). -/
theorem State.dgArm_idle {s : State} {c : Nat} (m : DgArm) (h : (s.dg c).arm = none) :
    s.sameForce (s.dgArm c m) ∧
      ((s.dgArm c m).fld (Reg.DG_STATUS_STATE c) = 1 ∧ ((s.dgArm c m).dg c).arm = some m) ∧
      ∀ k ≠ c, (s.dgArm c m).dg k = s.dg k ∧ (s.dgArm c m).quad (Reg.dgB k + 0) = s.quad (Reg.dgB k + 0) := by
  unfold State.dgArm
  rw [if_neg (by simp [h])]
  unfold State.showSlopes
  dsimp only
  refine ⟨?_, ⟨?_, ?_⟩, fun k hk => ⟨?_, ?_⟩⟩
  · exact (((s.sameForce_refl.modDg ..).setFld ..).setFlag ..).setFlag ..
  · rw [State.fld_setFlag_other _ (Reg.DG_STATUS_SLOPE_UNSETTLED c) (Reg.DG_STATUS_STATE c) _ (fun _ => .inr (by decide : 35 ≤ 43)),
      State.fld_setFlag_other _ (Reg.DG_STATUS_FAULT c) (Reg.DG_STATUS_STATE c) _ (fun _ => .inr (by decide : 35 ≤ 37))]
    exact State.fld_setFld_self _ (Reg.DG_STATUS_STATE c) 1 (by decide : 35 ≤ 64)
  · rw [State.dg_setFlag, State.dg_setFlag, State.dg_setFld, State.dg_modDg_self]
  · rw [State.dg_setFlag, State.dg_setFlag, State.dg_setFld, State.dg_modDg_other _ _ hk]
  · exact (State.quad_setFlag_other _ _ (dgB_ne hk)).trans ((State.quad_setFlag_other _ _ (dgB_ne hk)).trans
      (State.quad_setFld_other _ _ (dgB_ne hk)))

/-- The measurement that trigger `tr` arms on digitizer c. -/
def State.dgMeasure (s : State) (b : Nat) (tr : Trigger) (c : Nat) : DgArm :=
  s.dgArmed c (.trigger b tr.serial) tr.base tr.toPop tr.toRecord tr.queue tr.word

/-- Digitizer c runs what trigger `tr` of the group led by `b` armed (R112, R249). -/
def State.dgTriggered (b : Nat) (tr : Trigger) (t : State) (c : Nat) : Prop :=
  t.fld (Reg.DG_STATUS_STATE c) = 1 ∧ ∃ m, (t.dg c).arm = some m ∧ m.origin = .trigger b tr.serial ∧ m.base = tr.base

/-- Digitizer c passes over a trigger of a group that does not own it (R234). -/
def State.dgPasses (t : State) (c : Nat) : Prop := t.flag (Reg.DG_STATUS_IGNORED c) = true ∧ (t.dg c).arm = none

/-- Digitizers that are armed, and others that are not. -/
theorem State.dgArms_triggered {t : State} (b : Nat) (tr : Trigger) {l : List Nat} (hnd : l.Nodup) (hidle : ∀ c, (t.dg c).arm = none) :
    let u := l.foldl (fun u c => u.dgArm c (u.dgMeasure b tr c)) t
    (t.sameForce u ∧ ∀ c ∉ l, t.dgPasses c → u.dgPasses c) ∧ ∀ c ∈ l, State.dgTriggered b tr u c := by
  refine State.foldl_once (Inv := fun u => t.sameForce u ∧ ∀ c ∉ l, t.dgPasses c → u.dgPasses c) (Did := State.dgTriggered b tr)
    (key := fun c => c) (Idle := fun u c => (u.dg c).arm = none)
    (by rwa [List.map_id']) (fun u c hc hu hi => ?_) ⟨t.sameForce_refl, fun _ _ => id⟩ (fun c _ => hidle c)
  obtain ⟨hforce, ⟨hstate, harm⟩, hothers⟩ := State.dgArm_idle (u.dgMeasure b tr c) hi
  refine ⟨⟨hu.1.trans hforce, fun k hk hpass => ?_⟩, ⟨hstate, _, harm, rfl, rfl⟩, fun k _ hk => ?_⟩
  · obtain ⟨hflag, hnone⟩ := hu.2 k hk hpass
    obtain ⟨hdg, hquad⟩ := hothers k (fun h => hk (h ▸ hc))
    exact ⟨(State.flag_of_quad hquad).trans hflag, (congrArg Dg.arm hdg).trans hnone⟩
  · obtain ⟨hdg, hquad⟩ := hothers k hk
    refine ⟨(congrArg Dg.arm hdg).trans, fun hdid => ?_⟩
    unfold State.dgTriggered at hdid ⊢
    rw [hdg, State.fld_of_quad (f := Reg.DG_STATUS_STATE k) hquad]
    exact hdid

/-- Digitizers that a trigger does not reach show it (R234). -/
theorem State.ignores_pass {s : State} (l : List Nat) (hidle : ∀ c, (s.dg c).arm = none) :
    let u := l.foldl (fun u c => u.setFlag (Reg.DG_STATUS_IGNORED c) true) s
    (s.sameForce u ∧ ∀ c, (u.dg c).arm = none) ∧ ∀ c ∈ l, u.dgPasses c := by
  have hself (u : State) (c : Nat) : (u.setFlag (Reg.DG_STATUS_IGNORED c) true).flag (Reg.DG_STATUS_IGNORED c) = true :=
    u.flag_setFlag_self (Reg.DG_STATUS_IGNORED c) true (by decide : 45 ≤ 64) Nat.one_pos
  refine State.foldl_each (Inv := fun u => s.sameForce u ∧ ∀ c, (u.dg c).arm = none) (Did := State.dgPasses)
    (fun u c _ hu => ?_) ⟨s.sameForce_refl, hidle⟩
  have hnone (k : Nat) : ((u.setFlag (Reg.DG_STATUS_IGNORED c) true).dg k).arm = none :=
    (congrArg Dg.arm (u.dg_setFlag _ _ k)).trans (hu.2 k)
  refine ⟨⟨hu.1.setFlag .., hnone⟩, ⟨hself u c, hnone c⟩, fun k _ hk => ⟨?_, hnone k⟩⟩
  by_cases hkc : k = c
  · rw [hkc]
    exact hself u c
  · exact (State.flag_of_quad (State.quad_setFlag_other u true (dgB_ne hkc))).trans hk.1

/-- The digitizers of the group's clusters that another group owns (R234). -/
def State.dgOthers (s : State) (b : Nat) : List Nat := (s.groupClusters b).filter (fun c => decide (s.leaderOf (s.dgOwner c) ≠ b))

/-- The digitizers that trigger `tr` of the group led by `b` arms: its own, whose site is active, or that have none (R234, R235). -/
def State.dgTargets (s : State) (b : Nat) (tr : Trigger) : List Nat :=
  ((s.groupClusters b).filter (fun c => decide (s.leaderOf (s.dgOwner c) = b))).filter (fun c =>
    match s.dgSite c with
    | none => true
    | some x => decide (x.1 = b) && bitOf (andMask tr.sites (s.openMask b)) x.2.1)

theorem State.mem_dgTargets {s : State} {b c : Nat} {tr : Trigger} (hc : c ∈ s.groupClusters b) (hown : s.leaderOf (s.dgOwner c) = b)
    (h : ∀ x, s.dgSite c = some x → x.1 = b ∧ bitOf (andMask tr.sites (s.openMask b)) x.2.1 = true) : c ∈ s.dgTargets b tr := by
  refine List.mem_filter.mpr ⟨List.mem_filter.mpr ⟨hc, decide_eq_true hown⟩, ?_⟩
  rcases hx : s.dgSite c with _ | x
  · rfl
  · obtain ⟨hl, hbit⟩ := h _ hx
    dsimp only
    rw [hbit, decide_eq_true hl]
    rfl

theorem doDigitizerTrigger_eq {s : State} {b : Nat} {g : Program} {tr : Trigger} (hdue : s.dueTrigger b 3 = some (g, tr)) :
    doDigitizerTrigger b s = (s.dgTargets b tr).foldl (fun u c => u.dgArm c (u.dgMeasure b tr c))
      (((s.dgOthers b).foldl (fun u c => u.setFlag (Reg.DG_STATUS_IGNORED c) true) s).firedTrigger b
        ((s.dgTargets b tr).filter (fun c => (s.dgSite c).isSome)).length) := by
  unfold doDigitizerTrigger
  rw [hdue]
  rfl

/-- A digitizer trigger that is due, no digitizer armed before (R112, R234, R235). -/
theorem doDigitizerTrigger_arms {s : State} {b : Nat} {g : Program} {tr : Trigger} (hdue : s.dueTrigger b 3 = some (g, tr))
    (hidle : ∀ c, (s.dg c).arm = none) :
    ∃ h, (doDigitizerTrigger b s).program b = some h ∧ h.triggers = g.triggers.drop 1 ∧
      (∀ c ∈ s.dgOthers b, (doDigitizerTrigger b s).dgPasses c) ∧
      ∀ c ∈ s.dgTargets b tr, State.dgTriggered b tr (doDigitizerTrigger b s) c := by
  obtain ⟨hg, htr⟩ := State.dueTrigger_head hdue
  have hnd : (s.dgTargets b tr).Nodup := (List.nodup_dedup _).sublist (List.filter_sublist.trans List.filter_sublist)
  have hapart : ∀ c ∈ s.dgOthers b, c ∉ s.dgTargets b tr := fun c hc hct => by
    have hne := of_decide_eq_true (List.mem_filter.mp hc).2
    exact hne (of_decide_eq_true (List.mem_filter.mp (List.mem_filter.mp hct).1).2)
  rw [doDigitizerTrigger_eq hdue]
  generalize ((s.dgTargets b tr).filter (fun c => (s.dgSite c).isSome)).length = k
  obtain ⟨⟨hsame, hnone⟩, hpass⟩ := State.ignores_pass (s.dgOthers b) hidle
  generalize (s.dgOthers b).foldl (fun u c => u.setFlag (Reg.DG_STATUS_IGNORED c) true) s = s1 at hsame hnone hpass ⊢
  have hprogram := State.firedTrigger_program ((hsame.program b).trans hg) htr k
  obtain ⟨x, hx⟩ := s1.firedTrigger_eq b k
  rw [hx] at hprogram ⊢
  obtain ⟨⟨hforce, hkeep⟩, harms⟩ := State.dgArms_triggered (t := { s1 with programs := x }) b tr hnd hnone
  exact ⟨_, (hforce.program b).trans hprogram, rfl, fun c hc => hkeep c (hapart c hc) (hpass c hc), harms⟩
/-! ### DPS triggers -/

/-- The triggers that the group led by `b` has still to fire. -/
def State.triggersOf (s : State) (b : Nat) : Option (List Trigger) := (s.program b).map Program.triggers

theorem State.triggersOf_of_programs {s t : State} (h : t.programs = s.programs) (b : Nat) : t.triggersOf b = s.triggersOf b := by
  unfold State.triggersOf State.program
  rw [h]

theorem State.modProgram_triggersOf (s : State) (x : Nat) {f : Program → Program} (hf : ∀ g, (f g).triggers = g.triggers) (b : Nat) :
    (s.modProgram x f).triggersOf b = s.triggersOf b := by
  unfold State.triggersOf
  by_cases h : b = x
  · rw [h, State.program_modProgram_self, Option.map_map]
    exact congrArg (Option.map · _) (funext hf)
  · rw [State.program_modProgram_other _ _ h]

theorem State.noted.triggersOf {s t : State} (h : s.noted t) (b : Nat) : t.triggersOf b = s.triggersOf b := by
  unfold State.triggersOf
  rcases hs : s.program b with _ | g
  · rw [h.none b hs]
  · obtain ⟨g', hg', heq, -⟩ := h.some b g hs
    have htr : g'.triggers = g.triggers := by
      have h' := congrArg Program.triggers heq
      exact h'
    rw [hg', Option.map_some, Option.map_some, htr]

theorem State.popPush_triggersOf (s : State) (r : PopReading) (b : Nat) : (s.popPush r).triggersOf b = s.triggersOf b := by
  unfold State.popPush
  split
  · exact State.triggersOf_of_programs (State.bump_programs ..) b
  · split
    · exact State.triggersOf_of_programs ((State.setFlag_programs ..).trans (State.bump_programs ..)) b
    · dsimp only
      refine (State.modProgram_triggersOf _ _ ?_ b).trans (State.triggersOf_of_programs (State.setFld_programs ..) b)
      exact fun _ => rfl

theorem State.conditionReading_triggersOf (s : State) (x serial : Nat) (r : CondReading) (b : Nat) :
    (s.conditionReading x serial r).triggersOf b = s.triggersOf b :=
  s.modProgram_triggersOf x (fun g => by split <;> rfl) b

/-- From `s` to `t` no reading's delivery shows in the settings in force, the DPS channels and the triggers of the group led by `b`. -/
def State.sameDps (b : Nat) (s t : State) : Prop := t.offReadings = s.offReadings ∧ t.triggersOf b = s.triggersOf b

theorem State.sameDps.trans {b : Nat} {s t u : State} (h1 : State.sameDps b s t) (h2 : State.sameDps b t u) : State.sameDps b s u :=
  ⟨h2.1.trans h1.1, h2.2.trans h1.2⟩

/-- A reading of a channel that made no conversion is delivered (R261). -/
theorem State.dpsDeliver_sameDps (s : State) (b l quantity : Nat) (m : DpsMeas) (test status : Nat) (value : Int) (flags : Nat) :
    State.sameDps b s (s.dpsDeliver l quantity m test status 0 value flags) := by
  unfold State.dpsDeliver
  extract_lets k s1 s2
  have hs1 : State.sameDps b s s1 := by
    simp only [s1]
    split
    · exact ⟨State.enterRecord_offReadings .., (State.enterRecord_noted ..).triggersOf b⟩
    · exact ⟨rfl, rfl⟩
  have hs2 : State.sameDps b s s2 := by
    simp only [s2]
    split
    · exact hs1.trans ⟨State.popPush_offReadings .., State.popPush_triggersOf ..⟩
    · exact hs1
  split
  · exact hs2.trans ⟨State.conditionReading_offReadings .., State.conditionReading_triggersOf ..⟩
  · exact hs2

/-- A measurement of a trigger that is refused delivers its readings, and does nothing else (R261, R267). -/
theorem State.dpsFinish_sameDps (s : State) {b serial l : Nat} {m : DpsMeas} (hm : m.origin = .trigger b serial) (status : Nat)
    (v i : Int) (flagsV flagsI : Nat) : State.sameDps b s (s.dpsFinish l m status 0 v i flagsV flagsI) := by
  unfold State.dpsFinish
  extract_lets s1 s2
  have hs1 : State.sameDps b s s1 := by
    simp only [s1]
    split
    · exact s.dpsDeliver_sameDps ..
    · exact ⟨rfl, rfl⟩
  have hs2 : State.sameDps b s s2 := by
    simp only [s2]
    split
    · exact hs1
    · exact hs1.trans (s1.dpsDeliver_sameDps ..)
  rw [hm]
  exact hs2

/-- Channels on their way through DPS_READ_TRIGGER's loop (R112): each measures what the trigger started, or nothing. -/
structure State.dpsTriggered (s : State) (b : Nat) (tr : Trigger) (l : List Trigger) (t : State) : Prop where
  force : ∀ f, t.afld f = s.afld f
  triggers : t.triggersOf b = some l
  level2 : ∀ n, (t.dpsRec n).level2 = false
  meas : ∀ n m, (t.dpsRec n).meas = some m → m.origin = .trigger b tr.serial ∧ m.qty = s.afld (Reg.DPS_CTRL_MEAS_QTY n)

/-- The measurement that trigger `tr` starts on channel u.2.1 of site u.1 (R261). -/
def State.dpsMeasure (s : State) (b : Nat) (tr : Trigger) (u : SitePos × Nat × Nat) : DpsMeas :=
  let q := s.afld (Reg.DPS_CTRL_MEAS_QTY u.2.1)
  { origin := .trigger b tr.serial, leader := b, position := u.1.position, site := some u.1.site
    test := (tr.base + (if q = 0 then 2 else 1) * u.2.2) % 65536, toPop := tr.toPop, toRecord := tr.toRecord
    queue := tr.queue, word := tr.word, qty := q, avgLog2 := s.afld (Reg.DPS_CTRL_AVG_LOG2 u.2.1), start := s.now
    suspect := s.supplySuspect }

theorem State.dpsRec_of_dps {s t : State} (h : t.dps = s.dps) (n : Nat) : t.dpsRec n = s.dpsRec n := by
  unfold State.dpsRec
  rw [h]

/-- One more channel measures, and those that did go on. -/
theorem State.dpsTriggered.begin {s t : State} {b : Nat} {tr : Trigger} {l : List Trigger} (h : s.dpsTriggered b tr l t)
    (u : SitePos × Nat × Nat) :
    let t' := t.dpsBegin u.2.1 (t.dpsMeasure b tr u)
    s.dpsTriggered b tr l t' ∧ (t'.dpsRec u.2.1).meas.isSome = true ∧
      ∀ n, (t.dpsRec n).meas.isSome = true → (t'.dpsRec n).meas.isSome = true := by
  intro t'
  have hopen : (t.gangOf u.2.1).any (fun n => (t.dpsRec n).level2) = false := by simp [h.level2]
  by_cases hbusy : (t.dpsRec u.2.1).meas.isSome = true
  · have hsame : State.sameDps b t t' := by
      simp only [t', State.dpsBegin, hopen, hbusy, Bool.false_eq_true, if_false, if_true]
      exact t.dpsFinish_sameDps rfl ..
    have hrec : ∀ n, t'.dpsRec n = t.dpsRec n := State.dpsRec_of_dps (State.dps_of_offReadings hsame.1)
    refine ⟨⟨fun f => (State.afld_of_offReadings hsame.1 f).trans (h.force f), hsame.2.trans h.triggers, fun n => ?_, fun n => ?_⟩, ?_,
      fun n => ?_⟩
    · rw [hrec]
      exact h.level2 n
    · rw [hrec]
      exact h.meas n
    · rw [hrec]
      exact hbusy
    · rw [hrec]
      exact id
  · have hbegin : t' = t.modDps u.2.1 (fun d => { d with meas := some (t.dpsMeasure b tr u) }) := by
      simp only [t', State.dpsBegin, hopen, hbusy, Bool.false_eq_true, if_false]
    have hself : t'.dpsRec u.2.1 = { t.dpsRec u.2.1 with meas := some (t.dpsMeasure b tr u) } := by
      rw [hbegin]
      exact SMap.get_put_self ..
    have hother : ∀ n ≠ u.2.1, t'.dpsRec n = t.dpsRec n := fun n hn => by
      rw [hbegin]
      exact SMap.get_put_other _ _ _ hn
    refine ⟨⟨fun f => ?_, ?_, fun n => ?_, fun n m hm => ?_⟩, ?_, fun n hn => ?_⟩
    · rw [hbegin]
      exact h.force f
    · rw [hbegin]
      exact h.triggers
    · by_cases hn : n = u.2.1
      · rw [hn, hself]
        exact h.level2 _
      · rw [hother n hn]
        exact h.level2 n
    · by_cases hn : n = u.2.1
      · rw [hn, hself] at hm
        cases hm
        exact ⟨rfl, (h.force _).trans (by rw [hn])⟩
      · rw [hother n hn] at hm
        exact h.meas n m hm
    · rw [hself]
      rfl
    · by_cases hu : n = u.2.1
      · rw [hu, hself]
        rfl
      · rw [hother n hu]
        exact hn

/-- The channels that trigger `tr` of the group led by `b` measures: position, channel, rank (R261). -/
def State.dpsTargets (s : State) (b : Nat) (tr : Trigger) : List (SitePos × Nat × Nat) :=
  ((s.group b).positions.filter (fun x => bitOf (andMask tr.sites (s.openMask b)) x.position)).flatMap (fun x =>
    (s.dpsUnits x).zipIdx.map (fun u => (x, u.1, u.2)))

theorem State.mem_dpsTargets {s : State} {b n : Nat} {tr : Trigger} {x : SitePos} (hx : x ∈ (s.group b).positions)
    (hopen : bitOf (andMask tr.sites (s.openMask b)) x.position = true) (hn : n ∈ s.dpsUnits x) :
    ∃ u ∈ s.dpsTargets b tr, u.2.1 = n := by
  have hmap : n ∈ (s.dpsUnits x).zipIdx.map Prod.fst := by rwa [List.zipIdx_map_fst]
  obtain ⟨⟨m, i⟩, hm, rfl⟩ := List.mem_map.mp hmap
  exact ⟨(x, m, i), List.mem_flatMap.mpr ⟨x, List.mem_filter.mpr ⟨hx, hopen⟩, List.mem_map.mpr ⟨(m, i), hm, rfl⟩⟩, rfl⟩

theorem doDpsReadTrigger_eq {s : State} {b : Nat} {g : Program} {tr : Trigger} (hdue : s.dueTrigger b 4 = some (g, tr)) :
    ∃ k, doDpsReadTrigger b s = (s.dpsTargets b tr).foldl (fun t u => t.dpsBegin u.2.1 (t.dpsMeasure b tr u)) (s.firedTrigger b k) := by
  unfold doDpsReadTrigger
  rw [hdue]
  exact ⟨_, rfl⟩

/-- A DPS trigger that is due, no channel measuring and none in a level-2 check (R112, R261). -/
theorem doDpsReadTrigger_measures {s : State} {b : Nat} {g : Program} {tr : Trigger} (hdue : s.dueTrigger b 4 = some (g, tr))
    (hidle : ∀ n, (s.dpsRec n).meas = none ∧ (s.dpsRec n).level2 = false) :
    s.dpsTriggered b tr (g.triggers.drop 1) (doDpsReadTrigger b s) ∧
      ∀ u ∈ s.dpsTargets b tr, ((doDpsReadTrigger b s).dpsRec u.2.1).meas.isSome = true := by
  obtain ⟨hg, htr⟩ := State.dueTrigger_head hdue
  obtain ⟨k, hfires⟩ := doDpsReadTrigger_eq hdue
  have hprogram := State.firedTrigger_program hg htr k
  rw [hfires]
  obtain ⟨x, hx⟩ := s.firedTrigger_eq b k
  rw [hx] at hprogram ⊢
  have hstart : s.dpsTriggered b tr (g.triggers.drop 1) { s with programs := x } :=
    { force := fun _ => rfl
      triggers := congrArg (Option.map Program.triggers) hprogram
      level2 := fun n => (hidle n).2
      meas := fun n _ hm => absurd ((hidle n).1.symm.trans hm) nofun }
  refine State.foldl_each (Inv := s.dpsTriggered b tr (g.triggers.drop 1))
    (Did := fun t (u : SitePos × Nat × Nat) => (t.dpsRec u.2.1).meas.isSome = true) (fun t u _ ht => ?_) hstart
  obtain ⟨hinv, hdid, hkeep⟩ := ht.begin u
  exact ⟨hinv, hdid, fun r _ => hkeep r.2.1⟩

/-- Settles O24: every row acts through its loop over the pins, units or channels that it reaches. -/
theorem resultsAndTriggers : Obligations.ResultsAndTriggers := by
  unfold Obligations.ResultsAndTriggers
  refine ⟨?_, ?_, ?_, ?_, ?_⟩
  · intro s b atE3 steady g w idx l hup hg hout hnext hclear hl
    obtain ⟨h, hh, hfail, hpc, hlc⟩ := doCompareResult_fails atE3 steady hg hout hnext hclear hl
    exact ⟨_, h, event_next hup (doCompareResult_frozen ..), hh, hfail, hpc, hlc⟩
  · intro s b g tr pins hup hdue hidle hpins
    obtain ⟨hprogram, hregs, hmeas⟩ := doPpmuTrigger_measures hdue hidle hpins
    exact ⟨_, _, event_next hup (doPpmuTrigger_frozen ..), hprogram, rfl, rfl, hregs, fun q hq => ⟨_, hmeas q hq, rfl, rfl, rfl⟩⟩
  · intro s b g tr hup _ hdue hidle
    obtain ⟨h, hh, htriggers, harms⟩ := doTmuTrigger_arms hdue hidle
    exact ⟨_, h, event_next hup (doTmuTrigger_frozen ..), hh, htriggers, fun n hn hsite => harms n (State.mem_tmuTargets hn hsite)⟩
  · intro s b g tr hup _ hdue hidle
    obtain ⟨h, hh, htriggers, hothers, harms⟩ := doDigitizerTrigger_arms hdue hidle
    exact ⟨_, h, event_next hup (doDigitizerTrigger_frozen ..), hh, htriggers, fun c hc =>
      ⟨fun hne => hothers c (List.mem_filter.mpr ⟨hc, decide_eq_true hne⟩), fun hown hsite => harms c (State.mem_dgTargets hc hown hsite)⟩⟩
  · intro s b g tr hup hdue hidle
    obtain ⟨hall, hsome⟩ := doDpsReadTrigger_measures hdue hidle
    obtain ⟨h, hh, htriggers⟩ := Option.map_eq_some_iff.mp hall.triggers
    refine ⟨_, h, event_next hup (doDpsReadTrigger_frozen ..), hh, htriggers, fun x hx hopen n hn => ?_⟩
    obtain ⟨u, hu, rfl⟩ := State.mem_dpsTargets hx hopen hn
    obtain ⟨m, hm⟩ := Option.isSome_iff_exists.mp (hsome u hu)
    exact ⟨m, hm, hall.meas _ m hm⟩

end Sys2Proof.Machine
end

section
/-! SUPPORT. Relocks of a cluster's PLL (R75, R76): the registers that the end and the start of a relock leave, and the programs that
a lost lock stops. -/

namespace Sys2Proof.Machine

open Sys2Proof

/-! ### CLK_STATUS and READY (R93, R487) -/

section Relock

variable (s : State) (c : Nat)

/-- A flag reads what it was written. -/
theorem State.flag_setFlag_bit (a : Nat) {i : Nat} (hi : i < 64) (b : Bool) : (s.setFlag ⟨a, i, 1⟩ b).flag ⟨a, i, 1⟩ = b :=
  State.flag_setFlag_self _ _ _ hi Nat.one_pos

/-- Another flag of the same quad reads as before. -/
theorem State.flag_setFlag_other_bit (a : Nat) {i j : Nat} (h : i ≠ j) (b : Bool) :
    (s.setFlag ⟨a, i, 1⟩ b).flag ⟨a, j, 1⟩ = s.flag ⟨a, j, 1⟩ :=
  State.flag_setFlag_other _ _ _ _ (fun _ => Nat.lt_or_gt_of_ne h)

/-- READY of a unit and CLK_STATUS of a cluster are in different quads. -/
theorem unitReady_apart_clkStatus : (Reg.UNIT_READY c).addr ≠ Reg.clB c + 0x8 := by
  simp only [Reg.UNIT_READY, Reg.clB]
  omega

/-- A relock that starts: the cluster relocks, is not locked and not ready, and LOCK_LOST stays (R75). -/
theorem State.startRelock_flags :
    (s.startRelock c).flag (Reg.CLK_STATUS_LOCK_LOST c) = s.flag (Reg.CLK_STATUS_LOCK_LOST c) ∧
      (s.startRelock c).flag (Reg.CLK_STATUS_RELOCKING c) = true ∧ (s.startRelock c).flag (Reg.CLK_STATUS_LOCKED c) = false ∧
      (s.startRelock c).flag (Reg.UNIT_READY c) = false := by
  have hapart := unitReady_apart_clkStatus c
  unfold State.startRelock
  dsimp only
  refine ⟨?lost, ?relocking, ?locked, ?ready⟩
  case lost =>
    exact ((State.flag_setFlag_other_bit _ _ (by decide) _).trans (State.flag_setFlag_other_bit _ _ (by decide) _)).trans
      (State.flag_setFlag_other _ _ _ _ (fun h => absurd h hapart))
  case relocking => exact (State.flag_setFlag_other_bit _ _ (by decide) _).trans (State.flag_setFlag_bit _ _ (by decide) _)
  case locked => exact State.flag_setFlag_bit _ _ (by decide) _
  case ready =>
    rw [State.flag_setFlag_other _ _ _ _ (fun h => absurd h.symm hapart), State.flag_setFlag_other _ _ _ _ (fun h => absurd h.symm hapart)]
    exact State.flag_setFlag_bit _ _ (Nat.mod_lt _ (by decide)) _

/-- The cluster is ready once its relock has ended: it was when the relock began, and has since neither been reset, failed nor lost
its power (R75). -/
def State.readyAfterRelock (s : State) (c : Nat) : Bool :=
  s.ready c || (s.cluster c).wasReady && s.present c && !s.flag (Reg.UNIT_OFF c) && !s.flag (Reg.UNIT_FAILED c) &&
    !s.units.restarting.contains c

/-- A relock that ends writes three flags beside the timing phase (R75). -/
theorem doRelockEnd_eq (h : s.flag (Reg.CLK_STATUS_RELOCKING c) = true) :
    doRelockEnd c s = (((s.alignCluster c).setFlag (Reg.CLK_STATUS_RELOCKING c) false).setFlag (Reg.CLK_STATUS_LOCKED c) true).setFlag
      (Reg.UNIT_READY c) (s.readyAfterRelock c) := by
  have hwas : ((s.alignCluster c).cluster c).wasReady = (s.cluster c).wasReady := by
    unfold State.alignCluster State.cluster
    dsimp only
    rw [SMap.get_put_self]
  unfold doRelockEnd
  rw [if_pos h]
  dsimp only
  rw [hwas]
  rfl

theorem doRelockEnd_flags (h : s.flag (Reg.CLK_STATUS_RELOCKING c) = true) :
    (doRelockEnd c s).flag (Reg.CLK_STATUS_RELOCKING c) = false ∧ (doRelockEnd c s).flag (Reg.CLK_STATUS_LOCKED c) = true ∧
      (doRelockEnd c s).flag (Reg.UNIT_READY c) = s.readyAfterRelock c := by
  have hapart := unitReady_apart_clkStatus c
  rw [doRelockEnd_eq s c h]
  refine ⟨?relocking, ?locked, ?ready⟩
  case relocking =>
    rw [State.flag_setFlag_other _ _ _ _ (fun h => absurd h hapart)]
    exact (State.flag_setFlag_other_bit _ _ (by decide) _).trans (State.flag_setFlag_bit _ _ (by decide) _)
  case locked =>
    rw [State.flag_setFlag_other _ _ _ _ (fun h => absurd h hapart)]
    exact State.flag_setFlag_bit _ _ (by decide) _
  case ready => exact State.flag_setFlag_bit _ _ (Nat.mod_lt _ (by decide)) _

theorem doRelockEnd_regsBut (h : s.flag (Reg.CLK_STATUS_RELOCKING c) = true) :
    s.regsBut (doRelockEnd c s) [Reg.CLK_STATUS_RELOCKING c, Reg.CLK_STATUS_LOCKED c, Reg.UNIT_READY c] := by
  rw [doRelockEnd_eq s c h]
  refine State.regsBut.setFlag (State.regsBut.setFlag (State.regsBut.setFlag ?_ _ (by simp)) _ (by simp)) _ (by simp)
  exact (s.regsBut_refl _).congr rfl rfl

/-- The timing phase is aligned to cell time (R22, R75). -/
theorem doRelockEnd_aligned (h : s.flag (Reg.CLK_STATUS_RELOCKING c) = true) :
    (SMap.get {} (doRelockEnd c s).clusters c).aligned = s.fld Reg.EPOCH * 2 ^ 64 + s.now := by
  have hclusters : (doRelockEnd c s).clusters = (s.alignCluster c).clusters := by
    rw [doRelockEnd_eq s c h]
    rfl
  rw [hclusters]
  unfold State.alignCluster
  dsimp only
  rw [SMap.get_put_self]

end Relock

/-! ### Programs that a lost lock stops (R76) -/

section Halt

variable {s : State} {b : Nat} {g : Program}

/-- What a halt with status `st` keeps of the program `g` in `h`: it issues no more, waits for no result, stands where it stood, and
every position taking part with status 0 has status `st`. -/
structure Program.haltedAs (st : Nat) (g h : Program) : Prop where
  ended : h.ended = true
  outstanding : h.outstanding = []
  pendingReadings : h.pendingReadings = []
  micro : h.micro = g.micro
  status : ∀ p < 8, bitOf g.part p = true → g.status[p]? = some 0 → h.status[p]? = some st

/-- The program as it stands when the group stops to issue: nothing of it is still to return, and every position is noted `st`. -/
def Program.cutAt (st : Nat) (g : Program) : Program :=
  (setBits g.part 8).foldl (fun g p => g.note p st)
    { g with halted := true, seqDone := 0, outstanding := [], triggers := [], analog := [], pendingReadings := [] }

/-- Statuses noted change nothing but the statuses. -/
theorem Program.foldl_note_eq (st : Nat) (l : List Nat) (g : Program) :
    l.foldl (fun g q => g.note q st) g = { g with status := (l.foldl (fun g q => g.note q st) g).status } := by
  induction l generalizing g with
  | nil => rfl
  | cons q l ih => exact ih (g.note q st)

theorem Program.cutAt_eq (st : Nat) (g : Program) :
    g.cutAt st = { g with halted := true, seqDone := 0, outstanding := [], triggers := [], analog := [], pendingReadings := [],
                          status := (g.cutAt st).status } := Program.foldl_note_eq st _ _

theorem Program.cutAt_status {st p : Nat} (h0 : first16 0 st = st) (hp : p < 8) (hpart : bitOf g.part p = true)
    (hg : g.status[p]? = some 0) : (g.cutAt st).status[p]? = some st := by
  refine Program.note_list h0 _ (.inr ⟨hg, ?_⟩)
  simp only [setBits, List.mem_filter, List.mem_range]
  exact ⟨hp, hpart⟩

/-- A group with no word being issued and no result to come closes nothing. -/
theorem State.closeWord_settled (hg : s.program b = some g) (hseq : g.seqDone = 0) (hout : g.outstanding = []) :
    (s.closeWord b).program b = some g := by
  have hclose : g.closeWord = g := by
    unfold Program.closeWord
    rw [if_pos hseq]
  unfold State.closeWord State.settleResults
  rw [State.program_modProgram_self, State.program_modProgram_self, hg, Option.map_some, Option.map_some, hclose, hout]
  unfold State.settleWords
  simp only [hout]

theorem State.endIssue_settled (hg : s.program b = some g) (hseq : g.seqDone = 0) (hout : g.outstanding = []) :
    (s.endIssue b).program b = some { g with ended := true, wait := 0, blocked := 0, stall := 0, preempts := [], trapRequests := [],
                                             trapsAgain := [], carried := [], calHeld := false } := by
  unfold State.endIssue
  rw [State.closeWord_settled hg hseq hout]
  dsimp only
  exact (State.program_of_anchors (State.showExec_anchors _ b) b).trans (State.program_setProgram_self _ b _)

/-- A group that stops issuing leaves the other groups' programs. -/
theorem State.endIssue_other (s : State) {x : Nat} (hx : x ≠ b) : (s.endIssue b).program x = s.program x := by
  have hclose : (s.closeWord b).program x = s.program x :=
    (State.settleResults_other _ hx).trans (s.program_modProgram_other _ hx)
  have hall (t : State) (l : List Cmd) : (t.completeAll l 0 0).anchors.inward = t.anchors.inward := by
    unfold State.completeAll
    simp
  unfold State.endIssue
  cases hg : (s.closeWord b).program b with
  | none => rfl
  | some g =>
    dsimp only
    rw [State.program_of_anchors (State.showExec_anchors _ b) x, State.program_setProgram_other _ _ hx,
      State.program_of_anchors (State.idleStreams_anchors _ b) x, ← hclose]
    refine State.program_of_inward ?_ x
    split <;> simp [hall]

/-- A group that halts stops to issue once its program is cut (R76). -/
theorem State.haltGroup_eq (s : State) (b st : Nat) : ∃ t : State, s.haltGroup b st = t.endIssue b ∧
    t.program b = (s.program b).map (Program.cutAt st) ∧ ∀ x, x ≠ b → t.program x = s.program x := by
  unfold State.haltGroup State.cutGroup State.stopAllSites
  refine ⟨_, rfl, ?_, fun x hx => ?_⟩
  · rw [State.program_modProgram_self, State.program_modProgram_self, State.program_modProgram_self, Option.map_map, Option.map_map]
    rfl
  · rw [State.program_modProgram_other _ _ hx, State.program_modProgram_other _ _ hx, State.program_modProgram_other _ _ hx]

theorem State.haltGroup_program {st : Nat} (hg : s.program b = some g) (h0 : first16 0 st = st) :
    ∃ h, (s.haltGroup b st).program b = some h ∧ g.haltedAs st h := by
  obtain ⟨t, heq, hcut, -⟩ := s.haltGroup_eq b st
  rw [hg, Option.map_some] at hcut
  have hsettled := State.endIssue_settled hcut (by rw [Program.cutAt_eq]) (by rw [Program.cutAt_eq])
  rw [← heq] at hsettled
  refine ⟨_, hsettled, rfl, ?_, ?_, ?_, fun p hp hpart hstatus => Program.cutAt_status h0 hp hpart hstatus⟩
  all_goals dsimp only; rw [Program.cutAt_eq]

theorem State.haltGroup_other (s : State) {x : Nat} (st : Nat) (hx : x ≠ b) : (s.haltGroup b st).program x = s.program x := by
  obtain ⟨t, heq, -, hother⟩ := s.haltGroup_eq b st
  rw [heq, State.endIssue_other t hx, hother x hx]

/-- Groups of distinct leaders halt one after another: each is reached once, and keeps what it then has. -/
theorem State.haltGroups_program (s : State) {l : List Nat} (hl : l.Nodup) {st : Nat} (h0 : first16 0 st = st) :
    ∀ b ∈ l, ∀ g, s.program b = some g → ∃ h, (l.foldl (fun s b => s.haltGroup b st) s).program b = some h ∧ g.haltedAs st h := by
  refine (State.foldl_once (key := id) (Inv := fun _ => True) (Idle := fun t b => t.program b = s.program b)
    (Did := fun t b => ∀ g, s.program b = some g → ∃ h, t.program b = some h ∧ g.haltedAs st h)
    (by rwa [List.map_id]) (fun t b _ _ hidle => ?_) trivial (fun _ _ => rfl)).2
  refine ⟨trivial, fun g hg => State.haltGroup_program (hidle.trans hg) h0, fun x _ hx => ?_⟩
  have hother := t.haltGroup_other st hx
  exact ⟨hother.trans, fun h g hg => hother.symm ▸ h g hg⟩

end Halt

/-! ### PLL_LOCK_LOSS -/

section LockLoss

variable {s : State} {c : Nat}

/-- A lock that is lost: the groups with a sequencer of the cluster halt, LOCK_LOST sets with its event, and a relock starts (R76). -/
theorem doPllLockLoss_eq (h : s.flag (Reg.CLK_STATUS_LOCKED c) = true) :
    doPllLockLoss c s = (((((s.leadersOf (clusterSeqs c)).foldl (fun s b => s.haltGroup b 0x50) s).setFlag (Reg.CLK_STATUS_LOCK_LOST c)
      true).raise 3 c 0).startRelock c) := by
  unfold doPllLockLoss
  rw [if_pos h]

theorem doPllLockLoss_flags (h : s.flag (Reg.CLK_STATUS_LOCKED c) = true) :
    (doPllLockLoss c s).flag (Reg.CLK_STATUS_LOCK_LOST c) = true ∧ (doPllLockLoss c s).flag (Reg.CLK_STATUS_RELOCKING c) = true ∧
      (doPllLockLoss c s).flag (Reg.CLK_STATUS_LOCKED c) = false ∧ (doPllLockLoss c s).flag (Reg.UNIT_READY c) = false := by
  rw [doPllLockLoss_eq h]
  obtain ⟨hlost, hrest⟩ := State.startRelock_flags ((((s.leadersOf (clusterSeqs c)).foldl (fun s b => s.haltGroup b 0x50) s).setFlag
    (Reg.CLK_STATUS_LOCK_LOST c) true).raise 3 c 0) c
  refine ⟨?_, hrest⟩
  rw [hlost, (State.raise_regsBut _ 3 c 0).flag]
  · exact State.flag_setFlag_bit _ _ (by decide) _
  · simp [Reg.SRC_STAT_COUNT, Reg.SRC_STAT_SAT, Reg.CLK_STATUS_LOCK_LOST, Reg.clB]

theorem doPllLockLoss_program (h : s.flag (Reg.CLK_STATUS_LOCKED c) = true) {b : Nat} (hb : b ∈ s.leadersOf (clusterSeqs c))
    {g : Program} (hg : s.program b = some g) : ∃ h, (doPllLockLoss c s).program b = some h ∧ g.haltedAs 0x50 h := by
  obtain ⟨f, hf, hhalted⟩ := s.haltGroups_program (List.nodup_dedup _) (st := 0x50) (by decide) b hb g hg
  refine ⟨f, ?_, hhalted⟩
  rw [doPllLockLoss_eq h, State.program_of_anchors (State.startRelock_anchors _ c), State.program_of_anchors (State.raise_anchors _ 3 c 0),
    State.program_of_anchors (State.setFlag_anchors _ _ true)]
  exact hf

end LockLoss

/-- Settles O20: a relock's end by the flags that it writes, a lost lock by its loop over the groups of the cluster. -/
theorem clocksRelock : Obligations.ClocksRelock := by
  unfold Obligations.ClocksRelock
  refine ⟨fun s c hr hrelocking => ?_, fun s c hr hlocked => ?_⟩
  · obtain ⟨hend, hlocked, hready⟩ := doRelockEnd_flags s c.val hrelocking
    exact ⟨_, event_next hr (doRelockEnd_frozen ..), hend, hlocked, hready, doRelockEnd_aligned s c.val hrelocking,
      doRelockEnd_regsBut s c.val hrelocking⟩
  · obtain ⟨hlost, hrelocking, hunlocked, hready⟩ := doPllLockLoss_flags hlocked
    refine ⟨_, event_next hr (doPllLockLoss_frozen ..), hlost, hrelocking, hunlocked, hready, fun b hb g hg => ?_⟩
    obtain ⟨h, hh, hhalted⟩ := doPllLockLoss_program hlocked hb hg
    exact ⟨h, hh, hhalted.ended, hhalted.outstanding, hhalted.pendingReadings, hhalted.micro, hhalted.status⟩

end Sys2Proof.Machine
end

section
/-! SUPPORT. Pages enter the control stores of a group, blocks the stream buffers (R120 to R123, R156 to R169). -/

namespace Sys2Proof.Machine

open Sys2Proof

/-! ### Records of sequencers -/

@[simp] theorem State.seqRec_modSeq_self (s : State) (n : Nat) (f : Seq → Seq) : (s.modSeq n f).seqRec n = f (s.seqRec n) :=
  SMap.get_put_self _ _ _ _

theorem State.seqRec_modSeq_other (s : State) {n m : Nat} (f : Seq → Seq) (h : m ≠ n) : (s.modSeq n f).seqRec m = s.seqRec m :=
  SMap.get_put_other _ _ _ h

theorem State.seqRec_of_seqs {s t : State} (h : t.seqs = s.seqs) (n : Nat) : t.seqRec n = s.seqRec n := by
  unfold State.seqRec
  rw [h]

@[simp] theorem State.showFrames_seqs (s : State) (n : Nat) : (s.showFrames n).seqs = s.seqs := rfl

@[simp] theorem State.showBuffer_seqs (s : State) (n : Nat) : (s.showBuffer n).seqs = s.seqs := rfl

theorem State.bumpMembers_seqs (s : State) (b : Nat) (f : Nat → Fld) : (s.bumpMembers b f).seqs = s.seqs :=
  State.foldl_same State.seqs (fun u n => State.bump_seqs u (f n) 1) _ _

theorem State.members_of_roster {s t : State} (h : t.roster = s.roster) (b : Nat) : t.members b = s.members b := by
  have hsize : (t.group b).size = (s.group b).size := congrFun (congrArg Roster.size h) b
  unfold State.members
  rw [hsize]

/-! ### Frames -/

/-- Frame `i` of sequencer `n` holds frame `f`, used at some time. -/
def State.holdsFrame (s : State) (i : Nat) (f : Frame) (n : Nat) : Prop :=
  ∃ used, SMap.find (s.seqRec n).frames i = some { f with used := used }

theorem State.holdsFrame_of_seqs {s t : State} (h : t.seqs = s.seqs) {i : Nat} {f : Frame} {n : Nat} (hs : s.holdsFrame i f n) :
    t.holdsFrame i f n := by
  unfold State.holdsFrame
  rwa [State.seqRec_of_seqs h]

/-- One round of `State.putFrame`: sequencer `n` holds the frame, and so does every sequencer that held it. -/
theorem State.holdsFrame_put (s : State) {i : Nat} {f : Frame} {n m : Nat} (h : m = n ∨ s.holdsFrame i f m) :
    ((s.modSeq n (fun q => { q with frames := SMap.put q.frames i { f with used := q.useClock + 1 }, useClock := q.useClock + 1 })).showFrames
      n).holdsFrame i f m := by
  refine State.holdsFrame_of_seqs (State.showFrames_seqs _ n) ?_
  by_cases hmn : m = n
  · subst hmn
    unfold State.holdsFrame
    rw [State.seqRec_modSeq_self]
    exact ⟨_, SMap.find_put_self _ _ _⟩
  · unfold State.holdsFrame
    rw [State.seqRec_modSeq_other _ _ hmn]
    exact h.resolve_left hmn

/-- Every member of the group holds the frame that is put (R120). -/
theorem State.putFrame_holds (s : State) (b i : Nat) (f : Frame) : ∀ n ∈ s.members b, (s.putFrame b i f).holdsFrame i f n :=
  (State.foldl_each (Inv := fun _ => True) (Did := fun t n => t.holdsFrame i f n)
    (fun t _ _ _ => ⟨trivial, t.holdsFrame_put (.inl rfl), fun _ _ hm => t.holdsFrame_put (.inr hm)⟩) trivial).2

/-- A page that fills frame `i` in place of what the members held there (R120). -/
theorem State.replaceFrame_holds (s : State) (b i : Nat) (f : Frame) :
    ∀ n ∈ s.members b, ((s.dropFrames b i).putFrame b i f).holdsFrame i f n := by
  rw [← State.members_of_roster (State.dropFrames_roster s b i)]
  exact State.putFrame_holds _ b i f

theorem State.dropFrame_anchors (s : State) (n i : Nat) : (s.dropFrame n i).anchors = s.anchors := by
  unfold State.dropFrame
  split
  · rfl
  · dsimp only
    split <;> simp

theorem State.replaceFrame_anchors (s : State) (b i : Nat) (f : Frame) :
    ((s.dropFrames b i).putFrame b i f).anchors = s.anchors :=
  (State.anchors_foldl _ (fun _ _ => by simp) _ _).trans (State.anchors_foldl _ (fun u n => u.dropFrame_anchors n i) _ _)

theorem State.readPage_members (s : State) (b image codeOffset pg : Nat) (spec : Bool) :
    (s.readPage b image codeOffset pg spec).2.members b = s.members b :=
  State.members_of_roster (State.readPage_roster ..) b

/-! ### CS_DEMAND_FILL and CS_SPEC_FILL (R122, R123) -/

theorem doCsDemandFill_page {s s1 : State} {b : Nat} {g : Program} {ws l : List Nat} {i : Nat} (hg : s.program b = some g)
    (hended : g.ended = false) (hdue : g.fillsDue = []) (hwait : g.wait = 0)
    (hmiss : findFrame (s.seqRec b).frames (g.micro.pc / 256) = none)
    (hread : s.readPage b g.image g.header.codeOffset (g.micro.pc / 256) false = (.page ws l, s1)) (hg1 : s1.program b = some g)
    (hframe : s1.demandFrame b (g.lastWord.map (fun pc => pc / 256)) = some i) :
    doCsDemandFill b s = ((((s1.dropFrames b i).putFrame b i
      { page := g.micro.pc / 256, words := ws, poisoned := l, pinned := false }).bumpMembers b Reg.DEMAND_FILLS).readSafeBit b) := by
  unfold doCsDemandFill State.fillFrame
  simp [hg, hended, hdue, hwait, hmiss, hread, hg1, hframe]

theorem State.readSafeBit_idle {s : State} {b : Nat} {g : Program} (hg : s.program b = some g) (h : g.stall ≠ 2) :
    s.readSafeBit b = s := by
  unfold State.readSafeBit
  simp [hg, h]

theorem doCsSpecFill_page {s s1 : State} {b pg : Nat} {g : Program} {ws l : List Nat} {i : Nat} (hg : s.program b = some g)
    (hbegun : g.begun = true) (hended : g.ended = false) (hen : s.flag (Reg.CS_CTRL_PREFETCH_EN b) = true)
    (hpg : pg ∈ s.prefetchPages b g) (hmiss : findFrame (s.seqRec b).frames pg = none) (hframe : s.specFrame b = some i)
    (hread : s.readPage b g.image g.header.codeOffset pg true = (.page ws l, s1)) :
    doCsSpecFill b pg s =
      ((s1.dropFrames b i).putFrame b i { page := pg, words := ws, spec := true }).bumpMembers b Reg.SPEC_FILLS := by
  unfold doCsSpecFill
  simp [hg, hbegun, hended, hen, hpg, hmiss, hframe, hread]

/-! ### STREAM_BLOCK_ARRIVAL (R158, R163) -/

/-- A sequencer on no ring holds the block that arrives as its latest (R158). -/
theorem State.privateArrival_buffer (s : State) (n : Nat) (x : Block) :
    ((s.privateArrival n x).seqRec n).buffer = (s.seqRec n).buffer ++ [x] := by
  have hseqs : (s.privateArrival n x).seqs = (s.modSeq n (fun q => { q with buffer := q.buffer ++ [x] })).seqs := by
    unfold State.privateArrival
    dsimp only
    rw [State.showBuffer_seqs]
    split <;> split <;> rfl
  rw [State.seqRec_of_seqs hseqs, State.seqRec_modSeq_self]

/-- A member of a ring that takes the entry at its position (R163). -/
theorem State.takeRing_seqRec {s : State} {r n : Nat} {x : Block}
    (hx : (s.ring r).entries[(s.seqRec n).ringNext - (s.ring r).first]? = some x) :
    (s.takeRing r n).seqRec n =
      { s.seqRec n with buffer := (s.seqRec n).buffer ++ [x], ringNext := (s.seqRec n).ringNext + 1 } := by
  unfold State.takeRing
  simp only [hx]
  rw [State.seqRec_of_seqs (State.showBuffer_seqs _ n), State.seqRec_of_seqs (State.bump_seqs _ _ _), State.seqRec_modSeq_self]

theorem doStreamBlockArrival_private {s u : State} {n : Nat} {g : Program}
    (hu : u = (s.applyDue (s.leaderOf n)).alignStreams (s.leaderOf n)) (hg : u.program (s.leaderOf n) = some g)
    (hended : g.ended = false) (hmode : u.fld (Reg.STREAM_MODE n) = 2) (hroom : (u.seqRec n).buffer.length + g.taken.length < 8) :
    doStreamBlockArrival n s = u.fetchBlock (s.leaderOf n) n g (fun s x => s.privateArrival n x) := by
  have hring : u.ringOf n = none := by simp [State.ringOf, hmode]
  unfold doStreamBlockArrival
  simp [← hu, hg, hended, streamDepth, Nat.not_le.mpr hroom, hring, hmode]

theorem doStreamBlockArrival_ring {s u : State} {n : Nat} {g : Program} {r : Nat}
    (hu : u = (s.applyDue (s.leaderOf n)).alignStreams (s.leaderOf n)) (hg : u.program (s.leaderOf n) = some g)
    (hended : g.ended = false) (hring : u.ringOf n = some r) (hroom : (u.seqRec n).buffer.length + g.taken.length < 8) :
    doStreamBlockArrival n s = u.ringBlock (s.leaderOf n) n r g := by
  unfold doStreamBlockArrival
  simp [← hu, hg, hended, streamDepth, Nat.not_le.mpr hroom, hring]

theorem State.fetchBlock_block {s s1 : State} {b n : Nat} {g : Program} {x : Block} {i : PathItem} {put : State → Block → State}
    (hi : (s.path b g 8)[(s.seqRec n).buffer.length]? = some i) (hspec : i.spec = true → s.flag Reg.HB_CTRL_SPEC_EN = true)
    (hread : s.readBlock g.header n (s.group b).size (n - b) i.segment i.ref i.consumer i.spec = (.block x, s1)) :
    s.fetchBlock b n g put = put s1 x := by
  unfold State.fetchBlock
  have hgo : (i.spec && !s.flag Reg.HB_CTRL_SPEC_EN) = false := by
    cases hs : i.spec with
    | false => rfl
    | true => simp [hspec hs]
  simp [hi, hgo, hread]

theorem State.ringBlock_held {s : State} {b n r : Nat} {g : Program} {x : Block} {i : PathItem}
    (hi : (s.path b g ((s.seqRec n).buffer.length + 1))[(s.seqRec n).buffer.length]? = some i)
    (hserves : i.spec = true ∨ x.serves i = true) (hfirst : (s.ring r).first ≤ (s.seqRec n).ringNext)
    (hx : (s.ring r).entries[(s.seqRec n).ringNext - (s.ring r).first]? = some x) : s.ringBlock b n r g = s.takeRing r n := by
  unfold State.ringBlock
  simp [hi, Nat.not_lt.mpr hfirst, hx, hserves]

/-- Settles O29: fills by the frame that every member holds in the end, arrivals by the buffer that the block enters. -/
theorem fillsAndStreams : Obligations.FillsAndStreams := by
  unfold Obligations.FillsAndStreams
  refine ⟨fun s s1 b g ws l i hr _ hg hended hdue hwait hstall hmiss hread hprograms hframe => ?_,
    fun s s1 b g pg ws l i hr _ hg hbegun hended hen hpg hmiss hframe hread => ?_,
    fun s u u1 n g x i hr hu hg hended hmode hi hroom hspec hread => ?_,
    fun s u n g r x i hr hu hg hended hi hserves hring hroom hfirst hx => ?_⟩
  · have hg1 : s1.program b.val = some g := by unfold State.program; rw [hprograms]; exact hg
    have hdo := doCsDemandFill_page hg hended hdue hwait hmiss hread hg1 hframe
    have hanchors := (State.bumpMembers_anchors _ b.val Reg.DEMAND_FILLS).trans (s1.replaceFrame_anchors b.val i
      { page := g.micro.pc / 256, words := ws, poisoned := l, pinned := false })
    have hgt := (State.program_of_anchors hanchors b.val).trans hg1
    rw [State.readSafeBit_idle hgt hstall] at hdo
    refine ⟨_, event_next hr (mayReplay_frozen _ _ _ (fun u => doCsDemandFill_frozen ..)), fun n hn => ?_⟩
    rw [mayReplay_stays hg (by rw [hdo]; exact hgt) rfl, hdo]
    have hmem : n ∈ s1.members b.val := by
      have := s.readPage_members b.val g.image g.header.codeOffset (g.micro.pc / 256) false
      rw [hread] at this
      exact this ▸ hn
    obtain ⟨used, hused⟩ := State.holdsFrame_of_seqs (State.bumpMembers_seqs _ b.val Reg.DEMAND_FILLS)
      (s1.replaceFrame_holds b.val i _ n hmem)
    exact ⟨_, hused, rfl, rfl, rfl, rfl⟩
  · refine ⟨_, event_next hr (doCsSpecFill_frozen ..), fun n hn => ?_⟩
    rw [doCsSpecFill_page hg hbegun hended hen hpg hmiss hframe hread]
    obtain ⟨used, hused⟩ := State.holdsFrame_of_seqs (State.bumpMembers_seqs _ b.val Reg.SPEC_FILLS)
      (s1.replaceFrame_holds b.val i _ n hn)
    exact ⟨_, hused, rfl, rfl, rfl, rfl⟩
  · refine ⟨_, event_next hr (doStreamBlockArrival_frozen ..), ?_⟩
    rw [doStreamBlockArrival_private hu hg hended hmode hroom, State.fetchBlock_block hi hspec hread]
    exact State.privateArrival_buffer u1 n.val x
  · refine ⟨_, event_next hr (doStreamBlockArrival_frozen ..), ?_⟩
    rw [doStreamBlockArrival_ring hu hg hended hring hroom, State.ringBlock_held hi hserves hfirst hx, State.takeRing_seqRec hx]
    exact ⟨rfl, rfl⟩

end Sys2Proof.Machine
end

section
/-! SUPPORT. The list of waiting starts (R129): what leaves it alone. -/

namespace Sys2Proof.Machine

open Sys2Proof

/-- The starts and resumes that wait. -/
def State.lineup (s : State) : List Cmd := s.starts

theorem State.starts_of_lineup {s t : State} (h : t.lineup = s.lineup) : t.starts = s.starts := h

@[simp] theorem State.lineup_update (t : State) {x_pending x_regs x_applied x_timing x_timingApplied x_fuse x_burned x_perst
    x_internalReset x_xref x_hi x_ev x_mem x_held x_pins x_groups x_programs x_seqs x_rings x_clusters x_tmus x_awgs x_dgs
    x_dps x_swgHeld x_popTests x_dma x_felt x_power x_sec x_cals x_ser x_units x_jtag x_causes x_popInput x_draws} :
    State.lineup (State.mk x_pending x_regs x_applied x_timing x_timingApplied x_fuse x_burned x_perst x_internalReset x_xref
        x_hi x_ev x_mem x_held x_pins x_groups x_programs t.starts x_seqs x_rings x_clusters x_tmus x_awgs x_dgs x_dps
        x_swgHeld x_popTests x_dma x_felt x_power x_sec x_cals x_ser x_units x_jtag x_causes x_popInput x_draws) = t.lineup := by
  cases t
  rfl

@[simp] theorem State.setFld_lineup (s : State) (f : Fld) (v : Nat) : (s.setFld f v).lineup = s.lineup := by
  simp [State.setFld, State.setQuad]

@[simp] theorem State.setFlag_lineup (s : State) (f : Fld) (v : Bool) : (s.setFlag f v).lineup = s.lineup := by
  simp [State.setFlag]

@[simp] theorem State.bump_lineup (s : State) (f : Fld) (k : Nat) : (s.bump f k).lineup = s.lineup := by
  simp [State.bump]

@[simp] theorem State.raise_lineup (s : State) (n u i : Nat) : (s.raise n u i).lineup = s.lineup := s.raise_starts n u i

@[simp] theorem State.complete_lineup (s : State) (c : Cmd) (st res : Nat) : (s.complete c st res).lineup = s.lineup :=
  s.complete_starts c st res

theorem State.lineup_foldl {α : Type} {f : State → α → State} (h : ∀ s a, (f s a).lineup = s.lineup) (l : List α) (s : State) :
    (l.foldl f s).lineup = s.lineup := State.foldl_same State.lineup h l s

@[simp] theorem State.modSeq_lineup (s : State) (n : Nat) (f : Seq → Seq) : (s.modSeq n f).lineup = s.lineup := by
  simp [State.modSeq]

@[simp] theorem State.modPin_lineup (s : State) (p : Nat) (f : Pin → Pin) : (s.modPin p f).lineup = s.lineup := by
  simp [State.modPin]

@[simp] theorem State.setProgram_lineup (s : State) (b : Nat) (g : Program) : (s.setProgram b g).lineup = s.lineup := by
  simp [State.setProgram]

@[simp] theorem State.modProgram_lineup (s : State) (b : Nat) (f : Program → Program) : (s.modProgram b f).lineup = s.lineup := by
  unfold State.modProgram
  split <;> simp

/-! ### Memory -/

@[simp] theorem State.uncorrectable_lineup (s : State) (block source : Nat) : (s.uncorrectable block source).lineup = s.lineup := by
  unfold State.uncorrectable
  dsimp only
  split <;> simp

@[simp] theorem State.eccBlock_lineup (source : Nat) (s : State) (block : Nat) : (State.eccBlock source s block).lineup = s.lineup := by
  unfold State.eccBlock
  dsimp only
  repeat' split
  all_goals simp

@[simp] theorem State.logFault_lineup (s : State) (x : MemCtx) (va k : Nat) (entry : Option Nat) (write : Bool) :
    (s.logFault x va k entry write).lineup = s.lineup := by
  unfold State.logFault
  dsimp only
  repeat' split
  all_goals simp

@[simp] theorem State.faultAcc_lineup (s : State) (x : MemCtx) (va k : Nat) (entry : Option Nat) (write : Bool) :
    (s.faultAcc x va k entry write).2.lineup = s.lineup := by
  unfold State.faultAcc
  split <;> simp

@[simp] theorem State.poisonAcc_lineup (s : State) (x : MemCtx) (va k entry : Nat) (data : List Byte) :
    (s.poisonAcc x va k entry data).2.lineup = s.lineup := by
  unfold State.poisonAcc
  repeat' split
  all_goals simp

@[simp] theorem State.poisonDelivered_lineup (s : State) (bad : List Nat) : (s.poisonDelivered bad).lineup = s.lineup :=
  State.lineup_foldl (fun _ _ => by simp) _ _

@[simp] theorem State.awaitPage_lineup (s : State) (w : Waiter) (entry base : Nat) : (s.awaitPage w entry base).lineup = s.lineup := by
  unfold State.awaitPage State.requestPage
  dsimp only
  repeat' split
  all_goals simp

@[simp] theorem State.hostPath_lineup (s : State) (x : MemCtx) (va a entry : Nat) (write more : Bool) :
    (s.hostPath x va a entry write more).2.lineup = s.lineup := by
  unfold State.hostPath State.touchRange
  dsimp only
  repeat' split
  all_goals simp

@[simp] theorem State.readPiece_lineup (s : State) (x : MemCtx) (va n : Nat) (more : Bool) :
    (s.readPiece x va n more).2.lineup = s.lineup := by
  have hblocks (l : List Nat) : (l.foldl (State.eccBlock 0) s).lineup = s.lineup := State.lineup_foldl (State.eccBlock_lineup 0) l s
  unfold State.readPiece
  dsimp only
  split
  · simp
  · split
    · rfl
    · split
      · simp
      · (repeat' split) <;> simp [hblocks]
      · next a e _ =>
        have hpath := s.hostPath_lineup x va a e false more
        (repeat' split) <;> simp_all

@[simp] theorem readPieces_lineup (fuel : Nat) (x : MemCtx) (va n : Nat) (s : State) : (readPieces fuel x va n s).2.lineup = s.lineup := by
  induction fuel generalizing va n s with
  | zero => rfl
  | succ fuel ih =>
    unfold readPieces
    split
    · rfl
    · have hpiece := s.readPiece_lineup x va (min n (4096 - va % 4096)) (s.goesOn va n)
      dsimp only
      split
      · next d p s1 hread =>
        rw [hread] at hpiece
        have hrest := ih (va + min n (4096 - va % 4096)) (n - min n (4096 - va % 4096)) s1
        split
        · next hmore =>
          rw [hmore] at hrest
          exact hrest.trans hpiece
        · exact hrest.trans hpiece
      · exact hpiece

/-! ### The pages of a program -/

/-- A page read leaves what every read of memory leaves. -/
theorem readBlocks_same {β : Type} (v : State → β) (h : ∀ (s : State) x va n, v (s.memRead x va n).2 = v s) (x : MemCtx) (va fuel i : Nat)
    (s : State) : v (readBlocks x va fuel i s).2 = v s := by
  induction fuel generalizing i s with
  | zero => rfl
  | succ fuel ih =>
    have hread := h s x (va + 64 * i) 64
    unfold readBlocks
    split
    · next d p s1 hok =>
      rw [hok] at hread
      have hrest := ih (i + 1) s1
      split
      · exact hread
      · split
        · next hmore =>
          rw [hmore] at hrest
          exact hrest.trans hread
        · exact hrest.trans hread
    all_goals
      next hno =>
      rw [hno] at hread
      exact hread

@[simp] theorem State.readPage_lineup (s : State) (b image codeOffset pg : Nat) (spec : Bool) :
    (s.readPage b image codeOffset pg spec).2.lineup = s.lineup :=
  readBlocks_same State.lineup (fun s x va n => readPieces_lineup (n / 4096 + 2) x va n s) _ _ _ _ _

theorem State.readPage_anchors (s : State) (b image codeOffset pg : Nat) (spec : Bool) :
    (s.readPage b image codeOffset pg spec).2.anchors = s.anchors := readBlocks_same State.anchors State.memRead_anchors _ _ _ _ _

@[simp] theorem State.dropFrame_lineup (s : State) (n i : Nat) : (s.dropFrame n i).lineup = s.lineup := by
  unfold State.dropFrame
  split
  · rfl
  · dsimp only
    split <;> simp [State.showFrames]

theorem State.replaceFrame_lineup (s : State) (b i : Nat) (f : Frame) : ((s.dropFrames b i).putFrame b i f).lineup = s.lineup :=
  (State.lineup_foldl (fun _ _ => by simp [State.showFrames]) _ _).trans (State.lineup_foldl (fun u n => u.dropFrame_lineup n i) _ _)

/-- A page fills a frame, or none. -/
theorem State.fillFrame_same {β : Type} (v : State → β) (h : ∀ (s : State) b i f, v ((s.dropFrames b i).putFrame b i f) = v s)
    (s : State) (b pg : Nat) (pin : Bool) (words poisoned : List Nat) : v (s.fillFrame b pg pin words poisoned) = v s := by
  unfold State.fillFrame
  split
  · rfl
  · split
    · rfl
    · exact h ..

@[simp] theorem State.invalidateFrames_lineup (s : State) (n : Nat) : (s.invalidateFrames n).lineup = s.lineup := by
  unfold State.invalidateFrames State.showFrames
  simpa using State.lineup_foldl (fun u i => u.dropFrame_lineup n i) ((s.seqRec n).frames.map Prod.fst) s

/-! ### Pins, streams and statuses -/

@[simp] theorem State.startPins_lineup (s : State) (n : Nat) : (s.startPins n).lineup = s.lineup :=
  State.lineup_foldl (fun _ _ => by simp) _ _

@[simp] theorem State.showRing_lineup (s : State) (r : Nat) : (s.showRing r).lineup = s.lineup := by
  unfold State.showRing
  dsimp only
  split <;> simp

@[simp] theorem State.leaveRing_lineup (s : State) (lag : Bool) (n : Nat) : (s.leaveRing lag n).lineup = s.lineup := by
  unfold State.leaveRing
  split
  · rfl
  · simp

@[simp] theorem State.startStream_lineup (s : State) (n seq : Nat) : (s.startStream n seq).lineup = s.lineup := by
  simp [State.startStream, State.showBuffer]

@[simp] theorem State.idleStreams_lineup (s : State) (b : Nat) : (s.idleStreams b).lineup = s.lineup :=
  State.lineup_foldl (fun _ _ => by simp [State.showBuffer]) _ _

@[simp] theorem State.applyHold_lineup (s : State) (b : Nat) (g : Program) (positions : Nat) : (s.applyHold b g positions).lineup = s.lineup :=
  State.lineup_foldl (fun _ _ => by split <;> simp [State.holdPin]) _ _

@[simp] theorem State.showSiteRegs_lineup (s : State) (b : Nat) (l : List Nat) : (s.showSiteRegs b l).lineup = s.lineup :=
  State.lineup_foldl (fun _ _ => by simp) _ _

@[simp] theorem State.showFreezes_lineup (s : State) : s.showFreezes.lineup = s.lineup :=
  State.lineup_foldl (fun _ _ => by simp) _ _

@[simp] theorem State.showExec_lineup (s : State) (b : Nat) : (s.showExec b).lineup = s.lineup := by
  unfold State.showExec
  split <;> simp

@[simp] theorem State.completeAll_lineup (s : State) (l : List Cmd) (st res : Nat) : (s.completeAll l st res).lineup = s.lineup :=
  State.lineup_foldl (fun _ _ => by simp) _ _

@[simp] theorem State.closeWord_lineup (s : State) (b : Nat) : (s.closeWord b).lineup = s.lineup := by
  simp [State.closeWord, State.settleResults]

@[simp] theorem State.stopAllSites_lineup (s : State) (b st : Nat) : (s.stopAllSites b st).lineup = s.lineup := by
  unfold State.stopAllSites State.endIssue
  split
  · simp
  · dsimp only
    split <;> simp

@[simp] theorem State.joinRing_lineup (s : State) (r n lane image segment addr : Nat) (out : Nat × Nat) :
    (s.joinRing r n lane image segment addr out).lineup = s.lineup := by
  unfold State.joinRing
  dsimp only
  split <;> simp

@[simp] theorem State.tryJoin_lineup (s : State) (b : Nat) (g : Program) (segment addr : Nat) : (s.tryJoin b g segment addr).lineup = s.lineup := by
  unfold State.tryJoin
  dsimp only
  repeat' split
  · rfl
  · rw [State.showExec_lineup]
    exact State.lineup_foldl (fun _ _ => by simp) _ _
  · exact State.lineup_foldl (fun _ _ => by simp) _ _

@[simp] theorem fillResident_lineup (b fuel : Nat) (s : State) : (fillResident b fuel s).lineup = s.lineup := by
  induction fuel generalizing s with
  | zero => rfl
  | succ fuel ih =>
    unfold fillResident
    split
    · rfl
    · next g _ =>
      split
      · rfl
      · next pg rest _ =>
        have hread := s.readPage_lineup b g.image g.header.codeOffset pg false
        split
        · next hpage =>
          rw [hpage] at hread
          rw [ih, State.modProgram_lineup, State.fillFrame_same State.lineup State.replaceFrame_lineup]
          exact hread
        · next hfault =>
          rw [hfault] at hread
          rw [State.stopAllSites_lineup]
          exact hread
        · next hno =>
          rw [hno] at hread
          exact hread

end Sys2Proof.Machine
end

section
/-! SUPPORT. Programs that are started, resumed and admitted (R15, R117, R121, R128, R129, R131, R139). -/

namespace Sys2Proof.Machine

open Sys2Proof

/-! ### Joining the broadcast rings -/

@[simp] theorem State.joinRing_anchors (s : State) (r n lane image segment addr : Nat) (out : Nat × Nat) :
    (s.joinRing r n lane image segment addr out).anchors = s.anchors := by
  unfold State.joinRing
  dsimp only
  split <;> simp

@[simp] theorem State.tryJoin_anchors (s : State) (b : Nat) (g : Program) (segment addr : Nat) :
    (s.tryJoin b g segment addr).anchors = s.anchors := by
  unfold State.tryJoin
  dsimp only
  repeat' split
  all_goals simp

/-! ### Resident pages (R121) -/

/-- A program none of whose words has issued, as the fills of its resident pages leave it: a fault ends it. -/
def Program.filledAs (g h : Program) : Prop :=
  h = { g with
    fillsDue := h.fillsDue, status := h.status, ended := h.ended, wait := h.wait, blocked := h.blocked, stall := h.stall, preempts := h.preempts
    trapRequests := h.trapRequests, trapsAgain := h.trapsAgain, carried := h.carried, calHeld := h.calHeld }

/-- A program that issues no word, and waits for no result, is stopped where it stands. -/
theorem State.stopAllSites_filled {s : State} {b st : Nat} {g : Program} (hg : s.program b = some g) (hseq : g.seqDone = 0)
    (hout : g.outstanding = []) : ∃ h, (s.stopAllSites b st).program b = some h ∧ g.filledAs h := by
  have hnoted : (s.modProgram b (fun g => (setBits g.part 8).foldl (fun g p => g.note p st) g)).program b =
      some { g with status := ((setBits g.part 8).foldl (fun g p => g.note p st) g).status } := by
    rw [State.program_modProgram_self, hg, Option.map_some, Program.foldl_note_eq]
  exact ⟨_, State.endIssue_settled hnoted hseq hout, rfl⟩

theorem fillResident_program {b fuel : Nat} {s : State} {g : Program} (hg : s.program b = some g) (hseq : g.seqDone = 0)
    (hout : g.outstanding = []) :
    ∃ h, (fillResident b fuel s).program b = some h ∧ g.filledAs h ∧ (g.fillsDue = [] → h = g) := by
  induction fuel generalizing s g with
  | zero => exact ⟨g, hg, rfl, fun _ => rfl⟩
  | succ fuel ih =>
    unfold fillResident
    simp only [hg]
    cases hdue : g.fillsDue with
    | nil => exact ⟨g, hg, rfl, fun _ => rfl⟩
    | cons pg rest =>
      have hread := (State.program_of_anchors (s.readPage_anchors b g.image g.header.codeOffset pg false) b).trans hg
      dsimp only
      split
      · next ws l s1 hpage =>
        rw [hpage] at hread
        have hfill : ((s1.fillFrame b pg true ws l).modProgram b (fun g => { g with fillsDue := rest })).program b =
            some { g with fillsDue := rest } := by
          rw [State.program_modProgram_self,
            State.program_of_anchors (State.fillFrame_same State.anchors State.replaceFrame_anchors s1 b pg true ws l), hread, Option.map_some]
        obtain ⟨h, hh, hfilled, -⟩ := ih hfill hseq hout
        exact ⟨h, hh, hfilled, nofun⟩
      · next k s1 hfault =>
        rw [hfault] at hread
        obtain ⟨h, hh, hfilled⟩ := State.stopAllSites_filled (st := kindStatus k) hread hseq hout
        exact ⟨h, hh, hfilled, nofun⟩
      · next hno =>
        rw [hno] at hread
        exact ⟨g, hread, rfl, nofun⟩

/-! ### Admission (R121, R129) -/

/-- The program that command `c` is admitted as. -/
def State.newProgram (s : State) (b : Nat) (c : Cmd) (image frame : Nat) (h : Header) (holds : List (Nat × Nat × Nat))
    (resumed : Option (Micro × Nat)) : Program :=
  { cmd := c, image := image, header := h, timeLimit := c.field 16 8, frameAddr := frame, scheduled := bitOf (c.field 32 1) 1
    bgBase := c.field 33 1, part := s.enabledMask b
    status := (List.range 8).map (fun p => if bitOf (s.enabledMask b) p && !bitOf (s.openMask b) p then 0x40 else 0)
    micro := s.firstMicro b h resumed, freezeHeader := bitOf h.flags 2
    replays := match resumed with | some x => x.2 | none => 0
    fillsDue := List.range (min h.residentPages h.pages), holdVectors := holds.map Prod.fst, holdSr := holds.map Prod.snd }

/-- The state in which the program's resident pages are filled: it is there, its hold vector at the pins. -/
def State.beforeFills (s : State) (b : Nat) (g : Program) : State :=
  let s1 := (s.members b).foldl (fun s n => ((s.invalidateFrames n).startPins n).startStream n g.micro.streamSeq) s
  let s2 := ((s1.setProgram b g).applyHold b g (s.openMask b)).showSiteRegs b g.micro.siteRegs
  ({ s2 with sec := s2.sec.programStarts g.image ((setBits g.part 8).map (s.siteNumber b)) } : State).showFreezes

theorem State.beforeFills_program (s : State) (b : Nat) (g : Program) : (s.beforeFills b g).program b = some g := by
  unfold State.beforeFills
  dsimp only
  rw [State.program_of_anchors (State.showFreezes_anchors _)]
  refine (State.program_of_anchors (State.showSiteRegs_anchors _ b _) b).trans ?_
  rw [State.program_of_anchors (State.applyHold_anchors _ b _ _), State.program_setProgram_self]

theorem State.beforeFills_lineup (s : State) (b : Nat) (g : Program) : (s.beforeFills b g).lineup = s.lineup := by
  unfold State.beforeFills
  dsimp only
  rw [State.showFreezes_lineup, State.lineup_update, State.showSiteRegs_lineup, State.applyHold_lineup, State.setProgram_lineup]
  exact State.lineup_foldl (fun _ _ => by simp) _ _

/-- The state with the program's resident pages filled; a program at its first word has tried to join its rings (R121, R164). -/
def State.afterFills (s : State) (b : Nat) (g : Program) (started : Bool) : State :=
  if started then (fillResident b 56 (s.beforeFills b g)).tryJoin b g g.header.initialSeg g.header.entry
  else fillResident b 56 (s.beforeFills b g)

theorem State.admitProgram_eq {s : State} {b : Nat} {c : Cmd} {image frame : Nat} {h : Header} {holds : List (Nat × Nat × Nat)}
    {resumed : Option (Micro × Nat)} {g : Program} (hg : g = s.newProgram b c image frame h holds resumed) :
    s.admitProgram b c image frame h holds resumed =
      if (g.micro.slot g.micro.runningSlot).state = 0 then (s.afterFills b g resumed.isNone).scheduleOr b (fun s => s.endIssue b)
      else (s.afterFills b g resumed.isNone).showExec b := by
  subst hg
  cases resumed <;> rfl

theorem State.afterFills_program {s : State} {b : Nat} {g : Program} (started : Bool) (hseq : g.seqDone = 0) (hout : g.outstanding = []) :
    ∃ h, (s.afterFills b g started).program b = some h ∧ g.filledAs h ∧ (g.fillsDue = [] → h = g) := by
  obtain ⟨h, hh, hfilled⟩ := fillResident_program (fuel := 56) (s.beforeFills_program b g) hseq hout
  refine ⟨h, ?_, hfilled⟩
  unfold State.afterFills
  split
  · rw [State.program_of_anchors (State.tryJoin_anchors _ b g _ _), hh]
  · exact hh

theorem State.afterFills_lineup (s : State) (b : Nat) (g : Program) (started : Bool) : (s.afterFills b g started).lineup = s.lineup := by
  unfold State.afterFills
  split <;> simp [State.beforeFills_lineup]

/-- What an admission leaves: the program, and the list of starts (R121, R129). -/
theorem State.admitProgram_leaves {s : State} {b : Nat} {c : Cmd} {image frame : Nat} {h : Header} {holds : List (Nat × Nat × Nat)}
    {resumed : Option (Micro × Nat)} {g : Program} (hg : g = s.newProgram b c image frame h holds resumed)
    (hslot : (g.micro.slot g.micro.runningSlot).state ≠ 0) :
    (∃ h', (s.admitProgram b c image frame h holds resumed).program b = some h' ∧ g.filledAs h' ∧ (g.fillsDue = [] → h' = g)) ∧
      (s.admitProgram b c image frame h holds resumed).lineup = s.lineup := by
  rw [State.admitProgram_eq hg, if_neg hslot, State.program_of_anchors (State.showExec_anchors _ b), State.showExec_lineup]
  exact ⟨State.afterFills_program _ (by rw [hg]; rfl) (by rw [hg]; rfl), s.afterFills_lineup b g _⟩

theorem State.admitProgram_admitted {s : State} {c : Cmd} {image frame : Nat} {h : Header} (holds : List (Nat × Nat × Nat))
    {resumed : Option (Micro × Nat)}
    (hslot : ((s.firstMicro c.target h resumed).slot (s.firstMicro c.target h resumed).runningSlot).state ≠ 0) :
    s.admitted (s.admitProgram c.target c image frame h holds resumed) c image frame h resumed := by
  obtain ⟨⟨h', hh, hfilled, hnone⟩, -⟩ := State.admitProgram_leaves (holds := holds) (image := image) (frame := frame) (c := c) rfl hslot
  have hkeep := congrArg (fun g : Program => (g.cmd, g.image, g.frameAddr, g.header, g.part, g.micro, g.begun, g.replays)) hfilled
  simp only [Prod.mk.injEq] at hkeep
  obtain ⟨hcmd, himage, hframe, hheader, hpart, hmicro, hbegun, hreplays⟩ := hkeep
  refine ⟨h', hh, hcmd, himage, hframe, hheader, hpart, hmicro, hbegun, hreplays, fun hres => ?_⟩
  rw [hnone (by simp [State.newProgram, hres])]
  rfl

/-! ### The checks of a start (R15, R129) -/

/-- A start whose reads are good and whose checks hold is admitted. -/
theorem State.startWith_admits {s s0 : State} {c : Cmd} {image frame : Nat} {h : Header} {holds : List (Nat × Nat × Nat)}
    {resumed : Option (Micro × Nat)}
    (hunits : ∀ u ∈ s.groupUnits c.target ++ [memUnit, headboxUnit], s.present u = true ∧ s.ready u = true)
    (hpower : s.powerFits c.target h = true) (hopen : s.openMask c.target ≠ 0) :
    s.startWith s0 c false {} image frame (some (h, holds)) resumed =
      ({ s with starts := s.starts.erase c } : State).admitProgram c.target c image frame h holds resumed := by
  have hpresent : (s.groupUnits c.target ++ [memUnit, headboxUnit]).any (fun u => !s.present u) = false :=
    List.any_eq_false.mpr (fun u hu => by simp [(hunits u hu).1])
  have hready : (s.groupUnits c.target ++ [memUnit, headboxUnit]).any (fun u => !s.ready u) = false :=
    List.any_eq_false.mpr (fun u hu => by simp [(hunits u hu).2])
  unfold State.startWith
  simp only [hpresent, hready, hpower, hopen, Bool.or_false, Bool.not_true, if_false, Bool.false_eq_true]

theorem readPart_map_some {d : List Byte} {off len : Nat} (h : off + len ≤ d.length) :
    readPart (d.map some) off len = some ((d.drop off).take len) := by
  unfold readPart
  rw [if_pos (by simpa using h), ← List.map_drop, ← List.map_take, allRead_map_some]

theorem fieldOf_take {d : List Byte} {n off len : Nat} (h : off + len ≤ n) : fieldOf (d.take n) off len = fieldOf d off len := by
  unfold fieldOf
  rw [List.drop_take, List.take_take, Nat.min_eq_left (by omega)]

theorem State.tryStart_admits {s s1 : State} {c : Cmd} {image frame : Nat} {h : Header} {holds : List (Nat × Nat × Nat)}
    {resumed : Option (Micro × Nat)} (hpass : s.startPasses c image frame h holds resumed s1) :
    s.tryStart c = ({ s1 with starts := s1.starts.erase c } : State).admitProgram c.target c image frame h holds resumed := by
  obtain ⟨hreads, hunits, hpower, hopen⟩ := hpass
  unfold State.tryStart
  obtain ⟨hop, rfl, rfl, rfl, hlow, halign, hok, hread⟩ | ⟨hop, rfl, hok, d, s0, hframe, hlen, hbad, rfl, rfl, hread⟩ := hreads
  · rw [if_pos hop]
    dsimp only
    rw [if_neg (by simpa [hok, halign] using hlow), hread]
    exact State.startWith_admits hunits hpower hopen
  · rw [if_neg (by rw [hop]; decide)]
    dsimp only
    rw [if_neg (by simp [hok]), hframe]
    dsimp only
    rw [readPart_map_some (by omega), List.drop_zero]
    dsimp only
    rw [hbad, if_neg Bool.false_ne_true, fieldOf_take (by decide), hread]
    have hbytes : (d.map some).map (fun x => x.getD 0) = d := by simp [Function.comp_def]
    rw [hbytes]
    exact State.startWith_admits hunits hpower hopen

/-- A start that passes its checks becomes its group's program, and waits no longer (R129). -/
theorem State.tryStart_admitted {s s1 : State} {c : Cmd} {image frame : Nat} {h : Header} {holds : List (Nat × Nat × Nat)}
    {resumed : Option (Micro × Nat)} (hpass : s.startPasses c image frame h holds resumed s1)
    (hslot : ((s1.firstMicro c.target h resumed).slot (s1.firstMicro c.target h resumed).runningSlot).state ≠ 0) :
    s1.admitted (s.tryStart c) c image frame h resumed ∧ (s.tryStart c).starts = s1.starts.erase c := by
  rw [State.tryStart_admits hpass]
  exact ⟨State.admitProgram_admitted (s := { s1 with starts := s1.starts.erase c }) holds hslot,
    (State.admitProgram_leaves (s := { s1 with starts := s1.starts.erase c }) (holds := holds) rfl hslot).2⟩

/-! ### Behind a program (R129) -/

theorem State.showExec_regsBut (s : State) (b : Nat) : s.regsBut (s.showExec b)
    [Reg.EXEC_STATUS_STATE b, Reg.EXEC_STATUS_SLOTS b, Reg.EXEC_STATUS_RUNNING_SLOT b, Reg.EXEC_STATUS_PRIVATE b] := by
  have hfour (u : State) (x y z v : Nat) : u.regsBut
      ((((u.setFld (Reg.EXEC_STATUS_STATE b) x).setFld (Reg.EXEC_STATUS_SLOTS b) y).setFld (Reg.EXEC_STATUS_RUNNING_SLOT b) z).setFld
        (Reg.EXEC_STATUS_PRIVATE b) v)
      [Reg.EXEC_STATUS_STATE b, Reg.EXEC_STATUS_SLOTS b, Reg.EXEC_STATUS_RUNNING_SLOT b, Reg.EXEC_STATUS_PRIVATE b] :=
    State.regsBut_trans (State.regsBut_trans (State.regsBut_trans (State.regsBut_setFld _ _ _) (State.regsBut_setFld _ _ _))
      (State.regsBut_setFld _ _ _)) (State.regsBut_setFld _ _ _)
  unfold State.showExec State.setFlag
  split <;> exact hfour _ _ _ _ _

theorem State.keepStart_leaves (s : State) (c : Cmd) : c ∈ (s.keepStart c).starts ∧ (s.keepStart c).programs = s.programs ∧
    (s.keepStart c).mem = s.mem ∧ s.regsBut (s.keepStart c) [Reg.EXEC_STATUS_STATE c.target, Reg.EXEC_STATUS_SLOTS c.target,
      Reg.EXEC_STATUS_RUNNING_SLOT c.target, Reg.EXEC_STATUS_PRIVATE c.target] := by
  unfold State.keepStart
  split
  · next hin => exact ⟨by simpa using hin, rfl, rfl, State.regsBut_refl _ _⟩
  · have hshow := State.showExec_regsBut ({ s with starts := s.starts ++ [c] } : State) c.target
    refine ⟨?_, ?_, ?_, hshow⟩
    · rw [State.starts_of_lineup (State.showExec_lineup _ c.target)]
      exact List.mem_append_right _ (List.mem_singleton_self c)
    · exact congrArg Anchors.programs (State.showExec_anchors _ _)
    · unfold State.showExec
      split <;> simp

/-! ### The rows -/

theorem State.retryHeld_none {s : State} (h : s.held = []) : s.retryHeld = s := by
  unfold State.retryHeld
  rw [if_pos (by simp [h])]

theorem execStart_next {s : State} {q : BitVec 8} {e : Entry} (resume : Bool) (hs : s.serves q e)
    (ho : Entry.opcode e = if resume then 0x12 else 0x10) (hheld : s.held = []) :
    exec (if resume then .programResume q e else .programStart q e) s =
      .next (doProgramStart (s.taken q.toNat e) (s.undispatch (s.taken q.toNat e))) := by
  have hretry : (s.undispatch (s.taken q.toNat e)).retryHeld = s.undispatch (s.taken q.toNat e) :=
    State.retryHeld_none (by rw [State.undispatch_held, hheld])
  have hdo := hostCmd_next (k := fun c => afterHeld (doProgramStart c)) hs ho (fun c u => afterHeld_frozen _ _ (doProgramStart_frozen c))
  unfold afterHeld at hdo
  rw [hretry] at hdo
  cases resume <;> exact hdo

theorem State.program_undispatch (s : State) (c : Cmd) (b : Nat) : (s.undispatch c).program b = s.program b := by
  unfold State.program
  rw [State.undispatch_programs]

/-- Settles O26: a start that passes is admitted with its program's record, and one behind a program joins the list. -/
theorem programsStart : Obligations.ProgramsStart := by
  unfold Obligations.ProgramsStart
  refine ⟨fun s s1 q e resume image frame h holds resumed hs ho hheld hnone hfirst hpass hslot => ?_,
    fun s q e resume hs ho hheld hsome => ?_,
    fun s s1 b c image frame h holds resumed hr hheld hnone hfind hpass hslot => ?_⟩
  · refine ⟨_, execStart_next resume hs ho hheld, ?_⟩
    have hfree : (s.undispatch (s.taken q.toNat e)).startBehind (s.taken q.toNat e) = false := by
      unfold State.startBehind
      rw [State.program_undispatch, hnone, State.undispatch_starts, List.any_eq_false.mpr (fun x hx => by simp [hfirst x hx])]
      rfl
    unfold doProgramStart
    rw [if_neg (by simp [hfree])]
    exact (State.tryStart_admitted hpass hslot).1
  · refine ⟨_, execStart_next resume hs ho hheld, ?_⟩
    have hbehind : (s.undispatch (s.taken q.toNat e)).startBehind (s.taken q.toNat e) = true := by
      unfold State.startBehind
      rw [State.program_undispatch, Option.isSome_iff_ne_none.mpr hsome, Bool.true_or]
    obtain ⟨hstarts, hprograms, hmem, hregs⟩ := (s.undispatch (s.taken q.toNat e)).keepStart_leaves (s.taken q.toNat e)
    obtain ⟨hi, heq, -⟩ := s.undispatch_eq (s.taken q.toNat e)
    unfold doProgramStart
    rw [if_pos hbehind]
    rw [heq] at hstarts hprograms hmem hregs ⊢
    exact ⟨hstarts, hprograms, hmem, hregs⟩
  · refine ⟨_, event_next hr (afterHeld_frozen _ _ (doProgramAdmit_frozen b.val)), ?_⟩
    have htarget : c.target = b.val := by simpa using List.find?_some hfind
    have hdo : afterHeld (doProgramAdmit b.val) s = s.tryStart c := by
      unfold afterHeld doProgramAdmit
      rw [State.retryHeld_none hheld, if_neg (by simp [hnone]), hfind]
    rw [hdo]
    rw [← htarget] at hslot
    exact State.tryStart_admitted hpass hslot

end Sys2Proof.Machine
end

section
/-! SUPPORT. What a read of memory depends on: memory, the regions of device virtual addresses, and whether the host translates
(R301, R308). -/

namespace Sys2Proof.Machine

open Sys2Proof

/-- What reads of memory see. -/
structure Reach where
  mem : Memory
  ats : Bool
  region : Fin 64 → BitVec 64

/-- What of a state reads of memory see. -/
def State.reach (s : State) : Reach := ⟨s.mem, s.hi.atsEnable, fun r => s.quad (0x3200 + 8 * r.val)⟩

/-- No REGION register holds the field. -/
def offRegion (f : Fld) : Prop := ∀ r < 64, f.addr ≠ 0x3200 + 8 * r

theorem offRegion_of_lt {f : Fld} (h : f.addr < 0x3200) : offRegion f := fun _ _ => by omega

theorem offRegion_of_gt {f : Fld} (h : 0x3400 ≤ f.addr) : offRegion f := fun _ _ => by omega

section Registers

variable (s : State) {f : Fld}

theorem State.setFld_reach (v : Nat) (h : offRegion f) : (s.setFld f v).reach = s.reach := by
  have hquad : (fun r : Fin 64 => (s.setFld f v).quad (0x3200 + 8 * r.val)) = fun r : Fin 64 => s.quad (0x3200 + 8 * r.val) :=
    funext (fun r => State.quad_setFld_other s v (h r.val r.isLt))
  exact congrArg (Reach.mk s.mem s.hi.atsEnable) hquad

theorem State.setFlag_reach (v : Bool) (h : offRegion f) : (s.setFlag f v).reach = s.reach := s.setFld_reach _ h

theorem State.bump_reach (k : Nat) (h : offRegion f) : (s.bump f k).reach = s.reach := s.setFld_reach _ h

theorem State.raise_reach {n : Nat} (u i : Nat) : (s.raise n u i).reach = s.reach := by
  unfold State.raise State.raiseAt
  dsimp only
  have hlow : ∀ k, 0x3400 ≤ (Reg.SRC_STAT_COUNT k).addr ∧ 0x3400 ≤ (Reg.SRC_STAT_SAT k).addr := fun k => by
    simp only [Reg.SRC_STAT_COUNT, Reg.SRC_STAT_SAT]
    omega
  split
  · rw [State.setFlag_reach _ _ (offRegion_of_gt (hlow n).2)]
    split <;> rfl
  · rw [State.bump_reach _ _ (offRegion_of_gt (hlow n).1)]
    split <;> rfl

end Registers

variable {s t : State}

theorem State.mem_of_reach (h : t.reach = s.reach) : t.mem = s.mem := congrArg Reach.mem h

theorem State.ats_of_reach (h : t.reach = s.reach) : t.hi.atsEnable = s.hi.atsEnable := congrArg Reach.ats h

/-- Memory replaced. -/
theorem State.reach_mem (h : t.reach = s.reach) (m : Memory) : ({ t with mem := m } : State).reach = ({ s with mem := m } : State).reach := by
  have hrest : (⟨m, t.reach.ats, t.reach.region⟩ : Reach) = ⟨m, s.reach.ats, s.reach.region⟩ := by rw [h]
  exact hrest

theorem State.region_of_reach (h : t.reach = s.reach) {f : Fld} {r : Nat} (hr : r < 64) (hf : f.addr = 0x3200 + 8 * r) :
    t.fld f = s.fld f := by
  have hquad : t.quad (0x3200 + 8 * r) = s.quad (0x3200 + 8 * r) := congrFun (congrArg Reach.region h) ⟨r, hr⟩
  rw [State.fld, State.fld, hf, hquad]

/-! ### Translation -/

theorem bitsOf_lt (n lo w : Nat) : bitsOf n lo w < 2 ^ w := Nat.mod_lt _ (Nat.two_pow_pos w)

theorem State.translate_of_reach (h : t.reach = s.reach) (va : Nat) (write : Bool) : t.translate va write = s.translate va write := by
  have hr := bitsOf_lt va 42 6
  have hpage := State.region_of_reach h hr (f := Reg.REGION_PAGE _) rfl
  have henable := State.region_of_reach h hr (f := Reg.REGION_ENABLE _) rfl
  have hcount := State.region_of_reach h hr (f := Reg.REGION_ENTRY_COUNT _) rfl
  have hbase := State.region_of_reach h hr (f := Reg.REGION_ENTRY_BASE _) rfl
  have hentry (i : Nat) : t.dttEntry i = s.dttEntry i := by
    unfold State.dttEntry
    rw [State.mem_of_reach h]
  unfold State.translate State.flag
  simp only [hpage, henable, hcount, hbase, hentry]

theorem State.goesOn_of_reach (h : t.reach = s.reach) (va n : Nat) : t.goesOn va n = s.goesOn va n := by
  have hpage := State.region_of_reach h (bitsOf_lt va 42 6) (f := Reg.REGION_PAGE _) rfl
  unfold State.goesOn State.pageBytes State.flag
  rw [hpage]

/-! ### Reads -/

/-- What of an access's outcome and of the state after it later reads see. -/
def seen {α : Type} (r : α × State) : α × Reach := (r.1, r.2.reach)

theorem seen_mk {α : Type} (x : α) (h : t.reach = s.reach) : seen (x, t) = seen (x, s) := congrArg (Prod.mk x) h

theorem State.faultAcc_reach (s : State) (x : MemCtx) (va k : Nat) (entry : Option Nat) (write : Bool) :
    seen (s.faultAcc x va k entry write) = ((if x.spec then Acc.drop else Acc.fault k), s.reach) := by
  have hlog : (s.logFault x va k entry write).reach = s.reach := by
    have hflog : ∀ n, ∀ f ∈ [Reg.FLOG_VA n, Reg.FLOG_STATUS n, Reg.FLOG_KIND n, Reg.FLOG_ENGINE n, Reg.FLOG_UNIT n, Reg.FLOG_WRITE n,
        Reg.FLOG_VALID n, Reg.FLOG_CELL_TIME n, Reg.FLOG_ENTRY n, Reg.FLOG_ENTRY_ENTRY_VALID n], offRegion f := by
      intro n f hf
      refine offRegion_of_gt ?_
      simp only [List.mem_cons, List.not_mem_nil, or_false] at hf
      obtain rfl | rfl | rfl | rfl | rfl | rfl | rfl | rfl | rfl | rfl := hf <;> exact Nat.le_add_right_of_le (by decide)
    have hlow : ∀ f ∈ [Reg.MMU_STATUS_FAULT_OVERFLOW, Reg.FAULT_HEAD_NEXT, Reg.MMU_TRANS_FAULTS, Reg.MMU_PERM_FAULTS, Reg.MMU_PR_TIMEOUTS],
        offRegion f := by
      intro f hf
      refine offRegion_of_lt ?_
      simp only [List.mem_cons, List.not_mem_nil, or_false] at hf
      obtain rfl | rfl | rfl | rfl | rfl := hf <;> decide
    simp only [List.forall_mem_cons] at hflog hlow
    unfold State.logFault
    simp only [State.raise_reach, apply_ite State.reach, State.bump_reach, State.setFld_reach, State.setFlag_reach, hflog, hlow, ite_self]
  unfold State.faultAcc seen
  split
  · exact congrArg (Prod.mk Acc.drop) (s.bump_reach 1 (offRegion_of_lt (by decide)))
  · exact congrArg (Prod.mk (Acc.fault k)) hlog

theorem State.poisonAcc_reach (s : State) (x : MemCtx) (va k entry : Nat) (data : List Byte) :
    seen (s.poisonAcc x va k entry data) = ((if x.spec then Acc.drop else Acc.ok data (some k)), s.reach) := by
  have hlog := s.faultAcc_reach { x with spec := false } va k (some entry) false
  unfold State.poisonAcc seen
  split
  · exact congrArg (Prod.mk Acc.drop) (s.bump_reach 1 (offRegion_of_lt (by decide)))
  · refine congrArg (Prod.mk (Acc.ok data (some k))) ?_
    split
    · exact congrArg Prod.snd hlog
    · rfl

theorem State.poisonDelivered_reach (s : State) (bad : List Nat) : (s.poisonDelivered bad).reach = s.reach :=
  State.foldl_same State.reach (fun u k => by
    rw [State.raise_reach, State.bump_reach _ _ (offRegion_of_lt (by decide))]) bad s

theorem State.badBlock_of_reach (h : t.reach = s.reach) : t.badBlock = s.badBlock := by
  funext k
  unfold State.badBlock
  rw [State.mem_of_reach h]

theorem State.uncorrectable_reach (s : State) (k source : Nat) : (s.uncorrectable k source).reach =
    ({ s with mem := { s.mem with poison := SMap.put s.mem.poison k true } } : State).reach := by
  have hcount : offRegion Reg.MMU_UNCORRECTABLE := offRegion_of_lt (by decide)
  have hdpa : offRegion Reg.ECC_LOG_DPA := offRegion_of_lt (by decide)
  have hsource : offRegion Reg.ECC_LOG_SOURCE := offRegion_of_lt (by decide)
  have hvalid : offRegion Reg.ECC_LOG_VALID := offRegion_of_lt (by decide)
  unfold State.uncorrectable
  dsimp only
  split
  · rw [State.bump_reach _ _ hcount]
  · rw [State.setFlag_reach _ _ hvalid, State.setFld_reach _ _ hsource, State.setFld_reach _ _ hdpa, State.bump_reach _ _ hcount]

/-- A block is decoded alike in states whose memory is the same (R297). -/
theorem State.eccBlock_of_reach (h : t.reach = s.reach) (source k : Nat) : (State.eccBlock source t k).reach = (State.eccBlock source s k).reach := by
  unfold State.eccBlock
  rw [State.mem_of_reach h]
  split
  · exact h
  · dsimp only
    split
    · exact State.reach_mem h _
    · split
      · exact State.reach_mem h _
      · rw [State.bump_reach _ _ (offRegion_of_lt (by decide)), State.bump_reach _ _ (offRegion_of_lt (by decide))]
        exact State.reach_mem h _
      · rw [State.uncorrectable_reach, State.uncorrectable_reach]
        exact State.reach_mem h _

theorem State.eccBlocks_of_reach (h : t.reach = s.reach) (source : Nat) (l : List Nat) :
    (l.foldl (State.eccBlock source) t).reach = (l.foldl (State.eccBlock source) s).reach := by
  induction l generalizing s t with
  | nil => exact h
  | cons k l ih => exact ih (State.eccBlock_of_reach h source k)

theorem State.awaitPage_of_reach (h : t.reach = s.reach) (w : Waiter) (entry base : Nat) :
    (t.awaitPage w entry base).reach = (s.awaitPage w entry base).reach := by
  unfold State.awaitPage State.requestPage
  rw [State.mem_of_reach h]
  dsimp only
  split
  · exact State.reach_mem h _
  · split
    · exact State.reach_mem h _
    · rw [State.bump_reach _ _ (offRegion_of_lt (by decide)), State.bump_reach _ _ (offRegion_of_lt (by decide))]
      exact State.reach_mem h _

theorem State.dttEntry_of_reach (h : t.reach = s.reach) (i : Nat) : t.dttEntry i = s.dttEntry i := by
  unfold State.dttEntry
  rw [State.mem_of_reach h]

theorem State.hostPath_of_reach (h : t.reach = s.reach) (x : MemCtx) (va a entry : Nat) (write more : Bool) :
    seen (t.hostPath x va a entry write more) = seen (s.hostPath x va a entry write more) := by
  unfold State.hostPath State.cachedRange State.touchRange
  rw [State.mem_of_reach h, State.ats_of_reach h, State.dttEntry_of_reach h]
  dsimp only
  split
  · exact seen_mk _ h
  · split
    · exact seen_mk _ (State.reach_mem h _)
    · split
      · exact seen_mk _ (State.reach_mem h _)
      · split
        · exact seen_mk _ h
        · exact seen_mk _ (State.awaitPage_of_reach h _ _ _)

/-- Decoded bytes of device memory, delivered (R297). -/
theorem State.deliver_of_reach (h : t.reach = s.reach) (x : MemCtx) (va a n e : Nat) (bad : List Nat) :
    seen (if bad.isEmpty then (Acc.ok (t.readDpa a n) none, t)
        else (if x.spec then t else t.poisonDelivered bad).poisonAcc x va 7 e (t.readDpa a n)) =
      seen (if bad.isEmpty then (Acc.ok (s.readDpa a n) none, s)
        else (if x.spec then s else s.poisonDelivered bad).poisonAcc x va 7 e (s.readDpa a n)) := by
  have hbytes : t.readDpa a n = s.readDpa a n := by
    unfold State.readDpa
    rw [State.mem_of_reach h]
  rw [hbytes]
  split
  · exact seen_mk _ h
  · rw [State.poisonAcc_reach, State.poisonAcc_reach]
    refine congrArg (Prod.mk _) ?_
    split
    · exact h
    · rw [State.poisonDelivered_reach, State.poisonDelivered_reach, h]

/-- Bytes of a host page, delivered (R298). -/
theorem State.deliverHost_of_reach (h : t.reach = s.reach) (x : MemCtx) (va a n e : Nat) :
    seen (if (blocksOf a n).any (fun k => SMap.get false t.mem.hostError k) then t.faultAcc x va 6 (some e) false
        else if (blocksOf a n).any (fun k => SMap.get false t.mem.hostPoison k) then t.poisonAcc x va 8 e (t.readHost a n)
        else (Acc.ok (t.readHost a n) none, t)) =
      seen (if (blocksOf a n).any (fun k => SMap.get false s.mem.hostError k) then s.faultAcc x va 6 (some e) false
        else if (blocksOf a n).any (fun k => SMap.get false s.mem.hostPoison k) then s.poisonAcc x va 8 e (s.readHost a n)
        else (Acc.ok (s.readHost a n) none, s)) := by
  have hbytes : t.readHost a n = s.readHost a n := by
    unfold State.readHost State.hostByteAt
    rw [State.mem_of_reach h]
  rw [hbytes, State.mem_of_reach h]
  split
  · rw [State.faultAcc_reach, State.faultAcc_reach, h]
  · split
    · rw [State.poisonAcc_reach, State.poisonAcc_reach, h]
    · exact seen_mk _ h

/-- What reads see decides the outcome of a read, and what later reads see (R301, R304). -/
theorem State.readPiece_of_reach (h : t.reach = s.reach) (x : MemCtx) (va n : Nat) (more : Bool) :
    seen (t.readPiece x va n more) = seen (s.readPiece x va n more) := by
  have hmem := State.mem_of_reach h
  have hdrops (u : State) : (u.bump Reg.MMU_SPEC_DROPS 1).reach = u.reach := u.bump_reach 1 (offRegion_of_lt (by decide))
  have hdropped : seen (Acc.drop, t.bump Reg.MMU_SPEC_DROPS 1) = seen (Acc.drop, s.bump Reg.MMU_SPEC_DROPS 1) :=
    seen_mk _ (by rw [hdrops, hdrops, h])
  have hwaits : t.stillWaits x va false = s.stillWaits x va false := by
    unfold State.stillWaits
    rw [hmem]
  unfold State.readPiece
  rw [State.translate_of_reach h, hwaits]
  split
  · rw [State.faultAcc_reach, State.faultAcc_reach, h]
  · split
    · exact seen_mk _ h
    · split
      · rw [State.faultAcc_reach, State.faultAcc_reach, h]
      · next a e _ =>
        rw [State.dttEntry_of_reach h]
        split
        · exact hdropped
        · rw [State.badBlock_of_reach h]
          dsimp only
          have hdecoded : (if x.spec && !((blocksOf a n).filter s.badBlock).isEmpty then t else (blocksOf a n).foldl (State.eccBlock 0) t).reach =
              (if x.spec && !((blocksOf a n).filter s.badBlock).isEmpty then s else (blocksOf a n).foldl (State.eccBlock 0) s).reach := by
            split
            · exact h
            · exact State.eccBlocks_of_reach h 0 _
          generalize (if x.spec && !((blocksOf a n).filter s.badBlock).isEmpty then t else (blocksOf a n).foldl (State.eccBlock 0) t) = t1
            at hdecoded ⊢
          generalize (if x.spec && !((blocksOf a n).filter s.badBlock).isEmpty then s else (blocksOf a n).foldl (State.eccBlock 0) s) = s1
            at hdecoded ⊢
          exact State.deliver_of_reach hdecoded x va a n e _
      · next a e _ =>
        rw [State.dttEntry_of_reach h]
        split
        · exact hdropped
        · have hpath := State.hostPath_of_reach h x va a e false more
          generalize t.hostPath x va a e false more = rt at hpath ⊢
          generalize s.hostPath x va a e false more = rs at hpath ⊢
          obtain ⟨pt, t1⟩ := rt
          obtain ⟨ps, s1⟩ := rs
          obtain ⟨rfl, h1⟩ : pt = ps ∧ t1.reach = s1.reach := Prod.mk.inj hpath
          cases pt with
          | go => exact State.deliverHost_of_reach h1 x va a n e
          | fault k => exact seen_mk _ h1
          | wait => exact seen_mk _ h1
          | drop => exact seen_mk _ (by rw [hdrops, hdrops, h1])

theorem readPieces_of_reach (fuel : Nat) (x : MemCtx) (va n : Nat) (h : t.reach = s.reach) :
    seen (readPieces fuel x va n t) = seen (readPieces fuel x va n s) := by
  induction fuel generalizing va n s t with
  | zero => exact seen_mk _ h
  | succ fuel ih =>
    unfold readPieces
    split
    · exact seen_mk _ h
    · have hpiece := State.readPiece_of_reach h x va (min n (4096 - va % 4096)) (t.goesOn va n)
      rw [State.goesOn_of_reach h] at hpiece ⊢
      dsimp only
      generalize t.readPiece x va (min n (4096 - va % 4096)) (s.goesOn va n) = rt at hpiece ⊢
      generalize s.readPiece x va (min n (4096 - va % 4096)) (s.goesOn va n) = rs at hpiece ⊢
      obtain ⟨at1, t1⟩ := rt
      obtain ⟨as1, s1⟩ := rs
      obtain ⟨rfl, h1⟩ : at1 = as1 ∧ t1.reach = s1.reach := Prod.mk.inj hpiece
      cases at1 with
      | ok d p =>
        have hrest := ih (va + min n (4096 - va % 4096)) (n - min n (4096 - va % 4096)) h1
        dsimp only
        generalize readPieces fuel x (va + min n (4096 - va % 4096)) (n - min n (4096 - va % 4096)) t1 = rt at hrest ⊢
        generalize readPieces fuel x (va + min n (4096 - va % 4096)) (n - min n (4096 - va % 4096)) s1 = rs at hrest ⊢
        obtain ⟨at2, t2⟩ := rt
        obtain ⟨as2, s2⟩ := rs
        obtain ⟨rfl, h2⟩ : at2 = as2 ∧ t2.reach = s2.reach := Prod.mk.inj hrest
        cases at2 <;> exact seen_mk _ h2
      | fault k => exact seen_mk _ h1
      | wait => exact seen_mk _ h1
      | drop => exact seen_mk _ h1

theorem State.memRead_of_reach (h : t.reach = s.reach) (x : MemCtx) (va n : Nat) : (t.memRead x va n).1 = (s.memRead x va n).1 :=
  congrArg (fun r : Acc × Reach => r.1) (readPieces_of_reach (n / 4096 + 2) x va n h)

/-- A site's verdict depends on the population tests and on what reads of their work areas see (R286). -/
theorem State.siteVerdict_of_reach (h : t.reach = s.reach) (htests : t.popTests = s.popTests) (test site : Nat) :
    t.siteVerdict test site = s.siteVerdict test site := by
  have hfind (k : Nat) : t.popFind k = s.popFind k := by
    unfold State.popFind
    rw [htests]
  have hjudge (x : PopTest) : t.judge x = s.judge x := by
    unfold State.judge
    rw [hfind]
  unfold State.siteVerdict
  rw [hfind]
  cases s.popFind test with
  | none => rfl
  | some x =>
    have hread := State.memRead_of_reach h { popCtx with consumes := false } (x.2.work + siteOff site) 16
    dsimp only
    rw [hjudge]
    generalize t.memRead { popCtx with consumes := false } (x.2.work + siteOff site) 16 = rt at hread ⊢
    generalize s.memRead { popCtx with consumes := false } (x.2.work + siteOff site) 16 = rs at hread ⊢
    obtain ⟨at1, t1⟩ := rt
    obtain ⟨as1, s1⟩ := rs
    obtain rfl : at1 = as1 := hread
    cases at1 with
    | ok d p => cases p <;> rfl
    | fault k => rfl
    | wait => rfl
    | drop => rfl

end Sys2Proof.Machine
end

section
/-! SUPPORT. What a group reads before its word issues (R36, R97, R104, R105, R156, R177): its program, apart from the
vector queue and the clock, and of the state the scene below. -/

namespace Sys2Proof.Machine

open Sys2Proof

/-! ### Programs -/

/-- A program with what its vectors' queue and clock hold, what blocks it and the marks of its last word left out. -/
def Program.core (g : Program) : Program :=
  { g with
    queue := [], taken := [], clock := 0, zero := none, set := 0, lastHold := 0, blocked := 0, stall := 0, vectorsIssued := 0
    micro := { g.micro with repeatLeft := 0, wordPc := 0, lastSafe := 0 } }

/-- A program with what its vectors' queue and clock hold and what blocks it left out. -/
def Program.pace (g : Program) : Program :=
  { g with queue := [], taken := [], clock := 0, zero := none, set := 0, lastHold := 0, blocked := 0, stall := 0 }

/-- What of a program its core tells. -/
theorem Program.of_core {β : Type} (f : Program → β) (hf : ∀ g, f g.core = f g) {g h : Program} (hg : h.core = g.core) : f h = f g := by
  rw [← hf h, hg, hf g]

/-- What a view of programs shows of the program of the group led by `b`. -/
def State.viewOf {β : Type} (s : State) (v : Program → β) (b : Nat) : Option β := (s.program b).map v

section Views

variable {β : Type} {v : Program → β} {s t : State} {b : Nat} {g h : Program}

theorem State.viewOf_of_anchors (ha : t.anchors = s.anchors) : t.viewOf v b = s.viewOf v b := by
  unfold State.viewOf
  rw [State.program_of_anchors ha]

theorem State.viewOf_setProgram (hg : s.program b = some g) (hh : v h = v g) : (s.setProgram b h).viewOf v b = s.viewOf v b := by
  unfold State.viewOf
  rw [State.program_setProgram_self, hg, Option.map_some, Option.map_some, hh]

theorem State.viewOf_modProgram {f : Program → Program} (hf : ∀ g, v (f g) = v g) (s : State) : (s.modProgram b f).viewOf v b = s.viewOf v b := by
  unfold State.viewOf
  rw [State.program_modProgram_self, Option.map_map]
  exact congrArg (Option.map · (s.program b)) (funext hf)

theorem State.program_of_view (hv : t.viewOf v b = s.viewOf v b) (hg : s.program b = some g) : ∃ h, t.program b = some h ∧ v h = v g := by
  unfold State.viewOf at hv
  rw [hg, Option.map_some] at hv
  exact Option.map_eq_some_iff.mp hv

theorem State.core_of_pace (hp : t.viewOf Program.pace b = s.viewOf Program.pace b) : t.viewOf Program.core b = s.viewOf Program.core b := by
  have hmap (u : State) : (u.viewOf Program.pace b).map Program.core = u.viewOf Program.core b := by
    unfold State.viewOf
    rw [Option.map_map]
    rfl
  rw [← hmap, hp, hmap]

end Views

/-! ### What keeps the pace apart, and the core (R23, R99, R137, R140) -/

section Core

variable (s : State) (b : Nat)

/-- The start of the clock sets program time zero alone (R83). -/
theorem State.startClock_program {g : Program} (hg : s.program b = some g) : ∃ z, (s.startClock b).program b = some { g with zero := z } := by
  unfold State.startClock
  rw [hg]
  dsimp only
  split
  · exact ⟨g.zero, hg⟩
  · exact ⟨_, State.program_setProgram_self _ b _⟩

theorem State.startClock_pace : (s.startClock b).viewOf Program.pace b = s.viewOf Program.pace b := by
  cases hg : s.program b with
  | none =>
    unfold State.startClock
    rw [hg]
  | some g =>
    obtain ⟨z, hz⟩ := s.startClock_program b hg
    unfold State.viewOf
    rw [hz, hg]
    rfl

theorem State.appliedTo_pace (t : Nat) : (s.appliedTo b t).viewOf Program.pace b = s.viewOf Program.pace b := by
  unfold State.appliedTo
  rw [State.viewOf_of_anchors (State.anchors_foldl _ (fun u n => u.showBuffer_anchors n) _ _)]
  exact State.viewOf_modProgram (fun _ => by rfl) s

theorem State.applyDue_pace : (s.applyDue b).viewOf Program.pace b = s.viewOf Program.pace b := by
  unfold State.applyDue
  split
  · exact s.appliedTo_pace b _
  · rfl

theorem State.queueEmptied_pace : (s.queueEmptied b).viewOf Program.pace b = s.viewOf Program.pace b := by
  unfold State.queueEmptied
  split
  · exact s.appliedTo_pace b _
  · rfl

theorem State.holdPeriods_pace (n : Nat) : (s.holdPeriods b n).viewOf Program.pace b = s.viewOf Program.pace b := by
  unfold State.holdPeriods
  split
  · rfl
  · split
    · rfl
    · rw [State.queueEmptied_pace]
      refine (State.viewOf_modProgram (fun g => ?_) _).trans (State.viewOf_of_anchors (State.applyHold_anchors s b _ _))
      split <;> rfl

theorem State.clearBlock_pace : (s.clearBlock b).viewOf Program.pace b = s.viewOf Program.pace b := by
  unfold State.clearBlock
  split
  · rfl
  · refine (State.viewOf_modProgram (fun g => ?_) _).trans (State.viewOf_of_anchors ?_)
    · rfl
    · split <;> simp

@[simp] theorem State.holdVector_anchors (s : State) (g : Program) (x : SitePos) (p i j : Nat) :
    (s.holdVector g x p i j).anchors = s.anchors := by
  simp [State.holdVector]

@[simp] theorem State.applyHoldVector_anchors (s : State) (b : Nat) (g : Program) (positions : Nat) :
    (s.applyHoldVector b g positions).anchors = s.anchors :=
  State.anchors_foldl _ (fun _ _ => by split <;> simp) _ _

/-- The repetitions that were cut come back: they are issued and counted, and take one entry of the queue (R140). -/
theorem State.issueCut_program {g : Program} (hg : s.program b = some g) :
    ∃ h, (s.issueCut b).program b = some h ∧ h.core = g.core ∧ h.vectorsIssued = g.vectorsIssued + g.micro.repeatLeft ∧
      h.queue.length ≤ g.queue.length + 1 := by
  unfold State.issueCut
  rw [hg]
  dsimp only
  split
  · next h0 => exact ⟨g, hg, rfl, by rw [h0, Nat.add_zero], Nat.le_succ _⟩
  · have hheld := (State.program_of_anchors (State.applyHoldVector_anchors s b g (s.openMask b)) b).trans hg
    obtain ⟨z, hz⟩ := State.startClock_program
      ((s.applyHoldVector b g (s.openMask b)).modProgram b (fun g => { g.queueVectors g.set g.micro.repeatLeft (s.groupPeriod b g.set) false with
        lastHold := g.micro.repeatLeft, micro := { g.micro with repeatLeft := 0 } })) b
      (by rw [State.program_modProgram_self, hheld, Option.map_some])
    exact ⟨_, hz, rfl, rfl, le_of_eq List.length_append⟩

theorem State.useFrame_anchors (i : Nat) : (s.useFrame b i).anchors = s.anchors :=
  State.anchors_foldl _ (fun u n => u.modSeq_anchors n _) _ _

end Core

/-! ### The scene -/

/-- What the conditions and the checks of a word read outside its program. -/
structure Scene where
  reach : Reach
  tests : SMap PopTest
  input : List PopReading
  groups : SMap Group
  lines : SMap EvLine
  applied : SMap (BitVec 64)
  fuse : FuseView
  limit : Nat → Bool
  deckle : Fin 64 → BitVec 64
  back : Nat → Bool
  buffer : Nat → List Block

def State.scene (s : State) : Scene :=
  { reach := s.reach, tests := s.popTests, input := s.popInput, groups := s.groups, lines := s.ev.lines, applied := s.applied, fuse := s.fuse
    limit := fun d => s.flag (Reg.DPS_STATUS_ILIMIT d), deckle := fun b => s.quad (Reg.seqB b.val + 0x110)
    back := fun n => s.flag (Reg.EB_STATUS_BACKPRESSURE n), buffer := fun n => (s.seqRec n).buffer }

/-- The field is none of the scene's. -/
structure OffScene (f : Fld) : Prop where
  region : offRegion f
  deckle : offDeckle f
  limit : ∀ d, f.addr = Reg.dpsB d → f.lo + f.width ≤ 36 ∨ 37 ≤ f.lo
  back : ∀ n, f.addr ≠ Reg.seqB n + 0x240

/-- A field of a member's registers that is no DECKLE_STATE and no EB_STATUS. -/
theorem offScene_of_seq {f : Fld} {n o : Nat} (hf : f.addr = Reg.seqB n + o) (ho : o < 0x800) (hdeckle : o ≠ 0x110) (hback : o ≠ 0x240)
    (hlimit : n < 64 ∨ f.lo + f.width ≤ 36 ∨ 37 ≤ f.lo) : OffScene f := by
  refine ⟨offRegion_of_gt ?_, offDeckle_of_offset hf ho hdeckle, fun d hd => ?_, fun m hm => ?_⟩
  · rw [hf]
    unfold Reg.seqB
    omega
  · refine hlimit.resolve_left (fun hn => ?_)
    rw [hf] at hd
    unfold Reg.seqB Reg.dpsB at hd
    omega
  · exact seqB_apart ho (by decide) hback (hf.symm.trans hm)

section Updates

variable (s : State)

@[simp] theorem State.setFld_scene {f : Fld} (v : Nat) (h : OffScene f) : (s.setFld f v).scene = s.scene := by
  have hother {e : Fld} (he : f.addr ≠ e.addr) : (s.setFld f v).flag e = s.flag e := by
    unfold State.flag
    rw [State.fld_setFld_other _ _ _ _ (fun ha => absurd ha he)]
  have hlimit (d : Nat) : (s.setFld f v).flag (Reg.DPS_STATUS_ILIMIT d) = s.flag (Reg.DPS_STATUS_ILIMIT d) := by
    refine (State.regsBut_setFld s f v).flag (fun e he ha => ?_)
    obtain rfl := List.mem_singleton.mp he
    exact h.limit d ha
  have hdeckle (b : Fin 64) : (s.setFld f v).quad (Reg.seqB b.val + 0x110) = s.quad (Reg.seqB b.val + 0x110) :=
    State.quad_setFld_other s v (h.deckle b.val b.isLt)
  have hback (n : Nat) : (s.setFld f v).flag (Reg.EB_STATUS_BACKPRESSURE n) = s.flag (Reg.EB_STATUS_BACKPRESSURE n) := hother (h.back n)
  unfold State.scene
  rw [State.setFld_reach s v h.region]
  simp only [hlimit, hdeckle, hback]
  rfl

@[simp] theorem State.bump_scene {f : Fld} (k : Nat) (h : OffScene f) : (s.bump f k).scene = s.scene := s.setFld_scene _ h

@[simp] theorem State.setProgram_scene (b : Nat) (g : Program) : (s.setProgram b g).scene = s.scene := rfl

@[simp] theorem State.modPin_scene (p : Nat) (f : Pin → Pin) : (s.modPin p f).scene = s.scene := rfl

@[simp] theorem State.draw_scene (w : Nat) : (s.draw w).2.scene = s.scene := rfl

@[simp] theorem State.modProgram_scene (b : Nat) (f : Program → Program) : (s.modProgram b f).scene = s.scene := by
  unfold State.modProgram
  split <;> rfl

theorem State.modSeq_scene {n : Nat} {f : Seq → Seq} (hf : ∀ q, (f q).buffer = q.buffer) : (s.modSeq n f).scene = s.scene := by
  have hbuffer (m : Nat) : ((s.modSeq n f).seqRec m).buffer = (s.seqRec m).buffer := by
    by_cases hm : m = n
    · rw [hm, State.seqRec_modSeq_self, hf]
    · rw [State.seqRec_modSeq_other _ _ hm]
  exact congrArg (Scene.mk s.reach s.popTests s.popInput s.groups s.ev.lines s.applied s.fuse _ _ _) (funext hbuffer)

theorem State.scene_foldl {α : Type} {f : State → α → State} (h : ∀ s a, (f s a).scene = s.scene) (l : List α) :
    (l.foldl f s).scene = s.scene := State.foldl_same State.scene h l s

@[simp] theorem State.showBuffer_scene (n : Nat) : (s.showBuffer n).scene = s.scene :=
  s.setFld_scene _ (offScene_of_seq (n := n) (o := 0x200) rfl (by decide) (by decide) (by decide) (.inr (.inl (show 6 + 4 ≤ 36 by decide))))

@[simp] theorem State.appliedTo_scene (b t : Nat) : (s.appliedTo b t).scene = s.scene :=
  (State.scene_foldl _ (fun u n => u.showBuffer_scene n) _).trans (s.modProgram_scene b _)

@[simp] theorem State.applyDue_scene (b : Nat) : (s.applyDue b).scene = s.scene := by
  unfold State.applyDue
  split
  · exact s.appliedTo_scene b _
  · rfl

@[simp] theorem State.applyHold_scene (b : Nat) (g : Program) (positions : Nat) : (s.applyHold b g positions).scene = s.scene :=
  State.scene_foldl _ (fun u q => by split <;> rfl) _

@[simp] theorem State.applyHoldVector_scene (b : Nat) (g : Program) (positions : Nat) : (s.applyHoldVector b g positions).scene = s.scene :=
  State.scene_foldl _ (fun u q => by split <;> rfl) _

@[simp] theorem State.startClock_scene (b : Nat) : (s.startClock b).scene = s.scene := by
  unfold State.startClock
  split
  · rfl
  · split <;> rfl

@[simp] theorem State.issueCut_scene (b : Nat) : (s.issueCut b).scene = s.scene := by
  unfold State.issueCut
  split
  · rfl
  · split <;> simp

@[simp] theorem State.queueEmptied_scene (b : Nat) : (s.queueEmptied b).scene = s.scene := by
  unfold State.queueEmptied
  split <;> simp

@[simp] theorem State.holdPeriods_scene (b n : Nat) : (s.holdPeriods b n).scene = s.scene := by
  unfold State.holdPeriods
  split
  · rfl
  · split <;> simp

@[simp] theorem State.clearBlock_scene {b : Nat} (hb : b < 64) : (s.clearBlock b).scene = s.scene := by
  unfold State.clearBlock
  split
  · rfl
  · rw [State.modProgram_scene]
    split
    · exact s.bump_scene 1 (offScene_of_seq (o := 0x88) rfl (by decide) (by decide) (by decide) (.inl hb))
    · rfl

@[simp] theorem State.useFrame_scene (b i : Nat) : (s.useFrame b i).scene = s.scene :=
  State.scene_foldl _ (fun u n => u.modSeq_scene (fun q => by split <;> rfl)) _

end Updates

/-! ### What the scene decides -/

section Reads

variable {s t : State} {b : Nat} {g h : Program}

theorem State.members_of_scene (hs : t.scene = s.scene) (b : Nat) : t.members b = s.members b := by
  unfold State.members State.group
  rw [show t.groups = s.groups from congrArg Scene.groups hs]

theorem State.sitePos_of_scene (hs : t.scene = s.scene) (b p : Nat) : t.sitePos b p = s.sitePos b p := by
  unfold State.sitePos State.group
  rw [show t.groups = s.groups from congrArg Scene.groups hs]

theorem State.openMask_of_quad (h : t.quad (Reg.seqB b + 0x110) = s.quad (Reg.seqB b + 0x110)) : t.openMask b = s.openMask b := by
  unfold State.openMask State.enabledMask State.closedMask State.fld Reg.DECKLE_STATE_ENABLED Reg.DECKLE_STATE_CLOSED
  dsimp only
  rw [h]

theorem State.openMask_of_scene (hs : t.scene = s.scene) (hb : b < 64) : t.openMask b = s.openMask b :=
  State.openMask_of_quad (congrFun (congrArg Scene.deckle hs) ⟨b, hb⟩)

theorem State.activeSites_of_scene (hs : t.scene = s.scene) (hb : b < 64) (hg : h.core = g.core) : t.activeSites b h = s.activeSites b g := by
  have hmask : h.micro.mask = g.micro.mask :=
    Program.of_core (fun g => g.micro.mask) (fun _ => rfl) hg
  have hsites : h.micro.runningSites = g.micro.runningSites :=
    Program.of_core (fun g => g.micro.runningSites) (fun _ => rfl) hg
  unfold State.activeSites State.slotSites
  rw [State.openMask_of_scene hs hb, hmask, hsites]

theorem State.reamBlocks_of_scene (hs : t.scene = s.scene) (b : Nat) : t.reamBlocks b = s.reamBlocks b := by
  unfold State.reamBlocks
  rw [State.members_of_scene hs]
  exact congrArg ((s.members b).any ·) (congrArg Scene.back hs)

theorem State.heads_of_scene (hs : t.scene = s.scene) (n : Nat) : (t.seqRec n).buffer = (s.seqRec n).buffer :=
  congrFun (congrArg Scene.buffer hs) n

theorem State.laneReady_of_scene (hs : t.scene = s.scene) (b pc seg ref : Nat) : t.laneReady b pc seg ref = s.laneReady b pc seg ref := by
  unfold State.laneReady
  simp only [State.members_of_scene hs, State.heads_of_scene hs]

theorem State.headStatus_of_scene (hs : t.scene = s.scene) (b : Nat) : t.headStatus b = s.headStatus b := by
  unfold State.headStatus
  simp only [State.members_of_scene hs, State.heads_of_scene hs]

theorem State.takeLanes_of_scene (hs : t.scene = s.scene) (b : Nat) : (t.takeLanes b).1 = (s.takeLanes b).1 := by
  unfold State.takeLanes
  simp only [State.members_of_scene hs, State.heads_of_scene hs]

theorem State.siteNumber_of_scene (hs : t.scene = s.scene) (b p : Nat) : t.siteNumber b p = s.siteNumber b p := by
  unfold State.siteNumber
  rw [State.sitePos_of_scene hs]

theorem State.verdict_of_scene (hs : t.scene = s.scene) (test site : Nat) : t.siteVerdict test site = s.siteVerdict test site :=
  State.siteVerdict_of_reach (congrArg Scene.reach hs) (congrArg Scene.tests hs) test site

theorem State.readCond_core (s : State) (b : Nat) (g : Program) (w : Nat) : s.readCond b g.core w = s.readCond b g w := rfl

/-- The scene and the program's core decide the source that a word reads at step 3 (R104). -/
theorem State.readCond_of_scene (hs : t.scene = s.scene) (hg : h.core = g.core) (w : Nat) : t.readCond b h w = s.readCond b g w := by
  have hlimit (d : Nat) : t.flag (Reg.DPS_STATUS_ILIMIT d) = s.flag (Reg.DPS_STATUS_ILIMIT d) := congrFun (congrArg Scene.limit hs) d
  have hasserted (k : Nat) : t.evAsserted k = s.evAsserted k := by
    unfold State.evAsserted
    rw [show t.ev.lines = s.ev.lines from congrArg Scene.lines hs]
  have happlied (f : Fld) : t.asfld f = s.asfld f := by
    unfold State.asfld State.afld State.appliedQuad
    rw [show t.applied = s.applied from congrArg Scene.applied hs, show t.fuse = s.fuse from congrArg Scene.fuse hs]
  rw [← State.readCond_core, hg, State.readCond_core]
  unfold State.readCond
  simp only [hlimit, hasserted, happlied, State.siteNumber_of_scene hs, State.sitePos_of_scene hs, State.verdict_of_scene hs]

/-- The scene and the program's core decide whether a word's source is complete (R105). -/
theorem State.condReady_of_scene (hs : t.scene = s.scene) (hb : b < 64) (hg : h.core = g.core) (w : Nat) :
    t.condReady b h w = s.condReady b g w := by
  have hfind (k : Nat) : t.popFind k = s.popFind k := by
    unfold State.popFind
    rw [show t.popTests = s.popTests from congrArg Scene.tests hs]
  have hdrained : t.popDrained b = s.popDrained b := by
    unfold State.popDrained
    rw [show t.popTests = s.popTests from congrArg Scene.tests hs, show t.popInput = s.popInput from congrArg Scene.input hs]
  have hresolved (k p : Nat) : t.verdictResolved k p = s.verdictResolved k p := by
    unfold State.verdictResolved
    rw [State.verdict_of_scene hs, hfind]
  have houtstanding : h.outstanding = g.outstanding := Program.of_core Program.outstanding (fun _ => rfl) hg
  have hpending : h.pendingReadings = g.pendingReadings := Program.of_core Program.pendingReadings (fun _ => rfl) hg
  have htriggers : h.triggers = g.triggers := Program.of_core Program.triggers (fun _ => rfl) hg
  have hcarried : h.carried = g.carried := Program.of_core Program.carried (fun _ => rfl) hg
  unfold State.condReady
  simp only [houtstanding, hpending, htriggers, hcarried, hfind, hdrained, hresolved, State.activeSites_of_scene hs hb hg,
    State.siteNumber_of_scene hs]

end Reads

end Sys2Proof.Machine
end

section
/-! SUPPORT. What of a program the issue of a word leaves alone, and what the way its path takes does (R97, R101, R131 to R143). -/

namespace Sys2Proof.Machine

open Sys2Proof

/-! ### The course of a program: what its vectors and their results leave alone -/

/-- A micro-state without the results, the place in its streams and the marks of its last word. -/
def Micro.course (m : Micro) : Micro :=
  { m with fail := 0, failLast := 0, matchBits := 0, repeatLeft := 0, wordPc := 0, lastSafe := 0, streamBlock := 0, streamVector := 0, streamSeq := 0 }

/-- A program without what its vectors, their results, its triggers and its snapshots change. -/
def Program.course (g : Program) : Program :=
  { g with
    queue := [], taken := [], clock := 0, zero := none, set := 0, lastHold := 0, vectorsIssued := 0, wordVector := 0, outstanding := []
    seqDone := 0, triggers := [], carried := [], analog := [], serial := 0, lastTrigger := none, readings := [], blocked := 0, stall := 0
    snapshot := none, snapVectors := 0, snapTriggers := 0, snapTrigger := none, sent := [], hostTraps := [], micro := g.micro.course }

theorem Program.course_of_core {g h : Program} (hg : h.core = g.core) : h.course = g.course :=
  Program.of_core Program.course (fun _ => rfl) hg

/-- What of a program its course tells. -/
theorem Program.of_course {β : Type} (f : Program → β) (hf : ∀ g, f g.course = f g) {g h : Program} (hg : h.course = g.course) : f h = f g := by
  rw [← hf h, hg, hf g]

section Course

variable {s t : State} {b : Nat}

theorem State.course_of_core (hc : t.viewOf Program.core b = s.viewOf Program.core b) :
    t.viewOf Program.course b = s.viewOf Program.course b := by
  have hmap (u : State) : (u.viewOf Program.core b).map Program.course = u.viewOf Program.course b := by
    unfold State.viewOf
    rw [Option.map_map]
    rfl
  rw [← hmap, hc, hmap]

@[simp] theorem State.showRingOf_anchors (s : State) (n : Nat) : (s.showRingOf n).anchors = s.anchors := by
  unfold State.showRingOf
  split <;> simp

@[simp] theorem State.takeLanes_anchors (s : State) (b : Nat) : (s.takeLanes b).2.anchors = s.anchors :=
  State.anchors_foldl _ (fun _ _ => by split <;> simp) _ _

@[simp] theorem State.beforeFirst_anchors (s : State) (b : Nat) (g : Program) : (s.beforeFirst b g).anchors = s.anchors := by
  unfold State.beforeFirst
  split <;> simp

@[simp] theorem State.actPosition_anchors (s : State) (b : Nat) (g : Program) (lanes : List Block) (set : Nat) :
    (s.actPosition b g lanes set).anchors = s.anchors :=
  State.anchors_foldl _ (fun _ _ => by
    dsimp only
    repeat' split
    all_goals simp [State.actBlock]) _ _

@[simp] theorem State.recordTags_anchors (s : State) (b : Nat) (g : Program) (addr : Nat) : (s.recordTags b g addr).anchors = s.anchors :=
  State.anchors_foldl _ (fun _ _ => by
    dsimp only
    repeat' split
    all_goals simp) _ _

@[simp] theorem State.afterVectors_anchors (s : State) (b w : Nat) : (s.afterVectors b w).anchors = s.anchors := by
  unfold State.afterVectors
  repeat' split
  all_goals simp

theorem State.issueHold_course (s : State) (b w : Nat) : (s.issueHold b w).viewOf Program.course b = s.viewOf Program.course b := by
  unfold State.issueHold
  split
  · rfl
  · dsimp only
    refine (State.viewOf_modProgram (fun _ => by rfl) _).trans ?_
    rw [State.viewOf_of_anchors (State.applyHoldVector_anchors _ _ _ _), State.course_of_core (State.core_of_pace (State.startClock_pace _ b))]

theorem State.attach_course (s : State) (b w active : Nat) (vectors : Bool) : (s.attach b w active vectors).viewOf Program.course b = s.viewOf Program.course b := by
  unfold State.attach
  refine State.viewOf_modProgram (fun g => ?_) s
  dsimp only
  repeat' split
  all_goals rfl

/-- A block position taken into use, before its vectors enter the queue (R98, R156). -/
def State.positionTaken (s : State) (b w : Nat) (g : Program) : State :=
  ((((s.startClock b).takeLanes b).2).beforeFirst b g).actPosition b g ((s.startClock b).takeLanes b).1 (wSet w)

theorem State.positionTaken_course (s : State) (b w : Nat) (g : Program) : (s.positionTaken b w g).viewOf Program.course b = s.viewOf Program.course b := by
  unfold State.positionTaken
  rw [State.viewOf_of_anchors (State.actPosition_anchors _ _ _ _ _), State.viewOf_of_anchors (State.beforeFirst_anchors _ _ _),
    State.viewOf_of_anchors (State.takeLanes_anchors _ _), State.course_of_core (State.core_of_pace (State.startClock_pace _ b))]

theorem State.issuePosition_course (s : State) (b w : Nat) (first : Bool) : (s.issuePosition b w first).viewOf Program.course b = s.viewOf Program.course b := by
  unfold State.issuePosition
  split
  · rfl
  · next g hg =>
    dsimp only
    rw [State.viewOf_of_anchors (State.anchors_foldl _ (fun u n => u.showBuffer_anchors n) _ _)]
    have htaken := s.positionTaken_course b w g
    obtain ⟨h, hh, hcourse⟩ := State.program_of_view htaken hg
    unfold State.viewOf
    rw [State.program_modProgram_self]
    unfold State.positionTaken at hh
    rw [hh, hg, Option.map_some, Option.map_some, Option.map_some]
    change some ({ h.course with micro := g.course.micro } : Program) = some g.course
    rw [hcourse]

theorem State.issueRest_course (s : State) (b w fuel : Nat) : (s.issueRest b w fuel).viewOf Program.course b = s.viewOf Program.course b := by
  induction fuel generalizing s with
  | zero => rfl
  | succ fuel ih =>
    unfold State.issueRest
    split
    · rfl
    · split
      · rfl
      · split
        · rw [ih, State.issuePosition_course]
        · rfl

theorem State.takeSnapshot_course (s : State) (b : Nat) : (s.takeSnapshot b).viewOf Program.course b = s.viewOf Program.course b := by
  unfold State.takeSnapshot
  split
  · rfl
  · next g hg =>
    dsimp only
    rw [State.viewOf_of_anchors (State.anchors_foldl _ (fun u n => u.modSeq_anchors n _) _ _)]
    exact State.viewOf_setProgram hg rfl

/-- Results that return change the outstanding words and the sticky fail bits alone (R104, R111). -/
theorem settleWords_eq (s : State) (b n : Nat) (g : Program) : s.settleWords b n g = { g with
    outstanding := (s.settleWords b n g).outstanding
    micro := { g.micro with
      fail := (s.settleWords b n g).micro.fail, failLast := (s.settleWords b n g).micro.failLast
      matchBits := (s.settleWords b n g).micro.matchBits } } := by
  induction n generalizing g with
  | zero => rfl
  | succ n ih =>
    unfold State.settleWords
    split
    · rfl
    · dsimp only
      split
      · split
        · exact ih _
        · rfl
      · split
        · exact ih _
        · rfl

/-- The words and bits of results that have returned. -/
def Program.settledAs (g h : Program) : Prop :=
  h = { g with
    outstanding := h.outstanding, seqDone := h.seqDone
    micro := { g.micro with fail := h.micro.fail, failLast := h.micro.failLast, matchBits := h.micro.matchBits } }

theorem Program.settledAs.course {g h : Program} (hs : g.settledAs h) : h.course = g.course := by
  unfold Program.settledAs at hs
  rw [hs]
  rfl

theorem State.settleResults_settled {g : Program} (hg : s.program b = some g) :
    ∃ h, (s.settleResults b).program b = some h ∧ g.settledAs h ∧ h.seqDone = g.seqDone := by
  unfold State.settleResults
  rw [State.program_modProgram_self, hg, Option.map_some]
  have heq := settleWords_eq s b (g.outstanding.length + 1) g
  have hseq := congrArg Program.seqDone heq
  refine ⟨_, rfl, ?_, hseq⟩
  unfold Program.settledAs
  rw [hseq]
  exact heq

theorem State.closeWord_settledAs {g : Program} (hg : s.program b = some g) : ∃ h, (s.closeWord b).program b = some h ∧ g.settledAs h := by
  have hclosed : (s.modProgram b Program.closeWord).program b = some g.closeWord := by
    rw [State.program_modProgram_self, hg, Option.map_some]
  obtain ⟨h, hh, hsettled, -⟩ := State.settleResults_settled hclosed
  refine ⟨h, hh, ?_⟩
  unfold Program.closeWord at hsettled
  split at hsettled <;> exact hsettled

theorem State.settleResults_course (s : State) (b : Nat) : (s.settleResults b).viewOf Program.course b = s.viewOf Program.course b := by
  cases hg : s.program b with
  | none =>
    unfold State.settleResults State.modProgram
    rw [hg]
  | some g =>
    obtain ⟨h, hh, hsettled, -⟩ := State.settleResults_settled hg
    unfold State.viewOf
    rw [hh, hg]
    exact congrArg some hsettled.course

end Course
theorem State.closeWord_course (s : State) (b : Nat) : (s.closeWord b).viewOf Program.course b = s.viewOf Program.course b := by
  unfold State.closeWord
  rw [State.settleResults_course]
  refine State.viewOf_modProgram (fun g => ?_) s
  unfold Program.closeWord
  split <;> rfl

/-! ### A group that goes on -/

/-- The word last issued, and how often the program has replayed. -/
def Program.marks (g : Program) : Option Nat × Bool × Nat := (g.lastWord, g.begun, g.replays)

theorem Program.marks_eq {g : Program} {pc : Option Nat} {begun : Bool} {n : Nat} :
    g.marks = (pc, begun, n) ↔ g.lastWord = pc ∧ g.begun = begun ∧ g.replays = n := by
  unfold Program.marks
  rw [Prod.mk.injEq, Prod.mk.injEq]

/-- The program has gone on, and is in no condition wait where it was in none. -/
def Program.follows (g h : Program) : Prop := h.marks = g.marks ∧ (h.wait = 1 → g.wait = 1)

/-- The program of the group led by `b` has gone on. -/
def State.follows (b : Nat) (s t : State) : Prop := ∀ g, s.program b = some g → ∃ h, t.program b = some h ∧ g.follows h

section Follows

variable {s t u : State} {b : Nat} {g h : Program}

theorem State.follows_of_anchors (ha : t.anchors = s.anchors) : s.follows b t :=
  fun g hg => ⟨g, (State.program_of_anchors ha b).trans hg, rfl, id⟩

theorem State.follows_refl (b : Nat) (s : State) : s.follows b s := State.follows_of_anchors rfl

theorem State.follows.trans (h1 : s.follows b t) (h2 : t.follows b u) : s.follows b u := by
  intro g hg
  obtain ⟨g1, hg1, hm1, hw1⟩ := h1 g hg
  obtain ⟨g2, hg2, hm2, hw2⟩ := h2 g1 hg1
  exact ⟨g2, hg2, hm2.trans hm1, hw1 ∘ hw2⟩

theorem State.follows.anchors (h1 : s.follows b t) (ha : u.anchors = t.anchors) : s.follows b u := h1.trans (State.follows_of_anchors ha)

theorem State.follows_setProgram (hg : s.program b = some g) (hf : g.follows h) : s.follows b (s.setProgram b h) := by
  intro g' hg'
  obtain rfl : g = g' := Option.some.inj (hg.symm.trans hg')
  exact ⟨h, State.program_setProgram_self s b h, hf⟩

theorem State.follows_modProgram {f : Program → Program} (hf : ∀ g : Program, g.follows (f g)) (s : State) : s.follows b (s.modProgram b f) := by
  intro g hg
  exact ⟨f g, by rw [State.program_modProgram_self, hg, Option.map_some], hf g⟩

theorem State.follows_of_course (hc : t.viewOf Program.course b = s.viewOf Program.course b) : s.follows b t := by
  intro g hg
  obtain ⟨h, hh, hcourse⟩ := State.program_of_view hc hg
  have hwait : h.wait = g.wait := Program.of_course Program.wait (fun _ => rfl) hcourse
  exact ⟨h, hh, Program.of_course Program.marks (fun _ => rfl) hcourse, fun hw => hwait.symm.trans hw⟩

/-! ### Stops -/

theorem State.endIssue_follows (s : State) (b : Nat) : s.follows b (s.endIssue b) := by
  intro g hg
  obtain ⟨h, hh, hsettled⟩ := State.closeWord_settledAs hg
  unfold State.endIssue
  rw [hh]
  refine ⟨_, (State.program_of_anchors (State.showExec_anchors _ b) b).trans (State.program_setProgram_self _ b _), ?_, nofun⟩
  exact (Program.of_course Program.marks (fun _ => rfl) hsettled.course : h.marks = g.marks)

theorem State.stopAllSites_follows (s : State) (b st : Nat) : s.follows b (s.stopAllSites b st) := by
  refine (State.follows_modProgram (fun g => ?_) s).trans (State.endIssue_follows _ b)
  rw [Program.foldl_note_eq]
  exact ⟨rfl, id⟩

/-! ### Slots (R131 to R133) -/

/-- The program once its slot `i` runs (R132). -/
def Program.runsSlot (g : Program) (i : Nat) : Program :=
  { g with
    micro := { g.micro.setSlot i { g.micro.slot i with state := 2 } with runningSlot := i, pc := (g.micro.slot i).addr }
    released := decide ((g.micro.slot i).state = 3), blocked := if g.calHeld then g.blocked else 0, stall := if g.calHeld then g.stall else 0 }

theorem State.runSlot_follows (s : State) (b i : Nat) : s.follows b (s.runSlot b i) := by
  intro g hg
  have hruns : s.follows b (s.setProgram b (g.runsSlot i)) := State.follows_setProgram hg (by exact ⟨rfl, id⟩)
  unfold State.runSlot
  rw [hg]
  refine hruns.anchors ?_ g hg
  rw [State.showExec_anchors, State.alignStreams_anchors]
  split
  · rfl
  · rw [State.bump_anchors]
    exact State.anchors_foldl _ (fun u n => by split <;> simp) _ _

theorem State.scheduleOr_follows {last : State → State} (hl : ∀ u : State, u.follows b (last u)) (s : State) : s.follows b (s.scheduleOr b last) := by
  unfold State.scheduleOr
  split
  · exact State.follows_refl b s
  · split
    · exact s.runSlot_follows b _
    · split
      · exact s.runSlot_follows b _
      · exact hl s

theorem State.modMicro_follows (s : State) (b : Nat) (f : Micro → Micro) : s.follows b (s.modMicro b f) :=
  State.follows_modProgram (fun _ => by exact ⟨rfl, id⟩) s

theorem State.endSlot_follows (s : State) (b : Nat) : s.follows b (s.endSlot b) := by
  unfold State.endSlot
  split
  · exact State.follows_refl b s
  · next g hg =>
    exact ((State.follows_setProgram hg (by exact ⟨rfl, id⟩)).trans (State.modMicro_follows _ b _)).trans
      (State.scheduleOr_follows (fun u => u.endIssue_follows b) _)

theorem State.reconvergeOr_follows {last : State → State} (hl : ∀ u : State, u.follows b (last u)) (s : State) (addr : Nat) :
    s.follows b (s.reconvergeOr b addr last) := by
  unfold State.reconvergeOr
  split
  · exact State.follows_refl b s
  · next g hg =>
    dsimp only
    split
    · exact (State.follows_setProgram hg (by exact ⟨rfl, id⟩)).anchors ((State.showExec_anchors _ b).trans (State.alignStreams_anchors _ b))
    · split
      · exact (State.follows_setProgram hg (by exact ⟨rfl, id⟩)).trans (State.scheduleOr_follows hl _)
      · exact (State.follows_setProgram hg (by exact ⟨rfl, id⟩)).trans (State.scheduleOr_follows hl _)

theorem State.retireOr_follows {last : State → State} (hl : ∀ u : State, u.follows b (last u)) (s : State) :
    s.follows b (s.retireOr b last) :=
  ((s.modMicro_follows b _).trans (State.modMicro_follows _ b _)).trans (State.scheduleOr_follows hl _)

/-- A path that resumes after a trap routine, its streams led back (R143, R165). -/
theorem State.resumed_follows (hg : s.program b = some g) (hf : g.follows h) (v : Nat) (c : Prop) [Decidable c] :
    s.follows b ((if c then ((s.setProgram b h).showStreamSeq b v).departGroup b false else (s.setProgram b h).showStreamSeq b v).alignStreams
      b) := by
  refine (State.follows_setProgram hg hf).anchors ((State.alignStreams_anchors _ b).trans ?_)
  split <;> simp

theorem State.endTrap_follows (s : State) (b : Nat) : s.follows b (s.endTrap b) := by
  have hends (u : State) : u.follows b (u.endIssue b) := u.endIssue_follows b
  unfold State.endTrap
  split
  · exact State.follows_refl b s
  · next g hg =>
    split
    · exact State.follows_refl b s
    · dsimp only
      split
      · exact (State.resumed_follows hg (by exact ⟨rfl, id⟩) _ _).trans (State.scheduleOr_follows hends _)
      · split
        · exact (State.resumed_follows hg (by exact ⟨rfl, id⟩) _ _).trans (State.reconvergeOr_follows hends _ _)
        · exact (State.resumed_follows hg (by exact ⟨rfl, id⟩) _ _).trans (State.retireOr_follows hends _)
        · exact (State.resumed_follows hg (by exact ⟨rfl, id⟩) _ _).trans (State.endSlot_follows _ b)
        · exact (State.resumed_follows hg (by exact ⟨rfl, id⟩) _ _).anchors (State.showExec_anchors _ b)

theorem State.noSlotLeft_follows (s : State) (b : Nat) : s.follows b (s.noSlotLeft b) := by
  unfold State.noSlotLeft
  split
  · exact State.follows_refl b s
  · split
    · exact s.endTrap_follows b
    · exact s.endIssue_follows b

theorem State.endPath_follows (s : State) (b : Nat) : s.follows b (s.endPath b) := by
  unfold State.endPath
  split
  · exact State.follows_refl b s
  · split
    · exact s.endTrap_follows b
    · exact s.endSlot_follows b

theorem State.branchSite_follows (hg : s.program b = some g) (w c active : Nat) : s.follows b (s.branchSite b g w c active).2 := by
  unfold State.branchSite
  dsimp only
  split
  · exact State.follows_refl b s
  · split
    · exact State.follows_refl b s
    · exact (State.follows_setProgram hg (by exact ⟨rfl, id⟩)).anchors
        ((State.departGroup_anchors _ b false).trans (State.bump_anchors _ _ 1))

/-! ### Traps (R141 to R143) -/

theorem State.program_of_complete (s : State) (c : Cmd) (st res b : Nat) : (s.complete c st res).program b = s.program b := by
  unfold State.program
  rw [State.complete_programs]

/-- The program once a micro-trap is entered from outside trap mode (R141, R142). -/
def State.trapped (s : State) (b cause : Nat) (m : Micro) (x : Slot) (active info : Nat) (req : Option Cmd) (after : Nat) (g : Program) :
    Program :=
  { g with
    traps := min (g.traps + 1) (2 ^ 32 - 1)
    micro := { m with
      pc := g.header.trapHandler, repeatLeft := 0, slots := m.slots.mapIdx (fun i _ => if i = m.runningSlot then x else {}) }
    released := false, wait := 0, blocked := 0, stall := 0, seqDone := 0, dueTrap := none
    trap := some { saved := m, cause := cause, sites := active, after := after }
    hostTraps := if cause = 6 then g.hostTraps ++ [(m.wordPc, info)] else g.hostTraps
    frameWrites := g.frameWrites ++ [{ frame := s.frame b g m 0 cause info active, request := req }] }

/-- A micro-trap from outside trap mode (R141, R142). -/
theorem State.enterTrap_program {s : State} {b : Nat} {g : Program} (hg : s.program b = some g) (ht : g.trap = none) (cause : Nat) (m : Micro)
    (x : Slot) (active info : Nat) (req : Option Cmd) (after : Nat) :
    (s.enterTrap b cause m x active info req after).program b = some (s.trapped b cause m x active info req after g) := by
  unfold State.enterTrap
  rw [hg]
  dsimp only
  rw [if_neg (by simp [ht])]
  refine (State.program_of_anchors (s := ((s.bump (Reg.TRAPS b) 1).setProgram b
    { g with traps := min (g.traps + 1) (2 ^ 32 - 1) }).setProgram b (s.trapped b cause m x active info req after g)) ?_ b).trans
    (State.program_setProgram_self _ b _)
  rw [State.showExec_anchors, State.alignStreams_anchors, apply_ite State.anchors, State.departGroup_anchors, ite_self]
  rfl

/-- A micro-trap in trap mode stops the program (R143). -/
theorem State.enterTrap_double {s : State} {b : Nat} {g : Program} (hg : s.program b = some g) (ht : g.trap ≠ none) (cause : Nat) (m : Micro)
    (x : Slot) (active info : Nat) (req : Option Cmd) (after : Nat) :
    ∃ u : State, s.enterTrap b cause m x active info req after = u.stopAllSites b 0x50 ∧
      u.program b = some { g with traps := min (g.traps + 1) (2 ^ 32 - 1) } := by
  unfold State.enterTrap
  rw [hg]
  dsimp only
  rw [if_pos (Option.isSome_iff_ne_none.mpr ht)]
  refine ⟨_, rfl, ?_⟩
  split
  · rw [State.program_of_complete, State.program_setProgram_self]
  · rw [State.program_setProgram_self]

theorem State.enterTrap_follows (s : State) (b cause : Nat) (m : Micro) (x : Slot) (active info : Nat) (req : Option Cmd) (after : Nat) :
    s.follows b (s.enterTrap b cause m x active info req after) := by
  intro g hg
  cases ht : g.trap with
  | none => exact ⟨_, State.enterTrap_program hg ht cause m x active info req after, rfl, nofun⟩
  | some y =>
    obtain ⟨u, heq, hu⟩ := State.enterTrap_double hg (by simp [ht]) cause m x active info req after
    rw [heq]
    obtain ⟨h, hh, hmarks, hwait⟩ := State.stopAllSites_follows u b 0x50 _ hu
    exact ⟨h, hh, hmarks, hwait⟩

theorem State.trapAt_follows (s : State) (b cause resume info after : Nat) : s.follows b (s.trapAt b cause resume info after) := by
  unfold State.trapAt
  split
  · exact State.follows_refl b s
  · exact s.enterTrap_follows b _ _ _ _ _ _ _

/-! ### The next address (R101, R114) -/

theorem State.goTo_follows (s : State) (b w pc : Nat) : s.follows b (s.goTo b w pc) := by
  have hmoved : s.follows b (s.modProgram b (fun g => { g with micro := { g.micro with pc := pc }, wait := 0, released := false })) :=
    State.follows_modProgram (fun _ => by exact ⟨rfl, nofun⟩) s
  have hlast (u : State) : u.follows b (u.noSlotLeft b) := u.noSlotLeft_follows b
  unfold State.goTo
  dsimp only
  split
  · exact hmoved.trans (State.reconvergeOr_follows hlast _ _)
  · exact hmoved.trans (State.retireOr_follows hlast _)
  · exact hmoved.anchors ((State.showExec_anchors _ b).trans (State.alignStreams_anchors _ b))

theorem State.leaveWord_follows (s : State) (b w pc : Nat) (x : Slot) (active : Nat) (due : Option Nat) :
    s.follows b (s.leaveWord b w pc x active due) := by
  unfold State.leaveWord
  split
  · exact s.goTo_follows b w pc
  · split
    · exact State.follows_refl b s
    · next g hg => exact (State.follows_setProgram hg (by exact ⟨rfl, nofun⟩)).trans (State.enterTrap_follows _ b _ _ _ _ _ _ _)

theorem State.released_follows (s : State) (b : Nat) : s.follows b (s.modProgram b (fun g => { g with released := false })) :=
  State.follows_modProgram (fun _ => by exact ⟨rfl, id⟩) s

theorem State.steps8and9_follows (s : State) (b w c vectors serial : Nat) : s.follows b (s.steps8and9 b w c vectors serial) := by
  have htrap (cause resume info after : Nat) :
      s.follows b ((s.modProgram b (fun g => { g with released := false })).trapAt b cause resume info after) :=
    (s.released_follows b).trans (State.trapAt_follows _ b _ _ _ _)
  unfold State.steps8and9
  split
  · exact State.follows_refl b s
  next g hg =>
  dsimp only
  split
  · exact s.leaveWord_follows b w _ _ _ _
  · exact s.leaveWord_follows b w _ _ _ _
  · exact s.leaveWord_follows b w _ _ _ _
  · exact ((State.branchSite_follows hg w c _).trans (State.leaveWord_follows _ b w _ _ _ _))
  · exact s.leaveWord_follows b w _ _ _ _
  · split
    · exact s.leaveWord_follows b w _ _ _ _
    · exact (State.follows_setProgram hg (by exact ⟨rfl, nofun⟩)).anchors ((State.showExec_anchors _ b).trans (State.applyHold_anchors _ b _ _))
  · exact ((State.follows_setProgram hg (by exact ⟨rfl, nofun⟩)).anchors (State.showExec_anchors _ b))
  · split
    · exact s.leaveWord_follows b w _ _ _ _
    · exact htrap _ _ _ _
  · split
    · exact htrap _ _ _ _
    · refine (s.released_follows b).trans (State.follows.trans ?_ (State.endPath_follows _ b))
      split
      · exact State.modMicro_follows _ b _
      · exact State.follows_refl b _
  · split
    · split
      · exact s.leaveWord_follows b w _ _ _ _
      · exact htrap _ _ _ _
    · exact ((State.follows_setProgram hg (by exact ⟨rfl, id⟩)).trans (State.leaveWord_follows _ b w _ _ _ _))
  · split
    · split
      · exact s.leaveWord_follows b w _ _ _ _
      · exact htrap _ _ _ _
    · exact ((State.follows_setProgram hg (by exact ⟨rfl, id⟩)).trans (State.leaveWord_follows _ b w _ _ _ _))
  · exact s.leaveWord_follows b w _ _ _ _

theorem State.endWord_follows (s : State) (b : Nat) : s.follows b (s.endWord b) :=
  State.follows_modProgram (fun g => by
    split
    · exact ⟨rfl, id⟩
    · exact ⟨rfl, id⟩) s

theorem State.steps5to9_follows (s : State) (b w src vectors serial : Nat) : s.follows b (s.steps5to9 b w src vectors serial) := by
  unfold State.steps5to9
  split
  · exact State.follows_refl b s
  · next g hg =>
    dsimp only
    refine (State.follows.trans ?_ (State.steps8and9_follows _ b _ _ _ _)).trans (State.endWord_follows _ b)
    split
    · exact (State.follows_setProgram hg (by exact ⟨rfl, id⟩)).anchors (State.showSiteRegs_anchors _ b _)
    · exact (State.follows_setProgram hg (by exact ⟨rfl, id⟩)).anchors
        ((State.raise_anchors _ _ _ _).trans (State.showSiteRegs_anchors _ b _))

/-! ### The rest of a word that issues (R97, R153, R156) -/

theorem State.finishBlocks_follows (s : State) (b w : Nat) : s.follows b (s.finishBlocks b w) := by
  have hrest : s.follows b (if wClass w = 3 then s.issueRest b w (wRepeat w + 1) else s) := by
    split
    · exact State.follows_of_course (s.issueRest_course b w _)
    · exact State.follows_refl b s
  unfold State.finishBlocks
  dsimp only
  refine hrest.trans ?_
  generalize (if wClass w = 3 then s.issueRest b w (wRepeat w + 1) else s) = u
  split
  · exact State.follows_refl b u
  · next g hg =>
    split
    · split
      · split
        · exact (State.follows_of_course (u.closeWord_course b)).trans (State.trapAt_follows _ b 3 _ 0 0)
        · split
          · exact u.stopAllSites_follows b _
          · exact State.follows_refl b u
      · split
        · exact (State.follows_setProgram hg (by exact ⟨rfl, id⟩)).anchors (State.showExec_anchors _ b)
        · exact State.follows_refl b u
    · refine (State.follows_of_course ?_).trans (State.steps5to9_follows _ b _ _ _ _)
      rw [State.viewOf_of_anchors (State.afterVectors_anchors _ b w), State.settleResults_course]
      exact State.viewOf_setProgram hg rfl

end Follows

end Sys2Proof.Machine
end

section
/-! SUPPORT. A word that begins to issue, and waits that end (R97, R101, R102, R105). -/

namespace Sys2Proof.Machine

open Sys2Proof

section Issue

variable {s : State} {b w : Nat} {g : Program}

/-- The word of program `g` has begun to issue: it is the last one issued, its source is read (R97, R138). -/
def State.wordBegun (s : State) (b w : Nat) (g : Program) : State :=
  ((if wStallSafe w then s.takeSnapshot b else s).setFld (Reg.EXEC_PC b) g.micro.pc).modProgram b (fun h =>
    { h with
      cond := s.readCond b g w, lastWord := some h.micro.pc, begun := true, wait := 0, blocked := 0, stall := 0, lastHold := 0
      wordVector := h.vectorsIssued, micro := { h.micro with wordPc := h.micro.pc } })

/-- The word's vectors have entered the queue, its first block position's alone in a VEC_SEQ (R97, R98). -/
def State.wordOut (s : State) (b w : Nat) (g : Program) : State :=
  if wClass w = 4 then (s.wordBegun b w g).issueHold b w
  else if wReads w then (s.wordBegun b w g).issuePosition b w true
  else s.wordBegun b w g

/-- Its trigger and its analog control are attached (R112, R113). -/
def State.wordAttached (s : State) (b w : Nat) (g : Program) : State :=
  (s.wordOut b w g).attach b w (s.activeSites b g) (decide (wClass w = 4) ||
    (wReads w && decide (((s.members b).filterMap (fun n => (s.seqRec n).buffer.head?)).any (fun x => decide (cutLength x.vectors ≠ 0)))))

theorem State.issueReady_eq (hg : s.program b = some g) (w : Nat) : s.issueReady b w = (s.wordAttached b w g).finishBlocks b w := by
  unfold State.issueReady
  rw [hg]
  rfl

/-- The course of a program whose word has begun (R97). -/
def Program.begunAt (g : Program) (src : Nat) : Program :=
  { g.course with cond := src, lastWord := some g.micro.pc, begun := true, wait := 0 }

theorem State.wordBegun_course (hg : s.program b = some g) (w : Nat) :
    ∃ h, (s.wordBegun b w g).program b = some h ∧ h.course = g.begunAt (s.readCond b g w) := by
  have hsnap : ((if wStallSafe w then s.takeSnapshot b else s).setFld (Reg.EXEC_PC b) g.micro.pc).viewOf Program.course b =
      s.viewOf Program.course b := by
    refine (State.viewOf_of_anchors (State.setFld_anchors _ _ _)).trans ?_
    split
    · exact s.takeSnapshot_course b
    · rfl
  obtain ⟨h, hh, hcourse⟩ := State.program_of_view hsnap hg
  unfold State.wordBegun
  rw [State.program_modProgram_self, hh]
  refine ⟨_, rfl, ?_⟩
  have hpc : h.micro.pc = g.micro.pc := Program.of_course (fun g => g.micro.pc) (fun _ => rfl) hcourse
  change ({ h.course with cond := s.readCond b g w, lastWord := some h.micro.pc, begun := true, wait := 0 } : Program) = _
  rw [hcourse, hpc]
  rfl

/-- The course of the program once the word's vectors are out. -/
theorem State.wordAttached_course (hg : s.program b = some g) (w : Nat) :
    ∃ h, (s.wordAttached b w g).program b = some h ∧ h.course = g.begunAt (s.readCond b g w) := by
  obtain ⟨h, hh, hcourse⟩ := State.wordBegun_course hg w
  have hsame : (s.wordAttached b w g).viewOf Program.course b = (s.wordBegun b w g).viewOf Program.course b := by
    refine (State.attach_course _ b w _ _).trans ?_
    unfold State.wordOut
    split
    · exact State.issueHold_course _ b w
    · split
      · exact State.issuePosition_course _ b w true
      · rfl
  obtain ⟨h', hh', hcourse'⟩ := State.program_of_view hsame hh
  exact ⟨h', hh', hcourse'.trans hcourse⟩

/-- A word that issues is the last one issued (R97). -/
theorem State.issueReady_marks (hg : s.program b = some g) (w : Nat) :
    ∃ h, (s.issueReady b w).program b = some h ∧ h.marks = (some g.micro.pc, true, g.replays) ∧ h.wait ≠ 1 := by
  obtain ⟨h, hh, hcourse⟩ := State.wordAttached_course hg w
  obtain ⟨h', hh', hmarks, hwait⟩ := (s.wordAttached b w g).finishBlocks_follows b w h hh
  have hbegun : h.marks = (some g.micro.pc, true, g.replays) := (congrArg Program.marks hcourse : h.course.marks = _)
  have hzero : h.wait = 0 := (congrArg Program.wait hcourse : h.course.wait = _)
  rw [State.issueReady_eq hg]
  refine ⟨h', hh', hmarks.trans hbegun, fun h1 => ?_⟩
  rw [hwait h1] at hzero
  exact absurd hzero (by decide)

end Issue

/-! ### Where a wait leads (R101, R102, R126) -/

section Leave

variable {s : State} {b w pc : Nat} {g : Program}

/-- A path that goes on without a divergence-slot operation (R101). -/
theorem State.goTo_program (hg : s.program b = some g) (hop : wSlotOp w % 3 = 0) :
    (s.goTo b w pc).program b = some { g with micro := { g.micro with pc := pc }, wait := 0, released := false } := by
  have hmoved : (s.modProgram b (fun g => { g with micro := { g.micro with pc := pc }, wait := 0, released := false })).program b =
      some { g with micro := { g.micro with pc := pc }, wait := 0, released := false } := by
    rw [State.program_modProgram_self, hg, Option.map_some]
  unfold State.goTo
  dsimp only
  split
  · next h1 => exact absurd hop (by rw [h1]; decide)
  · next h2 => exact absurd hop (by rw [h2]; decide)
  · rw [State.program_of_anchors (State.showExec_anchors _ b), State.program_of_anchors (State.alignStreams_anchors _ b), hmoved]

theorem State.endWord_program (hg : s.program b = some g) (hw : g.wait = 0) :
    (s.endWord b).program b = some { g with failDrop := 0, micro := { g.micro with mask := minusMask g.micro.mask g.failDrop } } := by
  unfold State.endWord
  rw [State.program_modProgram_self, hg, Option.map_some, if_pos hw]

/-- A wait that ends without a trap and without a divergence-slot operation (R101, R126). -/
theorem State.leaveWait_ends (hg : s.program b = some g) (hdue : g.dueTrap = none) (hop : wSlotOp w % 3 = 0) :
    ∃ h, ((s.leaveWait b w pc).endWord b).program b = some h ∧ h.wait = 0 ∧ h.micro.pc = pc ∧ h.micro.lc = g.micro.lc ∧
      h.micro.mask = minusMask g.micro.mask g.failDrop := by
  have hleft := State.goTo_program (w := w) (pc := pc) (s.program_setProgram_self b { g with wait := 0, dueTrap := none }) hop
  unfold State.leaveWait State.leaveWord
  rw [hg]
  dsimp only
  rw [hdue]
  exact ⟨_, State.endWord_program hleft rfl, rfl, rfl, rfl, rfl⟩

end Leave

/-! ### The vectors that are due (R23, R156) -/

section Due

variable {s : State} {b : Nat} {g : Program}

theorem State.applyDue_program (hg : s.program b = some g) : (s.applyDue b).program b = some (g.appliedTo (s.elapsed b g)) := by
  unfold State.applyDue
  rw [hg]
  exact State.appliedTo_program hg

theorem State.applyDue_seqs (s : State) (b : Nat) : (s.applyDue b).seqs = s.seqs := by
  unfold State.applyDue
  split
  · refine (State.foldl_same State.seqs (fun u n => u.showBuffer_seqs n) _ _).trans ?_
    unfold State.modProgram
    split <;> rfl
  · rfl

theorem State.fetchWord_of_seqs {t : State} (h : t.seqs = s.seqs) (b pc : Nat) : t.fetchWord b pc = s.fetchWord b pc := by
  unfold State.fetchWord
  rw [State.seqRec_of_seqs h]

end Due

section Ends

variable {s : State} {b : Nat} {holds i w : Nat} {g : Program} {f : Frame}

/-- CONDITION_WAIT_END of a WAIT whose condition has come true (R102). -/
theorem doConditionWaitEnd_wait (hb : b < 64) (hg : s.program b = some g) (hf : s.fetchWord b g.micro.pc = some (i, f, w)) (hw : g.wait = 2)
    (he : g.ended = false) (hready : s.condReady b g w = true)
    (hall : allHold w (finalCond g.micro w (s.readCond b g w)) (s.activeSites b g) = true) :
    doConditionWaitEnd b holds s = ((s.applyDue b).leaveWait b w (g.micro.pc + 1)).endWord b := by
  have hscene := s.applyDue_scene b
  have hcore : (g.appliedTo (s.elapsed b g)).core = g.core := rfl
  have hpc : (g.appliedTo (s.elapsed b g)).micro = g.micro := rfl
  unfold doConditionWaitEnd
  dsimp only
  rw [State.applyDue_program hg]
  dsimp only
  rw [if_neg (by rw [show (g.appliedTo (s.elapsed b g)).ended = g.ended from rfl, he]; decide), hpc,
    State.fetchWord_of_seqs (State.applyDue_seqs s b), hf]
  dsimp only
  rw [show (g.appliedTo (s.elapsed b g)).wait = g.wait from rfl, hw, State.condReady_of_scene hscene hb hcore, hready,
    State.readCond_of_scene hscene hcore, State.activeSites_of_scene hscene hb hcore, hall]
  rfl

/-- CONDITION_WAIT_END of a word whose source is complete (R105). -/
theorem doConditionWaitEnd_source (hb : b < 64) (hg : s.program b = some g) (hf : s.fetchWord b g.micro.pc = some (i, f, w))
    (hw : g.wait = 1) (he : g.ended = false) (hready : s.condReady b g w = true) (hream : s.reamBlocks b = false)
    (hroom : wIssues w = true → g.queue.length < vectorQueueDepth) :
    ∃ (u : State) (h : Program), doConditionWaitEnd b holds s = u.issueReady b w ∧ u.program b = some h ∧ h.micro.pc = g.micro.pc := by
  have hscene := s.applyDue_scene b
  have hcore : (g.appliedTo (s.elapsed b g)).core = g.core := rfl
  have hfull : (wIssues w && (g.appliedTo (s.elapsed b g)).queueFull) = false := by
    cases hi : wIssues w with
    | false => rfl
    | true =>
      have hlen : (g.appliedTo (s.elapsed b g)).queue.length ≤ g.queue.length := List.length_filter_le _ _
      have hlt := hroom hi
      unfold Program.queueFull
      simp only [Bool.true_and, decide_eq_false_iff_not]
      omega
  unfold doConditionWaitEnd
  dsimp only
  rw [State.applyDue_program hg]
  dsimp only
  rw [if_neg (by rw [show (g.appliedTo (s.elapsed b g)).ended = g.ended from rfl, he]; decide),
    show (g.appliedTo (s.elapsed b g)).micro = g.micro from rfl, State.fetchWord_of_seqs (State.applyDue_seqs s b), hf]
  dsimp only
  rw [show (g.appliedTo (s.elapsed b g)).wait = g.wait from rfl, hw, State.condReady_of_scene hscene hb hcore, hready,
    State.reamBlocks_of_scene hscene, hream, hfull, if_pos ⟨rfl, rfl⟩, if_neg Bool.false_ne_true, if_neg Bool.false_ne_true]
  have hheld : ((if wIssues w then (s.applyDue b).holdPeriods b ((g.appliedTo (s.elapsed b g)).holdsBefore holds)
      else s.applyDue b).clearBlock b).viewOf Program.pace b = s.viewOf Program.pace b := by
    refine (State.clearBlock_pace _ b).trans (Eq.trans ?_ (s.applyDue_pace b))
    split
    · exact State.holdPeriods_pace _ b _
    · rfl
  obtain ⟨h, hh, hc⟩ := State.program_of_view (State.core_of_pace hheld) hg
  have hpc : h.micro.pc = g.micro.pc := Program.of_core (fun g => g.micro.pc) (fun _ => rfl) hc
  refine ⟨_, { h with wait := 0 }, rfl, ?_, hpc⟩
  rw [State.program_modProgram_self, hh, Option.map_some]

end Ends

/-- Settles O23: a wait that ends leaves by `State.leaveWait`, a word whose source has come issues by `State.issueReady`. -/
theorem waitsEnd : Obligations.WaitsEnd := by
  unfold Obligations.WaitsEnd
  refine ⟨fun s b g i w f hr hg hf hw haux he hdue hop => ?_, fun s b holds g i w f hr hg hf hw he hdue hop hready hall => ?_,
    fun s b holds g i w f hr hg hf hw he hready hream hroom => ?_, fun s b g i w f hr hg hf hw he hdue hop hout htrig hread => ?_⟩
  · obtain ⟨h, hh, hleft⟩ := State.leaveWait_ends (pc := wTarget w) hg hdue hop
    have hdo : doWaitTimeout b.val s = (s.leaveWait b.val w (wTarget w)).endWord b.val := by
      unfold doWaitTimeout
      simp [hg, hf, hw, haux, he]
    exact ⟨_, h, event_next hr (doWaitTimeout_frozen ..), hdo ▸ hh, hleft⟩
  · obtain ⟨h, hh, hwait, hpc, hlc, hmask⟩ := State.leaveWait_ends (w := w) (pc := g.micro.pc + 1) (State.applyDue_program hg) hdue hop
    exact ⟨_, h, event_next hr (doConditionWaitEnd_frozen ..), (doConditionWaitEnd_wait b.isLt hg hf hw he hready hall) ▸ hh, hwait, hpc, hlc,
      hmask⟩
  · obtain ⟨u, h, hdo, hu, hpc⟩ := doConditionWaitEnd_source (holds := holds.toNat) b.isLt hg hf hw he hready hream hroom
    obtain ⟨h', hh', hmarks, hwait⟩ := State.issueReady_marks hu w
    rw [hpc] at hmarks
    obtain ⟨hlast, hbegun, -⟩ := Program.marks_eq.mp hmarks
    exact ⟨_, h', event_next hr (doConditionWaitEnd_frozen ..), hdo ▸ hh', hlast, hbegun, hwait⟩
  · obtain ⟨h, hh, hleft⟩ := State.leaveWait_ends (pc := g.micro.pc + 1) hg hdue hop
    have hdo : doSyncRelease b.val s = (s.leaveWait b.val w (g.micro.pc + 1)).endWord b.val := by
      have hout' : g.outstanding.all (fun x => decide (g.syncVector ≤ x.firstVector)) = true := List.all_eq_true.mpr fun x hx => by simpa using hout x hx
      have htrig' : (g.triggers ++ g.carried).all (fun t => decide (g.syncSerial < t.serial)) = true := List.all_eq_true.mpr fun x hx => by simpa using htrig x hx
      have hread' : g.pendingReadings.all (fun r => decide (g.syncSerial < r.1)) = true := List.all_eq_true.mpr fun x hx => by simpa using hread x hx
      unfold doSyncRelease
      rw [hg]
      dsimp only
      rw [hf]
      dsimp only
      rw [if_pos ⟨hw, by simp [he], hout', htrig', hread'⟩]
    exact ⟨_, h, event_next hr (doSyncRelease_frozen ..), hdo ▸ hh, hleft⟩

end Sys2Proof.Machine
end

section
/-! SUPPORT. What the vectors of a word leave alone, and how many they are (R97, R98, R156). -/

namespace Sys2Proof.Machine

open Sys2Proof

/-! ### The DECKLE_STATE registers, the captured groups and the stream buffers -/

/-- What stands while the pins act: the DECKLE_STATE registers, the captured groups and the sequencers. -/
def State.floor (s : State) : (Fin 64 → BitVec 64) × SMap Group × SMap Seq := (s.wards.deckle, s.groups, s.seqs)

theorem State.openMask_of_deckle {s t : State} (h : t.wards.deckle = s.wards.deckle) {b : Nat} (hb : b < 64) : t.openMask b = s.openMask b :=
  State.openMask_of_quad (congrFun h ⟨b, hb⟩)

section Floor

variable (s : State)

@[simp] theorem State.modPin_floor (p : Nat) (f : Pin → Pin) : (s.modPin p f).floor = s.floor := rfl

@[simp] theorem State.modProgram_floor (b : Nat) (f : Program → Program) : (s.modProgram b f).floor = s.floor := by
  unfold State.modProgram
  split <;> rfl

@[simp] theorem State.showBuffer_floor (n : Nat) : (s.showBuffer n).floor = s.floor :=
  congrArg (·, s.groups, s.seqs) (congrArg Wards.deckle (s.showBuffer_wards n))

@[simp] theorem State.beforeFirst_floor (b : Nat) (g : Program) : (s.beforeFirst b g).floor = s.floor := by
  unfold State.beforeFirst
  split
  · exact State.foldl_same State.floor (fun u q => u.modPin_floor _ _) _ s
  · rfl

@[simp] theorem State.actPosition_floor (b : Nat) (g : Program) (lanes : List Block) (set : Nat) : (s.actPosition b g lanes set).floor = s.floor :=
  State.foldl_same State.floor (fun u q => by
    dsimp only
    split
    · split <;> rfl
    · split <;> rfl) _ s

/-- A block position leaves all that alone, but for the blocks that it takes. -/
theorem State.issuePosition_floor {b : Nat} {g : Program} (hg : s.program b = some g) (w : Nat) (first : Bool) :
    (s.issuePosition b w first).floor = ((s.startClock b).takeLanes b).2.floor := by
  unfold State.issuePosition
  rw [hg]
  dsimp only
  rw [State.foldl_same State.floor (fun u n => u.showBuffer_floor n), State.modProgram_floor, State.actPosition_floor, State.beforeFirst_floor]

end Floor

/-! ### The blocks that a position takes (R156) -/

section Lanes

variable (s : State) (b : Nat)

/-- Sequencer n's next block is taken into use. -/
def State.takeLane (s : State) (n : Nat) : State :=
  match (s.seqRec n).buffer with
  | _ :: l => ((s.modSeq n (fun q => { q with buffer := l })).bump (Reg.STREAM_SEQ n) 1).showRingOf n
  | [] => s

theorem State.takeLanes_eq : (s.takeLanes b).2 = (s.members b).foldl State.takeLane s := rfl

@[simp] theorem State.showRing_seqs (r : Nat) : (s.showRing r).seqs = s.seqs := by
  unfold State.showRing
  dsimp only
  split <;> rfl

@[simp] theorem State.showRing_groups (r : Nat) : (s.showRing r).groups = s.groups := by
  unfold State.showRing
  dsimp only
  split <;> rfl

@[simp] theorem State.showRingOf_wards (n : Nat) : (s.showRingOf n).wards = s.wards := by
  unfold State.showRingOf
  split
  · exact s.showRing_wards _
  · rfl

theorem State.takeLane_wards (n : Nat) : (s.takeLane n).wards = s.wards := by
  unfold State.takeLane
  split
  · have hseq : offDeckle (Reg.STREAM_SEQ n) := by simp
    rw [State.showRingOf_wards, State.bump_wards _ 1 hseq, State.modSeq_wards]
  · rfl

theorem State.takeLane_groups (n : Nat) : (s.takeLane n).groups = s.groups := by
  unfold State.takeLane State.showRingOf
  split
  · split
    · exact State.showRing_groups _ _
    · rfl
  · rfl

/-- A sequencer loses the block that it takes, and no other does. -/
theorem State.takeLane_buffer (n m : Nat) :
    ((s.takeLane n).seqRec m).buffer = if m = n then (s.seqRec m).buffer.tail else (s.seqRec m).buffer := by
  unfold State.takeLane
  split
  · next x l hl =>
    have hseqs : ((((s.modSeq n (fun q => { q with buffer := l })).bump (Reg.STREAM_SEQ n) 1).showRingOf n).seqs) =
        (s.modSeq n (fun q => { q with buffer := l })).seqs := by
      unfold State.showRingOf
      split
      · exact State.showRing_seqs _ _
      · rfl
    rw [State.seqRec_of_seqs hseqs]
    split
    · next hm => rw [hm, State.seqRec_modSeq_self, hl, List.tail_cons]
    · next hm => rw [State.seqRec_modSeq_other _ _ hm]
  · next hl =>
    split
    · next hm => rw [hm, hl, List.tail_nil]
    · rfl

theorem State.takeLanes_wards : (s.takeLanes b).2.wards = s.wards := by
  rw [State.takeLanes_eq]
  exact State.foldl_same State.wards (fun u n => u.takeLane_wards n) _ s

theorem State.takeLanes_groups : (s.takeLanes b).2.groups = s.groups := by
  rw [State.takeLanes_eq]
  exact State.foldl_same State.groups (fun u n => u.takeLane_groups n) _ s

/-- A sequencer whose only block is taken has none left. -/
theorem takeLane_foldl_empties {n : Nat} (l : List Nat) (s : State) (hn : n ∈ l ∨ (s.seqRec n).buffer = []) (hs : (s.seqRec n).buffer.length ≤ 1) :
    ((l.foldl State.takeLane s).seqRec n).buffer = [] := by
  induction l generalizing s with
  | nil => exact hn.resolve_left (List.not_mem_nil)
  | cons m l ih =>
    have hb := s.takeLane_buffer m n
    rw [List.foldl_cons]
    by_cases hnm : n = m
    · rw [if_pos hnm] at hb
      have hnil : ((s.takeLane m).seqRec n).buffer = [] := by
        rw [hb]
        exact List.eq_nil_of_length_eq_zero (by rw [List.length_tail]; omega)
      exact ih _ (.inr hnil) (by rw [hnil]; exact Nat.zero_le 1)
    · rw [if_neg hnm] at hb
      refine ih _ (hn.imp (fun h => (List.mem_cons.mp h).resolve_left hnm) hb.trans) (hb ▸ hs)

end Lanes

/-! ### What follows the vectors (R164) -/

section After

variable (s : State)

@[simp] theorem Reg.STREAM_BG_offDeckle (n : Nat) : offDeckle (Reg.STREAM_BG n) := offDeckle_of_offset rfl (by decide) (by decide)

/-- Counts of joins. -/
@[simp] theorem Reg.join_offDeckle (r : Nat) : offDeckle (Reg.BG_JOINS r) ∧ offDeckle (Reg.BG_JOIN_MISSES r) := by
  and_intros
  all_goals
    intro b _
    simp only [Reg.BG_JOINS, Reg.BG_JOIN_MISSES, Reg.bgB, Reg.seqB]
    omega

@[simp] theorem State.joinRing_wards (r n lane image segment addr : Nat) (out : Nat × Nat) :
    (s.joinRing r n lane image segment addr out).wards = s.wards := by
  have hshown : offDeckle (Reg.STREAM_MODE n) := by simp
  have hmembers : offDeckle (Reg.BG_MEMBERS r) := by simp
  have hring : offDeckle (Reg.STREAM_BG n) := by simp
  have hjoins : offDeckle (Reg.BG_JOINS r) := by simp
  unfold State.joinRing
  dsimp only
  rw [State.showRing_wards, State.bump_wards _ 1 hjoins]
  split
  · rw [State.modSeq_wards]
    refine Eq.trans (b := (((s.setFld (Reg.STREAM_MODE n) 1).setFld (Reg.STREAM_BG n) r).setFld (Reg.BG_MEMBERS r) _).wards) rfl ?_
    rw [State.setFld_wards _ _ hmembers, State.setFld_wards _ _ hring, State.setFld_wards _ _ hshown]
  · rw [State.modSeq_wards, State.setFld_wards _ _ hmembers, State.setFld_wards _ _ hring, State.setFld_wards _ _ hshown]

@[simp] theorem State.tryJoin_wards (b : Nat) (g : Program) (segment addr : Nat) : (s.tryJoin b g segment addr).wards = s.wards := by
  unfold State.tryJoin
  dsimp only
  split
  · rfl
  · split
    · rw [State.showExec_wards]
      exact State.foldl_same State.wards (fun u x => u.joinRing_wards _ _ _ _ _ _ _) _ s
    · exact State.foldl_same State.wards (fun u x => u.bump_wards 1 (by simp)) _ s

@[simp] theorem State.recordTags_wards (b : Nat) (g : Program) (addr : Nat) : (s.recordTags b g addr).wards = s.wards :=
  State.foldl_same State.wards (fun u x => by
    dsimp only
    split
    · rfl
    · split <;> rfl) _ s

@[simp] theorem State.afterVectors_wards (b w : Nat) : (s.afterVectors b w).wards = s.wards := by
  unfold State.afterVectors
  split
  · rfl
  · split
    · split
      · exact s.tryJoin_wards _ _ _ _
      · exact s.recordTags_wards _ _ _
    · rfl

end After

/-! ### How many vectors a word issues -/

/-- Vectors issued, and block positions of the word being issued. -/
def Program.tally (g : Program) : Nat × Nat := (g.vectorsIssued, g.seqDone)

section Tally

variable {s t : State} {b : Nat}

theorem State.takeSnapshot_tally (s : State) (b : Nat) : (s.takeSnapshot b).viewOf Program.tally b = s.viewOf Program.tally b := by
  unfold State.takeSnapshot
  split
  · rfl
  · next g hg =>
    dsimp only
    rw [State.viewOf_of_anchors (State.anchors_foldl _ (fun u n => u.modSeq_anchors n _) _ _)]
    exact State.viewOf_setProgram hg rfl

theorem State.takeSnapshot_scene (s : State) (b : Nat) : (s.takeSnapshot b).scene = s.scene := by
  unfold State.takeSnapshot
  split
  · rfl
  · exact State.scene_foldl _ (fun u n => u.modSeq_scene (fun _ => by rfl)) _

theorem State.attach_tally (s : State) (b w active : Nat) (vectors : Bool) :
    (s.attach b w active vectors).viewOf Program.tally b = s.viewOf Program.tally b := by
  unfold State.attach
  refine State.viewOf_modProgram (fun g => ?_) s
  dsimp only
  repeat' split
  all_goals rfl

end Tally

end Sys2Proof.Machine
end

section
/-! SUPPORT. A word whose vectors are out, as it comes to steps 5 to 9 (R97, R98, R156). -/

namespace Sys2Proof.Machine

open Sys2Proof

section Vectors

variable {s : State} {b w : Nat} {g : Program}

theorem State.wordBegun_scene (hb : b < 64) (w : Nat) (g : Program) : (s.wordBegun b w g).scene = s.scene := by
  have hoff : OffScene (Reg.EXEC_PC b) := offScene_of_seq (n := b) (o := 0x80) rfl (by decide) (by decide) (by decide) (.inl hb)
  unfold State.wordBegun
  rw [State.modProgram_scene, State.setFld_scene _ _ hoff]
  split
  · exact s.takeSnapshot_scene b
  · rfl

theorem State.wordBegun_tally (w : Nat) (g : Program) : (s.wordBegun b w g).viewOf Program.tally b = s.viewOf Program.tally b := by
  unfold State.wordBegun
  refine (State.viewOf_modProgram (fun _ => by rfl) _).trans ((State.viewOf_of_anchors (State.setFld_anchors _ _ _)).trans ?_)
  split
  · exact s.takeSnapshot_tally b
  · rfl

/-- The vectors of a VEC_HOLD (R98). -/
theorem State.issueHold_tally (hg : s.program b = some g) (w : Nat) :
    (s.issueHold b w).viewOf Program.tally b = some (g.vectorsIssued + (wRepeat w + 1), g.seqDone) := by
  obtain ⟨z, hz⟩ := s.startClock_program b hg
  unfold State.issueHold State.viewOf
  rw [hg]
  dsimp only
  rw [State.program_modProgram_self, State.program_of_anchors (State.applyHoldVector_anchors _ _ _ _), hz]
  rfl

/-- Vectors of one block position: the word's repetitions of its pass, or one in a VEC_SEQ (R98). -/
def State.positionVectors (s : State) (b w : Nat) : Nat := (if wClass w = 3 then 1 else wRepeat w + 1) * passLength (s.takeLanes b).1

theorem State.issuePosition_tally (hg : s.program b = some g) (w : Nat) (first : Bool) :
    (s.issuePosition b w first).viewOf Program.tally b = some (g.vectorsIssued + s.positionVectors b w, g.seqDone + 1) := by
  obtain ⟨z, hz⟩ := s.startClock_program b hg
  have htaken : (s.positionTaken b w g).program b = some { g with zero := z } := by
    unfold State.positionTaken
    rw [State.program_of_anchors (State.actPosition_anchors _ _ _ _ _), State.program_of_anchors (State.beforeFirst_anchors _ _ _),
      State.program_of_anchors (State.takeLanes_anchors _ _), hz]
  have hlanes : ((s.startClock b).takeLanes b).1 = (s.takeLanes b).1 := State.takeLanes_of_scene (s.startClock_scene b) b
  unfold State.issuePosition State.positionVectors
  rw [hg]
  dsimp only
  rw [State.viewOf_of_anchors (State.anchors_foldl _ (fun u n => u.showBuffer_anchors n) _ _)]
  unfold State.viewOf
  rw [State.program_modProgram_self]
  unfold State.positionTaken at htaken
  rw [htaken, hlanes]
  rfl

/-- Vectors that a word issues before steps 5 to 9, or, in a VEC_SEQ, before its second block position (R98). -/
def State.wordVectors (s : State) (b w : Nat) : Nat :=
  if wClass w = 4 then wRepeat w + 1 else if wReads w then s.positionVectors b w else 0

theorem wReads_of_seq {w : Nat} (h3 : wClass w = 3) : wReads w = true := by
  unfold wReads
  rw [h3]
  rfl

theorem wReads_class {w : Nat} (h : wReads w = true) : wClass w ≠ 4 := by
  intro h4
  unfold wReads at h
  rw [h4] at h
  exact absurd h (by decide)

theorem State.wordOut_tally (hb : b < 64) (hg : s.program b = some g) (w : Nat) : (s.wordOut b w g).viewOf Program.tally b =
    some (g.vectorsIssued + s.wordVectors b w, if wReads w then g.seqDone + 1 else g.seqDone) := by
  have htally : (s.wordBegun b w g).viewOf Program.tally b = some g.tally := by
    rw [State.wordBegun_tally]
    unfold State.viewOf
    rw [hg, Option.map_some]
  obtain ⟨h, hh, hcounts⟩ := Option.map_eq_some_iff.mp htally
  obtain ⟨hvectors, hseq⟩ := Prod.mk.injEq .. ▸ hcounts
  have hlanes : (s.wordBegun b w g).positionVectors b w = s.positionVectors b w :=
    congrArg (fun l => _ * passLength l) (State.takeLanes_of_scene (State.wordBegun_scene hb w g) b)
  unfold State.wordOut State.wordVectors
  split
  · next h4 =>
    have hreads : wReads w = false := Bool.eq_false_iff.mpr (fun hr => wReads_class hr h4)
    rw [State.issueHold_tally hh, hreads, hvectors, hseq]
    rfl
  · split
    · next hr => rw [State.issuePosition_tally hh, hlanes, hvectors, hseq]
    · exact htally

/-- The registers of the Deckles stand while the word's vectors go out. -/
theorem State.wordOut_deckle (hb : b < 64) (hg : s.program b = some g) (w : Nat) : (s.wordOut b w g).wards.deckle = s.wards.deckle := by
  have hbegun : (s.wordBegun b w g).wards.deckle = s.wards.deckle := congrArg Scene.deckle (State.wordBegun_scene hb w g)
  obtain ⟨h, hh, -⟩ := State.wordBegun_course hg w
  refine Eq.trans ?_ hbegun
  unfold State.wordOut
  split
  · have hscene : ((s.wordBegun b w g).issueHold b w).scene = (s.wordBegun b w g).scene := by
      unfold State.issueHold
      rw [hh]
      simp
    exact congrArg Scene.deckle hscene
  · split
    · have hfloor := congrArg Prod.fst (State.issuePosition_floor _ hh w true)
      have htaken := congrArg Wards.deckle (((s.wordBegun b w g).startClock b).takeLanes_wards b)
      have hclock := congrArg Scene.deckle ((s.wordBegun b w g).startClock_scene b)
      exact hfloor.trans (htaken.trans hclock)
    · rfl

/-- A word whose vectors are out: what it keeps of the program before it, the vectors, and the sites that are open. -/
theorem State.wordAttached_program (hb : b < 64) (hg : s.program b = some g) (w : Nat) :
    ∃ h, (s.wordAttached b w g).program b = some h ∧ h.course = g.begunAt (s.readCond b g w) ∧
      h.vectorsIssued = g.vectorsIssued + s.wordVectors b w ∧ h.seqDone = (if wReads w then g.seqDone + 1 else g.seqDone) := by
  obtain ⟨h, hh, hcourse⟩ := State.wordAttached_course hg w
  have htally : (s.wordAttached b w g).viewOf Program.tally b = _ := (State.attach_tally _ b w _ _).trans (State.wordOut_tally hb hg w)
  unfold State.viewOf at htally
  rw [hh, Option.map_some] at htally
  obtain ⟨hvectors, hseq⟩ := Prod.mk.injEq .. ▸ Option.some.inj htally
  exact ⟨h, hh, hcourse, hvectors, hseq⟩

theorem State.wordAttached_deckle (hb : b < 64) (hg : s.program b = some g) (w : Nat) : (s.wordAttached b w g).wards.deckle = s.wards.deckle :=
  (congrArg Wards.deckle (State.modProgram_wards _ b _)).trans (State.wordOut_deckle hb hg w)

/-- A word that has all its block positions comes to steps 5 to 9 (R97). -/
theorem State.issueReady_whole (hb : b < 64) (hg : s.program b = some g) (hone : wClass w = 3 → wRepeat w = 0) :
    ∃ (u : State) (h : Program) (vectors serial : Nat), s.issueReady b w = u.steps5to9 b w (s.readCond b g w) vectors serial ∧
      u.program b = some h ∧ h.course = g.begunAt (s.readCond b g w) ∧ h.vectorsIssued = g.vectorsIssued + s.wordVectors b w ∧
      u.openMask b = s.openMask b := by
  obtain ⟨h, hh, hcourse, hvectors, hdone⟩ := State.wordAttached_program hb hg w
  have hdeckle := State.wordAttached_deckle hb hg w
  have hcond : h.cond = s.readCond b g w := (congrArg Program.cond hcourse : h.course.cond = _)
  have hlast (h3 : wClass w = 3) : wRepeat w < h.seqDone := by
    rw [hdone, if_pos (wReads_of_seq h3), hone h3]
    exact Nat.succ_pos _
  have hrest : (if wClass w = 3 then (s.wordAttached b w g).issueRest b w (wRepeat w + 1) else s.wordAttached b w g) = s.wordAttached b w g := by
    split
    · next h3 =>
      unfold State.issueRest
      rw [hh]
      exact if_pos (hlast h3)
    · rfl
  have hover : ¬ ((decide (wClass w = 3) && decide (h.seqDone ≤ wRepeat w)) = true) := by
    rw [Bool.and_eq_true, decide_eq_true_eq, decide_eq_true_eq]
    exact fun ⟨h3, hle⟩ => absurd (hlast h3) (Nat.not_lt.mpr hle)
  obtain ⟨h', hh', hsettled, -⟩ := State.settleResults_settled
    ((s.wordAttached b w g).program_setProgram_self b { h with seqDone := 0, blocked := 0, stall := 0 })
  rw [State.issueReady_eq hg]
  unfold State.finishBlocks
  dsimp only
  rw [hrest, hh]
  dsimp only
  rw [if_neg hover, ← hcond]
  rw [← hcond] at hcourse
  refine ⟨_, h', _, _, rfl, ?_, ?_, ?_, ?_⟩
  · rw [State.program_of_anchors (State.afterVectors_anchors _ b w), hh']
  · exact hsettled.course.trans hcourse
  · exact (congrArg Program.vectorsIssued hsettled).trans hvectors
  · refine State.openMask_of_deckle ?_ hb
    rw [State.afterVectors_wards, State.settleResults_wards, State.setProgram_wards, hdeckle]

end Vectors

end Sys2Proof.Machine
end

section
/-! SUPPORT. A group that comes to its next word (R97, R116, R132, R136, R141). -/

namespace Sys2Proof.Machine

open Sys2Proof

section Come

variable {s : State} {b w i holds : Nat} {g : Program} {f : Frame}

/-- The vectors that are due have been applied, and repetitions that were cut are issued (R23, R140). -/
def State.due (s : State) (b : Nat) : State := (s.applyDue b).issueCut b

theorem State.due_scene (s : State) (b : Nat) : (s.due b).scene = s.scene := (State.issueCut_scene _ b).trans (s.applyDue_scene b)

theorem State.due_program (hg : s.program b = some g) :
    ∃ h, (s.due b).program b = some h ∧ h.core = g.core ∧ h.vectorsIssued = g.vectorsIssued + g.micro.repeatLeft ∧
      h.queue.length ≤ g.queue.length + 1 := by
  obtain ⟨h, hh, hcore, hvectors, hqueue⟩ := State.issueCut_program _ b (State.applyDue_program hg)
  refine ⟨h, hh, hcore, hvectors, hqueue.trans (Nat.succ_le_succ ?_)⟩
  exact List.length_filter_le _ _

/-- A word that is there, whole and not to wait at its slot's reconvergence (R116, R124, R125, R132). -/
theorem State.nextWord_reaches {cls : Nat → Bool} (hg : s.program b = some g) (hmay : g.mayIssue = true) (hseq : g.seqDone = 0)
    (hf : s.fetchWord b g.micro.pc = some (i, f, w)) (hclean : f.poisoned.contains (g.micro.pc % 256 / 2) = false) (hparity : parityFailed w = 0)
    (hslot : wReconverge w = true → g.micro.inUse ≤ 1 ∨ g.released = true) (hcls : cls (wClass w) = true) (holds : Nat) :
    s.nextWord b cls holds = (s.due b).reachWord b i w holds := by
  have hstays : ¬ ((wReconverge w && decide (1 < g.micro.inUse) && !g.released) = true) := by
    intro h
    simp only [Bool.and_eq_true, decide_eq_true_eq, Bool.not_eq_true'] at h
    obtain ⟨⟨hrec, huse⟩, hrel⟩ := h
    rcases hslot hrec with h1 | h1
    · omega
    · rw [hrel] at h1
      exact absurd h1 (by decide)
  unfold State.nextWord
  rw [hg]
  dsimp only
  rw [if_neg (by rw [hmay]; decide), hf]
  dsimp only
  rw [if_neg (by rw [hcls]; decide), if_neg (by rw [hseq]; decide), if_neg (by rw [hclean]; decide), if_neg (by rw [hparity]; decide), if_neg hstays]
  rfl

/-- No host trap is due (R141, R146). -/
theorem State.dueHostTrap_none (hreq : g.trapRequests = []) (hagain : g.trapsAgain.head?.map Prod.fst ≠ some g.micro.pc) (s : State) :
    s.dueHostTrap b g = none := by
  unfold State.dueHostTrap
  rw [hreq]
  split
  · next heq => exact absurd heq (List.cons_ne_nil _ _).symm
  · next heq =>
    rw [heq] at hagain
    exact if_neg (fun h => hagain (congrArg some h))
  · rfl

/-- Nothing holds the word back, and no trap is due at it: no back-pressure, host trap, pre-emption or calibration request (R136, R141). -/
structure State.unheld (s : State) (b : Nat) (g : Program) : Prop where
  requests : g.trapRequests = []
  again : g.trapsAgain.head?.map Prod.fst ≠ some g.micro.pc
  preempts : g.preempts = []
  cal : g.calWant = false
  ream : s.reamBlocks b = false

theorem State.unheld.of_scene {t : State} {h : Program} (hu : s.unheld b g) (hs : t.scene = s.scene) (hc : h.core = g.core) : t.unheld b h where
  requests := (Program.of_core Program.trapRequests (fun _ => by rfl) hc).trans hu.requests
  again := by
    have hagain : h.trapsAgain.head?.map Prod.fst = some h.micro.pc ↔ g.trapsAgain.head?.map Prod.fst = some g.micro.pc :=
      Iff.of_eq (Program.of_core (fun g => g.trapsAgain.head?.map Prod.fst = some g.micro.pc) (fun _ => by rfl) hc)
    exact fun h1 => hu.again (hagain.mp h1)
  preempts := (Program.of_core Program.preempts (fun _ => by rfl) hc).trans hu.preempts
  cal := (Program.of_core Program.calWant (fun _ => by rfl) hc).trans hu.cal
  ream := (State.reamBlocks_of_scene hs b).trans hu.ream

/-- A word that breaks a legality rule and that nothing holds back raises its trap (R116). -/
theorem State.reachWord_illegal (hg : s.program b = some g) (hu : s.unheld b g) (hbad : wordIllegal g.header g.micro g.micro.pc w = true)
    (i holds : Nat) : s.reachWord b i w holds = s.illegalWord b i g.micro.pc := by
  unfold State.reachWord
  rw [hg]
  dsimp only
  rw [hbad, hu.ream, State.dueHostTrap_none hu.requests hu.again, hu.preempts, hu.cal]
  rfl

/-- A word that nothing holds back, with its blocks there and room in the queue, is issued or waits for its source. -/
theorem State.reachWord_issues (hg : s.program b = some g) (hu : s.unheld b g) (hgood : wordIllegal g.header g.micro g.micro.pc w = false)
    (hblocks : s.blocksReady b g w = true) (hstatus : wReads w = true → s.headStatus b = 0)
    (hroom : wIssues w = true → g.queue.length < vectorQueueDepth) (i holds : Nat) : s.reachWord b i w holds = s.issueWord b i w holds := by
  have hhead : (if wReads w then s.headStatus b else 0) = 0 := by
    split
    · next hr => exact hstatus hr
    · rfl
  have hnotfull : (wIssues w && g.queueFull) = false := by
    cases hw : wIssues w with
    | false => rfl
    | true =>
      unfold Program.queueFull
      rw [Bool.true_and, decide_eq_false_iff_not]
      exact Nat.not_le.mpr (hroom hw)
  unfold State.reachWord
  rw [hg]
  dsimp only
  rw [hgood, hblocks, hu.ream, State.dueHostTrap_none hu.requests hu.again, hu.preempts, hu.cal, hhead, hnotfull]
  rfl

/-- A word whose source is complete issues, once the hold periods before it are in the queue (R97, R105). -/
theorem State.issueWord_issues (hb : b < 64) (hg : s.program b = some g) (hready : s.condReady b g w = true) (i holds : Nat) :
    ∃ (u : State) (h : Program), s.issueWord b i w holds = u.issueReady b w ∧ u.scene = s.scene ∧ u.program b = some h ∧ h.core = g.core ∧
      h.vectorsIssued = g.vectorsIssued := by
  obtain ⟨v, hv, hscene, hpace⟩ : ∃ v : State, v = (if wIssues w then s.holdPeriods b (g.holdsBefore holds) else s) ∧ v.scene = s.scene ∧
      v.viewOf Program.pace b = s.viewOf Program.pace b := by
    refine ⟨_, rfl, ?_⟩
    split
    · exact ⟨s.holdPeriods_scene b _, s.holdPeriods_pace b _⟩
    · exact ⟨rfl, rfl⟩
  have hpaced : ((v.clearBlock b).useFrame b i).viewOf Program.pace b = s.viewOf Program.pace b :=
    (State.viewOf_of_anchors (State.useFrame_anchors _ b i)).trans ((v.clearBlock_pace b).trans hpace)
  have hsame : ((v.clearBlock b).useFrame b i).scene = s.scene :=
    (State.useFrame_scene _ b i).trans ((v.clearBlock_scene hb).trans hscene)
  obtain ⟨h, hh, hp⟩ := State.program_of_view hpaced hg
  refine ⟨_, h, ?_, hsame, hh, (congrArg Program.core hp : h.pace.core = g.pace.core), (congrArg Program.vectorsIssued hp : h.pace.vectorsIssued = _)⟩
  unfold State.issueWord
  rw [hg]
  dsimp only
  rw [← hv, State.condReady_of_scene (g := g) hsame hb rfl, hready]
  rfl

/-- The words before it have been issued but for the source: what stands of the program when a word that can issue does so. -/
theorem State.nextWord_issues {cls : Nat → Bool} (hb : b < 64) (hi : s.issuable b g w) (hcls : cls (wClass w) = true) (holds : Nat) :
    ∃ (u : State) (h : Program), s.nextWord b cls holds = u.issueReady b w ∧ u.scene = s.scene ∧ u.program b = some h ∧ h.core = g.core ∧
      h.vectorsIssued = g.vectorsIssued + g.micro.repeatLeft := by
  obtain ⟨-, hg, hmay, hseq, hreq, hagain, hpre, hroom, hcal, hream, hslot, hparity, hgood, hblocks, hready, i, f, hf, hclean⟩ := hi
  have hscene := s.due_scene b
  obtain ⟨d, hd, hcore, hvectors, hqueue⟩ := State.due_program hg
  have hunheld : (s.due b).unheld b d := State.unheld.of_scene ⟨hreq, hagain, hpre, hcal, hream⟩ hscene hcore
  have hlegal : wordIllegal d.header d.micro d.micro.pc w = false :=
    (Program.of_core (fun g => wordIllegal g.header g.micro g.micro.pc w) (fun _ => by rfl) hcore).trans hgood
  have hlanes : (s.due b).blocksReady b d w = true := by
    have hsame : s.blocksReady b d w = s.blocksReady b g w := Program.of_core (fun g => s.blocksReady b g w) (fun _ => by rfl) hcore
    have hmoved : (s.due b).blocksReady b d w = s.blocksReady b d w := by
      unfold State.blocksReady
      rw [State.laneReady_of_scene hscene]
    rw [hmoved, hsame]
    unfold State.blocksReady
    rw [hseq]
    cases hr : wReads w with
    | false => rfl
    | true => exact (hblocks hr).1
  rw [State.nextWord_reaches hg hmay hseq hf hclean hparity hslot hcls, State.reachWord_issues hd hunheld hlegal hlanes
    (fun hr => (State.headStatus_of_scene hscene b).trans (hblocks hr).2) (fun hw => lt_of_le_of_lt hqueue (hroom hw))]
  obtain ⟨u, h, heq, hu, hh, hc, hv⟩ := State.issueWord_issues (holds := holds) hb hd ((State.condReady_of_scene hscene hb hcore w).trans hready) i
  exact ⟨u, h, heq, hu.trans hscene, hh, hc.trans hcore, hv.trans hvectors⟩

end Come

end Sys2Proof.Machine
end

section
/-! SUPPORT. Steps 5 to 9 of a word (R97, R101, R107 to R110). -/

namespace Sys2Proof.Machine

open Sys2Proof

/-! ### Steps 5 to 7 -/

section Steps

variable {s t : State} {b w src : Nat} {g h : Program}

theorem Micro.of_course {β : Type} (f : Micro → β) (hf : ∀ m, f m.course = f m) {m n : Micro} (hm : m.course = n.course) : f m = f n := by
  rw [← hf m, hm, hf n]

/-- The condition C of a word at step 6 (R97). -/
def State.wordCond (s : State) (b w src : Nat) (g : Program) : Nat := finalCond (g.micro.step5 w (s.activeSites b g)) w src

/-- The micro-state after step 7 of a word (R97, R107 to R110). -/
def State.wordMicro (s : State) (b w src : Nat) (g : Program) : Micro :=
  let m5 := g.micro.step5 w (s.activeSites b g)
  (if wClass w = 5 then { m5 with segment := wAux16 w } else m5).step7 w (s.wordCond b w src g) (s.activeSites b g) (s.openMask b) (g.several m5)

theorem State.slotSites_of_course (hopen : t.openMask b = s.openMask b) (hm : h.micro.course = g.micro.course) : t.slotSites b h = s.slotSites b g := by
  have hrunning : h.micro.runningSites = g.micro.runningSites := Micro.of_course Micro.runningSites (fun _ => by rfl) hm
  unfold State.slotSites
  rw [hopen, hrunning]

theorem State.activeSites_of_course (hopen : t.openMask b = s.openMask b) (hm : h.micro.course = g.micro.course) :
    t.activeSites b h = s.activeSites b g := by
  have hmask : h.micro.mask = g.micro.mask := Micro.of_course Micro.mask (fun _ => by rfl) hm
  unfold State.activeSites
  rw [State.slotSites_of_course hopen hm, hmask]

/-- Programs of one course have one condition. -/
theorem State.wordCond_of_course (hopen : t.openMask b = s.openMask b) (hm : h.micro.course = g.micro.course) (w src : Nat) :
    t.wordCond b w src h = s.wordCond b w src g := by
  unfold State.wordCond
  rw [State.activeSites_of_course hopen hm]
  exact Micro.of_course (fun m => finalCond (m.step5 w (s.activeSites b g)) w src) (fun _ => by rfl) hm

/-- Programs of one course come to micro-states of one course. -/
theorem State.wordMicro_of_course (hopen : t.openMask b = s.openMask b) (hm : h.micro.course = g.micro.course) (ht : h.trap = g.trap) (w src : Nat) :
    (t.wordMicro b w src h).course = (s.wordMicro b w src g).course := by
  have hstep (m : Micro) (several : Bool) :
      ((if wClass w = 5 then { m with segment := wAux16 w } else m).step7 w (s.wordCond b w src g) (s.activeSites b g) (s.openMask b) several).course =
        (if wClass w = 5 then { m.course with segment := wAux16 w } else m.course).step7 w (s.wordCond b w src g) (s.activeSites b g) (s.openMask b)
          several := by
    split <;> rfl
  have hseveral : h.several (h.micro.step5 w (s.activeSites b g)) = g.several (g.micro.step5 w (s.activeSites b g)) := by
    have huse : (h.micro.step5 w (s.activeSites b g)).inUse = (g.micro.step5 w (s.activeSites b g)).inUse :=
      Micro.of_course (fun m => (m.step5 w (s.activeSites b g)).inUse) (fun _ => by rfl) hm
    unfold Program.several
    rw [ht, huse]
  have h5 : (h.micro.step5 w (s.activeSites b g)).course = (g.micro.step5 w (s.activeSites b g)).course :=
    Micro.of_course (fun m => (m.step5 w (s.activeSites b g)).course) (fun _ => by rfl) hm
  unfold State.wordMicro
  dsimp only
  rw [State.wordCond_of_course hopen hm, State.activeSites_of_course hopen hm, hopen, hstep, hstep, hseveral, h5]

/-- The site registers shown are no DECKLE_STATE of the group's leader (R36). -/
theorem State.showSiteRegs_openMask (s : State) (b : Nat) (l : List Nat) : (s.showSiteRegs b l).openMask b = s.openMask b := by
  refine State.openMask_of_quad (State.foldl_same (fun s => s.quad (Reg.seqB b + 0x110)) (fun u x => ?_) l.zipIdx s)
  refine State.quad_setFld_other u x.1 (f := Reg.SITE_REG b x.2) ?_
  unfold Reg.SITE_REG
  dsimp only
  omega

theorem State.raise_openMask (s : State) {n : Nat} (hn : n < 64) (hb : b < 64) (unit info : Nat) : (s.raise n unit info).openMask b = s.openMask b :=
  State.openMask_of_deckle (congrArg Wards.deckle (s.raise_wards unit info hn)) hb

/-- The program of a word that has come to step 8. -/
def State.wordDone (s : State) (b w src : Nat) (g : Program) : Program := { g with micro := s.wordMicro b w src g }

/-- Steps 5 to 7 lead to step 8 (R97). -/
theorem State.steps5to9_comes (hb : b < 64) (hg : s.program b = some g) (w src vectors serial : Nat) :
    ∃ u : State, s.steps5to9 b w src vectors serial = (u.steps8and9 b w (s.wordCond b w src g) vectors serial).endWord b ∧
      u.program b = some (s.wordDone b w src g) ∧ u.openMask b = s.openMask b := by
  have hevent : 27 + wEvent w < 64 := by
    have : wEvent w < 2 ^ 4 := bitsOf_lt w 44 4
    omega
  have hprogram := s.program_setProgram_self b (s.wordDone b w src g)
  have hopen : (s.setProgram b (s.wordDone b w src g)).openMask b = s.openMask b := rfl
  generalize hv : s.setProgram b (s.wordDone b w src g) = v at hprogram hopen
  obtain ⟨l, hl⟩ : ∃ l, l = (g.micro.step5 w (s.activeSites b g)).siteRegs := ⟨_, rfl⟩
  refine ⟨if wEvent w = 0 then v.showSiteRegs b l else (v.showSiteRegs b l).raise (27 + wEvent w) b g.micro.pc, ?_, ?_, ?_⟩
  · unfold State.steps5to9
    rw [hg, hl, ← hv]
    rfl
  · rw [← hprogram]
    split
    · exact State.program_of_anchors (State.showSiteRegs_anchors v b l) b
    · exact State.program_of_anchors ((State.raise_anchors _ _ _ _).trans (State.showSiteRegs_anchors v b l)) b
  · rw [← hopen]
    split
    · exact v.showSiteRegs_openMask b l
    · exact (State.raise_openMask _ hevent hb _ _).trans (v.showSiteRegs_openMask b l)

/-- A word that can issue comes to step 8 with its vectors issued, its condition and the micro-state after step 7 (R97). -/
theorem State.nextWord_steps {cls : Nat → Bool} (hb : b < 64) (hi : s.issuable b g w) (hcls : cls (wClass w) = true)
    (hone : wClass w = 3 → wRepeat w = 0) (holds : Nat) :
    ∃ (u : State) (p : Program) (vectors serial : Nat),
      s.nextWord b cls holds = (u.steps8and9 b w (s.wordCond b w (s.readCond b g w) g) vectors serial).endWord b ∧ u.program b = some p ∧
        u.openMask b = s.openMask b ∧ p.vectorsIssued = g.vectorsIssued + g.micro.repeatLeft + s.wordVectors b w ∧
        p.course = { g.begunAt (s.readCond b g w) with micro := (s.wordMicro b w (s.readCond b g w) g).course } := by
  obtain ⟨u, d, heq, hscene, hd, hcore, hvectors⟩ := State.nextWord_issues hb hi hcls holds
  have hcond : u.readCond b d w = s.readCond b g w := State.readCond_of_scene hscene hcore w
  have hlanes : u.wordVectors b w = s.wordVectors b w := by
    unfold State.wordVectors State.positionVectors
    rw [State.takeLanes_of_scene hscene]
  obtain ⟨v, k, vectors, serial, hready, hk, hcourse, hcount, hopen⟩ := State.issueReady_whole hb hd hone
  have hbegun : k.course = g.begunAt (s.readCond b g w) := by
    have hpc : d.micro.pc = g.micro.pc := Program.of_core (fun g => g.micro.pc) (fun _ => by rfl) hcore
    rw [hcourse, hcond]
    unfold Program.begunAt
    rw [Program.course_of_core hcore, hpc]
  have hm : k.micro.course = g.micro.course := (congrArg Program.micro hbegun : k.course.micro = _)
  have htrap : k.trap = g.trap := (congrArg Program.trap hbegun : k.course.trap = _)
  have hopens : v.openMask b = s.openMask b := hopen.trans (State.openMask_of_scene hscene hb)
  rw [hcond] at hready
  obtain ⟨x, hsteps, hx, hxopen⟩ := State.steps5to9_comes hb hk w (s.readCond b g w) vectors serial
  rw [State.wordCond_of_course hopens hm] at hsteps
  refine ⟨x, _, vectors, serial, heq.trans (hready.trans hsteps), hx, hxopen.trans hopens, ?_, ?_⟩
  · exact hcount.trans (by rw [hvectors, hlanes])
  · have hmicro := State.wordMicro_of_course hopens hm htrap w (s.readCond b g w)
    have hsplit : (v.wordDone b w (s.readCond b g w) k).course = { k.course with micro := (v.wordMicro b w (s.readCond b g w) k).course } := rfl
    rw [hsplit, hbegun, hmicro]

end Steps

end Sys2Proof.Machine
end

section
/-! SUPPORT. Steps 8 and 9: where a word's path leads, and what it keeps (R97, R101, R126). -/

namespace Sys2Proof.Machine

open Sys2Proof

/-- What a word leaves of its program, whichever way the path takes: its mark, its vectors, its counters, registers, masks and segment. -/
def Program.results (g : Program) : Option Nat × Nat × Nat × Nat × List Nat × List Nat × Nat × List Nat × Nat :=
  (g.lastWord, g.replays, g.vectorsIssued, g.failDrop, g.micro.lc, g.micro.siteRegs, g.micro.mask, g.micro.flags, g.micro.segment)

section Results

variable {s : State} {b w : Nat} {g : Program}

theorem State.viewOf_of_program {β : Type} {v : Program → β} (hg : s.program b = some g) : s.viewOf v b = some (v g) := by
  unfold State.viewOf
  rw [hg, Option.map_some]

theorem State.stopAllSites_results (hg : s.program b = some g) (st : Nat) : (s.stopAllSites b st).viewOf Program.results b = some g.results := by
  have hnoted : (s.modProgram b (fun g => (setBits g.part 8).foldl (fun g p => g.note p st) g)).viewOf Program.results b = some g.results := by
    rw [State.viewOf_modProgram (fun g => by rw [Program.foldl_note_eq]; rfl), State.viewOf_of_program hg]
  obtain ⟨h, hh, hresults⟩ := Option.map_eq_some_iff.mp hnoted
  obtain ⟨k, hk, hsettled⟩ := State.closeWord_settledAs hh
  have hkept : k.results = h.results := by
    unfold Program.settledAs at hsettled
    rw [hsettled]
    rfl
  unfold State.stopAllSites State.endIssue
  rw [hk]
  dsimp only
  rw [State.viewOf_of_anchors (State.showExec_anchors _ b), State.viewOf_of_program (State.program_setProgram_self _ b _), ← hresults, ← hkept]
  rfl

theorem State.program_unreleased (hg : s.program b = some g) :
    (s.modProgram b (fun g => { g with released := false })).program b = some { g with released := false } := by
  rw [State.program_modProgram_self, hg, Option.map_some]

/-- A micro-trap keeps what the word has left, in trap mode too (R142, R143). -/
theorem State.trapAt_results (hg : s.program b = some g) (cause resume info after : Nat) :
    (s.trapAt b cause resume info after).viewOf Program.results b = some g.results := by
  unfold State.trapAt
  rw [hg]
  dsimp only
  cases ht : g.trap with
  | none =>
    rw [State.viewOf_of_program (State.enterTrap_program hg ht _ _ _ _ _ _ _)]
    rfl
  | some x =>
    obtain ⟨u, heq, hu⟩ := State.enterTrap_double hg (by simp [ht]) cause { g.micro with wordPc := g.micro.pc, pc := resume }
      (g.micro.slot g.micro.runningSlot) (s.activeSites b g) info none after
    rw [heq, State.stopAllSites_results hu]
    rfl

/-- A path that goes on without a divergence-slot operation keeps what the word has left. -/
theorem State.goTo_results (hg : s.program b = some g) (hop : wSlotOp w % 3 = 0) (pc : Nat) :
    (s.goTo b w pc).viewOf Program.results b = some g.results := by
  rw [State.viewOf_of_program (State.goTo_program hg hop)]
  rfl

theorem State.branchSite_results (hg : s.program b = some g) (w c active : Nat) :
    (s.branchSite b g w c active).2.viewOf Program.results b = some g.results := by
  unfold State.branchSite
  dsimp only
  split
  · exact State.viewOf_of_program hg
  · split
    · exact State.viewOf_of_program hg
    · rw [State.viewOf_of_anchors ((State.departGroup_anchors _ b false).trans (State.bump_anchors _ _ 1)),
        State.viewOf_of_program (State.program_setProgram_self _ b _)]
      rfl

/-- A word's path keeps what the word has left, but for a condition trap, a slot operation and END (R101). -/
theorem State.steps8and9_results (hg : s.program b = some g) (htrap : wTrap w = false) (hop : wSlotOp w % 3 = 0) (hend : wNext w ≠ 9)
    (c vectors serial : Nat) : (s.steps8and9 b w c vectors serial).viewOf Program.results b = some g.results := by
  have htraps (cause resume info after : Nat) :
      ((s.modProgram b (fun g => { g with released := false })).trapAt b cause resume info after).viewOf Program.results b = some g.results :=
    State.trapAt_results (State.program_unreleased hg) cause resume info after
  have hgoes (pc : Nat) : (s.goTo b w pc).viewOf Program.results b = some g.results := State.goTo_results hg hop pc
  have hcalls (stack : List Nat) (pc : Nat) : ((s.setProgram b { g with micro := { g.micro with stack := stack } }).goTo b w pc).viewOf
      Program.results b = some g.results := State.goTo_results (s.program_setProgram_self b _) hop pc
  unfold State.steps8and9
  rw [hg]
  dsimp only
  rw [htrap, Bool.false_and, if_neg Bool.false_ne_true]
  unfold State.leaveWord
  dsimp only
  split
  · exact hgoes _
  · exact hgoes _
  · exact hgoes _
  · obtain ⟨h, hh, hresults⟩ := Option.map_eq_some_iff.mp (State.branchSite_results hg w c (s.activeSites b g))
    rw [State.goTo_results hh hop, hresults]
  · exact hgoes _
  · split
    · exact hgoes _
    · rw [State.viewOf_of_anchors ((State.showExec_anchors _ b).trans (State.applyHold_anchors _ b _ _)),
        State.viewOf_of_program (State.program_setProgram_self _ b _)]
      rfl
  · rw [State.viewOf_of_anchors (State.showExec_anchors _ b), State.viewOf_of_program (State.program_setProgram_self _ b _)]
    rfl
  · exact htraps _ _ _ _
  · exact absurd (by assumption) hend
  · split
    · exact htraps _ _ _ _
    · exact hcalls _ _
  · split
    · exact htraps _ _ _ _
    · exact hcalls _ _
  · exact hgoes _

/-- Where the next-address operation gives an address, the path goes on there (R101). -/
theorem State.steps8and9_path (hg : s.program b = some g) (htrap : wTrap w = false) (hop : wSlotOp w % 3 = 0) {c pc : Nat}
    (hpath : nextPath g.micro w (anyHolds w c (s.activeSites b g)) (allHold w c (s.activeSites b g)) = some pc) (vectors serial : Nat) :
    ∃ h, (s.steps8and9 b w c vectors serial).program b = some h ∧ h.micro.pc = pc ∧ h.wait = 0 := by
  have hgoes {x : Nat} (hx : x = pc) : ∃ h, (s.goTo b w x).program b = some h ∧ h.micro.pc = pc ∧ h.wait = 0 :=
    ⟨_, State.goTo_program hg hop, hx, rfl⟩
  have hcalls (stack : List Nat) {x : Nat} (hx : x = pc) : ∃ h, ((s.setProgram b { g with micro := { g.micro with stack := stack } }).goTo b w
      x).program b = some h ∧ h.micro.pc = pc ∧ h.wait = 0 := ⟨_, State.goTo_program (s.program_setProgram_self b _) hop, hx, rfl⟩
  unfold nextPath at hpath
  unfold State.steps8and9
  rw [hg]
  dsimp only
  rw [htrap, Bool.false_and, if_neg Bool.false_ne_true]
  unfold State.leaveWord
  dsimp only
  generalize wNext w = n at hpath ⊢
  split at hpath
  · exact hgoes (Option.some.inj hpath)
  · exact hgoes (Option.some.inj hpath)
  · exact hgoes (Option.some.inj hpath)
  · exact hgoes (Option.some.inj hpath)
  · exact hgoes (Option.some.inj hpath)
  · split at hpath
    · next hall =>
      simp only [hall, if_true]
      exact hgoes (Option.some.inj hpath)
    · exact absurd hpath nofun
  · split at hpath
    · exact absurd hpath nofun
    · next hdepth =>
      simp only [hdepth, if_false]
      exact hcalls _ (Option.some.inj hpath)
  · cases hstack : g.micro.stack with
    | nil =>
      rw [hstack] at hpath
      exact absurd hpath nofun
    | cons a l =>
      rw [hstack] at hpath
      simp only
      exact hcalls _ (Option.some.inj hpath)
  · exact absurd hpath nofun

end Results

end Sys2Proof.Machine
end

section
/-! SUPPORT. Words of each class that issue (R97 to R102, R107 to R110, R156). -/

namespace Sys2Proof.Machine

open Sys2Proof

section Rows

variable {s : State} {b : Nat}

/-- The row of a class comes to the next word, where it is of the class (R98). -/
theorem wordRow_next {x : (Fin 64 → BitVec 32 → Instr) × Nat} (hx : x ∈ wordRows) {b : Fin 64} (holds : BitVec 32) :
    ∃ cls : Nat → Bool, cls x.2 = true ∧ ∀ {s : State} {g h : Program}, s.inReset = false → s.program b.val = some g →
      (s.nextWord b.val cls holds.toNat).program b.val = some h → h.replays = g.replays →
      exec (x.1 b holds) s = .next (s.nextWord b.val cls holds.toNat) := by
  have hrow (cls : Nat → Bool) {s : State} {g h : Program} (hr : s.inReset = false) (hg : s.program b.val = some g)
      (hh : (s.nextWord b.val cls holds.toNat).program b.val = some h) (hreplays : h.replays = g.replays) :
      event (mayReplay b.val (fun s => s.nextWord b.val cls holds.toNat)) s = .next (s.nextWord b.val cls holds.toNat) := by
    rw [event_next hr (mayReplay_frozen _ _ _ (fun u => u.nextWord_frozen _ _ _)),
      mayReplay_stays (k := fun s => s.nextWord b.val cls holds.toNat) hg hh hreplays]
  simp only [wordRows, List.mem_cons, List.not_mem_nil, or_false] at hx
  rcases hx with rfl | rfl | rfl | rfl | rfl | rfl
  · exact ⟨fun k => decide (k = 0) || decide (6 ≤ k), rfl, hrow _⟩
  · exact ⟨fun k => decide (k = 1), rfl, hrow _⟩
  · exact ⟨fun k => decide (k = 2), rfl, hrow _⟩
  · exact ⟨fun k => decide (k = 3), rfl, hrow _⟩
  · exact ⟨fun k => decide (k = 4), rfl, hrow _⟩
  · exact ⟨fun k => decide (k = 5), rfl, hrow _⟩

end Rows

/-! ### What a word that issues leaves -/

section Leaves

variable {s u : State} {b w src : Nat} {g p : Program}

/-- The program at the end of a word: a fail that has returned clears the mask bits of its sites, unless the word waits (R126). -/
def Program.wordEnded (g : Program) : Program :=
  { g with
    failDrop := if g.wait = 0 then 0 else g.failDrop
    micro := { g.micro with mask := if g.wait = 0 then minusMask g.micro.mask g.failDrop else g.micro.mask } }

theorem State.endWord_ended (hg : s.program b = some g) : (s.endWord b).program b = some g.wordEnded := by
  unfold State.endWord Program.wordEnded
  rw [State.program_modProgram_self, hg, Option.map_some]
  split <;> rfl

/-- A word's micro-state after step 7 is that of its class's words, but for the current segment (R100). -/
theorem State.wordMicro_eq (s : State) (b w src : Nat) (g : Program) : s.wordMicro b w src g =
    { (g.micro.step5 w (s.activeSites b g)).step7 w (s.wordCond b w src g) (s.activeSites b g) (s.openMask b)
        (g.several (g.micro.step5 w (s.activeSites b g))) with segment := if wClass w = 5 then wAux16 w else g.micro.segment } := by
  unfold State.wordMicro
  dsimp only
  split <;> rfl

/-- What a word that has come to step 8 leaves of its program. -/
theorem Program.results_of_steps {n : Nat} (hcount : p.vectorsIssued = n)
    (hcourse : p.course = { g.begunAt src with micro := (s.wordMicro b w src g).course }) :
    p.results = (some g.micro.pc, g.replays, n, g.failDrop, (s.wordMicro b w src g).lc, (s.wordMicro b w src g).siteRegs,
      (s.wordMicro b w src g).mask, (s.wordMicro b w src g).flags, (s.wordMicro b w src g).segment) := by
  have hview : p.results = { p.course with vectorsIssued := p.vectorsIssued }.results := rfl
  rw [hview, hcourse, hcount]
  rfl

/-- The address that a word's path goes on at, as steps 5 to 7 leave the program. -/
theorem nextPath_of_steps (hopen : u.openMask b = s.openMask b) (hmicro : p.micro.course = (s.wordMicro b w src g).course) (c : Nat) :
    nextPath p.micro w (anyHolds w c (u.activeSites b p)) (allHold w c (u.activeSites b p)) =
      nextPath (g.micro.step5 w (s.activeSites b g)) w
        (anyHolds w c (andMask (s.wordMicro b w src g).mask (s.slotSites b g))) (allHold w c (andMask (s.wordMicro b w src g).mask (s.slotSites b g))) := by
  have hactive : u.activeSites b p = andMask (s.wordMicro b w src g).mask (s.slotSites b g) := by
    rw [State.activeSites_of_course (g := s.wordDone b w src g) hopen hmicro]
    unfold State.activeSites State.wordDone State.slotSites
    dsimp only
    rw [State.wordMicro_eq]
    rfl
  rw [hactive, Micro.of_course (fun m => nextPath m w (anyHolds w c _) (allHold w c _)) (fun _ => by rfl) hmicro, State.wordMicro_eq]
  rfl

theorem State.wordVectors_eq (hone : wClass w = 3 → wRepeat w = 0) (s : State) (b : Nat) : s.wordVectors b w =
    if wClass w = 4 then wRepeat w + 1 else if wReads w then (wRepeat w + 1) * passLength (s.takeLanes b).1 else 0 := by
  have hpasses : (if wClass w = 3 then 1 else wRepeat w + 1) = wRepeat w + 1 := by
    split
    · next h3 => rw [hone h3]
    · rfl
  unfold State.wordVectors State.positionVectors
  rw [hpasses]

end Leaves

/-! ### A VEC_SEQ of which only the first block is there (R156) -/

section Sequence

variable {s : State} {b w : Nat} {g : Program}

theorem State.laneReady_empty {n : Nat} (hn : n ∈ s.members b) (hempty : (s.seqRec n).buffer = []) (pc seg ref : Nat) :
    s.laneReady b pc seg ref = false := by
  unfold State.laneReady
  refine List.all_eq_false.mpr ⟨n, hn, ?_⟩
  rw [hempty]
  exact Bool.false_ne_true

/-- The lanes are empty once the only block of each is taken. -/
theorem State.wordAttached_empty (hb : b < 64) (hg : s.program b = some g) (h3 : wClass w = 3) (hlead : b ∈ s.members b)
    (hsingle : (s.seqRec b).buffer.length = 1) (pc seg ref : Nat) : (s.wordAttached b w g).laneReady b pc seg ref = false := by
  obtain ⟨h, hh, -⟩ := State.wordBegun_course hg w
  have hscene : ((s.wordBegun b w g).startClock b).scene = s.scene := (State.startClock_scene _ b).trans (State.wordBegun_scene hb w g)
  have hfloor : (s.wordAttached b w g).floor = (((s.wordBegun b w g).startClock b).takeLanes b).2.floor := by
    unfold State.wordAttached State.wordOut State.attach
    rw [State.modProgram_floor, if_neg (by rw [h3]; decide), if_pos (wReads_of_seq h3), State.issuePosition_floor _ hh]
  have hgroups : (s.wordAttached b w g).groups = s.groups :=
    (congrArg (fun x => x.2.1) hfloor).trans ((State.takeLanes_groups _ b).trans (congrArg Scene.groups hscene))
  have hmembers : (s.wordAttached b w g).members b = s.members b := by
    unfold State.members State.group
    rw [hgroups]
  refine State.laneReady_empty (n := b) (hmembers ▸ hlead) ?_ pc seg ref
  rw [State.seqRec_of_seqs (congrArg (fun x => x.2.2) hfloor)]
  rw [State.takeLanes_eq]
  refine takeLane_foldl_empties _ _ (.inl ?_) ?_
  · rw [State.members_of_scene hscene]
    exact hlead
  · rw [State.heads_of_scene hscene, hsingle]

/-- Such a word waits for its next block, its first one issued (R156). -/
theorem State.issueReady_first (hb : b < 64) (hg : s.program b = some g) (hseq : g.seqDone = 0) (h3 : wClass w = 3) (hmore : 0 < wRepeat w)
    (hlead : b ∈ s.members b) (hsingle : (s.seqRec b).buffer.length = 1) :
    ∃ h, (s.issueReady b w).program b = some h ∧ h.course = g.begunAt (s.readCond b g w) ∧ h.seqDone = 1 ∧
      h.vectorsIssued = g.vectorsIssued + passLength (s.takeLanes b).1 := by
  obtain ⟨h, hh, hcourse, hvectors, hdone⟩ := State.wordAttached_program hb hg w
  have hempty (pc seg ref : Nat) := State.wordAttached_empty hb hg h3 hlead hsingle pc seg ref
  have hfirst : h.seqDone = 1 := by rw [hdone, if_pos (wReads_of_seq h3), hseq]
  have hrest : (s.wordAttached b w g).issueRest b w (wRepeat w + 1) = s.wordAttached b w g := by
    unfold State.issueRest
    rw [hh]
    dsimp only
    rw [if_neg (by omega), hempty]
    rfl
  have hstays : s.issueReady b w = s.wordAttached b w g := by
    rw [State.issueReady_eq hg]
    unfold State.finishBlocks
    dsimp only
    rw [if_pos h3, hrest, hh]
    dsimp only
    rw [if_pos (by rw [h3, hfirst, Bool.and_eq_true]; exact ⟨rfl, decide_eq_true hmore⟩), hempty, if_neg Bool.false_ne_true]
    exact if_neg (by simp)
  refine ⟨h, hstays ▸ hh, hcourse, hfirst, hvectors.trans ?_⟩
  unfold State.wordVectors State.positionVectors
  rw [if_neg (by rw [h3]; decide), if_pos (wReads_of_seq h3), if_pos h3, Nat.one_mul]

end Sequence

/-- Settles O21: a word comes to step 8 with its vectors out (`State.nextWord_steps`), and its path keeps what it has left. -/
theorem wordsIssue : Obligations.WordsIssue := by
  unfold Obligations.WordsIssue
  refine ⟨fun x hx s b holds g w src active c after m5 m7 hfits hi hclass hrepeat htrap hop hend hsrc hactive hm5 hc hm7 hafter => ?_,
    fun s b holds g w hfits hi h3 hmore hsingle => ?_⟩
  · obtain ⟨cls, hcls, hexec⟩ := wordRow_next hx holds
    have hone : wClass w = 3 → wRepeat w = 0 := fun h3 => hrepeat (hclass ▸ h3)
    have hr : s.inReset = false := hi.1
    have hg : s.program b.val = some g := hi.2.1
    subst hsrc hactive hm5 hc hm7 hafter
    obtain ⟨u, p, vectors, serial, heq, hp, hopen, hcount, hcourse⟩ := State.nextWord_steps b.isLt hi (hclass ▸ hcls) hone holds.toNat
    have hmicro : p.micro.course = (s.wordMicro b.val w (s.readCond b.val g w) g).course := (congrArg Program.micro hcourse : p.course.micro = _)
    obtain ⟨q, hq, hresults⟩ := Option.map_eq_some_iff.mp (State.steps8and9_results hp htrap hop hend
      (s.wordCond b.val w (s.readCond b.val g w) g) vectors serial)
    rw [Program.results_of_steps hcount hcourse, State.wordVectors_eq hone, State.wordMicro_eq, hclass] at hresults
    unfold Program.results at hresults
    simp only [Prod.mk.injEq] at hresults
    obtain ⟨hlast, hreplays, hvectors, hdrop, hlc, hregs, hmask, hflags, hsegment⟩ := hresults
    have hprogram := heq ▸ State.endWord_ended hq
    refine ⟨_, q.wordEnded, hexec hr hg hprogram hreplays, hprogram, hlast, hlc, hregs, ?_, hflags, fun h5 => ?_, hvectors, fun pc hpc => ?_⟩
    · exact congrArg₂ (fun m d => if q.wait = 0 then minusMask m d else m) hmask hdrop
    · exact hsegment.trans (if_pos h5)
    · have hpath := nextPath_of_steps hopen hmicro (s.wordCond b.val w (s.readCond b.val g w) g)
      rw [State.wordMicro_eq] at hpath
      obtain ⟨k, hk, hto, hwait⟩ := State.steps8and9_path hp htrap hop (hpath.trans hpc) vectors serial
      obtain rfl : q = k := Option.some.inj (hq.symm.trans hk)
      exact ⟨hto, hwait⟩
  · obtain ⟨cls, hcls, hexec⟩ := wordRow_next (x := (.vecSeq, 3)) (by simp [wordRows]) holds
    obtain ⟨hr, hg, -, hseq, -⟩ := id hi
    obtain ⟨u, d, heq, hscene, hd, hcore, hvectors⟩ := State.nextWord_issues b.isLt hi (h3 ▸ hcls) holds.toNat
    obtain ⟨hsize, -⟩ := hfits b.val b.isLt
    have hlead : b.val ∈ s.members b.val := List.mem_map.mpr ⟨0, List.mem_range.mpr hsize, rfl⟩
    have hdone : d.seqDone = 0 := (Program.of_core Program.seqDone (fun _ => by rfl) hcore).trans hseq
    have hpc : d.micro.pc = g.micro.pc := Program.of_core (fun g => g.micro.pc) (fun _ => by rfl) hcore
    obtain ⟨h, hh, hcourse, hfirst, hcount⟩ := State.issueReady_first b.isLt hd hdone h3 hmore ((State.members_of_scene hscene b.val).symm ▸ hlead)
      ((congrArg List.length (State.heads_of_scene hscene b.val)).trans (hsingle b.val hlead))
    have hbefore : d.replays = g.replays := Program.of_core Program.replays (fun _ => by rfl) hcore
    have hreplays : h.replays = g.replays := (congrArg Program.replays hcourse : h.course.replays = _).trans hbefore
    have hprogram := heq ▸ hh
    refine ⟨_, h, hexec hr hg hprogram hreplays, hprogram, hfirst, ?_, ?_, ?_⟩
    · exact (congrArg (fun g => g.micro.pc) hcourse : h.course.micro.pc = _).trans hpc
    · exact (congrArg Program.lastWord hcourse : h.course.lastWord = _).trans (congrArg some hpc)
    · rw [hcount, hvectors, State.takeLanes_of_scene hscene]

end Sys2Proof.Machine
end

section
/-! SUPPORT. END, WAIT, SYNC, TRAP, illegal and missing words (R101, R114 to R116, R131, R136, R141, R142). -/

namespace Sys2Proof.Machine

open Sys2Proof

/-! ### END of the only slot (R101, R131, R133) -/

section Last

variable {s : State} {b w : Nat} {g : Program}

theorem Micro.slot_setSlot_self_free (m : Micro) (i : Nat) : ((m.setSlot i {}).slot i).state = 0 := by
  unfold Micro.slot Micro.setSlot
  rw [List.getD_eq_getElem?_getD, List.getElem?_mapIdx]
  cases m.slots[i]? with
  | none => rfl
  | some x => exact congrArg Slot.state (if_pos rfl)

theorem Micro.slot_setSlot_other (m : Micro) {i j : Nat} (h : j ≠ i) (x : Slot) : (m.setSlot i x).slot j = m.slot j := by
  unfold Micro.slot Micro.setSlot
  rw [List.getD_eq_getElem?_getD, List.getElem?_mapIdx, List.getD_eq_getElem?_getD]
  cases m.slots[j]? with
  | none => rfl
  | some y => exact if_neg h

/-- No slot of a state is there to be scheduled (R132). -/
theorem State.nextSlot_none {m : Micro} {k : Nat} (h : ∀ i < 8, (m.slot i).state ≠ k) (s : State) (b : Nat) : s.nextSlot b m k = none := by
  have hempty : (List.range 8).filter (fun i => decide ((m.slot i).state = k)) = [] :=
    List.filter_eq_nil_iff.mpr (fun i hi => by simpa using h i (List.mem_range.mp hi))
  unfold State.nextSlot
  rw [hempty]
  rfl

theorem State.endIssue_ended (hg : s.program b = some g) : ∃ h, (s.endIssue b).program b = some h ∧ h.ended = true ∧ h.done = g.done := by
  obtain ⟨k, hk, hsettled⟩ := State.closeWord_settledAs hg
  unfold State.endIssue
  rw [hk]
  exact ⟨_, (State.program_of_anchors (State.showExec_anchors _ b) b).trans (State.program_setProgram_self _ b _), rfl,
    (congrArg Program.done hsettled : k.done = _)⟩

/-- The only slot in use ends, and with it the program, the slot's sites done (R101, R131). -/
theorem State.endSlot_last (hg : s.program b = some g) (hfree : ∀ i < 8, i ≠ g.micro.runningSlot → (g.micro.slot i).state = 0) :
    ∃ h, (s.endSlot b).program b = some h ∧ h.ended = true ∧ h.done = orMask g.done g.micro.runningSites := by
  obtain ⟨m, hm⟩ : ∃ m, m = g.micro.setSlot g.micro.runningSlot {} := ⟨_, rfl⟩
  have hslots : ∀ i < 8, (m.slot i).state = 0 := by
    intro i hi
    rw [hm]
    by_cases hrunning : i = g.micro.runningSlot
    · rw [hrunning]
      exact Micro.slot_setSlot_self_free _ _
    · rw [Micro.slot_setSlot_other _ hrunning]
      exact hfree i hi hrunning
  have hnone {k : Nat} (hk : 0 ≠ k) (u : State) : u.nextSlot b m k = none := State.nextSlot_none (fun i hi => (hslots i hi).symm ▸ hk) u b
  have hfreed : ((s.setProgram b { g with done := orMask g.done g.micro.runningSites }).freeRunning b).program b =
      some { g with done := orMask g.done g.micro.runningSites, micro := m } := by
    unfold State.freeRunning State.modMicro
    rw [State.program_modProgram_self, State.program_setProgram_self, hm]
    rfl
  obtain ⟨h, hh, hended, hdone⟩ := State.endIssue_ended hfreed
  refine ⟨h, ?_, hended, hdone⟩
  unfold State.endSlot
  rw [hg]
  dsimp only
  unfold State.scheduleOr
  rw [hfreed]
  dsimp only
  rw [hnone (by decide), hnone (by decide)]
  exact hh

end Last

/-! ### Steps 8 and 9 of END, WAIT, SYNC and TRAP -/

section Ways

variable {s : State} {b w c vectors serial : Nat} {g : Program}

theorem State.steps8and9_end (hg : s.program b = some g) (htrap : wTrap w = false) (hnext : wNext w = 9) (hmode : g.trap = none)
    (hop : wSlotOp w % 3 = 0) (hfree : ∀ i < 8, i ≠ g.micro.runningSlot → (g.micro.slot i).state = 0) :
    ∃ h, (s.steps8and9 b w c vectors serial).program b = some h ∧ h.ended = true ∧ h.done = orMask g.done g.micro.runningSites := by
  have hmain : ¬ g.trap.isSome = true := by simp [hmode]
  have hnot2 : ¬ wSlotOp w = 2 := fun h2 => absurd hop (by rw [h2]; decide)
  unfold State.steps8and9
  rw [hg]
  dsimp only
  rw [htrap, Bool.false_and, if_neg Bool.false_ne_true, hnext]
  dsimp only
  rw [if_neg hnot2]
  unfold State.endPath
  rw [State.program_unreleased hg]
  dsimp only
  rw [if_neg hmain]
  obtain ⟨h, hh, hended, hdone⟩ := State.endSlot_last (State.program_unreleased hg) hfree
  exact ⟨h, hh, hended, hdone⟩

theorem State.steps8and9_wait (hg : s.program b = some g) (htrap : wTrap w = false) (hnext : wNext w = 6)
    (hall : allHold w c (s.activeSites b g) = false) :
    ∃ h, (s.steps8and9 b w c vectors serial).program b = some h ∧ h.wait = 2 ∧ h.micro = g.micro := by
  unfold State.steps8and9
  rw [hg]
  dsimp only
  rw [htrap, Bool.false_and, if_neg Bool.false_ne_true, hnext]
  dsimp only
  rw [hall, if_neg Bool.false_ne_true]
  exact ⟨_, (State.program_of_anchors ((State.showExec_anchors _ b).trans (State.applyHold_anchors _ b _ _)) b).trans
    (State.program_setProgram_self _ b _), rfl, rfl⟩

theorem State.steps8and9_sync (hg : s.program b = some g) (htrap : wTrap w = false) (hnext : wNext w = 7) :
    ∃ h, (s.steps8and9 b w c vectors serial).program b = some h ∧ h.wait = 3 ∧ h.micro = g.micro := by
  unfold State.steps8and9
  rw [hg]
  dsimp only
  rw [htrap, Bool.false_and, if_neg Bool.false_ne_true, hnext]
  exact ⟨_, (State.program_of_anchors (State.showExec_anchors _ b) b).trans (State.program_setProgram_self _ b _), rfl, rfl⟩

/-- What a micro-trap from outside trap mode makes of a program (R142). -/
def Program.trapsInto (g h : Program) (cause : Nat) : Prop :=
  h.trap.map TrapMode.cause = some cause ∧ h.micro.pc = g.header.trapHandler ∧ h.frameWrites.length = g.frameWrites.length + 1

theorem State.trapAt_traps (hg : s.program b = some g) (hmode : g.trap = none) (cause resume info after : Nat) :
    ∃ h, (s.trapAt b cause resume info after).program b = some h ∧ g.trapsInto h cause ∧ h.replays = g.replays := by
  unfold State.trapAt
  rw [hg]
  exact ⟨_, State.enterTrap_program hg hmode cause _ _ _ _ _ _, ⟨rfl, rfl, List.length_append⟩, rfl⟩

theorem State.steps8and9_trap (hg : s.program b = some g) (htrap : wTrap w = false) (hnext : wNext w = 8) (hmode : g.trap = none) :
    ∃ h, (s.steps8and9 b w c vectors serial).program b = some h ∧ g.trapsInto h 2 := by
  obtain ⟨h, hh, htraps, -⟩ := State.trapAt_traps (State.program_unreleased hg) hmode 2 (g.micro.pc + 1) 0 (wSlotOp w % 3)
  unfold State.steps8and9
  rw [hg]
  dsimp only
  rw [htrap, Bool.false_and, if_neg Bool.false_ne_true, hnext]
  exact ⟨h, hh, htraps⟩

end Ways

/-! ### Words that are not issued (R116, R136) -/

section Unissued

variable {s : State} {b w i holds : Nat} {g : Program} {f : Frame}

/-- A word that breaks a legality rule traps in place of its effects (R116). -/
theorem State.nextWord_illegal {cls : Nat → Bool} (hg : s.program b = some g) (hmay : g.mayIssue = true) (hseq : g.seqDone = 0)
    (hu : s.unheld b g) (hslot : wReconverge w = true → g.micro.inUse ≤ 1 ∨ g.released = true) (hparity : parityFailed w = 0)
    (hf : s.fetchWord b g.micro.pc = some (i, f, w)) (hcls : cls (wClass w) = true)
    (hclean : f.poisoned.contains (g.micro.pc % 256 / 2) = false) (hmode : g.trap = none)
    (hbad : wordIllegal g.header g.micro g.micro.pc w = true) (holds : Nat) :
    ∃ h, (s.nextWord b cls holds).program b = some h ∧ g.trapsInto h 3 ∧ h.replays = g.replays := by
  obtain ⟨d, hd, hcore, -, -⟩ := State.due_program hg
  have hillegal : wordIllegal d.header d.micro d.micro.pc w = true :=
    (Program.of_core (fun g => wordIllegal g.header g.micro g.micro.pc w) (fun _ => by rfl) hcore).trans hbad
  rw [State.nextWord_reaches hg hmay hseq hf hclean hparity hslot hcls, State.reachWord_illegal hd (hu.of_scene (s.due_scene b) hcore) hillegal]
  have hpace : (((s.due b).clearBlock b).useFrame b i).viewOf Program.pace b = (s.due b).viewOf Program.pace b :=
    (State.viewOf_of_anchors (State.useFrame_anchors _ b i)).trans (State.clearBlock_pace _ b)
  obtain ⟨k, hk, hkd⟩ := State.program_of_view (State.core_of_pace hpace) hd
  have hkg : k.core = g.core := hkd.trans hcore
  have hheader : k.header = g.header := Program.of_core Program.header (fun _ => by rfl) hkg
  have hframes : k.frameWrites = g.frameWrites := Program.of_core Program.frameWrites (fun _ => by rfl) hkg
  have hreplays : k.replays = g.replays := Program.of_core Program.replays (fun _ => by rfl) hkg
  have htrap : k.trap = g.trap := Program.of_core Program.trap (fun _ => by rfl) hkg
  obtain ⟨h, hh, htraps, hr⟩ := State.trapAt_traps hk (htrap.trans hmode) 3 (d.micro.pc + 1) 0 0
  refine ⟨h, hh, ?_, hr.trans hreplays⟩
  unfold Program.trapsInto at htraps ⊢
  rw [← hheader, ← hframes]
  exact htraps

/-- A word that is not in the control store blocks the group (R136). -/
theorem State.nextWord_missing {cls : Nat → Bool} (hg : s.program b = some g) (hmay : g.mayIssue = true) (hf : s.fetchWord b g.micro.pc = none)
    (holds : Nat) : s.nextWord b cls holds = (s.setProgram b { g with blocked := 1 }).setFlag (Reg.STALL_CAUSE_MISS b) true := by
  unfold State.nextWord
  rw [hg]
  dsimp only
  rw [if_neg (by rw [hmay]; decide), hf]
  unfold State.blockOn
  rw [hg]
  rfl

end Unissued

/-! ### What steps 5 to 7 leave (R97, R109) -/

section Stays

variable {s u : State} {b w src : Nat} {g p : Program}

/-- Steps 5 to 7 leave the word's address and the slots. -/
theorem Micro.place_of_steps (hmicro : p.micro.course = (s.wordMicro b w src g).course) :
    p.micro.pc = g.micro.pc ∧ p.micro.runningSlot = g.micro.runningSlot ∧ p.micro.slots = g.micro.slots := by
  have hplace : (p.micro.pc, p.micro.runningSlot, p.micro.slots) = (g.micro.pc, g.micro.runningSlot, g.micro.slots) := by
    rw [Micro.of_course (fun m => (m.pc, m.runningSlot, m.slots)) (fun _ => by rfl) hmicro, State.wordMicro_eq]
    rfl
  obtain ⟨hpc, hrest⟩ := Prod.mk.inj hplace
  exact ⟨hpc, Prod.mk.inj hrest⟩

/-- A condition that is no counter's is the source read at step 3 (R97). -/
theorem State.wordCond_of_source (hcond : ∀ k, 8 ≤ k → k ≤ 11 → wCond w ≠ k) (s : State) (b src : Nat) (g : Program) :
    s.wordCond b w src g = finalCond g.micro w src := by
  have hnot : ¬ (8 ≤ wCond w ∧ wCond w ≤ 11) := fun ⟨hlo, hhi⟩ => hcond (wCond w) hlo hhi rfl
  unfold State.wordCond finalCond
  dsimp only
  rw [if_neg hnot, if_neg hnot]

/-- Without a mask operation the active sites stay (R109). -/
theorem State.activeSites_of_steps (hopen : u.openMask b = s.openMask b) (hmicro : p.micro.course = (s.wordMicro b w src g).course)
    (hkeep : wMaskOp w = 0) : u.activeSites b p = s.activeSites b g := by
  rw [State.activeSites_of_course (g := s.wordDone b w src g) hopen hmicro]
  unfold State.activeSites State.wordDone State.slotSites
  dsimp only
  rw [State.wordMicro_eq]
  unfold Micro.step7 Micro.maskAfter
  dsimp only
  rw [hkeep]
  rfl

end Stays

/-- Settles O22: the word comes to step 8 (`State.nextWord_steps`), where END, WAIT, SYNC and TRAP each have their way; the other words are
turned away before they issue. -/
theorem wordsEndWaitAndTrap : Obligations.WordsEndWaitAndTrap := by
  unfold Obligations.WordsEndWaitAndTrap
  refine ⟨fun x hx s b holds g w hfits hi hclass hrepeat htrap => ?_,
    fun x hx s b holds g w i f hr hg hmay hseq hreq hagain hpre hcal hream hslot hparity hf hclass hclean hmode hbad => ?_,
    fun x hx s b holds g hr hg hmay hf => ?_⟩
  · obtain ⟨cls, hcls, hexec⟩ := wordRow_next hx holds
    obtain ⟨hr, hg, -⟩ := id hi
    obtain ⟨u, p, vectors, serial, heq, hp, hopen, -, hcourse⟩ := State.nextWord_steps b.isLt hi (hclass ▸ hcls)
      (fun h3 => hrepeat (hclass ▸ h3)) holds.toNat
    have hmicro : p.micro.course = (s.wordMicro b.val w (s.readCond b.val g w) g).course := (congrArg Program.micro hcourse : p.course.micro = _)
    have hreplays : p.replays = g.replays := (congrArg Program.replays hcourse : p.course.replays = _)
    have hmode : p.trap = g.trap := (congrArg Program.trap hcourse : p.course.trap = _)
    have hdone : p.done = g.done := (congrArg Program.done hcourse : p.course.done = _)
    have hheader : p.header = g.header := (congrArg Program.header hcourse : p.course.header = _)
    have hframes : p.frameWrites = g.frameWrites := (congrArg Program.frameWrites hcourse : p.course.frameWrites = _)
    obtain ⟨hpc, hrunning, hslots⟩ := Micro.place_of_steps hmicro
    have hslot (i : Nat) : p.micro.slot i = g.micro.slot i := congrArg (·.getD i freeSlot) hslots
    have hends {q : Program} (hq : (u.steps8and9 b.val w (s.wordCond b.val w (s.readCond b.val g w) g) vectors serial).program b.val = some q) :
        ∃ t, exec (x.1 b holds) s = .next t ∧ t.program b.val = some q.wordEnded := by
      obtain ⟨k, hk, hmarks, -⟩ := State.steps8and9_follows u b.val w (s.wordCond b.val w (s.readCond b.val g w) g) vectors serial p hp
      obtain rfl : q = k := Option.some.inj (hq.symm.trans hk)
      have hprogram := heq ▸ State.endWord_ended hq
      exact ⟨_, hexec hr hg hprogram ((congrArg (fun x => x.2.2) hmarks : q.replays = p.replays).trans hreplays), hprogram⟩
    refine ⟨fun hnext htop hop hfree => ?_, fun hnext hcond hkeep hall => ?_, fun hnext => ?_, fun hnext htop => ?_⟩
    · obtain ⟨q, hq, hended, hsites⟩ := State.steps8and9_end hp htrap hnext (hmode.trans htop) hop
        (fun i hi hne => (congrArg Slot.state (hslot i)).trans (hfree i hi (hrunning ▸ hne)))
      obtain ⟨t, hexec, ht⟩ := hends hq
      refine ⟨t, _, hexec, ht, hended, hsites.trans ?_⟩
      unfold Micro.runningSites
      rw [hdone, hrunning, hslot]
    · have hfails : allHold w (s.wordCond b.val w (s.readCond b.val g w) g) (u.activeSites b.val p) = false := by
        rw [State.wordCond_of_source hcond, State.activeSites_of_steps hopen hmicro hkeep, hall]
      obtain ⟨q, hq, hwait, hstays⟩ := State.steps8and9_wait hp htrap hnext hfails
      obtain ⟨t, hexec, ht⟩ := hends hq
      exact ⟨t, _, hexec, ht, hwait, (congrArg Micro.pc hstays).trans hpc⟩
    · obtain ⟨q, hq, hwait, hstays⟩ := State.steps8and9_sync hp htrap hnext
      obtain ⟨t, hexec, ht⟩ := hends hq
      exact ⟨t, _, hexec, ht, hwait, (congrArg Micro.pc hstays).trans hpc⟩
    · obtain ⟨q, hq, hcause, hhandler, hframe⟩ := State.steps8and9_trap hp htrap hnext (hmode.trans htop)
      obtain ⟨t, hexec, ht⟩ := hends hq
      exact ⟨t, _, hexec, ht, hcause, hhandler.trans (congrArg Header.trapHandler hheader), hframe.trans (by rw [hframes])⟩
  · obtain ⟨cls, hcls, hexec⟩ := wordRow_next hx holds
    obtain ⟨h, hh, ⟨hcause, hhandler, hframe⟩, hreplays⟩ := State.nextWord_illegal hg hmay hseq ⟨hreq, hagain, hpre, hcal, hream⟩ hslot hparity hf
      (hclass ▸ hcls) hclean hmode hbad holds.toNat
    exact ⟨_, h, hexec hr hg hh hreplays, hh, hcause, hhandler, hframe⟩
  · obtain ⟨cls, -, hexec⟩ := wordRow_next hx holds
    have hmissing := State.nextWord_missing (cls := cls) hg hmay hf holds.toNat
    have hprogram : (s.nextWord b.val cls holds.toNat).program b.val = some { g with blocked := 1 } := by
      rw [hmissing, State.program_of_anchors (State.setFlag_anchors _ _ _), State.program_setProgram_self]
    refine ⟨_, _, hexec hr hg hprogram rfl, hprogram, rfl, ?_, ?_⟩
    · rw [hmissing]
      exact State.flag_setFlag_self _ _ _ (show 0 + 1 ≤ 64 by decide) (show 0 < 1 by decide)
    · rw [hmissing]
      exact State.regsBut_setFld (s.setProgram b.val { g with blocked := 1 }) _ _

end Sys2Proof.Machine
end
